-- ==== Sys2Proof/Word.lean ====
section
/-! DEFINITION. The word types of the block: registers are 32-bit words (R5), memories are read and written in bytes. -/

namespace Sys2Proof

/-- A register of the register window (R5). -/
abbrev Word := BitVec 32

/-- A byte of a byte-addressed memory. -/
abbrev Byte := BitVec 8

/-- The type of a number of `n` bits. -/
abbrev Bits (n : Nat) := BitVec n

end Sys2Proof
end

