-- ==== Sys2Proof/Machine/Types.lean ====
section
/-! DEFINITION. The shapes the register window is described with: blocks, fields, access codes (R5 to R7, R507), and
the named values of the manual that both the commands and the state use. -/

namespace Sys2Proof.Machine

/-- The blocks of the register window (R507); CMP and PGN share one block, CLK and PWR another that is split here. -/
inductive Blk where
  | glb | str | fab | fst | seq | cap | trg | tmu | dsc | cmp | sch | hq | mfl | tim | dmc | sec | clk | pwr | cal
  | flt | tmg | sym
  deriving DecidableEq, Repr

/-- The access codes of R7. -/
inductive Access where
  | rw | ro | wo | w1c | w1s | rc | rwl
  deriving DecidableEq, Repr

/-- One field of a register table: place, width, access code and reset value. -/
structure FieldDef where
  lsb   : Nat
  width : Nat
  acc   : Access
  reset : Nat
  deriving DecidableEq, Repr

/-- One register table: window address of index 0, (stride, count) of each index by descending stride, fields, and whether it
is the low word of a 64-bit pair (R5). -/
structure RegDef where
  base   : Nat
  dims   : List (Nat × Nat)
  fields : List FieldDef
  pair   : Bool
  deriving DecidableEq, Repr

/-- The place of one field of one register. -/
structure Fld where
  blk   : Blk
  addr  : Nat
  lsb   : Nat
  width : Nat
  deriving DecidableEq, Repr

/-- A requester: the host with its PCI Express requester ID, a site core, the sideband. -/
inductive Req where
  | host (id : Nat)
  | core (c : Fin 8)
  | sideband
  deriving DecidableEq, Repr

/-- The requester class of R5: every PCI Express requester is the one class host (R308). -/
def Req.cls : Req → Req
  | .host _ => .host 0
  | r => r

end Sys2Proof.Machine
end

