-- ==== Sys2Proof/Syntax.lean ====
section
/-! DEFINITION. The commands of the block: one constructor per row of spec/opcode_table.json, in the table's order, each
with the operands the spec gives it. What only the world outside the module knows (a comparator level, an ADC code, a
byte of host memory, whether a signature verifies is NOT such a thing: it is computed) stands as an operand of the
command that brings it in. -/

namespace Sys2Proof

open Machine (Req)

/-- The port, tag and epoch under which a host command was accepted (R312, R317): submission queue, TAG, EPOCH, FENCE. -/
structure Hdr where
  q     : Fin 16
  tag   : Nat
  epoch : Nat
  fence : Bool
  deriving DecidableEq, Repr

/-- A source address of R320: bits [1:0] space, [5:2] reserved, the rest the 64-byte aligned address; with the bytes the
source holds when it is host memory, or none where the module's own read of it failed. -/
structure Src where
  addr : Nat
  host : Option (List Byte)
  deriving DecidableEq, Repr

/-- The BURST operands of R321. -/
structure BurstOps where
  groves : Nat
  demand : Nat
  mode   : Nat
  trig   : Nat
  seg    : Nat
  gen    : Nat
  time   : Nat
  deriving DecidableEq, Repr

/-- The levels of one channel at the reference plane during one cycle, as the PE device returns them: (CMH, CML) at C0
and C1, or at the four unit-interval strobes, each as 2 × CMH + CML, and the mask of the pairs seen from C0 to C1. -/
structure ChanLevels where
  ch   : Nat
  c0   : Nat
  c1   : Nat
  u2   : Nat
  u3   : Nat
  win  : Nat
  deriving DecidableEq, Repr

/-- Where a parity error is met in the pattern tables, if anywhere (R79, R180). -/
inductive ParityHit where
  | none
  | symMap (ch ts code : Nat)
  | timing (kind index ts : Nat)
  deriving DecidableEq, Repr

/-- The task descriptor of R288, field by field. -/
structure TaskDesc where
  flow     : Nat
  nslot    : Nat
  mask     : Nat
  entry    : Nat
  arg      : Nat
  srcs     : List Nat
  reserved : Nat
  deriving DecidableEq, Repr

/-- Where a core's access goes and what it asks for (R282). -/
inductive CoreAccess where
  | fetch | load | store | amo
  deriving DecidableEq, Repr

/-- The port a security command came in on (R443): a submission queue, or the sideband. -/
inductive Port where
  | host (h : Hdr)
  | sideband
  deriving DecidableEq, Repr

/-- One raw submission entry of 64 bytes as the queue in host memory holds it (R312), or none where the read failed. -/
abbrev Entry := Option (List Byte)

/-- What a calibration run measured of one unit (R177, R406, R408): its group and number; the values read directly, in the order the
group's row of R408 names them, of DELAY the output stage's delay and the two ends of step 5's searches; whether what no value shows
was sound (the band-gap agreed, the current paths agreed in their overlap); and the TMU's stamps, a master tick and an interpolator
code each, of DELAY at the 64 codes, of DRV at the ball and of DEN at its tap, of PE at the returning edge. -/
structure CalResult where
  group  : Nat
  unit   : Nat
  vals   : List Int
  sound  : Bool
  stamps : List (List (Int × Nat)) := []
  deriving DecidableEq, Repr

/-- Every command of the block. -/
inductive Instr where
  -- host commands (R319, R321, R447)
  | burst (h : Hdr) (o : BurstOps)
  | stop (h : Hdr) (tag epoch : Nat)
  | abort (h : Hdr) (tag epoch : Nat)
  | nop (h : Hdr)
  | structLoad (h : Hdr) (src : Src) (length : Nat)
  | segLoad (h : Hdr) (desc : Src) (instr payload refs : Option (List Byte))
  | segUnload (h : Hdr) (seg gen : Nat)
  | codeLoad (h : Hdr) (src : Src) (length codeId coreMask : Nat) (plugin : Bool) (sig : Src)
  | evacuate (h : Hdr) (bank : Nat)
  | scratchClaim (h : Hdr) (pages : Nat)
  | scratchRelease (h : Hdr) (claim : Nat)
  | captureRelease (h : Hdr) (grove : Nat)
  | placementReport (h : Hdr) (dest maxLen : Nat)
  | snapshot (h : Hdr) (time linked : Bool) (grove id point : Nat)
  | calibrate (h : Hdr) (groups flags groves dscs : Nat)
  | taskCreate (h : Hdr) (d : TaskDesc)
  | taskFill (h : Hdr) (handle slot value : Nat)
  | taskCancel (h : Hdr) (handle : Nat)
  | authBegin (p : Port) (role keyIndex dest : Nat)
  | authFinish (p : Port) (sig : Src)
  | logout (p : Port)
  | provision (h : Hdr) (block : Src) (length dest : Nat)
  | keyLoad (h : Hdr) (block : Src)
  | keyErase (h : Hdr) (slot : Nat)
  | zeroise (h : Hdr)
  | release (p : Port)
  | quote (h : Hdr) (dest : Nat) (nonce : List Byte) (mask : Nat)
  | selfTest (h : Hdr) (fails : Nat)
  | debugUnlock (h : Hdr) (confirm : Nat)
  | random (h : Hdr) (dest len : Nat) (healthFail : Bool)
  -- burst lifecycle and fabric
  | burstAdmission
  | grantRaise
  | vfabRampDone
  | vfabSettleExpiry
  | paceRingWindow (counts : List Nat)
  | fabHoldoffExpiry
  | burstArmed (tag epoch : Nat)
  | burstStart (tag epoch : Nat)
  | granuleFetch (t : Fin 32) (seg gen gran : Nat)
  | granuleArrival (t : Fin 32)
  -- sequencer instructions (R94, R95)
  | run (t : Fin 32) (ts : Nat) (csup : Bool) (mark n : Nat)
  | rpt (t : Fin 32) (ts : Nat) (csup : Bool) (mark n : Nat)
  | loop (t : Fin 32) (dscm : Bool) (count : Nat)
  | lend (t : Fin 32)
  | mloop (t : Fin 32) (dscm : Bool) (count : Nat)
  | mend (t : Fin 32) (comb : Nat)
  | call (t : Fin 32) (seg gen : Nat)
  | ret (t : Fin 32)
  | jseg (t : Fin 32) (seg gen : Nat)
  | jmp (t : Fin 32) (tword tline : Nat)
  | brc (t : Fin 32) (cond comb tword tline : Nat)
  | clrf (t : Fin 32)
  | sig (t : Fin 32) (start count crc : Nat)
  | sigCheckDone (t : Fin 32)
  | halt (t : Fin 32) (endDen : Bool)
  | illegalInstruction (t : Fin 32)
  | hostStreamAnnounceMatch (t : Fin 32)
  | decisionResultsReady (t : Fin 32)
  -- cycle events
  | cycleCommit (t : Fin 32) (cause : Nat)
  | voidLimitReached (t : Fin 32)
  | cycleStart (t : Fin 32) (levels : List ChanLevels) (hit : ParityHit)
  | cycleResult (t : Fin 32)
  | abortEffect (t : Fin 32)
  | stopEffect (t : Fin 32)
  | captureDrain (g : Fin 32)
  | outcomeRecordWrite (tag epoch : Nat)
  -- structure load
  | structureStaged
  | structureValidated
  | dryRunPlacementDone
  | quiesceComplete
  | parkTimeout
  | structureSwap
  | structureScrub (upset : Option Nat)
  -- symbol maps, timing, PE control buses
  | symMapWrite (req : Req) (ch : Fin 128) (ts : Fin 32) (code : Fin 16) (hi : Bool) (w : Word)
  | symScrub (hit : Option (Fin 128 × Fin 32 × Fin 16))
  | tmgPeriodLoWrite (req : Req) (g ts : Fin 32) (w : Word)
  | tmgPeriodHiWrite (req : Req) (g ts : Fin 32) (w : Word)
  | timingTableWrite (req : Req) (addr : Nat) (w : Word)
  | tmgModDelayWrite (req : Req) (w : Word)
  | tmgScrub (hit : ParityHit)
  | pecGo (req : Req) (b : Fin 16) (w : Word)
  | pecTransactionDone (b : Fin 16) (rx : Nat)
  -- synchronisation, triggers in
  | syncEpochReceive
  | syncEpochDrive
  | trigInEdge (n : Fin 4) (rising : Bool) (sub : Fin 4)
  -- host streams
  | hqStrmCfgWrite (req : Req) (t : Fin 32) (w : Word)
  | hqStrmPut (req : Req) (t : Fin 32) (w : Word)
  | hqStrmAnnounce (req : Req) (t : Fin 32) (w : Word)
  -- Forester
  | segmentCopyDone (seg gen : Nat)
  | moveCopyDone (seg gen : Nat)
  | moveSwitch (seg gen : Nat)
  | corePark (c : Fin 8)
  | codePageMove
  | forQueryWrite (req : Req) (w : Word)
  | forSdramSplitWrite (req : Req) (w : Word)
  -- capture, snapshots
  | capChmaskWrite (req : Req) (i : Fin 4) (w : Word)
  | capSnapCmd (req : Req) (w : Word)
  | snapshotTimePoint
  -- trigger engines
  | trgArm (e : Fin 4)
  | trgDisarm (e : Fin 4)
  | trgForce (e : Fin 4)
  | trgSample (e : Fin 4) (ticks : List (Nat × Nat)) (late : Bool)
  | trgRecordComplete (e : Fin 4)
  | trgHoldoffExpiry (e : Fin 4)
  | trgTimeoutExpiry (e : Fin 4)
  | trgRead (e : Fin 4) (n : Nat)
  -- time measurement units
  | tmuArm (u : Fin 32)
  | tmuDisarm (u : Fin 32)
  | tmuClose (u : Fin 32)
  | tmuEdge (u : Fin 32) (tick code : Nat) (rising late : Bool)
  | tmuGateOpen (u : Fin 32)
  | tmuGateExpiry (u : Fin 32)
  | tmuResultsFinal (u : Fin 32)
  | tmuResCountRead (req : Req) (u : Fin 32)
  | tmuRead (u : Fin 32) (n : Nat)
  | tmuBinDataRead (req : Req)
  | codeDensityCalibration (unit : Nat)
  | codeDensityDone (unit : Nat) (hits : List Nat)
  | driftQualified (unit : Nat)
  -- device supply loops
  | dscModeRequest (d : Fin 16) (mode : Nat) (discAfter : Bool)
  | dscCommit (d : Fin 16)
  | dscRcBindWrite (d : Fin 16) (p : Fin 4) (w : Word)
  | loopSample (d : Fin 16) (v ihg ilg : Nat) (ovld parityError dropped : Bool)
  | loopComputeDone (d : Fin 16) (behind : Nat)
  | dscMarkerDelivery (t : Fin 32) (seg gen word depth : Nat)
  | rcPassComplete (d : Fin 16) (p : Fin 4)
  | dscScrub (hit : Option (Fin 16))
  | trcCtrlWrite (req : Req) (b : Fin 16) (w : Word)
  | dscFltLLow (d : Fin 16)
  -- pulse generators and comparators
  | switchingPeriodStart (d : Fin 16)
  | pccTrip (d : Fin 16) (step : Nat)
  | windowHighTrip (d : Fin 16) (step : Nat)
  | windowLowTrip (d : Fin 16) (step : Nat)
  | ovpTrip (d : Fin 16) (step : Nat)
  | dscOverVoltage (d : Fin 16)
  | cmpStGo (d : Fin 16)
  | cmpSelfCheckDone (d : Fin 16) (fails : Nat)
  | residualWatchTick (seen : Nat)
  -- scheduler and site cores
  | schNewCommit (c : Fin 8)
  | schTake (c : Fin 8)
  | taskDispatch (c : Fin 8) (parityError : Bool)
  | schDone (c : Fin 8) (w : Word)
  | schFill (c : Fin 8) (w : Word)
  | schCancel (c : Fin 8) (w : Word)
  | schKick (c : Fin 8)
  | schWdogWrite (c : Fin 8) (w : Word)
  | watchdogExpiry (c : Fin 8)
  | machineTimerPending (c : Fin 8)
  | schScrub (bad : Option Nat)
  | coreMemoryAccess (c : Fin 8) (kind : CoreAccess) (user : Bool) (addr bytes data : Nat)
  -- host interface
  | sqTailDoorbell (q : Fin 16) (tail : Nat)
  | commandFetch (q : Fin 16) (e : Entry)
  | hostReadResponse (h : Hdr) (ok : Bool)
  | completionWrite (q : Fin 16) (ok : Bool)
  | cqHeadDoorbell (q : Fin 16) (head : Nat)
  | queueCfgWrite (req : Req) (q : Fin 16) (cq : Bool) (w : Word)
  | coalescingTimerExpiry (q : Fin 16)
  | functionLevelReset
  | powerStateChange (d3hot : Bool)
  | hqWseqRead
  | hqPwfPop
  | canopyWindowWrite (reqId off : Nat) (data : List Byte) (poisoned : Bool)
  | canopyWindowRead (off len : Nat)
  | sdramWindowWrite (reqId off : Nat) (data : List Byte) (poisoned : Bool)
  | sdramWindowRead (off len : Nat)
  | registerWrite (req : Req) (addr : Nat) (words : List Word) (malformed : Bool)
  | pairLowRead (req : Req) (addr : Nat)
  | pairLowWrite (req : Req) (addr : Nat) (w : Word)
  | fabLockWrite (req : Req) (w : Word)
  -- Mafer links
  | frameSend (lane : Fin 8)
  | frameReceive (lane : Fin 8) (slot : Nat) (sub : Fin 4) (line : List Byte)
  | tokenGrove (lane : Fin 8) (body : List Byte)
  | tokenArmed (lane : Fin 8) (body : List Byte)
  | tokenStart (lane : Fin 8) (body : List Byte)
  | tokenSnapshot (lane : Fin 8) (body : List Byte)
  | tokenEcho (lane : Fin 8) (body : List Byte)
  | tokenIdent (lane : Fin 8) (body : List Byte)
  | tokenDesc (lane : Fin 8) (body : List Byte)
  | msgReceive (lane : Fin 8) (body : List Byte)
  | peerReceive (lane : Fin 8) (body : List Byte)
  | nakReceive (lane : Fin 8) (seq : Nat)
  | mflMsgSend (lane : Fin 8)
  | mflMsgPop (lane : Fin 8)
  | mflCfgWrite (req : Req) (w : Word)
  | fomWindow (lane : Fin 8) (fom : Nat) (ups : List Int)
  | linkRetrain (lane : Fin 8) (cause : Nat)
  | linkUp (lane : Fin 8)
  | linkFailed (lane : Fin 8)
  | linkBringupRetry (lane : Fin 8)
  | linkIdleEntry (lane : Fin 8)
  | linkIdleExit (lane : Fin 8)
  -- shared time
  | timRateWrite (req : Req) (w : Word)
  | rateApply
  | timStepHiWrite (req : Req) (w : Word)
  | stepApply
  | timCtrlWrite (req : Req) (w : Word)
  | timeRequestSend
  | timeRequestReceive (lane : Fin 8) (body : List Byte)
  | timeReplyReceive (lane : Fin 8) (body : List Byte)
  | ethFrameReceive (frame : List Byte) (ok : Bool) (frac : Nat)
  | ethFrameTransmit (frac : Nat)
  | timTxtsPop
  -- SDRAM controller
  | dmcInit
  | dmcTrainingDone (step subs : Nat) (margins : List (Nat × Nat))
  | dmcRetrain
  | sdramRequest (port : Fin 6) (write : Bool) (addr : Nat) (data : List Byte) (be deadline : Nat)
  | commandSlot (sub : Fin 4)
  | readDataReturn (port : Fin 6)
  | alertN (sub : Fin 4)
  | refreshInterval (sub : Fin 4)
  | mr4Read (sub : Fin 4) (fast hot : Bool)
  | zqCalibration (sub : Fin 4)
  | dqsOscillatorRead (sub : Fin 4)
  | rowIdleClose (sub : Fin 4) (rank bank : Nat)
  | powerDownEntry (sub : Fin 4)
  -- clocks
  | refclkMissingEdge
  | referenceMonitorWindow (count : Nat)
  | oscillatorSwitchover
  | clkReturnWrite (req : Req) (w : Word)
  | frequencyLock
  | returnComplete
  | oscillatorMonitorWindow (count : Nat)
  | forceIntWrite (req : Req) (w : Word)
  | clkoutCfgWrite (req : Req) (w : Word)
  -- power, thermal, standby
  | vinSample (mv ma : Nat)
  | vinCapRise
  | vinUndervoltage
  | vinOvervoltage
  | inputLimitExpiry
  | railOutOfRange (r : Fin 7)
  | regulatorUpdateLost (r : Fin 7)
  | temperatureUpdate (readings : List Int)
  | thermalFlagSet (k : Fin 3)
  | thermalFlagClear (k : Fin 3)
  | limitTimerExpiry
  | wearLedgerCopy
  | wearLedgerFlash
  | vinRise
  | railGood (r : Fin 7)
  | powerDown
  | resetL (level : Bool)
  | understoryTick
  | powerupCalibration
  -- calibration end, faults
  | calibrationRunEnd (results : List CalResult) (refclk : List (Int × Nat))
  | faultOccurrence (src : Nat)
  | dualSourceActive (src : Nat) (active : Bool)
  | dualLineMismatch (src : Nat)
  | collectorScrub (ok : Bool)
  | collectorLineTest (ok : Bool)
  | fltForceWrite (req : Req) (i : Fin 8) (w : Word)
  | firebreakStart (cause src : Nat)
  | dscRampOpen (d : Fin 16) (reason us : Nat)
  | faultRecordWrite
  | clearingStateEntry
  | heartbeatToggle
  -- security
  | tamperEvent (kind : Nat)
  | nonceExpiry (sideband : Bool)
  | lockoutExpiry (sideband : Bool)
  | sidebandRead (off count : Nat)
  | sidebandReset
  | getVersion
  | getCapabilities
  | negotiateAlgorithms (offer : List Byte)
  | getDigests
  | getCertificate (off len : Nat)
  | challenge (nonce : List Byte)
  | getMeasurements (index : Nat) (signed : Bool) (nonce : List Byte)
  | tapInstruction (ir : Nat)
  -- boot and update
  | bootRomStart (fails : Nat)
  | bootRecordWritten (torn : Bool)
  | confirmationTimerExpiry
  | glbBootConfirm (req : Req) (w : Word)
  | download (req : Req) (kind : Nat) (src : Src) (len : Nat)
  | verify (req : Req) (kind : Nat)
  | activate (req : Req) (kind : Nat)
  | abandon (req : Req) (kind : Nat)
  | updateOperationEnd (flashOk : Bool)
  -- rows added beside the events they undo
  | dscFltLHigh (d : Fin 16)
  | comparatorLevelFalse (d : Fin 16) (which : Fin 4)
  | qualifierTimeReached (e : Fin 4)
  | vstbyLoss
  | vstbyReturn
  | alertNHigh (sub : Fin 4)
  | pciePerstL (level : Bool)
  | calibrationRecordWritten (ok : Bool)
  deriving DecidableEq, Repr

end Sys2Proof
end

