-- ==== Sys2Proof/Config.lean ====
section
/-! DEFINITION. What an implementation fixes and what the spec leaves open. An `opaque` constant has no body: nothing can
evaluate it or prove a value of it, so a statement that holds, holds for every value. -/

namespace Sys2Proof.Config

/-- A free value: the `k`-th value the model takes where the spec leaves a value open (State.freeCtr counts them).
[log 17: DESIGN CHOICE] -/
opaque free (k : Nat) : Nat

/-- The per-message secret number of a signature the module makes (R449, R464); nothing outside can know it. [log 15: PRESUMED] -/
opaque signSecret (key : Nat) (msg : List Byte) : Nat

/-- The 56-bit nonce of a pattern package (R134); the spec does not say how the module learns it. [log 16: DESIGN CHOICE] -/
opaque packageNonce (package : Nat) : BitVec 56

/-- The key a fetch path applies for a segment whose slot a PROVISION with REGEN has erased; the spec does not say what is then
fetched (R133, R454). [log 100: DESIGN CHOICE] -/
opaque erasedKey (slot : Nat) : Nat

/-- The fine correction beyond the last calibrated code, in 1/256 LSB, from that code's own (R177, step 2: codes 1009 to 1023 lie
between no two calibrated ones). [log 173: DESIGN CHOICE] -/
opaque fineBeyond (last : Int) (fine : Nat) : Int

/-- The fused delay, in fine units, of the route from a ball to a unit's interpolator: source, index, unit (R220).
[log 173: DESIGN CHOICE] -/
opaque routeDelay (source index unit : Nat) : Int

/-- A DSC's calibration results from its readings and the values in force of the groups above (R407): groups SENSE and THRESH; the
spec does not say how a reading gives a gain or an offset. [log 165: DESIGN CHOICE] -/
opaque dscResult (group unit : Nat) (readings : List Int) (above : List (List Int)) : List Int

/-- The deterministic random bit generator's `k`-th output byte (R460). [log 15: PRESUMED] -/
opaque drbgByte (k : Nat) : Byte

/-- A key pair the module generates for itself (R454): private key, of the `k`-th generation. [log 15: PRESUMED] -/
opaque generatedKey (k : Nat) : Nat

/-- The device's fused values: serial number (R509). [log 11: DESIGN CHOICE] -/
opaque serial : Nat

/-- The Hjelosh firmware key (R451). [log 11: DESIGN CHOICE] -/
opaque firmwareKey : Nat

/-- The device secret: 384 fused bits (R451). [log 11: DESIGN CHOICE] -/
opaque deviceSecret : Nat

/-- The bytes of the identity certificate chain that the flash region of R467 holds (R465). [log 11: DESIGN CHOICE] -/
opaque chainLength : Nat

/-- The boot ROM's identity and the fuse configuration, as measured (R462). [log 11: DESIGN CHOICE] -/
opaque romIdentity : List Byte

end Sys2Proof.Config
end

