-- ==== Sys2Proof/Machine/State.lean ====
section
/-! DEFINITION. The state of the block as plain data: the register window, the byte memories, and for each part of the
module the state the spec gives it beside its registers. A register of the register tables has its one home in `Regs`;
the structures below hold only what no register shows. -/

namespace Sys2Proof.Machine

/-- The registers of one block: window address and word, strictly rising, no entry equal to the reset value. -/
abbrev RegFile := List (Nat × Word)

/-- A byte memory in canonical form: addresses strictly rising, no entry equal to what an unlisted address reads as. -/
abbrev Mem := List Host.Cell

/-- The register window, block by block (R507). -/
structure Regs where
  glb : RegFile := []
  str : RegFile := []
  fab : RegFile := []
  fst : RegFile := []
  seq : RegFile := []
  cap : RegFile := []
  trg : RegFile := []
  tmu : RegFile := []
  dsc : RegFile := []
  cmp : RegFile := []
  sch : RegFile := []
  hq  : RegFile := []
  mfl : RegFile := []
  tim : RegFile := []
  dmc : RegFile := []
  sec : RegFile := []
  clk : RegFile := []
  pwr : RegFile := []
  cal : RegFile := []
  flt : RegFile := []
  tmg : RegFile := []
  sym : RegFile := []
  deriving DecidableEq, Repr

/-- A word held for one requester class over one register pair: the read latch of R5 or the held low word of R5. -/
structure PairWord where
  req  : Req
  addr : Nat
  word : Word
  deriving DecidableEq, Repr

/-! ## Bursts (R8 to R16, R26 to R31, R114 to R119) -/

/-- The stages of R8. -/
inductive Stage where
  | declared | admitted | granted | armed | running | ended
  deriving DecidableEq, Repr

/-- The end reasons of R119. -/
inductive EndReason where
  | halt | stopped | aborted | underrun | detached | seqError | grantFailed | abortedBeforeStart | firebreak
  deriving DecidableEq, Repr

/-- A STOP or ABORT command that waits for its burst to enter Ended: the threads at which its own boundary stands, as a mask,
and whether it has taken effect on a grove (R16, R117). -/
structure Waiter where
  hdr     : Hdr
  threads : Nat
  hit     : Bool
  deriving DecidableEq, Repr

/-- A burst from Declared to Ended; when its outcome record is written it is Reported and leaves the list. -/
structure Burst where
  hdr       : Hdr
  ops       : BurstOps
  stage     : Stage
  /-- Order of admission (R27). -/
  order     : Nat
  /-- Start slot chosen, in slots of the slot counter's epoch (R114). -/
  startSlot : Option Nat
  /-- Shared time of cycle 0, once emitted. -/
  startTime : Option Nat
  /-- Raw count at which the burst became Armed. -/
  armedAt   : Nat := 0
  /-- A leader's start condition was met while ARMED tokens were still to come (R116). -/
  met       : Bool := false
  /-- Shared time of entry into Ended. -/
  endTime   : Nat
  /-- The reachable set held (R144). -/
  reach     : List (Nat × Nat)
  /-- STOP and ABORT commands that complete when the burst enters Ended (R16, R319). -/
  waiters   : List Waiter
  /-- Fault record SEQ and source of the Firebreak or FATAL fault that ended it (R432). -/
  faultSeq  : Nat
  faultSrc  : Nat
  firebreak : Bool
  fatal     : Bool
  /-- ARMED tokens received from members of a linked grove: position and period CRC (R116, R162). -/
  armedBy   : List (Nat × Nat)
  /-- Segments entered and payload lines advanced to in them, over all threads (R141): ID, generation, lines. -/
  adv       : List (Nat × Nat × Nat) := []
  /-- A burst cut while it was Declared: the reason its groves ended with, and MODE, CAUSE and GOV of their DSCs then (R117,
  R433). Its groves' own records are those of other bursts. -/
  early     : Option (EndReason × List (Nat × Nat × Nat)) := none
  deriving DecidableEq, Repr

/-! ## Sequencer threads (R92 to R121) -/

/-- Kinds of control stack entries (R97). -/
inductive StackKind where
  | loop | mloop | call
  deriving DecidableEq, Repr

/-- A control stack entry (R97). For a call, `word`, `pos`, `seg`, `gen` say where it returns. -/
structure StackEnt where
  kind   : StackKind
  word   : Nat
  pos    : Nat
  passes : Nat
  count  : Nat
  dscm   : Bool
  seg    : Nat
  gen    : Nat
  /-- Groves whose match an examined pass of this match loop has shown (R103, R105). -/
  matched : Nat
  /-- The visit of the segment that the entry returns to. -/
  visit  : Nat := 0
  deriving DecidableEq, Repr

/-- A loop-start delivery to the DSCs of a grove (R98): segment, generation, index of the LOOP word, nesting depth. -/
structure Marker where
  seg   : Nat
  gen   : Nat
  word  : Nat
  depth : Nat
  deriving DecidableEq, Repr

/-- Lines a decoded RUN or RPT has still to push. -/
structure Emit where
  rpt   : Bool
  ts    : Nat
  cen   : Bool
  mark  : Nat
  segs  : Bool
  resumed : Bool
  marks : List Marker
  left  : Nat
  seg   : Nat
  gen   : Nat
  pos   : Nat
  line  : Nat
  /-- The line lies in a match-loop pass, so its compares are match-only (R103). -/
  pass  : Bool
  /-- The next line is one the instruction stream advances to; the further cycles of an RPT are not (R91). -/
  adv   : Bool := true
  /-- The visit the lines belong to. -/
  visit : Nat := 0
  deriving DecidableEq, Repr

/-- A vector line in the pin FIFOs of every coppice the thread serves (R72): the header, one symbol per grove channel
index, and where the line came from. -/
structure Line where
  ts    : Nat
  cen   : Bool
  segs  : Bool
  resumed : Bool
  marks : List Marker
  mark  : Nat
  syms  : List Nat
  line  : Nat
  /-- In a match-loop pass (R103). -/
  pass  : Bool
  seg   : Nat
  gen   : Nat
  pline : Nat
  /-- The instruction stream advanced to the payload line for this cycle (R91). -/
  fresh : Bool
  deriving DecidableEq, Repr

/-- A committed cycle: its index and its line, or a void cycle (R36). -/
structure Cycle where
  idx  : Nat
  line : Option Line
  ts   : Nat
  /-- Start of the cycle in LSB from cycle 0, once it has started (R159). -/
  start : Nat
  deriving DecidableEq, Repr

/-- The result of one channel in one cycle (R85, R187): fail or pass, its first failing event, and capture. -/
structure ChanRes where
  ch     : Nat
  judged : Bool
  failed : Bool
  event  : Nat
  drop   : Bool
  /-- failing unit intervals, bit u. -/
  ui     : Nat
  /-- a fired or dropped capture event (R196). -/
  capt   : Bool
  /-- the captured field as stored (R196). -/
  val    : Nat
  inval  : Bool
  deriving DecidableEq, Repr

/-- A started cycle whose results wait to be combined (R183). [log 31: DEDUCED] -/
structure Started where
  cyc    : Cycle
  res    : List ChanRes
  unref  : Bool
  /-- Shared time at which the cycle ends (R433, STAMP). -/
  ends   : Nat
  deriving DecidableEq, Repr

/-- A payload granule requested or arrived (R125), for one visit: a stay in a segment without a jump, in the host tier named
by the ring number of its first granule (R130). `branch`: it lies in the branch buffer, for a successor or a transition's
target. -/
structure Gran where
  seg  : Nat
  gen  : Nat
  idx  : Nat
  data : List Byte
  visit : Nat := 0
  host : Bool := false
  branch : Bool := false
  deriving DecidableEq, Repr

/-- The instruction whose decision waits for results (R101). -/
inductive Pending where
  | brc (cond comb tword tline : Nat)
  | mend (comb : Nat)
  deriving DecidableEq, Repr

/-- A match-loop pass (R103): the stack depth of its loop, its first and last line, grove masks of judged and failing
compares, and whether a MEND has examined it. -/
structure PassRec where
  depth  : Nat
  first  : Nat
  last   : Option Nat
  judged : Nat
  failed : Nat
  examined : Bool
  deriving DecidableEq, Repr

/-- A signature check in progress (R107). -/
structure SigCheck where
  seg   : Nat
  gen   : Nat
  start : Nat
  count : Nat
  crc   : Nat
  deriving DecidableEq, Repr

/-- An underrun episode in progress (R36 to R39). -/
structure VoidEp where
  first  : Nat
  len    : Nat
  cause  : Nat
  /-- The grove stays void up to this cycle index, which ends a granule, and ends there (R38, ABORT). -/
  stopAt : Option Nat
  /-- An abort has come during the void cycles: the grove stays void to the abort's boundary (R39). -/
  held   : Bool
  deriving DecidableEq, Repr

/-- How a thread's groves end once a given number of lines has been committed. -/
structure EndAfter where
  lines  : Nat
  reason : EndReason
  endDen : Bool
  deriving DecidableEq, Repr

/-- A transition into a host-tier segment that waits for an announcement (R130): the target, and the word that entered it. -/
structure AnnWait where
  seg   : Nat
  gen   : Nat
  atSeg : Nat
  atGen : Nat
  word  : Nat
  deriving DecidableEq, Repr

/-- A sequencer thread beside its registers. [log 134: DESIGN CHOICE] -/
structure Thread where
  /-- Tag and epoch of the burst the thread serves. -/
  busy     : Option (Nat × Nat) := none
  /-- Groves of the thread's burst still running, as a mask. -/
  members  : Nat := 0
  pos      : Nat := 0
  stack    : List StackEnt := []
  /-- Lines decoded so far: the line number of the next emitted cycle. -/
  line     : Nat := 0
  /-- First line of the fail window (R101). -/
  winFrom  : Nat := 0
  pend     : Option (Nat × Pending) := none
  segsNext : Bool := false
  resNext  : Bool := false
  marksNext : List Marker := []
  todo     : List Emit := []
  requests : List Gran := []
  grans    : List Gran := []
  fifo     : List Line := []
  endAfter : Option EndAfter := none
  cycles   : Nat := 0
  lines    : Nat := 0
  lastTs   : Nat := 0
  pipe     : List Cycle := []
  started  : List Started := []
  /-- Lines whose results have been combined: all numbers below this one. -/
  resTo    : Nat := 0
  voidEp   : Option VoidEp := none
  /-- Void cycles committed in the burst. -/
  voids    : Nat := 0
  /-- A stop or abort boundary in cycle indices, and whether an abort set it (R16, R117). -/
  bound    : Option (Nat × Bool) := none
  /-- The thread waits for a host announcement of this segment (R130). -/
  annWait  : Option AnnWait := none
  /-- Members detached (R105): their mask and the count of lines after which they end. -/
  detaching : List (Nat × Nat) := []
  passes   : List PassRec := []
  /-- A linked peer ends after this cycle index, with this reason (R106, R336). -/
  peerEnd  : Option (Nat × EndReason) := none
  /-- Numbers of the lines that void cycles have come before (R104). -/
  voidAt   : List Nat := []
  sigs     : List SigCheck := []
  /-- FDIST in granules latched at admission (R121). -/
  fdist    : Nat := 4
  /-- The present visit, and the number of the next one outside the host tier (R125). -/
  visit    : Nat := 0
  visits   : Nat := 1
  /-- First and last lines of the passes of match loops that have exited: match-only for results that come later (R103, R106). -/
  spans    : List (Nat × Nat) := []
  deriving DecidableEq, Repr

/-- An open segment visit (R192). [log 21: DEDUCED] -/
structure Visit where
  seg     : Nat
  gen     : Nat
  resumed : Bool
  unref   : Bool
  fails   : Nat
  start   : Nat
  first   : Option Nat
  lines   : Nat
  mask    : Nat
  deriving DecidableEq, Repr

/-- An open fail-map run and the bin in progress (R193). -/
structure MapRun where
  firstBin : Nat
  run      : Nat
  fails    : Nat
  mask     : Nat
  bin      : Nat
  binMask  : Nat
  binFails : Nat
  deriving DecidableEq, Repr

/-- An open value granule (R197). -/
structure ValGran where
  cycle : Nat
  lines : List (List Byte)
  inval : Nat
  unref : Bool
  deriving DecidableEq, Repr

/-- A placed run of pages: in the SDRAM or the Canopy, first page and byte size. -/
structure Place where
  sdram : Bool
  page  : Nat
  bytes : Nat
  deriving DecidableEq, Repr

/-- A grove beside its registers: how it ends, its void range, its results and its capture writer.
[log 24: DESIGN CHOICE; log 27: DESIGN CHOICE; log 134: DESIGN CHOICE] -/
structure Grove where
  /-- Tag and epoch of the present or last burst that named the grove. -/
  burst     : Option (Nat × Nat) := none
  ended     : Option EndReason := none
  peer      : Bool := false
  cycle0    : Bool := false
  lastCycle : Option Nat := none
  /-- The last cycle taken in, void ones too (R199). -/
  lastAny   : Option Nat := none
  emittedTo : Option Nat := none
  lines     : Nat := 0
  stamp     : Nat := 0
  voidFirst : Option Nat := none
  voidLast  : Option Nat := none
  unrefFirst : Option Nat := none
  unrefLast  : Option Nat := none
  /-- The cycle in progress at the start of the present reference-monitor window, 0 where it began before cycle 0 (R385). -/
  winCycle  : Nat := 0
  /-- Failing line numbers the FAIL condition may still see (R101). -/
  failLines : List Nat := []
  timedOut  : Bool := false
  /-- Start of the next cycle, in LSB from cycle 0 (R159), and the period of the cycle before it. -/
  start     : Nat := 0
  period    : Nat := 16384
  /-- The instant of cycle 0 at the reference plane, in LSB since reset: its slot's REFCLK edge, shifted by TMG_MOD_DELAY (R175). -/
  origin    : Int := 0
  /-- MARK and SEGS over time (R207), latest first: the instant of each change, in LSB since reset, and the values from it on. -/
  marks     : List (Int × Nat × Bool) := []
  halted    : Bool := true
  fetch     : Option (Nat × Nat × Nat) := none
  /-- The two latest capture buffers, latest first (R152). -/
  bufs      : List Place := []
  capOpen   : Bool := false
  capMode   : Nat := 1
  vcap      : Bool := false
  recs      : Nat := 0
  lost      : Nat := 0
  failHead  : Nat := 0
  visit     : Option Visit := none
  mapRun    : Option MapRun := none
  valGran   : Option ValGran := none
  vGrans    : Nat := 0
  vLost     : Nat := 0
  vHead     : Nat := 0
  /-- Value granules held, oldest first: offset in the value area and bytes. -/
  vHeld     : List (Nat × Nat) := []
  drained   : Bool := false
  unrecorded : Bool := false
  /-- Tuning values of FAB_URUN_CFG and FAB_VOID_LIMIT latched at admission (R39). -/
  fillStart  : Nat := 24
  fillResume : Nat := 8
  voidLimit  : Nat := 0
  /-- MODE, CAUSE and GOV of the grove's DSCs at its end (R433): DSC number, word. -/
  dscEnd    : List (Nat × Nat) := []
  /-- Traffic in bits since the present granule began and the granule's length so far in LSB (R32). -/
  traffic   : Nat := 0
  span      : Nat := 0
  /-- The same of the 31 granules before it, latest first, and the demand of the latest whole window. -/
  windows   : List (Nat × Nat) := []
  demand    : Nat := 0
  deriving DecidableEq, Repr

/-- The four paths of a channel (R163). -/
inductive Path | drv | den | cmh | cml
  deriving DecidableEq, Repr

/-- One launch of a fired event (R158, R163): its path and generator, its placed time in LSB from cycle 0, and the launch
itself, split into master periods from the boundary that cycle 0 starts at, a fine code in LSB, and the interpolator's
correction in 1/256 LSB. -/
structure Launch where
  path   : Path
  idx    : Nat
  placed : Int
  coarse : Int
  fine   : Nat
  corr   : Int
  deriving DecidableEq, Repr

/-- A channel: the levels at the PE interface, the times of the events fired last, in LSB from cycle 0 (R168), and the launches
of its latest cycle (R163). [log 140: DESIGN CHOICE; log 134: DESIGN CHOICE] -/
structure Chan where
  drv     : Bool := false
  den     : Bool := false
  lastDat : Option Int := none
  lastDen : Option Int := none
  lastCmp : Option Int := none
  lastEdge : Vector (Option Int) 4 := Vector.replicate 4 none
  lastStrb : Vector (Option Int) 4 := Vector.replicate 4 none
  /-- Fine correction usable until a TMG_LIN word fails its parity (R180). -/
  linOk   : Bool := true
  launched : List Launch := []
  deriving DecidableEq, Repr

/-! ## Fabric (R18 to R31) -/

/-- The rate-grant sequencer and adaptive voltage control beside the FAB registers. -/
structure Fab where
  /-- Consecutive windows below the lower bound (R25). -/
  lowWins  : Nat := 0
  /-- Consecutive windows that let the ceiling return (R25). -/
  goodWins : Nat := 0
  /-- Consecutive windows above the upper bound (R24). -/
  highWins : Nat := 0
  /-- Confirming windows so far (R28), and windows of the present confirmation. -/
  okWins   : Nat := 0
  confWins : Nat := 0
  confirming : Bool := false
  retried  : Bool := false
  retPoint : Option Nat := none
  /-- The three limits whose lowest is the ceiling: fabric, thermal cap, input-current cap. -/
  capFab   : Nat := 2000
  capTherm : Nat := 2000
  capVin   : Nat := 2000
  nextOrder : Nat := 0
  deriving DecidableEq, Repr

/-! ## Structure image (R40 to R68) -/

/-- The structure loader. `image` is the structure in force as stored, empty for the empty structure of R42; `plain`
holds its sections decrypted, by TYPE. [log 160: DESIGN CHOICE] -/
structure Struct where
  image   : List Byte := []
  plain   : List (Nat × List Byte) := []
  staged  : List Byte := []
  /-- Bytes the load brings, which may exceed what is staged. -/
  len     : Nat := 0
  stagedPlain : List (Nat × List Byte) := []
  src     : Nat := 0
  cmd     : Option Hdr := none
  /-- The coppices that APPLYING holds at high impedance, as a mask (R66). -/
  held    : Nat := 0
  /-- The words of the store whose parity bit disagrees with their content (R68); every other word's agrees. -/
  badWords : List Nat := []
  deriving DecidableEq, Repr

/-! ## PE control buses, epochs, trigger outputs -/

/-- A PE control bus transaction in progress: bits and the transmit value. -/
structure PecBus where
  running : Bool := false
  nbits   : Nat := 0
  tx      : Nat := 0
  deriving DecidableEq, Repr

/-- The pins and counters of synchronisation and triggers (R112, R113, R114). [log 140: DESIGN CHOICE] -/
structure Sync where
  /-- Slot of the latest epoch (R113). -/
  epochSlot : Nat := 0
  /-- Slot in which SYNC_OUT was driven last (R113). -/
  syncOut  : Option Nat := none
  trigIn   : Vector Bool 4 := Vector.replicate 4 false
  /-- TRIG_IN as sampled at the latest REFCLK edge (R114). -/
  sampled  : Vector Bool 4 := Vector.replicate 4 false
  /-- Edges of each TRIG_IN, latest first: instants in fine units, and levels from them on (R207). -/
  trigHist : Vector (List (Int × Bool)) 4 := Vector.replicate 4 []
  /-- The pulses of each TRIG_OUT in progress or to come (R112, R211): rise and fall, in fine units since reset. -/
  trigOut  : Vector (List (Nat × Nat)) 8 := Vector.replicate 8 []
  deriving DecidableEq, Repr

/-! ## Host streams (R126 to R131) -/

/-- A host stream beside its registers: put and consumed counts are P and K of R127. -/
structure Stream where
  put   : Nat := 0
  cons  : Nat := 0
  ring  : Option Place := none
  anns  : List (Nat × Nat) := []
  /-- The ring number of the first granule of the next announced entry (R130). -/
  next  : Nat := 0
  deriving DecidableEq, Repr

/-! ## Forester (R137 to R157) -/

/-- The tiers of R122 and R157. -/
inductive Tier where
  | canopy | sdram | host | none
  deriving DecidableEq, Repr

/-- A segment generation: current, retiring, or copying in. -/
structure Seg where
  id       : Nat
  gen      : Nat
  retiring : Bool := false
  loading  : Option Hdr := none
  /-- The load found its ID's current generation held (R149). -/
  replaces : Bool := false
  /-- A load whose copy is complete and that waits for an earlier retiring generation (R149). -/
  waits    : Bool := false
  /-- The generation the table of R148 recorded before this load. -/
  prevGen  : Option Nat := none
  hostHeld : Bool := false
  tier     : Tier := .none
  /-- Runs of consecutive pages of the payload, and of the packed instruction stream. -/
  pages    : List (Nat × Nat) := []
  ipages   : List (Nat × Nat) := []
  /-- The byte of its first instruction page at which the stream begins: streams are packed (R140). -/
  ioff     : Nat := 0
  iwords   : Nat := 0
  lines    : Nat := 0
  granBytes : Nat := 0
  keySlot  : Nat := 0xFFFF
  /-- The pattern package whose nonce encrypts the payload: one for each load (R134). -/
  package  : Nat := 0
  rate     : Nat := 0
  irate    : Nat := 0
  heat     : Nat := 0
  uses     : Nat := 0
  refs     : List (Nat × Nat) := []
  lastUse  : Nat := 0
  /-- While the segment is loading: payload and instruction bytes still to be copied into its pages. -/
  copy     : List Byte := []
  icopy    : List Byte := []
  deriving DecidableEq, Repr

/-- A move of a segment (R145): the tier and the runs it will lie in, whether its copy is complete, and the bank it helps to
empty. The first four of the list are in progress, the others wait for one of these to end. -/
structure Move where
  seg    : Nat
  gen    : Nat
  tier   : Tier
  pages  : List (Nat × Nat)
  ipages : List (Nat × Nat)
  ioff   : Nat
  copied : Bool
  bank   : Option Nat
  deriving DecidableEq, Repr

/-- An evacuation of a bank (R147): its command, whether a page has switched, and whether a core failed to park. -/
structure Evac where
  bank  : Nat
  hdr   : Hdr
  moved : Bool
  busy  : Bool
  deriving DecidableEq, Repr

/-- A code page that moves once the cores of its mask are parked (R155): page, destination, bank it helps to empty. -/
structure CodeMove where
  page : Nat
  dest : Nat
  bank : Option Nat
  deriving DecidableEq, Repr

/-- A site-core code page (R154). -/
structure CodePage where
  page   : Nat
  codeId : Nat
  mask   : Nat
  plugin : Bool
  deriving DecidableEq, Repr

/-- The Forester beside the FOR registers. [log 158: DESIGN CHOICE] -/
structure Forest where
  segs    : List Seg := []
  /-- Last generation loaded of each ID (R148). -/
  lastGen : List (Nat × Nat) := []
  /-- Loads placed since reset: each brings one pattern package (R134). -/
  packages : Nat := 0
  moves   : List Move := []
  code    : List CodePage := []
  codeMoves : List CodeMove := []
  /-- Cores, as a mask, that were parked before they were asked to park (R155). -/
  wasParked : Nat := 0
  claims  : List (Nat × Nat × Nat) := []
  nextClaim : Nat := 1
  traces  : List (Nat × Place) := []
  stores  : List (Nat × Place) := []
  evacs   : List Evac := []
  query   : Nat := 0
  /-- Canopy pages of released capture buffers that nothing has taken since (R511). -/
  released : List Nat := []
  /-- Runs of pages by region: first page, count, region 0 to 4 in the order of R52; at reset the empty structure's (R42). -/
  regions : List (Nat × Nat × Nat) := [(0, 256, 0), (256, 64, 1), (320, 1728, 4)]
  deriving DecidableEq, Repr

/-- A snapshot request pending (R199). -/
structure Snap where
  time   : Bool
  linked : Bool
  grove  : Nat
  id     : Nat
  point  : Nat
  cmd    : Option Hdr
  /-- Kind TIME, once its point is reached: groves and cycles whose results are still to come (R199). -/
  wait   : Option (List (Nat × Nat))
  deriving DecidableEq, Repr

/-! ## Scheduler and cores (R281 to R304) -/

/-- Task states (R288, R298). -/
inductive TaskState where
  | waiting | ready | inService (core : Fin 8)
  deriving DecidableEq, Repr

/-- An entry of the matching store in use. -/
structure Task where
  index  : Nat
  gen    : Nat
  flow   : Nat
  nslot  : Nat
  mask   : Nat
  entry  : Nat
  arg    : Nat
  srcs   : List Nat
  slots  : List (Option Nat)
  state  : TaskState
  /-- Instant at which the task became dispatchable, for the order of R298. -/
  since  : Option Nat
  /-- The resume task of R301. -/
  resume : Bool
  deriving DecidableEq, Repr

/-- A site core as the scheduler and the non-maskable machinery see it. [log 132: DESIGN CHOICE] -/
structure Core where
  /-- Instant its take load began to wait, if it is blocked. -/
  blocked : Option Nat := none
  wdogExpired : Bool := false
  /-- Raw count at which the watchdog restarted last (R284). -/
  wdogFrom : Nat := 0
  pc      : Nat := 0
  machineMode : Bool := true
  /-- mstatus MIE and MPIE. -/
  mie     : Bool := false
  mpie    : Bool := false
  mepc    : Nat := 0
  mcause  : Nat := 0
  mtval   : Nat := 0
  mtvec   : Nat := 0
  mppMachine : Bool := true
  inNmi   : Bool := false
  timerPending : Bool := false
  icacheValid : Bool := false
  /-- Canopy pages granted to the plug-in the core runs in user mode (R303). -/
  grants  : List Nat := []
  deriving DecidableEq, Repr

/-- The matching store beside the SCH registers. Tasks stand in the order of their commits. -/
structure Sched where
  tasks   : List Task := []
  /-- Entries never used yet start here; freed entries follow, longest freed first (R294). -/
  fresh   : Nat := 0
  freed   : List Nat := []
  gens    : List (Nat × Nat) := []
  clock   : Nat := 0
  cores   : Vector Core 8 := Vector.replicate 8 {}
  /-- Items for private flows that wait for a free entry, in order; index and generation are those of the entry they get. -/
  owed    : List Task := []
  deriving DecidableEq, Repr

/-! ## Host interface (R305 to R331) -/

/-- A command in flight (R315). -/
structure InFlight where
  hdr    : Hdr
  opc    : Nat
  order  : Nat
  /-- The command has begun (R313, R322). -/
  begun  : Bool := false
  /-- What stood at its acceptance (R63, R416): the master did not run from REFCLK, a structure load was in progress, a burst was in
  a stage from Declared to Ended. -/
  noRef  : Bool := false
  reload : Bool := false
  busy   : Bool := false
  deriving DecidableEq, Repr

/-- A completion that waits to be written (R316). -/
structure Compl where
  hdr    : Hdr
  status : Nat
  detail : Nat
  result : Nat
  intake : Bool
  deriving DecidableEq, Repr

/-- A posted-write fault record (R327). -/
structure Pwf where
  reason : Nat
  win    : Nat
  firstBe : Nat
  lastBe : Nat
  len    : Nat
  off    : Nat
  reqId  : Nat
  page   : Nat
  stamp  : Nat
  deriving DecidableEq, Repr

/-- One queue pair beside its registers. -/
structure QueuePair where
  sqTail : Nat := 0
  cqHead : Nat := 0
  stopped : Bool := false
  unsignalled : Nat := 0
  /-- A completion write has failed and is tried again at the next head write or enable (R314). -/
  hold   : Bool := false
  deriving DecidableEq, Repr

/-- The host interface beside the HQ registers. -/
structure Hq where
  inFlight : List InFlight := []
  compls   : List Compl := []
  tags     : List (Nat × Nat) := []
  pwf      : List Pwf := []
  queues   : Vector QueuePair 16 := Vector.replicate 16 {}
  nextOrder : Nat := 0
  rrNext   : Nat := 0
  d3       : Bool := false
  perst    : Bool := false
  /-- MSI-X messages sent, vector by vector (R329). -/
  sent     : Vector Nat 33 := Vector.replicate 33 0
  vecPending : Nat := 0
  /-- The scratch claim reported (HQ_CLAIM_Q). -/
  claimQ   : Nat := 0
  /-- AER errors reported, bit by bit: 0 Completer Abort, 1 Advisory Non-Fatal, 2 Uncorrectable Internal Error. -/
  aer      : Nat := 0
  /-- The words the latest answering command returned to its requester. -/
  answer   : List Nat := []
  deriving DecidableEq, Repr

/-! ## Faults and the Firebreak (R419 to R436) -/

/-- Per-source information behind FLT_SRC_INFO and FLT_SRC_TIME. -/
structure SrcInfo where
  count  : Nat := 0
  time   : Nat := 0
  forced : Bool := false
  deriving DecidableEq, Repr

/-- The fault collector and the Firebreak beside the FLT registers. -/
structure Flt where
  info     : Vector SrcInfo 96 := Vector.replicate 96 {}
  /-- Dual sources active as live levels. -/
  active   : List Nat := []
  cause    : Nat := 0
  causeSrc : Nat := 0xFF
  causeTime : Nat := 0
  /-- The raw counts of the recorded cause and of the first source to latch (R425). -/
  causeRaw : Nat := 0
  firstRaw : Nat := 0
  frozen   : Bool := false
  stopped  : Bool := false
  /-- Ramps of R427 in progress; how and how many µs after the cause each was opened; mode, mV and 10 mA of every DSC at the
  cause; the groves of running bursts at the cause with tag and epoch. -/
  ramping  : List Nat := []
  opened   : List (Nat × Nat × Nat) := []
  dscAt    : List (Nat × Int × Int) := []
  groveAt  : List (Nat × Nat × Nat) := []
  mismatch : Bool := false
  forced   : Bool := false
  /-- A fault record is still to be written (R436). -/
  recDue   : Bool := false
  heartbeat : Bool := false
  checked  : Bool := false
  resetLow : Bool := false
  /-- The fault records retained by the Understory, latest first (R436). -/
  records  : List (List Byte) := []
  recSeq   : Nat := 0
  deriving DecidableEq, Repr

/-! ## Shared time (R346 to R360) -/

/-- A transmit timestamp (R359): tag, ticks, fraction. -/
structure TxTs where
  tag  : Nat
  time : Nat
  frac : Nat
  unref : Bool
  deriving DecidableEq, Repr

/-- Shared time beside the TIM registers. Fractions are held in units of 2^-40 tick (R347). -/
structure Tim where
  raw      : Nat := 0
  offset   : Int := 0
  acc      : Int := 0
  changedAt : Nat := 0
  rate     : Int := 0
  rateHo   : Int := 0
  /-- A rate written last and a step accepted, each with the raw count of the REFCLK edge that applies it (R348, R349). -/
  ratePend : Option (Int × Nat) := none
  stepPend : Option (Int × Nat) := none
  stepped  : Bool := false
  stepAt   : Nat := 0
  /-- The request the requester waits on: SEQ and T1, and sums of the averaged results (R355). -/
  reqSeq   : Nat := 0
  reqT1    : Option Nat := none
  /-- The slot in which it was asked for (R354). -/
  reqSlot  : Option Nat := none
  sumOfs   : Int := 0
  sumDly   : Int := 0
  results  : Nat := 0
  txts     : List TxTs := []
  rxNext   : Nat := 0
  txNext   : Nat := 0
  /-- Mean fractional error of the oscillator over the latest windows (R353), in 2^-40. -/
  oscErr   : Int := 0
  /-- The frame the port sent last, with its FCS (R359, R360). -/
  ethSent  : List Byte := []
  deriving DecidableEq, Repr

/-! ## Trigger engines (R203 to R218) -/

/-- A sample as a record holds it (R214, R216): its instant in fine units since reset (R219), its value (128 bits, or the
first seven bytes of a supply sample), and its flags. -/
structure TrgSamp where
  time  : Nat
  value : Nat
  lost  : Bool
  drop  : Bool
  unref : Bool
  void  : Bool
  /-- The index of its cycle, all ones for KINDs 1 to 3. -/
  cycle : Nat := 2 ^ 64 - 1
  deriving DecidableEq, Repr

/-- A sample that a cycle result (KIND 0) or a loop sample (KIND 3) has put before an engine: the channels judged in it,
and what the cycle shows the qualifier. -/
structure TrgFeed where
  samp   : TrgSamp
  judged : Nat
  mark   : Nat
  segs   : Bool
  /-- A match-only cycle: it gives its qualifier event and no sample (R203, R207). -/
  only   : Bool := false
  /-- The grove has ended: nothing follows, and a record still short of samples is cut (R214). -/
  ends   : Bool := false
  deriving DecidableEq, Repr

/-- A record in progress: cause, trigger point in fine units and as shared time (R209), samples held before and after it, and whether its last sample
has been taken or it has been cut (R213, R214). -/
structure TrgRec where
  cause : Nat
  point : Nat
  stamp : Nat × Nat
  pre   : List TrgSamp
  post  : List TrgSamp
  cut   : Bool
  deriving DecidableEq, Repr

/-- A trigger engine beside its registers. -/
structure Trg where
  /-- The match condition as judged last (R206). -/
  last   : Bool := true
  /-- Instant of the first qualifier event since arming or the last record (R208, EVENT_THEN_MATCH). -/
  qual   : Option Nat := none
  /-- The level of QSRC 5 has been reported (R207). -/
  timed  : Bool := false
  /-- Master count of the last raw-level sample. -/
  tick   : Nat := 0
  divCnt : Nat := 0
  feed   : List TrgFeed := []
  /-- The samples taken since the engine began to wait, latest first: a trigger point may lie back (R207, R214). -/
  ring   : List TrgSamp := []
  cur    : Option TrgRec := none
  /-- What arming fixed: kind, PRE, POST. -/
  kind   : Nat := 0
  pre    : Nat := 0
  post   : Nat := 1
  seqno  : Nat := 0
  slot   : Nat := 0
  /-- Complete records not read yet; the register shows at most 4095 of them (R215). -/
  unread : Nat := 0
  place  : Option Place := none
  /-- The quantity of the source DSC at its latest loop sample (R207, DSCEV 3 and 4). -/
  qty    : Option Int := none
  /-- An arm held while the interpolator calibrates (R235). -/
  heldArm : Bool := false
  deriving DecidableEq, Repr

/-! ## Time measurement units (R219 to R238) -/

/-- A stamp (R231): its value in fine units, its edge index, direction, and whether the reference was lost. -/
structure Stamp where
  value : Nat
  edge  : Nat
  fall  : Bool
  unref : Bool
  deriving DecidableEq, Repr

/-- A gate (R224): its number, where it opened, the stamps of the unit, the block of the store it fills (offset and bytes),
its losses, and how it closed. -/
structure Gate where
  no       : Nat
  openS    : Nat
  openTime : Nat
  stamps   : List Stamp := []
  partner  : List Stamp := []
  edges    : Nat := 0
  block    : Option (Nat × Nat) := none
  lost     : Nat := 0
  missed   : Nat := 0
  full     : Bool := false
  cut      : Bool := false
  stale    : Bool := false
  func     : Nat := 0
  /-- WINDOW in fine units and the prescale, as the gate opened with them (R225, R230). -/
  window   : Nat := 4096
  prescale : Nat := 1
  deriving DecidableEq, Repr

/-- A time measurement unit beside its registers. -/
structure Tmu where
  gate    : Option Gate := none
  /-- Gates closed whose results are not final yet, oldest first (R228). -/
  closed  : List Gate := []
  gateNo  : Nat := 0
  /-- Edges of a slaved unit since the gate of its master opened (R226). -/
  edges   : Nat := 0
  master  : Option Nat := none
  /-- Value of the last stamp and of the last edge (R222). -/
  lastS   : Option Nat := none
  /-- Cycle 0 of a burst naming the gate's grove has come (R224, BURST). -/
  due     : Bool := false
  place   : Option Place := none
  /-- Ring of blocks: offset of the next block, and sizes of unread blocks, oldest first (R229). -/
  head    : Nat := 0
  blocks  : List Nat := []
  heldArm : Bool := false
  deriving DecidableEq, Repr

/-- The latched result set of one unit for one requester class (R228). -/
structure ResLatch where
  req   : Req
  unit  : Nat
  words : List Word
  deriving DecidableEq, Repr

/-- Acquisition as a whole: engines, units, result latches, and the interpolator tables of units 0 to 31 and engines 0 to 3
as units 32 to 35 (hit counts, empty before the first valid calibration), those to be calibrated, those in calibration,
and those a timing calibration holds (R233 to R236). -/
structure Acq where
  trg     : Vector Trg 4 := Vector.replicate 4 {}
  tmu     : Vector Tmu 32 := Vector.replicate 32 {}
  latches : List ResLatch := []
  hits    : Vector (List Nat) 36 := Vector.replicate 36 []
  calDue  : Nat := 0
  calRun  : Nat := 0
  calHeld : Nat := 0
  deriving DecidableEq, Repr

/-! ## Device supply channels (R239 to R280) -/

/-- A block-floating number (R245): its value is m × 2^(e − 48). -/
structure Bfp where
  m : Int := 0
  e : Nat := 0
  deriving DecidableEq, Repr

/-- A sample whose computation has begun (R240, R248): its number, voltage in µV, current in 10 µA, range bit, the mode it is
computed in and whether the current loop is the primary, whether it is the first of a mode and from which mode, the working
set point in 2^-20 µV, the active coefficients at its begin (R249), the pass (its start sample) and index, and the profile
slot and entry of its feed-forward (R259). -/
structure DscSamp where
  no    : Nat
  v     : Int
  i     : Int
  low   : Bool
  mode  : Nat
  fcur  : Bool
  entry : Option Nat
  vset  : Int
  coef  : List Bfp
  pass  : Option (Nat × Nat)
  rc    : Option (Fin 4 × Nat)
  deriving DecidableEq, Repr

/-- A profile slot beside its registers (R256, R261): 36-bit mantissas with one exponent, and how its length is measured. -/
structure RcSlot where
  q        : List Int := []
  e        : Nat := 0
  last     : Option Nat := none
  spacings : List Nat := []
  deriving DecidableEq, Repr

/-- A pass of a profile slot (R257 to R260): its slot, start sample, samples run, errors learned, and latched settings. -/
structure RcPass where
  slot   : Fin 4
  start  : Nat
  k      : Nat
  len    : Option Nat
  learns : Bool
  clean  : Bool
  ev     : List Bfp
  gain   : Bfp
  forget : Bfp
  qmax   : Bfp
  lead   : Nat
  deriving DecidableEq, Repr

/-- A relay auto-tune in progress (R252 to R255). -/
structure AutoTune where
  from_   : Nat
  u0      : Bfp
  uc      : Bfp
  /-- The side the relay stands at: up, down, or neither yet. -/
  high    : Option Bool := none
  /-- The number of the sample of the latest upward crossing. -/
  n       : Nat := 0
  hi      : Int := 0
  lo      : Int := 0
  started : Bool := false
  /-- Relay cycles, latest first: period in samples, peak to peak in the measurement's unit. -/
  cycles  : List (Nat × Nat) := []
  limited : Nat := 0
  done    : Bool := false
  leave   : Bool := false
  /-- H, EMAX and EPS as latched at the start (R249). -/
  h       : Bfp := {}
  emax    : Bfp := {}
  eps     : Bfp := {}
  deriving DecidableEq, Repr

/-- A pulse generator beside its registers (R266, R272 to R278): the present period's on-time in steps, whether PCC or a
window level cut or suppressed it, the stage enable, the duty in force, samples since the period start, consecutive periods
cut by PCC, and the register words in force since the period start (BLANK, DT, LIM, IPK, SLOPE, WIN_HI, WIN_LO, OVP). -/
structure Pgn where
  on     : Nat := 0
  pccCut : Bool := false
  winCut : Bool := false
  cut    : Bool := false
  en     : Bool := false
  /-- DSC_PL stays low until the first pulse after a change from DISCONNECT has ended. -/
  first  : Bool := false
  duty   : Bfp := {}
  samp   : Nat := 0
  cuts   : Nat := 0
  force  : List Nat := []
  /-- The command latched last found the pulse of its period fallen and governs the next one (R277). -/
  ahead  : Bool := false
  /-- The raw count at the period start, and whether PCC came true in blanking and holds since (R274). -/
  start  : Nat := 0
  blanked : Bool := false
  /-- DSC_FLT_L has held the outputs low in this period; they resume at the next one (R272). -/
  flt    : Bool := false
  deriving DecidableEq, Repr

/-- A device supply channel beside its registers. -/
structure Dsc where
  senseInv : Bool := false
  stageFlt : Bool := false
  req      : Option Nat := none
  commit   : Bool := false
  iv       : Bfp := {}
  ii       : Bfp := {}
  dv       : Bfp := {}
  vset     : Int := 0
  vPrev    : Int := 0
  lastU    : Bfp := {}
  /-- The current loop is the primary (R248, R252). -/
  fcur     : Bool := false
  /-- Consecutive samples under LIMIT at which the primary's output was below the limiter's (R250). -/
  under    : Nat := 0
  n        : Nat := 0
  wait     : List DscSamp := []
  /-- Commands computed, by sample number, latest first. -/
  cmds     : List (Nat × Bfp) := []
  /-- On-times in steps reported for the commands latched last, by sample number, latest first (R277). -/
  applied  : List (Nat × Nat) := []
  /-- Samples dropped at the sample FIFO (R21). -/
  drops    : Nat := 0
  slots    : Vector RcSlot 4 := Vector.replicate 4 {}
  pass     : Option RcPass := none
  /-- Passes that have run their length and wait for their last errors. -/
  closing  : List RcPass := []
  delivered : List Marker := []
  /-- Start pulses whose delivery has not come: marker and the number of the first sample after it (R262). -/
  pulses   : List (Marker × Nat) := []
  tune     : Option AutoTune := none
  /-- The nodes of R263 as traced last, which the entry of a dropped sample repeats. -/
  nodes    : List Bfp := []
  overI    : Nat := 0
  pgn      : Pgn := {}
  deriving DecidableEq, Repr

/-- A trace buffer beside its registers: samples since the last entry, and entries written. -/
structure Trc where
  skip    : Nat := 0
  written : Nat := 0
  /-- Governor and mode seen last, for START 3 and 4. -/
  seen    : Nat := 0
  deriving DecidableEq, Repr

/-! ## Security (R439 to R466) -/

/-- A nonce outstanding on a port (R443): the role and key index it was drawn for, its bytes, and whether its 10 s are over. -/
structure Nonce where
  role    : Nat
  index   : Nat
  bytes   : List Byte
  expired : Bool
  deriving DecidableEq, Repr

/-- The security engine, the Understory key store and the fuses beside the SEC registers (R451). Public keys are the numbers
of their 96 bytes. -/
structure Sec where
  /-- Content keys and names by slot. -/
  keys    : List (Nat × Nat) := []
  names   : List (Nat × Nat) := []
  /-- The OWNER_HASH fuses, blank until the first provisioning, and the fuse copies of the anti-rollback counters (R459). -/
  ownerHash : Option Nat := none
  arbFuse : Vector Nat 3 := Vector.replicate 3 0
  owner   : Option Nat := none
  so      : Option Nat := none
  operators : List Nat := []
  /-- Image-signing keys: KEY_ID and key. -/
  imageKeys : List (Nat × Nat) := []
  plugins : List Nat := []
  /-- Private transport and calibration-signing keys. -/
  transport : Option Nat := none
  calKey  : Option Nat := none
  /-- The identity key has been derived at this start and not been zeroised. -/
  identity : Bool := false
  hostNonce : Option Nonce := none
  sbNonce : Option Nonce := none
  /-- Consecutive failed attempts on each port (R444). -/
  hostFails : Nat := 0
  sbFails : Nat := 0
  /-- Bytes drawn from the DRBG, generate requests since its reseed, and key pairs generated. -/
  drawn   : Nat := 0
  requests : Nat := 0
  pairs   : Nat := 0
  /-- Measurement registers (R462). -/
  mr      : Vector Nat 8 := Vector.replicate 8 0
  /-- Commands ZEROISE, or with true DEBUG_UNLOCK, that wait for every burst to end (R457). -/
  zero    : List (Hdr × Bool) := []
  deriving DecidableEq, Repr

/-! ## Mafer links (R332 to R345) -/

/-- A bulk frame: class, link-wide sequence number, valid bytes. -/
structure Bulk where
  cls  : Nat
  seq  : Nat
  data : List Byte
  deriving DecidableEq, Repr

/-- A token received: the slot of its delivery, the token, and its arrival in master ticks (R335, R342). -/
structure InTok where
  due : Nat
  tok : Nat
  at_ : Nat := 0
  deriving DecidableEq, Repr

/-- A lane, and on the lowest lane of a link the link's bulk traffic, beside the MFL registers.
[log 89: DESIGN CHOICE; log 140: DESIGN CHOICE] -/
structure Lane where
  /-- Tokens that wait to be sent, next first; a token of three copies stands three times. -/
  out     : List Nat := []
  /-- The token, the bulk frame and the CREDIT sent last. -/
  sent    : Nat := 0
  sentBulk : Option Bulk := none
  sentCredit : Nat := 0
  /-- Tokens received that wait for their delivery slot. -/
  inbox   : List InTok := []
  /-- Three-copy tokens acted on, and for how many further frames a copy is ignored. -/
  copies  : List (Nat × Nat) := []
  /-- Consecutive discarded frames, and consecutive frames without FRAME_SYNC. -/
  bad     : Nat := 0
  noSync  : Nat := 0
  /-- Consecutive windows below RETRAIN. -/
  lowWins : Nat := 0
  /-- The latest 1024 one-way latencies of the link in master ticks, latest first; on each lane, the latencies seen within the
  last 1 ms and when each was seen last; measurements still to be made before a burst may reach Armed; an ECHO to return. -/
  echo    : List Nat := []
  seen    : List (Nat × Nat) := []
  need    : Nat := 0
  echoDue : Option Nat := none
  /-- The width the far end reported by IDENT. -/
  farWidth : Option Nat := none
  /-- Bulk frames the far end has room for, frames freed here since the last CREDIT sent. -/
  credit  : Nat := 0
  freed   : Nat := 0
  txSeq   : Nat := 0
  rxSeq   : Nat := 0
  txq     : List Bulk := []
  replay  : List Bulk := []
  resend  : List Bulk := []
  /-- A NAK to send; a gap in the numbers has been told. -/
  nak     : Option Nat := none
  gap     : Bool := false
  /-- The receive FIFO. -/
  rxq     : List Bulk := []
  /-- Messages received, oldest first. -/
  msgs    : List (List Byte) := []
  /-- The 70 bytes of the frame sent last, and the latest 58 line bits that passed the scrambler and the descrambler, latest in
  bit 0 (R333). -/
  line    : List Byte := []
  txScr   : Nat := 0
  rxScr   : Nat := 0
  /-- On the lowest lane: when the link was last in use, and when it began to train or was given up, in master ticks. -/
  usedAt  : Nat := 0
  trainAt : Nat := 0
  /-- The figure of merit of the latest window, the taps before their latest update, and for how many windows each tap's step
  stays halved (R341). -/
  fomWas  : Nat := 0
  tapWas  : List Int := []
  slow    : List Nat := []
  deriving DecidableEq, Repr

/-- Another member of a linked grove: LINK entry, position, the next line expected of it, how far it holds lines, and what is
still to be sent to it: own results (failed, judged) from line `sentTo` on. -/
structure Peer where
  link    : Nat
  pos     : Nat
  next    : Nat := 0
  present : Option Nat := none
  res     : List (Bool × Bool) := []
  sentTo  : Nat := 0
  told    : Nat × Nat := (0, 0)
  deriving DecidableEq, Repr

/-- The links as a whole: lanes, members, agreed descriptors received by lane, and TIME snapshot IDs forwarded. [log 87: DESIGN CHOICE] -/
structure Links where
  lanes   : Vector Lane 8 := Vector.replicate 8 {}
  peers   : List Peer := []
  descs   : List (Nat × Nat) := []
  /-- Lanes and LINK_IDs for which this module has presented its descriptor and has heard none since (R51). -/
  asked   : List (Nat × Nat) := []
  fwdIds  : List Nat := []
  deriving DecidableEq, Repr

/-! ## Clocks (R379 to R391) -/

/-- The clock monitors beside the CLK registers: whether the missing-edge detector fired in the present reference window and
the master has frozen (R383), consecutive good reference windows, consecutive good oscillator windows while OSC_OK is 0, the
latest oscillator counts, latest first (R353), a return requested (R386), and the frequency lock of a return. -/
structure Clk where
  fired    : Bool := false
  frozen   : Bool := false
  refWins  : Nat := 0
  oscWins  : Nat := 0
  counts   : List Nat := []
  request  : Bool := false
  locked   : Bool := false
  /-- A good reference window has come since reset; REFCLK was absent at reset and no return is complete yet. -/
  seen     : Bool := false
  absent   : Bool := false
  /-- What CLKOUT drives: the source, its SEL, and for how many periods of it the output is high and low (R390). -/
  out      : Option (Nat × Nat × Nat × Nat) := none
  deriving DecidableEq, Repr

/-! ## Power, temperature and standby (R392 to R405) -/

/-- The wear ledger (R402): HOT_S and LIM_S in units of 125 µs, CRIT, POH in hours, PEAK in 1/16 °C. [log 65: DESIGN CHOICE] -/
structure Ledger where
  hot  : Nat := 0
  lim  : Nat := 0
  crit : Nat := 0
  poh  : Nat := 0
  peak : Int := 0
  deriving DecidableEq, Repr

/-- A thermal sensor (R398): its latest 8 readings in 1/8 °C, latest first, and the updates for which it stays invalid. -/
structure Sensor where
  hist : List Int := []
  bad  : Nat := 0
  deriving DecidableEq, Repr

/-- The keeper's view of supplies and temperature beside the PWR registers. [log 140: DESIGN CHOICE] -/
structure Power where
  /-- The latest 100 measurements of VIN, latest first. -/
  vin     : List Nat := []
  /-- VIN is at or above 3.0 V; VSTBY is present; the Understory has lost its content since the last start (R459). -/
  present : Bool := true
  vstby   : Bool := true
  lost    : Bool := false
  /-- The house regulators run; the main die waits for its rails (R403). -/
  house   : Bool := true
  cold    : Bool := false
  /-- Consecutive measurements with the mean at least 100 mV above each band's lower edge, the highest band first (R393). -/
  rise    : Vector Nat 5 := Vector.replicate 5 0
  sensors : Vector Sensor 16 := Vector.replicate 16 {}
  /-- Consecutive updates at or above each threshold, and at or below it less 3 °C; the flags (R399). -/
  above   : Vector Nat 3 := Vector.replicate 3 0
  below   : Vector Nat 3 := Vector.replicate 3 0
  flags   : Vector Bool 3 := Vector.replicate 3 false
  /-- Updates in a row at which the decision temperature has lain more than 3 °C from each interpolator's TMU_CAL_TEMP: units 0 to
  31, engines 0 to 3 (R235). -/
  drift   : Vector Nat 36 := Vector.replicate 36 0
  /-- Updates of 125 µs with the house regulators running, below one hour of them. -/
  running : Nat := 0
  /-- The Understory's copy and the flash copy of the ledger. -/
  kept    : Ledger := {}
  stored  : Ledger := {}
  /-- Regulators that hold their last command (R396). -/
  holding : Nat := 0
  deriving DecidableEq, Repr

/-! ## Calibration (R406 to R418) -/

/-- A calibration that runs or waits to run: its command (none at power-up), groups, whether it commits, its channels and
DSCs, the status and DETAIL of what was skipped, and whether the reference was lost or the Firebreak or a FATAL fault cut it.
[log 70: DEDUCED] -/
structure CalRun where
  cmd    : Option Hdr
  groups : Nat
  commit : Bool
  unbound : Bool
  groves : Nat
  chans  : Nat
  dscs   : Nat
  status : Nat
  detail : Nat
  lost   : Bool
  cut    : Bool
  /-- The TMU that timing calibration has taken (R236). -/
  tmu    : Nat := 0
  deriving DecidableEq, Repr

/-- Calibration beside the CAL registers: the state of every unit by group (0 NONE, 1 VALID, 2 STALE, 3 RECORD), values in
force that no register holds, the values of the record in force at start, the run, the runs that wait, and a run whose record
is being written, with its completion. -/
structure Cal where
  units  : Vector (List Nat) 7 := #v[[0], List.replicate 5 0, List.replicate 16 0, List.replicate 16 0, List.replicate 36 0,
    List.replicate 128 0, List.replicate 128 0]
  vals   : List (Nat × Nat × List Int) := []
  record : List (Nat × Nat × Bool × List Int) := []
  run    : Option CalRun := none
  queue  : List CalRun := []
  commit : Option (CalRun × Nat) := none
  deriving DecidableEq, Repr

/-! ## SDRAM controller (R361 to R378) -/

/-- A 64-byte request (R365): instants in shared time; whether it has found its bank (R370), and for a read the raw count at
which its column access was issued. -/
structure DmcReq where
  port   : Nat
  order  : Nat
  write  : Bool
  addr   : Nat
  data   : List Byte
  be     : Nat
  arrived : Nat
  deadline : Nat
  found  : Bool := false
  issued : Option Nat := none
  deriving DecidableEq, Repr

/-- A command on a subchannel (R374): 0 activate, 1 read, 2 write, 3 precharge, 4 refresh, 5 ZQ calibration or oscillator
reading; the bank (rank × 16 + group × 4 + bank), the row, the request it serves, the raw count of its issue, and the column of an access. -/
structure DmcCmd where
  kind  : Nat
  bank  : Nat
  row   : Nat
  order : Nat
  at_   : Nat
  col   : Nat := 0
  deriving DecidableEq, Repr

/-- A subchannel: open rows (bank, row, held for a stream port), page counters, applied writes not yet issued, whether a run
of writes is in progress, the retry buffer, latest first, refreshes and calibrations that wait, ALERT_n low, consecutive
failed replays, the raw count of the latest replay, power-down. [log 75: DEDUCED] -/
structure DmcSub where
  rows   : List (Nat × Nat × Bool) := []
  ctr    : List (Nat × Nat) := []
  writes : List DmcReq := []
  draining : Bool := false
  retry  : List DmcCmd := []
  due    : Nat := 0
  cals   : Nat := 0
  /-- The bank of each group that the next same-bank refresh takes. -/
  refBank : Nat := 0
  alert  : Bool := false
  failed : Nat := 0
  replay : Option Nat := none
  down   : Bool := false
  deriving DecidableEq, Repr

/-- The controller beside the DMC registers: requests in flight, oldest first, requests that wait to be accepted, and whether
a retraining began from FAILED (R378). -/
structure Dmc where
  subs  : Vector DmcSub 4 := Vector.replicate 4 {}
  reqs  : List DmcReq := []
  waits : List DmcReq := []
  next  : Nat := 0
  fromFailed : Bool := false
  deriving DecidableEq, Repr

/-! ## Boot and update (R467 to R481) -/

/-- What a change of the boot record does to a kind (R471 to R479). -/
inductive RecChange where
  | activate | confirm | revert | trial | fallback
  deriving DecidableEq, Repr

/-- Boot beside the GLB registers: record changes that wait to be written, in order of arrival; the confirmation timer runs;
the latest reset came from it; the slot in use by kind; an update operation in progress (operation, kind, and the bytes a
download brings, or none where the read failed). -/
structure Boot where
  changes : List (Nat × RecChange) := []
  timer   : Bool := false
  timerReset : Bool := false
  used    : Vector Nat 4 := Vector.replicate 4 0
  op      : Option (Nat × Nat × Option (List Byte)) := none
  deriving DecidableEq, Repr

/-- The whole block. `pending` is the queue of commands that wait, first in, first out. -/
structure State where
  regs    : Regs := {}
  /-- High words latched by reads of low words, and low words held for a pair write (R5). -/
  latches : List PairWord := []
  held    : List PairWord := []
  /-- Canopy, SDRAM, flash (its bytes complemented, so that an unlisted one is erased), and host memory as the module has
  written it. -/
  canopy  : Mem := []
  sdram   : Mem := []
  flash   : Mem := []
  host    : Mem := []
  bursts  : List Burst := []
  threads : Vector Thread 32 := Vector.replicate 32 {}
  groves  : Vector Grove 32 := Vector.replicate 32 {}
  chans   : Vector Chan 128 := Vector.replicate 128 {}
  fab     : Fab := {}
  str     : Struct := {}
  pec     : Vector PecBus 16 := Vector.replicate 16 {}
  sync    : Sync := {}
  streams : Vector Stream 32 := Vector.replicate 32 {}
  forest  : Forest := {}
  snaps   : List Snap := []
  /-- The two sets of fabric counters that TIME requests copy (R199): the request's ID, then every counter's address and value. -/
  fabSets : Vector (Option (Nat × List (Nat × Nat))) 2 := Vector.replicate 2 none
  sched   : Sched := {}
  hq      : Hq := {}
  flt     : Flt := {}
  tim     : Tim := {}
  /-- Channels a calibration holds, as a mask (R178, R417). -/
  calHold : Nat := 0
  acq     : Acq := {}
  /-- The instruction the test access port has loaded (R466): 0 BYPASS, 1 IDCODE, 2 SAMPLE/PRELOAD, 3 EXTEST, 4 CLAMP,
  5 HIGHZ, 6 core debug, 7 scan dump, 8 fuse access. -/
  tap     : Nat := 1
  dscs    : Vector Dsc 16 := Vector.replicate 16 {}
  trcs    : Vector Trc 16 := Vector.replicate 16 {}
  sec     : Sec := {}
  links   : Links := {}
  clk     : Clk := {}
  power   : Power := {}
  cal     : Cal := {}
  dmc     : Dmc := {}
  boot    : Boot := {}
  /-- The model's own counter of free values taken (Config.free); not a piece of the module. -/
  freeCtr : Nat := 0
  pending : List Instr := []
  deriving DecidableEq, Repr

/-- Reasons a step stops with a fault. -/
inductive Fault where
  /-- An access to an address no memory or window of the module has. The spec gives every such access an effect of its
  own (a read of zero, a posted-write fault, an AER error), so no meaning raises it; safe. -/
  | noSuchAddress
  deriving DecidableEq, Repr

/-- Reasons a command is refused. -/
inductive Refusal where
  /-- The command has no meaning yet; raised by arms of `exec` only; safe. -/
  | notModelled (mnemonic : String)
  deriving DecidableEq, Repr

/-- The machine right after reset: every register at the value its table states (the register files list nothing),
memories with nothing listed, no burst, every thread idle, an empty queue. -/
def State.reset : State := {}

end Sys2Proof.Machine
end

