-- ==== Sys2Proof/Machine/Fields.lean ====
section
/-! DEFINITION. Names for the register fields the model reads and writes: each is the place of one field of a register
table of spec/ (`F.<REGISTER>_<FIELD>`, its arguments the register's indices in the order of its name). -/

namespace Sys2Proof.Machine.F

open Sys2Proof.Machine

def FAB_CTRL_AVC_EN : Fld := ⟨.fab, 0x20000, 0, 1⟩
def FAB_CTRL_LOCK : Fld := ⟨.fab, 0x20000, 8, 1⟩
def FAB_STATUS_OPP : Fld := ⟨.fab, 0x20004, 0, 3⟩
def FAB_STATUS_OPP_TARGET : Fld := ⟨.fab, 0x20004, 4, 3⟩
def FAB_STATUS_SEQ_STATE : Fld := ⟨.fab, 0x20004, 8, 2⟩
def FAB_STATUS_MARGIN_LOW : Fld := ⟨.fab, 0x20004, 12, 1⟩
def FAB_STATUS_QUEUED : Fld := ⟨.fab, 0x20004, 16, 6⟩
def FAB_STATUS_RET_OPP : Fld := ⟨.fab, 0x20004, 22, 3⟩
def FAB_VFAB_VFAB_MV : Fld := ⟨.fab, 0x20008, 0, 10⟩
def FAB_VFAB_SET_MV : Fld := ⟨.fab, 0x20008, 16, 10⟩
def FAB_GRANT_GRANT : Fld := ⟨.fab, 0x2000C, 0, 11⟩
def FAB_GRANT_CEIL : Fld := ⟨.fab, 0x2000C, 16, 11⟩
def FAB_RESERVED_RESERVED : Fld := ⟨.fab, 0x20010, 0, 11⟩
def FAB_RESERVED_HEAD_DEMAND : Fld := ⟨.fab, 0x20010, 16, 11⟩
def FAB_MARGIN_MARGIN : Fld := ⟨.fab, 0x20014, 0, 5⟩
def FAB_OPP_VOLT_MV (i0 : Nat) : Fld := ⟨.fab, 0x20040 + 0x4 * i0, 0, 10⟩
def FAB_OPP_GRANT_MAX (i0 : Nat) : Fld := ⟨.fab, 0x20040 + 0x4 * i0, 10, 11⟩
def FAB_OPP_TPUT_MIN (i0 : Nat) : Fld := ⟨.fab, 0x20040 + 0x4 * i0, 21, 11⟩
def FAB_RING_COUNT (i0 : Nat) : Fld := ⟨.fab, 0x20060 + 0x4 * i0, 0, 16⟩
def FAB_RING_MIN_COUNT (i0 : Nat) : Fld := ⟨.fab, 0x20060 + 0x4 * i0, 16, 16⟩
def FAB_URUN_CFG_FILL_START (i0 : Nat) : Fld := ⟨.fab, 0x20400 + 0x20 * i0, 8, 6⟩
def FAB_URUN_CFG_FILL_RESUME (i0 : Nat) : Fld := ⟨.fab, 0x20400 + 0x20 * i0, 16, 6⟩
def FAB_VOID_LIMIT_LIMIT (i0 : Nat) : Fld := ⟨.fab, 0x20404 + 0x20 * i0, 0, 32⟩
def FAB_FILL_FILL (i0 : Nat) : Fld := ⟨.fab, 0x20408 + 0x20 * i0, 0, 12⟩
def FAB_FILL_LOW_MARK (i0 : Nat) : Fld := ⟨.fab, 0x20408 + 0x20 * i0, 16, 12⟩
def FAB_URUN_STAT_UNDERRUN (i0 : Nat) : Fld := ⟨.fab, 0x2040C + 0x20 * i0, 0, 1⟩
def FAB_URUN_STAT_CAUSE (i0 : Nat) : Fld := ⟨.fab, 0x2040C + 0x20 * i0, 1, 3⟩
def FAB_URUN_STAT_EPISODES (i0 : Nat) : Fld := ⟨.fab, 0x2040C + 0x20 * i0, 16, 16⟩
def FAB_VOID_CNT_LO_COUNT (i0 : Nat) : Fld := ⟨.fab, 0x20410 + 0x20 * i0, 0, 32⟩
def FAB_DEMAND_MEAS_PEAK (i0 : Nat) : Fld := ⟨.fab, 0x20418 + 0x20 * i0, 0, 11⟩
def FAB_DEMAND_MEAS_OVER (i0 : Nat) : Fld := ⟨.fab, 0x20418 + 0x20 * i0, 16, 1⟩
def STR_STATUS_STATE : Fld := ⟨.str, 0x10000, 0, 3⟩
def STR_STATUS_SOURCE : Fld := ⟨.str, 0x10000, 4, 2⟩
def STR_STATUS_LAST_ERR : Fld := ⟨.str, 0x10000, 8, 8⟩
def STR_STATUS_LINK_PENDING : Fld := ⟨.str, 0x10000, 16, 1⟩
def STR_ERR_DETAIL_SECTION : Fld := ⟨.str, 0x10004, 0, 4⟩
def STR_ERR_DETAIL_OFFSET : Fld := ⟨.str, 0x10004, 8, 20⟩
def STR_LOADS_COUNT : Fld := ⟨.str, 0x10008, 0, 32⟩
def STR_SVN_SVN : Fld := ⟨.str, 0x1000C, 0, 32⟩
def STR_BUILD_ID_ID (i0 : Nat) : Fld := ⟨.str, 0x10010 + 0x4 * i0, 0, 32⟩
def STR_DIGEST_DIGEST (i0 : Nat) : Fld := ⟨.str, 0x10020 + 0x4 * i0, 0, 32⟩
def STR_CLIP_CNT_COUNT : Fld := ⟨.str, 0x10058, 0, 16⟩
def STR_GROVE_BOUND (i0 : Nat) : Fld := ⟨.str, 0x10100 + 0x4 * i0, 0, 1⟩
def STR_GROVE_URUN_STATE (i0 : Nat) : Fld := ⟨.str, 0x10100 + 0x4 * i0, 1, 1⟩
def STR_GROVE_URUN_POLICY (i0 : Nat) : Fld := ⟨.str, 0x10100 + 0x4 * i0, 2, 1⟩
def STR_GROVE_LINKED (i0 : Nat) : Fld := ⟨.str, 0x10100 + 0x4 * i0, 3, 1⟩
def STR_GROVE_WIDTH (i0 : Nat) : Fld := ⟨.str, 0x10100 + 0x4 * i0, 4, 2⟩
def STR_GROVE_THREAD (i0 : Nat) : Fld := ⟨.str, 0x10100 + 0x4 * i0, 8, 5⟩
def STR_GROVE_BCAST (i0 : Nat) : Fld := ⟨.str, 0x10100 + 0x4 * i0, 14, 1⟩
def STR_GROVE_GROUP (i0 : Nat) : Fld := ⟨.str, 0x10100 + 0x4 * i0, 16, 3⟩
def STR_COPPICE_MAP_MAP (i0 : Nat) : Fld := ⟨.str, 0x10180 + 0x4 * i0, 0, 32⟩
def STR_REGION_MAX_PAGES (i0 : Nat) : Fld := ⟨.str, 0x101A0 + 0x8 * i0, 16, 12⟩
def STR_REGION_HOST_RIGHTS (i0 : Nat) : Fld := ⟨.str, 0x101A0 + 0x8 * i0, 28, 2⟩
def STR_REGION_BANKS_BANK_MASK (i0 : Nat) : Fld := ⟨.str, 0x101A4 + 0x8 * i0, 0, 32⟩
def STR_SECOPT_OPTIONS : Fld := ⟨.str, 0x101D0, 0, 5⟩
def STR_DSC_GROVE (i0 : Nat) : Fld := ⟨.str, 0x10200 + 0x4 * i0, 0, 8⟩
def STR_DSC_V_MAX_MV (i0 : Nat) : Fld := ⟨.str, 0x10200 + 0x4 * i0, 16, 16⟩
def STR_LINK_GROVE (i0 : Nat) : Fld := ⟨.str, 0x10240 + 0x4 * i0, 0, 5⟩
def STR_LINK_POSITION (i0 : Nat) : Fld := ⟨.str, 0x10240 + 0x4 * i0, 8, 2⟩
def STR_LINK_MODULES (i0 : Nat) : Fld := ⟨.str, 0x10240 + 0x4 * i0, 12, 3⟩
def STR_LINK_AGREED (i0 : Nat) : Fld := ⟨.str, 0x10240 + 0x4 * i0, 15, 1⟩
def STR_LINK_LANE_MASK (i0 : Nat) : Fld := ⟨.str, 0x10240 + 0x4 * i0, 16, 8⟩
def STR_LINK_ID_LINK_ID (i0 : Nat) : Fld := ⟨.str, 0x10260 + 0x4 * i0, 0, 32⟩
def STR_TMU_MAP_MAP (i0 : Nat) : Fld := ⟨.str, 0x10280 + 0x4 * i0, 0, 32⟩
def STR_TRG_MAP_MAP : Fld := ⟨.str, 0x102A0, 0, 32⟩
def STR_PEIF_ENTRY (i0 : Nat) : Fld := ⟨.str, 0x10300 + 0x4 * i0, 0, 32⟩
def SYM_DROP_CNT_COUNT : Fld := ⟨.sym, 0x280008, 0, 16⟩
def SYM_PAR_LOC_CH : Fld := ⟨.sym, 0x28000C, 0, 7⟩
def SYM_PAR_LOC_TS : Fld := ⟨.sym, 0x28000C, 8, 5⟩
def SYM_PAR_LOC_CODE : Fld := ⟨.sym, 0x28000C, 16, 4⟩
def SYM_PAR_LOC_SCRUB : Fld := ⟨.sym, 0x28000C, 24, 1⟩
def PEC_CMD_NBITS (i0 : Nat) : Fld := ⟨.sym, 0x281000 + 0x20 * i0, 0, 7⟩
def PEC_CMD_CS (i0 : Nat) : Fld := ⟨.sym, 0x281000 + 0x20 * i0, 8, 2⟩
def PEC_CMD_GO (i0 : Nat) : Fld := ⟨.sym, 0x281000 + 0x20 * i0, 16, 1⟩
def PEC_TX_LO_DATA (i0 : Nat) : Fld := ⟨.sym, 0x281004 + 0x20 * i0, 0, 32⟩
def PEC_RX_LO_DATA (i0 : Nat) : Fld := ⟨.sym, 0x28100C + 0x20 * i0, 0, 32⟩
def PEC_STATUS_DONE (i0 : Nat) : Fld := ⟨.sym, 0x281014 + 0x20 * i0, 0, 1⟩
def PEC_STATUS_OVERRUN (i0 : Nat) : Fld := ⟨.sym, 0x281014 + 0x20 * i0, 1, 1⟩
def PEC_STATUS_ABORTED (i0 : Nat) : Fld := ⟨.sym, 0x281014 + 0x20 * i0, 2, 1⟩
def PEC_STATUS_XFERS (i0 : Nat) : Fld := ⟨.sym, 0x281014 + 0x20 * i0, 16, 16⟩
def PEC_CFG_RATE (i0 : Nat) : Fld := ⟨.sym, 0x281018 + 0x20 * i0, 0, 2⟩
def PEC_CFG_MODE (i0 : Nat) : Fld := ⟨.sym, 0x281018 + 0x20 * i0, 2, 1⟩
def PEC_CFG_CS_COUNT (i0 : Nat) : Fld := ⟨.sym, 0x281018 + 0x20 * i0, 4, 3⟩
def SEQ_CFG_FDIST (i0 : Nat) : Fld := ⟨.seq, 0x40000 + 0x800 * i0, 0, 6⟩
def SEQ_STATUS_STATE (i0 : Nat) : Fld := ⟨.seq, 0x40004 + 0x800 * i0, 0, 3⟩
def SEQ_STATUS_BCAST (i0 : Nat) : Fld := ⟨.seq, 0x40004 + 0x800 * i0, 4, 1⟩
def SEQ_STATUS_TARGET (i0 : Nat) : Fld := ⟨.seq, 0x40004 + 0x800 * i0, 8, 5⟩
def SEQ_STATUS_END_REASON (i0 : Nat) : Fld := ⟨.seq, 0x40004 + 0x800 * i0, 16, 4⟩
def SEQ_STATUS_DEPTH (i0 : Nat) : Fld := ⟨.seq, 0x40004 + 0x800 * i0, 24, 5⟩
def SEQ_PC_WORD (i0 : Nat) : Fld := ⟨.seq, 0x40008 + 0x800 * i0, 0, 24⟩
def SEQ_SEG_SEG (i0 : Nat) : Fld := ⟨.seq, 0x4000C + 0x800 * i0, 0, 16⟩
def SEQ_SEG_GEN (i0 : Nat) : Fld := ⟨.seq, 0x4000C + 0x800 * i0, 16, 8⟩
def SEQ_CYCLE_LO_COUNT (i0 : Nat) : Fld := ⟨.seq, 0x40010 + 0x800 * i0, 0, 32⟩
def SEQ_LINE_LO_COUNT (i0 : Nat) : Fld := ⟨.seq, 0x40018 + 0x800 * i0, 0, 32⟩
def SEQ_ERR_CODE (i0 : Nat) : Fld := ⟨.seq, 0x40020 + 0x800 * i0, 0, 4⟩
def SEQ_ERR_SEG (i0 : Nat) : Fld := ⟨.seq, 0x40020 + 0x800 * i0, 8, 16⟩
def SEQ_ERR_GEN (i0 : Nat) : Fld := ⟨.seq, 0x40020 + 0x800 * i0, 24, 8⟩
def SEQ_ERR_LOC_WORD (i0 : Nat) : Fld := ⟨.seq, 0x40024 + 0x800 * i0, 0, 24⟩
def SEQ_LATE_CNT_COUNT (i0 : Nat) : Fld := ⟨.seq, 0x40030 + 0x800 * i0, 0, 16⟩
def SEQ_MATCHED_MASK (i0 : Nat) : Fld := ⟨.seq, 0x40034 + 0x800 * i0, 0, 32⟩
def SEQ_DETACHED_MASK (i0 : Nat) : Fld := ⟨.seq, 0x40038 + 0x800 * i0, 0, 32⟩
def SEQ_SIG_CNT_PASS (i0 : Nat) : Fld := ⟨.seq, 0x40040 + 0x800 * i0, 0, 16⟩
def SEQ_SIG_CNT_MISMATCH (i0 : Nat) : Fld := ⟨.seq, 0x40040 + 0x800 * i0, 16, 16⟩
def SEQ_SIG_LOC_SEG (i0 : Nat) : Fld := ⟨.seq, 0x40044 + 0x800 * i0, 0, 16⟩
def SEQ_SIG_LOC_GEN (i0 : Nat) : Fld := ⟨.seq, 0x40044 + 0x800 * i0, 16, 8⟩
def SEQ_SIG_START_START (i0 : Nat) : Fld := ⟨.seq, 0x40048 + 0x800 * i0, 0, 28⟩
def SEQ_PASS_PASSES (i0 : Nat) (i1 : Nat) : Fld := ⟨.seq, 0x40100 + 0x800 * i0 + 0x4 * i1, 0, 32⟩
def SEQ_SYNC_CFG_ROLE : Fld := ⟨.seq, 0x50000, 0, 2⟩
def SEQ_SYNC_CFG_PERIOD : Fld := ⟨.seq, 0x50000, 8, 24⟩
def SEQ_EPOCH_CNT_COUNT : Fld := ⟨.seq, 0x50008, 0, 32⟩
def SEQ_START_LEAD_SLOTS : Fld := ⟨.seq, 0x50014, 0, 16⟩
def SEQ_TOUT_SEL_SRC (i0 : Nat) : Fld := ⟨.seq, 0x50040 + 0x4 * i0, 0, 3⟩
def SEQ_TOUT_SEL_FILT (i0 : Nat) : Fld := ⟨.seq, 0x50040 + 0x4 * i0, 3, 1⟩
def SEQ_TOUT_SEL_THREAD (i0 : Nat) : Fld := ⟨.seq, 0x50040 + 0x4 * i0, 4, 5⟩
def SEQ_TOUT_SEL_SEL (i0 : Nat) : Fld := ⟨.seq, 0x50040 + 0x4 * i0, 9, 2⟩
def SEQ_TOUT_SEL_WIDTH (i0 : Nat) : Fld := ⟨.seq, 0x50040 + 0x4 * i0, 16, 8⟩
def SEQ_TOUT_SEG_SEG (i0 : Nat) : Fld := ⟨.seq, 0x50060 + 0x4 * i0, 0, 16⟩
def HQ_STRM_CFG_RING (i0 : Nat) : Fld := ⟨.hq, 0xC8000 + 0x40 * i0, 0, 13⟩
def HQ_STRM_CFG_STRIDE (i0 : Nat) : Fld := ⟨.hq, 0xC8000 + 0x40 * i0, 16, 4⟩
def HQ_STRM_CFG_MIRROR_EN (i0 : Nat) : Fld := ⟨.hq, 0xC8000 + 0x40 * i0, 24, 1⟩
def HQ_STRM_WIN_OFFSET (i0 : Nat) : Fld := ⟨.hq, 0xC8004 + 0x40 * i0, 0, 27⟩
def HQ_STRM_ANNOUNCE_SEG (i0 : Nat) : Fld := ⟨.hq, 0xC800C + 0x40 * i0, 0, 16⟩
def HQ_STRM_PUT_COUNT (i0 : Nat) : Fld := ⟨.hq, 0xC8010 + 0x40 * i0, 0, 13⟩
def HQ_STRM_STAT_FILL (i0 : Nat) : Fld := ⟨.hq, 0xC8014 + 0x40 * i0, 0, 13⟩
def HQ_STRM_STAT_CREDIT (i0 : Nat) : Fld := ⟨.hq, 0xC8014 + 0x40 * i0, 16, 13⟩
def HQ_STRM_STAT_ANN (i0 : Nat) : Fld := ⟨.hq, 0xC8014 + 0x40 * i0, 29, 3⟩
def HQ_STRM_CONS_LO_K (i0 : Nat) : Fld := ⟨.hq, 0xC8018 + 0x40 * i0, 0, 32⟩
def HQ_STRM_MIRROR_LO_ADDR (i0 : Nat) : Fld := ⟨.hq, 0xC8020 + 0x40 * i0, 0, 32⟩
def HQ_STRM_STARVE_CNT_COUNT (i0 : Nat) : Fld := ⟨.hq, 0xC8030 + 0x40 * i0, 0, 16⟩
def HQ_STRM_DISCARD_COUNT (i0 : Nat) : Fld := ⟨.hq, 0xC8034 + 0x40 * i0, 0, 32⟩
def FOR_CTRL_PROMOTE_EN : Fld := ⟨.fst, 0x30000, 0, 1⟩
def FOR_CTRL_COMPACT_EN : Fld := ⟨.fst, 0x30000, 1, 1⟩
def FOR_POLICY_PROMOTE : Fld := ⟨.fst, 0x30008, 0, 16⟩
def FOR_POLICY_DEMOTE : Fld := ⟨.fst, 0x30008, 16, 8⟩
def FOR_POLICY_DECAY : Fld := ⟨.fst, 0x30008, 24, 4⟩
def FOR_STALE_CNT_COUNT : Fld := ⟨.fst, 0x30028, 0, 16⟩
def FOR_CODE_BUSY_CNT_COUNT : Fld := ⟨.fst, 0x3002C, 0, 16⟩
def FOR_QUERY_SEG : Fld := ⟨.fst, 0x30030, 0, 16⟩
def FOR_SDRAM_SPLIT_GIB : Fld := ⟨.fst, 0x3003C, 0, 6⟩
def FOR_CAP_LOC_SDRAM (i0 : Nat) : Fld := ⟨.fst, 0x30100 + 0x8 * i0, 0, 1⟩
def FOR_CAP_LOC_PAGE (i0 : Nat) : Fld := ⟨.fst, 0x30100 + 0x8 * i0, 16, 16⟩
def FOR_CAP_SIZE_BYTES (i0 : Nat) : Fld := ⟨.fst, 0x30104 + 0x8 * i0, 0, 32⟩
def FOR_PARK_PARKED (i0 : Nat) : Fld := ⟨.fst, 0x30200 + 0x4 * i0, 0, 1⟩
def FOR_PARK_REQ (i0 : Nat) : Fld := ⟨.fst, 0x30200 + 0x4 * i0, 1, 1⟩
def FOR_PARK_PARKS (i0 : Nat) : Fld := ⟨.fst, 0x30200 + 0x4 * i0, 16, 16⟩
def TMG_EDGE_OFFSET (i0 : Nat) (i1 : Nat) (i2 : Nat) : Fld := ⟨.tmg, 0x100000 + 0x1000 * i0 + 0x80 * i1 + 0x4 * i2, 0, 32⟩
def TMG_CMP_OFFSET (i0 : Nat) (i1 : Nat) (i2 : Nat) : Fld := ⟨.tmg, 0x100010 + 0x1000 * i0 + 0x80 * i1 + 0x4 * i2, 0, 32⟩
def TMG_TSCFG_DEN_ADJ (i0 : Nat) (i1 : Nat) : Fld := ⟨.tmg, 0x100018 + 0x1000 * i0 + 0x80 * i1, 0, 13⟩
def TMG_PERIOD_LO (i0 : Nat) (i1 : Nat) : Fld := ⟨.tmg, 0x180000 + 0x400 * i0 + 0x10 * i1, 0, 32⟩
def TMG_PERIOD_HI (i0 : Nat) (i1 : Nat) : Fld := ⟨.tmg, 0x180004 + 0x400 * i0 + 0x10 * i1, 0, 32⟩
def TMG_GCFG_PLANE (i0 : Nat) : Fld := ⟨.tmg, 0x180200 + 0x400 * i0, 0, 1⟩
def TMG_DESKEW_DRV_DELAY (i0 : Nat) : Fld := ⟨.tmg, 0x190000 + 0x20 * i0, 0, 16⟩
def TMG_DESKEW_DRV_PAR (i0 : Nat) : Fld := ⟨.tmg, 0x190000 + 0x20 * i0, 31, 1⟩
def TMG_DESKEW_DEN_DELAY (i0 : Nat) : Fld := ⟨.tmg, 0x190004 + 0x20 * i0, 0, 16⟩
def TMG_DESKEW_DEN_PAR (i0 : Nat) : Fld := ⟨.tmg, 0x190004 + 0x20 * i0, 31, 1⟩
def TMG_DESKEW_CMH_DELAY (i0 : Nat) : Fld := ⟨.tmg, 0x190008 + 0x20 * i0, 0, 16⟩
def TMG_DESKEW_CMH_PAR (i0 : Nat) : Fld := ⟨.tmg, 0x190008 + 0x20 * i0, 31, 1⟩
def TMG_DESKEW_CML_DELAY (i0 : Nat) : Fld := ⟨.tmg, 0x19000C + 0x20 * i0, 0, 16⟩
def TMG_DESKEW_CML_PAR (i0 : Nat) : Fld := ⟨.tmg, 0x19000C + 0x20 * i0, 31, 1⟩
def TMG_PE_RT_RT (i0 : Nat) : Fld := ⟨.tmg, 0x190010 + 0x20 * i0, 0, 16⟩
def TMG_PE_RT_PAR (i0 : Nat) : Fld := ⟨.tmg, 0x190010 + 0x20 * i0, 31, 1⟩
def TMG_PE_SPLIT_SPLIT (i0 : Nat) : Fld := ⟨.tmg, 0x190014 + 0x20 * i0, 0, 16⟩
def TMG_CH_STAT_DROP_DRV (i0 : Nat) : Fld := ⟨.tmg, 0x190018 + 0x20 * i0, 0, 16⟩
def TMG_CH_STAT_DROP_CMP (i0 : Nat) : Fld := ⟨.tmg, 0x190018 + 0x20 * i0, 16, 16⟩
def TMG_LIN_CORR (i0 : Nat) (i1 : Nat) : Fld := ⟨.tmg, 0x1A0000 + 0x100 * i0 + 0x4 * i1, 0, 16⟩
def TMG_LIN_PAR (i0 : Nat) (i1 : Nat) : Fld := ⟨.tmg, 0x1A0000 + 0x100 * i0 + 0x4 * i1, 31, 1⟩
def TMG_CTRL_FIXTURE : Fld := ⟨.tmg, 0x1F0000, 0, 1⟩
def TMG_CTRL_REF_COMP : Fld := ⟨.tmg, 0x1F0000, 1, 1⟩
def TMG_STATUS_DRIFT : Fld := ⟨.tmg, 0x1F0004, 0, 1⟩
def TMG_STATUS_UNREF : Fld := ⟨.tmg, 0x1F0004, 1, 1⟩
def TMG_STATUS_CAL_RUN : Fld := ⟨.tmg, 0x1F0004, 2, 1⟩
def TMG_EVENT_DRIFT : Fld := ⟨.tmg, 0x1F0008, 5, 1⟩
def TMG_DROP_CNT_COUNT : Fld := ⟨.tmg, 0x1F0010, 0, 16⟩
def TMG_PAR_LOC_INDEX : Fld := ⟨.tmg, 0x1F0014, 0, 7⟩
def TMG_PAR_LOC_TS : Fld := ⟨.tmg, 0x1F0014, 8, 6⟩
def TMG_PAR_LOC_KIND : Fld := ⟨.tmg, 0x1F0014, 16, 2⟩
def TMG_PAR_LOC_SCRUB : Fld := ⟨.tmg, 0x1F0014, 24, 1⟩
def TMG_ORDER_LOC_CH : Fld := ⟨.tmg, 0x1F0018, 0, 7⟩
def TMG_ORDER_LOC_TS : Fld := ⟨.tmg, 0x1F0018, 8, 5⟩
def TMG_ORDER_LOC_EVENT : Fld := ⟨.tmg, 0x1F0018, 13, 3⟩
def TMG_ORDER_LOC_RULE : Fld := ⟨.tmg, 0x1F0018, 16, 3⟩
def TMG_MOD_DELAY_DELAY : Fld := ⟨.tmg, 0x1F001C, 0, 16⟩
def TMG_REF_PHASE_PHASE : Fld := ⟨.tmg, 0x1F0020, 0, 16⟩
def TMG_CAL_TEMP_TEMP : Fld := ⟨.tmg, 0x1F0024, 0, 16⟩
def CAP_DROP_CNT_COUNT : Fld := ⟨.cap, 0x60008, 0, 16⟩
def CAP_SNAP_CMD_KIND : Fld := ⟨.cap, 0x60010, 1, 1⟩
def CAP_SNAP_CMD_LINKED : Fld := ⟨.cap, 0x60010, 2, 1⟩
def CAP_SNAP_CMD_GROVE : Fld := ⟨.cap, 0x60010, 8, 5⟩
def CAP_SNAP_CMD_ID : Fld := ⟨.cap, 0x60010, 16, 16⟩
def CAP_SNAP_POINT_LO_POINT : Fld := ⟨.cap, 0x60014, 0, 32⟩
def CAP_SNAP_STAT_PENDING : Fld := ⟨.cap, 0x6001C, 0, 3⟩
def CAP_SNAP_STAT_REFUSED : Fld := ⟨.cap, 0x6001C, 4, 3⟩
def CAP_SNAP_STAT_LAST_ID : Fld := ⟨.cap, 0x6001C, 16, 16⟩
def CAP_CHMASK_MASK (i0 : Nat) : Fld := ⟨.cap, 0x60040 + 0x4 * i0, 0, 32⟩
def CAP_CFG_MODE (i0 : Nat) : Fld := ⟨.cap, 0x60400 + 0x40 * i0, 0, 3⟩
def CAP_CFG_VCAP_EN (i0 : Nat) : Fld := ⟨.cap, 0x60400 + 0x40 * i0, 3, 1⟩
def CAP_CFG_FAIL_WRAP (i0 : Nat) : Fld := ⟨.cap, 0x60400 + 0x40 * i0, 4, 1⟩
def CAP_CFG_VCAP_WRAP (i0 : Nat) : Fld := ⟨.cap, 0x60400 + 0x40 * i0, 5, 1⟩
def CAP_CFG_SEG_FAILONLY (i0 : Nat) : Fld := ⟨.cap, 0x60400 + 0x40 * i0, 6, 1⟩
def CAP_CFG_BIN_SHIFT (i0 : Nat) : Fld := ⟨.cap, 0x60400 + 0x40 * i0, 8, 5⟩
def CAP_CFG_FAIL_KIB (i0 : Nat) : Fld := ⟨.cap, 0x60400 + 0x40 * i0, 16, 16⟩
def CAP_VCAP_CFG_PAGES (i0 : Nat) : Fld := ⟨.cap, 0x60404 + 0x40 * i0, 0, 16⟩
def CAP_G_STAT_FAIL_FULL (i0 : Nat) : Fld := ⟨.cap, 0x60408 + 0x40 * i0, 0, 1⟩
def CAP_G_STAT_VCAP_FULL (i0 : Nat) : Fld := ⟨.cap, 0x60408 + 0x40 * i0, 1, 1⟩
def CAP_G_STAT_SAT (i0 : Nat) : Fld := ⟨.cap, 0x60408 + 0x40 * i0, 2, 1⟩
def CAP_G_STAT_DRAINED (i0 : Nat) : Fld := ⟨.cap, 0x60408 + 0x40 * i0, 3, 1⟩
def CAP_G_LOST_FAIL (i0 : Nat) : Fld := ⟨.cap, 0x6040C + 0x40 * i0, 0, 16⟩
def CAP_G_LOST_VCAP (i0 : Nat) : Fld := ⟨.cap, 0x6040C + 0x40 * i0, 16, 16⟩
def CAP_G_JUDGED_LO_COUNT (i0 : Nat) : Fld := ⟨.cap, 0x60410 + 0x40 * i0, 0, 32⟩
def CAP_G_FAILCYC_LO_COUNT (i0 : Nat) : Fld := ⟨.cap, 0x60418 + 0x40 * i0, 0, 32⟩
def CAP_G_FAILS_LO_COUNT (i0 : Nat) : Fld := ⟨.cap, 0x60420 + 0x40 * i0, 0, 32⟩
def CAP_FF_CYC_LO_CYCLE (i0 : Nat) : Fld := ⟨.cap, 0x60428 + 0x40 * i0, 0, 32⟩
def CAP_FF_LOC_CH (i0 : Nat) : Fld := ⟨.cap, 0x60430 + 0x40 * i0, 0, 7⟩
def CAP_FF_LOC_VALID (i0 : Nat) : Fld := ⟨.cap, 0x60430 + 0x40 * i0, 7, 1⟩
def CAP_FF_LOC_EVENT (i0 : Nat) : Fld := ⟨.cap, 0x60430 + 0x40 * i0, 8, 3⟩
def CAP_FF_LOC_TS (i0 : Nat) : Fld := ⟨.cap, 0x60430 + 0x40 * i0, 16, 5⟩
def CAP_FF_SEG_SEG (i0 : Nat) : Fld := ⟨.cap, 0x60434 + 0x40 * i0, 0, 16⟩
def CAP_FF_SEG_GEN (i0 : Nat) : Fld := ⟨.cap, 0x60434 + 0x40 * i0, 16, 8⟩
def CAP_FF_LINE_LINE (i0 : Nat) : Fld := ⟨.cap, 0x60438 + 0x40 * i0, 0, 32⟩
def CAP_CH_FAIL_COUNT (i0 : Nat) : Fld := ⟨.cap, 0x60C00 + 0x4 * i0, 0, 32⟩
def CAP_SH_ID_ID (i0 : Nat) (i1 : Nat) : Fld := ⟨.cap, 0x61000 + 0x800 * i0 + 0x40 * i1, 0, 16⟩
def CAP_SH_ID_STATE (i0 : Nat) (i1 : Nat) : Fld := ⟨.cap, 0x61000 + 0x800 * i0 + 0x40 * i1, 16, 3⟩
def CAP_SH_ID_KIND (i0 : Nat) (i1 : Nat) : Fld := ⟨.cap, 0x61000 + 0x800 * i0 + 0x40 * i1, 19, 1⟩
def CAP_SH_CYCLE_LO (i0 : Nat) (i1 : Nat) : Fld := ⟨.cap, 0x61004 + 0x800 * i0 + 0x40 * i1, 0, 32⟩
def CAP_SH_LINES_LO (i0 : Nat) (i1 : Nat) : Fld := ⟨.cap, 0x6100C + 0x800 * i0 + 0x40 * i1, 0, 32⟩
def CAP_SH_VOID_LO (i0 : Nat) (i1 : Nat) : Fld := ⟨.cap, 0x61014 + 0x800 * i0 + 0x40 * i1, 0, 32⟩
def CAP_SH_JUDGED_LO (i0 : Nat) (i1 : Nat) : Fld := ⟨.cap, 0x6101C + 0x800 * i0 + 0x40 * i1, 0, 32⟩
def CAP_SH_FAILCYC_LO (i0 : Nat) (i1 : Nat) : Fld := ⟨.cap, 0x61024 + 0x800 * i0 + 0x40 * i1, 0, 32⟩
def CAP_SH_FAILS_LO (i0 : Nat) (i1 : Nat) : Fld := ⟨.cap, 0x6102C + 0x800 * i0 + 0x40 * i1, 0, 32⟩
def CAP_SH_CH_FAIL_COUNT (i0 : Nat) (i1 : Nat) : Fld := ⟨.cap, 0x62000 + 0x200 * i0 + 0x4 * i1, 0, 32⟩
def TRG_CTRL_MODE (i0 : Nat) : Fld := ⟨.trg, 0x70000 + 0x100 * i0, 4, 2⟩
def TRG_CTRL_ARM_ON_START (i0 : Nat) : Fld := ⟨.trg, 0x70000 + 0x100 * i0, 6, 1⟩
def TRG_CTRL_OVERWRITE (i0 : Nat) : Fld := ⟨.trg, 0x70000 + 0x100 * i0, 7, 1⟩
def TRG_SRC_KIND (i0 : Nat) : Fld := ⟨.trg, 0x70004 + 0x100 * i0, 0, 2⟩
def TRG_SRC_GROVE (i0 : Nat) : Fld := ⟨.trg, 0x70004 + 0x100 * i0, 8, 5⟩
def TRG_SRC_DSC (i0 : Nat) : Fld := ⟨.trg, 0x70004 + 0x100 * i0, 16, 4⟩
def TRG_SRC_DSC_QTY (i0 : Nat) : Fld := ⟨.trg, 0x70004 + 0x100 * i0, 20, 1⟩
def TRG_VALUE_VALUE (i0 : Nat) (i1 : Nat) : Fld := ⟨.trg, 0x70010 + 0x100 * i0 + 0x4 * i1, 0, 32⟩
def TRG_DC_DC (i0 : Nat) (i1 : Nat) : Fld := ⟨.trg, 0x70020 + 0x100 * i0 + 0x4 * i1, 0, 32⟩
def TRG_QUAL_QSRC (i0 : Nat) : Fld := ⟨.trg, 0x70030 + 0x100 * i0, 0, 3⟩
def TRG_QUAL_QSEL (i0 : Nat) : Fld := ⟨.trg, 0x70030 + 0x100 * i0, 4, 2⟩
def TRG_QUAL_DSCEV (i0 : Nat) : Fld := ⟨.trg, 0x70030 + 0x100 * i0, 8, 3⟩
def TRG_QUAL_COMB (i0 : Nat) : Fld := ⟨.trg, 0x70030 + 0x100 * i0, 12, 3⟩
def TRG_QTIME_LO_T (i0 : Nat) : Fld := ⟨.trg, 0x70034 + 0x100 * i0, 0, 32⟩
def TRG_DSC_LEVEL_LEVEL (i0 : Nat) : Fld := ⟨.trg, 0x7003C + 0x100 * i0, 0, 24⟩
def TRG_DEPTH_PRE (i0 : Nat) : Fld := ⟨.trg, 0x70040 + 0x100 * i0, 0, 16⟩
def TRG_DEPTH_POST (i0 : Nat) : Fld := ⟨.trg, 0x70040 + 0x100 * i0, 16, 16⟩
def TRG_TIMING_DIV (i0 : Nat) : Fld := ⟨.trg, 0x70044 + 0x100 * i0, 0, 16⟩
def TRG_TIMING_MEAS_CH (i0 : Nat) : Fld := ⟨.trg, 0x70044 + 0x100 * i0, 16, 7⟩
def TRG_TIMING_PRE_MAX (i0 : Nat) : Fld := ⟨.trg, 0x70044 + 0x100 * i0, 23, 1⟩
def TRG_STORE_PAGES (i0 : Nat) : Fld := ⟨.trg, 0x70050 + 0x100 * i0, 0, 12⟩
def TRG_STORE_RECS (i0 : Nat) : Fld := ⟨.trg, 0x70050 + 0x100 * i0, 16, 16⟩
def TRG_LOC_SDRAM (i0 : Nat) : Fld := ⟨.trg, 0x70054 + 0x100 * i0, 0, 1⟩
def TRG_LOC_PAGE (i0 : Nat) : Fld := ⟨.trg, 0x70054 + 0x100 * i0, 16, 16⟩
def TRG_STATUS_STATE (i0 : Nat) : Fld := ⟨.trg, 0x70058 + 0x100 * i0, 0, 3⟩
def TRG_STATUS_UNREAD (i0 : Nat) : Fld := ⟨.trg, 0x70058 + 0x100 * i0, 4, 12⟩
def TRG_STATUS_IGNORED (i0 : Nat) : Fld := ⟨.trg, 0x70058 + 0x100 * i0, 16, 16⟩
def TRG_LAST_LO_TIME (i0 : Nat) : Fld := ⟨.trg, 0x70060 + 0x100 * i0, 0, 32⟩
def TRG_LAST_FINE_FINE (i0 : Nat) : Fld := ⟨.trg, 0x70068 + 0x100 * i0, 0, 14⟩
def TRG_LOST_COUNT (i0 : Nat) : Fld := ⟨.trg, 0x70074 + 0x100 * i0, 0, 32⟩
def TMU_CTRL_FUNC (i0 : Nat) : Fld := ⟨.tmu, 0x78000 + 0x80 * i0, 4, 3⟩
def TMU_CTRL_STORE (i0 : Nat) : Fld := ⟨.tmu, 0x78000 + 0x80 * i0, 7, 1⟩
def TMU_CTRL_WRAP (i0 : Nat) : Fld := ⟨.tmu, 0x78000 + 0x80 * i0, 8, 1⟩
def TMU_CTRL_CONT (i0 : Nat) : Fld := ⟨.tmu, 0x78000 + 0x80 * i0, 9, 1⟩
def TMU_SRC_SRC (i0 : Nat) : Fld := ⟨.tmu, 0x78004 + 0x80 * i0, 0, 4⟩
def TMU_SRC_EDGE (i0 : Nat) : Fld := ⟨.tmu, 0x78004 + 0x80 * i0, 4, 2⟩
def TMU_SRC_CH (i0 : Nat) : Fld := ⟨.tmu, 0x78004 + 0x80 * i0, 8, 7⟩
def TMU_SRC_SEL (i0 : Nat) : Fld := ⟨.tmu, 0x78004 + 0x80 * i0, 16, 3⟩
def TMU_SRC_PARTNER (i0 : Nat) : Fld := ⟨.tmu, 0x78004 + 0x80 * i0, 24, 5⟩
def TMU_PRESCALE_N (i0 : Nat) : Fld := ⟨.tmu, 0x78008 + 0x80 * i0, 0, 16⟩
def TMU_GATE_GSRC (i0 : Nat) : Fld := ⟨.tmu, 0x7800C + 0x80 * i0, 0, 2⟩
def TMU_GATE_GROVE (i0 : Nat) : Fld := ⟨.tmu, 0x7800C + 0x80 * i0, 8, 5⟩
def TMU_GATE_US_US (i0 : Nat) : Fld := ⟨.tmu, 0x78010 + 0x80 * i0, 0, 24⟩
def TMU_GATE_CNT_COUNT (i0 : Nat) : Fld := ⟨.tmu, 0x78014 + 0x80 * i0, 0, 21⟩
def TMU_GATE_T_LO_T (i0 : Nat) : Fld := ⟨.tmu, 0x78018 + 0x80 * i0, 0, 32⟩
def TMU_WINDOW_TICKS (i0 : Nat) : Fld := ⟨.tmu, 0x78020 + 0x80 * i0, 0, 24⟩
def TMU_STORE_PAGES (i0 : Nat) : Fld := ⟨.tmu, 0x78024 + 0x80 * i0, 0, 12⟩
def TMU_LOC_SDRAM (i0 : Nat) : Fld := ⟨.tmu, 0x78028 + 0x80 * i0, 0, 1⟩
def TMU_LOC_PAGE (i0 : Nat) : Fld := ⟨.tmu, 0x78028 + 0x80 * i0, 16, 16⟩
def TMU_STATUS_STATE (i0 : Nat) : Fld := ⟨.tmu, 0x78030 + 0x80 * i0, 0, 3⟩
def TMU_STATUS_STALE (i0 : Nat) : Fld := ⟨.tmu, 0x78030 + 0x80 * i0, 5, 1⟩
def TMU_STATUS_GATES (i0 : Nat) : Fld := ⟨.tmu, 0x78030 + 0x80 * i0, 16, 16⟩
def TMU_LOST_COUNT (i0 : Nat) : Fld := ⟨.tmu, 0x7803C + 0x80 * i0, 0, 32⟩
def TMU_MISSED_COUNT (i0 : Nat) : Fld := ⟨.tmu, 0x78040 + 0x80 * i0, 0, 32⟩
def TMU_RES_COUNT_COUNT (i0 : Nat) : Fld := ⟨.tmu, 0x78044 + 0x80 * i0, 0, 21⟩
def TMU_RES_COUNT_FULL_GATE (i0 : Nat) : Fld := ⟨.tmu, 0x78044 + 0x80 * i0, 24, 1⟩
def TMU_RES_COUNT_TRUNCATED (i0 : Nat) : Fld := ⟨.tmu, 0x78044 + 0x80 * i0, 25, 1⟩
def TMU_RES_COUNT_UNREF (i0 : Nat) : Fld := ⟨.tmu, 0x78044 + 0x80 * i0, 26, 1⟩
def TMU_RES_COUNT_STALE (i0 : Nat) : Fld := ⟨.tmu, 0x78044 + 0x80 * i0, 27, 1⟩
def TMU_RES_MEAN_LO_VALUE (i0 : Nat) : Fld := ⟨.tmu, 0x78048 + 0x80 * i0, 0, 32⟩
def TMU_RES_SDEV_LO_VALUE (i0 : Nat) : Fld := ⟨.tmu, 0x78050 + 0x80 * i0, 0, 32⟩
def TMU_RES_MIN_LO_VALUE (i0 : Nat) : Fld := ⟨.tmu, 0x78058 + 0x80 * i0, 0, 32⟩
def TMU_RES_MAX_LO_VALUE (i0 : Nat) : Fld := ⟨.tmu, 0x78060 + 0x80 * i0, 0, 32⟩
def TMU_RES_FREQ_LO_VALUE (i0 : Nat) : Fld := ⟨.tmu, 0x78068 + 0x80 * i0, 0, 32⟩
def TMU_RES_UNMATCHED_COUNT (i0 : Nat) : Fld := ⟨.tmu, 0x78070 + 0x80 * i0, 0, 21⟩
def TMU_CAL_TEMP_TEMP (i0 : Nat) : Fld := ⟨.tmu, 0x78074 + 0x80 * i0, 0, 16⟩
def TMU_GCTRL_AUTO_RECAL : Fld := ⟨.tmu, 0x7C000, 0, 1⟩
def TMU_GSTATUS_CAL_RUN : Fld := ⟨.tmu, 0x7C004, 0, 1⟩
def TMU_GSTATUS_TRG_STALE : Fld := ⟨.tmu, 0x7C004, 16, 4⟩
def TMU_BIN_SEL_UNIT : Fld := ⟨.tmu, 0x7C008, 0, 6⟩
def TMU_BIN_SEL_CODE : Fld := ⟨.tmu, 0x7C008, 16, 12⟩
def TMU_TRG_CAL_TEMP_TEMP (i0 : Nat) : Fld := ⟨.tmu, 0x7C020 + 0x4 * i0, 0, 16⟩
def DSC_CTRL_MODE (i0 : Nat) : Fld := ⟨.dsc, 0x90000 + 0x800 * i0, 0, 3⟩
def DSC_CTRL_DISC_AFTER (i0 : Nat) : Fld := ⟨.dsc, 0x90000 + 0x800 * i0, 4, 1⟩
def DSC_STATUS_MODE (i0 : Nat) : Fld := ⟨.dsc, 0x90004 + 0x800 * i0, 0, 3⟩
def DSC_STATUS_GOV (i0 : Nat) : Fld := ⟨.dsc, 0x90004 + 0x800 * i0, 3, 1⟩
def DSC_STATUS_CAUSE (i0 : Nat) : Fld := ⟨.dsc, 0x90004 + 0x800 * i0, 4, 3⟩
def DSC_STATUS_ACTIVE (i0 : Nat) : Fld := ⟨.dsc, 0x90004 + 0x800 * i0, 8, 3⟩
def DSC_STATUS_INDEX (i0 : Nat) : Fld := ⟨.dsc, 0x90004 + 0x800 * i0, 16, 12⟩
def DSC_VSET_UV (i0 : Nat) : Fld := ⟨.dsc, 0x90008 + 0x800 * i0, 0, 23⟩
def DSC_VCLAMP_UV (i0 : Nat) : Fld := ⟨.dsc, 0x90014 + 0x800 * i0, 0, 23⟩
def DSC_ISET_I (i0 : Nat) : Fld := ⟨.dsc, 0x9000C + 0x800 * i0, 0, 24⟩
def DSC_ILIM_I (i0 : Nat) : Fld := ⟨.dsc, 0x90010 + 0x800 * i0, 0, 24⟩
def DSC_SLOPE_UV_PER_US (i0 : Nat) : Fld := ⟨.dsc, 0x90018 + 0x800 * i0, 0, 20⟩
def DSC_DLIM_DMIN (i0 : Nat) : Fld := ⟨.dsc, 0x9001C + 0x800 * i0, 0, 16⟩
def DSC_DLIM_DMAX (i0 : Nat) : Fld := ⟨.dsc, 0x9001C + 0x800 * i0, 16, 16⟩
def DSC_PRELOAD_DUTY (i0 : Nat) : Fld := ⟨.dsc, 0x90020 + 0x800 * i0, 0, 16⟩
def DSC_CFG_SMUL (i0 : Nat) : Fld := ⟨.dsc, 0x90024 + 0x800 * i0, 0, 1⟩
def DSC_CFG_RC_EN (i0 : Nat) : Fld := ⟨.dsc, 0x90024 + 0x800 * i0, 1, 1⟩
def DSC_IMAX_I_MAX (i0 : Nat) : Fld := ⟨.dsc, 0x90028 + 0x800 * i0, 0, 13⟩
def DSC_IMG_RAMP_DOWN (i0 : Nat) : Fld := ⟨.dsc, 0x9002C + 0x800 * i0, 0, 10⟩
def DSC_IMG_F_SW (i0 : Nat) : Fld := ⟨.dsc, 0x9002C + 0x800 * i0, 16, 12⟩
def DSC_VMEAS_UV (i0 : Nat) : Fld := ⟨.dsc, 0x90030 + 0x800 * i0, 0, 24⟩
def DSC_IMEAS_I (i0 : Nat) : Fld := ⟨.dsc, 0x90034 + 0x800 * i0, 0, 24⟩
def DSC_IMEAS_IRANGE (i0 : Nat) : Fld := ⟨.dsc, 0x90034 + 0x800 * i0, 24, 1⟩
def DSC_DUTY_CMD (i0 : Nat) : Fld := ⟨.dsc, 0x90038 + 0x800 * i0, 0, 16⟩
def DSC_DUTY_APPLIED (i0 : Nat) : Fld := ⟨.dsc, 0x90038 + 0x800 * i0, 16, 16⟩
def DSC_LATE_CNT_COUNT (i0 : Nat) : Fld := ⟨.dsc, 0x90044 + 0x800 * i0, 0, 16⟩
def DSC_RC_CNT_CLEAN (i0 : Nat) : Fld := ⟨.dsc, 0x90048 + 0x800 * i0, 0, 16⟩
def DSC_RC_CNT_DISCARD (i0 : Nat) : Fld := ⟨.dsc, 0x90048 + 0x800 * i0, 16, 16⟩
def DSC_COEF_M (i0 : Nat) (i1 : Nat) : Fld := ⟨.dsc, 0x90080 + 0x800 * i0 + 0x4 * i1, 0, 18⟩
def DSC_COEF_E (i0 : Nat) (i1 : Nat) : Fld := ⟨.dsc, 0x90080 + 0x800 * i0 + 0x4 * i1, 18, 6⟩
def DSC_COEF_PAR (i0 : Nat) (i1 : Nat) : Fld := ⟨.dsc, 0x90080 + 0x800 * i0 + 0x4 * i1, 31, 1⟩
def DSC_COEF_ACT_M (i0 : Nat) (i1 : Nat) : Fld := ⟨.dsc, 0x900C0 + 0x800 * i0 + 0x4 * i1, 0, 18⟩
def DSC_COEF_ACT_E (i0 : Nat) (i1 : Nat) : Fld := ⟨.dsc, 0x900C0 + 0x800 * i0 + 0x4 * i1, 18, 6⟩
def DSC_COEF_ACT_PAR (i0 : Nat) (i1 : Nat) : Fld := ⟨.dsc, 0x900C0 + 0x800 * i0 + 0x4 * i1, 31, 1⟩
def DSC_RC_CFG_LEAD (i0 : Nat) : Fld := ⟨.dsc, 0x90100 + 0x800 * i0, 0, 6⟩
def DSC_AT_CFG_TARGET (i0 : Nat) : Fld := ⟨.dsc, 0x90104 + 0x800 * i0, 0, 1⟩
def DSC_AT_CFG_APPLY (i0 : Nat) : Fld := ⟨.dsc, 0x90104 + 0x800 * i0, 1, 1⟩
def DSC_AT_CFG_RULE (i0 : Nat) : Fld := ⟨.dsc, 0x90104 + 0x800 * i0, 2, 2⟩
def DSC_AT_CFG_NCYC (i0 : Nat) : Fld := ⟨.dsc, 0x90104 + 0x800 * i0, 4, 4⟩
def DSC_AT_CFG_MAXCYC (i0 : Nat) : Fld := ⟨.dsc, 0x90104 + 0x800 * i0, 8, 8⟩
def DSC_AT_STATUS_RESULT (i0 : Nat) : Fld := ⟨.dsc, 0x90108 + 0x800 * i0, 0, 3⟩
def DSC_AT_STATUS_CYCLES (i0 : Nat) : Fld := ⟨.dsc, 0x90108 + 0x800 * i0, 8, 8⟩
def DSC_AT_TU_TU (i0 : Nat) : Fld := ⟨.dsc, 0x9010C + 0x800 * i0, 0, 16⟩
def DSC_AT_KU_M (i0 : Nat) : Fld := ⟨.dsc, 0x90110 + 0x800 * i0, 0, 18⟩
def DSC_AT_KU_E (i0 : Nat) : Fld := ⟨.dsc, 0x90110 + 0x800 * i0, 18, 6⟩
def DSC_AT_PROP_M (i0 : Nat) (i1 : Nat) : Fld := ⟨.dsc, 0x90114 + 0x800 * i0 + 0x4 * i1, 0, 18⟩
def DSC_AT_PROP_E (i0 : Nat) (i1 : Nat) : Fld := ⟨.dsc, 0x90114 + 0x800 * i0 + 0x4 * i1, 18, 6⟩
def DSC_RC_BIND_SEG (i0 : Nat) (i1 : Nat) : Fld := ⟨.dsc, 0x90140 + 0x800 * i0 + 0x10 * i1, 0, 16⟩
def DSC_RC_BIND_GEN (i0 : Nat) (i1 : Nat) : Fld := ⟨.dsc, 0x90140 + 0x800 * i0 + 0x10 * i1, 16, 8⟩
def DSC_RC_BIND_VALID (i0 : Nat) (i1 : Nat) : Fld := ⟨.dsc, 0x90140 + 0x800 * i0 + 0x10 * i1, 24, 1⟩
def DSC_RC_WORD_WORD (i0 : Nat) (i1 : Nat) : Fld := ⟨.dsc, 0x90144 + 0x800 * i0 + 0x10 * i1, 0, 24⟩
def DSC_RC_LEN_LEN (i0 : Nat) (i1 : Nat) : Fld := ⟨.dsc, 0x90148 + 0x800 * i0 + 0x10 * i1, 0, 13⟩
def DSC_RC_STAT_STATE (i0 : Nat) (i1 : Nat) : Fld := ⟨.dsc, 0x9014C + 0x800 * i0 + 0x10 * i1, 0, 3⟩
def DSC_RC_STAT_L (i0 : Nat) (i1 : Nat) : Fld := ⟨.dsc, 0x9014C + 0x800 * i0 + 0x10 * i1, 4, 13⟩
def DSC_RC_STAT_LATE (i0 : Nat) (i1 : Nat) : Fld := ⟨.dsc, 0x9014C + 0x800 * i0 + 0x10 * i1, 24, 8⟩
def DSC_RC_RSEL_DSC : Fld := ⟨.dsc, 0x98000, 0, 4⟩
def DSC_RC_RSEL_SLOT : Fld := ⟨.dsc, 0x98000, 4, 2⟩
def DSC_RC_RSEL_INDEX : Fld := ⟨.dsc, 0x98000, 16, 12⟩
def TRC_CFG_DSC (i0 : Nat) : Fld := ⟨.dsc, 0x99000 + 0x20 * i0, 0, 4⟩
def TRC_CFG_NODE (i0 : Nat) : Fld := ⟨.dsc, 0x99000 + 0x20 * i0, 4, 5⟩
def TRC_CFG_START (i0 : Nat) : Fld := ⟨.dsc, 0x99000 + 0x20 * i0, 9, 3⟩
def TRC_CFG_SEL (i0 : Nat) : Fld := ⟨.dsc, 0x99000 + 0x20 * i0, 12, 2⟩
def TRC_CFG_WRAP (i0 : Nat) : Fld := ⟨.dsc, 0x99000 + 0x20 * i0, 14, 1⟩
def TRC_CFG_DECIM (i0 : Nat) : Fld := ⟨.dsc, 0x99000 + 0x20 * i0, 16, 8⟩
def TRC_LEN_LEN (i0 : Nat) : Fld := ⟨.dsc, 0x99004 + 0x20 * i0, 0, 17⟩
def TRC_CTRL_EN (i0 : Nat) : Fld := ⟨.dsc, 0x99008 + 0x20 * i0, 0, 1⟩
def TRC_STATUS_STATE (i0 : Nat) : Fld := ⟨.dsc, 0x9900C + 0x20 * i0, 0, 2⟩
def TRC_STATUS_LOST (i0 : Nat) : Fld := ⟨.dsc, 0x9900C + 0x20 * i0, 16, 16⟩
def TRC_LOC_PAGE (i0 : Nat) : Fld := ⟨.dsc, 0x99010 + 0x20 * i0, 16, 16⟩
def TRC_COUNT_ENTRIES (i0 : Nat) : Fld := ⟨.dsc, 0x99014 + 0x20 * i0, 0, 17⟩
def CMP_RSHUNT_UOHM (i0 : Nat) : Fld := ⟨.cmp, 0xA0000 + 0x100 * i0, 0, 24⟩
def CMP_IPK_I (i0 : Nat) : Fld := ⟨.cmp, 0xA0004 + 0x100 * i0, 0, 24⟩
def CMP_SLOPE_MA_PER_US (i0 : Nat) : Fld := ⟨.cmp, 0xA0008 + 0x100 * i0, 0, 20⟩
def CMP_BLANK_STEPS (i0 : Nat) : Fld := ⟨.cmp, 0xA000C + 0x100 * i0, 0, 10⟩
def CMP_WIN_HI_UV (i0 : Nat) : Fld := ⟨.cmp, 0xA0010 + 0x100 * i0, 0, 23⟩
def CMP_WIN_LO_UV (i0 : Nat) : Fld := ⟨.cmp, 0xA0014 + 0x100 * i0, 0, 23⟩
def CMP_OVP_UV (i0 : Nat) : Fld := ⟨.cmp, 0xA0018 + 0x100 * i0, 0, 23⟩
def CMP_OC_CFG_CYCLES (i0 : Nat) : Fld := ⟨.cmp, 0xA001C + 0x100 * i0, 0, 8⟩
def CMP_LEVEL_PCC (i0 : Nat) : Fld := ⟨.cmp, 0xA0020 + 0x100 * i0, 0, 1⟩
def CMP_LEVEL_WH (i0 : Nat) : Fld := ⟨.cmp, 0xA0020 + 0x100 * i0, 1, 1⟩
def CMP_LEVEL_WL (i0 : Nat) : Fld := ⟨.cmp, 0xA0020 + 0x100 * i0, 2, 1⟩
def CMP_LEVEL_OVP (i0 : Nat) : Fld := ⟨.cmp, 0xA0020 + 0x100 * i0, 3, 1⟩
def CMP_LEVEL_FLT (i0 : Nat) : Fld := ⟨.cmp, 0xA0020 + 0x100 * i0, 4, 1⟩
def CMP_LEVEL_MISMATCH (i0 : Nat) : Fld := ⟨.cmp, 0xA0020 + 0x100 * i0, 5, 1⟩
def CMP_RAW_V_V (i0 : Nat) : Fld := ⟨.cmp, 0xA0024 + 0x100 * i0, 0, 14⟩
def CMP_RAW_V_VSAT (i0 : Nat) : Fld := ⟨.cmp, 0xA0024 + 0x100 * i0, 14, 1⟩
def CMP_RAW_I_HG (i0 : Nat) : Fld := ⟨.cmp, 0xA0028 + 0x100 * i0, 0, 14⟩
def CMP_RAW_I_OVLD (i0 : Nat) : Fld := ⟨.cmp, 0xA0028 + 0x100 * i0, 14, 1⟩
def CMP_RAW_I_LG (i0 : Nat) : Fld := ⟨.cmp, 0xA0028 + 0x100 * i0, 16, 14⟩
def CMP_RANGE_STATE (i0 : Nat) : Fld := ⟨.cmp, 0xA002C + 0x100 * i0, 0, 1⟩
def CMP_RANGE_SWITCHES (i0 : Nat) : Fld := ⟨.cmp, 0xA002C + 0x100 * i0, 16, 16⟩
def CMP_TRIPS_PCC (i0 : Nat) : Fld := ⟨.cmp, 0xA0030 + 0x100 * i0, 0, 16⟩
def CMP_TRIPS_WIN (i0 : Nat) : Fld := ⟨.cmp, 0xA0030 + 0x100 * i0, 16, 16⟩
def CMP_ST_CTRL_GO (i0 : Nat) : Fld := ⟨.cmp, 0xA0034 + 0x100 * i0, 0, 1⟩
def CMP_ST_RESULT_RESULT (i0 : Nat) : Fld := ⟨.cmp, 0xA0038 + 0x100 * i0, 0, 2⟩
def CMP_ST_RESULT_ABORTED (i0 : Nat) : Fld := ⟨.cmp, 0xA0038 + 0x100 * i0, 2, 1⟩
def CMP_ST_RESULT_FAILS (i0 : Nat) : Fld := ⟨.cmp, 0xA0038 + 0x100 * i0, 4, 4⟩
def CMP_RESID_CFG_EN : Fld := ⟨.cmp, 0xA1000, 0, 1⟩
def CMP_RESID_STAT_SEEN : Fld := ⟨.cmp, 0xA1004, 0, 16⟩
def CMP_RESID_TICK_TICK (i0 : Nat) : Fld := ⟨.cmp, 0xA1040 + 0x4 * i0, 0, 32⟩
def PGN_DT_DT_RISE (i0 : Nat) : Fld := ⟨.cmp, 0xA2000 + 0x40 * i0, 0, 10⟩
def PGN_DT_DT_FALL (i0 : Nat) : Fld := ⟨.cmp, 0xA2000 + 0x40 * i0, 16, 10⟩
def PGN_LIM_MIN_ON (i0 : Nat) : Fld := ⟨.cmp, 0xA2004 + 0x40 * i0, 0, 12⟩
def PGN_LIM_MIN_OFF (i0 : Nat) : Fld := ⟨.cmp, 0xA2004 + 0x40 * i0, 16, 12⟩
def PGN_PHASE_SPHASE (i0 : Nat) : Fld := ⟨.cmp, 0xA2008 + 0x40 * i0, 0, 15⟩
def PGN_PHASE_OFFSET (i0 : Nat) : Fld := ⟨.cmp, 0xA2008 + 0x40 * i0, 16, 15⟩
def PGN_STATUS_N (i0 : Nat) : Fld := ⟨.cmp, 0xA200C + 0x40 * i0, 0, 15⟩
def PGN_STATUS_CUT (i0 : Nat) : Fld := ⟨.cmp, 0xA200C + 0x40 * i0, 15, 1⟩
def PGN_STATUS_ON_LAST (i0 : Nat) : Fld := ⟨.cmp, 0xA200C + 0x40 * i0, 16, 15⟩
def SCH_TAKE_LO (i0 : Nat) : Fld := ⟨.sch, 0xB0000 + 0x100 * i0, 0, 32⟩
def SCH_TAKE_HI (i0 : Nat) : Fld := ⟨.sch, 0xB0004 + 0x100 * i0, 0, 32⟩
def SCH_CUR_ARG_LO (i0 : Nat) : Fld := ⟨.sch, 0xB0010 + 0x100 * i0, 0, 32⟩
def SCH_CUR_OP_LO (i0 : Nat) (i1 : Nat) : Fld := ⟨.sch, 0xB0018 + 0x100 * i0 + 0x8 * i1, 0, 32⟩
def SCH_NEW_COMMIT_HANDLE (i0 : Nat) : Fld := ⟨.sch, 0xB0038 + 0x100 * i0, 0, 20⟩
def SCH_NEW_COMMIT_STATUS (i0 : Nat) : Fld := ⟨.sch, 0xB0038 + 0x100 * i0, 20, 4⟩
def SCH_NEW_WORD (i0 : Nat) (i1 : Nat) : Fld := ⟨.sch, 0xB0040 + 0x100 * i0 + 0x4 * i1, 0, 32⟩
def SCH_FILL_VAL_LO (i0 : Nat) : Fld := ⟨.sch, 0xB0060 + 0x100 * i0, 0, 32⟩
def SCH_NMI_CAUSE_CAUSE (i0 : Nat) : Fld := ⟨.sch, 0xB0070 + 0x100 * i0, 0, 5⟩
def SCH_NMI_VEC_OFFSET (i0 : Nat) : Fld := ⟨.sch, 0xB0074 + 0x100 * i0, 0, 27⟩
def SCH_WDOG_US (i0 : Nat) : Fld := ⟨.sch, 0xB0078 + 0x100 * i0, 0, 24⟩
def SCH_TIMECMP_LO_TIME (i0 : Nat) : Fld := ⟨.sch, 0xB0080 + 0x100 * i0, 0, 32⟩
def SCH_OP_RESULT_RESULT (i0 : Nat) : Fld := ⟨.sch, 0xB0088 + 0x100 * i0, 0, 3⟩
def SCH_OP_RESULT_OP (i0 : Nat) : Fld := ⟨.sch, 0xB0088 + 0x100 * i0, 3, 1⟩
def SCH_FILL_DROP_STALE : Fld := ⟨.sch, 0xB100C, 0, 16⟩
def SCH_FILL_DROP_BAD : Fld := ⟨.sch, 0xB100C, 16, 16⟩
def SCH_UNCLAIMED_COUNT : Fld := ⟨.sch, 0xB1010, 0, 16⟩
def SCH_PAR_LOC_INDEX : Fld := ⟨.sch, 0xB1014, 0, 12⟩
def SCH_PAR_LOC_FLOW : Fld := ⟨.sch, 0xB1014, 12, 10⟩
def SCH_PAR_LOC_SCRUB : Fld := ⟨.sch, 0xB1014, 24, 1⟩
def SCH_FLOW_CFG_PRIO (i0 : Nat) : Fld := ⟨.sch, 0xB2000 + 0x4 * i0, 0, 2⟩
def HQ_WSEQ_COUNT : Fld := ⟨.hq, 0xC0004, 0, 32⟩
def HQ_STALE_CNT_COUNT : Fld := ⟨.hq, 0xC0008, 0, 16⟩
def HQ_SDRAM_PAGE_PAGE : Fld := ⟨.hq, 0xC0014, 0, 3⟩
def HQ_DENIED_RD_COUNT : Fld := ⟨.hq, 0xC0018, 0, 16⟩
def HQ_TAG_SEL_TAG : Fld := ⟨.hq, 0xC0020, 0, 9⟩
def HQ_PWF_CNT_COUNT : Fld := ⟨.hq, 0xC0400, 0, 16⟩
def HQ_PWF_CNT_LOST : Fld := ⟨.hq, 0xC0400, 16, 16⟩
def HQ_CQ_BASE_LO_ADDR (i0 : Nat) : Fld := ⟨.hq, 0xC1014 + 0x40 * i0, 0, 32⟩
def HQ_SQ_CFG_SIZE (i0 : Nat) : Fld := ⟨.hq, 0xC1008 + 0x40 * i0, 0, 13⟩
def HQ_SQ_CFG_EN (i0 : Nat) : Fld := ⟨.hq, 0xC1008 + 0x40 * i0, 16, 1⟩
def HQ_CQ_CFG_SIZE (i0 : Nat) : Fld := ⟨.hq, 0xC101C + 0x40 * i0, 0, 13⟩
def HQ_CQ_CFG_EN (i0 : Nat) : Fld := ⟨.hq, 0xC101C + 0x40 * i0, 16, 1⟩
def HQ_CQ_CFG_COUNT (i0 : Nat) : Fld := ⟨.hq, 0xC101C + 0x40 * i0, 24, 8⟩
def HQ_CQ_TIME_US (i0 : Nat) : Fld := ⟨.hq, 0xC1028 + 0x40 * i0, 0, 8⟩
def HQ_SQ_HEAD_HEAD (i0 : Nat) : Fld := ⟨.hq, 0xC1010 + 0x40 * i0, 0, 12⟩
def HQ_CQ_TAIL_TAIL (i0 : Nat) : Fld := ⟨.hq, 0xC1024 + 0x40 * i0, 0, 12⟩
def HQ_CQ_TAIL_PHASE (i0 : Nat) : Fld := ⟨.hq, 0xC1024 + 0x40 * i0, 12, 1⟩
def HQ_Q_STAT_ERR (i0 : Nat) : Fld := ⟨.hq, 0xC102C + 0x40 * i0, 0, 1⟩
def HQ_Q_STAT_ERR_CODE (i0 : Nat) : Fld := ⟨.hq, 0xC102C + 0x40 * i0, 1, 2⟩
def HQ_Q_STAT_CFG_BUSY (i0 : Nat) : Fld := ⟨.hq, 0xC102C + 0x40 * i0, 4, 1⟩
def MFL_CFG_LANE_EN : Fld := ⟨.mfl, 0xD0000, 0, 8⟩
def MFL_CFG_BOND_A : Fld := ⟨.mfl, 0xD0000, 8, 2⟩
def MFL_CFG_BOND_B : Fld := ⟨.mfl, 0xD0000, 10, 2⟩
def MFL_CFG_IDLE_EN : Fld := ⟨.mfl, 0xD0000, 12, 1⟩
def MFL_CFG_CFG_BUSY : Fld := ⟨.mfl, 0xD0000, 13, 1⟩
def MFL_STATUS_UP : Fld := ⟨.mfl, 0xD0004, 0, 8⟩
def MFL_STATUS_TRAINING : Fld := ⟨.mfl, 0xD0004, 8, 8⟩
def MFL_SNAP_FWD_LANES : Fld := ⟨.mfl, 0xD0008, 0, 8⟩
def MFL_FOM_CFG_WARN : Fld := ⟨.mfl, 0xD000C, 0, 8⟩
def MFL_FOM_CFG_RETRAIN : Fld := ⟨.mfl, 0xD000C, 8, 8⟩
def MFL_IDLE_US_US : Fld := ⟨.mfl, 0xD0010, 0, 16⟩
def MFL_LANE_CTRL_RETRAIN (i0 : Nat) : Fld := ⟨.mfl, 0xD0100 + 0x100 * i0, 0, 1⟩
def MFL_LANE_STAT_STATE (i0 : Nat) : Fld := ⟨.mfl, 0xD0104 + 0x100 * i0, 0, 3⟩
def MFL_LANE_STAT_TOO_FAR (i0 : Nat) : Fld := ⟨.mfl, 0xD0104 + 0x100 * i0, 3, 1⟩
def MFL_LANE_STAT_PLESIO (i0 : Nat) : Fld := ⟨.mfl, 0xD0104 + 0x100 * i0, 4, 1⟩
def MFL_LANE_STAT_LINK (i0 : Nat) : Fld := ⟨.mfl, 0xD0104 + 0x100 * i0, 5, 3⟩
def MFL_LANE_STAT_WIDTH (i0 : Nat) : Fld := ⟨.mfl, 0xD0104 + 0x100 * i0, 8, 2⟩
def MFL_LANE_STAT_FAR_LANE (i0 : Nat) : Fld := ⟨.mfl, 0xD0104 + 0x100 * i0, 10, 3⟩
def MFL_LANE_STAT_FOM (i0 : Nat) : Fld := ⟨.mfl, 0xD0104 + 0x100 * i0, 16, 8⟩
def MFL_FAR_ID_ID (i0 : Nat) : Fld := ⟨.mfl, 0xD0108 + 0x100 * i0, 0, 32⟩
def MFL_LAT_MEAS_TICKS (i0 : Nat) : Fld := ⟨.mfl, 0xD010C + 0x100 * i0, 0, 16⟩
def MFL_LAT_LAT_SLOTS (i0 : Nat) : Fld := ⟨.mfl, 0xD010C + 0x100 * i0, 16, 7⟩
def MFL_HDR_ERR_COUNT (i0 : Nat) : Fld := ⟨.mfl, 0xD0110 + 0x100 * i0, 0, 16⟩
def MFL_TOKEN_LOST_COUNT (i0 : Nat) : Fld := ⟨.mfl, 0xD0114 + 0x100 * i0, 0, 16⟩
def MFL_RETRAINS_COUNT (i0 : Nat) : Fld := ⟨.mfl, 0xD0118 + 0x100 * i0, 0, 32⟩
def MFL_DFE_TAP (i0 : Nat) (i1 : Nat) : Fld := ⟨.mfl, 0xD0140 + 0x100 * i0 + 0x4 * i1, 0, 8⟩
def MFL_MSG_TX_DATA (i0 : Nat) (i1 : Nat) : Fld := ⟨.mfl, 0xD0180 + 0x100 * i0 + 0x4 * i1, 0, 32⟩
def MFL_MSG_SEND_SEND (i0 : Nat) : Fld := ⟨.mfl, 0xD01AC + 0x100 * i0, 0, 1⟩
def MFL_MSG_RX_DATA (i0 : Nat) (i1 : Nat) : Fld := ⟨.mfl, 0xD01C0 + 0x100 * i0 + 0x4 * i1, 0, 32⟩
def MFL_MSG_RXCTL_COUNT (i0 : Nat) : Fld := ⟨.mfl, 0xD01EC + 0x100 * i0, 8, 5⟩
def MFL_MSG_RXCTL_DROPPED (i0 : Nat) : Fld := ⟨.mfl, 0xD01EC + 0x100 * i0, 16, 16⟩
def MFL_GROVE_LAT_LG (i0 : Nat) : Fld := ⟨.mfl, 0xD0900 + 0x4 * i0, 0, 12⟩
def MFL_PEER_FAILCYC_LO_COUNT (i0 : Nat) (i1 : Nat) : Fld := ⟨.mfl, 0xD1000 + 0x80 * i0 + 0x20 * i1, 0, 32⟩
def MFL_PEER_FAILS_LO_COUNT (i0 : Nat) (i1 : Nat) : Fld := ⟨.mfl, 0xD1008 + 0x80 * i0 + 0x20 * i1, 0, 32⟩
def MFL_PEER_FF_LO_CYCLE (i0 : Nat) (i1 : Nat) : Fld := ⟨.mfl, 0xD1010 + 0x80 * i0 + 0x20 * i1, 0, 32⟩
def MFL_PEER_FF_LOC_CH (i0 : Nat) (i1 : Nat) : Fld := ⟨.mfl, 0xD1018 + 0x80 * i0 + 0x20 * i1, 0, 7⟩
def MFL_PEER_FF_LOC_FAILED (i0 : Nat) (i1 : Nat) : Fld := ⟨.mfl, 0xD1018 + 0x80 * i0 + 0x20 * i1, 7, 1⟩
def MFL_PEER_FF_LOC_SAT (i0 : Nat) (i1 : Nat) : Fld := ⟨.mfl, 0xD1018 + 0x80 * i0 + 0x20 * i1, 8, 1⟩
def MFL_PEER_STAT_VALID (i0 : Nat) (i1 : Nat) : Fld := ⟨.mfl, 0xD101C + 0x80 * i0 + 0x20 * i1, 0, 1⟩
def MFL_PEER_STAT_TAG (i0 : Nat) (i1 : Nat) : Fld := ⟨.mfl, 0xD101C + 0x80 * i0 + 0x20 * i1, 16, 9⟩
def MFL_PEER_STAT_EPOCH (i0 : Nat) (i1 : Nat) : Fld := ⟨.mfl, 0xD101C + 0x80 * i0 + 0x20 * i1, 25, 6⟩
def TIM_CTRL_HOLDOVER : Fld := ⟨.tim, 0xD8000, 0, 1⟩
def TIM_CTRL_MFL_EN : Fld := ⟨.tim, 0xD8000, 1, 1⟩
def TIM_CTRL_AUTO_HOLD : Fld := ⟨.tim, 0xD8000, 2, 1⟩
def TIM_STATUS_STATE : Fld := ⟨.tim, 0xD8004, 0, 2⟩
def TIM_STATUS_UNREF : Fld := ⟨.tim, 0xD8004, 2, 1⟩
def TIM_STATUS_REFUSE : Fld := ⟨.tim, 0xD8004, 3, 2⟩
def TIM_RATE_RATE : Fld := ⟨.tim, 0xD801C, 0, 32⟩
def TIM_RATE_HO_RATE : Fld := ⟨.tim, 0xD8020, 0, 32⟩
def TIM_STEP_LO_STEP : Fld := ⟨.tim, 0xD8024, 0, 32⟩
def TIM_STEP_AT_LO_COUNT : Fld := ⟨.tim, 0xD802C, 0, 32⟩
def TIM_OFFSET_LO_OFFSET : Fld := ⟨.tim, 0xD8034, 0, 32⟩
def TIM_MFL_CFG_LANE : Fld := ⟨.tim, 0xD8100, 0, 3⟩
def TIM_MFL_CFG_PERIOD : Fld := ⟨.tim, 0xD8100, 8, 16⟩
def TIM_MFL_CFG_AVG : Fld := ⟨.tim, 0xD8100, 24, 4⟩
def TIM_MFL_ASYM_ASYM : Fld := ⟨.tim, 0xD8104, 0, 32⟩
def TIM_MFL_OFS_LO_OFFSET : Fld := ⟨.tim, 0xD8108, 0, 32⟩
def TIM_MFL_DLY_DELAY : Fld := ⟨.tim, 0xD8110, 0, 32⟩
def TIM_MFL_STAT_COUNT : Fld := ⟨.tim, 0xD8114, 0, 16⟩
def TIM_MFL_STAT_PEER_SYNCED : Fld := ⟨.tim, 0xD8114, 16, 1⟩
def TIM_MFL_STAT_PEER_HOLD : Fld := ⟨.tim, 0xD8114, 17, 1⟩
def TIM_MFL_STAT_PEER_DEPTH : Fld := ⟨.tim, 0xD8114, 18, 3⟩
def TIM_ETH_RXRING_OFFSET : Fld := ⟨.tim, 0xD8200, 0, 27⟩
def TIM_ETH_TXRING_OFFSET : Fld := ⟨.tim, 0xD8204, 0, 27⟩
def TIM_ETH_SLOTS_RX : Fld := ⟨.tim, 0xD8208, 0, 10⟩
def TIM_ETH_SLOTS_TX : Fld := ⟨.tim, 0xD8208, 16, 10⟩
def TIM_ETH_STAT_RX_DROP : Fld := ⟨.tim, 0xD820C, 0, 16⟩
def TIM_ETH_STAT_TS_LOST : Fld := ⟨.tim, 0xD820C, 16, 16⟩
def TIM_TXTS_INFO_TAG : Fld := ⟨.tim, 0xD8210, 0, 8⟩
def TIM_TXTS_INFO_UNREF : Fld := ⟨.tim, 0xD8210, 8, 1⟩
def TIM_TXTS_INFO_VALID : Fld := ⟨.tim, 0xD8210, 31, 1⟩
def TIM_TXTS_LO_TIME : Fld := ⟨.tim, 0xD8214, 0, 32⟩
def TIM_TXTS_FRAC_FRAC : Fld := ⟨.tim, 0xD821C, 0, 16⟩
def DMC_CTRL_PD_EN : Fld := ⟨.dmc, 0xE0000, 2, 1⟩
def DMC_STATUS_STATE : Fld := ⟨.dmc, 0xE0004, 0, 2⟩
def DMC_STATUS_FAIL_SUBCH : Fld := ⟨.dmc, 0xE0004, 4, 4⟩
def DMC_STATUS_IN_FLIGHT : Fld := ⟨.dmc, 0xE0004, 8, 9⟩
def DMC_STATUS_CAUSE : Fld := ⟨.dmc, 0xE0004, 20, 4⟩
def DMC_GEOM_DENSITY : Fld := ⟨.dmc, 0xE0008, 0, 2⟩
def DMC_GEOM_RANKS2 : Fld := ⟨.dmc, 0xE0008, 2, 1⟩
def DMC_GEOM_RATE : Fld := ⟨.dmc, 0xE0008, 3, 2⟩
def DMC_GEOM_USABLE_MIB : Fld := ⟨.dmc, 0xE0008, 16, 16⟩
def DMC_PAGE_CFG_PRED_EN : Fld := ⟨.dmc, 0xE000C, 0, 1⟩
def DMC_URGENCY_URGENT_NS : Fld := ⟨.dmc, 0xE0010, 0, 10⟩
def DMC_REPLAY_CFG_REPLAY_MAX : Fld := ⟨.dmc, 0xE0014, 0, 4⟩
def DMC_REPLAY_CNT_COUNT : Fld := ⟨.dmc, 0xE0020, 0, 16⟩
def DMC_TEMP_REF_2X : Fld := ⟨.dmc, 0xE0024, 0, 4⟩
def DMC_TEMP_HOT : Fld := ⟨.dmc, 0xE0024, 4, 4⟩
def DMC_SC_TRAIN_RD_MARGIN (i0 : Nat) : Fld := ⟨.dmc, 0xE0040 + 0x10 * i0, 0, 8⟩
def DMC_SC_TRAIN_WR_MARGIN (i0 : Nat) : Fld := ⟨.dmc, 0xE0040 + 0x10 * i0, 8, 8⟩
def DMC_SC_HITS_COUNT (i0 : Nat) : Fld := ⟨.dmc, 0xE0044 + 0x10 * i0, 0, 32⟩
def DMC_SC_ACTS_COUNT (i0 : Nat) : Fld := ⟨.dmc, 0xE0048 + 0x10 * i0, 0, 32⟩
def DMC_SC_REF_POSTPONED (i0 : Nat) : Fld := ⟨.dmc, 0xE004C + 0x10 * i0, 0, 16⟩
def DMC_PORT_CFG_TARGET_NS (i0 : Nat) : Fld := ⟨.dmc, 0xE0100 + 0x20 * i0, 0, 16⟩
def DMC_PORT_CFG_MAX_INFLIGHT (i0 : Nat) : Fld := ⟨.dmc, 0xE0100 + 0x20 * i0, 16, 9⟩
def DMC_PORT_STAT_IN_FLIGHT (i0 : Nat) : Fld := ⟨.dmc, 0xE0104 + 0x20 * i0, 0, 9⟩
def DMC_PORT_STAT_LATE (i0 : Nat) : Fld := ⟨.dmc, 0xE0104 + 0x20 * i0, 16, 16⟩
def DMC_PORT_LAT_MAX_NS (i0 : Nat) : Fld := ⟨.dmc, 0xE0108 + 0x20 * i0, 0, 16⟩
def DMC_PORT_BYTES_LO_COUNT (i0 : Nat) : Fld := ⟨.dmc, 0xE010C + 0x20 * i0, 0, 32⟩
def CLK_CTRL_AUTO_RETURN : Fld := ⟨.clk, 0xF0000, 0, 1⟩
def CLK_CTRL_FORCE_INT : Fld := ⟨.clk, 0xF0000, 2, 1⟩
def CLK_STATUS_SRC : Fld := ⟨.clk, 0xF0004, 0, 2⟩
def CLK_STATUS_REF_OK : Fld := ⟨.clk, 0xF0004, 2, 1⟩
def CLK_STATUS_OSC_OK : Fld := ⟨.clk, 0xF0004, 3, 1⟩
def CLK_STATUS_CAUSE : Fld := ⟨.clk, 0xF0004, 4, 3⟩
def CLK_REF_CNT_REF : Fld := ⟨.clk, 0xF0008, 0, 16⟩
def CLK_REF_CNT_OSC : Fld := ⟨.clk, 0xF0008, 16, 16⟩
def CLK_OSC_ERR_ERR : Fld := ⟨.clk, 0xF000C, 0, 24⟩
def CLK_MON_CFG_RETURN_WIN : Fld := ⟨.clk, 0xF0010, 0, 16⟩
def CLK_LOSS_AT_LO_TIME : Fld := ⟨.clk, 0xF001C, 0, 32⟩
def CLK_LOSS_CNT_COUNT : Fld := ⟨.clk, 0xF0024, 0, 16⟩
def CLKOUT_CFG_SRC : Fld := ⟨.clk, 0xF0040, 0, 4⟩
def CLKOUT_CFG_SEL : Fld := ⟨.clk, 0xF0040, 8, 6⟩
def CLKOUT_CFG_DIV : Fld := ⟨.clk, 0xF0040, 16, 16⟩
def CLKOUT_STAT_ACTIVE : Fld := ⟨.clk, 0xF0044, 0, 1⟩
def CLKOUT_STAT_TOO_FAST : Fld := ⟨.clk, 0xF0044, 1, 1⟩
def PWR_STATUS_THERM : Fld := ⟨.pwr, 0xF0100, 0, 2⟩
def PWR_STATUS_LIMIT_TIMER : Fld := ⟨.pwr, 0xF0100, 2, 1⟩
def PWR_STATUS_INLIMIT : Fld := ⟨.pwr, 0xF0100, 3, 1⟩
def PWR_STATUS_VIN_BAND : Fld := ⟨.pwr, 0xF0100, 4, 3⟩
def PWR_STATUS_RAIL_GOOD : Fld := ⟨.pwr, 0xF0100, 8, 7⟩
def PWR_STATUS_VALID_SENS : Fld := ⟨.pwr, 0xF0100, 16, 5⟩
def PWR_VIN_VIN_MV : Fld := ⟨.pwr, 0xF0104, 0, 16⟩
def PWR_VIN_IIN_MA : Fld := ⟨.pwr, 0xF0104, 16, 16⟩
def PWR_CAP_THERM_CAP : Fld := ⟨.pwr, 0xF0108, 0, 11⟩
def PWR_CAP_VIN_CAP : Fld := ⟨.pwr, 0xF0108, 16, 11⟩
def PWR_POWER_P_IN : Fld := ⟨.pwr, 0xF010C, 0, 16⟩
def PWR_POWER_P_PEAK : Fld := ⟨.pwr, 0xF010C, 16, 16⟩
def PWR_TDEC_TEMP : Fld := ⟨.pwr, 0xF011C, 0, 16⟩
def PWR_TDEC_SENSOR : Fld := ⟨.pwr, 0xF011C, 16, 4⟩
def PWR_ILIM_CNT_COUNT : Fld := ⟨.pwr, 0xF0120, 0, 16⟩
def PWR_TSENS_MEDIAN (i0 : Nat) : Fld := ⟨.pwr, 0xF0140 + 0x4 * i0, 0, 16⟩
def PWR_TSENS_LAST (i0 : Nat) : Fld := ⟨.pwr, 0xF0140 + 0x4 * i0, 16, 15⟩
def PWR_TSENS_INVALID (i0 : Nat) : Fld := ⟨.pwr, 0xF0140 + 0x4 * i0, 31, 1⟩
def PWR_RAIL_SET_MV (i0 : Nat) : Fld := ⟨.pwr, 0xF0180 + 0x8 * i0, 0, 16⟩
def PWR_RAIL_LIM_OV_PCT (i0 : Nat) : Fld := ⟨.pwr, 0xF0184 + 0x8 * i0, 0, 4⟩
def PWR_RAIL_LIM_UV_PCT (i0 : Nat) : Fld := ⟨.pwr, 0xF0184 + 0x8 * i0, 4, 4⟩
def PWR_RAIL_LIM_OUT_CNT (i0 : Nat) : Fld := ⟨.pwr, 0xF0184 + 0x8 * i0, 16, 16⟩
def PWR_WEAR_HOT_LO_US : Fld := ⟨.pwr, 0xF01C0, 0, 32⟩
def PWR_WEAR_LIM_LO_US : Fld := ⟨.pwr, 0xF01C8, 0, 32⟩
def PWR_WEAR_CRIT_COUNT : Fld := ⟨.pwr, 0xF01D0, 0, 16⟩
def PWR_WEAR_POH_HOURS : Fld := ⟨.pwr, 0xF01D4, 0, 32⟩
def PWR_WEAR_PEAK_TEMP : Fld := ⟨.pwr, 0xF01D8, 0, 16⟩
def PWR_US_TICK_LO_TICK : Fld := ⟨.pwr, 0xF01E0, 0, 32⟩
def CAL_STATUS_RUNNING : Fld := ⟨.cal, 0xF4000, 0, 1⟩
def CAL_STATUS_GROUP : Fld := ⟨.cal, 0xF4000, 1, 3⟩
def CAL_STATUS_START_DONE : Fld := ⟨.cal, 0xF4000, 4, 1⟩
def CAL_STATUS_RECORD_OK : Fld := ⟨.cal, 0xF4000, 5, 1⟩
def CAL_STATUS_REF_OK : Fld := ⟨.cal, 0xF4000, 6, 1⟩
def CAL_COUNT_COUNT : Fld := ⟨.cal, 0xF4004, 0, 32⟩
def CAL_RECORD_SEQ : Fld := ⟨.cal, 0xF4008, 0, 32⟩
def CAL_GRP_STAT_STATE (i0 : Nat) : Fld := ⟨.cal, 0xF4040 + 0x10 * i0, 0, 2⟩
def CAL_GRP_STAT_BASE (i0 : Nat) : Fld := ⟨.cal, 0xF4040 + 0x10 * i0, 2, 1⟩
def CAL_GRP_STAT_RUNS (i0 : Nat) : Fld := ⟨.cal, 0xF4040 + 0x10 * i0, 4, 12⟩
def CAL_GRP_STAT_STALE_UNITS (i0 : Nat) : Fld := ⟨.cal, 0xF4040 + 0x10 * i0, 16, 16⟩
def CAL_GRP_TIME_LO_TIME (i0 : Nat) : Fld := ⟨.cal, 0xF4044 + 0x10 * i0, 0, 32⟩
def CAL_GRP_TEMP_TEMP (i0 : Nat) : Fld := ⟨.cal, 0xF404C + 0x10 * i0, 0, 16⟩
def CAL_STALE_SEL_GROUP : Fld := ⟨.cal, 0xF4100, 0, 3⟩
def FLT_CTRL_TEST_EN : Fld := ⟨.flt, 0xF8000, 0, 1⟩
def FLT_CTRL_FORCE_MIS : Fld := ⟨.flt, 0xF8000, 1, 1⟩
def FLT_STATUS_STATE : Fld := ⟨.flt, 0xF8004, 0, 2⟩
def FLT_STATUS_HB : Fld := ⟨.flt, 0xF8004, 2, 1⟩
def FLT_STATUS_CAUSE : Fld := ⟨.flt, 0xF8004, 5, 3⟩
def FLT_STATUS_FIRST_SRC : Fld := ⟨.flt, 0xF8004, 8, 8⟩
def FLT_STATUS_FIRST_VALID : Fld := ⟨.flt, 0xF8004, 16, 1⟩
def FLT_FIRST_TIME_LO_TIME : Fld := ⟨.flt, 0xF8010, 0, 32⟩
def FLT_CLASS_CLASS (i0 : Nat) : Fld := ⟨.flt, 0xF8100 + 0x4 * i0, 0, 32⟩
def FLT_FLOOR_CLASS (i0 : Nat) : Fld := ⟨.flt, 0xF8200 + 0x4 * i0, 0, 32⟩
def FLT_LATCH_LATCH (i0 : Nat) : Fld := ⟨.flt, 0xF8300 + 0x4 * i0, 0, 32⟩
def FLT_ACTIVE_ACTIVE (i0 : Nat) : Fld := ⟨.flt, 0xF8320 + 0x4 * i0, 0, 32⟩
def FLT_MIS_MIS (i0 : Nat) : Fld := ⟨.flt, 0xF8340 + 0x4 * i0, 0, 32⟩
def FLT_FORCE_FORCE (i0 : Nat) : Fld := ⟨.flt, 0xF8360 + 0x4 * i0, 0, 32⟩
def FLT_SRC_SEL_SRC : Fld := ⟨.flt, 0xF8400, 0, 8⟩
def FLT_REC_SEL_REC : Fld := ⟨.flt, 0xF8500, 0, 2⟩
def SEC_STATUS_LIFECYCLE : Fld := ⟨.sec, 0xE8000, 0, 3⟩
def SEC_STATUS_APPROVED : Fld := ⟨.sec, 0xE8000, 3, 1⟩
def SEC_STATUS_ST_DONE : Fld := ⟨.sec, 0xE8000, 4, 1⟩
def SEC_STATUS_HOST_ROLE : Fld := ⟨.sec, 0xE8000, 5, 2⟩
def SEC_STATUS_SB_ROLE : Fld := ⟨.sec, 0xE8000, 7, 2⟩
def SEC_STATUS_TAMPERED : Fld := ⟨.sec, 0xE8000, 9, 1⟩
def SEC_STATUS_CONF_IMAGES : Fld := ⟨.sec, 0xE8000, 10, 1⟩
def SEC_STATUS_LOCKOUT_HOST : Fld := ⟨.sec, 0xE8000, 11, 1⟩
def SEC_STATUS_LOCKOUT_SB : Fld := ⟨.sec, 0xE8000, 12, 1⟩
def SEC_POLICY_PERMIT : Fld := ⟨.sec, 0xE8004, 0, 5⟩
def SEC_AUTH_FAIL_COUNT : Fld := ⟨.sec, 0xE8010, 0, 16⟩
def SEC_ST_RESULT_FAILS : Fld := ⟨.sec, 0xE8014, 0, 12⟩
def SEC_DRBG_RESEEDS : Fld := ⟨.sec, 0xE8018, 0, 32⟩
def SEC_MR_SEL_REG : Fld := ⟨.sec, 0xE8020, 0, 3⟩
def SEC_MR_CNT_COUNT (i0 : Nat) : Fld := ⟨.sec, 0xE8060 + 0x4 * i0, 0, 32⟩
def SEC_SLOT_MAP_LOADED (i0 : Nat) : Fld := ⟨.sec, 0xE8080 + 0x4 * i0, 0, 32⟩
def SEC_SLOT_SEL_SLOT : Fld := ⟨.sec, 0xE8088, 0, 6⟩
def SEC_TAMPER_STAT_POWER : Fld := ⟨.sec, 0xE80A0, 4, 1⟩
def SEC_TAMPER_TICK_TICK : Fld := ⟨.sec, 0xE80A4, 0, 32⟩
def SEC_ARB_COUNT (i0 : Nat) : Fld := ⟨.sec, 0xE80C0 + 0x4 * i0, 0, 32⟩
def GLB_BOOT_STAT_STAGE : Fld := ⟨.glb, 0x100, 0, 2⟩
def GLB_BOOT_STAT_COPY : Fld := ⟨.glb, 0x100, 2, 1⟩
def GLB_BOOT_STAT_BOTH_VALID : Fld := ⟨.glb, 0x100, 3, 1⟩
def GLB_BOOT_STAT_TIMER_RESET : Fld := ⟨.glb, 0x100, 4, 1⟩
def GLB_BOOT_SEQ_SEQ : Fld := ⟨.glb, 0x104, 0, 32⟩
def GLB_BOOT_KIND_ACTIVE (i0 : Nat) : Fld := ⟨.glb, 0x110 + 0x4 * i0, 0, 1⟩
def GLB_BOOT_KIND_CONFIRMED (i0 : Nat) : Fld := ⟨.glb, 0x110 + 0x4 * i0, 1, 1⟩
def GLB_BOOT_KIND_TRIAL (i0 : Nat) : Fld := ⟨.glb, 0x110 + 0x4 * i0, 2, 2⟩
def GLB_BOOT_KIND_REVERTED (i0 : Nat) : Fld := ⟨.glb, 0x110 + 0x4 * i0, 4, 1⟩
def GLB_BOOT_KIND_FALLBACK (i0 : Nat) : Fld := ⟨.glb, 0x110 + 0x4 * i0, 5, 1⟩
def GLB_BOOT_KIND_ABSENT (i0 : Nat) : Fld := ⟨.glb, 0x110 + 0x4 * i0, 6, 1⟩
def GLB_BOOT_KIND_SVN (i0 : Nat) : Fld := ⟨.glb, 0x110 + 0x4 * i0, 16, 8⟩
def GLB_BOOT_CONFIRM_KIND : Fld := ⟨.glb, 0x120, 0, 4⟩
def GLB_BOOT_TIMER_SECONDS : Fld := ⟨.glb, 0x124, 0, 6⟩
def GLB_UPD_CMD_OP : Fld := ⟨.glb, 0x140, 1, 3⟩
def GLB_UPD_CMD_KIND : Fld := ⟨.glb, 0x140, 4, 2⟩
def GLB_UPD_CMD_CAL_ADVANCE : Fld := ⟨.glb, 0x140, 8, 1⟩
def GLB_UPD_SRC_LO_ADDR : Fld := ⟨.glb, 0x144, 0, 32⟩
def GLB_UPD_LEN_BYTES : Fld := ⟨.glb, 0x14C, 0, 24⟩
def GLB_UPD_STATUS_STATE : Fld := ⟨.glb, 0x150, 0, 3⟩
def GLB_UPD_STATUS_KIND : Fld := ⟨.glb, 0x150, 4, 2⟩
def GLB_UPD_STATUS_RESULT : Fld := ⟨.glb, 0x150, 8, 4⟩
def GLB_UPD_STATUS_DETAIL : Fld := ⟨.glb, 0x150, 16, 8⟩
def GLB_FW_BUILD_ID (i0 : Nat) : Fld := ⟨.glb, 0x10 + 0x4 * i0, 0, 32⟩

end Sys2Proof.Machine.F
end

