-- ==== Sys2Proof/Machine/RegTable.lean ====
section
/-! DEFINITION. The register tables of spec/02 to spec/24 and spec/26: for every register of the register window its
address (block base plus offset), the strides of its indices, and of each field the place, the width, the access code
(R7) and the reset value the table states; and whether it is the low word of a 64-bit pair (R5). A reset cell that is not a number ("Image", "Fuse", "Boot ROM",
"Understory", "Ledger") stands as 0 here: "Image" is the empty structure of R42; the others are given in
`resetOverride` or logged in notes/assumptions. -/

namespace Sys2Proof.Machine

def regTable_glb_0 : List RegDef := [
  ⟨0x0, [], [⟨0, 16, .ro, 0x8128⟩, ⟨16, 8, .ro, 0xa1⟩], false⟩,  -- GLB_ID
  ⟨0x4, [], [⟨0, 32, .ro, 0⟩], true⟩,  -- GLB_SERIAL_LO
  ⟨0x8, [], [⟨0, 32, .ro, 0⟩], false⟩,  -- GLB_SERIAL_HI
  ⟨0xC, [], [⟨0, 16, .ro, 1⟩], false⟩,  -- GLB_MAP_VER
  ⟨0x10, [(0x4, 4)], [⟨0, 32, .ro, 0⟩], false⟩,  -- GLB_FW_BUILD[i]
  ⟨0x100, [], [⟨0, 2, .ro, 0⟩, ⟨2, 1, .ro, 0⟩, ⟨3, 1, .ro, 0⟩, ⟨4, 1, .ro, 0⟩], false⟩,  -- GLB_BOOT_STAT
  ⟨0x104, [], [⟨0, 32, .ro, 0⟩], false⟩,  -- GLB_BOOT_SEQ
  ⟨0x110, [(0x4, 4)], [⟨0, 1, .ro, 0⟩, ⟨1, 1, .ro, 0⟩, ⟨2, 2, .ro, 0⟩, ⟨4, 1, .ro, 0⟩, ⟨5, 1, .ro, 0⟩, ⟨6, 1, .ro, 0⟩, ⟨16, 8, .ro, 0⟩], false⟩,  -- GLB_BOOT_KIND[k]
  ⟨0x120, [], [⟨0, 4, .w1s, 0⟩], false⟩,  -- GLB_BOOT_CONFIRM
  ⟨0x124, [], [⟨0, 6, .ro, 0⟩], false⟩,  -- GLB_BOOT_TIMER
  ⟨0x140, [], [⟨0, 1, .w1s, 0⟩, ⟨1, 3, .rw, 0⟩, ⟨4, 2, .rw, 0⟩, ⟨8, 1, .rw, 0⟩], false⟩,  -- GLB_UPD_CMD
  ⟨0x144, [], [⟨0, 32, .rw, 0⟩], true⟩,  -- GLB_UPD_SRC_LO
  ⟨0x148, [], [⟨0, 32, .rw, 0⟩], false⟩,  -- GLB_UPD_SRC_HI
  ⟨0x14C, [], [⟨0, 24, .rw, 0⟩], false⟩,  -- GLB_UPD_LEN
  ⟨0x150, [], [⟨0, 3, .ro, 0⟩, ⟨4, 2, .ro, 0⟩, ⟨8, 4, .ro, 0⟩, ⟨16, 8, .ro, 0⟩], false⟩,  -- GLB_UPD_STATUS
  ⟨0x154, [], [⟨0, 1, .w1c, 0⟩, ⟨1, 1, .w1c, 0⟩, ⟨2, 1, .w1c, 0⟩, ⟨3, 1, .w1c, 0⟩, ⟨4, 1, .w1c, 0⟩], false⟩,  -- GLB_UPD_EVENT
  ⟨0x158, [], [⟨0, 1, .rw, 0⟩, ⟨1, 1, .rw, 0⟩, ⟨2, 1, .rw, 0⟩, ⟨3, 1, .rw, 0⟩, ⟨4, 1, .rw, 0⟩], false⟩ ]  -- GLB_UPD_EVENT_EN

def regTable_glb : List RegDef := regTable_glb_0

def regTable_str_0 : List RegDef := [
  ⟨0x10000, [], [⟨0, 3, .ro, 0⟩, ⟨4, 2, .ro, 0⟩, ⟨8, 8, .ro, 0⟩, ⟨16, 1, .ro, 0⟩], false⟩,  -- STR_STATUS
  ⟨0x10004, [], [⟨0, 4, .ro, 0⟩, ⟨8, 20, .ro, 0⟩], false⟩,  -- STR_ERR_DETAIL
  ⟨0x10008, [], [⟨0, 32, .ro, 0⟩], false⟩,  -- STR_LOADS
  ⟨0x1000C, [], [⟨0, 32, .ro, 0⟩], false⟩,  -- STR_SVN
  ⟨0x10010, [(0x4, 4)], [⟨0, 32, .ro, 0⟩], false⟩,  -- STR_BUILD_ID[i]
  ⟨0x10020, [(0x4, 12)], [⟨0, 32, .ro, 0⟩], false⟩,  -- STR_DIGEST[i]
  ⟨0x10050, [], [⟨0, 1, .w1c, 0⟩, ⟨1, 1, .w1c, 0⟩, ⟨2, 1, .w1c, 0⟩, ⟨3, 1, .w1c, 0⟩], false⟩,  -- STR_EVENT
  ⟨0x10054, [], [⟨0, 1, .rw, 0⟩, ⟨1, 1, .rw, 0⟩, ⟨2, 1, .rw, 0⟩, ⟨3, 1, .rw, 0⟩], false⟩,  -- STR_EVENT_EN
  ⟨0x10058, [], [⟨0, 16, .rc, 0⟩], false⟩,  -- STR_CLIP_CNT
  ⟨0x1005C, [], [⟨0, 16, .rw, 0x2710⟩], false⟩,  -- STR_PARK_TIMEOUT
  ⟨0x10100, [(0x4, 32)], [⟨0, 1, .ro, 0⟩, ⟨1, 1, .ro, 0⟩, ⟨2, 1, .ro, 0⟩, ⟨3, 1, .ro, 0⟩, ⟨4, 2, .ro, 0⟩, ⟨8, 5, .ro, 0⟩, ⟨14, 1, .ro, 0⟩, ⟨16, 3, .ro, 0⟩, ⟨24, 8, .ro, 0⟩], false⟩,  -- STR_GROVE[g]
  ⟨0x10180, [(0x4, 8)], [⟨0, 32, .ro, 0⟩], false⟩,  -- STR_COPPICE_MAP[i]
  ⟨0x101A0, [(0x8, 5)], [⟨0, 12, .ro, 0⟩, ⟨16, 12, .ro, 0⟩, ⟨28, 2, .ro, 0⟩], false⟩,  -- STR_REGION[n]
  ⟨0x101A4, [(0x8, 5)], [⟨0, 32, .ro, 0⟩], false⟩,  -- STR_REGION_BANKS[n]
  ⟨0x101D0, [], [⟨0, 5, .ro, 0⟩], false⟩,  -- STR_SECOPT
  ⟨0x10200, [(0x4, 16)], [⟨0, 8, .ro, 0⟩, ⟨8, 2, .ro, 0⟩, ⟨16, 16, .ro, 0⟩], false⟩,  -- STR_DSC[d]
  ⟨0x10240, [(0x4, 8)], [⟨0, 5, .ro, 0⟩, ⟨8, 2, .ro, 0⟩, ⟨12, 3, .ro, 0⟩, ⟨15, 1, .ro, 0⟩, ⟨16, 8, .ro, 0⟩], false⟩,  -- STR_LINK[l]
  ⟨0x10260, [(0x4, 8)], [⟨0, 32, .ro, 0⟩], false⟩,  -- STR_LINK_ID[l]
  ⟨0x10280, [(0x4, 8)], [⟨0, 32, .ro, 0⟩], false⟩,  -- STR_TMU_MAP[i]
  ⟨0x102A0, [], [⟨0, 32, .ro, 0⟩], false⟩,  -- STR_TRG_MAP
  ⟨0x10300, [(0x4, 32)], [⟨0, 32, .ro, 0⟩], false⟩ ]  -- STR_PEIF[k]

def regTable_str : List RegDef := regTable_str_0

def regTable_fab_0 : List RegDef := [
  ⟨0x20000, [], [⟨0, 1, .rwl, 1⟩, ⟨8, 1, .w1s, 0⟩], false⟩,  -- FAB_CTRL
  ⟨0x20004, [], [⟨0, 3, .ro, 0⟩, ⟨4, 3, .ro, 0⟩, ⟨8, 2, .ro, 0⟩, ⟨12, 1, .ro, 0⟩, ⟨16, 6, .ro, 0⟩, ⟨22, 3, .ro, 0⟩], false⟩,  -- FAB_STATUS
  ⟨0x20008, [], [⟨0, 10, .ro, 0⟩, ⟨16, 10, .ro, 0x226⟩], false⟩,  -- FAB_VFAB
  ⟨0x2000C, [], [⟨0, 11, .ro, 0⟩, ⟨16, 11, .ro, 0x7d0⟩], false⟩,  -- FAB_GRANT
  ⟨0x20010, [], [⟨0, 11, .ro, 0⟩, ⟨16, 11, .ro, 0⟩], false⟩,  -- FAB_RESERVED
  ⟨0x20014, [], [⟨0, 5, .rwl, 8⟩], false⟩,  -- FAB_MARGIN
  ⟨0x20018, [], [⟨0, 16, .rw, 0x3e8⟩], false⟩,  -- FAB_HOLDOFF
  ⟨0x2001C, [], [⟨0, 1, .w1c, 0⟩, ⟨1, 1, .w1c, 0⟩, ⟨2, 1, .w1c, 0⟩, ⟨3, 1, .w1c, 0⟩, ⟨4, 1, .w1c, 0⟩], false⟩,  -- FAB_EVENT
  ⟨0x20020, [], [⟨0, 1, .rw, 0⟩, ⟨1, 1, .rw, 0⟩, ⟨2, 1, .rw, 0⟩, ⟨3, 1, .rw, 0⟩, ⟨4, 1, .rw, 0⟩], false⟩,  -- FAB_EVENT_EN
  ⟨0x20040, [(0x4, 8)], [⟨0, 10, .ro, 0⟩, ⟨10, 11, .ro, 0⟩, ⟨21, 11, .ro, 0⟩], false⟩,  -- FAB_OPP[n]
  ⟨0x20060, [(0x4, 8)], [⟨0, 16, .ro, 0⟩, ⟨16, 16, .rc, 0xffff⟩], false⟩,  -- FAB_RING[n]
  ⟨0x20400, [(0x20, 32)], [⟨0, 1, .ro, 0⟩, ⟨1, 1, .ro, 0⟩, ⟨8, 6, .rw, 0x18⟩, ⟨16, 6, .rw, 8⟩], false⟩,  -- FAB_URUN_CFG[g]
  ⟨0x20404, [(0x20, 32)], [⟨0, 32, .rw, 0⟩], false⟩,  -- FAB_VOID_LIMIT[g]
  ⟨0x20408, [(0x20, 32)], [⟨0, 12, .ro, 0⟩, ⟨16, 12, .ro, 0⟩], false⟩,  -- FAB_FILL[g]
  ⟨0x2040C, [(0x20, 32)], [⟨0, 1, .w1c, 0⟩, ⟨1, 3, .ro, 0⟩, ⟨16, 16, .ro, 0⟩], false⟩,  -- FAB_URUN_STAT[g]
  ⟨0x20410, [(0x20, 32)], [⟨0, 32, .ro, 0⟩], true⟩,  -- FAB_VOID_CNT_LO[g]
  ⟨0x20414, [(0x20, 32)], [⟨0, 32, .ro, 0⟩], false⟩,  -- FAB_VOID_CNT_HI[g]
  ⟨0x20418, [(0x20, 32)], [⟨0, 11, .ro, 0⟩, ⟨16, 1, .ro, 0⟩], false⟩ ]  -- FAB_DEMAND_MEAS[g]

def regTable_fab : List RegDef := regTable_fab_0

def regTable_fst_0 : List RegDef := [
  ⟨0x30000, [], [⟨0, 1, .rw, 1⟩, ⟨1, 1, .rw, 1⟩], false⟩,  -- FOR_CTRL
  ⟨0x30004, [], [⟨0, 3, .ro, 0⟩, ⟨4, 1, .ro, 0⟩, ⟨16, 16, .ro, 0⟩], false⟩,  -- FOR_STATUS
  ⟨0x30008, [], [⟨0, 16, .rw, 0x10⟩, ⟨16, 8, .rw, 4⟩, ⟨24, 4, .rw, 3⟩], false⟩,  -- FOR_POLICY
  ⟨0x3000C, [], [⟨0, 6, .rw, 8⟩], false⟩,  -- FOR_MOVE_BW
  ⟨0x30010, [(0x4, 3)], [⟨0, 12, .ro, 0⟩, ⟨16, 12, .ro, 0⟩], false⟩,  -- FOR_TIER_LOAD[x]
  ⟨0x30020, [], [⟨0, 1, .w1c, 0⟩, ⟨1, 1, .w1c, 0⟩, ⟨2, 1, .w1c, 0⟩, ⟨3, 1, .w1c, 0⟩, ⟨4, 1, .w1c, 0⟩, ⟨5, 1, .w1c, 0⟩, ⟨6, 1, .w1c, 0⟩, ⟨7, 1, .w1c, 0⟩], false⟩,  -- FOR_EVENT
  ⟨0x30024, [], [⟨0, 1, .rw, 0⟩, ⟨1, 1, .rw, 0⟩, ⟨2, 1, .rw, 0⟩, ⟨3, 1, .rw, 0⟩, ⟨4, 1, .rw, 0⟩, ⟨5, 1, .rw, 0⟩, ⟨6, 1, .rw, 0⟩, ⟨7, 1, .rw, 0⟩], false⟩,  -- FOR_EVENT_EN
  ⟨0x30028, [], [⟨0, 16, .rc, 0⟩], false⟩,  -- FOR_STALE_CNT
  ⟨0x3002C, [], [⟨0, 16, .rc, 0⟩], false⟩,  -- FOR_CODE_BUSY_CNT
  ⟨0x30030, [], [⟨0, 16, .wo, 0⟩], false⟩,  -- FOR_QUERY
  ⟨0x30034, [], [⟨0, 8, .ro, 0⟩, ⟨8, 8, .ro, 0⟩, ⟨16, 16, .ro, 0⟩], false⟩,  -- FOR_QUERY_RES
  ⟨0x30038, [], [⟨0, 32, .ro, 0⟩], false⟩,  -- FOR_QUERY_HEAT
  ⟨0x3003C, [], [⟨0, 6, .rw, 0x20⟩], false⟩,  -- FOR_SDRAM_SPLIT
  ⟨0x30040, [(0x4, 5)], [⟨0, 12, .ro, 0⟩, ⟨16, 12, .ro, 0⟩], false⟩,  -- FOR_REGION_USE[n]
  ⟨0x30080, [(0x4, 32)], [⟨0, 10, .ro, 0⟩, ⟨16, 7, .ro, 0x40⟩], false⟩,  -- FOR_BANK_LOAD[b]
  ⟨0x30100, [(0x8, 32)], [⟨0, 1, .ro, 0⟩, ⟨16, 16, .ro, 0⟩], false⟩,  -- FOR_CAP_LOC[g]
  ⟨0x30104, [(0x8, 32)], [⟨0, 32, .ro, 0⟩], false⟩,  -- FOR_CAP_SIZE[g]
  ⟨0x30200, [(0x4, 8)], [⟨0, 1, .w1s, 0⟩, ⟨1, 1, .ro, 0⟩, ⟨16, 16, .ro, 0⟩], false⟩ ]  -- FOR_PARK[c]

def regTable_fst : List RegDef := regTable_fst_0

def regTable_seq_0 : List RegDef := [
  ⟨0x40000, [(0x800, 32)], [⟨0, 6, .rw, 4⟩], false⟩,  -- SEQ_CFG[t]
  ⟨0x40004, [(0x800, 32)], [⟨0, 3, .ro, 0⟩, ⟨4, 1, .ro, 0⟩, ⟨8, 5, .ro, 0⟩, ⟨16, 4, .ro, 0⟩, ⟨24, 5, .ro, 0⟩], false⟩,  -- SEQ_STATUS[t]
  ⟨0x40008, [(0x800, 32)], [⟨0, 24, .ro, 0⟩], false⟩,  -- SEQ_PC[t]
  ⟨0x4000C, [(0x800, 32)], [⟨0, 16, .ro, 0⟩, ⟨16, 8, .ro, 0⟩], false⟩,  -- SEQ_SEG[t]
  ⟨0x40010, [(0x800, 32)], [⟨0, 32, .ro, 0⟩], true⟩,  -- SEQ_CYCLE_LO[t]
  ⟨0x40014, [(0x800, 32)], [⟨0, 32, .ro, 0⟩], false⟩,  -- SEQ_CYCLE_HI[t]
  ⟨0x40018, [(0x800, 32)], [⟨0, 32, .ro, 0⟩], true⟩,  -- SEQ_LINE_LO[t]
  ⟨0x4001C, [(0x800, 32)], [⟨0, 32, .ro, 0⟩], false⟩,  -- SEQ_LINE_HI[t]
  ⟨0x40020, [(0x800, 32)], [⟨0, 4, .ro, 0⟩, ⟨8, 16, .ro, 0⟩, ⟨24, 8, .ro, 0⟩], false⟩,  -- SEQ_ERR[t]
  ⟨0x40024, [(0x800, 32)], [⟨0, 24, .ro, 0⟩], false⟩,  -- SEQ_ERR_LOC[t]
  ⟨0x40028, [(0x800, 32)], [⟨0, 1, .w1c, 0⟩, ⟨1, 1, .w1c, 0⟩, ⟨2, 1, .w1c, 0⟩, ⟨3, 1, .w1c, 0⟩, ⟨4, 1, .w1c, 0⟩, ⟨5, 1, .w1c, 0⟩], false⟩,  -- SEQ_EVENT[t]
  ⟨0x4002C, [(0x800, 32)], [⟨0, 1, .rw, 0⟩, ⟨1, 1, .rw, 0⟩, ⟨2, 1, .rw, 0⟩, ⟨3, 1, .rw, 0⟩, ⟨4, 1, .rw, 0⟩, ⟨5, 1, .rw, 0⟩], false⟩,  -- SEQ_EVENT_EN[t]
  ⟨0x40030, [(0x800, 32)], [⟨0, 16, .rc, 0⟩], false⟩,  -- SEQ_LATE_CNT[t]
  ⟨0x40034, [(0x800, 32)], [⟨0, 32, .ro, 0⟩], false⟩,  -- SEQ_MATCHED[t]
  ⟨0x40038, [(0x800, 32)], [⟨0, 32, .ro, 0⟩], false⟩,  -- SEQ_DETACHED[t]
  ⟨0x40040, [(0x800, 32)], [⟨0, 16, .ro, 0⟩, ⟨16, 16, .ro, 0⟩], false⟩,  -- SEQ_SIG_CNT[t]
  ⟨0x40044, [(0x800, 32)], [⟨0, 16, .ro, 0⟩, ⟨16, 8, .ro, 0⟩], false⟩,  -- SEQ_SIG_LOC[t]
  ⟨0x40048, [(0x800, 32)], [⟨0, 28, .ro, 0⟩], false⟩,  -- SEQ_SIG_START[t]
  ⟨0x40100, [(0x800, 32), (0x4, 16)], [⟨0, 32, .ro, 0⟩], false⟩,  -- SEQ_PASS[t][i]
  ⟨0x50000, [], [⟨0, 2, .rwl, 0⟩, ⟨8, 24, .rwl, 0⟩], false⟩,  -- SEQ_SYNC_CFG
  ⟨0x50004, [], [⟨0, 32, .ro, 0⟩], false⟩,  -- SEQ_SLOT
  ⟨0x50008, [], [⟨0, 32, .ro, 0⟩], false⟩,  -- SEQ_EPOCH_CNT
  ⟨0x5000C, [], [⟨0, 1, .w1c, 0⟩, ⟨1, 1, .w1c, 0⟩], false⟩,  -- SEQ_GEVENT
  ⟨0x50010, [], [⟨0, 1, .rw, 0⟩, ⟨1, 1, .rw, 0⟩], false⟩ ]  -- SEQ_GEVENT_EN

def regTable_seq_1 : List RegDef := [
  ⟨0x50014, [], [⟨0, 16, .rw, 0x12c⟩], false⟩,  -- SEQ_START_LEAD
  ⟨0x50040, [(0x4, 8)], [⟨0, 3, .rw, 0⟩, ⟨3, 1, .rw, 0⟩, ⟨4, 5, .rw, 0⟩, ⟨9, 2, .rw, 0⟩, ⟨16, 8, .rw, 0x20⟩], false⟩,  -- SEQ_TOUT_SEL[n]
  ⟨0x50060, [(0x4, 8)], [⟨0, 16, .rw, 0⟩], false⟩ ]  -- SEQ_TOUT_SEG[n]

def regTable_seq : List RegDef := regTable_seq_0 ++ regTable_seq_1

def regTable_cap_0 : List RegDef := [
  ⟨0x60000, [], [⟨0, 1, .w1c, 0⟩, ⟨1, 1, .w1c, 0⟩, ⟨2, 1, .w1c, 0⟩, ⟨3, 1, .w1c, 0⟩, ⟨4, 1, .w1c, 0⟩, ⟨5, 1, .w1c, 0⟩, ⟨6, 1, .w1c, 0⟩], false⟩,  -- CAP_EVENT
  ⟨0x60004, [], [⟨0, 1, .rw, 0⟩, ⟨1, 1, .rw, 0⟩, ⟨2, 1, .rw, 0⟩, ⟨3, 1, .rw, 0⟩, ⟨4, 1, .rw, 0⟩, ⟨5, 1, .rw, 0⟩, ⟨6, 1, .rw, 0⟩], false⟩,  -- CAP_EVENT_EN
  ⟨0x60008, [], [⟨0, 16, .rc, 0⟩], false⟩,  -- CAP_DROP_CNT
  ⟨0x60010, [], [⟨0, 1, .w1s, 0⟩, ⟨1, 1, .rw, 0⟩, ⟨2, 1, .rw, 0⟩, ⟨8, 5, .rw, 0⟩, ⟨16, 16, .rw, 0⟩], false⟩,  -- CAP_SNAP_CMD
  ⟨0x60014, [], [⟨0, 32, .rw, 0⟩], true⟩,  -- CAP_SNAP_POINT_LO
  ⟨0x60018, [], [⟨0, 32, .rw, 0⟩], false⟩,  -- CAP_SNAP_POINT_HI
  ⟨0x6001C, [], [⟨0, 3, .ro, 0⟩, ⟨4, 3, .ro, 0⟩, ⟨16, 16, .ro, 0⟩], false⟩,  -- CAP_SNAP_STAT
  ⟨0x60040, [(0x4, 4)], [⟨0, 32, .rw, 0⟩], false⟩,  -- CAP_CHMASK[i]
  ⟨0x60400, [(0x40, 32)], [⟨0, 3, .rw, 1⟩, ⟨3, 1, .rw, 0⟩, ⟨4, 1, .rw, 0⟩, ⟨5, 1, .rw, 0⟩, ⟨6, 1, .rw, 0⟩, ⟨8, 5, .rw, 0xa⟩, ⟨16, 16, .rw, 0x40⟩], false⟩,  -- CAP_CFG[g]
  ⟨0x60404, [(0x40, 32)], [⟨0, 16, .rw, 1⟩], false⟩,  -- CAP_VCAP_CFG[g]
  ⟨0x60408, [(0x40, 32)], [⟨0, 1, .w1c, 0⟩, ⟨1, 1, .w1c, 0⟩, ⟨2, 1, .w1c, 0⟩, ⟨3, 1, .w1c, 0⟩], false⟩,  -- CAP_G_STAT[g]
  ⟨0x6040C, [(0x40, 32)], [⟨0, 16, .ro, 0⟩, ⟨16, 16, .ro, 0⟩], false⟩,  -- CAP_G_LOST[g]
  ⟨0x60410, [(0x40, 32)], [⟨0, 32, .ro, 0⟩], true⟩,  -- CAP_G_JUDGED_LO[g]
  ⟨0x60414, [(0x40, 32)], [⟨0, 32, .ro, 0⟩], false⟩,  -- CAP_G_JUDGED_HI[g]
  ⟨0x60418, [(0x40, 32)], [⟨0, 32, .ro, 0⟩], true⟩,  -- CAP_G_FAILCYC_LO[g]
  ⟨0x6041C, [(0x40, 32)], [⟨0, 32, .ro, 0⟩], false⟩,  -- CAP_G_FAILCYC_HI[g]
  ⟨0x60420, [(0x40, 32)], [⟨0, 32, .ro, 0⟩], true⟩,  -- CAP_G_FAILS_LO[g]
  ⟨0x60424, [(0x40, 32)], [⟨0, 32, .ro, 0⟩], false⟩,  -- CAP_G_FAILS_HI[g]
  ⟨0x60428, [(0x40, 32)], [⟨0, 32, .ro, 0⟩], true⟩,  -- CAP_FF_CYC_LO[g]
  ⟨0x6042C, [(0x40, 32)], [⟨0, 32, .ro, 0⟩], false⟩,  -- CAP_FF_CYC_HI[g]
  ⟨0x60430, [(0x40, 32)], [⟨0, 7, .ro, 0⟩, ⟨7, 1, .ro, 0⟩, ⟨8, 3, .ro, 0⟩, ⟨16, 5, .ro, 0⟩], false⟩,  -- CAP_FF_LOC[g]
  ⟨0x60434, [(0x40, 32)], [⟨0, 16, .ro, 0⟩, ⟨16, 8, .ro, 0⟩], false⟩,  -- CAP_FF_SEG[g]
  ⟨0x60438, [(0x40, 32)], [⟨0, 32, .ro, 0⟩], false⟩,  -- CAP_FF_LINE[g]
  ⟨0x60C00, [(0x4, 128)], [⟨0, 32, .ro, 0⟩], false⟩ ]  -- CAP_CH_FAIL[ch]

def regTable_cap_1 : List RegDef := [
  ⟨0x61000, [(0x800, 2), (0x40, 32)], [⟨0, 16, .ro, 0⟩, ⟨16, 3, .ro, 0⟩, ⟨19, 1, .ro, 0⟩], false⟩,  -- CAP_SH_ID[s][g]
  ⟨0x61004, [(0x800, 2), (0x40, 32)], [⟨0, 32, .ro, 0⟩], true⟩,  -- CAP_SH_CYCLE_LO[s][g]
  ⟨0x61008, [(0x800, 2), (0x40, 32)], [⟨0, 32, .ro, 0⟩], false⟩,  -- CAP_SH_CYCLE_HI[s][g]
  ⟨0x6100C, [(0x800, 2), (0x40, 32)], [⟨0, 32, .ro, 0⟩], true⟩,  -- CAP_SH_LINES_LO[s][g]
  ⟨0x61010, [(0x800, 2), (0x40, 32)], [⟨0, 32, .ro, 0⟩], false⟩,  -- CAP_SH_LINES_HI[s][g]
  ⟨0x61014, [(0x800, 2), (0x40, 32)], [⟨0, 32, .ro, 0⟩], true⟩,  -- CAP_SH_VOID_LO[s][g]
  ⟨0x61018, [(0x800, 2), (0x40, 32)], [⟨0, 32, .ro, 0⟩], false⟩,  -- CAP_SH_VOID_HI[s][g]
  ⟨0x6101C, [(0x800, 2), (0x40, 32)], [⟨0, 32, .ro, 0⟩], true⟩,  -- CAP_SH_JUDGED_LO[s][g]
  ⟨0x61020, [(0x800, 2), (0x40, 32)], [⟨0, 32, .ro, 0⟩], false⟩,  -- CAP_SH_JUDGED_HI[s][g]
  ⟨0x61024, [(0x800, 2), (0x40, 32)], [⟨0, 32, .ro, 0⟩], true⟩,  -- CAP_SH_FAILCYC_LO[s][g]
  ⟨0x61028, [(0x800, 2), (0x40, 32)], [⟨0, 32, .ro, 0⟩], false⟩,  -- CAP_SH_FAILCYC_HI[s][g]
  ⟨0x6102C, [(0x800, 2), (0x40, 32)], [⟨0, 32, .ro, 0⟩], true⟩,  -- CAP_SH_FAILS_LO[s][g]
  ⟨0x61030, [(0x800, 2), (0x40, 32)], [⟨0, 32, .ro, 0⟩], false⟩,  -- CAP_SH_FAILS_HI[s][g]
  ⟨0x62000, [(0x200, 2), (0x4, 128)], [⟨0, 32, .ro, 0⟩], false⟩ ]  -- CAP_SH_CH_FAIL[s][ch]

def regTable_cap : List RegDef := regTable_cap_0 ++ regTable_cap_1

def regTable_trg_0 : List RegDef := [
  ⟨0x70000, [(0x100, 4)], [⟨0, 1, .w1s, 0⟩, ⟨1, 1, .w1s, 0⟩, ⟨2, 1, .w1s, 0⟩, ⟨4, 2, .rw, 0⟩, ⟨6, 1, .rw, 0⟩, ⟨7, 1, .rw, 0⟩], false⟩,  -- TRG_CTRL[e]
  ⟨0x70004, [(0x100, 4)], [⟨0, 2, .rw, 0⟩, ⟨8, 5, .rw, 0⟩, ⟨16, 4, .rw, 0⟩, ⟨20, 1, .rw, 0⟩], false⟩,  -- TRG_SRC[e]
  ⟨0x70010, [(0x100, 4), (0x4, 4)], [⟨0, 32, .rw, 0⟩], false⟩,  -- TRG_VALUE[e][i]
  ⟨0x70020, [(0x100, 4), (0x4, 4)], [⟨0, 32, .rw, 0xffffffff⟩], false⟩,  -- TRG_DC[e][i]
  ⟨0x70030, [(0x100, 4)], [⟨0, 3, .rw, 0⟩, ⟨4, 2, .rw, 0⟩, ⟨8, 3, .rw, 0⟩, ⟨12, 3, .rw, 0⟩], false⟩,  -- TRG_QUAL[e]
  ⟨0x70034, [(0x100, 4)], [⟨0, 32, .rw, 0⟩], true⟩,  -- TRG_QTIME_LO[e]
  ⟨0x70038, [(0x100, 4)], [⟨0, 32, .rw, 0⟩], false⟩,  -- TRG_QTIME_HI[e]
  ⟨0x7003C, [(0x100, 4)], [⟨0, 24, .rw, 0⟩], false⟩,  -- TRG_DSC_LEVEL[e]
  ⟨0x70040, [(0x100, 4)], [⟨0, 16, .rw, 0⟩, ⟨16, 16, .rw, 0x100⟩], false⟩,  -- TRG_DEPTH[e]
  ⟨0x70044, [(0x100, 4)], [⟨0, 16, .rw, 8⟩, ⟨16, 7, .rw, 0⟩, ⟨23, 1, .rw, 0⟩], false⟩,  -- TRG_TIMING[e]
  ⟨0x70048, [(0x100, 4)], [⟨0, 25, .rw, 0x3e8⟩], false⟩,  -- TRG_TIMEOUT[e]
  ⟨0x7004C, [(0x100, 4)], [⟨0, 24, .rw, 0⟩], false⟩,  -- TRG_HOLDOFF[e]
  ⟨0x70050, [(0x100, 4)], [⟨0, 12, .rw, 1⟩, ⟨16, 16, .ro, 0⟩], false⟩,  -- TRG_STORE[e]
  ⟨0x70054, [(0x100, 4)], [⟨0, 1, .ro, 0⟩, ⟨16, 16, .ro, 0⟩], false⟩,  -- TRG_LOC[e]
  ⟨0x70058, [(0x100, 4)], [⟨0, 3, .ro, 0⟩, ⟨4, 12, .ro, 0⟩, ⟨16, 16, .rc, 0⟩], false⟩,  -- TRG_STATUS[e]
  ⟨0x7005C, [(0x100, 4)], [⟨0, 16, .wo, 0⟩], false⟩,  -- TRG_READ[e]
  ⟨0x70060, [(0x100, 4)], [⟨0, 32, .ro, 0⟩], true⟩,  -- TRG_LAST_LO[e]
  ⟨0x70064, [(0x100, 4)], [⟨0, 32, .ro, 0⟩], false⟩,  -- TRG_LAST_HI[e]
  ⟨0x70068, [(0x100, 4)], [⟨0, 14, .ro, 0⟩], false⟩,  -- TRG_LAST_FINE[e]
  ⟨0x7006C, [(0x100, 4)], [⟨0, 1, .w1c, 0⟩, ⟨1, 1, .w1c, 0⟩, ⟨2, 1, .w1c, 0⟩, ⟨3, 1, .w1c, 0⟩, ⟨4, 1, .w1c, 0⟩, ⟨5, 1, .w1c, 0⟩], false⟩,  -- TRG_EVENT[e]
  ⟨0x70070, [(0x100, 4)], [⟨0, 1, .rw, 0⟩, ⟨1, 1, .rw, 0⟩, ⟨2, 1, .rw, 0⟩, ⟨3, 1, .rw, 0⟩, ⟨4, 1, .rw, 0⟩, ⟨5, 1, .rw, 0⟩], false⟩,  -- TRG_EVENT_EN[e]
  ⟨0x70074, [(0x100, 4)], [⟨0, 32, .rc, 0⟩], false⟩ ]  -- TRG_LOST[e]

def regTable_trg : List RegDef := regTable_trg_0

def regTable_tmu_0 : List RegDef := [
  ⟨0x78000, [(0x80, 32)], [⟨0, 1, .w1s, 0⟩, ⟨1, 1, .w1s, 0⟩, ⟨2, 1, .w1s, 0⟩, ⟨4, 3, .rw, 0⟩, ⟨7, 1, .rw, 0⟩, ⟨8, 1, .rw, 0⟩, ⟨9, 1, .rw, 0⟩], false⟩,  -- TMU_CTRL[u]
  ⟨0x78004, [(0x80, 32)], [⟨0, 4, .rw, 0⟩, ⟨4, 2, .rw, 0⟩, ⟨8, 7, .rw, 0⟩, ⟨16, 3, .rw, 0⟩, ⟨24, 5, .rw, 0⟩], false⟩,  -- TMU_SRC[u]
  ⟨0x78008, [(0x80, 32)], [⟨0, 16, .rw, 1⟩], false⟩,  -- TMU_PRESCALE[u]
  ⟨0x7800C, [(0x80, 32)], [⟨0, 2, .rw, 0⟩, ⟨8, 5, .rw, 0⟩], false⟩,  -- TMU_GATE[u]
  ⟨0x78010, [(0x80, 32)], [⟨0, 24, .rw, 0x3e8⟩], false⟩,  -- TMU_GATE_US[u]
  ⟨0x78014, [(0x80, 32)], [⟨0, 21, .rw, 0x400⟩], false⟩,  -- TMU_GATE_CNT[u]
  ⟨0x78018, [(0x80, 32)], [⟨0, 32, .rw, 0⟩], true⟩,  -- TMU_GATE_T_LO[u]
  ⟨0x7801C, [(0x80, 32)], [⟨0, 32, .rw, 0⟩], false⟩,  -- TMU_GATE_T_HI[u]
  ⟨0x78020, [(0x80, 32)], [⟨0, 24, .rw, 0x140⟩], false⟩,  -- TMU_WINDOW[u]
  ⟨0x78024, [(0x80, 32)], [⟨0, 12, .rw, 1⟩], false⟩,  -- TMU_STORE[u]
  ⟨0x78028, [(0x80, 32)], [⟨0, 1, .ro, 0⟩, ⟨16, 16, .ro, 0⟩], false⟩,  -- TMU_LOC[u]
  ⟨0x7802C, [(0x80, 32)], [⟨0, 16, .wo, 0⟩], false⟩,  -- TMU_READ[u]
  ⟨0x78030, [(0x80, 32)], [⟨0, 3, .ro, 0⟩, ⟨3, 1, .ro, 0⟩, ⟨4, 1, .ro, 0⟩, ⟨5, 1, .ro, 0⟩, ⟨16, 16, .ro, 0⟩], false⟩,  -- TMU_STATUS[u]
  ⟨0x78034, [(0x80, 32)], [⟨0, 1, .w1c, 0⟩, ⟨1, 1, .w1c, 0⟩, ⟨2, 1, .w1c, 0⟩, ⟨3, 1, .w1c, 0⟩, ⟨4, 1, .w1c, 0⟩, ⟨5, 1, .w1c, 0⟩], false⟩,  -- TMU_EVENT[u]
  ⟨0x78038, [(0x80, 32)], [⟨0, 1, .rw, 0⟩, ⟨1, 1, .rw, 0⟩, ⟨2, 1, .rw, 0⟩, ⟨3, 1, .rw, 0⟩, ⟨4, 1, .rw, 0⟩, ⟨5, 1, .rw, 0⟩], false⟩,  -- TMU_EVENT_EN[u]
  ⟨0x7803C, [(0x80, 32)], [⟨0, 32, .rc, 0⟩], false⟩,  -- TMU_LOST[u]
  ⟨0x78040, [(0x80, 32)], [⟨0, 32, .rc, 0⟩], false⟩,  -- TMU_MISSED[u]
  ⟨0x78044, [(0x80, 32)], [⟨0, 21, .ro, 0⟩, ⟨24, 1, .ro, 0⟩, ⟨25, 1, .ro, 0⟩, ⟨26, 1, .ro, 0⟩, ⟨27, 1, .ro, 0⟩], false⟩,  -- TMU_RES_COUNT[u]
  ⟨0x78048, [(0x80, 32)], [⟨0, 32, .ro, 0⟩], true⟩,  -- TMU_RES_MEAN_LO[u]
  ⟨0x7804C, [(0x80, 32)], [⟨0, 32, .ro, 0⟩], false⟩,  -- TMU_RES_MEAN_HI[u]
  ⟨0x78050, [(0x80, 32)], [⟨0, 32, .ro, 0⟩], true⟩,  -- TMU_RES_SDEV_LO[u]
  ⟨0x78054, [(0x80, 32)], [⟨0, 32, .ro, 0⟩], false⟩,  -- TMU_RES_SDEV_HI[u]
  ⟨0x78058, [(0x80, 32)], [⟨0, 32, .ro, 0⟩], true⟩,  -- TMU_RES_MIN_LO[u]
  ⟨0x7805C, [(0x80, 32)], [⟨0, 32, .ro, 0⟩], false⟩ ]  -- TMU_RES_MIN_HI[u]

def regTable_tmu_1 : List RegDef := [
  ⟨0x78060, [(0x80, 32)], [⟨0, 32, .ro, 0⟩], true⟩,  -- TMU_RES_MAX_LO[u]
  ⟨0x78064, [(0x80, 32)], [⟨0, 32, .ro, 0⟩], false⟩,  -- TMU_RES_MAX_HI[u]
  ⟨0x78068, [(0x80, 32)], [⟨0, 32, .ro, 0⟩], true⟩,  -- TMU_RES_FREQ_LO[u]
  ⟨0x7806C, [(0x80, 32)], [⟨0, 32, .ro, 0⟩], false⟩,  -- TMU_RES_FREQ_HI[u]
  ⟨0x78070, [(0x80, 32)], [⟨0, 21, .ro, 0⟩], false⟩,  -- TMU_RES_UNMATCHED[u]
  ⟨0x78074, [(0x80, 32)], [⟨0, 16, .ro, 0⟩], false⟩,  -- TMU_CAL_TEMP[u]
  ⟨0x7C000, [], [⟨0, 1, .rw, 1⟩], false⟩,  -- TMU_GCTRL
  ⟨0x7C004, [], [⟨0, 1, .ro, 0⟩, ⟨16, 4, .ro, 0⟩], false⟩,  -- TMU_GSTATUS
  ⟨0x7C008, [], [⟨0, 6, .rw, 0⟩, ⟨16, 12, .rw, 0⟩], false⟩,  -- TMU_BIN_SEL
  ⟨0x7C00C, [], [⟨0, 16, .ro, 0⟩, ⟨16, 12, .ro, 0⟩], false⟩,  -- TMU_BIN_DATA
  ⟨0x7C010, [], [⟨0, 1, .w1c, 0⟩, ⟨1, 1, .w1c, 0⟩], false⟩,  -- TMU_GEVENT
  ⟨0x7C014, [], [⟨0, 1, .rw, 0⟩, ⟨1, 1, .rw, 0⟩], false⟩,  -- TMU_GEVENT_EN
  ⟨0x7C020, [(0x4, 4)], [⟨0, 16, .ro, 0⟩], false⟩ ]  -- TMU_TRG_CAL_TEMP[e]

def regTable_tmu : List RegDef := regTable_tmu_0 ++ regTable_tmu_1

def regTable_dsc_0 : List RegDef := [
  ⟨0x90000, [(0x800, 16)], [⟨0, 3, .rw, 0⟩, ⟨3, 1, .w1s, 0⟩, ⟨4, 1, .rw, 0⟩], false⟩,  -- DSC_CTRL[d]
  ⟨0x90004, [(0x800, 16)], [⟨0, 3, .ro, 0⟩, ⟨3, 1, .ro, 0⟩, ⟨4, 3, .ro, 0⟩, ⟨8, 3, .ro, 0⟩, ⟨16, 12, .ro, 0⟩], false⟩,  -- DSC_STATUS[d]
  ⟨0x90008, [(0x800, 16)], [⟨0, 23, .rw, 0⟩], false⟩,  -- DSC_VSET[d]
  ⟨0x9000C, [(0x800, 16)], [⟨0, 24, .rw, 0⟩], false⟩,  -- DSC_ISET[d]
  ⟨0x90010, [(0x800, 16)], [⟨0, 24, .rw, 0⟩], false⟩,  -- DSC_ILIM[d]
  ⟨0x90014, [(0x800, 16)], [⟨0, 23, .rw, 0⟩], false⟩,  -- DSC_VCLAMP[d]
  ⟨0x90018, [(0x800, 16)], [⟨0, 20, .rw, 0x3e8⟩], false⟩,  -- DSC_SLOPE[d]
  ⟨0x9001C, [(0x800, 16)], [⟨0, 16, .rw, 0⟩, ⟨16, 16, .rw, 0xf000⟩], false⟩,  -- DSC_DLIM[d]
  ⟨0x90020, [(0x800, 16)], [⟨0, 16, .rw, 0⟩], false⟩,  -- DSC_PRELOAD[d]
  ⟨0x90024, [(0x800, 16)], [⟨0, 1, .rw, 0⟩, ⟨1, 1, .rw, 0⟩], false⟩,  -- DSC_CFG[d]
  ⟨0x90028, [(0x800, 16)], [⟨0, 13, .ro, 0⟩], false⟩,  -- DSC_IMAX[d]
  ⟨0x9002C, [(0x800, 16)], [⟨0, 10, .ro, 0⟩, ⟨16, 12, .ro, 0⟩], false⟩,  -- DSC_IMG[d]
  ⟨0x90030, [(0x800, 16)], [⟨0, 24, .ro, 0⟩], false⟩,  -- DSC_VMEAS[d]
  ⟨0x90034, [(0x800, 16)], [⟨0, 24, .ro, 0⟩, ⟨24, 1, .ro, 0⟩], false⟩,  -- DSC_IMEAS[d]
  ⟨0x90038, [(0x800, 16)], [⟨0, 16, .ro, 0⟩, ⟨16, 16, .ro, 0⟩], false⟩,  -- DSC_DUTY[d]
  ⟨0x9003C, [(0x800, 16)], [⟨0, 1, .w1c, 0⟩, ⟨1, 1, .w1c, 0⟩, ⟨2, 1, .w1c, 0⟩, ⟨3, 1, .w1c, 0⟩, ⟨4, 1, .w1c, 0⟩, ⟨5, 1, .w1c, 0⟩, ⟨6, 1, .w1c, 0⟩, ⟨7, 1, .w1c, 0⟩, ⟨8, 1, .w1c, 0⟩, ⟨9, 1, .w1c, 0⟩, ⟨10, 1, .w1c, 0⟩], false⟩,  -- DSC_EVENT[d]
  ⟨0x90040, [(0x800, 16)], [⟨0, 1, .rw, 0⟩, ⟨1, 1, .rw, 0⟩, ⟨2, 1, .rw, 0⟩, ⟨3, 1, .rw, 0⟩, ⟨4, 1, .rw, 0⟩, ⟨5, 1, .rw, 0⟩, ⟨6, 1, .rw, 0⟩, ⟨7, 1, .rw, 0⟩, ⟨8, 1, .rw, 0⟩, ⟨9, 1, .rw, 0⟩, ⟨10, 1, .rw, 0⟩], false⟩,  -- DSC_EVENT_EN[d]
  ⟨0x90044, [(0x800, 16)], [⟨0, 16, .rc, 0⟩], false⟩,  -- DSC_LATE_CNT[d]
  ⟨0x90048, [(0x800, 16)], [⟨0, 16, .rc, 0⟩, ⟨16, 16, .rc, 0⟩], false⟩,  -- DSC_RC_CNT[d]
  ⟨0x90080, [(0x800, 16), (0x4, 14)], [⟨0, 18, .rw, 0⟩, ⟨18, 6, .rw, 0⟩, ⟨31, 1, .ro, 0⟩], false⟩,  -- DSC_COEF[d][c]
  ⟨0x900C0, [(0x800, 16), (0x4, 14)], [⟨0, 18, .ro, 0⟩, ⟨18, 6, .ro, 0⟩, ⟨31, 1, .ro, 0⟩], false⟩,  -- DSC_COEF_ACT[d][c]
  ⟨0x90100, [(0x800, 16)], [⟨0, 6, .rw, 0⟩], false⟩,  -- DSC_RC_CFG[d]
  ⟨0x90104, [(0x800, 16)], [⟨0, 1, .rw, 0⟩, ⟨1, 1, .rw, 0⟩, ⟨2, 2, .rw, 0⟩, ⟨4, 4, .rw, 4⟩, ⟨8, 8, .rw, 0x40⟩], false⟩,  -- DSC_AT_CFG[d]
  ⟨0x90108, [(0x800, 16)], [⟨0, 3, .ro, 0⟩, ⟨8, 8, .ro, 0⟩], false⟩ ]  -- DSC_AT_STATUS[d]

def regTable_dsc_1 : List RegDef := [
  ⟨0x9010C, [(0x800, 16)], [⟨0, 16, .ro, 0⟩], false⟩,  -- DSC_AT_TU[d]
  ⟨0x90110, [(0x800, 16)], [⟨0, 18, .ro, 0⟩, ⟨18, 6, .ro, 0⟩], false⟩,  -- DSC_AT_KU[d]
  ⟨0x90114, [(0x800, 16), (0x4, 3)], [⟨0, 18, .ro, 0⟩, ⟨18, 6, .ro, 0⟩], false⟩,  -- DSC_AT_PROP[d][i]
  ⟨0x90140, [(0x800, 16), (0x10, 4)], [⟨0, 16, .rw, 0⟩, ⟨16, 8, .rw, 0⟩, ⟨24, 1, .rw, 0⟩], false⟩,  -- DSC_RC_BIND[d][p]
  ⟨0x90144, [(0x800, 16), (0x10, 4)], [⟨0, 24, .rw, 0⟩], false⟩,  -- DSC_RC_WORD[d][p]
  ⟨0x90148, [(0x800, 16), (0x10, 4)], [⟨0, 13, .rw, 0⟩], false⟩,  -- DSC_RC_LEN[d][p]
  ⟨0x9014C, [(0x800, 16), (0x10, 4)], [⟨0, 3, .ro, 0⟩, ⟨4, 13, .ro, 0⟩, ⟨24, 8, .ro, 0⟩], false⟩,  -- DSC_RC_STAT[d][p]
  ⟨0x98000, [], [⟨0, 4, .rw, 0⟩, ⟨4, 2, .rw, 0⟩, ⟨16, 12, .rw, 0⟩], false⟩,  -- DSC_RC_RSEL
  ⟨0x98004, [], [⟨0, 18, .ro, 0⟩, ⟨18, 6, .ro, 0⟩], false⟩,  -- DSC_RC_RDATA
  ⟨0x99000, [(0x20, 16)], [⟨0, 4, .rw, 0⟩, ⟨4, 5, .rw, 0⟩, ⟨9, 3, .rw, 0⟩, ⟨12, 2, .rw, 0⟩, ⟨14, 1, .rw, 0⟩, ⟨16, 8, .rw, 1⟩], false⟩,  -- TRC_CFG[b]
  ⟨0x99004, [(0x20, 16)], [⟨0, 17, .rw, 0x10000⟩], false⟩,  -- TRC_LEN[b]
  ⟨0x99008, [(0x20, 16)], [⟨0, 1, .rw, 0⟩], false⟩,  -- TRC_CTRL[b]
  ⟨0x9900C, [(0x20, 16)], [⟨0, 2, .ro, 0⟩, ⟨16, 16, .rc, 0⟩], false⟩,  -- TRC_STATUS[b]
  ⟨0x99010, [(0x20, 16)], [⟨16, 16, .ro, 0⟩], false⟩,  -- TRC_LOC[b]
  ⟨0x99014, [(0x20, 16)], [⟨0, 17, .ro, 0⟩], false⟩ ]  -- TRC_COUNT[b]

def regTable_dsc : List RegDef := regTable_dsc_0 ++ regTable_dsc_1

def regTable_cmp_0 : List RegDef := [
  ⟨0xA0000, [(0x100, 16)], [⟨0, 24, .rw, 0x7d0⟩], false⟩,  -- CMP_RSHUNT[d]
  ⟨0xA0004, [(0x100, 16)], [⟨0, 24, .rw, 0⟩], false⟩,  -- CMP_IPK[d]
  ⟨0xA0008, [(0x100, 16)], [⟨0, 20, .rw, 0⟩], false⟩,  -- CMP_SLOPE[d]
  ⟨0xA000C, [(0x100, 16)], [⟨0, 10, .rw, 0x100⟩], false⟩,  -- CMP_BLANK[d]
  ⟨0xA0010, [(0x100, 16)], [⟨0, 23, .rw, 0⟩], false⟩,  -- CMP_WIN_HI[d]
  ⟨0xA0014, [(0x100, 16)], [⟨0, 23, .rw, 0⟩], false⟩,  -- CMP_WIN_LO[d]
  ⟨0xA0018, [(0x100, 16)], [⟨0, 23, .rw, 0⟩], false⟩,  -- CMP_OVP[d]
  ⟨0xA001C, [(0x100, 16)], [⟨0, 8, .rw, 8⟩], false⟩,  -- CMP_OC_CFG[d]
  ⟨0xA0020, [(0x100, 16)], [⟨0, 1, .ro, 0⟩, ⟨1, 1, .ro, 0⟩, ⟨2, 1, .ro, 0⟩, ⟨3, 1, .ro, 0⟩, ⟨4, 1, .ro, 0⟩, ⟨5, 1, .ro, 0⟩], false⟩,  -- CMP_LEVEL[d]
  ⟨0xA0024, [(0x100, 16)], [⟨0, 14, .ro, 0⟩, ⟨14, 1, .ro, 0⟩], false⟩,  -- CMP_RAW_V[d]
  ⟨0xA0028, [(0x100, 16)], [⟨0, 14, .ro, 0⟩, ⟨14, 1, .ro, 0⟩, ⟨16, 14, .ro, 0⟩], false⟩,  -- CMP_RAW_I[d]
  ⟨0xA002C, [(0x100, 16)], [⟨0, 1, .ro, 0⟩, ⟨16, 16, .ro, 0⟩], false⟩,  -- CMP_RANGE[d]
  ⟨0xA0030, [(0x100, 16)], [⟨0, 16, .ro, 0⟩, ⟨16, 16, .ro, 0⟩], false⟩,  -- CMP_TRIPS[d]
  ⟨0xA0034, [(0x100, 16)], [⟨0, 1, .w1s, 0⟩], false⟩,  -- CMP_ST_CTRL[d]
  ⟨0xA0038, [(0x100, 16)], [⟨0, 2, .ro, 0⟩, ⟨2, 1, .ro, 0⟩, ⟨4, 4, .ro, 0⟩], false⟩,  -- CMP_ST_RESULT[d]
  ⟨0xA003C, [(0x100, 16)], [⟨0, 1, .w1c, 0⟩, ⟨1, 1, .w1c, 0⟩, ⟨2, 1, .w1c, 0⟩, ⟨3, 1, .w1c, 0⟩, ⟨4, 1, .w1c, 0⟩], false⟩,  -- CMP_EVENT[d]
  ⟨0xA0040, [(0x100, 16)], [⟨0, 1, .rw, 0⟩, ⟨1, 1, .rw, 0⟩, ⟨2, 1, .rw, 0⟩, ⟨3, 1, .rw, 0⟩, ⟨4, 1, .rw, 0⟩], false⟩,  -- CMP_EVENT_EN[d]
  ⟨0xA1000, [], [⟨0, 1, .rw, 0⟩], false⟩,  -- CMP_RESID_CFG
  ⟨0xA1004, [], [⟨0, 16, .w1c, 0⟩], false⟩,  -- CMP_RESID_STAT
  ⟨0xA1040, [(0x4, 16)], [⟨0, 32, .ro, 0⟩], false⟩,  -- CMP_RESID_TICK[d]
  ⟨0xA2000, [(0x40, 16)], [⟨0, 10, .rw, 0x80⟩, ⟨16, 10, .rw, 0x80⟩], false⟩,  -- PGN_DT[d]
  ⟨0xA2004, [(0x40, 16)], [⟨0, 12, .rw, 0x40⟩, ⟨16, 12, .rw, 0x108⟩], false⟩,  -- PGN_LIM[d]
  ⟨0xA2008, [(0x40, 16)], [⟨0, 15, .rw, 0⟩, ⟨16, 15, .rw, 0⟩], false⟩,  -- PGN_PHASE[d]
  ⟨0xA200C, [(0x40, 16)], [⟨0, 15, .ro, 0⟩, ⟨15, 1, .ro, 0⟩, ⟨16, 15, .ro, 0⟩], false⟩ ]  -- PGN_STATUS[d]

def regTable_cmp : List RegDef := regTable_cmp_0

def regTable_sch_0 : List RegDef := [
  ⟨0xB0000, [(0x100, 8)], [⟨0, 20, .ro, 0⟩, ⟨20, 10, .ro, 0⟩], true⟩,  -- SCH_TAKE_LO[c]
  ⟨0xB0004, [(0x100, 8)], [⟨0, 32, .ro, 0⟩], false⟩,  -- SCH_TAKE_HI[c]
  ⟨0xB0008, [(0x100, 8)], [⟨0, 20, .wo, 0⟩], false⟩,  -- SCH_DONE[c]
  ⟨0xB000C, [(0x100, 8)], [⟨0, 2, .ro, 0⟩, ⟨2, 1, .ro, 0⟩, ⟨12, 10, .ro, 0⟩], false⟩,  -- SCH_CORE_STAT[c]
  ⟨0xB0010, [(0x100, 8)], [⟨0, 32, .ro, 0⟩], true⟩,  -- SCH_CUR_ARG_LO[c]
  ⟨0xB0014, [(0x100, 8)], [⟨0, 32, .ro, 0⟩], false⟩,  -- SCH_CUR_ARG_HI[c]
  ⟨0xB0018, [(0x100, 8), (0x8, 4)], [⟨0, 32, .ro, 0⟩], true⟩,  -- SCH_CUR_OP_LO[c][k]
  ⟨0xB001C, [(0x100, 8), (0x8, 4)], [⟨0, 32, .ro, 0⟩], false⟩,  -- SCH_CUR_OP_HI[c][k]
  ⟨0xB0038, [(0x100, 8)], [⟨0, 20, .ro, 0⟩, ⟨20, 4, .ro, 0⟩], false⟩,  -- SCH_NEW_COMMIT[c]
  ⟨0xB0040, [(0x100, 8), (0x4, 8)], [⟨0, 32, .rw, 0⟩], false⟩,  -- SCH_NEW[c][i]
  ⟨0xB0060, [(0x100, 8)], [⟨0, 32, .rw, 0⟩], true⟩,  -- SCH_FILL_VAL_LO[c]
  ⟨0xB0064, [(0x100, 8)], [⟨0, 32, .rw, 0⟩], false⟩,  -- SCH_FILL_VAL_HI[c]
  ⟨0xB0068, [(0x100, 8)], [⟨0, 20, .wo, 0⟩, ⟨20, 2, .wo, 0⟩], false⟩,  -- SCH_FILL[c]
  ⟨0xB006C, [(0x100, 8)], [⟨0, 20, .wo, 0⟩], false⟩,  -- SCH_CANCEL[c]
  ⟨0xB0070, [(0x100, 8)], [⟨0, 5, .w1c, 0⟩], false⟩,  -- SCH_NMI_CAUSE[c]
  ⟨0xB0074, [(0x100, 8)], [⟨0, 27, .rwl, 0⟩], false⟩,  -- SCH_NMI_VEC[c]
  ⟨0xB0078, [(0x100, 8)], [⟨0, 24, .rw, 0⟩], false⟩,  -- SCH_WDOG[c]
  ⟨0xB007C, [(0x100, 8)], [⟨0, 32, .wo, 0⟩], false⟩,  -- SCH_KICK[c]
  ⟨0xB0080, [(0x100, 8)], [⟨0, 32, .rw, 0xffffffff⟩], true⟩,  -- SCH_TIMECMP_LO[c]
  ⟨0xB0084, [(0x100, 8)], [⟨0, 32, .rw, 0xffffffff⟩], false⟩,  -- SCH_TIMECMP_HI[c]
  ⟨0xB0088, [(0x100, 8)], [⟨0, 3, .ro, 0⟩, ⟨3, 1, .ro, 0⟩], false⟩,  -- SCH_OP_RESULT[c]
  ⟨0xB1000, [], [⟨0, 13, .ro, 0x1000⟩, ⟨16, 13, .ro, 0⟩], false⟩,  -- SCH_STATUS
  ⟨0xB1004, [], [⟨0, 1, .w1c, 0⟩, ⟨1, 1, .w1c, 0⟩, ⟨2, 1, .w1c, 0⟩, ⟨3, 1, .w1c, 0⟩, ⟨4, 1, .w1c, 0⟩], false⟩,  -- SCH_EVENT
  ⟨0xB1008, [], [⟨0, 1, .rw, 0⟩, ⟨1, 1, .rw, 0⟩, ⟨2, 1, .rw, 0⟩, ⟨3, 1, .rw, 0⟩, ⟨4, 1, .rw, 0⟩], false⟩ ]  -- SCH_EVENT_EN

def regTable_sch_1 : List RegDef := [
  ⟨0xB100C, [], [⟨0, 16, .rc, 0⟩, ⟨16, 16, .rc, 0⟩], false⟩,  -- SCH_FILL_DROP
  ⟨0xB1010, [], [⟨0, 16, .rc, 0⟩], false⟩,  -- SCH_UNCLAIMED
  ⟨0xB1014, [], [⟨0, 12, .ro, 0⟩, ⟨12, 10, .ro, 0⟩, ⟨24, 1, .ro, 0⟩], false⟩,  -- SCH_PAR_LOC
  ⟨0xB2000, [(0x4, 1024)], [⟨0, 2, .rw, 1⟩], false⟩,  -- SCH_FLOW_CFG[f]
  ⟨0xB3000, [(0x4, 1024)], [⟨0, 13, .ro, 0⟩, ⟨13, 1, .ro, 0⟩, ⟨14, 1, .ro, 0⟩, ⟨16, 3, .ro, 0⟩], false⟩ ]  -- SCH_FLOW_STAT[f]

def regTable_sch : List RegDef := regTable_sch_0 ++ regTable_sch_1

def regTable_hq_0 : List RegDef := [
  ⟨0xC0000, [], [⟨0, 10, .ro, 0⟩, ⟨10, 1, .ro, 0⟩, ⟨11, 1, .ro, 0⟩, ⟨12, 1, .ro, 0⟩], false⟩,  -- HQ_STATUS
  ⟨0xC0004, [], [⟨0, 32, .ro, 0⟩], false⟩,  -- HQ_WSEQ
  ⟨0xC0008, [], [⟨0, 16, .rc, 0⟩], false⟩,  -- HQ_STALE_CNT
  ⟨0xC000C, [], [⟨0, 1, .w1c, 0⟩, ⟨1, 1, .w1c, 0⟩, ⟨2, 1, .w1c, 0⟩, ⟨3, 1, .w1c, 0⟩, ⟨4, 1, .w1c, 0⟩, ⟨5, 1, .w1c, 0⟩], false⟩,  -- HQ_EVENT
  ⟨0xC0010, [], [⟨0, 1, .rw, 0⟩, ⟨1, 1, .rw, 0⟩, ⟨2, 1, .rw, 0⟩, ⟨3, 1, .rw, 0⟩, ⟨4, 1, .rw, 0⟩, ⟨5, 1, .rw, 0⟩], false⟩,  -- HQ_EVENT_EN
  ⟨0xC0014, [], [⟨0, 3, .rw, 0⟩], false⟩,  -- HQ_SDRAM_PAGE
  ⟨0xC0018, [], [⟨0, 16, .rc, 0⟩], false⟩,  -- HQ_DENIED_RD
  ⟨0xC0020, [], [⟨0, 9, .rw, 0⟩], false⟩,  -- HQ_TAG_SEL
  ⟨0xC0024, [], [⟨0, 6, .ro, 0⟩, ⟨6, 1, .ro, 0⟩, ⟨8, 10, .ro, 0⟩], false⟩,  -- HQ_TAG_STAT
  ⟨0xC0028, [], [⟨0, 16, .wo, 0⟩], false⟩,  -- HQ_CLAIM_Q
  ⟨0xC002C, [], [⟨0, 7, .ro, 0⟩, ⟨7, 1, .ro, 0⟩, ⟨16, 11, .ro, 0⟩], false⟩,  -- HQ_CLAIM_LOC
  ⟨0xC0400, [], [⟨0, 16, .ro, 0⟩, ⟨16, 16, .rc, 0⟩], false⟩,  -- HQ_PWF_CNT
  ⟨0xC0404, [], [⟨0, 4, .ro, 0⟩, ⟨4, 2, .ro, 0⟩, ⟨8, 4, .ro, 0⟩, ⟨12, 4, .ro, 0⟩, ⟨16, 10, .ro, 0⟩, ⟨31, 1, .ro, 0⟩], false⟩,  -- HQ_PWF_INFO
  ⟨0xC0408, [], [⟨0, 32, .ro, 0⟩], false⟩,  -- HQ_PWF_OFF
  ⟨0xC040C, [], [⟨0, 16, .ro, 0⟩, ⟨16, 3, .ro, 0⟩], false⟩,  -- HQ_PWF_REQ
  ⟨0xC0410, [], [⟨0, 32, .ro, 0⟩], true⟩,  -- HQ_PWF_STAMP_LO
  ⟨0xC0414, [], [⟨0, 32, .ro, 0⟩], false⟩,  -- HQ_PWF_STAMP_HI
  ⟨0xC0418, [], [⟨0, 1, .w1s, 0⟩], false⟩,  -- HQ_PWF_POP
  ⟨0xC1000, [(0x40, 16)], [⟨0, 32, .rw, 0⟩], true⟩,  -- HQ_SQ_BASE_LO[q]
  ⟨0xC1004, [(0x40, 16)], [⟨0, 32, .rw, 0⟩], false⟩,  -- HQ_SQ_BASE_HI[q]
  ⟨0xC1008, [(0x40, 16)], [⟨0, 13, .rw, 0⟩, ⟨16, 1, .rw, 0⟩], false⟩,  -- HQ_SQ_CFG[q]
  ⟨0xC100C, [(0x40, 16)], [⟨0, 12, .wo, 0⟩], false⟩,  -- HQ_SQ_TAIL[q]
  ⟨0xC1010, [(0x40, 16)], [⟨0, 12, .ro, 0⟩], false⟩,  -- HQ_SQ_HEAD[q]
  ⟨0xC1014, [(0x40, 16)], [⟨0, 32, .rw, 0⟩], true⟩ ]  -- HQ_CQ_BASE_LO[q]

def regTable_hq_1 : List RegDef := [
  ⟨0xC1018, [(0x40, 16)], [⟨0, 32, .rw, 0⟩], false⟩,  -- HQ_CQ_BASE_HI[q]
  ⟨0xC101C, [(0x40, 16)], [⟨0, 13, .rw, 0⟩, ⟨16, 1, .rw, 0⟩, ⟨24, 8, .rw, 1⟩], false⟩,  -- HQ_CQ_CFG[q]
  ⟨0xC1020, [(0x40, 16)], [⟨0, 12, .wo, 0⟩], false⟩,  -- HQ_CQ_HEAD[q]
  ⟨0xC1024, [(0x40, 16)], [⟨0, 12, .ro, 0⟩, ⟨12, 1, .ro, 1⟩], false⟩,  -- HQ_CQ_TAIL[q]
  ⟨0xC1028, [(0x40, 16)], [⟨0, 8, .rw, 0⟩], false⟩,  -- HQ_CQ_TIME[q]
  ⟨0xC102C, [(0x40, 16)], [⟨0, 1, .w1c, 0⟩, ⟨1, 2, .ro, 0⟩, ⟨3, 1, .ro, 0⟩, ⟨4, 1, .w1c, 0⟩, ⟨16, 10, .ro, 0⟩], false⟩,  -- HQ_Q_STAT[q]
  ⟨0xC8000, [(0x40, 32)], [⟨0, 13, .rw, 0⟩, ⟨16, 4, .rw, 6⟩, ⟨24, 1, .rw, 0⟩], false⟩,  -- HQ_STRM_CFG[t]
  ⟨0xC8004, [(0x40, 32)], [⟨0, 27, .ro, 0⟩], false⟩,  -- HQ_STRM_WIN[t]
  ⟨0xC8008, [(0x40, 32)], [⟨0, 14, .ro, 0⟩], false⟩,  -- HQ_STRM_GEOM[t]
  ⟨0xC800C, [(0x40, 32)], [⟨0, 16, .wo, 0⟩, ⟨16, 8, .wo, 0⟩], false⟩,  -- HQ_STRM_ANNOUNCE[t]
  ⟨0xC8010, [(0x40, 32)], [⟨0, 13, .wo, 0⟩], false⟩,  -- HQ_STRM_PUT[t]
  ⟨0xC8014, [(0x40, 32)], [⟨0, 13, .ro, 0⟩, ⟨16, 13, .ro, 0⟩, ⟨29, 3, .ro, 0⟩], false⟩,  -- HQ_STRM_STAT[t]
  ⟨0xC8018, [(0x40, 32)], [⟨0, 32, .ro, 0⟩], true⟩,  -- HQ_STRM_CONS_LO[t]
  ⟨0xC801C, [(0x40, 32)], [⟨0, 32, .ro, 0⟩], false⟩,  -- HQ_STRM_CONS_HI[t]
  ⟨0xC8020, [(0x40, 32)], [⟨0, 32, .rw, 0⟩], true⟩,  -- HQ_STRM_MIRROR_LO[t]
  ⟨0xC8024, [(0x40, 32)], [⟨0, 32, .rw, 0⟩], false⟩,  -- HQ_STRM_MIRROR_HI[t]
  ⟨0xC8028, [(0x40, 32)], [⟨0, 1, .w1c, 0⟩, ⟨1, 1, .w1c, 0⟩, ⟨2, 1, .w1c, 0⟩, ⟨3, 1, .w1c, 0⟩, ⟨4, 1, .w1c, 0⟩, ⟨5, 1, .w1c, 0⟩, ⟨6, 1, .w1c, 0⟩], false⟩,  -- HQ_STRM_EVENT[t]
  ⟨0xC802C, [(0x40, 32)], [⟨0, 1, .rw, 0⟩, ⟨1, 1, .rw, 0⟩, ⟨2, 1, .rw, 0⟩, ⟨3, 1, .rw, 0⟩, ⟨4, 1, .rw, 0⟩, ⟨5, 1, .rw, 0⟩, ⟨6, 1, .rw, 0⟩], false⟩,  -- HQ_STRM_EVENT_EN[t]
  ⟨0xC8030, [(0x40, 32)], [⟨0, 16, .rc, 0⟩], false⟩,  -- HQ_STRM_STARVE_CNT[t]
  ⟨0xC8034, [(0x40, 32)], [⟨0, 32, .ro, 0⟩], false⟩ ]  -- HQ_STRM_DISCARD[t]

def regTable_hq : List RegDef := regTable_hq_0 ++ regTable_hq_1

def regTable_mfl_0 : List RegDef := [
  ⟨0xD0000, [], [⟨0, 8, .rw, 0⟩, ⟨8, 2, .rw, 0⟩, ⟨10, 2, .rw, 0⟩, ⟨12, 1, .rw, 0⟩, ⟨13, 1, .w1c, 0⟩], false⟩,  -- MFL_CFG
  ⟨0xD0004, [], [⟨0, 8, .ro, 0⟩, ⟨8, 8, .ro, 0⟩], false⟩,  -- MFL_STATUS
  ⟨0xD0008, [], [⟨0, 8, .rw, 0⟩], false⟩,  -- MFL_SNAP_FWD
  ⟨0xD000C, [], [⟨0, 8, .rw, 0x60⟩, ⟨8, 8, .rw, 0x30⟩], false⟩,  -- MFL_FOM_CFG
  ⟨0xD0010, [], [⟨0, 16, .rw, 0x64⟩], false⟩,  -- MFL_IDLE_US
  ⟨0xD0100, [(0x100, 8)], [⟨0, 1, .w1s, 0⟩, ⟨8, 4, .rw, 0⟩, ⟨12, 4, .rw, 4⟩], false⟩,  -- MFL_LANE_CTRL[n]
  ⟨0xD0104, [(0x100, 8)], [⟨0, 3, .ro, 0⟩, ⟨3, 1, .ro, 0⟩, ⟨4, 1, .ro, 0⟩, ⟨5, 3, .ro, 0⟩, ⟨8, 2, .ro, 0⟩, ⟨10, 3, .ro, 0⟩, ⟨16, 8, .ro, 0⟩], false⟩,  -- MFL_LANE_STAT[n]
  ⟨0xD0108, [(0x100, 8)], [⟨0, 32, .ro, 0⟩], false⟩,  -- MFL_FAR_ID[n]
  ⟨0xD010C, [(0x100, 8)], [⟨0, 16, .ro, 0⟩, ⟨16, 7, .ro, 0⟩], false⟩,  -- MFL_LAT[n]
  ⟨0xD0110, [(0x100, 8)], [⟨0, 16, .rc, 0⟩], false⟩,  -- MFL_HDR_ERR[n]
  ⟨0xD0114, [(0x100, 8)], [⟨0, 16, .rc, 0⟩], false⟩,  -- MFL_TOKEN_LOST[n]
  ⟨0xD0118, [(0x100, 8)], [⟨0, 32, .ro, 0⟩], false⟩,  -- MFL_RETRAINS[n]
  ⟨0xD011C, [(0x100, 8)], [⟨0, 1, .w1c, 0⟩, ⟨1, 1, .w1c, 0⟩, ⟨2, 1, .w1c, 0⟩, ⟨3, 1, .w1c, 0⟩, ⟨4, 1, .w1c, 0⟩, ⟨5, 1, .w1c, 0⟩, ⟨6, 1, .w1c, 0⟩, ⟨7, 1, .w1c, 0⟩, ⟨8, 1, .w1c, 0⟩, ⟨9, 1, .w1c, 0⟩], false⟩,  -- MFL_EVENT[n]
  ⟨0xD0120, [(0x100, 8)], [⟨0, 32, .rw, 0⟩], false⟩,  -- MFL_EVENT_EN[n]
  ⟨0xD0140, [(0x100, 8), (0x4, 12)], [⟨0, 8, .ro, 0⟩], false⟩,  -- MFL_DFE[n][k]
  ⟨0xD0180, [(0x100, 8), (0x4, 11)], [⟨0, 32, .rw, 0⟩], false⟩,  -- MFL_MSG_TX[n][i]
  ⟨0xD01AC, [(0x100, 8)], [⟨0, 1, .w1s, 0⟩], false⟩,  -- MFL_MSG_SEND[n]
  ⟨0xD01C0, [(0x100, 8), (0x4, 11)], [⟨0, 32, .ro, 0⟩], false⟩,  -- MFL_MSG_RX[n][i]
  ⟨0xD01EC, [(0x100, 8)], [⟨0, 1, .w1s, 0⟩, ⟨8, 5, .ro, 0⟩, ⟨16, 16, .rc, 0⟩], false⟩,  -- MFL_MSG_RXCTL[n]
  ⟨0xD0900, [(0x4, 8)], [⟨0, 12, .ro, 0⟩], false⟩,  -- MFL_GROVE_LAT[l]
  ⟨0xD1000, [(0x80, 8), (0x20, 4)], [⟨0, 32, .ro, 0⟩], true⟩,  -- MFL_PEER_FAILCYC_LO[l][p]
  ⟨0xD1004, [(0x80, 8), (0x20, 4)], [⟨0, 32, .ro, 0⟩], false⟩,  -- MFL_PEER_FAILCYC_HI[l][p]
  ⟨0xD1008, [(0x80, 8), (0x20, 4)], [⟨0, 32, .ro, 0⟩], true⟩,  -- MFL_PEER_FAILS_LO[l][p]
  ⟨0xD100C, [(0x80, 8), (0x20, 4)], [⟨0, 32, .ro, 0⟩], false⟩ ]  -- MFL_PEER_FAILS_HI[l][p]

def regTable_mfl_1 : List RegDef := [
  ⟨0xD1010, [(0x80, 8), (0x20, 4)], [⟨0, 32, .ro, 0⟩], true⟩,  -- MFL_PEER_FF_LO[l][p]
  ⟨0xD1014, [(0x80, 8), (0x20, 4)], [⟨0, 32, .ro, 0⟩], false⟩,  -- MFL_PEER_FF_HI[l][p]
  ⟨0xD1018, [(0x80, 8), (0x20, 4)], [⟨0, 7, .ro, 0⟩, ⟨7, 1, .ro, 0⟩, ⟨8, 1, .ro, 0⟩], false⟩,  -- MFL_PEER_FF_LOC[l][p]
  ⟨0xD101C, [(0x80, 8), (0x20, 4)], [⟨0, 1, .ro, 0⟩, ⟨16, 9, .ro, 0⟩, ⟨25, 6, .ro, 0⟩], false⟩ ]  -- MFL_PEER_STAT[l][p]

def regTable_mfl : List RegDef := regTable_mfl_0 ++ regTable_mfl_1

def regTable_tim_0 : List RegDef := [
  ⟨0xD8000, [], [⟨0, 1, .rw, 0⟩, ⟨1, 1, .rw, 0⟩, ⟨2, 1, .rw, 0⟩], false⟩,  -- TIM_CTRL
  ⟨0xD8004, [], [⟨0, 2, .ro, 0⟩, ⟨2, 1, .ro, 0⟩, ⟨3, 2, .ro, 0⟩], false⟩,  -- TIM_STATUS
  ⟨0xD8008, [], [⟨0, 32, .ro, 0⟩], true⟩,  -- TIM_NOW_LO
  ⟨0xD800C, [], [⟨0, 32, .ro, 0⟩], false⟩,  -- TIM_NOW_HI
  ⟨0xD8010, [], [⟨0, 16, .ro, 0⟩], false⟩,  -- TIM_NOW_FRAC
  ⟨0xD8014, [], [⟨0, 32, .ro, 0⟩], true⟩,  -- TIM_RAW_LO
  ⟨0xD8018, [], [⟨0, 32, .ro, 0⟩], false⟩,  -- TIM_RAW_HI
  ⟨0xD801C, [], [⟨0, 32, .rw, 0⟩], false⟩,  -- TIM_RATE
  ⟨0xD8020, [], [⟨0, 32, .ro, 0⟩], false⟩,  -- TIM_RATE_HO
  ⟨0xD8024, [], [⟨0, 32, .wo, 0⟩], true⟩,  -- TIM_STEP_LO
  ⟨0xD8028, [], [⟨0, 32, .wo, 0⟩], false⟩,  -- TIM_STEP_HI
  ⟨0xD802C, [], [⟨0, 32, .ro, 0⟩], true⟩,  -- TIM_STEP_AT_LO
  ⟨0xD8030, [], [⟨0, 32, .ro, 0⟩], false⟩,  -- TIM_STEP_AT_HI
  ⟨0xD8034, [], [⟨0, 32, .ro, 0⟩], true⟩,  -- TIM_OFFSET_LO
  ⟨0xD8038, [], [⟨0, 32, .ro, 0⟩], false⟩,  -- TIM_OFFSET_HI
  ⟨0xD803C, [], [⟨0, 1, .w1c, 0⟩, ⟨1, 1, .w1c, 0⟩, ⟨2, 1, .w1c, 0⟩, ⟨3, 1, .w1c, 0⟩, ⟨4, 1, .w1c, 0⟩, ⟨5, 1, .w1c, 0⟩, ⟨6, 1, .w1c, 0⟩], false⟩,  -- TIM_EVENT
  ⟨0xD8040, [], [⟨0, 32, .rw, 0⟩], false⟩,  -- TIM_EVENT_EN
  ⟨0xD8100, [], [⟨0, 3, .rw, 0⟩, ⟨8, 16, .rw, 0x3e8⟩, ⟨24, 4, .rw, 4⟩], false⟩,  -- TIM_MFL_CFG
  ⟨0xD8104, [], [⟨0, 32, .rw, 0⟩], false⟩,  -- TIM_MFL_ASYM
  ⟨0xD8108, [], [⟨0, 32, .ro, 0⟩], true⟩,  -- TIM_MFL_OFS_LO
  ⟨0xD810C, [], [⟨0, 32, .ro, 0⟩], false⟩,  -- TIM_MFL_OFS_HI
  ⟨0xD8110, [], [⟨0, 32, .ro, 0⟩], false⟩,  -- TIM_MFL_DLY
  ⟨0xD8114, [], [⟨0, 16, .ro, 0⟩, ⟨16, 1, .ro, 0⟩, ⟨17, 1, .ro, 0⟩, ⟨18, 3, .ro, 0⟩], false⟩,  -- TIM_MFL_STAT
  ⟨0xD8200, [], [⟨0, 27, .rw, 0⟩], false⟩ ]  -- TIM_ETH_RXRING

def regTable_tim_1 : List RegDef := [
  ⟨0xD8204, [], [⟨0, 27, .rw, 0⟩], false⟩,  -- TIM_ETH_TXRING
  ⟨0xD8208, [], [⟨0, 10, .rw, 0⟩, ⟨16, 10, .rw, 0⟩], false⟩,  -- TIM_ETH_SLOTS
  ⟨0xD820C, [], [⟨0, 16, .rc, 0⟩, ⟨16, 16, .rc, 0⟩], false⟩,  -- TIM_ETH_STAT
  ⟨0xD8210, [], [⟨0, 8, .ro, 0⟩, ⟨8, 1, .ro, 0⟩, ⟨31, 1, .ro, 0⟩], false⟩,  -- TIM_TXTS_INFO
  ⟨0xD8214, [], [⟨0, 32, .ro, 0⟩], true⟩,  -- TIM_TXTS_LO
  ⟨0xD8218, [], [⟨0, 32, .ro, 0⟩], false⟩,  -- TIM_TXTS_HI
  ⟨0xD821C, [], [⟨0, 16, .ro, 0⟩], false⟩,  -- TIM_TXTS_FRAC
  ⟨0xD8220, [], [⟨0, 1, .w1s, 0⟩], false⟩ ]  -- TIM_TXTS_POP

def regTable_tim : List RegDef := regTable_tim_0 ++ regTable_tim_1

def regTable_dmc_0 : List RegDef := [
  ⟨0xE0000, [], [⟨0, 1, .w1s, 0⟩, ⟨1, 1, .w1s, 0⟩, ⟨2, 1, .rw, 1⟩], false⟩,  -- DMC_CTRL
  ⟨0xE0004, [], [⟨0, 2, .ro, 0⟩, ⟨4, 4, .ro, 0⟩, ⟨8, 9, .ro, 0⟩, ⟨20, 4, .ro, 0⟩], false⟩,  -- DMC_STATUS
  ⟨0xE0008, [], [⟨0, 2, .rwl, 0⟩, ⟨2, 1, .rwl, 0⟩, ⟨3, 2, .rwl, 0⟩, ⟨16, 16, .ro, 0⟩], false⟩,  -- DMC_GEOM
  ⟨0xE000C, [], [⟨0, 1, .rw, 1⟩, ⟨8, 8, .rw, 0x14⟩], false⟩,  -- DMC_PAGE_CFG
  ⟨0xE0010, [], [⟨0, 10, .rw, 0xc8⟩], false⟩,  -- DMC_URGENCY
  ⟨0xE0014, [], [⟨0, 4, .rw, 3⟩], false⟩,  -- DMC_REPLAY_CFG
  ⟨0xE0018, [], [⟨0, 1, .w1c, 0⟩, ⟨1, 1, .w1c, 0⟩, ⟨2, 1, .w1c, 0⟩, ⟨3, 1, .w1c, 0⟩, ⟨4, 1, .w1c, 0⟩, ⟨5, 1, .w1c, 0⟩, ⟨6, 1, .w1c, 0⟩], false⟩,  -- DMC_EVENT
  ⟨0xE001C, [], [⟨0, 1, .rw, 0⟩, ⟨1, 1, .rw, 0⟩, ⟨2, 1, .rw, 0⟩, ⟨3, 1, .rw, 0⟩, ⟨4, 1, .rw, 0⟩, ⟨5, 1, .rw, 0⟩, ⟨6, 1, .rw, 0⟩], false⟩,  -- DMC_EVENT_EN
  ⟨0xE0020, [], [⟨0, 16, .rc, 0⟩], false⟩,  -- DMC_REPLAY_CNT
  ⟨0xE0024, [], [⟨0, 4, .ro, 0⟩, ⟨4, 4, .ro, 0⟩], false⟩,  -- DMC_TEMP
  ⟨0xE0040, [(0x10, 4)], [⟨0, 8, .ro, 0⟩, ⟨8, 8, .ro, 0⟩], false⟩,  -- DMC_SC_TRAIN[s]
  ⟨0xE0044, [(0x10, 4)], [⟨0, 32, .ro, 0⟩], false⟩,  -- DMC_SC_HITS[s]
  ⟨0xE0048, [(0x10, 4)], [⟨0, 32, .ro, 0⟩], false⟩,  -- DMC_SC_ACTS[s]
  ⟨0xE004C, [(0x10, 4)], [⟨0, 16, .ro, 0⟩], false⟩,  -- DMC_SC_REF[s]
  ⟨0xE0100, [(0x20, 6)], [⟨0, 16, .rw, 0⟩, ⟨16, 9, .rw, 0x100⟩, ⟨31, 1, .ro, 0⟩], false⟩,  -- DMC_PORT_CFG[p]
  ⟨0xE0104, [(0x20, 6)], [⟨0, 9, .ro, 0⟩, ⟨16, 16, .rc, 0⟩], false⟩,  -- DMC_PORT_STAT[p]
  ⟨0xE0108, [(0x20, 6)], [⟨0, 16, .rc, 0⟩], false⟩,  -- DMC_PORT_LAT[p]
  ⟨0xE010C, [(0x20, 6)], [⟨0, 32, .ro, 0⟩], true⟩,  -- DMC_PORT_BYTES_LO[p]
  ⟨0xE0110, [(0x20, 6)], [⟨0, 32, .ro, 0⟩], false⟩ ]  -- DMC_PORT_BYTES_HI[p]

def regTable_dmc : List RegDef := regTable_dmc_0

def regTable_sec_0 : List RegDef := [
  ⟨0xE8000, [], [⟨0, 3, .ro, 0⟩, ⟨3, 1, .ro, 0⟩, ⟨4, 1, .ro, 0⟩, ⟨5, 2, .ro, 0⟩, ⟨7, 2, .ro, 0⟩, ⟨9, 1, .ro, 0⟩, ⟨10, 1, .ro, 0⟩, ⟨11, 1, .ro, 0⟩, ⟨12, 1, .ro, 0⟩], false⟩,  -- SEC_STATUS
  ⟨0xE8004, [], [⟨0, 5, .ro, 0⟩], false⟩,  -- SEC_POLICY
  ⟨0xE8008, [], [⟨0, 1, .w1c, 0⟩, ⟨1, 1, .w1c, 0⟩, ⟨2, 1, .w1c, 0⟩, ⟨3, 1, .w1c, 0⟩, ⟨4, 1, .w1c, 0⟩, ⟨5, 1, .w1c, 0⟩, ⟨6, 1, .w1c, 0⟩, ⟨7, 1, .w1c, 0⟩, ⟨8, 1, .w1c, 0⟩, ⟨9, 1, .w1c, 0⟩], false⟩,  -- SEC_EVENT
  ⟨0xE800C, [], [⟨0, 32, .rw, 0⟩], false⟩,  -- SEC_EVENT_EN
  ⟨0xE8010, [], [⟨0, 16, .rc, 0⟩], false⟩,  -- SEC_AUTH_FAIL
  ⟨0xE8014, [], [⟨0, 12, .ro, 0⟩], false⟩,  -- SEC_ST_RESULT
  ⟨0xE8018, [], [⟨0, 32, .ro, 0⟩], false⟩,  -- SEC_DRBG
  ⟨0xE8020, [], [⟨0, 3, .rw, 0⟩], false⟩,  -- SEC_MR_SEL
  ⟨0xE8024, [(0x4, 12)], [⟨0, 32, .ro, 0⟩], false⟩,  -- SEC_MR_DATA[i]
  ⟨0xE8060, [(0x4, 8)], [⟨0, 32, .ro, 0⟩], false⟩,  -- SEC_MR_CNT[r]
  ⟨0xE8080, [(0x4, 2)], [⟨0, 32, .ro, 0⟩], false⟩,  -- SEC_SLOT_MAP[i]
  ⟨0xE8088, [], [⟨0, 6, .rw, 0⟩], false⟩,  -- SEC_SLOT_SEL
  ⟨0xE808C, [], [⟨0, 32, .ro, 0⟩], true⟩,  -- SEC_SLOT_NAME_LO
  ⟨0xE8090, [], [⟨0, 32, .ro, 0⟩], false⟩,  -- SEC_SLOT_NAME_HI
  ⟨0xE80A0, [], [⟨0, 1, .ro, 0⟩, ⟨1, 1, .ro, 0⟩, ⟨2, 1, .ro, 0⟩, ⟨3, 1, .ro, 0⟩, ⟨4, 1, .ro, 0⟩], false⟩,  -- SEC_TAMPER_STAT
  ⟨0xE80A4, [], [⟨0, 32, .ro, 0⟩], false⟩,  -- SEC_TAMPER_TICK
  ⟨0xE80C0, [(0x4, 4)], [⟨0, 32, .ro, 0⟩], false⟩ ]  -- SEC_ARB[k]

def regTable_sec : List RegDef := regTable_sec_0

def regTable_clk_0 : List RegDef := [
  ⟨0xF0000, [], [⟨0, 1, .rw, 1⟩, ⟨1, 1, .w1s, 0⟩, ⟨2, 1, .rw, 0⟩], false⟩,  -- CLK_CTRL
  ⟨0xF0004, [], [⟨0, 2, .ro, 0⟩, ⟨2, 1, .ro, 0⟩, ⟨3, 1, .ro, 1⟩, ⟨4, 3, .ro, 0⟩], false⟩,  -- CLK_STATUS
  ⟨0xF0008, [], [⟨0, 16, .ro, 0⟩, ⟨16, 16, .ro, 0⟩], false⟩,  -- CLK_REF_CNT
  ⟨0xF000C, [], [⟨0, 24, .ro, 0⟩], false⟩,  -- CLK_OSC_ERR
  ⟨0xF0010, [], [⟨0, 16, .rw, 0x64⟩], false⟩,  -- CLK_MON_CFG
  ⟨0xF0014, [], [⟨0, 1, .w1c, 0⟩, ⟨1, 1, .w1c, 0⟩, ⟨2, 1, .w1c, 0⟩, ⟨3, 1, .w1c, 0⟩], false⟩,  -- CLK_EVENT
  ⟨0xF0018, [], [⟨0, 1, .rw, 0⟩, ⟨1, 1, .rw, 0⟩, ⟨2, 1, .rw, 0⟩, ⟨3, 1, .rw, 0⟩], false⟩,  -- CLK_EVENT_EN
  ⟨0xF001C, [], [⟨0, 32, .ro, 0⟩], true⟩,  -- CLK_LOSS_AT_LO
  ⟨0xF0020, [], [⟨0, 32, .ro, 0⟩], false⟩,  -- CLK_LOSS_AT_HI
  ⟨0xF0024, [], [⟨0, 16, .ro, 0⟩], false⟩,  -- CLK_LOSS_CNT
  ⟨0xF0040, [], [⟨0, 4, .rw, 0⟩, ⟨8, 6, .rw, 0⟩, ⟨16, 16, .rw, 0⟩], false⟩,  -- CLKOUT_CFG
  ⟨0xF0044, [], [⟨0, 1, .ro, 0⟩, ⟨1, 1, .ro, 0⟩], false⟩ ]  -- CLKOUT_STAT

def regTable_clk : List RegDef := regTable_clk_0

def regTable_pwr_0 : List RegDef := [
  ⟨0xF0100, [], [⟨0, 2, .ro, 0⟩, ⟨2, 1, .ro, 0⟩, ⟨3, 1, .ro, 0⟩, ⟨4, 3, .ro, 0⟩, ⟨8, 7, .ro, 0⟩, ⟨16, 5, .ro, 0x10⟩], false⟩,  -- PWR_STATUS
  ⟨0xF0104, [], [⟨0, 16, .ro, 0⟩, ⟨16, 16, .ro, 0⟩], false⟩,  -- PWR_VIN
  ⟨0xF0108, [], [⟨0, 11, .ro, 0x7d0⟩, ⟨16, 11, .ro, 0x7d0⟩], false⟩,  -- PWR_CAP
  ⟨0xF010C, [], [⟨0, 16, .ro, 0⟩, ⟨16, 16, .rc, 0⟩], false⟩,  -- PWR_POWER
  ⟨0xF0110, [], [⟨0, 1, .w1c, 0⟩, ⟨1, 1, .w1c, 0⟩, ⟨2, 1, .w1c, 0⟩, ⟨3, 1, .w1c, 0⟩, ⟨4, 1, .w1c, 0⟩, ⟨5, 1, .w1c, 0⟩, ⟨6, 1, .w1c, 0⟩, ⟨7, 1, .w1c, 0⟩, ⟨8, 1, .w1c, 0⟩, ⟨9, 1, .w1c, 0⟩, ⟨10, 1, .w1c, 0⟩, ⟨11, 1, .w1c, 0⟩], false⟩,  -- PWR_EVENT
  ⟨0xF0114, [], [⟨0, 1, .rw, 0⟩, ⟨1, 1, .rw, 0⟩, ⟨2, 1, .rw, 0⟩, ⟨3, 1, .rw, 0⟩, ⟨4, 1, .rw, 0⟩, ⟨5, 1, .rw, 0⟩, ⟨6, 1, .rw, 0⟩, ⟨7, 1, .rw, 0⟩, ⟨8, 1, .rw, 0⟩, ⟨9, 1, .rw, 0⟩, ⟨10, 1, .rw, 0⟩, ⟨11, 1, .rw, 0⟩], false⟩,  -- PWR_EVENT_EN
  ⟨0xF0118, [], [⟨0, 6, .rwl, 0x32⟩], false⟩,  -- PWR_THERM_CFG
  ⟨0xF011C, [], [⟨0, 16, .ro, 0⟩, ⟨16, 4, .ro, 0⟩], false⟩,  -- PWR_TDEC
  ⟨0xF0120, [], [⟨0, 16, .rc, 0⟩], false⟩,  -- PWR_ILIM_CNT
  ⟨0xF0140, [(0x4, 16)], [⟨0, 16, .ro, 0⟩, ⟨16, 15, .ro, 0⟩, ⟨31, 1, .ro, 0⟩], false⟩,  -- PWR_TSENS[s]
  ⟨0xF0180, [(0x8, 7)], [⟨0, 16, .ro, 0⟩, ⟨16, 16, .ro, 0⟩], false⟩,  -- PWR_RAIL[r]
  ⟨0xF0184, [(0x8, 7)], [⟨0, 4, .ro, 0⟩, ⟨4, 4, .ro, 0⟩, ⟨16, 16, .rc, 0⟩], false⟩,  -- PWR_RAIL_LIM[r]
  ⟨0xF01C0, [], [⟨0, 32, .ro, 0⟩], true⟩,  -- PWR_WEAR_HOT_LO
  ⟨0xF01C4, [], [⟨0, 32, .ro, 0⟩], false⟩,  -- PWR_WEAR_HOT_HI
  ⟨0xF01C8, [], [⟨0, 32, .ro, 0⟩], true⟩,  -- PWR_WEAR_LIM_LO
  ⟨0xF01CC, [], [⟨0, 32, .ro, 0⟩], false⟩,  -- PWR_WEAR_LIM_HI
  ⟨0xF01D0, [], [⟨0, 16, .ro, 0⟩], false⟩,  -- PWR_WEAR_CRIT
  ⟨0xF01D4, [], [⟨0, 32, .ro, 0⟩], false⟩,  -- PWR_WEAR_POH
  ⟨0xF01D8, [], [⟨0, 16, .ro, 0⟩, ⟨16, 16, .ro, 0x4e20⟩], false⟩,  -- PWR_WEAR_PEAK
  ⟨0xF01E0, [], [⟨0, 32, .ro, 0⟩], true⟩,  -- PWR_US_TICK_LO
  ⟨0xF01E4, [], [⟨0, 32, .ro, 0⟩], false⟩ ]  -- PWR_US_TICK_HI

def regTable_pwr : List RegDef := regTable_pwr_0

def regTable_cal_0 : List RegDef := [
  ⟨0xF4000, [], [⟨0, 1, .ro, 0⟩, ⟨1, 3, .ro, 0⟩, ⟨4, 1, .ro, 0⟩, ⟨5, 1, .ro, 0⟩, ⟨6, 1, .ro, 0⟩], false⟩,  -- CAL_STATUS
  ⟨0xF4004, [], [⟨0, 32, .ro, 0⟩], false⟩,  -- CAL_COUNT
  ⟨0xF4008, [], [⟨0, 32, .ro, 0⟩], false⟩,  -- CAL_RECORD
  ⟨0xF400C, [], [⟨0, 1, .w1c, 0⟩, ⟨1, 1, .w1c, 0⟩, ⟨2, 1, .w1c, 0⟩, ⟨3, 1, .w1c, 0⟩, ⟨4, 1, .w1c, 0⟩, ⟨5, 1, .w1c, 0⟩], false⟩,  -- CAL_EVENT
  ⟨0xF4010, [], [⟨0, 1, .rw, 0⟩, ⟨1, 1, .rw, 0⟩, ⟨2, 1, .rw, 0⟩, ⟨3, 1, .rw, 0⟩, ⟨4, 1, .rw, 0⟩, ⟨5, 1, .rw, 0⟩], false⟩,  -- CAL_EVENT_EN
  ⟨0xF4040, [(0x10, 7)], [⟨0, 2, .ro, 0⟩, ⟨2, 1, .ro, 0⟩, ⟨3, 1, .ro, 0⟩, ⟨4, 12, .ro, 0⟩, ⟨16, 16, .ro, 0⟩], false⟩,  -- CAL_GRP_STAT[g]
  ⟨0xF4044, [(0x10, 7)], [⟨0, 32, .ro, 0⟩], true⟩,  -- CAL_GRP_TIME_LO[g]
  ⟨0xF4048, [(0x10, 7)], [⟨0, 32, .ro, 0⟩], false⟩,  -- CAL_GRP_TIME_HI[g]
  ⟨0xF404C, [(0x10, 7)], [⟨0, 16, .ro, 0⟩], false⟩,  -- CAL_GRP_TEMP[g]
  ⟨0xF4100, [], [⟨0, 3, .rw, 0⟩], false⟩,  -- CAL_STALE_SEL
  ⟨0xF4104, [(0x4, 4)], [⟨0, 32, .ro, 0⟩], false⟩ ]  -- CAL_STALE_MAP[i]

def regTable_cal : List RegDef := regTable_cal_0

def regTable_flt_0 : List RegDef := [
  ⟨0xF8000, [], [⟨0, 1, .rwl, 0⟩, ⟨1, 1, .rw, 0⟩], false⟩,  -- FLT_CTRL
  ⟨0xF8004, [], [⟨0, 2, .ro, 0⟩, ⟨2, 1, .ro, 0⟩, ⟨3, 1, .ro, 0⟩, ⟨4, 1, .ro, 0⟩, ⟨5, 3, .ro, 0⟩, ⟨8, 8, .ro, 0⟩, ⟨16, 1, .ro, 0⟩], false⟩,  -- FLT_STATUS
  ⟨0xF8008, [], [⟨0, 1, .w1c, 0⟩, ⟨1, 1, .w1c, 0⟩, ⟨2, 1, .w1c, 0⟩, ⟨3, 1, .w1c, 0⟩, ⟨4, 1, .w1c, 0⟩, ⟨5, 1, .w1c, 0⟩, ⟨6, 1, .w1c, 0⟩, ⟨7, 1, .w1c, 0⟩], false⟩,  -- FLT_EVENT
  ⟨0xF800C, [], [⟨0, 1, .rw, 0⟩, ⟨1, 1, .rw, 0⟩, ⟨2, 1, .rw, 0⟩, ⟨3, 1, .rw, 0⟩, ⟨4, 1, .rw, 0⟩, ⟨5, 1, .rw, 0⟩, ⟨6, 1, .rw, 0⟩, ⟨7, 1, .rw, 0⟩], false⟩,  -- FLT_EVENT_EN
  ⟨0xF8010, [], [⟨0, 32, .ro, 0⟩], true⟩,  -- FLT_FIRST_TIME_LO
  ⟨0xF8014, [], [⟨0, 32, .ro, 0⟩], false⟩,  -- FLT_FIRST_TIME_HI
  ⟨0xF8100, [(0x4, 64)], [⟨0, 32, .ro, 0⟩], false⟩,  -- FLT_CLASS[i]
  ⟨0xF8200, [(0x4, 64)], [⟨0, 32, .ro, 0⟩], false⟩,  -- FLT_FLOOR[i]
  ⟨0xF8300, [(0x4, 8)], [⟨0, 32, .w1c, 0⟩], false⟩,  -- FLT_LATCH[i]
  ⟨0xF8320, [(0x4, 8)], [⟨0, 32, .ro, 0⟩], false⟩,  -- FLT_ACTIVE[i]
  ⟨0xF8340, [(0x4, 8)], [⟨0, 32, .w1c, 0⟩], false⟩,  -- FLT_MIS[i]
  ⟨0xF8360, [(0x4, 8)], [⟨0, 32, .rw, 0⟩], false⟩,  -- FLT_FORCE[i]
  ⟨0xF8400, [], [⟨0, 8, .rw, 0⟩], false⟩,  -- FLT_SRC_SEL
  ⟨0xF8404, [], [⟨0, 16, .ro, 0⟩, ⟨16, 3, .ro, 0⟩, ⟨19, 3, .ro, 0⟩, ⟨22, 1, .ro, 0⟩, ⟨23, 1, .ro, 0⟩], false⟩,  -- FLT_SRC_INFO
  ⟨0xF8408, [], [⟨0, 32, .ro, 0⟩], true⟩,  -- FLT_SRC_TIME_LO
  ⟨0xF840C, [], [⟨0, 32, .ro, 0⟩], false⟩,  -- FLT_SRC_TIME_HI
  ⟨0xF8500, [], [⟨0, 2, .rw, 0⟩], false⟩,  -- FLT_REC_SEL
  ⟨0xF8504, [], [⟨0, 32, .ro, 0⟩], false⟩,  -- FLT_REC_SEQ
  ⟨0xF8600, [(0x4, 128)], [⟨0, 32, .ro, 0⟩], false⟩ ]  -- FLT_REC_DATA[i]

def regTable_flt : List RegDef := regTable_flt_0

def regTable_tmg_0 : List RegDef := [
  ⟨0x100000, [(0x1000, 128), (0x80, 32), (0x4, 4)], [⟨0, 32, .rw, 0⟩], false⟩,  -- TMG_EDGE[ch][ts][k]
  ⟨0x100010, [(0x1000, 128), (0x80, 32), (0x4, 2)], [⟨0, 32, .rw, 0⟩], false⟩,  -- TMG_CMP[ch][ts][j]
  ⟨0x100018, [(0x1000, 128), (0x80, 32)], [⟨0, 13, .rw, 0⟩, ⟨31, 1, .ro, 0⟩], false⟩,  -- TMG_TSCFG[ch][ts]
  ⟨0x180000, [(0x400, 32), (0x10, 32)], [⟨0, 32, .rw, 0x4000⟩], true⟩,  -- TMG_PERIOD_LO[g][ts]
  ⟨0x180004, [(0x400, 32), (0x10, 32)], [⟨0, 11, .rw, 0⟩, ⟨31, 1, .ro, 1⟩], false⟩,  -- TMG_PERIOD_HI[g][ts]
  ⟨0x180200, [(0x400, 32)], [⟨0, 1, .rw, 0⟩], false⟩,  -- TMG_GCFG[g]
  ⟨0x190000, [(0x20, 128)], [⟨0, 16, .rw, 0⟩, ⟨31, 1, .ro, 0⟩], false⟩,  -- TMG_DESKEW_DRV[ch]
  ⟨0x190004, [(0x20, 128)], [⟨0, 16, .rw, 0⟩, ⟨31, 1, .ro, 0⟩], false⟩,  -- TMG_DESKEW_DEN[ch]
  ⟨0x190008, [(0x20, 128)], [⟨0, 16, .rw, 0⟩, ⟨31, 1, .ro, 0⟩], false⟩,  -- TMG_DESKEW_CMH[ch]
  ⟨0x19000C, [(0x20, 128)], [⟨0, 16, .rw, 0⟩, ⟨31, 1, .ro, 0⟩], false⟩,  -- TMG_DESKEW_CML[ch]
  ⟨0x190010, [(0x20, 128)], [⟨0, 16, .ro, 0⟩, ⟨31, 1, .ro, 0⟩], false⟩,  -- TMG_PE_RT[ch]
  ⟨0x190014, [(0x20, 128)], [⟨0, 16, .rw, 0⟩, ⟨31, 1, .ro, 0⟩], false⟩,  -- TMG_PE_SPLIT[ch]
  ⟨0x190018, [(0x20, 128)], [⟨0, 16, .rc, 0⟩, ⟨16, 16, .rc, 0⟩], false⟩,  -- TMG_CH_STAT[ch]
  ⟨0x1A0000, [(0x100, 128), (0x4, 64)], [⟨0, 16, .ro, 0⟩, ⟨31, 1, .ro, 0⟩], false⟩,  -- TMG_LIN[ch][p]
  ⟨0x1F0000, [], [⟨0, 1, .rw, 0⟩, ⟨1, 1, .rw, 1⟩], false⟩,  -- TMG_CTRL
  ⟨0x1F0004, [], [⟨0, 1, .ro, 0⟩, ⟨1, 1, .ro, 0⟩, ⟨2, 1, .ro, 0⟩], false⟩,  -- TMG_STATUS
  ⟨0x1F0008, [], [⟨0, 1, .w1c, 0⟩, ⟨1, 1, .w1c, 0⟩, ⟨2, 1, .w1c, 0⟩, ⟨3, 1, .w1c, 0⟩, ⟨4, 1, .w1c, 0⟩, ⟨5, 1, .w1c, 0⟩], false⟩,  -- TMG_EVENT
  ⟨0x1F000C, [], [⟨0, 1, .rw, 0⟩, ⟨1, 1, .rw, 0⟩, ⟨2, 1, .rw, 0⟩, ⟨3, 1, .rw, 0⟩, ⟨4, 1, .rw, 0⟩, ⟨5, 1, .rw, 0⟩], false⟩,  -- TMG_EVENT_EN
  ⟨0x1F0010, [], [⟨0, 16, .rc, 0⟩], false⟩,  -- TMG_DROP_CNT
  ⟨0x1F0014, [], [⟨0, 7, .ro, 0⟩, ⟨8, 6, .ro, 0⟩, ⟨16, 2, .ro, 0⟩, ⟨24, 1, .ro, 0⟩], false⟩,  -- TMG_PAR_LOC
  ⟨0x1F0018, [], [⟨0, 7, .ro, 0⟩, ⟨8, 5, .ro, 0⟩, ⟨13, 3, .ro, 0⟩, ⟨16, 3, .ro, 0⟩], false⟩,  -- TMG_ORDER_LOC
  ⟨0x1F001C, [], [⟨0, 16, .rw, 0⟩], false⟩,  -- TMG_MOD_DELAY
  ⟨0x1F0020, [], [⟨0, 16, .ro, 0⟩], false⟩,  -- TMG_REF_PHASE
  ⟨0x1F0024, [], [⟨0, 16, .ro, 0⟩], false⟩ ]  -- TMG_CAL_TEMP

def regTable_tmg : List RegDef := regTable_tmg_0

def regTable_sym_0 : List RegDef := [
  ⟨0x200000, [(0x1000, 128), (0x80, 32), (0x8, 16)], [⟨0, 2, .rw, 0⟩, ⟨2, 2, .rw, 0⟩, ⟨4, 2, .rw, 0⟩, ⟨6, 2, .rw, 0⟩, ⟨8, 2, .rw, 0⟩, ⟨10, 2, .rw, 0⟩, ⟨12, 2, .rw, 0⟩, ⟨14, 2, .rw, 0⟩, ⟨16, 3, .rw, 0⟩, ⟨19, 1, .rw, 0⟩, ⟨20, 3, .rw, 0⟩, ⟨23, 1, .rw, 0⟩, ⟨24, 1, .rw, 0⟩], false⟩,  -- SYM_MAP_LO[ch][ts][code]
  ⟨0x200004, [(0x1000, 128), (0x80, 32), (0x8, 16)], [⟨0, 8, .rw, 0⟩, ⟨31, 1, .ro, 0⟩], false⟩,  -- SYM_MAP_HI[ch][ts][code]
  ⟨0x280000, [], [⟨0, 1, .w1c, 0⟩, ⟨1, 1, .w1c, 0⟩, ⟨2, 1, .w1c, 0⟩], false⟩,  -- SYM_EVENT
  ⟨0x280004, [], [⟨0, 1, .rw, 0⟩, ⟨1, 1, .rw, 0⟩, ⟨2, 1, .rw, 0⟩], false⟩,  -- SYM_EVENT_EN
  ⟨0x280008, [], [⟨0, 16, .rc, 0⟩], false⟩,  -- SYM_DROP_CNT
  ⟨0x28000C, [], [⟨0, 7, .ro, 0⟩, ⟨8, 5, .ro, 0⟩, ⟨16, 4, .ro, 0⟩, ⟨24, 1, .ro, 0⟩], false⟩,  -- SYM_PAR_LOC
  ⟨0x281000, [(0x20, 16)], [⟨0, 7, .rw, 0⟩, ⟨8, 2, .rw, 0⟩, ⟨16, 1, .w1s, 0⟩], false⟩,  -- PEC_CMD[b]
  ⟨0x281004, [(0x20, 16)], [⟨0, 32, .rw, 0⟩], true⟩,  -- PEC_TX_LO[b]
  ⟨0x281008, [(0x20, 16)], [⟨0, 32, .rw, 0⟩], false⟩,  -- PEC_TX_HI[b]
  ⟨0x28100C, [(0x20, 16)], [⟨0, 32, .ro, 0⟩], true⟩,  -- PEC_RX_LO[b]
  ⟨0x281010, [(0x20, 16)], [⟨0, 32, .ro, 0⟩], false⟩,  -- PEC_RX_HI[b]
  ⟨0x281014, [(0x20, 16)], [⟨0, 1, .w1c, 0⟩, ⟨1, 1, .w1c, 0⟩, ⟨2, 1, .w1c, 0⟩, ⟨16, 16, .ro, 0⟩], false⟩,  -- PEC_STATUS[b]
  ⟨0x281018, [(0x20, 16)], [⟨0, 2, .ro, 0⟩, ⟨2, 1, .ro, 0⟩, ⟨4, 3, .ro, 0⟩, ⟨8, 8, .rw, 2⟩, ⟨16, 8, .rw, 2⟩], false⟩ ]  -- PEC_CFG[b]

def regTable_sym : List RegDef := regTable_sym_0

/-- The table of one block. -/
def regTable : Blk → List RegDef
  | .glb => regTable_glb
  | .str => regTable_str
  | .fab => regTable_fab
  | .fst => regTable_fst
  | .seq => regTable_seq
  | .cap => regTable_cap
  | .trg => regTable_trg
  | .tmu => regTable_tmu
  | .dsc => regTable_dsc
  | .cmp => regTable_cmp
  | .sch => regTable_sch
  | .hq => regTable_hq
  | .mfl => regTable_mfl
  | .tim => regTable_tim
  | .dmc => regTable_dmc
  | .sec => regTable_sec
  | .clk => regTable_clk
  | .pwr => regTable_pwr
  | .cal => regTable_cal
  | .flt => regTable_flt
  | .tmg => regTable_tmg
  | .sym => regTable_sym

end Sys2Proof.Machine
end

