-- ==== Sys2Proof/Machine/Ops.lean ====
section
/-! DEFINITION. The named operations over the register window, the byte memories, the vectors of units, and shared time.
Every register has one home (`Regs`), and every read and write of one goes through this file. -/

namespace Sys2Proof.Machine

/-! ## Sparse lists in canonical form -/

/-- What a sparse list holds at an address, or none where it lists nothing. -/
def cellGet {α : Type} (a : Nat) : List (Nat × α) → Option α
  | [] => none
  | (b, v) :: r => if a = b then some v else cellGet a r

/-- Inserts an entry before the first one of a higher address. -/
def cellInsert {α : Type} (a : Nat) (v : α) : List (Nat × α) → List (Nat × α)
  | [] => [(a, v)]
  | (b, w) :: r => if a < b then (a, v) :: (b, w) :: r else (b, w) :: cellInsert a v r

/-- Writes `v` at `a`, keeping the addresses rising; a value equal to the unlisted one `d` is not listed. -/
def cellPut {α : Type} [DecidableEq α] (d : α) (a : Nat) (v : α) (l : List (Nat × α)) : List (Nat × α) :=
  let r := l.filter fun c => decide (c.1 ≠ a)
  if v = d then r else cellInsert a v r

/-- The canonical form: addresses strictly rising from `from_` on, and no entry equal to the unlisted value. -/
def cellsWf {α : Type} [DecidableEq α] (d : Nat → α) : Nat → List (Nat × α) → Bool
  | _, [] => true
  | lo, (a, v) :: r => decide (lo ≤ a) && decide (v ≠ d a) && cellsWf d (a + 1) r

/-! ## Bits -/

/-- Bit `i` of a number. -/
abbrev bitOf (n i : Nat) : Bool := n.testBit i

/-- 1 for true. -/
def b2n (b : Bool) : Nat := if b then 1 else 0

/-- The positions below `w` at which a number has a 1. -/
def bitsOf (n w : Nat) : List Nat := (List.range w).filter (bitOf n)

/-- The number whose ones are at the listed positions. -/
def maskOf (l : List Nat) : Nat := l.foldl (fun m i => m ||| 2 ^ i) 0

/-- The `w`-bit field of `n` at `lsb`. -/
def fieldOf (n lsb w : Nat) : Nat := n / 2 ^ lsb % 2 ^ w

/-- `n` with its `w`-bit field at `lsb` replaced by `v`. -/
def setField (n lsb w v : Nat) : Nat := n - fieldOf n lsb w * 2 ^ lsb + v % 2 ^ w * 2 ^ lsb

/-- Even parity over the lower 31 bits of a word. -/
def parityOf (n : Nat) : Nat := ((bitsOf n 31).length) % 2

/-- A mask without the ones of another. -/
def without (n m : Nat) : Nat := n - (n &&& m)

/-- The two's complement reading of the low `w` bits. -/
def sx (w n : Nat) : Int := if n % 2 ^ w < 2 ^ (w - 1) then (n % 2 ^ w : Nat) else ((n % 2 ^ w : Nat) : Int) - 2 ^ w

/-- The low `w` bits of an integer's two's complement form. -/
def zx (w : Nat) (i : Int) : Nat := (i % 2 ^ w).toNat

/-- The bytes of a number, least significant first (R5). -/
def bytesLE (count n : Nat) : List Byte := (List.range count).map fun i => BitVec.ofNat 8 (n / 256 ^ i)

/-- The number a little-endian byte string spells. -/
def ofBytesLE : List Byte → Nat
  | [] => 0
  | b :: r => b.toNat + 256 * ofBytesLE r

/-- The little-endian number of `count` bytes at offset `off` of a byte string; bytes past its end read as zero. -/
def leAt (l : List Byte) (off count : Nat) : Nat := ofBytesLE ((l.drop off).take count)

/-- One bit of the reflected IEEE 802.3 CRC-32. -/
def crcBit (c : Nat) : Nat := if c % 2 = 1 then (c / 2) ^^^ 0xEDB88320 else c / 2

/-- The CRC register after one byte. -/
def crcByte (c : Nat) (b : Byte) : Nat :=
  crcBit (crcBit (crcBit (crcBit (crcBit (crcBit (crcBit (crcBit (c ^^^ b.toNat))))))))

/-- CRC-32 with the IEEE 802.3 polynomial over a byte string (R107, R436). -/
def crc32 (l : List Byte) : Nat := l.foldl crcByte 0xFFFFFFFF ^^^ 0xFFFFFFFF

/-- Puts an element before the first one that it should precede. -/
def insertBy {α : Type} (lt : α → α → Bool) (a : α) : List α → List α
  | [] => [a]
  | b :: r => if lt a b then a :: b :: r else b :: insertBy lt a r

/-- A list in the order of `lt`; elements that neither precedes keep their order. -/
def sortBy {α : Type} (lt : α → α → Bool) (l : List α) : List α := l.foldl (fun r a => insertBy lt a r) []

/-! ## Vectors of units -/

/-- One unit changed. -/
def upd {α : Type} {n : Nat} (v : Vector α n) (i : Fin n) (f : α → α) : Vector α n := v.set i.1 (f v[i])

/-- The unit a number names, taken modulo the count of units. -/
abbrev fin (n : Nat) [NeZero n] (k : Nat) : Fin n := Fin.ofNat n k

/-- Every index below `n`, in ascending order. -/
abbrev allFin (n : Nat) : List (Fin n) := List.finRange n

/-! ## Registers (R5, R6, R507) -/

/-- The register file of one block. -/
def Regs.get (r : Regs) : Blk → RegFile
  | .glb => r.glb | .str => r.str | .fab => r.fab | .fst => r.fst | .seq => r.seq | .cap => r.cap | .trg => r.trg
  | .tmu => r.tmu | .dsc => r.dsc | .cmp => r.cmp | .sch => r.sch | .hq => r.hq | .mfl => r.mfl | .tim => r.tim
  | .dmc => r.dmc | .sec => r.sec | .clk => r.clk | .pwr => r.pwr | .cal => r.cal | .flt => r.flt | .tmg => r.tmg
  | .sym => r.sym

/-- The register files with one block's file replaced. -/
def Regs.set (r : Regs) (f : RegFile) : Blk → Regs
  | .glb => { r with glb := f } | .str => { r with str := f } | .fab => { r with fab := f }
  | .fst => { r with fst := f } | .seq => { r with seq := f } | .cap => { r with cap := f }
  | .trg => { r with trg := f } | .tmu => { r with tmu := f } | .dsc => { r with dsc := f }
  | .cmp => { r with cmp := f } | .sch => { r with sch := f } | .hq => { r with hq := f }
  | .mfl => { r with mfl := f } | .tim => { r with tim := f } | .dmc => { r with dmc := f }
  | .sec => { r with sec := f } | .clk => { r with clk := f } | .pwr => { r with pwr := f }
  | .cal => { r with cal := f } | .flt => { r with flt := f } | .tmg => { r with tmg := f }
  | .sym => { r with sym := f }

/-- Whether an offset is one of the places `Σ stride · index` of a register, each index below its count. The strides
stand in descending order, and the extent of the inner ones is below the outer stride. -/
def inDims : List (Nat × Nat) → Nat → Bool
  | [], o => o == 0
  | (st, ct) :: r, o => decide (o / st < ct) && inDims r (o % st)

/-- Whether a register table row covers the address. -/
def RegDef.covers (d : RegDef) (a : Nat) : Bool := decide (d.base ≤ a) && inDims d.dims (a - d.base)

/-- The row of the register tables that holds the word at a window address. -/
def regDefAt (b : Blk) (a : Nat) : Option RegDef := (regTable b).find? fun d => d.covers a

/-- The block whose window holds an address (R507). -/
def blkOf (a : Nat) : Blk :=
  if a < 0x10000 then .glb else if a < 0x20000 then .str else if a < 0x30000 then .fab else if a < 0x40000 then .fst
  else if a < 0x60000 then .seq else if a < 0x70000 then .cap else if a < 0x78000 then .trg else if a < 0x90000 then .tmu
  else if a < 0xA0000 then .dsc else if a < 0xB0000 then .cmp else if a < 0xC0000 then .sch else if a < 0xD0000 then .hq
  else if a < 0xD8000 then .mfl else if a < 0xE0000 then .tim else if a < 0xE8000 then .dmc else if a < 0xF0000 then .sec
  else if a < 0xF0100 then .clk else if a < 0xF4000 then .pwr else if a < 0xF8000 then .cal else if a < 0x100000 then .flt
  else if a < 0x200000 then .tmg else .sym

/-- The reset word of a row of the register tables. -/
def RegDef.word (d : RegDef) : Nat := d.fields.foldl (fun n f => n + f.reset % 2 ^ f.width * 2 ^ f.lsb) 0

/-- The floor class of a fault source (R58, R419). [log 10: DEDUCED] -/
def floorOf (i : Nat) : Nat :=
  if i ≤ 2 then 4 else if i = 3 ∨ i = 6 ∨ i = 21 then 1 else if i = 23 then 3
  else if 32 ≤ i ∧ i < 48 then 4 else if 48 ≤ i ∧ i < 64 then 2 else 0

/-- Four bytes of a per-source table. -/
def bytesWord (f : Nat → Nat) (i : Nat) : Nat := f (4 * i) + 2 ^ 8 * f (4 * i + 1) + 2 ^ 16 * f (4 * i + 2) + 2 ^ 24 * f (4 * i + 3)

/-- Reset words the tables give in words instead of one number: the operating-point fuses of R23, the budgets of R123, the
empty structure's values (R42), the fault classes at their floors (R57, R58), and the masked MSI-X vectors.
[log 10: DEDUCED; log 40: PRESUMED; log 64: DESIGN CHOICE; log 139: DESIGN CHOICE] -/
def resetOverride (_b : Blk) (a : Nat) : Option Nat :=
  if a < 0x20000 then
    if 0x10180 ≤ a ∧ a < 0x101A0 then some 0xFFFFFFFF        -- STR_COPPICE_MAP: no coppice bound
    else if a = 0x101A0 then some (256 + 256 * 2 ^ 16)         -- STR_REGION: code
    else if a = 0x101A8 then some (64 + 64 * 2 ^ 16)           -- control
    else if a = 0x101C0 then some (1728 + 1728 * 2 ^ 16 + 2 * 2 ^ 28)  -- scratch, read and write
    else if 0x101A0 ≤ a ∧ a < 0x101C8 ∧ a % 8 = 4 then some 0xFFFFFFFF  -- STR_REGION_BANKS
    else if 0x10200 ≤ a ∧ a < 0x10240 then some 0xFF            -- STR_DSC: unbound
    else if 0x10280 ≤ a ∧ a < 0x102A4 then some 0xFFFFFFFF      -- STR_TMU_MAP, STR_TRG_MAP: the pool
    else if 0x10300 ≤ a ∧ a < 0x10380 then some 1               -- STR_PEIF: 400 mV swing, termination on
    else none
  else if 0x20040 ≤ a ∧ a < 0x20060 then                        -- FAB_OPP
    let n := (a - 0x20040) / 4
    some (550 + 50 * n + 2 ^ 10 * (250 * (n + 1)) + 2 ^ 21 * ((1040 + 240 * n) / 8))
  else if a = 0x30010 then some (4000 * 2 ^ 16) else if a = 0x30014 then some (1250 * 2 ^ 16)
  else if a = 0x30018 then some (375 * 2 ^ 16)
  else if 0xC4000 ≤ a ∧ a < 0xC5000 then (if a % 16 = 12 then some 1 else none)
  else if 0xF8100 ≤ a ∧ a < 0xF8200 then some (bytesWord floorOf ((a - 0xF8100) / 4))
  else if 0xF8200 ≤ a ∧ a < 0xF8300 then some (bytesWord floorOf ((a - 0xF8200) / 4))
  else if 0xE0100 ≤ a ∧ a < 0xE01C0 ∧ a % 0x20 = 0 then         -- DMC_PORT_CFG
    let p := (a - 0xE0100) / 0x20
    some ([0, 1000, 5000, 2000, 500, 2000].getD p 0 + 256 * 2 ^ 16 + (if p ≤ 1 then 2 ^ 31 else 0))
  else if a = 0xE8000 then some 1                               -- SEC_STATUS: UNPROVISIONED, as shipped (R441)
  else if 0xF0180 ≤ a ∧ a < 0xF01B8 then                        -- PWR_RAIL, PWR_RAIL_LIM
    let r := (a - 0xF0180) / 8
    if a % 8 = 0 then some ([550, 1100, 1200, 850, 1800, 1800, 900].getD r 0)
    else if a % 8 = 4 then some ([0x88, 0, 0, 0, 0, 0, 0xAA].getD r 0)
    else none
  else none

/-- The word a register of the window holds after module reset. [log 10: DEDUCED; log 11: DESIGN CHOICE] -/
def resetWord (b : Blk) (a : Nat) : Word :=
  BitVec.ofNat 32 (match resetOverride b a with
    | some n => n
    | none => match regDefAt b a with
      | some d => d.word
      | none => 0)

/-- The word a register holds. -/
def State.word (s : State) (b : Blk) (a : Nat) : Word := (cellGet a (s.regs.get b)).getD (resetWord b a)

/-- Replaces the word a register holds. -/
def State.setWord (s : State) (b : Blk) (a : Nat) (w : Word) : State :=
  { s with regs := s.regs.set (cellPut (resetWord b a) a w (s.regs.get b)) b }

/-- A field's value. -/
def State.rd (s : State) (f : Fld) : Nat := fieldOf (s.word f.blk f.addr).toNat f.lsb f.width

/-- Sets a field; bits beyond its width are dropped. -/
def State.wr (s : State) (f : Fld) (v : Nat) : State :=
  s.setWord f.blk f.addr (BitVec.ofNat 32 (setField (s.word f.blk f.addr).toNat f.lsb f.width v))

/-- Whether a one-bit field is 1. -/
def State.on (s : State) (f : Fld) : Bool := s.rd f == 1

/-- A field read as a signed number. -/
def State.rdS (s : State) (f : Fld) : Int := sx f.width (s.rd f)

/-- The word after a field's word. -/
def Fld.hi (f : Fld) : Fld := { f with addr := f.addr + 4 }

/-- The value of a low and high word pair (R5). -/
def State.rdP (s : State) (lo : Fld) : Nat := s.rd lo + 2 ^ 32 * s.rd lo.hi

/-- Sets a low and high word pair. -/
def State.wrP (s : State) (lo : Fld) (v : Nat) : State := (s.wr lo v).wr lo.hi (v / 2 ^ 32)

/-- Adds to a counter field, stopping at its largest value. -/
def State.incSat (s : State) (f : Fld) (k : Nat := 1) : State := s.wr f (min (s.rd f + k) (2 ^ f.width - 1))

/-- Adds to a counter field that wraps. -/
def State.incWrap (s : State) (f : Fld) (k : Nat := 1) : State := s.wr f (s.rd f + k)

/-- Sets several fields in turn. -/
def State.wrs (s : State) (l : List (Fld × Nat)) : State := l.foldl (fun s p => s.wr p.1 p.2) s

/-! ## Byte memories -/

/-- What an unlisted byte of a memory reads as. [log 1: DESIGN CHOICE] -/
def unlistedByte : Byte := 0

/-- One byte. [log 1: DESIGN CHOICE] -/
def Mem.byte (m : Mem) (a : Nat) : Byte := (cellGet a m).getD unlistedByte

/-- Writes one byte. -/
def Mem.put (m : Mem) (a : Nat) (b : Byte) : Mem := cellPut unlistedByte a b m

/-- The bytes from `a` on that a list whose first address is `a` or higher holds, one pass over it. -/
def takeBytes : Nat → Nat → Mem → List Byte
  | 0, _, _ => []
  | n + 1, _, [] => List.replicate (n + 1) unlistedByte
  | n + 1, a, (b, v) :: r => if b = a then v :: takeBytes n (a + 1) r else unlistedByte :: takeBytes n (a + 1) ((b, v) :: r)

/-- `n` bytes from `a` on. -/
def Mem.bytes (m : Mem) (a n : Nat) : List Byte := takeBytes n a (m.filter fun c => decide (a ≤ c.1))

/-- The cells of a byte string from `a` on that a memory lists. -/
def listed : Nat → List Byte → Mem
  | _, [] => []
  | a, b :: r => if b = unlistedByte then listed (a + 1) r else (a, b) :: listed (a + 1) r

/-- Writes a byte string from `a` on. -/
def Mem.puts (m : Mem) (a : Nat) (l : List Byte) : Mem :=
  (m.filter fun c => decide (c.1 < a)) ++ listed a l ++ m.filter fun c => decide (a + l.length ≤ c.1)

/-- Sets the bytes of a range to zero: they are no longer listed. -/
def Mem.clear (m : Mem) (a n : Nat) : Mem := m.filter fun c => decide (c.1 < a) || decide (a + n ≤ c.1)

/-- The canonical form of a byte memory. -/
abbrev Mem.wf (m : Mem) : Bool := cellsWf (fun _ => unlistedByte) 0 m

/-! ## Flash (R467) -/

/-- Bytes of the flash device. The list holds them complemented, so that what it does not list is erased: 0xFF. [log 1: DESIGN CHOICE] -/
def State.flashBytes (s : State) (a n : Nat) : List Byte := (Mem.bytes s.flash a n).map (255 - ·)

/-- Programs bytes. -/
def State.flashPuts (s : State) (a : Nat) (l : List Byte) : State := { s with flash := Mem.puts s.flash a (l.map (255 - ·)) }

/-- Erases a range. -/
def State.flashErase (s : State) (a n : Nat) : State := { s with flash := Mem.clear s.flash a n }

/-! ## Changing one unit -/

def State.modThread (s : State) (t : Fin 32) (f : Thread → Thread) : State := { s with threads := upd s.threads t f }
def State.modGrove (s : State) (g : Fin 32) (f : Grove → Grove) : State := { s with groves := upd s.groves g f }
def State.modChan (s : State) (c : Fin 128) (f : Chan → Chan) : State := { s with chans := upd s.chans c f }
def State.modCore (s : State) (c : Fin 8) (f : Core → Core) : State :=
  { s with sched := { s.sched with cores := upd s.sched.cores c f } }
def State.modQueue (s : State) (q : Fin 16) (f : QueuePair → QueuePair) : State :=
  { s with hq := { s.hq with queues := upd s.hq.queues q f } }

/-- The words returned to the requester by this command. [log 19: DESIGN CHOICE] -/
def State.answerWith (s : State) (l : List Nat) : State := { s with hq := { s.hq with answer := l } }

/-- The next free value, and the state that has counted it. [log 17: DESIGN CHOICE] -/
def State.takeFree (s : State) : Nat × State := (Config.free s.freeCtr, { s with freeCtr := s.freeCtr + 1 })

/-! ## Shared time (R346, R347, R351) -/

/-- Fractional units of one tick. -/
def tickFrac : Int := 2 ^ 40

/-- Shared time in units of 2^-40 tick (R347). -/
def Tim.nowFrac (t : Tim) : Int :=
  ((t.raw : Int) + t.offset) * tickFrac + t.acc + (t.rate + t.rateHo) * ((t.raw : Int) - t.changedAt)

/-- Shared time in whole ticks, 64 bits, truncated. -/
def State.now (s : State) : Nat := zx 64 (s.tim.nowFrac / tickFrac)

/-- The top 16 fractional bits of shared time. -/
def State.nowFrac16 (s : State) : Nat := zx 16 (s.tim.nowFrac / 2 ^ 24)

/-- The master count: four master ticks of 312.5 ps to a raw tick (R219, R346). -/
def State.master (s : State) : Nat := 4 * s.tim.raw

/-- Whether a shared-time point has been reached: the signed 48-bit difference is not negative (R351). -/
def reachedAt (now point : Nat) : Bool := decide (zx 48 ((now : Int) - point) < 2 ^ 47)

/-- Whether the present shared time has reached the point. -/
def State.reached (s : State) (point : Nat) : Bool := reachedAt s.now point

end Sys2Proof.Machine
end

