-- ==== Sys2Proof/Machine/Aes.lean ====
section
/-! DEFINITION. AES-256 (FIPS 197) and its counter and Galois modes, which R47, R133 and R134 name: bytes are numbers below
256, a block is a list of 16 of them. -/

namespace Sys2Proof.Machine

/-! ## The field of 256 elements -/

/-- Multiplication by x. -/
def gfDouble (a : Nat) : Nat := if 128 ≤ a then (2 * a) ^^^ 0x11B else 2 * a

/-- The product of two elements. -/
def gfMul (a b : Nat) : Nat :=
  ((List.range 8).foldl (fun (p : Nat × Nat) i => (if bitOf b i then p.1 ^^^ p.2 else p.1, gfDouble p.2)) (0, a)).1

/-- The inverse of an element, 0 for 0: its power 254. -/
def gfInv (a : Nat) : Nat :=
  ((List.range 7).foldl (fun (p : Nat × Nat) _ => (gfMul p.1 (gfMul p.2 p.2), gfMul p.2 p.2)) (1, a)).1

/-- The substitution of one byte. [log 15: PRESUMED] -/
def sbox (a : Nat) : Nat :=
  let x := gfInv a
  let rot := fun k : Nat => (x * 2 ^ k + x / 2 ^ (8 - k)) % 256
  x ^^^ rot 1 ^^^ rot 2 ^^^ rot 3 ^^^ rot 4 ^^^ 0x63

/-! ## The cipher -/

/-- The exclusive or of two byte strings, as long as the first. -/
def xorBytes (a b : List Nat) : List Nat := a.zipIdx.map fun p => p.1 ^^^ b.getD p.2 0

/-- The next word of the key schedule: `n` words stand already, the latest first. -/
def nextKeyWord (l : List (List Nat)) : List Nat :=
  let n := l.length
  let last := l.headD []
  let t :=
    if n % 8 = 0 then
      let w := (last.drop 1 ++ last.take 1).map sbox
      xorBytes w [2 ^ (n / 8 - 1)]
    else if n % 8 = 4 then last.map sbox else last
  xorBytes (l.getD 7 []) t

/-- The sixty words of the key schedule. -/
def keySchedule (key : List Nat) : List (List Nat) :=
  let first := (List.range 8).map fun i => (key.drop (4 * i)).take 4
  ((List.range 52).foldl (fun l _ => nextKeyWord l :: l) first.reverse).reverse

/-- The key of one round. -/
def roundKey (w : List (List Nat)) (r : Nat) : List Nat := ((w.drop (4 * r)).take 4).flatten

/-- Rows shifted: row r by r places. -/
def shiftRows (b : List Nat) : List Nat := (List.range 16).map fun i => b.getD ((i + 4 * (i % 4)) % 16) 0

/-- One column mixed. -/
def mixColumn (c : List Nat) : List Nat :=
  (List.range 4).map fun r =>
    let at_ := fun k : Nat => c.getD ((r + k) % 4) 0
    gfDouble (at_ 0) ^^^ gfDouble (at_ 1) ^^^ at_ 1 ^^^ at_ 2 ^^^ at_ 3

/-- Every column mixed. -/
def mixColumns (b : List Nat) : List Nat := (List.range 4).flatMap fun i => mixColumn ((b.drop (4 * i)).take 4)

/-- AES-256 of one block under a key of 32 bytes. [log 15: PRESUMED] -/
def aesBlock (key block : List Nat) : List Nat :=
  let w := keySchedule key
  let b := (List.range 13).foldl (fun b r => xorBytes (mixColumns (shiftRows (b.map sbox))) (roundKey w (r + 1))) (xorBytes block (roundKey w 0))
  xorBytes (shiftRows (b.map sbox)) (roundKey w 14)

/-! ## Keys and byte strings -/

/-- The bytes of a key that the key store holds as a number, and byte strings as lists of numbers. -/
def keyBytes (key : Nat) : List Nat := (bytesLE 32 key).map (·.toNat)
def natBytes (l : List Byte) : List Nat := l.map (·.toNat)
def toBytes (l : List Nat) : List Byte := l.map (BitVec.ofNat 8)

/-- The big-endian number a byte string spells. -/
def beOf (l : List Nat) : Nat := l.foldl (fun n b => 256 * n + b) 0

/-- The bytes of a number, most significant first. -/
def natBE (count n : Nat) : List Nat := ((List.range count).map fun i => n / 256 ^ i % 256).reverse

/-- The bytes that AES-256 in CTR mode puts out for one counter block of 16 bytes (R133, R134). [log 15: PRESUMED] -/
def aesCtrBlock (key : Nat) (counter : List Byte) : List Byte := toBytes (aesBlock (keyBytes key) (natBytes counter))

/-! ## Galois mode (R47) -/

/-- The product in the field of 2^128 elements of GCM, bit 127 the coefficient of 1. -/
def ghMul (x y : Nat) : Nat :=
  ((List.range 128).foldl (fun (p : Nat × Nat) i =>
    (if bitOf x (127 - i) then p.1 ^^^ p.2 else p.1, if p.2 % 2 = 1 then (p.2 / 2) ^^^ (0xE1 * 2 ^ 120) else p.2 / 2)) (0, y)).1

/-- The blocks of 16 bytes of a byte string, the last one filled with zeros. -/
def blocks16 (l : List Nat) : List (List Nat) :=
  (List.range ((l.length + 15) / 16)).map fun i => (((l.drop (16 * i)).take 16) ++ List.replicate 16 0).take 16

/-- GHASH over additional data and ciphertext. -/
def ghash (h : Nat) (aad ct : List Nat) : Nat :=
  let l := blocks16 aad ++ blocks16 ct ++ [natBE 8 (8 * aad.length) ++ natBE 8 (8 * ct.length)]
  l.foldl (fun y b => ghMul (y ^^^ beOf b) h) 0

/-- AES-256-GCM decryption under an initialization vector of 12 bytes: none where the tag does not match (R47). [log 15: PRESUMED] -/
def gcmDecrypt (key : Nat) (iv aad ciphertext tag : List Byte) : Option (List Byte) :=
  let k := keyBytes key
  let h := beOf (aesBlock k (List.replicate 16 0))
  let ctr := fun n : Nat => aesBlock k (natBytes iv ++ natBE 4 n)
  let ct := natBytes ciphertext
  let t := xorBytes (natBE 16 (ghash h (natBytes aad) ct)) (ctr 1)
  if t = natBytes tag then
    some (toBytes (xorBytes ct ((List.range ((ct.length + 15) / 16)).flatMap fun i => ctr (i + 2))))
  else none

end Sys2Proof.Machine
end

