-- ==== Sys2Proof/Machine/Crypto.lean ====
section
/-! DEFINITION. The other algorithms of R449: SHA-384, HMAC-SHA-384, ECDSA and ECDH over P-384, and the one-step key derivation
of R452. Digests, coordinates and integers stand in byte strings most significant byte first, as their standards write them. -/

namespace Sys2Proof.Machine

/-! ## SHA-384 (FIPS 180-4) -/

/-- The eighty constants of the rounds: the first 64 fraction bits of the cube roots of the first eighty primes. -/
def shaK0 : List Nat :=
  [0x428A2F98D728AE22, 0x7137449123EF65CD, 0xB5C0FBCFEC4D3B2F, 0xE9B5DBA58189DBBC,
   0x3956C25BF348B538, 0x59F111F1B605D019, 0x923F82A4AF194F9B, 0xAB1C5ED5DA6D8118,
   0xD807AA98A3030242, 0x12835B0145706FBE, 0x243185BE4EE4B28C, 0x550C7DC3D5FFB4E2,
   0x72BE5D74F27B896F, 0x80DEB1FE3B1696B1, 0x9BDC06A725C71235, 0xC19BF174CF692694]

/-- Sixteen more. -/
def shaK1 : List Nat :=
  [0xE49B69C19EF14AD2, 0xEFBE4786384F25E3, 0x0FC19DC68B8CD5B5, 0x240CA1CC77AC9C65,
   0x2DE92C6F592B0275, 0x4A7484AA6EA6E483, 0x5CB0A9DCBD41FBD4, 0x76F988DA831153B5,
   0x983E5152EE66DFAB, 0xA831C66D2DB43210, 0xB00327C898FB213F, 0xBF597FC7BEEF0EE4,
   0xC6E00BF33DA88FC2, 0xD5A79147930AA725, 0x06CA6351E003826F, 0x142929670A0E6E70]

/-- Sixteen more. -/
def shaK2 : List Nat :=
  [0x27B70A8546D22FFC, 0x2E1B21385C26C926, 0x4D2C6DFC5AC42AED, 0x53380D139D95B3DF,
   0x650A73548BAF63DE, 0x766A0ABB3C77B2A8, 0x81C2C92E47EDAEE6, 0x92722C851482353B,
   0xA2BFE8A14CF10364, 0xA81A664BBC423001, 0xC24B8B70D0F89791, 0xC76C51A30654BE30,
   0xD192E819D6EF5218, 0xD69906245565A910, 0xF40E35855771202A, 0x106AA07032BBD1B8]

/-- Sixteen more. -/
def shaK3 : List Nat :=
  [0x19A4C116B8D2D0C8, 0x1E376C085141AB53, 0x2748774CDF8EEB99, 0x34B0BCB5E19B48A8,
   0x391C0CB3C5C95A63, 0x4ED8AA4AE3418ACB, 0x5B9CCA4F7763E373, 0x682E6FF3D6B2B8A3,
   0x748F82EE5DEFB2FC, 0x78A5636F43172F60, 0x84C87814A1F0AB72, 0x8CC702081A6439EC,
   0x90BEFFFA23631E28, 0xA4506CEBDE82BDE9, 0xBEF9A3F7B2C67915, 0xC67178F2E372532B]

/-- Sixteen more. -/
def shaK4 : List Nat :=
  [0xCA273ECEEA26619C, 0xD186B8C721C0C207, 0xEADA7DD6CDE0EB1E, 0xF57D4F7FEE6ED178,
   0x06F067AA72176FBA, 0x0A637DC5A2C898A6, 0x113F9804BEF90DAE, 0x1B710B35131C471B,
   0x28DB77F523047D84, 0x32CAAB7B40C72493, 0x3C9EBE0A15C9BEBC, 0x431D67C49C100D4C,
   0x4CC5D4BECB3E42B6, 0x597F299CFC657E2A, 0x5FCB6FAB3AD6FAEC, 0x6C44198C4A475817]

/-- The constant of each round. -/
def shaK : List Nat := shaK0 ++ shaK1 ++ shaK2 ++ shaK3 ++ shaK4

/-- The state before the first block. -/
def shaInit : List Nat :=
  [0xCBBB9D5DC1059ED8, 0x629A292A367CD507, 0x9159015A3070DD17, 0x152FECD8F70E5939,
   0x67332667FFC00B31, 0x8EB44A8768581511, 0xDB0C2E0D64F98FA7, 0x47B5481DBEFA4FA4]

/-- A 64-bit word rotated right. -/
def rotr64 (x k : Nat) : Nat := x / 2 ^ k ||| x * 2 ^ (64 - k) % 2 ^ 64

/-- The next word of the message schedule: the words so far, latest first. -/
def shaNext (l : List Nat) : Nat :=
  let a := l.getD 14 0
  let b := l.getD 1 0
  ((rotr64 b 19 ^^^ rotr64 b 61 ^^^ b / 2 ^ 6) + l.getD 6 0 + (rotr64 a 1 ^^^ rotr64 a 8 ^^^ a / 2 ^ 7) + l.getD 15 0) % 2 ^ 64

/-- The eighty words of the schedule of one block of 128 bytes. -/
def shaSchedule (block : List Nat) : List Nat :=
  let first := (List.range 16).map fun i => beOf ((block.drop (8 * i)).take 8)
  ((List.range 64).foldl (fun l _ => shaNext l :: l) first.reverse).reverse

/-- One round over the working words a to h, under its constant and its word. -/
def shaRound (v : List Nat) (kw : Nat) : List Nat :=
  match v with
  | [a, b, c, d, e, f, g, h] =>
    let t1 := h + (rotr64 e 14 ^^^ rotr64 e 18 ^^^ rotr64 e 41) + ((e &&& f) ^^^ ((2 ^ 64 - 1 - e) &&& g)) + kw
    let t2 := (rotr64 a 28 ^^^ rotr64 a 34 ^^^ rotr64 a 39) + ((a &&& b) ^^^ (a &&& c) ^^^ (b &&& c))
    [(t1 + t2) % 2 ^ 64, a, b, c, (d + t1) % 2 ^ 64, e, f, g]
  | _ => v

/-- The state after one block. -/
def shaBlock (h block : List Nat) : List Nat :=
  let v := (List.zipWith (· + ·) shaK (shaSchedule block)).foldl shaRound h
  List.zipWith (fun x y => (x + y) % 2 ^ 64) h v

/-- A message with its closing bit, zeros and its length in bits, in whole blocks. -/
def shaPad (m : List Nat) : List Nat :=
  m ++ 0x80 :: List.replicate ((239 - m.length % 128) % 128) 0 ++ natBE 16 (8 * m.length)

/-- The digest of a byte string, its 48 bytes. [log 15: PRESUMED] -/
def sha384Bytes (m : List Nat) : List Nat :=
  let l := shaPad m
  let h := (List.range (l.length / 128)).foldl (fun h i => shaBlock h ((l.drop (128 * i)).take 128)) shaInit
  (h.flatMap (natBE 8)).take 48

/-- The digest as a register bank holds it: the number whose bytes, least significant first, are the digest's. [log 15: PRESUMED] -/
def sha384 (m : List Byte) : Nat := ofBytesLE (toBytes (sha384Bytes (natBytes m)))

/-- HMAC-SHA-384 under a key of at most 128 bytes (FIPS 198-1). [log 15: PRESUMED] -/
def hmac384 (key msg : List Nat) : List Nat :=
  let pad := fun b : Nat => (key ++ List.replicate (128 - key.length) 0).map (b ^^^ ·)
  sha384Bytes (pad 0x5C ++ sha384Bytes (pad 0x36 ++ msg))

/-! ## P-384 -/

/-- The prime of the field. -/
def p384Prime : Nat := 2 ^ 384 - 2 ^ 128 - 2 ^ 96 + 2 ^ 32 - 1
/-- The order of the group. -/
def p384Order : Nat := 0xFFFFFFFFFFFFFFFFFFFFFFFFFFFFFFFFFFFFFFFFFFFFFFFFC7634D81F4372DDF581A0DB248B0A77AECEC196ACCC52973
/-- The coefficient b of the curve y² = x³ − 3x + b. -/
def p384B : Nat := 0xB3312FA7E23EE7E4988E056BE3F82D19181D9C6EFE8141120314088F5013875AC656398D8A2ED19D2A85C8EDD3EC2AEF
/-- A point: none is the point at infinity. -/
abbrev Point := Option (Nat × Nat)
/-- The base point. -/
def p384Base : Point := some
  (0xAA87CA22BE8B05378EB1C71EF320AD746E1D3B628BA79B9859F741E082542A385502F25DBF55296C3A545E3872760AB7,
   0x3617DE4A96262C6F5D9E98BF9292DC29F8F41DBD289A147CE9DA3113B5F0B8C00A60B1CE1D7E819D7A431D7C90EA0E5F)

/-- A power modulo a prime of at most 384 bits. -/
def powMod (a e q : Nat) : Nat :=
  ((List.range 384).foldl (fun (r : Nat × Nat) i => (if bitOf e i then r.1 * r.2 % q else r.1, r.2 * r.2 % q)) (1, a % q)).1

/-- The inverse modulo a prime, 0 for 0. -/
def invMod (a q : Nat) : Nat := powMod a (q - 2) q

/-- The difference modulo a number above both. -/
def subMod (a b q : Nat) : Nat := (a + q - b) % q

/-- The sum of two points of the curve. -/
def pointAdd (a b : Point) : Point :=
  match a, b with
  | none, _ => b
  | _, none => a
  | some (x1, y1), some (x2, y2) =>
    let q := p384Prime
    if x1 = x2 ∧ (y1 + y2) % q = 0 then none
    else
      let l := if x1 = x2 then subMod (3 * x1 * x1 % q) 3 q * invMod (2 * y1) q % q
        else subMod y2 y1 q * invMod (subMod x2 x1 q) q % q
      let x := subMod (subMod (l * l % q) x1 q) x2 q
      some (x, subMod (l * subMod x1 x q % q) y1 q)

/-- The multiple of a point by a number of 384 bits. -/
def pointMul (k : Nat) (a : Point) : Point :=
  ((List.range 384).foldl (fun (r : Point × Point) i => (if bitOf k i then pointAdd r.1 r.2 else r.1, pointAdd r.2 r.2)) (none, a)).1

/-- The point that 96 bytes spell, X then Y: none where it is not on the curve. -/
def pointOf (l : List Nat) : Point :=
  let q := p384Prime
  let x := beOf (l.take 48)
  let y := beOf ((l.drop 48).take 48)
  if l.length = 96 ∧ x < q ∧ y < q ∧ y * y % q = (x * x * x + (q - 3) * x + p384B) % q then some (x, y) else none

/-- The bytes of a point, X then Y; zeros for the point at infinity. -/
def pointBytes (a : Point) : List Nat :=
  match a with
  | some (x, y) => natBE 48 x ++ natBE 48 y
  | none => List.replicate 96 0

/-- The public half of a private key, as the number of its 96 bytes. [log 15: PRESUMED] -/
def publicKey (d : Nat) : Nat := ofBytesLE (toBytes (pointBytes (pointMul d p384Base)))

/-! ## ECDSA (FIPS 186-5) -/

/-- The number an ECDSA signature signs: the digest, whose length is the order's. -/
def ecdsaHash (msg : List Byte) : Nat := beOf (sha384Bytes (natBytes msg))

/-- Whether a signature, r then s, verifies over SHA-384 of a message under the public key whose 96 bytes `key` numbers.
[log 15: PRESUMED] -/
def ecdsaVerify (key : Nat) (msg sig : List Byte) : Bool :=
  let n := p384Order
  let r := beOf (natBytes (sig.take 48))
  let s := beOf (natBytes ((sig.drop 48).take 48))
  match pointOf (natBytes (bytesLE 96 key)) with
  | none => false
  | some q =>
    decide (sig.length = 96) && decide (0 < r) && decide (r < n) && decide (0 < s) && decide (s < n) &&
      let w := invMod s n
      match pointAdd (pointMul (ecdsaHash msg * w % n) p384Base) (pointMul (r * w % n) (some q)) with
      | none => false
      | some v => v.1 % n == r

/-- The signature of a message by a private key, r then s; the secret number of one signature is the module's own. [log 15: PRESUMED] -/
def ecdsaSign (d : Nat) (msg : List Byte) : List Byte :=
  let n := p384Order
  let k := Config.signSecret d msg % (n - 1) + 1
  let r := ((pointMul k p384Base).getD (0, 0)).1 % n
  toBytes (natBE 48 r ++ natBE 48 (invMod k n * (ecdsaHash msg + r * d) % n))

/-! ## Keys (R451, R452) -/

/-- A private key the module generates: a number from 1 to n − 1. [log 15: PRESUMED] -/
def privateKey (k : Nat) : Nat := Config.generatedKey k % (p384Order - 1) + 1

/-- The identity key: d = (HMAC-SHA-384(device secret, "QH-DEVID" ‖ SERIAL) mod (n − 1)) + 1. [log 15: PRESUMED] -/
def identityKey : Nat :=
  let msg := [0x51, 0x48, 0x2D, 0x44, 0x45, 0x56, 0x49, 0x44] ++ natBytes (bytesLE 8 Config.serial)
  beOf (hmac384 (natBytes (bytesLE 48 Config.deviceSecret)) msg) % (p384Order - 1) + 1

/-- K = SHA-384(1 ‖ Z ‖ FixedInfo), Z the x-coordinate of the shared point: key-encryption key 0 to 31, initialization vector
32 to 43. -/
def kdf (z : Nat) (info : List Nat) : List Nat := sha384Bytes (natBE 4 1 ++ natBE 48 z ++ info)

/-- The 256-bit key a transport carries to a private key: X and Y lead the block, the wrapped key and its tag end it. None where
the point is not on the curve or the tag does not verify. [log 15: PRESUMED] -/
def keyUnwrap (d : Nat) (info aad block : List Byte) : Option Nat :=
  let l := natBytes block
  match pointOf (l.take 96) with
  | none => none
  | some q =>
    match pointMul d (some q) with
    | none => none
    | some z =>
      let k := toBytes (kdf z.1 (natBytes info))
      let e := block.drop (block.length - 48)
      (gcmDecrypt (ofBytesLE (k.take 32)) ((k.drop 32).take 12) aad (e.take 32) (e.drop 32)).map ofBytesLE

end Sys2Proof.Machine
end

