-- ==== Sys2Proof/Machine/Flags.lean ====
section
/-! DEFINITION. Every flag computation the blocks share: raising event bits (R513), MSI-X vectors (R329), operand fills of
the scheduler (R292), non-maskable causes of the cores (R302), completions (R316) and posted-write fault records (R327). -/

namespace Sys2Proof.Machine

/-! ## MSI-X (R329) -/

/-- The vector control word of an MSI-X table entry: bit 0 masks the vector. [log 40: PRESUMED] -/
def msixCtrl (v : Nat) : Fld := ⟨.hq, 0xC4000 + 16 * v + 12, 0, 1⟩

/-- The PCI Express endpoint is in reset: by PERST, or since REFCLK was absent at reset (R387, R498). [log 116: DEDUCED] -/
def State.epReset (s : State) : Bool := s.hq.perst || s.clk.absent

/-- Makes a vector pending: its message is sent, or held while the vector is masked, the function is in D3hot or the
endpoint in reset. A completion vector's message signals every entry written before it (R330). -/
def State.signal (s : State) (v : Nat) : State :=
  if s.on (msixCtrl v) || s.hq.d3 || s.epReset then { s with hq := { s.hq with vecPending := s.hq.vecPending ||| 2 ^ v } }
  else if h : v < 33 then
    let s : State := { s with hq := { s.hq with sent := upd s.hq.sent ⟨v, h⟩ (· + 1) } }
    if q : v < 16 then { s with hq := { s.hq with queues := upd s.hq.queues ⟨v, q⟩ fun k => { k with unsignalled := 0 } } }
    else s
  else s

/-- Sends the messages of pending vectors that nothing holds any more. -/
def State.sendPending (s : State) : State :=
  (List.range 33).foldl (fun s v =>
    if bitOf s.hq.vecPending v && !s.on (msixCtrl v) && !s.hq.d3 && !s.epReset then
      { s with hq := { s.hq with vecPending := without s.hq.vecPending (2 ^ v) } }.signal v
    else s) s

/-! ## The event registers (R513) -/

/-- An event register: its address (the enable register is the next word), its MSI-X vector (R329), and the block code
and index of its scheduler source (R290), which SCH_EVENT and HQ_EVENT do not have. -/
structure EvReg where
  blk  : Blk
  ev   : Nat
  vec  : Nat
  code : Option (Nat × Nat)
  deriving DecidableEq, Repr

namespace Ev
def fab : EvReg := ⟨.fab, 0x2001C, 16, some (0, 0)⟩
def str : EvReg := ⟨.str, 0x10050, 17, some (1, 0)⟩
def sym : EvReg := ⟨.sym, 0x280000, 18, some (2, 0)⟩
def seq (t : Nat) : EvReg := ⟨.seq, 0x40028 + 0x800 * t, 18, some (3, t)⟩
def seqG : EvReg := ⟨.seq, 0x5000C, 18, some (4, 0)⟩
def tmg : EvReg := ⟨.tmg, 0x1F0008, 18, some (5, 0)⟩
def frst : EvReg := ⟨.fst, 0x30020, 20, some (6, 0)⟩
def strm (t : Nat) : EvReg := ⟨.hq, 0xC8028 + 0x40 * t, 19, some (7, t)⟩
def cap : EvReg := ⟨.cap, 0x60000, 21, some (8, 0)⟩
def trg (e : Nat) : EvReg := ⟨.trg, 0x7006C + 0x100 * e, 22, some (9, e)⟩
def tmu (u : Nat) : EvReg := ⟨.tmu, 0x78034 + 0x80 * u, 22, some (10, u)⟩
def tmuG : EvReg := ⟨.tmu, 0x7C010, 22, some (11, 0)⟩
def dsc (d : Nat) : EvReg := ⟨.dsc, 0x9003C + 0x800 * d, 23, some (12, d)⟩
def cmp (d : Nat) : EvReg := ⟨.cmp, 0xA003C + 0x100 * d, 23, some (13, d)⟩
def mfl (l : Nat) : EvReg := ⟨.mfl, 0xD011C + 0x100 * l, 27, some (14, l)⟩
def tim : EvReg := ⟨.tim, 0xD803C, 28, some (15, 0)⟩
def dmc : EvReg := ⟨.dmc, 0xE0018, 29, some (16, 0)⟩
def clk : EvReg := ⟨.clk, 0xF0014, 30, some (17, 0)⟩
def pwr : EvReg := ⟨.pwr, 0xF0110, 30, some (18, 0)⟩
def cal : EvReg := ⟨.cal, 0xF400C, 31, some (19, 0)⟩
def flt : EvReg := ⟨.flt, 0xF8008, 26, some (20, 0)⟩
def sec : EvReg := ⟨.sec, 0xE8008, 32, some (21, 0)⟩
def glb : EvReg := ⟨.glb, 0x154, 30, some (22, 0)⟩
def sch : EvReg := ⟨.sch, 0xB1004, 24, none⟩
def hq : EvReg := ⟨.hq, 0xC000C, 25, none⟩
end Ev

/-- The event register as a whole word. -/
def EvReg.bits (r : EvReg) : Fld := ⟨r.blk, r.ev, 0, 32⟩

/-- The enable register as a whole word. -/
def EvReg.enable (r : EvReg) : Fld := ⟨r.blk, r.ev + 4, 0, 32⟩

/-! ## Operand fills (R292) -/

/-- Whether every operand slot of a task is filled. -/
def Task.full (t : Task) : Bool := t.slots.all Option.isSome

/-- Fills the unfilled slots that name the source. -/
def Task.fill (src value : Nat) (t : Task) : Task :=
  let slots := t.slots.zipIdx.map fun p =>
    if p.1 = none ∧ t.srcs.getD p.2 0 = src then some (value % 2 ^ 64) else p.1
  let t := { t with slots := slots }
  if t.full then { t with state := .ready } else t

/-- Whether an unfilled slot of the task names the source. -/
def Task.wants (src : Nat) (t : Task) : Bool :=
  decide (t.state = .waiting) && t.slots.zipIdx.any fun p => decide (p.1 = none) && decide (t.srcs.getD p.2 0 = src)

/-- IN_SERVICE, whatever the core. -/
def TaskState.served : TaskState → Bool
  | .inService _ => true
  | _ => false

/-- An item is dispatchable when it is READY, stands first in its flow, and no item of the flow is IN_SERVICE (R297);
the resume task of R301 overtakes the items of its flow. -/
def dispatchable (l : List Task) (t : Task) : Bool :=
  decide (t.state = .ready) && !(l.any fun u => decide (u.flow = t.flow) && u.state.served)
    && (t.resume || decide ((l.find? fun u => decide (u.flow = t.flow)) = some t))

/-- Notes the instant at which items became dispatchable (R298). -/
def Sched.refresh (c : Sched) : Sched :=
  let note := fun t : Task =>
    if dispatchable c.tasks t then (if t.since = none then { t with since := some c.clock } else t)
    else { t with since := none }
  { c with tasks := c.tasks.map note, clock := c.clock + 1 }

/-- A scheduler source of a class and key (R290). -/
def srcOf (cls key : Nat) : Nat := cls % 64 + 64 * (key % 1024)

/-- Sets event bits of the scheduler's own event register, which has a vector and no block code. -/
def State.raiseSch (s : State) (bits : Nat) : State :=
  let old := s.rd Ev.sch.bits
  let s' := s.wr Ev.sch.bits (old ||| bits)
  if without bits old &&& s.rd Ev.sch.enable = 0 then s' else s'.signal Ev.sch.vec

/-- One occurrence of a scheduler source: every unfilled slot of a WAITING task that names it takes the value; an
occurrence that no slot takes is counted (R292). -/
def State.occurrence (s : State) (cls key value : Nat) : State :=
  let src := srcOf cls key
  if s.sched.tasks.any (Task.wants src) then
    let fill := fun t : Task => if t.wants src then t.fill src value else t
    { s with sched := { s.sched with tasks := s.sched.tasks.map fill }.refresh }
  else (s.incSat F.SCH_UNCLAIMED_COUNT).raiseSch (2 ^ 3)

/-- What raised bits of an event register do: one vector, one occurrence of class BLOCK (R513). -/
def State.raised (s : State) (r : EvReg) (bits : Nat) : State :=
  if bits = 0 then s
  else match r.code with
    | some (c, i) => (s.signal r.vec).occurrence 6 (i + 32 * c) bits
    | none => s.signal r.vec

/-- The hardware sets event bits; those that were 0 and are enabled are raised (R513). -/
def State.raise (s : State) (r : EvReg) (bits : Nat) : State :=
  let old := s.rd r.bits
  (s.wr r.bits (old ||| bits)).raised r (without bits old &&& s.rd r.enable)

/-- Sets one event bit. -/
def State.event (s : State) (r : EvReg) (bit : Nat) : State := s.raise r (2 ^ bit)

/-- A write of an enable register raises the bits it enables whose event bits are already 1 (R513). [log 125: DEDUCED] -/
def State.writeEnable (s : State) (r : EvReg) (v : Nat) : State :=
  let old := s.rd r.enable
  (s.wr r.enable v).raised r (without v old &&& s.rd r.bits)

/-! ## Non-maskable causes (R302) -/

/-- The Canopy's place in a core's address map (R282). -/
def canopyCoreBase : Nat := 0x10000000

/-- Delivers a cause to a core: it is collected, and the first one makes the core take a non-maskable interrupt, which
abandons a blocked take load (R300). [log 128: PRESUMED] -/
def State.nmi (s : State) (c : Fin 8) (bit : Nat) : State :=
  let old := s.rd (F.SCH_NMI_CAUSE_CAUSE c)
  let s := s.wr (F.SCH_NMI_CAUSE_CAUSE c) (old ||| 2 ^ bit)
  if old ≠ 0 then s
  else s.modCore c fun k =>
    { k with blocked := none, inNmi := true, mepc := k.pc, mcause := 2 ^ 63 + 24, mppMachine := k.machineMode,
             mpie := k.mie, mie := false, machineMode := true,
             pc := canopyCoreBase + s.rd (F.SCH_NMI_VEC_OFFSET c) / 2 * 2 }

/-- Delivers a cause to every core. -/
def State.nmiAll (s : State) (bit : Nat) : State := (allFin 8).foldl (fun s c => s.nmi c bit) s

/-! ## Completions (R315 to R317) -/

/-- Completion statuses of R323. -/
abbrev stOk : Nat := 0x00
abbrev stBadOpcode : Nat := 0x40
abbrev stBadOperand : Nat := 0x41
abbrev stTagInUse : Nat := 0x42
abbrev stRoleDenied : Nat := 0x43
abbrev stHostReadFailed : Nat := 0x44
abbrev stReloading : Nat := 0x45
abbrev stClearing : Nat := 0x46
abbrev stAlreadyEnded : Nat := 0x47
abbrev stNoSuchBurst : Nat := 0x48
abbrev stNotStarted : Nat := 0x60
abbrev stPartial : Nat := 0x61

/-- Whether two headers name the same queue, tag and epoch. -/
def sameHdr (a b : Hdr) : Bool := decide (a.q = b.q) && decide (a.tag = b.tag) && decide (a.epoch = b.epoch)

/-- A command completes: its completion joins those that wait to be written, in the order of completion (R316). [log 38: DESIGN CHOICE] -/
def State.complete (s : State) (h : Hdr) (status : Nat) (detail result : Nat := 0) (intake : Bool := false) : State :=
  { s with hq := { s.hq with compls := s.hq.compls ++ [⟨h, status, detail, result, intake⟩] } }

/-- A completion for a command that may have come in on another port. -/
def State.completeP (s : State) (p : Port) (status : Nat) (detail result : Nat := 0) : State :=
  match p with
  | .host h => s.complete h status detail result
  | .sideband => s.answerWith [status, result, detail]

/-- The 15 bits of a tag and an epoch as records and entries hold them (R312). -/
def idBits (tag epoch : Nat) : Nat := tag % 512 + 512 * (epoch % 64)

/-! ## Posted-write faults (R327) -/

/-- Records one posted-write fault, or counts it as lost with the FIFO full. [log 133: DESIGN CHOICE] -/
def State.pwFault (s : State) (r : Pwf) : State :=
  let s := s.incWrap F.HQ_PWF_CNT_COUNT
  if s.hq.pwf.length < 16 then { s with hq := { s.hq with pwf := s.hq.pwf ++ [{ r with stamp := s.now }] } }.raise Ev.hq 2
  else (s.incSat F.HQ_PWF_CNT_LOST).raise Ev.hq 6

/-- A posted write retires without fault (R328). -/
def State.retire (s : State) : State := s.incWrap F.HQ_WSEQ_COUNT

end Sys2Proof.Machine
end

