-- ==== Sys2Proof/Machine/Bindings.lean ====
section
/-! DEFINITION. What the structure in force binds (R48 to R54), who may begin (R313, R446), and where the Forester finds
room (R137, R140, R152). -/

namespace Sys2Proof.Machine

/-- Switching frequency of a DSC in kHz, and samples per period (R240). -/
def State.fsw (s : State) (d : Fin 16) : Nat := s.rd (F.DSC_IMG_F_SW d)
def State.smul (s : State) (d : Fin 16) : Nat := if s.on (F.DSC_CFG_SMUL d) ∧ 2 * s.fsw d ≤ 8000 then 2 else 1

/-- A channel of a coppice that a structure load holds at high impedance (R66, R88). -/
def State.coppiceHeld (s : State) (c : Fin 128) : Bool := bitOf s.str.held (c.1 / 4)

/-! ## Levels over time (R207, R208) -/

/-- The entries of a history, latest first, that reach back a span from an instant, and the one in force before them; of MARK and SEGS
the span is 2^27 LSB, twice the longest sample interval of R203. -/
def keepSpan {α : Type} (t span : Int) (l : List (Int × α)) : List (Int × α) :=
  let late := fun x : Int × α => decide (t - span ≤ x.1)
  l.takeWhile late ++ (l.dropWhile late).take 1

/-- What a history, latest first, says at an instant. -/
def levelAt {α : Type} (base : α) (l : List (Int × α)) (t : Int) : α := ((l.find? fun x => decide (x.1 ≤ t)).map (·.2)).getD base

/-- MARK and SEGS from an instant on join a grove's history where they change. -/
def noteMark (t : Int) (mark : Nat) (segs : Bool) (l : List (Int × Nat × Bool)) : List (Int × Nat × Bool) :=
  if (l.head?.map (·.2)).getD (0, false) = (mark, segs) then l else (t, mark, segs) :: keepSpan t (2 ^ 27) l

/-! ## The structure's bindings -/

def State.bound (s : State) (g : Fin 32) : Bool := s.on (F.STR_GROVE_BOUND g)
def State.linked (s : State) (g : Fin 32) : Bool := s.on (F.STR_GROVE_LINKED g)
def State.bcast (s : State) (g : Fin 32) : Bool := s.on (F.STR_GROVE_BCAST g)
def State.hiz (s : State) (g : Fin 32) : Bool := s.on (F.STR_GROVE_URUN_STATE g)
def State.urunAbort (s : State) (g : Fin 32) : Bool := s.on (F.STR_GROVE_URUN_POLICY g)
/-- The thread that serves a grove (R50, R156). -/
def State.threadOf (s : State) (g : Fin 32) : Fin 32 := fin 32 (s.rd (F.STR_GROVE_THREAD g))
def State.mux (s : State) (g : Fin 32) : Bool := s.rd (F.STR_GROVE_WIDTH g) == 3
/-- Symbol bits of a channel in one cycle (R48). -/
def State.widthBits (s : State) (g : Fin 32) : Nat := 2 ^ s.rd (F.STR_GROVE_WIDTH g)
/-- The grove of a coppice, or none (R49). -/
def State.groveOfCoppice (s : State) (k : Fin 32) : Option (Fin 32) :=
  let b := fieldOf (s.rd (F.STR_COPPICE_MAP_MAP (k.1 / 4))) (8 * (k.1 % 4)) 8
  if h : b < 32 then some ⟨b, h⟩ else none
/-- The grove of a channel; coppice k holds channels 4k to 4k + 3. -/
def State.groveOfChan (s : State) (c : Fin 128) : Option (Fin 32) := s.groveOfCoppice (fin 32 (c.1 / 4))
/-- The channels of a grove in the order of the grove channel index (R49). -/
def State.chansOf (s : State) (g : Fin 32) : List (Fin 128) := (allFin 128).filter fun c => s.groveOfChan c == some g
/-- The groves named by a mask, in ascending order. -/
def grovesIn (m : Nat) : List (Fin 32) := (allFin 32).filter fun g => bitOf m g.1
/-- The groves a thread serves, as a mask. -/
def State.served (s : State) (t : Fin 32) : Nat :=
  maskOf (((allFin 32).filter fun g => s.bound g && s.threadOf g == t).map (·.1))
/-- The members of the broadcast group of a grove, as a mask; the grove alone where it is in no group. -/
def State.groupOf (s : State) (g : Fin 32) : Nat :=
  if s.bcast g then
    maskOf (((allFin 32).filter fun k =>
      s.bound k && s.bcast k && s.rd (F.STR_GROVE_GROUP k) == s.rd (F.STR_GROVE_GROUP g)).map (·.1))
  else 2 ^ g.1
/-- The link entry of a linked grove (R51). -/
def State.linkOf (s : State) (g : Fin 32) : Option (Fin 8) :=
  (allFin 8).find? fun l => s.rd (F.STR_LINK_MODULES l) != 0 && s.rd (F.STR_LINK_GROVE l) == g.1
/-- Position of this module in a linked grove; 0 leads (R51). -/
def State.position (s : State) (g : Fin 32) : Nat :=
  match s.linkOf g with
  | some l => s.rd (F.STR_LINK_POSITION l)
  | none => 0
/-- Payload granule bytes of a grove: 8 × C × W (R70). -/
def State.granBytes (s : State) (g : Fin 32) : Nat := 8 * (s.chansOf g).length * s.widthBits g
/-- The grove a DSC serves, or none (R53). -/
def State.groveOfDsc (s : State) (d : Fin 16) : Option (Fin 32) :=
  let b := s.rd (F.STR_DSC_GROVE d)
  if h : b < 32 then some ⟨b, h⟩ else none
/-- The DSCs of a grove. -/
def State.dscsOf (s : State) (g : Fin 32) : List (Fin 16) := (allFin 16).filter fun d => s.groveOfDsc d == some g

/-! ## Module states that many rules ask about -/

/-- A structure reload is in progress: the loader is in STAGING to APPLYING (R63). -/
def State.reloading (s : State) : Bool := decide (2 ≤ s.rd F.STR_STATUS_STATE)
/-- FIREBREAK or CLEARING, or FATAL, where R424 lets commands complete as in the clearing state (R326). -/
def State.clearing (s : State) : Bool := s.rd F.FLT_STATUS_STATE != 0
/-- The burst that holds a grove, from Declared to Ended (R10). -/
def State.burstOf (s : State) (g : Fin 32) : Option Burst := s.bursts.find? fun b => bitOf b.ops.groves g.1
/-- The grove is in no burst stage from Declared to Ended. -/
def State.groveIdle (s : State) (g : Fin 32) : Bool := (s.burstOf g).isNone
/-- The burst of a tag and epoch (R318). -/
def State.burstBy (s : State) (tag epoch : Nat) : Option Burst :=
  s.bursts.find? fun b => decide (b.hdr.tag = tag) && decide (b.hdr.epoch = epoch)
/-- Changes the burst of a tag and epoch. -/
def State.modBurst (s : State) (tag epoch : Nat) (f : Burst → Burst) : State :=
  { s with bursts := s.bursts.map fun b => if b.hdr.tag = tag ∧ b.hdr.epoch = epoch then f b else b }
/-- Cycles, samples and stamps are unreferenced from the freeze until the return is complete (R384, R385). [log 67: DEDUCED] -/
def State.unref (s : State) : Bool := s.on F.TMG_STATUS_UNREF

/-- A security option in force (R59): 0 PLUGINS, 1 PAYLOAD_CLEAR and so on. -/
def State.secOpt (s : State) (bit : Nat) : Bool := bitOf (s.rd F.STR_SECOPT_OPTIONS) bit

/-- The content key of a slot (R451). -/
def State.contentKey (s : State) (slot : Nat) : Option Nat := cellGet slot s.sec.keys

/-! ## A command begins (R313, R315) -/

/-- The accepted command of a header and opcode that nothing has been done with yet. -/
def State.acceptedCmd (s : State) (h : Hdr) (opc : Nat) : Option InFlight :=
  s.hq.inFlight.find? fun f => sameHdr f.hdr h && f.opc == opc && !f.begun

/-- Whether a fence holds a command: with FENCE it waits until every command accepted earlier from the same queue has left
flight (R313). -/
def State.fenced (s : State) (h : Hdr) : Bool :=
  h.fence && (s.hq.inFlight.find? fun f => sameHdr f.hdr h).any fun f =>
    s.hq.inFlight.any fun e => decide (e.hdr.q = h.q) && decide (e.order < f.order)

/-- A BURST accepted before a command and not yet judged: the module takes commands in the order of acceptance (R313). -/
def State.burstBefore (s : State) (order : Nat) : Bool :=
  s.hq.inFlight.any fun e => e.opc == 0x01 && !e.begun && decide (e.order < order)

/-- The accepted command of a header and opcode that has not begun, if neither a fence nor an earlier BURST holds it. -/
def State.waitingCmd (s : State) (h : Hdr) (opc : Nat) : Option InFlight :=
  (s.acceptedCmd h opc).filter fun f => !s.fenced h && !s.burstBefore f.order

/-- Whether something stood at the acceptance of a command (R63, R416). [log 170: DEDUCED] -/
def State.atAcceptance (s : State) (h : Hdr) (what : InFlight → Bool) : Bool := s.hq.inFlight.any fun f => sameHdr f.hdr h && what f

/-- The opcodes whose commands do not begin once a Firebreak or a FATAL fault has come: BURST, STRUCT_LOAD, SEG_LOAD,
CODE_LOAD, EVACUATE and CALIBRATE (R326). -/
def cutOpc (opc : Nat) : Bool := [0x01, 0x10, 0x11, 0x13, 0x14, 0x21].contains opc

/-- How such a command ends where it has not begun: INTERRUPTED for STRUCT_LOAD, NOT_STARTED for the others. -/
def cutStatus (opc : Nat) : Nat := if opc = 0x10 then 0x20 else stNotStarted

/-- Marks a command begun and runs it, or ends it as R326 says. -/
def State.take_ (s : State) (f : InFlight) (run : State → State) : State :=
  let mark := fun e : InFlight => if e.order = f.order then { e with begun := true } else e
  let s := { s with hq := { s.hq with inFlight := s.hq.inFlight.map mark } }
  if s.clearing && cutOpc f.opc then s.complete f.hdr (cutStatus f.opc) else run s

/-- Begins an accepted command; a command that is not waiting to begin does nothing. -/
def State.begin_ (s : State) (h : Hdr) (opc : Nat) (run : State → State) : State :=
  match s.waitingCmd h opc with
  | none => s
  | some f => s.take_ f run

/-! ## Register writes by requester (R437, R446, R508) -/

/-- A core takes an access fault as a machine-mode exception (R282): pc, mode and cause are saved, and the core goes on at
mtvec in machine mode. [log 128: PRESUMED; log 132: DESIGN CHOICE] -/
def State.coreTrap (s : State) (c : Fin 8) (cause tval : Nat) : State :=
  s.modCore c fun k =>
    { k with mepc := k.pc, mcause := cause, mtval := tval, mppMachine := k.machineMode, mpie := k.mie, mie := false,
             machineMode := true, pc := k.mtvec }

/-- The registers whose writes R446 leaves to the security officer alone: FLT_CTRL, FLT_FORCE and the SEC block; the lock
bit of FAB_CTRL is one too. -/
def soOnly (addr : Nat) (w : Word) : Bool :=
  addr == 0xF8000 || (decide (0xF8360 ≤ addr) && decide (addr < 0xF8380)) ||
    (decide (0xE8000 ≤ addr) && decide (addr < 0xF0000)) || (addr == 0x20000 && w.getLsbD 8)

/-- Whether R446 permits the host to write a register of the window: the HQ block always, others by its role. -/
def State.hostMayWrite (s : State) (addr : Nat) (w : Word) : Bool :=
  let role := s.rd F.SEC_STATUS_HOST_ROLE
  (decide (0xC0000 ≤ addr) && decide (addr < 0xD0000)) || role == 2 || (role == 1 && !soOnly addr w)

/-- A register write by a requester: a posted write of the host is applied and retires without fault, or is a posted-write
fault with the reason ROLE (R325, R446); a core's store to a register of the security officer raises a store access fault;
the sideband writes FLT_SRC_SEL and FLT_REC_SEL only (R437). -/
def State.regWrite (s : State) (r : Req) (addr : Nat) (w : Word) (apply : State → State) : State :=
  match r with
  | .host id =>
    if s.hostMayWrite addr w then (apply s).retire
    else s.pwFault { reason := 6, win := 0, firstBe := 15, lastBe := 0, len := 1, off := addr, reqId := id, page := 0, stamp := 0 }
  | .core c => if soOnly addr w then s.coreTrap c 7 addr else apply s
  | .sideband => if addr = 0xF8400 ∨ addr = 0xF8500 then apply s else s

/-- The low word a requester class holds for a pair, or the low word in force (R5), and the state without the held word.
[log 12: DESIGN CHOICE] -/
def State.takeHeld (s : State) (r : Req) (lo : Nat) (inForce : Nat) : Nat × State :=
  match s.held.find? fun p => decide (p.req = r.cls) && decide (p.addr = lo) with
  | some p => (p.word.toNat, { s with held := s.held.filter fun q => !(decide (q.req = r.cls) && decide (q.addr = lo)) })
  | none => (inForce, s)

/-- A requester class writes the low word of a pair: it is held (R5). [log 12: DESIGN CHOICE] -/
def State.holdLow (s : State) (r : Req) (lo : Nat) (w : Word) : State :=
  { s with held := ⟨r.cls, lo, w⟩ :: s.held.filter fun q => !(decide (q.req = r.cls) && decide (q.addr = lo)) }

/-! ## Source addresses (R320) -/

/-- The address a source names: bits [5:0] cleared. -/
def srcBase (x : Src) : Nat := x.addr / 64 * 64

/-- The space of a source. -/
def srcSpace (x : Src) : Nat := x.addr % 4

/-! ## Pages and runs (R52, R137, R152) -/

/-- Bytes of a Canopy page and of an SDRAM page. -/
abbrev canopyPage : Nat := 0x10000
abbrev sdramPage : Nat := 0x100000

/-- The region a Canopy page belongs to, 0 code to 4 scratch, or none. -/
def Forest.regionOf (f : Forest) (page : Nat) : Option Nat :=
  (f.regions.find? fun r => decide (r.1 ≤ page) && decide (page < r.1 + r.2.1)).map fun r => r.2.2

/-- Pages of a run of bytes. -/
def pagesFor (bytes unit : Nat) : Nat := (bytes + unit - 1) / unit

/-- The pages of a placed run. -/
def Place.pages (p : Place) : List Nat :=
  (List.range (pagesFor p.bytes (if p.sdram then sdramPage else canopyPage))).map (p.page + ·)

/-- The pages of a segment's runs. -/
def runPages (l : List (Nat × Nat)) : List Nat := l.flatMap fun r => (List.range r.2).map (r.1 + ·)

/-- The places of capture buffers, record stores, trace buffers and rings. -/
def State.placed (s : State) : List Place :=
  s.groves.toList.flatMap (·.bufs) ++ s.forest.traces.map (·.2) ++ s.forest.stores.map (·.2) ++
    s.streams.toList.filterMap (·.ring)

/-- The Canopy pages in use: segments, instruction streams, moves' destinations, placed runs, claims and code. -/
def State.usedPages (s : State) : List Nat :=
  s.forest.segs.flatMap (fun x => (if x.tier = .canopy then runPages x.pages else []) ++ runPages x.ipages) ++
  s.forest.moves.flatMap (fun m => (if m.tier = .canopy then runPages m.pages else []) ++ runPages m.ipages) ++
  s.forest.codeMoves.map (·.dest) ++ (s.placed.filter fun p => !p.sdram).flatMap (·.pages) ++
  s.forest.claims.flatMap (fun c => (List.range c.2.2).map (c.2.1 + ·)) ++ s.forest.code.map (·.page)

/-- The SDRAM pages in use. -/
def State.usedSdram (s : State) : List Nat :=
  s.forest.segs.flatMap (fun x => if x.tier = .sdram then runPages x.pages else []) ++
  s.forest.moves.flatMap (fun m => if m.tier = .sdram then runPages m.pages else []) ++
  (s.placed.filter (·.sdram)).flatMap (·.pages)

/-- Usable SDRAM capacity in bytes, 0 unless the controller is READY (R363). -/
def State.sdramBytes (s : State) : Nat := if s.rd F.DMC_STATUS_STATE = 2 then s.rd F.DMC_GEOM_USABLE_MIB * 2 ^ 20 else 0

/-- The Forester's SDRAM pages: from address 0 to the split, or to the fitted capacity if that is smaller (R153). -/
def State.sharePages (s : State) : Nat := min (s.rd F.FOR_SDRAM_SPLIT_GIB * 2 ^ 30) s.sdramBytes / sdramPage

/-- Whether the Forester may put content of a region on a Canopy page: the page lies in the region, or in none while the
region is below MAX_PAGES, and in the region's bank mask (R52), and no evacuation empties its bank (R147). Bank n holds pages
64n to 64n + 63. -/
def State.pageOpen (s : State) (region page : Nat) : Bool :=
  !(s.forest.evacs.any fun e => e.bank == page / 64) && bitOf (s.rd (F.STR_REGION_BANKS_BANK_MASK region)) (page / 64) &&
    (match s.forest.regionOf page with
     | some r => r == region
     | none => decide (0 < s.rd (F.STR_REGION_MAX_PAGES region)))

/-- The first run of `n` pages all of which satisfy a test, below `limit` (the Forester's choice among the runs that its
rules allow is the lowest: DESIGN CHOICE, log entry 9). -/
def firstRun (ok : Nat → Bool) (n limit : Nat) : Option Nat :=
  (List.range (limit - n + 1)).find? fun p => decide (p + n ≤ limit) && (List.range n).all fun i => ok (p + i)

/-- Pages of a region. -/
def Forest.sizeOf (f : Forest) (region : Nat) : Nat := ((f.regions.filter fun r => r.2.2 == region).map fun r => r.2.1).sum

/-- Pages that a region may still take beyond those it has (R52). -/
def State.regionRoom (s : State) (region : Nat) : Nat := s.rd (F.STR_REGION_MAX_PAGES region) - s.forest.sizeOf region

/-- Whether a region may take a list of pages as far as its size goes. -/
def State.roomFor (s : State) (region : Nat) (l : List Nat) : Bool :=
  decide ((l.filter fun p => (s.forest.regionOf p).isNone).length ≤ s.regionRoom region)

/-- A free run of Canopy pages in a region that avoids the listed banks. [log 9: DESIGN CHOICE] -/
def State.canopyRunAvoid (s : State) (region n : Nat) (avoid : List Nat) : Option Nat :=
  let used := s.usedPages
  let ok := fun p => s.pageOpen region p && !used.contains p && !avoid.contains (p / 64)
  (List.range (2048 - n + 1)).find? fun p =>
    decide (p + n ≤ 2048) && (List.range n).all (fun i => ok (p + i)) && s.roomFor region ((List.range n).map (p + ·))

/-- A free run of Canopy pages in a region. -/
def State.canopyRun (s : State) (region n : Nat) : Option Nat := s.canopyRunAvoid region n []

/-- A free run of SDRAM pages in the Forester's share. [log 9: DESIGN CHOICE] -/
def State.sdramRun (s : State) (n : Nat) : Option Nat :=
  let used := s.usedSdram
  firstRun (fun p => !used.contains p) n s.sharePages

/-- Takes pages that lie in no region into a region; a released capture buffer there is one no longer (R511). -/
def Forest.take (f : Forest) (region page n : Nat) : Forest :=
  let free := ((List.range n).map (page + ·)).filter fun p => (f.regionOf p).isNone
  { f with
    regions := f.regions ++ free.map fun p => (p, 1, region)
    released := f.released.filter fun p => decide (p < page) || decide (page + n ≤ p) }

/-- Places a run of bytes in the capture region, or in the SDRAM share where the region holds no free run (R152). -/
def State.placeBuffer (s : State) (bytes : Nat) : Option (Place × State) :=
  let n := pagesFor bytes canopyPage
  match s.canopyRun 3 n with
  | some p => some (⟨false, p, bytes⟩, { s with forest := s.forest.take 3 p n })
  | none => (s.sdramRun (pagesFor bytes sdramPage)).map fun p => (⟨true, p, bytes⟩, s)

/-- The byte address of a place in its memory. -/
def Place.base (p : Place) : Nat := if p.sdram then p.page * sdramPage else p.page * canopyPage

/-- Whether the capture writer cannot write a place in time (R194, R365, R375): it lies in the SDRAM, which does not serve it or whose
CAP port has fallen behind its deadline. -/
def State.writeLost (s : State) (p : Place) : Bool :=
  let now := s.now
  p.sdram && (s.sdramBytes == 0 || (s.dmc.reqs ++ s.dmc.waits).any fun r => r.port == 1 && r.deadline != now && reachedAt now r.deadline)

/-- Writes bytes at an offset of a place. -/
def State.writePlace (s : State) (p : Place) (off : Nat) (l : List Byte) : State :=
  if p.sdram then { s with sdram := Mem.puts s.sdram (p.base + off) l }
  else { s with canopy := Mem.puts s.canopy (p.base + off) l }

/-- Reads bytes at an offset of a place. -/
def State.readPlace (s : State) (p : Place) (off n : Nat) : List Byte :=
  if p.sdram then Mem.bytes s.sdram (p.base + off) n else Mem.bytes s.canopy (p.base + off) n

/-- Zeroes a run of pages of a memory. [log 137: DESIGN CHOICE] -/
def State.zeroPages (s : State) (sdram : Bool) (l : List Nat) : State :=
  if sdram then { s with sdram := l.foldl (fun m p => Mem.clear m (p * sdramPage) sdramPage) s.sdram }
  else { s with canopy := l.foldl (fun m p => Mem.clear m (p * canopyPage) canopyPage) s.canopy }

/-! ## Packed instruction streams (R140) -/

/-- The part of a page that `n` bytes of content cover which begin at byte `off` of runs of pages: first byte and end. -/
def rangeIn (runs : List (Nat × Nat)) (off n page : Nat) : Option (Nat × Nat) :=
  ((runPages runs).zipIdx.find? fun p => p.1 == page).bind fun p =>
    let lo := max off (p.2 * canopyPage)
    let hi := min (off + n) ((p.2 + 1) * canopyPage)
    if lo < hi then some (lo - p.2 * canopyPage, hi - p.2 * canopyPage) else none

/-- The part of a page that a segment's instruction stream covers. -/
def Seg.streamIn (x : Seg) (page : Nat) : Option (Nat × Nat) := rangeIn x.ipages x.ioff (8 * x.iwords) page

/-- Zeroes `n` bytes of content that begin at byte `off` of runs of pages. -/
def clearRange (m : Mem) (runs : List (Nat × Nat)) (off n : Nat) : Mem :=
  (runPages runs).foldl (fun m p => match rangeIn runs off n p with
    | some r => Mem.clear m (p * canopyPage + r.1) (r.2 - r.1)
    | none => m) m

/-- The bytes a source holds, or none where the read fails or the range breaks R320: host memory as the command brought
it, SDRAM below the usable capacity, the Canopy in the scratch region. -/
def State.source (s : State) (x : Src) (n : Nat) : Option (List Byte) :=
  match srcSpace x with
  | 0 => x.host.map fun l => (l ++ List.replicate n 0).take n
  | 1 => some (Mem.bytes s.sdram (srcBase x) n)
  | _ => some (Mem.bytes s.canopy (srcBase x) n)

/-- The check of a source range that precedes any read of it (R320). -/
def State.sourceOk (s : State) (x : Src) (n : Nat) : Bool :=
  fieldOf x.addr 2 4 == 0 &&
    (match srcSpace x with
     | 0 => true
     | 1 => decide (srcBase x + n ≤ s.sdramBytes)
     | 2 => (List.range (pagesFor (srcBase x % canopyPage + n) canopyPage)).all fun i =>
         s.forest.regionOf (srcBase x / canopyPage + i) == some 4
     | _ => false)

/-! ## Links (R51, R332, R335) -/

/-- Changes one lane. -/
def State.modLane (s : State) (n : Fin 8) (f : Lane → Lane) : State :=
  { s with links := { s.links with lanes := upd s.links.lanes n f } }

/-- The lanes a link entry names (R51). -/
def State.lanesOf (s : State) (l : Fin 8) : List (Fin 8) := (allFin 8).filter fun n => bitOf (s.rd (F.STR_LINK_LANE_MASK l)) n.1

/-- The bonding of the four lanes that hold a lane: 0 ×1, 1 ×2, 2 ×4; 3 is treated as 0 (R332). -/
def State.bond (s : State) (n : Fin 8) : Nat :=
  let v := if n.1 < 4 then s.rd F.MFL_CFG_BOND_A else s.rd F.MFL_CFG_BOND_B
  if v = 3 then 0 else v

/-- The lowest lane of a lane's link, and the lanes of a link. [log 86: DESIGN CHOICE] -/
def State.linkLane (s : State) (n : Fin 8) : Fin 8 := fin 8 (n.1 / 2 ^ s.bond n * 2 ^ s.bond n)
def State.lanesIn (s : State) (n : Fin 8) : List (Fin 8) := (allFin 8).filter fun k => s.linkLane k == s.linkLane n

/-- A token of some copies joins a lane's queue (R335). -/
def State.queueToken (s : State) (n : Fin 8) (tok copies : Nat) : State :=
  s.modLane n fun k => { k with out := k.out ++ List.replicate copies tok }

/-- Fields of a DESC token (R335). -/
def descId (d : Nat) : Nat := fieldOf d 8 32
def descPos (d : Nat) : Nat := fieldOf d 57 2

/-- The descriptor a lane's far end has sent for a link entry. [log 28: DESIGN CHOICE] -/
def State.descOn (s : State) (n : Fin 8) (l : Fin 8) : Option Nat :=
  (s.links.descs.find? fun d => d.1 == n.1 && descId d.2 == s.rd (F.STR_LINK_ID_LINK_ID l)).map (·.2)

/-- LSLOT: the index of a linked grove's entry in the leader's LINK section, which the leader's descriptor names; before that
is heard, the own index (R335). [log 28: DESIGN CHOICE] -/
def State.lslot (s : State) (l : Fin 8) : Nat :=
  if s.rd (F.STR_LINK_POSITION l) = 0 then l.1
  else ((s.lanesOf l).findSome? fun n => (s.descOn n l).bind fun d => if descPos d = 0 then some (fieldOf d 4 3) else none).getD l.1

/-- The first lane of an entry that reaches each other member (R343). -/
def State.laneTo (s : State) (l : Fin 8) (pos : Nat) : Option (Fin 8) :=
  (s.lanesOf l).find? fun n => (s.descOn n l).any fun d => descPos d == pos

/-- Sends a token in three copies to another member of an entry, if a lane reaches it. -/
def State.tellMember (s : State) (l : Fin 8) (pos tok : Nat) : State :=
  match s.laneTo l pos with
  | some n => s.queueToken n tok 3
  | none => s

/-- The period-table CRC of a grove (R162). -/
def State.periodCrc (s : State) (g : Nat) : Nat :=
  crc32 ((List.range 32).flatMap fun ts => bytesLE 4 (s.rd (F.TMG_PERIOD_LO g ts)) ++ bytesLE 4 (s.rd (F.TMG_PERIOD_HI g ts) % 2 ^ 31))

/-- The ARMED and the START token of an entry (R335). -/
def State.armedToken (s : State) (l : Fin 8) : Nat :=
  2 + 2 ^ 4 * s.lslot l + 2 ^ 8 * s.periodCrc (s.rd (F.STR_LINK_GROVE l)) + 2 ^ 40 * s.rd (F.STR_LINK_POSITION l)
def State.startToken (s : State) (l : Fin 8) (slot : Nat) (cancel : Bool) : Nat :=
  3 + 2 ^ 4 * s.lslot l + 2 ^ 8 * (slot % 2 ^ 32) + 2 ^ 40 * b2n cancel

/-! ## Zeroisation (R456 to R458, R462) -/

/-- Extends a measurement register with a digest of 48 bytes (R462). [log 111: DEDUCED] -/
def State.extendMr (s : State) (r : Fin 8) (digest : List Byte) : State :=
  let f := fun old : Nat => sha384 (bytesLE 48 old ++ digest)
  ({ s with sec := { s.sec with mr := upd s.sec.mr r f } }).incWrap (F.SEC_MR_CNT_COUNT r)

/-- SHA-384 of a byte string, as bytes. [log 101: DEDUCED] -/
def shaBytes (l : List Byte) : List Byte := bytesLE 48 (sha384 l)

/-- The Forester marks segments not resident (R375, R458): their payload pages are zeroed and freed. [log 76: DEDUCED] -/
def State.notResident (s : State) (p : Seg → Bool) : State :=
  let gone := s.forest.segs.filter fun x => p x && (x.tier == .canopy || x.tier == .sdram)
  let s := gone.foldl (fun s x => s.zeroPages (x.tier == .sdram) (runPages x.pages)) s
  let f := fun x : Seg => if p x && x.loading.isNone then { x with tier := .none, pages := [] } else x
  { s with forest := { s.forest with segs := s.forest.segs.map f } }

/-- Step 4 of R456: the key store, the content keys, the DRBG and the identity key are overwritten, sessions end, and the
lifecycle is UNPROVISIONED. -/
def State.zeroiseNow (s : State) : State :=
  let k := s.sec
  let s := { s with sec := { ownerHash := k.ownerHash, arbFuse := k.arbFuse, mr := k.mr, drawn := k.drawn, pairs := k.pairs, zero := k.zero } }
  let s := s.wrs [(F.SEC_STATUS_LIFECYCLE, 1), (F.SEC_STATUS_HOST_ROLE, 0), (F.SEC_STATUS_SB_ROLE, 0), (F.SEC_STATUS_CONF_IMAGES, 0),
    (F.SEC_STATUS_LOCKOUT_HOST, 0), (F.SEC_STATUS_LOCKOUT_SB, 0), (F.SEC_POLICY_PERMIT, 0), (F.SEC_SLOT_MAP_LOADED 0, 0), (F.SEC_SLOT_MAP_LOADED 1, 0)]
  (s.notResident fun x => x.keySlot != 0xFFFF).event Ev.sec 3

/-- One zeroisation by command: with `debug` the module enters DEBUG (R457). -/
def State.zeroiseBy (s : State) (h : Hdr) (debug : Bool) : State :=
  let s := s.zeroiseNow
  let s := if debug then
      ((s.extendMr 7 (List.replicate 48 0xDB)).wrs [(F.SEC_STATUS_LIFECYCLE, 3), (F.SEC_STATUS_APPROVED, 0)]).event Ev.sec 7
    else s
  s.complete h stOk (2 ^ 31)

/-- The zeroisations that wait for the bursts take place once all have entered Ended, and their commands complete (R457). -/
def State.zeroCheck (s : State) : State :=
  if s.bursts.all fun b => b.stage == .ended then
    let l := s.sec.zero
    l.foldl (fun s z => s.zeroiseBy z.1 z.2) { s with sec := { s.sec with zero := [] } }
  else s

end Sys2Proof.Machine
end

