-- ==== Sys2Proof/Machine/Acquire.lean ====
section
/-! DEFINITION. Shared operations of acquisition: the trigger engines' triggers, samples and records (R203 to R218) and the
time measurement units' gates (R219 to R238). The commands themselves stand in Trigger.lean and Tmu.lean. -/

namespace Sys2Proof.Machine

/-! ## Instants in fine units (R209, R219): 4096 to a master tick, 16 384 to a tick of shared time -/

/-- Shared time at an instant in fine units since reset: whole ticks, and fine units within the tick (R209, R347). -/
def State.sharedAt (s : State) (fu : Nat) : Nat × Nat :=
  let t := s.tim
  let v : Int := (fu : Int) * 2 ^ 26 + t.offset * tickFrac + t.acc + (t.rate + t.rateHo) * ((fu : Int) - t.changedAt * 16384) / 16384
  (zx 64 (v / tickFrac), (v % tickFrac / 2 ^ 26).toNat)

/-- The present instant in fine units. -/
def State.fuNow (s : State) : Nat := 4096 * s.master

/-- The start of cycle 0 of a grove's latest burst, in fine units since reset (R175). -/
def State.cycleZero (s : State) (g : Fin 32) : Nat := (4 * s.groves[g].origin).toNat

/-- The first master tick at or after a shared-time point that has been reached, among those of the tick of shared time just
past, in fine units (R207, R224). -/
def State.tickOf (s : State) (point : Nat) : Nat :=
  let first := ((List.range 4).find? fun k => reachedAt (s.sharedAt (s.fuNow - (3 - k) * 4096)).1 point).getD 3
  s.fuNow - (3 - first) * 4096

/-- The corrected fine part of an interpolator code (R233): F_c of the unit's table, rounded and clipped; before any valid
calibration the correction is not stated and the value is free. [log 45: DESIGN CHOICE] -/
def binFine (hits : List Nat) (code : Nat) : Nat := min 4095 ((2 * (hits.take code).sum + hits.getD code 0 + 1024) / 2048)

/-- The fine part a unit's interpolator gives. [log 45: DESIGN CHOICE] -/
def State.fineOf (s : State) (unit : Fin 36) (code : Nat) : Nat × State :=
  if s.acq.hits[unit].isEmpty then (fun r => (r.1 % 4096, r.2)) s.takeFree else (binFine s.acq.hits[unit] (code % 4096), s)

/-- The REFCLK phase that is removed (R175). [log 164: DEDUCED] -/
def State.refComp (s : State) : Int := if s.on F.TMG_CTRL_REF_COMP then s.rdS F.TMG_REF_PHASE_PHASE else 0

/-- A stamp against the master's own ticks, in fine units: master tick and interpolator code, less the route's fused delay; source
and index name the route (R219, R220). [log 164: DEDUCED] -/
def State.rawStamp (s : State) (unit : Fin 32) (src index : Nat) (tick : Int) (code : Nat) : Int × State :=
  let r := s.fineOf (fin 36 unit.1) code
  (tick * 4096 + r.1 - Config.routeDelay src index unit.1, r.2)

/-- A stamp as a unit gives it (R219, R220): the master's phase against REFCLK is removed. [log 164: DEDUCED] -/
def State.stampOf (s : State) (unit : Fin 32) (src index : Nat) (tick : Int) (code : Nat) : Int × State :=
  let r := s.rawStamp unit src index tick code
  (r.1 + 4 * s.refComp, r.2)

def State.modTrg (s : State) (e : Fin 4) (f : Trg → Trg) : State := { s with acq := { s.acq with trg := upd s.acq.trg e f } }
/-- Sets the count of an engine's unread records, and shows it (R215). -/
def State.setUnread (s : State) (e : Fin 4) (n : Nat) : State :=
  { s with acq := { s.acq with trg := upd s.acq.trg e fun k => { k with unread := n } } }.wr (F.TRG_STATUS_UNREAD e) (min 4095 n)

def State.modTmu (s : State) (u : Fin 32) (f : Tmu → Tmu) : State := { s with acq := { s.acq with tmu := upd s.acq.tmu u f } }

/-- POL_SWAP of one signal of a channel (R55): 0 DRV, 1 DEN, 2 CMH, 3 CML. -/
def State.swapped (s : State) (c : Fin 128) (sig : Nat) : Bool :=
  bitOf (s.rd (F.STR_PEIF_ENTRY (c.1 / 4))) (16 + 4 * (c.1 % 4) + sig)

/-- The decision temperature in 1/16 °C (R398). -/
def State.tdec (s : State) : Int := s.rdS F.PWR_TDEC_TEMP

/-! ## Places of stores (R152, R215, R229) -/

/-- The owner of a trigger engine, or none for the module pool (R54). [log 43: DEDUCED] -/
def State.trgOwner (s : State) (e : Fin 4) : Option (Fin 32) :=
  let b := fieldOf (s.rd F.STR_TRG_MAP_MAP) (8 * e.1) 8
  if h : b < 32 then some ⟨b, h⟩ else none

/-- The owner of a time measurement unit, or none for the module pool. -/
def State.tmuOwner (s : State) (u : Fin 32) : Option (Fin 32) :=
  let b := fieldOf (s.rd (F.STR_TMU_MAP_MAP (u.1 / 4))) (8 * (u.1 % 4)) 8
  if h : b < 32 then some ⟨b, h⟩ else none

/-- The grove an engine's compare results, marks and cycles come from (R203). -/
def State.trgGrove (s : State) (e : Fin 4) : Fin 32 := (s.trgOwner e).getD (fin 32 (s.rd (F.TRG_SRC_GROVE e)))

/-- The grove whose bursts gate a unit (R224). -/
def State.tmuGrove (s : State) (u : Fin 32) : Fin 32 := (s.tmuOwner u).getD (fin 32 (s.rd (F.TMU_GATE_GROVE u)))

/-- Bytes of an engine's record store and of a unit's stamp store; 0 pages are treated as 1. -/
def State.trgBytes (s : State) (e : Fin 4) : Nat := canopyPage * max 1 (s.rd (F.TRG_STORE_PAGES e))
def State.tmuBytes (s : State) (u : Fin 32) : Nat := canopyPage * max 1 (s.rd (F.TMU_STORE_PAGES u))

/-- Bytes of a slot (R215). -/
def slotBytes (kind pre post : Nat) : Nat := (128 + (pre + post) * (if kind = 3 then 8 else 16) + 63) / 64 * 64

/-- Places an engine's record store where it has none of the configured size; a new store starts empty. [log 42: DESIGN CHOICE] -/
def State.placeTrg (s : State) (e : Fin 4) : Option State :=
  let t := s.acq.trg[e]
  let n := s.trgBytes e
  if (t.place.map (·.bytes)) = some n then some s
  else
    let drop := fun k : Trg => { k with place := none }
    let s := t.place.elim s fun p => s.zeroPages p.sdram p.pages
    ((s.modTrg e drop).placeBuffer n).map fun r =>
      let put := fun k : Trg => { k with place := some r.1, slot := 0, unread := 0 }
      let s := { r.2 with forest := { r.2.forest with stores := (32 + e.1, r.1) :: r.2.forest.stores.filter fun p => p.1 != 32 + e.1 } }
      (s.modTrg e put).wrs [(F.TRG_LOC_SDRAM e, b2n r.1.sdram), (F.TRG_LOC_PAGE e, r.1.page), (F.TRG_STATUS_UNREAD e, 0),
        (F.TRG_STORE_RECS e, n / slotBytes t.kind t.pre t.post)]

/-- Places a unit's stamp store where it has none of the configured size. [log 42: DESIGN CHOICE] -/
def State.placeTmu (s : State) (u : Fin 32) : Option State :=
  let n := s.tmuBytes u
  if (s.acq.tmu[u].place.map (·.bytes)) = some n then some s
  else
    let drop := fun k : Tmu => { k with place := none }
    let s := (s.acq.tmu[u].place).elim s fun p => s.zeroPages p.sdram p.pages
    ((s.modTmu u drop).placeBuffer n).map fun r =>
      let put := fun k : Tmu => { k with place := some r.1, head := 0, blocks := [] }
      let s := { r.2 with forest := { r.2.forest with stores := (u.1, r.1) :: r.2.forest.stores.filter fun p => p.1 != u.1 } }
      (s.modTmu u put).wrs [(F.TMU_LOC_SDRAM u, b2n r.1.sdram), (F.TMU_LOC_PAGE u, r.1.page)]

/-- Runs a placement over a list of units; none where one has no room. -/
def placeEach {α : Type} (place : State → α → Option State) : State → List α → Option State
  | s, [] => some s
  | s, a :: r => (place s a).bind fun s => placeEach place s r

/-- The record stores of engines that are armed, or that the burst's start will arm, and the stamp stores of armed units that keep
stamps, bound to groves of a mask. [log 42: DESIGN CHOICE] -/
def State.placeStoresOpt (s : State) (groves : List (Fin 32)) : Option State :=
  let es := (allFin 4).filter fun (e : Fin 4) =>
    (s.rd (F.TRG_STATUS_STATE e) != 0 || s.on (F.TRG_CTRL_ARM_ON_START e)) && (s.trgOwner e).any groves.contains
  let us := (allFin 32).filter fun (u : Fin 32) =>
    s.rd (F.TMU_STATUS_STATE u) != 0 && s.on (F.TMU_CTRL_STORE u) && (s.tmuOwner u).any groves.contains
  (placeEach State.placeTrg s es).bind fun s => placeEach State.placeTmu s us

/-- Whether the stores of R152 find room. -/
def State.storesFit (s : State) (groves : List (Fin 32)) : Bool := (s.placeStoresOpt groves).isSome

/-- Places the stores of R152 at admission. -/
def State.placeStores (s : State) (groves : List (Fin 32)) : State := (s.placeStoresOpt groves).getD s

/-! ## Records of a trigger engine (R214 to R218) -/

/-- FLAGS of a record (R216). -/
def State.recFlags (s : State) (e : Fin 4) (r : TrgRec) (complete : Bool) : Nat :=
  let k := s.acq.trg[e]
  let l := r.pre ++ r.post
  let ranges := (l.filter fun x => !x.lost).map fun x => bitOf x.value 48
  b2n (r.cause == 2) + 2 * b2n (decide (r.pre.length < k.pre)) + 4 * b2n r.cut + 8 * b2n (l.any (·.lost)) +
  16 * b2n (l.any (·.unref)) + 32 * b2n (k.kind == 3 && ranges.contains true && ranges.contains false) +
  64 * b2n (l.any (·.void)) + 128 * b2n (bitOf (s.rd F.TMU_GSTATUS_TRG_STALE) e.1) + 256 * b2n complete

/-- Mean of a list of natural numbers, truncated. -/
def meanNat (l : List Nat) : Nat := if l.isEmpty then 0 else l.sum / l.length

/-- The edges of one channel's samples: rising or not, and time in LSB from the trigger point, rounded (R217). -/
def edgesOf (ch : Nat) (point : Nat) : List TrgSamp → List (Bool × Int)
  | a :: b :: r =>
    let rest := edgesOf ch point (b :: r)
    if bitOf a.value ch = bitOf b.value ch then rest
    else (bitOf b.value ch, ((b.time : Int) - point + 2) / 4) :: rest
  | _ => []

/-- The widths of rising edges that a falling edge follows. -/
def widthsOf : List (Bool × Int) → List Nat
  | (true, a) :: (false, b) :: r => (b - a).toNat :: widthsOf r
  | _ :: r => widthsOf r
  | [] => []

/-- The 32 bytes of MEAS for KINDs 0 to 2 (R217). -/
def measEdges (ch point : Nat) (l : List TrgSamp) : List Byte :=
  let es := edgesOf ch point l
  let up := (es.filter (·.1)).map (·.2)
  let period := if up.length < 2 then 0 else ((up.getLastD 0 - up.headD 0) / ((up.length : Int) - 1)).toNat
  let width := meanNat (widthsOf es)
  let duty := if period = 0 then 0 else width * 65536 / period
  bytesLE 4 period ++ bytesLE 4 width ++ bytesLE 4 duty ++ bytesLE 4 es.length ++
    bytesLE 8 (zx 64 ((es.head?.map (·.2)).getD 0)) ++ bytesLE 8 (zx 64 ((es.getLast?.map (·.2)).getD 0))

/-- The voltage, or the current, of a supply sample (R216). -/
def TrgSamp.qty (x : TrgSamp) (current : Bool) : Int := sx 24 (fieldOf x.value (if current then 24 else 0) 24)

/-- The 32 bytes of MEAS for KIND 3 (R218). -/
def measSupply (current : Bool) (l : List TrgSamp) : List Byte :=
  let v := (l.filter fun x => !x.drop).map fun x => x.qty current
  let hi := v.foldl max (v.headD 0)
  let lo := v.foldl min (v.headD 0)
  let n := max 1 v.length
  let ms := ((v.map fun x => x * x).sum / n).toNat
  bytesLE 4 (zx 32 (hi - lo)) ++ bytesLE 4 (zx 32 (v.sum / n)) ++ bytesLE 4 (Nat.sqrt ms) ++ bytesLE 20 0

/-- The bytes of one sample (R216). -/
def TrgSamp.bytes (kind : Nat) (x : TrgSamp) : List Byte :=
  if x.lost then bytesLE (if kind = 3 then 8 else 16) 0
  else if kind = 3 then bytesLE 8 (x.value % 2 ^ 49 + 2 ^ 49 * b2n x.drop) else bytesLE 16 x.value

/-- The 128-byte header of a record (R216): the interval of KIND 3 is DIV sample periods, of 256 LSB to a step of R266. -/
def State.recHeader (s : State) (e : Fin 4) (r : TrgRec) (complete : Bool) : List Byte :=
  let k := s.acq.trg[e]
  let l := r.pre ++ r.post
  let t := r.stamp
  let unit := if k.kind = 3 then s.rd (F.TRG_SRC_DSC e) else (s.trgGrove e).1
  let d := s.rd (F.TRG_SRC_DSC e)
  let ts := 256 * s.rd (F.PGN_STATUS_N d) / s.smul (fin 16 d)
  let interval := if k.kind = 0 then 0 else if k.kind = 3 then max 1 (s.rd (F.TRG_TIMING_DIV e)) * ts
    else max 8 (s.rd (F.TRG_TIMING_DIV e)) * 1024
  let meas := if k.kind = 3 then measSupply (s.on (F.TRG_SRC_DSC_QTY e)) l else measEdges (s.rd (F.TRG_TIMING_MEAS_CH e)) r.point l
  bytesLE 4 0x52434851 ++ bytesLE 1 e.1 ++ bytesLE 1 k.kind ++ bytesLE 2 (s.recFlags e r complete) ++ bytesLE 4 k.seqno ++
  bytesLE 4 interval ++ bytesLE 8 t.1 ++ bytesLE 2 t.2 ++ bytesLE 1 unit ++ bytesLE 1 r.cause ++
  bytesLE 2 r.pre.length ++ bytesLE 2 (r.post.length % 32768) ++
  bytesLE 8 ((r.post.head?.map (·.cycle)).getD (2 ^ 64 - 1)) ++ bytesLE 4 ((l.filter (·.lost)).length) ++ bytesLE 4 0 ++
  (if complete then meas else bytesLE 32 0) ++ bytesLE 48 0

/-- Writes a record's header, and with it all its samples, into its slot. -/
def State.writeRecord (s : State) (e : Fin 4) (r : TrgRec) (complete : Bool) : State :=
  let k := s.acq.trg[e]
  match k.place with
  | none => s
  | some p =>
    if s.writeLost p then s
    else s.writePlace p (k.slot * slotBytes k.kind k.pre k.post)
      (s.recHeader e r complete ++ (r.pre ++ r.post).flatMap (TrgSamp.bytes k.kind))

/-! ## Arming, triggers and samples (R206 to R214) -/

/-- The state of an engine: 0 disarmed, 1 armed, 2 recording, 3 holdoff. -/
abbrev State.trgState (s : State) (e : Fin 4) : Nat := s.rd (F.TRG_STATUS_STATE e)

/-- QSRC and COMB with their reserved values treated as 0 (R207, R208). -/
def State.qsrc (s : State) (e : Fin 4) : Nat := s.rd (F.TRG_QUAL_QSRC e) % 7
def State.comb (s : State) (e : Fin 4) : Nat := if s.rd (F.TRG_QUAL_COMB e) ≤ 4 then s.rd (F.TRG_QUAL_COMB e) else 0
def State.dscev (s : State) (e : Fin 4) : Nat := if s.rd (F.TRG_QUAL_DSCEV e) ≤ 4 then s.rd (F.TRG_QUAL_DSCEV e) else 0

/-- PRE and POST as the register spells them (TRG_DEPTH, TRG_TIMING). -/
def State.preOf (s : State) (e : Fin 4) : Nat :=
  if s.rd (F.TRG_DEPTH_PRE e) = 0 ∧ s.on (F.TRG_TIMING_PRE_MAX e) then 32768 else s.rd (F.TRG_DEPTH_PRE e)
def State.postOf (s : State) (e : Fin 4) : Nat := if s.rd (F.TRG_DEPTH_POST e) = 0 then 32768 else s.rd (F.TRG_DEPTH_POST e)

/-- The engine starts to wait: its match condition counts as true until it has been false once (R206). -/
def State.trgWait (s : State) (e : Fin 4) : State :=
  let m := s.master
  let past := s.reached (s.rdP (F.TRG_QTIME_LO_T e))
  let fresh := fun k : Trg => { k with last := true, qual := none, timed := past, tick := m, divCnt := 0, feed := [], ring := [], cur := none }
  (s.modTrg e fresh).wr (F.TRG_STATUS_STATE e) 1

/-- An engine is disarmed. -/
def State.trgOff (s : State) (e : Fin 4) : State :=
  let off := fun k : Trg => { k with cur := none, feed := [], ring := [], heldArm := false }
  (s.modTrg e off).wr (F.TRG_STATUS_STATE e) 0

/-- Whether the configuration of an engine is refused at arming (R203, R208, R214). [log 43: DEDUCED] -/
def State.trgBad (s : State) (e : Fin 4) : Bool :=
  let kind := s.rd (F.TRG_SRC_KIND e)
  decide (32768 < s.preOf e) || decide (32768 < s.postOf e) || (kind == 3 && s.comb e != 2) ||
    (match s.trgOwner e with
     | some g => (kind == 3 || s.qsrc e == 4) && s.groveOfDsc (fin 16 (s.rd (F.TRG_SRC_DSC e))) != some g
     | none => false)

/-- Arms a disarmed engine (R213, R214, R215): refused with BAD_CFG, held while the interpolator calibrates, or armed; a pooled
engine's record store is placed now, and with slots of another size it starts empty. [log 41: DESIGN CHOICE; log 44: DEDUCED] -/
def State.trgArm (s : State) (e : Fin 4) : State :=
  if s.trgState e ≠ 0 then s
  else if s.trgBad e then s.event (Ev.trg e) 5
  else if bitOf (s.acq.calRun ||| s.acq.calHeld) (32 + e.1) then s.modTrg e fun k => { k with heldArm := true }
  else
    let kind := s.rd (F.TRG_SRC_KIND e)
    let pre := s.preOf e
    let post := s.postOf e
    let old := s.acq.trg[e]
    let fix := fun k : Trg => { k with kind := kind, pre := pre, post := post, seqno := 0 }
    let s := s.modTrg e fix
    let s := if (s.trgOwner e).isNone then (s.placeTrg e).getD s else s
    let s := if slotBytes old.kind old.pre old.post = slotBytes kind pre post then s
      else (s.modTrg e fun k => { k with slot := 0 }).setUnread e 0
    let recs := match s.acq.trg[e].place with
      | some p => p.bytes / slotBytes kind pre post
      | none => 0
    (s.wr (F.TRG_STORE_RECS e) recs).trgWait e

/-- An engine that has no slot for a record disarms and sets FULL (R215). [log 42: DESIGN CHOICE] -/
def State.trgFull (s : State) (e : Fin 4) : State := (s.trgOff e).event (Ev.trg e) 3

/-- A pulse of `w` fine units from an instant on, among those of an output: it extends one that is still high then (R112). -/
def addPulse (rise w : Nat) : List (Nat × Nat) → List (Nat × Nat)
  | [] => [(rise, rise + w)]
  | p :: r => if p.1 ≤ rise ∧ rise < p.2 then (p.1, max p.2 (rise + w)) :: r else p :: addPulse rise w r

/-- Starts a TRIG_OUT pulse of one output at an instant in fine units (R112, R211). -/
def State.pulseOut (s : State) (n : Fin 8) (rise : Nat) : State :=
  let w := 4096 * max 8 (s.rd (F.SEQ_TOUT_SEL_WIDTH n))
  let now := s.fuNow
  let upcoming := fun l : List (Nat × Nat) => l.filter fun p => decide (now < p.2)
  { s with sync := { s.sync with trigOut := upd s.sync.trigOut n fun l => addPulse rise w (upcoming l) } }

/-- The code of SEQ_TOUT_SEL.SRC that selects a trigger engine. -/
abbrev toutTrigger : Nat := 4

/-- What one trigger of an engine does beside its record (R176, R211). [log 163: DEDUCED] -/
def State.trgAnnounce (s : State) (e : Fin 4) (cause point : Nat) : State :=
  let t := s.sharedAt point
  let s := (s.wrP (F.TRG_LAST_LO_TIME e) t.1).wr (F.TRG_LAST_FINE_FINE e) t.2
  let s := (allFin 8).foldl (fun s n =>
    if s.rd (F.SEQ_TOUT_SEL_SRC n) = toutTrigger ∧ s.rd (F.SEQ_TOUT_SEL_SEL n) = e.1 then
      s.pulseOut n ((point : Int) + 128 * 4096 + 4 * s.rdS F.TMG_MOD_DELAY_DELAY).toNat      -- 40.0 ns are 128 master ticks
    else s) s
  let s := (allFin 16).foldl (fun s (b : Fin 16) =>
    if s.rd (F.TRC_CFG_START b) = 2 ∧ s.rd (F.TRC_CFG_SEL b) = e.1 ∧ s.rd (F.TRC_STATUS_STATE b) = 1 then
      s.wr (F.TRC_STATUS_STATE b) 2                         -- a trace buffer starts at the trigger point (R264)
    else s) s
  s.raise (Ev.trg e) (if cause = 2 then 5 else 1)

/-- A trigger of an engine by itself: recorded while it waits, ignored and counted while a record or the holdoff lasts. Samples
already taken that lie at or after its point belong to the record from the trigger sample on (R214). -/
def State.trgFire (s : State) (e : Fin 4) (cause point : Nat) : State :=
  if s.trgState e = 0 then s
  else if s.trgState e ≠ 1 then s.incSat (F.TRG_STATUS_IGNORED e)
  else
    let recs := s.rd (F.TRG_STORE_RECS e)
    if recs = 0 ∨ (recs ≤ s.acq.trg[e].unread ∧ s.on (F.TRG_CTRL_OVERWRITE e) = false) then s.trgFull e
    else
      let stamp := s.sharedAt point
      let start := fun k : Trg =>
        let l := k.ring.reverse
        let before := l.filter fun x => decide (x.time < point)
        let post := (l.filter fun x => decide (point ≤ x.time)).take k.post
        { k with cur := some { cause := cause, point := point, stamp := stamp, pre := before.drop (before.length - k.pre), post := post, cut := false }
                 qual := none, ring := [] }
      let s := (s.modTrg e start).wr (F.TRG_STATUS_STATE e) 2
      match s.acq.trg[e].cur with
      | some r => (s.writeRecord e r false).trgAnnounce e cause point
      | none => s

/-- A qualifier event of an engine, by COMB (R208). -/
def State.trgQualify (s : State) (e : Fin 4) (point : Nat) : State :=
  match s.comb e with
  | 2 | 4 => s.trgFire e 1 point
  | 3 => if s.trgState e = 1 then s.modTrg e fun k => { k with qual := some (k.qual.getD point) } else s
  | _ => s

/-- A trigger, and the qualifier events of QSRC 6 that it gives the other engines, which may trigger in turn: each engine
is reached once, so no chain is longer than the four engines (R207). -/
def State.trgChain : Nat → State → Fin 4 → Nat → State
  | 0, s, _, _ => s
  | n + 1, s, e, point =>
    (allFin 4).foldl (fun s f =>
      if s.qsrc f = 6 ∧ s.rd (F.TRG_QUAL_QSEL f) = e.1 ∧ f ≠ e then
        let was := s.trgState f
        let s := s.trgQualify f point
        if was = 1 ∧ s.trgState f = 2 then State.trgChain n s f point else s
      else s) s

/-- A trigger with everything that follows from it. -/
def State.trigger (s : State) (e : Fin 4) (cause point : Nat) : State :=
  let was := s.trgState e
  let s := s.trgFire e cause point
  if was = 1 ∧ s.trgState e = 2 then s.trgChain 3 e point else s

/-- A qualifier event with everything that follows from it. -/
def State.qualEvent (s : State) (e : Fin 4) (point : Nat) : State :=
  let was := s.trgState e
  let s := s.trgQualify e point
  if was = 1 ∧ s.trgState e = 2 then s.trgChain 3 e point else s

/-- The qualifier events of the source DSC (R207): 0 marker, 1 peak-current trip, 2 window trip, 3 and 4 crossings. -/
def State.dscEvent (s : State) (d : Fin 16) (ev : Nat) : State :=
  (allFin 4).foldl (fun s (e : Fin 4) =>
    if s.qsrc e = 4 ∧ s.dscev e = ev ∧ s.rd (F.TRG_SRC_DSC e) = d.1 then s.qualEvent e s.fuNow else s) s

/-- A sample that an engine takes: kept before a trigger, added to the record after it, dropped in the holdoff. A record
that has all its samples waits for its completion (R214, R216). -/
def State.takeSample (s : State) (e : Fin 4) (x : TrgSamp) : State :=
  let k := s.acq.trg[e]
  let s := if x.lost && (s.trgState e == 1 || s.trgState e == 2) then (s.incSat (F.TRG_LOST_COUNT e)).event (Ev.trg e) 4 else s
  match s.trgState e, k.cur with
  | 1, _ => s.modTrg e fun k => { k with ring := x :: k.ring }
  | 2, some r =>
    if r.post.isEmpty ∧ x.time < r.point then
      let pre := (r.pre ++ [x]).drop (r.pre.length + 1 - k.pre)
      s.modTrg e fun k => { k with cur := some { r with pre := pre } }
    else if r.post.length < k.post ∧ r.cut = false then
      let r := { r with post := r.post ++ [x] }
      (s.modTrg e fun k => { k with cur := some r }).writeRecord e r false
    else s
  | _, _ => s

/-- Whether a record waits only for its completion: all its samples taken, or cut short. -/
def State.recDone (s : State) (e : Fin 4) : Bool :=
  match s.acq.trg[e].cur with
  | some r => r.cut || decide (s.acq.trg[e].post ≤ r.post.length)
  | none => false

/-- Cuts the record in progress of an engine short (R213, R214). [log 48: DEDUCED] -/
def State.cutRecord (s : State) (e : Fin 4) : State :=
  s.modTrg e fun k => { k with cur := k.cur.map fun r => { r with cut := true } }

/-- The record is complete (R216): its header is written with COMPLETE, RECORD_DONE is set, and the engine goes into the
holdoff, or disarms in SINGLE mode or with its store full. -/
def State.completeRecord (s : State) (e : Fin 4) : State :=
  match s.acq.trg[e].cur with
  | none => s
  | some r =>
    let s := s.writeRecord e r true
    let recs := s.rd (F.TRG_STORE_RECS e)
    let unread := min recs (s.acq.trg[e].unread + 1)
    let next := fun k : Trg => { k with cur := none, seqno := k.seqno + 1, slot := (k.slot + 1) % max 1 recs }
    let s := ((s.modTrg e next).setUnread e unread).event (Ev.trg e) 1
    let mode := s.rd (F.TRG_CTRL_MODE e)
    if recs ≤ unread ∧ s.on (F.TRG_CTRL_OVERWRITE e) = false then s.trgFull e
    else if mode = 1 ∨ mode = 3 then s.trgOff e
    else s.wr (F.TRG_STATUS_STATE e) 3

/-- DISARM (R213): a record in progress ends at once, truncated. -/
def State.trgDisarm (s : State) (e : Fin 4) : State :=
  let s := if s.trgState e = 2 then (s.cutRecord e).completeRecord e else s
  s.trgOff e

/-! ## Gates of a unit (R224, R228, R237, R238) -/

/-- The state of a unit: 0 disarmed, 1 armed, 2 gate open, 3 slaved, 4 an arm held by a calibration. -/
abbrev State.tmuState (s : State) (u : Fin 32) : Nat := s.rd (F.TMU_STATUS_STATE u)

/-- The function of a gate (R225); 5 to 7 are treated as 0. -/
def State.tmuFunc (s : State) (u : Fin 32) : Nat := if s.rd (F.TMU_CTRL_FUNC u) ≤ 4 then s.rd (F.TMU_CTRL_FUNC u) else 0

/-- The partner of a unit under FUNC 2 and 3 (R226). -/
def State.partnerOf (s : State) (u : Fin 32) : Option (Fin 32) :=
  if s.tmuFunc u = 2 ∨ s.tmuFunc u = 3 then some (fin 32 (s.rd (F.TMU_SRC_PARTNER u))) else none

/-- A byte string written into a ring at an offset, wrapping at its end. -/
def State.writeRing (s : State) (p : Place) (off : Nat) (l : List Byte) : State :=
  let o := off % max 1 p.bytes
  let n := p.bytes - o
  (s.writePlace p o (l.take n)).writePlace p 0 (l.drop n)

/-- Blocks of the ring given up, oldest first, until `need` bytes are free beside `open_` bytes in use (R229, WRAP 1). -/
def dropBlocks (size need : Nat) (open_ : Nat) : List Nat → List Nat
  | [] => []
  | b :: r => if (b :: r).sum + open_ + need ≤ size then b :: r else dropBlocks size need open_ r

/-- Makes room for `n` more bytes of a unit's open block: the unit, or none where the ring has no room. -/
def Tmu.room (k : Tmu) (wrap : Bool) (n : Nat) : Option Tmu :=
  let size := (k.place.map (·.bytes)).getD 0
  let used := ((k.gate.bind (·.block)).map (·.2)).getD 0 + (k.closed.map fun g => ((g.block.map (·.2)).getD 0)).sum
  if k.blocks.sum + used + n ≤ size then some k
  else if wrap then
    let l := dropBlocks size n used k.blocks
    if l.sum + used + n ≤ size then some { k with blocks := l } else none
  else none

/-- The 64-bit word of a stamp (R231). -/
def Stamp.word (x : Stamp) (partner : Bool) : Nat :=
  x.value % 4096 + 2 ^ 12 * b2n x.fall + 2 ^ 13 * b2n x.unref + 2 ^ 14 * b2n partner + 2 ^ 16 * (x.value / 4096 % 2 ^ 48)

/-- The header of an open block: nothing of the results yet (R230). -/
def gateHeader (u : Nat) (g : Gate) : List Byte :=
  bytesLE 4 0x53544851 ++ bytesLE 1 u ++ bytesLE 1 g.func ++ bytesLE 2 0 ++ bytesLE 4 g.no ++ bytesLE 4 0 ++
    bytesLE 8 g.openTime ++ bytesLE 8 g.openS ++ bytesLE 96 0

/-- Opens a gate at an instant in fine units; with STORE, its block starts in the ring. -/
def State.openGate (s : State) (u : Fin 32) (fu : Nat) : State :=
  let k := s.acq.tmu[u]
  let wrap := s.on (F.TMU_CTRL_WRAP u)
  let g0 : Gate :=
    { no := k.gateNo, openS := fu, openTime := (s.sharedAt fu).1, stale := s.on (F.TMU_STATUS_STALE u), func := s.tmuFunc u
      window := 4096 * max 1 (s.rd (F.TMU_WINDOW_TICKS u)), prescale := max 1 (s.rd (F.TMU_PRESCALE_N u)) }
  let s := match s.partnerOf u with
    | some p => s.modTmu p fun k => { k with edges := 0 }
    | none => s
  let start := fun (k : Tmu) (g : Gate) => { k with gate := some g, gateNo := k.gateNo + 1, due := false }
  let s := s.wr (F.TMU_STATUS_STATE u) 2
  if s.on (F.TMU_CTRL_STORE u) then
    match k.place, k.room wrap 128 with
    | some p, some k' =>
      let s := s.modTmu u fun _ => start { k' with head := (k.head + 128) % max 1 p.bytes } { g0 with block := some (k.head, 128) }
      s.writeRing p k.head (gateHeader u g0)
    | _, _ => (s.modTmu u fun k => start k g0).event (Ev.tmu u) 5
  else s.modTmu u fun k => start k g0

/-- A unit and its partner disarm (R226). -/
def State.tmuOff (s : State) (u : Fin 32) : State :=
  let s := (s.modTmu u fun k => { k with heldArm := false, due := false, gate := none }).wr (F.TMU_STATUS_STATE u) 0
  (allFin 32).foldl (fun s (p : Fin 32) =>
    if s.acq.tmu[p].master = some u.1 then (s.modTmu p fun k => { k with master := none }).wr (F.TMU_STATUS_STATE p) 0 else s) s

/-- Closes the open gate of a unit (R224): its results become final later; the next gate follows at once with CONT on a
TIME or COUNT gate, or on the same burst after the 16 s `limit`; a BURST gate with CONT waits for the next burst; otherwise
the unit disarms. -/
def State.closeGate (s : State) (u : Fin 32) (full cut : Bool) (limit : Bool := false) : State :=
  let k := s.acq.tmu[u]
  match k.gate with
  | none => s
  | some g =>
    let g := { g with full := full, cut := cut }
    let s := s.modTmu u fun k => { k with gate := none, closed := k.closed ++ [g] }
    let s := s.wr (F.TMU_STATUS_GATES u) (s.rd (F.TMU_STATUS_GATES u) + 1)
    let gsrc := s.rd (F.TMU_GATE_GSRC u)
    if cut || s.on (F.TMU_CTRL_CONT u) == false || gsrc == 3 then s.tmuOff u
    else if gsrc ≤ 1 ∨ limit then s.openGate u s.fuNow
    else s.wr (F.TMU_STATUS_STATE u) 1

/-- What follows a grove's last cycle before an engine of KIND 0. -/
def TrgFeed.ending : TrgFeed :=
  { samp := { time := 0, value := 0, lost := false, drop := false, unref := false, void := false }, judged := 0, mark := 0, segs := false, ends := true }

/-- What the end of a grove does to acquisition (R214, R224): BURST gates close, and records of its engines still short of samples
are closed truncated, those of KIND 0 behind the results that still wait. -/
def State.acqGroveEnd (s : State) (g : Fin 32) : State :=
  let s := (allFin 32).foldl (fun s (u : Fin 32) =>
    if s.rd (F.TMU_GATE_GSRC u) = 2 ∧ s.tmuGrove u = g then
      let s := s.modTmu u fun k => { k with due := false }
      s.closeGate u false false
    else s) s
  (allFin 4).foldl (fun s (e : Fin 4) =>
    let of := if s.acq.trg[e].kind = 3 then s.groveOfDsc (fin 16 (s.rd (F.TRG_SRC_DSC e))) else some (s.trgGrove e)
    if of ≠ some g ∨ s.trgState e = 0 then s
    else if s.acq.trg[e].kind = 0 then s.modTrg e fun k => { k with feed := k.feed ++ [TrgFeed.ending] }
    else if s.trgState e = 2 ∧ s.recDone e = false then s.cutRecord e else s) s

/-- What the start of a burst does to acquisition: ARM_ON_START engines of its groves arm, and BURST gates on its groves
become due (R213, R224). -/
def State.acqBurstStart (s : State) (groves : List (Fin 32)) : State :=
  let s := (allFin 4).foldl (fun s (e : Fin 4) =>
    if s.on (F.TRG_CTRL_ARM_ON_START e) ∧ groves.contains (s.trgGrove e) then s.trgArm e else s) s
  (allFin 32).foldl (fun s (u : Fin 32) =>
    if s.rd (F.TMU_GATE_GSRC u) = 2 ∧ s.tmuState u = 1 ∧ groves.contains (s.tmuGrove u) then
      s.modTmu u fun k => { k with due := true }
    else s) s

/-- The Firebreak freezes record and stamp stores (R216, R238): records in progress and open gates end without results; a
gate that had closed before still gives its own. [log 48: DEDUCED] -/
def State.acqFreeze (s : State) : State :=
  let s := (allFin 4).foldl (fun s (e : Fin 4) => if s.trgState e = 0 then s else s.trgOff e) s
  (allFin 32).foldl (fun s (u : Fin 32) =>
    if s.tmuState u = 0 ∨ s.tmuState u = 3 then s else s.tmuOff u) s

/-- Whether a boundary-scan instruction holds the pins: EXTEST, CLAMP or HIGHZ (R448, R466). -/
def State.tapHold (s : State) : Bool := decide (3 ≤ s.tap) && decide (s.tap ≤ 5)

end Sys2Proof.Machine
end

