-- ==== Sys2Proof/Machine/Supply.lean ====
section
/-! DEFINITION. Shared operations of the device supply channels: block-floating arithmetic (R245 to R247), opening a stage,
the repetitive controller's passes (R256 to R262), trace buffers (R263, R264), and pulse generators (R266 to R278). -/

namespace Sys2Proof.Machine

def State.modDsc (s : State) (d : Fin 16) (f : Dsc → Dsc) : State := { s with dscs := upd s.dscs d f }
def State.modPgn (s : State) (d : Fin 16) (f : Pgn → Pgn) : State := s.modDsc d fun k => { k with pgn := f k.pgn }

/-! ## Block-floating arithmetic (R245 to R247) -/

/-- The value of a block-floating number. -/
def Bfp.val (x : Bfp) : ℚ := x.m * 2 ^ x.e / 2 ^ 48

/-- Rounds to the nearest integer, ties to even. [log 49: DESIGN CHOICE] -/
def roundEven (q : ℚ) : Int :=
  let f := ⌊q⌋
  let r := q - f
  if r < 1 / 2 then f else if 1 / 2 < r then f + 1 else if f % 2 = 0 then f else f + 1

/-- The mantissa of a value at an exponent. -/
def mantAt (e : Nat) (q : ℚ) : Int := roundEven (q * 2 ^ 48 / 2 ^ e)

/-- The largest mantissa of a width. -/
def mantMax (bits : Nat) : Int := 2 ^ (bits - 1) - 1

/-- Whether a value fits a mantissa width at an exponent. -/
def fitsAt (bits e : Nat) (q : ℚ) : Bool := decide (-(mantMax bits) - 1 ≤ mantAt e q) && decide (mantAt e q ≤ mantMax bits)

/-- Rounds the results of a stage to the smallest common exponent at which the largest fits, and says whether one had to be
replaced by the largest magnitude (R245, R247). Step 4 of R245 changes nothing then: at a smaller exponent the largest
result would not fit. [log 49: DESIGN CHOICE] -/
def stage (bits : Nat) (l : List ℚ) : List Bfp × Bool :=
  match (List.range 64).find? fun e => l.all (fitsAt bits e) with
  | some e => (l.map fun q => ⟨mantAt e q, e⟩, false)
  | none => (l.map fun q => if fitsAt bits 63 q then ⟨mantAt 63 q, 63⟩ else ⟨if q < 0 then -(mantMax bits) else mantMax bits, 63⟩, true)

/-- One value in 18 bits, with the exponent of its own. [log 49: DESIGN CHOICE] -/
def bfpOf (q : ℚ) : Bfp := ((stage 18 [q]).1).headD {}

/-- Whether a value saturates in 18 bits (R247). -/
def bfpSat (q : ℚ) : Bool := (stage 18 [q]).2

/-- A value as a held 36-bit state, and whether it saturated (R246, R247). -/
def held36 (q : ℚ) : Bfp × Bool := (((stage 36 [q]).1).headD {}, (stage 36 [q]).2)

/-- A block-floating number read from a mantissa and an exponent field. -/
def State.bfpAt (s : State) (m e : Fld) : Bfp := ⟨s.rdS m, s.rd e⟩

/-- Writes a block-floating number to a mantissa and an exponent field. -/
def State.putBfp (s : State) (m e : Fld) (x : Bfp) : State := s.wrs [(m, zx 18 x.m), (e, x.e)]

/-! ## Configuration of a channel -/

/-- Samples per ms, and the delay D in samples (R240). -/
def State.rate (s : State) (d : Fin 16) : Nat := max 1 (s.fsw d * s.smul d)
def State.delayD (s : State) (d : Fin 16) : Nat := max 1 ((s.rate d + 3999) / 4000)

/-- V_MAX in µV and I_MAX in 10 µA. -/
def State.vMax (s : State) (d : Fin 16) : Nat := 1000 * s.rd (F.STR_DSC_V_MAX_MV d)
def State.iMax (s : State) (d : Fin 16) : Nat := 1000 * s.rd (F.DSC_IMAX_I_MAX d)

/-- The mode in force. -/
abbrev State.dscMode (s : State) (d : Fin 16) : Nat := s.rd (F.DSC_STATUS_MODE d)

/-- Whether a channel is bound (R239). -/
def State.dscBound (s : State) (d : Fin 16) : Bool := (s.groveOfDsc d).isSome

/-- A self-check runs. -/
def State.selfChecking (s : State) (d : Fin 16) : Bool := s.on (F.CMP_ST_CTRL_GO d)

/-- The Firebreak's ramp controller holds the channel (R427). [log 95: DEDUCED] -/
def State.ramping (s : State) (d : Fin 16) : Bool := s.flt.ramping.contains d.1

/-- DSC_FLT_L is low and acted on. -/
def State.fltHeld (s : State) (d : Fin 16) : Bool := s.on (F.CMP_LEVEL_FLT d) && s.dscs[d].stageFlt

/-! ## Trace buffers (R263, R264) -/

/-- One entry of a trace buffer, written at its place in the ring. -/
def State.traceEntry (s : State) (b : Fin 16) (word : Nat) (lost : Bool) : State :=
  let t := s.trcs[b]
  let len := min 65536 (max 1 (s.rd (F.TRC_LEN_LEN b)))
  match (s.forest.traces.find? fun p => p.1 == b.1) with
  | none => s
  | some (_, p) =>
    if lost || s.flt.frozen then s.incSat (F.TRC_STATUS_LOST b)
    else
      let s := s.writePlace p (4 * (t.written % len)) (bytesLE 4 word)
      let n := t.written + 1
      let s := { s with trcs := upd s.trcs b fun t => { t with written := n } }.wr (F.TRC_COUNT_ENTRIES b) (min n len)
      if len ≤ n ∧ s.on (F.TRC_CFG_WRAP b) = false then s.wr (F.TRC_STATUS_STATE b) 3 else s

/-- What a traced sample shows: its nodes by number, range bit, governor, drop, first index of a pass, late command. -/
structure TraceIn where
  node  : Nat → Bfp
  low   : Bool
  gov   : Bool
  drop  : Bool
  pass0 : Bool
  late  : Bool
  slot  : Option Nat
  mode  : Nat

/-- Records one sample of a channel in every trace buffer that traces it; a buffer that waits starts by its condition. -/
def State.traceSample (s : State) (d : Fin 16) (x : TraceIn) (behind : Nat) : State :=
  (allFin 16).foldl (fun s (b : Fin 16) =>
    if s.rd (F.TRC_CFG_DSC b) ≠ d.1 then s
    else
      let st := s.rd (F.TRC_STATUS_STATE b)
      let start := s.rd (F.TRC_CFG_START b)
      let now := b2n x.gov + 2 * x.mode
      let was := s.trcs[b].seen
      let begins : Bool := match start with
        | 1 => x.pass0 && x.slot == some (s.rd (F.TRC_CFG_SEL b))
        | 2 => false
        | 3 => was % 2 != now % 2
        | 4 => was / 2 != now / 2
        | _ => true
      let s := { s with trcs := upd s.trcs b fun t => { t with seen := now } }
      let s := if st = 1 ∧ begins then s.wr (F.TRC_STATUS_STATE b) 2 else s
      if s.rd (F.TRC_STATUS_STATE b) ≠ 2 then s
      else
        let dec := max 1 (s.rd (F.TRC_CFG_DECIM b))
        let k := s.trcs[b].skip
        let s := { s with trcs := upd s.trcs b fun t => { t with skip := (k + 1) % dec } }
        if k ≠ 0 then s
        else
          let n := s.rd (F.TRC_CFG_NODE b)
          let v := if n ≤ 11 then x.node n else {}
          s.traceEntry b (zx 18 v.m + 2 ^ 18 * v.e + 2 ^ 24 * b2n x.low + 2 ^ 25 * b2n x.gov + 2 ^ 26 * b2n x.drop
            + 2 ^ 27 * b2n x.pass0 + 2 ^ 28 * b2n x.late) (bitOf behind b.1)) s

/-! ## Passes of the repetitive controller (R257 to R262) -/

/-- The state of a slot: 0 unbound, 1 EMPTY, 2 LEARNED, 3 RETIRING, 4 INVALID, 5 TOO_LONG. -/
abbrev State.slotState (s : State) (d : Fin 16) (p : Nat) : Nat := s.rd (F.DSC_RC_STAT_STATE d p)

/-- What DSC_STATUS shows of the active pass. -/
def State.notePass (s : State) (d : Fin 16) : State :=
  match s.dscs[d].pass with
  | some p => s.wrs [(F.DSC_STATUS_ACTIVE d, p.slot.1 + 1), (F.DSC_STATUS_INDEX d, p.k)]
  | none => s.wrs [(F.DSC_STATUS_ACTIVE d, 0), (F.DSC_STATUS_INDEX d, 0)]

/-- Commits a clean pass's learned profile in one step, or counts it as discarded (R259, R260). -/
def State.settlePass (s : State) (d : Fin 16) (p : RcPass) : State :=
  match p.len with
  | none => s
  | some len =>
    if p.clean = false then s.incSat (F.DSC_RC_CNT_DISCARD d)
    else
      let s := s.incSat (F.DSC_RC_CNT_CLEAN d)
      if p.learns = false then s
      else
        let sl := s.dscs[d].slots[p.slot]
        let qn := (List.range len).map fun k =>
          let v := p.forget.val * (⟨sl.q.getD k 0, sl.e⟩ : Bfp).val + p.gain.val * (p.ev.getD k {}).val
          max (-p.qmax.val) (min p.qmax.val v)
        let r := stage 36 qn
        let put := fun x : RcSlot => { x with q := r.1.map (·.m), e := ((r.1).headD {}).e }
        let s := s.modDsc d fun k => { k with slots := upd k.slots p.slot put }
        let s := if r.2 then s.event (Ev.dsc d) 10 else s
        if s.slotState d p.slot = 1 then s.wr (F.DSC_RC_STAT_STATE d p.slot) 2 else s

/-- Whether a pass has run its length. -/
def RcPass.ran (p : RcPass) : Bool :=
  match p.len with
  | some l => decide (l ≤ p.k)
  | none => false

/-- Ends the active pass of a channel: one that has run its length is settled or waits for its last errors, another one is
not clean (R258, R259). -/
def State.endPass (s : State) (d : Fin 16) : State :=
  match s.dscs[d].pass with
  | none => s
  | some p =>
    let s := s.modDsc d fun k => { k with pass := none }
    let s := if p.ran then
        if p.clean = false ∨ p.k ≤ p.ev.length then s.settlePass d p else s.modDsc d fun k => { k with closing := k.closing ++ [p] }
      else s.incSat (F.DSC_RC_CNT_DISCARD d)
    s.notePass d

/-- The active pass is not clean (R259). -/
def State.soilPass (s : State) (d : Fin 16) : State :=
  s.modDsc d fun k => { k with pass := k.pass.map fun p => { p with clean := false } }

/-- The pass of a sample is not clean, the active one or one that waits for its last errors (R259). -/
def State.soilOf (s : State) (d : Fin 16) (x : DscSamp) : State :=
  let soil := fun p : RcPass => if x.pass.map (·.1) = some p.start then { p with clean := false } else p
  s.modDsc d fun k => { k with pass := k.pass.map soil, closing := k.closing.map soil }

/-- Passes that wait for their last errors and for which those will not come, of one slot or of all, are not clean (R259). -/
def State.dropClosing (s : State) (d : Fin 16) (which : Option (Fin 4)) : State :=
  let out := s.dscs[d].closing.filter fun x => which == none || which == some x.slot
  let s := s.modDsc d fun k => { k with closing := k.closing.filter fun x => !(which == none || which == some x.slot) }
  s.wr (F.DSC_RC_CNT_DISCARD d) (min 65535 (s.rd (F.DSC_RC_CNT_DISCARD d) + out.length))

/-- Whether the repetitive controller accepts deliveries (R256). -/
def State.rcOn (s : State) (d : Fin 16) : Bool := s.on (F.DSC_CFG_RC_EN d) && (s.dscMode d == 1 || s.dscMode d == 3)

/-- The slot a marker's delivery matches (R257). -/
def State.slotFor (s : State) (d : Fin 16) (m : Marker) : Option (Fin 4) :=
  (allFin 4).find? fun (p : Fin 4) =>
    s.on (F.DSC_RC_BIND_VALID d p) && s.rd (F.DSC_RC_BIND_SEG d p) == m.seg && s.rd (F.DSC_RC_BIND_GEN d p) == m.gen &&
      s.rd (F.DSC_RC_WORD_WORD d p) == m.word && decide (1 ≤ s.slotState d p) && decide (s.slotState d p ≤ 3)

/-- Measures a slot's length where DSC_RC_LEN is 0 (R261): the shorter of the spacings of its first three deliveries. -/
def State.measure (s : State) (d : Fin 16) (p : Fin 4) (n : Nat) : State :=
  let sl := s.dscs[d].slots[p]
  let sp := match sl.last with
    | some m => if sl.spacings.length < 2 then sl.spacings ++ [n - m] else sl.spacings
    | none => sl.spacings
  let s := s.modDsc d fun k => { k with slots := upd k.slots p fun x => { x with last := some n, spacings := sp } }
  if s.rd (F.DSC_RC_LEN_LEN d p) ≠ 0 then s.wr (F.DSC_RC_STAT_L d p) (min 4096 (s.rd (F.DSC_RC_LEN_LEN d p)))
  else if sp.any fun x => decide (4096 < x) then s.wr (F.DSC_RC_STAT_STATE d p) 5
  else match sp with
    | [a, b] => s.wr (F.DSC_RC_STAT_L d p) (min a b)
    | _ => s.wr (F.DSC_RC_STAT_L d p) 0

/-- An accepted delivery: the pass of the slot begins at sample `n`; a late one skips the samples since (R257, R258, R262). -/
def State.acceptPass (s : State) (d : Fin 16) (p : Fin 4) (n : Nat) (late : Bool) : State :=
  let other : Option (Fin 4) := match s.dscs[d].pass with
    | some q => if q.slot ≠ p ∧ q.ran = false then some q.slot else none
    | none => none
  let s := s.endPass d
  let forget := fun x : RcSlot => { x with last := none }
  let s : State := match other with
    | some q => s.modDsc d fun k => { k with slots := upd k.slots q forget }
    | none => s
  let s := s.measure d p n
  if s.slotState d p = 5 then s
  else
    let l := s.rd (F.DSC_RC_STAT_L d p)
    let len := if l = 0 then none else some l
    let act := fun c => s.bfpAt (F.DSC_COEF_ACT_M d c) (F.DSC_COEF_ACT_E d c)
    let pass : RcPass :=
      { slot := p, start := n, k := s.dscs[d].n - n, len := len, learns := len.isSome, clean := !late, ev := []
        gain := act 8, forget := act 9, qmax := act 10, lead := s.rd (F.DSC_RC_CFG_LEAD d) }
    let s := s.modDsc d fun k => { k with pass := some pass }
    let s := if late then s.incSat (F.DSC_RC_STAT_LATE d p) else s
    (s.notePass d).dscEvent d 0

/-- The start pulse of a cycle that carries DSCM (R257): of the markers delivered for it, the bound slot with the greatest
nesting depth is accepted; markers not delivered yet are remembered. -/
def State.dscPulse (s : State) (d : Fin 16) (marks : List Marker) : State :=
  let k := s.dscs[d]
  let here := marks.filter fun m => k.delivered.contains m
  let missing := (marks.filter fun m => !k.delivered.contains m).map fun m => (m, k.n)
  let s := s.modDsc d fun k => { k with delivered := here.foldl List.erase k.delivered, pulses := k.pulses ++ missing }
  if s.rcOn d = false then s
  else
    let best := here.foldl (fun (acc : Option (Marker × Fin 4)) m =>
      match s.slotFor d m, acc with
      | some p, some (b, _) => if b.depth < m.depth then some (m, p) else acc
      | some p, none => some (m, p)
      | none, _ => acc) none
    match best with
    | some (_, p) => s.acceptPass d p k.n false
    | none => s

/-- A delivery reaches a channel (R257, R262): before its pulse it waits for it; after it, the pass starts late. -/
def State.dscDeliver (s : State) (d : Fin 16) (m : Marker) : State :=
  match s.dscs[d].pulses.find? fun p => p.1 == m with
  | none => s.modDsc d fun k => { k with delivered := k.delivered ++ [m] }
  | some (_, n) =>
    let s := s.modDsc d fun k => { k with pulses := k.pulses.erase (m, n) }
    match s.slotFor d m with
    | some p => if s.rcOn d then s.acceptPass d p n true else s
    | none => s

/-- A void cycle of a grove: the passes of its channels are not clean (R259, R262). -/
def State.dscVoid (s : State) (g : Fin 32) : State := (s.dscsOf g).foldl State.soilPass s

/-- The end of a grove ends the passes of its channels, and drops deliveries of cycles that will not come. -/
def State.dscGroveEnd (s : State) (g : Fin 32) : State :=
  (s.dscsOf g).foldl (fun s (d : Fin 16) =>
    (s.endPass d).modDsc d fun k => { k with delivered := [], pulses := [] }) s

/-- A generation of a segment is no longer current, or is removed: the slots bound to it retire, or are cleared (R262). -/
def State.slotsRetire (s : State) (seg gen : Nat) (removed : Bool) : State :=
  (allFin 16).foldl (fun s (d : Fin 16) => (allFin 4).foldl (fun s (p : Fin 4) =>
    if s.on (F.DSC_RC_BIND_VALID d p) ∧ s.rd (F.DSC_RC_BIND_SEG d p) = seg ∧ s.rd (F.DSC_RC_BIND_GEN d p) = gen ∧ s.slotState d p ≠ 0 then
      if removed then
        let s := (if (s.dscs[d].pass.map (·.slot)) = some p then s.endPass d else s).dropClosing d (some p)
        ((s.modDsc d fun k => { k with slots := upd k.slots p fun _ => {} }).wr (F.DSC_RC_STAT_STATE d p) 4).event (Ev.dsc d) 6
      else s.wr (F.DSC_RC_STAT_STATE d p) 3
    else s) s) s

/-! ## Opening a stage (R241, R242) -/

/-- The channel enters DISCONNECT with a cause: 0 request or reset, 1 STAGE_FAULT, 2 PARITY, 3 FIREBREAK, 4 RELOAD. -/
def State.dscOpen (s : State) (d : Fin 16) (cause : Nat) : State :=
  let s := (s.endPass d).dropClosing d none
  let s := s.modDsc d fun k =>
    { k with req := none, tune := none, wait := [], cmds := [], applied := [], dv := {}, under := 0, lastU := {}
             pgn := { k.pgn with en := false, on := 0, duty := {}, first := false, ahead := false } }
  s.wrs [(F.DSC_STATUS_MODE d, 0), (F.DSC_STATUS_GOV d, 0), (F.DSC_STATUS_CAUSE d, cause)]

/-- The ramp of a channel ends, some microseconds after its cause: the stage is opened (R427). Outcomes as R436 numbers them. -/
def State.endRamp (s : State) (d : Fin 16) (outcome us : Nat) : State :=
  if s.ramping d then
    let s := s.dscOpen d 3
    { s with flt := { s.flt with ramping := s.flt.ramping.filter (· ≠ d.1), opened := (d.1, outcome, us) :: s.flt.opened } }
  else s

/-! ## The pulse generator (R266, R272 to R278) -/

/-- Steps in a switching period (R266). -/
def State.pgnN (s : State) (d : Fin 16) : Nat := s.rd (F.PGN_STATUS_N d)

/-- SPHASE, clipped (R267). -/
def State.sphase (s : State) (d : Fin 16) : Nat := min (s.rd (F.PGN_PHASE_SPHASE d)) (s.pgnN d / s.smul d - 1)

/-- Whether the instant `k` steps after a period start falls in the present raw tick of 16 steps: period m starts m × N + OFFSET
steps after the end of module reset (R266). [log 5: DESIGN CHOICE] -/
def State.stepDue (s : State) (d : Fin 16) (k : Int) : Bool :=
  decide (((16 * s.tim.raw + 15 : Nat) - (s.rd (F.PGN_PHASE_OFFSET d) + k) : Int) % (max 1 (s.pgnN d) : Nat) < 16)

/-- A sample instant: SPHASE steps before a period start, and with SMUL 2 before a half-period point too (R267). -/
def State.sampleDue (s : State) (d : Fin 16) : Bool :=
  let sp : Int := s.sphase d
  s.stepDue d (-sp) || (s.smul d == 2 && s.stepDue d ((s.pgnN d / 2 : Nat) - sp))

/-- The words in force since the period start: BLANK, DT, LIM, IPK, SLOPE, WIN_HI, WIN_LO, OVP (R278). -/
def State.pgnWords (s : State) (d : Fin 16) : List Nat :=
  [s.rd (F.CMP_BLANK_STEPS d), s.rd (F.PGN_DT_DT_RISE d) + 2 ^ 16 * s.rd (F.PGN_DT_DT_FALL d),
    s.rd (F.PGN_LIM_MIN_ON d) + 2 ^ 16 * s.rd (F.PGN_LIM_MIN_OFF d), s.rd (F.CMP_IPK_I d), s.rd (F.CMP_SLOPE_MA_PER_US d),
    s.rd (F.CMP_WIN_HI_UV d), s.rd (F.CMP_WIN_LO_UV d), s.rd (F.CMP_OVP_UV d)]

/-- The on-time of a duty within the limits in force: no pulse below MIN_ON, none longer than N − MIN_OFF (R276). -/
def Pgn.steps (p : Pgn) (n : Nat) (u : Bfp) : Nat :=
  let lim := p.force.getD 2 0
  let on := (⌊u.val * n + 1 / 2⌋).toNat
  if on < lim % 2 ^ 16 then 0 else min on (n - lim / 2 ^ 16)

/-- What a pulse cut or suppressed by a level does: it is counted once a period (R274). -/
def State.noteCut (s : State) (d : Fin 16) (pcc window : Bool) : State :=
  let p := s.dscs[d].pgn
  let s := if pcc && !p.pccCut then s.incWrap (F.CMP_TRIPS_PCC d) else s
  let s := if window && !p.winCut then s.incWrap (F.CMP_TRIPS_WIN d) else s
  let s := s.raise (Ev.cmp d) (b2n (pcc && !p.pccCut) + 2 * b2n (window && !p.winCut))
  let c := if pcc && !p.pccCut then p.cuts + 1 else p.cuts
  (s.modPgn d fun p => { p with pccCut := p.pccCut || pcc, winCut := p.winCut || window, cut := true, cuts := c }).soilPass d

/-- The report of the command latched last: the on-time of the pulse it governs, as DSC_DUTY shows it (R248, R277). -/
def State.reportOn (s : State) (d : Fin 16) (on : Nat) : State :=
  let put : List (Nat × Nat) → List (Nat × Nat)
    | [] => []
    | x :: l => (x.1, on) :: l
  (s.modDsc d fun k => { k with applied := put k.applied }).wr (F.DSC_DUTY_APPLIED d) (min 65535 (on * 65536 / max 1 (s.pgnN d)))

/-- A level ends the pulse in progress at a step of the period (R272); no pulse in progress leaves nothing to cut. -/
def State.cutPulse (s : State) (d : Fin 16) (step : Nat) (pcc window : Bool) : State :=
  if step < s.dscs[d].pgn.on then ((s.modPgn d fun p => { p with on := step }).noteCut d pcc window).reportOn d step else s

/-- The command of a sample is latched at a sample instant (R277): it moves the trailing edge of a pulse in progress, which falls
one step after the latch if the new edge has passed, or governs the next period, for which its own on-time stands until that
period starts. A command latched before it that governed no pulse reports the on-time of the period in progress. [log 167: DESIGN CHOICE] -/
def State.latchDuty (s : State) (d : Fin 16) (no : Nat) (u : Bfp) : State :=
  let p := s.dscs[d].pgn
  let n := s.pgnN d
  let sp := s.sphase d
  let at_ := if s.smul d = 2 ∧ p.samp = 0 then n / 2 - sp else n - sp
  let edge := p.steps n u
  let now := decide (at_ < p.on) && !p.cut
  let on := if now then (if edge ≤ at_ then at_ + 1 else edge) else p.on
  let s := if p.ahead then s.reportOn d p.on else s
  let s := s.modDsc d fun k => { k with applied := ((no, if now then on else edge) :: k.applied).take 6 }
  let s := s.modPgn d fun p => { p with duty := u, on := on, ahead := !now }
  if now then s.reportOn d on else s

/-- The duty reported as applied for the command of the sample D before one; with no such command, for the duty repeated (R240,
R248, R277). -/
def State.appliedDuty (s : State) (d : Fin 16) (no : Nat) : ℚ :=
  let k := s.dscs[d]
  let on := match k.applied.find? fun c => c.1 + s.delayD d == no with
    | some c => c.2
    | none => ((k.applied.head?).map (·.2)).getD k.pgn.on
  (on : ℚ) / max 1 (s.pgnN d)

/-- CMP_ST_GO (R279): a self-check starts in DISCONNECT, and otherwise completes at once with BUSY. -/
def State.cmpGo (s : State) (d : Fin 16) : State :=
  if s.selfChecking d then s
  else if s.dscMode d = 0 then s.wr (F.CMP_ST_CTRL_GO d) 1
  else (s.wrs [(F.CMP_ST_RESULT_RESULT d, 3), (F.CMP_ST_RESULT_ABORTED d, 0), (F.CMP_ST_RESULT_FAILS d, 0)]).event (Ev.cmp d) 3

/-! ## The sense paths (R268 to R270) -/

/-- The sensed voltage of a code, in µV. -/
def senseV (code : Nat) : Int := ((code % 16384 : Nat) : Int) * 500 - 256000

/-- The current of a code in 10 µA: code times the path's LSB in µV, through the shunt, rounded to nearest, inverted, clipped
(R269). [log 169: DEDUCED] -/
def State.senseI (s : State) (d : Fin 16) (code : Int) (low : Bool) : Int :=
  let r := max 1 (s.rd (F.CMP_RSHUNT_UOHM d))
  let uv := code * (if low then 32 else 2)
  let v := ⌊((uv * 100000 : ℤ) : ℚ) / r + 1 / 2⌋
  let v := if s.dscs[d].senseInv then -v else v
  max (-(2 ^ 23)) (min (2 ^ 23 - 1) v)

/-- The range decision of one sample (R270): whether it takes the low-gain value. -/
def rangeLow (state : Nat) (h : Int) (ovld : Bool) : Bool :=
  ovld || (if state = 0 then decide (7168 ≤ h.natAbs) else decide (7104 < h.natAbs))

end Sys2Proof.Machine
end

