-- ==== Sys2Proof/Machine/Bursts.lean ====
section
/-! DEFINITION. Shared operations of a burst's life (R8 to R16, R26, R27, R116 to R119, R199 to R201): reservation and grant
of waiting bursts, snapshots, the end of a grove and of a burst, and the boundary of a stop or an abort. -/

namespace Sys2Proof.Machine

/-- The codes of R119. -/
def EndReason.code : EndReason → Nat
  | .halt => 1 | .stopped => 2 | .aborted => 3 | .underrun => 4 | .detached => 5 | .seqError => 6
  | .grantFailed => 7 | .abortedBeforeStart => 8 | .firebreak => 9

/-- The state a burst takes from the reasons of its groves (R119): 2 aborted, 1 stopped, 0 completed. -/
def stateOf (l : List EndReason) : Nat :=
  if l.any fun r => [3, 4, 6, 7, 8, 9].contains r.code then 2
  else if l.any fun r => r.code == 2 then 1 else 0

/-- How a grove of a burst has ended, if it has: a burst cut while it was Declared has one reason for all, and one still
Declared has none, whatever the grove did before (R117, R514). -/
def State.endOf (s : State) (b : Burst) (g : Fin 32) : Option EndReason :=
  match b.early with
  | some e => some e.1
  | none => if b.stage = .declared then none else s.groves[g].ended

/-- Every grove of a burst has ended. -/
def State.allEnded (s : State) (b : Burst) : Bool := (grovesIn b.ops.groves).all fun g => (s.endOf b g).isSome

/-- The state of a burst. -/
def State.burstState (s : State) (b : Burst) : Nat := stateOf ((grovesIn b.ops.groves).filterMap fun g => s.endOf b g)

/-! ## Reservation and grant (R26, R27) -/

/-- A burst reserves its demand from Granted until it enters Ended. -/
def Burst.reserves (b : Burst) : Bool := decide (b.stage = .granted) || decide (b.stage = .armed) || decide (b.stage = .running)

/-- The reserved demand. -/
def State.reserved (s : State) : Nat := ((s.bursts.filter Burst.reserves).map (·.ops.demand)).sum

/-- The bursts that wait for a grant, in the order of admission (R27). -/
def State.waiting (s : State) : List Burst :=
  sortBy (fun a b => decide (a.order < b.order)) (s.bursts.filter fun b => decide (b.stage = .admitted))

/-- Writes what FAB_RESERVED and FAB_STATUS show of the queue. -/
def State.noteQueue (s : State) : State :=
  s.wrs [(F.FAB_RESERVED_RESERVED, s.reserved), (F.FAB_RESERVED_HEAD_DEMAND, (s.waiting.head?.map (·.ops.demand)).getD 0),
    (F.FAB_STATUS_QUEUED, s.waiting.length)]

/-- Marks the first waiting burst Granted if its demand fits under the grant and the ceiling beside the reserved demand. -/
def State.grantOne (s : State) : State :=
  match s.waiting with
  | b :: _ =>
    if s.reserved + b.ops.demand ≤ s.rd F.FAB_GRANT_GRANT ∧ s.reserved + b.ops.demand ≤ s.rd F.FAB_GRANT_CEIL then
      s.modBurst b.hdr.tag b.hdr.epoch fun b => { b with stage := .granted }
    else s
  | [] => s

/-- Grants waiting bursts in order while the grant covers them, and lets a grant above the ceiling fall to the reserved
demand (R26, R27). -/
def State.grantWaiting (s : State) : State :=
  let s := (List.range s.waiting.length).foldl (fun s _ => s.grantOne) s
  let c := s.rd F.FAB_GRANT_CEIL
  let s := if c < s.rd F.FAB_GRANT_GRANT then s.wr F.FAB_GRANT_GRANT (max s.reserved c) else s
  s.noteQueue

/-! ## Snapshots (R199 to R201) -/

/-- Copies the pin-side counters of a grove into shadow set `id mod 2`. -/
def State.copyShadow (s : State) (g : Fin 32) (id : Nat) (time : Bool) (st cycle : Nat) : State :=
  let k := id % 2
  let cp := fun (s : State) (p : Fld × Fld) => s.wrP p.1 (s.rdP p.2)
  let s := [(F.CAP_SH_VOID_LO k g, F.FAB_VOID_CNT_LO_COUNT g), (F.CAP_SH_JUDGED_LO k g, F.CAP_G_JUDGED_LO_COUNT g),
    (F.CAP_SH_FAILCYC_LO k g, F.CAP_G_FAILCYC_LO_COUNT g), (F.CAP_SH_FAILS_LO k g, F.CAP_G_FAILS_LO_COUNT g)].foldl cp s
  let s := (s.wrP (F.CAP_SH_CYCLE_LO k g) cycle).wrP (F.CAP_SH_LINES_LO k g) s.groves[g].lines
  let s := (s.chansOf g).foldl (fun (s : State) (c : Fin 128) => s.wr (F.CAP_SH_CH_FAIL_COUNT k c) (s.rd (F.CAP_CH_FAIL_COUNT c))) s
  s.wrs [(F.CAP_SH_ID_ID k g, id), (F.CAP_SH_ID_STATE k g, st), (F.CAP_SH_ID_KIND k g, b2n time)]

/-- The counters of other blocks that are snapshot counters of kind TIME (R199, R274): low words of pairs, and words. [log 166: DEDUCED] -/
def fabCounters : List (Fld × Bool) :=
  ((List.range 4).flatMap fun k => [(F.DMC_SC_HITS_COUNT k, false), (F.DMC_SC_ACTS_COUNT k, false), (F.DMC_SC_REF_POSTPONED k, false)]) ++
    ((List.range 6).map fun p => (F.DMC_PORT_BYTES_LO_COUNT p, true)) ++
    ((List.range 16).flatMap fun d => [(F.CMP_TRIPS_PCC d, false), (F.CMP_TRIPS_WIN d, false)])

/-- Copies the fabric counters for a TIME request (R199); no register of the spec shows the copies. [log 166: DEDUCED] -/
def State.copyFabric (s : State) (id : Nat) : State :=
  let one := fun c : Fld × Bool => (c.1.addr * 32 + c.1.lsb, if c.2 then s.rdP c.1 else s.rd c.1)
  { s with fabSets := s.fabSets.set (fin 2 id) (some (id, fabCounters.map one)) }

/-- The states of R200. -/
abbrev snapPending : Nat := 1
abbrev snapValid : Nat := 2
abbrev snapMissed : Nat := 3
abbrev snapEnded : Nat := 4

/-- The scheduler hears of a set of a grove (R290). -/
def State.snapTell (s : State) (g : Nat) (id st : Nat) : State := s.occurrence 5 g (id + 2 ^ 16 * st)

/-- Removes a pending request and completes its command with the STATE its set took (R200, R321). -/
def State.snapDone (s : State) (p : Snap) (st : Nat) : State :=
  let rest := s.snaps.filter fun q => q.id != p.id
  let s := ({ s with snaps := rest }.wr F.CAP_SNAP_STAT_PENDING rest.length).event Ev.cap 4
  match p.cmd with
  | some h => s.complete h stOk 0 st
  | none => s

/-- A request of kind TIME whose last result is in has copied every grove. -/
def State.snapSettle (s : State) (p : Snap) : State :=
  if p.wait = some [] then s.snapDone p snapValid
  else { s with snaps := s.snaps.map fun q => if q.id = p.id then p else q }

/-- Copies a grove for a pending request of kind TIME whose cycles of the grove are complete. -/
def State.snapGrove (s : State) (p : Snap) (g : Fin 32) (cycle : Nat) : State :=
  let s := (s.copyShadow g p.id true snapValid cycle).snapTell g p.id snapValid
  s.snapSettle { p with wait := p.wait.map fun l => l.filter fun w => w.1 != g.1 }

/-- What the end of a grove's burst does to the pending requests: its CYCLE requests end (R200), at the last cycle VALID, and a TIME
request that waits for its results takes the final values. -/
def State.snapEnd (s : State) (g : Fin 32) : State :=
  let last := s.groves[g].lastAny.getD (2 ^ 64 - 1)
  let s := (s.snaps.filter fun p => !p.time && p.grove == g.1).foldl (fun s p =>
    let st := if p.point = last then snapValid else snapEnded
    ((s.copyShadow g p.id false st last).snapTell g p.id st).snapDone p st) s
  (s.snaps.filter fun p => (p.wait.getD []).any fun w => w.1 == g.1).foldl (fun s p => s.snapGrove p g last) s

/-! ## The end of a grove and of a burst (R117 to R119) -/

/-- What R433 records of a grove's DSCs: number, MODE, CAUSE and GOV, one word each. -/
def State.dscWords (s : State) (g : Fin 32) : List (Nat × Nat) :=
  (s.dscsOf g).map fun (d : Fin 16) => (d.1, d.1 + 256 * s.rd (F.DSC_STATUS_MODE d) + 2 ^ 16 * s.rd (F.DSC_STATUS_CAUSE d)
    + 2 ^ 24 * s.rd (F.DSC_STATUS_GOV d))

/-- Deasserts the drive enables of a grove's channels. -/
def State.denOff (s : State) (g : Fin 32) : State :=
  (s.chansOf g).foldl (fun s c => s.modChan c fun k => { k with den := false }) s

/-- A grove enters the halted-grove state (R118): drive enable is kept, except after HALT with END = 1 and after a stop,
abort, error or detach of a HIZ grove; no mark and no SEGS is there any more, and no traffic (R32). -/
def State.haltGrove (s : State) (g : Fin 32) (r : EndReason) (endDen : Bool) : State :=
  let s := if endDen || (r != .halt && s.hiz g) then s.denOff g else s
  let w := s.dscWords g
  let fetch := (s.threads[s.threadOf g].requests.head?).map fun q => (q.seg, q.gen, q.idx)
  (s.modGrove g fun k =>
    { k with ended := some r, halted := true, emittedTo := k.lastCycle, dscEnd := w, fetch := fetch, marks := noteMark (k.origin + k.start) 0 false k.marks
             traffic := 0, span := 0, windows := [], demand := 0 }).snapEnd g |>.acqGroveEnd g |>.dscGroveEnd g

/-- The burst enters Ended once every grove has ended: its reservation is released, and the stop and abort commands that
wait for it complete, with ALREADY_ENDED where every grove had ended before the command's boundary (R8, R16, R26, R319). -/
def State.burstCheckEnded (s : State) (tag epoch : Nat) : State :=
  match s.burstBy tag epoch with
  | none => s
  | some b =>
    if b.stage = .ended ∨ s.allEnded b = false then s
    else
      let now := s.now
      let s := s.modBurst tag epoch fun b => { b with stage := .ended, endTime := now, waiters := [] }
      (b.waiters.foldl (fun s w => s.complete w.hdr (if w.hit then stOk else stAlreadyEnded)) s).grantWaiting.zeroCheck

/-- Ends members of a thread's grove or group with a reason; when none is left the thread has ended (R105, R119). -/
def State.endMembers (s : State) (t : Fin 32) (mask : Nat) (r : EndReason) (endDen : Bool := false) : State :=
  let m := s.threads[t].members &&& mask
  if m = 0 then s
  else
    let s := (grovesIn m).foldl (fun s g => s.haltGrove g r endDen) s
    let s := s.modThread t fun k => { k with members := without k.members m }
    let last := decide (s.threads[t].members = 0)
    let s := if r = .detached then s.wr (F.SEQ_DETACHED_MASK t) (s.rd (F.SEQ_DETACHED_MASK t) ||| m) else s
    let s := if last then s.wrs [(F.SEQ_STATUS_STATE t, 4), (F.SEQ_STATUS_END_REASON t, r.code)] else s
    let s := s.raise (Ev.seq t) (b2n last + 2 ^ 4 * b2n (r == .detached))
    match s.threads[t].busy with
    | some (tag, ep) => s.burstCheckEnded tag ep
    | none => s

/-- The threads that serve a burst's groves. -/
def State.threadsOf (s : State) (b : Burst) : List (Fin 32) :=
  (allFin 32).filter fun t => s.threads[t].busy == some (b.hdr.tag, b.hdr.epoch)

/-- The granule boundary of cycle indices at or after a count of committed cycles. [log 25: DEDUCED] -/
def boundary (cycles : Nat) : Nat := (cycles + 63) / 64 * 64

/-- What the DSCs of a burst's groves show, grove by grove (R433). -/
def State.earlyDscs (s : State) (b : Burst) : List (Nat × Nat × Nat) :=
  (grovesIn b.ops.groves).flatMap fun g => (s.dscWords g).map fun w => (g.1, w.1, w.2)

/-- A burst that has not begun cycle 0 ends at once on every grove (R31, R117). While it is Declared its groves may still be
those of another burst, and what they hold is not touched (R514). [log 63: DEDUCED] -/
def State.endBeforeStart (s : State) (b : Burst) (r : EndReason) : State :=
  let s := if b.stage = .declared then
      let w := s.earlyDscs b
      s.modBurst b.hdr.tag b.hdr.epoch fun b => { b with early := some (r, w) }
    else (grovesIn b.ops.groves).foldl (fun s g => if s.groves[g].ended.isSome then s else s.haltGrove g r false) s
  let s := ((s.threadsOf b).filter fun t => b.stage = .declared || s.threads[t].members != 0).foldl (fun s t =>
    ((s.modThread t fun k => { k with members := 0 }).wrs
      [(F.SEQ_STATUS_STATE t, 4), (F.SEQ_STATUS_END_REASON t, r.code)]).event (Ev.seq t) 0) s
  s.burstCheckEnded b.hdr.tag b.hdr.epoch

/-- Sets the boundary of a stop or an abort on a thread: of two, the one whose boundary comes first decides, and at one
boundary an abort wins (R117). An abort that comes during void cycles keeps the grove void (R39). -/
def Thread.cut (abort : Bool) (t : Thread) : Thread :=
  let b := boundary t.cycles
  let t := { t with voidEp := t.voidEp.map fun (e : VoidEp) => { e with held := e.held || abort } }
  match t.bound with
  | none => { t with bound := some (b, abort) }
  | some (c, a) => if b = c then { t with bound := some (c, a || abort) } else t

/-- Whether the boundary of a request made now stands: no earlier one does (R117). -/
def Thread.cutHere (t : Thread) : Bool :=
  match t.bound with
  | none => true
  | some (c, _) => boundary t.cycles == c

/-- A thread ends at the boundary of a stop or an abort: the commands whose boundary it is have taken effect (R16). -/
def State.hitWaiters (s : State) (t : Fin 32) : State :=
  match s.threads[t].busy with
  | none => s
  | some (tag, ep) => s.modBurst tag ep fun b =>
    { b with waiters := b.waiters.map fun w => { w with hit := w.hit || bitOf w.threads t.1 } }

/-- Requests the stop or the abort of a burst; the commands that ask for it complete when it has entered Ended, or with
ALREADY_ENDED where it has ended or every grove has (R16, R117, R318). [log 25: DEDUCED] -/
def State.cutBurst (s : State) (b : Burst) (abort : Bool) (h : Option Hdr) : State :=
  if b.stage = .ended ∨ s.allEnded b then
    match h with
    | some h => s.complete h stAlreadyEnded
    | none => s
  else
    let at_ := maskOf (((s.threadsOf b).filter fun t => s.threads[t].cutHere).map (·.1))
    let s := match h with
      | some h => s.modBurst b.hdr.tag b.hdr.epoch fun (b : Burst) => { b with waiters := b.waiters ++ [Waiter.mk h at_ (b.stage != Stage.running)] }
      | none => s
    if b.stage = .running then (s.threadsOf b).foldl (fun s t => s.modThread t (Thread.cut abort)) s
    else s.endBeforeStart ((s.burstBy b.hdr.tag b.hdr.epoch).getD b) (if abort then .abortedBeforeStart else .stopped)

/-- Requests the stop or the abort of every burst. -/
def State.cutAll (s : State) (abort : Bool) : State :=
  s.bursts.foldl (fun s b => s.cutBurst b abort none) s

/-- Requests the abort of every burst that uses a grove of a mask. -/
def State.abortGroves (s : State) (mask : Nat) : State :=
  s.bursts.foldl (fun s b => if b.ops.groves &&& mask = 0 then s else s.cutBurst b true none) s

/-! ## Meanings: STOP and ABORT -/

/-- The stop and abort commands name a burst by tag and epoch (R318). -/
def State.cutByName (s : State) (h : Hdr) (opc tag epoch : Nat) (abort : Bool) : State :=
  s.begin_ h opc fun s => match s.burstBy tag epoch with
    | none => s.complete h stNoSuchBurst
    | some b => s.cutBurst b abort (some h)

/-- STOP (R117, R318). -/
def execStop (h : Hdr) (tag epoch : Nat) (s : State) : Host.Outcome State Fault Refusal :=
  .next (s.cutByName h 0x02 tag epoch false)

/-- ABORT (R16, R318). -/
def execAbort (h : Hdr) (tag epoch : Nat) (s : State) : Host.Outcome State Fault Refusal :=
  .next (s.cutByName h 0x03 tag epoch true)

/-- NOP (R319): completes when it begins, which with FENCE is after every earlier command of its queue. -/
def execNop (h : Hdr) (s : State) : Host.Outcome State Fault Refusal :=
  .next (s.begin_ h 0x00 fun s => s.complete h stOk)

end Sys2Proof.Machine
end

