-- ==== Sys2Proof/Machine/Faults.lean ====
section
/-! DEFINITION. The fault collector (R419 to R424), the start of the Firebreak (R425, R426 steps 1 to 4), the release of the
clearing state (R429, R430) and HEARTBEAT (R431). -/

namespace Sys2Proof.Machine

/-- A dual source, which reaches the collector on two lines (R419). -/
def dualSource (i : Nat) : Bool := i == 0 || i == 2 || i == 3 || (decide (32 ≤ i) && decide (i < 64))

/-- An implemented source (R419). -/
def sourceExists (i : Nat) : Bool := decide (i < 24) || (decide (32 ≤ i) && decide (i < 96))

/-- The class in force of a source (R57): 0 RECORD, 1 NOTIFY, 2 ABORT, 3 FATAL, 4 SAFE_STATE. -/
def State.classOf (s : State) (i : Nat) : Nat := fieldOf (s.rd (F.FLT_CLASS_CLASS (i / 4))) (8 * (i % 4)) 3

/-- Whether a source is latched. -/
def State.latched (s : State) (i : Nat) : Bool := bitOf (s.rd (F.FLT_LATCH_LATCH (i / 32))) (i % 32)

/-- Sets or clears one source's bit of a per-source register. -/
def State.setBit (s : State) (f : Nat → Fld) (i : Nat) (v : Bool) : State :=
  let old := s.rd (f (i / 32))
  s.wr (f (i / 32)) (if v then old ||| 2 ^ (i % 32) else without old (2 ^ (i % 32)))

/-- No source is latched. -/
def State.noLatch (s : State) : Bool := (List.range 8).all fun i => s.rd (F.FLT_LATCH_LATCH i) == 0

/-- HEARTBEAT toggles while the state is NORMAL, no latch of class FATAL or SAFE_STATE is set, the first self-check has
passed and RESET_L is high; it stays low in recovery (R431, R475). -/
def State.healthy (s : State) : Bool :=
  s.rd F.FLT_STATUS_STATE == 0 && s.flt.checked && !s.flt.resetLow && s.rd F.GLB_BOOT_STAT_STAGE != 3 &&
    (List.range 96).all fun i => !(s.latched i && decide (3 ≤ s.classOf i))

/-- Drives HEARTBEAT low where the conditions of R431 fail. -/
def State.noteHeartbeat (s : State) : State :=
  let ok := s.healthy
  { s.wr F.FLT_STATUS_HB (b2n ok) with flt := { s.flt with heartbeat := s.flt.heartbeat && ok } }

/-! ## The Firebreak (R425, R426) -/

/-- A grove of a running burst at the stop instant: the cycles that have ended at the pins count as emitted, the one in progress is
cut, and those whose results the counters have not taken in stay unrecorded (R434). -/
def State.fbGrove (s : State) (g : Fin 32) : State :=
  let t := s.threads[s.threadOf g]
  let last := s.groves[g].lastCycle
  let now := s.now
  let emitted := match (t.started.filter fun c => c.cyc.line.isSome && decide (c.ends ≤ now)).getLast? with
    | some c => some c.cyc.idx
    | none => last
  let w := s.dscWords g
  let fetch := t.requests.head?.map fun q => (q.seg, q.gen, q.idx)
  (s.modGrove g fun k =>
    { k with ended := some .firebreak, halted := true, emittedTo := emitted
             unrecorded := emitted != last, dscEnd := w, fetch := fetch, marks := noteMark (k.origin + k.start) 0 false k.marks
             traffic := 0, span := 0, windows := [], demand := 0 }).snapEnd g |>.dscGroveEnd g

/-- Every grove of every burst that has not ended ends with the reason FIREBREAK; no capture drains any more (R195). -/
def State.fbBursts (s : State) (src : Nat) : State :=
  let shut := fun k : Grove => { k with capOpen := false, visit := none, mapRun := none, valGran := none }
  let s := (allFin 32).foldl (fun (s : State) (g : Fin 32) => s.modGrove g shut) s
  let mark := fun b : Burst => if b.stage = .ended then b else { b with firebreak := true, faultSrc := src }
  let cut := fun b : Burst => if b.stage = .declared then { b with early := some (.firebreak, s.earlyDscs b) } else b
  let s := { s with bursts := s.bursts.map fun b => cut (mark b) }
  let s := (allFin 32).foldl (fun s g =>
    if (s.bursts.any fun b => b.early.isNone && bitOf b.ops.groves g.1) && s.groves[g].ended.isNone then s.fbGrove g else s) s
  let stopThread := fun (s : State) (t : Fin 32) =>
    if s.threads[t].members = 0 ∧ s.threads[t].busy = none then s
    else
      let s := if s.threads[t].members = 0 then s
        else (s.wrs [(F.SEQ_STATUS_STATE t, 4), (F.SEQ_STATUS_END_REASON t, 9)]).event (Ev.seq t) 0
      s.modThread t fun k => { k with members := 0, todo := [], fifo := [], pipe := [], started := [], requests := [] }
  let s := (allFin 32).foldl stopThread s
  s.bursts.foldl (fun s b => s.burstCheckEnded b.hdr.tag b.hdr.epoch) s

/-- A PE control transaction is cut (R90). [log 153: DESIGN CHOICE] -/
def State.fbPec (s : State) : State :=
  (allFin 16).foldl (fun s b =>
    if s.pec[b].running then
      ({ s with pec := upd s.pec b fun p => { p with running := false } }).wrs
        [(F.PEC_CMD_GO b, 0), (F.PEC_STATUS_DONE b, 1), (F.PEC_STATUS_ABORTED b, 1)]
    else s) s

/-- The supply channels at the stop: self-checks end ABORTED (R279), and the loop engine leaves the channels that ramp. -/
def State.fbSupply (s : State) : State :=
  (allFin 16).foldl (fun s (d : Fin 16) =>
    let s := if s.selfChecking d then
        (s.wrs [(F.CMP_ST_CTRL_GO d, 0), (F.CMP_ST_RESULT_RESULT d, 3), (F.CMP_ST_RESULT_ABORTED d, 1)]).event (Ev.cmp d) 3
      else s
    ((s.endPass d).dropClosing d none).modDsc d fun k => { k with req := none, tune := none, wait := [], cmds := [], applied := [] }) s

/-- The groves of running bursts, with the tag and epoch of each (R436). -/
def State.runningGroves (s : State) : List (Nat × Nat × Nat) :=
  (allFin 32).filterMap fun g =>
    (s.burstOf g).bind fun b => if b.stage = .running ∧ s.groves[g].ended = none then some (g.1, b.hdr.tag, b.hdr.epoch) else none

/-- Mode, voltage in mV and current in 10 mA of every DSC, as a fault record holds them (R436). [log 94: DEDUCED] -/
def State.dscNow (s : State) : List (Nat × Int × Int) :=
  (allFin 16).map fun d => (s.rd (F.DSC_STATUS_MODE d), s.rdS (F.DSC_VMEAS_UV d) / 1000, s.rdS (F.DSC_IMEAS_I d) / 1000)

/-- A fault cuts the calibration in progress (R416). -/
def State.cutCal (s : State) : State := { s with cal := { s.cal with run := s.cal.run.map fun r => { r with cut := true } } }

/-- Two raw counts lie within the same 10 ns (R425). [log 171: DEDUCED] -/
def sameTenNs (first now : Nat) : Bool := decide (now < first + 8)

/-- The rank of a cause among those that come together: sources by number, then the others (R425). -/
def causeRank (cause src : Nat) : Nat := if cause = 1 then src else 256 + cause

/-- A cause that comes after the Firebreak has started changes its record only if it came within the same 10 ns and ranks before
the one recorded (R425). [log 171: DEDUCED] -/
def State.laterCause (s : State) (cause src : Nat) (mism forced : Bool) : State :=
  if s.flt.recDue && sameTenNs s.flt.causeRaw s.tim.raw && decide (causeRank cause src < causeRank s.flt.cause s.flt.causeSrc) then
    let mark := fun b : Burst => if b.firebreak ∧ b.faultSrc = s.flt.causeSrc then { b with faultSrc := src } else b
    { s with bursts := s.bursts.map mark, flt := { s.flt with cause := cause, causeSrc := src, mismatch := mism, forced := forced } }
  else s

/-- Starts the Firebreak, unless it has started: steps 1 to 4 of R426. Causes: 1 a source, 2 VIN undervoltage, 3 VIN
overvoltage, 4 tamper (R436). -/
def State.firebreak (s : State) (cause src : Nat) (mism forced : Bool) : State :=
  if 2 ≤ s.rd F.FLT_STATUS_STATE then s.laterCause cause src mism forced
  else
    let now := s.now
    let at_d := s.dscNow
    let at_ := s.runningGroves
    let ramps := (allFin 16).filter fun (d : Fin 16) => (s.groveOfDsc d).isSome && s.rd (F.DSC_STATUS_MODE d) != 0
    let s := (s.wr F.FLT_STATUS_STATE 2).event Ev.flt 4
    let s := s.fbBursts src
    let rest := fun c : Chan => { c with drv := false, den := false }
    let s := ({ s with chans := s.chans.map rest }.fbPec.nmiAll 1).acqFreeze.fbSupply
    let f := { s.flt with cause := cause, causeSrc := src, causeTime := now, causeRaw := s.tim.raw, mismatch := mism, forced := forced
                          frozen := true, stopped := true, ramping := ramps.map (·.1), opened := []
                          dscAt := at_d, groveAt := at_, recDue := true }
    { s with flt := f }.cutCal.noteHeartbeat

/-! ## Occurrences (R421, R424) -/

/-- The bits of FLT_EVENT that one occurrence of a class sets (R424): bit 0, a class's own bit with those of every class
above it in the table, and bit 5 for a mismatch; a class below ABORT repeats no action while the source is latched (R421). -/
def occurrenceBits (cls : Nat) (again mism : Bool) : Nat :=
  (if cls = 0 then b2n (!again) else if cls = 1 then 3 * b2n (!again) else if cls = 2 then 7 else if cls = 3 then 15 else 3) + b2n mism * 32

/-- Latches and counts one occurrence, sets event bits in one raise, and notes the first source since the latches were last
clear, among those of the same 10 ns the lowest (R425). [log 96: DEDUCED] -/
def State.latchFault (s : State) (i bits : Nat) (forced : Bool) : State :=
  let now := s.now
  let raw := s.tim.raw
  let s := if s.noLatch then
      ({ s with flt := { s.flt with firstRaw := raw } }.wrs [(F.FLT_STATUS_FIRST_SRC, i), (F.FLT_STATUS_FIRST_VALID, 1)]).wrP
        F.FLT_FIRST_TIME_LO_TIME now
    else if sameTenNs s.flt.firstRaw raw ∧ i < s.rd F.FLT_STATUS_FIRST_SRC then s.wr F.FLT_STATUS_FIRST_SRC i
    else s
  let s := (s.setBit F.FLT_LATCH_LATCH i true).raise Ev.flt bits
  let note := fun k : SrcInfo => { count := min (k.count + 1) 65535, time := now, forced := forced }
  if h : i < 96 then { s with flt := { s.flt with info := upd s.flt.info ⟨i, h⟩ note } } else s

/-- The abort a class of ABORT or above asks for: the bursts of the source's grove, or every burst (R424). -/
def State.faultAbort (s : State) (g : Option (Fin 32)) : State :=
  match g with
  | some g => s.abortGroves (2 ^ g.1)
  | none => s.cutAll true

/-- One occurrence of a source with its class's action; `g` is the grove the source is scoped to, if any. -/
def State.fault (s : State) (i : Nat) (g : Option (Fin 32)) (forced mism : Bool) : State :=
  let again := s.latched i
  let cls := s.classOf i
  let s := s.latchFault i (occurrenceBits cls again mism) forced
  if cls < 2 then s
  else if cls = 2 then s.faultAbort g
  else if cls = 3 then
    let s := if s.rd F.FLT_STATUS_STATE = 0 then s.wr F.FLT_STATUS_STATE 1 else s
    let now := s.now
    let at_d := s.dscNow
    let at_ := s.runningGroves
    let mark := fun b : Burst => if b.stage = .ended then b else { b with fatal := true, faultSrc := i }
    let f := if 2 ≤ s.rd F.FLT_STATUS_STATE then s.flt
      else { s.flt with cause := 5, causeSrc := i, causeTime := now, forced := forced, mismatch := mism
                        dscAt := at_d, groveAt := at_, recDue := true }
    let s := { s with bursts := s.bursts.map mark, hq := { s.hq with aer := s.hq.aer ||| 4 }, flt := f }.cutCal
    ((s.cutAll true).nmiAll 2).noteHeartbeat
  else (s.firebreak 1 i mism forced).noteHeartbeat

/-- The grove a DSC's sources are scoped to. -/
def State.dscScope (s : State) (i : Nat) : Option (Fin 32) := if 32 ≤ i then s.groveOfDsc (fin 16 i) else none

/-- One occurrence raised by a block. -/
def State.faultOnce (s : State) (i : Nat) (g : Option (Fin 32)) : State := s.fault i g false false

/-- A use of the structure store checks its parity (R68). [log 160: DESIGN CHOICE] -/
def State.useStore (s : State) : State := if s.str.badWords.isEmpty then s else s.faultOnce 1 none

/-- Runs an operation that reads the structure store, unless the check of its parity stops the module (R68). [log 160: DESIGN CHOICE] -/
def State.onStore (s : State) (run : State → Host.Outcome State Fault Refusal) : Host.Outcome State Fault Refusal :=
  if s.useStore.clearing then .next s.useStore else run s.useStore

/-- The collector itself fails: source 0 is raised directly in the Firebreak, whatever its class (R422). -/
def State.collectorFail (s : State) : State := (s.latchFault 0 (occurrenceBits 4 (s.latched 0) false) false).firebreak 1 0 false false

/-- A dual source becomes active: it is shown live, and acts by its class (R420). -/
def State.dualOn (s : State) (i : Nat) (forced mism : Bool) : State :=
  let s := (s.setBit F.FLT_ACTIVE_ACTIVE i true).fault i (s.dscScope i) forced mism
  { s with flt := { s.flt with active := i :: s.flt.active.filter (· ≠ i) } }

/-- A dual source's condition holds: it becomes active if it is not. -/
def State.dualRaise (s : State) (i : Nat) : State := if s.flt.active.contains i then s else s.dualOn i false false

/-- A dual source ceases to be active. -/
def State.dualOff (s : State) (i : Nat) : State :=
  { s.setBit F.FLT_ACTIVE_ACTIVE i false with flt := { s.flt with active := s.flt.active.filter (· ≠ i) } }

/-- A dual pair disagrees: the source counts as active, and its mismatch bit is set (R420). -/
def State.dualMismatch (s : State) (i : Nat) (forced : Bool) : State :=
  (s.setBit F.FLT_MIS_MIS i true).dualOn i forced true

/-! ## Forced sources (R423) -/

/-- The sources whose force bit and TEST_EN both read 1. -/
def State.forcedSet (s : State) : List Nat :=
  if s.on F.FLT_CTRL_TEST_EN then
    (List.range 96).filter fun i => sourceExists i && bitOf (s.rd (F.FLT_FORCE_FORCE (i / 32))) (i % 32)
  else []

/-- What a change of the forced set does: a single source occurs once when it joins it, a dual source is active while it is
in it; with FORCE_MIS it drives one line only. -/
def State.forceChange (s : State) (before : List Nat) : State :=
  let after := s.forcedSet
  let s := (after.filter fun i => !before.contains i).foldl (fun s i =>
    if dualSource i then (if s.on F.FLT_CTRL_FORCE_MIS then s.dualMismatch i true else s.dualOn i true false)
    else s.fault i (s.dscScope i) true false) s
  (before.filter fun i => dualSource i && !after.contains i).foldl State.dualOff s

/-! ## The clearing state (R428 to R430) -/

/-- Whether a release would be granted (R429). -/
def State.releaseOk (s : State) : Bool :=
  s.rd F.FLT_STATUS_STATE == 3 && !(s.flt.cause == 1 && (s.flt.causeSrc == 0 || s.flt.causeSrc == 1)) &&
    ((List.range 96).all fun i => !(s.classOf i == 4 &&
      (s.flt.active.contains i || bitOf (s.rd (F.FLT_MIS_MIS (i / 32))) (i % 32)))) &&
    s.rd F.PWR_STATUS_THERM != 3 && !((s.flt.cause == 2 || s.flt.cause == 3) && decide (s.rd F.PWR_VIN_VIN_MV < 4400))

/-- A release (R430): the latches and mismatch bits of every SAFE_STATE source are cleared, the state returns to NORMAL or
FATAL, and stores and counters are unfrozen; a refused one changes nothing. [log 97: DEDUCED] -/
def State.release (s : State) : State :=
  if s.releaseOk then
    let s := (List.range 96).foldl (fun s i =>
      if s.classOf i = 4 then (s.setBit F.FLT_LATCH_LATCH i false).setBit F.FLT_MIS_MIS i false else s) s
    let fatal := (List.range 96).any fun i => s.latched i && s.classOf i == 3
    let s := if s.noLatch then s.wrs [(F.FLT_STATUS_FIRST_SRC, 0), (F.FLT_STATUS_FIRST_VALID, 0)] else s
    let s := (s.wr F.FLT_STATUS_STATE (b2n fatal)).event Ev.flt 6
    { s with flt := { s.flt with frozen := false, stopped := false } }.noteHeartbeat
  else s.event Ev.flt 7

/-! ## Meanings -/

/-- FAULT_OCCURRENCE (R421): a single source occurs; a source not implemented has none. -/
def execFaultOccurrence (src : Nat) (s : State) : Host.Outcome State Fault Refusal :=
  if sourceExists src ∧ dualSource src = false then .next (s.faultOnce src (s.dscScope src)) else .next s

/-- DUAL_SOURCE_ACTIVE (R420): both lines of a dual source assert it, or no longer do. -/
def execDualSourceActive (src : Nat) (active : Bool) (s : State) : Host.Outcome State Fault Refusal :=
  if !dualSource src then .next s
  else if active then .next (if s.flt.active.contains src then s else s.dualOn src false false)
  else
    let s := s.dualOff src
    .next (if 32 ≤ src ∧ src < 64 then s.wr (F.CMP_LEVEL_MISMATCH (src % 16)) 0 else s)

/-- DUAL_LINE_MISMATCH (R420): the lines have disagreed for more than 100 ns. -/
def execDualLineMismatch (src : Nat) (s : State) : Host.Outcome State Fault Refusal :=
  if dualSource src then
    let s := if 32 ≤ src ∧ src < 64 then s.wr (F.CMP_LEVEL_MISMATCH (src % 16)) 1 else s
    .next (s.dualMismatch src false)
  else .next s

/-- COLLECTOR_SCRUB (R422): every word of both copies is read and compared. -/
def execCollectorScrub (ok : Bool) (s : State) : Host.Outcome State Fault Refusal :=
  .next (if ok then s else s.collectorFail)

/-- COLLECTOR_LINE_TEST (R422, R431): every line pair answers the test pattern, or source 0 is raised; the first pass lets
HEARTBEAT run. -/
def execCollectorLineTest (ok : Bool) (s : State) : Host.Outcome State Fault Refusal :=
  if ok then .next { s with flt := { s.flt with checked := true } }.noteHeartbeat else .next s.collectorFail

/-- FLT_FORCE_WRITE (R423): sets the force bits of 32 sources. -/
def execFltForceWrite (req : Req) (i : Fin 8) (w : Word) (s : State) : Host.Outcome State Fault Refusal :=
  .next (s.regWrite req (F.FLT_FORCE_FORCE i).addr w fun s =>
    let before := s.forcedSet
    (s.wr (F.FLT_FORCE_FORCE i) w.toNat).forceChange before)

/-- FIREBREAK_START (R425): a cause reaches the keeper domain. -/
def execFirebreakStart (cause src : Nat) (s : State) : Host.Outcome State Fault Refusal :=
  .next (s.firebreak cause (if cause = 1 then src else 0xFF) false false)

/-- HEARTBEAT_TOGGLE (R431): the level toggles while the module is healthy, and is held low otherwise. -/
def execHeartbeatToggle (s : State) : Host.Outcome State Fault Refusal :=
  .next (if s.healthy then { s with flt := { s.flt with heartbeat := !s.flt.heartbeat } } else s.noteHeartbeat)

end Sys2Proof.Machine
end

