-- ==== Sys2Proof/Machine/Placing.lean ====
section
/-! DEFINITION. What the Forester decides: the reachable set of a burst and its shares (R143, R148), placement of segments
(R140), moves (R145, R146), promotion and demotion (R142), compaction (R147) and the life of a generation (R148, R149). -/

namespace Sys2Proof.Machine

/-! ## Segments a burst reaches (R143, R148) -/

/-- The current generation of a segment ID, once its copy is complete. -/
def State.curSeg (s : State) (id : Nat) : Option Seg :=
  s.forest.segs.find? fun x => decide (x.id = id) && !x.retiring && x.loading.isNone

/-- The load of a generation that has not become current. -/
def State.loadOf (s : State) (id gen : Nat) : Option Seg :=
  s.forest.segs.find? fun x => x.id == id && x.gen == gen && x.loading.isSome

/-- The generation of a segment that exists, current or retiring. -/
def State.segAt (s : State) (id gen : Nat) : Option Seg :=
  s.forest.segs.find? fun x => decide (x.id = id) && decide (x.gen = gen) && x.loading.isNone

/-- Adds what the reference lists name to a list of segments, `n` times. -/
def State.reachFrom (s : State) : Nat → List (Nat × Nat) → List (Nat × Nat)
  | 0, l => l
  | n + 1, l => s.reachFrom n
      ((l.flatMap fun r => ((s.segAt r.1 r.2).map (·.refs)).getD []).foldl (fun l r => if l.contains r then l else l ++ [r]) l)

/-- The reachable set of an entry segment. -/
def State.reachOf (s : State) (seg gen : Nat) : List (Nat × Nat) := s.reachFrom (s.forest.segs.length + 1) [(seg, gen)]

/-- The segments of a burst's reachable set. -/
def State.reachSegs (s : State) (b : Burst) : List Seg := b.reach.filterMap fun r => s.segAt r.1 r.2

/-- Whether any burst holds a segment (R144). [log 101: DEDUCED] -/
def State.segHeld (s : State) (id gen : Nat) : Bool := s.bursts.any fun b => b.reach.contains (id, gen)

/-- The number of threads that serve a set of groves; a broadcast group counts once. -/
def State.threadCount (s : State) (groves : Nat) : Nat := ((grovesIn groves).map fun g => (s.threadOf g).1).dedup.length

/-- The largest of a list of numbers. -/
def maxOf (l : List Nat) : Nat := l.foldl max 0

/-- The share of a burst over the segments that satisfy a test, in 1/16 demand unit: the largest RATE, and the largest
IRATE where instruction streams count, over its threads (R143). -/
def State.share (s : State) (b : Burst) (pay instr : Seg → Bool) : Nat :=
  let l := s.reachSegs b
  s.threadCount b.ops.groves * (maxOf ((l.filter pay).map (·.rate)) + maxOf ((l.filter instr).map (·.irate)))

/-- A burst's share of a tier. -/
def State.tierShare (s : State) (b : Burst) (t : Tier) : Nat :=
  s.share b (fun x => x.tier == t) fun _ => t == .canopy

/-- Whether a segment has payload pages, or instruction pages, in a Canopy bank. -/
def Seg.payIn (bank : Nat) (x : Seg) : Bool := x.tier == .canopy && (runPages x.pages).any fun p => p / 64 == bank
def Seg.insIn (bank : Nat) (x : Seg) : Bool := (runPages x.ipages).any fun p => p / 64 == bank

/-- A burst's share of a Canopy bank. -/
def State.bankShare (s : State) (b : Burst) (bank : Nat) : Nat := s.share b (Seg.payIn bank) (Seg.insIn bank)

/-- The bursts whose shares count: Granted to Ended, or waiting (R124). -/
def State.counted (s : State) : List Burst := s.bursts.filter fun b => b.stage != .declared

/-- The budget of a tier in demand units (R123). [log 119: DEDUCED] -/
def tierBudget : Tier → Nat
  | .canopy => 4000 | .sdram => 1250 | .host => 375 | .none => 0

/-! ## Runs of pages (R140) -/

/-- The address of byte `o` of content that lies in runs of pages. -/
def runAddr (unit : Nat) : List (Nat × Nat) → Nat → Nat
  | [], o => o
  | r :: l, o => if o < r.2 * unit then r.1 * unit + o else runAddr unit l (o - r.2 * unit)

/-- Changes a segment generation that exists. -/
def State.modSeg (s : State) (id gen : Nat) (f : Seg → Seg) : State :=
  { s with forest := { s.forest with
    segs := s.forest.segs.map fun x => if x.id = id ∧ x.gen = gen ∧ x.loading = none then f x else x } }

/-- Changes a load that has not become current; a retiring generation may have the same number (R148). -/
def State.modLoad (s : State) (id gen : Nat) (f : Seg → Seg) : State :=
  { s with forest := { s.forest with
    segs := s.forest.segs.map fun x => if x.id = id ∧ x.gen = gen ∧ x.loading ≠ none then f x else x } }

/-- An entry into a segment is counted (R141). -/
def State.useSeg (s : State) (id gen : Nat) : State := s.modSeg id gen fun x => { x with uses := min (x.uses + 1) (2 ^ 32 - 1) }

/-- The runs of consecutive pages inside one bank that a list of pages in their order makes. -/
def runsOf (l : List Nat) : List (Nat × Nat) :=
  (l.foldl (fun acc p => match acc with
    | (a, n) :: r => if a + n = p ∧ p % 64 ≠ 0 then (a, n + 1) :: r else (p, 1) :: (a, n) :: r
    | [] => [(p, 1)]) []).reverse

/-- The first runs of a list that hold `n` pages in at most `k` extents. -/
def takeRuns : List (Nat × Nat) → Nat → Nat → Option (List (Nat × Nat))
  | [], n, _ => if n = 0 then some [] else none
  | r :: l, n, k =>
    if n = 0 then some [] else if k = 0 then none else if n ≤ r.2 then some [(r.1, n)]
    else (takeRuns l (n - r.2) (k - 1)).map fun x => r :: x

/-- The free pages of a region outside the listed banks. -/
def State.freeIn (s : State) (region : Nat) (avoid : List Nat) : List Nat :=
  let used := s.usedPages
  (List.range 2048).filter fun p => s.pageOpen region p && !used.contains p && !avoid.contains (p / 64)

/-- The longest runs of a list of pages that hold `n` of them in at most `ext` extents. [log 9: DESIGN CHOICE] -/
def longestRuns (l : List Nat) (n ext : Nat) : Option (List (Nat × Nat)) :=
  takeRuns (sortBy (fun a b => decide (b.2 < a.2)) (runsOf l)) n ext

/-- A run cut to at most `k` pages that lie in no region: its first pages as far as they go. -/
def State.cutRun (s : State) (k : Nat) (r : Nat × Nat) : Nat × Nat :=
  (r.1, ((List.range r.2).takeWhile fun i =>
    decide ((((List.range (i + 1)).filter fun j => (s.forest.regionOf (r.1 + j)).isNone).length) ≤ k)).length)

/-- Chooses up to `ext` runs that hold `n` pages, of which at most `room` lie in no region: at each turn the run that gives
most. -/
def State.pickRuns (s : State) (runs : List (Nat × Nat)) : Nat → Nat → Nat → Option (List (Nat × Nat))
  | 0, n, _ => if n = 0 then some [] else none
  | ext + 1, n, room =>
    if n = 0 then some []
    else
      let cut := fun r : Nat × Nat => let c := s.cutRun room r; (c.1, min c.2 n)
      match (sortBy (fun a b => decide ((cut b).2 < (cut a).2)) runs).head? with
      | none => none
      | some r =>
        let c := cut r
        if c.2 = 0 then none
        else
          let new := ((List.range c.2).filter fun i => (s.forest.regionOf (c.1 + i)).isNone).length
          (s.pickRuns (runs.filter (· ≠ r)) ext (n - c.2) (room - new)).map fun l => c :: l

/-- `n` free pages of a region in at most `ext` extents, from the pages the region has before pages that lie in none, which it
takes only as far as its MAX_PAGES goes. [log 9: DESIGN CHOICE] -/
def State.canopyRuns (s : State) (region n ext : Nat) (avoid : List Nat) : Option (List (Nat × Nat)) :=
  let free := s.freeIn region avoid
  let own := free.filter fun p => (s.forest.regionOf p).isSome
  match longestRuns own n ext with
  | some r => some r
  | none =>
    match (longestRuns free n ext).filter fun r => s.roomFor region (runPages r) with
    | some r => some r
    | none =>
      match s.pickRuns (runsOf free) ext n (s.regionRoom region) with
      | some r => some r
      | none => s.pickRuns (runsOf own ++ runsOf (free.filter fun p => !own.contains p)) ext n (s.regionRoom region)

/-- `n` free pages of the Forester's SDRAM share. -/
def State.sdramRuns (s : State) (n : Nat) : Option (List (Nat × Nat)) :=
  let used := s.usedSdram
  let l := ((List.range s.sharePages).filter fun p => !used.contains p).take n
  if l.length = n then some (runsOf l) else none

/-- Gives the pages of runs to a region. -/
def State.takePages (s : State) (region : Nat) (l : List (Nat × Nat)) : State :=
  { s with forest := l.foldl (fun f r => f.take region r.1 r.2) s.forest }

/-- The bytes a memory lists within runs of pages, by their offset in the content. -/
def runCells (unit : Nat) (m : Mem) (runs : List (Nat × Nat)) : List (Nat × Byte) :=
  (runPages runs).zipIdx.flatMap fun p =>
    (m.filter fun c => decide (c.1 / unit = p.1)).map fun c => (p.2 * unit + c.1 % unit, c.2)

/-- Writes bytes by their offset in content that lies in runs of pages. -/
def putCells (unit : Nat) (m : Mem) (runs : List (Nat × Nat)) (l : List (Nat × Byte)) : Mem :=
  l.foldl (fun m c => Mem.put m (runAddr unit runs c.1) c.2) m

/-- Copies content to runs of pages: they hold the cells and, where the content lists nothing, zero. [log 137: DESIGN CHOICE] -/
def copyCells (unit : Nat) (m : Mem) (runs : List (Nat × Nat)) (l : List (Nat × Byte)) : Mem :=
  putCells unit ((runPages runs).foldl (fun m p => Mem.clear m (p * unit) unit) m) runs l

/-- Reads a tier's memory, and its page size. -/
def State.tierMem (s : State) (t : Tier) : Mem := if t = .sdram then s.sdram else s.canopy
def tierUnit (t : Tier) : Nat := if t = .sdram then sdramPage else canopyPage

/-- Replaces a tier's memory. [log 137: DESIGN CHOICE] -/
def State.setTierMem (s : State) (t : Tier) (m : Mem) : State := if t = .sdram then { s with sdram := m } else { s with canopy := m }

/-- The end of what covers a page of packed instruction streams, moves' destinations included. -/
def State.streamEnd (s : State) (page : Nat) : Nat :=
  let segs := s.forest.segs.filterMap fun x => (x.streamIn page).map (·.2)
  let moves := s.forest.moves.filterMap fun m =>
    ((s.segAt m.seg m.gen).bind fun x => rangeIn m.ipages m.ioff (8 * x.iwords) page).map (·.2)
  maxOf (segs ++ moves)

/-- A place for an instruction stream: behind the streams of an instruction page that has room for it, or on pages of its own
in at most 8 extents (R140). [log 34: DESIGN CHOICE] -/
def State.streamPlace (s : State) (bytes : Nat) (avoid : List Nat) : Option (List (Nat × Nat) × Nat) :=
  let pages := (s.forest.segs.flatMap fun x => runPages x.ipages).filter fun p => s.pageOpen 2 p && !avoid.contains (p / 64)
  match pages.find? fun p => decide (s.streamEnd p + bytes ≤ canopyPage) with
  | some p => some ([(p, 1)], s.streamEnd p)
  | none => (s.canopyRuns 2 (pagesFor bytes canopyPage) 8 avoid).map fun r => (r, 0)

/-- The bytes a segment's instruction stream lists, by their offset in it. -/
def State.streamCells (s : State) (x : Seg) : List (Nat × Byte) :=
  ((runCells canopyPage s.canopy x.ipages).filter fun c => decide (x.ioff ≤ c.1) && decide (c.1 < x.ioff + 8 * x.iwords)).map
    fun c => (c.1 - x.ioff, c.2)

/-- Copies an instruction stream to its place. -/
def putStream (m : Mem) (runs : List (Nat × Nat)) (off n : Nat) (cells : List (Nat × Byte)) : Mem :=
  putCells canopyPage (clearRange m runs off n) runs (cells.map fun c => (off + c.1, c.2))

/-- Zeroes a segment's instruction stream where it lies. -/
def State.clearStream (s : State) (x : Seg) : State := { s with canopy := clearRange s.canopy x.ipages x.ioff (8 * x.iwords) }

/-- Zeroes and frees the pages of a buffer (R145, R152). -/
def State.freePlace (s : State) (p : Place) : State := s.zeroPages p.sdram p.pages

/-! ## Bandwidth limits of a placement (R143 to R145) -/

/-- The bursts whose shares a move of a segment must leave room for: those that count, and every burst that holds it (R144). -/
def State.holders (s : State) (x : Seg) : List Burst :=
  s.bursts.filter fun b => b.stage != .declared || b.reach.contains (x.id, x.gen)

/-- Whether a held segment may lie where a move would put it: every bank of its new place can take the shares, and the Canopy
budget where it is promoted (R144). -/
def State.moveFits (s : State) (x : Seg) (m : Move) : Bool :=
  let s' := s.modSeg x.id x.gen fun x => { x with tier := m.tier, pages := m.pages, ipages := m.ipages, ioff := m.ioff }
  let banks := (((if m.tier = .canopy then runPages m.pages else []) ++ runPages m.ipages).map (· / 64)).dedup
  (banks.all fun k => decide (((s'.holders x).map fun o => s'.bankShare o k).sum ≤ 16 * 500)) &&
    (x.tier == m.tier || decide (((s'.holders x).map fun o => s'.tierShare o .canopy).sum ≤ 16 * tierBudget .canopy))

/-! ## Moves (R145, R146) -/

/-- The moves in progress: at most four (R145). -/
def Forest.started (f : Forest) : List Move := f.moves.take 4

/-- Whether a segment has a move. -/
def State.moving (s : State) (x : Seg) : Bool := s.forest.moves.any fun m => decide (m.seg = x.id) && decide (m.gen = x.gen)

/-- Begins a move, or lets it wait for one of the four in progress. [log 33: DESIGN CHOICE] -/
def State.addMove (s : State) (m : Move) : State :=
  let s := if m.tier = .canopy then s.takePages 2 m.pages else s
  let s := s.takePages 2 m.ipages
  { s with forest := { s.forest with moves := s.forest.moves ++ [m] } }

/-- Replaces the pages that satisfy a test by further ones in order: the pages after, and the ones not used. -/
def swapPages (bad : Nat → Bool) : List Nat → List Nat → List Nat × List Nat
  | [], new => ([], new)
  | p :: l, new =>
    if bad p then match new with
      | q :: r => let t := swapPages bad l r; (q :: t.1, t.2)
      | [] => let t := swapPages bad l []; (p :: t.1, t.2)
    else let t := swapPages bad l new; (p :: t.1, t.2)

/-- A move within the Canopy that takes a segment's pages out of some banks, if there is room by R52, by the eight extents
of R140 and, for a held segment, by the bank limit; an instruction stream moves whole. -/
def State.planOut (s : State) (x : Seg) (avoid : List Nat) (bank : Option Nat) : Option Move :=
  let bad := fun p : Nat => avoid.contains (p / 64)
  let pay := if x.tier = .canopy then runPages x.pages else []
  (s.canopyRuns 2 (pay.filter bad).length 8 avoid).bind fun r =>
    let pages := if x.tier = .canopy then runsOf (swapPages bad pay (runPages r)).1 else x.pages
    let m : Move := { seg := x.id, gen := x.gen, tier := x.tier, pages := pages, ipages := [], ioff := 0, copied := false, bank := bank }
    let stream := if (runPages x.ipages).any bad then (s.addMove m).streamPlace (8 * x.iwords) avoid else some (x.ipages, x.ioff)
    stream.bind fun i =>
      let m := { m with ipages := i.1, ioff := i.2 }
      if (x.tier = .canopy ∧ 8 < m.pages.length) ∨ (s.segHeld x.id x.gen ∧ !s.moveFits x m) then none else some m

/-- A move of a segment's payload into the Canopy, or into the SDRAM. [log 33: DESIGN CHOICE] -/
def State.planTier (s : State) (x : Seg) (t : Tier) : Option Move :=
  let bytes := (x.lines + 63) / 64 * x.granBytes
  let runs := if t = .canopy then s.canopyRuns 2 (pagesFor bytes canopyPage) 8 [] else s.sdramRuns (pagesFor bytes sdramPage)
  runs.bind fun r =>
    let m : Move :=
      { seg := x.id, gen := x.gen, tier := t, pages := r, ipages := x.ipages, ioff := x.ioff, copied := false, bank := none }
    if s.segHeld x.id x.gen ∧ !s.moveFits x m then none else some m

/-- Whether a move leaves a segment's instruction stream where it lies. -/
def Move.keepsStream (m : Move) (x : Seg) : Bool := decide (m.ipages = x.ipages) && m.ioff == x.ioff

/-- The segments that exist beside a given one. -/
def State.otherSegs (s : State) (id gen : Nat) (load : Bool) : List Seg :=
  s.forest.segs.filter fun x => x.loading.isNone && (load || !(x.id == id && x.gen == gen))

/-- Whether something of other segments still lies on payload pages of a tier. -/
def State.occupied (s : State) (id gen : Nat) (load : Bool) (t : Tier) (l : List Nat) : Bool :=
  (s.otherSegs id gen load).any fun x =>
    ((if x.tier = t then runPages x.pages else []).any l.contains) || (t == .canopy && l.any fun p => (x.streamIn p).isSome)

/-- Whether something of other segments still lies where an instruction stream is to lie. -/
def State.streamBusy (s : State) (id gen : Nat) (load : Bool) (runs : List (Nat × Nat)) (off n : Nat) : Bool :=
  (s.otherSegs id gen load).any fun x => (runPages runs).any fun p =>
    (x.tier == .canopy && (runPages x.pages).contains p) ||
      (match rangeIn runs off n p, x.streamIn p with
       | some a, some b => decide (a.1 < b.2) && decide (b.1 < a.2)
       | _, _ => false)

/-- Abandons the moves that satisfy a test (R146): their destinations are freed. -/
def State.abandonMoves (s : State) (p : Move → Bool) : State :=
  let gone := s.forest.moves.filter p
  let s := gone.foldl (fun s m =>
    match s.segAt m.seg m.gen with
    | some x =>
      if m.copied then
        let keep := if x.tier = m.tier then runPages x.pages else []
        let s := s.zeroPages (m.tier == .sdram) ((runPages m.pages).filter fun q => !keep.contains q)
        if m.keepsStream x then s else { s with canopy := clearRange s.canopy m.ipages m.ioff (8 * x.iwords) }
      else s
    | none => s) s
  let s := { s with forest := { s.forest with moves := s.forest.moves.filter fun m => !p m } }
  if gone.isEmpty then s else s.event Ev.frst 1

/-! ## Generations (R144, R148, R149) -/

/-- Whether a thread uses a segment (R145, step 3): its decode position while it has a grove, an outstanding fetch, a granule
of its branch buffer, or a call entry that returns into it. -/
def State.threadUses (s : State) (t : Fin 32) (id gen : Nat) : Bool :=
  let k := s.threads[t]
  k.requests.any (fun g => g.seg == id && g.gen == gen) || (k.members != 0 && ((s.rd (F.SEQ_SEG_SEG t) == id && s.rd (F.SEQ_SEG_GEN t) == gen) ||
    k.grans.any (fun g => g.seg == id && g.gen == gen) || k.stack.any fun e => e.kind == .call && e.seg == id && e.gen == gen))

/-- Whether any thread uses a segment. -/
def State.segUsed (s : State) (id gen : Nat) : Bool := (allFin 32).any fun t => s.threadUses t id gen

/-- Whether a message about a segment and generation that concerns thread `t` is acted on: the pair is current, or retiring and
the thread uses it (R150). -/
def State.segLive (s : State) (t : Fin 32) (seg gen : Nat) : Bool :=
  (s.curSeg seg).any (fun x => x.gen == gen) || ((s.segAt seg gen).isSome && s.threadUses t seg gen)

/-- The pages a segment occupies in its tier. -/
def Seg.pageCount (x : Seg) : Nat := if x.tier = .canopy ∨ x.tier = .sdram then (runPages x.pages).length else 0

/-- The code of a tier (R157, R321). -/
def Tier.code : Tier → Nat
  | .canopy => 0 | .sdram => 1 | .host => 2 | .none => 3

/-- Removes a generation: its bytes are zeroed and its pages freed, its moves abandoned, its learned profiles cleared. -/
def State.removeSeg (s : State) (x : Seg) : State :=
  let s := s.abandonMoves fun m => m.seg == x.id && m.gen == x.gen
  let s := if x.tier = .canopy ∨ x.tier = .sdram then s.zeroPages (x.tier == .sdram) (runPages x.pages) else s
  let s := s.clearStream x
  let keep := fun y : Seg => !(y.id == x.id && y.gen == x.gen && y.loading.isNone)
  { s with forest := { s.forest with segs := s.forest.segs.filter keep } }.slotsRetire x.id x.gen true

/-- The reachable sets of Declared bursts follow what has come to exist (R143). -/
def State.refreshReach (s : State) : State :=
  let reach := fun b : Burst => if b.stage = .declared then { b with reach := s.reachOf b.ops.seg b.ops.gen } else b
  { s with bursts := s.bursts.map reach }

/-- The load of a segment completes: the generation is current, the one before it retires, or goes at once where nothing
holds or uses it. -/
def State.makeCurrent (s : State) (x : Seg) : State :=
  let s := match s.curSeg x.id with
    | none => s
    | some old =>
      if s.segHeld old.id old.gen || s.segUsed old.id old.gen then
        (s.modSeg old.id old.gen fun y => { y with retiring := true }).slotsRetire old.id old.gen false
      else s.removeSeg old
  let s := (s.modLoad x.id x.gen fun y => { y with loading := none, waits := false, replaces := false }).refreshReach
  match x.loading with
  | some h => s.complete h stOk 0 (x.tier.code + 2 ^ 16 * x.pageCount)
  | none => s

/-- A retiring generation of an ID exists. -/
def State.hasRetiring (s : State) (id : Nat) : Bool := s.forest.segs.any fun x => x.id == id && x.retiring

/-- Whether a load whose copy is complete waits for a retiring generation: it replaces a held one, the one in force is held
or used by now, or its number is the retiring one's (R149). [log 162: DEDUCED] -/
def State.mustWait (s : State) (x : Seg) : Bool :=
  s.hasRetiring x.id && (x.replaces || (s.segAt x.id x.gen).isSome ||
    (s.curSeg x.id).any fun y => s.segHeld y.id y.gen || s.segUsed y.id y.gen)

/-- A message that bears a segment and generation that nothing present has is discarded (R150). -/
def State.staleSeg (s : State) : State := (s.incSat F.FOR_STALE_CNT_COUNT).event Ev.frst 3

/-! ## Compaction (R147) -/

/-- Plans moves that take every segment that may move out of some banks; what cannot go stays. -/
def State.clearBanks (s : State) (banks : List Nat) (bank : Option Nat) : State :=
  let inBank := fun x : Seg => x.loading.isNone && !s.moving x &&
    ((if x.tier = .canopy then runPages x.pages else []) ++ runPages x.ipages).any fun p => banks.contains (p / 64)
  (s.forest.segs.filter inBank).foldl (fun s x => match s.planOut x banks bank with
    | some m => s.addMove m
    | none => s) s

/-- The state in which every planned move has switched, for trying a placement that follows them. -/
def State.afterMoves (s : State) : State :=
  let s := s.forest.moves.foldl (fun s m => s.modSeg m.seg m.gen fun x =>
    { x with tier := m.tier, pages := m.pages, ipages := m.ipages, ioff := m.ioff }) s
  { s with forest := { s.forest with moves := [] } }

/-- Tries to make room for a placement in the payload region by emptying whole banks, the banks with the most free pages
first, at most eight: the placement and the state with the moves planned. [log 33: DESIGN CHOICE] -/
def State.compactFor {α : Type} (s : State) (place : State → Option α) : Option (α × State) :=
  let free := s.freeIn 2 []
  let count := fun b : Nat => (free.filter fun p => p / 64 == b).length
  let banks := ((sortBy (fun a b => decide (count b < count a))
    ((List.range 32).filter (bitOf (s.rd (F.STR_REGION_BANKS_BANK_MASK 2))))).take 8)
  (List.range banks.length).findSome? fun n =>
    let s' := s.clearBanks (banks.take (n + 1)) none
    (place s'.afterMoves).map fun a => (a, s')

/-- A placement as the payload region stands or, with COMPACT_EN, after compaction: what R140 and R142 say it can take. -/
def State.canTake {α : Type} (place : State → Option α) (s : State) : Option (α × State) :=
  match place s with
  | some a => some (a, s)
  | none => if s.on F.FOR_CTRL_COMPACT_EN then s.compactFor place else none

/-! ## Promotion and demotion (R142) -/

/-- Victims of a candidate or a load in ascending order of HEAT. -/
def State.victims (s : State) (limit : Nat) : List Seg :=
  sortBy (fun a b => decide (a.heat < b.heat)) (s.forest.segs.filter fun x =>
    x.tier == .canopy && x.loading.isNone && !s.segHeld x.id x.gen && !s.segUsed x.id x.gen && !s.moving x && decide (x.heat < limit))

/-- The placement that demoting victims makes possible, and the state with all moves planned: each victim's payload goes to the
SDRAM by a move, and its pages count as free for the placement that follows it. -/
def State.demoteFor {α : Type} (s : State) (place : State → Option (α × State)) : List Seg → Option (α × State)
  | [] => none
  | v :: l =>
    match s.planTier v .sdram with
    | none => s.demoteFor place l
    | some m =>
      let gone := (s.addMove m).modSeg v.id v.gen fun x => { x with tier := .none }
      let found := match place gone with
        | some a => some a
        | none => State.demoteFor gone place l
      found.map fun (r : α × State) => (r.1, { r.2 with forest := { r.2.forest with segs := s.forest.segs } })

/-- The HEAT below which a segment of the Canopy tier gives way to one of a given heat (R142). -/
def State.victimLimit (s : State) (heat : Nat) : Nat := max (256 * s.rd F.FOR_POLICY_DEMOTE) (heat / 2 + 1)

/-- Promotes a candidate of the SDRAM tier, demoting victims where it must. [log 33: DESIGN CHOICE] -/
def State.promote (s : State) (x : Seg) : State :=
  let place := State.canTake fun w => w.planTier x .canopy
  match place s with
  | some r => r.2.addMove r.1
  | none =>
    match s.demoteFor place (s.victims (s.victimLimit x.heat)) with
    | some r => r.2.addMove r.1
    | none => s

/-- The evaluation after each Reported and each load: candidates in descending order of HEAT. [log 33: DESIGN CHOICE] -/
def State.evaluate (s : State) : State :=
  if s.on F.FOR_CTRL_PROMOTE_EN then
    let c := s.forest.segs.filter fun x =>
      x.tier == .sdram && x.loading.isNone && !s.moving x && decide (256 * s.rd F.FOR_POLICY_PROMOTE ≤ x.heat)
    (sortBy (fun a b => decide (b.heat < a.heat)) c).foldl State.promote s
  else s

/-- Removes every retiring generation that nothing holds or uses, and lets the loads that waited for one complete; each such
load is evaluated like any other (R142, R149). -/
def State.dropRetired (s : State) : State :=
  let s := (s.forest.segs.filter fun x => x.retiring && !s.segHeld x.id x.gen && !s.segUsed x.id x.gen).foldl State.removeSeg s
  (s.forest.segs.filter fun x => x.waits).foldl (fun s x => if s.hasRetiring x.id then s else (s.makeCurrent x).evaluate) s

/-! ## Respreading (R143) -/

/-- A burst that only bank load keeps out makes the Forester spread its Canopy segments over further banks (R143). -/
def State.respread (s : State) (b : Burst) : State :=
  let s := s.event Ev.frst 2
  let waiting := s.modBurst b.hdr.tag b.hdr.epoch fun b => { b with stage := .admitted }
  let full := (List.range 32).filter fun k => decide (16 * 500 < (waiting.counted.map fun o => waiting.bankShare o k).sum)
  let spread := fun (w : State) (x : Seg) => if w.moving x then w else
    if full.any fun k => Seg.payIn k x || Seg.insIn k x then match w.planOut x full none with
      | some m => w.addMove m
      | none => w
    else w
  let after := ((s.reachSegs b).filter fun x => x.tier == .canopy).foldl spread waiting
  { s with forest := after.forest }

end Sys2Proof.Machine
end

