-- ==== Sys2Proof/Machine/Admission.lean ====
section
/-! DEFINITION. A burst from its command to cycle 0: acceptance (R10, R32, R115, R116), admission (R10, R143, R144, R514),
Armed (R34) and the start slot (R114). -/

namespace Sys2Proof.Machine

/-! ## Capture buffers (R188, R189) -/

/-- The layout of a grove's capture buffer: table present, offset and size of the fail area, offset and size of the value
area, total bytes. -/
structure CapLayout where
  table : Bool
  failOff : Nat
  failBytes : Nat
  valOff : Nat
  valBytes : Nat
  total : Nat
  deriving DecidableEq, Repr

/-- Rounds up to a multiple of 64. -/
def up64 (n : Nat) : Nat := (n + 63) / 64 * 64

/-- The capture mode in force; 5 to 7 are treated as 0 (R190). -/
def State.capModeOf (s : State) (g : Fin 32) : Nat := if s.rd (F.CAP_CFG_MODE g) ≤ 4 then s.rd (F.CAP_CFG_MODE g) else 0

/-- The layout that a grove's capture configuration gives (R188). [log 30: DEDUCED] -/
def State.capLayout (s : State) (g : Fin 32) : CapLayout :=
  let m := s.capModeOf g
  let tbl := if 1 ≤ m then 16 * (s.chansOf g).length else 0
  let fo := up64 (64 + tbl)
  let fb := if 2 ≤ m then 1024 * max 1 (s.rd (F.CAP_CFG_FAIL_KIB g)) else 0
  let vo := up64 (fo + fb)
  let vb := if s.on (F.CAP_CFG_VCAP_EN g) then 65536 * max 1 (s.rd (F.CAP_VCAP_CFG_PAGES g)) else 0
  { table := decide (1 ≤ m), failOff := fo, failBytes := fb, valOff := vo, valBytes := vb, total := vo + vb }

/-- The FLAGS of a capture header (R189). -/
def State.capFlags (s : State) (g : Fin 32) (complete : Bool) : Nat :=
  let k := s.groves[g]
  b2n k.vcap + 2 * s.rd (F.CAP_CFG_FAIL_WRAP g) + 4 * s.rd (F.CAP_CFG_VCAP_WRAP g) + 8 * b2n (s.mux g)
    + 16 * b2n (k.lost != 0) + 32 * b2n (k.vLost != 0) + 64 * b2n complete

/-- The header of R189: with every count zero, or, complete, with a grove's final counts. -/
def State.capHeader (s : State) (g : Fin 32) (complete : Bool) (start : Nat) : List Byte :=
  let k := s.groves[g]
  let l := s.capLayout g
  let z := fun n : Nat => if complete then n else 0
  bytesLE 4 0x46434851 ++ bytesLE 1 g ++ bytesLE 1 k.capMode ++ bytesLE 1 (s.capFlags g complete) ++ bytesLE 1 (s.chansOf g).length ++
  bytesLE 8 start ++ bytesLE 4 (if l.failBytes = 0 then 0 else l.failOff) ++ bytesLE 4 l.failBytes ++ bytesLE 4 (z k.recs) ++
  bytesLE 4 (z (min k.lost (2 ^ 32 - 1))) ++ bytesLE 4 (z k.failHead) ++ bytesLE 4 (if l.valBytes = 0 then 0 else l.valOff) ++
  bytesLE 4 l.valBytes ++ bytesLE 4 (z k.vGrans) ++ bytesLE 4 (z (min k.vLost (2 ^ 32 - 1))) ++ bytesLE 4 (z k.vHead) ++ bytesLE 8 0

/-- Places a grove's capture buffer; it keeps its two latest (R152). -/
def State.placeCapture (s : State) (g : Fin 32) : Option State :=
  let keep := (s.groves[g].bufs).take 1
  let s := ((s.groves[g].bufs).drop 1).foldl State.freePlace s
  let s := s.modGrove g fun k => { k with bufs := keep }
  (s.placeBuffer (s.capLayout g).total).map fun r =>
    let s := r.2.modGrove g fun k => { k with bufs := r.1 :: keep }
    s.wrs [(F.FOR_CAP_LOC_SDRAM g, b2n r.1.sdram), (F.FOR_CAP_LOC_PAGE g, r.1.page), (F.FOR_CAP_SIZE_BYTES g, r.1.bytes)]

/-- Places the capture buffers of every grove of a list, or none where one cannot be placed. -/
def State.placeCaptures (s : State) : List (Fin 32) → Option State
  | [] => some s
  | g :: r => (s.placeCapture g).bind fun s => s.placeCaptures r

/-- Writes the header and the empty first-fail table of a grove's new buffer (R189). -/
def State.openCapture (s : State) (g : Fin 32) : State :=
  match s.groves[g].bufs with
  | p :: _ =>
    let s := s.writePlace p 0 (s.capHeader g false 0)
    if (s.capLayout g).table then
      let entry := bytesLE 6 0xFFFFFFFFFFFF ++ bytesLE 10 0
      s.writePlace p 64 ((s.chansOf g).flatMap fun _ => entry)
    else s
  | [] => s

/-! ## Refusals (R10) -/

/-- The first condition of R10 that fails, with its DETAIL, and whether only bank load failed; none where all hold. A burst
Declared earlier holds its groves against a later one (R514). -/
def State.refusal (s : State) (b : Burst) : Option (Nat × Nat × Bool) :=
  let others := s.bursts.takeWhile fun o => o.hdr != b.hdr
  let badGrove := (grovesIn b.ops.groves).findSome? fun g =>
    if !s.bound g || (others.any fun o => bitOf o.ops.groves g.1) ||
        (s.linked g && (match s.linkOf g with
          | some l => !s.on (F.STR_LINK_AGREED l)
          | none => true)) || s.tapHold then some g.1
    else ((grovesIn (s.groupOf g)).find? fun k => !bitOf b.ops.groves k.1).map (·.1)
  match badGrove with
  | some g => some (1, g, false)
  | none =>
    match b.reach.find? fun r => (s.curSeg r.1).map (·.gen) != some r.2 with
    | some r => some (2, r.1 + 2 ^ 16 * r.2, false)
    | none =>
      let segs := s.reachSegs b
      let one := (grovesIn b.ops.groves).map (·.1) |>.headD 0
      let rest := s.counted
      let tierBad := [Tier.canopy, .sdram, .host].any fun t =>
        decide (16 * tierBudget t < s.tierShare b t + (rest.map fun o => s.tierShare o t).sum)
      let bankBad := (List.range 32).any fun k =>
        decide (16 * 500 < s.bankShare b k + (rest.map fun o => s.bankShare o k).sum)
      let ringBad := segs.any (fun x => x.tier == .host) &&
        (grovesIn b.ops.groves).any fun g => s.streams[s.threadOf g].ring.isNone
      let geomBad := segs.find? fun x => (grovesIn b.ops.groves).any fun g => x.granBytes != s.granBytes g
      match segs.find? fun x => x.tier == .none with
      | some x => some (3, x.id + 2 ^ 16 * x.gen, false)
      | none =>
        let gs := grovesIn b.ops.groves
        let bufferBad := !(s.placeCaptures gs).any fun s => s.storesFit gs
        if tierBad then some (3, one, false)
        else if bankBad then some (3, one, !ringBad && !bufferBad && geomBad.isNone)
        else if ringBad || bufferBad then some (3, one, false)
        else match geomBad with
          | some x => some (3, x.id + 2 ^ 16 * x.gen, false)
          | none =>
            if 2 ≤ s.rd F.PWR_STATUS_THERM ∨
                (s.rd F.PWR_STATUS_THERM = 1 ∧ 1000 < b.ops.demand + s.reserved + (s.waiting.map (·.ops.demand)).sum)
            then some (4, one, false) else none

/-! ## BURST (R10, R32, R115, R116) -/

/-- The operand checks made at acceptance. -/
def State.burstOperandsOk (s : State) (o : BurstOps) : Bool :=
  let lead := (grovesIn o.groves).any fun g => s.linked g && s.position g == 0
  let follow := (grovesIn o.groves).any fun g => s.linked g && s.position g != 0
  let role := s.rd F.SEQ_SYNC_CFG_ROLE
  decide (o.groves ≠ 0) && decide (o.groves < 2 ^ 32) && decide (1 ≤ o.demand) && decide (o.demand ≤ 2000) &&
  decide (o.mode ≤ 4) && decide (o.trig < 4) &&
  (o.mode != 1 || role == 1 || (role == 2 && s.rd F.SEQ_SYNC_CFG_PERIOD != 0)) &&
  (o.mode == 4 → follow) && (lead → o.mode != 4) && (follow → o.mode == 4)

/-- A burst that passes the acceptance checks is Declared: it holds its groves, the idle threads that serve them, and its
reachable set; what its groves have kept from the burst before stays (R514). -/
def State.declare (s : State) (h : Hdr) (o : BurstOps) : State :=
  let b : Burst :=
    { hdr := h, ops := o, stage := .declared, order := 0, startSlot := none, startTime := none, endTime := 0
      reach := s.reachOf o.seg o.gen, waiters := [], faultSeq := 0, faultSrc := 0xFF, firebreak := false, fatal := false
      armedBy := [] }
  let free := (grovesIn o.groves).filter fun g => s.bound g && s.groveIdle g
  let s := { s with bursts := s.bursts ++ [b] }
  free.foldl (fun s g =>
    let t := s.threadOf g
    if s.threads[t].busy.isNone then
      (s.modThread t fun k => { k with busy := some (h.tag, h.epoch) }).wr (F.SEQ_STATUS_STATE t) 1
    else s) s

/-- BURST (R8, R10, R313): acceptance, which FENCE does not delay: its checks, then Declared. -/
def execBurst (h : Hdr) (o : BurstOps) (s : State) : Host.Outcome State Fault Refusal :=
  match s.acceptedCmd h 0x01 with
  | none => .next s
  | some f => .next (if s.burstBefore f.order then s else s.take_ f fun s =>
    if !s.burstOperandsOk o then s.complete h stBadOperand
    else if s.reloading ∨ s.atAcceptance h (·.reload) then s.complete h stReloading
    else s.declare h o)

/-! ## BURST_ADMISSION (R10, R514) -/

/-- A refused burst releases its groves, its threads and its reachable set, and completes with its code (R514). -/
def State.refuseBurst (s : State) (b : Burst) (code detail : Nat) : State :=
  let s := (s.threadsOf b).foldl (fun s t =>
    (s.modThread t fun k => { k with busy := none }).wr (F.SEQ_STATUS_STATE t) 0) s
  { s with bursts := s.bursts.filter fun o => o.hdr != b.hdr }.dropRetired.complete b.hdr code detail

/-- A thread at the admission of its burst: everything a run needs starts afresh (R92, R121). -/
def State.admitThread (s : State) (b : Burst) (t : Fin 32) : State :=
  let mask := s.served t &&& b.ops.groves
  let fd := s.rd (F.SEQ_CFG_FDIST t)
  let g0 := (grovesIn mask).headD 0
  let wait : Option AnnWait := if (s.segAt b.ops.seg b.ops.gen).any fun x => x.tier == .host then
    some ⟨b.ops.seg, b.ops.gen, b.ops.seg, b.ops.gen, 0⟩ else none
  let s := s.modThread t fun k => 
    { busy := k.busy, members := mask, fdist := fd, segsNext := true, annWait := wait, requests := k.requests
      visit := k.visits, visits := k.visits + 1 }
  let s := s.wrs [(F.SEQ_STATUS_STATE t, 1), (F.SEQ_STATUS_END_REASON t, 0), (F.SEQ_STATUS_DEPTH t, 0),
    (F.SEQ_STATUS_BCAST t, b2n (s.bcast g0)), (F.SEQ_STATUS_TARGET t, if s.bcast g0 then s.rd (F.STR_GROVE_GROUP g0) else g0.1),
    (F.SEQ_PC_WORD t, 0), (F.SEQ_SEG_SEG t, b.ops.seg), (F.SEQ_SEG_GEN t, b.ops.gen),
    (F.SEQ_MATCHED_MASK t, without (s.rd (F.SEQ_MATCHED_MASK t)) mask), (F.SEQ_DETACHED_MASK t, 0),
    (F.SEQ_SIG_CNT_PASS t, 0), (F.SEQ_SIG_CNT_MISMATCH t, 0)]
  let s := (s.wrP (F.SEQ_CYCLE_LO_COUNT t) 0).wrP (F.SEQ_LINE_LO_COUNT t) 0
  (List.range 16).foldl (fun s i => s.wr (F.SEQ_PASS_PASSES t i) 0) s

/-- The counters and statuses of a grove that its burst's admission sets to zero (R39, R185). -/
def State.zeroGrove (s : State) (g : Fin 32) : State :=
  let s := [F.CAP_G_JUDGED_LO_COUNT g, F.CAP_G_FAILCYC_LO_COUNT g, F.CAP_G_FAILS_LO_COUNT g, F.FAB_VOID_CNT_LO_COUNT g].foldl
    (fun s f => s.wrP f 0) s
  let s := (s.chansOf g).foldl (fun (s : State) (c : Fin 128) => s.wr (F.CAP_CH_FAIL_COUNT c) 0) s
  s.wrs [(F.CAP_FF_LOC_VALID g, 0), (F.CAP_G_LOST_FAIL g, 0), (F.CAP_G_LOST_VCAP g, 0), (F.FAB_URUN_STAT_EPISODES g, 0),
    (F.FAB_DEMAND_MEAS_PEAK g, 0), (F.FAB_DEMAND_MEAS_OVER g, 0)]

/-- What a grove's outcome entry says before anything has run. -/
def freshRun (tag epoch : Nat) (k : Grove) : Grove :=
  { k with
    burst := some (tag, epoch), ended := none, peer := false, cycle0 := false, lastCycle := none, lastAny := none, emittedTo := none
    lines := 0, stamp := 0, voidFirst := none, voidLast := none, unrefFirst := none, unrefLast := none, winCycle := 0, failLines := []
    fetch := none, drained := false, unrecorded := false, dscEnd := [], capOpen := false }

/-- A grove at the admission of its burst (R39, R103, R185, R188, R189): tuning values are latched, counters are zeroed,
the capture buffer is opened. -/
def State.admitGrove (b : Burst) (s : State) (g : Fin 32) : State :=
  let s := (s.zeroGrove g).modGrove g (freshRun b.hdr.tag b.hdr.epoch)
  let lead := (grovesIn (s.groupOf g)).headD g
  let fs := s.rd (F.FAB_URUN_CFG_FILL_START lead)
  let fr := min (s.rd (F.FAB_URUN_CFG_FILL_RESUME lead)) fs
  let vl := s.rd (F.FAB_VOID_LIMIT_LIMIT lead)
  let m := s.capModeOf g
  let v := s.on (F.CAP_CFG_VCAP_EN g)
  (s.modGrove g fun k =>
    { k with
      fillStart := fs, fillResume := fr, voidLimit := vl, capOpen := true, capMode := m, vcap := v, recs := 0, lost := 0
      failHead := 0, visit := none, mapRun := none, valGran := none, vGrans := 0, vLost := 0, vHead := 0
      vHeld := [], timedOut := false, traffic := 0, span := 0, windows := [], demand := 0 }).openCapture g

/-- Fixes the latency of the linked groves of a burst (R343): Lg = 64 × ⌈L_ns ÷ (64 × Pmin)⌉. -/
def State.fixLatency (s : State) (b : Burst) : State :=
  (allFin 8).foldl (fun s l =>
    if s.rd (F.STR_LINK_MODULES l) ≠ 0 ∧ bitOf b.ops.groves (s.rd (F.STR_LINK_GROVE l)) then
      let g := s.rd (F.STR_LINK_GROVE l)
      let slots := maxOf (((List.range 8).filter (bitOf (s.rd (F.STR_LINK_LANE_MASK l)))).map fun n => s.rd (F.MFL_LAT_LAT_SLOTS n))
      let lsb := (10 * slots + 20) * 32768 / 10        -- L_ns in LSB: 1 ns is 3276.8 LSB
      let pmin := ((List.range 32).map fun ts => s.rd (F.TMG_PERIOD_LO g ts) + 2 ^ 32 * fieldOf (s.rd (F.TMG_PERIOD_HI g ts)) 0 11).foldl min (2 ^ 42)
      s.wr (F.MFL_GROVE_LAT_LG l) (64 * ((lsb + 64 * pmin - 1) / (64 * pmin)))
    else s) s

/-- The other members of the linked groves of a burst, as nothing heard of yet (R336). -/
def State.freshPeers (s : State) (b : Burst) : State :=
  let mine := (List.range 8).filter fun l => s.rd (F.STR_LINK_MODULES l) != 0 && bitOf b.ops.groves (s.rd (F.STR_LINK_GROVE l))
  let others := mine.flatMap fun l =>
    ((List.range (s.rd (F.STR_LINK_MODULES l))).filter fun p => p != s.rd (F.STR_LINK_POSITION l)).map fun p => ({ link := l, pos := p } : Peer)
  let old := s.links.peers.filter fun p => !mine.any fun l => l == p.link
  { s with links := { s.links with peers := old ++ others } }

/-- What admission does to everything the blocks tie to the start of a burst (R514). -/
def State.admitBurst (s : State) (b : Burst) : State :=
  let s := (s.placeCaptures (grovesIn b.ops.groves)).getD s
  let s := s.placeStores (grovesIn b.ops.groves)
  let s := (s.threadsOf b).foldl (fun s t => s.admitThread b t) s
  let s := (grovesIn b.ops.groves).foldl (State.admitGrove b) s
  let s := (s.fixLatency b).freshPeers b
  let n := s.fab.nextOrder
  let s := { s with fab := { s.fab with nextOrder := n + 1 } }
  (s.modBurst b.hdr.tag b.hdr.epoch fun b => { b with stage := .admitted, order := n }).grantWaiting

/-- Whether the power-up calibration has not ended (R414), or a calibration holds a channel of one of a burst's groves (R417). -/
def State.heldByCal (s : State) (b : Burst) : Bool :=
  !s.on F.CAL_STATUS_START_DONE || (grovesIn b.ops.groves).any fun g => (s.chansOf g).any fun c => bitOf s.calHold c.1

/-- Whether a segment load accepted before a burst has still to complete its copy: it has not begun, so that its segment is not
known, or it loads a member of the reachable set (R147). -/
def State.loadBefore (s : State) (b : Burst) : Bool :=
  (s.hq.inFlight.find? fun f => sameHdr f.hdr b.hdr).any fun f => s.hq.inFlight.any fun e =>
    e.opc == 0x11 && decide (e.order < f.order) && (!e.begun ||
      s.forest.segs.any fun x => (x.loading.any fun h => sameHdr h e.hdr) && !x.waits && b.reach.any fun r => r.1 == x.id)

/-- BURST_ADMISSION (R10, R143, R147, R313, R514): the first Declared burst that no calibration, no fence and no earlier load
holds is judged. [log 143: DESIGN CHOICE] -/
def execBurstAdmission (s : State) : Host.Outcome State Fault Refusal :=
  match s.bursts.find? fun b => b.stage == .declared && !s.heldByCal b && !s.fenced b.hdr && !s.loadBefore b with
  | none => .next s
  | some b => s.onStore fun s =>
    match s.refusal b with
    | some (code, detail, bankOnly) => .next ((if bankOnly then s.respread b else s).refuseBurst b code detail)
    | none => .next (s.admitBurst b)

/-! ## Armed and the start slot (R34, R114, R116) -/

/-- Slots of 10 ns, eight ticks each, counted from the end of module reset. -/
def State.slotNow (s : State) : Nat := s.tim.raw / 8

/-- The first slot boundary at or after the present. -/
def State.slotNext (s : State) : Nat := (s.tim.raw + 7) / 8

/-- Shared time at a raw count, with the rate in force (R347). -/
def State.timeAt (s : State) (raw : Nat) : Nat := zx 64 ({ s.tim with raw := raw }.nowFrac / tickFrac)

/-- The links of the linked groves a burst names. -/
def State.linksOf (s : State) (b : Burst) : List (Fin 8) :=
  (allFin 8).filter fun l => s.rd (F.STR_LINK_MODULES l) != 0 && bitOf b.ops.groves (s.rd (F.STR_LINK_GROVE l))

/-- Whether this module leads a linked grove of the burst. -/
def State.leads (s : State) (b : Burst) : Bool := (s.linksOf b).any fun l => s.rd (F.STR_LINK_POSITION l) == 0

/-- The leader holds the ARMED token of every other position of every linked grove (R116). -/
def State.allArmed (s : State) (b : Burst) : Bool :=
  (s.linksOf b).all fun l => s.rd (F.STR_LINK_POSITION l) != 0 ||
    (List.range (s.rd (F.STR_LINK_MODULES l))).all fun p => p == 0 || b.armedBy.any fun a => a.1 == 8 * l.1 + p

/-- The largest latency of the lanes of a burst's linked groves, in slots. -/
def State.linkSlots (s : State) (b : Burst) : Nat :=
  maxOf ((s.linksOf b).flatMap fun l =>
    ((List.range 8).filter (bitOf (s.rd (F.STR_LINK_LANE_MASK l)))).map fun n => s.rd (F.MFL_LAT_LAT_SLOTS n))

/-- The START token of every entry this module leads goes to every other member (R116): the slot counts from the latest epoch. -/
def State.sendStart (s : State) (b : Burst) (count : Nat) (cancel : Bool) : State :=
  ((s.linksOf b).filter fun (l : Fin 8) => s.rd (F.STR_LINK_POSITION l) == 0).foldl (fun (s : State) (l : Fin 8) =>
    (List.range (s.rd (F.STR_LINK_MODULES l))).foldl (fun s p => if p = 0 then s else s.tellMember l p (s.startToken l count cancel)) s) s

/-- Every member that does not lead tells the leader that it is Armed (R116). -/
def State.sendArmed (s : State) (b : Burst) : State :=
  (s.linksOf b).foldl (fun (s : State) (l : Fin 8) => if s.rd (F.STR_LINK_POSITION l) = 0 then s else s.tellMember l 0 (s.armedToken l)) s

/-- The links a burst uses have made the measurements that leaving idle asks for (R344). -/
def State.echoesMade (s : State) (b : Burst) : Bool :=
  (s.linksOf b).all fun l => (s.lanesOf l).all fun n => s.links.lanes[s.linkLane n].need == 0

/-- Another member stands at a period table that is not the leader's, or cannot start: every member ends before cycle 0 (R162).
[log 83: DEDUCED] -/
def State.mismatch (s : State) (b : Burst) : State :=
  (s.event Ev.tmg 4).endBeforeStart b .abortedBeforeStart

/-- The period-table CRCs of every member that follows this module in a burst are its own (R162). [log 83: DEDUCED] -/
def State.crcsMatch (s : State) (b : Burst) : Bool :=
  (s.linksOf b).all fun (l : Fin 8) => s.rd (F.STR_LINK_POSITION l) != 0 ||
    b.armedBy.all fun (a : Nat × Nat) => a.1 / 8 != l.1 || a.2 == s.periodCrc (s.rd (F.STR_LINK_GROVE l))

/-- Fixes the start slot of an Armed burst: the grove-keyed start event carries the shared time of cycle 0 (R114, R290). A
leader's slot lies at least its links' latency plus 2 slots ahead (R116), and it starts only where every member's period table is its
own (R162). -/
def State.chooseSlot (s : State) (b : Burst) (slot : Nat) : State :=
  if s.leads b && !s.allArmed b then s
  else if s.leads b && !s.crcsMatch b then (s.sendStart b 0 true).mismatch b
  else
    let slot := if s.leads b then max slot (s.slotNext + s.linkSlots b + 2) else slot
    let t := s.timeAt (8 * slot)
    let s := if s.leads b then s.sendStart b (slot - s.sync.epochSlot) false else s
    let s := s.modBurst b.hdr.tag b.hdr.epoch fun b => { b with startSlot := some slot, startTime := some t }
    (grovesIn b.ops.groves).foldl (fun s g => s.occurrence 1 g t) s

/-- The start event of a burst's mode, an epoch or a TRIG_IN edge, names a slot; a leader that still waits for ARMED tokens
notes that its condition is met (R116). -/
def State.startEvent (s : State) (b : Burst) (slot : Nat) : State :=
  if s.leads b && !s.allArmed b then s.modBurst b.hdr.tag b.hdr.epoch fun b => { b with met := true } else s.chooseSlot b slot

/-- The raw count at which shared time reaches a point that lies `ahead` ticks ahead, with the rate in force (R347). -/
def State.rawAt (s : State) (ahead : Nat) : Nat :=
  let due : Int := ((s.tim.nowFrac / tickFrac) + ahead) * tickFrac - s.tim.nowFrac
  let per : Int := tickFrac + s.tim.rate + s.tim.rateHo
  s.tim.raw + ((due + per - 1) / per).toNat

/-- The first slot at or after a shared-time point, and at least 2 slots ahead; a point already passed gives the first slot
permitted (R114). -/
def State.timeSlot (s : State) (point : Nat) : Nat :=
  let ahead := zx 48 ((point : Int) - s.now)
  max (s.slotNext + 2) (if ahead < 2 ^ 47 then (s.rawAt ahead + 7) / 8 else 0)

/-- The start slot of a mode whose condition the clock alone meets, IMMEDIATE and TIME (R114), or of a leader whose condition
was met before (R116). -/
def State.clockSlot (s : State) (b : Burst) : Option Nat :=
  if b.met then some s.slotNext
  else match b.ops.mode with
  | 0 => some ((b.armedAt + 7) / 8 + max 2 (s.rd F.SEQ_START_LEAD_SLOTS))
  | 3 => some (s.timeSlot b.ops.time)
  | _ => none

/-- Chooses the start slot where the clock alone meets the mode's condition. -/
def State.tryStartSlot (s : State) (b : Burst) : State :=
  match b.startSlot, s.clockSlot b with
  | none, some k => s.chooseSlot b k
  | _, _ => s

/-- Every remaining line of the thread is in its pin FIFOs: up to its end, or to a decision it waits for (R34). -/
def Thread.holdsAll (t : Thread) : Bool := t.todo.isEmpty && (t.endAfter.isSome || t.pend.isSome)

/-- The start fill of a thread: FILL_START of the lowest-numbered grove, raised for a linked grove (R34, R343). -/
def State.startFill (s : State) (t : Fin 32) : Nat :=
  match grovesIn s.threads[t].members with
  | g :: _ =>
    let base := 64 * s.groves[g].fillStart
    match s.linkOf g with
    | some l => if s.linked g then max base (s.rd (F.MFL_GROVE_LAT_LG l) + 128) else base
    | none => base
  | [] => 0

/-- The start fill condition of R34 on every thread of a burst. -/
def State.filled (s : State) (b : Burst) : Bool :=
  (s.threadsOf b).all fun t => decide (s.startFill t ≤ s.threads[t].fifo.length) || s.threads[t].holdsAll

/-- BURST_ARMED (R34): a Granted burst whose pin FIFOs hold their start fill is Armed. -/
def execBurstArmed (tag epoch : Nat) (s : State) : Host.Outcome State Fault Refusal :=
  match s.burstBy tag epoch with
  | none => .next s
  | some b =>
    if b.stage = .granted ∧ s.filled b ∧ s.echoesMade b then
      let now := s.tim.raw
      let s := s.modBurst tag epoch fun b => { b with stage := .armed, armedAt := now }
      .next ((s.sendArmed b).tryStartSlot { b with stage := .armed, armedAt := now })
    else .next s

end Sys2Proof.Machine
end

