-- ==== Sys2Proof/Machine/Words.lean ====
section
/-! DEFINITION. The words of the sequencer's instruction stream (R93 to R95): parity, opcode, reserved bits and fields. -/

namespace Sys2Proof.Machine

/-- An instruction of R94 with the fields that R95 takes out of its words. -/
inductive SeqOp where
  | run (ts : Nat) (csup : Bool) (mark n : Nat)
  | rpt (ts : Nat) (csup : Bool) (mark n : Nat)
  | loop (dscm : Bool) (count : Nat)
  | lend
  | mloop (dscm : Bool) (count : Nat)
  | mend (comb : Nat)
  | call (seg gen : Nat)
  | ret
  | jseg (seg gen : Nat)
  | jmp (tword tline : Nat)
  | brc (cond comb tword tline : Nat)
  | clrf
  | sig (start count crc : Nat)
  | halt (endDen : Bool)
  deriving DecidableEq, Repr

/-- The words an instruction occupies (R94). -/
def SeqOp.words : SeqOp → Nat
  | .jmp .. | .brc .. | .sig .. => 2
  | _ => 1

/-- Whether the ones of a word are odd in number. -/
def oddParity (w : BitVec 64) : Bool := ((bitsOf w.toNat 64).length) % 2 == 1

/-- The opcodes of R94, with the words each takes and the bits of the first word that R95 names. -/
def opWords : List (Nat × Nat × Nat) :=
  [(0x01, 1, 0x80FFFFFFFF00FFFF), (0x02, 1, 0x80FFFFFFFF00FFFF), (0x08, 1, 0x80FFFFFFFF00007F), (0x09, 1, 0x800000000000003F),
   (0x0A, 1, 0x80FFFFFFFF00007F), (0x0B, 1, 0x8000000000000C3F), (0x0C, 1, 0x80000000FFFFFF3F), (0x0D, 1, 0x800000000000003F),
   (0x0E, 1, 0x80000000FFFFFF3F), (0x10, 2, 0x8000000FFFFFF03F), (0x11, 2, 0x8000000FFFFFFFFF), (0x12, 1, 0x800000000000003F),
   (0x18, 2, 0x8003FFFFFFFFFFFF), (0x1F, 1, 0x800000000000007F)]

/-- The error that two words show by themselves: parity, opcode, reserved fields (R93 to R95, R120), or none. -/
def wordError (w0 w1 : BitVec 64) : Option Nat :=
  match opWords.find? fun o => o.1 == w0.toNat % 64 with
  | none => if oddParity w0 then some 1 else some 2
  | some (_, n, named) =>
    if oddParity w0 || (n == 2 && oddParity w1) then some 1
    else if without w0.toNat named ≠ 0 ∨ (n = 2 ∧ without w1.toNat 0x80000000FFFFFFFF ≠ 0) then some 3
    else none

/-- The instruction two words spell, the second where the opcode takes one; none for an opcode that R94 does not list. -/
def seqOp (w0 w1 : BitVec 64) : Option SeqOp :=
  let f := fun lsb w : Nat => fieldOf w0.toNat lsb w
  let b := fun i : Nat => bitOf w0.toNat i
  let second := w1.toNat % 2 ^ 32
  match f 0 6 with
  | 0x01 => some (.run (f 6 5) (b 11) (f 12 4) (f 24 32))
  | 0x02 => some (.rpt (f 6 5) (b 11) (f 12 4) (f 24 32))
  | 0x08 => some (.loop (b 6) (f 24 32))
  | 0x09 => some .lend
  | 0x0A => some (.mloop (b 6) (f 24 32))
  | 0x0B => some (.mend (f 10 2))
  | 0x0C => some (.call (f 8 16) (f 24 8))
  | 0x0D => some .ret
  | 0x0E => some (.jseg (f 8 16) (f 24 8))
  | 0x10 => some (.jmp (f 12 24) second)
  | 0x11 => some (.brc (f 6 4) (f 10 2) (f 12 24) second)
  | 0x12 => some .clrf
  | 0x18 => some (.sig (f 6 28) (f 34 16) second)
  | 0x1F => some (.halt (b 6))
  | _ => none

end Sys2Proof.Machine
end

