-- ==== Sys2Proof/Machine/Sequencer.lean ====
section
/-! DEFINITION. The sequencer threads (R92 to R111, R120, R121, R125 to R135): fetching payload granules, pushing lines into
the pin FIFOs, the meaning of every sequencer instruction, decisions on results, and signatures. -/

namespace Sys2Proof.Machine

/-! ## The thread's burst and segment -/

/-- The burst a thread serves. -/
def State.threadBurst (s : State) (t : Fin 32) : Option Burst :=
  s.threads[t].busy.bind fun b => s.burstBy b.1 b.2

/-- Whether the burst of a thread is at a stage. -/
def State.threadAt (s : State) (t : Fin 32) (l : List Stage) : Bool :=
  match s.threadBurst t with
  | some b => l.contains b.stage
  | none => false

/-- The segment the thread decodes in. -/
def State.threadSeg (s : State) (t : Fin 32) : Option Seg := s.segAt (s.rd (F.SEQ_SEG_SEG t)) (s.rd (F.SEQ_SEG_GEN t))

/-- The grove whose tuning and periods hold for all members of a thread: the lowest-numbered (R38, R162). -/
def State.lead (s : State) (t : Fin 32) : Fin 32 := (grovesIn (s.served t)).headD 0

/-- Payload granules of a segment (R70). -/
def Seg.grans (x : Seg) : Nat := (x.lines + 63) / 64

/-- The bytes of a payload granule as its tier stores them (R125). -/
def State.storedGran (s : State) (x : Seg) (n : Nat) : List Byte :=
  let addr := fun unit i => runAddr unit x.pages (n * x.granBytes + i)
  match x.tier with
  | .sdram => (List.range x.granBytes).map fun i => Mem.byte s.sdram (addr sdramPage i)
  | _ => (List.range x.granBytes).map fun i => Mem.byte s.canopy (addr canopyPage i)

/-- The bytes of the granule in a slot of a stream ring (R127). -/
def State.ringGran (s : State) (t : Fin 32) (n bytes : Nat) : List Byte :=
  match s.streams[t].ring with
  | some p => s.readPlace p (n % max 1 (s.rd (F.HQ_STRM_CFG_RING t)) * bytes) bytes
  | none => List.replicate bytes 0

/-- The counter block of R134: nonce, segment, generation, granule and block index, big-endian. [log 16: DESIGN CHOICE] -/
def counterBlock (nonce : BitVec 56) (seg gen gran block : Nat) : List Byte :=
  toBytes (natBE 7 nonce.toNat ++ natBE 2 seg ++ natBE 1 gen ++ natBE 4 gran ++ natBE 2 block)

/-- Decrypts the granule of an encrypted segment (R133). [log 16: DESIGN CHOICE] -/
def State.decrypt (s : State) (x : Seg) (n : Nat) (l : List Byte) : List Byte :=
  if x.keySlot = 0xFFFF then l
  else
    let key := (s.contentKey x.keySlot).getD (Config.erasedKey x.keySlot)
    let stream := (List.range (pagesFor x.granBytes 16)).flatMap fun b =>
      aesCtrBlock key (counterBlock (Config.packageNonce x.package) x.id x.gen n b)
    List.zipWith (fun a b => a ^^^ b) l stream

/-- The symbols of payload line `j` of a granule for `c` channels of `w` bits (R70). -/
def lineSyms (l : List Byte) (c w j : Nat) : List Nat :=
  let bits := leAt l (j * c * w / 8) (c * w / 8 + 1)
  (List.range c).map fun i => fieldOf bits (j * c * w % 8 + i * w) w

/-! ## Pushing lines (R72, R125) -/

/-- A granule named: segment, generation, index, visit. -/
abbrev GranKey := Nat × Nat × Nat × Nat

/-- The granule of the line an emission pushes next. -/
def Emit.need (e : Emit) : GranKey := (e.seg, e.gen, e.pos / 64, e.visit)

/-- The name of a granule. -/
def Gran.key (g : Gran) : GranKey := (g.seg, g.gen, g.idx, g.visit)

/-- Whether a granule is the one named. -/
def Gran.is (g : Gran) (k : GranKey) : Bool := g.key == k

/-- The line an emission pushes next. -/
def Emit.push (e : Emit) (syms : List Nat) : Line :=
  { ts := e.ts, cen := e.cen, segs := e.segs, resumed := e.resumed, marks := e.marks, mark := e.mark, syms := syms
    line := e.line, pass := e.pass, seg := e.seg, gen := e.gen, pline := e.pos, fresh := e.adv }

/-- The emission after one line has been pushed: marks lie on the first cycle only (R96). -/
def Emit.step (e : Emit) : Emit :=
  { e with adv := !e.rpt, segs := false, resumed := false, marks := [], mark := 0, left := e.left - 1, line := e.line + 1
           pos := if e.rpt then e.pos else e.pos + 1 }

/-- Whether a thread still has use for a granule that has arrived: its visit is in progress, is one a call returns to, or is
the next one, which a granule of the branch buffer was fetched for (R125). -/
def Thread.keeps (k : Thread) (g : Gran) : Bool :=
  k.todo.any (fun e => e.visit == g.visit && e.seg == g.seg && e.gen == g.gen) || g.visit == k.visit || (g.branch && g.visit == k.visits) ||
    (g.host && k.stack.any fun e => e.kind == .call && e.visit == g.visit)

/-- The granules a thread keeps after an emission moves from one position to another: one left is dropped; a granule of the
stream ring cannot be read again and stays until its lines are done. [log 22: DESIGN CHOICE] -/
def keepGrans (host : Bool) (old : GranKey) (lastLine : Bool) (new : Option GranKey) (l : List Gran) : List Gran :=
  if new = some old ∨ (host ∧ lastLine = false) then l else l.eraseP fun g => g.is old

/-- Whether the thread may push a line: its pin FIFOs hold fewer than 2048, and the result FIFOs, 2304 deep, have a slot for
its results beside those of every line pushed whose results the fabric has not taken (R21, R22). -/
def Thread.room (k : Thread) : Bool := decide (k.fifo.length < 2048) && decide (k.lines + k.fifo.length < k.resTo + 2304)

/-- Pushes at most `n` lines whose granules have arrived, while the pin and result FIFOs have room. -/
def State.push (s : State) (t : Fin 32) : Nat → State
  | 0 => s
  | n + 1 =>
    let k := s.threads[t]
    match k.todo with
    | [] => s
    | e :: rest =>
      if k.room = false then s
      else match k.grans.find? fun g => g.is e.need with
        | none => s
        | some g =>
          let lead := s.lead t
          let syms := lineSyms g.data (s.chansOf lead).length (s.widthBits lead) (e.pos % 64)
          let e' := e.step
          let todo := if e'.left = 0 then rest else e' :: rest
          let next := if e'.left ≠ 0 then some e'.need
            else match rest with
              | r :: _ => if (r.seg, r.gen, r.visit, r.pos) = (e.seg, e.gen, e.visit, e.pos + 1) then some r.need else none
              | [] => if (e.pos + 1) % 64 = 0 then none else some e.need
          let grans := keepGrans g.host e.need ((e.pos + 1) % 64 == 0) next k.grans
          let k' := { k with todo := todo, fifo := k.fifo ++ [e.push syms], grans := grans }
          (s.modThread t fun _ => { k' with grans := grans.filter k'.keeps }).push t n

/-- Writes the pin FIFO fill of the groves a thread serves. -/
def State.noteFill (s : State) (t : Fin 32) : State :=
  (grovesIn s.threads[t].members).foldl (fun (s : State) (g : Fin 32) => s.wr (F.FAB_FILL_FILL g) s.threads[t].fifo.length) s

/-- Pushes every line that can be pushed. -/
def State.pushLines (s : State) (t : Fin 32) : State := (s.push t 4096).noteFill t

/-! ## The words of the stream (R93) -/

/-- A word of a segment's instruction stream: little-endian, 0 past the last one. -/
def State.streamWord (s : State) (x : Seg) (i : Nat) : BitVec 64 :=
  if i < x.iwords then BitVec.ofNat 64 (leAt (Mem.bytes s.canopy (runAddr canopyPage x.ipages (x.ioff + 8 * i)) 8) 0 8) else 0

/-- The instruction at a word of a segment, if its words show no error by themselves. -/
def State.opAt (s : State) (x : Seg) (i : Nat) : Option SeqOp :=
  let w0 := s.streamWord x i
  let w1 := s.streamWord x (i + 1)
  match wordError w0 w1 with
  | none => seqOp w0 w1
  | some _ => none

/-! ## Granules (R110, R125, R129) -/

/-- A granule the thread will use, and whether the branch buffer takes it: the first one of a successor or a target. -/
structure Want where
  key    : GranKey
  branch : Bool
  deriving DecidableEq, Repr

/-- The granules an emission still needs, at most as many as the pin FIFOs can hold. -/
def Emit.wants (e : Emit) : List Want :=
  let first := e.pos / 64
  let last := (if e.rpt then e.pos else e.pos + e.left - 1) / 64
  (List.range (min 40 (last + 1 - first))).map fun i => ⟨(e.seg, e.gen, first + i, e.visit), e.segs && first + i == 0⟩

/-- The first granule of a path that begins at a word of a segment, looked for over at most `n` instructions: that of the
first emitting one, or of a transition's target outside the host tier (R110). -/
def State.pathGran (s : State) (t : Fin 32) : Nat → Nat → Nat → Nat → Nat → Nat → Option Want
  | 0, _, _, _, _, _ => none
  | n + 1, seg, gen, word, pos, visit =>
    let next := s.threads[t].visits
    (s.segAt seg gen).bind fun x => match s.opAt x word with
      | some (.run ..) | some (.rpt ..) => if pos < x.lines then some ⟨(seg, gen, pos / 64, visit), true⟩ else none
      | some (.call sg ge) | some (.jseg sg ge) =>
        if (s.segAt sg ge).any fun y => y.tier == .canopy || y.tier == .sdram then some ⟨(sg, ge, 0, next), true⟩ else none
      | some (.jmp w l) => s.pathGran t n seg gen w l next
      | some .clrf | some (.loop ..) | some (.mloop ..) => s.pathGran t n seg gen (word + 1) pos visit
      | some (.sig ..) => s.pathGran t n seg gen (word + 2) pos visit
      | _ => none

/-- The granules a thread will use, in the order of use: those of its emissions, then that of its position, or while a
conditional is pending the first ones of both successors (R110, R125). [log 146: DEDUCED] -/
def State.wants (s : State) (t : Fin 32) : List Want :=
  let k := s.threads[t]
  let seg := s.rd (F.SEQ_SEG_SEG t)
  let gen := s.rd (F.SEQ_SEG_GEN t)
  let pc := s.rd (F.SEQ_PC_WORD t)
  let here := k.todo.flatMap Emit.wants
  if k.endAfter.isSome || k.annWait.isSome then here
  else match k.pend with
    | some (_, .brc _ _ w l) => here ++ (s.pathGran t 9 seg gen (pc + 2) k.pos k.visit).toList ++ (s.pathGran t 9 seg gen w l k.visits).toList
    | some (_, .mend _) => here ++ (s.pathGran t 9 seg gen (pc + 1) k.pos k.visit).toList ++
        (match k.stack with
         | e :: _ => (s.pathGran t 9 e.seg e.gen e.word e.pos k.visits).toList
         | [] => [])
    | none => if (s.segAt seg gen).any fun x => decide (k.pos < x.lines) then
        here ++ [⟨(seg, gen, k.pos / 64, k.visit), k.segsNext && k.pos == 0⟩] else here

/-- Granules requested or arrived. -/
def Thread.held (k : Thread) : List Gran := k.requests ++ k.grans

/-- Whether there is a place for a granule: the branch buffer holds 4, and the others are fetched while the pin FIFOs have
room beyond the lines of those fetched before (R125). [log 146: DEDUCED] -/
def Thread.takes (k : Thread) (w : Want) : Bool :=
  if w.branch then decide ((k.held.filter (·.branch)).length < 4)
  else decide (k.fifo.length + 64 * (k.held.filter (!·.branch)).length < 2048)

/-- The granule a thread fetches next: the first in the order of use that it has not fetched and has a place for. [log 146: DEDUCED] -/
def State.nextWant (s : State) (t : Fin 32) : Option Want :=
  (s.wants t).find? fun w => !(s.threads[t].held.any fun g => g.is w.key) && s.threads[t].takes w

/-- A write of K to host memory, 8 bytes little-endian (R129). -/
def State.mirrorNow (s : State) (t : Fin 32) : State :=
  if s.on (F.HQ_STRM_CFG_MIRROR_EN t) then
    { s with host := Mem.puts s.host (s.rdP (F.HQ_STRM_MIRROR_LO_ADDR t) / 8 * 8) (bytesLE 8 s.streams[t].cons) }
  else s

/-- Shows the counts of a stream in its registers (R128). -/
def State.noteStream (s : State) (t : Fin 32) : State :=
  let k := s.streams[t]
  let fill := k.put - k.cons
  (s.wrs [(F.HQ_STRM_STAT_FILL t, fill), (F.HQ_STRM_STAT_CREDIT t, s.rd (F.HQ_STRM_CFG_RING t) - fill),
    (F.HQ_STRM_STAT_ANN t, min 7 k.anns.length)]).wrP (F.HQ_STRM_CONS_LO_K t) k.cons

/-- The lowest ring number that a host-streamed caller may still read when its callee returns. [log 147: DESIGN CHOICE] -/
def State.callerHold (s : State) (t : Fin 32) (n : Nat) : Nat :=
  s.threads[t].stack.foldl (fun m e =>
    if e.kind = .call ∧ (s.segAt e.seg e.gen).any (fun x => x.tier == .host) then min m (e.visit + (e.pos + 63) / 64) else m) n

/-- The thread has read granule `n` of its ring (R129): K passes it, and what an entry left early has not read. [log 147: DESIGN CHOICE] -/
def State.consume (s : State) (t : Fin 32) (n : Nat) : State :=
  let old := s.streams[t].cons
  let new := max old (s.callerHold t (n + 1))
  let s := { s with streams := upd s.streams t fun k => { k with cons := new } }
  let stride := 2 ^ (min 10 (s.rd (F.HQ_STRM_CFG_STRIDE t)))
  let s := if old / stride < new / stride then s.mirrorNow t else s
  s.noteStream t

/-- GRANULE_FETCH (R125, R129): the thread requests the granule it will use next of those it has not requested. A granule of
the host tier is read out of the ring, and the read waits while the ring does not hold it. [log 22: DESIGN CHOICE] -/
def execGranuleFetch (t : Fin 32) (seg gen gran : Nat) (s : State) : Host.Outcome State Fault Refusal :=
  match s.nextWant t, s.segAt seg gen with
  | some w, some x =>
    if s.threads[t].members = 0 ∨ s.threadAt t [.granted, .armed, .running] = false ∨ (w.key.1, w.key.2.1, w.key.2.2.1) ≠ (seg, gen, gran) ∨
        x.grans ≤ gran then .next s
    else
      let visit := w.key.2.2.2
      if x.tier = .host then
        let n := visit + gran
        if s.streams[t].put ≤ n then .next s
        else
          let data := s.ringGran t n x.granBytes
          .next ((s.consume t n).modThread t fun k => { k with requests := k.requests ++ [⟨seg, gen, gran, data, visit, true, w.branch⟩] })
      else if x.tier = .none then .next s
      else .next (s.modThread t fun k => { k with requests := k.requests ++ [⟨seg, gen, gran, s.storedGran x gran, visit, false, w.branch⟩] })
  | _, _ => .next s

/-- GRANULE_ARRIVAL (R123, R133): the oldest granule requested arrives, is decrypted, and its lines are pushed; one that the
thread has no use for any more is dropped. -/
def execGranuleArrival (t : Fin 32) (s : State) : Host.Outcome State Fault Refusal :=
  match s.threads[t].requests with
  | [] => .next s
  | g :: rest =>
    let data := match s.segAt g.seg g.gen with
      | some x => s.decrypt x g.idx g.data
      | none => g.data
    let keep := s.threads[t].members != 0 && s.threads[t].keeps g
    let s := s.modThread t fun k => { k with requests := rest, grans := if keep then k.grans ++ [{ g with data := data }] else k.grans }
    .next (if s.threads[t].members = 0 then s else s.pushLines t)

/-! ## Ends of a thread (R119) -/

/-- The underrun event of an episode: first void cycle and length, for each grove (R39). -/
def State.postVoid (s : State) (t : Fin 32) : State :=
  match s.threads[t].voidEp with
  | none => s
  | some ep =>
    let s := (grovesIn s.threads[t].members).foldl (fun s g =>
      s.occurrence 4 g (ep.first % 2 ^ 48 + min ep.len 65535 * 2 ^ 48)) s
    s.modThread t fun k => { k with voidEp := none }

/-- Every committed cycle has run and its results are combined. -/
def Thread.drained (k : Thread) : Bool := k.pipe.isEmpty && k.started.isEmpty

/-- Ends the groves of a running thread whose last cycle has run: by the pattern's end, by an error, or by an underrun that
aborts. Detached members end after their line (R38, R100, R105, R120). -/
def State.checkEnd (s : State) (t : Fin 32) : State :=
  if s.threadAt t [.running] = false then s
  else
    let gone := s.threads[t].detaching.filter fun d => d.2 ≤ s.threads[t].resTo
    let s := gone.foldl (fun s d => s.endMembers t d.1 .detached) s
    let s := s.modThread t fun k => { k with detaching := k.detaching.filter fun d => !gone.contains d }
    let k := s.threads[t]
    if k.drained = false then s
    else
      let s' := s.postVoid t
      match k.peerEnd, k.endAfter.filter (fun e => decide (e.lines ≤ k.lines)), k.voidEp.bind (·.stopAt) with
      | some (c, r), _, _ =>
        if c < k.cycles then
          let s' := (grovesIn k.members).foldl (fun s g => s.modGrove g fun x => { x with peer := true }) s'
          s'.endMembers t k.members r
        else s
      | none, some e, _ => s'.endMembers t k.members e.reason e.endDen
      | none, none, some c => if c ≤ k.cycles then s'.endMembers t k.members .underrun else s
      | none, none, none => s

/-- The thread stops decoding: its groves end after the lines decoded so far. -/
def State.endThread (s : State) (t : Fin 32) (r : EndReason) (endDen : Bool) : State :=
  (s.modThread t fun k => { k with endAfter := some ⟨k.line, r, endDen⟩ }).checkEnd t

/-- An instruction error (R120): recorded, reported, and the groves end after the lines pushed before the word, or at once
where cycle 0 is still to come and the fault ends the burst; a class of ABORT or above ends the other groves. -/
def State.seqErrorAt (s : State) (t : Fin 32) (code seg gen word : Nat) : State :=
  let s := s.wrs [(F.SEQ_ERR_CODE t, code), (F.SEQ_ERR_SEG t, seg), (F.SEQ_ERR_GEN t, gen), (F.SEQ_ERR_LOC_WORD t, word)]
  let src := if code = 1 then 13 else 12
  let lead := s.lead t
  let s := s.endThread t .seqError false
  let s := if s.threadAt t [.running] = false ∧ 2 ≤ s.classOf src then s.endMembers t s.threads[t].members .seqError else s
  let bound := s.threads[t].bound
  let ep := s.threads[t].voidEp
  let s := (s.event (Ev.seq t) 1).faultOnce src (some lead)
  if s.threads[t].members = 0 then s else s.modThread t fun k => { k with bound := bound, voidEp := ep }

/-- An instruction error at the word being decoded. -/
def State.seqError (s : State) (t : Fin 32) (code : Nat) : State :=
  s.seqErrorAt t code (s.rd (F.SEQ_SEG_SEG t)) (s.rd (F.SEQ_SEG_GEN t)) (s.rd (F.SEQ_PC_WORD t))

/-! ## Decoding (R93, R110) -/

/-- The thread decodes: its burst is Granted or later, nothing has ended its pattern, and no decision or announcement holds
it. -/
def State.decodes (s : State) (t : Fin 32) : Bool :=
  let k := s.threads[t]
  k.members != 0 && s.threadAt t [.granted, .armed, .running] && k.endAfter.isNone && k.pend.isNone && k.annWait.isNone

/-- Counts the words of an instruction as traffic of the thread's first grove (R32). -/
def State.fetchWords (s : State) (t : Fin 32) (words : Nat) : State :=
  s.modGrove (s.lead t) fun g => { g with traffic := g.traffic + 64 * words }

/-- The two words at the thread's place. -/
def State.wordPair (s : State) (t : Fin 32) (x : Seg) : BitVec 64 × BitVec 64 :=
  (s.streamWord x (s.rd (F.SEQ_PC_WORD t)), s.streamWord x (s.rd (F.SEQ_PC_WORD t) + 1))

/-- The error of the word at the thread's place: control past the last word, or what the words show by themselves (R100,
R120). -/
def State.placeError (s : State) (t : Fin 32) (x : Seg) : Option Nat :=
  let pc := s.rd (F.SEQ_PC_WORD t)
  let w := s.wordPair t x
  if x.iwords ≤ pc then some 3
  else match wordError w.1 w.2 with
    | some c => some c
    | none => if (seqOp w.1 w.2).any fun o => decide (x.iwords < pc + o.words) then some 3 else none

/-- Decodes the instruction at the thread's place: a faulty word is an error whatever the row, and a row acts where the words
spell it. [log 7: DESIGN CHOICE] -/
def State.decode (s : State) (t : Fin 32) (op : SeqOp) (act : State → Seg → State) : State :=
  if s.decodes t then
    match s.threadSeg t with
    | none => s.seqError t 3
    | some x => match s.placeError t x with
      | some c => s.seqError t c
      | none => if seqOp (s.wordPair t x).1 (s.wordPair t x).2 = some op then act (s.fetchWords t op.words) x else s
  else s

/-- The thread decodes, and the words at its place spell an instruction without error. -/
def State.reads (s : State) (t : Fin 32) (op : SeqOp) : Bool :=
  s.decodes t && (s.threadSeg t).any fun x => decide (s.placeError t x = none) && decide (seqOp (s.wordPair t x).1 (s.wordPair t x).2 = some op)

/-- Goes on at a word. -/
def State.goWord (s : State) (t : Fin 32) (word : Nat) : State := s.wr (F.SEQ_PC_WORD t) word

/-- Goes on after the present instruction. -/
def State.advance (s : State) (t : Fin 32) (words : Nat) : State := s.goWord t (s.rd (F.SEQ_PC_WORD t) + words)

/-- Replaces the control stack and shows it in SEQ_PASS and DEPTH. -/
def State.setStack (s : State) (t : Fin 32) (l : List StackEnt) : State :=
  let s := (s.modThread t fun k => { k with stack := l }).wr (F.SEQ_STATUS_DEPTH t) l.length
  (List.range 16).foldl (fun s i =>
    let v := match l.reverse[i]? with
      | some e => if e.kind = .call then e.word else e.passes
      | none => 0
    s.wr (F.SEQ_PASS_PASSES t i) v) s

/-- Lines a burst's threads advance to in a segment, and entries into it (R141). -/
def State.addAdvance (s : State) (t : Fin 32) (seg gen lines : Nat) : State :=
  match s.threads[t].busy with
  | none => s
  | some (tag, ep) => s.modBurst tag ep fun b =>
    if b.adv.any fun a => a.1 = seg ∧ a.2.1 = gen then
      { b with adv := b.adv.map fun a => if a.1 = seg ∧ a.2.1 = gen then (a.1, a.2.1, a.2.2 + lines) else a }
    else { b with adv := b.adv ++ [(seg, gen, lines)] }

/-- Emits `n` cycles of the lines at the payload position (R96). -/
def State.emit (s : State) (t : Fin 32) (rpt : Bool) (ts : Nat) (csup : Bool) (mark n : Nat) : State :=
  s.decode t (if rpt then .rpt ts csup mark n else .run ts csup mark n) fun s x =>
    let k := s.threads[t]
    let used := if rpt then 1 else n
    if n = 0 ∨ 2 ^ 32 ≤ n ∨ x.lines < k.pos + used then s.seqError t 3
    else
      let e : Emit :=
        { rpt := rpt, ts := ts % 32, cen := !csup, mark := mark % 16, segs := k.segsNext, resumed := k.resNext
          marks := k.marksNext, left := n, seg := x.id, gen := x.gen, pos := k.pos, line := k.line, visit := k.visit
          pass := k.stack.any fun e => decide (e.kind = .mloop) }
      let s := s.modThread t fun k =>
        { k with todo := k.todo ++ [e], pos := k.pos + used, line := k.line + n, segsNext := false, resNext := false, marksNext := [] }
      ((s.addAdvance t x.id x.gen used).advance t 1).pushLines t

/-- The loop-start delivery of a loop's entry at a depth (R98): the segment that holds the LOOP word, and the word. -/
def StackEnt.marker (e : StackEnt) (depth : Nat) : Marker := ⟨e.seg, e.gen, e.word - 1, depth⟩

/-- Goes on elsewhere: at a word and payload line of a segment, in a new visit. -/
def State.goTo (s : State) (t : Fin 32) (seg gen word pos : Nat) : State :=
  (s.modThread t fun k => { k with pos := pos, visit := k.visits, visits := k.visits + 1 }).wrs
    [(F.SEQ_SEG_SEG t, seg), (F.SEQ_SEG_GEN t, gen), (F.SEQ_PC_WORD t, word)]

/-- Opens a loop of either kind. -/
def State.openLoop (s : State) (t : Fin 32) (kind : StackKind) (dscm : Bool) (count : Nat) : State :=
  s.decode t (if kind = .mloop then .mloop dscm count else .loop dscm count) fun s x =>
    let k := s.threads[t]
    let pc := s.rd (F.SEQ_PC_WORD t)
    if count = 0 ∨ 2 ^ 32 ≤ count then s.seqError t 3
    else if 16 ≤ k.stack.length then s.seqError t 4
    else
      let ent : StackEnt :=
        { kind := kind, word := pc + 1, pos := k.pos, passes := 1, count := count, dscm := dscm, seg := x.id, gen := x.gen, matched := 0 }
      let depth := k.stack.length + 1
      let s := s.setStack t (ent :: k.stack)
      let s := s.modThread t fun k =>
        { k with marksNext := if dscm then k.marksNext ++ [ent.marker depth] else k.marksNext
                 passes := if kind = .mloop then k.passes ++ [⟨depth, k.line, none, 0, 0, false⟩] else k.passes }
      s.goWord t (pc + 1)

/-- Begins the next pass of the innermost loop, in the segment that holds it (R97, R98). -/
def State.nextPass (s : State) (t : Fin 32) (e : StackEnt) (rest : List StackEnt) : State :=
  let s := s.setStack t ({ e with passes := e.passes + 1 } :: rest)
  let s := s.modThread t fun k =>
    { k with marksNext := if e.dscm then k.marksNext ++ [e.marker (rest.length + 1)] else k.marksNext }
  s.goTo t e.seg e.gen e.word e.pos

/-! ## Conditions (R101 to R105) -/

/-- Lines whose results a decision sees: those numbered below this. -/
def Thread.sees (k : Thread) : Nat := k.line - 64 * max 2 (min 32 k.fdist)

/-- Members still in the group. -/
def Thread.live (k : Thread) : Nat := k.detaching.foldl (fun m d => without m d.1) k.members

/-- Whether a BRC condition holds for a member (R101, R103). -/
def State.holds (s : State) (t : Fin 32) (cond : Nat) (g : Fin 32) : Bool :=
  let k := s.threads[t]
  let fail := s.groves[g].failLines.any fun n => decide (k.winFrom ≤ n) && decide (n < k.sees)
  match cond with
  | 0 => fail
  | 1 => !fail
  | 2 => bitOf (s.rd (F.SEQ_MATCHED_MASK t)) g.1
  | _ => s.groves[g].timedOut

/-- STATE shows whether a running thread waits for a decision. -/
def State.noteState (s : State) (t : Fin 32) : State :=
  if s.threadAt t [.running] ∧ s.threads[t].members ≠ 0 then
    s.wr (F.SEQ_STATUS_STATE t) (if s.threads[t].pend.isSome then 3 else 2)
  else s

/-- Takes a BRC (R105). [log 57: DEDUCED] -/
def State.takeBrc (s : State) (t : Fin 32) (cond comb tword tline : Nat) : State :=
  let live := s.threads[t].live
  let hold := maskOf (((grovesIn live).filter fun g => s.holds t cond g).map (·.1))
  if comb = 2 then
    let s := if hold = 0 then s else s.modThread t fun k => { k with detaching := k.detaching ++ [(hold, k.line)] }
    let s := s.advance t 2
    if hold = live ∧ hold ≠ 0 then s.endThread t .detached false else s.checkEnd t
  else if (comb = 0 ∧ hold = live) ∨ (comb = 1 ∧ hold ≠ 0) then
    s.goTo t (s.rd (F.SEQ_SEG_SEG t)) (s.rd (F.SEQ_SEG_GEN t)) tword tline
  else s.advance t 2

/-- Whether a pass has void cycles between its first and its last line (R104). -/
def Thread.voidIn (k : Thread) (p : PassRec) (last : Nat) : Bool := k.voidAt.any fun n => decide (p.first < n) && decide (n ≤ last)

/-- The groves that an examined pass shows as matched. -/
def Thread.passMatch (k : Thread) (p : PassRec) : Nat :=
  match p.last with
  | some l => if k.voidIn p l then 0 else without p.judged p.failed
  | none => 0

/-- Takes a MEND (R103): earlier passes are examined; the loop exits or its next pass begins. -/
def State.takeMend (s : State) (t : Fin 32) (comb : Nat) : State :=
  let k := s.threads[t]
  match k.stack with
  | [] => s
  | e :: rest =>
    let depth := rest.length + 1
    let due := fun p : PassRec => decide (p.depth = depth) && !p.examined && (match p.last with
      | some l => decide (l < k.sees)
      | none => false)
    let matched := ((k.passes.filter due).foldl (fun m p => m ||| k.passMatch p) e.matched)
    let e := { e with matched := matched }
    let s := s.modThread t fun k => { k with passes := k.passes.map fun p => if due p then { p with examined := true } else p }
    let live := k.live
    let exits := if comb = 0 then matched &&& live == live else matched &&& live != 0
    if exits || decide (e.count ≤ e.passes) then
      let s := s.modThread t fun k =>
        { k with passes := k.passes.filter fun p => p.depth < depth
                 spans := k.spans ++ (k.passes.filter fun p => depth ≤ p.depth).filterMap fun p => p.last.map fun l => (p.first, l) }
      let s := s.setStack t rest
      let s := s.wr (F.SEQ_MATCHED_MASK t) (without (s.rd (F.SEQ_MATCHED_MASK t)) live ||| (matched &&& live))
      let s := (grovesIn live).foldl (fun s g => s.modGrove g fun x => { x with timedOut := !bitOf matched g.1 }) s
      let s := if without live matched = 0 then s else s.event (Ev.seq t) 5
      s.advance t 1
    else
      let s := s.nextPass t e rest
      s.modThread t fun k => { k with passes := k.passes ++ [⟨depth, k.line, none, 0, 0, false⟩] }

/-- Every other member of a linked grove has reported the lines a decision sees (R106). -/
def State.peersTold (s : State) (t : Fin 32) : Bool :=
  s.links.peers.all fun p => !bitOf s.threads[t].members (s.rd (F.STR_LINK_GROVE p.link)) || decide (s.threads[t].sees ≤ p.next)

/-- The granules of the branch buffer that the path taken does not begin with are dropped (R125). -/
def State.dropBranch (s : State) (t : Fin 32) : State :=
  let path := s.pathGran t 9 (s.rd (F.SEQ_SEG_SEG t)) (s.rd (F.SEQ_SEG_GEN t)) (s.rd (F.SEQ_PC_WORD t)) s.threads[t].pos s.threads[t].visit
  let want := (s.wants t ++ path.toList).map (·.key)
  s.modThread t fun k => { k with grans := k.grans.filter fun g => !g.branch || want.contains g.key }

/-- A pending decision is taken once the results it sees are combined (R102). -/
def State.decide_ (s : State) (t : Fin 32) : State :=
  let k := s.threads[t]
  match k.pend with
  | none => s
  | some (_, p) =>
    if k.sees ≤ k.resTo ∧ s.peersTold t then
      let s := s.modThread t fun k => { k with pend := none }
      let s := match p with
        | .brc c m w l => s.takeBrc t c m w l
        | .mend m => s.takeMend t m
      (s.dropBranch t).noteState t
    else s

/-- A conditional instruction is pending until its results are there. -/
def State.await (s : State) (t : Fin 32) (p : Pending) : State :=
  ((s.modThread t fun k => { k with pend := some (k.line, p) }).noteState t).decide_ t

/-- Whether a branch target lies in the segment. [log 20: DESIGN CHOICE] -/
def Seg.inside (x : Seg) (tword tline : Nat) : Bool := decide (tword < x.iwords) && decide (tline < x.lines)

/-! ## Transitions (R99, R130) -/

/-- Enters a segment at its first word and line. [log 20: DESIGN CHOICE] -/
def State.enter (s : State) (t : Fin 32) (x : Seg) : State :=
  let here : AnnWait := ⟨x.id, x.gen, s.rd (F.SEQ_SEG_SEG t), s.rd (F.SEQ_SEG_GEN t), s.rd (F.SEQ_PC_WORD t)⟩
  let s := s.modThread t fun k =>
    { k with pos := 0, segsNext := true, resNext := false, annWait := if x.tier = .host then some here else none
             visit := k.visits, visits := k.visits + 1 }
  ((s.useSeg x.id x.gen).addAdvance t x.id x.gen 0).wrs [(F.SEQ_SEG_SEG t, x.id), (F.SEQ_SEG_GEN t, x.gen), (F.SEQ_PC_WORD t, 0)]

/-- The checks of a CALL or JSEG at decode, then `act` on the target. -/
def State.target (s : State) (t : Fin 32) (seg gen : Nat) (act : State → Seg → State) : State :=
  match s.curSeg seg with
  | none => s.seqError t 7
  | some x => if x.gen ≠ gen then s.seqError t 7 else if x.tier = .none then s.seqError t 8 else act s x

/-! ## Meanings of the instructions -/

/-- RUN (R96). -/
def execRun (t : Fin 32) (ts : Nat) (csup : Bool) (mark n : Nat) (s : State) : Host.Outcome State Fault Refusal :=
  .next (s.emit t false ts csup mark n)

/-- RPT (R96). -/
def execRpt (t : Fin 32) (ts : Nat) (csup : Bool) (mark n : Nat) (s : State) : Host.Outcome State Fault Refusal :=
  .next (s.emit t true ts csup mark n)

/-- LOOP (R98). -/
def execLoop (t : Fin 32) (dscm : Bool) (count : Nat) (s : State) : Host.Outcome State Fault Refusal :=
  .next (s.openLoop t .loop dscm count)

/-- MLOOP (R103). -/
def execMloop (t : Fin 32) (dscm : Bool) (count : Nat) (s : State) : Host.Outcome State Fault Refusal :=
  .next (s.openLoop t .mloop dscm count)

/-- LEND (R98). -/
def execLend (t : Fin 32) (s : State) : Host.Outcome State Fault Refusal :=
  .next (s.decode t .lend fun s _ => match s.threads[t].stack with
    | [] => s.seqError t 5
    | e :: rest =>
      if e.kind ≠ .loop then s.seqError t 6
      else if e.passes < e.count then s.nextPass t e rest
      else (s.setStack t rest).advance t 1)

/-- MEND (R103): the pass ends with the line before it, and the decision waits for its results. -/
def execMend (t : Fin 32) (comb : Nat) (s : State) : Host.Outcome State Fault Refusal :=
  .next (s.decode t (.mend comb) fun s _ =>
    if 2 ≤ comb then s.seqError t 3
    else match s.threads[t].stack with
      | [] => s.seqError t 5
      | e :: rest =>
        if e.kind ≠ .mloop then s.seqError t 6
        else
          let close := fun (line : Nat) (p : PassRec) =>
            if p.depth = rest.length + 1 ∧ p.last = none then { p with last := some (line - 1), examined := decide (line ≤ p.first) } else p
          (s.modThread t fun k => { k with passes := k.passes.map (close k.line) }).await t (.mend comb))

/-- CALL (R97, R99). -/
def execCall (t : Fin 32) (seg gen : Nat) (s : State) : Host.Outcome State Fault Refusal :=
  .next (s.decode t (.call seg gen) fun s x => s.target t seg gen fun s y =>
    let k := s.threads[t]
    if 16 ≤ k.stack.length then s.seqError t 4
    else
      let ent : StackEnt :=
        { kind := .call, word := s.rd (F.SEQ_PC_WORD t) + 1, pos := k.pos, passes := 0, count := 0, dscm := false, seg := x.id
          gen := x.gen, matched := 0, visit := k.visit }
      (s.setStack t (ent :: k.stack)).enter t y)

/-- RET (R97, R99): the first cycle emitted after it carries no SEGS and begins a visit marked RESUMED (R192). [log 21: DEDUCED] -/
def execRet (t : Fin 32) (s : State) : Host.Outcome State Fault Refusal :=
  .next (s.decode t .ret fun s _ => match s.threads[t].stack with
    | [] => s.seqError t 5
    | e :: rest =>
      if e.kind ≠ .call then s.seqError t 6
      else
        let host := (s.segAt e.seg e.gen).any fun x => x.tier == .host
        let s := ((s.setStack t rest).modThread t fun k => { k with segsNext := false, resNext := true }).goTo t e.seg e.gen e.word e.pos
        if host then s.modThread t fun k => { k with visit := e.visit } else s)

/-- JSEG (R99). -/
def execJseg (t : Fin 32) (seg gen : Nat) (s : State) : Host.Outcome State Fault Refusal :=
  .next (s.decode t (.jseg seg gen) fun s _ => s.target t seg gen fun s y => s.enter t y)

/-- JMP (R100). -/
def execJmp (t : Fin 32) (tword tline : Nat) (s : State) : Host.Outcome State Fault Refusal :=
  .next (s.decode t (.jmp tword tline) fun s x =>
    if x.inside tword tline then s.goTo t x.id x.gen tword tline else s.seqError t 3)

/-- BRC (R101, R105): MATCHED and TIMEOUT are settled, FAIL and PASS wait for results. [log 57: DEDUCED] -/
def execBrc (t : Fin 32) (cond comb tword tline : Nat) (s : State) : Host.Outcome State Fault Refusal :=
  .next (s.decode t (.brc cond comb tword tline) fun s x =>
    if 4 ≤ cond ∨ 3 ≤ comb ∨ x.inside tword tline = false then s.seqError t 3
    else if 2 ≤ cond then s.takeBrc t cond comb tword tline
    else s.await t (.brc cond comb tword tline))

/-- CLRF (R101): the fail window starts after the last line emitted. -/
def execClrf (t : Fin 32) (s : State) : Host.Outcome State Fault Refusal :=
  .next (s.decode t .clrf fun s _ => (s.modThread t fun k => { k with winFrom := k.line }).advance t 1)

/-- SIG (R107): the check of stored granules starts and does not hold the next instruction. -/
def execSig (t : Fin 32) (start count crc : Nat) (s : State) : Host.Outcome State Fault Refusal :=
  .next (s.decode t (.sig start count crc) fun s x =>
    if count = 0 ∨ x.tier = .host ∨ x.grans < start + count then s.seqError t 3
    else (s.modThread t fun k => { k with sigs := k.sigs ++ [⟨x.id, x.gen, start, count, crc⟩] }).advance t 2)

/-- SIG_CHECK_DONE (R107, R135): the oldest check completes over the bytes as stored, which count as payload traffic (R32). -/
def execSigCheckDone (t : Fin 32) (s : State) : Host.Outcome State Fault Refusal :=
  match s.threads[t].sigs with
  | [] => .next s
  | c :: rest =>
    let s := s.modThread t fun k => { k with sigs := rest }
    match s.segAt c.seg c.gen with
    | none => .next s
    | some x =>
      let bytes := (List.range c.count).flatMap fun i => s.storedGran x (c.start + i)
      let s := if s.threads[t].members = 0 then s
        else s.modGrove (s.lead t) fun g => { g with traffic := g.traffic + 8 * bytes.length }
      if crc32 bytes = c.crc then .next (s.incSat (F.SEQ_SIG_CNT_PASS t))
      else
        let s := (s.incSat (F.SEQ_SIG_CNT_MISMATCH t)).wrs
          [(F.SEQ_SIG_LOC_SEG t, c.seg), (F.SEQ_SIG_LOC_GEN t, c.gen), (F.SEQ_SIG_START_START t, c.start)]
        .next ((s.event (Ev.seq t) 3).faultOnce 14 (some (s.lead t)))

/-- HALT (R100): the groves end after the last line before it. -/
def execHalt (t : Fin 32) (endDen : Bool) (s : State) : Host.Outcome State Fault Refusal :=
  .next (s.decode t (.halt endDen) fun s _ => s.endThread t .halt endDen)

/-- ILLEGAL_INSTRUCTION (R120): the word at the thread's place fails a check that it fails by itself. -/
def execIllegalInstruction (t : Fin 32) (s : State) : Host.Outcome State Fault Refusal :=
  .next (if s.decodes t then match (s.threadSeg t).bind (s.placeError t) with
    | some c => s.seqError t c
    | none => s
  else s)

/-- HOST_STREAM_ANNOUNCE_MATCH (R130): a waiting transition takes the first announcement and the entry's granules of the ring,
exactly as many as the segment has, or ends the grove. -/
def execHostStreamAnnounceMatch (t : Fin 32) (s : State) : Host.Outcome State Fault Refusal :=
  match s.threads[t].annWait, s.streams[t].anns with
  | some w, a :: rest =>
    let s := s.modThread t fun k => { k with annWait := none }
    if a = (w.seg, w.gen) then
      let n := ((s.segAt w.seg w.gen).map Seg.grans).getD 0
      let first := s.streams[t].next
      let s := s.modThread t fun k => { k with visit := first }
      .next ({ s with streams := upd s.streams t fun k => { k with anns := rest, next := first + n } }.noteStream t)
    else .next (s.seqErrorAt t 8 w.atSeg w.atGen w.word)
  | _, _ => .next s

/-- DECISION_RESULTS_READY (R102): the results a pending decision sees are there, and it is taken. -/
def execDecisionResultsReady (t : Fin 32) (s : State) : Host.Outcome State Fault Refusal := .next (s.decide_ t)

end Sys2Proof.Machine
end

