-- ==== Sys2Proof/Machine/Pins.lean ====
section
/-! DEFINITION. The pin side of a burst (R35 to R39, R76, R81 to R85, R88, R112, R114, R117, R118, R158 to R172): the start
slot, commits and void cycles, the events of a cycle with their order and spacing, and the end at a boundary. -/

namespace Sys2Proof.Machine

/-! ## The start (R114) -/

/-- Pulses, from an instant in fine units on, of the TRIG_OUT outputs whose source satisfies a test of output and source
(R112). -/
def State.pulses (s : State) (rise : Nat) (sel : State → Fin 8 → Bool) : State :=
  (allFin 8).foldl (fun s n => if sel s n then s.pulseOut n rise else s) s

/-- Whether an output takes a source of a thread. -/
def State.toutOf (s : State) (n : Fin 8) (src : Nat) (t : Fin 32) : Bool :=
  s.rd (F.SEQ_TOUT_SEL_SRC n) == src && s.rd (F.SEQ_TOUT_SEL_THREAD n) == t.1

/-- The start of a slot at the reference plane in LSB since reset (R175): 32 768 LSB to a slot, shifted by TMG_MOD_DELAY. -/
def State.slotOrigin (s : State) (slot : Nat) : Int := 32768 * (slot : Int) + s.rdS F.TMG_MOD_DELAY_DELAY

/-- A grove at cycle 0 in a slot: its frame starts afresh, and what its channels did before does not count (R168, R171, R175). -/
def State.startGrove (slot : Nat) (s : State) (g : Fin 32) : State :=
  let at_ := s.slotOrigin slot
  let s := s.modGrove g fun k => { k with start := 0, period := 16384, halted := false, cycle0 := true, origin := at_ }
  let clear := fun c : Chan =>
    { c with lastDat := none, lastDen := none, lastCmp := none, lastEdge := Vector.replicate 4 none, lastStrb := Vector.replicate 4 none
             launched := [] }
  let s := (s.chansOf g).foldl (fun s c => s.modChan c clear) s
  s.wr (F.FAB_FILL_LOW_MARK g) (s.rd (F.FAB_FILL_FILL g))

/-- The start of the cycle that a grove begins next, in fine units since reset (R159, R209). -/
def State.cycleAt (s : State) (g : Fin 32) : Nat := (4 * (s.groves[g].origin + s.groves[g].start)).toNat

/-- BURST_START (R12, R114): at its start slot an Armed burst becomes Running. -/
def execBurstStart (tag epoch : Nat) (s : State) : Host.Outcome State Fault Refusal :=
  match s.burstBy tag epoch with
  | none => .next s
  | some b => match b.startSlot with
    | none => .next s
    | some slot =>
      if b.stage = .armed ∧ slot ≤ s.slotNow then
        let s := s.modBurst tag epoch fun b => { b with stage := .running }
        let s := ((grovesIn b.ops.groves).foldl (State.startGrove slot) s).useSeg b.ops.seg b.ops.gen
        let s := s.acqBurstStart (grovesIn b.ops.groves)
        let s := (s.threadsOf b).foldl (fun s t =>
          ((s.noteState t).pulses (s.cycleAt (s.lead t)) fun s n => s.toutOf n 3 t).checkEnd t) s
        .next s
      else .next s

/-! ## The commit point (R35 to R39) -/

/-- Cycles between the commit point and emission: 64, and a linked grove's latency besides (R35). -/
def State.commitDepth (s : State) (t : Fin 32) : Nat :=
  64 + maxOf ((grovesIn s.threads[t].members).map fun g => match s.linkOf g with
    | some l => if s.linked g then s.rd (F.MFL_GROVE_LAT_LG l) else 0
    | none => 0)

/-- No cycle is committed any more: every line is committed and the pattern has ended, or a boundary is reached. -/
def Thread.closed (k : Thread) : Bool :=
  (match k.endAfter with
   | some e => decide (e.lines ≤ k.lines)
   | none => false) ||
  (match k.bound with
   | some b => decide (b.1 ≤ k.cycles)
   | none => false) ||
  (match k.voidEp.bind (·.stopAt) with
   | some c => decide (c ≤ k.cycles)
   | none => false) ||
  (match k.peerEnd with
   | some e => decide (e.1 < k.cycles)
   | none => false)

/-- Whether the void cycles have reached the limit of the lead grove (R38). [log 26: DEDUCED] -/
def State.voidSpent (s : State) (t : Fin 32) : Bool :=
  let l := s.groves[s.lead t].voidLimit
  l != 0 && decide (l ≤ s.threads[t].voids)

/-- The cause of an episode (R39): a linked peer, or the tier of the line the thread has still to push; a segment of the SDRAM
stays the SDRAM's when the controller has failed (R375). -/
def State.voidCause (s : State) (t : Fin 32) (cause : Nat) : Nat :=
  if cause = 4 then 4
  else
    let seg : Option Seg := match s.threads[t].todo with
      | e :: _ => s.segAt e.seg e.gen
      | [] => s.threadSeg t
    let tier : Option Tier := seg.map Seg.tier
    match tier with
    | some .sdram => 2
    | some .host => 3
    | some .none => if s.rd F.DMC_STATUS_STATE = 3 then 2 else 1
    | _ => 1

/-- Shows the committed cycles and lines (SEQ_CYCLE, SEQ_LINE) and the FIFO fill with its low mark. -/
def State.noteCommit (s : State) (t : Fin 32) : State :=
  let k := s.threads[t]
  let s := ((s.wrP (F.SEQ_CYCLE_LO_COUNT t) (k.cycles - 1)).wrP (F.SEQ_LINE_LO_COUNT t) k.lines).noteFill t
  (grovesIn k.members).foldl (fun s g =>
    s.wr (F.FAB_FILL_LOW_MARK g) (min (s.rd (F.FAB_FILL_LOW_MARK g)) (s.rd (F.FAB_FILL_FILL g)))) s

/-- Commits the next line. -/
def State.commitLine (s : State) (t : Fin 32) : State :=
  match s.threads[t].fifo with
  | [] => s
  | l :: rest =>
    let s := s.modThread t fun k =>
      { k with fifo := rest, pipe := k.pipe ++ [⟨k.cycles, some l, l.ts, 0⟩], cycles := k.cycles + 1, lines := k.lines + 1, lastTs := l.ts }
    (s.noteCommit t).pushLines t

/-- Whether the line a thread has to push next lies in a granule that its ring does not hold yet (R129). -/
def State.starved (s : State) (t : Fin 32) : Bool :=
  match s.wants t with
  | w :: _ => !(s.threads[t].held.any fun g => g.is w.key) && decide (s.streams[t].put ≤ w.key.2.2.2 + w.key.2.2.1)
  | [] => false

/-- An episode begins (R38, R39, R102, R129): status, cause and count of every grove of the thread, and the late decision or
the starvation that it shows. [log 26: DEDUCED] -/
def State.beginVoid (s : State) (t : Fin 32) (cause : Nat) : State :=
  let k := s.threads[t]
  let s := (grovesIn k.members).foldl (fun s g =>
    (s.wrs [(F.FAB_URUN_STAT_UNDERRUN g, 1), (F.FAB_URUN_STAT_CAUSE g, cause)]).incSat (F.FAB_URUN_STAT_EPISODES g)) s
  let stop := if s.urunAbort (s.lead t) then some ((k.cycles / 64 + 1) * 64) else none
  let s := s.modThread t fun k => { k with voidEp := some ⟨k.cycles, 0, cause, stop, false⟩ }
  let s := if k.pend.any fun p => p.1 == k.lines then (s.incSat (F.SEQ_LATE_CNT_COUNT t)).event (Ev.seq t) 2 else s
  if cause = 3 ∧ s.starved t then (s.incSat (F.HQ_STRM_STARVE_CNT_COUNT t)).event (Ev.strm t) 0 else s

/-- Commits a void cycle (R36, R37): it keeps the timing set of the last line. [log 26: DEDUCED] -/
def State.commitVoid (s : State) (t : Fin 32) : State :=
  let s := s.modThread t fun k =>
    { k with pipe := k.pipe ++ [⟨k.cycles, none, k.lastTs, 0⟩], cycles := k.cycles + 1, voids := k.voids + 1, voidAt := k.voidAt ++ [k.lines]
             voidEp := k.voidEp.map fun e => { e with len := e.len + 1 } }
  s.noteCommit t

/-- Lines that every FIFO must hold for the grove to resume: the resume fill, or all that is left (R38). -/
def State.resumeFill (s : State) (t : Fin 32) : Nat :=
  let k := s.threads[t]
  let n := 64 * s.groves[s.lead t].fillResume
  if k.holdsAll then min n k.fifo.length else n

/-- Whether every other member of a linked grove holds `n` lines from the next cycle on, by the PRESENT it has told. -/
def State.peersFill (s : State) (t : Fin 32) (n : Nat) : Bool :=
  s.links.peers.all fun p =>
    !bitOf s.threads[t].members (s.rd (F.STR_LINK_GROVE p.link)) ||
      (match p.present with
       | some c => decide (s.threads[t].cycles + n ≤ c + 1)
       | none => false)

/-- Whether a void grove may resume (R36, R38, R39): every FIFO of this module and of the other members of a linked grove
meets its condition, neither policy nor limit ends the grove, and no abort keeps it void. -/
def State.mayResume (s : State) (t : Fin 32) : Bool :=
  let k := s.threads[t]
  decide (s.resumeFill t ≤ k.fifo.length) && s.peersFill t (s.resumeFill t) && !s.voidSpent t &&
    k.voidEp.all fun e => e.stopAt.isNone && !e.held

/-- Whether every other member of a linked grove holds its line for the next cycle (R35, R337). -/
def State.peersHold (s : State) (t : Fin 32) : Bool := s.peersFill t 1

/-- CYCLE_COMMIT (R35, R36): the line for the next cycle is taken, or the cycle is void. Cause 4 says that a linked peer
lacks its line; it is recorded where this module holds its own (R39). -/
def execCycleCommit (t : Fin 32) (cause : Nat) (s : State) : Host.Outcome State Fault Refusal :=
  let k := s.threads[t]
  let cause := if s.peersHold t then cause else 4
  let started := s.threadAt t [.running] || (s.threadAt t [.armed] && (s.threadBurst t).any fun b => b.startSlot.isSome)
  if k.members = 0 ∨ started = false ∨ k.closed ∨ s.commitDepth t ≤ k.pipe.length then .next s
  else if k.fifo.isEmpty = false ∧ cause ≠ 4 ∧ (k.voidEp.isNone ∨ s.mayResume t) then .next ((s.postVoid t).commitLine t)
  else
    let s := if k.voidEp.isNone then s.beginVoid t (s.voidCause t (if k.fifo.isEmpty then 0 else 4)) else s
    .next (s.commitVoid t)

/-- VOID_LIMIT_REACHED (R38): from the cycle that reaches the limit on, the grove is handled as under ABORT. [log 26: DEDUCED] -/
def execVoidLimitReached (t : Fin 32) (s : State) : Host.Outcome State Fault Refusal :=
  if s.voidSpent t ∧ s.threads[t].voidEp.isSome then
    let beyond := s.threads[t].voids - s.groves[s.lead t].voidLimit
    .next (s.modThread t fun k => { k with voidEp := k.voidEp.map fun e =>
      { e with stopAt := some (e.stopAt.getD (((k.cycles - 1 - beyond) / 64 + 1) * 64)) } })
  else .next s

/-! ## The events of a cycle (R76, R81, R163 to R169) -/

/-- The largest offset beyond the cycle's period that an event may have (R165). -/
abbrev extentLsb : Nat := 262144

/-- An event as a generator judges it: its instant, its instant without DEN_ADJ, its offset, and its end (a window's). -/
structure Ev1 where
  code  : Nat
  at_   : Int
  place : Int
  ext   : Nat
  deriving DecidableEq, Repr

/-- Whether an instant lies less than `n` LSB after an earlier one. -/
def tooClose (n : Int) (last : Option Int) (now : Int) : Bool :=
  match last with
  | some l => decide (now < l + n)
  | none => false

/-- The first rule of R168 that a drive action breaks: spacing (of code `sp`), recurrence, extent. -/
def driveRule (sp : Nat) (lastSame lastIdx : Option Int) (e : Ev1) (period : Nat) : Option Nat :=
  if tooClose 512 lastSame e.at_ then some sp
  else if tooClose 2048 lastIdx e.place then some 4
  else if period + extentLsb < e.ext then some 5 else none

/-- A violation: channel, timing set, event and rule. -/
structure Viol where
  ch    : Nat
  ts    : Nat
  event : Nat
  rule  : Nat
  drive : Bool
  deriving DecidableEq, Repr

/-- One channel while its cycle is placed: the channel, and the violations found. -/
structure Placed where
  c : Chan
  v : List Viol := []
  /-- Paths, generators and placed times of the events fired (R163). -/
  fired : List (Path × Nat × Int) := []
  deriving DecidableEq, Repr

/-- What a cycle places for a channel: start, period, timing set, channel, and whether edges at or beyond the cycle's end
stay out (R166). -/
structure Frame where
  start  : Nat
  period : Nat
  ts     : Nat
  ch     : Nat
  cut    : Bool
  deriving DecidableEq, Repr

/-- One drive edge: its DATA action and its DEN action (R76, R163, R168, R169). `data` and `den` are the codes of the entry,
`off` the offset, `adj` DEN_ADJ, `idx` the edge. -/
def driveEdge (f : Frame) (idx : Fin 4) (data den off : Nat) (adj : Int) (p : Placed) : Placed :=
  let place : Int := f.start + off
  let last := p.c.lastEdge[idx]
  let beyond := fun (x : Int) => f.cut && decide ((f.start + f.period : Int) ≤ x)
  let bad := fun rule => (⟨f.ch, f.ts, idx.1, rule, true⟩ : Viol)
  let p := if data = 0 ∨ beyond place then p
    else match driveRule 0 p.c.lastDat last ⟨idx, place, place, off⟩ f.period with
      | some r => { p with v := p.v ++ [bad r] }
      | none =>
        let drv := if data = 1 then false else if data = 2 then true else !p.c.drv
        { p with c := { p.c with drv := drv, lastDat := some place, lastEdge := p.c.lastEdge.set idx (some place) }
                 fired := p.fired ++ [(.drv, idx.1, place)] }
  let x := place + adj
  if den = 0 ∨ beyond x then p
  else match driveRule 1 p.c.lastDen last ⟨idx, x, place, off⟩ f.period with
    | some r => { p with v := p.v ++ [bad r] }
    | none => { p with c := { p.c with den := decide (den = 1), lastDen := some x, lastEdge := p.c.lastEdge.set idx (some place) }
                       fired := p.fired ++ [(.den, idx.1, x)] }

/-- The verdict of an expectation on a pair of decisions 2 × CMH + CML (R83): fail or not. -/
def judgePair (exp pair : Nat) : Bool :=
  match exp, pair with
  | 1, 1 => false | 2, 2 => false | 3, 0 => false | 4, 1 => false | 4, 2 => false
  | 5, 0 => false | 5, 1 => false | 6, 0 => false | 6, 2 => false
  | _, _ => true

/-- What a strobe of a cycle asks for and sees: expectation, capture, its pair, and the pairs seen up to its end. -/
structure Strobe where
  idx   : Fin 4
  code  : Nat
  unit  : Nat
  exp   : Nat
  capt  : Bool
  off   : Nat
  /-- The offset of the end of a window. -/
  till  : Option Nat
  pair  : Nat
  pairs : Nat
  deriving DecidableEq, Repr

/-- The first rule of R168 that a strobe or a window breaks. -/
def strobeRule (f : Frame) (c : Chan) (x : Strobe) : Option Nat :=
  let place : Int := f.start + x.off
  let endOff := x.till.getD x.off
  if tooClose 512 c.lastCmp place then some 2
  else if x.till.isSome ∧ endOff < x.off + 1024 then some 3
  else if tooClose 2048 c.lastStrb[x.idx] place || (x.till.isSome && tooClose 2048 c.lastStrb[1] (f.start + endOff)) then some 4
  else if f.period + extentLsb < x.off ∨ f.period + extentLsb < endOff then some 5 else none

/-- One compare event: it fires and is judged, or is dropped (R83 to R85, R168, R169). `cen` is the line's CEN. The result's
events are numbered as R187 does: 0 C0, 1 C1, 2 window, 3 to 6 unit intervals. -/
def strobe (f : Frame) (cen : Bool) (x : Strobe) (q : Placed × ChanRes) : Placed × ChanRes :=
  let (p, r) := q
  if x.exp = 0 ∧ x.capt = false then q
  else
    let judged := cen && x.exp != 0
    let event := if x.till.isSome then 2 else x.unit
    let mark := fun (r : ChanRes) (fail drop : Bool) =>
      { r with judged := r.judged || judged, failed := r.failed || (judged && fail), drop := r.drop || (judged && fail && drop)
               event := if judged && fail && !r.failed then event else r.event
               ui := if judged && fail && decide (3 ≤ x.unit) then r.ui ||| 2 ^ (x.unit - 3) else r.ui }
    let at_ := 2 * (if 3 ≤ x.unit then x.unit - 3 else x.unit)
    let store := fun (r : ChanRes) (v : Nat) => if x.capt then { r with capt := true, val := setField r.val at_ 2 v } else r
    match strobeRule f p.c x with
    | some rule =>
      let r := store (mark r true true) 3
      ({ p with v := p.v ++ [⟨f.ch, f.ts, x.code, rule, false⟩] }, { r with inval := r.inval || x.capt })
    | none =>
      let place : Int := f.start + x.off
      let fin_ : Int := f.start + (x.till.getD x.off : Nat)
      let strb := p.c.lastStrb.set x.idx (some place)
      let strb := if x.till.isSome then strb.set 1 (some fin_) else strb
      let fail := judgePair x.exp x.pair || (x.till.isSome && (bitsOf x.pairs 4).any fun b => judgePair x.exp b)
      let ends : List (Path × Nat × Int) := if x.till.isSome then [(.cmh, 1, fin_), (.cml, 1, fin_)] else []
      ({ p with c := { p.c with lastCmp := some fin_, lastStrb := strb }, fired := p.fired ++ [(.cmh, x.idx.1, place), (.cml, x.idx.1, place)] ++ ends },
        store (mark r fail false) x.pair)

/-- A pair of decisions after POL_SWAP (R83). -/
def State.seen (s : State) (c : Fin 128) (pair : Nat) : Nat :=
  pair % 4 ^^^ (2 * b2n (s.swapped c 2) + b2n (s.swapped c 3))

/-- The low and the high word of a waveform definition (R75). -/
def symLo (ch ts code : Nat) : Fld := ⟨.sym, 0x200000 + 0x1000 * ch + 0x80 * ts + 8 * code, 0, 32⟩
def symHi (ch ts code : Nat) : Fld := ⟨.sym, 0x200004 + 0x1000 * ch + 0x80 * ts + 8 * code, 0, 32⟩

/-- The waveform definition of a code (R75). -/
def State.wave (s : State) (c : Fin 128) (ts code : Nat) : Nat := s.rd (symLo c ts code)

/-- The levels a cycle brought for a channel; a channel it names none for reads (0, 0). -/
def levelsOf (l : List ChanLevels) (c : Fin 128) : ChanLevels :=
  (l.find? fun x => x.ch == c.1).getD { ch := c, c0 := 0, c1 := 0, u2 := 0, u3 := 0, win := 0 }

/-- No result. -/
def ChanRes.blank (c : Fin 128) : ChanRes :=
  { ch := c, judged := false, failed := false, event := 0, drop := false, ui := 0, capt := false, val := 0, inval := false }

/-- The events of one channel in a cycle of a grove of 1, 2 or 4-bit symbols. -/
def State.placeWave (s : State) (c : Fin 128) (f : Frame) (cen : Bool) (code : Nat) (l : ChanLevels) : Placed × ChanRes :=
  let w := s.wave c f.ts code
  let adj := sx 13 (s.rd (F.TMG_TSCFG_DEN_ADJ c f.ts))
  let p := (allFin 4).foldl (fun p k =>
    driveEdge f k (fieldOf w (4 * k.1) 2) (fieldOf w (4 * k.1 + 2) 2) (s.rd (F.TMG_EDGE_OFFSET c f.ts k)) adj p) { c := s.chans[c] }
  let c0 := s.rd (F.TMG_CMP_OFFSET c f.ts 0)
  let c1 := s.rd (F.TMG_CMP_OFFSET c f.ts 1)
  let win := bitOf w 24
  let pairs := (bitsOf l.win 4).foldl (fun m b => m ||| 2 ^ s.seen c b) 0
  let first : Strobe := ⟨0, 4, 0, fieldOf w 16 3, bitOf w 19, c0, if win then some c1 else none, s.seen c l.c0, pairs⟩
  let second : Strobe := ⟨1, 5, 1, fieldOf w 20 3, bitOf w 23, c1, none, s.seen c l.c1, 0⟩
  let q := strobe f cen first (p, ChanRes.blank c)
  if win then q else strobe f cen second q

/-- The events of one channel in a multiplexed cycle (R81, R172). -/
def State.placeMux (s : State) (c : Fin 128) (f : Frame) (cen : Bool) (code : Nat) (l : ChanLevels) : Placed × ChanRes :=
  let ui := f.period / 4
  let adj := sx 13 (s.rd (F.TMG_TSCFG_DEN_ADJ c f.ts))
  let entry := fun (u : Fin 4) => s.wave c f.ts (fieldOf code (2 * u.1) 2)
  let p := (allFin 4).foldl (fun p u =>
    driveEdge f u (fieldOf (entry u) 0 2) (fieldOf (entry u) 2 2) (s.rd (F.TMG_EDGE_OFFSET c f.ts 0) + u.1 * ui) adj p) { c := s.chans[c] }
  let pair := fun (u : Fin 4) => s.seen c ([l.c0, l.c1, l.u2, l.u3].getD u.1 0)
  (allFin 4).foldl (fun q u =>
    strobe f cen ⟨u, 6, 3 + u.1, fieldOf (entry u) 16 3, bitOf (entry u) 19, s.rd (F.TMG_CMP_OFFSET c f.ts 0) + u.1 * ui, none, pair u, 0⟩ q)
    (p, ChanRes.blank c)

/-- A channel that a parity error keeps from firing and judging (R79, R180, R197). -/
def suppressed (mux : Bool) (c : Fin 128) : ChanRes :=
  { ChanRes.blank c with val := if mux then 255 else 15, inval := true }

/-- Counts and records the violations of a cycle (R169). -/
def State.noteViols (s : State) (g : Fin 32) (l : List Viol) : State :=
  l.foldl (fun s v =>
    let s := s.incSat (if v.drive then F.TMG_CH_STAT_DROP_DRV v.ch else F.TMG_CH_STAT_DROP_CMP v.ch)
    let s := if s.on ⟨.tmg, Ev.tmg.ev, 3, 1⟩ then s
      else s.wrs [(F.TMG_ORDER_LOC_CH, v.ch), (F.TMG_ORDER_LOC_TS, v.ts), (F.TMG_ORDER_LOC_EVENT, v.event), (F.TMG_ORDER_LOC_RULE, v.rule)]
    (s.event Ev.tmg 3).faultOnce 11 (some g)) s

/-- A parity error of the pattern tables (R79, R180): its place, its event and its fault. -/
def State.parityError (s : State) (hit : ParityHit) (scrub : Bool) (g : Option (Fin 32)) : State :=
  match hit with
  | .none => s
  | .symMap ch ts code =>
    ((s.wrs [(F.SYM_PAR_LOC_CH, ch), (F.SYM_PAR_LOC_TS, ts), (F.SYM_PAR_LOC_CODE, code), (F.SYM_PAR_LOC_SCRUB, b2n scrub)]).event Ev.sym 2).faultOnce 9 g
  | .timing kind index ts =>
    let s := (s.wrs [(F.TMG_PAR_LOC_INDEX, index), (F.TMG_PAR_LOC_TS, ts), (F.TMG_PAR_LOC_KIND, kind), (F.TMG_PAR_LOC_SCRUB, b2n scrub)]).event Ev.tmg 2
    let s := s.faultOnce 10 g
    if kind = 3 then s.modChan (fin 128 index) fun c => { c with linOk := false } else s

/-- Whether a parity error keeps a channel from firing in the cycle. -/
def silences (hit : ParityHit) (c : Fin 128) : Bool :=
  match hit with
  | .symMap ch _ _ => ch == c.1
  | .timing 1 _ _ => true
  | .timing 3 _ _ => false
  | .timing _ i _ => i == c.1
  | .none => false

/-- The period of a timing set of a grove (R160). [log 27: DESIGN CHOICE] -/
def State.periodOf (s : State) (g : Fin 32) (ts : Nat) : Nat := s.rd (F.TMG_PERIOD_LO g ts) + 2 ^ 32 * fieldOf (s.rd (F.TMG_PERIOD_HI g ts)) 0 11

/-- One granule of cycle indices more: the demand of the window that ends with it (R32), in units of 64 MB/s rounded up,
where 6400 bits in one LSB make one unit. [log 25: DEDUCED] -/
def Grove.endGranule (k : Grove) : Grove :=
  let l := ((k.traffic, k.span) :: k.windows).take 32
  let bits := (l.map (·.1)).sum
  let span := (l.map (·.2)).sum
  let d := if l.length = 32 then (6400 * bits + span - 1) / max 1 span else 0
  { k with traffic := 0, span := 0, windows := l.take 31, demand := d }

/-- Adds a cycle's traffic and length, and at a granule's end shows the peak and the burst's excess (R32).
[log 23: DEDUCED; log 24: DESIGN CHOICE] -/
def State.measureCycle (s : State) (g : Fin 32) (idx bits span : Nat) : State :=
  let s := s.modGrove g fun k => { k with traffic := k.traffic + bits, span := k.span + span }
  if idx % 64 ≠ 63 then s
  else
    let s := s.modGrove g Grove.endGranule
    let s := s.wr (F.FAB_DEMAND_MEAS_PEAK g) (min 2047 (max (s.rd (F.FAB_DEMAND_MEAS_PEAK g)) s.groves[g].demand))
    match s.burstOf g with
    | none => s
    | some b =>
      let total := ((grovesIn b.ops.groves).map fun k => s.groves[k].demand).sum
      if b.ops.demand < total then (grovesIn b.ops.groves).foldl (fun (s : State) (k : Fin 32) => s.wr (F.FAB_DEMAND_MEAS_OVER k) 1) s else s

/-- The calibrated delay of a path of a channel (R177, steps 3 to 5). -/
def State.deskew (s : State) (c : Fin 128) : Path → Int
  | .drv => s.rd (F.TMG_DESKEW_DRV_DELAY c)
  | .den => s.rd (F.TMG_DESKEW_DEN_DELAY c)
  | .cmh => s.rd (F.TMG_DESKEW_CMH_DELAY c)
  | .cml => s.rd (F.TMG_DESKEW_CML_DELAY c)

/-- LSB by which a path's launch leads the time at the reference plane (R163, R164): its delay to the ball, and under PLANE 1 the
drive path from the ball to the DUT pin, or less the compare path from the pin to the balls. [log 163: DEDUCED] -/
def State.pathLead (s : State) (g : Fin 32) (c : Fin 128) (p : Path) : Int :=
  let rt : Int := s.rd (F.TMG_PE_RT_RT c)
  let split := s.rdS (F.TMG_PE_SPLIT_SPLIT c)
  let beyond : Int := if s.on (F.TMG_GCFG_PLANE g) = false then 0 else match p with
    | .drv | .den => (rt + split) / 2
    | .cmh | .cml => -((rt - split) / 2)
  s.deskew c p + beyond

/-- The interpolator's correction at a fine code in 1/256 LSB (R158, R177, step 2): at codes 16p as calibrated, between them
interpolated linearly, zero while a word's parity is wrong (R180). [log 163: DEDUCED] -/
def State.fineCorr (s : State) (c : Fin 128) (fine : Nat) : Int :=
  if s.chans[c].linOk = false then 0
  else
    let p := fine / 16
    let a := s.rdS (F.TMG_LIN_CORR c p)
    if p = 63 then (if fine % 16 = 0 then 16 * a else Config.fineBeyond a fine)
    else 16 * a + (s.rdS (F.TMG_LIN_CORR c (p + 1)) - a) * ((fine % 16 : Nat) : Int)

/-- The launch of a fired event (R158, R163, R175, R176): ahead of its placed time by its path's delay, and appearing at the
reference plane TMG_MOD_DELAY after it. -/
def State.launch (s : State) (g : Fin 32) (c : Fin 128) (e : Path × Nat × Int) : Launch :=
  let t := e.2.2 + s.rdS F.TMG_MOD_DELAY_DELAY - s.pathLead g c e.1 - s.refComp
  let fine := (t % 1024).toNat
  ⟨e.1, e.2.1, e.2.2, t / 1024, fine, s.fineCorr c fine⟩

/-- One grove's cycle with a line: its channels' events, and the results they give. [log 23: DEDUCED] -/
def State.lineCycle (s : State) (g lead : Fin 32) (l : Line) (period : Nat) (cut : Bool) (levels : List ChanLevels) (hit : ParityHit) :
    State × List ChanRes :=
  let start := s.groves[g].start
  let mux := s.mux g
  let one := fun (a : State × List ChanRes × List Viol) (x : Fin 128 × Nat) =>
    let (s, res, v) := a
    let c := x.1
    if silences hit c then (s, res ++ [suppressed mux c], v)
    else
      let f : Frame := ⟨start, period, l.ts, c, cut⟩
      let lv := levelsOf levels c
      let q := if mux then s.placeMux c f l.cen x.2 lv else s.placeWave c f l.cen x.2 lv
      let launched := q.1.fired.map (s.launch g c)
      (s.modChan c fun _ => { q.1.c with launched := launched }, res ++ [q.2], v ++ q.1.v)
  let chans := s.chansOf g
  let (s, res, v) := ((chans.zip l.syms).foldl one (s, [], []))
  let s := s.noteViols g v
  let capt := s.groves[g].vcap && res.any (·.capt)
  let bits := chans.length + (if l.fresh ∧ g = lead then chans.length * s.widthBits g else 0)
    + (if capt then 4 * chans.length * (if mux then 2 else 1) else 0)
  (s.measureCycle g 0 bits 0, res)

/-- The outputs and events that a line raises at the start of its cycle, an instant in fine units (R73, R112, R207, R209, R257). -/
def State.lineEvents (s : State) (t : Fin 32) (l : Line) (groves : List (Fin 32)) (idx start : Nat) : State :=
  let s := s.pulses start fun s n =>
    (l.segs && s.toutOf n 1 t && (!s.on (F.SEQ_TOUT_SEL_FILT n) || s.rd (F.SEQ_TOUT_SEG_SEG n) == l.seg)) ||
      (s.toutOf n 2 t && bitOf l.mark (s.rd (F.SEQ_TOUT_SEL_SEL n)))
  let s := (allFin 4).foldl (fun s (e : Fin 4) =>
    let hit := (s.qsrc e == 2 && bitOf l.mark (s.rd (F.TRG_QUAL_QSEL e))) || (s.qsrc e == 3 && l.segs)
    if hit && groves.contains (s.trgGrove e) && s.acq.trg[e].kind != 0 then s.qualEvent e start else s) s
  if l.marks.isEmpty then s else (groves.flatMap s.dscsOf).foldl (fun s d => s.dscPulse d l.marks) s

/-- Members whose pattern still runs when `started` lines have begun (R105). -/
def Thread.liveAt (k : Thread) (started : Nat) : Nat :=
  k.detaching.foldl (fun m d => if d.2 ≤ started then without m d.1 else m) k.members

/-- CYCLE_START (R159): the oldest committed cycle begins at the pins of every grove its thread serves. -/
def execCycleStart (t : Fin 32) (levels : List ChanLevels) (hit : ParityHit) (s : State) : Host.Outcome State Fault Refusal :=
  let k := s.threads[t]
  match k.pipe with
  | [] => .next s
  | c :: rest =>
    if s.threadAt t [.running] = false then .next s
    else
      let begun := k.lines - (k.pipe.filter fun c => c.line.isSome).length
      let groves := grovesIn (k.liveAt begun)
      let lead := s.lead t
      let unref := s.unref
      let s := s.parityError hit false (some lead)
      let now := s.now
      let lastOne := match rest with
        | n :: _ => n.line.isNone
        | [] => k.closed
      let run := fun (a : State × List ChanRes) (g : Fin 32) =>
        let (s, res) := a
        let old := s.groves[g].period
        let period := match c.line, hit with
          | none, _ => old
          | some _, .timing 1 _ _ => old
          | some l, _ => s.periodOf lead l.ts
        let (s, r) := match c.line with
          | some l =>
            let ends := lastOne || k.detaching.any fun d => decide (d.2 = begun + 1) && bitOf d.1 g.1
            s.lineCycle g lead l period ends levels hit
          | none =>
            let s := if s.hiz g then s.denOff g else s
            (s.dscVoid g, [])
        let s := s.measureCycle g c.idx 0 period
        let mark := (c.line.map (·.mark)).getD 0
        let segs := (c.line.map (·.segs)).getD false
        (s.modGrove g fun x =>
          let l := noteMark (x.origin + x.start) mark segs x.marks
          { x with start := x.start + period, period := period
                   marks := if lastOne then noteMark (x.origin + x.start + period) 0 false l else l }, res ++ r)
      let at_ := s.groves[lead].start
      let begins := s.cycleAt lead
      let (s, res) := groves.foldl run (s, [])
      let ends := now + s.groves[lead].period / 4096
      let s := s.modThread t fun k => { k with pipe := rest, started := k.started ++ [⟨{ c with start := at_ }, res, unref, ends⟩] }
      .next (match c.line with
        | some l => s.lineEvents t l groves c.idx begins
        | none => s)

/-! ## Boundaries (R16, R117) -/

/-- The groves of a thread end at the boundary a stop or an abort has set, once its last cycle has run. -/
def State.cutEffect (s : State) (t : Fin 32) (abort : Bool) : State :=
  let k := s.threads[t]
  match k.bound with
  | some (b, a) =>
    if a = abort ∧ b ≤ k.cycles ∧ k.drained ∧ s.threadAt t [.running] then
      ((s.postVoid t).hitWaiters t).endMembers t k.members (if abort then .aborted else .stopped)
    else s
  | none => s

/-- ABORT_EFFECT (R16). -/
def execAbortEffect (t : Fin 32) (s : State) : Host.Outcome State Fault Refusal := .next (s.cutEffect t true)

/-- STOP_EFFECT (R117). -/
def execStopEffect (t : Fin 32) (s : State) : Host.Outcome State Fault Refusal := .next (s.cutEffect t false)

end Sys2Proof.Machine
end

