-- ==== Sys2Proof/Machine/Capture.lean ====
section
/-! DEFINITION. Results, counters, fail capture and snapshots (R181 to R202), and what the results feed: the decisions of the
sequencer (R101, R103), the trigger engines of KIND 0 (R204), and the linked members (R336). -/

namespace Sys2Proof.Machine

/-! ## Masked results (R181, R182) -/

/-- Whether a channel is masked (R181). -/
def State.masked (s : State) (ch : Nat) : Bool := bitOf (s.rd (F.CAP_CHMASK_MASK (ch / 32))) (ch % 32)

/-- A grove's results of a cycle after its masks, with the grove channel index of each. -/
def State.maskedRes (s : State) (g : Fin 32) (l : List ChanRes) : List (Nat × ChanRes) :=
  ((s.chansOf g).zipIdx.filterMap fun (c : Fin 128 × Nat) =>
    (l.find? fun r => r.ch == c.1.1).map fun r =>
      (c.2, if s.masked r.ch then { r with judged := false, failed := false, drop := false } else r))

/-- The mask of grove channel indices whose results satisfy a test. -/
def idxMask (l : List (Nat × ChanRes)) (p : ChanRes → Bool) : Nat := maskOf ((l.filter fun x => p x.2).map (·.1))

/-! ## Counters (R184) -/

/-- Marks that a counter of a grove has saturated. -/
def State.noteSat (s : State) (g : Fin 32) : State := (s.wr (F.CAP_G_STAT_SAT g) 1).event Ev.cap 3

/-- Adds to a 48-bit counter of a grove. -/
def State.count48 (s : State) (g : Fin 32) (lo : Fld) (n : Nat) : State :=
  let v := min (s.rdP lo + n) (2 ^ 48 - 1)
  let s' := s.wrP lo v
  if n ≠ 0 ∧ v = 2 ^ 48 - 1 then s'.noteSat g else s'

/-- Counts one cycle's results. -/
def State.countCycle (s : State) (g : Fin 32) (l : List (Nat × ChanRes)) : State :=
  let fails := (l.filter fun x => x.2.failed).map fun x => x.2.ch
  let s := s.count48 g (F.CAP_G_JUDGED_LO_COUNT g) (b2n (l.any fun x => x.2.judged))
  let s := s.count48 g (F.CAP_G_FAILCYC_LO_COUNT g) (b2n (!fails.isEmpty))
  let s := s.count48 g (F.CAP_G_FAILS_LO_COUNT g) fails.length
  fails.foldl (fun s ch =>
    let s := s.incSat (F.CAP_CH_FAIL_COUNT ch)
    if s.rd (F.CAP_CH_FAIL_COUNT ch) = 2 ^ 32 - 1 then s.noteSat g else s) s

/-! ## First fail (R187, R189) -/

/-- Where a cycle with a line lies in the pattern. -/
structure Loc where
  cyc   : Nat
  ts    : Nat
  seg   : Nat
  gen   : Nat
  line  : Nat
  unref : Bool
  deriving DecidableEq, Repr

/-- Records the first failing cycle of the burst. -/
def State.firstFail (s : State) (g : Fin 32) (at_ : Loc) (l : List (Nat × ChanRes)) : State :=
  if s.on (F.CAP_FF_LOC_VALID g) then s
  else match l.find? fun x => x.2.failed with
    | none => s
    | some (_, r) =>
      (s.wrP (F.CAP_FF_CYC_LO_CYCLE g) at_.cyc).wrs [(F.CAP_FF_LOC_CH g, r.ch), (F.CAP_FF_LOC_VALID g, 1), (F.CAP_FF_LOC_EVENT g, r.event),
        (F.CAP_FF_LOC_TS g, at_.ts), (F.CAP_FF_SEG_SEG g, at_.seg), (F.CAP_FF_SEG_GEN g, at_.gen), (F.CAP_FF_LINE_LINE g, at_.line)]

/-- Whether a write into a grove's latest capture buffer is lost (R194). -/
def State.capLost (s : State) (g : Fin 32) : Bool := (s.groves[g].bufs.head?).any s.writeLost

/-- Writes into a grove's latest capture buffer, unless the write is lost. -/
def State.capWrite (s : State) (g : Fin 32) (off : Nat) (l : List Byte) : State :=
  match s.groves[g].bufs with
  | p :: _ => if s.writeLost p then s else s.writePlace p off l
  | [] => s

/-- The FLAGS of a header whose capture still runs, rewritten at the first loss (R189, R194). -/
def State.flagLoss (s : State) (g : Fin 32) (first : Bool) : State :=
  if first then s.capWrite g 6 (bytesLE 1 (s.capFlags g false)) else s

/-- A record of the fail area is lost, discarded or overwritten (R194). -/
def State.loseFail (s : State) (g : Fin 32) : State :=
  let first := s.groves[g].lost == 0
  let s := (s.modGrove g fun k => { k with lost := k.lost + 1 }).incSat (F.CAP_G_LOST_FAIL g)
  ((s.wr (F.CAP_G_STAT_FAIL_FULL g) 1).event Ev.cap 2).flagLoss g first

/-- Writes the first-fail table's entries of the channels that fail for the first time. [log 166: DEDUCED] -/
def State.fillTable (s : State) (g : Fin 32) (at_ : Loc) (l : List (Nat × ChanRes)) : State :=
  let new := l.filter fun x => x.2.failed && s.rd (F.CAP_CH_FAIL_COUNT x.2.ch) == 1
  if (s.capLayout g).table && !new.isEmpty && s.capLost g then s.loseFail g
  else if (s.capLayout g).table then
    (l.filter fun x => x.2.failed && s.rd (F.CAP_CH_FAIL_COUNT x.2.ch) == 1).foldl (fun s x =>
      s.capWrite g (64 + 16 * x.1) (bytesLE 6 at_.cyc ++ bytesLE 1 at_.ts ++ bytesLE 1 x.2.event ++ bytesLE 2 at_.seg ++ bytesLE 1 at_.gen ++
        bytesLE 1 0 ++ bytesLE 4 at_.line)) s
  else s

/-! ## The fail area (R191 to R194) -/

/-- Adds a record to the fail area, by FAIL_WRAP where there is no room; a write that cannot be made in time loses it (R194).
[log 30: DEDUCED] -/
def State.addFail (s : State) (g : Fin 32) (l : List Byte) : State :=
  let lay := s.capLayout g
  let k := s.groves[g]
  let cap := lay.failBytes / max 1 l.length
  if s.capLost g then s.loseFail g
  else if k.recs < cap then
    (s.capWrite g (lay.failOff + (k.failHead + k.recs * l.length) % (cap * l.length)) l).modGrove g fun k => { k with recs := k.recs + 1 }
  else if s.on (F.CAP_CFG_FAIL_WRAP g) then
    let s := s.capWrite g (lay.failOff + k.failHead) l
    (s.modGrove g fun k => { k with failHead := (k.failHead + l.length) % (cap * l.length) }).loseFail g
  else s.loseFail g

/-- The ALL record of a failing cycle (R191). -/
def allRecord (mux : Bool) (at_ : Loc) (l : List (Nat × ChanRes)) : List Byte :=
  let flags := b2n at_.unref + 2 * b2n (l.any fun x => x.2.failed && x.2.drop)
  let head := bytesLE 6 at_.cyc ++ bytesLE 1 at_.ts ++ bytesLE 1 flags ++ bytesLE 2 at_.seg ++ bytesLE 1 at_.gen ++ bytesLE 1 0 ++ bytesLE 4 at_.line
  if mux then head ++ (List.range 4).flatMap fun u => bytesLE 16 (idxMask l fun r => r.failed && bitOf r.ui u)
  else head ++ bytesLE 16 (idxMask l (·.failed))

/-- The SEGMENT record of a visit (R192). -/
def visitRecord (v : Visit) (ended : Bool) : List Byte :=
  bytesLE 2 v.seg ++ bytesLE 1 v.gen ++ bytesLE 1 (b2n v.resumed + 2 * b2n ended + 4 * b2n v.unref) ++ bytesLE 4 (min v.fails (2 ^ 32 - 1)) ++
  bytesLE 8 v.start ++ bytesLE 8 (v.first.getD (2 ^ 64 - 1)) ++ bytesLE 4 (min v.lines (2 ^ 32 - 1)) ++ bytesLE 4 0 ++ bytesLE 16 v.mask

/-- Ends the open visit of a grove. -/
def State.endVisit (s : State) (g : Fin 32) (ended : Bool) : State :=
  match s.groves[g].visit with
  | none => s
  | some v =>
    let s := s.modGrove g fun k => { k with visit := none }
    if s.on (F.CAP_CFG_SEG_FAILONLY g) ∧ v.fails = 0 then s else s.addFail g (visitRecord v ended)

/-- The MAP record of a run (R193). -/
def mapRecord (m : MapRun) : List Byte :=
  bytesLE 6 m.firstBin ++ bytesLE 2 m.run ++ bytesLE 4 (min m.fails (2 ^ 32 - 1)) ++ bytesLE 4 0 ++ bytesLE 16 m.mask

/-- Joins the finished bin to its run, or writes the run and starts another. -/
def State.endBin (s : State) (g : Fin 32) (m : MapRun) : State × MapRun :=
  if 0 < m.run ∧ m.firstBin + m.run = m.bin ∧ m.mask = m.binMask ∧ m.run < 65535 then
    (s, { m with run := m.run + 1, fails := m.fails + m.binFails })
  else
    let s := if m.run = 0 then s else s.addFail g (mapRecord m)
    (s, { m with firstBin := m.bin, run := 1, mask := m.binMask, fails := m.binFails })

/-- A failing cycle in MAP mode. -/
def State.mapCycle (s : State) (g : Fin 32) (cyc mask : Nat) : State :=
  let bin := cyc / 2 ^ (min 20 (s.rd (F.CAP_CFG_BIN_SHIFT g)))
  match s.groves[g].mapRun with
  | none => s.modGrove g fun k => { k with mapRun := some ⟨0, 0, 0, 0, bin, mask, 1⟩ }
  | some m =>
    if m.bin = bin then s.modGrove g fun k => { k with mapRun := some { m with binMask := m.binMask ||| mask, binFails := m.binFails + 1 } }
    else
      let (s, m) := s.endBin g m
      s.modGrove g fun k => { k with mapRun := some { m with bin := bin, binMask := mask, binFails := 1 } }

/-- Writes the open run of a grove (R195). -/
def State.endMap (s : State) (g : Fin 32) : State :=
  match s.groves[g].mapRun with
  | none => s
  | some m =>
    let (s, m) := s.endBin g m
    (s.addFail g (mapRecord m)).modGrove g fun k => { k with mapRun := none }

/-! ## Value capture (R196, R197) -/

/-- The value line of a captured cycle. -/
def valueLine (mux : Bool) (l : List (Nat × ChanRes)) : List Byte :=
  let n := l.length
  if mux then bytesLE n (l.foldr (fun x a => x.2.val % 256 + 256 * a) 0)
  else bytesLE ((n + 1) / 2) (l.foldr (fun x a => x.2.val % 16 + 16 * a) 0)

/-- A value granule is lost. -/
def State.loseVal (s : State) (g : Fin 32) : State :=
  let first := s.groves[g].vLost == 0
  let s := (s.modGrove g fun k => { k with vLost := k.vLost + 1 }).incSat (F.CAP_G_LOST_VCAP g)
  ((s.wr (F.CAP_G_STAT_VCAP_FULL g) 1).event Ev.cap 2).flagLoss g first

/-- Whether a granule held overlaps a place of the value area. -/
def overlaps (off n : Nat) (h : Nat × Nat) : Bool := decide (h.1 < off + n) && decide (off < h.1 + h.2)

/-- The entries after the last one, oldest first, that satisfies a test. -/
def afterLast {α : Type} (p : α → Bool) (l : List α) : List α := (l.reverse.takeWhile fun x => !p x).reverse

/-- Writes the open value granule of a grove into its value area, by VCAP_WRAP where there is no room: the oldest go first, those
left at the end of the area by the lap before among them. [log 30: DEDUCED] -/
def State.endGran (s : State) (g : Fin 32) : State :=
  match s.groves[g].valGran with
  | none => s
  | some v =>
    let lay := s.capLayout g
    let body := v.lines.flatten
    let pad := List.replicate ((16 - body.length % 16) % 16) (0 : Byte)
    let rec_ := bytesLE 6 v.cycle ++ bytesLE 1 v.lines.length ++ bytesLE 1 (b2n v.unref) ++ bytesLE 8 v.inval ++ body ++ pad
    let n := rec_.length
    let k := s.groves[g]
    let s := s.modGrove g fun k => { k with valGran := none }
    let next := match k.vHeld.getLast? with
      | some h => h.1 + h.2
      | none => 0
    let wrap := s.on (F.CAP_CFG_VCAP_WRAP g)
    let at_ := if next + n ≤ lay.valBytes then next else 0
    if s.capLost g ∨ lay.valBytes < n ∨ (wrap = false ∧ lay.valBytes < next + n) then s.loseVal g
    else
      let kept := afterLast (fun h => overlaps at_ n h || (decide (at_ < next) && decide (next ≤ h.1))) k.vHeld
      let gone := k.vHeld.length - kept.length
      let held := kept ++ [(at_, n)]
      let s := s.modGrove g fun k => { k with vHeld := held, vGrans := held.length, vHead := (held.head?.map (·.1)).getD 0 }
      let s := (List.range gone).foldl (fun s _ => s.loseVal g) s
      s.capWrite g (lay.valOff + at_) rec_

/-- A cycle that is not match-only and not void, for value capture. -/
def State.valueCycle (s : State) (g : Fin 32) (cyc : Nat) (unref : Bool) (l : List (Nat × ChanRes)) : State :=
  if s.groves[g].vcap = false ∨ (l.any fun x => x.2.capt) = false then s
  else
    let line := valueLine (s.mux g) l
    let inv := l.any fun x => x.2.inval
    let s := match s.groves[g].valGran with
      | some v => if v.lines.length = 64 ∨ cyc ≠ v.cycle + v.lines.length then s.endGran g else s
      | none => s
    s.modGrove g fun k =>
      let v := k.valGran.getD { cycle := cyc, lines := [], inval := 0, unref := false }
      { k with valGran := some { v with lines := v.lines ++ [line], inval := if inv then v.inval ||| 2 ^ v.lines.length else v.inval
                                        unref := v.unref || unref } }

/-! ## One cycle (R183) -/

/-- Opens the visit of a cycle with SEGS, or the first one after a RET (R192), and counts the cycle in it. -/
def State.visitCycle (s : State) (g : Fin 32) (cyc : Nat) (line : Option Line) (unref : Bool) (mask : Nat) : State :=
  if s.groves[g].capMode ≠ 3 then s
  else
    let s := match line with
      | some l =>
        if l.segs || l.resumed then
          (s.endVisit g false).modGrove g fun k =>
            { k with visit := some { seg := l.seg, gen := l.gen, resumed := l.resumed && !l.segs, unref := false, fails := 0, start := cyc
                                     first := none, lines := 0, mask := 0 } }
        else s
      | none => s
    s.modGrove g fun k =>
      { k with visit := k.visit.map fun v =>
          { v with unref := v.unref || unref, lines := v.lines + b2n line.isSome, fails := v.fails + b2n (mask != 0)
                   first := if mask ≠ 0 ∧ v.first = none then some cyc else v.first, mask := v.mask ||| mask } }

/-- What a cycle shows the engines of KIND 0 (R204): one sample of the masked results, or of a match-only cycle its qualifier
event alone. -/
def State.feedEngines (s : State) (g : Fin 32) (c : Started) (l : List (Nat × ChanRes)) (only : Bool := false) : State :=
  let fail := maskOf ((l.filter fun x => x.2.failed).map fun x => x.2.ch)
  let judged := maskOf ((l.filter fun x => x.2.judged).map fun x => x.2.ch)
  let f : TrgFeed :=
    { samp := { time := (4 * (s.groves[g].origin + c.cyc.start)).toNat, value := fail, lost := false, unref := c.unref
                drop := l.any fun x => x.2.failed && x.2.drop, void := c.cyc.line.isNone, cycle := c.cyc.idx }
      judged := judged, only := only, mark := (c.cyc.line.map (·.mark)).getD 0, segs := (c.cyc.line.map (·.segs)).getD false }
  (allFin 4).foldl (fun s (e : Fin 4) =>
    if s.acq.trg[e].kind = 0 ∧ 1 ≤ s.trgState e ∧ s.trgGrove e = g then s.modTrg e fun k => { k with feed := k.feed ++ [f] } else s) s

/-- The own results of a line that a linked grove's other members are told (R336). -/
def State.tellPeers (s : State) (g : Fin 32) (failed judged : Bool) : State :=
  let add := fun p : Peer => if s.rd (F.STR_LINK_GROVE p.link) = g.1 then { p with res := p.res ++ [(failed, judged)] } else p
  if s.linked g then { s with links := { s.links with peers := s.links.peers.map add } } else s

/-- The results of a match-only cycle go to the passes that hold its line (R103). -/
def passCycle (g line : Nat) (judged failed : Bool) (k : Thread) : Thread :=
  let in_ := fun p : PassRec => decide (p.first ≤ line) && (match p.last with
    | some l => decide (line ≤ l)
    | none => true)
  let add := fun p : PassRec =>
    if in_ p then { p with judged := if judged then p.judged ||| 2 ^ g else p.judged, failed := if failed then p.failed ||| 2 ^ g else p.failed } else p
  { k with passes := k.passes.map add }

/-- The fail area's record of a cycle, by mode. -/
def State.failRecord (s : State) (g : Fin 32) (at_ : Loc) (l : List (Nat × ChanRes)) (mask : Nat) : State :=
  if mask = 0 then s
  else match s.groves[g].capMode with
    | 2 => s.addFail g (allRecord (s.mux g) at_ l)
    | 4 => s.mapCycle g at_.cyc mask
    | _ => s

/-- The first and last of a range of cycles, extended by one. -/
def extend (cyc : Nat) (first : Option Nat) : Option Nat := some (first.getD cyc)

/-- One grove takes in the results of a cycle. -/
def State.groveCycle (s : State) (t : Fin 32) (c : Started) (g : Fin 32) : State :=
  let cyc := c.cyc.idx
  let s := s.modGrove g fun k => { k with lastAny := some cyc }
  let s := if c.unref then s.modGrove g fun k => { k with unrefFirst := extend cyc k.unrefFirst, unrefLast := some cyc } else s
  match c.cyc.line with
  | none =>
    let s := s.modGrove g fun k => { k with voidFirst := extend cyc k.voidFirst, voidLast := some cyc }
    let s := s.wrP (F.FAB_VOID_CNT_LO_COUNT g) (s.rdP (F.FAB_VOID_CNT_LO_COUNT g) + 1)
    (s.visitCycle g cyc none c.unref 0).feedEngines g c []
  | some l =>
    let res := s.maskedRes g c.res
    let failed := res.any fun x => x.2.failed
    let judged := res.any fun x => x.2.judged
    let s := (s.modGrove g fun k => { k with lastCycle := some cyc, lines := k.lines + 1, stamp := c.ends }).tellPeers g failed judged
    if l.pass then
      ((s.modThread t (passCycle g l.line judged failed)).visitCycle g cyc (some l) c.unref 0).feedEngines g c [] (only := true)
    else
      let at_ : Loc := ⟨cyc, l.ts, l.seg, l.gen, l.pline, c.unref⟩
      let mask := idxMask res (·.failed)
      let s := ((s.countCycle g res).firstFail g at_ res).fillTable g at_ res
      let s := if failed then s.modGrove g fun k => { k with failLines := k.failLines ++ [l.line] } else s
      let s := (s.visitCycle g cyc (some l) c.unref mask).failRecord g at_ res mask
      (s.valueCycle g cyc c.unref res).feedEngines g c res

/-- The pending requests whose point a grove's cycle completes (R199). -/
def State.snapCycle (s : State) (g : Fin 32) (cyc : Nat) : State :=
  let due := s.snaps.filter fun p => !p.time && p.grove == g.1 && decide (p.point ≤ cyc)
  let s := due.foldl (fun s p => ((s.copyShadow g p.id false snapValid cyc).snapTell g p.id snapValid).snapDone p snapValid) s
  let wait := s.snaps.filter fun p => (p.wait.getD []).any fun w => decide (w.1 = g.1) && decide (w.2 ≤ cyc)
  wait.foldl (fun s p => s.snapGrove p g cyc) s

/-- CYCLE_RESULT (R183): the oldest started cycle's results, combined over the grove, reach every consumer; the slots they held
in the result FIFOs are free for further pushes (R22). -/
def execCycleResult (t : Fin 32) (s : State) : Host.Outcome State Fault Refusal :=
  let k := s.threads[t]
  match k.started with
  | [] => .next s
  | c :: rest =>
    let groves := grovesIn (k.liveAt k.resTo)
    let s := groves.foldl (fun s g => s.groveCycle t c g) s
    let s := s.modThread t fun k => { k with started := rest, resTo := k.resTo + b2n c.cyc.line.isSome }
    let s := groves.foldl (fun s g => s.snapCycle g c.cyc.idx) s
    .next ((s.pushLines t).checkEnd t)

/-! ## Draining (R195) -/

/-- A member's fail data (R340), written at its own position of its link entry at its drain. -/
def State.putPeer (s : State) (l p : Nat) (failcyc fails ff ch : Nat) (failed sat : Bool) (tag epoch : Nat) : State :=
  let s := ((s.wrP (F.MFL_PEER_FAILCYC_LO_COUNT l p) failcyc).wrP (F.MFL_PEER_FAILS_LO_COUNT l p) fails).wrP (F.MFL_PEER_FF_LO_CYCLE l p) ff
  s.wrs [(F.MFL_PEER_FF_LOC_CH l p, ch), (F.MFL_PEER_FF_LOC_FAILED l p, b2n failed), (F.MFL_PEER_FF_LOC_SAT l p, b2n sat),
    (F.MFL_PEER_STAT_VALID l p, 1), (F.MFL_PEER_STAT_TAG l p, tag), (F.MFL_PEER_STAT_EPOCH l p, epoch)]

/-- Bytes of a PEER frame (R340). -/
def State.peerFrame (s : State) (g : Fin 32) (l : Fin 8) (tag epoch : Nat) : List Byte :=
  bytesLE 4 (s.rd (F.STR_LINK_ID_LINK_ID l)) ++ bytesLE 1 (s.rd (F.STR_LINK_POSITION l)) ++
  bytesLE 1 (s.rd (F.CAP_FF_LOC_VALID g) + 2 * s.rd (F.CAP_G_STAT_SAT g)) ++ bytesLE 2 (idBits tag epoch) ++
  bytesLE 6 (s.rdP (F.CAP_G_FAILCYC_LO_COUNT g)) ++ bytesLE 6 (s.rdP (F.CAP_G_FAILS_LO_COUNT g)) ++
  bytesLE 6 (s.rdP (F.CAP_FF_CYC_LO_CYCLE g)) ++ bytesLE 1 (s.rd (F.CAP_FF_LOC_CH g)) ++ bytesLE 17 0

/-- A bulk frame joins the queue of its link (R338). -/
def State.queueBulk (s : State) (n : Fin 8) (cls : Nat) (data : List Byte) : State :=
  s.modLane (s.linkLane n) fun k => { k with txq := k.txq ++ [⟨cls, 0, data⟩] }

/-- The fail data of a linked grove goes to every other member and into the own place (R340). -/
def State.sendPeers (s : State) (g : Fin 32) : State :=
  match s.linked g, s.linkOf g, s.groves[g].burst with
  | true, some l, some (tag, ep) =>
    let frame := s.peerFrame g l tag ep
    let links := ((s.lanesOf l).map s.linkLane).dedup
    let s := links.foldl (fun s n => s.queueBulk n 2 frame) s
    s.putPeer l (s.rd (F.STR_LINK_POSITION l)) (s.rdP (F.CAP_G_FAILCYC_LO_COUNT g)) (s.rdP (F.CAP_G_FAILS_LO_COUNT g))
      (s.rdP (F.CAP_FF_CYC_LO_CYCLE g)) (s.rd (F.CAP_FF_LOC_CH g)) (s.on (F.CAP_FF_LOC_VALID g)) (s.on (F.CAP_G_STAT_SAT g)) tag ep
  | _, _, _ => s

/-- CAPTURE_DRAIN (R195): the capture writer of a grove that has ended writes its open records and completes the header. The
Firebreak freezes capture instead. -/
def execCaptureDrain (g : Fin 32) (s : State) : Host.Outcome State Fault Refusal :=
  let k := s.groves[g]
  if k.capOpen = false ∨ k.ended.isNone ∨ k.ended = some .firebreak ∨ s.flt.frozen then .next s
  else
    let s := ((s.endVisit g true).endMap g).endGran g
    let start := ((s.burstOf g).bind (·.startTime)).getD 0
    let s := s.capWrite g 0 (s.capHeader g true start)
    let s := s.modGrove g fun k => { k with drained := true, capOpen := false }
    let s := (s.wr (F.CAP_G_STAT_DRAINED g) 1).event Ev.cap 1
    let k := s.groves[g]
    .next ((s.occurrence 3 g (k.recs % 2 ^ 32 + 2 ^ 32 * min k.lost 65535 + 2 ^ 48 * s.capFlags g true)).sendPeers g)

/-! ## Snapshot requests (R199 to R202) -/

/-- The SNAPSHOT token (R335). -/
def snapToken (lslot : Nat) (time fwd : Bool) (id point : Nat) : Nat :=
  4 + 2 ^ 4 * lslot + 2 ^ 8 * b2n time + 2 ^ 9 * b2n fwd + 2 ^ 16 * (id % 2 ^ 16) + 2 ^ 64 * (point % 2 ^ 64)

/-- Sends the token of a LINKED request (R345). -/
def State.sendSnap (s : State) (time : Bool) (grove : Fin 32) (id point : Nat) (except : Option (Fin 8)) : State :=
  if time then
    let lanes := (allFin 8).filter fun n => bitOf (s.rd F.MFL_SNAP_FWD_LANES) n.1 && except != some n
    lanes.foldl (fun s n => s.queueToken n (snapToken 0 true true id point) 3)
      { s with links := { s.links with fwdIds := id :: s.links.fwdIds } }
  else match s.linked grove, s.linkOf grove with
    | true, some l => (s.lanesOf l).foldl (fun s n => s.queueToken n (snapToken (s.lslot l) false false id point) 3) s
    | _, _ => s

/-- The groves whose shadows a request writes. -/
def snapGroves (time : Bool) (grove : Fin 32) : List (Fin 32) := if time then allFin 32 else [grove]

/-- The refusal of R201 that a request meets first, or 0. -/
def State.snapRefusal (s : State) (time : Bool) (grove : Fin 32) (id : Nat) : Nat :=
  if 4 ≤ s.snaps.length then 1
  else if s.snaps.any fun p => decide (p.id = id) then 2
  else if time then 0
  else if s.groveIdle grove then 3
  else if s.bound grove = false then 4 else 0

/-- The cycles a grove has committed in its present burst: none while the burst is Declared (R201). -/
def State.committed (s : State) (g : Fin 32) : Nat :=
  if s.bursts.any fun b => b.stage != .declared && bitOf b.ops.groves g.1 then s.threads[s.threadOf g].cycles else 0

/-- Whether a request's point has passed (R200, R201). [log 29: DESIGN CHOICE] -/
def State.snapLate (s : State) (time : Bool) (grove : Fin 32) (point : Nat) : Bool :=
  if time then s.reached point else decide (point + 2 ≤ s.committed grove)

/-- Shows the state of a set for a grove. [log 29: DESIGN CHOICE] -/
def State.snapShow (s : State) (g : Fin 32) (id : Nat) (time : Bool) (st : Nat) : State :=
  s.wrs [(F.CAP_SH_ID_ID (id % 2) g, id), (F.CAP_SH_ID_STATE (id % 2) g, st), (F.CAP_SH_ID_KIND (id % 2) g, b2n time)]

/-- A snapshot request (R199 to R202): refused, missed, or pending; a TIME token is forwarded in any case (R345). `cmd` is the host command that made it.
[log 29: DESIGN CHOICE] -/
def State.snapRequest (s : State) (time linked : Bool) (grove : Fin 32) (id point : Nat) (cmd : Option Hdr) (from_ : Option (Fin 8)) :
    State :=
  let answer := fun (s : State) (st res : Nat) => match cmd with
    | some h => s.complete h st 0 res
    | none => s
  let code := s.snapRefusal time grove id
  let s := if code ≠ 0 ∧ time ∧ linked ∧ from_.isSome then s.sendSnap time grove id point from_ else s
  if code ≠ 0 then answer ((s.wr F.CAP_SNAP_STAT_REFUSED code).event Ev.cap 6) code 0
  else
    let s := s.wr F.CAP_SNAP_STAT_LAST_ID id
    let s := if linked then s.sendSnap time grove id point from_ else s
    if s.snapLate time grove point then
      let s := (snapGroves time grove).foldl (fun s g => (s.snapShow g id time snapMissed).snapTell g id snapMissed) s
      answer (s.event Ev.cap 5) stOk snapMissed
    else
      let s := (snapGroves time grove).foldl (fun s g => s.snapShow g id time snapPending) s
      let p : Snap := { time := time, linked := linked, grove := grove, id := id, point := point, cmd := cmd, wait := none }
      let s : State := { s with snaps := s.snaps ++ [p] }.wr F.CAP_SNAP_STAT_PENDING (s.snaps.length + 1)
      if time = false ∧ s.groves[grove].ended.isSome ∧ s.committed grove ≠ 0 then s.snapEnd grove else s

/-- SNAPSHOT (R199, R321). -/
def execSnapshot (h : Hdr) (time linked : Bool) (grove id point : Nat) (s : State) : Host.Outcome State Fault Refusal :=
  .next (s.begin_ h 0x20 fun s =>
    if 32 ≤ grove ∨ 2 ^ 16 ≤ id then s.complete h stBadOperand
    else s.snapRequest time linked (fin 32 grove) id point (some h) none)

/-- A write of CAP_SNAP_CMD: its fields, and with GO the request. -/
def State.snapCmd (s : State) (w : Nat) : State :=
  let s := s.wrs [(F.CAP_SNAP_CMD_KIND, fieldOf w 1 1), (F.CAP_SNAP_CMD_LINKED, fieldOf w 2 1), (F.CAP_SNAP_CMD_GROVE, fieldOf w 8 5),
    (F.CAP_SNAP_CMD_ID, fieldOf w 16 16)]
  if bitOf w 0 then
    s.snapRequest (bitOf w 1) (bitOf w 2) (fin 32 (fieldOf w 8 5)) (fieldOf w 16 16) (s.rdP F.CAP_SNAP_POINT_LO_POINT) none none
  else s

/-- CAP_SNAP_CMD (R202). -/
def execCapSnapCmd (req : Req) (w : Word) (s : State) : Host.Outcome State Fault Refusal :=
  .next (s.regWrite req F.CAP_SNAP_CMD_KIND.addr w fun s => s.snapCmd w.toNat)

/-- The last cycle of a grove that began before a shared-time point at the reference plane and whose results are still to come
(R199). -/
def State.owed (s : State) (g : Fin 32) (point : Nat) : Option Nat :=
  if s.groveIdle g || s.groves[g].ended.isSome then none
  else
    let before := fun c : Started => !reachedAt (s.sharedAt (4 * (s.groves[g].origin + c.cyc.start)).toNat).1 point
    ((s.threads[s.threadOf g].started.filter before).getLast?).map (·.cyc.idx)

/-- The TIME request carried out next: of those whose point is reached, the earliest, and of two the one accepted first (R201). -/
def State.snapDue (s : State) : Option Snap :=
  (sortBy (fun a b => decide (a.point < b.point)) (s.snaps.filter fun p => p.time && p.wait.isNone && s.reached p.point)).head?

/-- SNAPSHOT_TIME_POINT (R199): the shared time of the earliest TIME request is reached. Each grove with results to come for
cycles begun before it copies when they are in; the others, and the fabric counters, copy now. -/
def execSnapshotTimePoint (s : State) : Host.Outcome State Fault Refusal :=
  match s.snapDue with
  | none => .next s
  | some p =>
    let owed := (allFin 32).filterMap fun g => (s.owed g p.point).map fun c => (g.1, c)
    let free := (allFin 32).filter fun g => (s.owed g p.point).isNone
    let s := free.foldl (fun s g =>
      (s.copyShadow g p.id true snapValid (s.groves[g].lastAny.getD (2 ^ 64 - 1))).snapTell g p.id snapValid) (s.copyFabric p.id)
    .next (s.snapSettle { p with wait := some owed })

/-! ## Masks and configuration (R181) -/

/-- The channels of a mask register whose grove is in a burst, as a mask of its 32 bits. -/
def State.busyChans (s : State) (i : Nat) : Nat :=
  maskOf ((List.range 32).filter fun j => match s.groveOfChan (fin 128 (32 * i + j)) with
    | some g => !s.groveIdle g
    | none => false)

/-- A dropped write of the CAP block. -/
def State.capDrop (s : State) : State := (s.incSat F.CAP_DROP_CNT_COUNT).event Ev.cap 0

/-- A write of CAP_CHMASK: the bits of channels in a burst keep their values. -/
def State.chmask (s : State) (i : Nat) (w : Nat) : State :=
  let old := s.rd (F.CAP_CHMASK_MASK i)
  let busy := s.busyChans i
  let new := without w busy ||| (old &&& busy)
  let s' := s.wr (F.CAP_CHMASK_MASK i) new
  if new = w then s' else s'.capDrop

/-- CAP_CHMASK (R181). -/
def execCapChmaskWrite (req : Req) (i : Fin 4) (w : Word) (s : State) : Host.Outcome State Fault Refusal :=
  .next (s.regWrite req (F.CAP_CHMASK_MASK i).addr w fun s => s.chmask i w.toNat)

end Sys2Proof.Machine
end

