-- ==== Sys2Proof/Machine/Time.lean ====
section
/-! DEFINITION. Shared time (R346 to R360): rate, the single step, holdover, the exchange over Mafer links, and the Ethernet
port's timestamps. -/

namespace Sys2Proof.Machine

/-! ## Rate and step (R347 to R350) -/

/-- A change of the total rate at a raw count: the correction accumulated so far is kept, so a reading is continuous (R347). -/
def Tim.reRateAt (t : Tim) (at_ : Nat) (rate ho : Int) : Tim :=
  { t with acc := t.acc + (t.rate + t.rateHo) * ((at_ : Int) - t.changedAt), changedAt := at_, rate := rate, rateHo := ho }

/-- The same at the present. -/
def Tim.reRate (t : Tim) (rate ho : Int) : Tim := t.reRateAt t.raw rate ho

/-- The raw count of the next REFCLK edge (R346). -/
def Tim.nextEdge (t : Tim) : Nat := 8 * (t.raw / 8 + 1)

/-- TIM_RATE_WRITE (R348): the register shows the value at once, which waits for the next REFCLK edge. -/
def State.timRate (s : State) (w : Nat) : State :=
  { s.wr F.TIM_RATE_RATE w with tim := { s.tim with ratePend := some (sx 32 w, s.tim.nextEdge) } }

def execTimRateWrite (req : Req) (w : Word) (s : State) : Host.Outcome State Fault Refusal :=
  .next (s.regWrite req F.TIM_RATE_RATE.addr w fun s => s.timRate w.toNat)

/-- RATE_APPLY (R348): at the edge the value written last is the RATE in force. [log 71: DEDUCED] -/
def execRateApply (s : State) : Host.Outcome State Fault Refusal :=
  match s.tim.ratePend with
  | none => .next s
  | some (r, edge) =>
    if s.tim.raw < edge then .next s
    else .next { s with tim := { s.tim.reRateAt edge r s.tim.rateHo with ratePend := none } }

/-- Whether a consumer holds a pending shared-time point (R349). -/
def State.pointsPending (s : State) : Bool :=
  (s.bursts.any fun b => b.ops.mode == 3 && b.stage != .running && b.stage != .ended) ||
  (s.snaps.any fun p => p.time && p.wait.isNone) ||
  ((allFin 32).any fun u => s.rd (F.TMU_STATUS_STATE u) == 1 && s.rd (F.TMU_GATE_GSRC u) == 3) ||
  ((allFin 4).any fun e => s.rd (F.TRG_STATUS_STATE e) != 0 && s.qsrc e == 5 && !s.acq.trg[e].timed)

/-- A write of TIM_STEP_HI: the step is accepted or refused at once (R349). [log 71: DEDUCED] -/
def State.timStep (s : State) (v : Nat) : State :=
  if s.tim.stepped || s.rd F.TIM_STATUS_STATE != 0 then (s.wr F.TIM_STATUS_REFUSE 1).event Ev.tim 1
  else if s.pointsPending then (s.wr F.TIM_STATUS_REFUSE 2).event Ev.tim 1
  else ({ s with tim := { s.tim with stepped := true, stepPend := some (sx 64 v, s.tim.nextEdge) } }.wr F.TIM_STATUS_STATE 1).event Ev.tim 0

/-- TIM_STEP_HI_WRITE (R5, R349). -/
def execTimStepHiWrite (req : Req) (w : Word) (s : State) : Host.Outcome State Fault Refusal :=
  .next (s.regWrite req F.TIM_STEP_LO_STEP.hi.addr w fun s =>
    let (lo, s) := s.takeHeld req F.TIM_STEP_LO_STEP.addr 0
    s.timStep (lo + 2 ^ 32 * w.toNat))

/-- STEP_APPLY (R349): at the edge the accepted step is the OFFSET in force; a request sent before it gives no result (R355).
[log 71: DEDUCED] -/
def execStepApply (s : State) : Host.Outcome State Fault Refusal :=
  match s.tim.stepPend with
  | none => .next s
  | some (v, edge) =>
    if s.tim.raw < edge then .next s
    else
      let s := { s with tim := { s.tim with offset := v, stepPend := none, stepAt := edge, reqT1 := none } }
      .next ((s.wrP F.TIM_OFFSET_LO_OFFSET (zx 64 v)).wrP F.TIM_STEP_AT_LO_COUNT edge)

/-- Moves between LOCKED and HOLDOVER (R350). -/
def State.holdover (s : State) (on : Bool) : State :=
  let st := s.rd F.TIM_STATUS_STATE
  if on ∧ st = 1 then (s.wr F.TIM_STATUS_STATE 2).event Ev.tim 4
  else if !on ∧ st = 2 then (s.wr F.TIM_STATUS_STATE 1).event Ev.tim 4
  else s

/-- A write of TIM_CTRL (R350). -/
def State.timCtrl (s : State) (w : Nat) : State :=
  (s.wrs [(F.TIM_CTRL_HOLDOVER, w), (F.TIM_CTRL_MFL_EN, w / 2), (F.TIM_CTRL_AUTO_HOLD, w / 4)]).holdover (bitOf w 0)

/-- TIM_CTRL_WRITE (R350). -/
def execTimCtrlWrite (req : Req) (w : Word) (s : State) : Host.Outcome State Fault Refusal :=
  .next (s.regWrite req F.TIM_CTRL_HOLDOVER.addr w fun s => s.timCtrl w.toNat)

/-- The lane of the time exchange leaves UP: with AUTO_HOLD the module enters HOLDOVER (R350). -/
def State.laneDownHold (s : State) (lane : Fin 8) : State :=
  if s.on F.TIM_CTRL_AUTO_HOLD ∧ s.rd F.TIM_MFL_CFG_LANE = lane.1 then s.holdover true else s

/-! ## Exchange over Mafer links (R354, R355) -/

/-- Shared time at a master tick, in master ticks, 48 bits. -/
def State.shared48 (s : State) (m : Nat) : Nat :=
  zx 48 ((4 * { s.tim with raw := m / 4 }.nowFrac + (m % 4 : Nat) * (tickFrac + s.tim.rate + s.tim.rateHo)) / tickFrac)

/-- A TIME token (R354). DEPTH is 0 at a synchronised module that takes no time over a lane, else one above its peer's. [log 72: DEDUCED] -/
def State.timeToken (s : State) (reply : Bool) (seq ta res : Nat) : Nat :=
  let st := s.rd F.TIM_STATUS_STATE
  let synced := st != 0
  let hold := st == 2 || s.on F.TIM_STATUS_UNREF
  let depth := if !synced then 7 else if s.on F.TIM_CTRL_MFL_EN then min 7 (s.rd F.TIM_MFL_STAT_PEER_DEPTH + 1) else 0
  5 + 2 ^ 7 * b2n reply + 2 ^ 8 * (seq % 256) + 2 ^ 16 * b2n synced + 2 ^ 17 * b2n hold + 2 ^ 18 * depth + 2 ^ 24 * (ta % 2 ^ 48)
    + 2 ^ 72 * (res % 2 ^ 24)

/-- A lane is UP. -/
def State.laneUp (s : State) (l : Fin 8) : Bool := s.rd (F.MFL_LANE_STAT_STATE l) == 2

/-- TIME_REQUEST_SEND (R354): with MFL_EN set a request waits on the configured lane, PERIOD slots after the one before; T1 is
filled in when it leaves. -/
def execTimeRequestSend (s : State) : Host.Outcome State Fault Refusal :=
  let l := fin 8 (s.rd F.TIM_MFL_CFG_LANE)
  let slot := s.tim.raw / 8
  let due := s.tim.reqSlot.all fun last => decide (last + max 1 (s.rd F.TIM_MFL_CFG_PERIOD) ≤ slot)
  if s.on F.TIM_CTRL_MFL_EN ∧ s.laneUp l ∧ due then
    let seq := (s.tim.reqSeq + 1) % 256
    let tok := s.timeToken false seq 0 0
    .next ({ s with tim := { s.tim with reqSeq := seq, reqT1 := none, reqSlot := some slot } }.modLane l fun k => { k with out := k.out ++ [tok] })
  else .next s

/-- A TIME token that leaves at a slot boundary: a request takes T1, which the requester notes, and a reply takes RES (R354).
[log 72: DEDUCED] -/
def State.timeLeaves (s : State) (tok : Nat) : Nat × State :=
  let at_ := s.shared48 (32 * (s.tim.raw / 8))
  if bitOf tok 7 then (setField tok 72 24 (zx 24 ((at_ : Int) - fieldOf tok 24 48)), s)
  else (setField tok 24 48 at_, { s with tim := { s.tim with reqT1 := some at_ } })

/-- The token a command delivers, if it stands first among the lane's tokens of its type and its slot has come, and the state
without it. [log 82: DESIGN CHOICE] -/
def State.deliverIn (s : State) (n : Fin 8) (ty : Nat) (body : List Byte) : Option (InTok × State) :=
  let tok := leAt body 0 16
  match s.links.lanes[n].inbox.find? fun x => x.tok % 16 == ty with
  | some x =>
    if x.tok = tok ∧ x.due ≤ s.tim.raw / 8 then some (x, s.modLane n fun k => { k with inbox := k.inbox.erase x }) else none
  | none => none

/-- The same, its bits alone. [log 82: DESIGN CHOICE] -/
def State.deliver (s : State) (n : Fin 8) (ty : Nat) (body : List Byte) : Option (Nat × State) :=
  (s.deliverIn n ty body).map fun x => (x.1.tok, x.2)

/-- TIME_REQUEST_RECEIVE (R354): the request is answered on its lane with the shared time of its arrival; RES is filled in when
the reply leaves. [log 82: DESIGN CHOICE] -/
def execTimeRequestReceive (lane : Fin 8) (body : List Byte) (s : State) : Host.Outcome State Fault Refusal :=
  match s.deliverIn lane 5 body with
  | none => .next s
  | some (x, s') =>
    if bitOf x.tok 7 then .next s
    else
      let tok := s.timeToken true (fieldOf x.tok 8 8) (s.shared48 x.at_) 0
      .next (s'.modLane lane fun k => { k with out := k.out ++ [tok] })

/-- The result of a reply (R355): delay in FU, and twice the offset in FU. [log 72: DEDUCED] -/
def State.exchangeOf (s : State) (t1 t4 tok : Nat) : Int × Int :=
  let t2 := fieldOf tok 24 48
  let res := fieldOf tok 72 24
  let d := fun (a b : Nat) => sx 48 (zx 48 ((a : Int) - b))
  (2048 * (d t4 t1 - res), 4096 * (d t2 t1 - sx 48 (zx 48 ((t4 : Int) - t2 - res))) - s.rdS F.TIM_MFL_ASYM_ASYM)

/-- One result more; 2^AVG of them give the averages, and the responder's state (R355). [log 72: DEDUCED] -/
def State.takeExchange (s : State) (dly ofs : Int) (tok : Nat) : State :=
  let so := s.tim.sumOfs + ofs
  let sd := s.tim.sumDly + dly
  let cnt := s.tim.results + 1
  let avg := 2 ^ min 10 (s.rd F.TIM_MFL_CFG_AVG)
  let s := { s with tim := { s.tim with reqT1 := none, sumOfs := so, sumDly := sd, results := cnt } }.incWrap F.TIM_MFL_STAT_COUNT
  if avg ≤ cnt then
    let s := { s with tim := { s.tim with sumOfs := 0, sumDly := 0, results := 0 } }
    let s := s.wrP F.TIM_MFL_OFS_LO_OFFSET (zx 64 (so / (2 * avg : Nat)))
    (s.wrs [(F.TIM_MFL_DLY_DELAY, zx 32 (sd / (avg : Nat))), (F.TIM_MFL_STAT_PEER_SYNCED, tok / 2 ^ 16),
      (F.TIM_MFL_STAT_PEER_HOLD, tok / 2 ^ 17), (F.TIM_MFL_STAT_PEER_DEPTH, tok / 2 ^ 18)]).event Ev.tim 3
  else s

/-- TIME_REPLY_RECEIVE (R350, R355): a reply to the latest request gives a result, and with AUTO_HOLD ends HOLDOVER; any other
reply is discarded. [log 72: DEDUCED] -/
def execTimeReplyReceive (lane : Fin 8) (body : List Byte) (s : State) : Host.Outcome State Fault Refusal :=
  match s.deliverIn lane 5 body with
  | none => .next s
  | some (x, s') =>
    if bitOf x.tok 7 = false then .next s
    else match s.tim.reqT1 with
      | none => .next s'
      | some t1 =>
        if fieldOf x.tok 8 8 = s.tim.reqSeq ∧ s.laneUp lane then
          let (dly, ofs) := s.exchangeOf t1 (s.shared48 x.at_) x.tok
          let s := s'.takeExchange dly ofs x.tok
          .next (if s.on F.TIM_CTRL_AUTO_HOLD ∧ s.rd F.TIM_MFL_CFG_LANE = lane.1 then s.holdover false else s)
        else .next s'

/-! ## Ethernet (R357 to R360) -/

/-- A big-endian number of a frame. -/
def beAt (l : List Byte) (off count : Nat) : Nat := ofBytesLE ((l.drop off).take count).reverse

/-- Where the PTP message of a frame starts, and the offset of its UDP header over IPv4: a frame of Ethertype 0x88F7, or UDP
to port 319 over IPv4 or IPv6, is an event message (R358). [log 73: PRESUMED] -/
def ptpOf (l : List Byte) : Option (Nat × Option Nat × Bool) :=
  let ty := beAt l 12 2
  let u4 := 14 + 4 * (leAt l 14 1 % 16)
  if ty = 0x88F7 then some (14, none, false)
  else if ty = 0x0800 ∧ leAt l 23 1 = 17 ∧ beAt l (u4 + 2) 2 = 319 then some (u4 + 8, some u4, false)
  else if ty = 0x86DD ∧ leAt l 20 1 = 17 ∧ beAt l 56 2 = 319 then some (62, none, true)
  else none

/-- The Canopy address of a slot of a ring. -/
def ringSlot (off n : Nat) : Nat := off / 2048 * 2048 + 2048 * n

/-- Writes Canopy bytes. -/
def State.putCanopy (s : State) (a : Nat) (l : List Byte) : State := { s with canopy := Mem.puts s.canopy a l }

/-- Shared time in ticks and 1/65 536 tick at a point of the present tick, itself in 1/65 536 tick (R358). -/
def State.stampOfFrac (s : State) (frac : Nat) : Nat × Nat :=
  let t := (65536 * s.tim.nowFrac + frac * (tickFrac + s.tim.rate + s.tim.rateHo)) / tickFrac
  (zx 64 (t / 65536), zx 16 t)

/-- ETH_FRAME_RECEIVE (R358, R359): a frame without FCS error fills the next owned receive slot, or is dropped and counted;
`frac` places its timestamp point within the tick. [log 73: PRESUMED] -/
def execEthFrameReceive (frame : List Byte) (ok : Bool) (frac : Nat) (s : State) : Host.Outcome State Fault Refusal :=
  let rx := s.rd F.TIM_ETH_SLOTS_RX
  if rx = 0 ∨ s.clk.absent ∨ ok = false ∨ frame.length < 60 ∨ 2032 < frame.length then .next s
  else
    let a := ringSlot (s.rd F.TIM_ETH_RXRING_OFFSET) (s.tim.rxNext % rx)
    let flags := (Mem.byte s.canopy (a + 2)).toNat
    if bitOf flags 0 then
      let ts := (ptpOf frame).isSome
      let head := bytesLE 2 frame.length ++ bytesLE 1 (2 * b2n ts + 8 * b2n (ts && s.on F.TIM_STATUS_UNREF)) ++ bytesLE 1 0 ++
        bytesLE 2 (if ts then (s.stampOfFrac frac).2 else 0) ++ bytesLE 2 0 ++ bytesLE 8 (if ts then (s.stampOfFrac frac).1 else 0)
      .next { s.putCanopy a (head ++ frame) with tim := { s.tim with rxNext := (s.tim.rxNext + 1) % rx } }
    else .next ((s.incSat F.TIM_ETH_STAT_RX_DROP).event Ev.tim 6)

/-- Replaces bytes of a frame. -/
def patch (l : List Byte) (off : Nat) (b : List Byte) : List Byte := l.take off ++ b ++ l.drop (off + b.length)

/-- Big-endian bytes. -/
def bytesBE (count n : Nat) : List Byte := (bytesLE count n).reverse

/-- One-step insertion of R360: originTimestamp, correctionField, and over UDP/IPv4 a zero checksum. -/
def oneStep (l : List Byte) (at_ : Nat) (udp : Option Nat) (ticks frac : Nat) : List Byte :=
  let sub := (ticks * 65536 + frac) * 5 / 4
  let ns := sub / 65536
  let l := patch l (at_ + 34) (bytesBE 6 (ns / 10 ^ 9) ++ bytesBE 4 (ns % 10 ^ 9))
  let l := patch l (at_ + 8) (bytesBE 8 (beAt l (at_ + 8) 8 + sub % 65536))
  match udp with
  | some u => patch l (u + 6) (bytesBE 2 0)
  | none => l

/-- Shows the oldest transmit timestamp. -/
def State.noteTxts (s : State) : State :=
  match s.tim.txts with
  | [] => (s.wrs [(F.TIM_TXTS_INFO_TAG, 0), (F.TIM_TXTS_INFO_UNREF, 0), (F.TIM_TXTS_INFO_VALID, 0), (F.TIM_TXTS_FRAC_FRAC, 0)]).wrP F.TIM_TXTS_LO_TIME 0
  | x :: _ => (s.wrs [(F.TIM_TXTS_INFO_TAG, x.tag), (F.TIM_TXTS_INFO_UNREF, b2n x.unref), (F.TIM_TXTS_INFO_VALID, 1),
      (F.TIM_TXTS_FRAC_FRAC, x.frac)]).wrP F.TIM_TXTS_LO_TIME x.time

/-- ETH_FRAME_TRANSMIT (R358 to R360): the next owned transmit slot is sent with its FCS, its timestamp queued if it asks for
one. [log 73: PRESUMED] -/
def execEthFrameTransmit (frac : Nat) (s : State) : Host.Outcome State Fault Refusal :=
  let tx := s.rd F.TIM_ETH_SLOTS_TX
  if tx = 0 ∨ s.clk.absent then .next s
  else
    let a := ringSlot (s.rd F.TIM_ETH_TXRING_OFFSET) (s.tim.txNext % tx)
    let flags := (Mem.byte s.canopy (a + 2)).toNat
    if bitOf flags 0 = false then .next s
    else
      let frame := Mem.bytes s.canopy (a + 16) (ofBytesLE (Mem.bytes s.canopy a 2))
      let (t, f) := s.stampOfFrac frac
      let out := match ptpOf frame with
        | some (p, udp, v6) => if bitOf flags 2 ∧ v6 = false ∧ leAt frame p 1 % 16 = 0 then oneStep frame p udp t f else frame
        | none => frame
      let tag := (Mem.byte s.canopy (a + 3)).toNat
      let s := s.putCanopy (a + 2) (bytesLE 1 (without flags 1))
      let s := { s with tim := { s.tim with txNext := (s.tim.txNext + 1) % tx, ethSent := out ++ bytesLE 4 (crc32 out) } }
      if bitOf flags 1 = false then .next s
      else if s.tim.txts.length < 16 then
        let x : TxTs := ⟨tag, t, f, s.on F.TIM_STATUS_UNREF⟩
        .next (({ s with tim := { s.tim with txts := s.tim.txts ++ [x] } }.noteTxts).event Ev.tim 5)
      else .next ((s.incSat F.TIM_ETH_STAT_TS_LOST).event Ev.tim 6)

/-- TIM_TXTS_POP (R359). -/
def State.txtsPop (s : State) : State := { s with tim := { s.tim with txts := s.tim.txts.drop 1 } }.noteTxts

def execTimTxtsPop (s : State) : Host.Outcome State Fault Refusal := .next s.txtsPop

end Sys2Proof.Machine
end

