-- ==== Sys2Proof/Machine/Links.lean ====
section
/-! DEFINITION. Mafer links and serial lanes (R332 to R345): frames and their tokens, bulk traffic, agreement of linked groves
(R51), latency, retraining, bring-up and idle. Lane states: 0 off, 1 training, 2 UP, 3 idle, 4 FAILED. -/

namespace Sys2Proof.Machine

abbrev State.laneState (s : State) (n : Fin 8) : Nat := s.rd (F.MFL_LANE_STAT_STATE n)

/-- Lanes in a link, and frames of its receive FIFO and its replay buffer (R338). -/
def State.linkWidth (s : State) (n : Fin 8) : Nat := 2 ^ s.bond n
def State.fifoFrames (s : State) (n : Fin 8) : Nat := 32 * s.linkWidth n

/-- Sets the states of a link's lanes, and shows them in MFL_STATUS. -/
def State.setLanes (s : State) (n : Fin 8) (st : Nat) : State :=
  let s := (s.lanesIn n).foldl (fun (s : State) (k : Fin 8) => s.wr (F.MFL_LANE_STAT_STATE k) st) s
  let in_ := fun st : Nat => maskOf (((allFin 8).filter fun (k : Fin 8) => s.laneState k == st).map (·.1))
  s.wrs [(F.MFL_STATUS_UP, in_ 2), (F.MFL_STATUS_TRAINING, in_ 1)]

/-- The link entries whose LANE_MASK names a lane of a link. -/
def State.entriesOn (s : State) (n : Fin 8) : List (Fin 8) :=
  (allFin 8).filter fun l => s.rd (F.STR_LINK_MODULES l) != 0 && (s.lanesOf l).any fun k => s.linkLane k == s.linkLane n

/-- Whether a linked grove of the link is in a burst stage from Declared to Ended. -/
def State.linkBusy (s : State) (n : Fin 8) : Bool :=
  (s.entriesOn n).any fun l => !s.groveIdle (fin 32 (s.rd (F.STR_LINK_GROVE l)))

/-- A lane carries no token of a linked grove (R342). -/
def State.bulkOnly (s : State) (n : Fin 8) : Bool := s.on (F.MFL_LANE_STAT_TOO_FAR n) || s.on (F.MFL_LANE_STAT_PLESIO n)

/-! ## Agreement of linked groves (R51, R343) -/

/-- The descriptor this module presents for an entry (R335). -/
def State.ownDesc (s : State) (l : Fin 8) : Nat :=
  let g : Fin 32 := fin 32 (s.rd (F.STR_LINK_GROVE l))
  let total := leAt ((s.str.plain.find? fun p => p.1 == 4).elim [] (·.2)) (4 + 16 * l.1 + 8) 2
  8 + 2 ^ 4 * s.lslot l + 2 ^ 8 * s.rd (F.STR_LINK_ID_LINK_ID l) + 2 ^ 40 * s.rd (F.STR_LINK_MODULES l) + 2 ^ 43 * (total % 2 ^ 10) +
    2 ^ 53 * s.rd (F.STR_GROVE_WIDTH g) + 2 ^ 55 * b2n (s.hiz g) + 2 ^ 56 * b2n (s.urunAbort g) +
    2 ^ 57 * s.rd (F.STR_LINK_POSITION l) + 2 ^ 59 * (s.chansOf g).length

/-- Two descriptors match except in LSLOT, POSITION and channel count. -/
def descMatch (a b : Nat) : Bool := fieldOf a 8 49 == fieldOf b 8 49

/-- The descriptors heard for an entry on the lanes of its LANE_MASK. -/
def State.heard (s : State) (l : Fin 8) : List Nat := (s.lanesOf l).filterMap fun n => s.descOn n l

/-- Every condition of R51 and R343 holds for an entry, and the master runs from REFCLK (R387): two lanes on which one position
is heard lead to one module. -/
def State.agrees (s : State) (l : Fin 8) : Bool :=
  let own := s.ownDesc l
  let l' := (own :: s.heard l)
  let at_ := fun p : Nat => l'.find? fun d => descPos d == p
  let n := s.rd (F.STR_LINK_MODULES l)
  let clash := fun (a b : Fin 8) =>
    (s.descOn a l).map descPos == (s.descOn b l).map descPos && (s.descOn a l).isSome && s.rd (F.MFL_FAR_ID_ID a) != s.rd (F.MFL_FAR_ID_ID b)
  ((s.heard l).all fun d => descMatch own d && descPos d != descPos own) && !((s.lanesOf l).any fun a => (s.lanesOf l).any (clash a)) &&
    ((List.range n).all fun p => (at_ p).isSome) &&
    decide (((List.range n).map fun p => ((at_ p).map fun d => fieldOf d 59 8).getD 0).sum = fieldOf own 43 10) &&
    !(s.lanesOf l).any s.bulkOnly && s.rd F.CLK_STATUS_SRC == 0

/-- Shows which entries are agreed, and whether one is not. -/
def State.noteAgreed (s : State) : State :=
  let used := (allFin 8).filter fun (l : Fin 8) => s.rd (F.STR_LINK_MODULES l) != 0
  let s := used.foldl (fun s l => s.wr (F.STR_LINK_AGREED l) (b2n (s.agrees l))) s
  s.wr F.STR_STATUS_LINK_PENDING (b2n (used.any fun l => !s.agrees l))

/-- The entries that use a lane. -/
def State.entriesOf (s : State) (n : Fin 8) : List (Fin 8) :=
  (allFin 8).filter fun l => s.rd (F.STR_LINK_MODULES l) != 0 && (s.lanesOf l).contains n

/-- Sends the descriptors of the entries that use a lane, and drops older ones that wait; the far end owes its own unless it is
heard already. [log 159: DESIGN CHOICE] -/
def State.sendDescs (s : State) (n : Fin 8) : State :=
  let s := s.modLane n fun k => { k with out := k.out.filter fun t => t % 16 != 8 }
  let owed := (s.entriesOf n).filter fun l => (s.descOn n l).isNone
  let asked := (s.links.asked.filter fun a => a.1 != n.1) ++ owed.map fun (l : Fin 8) => (n.1, s.rd (F.STR_LINK_ID_LINK_ID l))
  (s.entriesOf n).foldl (fun (s : State) (l : Fin 8) => s.queueToken n (s.ownDesc l) 3) { s with links := { s.links with asked := asked } }

/-- The identifiers of the linked groves. -/
def State.linkIds (s : State) : List Nat :=
  ((allFin 8).filter fun (l : Fin 8) => s.rd (F.STR_LINK_MODULES l) != 0).map fun (l : Fin 8) => s.rd (F.STR_LINK_ID_LINK_ID l)

/-- The exchange begins again after a load (R51, R344), on idle links too: what was heard for the linked groves of the old
structure is forgotten. [log 159: DESIGN CHOICE] -/
def State.exchange (s : State) (old : List Nat) : State :=
  let s := { s with links := { s.links with descs := s.links.descs.filter fun d => !old.contains (descId d.2) } }
  (((allFin 8).filter fun n => [1, 2, 3].contains (s.laneState n)).foldl State.sendDescs s).noteAgreed

/-! ## Token loss (R337) -/

/-- Ends a linked grove for a token loss: after the last cycle committed, or before cycle 0. -/
def State.loseGrove (s : State) (g : Fin 32) : State :=
  match s.burstOf g with
  | none => s
  | some b =>
    if b.stage = .armed then s.endBeforeStart b .abortedBeforeStart
    else if b.stage = .running ∧ s.groves[g].ended.isNone then
      let t := s.threadOf g
      (s.modThread t fun k => { k with todo := [], fifo := [], pend := none, endAfter := some ⟨k.lines, .aborted, false⟩ }).checkEnd t
    else s

/-- A grove that can lose tokens: Armed or Running. -/
def State.groveLive (s : State) (g : Fin 32) : Bool := (s.burstOf g).any fun b => b.stage == .armed || b.stage == .running

/-- Token loss on a lane for an entry. [log 85: DEDUCED] -/
def State.tokenLoss (s : State) (n : Fin 8) (l : Fin 8) : State :=
  let g : Fin 32 := fin 32 (s.rd (F.STR_LINK_GROVE l))
  if s.groveLive g then
    (((s.loseGrove g).incSat (F.MFL_TOKEN_LOST_COUNT n)).event (Ev.mfl n) 4).faultOnce 18 (some g)
  else s

/-! ## Retraining and bring-up (R344) -/

/-- The IDENT token of a lane (R335). -/
def State.identToken (s : State) (n : Fin 8) : Nat := 7 + 2 ^ 8 * (Config.serial % 2 ^ 56) + 2 ^ 64 * n.1 + 2 ^ 67 * s.bond n

/-- A link's lanes begin training: what waited to be sent or delivered is dropped, and IDENT and descriptors are sent; 1024 ECHO
round trips are to be made. -/
def State.train (s : State) (n : Fin 8) : State :=
  let s := (s.lanesIn n).foldl (fun (s : State) (k : Fin 8) =>
    let fresh := fun (x : Lane) =>
      { x with out := [], inbox := [], copies := [], bad := 0, noSync := 0, lowWins := 0, echo := [], seen := [], need := 0, echoDue := none
               farWidth := none }
    let s := { s with links := { s.links with descs := s.links.descs.filter fun d => d.1 != k.1 } }
    (((s.modLane k fresh).queueToken k (s.identToken k) 3).sendDescs k).wrs [(F.MFL_LANE_STAT_TOO_FAR k, 0), (F.MFL_LANE_STAT_PLESIO k, 0)]) s
  let s := s.modLane (s.linkLane n) fun k => { k with need := 1024, trainAt := s.master }
  (s.setLanes n 1).noteAgreed

/-- A link that is UP or idle retrains: its linked groves end, its lanes leave UP. [log 85: DEDUCED] -/
def State.retrain (s : State) (n : Fin 8) : State :=
  if s.laneState n = 2 ∨ s.laneState n = 3 then
    let m := s.linkLane n
    let s := (s.entriesOn n).foldl (fun s l => s.tokenLoss m l) s
    let s := (s.lanesIn n).foldl State.laneDownHold s
    ((s.train n).incWrap (F.MFL_RETRAINS_COUNT m)).event (Ev.mfl m) 3
  else s

/-- LINK_RETRAIN (R344). -/
def execLinkRetrain (lane : Fin 8) (_cause : Nat) (s : State) : Host.Outcome State Fault Refusal := .next (s.retrain lane)

/-- The lanes of a link come UP or out of idle: they are in use from now. -/
def State.lanesUp (s : State) (n : Fin 8) : State := (s.setLanes n 2).modLane (s.linkLane n) fun k => { k with usedAt := s.master }

/-- LINK_UP (R332, R344): the steps of bring-up are done, IDENT and the ECHO round trips among them; ends of different width keep
the link in training. -/
def execLinkUp (lane : Fin 8) (s : State) : Host.Outcome State Fault Refusal :=
  let same := (s.lanesIn lane).all fun k => s.links.lanes[k].farWidth == some (s.bond lane)
  if s.laneState lane = 1 ∧ same ∧ s.links.lanes[s.linkLane lane].need = 0 then
    .next (((s.lanesUp lane).event (Ev.mfl (s.linkLane lane)) 0).noteAgreed)
  else .next s

/-- Master ticks since the link began to train, or was given up. -/
def State.trainTicks (s : State) (n : Fin 8) : Nat := s.master - s.links.lanes[s.linkLane n].trainAt

/-- LINK_FAILED (R344): not UP after 300 µs. [log 86: DESIGN CHOICE] -/
def execLinkFailed (lane : Fin 8) (s : State) : Host.Outcome State Fault Refusal :=
  if s.laneState lane = 1 ∧ 300 * 3200 ≤ s.trainTicks lane then
    let s := (s.setLanes lane 4).modLane (s.linkLane lane) fun k => { k with trainAt := s.master }
    .next (((s.event (Ev.mfl (s.linkLane lane)) 1).faultOnce 19 none).noteAgreed)
  else .next s

/-- A link that starts afresh: its numbers and its credit begin anew (R338). -/
def State.bringUp (s : State) (n : Fin 8) : State :=
  let room := s.fifoFrames n
  let fresh := fun k : Lane => { k with credit := room, freed := 0, txSeq := 0, rxSeq := 0, replay := [], resend := [], nak := none, gap := false, rxq := [] }
  (s.modLane (s.linkLane n) fresh).train n

/-- LINK_BRINGUP_RETRY (R344): 10 ms after the link was given up. -/
def execLinkBringupRetry (lane : Fin 8) (s : State) : Host.Outcome State Fault Refusal :=
  if s.laneState lane = 4 ∧ 10000 * 3200 ≤ s.trainTicks lane then .next (s.bringUp lane) else .next s

/-- A link in use: a bulk frame is pending, or a linked grove uses it (R344). -/
def State.inUse (s : State) (n : Fin 8) : Bool :=
  let k := s.links.lanes[s.linkLane n]
  !k.txq.isEmpty || !k.resend.isEmpty || s.linkBusy n

/-- LINK_IDLE_ENTRY (R344): IDLE_US after the last use. -/
def execLinkIdleEntry (lane : Fin 8) (s : State) : Host.Outcome State Fault Refusal :=
  if s.laneState lane = 2 ∧ s.on F.MFL_CFG_IDLE_EN ∧ s.inUse lane = false ∧
      s.links.lanes[s.linkLane lane].usedAt + 3200 * max 1 (s.rd F.MFL_IDLE_US_US) ≤ s.master then
    .next (s.setLanes lane 3)
  else .next s

/-- LINK_IDLE_EXIT (R344): for bulk data, for a burst, and for a descriptor that a load has to exchange (R51), frames resume,
and a burst waits for 1024 measurements. [log 159: DESIGN CHOICE] -/
def execLinkIdleExit (lane : Fin 8) (s : State) : Host.Outcome State Fault Refusal :=
  let m := s.linkLane lane
  let descs := (s.lanesIn lane).any fun k => s.links.lanes[k].out.any fun t => t % 16 == 8
  if s.laneState lane = 3 ∧ (s.links.lanes[m].txq.isEmpty = false ∨ s.linkBusy lane ∨ descs) then
    .next ((s.lanesUp lane).modLane m fun k => { k with need := 1024 })
  else .next s

/-- Lanes enabled whose links are off start training, unless REFCLK was absent at reset and has not returned (R387). -/
def State.startLanes (s : State) : State :=
  if s.clk.absent then s
  else (allFin 8).foldl (fun (s : State) (n : Fin 8) =>
    let on := (s.lanesIn n).all fun k => bitOf (s.rd F.MFL_CFG_LANE_EN) k.1
    if s.linkLane n = n ∧ on ∧ s.laneState n = 0 then s.bringUp n else s) s

/-- A link goes off. -/
def State.laneOff (s : State) (n : Fin 8) : State :=
  let s := (s.entriesOn n).foldl (fun s l => s.tokenLoss n l) s
  let s := if s.laneState n = 2 then (s.lanesIn n).foldl State.laneDownHold s else s
  let s := { s with links := { s.links with descs := s.links.descs.filter fun d => !(s.lanesIn n).any fun k => k.1 == d.1 } }
  (s.setLanes n 0).noteAgreed

/-- A write of MFL_CFG (R332): while a lane is UP or training only LANE_EN changes; lanes enabled start training, lanes
disabled go off. [log 88: DEDUCED] -/
def State.mflCfg (s : State) (w : Nat) : State :=
  let busy := (allFin 8).any fun n => s.laneState n == 1 || s.laneState n == 2
  let same := fieldOf w 8 2 == s.rd F.MFL_CFG_BOND_A && fieldOf w 10 2 == s.rd F.MFL_CFG_BOND_B && fieldOf w 12 1 == s.rd F.MFL_CFG_IDLE_EN
  let s := if bitOf w 13 then s.wr F.MFL_CFG_CFG_BUSY 0 else s
  let s := if busy then (if same then s else s.wr F.MFL_CFG_CFG_BUSY 1)
    else
      let s := s.wrs [(F.MFL_CFG_BOND_A, fieldOf w 8 2), (F.MFL_CFG_BOND_B, fieldOf w 10 2), (F.MFL_CFG_IDLE_EN, fieldOf w 12 1)]
      (allFin 8).foldl (fun (s : State) (n : Fin 8) => s.wrs [(F.MFL_LANE_STAT_LINK n, (s.linkLane n).1), (F.MFL_LANE_STAT_WIDTH n, s.bond n)]) s
  let s := s.wr F.MFL_CFG_LANE_EN w
  ((allFin 8).foldl (fun (s : State) (n : Fin 8) =>
    let on := (s.lanesIn n).all fun k => bitOf w k.1
    if s.linkLane n = n ∧ !on ∧ s.laneState n ≠ 0 then s.laneOff n else s) s).startLanes

/-- MFL_CFG_WRITE (R332). -/
def execMflCfgWrite (req : Req) (w : Word) (s : State) : Host.Outcome State Fault Refusal :=
  .next (s.regWrite req F.MFL_CFG_LANE_EN.addr w fun s => s.mflCfg w.toNat)

/-! ## Frames (R333, R334, R338) -/

/-- CRC-16 of R333, most significant bit first. -/
def crc16Bit (c : Nat) : Nat := if 2 ^ 15 ≤ c then (2 * c % 2 ^ 16) ^^^ 0x1021 else 2 * c
def crc16Byte (c : Nat) (b : Byte) : Nat :=
  crc16Bit (crc16Bit (crc16Bit (crc16Bit (crc16Bit (crc16Bit (crc16Bit (crc16Bit (c ^^^ (b.toNat * 256)))))))))
def crc16 (l : List Byte) : Nat := l.foldl crc16Byte 0xFFFF

/-- One bit through the scrambler, polynomial x^58 + x^39 + 1 over the bits already on the line, and through the descrambler:
the bit and the line's latest 58 bits (R333). -/
def scrambleBit (scr : Nat) (b : Bool) : Bool × Nat :=
  let out := b != (bitOf scr 38 != bitOf scr 57)
  (out, (2 * scr + b2n out) % 2 ^ 58)
def descrambleBit (scr : Nat) (b : Bool) : Bool × Nat := (b != (bitOf scr 38 != bitOf scr 57), (2 * scr + b2n b) % 2 ^ 58)

/-- A byte's bits in order, least significant first, through one of them. [log 89: DESIGN CHOICE] -/
def scrByte (f : Nat → Bool → Bool × Nat) (scr : Nat) (x : Byte) : Byte × Nat :=
  (List.range 8).foldl (fun (y : Byte × Nat) i =>
    let (b, scr) := f y.2 (bitOf x.toNat i)
    (y.1 + BitVec.ofNat 8 (2 ^ i * b2n b), scr)) (0, scr)
def scrBytes (f : Nat → Bool → Bool × Nat) : Nat → List Byte → List Byte × Nat
  | scr, [] => ([], scr)
  | scr, x :: r =>
    let (y, scr) := scrByte f scr x
    let (l, scr) := scrBytes f scr r
    (y :: l, scr)

/-- FRAME_SYNC, the two bytes that are not scrambled (R333). -/
def frameSync : List Byte := bytesLE 2 0xF40B

/-- Bytes 2 to 69 of the frame a lane sent last, before scrambling. -/
def Lane.frame (k : Lane) : List Byte :=
  let d := match k.sentBulk with
    | some b => b.cls + 2 ^ 4 * (b.seq % 2 ^ 12) + 2 ^ 24 * b.data.length
    | none => 0
  let head := bytesLE 16 k.sent ++ bytesLE 6 (d + 2 ^ 16 * (k.sentCredit % 256))
  head ++ bytesLE 2 (crc16 head) ++ (((k.sentBulk.map fun b : Bulk => b.data).getD []) ++ List.replicate 44 0).take 44

/-- What a member tells another of its progress: PRESENT and END (R336). Before a cycle 0 that does not come, PRESENT counts
for nothing. [log 84: DEDUCED] -/
def State.progress (s : State) (g : Fin 32) : Nat × Nat :=
  match s.groves[g].ended with
  | some r => ((if r = .firebreak then s.groves[g].emittedTo else s.groves[g].lastCycle).getD 0, r.code)
  | none =>
    let k := s.threads[s.threadOf g]
    match k.endAfter, k.bound with
    | some e, _ => if e.lines ≤ k.lines then (k.cycles - 1, e.reason.code) else (k.cycles + k.fifo.length - 1, 0)
    | none, some b => if b.1 ≤ k.cycles then (k.cycles - 1, if b.2 then 3 else 2) else (min (k.cycles + k.fifo.length) b.1 - 1, 0)
    | none, none => (k.cycles + k.fifo.length - 1, 0)

/-- Whether there is something new to tell a member. [log 84: DEDUCED] -/
def State.news (s : State) (p : Peer) : Bool :=
  let g : Fin 32 := fin 32 (s.rd (F.STR_LINK_GROVE p.link))
  p.told.2 == 0 && (s.groveLive g || (s.groves[g].ended.isSome && s.groves[g].burst.isSome)) && (!p.res.isEmpty || s.progress g != p.told)

/-- The GROVE token for a member (R336). -/
def State.groveToken (s : State) (p : Peer) : Nat :=
  let g : Fin 32 := fin 32 (s.rd (F.STR_LINK_GROVE p.link))
  let l := p.res.take 16
  let bits := fun f : Bool × Bool → Bool => maskOf ((l.zipIdx.filter fun x => f x.1).map (·.2))
  let (present, e) := s.progress g
  1 + 2 ^ 4 * s.lslot (fin 8 p.link) + 2 ^ 8 * (p.sentTo % 256) + 2 ^ 16 * l.length + 2 ^ 24 * bits (·.1) + 2 ^ 40 * bits (·.2) +
    2 ^ 64 * (present % 2 ^ 32) + 2 ^ 96 * e

/-- The slot count since the latest epoch (R113). [log 81: DESIGN CHOICE] -/
def State.slotCount (s : State) : Nat := s.slotNow - s.sync.epochSlot

/-- Takes a token off those a lane has to send. -/
def State.unqueue (s : State) (n : Fin 8) (t : Nat) : State := s.modLane n fun k => { k with out := k.out.erase t }

/-- The token a lane sends in this slot: one that waits, progress of a linked grove, a TIME token, an ECHO to return, or a new
ECHO (R342, R354). -/
def State.nextToken (s : State) (n : Fin 8) : Nat × State :=
  let out := s.links.lanes[n].out
  let mine := fun p : Peer => (s.lanesOf (fin 8 p.link)).contains n && (s.descOn n (fin 8 p.link)).any (fun d => descPos d == p.pos) && s.news p
  match out.find? fun t => t % 16 != 5, s.links.peers.find? mine, out.head? with
  | some t, _, _ => (t, s.unqueue n t)
  | none, some p, _ =>
    let sent := fun q : Peer =>
      if q.link = p.link ∧ q.pos = p.pos then
        { q with res := q.res.drop 16, sentTo := q.sentTo + (q.res.take 16).length, told := s.progress (fin 32 (s.rd (F.STR_LINK_GROVE p.link))) }
      else q
    (s.groveToken p, { s with links := { s.links with peers := s.links.peers.map sent } })
  | none, none, some t => (s.unqueue n t).timeLeaves t
  | none, none, none =>
    let now := s.slotCount % 2 ^ 32
    match s.links.lanes[n].echoDue with
    | some orig => (6 + 2 ^ 8 * now + 2 ^ 40 + 2 ^ 48 * orig, s.modLane n fun k => { k with echoDue := none })
    | none => (6 + 2 ^ 8 * now, s)

/-- The bulk frame that goes with it: a NAK, a replayed frame, or the next one against credit. [log 85: DEDUCED] -/
def State.nextBulk (s : State) (m : Fin 8) : Option Bulk × State :=
  let k := s.links.lanes[m]
  match k.nak, k.resend, k.txq with
  | some q, _, _ => (some ⟨3, q, []⟩, s.modLane m fun k => { k with nak := none })
  | none, b :: r, _ => (some b, s.modLane m fun k => { k with resend := r })
  | none, [], b :: r =>
    if k.credit = 0 then (none, s)
    else
      let b := { b with seq := k.txSeq }
      let keep := s.fifoFrames m
      let s := s.modLane m fun k => { k with txq := r, txSeq := (k.txSeq + 1) % 2 ^ 12, credit := k.credit - 1, replay := (k.replay ++ [b]).drop (k.replay.length + 1 - keep) }
      (some b, if b.cls = 1 then s.wr (F.MFL_MSG_SEND_SEND m) 0 else s)
  | none, [], [] => (none, s)

/-- The 70 bytes that leave on the lane: FRAME_SYNC, and the frame scrambled (R333). -/
def Lane.send (k : Lane) : Lane :=
  let (bytes, scr) := scrBytes scrambleBit k.txScr k.frame
  { k with line := frameSync ++ bytes, txScr := scr }

/-- FRAME_SEND (R333): one frame in every start slot of a lane that is UP or training. [log 89: DESIGN CHOICE] -/
def execFrameSend (lane : Fin 8) (s : State) : Host.Outcome State Fault Refusal :=
  if s.laneState lane = 1 ∨ s.laneState lane = 2 then
    let m := s.linkLane lane
    let (tok, s) := s.nextToken lane
    let (b, s) := if s.laneState lane = 2 then s.nextBulk m else (none, s)
    let credit := min 255 s.links.lanes[m].freed
    let s := s.modLane m fun k => { k with freed := k.freed - credit }
    let s := if s.inUse lane then s.modLane m fun k => { k with usedAt := s.master } else s
    .next (s.modLane lane fun k => Lane.send { k with sent := tok, sentBulk := b, sentCredit := credit })
  else .next s

/-- Tokens of three copies (R335). -/
def threeCopies (tok : Nat) : Bool := [2, 3, 4, 7, 8].contains (tok % 16)

/-- A frame is discarded (R334, R344). [log 85: DEDUCED] -/
def State.discardFrame (s : State) (n : Fin 8) : State :=
  let s := s.modLane n fun k => { k with bad := k.bad + 1, copies := (k.copies.map fun c => (c.1, c.2 - 1)).filter fun c => c.2 != 0 }
  if 3 ≤ s.links.lanes[n].bad then s.retrain n else s

/-- A token of a good frame: progress, ARMED, START and SNAPSHOT wait for their delivery slot, unless the lane carries none of
them; a late one starts a retraining. TIME, ECHO, IDENT and DESC act on arrival, TIME only while the lane is UP; NONE and types
9 to 15 are discarded (R335, R342, R355). -/
def State.takeToken (s : State) (n : Fin 8) (slot tok at_ : Nat) : State :=
  let ty := tok % 16
  let k := s.links.lanes[n]
  let again := threeCopies tok && k.copies.any fun c => c.1 == tok
  let s := s.modLane n fun k =>
    let old := (k.copies.map fun c => (c.1, c.2 - 1)).filter fun c => c.2 != 0
    { k with copies := if threeCopies tok && !again then (tok, 2) :: old else old }
  if again ∨ ty = 0 ∨ 9 ≤ ty ∨ (ty = 5 ∧ s.laneState n ≠ 2) then s
  else if 5 ≤ ty then s.modLane n fun k => { k with inbox := k.inbox ++ [⟨0, tok, at_⟩] }
  else if s.bulkOnly n ∨ s.laneState n ≠ 2 then s
  else
    let due := slot + s.rd (F.MFL_LAT_LAT_SLOTS n)
    if due < s.slotNow then (s.event (Ev.mfl n) 5).retrain n
    else s.modLane n fun k => { k with inbox := k.inbox ++ [⟨due, tok, at_⟩] }

/-- The bulk part of a good frame (R338): credit, order by SEQ, a NAK for the first frame missing. -/
def State.takeBulk (s : State) (m : Fin 8) (d : Nat) (payload : List Byte) : State :=
  let cls := fieldOf d 0 4
  let seq := fieldOf d 4 12
  let s := s.modLane m fun k => { k with credit := k.credit + fieldOf d 16 8 }
  let k := s.links.lanes[m]
  if cls = 3 then s.modLane m fun k => { k with rxq := k.rxq ++ [⟨3, seq, []⟩] }
  else if cls = 0 ∨ 4 ≤ cls then s
  else if seq = k.rxSeq then
    s.modLane m fun k => { k with rxSeq := (seq + 1) % 2 ^ 12, gap := false, rxq := k.rxq ++ [⟨cls, seq, payload.take (fieldOf d 24 6)⟩] }
  else if k.gap then s
  else s.modLane m fun k => { k with gap := true, nak := some k.rxSeq }

/-- FRAME_RECEIVE (R333, R334): the bytes of a frame sent in a slot as they come off the line, at a master tick of the present
tick; without FRAME_SYNC it is no frame. [log 81: DESIGN CHOICE; log 86: DESIGN CHOICE; log 89: DESIGN CHOICE] -/
def execFrameReceive (lane : Fin 8) (slot : Nat) (sub : Fin 4) (line : List Byte) (s : State) : Host.Outcome State Fault Refusal :=
  if s.laneState lane ≠ 1 ∧ s.laneState lane ≠ 2 then .next s
  else
    let (frame, scr) := scrBytes descrambleBit s.links.lanes[lane].rxScr (line.drop 2)
    let s := s.modLane lane fun k => { k with rxScr := scr }
    if line.take 2 ≠ frameSync then
      let s := (s.modLane lane fun k => { k with noSync := k.noSync + 1 }).discardFrame lane
      .next (if 2 ≤ s.links.lanes[lane].noSync then s.retrain lane else s)
    else
    let s := s.modLane lane fun k => { k with noSync := 0 }
    let head := frame.take 22
    if frame.length ≠ 68 ∨ crc16 head ≠ leAt frame 22 2 then .next ((s.incSat (F.MFL_HDR_ERR_COUNT lane)).discardFrame lane)
    else
      let s := s.modLane lane fun k => { k with bad := 0 }
      let s := if s.laneState lane = 2 then s.takeBulk (s.linkLane lane) (leAt head 16 6) (frame.drop 24) else s
      .next (s.takeToken lane slot (leAt head 0 16) (s.master + sub))

/-! ## Tokens delivered -/

/-- The entry a token names on a lane: the leader's index of it is LSLOT (R335). -/
def State.entryOf (s : State) (n : Fin 8) (tok : Nat) : Option (Fin 8) :=
  (allFin 8).find? fun l => s.rd (F.STR_LINK_MODULES l) != 0 && (s.lanesOf l).contains n && s.lslot l == fieldOf tok 4 3

/-- The grove of an entry. -/
def State.entryGrove (s : State) (l : Fin 8) : Fin 32 := fin 32 (s.rd (F.STR_LINK_GROVE l))

/-- The reason a code of R119 names. -/
def reasonOf (c : Nat) : EndReason :=
  match c with
  | 1 => .halt | 2 => .stopped | 3 => .aborted | 4 => .underrun | 5 => .detached | 6 => .seqError | 7 => .grantFailed
  | 8 => .abortedBeforeStart | _ => .firebreak

/-- One line's results of another member (R101, R103, R336): a compare of a match-loop pass stays match-only when its result
comes after the loop has exited. -/
def State.peerLine (s : State) (g : Fin 32) (line : Nat) (failed judged : Bool) : State :=
  let t := s.threadOf g
  let inPass := s.threads[t].passes.any fun p => decide (p.first ≤ line) && (match p.last with
    | some l => decide (line ≤ l)
    | none => true)
  if inPass then s.modThread t (passCycle g line judged failed)
  else if s.threads[t].spans.any fun p => decide (p.1 ≤ line) && decide (line ≤ p.2) then s
  else if failed then s.modGrove g fun k => { k with failLines := k.failLines ++ [line] }
  else s

/-- A member's END: every member ends after the same cycle, with its reason (R106, R336, R337). [log 84: DEDUCED] -/
def State.peerEnds (s : State) (g : Fin 32) (present code : Nat) : State :=
  match s.burstOf g with
  | none => s
  | some b =>
    if code = 0 then s
    else if code = 8 ∧ b.stage ≠ .running then s.endBeforeStart b .abortedBeforeStart
    else
      let t := s.threadOf g
      (s.modThread t fun k => { k with peerEnd := k.peerEnd <|> some (if code = 9 then k.cycles - 1 else present, reasonOf code) }).checkEnd t

/-- TOKEN_GROVE (R336, R337). [log 82: DESIGN CHOICE] -/
def execTokenGrove (lane : Fin 8) (body : List Byte) (s : State) : Host.Outcome State Fault Refusal :=
  match s.deliver lane 1 body with
  | none => .next s
  | some (tok, s) =>
    match s.entryOf lane tok with
    | none => .next s
    | some l =>
      let g := s.entryGrove l
      let pos := ((s.descOn lane l).map descPos).getD 4
      match s.links.peers.find? fun p => p.link == l.1 && p.pos == pos with
      | none => .next s
      | some p =>
        if fieldOf tok 8 8 ≠ p.next % 256 then .next (s.tokenLoss lane l)
        else
          let n := min 16 (fieldOf tok 16 5)
          let s := (List.range n).foldl (fun s k => s.peerLine g (p.next + k) (bitOf tok (24 + k)) (bitOf tok (40 + k))) s
          let cycles := s.threads[s.threadOf g].cycles
          let present := ((cycles : Int) + sx 32 (zx 32 ((fieldOf tok 64 32 : Int) - cycles))).toNat
          let note := fun q : Peer => if q.link = l.1 ∧ q.pos = pos then { q with next := q.next + n, present := some present } else q
          let s := { s with links := { s.links with peers := s.links.peers.map note } }
          .next (s.peerEnds g present (fieldOf tok 96 4))

/-- The burst a token of an entry concerns: the one that holds its grove, not yet Running. -/
def State.entryBurst (s : State) (l : Fin 8) : Option Burst :=
  (s.burstOf (s.entryGrove l)).filter fun b => b.stage != .running && b.stage != .ended

/-- TOKEN_ARMED (R116, R162, R343): the member holds its start fill; with every member armed the leader starts, or cancels
where a period table differs. -/
def execTokenArmed (lane : Fin 8) (body : List Byte) (s : State) : Host.Outcome State Fault Refusal :=
  match s.deliver lane 2 body with
  | none => .next s
  | some (tok, s) =>
    let named : Option (Fin 8 × Burst) := (s.entryOf lane tok).bind fun l => (s.entryBurst l).map fun b => (l, b)
    match named with
    | none => .next s
    | some (l, b) =>
      let pos : Nat := fieldOf tok 40 2
      let held := s.rd (F.MFL_GROVE_LAT_LG l) + 127
      let note := fun q : Peer => if q.link = l.1 ∧ q.pos = pos ∧ q.present = none then { q with present := some held } else q
      let s := { s with links := { s.links with peers := s.links.peers.map note } }
      let armed : List (Nat × Nat) := (8 * l.1 + pos, fieldOf tok 8 32) :: b.armedBy.filter fun a => a.1 != 8 * l.1 + pos
      let b' : Burst := { b with armedBy := armed }
      let s : State := s.modBurst b.hdr.tag b.hdr.epoch fun _ => b'
      if b.stage = .armed ∧ s.leads b' ∧ s.allArmed b' then
        .next (if s.crcsMatch b' then s.tryStartSlot b' else (s.sendStart b' 0 true).mismatch b')
      else .next s

/-- TOKEN_START (R116): the slot of cycle 0, or a cancelled start. Every other member holds its lines as far as its ARMED token
says (R343). [log 83: DEDUCED] -/
def execTokenStart (lane : Fin 8) (body : List Byte) (s : State) : Host.Outcome State Fault Refusal :=
  match s.deliver lane 3 body with
  | none => .next s
  | some (tok, s) =>
    match (s.entryOf lane tok).bind fun l => (s.entryBurst l).map fun b => (l, b) with
    | none => .next s
    | some (l, b) =>
      if bitOf tok 40 then .next (s.mismatch b)
      else if b.stage ≠ .armed ∨ b.startSlot.isSome ∨ b.ops.mode ≠ 4 then .next s
      else
        let slot := ((s.slotNow : Int) + sx 32 (zx 32 ((fieldOf tok 8 32 : Int) - s.slotCount))).toNat
        let held := s.rd (F.MFL_GROVE_LAT_LG l) + 127
        let note := fun q : Peer => if q.link = l.1 ∧ q.present = none then { q with present := some held } else q
        .next ({ s with links := { s.links with peers := s.links.peers.map note } }.chooseSlot b slot)

/-- TOKEN_SNAPSHOT (R345): a request of another module; a TIME token is forwarded, once for each ID. [log 87: DESIGN CHOICE] -/
def execTokenSnapshot (lane : Fin 8) (body : List Byte) (s : State) : Host.Outcome State Fault Refusal :=
  match s.deliver lane 4 body with
  | none => .next s
  | some (tok, s) =>
    let id := fieldOf tok 16 16
    let point := fieldOf tok 64 64
    if bitOf tok 8 then
      if s.links.fwdIds.contains id then .next s
      else
        let s := s.snapRequest true (bitOf tok 9) 0 id point none (some lane)
        .next { s with links := { s.links with fwdIds := (id :: s.links.fwdIds.filter (· ≠ id)).take 4 } }
    else match s.entryOf lane tok with
      | some l => .next (s.snapRequest false false (s.entryGrove l) id point none none)
      | none => .next s

/-- A latency measured on a lane (R342): MEAS_TICKS over the link, LAT_SLOTS unless it is frozen, TOO_FAR and PLESIO. [log 88: DEDUCED] -/
def State.measureLane (s : State) (n : Fin 8) (ticks : Nat) : State :=
  let m := s.linkLane n
  let now := s.master
  let s := s.modLane m fun k => { k with echo := (ticks :: k.echo).take 1024, need := k.need - 1 }
  let fresh := fun k : Lane => (ticks, now) :: k.seen.filter fun x => x.1 != ticks && decide (now ≤ x.2 + 3200000)
  let s := s.modLane n fun k => { k with seen := fresh k }
  let l := s.links.lanes[n].seen.map (·.1)
  let plesio := l.any fun a => l.any fun b => decide (a + 2 < b)
  let meas := maxOf s.links.lanes[m].echo
  let slots := (meas + 31) / 32 + 1
  let frozen := s.linkBusy n
  let show_ := fun (s : State) (k : Fin 8) =>
    let s := s.wr (F.MFL_LAT_MEAS_TICKS k) (min meas (2 ^ 16 - 1))
    let s := if frozen then s else s.wrs [(F.MFL_LAT_LAT_SLOTS k, min slots 127), (F.MFL_LANE_STAT_TOO_FAR k, b2n (decide (64 < slots)))]
    if plesio then s.wr (F.MFL_LANE_STAT_PLESIO k) 1 else s
  ((s.lanesIn n).foldl show_ s).noteAgreed

/-- TOKEN_ECHO (R342): its latency is measured, and one without REPLY is returned. [log 82: DESIGN CHOICE] -/
def execTokenEcho (lane : Fin 8) (body : List Byte) (s : State) : Host.Outcome State Fault Refusal :=
  match s.deliverIn lane 6 body with
  | none => .next s
  | some (x, s) =>
    let sent := fieldOf x.tok 8 32
    let ticks := zx 37 ((x.at_ : Int) - 32 * s.sync.epochSlot - 32 * sent)
    let s := s.measureLane lane ticks
    .next (if bitOf x.tok 40 then s else s.modLane lane fun k => { k with echoDue := some sent })

/-- TOKEN_IDENT (R332, R335). [log 82: DESIGN CHOICE] -/
def execTokenIdent (lane : Fin 8) (body : List Byte) (s : State) : Host.Outcome State Fault Refusal :=
  match s.deliver lane 7 body with
  | none => .next s
  | some (tok, s) =>
    let w := fieldOf tok 67 2
    let s := s.wrs [(F.MFL_FAR_ID_ID lane, fieldOf tok 8 32), (F.MFL_LANE_STAT_FAR_LANE lane, fieldOf tok 64 3)]
    let s := s.modLane lane fun k => { k with farWidth := some w }
    .next (if w = s.bond lane then s else s.event (Ev.mfl lane) 8)

/-- TOKEN_DESC (R51): compared with the own descriptor of its LINK_ID, which answers it where it is no answer itself.
[log 82: DESIGN CHOICE; log 159: DESIGN CHOICE] -/
def execTokenDesc (lane : Fin 8) (body : List Byte) (s : State) : Host.Outcome State Fault Refusal :=
  match s.deliver lane 8 body with
  | none => .next s
  | some (tok, s) =>
    let rest := s.links.descs.filter fun d => !(d.1 == lane.1 && descId d.2 == descId tok)
    let key := (lane.1, descId tok)
    let answer := s.links.asked.contains key
    let s := { s with links := { s.links with descs := rest ++ [(lane.1, tok)], asked := s.links.asked.filter (· ≠ key) } }
    let mine := (s.entriesOf lane).filter fun (l : Fin 8) => s.rd (F.STR_LINK_ID_LINK_ID l) == descId tok
    let s := if answer then s else mine.foldl (fun (s : State) (l : Fin 8) => s.queueToken lane (s.ownDesc l) 3) s
    let clash := fun l : Fin 8 =>
      let own := s.ownDesc l
      let all := (own :: s.heard l).map descPos
      !descMatch own tok || descPos tok == descPos own ||
        ((List.range (s.rd (F.STR_LINK_MODULES l))).all all.contains && !s.agrees l && !(s.lanesOf l).any s.bulkOnly)
    .next (if mine.any clash then s.noteAgreed.event Ev.str 2 else s.noteAgreed)

/-! ## Bulk traffic (R338 to R340) -/

/-- Shows the oldest message and the count (R339). -/
def State.noteMsgs (s : State) (m : Fin 8) : State :=
  let l := s.links.lanes[m].msgs
  let s := s.wr (F.MFL_MSG_RXCTL_COUNT m) l.length
  (List.range 11).foldl (fun s i => s.wr (F.MFL_MSG_RX_DATA m i) (leAt (l.headD []) (4 * i) 4)) s

/-- The bulk frame a command takes: the oldest in the receive FIFO of its link, of a class. -/
def State.takeRx (s : State) (n : Fin 8) (cls : Nat) (body : List Byte) : Option State :=
  let m := s.linkLane n
  match s.links.lanes[m].rxq with
  | b :: r => if b.cls = cls ∧ b.data = body then some (s.modLane m fun k => { k with rxq := r, freed := k.freed + 1 }) else none
  | [] => none

/-- MSG_RECEIVE (R339). -/
def execMsgReceive (lane : Fin 8) (body : List Byte) (s : State) : Host.Outcome State Fault Refusal :=
  let m := s.linkLane lane
  match s.takeRx lane 1 body with
  | none => .next s
  | some s =>
    let s := if s.links.lanes[m].msgs.length < 16 then (s.modLane m fun k => { k with msgs := k.msgs ++ [body] }).noteMsgs m
      else s.incSat (F.MFL_MSG_RXCTL_DROPPED m)
    .next (s.event (Ev.mfl m) 6)

/-- PEER_RECEIVE (R340): the values of the entry with the frame's LINK_ID, at its POSITION. -/
def execPeerReceive (lane : Fin 8) (body : List Byte) (s : State) : Host.Outcome State Fault Refusal :=
  match s.takeRx lane 2 body with
  | none => .next s
  | some s =>
    let pos := leAt body 4 1
    match (allFin 8).find? fun (l : Fin 8) => s.rd (F.STR_LINK_MODULES l) != 0 && s.rd (F.STR_LINK_ID_LINK_ID l) == leAt body 0 4 with
    | some l =>
      if 4 ≤ pos then .next s
      else
        let id := leAt body 6 2
        let flags := leAt body 5 1
        .next ((s.putPeer l pos (leAt body 8 6) (leAt body 14 6) (leAt body 20 6) (leAt body 26 1) (bitOf flags 0) (bitOf flags 1) (id % 512)
          (id / 512 % 64)).event (Ev.mfl (s.linkLane lane)) 7)
    | none => .next s

/-- NAK_RECEIVE (R338): the named frame and those after it are sent again; one no longer held makes the link retrain. -/
def execNakReceive (lane : Fin 8) (seq : Nat) (s : State) : Host.Outcome State Fault Refusal :=
  let m := s.linkLane lane
  match s.links.lanes[m].rxq.find? fun b => b.cls == 3 && b.seq == seq with
  | none => .next s
  | some b =>
    let s := s.modLane m fun k => { k with rxq := k.rxq.erase b }
    let again := s.links.lanes[m].replay.dropWhile fun x => x.seq != seq
    .next (if again.isEmpty then s.retrain m else s.modLane m fun k => { k with resend := again })

/-- A write of 1 to SEND (R339). -/
def State.msgSend (s : State) (n : Fin 8) : State :=
  if s.linkLane n ≠ n then s
  else if s.on (F.MFL_MSG_SEND_SEND n) then s.event (Ev.mfl n) 9
  else
    let msg := (List.range 11).flatMap fun i => bytesLE 4 (s.rd (F.MFL_MSG_TX_DATA n i))
    (s.queueBulk n 1 msg).wr (F.MFL_MSG_SEND_SEND n) 1

/-- MFL_MSG_SEND (R339). -/
def execMflMsgSend (lane : Fin 8) (s : State) : Host.Outcome State Fault Refusal := .next (s.msgSend lane)

/-- A write of 1 to POP (R339). -/
def State.msgPop (s : State) (n : Fin 8) : State :=
  if s.linkLane n ≠ n then s else (s.modLane n fun k => { k with msgs := k.msgs.drop 1 }).noteMsgs n

/-- MFL_MSG_POP (R339). -/
def execMflMsgPop (lane : Fin 8) (s : State) : Host.Outcome State Fault Refusal := .next (s.msgPop lane)

/-! ## Equalisation (R341) -/

/-- A tap after a window: an update that lowered the figure of merit is undone and the tap's step halved for 64 windows;
any other tap takes the step `up` that the adaptation gives it. Answers the tap's base, its new value and its windows.
[log 89: DESIGN CHOICE] -/
def tapStep (worse : Bool) (cur was : Int) (slow : Nat) (up : Int) : Int × Int × Nat :=
  if worse && cur != was then (was, was, 64)
  else (cur, max (-128) (min 127 (cur + if slow = 0 then up else up.tdiv 2)), slow - 1)

/-- The taps of a lane after a window of a figure of merit (R341). -/
def State.adapt (s : State) (n : Fin 8) (fom : Nat) (ups : List Int) : State :=
  let k := s.links.lanes[n]
  let one := fun i : Nat =>
    let cur := s.rdS (F.MFL_DFE_TAP n i)
    tapStep (decide (fom < k.fomWas)) cur (k.tapWas.getD i cur) (k.slow.getD i 0) (ups.getD i 0)
  let l := (List.range 12).map one
  let s := s.modLane n fun k => { k with fomWas := fom, tapWas := l.map (·.1), slow := l.map (·.2.2) }
  (l.zipIdx).foldl (fun (s : State) (x : (Int × Int × Nat) × Nat) => s.wr (F.MFL_DFE_TAP n x.2) (zx 8 x.1.2.1)) s

/-- FOM_WINDOW (R341): the figure of merit of a window and the steps of the taps; below WARN an event, four below RETRAIN a
retraining. [log 89: DESIGN CHOICE] -/
def execFomWindow (lane : Fin 8) (fom : Nat) (ups : List Int) (s : State) : Host.Outcome State Fault Refusal :=
  if s.laneState lane ≠ 1 ∧ s.laneState lane ≠ 2 then .next s
  else
    let fom := min fom 255
    let s := (s.wr (F.MFL_LANE_STAT_FOM lane) fom).adapt lane fom ups
    let warn := s.rd F.MFL_FOM_CFG_WARN
    let s := if fom < warn then s.event (Ev.mfl lane) 2 else s
    let low := decide (fom < min warn (s.rd F.MFL_FOM_CFG_RETRAIN))
    let s := s.modLane lane fun k => { k with lowWins := if low then k.lowWins + 1 else 0 }
    .next (if 4 ≤ s.links.lanes[lane].lowWins then s.retrain lane else s)

end Sys2Proof.Machine
end

