-- ==== Sys2Proof/Machine/Clocks.lean ====
section
/-! DEFINITION. The reference clock, the clock monitors and CLKOUT (R379 to R391). CLK_STATUS.SRC: 0 REFCLK, 1 INTERNAL,
2 RETURNING, 3 FREE. -/

namespace Sys2Proof.Machine

/-! ## Unreferenced cycles (R385) -/

/-- The cycles of a thread in progress are unreferenced. [log 67: DEDUCED] -/
def State.unrefNow (s : State) : State :=
  let now := s.now
  let mark := fun c : Started => if now < c.ends then { c with unref := true } else c
  (allFin 32).foldl (fun s t => s.modThread t fun k => { k with started := k.started.map mark }) s

/-- The cycle of a grove in progress, or the next to begin. -/
def State.cycleNow (s : State) (g : Fin 32) : Nat :=
  let t := s.threads[s.threadOf g]
  let now := s.now
  match t.started.find? fun c => decide (now < c.ends) with
  | some c => c.cyc.idx
  | none => ((t.pipe.head?).map (·.idx)).getD t.cycles

/-- Every cycle from the one in progress at the start of the reference window on is unreferenced, those whose results are
already taken in too. [log 67: DEDUCED] -/
def State.unrefWindow (s : State) : State :=
  (allFin 32).foldl (fun s g =>
    let w := s.groves[g].winCycle
    let mark := fun c : Started => if w ≤ c.cyc.idx then { c with unref := true } else c
    let s := s.modThread (s.threadOf g) fun k => { k with started := k.started.map mark }
    match s.groves[g].lastCycle with
    | none => s
    | some l =>
      if l < w ∨ s.groves[g].ended.isSome then s
      else
        let f := fun k : Grove =>
          { k with unrefFirst := some (min w (k.unrefFirst.getD w)), unrefLast := some l
                   visit := k.visit.map fun v => { v with unref := true }, valGran := k.valGran.map fun v => { v with unref := true } }
        s.modGrove g f) s

/-! ## Loss and return (R383 to R386) -/

/-- The master PLL freezes (R383, R384); a calibration step in progress ends without writing results. -/
def State.freeze (s : State) : State :=
  let cut := fun r : CalRun => if fieldOf r.groups 4 3 = 0 then r else { r with lost := true }
  let s := { s with
    clk := { s.clk with frozen := true }, cal := { s.cal with run := s.cal.run.map cut }
    acq := { s.acq with calDue := s.acq.calDue ||| s.acq.calRun, calRun := 0 } }
  (s.wrP F.CLK_LOSS_AT_LO_TIME s.now).wrs [(F.TMG_STATUS_UNREF, 1), (F.TMU_GSTATUS_CAL_RUN, 0)]

/-- A loss is declared (R384, R388): no linked grove is agreed, and where REFCLK was absent at reset the lanes and the
SDRAM stay in reset (R387). [log 68: DEDUCED] -/
def State.lose (s : State) (cause : Nat) : State :=
  let s := { s with clk := { s.clk with refWins := 0, request := false, locked := false, absent := s.clk.absent || cause == 4 } }
  let s := s.wrs [(F.CLK_STATUS_SRC, if s.on F.CLK_STATUS_OSC_OK then 1 else 3), (F.CLK_STATUS_CAUSE, cause)]
  let s := if cause = 4 then (allFin 8).foldl (fun (s : State) (n : Fin 8) => if s.laneState n = 0 then s else s.laneOff n) (s.wr F.DMC_STATUS_STATE 0) else s.noteAgreed
  (((s.incSat F.CLK_LOSS_CNT_COUNT).event Ev.clk 0).nmiAll 0).dualRaise 3

/-- RETURN_WIN, 0 treated as 1. -/
def State.returnWin (s : State) : Nat := max 1 (s.rd F.CLK_MON_CFG_RETURN_WIN)

/-- A return begins where R386 lets it. [log 68: DEDUCED] -/
def State.tryReturn (s : State) : State :=
  let src := s.rd F.CLK_STATUS_SRC
  if (src = 1 ∨ src = 3) ∧ s.returnWin ≤ s.clk.refWins ∧ (s.on F.CLK_CTRL_AUTO_RETURN ∨ s.clk.request) ∧ s.on F.CLK_CTRL_FORCE_INT = false then
    { s with clk := { s.clk with request := false, locked := false } }.wr F.CLK_STATUS_SRC 2
  else s

/-- REFCLK_MISSING_EDGE (R382, R383): while the master runs from REFCLK it freezes at once. -/
def execRefclkMissingEdge (s : State) : Host.Outcome State Fault Refusal :=
  let src := s.rd F.CLK_STATUS_SRC
  if src = 0 ∨ src = 2 then
    let s := { s with clk := { s.clk with fired := true } }
    .next (if s.clk.frozen && src == 0 then s else s.freeze.unrefNow)
  else .next s

/-- The loss that the end of a window declares, if any: by the detector, by the count, or forced (R383, R389); a module that
has never had a good window and counts no edge finds REFCLK absent. [log 68: DEDUCED] -/
def State.lossCause (s : State) (count : Nat) (good : Bool) : Option Nat :=
  let src := s.rd F.CLK_STATUS_SRC
  if src = 1 ∨ src = 3 then none
  else if s.clk.seen = false ∧ count = 0 then some 4
  else if s.clk.fired then some 1
  else if !good then some 2
  else if s.on F.CLK_CTRL_FORCE_INT then some 3
  else none

/-- REFERENCE_MONITOR_WINDOW (R382 to R386, R389): a window of REFCLK edges ends. -/
def execReferenceMonitorWindow (count : Nat) (s : State) : Host.Outcome State Fault Refusal :=
  let good := decide (995 ≤ count) && decide (count ≤ 1005)
  let cause := s.lossCause count good
  let s := s.wrs [(F.CLK_REF_CNT_REF, count), (F.CLK_STATUS_REF_OK, b2n good)]
  let s := { s with clk := { s.clk with refWins := if good then s.clk.refWins + 1 else 0 } }
  let s := match cause with
    | none => s.tryReturn
    | some c =>
      let s := if s.clk.fired then s else (if c = 2 then s.unrefWindow else s).freeze.unrefNow
      s.lose c
  let s := (allFin 32).foldl (fun s g =>
    let w := s.cycleNow g
    s.modGrove g fun k => { k with winCycle := w }) s
  .next { s with clk := { s.clk with fired := false, seen := s.clk.seen || good } }

/-- OSCILLATOR_SWITCHOVER (R353, R383): the master takes the oscillator as its reference, and shared time is compensated by
the oscillator's mean error. -/
def execOscillatorSwitchover (s : State) : Host.Outcome State Fault Refusal :=
  if s.rd F.CLK_STATUS_SRC = 1 ∧ s.on F.TIM_STATUS_UNREF = false then
    let ho := -s.tim.oscErr
    let s := { s with tim := s.tim.reRate s.tim.rate ho }
    .next ((s.wrs [(F.TIM_RATE_HO_RATE, zx 32 ho), (F.TIM_STATUS_UNREF, 1)]).event Ev.tim 2)
  else .next s

/-- A write of CLK_CTRL (R386, R389). -/
def State.clkCtrl (s : State) (w : Nat) : State :=
  let s := s.wrs [(F.CLK_CTRL_AUTO_RETURN, w), (F.CLK_CTRL_FORCE_INT, w / 4)]
  let s := if bitOf w 1 ∧ s.rd F.CLK_STATUS_SRC ≠ 0 then { s with clk := { s.clk with request := true } } else s
  s.tryReturn

/-- CLK_RETURN_WRITE (R386). [log 68: DEDUCED] -/
def execClkReturnWrite (req : Req) (w : Word) (s : State) : Host.Outcome State Fault Refusal :=
  .next (s.regWrite req F.CLK_CTRL_AUTO_RETURN.addr w fun s => s.clkCtrl w.toNat)

/-- FREQUENCY_LOCK (R386, step 1). -/
def execFrequencyLock (s : State) : Host.Outcome State Fault Refusal :=
  .next (if s.rd F.CLK_STATUS_SRC = 2 then { s with clk := { s.clk with locked := true } } else s)

/-- RETURN_COMPLETE (R353, R386, R387): the slew ends; cycles and shared time are referenced again, and what waited for the first
return starts. -/
def execReturnComplete (s : State) : Host.Outcome State Fault Refusal :=
  if s.rd F.CLK_STATUS_SRC = 2 ∧ s.clk.locked ∧ s.clk.fired = false then
    let s := { s with clk := { s.clk with frozen := false, locked := false, absent := false }, tim := s.tim.reRate s.tim.rate 0 }
    let s := s.wrs [(F.CLK_STATUS_SRC, 0), (F.TMG_STATUS_UNREF, 0), (F.TIM_RATE_HO_RATE, 0), (F.TIM_STATUS_UNREF, 0)]
    .next (((s.event Ev.clk 1).dualOff 3).noteAgreed.startLanes.sendPending)
  else .next s

/-! ## The oscillator monitor (R353, R388) -/

/-- Keeps the mean error of the oscillator over its latest 1024 windows: each counts 500 edges at nominal. [log 69: DEDUCED] -/
def State.oscMean (s : State) (count : Nat) : State :=
  let l := (count :: s.clk.counts).take 1024
  let sum : Int := (l.map fun c => (c : Int) - 500).sum
  let n : Int := 500 * l.length
  { s with clk := { s.clk with counts := l }, tim := { s.tim with oscErr := sum * 2 ^ 40 / n } }.wr F.CLK_OSC_ERR_ERR (zx 24 (sum * 100000000 / n))

/-- OSCILLATOR_MONITOR_WINDOW (R382, R388): a window of oscillator edges ends. [log 69: DEDUCED] -/
def execOscillatorMonitorWindow (count : Nat) (s : State) : Host.Outcome State Fault Refusal :=
  let good := decide (498 ≤ count) && decide (count ≤ 502)
  let s := s.wr F.CLK_REF_CNT_OSC count
  if !good then
    let s := { s with clk := { s.clk with oscWins := 0 } }
    .next (if s.rd F.CLK_STATUS_SRC = 0 then ((s.wr F.CLK_STATUS_OSC_OK 0).event Ev.clk 2).faultOnce 4 none else s)
  else
    let n := s.clk.oscWins + 1
    let s := { s with clk := { s.clk with oscWins := n } }
    let s := if s.returnWin ≤ n then s.wr F.CLK_STATUS_OSC_OK 1 else s
    .next (if s.on F.CLK_STATUS_OSC_OK then s.oscMean count else s)

/-- FORCE_INT_WRITE (R389): set, it makes a loss at the next window boundary; cleared, it permits the return. -/
def execForceIntWrite (req : Req) (w : Word) (s : State) : Host.Outcome State Fault Refusal :=
  .next (s.regWrite req F.CLK_CTRL_FORCE_INT.addr w fun s => s.clkCtrl w.toNat)

/-! ## CLKOUT (R390, R391) -/

/-- Nominal maxima of the sources in Hz. -/
def clkoutMax (src : Nat) : Nat :=
  [0, 3200000000, 100000000, 50000000, 1600000000, 800000000, 3200000000, 1400000000, 161132812, 4000000, 1000000000].getD src 0

/-- What CLKOUT drives for a selection (R390): a SEL outside its source's column is 0; an odd ratio is high for one period more
than it is low. -/
def clkoutOf (src sel div : Nat) : Option (Nat × Nat × Nat × Nat) :=
  let sels := [1, 1, 1, 1, 8, 1, 1, 8, 1, 16, 36].getD src 1
  if src = 0 ∨ 10 < src ∨ 200000000 * div < clkoutMax src then none
  else some (src, if sel < sels then sel else 0, (div + 1) / 2, div / 2)

/-- A write of CLKOUT_CFG: a selection too fast for the ball holds CLKOUT low (R390). -/
def State.clkout (s : State) (w : Nat) : State :=
  let src := fieldOf w 0 4
  let div := fieldOf w 16 16 + 1
  let fast := decide (200000000 * div < clkoutMax src)
  let s := s.wrs [(F.CLKOUT_CFG_SRC, src), (F.CLKOUT_CFG_SEL, w / 2 ^ 8), (F.CLKOUT_CFG_DIV, w / 2 ^ 16),
    (F.CLKOUT_STAT_ACTIVE, b2n (!fast && clkoutMax src != 0)), (F.CLKOUT_STAT_TOO_FAST, b2n fast)]
  let s := { s with clk := { s.clk with out := clkoutOf src (fieldOf w 8 6) div } }
  if fast then s.event Ev.clk 3 else s

/-- CLKOUT_CFG_WRITE (R390, R391). -/
def execClkoutCfgWrite (req : Req) (w : Word) (s : State) : Host.Outcome State Fault Refusal :=
  .next (s.regWrite req F.CLKOUT_CFG_SRC.addr w fun s => s.clkout w.toNat)

end Sys2Proof.Machine
end

