-- ==== Sys2Proof/Machine/Loop.lean ====
section
/-! DEFINITION. The loop engine (R239 to R265): samples, mode requests, the control law with its hand-over, relay auto-tune,
profile slots and trace buffers. -/

namespace Sys2Proof.Machine

/-! ## Mode requests (R242, R243, R251) -/

/-- Whether a reload holds the channel (R64): from QUIESCING on, a channel that is not in DISCONNECT keeps its mode. -/
def State.reloadHolds (s : State) : Bool := decide (5 ≤ s.rd F.STR_STATUS_STATE)

/-- Whether a mode request is refused. -/
def State.modeRefused (s : State) (d : Fin 16) (mode : Nat) : Bool :=
  let cur := s.dscMode d
  decide (4 < mode) || (mode != 0 && !s.dscBound d) ||
    (mode == 4 && !((cur == 1 && s.rd (F.DSC_AT_CFG_TARGET d) == 0) || (cur == 2 && s.rd (F.DSC_AT_CFG_TARGET d) == 1))) ||
    (cur == 4 && mode != 0) || (mode != 0 && s.fltHeld d) ||
    decide (2 ≤ s.rd F.FLT_STATUS_STATE) || s.reloadHolds || s.selfChecking d

/-- DSC_MODE_REQUEST (R242): refused with BAD_REQ, or noted for the next sample; DISCONNECT opens the stage at once. -/
def State.requestMode (s : State) (d : Fin 16) (mode : Nat) (discAfter : Bool) : State :=
  let s := s.wrs [(F.DSC_CTRL_MODE d, mode), (F.DSC_CTRL_DISC_AFTER d, b2n discAfter)]
  if s.modeRefused d mode then s.event (Ev.dsc d) 0
  else if mode = 0 then
    let s := if s.dscMode d = 4 ∧ s.rd (F.DSC_AT_STATUS_RESULT d) = 0 then
        (s.wr (F.DSC_AT_STATUS_RESULT d) 5).event (Ev.dsc d) 5
      else s
    s.dscOpen d 0
  else
    let m := if mode = 1 ∧ s.dscMode d = 0 then 3 else mode
    s.modDsc d fun k => { k with req := some m }

/-- The active set, by index (R249). -/
def State.coefs (s : State) (d : Fin 16) : List Bfp :=
  (List.range 14).map fun c => s.bfpAt (F.DSC_COEF_ACT_M d c) (F.DSC_COEF_ACT_E d c)

/-- A coefficient of a sample's set. -/
def DscSamp.c (x : DscSamp) (n : Nat) : Bfp := x.coef.getD n {}

/-- Copies pending coefficients into the active set. -/
def State.commitCoefs (s : State) (d : Fin 16) : State :=
  (List.range 14).foldl (fun s c =>
    s.wrs [(F.DSC_COEF_ACT_M d c, s.rd (F.DSC_COEF_M d c)), (F.DSC_COEF_ACT_E d c, s.rd (F.DSC_COEF_E d c)),
      (F.DSC_COEF_ACT_PAR d c, s.rd (F.DSC_COEF_PAR d c))]) s

/-- A request takes effect at a sample: RAMP starts its working set point at the measured voltage from DISCONNECT and at the one
in force otherwise; AUTOTUNE keeps the loops' roles (R243, R251, R252). The law takes up the new mode when it computes that
sample. [log 51: DEDUCED] -/
def State.enterMode (s : State) (d : Fin 16) (mode : Nat) (v : Int) : State :=
  let old := s.dscMode d
  let s := s.endPass d
  let s := if mode = 3 ∧ old = 0 then s.modDsc d fun k => { k with vset := v * 2 ^ 20, vPrev := v } else s
  let s := if mode = 4 then s.wrs [(F.DSC_AT_STATUS_RESULT d, 0), (F.DSC_AT_STATUS_CYCLES d, 0)]
    else s.modDsc d fun k => { k with fcur := mode == 2 }
  s.wr (F.DSC_STATUS_MODE d) mode

/-- The first sample of AUTOTUNE: the engine records U0 = u[n − 1] and the coefficients of the relay (R249, R252). -/
def State.tuneStart (s : State) (d : Fin 16) (x : DscSamp) (old : Nat) : State :=
  s.modDsc d fun k =>
    { k with tune := some { from_ := old, u0 := k.lastU, uc := k.lastU, h := x.c 11, emax := x.c 12, eps := x.c 13 } }

/-! ## A sample (R240, R267 to R270) -/

/-- What a loop sample gives the trigger engines (R203, R207): crossings of the level, and a sample for KIND 3. -/
def State.trgLoop (s : State) (d : Fin 16) (v i : Int) (low drop : Bool) : State :=
  (allFin 4).foldl (fun s (e : Fin 4) =>
    if s.rd (F.TRG_SRC_DSC e) ≠ d.1 then s
    else
      let q := if s.on (F.TRG_SRC_DSC_QTY e) then i else v
      let was := s.acq.trg[e].qty
      let level := s.rdS (F.TRG_DSC_LEVEL_LEVEL e)
      let s := s.modTrg e fun k => { k with qty := some q }
      let up : Bool := match was with
        | some w => decide (w < level) && decide (level ≤ q)
        | none => false
      let down : Bool := match was with
        | some w => decide (level < w) && decide (q ≤ level)
        | none => false
      let s := if s.qsrc e = 4 ∧ ((s.dscev e = 3 ∧ up) ∨ (s.dscev e = 4 ∧ down)) then s.qualEvent e s.fuNow else s
      if s.trgState e = 0 ∨ s.acq.trg[e].kind ≠ 3 then s
      else
        let div := max 1 (s.rd (F.TRG_TIMING_DIV e))
        let x : TrgSamp :=
          { time := s.fuNow, value := zx 24 v + 2 ^ 24 * zx 24 i + 2 ^ 48 * b2n low, lost := false, drop := drop, unref := s.unref, void := false }
        let f : TrgFeed := { samp := x, judged := 0, mark := 0, segs := false }
        let take := s.acq.trg[e].divCnt = 0
        s.modTrg e fun k => { k with divCnt := (k.divCnt + 1) % div, feed := if take then k.feed ++ [f] else k.feed }) s

/-- Converts a sample (R268 to R270): raw codes, range state, voltage and current. -/
def State.convert (s : State) (d : Fin 16) (v ihg ilg : Nat) (ovld : Bool) : State :=
  let low := rangeLow (s.rd (F.CMP_RANGE_STATE d)) (sx 14 ihg) ovld
  let turned := b2n low != s.rd (F.CMP_RANGE_STATE d)
  let i := s.senseI d (if low then sx 14 ilg else sx 14 ihg) low
  let s := s.wrs [(F.CMP_RAW_V_V d, v), (F.CMP_RAW_V_VSAT d, b2n (v % 16384 == 0 || v % 16384 == 16383)),
    (F.CMP_RAW_I_HG d, ihg), (F.CMP_RAW_I_OVLD d, b2n ovld), (F.CMP_RAW_I_LG d, ilg), (F.CMP_RANGE_STATE d, b2n low),
    (F.DSC_VMEAS_UV d, zx 24 (senseV v)), (F.DSC_IMEAS_I d, zx 24 i), (F.DSC_IMEAS_IRANGE d, b2n low)]
  if turned then (s.incWrap (F.CMP_RANGE_SWITCHES d)).event (Ev.cmp d) 2 else s

/-- The over-current source on delivered currents (R275): beyond 1.25 × I_MAX for 4 consecutive samples. [log 54: DEDUCED] -/
def State.overCurrent (s : State) (d : Fin 16) (i : Int) : State :=
  let beyond := decide (5 * s.iMax d < 4 * i.natAbs)
  let c := if beyond then s.dscs[d].overI + 1 else 0
  let s := s.modDsc d fun k => { k with overI := c }
  let cycles := max 1 (s.rd (F.CMP_OC_CFG_CYCLES d))
  if 4 ≤ c then s.dualRaise (48 + d.1)
  else if s.flt.active.contains (48 + d.1) ∧ s.dscs[d].pgn.cuts < cycles then s.dualOff (48 + d.1) else s

/-- The index the active pass gives a sample, and the pass moved on (R257, R258). -/
def State.passIndex (s : State) (d : Fin 16) : Option (Nat × Nat) × State :=
  match s.dscs[d].pass with
  | some p =>
    if p.ran then (none, s)
    else (some (p.start, p.k), (s.modDsc d fun k => { k with pass := some { p with k := p.k + 1 } }).notePass d)
  | none => (none, s)

/-- The working set point of a sample (R243): RAMP moves it towards DSC_VSET by SLOPE × Ts, the other modes take DSC_VSET.
[log 50: DESIGN CHOICE] -/
def State.moveVset (s : State) (d : Fin 16) : State :=
  let goal : Int := s.rd (F.DSC_VSET_UV d) * 2 ^ 20
  if s.dscMode d = 3 then
    let step : Int := max 1 (s.rd (F.DSC_SLOPE_UV_PER_US d)) * 1000 * 2 ^ 20 / s.rate d
    s.modDsc d fun k => { k with vset := if k.vset ≤ goal then min goal (k.vset + step) else max goal (k.vset - step) }
  else if s.dscMode d = 1 ∨ s.dscMode d = 4 then s.modDsc d fun k => { k with vset := goal }
  else s

/-- Opens the stage where DSC_FLT_L is low, or a control register's parity is bad (R249, R265). [log 54: DEDUCED] -/
def State.sampleFaults (s : State) (d : Fin 16) (parity : Bool) : State :=
  let s := if parity then
      let s := if s.dscMode d = 0 ∨ s.ramping d then s else s.dscOpen d 2
      (s.event (Ev.dsc d) 8).faultOnce 15 (s.groveOfDsc d)
    else s
  if s.fltHeld d && s.dscMode d != 0 && !s.ramping d then s.dscOpen d 1 else s

/-- The trace entry of a sample dropped at its FIFO, which repeats the nodes traced last (R240, R263). -/
def State.traceDrop (s : State) (d : Fin 16) (low : Bool) : State :=
  let nodes := s.dscs[d].nodes
  s.traceSample d { node := fun n => nodes.getD n {}, low := low, gov := s.on (F.DSC_STATUS_GOV d), drop := true
                    pass0 := false, late := false, slot := none, mode := s.dscMode d } 0

/-- A sample that finds four waiting for the loop engine: the oldest is dropped and counted, no command is computed for it, its
pass is not clean, and a mode it was to enter is entered at the next (R21, R240, R242). [log 168: DEDUCED] -/
def State.dropOldest (s : State) (d : Fin 16) : State :=
  match s.dscs[d].wait with
  | x :: y :: rest =>
    if rest.length < 2 then s
    else
      let entry := if x.entry = some 0 ∨ y.entry = none then x.entry else y.entry
      let s := s.modDsc d fun k => { k with wait := { y with entry := entry } :: rest, drops := k.drops + 1 }
      (s.soilOf d x).traceDrop d x.low
  | _ => s

/-- A sample that starts a computation, unless it is dropped: a dropped one begins none, so a mode request waits for the next
(R240, R242). -/
def State.startSample (s : State) (d : Fin 16) (v i : Int) (low drop : Bool) : State :=
  let k := s.dscs[d]
  let s := if k.commit then (s.commitCoefs d).modDsc d fun k => { k with commit := false } else s
  let entry := if drop then none else k.req.filter fun m => m != s.dscMode d
  let old := s.dscMode d
  let s : State := match entry with
    | some m => s.enterMode d m v
    | none => s
  let s := (if drop then s else s.modDsc d fun k => { k with req := none }).moveVset d
  let s := if s.rcOn d then s else s.endPass d
  let rc := (s.dscs[d].pass.bind fun p => p.len.map fun l => (p.slot, (p.k + p.lead) % max 1 l))
  let r := s.passIndex d
  let s := r.2
  if s.dscMode d = 0 then s
  else if drop then s.soilPass d
  else
    let s := s.dropOldest d
    let k := s.dscs[d]
    let x : DscSamp :=
      { no := k.n, v := v, i := i, low := low, mode := s.dscMode d, fcur := k.fcur, entry := entry.map fun _ => old, vset := k.vset
        coef := s.coefs d, pass := r.1, rc := if r.1.isSome then rc else none }
    s.modDsc d fun k => { k with wait := k.wait ++ [x] }

/-- LOOP_SAMPLE (R240, R267 to R270): the ADCs convert, the command of D samples ago is latched, and the computation of this
sample starts. A sample dropped at its FIFO, or taken in a self-check, repeats the last values. -/
def State.loopSample (s : State) (d : Fin 16) (v ihg ilg : Nat) (ovld parity dropped : Bool) : State :=
  let drop := dropped || s.selfChecking d
  let n := s.dscs[d].n
  let s : State := match s.dscs[d].cmds.find? fun c => decide (c.1 + s.delayD d = n) with
    | some (no, u) => if s.ramping d then s else s.latchDuty d no u
    | none => s
  let s := s.modPgn d fun p => { p with samp := p.samp + 1 }
  let s := if drop then s else s.convert d v ihg ilg ovld
  let vm := s.rdS (F.DSC_VMEAS_UV d)
  let im := s.rdS (F.DSC_IMEAS_I d)
  let low := s.on (F.DSC_IMEAS_IRANGE d)
  let s := s.trgLoop d vm im low drop
  let s := s.sampleFaults d parity
  let s := if drop then s else s.overCurrent d im
  let s := if s.ramping d then s else s.startSample d vm im low drop
  let s := s.modDsc d fun k => { k with n := k.n + 1 }
  if drop then s.traceDrop d low
  else if s.dscMode d = 0 then
    let nodes := [bfpOf ((vm : ℚ) / 1000000), bfpOf ((im : ℚ) / 100000)]
    (s.modDsc d fun k => { k with nodes := nodes }).traceSample d
      { node := fun n => nodes.getD n {}, low := low, gov := false, drop := false, pass0 := false, late := false, slot := none, mode := 0 } 0
  else s

/-! ## The control law (R248 to R251) -/

/-- What the law computes for one sample before selection: `iv` and `ii` are the integrator states as rounded into stage 2. -/
structure Law where
  ev : Bfp
  ei : Bfp
  pv : Bfp
  pi : Bfp
  dv : Bfp
  rc : Bfp
  iv : ℚ
  ii : ℚ
  sat : Bool

/-- Stages 1 and 2 of one sample (R246, R248). [log 49: DESIGN CHOICE] -/
def State.lawTerms (s : State) (d : Fin 16) (x : DscSamp) : Law :=
  let k := s.dscs[d]
  let fcur := x.fcur
  let c := fun n => (x.c n).val
  let vt : ℚ := if fcur then (s.rd (F.DSC_VCLAMP_UV d) : ℚ) / 1000000 else (x.vset : ℚ) / 2 ^ 20 / 1000000
  let it : ℚ := (if fcur then s.rdS (F.DSC_ISET_I d) else s.rdS (F.DSC_ILIM_I d) : ℤ) / 100000
  let s1 := stage 18 [vt - (x.v : ℚ) / 1000000, it - (x.i : ℚ) / 100000, ((k.vPrev : ℚ) - x.v) / 1000000]
  let at_ := fun (l : List Bfp) n => l.getD n {}
  let ev := at_ s1.1 0
  let ei := at_ s1.1 1
  let rc : ℚ := if fcur then 0 else
    match x.rc with
    | some (p, at_) => (⟨k.slots[p].q.getD at_ 0, k.slots[p].e⟩ : Bfp).val
    | none => 0
  let s2 := stage 18 [c 0 * ev.val, c 5 * ei.val, c 3 * k.dv.val + c 2 * (1 - c 3) * (at_ s1.1 2).val, rc, k.iv.val, k.ii.val]
  { ev := ev, ei := ei, pv := at_ s2.1 0, pi := at_ s2.1 1, dv := at_ s2.1 2, rc := at_ s2.1 3
    iv := (at_ s2.1 4).val, ii := (at_ s2.1 5).val, sat := s1.2 || s2.2 }

/-- The outcome of selection: the integrators as the law goes on with them, outputs, the selected output, the governor, the count
of R250. -/
structure Selected where
  iv : ℚ
  ii : ℚ
  uv : Bfp
  ui : Bfp
  uc : Bfp
  gov : Bool
  under : Nat
  sat : Bool

/-- The selected output of two. -/
def Selected.pick (r : Selected) (current : Bool) : Selected := { r with uc := if current then r.ui else r.uv }

/-- Stage 3 with integrators of given values; the loops' outputs without a selection. -/
def Law.outs (l : Law) (iv ii ov oi : ℚ) : Selected :=
  let o := stage 18 [l.pv.val + l.dv.val + l.rc.val + ov, l.pi.val + oi]
  { iv := iv, ii := ii, uv := o.1.getD 0 {}, ui := o.1.getD 1 {}, uc := {}, gov := false, under := 0, sat := o.2 }

/-- The hand-over to a loop: its integrator is preloaded so that its output equals a duty (R250, R251, R254); the other keeps its
held state. -/
def Law.handOver (l : Law) (k : Dsc) (current : Bool) (u : ℚ) : Selected :=
  let i := if current then u - l.pi.val else u - (l.pv.val + l.dv.val + l.rc.val)
  ((if current then l.outs k.iv.val i l.iv i else l.outs i k.ii.val i l.ii)).pick current

/-- Stages 3 and 4: outputs, hand-over and selection (R250, R251). `relay` is the primary's output in AUTOTUNE, which enters and
leaves government without a preload of its own. An integrator state is rounded into stage 2 for its output only (R246). -/
def State.select (s : State) (d : Fin 16) (x : DscSamp) (l : Law) (relay : Option Bfp) : Selected :=
  let k := s.dscs[d]
  let prev := k.lastU.val
  let dmax : ℚ := (max (s.rd (F.DSC_DLIM_DMAX d)) (s.rd (F.DSC_DLIM_DMIN d)) : ℕ) / 65536
  let pre : ℚ := (s.rd (F.DSC_PRELOAD_DUTY d) : ℚ) / 65536
  match relay, x.entry with
  | none, some 0 => if x.fcur then (l.outs dmax pre dmax pre).pick true else (l.outs pre dmax pre dmax).pick false
  | none, some _ => l.handOver k x.fcur prev
  | _, _ =>
    let r := l.outs k.iv.val k.ii.val l.iv l.ii
    let prim := relay.getD (if x.fcur then r.ui else r.uv)
    let lim := if x.fcur then r.uv else r.ui
    if s.on (F.DSC_STATUS_GOV d) = false then
      if lim.val < prim.val then { l.handOver k (!x.fcur) prev with gov := true } else { r with uc := prim }
    else
      let c := if prim.val < lim.val then k.under + 1 else 0
      if c < 16 then { r with uc := lim, gov := true, under := c }
      else if relay.isSome then { r with uc := prim }
      else l.handOver k x.fcur prev

/-! ## Relay auto-tune (R252 to R255) -/

/-- π to 40 digits. -/
def piQ : ℚ := 31415926535897932384626433832795028841971 / 10 ^ 40

/-- A square root to at least 60 bits. -/
def sqrtQ (q : ℚ) : ℚ := (Nat.sqrt (⌊q * 2 ^ 160⌋).toNat : ℚ) / 2 ^ 80

/-- Whether the latest NCYC cycles agree within ±1 sample and ±5 % (R253). -/
def settled (n : Nat) (l : List (Nat × Nat)) : Bool :=
  let c := l.take n
  let p := (c.map fun x => (x.1 : ℚ)).sum / n
  let a := (c.map fun x => (x.2 : ℚ)).sum / n
  decide (c.length = n) && c.all fun x =>
    decide ((x.1 : ℚ) - p ≤ 1) && decide (p - x.1 ≤ 1) && decide (20 * ((x.2 : ℚ) - a) ≤ a) && decide (20 * (a - (x.2 : ℚ)) ≤ a)

/-- The gain 4H ÷ (π √(a² − EPS²)) of a settled relay (R253); where the amplitude does not exceed EPS the spec gives it no value,
and it is free. [log 52: DESIGN CHOICE] -/
def State.tuneGain (s : State) (t : AutoTune) (a : ℚ) : ℚ × State :=
  let rad := a * a - t.eps.val * t.eps.val
  if rad ≤ 0 then (fun f : Nat × State => (((f.1 % 2 ^ 18 : Nat) : ℚ), f.2)) s.takeFree else (4 * t.h.val / (piQ * sqrtQ rad), s)

/-- Writes the auto-tune results and proposals (R253), and says whether one saturated (R247). [log 52: DESIGN CHOICE] -/
def State.tuneDone (s : State) (d : Fin 16) (t : AutoTune) (cur : Bool) : State × Bool :=
  let n := max 2 (s.rd (F.DSC_AT_CFG_NCYC d))
  let c := t.cycles.take n
  let tu : ℚ := (c.map fun x => (x.1 : ℚ)).sum / n
  let a : ℚ := (c.map fun x => (x.2 : ℚ)).sum / n / 2 / (if cur then 100000 else 1000000)
  let r := s.tuneGain t a
  let ku := r.1
  let s := r.2
  let g : ℚ × ℚ × ℚ := match s.rd (F.DSC_AT_CFG_RULE d) with
    | 1 => (33 / 100 * ku, tu / 2, tu / 3)
    | 2 => (45 / 100 * ku, tu * 10 / 12, 0)
    | _ => (6 / 10 * ku, tu / 2, tu / 8)
  let props : List (Nat × ℚ) := [(0, g.1), (1, g.1 / g.2.1), (2, g.1 * g.2.2)]
  let s := s.putBfp (F.DSC_AT_KU_M d) (F.DSC_AT_KU_E d) (bfpOf ku)
  let s := s.wrs [(F.DSC_AT_TU_TU d, min 65535 (⌊tu * 16 + 1 / 2⌋).toNat), (F.DSC_AT_STATUS_RESULT d, 1)]
  let s := props.foldl (fun s p => s.putBfp (F.DSC_AT_PROP_M d p.1) (F.DSC_AT_PROP_E d p.1) (bfpOf p.2)) s
  (s, bfpSat ku || props.any fun p => bfpSat p.2)

/-- Writes a coefficient with its parity. -/
def State.putCoef (s : State) (d : Fin 16) (c : Nat) (x : Bfp) (active : Bool) : State :=
  let w := zx 18 x.m + 2 ^ 18 * x.e
  if active then s.wrs [(F.DSC_COEF_ACT_M d c, zx 18 x.m), (F.DSC_COEF_ACT_E d c, x.e), (F.DSC_COEF_ACT_PAR d c, parityOf w)]
  else s.wrs [(F.DSC_COEF_M d c, zx 18 x.m), (F.DSC_COEF_E d c, x.e), (F.DSC_COEF_PAR d c, parityOf w)]

/-- The proposals written into the active and pending sets in place of the target loop's KP, KI and KD (R254). -/
def State.applyTune (s : State) (d : Fin 16) (cur : Bool) : State :=
  (if cur then [(0, 5), (1, 6)] else [(0, 0), (1, 1), (2, 2)]).foldl (fun s (p : Nat × Nat) =>
    let x := s.bfpAt (F.DSC_AT_PROP_M d p.1) (F.DSC_AT_PROP_E d p.1)
    (s.putCoef d p.2 x true).putCoef d p.2 x false) s

/-- The relay at a sample: its output, whether it switched up, whether it switched at all, and whether its output saturated. -/
structure Relay where
  uc    : Bfp
  up    : Bool
  cross : Bool
  sat   : Bool

/-- The relay of one sample (R252): above EPS it stands at U0 + H, below −EPS at U0 − H, and between where it was. -/
def AutoTune.relay (t : AutoTune) (e : ℚ) : Relay :=
  let put := fun (up : Bool) (u : ℚ) =>
    (⟨bfpOf u, up && t.high != some true, t.high != some up, bfpSat u⟩ : Relay)
  if t.eps.val < e then put true (t.u0.val + t.h.val)
  else if e < -t.eps.val then put false (t.u0.val - t.h.val)
  else ⟨t.uc, false, false, false⟩

/-- The error exceeds AT_EMAX before a result stands (R255). [log 52: DESIGN CHOICE] -/
def AutoTune.excursion (t : AutoTune) (e : ℚ) : Bool := !t.done && decide (t.emax.val < |e|)

/-- Whether AUTOTUNE ends at a sample (R254, R255): at once on an excursion, at an upward crossing once it is done, at a
crossing once it has failed. -/
def AutoTune.ends (t : AutoTune) (r : Relay) (e : ℚ) : Bool := t.excursion e || (r.up && t.done) || (r.cross && t.leave)

/-- One sample of the relay's bookkeeping (R253, R255); `limited` says that the limiter or a duty limit governed, and the answer
holds the event bits. A period counts every sample, dropped ones too. [log 52: DESIGN CHOICE] -/
def State.tuneStep (s : State) (d : Fin 16) (t : AutoTune) (r : Relay) (x : DscSamp) (limited : Bool) : State × Nat :=
  let cur := t.from_ == 2
  let meas := if cur then x.i else x.v
  let closed := r.up && t.started
  let cyc := if closed then (x.no - t.n, (t.hi - t.lo).toNat) :: t.cycles else t.cycles
  let t := { t with uc := r.uc, high := if r.cross then some r.up else t.high, limited := if limited then t.limited + 1 else 0 }
  let t := if r.up then { t with started := true, n := x.no, hi := meas, lo := meas, cycles := cyc }
    else { t with hi := max t.hi meas, lo := min t.lo meas }
  let s := if closed then s.incSat (F.DSC_AT_STATUS_CYCLES d) else s
  let put := fun (s : State) (t : AutoTune) => s.modDsc d fun k => { k with tune := some t }
  let fail := fun (s : State) (code : Nat) => (put (s.wr (F.DSC_AT_STATUS_RESULT d) code) { t with leave := true }, 2 ^ 5)
  let open_ := !t.done && !t.leave
  if open_ && closed && settled (max 2 (s.rd (F.DSC_AT_CFG_NCYC d))) t.cycles then
    let q := s.tuneDone d t cur
    (put q.1 { t with done := true }, 2 ^ 4 + 2 ^ 10 * b2n q.2)
  else if open_ && decide (16 ≤ t.limited) then fail s 3
  else if open_ && closed && decide (max 1 (s.rd (F.DSC_AT_CFG_MAXCYC d)) ≤ t.cycles.length) then fail s 4
  else (put s t, 0)

/-! ## A computation completes (R240, R248) -/

/-- The error of a pass index is learned (R259), in the active pass or in one that waits for its last errors. -/
def State.learn (s : State) (d : Fin 16) (x : DscSamp) (ev : Bfp) (gov : Bool) : State :=
  match x.pass with
  | none => s
  | some (st, _) =>
    let add := fun p : RcPass => if p.start = st then { p with ev := p.ev ++ [ev], clean := p.clean && !gov } else p
    s.modDsc d fun k => { k with pass := k.pass.map add, closing := k.closing.map add }

/-- The end of a ramp (R243): once the working set point stands at DSC_VSET and the primary governs, and whether it came. A mode
requested since then stands. [log 52: DESIGN CHOICE] -/
def State.rampEnd (s : State) (d : Fin 16) (x : DscSamp) : State × Bool :=
  if x.mode = 3 ∧ x.vset = s.rd (F.DSC_VSET_UV d) * 2 ^ 20 ∧ s.on (F.DSC_STATUS_GOV d) = false then
    if s.dscMode d ≠ 3 then (s, false)
    else if s.on (F.DSC_CTRL_DISC_AFTER d) ∧ s.rd (F.DSC_VSET_UV d) = 0 then (s.dscOpen d 0, true)
    else (s.wr (F.DSC_STATUS_MODE d) 1, true)
  else (s, false)

/-- The duty command of a selected output: within DMIN and DMAX (R248). -/
def State.limitDuty (s : State) (d : Fin 16) (uc : Bfp) : ℚ :=
  let dmin : ℚ := (s.rd (F.DSC_DLIM_DMIN d) : ℚ) / 65536
  let dmax : ℚ := (max (s.rd (F.DSC_DLIM_DMAX d)) (s.rd (F.DSC_DLIM_DMIN d)) : ℕ) / 65536
  min (max uc.val dmin) dmax

/-- The end of the law of one sample: its command, the integrators moved by their held states (R246, R248), the governor, and what
the channel learns and traces; `bits` are event bits of the auto-tune. All event bits of a sample are one occurrence (R513).
[log 49: DESIGN CHOICE] -/
def State.lawEnd (s : State) (d : Fin 16) (x : DscSamp) (l : Law) (r : Selected) (bits : Nat) (late : Bool) (behind : Nat) : State :=
  let k := s.dscs[d]
  let u := bfpOf (s.limitDuty d r.uc)
  let ud := ((k.cmds.find? fun c => c.1 + s.delayD d == x.no).map (·.2.val)).getD k.pgn.duty.val
  let ua := s.appliedDuty d x.no
  let w := (u.val - r.uc.val) + (ua - ud)
  let c := fun n => (x.c n).val
  let iv := held36 (r.iv + c 1 * l.ev.val + c 4 * (r.uc.val - r.uv.val + w))
  let ii := held36 (r.ii + c 6 * l.ei.val + c 7 * (r.uc.val - r.ui.val + w))
  let was := s.on (F.DSC_STATUS_GOV d)
  let s := s.modDsc d fun k => { k with iv := iv.1, ii := ii.1, dv := l.dv, vPrev := x.v, lastU := u, under := r.under }
  let s := s.wrs [(F.DSC_STATUS_GOV d, b2n r.gov), (F.DSC_DUTY_CMD d, min 65535 (⌊u.val * 65536 + 1 / 2⌋).toNat)]
  let turned := 2 ^ 2 * b2n (r.gov && !was) + 2 ^ 3 * b2n (!r.gov && was && x.entry.isNone)
  let s := s.learn d x l.ev r.gov
  let nodes : List Bfp := [bfpOf ((x.v : ℚ) / 1000000), bfpOf ((x.i : ℚ) / 100000), bfpOf ((x.vset : ℚ) / 2 ^ 20 / 1000000), l.ev, r.uv,
    r.ui, u, bfpOf ua, bfpOf iv.1.val, bfpOf ii.1.val, l.rc, l.ei]
  let s := if late then ((s.incSat (F.DSC_LATE_CNT_COUNT d)).soilOf d x).modDsc d fun k => { k with nodes := nodes }
    else s.modDsc d fun k => { k with nodes := nodes, cmds := ((x.no, u) :: k.cmds).take 6 }
  let e := s.rampEnd d x
  let s := e.1.raise (Ev.dsc d)
    (bits ||| turned ||| 2 ^ 1 * b2n e.2 ||| 2 ^ 7 * b2n late ||| 2 ^ 10 * b2n (l.sat || r.sat || iv.2 || ii.2))
  s.traceSample d { node := fun n => nodes.getD n {}, low := x.low, gov := r.gov, drop := false, pass0 := x.pass.any fun p => p.2 == 0
                    late := late, slot := s.dscs[d].pass.map (·.slot.1), mode := x.mode } behind

/-- The law of one sample (R248, R252 to R255). In AUTOTUNE a relay stands in the primary's place; at the sample where it ends,
the proposals are applied if asked, the target loop is preloaded to U0, and the governor is PRIMARY. [log 49: DESIGN CHOICE] -/
def State.lawStep (s : State) (d : Fin 16) (x : DscSamp) (late : Bool) (behind : Nat) : State :=
  let s : State := match x.entry with
    | some old => if x.mode = 4 then s.tuneStart d x old else s
    | none => s
  let l := s.lawTerms d x
  match s.dscs[d].tune with
  | none => s.lawEnd d x l (s.select d x l none) 0 late behind
  | some t =>
    let e := if x.fcur then l.ei.val else l.ev.val
    let r := t.relay e
    if t.ends r e then
      let s := (s.modDsc d fun k => { k with tune := none }).wr (F.DSC_STATUS_MODE d) t.from_
      let failed := t.excursion e && !t.leave
      let s := if failed then s.wr (F.DSC_AT_STATUS_RESULT d) 2 else s
      let apply := t.done && s.on (F.DSC_AT_CFG_APPLY d)
      let s := if apply then s.applyTune d x.fcur else s
      let x := if apply then { x with coef := s.coefs d } else x
      let l := s.lawTerms d x
      s.lawEnd d x l (l.handOver s.dscs[d] x.fcur t.u0.val) (2 ^ 5 * b2n failed) late behind
    else
      let q := s.select d x l (some r.uc)
      let p := s.tuneStep d t r x (q.gov || (bfpOf (s.limitDuty d q.uc)).val != q.uc.val)
      p.1.lawEnd d x l q (p.2 ||| 2 ^ 10 * b2n r.sat) late behind

/-! ## Meanings -/

/-- DSC_MODE_REQUEST (R242). -/
def execDscModeRequest (d : Fin 16) (mode : Nat) (discAfter : Bool) (s : State) : Host.Outcome State Fault Refusal :=
  .next (s.requestMode d mode discAfter)

/-- DSC_COMMIT (R249): the pending set becomes active at the next sample boundary. -/
def execDscCommit (d : Fin 16) (s : State) : Host.Outcome State Fault Refusal :=
  .next (s.modDsc d fun k => { k with commit := true })

/-- DSC_RC_BIND_WRITE (R256): a write with VALID clears the profile and gives EMPTY; without it the slot is unbound. -/
def State.rcBind (s : State) (d : Fin 16) (p : Fin 4) (w : Word) : State :=
  let s := (if (s.dscs[d].pass.map (·.slot)) = some p then s.endPass d else s).dropClosing d (some p)
  let s := s.wrs [(F.DSC_RC_BIND_SEG d p, fieldOf w.toNat 0 16), (F.DSC_RC_BIND_GEN d p, fieldOf w.toNat 16 8),
    (F.DSC_RC_BIND_VALID d p, fieldOf w.toNat 24 1)]
  if w.getLsbD 24 then
    (s.modDsc d fun k => { k with slots := upd k.slots p fun _ => {} }).wrs
      [(F.DSC_RC_STAT_STATE d p, 1), (F.DSC_RC_STAT_L d p, min 4096 (s.rd (F.DSC_RC_LEN_LEN d p)))]
  else s.wr (F.DSC_RC_STAT_STATE d p) 0

/-- DSC_RC_BIND_WRITE (R256): binds a profile slot, or clears it. -/
def execDscRcBindWrite (d : Fin 16) (p : Fin 4) (w : Word) (s : State) : Host.Outcome State Fault Refusal := .next (s.rcBind d p w)

/-- LOOP_SAMPLE (R240, R267): a bound channel samples at its sample instants, whatever its mode. -/
def execLoopSample (d : Fin 16) (v ihg ilg : Nat) (ovld parityError dropped : Bool) (s : State) : Host.Outcome State Fault Refusal :=
  .next (if s.dscBound d && s.sampleDue d then s.loopSample d v ihg ilg ovld parityError dropped else s)

/-- LOOP_COMPUTE_DONE (R240, R248): the oldest computation completes; its command is late once its sample instant has passed. -/
def execLoopComputeDone (d : Fin 16) (behind : Nat) (s : State) : Host.Outcome State Fault Refusal :=
  match s.dscs[d].wait with
  | [] => .next s
  | x :: r =>
    let s := s.modDsc d fun k => { k with wait := r }
    .next (s.lawStep d x (decide (x.no + s.delayD d < s.dscs[d].n)) behind)

/-- DSC_MARKER_DELIVERY (R98, R150, R257): a loop-start delivery of a thread reaches the channels of its groves, unless its
segment pair is neither current nor retiring. -/
def execDscMarkerDelivery (t : Fin 32) (seg gen word depth : Nat) (s : State) : Host.Outcome State Fault Refusal :=
  if s.segLive t seg gen = false then .next s.staleSeg
  else
    let gs := grovesIn s.threads[t].members
    .next ((gs.flatMap s.dscsOf).foldl (fun s d => s.dscDeliver d ⟨seg, gen, word, depth⟩) s)

/-- RC_PASS_COMPLETE (R258, R259): the active pass of a slot, or one that waited for its last errors, has run its length. -/
def execRcPassComplete (d : Fin 16) (p : Fin 4) (s : State) : Host.Outcome State Fault Refusal :=
  match s.dscs[d].closing.find? fun x => x.slot == p && (!x.clean || decide (x.k ≤ x.ev.length)) with
  | some x =>
    .next ((s.modDsc d fun k => { k with closing := k.closing.filter fun y => y.start != x.start }).settlePass d x)
  | none =>
    match s.dscs[d].pass with
    | some x => .next (if x.slot = p ∧ x.ran then s.endPass d else s)
    | none => .next s

/-- DSC_SCRUB (R249): the scrubber meets a control register with bad parity in one channel, or none. -/
def execDscScrub (hit : Option (Fin 16)) (s : State) : Host.Outcome State Fault Refusal :=
  match hit with
  | some d => .next (s.sampleFaults d true)
  | none => .next s

/-- Places and arms a trace buffer, or disables it (R151, R263, R264). -/
def State.traceCtrl (s : State) (b : Fin 16) (en : Bool) : State :=
  let s := s.wr (F.TRC_CTRL_EN b) (b2n en)
  let drop := s.forest.traces.filter fun p => p.1 != b.1
  if en then
    let old := (s.forest.traces.find? fun p => p.1 == b.1).map (·.2)
    let s := { s with forest := { s.forest with traces := drop } }
    let s := old.elim s s.freePlace
    match s.canopyRun 4 4 with
    | some page =>
      let f := { s.forest.take 4 page 4 with traces := (b.1, ⟨false, page, 4 * canopyPage⟩) :: drop }
      let start := s.rd (F.TRC_CFG_START b)
      let s := { s with forest := f, trcs := upd s.trcs b fun _ => { seen := s.trcs[b].seen } }
      s.wrs [(F.TRC_LOC_PAGE b, page), (F.TRC_COUNT_ENTRIES b, 0), (F.TRC_STATUS_STATE b, if start = 0 ∨ 4 < start then 2 else 1)]
    | none => (s.wr (F.TRC_CTRL_EN b) 0).event Ev.frst 5
  else s.wr (F.TRC_STATUS_STATE b) 0

/-- TRC_CTRL_WRITE (R263). -/
def execTrcCtrlWrite (req : Req) (b : Fin 16) (w : Word) (s : State) : Host.Outcome State Fault Refusal :=
  .next (s.regWrite req (F.TRC_CTRL_EN b).addr w fun s => s.traceCtrl b (w.getLsbD 0))

/-- DSC_FLT_L_LOW (R265, R272, R427): with STAGE_FLT_EN the outputs are held low at once, STAGE_FAULT is set and the source
reported; the channel disconnects at its next sample, and one that ramps opens at once. [log 95: DEDUCED] -/
def execDscFltLLow (d : Fin 16) (s : State) : Host.Outcome State Fault Refusal :=
  let s := s.wr (F.CMP_LEVEL_FLT d) 1
  if s.dscs[d].stageFlt then
    let s := s.modPgn d fun p => { p with flt := true }
    let s := if 0 < s.dscs[d].pgn.on then (s.modPgn d fun p => { p with on := 0, cut := true }).reportOn d 0 else s
    let s := (s.event (Ev.dsc d) 9).faultOnce (64 + d.1) (s.groveOfDsc d)
    .next (s.endRamp d 2 ((s.tim.raw - s.flt.causeRaw) / 800))
  else .next s

/-- DSC_FLT_L_HIGH (R265, R272). -/
def execDscFltLHigh (d : Fin 16) (s : State) : Host.Outcome State Fault Refusal := .next (s.wr (F.CMP_LEVEL_FLT d) 0)

end Sys2Proof.Machine
end

