-- ==== Sys2Proof/Machine/Scheduler.lean ====
section
/-! DEFINITION. The hardware scheduler and the site cores as it sees them: committing, filling, dispatching, completing and
cancelling tasks (R288 to R301), the watchdogs and timers (R284), and the matching store's parity (R304). -/

namespace Sys2Proof.Machine

/-! ## The matching store -/

/-- The block codes with an index, and how many indices each has (R290). -/
def blockIndices (code : Nat) : Nat :=
  if code = 3 ∨ code = 7 ∨ code = 10 then 32
  else if code = 12 ∨ code = 13 then 16
  else if code = 14 then 8
  else if code = 9 then 4
  else if code ≤ 22 then 1
  else 0

/-- Whether a slot source has a class of R290 and a key in that class's range. -/
def srcOk (src : Nat) : Bool :=
  let key := fieldOf src 6 10
  match fieldOf src 0 6 with
  | 0 => key == 0
  | 6 => decide (key % 32 < blockIndices (key / 32))
  | n => decide (n ≤ 5) && decide (key < 32)

/-- The sources of the slots a descriptor has. -/
def usedSrcs (d : TaskDesc) : List Nat := d.srcs.take d.nslot

/-- The check of a commit: the STATUS of R289, in its order. -/
def commitStatus (free : Bool) (d : TaskDesc) : Nat :=
  if 4 < d.nslot ∨ 1024 ≤ d.flow ∨ d.reserved ≠ 0 ∨ !((usedSrcs d).all srcOk) then 3
  else if (usedSrcs d).any fun x => decide (1 ≤ x % 64) && decide (x % 64 ≤ 5) && decide (x / 64 ≠ d.flow) then 2
  else if 1016 ≤ d.flow ∧ d.mask ≠ 0 ∧ d.mask ≠ 2 ^ (d.flow - 1016) then 4
  else if !free then 1
  else 0

/-- The present generation of an entry (R294). -/
def Sched.genOf (c : Sched) (index : Nat) : Nat := (cellGet index c.gens).getD 0

/-- The task an entry holds. -/
def Sched.taskAt (c : Sched) (index : Nat) : Option Task := c.tasks.find? fun t => decide (t.index = index)

/-- The task a 20-bit handle names, or none where the handle is stale (R294). -/
def Sched.named (c : Sched) (handle : Nat) : Option Task :=
  (c.taskAt (fieldOf handle 0 12)).filter fun t => decide (t.gen = fieldOf handle 12 8)

/-- The handle of a task. -/
def Task.handle (t : Task) : Nat := t.index % 4096 + 4096 * (t.gen % 256)

/-- Whether an entry is free. -/
def Sched.hasFree (c : Sched) : Bool := decide (c.tasks.length < 4096)

/-- The free entry that was freed longest ago; entries never used count as freed at reset, in ascending order
(DESIGN CHOICE, log entry 8). [log 8: DESIGN CHOICE] -/
def Sched.allocate (c : Sched) : Nat × Sched :=
  if c.fresh < 4096 then (c.fresh, { c with fresh := c.fresh + 1 })
  else match c.freed with
    | i :: r => (i, { c with freed := r })
    | [] => (0, c)

/-- An item for a private flow takes an entry, or waits for one to be free (R155, R301). [log 161: DEDUCED] -/
def Sched.post (c : Sched) (t : Task) : Sched :=
  if c.hasFree then
    let (i, k) := c.allocate
    { k with tasks := k.tasks ++ [{ t with index := i, gen := k.genOf i }] }
  else { c with owed := c.owed ++ [t] }

/-- The first item that waits for an entry takes the one that is free. [log 161: DEDUCED] -/
def Sched.postOwed (c : Sched) : Sched :=
  match c.owed with
  | [] => c
  | t :: r => { c with owed := r }.post t

/-- Frees the entry of a task that is completed or cancelled; its generation advances (R294). [log 8: DESIGN CHOICE] -/
def Sched.release (c : Sched) (index : Nat) : Sched :=
  { c with tasks := c.tasks.filter (fun t => decide (t.index ≠ index)), freed := c.freed ++ [index],
           gens := cellPut 0 index ((c.genOf index + 1) % 256) c.gens }.postOwed.refresh

/-- Commits a task, or refuses it: STATUS, handle and the state after (R288, R289). -/
def State.commitTask (s : State) (d : TaskDesc) : Nat × Nat × State :=
  let st := commitStatus s.sched.hasFree d
  if st = 0 then
    let (i, c) := s.sched.allocate
    let t : Task := { index := i, gen := c.genOf i, flow := d.flow, nslot := d.nslot, mask := d.mask, entry := d.entry,
                      arg := d.arg, srcs := usedSrcs d, slots := List.replicate d.nslot none,
                      state := if d.nslot = 0 then .ready else .waiting, since := none, resume := false }
    (0, t.handle, { s with sched := { c with tasks := c.tasks ++ [t] }.refresh })
  else (st, 0, if st = 1 then s.raiseSch 2 else s)

/-- Counts a stale operation (R294). -/
def State.staleOp (s : State) : State := (s.incSat F.SCH_FILL_DROP_STALE).raiseSch 4

/-- Fills a SOFT slot, or discards the fill: RESULT of SCH_OP_RESULT and the state after (R293). -/
def State.fillTask (s : State) (handle slot value : Nat) : Nat × State :=
  match s.sched.named handle with
  | none => (1, s.staleOp)
  | some t =>
    let res := if t.nslot ≤ slot then 2 else if t.srcs.getD slot 0 % 64 ≠ 0 then 3
      else if t.slots.getD slot none ≠ none then 4 else 0
    if res = 0 then
      let t' := { t with slots := t.slots.set slot (some (value % 2 ^ 64)) }
      let t' := if t'.full then { t' with state := .ready } else t'
      let put := fun u : Task => if u.index = t.index then t' else u
      (0, { s with sched := { s.sched with tasks := s.sched.tasks.map put }.refresh })
    else (res, s.incSat F.SCH_FILL_DROP_BAD)

/-- Cancels a WAITING or READY task, or discards the cancel (R295). -/
def State.cancelTask (s : State) (handle : Nat) : Nat × State :=
  match s.sched.named handle with
  | none => (1, s.staleOp)
  | some t => if t.state.served then (5, s) else (0, { s with sched := s.sched.release t.index })

/-- The item a core holds. -/
def Sched.held (c : Sched) (k : Fin 8) : Option Task := c.tasks.find? fun t => decide (t.state = .inService k)

/-- Completes the item a core holds, if it holds one (R298, R299). -/
def Sched.completeHeld (c : Sched) (k : Fin 8) : Sched :=
  match c.held k with
  | some t => c.release t.index
  | none => c

/-- The order of R298 among dispatchable items of shared flows: whether the first goes before the second. -/
def State.before (s : State) (a b : Task) : Bool :=
  let pa := s.rd (F.SCH_FLOW_CFG_PRIO a.flow)
  let pb := s.rd (F.SCH_FLOW_CFG_PRIO b.flow)
  decide (pb < pa) || (pa == pb &&
    (decide (a.since.getD 0 < b.since.getD 0) || (a.since == b.since && decide (a.flow < b.flow))))

/-- The item a core's take port would be given: one of its private flow, the resume task first; otherwise the best of the
shared flows whose CORE_MASK admits the core; while the core is parked, its resume task only (R296, R298, R301). -/
def State.choose (s : State) (k : Fin 8) : Option Task :=
  let l := s.sched.tasks.filter (dispatchable s.sched.tasks)
  let own := l.filter fun t => decide (t.flow = 1016 + k.1)
  match own.find? fun t => t.resume with
  | some t => some t
  | none =>
    if s.on (F.FOR_PARK_PARKED k) then none
    else match own with
      | t :: _ => some t
      | [] =>
        (l.filter fun t => decide (t.flow < 1016) && (t.mask == 0 || bitOf t.mask k.1)).foldl
          (fun best t => match best with
            | none => some t
            | some b => if s.before t b then some t else some b) none

/-- Replaces the read latch of a requester class over a pair (R5). -/
def State.latch (s : State) (r : Req) (a : Nat) (w : Word) : State :=
  { s with latches := ⟨r.cls, a, w⟩ :: s.latches.filter fun p => !(decide (p.req = r.cls) && decide (p.addr = a)) }

/-- Restarts a core's watchdog (R284). -/
def State.kick (s : State) (c : Fin 8) : State :=
  s.modCore c fun k => { k with wdogExpired := false, wdogFrom := s.tim.raw }

/-- Binds an item to a core: the item is IN_SERVICE, the take load returns it, and its operands become readable (R298); the read
of the take port, which restarts the watchdog, ends with it (R284). -/
def State.bindTask (s : State) (c : Fin 8) (t : Task) : State :=
  let put := fun u : Task => if u.index = t.index then { u with state := .inService c } else u
  let s := { s with sched := { s.sched with tasks := s.sched.tasks.map put }.refresh }.kick c
  let s := s.modCore c fun k => { k with blocked := none }
  let lo := t.handle + 2 ^ 20 * t.flow
  let s := (s.wr (F.SCH_TAKE_LO c) lo).wr (F.SCH_TAKE_HI c) t.entry
  let s := s.wrP (F.SCH_CUR_ARG_LO c) t.arg
  let s := (List.range 4).foldl (fun s k => s.wrP (F.SCH_CUR_OP_LO c k) ((t.slots.getD k none).getD 0)) s
  (s.latch (.core c) (F.SCH_TAKE_HI c).addr (BitVec.ofNat 32 t.entry)).answerWith [lo, t.entry]

/-! ## Meanings -/

/-- The staged descriptor is committed or refused, and the read returns the outcome (R288, R289). -/
def State.newCommit (s : State) (c : Fin 8) : State :=
  let w := fun i => s.rd (F.SCH_NEW_WORD c i)
  let d : TaskDesc :=
    { flow := fieldOf (w 0) 0 16, nslot := fieldOf (w 0) 16 8, mask := fieldOf (w 0) 24 8, entry := w 1,
      arg := w 2 + 2 ^ 32 * w 3,
      srcs := [fieldOf (w 4) 0 16, fieldOf (w 4) 16 16, fieldOf (w 5) 0 16, fieldOf (w 5) 16 16],
      reserved := w 6 + 2 ^ 32 * w 7 }
  let (st, h, s) := s.commitTask d
  let s := (s.wr (F.SCH_NEW_COMMIT_HANDLE c) h).wr (F.SCH_NEW_COMMIT_STATUS c) st
  s.answerWith [h + 2 ^ 20 * st]

/-- A take load: the held item is completed and the core blocks at its take port; a read restarts the watchdog (R298). -/
def State.takeLoad (s : State) (c : Fin 8) : State :=
  let s := { s with sched := (s.sched.completeHeld c).refresh }.kick c
  s.modCore c fun k => { k with blocked := some s.sched.clock }

/-- SCH_NEW_COMMIT (R288, R289). -/
def execSchNewCommit (c : Fin 8) (s : State) : Host.Outcome State Fault Refusal := .next (s.newCommit c)

/-- SCH_TAKE (R298). -/
def execSchTake (c : Fin 8) (s : State) : Host.Outcome State Fault Refusal := .next (s.takeLoad c)

/-- A parity error of a task's entry: the task is removed as if cancelled, and the entry recorded (R304). [log 172: DEDUCED] -/
def State.taskParity (s : State) (t : Task) (scrub : Bool) : State :=
  let s := { s with sched := s.sched.release t.index }
  let s := s.wrs [(F.SCH_PAR_LOC_INDEX, t.index), (F.SCH_PAR_LOC_FLOW, t.flow), (F.SCH_PAR_LOC_SCRUB, b2n scrub)]
  (s.raiseSch 1).faultOnce 16 none

/-- TASK_DISPATCH (R298, R304): the item chosen for a blocked core is bound to it, unless a core the item also admits and would
be chosen for began waiting earlier; an item whose entry fails its parity is removed. [log 172: DEDUCED] -/
def execTaskDispatch (c : Fin 8) (parityError : Bool) (s : State) : Host.Outcome State Fault Refusal :=
  match s.sched.cores[c].blocked, s.choose c with
  | some since, some t =>
    if (allFin 8).any fun k =>
        decide (s.choose k = some t) && (match s.sched.cores[k].blocked with
          | some u => decide (u < since)
          | none => false) then .next s
    else .next (if parityError then s.taskParity t false else s.bindTask c t)
  | _, _ => .next s

/-- Records the result of a port operation. -/
def State.opResult (s : State) (c : Fin 8) (op res : Nat) : State :=
  (s.wr (F.SCH_OP_RESULT_RESULT c) res).wr (F.SCH_OP_RESULT_OP c) op

/-- A write of SCH_DONE: completes the held item, or discards a stale or a foreign handle (R299). -/
def State.portDone (s : State) (c : Fin 8) (w : Nat) : State :=
  match s.sched.named (fieldOf w 0 20) with
  | none => s.staleOp.opResult c 1 1
  | some t =>
    if t.state = .inService c then { s with sched := s.sched.release t.index }.opResult c 1 0
    else (s.incSat F.SCH_FILL_DROP_BAD).opResult c 1 6

/-- A write of SCH_FILL: fills a SOFT slot with the staged value, or discards the fill (R293). -/
def State.portFill (s : State) (c : Fin 8) (w : Nat) : State :=
  let (res, s') := s.fillTask (fieldOf w 0 20) (fieldOf w 20 2) (s.rdP (F.SCH_FILL_VAL_LO c))
  s'.opResult c 0 res

/-- A write of SCH_CANCEL: cancels a task that no core has in service (R295). -/
def State.portCancel (s : State) (c : Fin 8) (w : Nat) : State :=
  let (res, s') := s.cancelTask (fieldOf w 0 20)
  s'.opResult c 1 res

/-- SCH_DONE (R299). -/
def execSchDone (c : Fin 8) (w : Word) (s : State) : Host.Outcome State Fault Refusal := .next (s.portDone c w.toNat)

/-- SCH_FILL (R293). -/
def execSchFill (c : Fin 8) (w : Word) (s : State) : Host.Outcome State Fault Refusal := .next (s.portFill c w.toNat)

/-- SCH_CANCEL (R295). -/
def execSchCancel (c : Fin 8) (w : Word) (s : State) : Host.Outcome State Fault Refusal := .next (s.portCancel c w.toNat)

/-- SCH_KICK (R284): restarts the watchdog. -/
def execSchKick (c : Fin 8) (s : State) : Host.Outcome State Fault Refusal := .next (s.kick c)

/-- SCH_WDOG_WRITE (R284): sets the timeout and restarts the watchdog. -/
def execSchWdogWrite (c : Fin 8) (w : Word) (s : State) : Host.Outcome State Fault Refusal :=
  .next ((s.wr (F.SCH_WDOG_US c) w.toNat).kick c)

/-- A core's watchdog has run its time, 800 raw ticks to the microsecond, and is neither disabled nor expired; a core blocked in its
take port does not expire it (R284). -/
def State.wdogDue (s : State) (c : Fin 8) : Bool :=
  let k := s.sched.cores[c]
  let us := s.rd (F.SCH_WDOG_US c)
  decide (us ≠ 0) && k.blocked.isNone && !k.wdogExpired && decide (800 * us ≤ s.tim.raw - k.wdogFrom)

/-- WATCHDOG_EXPIRY (R284): the core takes WATCHDOG and fault source 17 occurs. -/
def execWatchdogExpiry (c : Fin 8) (s : State) : Host.Outcome State Fault Refusal :=
  if s.wdogDue c = false then .next s
  else
    let s := s.modCore c fun k => { k with wdogExpired := true }
    .next (((s.nmi c 4).raiseSch 16).faultOnce 17 none)

/-- MACHINE_TIMER_PENDING (R284): the timer interrupt is pending while the raw count is at or beyond the compare value.
[log 127: DEDUCED] -/
def execMachineTimerPending (c : Fin 8) (s : State) : Host.Outcome State Fault Refusal :=
  .next (s.modCore c fun k => { k with timerPending := decide (s.rdP (F.SCH_TIMECMP_LO_TIME c) ≤ s.tim.raw) })

/-- SCH_SCRUB (R304): the scrubber reads every entry; the task of an entry whose parity fails is removed. -/
def execSchScrub (bad : Option Nat) (s : State) : Host.Outcome State Fault Refusal :=
  match bad.bind s.sched.taskAt with
  | none => .next s
  | some t => .next (s.taskParity t true)

/-- TASK_CREATE (R288, R321): commits the descriptor for the host; its refusals are the statuses of R324. -/
def execTaskCreate (h : Hdr) (d : TaskDesc) (s : State) : Host.Outcome State Fault Refusal :=
  .next (s.begin_ h 0x30 fun s =>
    let r := s.commitTask d
    r.2.2.complete h r.1 0 r.2.1)

/-- TASK_FILL (R293, R324): the host fills a SOFT slot; a handle of more than 20 bits is out of range (R323). -/
def execTaskFill (h : Hdr) (handle slot value : Nat) (s : State) : Host.Outcome State Fault Refusal :=
  .next (s.begin_ h 0x31 fun s =>
    if 2 ^ 20 ≤ handle then s.complete h stBadOperand
    else
      let r := s.fillTask handle slot value
      r.2.complete h r.1)

/-- TASK_CANCEL (R295, R324): the host cancels a task. -/
def execTaskCancel (h : Hdr) (handle : Nat) (s : State) : Host.Outcome State Fault Refusal :=
  .next (s.begin_ h 0x32 fun s =>
    if 2 ^ 20 ≤ handle then s.complete h stBadOperand
    else
      let r := s.cancelTask handle
      r.2.complete h r.1)

end Sys2Proof.Machine
end

