-- ==== Sys2Proof/Machine/Streams.lean ====
section
/-! DEFINITION. Host streams (R126 to R131): ring configuration, doorbells, announcements, and the discard at the end of a
burst. -/

namespace Sys2Proof.Machine

def State.modStream (s : State) (t : Fin 32) (f : Stream → Stream) : State := { s with streams := upd s.streams t f }

/-- Frees the ring of a stream; its counts and announcements are gone (R126). [log 154: DESIGN CHOICE] -/
def State.dropRing (s : State) (t : Fin 32) : State :=
  let s := (s.streams[t].ring).elim s s.freePlace
  ((s.modStream t fun _ => {}).wrs [(F.HQ_STRM_CFG_RING t, 0), (F.HQ_STRM_WIN_OFFSET t, 0)]).noteStream t

/-- The ring size a written value asks for: 0 none, at least 16, at most 4096. -/
def ringSize (n : Nat) : Nat := if n = 0 then 0 else min 4096 (max 16 n)

/-- Places a ring of `n` granules for a stream, or reports that there is no room. [log 155: DESIGN CHOICE; log 156: DESIGN CHOICE] -/
def State.placeRing (s : State) (t : Fin 32) (n : Nat) : State :=
  let bytes := n * s.granBytes (s.lead t)
  match if s.served t = 0 then none else s.canopyRun 2 (pagesFor bytes canopyPage) with
  | none => s.event (Ev.strm t) 4
  | some p =>
    let s := s.takePages 2 [(p, pagesFor bytes canopyPage)]
    let s := s.modStream t fun k => { k with ring := some ⟨false, p, bytes⟩ }
    (s.wrs [(F.HQ_STRM_CFG_RING t, n), (F.HQ_STRM_WIN_OFFSET t, p * canopyPage)]).noteStream t

/-- A write of HQ_STRM_CFG (R126): without effect while the thread is busy. [log 37: DESIGN CHOICE] -/
def State.strmCfg (s : State) (t : Fin 32) (w : Nat) : State :=
  if s.threads[t].busy.isSome then s.event (Ev.strm t) 5
  else
    let s := s.dropRing t
    let s := s.wrs [(F.HQ_STRM_CFG_STRIDE t, fieldOf w 16 4), (F.HQ_STRM_CFG_MIRROR_EN t, fieldOf w 24 1)]
    if fieldOf w 0 13 = 0 then s else s.placeRing t (ringSize (fieldOf w 0 13))

/-- A doorbell of `n` granules (R128). -/
def State.strmPut (s : State) (t : Fin 32) (n : Nat) : State :=
  let k := s.streams[t]
  let room := k.cons + s.rd (F.HQ_STRM_CFG_RING t) - k.put
  let s := (s.modStream t fun k => { k with put := k.put + min n room }).noteStream t
  if room < n then s.event (Ev.strm t) 1 else s

/-- An announcement (R130, R150). -/
def State.strmAnnounce (s : State) (t : Fin 32) (seg gen : Nat) : State :=
  if s.segLive t seg gen = false then s.staleSeg
  else if 8 ≤ s.streams[t].anns.length then s.event (Ev.strm t) 3
  else (s.modStream t fun k => { k with anns := k.anns ++ [(seg, gen)] }).noteStream t

/-- The discard when a burst that uses the stream enters Reported (R131): the mirror is written. [log 37: DESIGN CHOICE] -/
def State.strmDiscard (s : State) (t : Fin 32) : State :=
  let k := s.streams[t]
  if k.ring = none then s
  else
    let n := k.put - k.cons
    let s := s.modStream t fun k => { k with cons := k.put, anns := [], next := k.put }
    let s := (s.incWrap (F.HQ_STRM_DISCARD_COUNT t) n).noteStream t
    let s := s.mirrorNow t
    if n = 0 then s else s.event (Ev.strm t) 6

/-- HQ_STRM_CFG_WRITE (R126). -/
def execHqStrmCfgWrite (req : Req) (t : Fin 32) (w : Word) (s : State) : Host.Outcome State Fault Refusal :=
  .next (s.regWrite req (F.HQ_STRM_CFG_RING t).addr w fun s => s.strmCfg t w.toNat)

/-- HQ_STRM_PUT (R128). -/
def execHqStrmPut (req : Req) (t : Fin 32) (w : Word) (s : State) : Host.Outcome State Fault Refusal :=
  .next (s.regWrite req (F.HQ_STRM_PUT_COUNT t).addr w fun s => s.strmPut t (fieldOf w.toNat 0 13))

/-- HQ_STRM_ANNOUNCE (R130). -/
def execHqStrmAnnounce (req : Req) (t : Fin 32) (w : Word) (s : State) : Host.Outcome State Fault Refusal :=
  .next (s.regWrite req (F.HQ_STRM_ANNOUNCE_SEG t).addr w fun s => s.strmAnnounce t (fieldOf w.toNat 0 16) (fieldOf w.toNat 16 8))

end Sys2Proof.Machine
end

