-- ==== Sys2Proof/Machine/Forester.lean ====
section
/-! DEFINITION. The Forester's commands and events (R137 to R157): loads and unloads of segments, moves, evacuation, scratch
claims, capture release, code pages and parking, the placement report, and its registers. -/

namespace Sys2Proof.Machine

/-- The tiers' code of an opcode: SEG_LOAD's own statuses (R324). -/
abbrev stNoSpace : Nat := 0x01
abbrev stCodeBusy : Nat := 0x09

/-! ## Segment loads (R138 to R140, R148, R149) -/

/-- The segment load descriptor of R138 with the streams its source addresses name: the instruction words, the payload
bytes as stored, the reference list. -/
structure SegDesc where
  seg       : Nat
  gen       : Nat
  hostHeld  : Bool
  replace   : Bool
  lines     : Nat
  iwords    : Nat
  granBytes : Nat
  keySlot   : Nat
  rate      : Nat
  irate     : Nat
  estReuse  : Nat
  instr     : Src
  payload   : Src
  refAddr   : Src
  nref      : Nat
  reserved  : Nat
  deriving DecidableEq, Repr

/-- The descriptor that 64 bytes spell (R138), with what the module reads of host memory at each address it names. -/
def segDescOf (l : List Byte) (instr payload refs : Option (List Byte)) : SegDesc :=
  { seg := leAt l 0x00 2, gen := leAt l 0x02 1, hostHeld := bitOf (leAt l 0x03 1) 0, replace := bitOf (leAt l 0x03 1) 1
    lines := leAt l 0x04 4, iwords := leAt l 0x08 4, granBytes := leAt l 0x0C 2, keySlot := leAt l 0x0E 2, rate := leAt l 0x10 2
    irate := leAt l 0x12 2, estReuse := leAt l 0x14 4, instr := ⟨leAt l 0x18 8, instr⟩, payload := ⟨leAt l 0x20 8, payload⟩
    refAddr := ⟨leAt l 0x28 8, refs⟩, nref := leAt l 0x30 2, reserved := fieldOf (leAt l 0x03 1) 2 6 + 64 * leAt l 0x32 14 }

/-- The checks of a descriptor that precede any read (R138, R320). [log 32: DESIGN CHOICE] -/
def State.segDescOk (s : State) (d : SegDesc) : Bool :=
  d.seg != 0 && d.seg != 0xFFFF && d.reserved == 0 && decide (1 ≤ d.lines) && decide (1 ≤ d.iwords) &&
  decide (d.iwords ≤ 2 ^ 24) && decide (d.nref ≤ 256) && s.sourceOk d.instr (8 * d.iwords) && s.sourceOk d.refAddr (4 * d.nref) &&
  (d.hostHeld || s.sourceOk d.payload ((d.lines + 63) / 64 * d.granBytes))

/-- What an instruction stream enters by CALL and JSEG, and whether it holds an instruction that a segment of the host tier
may not hold: LOOP, LEND, MLOOP, MEND, JMP, BRC, SIG (R123, R138, R139). The flag says that the word is the second word of an
instruction. -/
def scanWords : Bool → List Nat → List (Nat × Nat) × Bool
  | _, [] => ([], false)
  | true, _ :: r => scanWords false r
  | false, w :: r =>
    let op := w % 64
    let t := scanWords (op == 0x10 || op == 0x11 || op == 0x18) r
    (if op = 0x0C ∨ op = 0x0E then (fieldOf w 8 16, fieldOf w 24 8) :: t.1 else t.1,
      t.2 || [0x08, 0x09, 0x0A, 0x0B, 0x10, 0x11, 0x18].contains op)

/-- The entries of a reference list, and whether a reserved byte of it is not zero. -/
def refEntries (l : List Byte) (n : Nat) : List (Nat × Nat) × Bool :=
  ((List.range n).map fun i => (leAt l (4 * i) 2, leAt l (4 * i + 2) 1), (List.range n).any fun i => leAt l (4 * i + 3) 1 != 0)

/-- Whether two lists hold the same elements. -/
def sameSet (a b : List (Nat × Nat)) : Bool := a.all b.contains && b.all a.contains

/-- The refusal of a load before its placement, in the order in which the rules give the conditions, or none (R133, R139,
R138, R148, R149). [log 32: DESIGN CHOICE; log 158: DESIGN CHOICE] -/
def State.segRefusal (s : State) (d : SegDesc) (instr refs : List Byte) : Option Nat :=
  let words := (List.range d.iwords).map fun i => leAt instr (8 * i) 8
  let (calls, flow) := scanWords false words
  if d.hostHeld && flow then some 0x03
  else if !sameSet (refEntries refs d.nref).1 calls then some 0x02
  else if cellGet d.seg s.forest.lastGen = some d.gen then some 0x04
  else if s.forest.segs.any (fun x => x.id == d.seg && x.waits) ||
      ((s.curSeg d.seg).any fun x => s.segHeld x.id x.gen && !d.replace) then some 0x05
  else none

/-- The refusal for a content key (R133, R453). [log 32: DESIGN CHOICE] -/
def State.keyRefusal (s : State) (slot : Nat) : Option Nat :=
  if slot = 0xFFFF then (if s.secOpt 1 then none else some 0x06)
  else if 63 < slot ∨ (s.contentKey slot).isNone then some 0x07 else none

/-- A placement of a new segment in a tier without moving anything: payload in at most 8 extents or in SDRAM pages, the
instruction stream packed into instruction pages (R140). [log 9: DESIGN CHOICE; log 34: DESIGN CHOICE] -/
def State.placeSeg (x : Seg) (t : Tier) (bytes ibytes : Nat) (s : State) : Option Seg :=
  let pay := match t with
    | .canopy => s.canopyRuns 2 (pagesFor bytes canopyPage) 8 []
    | .sdram => s.sdramRuns (pagesFor bytes sdramPage)
    | _ => some []
  pay.bind fun p =>
    let s1 := if t = .canopy then s.takePages 2 p else s
    let y := { x with tier := t, pages := p }
    let s2 := { s1 with forest := { s1.forest with segs := y :: s1.forest.segs } }
    (s2.streamPlace ibytes []).map fun i => { y with ipages := i.1, ioff := i.2 }

/-- The same, with the moves that make room: compaction, then the demotion of victims (R140, R142, R147); the pages are taken. -/
def State.placeSegMoving (s : State) (x : Seg) (t : Tier) (bytes ibytes : Nat) : Option (Seg × State) :=
  let place := State.canTake (State.placeSeg x t bytes ibytes)
  let demoting := if s.on F.FOR_CTRL_PROMOTE_EN then s.demoteFor place (s.victims (s.victimLimit x.heat)) else none
  ((place s) <|> demoting).map fun r =>
    (r.1, (r.2.takePages 2 (if t = .canopy then r.1.pages else [])).takePages 2 r.1.ipages)

/-- The placement of a load by the steps of R140. -/
def State.placeLoad (s : State) (x : Seg) (hostHeld : Bool) (bytes ibytes : Nat) : Option (Seg × State) :=
  if hostHeld then s.placeSegMoving x .host bytes ibytes
  else
    let fits := decide (pagesFor bytes canopyPage ≤ s.rd (F.STR_REGION_MAX_PAGES 2))
    match if fits then s.placeSegMoving x .canopy bytes ibytes else none with
    | some r => some r
    | none => s.placeSegMoving x .sdram bytes ibytes

/-- The generation a load brings, before it is placed. [log 34: DESIGN CHOICE] -/
def State.newSeg (s : State) (h : Hdr) (d : SegDesc) (instr payload refs : List Byte) : Seg :=
  let held := (s.curSeg d.seg).any fun x => s.segHeld x.id x.gen
  { id := d.seg, gen := d.gen, loading := some h, replaces := held, prevGen := cellGet d.seg s.forest.lastGen, hostHeld := d.hostHeld
    iwords := d.iwords, lines := d.lines, granBytes := d.granBytes, keySlot := d.keySlot, package := s.forest.packages
    rate := d.rate, irate := d.irate, heat := min d.estReuse (2 ^ 24 - 1), refs := (refEntries refs d.nref).1, copy := payload
    icopy := instr }

/-- A load that has passed its checks: it is placed and its generation recorded, or refused with NO_SPACE. -/
def State.startLoad (s : State) (h : Hdr) (d : SegDesc) (instr payload refs : List Byte) : State :=
  match s.placeLoad (s.newSeg h d instr payload refs) d.hostHeld payload.length instr.length with
  | none => (s.event Ev.frst 5).complete h stNoSpace d.seg
  | some (y, s) =>
    { s with forest := { s.forest with
      segs := s.forest.segs ++ [y], packages := s.forest.packages + 1, lastGen := cellPut 256 d.seg d.gen s.forest.lastGen } }

/-- A load whose descriptor has been read: its checks in the order of the rules, then its placement. -/
def State.loadDesc (s : State) (h : Hdr) (d : SegDesc) : State :=
  if s.segDescOk d = false then s.complete h stBadOperand d.seg
  else match s.keyRefusal d.keySlot with
  | some c => s.complete h c d.seg
  | none =>
    let bytes := (d.lines + 63) / 64 * d.granBytes
    match s.source d.instr (8 * d.iwords), s.source d.refAddr (4 * d.nref), if d.hostHeld then some [] else s.source d.payload bytes with
    | some instr, some refs, some payload =>
      if (refEntries refs d.nref).2 then s.complete h stBadOperand d.seg
      else match s.segRefusal d instr refs with
        | some c => s.complete h c d.seg
        | none => s.startLoad h d instr payload refs
    | _, _, _ => s.complete h stHostReadFailed d.seg

/-- SEG_LOAD (R138 to R140, R320): the 64 bytes at DESC are read first; `instr`, `payload` and `refs` are what the module's own
reads of host memory find at the addresses that the descriptor names. -/
def execSegLoad (h : Hdr) (desc : Src) (instr payload refs : Option (List Byte)) (s : State) : Host.Outcome State Fault Refusal :=
  .next (s.begin_ h 0x11 fun s =>
    if s.sourceOk desc 64 = false then s.complete h stBadOperand
    else match s.source desc 64 with
    | none => s.complete h stHostReadFailed
    | some l => s.loadDesc h (segDescOf l instr payload refs))

/-- SEGMENT_COPY_DONE (R140, R149, R150): the bytes lie in the tier, once nothing else lies on their place, and the generation
becomes current unless it waits for a retiring one. -/
def execSegmentCopyDone (seg gen : Nat) (s : State) : Host.Outcome State Fault Refusal :=
  match s.loadOf seg gen with
  | none => .next (if (s.segAt seg gen).isSome then s else s.staleSeg)
  | some x =>
    if x.waits ∨ s.occupied x.id x.gen true x.tier (runPages x.pages) ∨ s.streamBusy x.id x.gen true x.ipages x.ioff (8 * x.iwords) then .next s
    else
      let cells := fun l : List Byte => l.zipIdx.map fun b => (b.2, b.1)
      let s := s.setTierMem x.tier (putCells (tierUnit x.tier) (s.tierMem x.tier) x.pages (cells x.copy))
      let s := { s with canopy := putStream s.canopy x.ipages x.ioff (8 * x.iwords) (cells x.icopy) }
      let s := s.modLoad seg gen fun y => { y with copy := [], icopy := [] }
      if s.mustWait x then .next (s.modLoad seg gen fun y => { y with waits := true })
      else .next (s.makeCurrent x).evaluate

/-- SEG_UNLOAD (R149, R150): removes the current generation. -/
def execSegUnload (h : Hdr) (seg gen : Nat) (s : State) : Host.Outcome State Fault Refusal :=
  .next (s.begin_ h 0x12 fun s =>
    match s.curSeg seg with
    | none => s.staleSeg.complete h 0x08 seg
    | some x =>
      if x.gen ≠ gen then s.staleSeg.complete h 0x08 seg
      else if s.segHeld seg gen then s.complete h 0x05 seg
      else (s.removeSeg x).dropRetired.complete h stOk)

/-- Loads that have not become current end NOT_STARTED at a fault, and the record of R148 is what it was (R326). -/
def State.abortLoads (s : State) : State :=
  (s.forest.segs.reverse.filter fun x => x.loading.isSome).foldl (fun s x =>
    let keep := fun y : Seg => !(y.id == x.id && y.gen == x.gen && y.loading.isSome)
    let s := { s with forest := { s.forest with
      segs := s.forest.segs.filter keep
      lastGen := cellPut 256 x.id (x.prevGen.getD 256) s.forest.lastGen } }
    match x.loading with
    | some h => s.complete h stNotStarted x.id
    | none => s) s

/-! ## Moves and evacuation (R145, R147) -/

/-- The pages of a bank in use outside the control region. -/
def State.bankLeft (s : State) (bank : Nat) : Nat := ((s.usedPages.filter fun p => p / 64 == bank).dedup).length

/-- Moves a buffer that nothing writes out of a bank: the new place and the state after, or none where it cannot go. -/
def State.relocate (s : State) (bank region : Nat) (p : Place) : Option (Place × State) :=
  if p.sdram ∨ !(p.pages.any fun q => q / 64 == bank) then none
  else (s.canopyRunAvoid region p.pages.length [bank]).map fun q =>
    let cells := runCells canopyPage s.canopy [(p.page, p.pages.length)]
    let s := s.takePages region [(q, p.pages.length)]
    let s := { s with canopy := copyCells canopyPage s.canopy [(q, p.pages.length)] cells }
    ({ p with page := q }, s.freePlace p)

/-- Moves the capture buffers of a grove that no burst writes out of a bank. [log 35: DESIGN CHOICE] -/
def State.evacCapture (s : State) (bank : Nat) (g : Fin 32) : State :=
  let busy := s.groves[g].capOpen && !s.groves[g].drained
  (List.range s.groves[g].bufs.length).foldl (fun s i =>
    if busy ∧ i = 0 then s
    else match (s.groves[g].bufs[i]?).bind (s.relocate bank 3) with
      | some (p, s) =>
        let s := s.modGrove g fun k => { k with bufs := k.bufs.set i p }
        if i = 0 then s.wr (F.FOR_CAP_LOC_PAGE g) p.page else s
      | none => s) s

/-- Moves the stores of engines and units that are disarmed, and the trace buffers that are disabled, out of a bank.
[log 35: DESIGN CHOICE] -/
def State.evacStores (s : State) (bank : Nat) : State :=
  let put := fun (n : Nat) (p : Place) (l : List (Nat × Place)) => l.map fun o => if o.1 = n then (n, p) else o
  let s := (allFin 4).foldl (fun s (e : Fin 4) =>
    if s.trgState e ≠ 0 then s
    else match (s.acq.trg[e].place).bind (s.relocate bank 3) with
      | some (p, s) =>
        let f := fun k : Trg => { k with place := some p }
        ({ s with forest := { s.forest with stores := put (32 + e.1) p s.forest.stores } }.modTrg e f).wr (F.TRG_LOC_PAGE e) p.page
      | none => s) s
  let s := (allFin 32).foldl (fun s (u : Fin 32) =>
    if s.tmuState u ≠ 0 then s
    else match (s.acq.tmu[u].place).bind (s.relocate bank 3) with
      | some (p, s) =>
        let f := fun k : Tmu => { k with place := some p }
        ({ s with forest := { s.forest with stores := put u.1 p s.forest.stores } }.modTmu u f).wr (F.TMU_LOC_PAGE u) p.page
      | none => s) s
  (allFin 16).foldl (fun s (b : Fin 16) =>
    if s.on (F.TRC_CTRL_EN b) then s
    else match ((s.forest.traces.find? fun t => t.1 == b.1).map (·.2)).bind (s.relocate bank 4) with
      | some (p, s) =>
        { s with forest := { s.forest with traces := put b.1 p s.forest.traces } }.wr (F.TRC_LOC_PAGE b) p.page
      | none => s) s

/-- The places in use that an evacuation cannot move now: the buffer of a burst that writes it, stores of armed engines and units,
trace buffers that are enabled. -/
def State.busyPlaces (s : State) : List Place :=
  let caps := (allFin 32).flatMap fun (g : Fin 32) => if s.groves[g].capOpen && !s.groves[g].drained then s.groves[g].bufs.take 1 else []
  let trg := (allFin 4).flatMap fun (e : Fin 4) => if s.trgState e = 0 then [] else s.acq.trg[e].place.toList
  let tmu := (allFin 32).flatMap fun (u : Fin 32) => if s.tmuState u = 0 then [] else s.acq.tmu[u].place.toList
  caps ++ trg ++ tmu ++ (s.forest.traces.filter fun t => s.on (F.TRC_CTRL_EN t.1)).map (·.2)

/-- Whether a bank's evacuation still waits: for a move out of the bank or into it, a code page, or a place in use.
[log 35: DESIGN CHOICE] -/
def State.evacWaits (s : State) (bank : Nat) : Bool :=
  let here := fun p : Nat => p / 64 == bank
  (s.forest.moves.any fun m => m.bank == some bank || ((if m.tier = .canopy then runPages m.pages else []) ++ runPages m.ipages).any here ||
    (s.segAt m.seg m.gen).any fun x => ((if x.tier = .canopy then runPages x.pages else []) ++ runPages x.ipages).any here) ||
  (s.forest.codeMoves.any fun m => m.bank == some bank) || s.busyPlaces.any fun p => !p.sdram && p.pages.any here

/-- Moves out of a bank whatever can go now. -/
def State.evacStep (s : State) (bank : Nat) : State :=
  ((allFin 32).foldl (fun (s : State) (g : Fin 32) => s.evacCapture bank g) (s.clearBanks [bank] (some bank))).evacStores bank

/-- Goes on with the evacuations, and completes those that wait for nothing any more: CODE_BUSY, BANK_HELD or OK (R147).
[log 35: DESIGN CHOICE] -/
def State.evacCheck (s : State) : State :=
  let s := s.forest.evacs.foldl (fun s e => s.evacStep e.bank) s
  (s.forest.evacs.filter fun e => !s.evacWaits e.bank).foldl (fun s e =>
    let left := s.bankLeft e.bank
    let s := { s with forest := { s.forest with evacs := s.forest.evacs.filter fun o => !sameHdr o.hdr e.hdr } }
    let st := if e.busy then stCodeBusy else if left = 0 then stOk else 0x0C
    (s.event Ev.frst 0).complete e.hdr st (if st = stOk then 0 else left)) s

/-- MOVE_COPY_DONE (R145, R150): the stored bytes lie at the destination, once nothing else lies there. -/
def execMoveCopyDone (seg gen : Nat) (s : State) : Host.Outcome State Fault Refusal :=
  match s.segAt seg gen, s.forest.started.find? fun m => m.seg == seg && m.gen == gen with
  | none, _ => .next s.staleSeg
  | some x, some m =>
    if m.copied ∨ s.occupied seg gen false m.tier (runPages m.pages) ∨
        (m.keepsStream x = false ∧ s.streamBusy seg gen false m.ipages m.ioff (8 * x.iwords)) then .next s
    else
      let pay := runCells (tierUnit x.tier) (s.tierMem x.tier) x.pages
      let ins := s.streamCells x
      let s := if x.tier = .canopy ∨ x.tier = .sdram then s.setTierMem m.tier (copyCells (tierUnit m.tier) (s.tierMem m.tier) m.pages pay) else s
      let s := if m.keepsStream x then s else { s with canopy := putStream s.canopy m.ipages m.ioff (8 * x.iwords) ins }
      let done := fun o : Move => if o.seg = seg ∧ o.gen = gen then { o with copied := true } else o
      .next { s with forest := { s.forest with moves := s.forest.moves.map done } }
  | some _, none => .next s

/-- MOVE_SWITCH (R145): no thread uses the segment; its location switches and the source pages are zeroed. -/
def execMoveSwitch (seg gen : Nat) (s : State) : Host.Outcome State Fault Refusal :=
  match s.segAt seg gen, s.forest.started.find? fun m => m.seg == seg && m.gen == gen with
  | some x, some m =>
    if m.copied = false ∨ s.segUsed seg gen then .next s
    else
      let s := s.modSeg seg gen fun y => { y with tier := m.tier, pages := m.pages, ipages := m.ipages, ioff := m.ioff }
      let left := (runPages x.pages).filter fun p => !(m.tier == x.tier && (runPages m.pages).contains p)
      let s := if x.tier = .canopy ∨ x.tier = .sdram then s.zeroPages (x.tier == .sdram) left else s
      let s := if m.keepsStream x then s else s.clearStream x
      let evac := fun e : Evac => if m.bank = some e.bank then { e with moved := true } else e
      let s := { s with forest := { s.forest with
        moves := s.forest.moves.filter fun o => !(o.seg == seg && o.gen == gen)
        evacs := s.forest.evacs.map evac } }
      let s := s.event Ev.frst 0
      let s := if x.tier = .canopy ∧ m.tier = .sdram then s.event Ev.frst 6 else s
      .next s.evacCheck
  | _, _ => .next s

/-- Posts an item in a core's private flow: the park request, or the resume task that goes before every other item. What it
carries the spec does not state; with the matching store full it waits for an entry (R155, R301). [log 36: DEDUCED] -/
def State.postPrivate (s : State) (c : Fin 8) (resume : Bool) : State :=
  let (entry, s) := s.takeFree
  let (arg, s) := s.takeFree
  let t : Task :=
    { index := 0, gen := 0, flow := 1016 + c.1, nslot := 0, mask := 0, entry := entry % 2 ^ 32, arg := arg % 2 ^ 64
      srcs := [], slots := [], state := .ready, since := none, resume := resume }
  { s with sched := (s.sched.post t).refresh }

/-- Asks every core of a mask to park (R155, step 1). [log 36: DEDUCED] -/
def State.askPark (s : State) (mask : Nat) : State :=
  (allFin 8).foldl (fun s (c : Fin 8) =>
    if bitOf mask c.1 && !s.on (F.FOR_PARK_REQ c) then
      let stay := if s.on (F.FOR_PARK_PARKED c) then s.forest.wasParked ||| 2 ^ c.1 else without s.forest.wasParked (2 ^ c.1)
      ({ s with forest := { s.forest with wasParked := stay } }.wr (F.FOR_PARK_REQ c) 1).postPrivate c false
    else s) s

/-- Plans the moves of the code pages of a bank; a page with nowhere to go stays. -/
def State.evacCode (s : State) (bank : Nat) : State :=
  (s.forest.code.filter fun k => k.page / 64 == bank).foldl (fun (s : State) (k : CodePage) =>
    match s.canopyRunAvoid 0 1 [bank] with
    | none => s
    | some q =>
      let s := s.takePages 0 [(q, 1)]
      let m : CodeMove := ⟨k.page, q, some bank⟩
      { s with forest := { s.forest with codeMoves := s.forest.codeMoves ++ [m] } }.askPark k.mask) s

/-- EVACUATE (R147): moves that empty one bank. -/
def execEvacuate (h : Hdr) (bank : Nat) (s : State) : Host.Outcome State Fault Refusal :=
  .next (s.begin_ h 0x14 fun s =>
    if 32 ≤ bank then s.complete h stBadOperand
    else
      let e : Evac := ⟨bank, h, false, false⟩
      ({ s with forest := { s.forest with evacs := s.forest.evacs ++ [e] } }.evacCode bank).evacCheck)

/-- The evacuations in flight at a fault (R326). -/
def State.abortEvacs (s : State) : State :=
  let l := s.forest.evacs
  let s := s.abandonMoves fun m => m.bank.isSome
  let s := { s with forest := { s.forest with evacs := [], codeMoves := s.forest.codeMoves.filter fun m => m.bank.isNone } }
  l.foldl (fun s e => if e.moved then s.complete e.hdr stPartial (s.bankLeft e.bank) else s.complete e.hdr stNotStarted) s

/-! ## Code pages and parking (R154, R155) -/

/-- Core c runs from a page: its bit of the mask is set and it is not parked. -/
def State.runsFrom (s : State) (page : Nat) : Bool :=
  s.forest.code.any fun k => k.page == page && (allFin 8).any fun (c : Fin 8) => bitOf k.mask c.1 && !s.on (F.FOR_PARK_PARKED c)

/-- The mask of a code page. -/
def Forest.codeMask (f : Forest) (page : Nat) : Nat := ((f.code.find? fun k => k.page == page).map (·.mask)).getD 0

/-- A code operation is refused (R154). [log 104: DEDUCED] -/
def State.codeBusy (s : State) : State := (s.incSat F.FOR_CODE_BUSY_CNT_COUNT).event Ev.frst 4

/-- A core that runs is parked (R155). -/
def State.parkCore (s : State) (c : Fin 8) : State :=
  if s.on (F.FOR_PARK_PARKED c) then s else (s.wr (F.FOR_PARK_PARKED c) 1).incWrap (F.FOR_PARK_PARKS c)

/-- CORE_PARK (R155). -/
def execCorePark (c : Fin 8) (s : State) : Host.Outcome State Fault Refusal := .next (s.parkCore c)

/-- Resumes the cores of a mask that no further code move needs: PARKED and REQ are cleared and the resume task dispatched. -/
def State.resumeCores (s : State) (mask : Nat) : State :=
  let needed := s.forest.codeMoves.foldl (fun n m => n ||| s.forest.codeMask m.page) 0
  (allFin 8).foldl (fun s (c : Fin 8) =>
    if bitOf (without mask needed) c.1 then
      let parked := s.on (F.FOR_PARK_PARKED c)
      let s := s.wrs [(F.FOR_PARK_PARKED c, 0), (F.FOR_PARK_REQ c, 0)]
      if parked then s.postPrivate c true else s
    else s) s

/-- Takes back the park requests of cores of a mask that no further code move needs: REQ is cleared, and a core that parked
since goes on; one that was parked before is left so (R60, R155). -/
def State.unaskPark (s : State) (mask : Nat) : State :=
  let asked := maskOf (((allFin 8).filter fun (c : Fin 8) => bitOf mask c.1 && s.on (F.FOR_PARK_REQ c)).map (·.1))
  let needed := s.forest.codeMoves.foldl (fun n m => n ||| s.forest.codeMask m.page) 0
  let s := s.resumeCores (without asked s.forest.wasParked)
  (allFin 8).foldl (fun s (c : Fin 8) => if bitOf (without asked needed) c.1 then s.wr (F.FOR_PARK_REQ c) 0 else s) s

/-- CODE_PAGE_MOVE (R155): with every core of its mask parked, the first code page that waits is copied and switched, the
instruction caches of its cores are invalidated, and the cores go on. -/
def execCodePageMove (s : State) : Host.Outcome State Fault Refusal :=
  match s.forest.codeMoves with
  | [] => .next s
  | m :: rest =>
    if s.runsFrom m.page then .next s
    else
      let mask := s.forest.codeMask m.page
      let cells := runCells canopyPage s.canopy [(m.page, 1)]
      let s := { s with canopy := copyCells canopyPage s.canopy [(m.dest, 1)] cells }.zeroPages false [m.page]
      let move := fun k : CodePage => if k.page = m.page then { k with page := m.dest } else k
      let evac := fun e : Evac => if m.bank = some e.bank then { e with moved := true } else e
      let s := { s with forest := { s.forest with code := s.forest.code.map move, codeMoves := rest, evacs := s.forest.evacs.map evac } }
      let s := (allFin 8).foldl (fun s c => if bitOf mask c.1 then s.modCore c fun k => { k with icacheValid := false } else s) s
      .next ((s.event Ev.frst 0).resumeCores mask).evacCheck

/-- The code moves whose cores have not all parked in time are cancelled (R155); each evacuation among them is one refusal
(R154). -/
def State.parkTimeout (s : State) : State :=
  let gone := s.forest.codeMoves.filter fun m => s.runsFrom m.page
  if gone.isEmpty then s
  else
    let mask := gone.foldl (fun n m => n ||| s.forest.codeMask m.page) 0
    let late := fun e : Evac => if gone.any fun m => m.bank == some e.bank then { e with busy := true } else e
    let s := { s with forest := { s.forest with
      codeMoves := s.forest.codeMoves.filter fun m => !gone.contains m
      evacs := s.forest.evacs.map late } }
    let s := (gone.map (·.bank)).dedup.foldl (fun s _ => s.codeBusy) s
    (s.unaskPark mask).evacCheck

/-! ## Scratch claims, capture release, the placement report (R151, R152, R157, R321) -/

/-- A run of pages of the scratch region inside one bank. -/
def State.scratchRun (s : State) (n : Nat) : Option Nat :=
  let used := s.usedPages
  let ok := fun p => s.pageOpen 4 p && !used.contains p
  (List.range 2048).find? fun p => decide (p % 64 + n ≤ 64) && (List.range n).all (fun i => ok (p + i)) && s.roomFor 4 ((List.range n).map (p + ·))

/-- SCRATCH_CLAIM (R321): 1 to 64 pages as one run inside one bank. -/
def execScratchClaim (h : Hdr) (pages : Nat) (s : State) : Host.Outcome State Fault Refusal :=
  .next (s.begin_ h 0x15 fun s =>
    if pages = 0 ∨ 64 < pages then s.complete h stBadOperand
    else match s.scratchRun pages with
    | none => (s.event Ev.frst 5).complete h stNoSpace
    | some p =>
      let id := s.forest.nextClaim
      let s := s.takePages 4 [(p, pages)]
      { s with forest := { s.forest with claims := s.forest.claims ++ [(id, p, pages)], nextClaim := id % 65535 + 1 } }.complete h stOk 0 id)

/-- SCRATCH_RELEASE (R321). -/
def execScratchRelease (h : Hdr) (claim : Nat) (s : State) : Host.Outcome State Fault Refusal :=
  .next (s.begin_ h 0x15 fun s =>
    match s.forest.claims.find? fun c => c.1 == claim with
    | none => s.complete h 0x0D
    | some c =>
      let s := s.zeroPages false ((List.range c.2.2).map (c.2.1 + ·))
      { s with forest := { s.forest with claims := s.forest.claims.filter fun o => o.1 != claim } }.complete h stOk)

/-- CAPTURE_RELEASE (R152): the buffer of the burst before last. -/
def execCaptureRelease (h : Hdr) (grove : Nat) (s : State) : Host.Outcome State Fault Refusal :=
  .next (s.begin_ h 0x16 fun s =>
    if hg : grove < 32 then
      match s.groves[(⟨grove, hg⟩ : Fin 32)].bufs with
      | a :: b :: _ =>
        let s := (s.freePlace b).modGrove ⟨grove, hg⟩ fun k => { k with bufs := [a] }
        { s with forest := { s.forest with released := s.forest.released ++ (if b.sdram then [] else b.pages) } }.complete h stOk
      | _ => s.complete h 0x0E
    else s.complete h stBadOperand)

/-- STATE of a segment in reports (R157). -/
def State.segState (s : State) (x : Seg) : Nat :=
  x.tier.code + 4 * b2n (s.segHeld x.id x.gen) + 8 * b2n x.retiring +
    16 * b2n (s.forest.started.any fun m => m.seg == x.id && m.gen == x.gen)

/-- A mask of banks, or the first SDRAM page. -/
def Seg.banks (x : Seg) : Nat :=
  if x.tier = .sdram then (runPages x.pages).headD 0 else if x.tier = .canopy then maskOf ((runPages x.pages).map (· / 64)).dedup else 0

/-- One entry of the report. -/
def State.reportEntry (s : State) (x : Seg) : List Byte :=
  bytesLE 2 x.id ++ bytesLE 1 x.gen ++ bytesLE 1 (s.segState x) ++ bytesLE 4 x.heat ++ bytesLE 4 x.uses ++ bytesLE 2 x.pageCount ++
  bytesLE 1 (if x.tier = .canopy then x.pages.length else 0) ++ bytesLE 1 0 ++ bytesLE 4 x.banks ++ bytesLE 4 x.lines ++ bytesLE 8 x.lastUse

/-- Used pages of a region. -/
def State.regionUsed (s : State) (r : Nat) : Nat := ((s.usedPages.dedup).filter fun p => s.forest.regionOf p == some r).length

/-- PLACEMENT_REPORT (R157, R321, R324): header and entries in host memory, as many whole entries as MAXLEN takes. -/
def execPlacementReport (h : Hdr) (dest maxLen : Nat) (s : State) : Host.Outcome State Fault Refusal :=
  .next (s.begin_ h 0x17 fun s =>
    if dest % 64 ≠ 0 then s.complete h stBadOperand
    else
      let l := sortBy (fun a b => decide (a.id < b.id)) (s.forest.segs.filter fun x => x.loading.isNone)
      let n := min l.length ((maxLen - 64) / 32)
      let head := bytesLE 4 n ++ bytesLE 8 s.now ++ (List.range 5).flatMap (fun r => bytesLE 2 (s.regionUsed r)) ++ bytesLE 42 0
      let bytes := (head ++ (l.take n).flatMap s.reportEntry).take maxLen
      let s := { s with host := Mem.puts s.host dest bytes }
      s.complete h (if n < l.length ∨ maxLen < 64 then 0x0F else stOk) 0 n)

/-! ## Registers -/

/-- FOR_QUERY_WRITE (R137): selects the segment reported. -/
def execForQueryWrite (req : Req) (w : Word) (s : State) : Host.Outcome State Fault Refusal :=
  .next (s.regWrite req F.FOR_QUERY_SEG.addr w fun s => { s with forest := { s.forest with query := w.toNat % 65536 } })

/-- A write of FOR_SDRAM_SPLIT (R153): without effect while a page lies above the new split. -/
def State.sdramSplit (s : State) (gib : Nat) : State :=
  if s.usedSdram.any fun p => decide (gib * 1024 ≤ p) then s.event Ev.frst 7 else s.wr F.FOR_SDRAM_SPLIT_GIB gib

/-- FOR_SDRAM_SPLIT_WRITE (R153). -/
def execForSdramSplitWrite (req : Req) (w : Word) (s : State) : Host.Outcome State Fault Refusal :=
  .next (s.regWrite req F.FOR_SDRAM_SPLIT_GIB.addr w fun s => s.sdramSplit (fieldOf w.toNat 0 6))

end Sys2Proof.Machine
end

