-- ==== Sys2Proof/Machine/Pulse.lean ====
section
/-! DEFINITION. Pulse generators and comparators (R266, R272 to R279): the switching period, the trips that cut a pulse, the
protective sources and the self-check. -/

namespace Sys2Proof.Machine

/-- PCC cuts a pulse in progress; CYCLES consecutive periods so cut raise the over-current source (R272, R275). -/
def State.pccCut (s : State) (d : Fin 16) (step : Nat) : State :=
  let s := s.cutPulse d step true false
  if max 1 (s.rd (F.CMP_OC_CFG_CYCLES d)) ≤ s.dscs[d].pgn.cuts then s.dualRaise (48 + d.1) else s

/-- The end of blanking: a pulse whose PCC level came true in it and still holds ends then (R274). -/
def State.blankEnd (s : State) (d : Fin 16) : State :=
  let p := s.dscs[d].pgn
  if p.blanked then (s.modPgn d fun p => { p with blanked := false }).pccCut d (p.force.getD 0 0) else s

/-- The channels whose blanking has ended by now: a raw tick is 16 steps (R266, R273, R274). -/
def State.blankEnds (s : State) : State :=
  ((allFin 16).filter fun (d : Fin 16) =>
    s.dscs[d].pgn.blanked && decide (s.dscs[d].pgn.force.getD 0 0 ≤ 16 * (s.tim.raw - s.dscs[d].pgn.start))).foldl State.blankEnd s

/-- The on-time of a new period (R272, R276): none in DISCONNECT, none while WH, OVP or DSC_FLT_L holds DSC_PH low, else the
duty in force; the Firebreak's ramp controller commands a duty the spec does not state, a free value. [log 53: DEDUCED] -/
def State.periodOn (s : State) (d : Fin 16) : Nat × State :=
  let n := s.pgnN d
  let p := s.dscs[d].pgn
  if s.dscMode d = 0 then (0, s)
  else if s.on (F.CMP_LEVEL_WH d) || s.on (F.CMP_LEVEL_OVP d) || s.fltHeld d then (0, s)
  else if s.ramping d then (fun r : Nat × State => (r.1 % (n - p.force.getD 2 0 / 2 ^ 16 + 1), r.2)) s.takeFree
  else (p.steps n p.duty, s)

/-- SWITCHING_PERIOD_START (R266, R274, R276, R278): the record of the period before is shown, the written thresholds and
limits take effect, and DSC_PH rises if the duty in force gives a pulse; leaving DISCONNECT asserts DSC_EN. -/
def State.periodStart (s : State) (d : Fin 16) : State :=
  let s := s.blankEnd d
  let p := s.dscs[d].pgn
  let s := s.wrs [(F.PGN_STATUS_CUT d, b2n p.cut), (F.PGN_STATUS_ON_LAST d, p.on)]
  let words := s.pgnWords d
  let live := s.dscMode d != 0
  let raw := s.tim.raw
  let pcc := s.on (F.CMP_LEVEL_PCC d)
  let s := s.modPgn d fun p =>
    { p with start := raw, blanked := pcc, pccCut := false, winCut := false, cut := false, samp := 0, cuts := if p.pccCut then p.cuts else 0, force := words
             first := live && (!p.en || (p.first && p.on == 0)), en := live, flt := false }
  let s := if s.fltHeld d then s.modPgn d fun p => { p with flt := true } else s
  let r := s.periodOn d
  let s := (r.2.modPgn d fun p => { p with on := r.1, ahead := false }).reportOn d r.1
  if !live then s
  else if s.on (F.CMP_LEVEL_WH d) || s.on (F.CMP_LEVEL_OVP d) then s.noteCut d false true
  else if s.fltHeld d then s.modPgn d fun p => { p with cut := true }
  else if s.on (F.CMP_LEVEL_WL d) then s.noteCut d false true
  else s

/-- DSC_EN, DSC_PH and DSC_PL at a step of the period in progress (R272, R276): DSC_PH is high from the period start to the edge
of the pulse in force; DSC_PL falls DT_RISE before the next period start and rises DT_FALL after DSC_PH has fallen, is held low by
WL, and after DISCONNECT until the first pulse has ended; DSC_FLT_L holds both for the rest of its period. -/
def State.stageOut (s : State) (d : Fin 16) (step : Nat) : Bool × Bool × Bool :=
  let p := s.dscs[d].pgn
  let dt := p.force.getD 1 0
  let ph := p.en && !p.flt && decide (step < p.on)
  let fallen := decide (p.on = 0) || decide (p.on + dt / 2 ^ 16 ≤ step)
  let pl := p.en && !p.flt && s.on (F.CMP_LEVEL_WL d) == false && fallen && decide (step + dt % 2 ^ 16 < s.pgnN d) && !(p.first && p.on == 0)
  (p.en, ph, pl)

/-- PCC's threshold at the pins at a step of the period, in µV (R273): IPK through the shunt to a DAC of 12 bits of 64 µV, rounded
to nearest, less SLOPE times the time since the period start; a step is 1/12 800 µs. -/
def State.pccThreshold (s : State) (d : Fin 16) (step : Nat) : ℚ :=
  let f := s.dscs[d].pgn.force
  let r : ℚ := max 1 (s.rd (F.CMP_RSHUNT_UOHM d))
  64 * min 4095 (⌊f.getD 3 0 * r / 6400000 + 1 / 2⌋ : ℚ) - f.getD 4 0 * r * step / 12800000

/-- SWITCHING_PERIOD_START (R266): a period of a bound channel starts at its step. -/
def execSwitchingPeriodStart (d : Fin 16) (s : State) : Host.Outcome State Fault Refusal :=
  .next (if s.dscBound d && s.stepDue d 0 then s.periodStart d else s)

/-- PCC_TRIP (R272 to R275): the level is live; outside blanking it cuts a pulse in progress, and CYCLES consecutive periods
so cut raise the over-current source. -/
def execPccTrip (d : Fin 16) (step : Nat) (s : State) : Host.Outcome State Fault Refusal :=
  let s := s.wr (F.CMP_LEVEL_PCC d) 1
  .next (if step < s.dscs[d].pgn.force.getD 0 0 then s.modPgn d fun p => { p with blanked := true } else s.pccCut d step)

/-- WINDOW_HIGH_TRIP (R272): DSC_PH is held low; a pulse in progress ends. -/
def execWindowHighTrip (d : Fin 16) (step : Nat) (s : State) : Host.Outcome State Fault Refusal :=
  .next ((s.wr (F.CMP_LEVEL_WH d) 1).cutPulse d step false true)

/-- WINDOW_LOW_TRIP (R272, R274): DSC_PL is held low while WL is true; the period counts as suppressed by WL. [log 53: DEDUCED] -/
def execWindowLowTrip (d : Fin 16) (_step : Nat) (s : State) : Host.Outcome State Fault Refusal :=
  let s := s.wr (F.CMP_LEVEL_WL d) 1
  .next (if s.dscs[d].pgn.en then s.noteCut d false true else s)

/-- OVP_TRIP (R272): as WINDOW_HIGH_TRIP. -/
def execOvpTrip (d : Fin 16) (step : Nat) (s : State) : Host.Outcome State Fault Refusal :=
  .next ((s.wr (F.CMP_LEVEL_OVP d) 1).cutPulse d step false true)

/-- DSC_OVER_VOLTAGE (R275): OVP has been true for more than 100 ns. -/
def execDscOverVoltage (d : Fin 16) (s : State) : Host.Outcome State Fault Refusal :=
  .next (if s.on (F.CMP_LEVEL_OVP d) then s.dualRaise (32 + d.1) else s)

/-- COMPARATOR_LEVEL_FALSE (R272, R275): PCC, WH, WL or OVP becomes false; without OVP the over-voltage source is no longer
active. -/
def execComparatorLevelFalse (d : Fin 16) (which : Fin 4) (s : State) : Host.Outcome State Fault Refusal :=
  let bit := match which.1 with
    | 0 => F.CMP_LEVEL_PCC d
    | 1 => F.CMP_LEVEL_WH d
    | 2 => F.CMP_LEVEL_WL d
    | _ => F.CMP_LEVEL_OVP d
  let s := s.wr bit 0
  let s := if which = 0 then s.modPgn d fun p => { p with blanked := false } else s
  .next (if which = 3 ∧ s.flt.active.contains (32 + d.1) then s.dualOff (32 + d.1) else s)

/-- CMP_ST_GO (R279): starts the self-check of a channel. -/
def execCmpStGo (d : Fin 16) (s : State) : Host.Outcome State Fault Refusal := .next (s.cmpGo d)

/-- CMP_SELF_CHECK_DONE (R279): passed, or failed in the steps of a mask, which reports the source "DSC self-check". [log 79: DEDUCED] -/
def execCmpSelfCheckDone (d : Fin 16) (fails : Nat) (s : State) : Host.Outcome State Fault Refusal :=
  if s.selfChecking d then
    let f := fails % 16
    let s := (s.wrs [(F.CMP_ST_CTRL_GO d, 0), (F.CMP_ST_RESULT_RESULT d, if f = 0 then 1 else 2), (F.CMP_ST_RESULT_ABORTED d, 0),
      (F.CMP_ST_RESULT_FAILS d, f)]).event (Ev.cmp d) 3
    .next (if f = 0 then s else s.faultOnce (80 + d.1) (s.groveOfDsc d))
  else .next s

end Sys2Proof.Machine
end

