-- ==== Sys2Proof/Machine/PinWrites.lean ====
section
/-! DEFINITION. The pattern tables as software writes them and the scrubbers read them (R78, R79, R161, R176, R179, R180), the
PE control buses (R89, R90), epochs (R113) and the TRIG_IN inputs (R114, R207). -/

namespace Sys2Proof.Machine

/-! ## Symbol maps (R75, R78, R79) -/

/-- Whether a channel's grove is in a burst, from Declared to Ended. -/
def State.chanBusy (s : State) (c : Fin 128) : Bool :=
  match s.groveOfChan c with
  | some g => !s.groveIdle g
  | none => false

/-- The parity bit that makes the ones of some words even, the bit itself left out. -/
def parityWords (l : List Nat) : Nat := ((l.map fun w => (bitsOf w 32).length).sum) % 2

/-- Whether a low word holds a reserved value: 3 in a DEN field or 7 in an EXP field. -/
def symReserved (w : Nat) : Bool :=
  (List.range 4).any (fun k => fieldOf w (4 * k + 2) 2 == 3) || fieldOf w 16 3 == 7 || fieldOf w 20 3 == 7

/-- A write of one word of a waveform definition (R78). -/
def State.symWrite (s : State) (c : Fin 128) (ts code : Nat) (hi : Bool) (w : Nat) : State :=
  let busy := s.chanBusy c
  let bad := !hi && symReserved w
  if busy || bad then
    (s.incSat F.SYM_DROP_CNT_COUNT).raise Ev.sym (b2n busy + 2 * b2n bad)
  else
    let s := if hi then s.wr (symHi c ts code) (setField (s.rd (symHi c ts code)) 0 8 w) else s.wr (symLo c ts code) (w % 2 ^ 25)
    let h := s.rd (symHi c ts code) % 2 ^ 31
    s.wr (symHi c ts code) (h + 2 ^ 31 * parityWords [s.rd (symLo c ts code), h])

/-- SYM_MAP_WRITE (R78). -/
def execSymMapWrite (req : Req) (ch : Fin 128) (ts : Fin 32) (code : Fin 16) (hi : Bool) (w : Word) (s : State) :
    Host.Outcome State Fault Refusal :=
  .next (s.regWrite req (if hi then symHi ch ts code else symLo ch ts code).addr w fun s => s.symWrite ch ts code hi w.toNat)

/-- SYM_SCRUB (R79): a pass over every entry, with the entry whose parity fails, if any. -/
def execSymScrub (hit : Option (Fin 128 × Fin 32 × Fin 16)) (s : State) : Host.Outcome State Fault Refusal :=
  match hit with
  | some (ch, ts, code) => .next (s.parityError (.symMap ch ts code) true (s.groveOfChan ch))
  | none => .next s

/-! ## Timing tables (R161, R176, R179, R180) -/

/-- A dropped write of the TMG block with its event bits. -/
def State.tmgDrop (s : State) (bits : Nat) : State := (s.incSat F.TMG_DROP_CNT_COUNT).raise Ev.tmg bits

/-- A write of a period's low word: held for its pair, or dropped while the grove is in a burst. -/
def State.periodLo (s : State) (r : Req) (g ts : Fin 32) (w : Word) : State :=
  if s.groveIdle g then s.holdLow r (F.TMG_PERIOD_LO g ts).addr w else s.tmgDrop 1

/-- A write of a period's high word: the pair takes effect, unless its grove is in a burst or it is out of range. -/
def State.periodHi (s : State) (r : Req) (g ts : Fin 32) (w : Word) : State :=
  let (low, s') := s.takeHeld r (F.TMG_PERIOD_LO g ts).addr (s.rd (F.TMG_PERIOD_LO g ts))
  let high := w.toNat % 2 ^ 11
  let v := low + 2 ^ 32 * high
  let busy := !s.groveIdle g
  let bad := decide (v < 2048) || decide (2 ^ 42 < v)
  if busy || bad then s'.tmgDrop (b2n busy + 2 * b2n bad)
  else (s'.wr (F.TMG_PERIOD_LO g ts) low).wr (F.TMG_PERIOD_HI g ts) (high + 2 ^ 31 * parityWords [low, high])

/-- TMG_PERIOD_LO_WRITE (R161). -/
def execTmgPeriodLoWrite (req : Req) (g ts : Fin 32) (w : Word) (s : State) : Host.Outcome State Fault Refusal :=
  .next (s.regWrite req (F.TMG_PERIOD_LO g ts).addr w fun s => s.periodLo req g ts w)

/-- TMG_PERIOD_HI_WRITE (R161). -/
def execTmgPeriodHiWrite (req : Req) (g ts : Fin 32) (w : Word) (s : State) : Host.Outcome State Fault Refusal :=
  .next (s.regWrite req (F.TMG_PERIOD_HI g ts).addr w fun s => s.periodHi req g ts w)

/-- Recomputes PAR of a timing-set entry over its seven words (R180). -/
def State.entryPar (s : State) (base : Nat) : State :=
  let words := (List.range 7).map fun i => s.rd ⟨.tmg, base + 4 * i, 0, 31⟩ + (if i < 6 then 2 ^ 31 * s.rd ⟨.tmg, base + 4 * i, 31, 1⟩ else 0)
  s.wr ⟨.tmg, base + 24, 31, 1⟩ (parityWords words)

/-- Whether a grove's or channel's table may be written: its grove is in no burst, or it is unbound. -/
def State.tableFree (s : State) (c : Fin 128) : Bool := !s.chanBusy c

/-- A write of a word of the timing tables other than the periods and the module delay (R179): a channel's timing-set entry,
a grove's TMG_GCFG, a channel's deskew and split registers. Any other address has no effect here. -/
def State.tableWrite (s : State) (addr w : Nat) : State :=
  let o := addr - 0x100000
  if addr % 4 ≠ 0 ∨ addr < 0x100000 ∨ 0x200000 ≤ addr then s
  else if o < 0x80000 then
    let c : Fin 128 := fin 128 (o / 0x1000)
    let inside := o % 0x80
    if 0x1C ≤ inside then s
    else if s.tableFree c then
      let f : Fld := ⟨.tmg, addr, 0, if inside = 0x18 then 13 else 32⟩
      (s.wr f w).entryPar (addr - inside)
    else s.tmgDrop 1
  else if o < 0x90000 then
    if o % 0x400 = 0x200 then
      if s.groveIdle (fin 32 ((o - 0x80000) / 0x400)) then s.wr ⟨.tmg, addr, 0, 1⟩ w else s.tmgDrop 1
    else s
  else if o < 0x91000 then
    if o % 0x20 < 0x10 ∨ o % 0x20 = 0x14 then
      if s.tableFree (fin 128 ((o - 0x90000) / 0x20)) then
        (s.wr ⟨.tmg, addr, 0, 16⟩ w).wr ⟨.tmg, addr, 31, 1⟩ (parityWords [w % 2 ^ 16])
      else s.tmgDrop 1
    else s
  else s

/-- TIMING_TABLE_WRITE (R179). -/
def execTimingTableWrite (req : Req) (addr : Nat) (w : Word) (s : State) : Host.Outcome State Fault Refusal :=
  .next (s.regWrite req addr w fun s => s.tableWrite addr w.toNat)

/-- A write of TMG_MOD_DELAY: dropped while any grove is in a burst (R176, R179). -/
def State.modDelay (s : State) (w : Nat) : State := if s.bursts.isEmpty then s.wr F.TMG_MOD_DELAY_DELAY w else s.tmgDrop 1

/-- TMG_MOD_DELAY_WRITE (R176). -/
def execTmgModDelayWrite (req : Req) (w : Word) (s : State) : Host.Outcome State Fault Refusal :=
  .next (s.regWrite req F.TMG_MOD_DELAY_DELAY.addr w fun s => s.modDelay w.toNat)

/-- The grove a place of the timing tables belongs to. -/
def State.placeGrove (s : State) : ParityHit → Option (Fin 32)
  | .timing 1 g _ => some (fin 32 g)
  | .timing _ c _ => s.groveOfChan (fin 128 c)
  | .symMap c _ _ => s.groveOfChan (fin 128 c)
  | .none => none

/-- TMG_SCRUB (R180): a pass over every table, with the word whose parity fails, if any. -/
def execTmgScrub (hit : ParityHit) (s : State) : Host.Outcome State Fault Refusal :=
  .next (s.parityError hit true (s.placeGrove hit))

/-! ## PE control buses (R89, R90) -/

/-- A write of PEC_CMD: refused while a transaction runs; with GO, a transaction of NBITS bits starts. [log 152: DESIGN CHOICE] -/
def State.pecCmd (s : State) (b : Fin 16) (w : Nat) : State :=
  if s.on (F.PEC_CMD_GO b) then s.wr (F.PEC_STATUS_OVERRUN b) 1
  else
    let n := fieldOf w 0 7
    let s := s.wrs [(F.PEC_CMD_NBITS b, n), (F.PEC_CMD_CS b, fieldOf w 8 2)]
    if bitOf w 16 = false then s
    else if n = 0 ∨ 64 < n then s.wr (F.PEC_STATUS_OVERRUN b) 1
    else { s with pec := upd s.pec b fun _ => ⟨true, n, s.rdP (F.PEC_TX_LO_DATA b)⟩ }.wr (F.PEC_CMD_GO b) 1

/-- PEC_GO (R89). [log 152: DESIGN CHOICE] -/
def execPecGo (req : Req) (b : Fin 16) (w : Word) (s : State) : Host.Outcome State Fault Refusal :=
  .next (s.regWrite req (F.PEC_CMD_GO b).addr w fun s => s.pecCmd b w.toNat)

/-- PEC_TRANSACTION_DONE (R89): the bits shifted in stand low-aligned in PEC_RX. -/
def execPecTransactionDone (b : Fin 16) (rx : Nat) (s : State) : Host.Outcome State Fault Refusal :=
  if s.pec[b].running then
    let s := s.wrP (F.PEC_RX_LO_DATA b) (rx % 2 ^ s.pec[b].nbits)
    let s := { s with pec := upd s.pec b fun p => { p with running := false } }
    .next ((s.incWrap (F.PEC_STATUS_XFERS b)).wrs [(F.PEC_CMD_GO b, 0), (F.PEC_STATUS_DONE b, 1)])
  else .next s

/-! ## Epochs (R113, R114) -/

/-- The epoch source in force: 3 is treated as 0. -/
def State.syncRole (s : State) : Nat := s.rd F.SEQ_SYNC_CFG_ROLE % 3

/-- An epoch, with event bits raised beside its own: the slot counter restarts, and the Armed bursts in mode SYNC that have waited 2 slots start here. -/
def State.epoch (s : State) (bits : Nat := 0) : State :=
  let slot := s.slotNext
  let s := { s with sync := { s.sync with epochSlot := slot } }
  let s := (s.incWrap F.SEQ_EPOCH_CNT_COUNT).raise Ev.seqG (1 + bits)
  s.bursts.foldl (fun s b =>
    if b.stage = .armed ∧ b.ops.mode = 1 ∧ b.startSlot = none ∧ (b.armedAt + 7) / 8 + 2 ≤ slot then s.startEvent b slot else s) s

/-- SYNC_EPOCH_RECEIVE (R113): with ROLE 1, SYNC_IN is sampled high after low; another slot count than PERIOD is a slip. -/
def execSyncEpochReceive (s : State) : Host.Outcome State Fault Refusal :=
  if s.syncRole = 1 then
    let p := s.rd F.SEQ_SYNC_CFG_PERIOD
    let slip := p != 0 && s.slotNext - s.sync.epochSlot != p
    .next (s.epoch (2 * b2n slip))
  else .next s

/-- SYNC_EPOCH_DRIVE (R113): with ROLE 2, PERIOD slots after the latest epoch the module makes one and drives SYNC_OUT. -/
def execSyncEpochDrive (s : State) : Host.Outcome State Fault Refusal :=
  let p := s.rd F.SEQ_SYNC_CFG_PERIOD
  if s.syncRole = 2 ∧ p ≠ 0 ∧ s.sync.epochSlot + p ≤ s.slotNext then
    let slot := s.slotNext
    .next { s with sync := { s.sync with syncOut := some slot } }.epoch
  else .next s

/-! ## TRIG_IN (R114, R207) -/

/-- The inputs are sampled at a REFCLK edge (R114): one high that was low at the edge before fixes the start slot of the Armed
bursts that it triggers, the fourth boundary after this one. -/
def State.sampleTrig (s : State) : State :=
  let was := s.sync.sampled
  let s := { s with sync := { s.sync with sampled := s.sync.trigIn } }
  (allFin 4).foldl (fun s n =>
    if s.sync.trigIn[n] && !was[n] then
      s.bursts.foldl (fun s b =>
        if b.stage = .armed ∧ b.ops.mode = 2 ∧ b.ops.trig = n.1 ∧ b.startSlot = none ∧ b.met = false then s.startEvent b (s.slotNow + 4) else s) s
    else s) s

/-- One raw tick of 1.25 ns, while VIN is present (R346): a pulse that PCC met in blanking ends with it (R274); every eighth tick is a REFCLK edge, at
which TRIG_IN is sampled (R114), and evacuations that wait for a buffer or a store to be free go on (R147). [log 2: DESIGN CHOICE] -/
def State.clockTick (s : State) : State :=
  if s.power.present = false then s else
  let s := { s with tim := { s.tim with raw := (s.tim.raw + 1) % 2 ^ 64 } }.blankEnds
  if s.tim.raw % 8 = 0 then s.sampleTrig.evacCheck else s

/-- TRIG_IN_EDGE (R114, R207): an edge of an input at the ball, in master tick `sub` of the present tick. A rising edge is the
event of the trigger engines that the input qualifies. [log 83: DEDUCED] -/
def execTrigInEdge (n : Fin 4) (rising : Bool) (sub : Fin 4) (s : State) : Host.Outcome State Fault Refusal :=
  let was := s.sync.trigIn[n]
  let point := s.fuNow + 4096 * sub.1
  let hist := if rising = was then s.sync.trigHist[n] else (((point : Nat) : Int), rising) :: keepSpan point (2 ^ 29) s.sync.trigHist[n]
  let s := { s with sync := { s.sync with trigIn := s.sync.trigIn.set n rising, trigHist := s.sync.trigHist.set n hist } }
  if rising && !was then
    .next ((allFin 4).foldl (fun s (e : Fin 4) =>
      if s.qsrc e = 1 ∧ s.rd (F.TRG_QUAL_QSEL e) = n.1 then s.qualEvent e point else s) s)
  else .next s

end Sys2Proof.Machine
end

