-- ==== Sys2Proof/Machine/Sdram.lean ====
section
/-! DEFINITION. The external SDRAM controller (R361 to R378). DMC_STATUS.STATE: 0 OFF, 1 TRAINING, 2 READY, 3 FAILED. -/

namespace Sys2Proof.Machine

/-! ## Geometry and the address map (R362 to R364) -/

/-- Fitted capacity in MiB. -/
def State.fittedMib (s : State) : Nat := 8192 * (s.rd F.DMC_GEOM_DENSITY + 1) * (1 + s.rd F.DMC_GEOM_RANKS2)

/-- A combination the table of R362 does not support. -/
def State.badGeometry (s : State) : Bool := decide (2 ≤ s.rd F.DMC_GEOM_DENSITY) && s.on F.DMC_GEOM_RANKS2

/-- Where a byte address lies (R364): subchannel, bank (rank × 16 + group × 4 + bank), row. -/
def State.sdramMap (s : State) (a : Nat) : Nat × Nat × Nat :=
  let small := s.rd F.DMC_GEOM_DENSITY = 0
  let ranks2 := s.on F.DMC_GEOM_RANKS2
  let top := if small then 17 else 18
  let rank := if ranks2 then fieldOf a top 1 else 0
  let row := a / 2 ^ (if ranks2 then top + 1 else top)
  (fieldOf a 8 2, 16 * rank + 4 * fieldOf a 10 2 + fieldOf a 12 (if small then 1 else 2), row)

/-- The column at which the burst of a byte address begins (R364). -/
def State.sdramCol (s : State) (a : Nat) : Nat := 16 * fieldOf a 6 2 + 64 * fieldOf a (if s.rd F.DMC_GEOM_DENSITY = 0 then 13 else 14) 4

/-- A port whose rows are held open (R365, R371). -/
def streamPort (p : Nat) : Bool := p == 0 || p == 1

def State.modSub (s : State) (k : Fin 4) (f : DmcSub → DmcSub) : State := { s with dmc := { s.dmc with subs := upd s.dmc.subs k f } }

/-- Shows the requests in flight (R366). -/
def State.noteDmc (s : State) : State :=
  (List.range 6).foldl (fun s p => s.wr (F.DMC_PORT_STAT_IN_FLIGHT p) (s.dmc.reqs.filter fun r => r.port == p).length)
    (s.wr F.DMC_STATUS_IN_FLIGHT s.dmc.reqs.length)

/-! ## Acceptance, application, delivery (R366, R367, R369) -/

/-- What the end of a request counts: its lateness, its latency, its bytes. -/
def State.endReq (s : State) (r : DmcReq) : State :=
  let now := s.now
  let ns := zx 48 ((now : Int) - r.arrived) * 5 / 4
  let s := if zx 48 ((now : Int) - r.deadline) ≠ 0 ∧ reachedAt now r.deadline then
      (s.incSat (F.DMC_PORT_STAT_LATE r.port)).event Ev.dmc 5 else s
  let s := s.wr (F.DMC_PORT_LAT_MAX_NS r.port) (max (s.rd (F.DMC_PORT_LAT_MAX_NS r.port)) (min 65535 ns))
  s.wrP (F.DMC_PORT_BYTES_LO_COUNT r.port) ((s.rdP (F.DMC_PORT_BYTES_LO_COUNT r.port) + 64) % 2 ^ 64)

/-- Writes the enabled bytes of a block. -/
def putBlock (m : Mem) (a be : Nat) (data : List Byte) : Mem :=
  (data.take 64).zipIdx.foldl (fun (m : Mem) (b : Byte × Nat) => if bitOf be b.2 then Mem.put m (a + b.2) b.1 else m) m

/-- Applies the accepted writes whose subchannel's write queue has room, oldest first. -/
def State.applyWrites (s : State) : State :=
  s.dmc.reqs.foldl (fun (s : State) r =>
    let k : Fin 4 := fin 4 (s.sdramMap r.addr).1
    if r.write && decide (s.dmc.subs[k].writes.length < 32) then
      let s := s.modSub k fun x => { x with writes := x.writes ++ [r] }
      let s := { s with
        sdram := putBlock s.sdram r.addr r.be r.data, dmc := { s.dmc with reqs := s.dmc.reqs.filter fun q => q.order != r.order } }
      s.endReq r
    else s) s

/-- Whether a data FIFO of a subchannel has room among the requests in flight (R21): a read holds a place from its issue to its
delivery, a write from its acceptance to its application. [log 168: DEDUCED] -/
def State.fifoRoom (s : State) (reqs : List DmcReq) (write : Bool) (sub : Nat) : Bool :=
  decide ((reqs.filter fun q => q.write == write && (write || q.issued.isSome) && (s.sdramMap q.addr).1 == sub).length < 64)

/-- Accepts waiting requests while the limits of R366 let them, each port's in the order it presented them; a request whose data
FIFO lacks room waits (R21). -/
def State.acceptReqs (s : State) : State :=
  let take := fun (a : List DmcReq × List DmcReq) (r : DmcReq) =>
    let lim := max 1 (s.rd (F.DMC_PORT_CFG_MAX_INFLIGHT r.port))
    let mine := (a.1.filter fun q => q.port == r.port).length
    let room := s.fifoRoom a.1 r.write (s.sdramMap r.addr).1
    if a.1.length < 256 ∧ mine < lim ∧ room ∧ !(a.2.any fun q => q.port == r.port) then (a.1 ++ [r], a.2) else (a.1, a.2 ++ [r])
  let (reqs, waits) := s.dmc.waits.foldl take (s.dmc.reqs, [])
  { s with dmc := { s.dmc with reqs := reqs, waits := waits } }.applyWrites.noteDmc

/-- SDRAM_REQUEST (R365 to R367): a port presents a request; beyond the usable capacity a read gives zeros and a write is
dropped (R363). -/
def execSdramRequest (port : Fin 6) (write : Bool) (addr : Nat) (data : List Byte) (be deadline : Nat) (s : State) : Host.Outcome State Fault Refusal :=
  let a := addr / 64 * 64
  if s.sdramBytes < a + 64 then .next (if write then s else s.answerWith (List.replicate 64 0))
  else
    let now := s.now
    let target := max 1 (s.rd (F.DMC_PORT_CFG_TARGET_NS port))
    let dl := if port.1 = 0 then deadline else now + (4 * target + 4) / 5
    let r : DmcReq := { port := port, order := s.dmc.next, write := write, addr := a, data := data, be := be, arrived := now, deadline := dl }
    .next { s with dmc := { s.dmc with waits := s.dmc.waits ++ [r], next := s.dmc.next + 1 } }.acceptReqs

/-- READ_DATA_RETURN (R366, R367, R369): the data of the port's oldest issued read is delivered. [log 76: DEDUCED] -/
def execReadDataReturn (port : Fin 6) (s : State) : Host.Outcome State Fault Refusal :=
  match s.dmc.reqs.find? fun r => r.port == port.1 && !r.write && r.issued.isSome && !s.dmc.subs[fin 4 (s.sdramMap r.addr).1].alert with
  | none => .next s
  | some r =>
    let data := (Mem.bytes s.sdram r.addr 64).map BitVec.toNat
    let s := { s with dmc := { s.dmc with reqs := s.dmc.reqs.filter fun q => q.order != r.order } }
    .next ((s.endReq r).acceptReqs.answerWith data)

/-! ## The choice of a command (R368, R370, R371) -/

/-- 0 CRITICAL, 1 URGENT, 2 NORMAL (R367). [log 74: DEDUCED] -/
def State.urgency (s : State) (r : DmcReq) : Nat :=
  let left := sx 48 (zx 48 ((r.deadline : Int) - s.now))
  if left ≤ 0 then 0 else if 5 * left ≤ 4 * s.rd F.DMC_URGENCY_URGENT_NS then 1 else 2

/-- A row open in a bank. -/
def DmcSub.row (k : DmcSub) (bank : Nat) : Option (Nat × Bool) := (k.rows.find? fun r => r.1 == bank).map (·.2)

/-- The reads, while their read FIFO has room (R21), and, while writes are issued, the writes of a subchannel that wait for
commands. [log 74: DEDUCED] -/
def State.candidates (s : State) (k : Fin 4) : List DmcReq :=
  (if s.fifoRoom s.dmc.reqs false k.1 then s.dmc.reqs.filter fun r => !r.write && r.issued.isNone && (s.sdramMap r.addr).1 == k.1
    else []) ++
    (if s.dmc.subs[k].draining then s.dmc.subs[k].writes else [])

/-- Whether a request's row is open. -/
def State.rowOpen (s : State) (k : Fin 4) (r : DmcReq) : Bool :=
  let m := s.sdramMap r.addr
  (s.dmc.subs[k].row m.2.1).any fun x => x.1 == m.2.2

/-- The request served before another: class, then an open row, then deadline, then order (R368). [log 74: DEDUCED] -/
def State.ranksBefore (s : State) (k : Fin 4) (a b : DmcReq) : Bool :=
  let key := fun r : DmcReq => (s.urgency r, b2n (!s.rowOpen k r))
  let x := key a
  let y := key b
  decide (x.1 < y.1) || (x.1 == y.1 && (decide (x.2 < y.2) || (x.2 == y.2 &&
    (decide (a.deadline < b.deadline) || (a.deadline == b.deadline && decide (a.order < b.order))))))

/-- A command enters the retry buffer, which holds 64 (R374). -/
def State.issue (s : State) (k : Fin 4) (kind bank row order : Nat) (col : Nat := 0) : State :=
  let c : DmcCmd := ⟨kind, bank, row, order, s.tim.raw, col⟩
  s.modSub k fun x => { x with retry := (c :: x.retry).take 64 }

/-- The page counter of a bank when a request finds the bank's row open, or another (R370). -/
def State.pageCount (s : State) (k : Fin 4) (bank : Nat) (hit : Bool) : State :=
  s.modSub k fun x =>
    let n := (cellGet bank x.ctr).getD 0
    { x with ctr := cellPut 0 bank (if hit then min 3 (n + 1) else n - 1) x.ctr }

/-- The next command of a request: a column access to its open row, a precharge of another row, or an activation. [log 74: DEDUCED] -/
def State.serve (s : State) (k : Fin 4) (r : DmcReq) : State :=
  let (_, bank, row) := s.sdramMap r.addr
  let was := s.dmc.subs[k].row bank
  let hit := was.any fun x => x.1 == row
  let s := if !r.found ∧ was.isSome then s.pageCount k bank hit else s
  let mark := fun q : DmcReq => if q.order = r.order then { q with found := true } else q
  let s := { s with dmc := { s.dmc with reqs := s.dmc.reqs.map mark } }.modSub k fun x => { x with writes := x.writes.map mark }
  if hit then
    let raw := s.tim.raw
    let held := streamPort r.port || was.any (·.2)
    let ctr : Nat := (cellGet bank s.dmc.subs[k].ctr).getD 0
    let keep := held || (s.on F.DMC_PAGE_CFG_PRED_EN && decide (2 ≤ ctr))
    let done := fun q : DmcReq => if q.order = r.order then { q with issued := some raw } else q
    let s := (s.issue k (if r.write then 2 else 1) bank row r.order (s.sdramCol r.addr)).incWrap (F.DMC_SC_HITS_COUNT k)
    let s := { s with dmc := { s.dmc with reqs := s.dmc.reqs.map done } }
    s.modSub k fun x =>
      let rest := x.rows.filter fun y => y.1 != bank
      { x with rows := if keep then (bank, row, held) :: rest else rest, writes := x.writes.filter fun q => q.order != r.order }
  else if was.isSome then
    (s.issue k 3 bank row r.order).modSub k fun x => { x with rows := x.rows.filter fun y => y.1 != bank }
  else
    ((s.issue k 0 bank row r.order).incWrap (F.DMC_SC_ACTS_COUNT k)).modSub k fun x => { x with rows := (bank, row, streamPort r.port) :: x.rows }

/-- A burst whose content lies in the SDRAM tier. -/
def State.sdramShare (s : State) (b : Burst) : Bool := (s.reachSegs b).any fun x => x.tier == .sdram

/-- A burst with an SDRAM-tier share is in a stage from Granted to Ended (R372). -/
def State.sdramBurst (s : State) : Bool :=
  s.bursts.any fun b => b.stage != .declared && b.stage != .admitted && s.sdramShare b

/-- Issues a refresh: same-bank while a burst streams from the SDRAM, else all-bank; it closes the rows it needs (R371,
R372). [log 74: DEDUCED] -/
def State.refreshNow (s : State) (k : Fin 4) : State :=
  let same := s.sdramBurst
  let s := s.issue k 4 s.dmc.subs[k].refBank 0 0
  s.modSub k fun x =>
    { x with due := x.due - 1, refBank := if same then (x.refBank + 1) % 4 else x.refBank
             rows := if same then x.rows.filter fun y => y.1 % 4 != x.refBank else [] }

/-- COMMAND_SLOT (R368): a subchannel's next command: a refresh at its limit, CRITICAL and URGENT requests, refreshes and
calibrations that wait, other requests. -/
def execCommandSlot (sub : Fin 4) (s : State) : Host.Outcome State Fault Refusal :=
  let x := s.dmc.subs[sub]
  if s.rd F.DMC_STATUS_STATE ≠ 2 ∨ x.alert then .next s
  else
    let reads := s.dmc.reqs.any fun r => !r.write && r.issued.isNone && (s.sdramMap r.addr).1 == sub.1
    let drain := !x.writes.isEmpty && (x.draining || decide (16 ≤ x.writes.length) || !reads || x.writes.any fun r => decide (s.urgency r ≤ 1))
    let s := s.modSub sub fun x => { x with draining := drain }
    let best := (sortBy (s.ranksBefore sub) (s.candidates sub)).head?
    if x.down then .next (if best.isSome || decide (0 < x.due) then s.modSub sub fun x => { x with down := false } else s)
    else if 4 ≤ x.due then .next (s.refreshNow sub)
    else match best with
      | some r =>
        if s.urgency r ≤ 1 then .next (s.serve sub r)
        else if 0 < x.due then .next (s.refreshNow sub)
        else if 0 < x.cals then .next ((s.issue sub 5 0 0 0).modSub sub fun x => { x with cals := x.cals - 1 })
        else .next (s.serve sub r)
      | none =>
        if 0 < x.due then .next (s.refreshNow sub)
        else if 0 < x.cals then .next ((s.issue sub 5 0 0 0).modSub sub fun x => { x with cals := x.cals - 1 })
        else .next s

/-- ROW_IDLE_CLOSE (R370, R371): an open row with no request for the idle time is closed, unless a stream port holds it. -/
def execRowIdleClose (sub : Fin 4) (rank bank : Nat) (s : State) : Host.Outcome State Fault Refusal :=
  let b := 16 * rank + bank
  let wanted := (s.candidates sub).any fun r => (s.sdramMap r.addr).2.1 == b
  if wanted then .next s
  else .next (s.modSub sub fun x => { x with rows := x.rows.filter fun y => y.1 != b || y.2.2 })

/-- POWER_DOWN_ENTRY (R372). -/
def execPowerDownEntry (sub : Fin 4) (s : State) : Host.Outcome State Fault Refusal :=
  let idle := !(s.dmc.reqs.any fun r => (s.sdramMap r.addr).1 == sub.1) && s.dmc.subs[sub].writes.isEmpty
  if s.rd F.DMC_STATUS_STATE = 2 ∧ s.on F.DMC_CTRL_PD_EN ∧ idle ∧ !s.sdramBurst then .next (s.modSub sub fun x => { x with down := true })
  else .next s

/-! ## Refresh and readings (R372) -/

/-- REFRESH_INTERVAL: another refresh is due; one that has waited an interval counts as postponed. -/
def execRefreshInterval (sub : Fin 4) (s : State) : Host.Outcome State Fault Refusal :=
  if s.rd F.DMC_STATUS_STATE ≠ 2 then .next s
  else
    let s := if s.dmc.subs[sub].due = 0 then s else s.incWrap (F.DMC_SC_REF_POSTPONED sub)
    .next (s.modSub sub fun x => { x with due := x.due + 1 })

/-- Sets or clears a subchannel's bit of a field. -/
def State.subBit (s : State) (f : Fld) (k : Fin 4) (v : Bool) : State :=
  s.wr f (without (s.rd f) (2 ^ k.1) ||| b2n v * 2 ^ k.1)

/-- MR4_READ: the components ask for the 2× rate, or report a temperature above their range. -/
def execMr4Read (sub : Fin 4) (fast hot : Bool) (s : State) : Host.Outcome State Fault Refusal :=
  let s := (s.subBit F.DMC_TEMP_REF_2X sub (fast || hot)).subBit F.DMC_TEMP_HOT sub hot
  .next (if hot then (s.event Ev.dmc 4).faultOnce 22 none else s)

/-- ZQ_CALIBRATION: scheduled as a postponable refresh. -/
def execZqCalibration (sub : Fin 4) (s : State) : Host.Outcome State Fault Refusal :=
  .next (s.modSub sub fun x => { x with cals := x.cals + 1 })

/-- DQS_OSCILLATOR_READ: scheduled as a postponable refresh. -/
def execDqsOscillatorRead (sub : Fin 4) (s : State) : Host.Outcome State Fault Refusal :=
  .next (s.modSub sub fun x => { x with cals := x.cals + 1 })

/-! ## Parity and replay (R374, R375) -/

/-- Ticks of the alert window: 25 ns from the erroneous command to ALERT_n low (R374). [log 75: DEDUCED] -/
def alertWindow : Nat := 20

/-- The controller stops serving (R375): pending reads return zeros, which a thread takes for absent granules, pending writes
are dropped, the usable capacity is 0 and no SDRAM-tier segment is resident. -/
def State.dmcDead (s : State) (cause subs : Nat) : State :=
  let absent := fun g : Gran => (s.segAt g.seg g.gen).any fun x : Seg => x.tier == Tier.sdram
  let drop := fun k : Thread => { k with requests := k.requests.filter fun g => !absent g }
  let s : State := { s with dmc := { s.dmc with reqs := [], waits := [], subs := Vector.replicate 4 {} }, threads := s.threads.map drop }
  let s := s.wrs [(F.DMC_STATUS_STATE, 3), (F.DMC_STATUS_CAUSE, cause), (F.DMC_STATUS_FAIL_SUBCH, subs), (F.DMC_GEOM_USABLE_MIB, 0)]
  (s.notResident fun x => x.tier == .sdram).noteDmc

/-- ALERT_N (R374, R375): the subchannel stops issuing and its retry buffer keeps what is not confirmed; an alert before a
replayed command is confirmed makes that replay a failed one. [log 75: DEDUCED] -/
def execAlertN (sub : Fin 4) (s : State) : Host.Outcome State Fault Refusal :=
  let x := s.dmc.subs[sub]
  if s.rd F.DMC_STATUS_STATE ≠ 2 ∨ x.alert then .next s
  else
    let raw := s.tim.raw
    let again := x.replay.any fun r => decide (raw < r + alertWindow)
    let n := if again then x.failed + 1 else 0
    if again ∧ max 1 (s.rd F.DMC_REPLAY_CFG_REPLAY_MAX) ≤ n then
      .next (((s.dmcDead 10 (2 ^ sub.1)).event Ev.dmc 3).faultOnce 21 none)
    else
      let keep := x.retry.filter fun c => decide (raw < c.at_ + alertWindow)
      .next (s.modSub sub fun x => { x with alert := true, failed := n, retry := keep })

/-- ALERT_N_HIGH (R374): all banks are precharged, the rows that unconfirmed commands need are opened again, and those
commands are issued again in their order. -/
def execAlertNHigh (sub : Fin 4) (s : State) : Host.Outcome State Fault Refusal :=
  let x := s.dmc.subs[sub]
  if x.alert = false then .next s
  else
    let raw := s.tim.raw
    let need := x.retry.filter fun c => decide (c.kind ≤ 2)
    let rows := need.foldl (fun (l : List (Nat × Nat × Bool)) c => if l.any fun y => y.1 == c.bank then l else (c.bank, c.row, false) :: l) []
    let redo := fun q : DmcReq => if x.retry.any fun c => c.kind == 1 && c.order == q.order then { q with issued := some raw } else q
    let s := { s with dmc := { s.dmc with reqs := s.dmc.reqs.map redo } }
    let s := s.modSub sub fun x => { x with alert := false, rows := rows, replay := some raw, retry := x.retry.map fun c => { c with at_ := raw } }
    .next ((s.incSat F.DMC_REPLAY_CNT_COUNT).event Ev.dmc 2)

/-! ## Training (R362, R377, R378) -/

/-- A write of INIT. -/
def State.dmcInit (s : State) : State :=
  if s.rd F.DMC_STATUS_STATE ≠ 0 ∨ s.clk.absent ∨ bitOf (s.rd F.PWR_STATUS_RAIL_GOOD) 1 = false then s
  else if s.badGeometry then
    ((s.wrs [(F.DMC_STATUS_STATE, 3), (F.DMC_STATUS_CAUSE, 9), (F.DMC_STATUS_FAIL_SUBCH, 15)]).event Ev.dmc 1).faultOnce 20 none
  else s.wr F.DMC_STATUS_STATE 1

/-- DMC_INIT (R377). -/
def execDmcInit (s : State) : Host.Outcome State Fault Refusal := .next s.dmcInit

/-- DMC_TRAINING_DONE (R377): all steps passed (step 0), with each subchannel's margins, or a step failed on some
subchannels. [log 76: DEDUCED] -/
def execDmcTrainingDone (step subs : Nat) (margins : List (Nat × Nat)) (s : State) : Host.Outcome State Fault Refusal :=
  if s.rd F.DMC_STATUS_STATE ≠ 1 then .next s
  else
    let s := if s.dmc.fromFailed then { s with sdram := [], dmc := { s.dmc with fromFailed := false } } else s
    if step = 0 then
      let s := (List.range 4).foldl (fun s k =>
        s.wrs [(F.DMC_SC_TRAIN_RD_MARGIN k, (margins.getD k (0, 0)).1), (F.DMC_SC_TRAIN_WR_MARGIN k, (margins.getD k (0, 0)).2)]) s
      .next ((s.wrs [(F.DMC_STATUS_STATE, 2), (F.DMC_STATUS_CAUSE, 0), (F.DMC_STATUS_FAIL_SUBCH, 0),
        (F.DMC_GEOM_USABLE_MIB, s.fittedMib - 1)]).event Ev.dmc 0)
    else .next (((s.dmcDead (min step 8) subs).event Ev.dmc 1).faultOnce 20 none)

/-- A write of RETRAIN (R378). -/
def State.dmcRetrain (s : State) : State :=
  let st := s.rd F.DMC_STATUS_STATE
  let busy := s.bursts.any s.sdramShare || !s.dmc.reqs.isEmpty
  if (st = 2 ∨ st = 3) ∧ !busy then
    { s with dmc := { s.dmc with fromFailed := st == 3, subs := Vector.replicate 4 {} } }.wrs
      [(F.DMC_STATUS_STATE, 1), (F.DMC_GEOM_USABLE_MIB, 0)]
  else s.event Ev.dmc 6

/-- DMC_RETRAIN (R378). -/
def execDmcRetrain (s : State) : Host.Outcome State Fault Refusal := .next s.dmcRetrain

end Sys2Proof.Machine
end

