-- ==== Sys2Proof/Machine/Trigger.lean ====
section
/-! DEFINITION. The trigger engines' commands (R203 to R218): arming, forcing, samples and matches, completion, holdoff,
timeout and the read acknowledge. -/

namespace Sys2Proof.Machine

/-! ## Matching (R204 to R206) -/

/-- Channels in view of an engine, as a mask (R88, R204). -/
def State.inView (s : State) (e : Fin 4) : Nat :=
  maskOf (((allFin 128).filter fun (c : Fin 128) =>
    (match s.groveOfChan c, s.trgOwner e with
     | some g, some o => g == o
     | some _, none => true
     | none, _ => false) && !bitOf s.calHold c.1 && !s.coppiceHeld c).map (·.1))

/-- A 128-bit value of four register words. -/
def State.word128 (s : State) (f : Nat → Fld) : Nat :=
  s.rd (f 0) + 2 ^ 32 * s.rd (f 1) + 2 ^ 64 * s.rd (f 2) + 2 ^ 96 * s.rd (f 3)

/-- The match condition on a sample (R205): every care bit in view is judged and equals its value bit; a mask with no care
bit never matches. -/
def State.matches (s : State) (e : Fin 4) (sample judged : Nat) : Bool :=
  let care := without (s.inView e) (s.word128 (F.TRG_DC_DC e))
  care != 0 && (care &&& judged == care) && ((sample &&& care) == (s.word128 (F.TRG_VALUE_VALUE e) &&& care))

/-- The level of a TRIG_IN at an instant in fine units (R207): low before its first edge. -/
def State.trigLevel (s : State) (n : Fin 4) (at_ : Nat) : Bool := levelAt false s.sync.trigHist[n] at_

/-- MARK and SEGS of a grove at an instant in fine units (R207). -/
def State.markAt (s : State) (g : Fin 32) (at_ : Nat) : Nat × Bool := levelAt (0, false) s.groves[g].marks ((at_ / 4 : Nat) : Int)

/-- The qualifier's level at an instant in fine units (R207), with the mark bits and SEGS of the cycle that counts. -/
def State.qualLevel (s : State) (e : Fin 4) (at_ : Nat) (cyc : Nat × Bool) : Bool :=
  match s.qsrc e with
  | 0 => true
  | 1 => s.trigLevel (fin 4 (s.rd (F.TRG_QUAL_QSEL e))) at_
  | 2 => bitOf cyc.1 (s.rd (F.TRG_QUAL_QSEL e))
  | 3 => cyc.2
  | 5 => reachedAt (s.sharedAt at_).1 (s.rdP (F.TRG_QTIME_LO_T e))
  | _ => false

/-- Whether an occurring match triggers under COMB (R208), given the qualifier's level and the match's instant. -/
def State.matchCounts (s : State) (e : Fin 4) (level : Bool) (point : Nat) : Bool :=
  match s.comb e with
  | 0 | 4 => true
  | 1 => level
  | 3 => (match s.acq.trg[e].qual with
     | some q => decide (q ≤ point)
     | none => false)
  | _ => false

/-- A match of an engine: it triggers; on the same master tick as a forced trigger it takes that record over (R213). -/
def State.matchFire (s : State) (e : Fin 4) (point : Nat) : State :=
  match s.acq.trg[e].cur with
  | some r =>
    if r.cause = 2 ∧ (point + 4095) / 4096 = r.point / 4096 then
      let stamp := s.sharedAt point
      s.modTrg e fun k => { k with cur := some { r with cause := 0, point := point, stamp := stamp } }
    else s.trigger e 0 point
  | none => s.trigger e 0 point

/-- Judges the match condition once (R206): a change from false to true is an occurrence. -/
def State.judge (s : State) (e : Fin 4) (cond level : Bool) (point : Nat) : State :=
  let was := s.acq.trg[e].last
  let s := s.modTrg e fun k => { k with last := cond }
  if cond && !was && s.matchCounts e level point then s.matchFire e point else s

/-- A raw-level sample of KIND 1 or 2: on each master tick the levels, POL_SWAP undone, and the interpolator's code of the
edge that came last before it; the levels of the last tick are the sample. -/
def State.rawTicks (s : State) (e : Fin 4) (kind : Nat) (l : List (Nat × Nat)) (late : Bool) : State :=
  let swap := maskOf (((allFin 128).filter fun (c : Fin 128) => s.swapped c (if kind = 1 then 2 else 3)).map (·.1))
  let view := s.inView e
  let one := fun (s : State) (t : Nat × Nat) =>
    let v := (t.1 ^^^ swap) &&& view
    let r := s.fineOf (fin 36 (32 + e.1)) t.2
    let m := r.2.acq.trg[e].tick + 1
    let s := r.2.modTrg e fun k => { k with tick := m }
    let point := (m - 1) * 4096 + r.1
    s.judge e (s.matches e v view) (s.qualLevel e point (s.markAt (s.trgGrove e) point)) point
  let s := l.foldl one s
  let last := (l.getLast?.map (·.1)).getD 0
  s.takeSample e { time := 4096 * s.acq.trg[e].tick, value := if late then 0 else (last ^^^ swap) &&& view, lost := late
                   drop := false, unref := s.unref, void := false }

/-- A cycle result (KIND 0) or loop sample (KIND 3) that the engine takes. -/
def State.fedSample (s : State) (e : Fin 4) (f : TrgFeed) (late : Bool) : State :=
  let s := s.modTrg e fun k => { k with feed := k.feed.tail }
  if f.ends then (if s.trgState e = 2 ∧ s.recDone e = false then s.cutRecord e else s)
  else
  let s := if s.acq.trg[e].kind = 0 then
      let ev := (s.qsrc e == 2 && bitOf f.mark (s.rd (F.TRG_QUAL_QSEL e))) || (s.qsrc e == 3 && f.segs)
      let s := if ev then s.qualEvent e f.samp.time else s
      if f.only then s
      else s.judge e (s.matches e f.samp.value f.judged) (s.qualLevel e f.samp.time (f.mark, f.segs)) f.samp.time
    else s
  if f.only then s
  else s.takeSample e (if late then { f.samp with value := 0, lost := true, drop := false } else f.samp)

/-! ## Meanings -/

/-- TRG_ARM (R213). [log 41: DESIGN CHOICE] -/
def execTrgArm (e : Fin 4) (s : State) : Host.Outcome State Fault Refusal := .next (s.trgArm e)

/-- TRG_DISARM (R213). -/
def execTrgDisarm (e : Fin 4) (s : State) : Host.Outcome State Fault Refusal := .next (s.trgDisarm e)

/-- A forced trigger of an armed engine, in any mode; on the master tick of a match's record it adds nothing (R212, R213). -/
def State.trgForce (s : State) (e : Fin 4) : State :=
  match s.acq.trg[e].cur with
  | some r => if r.cause = 0 ∧ (r.point + 4095) / 4096 = s.master then s else s.trigger e 2 s.fuNow
  | none => s.trigger e 2 s.fuNow

/-- TRG_FORCE (R212). -/
def execTrgForce (e : Fin 4) (s : State) : Host.Outcome State Fault Refusal := .next (s.trgForce e)

/-- TRG_SAMPLE (R203 to R206, R214, R216): of KIND 1 or 2, one sample of DIV master ticks; of KIND 0 or 3, the next cycle
result or loop sample that waits. A sample that comes late, or whose store
cannot take it (R375), is lost. -/
def execTrgSample (e : Fin 4) (ticks : List (Nat × Nat)) (late : Bool) (s : State) : Host.Outcome State Fault Refusal :=
  let kind := s.acq.trg[e].kind
  let late := late || (s.acq.trg[e].place).any s.writeLost
  if s.trgState e = 0 then .next s
  else if kind = 1 ∨ kind = 2 then
    if ticks.length = max 8 (s.rd (F.TRG_TIMING_DIV e)) then .next (s.rawTicks e kind ticks late) else .next s
  else match s.acq.trg[e].feed with
    | f :: _ => .next (s.fedSample e f late)
    | [] => .next s

/-- TRG_RECORD_COMPLETE (R216): the last sample and the header are written. -/
def execTrgRecordComplete (e : Fin 4) (s : State) : Host.Outcome State Fault Refusal :=
  .next (if s.recDone e then s.completeRecord e else s)

/-- TRG_HOLDOFF_EXPIRY (R212): the engine re-arms. [log 5: DESIGN CHOICE] -/
def execTrgHoldoffExpiry (e : Fin 4) (s : State) : Host.Outcome State Fault Refusal :=
  .next (if s.trgState e = 3 then s.trgWait e else s)

/-- TRG_TIMEOUT_EXPIRY (R212): in AUTO mode an engine still waiting makes a forced trigger. -/
def execTrgTimeoutExpiry (e : Fin 4) (s : State) : Host.Outcome State Fault Refusal :=
  .next (if s.rd (F.TRG_CTRL_MODE e) = 2 ∧ s.trgState e = 1 then s.trigger e 2 s.fuNow else s)

/-- TRG_READ (R215): the oldest unread records are marked read. -/
def execTrgRead (e : Fin 4) (n : Nat) (s : State) : Host.Outcome State Fault Refusal :=
  .next (s.setUnread e (s.acq.trg[e].unread - n % 65536))

/-- QUALIFIER_TIME_REACHED (R207): the first master tick at or after TRG_QTIME gives the event of QSRC 5 once. -/
def execQualifierTimeReached (e : Fin 4) (s : State) : Host.Outcome State Fault Refusal :=
  let t := s.rdP (F.TRG_QTIME_LO_T e)
  if s.qsrc e = 5 ∧ s.trgState e ≠ 0 ∧ s.reached t ∧ s.acq.trg[e].timed = false then
    .next ((s.modTrg e fun k => { k with timed := true }).qualEvent e (s.tickOf t))
  else .next s

end Sys2Proof.Machine
end

