-- ==== Sys2Proof/Machine/CalRuns.lean ====
section
/-! DEFINITION. The state of calibration that every calibration shares (R406 to R418): unit and group states, when a run begins
and what it holds. Unit and group states: 0 NONE, 1 VALID, 2 STALE, 3 RECORD. -/

namespace Sys2Proof.Machine

/-! ## Units of the TMU group (R233 to R235) -/

/-- Whether a unit, or an engine as unit 32 and up, is disarmed. -/
def State.unitIdle (s : State) (unit : Nat) : Bool :=
  if unit < 32 then s.tmuState (fin 32 unit) == 0 || s.tmuState (fin 32 unit) == 4 else s.trgState (fin 4 unit) == 0

/-- The calibration temperature register of a unit. -/
def calTempOf (unit : Nat) : Fld := if unit < 32 then F.TMU_CAL_TEMP_TEMP unit else F.TMU_TRG_CAL_TEMP_TEMP (unit - 32)

/-- Whether the decision temperature lies more than 3 °C from a unit's calibration temperature (R235). -/
def State.tempOff (s : State) (unit : Nat) : Bool := decide (48 < (s.tdec - s.rdS (calTempOf unit)).natAbs)

/-- A unit's drift has qualified (R235): more than 3 °C at every update of 125 µs for 20 ms. -/
def State.drifted (s : State) (unit : Nat) : Bool := decide (160 ≤ s.power.drift[fin 36 unit]) && s.tempOff unit

/-- A unit has been calibrated at the present decision temperature (R233, step 5). -/
def State.noteCalTemp (s : State) (unit : Nat) : State :=
  { s with power := { s.power with drift := s.power.drift.set (fin 36 unit) 0 } }.wr (calTempOf unit) (zx 16 s.tdec)

/-- The timing drift of R174: DRIFT shows a difference of more than 3 °C between a decision temperature and TMG_CAL_TEMP, and its
rise is an event. -/
def State.timingDrift (s : State) (t : Int) : State :=
  let drift := decide (48 < (t - s.rdS F.TMG_CAL_TEMP_TEMP).natAbs)
  let s' := s.wr F.TMG_STATUS_DRIFT (b2n drift)
  if drift && !s.on F.TMG_STATUS_DRIFT then s'.raise Ev.tmg (2 ^ F.TMG_EVENT_DRIFT.lsb) else s'

/-- Marks a unit's table stale or valid (R234). -/
def State.setStale (s : State) (unit : Nat) (v : Bool) : State :=
  if unit < 32 then s.wr (F.TMU_STATUS_STALE unit) (b2n v)
  else
    let m := s.rd F.TMU_GSTATUS_TRG_STALE
    s.wr F.TMU_GSTATUS_TRG_STALE (if v then m ||| 2 ^ (unit - 32) else without m (2 ^ (unit - 32)))

/-- The plausibility check of R234. -/
def plausible (hits : List Nat) : Bool := hits.all fun h => decide (1 ≤ h) && decide (h ≤ 4096)

/-! ## Units and groups (R410, R418) -/

/-- The groups of R406. -/
abbrev gREF : Fin 7 := 0
abbrev gHOUSE : Fin 7 := 1
abbrev gSENSE : Fin 7 := 2
abbrev gTHRESH : Fin 7 := 3
abbrev gTMU : Fin 7 := 4
abbrev gDELAY : Fin 7 := 5
abbrev gPE : Fin 7 := 6

/-- The rank of a unit state, the worst lowest: NONE, STALE, RECORD, VALID. -/
def stateRank (n : Nat) : Nat := [0, 3, 1, 2].getD n 0

/-- The worst state of a list of units. -/
def worstState (l : List Nat) : Nat := l.foldl (fun m n => if stateRank n < stateRank m then n else m) 1

/-- Sets a unit's state. -/
def State.setUnit (s : State) (g : Fin 7) (u st : Nat) : State :=
  { s with cal := { s.cal with units := upd s.cal.units g fun l => l.set u st } }

/-- The time of R418 and its base: shared time where the module is synchronised, else the Understory tick. -/
def State.calTime (s : State) : Nat × Nat :=
  if s.rd F.TIM_STATUS_STATE = 0 then (s.rdP F.PWR_US_TICK_LO_TICK, 1) else (s.now, 0)

/-- Shows a group's state and its count of units that are STALE or NONE. -/
def State.noteGroup (s : State) (g : Fin 7) : State :=
  let l := s.cal.units[g]
  s.wrs [(F.CAL_GRP_STAT_STATE g, worstState l), (F.CAL_GRP_STAT_STALE_UNITS g, (l.filter fun n => n == 0 || n == 2).length)]

/-- A group's measurement has ended (R418). -/
def State.groupMeasured (s : State) (g : Fin 7) : State :=
  let (t, base) := s.calTime
  (((s.noteGroup g).wrP (F.CAL_GRP_TIME_LO_TIME g) t).wrs
    [(F.CAL_GRP_STAT_BASE g, base), (F.CAL_GRP_TEMP_TEMP g, zx 16 s.tdec)]).incWrap (F.CAL_GRP_STAT_RUNS g)

/-- A run that measured some unit has ended (R414, R416): the count, DONE, and STALE if some unit became stale. [log 78: DEDUCED] -/
def State.countRun (s : State) (stale : Bool) : State :=
  (s.incWrap F.CAL_COUNT_COUNT).raise Ev.cal (1 + 2 * b2n stale)

/-! ## A run begins (R178, R236, R415 to R417) -/

/-- Whether a run measures a group. -/
def CalRun.has (r : CalRun) (g : Fin 7) : Bool := bitOf r.groups g.1

/-- Whether a run runs timing calibration. -/
def CalRun.timing (r : CalRun) : Bool := r.has gDELAY || r.has gPE

/-- The channels a run names: those of its groves, and with UNBOUND those of no grove; at power-up every channel. -/
def State.runChans (s : State) (r : CalRun) : List (Fin 128) :=
  (allFin 128).filter fun c => r.cmd.isNone || (match s.groveOfChan c with
    | some g => bitOf r.groves g.1
    | none => r.unbound)

/-- A TMU that timing calibration of a list of channels may take: disarmed; pooled units first, then units owned by the groves being
calibrated (R236). [log 79: DEDUCED] -/
def State.freeTmu (s : State) (chans : List (Fin 128)) : Option (Fin 32) :=
  let free := (allFin 32).filter fun u => s.tmuState u == 0 && !bitOf s.acq.calRun u.1
  let owned := free.filter fun u => (s.tmuOwner u).any fun g => chans.any fun c => s.groveOfChan c == some g
  (free.filter fun u => (s.tmuOwner u).isNone).head?.or owned.head?

/-- Starts a run: channels of groves in a burst and DSCs that are not in DISCONNECT are skipped; channels and TMUs are held,
the drive enables of the channels deasserted for steps 2 to 6 (R178); armed units of the TMU group are due when they disarm. A run without a free TMU ends at once (R416).
[log 79: DEDUCED] -/
def State.calStart (s : State) (r : CalRun) : State :=
  let named := if r.timing then s.runChans r else []
  let busy := named.filter fun c => (s.groveOfChan c).any fun g => !s.groveIdle g
  let free := named.filter fun c => !busy.contains c
  let tmu := s.freeTmu free
  if r.timing ∧ tmu.isNone then
    match r.cmd with
    | some h => s.complete h 0x02
    | none => s
  else
    let chans := maskOf (free.map (·.1))
    let firstBusy := (busy.filterMap fun c => (s.groveOfChan c).map (·.1)).foldl min 31
    let dsc := r.has gSENSE || r.has gTHRESH
    let active := if dsc then maskOf (((allFin 16).filter fun (d : Fin 16) => bitOf r.dscs d.1 && s.rd (F.DSC_STATUS_MODE d) != 0).map (·.1)) else 0
    let (status, detail) := if !busy.isEmpty then (1, firstBusy) else if active != 0 then (5, active) else (0, 0)
    let tmus := if r.has gTMU then maskOf (((List.range 36).filter s.unitIdle)) else 0
    let armed := if r.has gTMU then maskOf ((List.range 36).filter fun u => !s.unitIdle u) else 0
    let held := tmus ||| (if r.timing then (tmu.map fun u => 2 ^ u.1).getD 0 else 0)
    let r := { r with chans := chans, dscs := without r.dscs active, status := status, detail := detail, tmu := (tmu.map (·.1)).getD 0 }
    let first := ((bitsOf r.groups 7).head?).getD 0
    let s := { s with
      cal := { s.cal with run := some r }, calHold := chans
      acq := { s.acq with calHeld := held, calDue := s.acq.calDue ||| armed } }
    let quiet := fun k : Chan => { k with den := false }
    let s := if r.has gDELAY then free.foldl (fun s c => s.modChan c quiet) s else s
    s.wrs [(F.CAL_STATUS_RUNNING, 1), (F.CAL_STATUS_GROUP, first), (F.TMG_STATUS_CAL_RUN, b2n r.timing), (F.TMU_GSTATUS_CAL_RUN, b2n (r.has gTMU))]

/-- Starts the first run of a list of waiting runs; one that ends at once without a free TMU makes way for the next. -/
def State.calFrom (s : State) : List CalRun → State
  | [] => s
  | r :: rest =>
    let s := { s with cal := { s.cal with queue := rest } }.calStart r
    if s.cal.run.isSome then s else s.calFrom rest

/-- Starts the next run that waits, if none is in progress: a calibration, a record write or a drift recalibration (R416).
[log 70: DEDUCED] -/
def State.calNext (s : State) : State :=
  if s.cal.run.isSome || s.cal.commit.isSome || s.acq.calRun != 0 then s else s.calFrom s.cal.queue

end Sys2Proof.Machine
end

