-- ==== Sys2Proof/Machine/Tmu.lean ====
section
/-! DEFINITION. The time measurement units' commands (R219 to R238): arming, edges, gates, results, the stamp store, and
code-density calibration. -/

namespace Sys2Proof.Machine

/-! ## Arming (R221, R226, R235, R236) -/

/-- Whether a unit's source breaks R221. -/
def State.tmuSrcBad (s : State) (u : Fin 32) : Bool :=
  let src := s.rd (F.TMU_SRC_SRC u)
  decide (8 < src) ||
    (match s.tmuOwner u with
     | some g => decide (2 < src) || s.groveOfChan (fin 128 (s.rd (F.TMU_SRC_CH u))) != some g
     | none => false)

/-- Whether an arm is refused (R221, R226). -/
def State.tmuBad (s : State) (u : Fin 32) : Bool :=
  s.tmuSrcBad u ||
    (match s.partnerOf u with
     | some p => p == u || s.tmuState p != 0 || s.tmuSrcBad p
     | none => false)

/-- Whether a calibration holds a unit's arms: code density, or timing calibration. -/
def State.tmuHeld (s : State) (u : Fin 32) : Bool := bitOf s.acq.calRun u.1 || bitOf s.acq.calHeld u.1

/-- The partner of a unit that arms becomes its slave (R226). -/
def State.tmuSlave (s : State) (u : Fin 32) : State :=
  match s.partnerOf u with
  | some p => (s.modTmu p fun k => { k with master := some u.1, edges := 0, lastS := none }).wr (F.TMU_STATUS_STATE p) 3
  | none => s

/-- A unit arms, and its partner as its slave; its stamp store is placed if it is pooled or its grove is in no burst, and a TIME or
COUNT gate opens at once (R224, R226, R229). -/
def State.tmuStart (s : State) (u : Fin 32) : State :=
  let s := ((s.modTmu u fun k => { k with gateNo := 0, lastS := none, due := false }).wrs
    [(F.TMU_STATUS_STATE u, 1), (F.TMU_STATUS_GATES u, 0)]).tmuSlave u
  let here := (s.tmuOwner u).all fun g => s.groveIdle g
  let s := if s.on (F.TMU_CTRL_STORE u) && here then (s.placeTmu u).getD s else s
  if s.rd (F.TMU_GATE_GSRC u) ≤ 1 then s.openGate u s.fuNow else s

/-- Arms a disarmed unit: refused, held while a calibration holds it, or at once. [log 41: DESIGN CHOICE] -/
def State.tmuArm (s : State) (u : Fin 32) : State :=
  if s.tmuState u ≠ 0 then s
  else if s.tmuBad u then s.event (Ev.tmu u) 3
  else if s.tmuHeld u then (s.modTmu u fun k => { k with heldArm := true }).wr (F.TMU_STATUS_STATE u) 4
  else s.tmuStart u

/-- Releases an arm that a calibration held. -/
def State.tmuUnhold (s : State) (u : Fin 32) : State :=
  if s.acq.tmu[u].heldArm ∧ s.tmuHeld u = false then
    ((s.modTmu u fun k => { k with heldArm := false }).wr (F.TMU_STATUS_STATE u) 0).tmuArm u
  else s

/-- DISARM of a unit (R238): an open gate closes at once, truncated; a slaved unit disarms with its master (R226). -/
def State.tmuDisarm (s : State) (u : Fin 32) : State :=
  let m := (s.acq.tmu[u].master.map (fin 32)).getD u
  if s.acq.tmu[m].gate.isSome then s.closeGate m false true else s.tmuOff m

/-! ## Edges (R222, R223, R229) -/

/-- Whether the source of a unit gives no edges (R223). -/
def State.tmuBlocked (s : State) (u : Fin 32) : Bool :=
  let c := fin 128 (s.rd (F.TMU_SRC_CH u))
  let src := s.rd (F.TMU_SRC_SRC u)
  decide (src ≤ 2) && ((s.groveOfChan c).isNone || bitOf s.calHold c.1 || s.coppiceHeld c)

/-- The count of stamps that closes a gate: GATE_CNT for COUNT, and 2^20 in any case (R224). -/
def State.gateLimit (s : State) (u : Fin 32) : Nat :=
  if s.rd (F.TMU_GATE_GSRC u) = 1 then min 1048576 (max 1 (s.rd (F.TMU_GATE_CNT_COUNT u))) else 1048576

/-- Writes a stamp into the open block of a unit, or loses it (R229). -/
def State.storeStamp (s : State) (u : Fin 32) (x : Stamp) (partner late : Bool) : State :=
  let k := s.acq.tmu[u]
  match k.gate with
  | none => s
  | some g =>
    if s.on (F.TMU_CTRL_STORE u) = false then s
    else
      let lose := fun (bits : Nat) =>
        ((s.modTmu u fun k => { k with gate := k.gate.map fun g => { g with lost := g.lost + 1 } }).incSat
          (F.TMU_LOST_COUNT u)).raise (Ev.tmu u) bits
      match g.block, k.place, k.room (s.on (F.TMU_CTRL_WRAP u)) 8 with
      | some (off, n), some p, some k' =>
        if late || s.flt.frozen || s.writeLost p then lose 2
        else
          let put := fun _ : Tmu => { k' with head := (k.head + 8) % max 1 p.bytes, gate := some { g with block := some (off, n + 8) } }
          (s.modTmu u put).writeRing p k.head (bytesLE 8 (x.word partner))
      | _, _, _ => lose 0x22

/-- Whether an edge falls within the dead time of the stamp before it: 5 ns are 65 536 fine units (R222). -/
def inDead (last : Option Nat) (value : Nat) : Bool :=
  match last with
  | some l => decide (value < l + 65536)
  | none => false

/-- A selected edge of a unit at an instant in fine units, counted and stamped in the gate of `m`, the unit itself or the
unit it is slaved to. -/
def State.takeEdge (s : State) (u m : Fin 32) (value : Nat) (rising late : Bool) : State :=
  match s.acq.tmu[m].gate with
  | none => s
  | some g =>
    if s.gateLimit m ≤ g.stamps.length then s
    else
      let own := u == m
      let n := max 1 (s.rd (F.TMU_PRESCALE_N u))
      let idx := if own then g.edges else s.acq.tmu[u].edges
      let s := if own then s.modTmu u fun k => { k with gate := some { g with edges := idx + 1 } }
        else s.modTmu u fun k => { k with edges := idx + 1 }
      if inDead s.acq.tmu[u].lastS value then
        let s := (s.incSat (F.TMU_MISSED_COUNT u)).event (Ev.tmu u) 2
        if own then s.modTmu u fun k => { k with gate := k.gate.map fun g => { g with missed := g.missed + 1 } } else s
      else if idx % n ≠ 0 then s
      else
        let x : Stamp := { value := value, edge := idx, fall := !rising, unref := s.unref }
        let s := s.modTmu u fun k => { k with lastS := some value }
        let add := fun g : Gate => if own then { g with stamps := g.stamps ++ [x] } else { g with partner := g.partner ++ [x] }
        (s.modTmu m fun k => { k with gate := k.gate.map add }).storeStamp m x (!own) late

/-! ## Results (R225, R227) -/

/-- Rounds to the nearest integer. [log 47: DESIGN CHOICE] -/
def rnd (q : ℚ) : Int := ⌊q + 1 / 2⌋

/-- A square root in units of 2^-16, rounded. [log 47: DESIGN CHOICE] -/
def sqrt16 (q : ℚ) : Nat := (Nat.sqrt (4 * (⌊q * 2 ^ 32⌋).toNat) + 1) / 2

/-- The mean of a list, 0 if it is empty. [log 47: DESIGN CHOICE] -/
def meanQ (l : List ℚ) : ℚ := if l.isEmpty then 0 else l.sum / l.length

/-- The periods per edge of a list of stamps (FUNC 1). -/
def periodsOf : List Stamp → List ℚ
  | a :: b :: r => ((b.value : ℚ) - a.value) / ((b.edge : ℚ) - a.edge) :: periodsOf (b :: r)
  | _ => []

/-- The partner stamp that FUNC 2 pairs with a stamp: the first at or after it within the window, in fine units. -/
def intervalOf (window : Nat) (partner : List Stamp) (x : Stamp) : Option ℚ :=
  (partner.find? fun p => decide (x.value ≤ p.value) && decide (p.value ≤ x.value + window)).map fun p => (p.value : ℚ) - x.value

/-- The distance of two instants. -/
def apart (a b : Nat) : Nat := (a - b) + (b - a)

/-- The partner stamp that FUNC 3 pairs with a stamp: the nearest within the window, the earlier on a tie. -/
def skewOf (window : Nat) (partner : List Stamp) (x : Stamp) : Option ℚ :=
  let best := fun (acc : Option Stamp) (p : Stamp) =>
    if apart p.value x.value ≤ window then
      match acc with
      | some q => if apart p.value x.value < apart q.value x.value then some p else acc
      | none => some p
    else acc
  (partner.foldl best none).map fun p => (p.value : ℚ) - x.value

/-- The results of a gate: COUNT, MEAN and SDEV in 2^-16 fine units, MIN, MAX, FREQ, UNMATCHED. -/
structure Results where
  count : Nat
  mean  : Int
  sdev  : Nat
  min   : Int
  max   : Int
  freq  : Nat
  unmatched : Nat
  deriving DecidableEq, Repr

/-- Mean, standard deviation with divisor n − 1, extremes. [log 47: DESIGN CHOICE] -/
def statsOf (l : List ℚ) (unmatched : Nat) : Results :=
  let m := meanQ l
  let var := if l.length < 2 then 0 else ((l.map fun x => (x - m) * (x - m)).sum) / ((l.length : ℚ) - 1)
  { count := l.length, mean := rnd (m * 65536), sdev := sqrt16 var, min := rnd (l.foldl min (l.headD 0))
    max := rnd (l.foldl max (l.headD 0)), freq := 0, unmatched := unmatched }

/-- The regression of R227. -/
def regression (l : List Stamp) : Results :=
  if l.length < 3 then { count := l.length, mean := 0, sdev := 0, min := 0, max := 0, freq := 0, unmatched := 0 }
  else
    let m : ℚ := l.length
    let ex := (l.map fun x => (x.edge : ℚ)).sum / m
    let sx := (l.map fun x => (x.value : ℚ)).sum / m
    let t := (l.map fun x => ((x.edge : ℚ) - ex) * ((x.value : ℚ) - sx)).sum / (l.map fun x => ((x.edge : ℚ) - ex) * ((x.edge : ℚ) - ex)).sum
    let r := l.map fun x => (x.value : ℚ) - (sx + t * ((x.edge : ℚ) - ex))
    { count := l.length, mean := rnd (t * 65536), sdev := sqrt16 ((r.map fun x => x * x).sum / (m - 2))
      min := rnd (r.foldl min (r.headD 0)), max := rnd (r.foldl max (r.headD 0))
      freq := (⌊(10 ^ 15 : ℚ) / (t * 625 / 8192)⌋).toNat, unmatched := 0 }

/-- The results of a gate by its function (R225). -/
def gateResults (window : Nat) (g : Gate) : Results :=
  match g.func with
  | 1 => statsOf (periodsOf g.stamps) 0
  | 2 =>
    let l := g.stamps.map (intervalOf window g.partner)
    statsOf (l.filterMap id) ((l.filter Option.isNone).length)
  | 3 =>
    let l := g.stamps.map (skewOf window g.partner)
    statsOf (l.filterMap id) ((l.filter Option.isNone).length)
  | 4 => regression g.stamps
  | _ => statsOf [] 0

/-- The 128-byte header of a complete block (R230). -/
def blockHeader (u : Nat) (g : Gate) (r : Results) : List Byte :=
  let flags := 1 + 2 * b2n g.full + 4 * b2n g.cut + 8 * b2n (g.lost != 0) +
    16 * b2n ((g.stamps ++ g.partner).any (·.unref)) + 32 * b2n g.stale
  let held := match g.block with
    | some (_, n) => (n - 128) / 8
    | none => 0
  bytesLE 4 0x53544851 ++ bytesLE 1 u ++ bytesLE 1 g.func ++ bytesLE 2 flags ++ bytesLE 4 g.no ++ bytesLE 4 held ++
  bytesLE 8 g.openTime ++ bytesLE 8 g.openS ++ bytesLE 4 (min g.lost (2 ^ 32 - 1)) ++ bytesLE 4 (min g.missed (2 ^ 32 - 1)) ++
  bytesLE 2 g.prescale ++ bytesLE 2 0 ++ bytesLE 4 r.count ++ bytesLE 8 (zx 64 r.mean) ++ bytesLE 8 r.sdev ++
  bytesLE 8 (zx 64 r.min) ++ bytesLE 8 (zx 64 r.max) ++ bytesLE 8 r.freq ++ bytesLE 4 r.unmatched ++ bytesLE 36 0

/-- Writes the results of the oldest closed gate to the result registers and, unless the Firebreak has frozen the store, to its
block, and posts the gate event (R228, R238). [log 48: DEDUCED] -/
def State.gateFinal (s : State) (u : Fin 32) (g : Gate) : State :=
  let r := gateResults g.window g
  let s := s.wrs [(F.TMU_RES_COUNT_COUNT u, r.count), (F.TMU_RES_COUNT_FULL_GATE u, b2n g.full),
    (F.TMU_RES_COUNT_TRUNCATED u, b2n g.cut), (F.TMU_RES_COUNT_UNREF u, b2n ((g.stamps ++ g.partner).any (·.unref))),
    (F.TMU_RES_COUNT_STALE u, b2n g.stale), (F.TMU_RES_UNMATCHED_COUNT u, r.unmatched)]
  let s := ((((s.wrP (F.TMU_RES_MEAN_LO_VALUE u) (zx 64 r.mean)).wrP (F.TMU_RES_SDEV_LO_VALUE u) r.sdev).wrP
    (F.TMU_RES_MIN_LO_VALUE u) (zx 64 r.min)).wrP (F.TMU_RES_MAX_LO_VALUE u) (zx 64 r.max)).wrP (F.TMU_RES_FREQ_LO_VALUE u) r.freq
  let s := match g.block, s.acq.tmu[u].place with
    | some (off, n), some p =>
      if s.flt.frozen then s
      else (s.writeRing p off (blockHeader u g r)).modTmu u fun k => { k with blocks := k.blocks ++ [n] }
    | _, _ => s
  (s.modTmu u fun k => { k with closed := k.closed.tail }).event (Ev.tmu u) 0

/-! ## Meanings: gates -/

/-- TMU_ARM (R221, R226). [log 41: DESIGN CHOICE] -/
def execTmuArm (u : Fin 32) (s : State) : Host.Outcome State Fault Refusal := .next (s.tmuArm u)

/-- TMU_DISARM (R238). -/
def execTmuDisarm (u : Fin 32) (s : State) : Host.Outcome State Fault Refusal := .next (s.tmuDisarm u)

/-- TMU_CLOSE (R224). -/
def execTmuClose (u : Fin 32) (s : State) : Host.Outcome State Fault Refusal := .next (s.closeGate u false false)

/-- The index that names a unit's route: its channel, or its TRIG_IN or TRIG_OUT (R221). -/
def State.routeOf (s : State) (u : Fin 32) : Nat :=
  if s.rd (F.TMU_SRC_SRC u) ≤ 2 then s.rd (F.TMU_SRC_CH u) else s.rd (F.TMU_SRC_SEL u)

/-- TMU_EDGE (R219 to R223): an edge of the unit's source after the master tick `tick`, at the interpolator's code. -/
def execTmuEdge (u : Fin 32) (tick code : Nat) (rising late : Bool) (s : State) : Host.Outcome State Fault Refusal :=
  let sel := match s.rd (F.TMU_SRC_EDGE u) with
    | 1 => !rising
    | 2 => true
    | _ => rising
  if s.tmuBlocked u || !sel then .next s
  else
    let r := s.stampOf u (s.rd (F.TMU_SRC_SRC u)) (s.routeOf u) tick code
    .next (r.2.takeEdge u ((s.acq.tmu[u].master.map (fin 32)).getD u) r.1.toNat rising late)

/-- TMU_GATE_OPEN (R224): cycle 0 of a burst on the grove has come, or shared time has reached TMU_GATE_T. -/
def execTmuGateOpen (u : Fin 32) (s : State) : Host.Outcome State Fault Refusal :=
  let gsrc := s.rd (F.TMU_GATE_GSRC u)
  if s.tmuState u = 1 ∧ ((gsrc = 2 ∧ s.acq.tmu[u].due) ∨ (gsrc = 3 ∧ s.reached (s.rdP (F.TMU_GATE_T_LO_T u)))) then
    .next (s.openGate u (if gsrc = 3 then s.tickOf (s.rdP (F.TMU_GATE_T_LO_T u)) else s.cycleZero (s.tmuGrove u)))
  else .next s

/-- TMU_GATE_EXPIRY (R224): the stamps, the time or the 16 s limit of the open gate are reached. -/
def execTmuGateExpiry (u : Fin 32) (s : State) : Host.Outcome State Fault Refusal :=
  match s.acq.tmu[u].gate with
  | none => .next s
  | some g =>
    let gsrc := s.rd (F.TMU_GATE_GSRC u)
    let full := decide (1048576 ≤ g.stamps.length) || gsrc == 2 || (gsrc == 1 && decide (g.stamps.length < s.gateLimit u)) ||
      ((gsrc == 0 || gsrc == 3) && decide (16000000 ≤ s.rd (F.TMU_GATE_US_US u)))
    .next (s.closeGate u full false (limit := full && decide (g.stamps.length < 1048576)))

/-- TMU_RESULTS_FINAL (R228): the oldest closed gate's results are written. -/
def execTmuResultsFinal (u : Fin 32) (s : State) : Host.Outcome State Fault Refusal :=
  match s.acq.tmu[u].closed with
  | g :: _ => .next (s.gateFinal u g)
  | [] => .next s

/-- The result registers of a unit, TMU_RES_COUNT first. -/
def State.resWords (s : State) (u : Fin 32) : List Word := (List.range 12).map fun i => s.word .tmu (0x78044 + 0x80 * u.1 + 4 * i)

/-- TMU_RES_COUNT_READ (R228): the result set is latched for the requester class. -/
def execTmuResCountRead (req : Req) (u : Fin 32) (s : State) : Host.Outcome State Fault Refusal :=
  let w := s.resWords u
  let l := ⟨req.cls, u.1, w⟩ :: s.acq.latches.filter fun x => !(x.req == req.cls && x.unit == u.1)
  .next ({ s with acq := { s.acq with latches := l } }.answerWith [(w.headD 0).toNat])

/-- TMU_READ (R229): the oldest unread blocks are marked read. -/
def execTmuRead (u : Fin 32) (n : Nat) (s : State) : Host.Outcome State Fault Refusal :=
  .next (s.modTmu u fun k => { k with blocks := k.blocks.drop (n % 65536) })

/-- The entry of TMU_BIN_DATA at the selected unit and code; units above 35 read zero. -/
def State.binWord (s : State) : Nat :=
  let code := s.rd F.TMU_BIN_SEL_CODE
  if h : s.rd F.TMU_BIN_SEL_UNIT < 36 then
    let t := s.acq.hits[s.rd F.TMU_BIN_SEL_UNIT]
    if t.isEmpty then 0 else t.getD code 0 + 2 ^ 16 * binFine t code
  else 0

/-- TMU_BIN_DATA_READ (R234): answers the entry and advances the position. -/
def execTmuBinDataRead (_req : Req) (s : State) : Host.Outcome State Fault Refusal :=
  .next ((s.answerWith [s.binWord]).wr F.TMU_BIN_SEL_CODE (s.rd F.TMU_BIN_SEL_CODE + 1))

/-! ## Code-density calibration (R233 to R235) -/

/-- CODE_DENSITY_CALIBRATION (R233, R235): a disarmed unit that is due begins to calibrate. -/
def execCodeDensityCalibration (unit : Nat) (s : State) : Host.Outcome State Fault Refusal :=
  if unit < 36 ∧ bitOf s.acq.calDue unit ∧ s.unitIdle unit ∧ s.cal.run.isNone then
    let a := { s.acq with calDue := without s.acq.calDue (2 ^ unit), calRun := s.acq.calRun ||| 2 ^ unit }
    .next ({ s with acq := a }.wr F.TMU_GSTATUS_CAL_RUN 1)
  else .next s

/-- CODE_DENSITY_DONE (R233, R234): the histogram of 2^22 stamps replaces the table, or the unit is stale; a held arm then
takes effect. [log 46: DEDUCED] -/
def execCodeDensityDone (unit : Nat) (hits : List Nat) (s : State) : Host.Outcome State Fault Refusal :=
  if h : unit < 36 then
    if bitOf s.acq.calRun unit ∧ hits.length = 4096 ∧ hits.sum = 4194304 then
      let run := without s.acq.calRun (2 ^ unit)
      let s := { s with acq := { s.acq with calRun := run } }.wr F.TMU_GSTATUS_CAL_RUN (b2n (run != 0))
      let s := if plausible hits then
          let s := { s with acq := { s.acq with hits := upd s.acq.hits ⟨unit, h⟩ fun _ => hits } }
          (s.setStale unit false).noteCalTemp unit
        else (s.setStale unit true).event Ev.tmuG 1
      let ok := plausible hits
      let s := (((s.setUnit gTMU unit (if ok then 1 else 2)).groupMeasured gTMU).countRun (!ok)).event Ev.tmuG 0
      .next ((if unit < 32 then s.tmuUnhold (fin 32 unit)
        else if s.acq.trg[fin 4 unit].heldArm then (s.modTrg (fin 4 unit) fun k => { k with heldArm := false }).trgArm (fin 4 unit)
        else s).calNext)
    else .next s
  else .next s

/-- DRIFT_QUALIFIED (R235): with AUTO_RECAL set, a unit whose drift has qualified is due; an armed one recalibrates when it next
disarms. [log 70: DEDUCED] -/
def execDriftQualified (unit : Nat) (s : State) : Host.Outcome State Fault Refusal :=
  if unit < 36 ∧ s.on F.TMU_GCTRL_AUTO_RECAL ∧ s.drifted unit then
    .next { s with acq := { s.acq with calDue := s.acq.calDue ||| 2 ^ unit } }
  else .next s

end Sys2Proof.Machine
end

