-- ==== Sys2Proof/Machine/Calibration.lean ====
section
/-! DEFINITION. Calibration (R177, R406 to R418): the power-up run, the CALIBRATE command, plausibility, and the calibration
record. A measured gain is its deviation from nominal in parts per million, an offset is in codes or millivolts, a delay in
LSB; REF measures the disagreement in parts per million. -/

namespace Sys2Proof.Machine

/-! ## Measurements (R177, R407) -/

/-- Fine units in LSB, rounded. -/
def toLsb (fu : ℚ) : Int := rnd (fu / 4)

/-- The mean of the stamps that a run's TMU makes on a route, each a master tick counted from the launch or from the nearest
REFCLK slot and an interpolator code, through the bin table in force. -/
def State.meanStamp (s : State) (r : CalRun) (src index : Nat) (l : List (Int × Nat)) : ℚ × State :=
  let one := fun (a : List ℚ × State) (x : Int × Nat) =>
    let y := a.2.rawStamp (fin 32 r.tmu) src index x.1 x.2
    (a.1 ++ [(y.1 : ℚ)], y.2)
  let m := l.foldl one ([], s)
  (meanQ m.1, m.2)

/-- The means of a list of such measurements. -/
def State.meanStamps (s : State) (r : CalRun) (src index : Nat) (l : List (List (Int × Nat))) : List ℚ × State :=
  l.foldl (fun (a : List ℚ × State) x =>
    let y := a.2.meanStamp r src index x
    (a.1 ++ [y.1], y.2)) ([], s)

/-- TMG_REF_PHASE (R177, step 6): the master against REFCLK, the opposite of REFCLK's stamps against the master. [log 164: DEDUCED] -/
def State.refPhase (s : State) (r : CalRun) (refclk : List (Int × Nat)) : Int × State :=
  let m := s.meanStamp r 3 0 refclk
  (-(toLsb m.1), m.2)

/-- The corrections of step 2 in 1/16 LSB: code 16p ought to lie 16p LSB, or 64p fine units, after code 0. [log 165: DESIGN CHOICE] -/
def linOf (l : List ℚ) : List Int := l.zipIdx.map fun x => rnd (4 * (64 * x.2 - (x.1 - l.headD 0)))

/-- The results of a channel's DELAY unit (R177, steps 2 to 5) from 66 measurements: the 64 codes, DRV at the ball, DEN at its tap;
and from the output stage's delay and the ends of the searches of step 5 around the DRV edge. [log 165: DESIGN CHOICE] -/
def delayOf (means : List ℚ) (searched : List Int) : List Int :=
  let drv := toLsb (means.getD 64 0)
  linOf (means.take 64) ++ [drv, toLsb (means.getD 65 0) + searched.getD 0 0, drv + searched.getD 1 0, drv + searched.getD 2 0]

/-- A unit's results from what was measured, through the values in force of the groups above it (R407): DELAY and PE through the
bin tables, PE through the drive path's DELAY, SENSE and THRESH through the groups above; the rest as measured. [log 165: DESIGN CHOICE] -/
def State.resolve (s : State) (r : CalRun) (get : Fin 7 → Nat → List Int) (x : CalResult) : CalResult × State :=
  match x.group with
  | 2 | 3 => ({ x with vals := Config.dscResult x.group x.unit x.vals ((List.range x.group).flatMap fun g => (List.range 16).map (get (fin 7 g))) }, s)
  | 5 =>
    let m := s.meanStamps r 2 x.unit x.stamps
    let inside := (x.vals.drop 1).all fun v => decide (-2048 < v) && decide (v < 2047)
    ({ x with vals := delayOf m.1 x.vals, sound := x.sound && decide (x.stamps.length = 66) && decide (x.vals.length = 3) && inside }, m.2)
  | 6 =>
    let m := s.meanStamps r 0 x.unit x.stamps
    ({ x with vals := m.1.map fun q => toLsb q - s.rd (F.TMG_DESKEW_DRV_DELAY x.unit) }, m.2)
  | _ => (x, s)

/-! ## Plausibility (R408) -/

/-- Pairs of (gain, offset) inside their limits. -/
def gainOffset (gain offset : Int) : List Int → Bool
  | g :: o :: r => decide (g.natAbs ≤ gain.natAbs) && decide (o.natAbs ≤ offset.natAbs) && gainOffset gain offset r
  | l => l.isEmpty

/-- The delays of a channel inside their limits: 64 corrections, then DRV, DEN, CMH and CML. -/
def State.delayOk (s : State) (c : Nat) (l : List Int) : Bool :=
  let at_ := fun i => l.getD (64 + i) 0
  let near := fun (v : Int) (f : Fld) => decide (1000 ≤ v) && decide (v ≤ 20000) && decide ((v - (s.rd f : Int)).natAbs ≤ 655)
  l.length == 68 && ((l.take 64).all fun v => decide (v.natAbs ≤ 1024)) && near (at_ 0) (F.TMG_DESKEW_DRV_DELAY c) &&
    near (at_ 1) (F.TMG_DESKEW_DEN_DELAY c) && decide ((at_ 2 - at_ 3).natAbs ≤ 512)

/-- Whether a unit's results are all plausible. -/
def State.unitOk (s : State) (r : CalResult) (phase : Int) : Bool :=
  r.sound && (match r.group with
    | 0 => r.vals.all fun v => decide (v.natAbs ≤ 5000)
    | 1 => r.vals.length == 2 && gainOffset 10000 8 r.vals
    | 2 => r.vals.length == 6 && gainOffset 20000 64 r.vals
    | 3 => r.vals.length == 8 && gainOffset 30000 32 r.vals
    | 4 => r.vals.length == 4096 && r.vals.sum == 4194304 && plausible (r.vals.map Int.toNat)
    | 5 => s.delayOk r.unit r.vals && decide (-512 ≤ phase) && decide (phase ≤ 511)
    | _ => r.vals.length == 1 && r.vals.all fun v => decide (1966 ≤ v) && decide (v ≤ 32768))

/-! ## Values in force (R409) -/

/-- Writes a 16-bit value with the parity of its word. -/
def State.putPar (s : State) (f par : Fld) (v : Int) : State := s.wrs [(f, zx 16 v), (par, parityOf (zx 16 v))]

/-- Puts a unit's values in force in one write: the timing registers, the bin tables, or the store of values that no register
shows. -/
def State.putUnit (s : State) (g : Fin 7) (u : Nat) (l : List Int) : State :=
  let at_ := fun i => l.getD i 0
  match g with
  | 4 => if h : u < 36 then { s with acq := { s.acq with hits := upd s.acq.hits ⟨u, h⟩ fun _ => l.map Int.toNat } } else s
  | 5 =>
    let s := (List.range 64).foldl (fun s p => s.putPar (F.TMG_LIN_CORR u p) (F.TMG_LIN_PAR u p) (at_ p)) s
    let s := (s.putPar (F.TMG_DESKEW_DRV_DELAY u) (F.TMG_DESKEW_DRV_PAR u) (at_ 64)).putPar (F.TMG_DESKEW_DEN_DELAY u) (F.TMG_DESKEW_DEN_PAR u) (at_ 65)
    let s := (s.putPar (F.TMG_DESKEW_CMH_DELAY u) (F.TMG_DESKEW_CMH_PAR u) (at_ 66)).putPar (F.TMG_DESKEW_CML_DELAY u) (F.TMG_DESKEW_CML_PAR u) (at_ 67)
    s.modChan (fin 128 u) fun k => { k with linOk := true }
  | 6 => s.putPar (F.TMG_PE_RT_RT u) (F.TMG_PE_RT_PAR u) (at_ 0)
  | _ =>
    let rest := s.cal.vals.filter fun v => !(v.1 == g.1 && v.2.1 == u)
    { s with cal := { s.cal with vals := rest ++ [(g.1, u, l)] } }

/-- The values in force of a unit. -/
def State.getUnit (s : State) (g : Fin 7) (u : Nat) : List Int :=
  match g with
  | 4 => if h : u < 36 then (s.acq.hits[u]'h).map fun n => (n : Int) else []
  | 5 => ((List.range 64).map fun p => s.rdS (F.TMG_LIN_CORR u p)) ++ [(s.rd (F.TMG_DESKEW_DRV_DELAY u) : Int), (s.rd (F.TMG_DESKEW_DEN_DELAY u) : Int),
      (s.rd (F.TMG_DESKEW_CMH_DELAY u) : Int), (s.rd (F.TMG_DESKEW_CML_DELAY u) : Int)]
  | 6 => [(s.rd (F.TMG_PE_RT_RT u) : Int)]
  | _ => ((s.cal.vals.find? fun v => v.1 == g.1 && v.2.1 == u).map (·.2.2)).getD []

/-! ## A run's results (R409, R414 to R418) -/

/-- Whether a run measures a unit of a group. -/
def CalRun.takes (r : CalRun) (g u : Nat) : Bool :=
  bitOf r.groups g && (match g with
    | 0 => u == 0
    | 1 => decide (u < 5)
    | 2 | 3 => bitOf r.dscs u && decide (u < 16)
    | 4 => decide (u < 36)
    | 5 | 6 => bitOf r.chans u
    | _ => false)

/-- Units that a run would have measured and does not, which become STALE: HOUSE, SENSE and THRESH where REF failed (R409), and
at power-up SENSE and THRESH of a DSC whose self-check failed (R414). -/
def State.lostUnit (s : State) (r : CalRun) (refBad : Bool) (g u : Nat) : Bool :=
  r.takes g u && 1 ≤ g && g ≤ 3 && (refBad || (2 ≤ g && r.cmd.isNone && s.dscBound (fin 16 u) && s.rd (F.CMP_ST_RESULT_RESULT u) == 2))

/-- The results of a run that count: of the units it measures, and of PE only with TMG_CTRL.FIXTURE set (R177, step 7). -/
def State.counts (s : State) (r : CalRun) (refBad : Bool) (x : CalResult) : Bool :=
  r.takes x.group x.unit && !s.lostUnit r refBad x.group x.unit && (x.group != 6 || s.on F.TMG_CTRL_FIXTURE)

/-- One unit's result: it passes and its values are in force, or it is STALE and nothing of it changes. -/
def State.takeResult (s : State) (x : CalResult) (phase : Int) : State :=
  let g : Fin 7 := fin 7 x.group
  if s.unitOk x phase then
    let s := (s.putUnit g x.unit x.vals).setUnit g x.unit 1
    if x.group = 4 then (s.setStale x.unit false).noteCalTemp x.unit else s
  else
    let s := s.setUnit g x.unit 2
    if x.group = 4 then (s.setStale x.unit true).event Ev.tmuG 1 else s

/-- One measurement comes in: its results by the values now in force, judged and taken; whether it passed joins the list. -/
def State.takeOne (r : CalRun) (refclk : List (Int × Nat)) (a : State × List (CalResult × Bool)) (x : CalResult) : State × List (CalResult × Bool) :=
  let y := a.1.resolve r a.1.getUnit x
  let p : Int × State := if x.group = 5 then y.2.refPhase r refclk else (0, y.2)
  (p.2.takeResult y.1 p.1, a.2 ++ [(y.1, p.2.unitOk y.1 p.1)])

/-- The measurements of a run come in group by group, in the order of R406, each through the groups above it as they then stand
(R407, R409): what each gave, and whether it passed. -/
def State.takeAll (s : State) (r : CalRun) (refclk : List (Int × Nat)) (l : List CalResult) : State × List (CalResult × Bool) :=
  ((List.range 7).flatMap fun g => l.filter fun x => x.group == g).foldl (State.takeOne r refclk) (s, [])

/-- The completion of a calibration command (R415, R416): RESULT holds the groups and units on OK. -/
def State.calComplete (s : State) (h : Option Hdr) (status detail result : Nat) : State :=
  match h with
  | some h => s.complete h status detail (if status = 0 then result else 0)
  | none => s

/-- What a run holds is released: its channels, and the units whose arms it held. -/
def State.calRelease (s : State) : State :=
  let held := s.acq.calHeld
  let s := { s with cal := { s.cal with run := none }, calHold := 0, acq := { s.acq with calHeld := 0 } }
  let s := (allFin 32).foldl (fun s u => if bitOf held u.1 then s.tmuUnhold u else s) s
  let s := (allFin 4).foldl (fun s e => if s.acq.trg[e].heldArm && bitOf held (32 + e.1) then
    (s.modTrg e fun k => { k with heldArm := false }).trgArm e else s) s
  s.wrs [(F.CAL_STATUS_RUNNING, 0), (F.TMG_STATUS_CAL_RUN, 0), (F.TMU_GSTATUS_CAL_RUN, 0)]

/-- The group at which a run that lost REFCLK was interrupted: its first REFCLK group without a result. -/
def CalRun.lostAt (r : CalRun) (l : List CalResult) : Nat :=
  (((List.range 7).filter fun g => decide (4 ≤ g) && bitOf r.groups g && !(l.any fun x => x.group == g)).head?).getD 6

/-- Ends a run with the results it has. [log 78: DEDUCED] -/
def State.calEnd (s : State) (r : CalRun) (results : List CalResult) (refclk : List (Int × Nat)) : State :=
  let refBad := results.any fun x => x.group == 0 && r.takes 0 x.unit && !s.unitOk x 0
  let used := results.filter (s.counts r refBad)
  let s := if r.has gREF && results.any fun x => x.group == 0 then
      (if refBad then ((s.wr F.CAL_STATUS_REF_OK 0).event Ev.cal 5).faultOnce 5 none else s.wr F.CAL_STATUS_REF_OK 1)
    else s
  let lostUnits := [1, 2, 3].flatMap fun g => ((List.range 16).filter (s.lostUnit r refBad g)).map fun u => (g, u)
  let taken := s.takeAll r refclk used
  let s := taken.1
  let bad := (taken.2.filter fun x => !x.2).map (fun x => (x.1.group, x.1.unit)) ++ lostUnits
  let delay := taken.2.filter fun x => x.1.group == 5
  let s := lostUnits.foldl (fun s p => s.setUnit (fin 7 p.1) p.2 2) s
  let s := if !delay.isEmpty && delay.all (·.2) then
      let p := s.refPhase r refclk
      (p.2.wrs [(F.TMG_REF_PHASE_PHASE, zx 16 p.1), (F.TMG_CAL_TEMP_TEMP, zx 16 s.tdec)]).timingDrift s.tdec
    else s
  let measured := (List.range 7).filter fun g => used.any fun x => x.group == g
  let s := (List.range 7).foldl (fun s g => if measured.contains g then s.groupMeasured (fin 7 g) else s.noteGroup (fin 7 g)) s
  let s := if measured.isEmpty then s else s.countRun (!bad.isEmpty)
  let s := if measured.contains 4 then s.event Ev.tmuG 0 else s
  let result := maskOf measured + 2 ^ 8 * maskOf ((bad.map (·.1)).dedup) + 2 ^ 16 * bad.length
  let s := s.calRelease
  let s := if r.cmd.isNone then s.wr F.CAL_STATUS_START_DONE 1 else s
  if r.cut then (s.calComplete r.cmd (if used.isEmpty then stNotStarted else stPartial) 0 0).calNext
  else
    let (status, detail) := if r.lost then (4, r.lostAt results) else (r.status, r.detail)
    let s := s.calNext
    if r.commit then
      if s.on (F.GLB_BOOT_KIND_CONFIRMED 2) then
        { s with cal := { s.cal with commit := some ({ r with status := status, detail := detail }, result) } }
      else (s.event Ev.cal 3).calComplete r.cmd 7 0 0
    else s.calComplete r.cmd status detail result

/-! ## Meanings -/

/-- POWERUP_CALIBRATION (R279, R414): at every start, before the first burst; every bound channel checks itself first; groups REF to
DELAY, or without REFCLK only those traced to the band-gap. [log 80: DEDUCED] -/
def execPowerupCalibration (s : State) : Host.Outcome State Fault Refusal :=
  if s.on F.CAL_STATUS_START_DONE ∨ s.cal.run.isSome then .next s
  else
    let r : CalRun :=
      { cmd := none, groups := if s.rd F.CLK_STATUS_SRC = 0 then 0x3F else 0x0F, commit := false, unbound := true, groves := 0
        chans := 0, dscs := 0xFFFF, status := 0, detail := 0, lost := false, cut := false }
    .next ((((allFin 16).filter s.dscBound).foldl State.cmpGo s).calStart r)

/-- CALIBRATE (R415, R416): the operand check and the checks at acceptance, then the run, or its turn to wait. [log 78: DEDUCED] -/
def execCalibrate (h : Hdr) (groups flags groves dscs : Nat) (s : State) : Host.Outcome State Fault Refusal :=
  .next (s.begin_ h 0x21 fun s =>
    if groups = 0 ∨ 0x80 ≤ groups ∨ 4 ≤ flags then s.complete h stBadOperand
    else if s.atAcceptance h (·.noRef) ∧ fieldOf groups 4 3 ≠ 0 then s.complete h 0x03
    else if s.atAcceptance h (·.reload) then s.complete h 0x06
    else
      let r : CalRun :=
        { cmd := some h, groups := groups, commit := bitOf flags 0, unbound := bitOf flags 1, groves := groves, chans := 0
          dscs := dscs % 2 ^ 16, status := 0, detail := 0, lost := false, cut := false }
      { s with cal := { s.cal with queue := s.cal.queue ++ [r] } }.calNext)

/-- CALIBRATION_RUN_END (R407, R409, R414, R416, R418): the run in progress ends with what it measured of its units, and with its
TMU's stamps of REFCLK. -/
def execCalibrationRunEnd (results : List CalResult) (refclk : List (Int × Nat)) (s : State) : Host.Outcome State Fault Refusal :=
  match s.cal.run with
  | none => .next s
  | some r => .next (s.calEnd r results refclk)

/-! ## The calibration record (R411 to R413, R469) -/

/-- Values of a unit by group. [log 77: DEDUCED] -/
def unitVals (g : Nat) : Nat := [0, 2, 6, 8, 4096, 68, 1].getD g 0

/-- A unit in a record: its values in 4 bytes each, and its flag. [log 77: DEDUCED] -/
def unitBytes (g : Nat) (l : List Int) (ok : Bool) : List Byte :=
  ((List.range (unitVals g)).flatMap fun i => bytesLE 4 (zx 32 (l.getD i 0))) ++ bytesLE 1 (b2n ok)

/-- A group's section: its header, then every unit. -/
def State.section_ (s : State) (g : Fin 7) : List Byte :=
  let l := s.cal.units[g]
  let body := (l.zipIdx).flatMap fun p =>
    if p.1 = 1 then unitBytes g (s.getUnit g p.2) true
    else match s.cal.record.find? fun v => v.1 == g.1 && v.2.1 == p.2 with
      | some v => unitBytes g v.2.2.2 v.2.2.1
      | none => unitBytes g [] false
  bytesLE 1 g ++ bytesLE 1 l.length ++ bytesLE 2 (s.rd (F.CAL_GRP_TEMP_TEMP g)) ++ bytesLE 4 (body.length + 8) ++ body

/-- The new record (R411, R413), signed with the calibration-signing key. [log 77: DEDUCED] -/
def State.recordBytes (s : State) (key : Nat) : List Byte :=
  let (t, base) := s.calTime
  let head := bytesLE 4 0x41434851 ++ bytesLE 2 1 ++ bytesLE 2 7 ++ bytesLE 8 Config.serial ++ bytesLE 4 (s.rd F.CAL_RECORD_SEQ + 1) ++
    bytesLE 4 0 ++ bytesLE 8 t ++ bytesLE 1 base ++ bytesLE 31 0
  let body := head ++ (allFin 7).flatMap fun g => s.section_ g
  body ++ ecdsaSign key body ++ bytesLE 32 0

/-- Rounds a length up to a 64-byte boundary. -/
def pad64 (l : List Byte) : List Byte := l ++ List.replicate ((64 - l.length % 64) % 64) 0

/-- The seal of a record (R469). -/
def sealBytes (key svn : Nat) (record : List Byte) : List Byte :=
  let head := bytesLE 4 0x4C534851 ++ bytesLE 4 svn ++ bytesLE 8 0 ++ bytesLE 48 (sha384 record)
  head ++ ecdsaSign key head

/-- The flash offset of a slot of a kind: FW, STR, CAL, BOARD (R467). -/
def slotBase (kind slot : Nat) : Nat :=
  match kind with
  | 0 => if slot = 0 then 0x0800000 else 0x1000000
  | 1 => if slot = 0 then 0x0300000 else 0x0400000
  | 2 => if slot = 0 then 0x0100000 else 0x0200000
  | _ => if slot = 0 then 0x0050000 else 0x0060000

/-- CALIBRATION_RECORD_WRITTEN (R413, R469, R479): the record and its seal stand in the inactive slot and are activated under
trial, or the write has failed. -/
def execCalibrationRecordWritten (ok : Bool) (s : State) : Host.Outcome State Fault Refusal :=
  match s.cal.commit with
  | none => .next s
  | some (r, result) =>
    let s := { s with cal := { s.cal with commit := none } }
    match ok, s.sec.calKey with
    | true, some key =>
      let arb := s.rd (F.SEC_ARB_COUNT 2)
      let svn := if s.on F.GLB_UPD_CMD_CAL_ADVANCE ∧ arb < 64 then arb + 1 else arb
      let rec_ := s.recordBytes key
      let slot := 1 - s.rd (F.GLB_BOOT_KIND_ACTIVE 2)
      let s := (s.flashErase (slotBase 2 slot) (2 ^ 20)).flashPuts (slotBase 2 slot) (pad64 rec_ ++ sealBytes key svn rec_)
      let s := { s with boot := { s.boot with changes := s.boot.changes ++ [(2, RecChange.activate)] } }
      .next (((s.wr F.GLB_UPD_CMD_CAL_ADVANCE 0).event Ev.cal 2).calComplete r.cmd r.status r.detail result).calNext
    | _, _ => .next ((s.event Ev.cal 3).calComplete r.cmd 7 0 0).calNext

end Sys2Proof.Machine
end

