-- ==== Sys2Proof/Machine/Outcome.lean ====
section
/-! DEFINITION. The outcome record of a burst (R14, R432 to R435) and what Reported does: the completion (R324, R326), the
scheduler's fills (R15, R290), heat (R141), the streams' discard (R131) and the release of what the burst held (R144). -/

namespace Sys2Proof.Machine

/-- Offset of the outcome slots in the control region, behind the staging area of R41 and the table of R148, and bytes of a
slot; the record of a burst stands in the slot of its lowest-numbered grove (DESIGN CHOICE, log entry 13). [log 13: DESIGN CHOICE] -/
abbrev outcomeBase : Nat := 0x110000
abbrev outcomeSlot : Nat := 64 + 128 * 32

/-- The runs of pages of a region in ascending order. -/
def State.regionRuns (s : State) (r : Nat) : List (Nat × Nat) :=
  runsOf ((List.range 2048).filter fun p => s.forest.regionOf p == some r)

/-- The Canopy offset of a byte of the control region. -/
def State.controlAddr (s : State) (off : Nat) : Nat := runAddr canopyPage (s.regionRuns 1) off

/-- A number, or all ones where there is none. -/
def orOnes (o : Option Nat) : List Byte := bytesLE 8 (o.getD (2 ^ 64 - 1))

/-- The entry of one grove of a burst that was cut while it was Declared (R117, R433): its reason and its DSCs, and nothing
emitted, void, failed or fetched. -/
def earlyEntry (g : Fin 32) (r : EndReason) (dscs : List (Nat × Nat × Nat)) : List Byte :=
  let l := (dscs.filter fun d => d.1 == g.1).take 4
  let dsc := (List.range 4).flatMap fun i => match l[i]? with
    | some d => bytesLE 4 d.2.2
    | none => bytesLE 4 0xFF
  bytesLE 1 g ++ bytesLE 1 r.code ++ bytesLE 1 0 ++ bytesLE 1 l.length ++ bytesLE 4 0 ++ orOnes none ++ orOnes none ++ bytesLE 8 0 ++
  orOnes none ++ orOnes none ++ bytesLE 8 0 ++ orOnes none ++ orOnes none ++ bytesLE 8 0 ++ bytesLE 8 0 ++ bytesLE 2 0xFFFF ++
  bytesLE 1 0 ++ bytesLE 1 0 ++ bytesLE 4 0 ++ dsc ++ bytesLE 8 0 ++ bytesLE 8 0

/-- The entry of one grove (R433). -/
def State.groveEntry (s : State) (g : Fin 32) : List Byte :=
  let k := s.groves[g]
  let flags := b2n k.peer + 2 * b2n k.cycle0 + 4 * b2n k.unrefFirst.isSome + 8 * b2n k.unrecorded + 16 * b2n k.drained
  let fetch := k.fetch.getD (0xFFFF, 0, 0)
  let dsc := (List.range 4).flatMap fun i => match k.dscEnd[i]? with
    | some d => bytesLE 4 d.2
    | none => bytesLE 4 0xFF
  bytesLE 1 g ++ bytesLE 1 ((k.ended.map EndReason.code).getD 0) ++ bytesLE 1 flags ++ bytesLE 1 (min 4 k.dscEnd.length) ++ bytesLE 4 0 ++
  orOnes k.lastCycle ++ orOnes k.emittedTo ++ bytesLE 8 k.lines ++ orOnes k.voidFirst ++ orOnes k.voidLast ++
  bytesLE 8 (s.rdP (F.FAB_VOID_CNT_LO_COUNT g)) ++ orOnes k.unrefFirst ++ orOnes k.unrefLast ++
  bytesLE 8 (s.rdP (F.CAP_G_FAILCYC_LO_COUNT g)) ++ bytesLE 8 (s.rdP (F.CAP_G_FAILS_LO_COUNT g)) ++
  bytesLE 2 fetch.1 ++ bytesLE 1 fetch.2.1 ++ bytesLE 1 0 ++ bytesLE 4 fetch.2.2 ++ dsc ++ bytesLE 8 k.stamp ++ bytesLE 8 0

/-- The record of a burst (R432). [log 31: DEDUCED] -/
def State.outcomeBytes (s : State) (b : Burst) : List Byte :=
  let gs := grovesIn b.ops.groves
  let ran := fun (p : Grove → Bool) => b.early.isNone && gs.any fun g => p s.groves[g]
  let flags := b2n b.firebreak + 2 * b2n b.fatal + 4 * b2n (ran fun k => k.unrefFirst.isSome) + 8 * b2n (ran fun k => k.voidFirst.isSome)
  let cycle0 := ran (·.cycle0)
  let entry := fun g => match b.early with
    | some (r, d) => earlyEntry g r d
    | none => s.groveEntry g
  bytesLE 4 0x524F4851 ++ bytesLE 1 1 ++ bytesLE 1 (s.burstState b) ++ bytesLE 1 gs.length ++ bytesLE 1 flags ++
  bytesLE 2 (idBits b.hdr.tag b.hdr.epoch) ++ bytesLE 2 b.ops.demand ++ bytesLE 4 b.ops.groves ++
  orOnes (if cycle0 then b.startTime else none) ++ bytesLE 8 b.endTime ++ bytesLE 4 b.faultSeq ++
  bytesLE 1 (if b.firebreak || b.fatal then b.faultSrc else 0xFF) ++ bytesLE 27 0 ++ gs.flatMap entry

/-- The BURST_OUTCOME value of R290, which is also RESULT of the completion. -/
def State.outcomeValue (s : State) (b : Burst) (off : Nat) : Nat :=
  off % 2 ^ 27 + 2 ^ 32 * s.burstState b + 2 ^ 48 * (b.hdr.tag % 512) + 2 ^ 57 * (b.hdr.epoch % 64)

/-- The completion status of a burst that has ended (R324, R326). -/
def State.outcomeStatus (s : State) (b : Burst) : Nat :=
  if !(b.firebreak || b.fatal) then stOk
  else if b.early.isNone && (grovesIn b.ops.groves).any fun g => s.groves[g].cycle0 then stPartial else stNotStarted

/-- Whether the record can be written: the burst has ended, its captures are drained, and a fault that ended it has run its
course (R14, R195, R435). -/
def State.outcomeReady (s : State) (b : Burst) : Bool :=
  b.stage == .ended && (b.firebreak || b.early.isSome || (grovesIn b.ops.groves).all fun g => s.groves[g].drained || !s.groves[g].capOpen) &&
    (!b.firebreak || s.rd F.FLT_STATUS_STATE != 2) && (!(b.fatal && !b.firebreak) || b.faultSeq != 0)

/-- The heat of a resident segment after a burst (R141). -/
def Seg.reported (b : Burst) (decay now : Nat) (x : Seg) : Seg :=
  if x.tier = .none ∨ x.loading.isSome then x
  else
    let entry := b.adv.find? fun a => a.1 == x.id && a.2.1 == x.gen
    let u := (entry.map fun a => a.2.2 * 256 / x.lines).getD 0
    { x with heat := min (2 ^ 24 - 1) (x.heat - x.heat / 2 ^ decay + u), lastUse := if entry.isSome then now else x.lastUse }

/-- A burst uses its threads' streams where a segment of its reachable set is in the host tier (R131). [log 144: DEDUCED] -/
def State.usesStreams (s : State) (b : Burst) : Bool := b.early.isNone && (s.reachSegs b).any fun x => x.tier == .host

/-- The burst enters Reported: its threads are idle, its streams discard what is left, heat is updated, and what it held is
free. [log 144: DEDUCED] -/
def State.reportBurst (s : State) (b : Burst) : State :=
  let now := s.now
  let s := (s.threadsOf b).foldl (fun s t =>
    let s := if s.usesStreams b then s.strmDiscard t else s
    (s.modThread t fun k => { k with busy := none }).wr (F.SEQ_STATUS_STATE t) 0) s
  let segs := s.forest.segs.map (Seg.reported b (max 1 (s.rd F.FOR_POLICY_DECAY)) now)
  let s := { s with
    bursts := s.bursts.filter fun o => !sameHdr o.hdr b.hdr
    forest := { s.forest with segs := segs } }
  s.dropRetired.evaluate

/-- OUTCOME_RECORD_WRITE (R14): the record, then every consumer hears of it. -/
def execOutcomeRecordWrite (tag epoch : Nat) (s : State) : Host.Outcome State Fault Refusal :=
  match s.burstBy tag epoch with
  | none => .next s
  | some b =>
    if s.outcomeReady b = false then .next s
    else
      let gs := grovesIn b.ops.groves
      let off := s.controlAddr (outcomeBase + outcomeSlot * ((gs.map (·.1)).headD 0))
      let v := s.outcomeValue b off
      let st := s.outcomeStatus b
      let s := { s with canopy := Mem.puts s.canopy off (s.outcomeBytes b) }
      let s := gs.foldl (fun s g => s.occurrence 2 g v) s
      .next ((s.complete b.hdr st 0 v).reportBurst b)

end Sys2Proof.Machine
end

