-- ==== Sys2Proof/Machine/HostIf.lean ====
section
/-! DEFINITION. The host interface (R305 to R331): queue pairs, acceptance, completions, doorbells, power states, function
level reset, and the Canopy and SDRAM windows (R511, R512). -/

namespace Sys2Proof.Machine

/-! ## Queue pairs (R311 to R314) -/

/-- A queue's size. -/
def State.sqSize (s : State) (q : Fin 16) : Nat := s.rd (F.HQ_SQ_CFG_SIZE q)
def State.cqSize (s : State) (q : Fin 16) : Nat := s.rd (F.HQ_CQ_CFG_SIZE q)

/-- A submission queue stops on an error (R313, R314): 1 tail out of range, 2 entry fetch failed, 3 completion write failed. -/
def State.queueError (s : State) (q : Fin 16) (code : Nat) : State :=
  let s := (s.modQueue q fun k => { k with stopped := true }).wrs [(F.HQ_Q_STAT_ERR q, 1), (F.HQ_Q_STAT_ERR_CODE q, code)]
  s.event Ev.hq 4

/-- SQ_TAIL_DOORBELL (R313): without effect on a queue that is disabled or stopped. -/
def State.sqTail (s : State) (q : Fin 16) (tail : Nat) : State :=
  if s.on (F.HQ_SQ_CFG_EN q) = false ∨ s.hq.queues[q].stopped then s
  else if s.sqSize q ≤ tail then s.queueError q 1
  else s.modQueue q fun k => { k with sqTail := tail }

def execSqTailDoorbell (q : Fin 16) (tail : Nat) (s : State) : Host.Outcome State Fault Refusal :=
  .next (s.sqTail q (tail % 4096)).retire

/-- Whether a queue has entries the module may fetch. -/
def State.hasEntries (s : State) (q : Fin 16) : Bool :=
  s.on (F.HQ_SQ_CFG_EN q) && !s.hq.queues[q].stopped && s.rd (F.HQ_SQ_HEAD_HEAD q) != s.hq.queues[q].sqTail

/-- The queue whose turn it is: the first with entries, round robin from the one after the queue fetched last. -/
def State.turn (s : State) : Option (Fin 16) :=
  ((List.range 16).map fun i => fin 16 (s.hq.rrNext + i)).find? s.hasEntries

/-! ## Acceptance (R312, R315, R317, R323) -/

/-- The opcodes of R319 and R447. -/
def opcodes : List Nat :=
  [0x00, 0x01, 0x02, 0x03, 0x10, 0x11, 0x12, 0x13, 0x14, 0x15, 0x16, 0x17, 0x20, 0x21, 0x30, 0x31, 0x32,
   0x40, 0x41, 0x42, 0x43, 0x44, 0x45, 0x46, 0x47, 0x48, 0x49, 0x4A, 0x4B]

/-- Offset and size of the operands each opcode names (R321, R415, R447); every other byte from 0x08 on is reserved. -/
def operandsOf : Nat → List (Nat × Nat)
  | 0x01 => [(0x08, 12), (0x18, 8)]
  | 0x02 | 0x03 => [(0x08, 2)]
  | 0x10 => [(0x08, 12)]
  | 0x11 => [(0x08, 8)]
  | 0x12 => [(0x08, 3)]
  | 0x13 => [(0x08, 24)]
  | 0x14 => [(0x08, 1)]
  | 0x15 => [(0x08, 1), (0x0A, 4)]
  | 0x16 => [(0x08, 1)]
  | 0x17 => [(0x08, 12)]
  | 0x20 => [(0x08, 4), (0x10, 8)]
  | 0x21 => [(0x08, 2), (0x0C, 6)]
  | 0x30 => [(0x08, 32)]
  | 0x31 => [(0x08, 5), (0x10, 8)]
  | 0x32 => [(0x08, 4)]
  | 0x40 => [(0x08, 2), (0x10, 8)]
  | 0x41 => [(0x08, 8)]
  | 0x43 => [(0x08, 12), (0x18, 8)]
  | 0x44 => [(0x08, 8)]
  | 0x45 => [(0x08, 2)]
  | 0x48 => [(0x08, 41)]
  | 0x4A => [(0x08, 4)]
  | 0x4B => [(0x08, 12)]
  | _ => []

/-- Bits within a named operand that are reserved: offset, mask of the byte. -/
def reservedBits : Nat → List (Nat × Nat)
  | 0x01 => [(0x0F, 0xFC), (0x13, 0xFF)]
  | 0x02 | 0x03 => [(0x09, 0x80)]
  | 0x13 => [(0x17, 0xFE)]
  | 0x15 => [(0x08, 0xFE)]
  | 0x20 => [(0x08, 0xFC)]
  | 0x21 => [(0x09, 0xFC)]
  | _ => []

/-- Every reserved field of an entry is zero (R312). -/
def entryClean (e : List Byte) : Bool :=
  let opc := leAt e 0 1
  let named := fun i => (operandsOf opc).any fun o => decide (o.1 ≤ i) && decide (i < o.1 + o.2)
  decide (leAt e 1 1 < 2) && decide (leAt e 2 2 < 0x8000) && leAt e 4 4 == 0 &&
  ((List.range 56).all fun i => named (8 + i) || leAt e (8 + i) 1 == 0) &&
  (reservedBits opc).all fun r => (leAt e r.1 1 &&& r.2) == 0

/-- Whether the host port's role permits a command (R446). CODE_LOAD without PLUGIN and CALIBRATE with COMMIT are the
security officer's. -/
def State.cmdPermitted (s : State) (e : List Byte) : Bool :=
  let role := s.rd F.SEC_STATUS_HOST_ROLE
  match leAt e 0 1 with
  | 0x00 | 0x40 | 0x41 | 0x42 | 0x48 | 0x49 => true
  | 0x13 => role == 2 || (role == 1 && bitOf (leAt e 0x17 1) 0)
  | 0x21 => role == 2 || (role == 1 && !bitOf (leAt e 0x09 1) 0)
  | 0x43 => role == 2 || s.rd F.SEC_STATUS_LIFECYCLE == 1
  | 0x46 | 0x4A => role == 2
  | _ => decide (1 ≤ role)

/-- Whether a command is refused while the Firebreak, the clearing state or FATAL is in force (R326, R424). -/
def refusedClearing (e : List Byte) : Bool :=
  let opc := leAt e 0 1
  [0x01, 0x10, 0x11, 0x13, 0x14, 0x21].contains opc || (opc == 0x15 && leAt e 8 1 == 0)

/-- The refusal at acceptance, in the order of R323; in recovery every opcode but those of authentication is unknown (R475). -/
def State.entryRefusal (s : State) (e : List Byte) : Option Nat :=
  let recovery := s.rd F.GLB_BOOT_STAT_STAGE == 3 && !([0x40, 0x41, 0x42].contains (leAt e 0 1))
  if !opcodes.contains (leAt e 0 1) || recovery then some stBadOpcode
  else if !s.cmdPermitted e then some stRoleDenied
  else if s.clearing && refusedClearing e then some stClearing
  else if !entryClean e then some stBadOperand else none

/-- The current epoch of a tag (R317). -/
def State.tagEpoch (s : State) (tag : Nat) : Option Nat := cellGet tag s.hq.tags

/-- Accepts an entry: its tag is handled, it is in flight, and what the entry alone refuses completes (R317, R323). [log 170: DEDUCED] -/
def State.accept (s : State) (q : Fin 16) (e : List Byte) : State :=
  let id := leAt e 2 2
  let h : Hdr := { q := q, tag := id % 512, epoch := fieldOf id 9 6, fence := bitOf (leAt e 1 1) 0 }
  if s.hq.inFlight.any fun f => f.hdr.tag == h.tag && f.hdr.epoch == h.epoch then
    (s.complete h stTagInUse 0 0 true).event Ev.hq 3
  else
    let f : InFlight :=
      { hdr := h, opc := leAt e 0 1, order := s.hq.nextOrder, noRef := s.rd F.CLK_STATUS_SRC != 0, reload := s.reloading
        busy := !s.bursts.isEmpty || s.burstBefore s.hq.nextOrder }
    let s := { s with hq := { s.hq with
      inFlight := s.hq.inFlight ++ [f], nextOrder := f.order + 1, tags := cellPut 64 h.tag h.epoch s.hq.tags } }
    match s.entryRefusal e with
    | none => s
    | some st =>
      let mark := fun g : InFlight => if g.order = f.order then { g with begun := true } else g
      { s with hq := { s.hq with inFlight := s.hq.inFlight.map mark } }.complete h st

/-- COMMAND_FETCH (R313, R315, R461): the queue whose turn it is gives its next entry; a security command is not accepted
before the power-up self-tests have passed. -/
def execCommandFetch (q : Fin 16) (e : Entry) (s : State) : Host.Outcome State Fault Refusal :=
  if s.turn ≠ some q ∨ s.hq.d3 ∨ s.epReset ∨ 512 ≤ s.hq.inFlight.length then .next s
  else match e with
    | none => .next ((s.event Ev.hq 5).queueError q 2)
    | some l =>
      if 0x40 ≤ leAt l 0 1 ∧ leAt l 0 1 ≤ 0x4B ∧ s.on F.SEC_STATUS_ST_DONE = false then .next s
      else
        let s := s.wr (F.HQ_SQ_HEAD_HEAD q) ((s.rd (F.HQ_SQ_HEAD_HEAD q) + 1) % max 1 (s.sqSize q))
        let s := { s with hq := { s.hq with rrNext := (q.1 + 1) % 16 } }
        .next (s.accept q l)

/-- HOST_READ_RESPONSE (R320): a read of host memory that fails ends its command and leaves nothing changed; the data of one
that succeeds come with the command that asked for it. -/
def execHostReadResponse (h : Hdr) (ok : Bool) (s : State) : Host.Outcome State Fault Refusal :=
  if ok then .next s
  else match s.hq.inFlight.find? fun f => sameHdr f.hdr h && [0x10, 0x11, 0x13, 0x41, 0x43, 0x44].contains f.opc with
    | none => .next s
    | some f =>
      if s.hq.compls.any fun c => sameHdr c.hdr h && !c.intake then .next s
      else
        let s := s.event Ev.hq 5
        if f.begun then
          if s.rd F.STR_STATUS_STATE = 2 ∧ (s.str.cmd.any fun l => sameHdr l h) then
            let s := { s with str := { s.str with cmd := none, staged := [] } }
            .next ((s.wr F.STR_STATUS_STATE (b2n (!s.str.image.isEmpty))).complete h stHostReadFailed)
          else match s.forest.segs.find? fun x => x.loading.any fun l => sameHdr l h with
          | some x =>
            if x.waits then .next s
            else
              let keep := fun y : Seg => !(y.id == x.id && y.gen == x.gen)
              let s := { s with forest := { s.forest with
                segs := s.forest.segs.filter keep, lastGen := cellPut 256 x.id (x.prevGen.getD 256) s.forest.lastGen } }
              .next (s.complete h stHostReadFailed x.id)
          | none => .next s
        else
          let mark := fun g : InFlight => if g.order = f.order then { g with begun := true } else g
          .next ({ s with hq := { s.hq with inFlight := s.hq.inFlight.map mark } }.complete h stHostReadFailed)

/-! ## Completions (R316, R317, R330) -/

/-- The entry of R316. -/
def complEntry (c : Compl) (phase : Nat) : List Byte :=
  bytesLE 8 c.result ++ bytesLE 4 c.detail ++ bytesLE 2 (idBits c.hdr.tag c.hdr.epoch + 2 ^ 15 * phase) ++ bytesLE 1 c.status ++
    bytesLE 1 (c.hdr.q.1 + 16 * b2n c.intake)

/-- Whether a completion queue has no room. -/
def State.cqFull (s : State) (q : Fin 16) : Bool :=
  (s.rd (F.HQ_CQ_TAIL_TAIL q) + 1) % max 1 (s.cqSize q) == s.hq.queues[q].cqHead

/-- A completion leaves the list of those that wait, and unless it refused an intake its command leaves flight. -/
def State.settle (s : State) (c : Compl) : State :=
  let gone := fun f : InFlight => !(!c.intake && sameHdr f.hdr c.hdr)
  { s with hq := { s.hq with compls := s.hq.compls.erase c, inFlight := s.hq.inFlight.filter gone } }

/-- One more unsignalled entry; the vector becomes pending when they reach COUNT (R330). -/
def State.countEntry (s : State) (q : Fin 16) : State :=
  let n := s.hq.queues[q].unsignalled + 1
  let s := s.modQueue q fun k => { k with unsignalled := n }
  if max 1 (s.rd (F.HQ_CQ_CFG_COUNT q)) ≤ n then s.signal q.1 else s

/-- COMPLETION_WRITE (R316, R317, R307): the oldest completion of a queue is written, waits for room, or is dropped as
stale. -/
def execCompletionWrite (q : Fin 16) (ok : Bool) (s : State) : Host.Outcome State Fault Refusal :=
  match s.hq.compls.find? fun c => c.hdr.q == q with
  | none => .next s
  | some c =>
    if s.hq.d3 || s.epReset then .next s
    else if s.on (F.HQ_CQ_CFG_EN q) = false ∨ (!c.intake && s.tagEpoch c.hdr.tag != some c.hdr.epoch) then
      .next (((s.settle c).incSat F.HQ_STALE_CNT_COUNT).event Ev.hq 0)
    else if s.hq.queues[q].hold ∨ s.cqFull q then .next s
    else if ok = false then .next ((s.modQueue q fun k => { k with hold := true }).queueError q 3)
    else
      let tail := s.rd (F.HQ_CQ_TAIL_TAIL q)
      let phase := s.rd (F.HQ_CQ_TAIL_PHASE q)
      let base := s.rdP (F.HQ_CQ_BASE_LO_ADDR q)
      let s := { s with host := Mem.puts s.host (base + 16 * tail) (complEntry c phase) }
      let next := (tail + 1) % max 1 (s.cqSize q)
      let s := s.wrs [(F.HQ_CQ_TAIL_TAIL q, next), (F.HQ_CQ_TAIL_PHASE q, if next = 0 then 1 - phase else phase)]
      .next ((s.settle c).countEntry q)

/-- CQ_HEAD_DOORBELL (R316, R314). -/
def State.cqHead (s : State) (q : Fin 16) (head : Nat) : State :=
  let s := s.modQueue q fun k => { k with hold := false }
  if s.on (F.HQ_CQ_CFG_EN q) ∧ head < s.cqSize q then s.modQueue q fun k => { k with cqHead := head } else s

def execCqHeadDoorbell (q : Fin 16) (head : Nat) (s : State) : Host.Outcome State Fault Refusal :=
  .next (s.cqHead q (head % 4096)).retire

/-- COALESCING_TIMER_EXPIRY (R330). [log 5: DESIGN CHOICE] -/
def execCoalescingTimerExpiry (q : Fin 16) (s : State) : Host.Outcome State Fault Refusal :=
  if s.rd (F.HQ_CQ_TIME_US q) = 0 ∨ s.hq.queues[q].unsignalled = 0 then .next s
  else .next (s.signal q.1)

/-- Commands of a queue in flight. -/
def State.queueBusy (s : State) (q : Fin 16) : Bool := s.hq.inFlight.any fun f => f.hdr.q == q

/-- A write of HQ_SQ_CFG (R311, R314). -/
def State.sqCfg (s : State) (q : Fin 16) (w : Nat) : State :=
  let en := bitOf w 16
  if s.on (F.HQ_SQ_CFG_EN q) then (if en then s else s.wr (F.HQ_SQ_CFG_EN q) 0)
  else if en ∧ s.on (F.HQ_CQ_CFG_EN q) = false then s.wr (F.HQ_Q_STAT_CFG_BUSY q) 1
  else
    let s := s.wr (F.HQ_SQ_CFG_SIZE q) (min 4096 (max 2 (fieldOf w 0 13)))
    if en then
      (s.modQueue q fun k => { k with sqTail := 0, stopped := false, hold := false }).wrs [(F.HQ_SQ_CFG_EN q, 1), (F.HQ_SQ_HEAD_HEAD q, 0)]
    else s

/-- A write of HQ_CQ_CFG (R311). -/
def State.cqCfg (s : State) (q : Fin 16) (w : Nat) : State :=
  let en := bitOf w 16
  if s.on (F.HQ_CQ_CFG_EN q) then
    if en then s.wr (F.HQ_CQ_CFG_COUNT q) (fieldOf w 24 8)
    else if s.on (F.HQ_SQ_CFG_EN q) ∨ s.queueBusy q then s.wr (F.HQ_Q_STAT_CFG_BUSY q) 1
    else s.wrs [(F.HQ_CQ_CFG_EN q, 0), (F.HQ_CQ_CFG_COUNT q, fieldOf w 24 8)]
  else
    let s := s.wrs [(F.HQ_CQ_CFG_SIZE q, min 4096 (max 2 (fieldOf w 0 13))), (F.HQ_CQ_CFG_COUNT q, fieldOf w 24 8)]
    if en then
      (s.modQueue q fun k => { k with cqHead := 0, unsignalled := 0 }).wrs
        [(F.HQ_CQ_CFG_EN q, 1), (F.HQ_CQ_TAIL_TAIL q, 0), (F.HQ_CQ_TAIL_PHASE q, 1)]
    else s

/-- QUEUE_CFG_WRITE (R311). -/
def execQueueCfgWrite (req : Req) (q : Fin 16) (cq : Bool) (w : Word) (s : State) : Host.Outcome State Fault Refusal :=
  .next (s.regWrite req (if cq then F.HQ_CQ_CFG_SIZE q else F.HQ_SQ_CFG_SIZE q).addr w fun s => if cq then s.cqCfg q w.toNat else s.sqCfg q w.toNat)

/-! ## Power states and function level reset (R307) -/

/-- POWER_STATE_CHANGE (R307): messages held in D3hot are sent after the return to D0. -/
def execPowerStateChange (d3hot : Bool) (s : State) : Host.Outcome State Fault Refusal :=
  .next { s with hq := { s.hq with d3 := d3hot } }.sendPending

/-- The registers of the queue pairs and the MSI-X table at their reset values. -/
def State.resetQueueRegs (s : State) : State :=
  let keep := fun c : Nat × Word => !((decide (0xC1000 ≤ c.1) && decide (c.1 < 0xC1400)) || (decide (0xC4000 ≤ c.1) && decide (c.1 < 0xC6000)))
  { s with regs := { s.regs with hq := s.regs.hq.filter keep } }

/-- What a function level reset resets (R307). [log 38: DESIGN CHOICE] -/
def State.flr (s : State) : State :=
  let s := s.resetQueueRegs
  let s := { s with hq := { s.hq with queues := Vector.replicate 16 {}, tags := [], pwf := [], vecPending := 0 } }
  s.wrs [(F.HQ_SDRAM_PAGE_PAGE, 0), (F.HQ_WSEQ_COUNT, 0), (F.HQ_PWF_CNT_COUNT, 0), (F.HQ_PWF_CNT_LOST, 0)]

/-- FUNCTION_LEVEL_RESET (R307). [log 38: DESIGN CHOICE] -/
def execFunctionLevelReset (s : State) : Host.Outcome State Fault Refusal := .next s.flr

/-! ## Posted-write faults (R327, R328) -/

/-- HQ_WSEQ_READ (R328): every write received before has retired, since writes take effect one at a time. -/
def execHqWseqRead (s : State) : Host.Outcome State Fault Refusal := .next (s.answerWith [s.rd F.HQ_WSEQ_COUNT])

/-- HQ_PWF_POP (R327): removes the oldest record. -/
def execHqPwfPop (s : State) : Host.Outcome State Fault Refusal :=
  .next { s with hq := { s.hq with pwf := s.hq.pwf.drop 1 } }.retire

/-- A posted-write fault of a window access: byte enables and length as the access spells them (R327). -/
def State.winFault (s : State) (reason win reqId off len first page : Nat) : State :=
  let lo := off % 4
  let dws := (lo + len + 3) / 4
  let firstBe := if dws = 1 then 2 ^ (lo + len) - 2 ^ lo else 16 - 2 ^ lo
  let rest := (lo + len) % 4
  let lastBe := if dws = 1 then 0 else if rest = 0 then 15 else 2 ^ rest - 1
  s.pwFault { reason := reason, win := win, firstBe := firstBe, lastBe := lastBe, len := dws % 1024, off := first, reqId := reqId, page := page, stamp := 0 }

/-! ## The Canopy window (R127, R309, R511) -/

/-- The pages of the staging area: the first 1 MiB of the control region (R41). [log 14: DESIGN CHOICE] -/
def State.stagingPages (s : State) : List Nat := (runPages (s.regionRuns 1)).take 16

/-- The stream whose ring holds a page. -/
def State.ringOf (s : State) (page : Nat) : Option (Fin 32) :=
  (allFin 32).find? fun t => (s.streams[t].ring).any fun p => p.pages.contains page

/-- Whether a byte of a ring may be written: its slot holds no granule from K to P − 1. [log 157: DESIGN CHOICE] -/
def State.ringCredit (s : State) (t : Fin 32) (addr : Nat) : Bool :=
  match s.streams[t].ring with
  | none => false
  | some p =>
    let ring := max 1 (s.rd (F.HQ_STRM_CFG_RING t))
    let slot := (addr - p.base) / max 1 (p.bytes / ring)
    let k := s.streams[t]
    decide (p.base ≤ addr) && decide (addr < p.base + p.bytes) && !((List.range (k.put - k.cons)).any fun i => (k.cons + i) % ring == slot)

/-- HOST_RIGHTS of a page: 0 none, 1 read, 2 read and write. -/
def State.hostRights (s : State) (page : Nat) : Nat :=
  match s.forest.regionOf page with
  | some r => s.rd (F.STR_REGION_HOST_RIGHTS r)
  | none => 0

/-- The reason for which a byte may not be written, or none (R511). [log 157: DESIGN CHOICE] -/
def State.canopyWriteReason (s : State) (addr : Nat) : Option Nat :=
  let page := addr / canopyPage
  if s.rd F.SEC_STATUS_HOST_ROLE = 0 then some 6
  else if s.stagingPages.contains page then some 1
  else match s.ringOf page with
    | some t => if s.ringCredit t addr then none else some 2
    | none => if s.hostRights page = 2 then none else some 1

/-- Whether a byte may be read. -/
def State.canopyReadable (s : State) (addr : Nat) : Bool :=
  let page := addr / canopyPage
  s.rd F.SEC_STATUS_HOST_ROLE != 0 && !s.stagingPages.contains page && (s.ringOf page).isNone &&
    (s.secOpt 3 || !(s.forest.traces.any fun p => p.2.pages.contains page)) && !s.forest.released.contains page &&
    decide (1 ≤ s.hostRights page)

/-- CANOPY_WINDOW_WRITE (R511): byte by byte, the bytes without right are dropped and recorded as one fault. -/
def execCanopyWindowWrite (reqId off : Nat) (data : List Byte) (poisoned : Bool) (s : State) : Host.Outcome State Fault Refusal :=
  if poisoned then
    .next ({ s with hq := { s.hq with aer := s.hq.aer ||| 2 } }.winFault 5 1 reqId off data.length off 0)
  else
    let judged := data.zipIdx.map fun b => (off + b.2, b.1, s.canopyWriteReason (off + b.2))
    let good := judged.filter fun b => b.2.2.isNone
    let s := { s with canopy := good.foldl (fun (m : Mem) (b : Nat × Byte × Option Nat) => Mem.put m b.1 b.2.1) s.canopy }
    match judged.find? fun b => b.2.2.isSome with
    | some (a, _, r) =>
      let s := s.winFault (r.getD 1) 1 reqId off data.length a 0
      .next (match r, s.ringOf (a / canopyPage) with
        | some 2, some t => s.event (Ev.strm t) 2
        | _, _ => s)
    | none => .next s.retire

/-- CANOPY_WINDOW_READ (R511): bytes without right read as zero and the read is counted. -/
def execCanopyWindowRead (off len : Nat) (s : State) : Host.Outcome State Fault Refusal :=
  let l := (List.range len).map fun i => if s.canopyReadable (off + i) then (Mem.byte s.canopy (off + i)).toNat else 0
  let denied := (List.range len).any fun i => !s.canopyReadable (off + i)
  .next ((if denied then s.incSat F.HQ_DENIED_RD_COUNT else s).answerWith l)

/-! ## The SDRAM window (R153, R310, R512) -/

/-- The reason for which a byte may not be written, or none (R512). -/
def State.sdramWriteReason (s : State) (addr : Nat) : Option Nat :=
  if s.rd F.SEC_STATUS_HOST_ROLE = 0 then some 6
  else if s.sdramBytes ≤ addr then some 3
  else if addr < s.rd F.FOR_SDRAM_SPLIT_GIB * 2 ^ 30 then some 1 else none

/-- SDRAM_WINDOW_WRITE (R512). -/
def execSdramWindowWrite (reqId off : Nat) (data : List Byte) (poisoned : Bool) (s : State) : Host.Outcome State Fault Refusal :=
  let page := s.rd F.HQ_SDRAM_PAGE_PAGE
  if poisoned then
    .next ({ s with hq := { s.hq with aer := s.hq.aer ||| 2 } }.winFault 5 2 reqId off data.length off page)
  else
    let base := page * 2 ^ 32
    let judged := data.zipIdx.map fun b => (off + b.2, b.1, s.sdramWriteReason (base + off + b.2))
    let good := judged.filter fun b => b.2.2.isNone
    let s := { s with sdram := good.foldl (fun (m : Mem) (b : Nat × Byte × Option Nat) => Mem.put m (base + b.1) b.2.1) s.sdram }
    match judged.find? fun b => b.2.2.isSome with
    | some (a, _, r) => .next (s.winFault (r.getD 1) 2 reqId off data.length a page)
    | none => .next s.retire

/-- SDRAM_WINDOW_READ (R512): zero without a role and beyond the usable capacity, the stored bytes elsewhere. A read without a
role is counted (R309, R446). [log 39: DEDUCED] -/
def execSdramWindowRead (off len : Nat) (s : State) : Host.Outcome State Fault Refusal :=
  let base := s.rd F.HQ_SDRAM_PAGE_PAGE * 2 ^ 32
  let role := s.rd F.SEC_STATUS_HOST_ROLE
  let l := (List.range len).map fun i =>
    if role ≠ 0 ∧ base + off + i < s.sdramBytes then (Mem.byte s.sdram (base + off + i)).toNat else 0
  .next ((if role = 0 then s.incSat F.HQ_DENIED_RD_COUNT else s).answerWith l)

end Sys2Proof.Machine
end

