-- ==== Sys2Proof/Machine/Fabric.lean ====
section
/-! DEFINITION. The rate-grant sequencer and adaptive voltage control (R23 to R31). SEQ_STATE: 0 idle, 1 ramping up, 2
settling or confirming, 3 lowering. -/

namespace Sys2Proof.Machine

/-! ## Operating points (R23) -/

/-- Nominal voltage, largest grant and required ring minimum of a point. -/
def State.oppMv (s : State) (n : Nat) : Nat := s.rd (F.FAB_OPP_VOLT_MV n)
def State.oppGrant (s : State) (n : Nat) : Nat := s.rd (F.FAB_OPP_GRANT_MAX n)
def State.oppMin (s : State) (n : Nat) : Nat := 8 * s.rd (F.FAB_OPP_TPUT_MIN n)

/-- Whether a ring minimum meets a point's lower bound, or lies above its upper bound. -/
def State.meets (s : State) (m n : Nat) : Bool := decide (s.oppMin n * (100 + s.rd F.FAB_MARGIN_MARGIN) ≤ 100 * m)
def State.exceeds (s : State) (m n : Nat) : Bool := decide (s.oppMin n * (100 + 2 * s.rd F.FAB_MARGIN_MARGIN) < 100 * m)

/-- The lowest point whose grant covers a demand. -/
def State.pointFor (s : State) (demand : Nat) : Option Nat := (List.range 8).find? fun n => decide (demand ≤ s.oppGrant n)

/-- The reference point (R24): the return point held, or the confirmed point. -/
def State.refPoint (s : State) : Nat := s.fab.retPoint.getD (s.rd F.FAB_STATUS_OPP)

/-- The voltage of a point, no lower than the return point's (R28, R29). -/
def State.voltOf (s : State) (n : Nat) : Nat :=
  match s.fab.retPoint with
  | some r => max (s.oppMv n) (s.oppMv r)
  | none => s.oppMv n

/-! ## The ceiling (R25, R26) -/

/-- Sets the ceiling to the lowest of its three limits; a change is an event, raised with `bits`, and lets waiting bursts be
judged again. -/
def State.setCeil (s : State) (bits : Nat := 0) : State :=
  let c := min s.fab.capFab (min s.fab.capTherm s.fab.capVin)
  if c = s.rd F.FAB_GRANT_CEIL then s.raise Ev.fab bits
  else ((s.wr F.FAB_GRANT_CEIL c).raise Ev.fab (bits ||| 2 ^ 4)).grantWaiting

/-- Lowers the fabric limit to the highest point the ring minimum meets, if that is lower (R25), with the event bits `fall` of
a ceiling that falls and `bits` in any case. [log 56: DESIGN CHOICE] -/
def State.lowerCeil (s : State) (ring fall bits : Nat) : State :=
  let v := (((List.range 8).filter fun n => s.meets ring n).getLast?.map s.oppGrant).getD 0
  if v < s.rd F.FAB_GRANT_CEIL then ({ s with fab := { s.fab with capFab := v } }).setCeil (fall ||| bits) else s.raise Ev.fab bits

/-- Shows the return point held. [log 56: DESIGN CHOICE] -/
def State.noteReturn (s : State) : State :=
  s.wrs [(F.FAB_STATUS_MARGIN_LOW, b2n s.fab.retPoint.isSome), (F.FAB_STATUS_RET_OPP, s.fab.retPoint.getD 0)]

/-! ## Raising and lowering (R28 to R30) -/

/-- The sequencer is idle: the window counts of R24 start again. -/
def State.fabIdle (s : State) : State :=
  { s with fab := { s.fab with lowWins := 0, goodWins := 0, highWins := 0, okWins := 0, confWins := 0, confirming := false, retried := false } }.wr
    F.FAB_STATUS_SEQ_STATE 0

/-- Ramps towards a point; a ramp of zero length takes no time. -/
def State.rampTo (s : State) (n : Nat) (retried : Bool) : State :=
  let v := s.voltOf n
  let zero := v = s.rd F.FAB_VFAB_SET_MV ∧ s.rd F.FAB_STATUS_SEQ_STATE ≠ 1 ∧ s.rd F.FAB_STATUS_SEQ_STATE ≠ 3
  { s with fab := { s.fab with confirming := false, okWins := 0, confWins := 0, retried := retried } }.wrs
    [(F.FAB_STATUS_OPP_TARGET, n), (F.FAB_VFAB_SET_MV, v), (F.FAB_STATUS_SEQ_STATE, if zero then 2 else 1)]

/-- The first waiting burst if its demand fits under the ceiling beside the reserved demand and the grant does not cover it. -/
def State.wantsRaise (s : State) : Option Burst :=
  match s.waiting with
  | b :: _ =>
    let need := s.reserved + b.ops.demand
    if need ≤ s.rd F.FAB_GRANT_CEIL ∧ s.rd F.FAB_GRANT_GRANT < need then some b else none
  | [] => none

/-- GRANT_RAISE (R28, R29): begins a raise for the burst at the head of the queue, to the lowest point that covers it and the
reserved demand, retargets one in progress to a higher point, or reverses a lowering. -/
def execGrantRaise (s : State) : Host.Outcome State Fault Refusal :=
  match s.wantsRaise with
  | none => .next s
  | some b =>
    match s.pointFor (s.reserved + b.ops.demand) with
    | none => .next s
    | some n =>
      let st := s.rd F.FAB_STATUS_SEQ_STATE
      if st = 0 ∨ st = 3 then .next (s.rampTo n false)
      else if s.rd F.FAB_STATUS_OPP_TARGET < n then .next (s.rampTo n s.fab.retried)
      else .next s

/-- VFAB_RAMP_DONE (R28, R29): a raise settles; a lowering is done. [log 56: DESIGN CHOICE] -/
def execVfabRampDone (s : State) : Host.Outcome State Fault Refusal :=
  let up := s.wr F.FAB_VFAB_VFAB_MV (s.rd F.FAB_VFAB_SET_MV)
  match s.rd F.FAB_STATUS_SEQ_STATE with
  | 1 => .next (up.wr F.FAB_STATUS_SEQ_STATE 2)
  | 3 => .next (((up.wr F.FAB_STATUS_OPP (s.rd F.FAB_STATUS_OPP_TARGET)).fabIdle).event Ev.fab 1)
  | _ => .next s

/-- VFAB_SETTLE_EXPIRY (R28): confirmation begins. [log 5: DESIGN CHOICE] -/
def execVfabSettleExpiry (s : State) : Host.Outcome State Fault Refusal :=
  if s.rd F.FAB_STATUS_SEQ_STATE = 2 ∧ s.fab.confirming = false then
    .next { s with fab := { s.fab with confirming := true, okWins := 0, confWins := 0 } }
  else .next s

/-- The point is confirmed: the grant is raised, and the head burst granted (R28). -/
def State.confirmed (s : State) : State :=
  let n := s.rd F.FAB_STATUS_OPP_TARGET
  let g := max (s.rd F.FAB_GRANT_GRANT) (min (s.oppGrant n) (s.rd F.FAB_GRANT_CEIL))
  (((s.wrs [(F.FAB_STATUS_OPP, n), (F.FAB_GRANT_GRANT, g)]).fabIdle).grantWaiting).event Ev.fab 0

/-- Confirmation has failed (R30): one retry a point higher, or the raise ends and the head burst with it. -/
def State.confirmFailed (s : State) (ring : Nat) : State :=
  let n := s.rd F.FAB_STATUS_OPP_TARGET
  if s.fab.retried = false ∧ n < 7 then s.rampTo (n + 1) true
  else
    let ret := match s.fab.retPoint with
      | some r => max r n
      | none => n
    let s := { s with fab := { s.fab with retPoint := some ret } }.noteReturn
    let s := (s.lowerCeil ring 0 (2 ^ 3)).fabIdle
    match s.waiting with
    | b :: _ => s.endBeforeStart b .grantFailed
    | [] => s

/-- One confirming window (R28): four in a row confirm; after four the confirmation is judged. [log 56: DESIGN CHOICE] -/
def State.confirmWindow (s : State) (ring : Nat) : State :=
  let n := s.rd F.FAB_STATUS_OPP_TARGET
  let ok := s.fab.okWins + b2n (s.meets ring n)
  let c := s.fab.confWins + 1
  if c < 4 then { s with fab := { s.fab with okWins := ok, confWins := c } }
  else if ok = 4 then s.confirmed
  else s.confirmFailed ring

/-! ## Windows (R23 to R25) -/

/-- The ring counts of a window. -/
def State.noteRings (s : State) (counts : List Nat) : State :=
  (List.range 8).foldl (fun s n =>
    let c := counts.getD n 0
    (s.wr (F.FAB_RING_COUNT n) c).wr (F.FAB_RING_MIN_COUNT n) (min (s.rd (F.FAB_RING_MIN_COUNT n)) (min c 65535))) s

/-- A step of the VFAB set point, which the supply follows well inside the next window (R24). -/
def State.stepVfab (s : State) (v : Nat) : State := s.wrs [(F.FAB_VFAB_SET_MV, v), (F.FAB_VFAB_VFAB_MV, v)]

/-- The trim of one idle window (R24). -/
def State.trim (s : State) (ring : Nat) : State :=
  let n := s.refPoint
  let nom := s.oppMv n
  let v := s.rd F.FAB_VFAB_SET_MV
  if s.on F.FAB_CTRL_AVC_EN then
    if s.meets ring n = false then
      { s with fab := { s.fab with highWins := 0 } }.stepVfab (max v (min (v + 5) (min 900 (nom + 50))))
    else if s.exceeds ring n then
      if 50 ≤ s.fab.highWins + 1 then
        { s with fab := { s.fab with highWins := 0 } }.stepVfab (min v (max (v - 5) (max 550 (nom - 30))))
      else { s with fab := { s.fab with highWins := s.fab.highWins + 1 } }
    else { s with fab := { s.fab with highWins := 0 } }
  else s.stepVfab nom

/-- The margin condition and the return of the ceiling in one idle window (R25). -/
def State.margin (s : State) (ring : Nat) : State :=
  let n := s.refPoint
  let v := s.rd F.FAB_VFAB_SET_MV
  let top := if s.on F.FAB_CTRL_AVC_EN then decide (min 900 (s.oppMv n + 50) ≤ v) else v == s.oppMv n
  let low := if s.meets ring n = false ∧ top then s.fab.lowWins + 1 else 0
  if 8 ≤ low then
    { s with fab := { s.fab with lowWins := 0, goodWins := 0, retPoint := some n } }.noteReturn.lowerCeil ring (2 ^ 2) 0
  else
    let s := { s with fab := { s.fab with lowWins := low } }
    match s.fab.retPoint with
    | none => s
    | some r =>
      let good := if s.meets ring r then s.fab.goodWins + 1 else 0
      if 50 ≤ good then
        ({ s with fab := { s.fab with goodWins := 0, retPoint := none, capFab := 2000 } }.noteReturn).setCeil
      else { s with fab := { s.fab with goodWins := good } }

/-- PACE_RING_WINDOW (R23 to R25, R28): the eight counts of a window; while the sequencer is idle the window trims VFAB and
judges the margin, while it confirms it counts towards confirmation. -/
def execPaceRingWindow (counts : List Nat) (s : State) : Host.Outcome State Fault Refusal :=
  let ring := (counts.take 8).foldl min (counts.headD 0)
  let s := s.noteRings counts
  if counts.length ≠ 8 then .next s
  else if s.rd F.FAB_STATUS_SEQ_STATE = 0 then .next ((s.margin ring).trim ring)
  else if s.rd F.FAB_STATUS_SEQ_STATE = 2 ∧ s.fab.confirming then .next (s.confirmWindow ring)
  else .next s

/-- FAB_HOLDOFF_EXPIRY (R29): the grant is lowered first, then VFAB ramps down to the lowest point that covers the reserved
demand. [log 5: DESIGN CHOICE] -/
def execFabHoldoffExpiry (s : State) : Host.Outcome State Fault Refusal :=
  match s.pointFor s.reserved with
  | none => .next s
  | some n =>
    if s.rd F.FAB_STATUS_SEQ_STATE = 0 ∧ n < s.rd F.FAB_STATUS_OPP then
      let g := max s.reserved (min (s.oppGrant n) (s.rd F.FAB_GRANT_CEIL))
      let v := s.voltOf n
      let zero := v = s.rd F.FAB_VFAB_SET_MV
      let s := s.wrs [(F.FAB_GRANT_GRANT, min g (s.rd F.FAB_GRANT_GRANT)), (F.FAB_STATUS_OPP_TARGET, n), (F.FAB_VFAB_SET_MV, v)]
      if zero then .next (((s.wr F.FAB_STATUS_OPP n).fabIdle).event Ev.fab 1) else .next (s.wr F.FAB_STATUS_SEQ_STATE 3)
    else .next s

end Sys2Proof.Machine
end

