-- ==== Sys2Proof/Machine/Power.lean ====
section
/-! DEFINITION. House supplies, thermal limits and standby (R392 to R405), the residual-voltage watch (R280), and module
reset. -/

namespace Sys2Proof.Machine

/-! ## Module reset -/

/-- The registers of a block that a filter keeps; the others take their reset values. [log 66: DEDUCED] -/
def keepRegs (keep : Nat → Bool) (f : RegFile) : RegFile := f.filter fun e => keep e.1

/-- The Understory's and the fuses' part of the security state, which module reset leaves (R405, R445, R462). [log 66: DEDUCED] -/
def Sec.afterReset (k : Sec) : Sec :=
  { keys := k.keys, names := k.names, ownerHash := k.ownerHash, arbFuse := k.arbFuse, owner := k.owner, so := k.so, operators := k.operators
    imageKeys := k.imageKeys, plugins := k.plugins, transport := k.transport, calKey := k.calKey, drawn := k.drawn
    pairs := k.pairs }

/-- The security registers the Understory holds: policy, slot map, tamper status and tick, anti-rollback counters. [log 66: DEDUCED] -/
def secKept (a : Nat) : Bool :=
  a == 0xE8004 || a == 0xE8080 || a == 0xE8084 || a == 0xE80A0 || a == 0xE80A4 || (decide (0xE80C0 ≤ a) && decide (a < 0xE80D0))

/-- Module reset: everything of the main die takes its reset value. The keeper domain (the PWR block, temperature, a
Firebreak in progress), the Understory, the fuses, flash and host memory stay as they were; the clearing state ends, and the
empty structure is in force: nominal rails, floor classes (R42, R373, R403, R405, R429, R445, R481). [log 66: DEDUCED] -/
def State.mainReset (s : State) (keepSb : Bool := false) : State :=
  let going := s.rd F.FLT_STATUS_STATE = 2
  let life := if s.sec.owner.isSome then 2 else 1
  let sb := s.rd F.SEC_STATUS_SB_ROLE
  let flt : Flt := if going then s.flt else { active := s.flt.active, records := s.flt.records, recSeq := s.flt.recSeq, resetLow := s.flt.resetLow }
  let regs : Regs :=
    { State.reset.regs with
      pwr := s.regs.pwr, flt := if going then s.regs.flt else keepRegs (fun a => decide (0xF8320 ≤ a) && decide (a < 0xF8340)) s.regs.flt
      sec := keepRegs secKept s.regs.sec, cmp := keepRegs (fun a => decide (0xA1000 ≤ a) && decide (a < 0xA1080)) s.regs.cmp }
  let fab : Fab := { capTherm := s.fab.capTherm, capVin := s.fab.capVin }
  let boot : Boot := { timerReset := s.boot.timerReset }
  let tampered := s.rd F.SEC_STATUS_TAMPERED
  let conf := s.rd F.SEC_STATUS_CONF_IMAGES
  let n : State :=
    { State.reset with
      regs := regs, flash := s.flash, host := s.host, fab := fab, flt := flt, sec := s.sec.afterReset, power := s.power
      boot := boot, freeCtr := s.freeCtr, pending := s.pending }
  let nominal := [1, 2, 3, 4, 5].flatMap fun r => [F.PWR_RAIL_SET_MV r, F.PWR_RAIL_LIM_OV_PCT r, F.PWR_RAIL_LIM_UV_PCT r]
  let n := n.wrs ((nominal ++ (List.range 64).map F.FLT_CLASS_CLASS).map fun f => (f, State.reset.rd f))
  n.wrs [(F.SEC_STATUS_LIFECYCLE, life), (F.SEC_STATUS_TAMPERED, tampered), (F.SEC_STATUS_CONF_IMAGES, conf),
    (F.SEC_STATUS_SB_ROLE, if keepSb then sb else 0), (F.FAB_GRANT_CEIL, min s.fab.capTherm s.fab.capVin)]

/-- RESET_L (R403): low holds the main die in reset and HEARTBEAT low; when it rises the die leaves reset. -/
def execResetL (level : Bool) (s : State) : Host.Outcome State Fault Refusal :=
  if level = !s.flt.resetLow then .next s
  else
    let s := s.mainReset
    .next { s with flt := { s.flt with resetLow := !level, heartbeat := false } }.noteHeartbeat

/-! ## VIN and the input-current cap (R392 to R394) -/

/-- Lower edges of the bands of R393 in mV, and their caps. -/
def bandEdges : List Nat := [6000, 5500, 5000, 4500, 4300]
def bandCaps : List Nat := [2000, 1750, 1500, 1250, 1000]

/-- Goes to a band: its cap is a limit of the ceiling. [log 58: DEDUCED] -/
def State.setBand (s : State) (k : Nat) : State :=
  let cap := bandCaps.getD k 1000
  if s.rd F.PWR_STATUS_VIN_BAND = k then s
  else
    let s := (s.wrs [(F.PWR_STATUS_VIN_BAND, k), (F.PWR_CAP_VIN_CAP, cap)]).event Ev.pwr 6
    { s with fab := { s.fab with capVin := cap } }.setCeil

/-- The Understory loses its content when both its supplies are absent (R405): keys, retained records, ledger copy, watch,
tick. -/
def State.understoryLost (s : State) : State :=
  if s.power.present || s.power.vstby then s
  else
    let k := s.sec
    let s := { s with
      sec := { ownerHash := k.ownerHash, arbFuse := k.arbFuse, mr := k.mr, drawn := k.drawn, pairs := k.pairs }
      power := { s.power with kept := {}, lost := true }
      flt := { s.flt with records := [], recSeq := 0 } }
    let z := s.wrs ([(F.CMP_RESID_CFG_EN, 0), (F.CMP_RESID_STAT_SEEN, 0), (F.SEC_STATUS_LIFECYCLE, 1), (F.SEC_STATUS_CONF_IMAGES, 0),
      (F.SEC_POLICY_PERMIT, 0), (F.SEC_SLOT_MAP_LOADED 0, 0), (F.SEC_SLOT_MAP_LOADED 1, 0), (F.SEC_STATUS_TAMPERED, 0),
      (⟨.sec, 0xE80A0, 0, 5⟩, 0), (F.SEC_TAMPER_TICK_TICK, 0), (F.SEC_ARB_COUNT 0, 0), (F.SEC_ARB_COUNT 1, 0), (F.SEC_ARB_COUNT 2, 0)] ++
      (List.range 16).map fun d => (F.CMP_RESID_TICK_TICK d, 0))
    z.wrP F.PWR_US_TICK_LO_TICK 0

/-- The house regulators switch off together (R404): the main die is off, and a later start is a cold one. -/
def State.houseOff (s : State) : State :=
  let s := (s.mainReset).wr F.PWR_STATUS_RAIL_GOOD 0
  { s with power := { s.power with house := false, cold := true, holding := 0 } }

/-- VIN is gone: the keeper domain stops, and starts afresh when VIN returns; what the Understory holds stays while VSTBY
feeds it (R392, R405). -/
def State.vinLost (s : State) : State :=
  let p := s.power
  let s := s.houseOff
  let s := { s with
    regs := { s.regs with flt := [], pwr := keepRegs (fun a => a == 0xF01E0 || a == 0xF01E4) s.regs.pwr }, fab := {}
    flt := { records := s.flt.records, recSeq := s.flt.recSeq, resetLow := s.flt.resetLow }
    power := { present := false, vstby := p.vstby, lost := p.lost, house := false, cold := true, kept := p.kept, stored := p.stored, running := p.running } }
  s.understoryLost

/-- VIN_SAMPLE (R392, R393, R397): VIN and the input current are measured; the cap falls with the mean at once; below 3.0 V
the keeper domain stops. [log 58: DEDUCED; log 59: DEDUCED] -/
def execVinSample (mv ma : Nat) (s : State) : Host.Outcome State Fault Refusal :=
  let l := (mv :: s.power.vin).take 100
  let mean := l.sum / l.length
  let run := fun (k : Nat) (n : Nat) => if bandEdges.getD k 0 + 100 ≤ mean then n + 1 else 0
  let rise := Vector.ofFn fun k : Fin 5 => run k.1 s.power.rise[k]
  let was := s.power.present
  let s := { s with power := { s.power with vin := l, rise := rise, present := decide (3000 ≤ mv) } }
  let p := mean * ma / 10000
  let s := s.wrs [(F.PWR_VIN_VIN_MV, mean), (F.PWR_VIN_IIN_MA, ma), (F.PWR_STATUS_INLIMIT, b2n (decide (13000 ≤ ma))), (F.PWR_POWER_P_IN, p),
    (F.PWR_POWER_P_PEAK, max p (s.rd F.PWR_POWER_P_PEAK))]
  if mv < 3000 then .next (if was then s.vinLost else s)
  else
    let k := (bandEdges.findIdx? fun e => decide (e ≤ mean)).getD 4
    .next (if s.rd F.PWR_STATUS_VIN_BAND < k then s.setBand k else s)

/-- VIN_CAP_RISE (R393): after 1 ms at least 100 mV above the lower edge of a higher band, the cap of the highest such
band. [log 58: DEDUCED] -/
def execVinCapRise (s : State) : Host.Outcome State Fault Refusal :=
  match (List.range (s.rd F.PWR_STATUS_VIN_BAND)).find? fun k => decide (1000 ≤ s.power.rise[fin 5 k]) with
  | some k => .next (s.setBand k)
  | none => .next s

/-- VIN_UNDERVOLTAGE (R392, R404): the Firebreak starts from the keeper domain. -/
def execVinUndervoltage (s : State) : Host.Outcome State Fault Refusal :=
  .next (if s.power.present then s.firebreak 2 0xFF false false else s)

/-- VIN_OVERVOLTAGE (R392, R404): the Firebreak starts from the keeper domain. -/
def execVinOvervoltage (s : State) : Host.Outcome State Fault Refusal :=
  .next (if s.power.present then s.firebreak 3 0xFF false false else s)

/-- INPUT_LIMIT_EXPIRY (R394): event, counter, fault source, and a stop of every running burst. -/
def execInputLimitExpiry (s : State) : Host.Outcome State Fault Refusal :=
  let s := ((s.wr F.PWR_STATUS_INLIMIT 1).incSat F.PWR_ILIM_CNT_COUNT).event Ev.pwr 7
  let s := s.faultOnce 8 none
  .next ((s.bursts.filter fun b => decide (b.stage = .running)).foldl (fun s b => s.cutBurst b false none) s)

/-! ## House regulators (R395, R396) -/

/-- RAIL_OUT_OF_RANGE (R396): counter, event, fault source. -/
def execRailOutOfRange (r : Fin 7) (s : State) : Host.Outcome State Fault Refusal :=
  let s := (s.wr F.PWR_STATUS_RAIL_GOOD (without (s.rd F.PWR_STATUS_RAIL_GOOD) (2 ^ r.1))).incSat (F.PWR_RAIL_LIM_OUT_CNT r)
  .next ((s.event Ev.pwr 8).faultOnce 6 none)

/-- REGULATOR_UPDATE_LOST (R396): the regulator holds its last current command; VKEEP's linear regulator takes none. -/
def execRegulatorUpdateLost (r : Fin 7) (s : State) : Host.Outcome State Fault Refusal :=
  .next (if r.1 = 6 then s else { s with power := { s.power with holding := s.power.holding ||| 2 ^ r.1 } })

/-! ## Junction temperature (R398 to R400) -/

/-- Thresholds of R399 in 1/16 °C. -/
def thresholdOf (k : Nat) : Int := [1520, 1680, 1840].getD k 1840

/-- A sensor's median in 1/16 °C: the mean of the fourth and fifth smallest of its latest 8 readings (R398). -/
def Sensor.median (k : Sensor) : Int :=
  let l := sortBy (fun a b : Int => decide (a < b)) k.hist
  l.getD 3 0 + l.getD 4 0

/-- A sensor after a reading. [log 60: DEDUCED] -/
def Sensor.read (k : Sensor) (x : Int) : Sensor :=
  { hist := if k.hist.isEmpty then List.replicate 8 x else (x :: k.hist).take 8
    bad := if x < -320 ∨ 1200 < x then 8 else k.bad - 1 }

/-- One sensor's reading, with its event and fault source when it becomes invalid. [log 60: DEDUCED] -/
def State.readSensor (s : State) (k : Fin 16) (x : Int) : State :=
  let old := s.power.sensors[k]
  let n := old.read x
  let s := { s with power := { s.power with sensors := s.power.sensors.set k.1 n } }
  let s := s.wrs [(F.PWR_TSENS_MEDIAN k, zx 16 n.median), (F.PWR_TSENS_LAST k, zx 15 x), (F.PWR_TSENS_INVALID k, b2n (n.bad != 0))]
  if old.bad = 0 ∧ n.bad ≠ 0 then (s.event Ev.pwr 9).faultOnce 7 none else s

/-- The decision temperature and its sensor: the largest median of the valid sensors, 115.0 °C with fewer than 8 (R398). -/
def Power.decision (p : Power) : Int × Nat :=
  let valid := (allFin 16).filter fun k => p.sensors[k].bad == 0
  if valid.length < 8 then (1840, 0)
  else valid.foldl (fun (m : Int × Nat) k => if m.1 < p.sensors[k].median then (p.sensors[k].median, k.1) else m)
    ((valid.head?.map fun k => (p.sensors[k].median, k.1)).getD (0, 0))

/-- Sets the wear events that HOT_S has reached (R402): 80 % and 100 % of 72 000 000 s in units of 125 µs. -/
def State.wearEvents (s : State) (before : Nat) : State :=
  let hot := s.rdP F.PWR_WEAR_HOT_LO_US
  let passed := fun limit : Nat => b2n (decide (before < limit ∧ limit ≤ hot))
  s.raise Ev.pwr (2 ^ 10 * passed 460800000000 + 2 ^ 11 * passed 576000000000)

/-- One update of the wear ledger (R402). -/
def State.wear (s : State) (t : Int) : State :=
  let hot := s.rdP F.PWR_WEAR_HOT_LO_US
  let s := if 1520 ≤ t then s.wrP F.PWR_WEAR_HOT_LO_US (hot + 1) else s
  let s := if 1680 ≤ t then s.wrP F.PWR_WEAR_LIM_LO_US (s.rdP F.PWR_WEAR_LIM_LO_US + 1) else s
  let s := if s.rdS F.PWR_WEAR_PEAK_TEMP < t then s.wr F.PWR_WEAR_PEAK_TEMP (zx 16 t) else s
  let n := s.power.running + b2n s.power.house
  let s := if 28800000 ≤ n then s.incSat F.PWR_WEAR_POH_HOURS else s
  ({ s with power := { s.power with running := n % 28800000 } }).wearEvents hot

/-- TEMPERATURE_UPDATE (R398, R399, R402): sixteen readings in 1/8 °C give the decision temperature, the dwells and the
wear counts, and the drift of timing and of every interpolator (R174, R235). -/
def execTemperatureUpdate (readings : List Int) (s : State) : Host.Outcome State Fault Refusal :=
  let s := (allFin 16).foldl (fun s k => s.readSensor k (readings.getD k.1 0)) s
  let (t, who) := s.power.decision
  let n := ((allFin 16).filter fun k => s.power.sensors[k].bad == 0).length
  let s := s.wrs [(F.PWR_TDEC_TEMP, zx 16 t), (F.PWR_TDEC_SENSOR, who), (F.PWR_STATUS_VALID_SENS, n)]
  let above := Vector.ofFn fun k : Fin 3 => if thresholdOf k.1 ≤ t then s.power.above[k] + 1 else 0
  let below := Vector.ofFn fun k : Fin 3 => if t ≤ thresholdOf k.1 - 48 then s.power.below[k] + 1 else 0
  let drift := Vector.ofFn fun k : Fin 36 => if s.tempOff k.1 then s.power.drift[k] + 1 else 0
  .next (({ s with power := { s.power with above := above, below := below, drift := drift } }.wear t).timingDrift t)

/-- Updates that span the 20 ms dwell of R399, the first and the last included. [log 61: DEDUCED] -/
def dwell : Nat := 161

/-- The thermal state: the highest threshold whose flag is set. [log 61: DEDUCED] -/
def State.noteTherm (s : State) : State :=
  let f := s.power.flags
  s.wr F.PWR_STATUS_THERM (if f[2] then 3 else if f[1] then 2 else if f[0] then 1 else 0)

/-- The thermal cap is 0 while the state is LIMIT or above (R400). -/
def State.thermCap (s : State) : State :=
  let cap := if 2 ≤ s.rd F.PWR_STATUS_THERM then 0 else 2000
  { s.wr F.PWR_CAP_THERM_CAP cap with fab := { s.fab with capTherm := cap } }.setCeil

/-- Entering LIMIT (R400): bursts that wait for a grant end before cycle 0, the timer starts, the cores hear of it. -/
def State.enterLimit (s : State) : State :=
  let s := s.waiting.foldl (fun s b => s.endBeforeStart b .abortedBeforeStart) s
  (if s.power.flags[2] then s else s.wr F.PWR_STATUS_LIMIT_TIMER 1).nmiAll 3

/-- THERMAL_FLAG_SET (R399, R400): a threshold's flag sets after its dwell, with its event and action. [log 61: DEDUCED] -/
def execThermalFlagSet (k : Fin 3) (s : State) : Host.Outcome State Fault Refusal :=
  if s.power.flags[k] || decide (s.power.above[k] < dwell) then .next s
  else
    let s := ({ s with power := { s.power with flags := s.power.flags.set k.1 true } }.noteTherm).event Ev.pwr (2 * k.1)
    let s := s.thermCap
    .next (match k.1 with
      | 0 => s
      | 1 => s.enterLimit
      | _ => ((s.wr F.PWR_STATUS_LIMIT_TIMER 0).incSat F.PWR_WEAR_CRIT_COUNT).dualRaise 2)

/-- THERMAL_FLAG_CLEAR (R399, R400): a flag clears after its dwell at 3 °C below; with LIMIT the timer is cancelled and the
thermal cap returns. [log 61: DEDUCED; log 62: DEDUCED] -/
def execThermalFlagClear (k : Fin 3) (s : State) : Host.Outcome State Fault Refusal :=
  if !s.power.flags[k] || decide (s.power.below[k] < dwell) then .next s
  else
    let s := { s with power := { s.power with flags := s.power.flags.set k.1 false } }.noteTherm
    let s := if k.1 = 2 then s.dualOff 2 else s.event Ev.pwr (2 * k.1 + 1)
    .next (if k.1 = 1 then (s.wr F.PWR_STATUS_LIMIT_TIMER 0).thermCap else s.thermCap)

/-- LIMIT_TIMER_EXPIRY (R400): a stop of every burst that has not entered Ended. [log 5: DESIGN CHOICE; log 63: DEDUCED] -/
def execLimitTimerExpiry (s : State) : Host.Outcome State Fault Refusal :=
  if s.on F.PWR_STATUS_LIMIT_TIMER then .next (((s.wr F.PWR_STATUS_LIMIT_TIMER 0).event Ev.pwr 5).cutAll false) else .next s

/-! ## The wear ledger (R402) -/

/-- The ledger as the keeper domain has it. [log 65: DESIGN CHOICE] -/
def State.ledger (s : State) : Ledger :=
  { hot := s.rdP F.PWR_WEAR_HOT_LO_US, lim := s.rdP F.PWR_WEAR_LIM_LO_US, crit := s.rd F.PWR_WEAR_CRIT_COUNT
    poh := s.rd F.PWR_WEAR_POH_HOURS, peak := s.rdS F.PWR_WEAR_PEAK_TEMP }

/-- Each field as the larger of two copies. -/
def Ledger.larger (a b : Ledger) : Ledger :=
  { hot := max a.hot b.hot, lim := max a.lim b.lim, crit := max a.crit b.crit, poh := max a.poh b.poh, peak := max a.peak b.peak }

/-- Puts a ledger in force. -/
def State.setLedger (s : State) (l : Ledger) : State :=
  ((s.wrP F.PWR_WEAR_HOT_LO_US l.hot).wrP F.PWR_WEAR_LIM_LO_US l.lim).wrs
    [(F.PWR_WEAR_CRIT_COUNT, l.crit), (F.PWR_WEAR_POH_HOURS, l.poh), (F.PWR_WEAR_PEAK_TEMP, zx 16 l.peak)]

/-- WEAR_LEDGER_COPY (R402): every minute, into Understory retention. -/
def execWearLedgerCopy (s : State) : Host.Outcome State Fault Refusal :=
  .next { s with power := { s.power with kept := s.ledger } }

/-- WEAR_LEDGER_FLASH (R402): every hour, and at a power-down, into the ledger sectors. [log 65: DESIGN CHOICE] -/
def execWearLedgerFlash (s : State) : Host.Outcome State Fault Refusal :=
  .next { s with power := { s.power with stored := s.ledger } }

/-! ## Power-up, power-down, standby (R403 to R405) -/

/-- VIN_RISE (R403): VIN rises through 4.40 V and the house regulators start, VFAB first; the ledger is taken up from its
copies (R402). -/
def execVinRise (s : State) : Host.Outcome State Fault Refusal :=
  if s.power.house || !s.power.present then .next s
  else
    let l := s.power.kept.larger s.power.stored
    .next ((({ s with power := { s.power with house := true, cold := true } }).setLedger l).wearEvents 0)

/-- DSC_EN, DSC_PH and DSC_PL are high impedance until VAUX is good, and the PE pairs until VPEIO is; after a power-down every one
of them is (R403, R404). [log 64: DESIGN CHOICE] -/
def State.dscHighZ (s : State) : Bool := !bitOf (s.rd F.PWR_STATUS_RAIL_GOOD) 5
def State.peHighZ (s : State) : Bool := !bitOf (s.rd F.PWR_STATUS_RAIL_GOOD) 2

/-- The order in which rails come up (R403). -/
def railOrder : List Nat := [0, 5, 4, 3, 2, 1]

/-- RAIL_GOOD (R403): a rail is good; once all are, the main die leaves reset. [log 64: DESIGN CHOICE] -/
def execRailGood (r : Fin 7) (s : State) : Host.Outcome State Fault Refusal :=
  let good := s.rd F.PWR_STATUS_RAIL_GOOD
  let before := railOrder.takeWhile fun k => k != r.1
  if !s.power.house || (r.1 != 6 && !before.all (bitOf good)) then .next s
  else
    let s := s.wr F.PWR_STATUS_RAIL_GOOD (good ||| 2 ^ r.1)
    let s := { s with power := { s.power with holding := without s.power.holding (2 ^ r.1) } }
    if s.power.cold ∧ railOrder.all (bitOf (s.rd F.PWR_STATUS_RAIL_GOOD)) then
      .next { s.mainReset with power := { s.power with cold := false } }
    else .next s

/-- POWER_DOWN (R404): once a Firebreak with a VIN cause has ended, or VIN is below 3.0 V, the house regulators switch off;
the ledger is written to flash. -/
def execPowerDown (s : State) : Host.Outcome State Fault Refusal :=
  let done := (s.flt.cause == 2 || s.flt.cause == 3) && s.rd F.FLT_STATUS_STATE == 3
  if s.power.house ∧ (done ∨ s.power.present = false) then
    let l := s.ledger
    .next { s with power := { s.power with stored := l, kept := l } }.houseOff
  else .next s

/-- UNDERSTORY_TICK (R405): a second of the Understory's own oscillator. -/
def execUnderstoryTick (s : State) : Host.Outcome State Fault Refusal :=
  .next (if s.power.present || s.power.vstby then s.wrP F.PWR_US_TICK_LO_TICK ((s.rdP F.PWR_US_TICK_LO_TICK + 1) % 2 ^ 64) else s)

/-- VSTBY_LOSS (R405): with VIN absent too, the Understory loses its content. -/
def execVstbyLoss (s : State) : Host.Outcome State Fault Refusal :=
  .next { s with power := { s.power with vstby := false } }.understoryLost

/-- VSTBY_RETURN (R405): the Understory is supplied again. -/
def execVstbyReturn (s : State) : Host.Outcome State Fault Refusal :=
  .next { s with power := { s.power with vstby := true } }

/-- RESIDUAL_WATCH_TICK (R280): with the watch enabled and VIN absent, the first sample above the threshold of each DSC sets
its bit and stores the Understory count. -/
def execResidualWatchTick (seen : Nat) (s : State) : Host.Outcome State Fault Refusal :=
  if s.on F.CMP_RESID_CFG_EN ∧ s.power.present = false ∧ s.power.vstby then
    let old := s.rd F.CMP_RESID_STAT_SEEN
    let fresh := (bitsOf seen 16).filter fun d => !bitOf old d
    let now := s.rdP F.PWR_US_TICK_LO_TICK
    .next ((fresh.foldl (fun s d => s.wr (F.CMP_RESID_TICK_TICK d) now) s).wr F.CMP_RESID_STAT_SEEN (old ||| maskOf fresh))
  else .next s

end Sys2Proof.Machine
end

