-- ==== Sys2Proof/Machine/Image.lean ====
section
/-! DEFINITION. The structure image: its format (R43 to R47), what each section may hold (R48 to R59), and its validation in the
order of R60 with the codes of R61. -/

namespace Sys2Proof.Machine

/-- A validation error: the code of R61, and the directory index and byte offset of STR_ERR_DETAIL. -/
structure Flaw where
  code : Nat
  sect : Nat
  off  : Nat
  deriving DecidableEq, Repr

/-- A directory entry (R45). -/
structure DirEnt where
  idx  : Nat
  type : Nat
  flags : Nat
  off  : Nat
  len  : Nat
  crc  : Nat
  deriving DecidableEq, Repr

/-- The sections of an image, decrypted, by TYPE. -/
abbrev Sections := List (Nat × List Byte)

/-- The plain bytes of a section; none where it is absent. -/
def sectionOf (p : Sections) (t : Nat) : List Byte := (p.find? fun x => x.1 == t).elim [] (·.2)

/-- The flaw of the first test of a list that fails. -/
def firstFlaw : List (Bool × Flaw) → Option Flaw
  | [] => none
  | (bad, f) :: r => if bad then some f else firstFlaw r

/-- A number of a byte string is not zero. -/
def nonzero (l : List Byte) (off count : Nat) : Bool := leAt l off count != 0

/-- The offset of the first byte of a range that is not zero. -/
def firstNonzero (l : List Byte) (off count : Nat) : Nat := off + ((l.drop off).take count).findIdx fun b => b != 0

/-! ## Header (R44) -/

/-- The header's fields in their order, then its CRC; `len` bytes were transferred. [log 90: DEDUCED; log 148: DESIGN CHOICE] -/
def headerFlaw (img : List Byte) (len : Nat) : Option Flaw :=
  let n := leAt img 0x10 4
  let secs := leAt img 0x18 2
  let at_ := fun (code off : Nat) => Flaw.mk code 0xF off
  firstFlaw [
    (leAt img 0 4 != 0x49534851, at_ 0x01 0),
    (leAt img 6 2 != 1, at_ 0x02 6),
    (leAt img 8 4 != 0x8128, at_ 0x03 8),
    (leAt img 0xC 1 != 0xA1, at_ 0x03 0xC),
    (nonzero img 0xD 3, at_ 0x10 (firstNonzero img 0xD 3)),
    (decide (2 ^ 20 < n) || n % 16 != 0 || n != len, at_ 0x04 0x10),
    (decide (secs < 11) || decide (14 < secs), at_ 0x06 0x18),
    (nonzero img 0x1A 2, at_ 0x10 (firstNonzero img 0x1A 2)),
    (leAt img 0x1C 4 != 0x80, at_ 0x06 0x1C),
    (nonzero img 0x38 68, at_ 0x10 (firstNonzero img 0x38 68)),
    (crc32 (img.take 0x7C) != leAt img 0x7C 4, at_ 0x05 0x7C)]

/-! ## Directory (R45) -/

/-- The directory's entries. -/
def dirOf (img : List Byte) : List DirEnt :=
  (List.range (leAt img 0x18 2)).map fun i =>
    let o := 0x80 + 16 * i
    ⟨i, leAt img o 2, leAt img (o + 2) 2, leAt img (o + 4) 4, leAt img (o + 8) 4, leAt img (o + 0xC) 4⟩

/-- The section is encrypted. -/
def DirEnt.enc (d : DirEnt) : Bool := bitOf d.flags 0

/-- Plain length of a section: its stored length less IV and tag where it is encrypted (R47). -/
def DirEnt.plain (d : DirEnt) : Nat := if d.enc then d.len - 28 else d.len

/-- Offset of the entry in the image. -/
def DirEnt.at_ (d : DirEnt) : Nat := 0x80 + 16 * d.idx

/-- The section types of R45. -/
def sectionTypes : List Nat := [1, 2, 3, 4, 5, 6, 7, 8, 9, 10, 11, 14, 15]

/-- Whether a plain length is the one the section table gives. -/
def plainOk (type n : Nat) : Bool :=
  match type with
  | 4 => (List.range 9).any fun k => n == 4 + 16 * k
  | 15 => decide (1 ≤ n) && decide (n ≤ 4096)
  | t => n == [0, 128, 32, 96, 0, 80, 192, 36, 192, 64, 256, 16, 0, 0, 144].getD t 0

/-- Two sections share a byte. -/
def DirEnt.overlaps (a b : DirEnt) : Bool := decide (a.off < b.off + b.len) && decide (b.off < a.off + a.len)

/-- The flaw of one entry, given the entries before it. WRAPKEY and NOTE with ENC, and a WRAPKEY that no entry needs, are
directory errors. [log 90: DEDUCED] -/
def entryFlaw (total : Nat) (all before : List DirEnt) (d : DirEnt) : Option Flaw :=
  let f := fun (code o : Nat) => Flaw.mk code d.idx (d.at_ + o)
  firstFlaw [
    (!sectionTypes.contains d.type || (before.any fun b => b.type == d.type), f 0x0E 0),
    (before.any fun b => decide (d.type < b.type), f 0x06 0),
    (d.type == 14 && !(all.any fun b => b.enc), f 0x06 0),
    (decide (2 ≤ d.flags), f 0x10 2),
    (decide (14 ≤ d.type) && d.enc, f 0x06 2),
    (d.off % 16 != 0 || decide (d.off < 0x80 + 16 * all.length) || decide (total - 128 < d.off + d.len) || before.any d.overlaps, f 0x06 4),
    ((d.enc && decide (d.len < 28)) || !plainOk d.type d.plain, f 0x0F 8)]

/-- The directory's first flaw, then a required section that is absent. [log 90: DEDUCED] -/
def dirFlaw (img : List Byte) : Option Flaw :=
  let all := dirOf img
  let one := all.findSome? fun d => entryFlaw (leAt img 0x10 4) all (all.take d.idx) d
  let absent := ((List.range 11).any fun k => !(all.any fun d => d.type == k + 1)) ||
    ((all.any fun d => d.enc) && !(all.any fun d => d.type == 14))
  one <|> (if absent then some ⟨0x0D, 0xF, 0x18⟩ else none)

/-! ## Contents (R48 to R59): offset within the section, and code -/

/-- The violation at the lowest offset. -/
def lowest (l : List (Nat × Nat)) : Option (Nat × Nat) :=
  (sortBy (fun a b => decide (a.1 < b.1)) l).head?

/-- A violation at an offset if a test holds. -/
def bad (test : Bool) (off code : Nat) : List (Nat × Nat) := if test then [(off, code)] else []

/-- A byte or a number of a section. -/
def byteAt (l : List Byte) (off : Nat) : Nat := leAt l off 1

def groveBad (l : List Byte) : List (Nat × Nat) :=
  (List.range 32).flatMap fun g =>
    let a := byteAt l (4 * g)
    let b := byteAt l (4 * g + 1)
    bad (a / 16 != 0) (4 * g) 0x10 ++ bad (a % 2 == 0 && a % 16 != 0) (4 * g) 0x11 ++ bad (b / 4 != 0) (4 * g + 1) 0x10 ++
      bad (a % 2 == 0 && b % 4 != 0) (4 * g + 1) 0x11 ++ bad (byteAt l (4 * g + 2) != 0) (4 * g + 2) 0x10 ++
      bad (byteAt l (4 * g + 3) != 0) (4 * g + 3) 0x10

def coppiceBad (l : List Byte) : List (Nat × Nat) :=
  (List.range 32).flatMap fun k => bad (decide (32 ≤ byteAt l k) && byteAt l k != 0xFF) k 0x11

def threadBad (l : List Byte) : List (Nat × Nat) :=
  (List.range 32).flatMap fun t =>
    bad (decide (1 < byteAt l (2 * t))) (2 * t) 0x12 ++ bad (byteAt l (2 * t) == 1 && decide (31 < byteAt l (2 * t + 1))) (2 * t + 1) 0x12

/-- LINK: its count agrees with its length, and each entry is sound by itself. -/
def linkBad (l : List Byte) : List (Nat × Nat) :=
  (List.range ((l.length - 4) / 16)).flatMap fun k =>
    let o := 4 + 16 * k
    let n := byteAt l (o + 2)
    bad (decide (31 < byteAt l o)) o 0x13 ++ bad (decide (n ≤ byteAt l (o + 1))) (o + 1) 0x13 ++
      bad (decide (n < 2) || decide (4 < n)) (o + 2) 0x13 ++ bad (byteAt l (o + 3) == 0) (o + 3) 0x13 ++
      bad (leAt l (o + 4) 4 == 0) (o + 4) 0x13 ++ bad (decide (512 < leAt l (o + 8) 2)) (o + 8) 0x13 ++
      bad (nonzero l (o + 0xA) 6) (firstNonzero l (o + 0xA) 6) 0x10

/-- Pages that the banks of a mask hold. -/
def maskPages (m : Nat) : Nat := 64 * (bitsOf m 32).length

/-- Needs of several regions can be met together within their masks: no group of regions asks for more pages than its banks
have (Hall's condition). Needs and masks by region, free pages by bank. -/
def placeable (need mask : List Nat) (cap : Nat → Nat) : Bool :=
  (List.range 32).all fun sub =>
    let l := bitsOf sub 5
    let banks := l.foldl (fun m r => m ||| mask.getD r 0) 0
    decide ((l.map fun r => need.getD r 0).sum ≤ ((bitsOf banks 32).map cap).sum)

def canopyBad (l : List Byte) : List (Nat × Nat) :=
  let one := (List.range 5).flatMap fun n =>
    let o := 16 * n
    let lo := leAt l (o + 4) 2
    let hi := leAt l (o + 6) 2
    let rights := byteAt l (o + 1)
    bad (byteAt l o != n + 1) o 0x14 ++ bad (decide (n < 2 && 1 < rights) || decide (2 < rights)) (o + 1) 0x15 ++
      bad (nonzero l (o + 2) 2) (firstNonzero l (o + 2) 2) 0x10 ++
      bad (decide (hi < lo) || (n == 0 && decide (lo < 64)) || (n == 1 && decide (lo < 32))) (o + 4) 0x14 ++
      bad (decide (maskPages (leAt l (o + 8) 4) < hi)) (o + 6) 0x14 ++ bad (nonzero l (o + 0xC) 4) (firstNonzero l (o + 0xC) 4) 0x10
  let all := fun f : Nat → Nat => (List.range 5).map f
  if one.isEmpty then bad (!placeable (all fun n => leAt l (16 * n + 4) 2) (all fun n => leAt l (16 * n + 8) 4) fun _ => 64) 4 0x14 else one

def dscBad (l : List Byte) : List (Nat × Nat) :=
  (List.range 16).flatMap fun d =>
    let o := 12 * d
    let v := leAt l (o + 4) 2
    let i := leAt l (o + 6) 2
    let r := leAt l (o + 8) 2
    let f := leAt l (o + 0xA) 2
    if byteAt l o = 0xFF then []
    else
      bad (decide (31 < byteAt l o)) o 0x16 ++ bad (decide (3 < byteAt l (o + 1))) (o + 1) 0x16 ++
        bad (decide (3 < byteAt l (o + 2))) (o + 2) 0x10 ++ bad (byteAt l (o + 3) != 0) (o + 3) 0x10 ++
        bad (decide (v < 100) || decide (6000 < v)) (o + 4) 0x16 ++ bad (decide (i < 1) || decide (6000 < i)) (o + 6) 0x16 ++
        bad (decide (r < 1) || decide (1000 < r) || decide (150 * r < v)) (o + 8) 0x16 ++
        bad (decide (f < 500) || decide (4000 < f)) (o + 0xA) 0x16

def measBad (l : List Byte) : List (Nat × Nat) :=
  (List.range 36).flatMap fun u => bad (decide (32 ≤ byteAt l u) && byteAt l u != 0xFF) u 0x17

def peifBad (l : List Byte) : List (Nat × Nat) :=
  ((List.range 32).flatMap fun k =>
    let a := byteAt l (4 * k)
    bad (decide (32 ≤ a)) (4 * k) 0x10 ++ bad (a % 4 == 3) (4 * k) 0x18 ++ bad (byteAt l (4 * k + 1) != 0) (4 * k + 1) 0x10) ++
  (List.range 16).flatMap fun b =>
    let o := 128 + 4 * b
    let a := byteAt l o
    let c := byteAt l (o + 1)
    bad (decide (8 ≤ a)) o 0x10 ++ bad (a % 4 == 3) o 0x18 ++ bad (decide (8 ≤ c)) (o + 1) 0x10 ++
      bad (decide (c < 1) || decide (4 < c)) (o + 1) 0x18 ++ bad (nonzero l (o + 2) 2) (firstNonzero l (o + 2) 2) 0x10

/-- Ranges of SET_MV by rail (R56). -/
def railRange (r : Nat) : Nat × Nat := [(0, 0), (1045, 1155), (1140, 1260), (810, 890), (1710, 1890), (1710, 1890)].getD r (0, 0)

def houseBad (l : List Byte) : List (Nat × Nat) :=
  let rail := fun i : Nat => byteAt l (8 * i)
  let pct := fun v : Nat => decide (v < 3) || decide (10 < v)
  let one := (List.range 8).flatMap fun i =>
    let o := 8 * i
    let mv := leAt l (o + 2) 2
    let res := bad (byteAt l (o + 1) != 0) (o + 1) 0x10 ++ bad (nonzero l (o + 6) 2) (firstNonzero l (o + 6) 2) 0x10
    if rail i = 0 then res ++ bad (nonzero l (o + 2) 4) (firstNonzero l (o + 2) 4) 0x19
    else if 5 < rail i ∨ ((List.range i).any fun j => rail j == rail i) then res ++ [(o, 0x19)]
    else res ++ bad (decide (mv < (railRange (rail i)).1) || decide ((railRange (rail i)).2 < mv)) (o + 2) 0x19 ++
      bad (pct (byteAt l (o + 4))) (o + 4) 0x19 ++ bad (pct (byteAt l (o + 5))) (o + 5) 0x19
  let absent := (List.range 5).any fun r => !(List.range 8).any fun i => rail i == r + 1
  if one.isEmpty then bad absent (8 * (((List.range 8).find? fun i => rail i == 0).getD 0)) 0x19 else one

/-- The sources whose class is fixed (R58, R419). -/
def fixedClass (i : Nat) : Bool := decide (i ≤ 2) || i == 23

/-- The sources a module has (R419). -/
def hasSource (i : Nat) : Bool := decide (i < 24) || (decide (32 ≤ i) && decide (i < 96))

def faultBad (l : List Byte) : List (Nat × Nat) :=
  (List.range 256).flatMap fun i =>
    let c := byteAt l i
    bad (decide (8 ≤ c)) i 0x10 ++
      bad (decide (4 < c % 8) || (!hasSource i && c % 8 != 0) || (hasSource i && decide (c % 8 < floorOf i)) || (fixedClass i && c % 8 != floorOf i)) i 0x1A

def secoptBad (permit : Nat) (l : List Byte) : List (Nat × Nat) :=
  let o := leAt l 0 4
  bad (decide (32 ≤ o)) 0 0x10 ++ bad (without o permit != 0) 0 0x1B ++ bad (nonzero l 4 12) (firstNonzero l 4 12) 0x10

/-- The violations of a section's content by TYPE; `permit` is the provisioned policy. -/
def contentBad (permit type : Nat) (l : List Byte) : List (Nat × Nat) :=
  match type with
  | 1 => groveBad l | 2 => coppiceBad l | 3 => threadBad l | 4 => linkBad l | 5 => canopyBad l | 6 => dscBad l | 7 => measBad l
  | 8 => peifBad l | 9 => houseBad l | 10 => faultBad l | 11 => secoptBad permit l | _ => []

/-! ## Cross-section rules (check 8): TYPE, offset, code -/

/-- What the sections say of a grove. -/
def imgBound (p : Sections) (g : Nat) : Bool := bitOf (byteAt (sectionOf p 1) (4 * g)) 0
def imgLinked (p : Sections) (g : Nat) : Bool := bitOf (byteAt (sectionOf p 1) (4 * g)) 3
def imgCoppices (p : Sections) (g : Nat) : List Nat := (List.range 32).filter fun k => byteAt (sectionOf p 2) k == g
/-- The grove of a used thread entry. -/
def imgThread (p : Sections) (t : Nat) : Option Nat :=
  if byteAt (sectionOf p 3) (2 * t) = 1 then some (byteAt (sectionOf p 3) (2 * t + 1)) else none
/-- The member mask of a group. -/
def imgGroup (p : Sections) (b : Nat) : Nat := leAt (sectionOf p 3) (64 + 4 * b) 4
/-- The link entries: grove of each. -/
def imgLinks (p : Sections) : List Nat := (List.range (leAt (sectionOf p 4) 0 4)).map fun l => byteAt (sectionOf p 4) (4 + 16 * l)
/-- The DSCs of a grove. -/
def imgDscs (p : Sections) (g : Nat) : List Nat := (List.range 16).filter fun d => byteAt (sectionOf p 6) (12 * d) == g

/-- How often thread entries and groups serve a grove. -/
def imgServed (p : Sections) (g : Nat) : Nat :=
  ((List.range 32).filter fun t => imgThread p t == some g).length + ((List.range 8).filter fun b => bitOf (imgGroup p b) g).length

/-- A group that R50 does not allow. -/
def groupBad (p : Sections) (b : Nat) : Bool :=
  let l := bitsOf (imgGroup p b) 32
  let same := fun g : Nat => (byteAt (sectionOf p 1) (4 * g) / 2 % 4, byteAt (sectionOf p 1) (4 * g + 1), (imgCoppices p g).length)
  imgGroup p b != 0 && (decide (l.length < 2) || (l.any fun g => !imgBound p g || imgLinked p g || imgServed p g != 1) ||
    (l.any fun g => same g != same (l.headD 0)))

def crossBad (p : Sections) : List (Nat × Nat × Nat) :=
  let at_ := fun (test : Bool) (type off code : Nat) => if test then [(type, off, code)] else []
  ((List.range 32).flatMap fun g => at_ (imgBound p g && (imgCoppices p g).isEmpty) 1 (4 * g) 0x11) ++
  ((List.range 32).flatMap fun k => let g := byteAt (sectionOf p 2) k; at_ (g != 0xFF && !imgBound p g) 2 k 0x11) ++
  ((List.range 32).flatMap fun t => match imgThread p t with
    | some g => at_ (!imgBound p g || imgServed p g != 1) 3 (2 * t + 1) 0x12
    | none => []) ++
  ((List.range 8).flatMap fun b => at_ (groupBad p b) 3 (64 + 4 * b) 0x12) ++
  at_ (decide (((List.range 32).filter fun t => (imgThread p t).isNone).length < ((List.range 8).filter fun b => imgGroup p b != 0).length)) 3 64 0x12 ++
  ((List.range 32).flatMap fun g => at_ (imgBound p g && imgServed p g == 0) 3 0 0x12) ++
  ((imgLinks p).zipIdx.flatMap fun x => at_ (!imgLinked p x.1 || decide (1 < ((imgLinks p).filter (· == x.1)).length)) 4 (4 + 16 * x.2) 0x13) ++
  ((List.range 32).flatMap fun g => at_ (imgLinked p g && !(imgLinks p).contains g) 1 (4 * g) 0x13) ++
  ((List.range 16).flatMap fun d =>
    let g := byteAt (sectionOf p 6) (12 * d)
    let slot := fun d : Nat => byteAt (sectionOf p 6) (12 * d + 1)
    at_ (g != 0xFF && !imgBound p g) 6 (12 * d) 0x16 ++
      at_ (g != 0xFF && (List.range d).any fun e => byteAt (sectionOf p 6) (12 * e) == g && slot e == slot d) 6 (12 * d + 1) 0x16) ++
  ((List.range 36).flatMap fun u => let g := byteAt (sectionOf p 7) u; at_ (g != 0xFF && !imgBound p g) 7 u 0x17)

/-! ## Validation (R60) -/

/-- A section as stored. -/
def DirEnt.stored (img : List Byte) (d : DirEnt) : List Byte := (img.drop d.off).take d.len

/-- Padding, then the CRC over the stored bytes (check 5). [log 90: DEDUCED] -/
def storedFlaw (img : List Byte) (d : DirEnt) : Option Flaw :=
  let fill := (16 - d.len % 16) % 16
  firstFlaw [
    (nonzero img (d.off + d.len) fill, ⟨0x06, d.idx, firstNonzero img (d.off + d.len) fill⟩),
    (crc32 (d.stored img) != d.crc, ⟨0x0A, d.idx, d.at_ + 0xC⟩)]

/-- FixedInfo of a key transport: a label, SERIAL, and what the block itself names (R47, R452). -/
def fixedInfo (label : List Nat) (rest : List Byte) : List Byte := label.map (BitVec.ofNat 8) ++ bytesLE 8 Config.serial ++ rest

/-- The section content key that WRAPKEY carries (R47). -/
def State.sectionKey (s : State) (img wrap : List Byte) : Option Nat :=
  let build := (img.drop 0x20).take 16
  s.sec.transport.bind fun k => keyUnwrap k (fixedInfo [0x51, 0x48, 0x53, 0x49, 0x57, 0x52, 0x41, 0x50] build) build wrap

/-- A section's plain bytes: decrypted where ENC is set (R47). -/
def State.plainOf (s : State) (img : List Byte) (all : List DirEnt) (d : DirEnt) : Option (List Byte) :=
  if d.enc then
    let wrap := (all.find? fun e => e.type == 14).elim [] (DirEnt.stored img)
    let x := d.stored img
    let aad := (img.drop 0x20).take 16 ++ (img.drop d.at_).take 12
    (s.sectionKey img wrap).bind fun k => gcmDecrypt k (x.take 12) aad ((x.drop 12).take d.plain) (x.drop (12 + d.plain))
  else some (d.stored img)

/-- The key that KEY_ID names (R46). -/
def State.imageKey (s : State) (img : List Byte) : Option Nat := cellGet (leAt img 0x30 8) s.sec.imageKeys

/-- Checks 3 and 4 of R60: key, signature, the trailer's reserved bytes, the security version. [log 90: DEDUCED] -/
def State.signatureFlaw (s : State) (img : List Byte) : Option Flaw :=
  let n := leAt img 0x10 4
  let svn := leAt img 0x14 4
  match s.imageKey img with
  | none => some ⟨0x07, 0xF, 0x30⟩
  | some key => firstFlaw [
      (!ecdsaVerify key (img.take (n - 128)) ((img.drop (n - 128)).take 96), ⟨0x08, 0xF, n - 128⟩),
      (nonzero img (n - 32) 32, ⟨0x10, 0xF, firstNonzero img (n - 32) 32⟩),
      (decide (svn < s.rd (F.SEC_ARB_COUNT 1)) || decide (64 < svn), ⟨0x09, 0xF, 0x14⟩)]

/-- Check 6: the policy may ask for encryption, and every encrypted section decrypts. -/
def State.decryptFlaw (s : State) (img : List Byte) (all : List DirEnt) (d : DirEnt) : Option Flaw :=
  firstFlaw [
    (s.on F.SEC_STATUS_CONF_IMAGES && decide (d.type < 14) && !d.enc, ⟨0x0C, d.idx, d.at_ + 2⟩),
    (d.enc && (s.plainOf img all d).isNone, ⟨0x0B, d.idx, d.off⟩)]

/-- The sections decrypted. -/
def State.sections (s : State) (img : List Byte) : Sections :=
  let all := dirOf img
  all.map fun d => (d.type, (s.plainOf img all d).getD [])

/-- A flaw inside a section, by its TYPE and offset. [log 90: DEDUCED] -/
def flawIn (all : List DirEnt) (type off code : Nat) : Flaw :=
  match all.find? fun d => d.type == type with
  | some d => ⟨code, d.idx, d.off + off⟩
  | none => ⟨code, 0xF, 0⟩

/-- Check 7: the contents in TYPE order; LINK's count agrees with its length. -/
def State.contentFlaw (s : State) (p : Sections) (all : List DirEnt) : Option Flaw :=
  all.findSome? fun d =>
    let l := sectionOf p d.type
    if d.type = 4 ∧ l.length ≠ 4 + 16 * leAt l 0 4 then some ⟨0x0F, d.idx, d.at_ + 8⟩
    else (lowest (contentBad (s.rd F.SEC_POLICY_PERMIT) d.type l)).map fun x => ⟨x.2, d.idx, d.off + x.1⟩

/-- Checks 1 to 8 of R60 on an image of which `len` bytes were transferred: the first failure, or the sections. -/
def State.checkImage (s : State) (img : List Byte) (len : Nat) : Flaw ⊕ Sections :=
  let all := dirOf img
  let p := s.sections img
  let flaw := headerFlaw img len <|> dirFlaw img <|> s.signatureFlaw img <|> all.findSome? (storedFlaw img) <|>
    all.findSome? (s.decryptFlaw img all) <|> s.contentFlaw p all <|>
    ((crossBad p).head?.map fun x => flawIn all x.1 x.2.1 x.2.2)
  match flaw with
  | some f => .inl f
  | none => .inr p

/-! ## The empty structure (R42) -/

/-- The sections of the empty structure. Its rails stand at their nominal set points; it gives no percentages. -/
def emptySections : Sections :=
  let region := fun (n pages rights : Nat) => bytesLE 1 (n + 1) ++ bytesLE 1 rights ++ bytesLE 2 0 ++ bytesLE 2 pages ++ bytesLE 2 pages ++
    bytesLE 4 0xFFFFFFFF ++ bytesLE 4 0
  let rail := fun (r mv : Nat) => bytesLE 2 r ++ bytesLE 2 mv ++ bytesLE 4 0
  [(1, List.replicate 128 0), (2, List.replicate 32 0xFF), (3, List.replicate 96 0), (4, bytesLE 4 0),
   (5, region 0 256 0 ++ region 1 64 0 ++ region 2 0 0 ++ region 3 0 0 ++ region 4 1728 2),
   (6, (List.replicate 16 ([0xFF] ++ List.replicate 11 0)).flatten), (7, List.replicate 36 0xFF),
   (8, (List.replicate 32 [1, 0, 0, 0]).flatten ++ List.replicate 64 0),
   (9, rail 1 1100 ++ rail 2 1200 ++ rail 3 850 ++ rail 4 1800 ++ rail 5 1800 ++ List.replicate 24 0),
   (10, (List.range 256).map fun i => BitVec.ofNat 8 (floorOf i)), (11, List.replicate 16 0)]

/-- The sections of the structure in force. -/
def State.inForce (s : State) : Sections := if s.str.image.isEmpty then emptySections else s.str.plain

end Sys2Proof.Machine
end

