-- ==== Sys2Proof/Machine/Structure.lean ====
section
/-! DEFINITION. Loading a structure (R40, R41, R60 to R68): staging, the dry-run placement, parking, the swap, and the scrubber
of the structure store. -/

namespace Sys2Proof.Machine

/-! ## The dry-run placement (R52, check 9 of R60) -/

/-- A plan of the Canopy's regions as it grows: pages assigned to regions, and pages each region still needs. -/
structure RegionPlan where
  pages : List (Nat × Nat)
  need  : List Nat
  deriving DecidableEq, Repr

/-- Bounds of a region in an image. -/
def imgMin (p : Sections) (r : Nat) : Nat := leAt (sectionOf p 5) (16 * r + 4) 2
def imgMax (p : Sections) (r : Nat) : Nat := leAt (sectionOf p 5) (16 * r + 6) 2
def imgMask (p : Sections) (r : Nat) : Nat := leAt (sectionOf p 5) (16 * r + 8) 4

/-- Whether the plan has given a page to a region. -/
def RegionPlan.has (a : RegionPlan) (page region : Nat) : Bool := a.pages.contains (page, region)

/-- Gives a page to a region if its bounds and the needs of every region then allow it. [log 92: DESIGN CHOICE] -/
def RegionPlan.take (p : Sections) (a : RegionPlan) (page r : Nat) : RegionPlan :=
  let next : RegionPlan := ⟨a.pages ++ [(page, r)], a.need.set r (a.need.getD r 0 - 1)⟩
  let cap := fun b : Nat => 64 - (next.pages.filter fun x => x.1 / 64 == b).length
  if (a.pages.any fun x => x.1 == page) || !bitOf (imgMask p r) (page / 64) || decide (imgMax p r ≤ (a.pages.filter fun x => x.2 == r).length) ||
      !placeable next.need ((List.range 5).map (imgMask p)) cap then a
  else next

/-- Gives a region the lowest pages it may have until its need is met. [log 92: DESIGN CHOICE] -/
def RegionPlan.fill (p : Sections) (a : RegionPlan) (r : Nat) : RegionPlan :=
  (List.range 2048).foldl (fun a page => if a.need.getD r 0 = 0 then a else a.take p page r) a

/-- The Canopy pages of a placed buffer. -/
def Place.canopyPages (p : Place) : List Nat := if p.sdram then [] else p.pages

/-- The Canopy pages of a segment. -/
def Seg.canopyPages (x : Seg) : List Nat := (if x.tier = .canopy then runPages x.pages else []) ++ runPages x.ipages

/-- The region whose pages a placed buffer lies in. -/
def State.placeRegion (s : State) (p : Place) : Nat := (s.forest.regionOf p.page).getD 3

/-- The pages with content and the region of each, in the order in which the plan keeps them. -/
def State.contentPages (s : State) : List (Nat × Nat) :=
  (s.forest.code.map fun k => (k.page, 0)) ++ ((runPages (s.regionRuns 1)).map fun q => (q, 1)) ++
    (s.forest.claims.flatMap fun c => (List.range c.2.2).map fun i => (c.2.1 + i, 4)) ++
    (s.placed.flatMap fun p => p.canopyPages.map fun q => (q, s.placeRegion p)) ++
    (s.forest.segs.flatMap fun x => x.canopyPages.map fun q => (q, 2))

/-- The plan for an image: what content stays where it is, then the pages that the regions still need; none where code or
control content does not fit. [log 92: DESIGN CHOICE] -/
def State.planFor (s : State) (p : Sections) : Option RegionPlan :=
  let code := s.forest.code.length
  let need := [max code (imgMin p 0), imgMin p 1, imgMin p 2, imgMin p 3, imgMin p 4]
  if imgMax p 0 < code ∨ !placeable need ((List.range 5).map (imgMask p)) (fun _ => 64) then none
  else some ((List.range 5).foldl (RegionPlan.fill p) (s.contentPages.foldl (fun a x => a.take p x.1 x.2) ⟨[], need⟩))

/-- The code pages that a plan moves. -/
def State.codeOut (s : State) (a : RegionPlan) : List CodePage := s.forest.code.filter fun k => !a.has k.page 0

/-- The cores that must be parked for a plan. -/
def State.parkMask (s : State) (a : RegionPlan) : Nat := (s.codeOut a).foldl (fun m k => m ||| k.mask) 0

/-! ## The end of a load (R60, R63) -/

/-- Records a failure: LAST_ERR, STR_ERR_DETAIL and the event; the word of STR_ERR_DETAIL. -/
def State.noteFlaw (s : State) (f : Flaw) : Nat × State :=
  let word := f.sect % 16 + 2 ^ 8 * (f.off % 2 ^ 20)
  (word, (s.wrs [(F.STR_STATUS_LAST_ERR, f.code), (F.STR_ERR_DETAIL_SECTION, f.sect), (F.STR_ERR_DETAIL_OFFSET, f.off)]).event Ev.str 1)

/-- The state of the loader at rest: LOADED, or EMPTY where no image is in force. -/
def State.restState (s : State) : Nat := b2n (!s.str.image.isEmpty)

/-- A load that has not reached the swap fails: nothing else has changed, and cores that parked at its request go on. [log 91: DEDUCED] -/
def State.structFail (s : State) (f : Flaw) : State :=
  let r := s.noteFlaw f
  let cmd := s.str.cmd
  let s := r.2.wr F.STR_STATUS_STATE s.restState
  let s := { s with str := { s.str with staged := [], stagedPlain := [], cmd := none } }.unaskPark 0xFF
  match cmd with
  | some h => s.complete h f.code r.1
  | none => s

/-- A fault of class FATAL or SAFE_STATE, or tamper, ends a load that has not reached the swap (R67). [log 150: DESIGN CHOICE] -/
def State.structInterrupt (s : State) : State := if s.reloading then s.structFail ⟨0x20, 0xF, 0⟩ else s

/-! ## Meanings: staging and validation -/

/-- Begins staging a source: a load from flash at start (1 slot A, 2 slot B), or a command's (3). -/
def State.stage (s : State) (img : List Byte) (len src : Nat) (cmd : Option Hdr) : State :=
  { s with str := { s.str with staged := img.take (2 ^ 20), len := len, src := src, cmd := cmd } }.wr F.STR_STATUS_STATE 2

/-- STRUCT_LOAD (R41, R63, R320): refused with BUSY while a burst is in a stage from Declared to Ended, or while another load is
in progress, which then alone keeps the status. [log 91: DEDUCED] -/
def execStructLoad (h : Hdr) (src : Src) (length : Nat) (s : State) : Host.Outcome State Fault Refusal :=
  .next (s.begin_ h 0x10 fun s =>
    if s.sourceOk src length = false then s.complete h stBadOperand
    else if s.reloading ∨ s.atAcceptance h (·.reload) then s.complete h 0x1D
    else if s.bursts.isEmpty = false ∨ s.atAcceptance h (·.busy) then
      let r := s.noteFlaw ⟨0x1D, 0xF, 0⟩
      r.2.complete h 0x1D r.1
    else match s.source src length with
      | none => s.complete h stHostReadFailed
      | some img => s.stage img length 3 (some h))

/-- STRUCTURE_STAGED (R41): the staging area holds the copy. -/
def execStructureStaged (s : State) : Host.Outcome State Fault Refusal :=
  if s.rd F.STR_STATUS_STATE ≠ 2 ∨ s.clearing then .next s
  else
    let cells := s.str.staged.zipIdx.map fun b => (b.2, b.1)
    .next ({ s with canopy := putCells canopyPage s.canopy (s.regionRuns 1) cells }.wr F.STR_STATUS_STATE 3)

/-- Code moves that wait are given up, and their cores go on. -/
def State.dropCodeMoves (s : State) : State :=
  { s with forest := { s.forest with codeMoves := [] } }.unaskPark 0xFF

/-- STRUCTURE_VALIDATED (R60, R146): checks 1 to 8 end. -/
def execStructureValidated (s : State) : Host.Outcome State Fault Refusal :=
  if s.rd F.STR_STATUS_STATE ≠ 3 ∨ s.clearing then .next s
  else match s.checkImage s.str.staged s.str.len with
    | .inl f => .next (s.structFail f)
    | .inr p =>
      let s := { s with str := { s.str with stagedPlain := p } }.wr F.STR_STATUS_STATE 4
      .next ((s.abandonMoves fun _ => true).dropCodeMoves).evacCheck

/-! ## Planning and quiescing (R63 to R65) -/

/-- Whether a DSC keeps its entry and its grove's DSC set from one structure to the next (R64). [log 93: DEDUCED] -/
def dscStays (old new : Sections) (d : Nat) : Bool :=
  let entry := fun p : Sections => ((sectionOf p 6).drop (12 * d)).take 12
  let g := byteAt (entry old) 0
  decide (entry old = entry new) && (g == 0xFF || decide (imgDscs old g = imgDscs new g))

/-- DRY_RUN_PLACEMENT_DONE (R60, R63 to R65): the plan is made, every DSC that does not continue is in disconnect, and the cores
of code pages that must move are asked to park. [log 150: DESIGN CHOICE] -/
def execDryRunPlacementDone (s : State) : Host.Outcome State Fault Refusal :=
  if s.rd F.STR_STATUS_STATE ≠ 4 ∨ s.clearing then .next s
  else s.onStore fun s =>
    let p := s.str.stagedPlain
    let all := dirOf s.str.staged
    match s.planFor p with
    | none => .next (s.structFail (flawIn all 5 0 0x1C))
    | some a =>
      let s := s.wr F.STR_STATUS_STATE 5
      match (allFin 16).find? fun (d : Fin 16) => !dscStays s.inForce p d && s.rd (F.DSC_STATUS_MODE d) != 0 with
      | some d => .next (s.structFail (flawIn all 6 (12 * d.1) 0x1E))
      | none => .next (s.askPark (s.parkMask a))

/-- Whether a core still runs from a code page that must move. -/
def State.codeRuns (s : State) : Bool :=
  match s.planFor s.str.stagedPlain with
  | some a => (s.codeOut a).any fun k => s.runsFrom k.page
  | none => false

/-- The coppices whose COPPICE byte, PEIF entry or grove entry changes (R66). -/
def changedCoppices (old new : Sections) : List Nat :=
  let four := fun (p : Sections) (t k : Nat) => ((sectionOf p t).drop (4 * k)).take 4
  (List.range 32).filter fun k =>
    let g := byteAt (sectionOf new 2) k
    byteAt (sectionOf old 2) k != g || decide (four old 8 k ≠ four new 8 k) || (decide (g < 32) && decide (four old 1 g ≠ four new 1 g))

/-- Leaves coppices as a grove that awaits its first burst: drive enables deasserted, DRV at 0 (R66, R76, R88). -/
def State.coppicesOff (s : State) (l : List Nat) : State :=
  l.foldl (fun s k => (List.range 4).foldl (fun s c => s.modChan (fin 128 (4 * k + c)) fun x => { x with drv := false, den := false }) s) s

/-- QUIESCE_COMPLETE (R65, R66, R417): every core that must has parked and no calibration runs; the changed coppices are held at
high impedance. -/
def execQuiesceComplete (s : State) : Host.Outcome State Fault Refusal :=
  if s.rd F.STR_STATUS_STATE ≠ 5 ∨ s.clearing ∨ s.cal.run.isSome ∨ s.codeRuns then .next s
  else s.onStore fun s =>
    let l := changedCoppices s.inForce s.str.stagedPlain
    .next (({ s with str := { s.str with held := maskOf l } }.wr F.STR_STATUS_STATE 6).coppicesOff l)

/-- PARK_TIMEOUT (R65, R155): code moves whose cores have not parked are cancelled, and so is a load that waits for one.
[log 5: DESIGN CHOICE; log 150: DESIGN CHOICE] -/
def execParkTimeout (s : State) : Host.Outcome State Fault Refusal :=
  let s := s.parkTimeout
  if s.rd F.STR_STATUS_STATE = 5 ∧ s.clearing = false ∧ s.codeRuns then
    .next (s.codeBusy.structFail (flawIn (dirOf s.str.staged) 5 0 0x1F))
  else .next s

/-! ## The swap (R62 to R67, R156) -/

/-- The thread of every group: used groups in ascending index take the lowest free threads (R156). -/
def groupThreads (p : Sections) : List (Nat × Nat) :=
  let free := (List.range 32).filter fun t => (imgThread p t).isNone
  ((List.range 8).filter fun b => imgGroup p b != 0).zip free

/-- The word of STR_GROVE that a structure gives a grove. -/
def groveWord (p : Sections) (g : Nat) : Nat :=
  let b := (List.range 8).find? fun b => bitOf (imgGroup p b) g
  let own := (List.range 32).find? fun t => imgThread p t == some g
  let thread := match b with
    | some b => ((groupThreads p).find? fun x => x.1 == b).elim 0 (·.2)
    | none => own.getD 0
  if imgBound p g then
    byteAt (sectionOf p 1) (4 * g) % 16 + 2 ^ 4 * (byteAt (sectionOf p 1) (4 * g + 1) % 4) + 2 ^ 8 * thread + 2 ^ 14 * b2n b.isSome +
      2 ^ 16 * b.getD 0 + 2 ^ 24 * (4 * (imgCoppices p g).length)
  else 0

/-- Writes a whole register. -/
def State.put32 (s : State) (b : Blk) (a v : Nat) : State := s.setWord b a (BitVec.ofNat 32 v)

/-- Shows the built structure in the STR registers (R40). -/
def State.showStructure (s : State) (p : Sections) : State :=
  let each := fun (n : Nat) (f : State → Nat → State) (s : State) => (List.range n).foldl f s
  let word := fun (t i : Nat) => leAt (sectionOf p t) (4 * i) 4
  let s := each 32 (fun s g => s.put32 .str (0x10100 + 4 * g) (groveWord p g)) s
  let s := each 8 (fun s i => (s.put32 .str (0x10180 + 4 * i) (word 2 i)).put32 .str (0x10280 + 4 * i) (word 7 i)) s
  let s := s.put32 .str 0x102A0 (word 7 8)
  let s := each 5 (fun s r => (s.put32 .str (0x101A0 + 8 * r)
    (imgMin p r + 2 ^ 16 * imgMax p r + 2 ^ 28 * byteAt (sectionOf p 5) (16 * r + 1))).put32 .str (0x101A4 + 8 * r) (imgMask p r)) s
  let s := s.wr F.STR_SECOPT_OPTIONS (word 11 0)
  let s := each 16 (fun s d =>
    let o := 12 * d
    let g := byteAt (sectionOf p 6) o
    s.put32 .str (0x10200 + 4 * d) (if g = 0xFF then 0xFF
      else g + 2 ^ 8 * byteAt (sectionOf p 6) (o + 1) + 2 ^ 16 * leAt (sectionOf p 6) (o + 4) 2)) s
  let s := each 8 (fun s l =>
    let o := 4 + 16 * l
    let b := byteAt (sectionOf p 4)
    let used := decide (l < leAt (sectionOf p 4) 0 4)
    (s.put32 .str (0x10240 + 4 * l) (if used then b o + 2 ^ 8 * b (o + 1) + 2 ^ 12 * b (o + 2) + 2 ^ 16 * b (o + 3) else 0)).put32 .str
      (0x10260 + 4 * l) (if used then leAt (sectionOf p 4) (o + 4) 4 else 0)) s
  each 32 (fun s k => s.put32 .str (0x10300 + 4 * k) (word 8 k)) s

/-- The switching period in steps of a frequency in kHz, rounded to nearest (R266). -/
def stepsOf (khz : Nat) : Nat := if khz = 0 then 0 else (12800000 + khz / 2) / khz

/-- Puts the options of the other blocks in force: PE control buses, supply channels, house supplies, fault classes (R53, R55 to
R57). A supply channel that does not continue has its window and over-voltage levels at their bound, its switching period, and its
range selector at HI (R266, R270, R275). [log 93: DEDUCED] -/
def State.applyStructure (s : State) (old new : Sections) : State :=
  let peif := sectionOf new 8
  let s := (List.range 16).foldl (fun s b =>
    let o := 128 + 4 * b
    s.wrs [(F.PEC_CFG_RATE b, byteAt peif o % 4), (F.PEC_CFG_MODE b, byteAt peif o / 4), (F.PEC_CFG_CS_COUNT b, byteAt peif (o + 1))]) s
  let s := (allFin 16).foldl (fun (s : State) (d : Fin 16) =>
    if dscStays old new d.1 then s
    else
      let e := (sectionOf new 6).drop (12 * d.1)
      let bound := byteAt e 0 != 0xFF
      let v := fun off : Nat => if bound then leAt e off 2 else 0
      let top := 1100 * v 4
      let s := s.wrs [(F.DSC_IMAX_I_MAX d, v 6), (F.DSC_IMG_RAMP_DOWN d, v 8), (F.DSC_IMG_F_SW d, v 0xA), (F.CMP_WIN_HI_UV d, top), (F.CMP_OVP_UV d, top),
        (F.DSC_STATUS_CAUSE d, 4), (F.PGN_STATUS_N d, stepsOf (v 0xA)), (F.CMP_RANGE_STATE d, 0)]
      let s := (List.range 4).foldl (fun s p => s.wrs [(F.DSC_RC_BIND_VALID d p, 0), (F.DSC_RC_STAT_STATE d p, 0)]) s
      s.modDsc d fun k => { k with senseInv := bound && bitOf (byteAt e 2) 0, stageFlt := bound && bitOf (byteAt e 2) 1, slots := Vector.replicate 4 {} }) s
  let s := (List.range 8).foldl (fun s i =>
    let e := (sectionOf new 9).drop (8 * i)
    let r := byteAt e 0
    if r = 0 then s else s.wrs [(F.PWR_RAIL_SET_MV r, leAt e 2 2), (F.PWR_RAIL_LIM_OV_PCT r, byteAt e 4), (F.PWR_RAIL_LIM_UV_PCT r, byteAt e 5)]) s
  ((List.range 64).foldl (fun s i => s.wr (F.FLT_CLASS_CLASS i) (leAt (sectionOf new 10) (4 * i) 4)) s).noteHeartbeat

/-- Armed engines and units whose binding changes are disarmed (R64). -/
def State.disarmChanged (s : State) (old new : Sections) : State :=
  let moved := fun u : Nat => byteAt (sectionOf old 7) u != byteAt (sectionOf new 7) u
  let s := (allFin 4).foldl (fun s (e : Fin 4) => if moved (32 + e.1) ∧ s.trgState e ≠ 0 then s.trgDisarm e else s) s
  (allFin 32).foldl (fun s (u : Fin 32) => if moved u.1 ∧ s.tmuState u ≠ 0 then s.tmuDisarm u else s) s

/-- A segment that lost pages finds a new place in the Canopy or the SDRAM, or is not resident. -/
def State.rehomeSeg (s : State) (x : Seg) (pay ins : List (Nat × Byte)) : State :=
  let bytes := (x.lines + 63) / 64 * x.granBytes
  let out := x.tier == .canopy
  let tier : Option (Tier × List (Nat × Nat)) :=
    if out then
      ((s.canopyRuns 2 (pagesFor bytes canopyPage) 8 []).map fun r => (Tier.canopy, r)) <|>
        ((s.sdramRuns (pagesFor bytes sdramPage)).map fun r => (Tier.sdram, r))
    else some (x.tier, x.pages)
  let add := fun (s : State) (y : Seg) => { s with forest := { s.forest with segs := s.forest.segs ++ [y] } }
  let s1 := match tier with
    | some (.canopy, r) => s.takePages 2 r
    | _ => s
  let hold : Seg := { x with tier := (tier.map (·.1)).getD .none, pages := (tier.map (·.2)).getD [], ipages := [], ioff := 0 }
  match tier, (add s1 hold).streamPlace (8 * x.iwords) [] with
  | some (t, r), some i =>
    let s3 := add (s1.takePages 2 i.1) { hold with ipages := i.1, ioff := i.2 }
    let s3 := if out then s3.setTierMem t (copyCells (tierUnit t) (s3.tierMem t) r pay) else s3
    let s3 := { s3 with canopy := putStream s3.canopy i.1 i.2 (8 * x.iwords) ins }
    if out ∧ t = .sdram then s3.event Ev.frst 6 else s3
  | _, _ =>
    add (if x.tier = .sdram then s.zeroPages true (runPages x.pages) else s) { hold with tier := .none, pages := [] }

/-- A buffer that lost pages finds a new place with its content, or is gone. [log 92: DESIGN CHOICE] -/
def State.rehome (s : State) (p : Place) (cells : List (Nat × Byte)) : Option (Place × State) :=
  (s.placeBuffer p.bytes).map fun r =>
    let unit := if r.1.sdram then sdramPage else canopyPage
    let t : Tier := if r.1.sdram then .sdram else .canopy
    (r.1, r.2.setTierMem t (copyCells unit (r.2.tierMem t) [(r.1.page, r.1.pages.length)] cells))

/-- Every buffer whose pages satisfy a test is placed again; `cells` is what each held. -/
def State.rehomeBuffers (s : State) (lost : Place → Bool) (cells : Place → List (Nat × Byte)) : State :=
  let s := (allFin 32).foldl (fun (s : State) (g : Fin 32) =>
    (List.range s.groves[g].bufs.length).reverse.foldl (fun s i =>
      match (s.groves[g].bufs)[i]? with
      | some p =>
        if lost p then
          match s.rehome p (cells p) with
          | some r =>
            let s := r.2.modGrove g fun k => { k with bufs := k.bufs.set i r.1 }
            if i = 0 then s.wrs [(F.FOR_CAP_LOC_SDRAM g, b2n r.1.sdram), (F.FOR_CAP_LOC_PAGE g, r.1.page)] else s
          | none => s.modGrove g fun k => { k with bufs := k.bufs.eraseIdx i }
        else s
      | none => s) s) s
  let store := fun (n : Nat) (p : Option Place) (l : List (Nat × Place)) => (l.filter fun o => o.1 != n) ++ p.toList.map fun q => (n, q)
  let s := (allFin 4).foldl (fun (s : State) (e : Fin 4) =>
    match s.acq.trg[e].place with
    | some p =>
      if lost p then
        let r := s.rehome p (cells p)
        let s := (r.map (·.2)).getD s
        let q := r.map (·.1)
        let s := { s with forest := { s.forest with stores := store (32 + e.1) q s.forest.stores } }.modTrg e fun k => { k with place := q }
        s.wrs [(F.TRG_LOC_SDRAM e, b2n (q.any (·.sdram))), (F.TRG_LOC_PAGE e, (q.map (·.page)).getD 0)]
      else s
    | none => s) s
  let s := (allFin 32).foldl (fun (s : State) (u : Fin 32) =>
    match s.acq.tmu[u].place with
    | some p =>
      if lost p then
        let r := s.rehome p (cells p)
        let s := (r.map (·.2)).getD s
        let q := r.map (·.1)
        let s := { s with forest := { s.forest with stores := store u.1 q s.forest.stores } }.modTmu u fun k => { k with place := q }
        s.wrs [(F.TMU_LOC_SDRAM u, b2n (q.any (·.sdram))), (F.TMU_LOC_PAGE u, (q.map (·.page)).getD 0)]
      else s
    | none => s) s
  let s := s.forest.traces.foldl (fun (s : State) (t : Nat × Place) =>
    if lost t.2 then
      let n := t.2.pages.length
      let q := s.canopyRun 4 n
      let place := q.map fun a => (⟨false, a, t.2.bytes⟩ : Place)
      let s := match q with
        | some a => { s.takePages 4 [(a, n)] with canopy := copyCells canopyPage s.canopy [(a, n)] (cells t.2) }
        | none => s
      { s with forest := { s.forest with traces := store t.1 place s.forest.traces } }.wr (F.TRC_LOC_PAGE t.1) (q.getD 0)
    else s) s
  (allFin 32).foldl (fun (s : State) (t : Fin 32) => if s.streams[t].ring.any lost then s.dropRing t else s) s

/-- Moves the content to where the plan puts it, copy then switch (R63, R155). The built structure's registers show the new bounds
already; code goes to pages of the code region that hold none, control content keeps its offsets. [log 92: DESIGN CHOICE] -/
def State.applyPlan (s : State) (a : RegionPlan) : State :=
  let keeps := fun (l : List Nat) (r : Nat) => l.all fun q => a.has q r
  let old := s.canopy
  let cellsOf := fun runs : List (Nat × Nat) => runCells canopyPage old runs
  let lostSegs := s.forest.segs.filter fun x => !keeps x.canopyPages 2
  let lost := fun p : Place => !keeps p.canopyPages (s.placeRegion p)
  let cells := fun p : Place => cellsOf [(p.page, p.pages.length)]
  let out := s.codeOut a
  let pages := fun r : Nat => (a.pages.filter fun x => x.2 == r).map (·.1)
  let free := (pages 0).filter fun q => !(s.forest.code.any fun k => k.page == q)
  let dest := (out.map (·.page)).zip free
  let mask := s.parkMask a
  let oldControl := s.regionRuns 1
  let newControl := ((runPages oldControl).filter fun q => a.has q 1) ++ (pages 1).filter fun q => !(runPages oldControl).contains q
  let control := (cellsOf oldControl).filter fun c => decide (c.1 < newControl.length * canopyPage)
  let streams := lostSegs.map fun x => (x, s.streamCells x)
  let claimed := fun c : Nat × Nat × Nat => (List.range c.2.2).map (c.2.1 + ·)
  let claims := s.forest.claims.filter fun c => keeps (claimed c) 4
  let gone := (runPages oldControl) ++ out.map (·.page) ++ (lostSegs.flatMap fun x => if x.tier = .canopy then runPages x.pages else []) ++
    ((lostSegs.flatMap fun x => runPages x.ipages).filter fun q => !a.has q 2) ++ ((s.placed.filter lost).flatMap Place.canopyPages) ++
    (s.forest.claims.filter fun c => !claims.contains c).flatMap claimed
  let s := (lostSegs.foldl State.clearStream s).zeroPages false gone
  let regions := newControl.map (fun q => (q, 1, 1)) ++ (a.pages.filter fun x => x.2 != 1).map fun x => (x.1, 1, x.2)
  let move := fun k : CodePage => match dest.find? fun d => d.1 == k.page with
    | some d => { k with page := d.2 }
    | none => k
  let canopy := dest.foldl (fun m d => copyCells canopyPage m [(d.2, 1)] (cellsOf [(d.1, 1)])) (copyCells canopyPage s.canopy (newControl.map fun q => (q, 1)) control)
  let s := { s with
    canopy := canopy
    forest := { s.forest with
      regions := regions, claims := claims, code := s.forest.code.map move
      segs := s.forest.segs.filter fun x => !lostSegs.contains x } }
  let s := streams.foldl (fun s x => s.rehomeSeg x.1 (if x.1.tier = .canopy then cellsOf x.1.pages else []) x.2) s
  let s := s.rehomeBuffers lost cells
  let s := (allFin 8).foldl (fun s c => if bitOf mask c.1 then s.modCore c fun k => { k with icacheValid := false } else s) s
  s.resumeCores mask

/-- Abandons the moves whose destination the plan gives to another region, and cancels such code moves (R146). -/
def State.dropForPlan (s : State) (a : RegionPlan) : State :=
  let out := fun m : CodeMove => !a.has m.dest 0
  let mask := (s.forest.codeMoves.filter out).foldl (fun n m => n ||| s.forest.codeMask m.page) 0
  let s := s.abandonMoves fun m => ((if m.tier = .canopy then runPages m.pages else []) ++ runPages m.ipages).any fun q => !a.has q 2
  { s with forest := { s.forest with codeMoves := s.forest.codeMoves.filter fun m => !out m } }.unaskPark mask

/-- STRUCTURE_SWAP (R62 to R67): the new structure is in force for every unit at once; it is measured, and the load is done. -/
def execStructureSwap (s : State) : Host.Outcome State Fault Refusal :=
  if s.rd F.STR_STATUS_STATE ≠ 6 ∨ s.clearing then .next s
  else s.onStore fun s =>
    let img := s.str.staged
    let new := s.str.stagedPlain
    let old := s.inForce
    match s.planFor new with
    | none => .next (s.structFail (flawIn (dirOf img) 5 0 0x1C))
    | some a =>
      let cmd := s.str.cmd
      let digest := shaBytes img
      let ids := s.linkIds
      let s := ((s.disarmChanged old new).dropForPlan a).showStructure new
      let s := ((s.applyPlan a).applyStructure old new).coppicesOff (changedCoppices old new)
      let s := { s with str := { s.str with image := img, plain := new, staged := [], stagedPlain := [], cmd := none, held := 0, badWords := [] } }
      let s := s.wrs [(F.STR_STATUS_STATE, 1), (F.STR_STATUS_SOURCE, s.str.src), (F.STR_STATUS_LAST_ERR, 0), (F.STR_ERR_DETAIL_SECTION, 0),
        (F.STR_ERR_DETAIL_OFFSET, 0), (F.STR_SVN_SVN, leAt img 0x14 4)]
      let s := (List.range 4).foldl (fun s i => s.wr (F.STR_BUILD_ID_ID i) (leAt img (0x20 + 4 * i) 4)) s
      let s := (List.range 12).foldl (fun s i => s.wr (F.STR_DIGEST_DIGEST i) (leAt digest (4 * i) 4)) s
      let s := ((s.extendMr 4 digest).incWrap F.STR_LOADS_COUNT).event Ev.str 0
      let s := s.exchange ids
      .next (match cmd with
        | some h => s.complete h stOk
        | none => s)

/-- STRUCTURE_SCRUB (R68): the scrubber reads the whole store, in which a word may have been upset since it last did.
[log 160: DESIGN CHOICE] -/
def execStructureScrub (upset : Option Nat) (s : State) : Host.Outcome State Fault Refusal :=
  .next { s with str := { s.str with badWords := upset.toList ++ s.str.badWords.filter fun w => upset != some w } }.useStore

end Sys2Proof.Machine
end

