-- ==== Sys2Proof/Machine/Firebreak.lean ====
section
/-! DEFINITION. The rest of the Firebreak: ramps (R427), the fault record (R436), the clearing state (R428), and what a fault
does to commands in flight (R326). -/

namespace Sys2Proof.Machine

/-- Commands that a fault has left unfinished end as R326 and R67 state; those not begun never begin. A calibration in
progress ends by its own row, with the results it has (R416). -/
def State.interruptCommands (s : State) : State :=
  let wait := s.hq.inFlight.filter fun f => !f.begun && cutOpc f.opc
  let mark := fun e : InFlight => if cutOpc e.opc then { e with begun := true } else e
  let s := { s with hq := { s.hq with inFlight := s.hq.inFlight.map mark } }
  let s := wait.foldl (fun s f => s.complete f.hdr (cutStatus f.opc)) s
  let s := s.structInterrupt.abortLoads.abortEvacs
  let l := s.cal.queue.filterMap fun r => r.cmd
  let s := { s with cal := { s.cal with queue := [] } }
  l.foldl (fun s h => s.complete h stNotStarted) s

/-- The entry of a DSC in a fault record: mode, outcome, voltage, current and microseconds (R436). [log 94: DEDUCED] -/
def State.recDsc (s : State) (d : Fin 16) : List Byte :=
  let (mode, v, i) := s.flt.dscAt.getD d.1 (0, 0, 0)
  let opened := s.flt.opened.find? fun o => o.1 == d.1
  let outcome := if (s.groveOfDsc d).isNone then 0
    else if s.flt.cause = 5 then 5
    else if mode = 0 then 4
    else (opened.map (·.2.1)).getD 0
  bytesLE 1 mode ++ bytesLE 1 outcome ++ bytesLE 2 (zx 16 v) ++ bytesLE 2 (zx 16 i) ++ bytesLE 2 ((opened.map (·.2.2)).getD 0)

/-- The entry of a grove in a fault record (R436). -/
def State.recGrove (s : State) (g : Fin 32) : List Byte :=
  match s.flt.groveAt.find? fun e => e.1 == g.1 with
  | some e => bytesLE 6 ((s.groves[g].emittedTo <|> s.groves[g].lastCycle).getD (2 ^ 48 - 1)) ++ bytesLE 2 (idBits e.2.1 e.2.2)
  | none => bytesLE 6 (2 ^ 48 - 1) ++ bytesLE 2 0

/-- The fault record of the cause in force, without its CRC. -/
def State.recordBody (s : State) (seq : Nat) : List Byte :=
  let flags := b2n s.flt.mismatch + 2 * b2n s.flt.forced + 4 * b2n (s.rd F.TIM_STATUS_STATE != 0) + 8 * b2n (s.flt.cause != 5)
  let src := if s.flt.cause = 1 ∨ s.flt.cause = 5 then s.flt.causeSrc else 0xFF
  bytesLE 4 0x52464851 ++ bytesLE 4 seq ++ bytesLE 1 s.flt.cause ++ bytesLE 1 src ++ bytesLE 2 flags ++
  bytesLE 4 (s.rdP F.PWR_US_TICK_LO_TICK) ++ bytesLE 8 s.flt.causeTime ++ bytesLE 2 (s.rd F.PWR_TDEC_TEMP) ++
  bytesLE 2 (s.rd F.PWR_VIN_VIN_MV) ++ bytesLE 4 (s.rd (F.STR_DIGEST_DIGEST 0)) ++ (allFin 16).flatMap s.recDsc ++
  (allFin 32).flatMap s.recGrove ++ bytesLE 92 0

/-- The target of a DSC's ramp in mV, some microseconds after the cause: it starts at the smaller of the measured voltage and
V_MAX and falls at RAMP_DOWN (R53, R427). [log 95: DEDUCED] -/
def State.rampTarget (s : State) (d : Fin 16) (us : Nat) : Int :=
  min (s.flt.dscAt.getD d.1 (0, 0, 0)).2.1 (s.rd (F.STR_DSC_V_MAX_MV d)) - s.rd (F.DSC_IMG_RAMP_DOWN d) * us

/-- Whether a ramp may end for a reason, some microseconds after the cause (R427): 1 the target has reached 0 V, 2 ramp failure
or a stopped master clock, 3 the end of 160 µs. -/
def State.rampMayEnd (s : State) (d : Fin 16) (reason us : Nat) : Bool :=
  s.ramping d && ((reason == 1 && decide (s.rampTarget d us ≤ 0)) || reason == 2 || (reason == 3 && decide (160 ≤ us)))

/-- DSC_RAMP_OPEN (R427): the ramp of a DSC ends and the stage is opened. [log 95: DEDUCED] -/
def execDscRampOpen (d : Fin 16) (reason us : Nat) (s : State) : Host.Outcome State Fault Refusal :=
  .next (if s.rampMayEnd d reason us then s.endRamp d reason us else s)

/-- FAULT_RECORD_WRITE (R436): the Understory retains the record of a Firebreak once every stage is open, or of a FATAL fault,
among its 4 latest; a FATAL fault's commands end with it. [log 96: DEDUCED] -/
def execFaultRecordWrite (s : State) : Host.Outcome State Fault Refusal :=
  if s.flt.recDue = false ∨ (s.rd F.FLT_STATUS_STATE = 2 ∧ s.flt.ramping ≠ []) then .next s
  else
    let seq := (s.flt.recSeq + 1) % 2 ^ 32
    let body := s.recordBody seq
    let rec_ := body ++ bytesLE 4 (crc32 body)
    let number := fun b : Burst => if (b.firebreak || b.fatal) && b.faultSeq == 0 then { b with faultSeq := seq } else b
    let s : State := { s with
      bursts := s.bursts.map number
      flt := { s.flt with records := (rec_ :: s.flt.records).take 4, recSeq := seq, recDue := false } }
    let s := s.wr F.FLT_STATUS_CAUSE s.flt.cause
    .next (if s.rd F.FLT_STATUS_STATE = 1 then s.interruptCommands else s)

/-- CLEARING_STATE_ENTRY (R326, R331, R428): the Firebreak sequence ends. -/
def execClearingStateEntry (s : State) : Host.Outcome State Fault Refusal :=
  if s.rd F.FLT_STATUS_STATE = 2 ∧ s.flt.recDue = false ∧ s.flt.ramping = [] then
    let s := s.wr F.FLT_STATUS_STATE 3
    let s : State := { s with hq := { s.hq with aer := s.hq.aer ||| 4 } }
    .next s.interruptCommands.noteHeartbeat
  else .next s

end Sys2Proof.Machine
end

