-- ==== Sys2Proof/Machine/Security.lean ====
section
/-! DEFINITION. The security commands (R439 to R464), tamper (R456), CODE_LOAD (R154, R463), SPDM (R465) and the test access
port (R466). -/

namespace Sys2Proof.Machine

/-! ## Statuses and the lifecycle (R441, R448, R450) -/

/-- Bit 31 of DETAIL: the service ran as an approved service (R448). [log 97: DEDUCED] -/
abbrev approved : Nat := 2 ^ 31

/-- Runs a security command on its port: none is accepted before the power-up self-tests have passed (R461). -/
def State.onPort (s : State) (p : Port) (opc : Nat) (run : State → State) : State :=
  if s.on F.SEC_STATUS_ST_DONE then
    match p with
    | .host h => s.begin_ h opc run
    | .sideband => run s
  else s

/-- While APPROVED is 0 a security command completes with LIFECYCLE, or in ERROR with ERROR_STATE (R450, R461). [log 97: DEDUCED] -/
def State.ifApproved (s : State) (p : Port) (run : State → State) : State :=
  if s.on F.SEC_STATUS_APPROVED then run s
  else s.completeP p (if s.rd F.SEC_STATUS_LIFECYCLE = 4 then 0x0F else 0x05)

/-- A change of lifecycle, which ends both ports' roles (R445). -/
def State.setLife (s : State) (life : Nat) : State :=
  if s.rd F.SEC_STATUS_LIFECYCLE = life then s
  else s.wrs [(F.SEC_STATUS_LIFECYCLE, life), (F.SEC_STATUS_HOST_ROLE, 0), (F.SEC_STATUS_SB_ROLE, 0)]

/-- A self-test or health-test failure (R461): ERROR, ST_FAIL, and fault source 23. [log 102: DEDUCED] -/
def State.stFail (s : State) (bits : Nat) : State :=
  let s := (s.wr F.SEC_ST_RESULT_FAILS (s.rd F.SEC_ST_RESULT_FAILS ||| bits)).setLife 4
  ((s.wr F.SEC_STATUS_APPROVED 0).event Ev.sec 4).faultOnce 23 none

/-! ## The random bit generator (R460) -/

/-- A reseed. [log 98: DEDUCED] -/
def State.reseed (s : State) : State :=
  { s.incWrap F.SEC_DRBG_RESEEDS with sec := { s.sec with requests := 0 } }

/-- Bytes of one generate request. [log 98: DEDUCED] -/
def State.draw (s : State) (n : Nat) : List Byte × State :=
  let s := if 2 ^ 20 ≤ s.sec.requests then s.reseed else s
  let l := (List.range n).map fun i => Config.drbgByte (s.sec.drawn + i)
  (l, { s with sec := { s.sec with drawn := s.sec.drawn + n, requests := s.sec.requests + 1 } })

/-- A signature by the identity key; with the key zeroised (R451) the spec states none, and its bytes are free. [log 100: DESIGN CHOICE] -/
def State.identitySign (s : State) (msg : List Byte) : List Byte × State :=
  if s.sec.identity then (ecdsaSign identityKey msg, s)
  else
    let r := s.takeFree
    (bytesLE 96 r.1, r.2)

/-! ## Roles (R442 to R445) -/

/-- The number of a port: 0 host, 1 sideband. -/
def portNum : Port → Nat
  | .host _ => 0
  | .sideband => 1

/-- The nonce, failures, role field and lockout field of a port. -/
def State.nonceOf (s : State) (p : Port) : Option Nonce := if portNum p = 0 then s.sec.hostNonce else s.sec.sbNonce
def State.failsOf (s : State) (p : Port) : Nat := if portNum p = 0 then s.sec.hostFails else s.sec.sbFails
def portRole (p : Port) : Fld := if portNum p = 0 then F.SEC_STATUS_HOST_ROLE else F.SEC_STATUS_SB_ROLE
def portLockout (p : Port) : Fld := if portNum p = 0 then F.SEC_STATUS_LOCKOUT_HOST else F.SEC_STATUS_LOCKOUT_SB
def State.setNonce (s : State) (p : Port) (n : Option Nonce) : State :=
  { s with sec := if portNum p = 0 then { s.sec with hostNonce := n } else { s.sec with sbNonce := n } }
def State.setFails (s : State) (p : Port) (n : Nat) : State :=
  { s with sec := if portNum p = 0 then { s.sec with hostFails := n } else { s.sec with sbFails := n } }

/-- The public key of a role and index. -/
def State.roleKey (s : State) (role index : Nat) : Option Nat := if role = 2 then s.sec.so else s.sec.operators[index]?

/-- A drawn nonce reaches the requester: in host memory, or in the answer over the sideband. -/
def State.giveNonce (s : State) (p : Port) (dest : Nat) (l : List Byte) : State :=
  match p with
  | .host h => { s with host := Mem.puts s.host dest l }.complete h stOk approved
  | .sideband => s.answerWith ([stOk, 0, approved] ++ l.map (·.toNat))

/-- AUTH_BEGIN (R443, R444, R460). -/
def execAuthBegin (p : Port) (role keyIndex dest : Nat) (s : State) : Host.Outcome State Fault Refusal :=
  .next (s.onPort p 0x40 fun s =>
    if !(role == 1 && decide (keyIndex ≤ 7) || role == 2 && keyIndex == 0) then s.completeP p stBadOperand
    else s.ifApproved p fun s =>
      if s.on (portLockout p) then s.completeP p 0x03 approved
      else if (s.roleKey role keyIndex).isNone then s.completeP p 0x04 approved
      else
        let r := s.reseed.draw 48
        (r.2.setNonce p (some ⟨role, keyIndex, r.1, false⟩)).giveNonce p dest r.1)

/-- The message an AUTH_FINISH signs (R443). -/
def authMessage (p : Port) (n : Nonce) : List Byte := n.bytes ++ bytesLE 8 Config.serial ++ bytesLE 1 n.role ++ bytesLE 1 (portNum p)

/-- A failed attempt (R443, R444): counted, and the eighth in a row locks the port out. [log 98: DEDUCED] -/
def State.authFailed (s : State) (p : Port) : State :=
  let n := s.failsOf p + 1
  let s := (s.setFails p n).incSat F.SEC_AUTH_FAIL_COUNT
  let s := if 8 ≤ n then (s.wr (portLockout p) 1).raise Ev.sec (2 ^ 1 + 2 ^ 9) else s.event Ev.sec 1
  s.completeP p 0x01 approved

/-- AUTH_FINISH (R443): the nonce serves one attempt; a signature that verifies gives the port the role. -/
def execAuthFinish (p : Port) (sig : Src) (s : State) : Host.Outcome State Fault Refusal :=
  .next (s.onPort p 0x41 fun s =>
    if s.sourceOk sig 96 = false then s.completeP p stBadOperand
    else s.ifApproved p fun s =>
      match s.source sig 96 with
      | none => s.completeP p stHostReadFailed
      | some l =>
        match s.nonceOf p with
        | none => s.completeP p 0x02 approved
        | some n =>
          let s := s.setNonce p none
          let good := !n.expired && ((s.roleKey n.role n.index).any fun k => ecdsaVerify k (authMessage p n) l)
          if good then (((s.setFails p 0).wr (portRole p) n.role).event Ev.sec 0).completeP p stOk approved n.role
          else s.authFailed p)

/-- LOGOUT (R445). -/
def execLogout (p : Port) (s : State) : Host.Outcome State Fault Refusal :=
  .next (s.onPort p 0x42 fun s => s.ifApproved p fun s => (s.wr (portRole p) 0).completeP p stOk approved)

/-- NONCE_EXPIRY (R443): 10 s have passed since the nonce of a port was drawn. [log 5: DESIGN CHOICE] -/
def execNonceExpiry (sideband : Bool) (s : State) : Host.Outcome State Fault Refusal :=
  let old := fun n : Nonce => { n with expired := true }
  .next { s with sec :=
    if sideband then { s.sec with sbNonce := s.sec.sbNonce.map old } else { s.sec with hostNonce := s.sec.hostNonce.map old } }

/-- LOCKOUT_EXPIRY (R444): 60 s have passed since the lockout of a port. [log 5: DESIGN CHOICE] -/
def execLockoutExpiry (sideband : Bool) (s : State) : Host.Outcome State Fault Refusal :=
  .next (s.wr (if sideband then F.SEC_STATUS_LOCKOUT_SB else F.SEC_STATUS_LOCKOUT_HOST) 0)

/-! ## Provisioning (R454, R455) -/

/-- A provisioning block's counts, and its length. -/
def provCount (l : List Byte) (i : Nat) : Nat := leAt l (0x14 + i) 1
def provLength (l : List Byte) : Nat := 0xD8 + 96 * provCount l 0 + 104 * provCount l 1 + 96 * provCount l 2 + 96

/-- Magic, version, serial, counts, length and reserved fields of a block. -/
def provGood (l : List Byte) : Bool :=
  leAt l 0 4 == 0x56504851 && leAt l 4 2 == 1 && decide (leAt l 6 2 < 2) && leAt l 8 8 == Config.serial % 2 ^ 64 &&
    without (leAt l 0x10 4) 0x11F == 0 && decide (provCount l 0 ≤ 8) && decide (1 ≤ provCount l 1) && decide (provCount l 1 ≤ 4) &&
    decide (provCount l 2 ≤ 4) && provCount l 3 == 0 && l.length == provLength l

/-- Whether the owner key is the owner's by the fuses, and signs the block. [log 99: DEDUCED] -/
def State.provSigned (s : State) (l : List Byte) : Bool :=
  let hash := sha384 ((l.drop 0x18).take 96)
  (match s.sec.ownerHash with
   | some f => f == hash
   | none => true) &&
    ecdsaVerify (leAt l 0x18 96) (l.take (l.length - 96)) (l.drop (l.length - 96))

/-- The keys of a block: the `i`-th operator, image-signing and plug-in key. -/
def provKeys (l : List Byte) (k : Sec) : Sec :=
  let op := 0xD8
  let im := op + 96 * provCount l 0
  let pl := im + 104 * provCount l 1
  { k with
    ownerHash := some (k.ownerHash.getD (sha384 ((l.drop 0x18).take 96)))
    owner := some (leAt l 0x18 96), so := some (leAt l 0x78 96)
    operators := (List.range (provCount l 0)).map fun i => leAt l (op + 96 * i) 96
    imageKeys := (List.range (provCount l 1)).map fun i => (leAt l (im + 104 * i) 8, leAt l (im + 104 * i + 8) 96)
    plugins := (List.range (provCount l 2)).map fun i => leAt l (pl + 96 * i) 96 }

/-- New transport and calibration-signing keys, every content slot erased, and the 288 bytes of R455 in host memory.
[log 100: DESIGN CHOICE] -/
def State.regenerate (s : State) (dest : Nat) : State :=
  let t := privateKey s.sec.pairs
  let c := privateKey (s.sec.pairs + 1)
  let k := { s.sec with transport := some t, calKey := some c, pairs := s.sec.pairs + 2, keys := [], names := [] }
  let s := { s with sec := k }.wrs [(F.SEC_SLOT_MAP_LOADED 0, 0), (F.SEC_SLOT_MAP_LOADED 1, 0)]
  let pub := bytesLE 96 (publicKey t) ++ bytesLE 96 (publicKey c)
  let r := s.identitySign (pub ++ bytesLE 8 Config.serial)
  { r.2 with host := Mem.puts r.2.host dest (pub ++ r.1) }

/-- A block that has passed its checks takes effect. [log 99: DEDUCED] -/
def State.provisionNow (s : State) (l : List Byte) (dest : Nat) : State :=
  let fresh := s.rd F.SEC_STATUS_LIFECYCLE == 1 || leAt l 6 2 == 1
  let s := { s with sec := provKeys l s.sec }
  let s := s.wrs [(F.SEC_POLICY_PERMIT, leAt l 0x10 4 % 32), (F.SEC_STATUS_CONF_IMAGES, fieldOf (leAt l 0x10 4) 8 1)]
  let s := if fresh then s.regenerate dest else s
  let s := (s.setLife 2).wrs [(⟨.sec, 0xE80A0, 0, 5⟩, 0), (F.SEC_STATUS_TAMPERED, 0)]
  (s.extendMr 7 (shaBytes l)).event Ev.sec 8

/-- PROVISION (R454, R455). -/
def execProvision (h : Hdr) (block : Src) (length dest : Nat) (s : State) : Host.Outcome State Fault Refusal :=
  .next (s.onPort (.host h) 0x43 fun s =>
    if s.sourceOk block length = false then s.complete h stBadOperand
    else s.ifApproved (.host h) fun s =>
      match s.source block length with
      | none => s.complete h stHostReadFailed
      | some l =>
        let s := s.reseed
        if provGood l = false then s.complete h 0x06 approved
        else if s.provSigned l = false then s.complete h 0x07 approved
        else (s.provisionNow l dest).complete h stOk approved)

/-! ## Content keys (R452, R453) -/

/-- The bit of a slot in SEC_SLOT_MAP. -/
def State.setSlot (s : State) (slot : Nat) (v : Bool) : State :=
  let f := F.SEC_SLOT_MAP_LOADED (slot / 32)
  s.wr f (if v then s.rd f ||| 2 ^ (slot % 32) else without (s.rd f) (2 ^ (slot % 32)))

/-- Replaces the entry of a slot. -/
def slotPut (slot v : Nat) (l : List (Nat × Nat)) : List (Nat × Nat) := (slot, v) :: l.filter fun e => e.1 != slot

/-- The key of a KEY_LOAD block: "QHCKWRAP" is its FixedInfo's label, bytes 0x60 to 0x6F its authenticated data (R452). -/
def State.unwrapKey (s : State) (l : List Byte) : Option Nat :=
  let aad := (l.drop 0x60).take 16
  s.sec.transport.bind fun k => keyUnwrap k (fixedInfo [0x51, 0x48, 0x43, 0x4B, 0x57, 0x52, 0x41, 0x50] aad) aad l

/-- KEY_LOAD (R452). -/
def execKeyLoad (h : Hdr) (block : Src) (s : State) : Host.Outcome State Fault Refusal :=
  .next (s.onPort (.host h) 0x44 fun s =>
    if s.sourceOk block 160 = false then s.complete h stBadOperand
    else s.ifApproved (.host h) fun s =>
      if s.rd F.SEC_STATUS_LIFECYCLE ≠ 2 then s.complete h 0x05
      else match s.source block 160 with
        | none => s.complete h stHostReadFailed
        | some l =>
          let slot := leAt l 0x60 2
          if 63 < slot ∨ leAt l 0x62 2 ≠ 0 ∨ leAt l 0x64 4 ≠ 0 then s.complete h 0x06 approved
          else if (s.contentKey slot).isSome then s.complete h 0x09 approved
          else match s.unwrapKey l with
            | none => s.complete h 0x08 approved
            | some key =>
              let s := { s with sec := { s.sec with
                keys := slotPut slot key s.sec.keys, names := slotPut slot (leAt l 0x68 8) s.sec.names } }
              (((s.setSlot slot true).event Ev.sec 5).extendMr 7 (shaBytes ((l.drop 0x60).take 16))).complete h stOk approved slot)

/-- KEY_ERASE (R453). [log 101: DEDUCED] -/
def execKeyErase (h : Hdr) (slot : Nat) (s : State) : Host.Outcome State Fault Refusal :=
  .next (s.onPort (.host h) 0x45 fun s => s.ifApproved (.host h) fun s =>
    if 63 < slot ∨ (s.contentKey slot).isNone then s.complete h 0x0B approved
    else if s.forest.segs.any fun x => x.keySlot == slot then s.complete h 0x0A approved
    else
      let s := { s with sec := { s.sec with
        keys := s.sec.keys.filter fun e => e.1 != slot, names := s.sec.names.filter fun e => e.1 != slot } }
      (((s.setSlot slot false).event Ev.sec 5).extendMr 7 (shaBytes (bytesLE 2 slot))).complete h stOk approved)

/-! ## Zeroisation, tamper, release (R429, R456, R457) -/

/-- ZEROISE (R457): every burst is aborted, and the keys go once the last has entered Ended. -/
def execZeroise (h : Hdr) (s : State) : Host.Outcome State Fault Refusal :=
  .next (s.onPort (.host h) 0x46 fun s => s.ifApproved (.host h) fun s =>
    ({ s with sec := { s.sec with zero := s.sec.zero ++ [(h, false)] } }.cutAll true).zeroCheck)

/-- RELEASE (R429, R430, R448). -/
def execRelease (p : Port) (s : State) : Host.Outcome State Fault Refusal :=
  .next (s.onPort p 0x47 fun s =>
    if portNum p = 1 ∧ s.rd F.SEC_STATUS_SB_ROLE = 0 then s.completeP p stRoleDenied
    else s.ifApproved p fun s =>
      if s.rd F.FLT_STATUS_STATE ≠ 3 then s.completeP p 0x0E approved
      else if s.releaseOk then s.release.completeP p stOk approved else s.release.completeP p 0x0D approved)

/-- DEBUG_UNLOCK (R457): refused with BUSY while any burst is in a stage from Declared to Ended. -/
def execDebugUnlock (h : Hdr) (confirm : Nat) (s : State) : Host.Outcome State Fault Refusal :=
  .next (s.onPort (.host h) 0x4A fun s =>
    if confirm ≠ 0x55474244 then s.complete h stBadOperand
    else s.ifApproved (.host h) fun s =>
      if s.bursts.isEmpty = false then s.complete h 0x0C approved else s.zeroiseBy h true)

/-- The security commands that a tamper event ends before they begin (R458). [log 103: DEDUCED] -/
def State.tamperCommands (s : State) : State :=
  let cut := fun f : InFlight => !f.begun && (f.opc == 0x43 || f.opc == 0x44)
  let wait := s.hq.inFlight.filter cut
  let mark := fun f : InFlight => if cut f then { f with begun := true } else f
  let s := { s with hq := { s.hq with inFlight := s.hq.inFlight.map mark } }
  wait.foldl (fun s f => s.complete f.hdr 0x10) s

/-- TAMPER_EVENT (R456, R458): 0 TAMPER_L, 1 mesh, 2 temperature, 3 supply glitch. [log 103: DEDUCED] -/
def execTamperEvent (kind : Nat) (s : State) : Host.Outcome State Fault Refusal :=
  if 3 < kind then .next s
  else
    let s := (s.wr ⟨.sec, 0xE80A0, kind, 1⟩ 1).wr F.SEC_TAMPER_TICK_TICK (s.rdP F.PWR_US_TICK_LO_TICK)
    let s := if s.power.present then s.firebreak 4 0xFF false false else s
    let s := (s.event Ev.sec 2).zeroiseNow
    .next (((s.wr F.SEC_STATUS_TAMPERED 1).structInterrupt).tamperCommands)

/-! ## Self-tests and random bytes (R447, R460, R461) -/

/-- SELF_TEST (R461): the known-answer tests run on demand; `fails` has the bit of each test that failed. [log 102: DEDUCED] -/
def execSelfTest (h : Hdr) (fails : Nat) (s : State) : Host.Outcome State Fault Refusal :=
  .next (s.onPort (.host h) 0x49 fun s =>
    let ran := if s.on F.SEC_STATUS_APPROVED then approved else 0
    let bad := fails % 256
    let kept := s.rd F.SEC_ST_RESULT_FAILS / 256 * 256
    let s := if bad = 0 then s.wr F.SEC_ST_RESULT_FAILS kept else (s.wr F.SEC_ST_RESULT_FAILS kept).stFail bad
    s.complete h stOk ran (s.rd F.SEC_ST_RESULT_FAILS))

/-- RANDOM (R447, R460, R461): a health test that fails on the way puts the boundary in ERROR. [log 102: DEDUCED] -/
def execRandom (h : Hdr) (dest len : Nat) (healthFail : Bool) (s : State) : Host.Outcome State Fault Refusal :=
  .next (s.onPort (.host h) 0x4B fun s =>
    if len = 0 ∨ 4096 < len then s.complete h stBadOperand
    else s.ifApproved (.host h) fun s =>
      if healthFail then (s.stFail (2 ^ 9)).complete h 0x0F
      else
        let r := s.draw len
        { r.2 with host := Mem.puts r.2.host dest r.1 }.complete h stOk approved)

/-! ## Quotes (R464) -/

/-- The first 480 bytes of a quote. -/
def State.quoteBody (s : State) (nonce : List Byte) (mask : Nat) : List Byte :=
  bytesLE 4 0x54514851 ++ bytesLE 2 1 ++ bytesLE 1 mask ++ bytesLE 1 (s.rd F.SEC_STATUS_LIFECYCLE) ++ bytesLE 8 Config.serial ++
  (nonce ++ List.replicate 32 0).take 32 ++ (List.range 4).flatMap (fun k => bytesLE 4 (s.rd (F.SEC_ARB_COUNT k))) ++
  (List.range 8).flatMap (fun r => bytesLE 4 (s.rd (F.SEC_MR_CNT_COUNT r))) ++
  (allFin 8).flatMap fun r => bytesLE 48 (if bitOf mask r.1 then s.sec.mr[r] else 0)

/-- QUOTE (R464). -/
def execQuote (h : Hdr) (dest : Nat) (nonce : List Byte) (mask : Nat) (s : State) : Host.Outcome State Fault Refusal :=
  .next (s.onPort (.host h) 0x48 fun s => s.ifApproved (.host h) fun s =>
    let body := s.quoteBody nonce mask
    let r := s.identitySign body
    { r.2 with host := Mem.puts r.2.host dest (body ++ r.1) }.complete h stOk approved)

/-! ## CODE_LOAD (R154, R283, R303, R462, R463) -/

/-- A code load that has passed its checks: the pages of the same CODE_ID give way, the new pages are written in one run of the
code region, the cores of both masks lose their instruction caches, and moves of the old pages are no longer wanted. [log 104: DEDUCED] -/
def State.codeLoadNow (s : State) (h : Hdr) (l : List Byte) (codeId coreMask : Nat) (plugin : Bool) (msg : List Byte) : State :=
  let old := s.forest.code.filter fun k => k.codeId == codeId
  let n := l.length / canopyPage
  let stays := fun m : CodeMove => !(old.any fun k => k.page == m.page)
  let t := { s with forest := { s.forest with
    code := s.forest.code.filter fun k => k.codeId != codeId, codeMoves := s.forest.codeMoves.filter stays } }
  match t.canopyRun 0 n with
  | none => (s.event Ev.frst 5).complete h 0x01 coreMask
  | some p =>
    let t := (t.zeroPages false (old.map (·.page))).takePages 0 [(p, n)]
    let new := (List.range n).map fun i => (⟨p + i, codeId, coreMask, plugin⟩ : CodePage)
    let mask := old.foldl (fun m k => m ||| k.mask) coreMask
    let t := { t with
      canopy := Mem.puts t.canopy (p * canopyPage) l
      forest := { t.forest with code := t.forest.code ++ new } }
    let t := (allFin 8).foldl (fun s c => if bitOf mask c.1 then s.modCore c fun k => { k with icacheValid := false } else s) t
    (((t.unaskPark (old.foldl (fun m k => m ||| k.mask) 0)).evacCheck).extendMr (if plugin then 6 else 3) (shaBytes msg)).complete h stOk

/-- CODE_LOAD (R154, R303, R463). [log 104: DEDUCED] -/
def execCodeLoad (h : Hdr) (src : Src) (length codeId coreMask : Nat) (plugin : Bool) (sig : Src) (s : State) :
    Host.Outcome State Fault Refusal :=
  .next (s.begin_ h 0x13 fun s =>
    if length = 0 ∨ length % canopyPage ≠ 0 ∨ s.sourceOk src length = false ∨ s.sourceOk sig 112 = false then
      s.complete h stBadOperand
    else if plugin && !s.secOpt 0 then s.complete h 0x0A coreMask
    else match s.source src length, s.source sig 112 with
      | some l, some g =>
        let msg := l ++ bytesLE 2 codeId ++ bytesLE 1 coreMask ++ bytesLE 1 (b2n plugin)
        let key := if plugin then s.sec.plugins[leAt g 0 1]? else some Config.firmwareKey
        if (key.any fun k => ecdsaVerify k msg ((g.drop 16).take 96)) = false then s.complete h 0x0B coreMask
        else if s.forest.code.any fun k => k.codeId == codeId && s.runsFrom k.page then s.codeBusy.complete h 0x09 coreMask
        else s.codeLoadNow h l codeId coreMask plugin msg
      | _, _ => s.complete h stHostReadFailed)

/-! ## SPDM (R465) -/

/-- The engine answers SPDM once its self-tests have passed and outside ERROR; otherwise the answer is ERROR. [log 105: PRESUMED] -/
def State.spdm (s : State) (run : State → State) : State :=
  if s.on F.SEC_STATUS_ST_DONE && s.rd F.SEC_STATUS_LIFECYCLE != 4 then run s else s.answerWith [0x7F]

/-- An answer that the identity key signs; the engine does not use that key in DEBUG (R457). [log 105: PRESUMED] -/
def State.spdmSigned (s : State) (body : List Byte) : State :=
  if s.rd F.SEC_STATUS_LIFECYCLE = 3 then s.answerWith [0x7F]
  else
    let r := s.identitySign body
    r.2.answerWith ((body ++ r.1).map (·.toNat))

/-- GET_VERSION: 1.2 only. -/
def execGetVersion (s : State) : Host.Outcome State Fault Refusal := .next (s.spdm fun s => s.answerWith [0x12])

/-- GET_CAPABILITIES: certificates, challenge, measurements with a signature; no key exchange, no sessions. [log 105: PRESUMED] -/
def execGetCapabilities (s : State) : Host.Outcome State Fault Refusal := .next (s.spdm fun s => s.answerWith [0x16])

/-- NEGOTIATE_ALGORITHMS: of the offered asymmetric (4 bytes) and hash algorithms (4 bytes) ECDSA P-384 and SHA-384 only. -/
def execNegotiateAlgorithms (offer : List Byte) (s : State) : Host.Outcome State Fault Refusal :=
  .next (s.spdm fun s => s.answerWith [leAt offer 0 4 &&& 0x80, leAt offer 4 4 &&& 0x02])

/-- The certificate chain of slot 0. -/
def State.chain (s : State) : List Byte := s.flashBytes 0x40000 (min 0x10000 Config.chainLength)

/-- GET_DIGESTS: slot mask 1 and the digest of the chain. -/
def execGetDigests (s : State) : Host.Outcome State Fault Refusal :=
  .next (s.spdm fun s => s.answerWith (1 :: (shaBytes s.chain).map (·.toNat)))

/-- GET_CERTIFICATE: a part of the chain, and how much of it remains. -/
def execGetCertificate (off len : Nat) (s : State) : Host.Outcome State Fault Refusal :=
  .next (s.spdm fun s =>
    let part := (s.chain.drop off).take len
    s.answerWith (part.length :: (s.chain.length - off - part.length) :: part.map (·.toNat)))

/-- CHALLENGE: the chain's digest and the requester's nonce under the identity key's signature. -/
def execChallenge (nonce : List Byte) (s : State) : Host.Outcome State Fault Refusal :=
  .next (s.spdm fun s => s.spdmSigned (shaBytes s.chain ++ nonce.take 32))

/-- GET_MEASUREMENTS: index 0 asks how many blocks there are, 1 to 8 for MR[index − 1], 0xFF for all. [log 105: PRESUMED] -/
def execGetMeasurements (index : Nat) (signed : Bool) (nonce : List Byte) (s : State) : Host.Outcome State Fault Refusal :=
  let blocks := (allFin 8).flatMap fun r => if index = r.1 + 1 ∨ index = 0xFF then bytesLE 1 (r.1 + 1) ++ bytesLE 48 s.sec.mr[r] else []
  let body := if index = 0 then bytesLE 1 8 else blocks
  .next (s.spdm fun s =>
    if 8 < index ∧ index ≠ 0xFF then s.answerWith [0x7F]
    else if signed then s.spdmSigned (body ++ nonce.take 32) else s.answerWith (body.map (·.toNat)))

/-! ## The test access port (R466) -/

/-- Whether the port permits an instruction: 0 BYPASS, 1 IDCODE, 2 SAMPLE/PRELOAD, 3 EXTEST, 4 CLAMP, 5 HIGHZ, 6 core debug,
7 scan dump, 8 fuse access. [log 106: PRESUMED] -/
def State.tapPermits (s : State) (ir : Nat) : Bool :=
  let life := s.rd F.SEC_STATUS_LIFECYCLE
  if ir ≤ 2 then true
  else if ir ≤ 5 then (s.secOpt 4 || life == 1) && s.bursts.isEmpty
  else decide (ir ≤ 8) && (life == 0 || life == 3)

/-- TAP_INSTRUCTION (R466): a refused instruction loads BYPASS in its place. [log 106: PRESUMED] -/
def execTapInstruction (ir : Nat) (s : State) : Host.Outcome State Fault Refusal :=
  if s.tapPermits ir then .next { s with tap := ir } else .next ({ s with tap := 0 }.event Ev.sec 6)

end Sys2Proof.Machine
end

