-- ==== Sys2Proof/Machine/Update.lean ====
section
/-! DEFINITION. What the flash holds (R467 to R472), the checks of a slot (R474, R478), the boot record, confirmation (R477), and
the update service (R479, R480). Kinds: 0 FW, 1 STR, 2 CAL, 3 BOARD. -/

namespace Sys2Proof.Machine

/-! ## The boot record (R471, R472) -/

/-- The record that reads where no copy is valid: SEQ 0, slot A active and confirmed for every kind. -/
def blankRecord : List Byte :=
  bytesLE 12 0 ++ (List.replicate 4 (bytesLE 1 0 ++ bytesLE 1 1 ++ bytesLE 6 0)).flatten ++ bytesLE 20 0

/-- A copy of the record, where it is valid. [log 108: DEDUCED] -/
def State.bootCopy (s : State) (copy : Nat) : Option (List Byte) :=
  let l := s.flashBytes (0x10000 * copy) 64
  if leAt l 0 4 = 0x52424851 ∧ leAt l 4 2 = 1 ∧ leAt l 0x3C 4 = crc32 (l.take 0x3C) then some l else none

/-- The ruling copy and record; copy 0 counts as the ruling one where neither is valid. [log 108: DEDUCED] -/
def State.ruling (s : State) : Nat × List Byte :=
  match s.bootCopy 0, s.bootCopy 1 with
  | some a, some b => if leAt a 8 4 < leAt b 8 4 then (1, b) else (0, a)
  | some a, none => (0, a)
  | none, some b => (1, b)
  | none, none => (0, blankRecord)

/-- A kind's entry: ACTIVE, CONFIRMED, TRIAL, FLAGS. -/
structure BootEnt where
  active : Nat
  confirmed : Nat
  trial  : Nat
  flags  : Nat
  deriving DecidableEq, Repr

/-- The entry of a kind in a record. -/
def bootEnt (l : List Byte) (k : Nat) : BootEnt :=
  let o := 0x0C + 8 * k
  ⟨leAt l o 1 % 2, leAt l (o + 1) 1, leAt l (o + 2) 1, leAt l (o + 3) 1⟩

/-- What a change makes of an entry (R474, R477, R479). [log 109: DEDUCED] -/
def RecChange.apply (c : RecChange) (e : BootEnt) : BootEnt :=
  match c with
  | .activate => ⟨1 - e.active, 0, 3, 0⟩
  | .confirm => ⟨e.active, 1, 0, 0⟩
  | .revert => ⟨1 - e.active, 1, 0, e.flags ||| 1⟩
  | .trial => ⟨e.active, 0, e.trial - 1, e.flags⟩
  | .fallback => ⟨1 - e.active, 1, 0, e.flags ||| 2⟩

/-- The new record: one change, and SEQ one above. -/
def newRecord (l : List Byte) (k : Nat) (c : RecChange) : List Byte :=
  let ent := fun i : Nat =>
    let e := if i = k then c.apply (bootEnt l i) else bootEnt l i
    bytesLE 1 e.active ++ bytesLE 1 e.confirmed ++ bytesLE 1 e.trial ++ bytesLE 1 e.flags ++ bytesLE 4 0
  let body := bytesLE 4 0x52424851 ++ bytesLE 2 1 ++ bytesLE 2 0 ++ bytesLE 4 (leAt l 8 4 + 1) ++
    (List.range 4).flatMap ent ++ bytesLE 16 0
  body ++ bytesLE 4 (crc32 body)

/-- Shows an entry in GLB_BOOT_KIND. -/
def State.showEnt (s : State) (k : Nat) (e : BootEnt) : State :=
  s.wrs [(F.GLB_BOOT_KIND_ACTIVE k, e.active), (F.GLB_BOOT_KIND_CONFIRMED k, b2n (e.confirmed == 1)), (F.GLB_BOOT_KIND_TRIAL k, e.trial),
    (F.GLB_BOOT_KIND_REVERTED k, e.flags), (F.GLB_BOOT_KIND_FALLBACK k, e.flags / 2)]

/-! ## The checks of a slot (R468 to R470, R474, R478, R480) -/

/-- The result codes of R480. -/
abbrev updOk : Nat := 0
abbrev updBadImage : Nat := 1
abbrev updBadSignature : Nat := 2
abbrev updRollback : Nat := 3

/-- The first test that fails gives the result. -/
def firstResult : List (Bool × Nat) → Nat
  | [] => updOk
  | (bad, r) :: rest => if bad then r else firstResult rest

/-- A security version that a kind's counter refuses: below it, or above 64 (R478). -/
def State.svnBad (s : State) (k svn : Nat) : Bool := decide (svn < s.rd (F.SEC_ARB_COUNT k)) || decide (64 < svn)

/-- A firmware slot (R468). -/
def State.fwCheck (s : State) (slot : Nat) : Nat :=
  let base := slotBase 0 slot
  let h := s.flashBytes base 0x100
  let n := leAt h 0x10 4
  let part := fun o : Nat => decide (n - 128 < leAt h o 4 + leAt h (o + 4) 4)
  let form := leAt h 0 4 != 0x57464851 || leAt h 4 2 != 1 || nonzero h 6 2 || leAt h 8 4 != 0x8128 || leAt h 0xC 1 != 0xA1 ||
    nonzero h 0xD 3 || n % 64 != 0 || decide (8388608 < n) || decide (n < 0x180) || nonzero h 0x34 4 || nonzero h 0x48 184 ||
    part 0x18 || part 0x20 || part 0x28 || leAt h 0x2C 4 % 65536 != 0
  if form then updBadImage
  else
    let img := s.flashBytes base n
    let sig := (img.drop (n - 128)).take 96
    firstResult [
      (nonzero img (n - 32) 32, updBadImage),
      (!ecdsaVerify Config.firmwareKey (img.take (n - 128)) sig, updBadSignature),
      (s.svnBad 0 (leAt h 0x14 4), updRollback)]

/-- The structure image of a slot: as many bytes as its header names. -/
def State.strImage (s : State) (slot : Nat) : List Byte :=
  s.flashBytes (slotBase 1 slot) (min (leAt (s.flashBytes (slotBase 1 slot) 0x80) 0x10 4) (2 ^ 20))

/-- A structure slot (R469): header, signature, security version. -/
def State.strCheck (s : State) (slot : Nat) : Nat :=
  let img := s.strImage slot
  match headerFlaw img (leAt img 0x10 4), s.signatureFlaw img with
  | some _, _ => updBadImage
  | none, some f => if f.code = 0x09 then updRollback else if f.code = 0x10 then updBadImage else updBadSignature
  | none, none => updOk

/-- Units of each group in a calibration record. -/
def groupUnits (g : Nat) : Nat := [1, 5, 16, 16, 36, 128, 128].getD g 0

/-- Bytes of a group's section, and where the section begins. -/
def sectionLen (g : Nat) : Nat := 8 + groupUnits g * (4 * unitVals g + 1)
def sectionOff (g : Nat) : Nat := 64 + ((List.range g).map sectionLen).sum

/-- Bytes of a calibration record (R411). -/
def recordLen : Nat := sectionOff 7 + 128

/-- The calibration record of a slot. -/
def State.calRecord (s : State) (slot : Nat) : List Byte := s.flashBytes (slotBase 2 slot) recordLen

/-- Whether a record's form, module and sections are right (R411). -/
def recordForm (l : List Byte) : Bool :=
  leAt l 0 4 == 0x41434851 && leAt l 4 2 == 1 && leAt l 6 2 == 7 && leAt l 8 8 == Config.serial % 2 ^ 64 &&
    !nonzero l 0x14 4 && !nonzero l 0x21 31 &&
    ((List.range 7).all fun g =>
      leAt l (sectionOff g) 1 == g && leAt l (sectionOff g + 1) 1 == groupUnits g && leAt l (sectionOff g + 4) 4 == sectionLen g) &&
    !nonzero l (recordLen - 32) 32

/-- A calibration slot (R411, R412, R469): the record and its seal. -/
def State.calCheck (s : State) (slot : Nat) : Nat :=
  if leAt (s.flashBytes (slotBase 2 slot) 4) 0 4 ≠ 0x41434851 then updBadImage
  else
    let l := s.calRecord slot
    let tail_ := s.flashBytes (slotBase 2 slot + (recordLen + 63) / 64 * 64) 160
    let key := s.sec.calKey.map publicKey
    let signed := fun (msg sig : List Byte) => key.any fun k => ecdsaVerify k msg sig
    firstResult [
      (!recordForm l || leAt tail_ 0 4 != 0x4C534851 || nonzero tail_ 8 8, updBadImage),
      (!signed (l.take (recordLen - 128)) ((l.drop (recordLen - 128)).take 96), updBadSignature),
      (leAt tail_ 16 48 != sha384 l || !signed (tail_.take 64) (tail_.drop 64), updBadSignature),
      (s.svnBad 2 (leAt tail_ 4 4), updRollback)]

/-- The board description of a slot, without its trailer, and the trailer. -/
def State.boardBytes (s : State) (slot : Nat) : List Byte × List Byte :=
  let base := slotBase 3 slot
  let n := 64 + 8 * min 1024 (leAt (s.flashBytes base 64) 6 2)
  (s.flashBytes base n, s.flashBytes (base + n) 128)

/-- The offsets a board description may write (R470). -/
def boardOffset (a : Nat) : Bool :=
  a == F.DMC_GEOM_RATE.addr || a == F.TIM_MFL_ASYM_ASYM.addr ||
  ((List.range 8).any fun n => a == (F.MFL_LANE_CTRL_RETRAIN n).addr) ||
  ((List.range 128).any fun c => a == (F.TMG_PE_SPLIT_SPLIT c).addr) ||
  (List.range 16).any fun d => a == (F.CMP_RSHUNT_UOHM d).addr || a == (F.PGN_PHASE_SPHASE d).addr

/-- The entries of a board description: offset and value. [log 113: DEDUCED] -/
def boardEntries (l : List Byte) : List (Nat × Nat) :=
  (List.range (leAt l 6 2)).map fun i => (leAt l (64 + 8 * i) 4, leAt l (68 + 8 * i) 4)

/-- A board slot (R470). -/
def State.boardCheck (s : State) (slot : Nat) : Nat :=
  let (l, t) := s.boardBytes slot
  let key := cellGet (leAt l 8 8) s.sec.imageKeys
  firstResult [
    (leAt l 0 4 != 0x44424851 || leAt l 4 2 != 1 || decide (1024 < leAt l 6 2) || nonzero l 0x10 48 || nonzero t 96 32, updBadImage),
    (!((boardEntries l).all fun e => boardOffset e.1), updBadImage),
    (!(key.any fun k => ecdsaVerify k l (t.take 96)), updBadSignature)]

/-- The check of a slot of a kind (R474). -/
def State.slotCheck (s : State) (k slot : Nat) : Nat :=
  match k with
  | 0 => s.fwCheck slot
  | 1 => s.strCheck slot
  | 2 => s.calCheck slot
  | _ => s.boardCheck slot

/-- The security version a slot carries; 0 for BOARD. -/
def State.slotSvn (s : State) (k slot : Nat) : Nat :=
  match k with
  | 0 | 1 => leAt (s.flashBytes (slotBase k slot + 0x14) 4) 0 4
  | 2 => leAt (s.flashBytes (slotBase 2 slot + (recordLen + 63) / 64 * 64 + 4) 4) 0 4
  | _ => 0

/-- Raises a kind's anti-rollback counter to a version of at most 64, and burns the matching fuse steps (R478). [log 110: DEDUCED] -/
def State.raiseArb (s : State) (k svn : Nat) : State :=
  if 2 < k ∨ svn ≤ s.rd (F.SEC_ARB_COUNT k) ∨ 64 < svn then s
  else { s.wr (F.SEC_ARB_COUNT k) svn with sec := { s.sec with arbFuse := upd s.sec.arbFuse (fin 3 k) fun _ => svn } }

/-! ## Record writes and confirmation (R472, R476, R477) -/

/-- The confirmation timer stops once every active slot is confirmed (R476). [log 117: DEDUCED] -/
def State.timerCheck (s : State) : State :=
  if (List.range 4).all fun k => s.on (F.GLB_BOOT_KIND_CONFIRMED k) then
    { s.wr F.GLB_BOOT_TIMER_SECONDS 0 with boot := { s.boot with timer := false } }
  else s

/-- BOOT_RECORD_WRITTEN (R472, R477, R478): the oldest change makes a whole new record in the copy that does not rule. A torn
write leaves a copy without a valid CRC, and the other copy rules on. [log 108: DEDUCED] -/
def execBootRecordWritten (torn : Bool) (s : State) : Host.Outcome State Fault Refusal :=
  match s.boot.changes with
  | [] => .next s
  | (k, c) :: rest =>
    let (copy, l) := s.ruling
    let n := newRecord l k c
    let base := 0x10000 * (1 - copy)
    let s := s.flashErase base 0x10000
    if torn then .next (s.flashPuts base (n.take 32))
    else
      let s := { s.flashPuts base n with boot := { s.boot with changes := rest } }
      let s := s.wrs [(F.GLB_BOOT_SEQ_SEQ, leAt n 8 4), (F.GLB_BOOT_STAT_COPY, 1 - copy)]
      let e := bootEnt n k
      let s := s.showEnt k e
      if c = RecChange.confirm then
        let s := s.wr F.GLB_BOOT_CONFIRM_KIND (without (s.rd F.GLB_BOOT_CONFIRM_KIND) (2 ^ k))
        .next ((s.event Ev.glb 4).raiseArb k (s.slotSvn k e.active)).timerCheck
      else .next s

/-- Confirms the kinds of a mask (R477): a kind already confirmed, or whose confirm waits, is left alone. [log 110: DEDUCED] -/
def State.bootConfirm (s : State) (w : Nat) : State :=
  (List.range 4).foldl (fun s k =>
    if bitOf w k && !s.on (F.GLB_BOOT_KIND_CONFIRMED k) && !bitOf (s.rd F.GLB_BOOT_CONFIRM_KIND) k then
      { s.wr F.GLB_BOOT_CONFIRM_KIND (s.rd F.GLB_BOOT_CONFIRM_KIND ||| 2 ^ k) with
        boot := { s.boot with changes := s.boot.changes ++ [(k, RecChange.confirm)] } }
    else s) s

/-- A posted-write fault with the reason ROLE for a register of the window (R327). -/
def State.roleFault (s : State) (id addr : Nat) : State :=
  s.pwFault { reason := 6, win := 0, firstBe := 15, lastBe := 0, len := 1, off := addr, reqId := id, page := 0, stamp := 0 }

/-- GLB_BOOT_CONFIRM (R477): written by site cores in machine mode only. -/
def execGlbBootConfirm (req : Req) (w : Word) (s : State) : Host.Outcome State Fault Refusal :=
  match req with
  | .host id => .next (s.roleFault id F.GLB_BOOT_CONFIRM_KIND.addr)
  | .core c =>
    if s.sched.cores[c].machineMode then .next (s.bootConfirm w.toNat)
    else .next (s.coreTrap c 7 F.GLB_BOOT_CONFIRM_KIND.addr)
  | .sideband => .next s

/-- CONFIRMATION_TIMER_EXPIRY (R476): 60 s from the main die leaving reset, the module resets as if RESET_L had been held low.
[log 5: DESIGN CHOICE; log 117: DEDUCED] -/
def execConfirmationTimerExpiry (s : State) : Host.Outcome State Fault Refusal :=
  if s.boot.timer && decide (60 * 800000000 ≤ s.tim.raw) then
    let s := s.mainReset
    .next { s with boot := { s.boot with timerReset := true } }
  else .next s

/-! ## The update service (R479, R480) -/

/-- Bytes of a slot of a kind (R467). -/
def slotSize (k : Nat) : Nat := [0x800000, 0x100000, 0x100000, 0x10000].getD k 0

/-- The slot of a kind that does not hold the active content. -/
def State.inactive (s : State) (k : Nat) : Nat := 1 - s.rd (F.GLB_BOOT_KIND_ACTIVE k)

/-- An operation ends (R480): a failed one leaves STATE at IDLE. -/
def State.updEnd (s : State) (state result detail : Nat) : State :=
  let s := s.wrs [(F.GLB_UPD_STATUS_STATE, if result = updOk then state else 0), (F.GLB_UPD_STATUS_RESULT, result), (F.GLB_UPD_STATUS_DETAIL, detail)]
  { s with boot := { s.boot with op := none } }.event Ev.glb (if result = updOk then 0 else 1)

/-- Starts an operation by GO (R479); `img` holds what a download reads, or none where its read fails. A download erases its slot
as it starts, so a reset in its course leaves a slot that fails its checks (R480). While an operation runs, GO ends with BUSY, and
the running one goes on. [log 115: DESIGN CHOICE] -/
def State.updStart (s : State) (op kind : Nat) (srcOk : Bool) (len : Nat) (img : Option (List Byte)) : State :=
  let st := s.rd F.GLB_UPD_STATUS_STATE
  let same := s.rd F.GLB_UPD_STATUS_KIND == kind
  let unconfirmed := !s.on (F.GLB_BOOT_KIND_CONFIRMED kind)
  if st = 1 ∨ st = 3 ∨ st = 5 then (s.wr F.GLB_UPD_STATUS_RESULT 7).event Ev.glb 1
  else
    let s := s.wr F.GLB_UPD_STATUS_KIND kind
    let run := fun (state : Nat) (bytes : Option (List Byte)) =>
      { s.wr F.GLB_UPD_STATUS_STATE state with boot := { s.boot with op := some (op, kind, bytes) } }
    if op = 0 ∨ 4 < op ∨ (s.rd F.GLB_BOOT_STAT_STAGE = 3 ∧ kind ≠ 0) then s.updEnd 0 6 0
    else if op = 4 then s.updEnd 0 updOk 0
    else if op = 1 then
      if unconfirmed then s.updEnd 0 8 0
      else if slotSize kind < len then s.updEnd 0 updBadImage 0
      else if srcOk = false then s.updEnd 0 5 0
      else (run 1 img).flashErase (slotBase kind (s.inactive kind)) (slotSize kind)
    else if op = 2 then (if st = 2 ∧ same then run 3 none else s.updEnd 0 6 0)
    else if !(st == 4 && same) then s.updEnd 0 6 0
    else if unconfirmed then s.updEnd 0 8 0
    else
      let s := run 5 none
      { s with boot := { s.boot with changes := s.boot.changes ++ [(kind, RecChange.activate)] } }

/-- The update registers are the security officer's on the host port; another host write is a posted-write fault, and a core's
store to them raises a store access fault (R479). -/
def State.updWrite (s : State) (req : Req) (addr : Nat) (run : State → State) : State :=
  match req with
  | .host id => if s.rd F.SEC_STATUS_HOST_ROLE = 2 then (run s).retire else s.roleFault id addr
  | .core c => s.coreTrap c 7 addr
  | .sideband => s

/-- GO with an operation and a kind written to GLB_UPD_CMD. [log 115: DESIGN CHOICE; log 136: DESIGN CHOICE] -/
def State.updGo (s : State) (op kind : Nat) (host : Option (List Byte)) : State :=
  let src : Src := ⟨s.rdP F.GLB_UPD_SRC_LO_ADDR, host⟩
  let len := s.rd F.GLB_UPD_LEN_BYTES
  let s := s.wrs [(F.GLB_UPD_CMD_OP, op), (F.GLB_UPD_CMD_KIND, kind)]
  s.updStart op (kind % 4) (s.sourceOk src len) len (s.source src len)

/-- DOWNLOAD (R479): the source and length, then GO. [log 136: DESIGN CHOICE] -/
def execDownload (req : Req) (kind : Nat) (src : Src) (len : Nat) (s : State) : Host.Outcome State Fault Refusal :=
  .next (s.updWrite req F.GLB_UPD_CMD_OP.addr fun s =>
    ((s.wrP F.GLB_UPD_SRC_LO_ADDR src.addr).wr F.GLB_UPD_LEN_BYTES len).updGo 1 kind src.host)

/-- VERIFY (R479). -/
def execVerify (req : Req) (kind : Nat) (s : State) : Host.Outcome State Fault Refusal :=
  .next (s.updWrite req F.GLB_UPD_CMD_OP.addr fun s => s.updGo 2 kind none)

/-- ACTIVATE (R479). -/
def execActivate (req : Req) (kind : Nat) (s : State) : Host.Outcome State Fault Refusal :=
  .next (s.updWrite req F.GLB_UPD_CMD_OP.addr fun s => s.updGo 3 kind none)

/-- ABANDON (R479). -/
def execAbandon (req : Req) (kind : Nat) (s : State) : Host.Outcome State Fault Refusal :=
  .next (s.updWrite req F.GLB_UPD_CMD_OP.addr fun s => s.updGo 4 kind none)

/-- The result of a VERIFY: the checks of R474, and for STR those of R60. -/
def State.verifyResult (s : State) (k : Nat) : Nat × Nat :=
  let slot := s.inactive k
  let r := s.slotCheck k slot
  if r ≠ updOk ∨ k ≠ 1 then (r, 0)
  else
    let img := s.strImage slot
    match s.checkImage img img.length with
    | .inl f => (9, f.code)
    | .inr _ => (updOk, 0)

/-- UPDATE_OPERATION_END (R480): a download has programmed the slot, a verification has read it, an activation's record stands;
or the flash failed. [log 115: DESIGN CHOICE] -/
def execUpdateOperationEnd (flashOk : Bool) (s : State) : Host.Outcome State Fault Refusal :=
  match s.boot.op with
  | none => .next s
  | some (1, k, bytes) =>
    match bytes with
    | none => .next (s.updEnd 0 5 0)
    | some l =>
      let base := slotBase k (s.inactive k)
      if flashOk then .next ((s.flashPuts base l).updEnd 2 updOk 0) else .next (s.updEnd 0 4 0)
  | some (2, k, _) =>
    if flashOk then
      let r := s.verifyResult k
      .next (s.updEnd 4 r.1 r.2)
    else .next (s.updEnd 0 4 0)
  | some (_, k, _) =>
    if flashOk then
      if s.boot.changes.contains (k, RecChange.activate) then .next s else .next (s.updEnd 0 updOk 0)
    else
      let s := { s with boot := { s.boot with changes := s.boot.changes.filter fun c => c != (k, RecChange.activate) } }
      .next (s.updEnd 0 4 0)

/-- PCIE_PERST_L: low holds the endpoint in fundamental reset, which resets what a function level reset does (R307, R498).
[log 116: DEDUCED] -/
def execPciePerstL (level : Bool) (s : State) : Host.Outcome State Fault Refusal :=
  if level then .next { s with hq := { s.hq with perst := false } }
  else
    let s := s.flr
    .next { s with hq := { s.hq with perst := true, d3 := false } }

end Sys2Proof.Machine
end

