-- ==== Sys2Proof/Machine/Views.lean ====
section
/-! DEFINITION. What a read of the register window returns: the stored words, the fields that show live state instead, and
what a read does besides (R5, R7, R228, R288, R298). -/

namespace Sys2Proof.Machine

/-- Index of a register within an array of them that starts at `base`. -/
def idx (base stride a : Nat) : Nat := (a - base) / stride

/-! ## Live fields, block by block -/

/-- FOR block: moves, budgets, the queried segment, region and bank use. [log 18: DESIGN CHOICE; log 119: DEDUCED] -/
def State.viewForester (s : State) (a w : Nat) : Nat :=
  if a = 0x30004 then min 4 s.forest.moves.length + 2 ^ 4 * b2n (!s.forest.evacs.isEmpty) +
    2 ^ 16 * (s.forest.segs.filter fun x => x.loading.isNone).length
  else if 0x30010 ≤ a ∧ a < 0x3001C then
    let t := [Tier.canopy, Tier.sdram, Tier.host].getD (idx 0x30010 4 a) Tier.none
    setField w 0 12 (((s.counted.map fun b => s.tierShare b t).sum + 15) / 16)
  else if a = 0x30034 then
    match s.curSeg s.forest.query with
    | some x => x.gen % 256 + 2 ^ 8 * (s.segState x % 256) + 2 ^ 16 * (x.pageCount % 65536)
    | none => 0xFF * 2 ^ 8
  else if a = 0x30038 then ((s.curSeg s.forest.query).map (·.heat)).getD 0
  else if 0x30040 ≤ a ∧ a < 0x30054 then
    let r := idx 0x30040 4 a
    let free := s.freeIn r []
    let own := (free.filter fun p => (s.forest.regionOf p).isSome).length
    s.regionUsed r + 2 ^ 16 * (own + min (free.length - own) (s.regionRoom r))
  else if 0x30080 ≤ a ∧ a < 0x30100 then
    let b := idx 0x30080 4 a
    let used := ((s.usedPages.filter fun p => p / 64 == b).dedup).length
    ((s.counted.map fun o => s.bankShare o b).sum + 15) / 16 % 1024 + 2 ^ 16 * (64 - used)
  else w

/-- SCH block: the cores, the store and the flows. [log 18: DESIGN CHOICE; log 120: DEDUCED] -/
def State.viewSched (s : State) (a w : Nat) : Nat :=
  if 0xB0000 ≤ a ∧ a < 0xB0800 ∧ a % 0x100 = 0x0C then
    let c : Fin 8 := fin 8 (idx 0xB0000 0x100 a)
    let k := s.sched.cores[c]
    let st := if k.inNmi then 3 else if s.on (F.FOR_PARK_PARKED c) then 2 else if k.blocked.isSome then 1 else 0
    st + (match s.sched.held c with
      | some t => 4 + 2 ^ 12 * t.flow
      | none => 0)
  else if a = 0xB1000 then
    (4096 - s.sched.tasks.length) + 2 ^ 16 * (s.sched.tasks.filter fun t => decide (t.state = .ready)).length
  else if 0xB3000 ≤ a ∧ a < 0xB4000 then
    let l := s.sched.tasks.filter fun t => decide (t.flow = idx 0xB3000 4 a)
    let core := l.findSome? fun t => match t.state with
      | .inService c => some c.1
      | _ => none
    l.length + 2 ^ 13 * b2n core.isSome +
      2 ^ 14 * b2n (l.head?.any fun t => decide (t.state = .ready)) + 2 ^ 16 * core.getD 0
  else w

/-- HQ block: interface state, tags, claims, the oldest fault record, queue state, granule sizes, pending vectors.
[log 18: DESIGN CHOICE] -/
def State.viewHq (s : State) (a w : Nat) : Nat :=
  let fault := s.hq.pwf.head?
  let of := fun (f : Pwf → Nat) => (fault.map f).getD 0
  if a = 0xC0000 then
    s.hq.inFlight.length + 2 ^ 10 * b2n (decide (512 ≤ s.hq.inFlight.length)) + 2 ^ 11 * b2n s.hq.d3 + 2 ^ 12 * b2n (s.rd F.FLT_STATUS_STATE == 3)
  else if a = 0xC0024 then
    let t := s.rd F.HQ_TAG_SEL_TAG
    (match cellGet t s.hq.tags with
      | some e => e + 2 ^ 6
      | none => 0) + 2 ^ 8 * (s.hq.inFlight.filter fun f => f.hdr.tag == t).length
  else if a = 0xC002C then
    match s.forest.claims.find? fun c => c.1 == s.hq.claimQ with
    | some c => c.2.2 % 128 + 2 ^ 7 + 2 ^ 16 * c.2.1
    | none => 0
  else if a = 0xC0404 then
    of fun r => r.reason + 2 ^ 4 * r.win + 2 ^ 8 * r.firstBe + 2 ^ 12 * r.lastBe + 2 ^ 16 * (r.len % 1024) + 2 ^ 31
  else if a = 0xC0408 then of (·.off)
  else if a = 0xC040C then of fun r => r.reqId % 65536 + 2 ^ 16 * (r.page % 8)
  else if a = 0xC0410 then of (·.stamp % 2 ^ 32)
  else if a = 0xC0414 then of (·.stamp / 2 ^ 32)
  else if 0xC1000 ≤ a ∧ a < 0xC1400 ∧ a % 0x40 = 0x2C then
    let q : Fin 16 := fin 16 (idx 0xC1000 0x40 a)
    let waits := s.hq.compls.any fun c => c.hdr.q == q
    setField (setField w 3 1 (b2n (waits && s.cqFull q))) 16 10 (s.hq.inFlight.filter fun f => f.hdr.q == q).length
  else if 0xC5000 ≤ a ∧ a < 0xC5020 then fieldOf s.hq.vecPending (32 * idx 0xC5000 4 a) 32
  else if 0xC8000 ≤ a ∧ a < 0xC8800 ∧ a % 0x40 = 8 then
    let t : Fin 32 := fin 32 (idx 0xC8000 0x40 a)
    ((allFin 32).find? fun g => s.bound g && s.threadOf g == t).elim 0 s.granBytes
  else w

/-- TIM block: shared time and the raw count. [log 18: DESIGN CHOICE; log 135: DEDUCED] -/
def State.viewTime (s : State) (a w : Nat) : Nat :=
  if a = 0xD8008 then s.now % 2 ^ 32
  else if a = 0xD800C then s.now / 2 ^ 32
  else if a = 0xD8010 then s.nowFrac16
  else if a = 0xD8014 then s.tim.raw % 2 ^ 32
  else if a = 0xD8018 then s.tim.raw / 2 ^ 32 % 2 ^ 32
  else w

/-- CAL block: drift since the last measurement, and the stale units of the selected group. -/
def State.viewCal (s : State) (a w : Nat) : Nat :=
  if 0xF4040 ≤ a ∧ a < 0xF40B0 ∧ a % 16 = 0 then
    let g := idx 0xF4040 16 a
    setField w 3 1 (b2n (decide (48 < (s.tdec - s.rdS (F.CAL_GRP_TEMP_TEMP g)).natAbs)))
  else if 0xF4104 ≤ a ∧ a < 0xF4114 then
    let g : Fin 7 := fin 7 (s.rd F.CAL_STALE_SEL_GROUP % 7)
    let i := idx 0xF4104 4 a
    maskOf ((List.range 32).filter fun j => match s.cal.units[g][32 * i + j]? with
      | some st => st == 0 || st == 2
      | none => false)
  else w

/-- The fault record FLT_REC_SEL names. [log 123: DEDUCED] -/
def State.selectedRecord (s : State) : List Byte := s.flt.records.getD (s.rd F.FLT_REC_SEL_REC) []

/-- FLT block: whether a release would be granted, the selected source and the selected record. [log 18: DESIGN CHOICE; log 123: DEDUCED] -/
def State.viewFault (s : State) (a w : Nat) : Nat :=
  let src := s.rd F.FLT_SRC_SEL_SRC
  if a = 0xF8004 then
    let l := s.selectedRecord
    setField (setField w 3 1 (b2n s.releaseOk)) 4 1 (b2n (!l.isEmpty && leAt l 0x1FC 4 != crc32 (l.take 0x1FC)))
  else if a = 0xF8404 then
    if h : src < 96 then
      let k := s.flt.info[src]
      k.count + 2 ^ 16 * s.classOf src + 2 ^ 19 * fieldOf (s.rd (F.FLT_FLOOR_CLASS (src / 4))) (8 * (src % 4)) 3 +
        2 ^ 22 * b2n (dualSource src) + 2 ^ 23 * b2n k.forced
    else 0
  else if a = 0xF8408 ∨ a = 0xF840C then
    if h : src < 96 then fieldOf s.flt.info[src].time (8 * (a - 0xF8408)) 32 else 0
  else if a = 0xF8504 then s.flt.recSeq
  else if 0xF8600 ≤ a ∧ a < 0xF8800 then leAt s.selectedRecord (a - 0xF8600) 4
  else w

/-- DSC block: the committed profile entry that DSC_RC_RSEL names, rounded with its profile to 18 bits. [log 121: DEDUCED] -/
def State.viewProfile (s : State) : Nat :=
  let sl := s.dscs[fin 16 (s.rd F.DSC_RC_RSEL_DSC)].slots[fin 4 (s.rd F.DSC_RC_RSEL_SLOT)]
  let x := ((Sys2Proof.Machine.stage 18 (sl.q.map fun m => (⟨m, sl.e⟩ : Bfp).val)).1).getD (s.rd F.DSC_RC_RSEL_INDEX) {}
  zx 18 x.m + 2 ^ 18 * x.e

/-- SEC block: the selected measurement register and the selected slot's name. [log 18: DESIGN CHOICE] -/
def State.viewSec (s : State) (a w : Nat) : Nat :=
  let name := (cellGet (s.rd F.SEC_SLOT_SEL_SLOT) s.sec.names).getD 0
  if 0xE8024 ≤ a ∧ a < 0xE8054 then fieldOf s.sec.mr[fin 8 (s.rd F.SEC_MR_SEL_REG)] (8 * (a - 0xE8024)) 32
  else if a = 0xE808C then name % 2 ^ 32
  else if a = 0xE8090 then name / 2 ^ 32 % 2 ^ 32
  else w

/-- What a register reads as: its word, with its live fields. [log 18: DESIGN CHOICE; log 122: DESIGN CHOICE] -/
def State.view (s : State) (a : Nat) : Nat :=
  let w := (s.word (blkOf a) a).toNat
  match blkOf a with
  | .glb => if a = 4 then Config.serial % 2 ^ 32 else if a = 8 then Config.serial / 2 ^ 32 % 2 ^ 32
    else if a = 0x124 ∧ s.boot.timer then 60 - min 60 (s.tim.raw / 800000000) else w
  | .fab => if 0x20400 ≤ a ∧ a < 0x20800 ∧ a % 32 = 0 then
      let g : Fin 32 := fin 32 (idx 0x20400 32 a)
      setField w 0 2 (b2n (s.hiz g) + 2 * b2n (s.urunAbort g))
    else w
  | .fst => s.viewForester a w
  | .seq => if a = 0x50004 then s.slotCount % 2 ^ 32 else w
  | .tmu => if 0x78000 ≤ a ∧ a < 0x79000 ∧ a % 0x80 = 0x30 then
      let u : Fin 32 := fin 32 (idx 0x78000 0x80 a)
      setField (setField w 3 1 (b2n (s.unitIdle u.1 == false && s.drifted u.1))) 4 1 (b2n (decide (s.rd (F.TMU_SRC_SRC u) ≤ 2) && bitOf s.calHold (s.rd (F.TMU_SRC_CH u))))
    else if a = 0x7C00C then s.binWord else w
  | .dsc => if a = 0x98004 then s.viewProfile else w
  | .sch => s.viewSched a w
  | .hq => s.viewHq a w
  | .tim => s.viewTime a w
  | .sec => s.viewSec a w
  | .pwr => if a = 0xF01D8 then setField w 16 16 20000 else w
  | .cal => s.viewCal a w
  | .flt => s.viewFault a w
  | _ => w

/-! ## Reads (R5, R7, R308) -/

/-- Whether an address is the low word of a 64-bit pair (R5). -/
def pairLow (a : Nat) : Bool := ((regDefAt (blkOf a) a).map (·.pair)).getD false

/-- The read-and-clear fields of a register start again (R7): at zero, and the lowest ring count since the last read at its
reset value of all ones (R23). [log 12: DESIGN CHOICE; log 145: DEDUCED] -/
def State.clearRc (s : State) (a : Nat) : State :=
  match regDefAt (blkOf a) a with
  | none => s
  | some d => (d.fields.filter fun f => decide (f.acc = Access.rc)).foldl (fun s f => s.wr ⟨blkOf a, a, f.lsb, f.width⟩ f.reset) s

/-- The word latched for a requester class over an address. [log 12: DESIGN CHOICE; log 135: DEDUCED] -/
def State.latchedWord (s : State) (r : Req) (a : Nat) : Option Nat :=
  (s.latches.find? fun p => decide (p.req = r.cls) && decide (p.addr = a)).map (·.word.toNat)

/-- A result word of a time measurement unit that a class has latched (R228). -/
def State.latchedResult (s : State) (r : Req) (a : Nat) : Option Nat :=
  if 0x78000 ≤ a ∧ a < 0x79000 ∧ 0x48 ≤ a % 0x80 ∧ a % 0x80 < 0x74 then
    (s.acq.latches.find? fun l => decide (l.req = r.cls) && l.unit == idx 0x78000 0x80 a).map fun l =>
      (l.words.getD ((a % 0x80 - 0x44) / 4) 0).toNat
  else none

/-- The core whose port registers hold an address (SCH block, stride 0x100). -/
def portOf (a : Nat) : Option (Fin 8) := if 0xB0000 ≤ a ∧ a < 0xB0800 then some (fin 8 (idx 0xB0000 0x100 a)) else none

/-- Whether a requester may read an address of the ports: a core its own; the others SCH_CUR and SCH_NEW. [log 114: DEDUCED] -/
def portReadable (r : Req) (a : Nat) : Bool :=
  match portOf a with
  | none => true
  | some c => decide (r = .core c) || (decide (0x10 ≤ a % 0x100) && decide (a % 0x100 < 0x38)) ||
      (decide (0x40 ≤ a % 0x100) && decide (a % 0x100 < 0x60))

/-- Whether the block of an address answers: in recovery GLB, SEC and HQ alone do (R475). [log 114: DEDUCED] -/
def State.served_ (s : State) (a : Nat) : Bool :=
  s.rd F.GLB_BOOT_STAT_STAGE != 3 || decide (blkOf a = .glb) || decide (blkOf a = .sec) || decide (blkOf a = .hq)

/-- A read of one word of the register window: what it returns, and the state after. A read of the low word of a pair latches
the high word for the requester class, and a read of the high word returns the latched word (R5); a read of TIM_NOW_LO latches
the fraction too, one of TMU_RES_COUNT the result set (R228); a measured rail voltage is a free value. [log 122: DESIGN CHOICE] -/
def State.readWord (s : State) (r : Req) (a : Nat) : Nat × State :=
  if !portReadable r a || !s.served_ a then (0, s)
  else
    match s.latchedResult r a, s.latchedWord r a with
    | some v, _ => (v, s)
    | none, some v => (v, s)
    | none, none =>
      let v := s.view a
      if pairLow a then
        let s' := s.latch r (a + 4) (BitVec.ofNat 32 (s.view (a + 4)))
        (v, if a = 0xD8008 then s'.latch r 0xD8010 (BitVec.ofNat 32 (s.view 0xD8010)) else s')
      else if 0x78000 ≤ a ∧ a < 0x79000 ∧ a % 0x80 = 0x44 then
        let u : Fin 32 := fin 32 (idx 0x78000 0x80 a)
        let l := ⟨r.cls, u.1, s.resWords u⟩ :: s.acq.latches.filter fun x => !(x.req == r.cls && x.unit == u.1)
        (v, { s with acq := { s.acq with latches := l } })
      else if a = 0x7C00C then (v, s.wr F.TMU_BIN_SEL_CODE (s.rd F.TMU_BIN_SEL_CODE + 1))
      else if a = 0x98004 then (v, s.wr F.DSC_RC_RSEL_INDEX (s.rd F.DSC_RC_RSEL_INDEX + 1))
      else if 0xF0180 ≤ a ∧ a < 0xF01B8 ∧ a % 8 = 0 then
        let f := s.takeFree
        (setField v 16 16 f.1, f.2)
      else (v, s.clearRc a)

/-- An aligned read of one word or of two: the words returned, and the state after. Two words that begin at the low word of a
pair are the pair whole; any other two are read in ascending order (R308). -/
def State.readWords (s : State) (r : Req) (a words : Nat) : List Nat × State :=
  let x := s.readWord r a
  if words ≤ 1 then ([x.1], x.2)
  else
    let y := x.2.readWord r (a + 4)
    ([x.1, y.1], y.2)

end Sys2Proof.Machine
end

