-- ==== Sys2Proof/Machine/Stores.lean ====
section
/-! DEFINITION. What a write of one word of the register window does (R5 to R7, R40, R508, R510): the access codes of the
tables, the pairs, the bounds a chapter clips to, the writes a chapter drops, and the registers whose write is an operation. -/

namespace Sys2Proof.Machine

/-! ## Access codes (R7, R510) -/

/-- A write of a word by the access codes of its fields: RWL fields keep their value once FAB_CTRL.LOCK is set. -/
def State.plainStore (s : State) (a w : Nat) : State :=
  match regDefAt (blkOf a) a with
  | none => s
  | some d => d.fields.foldl (fun s f =>
      let p : Fld := ⟨blkOf a, a, f.lsb, f.width⟩
      let v := fieldOf w f.lsb f.width
      match f.acc with
      | .rw => s.wr p v
      | .rwl => if s.on F.FAB_CTRL_LOCK then s else s.wr p v
      | .w1c => s.wr p (without (s.rd p) v)
      | .w1s => s.wr p (s.rd p ||| v)
      | .ro | .wo | .rc => s) s

/-- The event registers. -/
def evRegs : List EvReg :=
  [Ev.fab, Ev.str, Ev.sym, Ev.seqG, Ev.tmg, Ev.frst, Ev.cap, Ev.tmuG, Ev.tim, Ev.dmc, Ev.clk, Ev.pwr, Ev.cal, Ev.flt, Ev.sec, Ev.glb,
   Ev.sch, Ev.hq] ++ (List.range 32).flatMap (fun i => [Ev.seq i, Ev.strm i, Ev.tmu i]) ++
  (List.range 16).flatMap (fun i => [Ev.dsc i, Ev.cmp i]) ++ (List.range 8).map Ev.mfl ++ (List.range 4).map Ev.trg

/-- The event register that an address enables. [log 125: DEDUCED] -/
def enabledBy (a : Nat) : Option EvReg := evRegs.find? fun r => r.ev + 4 == a

/-- The bits of an event register: its enable register has the same layout. [log 125: DEDUCED] -/
def EvReg.layout (r : EvReg) : Nat :=
  ((regDefAt r.blk r.ev).map fun d => (d.fields.filter fun f => decide (f.acc = Access.w1c)).foldl (fun m f => m ||| 2 ^ f.lsb) 0).getD 0

/-- A whole word of the window. -/
def wordFld (a : Nat) : Fld := ⟨blkOf a, a, 0, 32⟩

/-! ## Bounds (R40, R101, R244, R278) -/

/-- A value raised or lowered into a range. [log 126: DEDUCED] -/
def clipNat (lo hi v : Nat) : Nat := min hi (max lo v)

/-- A write outside a bound of the structure image was clipped (R40). [log 126: DEDUCED] -/
def State.noteClip (s : State) (clipped : Bool) : State := if clipped then (s.incSat F.STR_CLIP_CNT_COUNT).event Ev.str 3 else s

/-- The word stored for a written word where a chapter clips or clears part of it, and whether an image bound clipped it.
[log 126: DEDUCED] -/
def State.clipped (s : State) (a w : Nat) : Nat × Bool :=
  let field := fun (lsb width v : Nat) (n : Nat) => setField n lsb width v
  if 0x20400 ≤ a ∧ a < 0x20800 ∧ a % 32 = 0 then              -- FAB_URUN_CFG
    let start := clipNat 4 32 (fieldOf w 8 6)
    (field 16 6 (clipNat 1 start (fieldOf w 16 6)) (field 8 6 start w), false)
  else if 0x40000 ≤ a ∧ a < 0x50000 ∧ a % 0x800 = 0 then      -- SEQ_CFG
    (field 0 6 (clipNat 2 32 (fieldOf w 0 6)) w, false)
  else if a = 0x30008 then (field 0 16 (max (fieldOf w 0 16) (fieldOf w 16 8 + 1)) w, false)   -- FOR_POLICY
  else if a = 0x3000C then (field 0 6 (clipNat 1 32 (fieldOf w 0 6)) w, false)             -- FOR_MOVE_BW
  else if 0x70000 ≤ a ∧ a < 0x70400 ∧ a % 0x100 = 0x48 then (field 0 25 (clipNat 1 17000000 (fieldOf w 0 25)) w, false)
  else if 0x78000 ≤ a ∧ a < 0x79000 ∧ a % 0x80 = 0x10 then (field 0 24 (clipNat 1 16000000 (fieldOf w 0 24)) w, false)
  else if 0x78000 ≤ a ∧ a < 0x79000 ∧ a % 0x80 = 0x14 then (field 0 21 (clipNat 1 1048576 (fieldOf w 0 21)) w, false)
  else if 0x90000 ≤ a ∧ a < 0x98000 then                      -- DSC
    let d : Fin 16 := fin 16 (idx 0x90000 0x800 a)
    let o := a % 0x800
    if o = 0x08 ∨ o = 0x14 then
      let v := fieldOf w 0 23
      (field 0 23 (min v (s.vMax d)) w, decide (s.vMax d < v))
    else if o = 0x0C ∨ o = 0x10 then
      let v := sx 24 w
      let m : Int := s.iMax d
      (field 0 24 (zx 24 (max (-m) (min m v))) w, decide (s.iMax d < v.natAbs))
    else if 0x140 ≤ o ∧ o < 0x180 ∧ o % 16 = 8 then (field 0 13 (min 4096 (fieldOf w 0 13)) w, false)
    else (w, false)
  else if 0x99000 ≤ a ∧ a < 0x99200 ∧ a % 32 = 4 then (field 0 17 (clipNat 1 65536 (fieldOf w 0 17)) w, false)
  else if 0xA0000 ≤ a ∧ a < 0xA1000 then                      -- CMP
    let d : Fin 16 := fin 16 (idx 0xA0000 0x100 a)
    let o := a % 0x100
    if o = 4 then (field 0 24 (min (fieldOf w 0 24) (s.iMax d)) w, decide (s.iMax d < fieldOf w 0 24))
    else if o = 0x14 then (field 0 23 (min (fieldOf w 0 23) (s.vMax d)) w, decide (s.vMax d < fieldOf w 0 23))
    else if o = 0x10 ∨ o = 0x18 then
      let top := 11 * s.vMax d / 10
      (field 0 23 (min (fieldOf w 0 23) top) w, decide (top < fieldOf w 0 23))
    else (w, false)
  else if 0xA2000 ≤ a ∧ a < 0xA2400 then                      -- PGN
    let d : Fin 16 := fin 16 (idx 0xA2000 0x40 a)
    if a % 0x40 = 4 then
      (field 16 12 (max (fieldOf w 16 12) (s.rd (F.PGN_DT_DT_RISE d) + s.rd (F.PGN_DT_DT_FALL d) + 8)) w, false)
    else if a % 0x40 = 8 then
      let n := s.pgnN d
      (field 16 15 (min (fieldOf w 16 15) (n - 1)) (field 0 15 (min (fieldOf w 0 15) (n / s.smul d - 1)) w), false)
    else (w, false)
  else if 0xB0000 ≤ a ∧ a < 0xB0800 ∧ a % 0x100 = 0x74 then (field 0 1 0 w, false)      -- SCH_NMI_VEC
  else (w, false)

/-! ## Dropped writes (R90, R181, R215, R237, R278, R311) -/

/-- The state after a write that a chapter drops because the unit is in use, or none where it is not dropped. -/
def State.dropped (s : State) (a : Nat) : Option State :=
  if 0x281000 ≤ a ∧ a < 0x281200 ∧ (a % 32 = 4 ∨ a % 32 = 8) then
    let b := idx 0x281000 32 a
    if s.on (F.PEC_CMD_GO b) then some (s.wr (F.PEC_STATUS_OVERRUN b) 1) else none
  else if 0x60400 ≤ a ∧ a < 0x60C00 ∧ (a % 0x40 = 0 ∨ a % 0x40 = 4) then
    if s.groveIdle (fin 32 (idx 0x60400 0x40 a)) then none else some s.capDrop
  else if 0x70000 ≤ a ∧ a < 0x70400 ∧ a % 0x100 = 0x50 then
    if s.trgState (fin 4 (idx 0x70000 0x100 a)) = 0 then none else some s
  else if 0x78000 ≤ a ∧ a < 0x79000 ∧ 4 ≤ a % 0x80 ∧ a % 0x80 < 0x28 then
    let u : Fin 32 := fin 32 (idx 0x78000 0x80 a)
    if s.tmuState u = 0 then none else some (s.event (Ev.tmu u) 4)
  else if 0xA0000 ≤ a ∧ a < 0xA1000 ∧ a % 0x100 = 0 then
    let d : Fin 16 := fin 16 (idx 0xA0000 0x100 a)
    if s.dscMode d = 0 then none else some (s.event (Ev.cmp d) 4)
  else if 0xA2000 ≤ a ∧ a < 0xA2400 ∧ a % 0x40 = 8 then
    let d : Fin 16 := fin 16 (idx 0xA2000 0x40 a)
    if s.dscMode d = 0 then none else some (s.event (Ev.cmp d) 4)
  else if 0xC1000 ≤ a ∧ a < 0xC1400 ∧ a % 0x40 < 8 then
    if s.on (F.HQ_SQ_CFG_EN (idx 0xC1000 0x40 a)) then some s else none
  else if 0xC1000 ≤ a ∧ a < 0xC1400 ∧ (a % 0x40 = 0x14 ∨ a % 0x40 = 0x18) then
    if s.on (F.HQ_CQ_CFG_EN (idx 0xC1000 0x40 a)) then some s else none
  else if a = 0xD8200 then (if s.rd F.TIM_ETH_SLOTS_RX = 0 then none else some s)
  else if a = 0xD8204 then (if s.rd F.TIM_ETH_SLOTS_TX = 0 then none else some s)
  else none

/-! ## Pairs (R5) -/

/-- Whether an address is the low word of a pair that software writes. -/
def pairWritable (a : Nat) : Bool :=
  ((regDefAt (blkOf a) a).map fun d => d.pair && d.fields.any fun f => decide (f.acc = Access.rw) || decide (f.acc = Access.wo)).getD false

/-- A pair takes effect as one value (R5). -/
def State.storePair (s : State) (lo v : Nat) : State :=
  if lo = 0xD8024 then s.timStep v
  else if 0xC8000 ≤ lo ∧ lo < 0xC8800 then s.wrP (wordFld lo) (v / 8 * 8)
  else if 0xC1000 ≤ lo ∧ lo < 0xC1400 then s.wrP (wordFld lo) (v / 4096 * 4096)
  else if 0xB0000 ≤ lo ∧ lo < 0xB0800 ∧ lo % 0x100 = 0x80 then
    (s.wrP (wordFld lo) v).modCore (fin 8 (idx 0xB0000 0x100 lo)) fun k => { k with timerPending := decide (v ≤ s.tim.raw) }
  else if 0x70000 ≤ lo ∧ lo < 0x70400 ∧ lo % 0x100 = 0x34 then
    let past := s.reached v                                     -- a new TRG_QTIME gives its own event (R207)
    (s.wrP (wordFld lo) v).modTrg (fin 4 (idx 0x70000 0x100 lo)) fun k => { k with timed := past }
  else s.wrP (wordFld lo) v

/-! ## Registers whose write is an operation, block by block -/

/-- TMG block (R161, R176, R179). -/
def State.storeTmg (s : State) (r : Req) (a : Nat) (w : Word) : State :=
  let o := a - 0x180000
  if 0x180000 ≤ a ∧ a < 0x188000 ∧ o % 0x400 < 0x200 then
    let g : Fin 32 := fin 32 (o / 0x400)
    let ts : Fin 32 := fin 32 (o % 0x400 / 16)
    if o % 16 = 0 then s.periodLo r g ts w else if o % 16 = 4 then s.periodHi r g ts w else s
  else if a = 0x1F001C then s.modDelay w.toNat
  else if 0x1F0000 ≤ a then s.plainStore a w.toNat
  else s.tableWrite a w.toNat

/-- SYM block (R78, R89). -/
def State.storeSym (s : State) (a w : Nat) : State :=
  if a < 0x280000 then
    let o := a - 0x200000
    s.symWrite (fin 128 (o / 0x1000)) (o % 0x1000 / 0x80) (o % 0x80 / 8) (decide (o % 8 = 4)) w
  else if 0x281000 ≤ a ∧ a < 0x281200 ∧ a % 32 = 0 then s.pecCmd (fin 16 (idx 0x281000 32 a)) w
  else s.plainStore a w

/-- TRG_CTRL: its fields, then ARM, DISARM and FORCE (R212, R213). [log 124: DEDUCED] -/
def State.storeTrgCtrl (s : State) (e : Fin 4) (a w : Nat) : State :=
  let s := s.plainStore a (w / 8 * 8)
  let s := if bitOf w 0 then s.trgArm e else s
  let s := if bitOf w 1 then s.trgDisarm e else s
  if bitOf w 2 then s.trgForce e else s

/-- TMU_CTRL: its fields unless the unit is in use, then ARM, DISARM and CLOSE (R224, R237, R238). [log 124: DEDUCED] -/
def State.storeTmuCtrl (s : State) (u : Fin 32) (a w : Nat) : State :=
  let fields := 0x3F0
  let differs := (s.word .tmu a).toNat &&& fields != w &&& fields
  let s := if s.tmuState u = 0 then s.plainStore a (w / 8 * 8) else if differs then s.event (Ev.tmu u) 4 else s
  let s := if bitOf w 0 then s.tmuArm u else s
  let s := if bitOf w 1 then s.tmuDisarm u else s
  if bitOf w 2 then s.closeGate u false false else s

/-- Registers of a site core's ports (R284, R293, R295, R299, R302); a non-maskable handler has left once its last cause is
cleared. [log 127: DEDUCED] -/
def State.storePort (s : State) (c : Fin 8) (a w : Nat) : State :=
  match a % 0x100 with
  | 0x08 => s.portDone c w
  | 0x68 => s.portFill c w
  | 0x6C => s.portCancel c w
  | 0x70 =>
    let s := s.plainStore a w
    if s.rd (F.SCH_NMI_CAUSE_CAUSE c) = 0 then s.modCore c fun k => { k with inNmi := false } else s
  | 0x78 => (s.wr (F.SCH_WDOG_US c) w).kick c
  | 0x7C => s.kick c
  | _ => s.plainStore a w

/-- HQ block (R126 to R130, R311 to R316, R327, R329). [log 40: PRESUMED] -/
def State.storeHq (s : State) (a w : Nat) : State :=
  if a = 0xC0028 then { s with hq := { s.hq with claimQ := w % 65536 } }
  else if a = 0xC0418 then (if bitOf w 0 then { s with hq := { s.hq with pwf := s.hq.pwf.drop 1 } } else s)
  else if 0xC1000 ≤ a ∧ a < 0xC1400 then
    let q : Fin 16 := fin 16 (idx 0xC1000 0x40 a)
    match a % 0x40 with
    | 0x08 => s.sqCfg q w
    | 0x0C => s.sqTail q (w % 4096)
    | 0x1C => s.cqCfg q w
    | 0x20 => s.cqHead q (w % 4096)
    | _ => s.plainStore a w
  else if 0xC4000 ≤ a ∧ a < 0xC5000 then
    (s.wr (wordFld a) (if a % 16 = 12 then w % 2 else if a % 16 = 0 then w / 4 * 4 else w)).sendPending
  else if 0xC8000 ≤ a ∧ a < 0xC8800 then
    let t : Fin 32 := fin 32 (idx 0xC8000 0x40 a)
    match a % 0x40 with
    | 0x00 => s.strmCfg t w
    | 0x0C => s.strmAnnounce t (fieldOf w 0 16) (fieldOf w 16 8)
    | 0x10 => s.strmPut t (fieldOf w 0 13)
    | _ => s.plainStore a w
  else s.plainStore a w

/-- PGN_DT: MIN_OFF is held at no less than DT_RISE + DT_FALL + 8 (R276). -/
def State.storeDt (s : State) (d : Fin 16) (a w : Nat) : State :=
  let s := s.plainStore a w
  s.wr (F.PGN_LIM_MIN_OFF d) (max (s.rd (F.PGN_LIM_MIN_OFF d)) (s.rd (F.PGN_DT_DT_RISE d) + s.rd (F.PGN_DT_DT_FALL d) + 8))

/-- DSC and trace registers (R241, R249, R256, R263). -/
def State.storeDsc (s : State) (a : Nat) (w : Word) : State :=
  if a < 0x98000 then
    let d : Fin 16 := fin 16 (idx 0x90000 0x800 a)
    let o := a % 0x800
    if o = 0 then
      let s := s.requestMode d (fieldOf w.toNat 0 3) (w.getLsbD 4)
      if w.getLsbD 3 then s.modDsc d fun k => { k with commit := true } else s
    else if 0x80 ≤ o ∧ o < 0xB8 then
      let v := fieldOf w.toNat 0 24
      s.wr (wordFld a) (v + 2 ^ 31 * parityOf v)
    else if 0x140 ≤ o ∧ o < 0x180 ∧ o % 16 = 0 then s.rcBind d (fin 4 ((o - 0x140) / 16)) w
    else s.plainStore a w.toNat
  else if 0x99000 ≤ a ∧ a < 0x99200 ∧ a % 32 = 8 then s.traceCtrl (fin 16 (idx 0x99000 32 a)) (w.getLsbD 0)
  else s.plainStore a w.toNat

/-- MFL block (R332, R339, R344): messages are sent and taken on the lowest lane of a link. -/
def State.storeMfl (s : State) (a w : Nat) : State :=
  if a = 0xD0000 then s.mflCfg w
  else if 0xD0100 ≤ a ∧ a < 0xD0900 then
    let n : Fin 8 := fin 8 (idx 0xD0100 0x100 a)
    let o := a % 0x100
    if o = 0 then
      let s := s.plainStore a (w / 2 * 2)
      if bitOf w 0 then s.retrain n else s
    else if 0x80 ≤ o ∧ o < 0xAC then (if s.linkLane n = n then s.plainStore a w else s)
    else if o = 0xAC then (if bitOf w 0 then s.msgSend n else s)
    else if o = 0xEC then (if bitOf w 0 then s.msgPop n else s)
    else s.plainStore a w
  else s.plainStore a w

/-- FLT block (R421, R423): a latch of class FATAL or SAFE_STATE is not cleared by a write; the record of the first source
goes with the last latch. -/
def State.storeFlt (s : State) (a w : Nat) : State :=
  if a = 0xF8000 ∨ (0xF8360 ≤ a ∧ a < 0xF8380) then
    let before := s.forcedSet
    (s.plainStore a w).forceChange before
  else if 0xF8300 ≤ a ∧ a < 0xF8320 then
    let i := idx 0xF8300 4 a
    let open_ := maskOf ((List.range 32).filter fun j => decide (s.classOf (32 * i + j) < 3))
    let s := s.plainStore a (w &&& open_)
    (if s.noLatch then s.wrs [(F.FLT_STATUS_FIRST_SRC, 0), (F.FLT_STATUS_FIRST_VALID, 0)] else s).noteHeartbeat
  else s.plainStore a w

/-- GLB block (R477, R479): the update registers; a download from host memory that this write starts brings bytes the write
does not show. [log 136: DESIGN CHOICE] -/
def State.storeGlb (s : State) (a w : Nat) : State :=
  if a = 0x120 then s.bootConfirm w
  else if a = 0x140 then
    let s := s.wr F.GLB_UPD_CMD_CAL_ADVANCE (fieldOf w 8 1)
    if bitOf w 0 then
      let f := s.takeFree
      f.2.updGo (fieldOf w 1 3) (fieldOf w 4 2) (some (bytesLE (s.rd F.GLB_UPD_LEN_BYTES) f.1))
    else s.wrs [(F.GLB_UPD_CMD_OP, fieldOf w 1 3), (F.GLB_UPD_CMD_KIND, fieldOf w 4 2)]
  else s.plainStore a w

/-- A register whose write is more than its access codes say, or that its access codes describe whole. [log 124: DEDUCED] -/
def State.storeOp (s : State) (r : Req) (a : Nat) (w : Word) : State :=
  let n := w.toNat
  match blkOf a with
  | .glb => s.storeGlb a n
  | .fst =>
    if a = 0x30030 then { s with forest := { s.forest with query := n % 65536 } }
    else if a = 0x3003C then s.sdramSplit (fieldOf n 0 6)
    else if 0x30200 ≤ a ∧ a < 0x30220 then
      let c : Fin 8 := fin 8 (idx 0x30200 4 a)
      if r = .core c ∧ bitOf n 0 then s.parkCore c else s
    else s.plainStore a n
  | .cap =>
    if a = 0x60010 then s.snapCmd n
    else if 0x60040 ≤ a ∧ a < 0x60050 then s.chmask (idx 0x60040 4 a) n
    else s.plainStore a n
  | .trg =>
    let e : Fin 4 := fin 4 (idx 0x70000 0x100 a)
    if a % 0x100 = 0 ∧ a < 0x70400 then s.storeTrgCtrl e a n
    else if a % 0x100 = 0x5C ∧ a < 0x70400 then s.setUnread e (s.acq.trg[e].unread - n % 65536)
    else s.plainStore a n
  | .tmu =>
    let u : Fin 32 := fin 32 (idx 0x78000 0x80 a)
    if a % 0x80 = 0 ∧ a < 0x79000 then s.storeTmuCtrl u a n
    else if a % 0x80 = 0x2C ∧ a < 0x79000 then s.modTmu u fun k => { k with blocks := k.blocks.drop (n % 65536) }
    else s.plainStore a n
  | .dsc => s.storeDsc a w
  | .cmp =>
    if a < 0xA1000 ∧ a % 0x100 = 0x34 then (if bitOf n 0 then s.cmpGo (fin 16 (idx 0xA0000 0x100 a)) else s)
    else if 0xA2000 ≤ a ∧ a < 0xA2400 ∧ a % 0x40 = 0 then s.storeDt (fin 16 (idx 0xA2000 0x40 a)) a n
    else s.plainStore a n
  | .sch => match portOf a with
    | some c => if r = .core c then s.storePort c a n else s
    | none => s.plainStore a n
  | .hq => s.storeHq a n
  | .mfl => s.storeMfl a n
  | .tim =>
    if a = 0xD8000 then s.timCtrl n
    else if a = 0xD801C then s.timRate n
    else if a = 0xD8220 then (if bitOf n 0 then s.txtsPop else s)
    else s.plainStore a n
  | .dmc =>
    if a = 0xE0000 then
      let s := s.wr F.DMC_CTRL_PD_EN (fieldOf n 2 1)
      let s := if bitOf n 0 then s.dmcInit else s
      if bitOf n 1 then s.dmcRetrain else s
    else s.plainStore a n
  | .clk =>
    if a = 0xF0000 then s.clkCtrl n
    else if a = 0xF0040 then s.clkout n
    else s.plainStore a n
  | .flt => s.storeFlt a n
  | .tmg => s.storeTmg r a w
  | .sym => s.storeSym a n
  | .str | .fab | .seq | .sec | .pwr | .cal => s.plainStore a n

/-- A write of one word reaches the window (R508): in recovery only the blocks that answer take it (R475). -/
def State.storeWord (s : State) (r : Req) (a : Nat) (w : Word) : State :=
  if !s.served_ a then s
  else
    match enabledBy a with
    | some e => s.writeEnable e (w.toNat &&& e.layout)
    | none =>
      match s.dropped a with
      | some s' => s'
      | none =>
        if portOf a ≠ none ∧ (allFin 8).all (fun c => decide (r = .core c → portOf a ≠ some c)) then s
        else if blkOf a ≠ .tmg ∧ pairWritable a then s.holdLow r a w
        else if blkOf a ≠ .tmg ∧ 4 ≤ a ∧ pairWritable (a - 4) then
          let (low, s') := s.takeHeld r (a - 4) (s.word (blkOf a) (a - 4)).toNat
          s'.storePair (a - 4) (low + 2 ^ 32 * w.toNat)
        else
          let v := s.clipped a w.toNat
          (s.storeOp r a (BitVec.ofNat 32 v.1)).noteClip v.2

end Sys2Proof.Machine
end

