-- ==== Sys2Proof/Machine/Boot.lean ====
section
/-! DEFINITION. The measured start (R473 to R476, R478), recovery, and what the sideband reads and resets (R437, R481). -/

namespace Sys2Proof.Machine

/-! ## The slot of each kind (R474) -/

/-- What R474 makes of a kind: the slot used, if one passes, and the changes of the record in order. -/
structure BootChoice where
  slot    : Option Nat
  changes : List RecChange
  deriving DecidableEq, Repr

/-- A confirmed slot is used where it passes; else the other one, by a fallback, where that passes. [log 109: DEDUCED] -/
def bootSettle (passes : Nat → Bool) (slot : Nat) (before : List RecChange) : BootChoice :=
  if passes slot then ⟨some slot, before⟩
  else if passes (1 - slot) then ⟨some (1 - slot), before ++ [RecChange.fallback]⟩
  else ⟨none, before⟩

/-- The choice of R474 for an entry, given which slots pass their checks. [log 109: DEDUCED] -/
def bootChoose (passes : Nat → Bool) (e : BootEnt) : BootChoice :=
  if e.confirmed = 1 then bootSettle passes e.active []
  else if e.trial = 0 then bootSettle passes (1 - e.active) [RecChange.revert]
  else if passes e.active then ⟨some e.active, [RecChange.trial]⟩
  else bootSettle passes (1 - e.active) [RecChange.trial, RecChange.revert]

/-- Step 3 of R473 for one kind: the counter of a confirmed active slot is raised (R478), the slot is chosen, and the kind's
register shows the entry the record is to have. [log 109: DEDUCED] -/
def State.bootKind (l : List Byte) (s : State) (k : Nat) : State :=
  let e := bootEnt l k
  let s := if e.confirmed = 1 ∧ s.slotCheck k e.active = updOk then s.raiseArb k (s.slotSvn k e.active) else s
  let c := bootChoose (fun slot => s.slotCheck k slot == updOk) e
  let b : Boot := { s.boot with
    changes := s.boot.changes ++ c.changes.map fun x => (k, x)
    used := upd s.boot.used (fin 4 k) fun _ => c.slot.getD 0 }
  let svn := (c.slot.map (s.slotSvn k)).getD 0
  let s := ({ s with boot := b }).showEnt k (c.changes.foldl (fun (e : BootEnt) (x : RecChange) => x.apply e) e)
  let s := s.wrs [(F.GLB_BOOT_KIND_ABSENT k, b2n c.slot.isNone), (F.GLB_BOOT_KIND_SVN k, svn)]
  s.raise Ev.glb (2 ^ 2 * b2n (c.changes.contains RecChange.revert) + 2 ^ 3 * b2n (c.changes.contains RecChange.fallback))

/-- The slot in use of a kind. -/
def State.slotInUse (s : State) (k : Nat) : Option Nat :=
  if s.on (F.GLB_BOOT_KIND_ABSENT k) then none else some s.boot.used[fin 4 k]

/-! ## The steps of R473 -/

/-- Step 1: a lost Understory is noted (R459), the anti-rollback counters are restored from their fuse copies, the ROM and the
fuses are measured, and a recovered tamper or power loss too (R462). -/
def State.bootFuses (s : State) : State :=
  let s := if s.power.lost then
      { s.wrs [(F.SEC_TAMPER_STAT_POWER, 1), (F.SEC_STATUS_TAMPERED, 1)] with power := { s.power with lost := false } }
    else s
  let s := (allFin 3).foldl (fun s k => s.wr (F.SEC_ARB_COUNT k) s.sec.arbFuse[k]) s
  let s := s.extendMr 0 (shaBytes Config.romIdentity)
  let stat := (s.word .sec F.SEC_TAMPER_STAT_POWER.addr).toNat
  if stat = 0 then s else s.extendMr 7 (shaBytes (bytesLE 4 stat))

/-- Step 3: the ruling record, and the slot of each kind; the confirmation timer runs while a kind is unconfirmed (R476). -/
def State.bootRecord (s : State) : State :=
  let (copy, l) := s.ruling
  let s := s.wrs [(F.GLB_BOOT_STAT_COPY, copy), (F.GLB_BOOT_STAT_BOTH_VALID, b2n ((s.bootCopy 0).isSome && (s.bootCopy 1).isSome)),
    (F.GLB_BOOT_SEQ_SEQ, leAt l 8 4)]
  let s := (List.range 4).foldl (State.bootKind l) s
  if (List.range 4).all fun k => s.on (F.GLB_BOOT_KIND_CONFIRMED k) then s
  else { s.wr F.GLB_BOOT_TIMER_SECONDS 60 with boot := { s.boot with timer := true } }

/-- A part of a firmware image that its header names by offset and length. -/
def fwPart (img : List Byte) (o : Nat) : List Byte := (img.drop (leAt img o 4)).take (leAt img (o + 4) 4)

/-- Steps 4 and 5: the firmware images are measured, the core code is copied to the lowest free run of the code region, and
every core is released at ENTRY in machine mode (R281). [log 111: DEDUCED] -/
def State.bootFirmware (s : State) (slot : Nat) : State :=
  let base := slotBase 0 slot
  let img := s.flashBytes base (min (slotSize 0) (leAt (s.flashBytes base 0x100) 0x10 4))
  let s := s.extendMr 1 (shaBytes (fwPart img 0x18))
  let s := (s.extendMr 2 (shaBytes (fwPart img 0x20))).extendMr 2 (shaBytes (fwPart img 0x28))
  let core := fwPart img 0x28
  let n := core.length / canopyPage
  let s := match s.canopyRun 0 n with
    | some p =>
      let t := s.takePages 0 [(p, n)]
      let pages := (List.range n).map fun i => (⟨p + i, 0, 0xFF, false⟩ : CodePage)
      { t with canopy := Mem.puts t.canopy (p * canopyPage) core, forest := { t.forest with code := t.forest.code ++ pages } }
    | none => s
  let entry := canopyCoreBase + leAt img 0x30 4
  let s := (allFin 8).foldl (fun s c => s.modCore c fun k => { k with pc := entry, machineMode := true }) s
  let s := (List.range 4).foldl (fun s i => s.wr (F.GLB_FW_BUILD_ID i) (leAt img (0x38 + 4 * i) 4)) s
  s.wr F.GLB_BOOT_STAT_STAGE 2

/-- The units of a calibration record: group, unit, whether its flag is 1, values. -/
def recordUnits (l : List Byte) : List (Fin 7 × Nat × Bool × List Int) :=
  (allFin 7).flatMap fun (g : Fin 7) => (List.range (groupUnits g)).map fun (u : Nat) =>
    let o := sectionOff g + 8 + u * (4 * unitVals g + 1)
    (g, u, leAt l (o + 4 * unitVals g) 1 == 1, (List.range (unitVals g)).map fun i => sx 32 (leAt l (o + 4 * i) 4))

/-- Step 6: the units of a record that verifies take its values and the state RECORD (R412). [log 112: DEDUCED] -/
def State.bootCal (s : State) : State :=
  match s.slotInUse 2 with
  | none => (s.extendMr 5 (List.replicate 48 0)).event Ev.cal 4
  | some slot =>
    let l := s.calRecord slot
    let units := recordUnits l
    let s := s.extendMr 5 (shaBytes l)
    let s := { s with cal := { s.cal with record := units.map fun x => (x.1.1, x.2.1, x.2.2.1, x.2.2.2) } }
    let s := units.foldl (fun s x => if x.2.2.1 then (s.putUnit x.1 x.2.1 x.2.2.2).setUnit x.1 x.2.1 3 else s) s
    ((allFin 7).foldl (fun (s : State) (g : Fin 7) => s.noteGroup g) s).wrs [(F.CAL_RECORD_SEQ, leAt l 0x10 4), (F.CAL_STATUS_RECORD_OK, 1)]

/-- Step 7: the board description is applied entry by entry in order, and measured. [log 111: DEDUCED; log 113: DEDUCED] -/
def State.bootBoard (s : State) : State :=
  match s.slotInUse 3 with
  | none => s
  | some slot =>
    let (l, _) := s.boardBytes slot
    let s := (boardEntries l).foldl (fun s e => s.storeWord (.core 0) e.1 (BitVec.ofNat 32 e.2)) s
    s.extendMr 1 (shaBytes l)

/-- Step 8: the structure slot is staged and its load begins (R41). -/
def State.bootStructure (s : State) : State :=
  match s.slotInUse 1 with
  | none => s
  | some slot =>
    let img := s.strImage slot
    s.stage img (leAt img 0x10 4) (slot + 1) none

/-- BOOT_ROM_START (R473 to R475): the main die has left reset and the boot ROM runs. A failed self-test leaves it in the boot
ROM with the boundary in ERROR (R461); no firmware that passes means recovery.
[log 107: DEDUCED; log 114: DEDUCED; log 138: DESIGN CHOICE] -/
def execBootRomStart (fails : Nat) (s : State) : Host.Outcome State Fault Refusal :=
  if s.rd F.GLB_BOOT_STAT_STAGE ≠ 0 ∨ s.on F.SEC_STATUS_ST_DONE ∨ s.flt.resetLow ∨ s.power.house = false ∨ s.power.cold then .next s
  else
    let s := s.wr F.GLB_BOOT_STAT_TIMER_RESET (b2n s.boot.timerReset)
    let s := ({ s with boot := { s.boot with timerReset := false } }).bootFuses
    if fails % 2 ^ 12 ≠ 0 then .next (s.stFail (fails % 2 ^ 12))
    else
      let s := s.wrs [(F.SEC_STATUS_ST_DONE, 1), (F.SEC_STATUS_APPROVED, 1)]
      let s := ({ s with sec := { s.sec with identity := true } }).bootRecord
      match s.slotInUse 0 with
      | none => .next (s.wr F.GLB_BOOT_STAT_STAGE 3)
      | some slot => .next ((s.bootFirmware slot).bootCal.bootBoard).bootStructure

/-! ## The sideband (R437, R481) -/

/-- The sideband set: the FLT block, PWR_STATUS, PWR_VIN, PWR_TDEC, the wear ledger, and the identity and boot registers
(R437, R509). [log 118: DESIGN CHOICE] -/
def sidebandSet (a : Nat) : Bool :=
  a % 4 == 0 && ((decide (0xF8000 ≤ a) && decide (a < 0x100000)) || a == F.PWR_STATUS_RAIL_GOOD.addr || a == F.PWR_VIN_VIN_MV.addr ||
    a == F.PWR_TDEC_TEMP.addr || (decide (0xF01C0 ≤ a) && decide (a < 0xF01DC)) || decide (a < 0x20) || a == F.GLB_BOOT_STAT_STAGE.addr ||
    a == F.GLB_BOOT_SEQ_SEQ.addr || (decide (0x110 ≤ a) && decide (a < 0x120)))

/-- SIDEBAND_READ (R437): a completion byte, then the words in order; a word outside the set reads as zero. [log 118: DESIGN CHOICE] -/
def execSidebandRead (off count : Nat) (s : State) : Host.Outcome State Fault Refusal :=
  if count = 0 ∨ 16 < count then .next s
  else
    let addrs := (List.range count).map fun i => off + 4 * i
    let read := fun (x : List Nat × State) (a : Nat) =>
      if sidebandSet a then
        let y := x.2.readWord .sideband a
        (x.1 ++ [y.1], y.2)
      else (x.1 ++ [0], x.2)
    let r := addrs.foldl read ([], s)
    .next (r.2.answerWith (b2n (!addrs.all sidebandSet) :: r.1))

/-- SIDEBAND_RESET (R481): permitted to the operator and the security officer on the sideband port. [log 118: DESIGN CHOICE] -/
def execSidebandReset (s : State) : Host.Outcome State Fault Refusal :=
  if s.rd F.SEC_STATUS_SB_ROLE = 0 then .next (s.answerWith [0x01])
  else .next ((s.mainReset true).noteHeartbeat.answerWith [0x00])

end Sys2Proof.Machine
end

