-- ==== Sys2Proof/Machine/RegisterWrite.lean ====
section
/-! DEFINITION. Accesses by their requester: writes of the register window (R308, R325, R437, R446, R508), reads and writes of
pairs (R5), the lock (R510), and what a site core's load, store, atomic or fetch reaches (R282, R303). -/

namespace Sys2Proof.Machine

/-! ## Writes of the register window -/

/-- Whether R446, R477 and R479 permit a requester to write a word of the window. [log 114: DEDUCED; log 131: DESIGN CHOICE] -/
def State.mayStore (s : State) (r : Req) (a : Nat) (w : Word) : Bool :=
  let update := decide (0x140 ≤ a) && decide (a < 0x150)
  match r with
  | .host _ => a != 0x120 && s.hostMayWrite a w && (!update || s.rd F.SEC_STATUS_HOST_ROLE == 2)
  | .core c => s.sched.cores[c].machineMode && !soOnly a w && !update
  | .sideband => a == 0xF8400 || a == 0xF8500

/-- The words of an access with their addresses. -/
def wordsAt (a : Nat) (l : List Word) : List (Nat × Word) := l.zipIdx.map fun p => (a + 4 * p.2, p.1)

/-- Applies the words of a write in ascending order (R308, R508). [log 129: DEDUCED] -/
def State.storeAll (s : State) (r : Req) (l : List (Nat × Word)) : State := l.foldl (fun s p => s.storeWord r p.1 p.2) s

/-- A write of one or two words by a requester: applied whole and retired once, or not at all: a posted-write fault for the
host, a store access fault for a core (R325, R446). [log 129: DEDUCED] -/
def State.writeWords (s : State) (r : Req) (a : Nat) (l : List Word) : State :=
  let ws := wordsAt a l
  if ws.all fun p => s.mayStore r p.1 p.2 then
    let s := s.storeAll r ws
    match r with
    | .host _ => s.retire
    | _ => s
  else match r with
    | .host id => s.pwFault { reason := 6, win := 0, firstBe := 15, lastBe := if l.length = 1 then 0 else 15, len := l.length, off := a, reqId := id, page := 0, stamp := 0 }
    | .core c => s.coreTrap c 7 a
    | .sideband => s

/-- A write that R308 does not accept: the fault record's byte enables are those of the access, which the command does not
show. [log 129: DEDUCED] -/
def State.malformedWrite (s : State) (r : Req) (a len : Nat) : State :=
  match r with
  | .host id =>
    let f := s.takeFree
    f.2.pwFault { reason := 4, win := 0, firstBe := f.1 % 16, lastBe := f.1 / 16 % 16, len := len % 1024, off := a, reqId := id, page := 0, stamp := 0 }
  | .core c => s.coreTrap c 7 a
  | .sideband => s

/-- REGISTER_WRITE (R308, R508): one or two words at an address aligned to 4. [log 122: DESIGN CHOICE; log 131: DESIGN CHOICE] -/
def execRegisterWrite (req : Req) (addr : Nat) (words : List Word) (malformed : Bool) (s : State) : Host.Outcome State Fault Refusal :=
  if malformed ∨ addr % 4 ≠ 0 ∨ words.length = 0 ∨ 2 < words.length ∨ 2 ^ 24 < addr + 4 * words.length then
    .next (s.malformedWrite req addr words.length)
  else .next (s.writeWords req addr words)

/-- PAIR_LOW_WRITE (R5): the low word of a pair is held for the requester class. -/
def execPairLowWrite (req : Req) (addr : Nat) (w : Word) (s : State) : Host.Outcome State Fault Refusal :=
  if pairWritable addr then .next (s.writeWords req addr [w]) else .next s

/-- FAB_LOCK_WRITE (R510): a write of FAB_CTRL; with LOCK it is the security officer's. -/
def execFabLockWrite (req : Req) (w : Word) (s : State) : Host.Outcome State Fault Refusal :=
  .next (s.writeWords req F.FAB_CTRL_LOCK.addr [w])

/-! ## Reads of the register window -/

/-- A read by a requester of one or two words; a core's take load and its read of SCH_NEW_COMMIT act (R288, R298). -/
def State.readBy (s : State) (r : Req) (a words : Nat) : State :=
  match r, portOf a with
  | .core c, some k =>
    if c = k ∧ a % 0x100 = 0 then s.takeLoad c
    else if c = k ∧ a % 0x100 = 0x38 then s.newCommit c
    else
      let x := s.readWords r a words
      x.2.answerWith x.1
  | _, _ =>
    let x := s.readWords r a words
    x.2.answerWith x.1

/-- PAIR_LOW_READ (R5): the low word is returned and the high word latched for the requester class. -/
def execPairLowRead (req : Req) (addr : Nat) (s : State) : Host.Outcome State Fault Refusal :=
  if pairLow addr then .next (s.readBy req addr 1) else .next s

/-! ## Accesses of a site core (R282, R303) -/

/-- The exception code of an access fault. [log 128: PRESUMED] -/
def accCause : CoreAccess → Nat
  | .fetch => 1
  | .load => 5
  | .store | .amo => 7

/-- Whether an access reads, and whether it writes. -/
def accReads : CoreAccess → Bool
  | .store => false
  | _ => true
def accWrites : CoreAccess → Bool
  | .store | .amo => true
  | _ => false

/-- The bytes an access moves. [log 130: DEDUCED] -/
def span (off bytes : Nat) : List Nat := (List.range bytes).map (off + ·)

/-- Whether a core's access to a Canopy page is within the rights of its region, and in user mode to a granted page; a plug-in
page is not fetched from in machine mode (R282, R303). [log 130: DEDUCED] -/
def State.corePage (s : State) (c : Fin 8) (kind : CoreAccess) (user : Bool) (page : Nat) : Bool :=
  let plugin := s.forest.code.any fun k => k.page == page && k.plugin
  let right := match s.forest.regionOf page with
    | some 0 => !(accWrites kind)
    | some 1 => decide (kind = CoreAccess.load)
    | some 3 | some 4 => decide (kind ≠ CoreAccess.fetch)
    | _ => false
  right && (if user then s.sched.cores[c].grants.contains page else !(decide (kind = CoreAccess.fetch) && plugin))

/-- A Canopy byte as a core reads it: zero in the staging area. [log 130: DEDUCED] -/
def State.coreByte (s : State) (a : Nat) : Byte := if s.stagingPages.contains (a / canopyPage) then 0 else Mem.byte s.canopy a

/-- CORE_MEMORY_ACCESS (R282, R303): judged by the core address map; an access outside it or beyond the rights raises the access
fault of its kind. `data` is what a store writes, or what an atomic leaves in memory. [log 130: DEDUCED; log 142: DESIGN CHOICE] -/
def State.coreAccess (s : State) (c : Fin 8) (kind : CoreAccess) (user : Bool) (addr bytes data : Nat) : State :=
  let trap := s.coreTrap c (accCause kind) addr
  if addr < 0x1000000 then
    let words := bytes / 4
    if user ∨ addr % 4 ≠ 0 ∨ (bytes ≠ 4 ∧ bytes ≠ 8) ∨ 0x1000000 < addr + bytes then trap
    else match kind with
      | .load => s.readBy (.core c) addr words
      | .store => s.writeWords (.core c) addr ((List.range words).map fun i => BitVec.ofNat 32 (data / 2 ^ (32 * i)))
      | .fetch | .amo => trap
  else if 0x10000000 ≤ addr ∧ addr + bytes ≤ 0x18000000 then
    let l := span (addr - 0x10000000) bytes
    if l.all fun a => s.corePage c kind user (a / canopyPage) then
      let old := ofBytesLE (l.map s.coreByte)
      let s := if (accWrites kind) then { s with canopy := Mem.puts s.canopy (addr - 0x10000000) (bytesLE bytes data) } else s
      let s := if kind = CoreAccess.fetch then s.modCore c fun k => { k with icacheValid := true } else s
      if (accReads kind) then s.answerWith [old] else s
    else trap
  else if 0x800000000 ≤ addr ∧ addr + bytes ≤ 0x800000000 + s.sdramBytes then
    let off := addr - 0x800000000
    let share := s.rd F.FOR_SDRAM_SPLIT_GIB * 2 ^ 30
    if user ∨ kind = CoreAccess.fetch ∨ ((accWrites kind) ∧ off < share) then trap
    else
      let old := ofBytesLE (Mem.bytes s.sdram off bytes)
      let s := if (accWrites kind) then { s with sdram := Mem.puts s.sdram off (bytesLE bytes data) } else s
      if (accReads kind) then s.answerWith [old] else s
  else trap

/-- CORE_MEMORY_ACCESS (R282, R283, R303): an access of a site core through its address map.
[log 131: DESIGN CHOICE; log 132: DESIGN CHOICE; log 142: DESIGN CHOICE] -/
def execCoreMemoryAccess (c : Fin 8) (kind : CoreAccess) (user : Bool) (addr bytes data : Nat) (s : State) : Host.Outcome State Fault Refusal :=
  .next (s.coreAccess c kind user addr bytes data)

end Sys2Proof.Machine
end

