-- ==== Sys2Proof/Machine/Dispatch.lean ====
section
/-! DEFINITION. One arm per command of Sys2Proof.Instr, each a direct call of the command's meaning. -/

namespace Sys2Proof.Machine

def exec (i : Instr) (s : State) : Host.Outcome State Fault Refusal :=
  match i with
  | .burst h o => Sys2Proof.Machine.execBurst h o s
  | .stop h tag epoch => Sys2Proof.Machine.execStop h tag epoch s
  | .abort h tag epoch => Sys2Proof.Machine.execAbort h tag epoch s
  | .nop h => Sys2Proof.Machine.execNop h s
  | .structLoad h src length => Sys2Proof.Machine.execStructLoad h src length s
  | .segLoad h desc instr payload refs => Sys2Proof.Machine.execSegLoad h desc instr payload refs s
  | .segUnload h seg gen => Sys2Proof.Machine.execSegUnload h seg gen s
  | .codeLoad h src length codeId coreMask plugin sig => Sys2Proof.Machine.execCodeLoad h src length codeId coreMask plugin sig s
  | .evacuate h bank => Sys2Proof.Machine.execEvacuate h bank s
  | .scratchClaim h pages => Sys2Proof.Machine.execScratchClaim h pages s
  | .scratchRelease h claim => Sys2Proof.Machine.execScratchRelease h claim s
  | .captureRelease h grove => Sys2Proof.Machine.execCaptureRelease h grove s
  | .placementReport h dest maxLen => Sys2Proof.Machine.execPlacementReport h dest maxLen s
  | .snapshot h time linked grove id point => Sys2Proof.Machine.execSnapshot h time linked grove id point s
  | .calibrate h groups flags groves dscs => Sys2Proof.Machine.execCalibrate h groups flags groves dscs s
  | .taskCreate h d => Sys2Proof.Machine.execTaskCreate h d s
  | .taskFill h handle slot value => Sys2Proof.Machine.execTaskFill h handle slot value s
  | .taskCancel h handle => Sys2Proof.Machine.execTaskCancel h handle s
  | .authBegin p role keyIndex dest => Sys2Proof.Machine.execAuthBegin p role keyIndex dest s
  | .authFinish p sig => Sys2Proof.Machine.execAuthFinish p sig s
  | .logout p => Sys2Proof.Machine.execLogout p s
  | .provision h block length dest => Sys2Proof.Machine.execProvision h block length dest s
  | .keyLoad h block => Sys2Proof.Machine.execKeyLoad h block s
  | .keyErase h slot => Sys2Proof.Machine.execKeyErase h slot s
  | .zeroise h => Sys2Proof.Machine.execZeroise h s
  | .release p => Sys2Proof.Machine.execRelease p s
  | .quote h dest nonce mask => Sys2Proof.Machine.execQuote h dest nonce mask s
  | .selfTest h fails => Sys2Proof.Machine.execSelfTest h fails s
  | .debugUnlock h confirm => Sys2Proof.Machine.execDebugUnlock h confirm s
  | .random h dest len healthFail => Sys2Proof.Machine.execRandom h dest len healthFail s
  | .burstAdmission => Sys2Proof.Machine.execBurstAdmission s
  | .grantRaise => Sys2Proof.Machine.execGrantRaise s
  | .vfabRampDone => Sys2Proof.Machine.execVfabRampDone s
  | .vfabSettleExpiry => Sys2Proof.Machine.execVfabSettleExpiry s
  | .paceRingWindow counts => Sys2Proof.Machine.execPaceRingWindow counts s
  | .fabHoldoffExpiry => Sys2Proof.Machine.execFabHoldoffExpiry s
  | .burstArmed tag epoch => Sys2Proof.Machine.execBurstArmed tag epoch s
  | .burstStart tag epoch => Sys2Proof.Machine.execBurstStart tag epoch s
  | .granuleFetch t seg gen gran => Sys2Proof.Machine.execGranuleFetch t seg gen gran s
  | .granuleArrival t => Sys2Proof.Machine.execGranuleArrival t s
  | .run t ts csup mark n => Sys2Proof.Machine.execRun t ts csup mark n s
  | .rpt t ts csup mark n => Sys2Proof.Machine.execRpt t ts csup mark n s
  | .loop t dscm count => Sys2Proof.Machine.execLoop t dscm count s
  | .lend t => Sys2Proof.Machine.execLend t s
  | .mloop t dscm count => Sys2Proof.Machine.execMloop t dscm count s
  | .mend t comb => Sys2Proof.Machine.execMend t comb s
  | .call t seg gen => Sys2Proof.Machine.execCall t seg gen s
  | .ret t => Sys2Proof.Machine.execRet t s
  | .jseg t seg gen => Sys2Proof.Machine.execJseg t seg gen s
  | .jmp t tword tline => Sys2Proof.Machine.execJmp t tword tline s
  | .brc t cond comb tword tline => Sys2Proof.Machine.execBrc t cond comb tword tline s
  | .clrf t => Sys2Proof.Machine.execClrf t s
  | .sig t start count crc => Sys2Proof.Machine.execSig t start count crc s
  | .sigCheckDone t => Sys2Proof.Machine.execSigCheckDone t s
  | .halt t endDen => Sys2Proof.Machine.execHalt t endDen s
  | .illegalInstruction t => Sys2Proof.Machine.execIllegalInstruction t s
  | .hostStreamAnnounceMatch t => Sys2Proof.Machine.execHostStreamAnnounceMatch t s
  | .decisionResultsReady t => Sys2Proof.Machine.execDecisionResultsReady t s
  | .cycleCommit t cause => Sys2Proof.Machine.execCycleCommit t cause s
  | .voidLimitReached t => Sys2Proof.Machine.execVoidLimitReached t s
  | .cycleStart t levels hit => Sys2Proof.Machine.execCycleStart t levels hit s
  | .cycleResult t => Sys2Proof.Machine.execCycleResult t s
  | .abortEffect t => Sys2Proof.Machine.execAbortEffect t s
  | .stopEffect t => Sys2Proof.Machine.execStopEffect t s
  | .captureDrain g => Sys2Proof.Machine.execCaptureDrain g s
  | .outcomeRecordWrite tag epoch => Sys2Proof.Machine.execOutcomeRecordWrite tag epoch s
  | .structureStaged => Sys2Proof.Machine.execStructureStaged s
  | .structureValidated => Sys2Proof.Machine.execStructureValidated s
  | .dryRunPlacementDone => Sys2Proof.Machine.execDryRunPlacementDone s
  | .quiesceComplete => Sys2Proof.Machine.execQuiesceComplete s
  | .parkTimeout => Sys2Proof.Machine.execParkTimeout s
  | .structureSwap => Sys2Proof.Machine.execStructureSwap s
  | .structureScrub upset => Sys2Proof.Machine.execStructureScrub upset s
  | .symMapWrite req ch ts code hi w => Sys2Proof.Machine.execSymMapWrite req ch ts code hi w s
  | .symScrub hit => Sys2Proof.Machine.execSymScrub hit s
  | .tmgPeriodLoWrite req g ts w => Sys2Proof.Machine.execTmgPeriodLoWrite req g ts w s
  | .tmgPeriodHiWrite req g ts w => Sys2Proof.Machine.execTmgPeriodHiWrite req g ts w s
  | .timingTableWrite req addr w => Sys2Proof.Machine.execTimingTableWrite req addr w s
  | .tmgModDelayWrite req w => Sys2Proof.Machine.execTmgModDelayWrite req w s
  | .tmgScrub hit => Sys2Proof.Machine.execTmgScrub hit s
  | .pecGo req b w => Sys2Proof.Machine.execPecGo req b w s
  | .pecTransactionDone b rx => Sys2Proof.Machine.execPecTransactionDone b rx s
  | .syncEpochReceive => Sys2Proof.Machine.execSyncEpochReceive s
  | .syncEpochDrive => Sys2Proof.Machine.execSyncEpochDrive s
  | .trigInEdge n rising sub => Sys2Proof.Machine.execTrigInEdge n rising sub s
  | .hqStrmCfgWrite req t w => Sys2Proof.Machine.execHqStrmCfgWrite req t w s
  | .hqStrmPut req t w => Sys2Proof.Machine.execHqStrmPut req t w s
  | .hqStrmAnnounce req t w => Sys2Proof.Machine.execHqStrmAnnounce req t w s
  | .segmentCopyDone seg gen => Sys2Proof.Machine.execSegmentCopyDone seg gen s
  | .moveCopyDone seg gen => Sys2Proof.Machine.execMoveCopyDone seg gen s
  | .moveSwitch seg gen => Sys2Proof.Machine.execMoveSwitch seg gen s
  | .corePark c => Sys2Proof.Machine.execCorePark c s
  | .codePageMove => Sys2Proof.Machine.execCodePageMove s
  | .forQueryWrite req w => Sys2Proof.Machine.execForQueryWrite req w s
  | .forSdramSplitWrite req w => Sys2Proof.Machine.execForSdramSplitWrite req w s
  | .capChmaskWrite req n w => Sys2Proof.Machine.execCapChmaskWrite req n w s
  | .capSnapCmd req w => Sys2Proof.Machine.execCapSnapCmd req w s
  | .snapshotTimePoint => Sys2Proof.Machine.execSnapshotTimePoint s
  | .trgArm e => Sys2Proof.Machine.execTrgArm e s
  | .trgDisarm e => Sys2Proof.Machine.execTrgDisarm e s
  | .trgForce e => Sys2Proof.Machine.execTrgForce e s
  | .trgSample e ticks late => Sys2Proof.Machine.execTrgSample e ticks late s
  | .trgRecordComplete e => Sys2Proof.Machine.execTrgRecordComplete e s
  | .trgHoldoffExpiry e => Sys2Proof.Machine.execTrgHoldoffExpiry e s
  | .trgTimeoutExpiry e => Sys2Proof.Machine.execTrgTimeoutExpiry e s
  | .trgRead e n => Sys2Proof.Machine.execTrgRead e n s
  | .tmuArm u => Sys2Proof.Machine.execTmuArm u s
  | .tmuDisarm u => Sys2Proof.Machine.execTmuDisarm u s
  | .tmuClose u => Sys2Proof.Machine.execTmuClose u s
  | .tmuEdge u tick code rising late => Sys2Proof.Machine.execTmuEdge u tick code rising late s
  | .tmuGateOpen u => Sys2Proof.Machine.execTmuGateOpen u s
  | .tmuGateExpiry u => Sys2Proof.Machine.execTmuGateExpiry u s
  | .tmuResultsFinal u => Sys2Proof.Machine.execTmuResultsFinal u s
  | .tmuResCountRead req u => Sys2Proof.Machine.execTmuResCountRead req u s
  | .tmuRead u n => Sys2Proof.Machine.execTmuRead u n s
  | .tmuBinDataRead req => Sys2Proof.Machine.execTmuBinDataRead req s
  | .codeDensityCalibration unit => Sys2Proof.Machine.execCodeDensityCalibration unit s
  | .codeDensityDone unit hits => Sys2Proof.Machine.execCodeDensityDone unit hits s
  | .driftQualified unit => Sys2Proof.Machine.execDriftQualified unit s
  | .dscModeRequest d mode discAfter => Sys2Proof.Machine.execDscModeRequest d mode discAfter s
  | .dscCommit d => Sys2Proof.Machine.execDscCommit d s
  | .dscRcBindWrite d p w => Sys2Proof.Machine.execDscRcBindWrite d p w s
  | .loopSample d v ihg ilg ovld parityError dropped => Sys2Proof.Machine.execLoopSample d v ihg ilg ovld parityError dropped s
  | .loopComputeDone d behind => Sys2Proof.Machine.execLoopComputeDone d behind s
  | .dscMarkerDelivery t seg gen word depth => Sys2Proof.Machine.execDscMarkerDelivery t seg gen word depth s
  | .rcPassComplete d p => Sys2Proof.Machine.execRcPassComplete d p s
  | .dscScrub hit => Sys2Proof.Machine.execDscScrub hit s
  | .trcCtrlWrite req b w => Sys2Proof.Machine.execTrcCtrlWrite req b w s
  | .dscFltLLow d => Sys2Proof.Machine.execDscFltLLow d s
  | .switchingPeriodStart d => Sys2Proof.Machine.execSwitchingPeriodStart d s
  | .pccTrip d step => Sys2Proof.Machine.execPccTrip d step s
  | .windowHighTrip d step => Sys2Proof.Machine.execWindowHighTrip d step s
  | .windowLowTrip d step => Sys2Proof.Machine.execWindowLowTrip d step s
  | .ovpTrip d step => Sys2Proof.Machine.execOvpTrip d step s
  | .dscOverVoltage d => Sys2Proof.Machine.execDscOverVoltage d s
  | .cmpStGo d => Sys2Proof.Machine.execCmpStGo d s
  | .cmpSelfCheckDone d fails => Sys2Proof.Machine.execCmpSelfCheckDone d fails s
  | .residualWatchTick seen => Sys2Proof.Machine.execResidualWatchTick seen s
  | .schNewCommit c => Sys2Proof.Machine.execSchNewCommit c s
  | .schTake c => Sys2Proof.Machine.execSchTake c s
  | .taskDispatch c parityError => Sys2Proof.Machine.execTaskDispatch c parityError s
  | .schDone c w => Sys2Proof.Machine.execSchDone c w s
  | .schFill c w => Sys2Proof.Machine.execSchFill c w s
  | .schCancel c w => Sys2Proof.Machine.execSchCancel c w s
  | .schKick c => Sys2Proof.Machine.execSchKick c s
  | .schWdogWrite c w => Sys2Proof.Machine.execSchWdogWrite c w s
  | .watchdogExpiry c => Sys2Proof.Machine.execWatchdogExpiry c s
  | .machineTimerPending c => Sys2Proof.Machine.execMachineTimerPending c s
  | .schScrub bad => Sys2Proof.Machine.execSchScrub bad s
  | .coreMemoryAccess c kind user addr bytes data => Sys2Proof.Machine.execCoreMemoryAccess c kind user addr bytes data s
  | .sqTailDoorbell q tail => Sys2Proof.Machine.execSqTailDoorbell q tail s
  | .commandFetch q e => Sys2Proof.Machine.execCommandFetch q e s
  | .hostReadResponse h ok => Sys2Proof.Machine.execHostReadResponse h ok s
  | .completionWrite q ok => Sys2Proof.Machine.execCompletionWrite q ok s
  | .cqHeadDoorbell q head => Sys2Proof.Machine.execCqHeadDoorbell q head s
  | .queueCfgWrite req q cq w => Sys2Proof.Machine.execQueueCfgWrite req q cq w s
  | .coalescingTimerExpiry q => Sys2Proof.Machine.execCoalescingTimerExpiry q s
  | .functionLevelReset => Sys2Proof.Machine.execFunctionLevelReset s
  | .powerStateChange d3hot => Sys2Proof.Machine.execPowerStateChange d3hot s
  | .hqWseqRead => Sys2Proof.Machine.execHqWseqRead s
  | .hqPwfPop => Sys2Proof.Machine.execHqPwfPop s
  | .canopyWindowWrite reqId off data poisoned => Sys2Proof.Machine.execCanopyWindowWrite reqId off data poisoned s
  | .canopyWindowRead off len => Sys2Proof.Machine.execCanopyWindowRead off len s
  | .sdramWindowWrite reqId off data poisoned => Sys2Proof.Machine.execSdramWindowWrite reqId off data poisoned s
  | .sdramWindowRead off len => Sys2Proof.Machine.execSdramWindowRead off len s
  | .registerWrite req addr words malformed => Sys2Proof.Machine.execRegisterWrite req addr words malformed s
  | .pairLowRead req addr => Sys2Proof.Machine.execPairLowRead req addr s
  | .pairLowWrite req addr w => Sys2Proof.Machine.execPairLowWrite req addr w s
  | .fabLockWrite req w => Sys2Proof.Machine.execFabLockWrite req w s
  | .frameSend lane => Sys2Proof.Machine.execFrameSend lane s
  | .frameReceive lane slot sub line => Sys2Proof.Machine.execFrameReceive lane slot sub line s
  | .tokenGrove lane body => Sys2Proof.Machine.execTokenGrove lane body s
  | .tokenArmed lane body => Sys2Proof.Machine.execTokenArmed lane body s
  | .tokenStart lane body => Sys2Proof.Machine.execTokenStart lane body s
  | .tokenSnapshot lane body => Sys2Proof.Machine.execTokenSnapshot lane body s
  | .tokenEcho lane body => Sys2Proof.Machine.execTokenEcho lane body s
  | .tokenIdent lane body => Sys2Proof.Machine.execTokenIdent lane body s
  | .tokenDesc lane body => Sys2Proof.Machine.execTokenDesc lane body s
  | .msgReceive lane body => Sys2Proof.Machine.execMsgReceive lane body s
  | .peerReceive lane body => Sys2Proof.Machine.execPeerReceive lane body s
  | .nakReceive lane seq => Sys2Proof.Machine.execNakReceive lane seq s
  | .mflMsgSend lane => Sys2Proof.Machine.execMflMsgSend lane s
  | .mflMsgPop lane => Sys2Proof.Machine.execMflMsgPop lane s
  | .mflCfgWrite req w => Sys2Proof.Machine.execMflCfgWrite req w s
  | .fomWindow lane fom ups => Sys2Proof.Machine.execFomWindow lane fom ups s
  | .linkRetrain lane cause => Sys2Proof.Machine.execLinkRetrain lane cause s
  | .linkUp lane => Sys2Proof.Machine.execLinkUp lane s
  | .linkFailed lane => Sys2Proof.Machine.execLinkFailed lane s
  | .linkBringupRetry lane => Sys2Proof.Machine.execLinkBringupRetry lane s
  | .linkIdleEntry lane => Sys2Proof.Machine.execLinkIdleEntry lane s
  | .linkIdleExit lane => Sys2Proof.Machine.execLinkIdleExit lane s
  | .timRateWrite req w => Sys2Proof.Machine.execTimRateWrite req w s
  | .rateApply => Sys2Proof.Machine.execRateApply s
  | .timStepHiWrite req w => Sys2Proof.Machine.execTimStepHiWrite req w s
  | .stepApply => Sys2Proof.Machine.execStepApply s
  | .timCtrlWrite req w => Sys2Proof.Machine.execTimCtrlWrite req w s
  | .timeRequestSend => Sys2Proof.Machine.execTimeRequestSend s
  | .timeRequestReceive lane body => Sys2Proof.Machine.execTimeRequestReceive lane body s
  | .timeReplyReceive lane body => Sys2Proof.Machine.execTimeReplyReceive lane body s
  | .ethFrameReceive frame ok frac => Sys2Proof.Machine.execEthFrameReceive frame ok frac s
  | .ethFrameTransmit frac => Sys2Proof.Machine.execEthFrameTransmit frac s
  | .timTxtsPop => Sys2Proof.Machine.execTimTxtsPop s
  | .dmcInit => Sys2Proof.Machine.execDmcInit s
  | .dmcTrainingDone step subs margins => Sys2Proof.Machine.execDmcTrainingDone step subs margins s
  | .dmcRetrain => Sys2Proof.Machine.execDmcRetrain s
  | .sdramRequest port write addr data be deadline => Sys2Proof.Machine.execSdramRequest port write addr data be deadline s
  | .commandSlot sub => Sys2Proof.Machine.execCommandSlot sub s
  | .readDataReturn port => Sys2Proof.Machine.execReadDataReturn port s
  | .alertN sub => Sys2Proof.Machine.execAlertN sub s
  | .refreshInterval sub => Sys2Proof.Machine.execRefreshInterval sub s
  | .mr4Read sub fast hot => Sys2Proof.Machine.execMr4Read sub fast hot s
  | .zqCalibration sub => Sys2Proof.Machine.execZqCalibration sub s
  | .dqsOscillatorRead sub => Sys2Proof.Machine.execDqsOscillatorRead sub s
  | .rowIdleClose sub rank bank => Sys2Proof.Machine.execRowIdleClose sub rank bank s
  | .powerDownEntry sub => Sys2Proof.Machine.execPowerDownEntry sub s
  | .refclkMissingEdge => Sys2Proof.Machine.execRefclkMissingEdge s
  | .referenceMonitorWindow count => Sys2Proof.Machine.execReferenceMonitorWindow count s
  | .oscillatorSwitchover => Sys2Proof.Machine.execOscillatorSwitchover s
  | .clkReturnWrite req w => Sys2Proof.Machine.execClkReturnWrite req w s
  | .frequencyLock => Sys2Proof.Machine.execFrequencyLock s
  | .returnComplete => Sys2Proof.Machine.execReturnComplete s
  | .oscillatorMonitorWindow count => Sys2Proof.Machine.execOscillatorMonitorWindow count s
  | .forceIntWrite req w => Sys2Proof.Machine.execForceIntWrite req w s
  | .clkoutCfgWrite req w => Sys2Proof.Machine.execClkoutCfgWrite req w s
  | .vinSample mv ma => Sys2Proof.Machine.execVinSample mv ma s
  | .vinCapRise => Sys2Proof.Machine.execVinCapRise s
  | .vinUndervoltage => Sys2Proof.Machine.execVinUndervoltage s
  | .vinOvervoltage => Sys2Proof.Machine.execVinOvervoltage s
  | .inputLimitExpiry => Sys2Proof.Machine.execInputLimitExpiry s
  | .railOutOfRange r => Sys2Proof.Machine.execRailOutOfRange r s
  | .regulatorUpdateLost r => Sys2Proof.Machine.execRegulatorUpdateLost r s
  | .temperatureUpdate readings => Sys2Proof.Machine.execTemperatureUpdate readings s
  | .thermalFlagSet k => Sys2Proof.Machine.execThermalFlagSet k s
  | .thermalFlagClear k => Sys2Proof.Machine.execThermalFlagClear k s
  | .limitTimerExpiry => Sys2Proof.Machine.execLimitTimerExpiry s
  | .wearLedgerCopy => Sys2Proof.Machine.execWearLedgerCopy s
  | .wearLedgerFlash => Sys2Proof.Machine.execWearLedgerFlash s
  | .vinRise => Sys2Proof.Machine.execVinRise s
  | .railGood r => Sys2Proof.Machine.execRailGood r s
  | .powerDown => Sys2Proof.Machine.execPowerDown s
  | .resetL level => Sys2Proof.Machine.execResetL level s
  | .understoryTick => Sys2Proof.Machine.execUnderstoryTick s
  | .powerupCalibration => Sys2Proof.Machine.execPowerupCalibration s
  | .calibrationRunEnd results refclk => Sys2Proof.Machine.execCalibrationRunEnd results refclk s
  | .faultOccurrence src => Sys2Proof.Machine.execFaultOccurrence src s
  | .dualSourceActive src active => Sys2Proof.Machine.execDualSourceActive src active s
  | .dualLineMismatch src => Sys2Proof.Machine.execDualLineMismatch src s
  | .collectorScrub ok => Sys2Proof.Machine.execCollectorScrub ok s
  | .collectorLineTest ok => Sys2Proof.Machine.execCollectorLineTest ok s
  | .fltForceWrite req n w => Sys2Proof.Machine.execFltForceWrite req n w s
  | .firebreakStart cause src => Sys2Proof.Machine.execFirebreakStart cause src s
  | .dscRampOpen d reason us => Sys2Proof.Machine.execDscRampOpen d reason us s
  | .faultRecordWrite => Sys2Proof.Machine.execFaultRecordWrite s
  | .clearingStateEntry => Sys2Proof.Machine.execClearingStateEntry s
  | .heartbeatToggle => Sys2Proof.Machine.execHeartbeatToggle s
  | .tamperEvent kind => Sys2Proof.Machine.execTamperEvent kind s
  | .nonceExpiry sideband => Sys2Proof.Machine.execNonceExpiry sideband s
  | .lockoutExpiry sideband => Sys2Proof.Machine.execLockoutExpiry sideband s
  | .sidebandRead off count => Sys2Proof.Machine.execSidebandRead off count s
  | .sidebandReset => Sys2Proof.Machine.execSidebandReset s
  | .getVersion => Sys2Proof.Machine.execGetVersion s
  | .getCapabilities => Sys2Proof.Machine.execGetCapabilities s
  | .negotiateAlgorithms offer => Sys2Proof.Machine.execNegotiateAlgorithms offer s
  | .getDigests => Sys2Proof.Machine.execGetDigests s
  | .getCertificate off len => Sys2Proof.Machine.execGetCertificate off len s
  | .challenge nonce => Sys2Proof.Machine.execChallenge nonce s
  | .getMeasurements index signed nonce => Sys2Proof.Machine.execGetMeasurements index signed nonce s
  | .tapInstruction ir => Sys2Proof.Machine.execTapInstruction ir s
  | .bootRomStart fails => Sys2Proof.Machine.execBootRomStart fails s
  | .bootRecordWritten torn => Sys2Proof.Machine.execBootRecordWritten torn s
  | .confirmationTimerExpiry => Sys2Proof.Machine.execConfirmationTimerExpiry s
  | .glbBootConfirm req w => Sys2Proof.Machine.execGlbBootConfirm req w s
  | .download req kind src len => Sys2Proof.Machine.execDownload req kind src len s
  | .verify req kind => Sys2Proof.Machine.execVerify req kind s
  | .activate req kind => Sys2Proof.Machine.execActivate req kind s
  | .abandon req kind => Sys2Proof.Machine.execAbandon req kind s
  | .updateOperationEnd flashOk => Sys2Proof.Machine.execUpdateOperationEnd flashOk s
  | .dscFltLHigh d => Sys2Proof.Machine.execDscFltLHigh d s
  | .comparatorLevelFalse d which => Sys2Proof.Machine.execComparatorLevelFalse d which s
  | .qualifierTimeReached e => Sys2Proof.Machine.execQualifierTimeReached e s
  | .vstbyLoss => Sys2Proof.Machine.execVstbyLoss s
  | .vstbyReturn => Sys2Proof.Machine.execVstbyReturn s
  | .alertNHigh sub => Sys2Proof.Machine.execAlertNHigh sub s
  | .pciePerstL level => Sys2Proof.Machine.execPciePerstL level s
  | .calibrationRecordWritten ok => Sys2Proof.Machine.execCalibrationRecordWritten ok s

end Sys2Proof.Machine
end

