-- ==== Sys2Proof/Machine/Step.lean ====
section
/-! DEFINITION. One step: the command at the front of the queue is taken and executed with the rest of the queue; on an
empty queue the block idles while its clock counts. -/

namespace Sys2Proof.Machine

/-- The clock's tick, which is what a step on an empty queue does: the raw count advances by one tick of 1.25 ns (R346), and
TRIG_IN is sampled where that is a REFCLK edge (R114). DESIGN CHOICE (log entry 2). [log 2: DESIGN CHOICE] -/
def tick (s : State) : State := s.clockTick

/-- The step function of the block. -/
def step (s : State) : Host.Outcome State Fault Refusal :=
  match s.pending with
  | [] => .next (tick s)
  | c :: rest => exec c { s with pending := rest }

/-- Puts the command a table word spells at the front of the queue; no row of the table gives bits, so there is none.
[log 2: DESIGN CHOICE; log 3: DESIGN CHOICE] -/
def State.withFetchWord (s : State) (nbits w : Nat) : State :=
  match decodeTableWord nbits w with
  | some c => { s with pending := c :: s.pending }
  | none => s

end Sys2Proof.Machine
end

