-- ==== Sys2Proof/Safety.lean ====
section
/-! DEFINITION. What a safe state is, and the terms the statements use: canonical form of every sparse list, the answer of a
command, and the frames that say what a command leaves unchanged. -/

namespace Sys2Proof.Machine

/-! ## Canonical form -/

/-- The blocks of the register window (R507). -/
def allBlks : List Blk :=
  [.glb, .str, .fab, .fst, .seq, .cap, .trg, .tmu, .dsc, .cmp, .sch, .hq, .mfl, .tim, .dmc, .sec, .clk, .pwr, .cal, .flt, .tmg, .sym]

/-- A block's register file is in canonical form: addresses rising, no entry equal to its reset word. -/
def State.fileWf (s : State) (b : Blk) : Bool := cellsWf (resetWord b) 0 (s.regs.get b)

/-- Every byte memory is in canonical form. -/
def State.memWf (s : State) : Bool := Mem.wf s.canopy && Mem.wf s.sdram && Mem.wf s.flash && Mem.wf s.host

/-- Every register file and every byte memory is in canonical form, so that equal contents are equal data. -/
def State.wf (s : State) : Bool := allBlks.all s.fileWf && s.memWf

/-! ## Answers -/

/-- The command answers a next state, of which `P` holds. -/
def Answers (c : Instr) (s : State) (P : State → Prop) : Prop := ∃ t, exec c s = .next t ∧ P t

/-- The command answers the state itself: it has no effect. [log 6: DESIGN CHOICE] -/
def NoEffect (c : Instr) (s : State) : Prop := exec c s = .next s

/-! ## Frames -/

/-- Every word of the register window is unchanged except those at the listed addresses. -/
def RegsSame (out : List Nat) (s t : State) : Prop := ∀ b a, a ∉ out → t.word b a = s.word b a

/-- Every byte of the Canopy, the SDRAM, the flash and host memory reads as before. -/
def BytesSame (s t : State) : Prop :=
  ∀ a, Mem.byte t.canopy a = Mem.byte s.canopy a ∧ Mem.byte t.sdram a = Mem.byte s.sdram a ∧
    Mem.byte t.flash a = Mem.byte s.flash a ∧ Mem.byte t.host a = Mem.byte s.host a

/-- The registers at other addresses, and every byte of memory, are unchanged. -/
def Quiet (out : List Nat) (s t : State) : Prop := RegsSame out s t ∧ BytesSame s t

/-- Nothing but registers differs. -/
def RegsOnly (s t : State) : Prop := t = { s with regs := t.regs }

/-- Nothing but registers, the host interface's completions, vectors and posted-write faults, and the matching store differs:
what reporting an event can reach. -/
def EventOnly (s t : State) : Prop := t = { s with regs := t.regs, hq := t.hq, sched := t.sched }

/-- The registers that setting a bit of an event register can change (R292, R513). -/
def evOut (r : EvReg) : List Nat := [r.ev, (F.SCH_UNCLAIMED_COUNT).addr, Ev.sch.ev]

/-- The registers that one occurrence of a scheduler source can change (R292). -/
def occOut : List Nat := [(F.SCH_UNCLAIMED_COUNT).addr, Ev.sch.ev]

/-- The registers that one occurrence of a fault source of class RECORD or NOTIFY can change (R421, R424). -/
def faultOut (i : Nat) : List Nat :=
  [(F.FLT_STATUS_STATE).addr, (F.FLT_FIRST_TIME_LO_TIME).addr, (F.FLT_FIRST_TIME_LO_TIME).addr + 4, (F.FLT_LATCH_LATCH (i / 32)).addr] ++
    evOut Ev.flt

/-! ## Host commands and register writes -/

/-- An accepted command of a header and opcode waits to begin, and no fault keeps it from beginning (R313, R326). [log 107: DEDUCED] -/
def State.canBegin (s : State) (h : Hdr) (opc : Nat) : Prop :=
  (s.waitingCmd h opc).isSome = true ∧ (s.clearing = false ∨ cutOpc opc = false)

/-- One completion has joined those that wait to be written, and no other (R316). -/
def Completes (s u : State) (h : Hdr) (status detail result : Nat) : Prop :=
  u.hq.compls = s.hq.compls ++ [⟨h, status, detail, result, false⟩]

/-- A security command may begin on its port: the self-tests are done, and on a queue an entry of its opcode waits (R443, R461). -/
def State.portReady (s : State) (p : Port) (opc : Nat) : Prop :=
  s.on F.SEC_STATUS_ST_DONE = true ∧ match p with
    | .host h => s.canBegin h opc
    | .sideband => True

/-- The port's answer: a completion, or the words of the sideband's response. -/
def Replies (s u : State) (p : Port) (status detail result : Nat) : Prop :=
  match p with
  | .host h => Completes s u h status detail result
  | .sideband => u.hq.answer = [status, result, detail]

/-- A requester may write a register: the host by its role, a core what is not the security officer's, the sideband the two
record selectors (R437, R446). -/
def State.mayWrite (s : State) (req : Req) (addr : Nat) (w : Word) : Bool :=
  match req with
  | .host _ => s.hostMayWrite addr w
  | .core _ => !soOnly addr w
  | .sideband => decide (addr = 0xF8400 ∨ addr = 0xF8500)

/-- The low word a requester's write of a high word pairs with: the one its class holds, or the one in force (R5). -/
def State.lowFor (s : State) (r : Req) (f : Fld) : Nat := (s.takeHeld r f.addr (s.rd f)).1

/-- HQ_WSEQ, which counts the host's writes that retire without fault (R328). -/
def wseqOut : Nat := (F.HQ_WSEQ_COUNT).addr

/-- The calibration record and its seal as the commit of a run writes them, and the slot they go to (R413, R469). -/
def State.calSvn (s : State) : Nat :=
  if s.on F.GLB_UPD_CMD_CAL_ADVANCE ∧ s.rd (F.SEC_ARB_COUNT 2) < 64 then s.rd (F.SEC_ARB_COUNT 2) + 1 else s.rd (F.SEC_ARB_COUNT 2)
def State.calImage (s : State) (key : Nat) : List Byte := pad64 (s.recordBytes key) ++ sealBytes key s.calSvn (s.recordBytes key)
def State.calSlot (s : State) : Nat := slotBase 2 (1 - s.rd (F.GLB_BOOT_KIND_ACTIVE 2))

/-- The commands that are a write of one register: requester, address and word. -/
def writeOf : Instr → Option (Req × Nat × Word)
  | .symMapWrite r ch ts code hi w => some (r, (if hi then symHi ch ts code else symLo ch ts code).addr, w)
  | .tmgPeriodLoWrite r g ts w => some (r, (F.TMG_PERIOD_LO g ts).addr, w)
  | .tmgPeriodHiWrite r g ts w => some (r, (F.TMG_PERIOD_HI g ts).addr, w)
  | .timingTableWrite r a w => some (r, a, w)
  | .tmgModDelayWrite r w => some (r, F.TMG_MOD_DELAY_DELAY.addr, w)
  | .pecGo r b w => some (r, (F.PEC_CMD_GO b).addr, w)
  | .hqStrmCfgWrite r t w => some (r, (F.HQ_STRM_CFG_RING t).addr, w)
  | .hqStrmPut r t w => some (r, (F.HQ_STRM_PUT_COUNT t).addr, w)
  | .hqStrmAnnounce r t w => some (r, (F.HQ_STRM_ANNOUNCE_SEG t).addr, w)
  | .forQueryWrite r w => some (r, F.FOR_QUERY_SEG.addr, w)
  | .forSdramSplitWrite r w => some (r, F.FOR_SDRAM_SPLIT_GIB.addr, w)
  | .capChmaskWrite r i w => some (r, (F.CAP_CHMASK_MASK i).addr, w)
  | .capSnapCmd r w => some (r, F.CAP_SNAP_CMD_KIND.addr, w)
  | .trcCtrlWrite r b w => some (r, (F.TRC_CTRL_EN b).addr, w)
  | .queueCfgWrite r q cq w => some (r, (if cq then F.HQ_CQ_CFG_SIZE q else F.HQ_SQ_CFG_SIZE q).addr, w)
  | .mflCfgWrite r w => some (r, F.MFL_CFG_LANE_EN.addr, w)
  | .timRateWrite r w => some (r, F.TIM_RATE_RATE.addr, w)
  | .timStepHiWrite r w => some (r, F.TIM_STEP_LO_STEP.hi.addr, w)
  | .timCtrlWrite r w => some (r, F.TIM_CTRL_HOLDOVER.addr, w)
  | .clkReturnWrite r w => some (r, F.CLK_CTRL_AUTO_RETURN.addr, w)
  | .forceIntWrite r w => some (r, F.CLK_CTRL_FORCE_INT.addr, w)
  | .clkoutCfgWrite r w => some (r, F.CLKOUT_CFG_SRC.addr, w)
  | .fltForceWrite r i w => some (r, (F.FLT_FORCE_FORCE i).addr, w)
  | _ => none

/-! ## Tasks -/

/-- The tasks of the matching store apart from the instants at which they became dispatchable. -/
def bareTasks (l : List Task) : List Task := l.map fun t => { t with since := none }

/-- The descriptor a core has staged at its port (R288). -/
def State.staged (s : State) (c : Fin 8) : TaskDesc :=
  let w := fun i => s.rd (F.SCH_NEW_WORD c i)
  { flow := fieldOf (w 0) 0 16, nslot := fieldOf (w 0) 16 8, mask := fieldOf (w 0) 24 8, entry := w 1, arg := w 2 + 2 ^ 32 * w 3
    srcs := [fieldOf (w 4) 0 16, fieldOf (w 4) 16 16, fieldOf (w 5) 0 16, fieldOf (w 5) 16 16], reserved := w 6 + 2 ^ 32 * w 7 }

/-- The entry that a commit of a descriptor makes (R288, R289, R294). -/
def State.newTask (s : State) (d : TaskDesc) : Task :=
  { index := s.sched.allocate.1, gen := s.sched.allocate.2.genOf s.sched.allocate.1, flow := d.flow, nslot := d.nslot, mask := d.mask
    entry := d.entry, arg := d.arg, srcs := usedSrcs d, slots := List.replicate d.nslot none
    state := if d.nslot = 0 then .ready else .waiting, since := none, resume := false }

/-! ## Calibration -/

/-- The run flags that a calibration's begin and end write (R178, R235, R418). -/
def calOut : List Nat := [(F.CAL_STATUS_RUNNING).addr, (F.TMG_STATUS_CAL_RUN).addr, (F.TMU_GSTATUS_CAL_RUN).addr]

/-! ## Supply rails -/

/-- PWR_RAIL and PWR_RAIL_LIM of the house rails that the structure image sets (R42, R395). -/
def railOut : List Nat := [1, 2, 3, 4, 5].flatMap fun r => [(F.PWR_RAIL_SET_MV r).addr, (F.PWR_RAIL_LIM_OV_PCT r).addr]

/-! ## Trigger engines -/

/-- The samples an engine holds that lie before a point, the latest PRE of them, and those from it on, the first POST (R214). -/
def State.heldBefore (s : State) (e : Fin 4) (point : Nat) : List TrgSamp :=
  let l := s.acq.trg[e].ring.reverse.filter fun x => decide (x.time < point)
  l.drop (l.length - s.acq.trg[e].pre)
def State.heldFrom (s : State) (e : Fin 4) (point : Nat) : List TrgSamp :=
  (s.acq.trg[e].ring.reverse.filter fun x => decide (point ≤ x.time)).take s.acq.trg[e].post

/-! ## Time measurement units -/

/-- The instant of an edge of a unit's source as the unit stamps it, in fine units (R219, R220). -/
def State.edgeAt (s : State) (u : Fin 32) (tick code : Nat) : Nat :=
  (s.stampOf u (s.rd (F.TMU_SRC_SRC u)) (s.routeOf u) tick code).1.toNat

/-! ## Sequencer threads -/

/-- The thread decodes, and the stored words at its place in segment `x` spell an instruction without error (R93 to R95, R100). -/
def State.readyFor (s : State) (t : Fin 32) (op : SeqOp) (x : Seg) : Prop :=
  s.decodes t = true ∧ s.threadSeg t = some x ∧ s.placeError t x = none ∧ seqOp (s.wordPair t x).1 (s.wordPair t x).2 = some op

/-- FAB_FILL of every grove. -/
def fillOut : List Nat := (List.range 32).map fun g => (F.FAB_FILL_FILL g).addr

/-- The word counter, SEQ_STATUS and the SEQ_PASS registers of a thread: what a change of its control stack writes. -/
def stackOut (t : Fin 32) : List Nat :=
  [(F.SEQ_PC_WORD t).addr, (F.SEQ_STATUS_DEPTH t).addr] ++ (List.range 16).map fun i => (F.SEQ_PASS_PASSES t i).addr

/-! ## Links -/

/-- The token a command delivers: the first of its type among those its lane holds, its slot come (R335, R342). [log 82: DESIGN CHOICE] -/
def State.arrived (s : State) (lane : Fin 8) (ty : Nat) (body : List Byte) (x : InTok) : Prop :=
  (s.links.lanes[lane].inbox.find? fun y => y.tok % 16 == ty) = some x ∧ x.tok = leAt body 0 16 ∧ x.due ≤ s.tim.raw / 8

/-- Bytes 2 to 69 of a frame as a lane descrambles them off its line (R333). -/
def State.frameOf (s : State) (lane : Fin 8) (line : List Byte) : List Byte :=
  (scrBytes descrambleBit s.links.lanes[lane].rxScr (line.drop 2)).1

/-- Nothing but the lanes listed differs. -/
def LanesOnly (out : List (Fin 8)) (s u : State) : Prop :=
  (∀ k, k ∉ out → u.links.lanes[k] = s.links.lanes[k]) ∧ u = { s with links := { s.links with lanes := u.links.lanes } }

/-- MFL_LANE_STAT of every lane and MFL_STATUS; the LINK words of the structure and STR_STATUS. -/
def laneOut : List Nat := (F.MFL_STATUS_UP).addr :: (List.range 8).map fun k => (F.MFL_LANE_STAT_STATE k).addr
def agreedOut : List Nat := (F.STR_STATUS_LINK_PENDING).addr :: (List.range 8).map fun l => (F.STR_LINK_AGREED l).addr

end Sys2Proof.Machine
end

