-- ==== Sys2Proof/Certificates/Slice0/Obligations.lean ====
section
/-! DEFINITION. The statements for the provers: what each family of commands does and leaves unchanged, from the rules of
spec/, and the invariants of the whole block. `OBLIGATIONS.json` lists them in this order. -/

open Sys2Proof Sys2Proof.Machine

/-- R96: RUN pushes the next `n` payload lines, one a cycle; RPT pushes one line `n` times. Line numbers and the payload
position advance by what was emitted, the word counter by one, and nothing else of the thread's control changes. A thread that
does not decode ignores both. -/
def Obligations.EmissionAdvances : Prop :=
  (∀ (t : Fin 32) (ts : Nat) (csup : Bool) (mark n : Nat) (s : State) (x : Seg), s.readyFor t (.run ts csup mark n) x → 0 < n → n < 2 ^ 32 →
    s.threads[t].pos + n ≤ x.lines → Answers (.run t ts csup mark n) s fun u =>
      u.threads[t].line = s.threads[t].line + n ∧ u.threads[t].pos = s.threads[t].pos + n ∧
      u.threads[t].stack = s.threads[t].stack ∧ u.rd (F.SEQ_PC_WORD t) = (s.rd (F.SEQ_PC_WORD t) + 1) % 2 ^ 24 ∧
      (∀ v, v ≠ t → u.threads[v] = s.threads[v]) ∧ Quiet ((F.SEQ_PC_WORD t).addr :: fillOut) s u) ∧
  (∀ (t : Fin 32) (ts : Nat) (csup : Bool) (mark n : Nat) (s : State) (x : Seg), s.readyFor t (.rpt ts csup mark n) x → 0 < n → n < 2 ^ 32 →
    s.threads[t].pos < x.lines → Answers (.rpt t ts csup mark n) s fun u =>
      u.threads[t].line = s.threads[t].line + n ∧ u.threads[t].pos = s.threads[t].pos + 1 ∧
      u.threads[t].stack = s.threads[t].stack ∧ u.rd (F.SEQ_PC_WORD t) = (s.rd (F.SEQ_PC_WORD t) + 1) % 2 ^ 24 ∧
      (∀ v, v ≠ t → u.threads[v] = s.threads[v]) ∧ Quiet ((F.SEQ_PC_WORD t).addr :: fillOut) s u) ∧
  ∀ (t : Fin 32) (ts : Nat) (csup : Bool) (mark n : Nat) (s : State), s.decodes t = false →
    NoEffect (.run t ts csup mark n) s ∧ NoEffect (.rpt t ts csup mark n) s

/-- R97, R98, R99, R103: LOOP and MLOOP push an entry whose first pass begins at the next word; LEND begins the next pass at the body's
first word and payload position in the segment that holds it, or, after the last pass, pops the entry and goes on; CALL pushes the return word, position and segment
and enters the named segment at its first word and line; JSEG enters it without an entry; RET pops the entry and goes on where it says. -/
def Obligations.LoopsAndCallsKeepStack : Prop :=
  (∀ (t : Fin 32) (dscm : Bool) (count : Nat) (s : State) (x : Seg), s.readyFor t (.loop dscm count) x → 0 < count → count < 2 ^ 32 →
    s.threads[t].stack.length < 16 → Answers (.loop t dscm count) s fun u =>
      u.threads[t].stack = { kind := .loop, word := s.rd (F.SEQ_PC_WORD t) + 1, pos := s.threads[t].pos, passes := 1, count := count
                             dscm := dscm, seg := x.id, gen := x.gen, matched := 0 } :: s.threads[t].stack ∧
      u.rd (F.SEQ_PC_WORD t) = (s.rd (F.SEQ_PC_WORD t) + 1) % 2 ^ 24 ∧ u.threads[t].pos = s.threads[t].pos ∧
      (dscm = false → u.threads[t].marksNext = s.threads[t].marksNext) ∧ (∀ v, v ≠ t → u.threads[v] = s.threads[v]) ∧ Quiet (stackOut t) s u) ∧
  (∀ (t : Fin 32) (dscm : Bool) (count : Nat) (s : State) (x : Seg), s.readyFor t (.mloop dscm count) x → 0 < count → count < 2 ^ 32 →
    s.threads[t].stack.length < 16 → Answers (.mloop t dscm count) s fun u =>
      u.threads[t].stack = { kind := .mloop, word := s.rd (F.SEQ_PC_WORD t) + 1, pos := s.threads[t].pos, passes := 1, count := count
                             dscm := dscm, seg := x.id, gen := x.gen, matched := 0 } :: s.threads[t].stack ∧
      u.rd (F.SEQ_PC_WORD t) = (s.rd (F.SEQ_PC_WORD t) + 1) % 2 ^ 24 ∧ u.threads[t].pos = s.threads[t].pos ∧
      u.threads[t].passes = s.threads[t].passes ++ [⟨s.threads[t].stack.length + 1, s.threads[t].line, none, 0, 0, false⟩] ∧
      (∀ v, v ≠ t → u.threads[v] = s.threads[v]) ∧ Quiet (stackOut t) s u) ∧
  (∀ (t : Fin 32) (s : State) (x : Seg) (e : StackEnt) (rest : List StackEnt), s.readyFor t .lend x → s.threads[t].stack = e :: rest →
    e.kind = .loop → e.passes < e.count → Answers (.lend t) s fun u =>
      u.threads[t].stack = { e with passes := e.passes + 1 } :: rest ∧ u.threads[t].pos = e.pos ∧
      u.rd (F.SEQ_SEG_SEG t) = e.seg % 2 ^ 16 ∧ u.rd (F.SEQ_SEG_GEN t) = e.gen % 2 ^ 8 ∧
      u.rd (F.SEQ_PC_WORD t) = e.word % 2 ^ 24 ∧ (∀ v, v ≠ t → u.threads[v] = s.threads[v]) ∧
      Quiet ((F.SEQ_SEG_SEG t).addr :: stackOut t) s u) ∧
  (∀ (t : Fin 32) (s : State) (x : Seg) (e : StackEnt) (rest : List StackEnt), s.readyFor t .lend x → s.threads[t].stack = e :: rest →
    e.kind = .loop → e.count ≤ e.passes → Answers (.lend t) s fun u =>
      u.threads[t].stack = rest ∧ u.threads[t].pos = s.threads[t].pos ∧
      u.rd (F.SEQ_PC_WORD t) = (s.rd (F.SEQ_PC_WORD t) + 1) % 2 ^ 24 ∧ (∀ v, v ≠ t → u.threads[v] = s.threads[v]) ∧ Quiet (stackOut t) s u) ∧
  (∀ (t : Fin 32) (seg gen : Nat) (s : State) (x y : Seg), s.readyFor t (.call seg gen) x → s.curSeg seg = some y → y.gen = gen → y.tier ≠ .none →
    s.threads[t].stack.length < 16 → Answers (.call t seg gen) s fun u =>
      u.threads[t].stack = { kind := .call, word := s.rd (F.SEQ_PC_WORD t) + 1, pos := s.threads[t].pos, passes := 0, count := 0
                             dscm := false, seg := x.id, gen := x.gen, matched := 0, visit := s.threads[t].visit } :: s.threads[t].stack ∧
      u.threads[t].pos = 0 ∧ u.threads[t].segsNext = true ∧ u.rd (F.SEQ_SEG_SEG t) = y.id % 2 ^ 16 ∧
      u.rd (F.SEQ_SEG_GEN t) = y.gen % 2 ^ 8 ∧ u.rd (F.SEQ_PC_WORD t) = 0 ∧
      (u.threads[t].annWait.isSome ↔ y.tier = .host) ∧ (∀ v, v ≠ t → u.threads[v] = s.threads[v]) ∧
      Quiet ((F.SEQ_SEG_SEG t).addr :: stackOut t) s u) ∧
  (∀ (t : Fin 32) (seg gen : Nat) (s : State) (x y : Seg), s.readyFor t (.jseg seg gen) x → s.curSeg seg = some y → y.gen = gen → y.tier ≠ .none →
    Answers (.jseg t seg gen) s fun u =>
      u.threads[t].stack = s.threads[t].stack ∧
      u.threads[t].pos = 0 ∧ u.threads[t].segsNext = true ∧ u.rd (F.SEQ_SEG_SEG t) = y.id % 2 ^ 16 ∧
      u.rd (F.SEQ_SEG_GEN t) = y.gen % 2 ^ 8 ∧ u.rd (F.SEQ_PC_WORD t) = 0 ∧
      (u.threads[t].annWait.isSome ↔ y.tier = .host) ∧ (∀ v, v ≠ t → u.threads[v] = s.threads[v]) ∧
      Quiet ((F.SEQ_SEG_SEG t).addr :: stackOut t) s u) ∧
  ∀ (t : Fin 32) (s : State) (x : Seg) (e : StackEnt) (rest : List StackEnt), s.readyFor t .ret x → s.threads[t].stack = e :: rest →
    e.kind = .call → Answers (.ret t) s fun u =>
      u.threads[t].stack = rest ∧ u.threads[t].pos = e.pos ∧ u.threads[t].segsNext = false ∧ u.threads[t].resNext = true ∧
      u.rd (F.SEQ_SEG_SEG t) = e.seg % 2 ^ 16 ∧ u.rd (F.SEQ_SEG_GEN t) = e.gen % 2 ^ 8 ∧
      u.rd (F.SEQ_PC_WORD t) = e.word % 2 ^ 24 ∧ (∀ v, v ≠ t → u.threads[v] = s.threads[v]) ∧
      Quiet ((F.SEQ_SEG_SEG t).addr :: stackOut t) s u

/-- R100, R101, R105: JMP goes to its target; BRC on MATCHED or TIMEOUT goes
there when it holds for every member, or with ANY for one, and on otherwise;
BRC on FAIL or PASS whose results are not there waits; CLRF starts the fail window after the last line emitted; HALT lets the
groves end after the last line before it. -/
def Obligations.JumpsAndHalt : Prop :=
  (∀ (t : Fin 32) (tword tline : Nat) (s : State) (x : Seg), s.readyFor t (.jmp tword tline) x → tword < x.iwords → tline < x.lines →
    Answers (.jmp t tword tline) s fun u => u.threads[t].pos = tline ∧ u.rd (F.SEQ_PC_WORD t) = tword % 2 ^ 24 ∧
      u.rd (F.SEQ_SEG_SEG t) = x.id % 2 ^ 16 ∧ u.rd (F.SEQ_SEG_GEN t) = x.gen % 2 ^ 8 ∧
      u.threads[t].stack = s.threads[t].stack ∧ (∀ v, v ≠ t → u.threads[v] = s.threads[v]) ∧
      Quiet [(F.SEQ_PC_WORD t).addr, (F.SEQ_SEG_SEG t).addr] s u) ∧
  (∀ (t : Fin 32) (cond comb tword tline hold : Nat) (s : State) (x : Seg), s.readyFor t (.brc cond comb tword tline) x → tword < x.iwords → tline < x.lines →
    2 ≤ cond → cond < 4 → comb < 2 → hold = maskOf (((grovesIn s.threads[t].live).filter (s.holds t cond)).map (·.1)) →
    Answers (.brc t cond comb tword tline) s fun u =>
      ((comb = 0 ∧ hold = s.threads[t].live) ∨ (comb = 1 ∧ hold ≠ 0) →
        u.threads[t].pos = tline ∧ u.rd (F.SEQ_PC_WORD t) = tword % 2 ^ 24) ∧
      (¬ ((comb = 0 ∧ hold = s.threads[t].live) ∨ (comb = 1 ∧ hold ≠ 0)) →
        u.threads[t].pos = s.threads[t].pos ∧ u.rd (F.SEQ_PC_WORD t) = (s.rd (F.SEQ_PC_WORD t) + 2) % 2 ^ 24) ∧
      u.rd (F.SEQ_SEG_SEG t) = s.rd (F.SEQ_SEG_SEG t) ∧ u.rd (F.SEQ_SEG_GEN t) = s.rd (F.SEQ_SEG_GEN t) ∧
      u.threads[t].stack = s.threads[t].stack ∧ (∀ v, v ≠ t → u.threads[v] = s.threads[v]) ∧
      Quiet [(F.SEQ_PC_WORD t).addr, (F.SEQ_SEG_SEG t).addr] s u) ∧
  (∀ (t : Fin 32) (cond comb tword tline : Nat) (s : State) (x : Seg), s.readyFor t (.brc cond comb tword tline) x → tword < x.iwords → tline < x.lines →
    cond < 2 → comb < 3 → s.threads[t].resTo < s.threads[t].sees → s.threadAt t [.running] = false →
    Answers (.brc t cond comb tword tline) s fun u =>
      u.threads[t].pend = some (s.threads[t].line, .brc cond comb tword tline) ∧ u.threads[t].pos = s.threads[t].pos ∧
      u.regs = s.regs ∧ (∀ v, v ≠ t → u.threads[v] = s.threads[v]) ∧ Quiet [] s u) ∧
  (∀ (t : Fin 32) (s : State) (x : Seg), s.readyFor t .clrf x → Answers (.clrf t) s fun u =>
      u.threads[t].winFrom = s.threads[t].line ∧ u.rd (F.SEQ_PC_WORD t) = (s.rd (F.SEQ_PC_WORD t) + 1) % 2 ^ 24 ∧
      (∀ v, v ≠ t → u.threads[v] = s.threads[v]) ∧ Quiet [(F.SEQ_PC_WORD t).addr] s u) ∧
  ∀ (t : Fin 32) (endDen : Bool) (s : State) (x : Seg), s.readyFor t (.halt endDen) x → s.threadAt t [.running] = false →
    Answers (.halt t endDen) s fun u => u.threads[t].endAfter = some ⟨s.threads[t].line, .halt, endDen⟩ ∧
      u.regs = s.regs ∧ (∀ v, v ≠ t → u.threads[v] = s.threads[v]) ∧ Quiet [] s u

/-- R102, R103: MEND closes the pass and waits for its results; once they are there the decision is taken: a conditional branch
goes to its target or on, and a match loop exits after its last pass, or begins the next one while a member has not matched. -/
def Obligations.DecisionsWaitForResults : Prop :=
  (∀ (t : Fin 32) (comb : Nat) (s : State) (x : Seg) (e : StackEnt) (rest : List StackEnt), s.readyFor t (.mend comb) x → comb < 2 →
    s.threads[t].stack = e :: rest → e.kind = .mloop → s.threads[t].resTo < s.threads[t].sees → s.threadAt t [.running] = false →
    Answers (.mend t comb) s fun u => u.threads[t].pend = some (s.threads[t].line, .mend comb) ∧
      u.threads[t].stack = s.threads[t].stack ∧ u.regs = s.regs ∧
      (∀ p ∈ s.threads[t].passes, p.depth = rest.length + 1 → p.last = none →
        ∃ q ∈ u.threads[t].passes, q.first = p.first ∧ q.last = some (s.threads[t].line - 1)) ∧
      (∀ v, v ≠ t → u.threads[v] = s.threads[v]) ∧ Quiet [] s u) ∧
  (∀ (t : Fin 32) (n cond comb tword tline hold : Nat) (s : State), s.threads[t].pend = some (n, .brc cond comb tword tline) →
    s.threads[t].sees ≤ s.threads[t].resTo → s.peersTold t = true → comb < 2 →
    hold = maskOf (((grovesIn s.threads[t].live).filter (s.holds t cond)).map (·.1)) →
    Answers (.decisionResultsReady t) s fun u => u.threads[t].pend = none ∧
      ((comb = 0 ∧ hold = s.threads[t].live) ∨ (comb = 1 ∧ hold ≠ 0) →
        u.threads[t].pos = tline ∧ u.rd (F.SEQ_PC_WORD t) = tword % 2 ^ 24) ∧
      (¬ ((comb = 0 ∧ hold = s.threads[t].live) ∨ (comb = 1 ∧ hold ≠ 0)) →
        u.threads[t].pos = s.threads[t].pos ∧ u.rd (F.SEQ_PC_WORD t) = (s.rd (F.SEQ_PC_WORD t) + 2) % 2 ^ 24) ∧
      u.threads[t].stack = s.threads[t].stack ∧ (∀ v, v ≠ t → u.threads[v] = s.threads[v]) ∧
      u.rd (F.SEQ_SEG_SEG t) = s.rd (F.SEQ_SEG_SEG t) ∧ u.rd (F.SEQ_SEG_GEN t) = s.rd (F.SEQ_SEG_GEN t) ∧
      Quiet [(F.SEQ_PC_WORD t).addr, (F.SEQ_SEG_SEG t).addr, (F.SEQ_STATUS_STATE t).addr] s u) ∧
  (∀ (t : Fin 32) (n comb : Nat) (s : State) (e : StackEnt) (rest : List StackEnt), s.threads[t].pend = some (n, .mend comb) →
    s.threads[t].sees ≤ s.threads[t].resTo → s.peersTold t = true → s.threads[t].stack = e :: rest → e.count ≤ e.passes →
    Answers (.decisionResultsReady t) s fun u => u.threads[t].pend = none ∧ u.threads[t].stack = rest ∧
      u.threads[t].pos = s.threads[t].pos ∧ u.rd (F.SEQ_PC_WORD t) = (s.rd (F.SEQ_PC_WORD t) + 1) % 2 ^ 24 ∧
      (∀ v, v ≠ t → u.threads[v] = s.threads[v]) ∧
      Quiet ((F.SEQ_MATCHED_MASK t).addr :: evOut (Ev.seq t) ++ stackOut t) s u) ∧
  (∀ (t : Fin 32) (n : Nat) (s : State) (e : StackEnt) (rest : List StackEnt), s.threads[t].pend = some (n, .mend 0) →
    s.threads[t].sees ≤ s.threads[t].resTo → s.peersTold t = true → s.threads[t].stack = e :: rest → e.passes < e.count →
    s.threads[t].passes = [] → e.matched &&& s.threads[t].live ≠ s.threads[t].live →
    Answers (.decisionResultsReady t) s fun u => u.threads[t].pend = none ∧
      u.threads[t].stack = { e with passes := e.passes + 1 } :: rest ∧ u.threads[t].pos = e.pos ∧
      u.rd (F.SEQ_SEG_SEG t) = e.seg % 2 ^ 16 ∧ u.rd (F.SEQ_SEG_GEN t) = e.gen % 2 ^ 8 ∧
      u.rd (F.SEQ_PC_WORD t) = e.word % 2 ^ 24 ∧ (∀ v, v ≠ t → u.threads[v] = s.threads[v]) ∧
      Quiet ((F.SEQ_SEG_SEG t).addr :: stackOut t) s u) ∧
  ∀ (t : Fin 32) (s : State), s.threads[t].pend = none ∨ s.threads[t].resTo < s.threads[t].sees → NoEffect (.decisionResultsReady t) s

/-- R107: SIG queues a check of stored granules and goes on; a check that completes counts as passed when the CRC-32 of the bytes
as stored is the expected one, else as a mismatch that is located, reported and raised as a fault. -/
def Obligations.Signatures : Prop :=
  (∀ (t : Fin 32) (start count crc : Nat) (s : State) (x : Seg), s.readyFor t (.sig start count crc) x → 0 < count → x.tier ≠ .host →
    start + count ≤ x.grans → Answers (.sig t start count crc) s fun u =>
      u.threads[t].sigs = s.threads[t].sigs ++ [⟨x.id, x.gen, start, count, crc⟩] ∧
      u.rd (F.SEQ_PC_WORD t) = (s.rd (F.SEQ_PC_WORD t) + 2) % 2 ^ 24 ∧ (∀ v, v ≠ t → u.threads[v] = s.threads[v]) ∧
      Quiet [(F.SEQ_PC_WORD t).addr] s u) ∧
  (∀ (t : Fin 32) (s : State) (c : SigCheck) (rest : List SigCheck) (x : Seg), s.threads[t].sigs = c :: rest →
    s.segAt c.seg c.gen = some x → crc32 ((List.range c.count).flatMap fun i => s.storedGran x (c.start + i)) = c.crc →
    Answers (.sigCheckDone t) s fun u => u.threads[t].sigs = rest ∧
      u.rd (F.SEQ_SIG_CNT_PASS t) = min (s.rd (F.SEQ_SIG_CNT_PASS t) + 1) 65535 ∧
      u.rd (F.SEQ_SIG_CNT_MISMATCH t) = s.rd (F.SEQ_SIG_CNT_MISMATCH t) ∧ (∀ v, v ≠ t → u.threads[v] = s.threads[v]) ∧
      Quiet [(F.SEQ_SIG_CNT_PASS t).addr] s u) ∧
  ∀ (t : Fin 32) (s : State) (c : SigCheck) (rest : List SigCheck) (x : Seg), s.threads[t].sigs = c :: rest →
    s.segAt c.seg c.gen = some x → crc32 ((List.range c.count).flatMap fun i => s.storedGran x (c.start + i)) ≠ c.crc →
    s.classOf 14 < 2 → Answers (.sigCheckDone t) s fun u => u.threads[t].sigs = rest ∧
      u.rd (F.SEQ_SIG_CNT_MISMATCH t) = min (s.rd (F.SEQ_SIG_CNT_MISMATCH t) + 1) 65535 ∧
      u.rd (F.SEQ_SIG_CNT_PASS t) = s.rd (F.SEQ_SIG_CNT_PASS t) ∧ u.rd (F.SEQ_SIG_LOC_SEG t) = c.seg % 2 ^ 16 ∧
      u.rd (F.SEQ_SIG_LOC_GEN t) = c.gen % 2 ^ 8 ∧ u.rd (F.SEQ_SIG_START_START t) = c.start % 2 ^ 28 ∧ u.latched 14 = true ∧
      (∀ v, v ≠ t → u.threads[v] = s.threads[v]) ∧
      Quiet ([(F.SEQ_SIG_CNT_PASS t).addr, (F.SEQ_SIG_LOC_SEG t).addr, (F.SEQ_SIG_START_START t).addr] ++ evOut (Ev.seq t) ++ faultOut 14) s u

/-- R120, R130: a stored word at the thread's place that fails a check by itself is recorded with its place, reported and raised, and the groves end after the
lines decoded before it; an announcement that names the segment entered lets the thread go on with as many granules of the ring as the segment has, and another ends the groves. -/
def Obligations.InstructionErrors : Prop :=
  (∀ (t : Fin 32) (c : Nat) (s : State) (x : Seg), s.decodes t = true → s.threadSeg t = some x → s.placeError t x = some c →
    s.threadAt t [.running] = false → s.classOf (if c = 1 then 13 else 12) < 2 → Answers (.illegalInstruction t) s fun u =>
      u.rd (F.SEQ_ERR_CODE t) = c ∧ u.rd (F.SEQ_ERR_SEG t) = s.rd (F.SEQ_SEG_SEG t) ∧ u.rd (F.SEQ_ERR_GEN t) = s.rd (F.SEQ_SEG_GEN t) ∧
      u.rd (F.SEQ_ERR_LOC_WORD t) = s.rd (F.SEQ_PC_WORD t) ∧ u.threads[t].endAfter = some ⟨s.threads[t].line, .seqError, false⟩ ∧
      bitOf (u.rd (Ev.seq t).bits) 1 = true ∧ u.latched (if c = 1 then 13 else 12) = true ∧ (∀ v, v ≠ t → u.threads[v] = s.threads[v]) ∧
      Quiet ([(F.SEQ_ERR_CODE t).addr, (F.SEQ_ERR_LOC_WORD t).addr] ++ evOut (Ev.seq t) ++ faultOut 12) s u) ∧
  (∀ (t : Fin 32) (s : State), s.decodes t = false ∨ (s.threadSeg t).bind (s.placeError t) = none → NoEffect (.illegalInstruction t) s) ∧
  (∀ (t : Fin 32) (s : State) (w : AnnWait) (rest : List (Nat × Nat)), s.threads[t].annWait = some w →
    s.streams[t].anns = (w.seg, w.gen) :: rest → Answers (.hostStreamAnnounceMatch t) s fun u =>
      u.threads[t].annWait = none ∧ u.streams[t].anns = rest ∧ u.threads[t].visit = s.streams[t].next ∧
      u.streams[t].next = s.streams[t].next + ((s.segAt w.seg w.gen).map Seg.grans).getD 0 ∧ u.rd (F.HQ_STRM_STAT_ANN t) = min 7 rest.length ∧
      (∀ v, v ≠ t → u.threads[v] = s.threads[v]) ∧
      Quiet [(F.HQ_STRM_STAT_ANN t).addr, (F.HQ_STRM_CONS_LO_K t).addr, (F.HQ_STRM_CONS_LO_K t).addr + 4] s u) ∧
  ∀ (t : Fin 32) (s : State) (w : AnnWait) (a : Nat × Nat) (rest : List (Nat × Nat)), s.threads[t].annWait = some w →
    s.streams[t].anns = a :: rest → a ≠ (w.seg, w.gen) → s.threadAt t [.running] = false → s.classOf 12 < 2 →
    Answers (.hostStreamAnnounceMatch t) s fun u =>
      u.rd (F.SEQ_ERR_CODE t) = 8 ∧ u.rd (F.SEQ_ERR_LOC_WORD t) = w.word % 2 ^ 24 ∧ u.threads[t].annWait = none ∧
      u.threads[t].endAfter = some ⟨s.threads[t].line, .seqError, false⟩ ∧ u.latched 12 = true ∧
      Quiet ([(F.SEQ_ERR_CODE t).addr, (F.SEQ_ERR_LOC_WORD t).addr] ++ evOut (Ev.seq t) ++ faultOut 12) s u

/-- R123, R125, R129: the granule that the thread will use next of those it has not fetched, and has room for, is requested from
the tier that holds it, a host-tier granule from its place in the ring, which advances K as far as no caller needs it; no other
one is requested; the oldest one requested arrives. -/
def Obligations.GranuleFetching : Prop :=
  (∀ (t : Fin 32) (seg gen gran visit : Nat) (s : State) (x : Seg) (w : Want), s.nextWant t = some w → w.key = (seg, gen, gran, visit) →
    s.segAt seg gen = some x → s.threads[t].members ≠ 0 → s.threadAt t [.granted, .armed, .running] = true → gran < x.grans →
    x.tier = .canopy ∨ x.tier = .sdram → Answers (.granuleFetch t seg gen gran) s fun u =>
      u.threads[t].requests = s.threads[t].requests ++ [⟨seg, gen, gran, s.storedGran x gran, visit, false, w.branch⟩] ∧
      (∀ v, v ≠ t → u.threads[v] = s.threads[v]) ∧ Quiet [] s u) ∧
  (∀ (t : Fin 32) (seg gen gran visit : Nat) (s : State) (x : Seg) (w : Want), s.nextWant t = some w → w.key = (seg, gen, gran, visit) →
    s.segAt seg gen = some x → s.threads[t].members ≠ 0 → s.threadAt t [.granted, .armed, .running] = true → gran < x.grans →
    x.tier = .host → visit + gran < s.streams[t].put → s.on (F.HQ_STRM_CFG_MIRROR_EN t) = false →
    Answers (.granuleFetch t seg gen gran) s fun u =>
      u.threads[t].requests = s.threads[t].requests ++ [⟨seg, gen, gran, s.ringGran t (visit + gran) x.granBytes, visit, true, w.branch⟩] ∧
      u.streams[t].cons = max s.streams[t].cons (s.callerHold t (visit + gran + 1)) ∧ (∀ v, v ≠ t → u.threads[v] = s.threads[v]) ∧
      Quiet [(F.HQ_STRM_STAT_ANN t).addr, (F.HQ_STRM_CONS_LO_K t).addr, (F.HQ_STRM_CONS_LO_K t).addr + 4] s u) ∧
  (∀ (t : Fin 32) (seg gen gran : Nat) (s : State), (s.nextWant t = none ∨ ∃ w, s.nextWant t = some w ∧
      ((w.key.1, w.key.2.1, w.key.2.2.1) ≠ (seg, gen, gran) ∨
        ((s.segAt seg gen).any fun x => x.tier == .host) = true ∧ s.streams[t].put ≤ w.key.2.2.2 + gran)) →
    NoEffect (.granuleFetch t seg gen gran) s) ∧
  (∀ (t : Fin 32) (s : State) (g : Gran) (rest : List Gran), s.threads[t].requests = g :: rest →
    Answers (.granuleArrival t) s fun u => u.threads[t].requests = rest ∧ u.threads[t].line = s.threads[t].line ∧
      (∀ v, v ≠ t → u.threads[v] = s.threads[v]) ∧ Quiet fillOut s u) ∧
  ∀ (t : Fin 32) (s : State), s.threads[t].requests = [] → NoEffect (.granuleArrival t) s

/-- R72, R125: pushing lines into the pin FIFOs loses and repeats none: the lines in the FIFO and the cycles still to be pushed
add up to the same count, and the FIFO never passes its depth of 2,048 by it. -/
def Obligations.PushingLosesNoLine : Prop :=
  ∀ (t : Fin 32) (n : Nat) (s : State), (∀ e ∈ s.threads[t].todo, 0 < e.left) → s.threads[t].fifo.length ≤ 2048 →
    let u := s.push t n
    u.threads[t].fifo.length + (u.threads[t].todo.map (·.left)).sum = s.threads[t].fifo.length + (s.threads[t].todo.map (·.left)).sum ∧
    u.threads[t].fifo.length ≤ 2048 ∧ (∀ e ∈ u.threads[t].todo, 0 < e.left)

/-- R10, R12, R16, R117, R318, R319: BURST that passes its checks declares its burst and completes later; one that fails a check
completes with its status; NOP completes at once; STOP and ABORT give every thread of a running burst the boundary of the next
whole granule of cycles, and complete with ALREADY_ENDED or NO_SUCH_BURST where there is nothing to end. -/
def Obligations.BurstCommands : Prop :=
  (∀ (h : Hdr) (o : BurstOps) (s : State), s.canBegin h 0x01 → s.burstOperandsOk o = true → s.reloading = false →
    Answers (.burst h o) s fun u =>
      (∃ b, u.bursts = s.bursts ++ [b] ∧ b.hdr = h ∧ b.ops = o ∧ b.stage = .declared ∧ b.reach = s.reachOf o.seg o.gen) ∧
      u.hq.compls = s.hq.compls ∧ Quiet ((List.range 32).map fun t => (F.SEQ_STATUS_STATE t).addr) s u) ∧
  (∀ (h : Hdr) (o : BurstOps) (s : State), s.canBegin h 0x01 → s.burstOperandsOk o = false →
    Answers (.burst h o) s fun u => Completes s u h stBadOperand 0 0 ∧ u.bursts = s.bursts ∧ Quiet [] s u) ∧
  (∀ (h : Hdr) (o : BurstOps) (s : State), s.canBegin h 0x01 → s.burstOperandsOk o = true → s.reloading = true →
    Answers (.burst h o) s fun u => Completes s u h stReloading 0 0 ∧ u.bursts = s.bursts ∧ Quiet [] s u) ∧
  (∀ (h : Hdr) (o : BurstOps) (s : State), (s.waitingCmd h 0x01).isSome = true → s.clearing = true →
    Answers (.burst h o) s fun u => Completes s u h stNotStarted 0 0 ∧ u.bursts = s.bursts ∧ Quiet [] s u) ∧
  (∀ (h : Hdr) (s : State), s.canBegin h 0x00 → Answers (.nop h) s fun u =>
    Completes s u h stOk 0 0 ∧ u = { s with hq := u.hq }) ∧
  (∀ (h : Hdr) (tag epoch : Nat) (b : Burst) (s : State), s.canBegin h 0x02 → s.burstBy tag epoch = some b → b.stage = .running →
    ((grovesIn b.ops.groves).all fun g => s.groves[g].ended.isSome) = false → Answers (.stop h tag epoch) s fun u =>
      (∀ t : Fin 32, s.threads[t].busy = some (tag, epoch) → s.threads[t].bound = none →
        u.threads[t].bound = some (boundary s.threads[t].cycles, false)) ∧
      (∀ t : Fin 32, s.threads[t].busy ≠ some (tag, epoch) → u.threads[t] = s.threads[t]) ∧
      u.hq.compls = s.hq.compls ∧ u.regs = s.regs ∧ Quiet [] s u) ∧
  (∀ (h : Hdr) (tag epoch : Nat) (b : Burst) (s : State), s.canBegin h 0x03 → s.burstBy tag epoch = some b → b.stage = .running →
    ((grovesIn b.ops.groves).all fun g => s.groves[g].ended.isSome) = false → Answers (.abort h tag epoch) s fun u =>
      (∀ t : Fin 32, s.threads[t].busy = some (tag, epoch) → s.threads[t].bound = none →
        u.threads[t].bound = some (boundary s.threads[t].cycles, true)) ∧
      (∀ t : Fin 32, s.threads[t].busy ≠ some (tag, epoch) → u.threads[t] = s.threads[t]) ∧
      u.hq.compls = s.hq.compls ∧ u.regs = s.regs ∧ Quiet [] s u) ∧
  (∀ (h : Hdr) (tag epoch : Nat) (s : State), s.canBegin h 0x03 → s.burstBy tag epoch = none →
    Answers (.abort h tag epoch) s fun u => Completes s u h stNoSuchBurst 0 0 ∧ u = { s with hq := u.hq }) ∧
  ∀ (h : Hdr) (tag epoch : Nat) (b : Burst) (s : State), s.canBegin h 0x02 → s.burstBy tag epoch = some b → b.stage = .ended →
    Answers (.stop h tag epoch) s fun u => Completes s u h stAlreadyEnded 0 0 ∧ u = { s with hq := u.hq }

/-- R10, R12, R14, R34, R114, R432, R514: an admissible Declared burst is admitted, or granted at once where the grant covers it;
one that is not completes with the code of the condition it fails and is gone; while a FATAL fault or the Firebreak clears, none is judged; a Granted burst with its start fill is Armed; at
its start slot it runs; once ended and drained its record is written, it completes with the record's value, and it is gone. -/
def Obligations.BurstLifecycle : Prop :=
  (∀ (b : Burst) (s : State),
    (s.bursts.find? fun b => b.stage == .declared && !s.heldByCal b && !s.fenced b.hdr && !s.loadBefore b) = some b →
    s.clearing = false → s.str.badWords = [] → s.refusal b = none → Answers .burstAdmission s fun u => u.fab.nextOrder = s.fab.nextOrder + 1 ∧
      ∃ b' ∈ u.bursts, b'.hdr = b.hdr ∧ (b'.stage = .admitted ∨ b'.stage = .granted) ∧ b'.order = s.fab.nextOrder) ∧
  (∀ (b : Burst) (s : State) (code detail : Nat),
    (s.bursts.find? fun b => b.stage == .declared && !s.heldByCal b && !s.fenced b.hdr && !s.loadBefore b) = some b →
    s.clearing = false → s.str.badWords = [] → s.refusal b = some (code, detail, false) → Answers .burstAdmission s fun u =>
      (∃ mid, u.hq.compls = s.hq.compls ++ mid ++ [⟨b.hdr, code, detail, 0, false⟩]) ∧ (∀ o ∈ u.bursts, o.hdr ≠ b.hdr) ∧ u.fab = s.fab) ∧
  (∀ s : State, s.clearing = true → s.str.badWords = [] → NoEffect .burstAdmission s) ∧
  (∀ (tag epoch : Nat) (b : Burst) (s : State), s.burstBy tag epoch = some b → b.stage = .granted → s.filled b = true →
    s.echoesMade b = true → Answers (.burstArmed tag epoch) s fun u =>
      (∃ b' ∈ u.bursts, b'.hdr = b.hdr ∧ b'.stage = .armed ∧ b'.armedAt = s.tim.raw) ∧ u.hq.compls = s.hq.compls ∧
      Quiet occOut s u) ∧
  (∀ (tag epoch slot : Nat) (b : Burst) (s : State), s.burstBy tag epoch = some b → b.stage = .armed → b.startSlot = some slot →
    slot ≤ s.slotNow → (∀ t ∈ s.threadsOf b, s.threads[t].pipe ≠ [] ∧ s.threads[t].detaching = []) →
    Answers (.burstStart tag epoch) s fun u =>
      (∃ b' ∈ u.bursts, b'.hdr = b.hdr ∧ b'.stage = .running) ∧
      (∀ g ∈ grovesIn b.ops.groves, u.groves[g].start = 0 ∧ u.groves[g].halted = false ∧ u.groves[g].cycle0 = true)) ∧
  ∀ (tag epoch : Nat) (b : Burst) (s : State), s.burstBy tag epoch = some b → s.outcomeReady b = true →
    Answers (.outcomeRecordWrite tag epoch) s fun u =>
      (∃ rest, u.hq.compls = s.hq.compls ++ ⟨b.hdr, s.outcomeStatus b, 0,
        s.outcomeValue b (s.controlAddr (outcomeBase + outcomeSlot * (((grovesIn b.ops.groves).map (·.1)).headD 0))), false⟩ :: rest) ∧
      (∀ o ∈ u.bursts, sameHdr o.hdr b.hdr = false)

/-- R23, R24, R28, R29: a raise sets the target point and its voltage and ramps; the end of a ramp up settles, of a ramp down
takes the lower point; settling ends in confirmation; a window's counts are shown and trim the voltage while the sequencer idles;
after the hold-off the grant is lowered first and the voltage ramps down. -/
def Obligations.RateGrant : Prop :=
  (∀ (b : Burst) (n : Nat) (s : State), s.wantsRaise = some b → s.pointFor (s.reserved + b.ops.demand) = some n →
    s.rd F.FAB_STATUS_SEQ_STATE = 0 → Answers .grantRaise s fun u =>
      u.rd F.FAB_STATUS_OPP_TARGET = n ∧ u.rd F.FAB_STATUS_OPP = s.rd F.FAB_STATUS_OPP ∧
      u.rd F.FAB_VFAB_SET_MV = s.voltOf n ∧ u.rd F.FAB_VFAB_VFAB_MV = s.rd F.FAB_VFAB_VFAB_MV ∧
      u.rd F.FAB_STATUS_SEQ_STATE = (if s.voltOf n = s.rd F.FAB_VFAB_SET_MV then 2 else 1) ∧
      Quiet [(F.FAB_STATUS_OPP).addr, (F.FAB_VFAB_SET_MV).addr] s u) ∧
  (∀ s : State, s.rd F.FAB_STATUS_SEQ_STATE = 1 → Answers .vfabRampDone s fun u =>
      u.rd F.FAB_STATUS_SEQ_STATE = 2 ∧ u.rd F.FAB_VFAB_VFAB_MV = s.rd F.FAB_VFAB_SET_MV ∧ u.rd F.FAB_STATUS_OPP = s.rd F.FAB_STATUS_OPP ∧
      RegsOnly s u ∧ Quiet [(F.FAB_STATUS_OPP).addr, (F.FAB_VFAB_SET_MV).addr] s u) ∧
  (∀ s : State, s.rd F.FAB_STATUS_SEQ_STATE = 3 → Answers .vfabRampDone s fun u =>
      u.rd F.FAB_STATUS_SEQ_STATE = 0 ∧ u.rd F.FAB_VFAB_VFAB_MV = s.rd F.FAB_VFAB_SET_MV ∧
      u.rd F.FAB_STATUS_OPP = s.rd F.FAB_STATUS_OPP_TARGET ∧ bitOf (u.rd Ev.fab.bits) 1 = true ∧
      Quiet ([(F.FAB_STATUS_OPP).addr, (F.FAB_VFAB_SET_MV).addr] ++ evOut Ev.fab) s u) ∧
  (∀ s : State, s.rd F.FAB_STATUS_SEQ_STATE = 2 → s.fab.confirming = false → Answers .vfabSettleExpiry s fun u =>
      u.fab.confirming = true ∧ u.fab.okWins = 0 ∧ u.fab.confWins = 0 ∧ u = { s with fab := u.fab }) ∧
  (∀ (counts : List Nat) (s : State), counts.length = 8 → s.rd F.FAB_STATUS_SEQ_STATE = 1 → Answers (.paceRingWindow counts) s fun u =>
      (∀ n, n < 8 → u.rd (F.FAB_RING_COUNT n) = counts.getD n 0 % 2 ^ 16) ∧ RegsOnly s u ∧
      Quiet ((List.range 8).map fun n => (F.FAB_RING_COUNT n).addr) s u) ∧
  (∀ (counts : List Nat) (s : State), counts.length = 8 → s.rd F.FAB_STATUS_SEQ_STATE = 2 → s.fab.confirming = true →
    s.fab.confWins < 3 → Answers (.paceRingWindow counts) s fun u =>
      u.fab.confWins = s.fab.confWins + 1 ∧
      u.fab.okWins = s.fab.okWins + b2n (s.meets ((counts.take 8).foldl min (counts.headD 0)) (s.rd F.FAB_STATUS_OPP_TARGET)) ∧
      Quiet ((List.range 8).map fun n => (F.FAB_RING_COUNT n).addr) s u) ∧
  (∀ (counts : List Nat) (s : State), counts.length = 8 → s.rd F.FAB_STATUS_SEQ_STATE = 0 → s.on F.FAB_CTRL_AVC_EN = true →
    s.fab.retPoint = none → s.fab.lowWins < 7 → s.meets ((counts.take 8).foldl min (counts.headD 0)) s.refPoint = false →
    s.rd F.FAB_VFAB_SET_MV + 5 ≤ min 900 (s.oppMv s.refPoint + 50) → Answers (.paceRingWindow counts) s fun u =>
      u.rd F.FAB_VFAB_SET_MV = s.rd F.FAB_VFAB_SET_MV + 5 ∧ u.fab.highWins = 0 ∧
      Quiet ((F.FAB_VFAB_SET_MV).addr :: (List.range 8).map fun n => (F.FAB_RING_COUNT n).addr) s u) ∧
  ∀ (n : Nat) (s : State), s.pointFor s.reserved = some n → s.rd F.FAB_STATUS_SEQ_STATE = 0 → n < s.rd F.FAB_STATUS_OPP →
    s.voltOf n ≠ s.rd F.FAB_VFAB_SET_MV → Answers .fabHoldoffExpiry s fun u =>
      u.rd F.FAB_STATUS_SEQ_STATE = 3 ∧ u.rd F.FAB_STATUS_OPP_TARGET = n ∧ u.rd F.FAB_STATUS_OPP = s.rd F.FAB_STATUS_OPP ∧
      u.rd F.FAB_VFAB_SET_MV = s.voltOf n ∧ u.rd F.FAB_GRANT_GRANT ≤ s.rd F.FAB_GRANT_GRANT ∧ RegsOnly s u ∧
      Quiet [(F.FAB_STATUS_OPP).addr, (F.FAB_VFAB_SET_MV).addr, (F.FAB_GRANT_GRANT).addr] s u

/-- R35 to R39: with room before the commit point and a line in the pin FIFO the next cycle commits it; with none the cycle is
void, keeps the last timing set and counts in the episode, and the first one of an episode marks the grove; from the limit of
void cycles on, the groves end at the granule's end. -/
def Obligations.CommitsAndVoids : Prop :=
  (∀ (t : Fin 32) (cause : Nat) (l : Line) (rest : List Line) (s : State), s.threads[t].members ≠ 0 → s.threadAt t [.running] = true →
    s.threads[t].closed = false → s.threads[t].pipe.length < s.commitDepth t → s.peersHold t = true → cause ≠ 4 →
    s.threads[t].voidEp = none → s.threads[t].fifo = l :: rest → Answers (.cycleCommit t cause) s fun u =>
      u.threads[t].cycles = s.threads[t].cycles + 1 ∧ u.threads[t].lines = s.threads[t].lines + 1 ∧
      u.threads[t].pipe = s.threads[t].pipe ++ [⟨s.threads[t].cycles, some l, l.ts, 0⟩] ∧ u.threads[t].lastTs = l.ts ∧
      u.rdP (F.SEQ_CYCLE_LO_COUNT t) = s.threads[t].cycles % 2 ^ 64 ∧ u.rdP (F.SEQ_LINE_LO_COUNT t) = (s.threads[t].lines + 1) % 2 ^ 64 ∧
      Quiet ([(F.SEQ_CYCLE_LO_COUNT t).addr, (F.SEQ_CYCLE_LO_COUNT t).addr + 4, (F.SEQ_LINE_LO_COUNT t).addr,
        (F.SEQ_LINE_LO_COUNT t).addr + 4] ++ fillOut) s u) ∧
  (∀ (t : Fin 32) (cause : Nat) (ep : VoidEp) (s : State), s.threads[t].members ≠ 0 → s.threadAt t [.running] = true →
    s.threads[t].closed = false → s.threads[t].pipe.length < s.commitDepth t → s.threads[t].voidEp = some ep → s.threads[t].fifo = [] →
    Answers (.cycleCommit t cause) s fun u =>
      u.threads[t].cycles = s.threads[t].cycles + 1 ∧ u.threads[t].lines = s.threads[t].lines ∧
      u.threads[t].pipe = s.threads[t].pipe ++ [⟨s.threads[t].cycles, none, s.threads[t].lastTs, 0⟩] ∧
      u.threads[t].voids = s.threads[t].voids + 1 ∧ u.threads[t].voidEp = some { ep with len := ep.len + 1 } ∧
      Quiet ([(F.SEQ_CYCLE_LO_COUNT t).addr, (F.SEQ_CYCLE_LO_COUNT t).addr + 4, (F.SEQ_LINE_LO_COUNT t).addr,
        (F.SEQ_LINE_LO_COUNT t).addr + 4] ++ fillOut) s u) ∧
  (∀ (t : Fin 32) (cause : Nat) (s : State), s.threads[t].members ≠ 0 → s.threadAt t [.running] = true →
    s.threads[t].closed = false → s.threads[t].pipe.length < s.commitDepth t → s.threads[t].voidEp = none → s.threads[t].fifo = [] →
    Answers (.cycleCommit t cause) s fun u =>
      u.threads[t].cycles = s.threads[t].cycles + 1 ∧ u.threads[t].lines = s.threads[t].lines ∧
      u.threads[t].voids = s.threads[t].voids + 1 ∧ (u.threads[t].voidEp.map fun e => (e.first, e.len)) = some (s.threads[t].cycles, 1) ∧
      (∀ g ∈ grovesIn s.threads[t].members, u.rd (F.FAB_URUN_STAT_UNDERRUN g) = 1)) ∧
  ∀ (t : Fin 32) (ep : VoidEp) (s : State), s.voidSpent t = true → s.threads[t].voidEp = some ep →
    Answers (.voidLimitReached t) s fun u =>
      (∃ c, u.threads[t].voidEp = some { ep with stopAt := some c } ∧ (ep.stopAt = none → c % 64 = 0)) ∧
      u = { s with threads := u.threads } ∧ ∀ v, v ≠ t → u.threads[v] = s.threads[v]

/-- R16, R36, R117, R159, R183: the oldest committed cycle begins and every grove's next cycle starts one period later; the oldest
cycle's results are combined; a thread whose last cycle has run by the boundary of a stop or an abort ends with that reason. -/
def Obligations.CyclesAtThePins : Prop :=
  (∀ (t : Fin 32) (levels : List ChanLevels) (c : Cycle) (rest : List Cycle) (s : State), s.threads[t].pipe = c :: rest →
    s.threadAt t [.running] = true → s.classOf 11 < 2 → Answers (.cycleStart t levels .none) s fun u =>
      u.threads[t].pipe = rest ∧ (∃ r un e at_, u.threads[t].started = s.threads[t].started ++ [⟨{ c with start := at_ }, r, un, e⟩]) ∧
      u.threads[t].cycles = s.threads[t].cycles ∧ ∀ v, v ≠ t → u.threads[v] = s.threads[v]) ∧
  (∀ (t : Fin 32) (levels : List ChanLevels) (c : Cycle) (rest : List Cycle) (s : State), s.threads[t].pipe = c :: rest →
    s.threadAt t [.running] = true → c.line = none → s.threads[t].detaching = [] → Answers (.cycleStart t levels .none) s fun u =>
      (∀ g ∈ grovesIn s.threads[t].members, u.groves[g].start = s.groves[g].start + s.groves[g].period ∧
        u.groves[g].period = s.groves[g].period)) ∧
  (∀ (t : Fin 32) (c : Started) (rest : List Started) (s : State), s.threads[t].started = c :: rest → s.threads[t].detaching = [] →
    rest ≠ [] ∨ s.threads[t].pipe ≠ [] → Answers (.cycleResult t) s fun u =>
      u.threads[t].started = rest ∧ u.threads[t].resTo = s.threads[t].resTo + b2n c.cyc.line.isSome ∧
      ∀ v, v ≠ t → u.threads[v] = s.threads[v]) ∧
  (∀ (t : Fin 32) (c : Started) (rest : List Started) (s : State), s.threads[t].started = c :: rest → s.threads[t].detaching = [] →
    rest ≠ [] ∨ s.threads[t].pipe ≠ [] → c.cyc.line = none → s.snaps = [] → Answers (.cycleResult t) s fun u =>
      ∀ g ∈ grovesIn s.threads[t].members, u.rdP (F.FAB_VOID_CNT_LO_COUNT g) = (s.rdP (F.FAB_VOID_CNT_LO_COUNT g) + 1) % 2 ^ 64 ∧
        u.groves[g].voidLast = some c.cyc.idx) ∧
  (∀ (t : Fin 32) (b : Nat) (s : State), s.threads[t].bound = some (b, false) → b ≤ s.threads[t].cycles → s.threads[t].drained = true →
    s.threadAt t [.running] = true → s.threads[t].members ≠ 0 → s.sec.zero = [] → Answers (.stopEffect t) s fun u =>
      u.threads[t].members = 0 ∧ u.rd (F.SEQ_STATUS_STATE t) = 4 ∧ u.rd (F.SEQ_STATUS_END_REASON t) = 2 ∧
      (∀ g ∈ grovesIn s.threads[t].members, u.groves[g].ended = some .stopped)) ∧
  ∀ (t : Fin 32) (b : Nat) (s : State), s.threads[t].bound = some (b, true) → b ≤ s.threads[t].cycles → s.threads[t].drained = true →
    s.threadAt t [.running] = true → s.threads[t].members ≠ 0 → s.sec.zero = [] → Answers (.abortEffect t) s fun u =>
      u.threads[t].members = 0 ∧ u.rd (F.SEQ_STATUS_STATE t) = 4 ∧ u.rd (F.SEQ_STATUS_END_REASON t) = 3 ∧
      (∀ g ∈ grovesIn s.threads[t].members, u.groves[g].ended = some .aborted)

/-- R181, R195, R199 to R202: a drain completes a grove's capture; a mask write keeps the bits of channels in a burst and counts
itself as dropped where it would change one; a snapshot is refused, missed or pending; a TIME request whose point is reached with
no results to come copies every grove and completes. -/
def Obligations.CaptureAndSnapshots : Prop :=
  (∀ (g : Fin 32) (r : EndReason) (s : State), s.groves[g].capOpen = true → s.groves[g].ended = some r → r ≠ .firebreak →
    s.flt.frozen = false → Answers (.captureDrain g) s fun u =>
      u.groves[g].drained = true ∧ u.groves[g].capOpen = false ∧ u.rd (F.CAP_G_STAT_DRAINED g) = 1 ∧
      u.groves[g].visit = none ∧ u.groves[g].mapRun = none ∧ u.groves[g].valGran = none) ∧
  (∀ (req : Req) (i : Fin 4) (w : Word) (s : State), s.mayWrite req (F.CAP_CHMASK_MASK i).addr w = true →
    s.busyChans i = 0 → Answers (.capChmaskWrite req i w) s fun u =>
      u.rd (F.CAP_CHMASK_MASK i) = w.toNat ∧ RegsOnly s u ∧ Quiet [(F.CAP_CHMASK_MASK i).addr, wseqOut] s u) ∧
  (∀ (req : Req) (i : Fin 4) (w : Word) (s : State), s.mayWrite req (F.CAP_CHMASK_MASK i).addr w = true →
    Answers (.capChmaskWrite req i w) s fun u =>
      (∀ k, bitOf (s.busyChans i) k = true → bitOf (u.rd (F.CAP_CHMASK_MASK i)) k = bitOf (s.rd (F.CAP_CHMASK_MASK i)) k) ∧
      Quiet ([(F.CAP_CHMASK_MASK i).addr, wseqOut, (F.CAP_DROP_CNT_COUNT).addr] ++ evOut Ev.cap) s u) ∧
  (∀ (h : Hdr) (time linked : Bool) (grove id point : Nat) (s : State), s.canBegin h 0x20 → grove < 32 → id < 2 ^ 16 →
    s.snapRefusal time (fin 32 grove) id = 0 → linked = false → s.snapLate time (fin 32 grove) point = false →
    time = true ∨ s.groves[fin 32 grove].ended = none →
    Answers (.snapshot h time linked grove id point) s fun u =>
      u.snaps = s.snaps ++ [{ time := time, linked := linked, grove := grove, id := id, point := point, cmd := some h, wait := none }] ∧
      u.hq.compls = s.hq.compls ∧ u.rd F.CAP_SNAP_STAT_LAST_ID = id) ∧
  (∀ (h : Hdr) (time linked : Bool) (grove id point : Nat) (s : State), s.canBegin h 0x20 → grove < 32 → id < 2 ^ 16 →
    s.snapRefusal time (fin 32 grove) id ≠ 0 → Answers (.snapshot h time linked grove id point) s fun u =>
      Completes s u h (s.snapRefusal time (fin 32 grove) id) 0 0 ∧ u.snaps = s.snaps ∧
      Quiet ((F.CAP_SNAP_STAT_REFUSED).addr :: evOut Ev.cap) s u) ∧
  (∀ (req : Req) (w : Word) (s : State), s.mayWrite req F.CAP_SNAP_CMD_KIND.addr w = true → w.getLsbD 0 = true →
    s.snapRefusal (w.getLsbD 1) (fin 32 (fieldOf w.toNat 8 5)) (fieldOf w.toNat 16 16) = 0 → w.getLsbD 2 = false →
    s.snapLate (w.getLsbD 1) (fin 32 (fieldOf w.toNat 8 5)) (s.rdP F.CAP_SNAP_POINT_LO_POINT) = false →
    w.getLsbD 1 = true ∨ s.groves[fin 32 (fieldOf w.toNat 8 5)].ended = none →
    Answers (.capSnapCmd req w) s fun u =>
      u.snaps = s.snaps ++ [{ time := w.getLsbD 1, linked := false, grove := fieldOf w.toNat 8 5, id := fieldOf w.toNat 16 16
                              point := s.rdP F.CAP_SNAP_POINT_LO_POINT, cmd := none, wait := none }] ∧
      u.rd F.CAP_SNAP_STAT_LAST_ID = fieldOf w.toNat 16 16) ∧
  ∀ (p : Snap) (h : Hdr) (s : State), s.snapDue = some p →
    (∀ g, s.owed g p.point = none) → p.cmd = some h → Answers .snapshotTimePoint s fun u =>
      Completes s u h stOk 0 snapValid ∧ u.snaps = s.snaps.filter (fun q => q.id != p.id)

/-- R138 to R140, R145, R149, R150: SEG_LOAD reads its descriptor and places a new generation whose bytes are then copied, or
completes with BAD_OPERAND and the segment; a finished copy makes the generation current; SEG_UNLOAD removes the current generation, or a stale name is
discarded and counted; a move first copies, then switches the segment's place. -/
def Obligations.SegmentLife : Prop :=
  (∀ (h : Hdr) (desc : Src) (l : List Byte) (ri rp rr : Option (List Byte)) (d : SegDesc) (instr refs payload : List Byte) (s : State),
    s.canBegin h 0x11 → s.sourceOk desc 64 = true → s.source desc 64 = some l → d = segDescOf l ri rp rr → s.segDescOk d = true →
    s.keyRefusal d.keySlot = none → s.source d.instr (8 * d.iwords) = some instr → s.source d.refAddr (4 * d.nref) = some refs →
    (if d.hostHeld then some [] else s.source d.payload ((d.lines + 63) / 64 * d.granBytes)) = some payload →
    (refEntries refs d.nref).2 = false → s.segRefusal d instr refs = none →
    (s.placeLoad (s.newSeg h d instr payload refs) d.hostHeld payload.length instr.length).isSome = true →
    Answers (.segLoad h desc ri rp rr) s fun u =>
      (∃ y ∈ u.forest.segs, y.id = d.seg ∧ y.gen = d.gen ∧ y.loading = some h ∧ y.copy = payload ∧ y.icopy = instr ∧ y.lines = d.lines) ∧
      u.hq.compls = s.hq.compls) ∧
  (∀ (h : Hdr) (desc : Src) (l : List Byte) (ri rp rr : Option (List Byte)) (s : State), s.canBegin h 0x11 → s.sourceOk desc 64 = true →
    s.source desc 64 = some l → s.segDescOk (segDescOf l ri rp rr) = false → Answers (.segLoad h desc ri rp rr) s fun u =>
      Completes s u h stBadOperand (segDescOf l ri rp rr).seg 0 ∧ u = { s with hq := u.hq }) ∧
  (∀ (h : Hdr) (desc : Src) (ri rp rr : Option (List Byte)) (s : State), s.canBegin h 0x11 → s.sourceOk desc 64 = false →
    Answers (.segLoad h desc ri rp rr) s fun u => Completes s u h stBadOperand 0 0 ∧ u = { s with hq := u.hq }) ∧
  (∀ (seg gen : Nat) (h : Hdr) (x : Seg) (s : State), s.loadOf seg gen = some x →
    x.loading = some h → x.waits = false → s.occupied x.id x.gen true x.tier (runPages x.pages) = false →
    s.streamBusy x.id x.gen true x.ipages x.ioff (8 * x.iwords) = false → s.mustWait x = false → s.curSeg seg = none →
    s.on F.FOR_CTRL_PROMOTE_EN = false →
    Answers (.segmentCopyDone seg gen) s fun u =>
      Completes s u h stOk 0 (x.tier.code + 2 ^ 16 * x.pageCount) ∧
      (∃ y ∈ u.forest.segs, y.id = seg ∧ y.gen = gen ∧ y.loading = none ∧ y.copy = [] ∧ y.tier = x.tier ∧ y.pages = x.pages) ∧
      u.regs = s.regs ∧ u.flash = s.flash ∧ u.host = s.host ∧ (x.tier ≠ .sdram → u.sdram = s.sdram)) ∧
  (∀ (seg gen : Nat) (s : State), s.loadOf seg gen = none → s.segAt seg gen = none →
    Answers (.segmentCopyDone seg gen) s fun u =>
      u.rd F.FOR_STALE_CNT_COUNT = min (s.rd F.FOR_STALE_CNT_COUNT + 1) 65535 ∧ u.forest = s.forest ∧
      Quiet ((F.FOR_STALE_CNT_COUNT).addr :: evOut Ev.frst) s u) ∧
  (∀ (h : Hdr) (seg gen : Nat) (x : Seg) (s : State), s.canBegin h 0x12 → s.curSeg seg = some x → x.gen = gen →
    s.segHeld seg gen = false → Answers (.segUnload h seg gen) s fun u =>
      (∃ mid, u.hq.compls = s.hq.compls ++ mid ++ [⟨h, stOk, 0, 0, false⟩]) ∧
      ∀ y ∈ u.forest.segs, ¬ (y.id = seg ∧ y.gen = gen)) ∧
  (∀ (h : Hdr) (seg gen : Nat) (s : State), s.canBegin h 0x12 → s.curSeg seg = none → Answers (.segUnload h seg gen) s fun u =>
      Completes s u h 0x08 seg 0 ∧ u.forest = s.forest ∧ Quiet ((F.FOR_STALE_CNT_COUNT).addr :: evOut Ev.frst) s u) ∧
  (∀ (seg gen : Nat) (x : Seg) (m : Move) (s : State), s.segAt seg gen = some x →
    (s.forest.started.find? fun m => m.seg == seg && m.gen == gen) = some m → m.copied = false →
    s.occupied seg gen false m.tier (runPages m.pages) = false →
    m.keepsStream x = true ∨ s.streamBusy seg gen false m.ipages m.ioff (8 * x.iwords) = false →
    Answers (.moveCopyDone seg gen) s fun u =>
      (∀ o ∈ u.forest.moves, o.seg = seg → o.gen = gen → o.copied = true) ∧ u.forest.segs = s.forest.segs ∧ u.regs = s.regs ∧
      u.flash = s.flash ∧ u.host = s.host) ∧
  (∀ (seg gen : Nat) (x : Seg) (m : Move) (s : State), s.segAt seg gen = some x →
    (s.forest.started.find? fun m => m.seg == seg && m.gen == gen) = some m → m.copied = true → s.segUsed seg gen = false →
    Answers (.moveSwitch seg gen) s fun u =>
      ∃ y ∈ u.forest.segs, y.id = seg ∧ y.gen = gen ∧ y.tier = m.tier ∧ y.pages = m.pages ∧ y.ipages = m.ipages) ∧
  ∀ (seg gen : Nat) (x : Seg) (m : Move) (s : State), s.segAt seg gen = some x → s.forest.evacs = [] →
    (s.forest.started.find? fun m => m.seg == seg && m.gen == gen) = some m → m.copied = true → s.segUsed seg gen = false →
    Answers (.moveSwitch seg gen) s fun u =>
      (∃ y ∈ u.forest.segs, y.id = seg ∧ y.gen = gen ∧ y.tier = m.tier ∧ y.pages = m.pages ∧ y.ipages = m.ipages) ∧
      (∀ o ∈ u.forest.moves, ¬ (o.seg = seg ∧ o.gen = gen)) ∧ bitOf (u.rd Ev.frst.bits) 0 = true ∧
      RegsSame (evOut Ev.frst) s u ∧ u.flash = s.flash ∧ u.host = s.host

/-- R147, R154, R155: EVACUATE of a bank is in progress or has completed, and of a bank that does not exist is a bad operand; a
core that parks is shown parked and counted; a code page that no core runs from is copied, the cores of its mask lose what their
instruction caches hold. -/
def Obligations.EvacuationAndParking : Prop :=
  (∀ (h : Hdr) (bank : Nat) (s : State), s.canBegin h 0x14 → bank < 32 → Answers (.evacuate h bank) s fun u =>
    (∃ e ∈ u.forest.evacs, e.hdr = h ∧ e.bank = bank) ∨ (∃ c ∈ u.hq.compls, sameHdr c.hdr h = true ∧ c.intake = false)) ∧
  (∀ (h : Hdr) (bank : Nat) (s : State), s.canBegin h 0x14 → 32 ≤ bank → Answers (.evacuate h bank) s fun u =>
    Completes s u h stBadOperand 0 0 ∧ u = { s with hq := u.hq }) ∧
  (∀ (c : Fin 8) (s : State), s.on (F.FOR_PARK_PARKED c) = false → Answers (.corePark c) s fun u =>
    u.rd (F.FOR_PARK_PARKED c) = 1 ∧ u.rd (F.FOR_PARK_PARKS c) = (s.rd (F.FOR_PARK_PARKS c) + 1) % 2 ^ 16 ∧
    u.rd (F.FOR_PARK_REQ c) = s.rd (F.FOR_PARK_REQ c) ∧ RegsOnly s u ∧ Quiet [(F.FOR_PARK_PARKED c).addr] s u) ∧
  (∀ (c : Fin 8) (s : State), s.on (F.FOR_PARK_PARKED c) = true → NoEffect (.corePark c) s) ∧
  ∀ (m : CodeMove) (rest : List CodeMove) (s : State), s.forest.codeMoves = m :: rest → s.runsFrom m.page = false →
    m.dest ≠ m.page → Mem.wf s.canopy = true → Answers .codePageMove s fun u =>
      u.forest.codeMoves = rest ∧
      u.forest.code = s.forest.code.map (fun k => if k.page = m.page then { k with page := m.dest } else k) ∧
      (∀ i, i < canopyPage → Mem.byte u.canopy (m.dest * canopyPage + i) = Mem.byte s.canopy (m.page * canopyPage + i) ∧
        Mem.byte u.canopy (m.page * canopyPage + i) = 0) ∧
      (∀ a, a / canopyPage ≠ m.dest → a / canopyPage ≠ m.page → Mem.byte u.canopy a = Mem.byte s.canopy a) ∧
      (∀ c : Fin 8, bitOf (s.forest.codeMask m.page) c.1 = true → u.sched.cores[c].icacheValid = false) ∧
      u.sdram = s.sdram ∧ u.flash = s.flash ∧ u.host = s.host

/-- R137, R152, R153, R157, R321: a claim of scratch pages is granted under the next claim number; a release zeroes the pages and
no other byte; CAPTURE_RELEASE gives up the buffer of the burst before last; PLACEMENT_REPORT writes host memory from DEST on and
nowhere else; FOR_QUERY selects the segment reported; a split is moved unless a page in use lies above it. -/
def Obligations.ForesterServices : Prop :=
  (∀ (h : Hdr) (pages p : Nat) (s : State), s.canBegin h 0x15 → 0 < pages → pages ≤ 64 → s.scratchRun pages = some p →
    Answers (.scratchClaim h pages) s fun u =>
      Completes s u h stOk 0 s.forest.nextClaim ∧ u.forest.claims = s.forest.claims ++ [(s.forest.nextClaim, p, pages)] ∧
      u.forest.nextClaim = s.forest.nextClaim % 65535 + 1 ∧ u.regs = s.regs ∧ Quiet [] s u) ∧
  (∀ (h : Hdr) (claim : Nat) (c : Nat × Nat × Nat) (s : State), s.canBegin h 0x15 →
    (s.forest.claims.find? fun c => c.1 == claim) = some c → Answers (.scratchRelease h claim) s fun u =>
      Completes s u h stOk 0 0 ∧ u.forest.claims = s.forest.claims.filter (fun o => o.1 != claim) ∧ u.regs = s.regs ∧
      (∀ a, Mem.byte u.canopy a = if c.2.1 * canopyPage ≤ a ∧ a < (c.2.1 + c.2.2) * canopyPage then 0 else Mem.byte s.canopy a) ∧
      u.sdram = s.sdram ∧ u.flash = s.flash ∧ u.host = s.host) ∧
  (∀ (h : Hdr) (g : Fin 32) (a b : Place) (rest : List Place) (s : State), s.canBegin h 0x16 → s.groves[g].bufs = a :: b :: rest →
    Answers (.captureRelease h g) s fun u => Completes s u h stOk 0 0 ∧ u.groves[g].bufs = [a] ∧ u.regs = s.regs ∧
      u.flash = s.flash ∧ u.host = s.host) ∧
  (∀ (h : Hdr) (dest maxLen : Nat) (s : State), s.canBegin h 0x17 → dest % 64 = 0 → 64 ≤ maxLen →
    Answers (.placementReport h dest maxLen) s fun u =>
      (∃ n st, Completes s u h st 0 n ∧ (st = stOk ∨ st = 0x0F) ∧ 64 + 32 * n ≤ maxLen) ∧
      (∀ a, a < dest ∨ dest + maxLen ≤ a → Mem.byte u.host a = Mem.byte s.host a) ∧
      u.forest = s.forest ∧ u.regs = s.regs ∧ u.canopy = s.canopy ∧ u.sdram = s.sdram ∧ u.flash = s.flash) ∧
  (∀ (req : Req) (w : Word) (s : State), s.mayWrite req F.FOR_QUERY_SEG.addr w = true → Answers (.forQueryWrite req w) s fun u =>
      u.forest.query = w.toNat % 65536 ∧ u = { s with forest := { s.forest with query := u.forest.query }, regs := u.regs } ∧
      Quiet [wseqOut] s u) ∧
  (∀ (req : Req) (w : Word) (s : State), s.mayWrite req F.FOR_SDRAM_SPLIT_GIB.addr w = true →
    (s.usedSdram.any fun p => decide (fieldOf w.toNat 0 6 * 1024 ≤ p)) = false → Answers (.forSdramSplitWrite req w) s fun u =>
      u.rd F.FOR_SDRAM_SPLIT_GIB = fieldOf w.toNat 0 6 ∧ RegsOnly s u ∧ Quiet [(F.FOR_SDRAM_SPLIT_GIB).addr, wseqOut] s u) ∧
  ∀ (req : Req) (w : Word) (s : State), s.mayWrite req F.FOR_SDRAM_SPLIT_GIB.addr w = true →
    (s.usedSdram.any fun p => decide (fieldOf w.toNat 0 6 * 1024 ≤ p)) = true → Answers (.forSdramSplitWrite req w) s fun u =>
      u.rd F.FOR_SDRAM_SPLIT_GIB = s.rd F.FOR_SDRAM_SPLIT_GIB ∧ bitOf (u.rd Ev.frst.bits) 7 = true ∧ EventOnly s u ∧
      Quiet (wseqOut :: evOut Ev.frst) s u

/-- R126 to R130, R150: HQ_STRM_CFG frees the ring and its counts, and has no effect while the thread is busy; a doorbell puts as
many granules as there is room for; an announcement of a live segment joins the at most eight that wait, and a stale one is
discarded and counted. -/
def Obligations.HostStreams : Prop :=
  (∀ (req : Req) (t : Fin 32) (w : Word) (s : State), s.mayWrite req (F.HQ_STRM_CFG_RING t).addr w = true →
    s.threads[t].busy = none → s.streams[t].ring = none → fieldOf w.toNat 0 13 = 0 → Answers (.hqStrmCfgWrite req t w) s fun u =>
      u.streams[t] = {} ∧ u.rd (F.HQ_STRM_CFG_RING t) = 0 ∧ u.rd (F.HQ_STRM_CFG_STRIDE t) = fieldOf w.toNat 16 4 ∧
      u.rd (F.HQ_STRM_CFG_MIRROR_EN t) = fieldOf w.toNat 24 1 ∧ (∀ v, v ≠ t → u.streams[v] = s.streams[v]) ∧
      Quiet [(F.HQ_STRM_CFG_RING t).addr, (F.HQ_STRM_WIN_OFFSET t).addr, (F.HQ_STRM_STAT_ANN t).addr, (F.HQ_STRM_CONS_LO_K t).addr,
        (F.HQ_STRM_CONS_LO_K t).addr + 4, wseqOut] s u) ∧
  (∀ (req : Req) (t : Fin 32) (w : Word) (s : State), s.mayWrite req (F.HQ_STRM_CFG_RING t).addr w = true →
    s.threads[t].busy.isSome = true → Answers (.hqStrmCfgWrite req t w) s fun u =>
      u.streams = s.streams ∧ bitOf (u.rd (Ev.strm t).bits) 5 = true ∧ EventOnly s u ∧ Quiet (wseqOut :: evOut (Ev.strm t)) s u) ∧
  (∀ (req : Req) (t : Fin 32) (w : Word) (s : State), s.mayWrite req (F.HQ_STRM_PUT_COUNT t).addr w = true →
    Answers (.hqStrmPut req t w) s fun u =>
      u.streams[t].put = s.streams[t].put +
        min (fieldOf w.toNat 0 13) (s.streams[t].cons + s.rd (F.HQ_STRM_CFG_RING t) - s.streams[t].put) ∧
      u.streams[t].cons = s.streams[t].cons ∧ u.streams[t].ring = s.streams[t].ring ∧ u.streams[t].anns = s.streams[t].anns ∧
      (∀ v, v ≠ t → u.streams[v] = s.streams[v]) ∧
      Quiet ([(F.HQ_STRM_STAT_ANN t).addr, (F.HQ_STRM_CONS_LO_K t).addr, (F.HQ_STRM_CONS_LO_K t).addr + 4, wseqOut] ++ evOut (Ev.strm t)) s u) ∧
  (∀ (req : Req) (t : Fin 32) (w : Word) (s : State), s.mayWrite req (F.HQ_STRM_ANNOUNCE_SEG t).addr w = true →
    s.segLive t (fieldOf w.toNat 0 16) (fieldOf w.toNat 16 8) = true → s.streams[t].anns.length < 8 →
    Answers (.hqStrmAnnounce req t w) s fun u =>
      u.streams[t].anns = s.streams[t].anns ++ [(fieldOf w.toNat 0 16, fieldOf w.toNat 16 8)] ∧
      u.streams[t].put = s.streams[t].put ∧ u.streams[t].cons = s.streams[t].cons ∧ (∀ v, v ≠ t → u.streams[v] = s.streams[v]) ∧
      Quiet [(F.HQ_STRM_STAT_ANN t).addr, (F.HQ_STRM_CONS_LO_K t).addr, (F.HQ_STRM_CONS_LO_K t).addr + 4, wseqOut] s u) ∧
  ∀ (req : Req) (t : Fin 32) (w : Word) (s : State), s.mayWrite req (F.HQ_STRM_ANNOUNCE_SEG t).addr w = true →
    s.segLive t (fieldOf w.toNat 0 16) (fieldOf w.toNat 16 8) = false → Answers (.hqStrmAnnounce req t w) s fun u =>
      u.streams = s.streams ∧ u.rd F.FOR_STALE_CNT_COUNT = min (s.rd F.FOR_STALE_CNT_COUNT + 1) 65535 ∧ EventOnly s u ∧
      Quiet ([(F.FOR_STALE_CNT_COUNT).addr, wseqOut] ++ evOut Ev.frst) s u

/-- R78: a permitted write of a waveform word takes effect with its parity; while its channel's grove is in a burst, or with a reserved
value, it has no effect, is counted once and sets WRITE_BUSY, BAD_VALUE or both. -/
def Obligations.SymbolMapWrites : Prop :=
  (∀ (req : Req) (ch : Fin 128) (ts : Fin 32) (code : Fin 16) (w : Word) (s : State), s.mayWrite req (symLo ch ts code).addr w = true →
    s.chanBusy ch = false → symReserved w.toNat = false → Answers (.symMapWrite req ch ts code false w) s fun u =>
      u.rd (symLo ch ts code) = w.toNat % 2 ^ 25 ∧
      u.rd (symHi ch ts code) = s.rd (symHi ch ts code) % 2 ^ 31 +
        2 ^ 31 * parityWords [w.toNat % 2 ^ 25, s.rd (symHi ch ts code) % 2 ^ 31] ∧
      RegsOnly s u ∧ Quiet [(symLo ch ts code).addr, (symHi ch ts code).addr, wseqOut] s u) ∧
  (∀ (req : Req) (ch : Fin 128) (ts : Fin 32) (code : Fin 16) (w : Word) (s : State), s.mayWrite req (symHi ch ts code).addr w = true →
    s.chanBusy ch = false → Answers (.symMapWrite req ch ts code true w) s fun u =>
      u.rd (symHi ch ts code) % 2 ^ 31 = setField (s.rd (symHi ch ts code)) 0 8 w.toNat % 2 ^ 31 ∧
      u.rd (symLo ch ts code) = s.rd (symLo ch ts code) ∧
      RegsOnly s u ∧ Quiet [(symHi ch ts code).addr, wseqOut] s u) ∧
  (∀ (req : Req) (ch : Fin 128) (ts : Fin 32) (code : Fin 16) (hi : Bool) (w : Word) (s : State),
    s.mayWrite req (if hi then symHi ch ts code else symLo ch ts code).addr w = true → s.chanBusy ch = true →
    Answers (.symMapWrite req ch ts code hi w) s fun u =>
      u.rd F.SYM_DROP_CNT_COUNT = min (s.rd F.SYM_DROP_CNT_COUNT + 1) 65535 ∧ bitOf (u.rd Ev.sym.bits) 0 = true ∧
      bitOf (u.rd Ev.sym.bits) 1 = (bitOf (s.rd Ev.sym.bits) 1 || !hi && symReserved w.toNat) ∧
      EventOnly s u ∧ Quiet ([(F.SYM_DROP_CNT_COUNT).addr, wseqOut] ++ evOut Ev.sym) s u) ∧
  ∀ (req : Req) (ch : Fin 128) (ts : Fin 32) (code : Fin 16) (w : Word) (s : State), s.mayWrite req (symLo ch ts code).addr w = true →
    s.chanBusy ch = false → symReserved w.toNat = true → Answers (.symMapWrite req ch ts code false w) s fun u =>
      u.rd F.SYM_DROP_CNT_COUNT = min (s.rd F.SYM_DROP_CNT_COUNT + 1) 65535 ∧ bitOf (u.rd Ev.sym.bits) 1 = true ∧
      bitOf (u.rd Ev.sym.bits) 0 = bitOf (s.rd Ev.sym.bits) 0 ∧
      EventOnly s u ∧ Quiet ([(F.SYM_DROP_CNT_COUNT).addr, wseqOut] ++ evOut Ev.sym) s u

/-- R161, R176, R179: a period's low word waits for its high word and the pair takes effect together, in range and while its grove is
idle; otherwise it is dropped, counted and reported, as is any timing-table word of a busy channel; every period is 16384 at reset. -/
def Obligations.TimingTableWrites : Prop :=
  (∀ (req : Req) (g ts : Fin 32) (w : Word) (s : State), s.mayWrite req (F.TMG_PERIOD_LO g ts).addr w = true → s.groveIdle g = true →
    Answers (.tmgPeriodLoWrite req g ts w) s fun u =>
      u.lowFor req (F.TMG_PERIOD_LO g ts) = w.toNat ∧ u = { s with regs := u.regs, held := u.held } ∧ Quiet [wseqOut] s u) ∧
  (∀ (req : Req) (g ts : Fin 32) (w : Word) (s : State), s.mayWrite req (F.TMG_PERIOD_HI g ts).addr w = true → s.groveIdle g = true →
    2048 ≤ s.lowFor req (F.TMG_PERIOD_LO g ts) + 2 ^ 32 * (w.toNat % 2 ^ 11) →
    s.lowFor req (F.TMG_PERIOD_LO g ts) + 2 ^ 32 * (w.toNat % 2 ^ 11) ≤ 2 ^ 42 → Answers (.tmgPeriodHiWrite req g ts w) s fun u =>
      u.rd (F.TMG_PERIOD_LO g ts) = s.lowFor req (F.TMG_PERIOD_LO g ts) ∧
      u.rd (F.TMG_PERIOD_HI g ts) = w.toNat % 2 ^ 11 +
        2 ^ 31 * parityWords [s.lowFor req (F.TMG_PERIOD_LO g ts), w.toNat % 2 ^ 11] ∧
      u = { s with regs := u.regs, held := u.held } ∧
      Quiet [(F.TMG_PERIOD_LO g ts).addr, (F.TMG_PERIOD_HI g ts).addr, wseqOut] s u) ∧
  (∀ (req : Req) (g ts : Fin 32) (w : Word) (s : State), s.mayWrite req (F.TMG_PERIOD_HI g ts).addr w = true → s.groveIdle g = true →
    s.lowFor req (F.TMG_PERIOD_LO g ts) + 2 ^ 32 * (w.toNat % 2 ^ 11) < 2048 ∨
    2 ^ 42 < s.lowFor req (F.TMG_PERIOD_LO g ts) + 2 ^ 32 * (w.toNat % 2 ^ 11) → Answers (.tmgPeriodHiWrite req g ts w) s fun u =>
      u.rd F.TMG_DROP_CNT_COUNT = min (s.rd F.TMG_DROP_CNT_COUNT + 1) 65535 ∧ bitOf (u.rd Ev.tmg.bits) 1 = true ∧
      Quiet ([(F.TMG_DROP_CNT_COUNT).addr, wseqOut] ++ evOut Ev.tmg) s u) ∧
  (∀ g ts : Fin 32, State.reset.rd (F.TMG_PERIOD_LO g ts) = 16384 ∧ State.reset.rd (F.TMG_PERIOD_HI g ts) % 2 ^ 11 = 0) ∧
  (∀ (req : Req) (g ts : Fin 32) (w : Word) (s : State), s.mayWrite req (F.TMG_PERIOD_HI g ts).addr w = true → s.groveIdle g = false →
    Answers (.tmgPeriodHiWrite req g ts w) s fun u =>
      u.rd F.TMG_DROP_CNT_COUNT = min (s.rd F.TMG_DROP_CNT_COUNT + 1) 65535 ∧ bitOf (u.rd Ev.tmg.bits) 0 = true ∧
      Quiet ([(F.TMG_DROP_CNT_COUNT).addr, wseqOut] ++ evOut Ev.tmg) s u) ∧
  (∀ (req : Req) (c : Fin 128) (ts : Fin 32) (k : Nat) (w : Word) (s : State), k < 6 →
    s.mayWrite req (0x100000 + 0x1000 * c + 0x80 * ts + 4 * k) w = true → s.chanBusy c = false →
    Answers (.timingTableWrite req (0x100000 + 0x1000 * c + 0x80 * ts + 4 * k) w) s fun u =>
      u.word .tmg (0x100000 + 0x1000 * c + 0x80 * ts + 4 * k) = w ∧ RegsOnly s u ∧
      Quiet [0x100000 + 0x1000 * c + 0x80 * ts + 4 * k, 0x100000 + 0x1000 * c + 0x80 * ts + 24, wseqOut] s u) ∧
  (∀ (req : Req) (c : Fin 128) (w : Word) (s : State), s.mayWrite req (0x190000 + 0x20 * c) w = true → s.chanBusy c = true →
    Answers (.timingTableWrite req (0x190000 + 0x20 * c) w) s fun u =>
      u.rd F.TMG_DROP_CNT_COUNT = min (s.rd F.TMG_DROP_CNT_COUNT + 1) 65535 ∧ bitOf (u.rd Ev.tmg.bits) 0 = true ∧
      EventOnly s u ∧ Quiet ([(F.TMG_DROP_CNT_COUNT).addr, wseqOut] ++ evOut Ev.tmg) s u) ∧
  ∀ (req : Req) (w : Word) (s : State), s.mayWrite req F.TMG_MOD_DELAY_DELAY.addr w = true → s.bursts = [] →
    Answers (.tmgModDelayWrite req w) s fun u =>
      u.rd F.TMG_MOD_DELAY_DELAY = w.toNat % 2 ^ 16 ∧ RegsOnly s u ∧ Quiet [(F.TMG_MOD_DELAY_DELAY).addr, wseqOut] s u

/-- R79, R89, R180, R421: a scrubber that finds bad parity records its place with SCRUB, sets PARITY and raises its fault source,
and one that finds none changes nothing; a write of GO starts a PE control transaction, which at its end shows the received bits,
DONE and one more transfer. -/
def Obligations.ScrubbersAndControlBuses : Prop :=
  (∀ (ch : Fin 128) (ts : Fin 32) (code : Fin 16) (s : State), s.classOf 9 < 2 → Answers (.symScrub (some (ch, ts, code))) s fun u =>
      u.rd F.SYM_PAR_LOC_CH = ch ∧ u.rd F.SYM_PAR_LOC_TS = ts ∧ u.rd F.SYM_PAR_LOC_CODE = code ∧ u.rd F.SYM_PAR_LOC_SCRUB = 1 ∧
      bitOf (u.rd Ev.sym.bits) 2 = true ∧ u.latched 9 = true ∧
      u = { s with regs := u.regs, hq := u.hq, sched := u.sched, flt := u.flt } ∧
      Quiet ((F.SYM_PAR_LOC_CH).addr :: evOut Ev.sym ++ faultOut 9) s u) ∧
  (∀ s : State, NoEffect (.symScrub none) s ∧ NoEffect (.tmgScrub .none) s) ∧
  (∀ (kind index ts : Nat) (s : State), kind < 4 → index < 128 → ts < 64 → s.classOf 10 < 2 →
    Answers (.tmgScrub (.timing kind index ts)) s fun u =>
      u.rd F.TMG_PAR_LOC_INDEX = index ∧ u.rd F.TMG_PAR_LOC_TS = ts ∧ u.rd F.TMG_PAR_LOC_KIND = kind ∧ u.rd F.TMG_PAR_LOC_SCRUB = 1 ∧
      bitOf (u.rd Ev.tmg.bits) 2 = true ∧ u.latched 10 = true ∧
      (kind = 3 → u.chans[fin 128 index].linOk = false) ∧ (kind ≠ 3 → u.chans = s.chans) ∧
      u = { s with regs := u.regs, hq := u.hq, sched := u.sched, flt := u.flt, chans := u.chans } ∧
      Quiet ((F.TMG_PAR_LOC_INDEX).addr :: evOut Ev.tmg ++ faultOut 10) s u) ∧
  (∀ (req : Req) (b : Fin 16) (w : Word) (s : State), s.mayWrite req (F.PEC_CMD_GO b).addr w = true → s.on (F.PEC_CMD_GO b) = false →
    w.getLsbD 16 = true → 0 < fieldOf w.toNat 0 7 → fieldOf w.toNat 0 7 ≤ 64 → Answers (.pecGo req b w) s fun u =>
      u.pec[b] = ⟨true, fieldOf w.toNat 0 7, s.rdP (F.PEC_TX_LO_DATA b)⟩ ∧ u.rd (F.PEC_CMD_GO b) = 1 ∧
      u.rd (F.PEC_CMD_NBITS b) = fieldOf w.toNat 0 7 ∧ u.rd (F.PEC_CMD_CS b) = fieldOf w.toNat 8 2 ∧
      (∀ k, k ≠ b → u.pec[k] = s.pec[k]) ∧ u = { s with regs := u.regs, pec := u.pec } ∧
      Quiet [(F.PEC_CMD_GO b).addr, wseqOut] s u) ∧
  (∀ (req : Req) (b : Fin 16) (w : Word) (s : State), s.mayWrite req (F.PEC_CMD_GO b).addr w = true → s.on (F.PEC_CMD_GO b) = true →
    Answers (.pecGo req b w) s fun u =>
      u.rd (F.PEC_STATUS_OVERRUN b) = 1 ∧ RegsOnly s u ∧ Quiet [(F.PEC_STATUS_OVERRUN b).addr, wseqOut] s u) ∧
  ∀ (b : Fin 16) (rx : Nat) (s : State), s.pec[b].running = true → Answers (.pecTransactionDone b rx) s fun u =>
      u.rdP (F.PEC_RX_LO_DATA b) = rx % 2 ^ s.pec[b].nbits % 2 ^ 64 ∧ u.rd (F.PEC_CMD_GO b) = 0 ∧ u.rd (F.PEC_STATUS_DONE b) = 1 ∧
      u.rd (F.PEC_STATUS_XFERS b) = (s.rd (F.PEC_STATUS_XFERS b) + 1) % 2 ^ 16 ∧ u.pec[b].running = false ∧
      (∀ k, k ≠ b → u.pec[k] = s.pec[k]) ∧ u = { s with regs := u.regs, pec := u.pec } ∧
      Quiet [(F.PEC_CMD_GO b).addr, (F.PEC_STATUS_DONE b).addr, (F.PEC_RX_LO_DATA b).addr, (F.PEC_RX_LO_DATA b).addr + 4] s u

/-- R113, R114: an epoch received or driven restarts the slot counter, counts, sets EPOCH, and sets SLIP after another number of
slots than PERIOD; a module of another role ignores it; TRIG_IN sampled high after a low sample fixes the start slot of an Armed burst
that waits for it, and an edge at the ball does not. -/
def Obligations.EpochsAndTriggerInputs : Prop :=
  (∀ s : State, s.syncRole = 1 → (∀ b ∈ s.bursts, b.stage ≠ .armed) → Answers .syncEpochReceive s fun u =>
      u.sync.epochSlot = s.slotNext ∧ u.rd F.SEQ_EPOCH_CNT_COUNT = (s.rd F.SEQ_EPOCH_CNT_COUNT + 1) % 2 ^ 32 ∧
      bitOf (u.rd Ev.seqG.bits) 0 = true ∧
      (s.rd F.SEQ_SYNC_CFG_PERIOD ≠ 0 → s.slotNext - s.sync.epochSlot ≠ s.rd F.SEQ_SYNC_CFG_PERIOD →
        bitOf (u.rd Ev.seqG.bits) 1 = true) ∧
      u = { s with regs := u.regs, hq := u.hq, sched := u.sched, sync := { s.sync with epochSlot := u.sync.epochSlot } } ∧
      Quiet ((F.SEQ_EPOCH_CNT_COUNT).addr :: evOut Ev.seqG) s u) ∧
  (∀ s : State, s.syncRole = 2 → 0 < s.rd F.SEQ_SYNC_CFG_PERIOD → s.sync.epochSlot + s.rd F.SEQ_SYNC_CFG_PERIOD ≤ s.slotNext →
    (∀ b ∈ s.bursts, b.stage ≠ .armed) → Answers .syncEpochDrive s fun u =>
      u.sync.epochSlot = s.slotNext ∧ u.sync.syncOut = some s.slotNext ∧
      u.rd F.SEQ_EPOCH_CNT_COUNT = (s.rd F.SEQ_EPOCH_CNT_COUNT + 1) % 2 ^ 32 ∧ bitOf (u.rd Ev.seqG.bits) 0 = true ∧
      u = { s with regs := u.regs, hq := u.hq, sched := u.sched
                   sync := { s.sync with epochSlot := u.sync.epochSlot, syncOut := u.sync.syncOut } } ∧
      Quiet ((F.SEQ_EPOCH_CNT_COUNT).addr :: evOut Ev.seqG) s u) ∧
  (∀ s : State, s.syncRole ≠ 1 → NoEffect .syncEpochReceive s) ∧
  (∀ s : State, s.syncRole ≠ 2 → NoEffect .syncEpochDrive s) ∧
  (∀ (n : Fin 4) (rising : Bool) (sub : Fin 4) (s : State),
    (∀ e : Fin 4, s.qsrc e ≠ 1 ∨ s.rd (F.TRG_QUAL_QSEL e) ≠ n) → Answers (.trigInEdge n rising sub) s fun u =>
      u.sync.trigIn[n] = rising ∧ (∀ k, k ≠ n → u.sync.trigIn[k] = s.sync.trigIn[k]) ∧
      (∀ k, k ≠ n → u.sync.trigHist[k] = s.sync.trigHist[k]) ∧
      u = { s with sync := { s.sync with trigIn := u.sync.trigIn, trigHist := u.sync.trigHist } }) ∧
  (∀ (n : Fin 4) (b : Burst) (s : State), s.pending = [] → s.power.present = true → (s.tim.raw + 1) % 2 ^ 64 % 8 = 0 → (∀ d : Fin 16, s.dscs[d].pgn.blanked = false) →
    s.forest.evacs = [] → s.bursts = [b] → b.stage = .armed → b.ops.mode = 2 → b.ops.trig = n → b.startSlot = none → b.met = false →
    s.leads b = false → s.sync.sampled[n] = false → s.sync.trigIn[n] = true → ∃ u, step s = .next u ∧
      u.bursts = [{ b with startSlot := some ((s.tim.raw + 1) % 2 ^ 64 / 8 + 4)
                           startTime := some (s.timeAt (8 * ((s.tim.raw + 1) % 2 ^ 64 / 8 + 4))) }] ∧
      u = { s with regs := u.regs, hq := u.hq, sched := u.sched, bursts := u.bursts, sync := { s.sync with sampled := s.sync.trigIn }
                   tim := { s.tim with raw := (s.tim.raw + 1) % 2 ^ 64 } } ∧ Quiet occOut s u) ∧
  ∀ s : State, s.pending = [] → s.power.present = true → (∀ d : Fin 16, s.dscs[d].pgn.blanked = false) → s.forest.evacs = [] →
    (∀ n : Fin 4, s.sync.trigIn[n] = true → s.sync.sampled[n] = true) → ∃ u, step s = .next u ∧ u.bursts = s.bursts

/-- R213 to R216: ARM of a disarmed engine fixes KIND, PRE and POST, starts record numbering anew, and waits with its match
condition counted as true; refused configurations set BAD_CFG and an engine that is not disarmed ignores it; DISARM ends a record in
progress and disarms; after the holdoff the engine waits again; a read acknowledge takes records off UNREAD. -/
def Obligations.TriggerArming : Prop :=
  (∀ (e : Fin 4) (s : State), s.trgState e = 0 → s.trgBad e = false → bitOf (s.acq.calRun ||| s.acq.calHeld) (32 + e.1) = false →
    Answers (.trgArm e) s fun u =>
      u.trgState e = 1 ∧ u.acq.trg[e].kind = s.rd (F.TRG_SRC_KIND e) ∧ u.acq.trg[e].pre = s.preOf e ∧ u.acq.trg[e].post = s.postOf e ∧
      u.acq.trg[e].seqno = 0 ∧ u.acq.trg[e].last = true ∧ u.acq.trg[e].cur = none ∧
      (u.acq.trg[e].place = none → u.rd (F.TRG_STORE_RECS e) = 0) ∧ (∀ k, k ≠ e → u.acq.trg[k] = s.acq.trg[k]) ∧
      u = { s with regs := u.regs, acq := u.acq, forest := u.forest } ∧
      Quiet [(F.TRG_STATUS_STATE e).addr, (F.TRG_STORE_RECS e).addr, (F.TRG_LOC_PAGE e).addr] s u) ∧
  (∀ (e : Fin 4) (s : State), s.trgState e = 0 → s.trgBad e = true → Answers (.trgArm e) s fun u =>
      u.trgState e = 0 ∧ bitOf (u.rd (Ev.trg e).bits) 5 = true ∧ EventOnly s u ∧ Quiet (evOut (Ev.trg e)) s u) ∧
  (∀ (e : Fin 4) (s : State), s.trgState e ≠ 0 → NoEffect (.trgArm e) s) ∧
  (∀ (e : Fin 4) (s : State), s.trgState e ≠ 2 → Answers (.trgDisarm e) s fun u =>
      u.trgState e = 0 ∧ u.acq.trg[e].cur = none ∧ u.acq.trg[e].ring = [] ∧ u.acq.trg[e].feed = [] ∧
      (∀ k, k ≠ e → u.acq.trg[k] = s.acq.trg[k]) ∧ u = { s with regs := u.regs, acq := u.acq } ∧
      Quiet [(F.TRG_STATUS_STATE e).addr] s u) ∧
  (∀ (e : Fin 4) (r : TrgRec) (s : State), s.trgState e = 2 → s.acq.trg[e].cur = some r → Answers (.trgDisarm e) s fun u =>
      u.trgState e = 0 ∧ u.acq.trg[e].cur = none ∧ u.acq.trg[e].seqno = s.acq.trg[e].seqno + 1 ∧
      bitOf (u.rd (Ev.trg e).bits) 1 = true ∧ (∀ k, k ≠ e → u.acq.trg[k] = s.acq.trg[k]) ∧
      RegsSame ((F.TRG_STATUS_STATE e).addr :: evOut (Ev.trg e)) s u ∧ u.flash = s.flash ∧ u.host = s.host) ∧
  (∀ (e : Fin 4) (s : State), s.trgState e = 3 → Answers (.trgHoldoffExpiry e) s fun u =>
      u.trgState e = 1 ∧ u.acq.trg[e].last = true ∧ u.acq.trg[e].cur = none ∧ u.acq.trg[e].ring = [] ∧
      (∀ k, k ≠ e → u.acq.trg[k] = s.acq.trg[k]) ∧ u = { s with regs := u.regs, acq := u.acq } ∧
      Quiet [(F.TRG_STATUS_STATE e).addr] s u) ∧
  (∀ (e : Fin 4) (s : State), s.trgState e ≠ 3 → NoEffect (.trgHoldoffExpiry e) s) ∧
  ∀ (e : Fin 4) (n : Nat) (s : State), Answers (.trgRead e n) s fun u =>
      u.acq.trg[e] = { s.acq.trg[e] with unread := s.acq.trg[e].unread - n % 65536 } ∧
      u.rd (F.TRG_STATUS_UNREAD e) = min 4095 (s.acq.trg[e].unread - n % 65536) ∧ u.trgState e = s.trgState e ∧
      (∀ k, k ≠ e → u.acq.trg[k] = s.acq.trg[k]) ∧ u = { s with regs := u.regs, acq := { s.acq with trg := u.acq.trg } } ∧ Quiet [(F.TRG_STATUS_STATE e).addr] s u

/-- R205 to R216: a forced trigger, a timeout in AUTO mode, and a match that becomes true while the engine waits each start a record
where the store has a slot, and note its trigger point; a trigger in the holdoff is counted as ignored; a sample without a trigger
is kept; a record with all its samples completes, sets RECORD_DONE and enters the holdoff, or disarms in SINGLE
mode; the qualifier's time is reported once. -/
def Obligations.TriggersAndRecords : Prop :=
  (∀ (e : Fin 4) (s : State), s.trgState e = 1 → s.acq.trg[e].cur = none → s.acq.trg[e].unread < s.rd (F.TRG_STORE_RECS e) →
    (∀ k, s.qsrc k ≠ 6) → Answers (.trgForce e) s fun u =>
      u.trgState e = 2 ∧ (∃ r, u.acq.trg[e].cur = some r ∧ r.cause = 2 ∧ r.point = s.fuNow ∧ r.stamp = s.sharedAt s.fuNow ∧
        r.cut = false ∧ r.pre = s.heldBefore e s.fuNow ∧ r.post = s.heldFrom e s.fuNow) ∧
      u.rdP (F.TRG_LAST_LO_TIME e) = (s.sharedAt s.fuNow).1 ∧ bitOf (u.rd (Ev.trg e).bits) 0 = true ∧
      bitOf (u.rd (Ev.trg e).bits) 2 = true ∧ (∀ k, k ≠ e → u.acq.trg[k] = s.acq.trg[k]) ∧
      u = { s with regs := u.regs, hq := u.hq, sched := u.sched, acq := u.acq, sync := { s.sync with trigOut := u.sync.trigOut }
                   canopy := u.canopy, sdram := u.sdram } ∧
      RegsSame ([(F.TRG_STATUS_STATE e).addr, (F.TRG_LAST_LO_TIME e).addr, (F.TRG_LAST_LO_TIME e).addr + 4, (F.TRG_LAST_FINE_FINE e).addr] ++
        (List.range 16).map (fun b => (F.TRC_STATUS_STATE b).addr) ++ evOut (Ev.trg e)) s u) ∧
  (∀ (e : Fin 4) (s : State), s.trgState e = 0 → NoEffect (.trgForce e) s) ∧
  (∀ (e : Fin 4) (s : State), s.trgState e = 3 → s.acq.trg[e].cur = none → Answers (.trgForce e) s fun u =>
      u.rd (F.TRG_STATUS_IGNORED e) = min (s.rd (F.TRG_STATUS_IGNORED e) + 1) 65535 ∧ u.trgState e = 3 ∧
      RegsOnly s u ∧ Quiet [(F.TRG_STATUS_STATE e).addr] s u) ∧
  (∀ (e : Fin 4) (s : State), s.rd (F.TRG_CTRL_MODE e) = 2 → s.trgState e = 1 →
    s.acq.trg[e].unread < s.rd (F.TRG_STORE_RECS e) → (∀ k, s.qsrc k ≠ 6) → Answers (.trgTimeoutExpiry e) s fun u =>
      u.trgState e = 2 ∧ (∃ r, u.acq.trg[e].cur = some r ∧ r.cause = 2 ∧ r.point = s.fuNow ∧ r.stamp = s.sharedAt s.fuNow ∧
        r.cut = false ∧ r.pre = s.heldBefore e s.fuNow ∧ r.post = s.heldFrom e s.fuNow) ∧
      bitOf (u.rd (Ev.trg e).bits) 2 = true ∧ (∀ k, k ≠ e → u.acq.trg[k] = s.acq.trg[k]) ∧ u.flash = s.flash ∧ u.host = s.host) ∧
  (∀ (e : Fin 4) (s : State), s.trgState e ≠ 1 → NoEffect (.trgTimeoutExpiry e) s) ∧
  (∀ (e : Fin 4) (f : TrgFeed) (rest : List TrgFeed) (ticks : List (Nat × Nat)) (s : State), s.trgState e = 1 →
    s.acq.trg[e].kind = 0 → f.ends = false → f.only = false → s.acq.trg[e].feed = f :: rest → s.acq.trg[e].cur = none → s.acq.trg[e].last = false → s.comb e = 0 →
    s.matches e f.samp.value f.judged = true → (∀ k, s.qsrc k = 0) → s.acq.trg[e].unread < s.rd (F.TRG_STORE_RECS e) →
    Answers (.trgSample e ticks false) s fun u =>
      u.trgState e = 2 ∧ (∃ r, u.acq.trg[e].cur = some r ∧ r.cause = 0 ∧ r.point = f.samp.time) ∧ u.acq.trg[e].feed = rest ∧
      bitOf (u.rd (Ev.trg e).bits) 0 = true ∧ (∀ k, k ≠ e → u.acq.trg[k] = s.acq.trg[k]) ∧ u.flash = s.flash ∧ u.host = s.host) ∧
  (∀ (e : Fin 4) (f : TrgFeed) (rest : List TrgFeed) (ticks : List (Nat × Nat)) (late : Bool) (s : State), s.trgState e = 1 →
    s.acq.trg[e].kind = 3 → f.ends = false → f.only = false → (s.acq.trg[e].place).any s.writeLost = false → s.acq.trg[e].feed = f :: rest → Answers (.trgSample e ticks late) s fun u =>
      u.acq.trg[e].ring = (if late then { f.samp with value := 0, lost := true, drop := false } else f.samp) :: s.acq.trg[e].ring ∧
      u.acq.trg[e].feed = rest ∧
      u.acq.trg[e].cur = s.acq.trg[e].cur ∧ u.trgState e = 1 ∧
      u.rd (F.TRG_LOST_COUNT e) = min (s.rd (F.TRG_LOST_COUNT e) + b2n (late || f.samp.lost)) (2 ^ 32 - 1) ∧
      (∀ k, k ≠ e → u.acq.trg[k] = s.acq.trg[k]) ∧ u = { s with regs := u.regs, hq := u.hq, sched := u.sched, acq := u.acq } ∧
      Quiet ((F.TRG_LOST_COUNT e).addr :: evOut (Ev.trg e)) s u) ∧
  (∀ (e : Fin 4) (ticks : List (Nat × Nat)) (s : State), s.trgState e = 1 → s.acq.trg[e].kind = 1 ∨ s.acq.trg[e].kind = 2 →
    ticks.length = max 8 (s.rd (F.TRG_TIMING_DIV e)) → without (s.inView e) (s.word128 (F.TRG_DC_DC e)) = 0 → Answers (.trgSample e ticks false) s fun u =>
      u.acq.trg[e].tick = s.acq.trg[e].tick + ticks.length ∧ u.acq.trg[e].last = false ∧
      u.acq.trg[e].ring.length = s.acq.trg[e].ring.length + 1 ∧ u.acq.trg[e].cur = s.acq.trg[e].cur ∧
      (∀ k, k ≠ e → u.acq.trg[k] = s.acq.trg[k]) ∧ u = { s with acq := u.acq, freeCtr := u.freeCtr }) ∧
  (∀ (e : Fin 4) (r : TrgRec) (s : State), s.acq.trg[e].cur = some r → s.recDone e = true →
    s.acq.trg[e].unread + 1 < s.rd (F.TRG_STORE_RECS e) →
    Answers (.trgRecordComplete e) s fun u =>
      u.trgState e = (if s.rd (F.TRG_CTRL_MODE e) % 2 = 1 then 0 else 3) ∧
      u.acq.trg[e].unread = s.acq.trg[e].unread + 1 ∧ u.rd (F.TRG_STATUS_UNREAD e) = min 4095 (s.acq.trg[e].unread + 1) ∧
      u.acq.trg[e].cur = none ∧
      u.acq.trg[e].seqno = s.acq.trg[e].seqno + 1 ∧ bitOf (u.rd (Ev.trg e).bits) 1 = true ∧
      (∀ k, k ≠ e → u.acq.trg[k] = s.acq.trg[k]) ∧
      RegsSame ((F.TRG_STATUS_STATE e).addr :: evOut (Ev.trg e)) s u ∧ u.flash = s.flash ∧ u.host = s.host) ∧
  (∀ (e : Fin 4) (s : State), s.qsrc e = 5 → s.trgState e ≠ 0 → s.reached (s.rdP (F.TRG_QTIME_LO_T e)) = true →
    s.acq.trg[e].timed = false → s.comb e ≤ 1 → Answers (.qualifierTimeReached e) s fun u =>
      u.acq.trg[e] = { s.acq.trg[e] with timed := true } ∧ (∀ k, k ≠ e → u.acq.trg[k] = s.acq.trg[k]) ∧ u = { s with acq := u.acq }) ∧
  ∀ (e : Fin 4) (s : State), s.qsrc e = 5 → s.trgState e = 1 → s.reached (s.rdP (F.TRG_QTIME_LO_T e)) = true →
    s.acq.trg[e].timed = false → s.comb e = 3 → Answers (.qualifierTimeReached e) s fun u =>
      u.acq.trg[e].timed = true ∧ u.acq.trg[e].qual.isSome = true ∧ (∀ k, k ≠ e → u.acq.trg[k] = s.acq.trg[k]) ∧
      u = { s with acq := u.acq }

/-- R221 to R229, R238: ARM of a disarmed unit starts gate numbering anew and, on a TIME or COUNT gate, opens the gate at once; a
refused source sets BAD_CFG, a unit that calibrates holds the arm, a partner becomes the slave; an open gate counts and stamps the
edges of the source outside the dead time, one in PRESCALE, and counts those within it as missed; it closes on its limit, by CLOSE, or truncated by DISARM. -/
def Obligations.UnitGates : Prop :=
  (∀ (u : Fin 32) (s : State), s.tmuState u = 0 → s.tmuBad u = false → s.tmuHeld u = false → s.on (F.TMU_CTRL_STORE u) = false →
    s.partnerOf u = none → 2 ≤ s.rd (F.TMU_GATE_GSRC u) → Answers (.tmuArm u) s fun v =>
      v.tmuState u = 1 ∧ v.rd (F.TMU_STATUS_GATES u) = 0 ∧
      v.acq.tmu[u] = { s.acq.tmu[u] with gateNo := 0, lastS := none, due := false } ∧ (∀ k, k ≠ u → v.acq.tmu[k] = s.acq.tmu[k]) ∧
      v = { s with regs := v.regs, acq := v.acq } ∧ Quiet [(F.TMU_STATUS_STATE u).addr] s v) ∧
  (∀ (u : Fin 32) (s : State), s.tmuState u = 0 → s.tmuBad u = false → s.tmuHeld u = false → s.on (F.TMU_CTRL_STORE u) = false →
    s.partnerOf u = none → s.rd (F.TMU_GATE_GSRC u) ≤ 1 → Answers (.tmuArm u) s fun v =>
      v.tmuState u = 2 ∧ v.acq.tmu[u].gateNo = 1 ∧ v.acq.tmu[u].gate =
        some { no := 0, openS := s.fuNow, openTime := (s.sharedAt s.fuNow).1, stale := s.on (F.TMU_STATUS_STALE u), func := s.tmuFunc u
               window := 4096 * max 1 (s.rd (F.TMU_WINDOW_TICKS u)), prescale := max 1 (s.rd (F.TMU_PRESCALE_N u)) } ∧
      (∀ k, k ≠ u → v.acq.tmu[k] = s.acq.tmu[k]) ∧ v = { s with regs := v.regs, acq := v.acq } ∧
      Quiet [(F.TMU_STATUS_STATE u).addr] s v) ∧
  (∀ (u p : Fin 32) (s : State), s.tmuState u = 0 → s.tmuBad u = false → s.tmuHeld u = false → s.on (F.TMU_CTRL_STORE u) = false →
    s.partnerOf u = some p → 2 ≤ s.rd (F.TMU_GATE_GSRC u) → Answers (.tmuArm u) s fun v =>
      v.tmuState u = 1 ∧ v.tmuState p = 3 ∧ v.acq.tmu[p].master = some u.1 ∧ v.acq.tmu[p].edges = 0 ∧
      Quiet [(F.TMU_STATUS_STATE u).addr, (F.TMU_STATUS_STATE p).addr] s v) ∧
  (∀ (u : Fin 32) (s : State), s.tmuState u = 0 → s.tmuBad u = true → Answers (.tmuArm u) s fun v =>
      v.tmuState u = 0 ∧ bitOf (v.rd (Ev.tmu u).bits) 3 = true ∧ EventOnly s v ∧ Quiet (evOut (Ev.tmu u)) s v) ∧
  (∀ (u : Fin 32) (s : State), s.tmuState u = 0 → s.tmuBad u = false → s.tmuHeld u = true → Answers (.tmuArm u) s fun v =>
      v.tmuState u = 4 ∧ v.acq.tmu[u] = { s.acq.tmu[u] with heldArm := true } ∧ (∀ k, k ≠ u → v.acq.tmu[k] = s.acq.tmu[k]) ∧
      v = { s with regs := v.regs, acq := v.acq } ∧ Quiet [(F.TMU_STATUS_STATE u).addr] s v) ∧
  (∀ (u : Fin 32) (s : State), s.acq.tmu[u].master = none → s.acq.tmu[u].gate = none → Answers (.tmuDisarm u) s fun v =>
      v.tmuState u = 0 ∧ v.acq.tmu[u].heldArm = false ∧ v.acq.tmu[u].due = false ∧ v.acq.tmu[u].closed = s.acq.tmu[u].closed ∧
      (∀ k, k ≠ u → s.acq.tmu[k].master = some u.1 → v.tmuState k = 0 ∧ v.acq.tmu[k].master = none) ∧
      (∀ k, k ≠ u → s.acq.tmu[k].master ≠ some u.1 → v.tmuState k = s.tmuState k ∧ v.acq.tmu[k] = s.acq.tmu[k]) ∧
      v = { s with regs := v.regs, acq := v.acq } ∧ Quiet ((List.range 32).map fun k => (F.TMU_STATUS_STATE k).addr) s v) ∧
  (∀ (u : Fin 32) (g : Gate) (s : State), s.acq.tmu[u].master = none → s.acq.tmu[u].gate = some g → Answers (.tmuDisarm u) s fun v =>
      v.tmuState u = 0 ∧ v.acq.tmu[u].gate = none ∧ v.acq.tmu[u].closed = s.acq.tmu[u].closed ++ [{ g with full := false, cut := true }] ∧
      v.rd (F.TMU_STATUS_GATES u) = (s.rd (F.TMU_STATUS_GATES u) + 1) % 2 ^ 16 ∧ v = { s with regs := v.regs, acq := v.acq } ∧
      Quiet ((List.range 32).map fun k => (F.TMU_STATUS_STATE k).addr) s v) ∧
  (∀ (u : Fin 32) (g : Gate) (s : State), s.acq.tmu[u].gate = some g → s.on (F.TMU_CTRL_CONT u) = false → Answers (.tmuClose u) s fun v =>
      v.tmuState u = 0 ∧ v.acq.tmu[u].gate = none ∧ v.acq.tmu[u].closed = s.acq.tmu[u].closed ++ [{ g with full := false, cut := false }] ∧
      v.rd (F.TMU_STATUS_GATES u) = (s.rd (F.TMU_STATUS_GATES u) + 1) % 2 ^ 16 ∧ v = { s with regs := v.regs, acq := v.acq } ∧
      Quiet ((List.range 32).map fun k => (F.TMU_STATUS_STATE k).addr) s v) ∧
  (∀ (u : Fin 32) (s : State), s.acq.tmu[u].gate = none → NoEffect (.tmuClose u) s ∧ NoEffect (.tmuGateExpiry u) s) ∧
  (∀ (u : Fin 32) (g : Gate) (s : State), s.acq.tmu[u].gate = some g → s.on (F.TMU_CTRL_CONT u) = false →
    s.rd (F.TMU_GATE_GSRC u) = 0 → s.rd (F.TMU_GATE_US_US u) < 16000000 → g.stamps.length < 1048576 →
    Answers (.tmuGateExpiry u) s fun v =>
      v.tmuState u = 0 ∧ v.acq.tmu[u].gate = none ∧ v.acq.tmu[u].closed = s.acq.tmu[u].closed ++ [{ g with full := false, cut := false }] ∧
      v = { s with regs := v.regs, acq := v.acq } ∧ Quiet ((List.range 32).map fun k => (F.TMU_STATUS_STATE k).addr) s v) ∧
  (∀ (u : Fin 32) (s : State), s.tmuState u = 1 → s.rd (F.TMU_GATE_GSRC u) = 2 → s.acq.tmu[u].due = true →
    s.on (F.TMU_CTRL_STORE u) = false → s.partnerOf u = none → Answers (.tmuGateOpen u) s fun v =>
      v.tmuState u = 2 ∧ v.acq.tmu[u].gateNo = s.acq.tmu[u].gateNo + 1 ∧ v.acq.tmu[u].due = false ∧
      (∃ g, v.acq.tmu[u].gate = some g ∧ g.no = s.acq.tmu[u].gateNo ∧ g.openS = s.cycleZero (s.tmuGrove u) ∧ g.stamps = []) ∧
      (∀ k, k ≠ u → v.acq.tmu[k] = s.acq.tmu[k]) ∧ v = { s with regs := v.regs, acq := v.acq } ∧
      Quiet [(F.TMU_STATUS_STATE u).addr] s v) ∧
  (∀ (u : Fin 32) (s : State), s.tmuState u ≠ 1 → NoEffect (.tmuGateOpen u) s) ∧
  (∀ (u : Fin 32) (tick code : Nat) (late : Bool) (g : Gate) (s : State), s.rd (F.TMU_SRC_EDGE u) = 0 → s.tmuBlocked u = false →
    s.acq.tmu[u].master = none → s.acq.tmu[u].gate = some g → g.stamps.length < s.gateLimit u → s.acq.hits[fin 36 u] ≠ [] →
    g.edges % max 1 (s.rd (F.TMU_PRESCALE_N u)) = 0 → s.on (F.TMU_CTRL_STORE u) = false →
    inDead s.acq.tmu[u].lastS (s.edgeAt u tick code) = false →
    Answers (.tmuEdge u tick code true late) s fun v =>
      v.acq.tmu[u].lastS = some (s.edgeAt u tick code) ∧
      v.acq.tmu[u].gate = some { g with edges := g.edges + 1, stamps := g.stamps ++
        [⟨s.edgeAt u tick code, g.edges, false, s.unref⟩] } ∧
      (∀ k, k ≠ u → v.acq.tmu[k] = s.acq.tmu[k]) ∧ v = { s with acq := v.acq }) ∧
  (∀ (u : Fin 32) (tick code : Nat) (late : Bool) (g : Gate) (s : State), s.rd (F.TMU_SRC_EDGE u) = 0 → s.tmuBlocked u = false →
    s.acq.tmu[u].master = none → s.acq.tmu[u].gate = some g → g.stamps.length < s.gateLimit u → s.acq.hits[fin 36 u] ≠ [] →
    g.edges % max 1 (s.rd (F.TMU_PRESCALE_N u)) ≠ 0 → inDead s.acq.tmu[u].lastS (s.edgeAt u tick code) = false →
    Answers (.tmuEdge u tick code true late) s fun v =>
      v.acq.tmu[u] = { s.acq.tmu[u] with gate := some { g with edges := g.edges + 1 } } ∧
      (∀ k, k ≠ u → v.acq.tmu[k] = s.acq.tmu[k]) ∧ v = { s with acq := v.acq }) ∧
  (∀ (u : Fin 32) (tick code : Nat) (late : Bool) (g : Gate) (s : State), s.rd (F.TMU_SRC_EDGE u) = 0 → s.tmuBlocked u = false →
    s.acq.tmu[u].master = none → s.acq.tmu[u].gate = some g → g.stamps.length < s.gateLimit u → s.acq.hits[fin 36 u] ≠ [] →
    inDead s.acq.tmu[u].lastS (s.edgeAt u tick code) = true → Answers (.tmuEdge u tick code true late) s fun v =>
      v.acq.tmu[u] = { s.acq.tmu[u] with gate := some { g with edges := g.edges + 1, missed := g.missed + 1 } } ∧
      v.rd (F.TMU_MISSED_COUNT u) = min (s.rd (F.TMU_MISSED_COUNT u) + 1) (2 ^ 32 - 1) ∧ bitOf (v.rd (Ev.tmu u).bits) 2 = true ∧
      (∀ k, k ≠ u → v.acq.tmu[k] = s.acq.tmu[k]) ∧ v = { s with regs := v.regs, hq := v.hq, sched := v.sched, acq := v.acq } ∧
      Quiet ((F.TMU_MISSED_COUNT u).addr :: evOut (Ev.tmu u)) s v) ∧
  ∀ (u : Fin 32) (tick code : Nat) (late : Bool) (s : State), s.rd (F.TMU_SRC_EDGE u) = 0 →
    NoEffect (.tmuEdge u tick code false late) s

/-- R225, R228, R229, R233 to R235: the results of the oldest closed gate go to the result registers and set GATE; reading RES_COUNT
latches the set for the requester class; a frozen store gets no block; a read acknowledge frees blocks; TMU_BIN_DATA answers an entry and steps on; a due,
disarmed unit calibrates, and a plausible histogram replaces its table; a unit whose drift has qualified
is due. -/
def Obligations.UnitResultsAndTables : Prop :=
  (∀ (u : Fin 32) (g : Gate) (rest : List Gate) (s : State), s.acq.tmu[u].closed = g :: rest → g.block = none →
    Answers (.tmuResultsFinal u) s fun v =>
      v.rd (F.TMU_RES_COUNT_COUNT u) = (gateResults g.window g).count % 2 ^ 21 ∧
      v.rdP (F.TMU_RES_MEAN_LO_VALUE u) = zx 64 (gateResults g.window g).mean ∧
      v.rdP (F.TMU_RES_MIN_LO_VALUE u) = zx 64 (gateResults g.window g).min ∧
      v.rdP (F.TMU_RES_MAX_LO_VALUE u) = zx 64 (gateResults g.window g).max ∧
      v.rd (F.TMU_RES_COUNT_TRUNCATED u) = b2n g.cut ∧ v.rd (F.TMU_RES_COUNT_FULL_GATE u) = b2n g.full ∧
      v.acq.tmu[u] = { s.acq.tmu[u] with closed := rest } ∧ bitOf (v.rd (Ev.tmu u).bits) 0 = true ∧
      (∀ k, k ≠ u → v.acq.tmu[k] = s.acq.tmu[k]) ∧ v = { s with regs := v.regs, hq := v.hq, sched := v.sched, acq := v.acq } ∧
      Quiet ((List.range 12).map (fun i => (F.TMU_RES_COUNT_COUNT u).addr + 4 * i) ++ evOut (Ev.tmu u)) s v) ∧
  (∀ (u : Fin 32) (g : Gate) (rest : List Gate) (s : State), s.acq.tmu[u].closed = g :: rest → s.flt.frozen = true →
    Answers (.tmuResultsFinal u) s fun v =>
      v.rd (F.TMU_RES_COUNT_COUNT u) = (gateResults g.window g).count % 2 ^ 21 ∧
      v.acq.tmu[u] = { s.acq.tmu[u] with closed := rest } ∧ bitOf (v.rd (Ev.tmu u).bits) 0 = true ∧
      v = { s with regs := v.regs, hq := v.hq, sched := v.sched, acq := v.acq } ∧
      Quiet ((List.range 12).map (fun i => (F.TMU_RES_COUNT_COUNT u).addr + 4 * i) ++ evOut (Ev.tmu u)) s v) ∧
  (∀ (req : Req) (u : Fin 32) (s : State), Answers (.tmuResCountRead req u) s fun v =>
      v.hq.answer = [(s.word .tmu (F.TMU_RES_COUNT_COUNT u).addr).toNat] ∧
      (∃ x, v.acq.latches.head? = some x ∧ x.req = req.cls ∧ x.unit = u ∧ x.words = s.resWords u) ∧
      v = { s with acq := { s.acq with latches := v.acq.latches }, hq := { s.hq with answer := v.hq.answer } }) ∧
  (∀ (u : Fin 32) (n : Nat) (s : State), Answers (.tmuRead u n) s fun v =>
      v.acq.tmu[u] = { s.acq.tmu[u] with blocks := s.acq.tmu[u].blocks.drop (n % 65536) } ∧
      (∀ k, k ≠ u → v.acq.tmu[k] = s.acq.tmu[k]) ∧ v = { s with acq := v.acq }) ∧
  (∀ (req : Req) (s : State), Answers (.tmuBinDataRead req) s fun v =>
      v.hq.answer = [s.binWord] ∧ v.rd F.TMU_BIN_SEL_CODE = (s.rd F.TMU_BIN_SEL_CODE + 1) % 2 ^ 12 ∧
      v.rd F.TMU_BIN_SEL_UNIT = s.rd F.TMU_BIN_SEL_UNIT ∧ v = { s with regs := v.regs, hq := { s.hq with answer := v.hq.answer } } ∧
      Quiet [(F.TMU_BIN_SEL_CODE).addr] s v) ∧
  (∀ (unit : Nat) (s : State), unit < 36 → bitOf s.acq.calDue unit = true → s.unitIdle unit = true → s.cal.run = none →
    Answers (.codeDensityCalibration unit) s fun v =>
      bitOf v.acq.calRun unit = true ∧ bitOf v.acq.calDue unit = false ∧ v.rd F.TMU_GSTATUS_CAL_RUN = 1 ∧
      (∀ k, k ≠ unit → bitOf v.acq.calRun k = bitOf s.acq.calRun k ∧ bitOf v.acq.calDue k = bitOf s.acq.calDue k) ∧
      v = { s with regs := v.regs, acq := { s.acq with calRun := v.acq.calRun, calDue := v.acq.calDue } } ∧
      Quiet [(F.TMU_GSTATUS_CAL_RUN).addr] s v) ∧
  (∀ (u : Fin 32) (hits : List Nat) (s : State), bitOf s.acq.calRun u = true → hits.length = 4096 → hits.sum = 4194304 →
    plausible hits = true → s.acq.tmu[u].heldArm = false → s.cal.queue = [] → Answers (.codeDensityDone u hits) s fun v =>
      v.acq.hits[fin 36 u] = hits ∧ bitOf v.acq.calRun u = false ∧ v.rd (F.TMU_STATUS_STALE u) = 0 ∧ v.power.drift[fin 36 u] = 0 ∧
      v.rd (F.TMU_CAL_TEMP_TEMP u) = zx 16 s.tdec ∧ bitOf (v.rd Ev.tmuG.bits) 0 = true ∧ v.acq.tmu = s.acq.tmu ∧
      v.acq.trg = s.acq.trg ∧ BytesSame s v) ∧
  (∀ (u : Fin 32) (hits : List Nat) (s : State), bitOf s.acq.calRun u = true → hits.length = 4096 → hits.sum = 4194304 →
    plausible hits = false → s.acq.tmu[u].heldArm = false → s.cal.queue = [] → Answers (.codeDensityDone u hits) s fun v =>
      v.acq.hits = s.acq.hits ∧ bitOf v.acq.calRun u = false ∧ v.rd (F.TMU_STATUS_STALE u) = 1 ∧ bitOf (v.rd Ev.tmuG.bits) 1 = true ∧
      v.acq.tmu = s.acq.tmu ∧ v.acq.trg = s.acq.trg ∧ BytesSame s v) ∧
  ∀ (unit : Nat) (s : State), unit < 36 → s.on F.TMU_GCTRL_AUTO_RECAL = true → 160 ≤ s.power.drift[fin 36 unit] →
    48 < (s.tdec - s.rdS (calTempOf unit)).natAbs →
    Answers (.driftQualified unit) s fun v =>
      bitOf v.acq.calDue unit = true ∧ (∀ k, k ≠ unit → bitOf v.acq.calDue k = bitOf s.acq.calDue k) ∧
      v = { s with acq := { s.acq with calDue := v.acq.calDue } }

/-- R406, R409, R413 to R418: the power-up run measures REF to DELAY; CALIBRATE begins a run, waits behind one, or completes with its
refusal; the end of a run puts plausible values in force, leaves a unit without them STALE and unchanged, and completes with the
groups and units; a written record is activated under trial, and a failed write completes with RECORD_FAILED. -/
def Obligations.CalibrationRuns : Prop :=
  (∀ s : State, s.on F.CAL_STATUS_START_DONE = false → s.cal.run = none → s.rd F.CLK_STATUS_SRC = 0 →
    (∀ k, s.groveIdle k = true) → (∃ v, s.tmuState v = 0 ∧ s.tmuOwner v = none ∧ bitOf s.acq.calRun v = false) →
    Answers .powerupCalibration s fun u =>
      (∃ r, u.cal.run = some r ∧ r.cmd = none ∧ r.groups = 0x3F ∧ r.commit = false ∧ r.chans = 2 ^ 128 - 1) ∧ u.calHold = 2 ^ 128 - 1 ∧
      (∀ c : Fin 128, u.chans[c] = { s.chans[c] with den := false }) ∧
      (∀ d : Fin 16, s.dscBound d = true → s.dscMode d = 0 → u.rd (F.CMP_ST_CTRL_GO d) = 1) ∧ u.rd F.CAL_STATUS_RUNNING = 1 ∧
      u.rd F.TMG_STATUS_CAL_RUN = 1 ∧ u.cal.queue = s.cal.queue ∧ u.cal.units = s.cal.units ∧
      u = { s with regs := u.regs, hq := u.hq, sched := u.sched, cal := u.cal, calHold := u.calHold, chans := u.chans
                   acq := { s.acq with calHeld := u.acq.calHeld, calDue := u.acq.calDue } } ∧
      Quiet (calOut ++ (allFin 16).flatMap fun d => [(F.CMP_ST_CTRL_GO d).addr, (F.CMP_ST_RESULT_RESULT d).addr] ++ evOut (Ev.cmp d)) s u) ∧
  (∀ s : State, s.on F.CAL_STATUS_START_DONE = true → NoEffect .powerupCalibration s) ∧
  (∀ (h : Hdr) (groups flags groves dscs : Nat) (s : State), s.canBegin h 0x21 → 0 < groups → groups < 0x10 → flags < 4 →
    s.atAcceptance h (·.reload) = false → s.cal.run = none → s.cal.commit = none → s.acq.calRun = 0 → s.cal.queue = [] →
    Answers (.calibrate h groups flags groves dscs) s fun u =>
      (∃ r, u.cal.run = some r ∧ r.cmd = some h ∧ r.groups = groups ∧ r.commit = bitOf flags 0 ∧ r.groves = groves) ∧
      u.rd F.CAL_STATUS_RUNNING = 1 ∧ u.hq.compls = s.hq.compls ∧ u.cal.queue = [] ∧ u.cal.units = s.cal.units ∧
      u.calHold = 0 ∧ u.chans = s.chans ∧ Quiet calOut s u) ∧
  (∀ (h : Hdr) (groups flags groves dscs : Nat) (s : State), s.canBegin h 0x21 → 0 < groups → groups < 0x10 → flags < 4 →
    s.atAcceptance h (·.reload) = false → s.cal.run.isSome = true → Answers (.calibrate h groups flags groves dscs) s fun u =>
      u.cal.run = s.cal.run ∧ (∃ r, u.cal.queue = s.cal.queue ++ [r] ∧ r.cmd = some h ∧ r.groups = groups) ∧
      u.hq.compls = s.hq.compls ∧ u = { s with hq := u.hq, cal := { s.cal with queue := u.cal.queue } }) ∧
  (∀ (h : Hdr) (groups flags groves dscs : Nat) (s : State), s.canBegin h 0x21 → groups = 0 ∨ 0x80 ≤ groups ∨ 4 ≤ flags →
    Answers (.calibrate h groups flags groves dscs) s fun u => Completes s u h stBadOperand 0 0 ∧ u = { s with hq := u.hq }) ∧
  (∀ (h : Hdr) (groups flags groves dscs : Nat) (s : State), s.canBegin h 0x21 → 0x10 ≤ groups → groups < 0x80 → flags < 4 →
    s.atAcceptance h (·.noRef) = true → Answers (.calibrate h groups flags groves dscs) s fun u =>
      Completes s u h 0x03 0 0 ∧ u = { s with hq := u.hq }) ∧
  (∀ (h : Hdr) (groups flags groves dscs : Nat) (s : State), s.canBegin h 0x21 → 0 < groups → groups < 0x10 → flags < 4 →
    s.atAcceptance h (·.reload) = true → Answers (.calibrate h groups flags groves dscs) s fun u =>
      Completes s u h 0x06 0 0 ∧ u = { s with hq := u.hq }) ∧
  (∀ (h : Hdr) (r : CalRun) (refclk : List (Int × Nat)) (s : State), s.cal.run = some r → r.cmd = some h → r.cut = false → r.commit = false →
    r.lost = false → (∀ g k, s.lostUnit r false g k = false) → s.acq.calHeld = 0 → s.cal.queue = [] → Answers (.calibrationRunEnd [] refclk) s fun u =>
      Completes s u h r.status r.detail 0 ∧ u.cal.run = none ∧ u.calHold = 0 ∧ u.rd F.CAL_STATUS_RUNNING = 0 ∧
      u.rd F.TMG_STATUS_CAL_RUN = 0 ∧ u.cal.units = s.cal.units ∧ u.cal.vals = s.cal.vals ∧
      Quiet (calOut ++ (List.range 7).map fun g => (F.CAL_GRP_STAT_STATE g).addr) s u) ∧
  (∀ (h : Hdr) (r : CalRun) (x : CalResult) (refclk : List (Int × Nat)) (s : State), s.cal.run = some r → r.cmd = some h → r.cut = false →
    r.commit = false → r.lost = false → r.status = 0 → (∀ g k, s.lostUnit r false g k = false) → s.acq.calHeld = 0 →
    s.cal.queue = [] → x.group = 1 → r.takes 1 x.unit = true → s.unitOk x 0 = true → Answers (.calibrationRunEnd [x] refclk) s fun u =>
      Completes s u h stOk r.detail 2 ∧ u.cal.run = none ∧ u.getUnit gHOUSE x.unit = x.vals ∧
      u.cal.units[gHOUSE] = s.cal.units[gHOUSE].set x.unit 1 ∧ bitOf (u.rd Ev.cal.bits) 0 = true ∧
      u.rd F.CAL_COUNT_COUNT = (s.rd F.CAL_COUNT_COUNT + 1) % 2 ^ 32 ∧ BytesSame s u) ∧
  (∀ (h : Hdr) (r : CalRun) (x : CalResult) (refclk : List (Int × Nat)) (s : State), s.cal.run = some r → r.cmd = some h → r.cut = false →
    r.commit = false → r.lost = false → r.status = 0 → (∀ g k, s.lostUnit r false g k = false) → s.acq.calHeld = 0 →
    s.cal.queue = [] → x.group = 1 → r.takes 1 x.unit = true → s.unitOk x 0 = false → Answers (.calibrationRunEnd [x] refclk) s fun u =>
      Completes s u h stOk r.detail (2 + 2 ^ 8 * 2 + 2 ^ 16) ∧ u.cal.run = none ∧ u.cal.vals = s.cal.vals ∧
      u.cal.units[gHOUSE] = s.cal.units[gHOUSE].set x.unit 2 ∧ bitOf (u.rd Ev.cal.bits) 1 = true ∧ BytesSame s u) ∧
  (∀ (refclk : List (Int × Nat)) (results : List CalResult) (s : State), s.cal.run = none → NoEffect (.calibrationRunEnd results refclk) s) ∧
  (∀ (h : Hdr) (r : CalRun) (n key : Nat) (s : State), s.cal.commit = some (r, n) → r.cmd = some h → s.sec.calKey = some key →
    s.cal.queue = [] → Answers (.calibrationRecordWritten true) s fun u =>
      Completes s u h r.status r.detail (if r.status = 0 then n else 0) ∧ u.cal.commit = none ∧
      u.boot.changes = s.boot.changes ++ [(2, .activate)] ∧ u.rd F.GLB_UPD_CMD_CAL_ADVANCE = 0 ∧ bitOf (u.rd Ev.cal.bits) 2 = true ∧
      u.flashBytes s.calSlot (s.calImage key).length = s.calImage key ∧
      (∀ a, a < s.calSlot ∨ s.calSlot + max (2 ^ 20) (s.calImage key).length ≤ a → Mem.byte u.flash a = Mem.byte s.flash a) ∧
      RegsSame ((F.GLB_UPD_CMD_CAL_ADVANCE).addr :: evOut Ev.cal) s u ∧ u.canopy = s.canopy ∧ u.sdram = s.sdram ∧ u.host = s.host) ∧
  (∀ (h : Hdr) (r : CalRun) (n : Nat) (s : State), s.cal.commit = some (r, n) → r.cmd = some h → s.cal.queue = [] →
    Answers (.calibrationRecordWritten false) s fun u =>
      Completes s u h 7 0 0 ∧ u.cal.commit = none ∧ bitOf (u.rd Ev.cal.bits) 3 = true ∧
      u = { s with regs := u.regs, hq := u.hq, sched := u.sched, cal := { s.cal with commit := none } } ∧ Quiet (evOut Ev.cal) s u) ∧
  ∀ (ok : Bool) (s : State), s.cal.commit = none → NoEffect (.calibrationRecordWritten ok) s

/-- R242, R249, R256 to R265: a mode request is noted for the next sample, or opens the stage at once (DISCONNECT), or sets BAD_REQ;
COMMIT waits for the next sample; a binding clears its profile; markers wait for their pulse; a pass that ends unclean is
discarded; a scrub hit opens the stage; a trace buffer is placed and armed or disabled. -/
def Obligations.SupplyControl : Prop :=
  (∀ (d : Fin 16) (after : Bool) (s : State), s.modeRefused d 0 = false → s.dscs[d].tune = none → s.dscs[d].pass = none →
    Answers (.dscModeRequest d 0 after) s fun u =>
      u.dscMode d = 0 ∧ u.rd (F.DSC_STATUS_GOV d) = 0 ∧ u.rd (F.DSC_STATUS_CAUSE d) = 0 ∧ u.rd (F.DSC_CTRL_MODE d) = 0 ∧
      u.dscs[d].pgn.en = false ∧ u.dscs[d].pgn.on = 0 ∧ u.dscs[d].wait = [] ∧ u.dscs[d].req = none ∧
      (∀ k, k ≠ d → u.dscs[k] = s.dscs[k]) ∧ u = { s with regs := u.regs, dscs := u.dscs } ∧
      Quiet [(F.DSC_CTRL_MODE d).addr, (F.DSC_STATUS_MODE d).addr] s u) ∧
  (∀ (d : Fin 16) (mode : Nat) (after : Bool) (s : State), 0 < mode → s.modeRefused d mode = false →
    Answers (.dscModeRequest d mode after) s fun u =>
      u.dscs[d] = { s.dscs[d] with req := some (if mode = 1 ∧ s.dscMode d = 0 then 3 else mode) } ∧
      u.rd (F.DSC_CTRL_MODE d) = mode ∧ u.rd (F.DSC_CTRL_DISC_AFTER d) = b2n after ∧ (∀ k, k ≠ d → u.dscs[k] = s.dscs[k]) ∧
      u = { s with regs := u.regs, dscs := u.dscs } ∧ Quiet [(F.DSC_CTRL_MODE d).addr] s u) ∧
  (∀ (d : Fin 16) (mode : Nat) (after : Bool) (s : State), s.modeRefused d mode = true → Answers (.dscModeRequest d mode after) s fun u =>
      u.dscs = s.dscs ∧ u.dscMode d = s.dscMode d ∧ bitOf (u.rd (Ev.dsc d).bits) 0 = true ∧ EventOnly s u ∧
      Quiet ((F.DSC_CTRL_MODE d).addr :: evOut (Ev.dsc d)) s u) ∧
  (∀ (d : Fin 16) (s : State), Answers (.dscCommit d) s fun u =>
      u.dscs[d] = { s.dscs[d] with commit := true } ∧ (∀ k, k ≠ d → u.dscs[k] = s.dscs[k]) ∧ u = { s with dscs := u.dscs }) ∧
  (∀ (d : Fin 16) (p : Fin 4) (w : Word) (s : State), w.getLsbD 24 = true → s.dscs[d].pass = none →
    Answers (.dscRcBindWrite d p w) s fun u =>
      u.slotState d p = 1 ∧ u.rd (F.DSC_RC_BIND_SEG d p) = fieldOf w.toNat 0 16 ∧ u.rd (F.DSC_RC_BIND_GEN d p) = fieldOf w.toNat 16 8 ∧
      u.rd (F.DSC_RC_BIND_VALID d p) = 1 ∧ u.dscs[d].slots[p] = {} ∧ (∀ k, k ≠ p → u.dscs[d].slots[k] = s.dscs[d].slots[k]) ∧
      (∀ k, k ≠ d → u.dscs[k] = s.dscs[k]) ∧ u = { s with regs := u.regs, dscs := u.dscs } ∧
      Quiet [(F.DSC_RC_BIND_SEG d p).addr, (F.DSC_RC_STAT_STATE d p).addr] s u) ∧
  (∀ (d : Fin 16) (p : Fin 4) (w : Word) (s : State), w.getLsbD 24 = false → s.dscs[d].pass = none →
    Answers (.dscRcBindWrite d p w) s fun u =>
      u.slotState d p = 0 ∧ u.rd (F.DSC_RC_BIND_VALID d p) = 0 ∧ RegsOnly s u ∧
      Quiet [(F.DSC_RC_BIND_SEG d p).addr, (F.DSC_RC_STAT_STATE d p).addr] s u) ∧
  (∀ (t : Fin 32) (seg gen word depth : Nat) (s : State),
    (s.forest.segs.any fun x => decide (x.id = seg) && decide (x.gen = gen) && x.loading.isNone) = false →
    Answers (.dscMarkerDelivery t seg gen word depth) s fun u =>
      u.rd F.FOR_STALE_CNT_COUNT = min (s.rd F.FOR_STALE_CNT_COUNT + 1) 65535 ∧ bitOf (u.rd Ev.frst.bits) 3 = true ∧ EventOnly s u ∧
      Quiet ((F.FOR_STALE_CNT_COUNT).addr :: evOut Ev.frst) s u) ∧
  (∀ (t : Fin 32) (seg gen word depth : Nat) (d : Fin 16) (s : State),
    (s.forest.segs.any fun x => decide (x.id = seg) && decide (x.gen = gen) && x.loading.isNone) = true →
    (grovesIn s.threads[t].members).flatMap s.dscsOf = [d] → s.dscs[d].pulses = [] →
    Answers (.dscMarkerDelivery t seg gen word depth) s fun u =>
      u.dscs[d] = { s.dscs[d] with delivered := s.dscs[d].delivered ++ [⟨seg, gen, word, depth⟩] } ∧
      (∀ k, k ≠ d → u.dscs[k] = s.dscs[k]) ∧ u = { s with dscs := u.dscs }) ∧
  (∀ (d : Fin 16) (x : RcPass) (s : State), s.dscs[d].closing = [] → s.dscs[d].pass = some x → x.ran = true → x.clean = false →
    Answers (.rcPassComplete d x.slot) s fun u =>
      u.dscs[d] = { s.dscs[d] with pass := none } ∧ u.rd (F.DSC_RC_CNT_DISCARD d) = min (s.rd (F.DSC_RC_CNT_DISCARD d) + 1) 65535 ∧
      u.rd (F.DSC_STATUS_ACTIVE d) = 0 ∧ (∀ k, k ≠ d → u.dscs[k] = s.dscs[k]) ∧ u = { s with regs := u.regs, dscs := u.dscs } ∧
      Quiet [(F.DSC_RC_CNT_DISCARD d).addr, (F.DSC_STATUS_ACTIVE d).addr] s u) ∧
  (∀ (d : Fin 16) (p : Fin 4) (s : State), s.dscs[d].closing = [] → s.dscs[d].pass = none → NoEffect (.rcPassComplete d p) s) ∧
  (∀ (d : Fin 16) (s : State), s.dscMode d ≠ 0 → s.ramping d = false → s.dscs[d].pass = none → s.classOf 15 < 2 →
    Answers (.dscScrub (some d)) s fun u =>
      u.dscMode d = 0 ∧ u.rd (F.DSC_STATUS_CAUSE d) = 2 ∧ u.dscs[d].pgn.on = 0 ∧ bitOf (u.rd (Ev.dsc d).bits) 8 = true ∧
      u.latched 15 = true ∧ (∀ k, k ≠ d → u.dscs[k] = s.dscs[k]) ∧
      u = { s with regs := u.regs, hq := u.hq, sched := u.sched, flt := u.flt, dscs := u.dscs } ∧
      Quiet ((F.DSC_STATUS_MODE d).addr :: evOut (Ev.dsc d) ++ faultOut 15) s u) ∧
  (∀ s : State, NoEffect (.dscScrub none) s) ∧
  (∀ (req : Req) (b : Fin 16) (w : Word) (s : State), s.mayWrite req (F.TRC_CTRL_EN b).addr w = true → w.getLsbD 0 = false →
    Answers (.trcCtrlWrite req b w) s fun u =>
      u.rd (F.TRC_CTRL_EN b) = 0 ∧ u.rd (F.TRC_STATUS_STATE b) = 0 ∧ RegsOnly s u ∧
      Quiet [(F.TRC_CTRL_EN b).addr, (F.TRC_STATUS_STATE b).addr, wseqOut] s u) ∧
  ∀ (req : Req) (b : Fin 16) (w : Word) (page : Nat) (s : State), s.mayWrite req (F.TRC_CTRL_EN b).addr w = true → w.getLsbD 0 = true →
    ({ s with forest := { s.forest with traces := s.forest.traces.filter fun p => p.1 != b.1 } } : State).canopyRun 4 4 = some page →
    Answers (.trcCtrlWrite req b w) s fun u =>
      u.rd (F.TRC_CTRL_EN b) = 1 ∧ u.rd (F.TRC_COUNT_ENTRIES b) = 0 ∧
      u.rd (F.TRC_STATUS_STATE b) = (if s.rd (F.TRC_CFG_START b) = 0 ∨ 4 < s.rd (F.TRC_CFG_START b) then 2 else 1) ∧
      (b.1, (⟨false, page, 4 * canopyPage⟩ : Place)) ∈ u.forest.traces ∧ u.trcs[b].written = 0 ∧ (∀ k, k ≠ b → u.trcs[k] = s.trcs[k]) ∧
      u = { s with regs := u.regs, trcs := u.trcs, forest := { s.forest with traces := u.forest.traces, regions := u.forest.regions } } ∧
      Quiet [(F.TRC_CTRL_EN b).addr, (F.TRC_STATUS_STATE b).addr, (F.TRC_COUNT_ENTRIES b).addr, (F.TRC_LOC_PAGE b).addr, wseqOut] s u

/-- R266, R272 to R279: a period starts at its step only, with the on-time of the duty in force and the edges it gives, none in DISCONNECT; PCC outside blanking, and PCC still true at its end, WH and OVP
end the pulse in progress and are counted once a period, WL is counted; a level that becomes false is cleared; OVP for more than 100 ns
starts the Firebreak by its class; a self-check runs in DISCONNECT only and reports its steps; DSC_FLT_L holds the outputs low. -/
def Obligations.PulsesAndComparators : Prop :=
  (∀ (d : Fin 16) (s : State), s.dscBound d = true → s.stepDue d 0 = true → s.dscMode d = 0 → s.dscs[d].pgn.blanked = false →
    Answers (.switchingPeriodStart d) s fun u =>
      u.dscs[d].pgn.on = 0 ∧ u.dscs[d].pgn.en = false ∧ (∀ k, u.stageOut d k = (false, false, false)) ∧ u.dscs[d].pgn.force = s.pgnWords d ∧ u.rd (F.DSC_DUTY_APPLIED d) = 0 ∧
      u.rd (F.PGN_STATUS_CUT d) = b2n s.dscs[d].pgn.cut ∧ (∀ k, k ≠ d → u.dscs[k] = s.dscs[k]) ∧
      u = { s with regs := u.regs, dscs := u.dscs } ∧ Quiet [(F.PGN_STATUS_CUT d).addr, (F.DSC_DUTY_APPLIED d).addr] s u) ∧
  (∀ (d : Fin 16) (s : State), s.dscBound d = true → s.stepDue d 0 = true → s.dscMode d ≠ 0 → s.on (F.CMP_LEVEL_WH d) = false →
    s.on (F.CMP_LEVEL_OVP d) = false → s.on (F.CMP_LEVEL_WL d) = false → s.fltHeld d = false → s.ramping d = false → s.dscs[d].pgn.blanked = false →
    Answers (.switchingPeriodStart d) s fun u =>
      u.dscs[d].pgn.on = ({ s.dscs[d].pgn with force := s.pgnWords d } : Pgn).steps (s.pgnN d) s.dscs[d].pgn.duty ∧
      u.dscs[d].pgn.en = true ∧ (∀ k, (u.stageOut d k).2.1 = decide (k < u.dscs[d].pgn.on)) ∧
      (∀ k, (u.stageOut d k).2.2 = true → u.dscs[d].pgn.on = 0 ∨ u.dscs[d].pgn.on + s.rd (F.PGN_DT_DT_FALL d) ≤ k) ∧
      (∀ k, s.pgnN d ≤ k + s.rd (F.PGN_DT_DT_RISE d) → (u.stageOut d k).2.2 = false) ∧ u.dscs[d].pgn.cut = false ∧ u.dscs[d].pgn.force = s.pgnWords d ∧ (∀ k, k ≠ d → u.dscs[k] = s.dscs[k]) ∧
      u = { s with regs := u.regs, dscs := u.dscs } ∧ Quiet [(F.PGN_STATUS_CUT d).addr, (F.DSC_DUTY_APPLIED d).addr] s u) ∧
  (∀ (d : Fin 16) (s : State), s.dscBound d = false ∨ s.stepDue d 0 = false → NoEffect (.switchingPeriodStart d) s) ∧
  (∀ (d : Fin 16) (step : Nat) (s : State), step < s.dscs[d].pgn.force.getD 0 0 → Answers (.pccTrip d step) s fun u =>
      u.rd (F.CMP_LEVEL_PCC d) = 1 ∧ u.dscs[d] = { s.dscs[d] with pgn := { s.dscs[d].pgn with blanked := true } } ∧
      (∀ k, k ≠ d → u.dscs[k] = s.dscs[k]) ∧ u = { s with regs := u.regs, dscs := u.dscs } ∧ Quiet [(F.CMP_LEVEL_PCC d).addr] s u) ∧
  (∀ (d : Fin 16) (s : State), s.pending = [] → s.power.present = true → (s.tim.raw + 1) % 2 ^ 64 % 8 ≠ 0 → s.dscs[d].pgn.blanked = true →
    (∀ k, k ≠ d → s.dscs[k].pgn.blanked = false) →
    s.dscs[d].pgn.force.getD 0 0 ≤ 16 * ((s.tim.raw + 1) % 2 ^ 64 - s.dscs[d].pgn.start) → s.dscs[d].pgn.force.getD 0 0 < s.dscs[d].pgn.on →
    s.dscs[d].pgn.pccCut = false → s.dscs[d].pgn.cuts + 1 < s.rd (F.CMP_OC_CFG_CYCLES d) → ∃ u, step s = .next u ∧
      u.dscs[d].pgn.on = s.dscs[d].pgn.force.getD 0 0 ∧ u.dscs[d].pgn.pccCut = true ∧ u.dscs[d].pgn.blanked = false ∧
      u.dscs[d].pgn.cuts = s.dscs[d].pgn.cuts + 1 ∧ u.rd (F.CMP_TRIPS_PCC d) = (s.rd (F.CMP_TRIPS_PCC d) + 1) % 2 ^ 16 ∧
      bitOf (u.rd (Ev.cmp d).bits) 0 = true ∧ (∀ k, k ≠ d → u.dscs[k] = s.dscs[k])) ∧
  (∀ (d : Fin 16) (step : Nat) (s : State), s.dscs[d].pgn.force.getD 0 0 ≤ step → step < s.dscs[d].pgn.on →
    s.dscs[d].pgn.pccCut = false → s.dscs[d].pgn.cuts + 1 < s.rd (F.CMP_OC_CFG_CYCLES d) → Answers (.pccTrip d step) s fun u =>
      u.rd (F.CMP_LEVEL_PCC d) = 1 ∧ u.dscs[d].pgn.on = step ∧ u.dscs[d].pgn.cuts = s.dscs[d].pgn.cuts + 1 ∧
      u.dscs[d].pgn.pccCut = true ∧ u.rd (F.CMP_TRIPS_PCC d) = (s.rd (F.CMP_TRIPS_PCC d) + 1) % 2 ^ 16 ∧
      bitOf (u.rd (Ev.cmp d).bits) 0 = true ∧ (∀ k, k ≠ d → u.dscs[k] = s.dscs[k]) ∧
      u = { s with regs := u.regs, hq := u.hq, sched := u.sched, dscs := u.dscs } ∧
      Quiet ([(F.CMP_LEVEL_PCC d).addr, (F.CMP_TRIPS_PCC d).addr, (F.DSC_DUTY_APPLIED d).addr] ++ evOut (Ev.cmp d)) s u) ∧
  (∀ (d : Fin 16) (step : Nat) (s : State), step < s.dscs[d].pgn.on → s.dscs[d].pgn.winCut = false →
    Answers (.windowHighTrip d step) s fun u =>
      u.rd (F.CMP_LEVEL_WH d) = 1 ∧ u.dscs[d].pgn.on = step ∧ u.dscs[d].pgn.winCut = true ∧ u.dscs[d].pgn.cuts = s.dscs[d].pgn.cuts ∧
      u.rd (F.CMP_TRIPS_WIN d) = (s.rd (F.CMP_TRIPS_WIN d) + 1) % 2 ^ 16 ∧ bitOf (u.rd (Ev.cmp d).bits) 1 = true ∧
      u = { s with regs := u.regs, hq := u.hq, sched := u.sched, dscs := u.dscs } ∧
      Quiet ([(F.CMP_LEVEL_WH d).addr, (F.CMP_TRIPS_WIN d).addr, (F.DSC_DUTY_APPLIED d).addr] ++ evOut (Ev.cmp d)) s u) ∧
  (∀ (d : Fin 16) (step : Nat) (s : State), s.dscs[d].pgn.en = true → s.dscs[d].pgn.winCut = false →
    Answers (.windowLowTrip d step) s fun u =>
      u.rd (F.CMP_LEVEL_WL d) = 1 ∧ u.dscs[d].pgn.on = s.dscs[d].pgn.on ∧ u.dscs[d].pgn.winCut = true ∧
      u.rd (F.CMP_TRIPS_WIN d) = (s.rd (F.CMP_TRIPS_WIN d) + 1) % 2 ^ 16 ∧
      u = { s with regs := u.regs, hq := u.hq, sched := u.sched, dscs := u.dscs } ∧
      Quiet ([(F.CMP_LEVEL_WL d).addr, (F.CMP_TRIPS_WIN d).addr] ++ evOut (Ev.cmp d)) s u) ∧
  (∀ (d : Fin 16) (step : Nat) (s : State), step < s.dscs[d].pgn.on → s.dscs[d].pgn.winCut = false → Answers (.ovpTrip d step) s fun u =>
      u.rd (F.CMP_LEVEL_OVP d) = 1 ∧ u.dscs[d].pgn.on = step ∧ u.dscs[d].pgn.winCut = true ∧
      u.rd (F.CMP_TRIPS_WIN d) = (s.rd (F.CMP_TRIPS_WIN d) + 1) % 2 ^ 16 ∧
      u = { s with regs := u.regs, hq := u.hq, sched := u.sched, dscs := u.dscs } ∧
      Quiet ([(F.CMP_LEVEL_OVP d).addr, (F.CMP_TRIPS_WIN d).addr, (F.DSC_DUTY_APPLIED d).addr] ++ evOut (Ev.cmp d)) s u) ∧
  (∀ (d : Fin 16) (s : State), s.on (F.CMP_LEVEL_OVP d) = true → s.flt.active.contains (32 + d.1) = false → s.classOf (32 + d.1) = 4 →
    s.rd F.FLT_STATUS_STATE < 2 → s.bursts = [] → Answers (.dscOverVoltage d) s fun u =>
      u.rd F.FLT_STATUS_STATE = 2 ∧ u.latched (32 + d.1) = true ∧ u.flt.active.contains (32 + d.1) = true ∧ u.flt.frozen = true ∧
      (∀ c : Fin 128, u.chans[c].drv = false ∧ u.chans[c].den = false) ∧ BytesSame s u) ∧
  (∀ (d : Fin 16) (s : State), s.on (F.CMP_LEVEL_OVP d) = false → NoEffect (.dscOverVoltage d) s) ∧
  (∀ (d : Fin 16) (s : State), s.flt.active.contains (32 + d.1) = false → Answers (.comparatorLevelFalse d 3) s fun u =>
      u.rd (F.CMP_LEVEL_OVP d) = 0 ∧ RegsOnly s u ∧ Quiet [(F.CMP_LEVEL_OVP d).addr] s u) ∧
  (∀ (d : Fin 16) (s : State), Answers (.comparatorLevelFalse d 0) s fun u =>
      u.rd (F.CMP_LEVEL_PCC d) = 0 ∧ u.rd (F.CMP_LEVEL_WH d) = s.rd (F.CMP_LEVEL_WH d) ∧
      u.dscs[d] = { s.dscs[d] with pgn := { s.dscs[d].pgn with blanked := false } } ∧ (∀ k, k ≠ d → u.dscs[k] = s.dscs[k]) ∧
      u = { s with regs := u.regs, dscs := u.dscs } ∧ Quiet [(F.CMP_LEVEL_PCC d).addr] s u) ∧
  (∀ (d : Fin 16) (s : State), s.selfChecking d = false → s.dscMode d = 0 → Answers (.cmpStGo d) s fun u =>
      u.selfChecking d = true ∧ RegsOnly s u ∧ Quiet [(F.CMP_ST_CTRL_GO d).addr] s u) ∧
  (∀ (d : Fin 16) (s : State), s.selfChecking d = false → s.dscMode d ≠ 0 → Answers (.cmpStGo d) s fun u =>
      u.selfChecking d = false ∧ u.rd (F.CMP_ST_RESULT_RESULT d) = 3 ∧ u.rd (F.CMP_ST_RESULT_ABORTED d) = 0 ∧
      bitOf (u.rd (Ev.cmp d).bits) 3 = true ∧ EventOnly s u ∧ Quiet ((F.CMP_ST_RESULT_RESULT d).addr :: evOut (Ev.cmp d)) s u) ∧
  (∀ (d : Fin 16) (fails : Nat) (s : State), s.selfChecking d = true → fails % 16 = 0 → Answers (.cmpSelfCheckDone d fails) s fun u =>
      u.selfChecking d = false ∧ u.rd (F.CMP_ST_RESULT_RESULT d) = 1 ∧ u.rd (F.CMP_ST_RESULT_FAILS d) = 0 ∧
      bitOf (u.rd (Ev.cmp d).bits) 3 = true ∧ EventOnly s u ∧
      Quiet ([(F.CMP_ST_CTRL_GO d).addr, (F.CMP_ST_RESULT_RESULT d).addr] ++ evOut (Ev.cmp d)) s u) ∧
  (∀ (d : Fin 16) (fails : Nat) (s : State), s.selfChecking d = true → fails % 16 ≠ 0 → s.classOf (80 + d.1) < 2 →
    Answers (.cmpSelfCheckDone d fails) s fun u =>
      u.selfChecking d = false ∧ u.rd (F.CMP_ST_RESULT_RESULT d) = 2 ∧ u.rd (F.CMP_ST_RESULT_FAILS d) = fails % 16 ∧
      u.latched (80 + d.1) = true ∧ u = { s with regs := u.regs, hq := u.hq, sched := u.sched, flt := u.flt } ∧
      Quiet ([(F.CMP_ST_CTRL_GO d).addr, (F.CMP_ST_RESULT_RESULT d).addr] ++ evOut (Ev.cmp d) ++ faultOut (80 + d.1)) s u) ∧
  (∀ (d : Fin 16) (s : State), s.dscs[d].stageFlt = true → s.classOf (64 + d.1) < 2 → s.ramping d = false → Answers (.dscFltLLow d) s fun u =>
      u.rd (F.CMP_LEVEL_FLT d) = 1 ∧ u.dscs[d].pgn.on = 0 ∧ (∀ k, (u.stageOut d k).2 = (false, false)) ∧ u.dscMode d = s.dscMode d ∧ bitOf (u.rd (Ev.dsc d).bits) 9 = true ∧
      u.latched (64 + d.1) = true ∧ (∀ k, k ≠ d → u.dscs[k] = s.dscs[k]) ∧
      u = { s with regs := u.regs, hq := u.hq, sched := u.sched, flt := u.flt, dscs := u.dscs } ∧
      Quiet ((F.CMP_LEVEL_FLT d).addr :: evOut (Ev.dsc d) ++ faultOut (64 + d.1)) s u) ∧
  (∀ (d : Fin 16) (s : State), s.dscs[d].stageFlt = true → s.classOf (64 + d.1) < 2 → s.ramping d = true → Answers (.dscFltLLow d) s fun u =>
      u.dscMode d = 0 ∧ u.rd (F.DSC_STATUS_CAUSE d) = 3 ∧ u.dscs[d].pgn.en = false ∧ u.latched (64 + d.1) = true ∧
      u.flt.ramping = s.flt.ramping.filter (· ≠ d.1) ∧ ∃ us, u.flt.opened = (d.1, 2, us) :: s.flt.opened) ∧
  (∀ (d : Fin 16) (s : State), s.dscs[d].stageFlt = false → Answers (.dscFltLLow d) s fun u =>
      u.rd (F.CMP_LEVEL_FLT d) = 1 ∧ RegsOnly s u ∧ Quiet [(F.CMP_LEVEL_FLT d).addr] s u) ∧
  ∀ (d : Fin 16) (s : State), Answers (.dscFltLHigh d) s fun u =>
      u.rd (F.CMP_LEVEL_FLT d) = 0 ∧ RegsOnly s u ∧ Quiet [(F.CMP_LEVEL_FLT d).addr] s u

/-- R240, R248, R267 to R270: a sample of a bound channel shows its codes and converted values and is numbered; outside DISCONNECT
its computation starts; the oldest computation completes with a command for the sample D later, or is late and counted; an unbound
channel does not sample. -/
def Obligations.LoopSamples : Prop :=
  (∀ (d : Fin 16) (v ihg ilg : Nat) (ovld : Bool) (s : State), s.dscBound d = true → s.sampleDue d = true → s.dscMode d = 0 → s.selfChecking d = false →
    s.ramping d = false → s.dscs[d].cmds = [] → s.dscs[d].req = none → s.dscs[d].commit = false → s.dscs[d].pass = none →
    s.dscs[d].overI < 3 → s.flt.active.contains (48 + d.1) = false → (∀ e : Fin 4, s.rd (F.TRG_SRC_DSC e) ≠ d) →
    (∀ b : Fin 16, s.rd (F.TRC_CFG_DSC b) ≠ d) → Answers (.loopSample d v ihg ilg ovld false false) s fun u =>
      u.rd (F.CMP_RAW_V_V d) = v % 2 ^ 14 ∧ u.rd (F.CMP_RAW_I_HG d) = ihg % 2 ^ 14 ∧ u.rd (F.CMP_RAW_I_LG d) = ilg % 2 ^ 14 ∧
      u.rd (F.DSC_VMEAS_UV d) = zx 24 (senseV v) ∧ u.dscs[d].n = s.dscs[d].n + 1 ∧ u.dscs[d].wait = s.dscs[d].wait ∧ u.dscMode d = 0 ∧
      (∀ k, k ≠ d → u.dscs[k] = s.dscs[k]) ∧ u = { s with regs := u.regs, hq := u.hq, sched := u.sched, dscs := u.dscs } ∧
      Quiet ([(F.CMP_RAW_V_V d).addr, (F.CMP_RAW_I_HG d).addr, (F.CMP_RANGE_STATE d).addr, (F.DSC_VMEAS_UV d).addr,
        (F.DSC_IMEAS_I d).addr] ++ evOut (Ev.cmp d)) s u) ∧
  (∀ (d : Fin 16) (v ihg ilg : Nat) (ovld : Bool) (s : State), s.dscBound d = true → s.sampleDue d = true → s.dscMode d ≠ 0 → s.selfChecking d = false →
    s.ramping d = false → s.fltHeld d = false → s.dscs[d].cmds = [] → s.dscs[d].req = none → s.dscs[d].commit = false →
    s.dscs[d].pass = none → s.dscs[d].overI < 3 → s.flt.active.contains (48 + d.1) = false → (∀ e : Fin 4, s.rd (F.TRG_SRC_DSC e) ≠ d) →
    Answers (.loopSample d v ihg ilg ovld false false) s fun u =>
      (∃ x, u.dscs[d].wait = s.dscs[d].wait ++ [x] ∧ x.no = s.dscs[d].n ∧ x.v = sx 24 (zx 24 (senseV v)) ∧ x.entry = none) ∧
      u.dscs[d].n = s.dscs[d].n + 1 ∧ u.rd (F.DSC_VMEAS_UV d) = zx 24 (senseV v) ∧ u.dscMode d = s.dscMode d ∧
      (∀ k, k ≠ d → u.dscs[k] = s.dscs[k]) ∧ u = { s with regs := u.regs, hq := u.hq, sched := u.sched, dscs := u.dscs } ∧
      Quiet ([(F.CMP_RAW_V_V d).addr, (F.CMP_RAW_I_HG d).addr, (F.CMP_RANGE_STATE d).addr, (F.DSC_VMEAS_UV d).addr,
        (F.DSC_IMEAS_I d).addr] ++ evOut (Ev.cmp d)) s u) ∧
  (∀ (d : Fin 16) (v ihg ilg : Nat) (ovld parity dropped : Bool) (s : State), s.dscBound d = false ∨ s.sampleDue d = false →
    NoEffect (.loopSample d v ihg ilg ovld parity dropped) s) ∧
  (∀ (d : Fin 16) (behind : Nat) (x : DscSamp) (rest : List DscSamp) (s : State), s.dscs[d].wait = x :: rest → s.dscs[d].tune = none →
    s.dscMode d = 1 ∨ s.dscMode d = 2 → s.dscs[d].n ≤ x.no + s.delayD d → (∀ b : Fin 16, s.rd (F.TRC_CFG_DSC b) ≠ d) →
    Answers (.loopComputeDone d behind) s fun u =>
      u.dscs[d].wait = rest ∧ u.dscs[d].cmds = ((x.no, u.dscs[d].lastU) :: s.dscs[d].cmds).take 4 ∧ u.dscs[d].vPrev = x.v ∧
      u.dscMode d = s.dscMode d ∧ (∀ k, k ≠ d → u.dscs[k] = s.dscs[k]) ∧
      u = { s with regs := u.regs, hq := u.hq, sched := u.sched, dscs := u.dscs } ∧
      Quiet ([(F.DSC_STATUS_GOV d).addr, (F.DSC_DUTY_CMD d).addr] ++ evOut (Ev.dsc d)) s u) ∧
  (∀ (d : Fin 16) (behind : Nat) (x : DscSamp) (rest : List DscSamp) (s : State), s.dscs[d].wait = x :: rest → s.dscs[d].tune = none →
    s.dscMode d = 1 ∨ s.dscMode d = 2 → x.no + s.delayD d < s.dscs[d].n → (∀ b : Fin 16, s.rd (F.TRC_CFG_DSC b) ≠ d) →
    Answers (.loopComputeDone d behind) s fun u =>
      u.dscs[d].wait = rest ∧ u.dscs[d].cmds = s.dscs[d].cmds ∧
      u.rd (F.DSC_LATE_CNT_COUNT d) = min (s.rd (F.DSC_LATE_CNT_COUNT d) + 1) 65535 ∧ bitOf (u.rd (Ev.dsc d).bits) 7 = true ∧
      (∀ k, k ≠ d → u.dscs[k] = s.dscs[k]) ∧ u = { s with regs := u.regs, hq := u.hq, sched := u.sched, dscs := u.dscs } ∧
      Quiet ([(F.DSC_STATUS_GOV d).addr, (F.DSC_DUTY_CMD d).addr, (F.DSC_LATE_CNT_COUNT d).addr] ++ evOut (Ev.dsc d)) s u) ∧
  ∀ (d : Fin 16) (behind : Nat) (s : State), s.dscs[d].wait = [] → NoEffect (.loopComputeDone d behind) s

/-- R288, R289, R293 to R299, R304, R324: a commit that passes its checks adds an entry and returns its handle, another one its
status, by a core's port or by the host; a fill, a completion and a cancel act on the entry their handle names and are counted when
it is stale; a take load completes the held item and blocks; the chosen item is bound to the blocked core, or removed where its entry fails its parity. -/
def Obligations.TaskLife : Prop :=
  (∀ (c : Fin 8) (s : State), commitStatus s.sched.hasFree (s.staged c) = 0 → Answers (.schNewCommit c) s fun u =>
      bareTasks u.sched.tasks = bareTasks s.sched.tasks ++ [s.newTask (s.staged c)] ∧
      u.hq.answer = [(s.newTask (s.staged c)).handle] ∧ u.rd (F.SCH_NEW_COMMIT_STATUS c) = 0 ∧
      u.rd (F.SCH_NEW_COMMIT_HANDLE c) = (s.newTask (s.staged c)).handle ∧ u.sched.cores = s.sched.cores ∧
      u = { s with regs := u.regs, sched := u.sched, hq := { s.hq with answer := u.hq.answer } } ∧
      Quiet [(F.SCH_NEW_COMMIT_STATUS c).addr] s u) ∧
  (∀ (c : Fin 8) (s : State), commitStatus s.sched.hasFree (s.staged c) ≠ 0 → Answers (.schNewCommit c) s fun u =>
      u.sched = s.sched ∧ u.hq.answer = [2 ^ 20 * commitStatus s.sched.hasFree (s.staged c)] ∧
      u.rd (F.SCH_NEW_COMMIT_STATUS c) = commitStatus s.sched.hasFree (s.staged c) ∧ u.rd (F.SCH_NEW_COMMIT_HANDLE c) = 0 ∧
      Quiet [(F.SCH_NEW_COMMIT_STATUS c).addr, Ev.sch.ev] s u) ∧
  (∀ (h : Hdr) (d : TaskDesc) (s : State), s.canBegin h 0x30 → commitStatus s.sched.hasFree d = 0 → Answers (.taskCreate h d) s fun u =>
      Completes s u h stOk 0 (s.newTask d).handle ∧ bareTasks u.sched.tasks = bareTasks s.sched.tasks ++ [s.newTask d] ∧
      u.regs = s.regs ∧ Quiet [] s u) ∧
  (∀ (h : Hdr) (d : TaskDesc) (s : State), s.canBegin h 0x30 → commitStatus s.sched.hasFree d ≠ 0 → Answers (.taskCreate h d) s fun u =>
      Completes s u h (commitStatus s.sched.hasFree d) 0 0 ∧ u.sched = s.sched ∧ Quiet [Ev.sch.ev] s u) ∧
  (∀ (h : Hdr) (handle slot value : Nat) (t : Task) (s : State), s.canBegin h 0x31 → handle < 2 ^ 20 → s.sched.named handle = some t →
    slot < t.nslot → t.srcs.getD slot 0 % 64 = 0 → t.slots.getD slot none = none → Answers (.taskFill h handle slot value) s fun u =>
      Completes s u h stOk 0 0 ∧ (∃ x ∈ u.sched.tasks, x.index = t.index ∧ x.slots = t.slots.set slot (some (value % 2 ^ 64))) ∧
      u = { s with hq := u.hq, sched := u.sched }) ∧
  (∀ (h : Hdr) (handle slot value : Nat) (s : State), s.canBegin h 0x31 → handle < 2 ^ 20 → s.sched.named handle = none →
    Answers (.taskFill h handle slot value) s fun u =>
      Completes s u h 1 0 0 ∧ u.sched = s.sched ∧ u.rd F.SCH_FILL_DROP_STALE = min (s.rd F.SCH_FILL_DROP_STALE + 1) 65535 ∧
      Quiet [(F.SCH_FILL_DROP_STALE).addr, Ev.sch.ev] s u) ∧
  (∀ (h : Hdr) (handle : Nat) (t : Task) (s : State), s.canBegin h 0x32 → handle < 2 ^ 20 → s.sched.named handle = some t →
    t.state.served = false → Answers (.taskCancel h handle) s fun u =>
      Completes s u h stOk 0 0 ∧ u.sched.taskAt t.index = none ∧ u.sched.genOf t.index = (s.sched.genOf t.index + 1) % 256 ∧
      bareTasks u.sched.tasks = bareTasks (s.sched.tasks.filter fun x => decide (x.index ≠ t.index)) ∧
      u = { s with hq := u.hq, sched := u.sched }) ∧
  (∀ (h : Hdr) (handle : Nat) (t : Task) (s : State), s.canBegin h 0x32 → handle < 2 ^ 20 → s.sched.named handle = some t →
    t.state.served = true → Answers (.taskCancel h handle) s fun u => Completes s u h 5 0 0 ∧ u = { s with hq := u.hq }) ∧
  (∀ (c : Fin 8) (w : Word) (t : Task) (s : State), s.sched.named (fieldOf w.toNat 0 20) = some t → fieldOf w.toNat 20 2 < t.nslot →
    t.srcs.getD (fieldOf w.toNat 20 2) 0 % 64 = 0 → t.slots.getD (fieldOf w.toNat 20 2) none = none → Answers (.schFill c w) s fun u =>
      (∃ x ∈ u.sched.tasks, x.index = t.index ∧
        x.slots = t.slots.set (fieldOf w.toNat 20 2) (some (s.rdP (F.SCH_FILL_VAL_LO c) % 2 ^ 64))) ∧
      u.rd (F.SCH_OP_RESULT_RESULT c) = 0 ∧ u.rd (F.SCH_OP_RESULT_OP c) = 0 ∧ u = { s with regs := u.regs, sched := u.sched } ∧
      Quiet [(F.SCH_OP_RESULT_RESULT c).addr] s u) ∧
  (∀ (c : Fin 8) (w : Word) (t : Task) (s : State), s.sched.named (fieldOf w.toNat 0 20) = some t → t.state = .inService c →
    Answers (.schDone c w) s fun u =>
      u.sched.taskAt t.index = none ∧ u.sched.genOf t.index = (s.sched.genOf t.index + 1) % 256 ∧
      u.rd (F.SCH_OP_RESULT_RESULT c) = 0 ∧ u.rd (F.SCH_OP_RESULT_OP c) = 1 ∧ u = { s with regs := u.regs, sched := u.sched } ∧
      Quiet [(F.SCH_OP_RESULT_RESULT c).addr] s u) ∧
  (∀ (c : Fin 8) (w : Word) (s : State), s.sched.named (fieldOf w.toNat 0 20) = none → Answers (.schDone c w) s fun u =>
      u.sched = s.sched ∧ u.rd (F.SCH_OP_RESULT_RESULT c) = 1 ∧ u.rd (F.SCH_FILL_DROP_STALE) = min (s.rd F.SCH_FILL_DROP_STALE + 1) 65535 ∧
      bitOf (u.rd Ev.sch.bits) 2 = true ∧ Quiet [(F.SCH_OP_RESULT_RESULT c).addr, (F.SCH_FILL_DROP_STALE).addr, Ev.sch.ev] s u) ∧
  (∀ (c : Fin 8) (w : Word) (t : Task) (s : State), s.sched.named (fieldOf w.toNat 0 20) = some t → t.state.served = false →
    Answers (.schCancel c w) s fun u =>
      u.sched.taskAt t.index = none ∧ u.rd (F.SCH_OP_RESULT_RESULT c) = 0 ∧ u.rd (F.SCH_OP_RESULT_OP c) = 1 ∧
      u = { s with regs := u.regs, sched := u.sched } ∧ Quiet [(F.SCH_OP_RESULT_RESULT c).addr] s u) ∧
  (∀ (c : Fin 8) (s : State), Answers (.schTake c) s fun u =>
      u.sched.cores[c].blocked.isSome = true ∧ u.sched.cores[c].wdogExpired = false ∧ u.sched.cores[c].wdogFrom = s.tim.raw ∧
      (∀ t, s.sched.held c = some t → u.sched.taskAt t.index = none) ∧
      (s.sched.held c = none → bareTasks u.sched.tasks = bareTasks s.sched.tasks) ∧
      (∀ k, k ≠ c → u.sched.cores[k] = s.sched.cores[k]) ∧ u = { s with sched := u.sched }) ∧
  (∀ (c : Fin 8) (n : Nat) (t : Task) (s : State), s.sched.cores[c].blocked = some n → s.choose c = some t →
    (∀ k : Fin 8, ∀ m, s.sched.cores[k].blocked = some m → n ≤ m) → Answers (.taskDispatch c false) s fun u =>
      u.sched.cores[c].blocked = none ∧ (∃ x ∈ u.sched.tasks, x.index = t.index ∧ x.state = .inService c) ∧
      u.hq.answer = [t.handle + 2 ^ 20 * t.flow, t.entry] ∧ u.rdP (F.SCH_CUR_ARG_LO c) = t.arg % 2 ^ 64 ∧
      (∀ k, k ≠ c → u.sched.cores[k] = s.sched.cores[k]) ∧
      Quiet ([(F.SCH_TAKE_LO c).addr, (F.SCH_TAKE_HI c).addr, (F.SCH_CUR_ARG_LO c).addr, (F.SCH_CUR_ARG_LO c).addr + 4] ++
        (List.range 4).flatMap fun k => [(F.SCH_CUR_OP_LO c k).addr, (F.SCH_CUR_OP_LO c k).addr + 4]) s u) ∧
  (∀ (c : Fin 8) (n : Nat) (t : Task) (s : State), s.sched.cores[c].blocked = some n → s.choose c = some t →
    (∀ k : Fin 8, ∀ m, s.sched.cores[k].blocked = some m → n ≤ m) → s.classOf 16 < 2 → Answers (.taskDispatch c true) s fun u =>
      u.sched.taskAt t.index = none ∧ u.sched.cores = s.sched.cores ∧ u.rd F.SCH_PAR_LOC_INDEX = t.index % 2 ^ 12 ∧
      u.rd F.SCH_PAR_LOC_SCRUB = 0 ∧ u.latched 16 = true ∧ u = { s with regs := u.regs, hq := u.hq, sched := u.sched, flt := u.flt } ∧
      Quiet ([(F.SCH_PAR_LOC_INDEX).addr, Ev.sch.ev] ++ faultOut 16) s u) ∧
  (∀ (c : Fin 8) (parityError : Bool) (s : State), s.sched.cores[c].blocked = none → NoEffect (.taskDispatch c parityError) s) ∧
  (∀ (i : Nat) (t : Task) (s : State), s.sched.taskAt i = some t → i < 4096 → s.classOf 16 < 2 → Answers (.schScrub (some i)) s fun u =>
      u.sched.taskAt i = none ∧ u.rd F.SCH_PAR_LOC_INDEX = i ∧ u.rd F.SCH_PAR_LOC_SCRUB = 1 ∧ u.latched 16 = true ∧
      u = { s with regs := u.regs, hq := u.hq, sched := u.sched, flt := u.flt } ∧
      Quiet ([(F.SCH_PAR_LOC_INDEX).addr, Ev.sch.ev] ++ faultOut 16) s u) ∧
  ∀ s : State, NoEffect (.schScrub none) s

/-- R282 to R284, R302: KICK and a write of WDOG restart the watchdog; its expiry delivers WATCHDOG, and the first cause makes the core
take a non-maskable interrupt; the timer is pending from its compare value on; a core's load and store reach the Canopy within the
rights of the page and the window in machine mode, and any other access takes the access fault of its kind. -/
def Obligations.SiteCores : Prop :=
  (∀ (c : Fin 8) (s : State), Answers (.schKick c) s fun u =>
      u.sched.cores[c] = { s.sched.cores[c] with wdogExpired := false, wdogFrom := s.tim.raw } ∧
      (∀ k, k ≠ c → u.sched.cores[k] = s.sched.cores[k]) ∧ u = { s with sched := { s.sched with cores := u.sched.cores } }) ∧
  (∀ (c : Fin 8) (w : Word) (s : State), Answers (.schWdogWrite c w) s fun u =>
      u.rd (F.SCH_WDOG_US c) = w.toNat % 2 ^ 24 ∧
      u.sched.cores[c] = { s.sched.cores[c] with wdogExpired := false, wdogFrom := s.tim.raw } ∧
      (∀ k, k ≠ c → u.sched.cores[k] = s.sched.cores[k]) ∧
      u = { s with regs := u.regs, sched := { s.sched with cores := u.sched.cores } } ∧ Quiet [(F.SCH_WDOG_US c).addr] s u) ∧
  (∀ (c : Fin 8) (s : State), s.wdogDue c = true →
    s.rd (F.SCH_NMI_CAUSE_CAUSE c) = 0 → s.classOf 17 < 2 → Answers (.watchdogExpiry c) s fun u =>
      u.rd (F.SCH_NMI_CAUSE_CAUSE c) = 16 ∧ u.latched 17 = true ∧ u.sched.cores[c].wdogExpired = true ∧
      u.sched.cores[c].inNmi = true ∧ u.sched.cores[c].machineMode = true ∧ u.sched.cores[c].mie = false ∧
      u.sched.cores[c].mepc = s.sched.cores[c].pc ∧ u.sched.cores[c].mppMachine = s.sched.cores[c].machineMode ∧
      u.sched.cores[c].mpie = s.sched.cores[c].mie ∧
      u.sched.cores[c].pc = canopyCoreBase + s.rd (F.SCH_NMI_VEC_OFFSET c) / 2 * 2 ∧
      (∀ k, k ≠ c → u.sched.cores[k] = s.sched.cores[k]) ∧
      u = { s with regs := u.regs, hq := u.hq, sched := u.sched, flt := u.flt } ∧
      Quiet ([(F.SCH_NMI_CAUSE_CAUSE c).addr, Ev.sch.ev] ++ faultOut 17) s u) ∧
  (∀ (c : Fin 8) (s : State), s.wdogDue c = false →
    NoEffect (.watchdogExpiry c) s) ∧
  (∀ (c : Fin 8) (s : State), Answers (.machineTimerPending c) s fun u =>
      u.sched.cores[c] = { s.sched.cores[c] with timerPending := decide (s.rdP (F.SCH_TIMECMP_LO_TIME c) ≤ s.tim.raw) } ∧
      (∀ k, k ≠ c → u.sched.cores[k] = s.sched.cores[k]) ∧ u = { s with sched := { s.sched with cores := u.sched.cores } }) ∧
  (∀ (c : Fin 8) (user : Bool) (off bytes data : Nat) (s : State), off + bytes ≤ 0x8000000 →
    ((span off bytes).all fun a => s.corePage c .store user (a / canopyPage)) = true →
    Answers (.coreMemoryAccess c .store user (0x10000000 + off) bytes data) s fun u =>
      (∀ i, i < bytes → Mem.byte u.canopy (off + i) = BitVec.ofNat 8 (data / 256 ^ i)) ∧
      (∀ a, a < off ∨ off + bytes ≤ a → Mem.byte u.canopy a = Mem.byte s.canopy a) ∧ u = { s with canopy := u.canopy }) ∧
  (∀ (c : Fin 8) (user : Bool) (off bytes data : Nat) (s : State), off + bytes ≤ 0x8000000 →
    ((span off bytes).all fun a => s.corePage c .load user (a / canopyPage)) = true →
    Answers (.coreMemoryAccess c .load user (0x10000000 + off) bytes data) s fun u =>
      u.hq.answer = [ofBytesLE ((span off bytes).map s.coreByte)] ∧ u = { s with hq := { s.hq with answer := u.hq.answer } }) ∧
  (∀ (c : Fin 8) (kind : CoreAccess) (user : Bool) (off bytes data : Nat) (s : State), off + bytes ≤ 0x8000000 →
    ((span off bytes).all fun a => s.corePage c kind user (a / canopyPage)) = false →
    Answers (.coreMemoryAccess c kind user (0x10000000 + off) bytes data) s fun u =>
      u.sched.cores[c] = { s.sched.cores[c] with
        mepc := s.sched.cores[c].pc, mcause := accCause kind, mtval := 0x10000000 + off, mppMachine := s.sched.cores[c].machineMode
        mpie := s.sched.cores[c].mie, mie := false, machineMode := true, pc := s.sched.cores[c].mtvec } ∧
      (∀ k, k ≠ c → u.sched.cores[k] = s.sched.cores[k]) ∧ u = { s with sched := { s.sched with cores := u.sched.cores } }) ∧
  ∀ (c : Fin 8) (kind : CoreAccess) (addr bytes data : Nat) (s : State), addr < 0x1000000 →
    Answers (.coreMemoryAccess c kind true addr bytes data) s fun u =>
      u.sched.cores[c].mcause = accCause kind ∧ u.sched.cores[c].mtval = addr ∧ u.sched.cores[c].machineMode = true ∧
      (∀ k, k ≠ c → u.sched.cores[k] = s.sched.cores[k]) ∧ u = { s with sched := { s.sched with cores := u.sched.cores } }

/-- R307, R311 to R317, R323, R328, R330: doorbells set the tail and the head; a fetched entry is accepted in flight, or completes with
its refusal; a completion is written at the tail with the phase, waits for room, or is dropped as stale; an enable takes the size;
a function level reset empties the queues; what a queue cannot do stops it. -/
def Obligations.HostQueues : Prop :=
  (∀ (q : Fin 16) (tail : Nat) (s : State), s.on (F.HQ_SQ_CFG_EN q) = true → s.hq.queues[q].stopped = false → tail % 4096 < s.sqSize q →
    Answers (.sqTailDoorbell q tail) s fun u =>
      u.hq.queues[q] = { s.hq.queues[q] with sqTail := tail % 4096 } ∧ u.rd F.HQ_WSEQ_COUNT = (s.rd F.HQ_WSEQ_COUNT + 1) % 2 ^ 32 ∧
      (∀ k, k ≠ q → u.hq.queues[k] = s.hq.queues[k]) ∧ u = { s with regs := u.regs, hq := { s.hq with queues := u.hq.queues } } ∧
      Quiet [wseqOut] s u) ∧
  (∀ (q : Fin 16) (tail : Nat) (s : State), s.on (F.HQ_SQ_CFG_EN q) = true → s.hq.queues[q].stopped = false → s.sqSize q ≤ tail % 4096 →
    Answers (.sqTailDoorbell q tail) s fun u =>
      u.hq.queues[q].stopped = true ∧ u.hq.queues[q].sqTail = s.hq.queues[q].sqTail ∧ u.rd (F.HQ_Q_STAT_ERR q) = 1 ∧
      u.rd (F.HQ_Q_STAT_ERR_CODE q) = 1 ∧ bitOf (u.rd Ev.hq.bits) 4 = true ∧
      Quiet ([wseqOut, (F.HQ_Q_STAT_ERR q).addr] ++ evOut Ev.hq) s u) ∧
  (∀ (q : Fin 16) (head : Nat) (s : State), s.on (F.HQ_CQ_CFG_EN q) = true → head % 4096 < s.cqSize q →
    Answers (.cqHeadDoorbell q head) s fun u =>
      u.hq.queues[q] = { s.hq.queues[q] with cqHead := head % 4096, hold := false } ∧ (∀ k, k ≠ q → u.hq.queues[k] = s.hq.queues[k]) ∧
      u = { s with regs := u.regs, hq := { s.hq with queues := u.hq.queues } } ∧ Quiet [wseqOut] s u) ∧
  (∀ (q : Fin 16) (l : List Byte) (s : State), s.turn = some q → s.hq.d3 = false → s.epReset = false → s.hq.inFlight.length < 512 →
    leAt l 0 1 < 0x40 ∨ s.on F.SEC_STATUS_ST_DONE = true → s.entryRefusal l = none →
    (s.hq.inFlight.any fun f => f.hdr.tag == leAt l 2 2 % 512 && f.hdr.epoch == fieldOf (leAt l 2 2) 9 6) = false →
    Answers (.commandFetch q (some l)) s fun u =>
      u.hq.inFlight = s.hq.inFlight ++
        [⟨⟨q, leAt l 2 2 % 512, fieldOf (leAt l 2 2) 9 6, bitOf (leAt l 1 1) 0⟩, leAt l 0 1, s.hq.nextOrder, false,
          s.rd F.CLK_STATUS_SRC != 0, s.reloading, !s.bursts.isEmpty || s.burstBefore s.hq.nextOrder⟩] ∧
      u.hq.compls = s.hq.compls ∧ u.hq.nextOrder = s.hq.nextOrder + 1 ∧ u.hq.rrNext = (q.1 + 1) % 16 ∧
      u.rd (F.HQ_SQ_HEAD_HEAD q) = (s.rd (F.HQ_SQ_HEAD_HEAD q) + 1) % max 1 (s.sqSize q) % 2 ^ 12 ∧
      u = { s with regs := u.regs, hq := u.hq } ∧ Quiet [(F.HQ_SQ_HEAD_HEAD q).addr] s u) ∧
  (∀ (q : Fin 16) (l : List Byte) (st : Nat) (s : State), s.turn = some q → s.hq.d3 = false → s.epReset = false →
    s.hq.inFlight.length < 512 → leAt l 0 1 < 0x40 ∨ s.on F.SEC_STATUS_ST_DONE = true → s.entryRefusal l = some st →
    (s.hq.inFlight.any fun f => f.hdr.tag == leAt l 2 2 % 512 && f.hdr.epoch == fieldOf (leAt l 2 2) 9 6) = false →
    Answers (.commandFetch q (some l)) s fun u =>
      Completes s u ⟨q, leAt l 2 2 % 512, fieldOf (leAt l 2 2) 9 6, bitOf (leAt l 1 1) 0⟩ st 0 0 ∧
      u = { s with regs := u.regs, hq := u.hq } ∧ Quiet [(F.HQ_SQ_HEAD_HEAD q).addr] s u) ∧
  (∀ (q : Fin 16) (s : State), s.turn = some q → s.hq.d3 = false → s.epReset = false → s.hq.inFlight.length < 512 →
    Answers (.commandFetch q none) s fun u =>
      u.hq.queues[q].stopped = true ∧ u.rd (F.HQ_Q_STAT_ERR_CODE q) = 2 ∧ bitOf (u.rd Ev.hq.bits) 5 = true ∧
      u.hq.inFlight = s.hq.inFlight ∧ Quiet ((F.HQ_Q_STAT_ERR q).addr :: evOut Ev.hq) s u) ∧
  (∀ (h : Hdr) (s : State), NoEffect (.hostReadResponse h true) s) ∧
  (∀ (h : Hdr) (f : InFlight) (s : State),
    (s.hq.inFlight.find? fun f => sameHdr f.hdr h && [0x10, 0x11, 0x13, 0x41, 0x43, 0x44].contains f.opc) = some f → f.begun = false →
    (s.hq.compls.any fun c => sameHdr c.hdr h && !c.intake) = false → Answers (.hostReadResponse h false) s fun u =>
      Completes s u h stHostReadFailed 0 0 ∧ bitOf (u.rd Ev.hq.bits) 5 = true ∧ EventOnly s u ∧ Quiet (evOut Ev.hq) s u) ∧
  (∀ (q : Fin 16) (c : Compl) (s : State), (s.hq.compls.find? fun c => c.hdr.q == q) = some c → s.hq.d3 = false → s.epReset = false →
    s.on (F.HQ_CQ_CFG_EN q) = true → c.intake = true ∨ s.tagEpoch c.hdr.tag = some c.hdr.epoch → s.hq.queues[q].hold = false →
    s.cqFull q = false → Answers (.completionWrite q true) s fun u =>
      Mem.bytes u.host (s.rdP (F.HQ_CQ_BASE_LO_ADDR q) + 16 * s.rd (F.HQ_CQ_TAIL_TAIL q)) 16 = complEntry c (s.rd (F.HQ_CQ_TAIL_PHASE q)) ∧
      (∀ a, a < s.rdP (F.HQ_CQ_BASE_LO_ADDR q) + 16 * s.rd (F.HQ_CQ_TAIL_TAIL q) ∨
        s.rdP (F.HQ_CQ_BASE_LO_ADDR q) + 16 * s.rd (F.HQ_CQ_TAIL_TAIL q) + 16 ≤ a → Mem.byte u.host a = Mem.byte s.host a) ∧
      u.rd (F.HQ_CQ_TAIL_TAIL q) = (s.rd (F.HQ_CQ_TAIL_TAIL q) + 1) % max 1 (s.cqSize q) % 2 ^ 12 ∧
      u.rd (F.HQ_CQ_TAIL_PHASE q) = (if (s.rd (F.HQ_CQ_TAIL_TAIL q) + 1) % max 1 (s.cqSize q) = 0 then 1 - s.rd (F.HQ_CQ_TAIL_PHASE q)
        else s.rd (F.HQ_CQ_TAIL_PHASE q)) ∧
      u.hq.compls = s.hq.compls.erase c ∧ u = { s with regs := u.regs, hq := u.hq, host := u.host } ∧
      RegsSame [(F.HQ_CQ_TAIL_TAIL q).addr] s u) ∧
  (∀ (q : Fin 16) (c : Compl) (ok : Bool) (s : State), (s.hq.compls.find? fun c => c.hdr.q == q) = some c → s.hq.d3 = false →
    s.epReset = false → s.on (F.HQ_CQ_CFG_EN q) = false → Answers (.completionWrite q ok) s fun u =>
      u.hq.compls = s.hq.compls.erase c ∧ u.rd F.HQ_STALE_CNT_COUNT = min (s.rd F.HQ_STALE_CNT_COUNT + 1) 65535 ∧
      bitOf (u.rd Ev.hq.bits) 0 = true ∧ EventOnly s u ∧ Quiet ((F.HQ_STALE_CNT_COUNT).addr :: evOut Ev.hq) s u) ∧
  (∀ (q : Fin 16) (c : Compl) (ok : Bool) (s : State), (s.hq.compls.find? fun c => c.hdr.q == q) = some c →
    s.on (F.HQ_CQ_CFG_EN q) = true → c.intake = true ∨ s.tagEpoch c.hdr.tag = some c.hdr.epoch → s.cqFull q = true →
    NoEffect (.completionWrite q ok) s) ∧
  (∀ (req : Req) (q : Fin 16) (w : Word) (s : State), s.mayWrite req (F.HQ_SQ_CFG_SIZE q).addr w = true → bitOf w.toNat 16 = true →
    s.on (F.HQ_SQ_CFG_EN q) = false → s.on (F.HQ_CQ_CFG_EN q) = true → Answers (.queueCfgWrite req q false w) s fun u =>
      u.sqSize q = min 4096 (max 2 (fieldOf w.toNat 0 13)) ∧ u.rd (F.HQ_SQ_CFG_EN q) = 1 ∧ u.rd (F.HQ_SQ_HEAD_HEAD q) = 0 ∧
      u.hq.queues[q] = { s.hq.queues[q] with sqTail := 0, stopped := false, hold := false } ∧
      (∀ k, k ≠ q → u.hq.queues[k] = s.hq.queues[k]) ∧ u = { s with regs := u.regs, hq := { s.hq with queues := u.hq.queues } } ∧
      Quiet [(F.HQ_SQ_CFG_SIZE q).addr, (F.HQ_SQ_HEAD_HEAD q).addr, wseqOut] s u) ∧
  (∀ (req : Req) (q : Fin 16) (w : Word) (s : State), s.mayWrite req (F.HQ_SQ_CFG_SIZE q).addr w = true → bitOf w.toNat 16 = true →
    s.on (F.HQ_SQ_CFG_EN q) = false → s.on (F.HQ_CQ_CFG_EN q) = false → Answers (.queueCfgWrite req q false w) s fun u =>
      u.rd (F.HQ_Q_STAT_CFG_BUSY q) = 1 ∧ RegsOnly s u ∧ Quiet [(F.HQ_Q_STAT_CFG_BUSY q).addr, wseqOut] s u) ∧
  (∀ (req : Req) (q : Fin 16) (w : Word) (s : State), s.mayWrite req (F.HQ_CQ_CFG_SIZE q).addr w = true → bitOf w.toNat 16 = true →
    s.on (F.HQ_CQ_CFG_EN q) = false → Answers (.queueCfgWrite req q true w) s fun u =>
      u.cqSize q = min 4096 (max 2 (fieldOf w.toNat 0 13)) ∧ u.rd (F.HQ_CQ_CFG_EN q) = 1 ∧ u.rd (F.HQ_CQ_TAIL_TAIL q) = 0 ∧
      u.rd (F.HQ_CQ_TAIL_PHASE q) = 1 ∧ u.rd (F.HQ_CQ_CFG_COUNT q) = fieldOf w.toNat 24 8 ∧ u.hq.queues[q].cqHead = 0 ∧
      (∀ k, k ≠ q → u.hq.queues[k] = s.hq.queues[k]) ∧ u = { s with regs := u.regs, hq := { s.hq with queues := u.hq.queues } } ∧
      Quiet [(F.HQ_CQ_CFG_SIZE q).addr, (F.HQ_CQ_TAIL_TAIL q).addr, wseqOut] s u) ∧
  (∀ (q : Fin 16) (s : State), s.rd (F.HQ_CQ_TIME_US q) ≠ 0 → s.hq.queues[q].unsignalled ≠ 0 → s.on (msixCtrl q) = false → s.hq.d3 = false →
    s.epReset = false → Answers (.coalescingTimerExpiry q) s fun u =>
      u.hq.queues[q] = { s.hq.queues[q] with unsignalled := 0 } ∧ u.hq.sent[fin 33 q] = s.hq.sent[fin 33 q] + 1 ∧
      (∀ k, k ≠ q → u.hq.queues[k] = s.hq.queues[k]) ∧ (∀ k, k ≠ fin 33 q → u.hq.sent[k] = s.hq.sent[k]) ∧
      u = { s with hq := { s.hq with queues := u.hq.queues, sent := u.hq.sent } }) ∧
  (∀ (q : Fin 16) (s : State), s.hq.queues[q].unsignalled = 0 → NoEffect (.coalescingTimerExpiry q) s) ∧
  (∀ s : State, Answers .functionLevelReset s fun u =>
      (∀ q : Fin 16, u.hq.queues[q] = {} ∧ u.rd (F.HQ_SQ_CFG_EN q) = 0 ∧ u.rd (F.HQ_CQ_CFG_EN q) = 0) ∧ u.hq.tags = [] ∧ u.hq.pwf = [] ∧
      u.rd F.HQ_WSEQ_COUNT = 0 ∧ u.rd F.HQ_PWF_CNT_COUNT = 0 ∧ u.hq.inFlight = s.hq.inFlight ∧ u.hq.compls = s.hq.compls ∧
      u = { s with regs := { s.regs with hq := u.regs.hq }, hq := { s.hq with queues := u.hq.queues, tags := [], pwf := [], vecPending := 0 } }) ∧
  (∀ s : State, Answers (.powerStateChange true) s fun u => u.hq.d3 = true ∧ u = { s with hq := { s.hq with d3 := true } }) ∧
  (∀ s : State, s.hq.vecPending = 0 → Answers (.powerStateChange false) s fun u =>
      u.hq.d3 = false ∧ u = { s with hq := { s.hq with d3 := false } }) ∧
  (∀ s : State, Answers .hqWseqRead s fun u =>
      u.hq.answer = [s.rd F.HQ_WSEQ_COUNT] ∧ u = { s with hq := { s.hq with answer := u.hq.answer } }) ∧
  ∀ s : State, Answers .hqPwfPop s fun u =>
      u.hq.pwf = s.hq.pwf.drop 1 ∧ u = { s with regs := u.regs, hq := { s.hq with pwf := s.hq.pwf.drop 1 } } ∧ Quiet [wseqOut] s u

/-- R309 to R311, R325, R446, R511, R512: a window write stores the bytes its requester has a right to and nothing else, and is one
posted-write fault where a byte has none; a window read returns zero for a byte without right; a poisoned write stores nothing. -/
def Obligations.MemoryWindows : Prop :=
  (∀ (id off : Nat) (data : List Byte) (s : State), (∀ i, i < data.length → s.canopyWriteReason (off + i) = none) →
    Answers (.canopyWindowWrite id off data false) s fun u =>
      (∀ i, i < data.length → Mem.byte u.canopy (off + i) = data.getD i 0) ∧
      (∀ a, a < off ∨ off + data.length ≤ a → Mem.byte u.canopy a = Mem.byte s.canopy a) ∧
      u.rd F.HQ_WSEQ_COUNT = (s.rd F.HQ_WSEQ_COUNT + 1) % 2 ^ 32 ∧ u = { s with regs := u.regs, canopy := u.canopy } ∧
      RegsSame [wseqOut] s u) ∧
  (∀ (id off r : Nat) (b : Byte) (s : State), s.canopyWriteReason off = some r → r ≠ 2 → s.hq.pwf.length < 16 →
    Answers (.canopyWindowWrite id off [b] false) s fun u =>
      (∃ p, u.hq.pwf = s.hq.pwf ++ [p] ∧ p.reason = r ∧ p.win = 1 ∧ p.off = off ∧ p.reqId = id) ∧
      u.rd F.HQ_PWF_CNT_COUNT = (s.rd F.HQ_PWF_CNT_COUNT + 1) % 2 ^ 16 ∧ bitOf (u.rd Ev.hq.bits) 1 = true ∧ EventOnly s u ∧
      Quiet ((F.HQ_PWF_CNT_COUNT).addr :: evOut Ev.hq) s u) ∧
  (∀ (id off : Nat) (data : List Byte) (s : State), s.hq.pwf.length < 16 → Answers (.canopyWindowWrite id off data true) s fun u =>
      (∃ p, u.hq.pwf = s.hq.pwf ++ [p] ∧ p.reason = 5 ∧ p.win = 1 ∧ p.off = off) ∧ EventOnly s u ∧
      Quiet ((F.HQ_PWF_CNT_COUNT).addr :: evOut Ev.hq) s u) ∧
  (∀ (off len : Nat) (s : State), Answers (.canopyWindowRead off len) s fun u =>
      u.hq.answer = (List.range len).map (fun i => if s.canopyReadable (off + i) then (Mem.byte s.canopy (off + i)).toNat else 0) ∧
      ((∀ i, i < len → s.canopyReadable (off + i) = true) → u.rd F.HQ_DENIED_RD_COUNT = s.rd F.HQ_DENIED_RD_COUNT) ∧
      ((∃ i, i < len ∧ s.canopyReadable (off + i) = false) →
        u.rd F.HQ_DENIED_RD_COUNT = min (s.rd F.HQ_DENIED_RD_COUNT + 1) 65535) ∧
      u = { s with regs := u.regs, hq := { s.hq with answer := u.hq.answer } } ∧ Quiet [(F.HQ_DENIED_RD_COUNT).addr] s u) ∧
  (∀ (id off : Nat) (data : List Byte) (s : State),
    (∀ i, i < data.length → s.sdramWriteReason (s.rd F.HQ_SDRAM_PAGE_PAGE * 2 ^ 32 + off + i) = none) →
    Answers (.sdramWindowWrite id off data false) s fun u =>
      (∀ i, i < data.length → Mem.byte u.sdram (s.rd F.HQ_SDRAM_PAGE_PAGE * 2 ^ 32 + off + i) = data.getD i 0) ∧
      (∀ a, a < s.rd F.HQ_SDRAM_PAGE_PAGE * 2 ^ 32 + off ∨ s.rd F.HQ_SDRAM_PAGE_PAGE * 2 ^ 32 + off + data.length ≤ a →
        Mem.byte u.sdram a = Mem.byte s.sdram a) ∧ u = { s with regs := u.regs, sdram := u.sdram } ∧ RegsSame [wseqOut] s u) ∧
  (∀ (id off r : Nat) (b : Byte) (s : State), s.sdramWriteReason (s.rd F.HQ_SDRAM_PAGE_PAGE * 2 ^ 32 + off) = some r →
    s.hq.pwf.length < 16 → Answers (.sdramWindowWrite id off [b] false) s fun u =>
      (∃ p, u.hq.pwf = s.hq.pwf ++ [p] ∧ p.reason = r ∧ p.win = 2 ∧ p.off = off ∧ p.page = s.rd F.HQ_SDRAM_PAGE_PAGE) ∧ EventOnly s u ∧
      Quiet ((F.HQ_PWF_CNT_COUNT).addr :: evOut Ev.hq) s u) ∧
  (∀ (off len : Nat) (s : State), s.rd F.SEC_STATUS_HOST_ROLE ≠ 0 → Answers (.sdramWindowRead off len) s fun u =>
      u.hq.answer = (List.range len).map (fun i => if s.rd F.HQ_SDRAM_PAGE_PAGE * 2 ^ 32 + off + i < s.sdramBytes then
        (Mem.byte s.sdram (s.rd F.HQ_SDRAM_PAGE_PAGE * 2 ^ 32 + off + i)).toNat else 0) ∧
      u = { s with hq := { s.hq with answer := u.hq.answer } }) ∧
  ∀ (off len : Nat) (s : State), s.rd F.SEC_STATUS_HOST_ROLE = 0 → Answers (.sdramWindowRead off len) s fun u =>
      u.hq.answer = List.replicate len 0 ∧ u.rd F.HQ_DENIED_RD_COUNT = min (s.rd F.HQ_DENIED_RD_COUNT + 1) 65535 ∧
      u = { s with regs := u.regs, hq := { s.hq with answer := u.hq.answer } } ∧ Quiet [(F.HQ_DENIED_RD_COUNT).addr] s u

/-- R5, R7, R308, R325, R508, R510: a register write sets the writable fields and no read-only one, a lockable one only while LOCK is
0; an event bit is cleared by a 1; a pair is held and takes effect with its high word; reading a low word latches the high one; a
write without right, or malformed, is one posted-write fault of the host or a store access fault of the core. -/
def Obligations.RegisterAccesses : Prop :=
  (∀ (req : Req) (w : Word) (s : State), s.mayStore req 0x50000 w = true → s.rd F.GLB_BOOT_STAT_STAGE ≠ 3 → s.on F.FAB_CTRL_LOCK = false →
    Answers (.registerWrite req 0x50000 [w] false) s fun u =>
      u.rd F.SEQ_SYNC_CFG_ROLE = fieldOf w.toNat 0 2 ∧ u.rd F.SEQ_SYNC_CFG_PERIOD = fieldOf w.toNat 8 24 ∧ RegsOnly s u ∧
      Quiet [0x50000, wseqOut] s u) ∧
  (∀ (req : Req) (w : Word) (s : State), s.mayStore req 0x50000 w = true → s.rd F.GLB_BOOT_STAT_STAGE ≠ 3 → s.on F.FAB_CTRL_LOCK = true →
    Answers (.registerWrite req 0x50000 [w] false) s fun u => RegsOnly s u ∧ Quiet [wseqOut] s u) ∧
  (∀ (req : Req) (w : Word) (s : State), s.mayStore req 0x10000 w = true → s.rd F.GLB_BOOT_STAT_STAGE ≠ 3 →
    Answers (.registerWrite req 0x10000 [w] false) s fun u => RegsOnly s u ∧ Quiet [wseqOut] s u) ∧
  (∀ (req : Req) (w : Word) (k : Nat) (s : State), s.mayStore req 0x10050 w = true → s.rd F.GLB_BOOT_STAT_STAGE ≠ 3 →
    bitOf Ev.str.layout k = true → Answers (.registerWrite req 0x10050 [w] false) s fun u =>
      bitOf (u.rd Ev.str.bits) k = (bitOf (s.rd Ev.str.bits) k && !bitOf w.toNat k) ∧ RegsOnly s u ∧ Quiet [0x10050, wseqOut] s u) ∧
  (∀ (req : Req) (w : Word) (s : State), s.mayStore req 0x10054 w = true → s.rd F.GLB_BOOT_STAT_STAGE ≠ 3 →
    Answers (.registerWrite req 0x10054 [w] false) s fun u =>
      u.rd Ev.str.enable = w.toNat &&& Ev.str.layout ∧ EventOnly s u ∧ Quiet ([0x10054, wseqOut] ++ occOut) s u) ∧
  (∀ (req : Req) (e : Fin 4) (w : Word) (s : State), s.mayStore req (F.TRG_QTIME_LO_T e).hi.addr w = true →
    s.rd F.GLB_BOOT_STAT_STAGE ≠ 3 → Answers (.registerWrite req (F.TRG_QTIME_LO_T e).hi.addr [w] false) s fun u =>
      u.rdP (F.TRG_QTIME_LO_T e) = s.lowFor req (F.TRG_QTIME_LO_T e) + 2 ^ 32 * w.toNat ∧
      u.acq.trg[e] = { s.acq.trg[e] with timed := s.reached (u.rdP (F.TRG_QTIME_LO_T e)) } ∧ (∀ k, k ≠ e → u.acq.trg[k] = s.acq.trg[k]) ∧
      u = { s with regs := u.regs, held := u.held, acq := { s.acq with trg := u.acq.trg } } ∧
      Quiet [(F.TRG_QTIME_LO_T e).addr, (F.TRG_QTIME_LO_T e).hi.addr, wseqOut] s u) ∧
  (∀ (id addr : Nat) (w : Word) (s : State), addr % 4 = 0 → addr + 4 ≤ 2 ^ 24 → s.mayStore (.host id) addr w = false →
    s.hq.pwf.length < 16 → Answers (.registerWrite (.host id) addr [w] false) s fun u =>
      u.hq.pwf = s.hq.pwf ++ [⟨6, 0, 15, 0, 1, addr, id, 0, s.now⟩] ∧ bitOf (u.rd Ev.hq.bits) 1 = true ∧ EventOnly s u ∧
      Quiet ((F.HQ_PWF_CNT_COUNT).addr :: evOut Ev.hq) s u) ∧
  (∀ (id addr : Nat) (words : List Word) (s : State), s.hq.pwf.length < 16 →
    Answers (.registerWrite (.host id) addr words true) s fun u =>
      (∃ p, u.hq.pwf = s.hq.pwf ++ [p] ∧ p.reason = 4 ∧ p.off = addr ∧ p.reqId = id) ∧
      u = { s with regs := u.regs, hq := u.hq, sched := u.sched, freeCtr := u.freeCtr } ∧
      Quiet ((F.HQ_PWF_CNT_COUNT).addr :: evOut Ev.hq) s u) ∧
  (∀ (c : Fin 8) (addr : Nat) (w : Word) (s : State), addr % 4 = 0 → addr + 4 ≤ 2 ^ 24 → s.mayStore (.core c) addr w = false →
    Answers (.registerWrite (.core c) addr [w] false) s fun u =>
      u.sched.cores[c].mcause = 7 ∧ u.sched.cores[c].mtval = addr ∧ u.sched.cores[c].mepc = s.sched.cores[c].pc ∧
      (∀ k, k ≠ c → u.sched.cores[k] = s.sched.cores[k]) ∧ u = { s with sched := { s.sched with cores := u.sched.cores } }) ∧
  (∀ (req : Req) (w : Word) (s : State), s.mayStore req (F.FAB_CTRL_LOCK).addr w = true → s.rd F.GLB_BOOT_STAT_STAGE ≠ 3 →
    s.on F.FAB_CTRL_LOCK = false → w.getLsbD 8 = true → Answers (.fabLockWrite req w) s fun u =>
      u.rd F.FAB_CTRL_LOCK = 1 ∧ u.rd F.FAB_CTRL_AVC_EN = fieldOf w.toNat 0 1 ∧ RegsOnly s u ∧
      Quiet [(F.FAB_CTRL_LOCK).addr, wseqOut] s u) ∧
  (∀ (req : Req) (w : Word) (s : State), s.mayStore req (F.FAB_CTRL_LOCK).addr w = true → s.rd F.GLB_BOOT_STAT_STAGE ≠ 3 →
    s.on F.FAB_CTRL_LOCK = true → Answers (.fabLockWrite req w) s fun u =>
      u.rd F.FAB_CTRL_LOCK = 1 ∧ u.rd F.FAB_CTRL_AVC_EN = s.rd F.FAB_CTRL_AVC_EN ∧ RegsOnly s u ∧
      Quiet [(F.FAB_CTRL_LOCK).addr, wseqOut] s u) ∧
  (∀ (req : Req) (e : Fin 4) (w : Word) (s : State), s.mayStore req (F.TRG_QTIME_LO_T e).addr w = true → s.rd F.GLB_BOOT_STAT_STAGE ≠ 3 →
    Answers (.pairLowWrite req (F.TRG_QTIME_LO_T e).addr w) s fun u =>
      u.lowFor req (F.TRG_QTIME_LO_T e) = w.toNat ∧ u = { s with regs := u.regs, held := u.held } ∧ Quiet [wseqOut] s u) ∧
  ∀ (req : Req) (e : Fin 4) (s : State), s.rd F.GLB_BOOT_STAT_STAGE ≠ 3 → s.latchedWord req (F.TRG_LAST_LO_TIME e).addr = none →
    Answers (.pairLowRead req (F.TRG_LAST_LO_TIME e).addr) s fun u =>
      u.hq.answer = [s.rd (F.TRG_LAST_LO_TIME e)] ∧ u.latchedWord req ((F.TRG_LAST_LO_TIME e).addr + 4) = some (s.rd (F.TRG_LAST_LO_TIME e).hi) ∧
      u = { s with latches := u.latches, hq := { s.hq with answer := u.hq.answer } }

/-- R325, R437, R446: whatever register a write command names, the host without the right to it leaves one posted-write fault of reason
ROLE and nothing else changed, a core's write of a register of the security officer raises a store access fault, and the sideband
writes none of them. -/
def Obligations.RefusedWritesChangeNothing : Prop :=
  (∀ (c : Instr) (id a : Nat) (w : Word) (s : State), writeOf c = some (.host id, a, w) → s.hostMayWrite a w = false →
    s.hq.pwf.length < 16 → Answers c s fun u =>
      u.hq.pwf = s.hq.pwf ++ [⟨6, 0, 15, 0, 1, a, id, 0, s.now⟩] ∧ u.rd F.HQ_PWF_CNT_COUNT = (s.rd F.HQ_PWF_CNT_COUNT + 1) % 2 ^ 16 ∧
      bitOf (u.rd Ev.hq.bits) 1 = true ∧ EventOnly s u ∧ Quiet ((F.HQ_PWF_CNT_COUNT).addr :: evOut Ev.hq) s u) ∧
  (∀ (c : Instr) (k : Fin 8) (a : Nat) (w : Word) (s : State), writeOf c = some (.core k, a, w) → soOnly a w = true → Answers c s fun u =>
      u.sched.cores[k].mcause = 7 ∧ u.sched.cores[k].mtval = a ∧ u.sched.cores[k].mepc = s.sched.cores[k].pc ∧
      u.sched.cores[k].machineMode = true ∧ (∀ j, j ≠ k → u.sched.cores[j] = s.sched.cores[j]) ∧
      u = { s with sched := { s.sched with cores := u.sched.cores } }) ∧
  ∀ (c : Instr) (a : Nat) (w : Word) (s : State), writeOf c = some (.sideband, a, w) → a ≠ 0xF8400 → a ≠ 0xF8500 → NoEffect c s

/-- R347 to R355: a rate written waits for the edge, and no change of rate moves the reading; a step is accepted once, unless the
module is synchronised or a point is pending; it is the offset from the edge on; TIME requests and replies leave and come on the
configured lane, and their averages give offset and delay. -/
def Obligations.SharedTime : Prop :=
  (∀ (req : Req) (w : Word) (s : State), s.mayWrite req F.TIM_RATE_RATE.addr w = true → Answers (.timRateWrite req w) s fun u =>
      u.rd F.TIM_RATE_RATE = w.toNat ∧ u.tim = { s.tim with ratePend := some (sx 32 w.toNat, s.tim.nextEdge) } ∧
      u = { s with regs := u.regs, tim := u.tim } ∧ Quiet [(F.TIM_RATE_RATE).addr, wseqOut] s u) ∧
  (∀ (r : Int) (edge : Nat) (s : State), s.tim.ratePend = some (r, edge) → edge ≤ s.tim.raw → Answers .rateApply s fun u =>
      u.tim.rate = r ∧ u.tim.ratePend = none ∧ u.tim.rateHo = s.tim.rateHo ∧
      { u.tim with raw := edge }.nowFrac = { s.tim with raw := edge }.nowFrac ∧
      u.tim.nowFrac = { s.tim with raw := edge }.nowFrac + (tickFrac + r + s.tim.rateHo) * (s.tim.raw - edge : Nat) ∧ u = { s with tim := u.tim }) ∧
  (∀ (r : Int) (edge : Nat) (s : State), s.tim.ratePend = some (r, edge) → s.tim.raw < edge → NoEffect .rateApply s) ∧
  (∀ s : State, s.tim.ratePend = none → NoEffect .rateApply s) ∧
  (∀ (req : Req) (w : Word) (s : State), s.mayWrite req F.TIM_STEP_LO_STEP.hi.addr w = true → s.tim.stepped = false →
    s.rd F.TIM_STATUS_STATE = 0 → s.pointsPending = false → Answers (.timStepHiWrite req w) s fun u =>
      u.tim.stepPend = some (sx 64 ((s.takeHeld req F.TIM_STEP_LO_STEP.addr 0).1 + 2 ^ 32 * w.toNat), s.tim.nextEdge) ∧ u.tim.stepped = true ∧
      u.tim.offset = s.tim.offset ∧ u.rd F.TIM_STATUS_STATE = 1 ∧ bitOf (u.rd Ev.tim.bits) 0 = true ∧
      u = { s with regs := u.regs, hq := u.hq, sched := u.sched, held := u.held, tim := u.tim } ∧
      Quiet ([(F.TIM_STATUS_STATE).addr, wseqOut] ++ evOut Ev.tim) s u) ∧
  (∀ (req : Req) (w : Word) (s : State), s.mayWrite req F.TIM_STEP_LO_STEP.hi.addr w = true →
    s.tim.stepped = true ∨ s.rd F.TIM_STATUS_STATE ≠ 0 → Answers (.timStepHiWrite req w) s fun u =>
      u.tim = s.tim ∧ u.rd F.TIM_STATUS_REFUSE = 1 ∧ u.rd F.TIM_STATUS_STATE = s.rd F.TIM_STATUS_STATE ∧ bitOf (u.rd Ev.tim.bits) 1 = true ∧
      Quiet ([(F.TIM_STATUS_STATE).addr, wseqOut] ++ evOut Ev.tim) s u) ∧
  (∀ (v : Int) (edge : Nat) (s : State), s.tim.stepPend = some (v, edge) → edge ≤ s.tim.raw → Answers .stepApply s fun u =>
      u.tim = { s.tim with offset := v, stepPend := none, stepAt := edge, reqT1 := none } ∧
      u.rdP F.TIM_OFFSET_LO_OFFSET = zx 64 v ∧ u.rdP F.TIM_STEP_AT_LO_COUNT = edge % 2 ^ 64 ∧ u = { s with regs := u.regs, tim := u.tim } ∧
      Quiet [(F.TIM_OFFSET_LO_OFFSET).addr, (F.TIM_OFFSET_LO_OFFSET).addr + 4, (F.TIM_STEP_AT_LO_COUNT).addr,
        (F.TIM_STEP_AT_LO_COUNT).addr + 4] s u) ∧
  (∀ (v : Int) (edge : Nat) (s : State), s.tim.stepPend = some (v, edge) → s.tim.raw < edge → NoEffect .stepApply s) ∧
  (∀ s : State, s.tim.stepPend = none → NoEffect .stepApply s) ∧
  (∀ (req : Req) (w : Word) (s : State), s.mayWrite req F.TIM_CTRL_HOLDOVER.addr w = true → w.getLsbD 0 = true →
    s.rd F.TIM_STATUS_STATE = 1 → Answers (.timCtrlWrite req w) s fun u =>
      u.rd F.TIM_STATUS_STATE = 2 ∧ u.rd F.TIM_CTRL_HOLDOVER = 1 ∧ u.rd F.TIM_CTRL_MFL_EN = fieldOf w.toNat 1 1 ∧
      u.rd F.TIM_CTRL_AUTO_HOLD = fieldOf w.toNat 2 1 ∧ bitOf (u.rd Ev.tim.bits) 4 = true ∧ EventOnly s u ∧
      Quiet ([(F.TIM_STATUS_STATE).addr, (F.TIM_CTRL_HOLDOVER).addr, wseqOut] ++ evOut Ev.tim) s u) ∧
  (∀ s : State, s.on F.TIM_CTRL_MFL_EN = true → s.laneUp (fin 8 (s.rd F.TIM_MFL_CFG_LANE)) = true →
    (∀ last, s.tim.reqSlot = some last → last + max 1 (s.rd F.TIM_MFL_CFG_PERIOD) ≤ s.tim.raw / 8) → Answers .timeRequestSend s fun u =>
      u.tim = { s.tim with reqSeq := (s.tim.reqSeq + 1) % 256, reqT1 := none, reqSlot := some (s.tim.raw / 8) } ∧
      u.links.lanes[fin 8 (s.rd F.TIM_MFL_CFG_LANE)] = { s.links.lanes[fin 8 (s.rd F.TIM_MFL_CFG_LANE)] with
        out := s.links.lanes[fin 8 (s.rd F.TIM_MFL_CFG_LANE)].out ++ [s.timeToken false ((s.tim.reqSeq + 1) % 256) 0 0] } ∧
      (∀ k, k ≠ fin 8 (s.rd F.TIM_MFL_CFG_LANE) → u.links.lanes[k] = s.links.lanes[k]) ∧
      u = { s with tim := u.tim, links := { s.links with lanes := u.links.lanes } }) ∧
  (∀ s : State, s.on F.TIM_CTRL_MFL_EN = false → NoEffect .timeRequestSend s) ∧
  (∀ (last : Nat) (s : State), s.tim.reqSlot = some last → s.tim.raw / 8 < last + max 1 (s.rd F.TIM_MFL_CFG_PERIOD) →
    NoEffect .timeRequestSend s) ∧
  (∀ (lane : Fin 8) (body : List Byte) (x : InTok) (s : State), s.arrived lane 5 body x → bitOf x.tok 7 = false →
    Answers (.timeRequestReceive lane body) s fun u =>
      u.links.lanes[lane] = { s.links.lanes[lane] with inbox := s.links.lanes[lane].inbox.erase x
                                                       out := s.links.lanes[lane].out ++ [s.timeToken true (fieldOf x.tok 8 8) (s.shared48 x.at_) 0] } ∧
      LanesOnly [lane] s u) ∧
  (∀ (lane : Fin 8) (body : List Byte) (s : State), (∀ x ∈ s.links.lanes[lane].inbox, x.tok % 16 ≠ 5) →
    NoEffect (.timeRequestReceive lane body) s ∧ NoEffect (.timeReplyReceive lane body) s) ∧
  (∀ (lane : Fin 8) (body : List Byte) (x : InTok) (s : State), s.arrived lane 5 body x → bitOf x.tok 7 = true →
    s.tim.reqT1 = none ∨ fieldOf x.tok 8 8 ≠ s.tim.reqSeq → Answers (.timeReplyReceive lane body) s fun u =>
      u.links.lanes[lane] = { s.links.lanes[lane] with inbox := s.links.lanes[lane].inbox.erase x } ∧ LanesOnly [lane] s u) ∧
  ∀ (lane : Fin 8) (body : List Byte) (x : InTok) (t1 : Nat) (s : State), s.arrived lane 5 body x → bitOf x.tok 7 = true →
    s.tim.reqT1 = some t1 → fieldOf x.tok 8 8 = s.tim.reqSeq → s.laneUp lane = true →
    s.rd F.TIM_MFL_CFG_AVG = 0 → s.tim.sumDly = 0 → s.tim.results = 0 → s.on F.TIM_CTRL_AUTO_HOLD = false →
    Answers (.timeReplyReceive lane body) s fun u =>
      u.rd F.TIM_MFL_DLY_DELAY = zx 32 (2048 * (sx 48 (zx 48 ((s.shared48 x.at_ : Int) - t1)) - fieldOf x.tok 72 24)) ∧
      u.tim.reqT1 = none ∧ u.tim.results = 0 ∧ u.rd F.TIM_MFL_STAT_COUNT = (s.rd F.TIM_MFL_STAT_COUNT + 1) % 2 ^ 16 ∧
      bitOf (u.rd Ev.tim.bits) 3 = true ∧ u.links.lanes[lane].inbox = s.links.lanes[lane].inbox.erase x ∧
      u = { s with regs := u.regs, hq := u.hq, sched := u.sched, tim := u.tim, links := { s.links with lanes := u.links.lanes } } ∧
      Quiet ([(F.TIM_MFL_STAT_COUNT).addr, (F.TIM_MFL_DLY_DELAY).addr, (F.TIM_MFL_OFS_LO_OFFSET).addr,
        (F.TIM_MFL_OFS_LO_OFFSET).addr + 4] ++ evOut Ev.tim) s u

/-- R357 to R360: a received frame fills the next slot the module owns, or is dropped and counted; the next owned transmit slot is
sent and given back, its timestamp queued if asked for; a pop shows the next timestamp. -/
def Obligations.EthernetFrames : Prop :=
  (∀ (frame : List Byte) (frac : Nat) (s : State), s.rd F.TIM_ETH_SLOTS_RX ≠ 0 → s.clk.absent = false → 60 ≤ frame.length → frame.length ≤ 2032 →
    bitOf (Mem.byte s.canopy (ringSlot (s.rd F.TIM_ETH_RXRING_OFFSET) (s.tim.rxNext % s.rd F.TIM_ETH_SLOTS_RX) + 2)).toNat 0 = true →
    Answers (.ethFrameReceive frame true frac) s fun u =>
      Mem.bytes u.canopy (ringSlot (s.rd F.TIM_ETH_RXRING_OFFSET) (s.tim.rxNext % s.rd F.TIM_ETH_SLOTS_RX) + 16) frame.length = frame ∧
      bitOf (Mem.byte u.canopy (ringSlot (s.rd F.TIM_ETH_RXRING_OFFSET) (s.tim.rxNext % s.rd F.TIM_ETH_SLOTS_RX) + 2)).toNat 0 = false ∧
      (∀ a, a < ringSlot (s.rd F.TIM_ETH_RXRING_OFFSET) (s.tim.rxNext % s.rd F.TIM_ETH_SLOTS_RX) ∨
        ringSlot (s.rd F.TIM_ETH_RXRING_OFFSET) (s.tim.rxNext % s.rd F.TIM_ETH_SLOTS_RX) + 16 + frame.length ≤ a →
        Mem.byte u.canopy a = Mem.byte s.canopy a) ∧
      u.tim = { s.tim with rxNext := (s.tim.rxNext + 1) % s.rd F.TIM_ETH_SLOTS_RX } ∧ u = { s with canopy := u.canopy, tim := u.tim }) ∧
  (∀ (frame : List Byte) (frac : Nat) (s : State), s.rd F.TIM_ETH_SLOTS_RX ≠ 0 → s.clk.absent = false → 60 ≤ frame.length → frame.length ≤ 2032 →
    bitOf (Mem.byte s.canopy (ringSlot (s.rd F.TIM_ETH_RXRING_OFFSET) (s.tim.rxNext % s.rd F.TIM_ETH_SLOTS_RX) + 2)).toNat 0 = false →
    Answers (.ethFrameReceive frame true frac) s fun u =>
      u.rd F.TIM_ETH_STAT_RX_DROP = min (s.rd F.TIM_ETH_STAT_RX_DROP + 1) 65535 ∧ bitOf (u.rd Ev.tim.bits) 6 = true ∧ EventOnly s u ∧
      Quiet ((F.TIM_ETH_STAT_RX_DROP).addr :: evOut Ev.tim) s u) ∧
  (∀ (frame : List Byte) (frac : Nat) (s : State), NoEffect (.ethFrameReceive frame false frac) s) ∧
  (∀ (frame : List Byte) (ok : Bool) (frac : Nat) (s : State), s.clk.absent = true →
    NoEffect (.ethFrameReceive frame ok frac) s ∧ NoEffect (.ethFrameTransmit frac) s) ∧
  (∀ (frac : Nat) (s : State), s.rd F.TIM_ETH_SLOTS_TX ≠ 0 → s.clk.absent = false →
    bitOf (Mem.byte s.canopy (ringSlot (s.rd F.TIM_ETH_TXRING_OFFSET) (s.tim.txNext % s.rd F.TIM_ETH_SLOTS_TX) + 2)).toNat 0 = true →
    bitOf (Mem.byte s.canopy (ringSlot (s.rd F.TIM_ETH_TXRING_OFFSET) (s.tim.txNext % s.rd F.TIM_ETH_SLOTS_TX) + 2)).toNat 1 = false →
    bitOf (Mem.byte s.canopy (ringSlot (s.rd F.TIM_ETH_TXRING_OFFSET) (s.tim.txNext % s.rd F.TIM_ETH_SLOTS_TX) + 2)).toNat 2 = false →
    Answers (.ethFrameTransmit frac) s fun u =>
      u.tim.ethSent = Mem.bytes s.canopy (ringSlot (s.rd F.TIM_ETH_TXRING_OFFSET) (s.tim.txNext % s.rd F.TIM_ETH_SLOTS_TX) + 16)
        (ofBytesLE (Mem.bytes s.canopy (ringSlot (s.rd F.TIM_ETH_TXRING_OFFSET) (s.tim.txNext % s.rd F.TIM_ETH_SLOTS_TX)) 2)) ++
          bytesLE 4 (crc32 (u.tim.ethSent.take (u.tim.ethSent.length - 4))) ∧
      bitOf (Mem.byte u.canopy (ringSlot (s.rd F.TIM_ETH_TXRING_OFFSET) (s.tim.txNext % s.rd F.TIM_ETH_SLOTS_TX) + 2)).toNat 0 = false ∧
      (∀ a, a ≠ ringSlot (s.rd F.TIM_ETH_TXRING_OFFSET) (s.tim.txNext % s.rd F.TIM_ETH_SLOTS_TX) + 2 →
        Mem.byte u.canopy a = Mem.byte s.canopy a) ∧
      u.tim = { s.tim with txNext := (s.tim.txNext + 1) % s.rd F.TIM_ETH_SLOTS_TX, ethSent := u.tim.ethSent } ∧
      u = { s with canopy := u.canopy, tim := u.tim }) ∧
  (∀ (frac : Nat) (s : State), s.rd F.TIM_ETH_SLOTS_TX = 0 → NoEffect (.ethFrameTransmit frac) s) ∧
  ∀ s : State, Answers .timTxtsPop s fun u =>
      u.tim = { s.tim with txts := s.tim.txts.drop 1 } ∧ u.rd F.TIM_TXTS_INFO_VALID = b2n (!(s.tim.txts.drop 1).isEmpty) ∧
      u = { s with regs := u.regs, tim := u.tim } ∧
      Quiet [(F.TIM_TXTS_INFO_VALID).addr, (F.TIM_TXTS_FRAC_FRAC).addr, (F.TIM_TXTS_LO_TIME).addr, (F.TIM_TXTS_LO_TIME).addr + 4] s u

/-- R382 to R391: a missing edge freezes the master at once; a good window counts towards the return, a bad one is a loss with its
cause, interrupts every core and gives the oscillator; the switchover compensates shared time without moving it; a return locks and
completes; CLKOUT too fast is held low. -/
def Obligations.ClockLossAndReturn : Prop :=
  (∀ s : State, s.rd F.CLK_STATUS_SRC = 0 → s.clk.frozen = false → Answers .refclkMissingEdge s fun u =>
      u.clk.fired = true ∧ u.clk.frozen = true ∧ u.rd F.TMG_STATUS_UNREF = 1 ∧ u.rd F.CLK_STATUS_SRC = 0 ∧
      u.rdP F.CLK_LOSS_AT_LO_TIME = s.now ∧ u.acq.calRun = 0 ∧
      u = { s with regs := u.regs, clk := u.clk, cal := { s.cal with run := u.cal.run }, threads := u.threads
                   acq := { s.acq with calDue := u.acq.calDue, calRun := 0 } } ∧
      Quiet [(F.CLK_LOSS_AT_LO_TIME).addr, (F.CLK_LOSS_AT_LO_TIME).addr + 4, (F.TMG_STATUS_UNREF).addr, (F.TMU_GSTATUS_CAL_RUN).addr] s u) ∧
  (∀ s : State, s.rd F.CLK_STATUS_SRC = 1 ∨ s.rd F.CLK_STATUS_SRC = 3 → NoEffect .refclkMissingEdge s) ∧
  (∀ (count : Nat) (s : State), 995 ≤ count → count ≤ 1005 → s.rd F.CLK_STATUS_SRC = 0 → s.clk.fired = false →
    s.on F.CLK_CTRL_FORCE_INT = false → Answers (.referenceMonitorWindow count) s fun u =>
      u.rd F.CLK_REF_CNT_REF = count ∧ u.rd F.CLK_STATUS_REF_OK = 1 ∧ u.rd F.CLK_STATUS_SRC = 0 ∧ u.clk.refWins = s.clk.refWins + 1 ∧
      u.clk.seen = true ∧ u = { s with regs := u.regs, clk := u.clk, groves := u.groves } ∧
      Quiet [(F.CLK_REF_CNT_REF).addr, (F.CLK_STATUS_REF_OK).addr] s u) ∧
  (∀ (count : Nat) (s : State), count < 995 → s.rd F.CLK_STATUS_SRC = 0 → s.clk.fired = false → s.clk.seen = true →
    s.on F.CLK_STATUS_OSC_OK = true → s.flt.active.contains 3 = false → s.classOf 3 < 2 → Answers (.referenceMonitorWindow count) s fun u =>
      u.rd F.CLK_REF_CNT_REF = count ∧ u.rd F.CLK_STATUS_REF_OK = 0 ∧ u.rd F.CLK_STATUS_SRC = 1 ∧ u.rd F.CLK_STATUS_CAUSE = 2 ∧
      u.rd F.CLK_LOSS_CNT_COUNT = min (s.rd F.CLK_LOSS_CNT_COUNT + 1) 65535 ∧ u.rd F.TMG_STATUS_UNREF = 1 ∧
      bitOf (u.rd Ev.clk.bits) 0 = true ∧ (∀ c : Fin 8, bitOf (u.rd (F.SCH_NMI_CAUSE_CAUSE c)) 0 = true) ∧ u.latched 3 = true ∧
      u.flt.active.contains 3 = true ∧ u.clk.refWins = 0 ∧ u.clk.frozen = true ∧ BytesSame s u) ∧
  (∀ s : State, s.rd F.CLK_STATUS_SRC = 1 → s.on F.TIM_STATUS_UNREF = false → Answers .oscillatorSwitchover s fun u =>
      u.rd F.TIM_STATUS_UNREF = 1 ∧ u.rd F.TIM_RATE_HO_RATE = zx 32 (-s.tim.oscErr) ∧ u.tim.rateHo = -s.tim.oscErr ∧
      u.tim.rate = s.tim.rate ∧ u.tim.nowFrac = s.tim.nowFrac ∧ bitOf (u.rd Ev.tim.bits) 2 = true ∧
      u = { s with regs := u.regs, hq := u.hq, sched := u.sched, tim := u.tim } ∧
      Quiet ([(F.TIM_STATUS_UNREF).addr, (F.TIM_RATE_HO_RATE).addr] ++ evOut Ev.tim) s u) ∧
  (∀ s : State, s.rd F.CLK_STATUS_SRC ≠ 1 → NoEffect .oscillatorSwitchover s) ∧
  (∀ (req : Req) (w : Word) (s : State), s.mayWrite req F.CLK_CTRL_AUTO_RETURN.addr w = true → w.getLsbD 1 = true → w.getLsbD 2 = false →
    s.rd F.CLK_STATUS_SRC = 1 → s.returnWin ≤ s.clk.refWins → Answers (.clkReturnWrite req w) s fun u =>
      u.rd F.CLK_STATUS_SRC = 2 ∧ u.clk = { s.clk with request := false, locked := false } ∧ u = { s with regs := u.regs, clk := u.clk } ∧
      Quiet [(F.CLK_CTRL_AUTO_RETURN).addr, (F.CLK_STATUS_SRC).addr, wseqOut] s u) ∧
  (∀ s : State, s.rd F.CLK_STATUS_SRC = 2 → Answers .frequencyLock s fun u =>
      u.clk = { s.clk with locked := true } ∧ u = { s with clk := u.clk }) ∧
  (∀ s : State, s.rd F.CLK_STATUS_SRC ≠ 2 → NoEffect .frequencyLock s) ∧
  (∀ s : State, s.rd F.CLK_STATUS_SRC = 2 → s.clk.locked = true → s.clk.fired = false → Answers .returnComplete s fun u =>
      u.rd F.CLK_STATUS_SRC = 0 ∧ u.rd F.TMG_STATUS_UNREF = 0 ∧ u.rd F.TIM_STATUS_UNREF = 0 ∧ u.rd F.TIM_RATE_HO_RATE = 0 ∧
      u.tim.nowFrac = s.tim.nowFrac ∧ u.tim.rateHo = 0 ∧ u.clk.frozen = false ∧ u.flt.active.contains 3 = false ∧
      bitOf (u.rd Ev.clk.bits) 1 = true ∧ BytesSame s u) ∧
  (∀ s : State, s.rd F.CLK_STATUS_SRC ≠ 2 → NoEffect .returnComplete s) ∧
  (∀ (count : Nat) (s : State), 502 < count → count < 65536 → s.rd F.CLK_STATUS_SRC = 0 → s.classOf 4 < 2 →
    Answers (.oscillatorMonitorWindow count) s fun u =>
      u.rd F.CLK_REF_CNT_OSC = count ∧ u.rd F.CLK_STATUS_OSC_OK = 0 ∧ u.clk = { s.clk with oscWins := 0 } ∧
      bitOf (u.rd Ev.clk.bits) 2 = true ∧ u.latched 4 = true ∧
      u = { s with regs := u.regs, hq := u.hq, sched := u.sched, flt := u.flt, clk := u.clk } ∧
      Quiet ([(F.CLK_REF_CNT_OSC).addr, (F.CLK_STATUS_OSC_OK).addr] ++ evOut Ev.clk ++ faultOut 4) s u) ∧
  (∀ (count : Nat) (s : State), 498 ≤ count → count ≤ 502 → Answers (.oscillatorMonitorWindow count) s fun u =>
      u.rd F.CLK_REF_CNT_OSC = count ∧ u.clk.oscWins = s.clk.oscWins + 1 ∧ (s.returnWin ≤ s.clk.oscWins + 1 → u.rd F.CLK_STATUS_OSC_OK = 1) ∧
      u = { s with regs := u.regs, clk := u.clk, tim := { s.tim with oscErr := u.tim.oscErr } } ∧
      Quiet [(F.CLK_REF_CNT_OSC).addr, (F.CLK_STATUS_OSC_OK).addr, (F.CLK_OSC_ERR_ERR).addr] s u) ∧
  (∀ (req : Req) (w : Word) (s : State), s.mayWrite req F.CLK_CTRL_FORCE_INT.addr w = true → s.rd F.CLK_STATUS_SRC = 0 →
    Answers (.forceIntWrite req w) s fun u =>
      u.rd F.CLK_CTRL_FORCE_INT = fieldOf w.toNat 2 1 ∧ u.rd F.CLK_CTRL_AUTO_RETURN = fieldOf w.toNat 0 1 ∧ RegsOnly s u ∧
      Quiet [(F.CLK_CTRL_FORCE_INT).addr, wseqOut] s u) ∧
  (∀ (req : Req) (w : Word) (s : State), s.mayWrite req F.CLKOUT_CFG_SRC.addr w = true →
    clkoutMax (fieldOf w.toNat 0 4) ≤ 200000000 * (fieldOf w.toNat 16 16 + 1) → clkoutMax (fieldOf w.toNat 0 4) ≠ 0 →
    Answers (.clkoutCfgWrite req w) s fun u =>
      u.rd F.CLKOUT_CFG_SRC = fieldOf w.toNat 0 4 ∧ u.rd F.CLKOUT_CFG_DIV = fieldOf w.toNat 16 16 ∧ u.rd F.CLKOUT_STAT_ACTIVE = 1 ∧
      u.rd F.CLKOUT_STAT_TOO_FAST = 0 ∧
      u.clk = { s.clk with out := clkoutOf (fieldOf w.toNat 0 4) (fieldOf w.toNat 8 6) (fieldOf w.toNat 16 16 + 1) } ∧
      u = { s with regs := u.regs, clk := u.clk } ∧ Quiet [(F.CLKOUT_CFG_SRC).addr, (F.CLKOUT_STAT_ACTIVE).addr, wseqOut] s u) ∧
  ∀ (req : Req) (w : Word) (s : State), s.mayWrite req F.CLKOUT_CFG_SRC.addr w = true →
    200000000 * (fieldOf w.toNat 16 16 + 1) < clkoutMax (fieldOf w.toNat 0 4) → Answers (.clkoutCfgWrite req w) s fun u =>
      u.rd F.CLKOUT_STAT_ACTIVE = 0 ∧ u.rd F.CLKOUT_STAT_TOO_FAST = 1 ∧ bitOf (u.rd Ev.clk.bits) 3 = true ∧
      u = { s with regs := u.regs, hq := u.hq, sched := u.sched, clk := { s.clk with out := u.clk.out } } ∧
      Quiet ([(F.CLKOUT_CFG_SRC).addr, (F.CLKOUT_STAT_ACTIVE).addr, wseqOut] ++ evOut Ev.clk) s u

/-- R333 to R340: a lane that is UP or training sends its next token, and with it the next bulk frame against credit, FRAME_SYNC first
and the rest scrambled; a frame without FRAME_SYNC is discarded, one with a wrong header CRC is counted and discarded; bulk frames are taken in order of SEQ, the first gap asks for a NAK; a message waits in
the mailbox until it is popped. -/
def Obligations.LinkFrames : Prop :=
  (∀ (lane : Fin 8) (t : Nat) (r : List Nat) (s : State), s.laneState lane = 1 → s.links.lanes[lane].out = t :: r → t % 16 ≠ 5 →
    Answers (.frameSend lane) s fun u =>
      u.links.lanes[lane].sent = t ∧ u.links.lanes[lane].sentBulk = none ∧ u.links.lanes[lane].out = r ∧
      u.links.lanes[lane].sentCredit = min 255 s.links.lanes[s.linkLane lane].freed ∧
      u.links.lanes[s.linkLane lane].freed = s.links.lanes[s.linkLane lane].freed - min 255 s.links.lanes[s.linkLane lane].freed ∧
      u.links.lanes[lane].line = frameSync ++ (scrBytes scrambleBit s.links.lanes[lane].txScr u.links.lanes[lane].frame).1 ∧
      LanesOnly [lane, s.linkLane lane] s u) ∧
  (∀ (lane : Fin 8) (t : Nat) (r : List Nat) (b : Bulk) (q : List Bulk) (s : State), s.laneState lane = 2 → s.linkLane lane = lane →
    s.links.lanes[lane].out = t :: r → t % 16 ≠ 5 → s.links.lanes[lane].nak = none → s.links.lanes[lane].resend = [] →
    s.links.lanes[lane].txq = b :: q → b.cls ≠ 1 → 0 < s.links.lanes[lane].credit → s.links.lanes[lane].replay.length < s.fifoFrames lane →
    Answers (.frameSend lane) s fun u =>
      u.links.lanes[lane] = { s.links.lanes[lane] with
        out := r, sent := t, sentBulk := some { b with seq := s.links.lanes[lane].txSeq }, sentCredit := min 255 s.links.lanes[lane].freed
        freed := s.links.lanes[lane].freed - min 255 s.links.lanes[lane].freed, txq := q
        txSeq := (s.links.lanes[lane].txSeq + 1) % 4096, credit := s.links.lanes[lane].credit - 1
        replay := s.links.lanes[lane].replay ++ [{ b with seq := s.links.lanes[lane].txSeq }], line := u.links.lanes[lane].line
        txScr := u.links.lanes[lane].txScr, usedAt := u.links.lanes[lane].usedAt } ∧
      u.links.lanes[lane].line = frameSync ++ (scrBytes scrambleBit s.links.lanes[lane].txScr u.links.lanes[lane].frame).1 ∧
      LanesOnly [lane] s u) ∧
  (∀ (lane : Fin 8) (s : State), s.laneState lane ≠ 1 → s.laneState lane ≠ 2 → NoEffect (.frameSend lane) s) ∧
  (∀ (lane : Fin 8) (slot : Nat) (sub : Fin 4) (line : List Byte) (s : State), s.laneState lane ≠ 1 → s.laneState lane ≠ 2 →
    NoEffect (.frameReceive lane slot sub line) s) ∧
  (∀ (lane : Fin 8) (slot : Nat) (sub : Fin 4) (line : List Byte) (s : State), s.laneState lane = 2 → line.take 2 ≠ frameSync →
    s.links.lanes[lane].bad < 2 → s.links.lanes[lane].noSync = 0 → Answers (.frameReceive lane slot sub line) s fun u =>
      u.links.lanes[lane].noSync = 1 ∧ u.links.lanes[lane].bad = s.links.lanes[lane].bad + 1 ∧
      u.links.lanes[lane].inbox = s.links.lanes[lane].inbox ∧ u.links.lanes[lane].rxq = s.links.lanes[lane].rxq ∧ LanesOnly [lane] s u) ∧
  (∀ (lane : Fin 8) (slot : Nat) (sub : Fin 4) (line frame : List Byte) (s : State), s.laneState lane = 2 →
    line.take 2 = frameSync → s.frameOf lane line = frame → frame.length = 68 →
    crc16 (frame.take 22) ≠ leAt frame 22 2 → s.links.lanes[lane].bad < 2 → Answers (.frameReceive lane slot sub line) s fun u =>
      u.rd (F.MFL_HDR_ERR_COUNT lane) = min (s.rd (F.MFL_HDR_ERR_COUNT lane) + 1) 65535 ∧
      u.links.lanes[lane].bad = s.links.lanes[lane].bad + 1 ∧ u.links.lanes[lane].inbox = s.links.lanes[lane].inbox ∧
      u.links.lanes[lane].rxq = s.links.lanes[lane].rxq ∧ (∀ k, k ≠ lane → u.links.lanes[k] = s.links.lanes[k]) ∧
      u = { s with regs := u.regs, links := { s.links with lanes := u.links.lanes } } ∧ Quiet [(F.MFL_HDR_ERR_COUNT lane).addr] s u) ∧
  (∀ (lane : Fin 8) (slot : Nat) (sub : Fin 4) (line frame : List Byte) (s : State), s.laneState lane = 2 →
    line.take 2 = frameSync → s.frameOf lane line = frame → s.linkLane lane = lane → frame.length = 68 →
    crc16 (frame.take 22) = leAt frame 22 2 → leAt (frame.take 22) 0 16 % 16 = 0 →
    fieldOf (leAt (frame.take 22) 16 6) 0 4 = 1 ∨ fieldOf (leAt (frame.take 22) 16 6) 0 4 = 2 →
    fieldOf (leAt (frame.take 22) 16 6) 4 12 = s.links.lanes[lane].rxSeq → Answers (.frameReceive lane slot sub line) s fun u =>
      u.links.lanes[lane].rxq = s.links.lanes[lane].rxq ++ [⟨fieldOf (leAt (frame.take 22) 16 6) 0 4, s.links.lanes[lane].rxSeq,
        (frame.drop 24).take (fieldOf (leAt (frame.take 22) 16 6) 24 6)⟩] ∧
      u.links.lanes[lane].rxSeq = (s.links.lanes[lane].rxSeq + 1) % 4096 ∧
      u.links.lanes[lane].credit = s.links.lanes[lane].credit + fieldOf (leAt (frame.take 22) 16 6) 16 8 ∧
      u.links.lanes[lane].bad = 0 ∧ u.links.lanes[lane].noSync = 0 ∧ u.links.lanes[lane].gap = false ∧ LanesOnly [lane] s u) ∧
  (∀ (lane : Fin 8) (slot : Nat) (sub : Fin 4) (line frame : List Byte) (s : State), s.laneState lane = 2 →
    line.take 2 = frameSync → s.frameOf lane line = frame → s.linkLane lane = lane → frame.length = 68 →
    crc16 (frame.take 22) = leAt frame 22 2 → leAt (frame.take 22) 0 16 % 16 = 0 → fieldOf (leAt (frame.take 22) 16 6) 0 4 = 1 →
    fieldOf (leAt (frame.take 22) 16 6) 4 12 ≠ s.links.lanes[lane].rxSeq → s.links.lanes[lane].gap = false →
    Answers (.frameReceive lane slot sub line) s fun u =>
      u.links.lanes[lane].rxq = s.links.lanes[lane].rxq ∧ u.links.lanes[lane].rxSeq = s.links.lanes[lane].rxSeq ∧
      u.links.lanes[lane].gap = true ∧ u.links.lanes[lane].nak = some s.links.lanes[lane].rxSeq ∧ LanesOnly [lane] s u) ∧
  (∀ (lane : Fin 8) (s : State), s.linkLane lane = lane → s.on (F.MFL_MSG_SEND_SEND lane) = false → Answers (.mflMsgSend lane) s fun u =>
      u.links.lanes[lane].txq = s.links.lanes[lane].txq ++
        [⟨1, 0, (List.range 11).flatMap fun i => bytesLE 4 (s.rd (F.MFL_MSG_TX_DATA lane i))⟩] ∧
      u.rd (F.MFL_MSG_SEND_SEND lane) = 1 ∧ u = { s with regs := u.regs, links := { s.links with lanes := u.links.lanes } } ∧
      Quiet [(F.MFL_MSG_SEND_SEND lane).addr] s u) ∧
  (∀ (lane : Fin 8) (s : State), s.linkLane lane = lane → s.on (F.MFL_MSG_SEND_SEND lane) = true → Answers (.mflMsgSend lane) s fun u =>
      bitOf (u.rd (Ev.mfl lane).bits) 9 = true ∧ EventOnly s u ∧ Quiet (evOut (Ev.mfl lane)) s u) ∧
  (∀ (lane : Fin 8) (b : Bulk) (r : List Bulk) (s : State), s.links.lanes[s.linkLane lane].rxq = b :: r → b.cls = 1 →
    s.links.lanes[s.linkLane lane].msgs.length < 16 → Answers (.msgReceive lane b.data) s fun u =>
      u.links.lanes[s.linkLane lane] = { s.links.lanes[s.linkLane lane] with
        rxq := r, freed := s.links.lanes[s.linkLane lane].freed + 1, msgs := s.links.lanes[s.linkLane lane].msgs ++ [b.data] } ∧
      u.rd (F.MFL_MSG_RXCTL_COUNT (s.linkLane lane)) = s.links.lanes[s.linkLane lane].msgs.length + 1 ∧
      (∀ i : Fin 11, u.rd (F.MFL_MSG_RX_DATA (s.linkLane lane) i) = leAt (u.links.lanes[s.linkLane lane].msgs.headD []) (4 * i) 4) ∧
      bitOf (u.rd (Ev.mfl (s.linkLane lane)).bits) 6 = true) ∧
  (∀ (lane : Fin 8) (b : Bulk) (r : List Bulk) (s : State), s.links.lanes[s.linkLane lane].rxq = b :: r → b.cls = 1 →
    s.links.lanes[s.linkLane lane].msgs.length = 16 → Answers (.msgReceive lane b.data) s fun u =>
      u.links.lanes[s.linkLane lane].msgs = s.links.lanes[s.linkLane lane].msgs ∧ u.links.lanes[s.linkLane lane].rxq = r ∧
      u.rd (F.MFL_MSG_RXCTL_DROPPED (s.linkLane lane)) = min (s.rd (F.MFL_MSG_RXCTL_DROPPED (s.linkLane lane)) + 1) 65535 ∧
      bitOf (u.rd (Ev.mfl (s.linkLane lane)).bits) 6 = true ∧
      Quiet ([(F.MFL_MSG_RXCTL_COUNT (s.linkLane lane)).addr] ++ evOut (Ev.mfl (s.linkLane lane))) s u) ∧
  (∀ (lane : Fin 8) (m : List Byte) (r : List (List Byte)) (s : State), s.linkLane lane = lane → s.links.lanes[lane].msgs = m :: r →
    r.length < 32 → Answers (.mflMsgPop lane) s fun u =>
      u.links.lanes[lane] = { s.links.lanes[lane] with msgs := r } ∧ u.rd (F.MFL_MSG_RXCTL_COUNT lane) = r.length ∧
      u.rd (F.MFL_MSG_RXCTL_DROPPED lane) = s.rd (F.MFL_MSG_RXCTL_DROPPED lane) ∧
      (∀ i : Fin 11, u.rd (F.MFL_MSG_RX_DATA lane i) = leAt (r.headD []) (4 * i) 4) ∧
      Quiet ((F.MFL_MSG_RXCTL_COUNT lane).addr :: (List.range 11).map fun i => (F.MFL_MSG_RX_DATA lane i).addr) s u) ∧
  (∀ (lane l : Fin 8) (b : Bulk) (r : List Bulk) (s : State), s.links.lanes[s.linkLane lane].rxq = b :: r → b.cls = 2 →
    s.rd (F.STR_LINK_MODULES l) ≠ 0 → s.rd (F.STR_LINK_ID_LINK_ID l) = leAt b.data 0 4 →
    (∀ k, k < l → s.rd (F.STR_LINK_MODULES k) = 0) → leAt b.data 4 1 < 4 → Answers (.peerReceive lane b.data) s fun u =>
      u.rdP (F.MFL_PEER_FAILCYC_LO_COUNT l (leAt b.data 4 1)) = leAt b.data 8 6 ∧
      u.rdP (F.MFL_PEER_FAILS_LO_COUNT l (leAt b.data 4 1)) = leAt b.data 14 6 ∧
      u.rdP (F.MFL_PEER_FF_LO_CYCLE l (leAt b.data 4 1)) = leAt b.data 20 6 ∧ u.rd (F.MFL_PEER_STAT_VALID l (leAt b.data 4 1)) = 1 ∧
      bitOf (u.rd (Ev.mfl (s.linkLane lane)).bits) 7 = true ∧ u.links.lanes[s.linkLane lane].rxq = r ∧ BytesSame s u) ∧
  (∀ (lane : Fin 8) (seq : Nat) (b x : Bulk) (r : List Bulk) (s : State),
    (s.links.lanes[s.linkLane lane].rxq.find? fun b => b.cls == 3 && b.seq == seq) = some b →
    (s.links.lanes[s.linkLane lane].replay.dropWhile fun x => x.seq != seq) = x :: r → Answers (.nakReceive lane seq) s fun u =>
      u.links.lanes[s.linkLane lane] = { s.links.lanes[s.linkLane lane] with
        rxq := s.links.lanes[s.linkLane lane].rxq.erase b, resend := x :: r } ∧ LanesOnly [s.linkLane lane] s u) ∧
  ∀ (lane : Fin 8) (seq : Nat) (s : State), (∀ b ∈ s.links.lanes[s.linkLane lane].rxq, b.cls ≠ 3) → NoEffect (.nakReceive lane seq) s

/-- R51, R116, R199, R335 to R337, R342, R345: a token acts only where it stands first of its type in its lane and its slot has come;
the results of a GROVE token in order are taken and its lines shown as held, one out of order is a token loss; a leader's START fixes
the slot of cycle 0 or cancels the burst; an ECHO is measured and returned; IDENT names the far end; a descriptor that clashes is an event;
a forwarded TIME snapshot is requested here once. -/
def Obligations.LinkTokens : Prop :=
  (∀ (lane : Fin 8) (body : List Byte) (s : State), s.links.lanes[lane].inbox = [] →
    NoEffect (.tokenGrove lane body) s ∧ NoEffect (.tokenArmed lane body) s ∧ NoEffect (.tokenStart lane body) s ∧
    NoEffect (.tokenSnapshot lane body) s ∧ NoEffect (.tokenEcho lane body) s ∧ NoEffect (.tokenIdent lane body) s ∧
    NoEffect (.tokenDesc lane body) s) ∧
  (∀ (lane l : Fin 8) (body : List Byte) (x : InTok) (p : Peer) (s : State), s.arrived lane 1 body x → s.entryOf lane x.tok = some l → (s.descOn lane l).isSome = true →
    (s.links.peers.find? fun p => p.link == l.1 && p.pos == ((s.descOn lane l).map descPos).getD 4) = some p →
    fieldOf x.tok 8 8 = p.next % 256 → fieldOf x.tok 16 5 = 0 → fieldOf x.tok 96 4 = 0 → Answers (.tokenGrove lane body) s fun u =>
      u.links.lanes[lane].inbox = s.links.lanes[lane].inbox.erase x ∧ u.links.peers = s.links.peers.map (fun q => if q.link = l.1 ∧ q.pos = ((s.descOn lane l).map descPos).getD 4
        then { q with present := some ((s.threads[s.threadOf (s.entryGrove l)].cycles : Int) +
          sx 32 (zx 32 ((fieldOf x.tok 64 32 : Int) - s.threads[s.threadOf (s.entryGrove l)].cycles))).toNat } else q) ∧
      u = { s with links := { s.links with lanes := u.links.lanes, peers := u.links.peers } }) ∧
  (∀ (lane l : Fin 8) (body : List Byte) (x : InTok) (p : Peer) (s : State), s.arrived lane 1 body x → s.entryOf lane x.tok = some l → (s.descOn lane l).isSome = true →
    (s.links.peers.find? fun p => p.link == l.1 && p.pos == ((s.descOn lane l).map descPos).getD 4) = some p →
    fieldOf x.tok 8 8 ≠ p.next % 256 → s.groveLive (s.entryGrove l) = true → s.classOf 18 < 2 → Answers (.tokenGrove lane body) s fun u =>
      u.rd (F.MFL_TOKEN_LOST_COUNT lane) = min (s.rd (F.MFL_TOKEN_LOST_COUNT lane) + 1) 65535 ∧
      bitOf (u.rd (Ev.mfl lane).bits) 4 = true ∧ u.latched 18 = true) ∧
  (∀ (lane l : Fin 8) (body : List Byte) (x : InTok) (b : Burst) (s : State), s.arrived lane 2 body x → s.entryOf lane x.tok = some l → s.entryBurst l = some b → b.stage ≠ .armed →
    b ∈ s.bursts → Answers (.tokenArmed lane body) s fun u =>
      (∃ b' ∈ u.bursts, b' = { b with
        armedBy := (8 * l.1 + fieldOf x.tok 40 2, fieldOf x.tok 8 32) :: (b.armedBy.filter fun a => a.1 != 8 * l.1 + fieldOf x.tok 40 2) }) ∧
      (∀ q ∈ u.links.peers, q.link = l.1 → q.pos = fieldOf x.tok 40 2 → q.present.isSome = true) ∧ u.links.lanes[lane].inbox = s.links.lanes[lane].inbox.erase x ∧
      u = { s with links := { s.links with lanes := u.links.lanes, peers := u.links.peers }, bursts := u.bursts }) ∧
  (∀ (lane l : Fin 8) (body : List Byte) (x : InTok) (b : Burst) (s : State), s.arrived lane 3 body x → s.entryOf lane x.tok = some l → s.entryBurst l = some b → b.stage = .armed →
    b.startSlot = none → b.ops.mode = 4 → s.leads b = false → bitOf x.tok 40 = false → b ∈ s.bursts → Answers (.tokenStart lane body) s fun u =>
      (∃ b' ∈ u.bursts, b'.hdr = b.hdr ∧
        b'.startSlot = some ((s.slotNow : Int) + sx 32 (zx 32 ((fieldOf x.tok 8 32 : Int) - s.slotCount))).toNat) ∧
      (∀ q ∈ u.links.peers, q.link = l.1 → q.present.isSome = true) ∧ u.links.lanes[lane].inbox = s.links.lanes[lane].inbox.erase x) ∧
  (∀ (lane l : Fin 8) (body : List Byte) (x : InTok) (b : Burst) (s : State), s.arrived lane 3 body x → s.entryOf lane x.tok = some l → s.entryBurst l = some b →
    bitOf x.tok 40 = true → Answers (.tokenStart lane body) s fun u =>
      bitOf (u.rd Ev.tmg.bits) 4 = true ∧ (∀ g ∈ grovesIn b.ops.groves, u.groves[g].ended.isSome = true)) ∧
  (∀ (lane : Fin 8) (body : List Byte) (x : InTok) (s : State), s.arrived lane 4 body x → bitOf x.tok 8 = true → bitOf x.tok 9 = false →
    s.links.fwdIds.contains (fieldOf x.tok 16 16) = false → s.snapRefusal true 0 (fieldOf x.tok 16 16) = 0 →
    s.reached (fieldOf x.tok 64 64) = false → Answers (.tokenSnapshot lane body) s fun u =>
      u.snaps = s.snaps ++ [{ time := true, linked := false, grove := 0, id := fieldOf x.tok 16 16, point := fieldOf x.tok 64 64
                              cmd := none, wait := none }] ∧
      fieldOf x.tok 16 16 ∈ u.links.fwdIds ∧ u.rd F.CAP_SNAP_STAT_LAST_ID = fieldOf x.tok 16 16 ∧ u.links.lanes[lane].inbox = s.links.lanes[lane].inbox.erase x) ∧
  (∀ (lane : Fin 8) (body : List Byte) (x : InTok) (s : State), s.arrived lane 4 body x → bitOf x.tok 8 = true → s.links.fwdIds.contains (fieldOf x.tok 16 16) = true →
    Answers (.tokenSnapshot lane body) s fun u => u.links.lanes[lane].inbox = s.links.lanes[lane].inbox.erase x ∧ LanesOnly [lane] s u) ∧
  (∀ (lane : Fin 8) (body : List Byte) (x : InTok) (s : State), s.arrived lane 6 body x → s.linkLane lane = lane → Answers (.tokenEcho lane body) s fun u =>
      u.links.lanes[lane].echo =
        (zx 37 ((x.at_ : Int) - 32 * s.sync.epochSlot - 32 * fieldOf x.tok 8 32) :: s.links.lanes[lane].echo).take 1024 ∧
      u.links.lanes[lane].echoDue = (if bitOf x.tok 40 then s.links.lanes[lane].echoDue else some (fieldOf x.tok 8 32)) ∧
      u.rd (F.MFL_LAT_MEAS_TICKS lane) = min (maxOf u.links.lanes[lane].echo) 65535 ∧ u.links.lanes[lane].inbox = s.links.lanes[lane].inbox.erase x ∧
      (s.linkBusy lane = true → u.rd (F.MFL_LAT_LAT_SLOTS lane) = s.rd (F.MFL_LAT_LAT_SLOTS lane)) ∧
      (s.linkBusy lane = false → u.rd (F.MFL_LAT_LAT_SLOTS lane) = min ((maxOf u.links.lanes[lane].echo + 31) / 32 + 1) 127) ∧
      Quiet ((List.range 8).map (fun k => (F.MFL_LAT_MEAS_TICKS k).addr) ++ laneOut ++ agreedOut) s u) ∧
  (∀ (lane : Fin 8) (body : List Byte) (x : InTok) (s : State), s.arrived lane 7 body x → fieldOf x.tok 67 2 = s.bond lane → Answers (.tokenIdent lane body) s fun u =>
      u.rd (F.MFL_FAR_ID_ID lane) = fieldOf x.tok 8 32 ∧ u.rd (F.MFL_LANE_STAT_FAR_LANE lane) = fieldOf x.tok 64 3 ∧
      u.links.lanes[lane] = { s.links.lanes[lane] with inbox := s.links.lanes[lane].inbox.erase x, farWidth := some (s.bond lane) } ∧
      u = { s with regs := u.regs, links := { s.links with lanes := u.links.lanes } } ∧
      Quiet [(F.MFL_FAR_ID_ID lane).addr, (F.MFL_LANE_STAT_FAR_LANE lane).addr] s u) ∧
  (∀ (lane : Fin 8) (body : List Byte) (x : InTok) (s : State), s.arrived lane 7 body x → fieldOf x.tok 67 2 ≠ s.bond lane → Answers (.tokenIdent lane body) s fun u =>
      bitOf (u.rd (Ev.mfl lane).bits) 8 = true ∧ u.links.lanes[lane].farWidth = some (fieldOf x.tok 67 2)) ∧
  (∀ (lane : Fin 8) (body : List Byte) (x : InTok) (s : State), s.arrived lane 8 body x → (∀ l : Fin 8, s.rd (F.STR_LINK_MODULES l) = 0) →
    Answers (.tokenDesc lane body) s fun u =>
      (lane.1, x.tok) ∈ u.links.descs ∧ u.links.lanes[lane].inbox = s.links.lanes[lane].inbox.erase x ∧ u.rd F.STR_STATUS_LINK_PENDING = 0 ∧
      Quiet [(F.STR_STATUS_LINK_PENDING).addr] s u) ∧
  ∀ (lane l : Fin 8) (body : List Byte) (x : InTok) (s : State), s.arrived lane 8 body x → s.rd (F.STR_LINK_MODULES l) ≠ 0 → s.rd (F.STR_LINK_ID_LINK_ID l) = descId x.tok →
    bitOf (s.rd (F.STR_LINK_LANE_MASK l)) lane = true → descMatch (s.ownDesc l) x.tok = false → Answers (.tokenDesc lane body) s fun u =>
      (s.links.asked.contains (lane.1, descId x.tok) = false → u.ownDesc l ∈ u.links.lanes[lane].out) ∧
      bitOf (u.rd Ev.str.bits) 2 = true ∧ u.rd (F.STR_LINK_AGREED l) = 0 ∧ u.rd F.STR_STATUS_LINK_PENDING = 1

/-- R332, R341, R344: a link that is UP or idle retrains and counts it, any other does not; bring-up ends UP where both ends report one
width, else stays in training; a link that fails is a fault; an idle link wakes for traffic and measures anew; an end that has still to measure stays in training; a figure of merit below
WARN is an event; a write of MFL_CFG starts the lanes enabled. -/
def Obligations.LinkStates : Prop :=
  (∀ (lane : Fin 8) (cause : Nat) (s : State), s.laneState lane = 2 ∨ s.laneState lane = 3 → s.entriesOn lane = [] →
    s.on F.TIM_CTRL_AUTO_HOLD = false → Answers (.linkRetrain lane cause) s fun u =>
      (∀ k ∈ s.lanesIn lane, u.laneState k = 1 ∧ u.links.lanes[k].inbox = [] ∧ u.links.lanes[k].bad = 0 ∧
        u.links.lanes[k].rxSeq = s.links.lanes[k].rxSeq ∧ u.links.lanes[k].credit = s.links.lanes[k].credit) ∧
      u.rd (F.MFL_RETRAINS_COUNT (s.linkLane lane)) = (s.rd (F.MFL_RETRAINS_COUNT (s.linkLane lane)) + 1) % 2 ^ 32 ∧
      bitOf (u.rd (Ev.mfl (s.linkLane lane)).bits) 3 = true ∧ (∀ k, k ∉ s.lanesIn lane → u.links.lanes[k] = s.links.lanes[k]) ∧
      u = { s with regs := u.regs, hq := u.hq, sched := u.sched, links := u.links } ∧
      Quiet (laneOut ++ agreedOut ++ [(F.MFL_RETRAINS_COUNT (s.linkLane lane)).addr] ++ evOut (Ev.mfl (s.linkLane lane))) s u) ∧
  (∀ (lane : Fin 8) (cause : Nat) (s : State), s.laneState lane ≠ 2 → s.laneState lane ≠ 3 → NoEffect (.linkRetrain lane cause) s) ∧
  (∀ (lane : Fin 8) (s : State), s.laneState lane = 1 → (∀ k ∈ s.lanesIn lane, s.links.lanes[k].farWidth = some (s.bond lane)) →
    s.links.lanes[s.linkLane lane].need = 0 → Answers (.linkUp lane) s fun u =>
      (∀ k ∈ s.lanesIn lane, u.laneState k = 2) ∧ (∀ k, k ∉ s.lanesIn lane → u.laneState k = s.laneState k) ∧
      bitOf (u.rd (Ev.mfl (s.linkLane lane)).bits) 0 = true ∧
      u.links.lanes[s.linkLane lane] = { s.links.lanes[s.linkLane lane] with usedAt := s.master } ∧
      (∀ k, k ≠ s.linkLane lane → u.links.lanes[k] = s.links.lanes[k]) ∧
      u = { s with regs := u.regs, hq := u.hq, sched := u.sched, links := { s.links with lanes := u.links.lanes } } ∧
      Quiet (laneOut ++ agreedOut ++ evOut (Ev.mfl (s.linkLane lane))) s u) ∧
  (∀ (lane k : Fin 8) (s : State), k ∈ s.lanesIn lane → s.links.lanes[k].farWidth ≠ some (s.bond lane) → NoEffect (.linkUp lane) s) ∧
  (∀ (lane : Fin 8) (s : State), s.links.lanes[s.linkLane lane].need ≠ 0 → NoEffect (.linkUp lane) s) ∧
  (∀ (lane : Fin 8) (s : State), s.laneState lane = 1 → 960000 ≤ s.trainTicks lane → s.classOf 19 < 2 → Answers (.linkFailed lane) s fun u =>
      (∀ k ∈ s.lanesIn lane, u.laneState k = 4) ∧ (∀ k, k ∉ s.lanesIn lane → u.laneState k = s.laneState k) ∧
      bitOf (u.rd (Ev.mfl (s.linkLane lane)).bits) 1 = true ∧ u.latched 19 = true ∧
      u.links.lanes[s.linkLane lane].trainAt = s.master ∧
      u = { s with regs := u.regs, hq := u.hq, sched := u.sched, flt := u.flt, links := { s.links with lanes := u.links.lanes } } ∧
      Quiet (laneOut ++ agreedOut ++ evOut (Ev.mfl (s.linkLane lane)) ++ faultOut 19) s u) ∧
  (∀ (lane : Fin 8) (s : State), s.laneState lane ≠ 1 ∨ s.trainTicks lane < 960000 → NoEffect (.linkFailed lane) s) ∧
  (∀ (lane : Fin 8) (s : State), s.laneState lane = 4 → 32000000 ≤ s.trainTicks lane → Answers (.linkBringupRetry lane) s fun u =>
      (∀ k ∈ s.lanesIn lane, u.laneState k = 1) ∧ u.links.lanes[s.linkLane lane].rxSeq = 0 ∧ u.links.lanes[s.linkLane lane].txSeq = 0 ∧
      u.links.lanes[s.linkLane lane].credit = 32 * s.linkWidth lane ∧ u.links.lanes[s.linkLane lane].replay = [] ∧
      (∀ k, k ∉ s.lanesIn lane → u.links.lanes[k] = s.links.lanes[k]) ∧ u = { s with regs := u.regs, links := u.links } ∧
      Quiet (laneOut ++ agreedOut) s u) ∧
  (∀ (lane : Fin 8) (s : State), s.laneState lane ≠ 4 ∨ s.trainTicks lane < 32000000 → NoEffect (.linkBringupRetry lane) s) ∧
  (∀ (lane : Fin 8) (s : State), s.laneState lane = 2 → s.on F.MFL_CFG_IDLE_EN = true → s.links.lanes[s.linkLane lane].txq = [] →
    s.links.lanes[s.linkLane lane].resend = [] → s.linkBusy lane = false →
    s.links.lanes[s.linkLane lane].usedAt + 3200 * max 1 (s.rd F.MFL_IDLE_US_US) ≤ s.master → Answers (.linkIdleEntry lane) s fun u =>
      (∀ k ∈ s.lanesIn lane, u.laneState k = 3) ∧ (∀ k, k ∉ s.lanesIn lane → u.laneState k = s.laneState k) ∧ RegsOnly s u ∧
      Quiet laneOut s u) ∧
  (∀ (lane : Fin 8) (s : State), s.on F.MFL_CFG_IDLE_EN = false ∨ s.linkBusy lane = true ∨
    s.master < s.links.lanes[s.linkLane lane].usedAt + 3200 * max 1 (s.rd F.MFL_IDLE_US_US) → NoEffect (.linkIdleEntry lane) s) ∧
  (∀ (lane : Fin 8) (s : State), s.laneState lane = 3 → s.links.lanes[s.linkLane lane].txq ≠ [] ∨ s.linkBusy lane = true →
    Answers (.linkIdleExit lane) s fun u =>
      (∀ k ∈ s.lanesIn lane, u.laneState k = 2) ∧ u.links.lanes[s.linkLane lane].need = 1024 ∧
      u = { s with regs := u.regs, links := { s.links with lanes := u.links.lanes } } ∧ Quiet laneOut s u) ∧
  (∀ (lane : Fin 8) (s : State), s.links.lanes[s.linkLane lane].txq = [] → s.linkBusy lane = false →
    (∀ k ∈ s.lanesIn lane, ∀ t ∈ s.links.lanes[k].out, t % 16 ≠ 8) → NoEffect (.linkIdleExit lane) s) ∧
  (∀ (lane : Fin 8) (fom : Nat) (ups : List Int) (s : State), s.laneState lane = 1 ∨ s.laneState lane = 2 → s.rd F.MFL_FOM_CFG_WARN ≤ fom → fom < 256 →
    Answers (.fomWindow lane fom ups) s fun u =>
      u.rd (F.MFL_LANE_STAT_FOM lane) = fom ∧ (∀ k : Fin 12, u.rd (F.MFL_DFE_TAP lane k) = zx 8 (tapStep (decide (fom < s.links.lanes[lane].fomWas))
        (s.rdS (F.MFL_DFE_TAP lane k)) (s.links.lanes[lane].tapWas.getD k (s.rdS (F.MFL_DFE_TAP lane k))) (s.links.lanes[lane].slow.getD k 0)
        (ups.getD k 0)).2.1) ∧
      u.links.lanes[lane] = { s.links.lanes[lane] with
        lowWins := 0, fomWas := fom, tapWas := u.links.lanes[lane].tapWas, slow := u.links.lanes[lane].slow } ∧ u.laneState lane = s.laneState lane ∧
      u = { s with regs := u.regs, links := { s.links with lanes := u.links.lanes } } ∧
      Quiet ((F.MFL_LANE_STAT_FOM lane).addr :: (List.range 12).map fun k => (F.MFL_DFE_TAP lane k).addr) s u) ∧
  (∀ (lane : Fin 8) (fom : Nat) (ups : List Int) (s : State), s.laneState lane = 1 ∨ s.laneState lane = 2 → fom < s.rd F.MFL_FOM_CFG_WARN →
    s.links.lanes[lane].lowWins < 3 → Answers (.fomWindow lane fom ups) s fun u =>
      u.rd (F.MFL_LANE_STAT_FOM lane) = fom ∧ bitOf (u.rd (Ev.mfl lane).bits) 2 = true ∧ u.laneState lane = s.laneState lane) ∧
  (∀ (lane : Fin 8) (fom : Nat) (ups : List Int) (s : State), s.laneState lane = 2 → fom < s.rd F.MFL_FOM_CFG_WARN →
    fom < s.rd F.MFL_FOM_CFG_RETRAIN → 3 ≤ s.links.lanes[lane].lowWins → Answers (.fomWindow lane fom ups) s fun u =>
      u.laneState lane = 1 ∧ bitOf (u.rd (Ev.mfl (s.linkLane lane)).bits) 3 = true) ∧
  (∀ (req : Req) (w : Word) (s : State), s.mayWrite req F.MFL_CFG_LANE_EN.addr w = true → s.clk.absent = false → (∀ k, s.laneState k = 0) →
    w.toNat < 2 ^ 8 →
    Answers (.mflCfgWrite req w) s fun u =>
      u.rd F.MFL_CFG_LANE_EN = w.toNat ∧ u.rd F.MFL_CFG_BOND_A = 0 ∧ u.rd F.MFL_CFG_BOND_B = 0 ∧
      (∀ k : Fin 8, u.laneState k = if bitOf w.toNat k then 1 else 0) ∧
      Quiet (laneOut ++ agreedOut ++ [(F.MFL_CFG_LANE_EN).addr, wseqOut]) s u) ∧
  ∀ (req : Req) (w : Word) (s : State), s.mayWrite req F.MFL_CFG_LANE_EN.addr w = true → (∃ k, s.laneState k = 1 ∨ s.laneState k = 2) →
    fieldOf w.toNat 8 2 ≠ s.rd F.MFL_CFG_BOND_A → Answers (.mflCfgWrite req w) s fun u =>
      u.rd F.MFL_CFG_BOND_A = s.rd F.MFL_CFG_BOND_A ∧ u.rd F.MFL_CFG_BOND_B = s.rd F.MFL_CFG_BOND_B ∧
      u.rd F.MFL_CFG_CFG_BUSY = 1 ∧ u.rd F.MFL_CFG_LANE_EN = w.toNat % 256

/-- R363 to R371: a request joins its port; beyond the usable capacity a read gives zeros and a write is dropped; an accepted write is
applied to the bytes it enables while its write queue has room; a subchannel's slot opens a row, issues the column access of an open
one, and gives way to a refresh at its limit; the data of an issued read is delivered from the SDRAM. -/
def Obligations.SdramRequests : Prop :=
  (∀ (port : Fin 6) (addr : Nat) (data : List Byte) (be deadline : Nat) (s : State), s.sdramBytes < addr / 64 * 64 + 64 →
    Answers (.sdramRequest port false addr data be deadline) s (fun u => u = s.answerWith (List.replicate 64 0)) ∧
    NoEffect (.sdramRequest port true addr data be deadline) s) ∧
  (∀ (port : Fin 6) (addr : Nat) (data : List Byte) (be deadline : Nat) (s : State), addr / 64 * 64 + 64 ≤ s.sdramBytes →
    s.dmc.reqs = [] → s.dmc.waits = [] → Answers (.sdramRequest port false addr data be deadline) s fun u =>
      (∃ r ∈ u.dmc.reqs, u.dmc.reqs = [r] ∧ (port = 0 → r.deadline = deadline) ∧
        r = { port := port, order := s.dmc.next, write := false, addr := addr / 64 * 64, data := data, be := be, arrived := s.now
              deadline := r.deadline }) ∧
      u.dmc.waits = [] ∧ u.dmc.next = s.dmc.next + 1 ∧ u.dmc.subs = s.dmc.subs ∧ u.sdram = s.sdram ∧
      u.rd F.DMC_STATUS_IN_FLIGHT = 1 ∧ u.rd (F.DMC_PORT_STAT_IN_FLIGHT port) = 1 ∧ u = { s with regs := u.regs, dmc := u.dmc } ∧
      Quiet ((F.DMC_STATUS_IN_FLIGHT).addr :: (List.range 6).map fun p => (F.DMC_PORT_STAT_IN_FLIGHT p).addr) s u) ∧
  (∀ (addr : Nat) (data : List Byte) (be deadline : Nat) (s : State), addr / 64 * 64 + 64 ≤ s.sdramBytes → s.dmc.reqs = [] →
    s.dmc.waits = [] → data.length = 64 → s.dmc.subs[fin 4 (s.sdramMap (addr / 64 * 64)).1].writes.length < 32 →
    Answers (.sdramRequest 0 true addr data be deadline) s fun u =>
      (∀ i : Fin 64, Mem.byte u.sdram (addr / 64 * 64 + i) =
        if bitOf be i then data.getD i 0 else Mem.byte s.sdram (addr / 64 * 64 + i)) ∧
      (∀ a, (∀ i : Fin 64, a ≠ addr / 64 * 64 + i) → Mem.byte u.sdram a = Mem.byte s.sdram a) ∧
      u.canopy = s.canopy ∧ u.flash = s.flash ∧ u.host = s.host ∧ u.dmc.reqs = [] ∧
      (u.dmc.subs[fin 4 (s.sdramMap (addr / 64 * 64)).1].writes.length =
        s.dmc.subs[fin 4 (s.sdramMap (addr / 64 * 64)).1].writes.length + 1) ∧
      u.rdP (F.DMC_PORT_BYTES_LO_COUNT 0) = (s.rdP (F.DMC_PORT_BYTES_LO_COUNT 0) + 64) % 2 ^ 64) ∧
  (∀ (sub : Fin 4) (s : State), s.rd F.DMC_STATUS_STATE ≠ 2 → NoEffect (.commandSlot sub) s) ∧
  (∀ (sub : Fin 4) (s : State), s.dmc.subs[sub].alert = true → NoEffect (.commandSlot sub) s) ∧
  (∀ (sub : Fin 4) (r : DmcReq) (s : State), s.rd F.DMC_STATUS_STATE = 2 → s.dmc.subs[sub].alert = false → s.dmc.subs[sub].down = false →
    s.dmc.subs[sub].due = 0 → s.dmc.subs[sub].cals = 0 → s.dmc.subs[sub].writes = [] → s.dmc.reqs = [r] → r.write = false → r.issued = none →
    (s.sdramMap r.addr).1 = sub → s.dmc.subs[sub].row (s.sdramMap r.addr).2.1 = none → Answers (.commandSlot sub) s fun u =>
      u.dmc.subs[sub].rows = ((s.sdramMap r.addr).2.1, (s.sdramMap r.addr).2.2, streamPort r.port) :: s.dmc.subs[sub].rows ∧
      u.dmc.reqs = [{ r with found := true }] ∧
      u.dmc.subs[sub].retry = (⟨0, (s.sdramMap r.addr).2.1, (s.sdramMap r.addr).2.2, r.order, s.tim.raw, 0⟩ :: s.dmc.subs[sub].retry).take 64 ∧
      u.rd (F.DMC_SC_ACTS_COUNT sub) = (s.rd (F.DMC_SC_ACTS_COUNT sub) + 1) % 2 ^ 32 ∧
      (∀ k, k ≠ sub → u.dmc.subs[k] = s.dmc.subs[k]) ∧ u = { s with regs := u.regs, dmc := u.dmc } ∧
      Quiet [(F.DMC_SC_ACTS_COUNT sub).addr] s u) ∧
  (∀ (sub : Fin 4) (r : DmcReq) (held : Bool) (s : State), s.rd F.DMC_STATUS_STATE = 2 → s.dmc.subs[sub].alert = false →
    s.dmc.subs[sub].down = false → s.dmc.subs[sub].due = 0 → s.dmc.subs[sub].cals = 0 → s.dmc.subs[sub].writes = [] → s.dmc.reqs = [r] →
    r.write = false → r.issued = none → (s.sdramMap r.addr).1 = sub →
    s.dmc.subs[sub].row (s.sdramMap r.addr).2.1 = some ((s.sdramMap r.addr).2.2, held) → Answers (.commandSlot sub) s fun u =>
      u.dmc.reqs = [{ r with found := true, issued := some s.tim.raw }] ∧
      u.dmc.subs[sub].retry = (⟨1, (s.sdramMap r.addr).2.1, (s.sdramMap r.addr).2.2, r.order, s.tim.raw, s.sdramCol r.addr⟩ ::
        s.dmc.subs[sub].retry).take 64 ∧
      u.rd (F.DMC_SC_HITS_COUNT sub) = (s.rd (F.DMC_SC_HITS_COUNT sub) + 1) % 2 ^ 32 ∧
      (streamPort r.port = true → u.dmc.subs[sub].row (s.sdramMap r.addr).2.1 = some ((s.sdramMap r.addr).2.2, true)) ∧
      (∀ k, k ≠ sub → u.dmc.subs[k] = s.dmc.subs[k]) ∧ u = { s with regs := u.regs, dmc := u.dmc } ∧
      Quiet [(F.DMC_SC_HITS_COUNT sub).addr] s u) ∧
  (∀ (sub : Fin 4) (s : State), s.rd F.DMC_STATUS_STATE = 2 → s.dmc.subs[sub].alert = false → s.dmc.subs[sub].down = false →
    4 ≤ s.dmc.subs[sub].due → s.sdramBurst = false → Answers (.commandSlot sub) s fun u =>
      u.dmc.subs[sub].due = s.dmc.subs[sub].due - 1 ∧ u.dmc.subs[sub].rows = [] ∧ u.dmc.reqs = s.dmc.reqs ∧
      u.dmc.subs[sub].retry = (⟨4, s.dmc.subs[sub].refBank, 0, 0, s.tim.raw, 0⟩ :: s.dmc.subs[sub].retry).take 64 ∧
      (∀ k, k ≠ sub → u.dmc.subs[k] = s.dmc.subs[k]) ∧ u = { s with dmc := u.dmc }) ∧
  (∀ (port : Fin 6) (r : DmcReq) (s : State), s.dmc.reqs = [r] → r.port = port → r.write = false → r.issued.isSome = true →
    s.dmc.subs[fin 4 (s.sdramMap r.addr).1].alert = false → s.dmc.waits = [] → Answers (.readDataReturn port) s fun u =>
      u.hq.answer = (Mem.bytes s.sdram r.addr 64).map BitVec.toNat ∧ u.dmc.reqs = [] ∧ u.rd F.DMC_STATUS_IN_FLIGHT = 0 ∧
      u.rdP (F.DMC_PORT_BYTES_LO_COUNT port) = (s.rdP (F.DMC_PORT_BYTES_LO_COUNT port) + 64) % 2 ^ 64 ∧ u.dmc.subs = s.dmc.subs ∧
      Quiet ([(F.DMC_STATUS_IN_FLIGHT).addr, (F.DMC_PORT_LAT_MAX_NS port).addr, (F.DMC_PORT_BYTES_LO_COUNT port).addr,
        (F.DMC_PORT_BYTES_LO_COUNT port).addr + 4] ++ (List.range 6).map (fun p => (F.DMC_PORT_STAT_IN_FLIGHT p).addr) ++ evOut Ev.dmc) s u) ∧
  ∀ (port : Fin 6) (s : State), (∀ r ∈ s.dmc.reqs, r.port = port → r.issued = none) → NoEffect (.readDataReturn port) s

/-- R362, R370 to R378: INIT trains a fitted combination and fails another; training that passes makes the SDRAM READY less 1 MiB, one
that fails makes it FAILED with its cause; a retraining waits for nothing and is refused while the SDRAM is in use; refreshes and
calibrations queue; an alert stops a subchannel and its end replays what is unconfirmed; a replay that fails REPLAY_MAX times fails
the controller; rows close when idle and the subchannel powers down. -/
def Obligations.SdramUpkeep : Prop :=
  (∀ s : State, s.rd F.DMC_STATUS_STATE = 0 → s.clk.absent = false → bitOf (s.rd F.PWR_STATUS_RAIL_GOOD) 1 = true → s.badGeometry = false →
    Answers .dmcInit s fun u => u.rd F.DMC_STATUS_STATE = 1 ∧ RegsOnly s u ∧ Quiet [(F.DMC_STATUS_STATE).addr] s u) ∧
  (∀ s : State, s.rd F.DMC_STATUS_STATE = 0 → s.clk.absent = false → bitOf (s.rd F.PWR_STATUS_RAIL_GOOD) 1 = true → s.badGeometry = true →
    Answers .dmcInit s fun u =>
      u.rd F.DMC_STATUS_STATE = 3 ∧ u.rd F.DMC_STATUS_CAUSE = 9 ∧ bitOf (u.rd Ev.dmc.bits) 1 = true ∧ u.latched 20 = true) ∧
  (∀ s : State, s.rd F.DMC_STATUS_STATE ≠ 0 ∨ s.clk.absent = true ∨ bitOf (s.rd F.PWR_STATUS_RAIL_GOOD) 1 = false → NoEffect .dmcInit s) ∧
  (∀ (subs : Nat) (margins : List (Nat × Nat)) (s : State), s.rd F.DMC_STATUS_STATE = 1 → s.dmc.fromFailed = false →
    Answers (.dmcTrainingDone 0 subs margins) s fun u =>
      u.rd F.DMC_STATUS_STATE = 2 ∧ u.rd F.DMC_STATUS_CAUSE = 0 ∧ u.rd F.DMC_GEOM_USABLE_MIB = (s.fittedMib - 1) % 2 ^ 16 ∧
      (∀ k : Fin 4, u.rd (F.DMC_SC_TRAIN_RD_MARGIN k) = (margins.getD k (0, 0)).1 % 256) ∧
      (∀ k : Fin 4, u.rd (F.DMC_SC_TRAIN_WR_MARGIN k) = (margins.getD k (0, 0)).2 % 256) ∧
      bitOf (u.rd Ev.dmc.bits) 0 = true ∧ EventOnly s u ∧
      Quiet ([(F.DMC_STATUS_STATE).addr, (F.DMC_GEOM_USABLE_MIB).addr] ++ (List.range 4).map (fun k => (F.DMC_SC_TRAIN_RD_MARGIN k).addr) ++
        evOut Ev.dmc) s u) ∧
  (∀ (step subs : Nat) (margins : List (Nat × Nat)) (s : State), s.rd F.DMC_STATUS_STATE = 1 → 0 < step → step ≤ 8 → subs < 16 →
    s.classOf 20 < 2 → Answers (.dmcTrainingDone step subs margins) s fun u =>
      u.rd F.DMC_STATUS_STATE = 3 ∧ u.rd F.DMC_STATUS_CAUSE = step ∧ u.rd F.DMC_STATUS_FAIL_SUBCH = subs ∧ u.rd F.DMC_GEOM_USABLE_MIB = 0 ∧
      u.dmc.reqs = [] ∧ u.dmc.waits = [] ∧ bitOf (u.rd Ev.dmc.bits) 1 = true ∧ u.latched 20 = true ∧
      (∀ x ∈ u.forest.segs, x.tier = .sdram → x.loading.isSome = true)) ∧
  (∀ (step subs : Nat) (margins : List (Nat × Nat)) (s : State), s.rd F.DMC_STATUS_STATE ≠ 1 → NoEffect (.dmcTrainingDone step subs margins) s) ∧
  (∀ s : State, s.rd F.DMC_STATUS_STATE = 2 → s.dmc.reqs = [] → (∀ b ∈ s.bursts, s.sdramShare b = false) →
    Answers .dmcRetrain s fun u =>
      u.rd F.DMC_STATUS_STATE = 1 ∧ u.rd F.DMC_GEOM_USABLE_MIB = 0 ∧ u.dmc.fromFailed = false ∧ u.sdram = s.sdram ∧
      u = { s with regs := u.regs, dmc := u.dmc } ∧ Quiet [(F.DMC_STATUS_STATE).addr, (F.DMC_GEOM_USABLE_MIB).addr] s u) ∧
  (∀ s : State, s.dmc.reqs ≠ [] → Answers .dmcRetrain s fun u =>
      bitOf (u.rd Ev.dmc.bits) 6 = true ∧ EventOnly s u ∧ Quiet (evOut Ev.dmc) s u) ∧
  (∀ (sub : Fin 4) (s : State), s.rd F.DMC_STATUS_STATE = 2 → Answers (.refreshInterval sub) s fun u =>
      u.dmc.subs[sub] = { s.dmc.subs[sub] with due := s.dmc.subs[sub].due + 1 } ∧
      u.rd (F.DMC_SC_REF_POSTPONED sub) =
        (if s.dmc.subs[sub].due = 0 then s.rd (F.DMC_SC_REF_POSTPONED sub) else (s.rd (F.DMC_SC_REF_POSTPONED sub) + 1) % 65536) ∧
      (∀ k, k ≠ sub → u.dmc.subs[k] = s.dmc.subs[k]) ∧ u = { s with regs := u.regs, dmc := { s.dmc with subs := u.dmc.subs } } ∧
      Quiet [(F.DMC_SC_REF_POSTPONED sub).addr] s u) ∧
  (∀ (sub : Fin 4) (s : State), s.rd F.DMC_STATUS_STATE ≠ 2 → NoEffect (.refreshInterval sub) s) ∧
  (∀ (sub : Fin 4) (fast : Bool) (s : State), Answers (.mr4Read sub fast false) s fun u =>
      bitOf (u.rd F.DMC_TEMP_REF_2X) sub = fast ∧ bitOf (u.rd F.DMC_TEMP_HOT) sub = false ∧
      (∀ k : Fin 4, k ≠ sub → bitOf (u.rd F.DMC_TEMP_REF_2X) k = bitOf (s.rd F.DMC_TEMP_REF_2X) k ∧
        bitOf (u.rd F.DMC_TEMP_HOT) k = bitOf (s.rd F.DMC_TEMP_HOT) k) ∧ RegsOnly s u ∧ Quiet [(F.DMC_TEMP_HOT).addr] s u) ∧
  (∀ (sub : Fin 4) (fast : Bool) (s : State), s.classOf 22 < 2 → Answers (.mr4Read sub fast true) s fun u =>
      bitOf (u.rd F.DMC_TEMP_REF_2X) sub = true ∧ bitOf (u.rd F.DMC_TEMP_HOT) sub = true ∧ bitOf (u.rd Ev.dmc.bits) 4 = true ∧
      u.latched 22 = true ∧ Quiet ([(F.DMC_TEMP_HOT).addr] ++ evOut Ev.dmc ++ faultOut 22) s u) ∧
  (∀ (sub : Fin 4) (s : State), Answers (.zqCalibration sub) s fun u =>
      u.dmc.subs[sub] = { s.dmc.subs[sub] with cals := s.dmc.subs[sub].cals + 1 } ∧
      (∀ k, k ≠ sub → u.dmc.subs[k] = s.dmc.subs[k]) ∧ u = { s with dmc := { s.dmc with subs := u.dmc.subs } }) ∧
  (∀ (sub : Fin 4) (s : State), Answers (.dqsOscillatorRead sub) s fun u =>
      u.dmc.subs[sub] = { s.dmc.subs[sub] with cals := s.dmc.subs[sub].cals + 1 } ∧
      (∀ k, k ≠ sub → u.dmc.subs[k] = s.dmc.subs[k]) ∧ u = { s with dmc := { s.dmc with subs := u.dmc.subs } }) ∧
  (∀ (sub : Fin 4) (s : State), s.rd F.DMC_STATUS_STATE = 2 → s.dmc.subs[sub].alert = false → s.dmc.subs[sub].replay = none →
    Answers (.alertN sub) s fun u =>
      u.dmc.subs[sub] = { s.dmc.subs[sub] with alert := true, failed := 0
                                               retry := s.dmc.subs[sub].retry.filter fun c => decide (s.tim.raw < c.at_ + alertWindow) } ∧
      (∀ k, k ≠ sub → u.dmc.subs[k] = s.dmc.subs[k]) ∧ u = { s with dmc := { s.dmc with subs := u.dmc.subs } }) ∧
  (∀ (sub : Fin 4) (r : Nat) (s : State), s.rd F.DMC_STATUS_STATE = 2 → s.dmc.subs[sub].alert = false → s.dmc.subs[sub].replay = some r →
    s.tim.raw < r + alertWindow → max 1 (s.rd F.DMC_REPLAY_CFG_REPLAY_MAX) ≤ s.dmc.subs[sub].failed + 1 → s.classOf 21 < 2 →
    Answers (.alertN sub) s fun u =>
      u.rd F.DMC_STATUS_STATE = 3 ∧ u.rd F.DMC_STATUS_CAUSE = 10 ∧ u.rd F.DMC_STATUS_FAIL_SUBCH = 2 ^ sub.1 ∧
      u.rd F.DMC_GEOM_USABLE_MIB = 0 ∧ u.dmc.reqs = [] ∧ u.dmc.waits = [] ∧ bitOf (u.rd Ev.dmc.bits) 3 = true ∧ u.latched 21 = true) ∧
  (∀ (sub : Fin 4) (s : State), s.rd F.DMC_STATUS_STATE ≠ 2 ∨ s.dmc.subs[sub].alert = true → NoEffect (.alertN sub) s) ∧
  (∀ (sub : Fin 4) (s : State), s.dmc.subs[sub].alert = true → Answers (.alertNHigh sub) s fun u =>
      u.dmc.subs[sub].alert = false ∧ u.dmc.subs[sub].replay = some s.tim.raw ∧
      u.dmc.subs[sub].retry = s.dmc.subs[sub].retry.map (fun c => { c with at_ := s.tim.raw }) ∧
      (∀ y ∈ u.dmc.subs[sub].rows, ∃ c ∈ s.dmc.subs[sub].retry, c.bank = y.1 ∧ c.row = y.2.1) ∧
      u.rd F.DMC_REPLAY_CNT_COUNT = min (s.rd F.DMC_REPLAY_CNT_COUNT + 1) 65535 ∧ bitOf (u.rd Ev.dmc.bits) 2 = true ∧
      (∀ k, k ≠ sub → u.dmc.subs[k] = s.dmc.subs[k]) ∧
      u = { s with regs := u.regs, hq := u.hq, sched := u.sched, dmc := u.dmc } ∧ Quiet ((F.DMC_REPLAY_CNT_COUNT).addr :: evOut Ev.dmc) s u) ∧
  (∀ (sub : Fin 4) (s : State), s.dmc.subs[sub].alert = false → NoEffect (.alertNHigh sub) s) ∧
  (∀ (sub : Fin 4) (rank bank : Nat) (s : State), s.candidates sub = [] → Answers (.rowIdleClose sub rank bank) s fun u =>
      u.dmc.subs[sub] = { s.dmc.subs[sub] with rows := s.dmc.subs[sub].rows.filter fun y => y.1 != 16 * rank + bank || y.2.2 } ∧
      (∀ k, k ≠ sub → u.dmc.subs[k] = s.dmc.subs[k]) ∧ u = { s with dmc := { s.dmc with subs := u.dmc.subs } }) ∧
  (∀ (sub : Fin 4) (s : State), s.rd F.DMC_STATUS_STATE = 2 → s.on F.DMC_CTRL_PD_EN = true → s.dmc.reqs = [] → s.dmc.subs[sub].writes = [] →
    s.sdramBurst = false → Answers (.powerDownEntry sub) s fun u =>
      u.dmc.subs[sub] = { s.dmc.subs[sub] with down := true } ∧ (∀ k, k ≠ sub → u.dmc.subs[k] = s.dmc.subs[k]) ∧
      u = { s with dmc := { s.dmc with subs := u.dmc.subs } }) ∧
  ∀ (sub : Fin 4) (s : State), s.on F.DMC_CTRL_PD_EN = false ∨ s.sdramBurst = true → NoEffect (.powerDownEntry sub) s

/-- R392 to R397: a measurement of VIN gives its mean, and a mean below the band's edge lowers the cap at once; after 1 ms above a
higher band's edge the cap rises; below 3.0 V everything but the Understory stops; outside its limits VIN starts the Firebreak; an
input-current limit held stops every running burst; a rail out of range is counted, reported and no longer good. -/
def Obligations.InputSupply : Prop :=
  (∀ (mv ma : Nat) (s : State), s.power.vin = [] → s.rd F.PWR_STATUS_VIN_BAND = 0 → 6000 ≤ mv → mv < 65536 → ma < 65536 →
    Answers (.vinSample mv ma) s fun u =>
      u.rd F.PWR_VIN_VIN_MV = mv ∧ u.rd F.PWR_VIN_IIN_MA = ma ∧ u.rd F.PWR_STATUS_INLIMIT = (if 13000 ≤ ma then 1 else 0) ∧
      u.rd F.PWR_POWER_P_IN = mv * ma / 10000 % 65536 ∧ u.power.vin = [mv] ∧ u.power.present = true ∧ u.rd F.PWR_STATUS_VIN_BAND = 0 ∧
      u = { s with regs := u.regs, power := u.power } ∧
      Quiet [(F.PWR_VIN_VIN_MV).addr, (F.PWR_STATUS_INLIMIT).addr, (F.PWR_POWER_P_IN).addr] s u) ∧
  (∀ (mv ma : Nat) (s : State), s.power.vin = [] → s.rd F.PWR_STATUS_VIN_BAND = 0 → 5500 ≤ mv → mv < 6000 →
    Answers (.vinSample mv ma) s fun u =>
      u.rd F.PWR_STATUS_VIN_BAND = 1 ∧ u.rd F.PWR_CAP_VIN_CAP = 1750 ∧ u.fab.capVin = 1750 ∧
      u.rd F.FAB_GRANT_CEIL = min s.fab.capFab (min s.fab.capTherm 1750) ∧ bitOf (u.rd Ev.pwr.bits) 6 = true) ∧
  (∀ (mv ma : Nat) (s : State), mv < 3000 → s.power.present = true → s.power.vstby = true → Answers (.vinSample mv ma) s fun u =>
      u.power.present = false ∧ u.power.house = false ∧ u.rd F.PWR_STATUS_RAIL_GOOD = 0 ∧ u.flash = s.flash ∧ u.host = s.host ∧
      u.canopy = [] ∧ u.bursts = [] ∧ u.flt.records = s.flt.records ∧ u.power.kept = s.power.kept ∧ u.pending = s.pending ∧
      u.rdP F.PWR_US_TICK_LO_TICK = s.rdP F.PWR_US_TICK_LO_TICK) ∧
  (∀ s : State, s.rd F.PWR_STATUS_VIN_BAND = 1 → 1000 ≤ s.power.rise[0] → Answers .vinCapRise s fun u =>
      u.rd F.PWR_STATUS_VIN_BAND = 0 ∧ u.rd F.PWR_CAP_VIN_CAP = 2000 ∧ u.fab.capVin = 2000 ∧
      u.rd F.FAB_GRANT_CEIL = min s.fab.capFab (min s.fab.capTherm 2000) ∧ bitOf (u.rd Ev.pwr.bits) 6 = true) ∧
  (∀ s : State, (∀ k : Fin 5, s.power.rise[k] < 1000) ∨ s.rd F.PWR_STATUS_VIN_BAND = 0 → NoEffect .vinCapRise s) ∧
  (∀ s : State, s.power.present = true → s.rd F.FLT_STATUS_STATE < 2 → Answers .vinUndervoltage s fun u =>
      u.rd F.FLT_STATUS_STATE = 2 ∧ u.flt.cause = 2 ∧ u.flt.recDue = true ∧ u.flt.frozen = true ∧
      (∀ c : Fin 128, u.chans[c].drv = false ∧ u.chans[c].den = false)) ∧
  (∀ s : State, s.power.present = true → s.rd F.FLT_STATUS_STATE < 2 → Answers .vinOvervoltage s fun u =>
      u.rd F.FLT_STATUS_STATE = 2 ∧ u.flt.cause = 3 ∧ u.flt.recDue = true ∧ u.flt.frozen = true ∧
      (∀ c : Fin 128, u.chans[c].drv = false ∧ u.chans[c].den = false)) ∧
  (∀ s : State, s.power.present = false ∨ 2 ≤ s.rd F.FLT_STATUS_STATE → NoEffect .vinUndervoltage s ∧ NoEffect .vinOvervoltage s) ∧
  (∀ s : State, s.classOf 8 < 2 → (∀ b ∈ s.bursts, b.stage = .running) → Answers .inputLimitExpiry s fun u =>
      u.rd F.PWR_STATUS_INLIMIT = 1 ∧ u.rd F.PWR_ILIM_CNT_COUNT = min (s.rd F.PWR_ILIM_CNT_COUNT + 1) 65535 ∧
      bitOf (u.rd Ev.pwr.bits) 7 = true ∧ u.latched 8 = true ∧
      (∀ b ∈ s.bursts, ((grovesIn b.ops.groves).all fun g => s.groves[g].ended.isSome) = false →
        ∀ t ∈ s.threadsOf b, u.threads[t] = s.threads[t].cut false) ∧
      Quiet ([(F.PWR_STATUS_INLIMIT).addr, (F.PWR_ILIM_CNT_COUNT).addr] ++ evOut Ev.pwr ++ faultOut 8) s u) ∧
  (∀ (r : Fin 7) (s : State), s.classOf 6 < 2 → Answers (.railOutOfRange r) s fun u =>
      bitOf (u.rd F.PWR_STATUS_RAIL_GOOD) r = false ∧
      (∀ k : Fin 7, k ≠ r → bitOf (u.rd F.PWR_STATUS_RAIL_GOOD) k = bitOf (s.rd F.PWR_STATUS_RAIL_GOOD) k) ∧
      u.rd (F.PWR_RAIL_LIM_OUT_CNT r) = min (s.rd (F.PWR_RAIL_LIM_OUT_CNT r) + 1) 65535 ∧ bitOf (u.rd Ev.pwr.bits) 8 = true ∧
      u.latched 6 = true ∧ u = { s with regs := u.regs, hq := u.hq, sched := u.sched, flt := u.flt } ∧
      Quiet ([(F.PWR_STATUS_RAIL_GOOD).addr, (F.PWR_RAIL_LIM_OUT_CNT r).addr] ++ evOut Ev.pwr ++ faultOut 6) s u) ∧
  (∀ (r : Fin 7) (s : State), r ≠ 6 → Answers (.regulatorUpdateLost r) s fun u =>
      u = { s with power := { s.power with holding := s.power.holding ||| 2 ^ r.1 } }) ∧
  ∀ s : State, NoEffect (.regulatorUpdateLost 6) s

/-- R174, R398 to R402: sixteen readings give the decision temperature, the dwells and the wear counts; a flag sets and clears only
after its dwell; LIMIT takes the cap to 0, starts its timer and interrupts every core; CRITICAL raises source 2; the timer's end stops
every burst; the ledger is copied whole. -/
def Obligations.ThermalLimits : Prop :=
  (∀ (readings : List Int) (s : State), s.classOf 7 < 2 → Answers (.temperatureUpdate readings) s fun u =>
      (∀ k : Fin 16, u.power.sensors[k] = s.power.sensors[k].read (readings.getD k 0)) ∧
      u.rd F.PWR_TDEC_TEMP = zx 16 u.power.decision.1 ∧
      u.rd F.PWR_STATUS_VALID_SENS = ((allFin 16).filter fun k => u.power.sensors[k].bad == 0).length ∧
      (∀ k : Fin 3, u.power.above[k] = if thresholdOf k ≤ u.power.decision.1 then s.power.above[k] + 1 else 0) ∧
      (∀ k : Fin 3, u.power.below[k] = if u.power.decision.1 ≤ thresholdOf k - 48 then s.power.below[k] + 1 else 0) ∧
      u.power.flags = s.power.flags ∧ u.rd F.PWR_STATUS_THERM = s.rd F.PWR_STATUS_THERM ∧
      u.rdP F.PWR_WEAR_HOT_LO_US =
        (if 1520 ≤ u.power.decision.1 then (s.rdP F.PWR_WEAR_HOT_LO_US + 1) % 2 ^ 64 else s.rdP F.PWR_WEAR_HOT_LO_US) ∧
      u.rd F.TMG_STATUS_DRIFT = b2n (decide (48 < (u.power.decision.1 - s.rdS F.TMG_CAL_TEMP_TEMP).natAbs)) ∧ BytesSame s u) ∧
  (∀ (k : Fin 3) (s : State), s.power.flags[k] = true ∨ s.power.above[k] < 161 → NoEffect (.thermalFlagSet k) s) ∧
  (∀ s : State, s.power.flags[0] = false → s.power.flags[1] = false → s.power.flags[2] = false → 161 ≤ s.power.above[0] →
    Answers (.thermalFlagSet 0) s fun u =>
      u.rd F.PWR_STATUS_THERM = 1 ∧ u.power.flags[0] = true ∧ u.rd F.PWR_CAP_THERM_CAP = 2000 ∧ bitOf (u.rd Ev.pwr.bits) 0 = true) ∧
  (∀ s : State, s.power.flags[1] = false → s.power.flags[2] = false → 161 ≤ s.power.above[1] → s.waiting = [] →
    Answers (.thermalFlagSet 1) s fun u =>
      u.rd F.PWR_STATUS_THERM = 2 ∧ u.power.flags[1] = true ∧ u.rd F.PWR_CAP_THERM_CAP = 0 ∧ u.rd F.FAB_GRANT_CEIL = 0 ∧
      u.rd F.PWR_STATUS_LIMIT_TIMER = 1 ∧ bitOf (u.rd Ev.pwr.bits) 2 = true ∧
      (∀ c : Fin 8, bitOf (u.rd (F.SCH_NMI_CAUSE_CAUSE c)) 3 = true) ∧ BytesSame s u) ∧
  (∀ s : State, s.power.flags[2] = false → 161 ≤ s.power.above[2] → s.flt.active.contains 2 = false → s.rd F.FLT_STATUS_STATE < 2 →
    Answers (.thermalFlagSet 2) s fun u =>
      u.rd F.PWR_STATUS_THERM = 3 ∧ u.power.flags[2] = true ∧ u.rd F.PWR_STATUS_LIMIT_TIMER = 0 ∧
      u.rd F.PWR_WEAR_CRIT_COUNT = min (s.rd F.PWR_WEAR_CRIT_COUNT + 1) 65535 ∧ bitOf (u.rd Ev.pwr.bits) 4 = true ∧
      u.flt.active.contains 2 = true ∧ u.latched 2 = true ∧ (s.classOf 2 = 4 → u.rd F.FLT_STATUS_STATE = 2)) ∧
  (∀ (k : Fin 3) (s : State), s.power.flags[k] = false ∨ s.power.below[k] < 161 → NoEffect (.thermalFlagClear k) s) ∧
  (∀ s : State, s.power.flags[0] = true → s.power.flags[1] = false → s.power.flags[2] = false → 161 ≤ s.power.below[0] →
    Answers (.thermalFlagClear 0) s fun u =>
      u.rd F.PWR_STATUS_THERM = 0 ∧ u.power.flags[0] = false ∧ bitOf (u.rd Ev.pwr.bits) 1 = true) ∧
  (∀ s : State, s.power.flags[0] = true → s.power.flags[1] = true → s.power.flags[2] = false → 161 ≤ s.power.below[1] →
    Answers (.thermalFlagClear 1) s fun u =>
      u.rd F.PWR_STATUS_THERM = 1 ∧ u.power.flags[1] = false ∧ u.rd F.PWR_STATUS_LIMIT_TIMER = 0 ∧ u.rd F.PWR_CAP_THERM_CAP = 2000 ∧
      u.rd F.FAB_GRANT_CEIL = min s.fab.capFab (min 2000 s.fab.capVin) % 2048 ∧ bitOf (u.rd Ev.pwr.bits) 3 = true) ∧
  (∀ s : State, s.power.flags[1] = true → s.power.flags[2] = true → 161 ≤ s.power.below[2] → Answers (.thermalFlagClear 2) s fun u =>
      u.rd F.PWR_STATUS_THERM = 2 ∧ u.power.flags[2] = false ∧ u.flt.active.contains 2 = false ∧ u.latched 2 = s.latched 2) ∧
  (∀ s : State, s.on F.PWR_STATUS_LIMIT_TIMER = true → (∀ b ∈ s.bursts, b.stage = .running) → Answers .limitTimerExpiry s fun u =>
      u.rd F.PWR_STATUS_LIMIT_TIMER = 0 ∧ bitOf (u.rd Ev.pwr.bits) 5 = true ∧
      (∀ b ∈ s.bursts, ((grovesIn b.ops.groves).all fun g => s.groves[g].ended.isSome) = false →
        ∀ t ∈ s.threadsOf b, u.threads[t] = s.threads[t].cut false) ∧ Quiet ((F.PWR_STATUS_LIMIT_TIMER).addr :: evOut Ev.pwr) s u) ∧
  (∀ s : State, s.on F.PWR_STATUS_LIMIT_TIMER = false → NoEffect .limitTimerExpiry s) ∧
  (∀ s : State, Answers .wearLedgerCopy s fun u => u = { s with power := { s.power with kept := s.ledger } }) ∧
  ∀ s : State, Answers .wearLedgerFlash s fun u => u = { s with power := { s.power with stored := s.ledger } }

/-- R280, R403 to R405: VIN's rise starts the regulators and takes up the ledger; the last rail takes the main die out of reset, which
keeps the keeper domain, flash and host memory; a power-down follows a Firebreak of VIN; RESET_L resets the main die; the Understory
counts seconds, watches residual voltage, and forgets only without both supplies. -/
def Obligations.PowerSequencing : Prop :=
  (∀ s : State, s.power.house = false → s.power.present = true → s.power.kept.hot < 460800000000 → s.power.stored.hot < 460800000000 →
    s.power.kept.crit < 65536 → s.power.stored.crit < 65536 → Answers .vinRise s fun u =>
      u.power.house = true ∧ u.power.cold = true ∧
      u.rdP F.PWR_WEAR_HOT_LO_US = max s.power.kept.hot s.power.stored.hot ∧
      u.rd F.PWR_WEAR_CRIT_COUNT = max s.power.kept.crit s.power.stored.crit ∧ u = { s with regs := u.regs, power := u.power } ∧ BytesSame s u) ∧
  (∀ s : State, s.power.house = true ∨ s.power.present = false → NoEffect .vinRise s) ∧
  (∀ (r : Fin 7) (s : State), s.power.house = true → s.power.cold = false → (∀ k ∈ railOrder.takeWhile (fun k => k != r.1),
    bitOf (s.rd F.PWR_STATUS_RAIL_GOOD) k = true) → Answers (.railGood r) s fun u =>
      bitOf (u.rd F.PWR_STATUS_RAIL_GOOD) r = true ∧
      (∀ k : Fin 7, k ≠ r → bitOf (u.rd F.PWR_STATUS_RAIL_GOOD) k = bitOf (s.rd F.PWR_STATUS_RAIL_GOOD) k) ∧
      u = { s with regs := u.regs, power := u.power } ∧ Quiet [(F.PWR_STATUS_RAIL_GOOD).addr] s u) ∧
  (∀ s : State, s.power.house = true → s.power.cold = true → (∀ k ∈ [0, 5, 4, 3, 2], bitOf (s.rd F.PWR_STATUS_RAIL_GOOD) k = true) →
    Answers (.railGood 1) s fun u =>
      u.power.cold = false ∧ bitOf (u.rd F.PWR_STATUS_RAIL_GOOD) 1 = true ∧ u.bursts = [] ∧ u.canopy = [] ∧ u.sdram = [] ∧
      u.threads = State.reset.threads ∧ u.groves = State.reset.groves ∧ u.flash = s.flash ∧ u.host = s.host ∧ u.pending = s.pending ∧
      u.flt.records = s.flt.records ∧ u.sec.keys = s.sec.keys) ∧
  (∀ s : State, s.power.house = false → NoEffect (.railGood 6) s) ∧
  (∀ s : State, s.power.house = true → s.rd F.FLT_STATUS_STATE = 3 → s.flt.cause = 2 ∨ s.flt.cause = 3 → Answers .powerDown s fun u =>
      u.power.house = false ∧ u.power.cold = true ∧ u.power.stored = s.ledger ∧ u.power.kept = s.ledger ∧
      u.rd F.PWR_STATUS_RAIL_GOOD = 0 ∧ u.flash = s.flash ∧ u.flt.records = s.flt.records ∧ u.pending = s.pending) ∧
  (∀ s : State, s.power.house = false → NoEffect .powerDown s) ∧
  (∀ s : State, s.power.present = true → s.rd F.FLT_STATUS_STATE ≠ 3 → NoEffect .powerDown s) ∧
  (∀ s : State, s.flt.resetLow = false → Answers (.resetL false) s fun u =>
      u.flt.resetLow = true ∧ u.flt.heartbeat = false ∧ u.rd F.FLT_STATUS_HB = 0 ∧ u.bursts = [] ∧ u.canopy = [] ∧ u.sdram = [] ∧
      u.threads = State.reset.threads ∧ u.flash = s.flash ∧ u.host = s.host ∧
      (∀ a, a ∉ railOut → u.word .pwr a = s.word .pwr a) ∧ u.pending = s.pending ∧
      ∀ r ∈ [1, 2, 3, 4, 5], u.rd (F.PWR_RAIL_SET_MV r) = State.reset.rd (F.PWR_RAIL_SET_MV r) ∧
        u.rd (F.PWR_RAIL_LIM_OV_PCT r) = State.reset.rd (F.PWR_RAIL_LIM_OV_PCT r) ∧
        u.rd (F.PWR_RAIL_LIM_UV_PCT r) = State.reset.rd (F.PWR_RAIL_LIM_UV_PCT r)) ∧
  (∀ s : State, s.flt.resetLow = true → Answers (.resetL true) s fun u =>
      u.flt.resetLow = false ∧ u.flt.heartbeat = false ∧ u.bursts = [] ∧ u.flash = s.flash ∧
      ∀ a, a ∉ railOut → u.word .pwr a = s.word .pwr a) ∧
  (∀ (level : Bool) (s : State), level = !s.flt.resetLow → NoEffect (.resetL level) s) ∧
  (∀ s : State, s.power.present = true ∨ s.power.vstby = true → Answers .understoryTick s fun u =>
      u.rdP F.PWR_US_TICK_LO_TICK = (s.rdP F.PWR_US_TICK_LO_TICK + 1) % 2 ^ 64 ∧ RegsOnly s u ∧
      Quiet [(F.PWR_US_TICK_LO_TICK).addr, (F.PWR_US_TICK_LO_TICK).addr + 4] s u) ∧
  (∀ s : State, s.power.present = false → s.power.vstby = false → NoEffect .understoryTick s) ∧
  (∀ s : State, s.power.present = true → Answers .vstbyLoss s fun u => u = { s with power := { s.power with vstby := false } }) ∧
  (∀ s : State, s.power.present = false → Answers .vstbyLoss s fun u =>
      u.power.vstby = false ∧ u.power.lost = true ∧ u.power.kept = {} ∧ u.flt.records = [] ∧ u.sec.keys = State.reset.sec.keys ∧
      u.rdP F.PWR_US_TICK_LO_TICK = 0 ∧ u.rd F.CMP_RESID_STAT_SEEN = 0 ∧ BytesSame s u) ∧
  (∀ s : State, Answers .vstbyReturn s fun u => u = { s with power := { s.power with vstby := true } }) ∧
  (∀ (seen : Nat) (s : State), s.on F.CMP_RESID_CFG_EN = true → s.power.present = false → s.power.vstby = true →
    Answers (.residualWatchTick seen) s fun u =>
      (∀ d : Fin 16, bitOf (u.rd F.CMP_RESID_STAT_SEEN) d = (bitOf (s.rd F.CMP_RESID_STAT_SEEN) d || bitOf seen d)) ∧
      (∀ d : Fin 16, u.rd (F.CMP_RESID_TICK_TICK d) = if bitOf seen d && !bitOf (s.rd F.CMP_RESID_STAT_SEEN) d
        then s.rdP F.PWR_US_TICK_LO_TICK % 2 ^ (F.CMP_RESID_TICK_TICK d).width else s.rd (F.CMP_RESID_TICK_TICK d)) ∧
      RegsOnly s u ∧ Quiet ((F.CMP_RESID_STAT_SEEN).addr :: (List.range 16).map fun d => (F.CMP_RESID_TICK_TICK d).addr) s u) ∧
  ∀ (seen : Nat) (s : State), s.on F.CMP_RESID_CFG_EN = false ∨ s.power.present = true → NoEffect (.residualWatchTick seen) s

/-- R419 to R424, R431: an occurrence latches its source, counts it and acts by its class, RECORD to SAFE_STATE; a dual source is live
while both lines assert it, and a disagreement counts as active with its mismatch bit; a failed check of the collector raises source 0
in the Firebreak itself; a forced source occurs once; HEARTBEAT toggles only while the module is healthy. -/
def Obligations.FaultCollector : Prop :=
  (∀ (i : Fin 96) (s : State), sourceExists i = true → dualSource i = false → s.classOf i = 0 → Answers (.faultOccurrence i) s fun u =>
      u.latched i = true ∧ u.flt.info[i].count = min (s.flt.info[i].count + 1) 65535 ∧ u.flt.info[i].time = s.now ∧
      (∀ k, k ≠ i → u.flt.info[k] = s.flt.info[k]) ∧ (s.latched i = false → bitOf (u.rd Ev.flt.bits) 0 = true) ∧
      (s.noLatch = true → u.rd F.FLT_STATUS_FIRST_SRC = i ∧ u.rd F.FLT_STATUS_FIRST_VALID = 1 ∧ u.rdP F.FLT_FIRST_TIME_LO_TIME = s.now) ∧
      (s.noLatch = false → u.rd F.FLT_STATUS_FIRST_SRC = s.rd F.FLT_STATUS_FIRST_SRC) ∧ u.rd F.FLT_STATUS_STATE = s.rd F.FLT_STATUS_STATE ∧
      u = { s with regs := u.regs, hq := u.hq, sched := u.sched, flt := u.flt } ∧ Quiet (faultOut i) s u) ∧
  (∀ (i : Fin 96) (s : State), sourceExists i = true → dualSource i = false → s.classOf i = 1 → s.latched i = false →
    Answers (.faultOccurrence i) s fun u =>
      u.latched i = true ∧ bitOf (u.rd Ev.flt.bits) 1 = true ∧ u.rd F.FLT_STATUS_STATE = s.rd F.FLT_STATUS_STATE ∧ Quiet (faultOut i) s u) ∧
  (∀ (i : Fin 96) (s : State), sourceExists i = true → dualSource i = false → s.classOf i = 3 → s.rd F.FLT_STATUS_STATE = 0 →
    Answers (.faultOccurrence i) s fun u =>
      u.latched i = true ∧ u.rd F.FLT_STATUS_STATE = 1 ∧ u.flt.cause = 5 ∧ u.flt.causeSrc = i ∧ u.flt.recDue = true ∧
      bitOf (u.rd Ev.flt.bits) 1 = true ∧ bitOf (u.rd Ev.flt.bits) 2 = true ∧ bitOf (u.rd Ev.flt.bits) 3 = true ∧
      (∀ c : Fin 8, bitOf (u.rd (F.SCH_NMI_CAUSE_CAUSE c)) 2 = true) ∧ (∀ b ∈ u.bursts, b.stage = .ended ∨ b.fatal = true) ∧
      u.flt.heartbeat = false) ∧
  (∀ (i : Fin 96) (s : State), sourceExists i = true → dualSource i = false → s.classOf i = 4 → s.rd F.FLT_STATUS_STATE < 2 →
    Answers (.faultOccurrence i) s fun u =>
      u.latched i = true ∧ u.rd F.FLT_STATUS_STATE = 2 ∧ u.flt.cause = 1 ∧ u.flt.causeSrc = i ∧ u.flt.recDue = true) ∧
  (∀ (src : Nat) (s : State), sourceExists src = false ∨ dualSource src = true → NoEffect (.faultOccurrence src) s) ∧
  (∀ (src : Nat) (s : State), dualSource src = true → s.flt.active.contains src = false → Answers (.dualSourceActive src true) s fun u =>
      u.flt.active.contains src = true ∧ bitOf (u.rd (F.FLT_ACTIVE_ACTIVE (src / 32))) (src % 32) = true ∧ u.latched src = true ∧
      (s.classOf src = 4 → s.rd F.FLT_STATUS_STATE < 2 → u.rd F.FLT_STATUS_STATE = 2 ∧ u.flt.cause = 1 ∧ u.flt.causeSrc = src)) ∧
  (∀ (src : Nat) (s : State), dualSource src = true → s.flt.active.contains src = true → NoEffect (.dualSourceActive src true) s) ∧
  (∀ (src : Nat) (s : State), dualSource src = true → Answers (.dualSourceActive src false) s fun u =>
      u.flt.active.contains src = false ∧ bitOf (u.rd (F.FLT_ACTIVE_ACTIVE (src / 32))) (src % 32) = false ∧ u.latched src = s.latched src ∧
      (32 ≤ src → u.rd (F.CMP_LEVEL_MISMATCH (src % 16)) = 0) ∧ u = { s with regs := u.regs, flt := { s.flt with active := u.flt.active } } ∧
      Quiet [(F.FLT_ACTIVE_ACTIVE (src / 32)).addr, (F.CMP_LEVEL_MISMATCH (src % 16)).addr] s u) ∧
  (∀ (src : Nat) (active : Bool) (s : State), dualSource src = false → NoEffect (.dualSourceActive src active) s ∧
    NoEffect (.dualLineMismatch src) s) ∧
  (∀ (src : Nat) (s : State), dualSource src = true → Answers (.dualLineMismatch src) s fun u =>
      bitOf (u.rd (F.FLT_MIS_MIS (src / 32))) (src % 32) = true ∧ bitOf (u.rd Ev.flt.bits) 5 = true ∧ u.latched src = true ∧
      u.flt.active.contains src = true ∧ (32 ≤ src → u.rd (F.CMP_LEVEL_MISMATCH (src % 16)) = 1)) ∧
  (∀ s : State, NoEffect (.collectorScrub true) s) ∧
  (∀ s : State, s.rd F.FLT_STATUS_STATE < 2 → Answers (.collectorScrub false) s fun u =>
      u.latched 0 = true ∧ u.rd F.FLT_STATUS_STATE = 2 ∧ u.flt.cause = 1 ∧ u.flt.causeSrc = 0) ∧
  (∀ s : State, Answers (.collectorLineTest true) s fun u =>
      u.flt.checked = true ∧ u.rd F.FLT_STATUS_HB = b2n u.healthy ∧ u.flt.heartbeat = (s.flt.heartbeat && u.healthy) ∧
      Quiet [(F.FLT_STATUS_HB).addr] s u) ∧
  (∀ s : State, s.rd F.FLT_STATUS_STATE < 2 → Answers (.collectorLineTest false) s fun u =>
      u.latched 0 = true ∧ u.rd F.FLT_STATUS_STATE = 2 ∧ u.flt.cause = 1 ∧ u.flt.causeSrc = 0) ∧
  (∀ (req : Req) (i : Fin 8) (w : Word) (s : State), s.mayWrite req (F.FLT_FORCE_FORCE i).addr w = true → s.on F.FLT_CTRL_TEST_EN = false →
    Answers (.fltForceWrite req i w) s fun u =>
      u.rd (F.FLT_FORCE_FORCE i) = w.toNat ∧ RegsOnly s u ∧ Quiet [(F.FLT_FORCE_FORCE i).addr, wseqOut] s u) ∧
  (∀ (req : Req) (k : Fin 96) (s : State), s.mayWrite req (F.FLT_FORCE_FORCE (k / 32)).addr (BitVec.ofNat 32 (2 ^ (k.1 % 32))) = true →
    s.on F.FLT_CTRL_TEST_EN = true → (∀ j : Fin 8, s.rd (F.FLT_FORCE_FORCE j) = 0) → sourceExists k = true → dualSource k = false →
    s.classOf k = 0 → Answers (.fltForceWrite req (fin 8 (k / 32)) (BitVec.ofNat 32 (2 ^ (k.1 % 32)))) s fun u =>
      u.latched k = true ∧ u.flt.info[k].forced = true ∧ u.flt.info[k].count = min (s.flt.info[k].count + 1) 65535 ∧
      Quiet ([(F.FLT_FORCE_FORCE (k / 32)).addr, wseqOut] ++ faultOut k) s u) ∧
  (∀ s : State, s.healthy = true → Answers .heartbeatToggle s fun u =>
      u = { s with flt := { s.flt with heartbeat := !s.flt.heartbeat } }) ∧
  ∀ s : State, s.healthy = false → Answers .heartbeatToggle s fun u =>
      u.flt.heartbeat = false ∧ u.rd F.FLT_STATUS_HB = 0 ∧ Quiet [(F.FLT_STATUS_HB).addr] s u

/-- R425 to R430, R436, R448: the Firebreak notes its cause, undrives every channel, marks every burst and lists the stages that ramp,
once, and only a lower source of the same 10 ns takes the cause over; each ramp ends, its target at 0 V or for another of its reasons, with its stage open; the record joins the 4 latest; the clearing state ends the commands that wait; a release is
answered by whether its conditions hold, and returns the module to NORMAL or FATAL. -/
def Obligations.FirebreakSequence : Prop :=
  (∀ (cause src : Nat) (s : State), s.rd F.FLT_STATUS_STATE < 2 → Answers (.firebreakStart cause src) s fun u =>
      u.rd F.FLT_STATUS_STATE = 2 ∧ u.flt.cause = cause ∧ u.flt.causeSrc = (if cause = 1 then src else 255) ∧ u.flt.causeTime = s.now ∧
      u.flt.recDue = true ∧ u.flt.frozen = true ∧ u.flt.stopped = true ∧ u.flt.heartbeat = false ∧ u.flt.opened = [] ∧
      u.flt.ramping = ((allFin 16).filter fun (d : Fin 16) => (s.groveOfDsc d).isSome && s.dscMode d != 0).map (·.1) ∧
      (∀ c : Fin 128, u.chans[c].drv = false ∧ u.chans[c].den = false) ∧ (∀ b ∈ u.bursts, b.stage = .ended ∨ b.firebreak = true) ∧
      (∀ c : Fin 8, bitOf (u.rd (F.SCH_NMI_CAUSE_CAUSE c)) 1 = true) ∧ bitOf (u.rd Ev.flt.bits) 4 = true ∧ u.flash = s.flash) ∧
  (∀ (cause src : Nat) (s : State), 2 ≤ s.rd F.FLT_STATUS_STATE → s.flt.recDue = false ∨ sameTenNs s.flt.causeRaw s.tim.raw = false →
    NoEffect (.firebreakStart cause src) s) ∧
  (∀ (src : Nat) (s : State), 2 ≤ s.rd F.FLT_STATUS_STATE → s.flt.recDue = true → sameTenNs s.flt.causeRaw s.tim.raw = true →
    s.flt.cause = 1 → src < s.flt.causeSrc → Answers (.firebreakStart 1 src) s fun u =>
      u.flt = { s.flt with causeSrc := src, mismatch := false, forced := false } ∧
      u = { s with bursts := u.bursts, flt := u.flt }) ∧
  (∀ (d : Fin 16) (reason us : Nat) (s : State), s.flt.ramping.contains d.1 = true → s.dscs[d].tune = none → s.dscs[d].pass = none →
    (reason = 1 ∧ min (s.flt.dscAt.getD d.1 (0, 0, 0)).2.1 (s.rd (F.STR_DSC_V_MAX_MV d)) ≤ ((s.rd (F.DSC_IMG_RAMP_DOWN d) * us : Nat) : Int) ∨
      reason = 2 ∨ reason = 3 ∧ 160 ≤ us) → Answers (.dscRampOpen d reason us) s fun u =>
      u.dscMode d = 0 ∧ u.rd (F.DSC_STATUS_CAUSE d) = 3 ∧ u.flt.ramping = s.flt.ramping.filter (· ≠ d.1) ∧
      u.flt.opened = (d.1, reason, us) :: s.flt.opened ∧ (∀ k, k ≠ d → u.dscs[k] = s.dscs[k]) ∧ BytesSame s u) ∧
  (∀ (d : Fin 16) (reason us : Nat) (s : State), s.flt.ramping.contains d.1 = false ∨
    (reason = 1 → ((s.rd (F.DSC_IMG_RAMP_DOWN d) * us : Nat) : Int) < min (s.flt.dscAt.getD d.1 (0, 0, 0)).2.1 (s.rd (F.STR_DSC_V_MAX_MV d))) ∧
      reason ≠ 2 ∧ (reason = 3 → us < 160) → NoEffect (.dscRampOpen d reason us) s) ∧
  (∀ s : State, s.flt.recDue = true → s.rd F.FLT_STATUS_STATE ≠ 2 ∨ s.flt.ramping = [] → Answers .faultRecordWrite s fun u =>
      u.flt.records = ((s.recordBody ((s.flt.recSeq + 1) % 2 ^ 32) ++ bytesLE 4 (crc32 (s.recordBody ((s.flt.recSeq + 1) % 2 ^ 32)))) ::
        s.flt.records).take 4 ∧
      u.flt.recSeq = (s.flt.recSeq + 1) % 2 ^ 32 ∧ u.flt.recDue = false ∧ u.rd F.FLT_STATUS_CAUSE = s.flt.cause % 8 ∧
      u.rd F.FLT_STATUS_STATE = s.rd F.FLT_STATUS_STATE) ∧
  (∀ s : State, s.flt.recDue = false ∨ s.rd F.FLT_STATUS_STATE = 2 ∧ s.flt.ramping ≠ [] → NoEffect .faultRecordWrite s) ∧
  (∀ s : State, s.rd F.FLT_STATUS_STATE = 2 → s.flt.recDue = false → s.flt.ramping = [] → Answers .clearingStateEntry s fun u =>
      u.rd F.FLT_STATUS_STATE = 3 ∧ u.hq.aer = s.hq.aer ||| 4 ∧ u.flt.heartbeat = false ∧
      (∀ f ∈ s.hq.inFlight, f.begun = false → cutOpc f.opc = true → ⟨f.hdr, cutStatus f.opc, 0, 0, false⟩ ∈ u.hq.compls) ∧
      (∀ f ∈ u.hq.inFlight, cutOpc f.opc = true → f.begun = true) ∧ u.flt.records = s.flt.records) ∧
  (∀ s : State, s.rd F.FLT_STATUS_STATE ≠ 2 ∨ s.flt.recDue = true ∨ s.flt.ramping ≠ [] → NoEffect .clearingStateEntry s) ∧
  (∀ (p : Port) (s : State), s.portReady p 0x47 → s.on F.SEC_STATUS_APPROVED = true → p ≠ .sideband ∨ s.rd F.SEC_STATUS_SB_ROLE ≠ 0 →
    s.releaseOk = true → Answers (.release p) s fun u =>
      Replies s u p stOk approved 0 ∧ u.flt.frozen = false ∧ u.flt.stopped = false ∧ bitOf (u.rd Ev.flt.bits) 6 = true ∧
      (∀ i : Fin 96, s.classOf i = 4 → u.latched i = false) ∧ (∀ i : Fin 96, s.classOf i ≠ 4 → u.latched i = s.latched i) ∧
      u.rd F.FLT_STATUS_STATE = (if ∃ i : Fin 96, s.latched i = true ∧ s.classOf i = 3 then 1 else 0)) ∧
  (∀ (p : Port) (s : State), s.portReady p 0x47 → s.on F.SEC_STATUS_APPROVED = true → p ≠ .sideband ∨ s.rd F.SEC_STATUS_SB_ROLE ≠ 0 →
    s.rd F.FLT_STATUS_STATE = 3 → s.releaseOk = false → Answers (.release p) s fun u =>
      Replies s u p 0x0D approved 0 ∧ u.rd F.FLT_STATUS_STATE = 3 ∧ u.flt = s.flt ∧ bitOf (u.rd Ev.flt.bits) 7 = true ∧
      Quiet (evOut Ev.flt) s u) ∧
  (∀ (p : Port) (s : State), s.portReady p 0x47 → s.on F.SEC_STATUS_APPROVED = true → p ≠ .sideband ∨ s.rd F.SEC_STATUS_SB_ROLE ≠ 0 →
    s.rd F.FLT_STATUS_STATE ≠ 3 → Answers (.release p) s fun u => Replies s u p 0x0E approved 0 ∧ u = { s with hq := u.hq }) ∧
  ∀ s : State, s.portReady .sideband 0x47 → s.rd F.SEC_STATUS_SB_ROLE = 0 → Answers (.release .sideband) s fun u =>
      Replies s u .sideband stRoleDenied 0 0 ∧ u = { s with hq := u.hq }

/-- R442 to R446: AUTH_BEGIN answers a fresh nonce of 48 drawn bytes, is turned away in lockout or without a key; AUTH_FINISH spends the
nonce, gives the role where the signature verifies, and counts a failure, the eighth in a row locking the port out; a logout, a nonce's
10 s and a lockout's 60 s each end one thing. -/
def Obligations.Sessions : Prop :=
  (∀ (h : Hdr) (role keyIndex dest key : Nat) (s : State), s.portReady (.host h) 0x40 → role = 1 ∧ keyIndex ≤ 7 ∨ role = 2 ∧ keyIndex = 0 →
    s.on F.SEC_STATUS_APPROVED = true → s.on F.SEC_STATUS_LOCKOUT_HOST = false → s.roleKey role keyIndex = some key →
    Answers (.authBegin (.host h) role keyIndex dest) s fun u =>
      u.sec.hostNonce = some ⟨role, keyIndex, (List.range 48).map fun i => Config.drbgByte (s.sec.drawn + i), false⟩ ∧
      (∀ i : Fin 48, Mem.byte u.host (dest + i) = Config.drbgByte (s.sec.drawn + i)) ∧
      (∀ a, a < dest ∨ dest + 48 ≤ a → Mem.byte u.host a = Mem.byte s.host a) ∧ Completes s u h stOk approved 0 ∧
      u.rd F.SEC_DRBG_RESEEDS = (s.rd F.SEC_DRBG_RESEEDS + 1) % 2 ^ 32 ∧ u.sec.sbNonce = s.sec.sbNonce ∧
      u.rd F.SEC_STATUS_HOST_ROLE = s.rd F.SEC_STATUS_HOST_ROLE) ∧
  (∀ (role keyIndex dest key : Nat) (s : State), s.portReady .sideband 0x40 → role = 1 ∧ keyIndex ≤ 7 ∨ role = 2 ∧ keyIndex = 0 →
    s.on F.SEC_STATUS_APPROVED = true → s.on F.SEC_STATUS_LOCKOUT_SB = false → s.roleKey role keyIndex = some key →
    Answers (.authBegin .sideband role keyIndex dest) s fun u =>
      u.sec.sbNonce = some ⟨role, keyIndex, (List.range 48).map fun i => Config.drbgByte (s.sec.drawn + i), false⟩ ∧
      u.hq.answer = [stOk, 0, approved] ++ (List.range 48).map (fun i => (Config.drbgByte (s.sec.drawn + i)).toNat) ∧ u.host = s.host ∧
      u.sec.hostNonce = s.sec.hostNonce) ∧
  (∀ (p : Port) (role keyIndex dest : Nat) (s : State), s.portReady p 0x40 → ¬(role = 1 ∧ keyIndex ≤ 7 ∨ role = 2 ∧ keyIndex = 0) →
    Answers (.authBegin p role keyIndex dest) s fun u => Replies s u p stBadOperand 0 0 ∧ u = { s with hq := u.hq }) ∧
  (∀ (p : Port) (role keyIndex dest : Nat) (s : State), s.portReady p 0x40 → role = 1 ∧ keyIndex ≤ 7 ∨ role = 2 ∧ keyIndex = 0 →
    s.on F.SEC_STATUS_APPROVED = true → s.on (portLockout p) = true → Answers (.authBegin p role keyIndex dest) s fun u =>
      Replies s u p 0x03 approved 0 ∧ u = { s with hq := u.hq }) ∧
  (∀ (p : Port) (role keyIndex dest : Nat) (s : State), s.portReady p 0x40 → role = 1 ∧ keyIndex ≤ 7 ∨ role = 2 ∧ keyIndex = 0 →
    s.on F.SEC_STATUS_APPROVED = true → s.on (portLockout p) = false → s.roleKey role keyIndex = none →
    Answers (.authBegin p role keyIndex dest) s fun u => Replies s u p 0x04 approved 0 ∧ u = { s with hq := u.hq }) ∧
  (∀ (p : Port) (sig : Src) (l : List Byte) (n : Nonce) (s : State), s.portReady p 0x41 → s.sourceOk sig 96 = true →
    s.source sig 96 = some l → s.on F.SEC_STATUS_APPROVED = true → s.nonceOf p = some n → Answers (.authFinish p sig) s fun u =>
      u.nonceOf p = none ∧
      (if !n.expired && ((s.roleKey n.role n.index).any fun k => ecdsaVerify k (authMessage p n) l) then
        Replies s u p stOk approved n.role ∧ u.rd (portRole p) = n.role % 4 ∧ u.failsOf p = 0 ∧ bitOf (u.rd Ev.sec.bits) 0 = true
      else
        Replies s u p 0x01 approved 0 ∧ u.rd (portRole p) = s.rd (portRole p) ∧ u.failsOf p = s.failsOf p + 1 ∧
        u.rd F.SEC_AUTH_FAIL_COUNT = min (s.rd F.SEC_AUTH_FAIL_COUNT + 1) 65535 ∧ bitOf (u.rd Ev.sec.bits) 1 = true ∧
        (7 ≤ s.failsOf p → u.on (portLockout p) = true ∧ bitOf (u.rd Ev.sec.bits) 9 = true))) ∧
  (∀ (p : Port) (sig : Src) (l : List Byte) (s : State), s.portReady p 0x41 → s.sourceOk sig 96 = true → s.source sig 96 = some l →
    s.on F.SEC_STATUS_APPROVED = true → s.nonceOf p = none → Answers (.authFinish p sig) s fun u =>
      Replies s u p 0x02 approved 0 ∧ u = { s with hq := u.hq }) ∧
  (∀ (p : Port) (s : State), s.portReady p 0x42 → s.on F.SEC_STATUS_APPROVED = true → Answers (.logout p) s fun u =>
      Replies s u p stOk approved 0 ∧ u.rd (portRole p) = 0 ∧ u = { s with regs := u.regs, hq := u.hq } ∧ Quiet [(portRole p).addr] s u) ∧
  (∀ (p : Port) (s : State), s.portReady p 0x42 → s.on F.SEC_STATUS_APPROVED = false → Answers (.logout p) s fun u =>
      Replies s u p (if s.rd F.SEC_STATUS_LIFECYCLE = 4 then 0x0F else 0x05) 0 0 ∧ u = { s with hq := u.hq }) ∧
  (∀ s : State, Answers (.nonceExpiry false) s fun u =>
      u = { s with sec := { s.sec with hostNonce := s.sec.hostNonce.map fun n => { n with expired := true } } }) ∧
  (∀ s : State, Answers (.nonceExpiry true) s fun u =>
      u = { s with sec := { s.sec with sbNonce := s.sec.sbNonce.map fun n => { n with expired := true } } }) ∧
  (∀ s : State, Answers (.lockoutExpiry false) s fun u =>
      u.rd F.SEC_STATUS_LOCKOUT_HOST = 0 ∧ u.rd F.SEC_STATUS_LOCKOUT_SB = s.rd F.SEC_STATUS_LOCKOUT_SB ∧ RegsOnly s u ∧
      Quiet [(F.SEC_STATUS_LOCKOUT_HOST).addr] s u) ∧
  ∀ s : State, Answers (.lockoutExpiry true) s fun u =>
      u.rd F.SEC_STATUS_LOCKOUT_SB = 0 ∧ u.rd F.SEC_STATUS_LOCKOUT_HOST = s.rd F.SEC_STATUS_LOCKOUT_HOST ∧ RegsOnly s u ∧
      Quiet [(F.SEC_STATUS_LOCKOUT_SB).addr] s u

/-- R450 to R458: a provisioning block is judged by its form, then its signature, and what passes makes the module PROVISIONED; a content
key enters an empty slot under the name the block gives and leaves it only when no segment uses it; zeroisation, a debug unlock and a
tamper event erase the keys and the roles, a tamper event starting the Firebreak and recording its cause. -/
def Obligations.KeysAndZeroisation : Prop :=
  (∀ (h : Hdr) (block : Src) (length dest : Nat) (l : List Byte) (s : State), s.portReady (.host h) 0x43 → s.sourceOk block length = true →
    s.source block length = some l → s.on F.SEC_STATUS_APPROVED = true → Answers (.provision h block length dest) s fun u =>
      u.rd F.SEC_DRBG_RESEEDS = (s.rd F.SEC_DRBG_RESEEDS + 1) % 2 ^ 32 ∧
      (if provGood l = false then Completes s u h 0x06 approved 0 ∧ u.rd F.SEC_STATUS_LIFECYCLE = s.rd F.SEC_STATUS_LIFECYCLE ∧ u.host = s.host
      else if s.provSigned l = false then
        Completes s u h 0x07 approved 0 ∧ u.rd F.SEC_STATUS_LIFECYCLE = s.rd F.SEC_STATUS_LIFECYCLE ∧ u.host = s.host
      else
        Completes s u h stOk approved 0 ∧ u.rd F.SEC_STATUS_LIFECYCLE = 2 ∧ u.rd F.SEC_STATUS_TAMPERED = 0 ∧
        u.rd F.SEC_POLICY_PERMIT = leAt l 0x10 4 % 32 ∧ u.sec.owner = some (leAt l 0x18 96) ∧ u.sec.so = some (leAt l 0x78 96) ∧
        bitOf (u.rd Ev.sec.bits) 8 = true)) ∧
  (∀ (h : Hdr) (block : Src) (length dest : Nat) (s : State), s.portReady (.host h) 0x43 → s.sourceOk block length = false →
    Answers (.provision h block length dest) s fun u => Completes s u h stBadOperand 0 0 ∧ u = { s with hq := u.hq }) ∧
  (∀ (h : Hdr) (block : Src) (l : List Byte) (s : State), s.portReady (.host h) 0x44 → s.sourceOk block 160 = true →
    s.source block 160 = some l → s.on F.SEC_STATUS_APPROVED = true → s.rd F.SEC_STATUS_LIFECYCLE = 2 → leAt l 0x60 2 < 64 →
    leAt l 0x62 2 = 0 → leAt l 0x64 4 = 0 → s.contentKey (leAt l 0x60 2) = none → Answers (.keyLoad h block) s fun u =>
      match s.unwrapKey l with
      | none => Completes s u h 0x08 approved 0 ∧ u = { s with hq := u.hq }
      | some key =>
        Completes s u h stOk approved (leAt l 0x60 2) ∧ u.contentKey (leAt l 0x60 2) = some key ∧
        bitOf (u.rd (F.SEC_SLOT_MAP_LOADED (leAt l 0x60 2 / 32))) (leAt l 0x60 2 % 32) = true ∧ bitOf (u.rd Ev.sec.bits) 5 = true ∧
        u.rd (F.SEC_MR_CNT_COUNT 7) = (s.rd (F.SEC_MR_CNT_COUNT 7) + 1) % 2 ^ 32 ∧
        u.sec.mr[7] = sha384 (bytesLE 48 s.sec.mr[7] ++ shaBytes ((l.drop 0x60).take 16)) ∧
        (∀ k, k ≠ leAt l 0x60 2 → cellGet k u.sec.names = cellGet k s.sec.names)) ∧
  (∀ (h : Hdr) (block : Src) (l : List Byte) (s : State), s.portReady (.host h) 0x44 → s.sourceOk block 160 = true →
    s.source block 160 = some l → s.on F.SEC_STATUS_APPROVED = true → s.rd F.SEC_STATUS_LIFECYCLE = 2 → leAt l 0x60 2 < 64 →
    leAt l 0x62 2 = 0 → leAt l 0x64 4 = 0 → (s.contentKey (leAt l 0x60 2)).isSome = true → Answers (.keyLoad h block) s fun u =>
      Completes s u h 0x09 approved 0 ∧ u = { s with hq := u.hq }) ∧
  (∀ (h : Hdr) (slot : Nat) (s : State), s.portReady (.host h) 0x45 → s.on F.SEC_STATUS_APPROVED = true → slot < 64 →
    (s.contentKey slot).isSome = true → (∀ x ∈ s.forest.segs, x.keySlot ≠ slot) → Answers (.keyErase h slot) s fun u =>
      Completes s u h stOk approved 0 ∧ u.contentKey slot = none ∧
      bitOf (u.rd (F.SEC_SLOT_MAP_LOADED (slot / 32))) (slot % 32) = false ∧ bitOf (u.rd Ev.sec.bits) 5 = true ∧
      u.rd (F.SEC_MR_CNT_COUNT 7) = (s.rd (F.SEC_MR_CNT_COUNT 7) + 1) % 2 ^ 32) ∧
  (∀ (h : Hdr) (slot : Nat) (s : State), s.portReady (.host h) 0x45 → s.on F.SEC_STATUS_APPROVED = true → slot < 64 →
    (s.contentKey slot).isSome = true → (∃ x ∈ s.forest.segs, x.keySlot = slot) → Answers (.keyErase h slot) s fun u =>
      Completes s u h 0x0A approved 0 ∧ u = { s with hq := u.hq }) ∧
  (∀ (h : Hdr) (slot : Nat) (s : State), s.portReady (.host h) 0x45 → s.on F.SEC_STATUS_APPROVED = true →
    64 ≤ slot ∨ s.contentKey slot = none → Answers (.keyErase h slot) s fun u => Completes s u h 0x0B approved 0 ∧ u = { s with hq := u.hq }) ∧
  (∀ (h : Hdr) (s : State), s.portReady (.host h) 0x46 → s.on F.SEC_STATUS_APPROVED = true → s.bursts = [] → s.sec.zero = [] →
    Answers (.zeroise h) s fun u =>
      Completes s u h stOk approved 0 ∧ u.sec.keys = [] ∧ u.sec.so = none ∧ u.sec.operators = [] ∧ u.sec.identity = false ∧
      u.sec.transport = none ∧ u.sec.ownerHash = s.sec.ownerHash ∧ u.rd F.SEC_STATUS_LIFECYCLE = 1 ∧ u.rd F.SEC_STATUS_HOST_ROLE = 0 ∧
      u.rd F.SEC_STATUS_SB_ROLE = 0 ∧ u.rd (F.SEC_SLOT_MAP_LOADED 0) = 0 ∧ u.rd (F.SEC_SLOT_MAP_LOADED 1) = 0 ∧ bitOf (u.rd Ev.sec.bits) 3 = true) ∧
  (∀ (h : Hdr) (b : Burst) (s : State), s.portReady (.host h) 0x46 → s.on F.SEC_STATUS_APPROVED = true → s.bursts = [b] → b.stage = .running →
    ((grovesIn b.ops.groves).all fun g => s.groves[g].ended.isSome) = false → Answers (.zeroise h) s fun u =>
      u.sec = { s.sec with zero := s.sec.zero ++ [(h, false)] } ∧ u.hq.compls = s.hq.compls ∧
      (∀ t ∈ s.threadsOf b, u.threads[t] = s.threads[t].cut true)) ∧
  (∀ (h : Hdr) (s : State), s.portReady (.host h) 0x4A → s.on F.SEC_STATUS_APPROVED = true → s.bursts = [] →
    Answers (.debugUnlock h 0x55474244) s fun u =>
      Completes s u h stOk approved 0 ∧ u.sec.keys = [] ∧ u.sec.identity = false ∧ u.rd F.SEC_STATUS_LIFECYCLE = 3 ∧
      u.rd F.SEC_STATUS_APPROVED = 0 ∧ u.rd F.SEC_STATUS_HOST_ROLE = 0 ∧ bitOf (u.rd Ev.sec.bits) 7 = true) ∧
  (∀ (h : Hdr) (s : State), s.portReady (.host h) 0x4A → s.on F.SEC_STATUS_APPROVED = true → s.bursts ≠ [] →
    Answers (.debugUnlock h 0x55474244) s fun u => Completes s u h 0x0C approved 0 ∧ u = { s with hq := u.hq }) ∧
  (∀ (h : Hdr) (confirm : Nat) (s : State), s.portReady (.host h) 0x4A → confirm ≠ 0x55474244 → Answers (.debugUnlock h confirm) s fun u =>
      Completes s u h stBadOperand 0 0 ∧ u = { s with hq := u.hq }) ∧
  (∀ (kind : Fin 4) (s : State), s.power.present = true → s.rd F.FLT_STATUS_STATE < 2 → Answers (.tamperEvent kind) s fun u =>
      u.rd ⟨.sec, 0xE80A0, kind, 1⟩ = 1 ∧ u.rd F.SEC_TAMPER_TICK_TICK = s.rdP F.PWR_US_TICK_LO_TICK % 2 ^ 32 ∧ u.sec.keys = [] ∧
      u.sec.identity = false ∧ u.rd F.SEC_STATUS_LIFECYCLE = 1 ∧ u.rd F.SEC_STATUS_TAMPERED = 1 ∧ u.rd F.SEC_STATUS_HOST_ROLE = 0 ∧
      bitOf (u.rd Ev.sec.bits) 2 = true ∧ u.rd F.FLT_STATUS_STATE = 2 ∧ u.flt.cause = 4 ∧
      (∀ f ∈ u.hq.inFlight, f.opc = 0x43 ∨ f.opc = 0x44 → f.begun = true)) ∧
  ∀ (kind : Nat) (s : State), 3 < kind → NoEffect (.tamperEvent kind) s

/-- R154, R437, R447, R460 to R466, R481: a quote is its body and a signature of it in host memory; random bytes are drawn in order;
a failed test puts the boundary in ERROR; code enters the Canopy only under a signature that verifies; the SPDM answers need the tests
passed; the test access port loads BYPASS in place of what the lifecycle forbids; the sideband reads its set and resets with a role. -/
def Obligations.AttestationServices : Prop :=
  (∀ (h : Hdr) (dest mask : Nat) (nonce : List Byte) (s : State), s.portReady (.host h) 0x48 → s.on F.SEC_STATUS_APPROVED = true →
    s.sec.identity = true → Answers (.quote h dest nonce mask) s fun u =>
      Completes s u h stOk approved 0 ∧ (∀ i : Fin 480, Mem.byte u.host (dest + i) = (s.quoteBody nonce mask).getD i 0) ∧
      (∀ i : Fin 96, Mem.byte u.host (dest + 480 + i) = (ecdsaSign identityKey (s.quoteBody nonce mask)).getD i 0) ∧
      (∀ a, a < dest ∨ dest + 576 ≤ a → Mem.byte u.host a = Mem.byte s.host a) ∧ u = { s with hq := u.hq, host := u.host }) ∧
  (∀ (h : Hdr) (fails : Nat) (s : State), s.portReady (.host h) 0x49 → fails % 256 = 0 → s.on F.SEC_STATUS_APPROVED = true →
    Answers (.selfTest h fails) s fun u =>
      Completes s u h stOk approved (s.rd F.SEC_ST_RESULT_FAILS / 256 * 256) ∧
      u.rd F.SEC_ST_RESULT_FAILS = s.rd F.SEC_ST_RESULT_FAILS / 256 * 256 ∧ Quiet [(F.SEC_ST_RESULT_FAILS).addr] s u) ∧
  (∀ (h : Hdr) (fails : Nat) (s : State), s.portReady (.host h) 0x49 → fails % 256 ≠ 0 → Answers (.selfTest h fails) s fun u =>
      u.rd F.SEC_STATUS_LIFECYCLE = 4 ∧ u.rd F.SEC_STATUS_APPROVED = 0 ∧ bitOf (u.rd Ev.sec.bits) 4 = true ∧ u.latched 23 = true ∧
      u.rd F.SEC_ST_RESULT_FAILS % 256 = fails % 256 ∧ (⟨h, stOk, if s.on F.SEC_STATUS_APPROVED then approved else 0,
        u.rd F.SEC_ST_RESULT_FAILS, false⟩ : Compl) ∈ u.hq.compls) ∧
  (∀ (h : Hdr) (dest len : Nat) (s : State), s.portReady (.host h) 0x4B → 0 < len → len ≤ 4096 → s.on F.SEC_STATUS_APPROVED = true →
    s.sec.requests < 2 ^ 20 → Answers (.random h dest len false) s fun u =>
      Completes s u h stOk approved 0 ∧ (∀ i, i < len → Mem.byte u.host (dest + i) = Config.drbgByte (s.sec.drawn + i)) ∧
      (∀ a, a < dest ∨ dest + len ≤ a → Mem.byte u.host a = Mem.byte s.host a) ∧
      u.sec = { s.sec with drawn := s.sec.drawn + len, requests := s.sec.requests + 1 } ∧
      u = { s with hq := u.hq, host := u.host, sec := u.sec }) ∧
  (∀ (h : Hdr) (dest len : Nat) (fail : Bool) (s : State), s.portReady (.host h) 0x4B → len = 0 ∨ 4096 < len →
    Answers (.random h dest len fail) s fun u => Completes s u h stBadOperand 0 0 ∧ u = { s with hq := u.hq }) ∧
  (∀ (h : Hdr) (dest len : Nat) (s : State), s.portReady (.host h) 0x4B → 0 < len → len ≤ 4096 → s.on F.SEC_STATUS_APPROVED = true →
    Answers (.random h dest len true) s fun u =>
      (⟨h, 0x0F, 0, 0, false⟩ : Compl) ∈ u.hq.compls ∧ u.rd F.SEC_STATUS_LIFECYCLE = 4 ∧ u.rd F.SEC_STATUS_APPROVED = 0 ∧
      bitOf (u.rd F.SEC_ST_RESULT_FAILS) 9 = true ∧ u.latched 23 = true ∧ u.sec.drawn = s.sec.drawn) ∧
  (∀ (h : Hdr) (src sig : Src) (length codeId coreMask p : Nat) (l g : List Byte) (s : State), s.canBegin h 0x13 → 0 < length →
    length % canopyPage = 0 → s.sourceOk src length = true → s.sourceOk sig 112 = true → s.source src length = some l →
    s.source sig 112 = some g → s.forest.code = [] → s.forest.evacs = [] → s.canopyRun 0 (length / canopyPage) = some p →
    Answers (.codeLoad h src length codeId coreMask false sig) s fun u =>
      if ecdsaVerify Config.firmwareKey (l ++ bytesLE 2 codeId ++ bytesLE 1 coreMask ++ bytesLE 1 0) ((g.drop 16).take 96) then
        Completes s u h stOk 0 0 ∧ (∀ i, i < length → Mem.byte u.canopy (p * canopyPage + i) = l.getD i 0) ∧
        u.forest.code = (List.range (length / canopyPage)).map (fun i => (⟨p + i, codeId, coreMask, false⟩ : CodePage)) ∧
        (∀ c : Fin 8, bitOf coreMask c = true → u.sched.cores[c].icacheValid = false) ∧
        u.rd (F.SEC_MR_CNT_COUNT 3) = (s.rd (F.SEC_MR_CNT_COUNT 3) + 1) % 2 ^ 32
      else Completes s u h 0x0B coreMask 0 ∧ u = { s with hq := u.hq }) ∧
  (∀ (h : Hdr) (src sig : Src) (length codeId coreMask : Nat) (s : State), s.canBegin h 0x13 → 0 < length → length % canopyPage = 0 →
    s.sourceOk src length = true → s.sourceOk sig 112 = true → s.secOpt 0 = false →
    Answers (.codeLoad h src length codeId coreMask true sig) s fun u => Completes s u h 0x0A coreMask 0 ∧ u = { s with hq := u.hq }) ∧
  (∀ s : State, s.on F.SEC_STATUS_ST_DONE = true → s.rd F.SEC_STATUS_LIFECYCLE ≠ 4 →
    Answers .getVersion s (fun u => u = s.answerWith [0x12]) ∧
    Answers .getCapabilities s (fun u => u = s.answerWith u.hq.answer ∧ u.hq.answer.length = 1) ∧
    (∀ offer, Answers (.negotiateAlgorithms offer) s fun u => u = s.answerWith u.hq.answer ∧ u.hq.answer.length = 2) ∧
    Answers .getDigests s (fun u => u = s.answerWith (1 :: (shaBytes s.chain).map (·.toNat))) ∧
    (∀ off len, Answers (.getCertificate off len) s fun u => u = s.answerWith (((s.chain.drop off).take len).length ::
      (s.chain.length - off - ((s.chain.drop off).take len).length) :: ((s.chain.drop off).take len).map (·.toNat))) ∧
    Answers (.getMeasurements 0 false []) s (fun u => u = s.answerWith [8]) ∧
    (∀ r : Fin 8, Answers (.getMeasurements (r + 1) false []) s fun u =>
      u = s.answerWith ((r.1 + 1) :: (bytesLE 48 s.sec.mr[r]).map (·.toNat)))) ∧
  (∀ (nonce : List Byte) (s : State), s.on F.SEC_STATUS_ST_DONE = true → s.rd F.SEC_STATUS_LIFECYCLE ≠ 4 → s.rd F.SEC_STATUS_LIFECYCLE ≠ 3 →
    s.sec.identity = true → Answers (.challenge nonce) s fun u =>
      u = s.answerWith ((shaBytes s.chain ++ nonce.take 32 ++ ecdsaSign identityKey (shaBytes s.chain ++ nonce.take 32)).map (·.toNat))) ∧
  (∀ (nonce : List Byte) (s : State), s.on F.SEC_STATUS_ST_DONE = false ∨ s.rd F.SEC_STATUS_LIFECYCLE = 4 →
    Answers .getVersion s (fun u => u = s.answerWith [0x7F]) ∧ Answers (.challenge nonce) s (fun u => u = s.answerWith [0x7F])) ∧
  (∀ (ir : Nat) (s : State), s.tapPermits ir = true → Answers (.tapInstruction ir) s fun u => u = { s with tap := ir }) ∧
  (∀ (ir : Nat) (s : State), s.tapPermits ir = false → Answers (.tapInstruction ir) s fun u =>
      u.tap = 0 ∧ bitOf (u.rd Ev.sec.bits) 6 = true ∧ Quiet (evOut Ev.sec) s u) ∧
  (∀ (off : Nat) (s : State), sidebandSet off = true → Answers (.sidebandRead off 1) s fun u =>
      u.hq.answer = [0, (s.readWord .sideband off).1] ∧ BytesSame s u) ∧
  (∀ (off : Nat) (s : State), sidebandSet off = false → Answers (.sidebandRead off 1) s fun u => u = s.answerWith [1, 0]) ∧
  (∀ (off count : Nat) (s : State), count = 0 ∨ 16 < count → NoEffect (.sidebandRead off count) s) ∧
  (∀ s : State, s.rd F.SEC_STATUS_SB_ROLE = 0 → Answers .sidebandReset s fun u => u = s.answerWith [1]) ∧
  ∀ s : State, s.rd F.SEC_STATUS_SB_ROLE ≠ 0 → Answers .sidebandReset s fun u =>
      u.hq.answer = [0] ∧ u.bursts = [] ∧ u.canopy = [] ∧ u.sdram = [] ∧ u.threads = State.reset.threads ∧ u.flash = s.flash ∧
      u.host = s.host ∧ u.regs.pwr = s.regs.pwr ∧ u.sec.keys = s.sec.keys ∧ u.rd F.SEC_STATUS_SB_ROLE = s.rd F.SEC_STATUS_SB_ROLE ∧
      u.pending = s.pending

/-- R40, R41, R60 to R68: a load is staged, validated, planned, quiesced and swapped in that order, each stage entered from the one
before; what fails leaves the structure in force, names its flaw and completes the command; the swap puts the staged image in force and
measures it; a parity error of the store is a fault. -/
def Obligations.StructureLoads : Prop :=
  (∀ (h : Hdr) (src : Src) (length : Nat) (img : List Byte) (s : State), s.canBegin h 0x10 → s.sourceOk src length = true →
    s.source src length = some img → s.rd F.STR_STATUS_STATE < 2 → s.bursts = [] →
    (s.atAcceptance h fun f => f.reload || f.busy) = false → Answers (.structLoad h src length) s fun u =>
      u.rd F.STR_STATUS_STATE = 2 ∧ u.str.staged = img.take (2 ^ 20) ∧ u.str.len = length ∧ u.str.src = 3 ∧ u.str.cmd = some h ∧
      u.str.image = s.str.image ∧ u.str.plain = s.str.plain ∧ u.hq.compls = s.hq.compls ∧
      u = { s with regs := u.regs, hq := u.hq, str := u.str } ∧ Quiet [(F.STR_STATUS_STATE).addr] s u) ∧
  (∀ (h : Hdr) (src : Src) (length : Nat) (s : State), s.canBegin h 0x10 → s.sourceOk src length = true →
    2 ≤ s.rd F.STR_STATUS_STATE ∨ s.atAcceptance h (·.reload) = true →
    Answers (.structLoad h src length) s fun u => Completes s u h 0x1D 0 0 ∧ u = { s with hq := u.hq }) ∧
  (∀ (h : Hdr) (src : Src) (length : Nat) (s : State), s.canBegin h 0x10 → s.sourceOk src length = true → s.rd F.STR_STATUS_STATE < 2 →
    s.atAcceptance h (·.reload) = false → s.bursts ≠ [] ∨ s.atAcceptance h (·.busy) = true → Answers (.structLoad h src length) s fun u =>
      Completes s u h 0x1D 15 0 ∧ u.rd F.STR_STATUS_LAST_ERR = 0x1D ∧ u.rd F.STR_ERR_DETAIL_SECTION = 15 ∧ u.rd F.STR_ERR_DETAIL_OFFSET = 0 ∧
      u.rd F.STR_STATUS_STATE = s.rd F.STR_STATUS_STATE ∧ bitOf (u.rd Ev.str.bits) 1 = true ∧ u.str = s.str) ∧
  (∀ (p n : Nat) (s : State), s.rd F.STR_STATUS_STATE = 2 → s.rd F.FLT_STATUS_STATE = 0 → s.regionRuns 1 = [(p, n)] →
    s.str.staged.length ≤ n * canopyPage → Answers .structureStaged s fun u =>
      u.rd F.STR_STATUS_STATE = 3 ∧ (∀ i, i < s.str.staged.length → Mem.byte u.canopy (p * canopyPage + i) = s.str.staged.getD i 0) ∧
      (∀ a, a < p * canopyPage ∨ p * canopyPage + s.str.staged.length ≤ a → Mem.byte u.canopy a = Mem.byte s.canopy a) ∧
      u = { s with regs := u.regs, canopy := u.canopy } ∧ RegsSame [(F.STR_STATUS_STATE).addr] s u) ∧
  (∀ s : State, s.rd F.STR_STATUS_STATE = 3 → s.rd F.FLT_STATUS_STATE = 0 → Answers .structureValidated s fun u =>
      match s.checkImage s.str.staged s.str.len with
      | .inl f => u.rd F.STR_STATUS_STATE = s.restState ∧ u.rd F.STR_STATUS_LAST_ERR = f.code % 256 ∧ u.str.staged = [] ∧ u.str.cmd = none ∧
          u.str.image = s.str.image ∧ u.str.plain = s.str.plain ∧ bitOf (u.rd Ev.str.bits) 1 = true ∧
          (∀ h, s.str.cmd = some h → ∃ c ∈ u.hq.compls, c.hdr = h ∧ c.status = f.code)
      | .inr p => u.rd F.STR_STATUS_STATE = 4 ∧ u.str.stagedPlain = p ∧ u.str.staged = s.str.staged ∧ u.str.image = s.str.image ∧
          u.forest.codeMoves = []) ∧
  (∀ (a : RegionPlan) (s : State), s.rd F.STR_STATUS_STATE = 4 → s.rd F.FLT_STATUS_STATE = 0 → s.planFor s.str.stagedPlain = some a →
    (∀ d : Fin 16, s.rd (F.DSC_STATUS_MODE d) = 0) → s.str.badWords = [] → Answers .dryRunPlacementDone s fun u =>
      u.rd F.STR_STATUS_STATE = 5 ∧ u.str = s.str ∧ (∀ c : Fin 8, bitOf (s.parkMask a) c = true → u.rd (F.FOR_PARK_REQ c) = 1) ∧ BytesSame s u) ∧
  (∀ s : State, s.rd F.STR_STATUS_STATE = 4 → s.rd F.FLT_STATUS_STATE = 0 → s.planFor s.str.stagedPlain = none →
    s.str.badWords = [] → Answers .dryRunPlacementDone s fun u =>
      u.rd F.STR_STATUS_STATE = s.restState ∧ u.rd F.STR_STATUS_LAST_ERR = 0x1C ∧ u.str.staged = [] ∧ u.str.image = s.str.image) ∧
  (∀ s : State, s.rd F.STR_STATUS_STATE = 5 → s.rd F.FLT_STATUS_STATE = 0 → s.cal.run = none → s.codeRuns = false →
    s.str.badWords = [] → Answers .quiesceComplete s fun u =>
      u.rd F.STR_STATUS_STATE = 6 ∧ u.str = { s.str with held := maskOf (changedCoppices s.inForce s.str.stagedPlain) } ∧
      (∀ k ∈ changedCoppices s.inForce s.str.stagedPlain, ∀ c : Fin 4, u.chans[fin 128 (4 * k + c)].den = false ∧
        u.chans[fin 128 (4 * k + c)].drv = false) ∧
      u = { s with regs := u.regs, chans := u.chans, str := u.str } ∧ Quiet [(F.STR_STATUS_STATE).addr] s u) ∧
  (∀ s : State, s.cal.run.isSome = true ∨ s.codeRuns = true → NoEffect .quiesceComplete s) ∧
  (∀ s : State, s.forest.codeMoves = [] → s.rd F.STR_STATUS_STATE ≠ 5 → NoEffect .parkTimeout s) ∧
  (∀ s : State, s.rd F.STR_STATUS_STATE = 5 → s.rd F.FLT_STATUS_STATE = 0 → s.forest.codeMoves = [] → s.codeRuns = true →
    Answers .parkTimeout s fun u =>
      u.rd F.STR_STATUS_STATE = s.restState ∧ u.rd F.STR_STATUS_LAST_ERR = 0x1F ∧ u.str.staged = [] ∧ u.str.image = s.str.image ∧
      u.rd F.FOR_CODE_BUSY_CNT_COUNT = min (s.rd F.FOR_CODE_BUSY_CNT_COUNT + 1) 65535) ∧
  (∀ (a : RegionPlan) (s : State), s.rd F.STR_STATUS_STATE = 6 → s.rd F.FLT_STATUS_STATE = 0 → s.planFor s.str.stagedPlain = some a →
    s.str.badWords = [] → Answers .structureSwap s fun u =>
      u.rd F.STR_STATUS_STATE = 1 ∧ u.rd F.STR_STATUS_SOURCE = s.str.src % 4 ∧ u.rd F.STR_STATUS_LAST_ERR = 0 ∧
      u.str.image = s.str.staged ∧ u.str.plain = s.str.stagedPlain ∧ u.str.staged = [] ∧ u.str.cmd = none ∧
      u.rd F.STR_SVN_SVN = leAt s.str.staged 0x14 4 ∧ u.rd F.STR_LOADS_COUNT = (s.rd F.STR_LOADS_COUNT + 1) % 2 ^ 32 ∧
      (∀ i : Fin 12, u.rd (F.STR_DIGEST_DIGEST i) = leAt (shaBytes s.str.staged) (4 * i) 4) ∧ bitOf (u.rd Ev.str.bits) 0 = true ∧
      (∀ h, s.str.cmd = some h → ⟨h, stOk, 0, 0, false⟩ ∈ u.hq.compls)) ∧
  (∀ s : State, s.rd F.FLT_STATUS_STATE ≠ 0 → NoEffect .structureStaged s ∧ NoEffect .structureValidated s ∧
    NoEffect .dryRunPlacementDone s ∧ NoEffect .quiesceComplete s ∧ NoEffect .structureSwap s) ∧
  (∀ s : State, s.rd F.STR_STATUS_STATE < 2 → NoEffect .structureStaged s ∧ NoEffect .structureValidated s ∧
    NoEffect .dryRunPlacementDone s ∧ NoEffect .quiesceComplete s ∧ NoEffect .structureSwap s) ∧
  (∀ s : State, s.str.badWords = [] → NoEffect (.structureScrub none) s) ∧
  ∀ (w : Nat) (s : State), Answers (.structureScrub (some w)) s fun u =>
      u.str.badWords = w :: s.str.badWords.filter (fun v => v ≠ w) ∧ u.latched 1 = true

/-- R459, R461, R471 to R478, R481: a self-test that fails leaves the boundary in ERROR; with nothing in flash the module comes up in
recovery; a change of the boot record goes whole into the copy that does not rule, and a torn one waits to be written again; a confirm
comes only from a core in machine mode; the confirmation timer's end resets the main die. -/
def Obligations.MeasuredStart : Prop :=
  (∀ (fails : Nat) (s : State), s.rd F.GLB_BOOT_STAT_STAGE = 0 → s.on F.SEC_STATUS_ST_DONE = false → s.flt.resetLow = false →
    s.power.house = true → s.power.cold = false → fails % 4096 ≠ 0 → Answers (.bootRomStart fails) s fun u =>
      u.rd F.SEC_STATUS_LIFECYCLE = 4 ∧ u.rd F.SEC_STATUS_APPROVED = 0 ∧ u.rd F.SEC_STATUS_ST_DONE = 0 ∧ u.rd F.GLB_BOOT_STAT_STAGE = 0 ∧
      u.latched 23 = true ∧ u.sec.identity = s.sec.identity ∧ u.flash = s.flash) ∧
  (∀ (fails : Nat) (s : State), s.rd F.GLB_BOOT_STAT_STAGE = 0 → s.on F.SEC_STATUS_ST_DONE = false → s.flt.resetLow = false →
    s.power.house = true → s.power.cold = false → fails % 4096 = 0 → s.flash = [] → Answers (.bootRomStart fails) s fun u =>
      u.rd F.GLB_BOOT_STAT_STAGE = 3 ∧ u.rd F.SEC_STATUS_ST_DONE = 1 ∧ u.rd F.SEC_STATUS_APPROVED = 1 ∧ u.sec.identity = true ∧
      (∀ k : Fin 4, u.rd (F.GLB_BOOT_KIND_ABSENT k) = 1) ∧ u.rd F.GLB_BOOT_STAT_BOTH_VALID = 0 ∧ u.flash = [] ∧ u.bursts = s.bursts) ∧
  (∀ (fails : Nat) (s : State), s.rd F.GLB_BOOT_STAT_STAGE ≠ 0 ∨ s.on F.SEC_STATUS_ST_DONE = true ∨ s.flt.resetLow = true ∨
    s.power.house = false ∨ s.power.cold = true → NoEffect (.bootRomStart fails) s) ∧
  (∀ (torn : Bool) (s : State), s.boot.changes = [] → NoEffect (.bootRecordWritten torn) s) ∧
  (∀ (k : Fin 4) (rest : List (Nat × RecChange)) (copy : Nat) (l : List Byte) (s : State), s.boot.changes = (k.1, .activate) :: rest →
    s.ruling = (copy, l) → Answers (.bootRecordWritten false) s fun u =>
      u.boot = { s.boot with changes := rest } ∧ u.flashBytes (0x10000 * (1 - copy)) 64 = newRecord l k .activate ∧
      (∀ a, a / 0x10000 ≠ 1 - copy → Mem.byte u.flash a = Mem.byte s.flash a) ∧
      u.rd F.GLB_BOOT_STAT_COPY = (1 - copy) % 2 ∧ u.rd F.GLB_BOOT_SEQ_SEQ = (leAt l 8 4 + 1) % 2 ^ 32 ∧
      u.rd (F.GLB_BOOT_KIND_ACTIVE k) = (1 - (bootEnt l k).active) % 2 ∧ u.rd (F.GLB_BOOT_KIND_CONFIRMED k) = 0 ∧
      u.rd (F.GLB_BOOT_KIND_TRIAL k) = 3 ∧ u = { s with regs := u.regs, flash := u.flash, boot := u.boot }) ∧
  (∀ (k : Nat) (c : RecChange) (rest : List (Nat × RecChange)) (copy : Nat) (l : List Byte) (s : State), s.boot.changes = (k, c) :: rest →
    s.ruling = (copy, l) → Answers (.bootRecordWritten true) s fun u =>
      u.boot = s.boot ∧ (∀ a, a / 0x10000 ≠ 1 - copy → Mem.byte u.flash a = Mem.byte s.flash a) ∧ u = { s with flash := u.flash }) ∧
  (∀ s : State, s.boot.timer = true → Answers .confirmationTimerExpiry s fun u =>
      u.boot = { timerReset := true } ∧ u.bursts = [] ∧ u.canopy = [] ∧ u.sdram = [] ∧ u.flash = s.flash ∧ u.host = s.host ∧
      u.regs.pwr = s.regs.pwr ∧ u.sec.keys = s.sec.keys ∧ u.pending = s.pending) ∧
  (∀ s : State, s.boot.timer = false → NoEffect .confirmationTimerExpiry s) ∧
  (∀ (c : Fin 8) (k : Fin 4) (s : State), s.sched.cores[c].machineMode = true → s.on (F.GLB_BOOT_KIND_CONFIRMED k) = false →
    bitOf (s.rd F.GLB_BOOT_CONFIRM_KIND) k = false → Answers (.glbBootConfirm (.core c) (BitVec.ofNat 32 (2 ^ k.1))) s fun u =>
      u.boot = { s.boot with changes := s.boot.changes ++ [(k.1, .confirm)] } ∧ bitOf (u.rd F.GLB_BOOT_CONFIRM_KIND) k = true ∧
      u = { s with regs := u.regs, boot := u.boot } ∧ Quiet [(F.GLB_BOOT_CONFIRM_KIND).addr] s u) ∧
  (∀ (c : Fin 8) (w : Word) (s : State), s.sched.cores[c].machineMode = false → Answers (.glbBootConfirm (.core c) w) s fun u =>
      u.sched.cores[c].mcause = 7 ∧ u.sched.cores[c].machineMode = true ∧ u.boot = s.boot ∧ u.regs = s.regs) ∧
  (∀ (id : Nat) (w : Word) (s : State), Answers (.glbBootConfirm (.host id) w) s fun u =>
      u.boot = s.boot ∧ u.rd F.HQ_PWF_CNT_COUNT = (s.rd F.HQ_PWF_CNT_COUNT + 1) % 2 ^ (F.HQ_PWF_CNT_COUNT).width ∧
      u.rd F.GLB_BOOT_CONFIRM_KIND = s.rd F.GLB_BOOT_CONFIRM_KIND) ∧
  ∀ (w : Word) (s : State), NoEffect (.glbBootConfirm .sideband w) s

/-- R307, R478 to R480, R498: an update operation is the security officer's, is refused while one runs, and moves DOWNLOADED, VERIFIED
and IDLE in order; a download programs the inactive slot alone, a failed one reports its result; an activation waits for its boot
record; the endpoint's reset closes and opens the endpoint. -/
def Obligations.UpdateService : Prop :=
  (∀ (id : Nat) (kind : Fin 4) (src : Src) (len : Nat) (s : State), s.rd F.SEC_STATUS_HOST_ROLE = 2 → s.rd F.GLB_UPD_STATUS_STATE ∈ [0, 2, 4] →
    s.rd F.GLB_BOOT_STAT_STAGE ≠ 3 → s.on (F.GLB_BOOT_KIND_CONFIRMED kind) = true → len ≤ slotSize kind → len < 2 ^ 24 → src.addr < 2 ^ 64 →
    s.sourceOk src len = true → Answers (.download (.host id) kind src len) s fun u =>
      u.rd F.GLB_UPD_STATUS_STATE = 1 ∧ u.rd F.GLB_UPD_STATUS_KIND = kind ∧ u.boot = { s.boot with op := some (1, kind, s.source src len) } ∧
      u.rdP F.GLB_UPD_SRC_LO_ADDR = src.addr ∧ u.rd F.GLB_UPD_LEN_BYTES = len ∧ u = { s with regs := u.regs, boot := u.boot } ∧
      Quiet [(F.GLB_UPD_CMD_OP).addr, (F.GLB_UPD_SRC_LO_ADDR).addr, (F.GLB_UPD_SRC_LO_ADDR).addr + 4, (F.GLB_UPD_LEN_BYTES).addr,
        (F.GLB_UPD_STATUS_STATE).addr, wseqOut] s u) ∧
  (∀ (id : Nat) (kind : Fin 4) (src : Src) (len : Nat) (s : State), s.rd F.SEC_STATUS_HOST_ROLE = 2 → s.rd F.GLB_UPD_STATUS_STATE = 0 →
    s.rd F.GLB_BOOT_STAT_STAGE ≠ 3 → s.on (F.GLB_BOOT_KIND_CONFIRMED kind) = false → Answers (.download (.host id) kind src len) s fun u =>
      u.rd F.GLB_UPD_STATUS_STATE = 0 ∧ u.rd F.GLB_UPD_STATUS_RESULT = 8 ∧ u.boot.op = none ∧ bitOf (u.rd Ev.glb.bits) 1 = true) ∧
  (∀ (id : Nat) (kind : Fin 4) (s : State), s.rd F.SEC_STATUS_HOST_ROLE = 2 → s.rd F.GLB_UPD_STATUS_STATE = 1 →
    Answers (.verify (.host id) kind) s fun u =>
      u.rd F.GLB_UPD_STATUS_STATE = 1 ∧ u.rd F.GLB_UPD_STATUS_RESULT = 7 ∧ u.boot = s.boot ∧ bitOf (u.rd Ev.glb.bits) 1 = true) ∧
  (∀ (id : Nat) (kind : Fin 4) (s : State), s.rd F.SEC_STATUS_HOST_ROLE = 2 → s.rd F.GLB_UPD_STATUS_STATE = 2 →
    s.rd F.GLB_UPD_STATUS_KIND = kind → s.rd F.GLB_BOOT_STAT_STAGE ≠ 3 → Answers (.verify (.host id) kind) s fun u =>
      u.rd F.GLB_UPD_STATUS_STATE = 3 ∧ u.boot = { s.boot with op := some (2, kind, none) } ∧ u = { s with regs := u.regs, boot := u.boot } ∧
      Quiet [(F.GLB_UPD_CMD_OP).addr, (F.GLB_UPD_STATUS_STATE).addr, wseqOut] s u) ∧
  (∀ (id : Nat) (kind : Fin 4) (s : State), s.rd F.SEC_STATUS_HOST_ROLE = 2 → s.rd F.GLB_UPD_STATUS_STATE = 0 →
    Answers (.verify (.host id) kind) s fun u =>
      u.rd F.GLB_UPD_STATUS_STATE = 0 ∧ u.rd F.GLB_UPD_STATUS_RESULT = 6 ∧ bitOf (u.rd Ev.glb.bits) 1 = true) ∧
  (∀ (id : Nat) (kind : Fin 4) (s : State), s.rd F.SEC_STATUS_HOST_ROLE = 2 → s.rd F.GLB_UPD_STATUS_STATE = 4 →
    s.rd F.GLB_UPD_STATUS_KIND = kind → s.rd F.GLB_BOOT_STAT_STAGE ≠ 3 → s.on (F.GLB_BOOT_KIND_CONFIRMED kind) = true →
    Answers (.activate (.host id) kind) s fun u =>
      u.rd F.GLB_UPD_STATUS_STATE = 5 ∧
      u.boot = { s.boot with op := some (3, kind, none), changes := s.boot.changes ++ [(kind.1, .activate)] } ∧
      u = { s with regs := u.regs, boot := u.boot } ∧ Quiet [(F.GLB_UPD_CMD_OP).addr, (F.GLB_UPD_STATUS_STATE).addr, wseqOut] s u) ∧
  (∀ (id : Nat) (kind : Fin 4) (s : State), s.rd F.SEC_STATUS_HOST_ROLE = 2 → s.rd F.GLB_UPD_STATUS_STATE = 0 →
    Answers (.activate (.host id) kind) s fun u =>
      u.rd F.GLB_UPD_STATUS_STATE = 0 ∧ u.rd F.GLB_UPD_STATUS_RESULT = 6 ∧ u.boot.changes = s.boot.changes) ∧
  (∀ (id : Nat) (kind : Fin 4) (s : State), s.rd F.SEC_STATUS_HOST_ROLE = 2 → s.rd F.GLB_UPD_STATUS_STATE ∈ [0, 2, 4] →
    s.rd F.GLB_BOOT_STAT_STAGE ≠ 3 → Answers (.abandon (.host id) kind) s fun u =>
      u.rd F.GLB_UPD_STATUS_STATE = 0 ∧ u.rd F.GLB_UPD_STATUS_RESULT = 0 ∧ u.boot.op = none ∧ bitOf (u.rd Ev.glb.bits) 0 = true ∧
      u.flash = s.flash) ∧
  (∀ (id kind : Nat) (s : State), s.rd F.SEC_STATUS_HOST_ROLE ≠ 2 → Answers (.activate (.host id) kind) s fun u =>
      u.boot = s.boot ∧ u.rd F.GLB_UPD_STATUS_STATE = s.rd F.GLB_UPD_STATUS_STATE ∧
      u.rd F.HQ_PWF_CNT_COUNT = (s.rd F.HQ_PWF_CNT_COUNT + 1) % 2 ^ (F.HQ_PWF_CNT_COUNT).width) ∧
  (∀ (c : Fin 8) (kind : Nat) (s : State), Answers (.activate (.core c) kind) s fun u =>
      u.boot = s.boot ∧ u.regs = s.regs ∧ u.sched.cores[c].mcause = 7) ∧
  (∀ (flashOk : Bool) (s : State), s.boot.op = none → NoEffect (.updateOperationEnd flashOk) s) ∧
  (∀ (k : Fin 4) (l : List Byte) (s : State), s.boot.op = some (1, k.1, some l) → l.length ≤ slotSize k →
    Answers (.updateOperationEnd true) s fun u =>
      u.flashBytes (slotBase k (s.inactive k)) l.length = l ∧
      (∀ a, a < slotBase k (s.inactive k) ∨ slotBase k (s.inactive k) + slotSize k ≤ a → Mem.byte u.flash a = Mem.byte s.flash a) ∧
      u.rd F.GLB_UPD_STATUS_STATE = 2 ∧ u.rd F.GLB_UPD_STATUS_RESULT = 0 ∧ u.boot = { s.boot with op := none } ∧
      bitOf (u.rd Ev.glb.bits) 0 = true ∧ RegsSame ([(F.GLB_UPD_STATUS_STATE).addr] ++ evOut Ev.glb) s u) ∧
  (∀ (op : Fin 2) (k : Nat) (l : List Byte) (s : State), s.boot.op = some (op.1 + 1, k, some l) → Answers (.updateOperationEnd false) s fun u =>
      u.rd F.GLB_UPD_STATUS_STATE = 0 ∧ u.rd F.GLB_UPD_STATUS_RESULT = 4 ∧ u.boot = { s.boot with op := none } ∧
      bitOf (u.rd Ev.glb.bits) 1 = true) ∧
  (∀ (flashOk : Bool) (k : Nat) (s : State), s.boot.op = some (1, k, none) → Answers (.updateOperationEnd flashOk) s fun u =>
      u.rd F.GLB_UPD_STATUS_STATE = 0 ∧ u.rd F.GLB_UPD_STATUS_RESULT = 5 ∧ u.flash = s.flash) ∧
  (∀ (k : Nat) (b : Option (List Byte)) (s : State), s.boot.op = some (2, k, b) → Answers (.updateOperationEnd true) s fun u =>
      u.rd F.GLB_UPD_STATUS_RESULT = (s.verifyResult k).1 % 16 ∧ u.rd F.GLB_UPD_STATUS_STATE = (if (s.verifyResult k).1 = 0 then 4 else 0) ∧
      u.boot = { s.boot with op := none } ∧ u.flash = s.flash) ∧
  (∀ (k : Nat) (b : Option (List Byte)) (s : State), s.boot.op = some (3, k, b) → s.boot.changes = [] →
    Answers (.updateOperationEnd true) s fun u =>
      u.rd F.GLB_UPD_STATUS_STATE = 0 ∧ u.rd F.GLB_UPD_STATUS_RESULT = 0 ∧ u.boot.op = none ∧ bitOf (u.rd Ev.glb.bits) 0 = true) ∧
  (∀ s : State, Answers (.pciePerstL true) s fun u => u = { s with hq := { s.hq with perst := false } }) ∧
  ∀ s : State, Answers (.pciePerstL false) s fun u => u.hq.perst = true ∧ u.hq.d3 = false ∧ u.bursts = s.bursts ∧ u.flash = s.flash

/-- The queue of commands: a step takes the command at its front and is exec of it on the state with the rest of the queue; with nothing
in the queue the clock counts one tick, at a REFCLK edge TRIG_IN is sampled, and where nothing waits for either nothing else changes (the
model's own choice: log entry 2, the commands have no row for it). -/
def Obligations.StepRunsFront : Prop :=
  (∀ (c : Instr) (rest : List Instr) (s : State), s.pending = c :: rest → step s = exec c { s with pending := rest }) ∧
  (∀ s : State, s.pending = [] → (s.tim.raw + 1) % 2 ^ 64 % 8 ≠ 0 → (∀ d : Fin 16, s.dscs[d].pgn.blanked = false) →
    step s = .next { s with tim := { s.tim with raw := (s.tim.raw + 1) % 2 ^ 64 } }) ∧
  ∀ s : State, s.pending = [] → (s.tim.raw + 1) % 2 ^ 64 % 8 = 0 → (∀ d : Fin 16, s.dscs[d].pgn.blanked = false) →
    s.forest.evacs = [] → (∀ b ∈ s.bursts, b.stage ≠ .armed) →
    step s = .next { s with tim := { s.tim with raw := (s.tim.raw + 1) % 2 ^ 64 }, sync := { s.sync with sampled := s.sync.trigIn } }

/-- The state at reset: no burst, no command, no content; no register listed, so that every register reads as the map states; the values
that rules R42, R161, R346, R350 and R419 give. That an unwritten byte reads 0 and an unwritten flash byte 255, and that the units are idle and
empty, are the model's own choices: log entries 1, 10, 134 and 138. -/
def Obligations.ResetState : Prop :=
  State.reset.bursts = [] ∧ State.reset.pending = [] ∧ State.reset.hq.inFlight = [] ∧ State.reset.hq.compls = [] ∧
  (∀ b, State.reset.regs.get b = []) ∧ (∀ b a, State.reset.word b a = resetWord b a) ∧
  (∀ a, Mem.byte State.reset.canopy a = 0 ∧ Mem.byte State.reset.sdram a = 0) ∧ (∀ a, State.reset.flashBytes a 1 = [255]) ∧
  State.reset.rd F.FLT_STATUS_STATE = 0 ∧ State.reset.rd F.STR_STATUS_STATE = 0 ∧ State.reset.rd F.DMC_STATUS_STATE = 0 ∧
  State.reset.rd F.CLK_STATUS_SRC = 0 ∧ State.reset.rd F.TIM_STATUS_STATE = 0 ∧ State.reset.rd F.GLB_BOOT_STAT_STAGE = 0 ∧
  (∀ t : Fin 32, State.reset.threads[t].members = 0 ∧ State.reset.rd (F.SEQ_STATUS_STATE t) = 0) ∧
  (∀ d : Fin 16, State.reset.dscMode d = 0) ∧ (∀ c : Fin 128, State.reset.chans[c].drv = false ∧ State.reset.chans[c].den = false) ∧
  (∀ n : Fin 8, State.reset.laneState n = 0) ∧ (∀ i : Fin 96, State.reset.latched i = false)

/-- At reset every register file and every byte memory is in canonical form, which is the model's own (log entry 1). -/
def Obligations.CanonicalAtReset : Prop := State.reset.wf = true

/-- Whatever the command, every step keeps every register file and every byte memory in canonical form, addresses rising and nothing
listed that reads the same unlisted, so that equal contents stay equal data (the
model's own form of a memory: log entry 1). -/
def Obligations.EveryStepKeepsCanonicalForm : Prop :=
  ∀ s t : State, s.wf = true → step s = .next t → t.wf = true

/-- No command reads or changes the queue of commands: exec does the same whatever waits, and leaves it waiting (the queue is
the model's own: log entry 4). -/
def Obligations.CommandsLeaveTheQueue : Prop :=
  ∀ (c : Instr) (q : List Instr) (s t : State), exec c s = .next t → exec c { s with pending := q } = .next { t with pending := q }
end

