-- ==== Sys2Proof/Laws/State.lean ====
section
/-! SUPPORT. The small laws of the state's updates: each field of State after each named update, what a register or a byte reads
as after a write of it or of another, and that every memory operation keeps the canonical form. -/

namespace Sys2Proof.Machine

/-! ## Sparse lists -/

theorem cellGet_insert {α : Type} (a : Nat) (v : α) (x : Nat) (l : List (Nat × α)) (h : ∀ c ∈ l, c.1 ≠ a) :
    cellGet x (cellInsert a v l) = if x = a then some v else cellGet x l := by
  induction l with
  | nil => by_cases hx : x = a <;> simp [cellInsert, cellGet, hx]
  | cons c r ih =>
    obtain ⟨b, w⟩ := c
    have hb : b ≠ a := h (b, w) (by simp)
    have hr : ∀ c ∈ r, c.1 ≠ a := fun c hc => h c (by simp [hc])
    simp only [cellInsert]
    split
    · simp only [cellGet]
    · simp only [cellGet, ih hr]
      by_cases hxb : x = b
      · simp [hxb, hb]
      · simp [hxb]

theorem cellGet_filter_ne {α : Type} (a x : Nat) (l : List (Nat × α)) :
    cellGet x (l.filter fun c => decide (c.1 ≠ a)) = if x = a then none else cellGet x l := by
  induction l with
  | nil => simp [cellGet]
  | cons c r ih =>
    obtain ⟨b, w⟩ := c
    by_cases hb : b = a
    · subst hb
      rw [List.filter_cons_of_neg (by simp), ih]
      by_cases hx : x = b <;> simp [cellGet, hx]
    · rw [List.filter_cons_of_pos (by simp [hb])]
      simp only [cellGet, ih]
      by_cases hxb : x = b
      · simp [hxb, hb]
      · simp [hxb]

/-- A write of a sparse list is seen at its address and nowhere else. -/
theorem cellGet_put {α : Type} [DecidableEq α] (d : α) (a : Nat) (v : α) (x : Nat) (l : List (Nat × α)) :
    cellGet x (cellPut d a v l) = if x = a then (if v = d then none else some v) else cellGet x l := by
  unfold cellPut
  by_cases hv : v = d
  · simp only [hv, if_true, cellGet_filter_ne]
  · simp only [hv, if_false]
    rw [cellGet_insert a v x _ (by intro c hc; simpa using (List.mem_filter.1 hc).2), cellGet_filter_ne]
    by_cases hx : x = a <;> simp [hx]

theorem cellsWf_mono {α : Type} [DecidableEq α] (d : Nat → α) (l : List (Nat × α)) {lo lo' : Nat} (h : lo' ≤ lo)
    (hw : cellsWf d lo l = true) : cellsWf d lo' l = true := by
  cases l with
  | nil => rfl
  | cons c r => obtain ⟨a, v⟩ := c; simp only [cellsWf, Bool.and_eq_true, decide_eq_true_eq] at hw ⊢; exact ⟨⟨by omega, hw.1.2⟩, hw.2⟩

/-- The canonical form is kept by leaving entries out. -/
theorem cellsWf_filter {α : Type} [DecidableEq α] (d : Nat → α) (p : Nat × α → Bool) (l : List (Nat × α)) (lo : Nat)
    (h : cellsWf d lo l = true) : cellsWf d lo (l.filter p) = true := by
  induction l generalizing lo with
  | nil => rfl
  | cons c r ih =>
    obtain ⟨a, v⟩ := c
    simp only [cellsWf, Bool.and_eq_true, decide_eq_true_eq] at h
    have hr := ih (a + 1) h.2
    by_cases hp : p (a, v) = true
    · rw [List.filter_cons_of_pos hp]; simp only [cellsWf, Bool.and_eq_true, decide_eq_true_eq]; exact ⟨h.1, hr⟩
    · rw [List.filter_cons_of_neg hp]; exact cellsWf_mono d _ (by omega) hr

theorem cellsWf_insert {α : Type} [DecidableEq α] (d : Nat → α) (a : Nat) (v : α) (hv : v ≠ d a) (l : List (Nat × α)) (lo : Nat)
    (hlo : lo ≤ a) (hne : ∀ c ∈ l, c.1 ≠ a) (h : cellsWf d lo l = true) : cellsWf d lo (cellInsert a v l) = true := by
  induction l generalizing lo with
  | nil => simp [cellInsert, cellsWf, hlo, hv]
  | cons c r ih =>
    obtain ⟨b, w⟩ := c
    have hb : b ≠ a := hne (b, w) (by simp)
    simp only [cellsWf, Bool.and_eq_true, decide_eq_true_eq] at h
    simp only [cellInsert]
    split
    · next hab => simp only [cellsWf, Bool.and_eq_true, decide_eq_true_eq]; exact ⟨⟨hlo, hv⟩, ⟨by omega, h.1.2⟩, h.2⟩
    · next hab =>
      simp only [cellsWf, Bool.and_eq_true, decide_eq_true_eq]
      exact ⟨h.1, ih (b + 1) (by omega) (fun c hc => hne c (by simp [hc])) h.2⟩

/-- The canonical form is kept by a write. -/
theorem cellsWf_put {α : Type} [DecidableEq α] (d : Nat → α) (a : Nat) (v : α) (l : List (Nat × α))
    (h : cellsWf d 0 l = true) : cellsWf d 0 (cellPut (d a) a v l) = true := by
  unfold cellPut
  have hf := cellsWf_filter d (fun c => decide (c.1 ≠ a)) l 0 h
  by_cases hv : v = d a
  · simp only [hv, if_true]; exact hf
  · simp only [hv, if_false]
    exact cellsWf_insert d a v hv _ 0 (Nat.zero_le _) (by intro c hc; simpa using (List.mem_filter.1 hc).2) hf

/-! ## Byte memories -/

theorem Mem.byte_put (m : Mem) (a : Nat) (b : Byte) (x : Nat) : Mem.byte (Mem.put m a b) x = if x = a then b else Mem.byte m x := by
  unfold Mem.byte Mem.put
  rw [cellGet_put]
  by_cases hx : x = a
  · by_cases hb : b = unlistedByte <;> simp [hx, hb]
  · simp [hx]

theorem Mem.wf_put (m : Mem) (a : Nat) (b : Byte) (h : Mem.wf m = true) : Mem.wf (Mem.put m a b) = true :=
  cellsWf_put (fun _ => unlistedByte) a b m h

theorem Mem.wf_clear (m : Mem) (a n : Nat) (h : Mem.wf m = true) : Mem.wf (Mem.clear m a n) = true := cellsWf_filter _ _ m 0 h

theorem cellGet_append {α : Type} (x : Nat) (l r : List (Nat × α)) : cellGet x (l ++ r) = (cellGet x l).or (cellGet x r) := by
  induction l with
  | nil => simp [cellGet]
  | cons c t ih => obtain ⟨b, v⟩ := c; simp only [List.cons_append, cellGet, ih]; split <;> simp

theorem cellGet_filter {α : Type} (p : Nat → Bool) (x : Nat) (l : List (Nat × α)) :
    cellGet x (l.filter fun c => p c.1) = if p x then cellGet x l else none := by
  induction l with
  | nil => simp [cellGet]
  | cons c r ih =>
    obtain ⟨b, w⟩ := c
    by_cases hb : p b = true
    · rw [List.filter_cons_of_pos (by simpa using hb)]
      simp only [cellGet, ih]
      by_cases hx : x = b
      · simp [hx, hb]
      · simp [hx]
    · rw [List.filter_cons_of_neg (by simpa using hb), ih]
      by_cases hx : x = b
      · subst hx; simp [hb]
      · simp [cellGet, hx]

theorem cellGet_listed (a : Nat) (l : List Byte) (x : Nat) :
    (cellGet x (listed a l)).getD unlistedByte = if h : a ≤ x ∧ x < a + l.length then l[x - a]'(by omega) else unlistedByte := by
  induction l generalizing a with
  | nil => simp [listed, cellGet]
  | cons b r ih =>
    by_cases hxa : x = a
    · subst hxa
      have hno : (cellGet x (listed (x + 1) r)).getD unlistedByte = unlistedByte := by
        rw [ih]; simp
      by_cases hb : b = unlistedByte
      · simp [listed, hb, hno]
      · simp [listed, hb, cellGet]
    · have hb : (cellGet x (listed a (b :: r))).getD unlistedByte = (cellGet x (listed (a + 1) r)).getD unlistedByte := by
        simp only [listed]; split
        · rfl
        · simp [cellGet, hxa]
      rw [hb, ih]
      by_cases hin : a + 1 ≤ x ∧ x < a + 1 + r.length
      · have h2 : a ≤ x ∧ x < a + (b :: r).length := by simp only [List.length_cons]; omega
        obtain ⟨k, hk⟩ : ∃ k, x = a + 1 + k := ⟨x - (a + 1), by omega⟩
        subst hk
        have e1 : a + 1 + k - (a + 1) = k := by omega
        have e2 : a + 1 + k - a = k + 1 := by omega
        simp only [dif_pos hin, dif_pos h2, e1, e2, List.getElem_cons_succ]
      · have h2 : ¬ (a ≤ x ∧ x < a + (b :: r).length) := by simp only [List.length_cons]; omega
        simp only [dif_neg hin, dif_neg h2]

theorem listed_ge (a : Nat) (l : List Byte) (x : Nat) (h : x < a ∨ a + l.length ≤ x) : cellGet x (listed a l) = none := by
  induction l generalizing a with
  | nil => rfl
  | cons b r ih =>
    simp only [List.length_cons] at h
    simp only [listed]
    split
    · exact ih (a + 1) (by omega)
    · have : x ≠ a := by omega
      simp only [cellGet, this, if_false]; exact ih (a + 1) (by omega)

/-- A byte after a byte string has been written. -/
theorem Mem.byte_puts (m : Mem) (a : Nat) (l : List Byte) (x : Nat) :
    Mem.byte (Mem.puts m a l) x = if h : a ≤ x ∧ x < a + l.length then l[x - a]'(by omega) else Mem.byte m x := by
  unfold Mem.byte Mem.puts
  rw [List.append_assoc, cellGet_append, cellGet_append, cellGet_filter (fun y => decide (y < a)), cellGet_filter (fun y => decide (a + l.length ≤ y))]
  by_cases h1 : x < a
  · have h2 : ¬ (a ≤ x ∧ x < a + l.length) := by omega
    have h3 : ¬ (a + l.length ≤ x) := by omega
    have e := listed_ge a l x (Or.inl h1)
    simp only [h1, h3, e, decide_true, decide_false, if_true, Bool.false_eq_true, if_false, dif_neg h2]
    cases cellGet x m <;> rfl
  · by_cases h3 : a + l.length ≤ x
    · have h2 : ¬ (a ≤ x ∧ x < a + l.length) := by omega
      have e := listed_ge a l x (Or.inr h3)
      simp [h1, h3, e, h2]
    · have h2 : a ≤ x ∧ x < a + l.length := by omega
      have e := cellGet_listed a l x
      simp only [h1, h3, decide_false, Bool.false_eq_true, if_false, dif_pos h2] at e ⊢
      rw [← e]
      cases cellGet x (listed a l) <;> rfl

theorem listed_wf (a : Nat) (l : List Byte) : cellsWf (fun _ => unlistedByte) a (listed a l) = true := by
  induction l generalizing a with
  | nil => rfl
  | cons b r ih =>
    simp only [listed]
    split
    · exact cellsWf_mono _ _ (Nat.le_succ a) (ih (a + 1))
    · next hb => simp only [cellsWf, Bool.and_eq_true, decide_eq_true_eq]; exact ⟨⟨Nat.le_refl a, hb⟩, ih (a + 1)⟩

theorem cellsWf_append {α : Type} [DecidableEq α] (d : Nat → α) (l r : List (Nat × α)) (lo mid : Nat) (hm : lo ≤ mid)
    (hl : cellsWf d lo l = true) (hb : ∀ c ∈ l, c.1 < mid) (hr : cellsWf d mid r = true) : cellsWf d lo (l ++ r) = true := by
  induction l generalizing lo with
  | nil => exact cellsWf_mono d r hm hr
  | cons c t ih =>
    obtain ⟨a, v⟩ := c
    simp only [cellsWf, Bool.and_eq_true, decide_eq_true_eq] at hl
    have ha : a < mid := hb (a, v) (by simp)
    simp only [List.cons_append, cellsWf, Bool.and_eq_true, decide_eq_true_eq]
    exact ⟨hl.1, ih (a + 1) (by omega) hl.2 fun c hc => hb c (by simp [hc])⟩

theorem listed_lt (a : Nat) (l : List Byte) : ∀ c ∈ listed a l, c.1 < a + l.length := by
  induction l generalizing a with
  | nil => simp [listed]
  | cons b r ih =>
    intro c hc
    simp only [listed] at hc
    simp only [List.length_cons]
    split at hc
    · have := ih (a + 1) c hc; omega
    · rcases List.mem_cons.1 hc with h | h
      · subst h; simp
      · have := ih (a + 1) c h; omega

theorem cellsWf_ge {α : Type} [DecidableEq α] (d : Nat → α) (l : List (Nat × α)) (lo hi : Nat) (h : cellsWf d lo l = true)
    (hg : ∀ c ∈ l, hi ≤ c.1) : cellsWf d hi l = true := by
  cases l with
  | nil => rfl
  | cons c r =>
    obtain ⟨a, v⟩ := c
    have := hg (a, v) (by simp)
    simp only [cellsWf, Bool.and_eq_true, decide_eq_true_eq] at h ⊢
    exact ⟨⟨this, h.1.2⟩, h.2⟩

/-- The canonical form is kept by a write of a byte string. -/
theorem Mem.wf_puts (m : Mem) (a : Nat) (l : List Byte) (h : Mem.wf m = true) : Mem.wf (Mem.puts m a l) = true := by
  unfold Mem.puts
  refine cellsWf_append _ _ _ 0 (a + l.length) (Nat.zero_le _) ?_ ?_ ?_
  · refine cellsWf_append _ _ _ 0 a (Nat.zero_le _) (cellsWf_filter _ _ m 0 h) ?_ (listed_wf a l)
    intro c hc; simpa using (List.mem_filter.1 hc).2
  · intro c hc
    rcases List.mem_append.1 hc with hc | hc
    · have : c.1 < a := by simpa using (List.mem_filter.1 hc).2
      omega
    · exact listed_lt a l c hc
  · refine cellsWf_ge _ _ 0 _ (cellsWf_filter _ _ m 0 h) ?_
    intro c hc; simpa using (List.mem_filter.1 hc).2

/-! ## Registers -/

@[simp] theorem Regs.get_set_same (r : Regs) (f : RegFile) (b : Blk) : (r.set f b).get b = f := by cases b <;> rfl

theorem Regs.get_set_other (r : Regs) (f : RegFile) (b c : Blk) (h : c ≠ b) : (r.set f b).get c = r.get c := by
  cases b <;> cases c <;> first | rfl | exact absurd rfl h

/-- A register word after a write of one: the word written, and every other one as before. -/
theorem State.word_setWord (s : State) (b : Blk) (a : Nat) (w : Word) (c : Blk) (x : Nat) :
    (s.setWord b a w).word c x = if c = b ∧ x = a then w else s.word c x := by
  unfold State.word State.setWord
  by_cases hc : c = b
  · subst hc
    simp only [Regs.get_set_same, cellGet_put, true_and]
    by_cases hx : x = a
    · by_cases hw : w = resetWord c a <;> simp [hx, hw]
    · simp [hx]
  · simp only [Regs.get_set_other _ _ _ _ hc, hc, false_and, if_false]

theorem State.word_wr (s : State) (f : Fld) (v : Nat) (c : Blk) (x : Nat) (h : x ≠ f.addr ∨ c ≠ f.blk) :
    (s.wr f v).word c x = s.word c x := by
  unfold State.wr; rw [State.word_setWord]
  rcases h with h | h <;> simp [h]

theorem fieldOf_lt (n lsb w : Nat) : fieldOf n lsb w < 2 ^ w := Nat.mod_lt _ (Nat.two_pow_pos w)

theorem fieldOf_mul_le (n lsb w : Nat) : fieldOf n lsb w * 2 ^ lsb ≤ n := by
  unfold fieldOf
  calc n / 2 ^ lsb % 2 ^ w * 2 ^ lsb ≤ n / 2 ^ lsb * 2 ^ lsb := Nat.mul_le_mul_right _ (Nat.mod_le _ _)
    _ ≤ n := Nat.div_mul_le_self n _

/-- A number split at a field: what lies above it, the field, what lies below. -/
theorem field_split (n lsb w : Nat) : n = (n / 2 ^ (lsb + w)) * 2 ^ (lsb + w) + fieldOf n lsb w * 2 ^ lsb + n % 2 ^ lsb := by
  unfold fieldOf
  have h1 : n = n / 2 ^ lsb * 2 ^ lsb + n % 2 ^ lsb := (Nat.div_add_mod' n (2 ^ lsb)).symm
  have h2 : n / 2 ^ lsb = n / 2 ^ lsb / 2 ^ w * 2 ^ w + n / 2 ^ lsb % 2 ^ w := (Nat.div_add_mod' _ (2 ^ w)).symm
  have h3 : n / 2 ^ lsb / 2 ^ w = n / 2 ^ (lsb + w) := by rw [Nat.div_div_eq_div_mul, Nat.pow_add]
  have h4 : 2 ^ (lsb + w) = 2 ^ w * 2 ^ lsb := by rw [Nat.pow_add, Nat.mul_comm]
  calc n = n / 2 ^ lsb * 2 ^ lsb + n % 2 ^ lsb := h1
    _ = (n / 2 ^ lsb / 2 ^ w * 2 ^ w + n / 2 ^ lsb % 2 ^ w) * 2 ^ lsb + n % 2 ^ lsb := by rw [← h2]
    _ = _ := by rw [h3, h4, Nat.add_mul, Nat.mul_assoc]

theorem setField_eq (n lsb w v : Nat) :
    setField n lsb w v = (n / 2 ^ (lsb + w)) * 2 ^ (lsb + w) + v % 2 ^ w * 2 ^ lsb + n % 2 ^ lsb := by
  have h := field_split n lsb w
  unfold setField
  omega

theorem fieldOf_setField_same (n lsb w v : Nat) : fieldOf (setField n lsb w v) lsb w = v % 2 ^ w := by
  rw [setField_eq]
  unfold fieldOf
  have h1 : n % 2 ^ lsb < 2 ^ lsb := Nat.mod_lt _ (Nat.two_pow_pos lsb)
  have h4 : 2 ^ (lsb + w) = 2 ^ w * 2 ^ lsb := by rw [Nat.pow_add, Nat.mul_comm]
  have h5 : (n / 2 ^ (lsb + w)) * 2 ^ (lsb + w) + v % 2 ^ w * 2 ^ lsb + n % 2 ^ lsb =
      ((n / 2 ^ (lsb + w)) * 2 ^ w + v % 2 ^ w) * 2 ^ lsb + n % 2 ^ lsb := by rw [h4, Nat.add_mul, Nat.mul_assoc]
  rw [h5, Nat.add_comm _ (n % 2 ^ lsb), Nat.add_mul_div_right _ _ (Nat.two_pow_pos lsb), Nat.div_eq_of_lt h1, Nat.zero_add,
    Nat.add_comm, Nat.add_mul_mod_self_right]
  exact Nat.mod_eq_of_lt (Nat.mod_lt _ (Nat.two_pow_pos w))

theorem setField_lt (n lsb w v : Nat) (hn : n < 2 ^ 32) (hw : lsb + w ≤ 32) : setField n lsb w v < 2 ^ 32 := by
  rw [setField_eq]
  have h1 : n % 2 ^ lsb < 2 ^ lsb := Nat.mod_lt _ (Nat.two_pow_pos lsb)
  have h2 : v % 2 ^ w < 2 ^ w := Nat.mod_lt _ (Nat.two_pow_pos w)
  have h4 : 2 ^ (lsb + w) = 2 ^ w * 2 ^ lsb := by rw [Nat.pow_add, Nat.mul_comm]
  have h3 : v % 2 ^ w * 2 ^ lsb + n % 2 ^ lsb < 2 ^ (lsb + w) := by
    rw [h4]
    calc v % 2 ^ w * 2 ^ lsb + n % 2 ^ lsb < v % 2 ^ w * 2 ^ lsb + 2 ^ lsb := by omega
      _ = (v % 2 ^ w + 1) * 2 ^ lsb := by rw [Nat.add_mul, Nat.one_mul]
      _ ≤ 2 ^ w * 2 ^ lsb := Nat.mul_le_mul_right _ h2
  have h5 : n / 2 ^ (lsb + w) < 2 ^ (32 - (lsb + w)) := by
    rw [Nat.div_lt_iff_lt_mul (Nat.two_pow_pos _), ← Nat.pow_add]
    have : 32 - (lsb + w) + (lsb + w) = 32 := by omega
    rw [this]; exact hn
  have h6 : (2 : Nat) ^ 32 = 2 ^ (32 - (lsb + w)) * 2 ^ (lsb + w) := by
    rw [← Nat.pow_add]; congr 1; omega
  calc (n / 2 ^ (lsb + w)) * 2 ^ (lsb + w) + v % 2 ^ w * 2 ^ lsb + n % 2 ^ lsb
      < (n / 2 ^ (lsb + w)) * 2 ^ (lsb + w) + 2 ^ (lsb + w) := by omega
    _ = (n / 2 ^ (lsb + w) + 1) * 2 ^ (lsb + w) := by rw [Nat.add_mul, Nat.one_mul]
    _ ≤ 2 ^ (32 - (lsb + w)) * 2 ^ (lsb + w) := Nat.mul_le_mul_right _ h5
    _ = 2 ^ 32 := h6.symm

/-- A field reads as what was written to it. -/
theorem State.rd_wr_same (s : State) (f : Fld) (v : Nat) (h : f.lsb + f.width ≤ 32) : (s.wr f v).rd f = v % 2 ^ f.width := by
  unfold State.rd State.wr
  rw [State.word_setWord]
  simp only [and_self, if_true]
  rw [BitVec.toNat_ofNat, Nat.mod_eq_of_lt (setField_lt _ _ _ _ (s.word f.blk f.addr).isLt h), fieldOf_setField_same]

/-- A write of one register leaves the fields of the others. -/
theorem State.rd_wr_other (s : State) (f g : Fld) (v : Nat) (h : g.addr ≠ f.addr ∨ g.blk ≠ f.blk) : (s.wr f v).rd g = s.rd g := by
  unfold State.rd; rw [State.word_wr s f v g.blk g.addr h]

theorem fieldOf_setField_above (n lsb w v l k : Nat) (h : lsb + w ≤ l) : fieldOf (setField n lsb w v) l k = fieldOf n l k := by
  unfold fieldOf
  have hs := setField_eq n lsb w v
  have h1 : n % 2 ^ lsb < 2 ^ lsb := Nat.mod_lt _ (Nat.two_pow_pos lsb)
  have h2 : v % 2 ^ w < 2 ^ w := Nat.mod_lt _ (Nat.two_pow_pos w)
  have h4 : 2 ^ (lsb + w) = 2 ^ w * 2 ^ lsb := by rw [Nat.pow_add, Nat.mul_comm]
  have h3 : v % 2 ^ w * 2 ^ lsb + n % 2 ^ lsb < 2 ^ (lsb + w) := by
    rw [h4]
    calc v % 2 ^ w * 2 ^ lsb + n % 2 ^ lsb < v % 2 ^ w * 2 ^ lsb + 2 ^ lsb := by omega
      _ = (v % 2 ^ w + 1) * 2 ^ lsb := by rw [Nat.add_mul, Nat.one_mul]
      _ ≤ 2 ^ w * 2 ^ lsb := Nat.mul_le_mul_right _ h2
  have hd : setField n lsb w v / 2 ^ (lsb + w) = n / 2 ^ (lsb + w) := by
    rw [hs, Nat.add_assoc, Nat.add_comm, Nat.add_mul_div_right _ _ (Nat.two_pow_pos _), Nat.div_eq_of_lt h3, Nat.zero_add]
  obtain ⟨e, rfl⟩ : ∃ e, l = lsb + w + e := ⟨l - (lsb + w), by omega⟩
  rw [Nat.pow_add 2 (lsb + w) e, ← Nat.div_div_eq_div_mul, ← Nat.div_div_eq_div_mul, hd]

theorem fieldOf_setField_below (n lsb w v l k : Nat) (h : l + k ≤ lsb) : fieldOf (setField n lsb w v) l k = fieldOf n l k := by
  have hm : setField n lsb w v % 2 ^ (l + k) = n % 2 ^ (l + k) := by
    rw [setField_eq]
    obtain ⟨e, rfl⟩ : ∃ e, lsb = l + k + e := ⟨lsb - (l + k), by omega⟩
    have a : (n / 2 ^ (l + k + e + w)) * 2 ^ (l + k + e + w) + v % 2 ^ w * 2 ^ (l + k + e) + n % 2 ^ (l + k + e) =
        n % 2 ^ (l + k + e) + ((n / 2 ^ (l + k + e + w)) * 2 ^ (e + w) + v % 2 ^ w * 2 ^ e) * 2 ^ (l + k) := by
      have p1 : (2 : Nat) ^ (l + k + e + w) = 2 ^ (e + w) * 2 ^ (l + k) := by rw [← Nat.pow_add]; congr 1; omega
      have p2 : (2 : Nat) ^ (l + k + e) = 2 ^ e * 2 ^ (l + k) := by rw [← Nat.pow_add]; congr 1; omega
      rw [p1, p2, Nat.add_mul, Nat.mul_assoc, Nat.mul_assoc]; omega
    rw [a, Nat.add_mul_mod_self_right]
    have d : 2 ^ (l + k) ∣ 2 ^ (l + k + e) := Nat.pow_dvd_pow 2 (by omega)
    exact Nat.mod_mod_of_dvd n d
  have key : ∀ m, fieldOf m l k = m % 2 ^ (l + k) / 2 ^ l := by
    intro m
    unfold fieldOf
    rw [Nat.pow_add, Nat.mod_mul_right_div_self]
  rw [key, key, hm]

/-- A write of one field leaves the other fields of its register. -/
theorem State.rd_wr_beside (s : State) (f g : Fld) (v : Nat) (hb : g.blk = f.blk) (ha : g.addr = f.addr) (hf : f.lsb + f.width ≤ 32)
    (h : f.lsb + f.width ≤ g.lsb ∨ g.lsb + g.width ≤ f.lsb) : (s.wr f v).rd g = s.rd g := by
  unfold State.rd State.wr
  rw [State.word_setWord]
  simp only [hb, ha, and_self, if_true]
  rw [BitVec.toNat_ofNat, Nat.mod_eq_of_lt (setField_lt _ _ _ _ (s.word f.blk f.addr).isLt hf)]
  rcases h with h | h
  · exact fieldOf_setField_above _ _ _ _ _ _ h
  · exact fieldOf_setField_below _ _ _ _ _ _ h

/-! ## The fields of State after each named update -/

@[simp] theorem State.setWord_latches (s : State) (b : Blk) (a : Nat) (w : Word) : (s.setWord b a w).latches = s.latches := rfl
@[simp] theorem State.setWord_held (s : State) (b : Blk) (a : Nat) (w : Word) : (s.setWord b a w).held = s.held := rfl
@[simp] theorem State.setWord_canopy (s : State) (b : Blk) (a : Nat) (w : Word) : (s.setWord b a w).canopy = s.canopy := rfl
@[simp] theorem State.setWord_sdram (s : State) (b : Blk) (a : Nat) (w : Word) : (s.setWord b a w).sdram = s.sdram := rfl
@[simp] theorem State.setWord_flash (s : State) (b : Blk) (a : Nat) (w : Word) : (s.setWord b a w).flash = s.flash := rfl
@[simp] theorem State.setWord_host (s : State) (b : Blk) (a : Nat) (w : Word) : (s.setWord b a w).host = s.host := rfl
@[simp] theorem State.setWord_bursts (s : State) (b : Blk) (a : Nat) (w : Word) : (s.setWord b a w).bursts = s.bursts := rfl
@[simp] theorem State.setWord_threads (s : State) (b : Blk) (a : Nat) (w : Word) : (s.setWord b a w).threads = s.threads := rfl
@[simp] theorem State.setWord_groves (s : State) (b : Blk) (a : Nat) (w : Word) : (s.setWord b a w).groves = s.groves := rfl
@[simp] theorem State.setWord_chans (s : State) (b : Blk) (a : Nat) (w : Word) : (s.setWord b a w).chans = s.chans := rfl
@[simp] theorem State.setWord_fab (s : State) (b : Blk) (a : Nat) (w : Word) : (s.setWord b a w).fab = s.fab := rfl
@[simp] theorem State.setWord_str (s : State) (b : Blk) (a : Nat) (w : Word) : (s.setWord b a w).str = s.str := rfl
@[simp] theorem State.setWord_pec (s : State) (b : Blk) (a : Nat) (w : Word) : (s.setWord b a w).pec = s.pec := rfl
@[simp] theorem State.setWord_sync (s : State) (b : Blk) (a : Nat) (w : Word) : (s.setWord b a w).sync = s.sync := rfl
@[simp] theorem State.setWord_streams (s : State) (b : Blk) (a : Nat) (w : Word) : (s.setWord b a w).streams = s.streams := rfl
@[simp] theorem State.setWord_forest (s : State) (b : Blk) (a : Nat) (w : Word) : (s.setWord b a w).forest = s.forest := rfl
@[simp] theorem State.setWord_snaps (s : State) (b : Blk) (a : Nat) (w : Word) : (s.setWord b a w).snaps = s.snaps := rfl
@[simp] theorem State.setWord_fabSets (s : State) (b : Blk) (a : Nat) (w : Word) : (s.setWord b a w).fabSets = s.fabSets := rfl
@[simp] theorem State.setWord_sched (s : State) (b : Blk) (a : Nat) (w : Word) : (s.setWord b a w).sched = s.sched := rfl
@[simp] theorem State.setWord_hq (s : State) (b : Blk) (a : Nat) (w : Word) : (s.setWord b a w).hq = s.hq := rfl
@[simp] theorem State.setWord_flt (s : State) (b : Blk) (a : Nat) (w : Word) : (s.setWord b a w).flt = s.flt := rfl
@[simp] theorem State.setWord_tim (s : State) (b : Blk) (a : Nat) (w : Word) : (s.setWord b a w).tim = s.tim := rfl
@[simp] theorem State.setWord_calHold (s : State) (b : Blk) (a : Nat) (w : Word) : (s.setWord b a w).calHold = s.calHold := rfl
@[simp] theorem State.setWord_acq (s : State) (b : Blk) (a : Nat) (w : Word) : (s.setWord b a w).acq = s.acq := rfl
@[simp] theorem State.setWord_tap (s : State) (b : Blk) (a : Nat) (w : Word) : (s.setWord b a w).tap = s.tap := rfl
@[simp] theorem State.setWord_dscs (s : State) (b : Blk) (a : Nat) (w : Word) : (s.setWord b a w).dscs = s.dscs := rfl
@[simp] theorem State.setWord_trcs (s : State) (b : Blk) (a : Nat) (w : Word) : (s.setWord b a w).trcs = s.trcs := rfl
@[simp] theorem State.setWord_sec (s : State) (b : Blk) (a : Nat) (w : Word) : (s.setWord b a w).sec = s.sec := rfl
@[simp] theorem State.setWord_links (s : State) (b : Blk) (a : Nat) (w : Word) : (s.setWord b a w).links = s.links := rfl
@[simp] theorem State.setWord_clk (s : State) (b : Blk) (a : Nat) (w : Word) : (s.setWord b a w).clk = s.clk := rfl
@[simp] theorem State.setWord_power (s : State) (b : Blk) (a : Nat) (w : Word) : (s.setWord b a w).power = s.power := rfl
@[simp] theorem State.setWord_cal (s : State) (b : Blk) (a : Nat) (w : Word) : (s.setWord b a w).cal = s.cal := rfl
@[simp] theorem State.setWord_dmc (s : State) (b : Blk) (a : Nat) (w : Word) : (s.setWord b a w).dmc = s.dmc := rfl
@[simp] theorem State.setWord_boot (s : State) (b : Blk) (a : Nat) (w : Word) : (s.setWord b a w).boot = s.boot := rfl
@[simp] theorem State.setWord_freeCtr (s : State) (b : Blk) (a : Nat) (w : Word) : (s.setWord b a w).freeCtr = s.freeCtr := rfl
@[simp] theorem State.setWord_pending (s : State) (b : Blk) (a : Nat) (w : Word) : (s.setWord b a w).pending = s.pending := rfl

@[simp] theorem State.wr_latches (s : State) (f : Fld) (v : Nat) : (s.wr f v).latches = s.latches := rfl
@[simp] theorem State.wr_held (s : State) (f : Fld) (v : Nat) : (s.wr f v).held = s.held := rfl
@[simp] theorem State.wr_canopy (s : State) (f : Fld) (v : Nat) : (s.wr f v).canopy = s.canopy := rfl
@[simp] theorem State.wr_sdram (s : State) (f : Fld) (v : Nat) : (s.wr f v).sdram = s.sdram := rfl
@[simp] theorem State.wr_flash (s : State) (f : Fld) (v : Nat) : (s.wr f v).flash = s.flash := rfl
@[simp] theorem State.wr_host (s : State) (f : Fld) (v : Nat) : (s.wr f v).host = s.host := rfl
@[simp] theorem State.wr_bursts (s : State) (f : Fld) (v : Nat) : (s.wr f v).bursts = s.bursts := rfl
@[simp] theorem State.wr_threads (s : State) (f : Fld) (v : Nat) : (s.wr f v).threads = s.threads := rfl
@[simp] theorem State.wr_groves (s : State) (f : Fld) (v : Nat) : (s.wr f v).groves = s.groves := rfl
@[simp] theorem State.wr_chans (s : State) (f : Fld) (v : Nat) : (s.wr f v).chans = s.chans := rfl
@[simp] theorem State.wr_fab (s : State) (f : Fld) (v : Nat) : (s.wr f v).fab = s.fab := rfl
@[simp] theorem State.wr_str (s : State) (f : Fld) (v : Nat) : (s.wr f v).str = s.str := rfl
@[simp] theorem State.wr_pec (s : State) (f : Fld) (v : Nat) : (s.wr f v).pec = s.pec := rfl
@[simp] theorem State.wr_sync (s : State) (f : Fld) (v : Nat) : (s.wr f v).sync = s.sync := rfl
@[simp] theorem State.wr_streams (s : State) (f : Fld) (v : Nat) : (s.wr f v).streams = s.streams := rfl
@[simp] theorem State.wr_forest (s : State) (f : Fld) (v : Nat) : (s.wr f v).forest = s.forest := rfl
@[simp] theorem State.wr_snaps (s : State) (f : Fld) (v : Nat) : (s.wr f v).snaps = s.snaps := rfl
@[simp] theorem State.wr_fabSets (s : State) (f : Fld) (v : Nat) : (s.wr f v).fabSets = s.fabSets := rfl
@[simp] theorem State.wr_sched (s : State) (f : Fld) (v : Nat) : (s.wr f v).sched = s.sched := rfl
@[simp] theorem State.wr_hq (s : State) (f : Fld) (v : Nat) : (s.wr f v).hq = s.hq := rfl
@[simp] theorem State.wr_flt (s : State) (f : Fld) (v : Nat) : (s.wr f v).flt = s.flt := rfl
@[simp] theorem State.wr_tim (s : State) (f : Fld) (v : Nat) : (s.wr f v).tim = s.tim := rfl
@[simp] theorem State.wr_calHold (s : State) (f : Fld) (v : Nat) : (s.wr f v).calHold = s.calHold := rfl
@[simp] theorem State.wr_acq (s : State) (f : Fld) (v : Nat) : (s.wr f v).acq = s.acq := rfl
@[simp] theorem State.wr_tap (s : State) (f : Fld) (v : Nat) : (s.wr f v).tap = s.tap := rfl
@[simp] theorem State.wr_dscs (s : State) (f : Fld) (v : Nat) : (s.wr f v).dscs = s.dscs := rfl
@[simp] theorem State.wr_trcs (s : State) (f : Fld) (v : Nat) : (s.wr f v).trcs = s.trcs := rfl
@[simp] theorem State.wr_sec (s : State) (f : Fld) (v : Nat) : (s.wr f v).sec = s.sec := rfl
@[simp] theorem State.wr_links (s : State) (f : Fld) (v : Nat) : (s.wr f v).links = s.links := rfl
@[simp] theorem State.wr_clk (s : State) (f : Fld) (v : Nat) : (s.wr f v).clk = s.clk := rfl
@[simp] theorem State.wr_power (s : State) (f : Fld) (v : Nat) : (s.wr f v).power = s.power := rfl
@[simp] theorem State.wr_cal (s : State) (f : Fld) (v : Nat) : (s.wr f v).cal = s.cal := rfl
@[simp] theorem State.wr_dmc (s : State) (f : Fld) (v : Nat) : (s.wr f v).dmc = s.dmc := rfl
@[simp] theorem State.wr_boot (s : State) (f : Fld) (v : Nat) : (s.wr f v).boot = s.boot := rfl
@[simp] theorem State.wr_freeCtr (s : State) (f : Fld) (v : Nat) : (s.wr f v).freeCtr = s.freeCtr := rfl
@[simp] theorem State.wr_pending (s : State) (f : Fld) (v : Nat) : (s.wr f v).pending = s.pending := rfl

@[simp] theorem State.wrP_latches (s : State) (f : Fld) (v : Nat) : (s.wrP f v).latches = s.latches := rfl
@[simp] theorem State.wrP_held (s : State) (f : Fld) (v : Nat) : (s.wrP f v).held = s.held := rfl
@[simp] theorem State.wrP_canopy (s : State) (f : Fld) (v : Nat) : (s.wrP f v).canopy = s.canopy := rfl
@[simp] theorem State.wrP_sdram (s : State) (f : Fld) (v : Nat) : (s.wrP f v).sdram = s.sdram := rfl
@[simp] theorem State.wrP_flash (s : State) (f : Fld) (v : Nat) : (s.wrP f v).flash = s.flash := rfl
@[simp] theorem State.wrP_host (s : State) (f : Fld) (v : Nat) : (s.wrP f v).host = s.host := rfl
@[simp] theorem State.wrP_bursts (s : State) (f : Fld) (v : Nat) : (s.wrP f v).bursts = s.bursts := rfl
@[simp] theorem State.wrP_threads (s : State) (f : Fld) (v : Nat) : (s.wrP f v).threads = s.threads := rfl
@[simp] theorem State.wrP_groves (s : State) (f : Fld) (v : Nat) : (s.wrP f v).groves = s.groves := rfl
@[simp] theorem State.wrP_chans (s : State) (f : Fld) (v : Nat) : (s.wrP f v).chans = s.chans := rfl
@[simp] theorem State.wrP_fab (s : State) (f : Fld) (v : Nat) : (s.wrP f v).fab = s.fab := rfl
@[simp] theorem State.wrP_str (s : State) (f : Fld) (v : Nat) : (s.wrP f v).str = s.str := rfl
@[simp] theorem State.wrP_pec (s : State) (f : Fld) (v : Nat) : (s.wrP f v).pec = s.pec := rfl
@[simp] theorem State.wrP_sync (s : State) (f : Fld) (v : Nat) : (s.wrP f v).sync = s.sync := rfl
@[simp] theorem State.wrP_streams (s : State) (f : Fld) (v : Nat) : (s.wrP f v).streams = s.streams := rfl
@[simp] theorem State.wrP_forest (s : State) (f : Fld) (v : Nat) : (s.wrP f v).forest = s.forest := rfl
@[simp] theorem State.wrP_snaps (s : State) (f : Fld) (v : Nat) : (s.wrP f v).snaps = s.snaps := rfl
@[simp] theorem State.wrP_fabSets (s : State) (f : Fld) (v : Nat) : (s.wrP f v).fabSets = s.fabSets := rfl
@[simp] theorem State.wrP_sched (s : State) (f : Fld) (v : Nat) : (s.wrP f v).sched = s.sched := rfl
@[simp] theorem State.wrP_hq (s : State) (f : Fld) (v : Nat) : (s.wrP f v).hq = s.hq := rfl
@[simp] theorem State.wrP_flt (s : State) (f : Fld) (v : Nat) : (s.wrP f v).flt = s.flt := rfl
@[simp] theorem State.wrP_tim (s : State) (f : Fld) (v : Nat) : (s.wrP f v).tim = s.tim := rfl
@[simp] theorem State.wrP_calHold (s : State) (f : Fld) (v : Nat) : (s.wrP f v).calHold = s.calHold := rfl
@[simp] theorem State.wrP_acq (s : State) (f : Fld) (v : Nat) : (s.wrP f v).acq = s.acq := rfl
@[simp] theorem State.wrP_tap (s : State) (f : Fld) (v : Nat) : (s.wrP f v).tap = s.tap := rfl
@[simp] theorem State.wrP_dscs (s : State) (f : Fld) (v : Nat) : (s.wrP f v).dscs = s.dscs := rfl
@[simp] theorem State.wrP_trcs (s : State) (f : Fld) (v : Nat) : (s.wrP f v).trcs = s.trcs := rfl
@[simp] theorem State.wrP_sec (s : State) (f : Fld) (v : Nat) : (s.wrP f v).sec = s.sec := rfl
@[simp] theorem State.wrP_links (s : State) (f : Fld) (v : Nat) : (s.wrP f v).links = s.links := rfl
@[simp] theorem State.wrP_clk (s : State) (f : Fld) (v : Nat) : (s.wrP f v).clk = s.clk := rfl
@[simp] theorem State.wrP_power (s : State) (f : Fld) (v : Nat) : (s.wrP f v).power = s.power := rfl
@[simp] theorem State.wrP_cal (s : State) (f : Fld) (v : Nat) : (s.wrP f v).cal = s.cal := rfl
@[simp] theorem State.wrP_dmc (s : State) (f : Fld) (v : Nat) : (s.wrP f v).dmc = s.dmc := rfl
@[simp] theorem State.wrP_boot (s : State) (f : Fld) (v : Nat) : (s.wrP f v).boot = s.boot := rfl
@[simp] theorem State.wrP_freeCtr (s : State) (f : Fld) (v : Nat) : (s.wrP f v).freeCtr = s.freeCtr := rfl
@[simp] theorem State.wrP_pending (s : State) (f : Fld) (v : Nat) : (s.wrP f v).pending = s.pending := rfl

@[simp] theorem State.incSat_latches (s : State) (f : Fld) (k : Nat) : (s.incSat f k).latches = s.latches := rfl
@[simp] theorem State.incSat_held (s : State) (f : Fld) (k : Nat) : (s.incSat f k).held = s.held := rfl
@[simp] theorem State.incSat_canopy (s : State) (f : Fld) (k : Nat) : (s.incSat f k).canopy = s.canopy := rfl
@[simp] theorem State.incSat_sdram (s : State) (f : Fld) (k : Nat) : (s.incSat f k).sdram = s.sdram := rfl
@[simp] theorem State.incSat_flash (s : State) (f : Fld) (k : Nat) : (s.incSat f k).flash = s.flash := rfl
@[simp] theorem State.incSat_host (s : State) (f : Fld) (k : Nat) : (s.incSat f k).host = s.host := rfl
@[simp] theorem State.incSat_bursts (s : State) (f : Fld) (k : Nat) : (s.incSat f k).bursts = s.bursts := rfl
@[simp] theorem State.incSat_threads (s : State) (f : Fld) (k : Nat) : (s.incSat f k).threads = s.threads := rfl
@[simp] theorem State.incSat_groves (s : State) (f : Fld) (k : Nat) : (s.incSat f k).groves = s.groves := rfl
@[simp] theorem State.incSat_chans (s : State) (f : Fld) (k : Nat) : (s.incSat f k).chans = s.chans := rfl
@[simp] theorem State.incSat_fab (s : State) (f : Fld) (k : Nat) : (s.incSat f k).fab = s.fab := rfl
@[simp] theorem State.incSat_str (s : State) (f : Fld) (k : Nat) : (s.incSat f k).str = s.str := rfl
@[simp] theorem State.incSat_pec (s : State) (f : Fld) (k : Nat) : (s.incSat f k).pec = s.pec := rfl
@[simp] theorem State.incSat_sync (s : State) (f : Fld) (k : Nat) : (s.incSat f k).sync = s.sync := rfl
@[simp] theorem State.incSat_streams (s : State) (f : Fld) (k : Nat) : (s.incSat f k).streams = s.streams := rfl
@[simp] theorem State.incSat_forest (s : State) (f : Fld) (k : Nat) : (s.incSat f k).forest = s.forest := rfl
@[simp] theorem State.incSat_snaps (s : State) (f : Fld) (k : Nat) : (s.incSat f k).snaps = s.snaps := rfl
@[simp] theorem State.incSat_fabSets (s : State) (f : Fld) (k : Nat) : (s.incSat f k).fabSets = s.fabSets := rfl
@[simp] theorem State.incSat_sched (s : State) (f : Fld) (k : Nat) : (s.incSat f k).sched = s.sched := rfl
@[simp] theorem State.incSat_hq (s : State) (f : Fld) (k : Nat) : (s.incSat f k).hq = s.hq := rfl
@[simp] theorem State.incSat_flt (s : State) (f : Fld) (k : Nat) : (s.incSat f k).flt = s.flt := rfl
@[simp] theorem State.incSat_tim (s : State) (f : Fld) (k : Nat) : (s.incSat f k).tim = s.tim := rfl
@[simp] theorem State.incSat_calHold (s : State) (f : Fld) (k : Nat) : (s.incSat f k).calHold = s.calHold := rfl
@[simp] theorem State.incSat_acq (s : State) (f : Fld) (k : Nat) : (s.incSat f k).acq = s.acq := rfl
@[simp] theorem State.incSat_tap (s : State) (f : Fld) (k : Nat) : (s.incSat f k).tap = s.tap := rfl
@[simp] theorem State.incSat_dscs (s : State) (f : Fld) (k : Nat) : (s.incSat f k).dscs = s.dscs := rfl
@[simp] theorem State.incSat_trcs (s : State) (f : Fld) (k : Nat) : (s.incSat f k).trcs = s.trcs := rfl
@[simp] theorem State.incSat_sec (s : State) (f : Fld) (k : Nat) : (s.incSat f k).sec = s.sec := rfl
@[simp] theorem State.incSat_links (s : State) (f : Fld) (k : Nat) : (s.incSat f k).links = s.links := rfl
@[simp] theorem State.incSat_clk (s : State) (f : Fld) (k : Nat) : (s.incSat f k).clk = s.clk := rfl
@[simp] theorem State.incSat_power (s : State) (f : Fld) (k : Nat) : (s.incSat f k).power = s.power := rfl
@[simp] theorem State.incSat_cal (s : State) (f : Fld) (k : Nat) : (s.incSat f k).cal = s.cal := rfl
@[simp] theorem State.incSat_dmc (s : State) (f : Fld) (k : Nat) : (s.incSat f k).dmc = s.dmc := rfl
@[simp] theorem State.incSat_boot (s : State) (f : Fld) (k : Nat) : (s.incSat f k).boot = s.boot := rfl
@[simp] theorem State.incSat_freeCtr (s : State) (f : Fld) (k : Nat) : (s.incSat f k).freeCtr = s.freeCtr := rfl
@[simp] theorem State.incSat_pending (s : State) (f : Fld) (k : Nat) : (s.incSat f k).pending = s.pending := rfl

@[simp] theorem State.incWrap_latches (s : State) (f : Fld) (k : Nat) : (s.incWrap f k).latches = s.latches := rfl
@[simp] theorem State.incWrap_held (s : State) (f : Fld) (k : Nat) : (s.incWrap f k).held = s.held := rfl
@[simp] theorem State.incWrap_canopy (s : State) (f : Fld) (k : Nat) : (s.incWrap f k).canopy = s.canopy := rfl
@[simp] theorem State.incWrap_sdram (s : State) (f : Fld) (k : Nat) : (s.incWrap f k).sdram = s.sdram := rfl
@[simp] theorem State.incWrap_flash (s : State) (f : Fld) (k : Nat) : (s.incWrap f k).flash = s.flash := rfl
@[simp] theorem State.incWrap_host (s : State) (f : Fld) (k : Nat) : (s.incWrap f k).host = s.host := rfl
@[simp] theorem State.incWrap_bursts (s : State) (f : Fld) (k : Nat) : (s.incWrap f k).bursts = s.bursts := rfl
@[simp] theorem State.incWrap_threads (s : State) (f : Fld) (k : Nat) : (s.incWrap f k).threads = s.threads := rfl
@[simp] theorem State.incWrap_groves (s : State) (f : Fld) (k : Nat) : (s.incWrap f k).groves = s.groves := rfl
@[simp] theorem State.incWrap_chans (s : State) (f : Fld) (k : Nat) : (s.incWrap f k).chans = s.chans := rfl
@[simp] theorem State.incWrap_fab (s : State) (f : Fld) (k : Nat) : (s.incWrap f k).fab = s.fab := rfl
@[simp] theorem State.incWrap_str (s : State) (f : Fld) (k : Nat) : (s.incWrap f k).str = s.str := rfl
@[simp] theorem State.incWrap_pec (s : State) (f : Fld) (k : Nat) : (s.incWrap f k).pec = s.pec := rfl
@[simp] theorem State.incWrap_sync (s : State) (f : Fld) (k : Nat) : (s.incWrap f k).sync = s.sync := rfl
@[simp] theorem State.incWrap_streams (s : State) (f : Fld) (k : Nat) : (s.incWrap f k).streams = s.streams := rfl
@[simp] theorem State.incWrap_forest (s : State) (f : Fld) (k : Nat) : (s.incWrap f k).forest = s.forest := rfl
@[simp] theorem State.incWrap_snaps (s : State) (f : Fld) (k : Nat) : (s.incWrap f k).snaps = s.snaps := rfl
@[simp] theorem State.incWrap_fabSets (s : State) (f : Fld) (k : Nat) : (s.incWrap f k).fabSets = s.fabSets := rfl
@[simp] theorem State.incWrap_sched (s : State) (f : Fld) (k : Nat) : (s.incWrap f k).sched = s.sched := rfl
@[simp] theorem State.incWrap_hq (s : State) (f : Fld) (k : Nat) : (s.incWrap f k).hq = s.hq := rfl
@[simp] theorem State.incWrap_flt (s : State) (f : Fld) (k : Nat) : (s.incWrap f k).flt = s.flt := rfl
@[simp] theorem State.incWrap_tim (s : State) (f : Fld) (k : Nat) : (s.incWrap f k).tim = s.tim := rfl
@[simp] theorem State.incWrap_calHold (s : State) (f : Fld) (k : Nat) : (s.incWrap f k).calHold = s.calHold := rfl
@[simp] theorem State.incWrap_acq (s : State) (f : Fld) (k : Nat) : (s.incWrap f k).acq = s.acq := rfl
@[simp] theorem State.incWrap_tap (s : State) (f : Fld) (k : Nat) : (s.incWrap f k).tap = s.tap := rfl
@[simp] theorem State.incWrap_dscs (s : State) (f : Fld) (k : Nat) : (s.incWrap f k).dscs = s.dscs := rfl
@[simp] theorem State.incWrap_trcs (s : State) (f : Fld) (k : Nat) : (s.incWrap f k).trcs = s.trcs := rfl
@[simp] theorem State.incWrap_sec (s : State) (f : Fld) (k : Nat) : (s.incWrap f k).sec = s.sec := rfl
@[simp] theorem State.incWrap_links (s : State) (f : Fld) (k : Nat) : (s.incWrap f k).links = s.links := rfl
@[simp] theorem State.incWrap_clk (s : State) (f : Fld) (k : Nat) : (s.incWrap f k).clk = s.clk := rfl
@[simp] theorem State.incWrap_power (s : State) (f : Fld) (k : Nat) : (s.incWrap f k).power = s.power := rfl
@[simp] theorem State.incWrap_cal (s : State) (f : Fld) (k : Nat) : (s.incWrap f k).cal = s.cal := rfl
@[simp] theorem State.incWrap_dmc (s : State) (f : Fld) (k : Nat) : (s.incWrap f k).dmc = s.dmc := rfl
@[simp] theorem State.incWrap_boot (s : State) (f : Fld) (k : Nat) : (s.incWrap f k).boot = s.boot := rfl
@[simp] theorem State.incWrap_freeCtr (s : State) (f : Fld) (k : Nat) : (s.incWrap f k).freeCtr = s.freeCtr := rfl
@[simp] theorem State.incWrap_pending (s : State) (f : Fld) (k : Nat) : (s.incWrap f k).pending = s.pending := rfl

@[simp] theorem State.flashPuts_regs (s : State) (a : Nat) (l : List Byte) : (s.flashPuts a l).regs = s.regs := rfl
@[simp] theorem State.flashPuts_latches (s : State) (a : Nat) (l : List Byte) : (s.flashPuts a l).latches = s.latches := rfl
@[simp] theorem State.flashPuts_held (s : State) (a : Nat) (l : List Byte) : (s.flashPuts a l).held = s.held := rfl
@[simp] theorem State.flashPuts_canopy (s : State) (a : Nat) (l : List Byte) : (s.flashPuts a l).canopy = s.canopy := rfl
@[simp] theorem State.flashPuts_sdram (s : State) (a : Nat) (l : List Byte) : (s.flashPuts a l).sdram = s.sdram := rfl
@[simp] theorem State.flashPuts_host (s : State) (a : Nat) (l : List Byte) : (s.flashPuts a l).host = s.host := rfl
@[simp] theorem State.flashPuts_bursts (s : State) (a : Nat) (l : List Byte) : (s.flashPuts a l).bursts = s.bursts := rfl
@[simp] theorem State.flashPuts_threads (s : State) (a : Nat) (l : List Byte) : (s.flashPuts a l).threads = s.threads := rfl
@[simp] theorem State.flashPuts_groves (s : State) (a : Nat) (l : List Byte) : (s.flashPuts a l).groves = s.groves := rfl
@[simp] theorem State.flashPuts_chans (s : State) (a : Nat) (l : List Byte) : (s.flashPuts a l).chans = s.chans := rfl
@[simp] theorem State.flashPuts_fab (s : State) (a : Nat) (l : List Byte) : (s.flashPuts a l).fab = s.fab := rfl
@[simp] theorem State.flashPuts_str (s : State) (a : Nat) (l : List Byte) : (s.flashPuts a l).str = s.str := rfl
@[simp] theorem State.flashPuts_pec (s : State) (a : Nat) (l : List Byte) : (s.flashPuts a l).pec = s.pec := rfl
@[simp] theorem State.flashPuts_sync (s : State) (a : Nat) (l : List Byte) : (s.flashPuts a l).sync = s.sync := rfl
@[simp] theorem State.flashPuts_streams (s : State) (a : Nat) (l : List Byte) : (s.flashPuts a l).streams = s.streams := rfl
@[simp] theorem State.flashPuts_forest (s : State) (a : Nat) (l : List Byte) : (s.flashPuts a l).forest = s.forest := rfl
@[simp] theorem State.flashPuts_snaps (s : State) (a : Nat) (l : List Byte) : (s.flashPuts a l).snaps = s.snaps := rfl
@[simp] theorem State.flashPuts_fabSets (s : State) (a : Nat) (l : List Byte) : (s.flashPuts a l).fabSets = s.fabSets := rfl
@[simp] theorem State.flashPuts_sched (s : State) (a : Nat) (l : List Byte) : (s.flashPuts a l).sched = s.sched := rfl
@[simp] theorem State.flashPuts_hq (s : State) (a : Nat) (l : List Byte) : (s.flashPuts a l).hq = s.hq := rfl
@[simp] theorem State.flashPuts_flt (s : State) (a : Nat) (l : List Byte) : (s.flashPuts a l).flt = s.flt := rfl
@[simp] theorem State.flashPuts_tim (s : State) (a : Nat) (l : List Byte) : (s.flashPuts a l).tim = s.tim := rfl
@[simp] theorem State.flashPuts_calHold (s : State) (a : Nat) (l : List Byte) : (s.flashPuts a l).calHold = s.calHold := rfl
@[simp] theorem State.flashPuts_acq (s : State) (a : Nat) (l : List Byte) : (s.flashPuts a l).acq = s.acq := rfl
@[simp] theorem State.flashPuts_tap (s : State) (a : Nat) (l : List Byte) : (s.flashPuts a l).tap = s.tap := rfl
@[simp] theorem State.flashPuts_dscs (s : State) (a : Nat) (l : List Byte) : (s.flashPuts a l).dscs = s.dscs := rfl
@[simp] theorem State.flashPuts_trcs (s : State) (a : Nat) (l : List Byte) : (s.flashPuts a l).trcs = s.trcs := rfl
@[simp] theorem State.flashPuts_sec (s : State) (a : Nat) (l : List Byte) : (s.flashPuts a l).sec = s.sec := rfl
@[simp] theorem State.flashPuts_links (s : State) (a : Nat) (l : List Byte) : (s.flashPuts a l).links = s.links := rfl
@[simp] theorem State.flashPuts_clk (s : State) (a : Nat) (l : List Byte) : (s.flashPuts a l).clk = s.clk := rfl
@[simp] theorem State.flashPuts_power (s : State) (a : Nat) (l : List Byte) : (s.flashPuts a l).power = s.power := rfl
@[simp] theorem State.flashPuts_cal (s : State) (a : Nat) (l : List Byte) : (s.flashPuts a l).cal = s.cal := rfl
@[simp] theorem State.flashPuts_dmc (s : State) (a : Nat) (l : List Byte) : (s.flashPuts a l).dmc = s.dmc := rfl
@[simp] theorem State.flashPuts_boot (s : State) (a : Nat) (l : List Byte) : (s.flashPuts a l).boot = s.boot := rfl
@[simp] theorem State.flashPuts_freeCtr (s : State) (a : Nat) (l : List Byte) : (s.flashPuts a l).freeCtr = s.freeCtr := rfl
@[simp] theorem State.flashPuts_pending (s : State) (a : Nat) (l : List Byte) : (s.flashPuts a l).pending = s.pending := rfl

@[simp] theorem State.flashErase_regs (s : State) (a n : Nat) : (s.flashErase a n).regs = s.regs := rfl
@[simp] theorem State.flashErase_latches (s : State) (a n : Nat) : (s.flashErase a n).latches = s.latches := rfl
@[simp] theorem State.flashErase_held (s : State) (a n : Nat) : (s.flashErase a n).held = s.held := rfl
@[simp] theorem State.flashErase_canopy (s : State) (a n : Nat) : (s.flashErase a n).canopy = s.canopy := rfl
@[simp] theorem State.flashErase_sdram (s : State) (a n : Nat) : (s.flashErase a n).sdram = s.sdram := rfl
@[simp] theorem State.flashErase_host (s : State) (a n : Nat) : (s.flashErase a n).host = s.host := rfl
@[simp] theorem State.flashErase_bursts (s : State) (a n : Nat) : (s.flashErase a n).bursts = s.bursts := rfl
@[simp] theorem State.flashErase_threads (s : State) (a n : Nat) : (s.flashErase a n).threads = s.threads := rfl
@[simp] theorem State.flashErase_groves (s : State) (a n : Nat) : (s.flashErase a n).groves = s.groves := rfl
@[simp] theorem State.flashErase_chans (s : State) (a n : Nat) : (s.flashErase a n).chans = s.chans := rfl
@[simp] theorem State.flashErase_fab (s : State) (a n : Nat) : (s.flashErase a n).fab = s.fab := rfl
@[simp] theorem State.flashErase_str (s : State) (a n : Nat) : (s.flashErase a n).str = s.str := rfl
@[simp] theorem State.flashErase_pec (s : State) (a n : Nat) : (s.flashErase a n).pec = s.pec := rfl
@[simp] theorem State.flashErase_sync (s : State) (a n : Nat) : (s.flashErase a n).sync = s.sync := rfl
@[simp] theorem State.flashErase_streams (s : State) (a n : Nat) : (s.flashErase a n).streams = s.streams := rfl
@[simp] theorem State.flashErase_forest (s : State) (a n : Nat) : (s.flashErase a n).forest = s.forest := rfl
@[simp] theorem State.flashErase_snaps (s : State) (a n : Nat) : (s.flashErase a n).snaps = s.snaps := rfl
@[simp] theorem State.flashErase_fabSets (s : State) (a n : Nat) : (s.flashErase a n).fabSets = s.fabSets := rfl
@[simp] theorem State.flashErase_sched (s : State) (a n : Nat) : (s.flashErase a n).sched = s.sched := rfl
@[simp] theorem State.flashErase_hq (s : State) (a n : Nat) : (s.flashErase a n).hq = s.hq := rfl
@[simp] theorem State.flashErase_flt (s : State) (a n : Nat) : (s.flashErase a n).flt = s.flt := rfl
@[simp] theorem State.flashErase_tim (s : State) (a n : Nat) : (s.flashErase a n).tim = s.tim := rfl
@[simp] theorem State.flashErase_calHold (s : State) (a n : Nat) : (s.flashErase a n).calHold = s.calHold := rfl
@[simp] theorem State.flashErase_acq (s : State) (a n : Nat) : (s.flashErase a n).acq = s.acq := rfl
@[simp] theorem State.flashErase_tap (s : State) (a n : Nat) : (s.flashErase a n).tap = s.tap := rfl
@[simp] theorem State.flashErase_dscs (s : State) (a n : Nat) : (s.flashErase a n).dscs = s.dscs := rfl
@[simp] theorem State.flashErase_trcs (s : State) (a n : Nat) : (s.flashErase a n).trcs = s.trcs := rfl
@[simp] theorem State.flashErase_sec (s : State) (a n : Nat) : (s.flashErase a n).sec = s.sec := rfl
@[simp] theorem State.flashErase_links (s : State) (a n : Nat) : (s.flashErase a n).links = s.links := rfl
@[simp] theorem State.flashErase_clk (s : State) (a n : Nat) : (s.flashErase a n).clk = s.clk := rfl
@[simp] theorem State.flashErase_power (s : State) (a n : Nat) : (s.flashErase a n).power = s.power := rfl
@[simp] theorem State.flashErase_cal (s : State) (a n : Nat) : (s.flashErase a n).cal = s.cal := rfl
@[simp] theorem State.flashErase_dmc (s : State) (a n : Nat) : (s.flashErase a n).dmc = s.dmc := rfl
@[simp] theorem State.flashErase_boot (s : State) (a n : Nat) : (s.flashErase a n).boot = s.boot := rfl
@[simp] theorem State.flashErase_freeCtr (s : State) (a n : Nat) : (s.flashErase a n).freeCtr = s.freeCtr := rfl
@[simp] theorem State.flashErase_pending (s : State) (a n : Nat) : (s.flashErase a n).pending = s.pending := rfl

@[simp] theorem State.modThread_regs (s : State) (i : Fin 32) (f : Thread → Thread) : (s.modThread i f).regs = s.regs := rfl
@[simp] theorem State.modThread_latches (s : State) (i : Fin 32) (f : Thread → Thread) : (s.modThread i f).latches = s.latches := rfl
@[simp] theorem State.modThread_held (s : State) (i : Fin 32) (f : Thread → Thread) : (s.modThread i f).held = s.held := rfl
@[simp] theorem State.modThread_canopy (s : State) (i : Fin 32) (f : Thread → Thread) : (s.modThread i f).canopy = s.canopy := rfl
@[simp] theorem State.modThread_sdram (s : State) (i : Fin 32) (f : Thread → Thread) : (s.modThread i f).sdram = s.sdram := rfl
@[simp] theorem State.modThread_flash (s : State) (i : Fin 32) (f : Thread → Thread) : (s.modThread i f).flash = s.flash := rfl
@[simp] theorem State.modThread_host (s : State) (i : Fin 32) (f : Thread → Thread) : (s.modThread i f).host = s.host := rfl
@[simp] theorem State.modThread_bursts (s : State) (i : Fin 32) (f : Thread → Thread) : (s.modThread i f).bursts = s.bursts := rfl
@[simp] theorem State.modThread_groves (s : State) (i : Fin 32) (f : Thread → Thread) : (s.modThread i f).groves = s.groves := rfl
@[simp] theorem State.modThread_chans (s : State) (i : Fin 32) (f : Thread → Thread) : (s.modThread i f).chans = s.chans := rfl
@[simp] theorem State.modThread_fab (s : State) (i : Fin 32) (f : Thread → Thread) : (s.modThread i f).fab = s.fab := rfl
@[simp] theorem State.modThread_str (s : State) (i : Fin 32) (f : Thread → Thread) : (s.modThread i f).str = s.str := rfl
@[simp] theorem State.modThread_pec (s : State) (i : Fin 32) (f : Thread → Thread) : (s.modThread i f).pec = s.pec := rfl
@[simp] theorem State.modThread_sync (s : State) (i : Fin 32) (f : Thread → Thread) : (s.modThread i f).sync = s.sync := rfl
@[simp] theorem State.modThread_streams (s : State) (i : Fin 32) (f : Thread → Thread) : (s.modThread i f).streams = s.streams := rfl
@[simp] theorem State.modThread_forest (s : State) (i : Fin 32) (f : Thread → Thread) : (s.modThread i f).forest = s.forest := rfl
@[simp] theorem State.modThread_snaps (s : State) (i : Fin 32) (f : Thread → Thread) : (s.modThread i f).snaps = s.snaps := rfl
@[simp] theorem State.modThread_fabSets (s : State) (i : Fin 32) (f : Thread → Thread) : (s.modThread i f).fabSets = s.fabSets := rfl
@[simp] theorem State.modThread_sched (s : State) (i : Fin 32) (f : Thread → Thread) : (s.modThread i f).sched = s.sched := rfl
@[simp] theorem State.modThread_hq (s : State) (i : Fin 32) (f : Thread → Thread) : (s.modThread i f).hq = s.hq := rfl
@[simp] theorem State.modThread_flt (s : State) (i : Fin 32) (f : Thread → Thread) : (s.modThread i f).flt = s.flt := rfl
@[simp] theorem State.modThread_tim (s : State) (i : Fin 32) (f : Thread → Thread) : (s.modThread i f).tim = s.tim := rfl
@[simp] theorem State.modThread_calHold (s : State) (i : Fin 32) (f : Thread → Thread) : (s.modThread i f).calHold = s.calHold := rfl
@[simp] theorem State.modThread_acq (s : State) (i : Fin 32) (f : Thread → Thread) : (s.modThread i f).acq = s.acq := rfl
@[simp] theorem State.modThread_tap (s : State) (i : Fin 32) (f : Thread → Thread) : (s.modThread i f).tap = s.tap := rfl
@[simp] theorem State.modThread_dscs (s : State) (i : Fin 32) (f : Thread → Thread) : (s.modThread i f).dscs = s.dscs := rfl
@[simp] theorem State.modThread_trcs (s : State) (i : Fin 32) (f : Thread → Thread) : (s.modThread i f).trcs = s.trcs := rfl
@[simp] theorem State.modThread_sec (s : State) (i : Fin 32) (f : Thread → Thread) : (s.modThread i f).sec = s.sec := rfl
@[simp] theorem State.modThread_links (s : State) (i : Fin 32) (f : Thread → Thread) : (s.modThread i f).links = s.links := rfl
@[simp] theorem State.modThread_clk (s : State) (i : Fin 32) (f : Thread → Thread) : (s.modThread i f).clk = s.clk := rfl
@[simp] theorem State.modThread_power (s : State) (i : Fin 32) (f : Thread → Thread) : (s.modThread i f).power = s.power := rfl
@[simp] theorem State.modThread_cal (s : State) (i : Fin 32) (f : Thread → Thread) : (s.modThread i f).cal = s.cal := rfl
@[simp] theorem State.modThread_dmc (s : State) (i : Fin 32) (f : Thread → Thread) : (s.modThread i f).dmc = s.dmc := rfl
@[simp] theorem State.modThread_boot (s : State) (i : Fin 32) (f : Thread → Thread) : (s.modThread i f).boot = s.boot := rfl
@[simp] theorem State.modThread_freeCtr (s : State) (i : Fin 32) (f : Thread → Thread) : (s.modThread i f).freeCtr = s.freeCtr := rfl
@[simp] theorem State.modThread_pending (s : State) (i : Fin 32) (f : Thread → Thread) : (s.modThread i f).pending = s.pending := rfl

@[simp] theorem State.modGrove_regs (s : State) (i : Fin 32) (f : Grove → Grove) : (s.modGrove i f).regs = s.regs := rfl
@[simp] theorem State.modGrove_latches (s : State) (i : Fin 32) (f : Grove → Grove) : (s.modGrove i f).latches = s.latches := rfl
@[simp] theorem State.modGrove_held (s : State) (i : Fin 32) (f : Grove → Grove) : (s.modGrove i f).held = s.held := rfl
@[simp] theorem State.modGrove_canopy (s : State) (i : Fin 32) (f : Grove → Grove) : (s.modGrove i f).canopy = s.canopy := rfl
@[simp] theorem State.modGrove_sdram (s : State) (i : Fin 32) (f : Grove → Grove) : (s.modGrove i f).sdram = s.sdram := rfl
@[simp] theorem State.modGrove_flash (s : State) (i : Fin 32) (f : Grove → Grove) : (s.modGrove i f).flash = s.flash := rfl
@[simp] theorem State.modGrove_host (s : State) (i : Fin 32) (f : Grove → Grove) : (s.modGrove i f).host = s.host := rfl
@[simp] theorem State.modGrove_bursts (s : State) (i : Fin 32) (f : Grove → Grove) : (s.modGrove i f).bursts = s.bursts := rfl
@[simp] theorem State.modGrove_threads (s : State) (i : Fin 32) (f : Grove → Grove) : (s.modGrove i f).threads = s.threads := rfl
@[simp] theorem State.modGrove_chans (s : State) (i : Fin 32) (f : Grove → Grove) : (s.modGrove i f).chans = s.chans := rfl
@[simp] theorem State.modGrove_fab (s : State) (i : Fin 32) (f : Grove → Grove) : (s.modGrove i f).fab = s.fab := rfl
@[simp] theorem State.modGrove_str (s : State) (i : Fin 32) (f : Grove → Grove) : (s.modGrove i f).str = s.str := rfl
@[simp] theorem State.modGrove_pec (s : State) (i : Fin 32) (f : Grove → Grove) : (s.modGrove i f).pec = s.pec := rfl
@[simp] theorem State.modGrove_sync (s : State) (i : Fin 32) (f : Grove → Grove) : (s.modGrove i f).sync = s.sync := rfl
@[simp] theorem State.modGrove_streams (s : State) (i : Fin 32) (f : Grove → Grove) : (s.modGrove i f).streams = s.streams := rfl
@[simp] theorem State.modGrove_forest (s : State) (i : Fin 32) (f : Grove → Grove) : (s.modGrove i f).forest = s.forest := rfl
@[simp] theorem State.modGrove_snaps (s : State) (i : Fin 32) (f : Grove → Grove) : (s.modGrove i f).snaps = s.snaps := rfl
@[simp] theorem State.modGrove_fabSets (s : State) (i : Fin 32) (f : Grove → Grove) : (s.modGrove i f).fabSets = s.fabSets := rfl
@[simp] theorem State.modGrove_sched (s : State) (i : Fin 32) (f : Grove → Grove) : (s.modGrove i f).sched = s.sched := rfl
@[simp] theorem State.modGrove_hq (s : State) (i : Fin 32) (f : Grove → Grove) : (s.modGrove i f).hq = s.hq := rfl
@[simp] theorem State.modGrove_flt (s : State) (i : Fin 32) (f : Grove → Grove) : (s.modGrove i f).flt = s.flt := rfl
@[simp] theorem State.modGrove_tim (s : State) (i : Fin 32) (f : Grove → Grove) : (s.modGrove i f).tim = s.tim := rfl
@[simp] theorem State.modGrove_calHold (s : State) (i : Fin 32) (f : Grove → Grove) : (s.modGrove i f).calHold = s.calHold := rfl
@[simp] theorem State.modGrove_acq (s : State) (i : Fin 32) (f : Grove → Grove) : (s.modGrove i f).acq = s.acq := rfl
@[simp] theorem State.modGrove_tap (s : State) (i : Fin 32) (f : Grove → Grove) : (s.modGrove i f).tap = s.tap := rfl
@[simp] theorem State.modGrove_dscs (s : State) (i : Fin 32) (f : Grove → Grove) : (s.modGrove i f).dscs = s.dscs := rfl
@[simp] theorem State.modGrove_trcs (s : State) (i : Fin 32) (f : Grove → Grove) : (s.modGrove i f).trcs = s.trcs := rfl
@[simp] theorem State.modGrove_sec (s : State) (i : Fin 32) (f : Grove → Grove) : (s.modGrove i f).sec = s.sec := rfl
@[simp] theorem State.modGrove_links (s : State) (i : Fin 32) (f : Grove → Grove) : (s.modGrove i f).links = s.links := rfl
@[simp] theorem State.modGrove_clk (s : State) (i : Fin 32) (f : Grove → Grove) : (s.modGrove i f).clk = s.clk := rfl
@[simp] theorem State.modGrove_power (s : State) (i : Fin 32) (f : Grove → Grove) : (s.modGrove i f).power = s.power := rfl
@[simp] theorem State.modGrove_cal (s : State) (i : Fin 32) (f : Grove → Grove) : (s.modGrove i f).cal = s.cal := rfl
@[simp] theorem State.modGrove_dmc (s : State) (i : Fin 32) (f : Grove → Grove) : (s.modGrove i f).dmc = s.dmc := rfl
@[simp] theorem State.modGrove_boot (s : State) (i : Fin 32) (f : Grove → Grove) : (s.modGrove i f).boot = s.boot := rfl
@[simp] theorem State.modGrove_freeCtr (s : State) (i : Fin 32) (f : Grove → Grove) : (s.modGrove i f).freeCtr = s.freeCtr := rfl
@[simp] theorem State.modGrove_pending (s : State) (i : Fin 32) (f : Grove → Grove) : (s.modGrove i f).pending = s.pending := rfl

@[simp] theorem State.modChan_regs (s : State) (i : Fin 128) (f : Chan → Chan) : (s.modChan i f).regs = s.regs := rfl
@[simp] theorem State.modChan_latches (s : State) (i : Fin 128) (f : Chan → Chan) : (s.modChan i f).latches = s.latches := rfl
@[simp] theorem State.modChan_held (s : State) (i : Fin 128) (f : Chan → Chan) : (s.modChan i f).held = s.held := rfl
@[simp] theorem State.modChan_canopy (s : State) (i : Fin 128) (f : Chan → Chan) : (s.modChan i f).canopy = s.canopy := rfl
@[simp] theorem State.modChan_sdram (s : State) (i : Fin 128) (f : Chan → Chan) : (s.modChan i f).sdram = s.sdram := rfl
@[simp] theorem State.modChan_flash (s : State) (i : Fin 128) (f : Chan → Chan) : (s.modChan i f).flash = s.flash := rfl
@[simp] theorem State.modChan_host (s : State) (i : Fin 128) (f : Chan → Chan) : (s.modChan i f).host = s.host := rfl
@[simp] theorem State.modChan_bursts (s : State) (i : Fin 128) (f : Chan → Chan) : (s.modChan i f).bursts = s.bursts := rfl
@[simp] theorem State.modChan_threads (s : State) (i : Fin 128) (f : Chan → Chan) : (s.modChan i f).threads = s.threads := rfl
@[simp] theorem State.modChan_groves (s : State) (i : Fin 128) (f : Chan → Chan) : (s.modChan i f).groves = s.groves := rfl
@[simp] theorem State.modChan_fab (s : State) (i : Fin 128) (f : Chan → Chan) : (s.modChan i f).fab = s.fab := rfl
@[simp] theorem State.modChan_str (s : State) (i : Fin 128) (f : Chan → Chan) : (s.modChan i f).str = s.str := rfl
@[simp] theorem State.modChan_pec (s : State) (i : Fin 128) (f : Chan → Chan) : (s.modChan i f).pec = s.pec := rfl
@[simp] theorem State.modChan_sync (s : State) (i : Fin 128) (f : Chan → Chan) : (s.modChan i f).sync = s.sync := rfl
@[simp] theorem State.modChan_streams (s : State) (i : Fin 128) (f : Chan → Chan) : (s.modChan i f).streams = s.streams := rfl
@[simp] theorem State.modChan_forest (s : State) (i : Fin 128) (f : Chan → Chan) : (s.modChan i f).forest = s.forest := rfl
@[simp] theorem State.modChan_snaps (s : State) (i : Fin 128) (f : Chan → Chan) : (s.modChan i f).snaps = s.snaps := rfl
@[simp] theorem State.modChan_fabSets (s : State) (i : Fin 128) (f : Chan → Chan) : (s.modChan i f).fabSets = s.fabSets := rfl
@[simp] theorem State.modChan_sched (s : State) (i : Fin 128) (f : Chan → Chan) : (s.modChan i f).sched = s.sched := rfl
@[simp] theorem State.modChan_hq (s : State) (i : Fin 128) (f : Chan → Chan) : (s.modChan i f).hq = s.hq := rfl
@[simp] theorem State.modChan_flt (s : State) (i : Fin 128) (f : Chan → Chan) : (s.modChan i f).flt = s.flt := rfl
@[simp] theorem State.modChan_tim (s : State) (i : Fin 128) (f : Chan → Chan) : (s.modChan i f).tim = s.tim := rfl
@[simp] theorem State.modChan_calHold (s : State) (i : Fin 128) (f : Chan → Chan) : (s.modChan i f).calHold = s.calHold := rfl
@[simp] theorem State.modChan_acq (s : State) (i : Fin 128) (f : Chan → Chan) : (s.modChan i f).acq = s.acq := rfl
@[simp] theorem State.modChan_tap (s : State) (i : Fin 128) (f : Chan → Chan) : (s.modChan i f).tap = s.tap := rfl
@[simp] theorem State.modChan_dscs (s : State) (i : Fin 128) (f : Chan → Chan) : (s.modChan i f).dscs = s.dscs := rfl
@[simp] theorem State.modChan_trcs (s : State) (i : Fin 128) (f : Chan → Chan) : (s.modChan i f).trcs = s.trcs := rfl
@[simp] theorem State.modChan_sec (s : State) (i : Fin 128) (f : Chan → Chan) : (s.modChan i f).sec = s.sec := rfl
@[simp] theorem State.modChan_links (s : State) (i : Fin 128) (f : Chan → Chan) : (s.modChan i f).links = s.links := rfl
@[simp] theorem State.modChan_clk (s : State) (i : Fin 128) (f : Chan → Chan) : (s.modChan i f).clk = s.clk := rfl
@[simp] theorem State.modChan_power (s : State) (i : Fin 128) (f : Chan → Chan) : (s.modChan i f).power = s.power := rfl
@[simp] theorem State.modChan_cal (s : State) (i : Fin 128) (f : Chan → Chan) : (s.modChan i f).cal = s.cal := rfl
@[simp] theorem State.modChan_dmc (s : State) (i : Fin 128) (f : Chan → Chan) : (s.modChan i f).dmc = s.dmc := rfl
@[simp] theorem State.modChan_boot (s : State) (i : Fin 128) (f : Chan → Chan) : (s.modChan i f).boot = s.boot := rfl
@[simp] theorem State.modChan_freeCtr (s : State) (i : Fin 128) (f : Chan → Chan) : (s.modChan i f).freeCtr = s.freeCtr := rfl
@[simp] theorem State.modChan_pending (s : State) (i : Fin 128) (f : Chan → Chan) : (s.modChan i f).pending = s.pending := rfl

@[simp] theorem State.modCore_regs (s : State) (i : Fin 8) (f : Core → Core) : (s.modCore i f).regs = s.regs := rfl
@[simp] theorem State.modCore_latches (s : State) (i : Fin 8) (f : Core → Core) : (s.modCore i f).latches = s.latches := rfl
@[simp] theorem State.modCore_held (s : State) (i : Fin 8) (f : Core → Core) : (s.modCore i f).held = s.held := rfl
@[simp] theorem State.modCore_canopy (s : State) (i : Fin 8) (f : Core → Core) : (s.modCore i f).canopy = s.canopy := rfl
@[simp] theorem State.modCore_sdram (s : State) (i : Fin 8) (f : Core → Core) : (s.modCore i f).sdram = s.sdram := rfl
@[simp] theorem State.modCore_flash (s : State) (i : Fin 8) (f : Core → Core) : (s.modCore i f).flash = s.flash := rfl
@[simp] theorem State.modCore_host (s : State) (i : Fin 8) (f : Core → Core) : (s.modCore i f).host = s.host := rfl
@[simp] theorem State.modCore_bursts (s : State) (i : Fin 8) (f : Core → Core) : (s.modCore i f).bursts = s.bursts := rfl
@[simp] theorem State.modCore_threads (s : State) (i : Fin 8) (f : Core → Core) : (s.modCore i f).threads = s.threads := rfl
@[simp] theorem State.modCore_groves (s : State) (i : Fin 8) (f : Core → Core) : (s.modCore i f).groves = s.groves := rfl
@[simp] theorem State.modCore_chans (s : State) (i : Fin 8) (f : Core → Core) : (s.modCore i f).chans = s.chans := rfl
@[simp] theorem State.modCore_fab (s : State) (i : Fin 8) (f : Core → Core) : (s.modCore i f).fab = s.fab := rfl
@[simp] theorem State.modCore_str (s : State) (i : Fin 8) (f : Core → Core) : (s.modCore i f).str = s.str := rfl
@[simp] theorem State.modCore_pec (s : State) (i : Fin 8) (f : Core → Core) : (s.modCore i f).pec = s.pec := rfl
@[simp] theorem State.modCore_sync (s : State) (i : Fin 8) (f : Core → Core) : (s.modCore i f).sync = s.sync := rfl
@[simp] theorem State.modCore_streams (s : State) (i : Fin 8) (f : Core → Core) : (s.modCore i f).streams = s.streams := rfl
@[simp] theorem State.modCore_forest (s : State) (i : Fin 8) (f : Core → Core) : (s.modCore i f).forest = s.forest := rfl
@[simp] theorem State.modCore_snaps (s : State) (i : Fin 8) (f : Core → Core) : (s.modCore i f).snaps = s.snaps := rfl
@[simp] theorem State.modCore_fabSets (s : State) (i : Fin 8) (f : Core → Core) : (s.modCore i f).fabSets = s.fabSets := rfl
@[simp] theorem State.modCore_hq (s : State) (i : Fin 8) (f : Core → Core) : (s.modCore i f).hq = s.hq := rfl
@[simp] theorem State.modCore_flt (s : State) (i : Fin 8) (f : Core → Core) : (s.modCore i f).flt = s.flt := rfl
@[simp] theorem State.modCore_tim (s : State) (i : Fin 8) (f : Core → Core) : (s.modCore i f).tim = s.tim := rfl
@[simp] theorem State.modCore_calHold (s : State) (i : Fin 8) (f : Core → Core) : (s.modCore i f).calHold = s.calHold := rfl
@[simp] theorem State.modCore_acq (s : State) (i : Fin 8) (f : Core → Core) : (s.modCore i f).acq = s.acq := rfl
@[simp] theorem State.modCore_tap (s : State) (i : Fin 8) (f : Core → Core) : (s.modCore i f).tap = s.tap := rfl
@[simp] theorem State.modCore_dscs (s : State) (i : Fin 8) (f : Core → Core) : (s.modCore i f).dscs = s.dscs := rfl
@[simp] theorem State.modCore_trcs (s : State) (i : Fin 8) (f : Core → Core) : (s.modCore i f).trcs = s.trcs := rfl
@[simp] theorem State.modCore_sec (s : State) (i : Fin 8) (f : Core → Core) : (s.modCore i f).sec = s.sec := rfl
@[simp] theorem State.modCore_links (s : State) (i : Fin 8) (f : Core → Core) : (s.modCore i f).links = s.links := rfl
@[simp] theorem State.modCore_clk (s : State) (i : Fin 8) (f : Core → Core) : (s.modCore i f).clk = s.clk := rfl
@[simp] theorem State.modCore_power (s : State) (i : Fin 8) (f : Core → Core) : (s.modCore i f).power = s.power := rfl
@[simp] theorem State.modCore_cal (s : State) (i : Fin 8) (f : Core → Core) : (s.modCore i f).cal = s.cal := rfl
@[simp] theorem State.modCore_dmc (s : State) (i : Fin 8) (f : Core → Core) : (s.modCore i f).dmc = s.dmc := rfl
@[simp] theorem State.modCore_boot (s : State) (i : Fin 8) (f : Core → Core) : (s.modCore i f).boot = s.boot := rfl
@[simp] theorem State.modCore_freeCtr (s : State) (i : Fin 8) (f : Core → Core) : (s.modCore i f).freeCtr = s.freeCtr := rfl
@[simp] theorem State.modCore_pending (s : State) (i : Fin 8) (f : Core → Core) : (s.modCore i f).pending = s.pending := rfl

@[simp] theorem State.modQueue_regs (s : State) (i : Fin 16) (f : QueuePair → QueuePair) : (s.modQueue i f).regs = s.regs := rfl
@[simp] theorem State.modQueue_latches (s : State) (i : Fin 16) (f : QueuePair → QueuePair) : (s.modQueue i f).latches = s.latches := rfl
@[simp] theorem State.modQueue_held (s : State) (i : Fin 16) (f : QueuePair → QueuePair) : (s.modQueue i f).held = s.held := rfl
@[simp] theorem State.modQueue_canopy (s : State) (i : Fin 16) (f : QueuePair → QueuePair) : (s.modQueue i f).canopy = s.canopy := rfl
@[simp] theorem State.modQueue_sdram (s : State) (i : Fin 16) (f : QueuePair → QueuePair) : (s.modQueue i f).sdram = s.sdram := rfl
@[simp] theorem State.modQueue_flash (s : State) (i : Fin 16) (f : QueuePair → QueuePair) : (s.modQueue i f).flash = s.flash := rfl
@[simp] theorem State.modQueue_host (s : State) (i : Fin 16) (f : QueuePair → QueuePair) : (s.modQueue i f).host = s.host := rfl
@[simp] theorem State.modQueue_bursts (s : State) (i : Fin 16) (f : QueuePair → QueuePair) : (s.modQueue i f).bursts = s.bursts := rfl
@[simp] theorem State.modQueue_threads (s : State) (i : Fin 16) (f : QueuePair → QueuePair) : (s.modQueue i f).threads = s.threads := rfl
@[simp] theorem State.modQueue_groves (s : State) (i : Fin 16) (f : QueuePair → QueuePair) : (s.modQueue i f).groves = s.groves := rfl
@[simp] theorem State.modQueue_chans (s : State) (i : Fin 16) (f : QueuePair → QueuePair) : (s.modQueue i f).chans = s.chans := rfl
@[simp] theorem State.modQueue_fab (s : State) (i : Fin 16) (f : QueuePair → QueuePair) : (s.modQueue i f).fab = s.fab := rfl
@[simp] theorem State.modQueue_str (s : State) (i : Fin 16) (f : QueuePair → QueuePair) : (s.modQueue i f).str = s.str := rfl
@[simp] theorem State.modQueue_pec (s : State) (i : Fin 16) (f : QueuePair → QueuePair) : (s.modQueue i f).pec = s.pec := rfl
@[simp] theorem State.modQueue_sync (s : State) (i : Fin 16) (f : QueuePair → QueuePair) : (s.modQueue i f).sync = s.sync := rfl
@[simp] theorem State.modQueue_streams (s : State) (i : Fin 16) (f : QueuePair → QueuePair) : (s.modQueue i f).streams = s.streams := rfl
@[simp] theorem State.modQueue_forest (s : State) (i : Fin 16) (f : QueuePair → QueuePair) : (s.modQueue i f).forest = s.forest := rfl
@[simp] theorem State.modQueue_snaps (s : State) (i : Fin 16) (f : QueuePair → QueuePair) : (s.modQueue i f).snaps = s.snaps := rfl
@[simp] theorem State.modQueue_fabSets (s : State) (i : Fin 16) (f : QueuePair → QueuePair) : (s.modQueue i f).fabSets = s.fabSets := rfl
@[simp] theorem State.modQueue_sched (s : State) (i : Fin 16) (f : QueuePair → QueuePair) : (s.modQueue i f).sched = s.sched := rfl
@[simp] theorem State.modQueue_flt (s : State) (i : Fin 16) (f : QueuePair → QueuePair) : (s.modQueue i f).flt = s.flt := rfl
@[simp] theorem State.modQueue_tim (s : State) (i : Fin 16) (f : QueuePair → QueuePair) : (s.modQueue i f).tim = s.tim := rfl
@[simp] theorem State.modQueue_calHold (s : State) (i : Fin 16) (f : QueuePair → QueuePair) : (s.modQueue i f).calHold = s.calHold := rfl
@[simp] theorem State.modQueue_acq (s : State) (i : Fin 16) (f : QueuePair → QueuePair) : (s.modQueue i f).acq = s.acq := rfl
@[simp] theorem State.modQueue_tap (s : State) (i : Fin 16) (f : QueuePair → QueuePair) : (s.modQueue i f).tap = s.tap := rfl
@[simp] theorem State.modQueue_dscs (s : State) (i : Fin 16) (f : QueuePair → QueuePair) : (s.modQueue i f).dscs = s.dscs := rfl
@[simp] theorem State.modQueue_trcs (s : State) (i : Fin 16) (f : QueuePair → QueuePair) : (s.modQueue i f).trcs = s.trcs := rfl
@[simp] theorem State.modQueue_sec (s : State) (i : Fin 16) (f : QueuePair → QueuePair) : (s.modQueue i f).sec = s.sec := rfl
@[simp] theorem State.modQueue_links (s : State) (i : Fin 16) (f : QueuePair → QueuePair) : (s.modQueue i f).links = s.links := rfl
@[simp] theorem State.modQueue_clk (s : State) (i : Fin 16) (f : QueuePair → QueuePair) : (s.modQueue i f).clk = s.clk := rfl
@[simp] theorem State.modQueue_power (s : State) (i : Fin 16) (f : QueuePair → QueuePair) : (s.modQueue i f).power = s.power := rfl
@[simp] theorem State.modQueue_cal (s : State) (i : Fin 16) (f : QueuePair → QueuePair) : (s.modQueue i f).cal = s.cal := rfl
@[simp] theorem State.modQueue_dmc (s : State) (i : Fin 16) (f : QueuePair → QueuePair) : (s.modQueue i f).dmc = s.dmc := rfl
@[simp] theorem State.modQueue_boot (s : State) (i : Fin 16) (f : QueuePair → QueuePair) : (s.modQueue i f).boot = s.boot := rfl
@[simp] theorem State.modQueue_freeCtr (s : State) (i : Fin 16) (f : QueuePair → QueuePair) : (s.modQueue i f).freeCtr = s.freeCtr := rfl
@[simp] theorem State.modQueue_pending (s : State) (i : Fin 16) (f : QueuePair → QueuePair) : (s.modQueue i f).pending = s.pending := rfl

@[simp] theorem State.answerWith_regs (s : State) (l : List Nat) : (s.answerWith l).regs = s.regs := rfl
@[simp] theorem State.answerWith_latches (s : State) (l : List Nat) : (s.answerWith l).latches = s.latches := rfl
@[simp] theorem State.answerWith_held (s : State) (l : List Nat) : (s.answerWith l).held = s.held := rfl
@[simp] theorem State.answerWith_canopy (s : State) (l : List Nat) : (s.answerWith l).canopy = s.canopy := rfl
@[simp] theorem State.answerWith_sdram (s : State) (l : List Nat) : (s.answerWith l).sdram = s.sdram := rfl
@[simp] theorem State.answerWith_flash (s : State) (l : List Nat) : (s.answerWith l).flash = s.flash := rfl
@[simp] theorem State.answerWith_host (s : State) (l : List Nat) : (s.answerWith l).host = s.host := rfl
@[simp] theorem State.answerWith_bursts (s : State) (l : List Nat) : (s.answerWith l).bursts = s.bursts := rfl
@[simp] theorem State.answerWith_threads (s : State) (l : List Nat) : (s.answerWith l).threads = s.threads := rfl
@[simp] theorem State.answerWith_groves (s : State) (l : List Nat) : (s.answerWith l).groves = s.groves := rfl
@[simp] theorem State.answerWith_chans (s : State) (l : List Nat) : (s.answerWith l).chans = s.chans := rfl
@[simp] theorem State.answerWith_fab (s : State) (l : List Nat) : (s.answerWith l).fab = s.fab := rfl
@[simp] theorem State.answerWith_str (s : State) (l : List Nat) : (s.answerWith l).str = s.str := rfl
@[simp] theorem State.answerWith_pec (s : State) (l : List Nat) : (s.answerWith l).pec = s.pec := rfl
@[simp] theorem State.answerWith_sync (s : State) (l : List Nat) : (s.answerWith l).sync = s.sync := rfl
@[simp] theorem State.answerWith_streams (s : State) (l : List Nat) : (s.answerWith l).streams = s.streams := rfl
@[simp] theorem State.answerWith_forest (s : State) (l : List Nat) : (s.answerWith l).forest = s.forest := rfl
@[simp] theorem State.answerWith_snaps (s : State) (l : List Nat) : (s.answerWith l).snaps = s.snaps := rfl
@[simp] theorem State.answerWith_fabSets (s : State) (l : List Nat) : (s.answerWith l).fabSets = s.fabSets := rfl
@[simp] theorem State.answerWith_sched (s : State) (l : List Nat) : (s.answerWith l).sched = s.sched := rfl
@[simp] theorem State.answerWith_flt (s : State) (l : List Nat) : (s.answerWith l).flt = s.flt := rfl
@[simp] theorem State.answerWith_tim (s : State) (l : List Nat) : (s.answerWith l).tim = s.tim := rfl
@[simp] theorem State.answerWith_calHold (s : State) (l : List Nat) : (s.answerWith l).calHold = s.calHold := rfl
@[simp] theorem State.answerWith_acq (s : State) (l : List Nat) : (s.answerWith l).acq = s.acq := rfl
@[simp] theorem State.answerWith_tap (s : State) (l : List Nat) : (s.answerWith l).tap = s.tap := rfl
@[simp] theorem State.answerWith_dscs (s : State) (l : List Nat) : (s.answerWith l).dscs = s.dscs := rfl
@[simp] theorem State.answerWith_trcs (s : State) (l : List Nat) : (s.answerWith l).trcs = s.trcs := rfl
@[simp] theorem State.answerWith_sec (s : State) (l : List Nat) : (s.answerWith l).sec = s.sec := rfl
@[simp] theorem State.answerWith_links (s : State) (l : List Nat) : (s.answerWith l).links = s.links := rfl
@[simp] theorem State.answerWith_clk (s : State) (l : List Nat) : (s.answerWith l).clk = s.clk := rfl
@[simp] theorem State.answerWith_power (s : State) (l : List Nat) : (s.answerWith l).power = s.power := rfl
@[simp] theorem State.answerWith_cal (s : State) (l : List Nat) : (s.answerWith l).cal = s.cal := rfl
@[simp] theorem State.answerWith_dmc (s : State) (l : List Nat) : (s.answerWith l).dmc = s.dmc := rfl
@[simp] theorem State.answerWith_boot (s : State) (l : List Nat) : (s.answerWith l).boot = s.boot := rfl
@[simp] theorem State.answerWith_freeCtr (s : State) (l : List Nat) : (s.answerWith l).freeCtr = s.freeCtr := rfl
@[simp] theorem State.answerWith_pending (s : State) (l : List Nat) : (s.answerWith l).pending = s.pending := rfl

@[simp] theorem State.complete_regs (s : State) (h : Hdr) (st d r : Nat) (i : Bool) : (s.complete h st d r i).regs = s.regs := rfl
@[simp] theorem State.complete_latches (s : State) (h : Hdr) (st d r : Nat) (i : Bool) : (s.complete h st d r i).latches = s.latches := rfl
@[simp] theorem State.complete_held (s : State) (h : Hdr) (st d r : Nat) (i : Bool) : (s.complete h st d r i).held = s.held := rfl
@[simp] theorem State.complete_canopy (s : State) (h : Hdr) (st d r : Nat) (i : Bool) : (s.complete h st d r i).canopy = s.canopy := rfl
@[simp] theorem State.complete_sdram (s : State) (h : Hdr) (st d r : Nat) (i : Bool) : (s.complete h st d r i).sdram = s.sdram := rfl
@[simp] theorem State.complete_flash (s : State) (h : Hdr) (st d r : Nat) (i : Bool) : (s.complete h st d r i).flash = s.flash := rfl
@[simp] theorem State.complete_host (s : State) (h : Hdr) (st d r : Nat) (i : Bool) : (s.complete h st d r i).host = s.host := rfl
@[simp] theorem State.complete_bursts (s : State) (h : Hdr) (st d r : Nat) (i : Bool) : (s.complete h st d r i).bursts = s.bursts := rfl
@[simp] theorem State.complete_threads (s : State) (h : Hdr) (st d r : Nat) (i : Bool) : (s.complete h st d r i).threads = s.threads := rfl
@[simp] theorem State.complete_groves (s : State) (h : Hdr) (st d r : Nat) (i : Bool) : (s.complete h st d r i).groves = s.groves := rfl
@[simp] theorem State.complete_chans (s : State) (h : Hdr) (st d r : Nat) (i : Bool) : (s.complete h st d r i).chans = s.chans := rfl
@[simp] theorem State.complete_fab (s : State) (h : Hdr) (st d r : Nat) (i : Bool) : (s.complete h st d r i).fab = s.fab := rfl
@[simp] theorem State.complete_str (s : State) (h : Hdr) (st d r : Nat) (i : Bool) : (s.complete h st d r i).str = s.str := rfl
@[simp] theorem State.complete_pec (s : State) (h : Hdr) (st d r : Nat) (i : Bool) : (s.complete h st d r i).pec = s.pec := rfl
@[simp] theorem State.complete_sync (s : State) (h : Hdr) (st d r : Nat) (i : Bool) : (s.complete h st d r i).sync = s.sync := rfl
@[simp] theorem State.complete_streams (s : State) (h : Hdr) (st d r : Nat) (i : Bool) : (s.complete h st d r i).streams = s.streams := rfl
@[simp] theorem State.complete_forest (s : State) (h : Hdr) (st d r : Nat) (i : Bool) : (s.complete h st d r i).forest = s.forest := rfl
@[simp] theorem State.complete_snaps (s : State) (h : Hdr) (st d r : Nat) (i : Bool) : (s.complete h st d r i).snaps = s.snaps := rfl
@[simp] theorem State.complete_fabSets (s : State) (h : Hdr) (st d r : Nat) (i : Bool) : (s.complete h st d r i).fabSets = s.fabSets := rfl
@[simp] theorem State.complete_sched (s : State) (h : Hdr) (st d r : Nat) (i : Bool) : (s.complete h st d r i).sched = s.sched := rfl
@[simp] theorem State.complete_flt (s : State) (h : Hdr) (st d r : Nat) (i : Bool) : (s.complete h st d r i).flt = s.flt := rfl
@[simp] theorem State.complete_tim (s : State) (h : Hdr) (st d r : Nat) (i : Bool) : (s.complete h st d r i).tim = s.tim := rfl
@[simp] theorem State.complete_calHold (s : State) (h : Hdr) (st d r : Nat) (i : Bool) : (s.complete h st d r i).calHold = s.calHold := rfl
@[simp] theorem State.complete_acq (s : State) (h : Hdr) (st d r : Nat) (i : Bool) : (s.complete h st d r i).acq = s.acq := rfl
@[simp] theorem State.complete_tap (s : State) (h : Hdr) (st d r : Nat) (i : Bool) : (s.complete h st d r i).tap = s.tap := rfl
@[simp] theorem State.complete_dscs (s : State) (h : Hdr) (st d r : Nat) (i : Bool) : (s.complete h st d r i).dscs = s.dscs := rfl
@[simp] theorem State.complete_trcs (s : State) (h : Hdr) (st d r : Nat) (i : Bool) : (s.complete h st d r i).trcs = s.trcs := rfl
@[simp] theorem State.complete_sec (s : State) (h : Hdr) (st d r : Nat) (i : Bool) : (s.complete h st d r i).sec = s.sec := rfl
@[simp] theorem State.complete_links (s : State) (h : Hdr) (st d r : Nat) (i : Bool) : (s.complete h st d r i).links = s.links := rfl
@[simp] theorem State.complete_clk (s : State) (h : Hdr) (st d r : Nat) (i : Bool) : (s.complete h st d r i).clk = s.clk := rfl
@[simp] theorem State.complete_power (s : State) (h : Hdr) (st d r : Nat) (i : Bool) : (s.complete h st d r i).power = s.power := rfl
@[simp] theorem State.complete_cal (s : State) (h : Hdr) (st d r : Nat) (i : Bool) : (s.complete h st d r i).cal = s.cal := rfl
@[simp] theorem State.complete_dmc (s : State) (h : Hdr) (st d r : Nat) (i : Bool) : (s.complete h st d r i).dmc = s.dmc := rfl
@[simp] theorem State.complete_boot (s : State) (h : Hdr) (st d r : Nat) (i : Bool) : (s.complete h st d r i).boot = s.boot := rfl
@[simp] theorem State.complete_freeCtr (s : State) (h : Hdr) (st d r : Nat) (i : Bool) : (s.complete h st d r i).freeCtr = s.freeCtr := rfl
@[simp] theorem State.complete_pending (s : State) (h : Hdr) (st d r : Nat) (i : Bool) : (s.complete h st d r i).pending = s.pending := rfl

/-- What a run of field writes leaves, whatever the fields. -/
theorem State.wrs_keeps {β : Type} (p : State → β) (hp : ∀ (s : State) (f : Fld) (v : Nat), p (s.wr f v) = p s) (l : List (Fld × Nat)) (s : State) :
    p (s.wrs l) = p s := by
  unfold State.wrs
  induction l generalizing s with
  | nil => rfl
  | cons x r ih => simp only [List.foldl_cons]; rw [ih]; exact hp s x.1 x.2

@[simp] theorem State.wrs_latches (s : State) (l : List (Fld × Nat)) : (s.wrs l).latches = s.latches := State.wrs_keeps (·.latches) (fun _ _ _ => rfl) l s
@[simp] theorem State.wrs_held (s : State) (l : List (Fld × Nat)) : (s.wrs l).held = s.held := State.wrs_keeps (·.held) (fun _ _ _ => rfl) l s
@[simp] theorem State.wrs_canopy (s : State) (l : List (Fld × Nat)) : (s.wrs l).canopy = s.canopy := State.wrs_keeps (·.canopy) (fun _ _ _ => rfl) l s
@[simp] theorem State.wrs_sdram (s : State) (l : List (Fld × Nat)) : (s.wrs l).sdram = s.sdram := State.wrs_keeps (·.sdram) (fun _ _ _ => rfl) l s
@[simp] theorem State.wrs_flash (s : State) (l : List (Fld × Nat)) : (s.wrs l).flash = s.flash := State.wrs_keeps (·.flash) (fun _ _ _ => rfl) l s
@[simp] theorem State.wrs_host (s : State) (l : List (Fld × Nat)) : (s.wrs l).host = s.host := State.wrs_keeps (·.host) (fun _ _ _ => rfl) l s
@[simp] theorem State.wrs_bursts (s : State) (l : List (Fld × Nat)) : (s.wrs l).bursts = s.bursts := State.wrs_keeps (·.bursts) (fun _ _ _ => rfl) l s
@[simp] theorem State.wrs_threads (s : State) (l : List (Fld × Nat)) : (s.wrs l).threads = s.threads := State.wrs_keeps (·.threads) (fun _ _ _ => rfl) l s
@[simp] theorem State.wrs_groves (s : State) (l : List (Fld × Nat)) : (s.wrs l).groves = s.groves := State.wrs_keeps (·.groves) (fun _ _ _ => rfl) l s
@[simp] theorem State.wrs_chans (s : State) (l : List (Fld × Nat)) : (s.wrs l).chans = s.chans := State.wrs_keeps (·.chans) (fun _ _ _ => rfl) l s
@[simp] theorem State.wrs_fab (s : State) (l : List (Fld × Nat)) : (s.wrs l).fab = s.fab := State.wrs_keeps (·.fab) (fun _ _ _ => rfl) l s
@[simp] theorem State.wrs_str (s : State) (l : List (Fld × Nat)) : (s.wrs l).str = s.str := State.wrs_keeps (·.str) (fun _ _ _ => rfl) l s
@[simp] theorem State.wrs_pec (s : State) (l : List (Fld × Nat)) : (s.wrs l).pec = s.pec := State.wrs_keeps (·.pec) (fun _ _ _ => rfl) l s
@[simp] theorem State.wrs_sync (s : State) (l : List (Fld × Nat)) : (s.wrs l).sync = s.sync := State.wrs_keeps (·.sync) (fun _ _ _ => rfl) l s
@[simp] theorem State.wrs_streams (s : State) (l : List (Fld × Nat)) : (s.wrs l).streams = s.streams := State.wrs_keeps (·.streams) (fun _ _ _ => rfl) l s
@[simp] theorem State.wrs_forest (s : State) (l : List (Fld × Nat)) : (s.wrs l).forest = s.forest := State.wrs_keeps (·.forest) (fun _ _ _ => rfl) l s
@[simp] theorem State.wrs_snaps (s : State) (l : List (Fld × Nat)) : (s.wrs l).snaps = s.snaps := State.wrs_keeps (·.snaps) (fun _ _ _ => rfl) l s
@[simp] theorem State.wrs_fabSets (s : State) (l : List (Fld × Nat)) : (s.wrs l).fabSets = s.fabSets := State.wrs_keeps (·.fabSets) (fun _ _ _ => rfl) l s
@[simp] theorem State.wrs_sched (s : State) (l : List (Fld × Nat)) : (s.wrs l).sched = s.sched := State.wrs_keeps (·.sched) (fun _ _ _ => rfl) l s
@[simp] theorem State.wrs_hq (s : State) (l : List (Fld × Nat)) : (s.wrs l).hq = s.hq := State.wrs_keeps (·.hq) (fun _ _ _ => rfl) l s
@[simp] theorem State.wrs_flt (s : State) (l : List (Fld × Nat)) : (s.wrs l).flt = s.flt := State.wrs_keeps (·.flt) (fun _ _ _ => rfl) l s
@[simp] theorem State.wrs_tim (s : State) (l : List (Fld × Nat)) : (s.wrs l).tim = s.tim := State.wrs_keeps (·.tim) (fun _ _ _ => rfl) l s
@[simp] theorem State.wrs_calHold (s : State) (l : List (Fld × Nat)) : (s.wrs l).calHold = s.calHold := State.wrs_keeps (·.calHold) (fun _ _ _ => rfl) l s
@[simp] theorem State.wrs_acq (s : State) (l : List (Fld × Nat)) : (s.wrs l).acq = s.acq := State.wrs_keeps (·.acq) (fun _ _ _ => rfl) l s
@[simp] theorem State.wrs_tap (s : State) (l : List (Fld × Nat)) : (s.wrs l).tap = s.tap := State.wrs_keeps (·.tap) (fun _ _ _ => rfl) l s
@[simp] theorem State.wrs_dscs (s : State) (l : List (Fld × Nat)) : (s.wrs l).dscs = s.dscs := State.wrs_keeps (·.dscs) (fun _ _ _ => rfl) l s
@[simp] theorem State.wrs_trcs (s : State) (l : List (Fld × Nat)) : (s.wrs l).trcs = s.trcs := State.wrs_keeps (·.trcs) (fun _ _ _ => rfl) l s
@[simp] theorem State.wrs_sec (s : State) (l : List (Fld × Nat)) : (s.wrs l).sec = s.sec := State.wrs_keeps (·.sec) (fun _ _ _ => rfl) l s
@[simp] theorem State.wrs_links (s : State) (l : List (Fld × Nat)) : (s.wrs l).links = s.links := State.wrs_keeps (·.links) (fun _ _ _ => rfl) l s
@[simp] theorem State.wrs_clk (s : State) (l : List (Fld × Nat)) : (s.wrs l).clk = s.clk := State.wrs_keeps (·.clk) (fun _ _ _ => rfl) l s
@[simp] theorem State.wrs_power (s : State) (l : List (Fld × Nat)) : (s.wrs l).power = s.power := State.wrs_keeps (·.power) (fun _ _ _ => rfl) l s
@[simp] theorem State.wrs_cal (s : State) (l : List (Fld × Nat)) : (s.wrs l).cal = s.cal := State.wrs_keeps (·.cal) (fun _ _ _ => rfl) l s
@[simp] theorem State.wrs_dmc (s : State) (l : List (Fld × Nat)) : (s.wrs l).dmc = s.dmc := State.wrs_keeps (·.dmc) (fun _ _ _ => rfl) l s
@[simp] theorem State.wrs_boot (s : State) (l : List (Fld × Nat)) : (s.wrs l).boot = s.boot := State.wrs_keeps (·.boot) (fun _ _ _ => rfl) l s
@[simp] theorem State.wrs_freeCtr (s : State) (l : List (Fld × Nat)) : (s.wrs l).freeCtr = s.freeCtr := State.wrs_keeps (·.freeCtr) (fun _ _ _ => rfl) l s
@[simp] theorem State.wrs_pending (s : State) (l : List (Fld × Nat)) : (s.wrs l).pending = s.pending := State.wrs_keeps (·.pending) (fun _ _ _ => rfl) l s

end Sys2Proof.Machine
end

