-- ==== Sys2Proof/Laws/Frames.lean ====
section
/-! SUPPORT. What the shared operations can do: frames compose, and setting an event bit, an occurrence, a completion and a
posted-write fault change nothing but what is said here. -/

namespace Sys2Proof.Machine

/-! ## Frames compose -/

theorem RegsSame.refl (out : List Nat) (s : State) : RegsSame out s s := fun _ _ _ => rfl

theorem RegsSame.trans {out : List Nat} {s t u : State} (h : RegsSame out s t) (k : RegsSame out t u) : RegsSame out s u :=
  fun b a ha => (k b a ha).trans (h b a ha)

theorem RegsSame.mono {out out' : List Nat} {s t : State} (h : RegsSame out s t) (k : ∀ a ∈ out, a ∈ out') : RegsSame out' s t :=
  fun b a ha => h b a fun hm => ha (k a hm)

theorem RegsSame.of_regs {s t : State} (out : List Nat) (h : t.regs = s.regs) : RegsSame out s t := by
  intro b a _; simp [State.word, h]

theorem BytesSame.refl (s : State) : BytesSame s s := fun _ => ⟨rfl, rfl, rfl, rfl⟩

theorem BytesSame.trans {s t u : State} (h : BytesSame s t) (k : BytesSame t u) : BytesSame s u := fun a =>
  ⟨(k a).1.trans (h a).1, (k a).2.1.trans (h a).2.1, (k a).2.2.1.trans (h a).2.2.1, (k a).2.2.2.trans (h a).2.2.2⟩

theorem BytesSame.of_eq {s t : State} (h : t.canopy = s.canopy) (h' : t.sdram = s.sdram) (h'' : t.flash = s.flash)
    (h''' : t.host = s.host) : BytesSame s t := by
  intro a; simp [h, h', h'', h''']

theorem Quiet.refl (out : List Nat) (s : State) : Quiet out s s := ⟨RegsSame.refl out s, BytesSame.refl s⟩

theorem Quiet.trans {out : List Nat} {s t u : State} (h : Quiet out s t) (k : Quiet out t u) : Quiet out s u :=
  ⟨h.1.trans k.1, h.2.trans k.2⟩

theorem Quiet.mono {out out' : List Nat} {s t : State} (h : Quiet out s t) (k : ∀ a ∈ out, a ∈ out') : Quiet out' s t :=
  ⟨h.1.mono k, h.2⟩

theorem EventOnly.refl (s : State) : EventOnly s s := rfl

theorem EventOnly.trans {s t u : State} (h : EventOnly s t) (k : EventOnly t u) : EventOnly s u := by
  unfold EventOnly at *; rw [k, h]

theorem EventOnly.bytes {s t : State} (h : EventOnly s t) : BytesSame s t := by
  unfold EventOnly at h; rw [h]; intro a; exact ⟨rfl, rfl, rfl, rfl⟩

theorem RegsOnly.event {s t : State} (h : RegsOnly s t) : EventOnly s t := by
  unfold RegsOnly EventOnly at *; rw [h]

theorem RegsOnly.refl (s : State) : RegsOnly s s := rfl

theorem RegsOnly.trans {s t u : State} (h : RegsOnly s t) (k : RegsOnly t u) : RegsOnly s u := by
  unfold RegsOnly at *; rw [k, h]

theorem RegsOnly.setWord (s : State) (b : Blk) (a : Nat) (w : Word) : RegsOnly s (s.setWord b a w) := rfl

theorem RegsOnly.wr (s : State) (f : Fld) (v : Nat) : RegsOnly s (s.wr f v) := rfl

theorem RegsOnly.wrs (s : State) (l : List (Fld × Nat)) : RegsOnly s (s.wrs l) := by
  unfold State.wrs
  induction l generalizing s with
  | nil => rfl
  | cons p r ih => exact (RegsOnly.wr s p.1 p.2).trans (ih _)

theorem RegsSame.wr {out : List Nat} (s : State) (f : Fld) (v : Nat) (h : f.addr ∈ out) : RegsSame out s (s.wr f v) := by
  intro b a ha
  exact State.word_wr s f v b a (.inl fun e => ha (e ▸ h))

theorem RegsSame.wrs {out : List Nat} (s : State) (l : List (Fld × Nat)) (h : ∀ p ∈ l, p.1.addr ∈ out) : RegsSame out s (s.wrs l) := by
  unfold State.wrs
  induction l generalizing s with
  | nil => exact RegsSame.refl _ _
  | cons p r ih =>
    exact (RegsSame.wr s p.1 p.2 (h p (List.mem_cons_self ..))).trans (ih _ fun q hq => h q (List.mem_cons_of_mem _ hq))

theorem RegsSame.incSat {out : List Nat} (s : State) (f : Fld) (k : Nat) (h : f.addr ∈ out) : RegsSame out s (s.incSat f k) :=
  RegsSame.wr s f _ h

theorem RegsSame.incWrap {out : List Nat} (s : State) (f : Fld) (k : Nat) (h : f.addr ∈ out) : RegsSame out s (s.incWrap f k) :=
  RegsSame.wr s f _ h

/-! ## Vectors, occurrences, event bits (R292, R329, R513) -/

@[simp] theorem State.signal_regs (s : State) (v : Nat) : (s.signal v).regs = s.regs := by
  unfold State.signal; split
  · rfl
  · dsimp only; split
    · split <;> rfl
    · rfl

theorem State.signal_hq (s : State) (v : Nat) : s.signal v = { s with hq := (s.signal v).hq } := by
  unfold State.signal; split
  · rfl
  · dsimp only; split
    · split <;> rfl
    · rfl

theorem EventOnly.signal (s : State) (v : Nat) : EventOnly s (s.signal v) := by
  unfold EventOnly State.signal; split
  · rfl
  · dsimp only; split
    · split <;> rfl
    · rfl

theorem State.raiseSch_event (s : State) (bits : Nat) : EventOnly s (s.raiseSch bits) := by
  unfold State.raiseSch; dsimp only; split
  · exact (RegsOnly.wr ..).event
  · exact (RegsOnly.wr ..).event.trans (EventOnly.signal ..)

theorem State.raiseSch_regs (s : State) (bits : Nat) : RegsSame [Ev.sch.ev] s (s.raiseSch bits) := by
  unfold State.raiseSch; dsimp only; split
  · exact RegsSame.wr _ _ _ (by simp [EvReg.bits])
  · exact (RegsSame.wr _ _ _ (by simp [EvReg.bits])).trans (RegsSame.of_regs _ (State.signal_regs _ _))

theorem State.occurrence_event (s : State) (cls key value : Nat) : EventOnly s (s.occurrence cls key value) := by
  unfold State.occurrence; dsimp only; split
  · rfl
  · exact (RegsOnly.wr ..).event.trans (State.raiseSch_event ..)

theorem State.occurrence_regs (s : State) (cls key value : Nat) : RegsSame occOut s (s.occurrence cls key value) := by
  unfold State.occurrence; dsimp only; split
  · exact RegsSame.of_regs _ rfl
  · exact (RegsSame.incSat s F.SCH_UNCLAIMED_COUNT 1 (by simp [occOut])).trans ((State.raiseSch_regs _ _).mono (by simp [occOut]))

theorem State.raised_event (s : State) (r : EvReg) (bits : Nat) : EventOnly s (s.raised r bits) := by
  unfold State.raised; split
  · rfl
  · split
    · exact (EventOnly.signal ..).trans (State.occurrence_event ..)
    · exact EventOnly.signal ..

theorem State.raised_regs (s : State) (r : EvReg) (bits : Nat) : RegsSame occOut s (s.raised r bits) := by
  unfold State.raised; split
  · exact RegsSame.refl _ _
  · split
    · exact (RegsSame.of_regs _ (State.signal_regs _ _)).trans (State.occurrence_regs _ _ _ _)
    · exact RegsSame.of_regs _ (State.signal_regs _ _)

theorem State.raise_event (s : State) (r : EvReg) (bits : Nat) : EventOnly s (s.raise r bits) :=
  (RegsOnly.wr ..).event.trans (State.raised_event ..)

theorem occOut_sub (r : EvReg) : ∀ a ∈ occOut, a ∈ evOut r := by
  intro a h; simp only [occOut, evOut, List.mem_cons] at *; tauto

theorem State.raise_regs (s : State) (r : EvReg) (bits : Nat) : RegsSame (evOut r) s (s.raise r bits) :=
  (RegsSame.wr s r.bits _ (by simp [evOut, EvReg.bits])).trans ((State.raised_regs _ _ _).mono (occOut_sub r))

/-- The event bits become 1, and no other bit of the register changes. -/
theorem State.raise_bits (s : State) (r : EvReg) (bits : Nat) (h : r.ev ∉ occOut) :
    (s.raise r bits).rd r.bits = (s.rd r.bits ||| bits) % 2 ^ 32 := by
  have h1 : (s.raise r bits).word r.blk r.ev = (s.wr r.bits (s.rd r.bits ||| bits)).word r.blk r.ev :=
    State.raised_regs _ r _ r.blk r.ev h
  have h2 := State.rd_wr_same s r.bits (s.rd r.bits ||| bits) (by simp [EvReg.bits])
  simp only [State.rd, EvReg.bits] at h1 h2 ⊢
  rw [h1]; exact h2

theorem State.event_event (s : State) (r : EvReg) (bit : Nat) : EventOnly s (s.event r bit) := State.raise_event ..

theorem State.event_regs (s : State) (r : EvReg) (bit : Nat) : RegsSame (evOut r) s (s.event r bit) := State.raise_regs _ _ _

theorem State.event_bits (s : State) (r : EvReg) (bit : Nat) (h : r.ev ∉ occOut) :
    (s.event r bit).rd r.bits = (s.rd r.bits ||| 2 ^ bit) % 2 ^ 32 := State.raise_bits s r _ h

theorem State.writeEnable_event (s : State) (r : EvReg) (v : Nat) : EventOnly s (s.writeEnable r v) :=
  (RegsOnly.wr ..).event.trans (State.raised_event ..)

theorem State.writeEnable_regs (s : State) (r : EvReg) (v : Nat) : RegsSame ((r.ev + 4) :: occOut) s (s.writeEnable r v) :=
  (RegsSame.wr s r.enable _ (by simp [EvReg.enable])).trans ((State.raised_regs _ _ _).mono fun _ h => List.mem_cons_of_mem _ h)

/-! ## Completions and posted-write faults (R316, R327) -/

theorem State.complete_event (s : State) (h : Hdr) (st d r : Nat) (i : Bool) : EventOnly s (s.complete h st d r i) := rfl

theorem State.pwFault_event (s : State) (r : Pwf) : EventOnly s (s.pwFault r) := by
  unfold State.pwFault; dsimp only; split
  · exact (RegsOnly.wr ..).event.trans (EventOnly.trans (t := { (s.incWrap F.HQ_PWF_CNT_COUNT) with hq := { (s.incWrap F.HQ_PWF_CNT_COUNT).hq with pwf := (s.incWrap F.HQ_PWF_CNT_COUNT).hq.pwf ++ [{ r with stamp := (s.incWrap F.HQ_PWF_CNT_COUNT).now }] } }) rfl (State.raise_event ..))
  · exact (RegsOnly.wr ..).event.trans ((RegsOnly.wr ..).event.trans (State.raise_event ..))

/-- A posted-write fault changes HQ_PWF_CNT and HQ_EVENT, and what the event can reach. -/
theorem State.pwFault_regs (s : State) (r : Pwf) : RegsSame ((F.HQ_PWF_CNT_COUNT).addr :: evOut Ev.hq) s (s.pwFault r) := by
  have h1 := RegsSame.incWrap (out := (F.HQ_PWF_CNT_COUNT).addr :: evOut Ev.hq) s F.HQ_PWF_CNT_COUNT 1 (List.mem_cons_self ..)
  have h2 : ∀ u k, RegsSame ((F.HQ_PWF_CNT_COUNT).addr :: evOut Ev.hq) u (u.raise Ev.hq k) := fun u k =>
    (State.raise_regs u Ev.hq k).mono fun _ h => List.mem_cons_of_mem _ h
  unfold State.pwFault; dsimp only; split
  · exact h1.trans (RegsSame.trans (RegsSame.of_regs _ rfl) (h2 _ _))
  · exact h1.trans ((RegsSame.incSat _ F.HQ_PWF_CNT_LOST 1 (List.mem_cons_self ..)).trans (h2 _ _))

theorem State.retire_regs (s : State) : RegsSame [(F.HQ_WSEQ_COUNT).addr] s s.retire := RegsSame.wr _ _ _ (by simp)

end Sys2Proof.Machine
end

