-- ==== Sys2Proof/Laws/Canonical.lean ====
section
/-! SUPPORT. Every shared operation keeps the canonical form of the register files and byte memories, and the queue of
commands: `Keeps` says both, composes, and holds of each operation the meanings are built from. -/

namespace Sys2Proof.Machine

/-- The canonical form is kept, and the queue of commands is unchanged. -/
def Keeps (s t : State) : Prop := (s.wf = true → t.wf = true) ∧ t.pending = s.pending

theorem Keeps.refl (s : State) : Keeps s s := ⟨id, rfl⟩

theorem Keeps.trans {s t u : State} (h : Keeps s t) (k : Keeps t u) : Keeps s u := ⟨k.1 ∘ h.1, k.2.trans h.2⟩

theorem mem_allBlks (b : Blk) : b ∈ allBlks := by cases b <;> decide

/-- What canonical form says, file by file and memory by memory. -/
theorem State.wf_iff (s : State) : s.wf = true ↔ (∀ b, s.fileWf b = true) ∧
    Mem.wf s.canopy = true ∧ Mem.wf s.sdram = true ∧ Mem.wf s.flash = true ∧ Mem.wf s.host = true := by
  unfold State.wf State.memWf
  rw [Bool.and_eq_true, List.all_eq_true]
  simp only [Bool.and_eq_true, and_assoc]
  exact and_congr_left fun _ => ⟨fun h b => h b (mem_allBlks b), fun h b _ => h b⟩

/-- A state that differs in no register file and no byte memory is as canonical. -/
theorem Keeps.of_same {s t : State} (hr : t.regs = s.regs) (hc : t.canopy = s.canopy) (hs : t.sdram = s.sdram)
    (hf : t.flash = s.flash) (hh : t.host = s.host) (hp : t.pending = s.pending) : Keeps s t := by
  refine ⟨fun h => ?_, hp⟩
  rw [State.wf_iff] at h ⊢
  rw [hc, hs, hf, hh]
  exact ⟨fun b => by unfold State.fileWf; rw [hr]; exact h.1 b, h.2⟩

/-! ## Registers -/

theorem Keeps.setWord (s : State) (b : Blk) (a : Nat) (w : Word) : Keeps s (s.setWord b a w) := by
  refine ⟨fun h => ?_, rfl⟩
  rw [State.wf_iff] at h ⊢
  refine ⟨fun c => ?_, h.2⟩
  by_cases hc : c = b
  · subst hc
    simpa [State.fileWf, State.setWord] using cellsWf_put (resetWord c) a w _ (h.1 c)
  · simpa [State.fileWf, State.setWord, Regs.get_set_other _ _ _ _ hc] using h.1 c

theorem Keeps.wr (s : State) (f : Fld) (v : Nat) : Keeps s (s.wr f v) := Keeps.setWord ..

theorem Keeps.wrP (s : State) (f : Fld) (v : Nat) : Keeps s (s.wrP f v) := (Keeps.wr ..).trans (Keeps.wr ..)

theorem Keeps.incSat (s : State) (f : Fld) (k : Nat) : Keeps s (s.incSat f k) := Keeps.wr ..

theorem Keeps.incWrap (s : State) (f : Fld) (k : Nat) : Keeps s (s.incWrap f k) := Keeps.wr ..

/-- A fold of operations that each keep the form keeps it. -/
theorem Keeps.foldl {α : Type} (f : State → α → State) (l : List α) (s : State) (h : ∀ s a, Keeps s (f s a)) :
    Keeps s (l.foldl f s) := by
  induction l generalizing s with
  | nil => exact Keeps.refl s
  | cons a r ih => exact (h s a).trans (ih _)

theorem Keeps.wrs (s : State) (l : List (Fld × Nat)) : Keeps s (s.wrs l) := Keeps.foldl _ l s fun s p => Keeps.wr s p.1 p.2

/-- Either branch keeps the form. -/
theorem Keeps.ite {s : State} (p : Prop) [Decidable p] {t u : State} (h : p → Keeps s t) (k : ¬ p → Keeps s u) :
    Keeps s (if p then t else u) := by
  split
  · exact h ‹_›
  · exact k ‹_›

/-! ## Byte memories -/

theorem Keeps.canopy (s : State) (m : Mem) (h : Mem.wf s.canopy = true → Mem.wf m = true) : Keeps s { s with canopy := m } :=
  ⟨fun w => by rw [State.wf_iff] at w ⊢; exact ⟨w.1, h w.2.1, w.2.2⟩, rfl⟩

theorem Keeps.sdram (s : State) (m : Mem) (h : Mem.wf s.sdram = true → Mem.wf m = true) : Keeps s { s with sdram := m } :=
  ⟨fun w => by rw [State.wf_iff] at w ⊢; exact ⟨w.1, w.2.1, h w.2.2.1, w.2.2.2⟩, rfl⟩

theorem Keeps.flash (s : State) (m : Mem) (h : Mem.wf s.flash = true → Mem.wf m = true) : Keeps s { s with flash := m } :=
  ⟨fun w => by rw [State.wf_iff] at w ⊢; exact ⟨w.1, w.2.1, w.2.2.1, h w.2.2.2.1, w.2.2.2.2⟩, rfl⟩

theorem Keeps.host (s : State) (m : Mem) (h : Mem.wf s.host = true → Mem.wf m = true) : Keeps s { s with host := m } :=
  ⟨fun w => by rw [State.wf_iff] at w ⊢; exact ⟨w.1, w.2.1, w.2.2.1, w.2.2.2.1, h w.2.2.2.2⟩, rfl⟩

theorem Keeps.hostPuts (s : State) (a : Nat) (l : List Byte) : Keeps s { s with host := Mem.puts s.host a l } :=
  Keeps.host s _ (Mem.wf_puts _ _ _)

theorem Keeps.canopyPuts (s : State) (a : Nat) (l : List Byte) : Keeps s { s with canopy := Mem.puts s.canopy a l } :=
  Keeps.canopy s _ (Mem.wf_puts _ _ _)

theorem Keeps.sdramPuts (s : State) (a : Nat) (l : List Byte) : Keeps s { s with sdram := Mem.puts s.sdram a l } :=
  Keeps.sdram s _ (Mem.wf_puts _ _ _)

theorem Keeps.flashPuts (s : State) (a : Nat) (l : List Byte) : Keeps s (s.flashPuts a l) := Keeps.flash s _ (Mem.wf_puts _ _ _)

/-! ## Units -/

theorem Keeps.modThread (s : State) (i : Fin 32) (f : Thread → Thread) : Keeps s (s.modThread i f) := Keeps.of_same rfl rfl rfl rfl rfl rfl

theorem Keeps.modGrove (s : State) (i : Fin 32) (f : Grove → Grove) : Keeps s (s.modGrove i f) := Keeps.of_same rfl rfl rfl rfl rfl rfl

theorem Keeps.modChan (s : State) (i : Fin 128) (f : Chan → Chan) : Keeps s (s.modChan i f) := Keeps.of_same rfl rfl rfl rfl rfl rfl

theorem Keeps.modCore (s : State) (i : Fin 8) (f : Core → Core) : Keeps s (s.modCore i f) := Keeps.of_same rfl rfl rfl rfl rfl rfl

theorem Keeps.modQueue (s : State) (i : Fin 16) (f : QueuePair → QueuePair) : Keeps s (s.modQueue i f) :=
  Keeps.of_same rfl rfl rfl rfl rfl rfl

theorem Keeps.answerWith (s : State) (l : List Nat) : Keeps s (s.answerWith l) := Keeps.of_same rfl rfl rfl rfl rfl rfl

/-! ## Vectors, occurrences, events, completions (R292, R316, R327 to R329, R513) -/

theorem Keeps.signal (s : State) (v : Nat) : Keeps s (s.signal v) := by
  rw [State.signal_hq]; exact Keeps.of_same rfl rfl rfl rfl rfl rfl

theorem Keeps.raiseSch (s : State) (bits : Nat) : Keeps s (s.raiseSch bits) := by
  unfold State.raiseSch; dsimp only; split
  · exact Keeps.wr ..
  · exact (Keeps.wr ..).trans (Keeps.signal ..)

theorem Keeps.occurrence (s : State) (cls key value : Nat) : Keeps s (s.occurrence cls key value) := by
  unfold State.occurrence; dsimp only; split
  · exact Keeps.of_same rfl rfl rfl rfl rfl rfl
  · exact (Keeps.wr ..).trans (Keeps.raiseSch ..)

theorem Keeps.raised (s : State) (r : EvReg) (bits : Nat) : Keeps s (s.raised r bits) := by
  unfold State.raised; split
  · exact Keeps.refl s
  · split
    · exact (Keeps.signal ..).trans (Keeps.occurrence ..)
    · exact Keeps.signal ..

theorem Keeps.raise (s : State) (r : EvReg) (bits : Nat) : Keeps s (s.raise r bits) := (Keeps.wr ..).trans (Keeps.raised ..)

theorem Keeps.event (s : State) (r : EvReg) (bit : Nat) : Keeps s (s.event r bit) := Keeps.raise ..

theorem Keeps.writeEnable (s : State) (r : EvReg) (v : Nat) : Keeps s (s.writeEnable r v) := (Keeps.wr ..).trans (Keeps.raised ..)

theorem Keeps.complete (s : State) (h : Hdr) (st d r : Nat) (i : Bool) : Keeps s (s.complete h st d r i) :=
  Keeps.of_same rfl rfl rfl rfl rfl rfl

theorem Keeps.retire (s : State) : Keeps s s.retire := Keeps.wr ..

theorem Keeps.pwFault (s : State) (r : Pwf) : Keeps s (s.pwFault r) := by
  unfold State.pwFault; dsimp only; split
  · refine Keeps.trans ?_ (Keeps.raise ..)
    exact (Keeps.incWrap s F.HQ_PWF_CNT_COUNT 1).trans (Keeps.of_same rfl rfl rfl rfl rfl rfl)
  · refine Keeps.trans ?_ (Keeps.raise ..)
    exact (Keeps.incWrap s F.HQ_PWF_CNT_COUNT 1).trans (Keeps.incSat _ F.HQ_PWF_CNT_LOST 1)

end Sys2Proof.Machine
end

