-- ==== Sys2Proof/Laws/Units.lean ====
section
/-! SUPPORT. What one unit of a vector is after a unit has changed, and that a change of a unit leaves the registers. -/

namespace Sys2Proof.Machine

theorem upd_same {α : Type} {n : Nat} (v : Vector α n) (i : Fin n) (f : α → α) : (upd v i f)[i] = f v[i] := by
  simp [upd]

@[simp] theorem upd_same_val {α : Type} {n : Nat} (v : Vector α n) (i : Fin n) (f : α → α) : (upd v i f)[i.1] = f v[i.1] :=
  upd_same v i f

theorem upd_other {α : Type} {n : Nat} (v : Vector α n) (i j : Fin n) (f : α → α) (h : j ≠ i) : (upd v i f)[j] = v[j] := by
  simp only [upd, Fin.getElem_fin]
  exact Vector.getElem_set_ne _ _ fun e => h (Fin.ext e.symm)

theorem State.modThread_same (s : State) (i : Fin 32) (f : Thread → Thread) : (s.modThread i f).threads[i] = f s.threads[i] := upd_same _ _ _
@[simp] theorem State.modThread_same_val (s : State) (i : Fin 32) (f : Thread → Thread) : (s.modThread i f).threads[i.1] = f s.threads[i.1] := upd_same _ _ _

theorem State.modThread_other (s : State) (i j : Fin 32) (f : Thread → Thread) (h : j ≠ i) : (s.modThread i f).threads[j] = s.threads[j] := upd_other _ _ _ _ h

@[simp] theorem State.modThread_word (s : State) (i : Fin 32) (f : Thread → Thread) (b : Blk) (a : Nat) : (s.modThread i f).word b a = s.word b a := rfl
@[simp] theorem State.modThread_rd (s : State) (i : Fin 32) (f : Thread → Thread) (x : Fld) : (s.modThread i f).rd x = s.rd x := rfl

theorem State.modGrove_same (s : State) (i : Fin 32) (f : Grove → Grove) : (s.modGrove i f).groves[i] = f s.groves[i] := upd_same _ _ _
@[simp] theorem State.modGrove_same_val (s : State) (i : Fin 32) (f : Grove → Grove) : (s.modGrove i f).groves[i.1] = f s.groves[i.1] := upd_same _ _ _

theorem State.modGrove_other (s : State) (i j : Fin 32) (f : Grove → Grove) (h : j ≠ i) : (s.modGrove i f).groves[j] = s.groves[j] := upd_other _ _ _ _ h

@[simp] theorem State.modGrove_word (s : State) (i : Fin 32) (f : Grove → Grove) (b : Blk) (a : Nat) : (s.modGrove i f).word b a = s.word b a := rfl
@[simp] theorem State.modGrove_rd (s : State) (i : Fin 32) (f : Grove → Grove) (x : Fld) : (s.modGrove i f).rd x = s.rd x := rfl

theorem State.modChan_same (s : State) (i : Fin 128) (f : Chan → Chan) : (s.modChan i f).chans[i] = f s.chans[i] := upd_same _ _ _
@[simp] theorem State.modChan_same_val (s : State) (i : Fin 128) (f : Chan → Chan) : (s.modChan i f).chans[i.1] = f s.chans[i.1] := upd_same _ _ _

theorem State.modChan_other (s : State) (i j : Fin 128) (f : Chan → Chan) (h : j ≠ i) : (s.modChan i f).chans[j] = s.chans[j] := upd_other _ _ _ _ h

@[simp] theorem State.modChan_word (s : State) (i : Fin 128) (f : Chan → Chan) (b : Blk) (a : Nat) : (s.modChan i f).word b a = s.word b a := rfl
@[simp] theorem State.modChan_rd (s : State) (i : Fin 128) (f : Chan → Chan) (x : Fld) : (s.modChan i f).rd x = s.rd x := rfl

theorem State.modCore_same (s : State) (i : Fin 8) (f : Core → Core) : (s.modCore i f).sched.cores[i] = f s.sched.cores[i] := upd_same _ _ _
@[simp] theorem State.modCore_same_val (s : State) (i : Fin 8) (f : Core → Core) : (s.modCore i f).sched.cores[i.1] = f s.sched.cores[i.1] := upd_same _ _ _

theorem State.modCore_other (s : State) (i j : Fin 8) (f : Core → Core) (h : j ≠ i) : (s.modCore i f).sched.cores[j] = s.sched.cores[j] := upd_other _ _ _ _ h

@[simp] theorem State.modCore_word (s : State) (i : Fin 8) (f : Core → Core) (b : Blk) (a : Nat) : (s.modCore i f).word b a = s.word b a := rfl
@[simp] theorem State.modCore_rd (s : State) (i : Fin 8) (f : Core → Core) (x : Fld) : (s.modCore i f).rd x = s.rd x := rfl

theorem State.modQueue_same (s : State) (i : Fin 16) (f : QueuePair → QueuePair) : (s.modQueue i f).hq.queues[i] = f s.hq.queues[i] := upd_same _ _ _
@[simp] theorem State.modQueue_same_val (s : State) (i : Fin 16) (f : QueuePair → QueuePair) : (s.modQueue i f).hq.queues[i.1] = f s.hq.queues[i.1] := upd_same _ _ _

theorem State.modQueue_other (s : State) (i j : Fin 16) (f : QueuePair → QueuePair) (h : j ≠ i) : (s.modQueue i f).hq.queues[j] = s.hq.queues[j] := upd_other _ _ _ _ h

@[simp] theorem State.modQueue_word (s : State) (i : Fin 16) (f : QueuePair → QueuePair) (b : Blk) (a : Nat) : (s.modQueue i f).word b a = s.word b a := rfl
@[simp] theorem State.modQueue_rd (s : State) (i : Fin 16) (f : QueuePair → QueuePair) (x : Fld) : (s.modQueue i f).rd x = s.rd x := rfl

@[simp] theorem State.modThread_threads (s : State) (i : Fin 32) (f : Thread → Thread) : (s.modThread i f).threads = upd s.threads i f := rfl
@[simp] theorem State.modGrove_groves (s : State) (i : Fin 32) (f : Grove → Grove) : (s.modGrove i f).groves = upd s.groves i f := rfl
@[simp] theorem State.modChan_chans (s : State) (i : Fin 128) (f : Chan → Chan) : (s.modChan i f).chans = upd s.chans i f := rfl

theorem State.rd_of_word {s t : State} (f : Fld) (h : t.word f.blk f.addr = s.word f.blk f.addr) : t.rd f = s.rd f := by
  simp [State.rd, h]

/-- A field whose word a frame keeps reads as before. -/
theorem RegsSame.rd {out : List Nat} {s t : State} (h : RegsSame out s t) (f : Fld) (hf : f.addr ∉ out) : t.rd f = s.rd f :=
  State.rd_of_word f (h _ _ hf)

theorem Quiet.rd {out : List Nat} {s t : State} (h : Quiet out s t) (f : Fld) (hf : f.addr ∉ out) : t.rd f = s.rd f := h.1.rd f hf

theorem Quiet.of_event {out : List Nat} {s t : State} (h : EventOnly s t) (h' : RegsSame out s t) : Quiet out s t := ⟨h', h.bytes⟩

end Sys2Proof.Machine
end

