-- ==== Sys2Proof/Laws/Sequencer.lean ====
section
/-! SUPPORT. What the shared operations of a sequencer thread can do: decoding, pushing lines, the control stack. -/

namespace Sys2Proof.Machine

theorem foldl_regsOnly {α : Type} (f : State → α → State) (l : List α) (s : State) (h : ∀ s a, RegsOnly s (f s a)) :
    RegsOnly s (l.foldl f s) := by
  induction l generalizing s with
  | nil => rfl
  | cons a r ih => exact (h s a).trans (ih _)

theorem foldl_regsSame {α : Type} {out : List Nat} (f : State → α → State) (l : List α) (s : State)
    (h : ∀ s, ∀ a ∈ l, RegsSame out s (f s a)) : RegsSame out s (l.foldl f s) := by
  induction l generalizing s with
  | nil => exact RegsSame.refl _ _
  | cons a r ih => exact (h s a (List.mem_cons_self ..)).trans (ih _ fun s b hb => h s b (List.mem_cons_of_mem _ hb))

theorem State.decode_ready (s : State) (t : Fin 32) (op : SeqOp) (x : Seg) (act : State → Seg → State) (h : s.readyFor t op x) :
    s.decode t op act = act (s.fetchWords t op.words) x := by
  obtain ⟨h1, h2, h3, h4⟩ := h
  unfold State.decode
  simp only [h1, h2, h3, h4, ite_true]

/-- A thread that does not decode ignores an instruction. -/
theorem State.decode_idle (s : State) (t : Fin 32) (op : SeqOp) (act : State → Seg → State) (h : s.decodes t = false) :
    s.decode t op act = s := by
  unfold State.decode; rw [if_neg (by simp [h])]

theorem State.fetchWords_frame (s : State) (t : Fin 32) (n : Nat) : s.fetchWords t n = { s with groves := (s.fetchWords t n).groves } := rfl

theorem State.push_frame (t : Fin 32) (n : Nat) (s : State) :
    (s.push t n) = { s with threads := (s.push t n).threads } ∧ (s.push t n).threads[t].line = s.threads[t].line ∧
    (s.push t n).threads[t].pos = s.threads[t].pos ∧ (s.push t n).threads[t].stack = s.threads[t].stack ∧
    (∀ u, u ≠ t → (s.push t n).threads[u] = s.threads[u]) := by
  induction n generalizing s with
  | zero => simp [State.push]
  | succ n ih =>
    unfold State.push
    dsimp only
    split
    · simp
    · split
      · simp
      · split
        · simp
        · obtain ⟨h1, h2, h3, h4, h5⟩ := ih (s.modThread t _)
          refine ⟨?_, ?_, ?_, ?_, ?_⟩
          · rw [h1]; rfl
          · rw [h2, State.modThread_same]
          · rw [h3, State.modThread_same]
          · rw [h4, State.modThread_same]
          · intro u hu; rw [h5 u hu, State.modThread_other _ _ _ _ hu]

theorem State.noteFill_frame (t : Fin 32) (s : State) : RegsOnly s (s.noteFill t) ∧ RegsSame fillOut s (s.noteFill t) := by
  unfold State.noteFill
  constructor
  · exact foldl_regsOnly _ _ _ fun s a => RegsOnly.wr ..
  · refine foldl_regsSame _ _ _ fun s (a : Fin 32) _ => RegsSame.wr _ _ _ ?_
    simp only [fillOut, List.mem_map, List.mem_range]
    exact ⟨a.1, a.2, rfl⟩

/-- Pushing lines changes nothing but the thread's own granules, FIFO and emissions, and FAB_FILL. -/
theorem State.pushLines_frame (t : Fin 32) (s : State) :
    (s.pushLines t) = { s with regs := (s.pushLines t).regs, threads := (s.pushLines t).threads } ∧
    (s.pushLines t).threads[t].line = s.threads[t].line ∧
    (s.pushLines t).threads[t].pos = s.threads[t].pos ∧ (s.pushLines t).threads[t].stack = s.threads[t].stack ∧
    (∀ u, u ≠ t → (s.pushLines t).threads[u] = s.threads[u]) ∧ RegsSame fillOut s (s.pushLines t) := by
  unfold State.pushLines
  obtain ⟨h1, h2, h3, h4, h5⟩ := State.push_frame t 4096 s
  obtain ⟨k1, k2⟩ := State.noteFill_frame t (s.push t 4096)
  unfold RegsOnly at k1
  refine ⟨?_, ?_, ?_, ?_, ?_, ?_⟩
  · rw [k1]; dsimp only; rw [h1]
  · rw [k1]; exact h2
  · rw [k1]; exact h3
  · rw [k1]; exact h4
  · rw [k1]; exact h5
  · exact RegsSame.trans (RegsSame.of_regs _ (by rw [h1])) k2

theorem State.addAdvance_frame (s : State) (t : Fin 32) (a b c : Nat) :
    s.addAdvance t a b c = { s with bursts := (s.addAdvance t a b c).bursts } := by
  unfold State.addAdvance; split <;> rfl

theorem State.setStack_regsOnly (s : State) (t : Fin 32) (l : List StackEnt) :
    RegsOnly (s.modThread t fun k => { k with stack := l }) (s.setStack t l) := by
  unfold State.setStack
  exact (RegsOnly.wr _ _ _).trans (foldl_regsOnly _ _ _ fun s a => RegsOnly.wr ..)

/-- Replacing the control stack changes the thread's stack, its depth and its passes shown, and nothing else. -/
theorem State.setStack_frame (s : State) (t : Fin 32) (l : List StackEnt) :
    s.setStack t l = { s with regs := (s.setStack t l).regs, threads := upd s.threads t fun k => { k with stack := l } } :=
  State.setStack_regsOnly s t l

theorem State.setStack_regs (s : State) (t : Fin 32) (l : List StackEnt) : RegsSame (stackOut t) s (s.setStack t l) := by
  have h1 : RegsSame (stackOut t) s ((s.modThread t fun k => { k with stack := l }).wr (F.SEQ_STATUS_DEPTH t) l.length) :=
    RegsSame.trans (t := s.modThread t fun k => { k with stack := l }) (RegsSame.of_regs _ rfl)
      (RegsSame.wr _ _ _ (List.mem_append_left _ (List.mem_cons_of_mem _ (List.mem_cons_self ..))))
  refine h1.trans ?_
  unfold State.setStack
  refine foldl_regsSame _ _ _ fun s a ha => RegsSame.wr _ _ _ (List.mem_append_right _ (List.mem_map.2 ⟨a, ha, rfl⟩))

end Sys2Proof.Machine
end

