-- ==== Sys2Proof/WellFormed.lean ====
section
/-! DEFINITION. The bounds of the operands that the types of Syntax.lean do not bound: a command is well formed when every
operand fits the field, or the range, that the spec gives it. A value that fits its field and that the spec refuses by a
status (a burst of no grove, a demand above 2000) is well formed: its command completes with that status. -/

namespace Sys2Proof

/-- What must lie below what: a value, or the length of a list, and the bound of its field. -/
abbrev Fits := List (Nat × Nat)

/-- A header's tag has 9 bits and its epoch 6 (R312). -/
def Hdr.fits (h : Hdr) : Fits := [(h.tag, 512), (h.epoch, 64)]

/-- A port's header, where it has one. -/
def Port.fits : Port → Fits
  | .host h => h.fits
  | .sideband => []

/-- The fields of a BURST entry (R321). -/
def BurstOps.fits (o : BurstOps) : Fits :=
  [(o.groves, 2 ^ 32), (o.demand, 2 ^ 16), (o.mode, 2 ^ 8), (o.trig, 4), (o.seg, 2 ^ 16), (o.gen, 2 ^ 8), (o.time, 2 ^ 64)]

/-- The fields of a task descriptor (R288). -/
def TaskDesc.fits (d : TaskDesc) : Fits :=
  [(d.flow, 2 ^ 16), (d.nslot, 2 ^ 8), (d.mask, 2 ^ 8), (d.entry, 2 ^ 32), (d.arg, 2 ^ 64), (d.srcs.length, 5), (d.reserved, 2 ^ 64)] ++
    d.srcs.map fun x => (x, 2 ^ 16)

/-- A channel's levels: two bits at each strobe, four bits of window pairs (R181). -/
def ChanLevels.fits (l : ChanLevels) : Fits := [(l.ch, 128), (l.c0, 4), (l.c1, 4), (l.u2, 4), (l.u3, 4), (l.win, 16)]

/-- A unit of a calibration group (R408): seven groups of at most 128 units. -/
def CalResult.fits (r : CalResult) : Fits := [(r.group, 7), (r.unit, 128)]

/-- The bytes of the Canopy window, and one (R309). -/
def canopyBytes : Nat := 2 ^ 27 + 1

/-- The bounds of a command's operands. -/
def Instr.fits : Instr → Fits
  | .burst h o => h.fits ++ o.fits
  | .stop h tag epoch => h.fits ++ [(tag, 512), (epoch, 64)]
  | .abort h tag epoch => h.fits ++ [(tag, 512), (epoch, 64)]
  | .nop h => h.fits
  | .structLoad h src length => h.fits ++ [(src.addr, 2 ^ 64), (length, 2 ^ 32)]
  | .segLoad h desc _ _ _ => h.fits ++ [(desc.addr, 2 ^ 64)]
  | .segUnload h seg gen => h.fits ++ [(seg, 2 ^ 16), (gen, 2 ^ 8)]
  | .codeLoad h src length codeId coreMask _ sig_ => h.fits ++ [(src.addr, 2 ^ 64), (length, 2 ^ 32), (codeId, 2 ^ 16), (coreMask, 2 ^ 8), (sig_.addr, 2 ^ 64)]
  | .evacuate h bank => h.fits ++ [(bank, 2 ^ 8)]
  | .scratchClaim h pages => h.fits ++ [(pages, 2 ^ 16)]
  | .scratchRelease h claim => h.fits ++ [(claim, 2 ^ 16)]
  | .captureRelease h grove => h.fits ++ [(grove, 2 ^ 8)]
  | .placementReport h dest maxLen => h.fits ++ [(dest, 2 ^ 64), (maxLen, 2 ^ 32)]
  | .snapshot h _ _ grove id point => h.fits ++ [(grove, 2 ^ 8), (id, 2 ^ 16), (point, 2 ^ 64)]
  | .calibrate h groups flags groves dscs => h.fits ++ [(groups, 2 ^ 8), (flags, 2 ^ 8), (groves, 2 ^ 32), (dscs, 2 ^ 16)]
  | .taskCreate h d => h.fits ++ d.fits
  | .taskFill h handle slot value => h.fits ++ [(handle, 2 ^ 32), (slot, 2 ^ 8), (value, 2 ^ 64)]
  | .taskCancel h handle => h.fits ++ [(handle, 2 ^ 32)]
  | .authBegin p role keyIndex dest => p.fits ++ [(role, 2 ^ 8), (keyIndex, 2 ^ 8), (dest, 2 ^ 64)]
  | .authFinish p sig_ => p.fits ++ [(sig_.addr, 2 ^ 64)]
  | .logout p => p.fits
  | .provision h block length dest => h.fits ++ [(block.addr, 2 ^ 64), (length, 2 ^ 32), (dest, 2 ^ 64)]
  | .keyLoad h block => h.fits ++ [(block.addr, 2 ^ 64)]
  | .keyErase h slot => h.fits ++ [(slot, 2 ^ 16)]
  | .zeroise h => h.fits
  | .release p => p.fits
  | .quote h dest nonce mask => h.fits ++ [(dest, 2 ^ 64), (nonce.length, 33), (mask, 2 ^ 8)]
  | .selfTest h fails => h.fits ++ [(fails, 2 ^ 8)]
  | .debugUnlock h confirm => h.fits ++ [(confirm, 2 ^ 32)]
  | .random h dest len _ => h.fits ++ [(dest, 2 ^ 64), (len, 2 ^ 32)]
  | .paceRingWindow counts => [(counts.length, 9)]
  | .burstArmed tag epoch => [(tag, 512), (epoch, 64)]
  | .burstStart tag epoch => [(tag, 512), (epoch, 64)]
  | .granuleFetch _ seg gen gran => [(seg, 2 ^ 16), (gen, 2 ^ 8), (gran, 2 ^ 32)]
  | .run _ ts _ mark n => [(ts, 32), (mark, 16), (n, 2 ^ 32)]
  | .rpt _ ts _ mark n => [(ts, 32), (mark, 16), (n, 2 ^ 32)]
  | .loop _ _ count => [(count, 2 ^ 32)]
  | .mloop _ _ count => [(count, 2 ^ 32)]
  | .mend _ comb => [(comb, 4)]
  | .call _ seg gen => [(seg, 2 ^ 16), (gen, 2 ^ 8)]
  | .jseg _ seg gen => [(seg, 2 ^ 16), (gen, 2 ^ 8)]
  | .jmp _ tword tline => [(tword, 2 ^ 24), (tline, 2 ^ 32)]
  | .brc _ cond comb tword tline => [(cond, 16), (comb, 4), (tword, 2 ^ 24), (tline, 2 ^ 32)]
  | .sig _ start count crc => [(start, 2 ^ 28), (count, 2 ^ 16), (crc, 2 ^ 32)]
  | .cycleCommit _ cause => [(cause, 5)]
  | .cycleStart _ levels _ => levels.flatMap ChanLevels.fits
  | .outcomeRecordWrite tag epoch => [(tag, 512), (epoch, 64)]
  | .structureScrub upset => [(upset.getD 0, 2 ^ 18)]
  | .timingTableWrite _ addr _ => [(addr, 2 ^ 24)]
  | .pecTransactionDone _ rx => [(rx, 2 ^ 64)]
  | .segmentCopyDone seg gen => [(seg, 2 ^ 16), (gen, 2 ^ 8)]
  | .moveCopyDone seg gen => [(seg, 2 ^ 16), (gen, 2 ^ 8)]
  | .moveSwitch seg gen => [(seg, 2 ^ 16), (gen, 2 ^ 8)]
  | .trgRead _ n => [(n, 2 ^ 16)]
  | .tmuEdge _ tick code _ _ => [(tick, 2 ^ 64), (code, 4096)]
  | .tmuRead _ n => [(n, 2 ^ 16)]
  | .codeDensityCalibration unit => [(unit, 36)]
  | .codeDensityDone unit hits => [(unit, 36), (hits.length, 4097)]
  | .driftQualified unit => [(unit, 36)]
  | .dscModeRequest _ mode _ => [(mode, 8)]
  | .loopSample _ v ihg ilg _ _ _ => [(v, 2 ^ 14), (ihg, 2 ^ 14), (ilg, 2 ^ 14)]
  | .dscMarkerDelivery _ seg gen word depth => [(seg, 2 ^ 16), (gen, 2 ^ 8), (word, 2 ^ 24), (depth, 17)]
  | .pccTrip _ step => [(step, 2 ^ 16)]
  | .windowHighTrip _ step => [(step, 2 ^ 16)]
  | .windowLowTrip _ step => [(step, 2 ^ 16)]
  | .ovpTrip _ step => [(step, 2 ^ 16)]
  | .cmpSelfCheckDone _ fails => [(fails, 16)]
  | .residualWatchTick seen => [(seen, 2 ^ 16)]
  | .schScrub bad => [(bad.getD 0, 4096)]
  | .coreMemoryAccess _ _ _ addr bytes data => [(addr, 2 ^ 64), (bytes, 9), (data, 2 ^ 64)]
  | .sqTailDoorbell _ tail => [(tail, 2 ^ 32)]
  | .hostReadResponse h _ => h.fits
  | .cqHeadDoorbell _ head => [(head, 2 ^ 32)]
  | .canopyWindowWrite reqId off data _ => [(reqId, 2 ^ 16), (off + data.length, canopyBytes)]
  | .canopyWindowRead off len => [(off + len, canopyBytes)]
  | .sdramWindowWrite reqId off data _ => [(reqId, 2 ^ 16), (off + data.length, 2 ^ 32 + 1)]
  | .sdramWindowRead off len => [(off + len, 2 ^ 32 + 1)]
  | .registerWrite _ addr words _ => [(addr, 2 ^ 24), (words.length, 3)]
  | .pairLowRead _ addr => [(addr, 2 ^ 24)]
  | .pairLowWrite _ addr _ => [(addr, 2 ^ 24)]
  | .frameReceive _ slot _ line => [(slot, 2 ^ 61), (line.length, 71)]
  | .tokenGrove _ body => [(body.length, 45)]
  | .tokenArmed _ body => [(body.length, 45)]
  | .tokenStart _ body => [(body.length, 45)]
  | .tokenSnapshot _ body => [(body.length, 45)]
  | .tokenEcho _ body => [(body.length, 45)]
  | .tokenIdent _ body => [(body.length, 45)]
  | .tokenDesc _ body => [(body.length, 45)]
  | .msgReceive _ body => [(body.length, 45)]
  | .peerReceive _ body => [(body.length, 45)]
  | .nakReceive _ seq => [(seq, 4096)]
  | .fomWindow _ fom ups => [(fom, 2 ^ 8), (ups.length, 13)]
  | .linkRetrain _ cause => [(cause, 4)]
  | .timeRequestReceive _ body => [(body.length, 45)]
  | .timeReplyReceive _ body => [(body.length, 45)]
  | .ethFrameReceive frame _ frac => [(frame.length, 65536), (frac, 65536)]
  | .ethFrameTransmit frac => [(frac, 65536)]
  | .dmcTrainingDone step subs margins => [(step, 9), (subs, 16), (margins.length, 5)]
  | .sdramRequest _ _ addr data be deadline => [(addr, 2 ^ 48), (data.length, 65), (be, 2 ^ 64), (deadline, 2 ^ 64)]
  | .rowIdleClose _ rank bank => [(rank, 2), (bank, 16)]
  | .referenceMonitorWindow count => [(count, 2 ^ 16)]
  | .oscillatorMonitorWindow count => [(count, 2 ^ 16)]
  | .vinSample mv ma => [(mv, 2 ^ 16), (ma, 2 ^ 16)]
  | .temperatureUpdate readings => [(readings.length, 17)]
  | .calibrationRunEnd results _ => results.flatMap CalResult.fits
  | .faultOccurrence src => [(src, 96)]
  | .dualSourceActive src _ => [(src, 96)]
  | .dualLineMismatch src => [(src, 96)]
  | .firebreakStart cause src => [(cause, 6), (src, 256)]
  | .dscRampOpen _ reason us => [(reason, 4), (us, 2 ^ 16)]
  | .tamperEvent kind => [(kind, 4)]
  | .sidebandRead off count => [(off, 2 ^ 24), (count, 17)]
  | .getCertificate off len => [(off, 2 ^ 16), (len, 2 ^ 16)]
  | .challenge nonce => [(nonce.length, 33)]
  | .getMeasurements index _ nonce => [(index, 2 ^ 8), (nonce.length, 33)]
  | .tapInstruction ir => [(ir, 9)]
  | .bootRomStart fails => [(fails, 2 ^ 12)]
  | .download _ kind src len => [(kind, 4), (src.addr, 2 ^ 64), (len, 2 ^ 32)]
  | .verify _ kind => [(kind, 4)]
  | .activate _ kind => [(kind, 4)]
  | .abandon _ kind => [(kind, 4)]
  | .burstAdmission .. | .grantRaise .. | .vfabRampDone .. | .vfabSettleExpiry .. | .fabHoldoffExpiry .. | .granuleArrival ..
  | .lend .. | .ret .. | .clrf .. | .sigCheckDone .. | .halt .. | .illegalInstruction .. | .hostStreamAnnounceMatch ..
  | .decisionResultsReady .. | .voidLimitReached .. | .cycleResult .. | .abortEffect .. | .stopEffect .. | .captureDrain ..
  | .structureStaged .. | .structureValidated .. | .dryRunPlacementDone .. | .quiesceComplete .. | .parkTimeout ..
  | .structureSwap .. | .symMapWrite .. | .symScrub .. | .tmgPeriodLoWrite .. | .tmgPeriodHiWrite .. | .tmgModDelayWrite ..
  | .tmgScrub .. | .pecGo .. | .syncEpochReceive .. | .syncEpochDrive .. | .trigInEdge .. | .hqStrmCfgWrite .. | .hqStrmPut ..
  | .hqStrmAnnounce .. | .corePark .. | .codePageMove .. | .forQueryWrite .. | .forSdramSplitWrite .. | .capChmaskWrite ..
  | .capSnapCmd .. | .snapshotTimePoint .. | .trgArm .. | .trgDisarm .. | .trgForce .. | .trgSample .. | .trgRecordComplete ..
  | .trgHoldoffExpiry .. | .trgTimeoutExpiry .. | .tmuArm .. | .tmuDisarm .. | .tmuClose .. | .tmuGateOpen ..
  | .tmuGateExpiry .. | .tmuResultsFinal .. | .tmuResCountRead .. | .tmuBinDataRead .. | .dscCommit .. | .dscRcBindWrite ..
  | .loopComputeDone .. | .rcPassComplete .. | .dscScrub .. | .trcCtrlWrite .. | .dscFltLLow .. | .switchingPeriodStart ..
  | .dscOverVoltage .. | .cmpStGo .. | .schNewCommit .. | .schTake .. | .taskDispatch .. | .schDone .. | .schFill ..
  | .schCancel .. | .schKick .. | .schWdogWrite .. | .watchdogExpiry .. | .machineTimerPending .. | .commandFetch ..
  | .completionWrite .. | .queueCfgWrite .. | .coalescingTimerExpiry .. | .functionLevelReset .. | .powerStateChange ..
  | .hqWseqRead .. | .hqPwfPop .. | .fabLockWrite .. | .frameSend .. | .mflMsgSend .. | .mflMsgPop .. | .mflCfgWrite ..
  | .linkUp .. | .linkFailed .. | .linkBringupRetry .. | .linkIdleEntry .. | .linkIdleExit .. | .timRateWrite ..
  | .rateApply .. | .timStepHiWrite .. | .stepApply .. | .timCtrlWrite .. | .timeRequestSend .. | .timTxtsPop .. | .dmcInit ..
  | .dmcRetrain .. | .commandSlot .. | .readDataReturn .. | .alertN .. | .refreshInterval .. | .mr4Read .. | .zqCalibration ..
  | .dqsOscillatorRead .. | .powerDownEntry .. | .refclkMissingEdge .. | .oscillatorSwitchover .. | .clkReturnWrite ..
  | .frequencyLock .. | .returnComplete .. | .forceIntWrite .. | .clkoutCfgWrite .. | .vinCapRise .. | .vinUndervoltage ..
  | .vinOvervoltage .. | .inputLimitExpiry .. | .railOutOfRange .. | .regulatorUpdateLost .. | .thermalFlagSet ..
  | .thermalFlagClear .. | .limitTimerExpiry .. | .wearLedgerCopy .. | .wearLedgerFlash .. | .vinRise .. | .railGood ..
  | .powerDown .. | .resetL .. | .understoryTick .. | .powerupCalibration .. | .collectorScrub .. | .collectorLineTest ..
  | .fltForceWrite .. | .faultRecordWrite .. | .clearingStateEntry .. | .heartbeatToggle .. | .nonceExpiry ..
  | .lockoutExpiry .. | .sidebandReset .. | .getVersion .. | .getCapabilities .. | .negotiateAlgorithms .. | .getDigests ..
  | .bootRecordWritten .. | .confirmationTimerExpiry .. | .glbBootConfirm .. | .updateOperationEnd .. | .dscFltLHigh ..
  | .comparatorLevelFalse .. | .qualifierTimeReached .. | .vstbyLoss .. | .vstbyReturn .. | .alertNHigh .. | .pciePerstL ..
  | .calibrationRecordWritten .. => []

/-- Every operand lies within its bound. -/
def Instr.wf (c : Instr) : Bool := c.fits.all fun x => decide (x.1 < x.2)

end Sys2Proof
end

