-- ==== Sys2Proof/Tests/Slice0.lean ====
section
/-! SUPPORT. The package's own tests: ill-formed commands are refused, one step on small states, and for every statement with
hypotheses a state and operands that meet the hypotheses of each of its clauses. -/

namespace Sys2Proof.Tests

set_option Elab.async false

open Sys2Proof Sys2Proof.Machine

/-- The header the test commands carry, and the second one of two. -/
def hd : Hdr := ⟨2, 7, 1, false⟩
def hd2 : Hdr := ⟨3, 8, 1, false⟩

/-- A resident segment: two runs of pages, 100 words, 640 lines of 32 bytes a granule. -/
def sg : Seg :=
  { id := 5, gen := 1, tier := .canopy, pages := [(400, 1)], ipages := [(401, 1)], iwords := 100, lines := 640, granBytes := 32 }

/-- A burst of grove 0 at a stage. -/
def bu (st : Stage) : Burst :=
  { hdr := hd, ops := ⟨1, 100, 0, 0, 5, 1, 0⟩, stage := st, order := 0, startSlot := none, startTime := none, endTime := 0
    reach := [(5, 1)], waiters := [], faultSeq := 0, faultSrc := 0xFF, firebreak := false, fatal := false, armedBy := [] }

/-- Reset with registers set. -/
def rs (l : List (Fld × Nat)) : State := State.reset.wrs l

/-- Registers set in a state. -/
def set (l : List (Fld × Nat)) (s : State) : State := s.wrs l

/-- Grove 0 bound to thread 3 with coppice 0, a resident segment, and a burst at a stage that thread 3 serves at word 10;
most pages lie in no region. -/
def run3 (st : Stage) (f : Thread → Thread := id) : State :=
  let s := rs [(F.STR_GROVE_BOUND 0, 1), (F.STR_GROVE_THREAD 0, 3), (F.STR_COPPICE_MAP_MAP 0, 0xFFFFFF00), (F.SEQ_SEG_SEG 3, 5),
    (F.SEQ_SEG_GEN 3, 1), (F.SEQ_PC_WORD 3, 10)]
  let s := { s with bursts := [bu st], forest := { s.forest with segs := [sg], regions := [(0, 256, 0), (256, 64, 1), (400, 2, 2)] } }
  let s := s.modGrove 0 fun g => { g with burst := some (7, 1) }
  s.modThread 3 fun k => f { k with busy := some (7, 1), members := 1 }

/-- The words of the segment of `run3` from word 10 on. -/
def wds (l : List Nat) (s : State) : State :=
  { s with canopy := l.zipIdx.foldl (fun m p => Mem.puts m (401 * 65536 + 80 + 8 * p.2) (bytesLE 8 p.1)) s.canopy }

/-- A command of an opcode accepted under the test header. -/
def cmd (opc : Nat) (s : State) : State := { s with hq := { s.hq with inFlight := s.hq.inFlight ++ [⟨hd, opc, 4, false, false, false, false⟩] } }

/-- The same with what stood at its acceptance: no reference clock, a structure load, a burst. -/
def cmdAt (opc : Nat) (noRef reload busy : Bool) (s : State) : State :=
  { s with hq := { s.hq with inFlight := s.hq.inFlight ++ [⟨hd, opc, 4, false, noRef, reload, busy⟩] } }

/-- An entry of a control stack. -/
def ent (k : StackKind) : StackEnt := ⟨k, 8, 2, 1, 3, false, 5, 1, 0, 0⟩

/-- A line and a started cycle of it. -/
def li : Line := ⟨1, true, false, false, [], 0, [], 4, false, 5, 1, 3, true⟩
def stc : Started := ⟨⟨2, none, 1, 100⟩, [], false, 50⟩

/-- The host as operator, and as security officer. -/
def oper (s : State) : State := s.wr F.SEC_STATUS_HOST_ROLE 1
def offi (s : State) : State := s.wr F.SEC_STATUS_HOST_ROLE 2

/-- The descriptor bytes of a segment load of 64 lines and one HALT word in host memory, the source that holds them, and what
they spell; the HALT word and the granules. -/
def dsB : List Byte :=
  bytesLE 16 (6 + 2 ^ 16 * 2 + 2 ^ 32 * 64 + 2 ^ 64 * 1 + 2 ^ 96 * 32 + 2 ^ 112 * 0xFFFF) ++
    bytesLE 8 (1 + 2 ^ 16) ++ bytesLE 8 0x2000 ++ bytesLE 8 0x4000 ++ List.replicate 24 0
def dsSrc : Src := ⟨0x1000, some dsB⟩
def haltB : List Byte := bytesLE 8 0x800000000000001F
def granB : List Byte := List.replicate 32 0x55
def ds : SegDesc := segDescOf dsB (some haltB) (some granB) (some [])

/-- The segment region may grow, and payload in the clear is permitted. -/
def room (s : State) : State := s.wrs [(F.STR_REGION_MAX_PAGES 2, 900), (F.STR_SECOPT_OPTIONS, 2)]

/-- A segment that is loading. -/
def ld : Seg := { sg with id := 6, gen := 2, loading := some hd, pages := [(410, 1)], ipages := [(411, 1)], copy := [7], icopy := [8] }

/-- A move of the resident segment. -/
def mv (c : Bool) : Move := ⟨5, 1, .canopy, [(420, 1)], [(421, 1)], 0, c, none⟩
def withSegs (l : List Seg) (s : State) : State := { s with forest := { s.forest with segs := l } }
def withMoves (l : List Move) (s : State) : State := { s with forest := { s.forest with moves := l } }

/-- One trigger engine, time measurement unit, lane, core, DSC changed. -/
def trg (e : Fin 4) (f : Trg → Trg) (s : State) : State := s.modTrg e f
def tmu (u : Fin 32) (f : Tmu → Tmu) (s : State) : State := s.modTmu u f

/-- An engine that waits with room in its store; a record in progress; a cycle result before the engine. -/
def armed : State := rs [(F.TRG_STATUS_STATE 1, 1), (F.TRG_STORE_RECS 1, 4), (F.STR_COPPICE_MAP_MAP 0, 0xFFFFFF00)]
def rec1 : TrgRec := ⟨0, 9, 1, [], [⟨4, 2, false, false, false, false, 0⟩], false⟩
def feed1 : TrgFeed := ⟨⟨4, 3, false, false, false, false, 0⟩, 15, 2, false, false, false⟩

/-- An open gate, and a calibration run of the HOUSE group under the test header. -/
def gt : Gate := { no := 2, openS := 3, openTime := 4 }
def gated : State :=
  { rs [(F.STR_COPPICE_MAP_MAP 0, 0)] with acq := { tmu := upd State.reset.acq.tmu 2 fun k => { k with gate := some gt }
                                                    hits := upd State.reset.acq.hits 2 fun _ => [5, 6] } }
theorem tmu_edgeAt (f : Tmu → Tmu) (s : State) (u : Fin 32) (t c : Nat) : (tmu u f s).edgeAt u t c = s.edgeAt u t c := by
  have e : (tmu u f s).acq.hits = s.acq.hits := rfl
  simp only [State.edgeAt, State.stampOf, State.rawStamp, State.fineOf, e]
  split <;> rfl
theorem dead_edge (s : State) (u : Fin 32) (t c : Nat) :
    inDead (tmu u (fun k => { k with lastS := some (s.edgeAt u t c) }) s).acq.tmu[u].lastS
      ((tmu u (fun k => { k with lastS := some (s.edgeAt u t c) }) s).edgeAt u t c) = true := by
  rw [tmu_edgeAt]
  simp [tmu, State.modTmu, upd, inDead]
def crun : CalRun := ⟨some hd, 2, false, false, 0, 0, 0, 0, 0, false, false, 0⟩
def withRun (r : CalRun) (s : State) : State := { s with cal := { s.cal with run := some r } }

/-- Channel 1 bound to grove 0, in a mode; the channel changed; its registers and pulse generator set. -/
def chn (mode : Nat) : State := rs [(F.STR_DSC_GROVE 1, 0), (F.DSC_STATUS_MODE 1, mode), (F.STR_GROVE_BOUND 0, 1)]
def dsc (f : Dsc → Dsc) (s : State) : State := s.modDsc 1 f
def pgn (f : Pgn → Pgn) (s : State) : State := s.modPgn 1 f

/-- A pass that ran; a sample that waits; a pulse generator in a period. -/
def pass1 : RcPass := ⟨2, 5, 9, some 9, true, false, [], {}, {}, {}, 0⟩
def samp1 : DscSamp := ⟨7, 1000000, 500, false, 1, false, none, 1000000, [], none, none⟩
def inPeriod : Pgn := { on := 40, en := true, duty := ⟨2 ^ 46, 0⟩, force := [4, 0, 0, 0, 0, 0, 0, 0] }

/-- A task that waits for slot 0, and one with a full set of operands; a store holding one task. -/
def tk : Task := ⟨3, 2, 9, 2, 0, 0x1000, 77, [0, 0], [none, some 5], .waiting, none, false⟩
def tkR : Task := { tk with slots := [some 4, some 5], state := .ready, since := some 0 }
def tkS : Task := { tk with state := .inService 1 }
def withTask (t : Task) (s : State) : State :=
  { s with sched := { s.sched with tasks := [t], fresh := 4, gens := cellPut 0 3 2 s.sched.gens } }
def core (f : Core → Core) (s : State) : State := s.modCore 1 f

/-- The class of a fault source set to a value (of the image). -/
def cls (i v : Nat) (s : State) : State := s.wr (F.FLT_CLASS_CLASS (i / 4)) (v * 256 ^ (i % 4))

/-- Queue pair 2 enabled with 16 entries each and entries to fetch; the pair changed. -/
def que : State :=
  let s := rs [(F.HQ_SQ_CFG_EN 2, 1), (F.HQ_SQ_CFG_SIZE 2, 16), (F.HQ_CQ_CFG_EN 2, 1), (F.HQ_CQ_CFG_SIZE 2, 16), (F.HQ_CQ_TAIL_PHASE 2, 1),
    (F.HQ_CQ_BASE_LO_ADDR 2, 0x8000)]
  s.modQueue 2 fun k => { k with sqTail := 3 }
def qp (f : QueuePair → QueuePair) (s : State) : State := s.modQueue 2 f

/-- The entry of a NOP of the test header, and a completion that waits for queue 2. -/
def entry (opc : Nat) : List Byte := [BitVec.ofNat 8 opc, 0, 7, 2] ++ List.replicate 60 0
def co : Compl := ⟨hd, 0, 0, 9, false⟩
def withCompl (s : State) : State := { s with hq := { s.hq with compls := [co], tags := cellPut 64 7 1 s.hq.tags } }

/-- SDRAM in operation: 1 GiB, none of it the Forester's. -/
def sdr (s : State) : State := s.wrs [(F.DMC_STATUS_STATE, 2), (F.DMC_GEOM_USABLE_MIB, 1024), (F.FOR_SDRAM_SPLIT_GIB, 0)]
/-- The boot has ended outside recovery. -/
def up (s : State) : State := s.wr F.GLB_BOOT_STAT_STAGE 2

/-- Lane 1 in a state, the lane changed; a token that stands first in its lane. -/
def lane (st : Nat) (f : Lane → Lane := id) (s : State := .reset) : State := (s.wr (F.MFL_LANE_STAT_STATE 1) st).modLane 1 f
def timBody (reply : Bool) (seq res : Nat) : List Byte := bytesLE 16 (5 + 2 ^ 7 * b2n reply + 2 ^ 8 * seq + 2 ^ 72 * res)
def fltS (f : Flt → Flt) (s : State) : State := { s with flt := f s.flt }
/-- A token of a body that stands in an inbox. -/
def inTok (body : List Byte) : InTok := ⟨0, leAt body 0 16, 40⟩
def timS (f : Tim → Tim) (s : State) : State := { s with tim := f s.tim }
def clkS (f : Clk → Clk) (s : State) : State := { s with clk := f s.clk }
def canopyAt (l : List (Nat × Byte)) (s : State) : State := { s with canopy := l.foldl (fun m p => Mem.put m p.1 p.2) s.canopy }

/-- Lane 1 UP with a linked grove 0 of two modules behind it, this module at position 1, and the leader's descriptor heard;
the head of lane 1 is a token. -/
def linked (tok : Nat) (s : State) : State :=
  let s := s.wrs [(F.STR_LINK_MODULES 2, 2), (F.STR_LINK_LANE_MASK 2, 2), (F.STR_LINK_POSITION 2, 1), (F.STR_LINK_ID_LINK_ID 2, 77),
    (F.STR_GROVE_BOUND 0, 1), (F.MFL_LANE_STAT_STATE 1, 2)]
  let s := { s with links := { s.links with descs := [(1, 8 + 2 ^ 4 * 5 + 2 ^ 8 * 77 + 2 ^ 40 * 2)], peers := [{ link := 2, pos := 0, next := 4 }] } }
  s.modLane 1 fun k => { k with inbox := [⟨0, tok, 0⟩] }
/-- A token of a type for the leader's entry 5. -/
def tok (ty rest : Nat) : Nat := ty + 2 ^ 4 * 5 + rest
/-- A frame with a header of a token and a bulk descriptor, and a body; one whose CRC is wrong. -/
def frm (t d : Nat) (data : List Byte) : List Byte :=
  let h := bytesLE 16 t ++ bytesLE 6 d
  h ++ bytesLE 2 (crc16 h) ++ (data ++ List.replicate 44 0).take 44
/-- A frame as it stands on the line of a lane that has sent nothing before. -/
def lineOf (f : List Byte) : List Byte := frameSync ++ (scrBytes scrambleBit 0 f).1
/-- A burst of the linked start mode at a stage. -/
def link1 (st : Stage) : Burst := { bu st with ops := { (bu st).ops with mode := 4 } }

/-- SDRAM in operation with one request on port 0 (address 0x12340), a subchannel changed. Subchannel 3. -/
def rq : DmcReq := { port := 0, order := 4, write := false, addr := 0x12340, data := [], be := 0, arrived := 0, deadline := 0 }
def withReq (r : DmcReq) (s : State) : State := { s with dmc := { s.dmc with reqs := [r] } }
def sub3 (f : DmcSub → DmcSub) (s : State) : State := s.modSub 3 f
def pw (f : Power → Power) (s : State) : State := { s with power := f s.power }
def fl (f : Flt → Flt) (s : State) : State := { s with flt := f s.flt }

/-- The self-tests are done and the module is in the approved mode of a lifecycle; the security state changed. -/
def secS (f : Sec → Sec) (s : State) : State := { s with sec := f s.sec }
def appr (life : Nat) (s : State) : State := s.wrs [(F.SEC_STATUS_ST_DONE, 1), (F.SEC_STATUS_APPROVED, 1), (F.SEC_STATUS_LIFECYCLE, life)]
def src (l : List Byte) : Src := ⟨0x4000, some l⟩
def non : Nonce := ⟨1, 0, List.replicate 48 3, false⟩
/-- A key load block of slot 5. -/
def keyBlock : List Byte := List.replicate 96 1 ++ [5] ++ List.replicate 63 0
def strS (f : Struct → Struct) (s : State) : State := { s with str := f s.str }
def withCode (l : List CodePage) (s : State) : State := { s with forest := { s.forest with code := l } }
/-- The regions of an image whose code region lies outside bank 0. -/
def regionsOut : List (Nat × List Byte) := [(5, [1, 0, 0, 0, 1, 0, 100, 0, 0xFE, 0xFF, 0xFF, 0xFF, 0, 0, 0, 0])]
def noRegions (s : State) : State := { s with forest := { s.forest with regions := [] } }

/-! ## Ill-formed commands are refused: each list holds one term for each check of `Instr.wf` -/

theorem test_ill_formed_refused_1 : ([
    .burst (⟨0, 512, 0, false⟩) (⟨1, 1, 0, 0, 1, 1, 0⟩),
    .burst (⟨0, 0, 64, false⟩) (⟨1, 1, 0, 0, 1, 1, 0⟩),
    .stop (hd) (512) (0),
    .stop (hd) (0) (64),
    .abort (hd) (512) (0),
    .abort (hd) (0) (64),
    .nop (⟨0, 512, 0, false⟩),
    .nop (⟨0, 0, 64, false⟩),
    .structLoad (hd) (⟨2 ^ 64, none⟩) (0),
    .structLoad (hd) (⟨0, none⟩) (2 ^ 32),
    .segLoad (hd) (⟨2 ^ 64, none⟩) (none) (none) (none),
    .segUnload (hd) (2 ^ 16) (0),
    .segUnload (hd) (0) (2 ^ 8),
    .codeLoad (hd) (⟨2 ^ 64, none⟩) (0) (0) (0) (false) (⟨0, none⟩),
    .codeLoad (hd) (⟨0, none⟩) (2 ^ 32) (0) (0) (false) (⟨0, none⟩),
    .codeLoad (hd) (⟨0, none⟩) (0) (2 ^ 16) (0) (false) (⟨0, none⟩),
    .codeLoad (hd) (⟨0, none⟩) (0) (0) (2 ^ 8) (false) (⟨0, none⟩),
    .codeLoad (hd) (⟨0, none⟩) (0) (0) (0) (false) (⟨2 ^ 64, none⟩),
    .evacuate (hd) (2 ^ 8),
    .scratchClaim (hd) (2 ^ 16),
    .scratchRelease (hd) (2 ^ 16),
    .captureRelease (hd) (2 ^ 8),
    .placementReport (hd) (2 ^ 64) (0),
    .placementReport (hd) (0) (2 ^ 32),
    .snapshot (hd) (false) (false) (2 ^ 8) (0) (0),
    .snapshot (hd) (false) (false) (0) (2 ^ 16) (0),
    .snapshot (hd) (false) (false) (0) (0) (2 ^ 64),
    .calibrate (hd) (2 ^ 8) (0) (0) (0),
    .calibrate (hd) (0) (2 ^ 8) (0) (0),
    .calibrate (hd) (0) (0) (2 ^ 32) (0),
    .calibrate (hd) (0) (0) (0) (2 ^ 16),
    .taskFill (hd) (2 ^ 32) (0) (0),
    .taskFill (hd) (0) (2 ^ 8) (0),
    .taskFill (hd) (0) (0) (2 ^ 64),
    .taskCancel (hd) (2 ^ 32),
    .authBegin (.sideband) (2 ^ 8) (0) (0),
    .authBegin (.sideband) (0) (2 ^ 8) (0),
    .authBegin (.sideband) (0) (0) (2 ^ 64),
    .authFinish (.sideband) (⟨2 ^ 64, none⟩),
    .logout (.host ⟨0, 512, 0, false⟩),
    .provision (hd) (⟨2 ^ 64, none⟩) (0) (0),
    .provision (hd) (⟨0, none⟩) (2 ^ 32) (0),
    .provision (hd) (⟨0, none⟩) (0) (2 ^ 64),
    .keyLoad (hd) (⟨2 ^ 64, none⟩),
    .keyErase (hd) (2 ^ 16),
    .quote (hd) (2 ^ 64) ([]) (0),
    .quote (hd) (0) (List.replicate (33) 0) (0),
    .quote (hd) (0) ([]) (2 ^ 8),
    .selfTest (hd) (2 ^ 8),
    .debugUnlock (hd) (2 ^ 32),
    .random (hd) (2 ^ 64) (0) (false),
    .random (hd) (0) (2 ^ 32) (false),
    .paceRingWindow (List.replicate (9) 0),
    .burstArmed (512) (0),
    .burstArmed (0) (64),
    .burstStart (512) (0),
    .burstStart (0) (64),
    .granuleFetch (0) (2 ^ 16) (0) (0),
    .granuleFetch (0) (0) (2 ^ 8) (0),
    .granuleFetch (0) (0) (0) (2 ^ 32)] : List Instr).all (fun c => !c.wf) = true := by
  decide +kernel

theorem test_ill_formed_refused_2 : ([
    .run (0) (32) (false) (0) (0),
    .run (0) (0) (false) (16) (0),
    .run (0) (0) (false) (0) (2 ^ 32),
    .rpt (0) (32) (false) (0) (0),
    .rpt (0) (0) (false) (16) (0),
    .rpt (0) (0) (false) (0) (2 ^ 32),
    .loop (0) (false) (2 ^ 32),
    .mloop (0) (false) (2 ^ 32),
    .mend (0) (4),
    .call (0) (2 ^ 16) (0),
    .call (0) (0) (2 ^ 8),
    .jseg (0) (2 ^ 16) (0),
    .jseg (0) (0) (2 ^ 8),
    .jmp (0) (2 ^ 24) (0),
    .jmp (0) (0) (2 ^ 32),
    .brc (0) (16) (0) (0) (0),
    .brc (0) (0) (4) (0) (0),
    .brc (0) (0) (0) (2 ^ 24) (0),
    .brc (0) (0) (0) (0) (2 ^ 32),
    .sig (0) (2 ^ 28) (0) (0),
    .sig (0) (0) (2 ^ 16) (0),
    .sig (0) (0) (0) (2 ^ 32),
    .cycleCommit (0) (5),
    .outcomeRecordWrite (512) (0),
    .outcomeRecordWrite (0) (64),
    .structureScrub (some (2 ^ 18)),
    .timingTableWrite (.host 0) (2 ^ 24) (0),
    .pecTransactionDone (0) (2 ^ 64),
    .segmentCopyDone (2 ^ 16) (0),
    .segmentCopyDone (0) (2 ^ 8),
    .moveCopyDone (2 ^ 16) (0),
    .moveCopyDone (0) (2 ^ 8),
    .moveSwitch (2 ^ 16) (0),
    .moveSwitch (0) (2 ^ 8),
    .trgRead (0) (2 ^ 16),
    .tmuEdge (0) (2 ^ 64) (0) (false) (false),
    .tmuEdge (0) (0) (4096) (false) (false),
    .tmuRead (0) (2 ^ 16),
    .codeDensityCalibration (36),
    .codeDensityDone (36) ([]),
    .codeDensityDone (0) (List.replicate (4097) 0),
    .driftQualified (36),
    .dscModeRequest (0) (8) (false),
    .loopSample (0) (2 ^ 14) (0) (0) (false) (false) (false),
    .loopSample (0) (0) (2 ^ 14) (0) (false) (false) (false),
    .loopSample (0) (0) (0) (2 ^ 14) (false) (false) (false),
    .dscMarkerDelivery (0) (2 ^ 16) (0) (0) (0),
    .dscMarkerDelivery (0) (0) (2 ^ 8) (0) (0),
    .dscMarkerDelivery (0) (0) (0) (2 ^ 24) (0),
    .dscMarkerDelivery (0) (0) (0) (0) (17),
    .pccTrip (0) (2 ^ 16),
    .windowHighTrip (0) (2 ^ 16),
    .windowLowTrip (0) (2 ^ 16),
    .ovpTrip (0) (2 ^ 16),
    .cmpSelfCheckDone (0) (16),
    .residualWatchTick (2 ^ 16),
    .schScrub ((some 4096)),
    .coreMemoryAccess (0) (.load) (false) (2 ^ 64) (0) (0),
    .coreMemoryAccess (0) (.load) (false) (0) (9) (0),
    .coreMemoryAccess (0) (.load) (false) (0) (0) (2 ^ 64)] : List Instr).all (fun c => !c.wf) = true := by
  decide +kernel

theorem test_ill_formed_refused_3 : ([
    .sqTailDoorbell (0) (2 ^ 32),
    .cqHeadDoorbell (0) (2 ^ 32),
    .canopyWindowWrite (2 ^ 16) (0) ([]) (false),
    .canopyWindowWrite (0) (canopyBytes) ([]) (false),
    .canopyWindowRead (canopyBytes) (0),
    .sdramWindowWrite (2 ^ 16) (0) ([]) (false),
    .sdramWindowWrite (0) (2 ^ 32 + 1) ([]) (false),
    .sdramWindowRead (2 ^ 32 + 1) (0),
    .registerWrite (.host 0) (2 ^ 24) ([]) (false),
    .registerWrite (.host 0) (0) (List.replicate (3) 0) (false),
    .pairLowRead (.host 0) (2 ^ 24),
    .pairLowWrite (.host 0) (2 ^ 24) (0),
    .frameReceive (0) (2 ^ 61) (0) ([]),
    .frameReceive (0) (0) (0) (List.replicate (71) 0),
    .tokenGrove (0) (List.replicate (45) 0),
    .tokenArmed (0) (List.replicate (45) 0),
    .tokenStart (0) (List.replicate (45) 0),
    .tokenSnapshot (0) (List.replicate (45) 0),
    .tokenEcho (0) (List.replicate (45) 0),
    .tokenIdent (0) (List.replicate (45) 0),
    .tokenDesc (0) (List.replicate (45) 0),
    .msgReceive (0) (List.replicate (45) 0),
    .peerReceive (0) (List.replicate (45) 0),
    .nakReceive (0) (4096),
    .fomWindow (0) (2 ^ 8) ([]),
    .fomWindow (0) (0) (List.replicate (13) 0),
    .linkRetrain (0) (4),
    .timeRequestReceive (0) (List.replicate (45) 0),
    .timeReplyReceive (0) (List.replicate (45) 0),
    .ethFrameReceive (List.replicate (65536) 0) (false) (0),
    .ethFrameReceive ([]) (false) (65536),
    .ethFrameTransmit (65536),
    .dmcTrainingDone (9) (0) ([]),
    .dmcTrainingDone (0) (16) ([]),
    .dmcTrainingDone (0) (0) (List.replicate (5) (0, 0)),
    .sdramRequest (0) (false) (2 ^ 48) ([]) (0) (0),
    .sdramRequest (0) (false) (0) (List.replicate (65) 0) (0) (0),
    .sdramRequest (0) (false) (0) ([]) (2 ^ 64) (0),
    .sdramRequest (0) (false) (0) ([]) (0) (2 ^ 64),
    .rowIdleClose (0) (2) (0),
    .rowIdleClose (0) (0) (16),
    .referenceMonitorWindow (2 ^ 16),
    .oscillatorMonitorWindow (2 ^ 16),
    .vinSample (2 ^ 16) (0),
    .vinSample (0) (2 ^ 16),
    .temperatureUpdate (List.replicate (17) 0),
    .faultOccurrence (96),
    .dualSourceActive (96) (false),
    .dualLineMismatch (96),
    .firebreakStart (6) (0),
    .firebreakStart (0) (256),
    .dscRampOpen (0) (4) (0),
    .dscRampOpen (0) (0) (2 ^ 16),
    .tamperEvent (4),
    .sidebandRead (2 ^ 24) (0),
    .sidebandRead (0) (17),
    .getCertificate (2 ^ 16) (0),
    .getCertificate (0) (2 ^ 16),
    .challenge (List.replicate (33) 0),
    .getMeasurements (2 ^ 8) (false) ([])] : List Instr).all (fun c => !c.wf) = true := by
  decide +kernel

theorem test_ill_formed_refused_4 : ([
    .getMeasurements (0) (false) (List.replicate (33) 0),
    .tapInstruction (9),
    .bootRomStart (2 ^ 12),
    .download (.host 0) (4) (⟨0, none⟩) (0),
    .download (.host 0) (0) (⟨2 ^ 64, none⟩) (0),
    .download (.host 0) (0) (⟨0, none⟩) (2 ^ 32),
    .verify (.host 0) (4),
    .activate (.host 0) (4),
    .abandon (.host 0) (4),
    .burst hd ⟨2 ^ 32, 1, 0, 0, 1, 1, 0⟩,
    .burst hd ⟨1, 2 ^ 16, 0, 0, 1, 1, 0⟩,
    .burst hd ⟨1, 1, 256, 0, 1, 1, 0⟩,
    .burst hd ⟨1, 1, 0, 4, 1, 1, 0⟩,
    .burst hd ⟨1, 1, 0, 0, 2 ^ 16, 1, 0⟩,
    .burst hd ⟨1, 1, 0, 0, 1, 256, 0⟩,
    .burst hd ⟨1, 1, 0, 0, 1, 1, 2 ^ 64⟩,
    .taskCreate hd ⟨2 ^ 16, 0, 0, 0, 0, [], 0⟩,
    .taskCreate hd ⟨1, 256, 0, 0, 0, [], 0⟩,
    .taskCreate hd ⟨1, 0, 256, 0, 0, [], 0⟩,
    .taskCreate hd ⟨1, 0, 0, 2 ^ 32, 0, [], 0⟩,
    .taskCreate hd ⟨1, 0, 0, 0, 2 ^ 64, [], 0⟩,
    .taskCreate hd ⟨1, 0, 0, 0, 0, [0, 0, 0, 0, 0], 0⟩,
    .taskCreate hd ⟨1, 0, 0, 0, 0, [2 ^ 16], 0⟩,
    .taskCreate hd ⟨1, 0, 0, 0, 0, [], 2 ^ 64⟩,
    .cycleStart 0 [⟨128, 0, 0, 0, 0, 0⟩] .none,
    .cycleStart 0 [⟨0, 4, 0, 0, 0, 0⟩] .none,
    .cycleStart 0 [⟨0, 0, 4, 0, 0, 0⟩] .none,
    .cycleStart 0 [⟨0, 0, 0, 4, 0, 0⟩] .none,
    .cycleStart 0 [⟨0, 0, 0, 0, 4, 0⟩] .none,
    .cycleStart 0 [⟨0, 0, 0, 0, 0, 16⟩] .none,
    .calibrationRunEnd [⟨7, 0, [], true, []⟩] [],
    .calibrationRunEnd [⟨0, 128, [], true, []⟩] []] : List Instr).all (fun c => !c.wf) = true := by
  decide +kernel

/-! ## One step, and values the spec writes out -/

/-- The addresses of the worked example of 26_register_map.md. -/
theorem test_worked_addresses : (F.DSC_STATUS_MODE 6).addr = 0x93004 ∧ (F.CAP_SH_ID_ID 1 18).addr = 0x61C80 ∧
    (F.TMG_EDGE_OFFSET 37 5 2).addr = 0x125288 := by decide +kernel

/-- R161: every period is 16384 LSB at reset. -/
theorem test_period_at_reset : State.reset.rd (F.TMG_PERIOD_LO 31 31) = 16384 := by decide +kernel

/-- CRC-32 of the nine digits 1 to 9, the check value of the polynomial that R107 names. -/
theorem test_crc32 : crc32 [0x31, 0x32, 0x33, 0x34, 0x35, 0x36, 0x37, 0x38, 0x39] = 0xCBF43926 := by decide +kernel

/-- The check value of the CRC-16 of R334's header over the same digits. -/
theorem test_crc16 : crc16 [0x31, 0x32, 0x33, 0x34, 0x35, 0x36, 0x37, 0x38, 0x39] = 0x29B1 := by decide +kernel

/-- An empty queue idles: one tick of the raw count (log entry 2). -/
theorem test_idle_ticks : ∃ t, step State.reset = .next t ∧ t.tim.raw = 1 ∧ t.pending = [] := ⟨_, rfl, by decide +kernel⟩

/-- R96: RPT 70 at payload position p moves the position by one and the line number by 70. -/
theorem test_rpt_advances : Answers (.rpt 3 0 false 0 70) (wds [0x46000002] (run3 .running)) fun u =>
    u.threads[3].line = (run3 .running).threads[3].line + 70 ∧ u.threads[3].pos = (run3 .running).threads[3].pos + 1 :=
  ⟨_, rfl, by decide +kernel⟩

/-- R97: LOOP pushes one entry and goes on at the next word. -/
theorem test_loop_pushes : Answers (.loop 3 false 5) (wds [0x8000000005000008] (run3 .running)) fun u =>
    u.threads[3].stack.length = (run3 .running).threads[3].stack.length + 1 ∧ u.rd (F.SEQ_PC_WORD 3) = 11 := ⟨_, rfl, by decide +kernel⟩

/-- R161: the low word of a period alone changes no period. -/
theorem test_period_low_waits : Answers (.tmgPeriodLoWrite (.core 1) 4 5 5000) State.reset fun u =>
    u.rd (F.TMG_PERIOD_LO 4 5) = 16384 := ⟨_, rfl, by decide +kernel⟩

/-- R78: the reserved value 7 of an EXP field is dropped and counted. -/
theorem test_symbol_map_reserved : Answers (.symMapWrite (.core 1) 9 3 2 false 0x1FFFFFF) State.reset fun u =>
    u.rd F.SYM_DROP_CNT_COUNT = 1 ∧ u.word .sym (symLo 9 3 2).addr = State.reset.word .sym (symLo 9 3 2).addr := ⟨_, rfl, by decide +kernel⟩

/-- R133: the substitution of the standard's example, byte 0x53. -/
theorem test_aes_sbox : sbox 0x53 = 0xED := by decide +kernel

/-- R333: what a lane scrambles, the far end descrambles. -/
theorem test_scrambler : (scrBytes descrambleBit 0 (scrBytes scrambleBit 0 [0x51, 0, 0xA7]).1).1 = [0x51, 0, 0xA7] := by decide +kernel

/-! ## Witnesses of the statements about the queue -/

/-- The hypotheses of EveryStepKeepsCanonicalForm and CommandsLeaveTheQueue can be met. -/
theorem witness_queue :
    (∃ s t : State, s.wf = true ∧ s.pending ≠ [] ∧ step s = .next t) ∧ ∃ (c : Instr) (s t : State), exec c s = .next t :=
  ⟨⟨{ State.reset with pending := [.nop hd] }, _, by decide +kernel, by decide +kernel, rfl⟩, ⟨.nop hd, .reset, _, rfl⟩⟩

/-! ## Two facts about the dry-run placement, which the witnesses of StructureLoads need -/

theorem foldl_stays {α β : Type} (f : α → β → α) (a : α) (l : List β) (h : ∀ x, f a x = a) : l.foldl f a = a := by
  induction l with
  | nil => rfl
  | cons x l ih => rw [List.foldl_cons, h, ih]

theorem fill_until (p : Sections) (a b : RegionPlan) (r n : Nat) (hn : n ≤ 2048)
    (hb : (List.range n).foldl (fun a page => if a.need.getD r 0 = 0 then a else a.take p page r) a = b)
    (h : b.need.getD r 0 = 0) : RegionPlan.fill p a r = b := by
  obtain ⟨m, hm⟩ := Nat.exists_eq_add_of_le hn
  rw [RegionPlan.fill, hm, List.range_add, List.foldl_append, hb]
  exact foldl_stays _ _ _ fun x => if_pos h

/-- What the plan of `plan_moves_code` comes to. -/
def movedPlan : RegionPlan := ⟨[(64, 0)], [0, 0, 0, 0, 0]⟩

theorem fills_move_code : (List.range 5).foldl (RegionPlan.fill regionsOut) ⟨[], [1, 0, 0, 0, 0]⟩ = movedPlan := by
  have first : RegionPlan.fill regionsOut ⟨[], [1, 0, 0, 0, 0]⟩ 0 = movedPlan :=
    fill_until _ _ _ 0 65 (by decide) (by decide +kernel) rfl
  have rest (r : Nat) (h : movedPlan.need.getD r 0 = 0) : RegionPlan.fill regionsOut movedPlan r = movedPlan :=
    fill_until _ _ _ r 0 (by decide) rfl h
  rw [show List.range 5 = [0, 1, 2, 3, 4] from rfl, List.foldl_cons, first, List.foldl_cons, rest 1 rfl, List.foldl_cons, rest 2 rfl,
    List.foldl_cons, rest 3 rfl, List.foldl_cons, rest 4 rfl, List.foldl_nil]

/-- The plan of a state whose one code page must leave bank 0 and where nothing else has content: page 64 takes its place. -/
theorem plan_moves_code (s : State) (hc : s.forest.code = [⟨0, 9, 6, false⟩]) (hp : s.contentPages = [(0, 0)]) :
    s.planFor regionsOut = some movedPlan := by
  rw [← fills_move_code]
  unfold State.planFor
  rw [hc, hp, if_neg (by decide +kernel)]
  congr 2
/-- The hypotheses of every clause of EmissionAdvances can be met. -/
theorem witness_EmissionAdvances :
  (∃ (t : Fin 32) (ts : Nat) (csup : Bool) (mark : Nat) (n : Nat) (s : State) (x : Seg), s.readyFor t (.run ts csup mark n) x ∧ 0 < n
    ∧ n < 2 ^ 32 ∧ s.threads[t].pos + n ≤ x.lines) ∧
  (∃ (t : Fin 32) (ts : Nat) (csup : Bool) (mark : Nat) (n : Nat) (s : State) (x : Seg), s.readyFor t (.rpt ts csup mark n) x ∧ 0 < n
    ∧ n < 2 ^ 32 ∧ s.threads[t].pos < x.lines) ∧
  (∃ (t : Fin 32) (s : State), s.decodes t = false) :=
  ⟨⟨3, 2, false, 1, 4, wds [0x4001081] (run3 .running), sg, (by simp only [State.readyFor]; decide +kernel)⟩,
    ⟨3, 0, false, 0, 70, wds [0x46000002] (run3 .granted), sg, (by simp only [State.readyFor]; decide +kernel)⟩,
    ⟨3, .reset, by decide +kernel⟩⟩

/-- The hypotheses of every clause of LoopsAndCallsKeepStack can be met. -/
theorem witness_LoopsAndCallsKeepStack :
  (∃ (t : Fin 32) (dscm : Bool) (count : Nat) (s : State) (x : Seg), s.readyFor t (.loop dscm count) x ∧ 0 < count ∧ count < 2 ^ 32 ∧
    s.threads[t].stack.length < 16) ∧
  (∃ (t : Fin 32) (dscm : Bool) (count : Nat) (s : State) (x : Seg), s.readyFor t (.mloop dscm count) x ∧ 0 < count ∧ count < 2 ^ 32 ∧
    s.threads[t].stack.length < 16) ∧
  (∃ (t : Fin 32) (s : State) (x : Seg) (e : StackEnt) (rest : List StackEnt), s.readyFor t .lend x ∧ s.threads[t].stack = e :: rest ∧
    e.kind = .loop ∧ e.passes < e.count) ∧
  (∃ (t : Fin 32) (s : State) (x : Seg) (e : StackEnt) (rest : List StackEnt), s.readyFor t .lend x ∧ s.threads[t].stack = e :: rest ∧
    e.kind = .loop ∧ e.count ≤ e.passes) ∧
  (∃ (t : Fin 32) (seg : Nat) (gen : Nat) (s : State) (x : Seg) (y : Seg), s.readyFor t (.call seg gen) x ∧ s.curSeg seg = some y ∧
    y.gen = gen ∧ y.tier ≠ .none ∧ s.threads[t].stack.length < 16) ∧
  (∃ (t : Fin 32) (seg : Nat) (gen : Nat) (s : State) (x : Seg) (y : Seg), s.readyFor t (.jseg seg gen) x ∧ s.curSeg seg = some y ∧
    y.gen = gen ∧ y.tier ≠ .none) ∧
  (∃ (t : Fin 32) (s : State) (x : Seg) (e : StackEnt) (rest : List StackEnt), s.readyFor t .ret x ∧ s.threads[t].stack = e :: rest ∧
    e.kind = .call) :=
  ⟨⟨3, false, 2, wds [0x2000008] (run3 .running), sg, (by simp only [State.readyFor]; decide +kernel)⟩,
    ⟨3, true, 4294967295, wds [0x80ffffffff00004a] (run3 .running), sg, (by simp only [State.readyFor]; decide +kernel)⟩,
    ⟨3, wds [0x9] (run3 .running fun k => { k with stack := [ent .loop] }), sg, ent .loop, [],
     (by simp only [State.readyFor]; decide +kernel)⟩,
    ⟨3, wds [0x9] (run3 .running fun k => { k with stack := [{ ent .loop with passes := 3 }] }), sg, { ent .loop with passes := 3 },
     [], (by simp only [State.readyFor]; decide +kernel)⟩,
    ⟨3, 5, 1, wds [0x800000000100050c] (run3 .running), sg, sg, (by simp only [State.readyFor]; decide +kernel)⟩,
    ⟨3, 5, 1, wds [0x100050e] (run3 .running), sg, sg, (by simp only [State.readyFor]; decide +kernel)⟩,
    ⟨3, wds [0x800000000000000d] (run3 .running fun k => { k with stack := [ent .call] }), sg, ent .call, [],
     (by simp only [State.readyFor]; decide +kernel)⟩⟩

/-- The hypotheses of every clause of JumpsAndHalt can be met. -/
theorem witness_JumpsAndHalt :
  (∃ (t : Fin 32) (tword : Nat) (tline : Nat) (s : State) (x : Seg), s.readyFor t (.jmp tword tline) x ∧ tword < x.iwords ∧ tline <
    x.lines) ∧
  (∃ (t : Fin 32) (cond : Nat) (comb : Nat) (tword : Nat) (tline : Nat) (hold : Nat) (s : State) (x : Seg), s.readyFor t (.brc cond
    comb tword tline) x ∧ tword < x.iwords ∧ tline < x.lines ∧ 2 ≤ cond ∧ cond < 4 ∧ comb < 2 ∧ hold = maskOf (((grovesIn
    s.threads[t].live).filter (s.holds t cond)).map (·.1))) ∧
  (∃ (t : Fin 32) (cond : Nat) (comb : Nat) (tword : Nat) (tline : Nat) (s : State) (x : Seg), s.readyFor t (.brc cond comb tword
    tline) x ∧ tword < x.iwords ∧ tline < x.lines ∧ cond < 2 ∧ comb < 3 ∧ s.threads[t].resTo < s.threads[t].sees ∧ s.threadAt t
    [.running] = false) ∧
  (∃ (t : Fin 32) (s : State) (x : Seg), s.readyFor t .clrf x) ∧
  (∃ (t : Fin 32) (endDen : Bool) (s : State) (x : Seg), s.readyFor t (.halt endDen) x ∧ s.threadAt t [.running] = false) :=
  ⟨⟨3, 99, 639, wds [0x8000000000063010, 0x27f] (run3 .running), sg, (by simp only [State.readyFor]; decide +kernel)⟩,
    ⟨3, 2, 1, 99, 0, 0, wds [0x63491, 0x0] (run3 .running), sg, (by simp only [State.readyFor]; decide +kernel)⟩,
    ⟨3, 0, 0, 99, 0, wds [0x63011, 0x0] (run3 .granted fun k => { k with line := 700 }), sg,
     (by simp only [State.readyFor]; decide +kernel)⟩,
    ⟨3, wds [0x12] (run3 .running), sg, (by simp only [State.readyFor]; decide +kernel)⟩,
    ⟨3, false, wds [0x800000000000001f] (run3 .armed), sg, (by simp only [State.readyFor]; decide +kernel)⟩⟩

/-- The hypotheses of every clause of DecisionsWaitForResults can be met. -/
theorem witness_DecisionsWaitForResults :
  (∃ (t : Fin 32) (comb : Nat) (s : State) (x : Seg) (e : StackEnt) (rest : List StackEnt), s.readyFor t (.mend comb) x ∧ comb < 2 ∧
    s.threads[t].stack = e :: rest ∧ e.kind = .mloop ∧ s.threads[t].resTo < s.threads[t].sees ∧ s.threadAt t [.running] = false) ∧
  (∃ (t : Fin 32) (n : Nat) (cond : Nat) (comb : Nat) (tword : Nat) (tline : Nat) (hold : Nat) (s : State), s.threads[t].pend = some
    (n, .brc cond comb tword tline) ∧ s.threads[t].sees ≤ s.threads[t].resTo ∧ s.peersTold t = true ∧ comb < 2 ∧ hold = maskOf
    (((grovesIn s.threads[t].live).filter (s.holds t cond)).map (·.1))) ∧
  (∃ (t : Fin 32) (n : Nat) (comb : Nat) (s : State) (e : StackEnt) (rest : List StackEnt), s.threads[t].pend = some (n, .mend comb) ∧
    s.threads[t].sees ≤ s.threads[t].resTo ∧ s.peersTold t = true ∧ s.threads[t].stack = e :: rest ∧ e.count ≤ e.passes) ∧
  (∃ (t : Fin 32) (n : Nat) (s : State) (e : StackEnt) (rest : List StackEnt), s.threads[t].pend = some (n, .mend 0) ∧
    s.threads[t].sees ≤ s.threads[t].resTo ∧ s.peersTold t = true ∧ s.threads[t].stack = e :: rest ∧ e.passes < e.count ∧
    s.threads[t].passes = [] ∧ e.matched &&& s.threads[t].live ≠ s.threads[t].live) ∧
  (∃ (t : Fin 32) (s : State), (s.threads[t].pend = none ∨ s.threads[t].resTo < s.threads[t].sees)) :=
  ⟨⟨3, 0,
     wds [0x800000000000000b] (run3 .granted fun k => { k with line := 700, stack := [ent .mloop], passes := [⟨1, 3, none, 0, 0, false⟩] }),
     sg, ent .mloop, [], (by simp only [State.readyFor]; decide +kernel)⟩,
    ⟨3, 1, 0, 0, 3, 5, 0, run3 .running fun k => { k with pend := some (1, .brc 0 0 3 5) }, by decide +kernel⟩,
    ⟨3, 1, 0, run3 .running fun k => { k with pend := some (1, .mend 0), stack := [{ ent .mloop with passes := 3 }] },
     { ent .mloop with passes := 3 }, [], by decide +kernel⟩,
    ⟨3, 1, run3 .running fun k => { k with pend := some (1, .mend 0), stack := [ent .mloop] }, ent .mloop, [], by decide +kernel⟩,
    ⟨3, .reset, by decide +kernel⟩⟩

/-- The hypotheses of every clause of Signatures can be met. -/
theorem witness_Signatures :
  (∃ (t : Fin 32) (start : Nat) (count : Nat) (crc : Nat) (s : State) (x : Seg), s.readyFor t (.sig start count crc) x ∧ 0 < count ∧
    x.tier ≠ .host ∧ start + count ≤ x.grans) ∧
  (∃ (t : Fin 32) (s : State) (c : SigCheck) (rest : List SigCheck) (x : Seg), s.threads[t].sigs = c :: rest ∧ s.segAt c.seg c.gen =
    some x ∧ crc32 ((List.range c.count).flatMap fun i => s.storedGran x (c.start + i)) = c.crc) ∧
  (∃ (t : Fin 32) (s : State) (c : SigCheck) (rest : List SigCheck) (x : Seg), s.threads[t].sigs = c :: rest ∧ s.segAt c.seg c.gen =
    some x ∧ crc32 ((List.range c.count).flatMap fun i => s.storedGran x (c.start + i)) ≠ c.crc ∧ s.classOf 14 < 2) :=
  ⟨⟨3, 0, 3, 0, wds [0xc00000018, 0x0] (run3 .running), sg, (by simp only [State.readyFor]; decide +kernel)⟩,
    ⟨3, run3 .running fun k => { k with sigs := [⟨5, 1, 0, 1, crc32 (List.replicate 32 0)⟩] },
     ⟨5, 1, 0, 1, crc32 (List.replicate 32 0)⟩, [], sg, by decide +kernel⟩,
    ⟨3, run3 .running fun k => { k with sigs := [⟨5, 1, 0, 1, 6⟩] }, ⟨5, 1, 0, 1, 6⟩, [], sg, by decide +kernel⟩⟩

/-- The hypotheses of every clause of InstructionErrors can be met. -/
theorem witness_InstructionErrors :
  (∃ (t : Fin 32) (c : Nat) (s : State) (x : Seg), s.decodes t = true ∧ s.threadSeg t = some x ∧ s.placeError t x = some c ∧
    s.threadAt t [.running] = false ∧ s.classOf (if c = 1 then 13 else 12) < 2) ∧
  (∃ (t : Fin 32) (s : State), (s.decodes t = false ∨ (s.threadSeg t).bind (s.placeError t) = none)) ∧
  (∃ (t : Fin 32) (s : State) (w : AnnWait) (rest : List (Nat × Nat)), s.threads[t].annWait = some w ∧ s.streams[t].anns = (w.seg,
    w.gen) :: rest) ∧
  (∃ (t : Fin 32) (s : State) (w : AnnWait) (a : Nat × Nat) (rest : List (Nat × Nat)), s.threads[t].annWait = some w ∧
    s.streams[t].anns = a :: rest ∧ a ≠ (w.seg, w.gen) ∧ s.threadAt t [.running] = false ∧ s.classOf 12 < 2) :=
  ⟨⟨3, 2, run3 .granted, sg, by decide +kernel⟩,
    ⟨3, .reset, by decide +kernel⟩,
    ⟨3,
     { run3 .running (fun k => { k with annWait := some ⟨5, 1, 5, 1, 0⟩ }) with streams := upd State.reset.streams 3 fun k => { k with anns := [(5, 1)] } },
     ⟨5, 1, 5, 1, 0⟩, [], by decide +kernel⟩,
    ⟨3,
     { run3 .granted (fun k => { k with annWait := some ⟨5, 1, 5, 1, 0⟩ }) with streams := upd State.reset.streams 3 fun k => { k with anns := [(5, 2)] } },
     ⟨5, 1, 5, 1, 0⟩, (5, 2), [], by decide +kernel⟩⟩

/-- The hypotheses of every clause of GranuleFetching can be met. -/
theorem witness_GranuleFetching :
  (∃ (t : Fin 32) (seg : Nat) (gen : Nat) (gran : Nat) (visit : Nat) (s : State) (x : Seg) (w : Want), s.nextWant t = some w ∧ w.key =
    (seg, gen, gran, visit) ∧ s.segAt seg gen = some x ∧ s.threads[t].members ≠ 0 ∧ s.threadAt t [.granted, .armed, .running] = true ∧
    gran < x.grans ∧ (x.tier = .canopy ∨ x.tier = .sdram)) ∧
  (∃ (t : Fin 32) (seg : Nat) (gen : Nat) (gran : Nat) (visit : Nat) (s : State) (x : Seg) (w : Want), s.nextWant t = some w ∧ w.key =
    (seg, gen, gran, visit) ∧ s.segAt seg gen = some x ∧ s.threads[t].members ≠ 0 ∧ s.threadAt t [.granted, .armed, .running] = true ∧
    gran < x.grans ∧ x.tier = .host ∧ visit + gran < s.streams[t].put ∧ s.on (F.HQ_STRM_CFG_MIRROR_EN t) = false) ∧
  (∃ (t : Fin 32) (seg : Nat) (gen : Nat) (gran : Nat) (s : State), ((s.nextWant t = none ∨ ∃ w, s.nextWant t = some w ∧ ((w.key.1,
    w.key.2.1, w.key.2.2.1) ≠ (seg, gen, gran) ∨ ((s.segAt seg gen).any fun x => x.tier == .host) = true ∧ s.streams[t].put ≤
    w.key.2.2.2 + gran)))) ∧
  (∃ (t : Fin 32) (s : State) (g : Gran) (rest : List Gran), s.threads[t].requests = g :: rest) ∧
  (∃ (t : Fin 32) (s : State), s.threads[t].requests = []) :=
  ⟨⟨3, 5, 1, 0, 0, run3 .running, sg, ⟨(5, 1, 0, 0), false⟩, by decide +kernel⟩,
    ⟨3, 5, 1, 0, 0,
     { run3 .running with forest := { State.reset.forest with segs := [{ sg with tier := .host }] }, streams := upd State.reset.streams 3 fun k => { k with put := 2, ring := some ⟨false, 500, 512⟩ } },
     { sg with tier := .host }, ⟨(5, 1, 0, 0), false⟩, by decide +kernel⟩,
    ⟨3, 5, 1, 9, run3 .running, by decide +kernel⟩,
    ⟨3,
     run3 .running fun k => { k with requests := [⟨5, 1, 0, List.replicate 32 7, 0, false, false⟩], todo := [⟨false, 0, true, 0, false, false, [], 3, 5, 1, 0, 0, false, true, 0⟩] },
     ⟨5, 1, 0, List.replicate 32 7, 0, false, false⟩, [], by decide +kernel⟩,
    ⟨3, .reset, by decide +kernel⟩⟩

/-- The hypotheses of every clause of PushingLosesNoLine can be met. -/
theorem witness_PushingLosesNoLine :
  ∃ (t : Fin 32) (s : State), (∀ e ∈ s.threads[t].todo, 0 < e.left) ∧ s.threads[t].fifo.length ≤ 2048 :=
    ⟨3,
     run3 .running fun k => { k with grans := [⟨5, 1, 0, List.replicate 32 7, 0, false, false⟩], todo := [⟨false, 0, true, 0, false, false, [], 3, 5, 1, 0, 0, false, true, 0⟩] },
     by decide +kernel⟩

/-- The hypotheses of every clause of BurstCommands can be met. -/
theorem witness_BurstCommands :
  (∃ (h : Hdr) (o : BurstOps) (s : State), s.canBegin h 0x01 ∧ s.burstOperandsOk o = true ∧ s.reloading = false) ∧
  (∃ (h : Hdr) (o : BurstOps) (s : State), s.canBegin h 0x01 ∧ s.burstOperandsOk o = false) ∧
  (∃ (h : Hdr) (o : BurstOps) (s : State), s.canBegin h 0x01 ∧ s.burstOperandsOk o = true ∧ s.reloading = true) ∧
  (∃ (h : Hdr) (s : State), (s.waitingCmd h 0x01).isSome = true ∧ s.clearing = true) ∧
  (∃ (h : Hdr) (s : State), s.canBegin h 0x00) ∧
  (∃ (h : Hdr) (tag : Nat) (epoch : Nat) (b : Burst) (s : State), s.canBegin h 0x02 ∧ s.burstBy tag epoch = some b ∧ b.stage =
    .running ∧ ((grovesIn b.ops.groves).all fun g => s.groves[g].ended.isSome) = false) ∧
  (∃ (h : Hdr) (tag : Nat) (epoch : Nat) (b : Burst) (s : State), s.canBegin h 0x03 ∧ s.burstBy tag epoch = some b ∧ b.stage =
    .running ∧ ((grovesIn b.ops.groves).all fun g => s.groves[g].ended.isSome) = false) ∧
  (∃ (h : Hdr) (tag : Nat) (epoch : Nat) (s : State), s.canBegin h 0x03 ∧ s.burstBy tag epoch = none) ∧
  (∃ (h : Hdr) (tag : Nat) (epoch : Nat) (b : Burst) (s : State), s.canBegin h 0x02 ∧ s.burstBy tag epoch = some b ∧ b.stage = .ended) :=
  ⟨⟨hd, ⟨1, 100, 0, 0, 5, 1, 0⟩, cmd 0x01 ({ run3 .ended with bursts := [] }), (by simp only [State.canBegin]; decide +kernel)⟩,
    ⟨hd, ⟨0, 100, 0, 0, 5, 1, 0⟩, cmd 0x01 (run3 .running), (by simp only [State.canBegin]; decide +kernel)⟩,
    ⟨hd, ⟨1, 100, 0, 0, 5, 1, 0⟩, set [(F.STR_STATUS_STATE, 3)] (cmd 0x01 (run3 .running)),
     (by simp only [State.canBegin]; decide +kernel)⟩,
    ⟨hd, set [(F.FLT_STATUS_STATE, 3)] (cmd 0x01 (run3 .running)), by decide +kernel⟩,
    ⟨hd, cmd 0x00 .reset, (by simp only [State.canBegin]; decide +kernel)⟩,
    ⟨hd, 7, 1, bu .running, cmd 0x02 (run3 .running fun k => { k with cycles := 70 }), (by simp only [State.canBegin]; decide +kernel)⟩,
    ⟨hd, 7, 1, bu .running, cmd 0x03 (run3 .running fun k => { k with cycles := 128 }), (by simp only [State.canBegin]; decide +kernel)⟩,
    ⟨hd, 7, 1, cmd 0x03 .reset, (by simp only [State.canBegin]; decide +kernel)⟩,
    ⟨hd, 7, 1, bu .ended, cmd 0x02 (run3 .ended), (by simp only [State.canBegin]; decide +kernel)⟩⟩

/-- The hypotheses of every clause of BurstLifecycle can be met. -/
theorem witness_BurstLifecycle :
  (∃ (b : Burst) (s : State), (s.bursts.find? fun b => b.stage == .declared && !s.heldByCal b && !s.fenced b.hdr && !s.loadBefore b) =
    some b ∧ s.clearing = false ∧ s.str.badWords = [] ∧ s.refusal b = none) ∧
  (∃ (b : Burst) (s : State) (code : Nat) (detail : Nat), (s.bursts.find? fun b => b.stage == .declared && !s.heldByCal b && !s.fenced
    b.hdr && !s.loadBefore b) = some b ∧ s.clearing = false ∧ s.str.badWords = [] ∧ s.refusal b = some (code, detail, false)) ∧
  (∃ (s : State), s.clearing = true ∧ s.str.badWords = []) ∧
  (∃ (tag : Nat) (epoch : Nat) (b : Burst) (s : State), s.burstBy tag epoch = some b ∧ b.stage = .granted ∧ s.filled b = true ∧
    s.echoesMade b = true) ∧
  (∃ (tag : Nat) (epoch : Nat) (slot : Nat) (b : Burst) (s : State), s.burstBy tag epoch = some b ∧ b.stage = .armed ∧ b.startSlot =
    some slot ∧ slot ≤ s.slotNow ∧ ((∀ t ∈ s.threadsOf b, s.threads[t].pipe ≠ [] ∧ s.threads[t].detaching = []))) ∧
  (∃ (tag : Nat) (epoch : Nat) (b : Burst) (s : State), s.burstBy tag epoch = some b ∧ s.outcomeReady b = true) :=
  ⟨⟨bu .declared, set [(F.CAL_STATUS_START_DONE, 1), (F.STR_REGION_MAX_PAGES 3, 9)] (run3 .declared), by decide +kernel⟩,
    ⟨{ bu .declared with reach := [(6, 1)] },
     { set [(F.CAL_STATUS_START_DONE, 1)] (run3 .declared) with bursts := [{ bu .declared with reach := [(6, 1)] }] }, 2, 65542,
     by decide +kernel⟩,
    ⟨set [(F.FLT_STATUS_STATE, 1)] .reset, by decide +kernel⟩,
    ⟨7, 1, bu .granted, run3 .granted fun k => { k with endAfter := some ⟨0, .halt, false⟩ }, by decide +kernel⟩,
    ⟨7, 1, 0, { bu .armed with startSlot := some 0 },
     { run3 .armed (fun k => { k with pipe := [⟨0, some li, 1, 0⟩] }) with bursts := [{ bu .armed with startSlot := some 0 }] },
     by decide +kernel⟩,
    ⟨7, 1, bu .ended, (run3 .ended).modGrove 0 fun g => { g with drained := true, ended := some .halt }, by decide +kernel⟩⟩

/-- The hypotheses of every clause of RateGrant can be met. -/
theorem witness_RateGrant :
  (∃ (b : Burst) (n : Nat) (s : State), s.wantsRaise = some b ∧ s.pointFor (s.reserved + b.ops.demand) = some n ∧ s.rd
    F.FAB_STATUS_SEQ_STATE = 0) ∧
  (∃ (s : State), s.rd F.FAB_STATUS_SEQ_STATE = 1) ∧
  (∃ (s : State), s.rd F.FAB_STATUS_SEQ_STATE = 3) ∧
  (∃ (s : State), s.rd F.FAB_STATUS_SEQ_STATE = 2 ∧ s.fab.confirming = false) ∧
  (∃ (counts : List Nat) (s : State), counts.length = 8 ∧ s.rd F.FAB_STATUS_SEQ_STATE = 1) ∧
  (∃ (counts : List Nat) (s : State), counts.length = 8 ∧ s.rd F.FAB_STATUS_SEQ_STATE = 2 ∧ s.fab.confirming = true ∧ s.fab.confWins <
    3) ∧
  (∃ (counts : List Nat) (s : State), counts.length = 8 ∧ s.rd F.FAB_STATUS_SEQ_STATE = 0 ∧ s.on F.FAB_CTRL_AVC_EN = true ∧
    s.fab.retPoint = none ∧ s.fab.lowWins < 7 ∧ s.meets ((counts.take 8).foldl min (counts.headD 0)) s.refPoint = false ∧ s.rd
    F.FAB_VFAB_SET_MV + 5 ≤ min 900 (s.oppMv s.refPoint + 50)) ∧
  (∃ (n : Nat) (s : State), s.pointFor s.reserved = some n ∧ s.rd F.FAB_STATUS_SEQ_STATE = 0 ∧ n < s.rd F.FAB_STATUS_OPP ∧ s.voltOf n
    ≠ s.rd F.FAB_VFAB_SET_MV) :=
  ⟨⟨{ bu .admitted with ops := ⟨1, 300, 0, 0, 5, 1, 0⟩ }, 1,
     { run3 .admitted with bursts := [{ bu .admitted with ops := ⟨1, 300, 0, 0, 5, 1, 0⟩ }] }, by decide +kernel⟩,
    ⟨rs [(F.FAB_STATUS_SEQ_STATE, 1)], by decide +kernel⟩,
    ⟨rs [(F.FAB_STATUS_SEQ_STATE, 3), (F.FAB_STATUS_OPP, 2), (F.FAB_STATUS_OPP_TARGET, 1)], by decide +kernel⟩,
    ⟨rs [(F.FAB_STATUS_SEQ_STATE, 2)], by decide +kernel⟩,
    ⟨[1, 2, 3, 4, 5, 6, 7, 8], rs [(F.FAB_STATUS_SEQ_STATE, 1)], by decide +kernel⟩,
    ⟨[1, 2, 3, 4, 5, 6, 7, 8], { rs [(F.FAB_STATUS_SEQ_STATE, 2)] with fab := { confirming := true } }, by decide +kernel⟩,
    ⟨[1, 2, 3, 4, 5, 6, 7, 8], rs [(F.FAB_CTRL_AVC_EN, 1), (F.FAB_VFAB_SET_MV, 555)], by decide +kernel⟩,
    ⟨0, rs [(F.FAB_STATUS_OPP, 2), (F.FAB_VFAB_SET_MV, 650)], by decide +kernel⟩⟩

/-- The hypotheses of every clause of CommitsAndVoids can be met. -/
theorem witness_CommitsAndVoids :
  (∃ (t : Fin 32) (cause : Nat) (l : Line) (rest : List Line) (s : State), s.threads[t].members ≠ 0 ∧ s.threadAt t [.running] = true ∧
    s.threads[t].closed = false ∧ s.threads[t].pipe.length < s.commitDepth t ∧ s.peersHold t = true ∧ cause ≠ 4 ∧ s.threads[t].voidEp
    = none ∧ s.threads[t].fifo = l :: rest) ∧
  (∃ (t : Fin 32) (ep : VoidEp) (s : State), s.threads[t].members ≠ 0 ∧ s.threadAt t [.running] = true ∧ s.threads[t].closed = false ∧
    s.threads[t].pipe.length < s.commitDepth t ∧ s.threads[t].voidEp = some ep ∧ s.threads[t].fifo = []) ∧
  (∃ (t : Fin 32) (s : State), s.threads[t].members ≠ 0 ∧ s.threadAt t [.running] = true ∧ s.threads[t].closed = false ∧
    s.threads[t].pipe.length < s.commitDepth t ∧ s.threads[t].voidEp = none ∧ s.threads[t].fifo = []) ∧
  (∃ (t : Fin 32) (ep : VoidEp) (s : State), s.voidSpent t = true ∧ s.threads[t].voidEp = some ep) :=
  ⟨⟨3, 0, li, [], run3 .running fun k => { k with fifo := [li] }, by decide +kernel⟩,
    ⟨3, ⟨0, 1, 1, none, false⟩, run3 .running fun k => { k with cycles := 3, voidEp := some ⟨0, 1, 1, none, false⟩ }, by decide +kernel⟩,
    ⟨3, run3 .running, by decide +kernel⟩,
    ⟨3, ⟨0, 1, 1, none, false⟩,
     (run3 .running fun k => { k with cycles := 3, voids := 2, voidEp := some ⟨0, 1, 1, none, false⟩ }).modGrove 0 fun g => { g with voidLimit := 2 },
     by decide +kernel⟩⟩

/-- The hypotheses of every clause of CyclesAtThePins can be met. -/
theorem witness_CyclesAtThePins :
  (∃ (t : Fin 32) (c : Cycle) (rest : List Cycle) (s : State), s.threads[t].pipe = c :: rest ∧ s.threadAt t [.running] = true ∧
    s.classOf 11 < 2) ∧
  (∃ (t : Fin 32) (c : Cycle) (rest : List Cycle) (s : State), s.threads[t].pipe = c :: rest ∧ s.threadAt t [.running] = true ∧ c.line
    = none ∧ s.threads[t].detaching = []) ∧
  (∃ (t : Fin 32) (c : Started) (rest : List Started) (s : State), s.threads[t].started = c :: rest ∧ s.threads[t].detaching = [] ∧
    (rest ≠ [] ∨ s.threads[t].pipe ≠ [])) ∧
  (∃ (t : Fin 32) (c : Started) (rest : List Started) (s : State), s.threads[t].started = c :: rest ∧ s.threads[t].detaching = [] ∧
    (rest ≠ [] ∨ s.threads[t].pipe ≠ []) ∧ c.cyc.line = none ∧ s.snaps = []) ∧
  (∃ (t : Fin 32) (b : Nat) (s : State), s.threads[t].bound = some (b, false) ∧ b ≤ s.threads[t].cycles ∧ s.threads[t].drained = true
    ∧ s.threadAt t [.running] = true ∧ s.threads[t].members ≠ 0 ∧ s.sec.zero = []) ∧
  (∃ (t : Fin 32) (b : Nat) (s : State), s.threads[t].bound = some (b, true) ∧ b ≤ s.threads[t].cycles ∧ s.threads[t].drained = true ∧
    s.threadAt t [.running] = true ∧ s.threads[t].members ≠ 0 ∧ s.sec.zero = []) :=
  ⟨⟨3, ⟨2, some li, 1, 0⟩, [], run3 .running fun k => { k with pipe := [⟨2, some li, 1, 0⟩] }, by decide +kernel⟩,
    ⟨3, ⟨2, none, 1, 0⟩, [], run3 .running fun k => { k with pipe := [⟨2, none, 1, 0⟩] }, by decide +kernel⟩,
    ⟨3, stc, [], run3 .running fun k => { k with started := [stc], pipe := [⟨2, some li, 1, 0⟩] }, by decide +kernel⟩,
    ⟨3, stc, [], run3 .running fun k => { k with started := [stc], pipe := [⟨2, some li, 1, 0⟩] }, by decide +kernel⟩,
    ⟨3, 64, run3 .running fun k => { k with bound := some (64, false), cycles := 64 }, by decide +kernel⟩,
    ⟨3, 64, run3 .running fun k => { k with bound := some (64, true), cycles := 64 }, by decide +kernel⟩⟩

/-- The hypotheses of every clause of CaptureAndSnapshots can be met. -/
theorem witness_CaptureAndSnapshots :
  (∃ (g : Fin 32) (r : EndReason) (s : State), s.groves[g].capOpen = true ∧ s.groves[g].ended = some r ∧ r ≠ .firebreak ∧ s.flt.frozen
    = false) ∧
  (∃ (req : Req) (i : Fin 4) (w : Word) (s : State), s.mayWrite req (F.CAP_CHMASK_MASK i).addr w = true ∧ s.busyChans i = 0) ∧
  (∃ (req : Req) (i : Fin 4) (w : Word) (s : State), s.mayWrite req (F.CAP_CHMASK_MASK i).addr w = true) ∧
  (∃ (h : Hdr) (time : Bool) (linked : Bool) (grove : Nat) (id : Nat) (point : Nat) (s : State), s.canBegin h 0x20 ∧ grove < 32 ∧ id <
    2 ^ 16 ∧ s.snapRefusal time (fin 32 grove) id = 0 ∧ linked = false ∧ s.snapLate time (fin 32 grove) point = false ∧ (time = true ∨
    s.groves[fin 32 grove].ended = none)) ∧
  (∃ (h : Hdr) (time : Bool) (grove : Nat) (id : Nat) (s : State), s.canBegin h 0x20 ∧ grove < 32 ∧ id < 2 ^ 16 ∧ s.snapRefusal time
    (fin 32 grove) id ≠ 0) ∧
  (∃ (req : Req) (w : Word) (s : State), s.mayWrite req F.CAP_SNAP_CMD_KIND.addr w = true ∧ w.getLsbD 0 = true ∧ s.snapRefusal
    (w.getLsbD 1) (fin 32 (fieldOf w.toNat 8 5)) (fieldOf w.toNat 16 16) = 0 ∧ w.getLsbD 2 = false ∧ s.snapLate (w.getLsbD 1) (fin 32
    (fieldOf w.toNat 8 5)) (s.rdP F.CAP_SNAP_POINT_LO_POINT) = false ∧ (w.getLsbD 1 = true ∨ s.groves[fin 32 (fieldOf w.toNat 8
    5)].ended = none)) ∧
  (∃ (p : Snap) (h : Hdr) (s : State), s.snapDue = some p ∧ (∀ g, s.owed g p.point = none) ∧ p.cmd = some h) :=
  ⟨⟨0, .halt, (run3 .ended).modGrove 0 fun g => { g with capOpen := true, ended := some .halt, bufs := [⟨false, 600, 65536⟩] },
     by decide +kernel⟩,
    ⟨.host 9, 1, 0xF0, oper .reset, by decide +kernel⟩,
    ⟨.host 9, 0, 0xF1, oper (run3 .running), by decide +kernel⟩,
    ⟨hd, false, false, 0, 9, 5, cmd 0x20 (run3 .running), (by simp only [State.canBegin]; decide +kernel)⟩,
    ⟨hd, true, 0, 9, { cmd 0x20 (run3 .running) with snaps := [⟨true, false, 0, 9, 0, none, none⟩] },
     (by simp only [State.canBegin]; decide +kernel)⟩,
    ⟨.host 9, 0x00090003, set [(F.CAP_SNAP_POINT_LO_POINT, 5)] (oper (run3 .running)), by decide +kernel⟩,
    ⟨⟨true, false, 0, 9, 0, some hd, none⟩, hd, { run3 .ended with bursts := [], snaps := [⟨true, false, 0, 9, 0, some hd, none⟩] },
     by decide +kernel⟩⟩

/-- The hypotheses of every clause of SegmentLife can be met. -/
theorem witness_SegmentLife :
  (∃ (h : Hdr) (desc : Src) (l : List Byte) (ri : Option (List Byte)) (rp : Option (List Byte)) (rr : Option (List Byte)) (d :
    SegDesc) (instr : List Byte) (refs : List Byte) (payload : List Byte) (s : State), s.canBegin h 0x11 ∧ s.sourceOk desc 64 = true ∧
    s.source desc 64 = some l ∧ d = segDescOf l ri rp rr ∧ s.segDescOk d = true ∧ s.keyRefusal d.keySlot = none ∧ s.source d.instr (8
    * d.iwords) = some instr ∧ s.source d.refAddr (4 * d.nref) = some refs ∧ (if d.hostHeld then some [] else s.source d.payload
    ((d.lines + 63) / 64 * d.granBytes)) = some payload ∧ (refEntries refs d.nref).2 = false ∧ s.segRefusal d instr refs = none ∧
    (s.placeLoad (s.newSeg h d instr payload refs) d.hostHeld payload.length instr.length).isSome = true) ∧
  (∃ (h : Hdr) (desc : Src) (l : List Byte) (ri : Option (List Byte)) (rp : Option (List Byte)) (rr : Option (List Byte)) (s : State),
    s.canBegin h 0x11 ∧ s.sourceOk desc 64 = true ∧ s.source desc 64 = some l ∧ s.segDescOk (segDescOf l ri rp rr) = false) ∧
  (∃ (h : Hdr) (desc : Src) (s : State), s.canBegin h 0x11 ∧ s.sourceOk desc 64 = false) ∧
  (∃ (seg : Nat) (gen : Nat) (h : Hdr) (x : Seg) (s : State), s.loadOf seg gen = some x ∧ x.loading = some h ∧ x.waits = false ∧
    s.occupied x.id x.gen true x.tier (runPages x.pages) = false ∧ s.streamBusy x.id x.gen true x.ipages x.ioff (8 * x.iwords) = false
    ∧ s.mustWait x = false ∧ s.curSeg seg = none ∧ s.on F.FOR_CTRL_PROMOTE_EN = false) ∧
  (∃ (seg : Nat) (gen : Nat) (s : State), s.loadOf seg gen = none ∧ s.segAt seg gen = none) ∧
  (∃ (h : Hdr) (seg : Nat) (gen : Nat) (x : Seg) (s : State), s.canBegin h 0x12 ∧ s.curSeg seg = some x ∧ x.gen = gen ∧ s.segHeld seg
    gen = false) ∧
  (∃ (h : Hdr) (seg : Nat) (s : State), s.canBegin h 0x12 ∧ s.curSeg seg = none) ∧
  (∃ (seg : Nat) (gen : Nat) (x : Seg) (m : Move) (s : State), s.segAt seg gen = some x ∧ (s.forest.started.find? fun m => m.seg ==
    seg && m.gen == gen) = some m ∧ m.copied = false ∧ s.occupied seg gen false m.tier (runPages m.pages) = false ∧ (m.keepsStream x =
    true ∨ s.streamBusy seg gen false m.ipages m.ioff (8 * x.iwords) = false)) ∧
  (∃ (seg : Nat) (gen : Nat) (x : Seg) (m : Move) (s : State), s.segAt seg gen = some x ∧ (s.forest.started.find? fun m => m.seg ==
    seg && m.gen == gen) = some m ∧ m.copied = true ∧ s.segUsed seg gen = false) ∧
  (∃ (seg : Nat) (gen : Nat) (x : Seg) (m : Move) (s : State), s.segAt seg gen = some x ∧ s.forest.evacs = [] ∧
    (s.forest.started.find? fun m => m.seg == seg && m.gen == gen) = some m ∧ m.copied = true ∧ s.segUsed seg gen = false) :=
  ⟨⟨hd, dsSrc, dsB, some haltB, some granB, some [], ds, haltB, [], granB, room (cmd 0x11 (run3 .running)),
     (by simp only [State.canBegin]; decide +kernel)⟩,
    ⟨hd, ⟨0x1000, some (dsB.set 63 1)⟩, dsB.set 63 1, some haltB, some granB, some [], cmd 0x11 (run3 .running),
     (by simp only [State.canBegin]; decide +kernel)⟩,
    ⟨hd, ⟨0x1004, none⟩, cmd 0x11 (run3 .running), (by simp only [State.canBegin]; decide +kernel)⟩,
    ⟨6, 2, hd, ld, set [(F.FOR_CTRL_PROMOTE_EN, 0)] (withSegs [sg, ld] (run3 .running)), by decide +kernel⟩,
    ⟨9, 2, run3 .running, by decide +kernel⟩,
    ⟨hd, 5, 1, sg, cmd 0x12 { run3 .ended with bursts := [] }, (by simp only [State.canBegin]; decide +kernel)⟩,
    ⟨hd, 9, cmd 0x12 (run3 .running), (by simp only [State.canBegin]; decide +kernel)⟩,
    ⟨5, 1, sg, mv false, withMoves [mv false] (run3 .running), by decide +kernel⟩,
    ⟨5, 1, sg, mv true, (withMoves [mv true] (run3 .running)).modThread 3 fun _ => {}, by decide +kernel⟩,
    ⟨5, 1, sg, mv true, (withMoves [mv true] (run3 .running)).modThread 3 fun _ => {}, by decide +kernel⟩⟩

/-- The hypotheses of every clause of EvacuationAndParking can be met. -/
theorem witness_EvacuationAndParking :
  (∃ (h : Hdr) (bank : Nat) (s : State), s.canBegin h 0x14 ∧ bank < 32) ∧
  (∃ (h : Hdr) (bank : Nat) (s : State), s.canBegin h 0x14 ∧ 32 ≤ bank) ∧
  (∃ (c : Fin 8) (s : State), s.on (F.FOR_PARK_PARKED c) = false) ∧
  (∃ (c : Fin 8) (s : State), s.on (F.FOR_PARK_PARKED c) = true) ∧
  (∃ (m : CodeMove) (rest : List CodeMove) (s : State), s.forest.codeMoves = m :: rest ∧ s.runsFrom m.page = false ∧ m.dest ≠ m.page ∧
    Mem.wf s.canopy = true) :=
  ⟨⟨hd, 6, cmd 0x14 (run3 .running), (by simp only [State.canBegin]; decide +kernel)⟩,
    ⟨hd, 32, cmd 0x14 (run3 .running), (by simp only [State.canBegin]; decide +kernel)⟩,
    ⟨2, rs [(F.FOR_PARK_PARKS 2, 65535)], by decide +kernel⟩,
    ⟨2, rs [(F.FOR_PARK_PARKED 2, 1)], by decide +kernel⟩,
    ⟨⟨3, 5, none⟩, [],
     set [(F.FOR_PARK_PARKED 0, 1)] { State.reset with canopy := [(0x30001, 9)], forest := { State.reset.forest with codeMoves := [⟨3, 5, none⟩], code := [⟨3, 7, 1, false⟩] } },
     by decide +kernel⟩⟩

/-- The hypotheses of every clause of ForesterServices can be met. -/
theorem witness_ForesterServices :
  (∃ (h : Hdr) (pages : Nat) (p : Nat) (s : State), s.canBegin h 0x15 ∧ 0 < pages ∧ pages ≤ 64 ∧ s.scratchRun pages = some p) ∧
  (∃ (h : Hdr) (claim : Nat) (c : Nat × Nat × Nat) (s : State), s.canBegin h 0x15 ∧ (s.forest.claims.find? fun c => c.1 == claim) =
    some c) ∧
  (∃ (h : Hdr) (g : Fin 32) (a : Place) (b : Place) (rest : List Place) (s : State), s.canBegin h 0x16 ∧ s.groves[g].bufs = a :: b ::
    rest) ∧
  (∃ (h : Hdr) (dest : Nat) (maxLen : Nat) (s : State), s.canBegin h 0x17 ∧ dest % 64 = 0 ∧ 64 ≤ maxLen) ∧
  (∃ (req : Req) (w : Word) (s : State), s.mayWrite req F.FOR_QUERY_SEG.addr w = true) ∧
  (∃ (req : Req) (w : Word) (s : State), s.mayWrite req F.FOR_SDRAM_SPLIT_GIB.addr w = true ∧ (s.usedSdram.any fun p => decide
    (fieldOf w.toNat 0 6 * 1024 ≤ p)) = false) ∧
  (∃ (req : Req) (w : Word) (s : State), s.mayWrite req F.FOR_SDRAM_SPLIT_GIB.addr w = true ∧ (s.usedSdram.any fun p => decide
    (fieldOf w.toNat 0 6 * 1024 ≤ p)) = true) :=
  ⟨⟨hd, 3, 320, cmd 0x15 .reset, (by simp only [State.canBegin]; decide +kernel)⟩,
    ⟨hd, 4, (4, 330, 2),
     cmd 0x15 { State.reset with canopy := [(330 * 0x10000 + 5, 9)], forest := { State.reset.forest with claims := [(4, 330, 2)] } },
     (by simp only [State.canBegin]; decide +kernel)⟩,
    ⟨hd, 0, ⟨false, 600, 65536⟩, ⟨false, 601, 65536⟩, [],
     (cmd 0x16 .reset).modGrove 0 fun g => { g with bufs := [⟨false, 600, 65536⟩, ⟨false, 601, 65536⟩] },
     (by simp only [State.canBegin]; decide +kernel)⟩,
    ⟨hd, 0x1000, 96, cmd 0x17 (run3 .running), (by simp only [State.canBegin]; decide +kernel)⟩,
    ⟨.core 2, 0x10005, .reset, by decide +kernel⟩,
    ⟨.host 9, 3, oper .reset, by decide +kernel⟩,
    ⟨.host 9, 0, oper (withSegs [{ sg with tier := .sdram }] .reset), by decide +kernel⟩⟩

/-- The hypotheses of every clause of HostStreams can be met. -/
theorem witness_HostStreams :
  (∃ (req : Req) (t : Fin 32) (w : Word) (s : State), s.mayWrite req (F.HQ_STRM_CFG_RING t).addr w = true ∧ s.threads[t].busy = none ∧
    s.streams[t].ring = none ∧ fieldOf w.toNat 0 13 = 0) ∧
  (∃ (req : Req) (t : Fin 32) (w : Word) (s : State), s.mayWrite req (F.HQ_STRM_CFG_RING t).addr w = true ∧ s.threads[t].busy.isSome =
    true) ∧
  (∃ (req : Req) (t : Fin 32) (w : Word) (s : State), s.mayWrite req (F.HQ_STRM_PUT_COUNT t).addr w = true) ∧
  (∃ (req : Req) (t : Fin 32) (w : Word) (s : State), s.mayWrite req (F.HQ_STRM_ANNOUNCE_SEG t).addr w = true ∧ s.segLive t (fieldOf
    w.toNat 0 16) (fieldOf w.toNat 16 8) = true ∧ s.streams[t].anns.length < 8) ∧
  (∃ (req : Req) (t : Fin 32) (w : Word) (s : State), s.mayWrite req (F.HQ_STRM_ANNOUNCE_SEG t).addr w = true ∧ s.segLive t (fieldOf
    w.toNat 0 16) (fieldOf w.toNat 16 8) = false) :=
  ⟨⟨.host 9, 3, 0x1050000, .reset, by decide +kernel⟩,
    ⟨.host 9, 3, 0x20, run3 .running, by decide +kernel⟩,
    ⟨.host 9, 3, 0x20,
     set [(F.HQ_STRM_CFG_RING 3, 16)] { State.reset with streams := upd State.reset.streams 3 fun k => { k with put := 9, cons := 3 } },
     by decide +kernel⟩,
    ⟨.host 9, 3, 0x10005, run3 .running, by decide +kernel⟩,
    ⟨.host 9, 3, 0x20005, run3 .running, by decide +kernel⟩⟩

/-- The hypotheses of every clause of SymbolMapWrites can be met. -/
theorem witness_SymbolMapWrites :
  (∃ (req : Req) (ch : Fin 128) (ts : Fin 32) (code : Fin 16) (w : Word) (s : State), s.mayWrite req (symLo ch ts code).addr w = true
    ∧ s.chanBusy ch = false ∧ symReserved w.toNat = false) ∧
  (∃ (req : Req) (ch : Fin 128) (ts : Fin 32) (code : Fin 16) (w : Word) (s : State), s.mayWrite req (symHi ch ts code).addr w = true
    ∧ s.chanBusy ch = false) ∧
  (∃ (req : Req) (ch : Fin 128) (ts : Fin 32) (code : Fin 16) (hi : Bool) (w : Word) (s : State), s.mayWrite req (if hi then symHi ch
    ts code else symLo ch ts code).addr w = true ∧ s.chanBusy ch = true) ∧
  (∃ (req : Req) (ch : Fin 128) (ts : Fin 32) (code : Fin 16) (w : Word) (s : State), s.mayWrite req (symLo ch ts code).addr w = true
    ∧ s.chanBusy ch = false ∧ symReserved w.toNat = true) :=
  ⟨⟨.host 9, 127, 31, 15, 0x1660333, oper .reset, by decide +kernel⟩,
    ⟨.host 9, 0, 1, 0, 0xF0000FF, oper .reset, by decide +kernel⟩,
    ⟨.host 9, 3, 1, 1, false, 0x70000, oper (run3 .running), by decide +kernel⟩,
    ⟨.host 9, 3, 2, 1, 0xC, oper .reset, by decide +kernel⟩⟩

/-- The hypotheses of every clause of TimingTableWrites can be met. -/
theorem witness_TimingTableWrites :
  (∃ (req : Req) (g : Fin 32) (ts : Fin 32) (w : Word) (s : State), s.mayWrite req (F.TMG_PERIOD_LO g ts).addr w = true ∧ s.groveIdle
    g = true) ∧
  (∃ (req : Req) (g : Fin 32) (ts : Fin 32) (w : Word) (s : State), s.mayWrite req (F.TMG_PERIOD_HI g ts).addr w = true ∧ s.groveIdle
    g = true ∧ 2048 ≤ s.lowFor req (F.TMG_PERIOD_LO g ts) + 2 ^ 32 * (w.toNat % 2 ^ 11) ∧ s.lowFor req (F.TMG_PERIOD_LO g ts) + 2 ^ 32
    * (w.toNat % 2 ^ 11) ≤ 2 ^ 42) ∧
  (∃ (req : Req) (g : Fin 32) (ts : Fin 32) (w : Word) (s : State), s.mayWrite req (F.TMG_PERIOD_HI g ts).addr w = true ∧ s.groveIdle
    g = true ∧ (s.lowFor req (F.TMG_PERIOD_LO g ts) + 2 ^ 32 * (w.toNat % 2 ^ 11) < 2048 ∨ 2 ^ 42 < s.lowFor req (F.TMG_PERIOD_LO g
    ts) + 2 ^ 32 * (w.toNat % 2 ^ 11))) ∧
  (∃ (req : Req) (g : Fin 32) (ts : Fin 32) (w : Word) (s : State), s.mayWrite req (F.TMG_PERIOD_HI g ts).addr w = true ∧ s.groveIdle
    g = false) ∧
  (∃ (req : Req) (c : Fin 128) (ts : Fin 32) (k : Nat) (w : Word) (s : State), k < 6 ∧ s.mayWrite req (0x100000 + 0x1000 * c + 0x80 *
    ts + 4 * k) w = true ∧ s.chanBusy c = false) ∧
  (∃ (req : Req) (c : Fin 128) (w : Word) (s : State), s.mayWrite req (0x190000 + 0x20 * c) w = true ∧ s.chanBusy c = true) ∧
  (∃ (req : Req) (w : Word) (s : State), s.mayWrite req F.TMG_MOD_DELAY_DELAY.addr w = true ∧ s.bursts = []) :=
  ⟨⟨.host 9, 31, 2, 5, oper .reset, by decide +kernel⟩,
    ⟨.host 9, 0, 31, 0x400, oper (rs [(F.TMG_PERIOD_LO 0 31, 0)]), by decide +kernel⟩,
    ⟨.host 9, 1, 0, 0x401, oper .reset, by decide +kernel⟩,
    ⟨.host 9, 0, 0, 0, oper (run3 .granted), by decide +kernel⟩,
    ⟨.host 9, 127, 31, 5, 0x1, oper .reset, by decide +kernel⟩,
    ⟨.host 9, 2, 9, oper (run3 .granted), by decide +kernel⟩,
    ⟨.host 9, 0x12345, oper .reset, by decide +kernel⟩⟩

/-- The hypotheses of every clause of ScrubbersAndControlBuses can be met. -/
theorem witness_ScrubbersAndControlBuses :
  (∃ (s : State), s.classOf 9 < 2) ∧
  (∃ (kind : Nat) (index : Nat) (ts : Nat) (s : State), kind < 4 ∧ index < 128 ∧ ts < 64 ∧ s.classOf 10 < 2) ∧
  (∃ (req : Req) (b : Fin 16) (w : Word) (s : State), s.mayWrite req (F.PEC_CMD_GO b).addr w = true ∧ s.on (F.PEC_CMD_GO b) = false ∧
    w.getLsbD 16 = true ∧ 0 < fieldOf w.toNat 0 7 ∧ fieldOf w.toNat 0 7 ≤ 64) ∧
  (∃ (req : Req) (b : Fin 16) (w : Word) (s : State), s.mayWrite req (F.PEC_CMD_GO b).addr w = true ∧ s.on (F.PEC_CMD_GO b) = true) ∧
  (∃ (b : Fin 16) (s : State), s.pec[b].running = true) :=
  ⟨⟨.reset, by decide +kernel⟩,
    ⟨3, 127, 63, .reset, by decide +kernel⟩,
    ⟨.host 9, 15, 0x10240, oper .reset, by decide +kernel⟩,
    ⟨.host 9, 3, 0x10001, oper (rs [(F.PEC_CMD_GO 3, 1)]), by decide +kernel⟩,
    ⟨0, { State.reset with pec := upd State.reset.pec 0 fun _ => ⟨true, 8, 1⟩ }, by decide +kernel⟩⟩

/-- The hypotheses of every clause of EpochsAndTriggerInputs can be met. -/
theorem witness_EpochsAndTriggerInputs :
  (∃ (s : State), s.syncRole = 1 ∧ (∀ b ∈ s.bursts, b.stage ≠ .armed)) ∧
  (∃ (s : State), s.syncRole = 2 ∧ 0 < s.rd F.SEQ_SYNC_CFG_PERIOD ∧ s.sync.epochSlot + s.rd F.SEQ_SYNC_CFG_PERIOD ≤ s.slotNext ∧ (∀ b
    ∈ s.bursts, b.stage ≠ .armed)) ∧
  (∃ (s : State), s.syncRole ≠ 1) ∧
  (∃ (s : State), s.syncRole ≠ 2) ∧
  (∃ (n : Fin 4) (s : State), ((∀ e : Fin 4, s.qsrc e ≠ 1 ∨ s.rd (F.TRG_QUAL_QSEL e) ≠ n))) ∧
  (∃ (n : Fin 4) (b : Burst) (s : State), s.pending = [] ∧ s.power.present = true ∧ (s.tim.raw + 1) % 2 ^ 64 % 8 = 0 ∧ (∀ d : Fin 16,
    s.dscs[d].pgn.blanked = false) ∧ s.forest.evacs = [] ∧ s.bursts = [b] ∧ b.stage = .armed ∧ b.ops.mode = 2 ∧ b.ops.trig = n ∧
    b.startSlot = none ∧ b.met = false ∧ s.leads b = false ∧ s.sync.sampled[n] = false ∧ s.sync.trigIn[n] = true) ∧
  (∃ (s : State), s.pending = [] ∧ s.power.present = true ∧ (∀ d : Fin 16, s.dscs[d].pgn.blanked = false) ∧ s.forest.evacs = [] ∧ (∀ n
    : Fin 4, s.sync.trigIn[n] = true → s.sync.sampled[n] = true)) :=
  ⟨⟨set [(F.SEQ_SYNC_CFG_ROLE, 1), (F.SEQ_SYNC_CFG_PERIOD, 9)] (run3 .running), by decide +kernel⟩,
    ⟨set [(F.SEQ_SYNC_CFG_ROLE, 2), (F.SEQ_SYNC_CFG_PERIOD, 9)] { State.reset with tim := { raw := 800 } }, by decide +kernel⟩,
    ⟨.reset, by decide +kernel⟩,
    ⟨.reset, by decide +kernel⟩,
    ⟨3, .reset, by decide +kernel⟩,
    ⟨2, { bu .armed with ops := ⟨1, 100, 2, 2, 5, 1, 0⟩ },
     (let s := timS (fun t => { t with raw := 79 }) { run3 .armed with bursts := [{ bu .armed with ops := ⟨1, 100, 2, 2, 5, 1, 0⟩ }] }; { s with sync := { s.sync with trigIn := s.sync.trigIn.set 2 true } }),
     by decide +kernel⟩,
    ⟨run3 .armed, by decide +kernel⟩⟩

/-- The hypotheses of every clause of TriggerArming can be met. -/
theorem witness_TriggerArming :
  (∃ (e : Fin 4) (s : State), s.trgState e = 0 ∧ s.trgBad e = false ∧ bitOf (s.acq.calRun ||| s.acq.calHeld) (32 + e.1) = false) ∧
  (∃ (e : Fin 4) (s : State), s.trgState e = 0 ∧ s.trgBad e = true) ∧
  (∃ (e : Fin 4) (s : State), s.trgState e ≠ 0) ∧
  (∃ (e : Fin 4) (s : State), s.trgState e ≠ 2) ∧
  (∃ (e : Fin 4) (r : TrgRec) (s : State), s.trgState e = 2 ∧ s.acq.trg[e].cur = some r) ∧
  (∃ (e : Fin 4) (s : State), s.trgState e = 3) ∧
  (∃ (e : Fin 4) (s : State), s.trgState e ≠ 3) :=
  ⟨⟨1, rs [(F.TRG_SRC_KIND 1, 1), (F.TRG_DEPTH_PRE 1, 5)], by decide +kernel⟩,
    ⟨1, rs [(F.TRG_SRC_KIND 1, 3)], by decide +kernel⟩,
    ⟨1, rs [(F.TRG_STATUS_STATE 1, 2)], by decide +kernel⟩,
    ⟨1, rs [(F.TRG_STATUS_STATE 1, 3)], by decide +kernel⟩,
    ⟨1, rec1,
     trg 1 (fun k => { k with cur := some rec1, place := some ⟨false, 600, 65536⟩ }) (rs [(F.TRG_STATUS_STATE 1, 2), (F.TRG_STORE_RECS 1, 4)]),
     by decide +kernel⟩,
    ⟨1, rs [(F.TRG_STATUS_STATE 1, 3)], by decide +kernel⟩,
    ⟨1, .reset, by decide +kernel⟩⟩

/-- The hypotheses of every clause of TriggersAndRecords can be met. -/
theorem witness_TriggersAndRecords :
  (∃ (e : Fin 4) (s : State), s.trgState e = 1 ∧ s.acq.trg[e].cur = none ∧ s.acq.trg[e].unread < s.rd (F.TRG_STORE_RECS e) ∧ (∀ k,
    s.qsrc k ≠ 6)) ∧
  (∃ (e : Fin 4) (s : State), s.trgState e = 0) ∧
  (∃ (e : Fin 4) (s : State), s.trgState e = 3 ∧ s.acq.trg[e].cur = none) ∧
  (∃ (e : Fin 4) (s : State), s.rd (F.TRG_CTRL_MODE e) = 2 ∧ s.trgState e = 1 ∧ s.acq.trg[e].unread < s.rd (F.TRG_STORE_RECS e) ∧ (∀
    k, s.qsrc k ≠ 6)) ∧
  (∃ (e : Fin 4) (s : State), s.trgState e ≠ 1) ∧
  (∃ (e : Fin 4) (f : TrgFeed) (rest : List TrgFeed) (s : State), s.trgState e = 1 ∧ s.acq.trg[e].kind = 0 ∧ f.ends = false ∧ f.only =
    false ∧ s.acq.trg[e].feed = f :: rest ∧ s.acq.trg[e].cur = none ∧ s.acq.trg[e].last = false ∧ s.comb e = 0 ∧ s.matches e
    f.samp.value f.judged = true ∧ (∀ k, s.qsrc k = 0) ∧ s.acq.trg[e].unread < s.rd (F.TRG_STORE_RECS e)) ∧
  (∃ (e : Fin 4) (f : TrgFeed) (rest : List TrgFeed) (s : State), s.trgState e = 1 ∧ s.acq.trg[e].kind = 3 ∧ f.ends = false ∧ f.only =
    false ∧ (s.acq.trg[e].place).any s.writeLost = false ∧ s.acq.trg[e].feed = f :: rest) ∧
  (∃ (e : Fin 4) (ticks : List (Nat × Nat)) (s : State), s.trgState e = 1 ∧ (s.acq.trg[e].kind = 1 ∨ s.acq.trg[e].kind = 2) ∧
    ticks.length = max 8 (s.rd (F.TRG_TIMING_DIV e)) ∧ without (s.inView e) (s.word128 (F.TRG_DC_DC e)) = 0) ∧
  (∃ (e : Fin 4) (r : TrgRec) (s : State), s.acq.trg[e].cur = some r ∧ s.recDone e = true ∧ s.acq.trg[e].unread + 1 < s.rd
    (F.TRG_STORE_RECS e)) ∧
  (∃ (e : Fin 4) (s : State), s.qsrc e = 5 ∧ s.trgState e ≠ 0 ∧ s.reached (s.rdP (F.TRG_QTIME_LO_T e)) = true ∧ s.acq.trg[e].timed =
    false ∧ s.comb e ≤ 1) ∧
  (∃ (e : Fin 4) (s : State), s.qsrc e = 5 ∧ s.trgState e = 1 ∧ s.reached (s.rdP (F.TRG_QTIME_LO_T e)) = true ∧ s.acq.trg[e].timed =
    false ∧ s.comb e = 3) :=
  ⟨⟨1, armed, by decide +kernel⟩,
    ⟨1, .reset, by decide +kernel⟩,
    ⟨1, rs [(F.TRG_STATUS_STATE 1, 3)], by decide +kernel⟩,
    ⟨1, set [(F.TRG_CTRL_MODE 1, 2)] armed, by decide +kernel⟩,
    ⟨1, .reset, by decide +kernel⟩,
    ⟨1, feed1, [],
     trg 1 (fun k => { k with last := false, feed := [feed1] }) (set [(F.TRG_DC_DC 1 0, 0xFFFFFFFC), (F.TRG_DC_DC 1 1, 0xFFFFFFFF), (F.TRG_DC_DC 1 2, 0xFFFFFFFF), (F.TRG_DC_DC 1 3, 0xFFFFFFFF), (F.TRG_VALUE_VALUE 1 0, 3)] armed),
     by decide +kernel⟩,
    ⟨1, feed1, [], trg 1 (fun k => { k with kind := 3, pre := 2, feed := [feed1] }) armed, by decide +kernel⟩,
    ⟨1, List.replicate 9 (1, 5),
     trg 1 (fun k => { k with kind := 1, pre := 2 }) (set [(F.TRG_DC_DC 1 0, 0xFFFFFFFF), (F.TRG_TIMING_DIV 1, 9)] armed),
     by decide +kernel⟩,
    ⟨1, rec1, trg 1 (fun k => { k with cur := some rec1, place := some ⟨false, 600, 65536⟩ }) (set [(F.TRG_STATUS_STATE 1, 2)] armed),
     by decide +kernel⟩,
    ⟨1, set [(F.TRG_QUAL_QSRC 1, 5)] armed, by decide +kernel⟩,
    ⟨1, set [(F.TRG_QUAL_QSRC 1, 5), (F.TRG_QUAL_COMB 1, 3)] armed, by decide +kernel⟩⟩

/-- The hypotheses of every clause of UnitGates can be met. -/
theorem witness_UnitGates :
  (∃ (u : Fin 32) (s : State), s.tmuState u = 0 ∧ s.tmuBad u = false ∧ s.tmuHeld u = false ∧ s.on (F.TMU_CTRL_STORE u) = false ∧
    s.partnerOf u = none ∧ 2 ≤ s.rd (F.TMU_GATE_GSRC u)) ∧
  (∃ (u : Fin 32) (s : State), s.tmuState u = 0 ∧ s.tmuBad u = false ∧ s.tmuHeld u = false ∧ s.on (F.TMU_CTRL_STORE u) = false ∧
    s.partnerOf u = none ∧ s.rd (F.TMU_GATE_GSRC u) ≤ 1) ∧
  (∃ (u : Fin 32) (p : Fin 32) (s : State), s.tmuState u = 0 ∧ s.tmuBad u = false ∧ s.tmuHeld u = false ∧ s.on (F.TMU_CTRL_STORE u) =
    false ∧ s.partnerOf u = some p ∧ 2 ≤ s.rd (F.TMU_GATE_GSRC u)) ∧
  (∃ (u : Fin 32) (s : State), s.tmuState u = 0 ∧ s.tmuBad u = true) ∧
  (∃ (u : Fin 32) (s : State), s.tmuState u = 0 ∧ s.tmuBad u = false ∧ s.tmuHeld u = true) ∧
  (∃ (u : Fin 32) (s : State), s.acq.tmu[u].master = none ∧ s.acq.tmu[u].gate = none) ∧
  (∃ (u : Fin 32) (g : Gate) (s : State), s.acq.tmu[u].master = none ∧ s.acq.tmu[u].gate = some g) ∧
  (∃ (u : Fin 32) (g : Gate) (s : State), s.acq.tmu[u].gate = some g ∧ s.on (F.TMU_CTRL_CONT u) = false) ∧
  (∃ (u : Fin 32) (s : State), s.acq.tmu[u].gate = none) ∧
  (∃ (u : Fin 32) (g : Gate) (s : State), s.acq.tmu[u].gate = some g ∧ s.on (F.TMU_CTRL_CONT u) = false ∧ s.rd (F.TMU_GATE_GSRC u) = 0
    ∧ s.rd (F.TMU_GATE_US_US u) < 16000000 ∧ g.stamps.length < 1048576) ∧
  (∃ (u : Fin 32) (s : State), s.tmuState u = 1 ∧ s.rd (F.TMU_GATE_GSRC u) = 2 ∧ s.acq.tmu[u].due = true ∧ s.on (F.TMU_CTRL_STORE u) =
    false ∧ s.partnerOf u = none) ∧
  (∃ (u : Fin 32) (s : State), s.tmuState u ≠ 1) ∧
  (∃ (u : Fin 32) (tick : Nat) (code : Nat) (g : Gate) (s : State), s.rd (F.TMU_SRC_EDGE u) = 0 ∧ s.tmuBlocked u = false ∧
    s.acq.tmu[u].master = none ∧ s.acq.tmu[u].gate = some g ∧ g.stamps.length < s.gateLimit u ∧ s.acq.hits[fin 36 u] ≠ [] ∧ g.edges %
    max 1 (s.rd (F.TMU_PRESCALE_N u)) = 0 ∧ s.on (F.TMU_CTRL_STORE u) = false ∧ inDead s.acq.tmu[u].lastS (s.edgeAt u tick code) =
    false) ∧
  (∃ (u : Fin 32) (tick : Nat) (code : Nat) (g : Gate) (s : State), s.rd (F.TMU_SRC_EDGE u) = 0 ∧ s.tmuBlocked u = false ∧
    s.acq.tmu[u].master = none ∧ s.acq.tmu[u].gate = some g ∧ g.stamps.length < s.gateLimit u ∧ s.acq.hits[fin 36 u] ≠ [] ∧ g.edges %
    max 1 (s.rd (F.TMU_PRESCALE_N u)) ≠ 0 ∧ inDead s.acq.tmu[u].lastS (s.edgeAt u tick code) = false) ∧
  (∃ (u : Fin 32) (tick : Nat) (code : Nat) (g : Gate) (s : State), s.rd (F.TMU_SRC_EDGE u) = 0 ∧ s.tmuBlocked u = false ∧
    s.acq.tmu[u].master = none ∧ s.acq.tmu[u].gate = some g ∧ g.stamps.length < s.gateLimit u ∧ s.acq.hits[fin 36 u] ≠ [] ∧ inDead
    s.acq.tmu[u].lastS (s.edgeAt u tick code) = true) ∧
  (∃ (u : Fin 32) (s : State), s.rd (F.TMU_SRC_EDGE u) = 0) :=
  ⟨⟨2, rs [(F.TMU_GATE_GSRC 2, 3)], by decide +kernel⟩,
    ⟨2, rs [(F.TMU_GATE_GSRC 2, 1)], by decide +kernel⟩,
    ⟨2, 9, rs [(F.TMU_GATE_GSRC 2, 2), (F.TMU_CTRL_FUNC 2, 2), (F.TMU_SRC_PARTNER 2, 9)], by decide +kernel⟩,
    ⟨2, rs [(F.TMU_SRC_SRC 2, 9)], by decide +kernel⟩,
    ⟨2, { State.reset with acq := { calRun := 4 } }, by decide +kernel⟩,
    ⟨2, .reset, by decide +kernel⟩,
    ⟨2, gt, tmu 2 (fun k => { k with gate := some gt }) .reset, by decide +kernel⟩,
    ⟨2, gt, tmu 2 (fun k => { k with gate := some gt }) .reset, by decide +kernel⟩,
    ⟨2, .reset, by decide +kernel⟩,
    ⟨2, gt, tmu 2 (fun k => { k with gate := some gt }) .reset, by decide +kernel⟩,
    ⟨2, tmu 2 (fun k => { k with due := true }) (rs [(F.TMU_GATE_GSRC 2, 2), (F.TMU_STATUS_STATE 2, 1)]), by decide +kernel⟩,
    ⟨2, .reset, by decide +kernel⟩,
    ⟨2, 7, 9, gt,
     { tmu 2 (fun k => { k with gate := some gt }) (rs [(F.STR_COPPICE_MAP_MAP 0, 0)]) with acq := { tmu := upd State.reset.acq.tmu 2 fun k => { k with gate := some gt }, hits := upd State.reset.acq.hits 2 fun _ => [5, 6] } },
     by decide +kernel⟩,
    ⟨2, 7, 9, { gt with edges := 1 },
     { rs [(F.STR_COPPICE_MAP_MAP 0, 0), (F.TMU_PRESCALE_N 2, 2)] with acq := { tmu := upd State.reset.acq.tmu 2 fun k => { k with gate := some { gt with edges := 1 } }, hits := upd State.reset.acq.hits 2 fun _ => [5, 6] } },
     by decide +kernel⟩,
    ⟨2, 7, 9, gt, tmu 2 (fun k => { k with lastS := some (gated.edgeAt 2 7 9) }) gated,
     (⟨by decide +kernel, by decide +kernel, by decide +kernel, by decide +kernel, by decide +kernel, by decide +kernel, dead_edge gated 2 7 9⟩)⟩,
    ⟨2, .reset, by decide +kernel⟩⟩

/-- The hypotheses of every clause of UnitResultsAndTables can be met. -/
theorem witness_UnitResultsAndTables :
  (∃ (u : Fin 32) (g : Gate) (rest : List Gate) (s : State), s.acq.tmu[u].closed = g :: rest ∧ g.block = none) ∧
  (∃ (u : Fin 32) (g : Gate) (rest : List Gate) (s : State), s.acq.tmu[u].closed = g :: rest ∧ s.flt.frozen = true) ∧
  (∃ (unit : Nat) (s : State), unit < 36 ∧ bitOf s.acq.calDue unit = true ∧ s.unitIdle unit = true ∧ s.cal.run = none) ∧
  (∃ (u : Fin 32) (hits : List Nat) (s : State), bitOf s.acq.calRun u = true ∧ hits.length = 4096 ∧ hits.sum = 4194304 ∧ plausible
    hits = true ∧ s.acq.tmu[u].heldArm = false ∧ s.cal.queue = []) ∧
  (∃ (u : Fin 32) (hits : List Nat) (s : State), bitOf s.acq.calRun u = true ∧ hits.length = 4096 ∧ hits.sum = 4194304 ∧ plausible
    hits = false ∧ s.acq.tmu[u].heldArm = false ∧ s.cal.queue = []) ∧
  (∃ (unit : Nat) (s : State), unit < 36 ∧ s.on F.TMU_GCTRL_AUTO_RECAL = true ∧ 160 ≤ s.power.drift[fin 36 unit] ∧ 48 < (s.tdec -
    s.rdS (calTempOf unit)).natAbs) :=
  ⟨⟨2, gt, [], tmu 2 (fun k => { k with closed := [gt] }) .reset, by decide +kernel⟩,
    ⟨2, gt, [], { tmu 2 (fun k => { k with closed := [gt] }) .reset with flt := { frozen := true } }, by decide +kernel⟩,
    ⟨35, { State.reset with acq := { calDue := 2 ^ 35 } }, by decide +kernel⟩,
    ⟨2, List.replicate 4096 1024, { State.reset with acq := { calRun := 4 } }, by decide +kernel⟩,
    ⟨2, 0 :: 2048 :: List.replicate 4094 1024, { State.reset with acq := { calRun := 4 } }, by decide +kernel⟩,
    ⟨31, { rs [(F.TMU_GCTRL_AUTO_RECAL, 1), (F.PWR_TDEC_TEMP, 49)] with power := { drift := Vector.replicate 36 160 } },
     by decide +kernel⟩⟩

/-- The hypotheses of every clause of CalibrationRuns can be met. -/
theorem witness_CalibrationRuns :
  (∃ (s : State), s.on F.CAL_STATUS_START_DONE = false ∧ s.cal.run = none ∧ s.rd F.CLK_STATUS_SRC = 0 ∧ (∀ k, s.groveIdle k = true) ∧
    ((∃ v, s.tmuState v = 0 ∧ s.tmuOwner v = none ∧ bitOf s.acq.calRun v = false))) ∧
  (∃ (s : State), s.on F.CAL_STATUS_START_DONE = true) ∧
  (∃ (h : Hdr) (groups : Nat) (flags : Nat) (s : State), s.canBegin h 0x21 ∧ 0 < groups ∧ groups < 0x10 ∧ flags < 4 ∧ s.atAcceptance h
    (·.reload) = false ∧ s.cal.run = none ∧ s.cal.commit = none ∧ s.acq.calRun = 0 ∧ s.cal.queue = []) ∧
  (∃ (h : Hdr) (groups : Nat) (flags : Nat) (s : State), s.canBegin h 0x21 ∧ 0 < groups ∧ groups < 0x10 ∧ flags < 4 ∧ s.atAcceptance h
    (·.reload) = false ∧ s.cal.run.isSome = true) ∧
  (∃ (h : Hdr) (groups : Nat) (flags : Nat) (s : State), s.canBegin h 0x21 ∧ (groups = 0 ∨ 0x80 ≤ groups ∨ 4 ≤ flags)) ∧
  (∃ (h : Hdr) (groups : Nat) (flags : Nat) (s : State), s.canBegin h 0x21 ∧ 0x10 ≤ groups ∧ groups < 0x80 ∧ flags < 4 ∧
    s.atAcceptance h (·.noRef) = true) ∧
  (∃ (h : Hdr) (groups : Nat) (flags : Nat) (s : State), s.canBegin h 0x21 ∧ 0 < groups ∧ groups < 0x10 ∧ flags < 4 ∧ s.atAcceptance h
    (·.reload) = true) ∧
  (∃ (h : Hdr) (r : CalRun) (s : State), s.cal.run = some r ∧ r.cmd = some h ∧ r.cut = false ∧ r.commit = false ∧ r.lost = false ∧ (∀
    g k, s.lostUnit r false g k = false) ∧ s.acq.calHeld = 0 ∧ s.cal.queue = []) ∧
  (∃ (h : Hdr) (r : CalRun) (x : CalResult) (s : State), s.cal.run = some r ∧ r.cmd = some h ∧ r.cut = false ∧ r.commit = false ∧
    r.lost = false ∧ r.status = 0 ∧ (∀ g k, s.lostUnit r false g k = false) ∧ s.acq.calHeld = 0 ∧ s.cal.queue = [] ∧ x.group = 1 ∧
    r.takes 1 x.unit = true ∧ s.unitOk x 0 = true) ∧
  (∃ (h : Hdr) (r : CalRun) (x : CalResult) (s : State), s.cal.run = some r ∧ r.cmd = some h ∧ r.cut = false ∧ r.commit = false ∧
    r.lost = false ∧ r.status = 0 ∧ (∀ g k, s.lostUnit r false g k = false) ∧ s.acq.calHeld = 0 ∧ s.cal.queue = [] ∧ x.group = 1 ∧
    r.takes 1 x.unit = true ∧ s.unitOk x 0 = false) ∧
  (∃ (s : State), s.cal.run = none) ∧
  (∃ (h : Hdr) (r : CalRun) (n : Nat) (key : Nat) (s : State), s.cal.commit = some (r, n) ∧ r.cmd = some h ∧ s.sec.calKey = some key ∧
    s.cal.queue = []) ∧
  (∃ (h : Hdr) (r : CalRun) (n : Nat) (s : State), s.cal.commit = some (r, n) ∧ r.cmd = some h ∧ s.cal.queue = []) ∧
  (∃ (s : State), s.cal.commit = none) :=
  ⟨⟨.reset, by decide +kernel⟩,
    ⟨rs [(F.CAL_STATUS_START_DONE, 1)], by decide +kernel⟩,
    ⟨hd, 6, 0, cmd 0x21 .reset, (by simp only [State.canBegin]; decide +kernel)⟩,
    ⟨hd, 15, 3, withRun crun (cmd 0x21 .reset), (by simp only [State.canBegin]; decide +kernel)⟩,
    ⟨hd, 128, 0, cmd 0x21 .reset, (by simp only [State.canBegin]; decide +kernel)⟩,
    ⟨hd, 127, 0, cmdAt 0x21 true false false .reset, (by simp only [State.canBegin]; decide +kernel)⟩,
    ⟨hd, 6, 0, cmdAt 0x21 false true false .reset, (by simp only [State.canBegin]; decide +kernel)⟩,
    ⟨hd, crun, withRun crun .reset,
     (⟨rfl, rfl, rfl, rfl, rfl, fun g k => by simp [State.lostUnit, crun], by decide +kernel, by decide +kernel⟩)⟩,
    ⟨hd, crun, ⟨1, 4, [1, 2], true, []⟩, withRun crun .reset,
     (⟨rfl, rfl, rfl, rfl, rfl, rfl, fun g k => by simp [State.lostUnit, crun], by decide +kernel, by decide +kernel, by decide +kernel, by decide +kernel, by decide +kernel⟩)⟩,
    ⟨hd, crun, ⟨1, 4, [1, 2], false, []⟩, withRun crun .reset,
     (⟨rfl, rfl, rfl, rfl, rfl, rfl, fun g k => by simp [State.lostUnit, crun], by decide +kernel, by decide +kernel, by decide +kernel, by decide +kernel, by decide +kernel⟩)⟩,
    ⟨.reset, by decide +kernel⟩,
    ⟨hd, crun, 5, 3, { State.reset with cal := { commit := some (crun, 5) }, sec := { calKey := some 3 } }, by decide +kernel⟩,
    ⟨hd, crun, 5, { State.reset with cal := { commit := some (crun, 5) } }, by decide +kernel⟩,
    ⟨.reset, by decide +kernel⟩⟩

/-- The hypotheses of every clause of SupplyControl can be met. -/
theorem witness_SupplyControl :
  (∃ (d : Fin 16) (s : State), s.modeRefused d 0 = false ∧ s.dscs[d].tune = none ∧ s.dscs[d].pass = none) ∧
  (∃ (d : Fin 16) (mode : Nat) (s : State), 0 < mode ∧ s.modeRefused d mode = false) ∧
  (∃ (d : Fin 16) (mode : Nat) (s : State), s.modeRefused d mode = true) ∧
  (∃ (d : Fin 16) (w : Word) (s : State), w.getLsbD 24 = true ∧ s.dscs[d].pass = none) ∧
  (∃ (d : Fin 16) (w : Word) (s : State), w.getLsbD 24 = false ∧ s.dscs[d].pass = none) ∧
  (∃ (seg : Nat) (gen : Nat) (s : State), (s.forest.segs.any fun x => decide (x.id = seg) && decide (x.gen = gen) && x.loading.isNone)
    = false) ∧
  (∃ (t : Fin 32) (seg : Nat) (gen : Nat) (d : Fin 16) (s : State), (s.forest.segs.any fun x => decide (x.id = seg) && decide (x.gen =
    gen) && x.loading.isNone) = true ∧ (grovesIn s.threads[t].members).flatMap s.dscsOf = [d] ∧ s.dscs[d].pulses = []) ∧
  (∃ (d : Fin 16) (x : RcPass) (s : State), s.dscs[d].closing = [] ∧ s.dscs[d].pass = some x ∧ x.ran = true ∧ x.clean = false) ∧
  (∃ (d : Fin 16) (s : State), s.dscs[d].closing = [] ∧ s.dscs[d].pass = none) ∧
  (∃ (d : Fin 16) (s : State), s.dscMode d ≠ 0 ∧ s.ramping d = false ∧ s.dscs[d].pass = none ∧ s.classOf 15 < 2) ∧
  (∃ (req : Req) (b : Fin 16) (w : Word) (s : State), s.mayWrite req (F.TRC_CTRL_EN b).addr w = true ∧ w.getLsbD 0 = false) ∧
  (∃ (req : Req) (b : Fin 16) (w : Word) (page : Nat) (s : State), s.mayWrite req (F.TRC_CTRL_EN b).addr w = true ∧ w.getLsbD 0 = true
    ∧ ({ s with forest := { s.forest with traces := s.forest.traces.filter fun p => p.1 != b.1 } } : State).canopyRun 4 4 = some page) :=
  ⟨⟨1, dsc (fun k => { k with pgn := inPeriod, wait := [samp1] }) (chn 1), by decide +kernel⟩,
    ⟨1, 1, chn 0, by decide +kernel⟩,
    ⟨1, 5, chn 1, by decide +kernel⟩,
    ⟨1, 0x1050007, chn 1, by decide +kernel⟩,
    ⟨1, 0x50007, chn 1, by decide +kernel⟩,
    ⟨5, 1, .reset, by decide +kernel⟩,
    ⟨3, 5, 1, 1, (set [(F.STR_DSC_GROVE 1, 0), (F.DSC_STATUS_MODE 1, 1)] (run3 .running)), by decide +kernel⟩,
    ⟨1, pass1, dsc (fun k => { k with pass := some { pass1 with k := 9 } }) (chn 1), by decide +kernel⟩,
    ⟨1, chn 1, by decide +kernel⟩,
    ⟨1, chn 1, by decide +kernel⟩,
    ⟨.host 9, 1, 0, set [(F.TRC_CTRL_EN 1, 1)] (oper .reset), by decide +kernel⟩,
    ⟨.core 1, 1, 1, 320, room .reset, by decide +kernel⟩⟩

/-- The hypotheses of every clause of PulsesAndComparators can be met. -/
theorem witness_PulsesAndComparators :
  (∃ (d : Fin 16) (s : State), s.dscBound d = true ∧ s.stepDue d 0 = true ∧ s.dscMode d = 0 ∧ s.dscs[d].pgn.blanked = false) ∧
  (∃ (d : Fin 16) (s : State), s.dscBound d = true ∧ s.stepDue d 0 = true ∧ s.dscMode d ≠ 0 ∧ s.on (F.CMP_LEVEL_WH d) = false ∧ s.on
    (F.CMP_LEVEL_OVP d) = false ∧ s.on (F.CMP_LEVEL_WL d) = false ∧ s.fltHeld d = false ∧ s.ramping d = false ∧ s.dscs[d].pgn.blanked
    = false) ∧
  (∃ (d : Fin 16) (s : State), (s.dscBound d = false ∨ s.stepDue d 0 = false)) ∧
  (∃ (d : Fin 16) (step : Nat) (s : State), step < s.dscs[d].pgn.force.getD 0 0) ∧
  (∃ (d : Fin 16) (s : State), s.pending = [] ∧ s.power.present = true ∧ (s.tim.raw + 1) % 2 ^ 64 % 8 ≠ 0 ∧ s.dscs[d].pgn.blanked =
    true ∧ (∀ k, k ≠ d → s.dscs[k].pgn.blanked = false) ∧ s.dscs[d].pgn.force.getD 0 0 ≤ 16 * ((s.tim.raw + 1) % 2 ^ 64 -
    s.dscs[d].pgn.start) ∧ s.dscs[d].pgn.force.getD 0 0 < s.dscs[d].pgn.on ∧ s.dscs[d].pgn.pccCut = false ∧ s.dscs[d].pgn.cuts + 1 <
    s.rd (F.CMP_OC_CFG_CYCLES d)) ∧
  (∃ (d : Fin 16) (step : Nat) (s : State), s.dscs[d].pgn.force.getD 0 0 ≤ step ∧ step < s.dscs[d].pgn.on ∧ s.dscs[d].pgn.pccCut =
    false ∧ s.dscs[d].pgn.cuts + 1 < s.rd (F.CMP_OC_CFG_CYCLES d)) ∧
  (∃ (d : Fin 16) (step : Nat) (s : State), step < s.dscs[d].pgn.on ∧ s.dscs[d].pgn.winCut = false) ∧
  (∃ (d : Fin 16) (s : State), s.dscs[d].pgn.en = true ∧ s.dscs[d].pgn.winCut = false) ∧
  (∃ (d : Fin 16) (step : Nat) (s : State), step < s.dscs[d].pgn.on ∧ s.dscs[d].pgn.winCut = false) ∧
  (∃ (d : Fin 16) (s : State), s.on (F.CMP_LEVEL_OVP d) = true ∧ s.flt.active.contains (32 + d.1) = false ∧ s.classOf (32 + d.1) = 4 ∧
    s.rd F.FLT_STATUS_STATE < 2 ∧ s.bursts = []) ∧
  (∃ (d : Fin 16) (s : State), s.on (F.CMP_LEVEL_OVP d) = false) ∧
  (∃ (d : Fin 16) (s : State), s.flt.active.contains (32 + d.1) = false) ∧
  (∃ (d : Fin 16) (s : State), s.selfChecking d = false ∧ s.dscMode d = 0) ∧
  (∃ (d : Fin 16) (s : State), s.selfChecking d = false ∧ s.dscMode d ≠ 0) ∧
  (∃ (d : Fin 16) (fails : Nat) (s : State), s.selfChecking d = true ∧ fails % 16 = 0) ∧
  (∃ (d : Fin 16) (fails : Nat) (s : State), s.selfChecking d = true ∧ fails % 16 ≠ 0 ∧ s.classOf (80 + d.1) < 2) ∧
  (∃ (d : Fin 16) (s : State), s.dscs[d].stageFlt = true ∧ s.classOf (64 + d.1) < 2 ∧ s.ramping d = false) ∧
  (∃ (d : Fin 16) (s : State), s.dscs[d].stageFlt = true ∧ s.classOf (64 + d.1) < 2 ∧ s.ramping d = true) ∧
  (∃ (d : Fin 16) (s : State), s.dscs[d].stageFlt = false) :=
  ⟨⟨1, pgn (fun _ => inPeriod) (chn 0), by decide +kernel⟩,
    ⟨1, pgn (fun _ => inPeriod) (set [(F.PGN_STATUS_N 1, 100), (F.PGN_LIM_MIN_ON 1, 3)] (chn 1)), by decide +kernel⟩,
    ⟨1, .reset, by decide +kernel⟩,
    ⟨1, 3, pgn (fun _ => inPeriod) (chn 1), by decide +kernel⟩,
    ⟨1,
     timS (fun t => { t with raw := 80 }) (pgn (fun _ => { inPeriod with blanked := true }) (set [(F.CMP_OC_CFG_CYCLES 1, 5)] (chn 1))),
     by decide +kernel⟩,
    ⟨1, 20, pgn (fun _ => inPeriod) (set [(F.CMP_OC_CFG_CYCLES 1, 5)] (chn 1)), by decide +kernel⟩,
    ⟨1, 20, pgn (fun _ => inPeriod) (chn 1), by decide +kernel⟩,
    ⟨1, pgn (fun _ => inPeriod) (chn 1), by decide +kernel⟩,
    ⟨1, 20, pgn (fun _ => inPeriod) (chn 1), by decide +kernel⟩,
    ⟨1, set [(F.CMP_LEVEL_OVP 1, 1)] (chn 1), by decide +kernel⟩,
    ⟨1, chn 1, by decide +kernel⟩,
    ⟨1, set [(F.CMP_LEVEL_OVP 1, 1)] (chn 1), by decide +kernel⟩,
    ⟨1, chn 0, by decide +kernel⟩,
    ⟨1, chn 1, by decide +kernel⟩,
    ⟨1, 16, set [(F.CMP_ST_CTRL_GO 1, 1)] (chn 0), by decide +kernel⟩,
    ⟨1, 5, set [(F.CMP_ST_CTRL_GO 1, 1)] (chn 0), by decide +kernel⟩,
    ⟨1, cls 65 1 (pgn (fun _ => inPeriod) (dsc (fun k => { k with stageFlt := true }) (chn 1))), by decide +kernel⟩,
    ⟨1, cls 65 1 (fl (fun k => { k with ramping := [1, 4] }) (dsc (fun k => { k with stageFlt := true }) (chn 1))), by decide +kernel⟩,
    ⟨1, chn 1, by decide +kernel⟩⟩

/-- The hypotheses of every clause of LoopSamples can be met. -/
theorem witness_LoopSamples :
  (∃ (d : Fin 16) (s : State), s.dscBound d = true ∧ s.sampleDue d = true ∧ s.dscMode d = 0 ∧ s.selfChecking d = false ∧ s.ramping d =
    false ∧ s.dscs[d].cmds = [] ∧ s.dscs[d].req = none ∧ s.dscs[d].commit = false ∧ s.dscs[d].pass = none ∧ s.dscs[d].overI < 3 ∧
    s.flt.active.contains (48 + d.1) = false ∧ (∀ e : Fin 4, s.rd (F.TRG_SRC_DSC e) ≠ d) ∧ (∀ b : Fin 16, s.rd (F.TRC_CFG_DSC b) ≠ d)) ∧
  (∃ (d : Fin 16) (s : State), s.dscBound d = true ∧ s.sampleDue d = true ∧ s.dscMode d ≠ 0 ∧ s.selfChecking d = false ∧ s.ramping d =
    false ∧ s.fltHeld d = false ∧ s.dscs[d].cmds = [] ∧ s.dscs[d].req = none ∧ s.dscs[d].commit = false ∧ s.dscs[d].pass = none ∧
    s.dscs[d].overI < 3 ∧ s.flt.active.contains (48 + d.1) = false ∧ (∀ e : Fin 4, s.rd (F.TRG_SRC_DSC e) ≠ d)) ∧
  (∃ (d : Fin 16) (s : State), (s.dscBound d = false ∨ s.sampleDue d = false)) ∧
  (∃ (d : Fin 16) (x : DscSamp) (rest : List DscSamp) (s : State), s.dscs[d].wait = x :: rest ∧ s.dscs[d].tune = none ∧ (s.dscMode d =
    1 ∨ s.dscMode d = 2) ∧ s.dscs[d].n ≤ x.no + s.delayD d ∧ (∀ b : Fin 16, s.rd (F.TRC_CFG_DSC b) ≠ d)) ∧
  (∃ (d : Fin 16) (x : DscSamp) (rest : List DscSamp) (s : State), s.dscs[d].wait = x :: rest ∧ s.dscs[d].tune = none ∧ (s.dscMode d =
    1 ∨ s.dscMode d = 2) ∧ x.no + s.delayD d < s.dscs[d].n ∧ (∀ b : Fin 16, s.rd (F.TRC_CFG_DSC b) ≠ d)) ∧
  (∃ (d : Fin 16) (s : State), s.dscs[d].wait = []) :=
  ⟨⟨1, chn 0, by decide +kernel⟩,
    ⟨1, chn 1, by decide +kernel⟩,
    ⟨1, .reset, by decide +kernel⟩,
    ⟨1, samp1, [], dsc (fun k => { k with wait := [samp1], n := 8 }) (chn 1), by decide +kernel⟩,
    ⟨1, samp1, [], dsc (fun k => { k with wait := [samp1], n := 12 }) (chn 2), by decide +kernel⟩,
    ⟨1, chn 1, by decide +kernel⟩⟩

/-- The hypotheses of every clause of TaskLife can be met. -/
theorem witness_TaskLife :
  (∃ (c : Fin 8) (s : State), commitStatus s.sched.hasFree (s.staged c) = 0) ∧
  (∃ (c : Fin 8) (s : State), commitStatus s.sched.hasFree (s.staged c) ≠ 0) ∧
  (∃ (h : Hdr) (d : TaskDesc) (s : State), s.canBegin h 0x30 ∧ commitStatus s.sched.hasFree d = 0) ∧
  (∃ (h : Hdr) (d : TaskDesc) (s : State), s.canBegin h 0x30 ∧ commitStatus s.sched.hasFree d ≠ 0) ∧
  (∃ (h : Hdr) (handle : Nat) (slot : Nat) (t : Task) (s : State), s.canBegin h 0x31 ∧ handle < 2 ^ 20 ∧ s.sched.named handle = some t
    ∧ slot < t.nslot ∧ t.srcs.getD slot 0 % 64 = 0 ∧ t.slots.getD slot none = none) ∧
  (∃ (h : Hdr) (handle : Nat) (s : State), s.canBegin h 0x31 ∧ handle < 2 ^ 20 ∧ s.sched.named handle = none) ∧
  (∃ (h : Hdr) (handle : Nat) (t : Task) (s : State), s.canBegin h 0x32 ∧ handle < 2 ^ 20 ∧ s.sched.named handle = some t ∧
    t.state.served = false) ∧
  (∃ (h : Hdr) (handle : Nat) (t : Task) (s : State), s.canBegin h 0x32 ∧ handle < 2 ^ 20 ∧ s.sched.named handle = some t ∧
    t.state.served = true) ∧
  (∃ (w : Word) (t : Task) (s : State), s.sched.named (fieldOf w.toNat 0 20) = some t ∧ fieldOf w.toNat 20 2 < t.nslot ∧ t.srcs.getD
    (fieldOf w.toNat 20 2) 0 % 64 = 0 ∧ t.slots.getD (fieldOf w.toNat 20 2) none = none) ∧
  (∃ (c : Fin 8) (w : Word) (t : Task) (s : State), s.sched.named (fieldOf w.toNat 0 20) = some t ∧ t.state = .inService c) ∧
  (∃ (w : Word) (s : State), s.sched.named (fieldOf w.toNat 0 20) = none) ∧
  (∃ (w : Word) (t : Task) (s : State), s.sched.named (fieldOf w.toNat 0 20) = some t ∧ t.state.served = false) ∧
  (∃ (c : Fin 8) (n : Nat) (t : Task) (s : State), s.sched.cores[c].blocked = some n ∧ s.choose c = some t ∧ (∀ k : Fin 8, ∀ m,
    s.sched.cores[k].blocked = some m → n ≤ m)) ∧
  (∃ (c : Fin 8) (n : Nat) (t : Task) (s : State), s.sched.cores[c].blocked = some n ∧ s.choose c = some t ∧ (∀ k : Fin 8, ∀ m,
    s.sched.cores[k].blocked = some m → n ≤ m) ∧ s.classOf 16 < 2) ∧
  (∃ (c : Fin 8) (s : State), s.sched.cores[c].blocked = none) ∧
  (∃ (i : Nat) (t : Task) (s : State), s.sched.taskAt i = some t ∧ i < 4096 ∧ s.classOf 16 < 2) :=
  ⟨⟨1, set [(F.SCH_NEW_WORD 1 2, 77)] .reset, by decide +kernel⟩,
    ⟨1, set [(F.SCH_NEW_WORD 1 0, 1017 + 2 ^ 24)] .reset, by decide +kernel⟩,
    ⟨hd, ⟨9, 1, 0, 0x1000, 77, [0], 0⟩, cmd 0x30 .reset, (by simp only [State.canBegin]; decide +kernel)⟩,
    ⟨hd, ⟨9, 5, 0, 0x1000, 77, [0], 0⟩, cmd 0x30 .reset, (by simp only [State.canBegin]; decide +kernel)⟩,
    ⟨hd, 3 + 2 * 4096, 0, tk, withTask tk (cmd 0x31 .reset), (by simp only [State.canBegin]; decide +kernel)⟩,
    ⟨hd, 3 + 3 * 4096, withTask tk (cmd 0x31 .reset), (by simp only [State.canBegin]; decide +kernel)⟩,
    ⟨hd, 3 + 2 * 4096, tk, withTask tk (cmd 0x32 .reset), (by simp only [State.canBegin]; decide +kernel)⟩,
    ⟨hd, 3 + 2 * 4096, tkS, withTask tkS (cmd 0x32 .reset), (by simp only [State.canBegin]; decide +kernel)⟩,
    ⟨3 + 2 * 4096, tk, withTask tk (set [(F.SCH_FILL_VAL_LO 1, 55)] .reset), by decide +kernel⟩,
    ⟨1, 3 + 2 * 4096, tkS, withTask tkS .reset, by decide +kernel⟩,
    ⟨3 + 3 * 4096, withTask tkS .reset, by decide +kernel⟩,
    ⟨3 + 2 * 4096, tk, withTask tk .reset, by decide +kernel⟩,
    ⟨1, 5, tkR, core (fun k => { k with blocked := some 5 }) (withTask tkR .reset), by decide +kernel⟩,
    ⟨1, 5, tkR, core (fun k => { k with blocked := some 5 }) (withTask tkR .reset), by decide +kernel⟩,
    ⟨1, withTask tkR .reset, by decide +kernel⟩,
    ⟨3, tk, cls 16 1 (withTask tk .reset), by decide +kernel⟩⟩

/-- The hypotheses of every clause of SiteCores can be met. -/
theorem witness_SiteCores :
  (∃ (c : Fin 8) (s : State), s.wdogDue c = true ∧ s.rd (F.SCH_NMI_CAUSE_CAUSE c) = 0 ∧ s.classOf 17 < 2) ∧
  (∃ (c : Fin 8) (s : State), s.wdogDue c = false) ∧
  (∃ (c : Fin 8) (user : Bool) (off : Nat) (bytes : Nat) (s : State), off + bytes ≤ 0x8000000 ∧ ((span off bytes).all fun a =>
    s.corePage c .store user (a / canopyPage)) = true) ∧
  (∃ (c : Fin 8) (user : Bool) (off : Nat) (bytes : Nat) (s : State), off + bytes ≤ 0x8000000 ∧ ((span off bytes).all fun a =>
    s.corePage c .load user (a / canopyPage)) = true) ∧
  (∃ (c : Fin 8) (kind : CoreAccess) (user : Bool) (off : Nat) (bytes : Nat) (s : State), off + bytes ≤ 0x8000000 ∧ ((span off
    bytes).all fun a => s.corePage c kind user (a / canopyPage)) = false) ∧
  (∃ (addr : Nat), addr < 0x1000000) :=
  ⟨⟨1, timS (fun k => { k with raw := 4000000 }) (set [(F.SCH_WDOG_US 1, 5000)] .reset), by decide +kernel⟩,
    ⟨1, .reset, by decide +kernel⟩,
    ⟨1, false, 256 * canopyPage + 8, 4,
     ({ State.reset with forest := { State.reset.forest with regions := [(0, 256, 0), (256, 64, 3), (320, 1728, 4)] } }),
     by decide +kernel⟩,
    ⟨1, false, 256 * canopyPage + 8, 4, .reset, by decide +kernel⟩,
    ⟨1, .store, false, 8, 4, .reset, by decide +kernel⟩,
    ⟨64, by decide +kernel⟩⟩

/-- The hypotheses of every clause of HostQueues can be met. -/
theorem witness_HostQueues :
  (∃ (q : Fin 16) (tail : Nat) (s : State), s.on (F.HQ_SQ_CFG_EN q) = true ∧ s.hq.queues[q].stopped = false ∧ tail % 4096 < s.sqSize
    q) ∧
  (∃ (q : Fin 16) (tail : Nat) (s : State), s.on (F.HQ_SQ_CFG_EN q) = true ∧ s.hq.queues[q].stopped = false ∧ s.sqSize q ≤ tail %
    4096) ∧
  (∃ (q : Fin 16) (head : Nat) (s : State), s.on (F.HQ_CQ_CFG_EN q) = true ∧ head % 4096 < s.cqSize q) ∧
  (∃ (q : Fin 16) (l : List Byte) (s : State), s.turn = some q ∧ s.hq.d3 = false ∧ s.epReset = false ∧ s.hq.inFlight.length < 512 ∧
    (leAt l 0 1 < 0x40 ∨ s.on F.SEC_STATUS_ST_DONE = true) ∧ s.entryRefusal l = none ∧ (s.hq.inFlight.any fun f => f.hdr.tag == leAt l
    2 2 % 512 && f.hdr.epoch == fieldOf (leAt l 2 2) 9 6) = false) ∧
  (∃ (q : Fin 16) (l : List Byte) (st : Nat) (s : State), s.turn = some q ∧ s.hq.d3 = false ∧ s.epReset = false ∧ s.hq.inFlight.length
    < 512 ∧ (leAt l 0 1 < 0x40 ∨ s.on F.SEC_STATUS_ST_DONE = true) ∧ s.entryRefusal l = some st ∧ (s.hq.inFlight.any fun f =>
    f.hdr.tag == leAt l 2 2 % 512 && f.hdr.epoch == fieldOf (leAt l 2 2) 9 6) = false) ∧
  (∃ (q : Fin 16) (s : State), s.turn = some q ∧ s.hq.d3 = false ∧ s.epReset = false ∧ s.hq.inFlight.length < 512) ∧
  (∃ (h : Hdr) (f : InFlight) (s : State), (s.hq.inFlight.find? fun f => sameHdr f.hdr h && [0x10, 0x11, 0x13, 0x41, 0x43,
    0x44].contains f.opc) = some f ∧ f.begun = false ∧ (s.hq.compls.any fun c => sameHdr c.hdr h && !c.intake) = false) ∧
  (∃ (q : Fin 16) (c : Compl) (s : State), (s.hq.compls.find? fun c => c.hdr.q == q) = some c ∧ s.hq.d3 = false ∧ s.epReset = false ∧
    s.on (F.HQ_CQ_CFG_EN q) = true ∧ (c.intake = true ∨ s.tagEpoch c.hdr.tag = some c.hdr.epoch) ∧ s.hq.queues[q].hold = false ∧
    s.cqFull q = false) ∧
  (∃ (q : Fin 16) (c : Compl) (s : State), (s.hq.compls.find? fun c => c.hdr.q == q) = some c ∧ s.hq.d3 = false ∧ s.epReset = false ∧
    s.on (F.HQ_CQ_CFG_EN q) = false) ∧
  (∃ (q : Fin 16) (c : Compl) (s : State), (s.hq.compls.find? fun c => c.hdr.q == q) = some c ∧ s.on (F.HQ_CQ_CFG_EN q) = true ∧
    (c.intake = true ∨ s.tagEpoch c.hdr.tag = some c.hdr.epoch) ∧ s.cqFull q = true) ∧
  (∃ (req : Req) (q : Fin 16) (w : Word) (s : State), s.mayWrite req (F.HQ_SQ_CFG_SIZE q).addr w = true ∧ bitOf w.toNat 16 = true ∧
    s.on (F.HQ_SQ_CFG_EN q) = false ∧ s.on (F.HQ_CQ_CFG_EN q) = true) ∧
  (∃ (req : Req) (q : Fin 16) (w : Word) (s : State), s.mayWrite req (F.HQ_SQ_CFG_SIZE q).addr w = true ∧ bitOf w.toNat 16 = true ∧
    s.on (F.HQ_SQ_CFG_EN q) = false ∧ s.on (F.HQ_CQ_CFG_EN q) = false) ∧
  (∃ (req : Req) (q : Fin 16) (w : Word) (s : State), s.mayWrite req (F.HQ_CQ_CFG_SIZE q).addr w = true ∧ bitOf w.toNat 16 = true ∧
    s.on (F.HQ_CQ_CFG_EN q) = false) ∧
  (∃ (q : Fin 16) (s : State), s.rd (F.HQ_CQ_TIME_US q) ≠ 0 ∧ s.hq.queues[q].unsignalled ≠ 0 ∧ s.on (msixCtrl q) = false ∧ s.hq.d3 =
    false ∧ s.epReset = false) ∧
  (∃ (q : Fin 16) (s : State), s.hq.queues[q].unsignalled = 0) ∧
  (∃ (s : State), s.hq.vecPending = 0) :=
  ⟨⟨2, 4096 + 9, que, by decide +kernel⟩,
    ⟨2, 16, que, by decide +kernel⟩,
    ⟨2, 9, qp (fun k => { k with hold := true }) que, by decide +kernel⟩,
    ⟨2, entry 0, que, by decide +kernel⟩,
    ⟨2, entry 1, stRoleDenied, que, by decide +kernel⟩,
    ⟨2, que, by decide +kernel⟩,
    ⟨hd, ⟨hd, 0x10, 4, false, false, false, false⟩, cmd 0x10 .reset, by decide +kernel⟩,
    ⟨2, co, withCompl que, by decide +kernel⟩,
    ⟨2, co, set [(F.HQ_CQ_CFG_EN 2, 0)] (withCompl que), by decide +kernel⟩,
    ⟨2, co, qp (fun k => { k with cqHead := 1 }) (withCompl que), by decide +kernel⟩,
    ⟨.host 9, 2, 0x10009, set [(F.HQ_SQ_CFG_EN 2, 0)] que, by decide +kernel⟩,
    ⟨.host 9, 2, 0x10009, .reset, by decide +kernel⟩,
    ⟨.core 1, 2, 0x5019999, .reset, by decide +kernel⟩,
    ⟨2, qp (fun k => { k with unsignalled := 3 }) (set [(F.HQ_CQ_TIME_US 2, 9), (msixCtrl 2, 0)] que), by decide +kernel⟩,
    ⟨2, que, by decide +kernel⟩,
    ⟨{ que with hq := { que.hq with d3 := true } }, by decide +kernel⟩⟩

/-- The hypotheses of every clause of MemoryWindows can be met. -/
theorem witness_MemoryWindows :
  (∃ (off : Nat) (data : List Byte) (s : State), (∀ i, i < data.length → s.canopyWriteReason (off + i) = none)) ∧
  (∃ (off : Nat) (r : Nat) (s : State), s.canopyWriteReason off = some r ∧ r ≠ 2 ∧ s.hq.pwf.length < 16) ∧
  (∃ (s : State), s.hq.pwf.length < 16) ∧
  (∃ (off : Nat) (data : List Byte) (s : State), (∀ i, i < data.length → s.sdramWriteReason (s.rd F.HQ_SDRAM_PAGE_PAGE * 2 ^ 32 + off
    + i) = none)) ∧
  (∃ (off : Nat) (r : Nat) (s : State), s.sdramWriteReason (s.rd F.HQ_SDRAM_PAGE_PAGE * 2 ^ 32 + off) = some r ∧ s.hq.pwf.length < 16) ∧
  (∃ (s : State), s.rd F.SEC_STATUS_HOST_ROLE ≠ 0) ∧
  (∃ (s : State), s.rd F.SEC_STATUS_HOST_ROLE = 0) :=
  ⟨⟨300 * canopyPage - 3, [1, 2, 3, 4, 5], set [(F.STR_REGION_HOST_RIGHTS 1, 2)] (oper .reset), by decide +kernel⟩,
    ⟨64, 6, .reset, by decide +kernel⟩,
    ⟨.reset, by decide +kernel⟩,
    ⟨64, [1, 2, 3], sdr (oper .reset), by decide +kernel⟩,
    ⟨64, 3, oper .reset, by decide +kernel⟩,
    ⟨sdr (oper .reset), by decide +kernel⟩,
    ⟨.reset, by decide +kernel⟩⟩

/-- The hypotheses of every clause of RegisterAccesses can be met. -/
theorem witness_RegisterAccesses :
  (∃ (req : Req) (w : Word) (s : State), s.mayStore req 0x50000 w = true ∧ s.rd F.GLB_BOOT_STAT_STAGE ≠ 3 ∧ s.on F.FAB_CTRL_LOCK =
    false) ∧
  (∃ (req : Req) (w : Word) (s : State), s.mayStore req 0x50000 w = true ∧ s.rd F.GLB_BOOT_STAT_STAGE ≠ 3 ∧ s.on F.FAB_CTRL_LOCK =
    true) ∧
  (∃ (req : Req) (w : Word) (s : State), s.mayStore req 0x10000 w = true ∧ s.rd F.GLB_BOOT_STAT_STAGE ≠ 3) ∧
  (∃ (req : Req) (w : Word) (k : Nat) (s : State), s.mayStore req 0x10050 w = true ∧ s.rd F.GLB_BOOT_STAT_STAGE ≠ 3 ∧ bitOf
    Ev.str.layout k = true) ∧
  (∃ (req : Req) (w : Word) (s : State), s.mayStore req 0x10054 w = true ∧ s.rd F.GLB_BOOT_STAT_STAGE ≠ 3) ∧
  (∃ (req : Req) (e : Fin 4) (w : Word) (s : State), s.mayStore req (F.TRG_QTIME_LO_T e).hi.addr w = true ∧ s.rd F.GLB_BOOT_STAT_STAGE
    ≠ 3) ∧
  (∃ (id : Nat) (addr : Nat) (w : Word) (s : State), addr % 4 = 0 ∧ addr + 4 ≤ 2 ^ 24 ∧ s.mayStore (.host id) addr w = false ∧
    s.hq.pwf.length < 16) ∧
  (∃ (s : State), s.hq.pwf.length < 16) ∧
  (∃ (c : Fin 8) (addr : Nat) (w : Word) (s : State), addr % 4 = 0 ∧ addr + 4 ≤ 2 ^ 24 ∧ s.mayStore (.core c) addr w = false) ∧
  (∃ (req : Req) (w : Word) (s : State), s.mayStore req (F.FAB_CTRL_LOCK).addr w = true ∧ s.rd F.GLB_BOOT_STAT_STAGE ≠ 3 ∧ s.on
    F.FAB_CTRL_LOCK = false ∧ w.getLsbD 8 = true) ∧
  (∃ (req : Req) (w : Word) (s : State), s.mayStore req (F.FAB_CTRL_LOCK).addr w = true ∧ s.rd F.GLB_BOOT_STAT_STAGE ≠ 3 ∧ s.on
    F.FAB_CTRL_LOCK = true) ∧
  (∃ (req : Req) (e : Fin 4) (w : Word) (s : State), s.mayStore req (F.TRG_QTIME_LO_T e).addr w = true ∧ s.rd F.GLB_BOOT_STAT_STAGE ≠
    3) ∧
  (∃ (req : Req) (e : Fin 4) (s : State), s.rd F.GLB_BOOT_STAT_STAGE ≠ 3 ∧ s.latchedWord req (F.TRG_LAST_LO_TIME e).addr = none) :=
  ⟨⟨.host 9, 0x12345601, up (oper .reset), by decide +kernel⟩,
    ⟨.host 9, 0x12345601, set [(F.FAB_CTRL_LOCK, 1)] (up (oper .reset)), by decide +kernel⟩,
    ⟨.host 9, 0x1234, up (oper .reset), by decide +kernel⟩,
    ⟨.host 9, 3, 1, set [(Ev.str.bits, 3)] (up (oper .reset)), by decide +kernel⟩,
    ⟨.host 9, 0xFFFFFFFF, up (oper .reset), by decide +kernel⟩,
    ⟨.host 9, 1, 0x1234, up (oper .reset), by decide +kernel⟩,
    ⟨9, 0x10054, 1, up .reset, by decide +kernel⟩,
    ⟨up .reset, by decide +kernel⟩,
    ⟨1, 0x120, 1, core (fun k => { k with machineMode := false }) .reset, by decide +kernel⟩,
    ⟨.host 9, 0x101, up (offi .reset), by decide +kernel⟩,
    ⟨.core 1, 0x1, set [(F.FAB_CTRL_LOCK, 1)] (up .reset), by decide +kernel⟩,
    ⟨.core 1, 1, 0x101, up .reset, by decide +kernel⟩,
    ⟨.host 9, 1, set [(F.TRG_LAST_LO_TIME 1, 5), ((F.TRG_LAST_LO_TIME 1).hi, 6)] (up .reset), by decide +kernel⟩⟩

/-- The hypotheses of every clause of RefusedWritesChangeNothing can be met. -/
theorem witness_RefusedWritesChangeNothing :
  (∃ (c : Instr) (id : Nat) (a : Nat) (w : Word) (s : State), writeOf c = some (.host id, a, w) ∧ s.hostMayWrite a w = false ∧
    s.hq.pwf.length < 16) ∧
  (∃ (c : Instr) (k : Fin 8) (a : Nat) (w : Word), writeOf c = some (.core k, a, w) ∧ soOnly a w = true) ∧
  (∃ (c : Instr) (a : Nat) (w : Word), writeOf c = some (.sideband, a, w) ∧ a ≠ 0xF8400 ∧ a ≠ 0xF8500) :=
  ⟨⟨.pecGo (.host 9) 2 1, 9, (F.PEC_CMD_GO 2).addr, 1, .reset, by decide +kernel⟩,
    ⟨.timingTableWrite (.core 1) (F.FLT_FORCE_FORCE 1).addr 1, 1, (F.FLT_FORCE_FORCE 1).addr, 1, by decide +kernel⟩,
    ⟨.pecGo .sideband 2 1, (F.PEC_CMD_GO 2).addr, 1, by decide +kernel⟩⟩

/-- The hypotheses of every clause of SharedTime can be met. -/
theorem witness_SharedTime :
  (∃ (req : Req) (w : Word) (s : State), s.mayWrite req F.TIM_RATE_RATE.addr w = true) ∧
  (∃ (r : Int) (edge : Nat) (s : State), s.tim.ratePend = some (r, edge) ∧ edge ≤ s.tim.raw) ∧
  (∃ (r : Int) (edge : Nat) (s : State), s.tim.ratePend = some (r, edge) ∧ s.tim.raw < edge) ∧
  (∃ (s : State), s.tim.ratePend = none) ∧
  (∃ (req : Req) (w : Word) (s : State), s.mayWrite req F.TIM_STEP_LO_STEP.hi.addr w = true ∧ s.tim.stepped = false ∧ s.rd
    F.TIM_STATUS_STATE = 0 ∧ s.pointsPending = false) ∧
  (∃ (req : Req) (w : Word) (s : State), s.mayWrite req F.TIM_STEP_LO_STEP.hi.addr w = true ∧ (s.tim.stepped = true ∨ s.rd
    F.TIM_STATUS_STATE ≠ 0)) ∧
  (∃ (v : Int) (edge : Nat) (s : State), s.tim.stepPend = some (v, edge) ∧ edge ≤ s.tim.raw) ∧
  (∃ (v : Int) (edge : Nat) (s : State), s.tim.stepPend = some (v, edge) ∧ s.tim.raw < edge) ∧
  (∃ (s : State), s.tim.stepPend = none) ∧
  (∃ (req : Req) (w : Word) (s : State), s.mayWrite req F.TIM_CTRL_HOLDOVER.addr w = true ∧ w.getLsbD 0 = true ∧ s.rd
    F.TIM_STATUS_STATE = 1) ∧
  (∃ (s : State), s.on F.TIM_CTRL_MFL_EN = true ∧ s.laneUp (fin 8 (s.rd F.TIM_MFL_CFG_LANE)) = true ∧ (∀ last, s.tim.reqSlot = some
    last → last + max 1 (s.rd F.TIM_MFL_CFG_PERIOD) ≤ s.tim.raw / 8)) ∧
  (∃ (s : State), s.on F.TIM_CTRL_MFL_EN = false) ∧
  (∃ (last : Nat) (s : State), s.tim.reqSlot = some last ∧ s.tim.raw / 8 < last + max 1 (s.rd F.TIM_MFL_CFG_PERIOD)) ∧
  (∃ (lane : Fin 8) (body : List Byte) (x : InTok) (s : State), s.arrived lane 5 body x ∧ bitOf x.tok 7 = false) ∧
  (∃ (lane : Fin 8) (s : State), (∀ x ∈ s.links.lanes[lane].inbox, x.tok % 16 ≠ 5)) ∧
  (∃ (lane : Fin 8) (body : List Byte) (x : InTok) (s : State), s.arrived lane 5 body x ∧ bitOf x.tok 7 = true ∧ (s.tim.reqT1 = none ∨
    fieldOf x.tok 8 8 ≠ s.tim.reqSeq)) ∧
  (∃ (lane : Fin 8) (body : List Byte) (x : InTok) (t1 : Nat) (s : State), s.arrived lane 5 body x ∧ bitOf x.tok 7 = true ∧
    s.tim.reqT1 = some t1 ∧ fieldOf x.tok 8 8 = s.tim.reqSeq ∧ s.laneUp lane = true ∧ s.rd F.TIM_MFL_CFG_AVG = 0 ∧ s.tim.sumDly = 0 ∧
    s.tim.results = 0 ∧ s.on F.TIM_CTRL_AUTO_HOLD = false) :=
  ⟨⟨.core 1, 0xFFFFFFF0, .reset, by decide +kernel⟩,
    ⟨5, 3200, timS (fun t => { t with ratePend := some (5, 3200), rate := 2, raw := 4000 }) .reset, by decide +kernel⟩,
    ⟨5, 3200, timS (fun t => { t with ratePend := some (5, 3200), raw := 3000 }) .reset, by decide +kernel⟩,
    ⟨.reset, by decide +kernel⟩,
    ⟨.core 1, 5, .reset, by decide +kernel⟩,
    ⟨.core 1, 5, timS (fun t => { t with stepped := true }) .reset, by decide +kernel⟩,
    ⟨-7, 3200, timS (fun t => { t with stepPend := some (-7, 3200), raw := 4000 }) .reset, by decide +kernel⟩,
    ⟨-7, 3200, timS (fun t => { t with stepPend := some (-7, 3200), raw := 3000 }) .reset, by decide +kernel⟩,
    ⟨.reset, by decide +kernel⟩,
    ⟨.core 1, 5, set [(F.TIM_STATUS_STATE, 1)] .reset, by decide +kernel⟩,
    ⟨set [(F.TIM_CTRL_MFL_EN, 1), (F.TIM_MFL_CFG_LANE, 1)] (lane 2), by decide +kernel⟩,
    ⟨lane 2, by decide +kernel⟩,
    ⟨500, timS (fun t => { t with reqSlot := some 500, raw := 4008 }) .reset, by decide +kernel⟩,
    ⟨1, timBody false 9 0, inTok (timBody false 9 0), lane 2 (fun k => { k with inbox := [inTok (timBody false 9 0)] }),
     (by simp only [State.arrived]; decide +kernel)⟩,
    ⟨1, lane 2, by decide +kernel⟩,
    ⟨1, timBody true 9 0, inTok (timBody true 9 0), lane 2 (fun k => { k with inbox := [inTok (timBody true 9 0)] }),
     (by simp only [State.arrived]; decide +kernel)⟩,
    ⟨1, timBody true 9 100, inTok (timBody true 9 100), 5,
     set [(F.TIM_MFL_CFG_AVG, 0), (F.TIM_CTRL_AUTO_HOLD, 0)] (timS (fun t => { t with reqT1 := some 5, reqSeq := 9, raw := 4000 }) (lane 2 (fun k => { k with inbox := [inTok (timBody true 9 100)] }))),
     (by simp only [State.arrived]; decide +kernel)⟩⟩

/-- The hypotheses of every clause of EthernetFrames can be met. -/
theorem witness_EthernetFrames :
  (∃ (frame : List Byte) (s : State), s.rd F.TIM_ETH_SLOTS_RX ≠ 0 ∧ s.clk.absent = false ∧ 60 ≤ frame.length ∧ frame.length ≤ 2032 ∧
    bitOf (Mem.byte s.canopy (ringSlot (s.rd F.TIM_ETH_RXRING_OFFSET) (s.tim.rxNext % s.rd F.TIM_ETH_SLOTS_RX) + 2)).toNat 0 = true) ∧
  (∃ (frame : List Byte) (s : State), s.rd F.TIM_ETH_SLOTS_RX ≠ 0 ∧ s.clk.absent = false ∧ 60 ≤ frame.length ∧ frame.length ≤ 2032 ∧
    bitOf (Mem.byte s.canopy (ringSlot (s.rd F.TIM_ETH_RXRING_OFFSET) (s.tim.rxNext % s.rd F.TIM_ETH_SLOTS_RX) + 2)).toNat 0 = false) ∧
  (∃ (s : State), s.clk.absent = true) ∧
  (∃ (s : State), s.rd F.TIM_ETH_SLOTS_TX ≠ 0 ∧ s.clk.absent = false ∧ bitOf (Mem.byte s.canopy (ringSlot (s.rd
    F.TIM_ETH_TXRING_OFFSET) (s.tim.txNext % s.rd F.TIM_ETH_SLOTS_TX) + 2)).toNat 0 = true ∧ bitOf (Mem.byte s.canopy (ringSlot (s.rd
    F.TIM_ETH_TXRING_OFFSET) (s.tim.txNext % s.rd F.TIM_ETH_SLOTS_TX) + 2)).toNat 1 = false ∧ bitOf (Mem.byte s.canopy (ringSlot (s.rd
    F.TIM_ETH_TXRING_OFFSET) (s.tim.txNext % s.rd F.TIM_ETH_SLOTS_TX) + 2)).toNat 2 = false) ∧
  (∃ (s : State), s.rd F.TIM_ETH_SLOTS_TX = 0) :=
  ⟨⟨List.replicate 60 7,
     canopyAt [(0x4802, 1)] (set [(F.TIM_ETH_SLOTS_RX, 3), (F.TIM_ETH_RXRING_OFFSET, 0x4000)] (timS (fun t => { t with rxNext := 1 }) .reset)),
     by decide +kernel⟩,
    ⟨List.replicate 60 7, set [(F.TIM_ETH_SLOTS_RX, 3)] .reset, by decide +kernel⟩,
    ⟨clkS (fun k => { k with absent := true }) .reset, by decide +kernel⟩,
    ⟨canopyAt [(0x4800, 61), (0x4802, 1), (0x4810, 9)] (set [(F.TIM_ETH_SLOTS_TX, 3), (F.TIM_ETH_TXRING_OFFSET, 0x4000)] (timS (fun t => { t with txNext := 1 }) .reset)),
     by decide +kernel⟩,
    ⟨.reset, by decide +kernel⟩⟩

/-- The hypotheses of every clause of ClockLossAndReturn can be met. -/
theorem witness_ClockLossAndReturn :
  (∃ (s : State), s.rd F.CLK_STATUS_SRC = 0 ∧ s.clk.frozen = false) ∧
  (∃ (s : State), (s.rd F.CLK_STATUS_SRC = 1 ∨ s.rd F.CLK_STATUS_SRC = 3)) ∧
  (∃ (count : Nat) (s : State), 995 ≤ count ∧ count ≤ 1005 ∧ s.rd F.CLK_STATUS_SRC = 0 ∧ s.clk.fired = false ∧ s.on
    F.CLK_CTRL_FORCE_INT = false) ∧
  (∃ (count : Nat) (s : State), count < 995 ∧ s.rd F.CLK_STATUS_SRC = 0 ∧ s.clk.fired = false ∧ s.clk.seen = true ∧ s.on
    F.CLK_STATUS_OSC_OK = true ∧ s.flt.active.contains 3 = false ∧ s.classOf 3 < 2) ∧
  (∃ (s : State), s.rd F.CLK_STATUS_SRC = 1 ∧ s.on F.TIM_STATUS_UNREF = false) ∧
  (∃ (s : State), s.rd F.CLK_STATUS_SRC ≠ 1) ∧
  (∃ (req : Req) (w : Word) (s : State), s.mayWrite req F.CLK_CTRL_AUTO_RETURN.addr w = true ∧ w.getLsbD 1 = true ∧ w.getLsbD 2 =
    false ∧ s.rd F.CLK_STATUS_SRC = 1 ∧ s.returnWin ≤ s.clk.refWins) ∧
  (∃ (s : State), s.rd F.CLK_STATUS_SRC = 2) ∧
  (∃ (s : State), s.rd F.CLK_STATUS_SRC ≠ 2) ∧
  (∃ (s : State), s.rd F.CLK_STATUS_SRC = 2 ∧ s.clk.locked = true ∧ s.clk.fired = false) ∧
  (∃ (s : State), s.rd F.CLK_STATUS_SRC ≠ 2) ∧
  (∃ (count : Nat) (s : State), 502 < count ∧ count < 65536 ∧ s.rd F.CLK_STATUS_SRC = 0 ∧ s.classOf 4 < 2) ∧
  (∃ (count : Nat), 498 ≤ count ∧ count ≤ 502) ∧
  (∃ (req : Req) (w : Word) (s : State), s.mayWrite req F.CLK_CTRL_FORCE_INT.addr w = true ∧ s.rd F.CLK_STATUS_SRC = 0) ∧
  (∃ (req : Req) (w : Word) (s : State), s.mayWrite req F.CLKOUT_CFG_SRC.addr w = true ∧ clkoutMax (fieldOf w.toNat 0 4) ≤ 200000000 *
    (fieldOf w.toNat 16 16 + 1) ∧ clkoutMax (fieldOf w.toNat 0 4) ≠ 0) ∧
  (∃ (req : Req) (w : Word) (s : State), s.mayWrite req F.CLKOUT_CFG_SRC.addr w = true ∧ 200000000 * (fieldOf w.toNat 16 16 + 1) <
    clkoutMax (fieldOf w.toNat 0 4)) :=
  ⟨⟨.reset, by decide +kernel⟩,
    ⟨set [(F.CLK_STATUS_SRC, 1)] .reset, by decide +kernel⟩,
    ⟨998, .reset, by decide +kernel⟩,
    ⟨900, cls 3 1 (clkS (fun k => { k with seen := true }) (set [(F.CLK_STATUS_OSC_OK, 1)] .reset)), by decide +kernel⟩,
    ⟨set [(F.CLK_STATUS_SRC, 1)] (timS (fun t => { t with oscErr := 12345, raw := 4000 }) .reset), by decide +kernel⟩,
    ⟨.reset, by decide +kernel⟩,
    ⟨.core 1, 2, clkS (fun k => { k with refWins := 900000 }) (set [(F.CLK_STATUS_SRC, 1)] .reset), by decide +kernel⟩,
    ⟨set [(F.CLK_STATUS_SRC, 2)] .reset, by decide +kernel⟩,
    ⟨.reset, by decide +kernel⟩,
    ⟨clkS (fun k => { k with locked := true }) (set [(F.CLK_STATUS_SRC, 2), (F.TMG_STATUS_UNREF, 1), (F.TIM_STATUS_UNREF, 1)] .reset),
     by decide +kernel⟩,
    ⟨.reset, by decide +kernel⟩,
    ⟨600, cls 4 1 .reset, by decide +kernel⟩,
    ⟨501, by decide +kernel⟩,
    ⟨.core 1, 1, .reset, by decide +kernel⟩,
    ⟨.core 1, 3 + 2 ^ 16 * 4, .reset, by decide +kernel⟩,
    ⟨.core 1, 1 + 2 ^ 16 * 4, .reset, by decide +kernel⟩⟩

/-- The hypotheses of every clause of LinkFrames can be met. -/
theorem witness_LinkFrames :
  (∃ (lane : Fin 8) (t : Nat) (r : List Nat) (s : State), s.laneState lane = 1 ∧ s.links.lanes[lane].out = t :: r ∧ t % 16 ≠ 5) ∧
  (∃ (lane : Fin 8) (t : Nat) (r : List Nat) (b : Bulk) (q : List Bulk) (s : State), s.laneState lane = 2 ∧ s.linkLane lane = lane ∧
    s.links.lanes[lane].out = t :: r ∧ t % 16 ≠ 5 ∧ s.links.lanes[lane].nak = none ∧ s.links.lanes[lane].resend = [] ∧
    s.links.lanes[lane].txq = b :: q ∧ b.cls ≠ 1 ∧ 0 < s.links.lanes[lane].credit ∧ s.links.lanes[lane].replay.length < s.fifoFrames
    lane) ∧
  (∃ (lane : Fin 8) (s : State), s.laneState lane ≠ 1 ∧ s.laneState lane ≠ 2) ∧
  (∃ (lane : Fin 8) (s : State), s.laneState lane ≠ 1 ∧ s.laneState lane ≠ 2) ∧
  (∃ (lane : Fin 8) (line : List Byte) (s : State), s.laneState lane = 2 ∧ line.take 2 ≠ frameSync ∧ s.links.lanes[lane].bad < 2 ∧
    s.links.lanes[lane].noSync = 0) ∧
  (∃ (lane : Fin 8) (line : List Byte) (frame : List Byte) (s : State), s.laneState lane = 2 ∧ line.take 2 = frameSync ∧ s.frameOf
    lane line = frame ∧ frame.length = 68 ∧ crc16 (frame.take 22) ≠ leAt frame 22 2 ∧ s.links.lanes[lane].bad < 2) ∧
  (∃ (lane : Fin 8) (line : List Byte) (frame : List Byte) (s : State), s.laneState lane = 2 ∧ line.take 2 = frameSync ∧ s.frameOf
    lane line = frame ∧ s.linkLane lane = lane ∧ frame.length = 68 ∧ crc16 (frame.take 22) = leAt frame 22 2 ∧ leAt (frame.take 22) 0
    16 % 16 = 0 ∧ (fieldOf (leAt (frame.take 22) 16 6) 0 4 = 1 ∨ fieldOf (leAt (frame.take 22) 16 6) 0 4 = 2) ∧ fieldOf (leAt
    (frame.take 22) 16 6) 4 12 = s.links.lanes[lane].rxSeq) ∧
  (∃ (lane : Fin 8) (line : List Byte) (frame : List Byte) (s : State), s.laneState lane = 2 ∧ line.take 2 = frameSync ∧ s.frameOf
    lane line = frame ∧ s.linkLane lane = lane ∧ frame.length = 68 ∧ crc16 (frame.take 22) = leAt frame 22 2 ∧ leAt (frame.take 22) 0
    16 % 16 = 0 ∧ fieldOf (leAt (frame.take 22) 16 6) 0 4 = 1 ∧ fieldOf (leAt (frame.take 22) 16 6) 4 12 ≠ s.links.lanes[lane].rxSeq ∧
    s.links.lanes[lane].gap = false) ∧
  (∃ (lane : Fin 8) (s : State), s.linkLane lane = lane ∧ s.on (F.MFL_MSG_SEND_SEND lane) = false) ∧
  (∃ (lane : Fin 8) (s : State), s.linkLane lane = lane ∧ s.on (F.MFL_MSG_SEND_SEND lane) = true) ∧
  (∃ (lane : Fin 8) (b : Bulk) (r : List Bulk) (s : State), s.links.lanes[s.linkLane lane].rxq = b :: r ∧ b.cls = 1 ∧
    s.links.lanes[s.linkLane lane].msgs.length < 16) ∧
  (∃ (lane : Fin 8) (b : Bulk) (r : List Bulk) (s : State), s.links.lanes[s.linkLane lane].rxq = b :: r ∧ b.cls = 1 ∧
    s.links.lanes[s.linkLane lane].msgs.length = 16) ∧
  (∃ (lane : Fin 8) (m : List Byte) (r : List (List Byte)) (s : State), s.linkLane lane = lane ∧ s.links.lanes[lane].msgs = m :: r ∧
    r.length < 32) ∧
  (∃ (lane : Fin 8) (l : Fin 8) (b : Bulk) (r : List Bulk) (s : State), s.links.lanes[s.linkLane lane].rxq = b :: r ∧ b.cls = 2 ∧ s.rd
    (F.STR_LINK_MODULES l) ≠ 0 ∧ s.rd (F.STR_LINK_ID_LINK_ID l) = leAt b.data 0 4 ∧ (∀ k, k < l → s.rd (F.STR_LINK_MODULES k) = 0) ∧
    leAt b.data 4 1 < 4) ∧
  (∃ (lane : Fin 8) (seq : Nat) (b : Bulk) (x : Bulk) (r : List Bulk) (s : State), (s.links.lanes[s.linkLane lane].rxq.find? fun b =>
    b.cls == 3 && b.seq == seq) = some b ∧ (s.links.lanes[s.linkLane lane].replay.dropWhile fun x => x.seq != seq) = x :: r) ∧
  (∃ (lane : Fin 8) (s : State), (∀ b ∈ s.links.lanes[s.linkLane lane].rxq, b.cls ≠ 3)) :=
  ⟨⟨1, 7, [8], lane 1 (fun k => { k with out := [7, 8], freed := 300 }), by decide +kernel⟩,
    ⟨1, 7, [8], ⟨2, 0, [1, 2]⟩, [],
     lane 2 (fun k => { k with out := [7, 8], freed := 3, txq := [⟨2, 0, [1, 2]⟩], credit := 4, txSeq := 9 }), by decide +kernel⟩,
    ⟨1, .reset, by decide +kernel⟩,
    ⟨1, .reset, by decide +kernel⟩,
    ⟨1, [1], lane 2, by decide +kernel⟩,
    ⟨1, lineOf (List.replicate 68 1), List.replicate 68 1, lane 2, by decide +kernel⟩,
    ⟨1, lineOf (frm 0 (1 + 2 ^ 4 * 9 + 2 ^ 16 * 3 + 2 ^ 24 * 2) [7, 8, 9]), frm 0 (1 + 2 ^ 4 * 9 + 2 ^ 16 * 3 + 2 ^ 24 * 2) [7, 8, 9],
     lane 2 (fun k => { k with rxSeq := 9, bad := 1, gap := true }), by decide +kernel⟩,
    ⟨1, lineOf (frm 0 (1 + 2 ^ 4 * 9 + 2 ^ 16 * 3 + 2 ^ 24 * 2) [7, 8, 9]), frm 0 (1 + 2 ^ 4 * 9 + 2 ^ 16 * 3 + 2 ^ 24 * 2) [7, 8, 9],
     lane 2 (fun k => { k with rxSeq := 8, bad := 1 }), by decide +kernel⟩,
    ⟨1, set [(F.MFL_MSG_TX_DATA 1 3, 5)] (lane 2), by decide +kernel⟩,
    ⟨1, set [(F.MFL_MSG_SEND_SEND 1, 1)] (lane 2), by decide +kernel⟩,
    ⟨1, ⟨1, 3, List.replicate 44 6⟩, [⟨2, 4, []⟩], lane 2 (fun k => { k with rxq := [⟨1, 3, List.replicate 44 6⟩, ⟨2, 4, []⟩] }),
     by decide +kernel⟩,
    ⟨1, ⟨1, 3, List.replicate 44 6⟩, [⟨2, 4, []⟩],
     lane 2 (fun k => { k with rxq := [⟨1, 3, List.replicate 44 6⟩, ⟨2, 4, []⟩], msgs := List.replicate 16 [1] }), by decide +kernel⟩,
    ⟨1, [1], [[2, 3]], lane 2 (fun k => { k with msgs := [[1], [2, 3]] }), by decide +kernel⟩,
    ⟨1, 2, ⟨2, 3, [77, 0, 0, 0, 3] ++ List.replicate 30 6⟩, [],
     (linked 0 .reset).modLane 1 fun k => { k with rxq := [⟨2, 3, [77, 0, 0, 0, 3] ++ List.replicate 30 6⟩] }, by decide +kernel⟩,
    ⟨1, 9, ⟨3, 9, []⟩, ⟨1, 9, [4]⟩, [⟨1, 10, [5]⟩],
     lane 2 (fun k => { k with rxq := [⟨1, 3, []⟩, ⟨3, 9, []⟩], replay := [⟨1, 8, []⟩, ⟨1, 9, [4]⟩, ⟨1, 10, [5]⟩] }), by decide +kernel⟩,
    ⟨1, lane 2 (fun k => { k with rxq := [⟨1, 3, []⟩] }), by decide +kernel⟩⟩

/-- The hypotheses of every clause of LinkTokens can be met. -/
theorem witness_LinkTokens :
  (∃ (lane : Fin 8) (s : State), s.links.lanes[lane].inbox = []) ∧
  (∃ (lane : Fin 8) (l : Fin 8) (body : List Byte) (x : InTok) (p : Peer) (s : State), s.arrived lane 1 body x ∧ s.entryOf lane x.tok
    = some l ∧ (s.descOn lane l).isSome = true ∧ (s.links.peers.find? fun p => p.link == l.1 && p.pos == ((s.descOn lane l).map
    descPos).getD 4) = some p ∧ fieldOf x.tok 8 8 = p.next % 256 ∧ fieldOf x.tok 16 5 = 0 ∧ fieldOf x.tok 96 4 = 0) ∧
  (∃ (lane : Fin 8) (l : Fin 8) (body : List Byte) (x : InTok) (p : Peer) (s : State), s.arrived lane 1 body x ∧ s.entryOf lane x.tok
    = some l ∧ (s.descOn lane l).isSome = true ∧ (s.links.peers.find? fun p => p.link == l.1 && p.pos == ((s.descOn lane l).map
    descPos).getD 4) = some p ∧ fieldOf x.tok 8 8 ≠ p.next % 256 ∧ s.groveLive (s.entryGrove l) = true ∧ s.classOf 18 < 2) ∧
  (∃ (lane : Fin 8) (l : Fin 8) (body : List Byte) (x : InTok) (b : Burst) (s : State), s.arrived lane 2 body x ∧ s.entryOf lane x.tok
    = some l ∧ s.entryBurst l = some b ∧ b.stage ≠ .armed ∧ b ∈ s.bursts) ∧
  (∃ (lane : Fin 8) (l : Fin 8) (body : List Byte) (x : InTok) (b : Burst) (s : State), s.arrived lane 3 body x ∧ s.entryOf lane x.tok
    = some l ∧ s.entryBurst l = some b ∧ b.stage = .armed ∧ b.startSlot = none ∧ b.ops.mode = 4 ∧ s.leads b = false ∧ bitOf x.tok 40 =
    false ∧ b ∈ s.bursts) ∧
  (∃ (lane : Fin 8) (l : Fin 8) (body : List Byte) (x : InTok) (b : Burst) (s : State), s.arrived lane 3 body x ∧ s.entryOf lane x.tok
    = some l ∧ s.entryBurst l = some b ∧ bitOf x.tok 40 = true) ∧
  (∃ (lane : Fin 8) (body : List Byte) (x : InTok) (s : State), s.arrived lane 4 body x ∧ bitOf x.tok 8 = true ∧ bitOf x.tok 9 = false
    ∧ s.links.fwdIds.contains (fieldOf x.tok 16 16) = false ∧ s.snapRefusal true 0 (fieldOf x.tok 16 16) = 0 ∧ s.reached (fieldOf
    x.tok 64 64) = false) ∧
  (∃ (lane : Fin 8) (body : List Byte) (x : InTok) (s : State), s.arrived lane 4 body x ∧ bitOf x.tok 8 = true ∧
    s.links.fwdIds.contains (fieldOf x.tok 16 16) = true) ∧
  (∃ (lane : Fin 8) (body : List Byte) (x : InTok) (s : State), s.arrived lane 6 body x ∧ s.linkLane lane = lane) ∧
  (∃ (lane : Fin 8) (body : List Byte) (x : InTok) (s : State), s.arrived lane 7 body x ∧ fieldOf x.tok 67 2 = s.bond lane) ∧
  (∃ (lane : Fin 8) (body : List Byte) (x : InTok) (s : State), s.arrived lane 7 body x ∧ fieldOf x.tok 67 2 ≠ s.bond lane) ∧
  (∃ (lane : Fin 8) (body : List Byte) (x : InTok) (s : State), s.arrived lane 8 body x ∧ (∀ l : Fin 8, s.rd (F.STR_LINK_MODULES l) =
    0)) ∧
  (∃ (lane : Fin 8) (l : Fin 8) (body : List Byte) (x : InTok) (s : State), s.arrived lane 8 body x ∧ s.rd (F.STR_LINK_MODULES l) ≠ 0
    ∧ s.rd (F.STR_LINK_ID_LINK_ID l) = descId x.tok ∧ bitOf (s.rd (F.STR_LINK_LANE_MASK l)) lane = true ∧ descMatch (s.ownDesc l)
    x.tok = false) :=
  ⟨⟨1, .reset, by decide +kernel⟩,
    ⟨1, 2, bytesLE 16 (tok 1 (2 ^ 8 * 4 + 2 ^ 64 * 20)), ⟨0, tok 1 (2 ^ 8 * 4 + 2 ^ 64 * 20), 0⟩, { link := 2, pos := 0, next := 4 },
     linked (tok 1 (2 ^ 8 * 4 + 2 ^ 64 * 20)) .reset, (by simp only [State.arrived]; decide +kernel)⟩,
    ⟨1, 2, bytesLE 16 (tok 1 (2 ^ 8 * 9)), ⟨0, tok 1 (2 ^ 8 * 9), 0⟩, { link := 2, pos := 0, next := 4 },
     cls 18 1 (linked (tok 1 (2 ^ 8 * 9)) (run3 .running)), (by simp only [State.arrived]; decide +kernel)⟩,
    ⟨1, 2, bytesLE 16 (tok 2 (2 ^ 8 * 1234)), ⟨0, tok 2 (2 ^ 8 * 1234), 0⟩, bu .granted, linked (tok 2 (2 ^ 8 * 1234)) (run3 .granted),
     (by simp only [State.arrived]; decide +kernel)⟩,
    ⟨1, 2, bytesLE 16 (tok 3 (2 ^ 8 * 1234)), ⟨0, tok 3 (2 ^ 8 * 1234), 0⟩, link1 .armed,
     linked (tok 3 (2 ^ 8 * 1234)) { run3 .armed with bursts := [link1 .armed] }, (by simp only [State.arrived]; decide +kernel)⟩,
    ⟨1, 2, bytesLE 16 (tok 3 (2 ^ 40)), ⟨0, tok 3 (2 ^ 40), 0⟩, bu .armed, linked (tok 3 (2 ^ 40)) (run3 .armed),
     (by simp only [State.arrived]; decide +kernel)⟩,
    ⟨1, bytesLE 16 (tok 4 (2 ^ 8 + 2 ^ 16 * 99 + 2 ^ 64 * 5000)), ⟨0, tok 4 (2 ^ 8 + 2 ^ 16 * 99 + 2 ^ 64 * 5000), 0⟩,
     linked (tok 4 (2 ^ 8 + 2 ^ 16 * 99 + 2 ^ 64 * 5000)) .reset, (by simp only [State.arrived]; decide +kernel)⟩,
    ⟨1, bytesLE 16 (tok 4 (2 ^ 8 + 2 ^ 16 * 99)), ⟨0, tok 4 (2 ^ 8 + 2 ^ 16 * 99), 0⟩,
     (let s := linked (tok 4 (2 ^ 8 + 2 ^ 16 * 99)) .reset; { s with links := { s.links with fwdIds := [99] } }),
     (by simp only [State.arrived]; decide +kernel)⟩,
    ⟨1, bytesLE 16 (tok 6 (2 ^ 8 * 4)), ⟨0, tok 6 (2 ^ 8 * 4), 0⟩,
     timS (fun t => { t with raw := 80 }) (linked (tok 6 (2 ^ 8 * 4)) .reset), (by simp only [State.arrived]; decide +kernel)⟩,
    ⟨1, bytesLE 16 (7 + 2 ^ 8 * 1234 + 2 ^ 64 * 3), ⟨0, 7 + 2 ^ 8 * 1234 + 2 ^ 64 * 3, 0⟩,
     linked (7 + 2 ^ 8 * 1234 + 2 ^ 64 * 3) .reset, (by simp only [State.arrived]; decide +kernel)⟩,
    ⟨1, bytesLE 16 (7 + 2 ^ 67 * 1), ⟨0, 7 + 2 ^ 67 * 1, 0⟩, linked (7 + 2 ^ 67 * 1) .reset,
     (by simp only [State.arrived]; decide +kernel)⟩,
    ⟨1, bytesLE 16 (8 + 2 ^ 8 * 1234), ⟨0, 8 + 2 ^ 8 * 1234, 0⟩, lane 2 (fun k => { k with inbox := [⟨0, 8 + 2 ^ 8 * 1234, 0⟩] }),
     (by simp only [State.arrived]; decide +kernel)⟩,
    ⟨1, 2, bytesLE 16 (8 + 2 ^ 8 * 77 + 2 ^ 40 * 3), ⟨0, 8 + 2 ^ 8 * 77 + 2 ^ 40 * 3, 0⟩, linked (8 + 2 ^ 8 * 77 + 2 ^ 40 * 3) .reset,
     (by simp only [State.arrived]; decide +kernel)⟩⟩

/-- The hypotheses of every clause of LinkStates can be met. -/
theorem witness_LinkStates :
  (∃ (lane : Fin 8) (s : State), (s.laneState lane = 2 ∨ s.laneState lane = 3) ∧ s.entriesOn lane = [] ∧ s.on F.TIM_CTRL_AUTO_HOLD =
    false) ∧
  (∃ (lane : Fin 8) (s : State), s.laneState lane ≠ 2 ∧ s.laneState lane ≠ 3) ∧
  (∃ (lane : Fin 8) (s : State), s.laneState lane = 1 ∧ (∀ k ∈ s.lanesIn lane, s.links.lanes[k].farWidth = some (s.bond lane)) ∧
    s.links.lanes[s.linkLane lane].need = 0) ∧
  (∃ (lane : Fin 8) (k : Fin 8) (s : State), k ∈ s.lanesIn lane ∧ s.links.lanes[k].farWidth ≠ some (s.bond lane)) ∧
  (∃ (lane : Fin 8) (s : State), s.links.lanes[s.linkLane lane].need ≠ 0) ∧
  (∃ (lane : Fin 8) (s : State), s.laneState lane = 1 ∧ 960000 ≤ s.trainTicks lane ∧ s.classOf 19 < 2) ∧
  (∃ (lane : Fin 8) (s : State), (s.laneState lane ≠ 1 ∨ s.trainTicks lane < 960000)) ∧
  (∃ (lane : Fin 8) (s : State), s.laneState lane = 4 ∧ 32000000 ≤ s.trainTicks lane) ∧
  (∃ (lane : Fin 8) (s : State), (s.laneState lane ≠ 4 ∨ s.trainTicks lane < 32000000)) ∧
  (∃ (lane : Fin 8) (s : State), s.laneState lane = 2 ∧ s.on F.MFL_CFG_IDLE_EN = true ∧ s.links.lanes[s.linkLane lane].txq = [] ∧
    s.links.lanes[s.linkLane lane].resend = [] ∧ s.linkBusy lane = false ∧ s.links.lanes[s.linkLane lane].usedAt + 3200 * max 1 (s.rd
    F.MFL_IDLE_US_US) ≤ s.master) ∧
  (∃ (lane : Fin 8) (s : State), (s.on F.MFL_CFG_IDLE_EN = false ∨ s.linkBusy lane = true ∨ s.master < s.links.lanes[s.linkLane
    lane].usedAt + 3200 * max 1 (s.rd F.MFL_IDLE_US_US))) ∧
  (∃ (lane : Fin 8) (s : State), s.laneState lane = 3 ∧ (s.links.lanes[s.linkLane lane].txq ≠ [] ∨ s.linkBusy lane = true)) ∧
  (∃ (lane : Fin 8) (s : State), s.links.lanes[s.linkLane lane].txq = [] ∧ s.linkBusy lane = false ∧ (∀ k ∈ s.lanesIn lane, ∀ t ∈
    s.links.lanes[k].out, t % 16 ≠ 8)) ∧
  (∃ (lane : Fin 8) (fom : Nat) (s : State), (s.laneState lane = 1 ∨ s.laneState lane = 2) ∧ s.rd F.MFL_FOM_CFG_WARN ≤ fom ∧ fom <
    256) ∧
  (∃ (lane : Fin 8) (fom : Nat) (s : State), (s.laneState lane = 1 ∨ s.laneState lane = 2) ∧ fom < s.rd F.MFL_FOM_CFG_WARN ∧
    s.links.lanes[lane].lowWins < 3) ∧
  (∃ (lane : Fin 8) (fom : Nat) (s : State), s.laneState lane = 2 ∧ fom < s.rd F.MFL_FOM_CFG_WARN ∧ fom < s.rd F.MFL_FOM_CFG_RETRAIN ∧
    3 ≤ s.links.lanes[lane].lowWins) ∧
  (∃ (req : Req) (w : Word) (s : State), s.mayWrite req F.MFL_CFG_LANE_EN.addr w = true ∧ s.clk.absent = false ∧ (∀ k, s.laneState k =
    0) ∧ w.toNat < 2 ^ 8) ∧
  (∃ (req : Req) (w : Word) (s : State), s.mayWrite req F.MFL_CFG_LANE_EN.addr w = true ∧ ((∃ k, s.laneState k = 1 ∨ s.laneState k =
    2)) ∧ fieldOf w.toNat 8 2 ≠ s.rd F.MFL_CFG_BOND_A) :=
  ⟨⟨1, lane 2 (fun k => { k with inbox := [⟨0, 7, 0⟩], bad := 2, rxSeq := 5, credit := 6 }), by decide +kernel⟩,
    ⟨1, .reset, by decide +kernel⟩,
    ⟨1, lane 1 (fun k => { k with farWidth := some 0 }), by decide +kernel⟩,
    ⟨1, 1, lane 1, by decide +kernel⟩,
    ⟨1, lane 1 (fun k => { k with need := 3 }), by decide +kernel⟩,
    ⟨1, timS (fun t => { t with raw := 240000 }) (cls 19 1 (lane 1)), by decide +kernel⟩,
    ⟨1, .reset, by decide +kernel⟩,
    ⟨1, timS (fun t => { t with raw := 8000000 }) (lane 4 (fun k => { k with rxSeq := 5, txSeq := 6, replay := [⟨1, 8, []⟩] })),
     by decide +kernel⟩,
    ⟨1, .reset, by decide +kernel⟩,
    ⟨1, timS (fun t => { t with raw := 8000000 }) (set [(F.MFL_CFG_IDLE_EN, 1)] (lane 2)), by decide +kernel⟩,
    ⟨1, lane 2, by decide +kernel⟩,
    ⟨1, lane 3 (fun k => { k with txq := [⟨1, 8, []⟩] }), by decide +kernel⟩,
    ⟨1, lane 3, by decide +kernel⟩,
    ⟨1, 200, lane 2 (fun k => { k with lowWins := 2 }), by decide +kernel⟩,
    ⟨1, 20, set [(F.MFL_FOM_CFG_WARN, 90), (F.MFL_FOM_CFG_RETRAIN, 60)] (lane 2), by decide +kernel⟩,
    ⟨1, 20, set [(F.MFL_FOM_CFG_WARN, 90), (F.MFL_FOM_CFG_RETRAIN, 60)] (lane 2 (fun k => { k with lowWins := 3 })), by decide +kernel⟩,
    ⟨.core 1, 0x35, .reset, by decide +kernel⟩,
    ⟨.core 1, 0x135, lane 2, by decide +kernel⟩⟩

/-- The hypotheses of every clause of SdramRequests can be met. -/
theorem witness_SdramRequests :
  (∃ (addr : Nat) (s : State), s.sdramBytes < addr / 64 * 64 + 64) ∧
  (∃ (addr : Nat) (s : State), addr / 64 * 64 + 64 ≤ s.sdramBytes ∧ s.dmc.reqs = [] ∧ s.dmc.waits = []) ∧
  (∃ (addr : Nat) (data : List Byte) (s : State), addr / 64 * 64 + 64 ≤ s.sdramBytes ∧ s.dmc.reqs = [] ∧ s.dmc.waits = [] ∧
    data.length = 64 ∧ s.dmc.subs[fin 4 (s.sdramMap (addr / 64 * 64)).1].writes.length < 32) ∧
  (∃ (s : State), s.rd F.DMC_STATUS_STATE ≠ 2) ∧
  (∃ (sub : Fin 4) (s : State), s.dmc.subs[sub].alert = true) ∧
  (∃ (sub : Fin 4) (r : DmcReq) (s : State), s.rd F.DMC_STATUS_STATE = 2 ∧ s.dmc.subs[sub].alert = false ∧ s.dmc.subs[sub].down =
    false ∧ s.dmc.subs[sub].due = 0 ∧ s.dmc.subs[sub].cals = 0 ∧ s.dmc.subs[sub].writes = [] ∧ s.dmc.reqs = [r] ∧ r.write = false ∧
    r.issued = none ∧ (s.sdramMap r.addr).1 = sub ∧ s.dmc.subs[sub].row (s.sdramMap r.addr).2.1 = none) ∧
  (∃ (sub : Fin 4) (r : DmcReq) (held : Bool) (s : State), s.rd F.DMC_STATUS_STATE = 2 ∧ s.dmc.subs[sub].alert = false ∧
    s.dmc.subs[sub].down = false ∧ s.dmc.subs[sub].due = 0 ∧ s.dmc.subs[sub].cals = 0 ∧ s.dmc.subs[sub].writes = [] ∧ s.dmc.reqs = [r]
    ∧ r.write = false ∧ r.issued = none ∧ (s.sdramMap r.addr).1 = sub ∧ s.dmc.subs[sub].row (s.sdramMap r.addr).2.1 = some
    ((s.sdramMap r.addr).2.2, held)) ∧
  (∃ (sub : Fin 4) (s : State), s.rd F.DMC_STATUS_STATE = 2 ∧ s.dmc.subs[sub].alert = false ∧ s.dmc.subs[sub].down = false ∧ 4 ≤
    s.dmc.subs[sub].due ∧ s.sdramBurst = false) ∧
  (∃ (port : Fin 6) (r : DmcReq) (s : State), s.dmc.reqs = [r] ∧ r.port = port ∧ r.write = false ∧ r.issued.isSome = true ∧
    s.dmc.subs[fin 4 (s.sdramMap r.addr).1].alert = false ∧ s.dmc.waits = []) ∧
  (∃ (port : Fin 6) (s : State), (∀ r ∈ s.dmc.reqs, r.port = port → r.issued = none)) :=
  ⟨⟨64, .reset, by decide +kernel⟩,
    ⟨100, sdr .reset, by decide +kernel⟩,
    ⟨100, List.replicate 64 9, sdr .reset, by decide +kernel⟩,
    ⟨.reset, by decide +kernel⟩,
    ⟨3, sub3 (fun k => { k with alert := true, due := 4 }) (sdr .reset), by decide +kernel⟩,
    ⟨3, rq, withReq rq (sdr .reset), by decide +kernel⟩,
    ⟨3, rq, false, sub3 (fun k => { k with rows := [(0, 0, false)] }) (withReq rq (sdr .reset)), by decide +kernel⟩,
    ⟨3, sub3 (fun k => { k with rows := [(0, 0, false)], due := 4 }) (withReq rq (sdr .reset)), by decide +kernel⟩,
    ⟨0, { rq with issued := some 3 }, withReq { rq with issued := some 3 } (sdr .reset), by decide +kernel⟩,
    ⟨0, withReq rq (sdr .reset), by decide +kernel⟩⟩

/-- The hypotheses of every clause of SdramUpkeep can be met. -/
theorem witness_SdramUpkeep :
  (∃ (s : State), s.rd F.DMC_STATUS_STATE = 0 ∧ s.clk.absent = false ∧ bitOf (s.rd F.PWR_STATUS_RAIL_GOOD) 1 = true ∧ s.badGeometry =
    false) ∧
  (∃ (s : State), s.rd F.DMC_STATUS_STATE = 0 ∧ s.clk.absent = false ∧ bitOf (s.rd F.PWR_STATUS_RAIL_GOOD) 1 = true ∧ s.badGeometry =
    true) ∧
  (∃ (s : State), (s.rd F.DMC_STATUS_STATE ≠ 0 ∨ s.clk.absent = true ∨ bitOf (s.rd F.PWR_STATUS_RAIL_GOOD) 1 = false)) ∧
  (∃ (s : State), s.rd F.DMC_STATUS_STATE = 1 ∧ s.dmc.fromFailed = false) ∧
  (∃ (step : Nat) (subs : Nat) (s : State), s.rd F.DMC_STATUS_STATE = 1 ∧ 0 < step ∧ step ≤ 8 ∧ subs < 16 ∧ s.classOf 20 < 2) ∧
  (∃ (s : State), s.rd F.DMC_STATUS_STATE ≠ 1) ∧
  (∃ (s : State), s.rd F.DMC_STATUS_STATE = 2 ∧ s.dmc.reqs = [] ∧ (∀ b ∈ s.bursts, s.sdramShare b = false)) ∧
  (∃ (s : State), s.dmc.reqs ≠ []) ∧
  (∃ (s : State), s.rd F.DMC_STATUS_STATE = 2) ∧
  (∃ (s : State), s.rd F.DMC_STATUS_STATE ≠ 2) ∧
  (∃ (s : State), s.classOf 22 < 2) ∧
  (∃ (sub : Fin 4) (s : State), s.rd F.DMC_STATUS_STATE = 2 ∧ s.dmc.subs[sub].alert = false ∧ s.dmc.subs[sub].replay = none) ∧
  (∃ (sub : Fin 4) (r : Nat) (s : State), s.rd F.DMC_STATUS_STATE = 2 ∧ s.dmc.subs[sub].alert = false ∧ s.dmc.subs[sub].replay = some
    r ∧ s.tim.raw < r + alertWindow ∧ max 1 (s.rd F.DMC_REPLAY_CFG_REPLAY_MAX) ≤ s.dmc.subs[sub].failed + 1 ∧ s.classOf 21 < 2) ∧
  (∃ (sub : Fin 4) (s : State), (s.rd F.DMC_STATUS_STATE ≠ 2 ∨ s.dmc.subs[sub].alert = true)) ∧
  (∃ (sub : Fin 4) (s : State), s.dmc.subs[sub].alert = true) ∧
  (∃ (sub : Fin 4) (s : State), s.dmc.subs[sub].alert = false) ∧
  (∃ (sub : Fin 4) (s : State), s.candidates sub = []) ∧
  (∃ (sub : Fin 4) (s : State), s.rd F.DMC_STATUS_STATE = 2 ∧ s.on F.DMC_CTRL_PD_EN = true ∧ s.dmc.reqs = [] ∧ s.dmc.subs[sub].writes
    = [] ∧ s.sdramBurst = false) ∧
  (∃ (s : State), (s.on F.DMC_CTRL_PD_EN = false ∨ s.sdramBurst = true)) :=
  ⟨⟨set [(F.PWR_STATUS_RAIL_GOOD, 2)] .reset, by decide +kernel⟩,
    ⟨set [(F.PWR_STATUS_RAIL_GOOD, 2), (F.DMC_GEOM_DENSITY, 2), (F.DMC_GEOM_RANKS2, 1)] .reset, by decide +kernel⟩,
    ⟨.reset, by decide +kernel⟩,
    ⟨set [(F.DMC_STATUS_STATE, 1)] .reset, by decide +kernel⟩,
    ⟨3, 5, cls 20 1 (set [(F.DMC_STATUS_STATE, 1)] (withReq rq .reset)), by decide +kernel⟩,
    ⟨.reset, by decide +kernel⟩,
    ⟨sdr .reset, by decide +kernel⟩,
    ⟨withReq rq (sdr .reset), by decide +kernel⟩,
    ⟨sub3 (fun k => { k with due := 2 }) (sdr .reset), by decide +kernel⟩,
    ⟨.reset, by decide +kernel⟩,
    ⟨cls 22 1 .reset, by decide +kernel⟩,
    ⟨3,
     timS (fun t => { t with raw := 100 }) (sub3 (fun k => { k with retry := [⟨0, 4, 5, 6, 90, 0⟩, ⟨0, 4, 5, 6, 50, 0⟩] }) (sdr .reset)),
     by decide +kernel⟩,
    ⟨3, 95,
     cls 21 1 (set [(F.DMC_REPLAY_CFG_REPLAY_MAX, 1)] (timS (fun t => { t with raw := 100 }) (sub3 (fun k => { k with replay := some 95 }) (sdr .reset)))),
     by decide +kernel⟩,
    ⟨3, .reset, by decide +kernel⟩,
    ⟨3,
     timS (fun t => { t with raw := 100 }) (sub3 (fun k => { k with alert := true, rows := [(4, 5, false), (6, 5, true)], retry := [⟨0, 4, 5, 6, 90, 0⟩] }) (sdr .reset)),
     by decide +kernel⟩,
    ⟨3, sdr .reset, by decide +kernel⟩,
    ⟨3, sub3 (fun k => { k with rows := [(4, 5, false), (6, 5, true)] }) (sdr .reset), by decide +kernel⟩,
    ⟨3, set [(F.DMC_CTRL_PD_EN, 1)] (sdr .reset), by decide +kernel⟩,
    ⟨set [(F.DMC_CTRL_PD_EN, 0)] (sdr .reset), by decide +kernel⟩⟩

/-- The hypotheses of every clause of InputSupply can be met. -/
theorem witness_InputSupply :
  (∃ (mv : Nat) (ma : Nat) (s : State), s.power.vin = [] ∧ s.rd F.PWR_STATUS_VIN_BAND = 0 ∧ 6000 ≤ mv ∧ mv < 65536 ∧ ma < 65536) ∧
  (∃ (mv : Nat) (s : State), s.power.vin = [] ∧ s.rd F.PWR_STATUS_VIN_BAND = 0 ∧ 5500 ≤ mv ∧ mv < 6000) ∧
  (∃ (mv : Nat) (s : State), mv < 3000 ∧ s.power.present = true ∧ s.power.vstby = true) ∧
  (∃ (s : State), s.rd F.PWR_STATUS_VIN_BAND = 1 ∧ 1000 ≤ s.power.rise[0]) ∧
  (∃ (s : State), ((∀ k : Fin 5, s.power.rise[k] < 1000) ∨ s.rd F.PWR_STATUS_VIN_BAND = 0)) ∧
  (∃ (s : State), s.power.present = true ∧ s.rd F.FLT_STATUS_STATE < 2) ∧
  (∃ (s : State), s.power.present = true ∧ s.rd F.FLT_STATUS_STATE < 2) ∧
  (∃ (s : State), (s.power.present = false ∨ 2 ≤ s.rd F.FLT_STATUS_STATE)) ∧
  (∃ (s : State), s.classOf 8 < 2 ∧ (∀ b ∈ s.bursts, b.stage = .running)) ∧
  (∃ (s : State), s.classOf 6 < 2) ∧
  (∃ (r : Fin 7), r ≠ 6) :=
  ⟨⟨12000, 5000, .reset, by decide +kernel⟩,
    ⟨5700, .reset, by decide +kernel⟩,
    ⟨2900, set [(F.PWR_US_TICK_LO_TICK, 55)] (run3 .running), by decide +kernel⟩,
    ⟨pw (fun p => { p with rise := p.rise.set 0 1000 }) (set [(F.PWR_STATUS_VIN_BAND, 1)] .reset), by decide +kernel⟩,
    ⟨.reset, by decide +kernel⟩,
    ⟨.reset, by decide +kernel⟩,
    ⟨.reset, by decide +kernel⟩,
    ⟨pw (fun p => { p with present := false }) .reset, by decide +kernel⟩,
    ⟨run3 .running, by decide +kernel⟩,
    ⟨cls 6 1 (set [(F.PWR_STATUS_RAIL_GOOD, 0x7F)] .reset), by decide +kernel⟩,
    ⟨2, by decide +kernel⟩⟩

/-- The hypotheses of every clause of ThermalLimits can be met. -/
theorem witness_ThermalLimits :
  (∃ (s : State), s.classOf 7 < 2) ∧
  (∃ (k : Fin 3) (s : State), (s.power.flags[k] = true ∨ s.power.above[k] < 161)) ∧
  (∃ (s : State), s.power.flags[0] = false ∧ s.power.flags[1] = false ∧ s.power.flags[2] = false ∧ 161 ≤ s.power.above[0]) ∧
  (∃ (s : State), s.power.flags[1] = false ∧ s.power.flags[2] = false ∧ 161 ≤ s.power.above[1] ∧ s.waiting = []) ∧
  (∃ (s : State), s.power.flags[2] = false ∧ 161 ≤ s.power.above[2] ∧ s.flt.active.contains 2 = false ∧ s.rd F.FLT_STATUS_STATE < 2) ∧
  (∃ (k : Fin 3) (s : State), (s.power.flags[k] = false ∨ s.power.below[k] < 161)) ∧
  (∃ (s : State), s.power.flags[0] = true ∧ s.power.flags[1] = false ∧ s.power.flags[2] = false ∧ 161 ≤ s.power.below[0]) ∧
  (∃ (s : State), s.power.flags[0] = true ∧ s.power.flags[1] = true ∧ s.power.flags[2] = false ∧ 161 ≤ s.power.below[1]) ∧
  (∃ (s : State), s.power.flags[1] = true ∧ s.power.flags[2] = true ∧ 161 ≤ s.power.below[2]) ∧
  (∃ (s : State), s.on F.PWR_STATUS_LIMIT_TIMER = true ∧ (∀ b ∈ s.bursts, b.stage = .running)) ∧
  (∃ (s : State), s.on F.PWR_STATUS_LIMIT_TIMER = false) :=
  ⟨⟨cls 7 1 .reset, by decide +kernel⟩,
    ⟨1, .reset, by decide +kernel⟩,
    ⟨pw (fun p => { p with above := p.above.set 0 161 }) .reset, by decide +kernel⟩,
    ⟨pw (fun p => { p with above := p.above.set 1 161 }) .reset, by decide +kernel⟩,
    ⟨pw (fun p => { p with above := p.above.set 2 161 }) .reset, by decide +kernel⟩,
    ⟨1, .reset, by decide +kernel⟩,
    ⟨pw (fun p => { p with below := p.below.set 0 161, flags := p.flags.set 0 true }) (set [(F.PWR_STATUS_THERM, 1)] .reset),
     by decide +kernel⟩,
    ⟨pw (fun p => { p with below := p.below.set 1 161, flags := #v[true, true, false] }) (set [(F.PWR_STATUS_THERM, 2), (F.PWR_STATUS_LIMIT_TIMER, 1)] .reset),
     by decide +kernel⟩,
    ⟨fl (fun k => { k with active := [2] }) (pw (fun p => { p with below := p.below.set 2 161, flags := #v[true, true, true] }) (set [(F.PWR_STATUS_THERM, 3)] .reset)),
     by decide +kernel⟩,
    ⟨set [(F.PWR_STATUS_LIMIT_TIMER, 1)] (run3 .running), by decide +kernel⟩,
    ⟨.reset, by decide +kernel⟩⟩

/-- The hypotheses of every clause of PowerSequencing can be met. -/
theorem witness_PowerSequencing :
  (∃ (s : State), s.power.house = false ∧ s.power.present = true ∧ s.power.kept.hot < 460800000000 ∧ s.power.stored.hot < 460800000000
    ∧ s.power.kept.crit < 65536 ∧ s.power.stored.crit < 65536) ∧
  (∃ (s : State), (s.power.house = true ∨ s.power.present = false)) ∧
  (∃ (r : Fin 7) (s : State), s.power.house = true ∧ s.power.cold = false ∧ (∀ k ∈ railOrder.takeWhile (fun k => k != r.1), bitOf
    (s.rd F.PWR_STATUS_RAIL_GOOD) k = true)) ∧
  (∃ (s : State), s.power.house = true ∧ s.power.cold = true ∧ (∀ k ∈ [0, 5, 4, 3, 2], bitOf (s.rd F.PWR_STATUS_RAIL_GOOD) k = true)) ∧
  (∃ (s : State), s.power.house = false) ∧
  (∃ (s : State), s.power.house = true ∧ s.rd F.FLT_STATUS_STATE = 3 ∧ (s.flt.cause = 2 ∨ s.flt.cause = 3)) ∧
  (∃ (s : State), s.power.house = false) ∧
  (∃ (s : State), s.power.present = true ∧ s.rd F.FLT_STATUS_STATE ≠ 3) ∧
  (∃ (s : State), s.flt.resetLow = false) ∧
  (∃ (s : State), s.flt.resetLow = true) ∧
  (∃ (level : Bool) (s : State), level = !s.flt.resetLow) ∧
  (∃ (s : State), (s.power.present = true ∨ s.power.vstby = true)) ∧
  (∃ (s : State), s.power.present = false ∧ s.power.vstby = false) ∧
  (∃ (s : State), s.power.present = true) ∧
  (∃ (s : State), s.power.present = false) ∧
  (∃ (s : State), s.on F.CMP_RESID_CFG_EN = true ∧ s.power.present = false ∧ s.power.vstby = true) ∧
  (∃ (s : State), (s.on F.CMP_RESID_CFG_EN = false ∨ s.power.present = true)) :=
  ⟨⟨pw (fun p => { p with house := false, kept := { hot := 7, crit := 3 }, stored := { hot := 9, crit := 2 } }) .reset,
     by decide +kernel⟩,
    ⟨.reset, by decide +kernel⟩,
    ⟨4, set [(F.PWR_STATUS_RAIL_GOOD, 0x61)] .reset, by decide +kernel⟩,
    ⟨pw (fun p => { p with cold := true }) (set [(F.PWR_STATUS_RAIL_GOOD, 0x7D)] (run3 .running)), by decide +kernel⟩,
    ⟨pw (fun p => { p with house := false }) .reset, by decide +kernel⟩,
    ⟨fl (fun k => { k with cause := 2 }) (set [(F.FLT_STATUS_STATE, 3)] .reset), by decide +kernel⟩,
    ⟨pw (fun p => { p with house := false }) .reset, by decide +kernel⟩,
    ⟨.reset, by decide +kernel⟩,
    ⟨run3 .running, by decide +kernel⟩,
    ⟨fl (fun k => { k with resetLow := true }) (run3 .running), by decide +kernel⟩,
    ⟨true, .reset, by decide +kernel⟩,
    ⟨.reset, by decide +kernel⟩,
    ⟨pw (fun p => { p with present := false, vstby := false }) .reset, by decide +kernel⟩,
    ⟨.reset, by decide +kernel⟩,
    ⟨pw (fun p => { p with present := false }) (set [(F.PWR_US_TICK_LO_TICK, 9)] .reset), by decide +kernel⟩,
    ⟨pw (fun p => { p with present := false }) (set [(F.CMP_RESID_CFG_EN, 1), (F.CMP_RESID_STAT_SEEN, 2), (F.PWR_US_TICK_LO_TICK, 9)] .reset),
     by decide +kernel⟩,
    ⟨.reset, by decide +kernel⟩⟩

/-- The hypotheses of every clause of FaultCollector can be met. -/
theorem witness_FaultCollector :
  (∃ (i : Fin 96) (s : State), sourceExists i = true ∧ dualSource i = false ∧ s.classOf i = 0) ∧
  (∃ (i : Fin 96) (s : State), sourceExists i = true ∧ dualSource i = false ∧ s.classOf i = 1 ∧ s.latched i = false) ∧
  (∃ (i : Fin 96) (s : State), sourceExists i = true ∧ dualSource i = false ∧ s.classOf i = 3 ∧ s.rd F.FLT_STATUS_STATE = 0) ∧
  (∃ (i : Fin 96) (s : State), sourceExists i = true ∧ dualSource i = false ∧ s.classOf i = 4 ∧ s.rd F.FLT_STATUS_STATE < 2) ∧
  (∃ (src : Nat), (sourceExists src = false ∨ dualSource src = true)) ∧
  (∃ (src : Nat) (s : State), dualSource src = true ∧ s.flt.active.contains src = false) ∧
  (∃ (src : Nat) (s : State), dualSource src = true ∧ s.flt.active.contains src = true) ∧
  (∃ (src : Nat), dualSource src = true) ∧
  (∃ (src : Nat), dualSource src = false) ∧
  (∃ (src : Nat), dualSource src = true) ∧
  (∃ (s : State), s.rd F.FLT_STATUS_STATE < 2) ∧
  (∃ (s : State), s.rd F.FLT_STATUS_STATE < 2) ∧
  (∃ (req : Req) (i : Fin 8) (w : Word) (s : State), s.mayWrite req (F.FLT_FORCE_FORCE i).addr w = true ∧ s.on F.FLT_CTRL_TEST_EN =
    false) ∧
  (∃ (req : Req) (k : Fin 96) (s : State), s.mayWrite req (F.FLT_FORCE_FORCE (k / 32)).addr (BitVec.ofNat 32 (2 ^ (k.1 % 32))) = true
    ∧ s.on F.FLT_CTRL_TEST_EN = true ∧ (∀ j : Fin 8, s.rd (F.FLT_FORCE_FORCE j) = 0) ∧ sourceExists k = true ∧ dualSource k = false ∧
    s.classOf k = 0) ∧
  (∃ (s : State), s.healthy = true) ∧
  (∃ (s : State), s.healthy = false) :=
  ⟨⟨9, set [(F.FLT_CLASS_CLASS 2, 0)] .reset, by decide +kernel⟩,
    ⟨9, cls 9 1 .reset, by decide +kernel⟩,
    ⟨9, cls 9 3 (run3 .running), by decide +kernel⟩,
    ⟨9, cls 9 4 (run3 .running), by decide +kernel⟩,
    ⟨30, by decide +kernel⟩,
    ⟨33, .reset, by decide +kernel⟩,
    ⟨33, fl (fun k => { k with active := [33] }) .reset, by decide +kernel⟩,
    ⟨33, by decide +kernel⟩,
    ⟨9, by decide +kernel⟩,
    ⟨33, by decide +kernel⟩,
    ⟨.reset, by decide +kernel⟩,
    ⟨.reset, by decide +kernel⟩,
    ⟨.host 9, 1, 5, offi .reset, by decide +kernel⟩,
    ⟨.host 9, 9, set [(F.FLT_CTRL_TEST_EN, 1)] (offi .reset), by decide +kernel⟩,
    ⟨fl (fun k => { k with checked := true }) .reset, by decide +kernel⟩,
    ⟨fl (fun k => { k with heartbeat := true }) .reset, by decide +kernel⟩⟩

/-- The hypotheses of every clause of FirebreakSequence can be met. -/
theorem witness_FirebreakSequence :
  (∃ (s : State), s.rd F.FLT_STATUS_STATE < 2) ∧
  (∃ (s : State), 2 ≤ s.rd F.FLT_STATUS_STATE ∧ (s.flt.recDue = false ∨ sameTenNs s.flt.causeRaw s.tim.raw = false)) ∧
  (∃ (src : Nat) (s : State), 2 ≤ s.rd F.FLT_STATUS_STATE ∧ s.flt.recDue = true ∧ sameTenNs s.flt.causeRaw s.tim.raw = true ∧
    s.flt.cause = 1 ∧ src < s.flt.causeSrc) ∧
  (∃ (d : Fin 16) (reason : Nat) (us : Nat) (s : State), s.flt.ramping.contains d.1 = true ∧ s.dscs[d].tune = none ∧ s.dscs[d].pass =
    none ∧ ((reason = 1 ∧ min (s.flt.dscAt.getD d.1 (0, 0, 0)).2.1 (s.rd (F.STR_DSC_V_MAX_MV d)) ≤ ((s.rd (F.DSC_IMG_RAMP_DOWN d) * us
    : Nat) : Int) ∨ reason = 2 ∨ reason = 3 ∧ 160 ≤ us))) ∧
  (∃ (d : Fin 16) (reason : Nat) (us : Nat) (s : State), (s.flt.ramping.contains d.1 = false ∨ (reason = 1 → ((s.rd
    (F.DSC_IMG_RAMP_DOWN d) * us : Nat) : Int) < min (s.flt.dscAt.getD d.1 (0, 0, 0)).2.1 (s.rd (F.STR_DSC_V_MAX_MV d))) ∧ reason ≠ 2
    ∧ (reason = 3 → us < 160))) ∧
  (∃ (s : State), s.flt.recDue = true ∧ (s.rd F.FLT_STATUS_STATE ≠ 2 ∨ s.flt.ramping = [])) ∧
  (∃ (s : State), (s.flt.recDue = false ∨ s.rd F.FLT_STATUS_STATE = 2 ∧ s.flt.ramping ≠ [])) ∧
  (∃ (s : State), s.rd F.FLT_STATUS_STATE = 2 ∧ s.flt.recDue = false ∧ s.flt.ramping = []) ∧
  (∃ (s : State), (s.rd F.FLT_STATUS_STATE ≠ 2 ∨ s.flt.recDue = true ∨ s.flt.ramping ≠ [])) ∧
  (∃ (p : Port) (s : State), s.portReady p 0x47 ∧ s.on F.SEC_STATUS_APPROVED = true ∧ (p ≠ .sideband ∨ s.rd F.SEC_STATUS_SB_ROLE ≠ 0)
    ∧ s.releaseOk = true) ∧
  (∃ (p : Port) (s : State), s.portReady p 0x47 ∧ s.on F.SEC_STATUS_APPROVED = true ∧ (p ≠ .sideband ∨ s.rd F.SEC_STATUS_SB_ROLE ≠ 0)
    ∧ s.rd F.FLT_STATUS_STATE = 3 ∧ s.releaseOk = false) ∧
  (∃ (p : Port) (s : State), s.portReady p 0x47 ∧ s.on F.SEC_STATUS_APPROVED = true ∧ (p ≠ .sideband ∨ s.rd F.SEC_STATUS_SB_ROLE ≠ 0)
    ∧ s.rd F.FLT_STATUS_STATE ≠ 3) ∧
  (∃ (s : State), s.portReady .sideband 0x47 ∧ s.rd F.SEC_STATUS_SB_ROLE = 0) :=
  ⟨⟨run3 .running, by decide +kernel⟩,
    ⟨set [(F.FLT_STATUS_STATE, 2)] .reset, by decide +kernel⟩,
    ⟨9, fltS (fun k => { k with recDue := true, cause := 1, causeSrc := 20 }) (set [(F.FLT_STATUS_STATE, 2)] .reset), by decide +kernel⟩,
    ⟨1, 2, 50, fl (fun k => { k with ramping := [1, 4] }) (set [(F.FLT_STATUS_STATE, 2)] (chn 1)), by decide +kernel⟩,
    ⟨1, 2, 50, .reset, by decide +kernel⟩,
    ⟨fl (fun k => { k with recDue := true, cause := 2 }) (set [(F.FLT_STATUS_STATE, 2)] .reset), by decide +kernel⟩,
    ⟨.reset, by decide +kernel⟩,
    ⟨cmd 0x10 (set [(F.FLT_STATUS_STATE, 2)] .reset), by decide +kernel⟩,
    ⟨.reset, by decide +kernel⟩,
    ⟨.host hd, cls 9 4 (set [(F.FLT_STATUS_STATE, 3), (F.FLT_LATCH_LATCH 0, 0x200)] (appr 2 (cmd 0x47 .reset))),
     (by simp only [State.portReady, State.canBegin]; decide +kernel)⟩,
    ⟨.host hd, set [(F.FLT_STATUS_STATE, 3), (F.PWR_STATUS_THERM, 3)] (appr 2 (cmd 0x47 .reset)),
     (by simp only [State.portReady, State.canBegin]; decide +kernel)⟩,
    ⟨.host hd, appr 2 (cmd 0x47 .reset), (by simp only [State.portReady, State.canBegin]; decide +kernel)⟩,
    ⟨appr 2 .reset, (by simp only [State.portReady]; decide +kernel)⟩⟩

/-- The hypotheses of every clause of Sessions can be met. -/
theorem witness_Sessions :
  (∃ (h : Hdr) (role : Nat) (keyIndex : Nat) (key : Nat) (s : State), s.portReady (.host h) 0x40 ∧ (role = 1 ∧ keyIndex ≤ 7 ∨ role = 2
    ∧ keyIndex = 0) ∧ s.on F.SEC_STATUS_APPROVED = true ∧ s.on F.SEC_STATUS_LOCKOUT_HOST = false ∧ s.roleKey role keyIndex = some key) ∧
  (∃ (role : Nat) (keyIndex : Nat) (key : Nat) (s : State), s.portReady .sideband 0x40 ∧ (role = 1 ∧ keyIndex ≤ 7 ∨ role = 2 ∧
    keyIndex = 0) ∧ s.on F.SEC_STATUS_APPROVED = true ∧ s.on F.SEC_STATUS_LOCKOUT_SB = false ∧ s.roleKey role keyIndex = some key) ∧
  (∃ (p : Port) (role : Nat) (keyIndex : Nat) (s : State), s.portReady p 0x40 ∧ (¬(role = 1 ∧ keyIndex ≤ 7 ∨ role = 2 ∧ keyIndex =
    0))) ∧
  (∃ (p : Port) (role : Nat) (keyIndex : Nat) (s : State), s.portReady p 0x40 ∧ (role = 1 ∧ keyIndex ≤ 7 ∨ role = 2 ∧ keyIndex = 0) ∧
    s.on F.SEC_STATUS_APPROVED = true ∧ s.on (portLockout p) = true) ∧
  (∃ (p : Port) (role : Nat) (keyIndex : Nat) (s : State), s.portReady p 0x40 ∧ (role = 1 ∧ keyIndex ≤ 7 ∨ role = 2 ∧ keyIndex = 0) ∧
    s.on F.SEC_STATUS_APPROVED = true ∧ s.on (portLockout p) = false ∧ s.roleKey role keyIndex = none) ∧
  (∃ (p : Port) (sig : Src) (l : List Byte) (n : Nonce) (s : State), s.portReady p 0x41 ∧ s.sourceOk sig 96 = true ∧ s.source sig 96 =
    some l ∧ s.on F.SEC_STATUS_APPROVED = true ∧ s.nonceOf p = some n) ∧
  (∃ (p : Port) (sig : Src) (l : List Byte) (s : State), s.portReady p 0x41 ∧ s.sourceOk sig 96 = true ∧ s.source sig 96 = some l ∧
    s.on F.SEC_STATUS_APPROVED = true ∧ s.nonceOf p = none) ∧
  (∃ (p : Port) (s : State), s.portReady p 0x42 ∧ s.on F.SEC_STATUS_APPROVED = true) ∧
  (∃ (p : Port) (s : State), s.portReady p 0x42 ∧ s.on F.SEC_STATUS_APPROVED = false) :=
  ⟨⟨hd, 1, 0, 77, secS (fun k => { k with operators := [77], drawn := 9 }) (appr 2 (cmd 0x40 .reset)),
     (by simp only [State.portReady, State.canBegin]; decide +kernel)⟩,
    ⟨1, 0, 77, secS (fun k => { k with operators := [77], drawn := 9 }) (appr 2 .reset),
     (by simp only [State.portReady]; decide +kernel)⟩,
    ⟨.host hd, 2, 1, appr 2 (cmd 0x40 .reset), (by simp only [State.portReady, State.canBegin]; decide +kernel)⟩,
    ⟨.host hd, 1, 1, set [(F.SEC_STATUS_LOCKOUT_HOST, 1)] (appr 2 (cmd 0x40 .reset)),
     (by simp only [State.portReady, State.canBegin]; decide +kernel)⟩,
    ⟨.host hd, 1, 1, appr 2 (cmd 0x40 .reset), (by simp only [State.portReady, State.canBegin]; decide +kernel)⟩,
    ⟨.host hd, src (List.replicate 96 4), List.replicate 96 4, non,
     secS (fun k => { k with operators := [77], hostNonce := some non, hostFails := 7 }) (appr 2 (cmd 0x41 .reset)),
     (by simp only [State.portReady, State.canBegin]; decide +kernel)⟩,
    ⟨.host hd, src (List.replicate 96 4), List.replicate 96 4, appr 2 (cmd 0x41 .reset),
     (by simp only [State.portReady, State.canBegin]; decide +kernel)⟩,
    ⟨.host hd, oper (appr 2 (cmd 0x42 .reset)), (by simp only [State.portReady, State.canBegin]; decide +kernel)⟩,
    ⟨.host hd, set [(F.SEC_STATUS_APPROVED, 0)] (appr 2 (cmd 0x42 .reset)),
     (by simp only [State.portReady, State.canBegin]; decide +kernel)⟩⟩

/-- The hypotheses of every clause of KeysAndZeroisation can be met. -/
theorem witness_KeysAndZeroisation :
  (∃ (h : Hdr) (block : Src) (length : Nat) (l : List Byte) (s : State), s.portReady (.host h) 0x43 ∧ s.sourceOk block length = true ∧
    s.source block length = some l ∧ s.on F.SEC_STATUS_APPROVED = true) ∧
  (∃ (h : Hdr) (block : Src) (length : Nat) (s : State), s.portReady (.host h) 0x43 ∧ s.sourceOk block length = false) ∧
  (∃ (h : Hdr) (block : Src) (l : List Byte) (s : State), s.portReady (.host h) 0x44 ∧ s.sourceOk block 160 = true ∧ s.source block
    160 = some l ∧ s.on F.SEC_STATUS_APPROVED = true ∧ s.rd F.SEC_STATUS_LIFECYCLE = 2 ∧ leAt l 0x60 2 < 64 ∧ leAt l 0x62 2 = 0 ∧ leAt
    l 0x64 4 = 0 ∧ s.contentKey (leAt l 0x60 2) = none) ∧
  (∃ (h : Hdr) (block : Src) (l : List Byte) (s : State), s.portReady (.host h) 0x44 ∧ s.sourceOk block 160 = true ∧ s.source block
    160 = some l ∧ s.on F.SEC_STATUS_APPROVED = true ∧ s.rd F.SEC_STATUS_LIFECYCLE = 2 ∧ leAt l 0x60 2 < 64 ∧ leAt l 0x62 2 = 0 ∧ leAt
    l 0x64 4 = 0 ∧ (s.contentKey (leAt l 0x60 2)).isSome = true) ∧
  (∃ (h : Hdr) (slot : Nat) (s : State), s.portReady (.host h) 0x45 ∧ s.on F.SEC_STATUS_APPROVED = true ∧ slot < 64 ∧ (s.contentKey
    slot).isSome = true ∧ (∀ x ∈ s.forest.segs, x.keySlot ≠ slot)) ∧
  (∃ (h : Hdr) (slot : Nat) (s : State), s.portReady (.host h) 0x45 ∧ s.on F.SEC_STATUS_APPROVED = true ∧ slot < 64 ∧ (s.contentKey
    slot).isSome = true ∧ (∃ x ∈ s.forest.segs, x.keySlot = slot)) ∧
  (∃ (h : Hdr) (slot : Nat) (s : State), s.portReady (.host h) 0x45 ∧ s.on F.SEC_STATUS_APPROVED = true ∧ (64 ≤ slot ∨ s.contentKey
    slot = none)) ∧
  (∃ (h : Hdr) (s : State), s.portReady (.host h) 0x46 ∧ s.on F.SEC_STATUS_APPROVED = true ∧ s.bursts = [] ∧ s.sec.zero = []) ∧
  (∃ (h : Hdr) (b : Burst) (s : State), s.portReady (.host h) 0x46 ∧ s.on F.SEC_STATUS_APPROVED = true ∧ s.bursts = [b] ∧ b.stage =
    .running ∧ ((grovesIn b.ops.groves).all fun g => s.groves[g].ended.isSome) = false) ∧
  (∃ (h : Hdr) (s : State), s.portReady (.host h) 0x4A ∧ s.on F.SEC_STATUS_APPROVED = true ∧ s.bursts = []) ∧
  (∃ (h : Hdr) (s : State), s.portReady (.host h) 0x4A ∧ s.on F.SEC_STATUS_APPROVED = true ∧ s.bursts ≠ []) ∧
  (∃ (h : Hdr) (confirm : Nat) (s : State), s.portReady (.host h) 0x4A ∧ confirm ≠ 0x55474244) ∧
  (∃ (s : State), s.power.present = true ∧ s.rd F.FLT_STATUS_STATE < 2) ∧
  (∃ (kind : Nat), 3 < kind) :=
  ⟨⟨hd, src [1, 2, 3], 4, [1, 2, 3, 0], appr 1 (cmd 0x43 .reset), (by simp only [State.portReady, State.canBegin]; decide +kernel)⟩,
    ⟨hd, ⟨0x4004, some []⟩, 4, appr 1 (cmd 0x43 .reset), (by simp only [State.portReady, State.canBegin]; decide +kernel)⟩,
    ⟨hd, src keyBlock, keyBlock, secS (fun k => { k with transport := some 5 }) (appr 2 (cmd 0x44 .reset)),
     (by simp only [State.portReady, State.canBegin]; decide +kernel)⟩,
    ⟨hd, src keyBlock, keyBlock, secS (fun k => { k with keys := [(5, 6)] }) (appr 2 (cmd 0x44 .reset)),
     (by simp only [State.portReady, State.canBegin]; decide +kernel)⟩,
    ⟨hd, 5, set [(F.SEC_SLOT_MAP_LOADED 0, 0x23)] (secS (fun k => { k with keys := [(4, 6), (5, 6)] }) (appr 2 (cmd 0x45 .reset))),
     (by simp only [State.portReady, State.canBegin]; decide +kernel)⟩,
    ⟨hd, 5, withSegs [{ sg with keySlot := 5 }] (secS (fun k => { k with keys := [(5, 6)] }) (appr 2 (cmd 0x45 .reset))),
     (by simp only [State.portReady, State.canBegin]; decide +kernel)⟩,
    ⟨hd, 5, appr 2 (cmd 0x45 .reset), (by simp only [State.portReady, State.canBegin]; decide +kernel)⟩,
    ⟨hd, set [(F.SEC_SLOT_MAP_LOADED 0, 0x23)] (secS (fun k => { k with keys := [(4, 6), (5, 6)] }) (appr 2 (cmd 0x46 .reset))),
     (by simp only [State.portReady, State.canBegin]; decide +kernel)⟩,
    ⟨hd, bu .running, appr 2 (cmd 0x46 (run3 .running)), (by simp only [State.portReady, State.canBegin]; decide +kernel)⟩,
    ⟨hd, secS (fun k => { k with keys := [(4, 6), (5, 6)] }) (appr 2 (cmd 0x4A .reset)),
     (by simp only [State.portReady, State.canBegin]; decide +kernel)⟩,
    ⟨hd, appr 2 (cmd 0x4A (run3 .running)), (by simp only [State.portReady, State.canBegin]; decide +kernel)⟩,
    ⟨hd, 5, appr 2 (cmd 0x4A .reset), (by simp only [State.portReady, State.canBegin]; decide +kernel)⟩,
    ⟨secS (fun k => { k with keys := [(4, 6), (5, 6)] }) (appr 2 (cmd 0x44 .reset)), by decide +kernel⟩,
    ⟨4, by decide +kernel⟩⟩

/-- The hypotheses of every clause of AttestationServices can be met. -/
theorem witness_AttestationServices :
  (∃ (h : Hdr) (s : State), s.portReady (.host h) 0x48 ∧ s.on F.SEC_STATUS_APPROVED = true ∧ s.sec.identity = true) ∧
  (∃ (h : Hdr) (fails : Nat) (s : State), s.portReady (.host h) 0x49 ∧ fails % 256 = 0 ∧ s.on F.SEC_STATUS_APPROVED = true) ∧
  (∃ (h : Hdr) (fails : Nat) (s : State), s.portReady (.host h) 0x49 ∧ fails % 256 ≠ 0) ∧
  (∃ (h : Hdr) (len : Nat) (s : State), s.portReady (.host h) 0x4B ∧ 0 < len ∧ len ≤ 4096 ∧ s.on F.SEC_STATUS_APPROVED = true ∧
    s.sec.requests < 2 ^ 20) ∧
  (∃ (h : Hdr) (len : Nat) (s : State), s.portReady (.host h) 0x4B ∧ (len = 0 ∨ 4096 < len)) ∧
  (∃ (h : Hdr) (len : Nat) (s : State), s.portReady (.host h) 0x4B ∧ 0 < len ∧ len ≤ 4096 ∧ s.on F.SEC_STATUS_APPROVED = true) ∧
  (∃ (h : Hdr) (src : Src) (sig : Src) (length : Nat) (p : Nat) (l : List Byte) (g : List Byte) (s : State), s.canBegin h 0x13 ∧ 0 <
    length ∧ length % canopyPage = 0 ∧ s.sourceOk src length = true ∧ s.sourceOk sig 112 = true ∧ s.source src length = some l ∧
    s.source sig 112 = some g ∧ s.forest.code = [] ∧ s.forest.evacs = [] ∧ s.canopyRun 0 (length / canopyPage) = some p) ∧
  (∃ (h : Hdr) (src : Src) (sig : Src) (length : Nat) (s : State), s.canBegin h 0x13 ∧ 0 < length ∧ length % canopyPage = 0 ∧
    s.sourceOk src length = true ∧ s.sourceOk sig 112 = true ∧ s.secOpt 0 = false) ∧
  (∃ (s : State), s.on F.SEC_STATUS_ST_DONE = true ∧ s.rd F.SEC_STATUS_LIFECYCLE ≠ 4) ∧
  (∃ (s : State), s.on F.SEC_STATUS_ST_DONE = true ∧ s.rd F.SEC_STATUS_LIFECYCLE ≠ 4 ∧ s.rd F.SEC_STATUS_LIFECYCLE ≠ 3 ∧
    s.sec.identity = true) ∧
  (∃ (s : State), (s.on F.SEC_STATUS_ST_DONE = false ∨ s.rd F.SEC_STATUS_LIFECYCLE = 4)) ∧
  (∃ (ir : Nat) (s : State), s.tapPermits ir = true) ∧
  (∃ (ir : Nat) (s : State), s.tapPermits ir = false) ∧
  (∃ (off : Nat), sidebandSet off = true) ∧
  (∃ (off : Nat), sidebandSet off = false) ∧
  (∃ (count : Nat), (count = 0 ∨ 16 < count)) ∧
  (∃ (s : State), s.rd F.SEC_STATUS_SB_ROLE = 0) ∧
  (∃ (s : State), s.rd F.SEC_STATUS_SB_ROLE ≠ 0) :=
  ⟨⟨hd, secS (fun k => { k with identity := true }) (appr 2 (cmd 0x48 .reset)),
     (by simp only [State.portReady, State.canBegin]; decide +kernel)⟩,
    ⟨hd, 256, appr 2 (cmd 0x49 .reset), (by simp only [State.portReady, State.canBegin]; decide +kernel)⟩,
    ⟨hd, 5, appr 2 (cmd 0x49 .reset), (by simp only [State.portReady, State.canBegin]; decide +kernel)⟩,
    ⟨hd, 9, appr 2 (cmd 0x4B .reset), (by simp only [State.portReady, State.canBegin]; decide +kernel)⟩,
    ⟨hd, 4097, appr 2 (cmd 0x4B .reset), (by simp only [State.portReady, State.canBegin]; decide +kernel)⟩,
    ⟨hd, 9, appr 2 (cmd 0x4B .reset), (by simp only [State.portReady, State.canBegin]; decide +kernel)⟩,
    ⟨hd, src [], src [], 65536, 0, _, _, cmd 0x13 .reset,
     (⟨by simp only [State.canBegin]; decide +kernel, by decide +kernel, by decide +kernel, by decide +kernel, by decide +kernel, rfl, rfl, by decide +kernel, by decide +kernel⟩)⟩,
    ⟨hd, src [], src [], 65536, cmd 0x13 .reset, (by simp only [State.canBegin]; decide +kernel)⟩,
    ⟨appr 2 .reset, by decide +kernel⟩,
    ⟨secS (fun k => { k with identity := true }) (appr 2 .reset), by decide +kernel⟩,
    ⟨.reset, by decide +kernel⟩,
    ⟨1, .reset, by decide +kernel⟩,
    ⟨7, .reset, by decide +kernel⟩,
    ⟨0xF8000, by decide +kernel⟩,
    ⟨0x1000, by decide +kernel⟩,
    ⟨17, by decide +kernel⟩,
    ⟨.reset, by decide +kernel⟩,
    ⟨set [(F.SEC_STATUS_SB_ROLE, 1)] (run3 .running), by decide +kernel⟩⟩

/-- The hypotheses of every clause of StructureLoads can be met. -/
theorem witness_StructureLoads :
  (∃ (h : Hdr) (src : Src) (length : Nat) (img : List Byte) (s : State), s.canBegin h 0x10 ∧ s.sourceOk src length = true ∧ s.source
    src length = some img ∧ s.rd F.STR_STATUS_STATE < 2 ∧ s.bursts = [] ∧ (s.atAcceptance h fun f => f.reload || f.busy) = false) ∧
  (∃ (h : Hdr) (src : Src) (length : Nat) (s : State), s.canBegin h 0x10 ∧ s.sourceOk src length = true ∧ (2 ≤ s.rd F.STR_STATUS_STATE
    ∨ s.atAcceptance h (·.reload) = true)) ∧
  (∃ (h : Hdr) (src : Src) (length : Nat) (s : State), s.canBegin h 0x10 ∧ s.sourceOk src length = true ∧ s.rd F.STR_STATUS_STATE < 2
    ∧ s.atAcceptance h (·.reload) = false ∧ (s.bursts ≠ [] ∨ s.atAcceptance h (·.busy) = true)) ∧
  (∃ (p : Nat) (n : Nat) (s : State), s.rd F.STR_STATUS_STATE = 2 ∧ s.rd F.FLT_STATUS_STATE = 0 ∧ s.regionRuns 1 = [(p, n)] ∧
    s.str.staged.length ≤ n * canopyPage) ∧
  (∃ (s : State), s.rd F.STR_STATUS_STATE = 3 ∧ s.rd F.FLT_STATUS_STATE = 0) ∧
  (∃ (a : RegionPlan) (s : State), s.rd F.STR_STATUS_STATE = 4 ∧ s.rd F.FLT_STATUS_STATE = 0 ∧ s.planFor s.str.stagedPlain = some a ∧
    (∀ d : Fin 16, s.rd (F.DSC_STATUS_MODE d) = 0) ∧ s.str.badWords = []) ∧
  (∃ (s : State), s.rd F.STR_STATUS_STATE = 4 ∧ s.rd F.FLT_STATUS_STATE = 0 ∧ s.planFor s.str.stagedPlain = none ∧ s.str.badWords =
    []) ∧
  (∃ (s : State), s.rd F.STR_STATUS_STATE = 5 ∧ s.rd F.FLT_STATUS_STATE = 0 ∧ s.cal.run = none ∧ s.codeRuns = false ∧ s.str.badWords =
    []) ∧
  (∃ (s : State), (s.cal.run.isSome = true ∨ s.codeRuns = true)) ∧
  (∃ (s : State), s.forest.codeMoves = [] ∧ s.rd F.STR_STATUS_STATE ≠ 5) ∧
  (∃ (s : State), s.rd F.STR_STATUS_STATE = 5 ∧ s.rd F.FLT_STATUS_STATE = 0 ∧ s.forest.codeMoves = [] ∧ s.codeRuns = true) ∧
  (∃ (a : RegionPlan) (s : State), s.rd F.STR_STATUS_STATE = 6 ∧ s.rd F.FLT_STATUS_STATE = 0 ∧ s.planFor s.str.stagedPlain = some a ∧
    s.str.badWords = []) ∧
  (∃ (s : State), s.rd F.FLT_STATUS_STATE ≠ 0) ∧
  (∃ (s : State), s.rd F.STR_STATUS_STATE < 2) ∧
  (∃ (s : State), s.str.badWords = []) :=
  ⟨⟨hd, src [1, 2], 64, [1, 2] ++ List.replicate 62 0, cmd 0x10 .reset, (by simp only [State.canBegin]; decide +kernel)⟩,
    ⟨hd, src [1, 2], 64, set [(F.STR_STATUS_STATE, 3)] (cmd 0x10 .reset), (by simp only [State.canBegin]; decide +kernel)⟩,
    ⟨hd, src [1, 2], 64, cmd 0x10 (run3 .running), (by simp only [State.canBegin]; decide +kernel)⟩,
    ⟨256, 64, strS (fun k => { k with staged := [1, 2, 3] }) (set [(F.STR_STATUS_STATE, 2)] .reset),
     (⟨by decide +kernel, by decide +kernel, by unfold State.regionRuns; rw [show ((List.range 2048).filter fun p => (strS (fun k => { k with staged := [1, 2, 3] }) (set [(F.STR_STATUS_STATE, 2)] .reset)).forest.regionOf p == some 1) = List.range' 256 64 from by decide +kernel]; decide +kernel, by decide +kernel⟩)⟩,
    ⟨strS (fun k => { k with staged := [1, 2, 3], cmd := some hd }) (set [(F.STR_STATUS_STATE, 3)] .reset), by decide +kernel⟩,
    ⟨_, set [(F.STR_STATUS_STATE, 4)] .reset,
     (⟨by decide +kernel, by decide +kernel, by unfold State.planFor; exact if_neg (by decide +kernel), by decide +kernel, rfl⟩)⟩,
    ⟨withCode [⟨0, 9, 6, false⟩] (set [(F.STR_STATUS_STATE, 4)] .reset), by decide +kernel⟩,
    ⟨set [(F.STR_STATUS_STATE, 5)] .reset, by decide +kernel⟩,
    ⟨withRun crun .reset, by decide +kernel⟩,
    ⟨.reset, by decide +kernel⟩,
    ⟨noRegions (strS (fun k => { k with stagedPlain := regionsOut, cmd := some hd }) (set [(F.STR_STATUS_STATE, 5)] (withCode [⟨0, 9, 6, false⟩] .reset))),
     (⟨by decide +kernel, by decide +kernel, by decide +kernel, by unfold State.codeRuns; rw [show (_ : State).str.stagedPlain = regionsOut from rfl, plan_moves_code _ rfl (by decide +kernel)]; decide +kernel⟩)⟩,
    ⟨_, set [(F.STR_STATUS_STATE, 6)] .reset,
     (⟨by decide +kernel, by decide +kernel, by unfold State.planFor; exact if_neg (by decide +kernel), rfl⟩)⟩,
    ⟨set [(F.FLT_STATUS_STATE, 1)] .reset, by decide +kernel⟩,
    ⟨.reset, by decide +kernel⟩,
    ⟨.reset, by decide +kernel⟩⟩

/-- The hypotheses of every clause of MeasuredStart can be met. -/
theorem witness_MeasuredStart :
  (∃ (fails : Nat) (s : State), s.rd F.GLB_BOOT_STAT_STAGE = 0 ∧ s.on F.SEC_STATUS_ST_DONE = false ∧ s.flt.resetLow = false ∧
    s.power.house = true ∧ s.power.cold = false ∧ fails % 4096 ≠ 0) ∧
  (∃ (fails : Nat) (s : State), s.rd F.GLB_BOOT_STAT_STAGE = 0 ∧ s.on F.SEC_STATUS_ST_DONE = false ∧ s.flt.resetLow = false ∧
    s.power.house = true ∧ s.power.cold = false ∧ fails % 4096 = 0 ∧ s.flash = []) ∧
  (∃ (s : State), (s.rd F.GLB_BOOT_STAT_STAGE ≠ 0 ∨ s.on F.SEC_STATUS_ST_DONE = true ∨ s.flt.resetLow = true ∨ s.power.house = false ∨
    s.power.cold = true)) ∧
  (∃ (s : State), s.boot.changes = []) ∧
  (∃ (k : Fin 4) (rest : List (Nat × RecChange)) (copy : Nat) (l : List Byte) (s : State), s.boot.changes = (k.1, .activate) :: rest ∧
    s.ruling = (copy, l)) ∧
  (∃ (k : Nat) (c : RecChange) (rest : List (Nat × RecChange)) (copy : Nat) (l : List Byte) (s : State), s.boot.changes = (k, c) ::
    rest ∧ s.ruling = (copy, l)) ∧
  (∃ (s : State), s.boot.timer = true) ∧
  (∃ (s : State), s.boot.timer = false) ∧
  (∃ (c : Fin 8) (k : Fin 4) (s : State), s.sched.cores[c].machineMode = true ∧ s.on (F.GLB_BOOT_KIND_CONFIRMED k) = false ∧ bitOf
    (s.rd F.GLB_BOOT_CONFIRM_KIND) k = false) ∧
  (∃ (c : Fin 8) (s : State), s.sched.cores[c].machineMode = false) :=
  ⟨⟨5, .reset, by decide +kernel⟩,
    ⟨4096, .reset, by decide +kernel⟩,
    ⟨set [(F.GLB_BOOT_STAT_STAGE, 2)] .reset, by decide +kernel⟩,
    ⟨.reset, by decide +kernel⟩,
    ⟨2, [(1, .confirm)], 0, (State.reset.ruling).2, { State.reset with boot := { changes := [(2, .activate), (1, .confirm)] } },
     by decide +kernel⟩,
    ⟨2, .activate, [], 0, (State.reset.ruling).2, { State.reset with boot := { changes := [(2, .activate)] } }, by decide +kernel⟩,
    ⟨{ run3 .running with boot := { timer := true } }, by decide +kernel⟩,
    ⟨.reset, by decide +kernel⟩,
    ⟨1, 2, up .reset, by decide +kernel⟩,
    ⟨1, core (fun k => { k with machineMode := false }) .reset, by decide +kernel⟩⟩

/-- The hypotheses of every clause of UpdateService can be met. -/
theorem witness_UpdateService :
  (∃ (kind : Fin 4) (src : Src) (len : Nat) (s : State), s.rd F.SEC_STATUS_HOST_ROLE = 2 ∧ s.rd F.GLB_UPD_STATUS_STATE ∈ [0, 2, 4] ∧
    s.rd F.GLB_BOOT_STAT_STAGE ≠ 3 ∧ s.on (F.GLB_BOOT_KIND_CONFIRMED kind) = true ∧ len ≤ slotSize kind ∧ len < 2 ^ 24 ∧ src.addr < 2
    ^ 64 ∧ s.sourceOk src len = true) ∧
  (∃ (kind : Fin 4) (s : State), s.rd F.SEC_STATUS_HOST_ROLE = 2 ∧ s.rd F.GLB_UPD_STATUS_STATE = 0 ∧ s.rd F.GLB_BOOT_STAT_STAGE ≠ 3 ∧
    s.on (F.GLB_BOOT_KIND_CONFIRMED kind) = false) ∧
  (∃ (s : State), s.rd F.SEC_STATUS_HOST_ROLE = 2 ∧ s.rd F.GLB_UPD_STATUS_STATE = 1) ∧
  (∃ (kind : Fin 4) (s : State), s.rd F.SEC_STATUS_HOST_ROLE = 2 ∧ s.rd F.GLB_UPD_STATUS_STATE = 2 ∧ s.rd F.GLB_UPD_STATUS_KIND = kind
    ∧ s.rd F.GLB_BOOT_STAT_STAGE ≠ 3) ∧
  (∃ (s : State), s.rd F.SEC_STATUS_HOST_ROLE = 2 ∧ s.rd F.GLB_UPD_STATUS_STATE = 0) ∧
  (∃ (kind : Fin 4) (s : State), s.rd F.SEC_STATUS_HOST_ROLE = 2 ∧ s.rd F.GLB_UPD_STATUS_STATE = 4 ∧ s.rd F.GLB_UPD_STATUS_KIND = kind
    ∧ s.rd F.GLB_BOOT_STAT_STAGE ≠ 3 ∧ s.on (F.GLB_BOOT_KIND_CONFIRMED kind) = true) ∧
  (∃ (s : State), s.rd F.SEC_STATUS_HOST_ROLE = 2 ∧ s.rd F.GLB_UPD_STATUS_STATE = 0) ∧
  (∃ (s : State), s.rd F.SEC_STATUS_HOST_ROLE = 2 ∧ s.rd F.GLB_UPD_STATUS_STATE ∈ [0, 2, 4] ∧ s.rd F.GLB_BOOT_STAT_STAGE ≠ 3) ∧
  (∃ (s : State), s.rd F.SEC_STATUS_HOST_ROLE ≠ 2) ∧
  (∃ (s : State), s.boot.op = none) ∧
  (∃ (k : Fin 4) (l : List Byte) (s : State), s.boot.op = some (1, k.1, some l) ∧ l.length ≤ slotSize k) ∧
  (∃ (op : Fin 2) (k : Nat) (l : List Byte) (s : State), s.boot.op = some (op.1 + 1, k, some l)) ∧
  (∃ (k : Nat) (s : State), s.boot.op = some (1, k, none)) ∧
  (∃ (k : Nat) (b : Option (List Byte)) (s : State), s.boot.op = some (2, k, b)) ∧
  (∃ (k : Nat) (b : Option (List Byte)) (s : State), s.boot.op = some (3, k, b) ∧ s.boot.changes = []) :=
  ⟨⟨2, src [1, 2], 2, set [(F.GLB_BOOT_KIND_CONFIRMED 2, 1)] (offi (up .reset)), by decide +kernel⟩,
    ⟨2, offi (up .reset), by decide +kernel⟩,
    ⟨set [(F.GLB_UPD_STATUS_STATE, 1)] (offi (up .reset)), by decide +kernel⟩,
    ⟨2, set [(F.GLB_UPD_STATUS_STATE, 2), (F.GLB_UPD_STATUS_KIND, 2)] (offi (up .reset)), by decide +kernel⟩,
    ⟨offi (up .reset), by decide +kernel⟩,
    ⟨2, set [(F.GLB_UPD_STATUS_STATE, 4), (F.GLB_UPD_STATUS_KIND, 2), (F.GLB_BOOT_KIND_CONFIRMED 2, 1)] (offi (up .reset)),
     by decide +kernel⟩,
    ⟨offi (up .reset), by decide +kernel⟩,
    ⟨set [(F.GLB_UPD_STATUS_STATE, 4)] (offi (up .reset)), by decide +kernel⟩,
    ⟨.reset, by decide +kernel⟩,
    ⟨.reset, by decide +kernel⟩,
    ⟨2, [1, 2, 3], { State.reset with boot := { op := some (1, 2, some [1, 2, 3]) } }, by decide +kernel⟩,
    ⟨1, 2, [1, 2, 3], { State.reset with boot := { op := some (2, 2, some [1, 2, 3]) } }, by decide +kernel⟩,
    ⟨2, { State.reset with boot := { op := some (1, 2, none) } }, by decide +kernel⟩,
    ⟨2, none, { State.reset with boot := { op := some (2, 2, none) } }, by decide +kernel⟩,
    ⟨2, none, { State.reset with boot := { op := some (3, 2, none) } }, by decide +kernel⟩⟩

/-- The hypotheses of every clause of StepRunsFront can be met. -/
theorem witness_StepRunsFront :
  (∃ (c : Instr) (rest : List Instr) (s : State), s.pending = c :: rest) ∧
  (∃ (s : State), s.pending = [] ∧ (s.tim.raw + 1) % 2 ^ 64 % 8 ≠ 0 ∧ (∀ d : Fin 16, s.dscs[d].pgn.blanked = false)) ∧
  (∃ (s : State), s.pending = [] ∧ (s.tim.raw + 1) % 2 ^ 64 % 8 = 0 ∧ (∀ d : Fin 16, s.dscs[d].pgn.blanked = false) ∧ s.forest.evacs =
    [] ∧ (∀ b ∈ s.bursts, b.stage ≠ .armed)) :=
  ⟨⟨.nop hd, [.nop hd2], { State.reset with pending := [.nop hd, .nop hd2] }, by decide +kernel⟩,
    ⟨.reset, by decide +kernel⟩,
    ⟨timS (fun t => { t with raw := 7 }) .reset, by decide +kernel⟩⟩

end Sys2Proof.Tests
end

section
/-! Writes of the symbol maps (R78): what a permitted register write reaches, what a waveform write does when it is taken and
when it is dropped, and the obligation O19. -/

namespace Sys2Proof.Machine

/-! ## Permitted register writes (R328, R437, R446) -/

/-- A permitted write is applied, and at most counted in HQ_WSEQ afterwards. -/
theorem State.regWrite_permitted {s : State} {req : Req} {addr : Nat} {w : Word} (h : s.mayWrite req addr w = true)
    (apply : State → State) :
    s.regWrite req addr w apply = apply s ∨ s.regWrite req addr w apply = (apply s).retire := by
  cases req with
  | host id => right; simp only [State.mayWrite] at h; simp [State.regWrite, h]
  | core c => left; simp only [State.mayWrite, Bool.not_eq_true'] at h; simp [State.regWrite, h]
  | sideband => left; simp only [State.mayWrite, decide_eq_true_eq] at h; simp [State.regWrite, h]

theorem RegsOnly.regWrite {s : State} {req : Req} {addr : Nat} {w : Word} (h : s.mayWrite req addr w = true)
    (apply : State → State) : RegsOnly (apply s) (s.regWrite req addr w apply) := by
  obtain e | e := State.regWrite_permitted h apply <;> rw [e]
  · exact RegsOnly.refl _
  · exact RegsOnly.wr ..

theorem RegsSame.regWrite {s : State} {req : Req} {addr : Nat} {w : Word} (h : s.mayWrite req addr w = true)
    (apply : State → State) : RegsSame [wseqOut] (apply s) (s.regWrite req addr w apply) := by
  obtain e | e := State.regWrite_permitted h apply <;> rw [e]
  · exact RegsSame.refl _ _
  · exact State.retire_regs _

/-! ## Places of a waveform definition -/

theorem symLo_ne_symHi (c t k : Nat) : (symLo c t k).addr ≠ (symHi c t k).addr := by
  simp only [symLo, symHi]; omega

theorem symLo_notMem_wseqOut (c t k : Nat) : (symLo c t k).addr ∉ [wseqOut] := by
  simp only [symLo, wseqOut, F.HQ_WSEQ_COUNT, List.mem_singleton]; omega

theorem symHi_notMem_wseqOut (c t k : Nat) : (symHi c t k).addr ∉ [wseqOut] := by
  simp only [symHi, wseqOut, F.HQ_WSEQ_COUNT, List.mem_singleton]; omega

theorem State.rd_wr_symLo (s : State) (c t k v : Nat) : (s.wr (symLo c t k) v).rd (symLo c t k) = v % 2 ^ 32 :=
  State.rd_wr_same _ (symLo c t k) _ (by simp [symLo])

theorem State.rd_wr_symHi (s : State) (c t k v : Nat) : (s.wr (symHi c t k) v).rd (symHi c t k) = v % 2 ^ 32 :=
  State.rd_wr_same _ (symHi c t k) _ (by simp [symHi])

theorem parityWords_lt (l : List Nat) : parityWords l < 2 := Nat.mod_lt _ (by decide)

/-! ## The write of one waveform word -/

/-- The low word taken: its 25 bits are stored and the high word gets the parity of the pair. -/
theorem State.symWrite_lo {s : State} {c : Fin 128} (ts code : Nat) {w : Nat} (hfree : s.chanBusy c = false)
    (hval : symReserved w = false) :
    s.symWrite c ts code false w = (s.wr (symLo c ts code) (w % 2 ^ 25)).wr (symHi c ts code)
      (s.rd (symHi c ts code) % 2 ^ 31 +
        2 ^ 31 * parityWords [w % 2 ^ 25, s.rd (symHi c ts code) % 2 ^ 31]) := by
  have hlo : (s.wr (symLo c ts code) (w % 2 ^ 25)).rd (symLo c ts code) = w % 2 ^ 25 := by
    rw [State.rd_wr_symLo]; omega
  have hhi : (s.wr (symLo c ts code) (w % 2 ^ 25)).rd (symHi c ts code) = s.rd (symHi c ts code) :=
    State.rd_wr_other _ _ _ _ (.inl (symLo_ne_symHi _ _ _).symm)
  simp only [State.symWrite, hfree, hval, Bool.and_false, Bool.or_self, Bool.false_eq_true, if_false, hlo, hhi]

/-- The high word taken: its low byte is stored and bit 31 gets the parity of the pair. -/
theorem State.symWrite_hi {s : State} {c : Fin 128} (ts code w : Nat) (hfree : s.chanBusy c = false) :
    s.symWrite c ts code true w =
      (s.wr (symHi c ts code) (setField (s.rd (symHi c ts code)) 0 8 w)).wr (symHi c ts code)
        (setField (s.rd (symHi c ts code)) 0 8 w % 2 ^ 31 +
          2 ^ 31 * parityWords [s.rd (symLo c ts code), setField (s.rd (symHi c ts code)) 0 8 w % 2 ^ 31]) := by
  have hlo (v : Nat) : (s.wr (symHi c ts code) v).rd (symLo c ts code) = s.rd (symLo c ts code) :=
    State.rd_wr_other _ _ _ _ (.inl (symLo_ne_symHi _ _ _))
  have hhi (v : Nat) : (s.wr (symHi c ts code) v).rd (symHi c ts code) % 2 ^ 31 = v % 2 ^ 31 := by
    rw [State.rd_wr_symHi]; omega
  simp only [State.symWrite, hfree, Bool.not_true, Bool.false_and, Bool.or_self, Bool.false_eq_true, if_false, if_true, hlo, hhi]

/-- The write dropped: it is counted and sets the event bits of its causes. -/
theorem State.symWrite_dropped {s : State} {c : Fin 128} (ts code : Nat) {hi : Bool} {w : Nat}
    (h : (s.chanBusy c || !hi && symReserved w) = true) :
    s.symWrite c ts code hi w =
      (s.incSat F.SYM_DROP_CNT_COUNT).raise Ev.sym (b2n (s.chanBusy c) + 2 * b2n (!hi && symReserved w)) := by
  simp only [State.symWrite, h, if_true]

/-! ## A dropped waveform write -/

/-- The event bits of a dropped waveform write: WRITE_BUSY at 0 and BAD_VALUE at 1. -/
theorem testBit_causes (busy bad : Bool) :
    (b2n busy + 2 * b2n bad).testBit 0 = busy ∧ (b2n busy + 2 * b2n bad).testBit 1 = bad := by
  revert busy bad; decide

theorem State.symDrop_count (s : State) (bits : Nat) :
    ((s.incSat F.SYM_DROP_CNT_COUNT).raise Ev.sym bits).rd F.SYM_DROP_CNT_COUNT =
      min (s.rd F.SYM_DROP_CNT_COUNT + 1) 65535 := by
  rw [(State.raise_regs _ Ev.sym bits).rd F.SYM_DROP_CNT_COUNT (by decide), State.incSat, State.rd_wr_same _ _ _ (by decide)]
  simp only [F.SYM_DROP_CNT_COUNT]
  omega

/-- Bit `i` of SYM_EVENT after a dropped write. -/
theorem State.symDrop_bit (s : State) (bits i : Nat) (hi : i < 32) :
    bitOf (((s.incSat F.SYM_DROP_CNT_COUNT).raise Ev.sym bits).rd Ev.sym.bits) i =
      (bitOf (s.rd Ev.sym.bits) i || bits.testBit i) := by
  rw [State.raise_bits _ Ev.sym bits (by decide), State.incSat, State.rd_wr_other _ _ _ _ (by decide)]
  simp only [bitOf, Nat.testBit_mod_two_pow, Nat.testBit_or, hi, decide_true, Bool.true_and]

theorem State.symDrop_event (s : State) (bits : Nat) : EventOnly s ((s.incSat F.SYM_DROP_CNT_COUNT).raise Ev.sym bits) :=
  (RegsOnly.wr ..).event.trans (State.raise_event ..)

theorem State.symDrop_regs (s : State) (bits : Nat) :
    RegsSame ((F.SYM_DROP_CNT_COUNT).addr :: evOut Ev.sym) s ((s.incSat F.SYM_DROP_CNT_COUNT).raise Ev.sym bits) :=
  (RegsSame.incSat s _ 1 (List.mem_cons_self ..)).trans
    ((State.raise_regs _ Ev.sym bits).mono fun _ h => List.mem_cons_of_mem _ h)

/-! ## SYM_MAP_WRITE -/

/-- A permitted SYM_MAP_WRITE ends in a state that differs from the applied write by HQ_WSEQ at most. -/
theorem symMapWrite_answers {req : Req} {ch : Fin 128} {ts : Fin 32} {code : Fin 16} {hi : Bool} {w : Word} {s : State}
    {P : State → Prop} (hw : s.mayWrite req (if hi then symHi ch ts code else symLo ch ts code).addr w = true)
    (hP : ∀ u, RegsOnly (s.symWrite ch ts code hi w.toNat) u → RegsSame [wseqOut] (s.symWrite ch ts code hi w.toNat) u → P u) :
    Answers (.symMapWrite req ch ts code hi w) s P :=
  ⟨_, rfl, hP _ (RegsOnly.regWrite hw _) (RegsSame.regWrite hw _)⟩

theorem symMapWrite_lo_taken {req : Req} {ch : Fin 128} {ts : Fin 32} {code : Fin 16} {w : Word} {s : State}
    (hw : s.mayWrite req (symLo ch ts code).addr w = true) (hfree : s.chanBusy ch = false)
    (hval : symReserved w.toNat = false) :
    Answers (.symMapWrite req ch ts code false w) s fun u =>
      u.rd (symLo ch ts code) = w.toNat % 2 ^ 25 ∧
      u.rd (symHi ch ts code) = s.rd (symHi ch ts code) % 2 ^ 31 +
        2 ^ 31 * parityWords [w.toNat % 2 ^ 25, s.rd (symHi ch ts code) % 2 ^ 31] ∧
      RegsOnly s u ∧ Quiet [(symLo ch ts code).addr, (symHi ch ts code).addr, wseqOut] s u := by
  refine symMapWrite_answers (hi := false) hw fun u honly hsame => ?_
  rw [State.symWrite_lo ts code hfree hval] at honly hsame
  have honly' : RegsOnly s u := (RegsOnly.wr ..).trans ((RegsOnly.wr ..).trans honly)
  refine ⟨?_, ?_, honly', Quiet.of_event honly'.event ?_⟩
  · rw [hsame.rd _ (symLo_notMem_wseqOut _ _ _), State.rd_wr_other _ _ _ _ (.inl (symLo_ne_symHi _ _ _)),
      State.rd_wr_symLo]
    omega
  · have hpar := parityWords_lt [w.toNat % 2 ^ 25, s.rd (symHi ch ts code) % 2 ^ 31]
    rw [hsame.rd _ (symHi_notMem_wseqOut _ _ _), State.rd_wr_symHi]
    omega
  · exact (RegsSame.wr _ _ _ (by simp)).trans ((RegsSame.wr _ _ _ (by simp)).trans (hsame.mono (by simp)))

theorem symMapWrite_hi_taken {req : Req} {ch : Fin 128} {ts : Fin 32} {code : Fin 16} {w : Word} {s : State}
    (hw : s.mayWrite req (symHi ch ts code).addr w = true) (hfree : s.chanBusy ch = false) :
    Answers (.symMapWrite req ch ts code true w) s fun u =>
      u.rd (symHi ch ts code) % 2 ^ 31 = setField (s.rd (symHi ch ts code)) 0 8 w.toNat % 2 ^ 31 ∧
      u.rd (symLo ch ts code) = s.rd (symLo ch ts code) ∧
      RegsOnly s u ∧ Quiet [(symHi ch ts code).addr, wseqOut] s u := by
  refine symMapWrite_answers (hi := true) hw fun u honly hsame => ?_
  rw [State.symWrite_hi ts code _ hfree] at honly hsame
  have honly' : RegsOnly s u := (RegsOnly.wr ..).trans ((RegsOnly.wr ..).trans honly)
  refine ⟨?_, ?_, honly', Quiet.of_event honly'.event ?_⟩
  · rw [hsame.rd _ (symHi_notMem_wseqOut _ _ _), State.rd_wr_symHi]
    omega
  · rw [hsame.rd _ (symLo_notMem_wseqOut _ _ _), State.rd_wr_other _ _ _ _ (.inl (symLo_ne_symHi _ _ _)),
      State.rd_wr_other _ _ _ _ (.inl (symLo_ne_symHi _ _ _))]
  · exact (RegsSame.wr _ _ _ (by simp)).trans ((RegsSame.wr _ _ _ (by simp)).trans (hsame.mono (by simp)))

/-- A permitted write that is busy, reserved or both is counted once, and each cause sets its own event bit. -/
theorem symMapWrite_dropped {req : Req} {ch : Fin 128} {ts : Fin 32} {code : Fin 16} {hi : Bool} {w : Word} {s : State}
    (hw : s.mayWrite req (if hi then symHi ch ts code else symLo ch ts code).addr w = true)
    (hdrop : (s.chanBusy ch || !hi && symReserved w.toNat) = true) :
    Answers (.symMapWrite req ch ts code hi w) s fun u =>
      u.rd F.SYM_DROP_CNT_COUNT = min (s.rd F.SYM_DROP_CNT_COUNT + 1) 65535 ∧
      bitOf (u.rd Ev.sym.bits) 0 = (bitOf (s.rd Ev.sym.bits) 0 || s.chanBusy ch) ∧
      bitOf (u.rd Ev.sym.bits) 1 = (bitOf (s.rd Ev.sym.bits) 1 || !hi && symReserved w.toNat) ∧
      EventOnly s u ∧ Quiet ([(F.SYM_DROP_CNT_COUNT).addr, wseqOut] ++ evOut Ev.sym) s u := by
  refine symMapWrite_answers hw fun u honly hsame => ?_
  rw [State.symWrite_dropped ts code hdrop] at honly hsame
  have hevent := (State.symDrop_event ..).trans honly.event
  obtain ⟨hbusy, hbad⟩ := testBit_causes (s.chanBusy ch) (!hi && symReserved w.toNat)
  refine ⟨?_, ?_, ?_, hevent, Quiet.of_event hevent ?_⟩
  · rw [hsame.rd _ (by decide), State.symDrop_count]
  · rw [hsame.rd _ (by decide), State.symDrop_bit _ _ 0 (by decide), hbusy]
  · rw [hsame.rd _ (by decide), State.symDrop_bit _ _ 1 (by decide), hbad]
  · refine ((State.symDrop_regs s _).mono ?_).trans (hsame.mono ?_)
    · intro a ha; simp only [List.mem_cons, List.mem_append] at ha ⊢; tauto
    · simp

/-- Settles O19, clause by clause: the low word taken, the high word taken, a write to a busy channel dropped, a reserved
value dropped. -/
theorem symbolMapWrites : Obligations.SymbolMapWrites := by
  unfold Obligations.SymbolMapWrites
  refine ⟨fun req ch ts code w s => symMapWrite_lo_taken, fun req ch ts code w s => symMapWrite_hi_taken,
    fun req ch ts code hi w s hw hbusy => ?_, fun req ch ts code w s hw hfree hres => ?_⟩
  · obtain ⟨u, hu, hcount, hb0, hb1, hevent, hquiet⟩ := symMapWrite_dropped hw (by rw [hbusy, Bool.true_or])
    exact ⟨u, hu, hcount, by rw [hb0, hbusy, Bool.or_true], hb1, hevent, hquiet⟩
  · obtain ⟨u, hu, hcount, hb0, hb1, hevent, hquiet⟩ :=
      symMapWrite_dropped (hi := false) hw (by rw [hres, Bool.not_false, Bool.true_and, Bool.or_true])
    exact ⟨u, hu, hcount, by rw [hb1, hres, Bool.not_false, Bool.true_and, Bool.or_true],
      by rw [hb0, hfree, Bool.or_false], hevent, hquiet⟩

end Sys2Proof.Machine
end

section
/-! Writes of the timing tables (R161, R176, R179): what a held low word is for its pair, what the words of the tables hold at
reset and after a write, what a dropped write leaves, and the obligation O20. -/

namespace Sys2Proof.Machine

/-! ## Answers of permitted register writes -/

/-- A permitted register write ends in a state that differs from the applied write by HQ_WSEQ at most. -/
theorem answers_regWrite {c : Instr} {req : Req} {addr : Nat} {w : Word} {s : State} {apply : State → State}
    {P : State → Prop} (hexec : exec c s = .next (s.regWrite req addr w apply)) (hw : s.mayWrite req addr w = true)
    (hP : ∀ u, RegsOnly (apply s) u → RegsSame [wseqOut] (apply s) u → P u) : Answers c s P :=
  ⟨_, hexec, hP _ (RegsOnly.regWrite hw apply) (RegsSame.regWrite hw apply)⟩

/-! ## Held low words (R5) -/

/-- Taking a held low word changes nothing but the held words. -/
theorem State.takeHeld_state (s : State) (r : Req) (lo d : Nat) :
    (s.takeHeld r lo d).2 = { s with held := (s.takeHeld r lo d).2.held } := by
  unfold State.takeHeld; split <;> rfl

/-- The word a requester class has just held is the one it takes, whatever is in force. -/
theorem State.takeHeld_of_held {s u : State} {r : Req} {lo : Nat} {w : Word} (h : u.held = (s.holdLow r lo w).held) (d : Nat) :
    (u.takeHeld r lo d).1 = w.toNat := by
  simp [State.takeHeld, h, State.holdLow]

theorem State.lowFor_lt (s : State) (r : Req) (f : Fld) (hf : f.width = 32) : s.lowFor r f < 2 ^ 32 := by
  unfold State.lowFor State.takeHeld
  split
  · exact BitVec.isLt _
  · simpa only [State.rd, hf] using fieldOf_lt (s.word f.blk f.addr).toNat f.lsb f.width

/-! ## Dropped writes of the TMG block -/

theorem State.tmgDrop_count (s : State) (bits : Nat) :
    (s.tmgDrop bits).rd F.TMG_DROP_CNT_COUNT = min (s.rd F.TMG_DROP_CNT_COUNT + 1) 65535 := by
  rw [State.tmgDrop, (State.raise_regs _ Ev.tmg bits).rd F.TMG_DROP_CNT_COUNT (by decide), State.incSat,
    State.rd_wr_same _ _ _ (by decide)]
  simp only [F.TMG_DROP_CNT_COUNT]
  omega

/-- Bit `i` of TMG_EVENT after a dropped write. -/
theorem State.tmgDrop_bit (s : State) (bits i : Nat) (hi : i < 32) :
    bitOf ((s.tmgDrop bits).rd Ev.tmg.bits) i = (bitOf (s.rd Ev.tmg.bits) i || bits.testBit i) := by
  rw [State.tmgDrop, State.raise_bits _ Ev.tmg bits (by decide), State.incSat, State.rd_wr_other _ _ _ _ (by decide)]
  simp only [bitOf, Nat.testBit_mod_two_pow, Nat.testBit_or, hi, decide_true, Bool.true_and]

theorem State.tmgDrop_event (s : State) (bits : Nat) : EventOnly s (s.tmgDrop bits) :=
  (RegsOnly.wr ..).event.trans (State.raise_event ..)

theorem State.tmgDrop_regs (s : State) (bits : Nat) :
    RegsSame ((F.TMG_DROP_CNT_COUNT).addr :: evOut Ev.tmg) s (s.tmgDrop bits) :=
  (RegsSame.incSat s _ 1 (List.mem_cons_self ..)).trans
    ((State.raise_regs _ Ev.tmg bits).mono fun _ h => List.mem_cons_of_mem _ h)

/-- A permitted write that is dropped, after at most a change of held words (`v`), is counted and sets its event bits. -/
theorem answers_tmgDrop {c : Instr} {req : Req} {addr : Nat} {w : Word} {s v : State} {apply : State → State} {bits : Nat}
    (hexec : exec c s = .next (s.regWrite req addr w apply)) (hw : s.mayWrite req addr w = true)
    (happly : apply s = v.tmgDrop bits) (hv : v = { s with held := v.held }) :
    Answers c s fun u =>
      u.rd F.TMG_DROP_CNT_COUNT = min (s.rd F.TMG_DROP_CNT_COUNT + 1) 65535 ∧
      (∀ i < 32, bitOf (u.rd Ev.tmg.bits) i = (bitOf (s.rd Ev.tmg.bits) i || bits.testBit i)) ∧
      EventOnly v u ∧ Quiet ([(F.TMG_DROP_CNT_COUNT).addr, wseqOut] ++ evOut Ev.tmg) s u := by
  refine answers_regWrite hexec hw fun u honly hsame => ?_
  rw [happly] at honly hsame
  have hrd (f : Fld) : v.rd f = s.rd f := by rw [hv]; rfl
  have hbytes : BytesSame s v := by rw [hv]; exact BytesSame.refl s
  have hregs : RegsSame ([(F.TMG_DROP_CNT_COUNT).addr, wseqOut] ++ evOut Ev.tmg) s v := by rw [hv]; exact RegsSame.refl _ s
  have hevent : EventOnly v u := (State.tmgDrop_event ..).trans honly.event
  refine ⟨?_, fun i hi => ?_, hevent, hregs.trans (((State.tmgDrop_regs v _).mono ?_).trans (hsame.mono ?_)),
    hbytes.trans hevent.bytes⟩
  · rw [hsame.rd _ (by decide), State.tmgDrop_count, hrd]
  · rw [hsame.rd _ (by decide), State.tmgDrop_bit _ _ i hi, hrd]
  · intro a ha; simp only [List.mem_cons, List.mem_append] at ha ⊢; tauto
  · simp

/-! ## Period pairs (R161) -/

theorem tmgPeriodLo_ne_tmgPeriodHi (g ts : Nat) : (F.TMG_PERIOD_LO g ts).addr ≠ (F.TMG_PERIOD_HI g ts).addr := by
  simp only [F.TMG_PERIOD_LO, F.TMG_PERIOD_HI]; omega

theorem tmgPeriodLo_notMem_wseqOut (g ts : Nat) : (F.TMG_PERIOD_LO g ts).addr ∉ [wseqOut] := by
  simp only [F.TMG_PERIOD_LO, wseqOut, F.HQ_WSEQ_COUNT, List.mem_singleton]; omega

theorem tmgPeriodHi_notMem_wseqOut (g ts : Nat) : (F.TMG_PERIOD_HI g ts).addr ∉ [wseqOut] := by
  simp only [F.TMG_PERIOD_HI, wseqOut, F.HQ_WSEQ_COUNT, List.mem_singleton]; omega

theorem State.rd_wr_tmgPeriodLo (s : State) (g ts v : Nat) :
    (s.wr (F.TMG_PERIOD_LO g ts) v).rd (F.TMG_PERIOD_LO g ts) = v % 2 ^ 32 :=
  State.rd_wr_same _ (F.TMG_PERIOD_LO g ts) _ (by simp [F.TMG_PERIOD_LO])

theorem State.rd_wr_tmgPeriodHi (s : State) (g ts v : Nat) :
    (s.wr (F.TMG_PERIOD_HI g ts) v).rd (F.TMG_PERIOD_HI g ts) = v % 2 ^ 32 :=
  State.rd_wr_same _ (F.TMG_PERIOD_HI g ts) _ (by simp [F.TMG_PERIOD_HI])

/-- The period, in LSB, that a write of a high word asks for with the low word it pairs with. -/
def State.askedPeriod (s : State) (r : Req) (g ts : Fin 32) (w : Word) : Nat :=
  s.lowFor r (F.TMG_PERIOD_LO g ts) + 2 ^ 32 * (w.toNat % 2 ^ 11)

/-- Whether a period is out of the range of R161. -/
def periodBad (v : Nat) : Bool := decide (v < 2048) || decide (2 ^ 42 < v)

theorem periodBad_iff (v : Nat) : periodBad v = true ↔ v < 2048 ∨ 2 ^ 42 < v := by
  simp only [periodBad, Bool.or_eq_true, decide_eq_true_eq]

/-- A write of a high word drops the pair, for a busy grove, a period out of range or both, or puts it in force: both words are
written, the high one with the parity of the pair. The held low word is gone in either case. -/
theorem State.periodHi_eq (s : State) (r : Req) (g ts : Fin 32) (w : Word) :
    s.periodHi r g ts w =
      if !s.groveIdle g || periodBad (s.askedPeriod r g ts w) then
        (s.takeHeld r (F.TMG_PERIOD_LO g ts).addr (s.rd (F.TMG_PERIOD_LO g ts))).2.tmgDrop
          (b2n (!s.groveIdle g) + 2 * b2n (periodBad (s.askedPeriod r g ts w)))
      else
        ((s.takeHeld r (F.TMG_PERIOD_LO g ts).addr (s.rd (F.TMG_PERIOD_LO g ts))).2.wr (F.TMG_PERIOD_LO g ts)
          (s.lowFor r (F.TMG_PERIOD_LO g ts))).wr (F.TMG_PERIOD_HI g ts)
          (w.toNat % 2 ^ 11 + 2 ^ 31 * parityWords [s.lowFor r (F.TMG_PERIOD_LO g ts), w.toNat % 2 ^ 11]) := rfl

/-- A low word for an idle grove waits: it is held for its class, and no table word changes. -/
theorem tmgPeriodLoWrite_held {req : Req} {g ts : Fin 32} {w : Word} {s : State}
    (hw : s.mayWrite req (F.TMG_PERIOD_LO g ts).addr w = true) (hidle : s.groveIdle g = true) :
    Answers (.tmgPeriodLoWrite req g ts w) s fun u =>
      u.lowFor req (F.TMG_PERIOD_LO g ts) = w.toNat ∧ u = { s with regs := u.regs, held := u.held } ∧ Quiet [wseqOut] s u := by
  refine answers_regWrite (apply := fun s => s.periodLo req g ts w) rfl hw fun u honly hsame => ?_
  simp only [State.periodLo, hidle, if_true] at honly hsame
  have hframe : u = { s with regs := u.regs, held := u.held } := by
    unfold RegsOnly at honly; rw [honly]; rfl
  refine ⟨State.takeHeld_of_held (s := s) ?_ _, hframe, ?_, ?_⟩
  · rw [honly]
  · exact (RegsSame.of_regs (t := s.holdLow req (F.TMG_PERIOD_LO g ts).addr w) _ rfl).trans hsame
  · rw [hframe]; exact BytesSame.refl s

theorem tmgPeriodHiWrite_taken {req : Req} {g ts : Fin 32} {w : Word} {s : State}
    (hw : s.mayWrite req (F.TMG_PERIOD_HI g ts).addr w = true) (hidle : s.groveIdle g = true)
    (hgood : periodBad (s.askedPeriod req g ts w) = false) :
    Answers (.tmgPeriodHiWrite req g ts w) s fun u =>
      u.rd (F.TMG_PERIOD_LO g ts) = s.lowFor req (F.TMG_PERIOD_LO g ts) ∧
      u.rd (F.TMG_PERIOD_HI g ts) = w.toNat % 2 ^ 11 +
        2 ^ 31 * parityWords [s.lowFor req (F.TMG_PERIOD_LO g ts), w.toNat % 2 ^ 11] ∧
      u = { s with regs := u.regs, held := u.held } ∧
      Quiet [(F.TMG_PERIOD_LO g ts).addr, (F.TMG_PERIOD_HI g ts).addr, wseqOut] s u := by
  refine answers_regWrite (apply := fun s => s.periodHi req g ts w) rfl hw fun u honly hsame => ?_
  simp only [State.periodHi_eq, hidle, hgood, Bool.not_true, Bool.or_self, Bool.false_eq_true, if_false] at honly hsame
  have hheld := s.takeHeld_state req (F.TMG_PERIOD_LO g ts).addr (s.rd (F.TMG_PERIOD_LO g ts))
  have hlow := s.lowFor_lt req (F.TMG_PERIOD_LO g ts) rfl
  have hpar := parityWords_lt [s.lowFor req (F.TMG_PERIOD_LO g ts), w.toNat % 2 ^ 11]
  have hframe : u = { s with regs := u.regs, held := u.held } := by
    unfold RegsOnly at honly; rw [honly, hheld]; rfl
  refine ⟨?_, ?_, hframe, ?_, ?_⟩
  · rw [hsame.rd _ (tmgPeriodLo_notMem_wseqOut _ _), State.rd_wr_other _ _ _ _ (.inl (tmgPeriodLo_ne_tmgPeriodHi _ _)),
      State.rd_wr_tmgPeriodLo, Nat.mod_eq_of_lt hlow]
  · rw [hsame.rd _ (tmgPeriodHi_notMem_wseqOut _ _), State.rd_wr_tmgPeriodHi]
    omega
  · refine (RegsSame.of_regs _ (by rw [hheld])).trans ((RegsSame.wr _ _ _ ?_).trans ((RegsSame.wr _ _ _ ?_).trans (hsame.mono ?_)))
      <;> simp
  · rw [hframe]; exact BytesSame.refl s

/-- A high word whose pair cannot take effect is counted once, and each cause sets its own event bit. -/
theorem tmgPeriodHiWrite_dropped {req : Req} {g ts : Fin 32} {w : Word} {s : State}
    (hw : s.mayWrite req (F.TMG_PERIOD_HI g ts).addr w = true)
    (hdrop : (!s.groveIdle g || periodBad (s.askedPeriod req g ts w)) = true) :
    Answers (.tmgPeriodHiWrite req g ts w) s fun u =>
      u.rd F.TMG_DROP_CNT_COUNT = min (s.rd F.TMG_DROP_CNT_COUNT + 1) 65535 ∧
      bitOf (u.rd Ev.tmg.bits) 0 = (bitOf (s.rd Ev.tmg.bits) 0 || !s.groveIdle g) ∧
      bitOf (u.rd Ev.tmg.bits) 1 = (bitOf (s.rd Ev.tmg.bits) 1 || periodBad (s.askedPeriod req g ts w)) ∧
      Quiet ([(F.TMG_DROP_CNT_COUNT).addr, wseqOut] ++ evOut Ev.tmg) s u := by
  obtain ⟨u, hu, hcount, hbits, -, hquiet⟩ := answers_tmgDrop (c := .tmgPeriodHiWrite req g ts w)
    (apply := fun s => s.periodHi req g ts w) rfl hw (by rw [State.periodHi_eq, if_pos hdrop]) (State.takeHeld_state ..)
  obtain ⟨hbusy, hbad⟩ := testBit_causes (!s.groveIdle g) (periodBad (s.askedPeriod req g ts w))
  exact ⟨u, hu, hcount, by rw [hbits 0 (by decide), hbusy], by rw [hbits 1 (by decide), hbad], hquiet⟩

/-! ## Periods at reset -/

/-- No reset word of the TMG and SYM blocks is overridden. -/
theorem resetOverride_of_ge (b : Blk) (a : Nat) (h : 0x100000 ≤ a) : resetOverride b a = none := by
  unfold resetOverride
  iterate 11 rw [if_neg (by omega)]

theorem State.reset_word (b : Blk) (a : Nat) : State.reset.word b a = resetWord b a := by cases b <;> rfl

/-- The first three rows of the TMG table are the timing-set entries, and they end below the periods. -/
theorem entryRows_not_covers {a : Nat} (ha : 0x180000 ≤ a) : ∀ d ∈ regTable_tmg_0.take 3, ¬ d.covers a = true := by
  simp only [regTable_tmg_0, List.take, List.forall_mem_cons, RegDef.covers, inDims, Bool.and_eq_true, decide_eq_true_eq,
    beq_iff_eq]
  refine ⟨by omega, by omega, by omega, by simp⟩

/-- From the periods on, an address of the TMG block is looked for in the rows after the timing-set entries. -/
theorem regDefAt_tmg_of_ge {a : Nat} (ha : 0x180000 ≤ a) :
    regDefAt .tmg a = (regTable_tmg_0.drop 3).find? fun d => d.covers a := by
  have hnone : (regTable_tmg_0.take 3).find? (fun d => d.covers a) = none := List.find?_eq_none.2 (entryRows_not_covers ha)
  calc regDefAt .tmg a = (regTable_tmg_0.take 3 ++ regTable_tmg_0.drop 3).find? fun d => d.covers a := by
        rw [List.take_append_drop]; rfl
    _ = _ := by rw [List.find?_append, hnone, Option.none_or]

/-- A row of one word per grove and timing set, 16 bytes apart, covers the first word of each 16 bytes only. -/
theorem periodRow_covers (base e : Nat) (he : e < 0x10) (fields : List FieldDef) (pair : Bool) (g ts : Fin 32) :
    (RegDef.mk base [(0x400, 32), (0x10, 32)] fields pair).covers (base + e + 0x400 * g + 0x10 * ts) = decide (e = 0) := by
  have hoff : base + e + 0x400 * g.1 + 0x10 * ts.1 - base = e + 0x400 * g.1 + 0x10 * ts.1 := by omega
  rw [Bool.eq_iff_iff]
  simp only [RegDef.covers, inDims, hoff, Bool.and_eq_true, decide_eq_true_eq, beq_iff_eq]
  omega

theorem regDefAt_tmgPeriodLo (g ts : Fin 32) :
    regDefAt .tmg (F.TMG_PERIOD_LO g ts).addr = some ⟨0x180000, [(0x400, 32), (0x10, 32)], [⟨0, 32, .rw, 0x4000⟩], true⟩ := by
  rw [regDefAt_tmg_of_ge (by simp only [F.TMG_PERIOD_LO]; omega)]
  exact List.find?_cons_of_pos (periodRow_covers 0x180000 0 (by decide) _ _ g ts)

theorem regDefAt_tmgPeriodHi (g ts : Fin 32) :
    regDefAt .tmg (F.TMG_PERIOD_HI g ts).addr =
      some ⟨0x180004, [(0x400, 32), (0x10, 32)], [⟨0, 11, .rw, 0⟩, ⟨31, 1, .ro, 1⟩], false⟩ := by
  have hlo : ¬ (RegDef.mk 0x180000 [(0x400, 32), (0x10, 32)] [⟨0, 32, .rw, 0x4000⟩] true).covers
      (F.TMG_PERIOD_HI g ts).addr = true :=
    Bool.eq_false_iff.1 (periodRow_covers 0x180000 4 (by decide) _ _ g ts)
  rw [regDefAt_tmg_of_ge (by simp only [F.TMG_PERIOD_HI]; omega)]
  refine (List.find?_cons_of_neg (p := fun d : RegDef => d.covers (F.TMG_PERIOD_HI g ts).addr) hlo).trans ?_
  exact List.find?_cons_of_pos (periodRow_covers 0x180004 0 (by decide) _ _ g ts)

theorem resetWord_tmgPeriodLo (g ts : Fin 32) : resetWord .tmg (F.TMG_PERIOD_LO g ts).addr = 0x4000 := by
  rw [resetWord, resetOverride_of_ge _ _ (by simp only [F.TMG_PERIOD_LO]; omega), regDefAt_tmgPeriodLo]
  rfl

/-- Of a period's high word only the parity bit is set at reset. -/
theorem resetWord_tmgPeriodHi (g ts : Fin 32) : resetWord .tmg (F.TMG_PERIOD_HI g ts).addr = 0x80000000 := by
  rw [resetWord, resetOverride_of_ge _ _ (by simp only [F.TMG_PERIOD_HI]; omega), regDefAt_tmgPeriodHi]
  rfl

theorem reset_tmgPeriod (g ts : Fin 32) :
    State.reset.rd (F.TMG_PERIOD_LO g ts) = 16384 ∧ State.reset.rd (F.TMG_PERIOD_HI g ts) % 2 ^ 11 = 0 := by
  constructor
  · have hlo : State.reset.word .tmg (F.TMG_PERIOD_LO g ts).addr = 0x4000 := by rw [State.reset_word, resetWord_tmgPeriodLo]
    exact congrArg (fun w : Word => fieldOf w.toNat 0 32) hlo
  · have hhi : State.reset.word .tmg (F.TMG_PERIOD_HI g ts).addr = 0x80000000 := by rw [State.reset_word, resetWord_tmgPeriodHi]
    exact congrArg (fun w : Word => fieldOf w.toNat 0 32 % 2 ^ 11) hhi

/-! ## Timing-set entries, deskew registers and the module delay (R176, R179) -/

/-- A register written as one whole field holds the word written. -/
theorem State.word_wr_whole (s : State) (b : Blk) (a : Nat) (w : Word) : (s.wr ⟨b, a, 0, 32⟩ w.toNat).word b a = w := by
  have hw := w.isLt
  have hold := (s.word b a).isLt
  rw [State.wr, State.word_setWord, if_pos ⟨rfl, rfl⟩, setField_eq]
  apply BitVec.eq_of_toNat_eq
  simp only [BitVec.toNat_ofNat]
  omega

/-- Word `k` of the timing-set entry of an idle channel is written whole, and the entry's parity follows it (R180). -/
theorem State.tableWrite_entry {s : State} {c : Fin 128} (ts : Fin 32) {k : Nat} (w : Nat) (hk : k < 6)
    (hfree : s.chanBusy c = false) :
    s.tableWrite (0x100000 + 0x1000 * c + 0x80 * ts + 4 * k) w =
      (s.wr ⟨.tmg, 0x100000 + 0x1000 * c + 0x80 * ts + 4 * k, 0, 32⟩ w).entryPar (0x100000 + 0x1000 * c + 0x80 * ts) := by
  have hc : fin 128 ((0x100000 + 0x1000 * c.1 + 0x80 * ts.1 + 4 * k - 0x100000) / 0x1000) = c := by
    apply Fin.ext; simp only [Fin.ofNat]; omega
  have hin : (0x100000 + 0x1000 * c.1 + 0x80 * ts.1 + 4 * k - 0x100000) % 0x80 = 4 * k := by omega
  have hbase : 0x100000 + 0x1000 * c.1 + 0x80 * ts.1 + 4 * k - 4 * k = 0x100000 + 0x1000 * c.1 + 0x80 * ts.1 := by omega
  simp only [State.tableWrite]
  rw [if_neg (by omega), if_pos (by omega), if_neg (by omega), hc, if_pos (by simp only [State.tableFree, hfree, Bool.not_false]),
    hin, if_neg (by omega), hbase]

/-- A write of a deskew register of a busy channel is dropped. -/
theorem State.tableWrite_deskew_busy {s : State} {c : Fin 128} (w : Nat) (hbusy : s.chanBusy c = true) :
    s.tableWrite (0x190000 + 0x20 * c) w = s.tmgDrop 1 := by
  have hc : fin 128 ((0x190000 + 0x20 * c.1 - 0x100000 - 0x90000) / 0x20) = c := by
    apply Fin.ext; simp only [Fin.ofNat]; omega
  simp only [State.tableWrite]
  rw [if_neg (by omega), if_neg (by omega), if_neg (by omega), if_pos (by omega), if_pos (by omega), hc,
    if_neg (by simp only [State.tableFree, hbusy, Bool.not_true, Bool.false_eq_true, not_false_eq_true])]

theorem timingTableWrite_entry_taken {req : Req} {c : Fin 128} {ts : Fin 32} {k : Nat} {w : Word} {s : State} (hk : k < 6)
    (hw : s.mayWrite req (0x100000 + 0x1000 * c + 0x80 * ts + 4 * k) w = true) (hfree : s.chanBusy c = false) :
    Answers (.timingTableWrite req (0x100000 + 0x1000 * c + 0x80 * ts + 4 * k) w) s fun u =>
      u.word .tmg (0x100000 + 0x1000 * c + 0x80 * ts + 4 * k) = w ∧ RegsOnly s u ∧
      Quiet [0x100000 + 0x1000 * c + 0x80 * ts + 4 * k, 0x100000 + 0x1000 * c + 0x80 * ts + 24, wseqOut] s u := by
  refine answers_regWrite (apply := fun s => s.tableWrite _ w.toNat) rfl hw fun u honly hsame => ?_
  simp only [State.tableWrite_entry ts w.toNat hk hfree, State.entryPar] at honly hsame
  have honly' : RegsOnly s u := (RegsOnly.wr ..).trans ((RegsOnly.wr ..).trans honly)
  refine ⟨?_, honly', Quiet.of_event honly'.event ?_⟩
  · rw [hsame _ _ (by simp only [wseqOut, F.HQ_WSEQ_COUNT, List.mem_singleton]; omega),
      State.word_wr _ _ _ _ _ (.inl (by simp only; omega)), State.word_wr_whole]
  · exact (RegsSame.wr _ _ _ (by simp)).trans ((RegsSame.wr _ _ _ (by simp)).trans (hsame.mono (by simp)))

theorem timingTableWrite_deskew_dropped {req : Req} {c : Fin 128} {w : Word} {s : State}
    (hw : s.mayWrite req (0x190000 + 0x20 * c) w = true) (hbusy : s.chanBusy c = true) :
    Answers (.timingTableWrite req (0x190000 + 0x20 * c) w) s fun u =>
      u.rd F.TMG_DROP_CNT_COUNT = min (s.rd F.TMG_DROP_CNT_COUNT + 1) 65535 ∧ bitOf (u.rd Ev.tmg.bits) 0 = true ∧
      EventOnly s u ∧ Quiet ([(F.TMG_DROP_CNT_COUNT).addr, wseqOut] ++ evOut Ev.tmg) s u := by
  obtain ⟨u, hu, hcount, hbits, hevent, hquiet⟩ := answers_tmgDrop (c := .timingTableWrite req (0x190000 + 0x20 * c) w)
    (apply := fun s => s.tableWrite _ w.toNat) rfl hw (State.tableWrite_deskew_busy _ hbusy) rfl
  exact ⟨u, hu, hcount, by rw [hbits 0 (by decide), Nat.testBit_one_zero, Bool.or_true], hevent, hquiet⟩

theorem tmgModDelayWrite_taken {req : Req} {w : Word} {s : State} (hw : s.mayWrite req F.TMG_MOD_DELAY_DELAY.addr w = true)
    (hidle : s.bursts = []) :
    Answers (.tmgModDelayWrite req w) s fun u =>
      u.rd F.TMG_MOD_DELAY_DELAY = w.toNat % 2 ^ 16 ∧ RegsOnly s u ∧ Quiet [(F.TMG_MOD_DELAY_DELAY).addr, wseqOut] s u := by
  refine answers_regWrite (apply := fun s => s.modDelay w.toNat) rfl hw fun u honly hsame => ?_
  simp only [State.modDelay, hidle, List.isEmpty_nil, if_true] at honly hsame
  have honly' : RegsOnly s u := (RegsOnly.wr ..).trans honly
  refine ⟨?_, honly', Quiet.of_event honly'.event ((RegsSame.wr _ _ _ (by simp)).trans (hsame.mono (by simp)))⟩
  rw [hsame.rd _ (by decide)]
  exact State.rd_wr_same _ _ _ (by decide)

/-- Settles O20, clause by clause: the low word held, the pair in force, the pair out of range dropped, the periods at reset,
the pair of a busy grove dropped, a word of a timing-set entry taken, a deskew word of a busy channel dropped, the module
delay taken. -/
theorem timingTableWrites : Obligations.TimingTableWrites := by
  unfold Obligations.TimingTableWrites
  refine ⟨fun req g ts w s => tmgPeriodLoWrite_held, fun req g ts w s hw hidle hmin hmax => ?_,
    fun req g ts w s hw hidle hbad => ?_, reset_tmgPeriod, fun req g ts w s hw hbusy => ?_,
    fun req c ts k w s => timingTableWrite_entry_taken, fun req c w s => timingTableWrite_deskew_dropped,
    fun req w s => tmgModDelayWrite_taken⟩
  · refine tmgPeriodHiWrite_taken hw hidle (Bool.eq_false_iff.2 fun hbad => ?_)
    have hrange := (periodBad_iff _).1 hbad
    unfold State.askedPeriod at hrange
    omega
  · have hbad' : periodBad (s.askedPeriod req g ts w) = true := (periodBad_iff _).2 hbad
    obtain ⟨u, hu, hcount, -, hb1, hquiet⟩ := tmgPeriodHiWrite_dropped hw (by rw [hbad', Bool.or_true])
    exact ⟨u, hu, hcount, by rw [hb1, hbad', Bool.or_true], hquiet⟩
  · obtain ⟨u, hu, hcount, hb0, -, hquiet⟩ := tmgPeriodHiWrite_dropped hw (by rw [hbusy, Bool.not_false, Bool.true_or])
    exact ⟨u, hu, hcount, by rw [hb0, hbusy, Bool.not_false, Bool.or_true], hquiet⟩

end Sys2Proof.Machine
end

section
/-! Registers, events and lanes: what a counter, a pair and a run of writes read as, what an event leaves, and what a change of
a lane leaves. -/

namespace Sys2Proof.Machine

/-! ## Byte strings as numbers (R5) -/

theorem ofBytesLE_lt (l : List Byte) : ofBytesLE l < 256 ^ l.length := by
  induction l with
  | nil => exact Nat.one_pos
  | cons b r ih =>
    have hb := b.isLt
    simp only [ofBytesLE, List.length_cons, Nat.pow_succ]
    omega

theorem leAt_lt (l : List Byte) (off count : Nat) : leAt l off count < 256 ^ count :=
  (ofBytesLE_lt _).trans_le (Nat.pow_le_pow_right (by decide) (List.length_take_le ..))

/-! ## Counters, runs of writes and pairs (R5, R6) -/

/-- A saturating counter after one more. -/
theorem State.rd_incSat (s : State) (f : Fld) (h : f.lsb + f.width ≤ 32) :
    (s.incSat f).rd f = min (s.rd f + 1) (2 ^ f.width - 1) := by
  rw [State.incSat, State.rd_wr_same _ _ _ h]
  have hpos := Nat.two_pow_pos f.width
  exact Nat.mod_eq_of_lt (by omega)

/-- Of a run of writes to distinct registers each one reads as what was written to it. -/
theorem State.rd_foldl_wr (f : Nat → Fld) (v : Nat → Nat) (hinj : ∀ i j, (f i).addr = (f j).addr → i = j)
    (hfit : ∀ i, (f i).lsb + (f i).width ≤ 32) {i : Nat} (l : List Nat) (s : State) (hi : i ∈ l) :
    (l.foldl (fun s j => s.wr (f j) (v j)) s).rd (f i) = v i % 2 ^ (f i).width := by
  induction l generalizing s with
  | nil => exact absurd hi List.not_mem_nil
  | cons j r ih =>
    by_cases hr : i ∈ r
    · exact ih _ hr
    · obtain rfl : i = j := (List.mem_cons.1 hi).resolve_right hr
      have hrest : RegsSame (r.map fun j => (f j).addr) (s.wr (f i) (v i))
          (r.foldl (fun s j => s.wr (f j) (v j)) (s.wr (f i) (v i))) :=
        foldl_regsSame _ _ _ fun _ _ ha => RegsSame.wr _ _ _ (List.mem_map_of_mem ha)
      have hout : (f i).addr ∉ r.map fun j => (f j).addr := fun hm => by
        obtain ⟨j, hj, e⟩ := List.mem_map.1 hm
        exact hr (hinj _ _ e ▸ hj)
      exact (hrest.rd (f i) hout).trans (State.rd_wr_same _ _ _ (hfit i))

theorem RegsOnly.wrP (s : State) (f : Fld) (v : Nat) : RegsOnly s (s.wrP f v) := rfl

/-- The registers below an address are unchanged. -/
def WordsBelow (k : Nat) (s t : State) : Prop := ∀ b a, a < k → t.word b a = s.word b a

theorem WordsBelow.trans {j k : Nat} {s t u : State} (h : WordsBelow j s t) (h' : WordsBelow k t u) (hjk : j ≤ k) : WordsBelow j s u :=
  fun b a ha => (h' b a (ha.trans_le hjk)).trans (h b a ha)

theorem WordsBelow.wr {k : Nat} (s : State) (f : Fld) (v : Nat) (hf : k ≤ f.addr) : WordsBelow k s (s.wr f v) :=
  fun b a ha => State.word_wr s f v b a (.inl (by omega))

theorem WordsBelow.wrP {k : Nat} (s : State) (f : Fld) (v : Nat) (hf : k ≤ f.addr) : WordsBelow k s (s.wrP f v) :=
  (WordsBelow.wr _ _ _ hf).trans (WordsBelow.wr _ f.hi _ (hf.trans (Nat.le_add_right _ 4))) le_rfl

theorem WordsBelow.wrs {k : Nat} (s : State) (l : List (Fld × Nat)) (hl : ∀ x ∈ l, k ≤ x.1.addr) : WordsBelow k s (s.wrs l) := by
  unfold State.wrs
  induction l generalizing s with
  | nil => exact fun _ _ _ => rfl
  | cons x r ih =>
    exact (WordsBelow.wr s x.1 x.2 (hl x List.mem_cons_self)).trans (ih _ fun y hy => hl y (List.mem_cons_of_mem _ hy)) le_rfl

theorem WordsBelow.rdP {k : Nat} {s t : State} (h : WordsBelow k s t) (f : Fld) (hf : f.addr + 4 < k) : t.rdP f = s.rdP f := by
  rw [State.rdP, State.rdP, State.rd_of_word f (h _ _ (by omega)), State.rd_of_word f.hi (h _ _ hf)]

/-- A pair of whole words reads as what was written to it. -/
theorem State.rdP_wrP (s : State) {f : Fld} {v : Nat} (hlsb : f.lsb = 0) (hwidth : f.width = 32) (hv : v < 2 ^ 64) :
    (s.wrP f v).rdP f = v := by
  have hlo : (s.wrP f v).rd f = v % 2 ^ 32 := by
    rw [State.wrP, State.rd_wr_other _ _ _ _ (.inl (by simp only [Fld.hi]; omega)), State.rd_wr_same _ _ _ (by omega), hwidth]
  have hhi : (s.wrP f v).rd f.hi = v / 2 ^ 32 % 2 ^ 32 := by
    rw [State.wrP, State.rd_wr_same _ f.hi _ (by simp only [Fld.hi]; omega)]
    simp only [Fld.hi, hwidth]
  rw [State.rdP, hlo, hhi]
  omega

/-! ## Events (R513) -/

theorem EventOnly.links {s t : State} (h : EventOnly s t) : t.links = s.links := by
  unfold EventOnly at h; rw [h]

/-- The bit of an event is set. -/
theorem State.event_bit (s : State) (r : EvReg) {i : Nat} (hr : r.ev ∉ occOut) (hi : i < 32) :
    bitOf ((s.event r i).rd r.bits) i = true := by
  rw [State.event_bits s r i hr]
  simp only [Nat.testBit_mod_two_pow, Nat.testBit_or, Nat.testBit_two_pow_self, Bool.or_true, Bool.and_true, hi, decide_true]

theorem mfl_ev_notMem_occOut (n : Nat) : (Ev.mfl n).ev ∉ occOut := by
  simp only [Ev.mfl, occOut, Ev.sch, F.SCH_UNCLAIMED_COUNT, List.mem_cons, List.not_mem_nil, or_false]; omega

/-! ## Changing one lane -/

@[simp] theorem State.modLane_regs (s : State) (n : Fin 8) (f : Lane → Lane) : (s.modLane n f).regs = s.regs := rfl

@[simp] theorem State.modLane_rd (s : State) (n : Fin 8) (f : Lane → Lane) (x : Fld) : (s.modLane n f).rd x = s.rd x := rfl

@[simp] theorem State.modLane_linkLane (s : State) (n k : Fin 8) (f : Lane → Lane) :
    (s.modLane n f).linkLane k = s.linkLane k := rfl

theorem State.modLane_same (s : State) (n : Fin 8) (f : Lane → Lane) :
    (s.modLane n f).links.lanes[n] = f s.links.lanes[n] := upd_same ..

theorem State.modLane_other (s : State) {n k : Fin 8} (f : Lane → Lane) (h : k ≠ n) :
    (s.modLane n f).links.lanes[k] = s.links.lanes[k] := upd_other _ _ _ _ h

/-- What a change leaves of the lane it changes, it leaves of every lane. -/
theorem State.modLane_keeps {β : Type} (p : Lane → β) (s : State) (n k : Fin 8) (f : Lane → Lane) (hp : ∀ x, p (f x) = p x) :
    p (s.modLane n f).links.lanes[k] = p s.links.lanes[k] := by
  by_cases h : k = n
  · subst h; rw [State.modLane_same, hp]
  · rw [State.modLane_other s f h]

/-- Only what a change makes of the lane as it is counts. -/
theorem State.modLane_congr {s : State} {n : Fin 8} {f g : Lane → Lane} (h : f s.links.lanes[n] = g s.links.lanes[n]) :
    s.modLane n f = s.modLane n g := by
  simp only [State.modLane, upd, h]

/-- Two changes of one lane are one change. -/
theorem State.modLane_modLane (s : State) (n : Fin 8) (f g : Lane → Lane) :
    (s.modLane n f).modLane n g = s.modLane n fun k => g (f k) := by
  have h : upd (upd s.links.lanes n f) n g = upd s.links.lanes n fun k => g (f k) := by
    simp only [upd, Fin.getElem_fin, Vector.getElem_set_self, Vector.set_set]
  simp only [State.modLane, h]

theorem LanesOnly.modLane (s : State) (n : Fin 8) (f : Lane → Lane) : LanesOnly [n] s (s.modLane n f) :=
  ⟨fun _ hk => State.modLane_other s f fun e => hk (List.mem_singleton.2 e), rfl⟩

theorem LanesOnly.trans {out : List (Fin 8)} {s t u : State} (h : LanesOnly out s t) (k : LanesOnly out t u) :
    LanesOnly out s u := by
  obtain ⟨hlanes, hstate⟩ := h
  obtain ⟨klanes, kstate⟩ := k
  refine ⟨fun n hn => (klanes n hn).trans (hlanes n hn), ?_⟩
  rw [kstate, hstate]

theorem LanesOnly.mono {out out' : List (Fin 8)} {s t : State} (h : LanesOnly out s t) (k : ∀ n ∈ out, n ∈ out') :
    LanesOnly out' s t := ⟨fun n hn => h.1 n fun hm => hn (k n hm), h.2⟩

/-- A command that ends with a change of one lane. -/
theorem answers_modLane {c : Instr} {s t : State} {n : Fin 8} {f : Lane → Lane} {P : State → Prop}
    (hexec : exec c s = .next (t.modLane n f)) (hP : ∀ u, u.links.lanes[n] = f t.links.lanes[n] → LanesOnly [n] t u → P u) :
    Answers c s P :=
  ⟨_, hexec, hP _ (State.modLane_same ..) (LanesOnly.modLane ..)⟩

end Sys2Proof.Machine
end

section
/-! Frames of a Mafer lane (R333, R334, R338): what a lane sends, and what it makes of the line it receives. -/

namespace Sys2Proof.Machine

/-! ## Sending a frame (R333, R338) -/

/-- The tokens that wait after one has left. -/
def Lane.withOut (r : List Nat) (k : Lane) : Lane := { k with out := r }

/-- A bulk frame of the queue gets its number, spends a credit and is kept for a replay. -/
def Lane.spend (b : Bulk) (q : List Bulk) (k : Lane) : Lane :=
  { k with txq := q, txSeq := (k.txSeq + 1) % 4096, credit := k.credit - 1, replay := k.replay ++ [{ b with seq := k.txSeq }] }

/-- CREDIT leaves with a frame: what it tells is no longer owed, and the link was last in use at a point. -/
def Lane.tellFreed (credit at_ : Nat) (k : Lane) : Lane := { k with freed := k.freed - credit, usedAt := at_ }

/-- The frame of a token, a bulk frame and a CREDIT leaves on the line. -/
def Lane.emit (tok : Nat) (b : Option Bulk) (credit : Nat) (k : Lane) : Lane :=
  Lane.send { k with sent := tok, sentBulk := b, sentCredit := credit }

/-- A frame that leaves changes the line and the scrambler beside what was sent. -/
theorem Lane.emit_eq (tok : Nat) (b : Option Bulk) (credit : Nat) (k : Lane) :
    k.emit tok b credit = { k with
      sent := tok, sentBulk := b, sentCredit := credit, line := (k.emit tok b credit).line, txScr := (k.emit tok b credit).txScr } := by
  simp only [Lane.emit, Lane.send]

theorem Lane.emit_line (tok : Nat) (b : Option Bulk) (credit : Nat) (k : Lane) :
    (k.emit tok b credit).line = frameSync ++ (scrBytes scrambleBit k.txScr (k.emit tok b credit).frame).1 := by
  simp only [Lane.emit, Lane.send, Lane.frame]

/-- A waiting token that is no TIME token leaves as it stands. -/
theorem State.nextToken_of_out {s : State} {n : Fin 8} {t : Nat} {r : List Nat} (hout : s.links.lanes[n].out = t :: r)
    (ht : t % 16 ≠ 5) : s.nextToken n = (t, s.modLane n (Lane.withOut r)) := by
  have hfind : s.links.lanes[n].out.find? (fun t => t % 16 != 5) = some t := by
    rw [hout]; exact List.find?_cons_of_pos (bne_iff_ne.2 ht)
  have hqueue : s.unqueue n t = s.modLane n (Lane.withOut r) :=
    State.modLane_congr (by rw [hout, List.erase_cons_head, Lane.withOut])
  simp only [State.nextToken, hfind, hqueue]

/-- With no NAK and no frame to replay, the next frame goes against credit, and is kept while the replay buffer has room. -/
theorem State.nextBulk_of_txq {s : State} {m : Fin 8} {b : Bulk} {q : List Bulk} (hnak : s.links.lanes[m].nak = none)
    (hresend : s.links.lanes[m].resend = []) (htxq : s.links.lanes[m].txq = b :: q) (hcls : b.cls ≠ 1)
    (hcredit : 0 < s.links.lanes[m].credit) (hroom : s.links.lanes[m].replay.length < s.fifoFrames m) :
    s.nextBulk m = (some { b with seq := s.links.lanes[m].txSeq }, s.modLane m (Lane.spend b q)) := by
  have hall : s.links.lanes[m].replay.length + 1 - s.fifoFrames m = 0 := by omega
  simp only [State.nextBulk, hnak, hresend, htxq, if_neg hcredit.ne', if_neg hcls]
  exact congrArg (Prod.mk _) (State.modLane_congr (by simp only [Lane.spend, hall, List.drop_zero, Nat.reducePow]))

/-- What a frame that leaves changes: the link tells what it has freed and may count as used, and the lane's line is driven. -/
theorem exec_frameSend {s v : State} {n m : Fin 8} {t : Nat} {r : List Nat} {b : Option Bulk}
    (hstate : s.laneState n = 1 ∨ s.laneState n = 2) (hlink : s.linkLane n = m) (hout : s.links.lanes[n].out = t :: r)
    (ht : t % 16 ≠ 5)
    (hbulk : (if s.laneState n = 2 then (s.modLane n (Lane.withOut r)).nextBulk m else (none, s.modLane n (Lane.withOut r))) = (b, v)) :
    ∃ at_, exec (.frameSend n) s = .next ((v.modLane m (Lane.tellFreed (min 255 v.links.lanes[m].freed) at_)).modLane n
      (Lane.emit t b (min 255 v.links.lanes[m].freed))) := by
  subst hlink
  have hexec : exec (.frameSend n) s = execFrameSend n s := rfl
  simp only [hexec, execFrameSend, if_pos hstate, State.nextToken_of_out hout ht, State.laneState, State.modLane_rd, hbulk]
  split
  · exact ⟨_, by rw [State.modLane_modLane]; rfl⟩
  · have hsame : (v.modLane (s.linkLane n) fun k => { k with freed := k.freed - min 255 v.links.lanes[s.linkLane n].freed }) =
        v.modLane (s.linkLane n)
          (Lane.tellFreed (min 255 v.links.lanes[s.linkLane n].freed) v.links.lanes[s.linkLane n].usedAt) :=
      State.modLane_congr rfl
    exact ⟨_, by rw [hsame]; rfl⟩

/-- A lane in training sends its next token without a bulk frame. -/
theorem frameSend_training {n : Fin 8} {t : Nat} {r : List Nat} {s : State} (hstate : s.laneState n = 1)
    (hout : s.links.lanes[n].out = t :: r) (ht : t % 16 ≠ 5) :
    Answers (.frameSend n) s fun u =>
      u.links.lanes[n].sent = t ∧ u.links.lanes[n].sentBulk = none ∧ u.links.lanes[n].out = r ∧
      u.links.lanes[n].sentCredit = min 255 s.links.lanes[s.linkLane n].freed ∧
      u.links.lanes[s.linkLane n].freed = s.links.lanes[s.linkLane n].freed - min 255 s.links.lanes[s.linkLane n].freed ∧
      u.links.lanes[n].line = frameSync ++ (scrBytes scrambleBit s.links.lanes[n].txScr u.links.lanes[n].frame).1 ∧
      LanesOnly [n, s.linkLane n] s u := by
  obtain ⟨at_, hexec⟩ := exec_frameSend (.inl hstate) rfl hout ht (if_neg (by omega))
  rw [State.modLane_keeps (·.freed) s n (s.linkLane n) (Lane.withOut r) fun _ => rfl] at hexec
  generalize min 255 s.links.lanes[s.linkLane n].freed = credit at hexec ⊢
  refine ⟨_, hexec, ?_, ?_, ?_, ?_, ?_, ?_, ?_⟩
  · rw [State.modLane_same, Lane.emit_eq]
  · rw [State.modLane_same, Lane.emit_eq]
  · rw [State.modLane_same, Lane.emit_eq, State.modLane_keeps (·.out) _ _ _ (Lane.tellFreed credit at_) fun _ => rfl,
      State.modLane_same, Lane.withOut]
  · rw [State.modLane_same, Lane.emit_eq]
  · rw [State.modLane_keeps (·.freed) _ _ _ (Lane.emit t none credit) fun k => by rw [Lane.emit_eq],
      State.modLane_same, Lane.tellFreed, State.modLane_keeps (·.freed) _ _ _ (Lane.withOut r) fun _ => rfl]
  · rw [State.modLane_same, Lane.emit_line, State.modLane_keeps (·.txScr) _ _ _ (Lane.tellFreed credit at_) fun _ => rfl,
      State.modLane_keeps (·.txScr) _ _ _ (Lane.withOut r) fun _ => rfl]
  · have hlane (t : State) (f : Lane → Lane) : LanesOnly [n, s.linkLane n] t (t.modLane n f) :=
      (LanesOnly.modLane ..).mono (by simp)
    have hlink (t : State) (f : Lane → Lane) : LanesOnly [n, s.linkLane n] t (t.modLane (s.linkLane n) f) :=
      (LanesOnly.modLane ..).mono (by simp)
    exact (hlane ..).trans ((hlink ..).trans (hlane ..))

/-- A lane that is UP sends the next bulk frame of its link with the token. -/
theorem frameSend_up {n : Fin 8} {t : Nat} {r : List Nat} {b : Bulk} {q : List Bulk} {s : State} (hstate : s.laneState n = 2)
    (hlink : s.linkLane n = n) (hout : s.links.lanes[n].out = t :: r) (ht : t % 16 ≠ 5) (hnak : s.links.lanes[n].nak = none)
    (hresend : s.links.lanes[n].resend = []) (htxq : s.links.lanes[n].txq = b :: q) (hcls : b.cls ≠ 1)
    (hcredit : 0 < s.links.lanes[n].credit) (hroom : s.links.lanes[n].replay.length < s.fifoFrames n) :
    Answers (.frameSend n) s fun u =>
      u.links.lanes[n] = { s.links.lanes[n] with
        out := r, sent := t, sentBulk := some { b with seq := s.links.lanes[n].txSeq }, sentCredit := min 255 s.links.lanes[n].freed
        freed := s.links.lanes[n].freed - min 255 s.links.lanes[n].freed, txq := q
        txSeq := (s.links.lanes[n].txSeq + 1) % 4096, credit := s.links.lanes[n].credit - 1
        replay := s.links.lanes[n].replay ++ [{ b with seq := s.links.lanes[n].txSeq }], line := u.links.lanes[n].line
        txScr := u.links.lanes[n].txScr, usedAt := u.links.lanes[n].usedAt } ∧
      u.links.lanes[n].line = frameSync ++ (scrBytes scrambleBit s.links.lanes[n].txScr u.links.lanes[n].frame).1 ∧
      LanesOnly [n] s u := by
  have hkeep {β : Type} (p : Lane → β) (hp : ∀ k, p (Lane.withOut r k) = p k) :
      p (s.modLane n (Lane.withOut r)).links.lanes[n] = p s.links.lanes[n] := State.modLane_keeps p _ _ _ _ hp
  have hnext := State.nextBulk_of_txq (s := s.modLane n (Lane.withOut r)) ((hkeep (·.nak) fun _ => rfl).trans hnak)
    ((hkeep (·.resend) fun _ => rfl).trans hresend) ((hkeep (·.txq) fun _ => rfl).trans htxq) hcls
    ((hkeep (·.credit) fun _ => rfl).symm ▸ hcredit) ((hkeep (·.replay) fun _ => rfl).symm ▸ hroom)
  rw [hkeep (·.txSeq) fun _ => rfl, State.modLane_modLane] at hnext
  obtain ⟨at_, hexec⟩ := exec_frameSend (.inr hstate) hlink hout ht ((if_pos hstate).trans hnext)
  rw [State.modLane_same, State.modLane_modLane, State.modLane_modLane] at hexec
  refine answers_modLane hexec fun u hu honly => ⟨?_, ?_, honly⟩
  · rw [hu, Lane.emit_eq]; rfl
  · rw [hu, Lane.emit_line]; rfl

/-- A lane that is neither UP nor in training sends nothing. -/
theorem frameSend_off {n : Fin 8} {s : State} (h1 : s.laneState n ≠ 1) (h2 : s.laneState n ≠ 2) : NoEffect (.frameSend n) s :=
  if_neg (not_or.2 ⟨h1, h2⟩)

/-! ## Receiving a frame (R333, R334, R338) -/

/-- One frame further, copies of three-copy tokens are ignored for one frame less (R335). -/
def Lane.ageCopies (k : Lane) : Lane := { k with copies := (k.copies.map fun c => (c.1, c.2 - 1)).filter fun c => c.2 != 0 }

/-- A frame is discarded: the descrambler has seen it, and it counts among the bad ones and those without FRAME_SYNC. -/
def Lane.lose (scr noSync : Nat) (k : Lane) : Lane := { k.ageCopies with rxScr := scr, noSync := noSync, bad := k.bad + 1 }

/-- A good frame has passed the descrambler, and ends every run of bad ones. -/
def Lane.accept (scr : Nat) (k : Lane) : Lane := { k with rxScr := scr, noSync := 0, bad := 0 }

/-- The bulk frame expected next joins the receive FIFO, and its header gives credit. -/
def Lane.takeNext (d : Nat) (payload : List Byte) (k : Lane) : Lane :=
  { k with credit := k.credit + fieldOf d 16 8, rxSeq := (k.rxSeq + 1) % 4096, gap := false
           rxq := k.rxq ++ [⟨fieldOf d 0 4, k.rxSeq, payload.take (fieldOf d 24 6)⟩] }

/-- The first bulk frame out of order gives its credit, and a NAK names the one that is missing. -/
def Lane.takeGap (d : Nat) (k : Lane) : Lane :=
  { k with credit := k.credit + fieldOf d 16 8, gap := true, nak := some k.rxSeq }

/-- A lane that is neither UP nor in training takes nothing. -/
theorem frameReceive_off {n : Fin 8} {slot : Nat} {sub : Fin 4} {line : List Byte} {s : State} (h1 : s.laneState n ≠ 1)
    (h2 : s.laneState n ≠ 2) : NoEffect (.frameReceive n slot sub line) s :=
  if_pos ⟨h1, h2⟩

/-- Fewer than three discarded frames in a row do not make the link retrain (R344). -/
theorem State.discardFrame_eq {s : State} {n : Fin 8} (hbad : s.links.lanes[n].bad < 2) :
    s.discardFrame n = s.modLane n fun k => { k.ageCopies with bad := k.bad + 1 } := by
  unfold State.discardFrame
  dsimp only
  rw [if_neg]
  · rfl
  · rw [State.modLane_same]; dsimp only; omega

theorem State.takeBulk_next {s : State} {m : Fin 8} {d : Nat} (payload : List Byte) (hcls : fieldOf d 0 4 = 1 ∨ fieldOf d 0 4 = 2)
    (hseq : fieldOf d 4 12 = s.links.lanes[m].rxSeq) : s.takeBulk m d payload = s.modLane m (Lane.takeNext d payload) := by
  have hcls3 : ¬ fieldOf d 0 4 = 3 := by omega
  have hcls04 : ¬ (fieldOf d 0 4 = 0 ∨ 4 ≤ fieldOf d 0 4) := by omega
  simp only [State.takeBulk, if_neg hcls3, if_neg hcls04, State.modLane_same, hseq, if_true, State.modLane_modLane]
  exact State.modLane_congr rfl

theorem State.takeBulk_gap {s : State} {m : Fin 8} {d : Nat} (payload : List Byte) (hcls : fieldOf d 0 4 = 1)
    (hseq : fieldOf d 4 12 ≠ s.links.lanes[m].rxSeq) (hgap : s.links.lanes[m].gap = false) :
    s.takeBulk m d payload = s.modLane m (Lane.takeGap d) := by
  have hcls3 : ¬ fieldOf d 0 4 = 3 := by omega
  have hcls04 : ¬ (fieldOf d 0 4 = 0 ∨ 4 ≤ fieldOf d 0 4) := by omega
  simp only [State.takeBulk, if_neg hcls3, if_neg hcls04, State.modLane_same, if_neg hseq, hgap, Bool.false_eq_true, if_false,
    State.modLane_modLane]
  rfl

/-- A token NONE is discarded (R335). -/
theorem State.takeToken_none (s : State) (n : Fin 8) (slot at_ : Nat) {tok : Nat} (hty : tok % 16 = 0) :
    s.takeToken n slot tok at_ = s.modLane n Lane.ageCopies := by
  have hcopies : threeCopies tok = false := by simp only [threeCopies, hty]; decide
  simp only [State.takeToken, hcopies, hty, Bool.false_and, Bool.false_eq_true, if_false, true_or, or_true, if_true]
  rfl

/-- The first frame without FRAME_SYNC is discarded; no second one has made the link retrain (R334, R344). -/
theorem exec_frameReceive_noSync {n : Fin 8} (slot : Nat) (sub : Fin 4) {line : List Byte} {s : State} (hstate : s.laneState n = 2)
    (hsync : line.take 2 ≠ frameSync) (hbad : s.links.lanes[n].bad < 2) (hno : s.links.lanes[n].noSync = 0) :
    ∃ scr, exec (.frameReceive n slot sub line) s = .next (s.modLane n (Lane.lose scr 1)) := by
  have hexec : exec (.frameReceive n slot sub line) s = execFrameReceive n slot sub line s := rfl
  have hrun : ¬ (s.laneState n ≠ 1 ∧ s.laneState n ≠ 2) := by omega
  have hdiscard (scr : Nat) : (s.modLane n fun k => { k with rxScr := scr, noSync := k.noSync + 1 }).discardFrame n =
      s.modLane n (Lane.lose scr 1) := by
    rw [State.discardFrame_eq (by rw [State.modLane_same]; exact hbad), State.modLane_modLane]
    exact State.modLane_congr (by simp only [Lane.lose, Lane.ageCopies, hno])
  have hone (scr : Nat) : ¬ 2 ≤ (s.modLane n (Lane.lose scr 1)).links.lanes[n].noSync := by
    rw [State.modLane_same]; simp only [Lane.lose]; omega
  simp only [hexec, execFrameReceive, if_neg hrun, if_pos hsync, State.modLane_modLane, hdiscard, if_neg (hone _)]
  exact ⟨_, rfl⟩

/-- A frame with a wrong header CRC is counted and discarded (R334). -/
theorem exec_frameReceive_badCrc {n : Fin 8} (slot : Nat) (sub : Fin 4) {line : List Byte} {s : State} (hstate : s.laneState n = 2)
    (hsync : line.take 2 = frameSync) (hcrc : crc16 ((s.frameOf n line).take 22) ≠ leAt (s.frameOf n line) 22 2)
    (hbad : s.links.lanes[n].bad < 2) :
    ∃ scr, exec (.frameReceive n slot sub line) s = .next ((s.incSat (F.MFL_HDR_ERR_COUNT n)).modLane n (Lane.lose scr 0)) := by
  have hexec : exec (.frameReceive n slot sub line) s = execFrameReceive n slot sub line s := rfl
  have hrun : ¬ (s.laneState n ≠ 1 ∧ s.laneState n ≠ 2) := by omega
  have hdiscard (scr : Nat) :
      ((s.modLane n fun k => { k with rxScr := scr, noSync := 0 }).incSat (F.MFL_HDR_ERR_COUNT n)).discardFrame n =
        (s.incSat (F.MFL_HDR_ERR_COUNT n)).modLane n (Lane.lose scr 0) := by
    have hswap : (s.modLane n fun k => { k with rxScr := scr, noSync := 0 }).incSat (F.MFL_HDR_ERR_COUNT n) =
        (s.incSat (F.MFL_HDR_ERR_COUNT n)).modLane n fun k => { k with rxScr := scr, noSync := 0 } := rfl
    rw [hswap, State.discardFrame_eq (by rw [State.modLane_same]; exact hbad), State.modLane_modLane]
    rfl
  unfold State.frameOf at hcrc
  simp only [hexec, execFrameReceive, if_neg hrun, if_neg (not_not.2 hsync), State.modLane_modLane, hdiscard, if_pos (Or.inr hcrc)]
  exact ⟨_, rfl⟩

/-- Of a good frame of a lane that is UP the link takes the bulk part, and the lane the token (R334). -/
theorem exec_frameReceive_good {n : Fin 8} (slot : Nat) (sub : Fin 4) {line : List Byte} {s : State} (hstate : s.laneState n = 2)
    (hsync : line.take 2 = frameSync) (hlen : (s.frameOf n line).length = 68)
    (hcrc : crc16 ((s.frameOf n line).take 22) = leAt (s.frameOf n line) 22 2) :
    ∃ scr at_, exec (.frameReceive n slot sub line) s = .next
      (((s.modLane n (Lane.accept scr)).takeBulk (s.linkLane n) (leAt ((s.frameOf n line).take 22) 16 6)
        ((s.frameOf n line).drop 24)).takeToken n slot (leAt ((s.frameOf n line).take 22) 0 16) at_) := by
  have hexec : exec (.frameReceive n slot sub line) s = execFrameReceive n slot sub line s := rfl
  have hrun : ¬ (s.laneState n ≠ 1 ∧ s.laneState n ≠ 2) := by omega
  have hgood : ¬ ((s.frameOf n line).length ≠ 68 ∨ crc16 ((s.frameOf n line).take 22) ≠ leAt (s.frameOf n line) 22 2) :=
    fun h => h.elim (· hlen) (· hcrc)
  unfold State.frameOf at hgood ⊢
  unfold State.laneState at hstate
  simp only [hexec, execFrameReceive, if_neg hrun, if_neg (not_not.2 hsync), State.modLane_modLane, if_neg hgood,
    State.laneState, State.modLane_rd, if_pos hstate, State.modLane_linkLane]
  exact ⟨_, _, rfl⟩

theorem frameReceive_noSync {n : Fin 8} {slot : Nat} {sub : Fin 4} {line : List Byte} {s : State} (hstate : s.laneState n = 2)
    (hsync : line.take 2 ≠ frameSync) (hbad : s.links.lanes[n].bad < 2) (hno : s.links.lanes[n].noSync = 0) :
    Answers (.frameReceive n slot sub line) s fun u =>
      u.links.lanes[n].noSync = 1 ∧ u.links.lanes[n].bad = s.links.lanes[n].bad + 1 ∧
      u.links.lanes[n].inbox = s.links.lanes[n].inbox ∧ u.links.lanes[n].rxq = s.links.lanes[n].rxq ∧ LanesOnly [n] s u := by
  obtain ⟨scr, hexec⟩ := exec_frameReceive_noSync slot sub hstate hsync hbad hno
  refine answers_modLane hexec fun u hu honly => ⟨?_, ?_, ?_, ?_, honly⟩ <;> rw [hu] <;> rfl

theorem frameReceive_badCrc {n : Fin 8} {slot : Nat} {sub : Fin 4} {line frame : List Byte} {s : State} (hstate : s.laneState n = 2)
    (hsync : line.take 2 = frameSync) (hframe : s.frameOf n line = frame) (hcrc : crc16 (frame.take 22) ≠ leAt frame 22 2)
    (hbad : s.links.lanes[n].bad < 2) :
    Answers (.frameReceive n slot sub line) s fun u =>
      u.rd (F.MFL_HDR_ERR_COUNT n) = min (s.rd (F.MFL_HDR_ERR_COUNT n) + 1) 65535 ∧
      u.links.lanes[n].bad = s.links.lanes[n].bad + 1 ∧ u.links.lanes[n].inbox = s.links.lanes[n].inbox ∧
      u.links.lanes[n].rxq = s.links.lanes[n].rxq ∧ (∀ k, k ≠ n → u.links.lanes[k] = s.links.lanes[k]) ∧
      u = { s with regs := u.regs, links := { s.links with lanes := u.links.lanes } } ∧
      Quiet [(F.MFL_HDR_ERR_COUNT n).addr] s u := by
  subst hframe
  obtain ⟨scr, hexec⟩ := exec_frameReceive_badCrc slot sub hstate hsync hcrc hbad
  refine answers_modLane hexec fun u hu ⟨hother, hrest⟩ => ?_
  have hregs : u.regs = (s.incSat (F.MFL_HDR_ERR_COUNT n)).regs := by rw [hrest]
  refine ⟨?_, by rw [hu]; rfl, by rw [hu]; rfl, by rw [hu]; rfl,
    fun k hk => hother k (fun h => hk (List.mem_singleton.1 h)), ?_, ?_, ?_⟩
  · exact (State.rd_of_word _ (by simp only [State.word, hregs])).trans (State.rd_incSat s _ (by simp [F.MFL_HDR_ERR_COUNT]))
  · rw [hrest]; rfl
  · exact (RegsSame.incSat s _ 1 (List.mem_singleton_self _)).trans (RegsSame.of_regs _ hregs)
  · rw [hrest]; exact BytesSame.refl s

theorem frameReceive_next {n : Fin 8} {slot : Nat} {sub : Fin 4} {line frame : List Byte} {s : State} (hstate : s.laneState n = 2)
    (hsync : line.take 2 = frameSync) (hframe : s.frameOf n line = frame) (hlink : s.linkLane n = n) (hlen : frame.length = 68)
    (hcrc : crc16 (frame.take 22) = leAt frame 22 2) (hnone : leAt (frame.take 22) 0 16 % 16 = 0)
    (hcls : fieldOf (leAt (frame.take 22) 16 6) 0 4 = 1 ∨ fieldOf (leAt (frame.take 22) 16 6) 0 4 = 2)
    (hseq : fieldOf (leAt (frame.take 22) 16 6) 4 12 = s.links.lanes[n].rxSeq) :
    Answers (.frameReceive n slot sub line) s fun u =>
      u.links.lanes[n].rxq = s.links.lanes[n].rxq ++ [⟨fieldOf (leAt (frame.take 22) 16 6) 0 4, s.links.lanes[n].rxSeq,
        (frame.drop 24).take (fieldOf (leAt (frame.take 22) 16 6) 24 6)⟩] ∧
      u.links.lanes[n].rxSeq = (s.links.lanes[n].rxSeq + 1) % 4096 ∧
      u.links.lanes[n].credit = s.links.lanes[n].credit + fieldOf (leAt (frame.take 22) 16 6) 16 8 ∧
      u.links.lanes[n].bad = 0 ∧ u.links.lanes[n].noSync = 0 ∧ u.links.lanes[n].gap = false ∧ LanesOnly [n] s u := by
  subst hframe
  obtain ⟨scr, at_, hexec⟩ := exec_frameReceive_good slot sub hstate hsync hlen hcrc
  rw [hlink, State.takeBulk_next _ hcls (by rw [State.modLane_same]; exact hseq), State.takeToken_none _ _ _ _ hnone,
    State.modLane_modLane, State.modLane_modLane] at hexec
  refine answers_modLane hexec fun u hu honly => ⟨?_, ?_, ?_, ?_, ?_, ?_, honly⟩ <;> rw [hu] <;> rfl

theorem frameReceive_gap {n : Fin 8} {slot : Nat} {sub : Fin 4} {line frame : List Byte} {s : State} (hstate : s.laneState n = 2)
    (hsync : line.take 2 = frameSync) (hframe : s.frameOf n line = frame) (hlink : s.linkLane n = n) (hlen : frame.length = 68)
    (hcrc : crc16 (frame.take 22) = leAt frame 22 2) (hnone : leAt (frame.take 22) 0 16 % 16 = 0)
    (hcls : fieldOf (leAt (frame.take 22) 16 6) 0 4 = 1)
    (hseq : fieldOf (leAt (frame.take 22) 16 6) 4 12 ≠ s.links.lanes[n].rxSeq) (hgap : s.links.lanes[n].gap = false) :
    Answers (.frameReceive n slot sub line) s fun u =>
      u.links.lanes[n].rxq = s.links.lanes[n].rxq ∧ u.links.lanes[n].rxSeq = s.links.lanes[n].rxSeq ∧
      u.links.lanes[n].gap = true ∧ u.links.lanes[n].nak = some s.links.lanes[n].rxSeq ∧ LanesOnly [n] s u := by
  subst hframe
  obtain ⟨scr, at_, hexec⟩ := exec_frameReceive_good slot sub hstate hsync hlen hcrc
  rw [hlink, State.takeBulk_gap _ hcls (by rw [State.modLane_same]; exact hseq) (by rw [State.modLane_same]; exact hgap),
    State.takeToken_none _ _ _ _ hnone, State.modLane_modLane, State.modLane_modLane] at hexec
  refine answers_modLane hexec fun u hu honly => ⟨?_, ?_, ?_, ?_, honly⟩ <;> rw [hu] <;> rfl

end Sys2Proof.Machine
end

section
/-! Bulk traffic of a Mafer link (R338 to R340): NAKs, the mailbox, the places of peers, and the obligation O40. -/

namespace Sys2Proof.Machine

/-! ## NAK (R338) -/

/-- The NAK taken names a frame still held: it and those after it are sent again. -/
theorem nakReceive_held {n : Fin 8} {seq : Nat} {b x : Bulk} {r : List Bulk} {s : State}
    (hfind : (s.links.lanes[s.linkLane n].rxq.find? fun b => b.cls == 3 && b.seq == seq) = some b)
    (hheld : (s.links.lanes[s.linkLane n].replay.dropWhile fun x => x.seq != seq) = x :: r) :
    Answers (.nakReceive n seq) s fun u =>
      u.links.lanes[s.linkLane n] = { s.links.lanes[s.linkLane n] with
        rxq := s.links.lanes[s.linkLane n].rxq.erase b, resend := x :: r } ∧ LanesOnly [s.linkLane n] s u := by
  have hexec : exec (.nakReceive n seq) s = execNakReceive n seq s := rfl
  simp only [execNakReceive, hfind, State.modLane_same, hheld, List.isEmpty_cons, Bool.false_eq_true, if_false,
    State.modLane_modLane] at hexec
  exact answers_modLane hexec fun u hu honly => ⟨hu, honly⟩

theorem nakReceive_none {n : Fin 8} {seq : Nat} {s : State} (hno : ∀ b ∈ s.links.lanes[s.linkLane n].rxq, b.cls ≠ 3) :
    NoEffect (.nakReceive n seq) s := by
  have hexec : exec (.nakReceive n seq) s = execNakReceive n seq s := rfl
  have hfind : (s.links.lanes[s.linkLane n].rxq.find? fun b => b.cls == 3 && b.seq == seq) = none :=
    List.find?_eq_none.2 fun b hb h => hno b hb (by simp only [Bool.and_eq_true, beq_iff_eq] at h; exact h.1)
  simp only [NoEffect, hexec, execNakReceive, hfind]

/-! ## The mailbox (R339) -/

theorem mflMsgSend_queued {n : Fin 8} {s : State} (hlink : s.linkLane n = n) (hfree : s.on (F.MFL_MSG_SEND_SEND n) = false) :
    Answers (.mflMsgSend n) s fun u =>
      u.links.lanes[n].txq = s.links.lanes[n].txq ++
        [⟨1, 0, (List.range 11).flatMap fun i => bytesLE 4 (s.rd (F.MFL_MSG_TX_DATA n i))⟩] ∧
      u.rd (F.MFL_MSG_SEND_SEND n) = 1 ∧ u = { s with regs := u.regs, links := { s.links with lanes := u.links.lanes } } ∧
      Quiet [(F.MFL_MSG_SEND_SEND n).addr] s u := by
  have hexec : exec (.mflMsgSend n) s = .next (s.msgSend n) := rfl
  simp only [State.msgSend, hlink, ne_eq, not_true_eq_false, if_false, hfree, Bool.false_eq_true, State.queueBulk] at hexec
  refine ⟨_, hexec, ?_, ?_, rfl, ?_, ?_⟩
  · rw [State.wr_links, State.modLane_same]
  · exact State.rd_wr_same _ (F.MFL_MSG_SEND_SEND n) 1 (by simp [F.MFL_MSG_SEND_SEND])
  · exact RegsSame.trans (RegsSame.of_regs _ (State.modLane_regs ..)) (RegsSame.wr _ _ _ (List.mem_singleton_self _))
  · exact BytesSame.of_eq rfl rfl rfl rfl

theorem mflMsgSend_busy {n : Fin 8} {s : State} (hlink : s.linkLane n = n) (hbusy : s.on (F.MFL_MSG_SEND_SEND n) = true) :
    Answers (.mflMsgSend n) s fun u =>
      bitOf (u.rd (Ev.mfl n).bits) 9 = true ∧ EventOnly s u ∧ Quiet (evOut (Ev.mfl n)) s u := by
  have hexec : exec (.mflMsgSend n) s = .next (s.msgSend n) := rfl
  simp only [State.msgSend, hlink, ne_eq, not_true_eq_false, if_false, hbusy, if_true] at hexec
  have hevent := State.event_event s (Ev.mfl n) 9
  exact ⟨_, hexec, State.event_bit _ _ (mfl_ev_notMem_occOut _) (by decide), hevent,
    Quiet.of_event hevent (State.event_regs s (Ev.mfl n) 9)⟩

/-- The registers that show a link's messages: the count, and the words of the oldest. -/
def msgOut (m : Fin 8) : List Nat := (F.MFL_MSG_RXCTL_COUNT m).addr :: (List.range 11).map fun i => (F.MFL_MSG_RX_DATA m i).addr

theorem State.noteMsgs_regsOnly (s : State) (m : Fin 8) : RegsOnly s (s.noteMsgs m) :=
  (RegsOnly.wr ..).trans (foldl_regsOnly _ _ _ fun _ _ => RegsOnly.wr ..)

theorem State.noteMsgs_regs (s : State) (m : Fin 8) : RegsSame (msgOut m) s (s.noteMsgs m) :=
  (RegsSame.wr _ _ _ (List.mem_cons_self ..)).trans (foldl_regsSame _ _ _ fun _ _ hi =>
    RegsSame.wr _ _ _ (List.mem_cons_of_mem _ (List.mem_map_of_mem hi)))

@[simp] theorem State.noteMsgs_links (s : State) (m : Fin 8) : (s.noteMsgs m).links = s.links :=
  (State.noteMsgs_regsOnly s m).event.links

theorem msgRx_inj (m i j : Nat) (h : (F.MFL_MSG_RX_DATA m i).addr = (F.MFL_MSG_RX_DATA m j).addr) : i = j := by
  simp only [F.MFL_MSG_RX_DATA] at h; omega

theorem State.noteMsgs_data (s : State) (m : Fin 8) (i : Fin 11) :
    (s.noteMsgs m).rd (F.MFL_MSG_RX_DATA m i) = leAt (s.links.lanes[m].msgs.headD []) (4 * i) 4 := by
  have hrd := State.rd_foldl_wr (fun i => F.MFL_MSG_RX_DATA m i) (fun i => leAt (s.links.lanes[m].msgs.headD []) (4 * i) 4)
    (msgRx_inj m) (fun _ => le_refl 32) (List.range 11) (s.wr (F.MFL_MSG_RXCTL_COUNT m) s.links.lanes[m].msgs.length)
    (List.mem_range.2 i.isLt)
  exact hrd.trans (Nat.mod_eq_of_lt (leAt_lt _ _ 4))

/-- A word of the oldest message lies below MFL_MSG_RXCTL. -/
theorem msgRxctl_notMem_rx (m : Nat) : 0xD01EC + 0x100 * m ∉ (List.range 11).map fun i => (F.MFL_MSG_RX_DATA m i).addr := by
  simp only [F.MFL_MSG_RX_DATA, List.mem_map, List.mem_range]
  rintro ⟨i, hi, e⟩
  omega

/-- A field of MFL_MSG_RXCTL shows what it shows once the count is written. -/
theorem State.noteMsgs_rxctl (s : State) (m : Fin 8) (f : Fld) (hf : f.addr = 0xD01EC + 0x100 * m) :
    (s.noteMsgs m).rd f = (s.wr (F.MFL_MSG_RXCTL_COUNT m) s.links.lanes[m].msgs.length).rd f := by
  have hrest : RegsSame ((List.range 11).map fun i => (F.MFL_MSG_RX_DATA m i).addr)
      (s.wr (F.MFL_MSG_RXCTL_COUNT m) s.links.lanes[m].msgs.length) (s.noteMsgs m) :=
    foldl_regsSame _ _ _ fun _ _ hi => RegsSame.wr _ _ _ (List.mem_map_of_mem hi)
  exact hrest.rd f (hf ▸ msgRxctl_notMem_rx m)

theorem State.noteMsgs_count {s : State} {m : Fin 8} (h : s.links.lanes[m].msgs.length < 32) :
    (s.noteMsgs m).rd (F.MFL_MSG_RXCTL_COUNT m) = s.links.lanes[m].msgs.length := by
  rw [State.noteMsgs_rxctl s m _ rfl, State.rd_wr_same _ _ _ (by simp [F.MFL_MSG_RXCTL_COUNT])]
  exact Nat.mod_eq_of_lt h

theorem State.noteMsgs_dropped (s : State) (m : Fin 8) :
    (s.noteMsgs m).rd (F.MFL_MSG_RXCTL_DROPPED m) = s.rd (F.MFL_MSG_RXCTL_DROPPED m) := by
  rw [State.noteMsgs_rxctl s m _ rfl]
  exact State.rd_wr_beside _ _ _ _ rfl rfl (by simp [F.MFL_MSG_RXCTL_COUNT])
    (.inl (by simp [F.MFL_MSG_RXCTL_COUNT, F.MFL_MSG_RXCTL_DROPPED]))

/-- The registers that an event of a link can reach show no message. -/
theorem msg_notMem_evOut (m : Nat) {a : Nat} (ha : a = 0xD01EC + 0x100 * m ∨ ∃ i < 11, a = 0xD01C0 + 0x100 * m + 0x4 * i) :
    a ∉ evOut (Ev.mfl m) := by
  simp only [evOut, Ev.mfl, Ev.sch, F.SCH_UNCLAIMED_COUNT, List.mem_cons, List.not_mem_nil, or_false]
  obtain rfl | ⟨i, hi, rfl⟩ := ha <;> omega

/-- The oldest frame leaves the receive FIFO, and its place is owed to the far end. -/
def Lane.popRx (r : List Bulk) (k : Lane) : Lane := { k with rxq := r, freed := k.freed + 1 }

/-- A message waits in the mailbox. -/
def Lane.addMsg (msg : List Byte) (k : Lane) : Lane := { k with msgs := k.msgs ++ [msg] }

/-- The oldest bulk frame of a link, where a command names its class and its bytes, is taken. -/
theorem State.takeRx_head {s : State} {n : Fin 8} {b : Bulk} {r : List Bulk} {cls : Nat}
    (hrx : s.links.lanes[s.linkLane n].rxq = b :: r) (hcls : b.cls = cls) :
    s.takeRx n cls b.data = some (s.modLane (s.linkLane n) (Lane.popRx r)) := by
  simp only [State.takeRx, hrx, hcls, and_self, if_true]
  exact congrArg some (State.modLane_congr rfl)

theorem exec_msgReceive_kept {n : Fin 8} {b : Bulk} {r : List Bulk} {s : State} (hrx : s.links.lanes[s.linkLane n].rxq = b :: r)
    (hcls : b.cls = 1) (hroom : s.links.lanes[s.linkLane n].msgs.length < 16) :
    exec (.msgReceive n b.data) s = .next (((s.modLane (s.linkLane n) fun k => (k.popRx r).addMsg b.data).noteMsgs
      (s.linkLane n)).event (Ev.mfl (s.linkLane n)) 6) := by
  have hexec : exec (.msgReceive n b.data) s = execMsgReceive n b.data s := rfl
  have hroom' : (s.modLane (s.linkLane n) (Lane.popRx r)).links.lanes[s.linkLane n].msgs.length < 16 := by
    rw [State.modLane_same]; exact hroom
  simp only [hexec, execMsgReceive, State.takeRx_head hrx hcls, if_pos hroom', State.modLane_modLane]
  rfl

theorem msgReceive_kept {n : Fin 8} {b : Bulk} {r : List Bulk} {s : State} (hrx : s.links.lanes[s.linkLane n].rxq = b :: r)
    (hcls : b.cls = 1) (hroom : s.links.lanes[s.linkLane n].msgs.length < 16) :
    Answers (.msgReceive n b.data) s fun u =>
      u.links.lanes[s.linkLane n] = { s.links.lanes[s.linkLane n] with
        rxq := r, freed := s.links.lanes[s.linkLane n].freed + 1, msgs := s.links.lanes[s.linkLane n].msgs ++ [b.data] } ∧
      u.rd (F.MFL_MSG_RXCTL_COUNT (s.linkLane n)) = s.links.lanes[s.linkLane n].msgs.length + 1 ∧
      (∀ i : Fin 11, u.rd (F.MFL_MSG_RX_DATA (s.linkLane n) i) = leAt (u.links.lanes[s.linkLane n].msgs.headD []) (4 * i) 4) ∧
      bitOf (u.rd (Ev.mfl (s.linkLane n)).bits) 6 = true := by
  have hexec := exec_msgReceive_kept hrx hcls hroom
  generalize hv : (s.modLane (s.linkLane n) fun k => (k.popRx r).addMsg b.data) = v at hexec
  have hlane : v.links.lanes[s.linkLane n] = (s.links.lanes[s.linkLane n].popRx r).addMsg b.data := by
    rw [← hv, State.modLane_same]
  have hlen : v.links.lanes[s.linkLane n].msgs.length = s.links.lanes[s.linkLane n].msgs.length + 1 := by
    rw [hlane]; exact List.length_append
  have hlinks : ((v.noteMsgs (s.linkLane n)).event (Ev.mfl (s.linkLane n)) 6).links = v.links :=
    (State.event_event ..).links.trans (State.noteMsgs_links ..)
  have hregs : RegsSame _ _ ((v.noteMsgs (s.linkLane n)).event (Ev.mfl (s.linkLane n)) 6) :=
    State.event_regs (v.noteMsgs (s.linkLane n)) (Ev.mfl (s.linkLane n)) 6
  refine ⟨_, hexec, ?_, ?_, fun i => ?_, State.event_bit _ _ (mfl_ev_notMem_occOut _) (by decide)⟩
  · rw [hlinks, hlane]; rfl
  · rw [hregs.rd _ (msg_notMem_evOut _ (.inl rfl)), State.noteMsgs_count (by omega), hlen]
  · rw [hregs.rd _ (msg_notMem_evOut _ (.inr ⟨i, i.isLt, rfl⟩)), State.noteMsgs_data, hlinks]

theorem msgReceive_dropped {n : Fin 8} {b : Bulk} {r : List Bulk} {s : State} (hrx : s.links.lanes[s.linkLane n].rxq = b :: r)
    (hcls : b.cls = 1) (hfull : s.links.lanes[s.linkLane n].msgs.length = 16) :
    Answers (.msgReceive n b.data) s fun u =>
      u.links.lanes[s.linkLane n].msgs = s.links.lanes[s.linkLane n].msgs ∧ u.links.lanes[s.linkLane n].rxq = r ∧
      u.rd (F.MFL_MSG_RXCTL_DROPPED (s.linkLane n)) = min (s.rd (F.MFL_MSG_RXCTL_DROPPED (s.linkLane n)) + 1) 65535 ∧
      bitOf (u.rd (Ev.mfl (s.linkLane n)).bits) 6 = true ∧
      Quiet ([(F.MFL_MSG_RXCTL_COUNT (s.linkLane n)).addr] ++ evOut (Ev.mfl (s.linkLane n))) s u := by
  have hfull' : ¬ (s.modLane (s.linkLane n) (Lane.popRx r)).links.lanes[s.linkLane n].msgs.length < 16 := by
    rw [State.modLane_same]; exact hfull.not_lt
  have hexec : exec (.msgReceive n b.data) s = execMsgReceive n b.data s := rfl
  simp only [execMsgReceive, State.takeRx_head hrx hcls, if_neg hfull'] at hexec
  have hevent : EventOnly _ _ := State.event_event ((s.modLane (s.linkLane n) (Lane.popRx r)).incSat
    (F.MFL_MSG_RXCTL_DROPPED (s.linkLane n))) (Ev.mfl (s.linkLane n)) 6
  have hregs : RegsSame _ _ _ := State.event_regs ((s.modLane (s.linkLane n) (Lane.popRx r)).incSat
    (F.MFL_MSG_RXCTL_DROPPED (s.linkLane n))) (Ev.mfl (s.linkLane n)) 6
  refine ⟨_, hexec, ?_, ?_, ?_, State.event_bit _ _ (mfl_ev_notMem_occOut _) (by decide), ?_, ?_⟩
  · rw [hevent.links, State.incSat_links, State.modLane_same]; rfl
  · rw [hevent.links, State.incSat_links, State.modLane_same]; rfl
  · rw [hregs.rd _ (msg_notMem_evOut _ (.inl rfl)), State.rd_incSat _ _ (by simp [F.MFL_MSG_RXCTL_DROPPED])]; rfl
  · exact (RegsSame.of_regs (t := s.modLane (s.linkLane n) (Lane.popRx r)) _ rfl).trans
      ((RegsSame.incSat _ _ 1 (by simp [F.MFL_MSG_RXCTL_DROPPED, F.MFL_MSG_RXCTL_COUNT])).trans
        (hregs.mono fun _ h => List.mem_append_right _ h))
  · exact BytesSame.trans (BytesSame.of_eq rfl rfl rfl rfl) hevent.bytes

theorem mflMsgPop_next {n : Fin 8} {m : List Byte} {r : List (List Byte)} {s : State} (hlink : s.linkLane n = n)
    (hmsgs : s.links.lanes[n].msgs = m :: r) (hr : r.length < 32) :
    Answers (.mflMsgPop n) s fun u =>
      u.links.lanes[n] = { s.links.lanes[n] with msgs := r } ∧ u.rd (F.MFL_MSG_RXCTL_COUNT n) = r.length ∧
      u.rd (F.MFL_MSG_RXCTL_DROPPED n) = s.rd (F.MFL_MSG_RXCTL_DROPPED n) ∧
      (∀ i : Fin 11, u.rd (F.MFL_MSG_RX_DATA n i) = leAt (r.headD []) (4 * i) 4) ∧
      Quiet ((F.MFL_MSG_RXCTL_COUNT n).addr :: (List.range 11).map fun i => (F.MFL_MSG_RX_DATA n i).addr) s u := by
  have hexec : exec (.mflMsgPop n) s = .next (s.msgPop n) := rfl
  rw [State.msgPop, if_neg (not_not.2 hlink)] at hexec
  generalize hv : (s.modLane n fun k => { k with msgs := k.msgs.drop 1 }) = v at hexec
  have hlane : v.links.lanes[n] = { s.links.lanes[n] with msgs := r } := by
    rw [← hv, State.modLane_same, hmsgs, List.drop_one, List.tail_cons]
  have hmsgs' : v.links.lanes[n].msgs = r := by rw [hlane]
  refine ⟨_, hexec, ?_, ?_, ?_, fun i => ?_, ?_, ?_⟩
  · rw [State.noteMsgs_links, hlane]
  · rw [State.noteMsgs_count (by rw [hmsgs']; exact hr), hmsgs']
  · rw [State.noteMsgs_dropped, ← hv, State.modLane_rd]
  · rw [State.noteMsgs_data, hmsgs']
  · exact RegsSame.trans (t := v) (RegsSame.of_regs _ (by rw [← hv]; rfl)) (State.noteMsgs_regs v n)
  · exact BytesSame.trans (t := v) (by rw [← hv]; exact BytesSame.refl s) (State.noteMsgs_regsOnly v n).event.bytes

/-! ## The places of peers (R340) -/

/-- The fields of MFL_PEER_FF_LOC and MFL_PEER_STAT that a member's fail data fill (R340). -/
def peerStat (l p ch : Nat) (failed sat : Bool) (tag epoch : Nat) : List (Fld × Nat) :=
  [(F.MFL_PEER_FF_LOC_CH l p, ch), (F.MFL_PEER_FF_LOC_FAILED l p, b2n failed), (F.MFL_PEER_FF_LOC_SAT l p, b2n sat),
    (F.MFL_PEER_STAT_VALID l p, 1), (F.MFL_PEER_STAT_TAG l p, tag), (F.MFL_PEER_STAT_EPOCH l p, epoch)]

theorem State.putPeer_eq (s : State) (l p failcyc fails ff ch : Nat) (failed sat : Bool) (tag epoch : Nat) :
    s.putPeer l p failcyc fails ff ch failed sat tag epoch =
      (((s.wrP (F.MFL_PEER_FAILCYC_LO_COUNT l p) failcyc).wrP (F.MFL_PEER_FAILS_LO_COUNT l p) fails).wrP
        (F.MFL_PEER_FF_LO_CYCLE l p) ff).wrs (peerStat l p ch failed sat tag epoch) := rfl

theorem peerStat_above {l p ch : Nat} {failed sat : Bool} {tag epoch : Nat} :
    ∀ x ∈ peerStat l p ch failed sat tag epoch, 0xD1018 + 0x80 * l + 0x20 * p ≤ x.1.addr := by
  simp only [peerStat, List.forall_mem_cons, F.MFL_PEER_FF_LOC_CH, F.MFL_PEER_FF_LOC_FAILED, F.MFL_PEER_FF_LOC_SAT,
    F.MFL_PEER_STAT_VALID, F.MFL_PEER_STAT_TAG, F.MFL_PEER_STAT_EPOCH]
  exact ⟨by omega, by omega, by omega, by omega, by omega, by omega, fun _ h => absurd h List.not_mem_nil⟩

/-- VALID stays set while TAG and EPOCH beside it are written. -/
theorem State.wrs_peerStat_valid (s : State) (l p ch : Nat) (failed sat : Bool) (tag epoch : Nat) :
    (s.wrs (peerStat l p ch failed sat tag epoch)).rd (F.MFL_PEER_STAT_VALID l p) = 1 := by
  simp only [State.wrs, peerStat, List.foldl_cons, List.foldl_nil]
  rw [State.rd_wr_beside _ (F.MFL_PEER_STAT_EPOCH l p) (F.MFL_PEER_STAT_VALID l p) _ rfl rfl (by simp [F.MFL_PEER_STAT_EPOCH])
      (.inr (by simp [F.MFL_PEER_STAT_VALID, F.MFL_PEER_STAT_EPOCH])),
    State.rd_wr_beside _ (F.MFL_PEER_STAT_TAG l p) (F.MFL_PEER_STAT_VALID l p) _ rfl rfl (by simp [F.MFL_PEER_STAT_TAG])
      (.inr (by simp [F.MFL_PEER_STAT_VALID, F.MFL_PEER_STAT_TAG])),
    State.rd_wr_same _ _ _ (by simp [F.MFL_PEER_STAT_VALID])]
  rfl

theorem State.putPeer_reads (s : State) (l p ch : Nat) {failcyc fails ff : Nat} (failed sat : Bool) (tag epoch : Nat)
    (hfailcyc : failcyc < 2 ^ 64) (hfails : fails < 2 ^ 64) (hff : ff < 2 ^ 64) :
    (s.putPeer l p failcyc fails ff ch failed sat tag epoch).rdP (F.MFL_PEER_FAILCYC_LO_COUNT l p) = failcyc ∧
    (s.putPeer l p failcyc fails ff ch failed sat tag epoch).rdP (F.MFL_PEER_FAILS_LO_COUNT l p) = fails ∧
    (s.putPeer l p failcyc fails ff ch failed sat tag epoch).rdP (F.MFL_PEER_FF_LO_CYCLE l p) = ff ∧
    (s.putPeer l p failcyc fails ff ch failed sat tag epoch).rd (F.MFL_PEER_STAT_VALID l p) = 1 := by
  rw [State.putPeer_eq]
  generalize hA : s.wrP (F.MFL_PEER_FAILCYC_LO_COUNT l p) failcyc = A
  generalize hB : A.wrP (F.MFL_PEER_FAILS_LO_COUNT l p) fails = B
  generalize hC : B.wrP (F.MFL_PEER_FF_LO_CYCLE l p) ff = C
  have hstat : WordsBelow (0xD1018 + 0x80 * l + 0x20 * p) C (C.wrs (peerStat l p ch failed sat tag epoch)) :=
    WordsBelow.wrs _ _ peerStat_above
  have hfromB : WordsBelow (0xD1010 + 0x80 * l + 0x20 * p) B (C.wrs (peerStat l p ch failed sat tag epoch)) :=
    WordsBelow.trans (hC ▸ WordsBelow.wrP _ _ _ le_rfl) hstat (by omega)
  have hfromA : WordsBelow (0xD1008 + 0x80 * l + 0x20 * p) A (C.wrs (peerStat l p ch failed sat tag epoch)) :=
    WordsBelow.trans (hB ▸ WordsBelow.wrP _ _ _ le_rfl) hfromB (by omega)
  refine ⟨?_, ?_, ?_, State.wrs_peerStat_valid ..⟩
  · rw [hfromA.rdP _ (by simp only [F.MFL_PEER_FAILCYC_LO_COUNT]; omega), ← hA, State.rdP_wrP _ rfl rfl hfailcyc]
  · rw [hfromB.rdP _ (by simp only [F.MFL_PEER_FAILS_LO_COUNT]; omega), ← hB, State.rdP_wrP _ rfl rfl hfails]
  · rw [hstat.rdP _ (by simp only [F.MFL_PEER_FF_LO_CYCLE]; omega), ← hC, State.rdP_wrP _ rfl rfl hff]

theorem State.putPeer_regsOnly (s : State) (l p failcyc fails ff ch : Nat) (failed sat : Bool) (tag epoch : Nat) :
    RegsOnly s (s.putPeer l p failcyc fails ff ch failed sat tag epoch) := by
  rw [State.putPeer_eq]
  exact (RegsOnly.wrP ..).trans ((RegsOnly.wrP ..).trans ((RegsOnly.wrP ..).trans (RegsOnly.wrs ..)))

/-- The places of peers lie above what an event of a link can reach. -/
theorem peer_notMem_evOut (m : Fin 8) {a : Nat} (ha : 0xD1000 ≤ a) : a ∉ evOut (Ev.mfl m) := by
  simp only [evOut, Ev.mfl, Ev.sch, F.SCH_UNCLAIMED_COUNT, List.mem_cons, List.not_mem_nil, or_false]
  omega

theorem State.event_rd_peer (s : State) (m : Fin 8) (i : Nat) {f : Fld} (hf : 0xD1000 ≤ f.addr) :
    (s.event (Ev.mfl m) i).rd f = s.rd f :=
  RegsSame.rd (State.event_regs s (Ev.mfl m) i) f (peer_notMem_evOut m hf)

theorem State.event_rdP_peer (s : State) (m : Fin 8) (i : Nat) {f : Fld} (hf : 0xD1000 ≤ f.addr) :
    (s.event (Ev.mfl m) i).rdP f = s.rdP f := by
  rw [State.rdP, State.rdP, s.event_rd_peer m i hf, s.event_rd_peer m i (f := f.hi) (hf.trans (Nat.le_add_right _ 4))]

/-- The first of the entries in use that names a LINK_ID. -/
theorem find_linkEntry {s : State} {l : Fin 8} {id : Nat} (hused : s.rd (F.STR_LINK_MODULES l) ≠ 0)
    (hid : s.rd (F.STR_LINK_ID_LINK_ID l) = id) (hfirst : ∀ k, k < l → s.rd (F.STR_LINK_MODULES k) = 0) :
    ((allFin 8).find? fun (k : Fin 8) => s.rd (F.STR_LINK_MODULES k) != 0 && s.rd (F.STR_LINK_ID_LINK_ID k) == id) = some l := by
  rw [← Fin.find?_eq_find?_finRange, Fin.find?_eq_some_iff]
  refine ⟨?_, fun k hk => ?_⟩
  · simp only [hid, bne_iff_ne.2 hused, beq_self_eq_true, Bool.and_self]
  · simp only [hfirst k hk, bne_self_eq_false, Bool.false_and]

theorem exec_peerReceive {n l : Fin 8} {b : Bulk} {r : List Bulk} {s : State} (hrx : s.links.lanes[s.linkLane n].rxq = b :: r)
    (hcls : b.cls = 2)
    (hentry : ((allFin 8).find? fun (k : Fin 8) => s.rd (F.STR_LINK_MODULES k) != 0 &&
      s.rd (F.STR_LINK_ID_LINK_ID k) == leAt b.data 0 4) = some l) (hpos : leAt b.data 4 1 < 4) :
    ∃ ch failed sat tag epoch, exec (.peerReceive n b.data) s = .next
      (((s.modLane (s.linkLane n) (Lane.popRx r)).putPeer l (leAt b.data 4 1) (leAt b.data 8 6) (leAt b.data 14 6) (leAt b.data 20 6)
        ch failed sat tag epoch).event (Ev.mfl (s.linkLane n)) 7) := by
  have hexec : exec (.peerReceive n b.data) s = execPeerReceive n b.data s := rfl
  simp only [hexec, execPeerReceive, State.takeRx_head hrx hcls, State.modLane_rd, hentry, if_neg hpos.not_ge, State.modLane_linkLane]
  exact ⟨_, _, _, _, _, rfl⟩

theorem peerReceive_placed {n l : Fin 8} {b : Bulk} {r : List Bulk} {s : State} (hrx : s.links.lanes[s.linkLane n].rxq = b :: r)
    (hcls : b.cls = 2) (hused : s.rd (F.STR_LINK_MODULES l) ≠ 0) (hid : s.rd (F.STR_LINK_ID_LINK_ID l) = leAt b.data 0 4)
    (hfirst : ∀ k, k < l → s.rd (F.STR_LINK_MODULES k) = 0) (hpos : leAt b.data 4 1 < 4) :
    Answers (.peerReceive n b.data) s fun u =>
      u.rdP (F.MFL_PEER_FAILCYC_LO_COUNT l (leAt b.data 4 1)) = leAt b.data 8 6 ∧
      u.rdP (F.MFL_PEER_FAILS_LO_COUNT l (leAt b.data 4 1)) = leAt b.data 14 6 ∧
      u.rdP (F.MFL_PEER_FF_LO_CYCLE l (leAt b.data 4 1)) = leAt b.data 20 6 ∧ u.rd (F.MFL_PEER_STAT_VALID l (leAt b.data 4 1)) = 1 ∧
      bitOf (u.rd (Ev.mfl (s.linkLane n)).bits) 7 = true ∧ u.links.lanes[s.linkLane n].rxq = r ∧ BytesSame s u := by
  obtain ⟨ch, failed, sat, tag, epoch, hexec⟩ := exec_peerReceive hrx hcls (find_linkEntry hused hid hfirst) hpos
  have h64 (off : Nat) : leAt b.data off 6 < 2 ^ 64 := (leAt_lt b.data off 6).trans (by decide)
  generalize hv : s.modLane (s.linkLane n) (Lane.popRx r) = v at hexec
  obtain ⟨hfailcyc, hfails, hff, hvalid⟩ :=
    v.putPeer_reads l (leAt b.data 4 1) ch failed sat tag epoch (h64 8) (h64 14) (h64 20)
  have honly := v.putPeer_regsOnly l (leAt b.data 4 1) (leAt b.data 8 6) (leAt b.data 14 6) (leAt b.data 20 6) ch failed sat tag epoch
  generalize v.putPeer l (leAt b.data 4 1) (leAt b.data 8 6) (leAt b.data 14 6) (leAt b.data 20 6) ch failed sat tag epoch = w at *
  have hevent : EventOnly v _ := honly.event.trans (State.event_event w (Ev.mfl (s.linkLane n)) 7)
  refine ⟨_, hexec, ?_, ?_, ?_, ?_, State.event_bit _ _ (mfl_ev_notMem_occOut _) (by decide), ?_, ?_⟩
  · rw [w.event_rdP_peer _ _ (by simp only [F.MFL_PEER_FAILCYC_LO_COUNT]; omega), hfailcyc]
  · rw [w.event_rdP_peer _ _ (by simp only [F.MFL_PEER_FAILS_LO_COUNT]; omega), hfails]
  · rw [w.event_rdP_peer _ _ (by simp only [F.MFL_PEER_FF_LO_CYCLE]; omega), hff]
  · rw [w.event_rd_peer _ _ (by simp only [F.MFL_PEER_STAT_VALID]; omega), hvalid]
  · rw [hevent.links, ← hv, State.modLane_same]; rfl
  · exact BytesSame.trans (t := v) (by rw [← hv]; exact BytesSame.refl s) hevent.bytes

/-- Settles O40, clause by clause: a frame sent in training and one sent UP, lanes that send and take none, a frame without
FRAME_SYNC, one with a wrong header CRC, the bulk frame expected next, the first gap, a message queued and one refused, a message
taken and one dropped, the next message shown, a peer's fail data placed, a NAK followed and none. -/
theorem linkFrames : Obligations.LinkFrames := by
  unfold Obligations.LinkFrames
  exact ⟨fun n t r s => frameSend_training, fun n t r b q s => frameSend_up, fun n s => frameSend_off,
    fun n slot sub line s => frameReceive_off, fun n slot sub line s => frameReceive_noSync,
    fun n slot sub line frame s hstate hsync hframe _ => frameReceive_badCrc hstate hsync hframe,
    fun n slot sub line frame s => frameReceive_next, fun n slot sub line frame s => frameReceive_gap,
    fun n s => mflMsgSend_queued, fun n s => mflMsgSend_busy, fun n b r s => msgReceive_kept,
    fun n b r s => msgReceive_dropped, fun n m r s => mflMsgPop_next, fun n l b r s => peerReceive_placed,
    fun n seq b x r s => nakReceive_held, fun n seq s => nakReceive_none⟩

end Sys2Proof.Machine
end

section
/-! Canonical form (O59): a predicate of its own that composes along the operations of the model. Each shared operation and each
command keeps it, one lemma each, in the order of their definitions; a proof follows the body of its definition. -/

set_option Elab.async false

namespace Sys2Proof.Machine

/-! ## What keeps canonical form -/

/-- Every register file and every byte memory of the state is in canonical form. -/
structure Canonical (s : State) : Prop where
  wf : s.wf = true

/-- The state that an outcome gives, if any, is in canonical form. -/
structure CanonicalNext (o : Host.Outcome State Fault Refusal) : Prop where
  next : ∀ t, o = .next t → Canonical t

theorem Keeps.canonical {s t : State} (k : Keeps s t) (hs : Canonical s) : Canonical t := ⟨k.1 hs.wf⟩

theorem CanonicalNext.of_next {s : State} (hs : Canonical s) : CanonicalNext (.next s) :=
  ⟨fun _ h => Host.Outcome.next.inj h ▸ hs⟩

theorem CanonicalNext.of_refused (r : Refusal) : CanonicalNext (.refused r) := ⟨fun _ h => by simp at h⟩

theorem CanonicalNext.ite {p : Prop} {_ : Decidable p}
    {a b : Host.Outcome State Fault Refusal} (ha : CanonicalNext a) (hb : CanonicalNext b) :
    CanonicalNext (if p then a else b) := by split <;> assumption

theorem Canonical.ite {p : Prop} {_ : Decidable p} {s t : State} (hs : Canonical s) (ht : Canonical t) :
    Canonical (if p then s else t) := by split <;> assumption

theorem Canonical.foldl {α : Type} {f : State → α → State} {s : State} {l : List α} (hs : Canonical s)
    (hf : ∀ s a, Canonical s → Canonical (f s a)) : Canonical (l.foldl f s) := by
  induction l generalizing s with
  | nil => exact hs
  | cons a l ih => exact ih (hf s a hs)

theorem Canonical.canopy {s : State} (hs : Canonical s) : Mem.wf s.canopy = true := ((State.wf_iff s).1 hs.wf).2.1

theorem Canonical.sdram {s : State} (hs : Canonical s) : Mem.wf s.sdram = true := ((State.wf_iff s).1 hs.wf).2.2.1

theorem Canonical.flash {s : State} (hs : Canonical s) : Mem.wf s.flash = true := ((State.wf_iff s).1 hs.wf).2.2.2.1

theorem Canonical.host {s : State} (hs : Canonical s) : Mem.wf s.host = true := ((State.wf_iff s).1 hs.wf).2.2.2.2

/-- A state with the registers of a canonical one and canonical memories is canonical, whatever its other pieces. -/
theorem Canonical.mems {s : State} (hs : Canonical s) {canopy sdram flash host : Mem} (hc : Mem.wf canopy = true) (hd : Mem.wf sdram = true)
    (hf : Mem.wf flash = true) (hh : Mem.wf host = true) {latches held bursts threads groves chans fab str pec sync streams forest
      snaps fabSets sched hq flt tim calHold acq tap dscs trcs sec links clk power cal dmc boot freeCtr pending : _} :
    Canonical (State.mk s.regs latches held canopy sdram flash host bursts threads groves chans fab str pec sync streams forest
      snaps fabSets sched hq flt tim calHold acq tap dscs trcs sec links clk power cal dmc boot freeCtr pending) :=
  ⟨(State.wf_iff _).2 ⟨((State.wf_iff s).1 hs.wf).1, hc, hd, hf, hh⟩⟩

/-- A state with the registers and memories of a canonical one is canonical, whatever its other pieces. -/
theorem Canonical.update {s : State} (hs : Canonical s) {latches held bursts threads groves chans fab str pec sync streams forest
      snaps fabSets sched hq flt tim calHold acq tap dscs trcs sec links clk power cal dmc boot freeCtr pending : _} :
    Canonical (State.mk s.regs latches held s.canopy s.sdram s.flash s.host bursts threads groves chans fab str pec sync streams forest
      snaps fabSets sched hq flt tim calHold acq tap dscs trcs sec links clk power cal dmc boot freeCtr pending) :=
  hs.mems hs.canopy hs.sdram hs.flash hs.host

theorem Canonical.withCanopy {s : State} (hs : Canonical s) {m : Mem} (hm : Mem.wf m = true) : Canonical { s with canopy := m } :=
  hs.mems hm hs.sdram hs.flash hs.host

theorem Canonical.withSdram {s : State} (hs : Canonical s) {m : Mem} (hm : Mem.wf m = true) : Canonical { s with sdram := m } :=
  hs.mems hs.canopy hm hs.flash hs.host

theorem Canonical.withFlash {s : State} (hs : Canonical s) {m : Mem} (hm : Mem.wf m = true) : Canonical { s with flash := m } :=
  hs.mems hs.canopy hs.sdram hm hs.host

theorem Canonical.withHost {s : State} (hs : Canonical s) {m : Mem} (hm : Mem.wf m = true) : Canonical { s with host := m } :=
  hs.mems hs.canopy hs.sdram hs.flash hm

theorem Mem.wf_foldl {α : Type} {f : Mem → α → Mem} {l : List α} {m : Mem} (hf : ∀ m a, Mem.wf m = true → Mem.wf (f m a) = true)
    (hm : Mem.wf m = true) : Mem.wf (l.foldl f m) = true := by
  induction l generalizing m with
  | nil => exact hm
  | cons a l ih => exact ih (hf m a hm)

theorem Canonical.dite {p : Prop} {_ : Decidable p} {f : p → State}
    {g : ¬ p → State} (hf : ∀ h, Canonical (f h)) (hg : ∀ h, Canonical (g h)) :
    Canonical (if h : p then f h else g h) := by
  split
  · exact hf _
  · exact hg _

theorem putCells_wf {unit : Nat} {m : Mem} {runs : List (Nat × Nat)} {l : List (Nat × Byte)} (hm : Mem.wf m = true) :
    Mem.wf (putCells unit m runs l) = true :=
  Mem.wf_foldl (fun _ _ hm => Mem.wf_put _ _ _ hm) hm

theorem copyCells_wf {unit : Nat} {m : Mem} {runs : List (Nat × Nat)} {l : List (Nat × Byte)} (hm : Mem.wf m = true) :
    Mem.wf (copyCells unit m runs l) = true :=
  putCells_wf (Mem.wf_foldl (fun _ _ hm => Mem.wf_clear _ _ _ hm) hm)

theorem clearRange_wf {m : Mem} {runs : List (Nat × Nat)} {off n : Nat} (hm : Mem.wf m = true) :
    Mem.wf (clearRange m runs off n) = true := by
  refine Mem.wf_foldl (fun m p hm => ?_) hm
  split
  · exact Mem.wf_clear _ _ _ hm
  · exact hm

theorem putStream_wf {m : Mem} {runs : List (Nat × Nat)} {off n : Nat} {cells : List (Nat × Byte)} (hm : Mem.wf m = true) :
    Mem.wf (putStream m runs off n cells) = true :=
  putCells_wf (clearRange_wf hm)

theorem putBlock_wf {m : Mem} {a be : Nat} {data : List Byte} (hm : Mem.wf m = true) : Mem.wf (putBlock m a be data) = true := by
  refine Mem.wf_foldl (fun m p hm => ?_) hm
  split
  · exact Mem.wf_put _ _ _ hm
  · exact hm

theorem Mem.wf_nil : Mem.wf [] = true := rfl

/-- The step of the recursion over the victims. The planning of a move stays a variable while the body is reduced: with its own body
in place the kernel would run the search for SDRAM pages. -/
theorem demoteFor_body {α : Type} (place : State → Option (α × State)) (v : Seg) (l : List Seg)
    (b : List.below (motive := fun _ => State → Option (α × State)) (v :: l)) (s : State) :
    (s.planTier v .sdram = none → State.demoteFor._f place (v :: l) b s = b.1 s) ∧
    ∀ m, s.planTier v .sdram = some m → State.demoteFor._f place (v :: l) b s =
      ((place ((s.addMove m).modSeg v.id v.gen fun x => { x with tier := .none })).or
        (b.1 ((s.addMove m).modSeg v.id v.gen fun x => { x with tier := .none }))).map
        fun r => (r.1, { r.2 with forest := { r.2.forest with segs := s.forest.segs } }) := by
  generalize h : State.demoteFor._f place = body
  delta State.demoteFor._f at h
  subst h
  generalize State.planTier = tier
  as_aux_lemma =>
    refine ⟨fun h => ?_, fun m h => ?_⟩
    · dsimp only
      rw [h]
    · dsimp only
      rw [h]
      dsimp only
      generalize (s.addMove m).modSeg v.id v.gen (fun x => { x with tier := .none }) = gone
      cases place gone <;> simp only [Option.none_or, Option.some_or]

theorem State.demoteFor_skip {α : Type} {s : State} {place : State → Option (α × State)} {v : Seg} {l : List Seg}
    (h : s.planTier v .sdram = none) : s.demoteFor place (v :: l) = s.demoteFor place l := by
  have hb := fun b => (demoteFor_body place v l b s).1 h
  generalize hd : @State.demoteFor α = run
  delta State.demoteFor at hd
  subst hd
  generalize @State.demoteFor._f α = body at hb ⊢
  as_aux_lemma => exact hb _

theorem State.demoteFor_take {α : Type} {s : State} {place : State → Option (α × State)} {v : Seg} {l : List Seg} {m : Move}
    (h : s.planTier v .sdram = some m) : s.demoteFor place (v :: l) =
      ((place ((s.addMove m).modSeg v.id v.gen fun x => { x with tier := .none })).or
        (((s.addMove m).modSeg v.id v.gen fun x => { x with tier := .none }).demoteFor place l)).map
        fun r => (r.1, { r.2 with forest := { r.2.forest with segs := s.forest.segs } }) := by
  have hb := fun b => (demoteFor_body place v l b s).2 m h
  generalize hd : @State.demoteFor α = run
  delta State.demoteFor at hd
  subst hd
  generalize @State.demoteFor._f α = body at hb ⊢
  as_aux_lemma => exact hb _

theorem findSome?_forall {α β : Type} {f : α → Option β} {p : β → Prop} (h : ∀ a, ∀ b ∈ f a, p b) (l : List α) : ∀ b ∈ l.findSome? f, p b :=
  fun b hb => have ⟨a, _, ha⟩ := List.exists_of_findSome?_eq_some hb; h a b ha

theorem map_forall {α β : Type} {f : α → β} {p : β → Prop} (h : ∀ a, p (f a)) (o : Option α) : ∀ b ∈ o.map f, p b :=
  fun _ hb => have ⟨_, _, hab⟩ := Option.map_eq_some_iff.1 hb; hab ▸ h _

theorem Canonical.elim {α : Type} {o : Option α} {s : State} {f : α → State} (hs : Canonical s) (hf : ∀ a, Canonical (f a)) :
    Canonical (o.elim s f) := by
  cases o
  · exact hs
  · exact hf _

theorem Canonical.getD {o : Option State} {s : State} (hs : Canonical s) (ho : ∀ t ∈ o, Canonical t) : Canonical (o.getD s) := by
  cases o with
  | none => exact hs
  | some t => exact ho t rfl

/-- A register file in canonical form: addresses rising, no entry equal to its reset word. -/
def FilesCanonical (r : Regs) : Prop := ∀ b, cellsWf (resetWord b) 0 (r.get b) = true

theorem Canonical.files {s : State} (hs : Canonical s) : FilesCanonical s.regs := ((State.wf_iff s).1 hs.wf).1

/-- A state with canonical register files and memories is canonical, whatever its other pieces. -/
theorem Canonical.of_files {regs : Regs} {canopy sdram flash host : Mem} (hr : FilesCanonical regs) (hc : Mem.wf canopy = true)
    (hd : Mem.wf sdram = true) (hf : Mem.wf flash = true) (hh : Mem.wf host = true) {latches held bursts threads groves chans fab str pec
      sync streams forest snaps fabSets sched hq flt tim calHold acq tap dscs trcs sec links clk power cal dmc boot freeCtr pending : _} :
    Canonical (State.mk regs latches held canopy sdram flash host bursts threads groves chans fab str pec sync streams forest
      snaps fabSets sched hq flt tim calHold acq tap dscs trcs sec links clk power cal dmc boot freeCtr pending) :=
  ⟨(State.wf_iff _).2 ⟨hr, hc, hd, hf, hh⟩⟩

theorem keepRegs_wf {b : Blk} {keep : Nat → Bool} {f : RegFile} (h : cellsWf (resetWord b) 0 f = true) :
    cellsWf (resetWord b) 0 (keepRegs keep f) = true :=
  cellsWf_filter _ _ f 0 h

theorem cellsWf_nil {α : Type} [DecidableEq α] {d : Nat → α} : cellsWf d 0 [] = true := rfl

theorem forall_none {α : Type} {p : α → Prop} : ∀ a ∈ (none : Option α), p a := nofun

theorem forall_some {α : Type} {p : α → Prop} {a : α} (h : p a) : ∀ b ∈ some a, p b := fun _ hb => Option.some.inj hb ▸ h

theorem forall_ite {α : Type} {p : α → Prop} {c : Prop} {_ : Decidable c} {o o' : Option α} (h : ∀ a ∈ o, p a) (h' : ∀ a ∈ o', p a) :
    ∀ a ∈ (if c then o else o'), p a := by
  split <;> assumption

theorem Canonical.hostPuts {s : State} (hs : Canonical s) {a : Nat} {l : List Byte} : Canonical { s with host := Mem.puts s.host a l } :=
  hs.withHost (Mem.wf_puts _ _ _ hs.host)

theorem Canonical.canopyPuts {s : State} (hs : Canonical s) {a : Nat} {l : List Byte} :
    Canonical { s with canopy := Mem.puts s.canopy a l } :=
  hs.withCanopy (Mem.wf_puts _ _ _ hs.canopy)

theorem Canonical.sdramPuts {s : State} (hs : Canonical s) {a : Nat} {l : List Byte} :
    Canonical { s with sdram := Mem.puts s.sdram a l } :=
  hs.withSdram (Mem.wf_puts _ _ _ hs.sdram)

theorem Canonical.ite_fst {α : Type} {p : Prop} {_ : Decidable p} {a b : State × α} (ha : Canonical a.1) (hb : Canonical b.1) :
    Canonical (if p then a else b).1 := by split <;> assumption

theorem Canonical.ite_snd {α : Type} {p : Prop} {_ : Decidable p} {a b : α × State} (ha : Canonical a.2) (hb : Canonical b.2) :
    Canonical (if p then a else b).2 := by split <;> assumption

theorem Canonical.foldl_fst {α β : Type} {f : State × β → α → State × β} {s : State} {b : β} {l : List α} (hs : Canonical s)
    (hf : ∀ a x, Canonical a.1 → Canonical (f a x).1) : Canonical (l.foldl f (s, b)).1 :=
  List.foldlRecOn (motive := fun a => Canonical a.1) l f hs fun a ha x _ => hf a x ha

theorem Canonical.foldl_snd {α β : Type} {f : β × State → α → β × State} {s : State} {b : β} {l : List α} (hs : Canonical s)
    (hf : ∀ a x, Canonical a.2 → Canonical (f a x).2) : Canonical (l.foldl f (b, s)).2 :=
  List.foldlRecOn (motive := fun a => Canonical a.2) l f hs fun a ha x _ => hf a x ha

/-! ## Operations and commands: bursts, gates, snapshots and zeroisation -/

theorem Canonical.complete {s : State} {h : Hdr} {status : ℕ} {detail : ℕ} {result : ℕ} {intake : Bool} (hs : Canonical s) :
    Canonical (s.complete h status detail result intake) :=
  hs.update

theorem Canonical.take_ {s : State} {f : InFlight} {run : State → State} (hs : Canonical s)
    (hrun : ∀ s, Canonical s → Canonical (run s)) : Canonical (s.take_ f run) :=
  .ite hs.update.complete (hrun _ hs.update)

theorem Canonical.setWord {s : State} {b : Blk} {x2 : ℕ} {w : Word} (hs : Canonical s) : Canonical (s.setWord b x2 w) :=
  (Keeps.setWord ..).canonical hs

theorem Canonical.wr {s : State} {f : Fld} {v : ℕ} (hs : Canonical s) : Canonical (s.wr f v) :=
  hs.setWord

theorem Canonical.modThread {s : State} {t : Fin 32} {f : Thread → Thread} (hs : Canonical s) : Canonical (s.modThread t f) :=
  hs.update

theorem Canonical.declare {s : State} {h : Hdr} {o : BurstOps} (hs : Canonical s) : Canonical (s.declare h o) :=
  have hs := hs.update
  hs.foldl fun _ _ hs => .ite hs.modThread.wr hs

theorem execBurst_canonical {h : Hdr} {o : BurstOps} {s : State} (hs : Canonical s) : CanonicalNext (execBurst h o s) := by
  unfold execBurst
  split
  · exact .of_next hs
  · exact .of_next (.ite hs (hs.take_ fun _ hs => .ite hs.complete (.ite hs.complete hs.declare)))

theorem Canonical.begin_ {s : State} {h : Hdr} {opc : ℕ} {run : State → State} (hs : Canonical s)
    (hrun : ∀ s, Canonical s → Canonical (run s)) : Canonical (s.begin_ h opc run) := by
  unfold State.begin_
  split
  · exact hs
  · exact hs.take_ hrun

theorem Canonical.modBurst {s : State} {tag : ℕ} {epoch : ℕ} {f : Burst → Burst} (hs : Canonical s) :
    Canonical (s.modBurst tag epoch f) :=
  hs.update

theorem Canonical.modChan {s : State} {c : Fin 128} {f : Chan → Chan} (hs : Canonical s) : Canonical (s.modChan c f) :=
  hs.update

theorem Canonical.denOff {s : State} {g : Fin 32} (hs : Canonical s) : Canonical (s.denOff g) :=
  hs.foldl fun _ _ hs => hs.modChan

theorem Canonical.modDsc {s : State} {d : Fin 16} {f : Dsc → Dsc} (hs : Canonical s) : Canonical (s.modDsc d f) :=
  hs.update

theorem Canonical.incSat {s : State} {f : Fld} {k : ℕ} (hs : Canonical s) : Canonical (s.incSat f k) :=
  hs.wr

theorem Canonical.signal {s : State} {v : ℕ} (hs : Canonical s) : Canonical (s.signal v) :=
  (Keeps.signal ..).canonical hs

theorem Canonical.raiseSch {s : State} {bits : ℕ} (hs : Canonical s) : Canonical (s.raiseSch bits) :=
  have hs' := hs.wr
  .ite hs' hs'.signal

theorem Canonical.occurrence {s : State} {cls : ℕ} {key : ℕ} {value : ℕ} (hs : Canonical s) : Canonical (s.occurrence cls key value) :=
  .ite hs.update hs.incSat.raiseSch

theorem Canonical.raised {s : State} {r : EvReg} {bits : ℕ} (hs : Canonical s) : Canonical (s.raised r bits) := by
  unfold State.raised
  refine .ite ?_ ?_
  · exact hs
  · split
    · exact hs.signal.occurrence
    · exact hs.signal

theorem Canonical.raise {s : State} {r : EvReg} {bits : ℕ} (hs : Canonical s) : Canonical (s.raise r bits) :=
  hs.wr.raised

theorem Canonical.event {s : State} {r : EvReg} {bit : ℕ} (hs : Canonical s) : Canonical (s.event r bit) :=
  hs.raise

theorem Canonical.settlePass {s : State} {d : Fin 16} {p : RcPass} (hs : Canonical s) : Canonical (s.settlePass d p) := by
  unfold State.settlePass
  dsimp only
  split
  · exact hs
  · exact
      .ite hs.incSat (have hs := hs.incSat
      .ite hs (have hs := hs.modDsc
      have hs := Canonical.ite hs.event hs
      .ite hs.wr hs))

theorem Canonical.wrs {s : State} {l : List (Fld × ℕ)} (hs : Canonical s) : Canonical (s.wrs l) :=
  hs.foldl fun _ _ hs => hs.wr

theorem Canonical.notePass {s : State} {d : Fin 16} (hs : Canonical s) : Canonical (s.notePass d) := by
  unfold State.notePass
  split
  · exact hs.wrs
  · exact hs.wrs

theorem Canonical.endPass {s : State} {d : Fin 16} (hs : Canonical s) : Canonical (s.endPass d) := by
  unfold State.endPass
  dsimp only
  split
  · exact hs
  · exact
      have hs := hs.modDsc
      have hs := Canonical.ite (.ite hs.settlePass hs.modDsc) hs.incSat
      hs.notePass

theorem Canonical.dscGroveEnd {s : State} {g : Fin 32} (hs : Canonical s) : Canonical (s.dscGroveEnd g) :=
  hs.foldl fun _ _ hs => hs.endPass.modDsc

theorem Canonical.modTmu {s : State} {u : Fin 32} {f : Tmu → Tmu} (hs : Canonical s) : Canonical (s.modTmu u f) :=
  hs.update

theorem Canonical.tmuOff {s : State} {u : Fin 32} (hs : Canonical s) : Canonical (s.tmuOff u) :=
  have hs := hs.modTmu.wr
  hs.foldl fun _ _ hs => .ite hs.modTmu.wr hs

theorem Canonical.writePlace {s : State} {p : Place} {off : ℕ} {l : List Byte} (hs : Canonical s) : Canonical (s.writePlace p off l) :=
  .ite (hs.withSdram (Mem.wf_puts _ _ _ hs.sdram)) (hs.withCanopy (Mem.wf_puts _ _ _ hs.canopy))

theorem Canonical.writeRing {s : State} {p : Place} {off : ℕ} {l : List Byte} (hs : Canonical s) : Canonical (s.writeRing p off l) :=
  hs.writePlace.writePlace

theorem Canonical.openGate {s : State} {u : Fin 32} {fu : ℕ} (hs : Canonical s) : Canonical (s.openGate u fu) := by
  unfold State.openGate
  extract_lets k wrap g0 s' start s2
  have hs' : Canonical s' := by
    dsimp only [s']
    split
    · exact hs.modTmu
    · exact hs
  have h2 : Canonical s2 := hs'.wr
  split
  · split
    · exact h2.modTmu.writeRing
    · exact h2.modTmu.event
  · exact h2.modTmu

theorem Canonical.closeGate {s : State} {u : Fin 32} {full : Bool} {cut : Bool} {limit : Bool} (hs : Canonical s) :
    Canonical (s.closeGate u full cut limit) := by
  unfold State.closeGate
  dsimp only
  split
  · exact hs
  · exact
      have hs := hs.modTmu
      have hs := hs.wr
      .ite hs.tmuOff (.ite hs.openGate hs.wr)

theorem Canonical.modTrg {s : State} {e : Fin 4} {f : Trg → Trg} (hs : Canonical s) : Canonical (s.modTrg e f) :=
  hs.update

theorem Canonical.cutRecord {s : State} {e : Fin 4} (hs : Canonical s) : Canonical (s.cutRecord e) :=
  hs.modTrg

theorem Canonical.acqGroveEnd {s : State} {g : Fin 32} (hs : Canonical s) : Canonical (s.acqGroveEnd g) :=
  have hs := hs.foldl fun _ _ hs => .ite (have hs := hs.modTmu
  hs.closeGate) hs
  hs.foldl fun _ _ hs => .ite hs (.ite hs.modTrg (.ite hs.cutRecord hs))

theorem Canonical.snapDone {s : State} {p : Snap} {st : ℕ} (hs : Canonical s) : Canonical (s.snapDone p st) := by
  unfold State.snapDone
  dsimp only
  split
  · exact hs.update.wr.event.complete
  · exact hs.update.wr.event

theorem Canonical.snapTell {s : State} {g : ℕ} {id : ℕ} {st : ℕ} (hs : Canonical s) : Canonical (s.snapTell g id st) :=
  hs.occurrence

theorem Canonical.wrP {s : State} {lo : Fld} {v : ℕ} (hs : Canonical s) : Canonical (s.wrP lo v) :=
  hs.wr.wr

theorem Canonical.copyShadow {s : State} {g : Fin 32} {id : ℕ} {time : Bool} {st : ℕ} {cycle : ℕ} (hs : Canonical s) :
    Canonical (s.copyShadow g id time st cycle) :=
  have hs := hs.foldl fun _ _ hs => hs.wrP
  have hs := hs.wrP.wrP
  have hs := hs.foldl fun _ _ hs => hs.wr
  hs.wrs

theorem Canonical.snapSettle {s : State} {p : Snap} (hs : Canonical s) : Canonical (s.snapSettle p) :=
  .ite hs.snapDone hs.update

theorem Canonical.snapGrove {s : State} {p : Snap} {g : Fin 32} {cycle : ℕ} (hs : Canonical s) : Canonical (s.snapGrove p g cycle) :=
  have hs := hs.copyShadow.snapTell
  hs.snapSettle

theorem Canonical.snapEnd {s : State} {g : Fin 32} (hs : Canonical s) : Canonical (s.snapEnd g) :=
  have hs := hs.foldl fun _ _ hs => hs.copyShadow.snapTell.snapDone
  hs.foldl fun _ _ hs => hs.snapGrove

theorem Canonical.modGrove {s : State} {g : Fin 32} {f : Grove → Grove} (hs : Canonical s) : Canonical (s.modGrove g f) :=
  hs.update

theorem Canonical.haltGrove {s : State} {g : Fin 32} {r : EndReason} {endDen : Bool} (hs : Canonical s) :
    Canonical (s.haltGrove g r endDen) :=
  have hs := Canonical.ite hs.denOff hs
  hs.modGrove.snapEnd.acqGroveEnd.dscGroveEnd

theorem Canonical.zeroPages {s : State} {sdram : Bool} {l : List ℕ} (hs : Canonical s) : Canonical (s.zeroPages sdram l) :=
  .ite (hs.withSdram (Mem.wf_foldl (fun _ _ h => Mem.wf_clear _ _ _ h) hs.sdram))
    (hs.withCanopy (Mem.wf_foldl (fun _ _ h => Mem.wf_clear _ _ _ h) hs.canopy))

theorem Canonical.notResident {s : State} {p : Seg → Bool} (hs : Canonical s) : Canonical (s.notResident p) :=
  have hs := hs.foldl fun _ _ hs => hs.zeroPages
  hs.update

theorem Canonical.zeroiseNow {s : State} (hs : Canonical s) : Canonical s.zeroiseNow :=
  have hs := hs.update
  have hs := hs.wrs
  hs.notResident.event

theorem Canonical.incWrap {s : State} {f : Fld} {k : ℕ} (hs : Canonical s) : Canonical (s.incWrap f k) :=
  hs.wr

theorem Canonical.extendMr {s : State} {r : Fin 8} {digest : List Byte} (hs : Canonical s) : Canonical (s.extendMr r digest) :=
  hs.update.incWrap

theorem Canonical.zeroiseBy {s : State} {h : Hdr} {debug : Bool} (hs : Canonical s) : Canonical (s.zeroiseBy h debug) :=
  have hs := hs.zeroiseNow
  have hs := Canonical.ite hs.extendMr.wrs.event hs
  hs.complete

theorem Canonical.zeroCheck {s : State} (hs : Canonical s) : Canonical s.zeroCheck :=
  .ite (hs.update.foldl fun _ _ hs => hs.zeroiseBy) hs

theorem Canonical.grantOne {s : State} (hs : Canonical s) : Canonical s.grantOne := by
  unfold State.grantOne
  split
  · exact .ite hs.modBurst hs
  · exact hs

theorem Canonical.noteQueue {s : State} (hs : Canonical s) : Canonical s.noteQueue :=
  hs.wrs

theorem Canonical.grantWaiting {s : State} (hs : Canonical s) : Canonical s.grantWaiting :=
  have hs := hs.foldl fun _ _ hs => hs.grantOne
  have hs := Canonical.ite hs.wr hs
  hs.noteQueue

theorem Canonical.burstCheckEnded {s : State} {tag : ℕ} {epoch : ℕ} (hs : Canonical s) : Canonical (s.burstCheckEnded tag epoch) := by
  unfold State.burstCheckEnded
  dsimp only
  split
  · exact hs
  · exact
      .ite hs (have hs := hs.modBurst
      (hs.foldl fun _ _ hs => hs.complete).grantWaiting.zeroCheck)

theorem Canonical.endBeforeStart {s : State} {b : Burst} {r : EndReason} (hs : Canonical s) : Canonical (s.endBeforeStart b r) :=
  have hs := Canonical.ite hs.modBurst (hs.foldl fun _ _ hs => .ite hs hs.haltGrove)
  have hs := hs.foldl fun _ _ hs => hs.modThread.wrs.event
  hs.burstCheckEnded

theorem Canonical.cutBurst {s : State} {b : Burst} {abort : Bool} {h : Option Hdr} (hs : Canonical s) :
    Canonical (s.cutBurst b abort h) := by
  unfold State.cutBurst
  dsimp only
  refine .ite ?_ ?_
  · split
    · exact hs.complete
    · exact hs
  · exact
      .ite (.foldl (by
        split
        · exact hs.modBurst
        · exact hs) fun _ _ hs => hs.modThread) (.endBeforeStart (by
        split
        · exact hs.modBurst
        · exact hs))

theorem Canonical.cutByName {s : State} {h : Hdr} {opc : ℕ} {tag : ℕ} {epoch : ℕ} {abort : Bool} (hs : Canonical s) :
    Canonical (s.cutByName h opc tag epoch abort) :=
  hs.begin_ fun _ hs => by
    split
    · exact hs.complete
    · exact hs.cutBurst

theorem execStop_canonical {h : Hdr} {tag : ℕ} {epoch : ℕ} {s : State} (hs : Canonical s) : CanonicalNext (execStop h tag epoch s) :=
  .of_next hs.cutByName

theorem execAbort_canonical {h : Hdr} {tag : ℕ} {epoch : ℕ} {s : State} (hs : Canonical s) : CanonicalNext (execAbort h tag epoch s) :=
  .of_next hs.cutByName

theorem execNop_canonical {h : Hdr} {s : State} (hs : Canonical s) : CanonicalNext (execNop h s) :=
  .of_next (hs.begin_ fun _ hs => hs.complete)

theorem Canonical.noteFlaw {s : State} {f : Flaw} (hs : Canonical s) : Canonical (s.noteFlaw f).2 :=
  hs.wrs.event

/-! ## Operations and commands: segments, moves, code, claims and calibration requests -/

theorem Canonical.stage {s : State} {img : List Byte} {len : ℕ} {src : ℕ} {cmd : Option Hdr} (hs : Canonical s) :
    Canonical (s.stage img len src cmd) :=
  hs.update.wr

theorem execStructLoad_canonical {h : Hdr} {src : Src} {length : ℕ} {s : State} (hs : Canonical s) :
    CanonicalNext (execStructLoad h src length s) :=
  .of_next (hs.begin_ fun _ hs => by
    refine .ite ?_ ?_
    · exact hs.complete
    · refine .ite ?_ ?_
      · exact hs.complete
      · refine .ite ?_ ?_
        · exact hs.noteFlaw.complete
        · split
          · exact hs.complete
          · exact hs.stage)

theorem Canonical.takePages {s : State} {region : ℕ} {l : List (ℕ × ℕ)} (hs : Canonical s) : Canonical (s.takePages region l) :=
  hs.update

theorem Canonical.addMove {s : State} {m : Move} (hs : Canonical s) : Canonical (s.addMove m) :=
  have hs := Canonical.ite hs.takePages hs
  have hs := hs.takePages
  hs.update

theorem Canonical.modSeg {s : State} {id : ℕ} {gen : ℕ} {f : Seg → Seg} (hs : Canonical s) : Canonical (s.modSeg id gen f) :=
  hs.update

theorem Canonical.clearBanks {s : State} {banks : List ℕ} {bank : Option ℕ} (hs : Canonical s) : Canonical (s.clearBanks banks bank) :=
  hs.foldl fun _ _ hs => by
    split
    · exact hs.addMove
    · exact hs

theorem Canonical.afterMoves {s : State} (hs : Canonical s) : Canonical s.afterMoves :=
  have hs := hs.foldl fun _ _ hs => hs.modSeg
  hs.update

theorem Canonical.compactFor {α : Type} {s : State} {place : State → Option α} (hs : Canonical s) :
    ∀ r ∈ s.compactFor place, Canonical r.2 := by
  intro r hr
  unfold State.compactFor at hr
  dsimp only at hr
  generalize List.take 8 _ = banks at hr
  obtain ⟨n, _, hn⟩ := List.exists_of_findSome?_eq_some hr
  obtain ⟨a, _, rfl⟩ := Option.map_eq_some_iff.1 hn
  dsimp only
  exact hs.clearBanks

theorem Canonical.canTake {α : Type} {s : State} {place : State → Option α} (hs : Canonical s) :
    ∀ r ∈ State.canTake place s, Canonical r.2 := by
  intro r hr
  unfold State.canTake at hr
  split at hr
  · cases hr; exact hs
  · split at hr
    · exact hs.compactFor r hr
    · cases hr

theorem Canonical.demoteFor {α : Type} {s : State} {place : State → Option (α × State)} {l : List Seg} (hs : Canonical s)
    (hplace : ∀ s, Canonical s → ∀ r ∈ place s, Canonical r.2) : ∀ r ∈ s.demoteFor place l, Canonical r.2 := by
  induction l generalizing s with
  | nil => intro r hr; cases hr
  | cons v l ih =>
    intro r hr
    cases hm : s.planTier v .sdram with
    | none => exact ih hs r (State.demoteFor_skip hm ▸ hr)
    | some m =>
      obtain ⟨p, hp, rfl⟩ := Option.map_eq_some_iff.1 (State.demoteFor_take hm ▸ hr)
      refine Canonical.update ?_
      rcases Option.or_eq_some_iff.1 hp with h | ⟨_, h⟩
      · exact hplace _ hs.addMove.modSeg p h
      · exact ih hs.addMove.modSeg p h

theorem Canonical.placeSegMoving {s : State} {x : Seg} {t : Tier} {bytes : ℕ} {ibytes : ℕ} (hs : Canonical s) :
    ∀ r ∈ s.placeSegMoving x t bytes ibytes, Canonical r.2 := by
  intro r hr
  unfold State.placeSegMoving at hr
  obtain ⟨p, hp, rfl⟩ := Option.map_eq_some_iff.1 hr
  refine Canonical.takePages (Canonical.takePages ?_)
  rw [Option.orElse_eq_orElse, Option.orElse_eq_or] at hp
  rcases Option.or_eq_some_iff.1 hp with h | ⟨_, h⟩
  · exact hs.canTake p h
  · split at h
    · exact hs.demoteFor (fun _ h => h.canTake) p h
    · cases h

theorem Canonical.placeLoad {s : State} {x : Seg} {hostHeld : Bool} {bytes : ℕ} {ibytes : ℕ} (hs : Canonical s) :
    ∀ t ∈ s.placeLoad x hostHeld bytes ibytes, Canonical t.2 := by
  intro r hr
  unfold State.placeLoad at hr
  split at hr
  · exact hs.placeSegMoving r hr
  · dsimp only at hr
    split at hr
    · next h =>
      cases hr
      split at h
      · exact hs.placeSegMoving r h
      · cases h
    · exact hs.placeSegMoving r hr

theorem Canonical.startLoad {s : State} {h : Hdr} {d : SegDesc} {instr : List Byte} {payload : List Byte} {refs : List Byte}
    (hs : Canonical s) :
    Canonical (s.startLoad h d instr payload refs) := by
  unfold State.startLoad
  dsimp only
  split
  · exact hs.event.complete
  · next _ h =>
      exact (hs.placeLoad _ h).update

theorem Canonical.loadDesc {s : State} {h : Hdr} {d : SegDesc} (hs : Canonical s) : Canonical (s.loadDesc h d) := by
  unfold State.loadDesc
  dsimp only
  refine .ite ?_ ?_
  · exact hs.complete
  · split
    · exact hs.complete
    · split
      · refine .ite ?_ ?_
        · exact hs.complete
        · split
          · exact hs.complete
          · exact hs.startLoad
      · exact hs.complete

theorem execSegLoad_canonical {h : Hdr} {desc : Src} {instr : Option (List Byte)} {payload : Option (List Byte)}
    {refs : Option (List Byte)} {s : State} (hs : Canonical s) :
    CanonicalNext (execSegLoad h desc instr payload refs s) :=
  .of_next (hs.begin_ fun _ hs => by
    refine .ite ?_ ?_
    · exact hs.complete
    · split
      · exact hs.complete
      · exact hs.loadDesc)

theorem Canonical.staleSeg {s : State} (hs : Canonical s) : Canonical s.staleSeg :=
  hs.incSat.event

theorem Canonical.abandonMoves {s : State} {p : Move → Bool} (hs : Canonical s) : Canonical (s.abandonMoves p) :=
  have hs := hs.foldl fun _ _ hs => by
    split
    · exact
        .ite (have hs := hs.zeroPages
        .ite hs (hs.withCanopy (clearRange_wf hs.canopy))) hs
    · exact hs
  have hs := hs.update
  .ite hs hs.event

theorem Canonical.clearStream {s : State} {x : Seg} (hs : Canonical s) : Canonical (s.clearStream x) :=
  hs.withCanopy (clearRange_wf hs.canopy)

theorem Canonical.dropClosing {s : State} {d : Fin 16} {which : Option (Fin 4)} (hs : Canonical s) :
    Canonical (s.dropClosing d which) :=
  have hs := hs.modDsc
  hs.wr

theorem Canonical.slotsRetire {s : State} {seg : ℕ} {gen : ℕ} {removed : Bool} (hs : Canonical s) :
    Canonical (s.slotsRetire seg gen removed) :=
  hs.foldl fun _ _ hs => hs.foldl fun _ _ hs => .ite (.ite (have hs := (Canonical.ite hs.endPass hs).dropClosing
  hs.modDsc.wr.event) hs.wr) hs

theorem Canonical.removeSeg {s : State} {x : Seg} (hs : Canonical s) : Canonical (s.removeSeg x) :=
  have hs := hs.abandonMoves
  have hs := Canonical.ite hs.zeroPages hs
  have hs := hs.clearStream
  hs.update.slotsRetire

theorem Canonical.promote {s : State} {x : Seg} (hs : Canonical s) : Canonical (s.promote x) := by
  unfold State.promote
  dsimp only
  split
  · next r h => exact (hs.canTake r h).addMove
  · split
    · next r h => exact (hs.demoteFor (fun _ h => h.canTake) r h).addMove
    · exact hs

theorem Canonical.evaluate {s : State} (hs : Canonical s) : Canonical s.evaluate :=
  .ite (hs.foldl fun _ _ hs => hs.promote) hs

theorem Canonical.refreshReach {s : State} (hs : Canonical s) : Canonical s.refreshReach :=
  hs.update

theorem Canonical.modLoad {s : State} {id : ℕ} {gen : ℕ} {f : Seg → Seg} (hs : Canonical s) : Canonical (s.modLoad id gen f) :=
  hs.update

theorem Canonical.makeCurrent {s : State} {x : Seg} (hs : Canonical s) : Canonical (s.makeCurrent x) := by
  unfold State.makeCurrent
  dsimp only
  split
  · exact
      .complete (.refreshReach (.modLoad (by
        split
        · exact hs
        · exact .ite hs.modSeg.slotsRetire hs.removeSeg)))
  · exact
      .refreshReach (.modLoad (by
        split
        · exact hs
        · exact .ite hs.modSeg.slotsRetire hs.removeSeg))

theorem Canonical.dropRetired {s : State} (hs : Canonical s) : Canonical s.dropRetired :=
  have hs := hs.foldl fun _ _ hs => hs.removeSeg
  hs.foldl fun _ _ hs => .ite hs hs.makeCurrent.evaluate

theorem execSegUnload_canonical {h : Hdr} {seg : ℕ} {gen : ℕ} {s : State} (hs : Canonical s) :
    CanonicalNext (execSegUnload h seg gen s) :=
  .of_next (hs.begin_ fun _ hs => by
    split
    · exact hs.staleSeg.complete
    · exact .ite hs.staleSeg.complete (.ite hs.complete hs.removeSeg.dropRetired.complete))

theorem Canonical.codeBusy {s : State} (hs : Canonical s) : Canonical s.codeBusy :=
  hs.incSat.event

theorem Canonical.modCore {s : State} {c : Fin 8} {f : Core → Core} (hs : Canonical s) : Canonical (s.modCore c f) :=
  hs.update

theorem Canonical.freePlace {s : State} {p : Place} (hs : Canonical s) : Canonical (s.freePlace p) :=
  hs.zeroPages

theorem Canonical.relocate {s : State} {bank : ℕ} {region : ℕ} {p : Place} (hs : Canonical s) :
    ∀ t ∈ s.relocate bank region p, Canonical t.2 := by
  intro t ht
  unfold State.relocate at ht
  split at ht
  · cases ht
  · obtain ⟨q, _, rfl⟩ := Option.map_eq_some_iff.1 ht
    exact Canonical.freePlace (hs.takePages.withCanopy (copyCells_wf hs.takePages.canopy))

theorem Canonical.bindRelocate {s : State} {o : Option Place} {bank region : ℕ} {r : Place × State} (hs : Canonical s)
    (h : o.bind (s.relocate bank region) = some r) : Canonical r.2 :=
  have ⟨_, _, hr⟩ := Option.bind_eq_some_iff.1 h
  hs.relocate _ hr

theorem Canonical.evacStores {s : State} {bank : ℕ} (hs : Canonical s) : Canonical (s.evacStores bank) := by
  unfold State.evacStores
  dsimp only
  refine ((hs.foldl fun s e hs => ?_).foldl fun s u hs => ?_).foldl fun s b hs => ?_
  · split
    · exact hs
    · split
      · next h => exact (hs.bindRelocate h).update.modTrg.wr
      · exact hs
  · split
    · exact hs
    · split
      · next h => exact (hs.bindRelocate h).update.modTmu.wr
      · exact hs
  · split
    · exact hs
    · split
      · next h => exact (hs.bindRelocate h).update.wr
      · exact hs

theorem Canonical.evacCapture {s : State} {bank : ℕ} {g : Fin 32} (hs : Canonical s) : Canonical (s.evacCapture bank g) := by
  refine hs.foldl fun s i hs => ?_
  split
  · exact hs
  · split
    · next h => exact .ite (hs.bindRelocate h).modGrove.wr (hs.bindRelocate h).modGrove
    · exact hs

theorem Canonical.evacStep {s : State} {bank : ℕ} (hs : Canonical s) : Canonical (s.evacStep bank) :=
  (hs.clearBanks.foldl fun _ _ hs => hs.evacCapture).evacStores

theorem Canonical.evacCheck {s : State} (hs : Canonical s) : Canonical s.evacCheck :=
  have hs := hs.foldl fun _ _ hs => hs.evacStep
  hs.foldl fun _ _ hs => have hs := hs.update
  hs.event.complete

theorem Canonical.takeFree {s : State} (hs : Canonical s) : Canonical s.takeFree.2 :=
  hs.update

theorem Canonical.postPrivate {s : State} {c : Fin 8} {resume : Bool} (hs : Canonical s) : Canonical (s.postPrivate c resume) :=
  hs.takeFree.takeFree.update

theorem Canonical.resumeCores {s : State} {mask : ℕ} (hs : Canonical s) : Canonical (s.resumeCores mask) :=
  hs.foldl fun _ _ hs => .ite (have hs := hs.wrs
  .ite hs.postPrivate hs) hs

theorem Canonical.unaskPark {s : State} {mask : ℕ} (hs : Canonical s) : Canonical (s.unaskPark mask) :=
  have hs := hs.resumeCores
  hs.foldl fun _ _ hs => .ite hs.wr hs

theorem Canonical.codeLoadNow {s : State} {h : Hdr} {l : List Byte} {codeId : ℕ} {coreMask : ℕ} {plugin : Bool} {msg : List Byte}
    (hs : Canonical s) :
    Canonical (s.codeLoadNow h l codeId coreMask plugin msg) := by
  unfold State.codeLoadNow
  dsimp only
  split
  · exact hs.event.complete
  · exact
      have ht := hs.update.zeroPages.takePages
      have ht := ht.mems (Mem.wf_puts _ _ _ ht.canopy) ht.sdram ht.flash ht.host
      have ht := ht.foldl fun _ _ hs => .ite hs.modCore hs
      ht.unaskPark.evacCheck.extendMr.complete

theorem execCodeLoad_canonical {h : Hdr} {src : Src} {length : ℕ} {codeId : ℕ} {coreMask : ℕ} {plugin : Bool} {sig : Src} {s : State}
    (hs : Canonical s) :
    CanonicalNext (execCodeLoad h src length codeId coreMask plugin sig s) :=
  .of_next (hs.begin_ fun _ hs => by
    refine .ite ?_ ?_
    · exact hs.complete
    · refine .ite ?_ ?_
      · exact hs.complete
      · split
        · exact .ite hs.complete (.ite hs.codeBusy.complete hs.codeLoadNow)
        · exact hs.complete)

theorem Canonical.askPark {s : State} {mask : ℕ} (hs : Canonical s) : Canonical (s.askPark mask) :=
  hs.foldl fun _ _ hs => .ite hs.update.wr.postPrivate hs

theorem Canonical.evacCode {s : State} {bank : ℕ} (hs : Canonical s) : Canonical (s.evacCode bank) :=
  hs.foldl fun _ _ hs => by
    split
    · exact hs
    · exact
        have hs := hs.takePages
        hs.update.askPark

theorem execEvacuate_canonical {h : Hdr} {bank : ℕ} {s : State} (hs : Canonical s) : CanonicalNext (execEvacuate h bank s) :=
  .of_next (hs.begin_ fun _ hs => .ite hs.complete hs.update.evacCode.evacCheck)

theorem execScratchClaim_canonical {h : Hdr} {pages : ℕ} {s : State} (hs : Canonical s) : CanonicalNext (execScratchClaim h pages s) :=
  .of_next (hs.begin_ fun _ hs => by
    refine .ite ?_ ?_
    · exact hs.complete
    · split
      · exact hs.event.complete
      · exact
          have hs := hs.takePages
          hs.update.complete)

theorem execScratchRelease_canonical {h : Hdr} {claim : ℕ} {s : State} (hs : Canonical s) :
    CanonicalNext (execScratchRelease h claim s) :=
  .of_next (hs.begin_ fun _ hs => by
    split
    · exact hs.complete
    · exact
        have hs := hs.zeroPages
        hs.update.complete)

theorem execCaptureRelease_canonical {h : Hdr} {grove : ℕ} {s : State} (hs : Canonical s) :
    CanonicalNext (execCaptureRelease h grove s) :=
  .of_next (hs.begin_ fun _ hs => .dite (fun _ => by
    split
    · exact
        have hs := hs.freePlace.modGrove
        hs.update.complete
    · exact hs.complete) (fun _ => hs.complete))

theorem execPlacementReport_canonical {h : Hdr} {dest : ℕ} {maxLen : ℕ} {s : State} (hs : Canonical s) :
    CanonicalNext (execPlacementReport h dest maxLen s) :=
  .of_next (hs.begin_ fun _ hs => .ite hs.complete (have hs := hs.hostPuts
  hs.complete))

theorem Canonical.modLane {s : State} {n : Fin 8} {f : Lane → Lane} (hs : Canonical s) : Canonical (s.modLane n f) :=
  hs.update

theorem Canonical.queueToken {s : State} {n : Fin 8} {tok : ℕ} {copies : ℕ} (hs : Canonical s) :
    Canonical (s.queueToken n tok copies) :=
  hs.modLane

theorem Canonical.sendSnap {s : State} {time : Bool} {grove : Fin 32} {id : ℕ} {point : ℕ} {except : Option (Fin 8)} (hs : Canonical s) :
    Canonical (s.sendSnap time grove id point except) := by
  unfold State.sendSnap
  dsimp only
  refine .ite ?_ ?_
  · exact hs.update.foldl fun _ _ hs => hs.queueToken
  · split
    · exact hs.foldl fun _ _ hs => hs.queueToken
    · exact hs

theorem Canonical.snapShow {s : State} {g : Fin 32} {id : ℕ} {time : Bool} {st : ℕ} (hs : Canonical s) :
    Canonical (s.snapShow g id time st) :=
  hs.wrs

theorem Canonical.snapRequest {s : State} {time : Bool} {linked : Bool} {grove : Fin 32} {id : ℕ} {point : ℕ} {cmd : Option Hdr}
    {from_ : Option (Fin 8)} (hs : Canonical s) :
    Canonical (s.snapRequest time linked grove id point cmd from_) := by
  unfold State.snapRequest
  dsimp only
  refine .ite ?_ ?_
  · split
    · exact (Canonical.ite hs.sendSnap hs).wr.event.complete
    · exact (Canonical.ite hs.sendSnap hs).wr.event
  · refine .ite ?_ ?_
    · split
      · exact ((Canonical.ite (Canonical.ite hs.sendSnap hs).wr.sendSnap (Canonical.ite hs.sendSnap hs).wr).foldl fun _ _ hs => hs.snapShow.snapTell).event.complete
      · exact ((Canonical.ite (Canonical.ite hs.sendSnap hs).wr.sendSnap (Canonical.ite hs.sendSnap hs).wr).foldl fun _ _ hs => hs.snapShow.snapTell).event
    · exact
        have hs := (Canonical.ite (Canonical.ite hs.sendSnap hs).wr.sendSnap (Canonical.ite hs.sendSnap hs).wr).foldl fun _ _ hs => hs.snapShow
        have hs := hs.update.wr
        .ite hs.snapEnd hs

theorem execSnapshot_canonical {h : Hdr} {time : Bool} {linked : Bool} {grove : ℕ} {id : ℕ} {point : ℕ} {s : State} (hs : Canonical s) :
    CanonicalNext (execSnapshot h time linked grove id point s) :=
  .of_next (hs.begin_ fun _ hs => .ite hs.complete hs.snapRequest)

theorem Canonical.calStart {s : State} {r : CalRun} (hs : Canonical s) : Canonical (s.calStart r) := by
  unfold State.calStart
  dsimp only
  refine .ite ?_ ?_
  · split
    · exact hs.complete
    · exact hs
  · exact
      have hs := hs.update
      have hs := Canonical.ite (hs.foldl fun _ _ hs => hs.modChan) hs
      hs.wrs

theorem Canonical.calFrom {s : State} {l : List CalRun} (hs : Canonical s) : Canonical (s.calFrom l) := by
  induction l generalizing s with
  | nil => exact hs
  | cons r rest ih => exact .ite hs.update.calStart (ih hs.update.calStart)

theorem Canonical.calNext {s : State} (hs : Canonical s) : Canonical s.calNext :=
  .ite hs hs.calFrom

theorem execCalibrate_canonical {h : Hdr} {groups : ℕ} {flags : ℕ} {groves : ℕ} {dscs : ℕ} {s : State} (hs : Canonical s) :
    CanonicalNext (execCalibrate h groups flags groves dscs s) :=
  .of_next (hs.begin_ fun _ hs => .ite hs.complete (.ite hs.complete (.ite hs.complete hs.update.calNext)))

theorem Canonical.commitTask {s : State} {d : TaskDesc} (hs : Canonical s) : Canonical (s.commitTask d).2.2 := by
  unfold State.commitTask
  dsimp only
  split
  · exact hs.update
  · exact .ite hs.raiseSch hs

/-! ## Operations and commands: tasks, security, faults and stores -/

theorem execTaskCreate_canonical {h : Hdr} {d : TaskDesc} {s : State} (hs : Canonical s) : CanonicalNext (execTaskCreate h d s) :=
  .of_next (hs.begin_ fun _ hs => hs.commitTask.complete)

theorem Canonical.staleOp {s : State} (hs : Canonical s) : Canonical s.staleOp :=
  hs.incSat.raiseSch

theorem Canonical.fillTask {s : State} {handle : ℕ} {slot : ℕ} {value : ℕ} (hs : Canonical s) :
    Canonical (s.fillTask handle slot value).2 := by
  unfold State.fillTask
  dsimp only
  split
  · exact hs.staleOp
  · exact .ite_snd hs.update hs.incSat

theorem execTaskFill_canonical {h : Hdr} {handle : ℕ} {slot : ℕ} {value : ℕ} {s : State} (hs : Canonical s) :
    CanonicalNext (execTaskFill h handle slot value s) :=
  .of_next (hs.begin_ fun _ hs => .ite hs.complete hs.fillTask.complete)

theorem Canonical.cancelTask {s : State} {handle : ℕ} (hs : Canonical s) : Canonical (s.cancelTask handle).2 := by
  unfold State.cancelTask
  split
  · exact hs.staleOp
  · exact .ite_snd hs hs.update

theorem execTaskCancel_canonical {h : Hdr} {handle : ℕ} {s : State} (hs : Canonical s) : CanonicalNext (execTaskCancel h handle s) :=
  .of_next (hs.begin_ fun _ hs => .ite hs.complete hs.cancelTask.complete)

theorem Canonical.onPort {s : State} {p : Port} {opc : ℕ} {run : State → State} (hs : Canonical s)
    (hrun : ∀ s, Canonical s → Canonical (run s)) : Canonical (s.onPort p opc run) := by
  unfold State.onPort
  refine .ite ?_ hs
  split
  · exact hs.begin_ hrun
  · exact hrun _ hs

theorem Canonical.answerWith {s : State} {l : List ℕ} (hs : Canonical s) : Canonical (s.answerWith l) :=
  hs.update

theorem Canonical.completeP {s : State} {p : Port} {status : ℕ} {detail : ℕ} {result : ℕ} (hs : Canonical s) :
    Canonical (s.completeP p status detail result) := by
  unfold State.completeP
  split
  · exact hs.complete
  · exact hs.answerWith

theorem Canonical.ifApproved {s : State} {p : Port} {run : State → State} (hs : Canonical s)
    (hrun : ∀ s, Canonical s → Canonical (run s)) : Canonical (s.ifApproved p run) :=
  .ite (hrun _ hs) hs.completeP

theorem Canonical.reseed {s : State} (hs : Canonical s) : Canonical s.reseed :=
  have hs := hs.incWrap
  hs.update

theorem Canonical.draw {s : State} {n : ℕ} (hs : Canonical s) : Canonical (s.draw n).2 :=
  have hs := Canonical.ite hs.reseed hs
  hs.update

theorem Canonical.giveNonce {s : State} {p : Port} {dest : ℕ} {l : List Byte} (hs : Canonical s) :
    Canonical (s.giveNonce p dest l) := by
  unfold State.giveNonce
  split
  · exact hs.hostPuts.complete
  · exact hs.answerWith

theorem Canonical.setNonce {s : State} {p : Port} {n : Option Nonce} (hs : Canonical s) : Canonical (s.setNonce p n) :=
  hs.update

theorem execAuthBegin_canonical {p : Port} {role : ℕ} {keyIndex : ℕ} {dest : ℕ} {s : State} (hs : Canonical s) :
    CanonicalNext (execAuthBegin p role keyIndex dest s) :=
  .of_next (hs.onPort fun _ hs => .ite hs.completeP (hs.ifApproved fun _ hs => .ite hs.completeP (.ite hs.completeP hs.reseed.draw.setNonce.giveNonce)))

theorem Canonical.setFails {s : State} {p : Port} {n : ℕ} (hs : Canonical s) : Canonical (s.setFails p n) :=
  hs.update

theorem Canonical.authFailed {s : State} {p : Port} (hs : Canonical s) : Canonical (s.authFailed p) :=
  have hs := hs.setFails.incSat
  have hs := Canonical.ite hs.wr.raise hs.event
  hs.completeP

theorem execAuthFinish_canonical {p : Port} {sig : Src} {s : State} (hs : Canonical s) : CanonicalNext (execAuthFinish p sig s) :=
  .of_next (hs.onPort fun _ hs => .ite hs.completeP (hs.ifApproved fun _ hs => by
    split
    · exact hs.completeP
    · split
      · exact hs.completeP
      · exact
          have hs := hs.setNonce
          .ite hs.setFails.wr.event.completeP hs.authFailed))

theorem execLogout_canonical {p : Port} {s : State} (hs : Canonical s) : CanonicalNext (execLogout p s) :=
  .of_next (hs.onPort fun _ hs => hs.ifApproved fun _ hs => hs.wr.completeP)

theorem Canonical.identitySign {s : State} {msg : List Byte} (hs : Canonical s) : Canonical (s.identitySign msg).2 :=
  .ite_snd hs hs.takeFree

theorem Canonical.regenerate {s : State} {dest : ℕ} (hs : Canonical s) : Canonical (s.regenerate dest) :=
  hs.update.wrs.identitySign.hostPuts

theorem Canonical.setLife {s : State} {life : ℕ} (hs : Canonical s) : Canonical (s.setLife life) :=
  .ite hs hs.wrs

theorem Canonical.provisionNow {s : State} {l : List Byte} {dest : ℕ} (hs : Canonical s) : Canonical (s.provisionNow l dest) :=
  have hs := hs.update
  have hs := hs.wrs
  have hs := Canonical.ite hs.regenerate hs
  have hs := hs.setLife.wrs
  hs.extendMr.event

theorem execProvision_canonical {h : Hdr} {block : Src} {length : ℕ} {dest : ℕ} {s : State} (hs : Canonical s) :
    CanonicalNext (execProvision h block length dest s) :=
  .of_next (hs.onPort fun _ hs => .ite hs.complete (hs.ifApproved fun _ hs => by
    split
    · exact hs.complete
    · exact
        have hs := hs.reseed
        .ite hs.complete (.ite hs.complete hs.provisionNow.complete)))

theorem Canonical.setSlot {s : State} {slot : ℕ} {v : Bool} (hs : Canonical s) : Canonical (s.setSlot slot v) :=
  hs.wr

theorem execKeyLoad_canonical {h : Hdr} {block : Src} {s : State} (hs : Canonical s) : CanonicalNext (execKeyLoad h block s) :=
  .of_next (hs.onPort fun _ hs => .ite hs.complete (hs.ifApproved fun _ hs => by
    refine .ite ?_ ?_
    · exact hs.complete
    · split
      · exact hs.complete
      · refine .ite ?_ ?_
        · exact hs.complete
        · refine .ite ?_ ?_
          · exact hs.complete
          · split
            · exact hs.complete
            · exact
                have hs := hs.update
                hs.setSlot.event.extendMr.complete))

theorem execKeyErase_canonical {h : Hdr} {slot : ℕ} {s : State} (hs : Canonical s) : CanonicalNext (execKeyErase h slot s) :=
  .of_next (hs.onPort fun _ hs => hs.ifApproved fun _ hs => .ite hs.complete (.ite hs.complete (have hs := hs.update
  hs.setSlot.event.extendMr.complete)))

theorem Canonical.cutAll {s : State} {abort : Bool} (hs : Canonical s) : Canonical (s.cutAll abort) :=
  hs.foldl fun _ _ hs => hs.cutBurst

theorem execZeroise_canonical {h : Hdr} {s : State} (hs : Canonical s) : CanonicalNext (execZeroise h s) :=
  .of_next (hs.onPort fun _ hs => hs.ifApproved fun _ hs => hs.update.cutAll.zeroCheck)

theorem Canonical.setBit {s : State} {f : ℕ → Fld} {i : ℕ} {v : Bool} (hs : Canonical s) : Canonical (s.setBit f i v) :=
  hs.wr

theorem Canonical.noteHeartbeat {s : State} (hs : Canonical s) : Canonical s.noteHeartbeat :=
  have hs := hs.wr
  hs.update

theorem Canonical.release {s : State} (hs : Canonical s) : Canonical s.release :=
  .ite (have hs := hs.foldl fun _ _ hs => .ite hs.setBit.setBit hs
  have hs := Canonical.ite hs.wrs hs
  have hs := hs.wr.event
  hs.update.noteHeartbeat) hs.event

theorem execRelease_canonical {p : Port} {s : State} (hs : Canonical s) : CanonicalNext (execRelease p s) :=
  .of_next (hs.onPort fun _ hs => .ite hs.completeP (hs.ifApproved fun _ hs => .ite hs.completeP (.ite hs.release.completeP hs.release.completeP)))

theorem execQuote_canonical {h : Hdr} {dest : ℕ} {nonce : List Byte} {mask : ℕ} {s : State} (hs : Canonical s) :
    CanonicalNext (execQuote h dest nonce mask s) :=
  .of_next (hs.onPort fun _ hs => hs.ifApproved fun _ hs => hs.identitySign.hostPuts.complete)

theorem Canonical.latchFault {s : State} {i : ℕ} {bits : ℕ} {forced : Bool} (hs : Canonical s) :
    Canonical (s.latchFault i bits forced) :=
  have hs := Canonical.ite hs.update.wrs.wrP (.ite hs.wr hs)
  have hs := hs.setBit.raise
  .dite (fun _ => hs.update) (fun _ => hs)

theorem Canonical.abortGroves {s : State} {mask : ℕ} (hs : Canonical s) : Canonical (s.abortGroves mask) :=
  hs.foldl fun _ _ hs => .ite hs hs.cutBurst

theorem Canonical.faultAbort {s : State} {g : Option (Fin 32)} (hs : Canonical s) : Canonical (s.faultAbort g) := by
  unfold State.faultAbort
  split
  · exact hs.abortGroves
  · exact hs.cutAll

theorem Canonical.cutCal {s : State} (hs : Canonical s) : Canonical s.cutCal :=
  hs.update

theorem Canonical.nmi {s : State} {c : Fin 8} {bit : ℕ} (hs : Canonical s) : Canonical (s.nmi c bit) :=
  have hs := hs.wr
  .ite hs hs.modCore

theorem Canonical.nmiAll {s : State} {bit : ℕ} (hs : Canonical s) : Canonical (s.nmiAll bit) :=
  hs.foldl fun _ _ hs => hs.nmi

theorem Canonical.laterCause {s : State} {cause : ℕ} {src : ℕ} {mism : Bool} {forced : Bool} (hs : Canonical s) :
    Canonical (s.laterCause cause src mism forced) :=
  .ite hs.update hs

theorem Canonical.fbGrove {s : State} {g : Fin 32} (hs : Canonical s) : Canonical (s.fbGrove g) := by
  unfold State.fbGrove
  dsimp only
  exact hs.modGrove.snapEnd.dscGroveEnd

theorem Canonical.fbBursts {s : State} {src : ℕ} (hs : Canonical s) : Canonical (s.fbBursts src) :=
  have hs := hs.foldl fun _ _ hs => hs.modGrove
  have hs := hs.update
  have hs := hs.foldl fun _ _ hs => .ite hs.fbGrove hs
  have hs := hs.foldl fun _ _ hs => .ite hs (have hs := Canonical.ite hs hs.wrs.event
  hs.modThread)
  hs.foldl fun _ _ hs => hs.burstCheckEnded

theorem Canonical.fbSupply {s : State} (hs : Canonical s) : Canonical s.fbSupply :=
  hs.foldl fun _ _ hs => have hs := Canonical.ite hs.wrs.event hs
  hs.endPass.dropClosing.modDsc

theorem Canonical.trgOff {s : State} {e : Fin 4} (hs : Canonical s) : Canonical (s.trgOff e) :=
  hs.modTrg.wr

theorem Canonical.acqFreeze {s : State} (hs : Canonical s) : Canonical s.acqFreeze :=
  have hs := hs.foldl fun _ _ hs => .ite hs hs.trgOff
  hs.foldl fun _ _ hs => .ite hs hs.tmuOff

theorem Canonical.fbPec {s : State} (hs : Canonical s) : Canonical s.fbPec :=
  hs.foldl fun _ _ hs => .ite hs.update.wrs hs

theorem Canonical.firebreak {s : State} {cause : ℕ} {src : ℕ} {mism : Bool} {forced : Bool} (hs : Canonical s) :
    Canonical (s.firebreak cause src mism forced) :=
  .ite hs.laterCause (have hs := hs.wr.event
  have hs := hs.fbBursts
  have hs := hs.update.fbPec.nmiAll.acqFreeze.fbSupply
  hs.update.cutCal.noteHeartbeat)

theorem Canonical.fault {s : State} {i : ℕ} {g : Option (Fin 32)} {forced : Bool} {mism : Bool} (hs : Canonical s) :
    Canonical (s.fault i g forced mism) :=
  have hs := hs.latchFault
  .ite hs (.ite hs.faultAbort (.ite (have hs := Canonical.ite hs.wr hs
  have hs := hs.update.cutCal
  hs.cutAll.nmiAll.noteHeartbeat) hs.firebreak.noteHeartbeat))

theorem Canonical.faultOnce {s : State} {i : ℕ} {g : Option (Fin 32)} (hs : Canonical s) : Canonical (s.faultOnce i g) :=
  hs.fault

theorem Canonical.stFail {s : State} {bits : ℕ} (hs : Canonical s) : Canonical (s.stFail bits) :=
  have hs := hs.wr.setLife
  hs.wr.event.faultOnce

theorem execSelfTest_canonical {h : Hdr} {fails : ℕ} {s : State} (hs : Canonical s) : CanonicalNext (execSelfTest h fails s) :=
  .of_next (hs.onPort fun _ hs => have hs := Canonical.ite hs.wr hs.wr.stFail
  hs.complete)

theorem execDebugUnlock_canonical {h : Hdr} {confirm : ℕ} {s : State} (hs : Canonical s) :
    CanonicalNext (execDebugUnlock h confirm s) :=
  .of_next (hs.onPort fun _ hs => .ite hs.complete (hs.ifApproved fun _ hs => .ite hs.complete hs.zeroiseBy))

theorem execRandom_canonical {h : Hdr} {dest len : ℕ} {healthFail : Bool} {s : State} (hs : Canonical s) :
    CanonicalNext (execRandom h dest len healthFail s) :=
  .of_next (hs.onPort fun _ hs => .ite hs.complete (hs.ifApproved fun _ hs =>
    .ite hs.stFail.complete (have hs := hs.draw; hs.hostPuts.complete)))

theorem Canonical.useStore {s : State} (hs : Canonical s) : Canonical s.useStore :=
  .ite hs hs.faultOnce

theorem Canonical.onStore {s : State} {run : State → Host.Outcome State Fault Refusal} (hs : Canonical s)
    (hrun : ∀ s, Canonical s → CanonicalNext (run s)) : CanonicalNext (s.onStore run) :=
  .ite (.of_next hs.useStore) (hrun _ hs.useStore)

theorem placeEach_canonical {α : Type} {place : State → α → Option State} {l : List α} {s : State} (hs : Canonical s)
    (hplace : ∀ s a, Canonical s → ∀ t ∈ place s a, Canonical t) : ∀ t ∈ placeEach place s l, Canonical t := by
  induction l generalizing s with
  | nil => intro t h; cases h; exact hs
  | cons a l ih =>
    intro t h
    obtain ⟨u, hu, ht⟩ := Option.bind_eq_some_iff.1 h
    exact ih (hplace s a hs u hu) t ht

theorem Canonical.placeBuffer {s : State} {bytes : ℕ} (hs : Canonical s) : ∀ r ∈ s.placeBuffer bytes, Canonical r.2 := by
  unfold State.placeBuffer
  dsimp only
  split
  · exact forall_some hs.update
  · intro r hr
    obtain ⟨p, _, rfl⟩ := Option.map_eq_some_iff.1 hr
    exact hs

theorem Canonical.placeTrg {s : State} {e : Fin 4} (hs : Canonical s) : ∀ t ∈ s.placeTrg e, Canonical t := by
  intro t ht
  unfold State.placeTrg at ht
  dsimp only at ht
  split at ht
  · cases ht; exact hs
  · obtain ⟨r, hr, rfl⟩ := Option.map_eq_some_iff.1 ht
    have hd : Canonical ((s.acq.trg[e].place).elim s fun p => s.zeroPages p.sdram p.pages) := hs.elim fun _ => hs.zeroPages
    exact (hd.modTrg.placeBuffer r hr).update.modTrg.wrs

theorem Canonical.placeTmu {s : State} {u : Fin 32} (hs : Canonical s) : ∀ t ∈ s.placeTmu u, Canonical t := by
  intro t ht
  unfold State.placeTmu at ht
  dsimp only at ht
  split at ht
  · cases ht; exact hs
  · obtain ⟨r, hr, rfl⟩ := Option.map_eq_some_iff.1 ht
    have hd : Canonical ((s.acq.tmu[u].place).elim s fun p => s.zeroPages p.sdram p.pages) := hs.elim fun _ => hs.zeroPages
    exact (hd.modTmu.placeBuffer r hr).update.modTmu.wrs

/-! ## Operations and commands: captures, admission and the rate grant -/

theorem Canonical.placeStoresOpt {s : State} {groves : List (Fin 32)} (hs : Canonical s) :
    ∀ t ∈ s.placeStoresOpt groves, Canonical t := by
  intro t ht
  obtain ⟨u, hu, h⟩ := Option.bind_eq_some_iff.1 ht
  exact placeEach_canonical (placeEach_canonical hs (fun _ _ hs => hs.placeTrg) u hu) (fun _ _ hs => hs.placeTmu) t h

theorem Canonical.placeCapture {s : State} {g : Fin 32} (hs : Canonical s) : ∀ t ∈ s.placeCapture g, Canonical t := by
  intro t ht
  obtain ⟨r, hr, rfl⟩ := Option.map_eq_some_iff.1 ht
  refine Canonical.wrs (.modGrove (Canonical.placeBuffer ?_ r hr))
  exact .modGrove (hs.foldl fun _ _ hs => hs.freePlace)

theorem Canonical.placeCaptures {s : State} {l : List (Fin 32)} (hs : Canonical s) : ∀ t ∈ s.placeCaptures l, Canonical t := by
  induction l generalizing s with
  | nil => intro t ht; cases ht; exact hs
  | cons g l ih =>
    intro t ht
    obtain ⟨u, hu, h⟩ := Option.bind_eq_some_iff.1 ht
    exact ih (hs.placeCapture u hu) t h

theorem Canonical.refuseBurst {s : State} {b : Burst} {code : ℕ} {detail : ℕ} (hs : Canonical s) :
    Canonical (s.refuseBurst b code detail) :=
  have hs := hs.foldl fun _ _ hs => hs.modThread.wr
  hs.update.dropRetired.complete

theorem Canonical.respread {s : State} {b : Burst} (hs : Canonical s) : Canonical (s.respread b) :=
  hs.event.update

theorem Canonical.placeStores {s : State} {groves : List (Fin 32)} (hs : Canonical s) : Canonical (s.placeStores groves) :=
  hs.getD hs.placeStoresOpt

theorem Canonical.admitThread {s : State} {b : Burst} {t : Fin 32} (hs : Canonical s) : Canonical (s.admitThread b t) :=
  have hs := hs.modThread
  have hs := hs.wrs
  have hs := hs.wrP.wrP
  hs.foldl fun _ _ hs => hs.wr

theorem Canonical.zeroGrove {s : State} {g : Fin 32} (hs : Canonical s) : Canonical (s.zeroGrove g) :=
  have hs := hs.foldl fun _ _ hs => hs.wrP
  have hs := hs.foldl fun _ _ hs => hs.wr
  hs.wrs

theorem Canonical.openCapture {s : State} {g : Fin 32} (hs : Canonical s) : Canonical (s.openCapture g) := by
  unfold State.openCapture
  dsimp only
  split
  · exact
      have hs := hs.writePlace
      .ite hs.writePlace hs
  · exact hs

theorem Canonical.admitGrove {b : Burst} {s : State} {g : Fin 32} (hs : Canonical s) : Canonical (State.admitGrove b s g) :=
  have hs := hs.zeroGrove.modGrove
  hs.modGrove.openCapture

theorem Canonical.freshPeers {s : State} {b : Burst} (hs : Canonical s) : Canonical (s.freshPeers b) :=
  hs.update

theorem Canonical.fixLatency {s : State} {b : Burst} (hs : Canonical s) : Canonical (s.fixLatency b) :=
  hs.foldl fun _ _ hs => .ite hs.wr hs

theorem Canonical.admitBurst {s : State} {b : Burst} (hs : Canonical s) : Canonical (s.admitBurst b) :=
  have hs := (hs.getD hs.placeCaptures).placeStores
  have hs := (hs.foldl fun _ _ hs => hs.admitThread).foldl fun _ _ hs => hs.admitGrove
  hs.fixLatency.freshPeers.update.modBurst.grantWaiting

theorem execBurstAdmission_canonical {s : State} (hs : Canonical s) : CanonicalNext (execBurstAdmission s) := by
  unfold execBurstAdmission
  split
  · exact .of_next hs
  · exact
      hs.onStore fun _ hs => by
        split
        · exact .of_next (Canonical.ite hs.respread hs).refuseBurst
        · exact .of_next hs.admitBurst

theorem Canonical.rampTo {s : State} {n : ℕ} {retried : Bool} (hs : Canonical s) : Canonical (s.rampTo n retried) :=
  hs.update.wrs

theorem execGrantRaise_canonical {s : State} (hs : Canonical s) : CanonicalNext (execGrantRaise s) := by
  unfold execGrantRaise
  dsimp only
  split
  · exact .of_next hs
  · split
    · exact .of_next hs
    · exact .ite (.of_next hs.rampTo) (.ite (.of_next hs.rampTo) (.of_next hs))

theorem Canonical.fabIdle {s : State} (hs : Canonical s) : Canonical s.fabIdle :=
  hs.update.wr

theorem execVfabRampDone_canonical {s : State} (hs : Canonical s) : CanonicalNext (execVfabRampDone s) := by
  unfold execVfabRampDone
  dsimp only
  split
  · exact .of_next hs.wr.wr
  · exact .of_next hs.wr.wr.fabIdle.event
  · exact .of_next hs

theorem execVfabSettleExpiry_canonical {s : State} (hs : Canonical s) : CanonicalNext (execVfabSettleExpiry s) :=
  .ite (.of_next hs.update) (.of_next hs)

theorem Canonical.noteRings {s : State} {counts : List ℕ} (hs : Canonical s) : Canonical (s.noteRings counts) :=
  hs.foldl fun _ _ hs => hs.wr.wr

theorem Canonical.stepVfab {s : State} {v : ℕ} (hs : Canonical s) : Canonical (s.stepVfab v) :=
  hs.wrs

theorem Canonical.trim {s : State} {ring : ℕ} (hs : Canonical s) : Canonical (s.trim ring) :=
  .ite (.ite hs.update.stepVfab (.ite (.ite hs.update.stepVfab hs.update) hs.update)) hs.stepVfab

theorem Canonical.setCeil {s : State} {bits : ℕ} (hs : Canonical s) : Canonical (s.setCeil bits) :=
  .ite hs.raise hs.wr.raise.grantWaiting

theorem Canonical.lowerCeil {s : State} {ring : ℕ} {fall : ℕ} {bits : ℕ} (hs : Canonical s) : Canonical (s.lowerCeil ring fall bits) :=
  .ite hs.update.setCeil hs.raise

theorem Canonical.noteReturn {s : State} (hs : Canonical s) : Canonical s.noteReturn :=
  hs.wrs

theorem Canonical.margin {s : State} {ring : ℕ} (hs : Canonical s) : Canonical (s.margin ring) := by
  unfold State.margin
  dsimp only
  refine .ite ?_ ?_
  · exact hs.update.noteReturn.lowerCeil
  · split
    · exact hs.update
    · exact .ite hs.update.update.noteReturn.setCeil hs.update.update

theorem Canonical.confirmed {s : State} (hs : Canonical s) : Canonical s.confirmed :=
  hs.wrs.fabIdle.grantWaiting.event

theorem Canonical.confirmFailed {s : State} {ring : ℕ} (hs : Canonical s) : Canonical (s.confirmFailed ring) := by
  have hw : ∀ s : State, Canonical s → Canonical (match s.waiting with | b :: _ => s.endBeforeStart b .grantFailed | [] => s) := by
    intro s hs
    split
    · exact hs.endBeforeStart
    · exact hs
  exact .ite hs.rampTo (hw _ hs.update.noteReturn.lowerCeil.fabIdle)

theorem Canonical.confirmWindow {s : State} {ring : ℕ} (hs : Canonical s) : Canonical (s.confirmWindow ring) :=
  .ite hs.update (.ite hs.confirmed hs.confirmFailed)

theorem execPaceRingWindow_canonical {counts : List ℕ} {s : State} (hs : Canonical s) : CanonicalNext (execPaceRingWindow counts s) :=
  have hs := hs.noteRings
  .ite (.of_next hs) (.ite (.of_next hs.margin.trim) (.ite (.of_next hs.confirmWindow) (.of_next hs)))

theorem execFabHoldoffExpiry_canonical {s : State} (hs : Canonical s) : CanonicalNext (execFabHoldoffExpiry s) := by
  unfold execFabHoldoffExpiry
  dsimp only
  split
  · exact .of_next hs
  · exact
      .ite (have hs := hs.wrs
      .ite (.of_next hs.wr.fabIdle.event) (.of_next hs.wr)) (.of_next hs)

theorem Canonical.mismatch {s : State} {b : Burst} (hs : Canonical s) : Canonical (s.mismatch b) :=
  hs.event.endBeforeStart

theorem Canonical.tellMember {s : State} {l : Fin 8} {pos : ℕ} {tok : ℕ} (hs : Canonical s) : Canonical (s.tellMember l pos tok) := by
  unfold State.tellMember
  split
  · exact hs.queueToken
  · exact hs

theorem Canonical.sendStart {s : State} {b : Burst} {count : ℕ} {cancel : Bool} (hs : Canonical s) :
    Canonical (s.sendStart b count cancel) :=
  hs.foldl fun _ _ hs => hs.foldl fun _ _ hs => .ite hs hs.tellMember

theorem Canonical.chooseSlot {s : State} {b : Burst} {slot : ℕ} (hs : Canonical s) : Canonical (s.chooseSlot b slot) :=
  .ite hs (.ite hs.sendStart.mismatch (have hs := Canonical.ite hs.sendStart hs
  have hs := hs.modBurst
  hs.foldl fun _ _ hs => hs.occurrence))

theorem Canonical.tryStartSlot {s : State} {b : Burst} (hs : Canonical s) : Canonical (s.tryStartSlot b) := by
  unfold State.tryStartSlot
  split
  · exact hs.chooseSlot
  · exact hs

theorem Canonical.sendArmed {s : State} {b : Burst} (hs : Canonical s) : Canonical (s.sendArmed b) :=
  hs.foldl fun _ _ hs => .ite hs hs.tellMember

theorem execBurstArmed_canonical {tag : ℕ} {epoch : ℕ} {s : State} (hs : Canonical s) :
    CanonicalNext (execBurstArmed tag epoch s) := by
  unfold execBurstArmed
  dsimp only
  split
  · exact .of_next hs
  · exact
      .ite (have hs := hs.modBurst
      .of_next hs.sendArmed.tryStartSlot) (.of_next hs)

theorem Canonical.useSeg {s : State} {id : ℕ} {gen : ℕ} (hs : Canonical s) : Canonical (s.useSeg id gen) :=
  hs.modSeg

theorem Canonical.startGrove {slot : ℕ} {s : State} {g : Fin 32} (hs : Canonical s) : Canonical (State.startGrove slot s g) :=
  have hs := hs.modGrove
  have hs := hs.foldl fun _ _ hs => hs.modChan
  hs.wr

theorem Canonical.setUnread {s : State} {e : Fin 4} {n : ℕ} (hs : Canonical s) : Canonical (s.setUnread e n) :=
  hs.update.wr

theorem Canonical.trgWait {s : State} {e : Fin 4} (hs : Canonical s) : Canonical (s.trgWait e) :=
  hs.modTrg.wr

theorem Canonical.trgArm {s : State} {e : Fin 4} (hs : Canonical s) : Canonical (s.trgArm e) :=
  .ite hs (.ite hs.event (.ite hs.modTrg
    (have hs := hs.modTrg
    have hs := Canonical.ite (hs.getD hs.placeTrg) hs
    have hs := Canonical.ite hs hs.modTrg.setUnread
    hs.wr.trgWait)))

theorem Canonical.acqBurstStart {s : State} {groves : List (Fin 32)} (hs : Canonical s) : Canonical (s.acqBurstStart groves) :=
  have hs := hs.foldl fun _ _ hs => .ite hs.trgArm hs
  hs.foldl fun _ _ hs => .ite hs.modTmu hs

theorem Canonical.endMembers {s : State} {t : Fin 32} {mask : ℕ} {r : EndReason} {endDen : Bool} (hs : Canonical s) :
    Canonical (s.endMembers t mask r endDen) := by
  unfold State.endMembers
  dsimp only
  refine .ite ?_ ?_
  · exact hs
  · split
    · exact (Canonical.ite (Canonical.ite (hs.foldl fun _ _ hs => hs.haltGrove).modThread.wr (hs.foldl fun _ _ hs => hs.haltGrove).modThread).wrs (.ite (hs.foldl fun _ _ hs => hs.haltGrove).modThread.wr (hs.foldl fun _ _ hs => hs.haltGrove).modThread)).raise.burstCheckEnded
    · exact (Canonical.ite (Canonical.ite (hs.foldl fun _ _ hs => hs.haltGrove).modThread.wr (hs.foldl fun _ _ hs => hs.haltGrove).modThread).wrs (.ite (hs.foldl fun _ _ hs => hs.haltGrove).modThread.wr (hs.foldl fun _ _ hs => hs.haltGrove).modThread)).raise

theorem Canonical.postVoid {s : State} {t : Fin 32} (hs : Canonical s) : Canonical (s.postVoid t) := by
  unfold State.postVoid
  dsimp only
  split
  · exact hs
  · exact
      have hs := hs.foldl fun _ _ hs => hs.occurrence
      hs.modThread

theorem Canonical.checkEnd {s : State} {t : Fin 32} (hs : Canonical s) : Canonical (s.checkEnd t) := by
  unfold State.checkEnd
  dsimp only
  refine .ite ?_ ?_
  · exact hs
  · refine .ite ?_ ?_
    · exact (hs.foldl fun _ _ hs => hs.endMembers).modThread
    · split
      · exact
          .ite (have hs' := (hs.foldl fun _ _ hs => hs.endMembers).modThread.postVoid.foldl fun _ _ hs => hs.modGrove
          hs'.endMembers) (hs.foldl fun _ _ hs => hs.endMembers).modThread
      · exact (hs.foldl fun _ _ hs => hs.endMembers).modThread.postVoid.endMembers
      · exact .ite (hs.foldl fun _ _ hs => hs.endMembers).modThread.postVoid.endMembers (hs.foldl fun _ _ hs => hs.endMembers).modThread
      · exact (hs.foldl fun _ _ hs => hs.endMembers).modThread

theorem Canonical.pulseOut {s : State} {n : Fin 8} {rise : ℕ} (hs : Canonical s) : Canonical (s.pulseOut n rise) :=
  hs.update

theorem Canonical.pulses {s : State} {rise : ℕ} {sel : State → Fin 8 → Bool} (hs : Canonical s) : Canonical (s.pulses rise sel) :=
  hs.foldl fun _ _ hs => .ite hs.pulseOut hs

theorem Canonical.noteState {s : State} {t : Fin 32} (hs : Canonical s) : Canonical (s.noteState t) :=
  .ite hs.wr hs

theorem execBurstStart_canonical {tag : ℕ} {epoch : ℕ} {s : State} (hs : Canonical s) :
    CanonicalNext (execBurstStart tag epoch s) := by
  unfold execBurstStart
  dsimp only
  split
  · exact .of_next hs
  · split
    · exact .of_next hs
    · exact
        .ite (have hs := hs.modBurst
        have hs := (hs.foldl fun _ _ hs => hs.startGrove).useSeg
        have hs := hs.acqBurstStart
        have hs := hs.foldl fun _ _ hs => hs.noteState.pulses.checkEnd
        .of_next hs) (.of_next hs)

theorem Canonical.mirrorNow {s : State} {t : Fin 32} (hs : Canonical s) : Canonical (s.mirrorNow t) :=
  .ite hs.hostPuts hs

theorem Canonical.noteStream {s : State} {t : Fin 32} (hs : Canonical s) : Canonical (s.noteStream t) :=
  hs.wrs.wrP

theorem Canonical.consume {s : State} {t : Fin 32} {n : ℕ} (hs : Canonical s) : Canonical (s.consume t n) :=
  have hs := hs.update
  have hs := Canonical.ite hs.mirrorNow hs
  hs.noteStream

theorem execGranuleFetch_canonical {t : Fin 32} {seg : ℕ} {gen : ℕ} {gran : ℕ} {s : State} (hs : Canonical s) :
    CanonicalNext (execGranuleFetch t seg gen gran s) := by
  unfold execGranuleFetch
  dsimp only
  split
  · exact .ite (.of_next hs) (.ite (.ite (.of_next hs) (.of_next hs.consume.modThread)) (.ite (.of_next hs) (.of_next hs.modThread)))
  · exact .of_next hs

theorem Canonical.noteFill {s : State} {t : Fin 32} (hs : Canonical s) : Canonical (s.noteFill t) :=
  hs.foldl fun _ _ hs => hs.wr

theorem Canonical.push {s : State} {t : Fin 32} {n : ℕ} (hs : Canonical s) : Canonical (s.push t n) := by
  induction n generalizing s with
  | zero => exact hs
  | succ n ih =>
    unfold State.push
    dsimp only
    split
    · exact hs
    · refine .ite hs ?_
      split
      · exact hs
      · exact ih hs.modThread

theorem Canonical.pushLines {s : State} {t : Fin 32} (hs : Canonical s) : Canonical (s.pushLines t) :=
  hs.push.noteFill

theorem execGranuleArrival_canonical {t : Fin 32} {s : State} (hs : Canonical s) : CanonicalNext (execGranuleArrival t s) := by
  unfold execGranuleArrival
  dsimp only
  split
  · exact .of_next hs
  · exact
      have hs := hs.modThread
      .of_next (.ite hs hs.pushLines)

theorem Canonical.endThread {s : State} {t : Fin 32} {r : EndReason} {endDen : Bool} (hs : Canonical s) :
    Canonical (s.endThread t r endDen) :=
  hs.modThread.checkEnd

/-! ## Operations and commands: sequencer threads, results and lines -/

theorem Canonical.seqErrorAt {s : State} {t : Fin 32} {code : ℕ} {seg : ℕ} {gen : ℕ} {word : ℕ} (hs : Canonical s) :
    Canonical (s.seqErrorAt t code seg gen word) :=
  have hs := hs.wrs
  have hs := hs.endThread
  have hs := Canonical.ite hs.endMembers hs
  have hs := hs.event.faultOnce
  .ite hs hs.modThread

theorem Canonical.seqError {s : State} {t : Fin 32} {code : ℕ} (hs : Canonical s) : Canonical (s.seqError t code) :=
  hs.seqErrorAt

theorem Canonical.fetchWords {s : State} {t : Fin 32} {words : ℕ} (hs : Canonical s) : Canonical (s.fetchWords t words) :=
  hs.modGrove

theorem Canonical.decode {s : State} {t : Fin 32} {op : SeqOp} {act : State → Seg → State} (hs : Canonical s)
    (hact : ∀ s x, Canonical s → Canonical (act s x)) : Canonical (s.decode t op act) := by
  unfold State.decode
  refine .ite ?_ hs
  split
  · exact hs.seqError
  · split
    · exact hs.seqError
    · exact .ite (hact _ _ hs.fetchWords) hs

theorem Canonical.goWord {s : State} {t : Fin 32} {word : ℕ} (hs : Canonical s) : Canonical (s.goWord t word) :=
  hs.wr

theorem Canonical.advance {s : State} {t : Fin 32} {words : ℕ} (hs : Canonical s) : Canonical (s.advance t words) :=
  hs.goWord

theorem Canonical.addAdvance {s : State} {t : Fin 32} {seg : ℕ} {gen : ℕ} {lines : ℕ} (hs : Canonical s) :
    Canonical (s.addAdvance t seg gen lines) := by
  unfold State.addAdvance
  split
  · exact hs
  · exact hs.modBurst

theorem Canonical.emit {s : State} {t : Fin 32} {rpt : Bool} {ts : ℕ} {csup : Bool} {mark : ℕ} {n : ℕ} (hs : Canonical s) :
    Canonical (s.emit t rpt ts csup mark n) :=
  hs.decode fun _ _ hs => .ite hs.seqError (have hs := hs.modThread
  hs.addAdvance.advance.pushLines)

theorem execRun_canonical {t : Fin 32} {ts : ℕ} {csup : Bool} {mark : ℕ} {n : ℕ} {s : State} (hs : Canonical s) :
    CanonicalNext (execRun t ts csup mark n s) :=
  .of_next hs.emit

theorem execRpt_canonical {t : Fin 32} {ts : ℕ} {csup : Bool} {mark : ℕ} {n : ℕ} {s : State} (hs : Canonical s) :
    CanonicalNext (execRpt t ts csup mark n s) :=
  .of_next hs.emit

theorem Canonical.setStack {s : State} {t : Fin 32} {l : List StackEnt} (hs : Canonical s) : Canonical (s.setStack t l) :=
  have hs := hs.modThread.wr
  hs.foldl fun _ _ hs => by
    exact hs.wr

theorem Canonical.openLoop {s : State} {t : Fin 32} {kind : StackKind} {dscm : Bool} {count : ℕ} (hs : Canonical s) :
    Canonical (s.openLoop t kind dscm count) :=
  hs.decode fun _ _ hs => .ite hs.seqError (.ite hs.seqError (have hs := hs.setStack
  have hs := hs.modThread
  hs.goWord))

theorem execLoop_canonical {t : Fin 32} {dscm : Bool} {count : ℕ} {s : State} (hs : Canonical s) :
    CanonicalNext (execLoop t dscm count s) :=
  .of_next hs.openLoop

theorem Canonical.goTo {s : State} {t : Fin 32} {seg : ℕ} {gen : ℕ} {word : ℕ} {pos : ℕ} (hs : Canonical s) :
    Canonical (s.goTo t seg gen word pos) :=
  hs.modThread.wrs

theorem Canonical.nextPass {s : State} {t : Fin 32} {e : StackEnt} {rest : List StackEnt} (hs : Canonical s) :
    Canonical (s.nextPass t e rest) :=
  have hs := hs.setStack
  have hs := hs.modThread
  hs.goTo

theorem execLend_canonical {t : Fin 32} {s : State} (hs : Canonical s) : CanonicalNext (execLend t s) :=
  .of_next (hs.decode fun _ _ hs => by
    split
    · exact hs.seqError
    · exact .ite hs.seqError (.ite hs.nextPass hs.setStack.advance))

theorem execMloop_canonical {t : Fin 32} {dscm : Bool} {count : ℕ} {s : State} (hs : Canonical s) :
    CanonicalNext (execMloop t dscm count s) :=
  .of_next hs.openLoop

theorem Canonical.takeBrc {s : State} {t : Fin 32} {cond : ℕ} {comb : ℕ} {tword : ℕ} {tline : ℕ} (hs : Canonical s) :
    Canonical (s.takeBrc t cond comb tword tline) :=
  .ite (have hs := Canonical.ite hs hs.modThread
  have hs := hs.advance
  .ite hs.endThread hs.checkEnd) (.ite hs.goTo hs.advance)

theorem Canonical.takeMend {s : State} {t : Fin 32} {comb : ℕ} (hs : Canonical s) : Canonical (s.takeMend t comb) := by
  unfold State.takeMend
  dsimp only
  split
  · exact hs
  · exact
      have hs := hs.modThread
      .ite (have hs := hs.modThread
      have hs := hs.setStack
      have hs := hs.wr
      have hs := hs.foldl fun _ _ hs => hs.modGrove
      have hs := Canonical.ite hs hs.event
      hs.advance) (have hs := hs.nextPass
      hs.modThread)

theorem Canonical.dropBranch {s : State} {t : Fin 32} (hs : Canonical s) : Canonical (s.dropBranch t) :=
  hs.modThread

theorem Canonical.decide_ {s : State} {t : Fin 32} (hs : Canonical s) : Canonical (s.decide_ t) := by
  unfold State.decide_
  dsimp only
  split
  · exact hs
  · refine .ite ?_ ?_
    · exact
        .noteState (.dropBranch (by
          split
          · exact hs.modThread.takeBrc
          · exact hs.modThread.takeMend))
    · exact hs

theorem Canonical.await {s : State} {t : Fin 32} {p : Pending} (hs : Canonical s) : Canonical (s.await t p) :=
  hs.modThread.noteState.decide_

theorem execMend_canonical {t : Fin 32} {comb : ℕ} {s : State} (hs : Canonical s) : CanonicalNext (execMend t comb s) :=
  .of_next (hs.decode fun _ _ hs => by
    refine .ite ?_ ?_
    · exact hs.seqError
    · split
      · exact hs.seqError
      · exact .ite hs.seqError hs.modThread.await)

theorem Canonical.target {s : State} {t : Fin 32} {seg gen : ℕ} {act : State → Seg → State} (hs : Canonical s)
    (hact : ∀ s x, Canonical s → Canonical (act s x)) : Canonical (s.target t seg gen act) := by
  unfold State.target
  split
  · exact hs.seqError
  · exact .ite hs.seqError (.ite hs.seqError (hact _ _ hs))

theorem Canonical.enter {s : State} {t : Fin 32} {x : Seg} (hs : Canonical s) : Canonical (s.enter t x) :=
  have hs := hs.modThread
  hs.useSeg.addAdvance.wrs

theorem execCall_canonical {t : Fin 32} {seg : ℕ} {gen : ℕ} {s : State} (hs : Canonical s) : CanonicalNext (execCall t seg gen s) :=
  .of_next (hs.decode fun _ _ hs => hs.target fun _ _ hs => .ite hs.seqError hs.setStack.enter)

theorem execRet_canonical {t : Fin 32} {s : State} (hs : Canonical s) : CanonicalNext (execRet t s) :=
  .of_next (hs.decode fun _ _ hs => by
    split
    · exact hs.seqError
    · exact
        .ite hs.seqError (have hs := hs.setStack.modThread.goTo
        .ite hs.modThread hs))

theorem execJseg_canonical {t : Fin 32} {seg : ℕ} {gen : ℕ} {s : State} (hs : Canonical s) : CanonicalNext (execJseg t seg gen s) :=
  .of_next (hs.decode fun _ _ hs => hs.target fun _ _ hs => hs.enter)

theorem execJmp_canonical {t : Fin 32} {tword : ℕ} {tline : ℕ} {s : State} (hs : Canonical s) :
    CanonicalNext (execJmp t tword tline s) :=
  .of_next (hs.decode fun _ _ hs => .ite hs.goTo hs.seqError)

theorem execBrc_canonical {t : Fin 32} {cond : ℕ} {comb : ℕ} {tword : ℕ} {tline : ℕ} {s : State} (hs : Canonical s) :
    CanonicalNext (execBrc t cond comb tword tline s) :=
  .of_next (hs.decode fun _ _ hs => .ite hs.seqError (.ite hs.takeBrc hs.await))

theorem execClrf_canonical {t : Fin 32} {s : State} (hs : Canonical s) : CanonicalNext (execClrf t s) :=
  .of_next (hs.decode fun _ _ hs => hs.modThread.advance)

theorem execSig_canonical {t : Fin 32} {start : ℕ} {count : ℕ} {crc : ℕ} {s : State} (hs : Canonical s) :
    CanonicalNext (execSig t start count crc s) :=
  .of_next (hs.decode fun _ _ hs => .ite hs.seqError hs.modThread.advance)

theorem execSigCheckDone_canonical {t : Fin 32} {s : State} (hs : Canonical s) : CanonicalNext (execSigCheckDone t s) := by
  unfold execSigCheckDone
  dsimp only
  split
  · exact .of_next hs
  · split
    · exact .of_next hs.modThread
    · exact
        have hs := Canonical.ite hs.modThread hs.modThread.modGrove
        .ite (.of_next hs.incSat) (have hs := hs.incSat.wrs
        .of_next hs.event.faultOnce)

theorem execHalt_canonical {t : Fin 32} {endDen : Bool} {s : State} (hs : Canonical s) : CanonicalNext (execHalt t endDen s) :=
  .of_next (hs.decode fun _ _ hs => hs.endThread)

theorem execIllegalInstruction_canonical {t : Fin 32} {s : State} (hs : Canonical s) : CanonicalNext (execIllegalInstruction t s) := by
  unfold execIllegalInstruction
  refine .of_next ?_
  refine .ite ?_ ?_
  · split
    · exact hs.seqError
    · exact hs
  · exact hs

theorem execHostStreamAnnounceMatch_canonical {t : Fin 32} {s : State} (hs : Canonical s) :
    CanonicalNext (execHostStreamAnnounceMatch t s) := by
  unfold execHostStreamAnnounceMatch
  dsimp only
  split
  · exact
      have hs := hs.modThread
      .ite (have hs := hs.modThread
      .of_next hs.update.noteStream) (.of_next hs.seqErrorAt)
  · exact .of_next hs

theorem execDecisionResultsReady_canonical {t : Fin 32} {s : State} (hs : Canonical s) :
    CanonicalNext (execDecisionResultsReady t s) :=
  .of_next hs.decide_

theorem Canonical.noteCommit {s : State} {t : Fin 32} (hs : Canonical s) : Canonical (s.noteCommit t) :=
  have hs := hs.wrP.wrP.noteFill
  hs.foldl fun _ _ hs => hs.wr

theorem Canonical.commitLine {s : State} {t : Fin 32} (hs : Canonical s) : Canonical (s.commitLine t) := by
  unfold State.commitLine
  dsimp only
  split
  · exact hs
  · exact
      have hs := hs.modThread
      hs.noteCommit.pushLines

theorem Canonical.beginVoid {s : State} {t : Fin 32} {cause : ℕ} (hs : Canonical s) : Canonical (s.beginVoid t cause) :=
  have hs := hs.foldl fun _ _ hs => hs.wrs.incSat
  have hs := hs.modThread
  have hs := Canonical.ite hs.incSat.event hs
  .ite hs.incSat.event hs

theorem Canonical.commitVoid {s : State} {t : Fin 32} (hs : Canonical s) : Canonical (s.commitVoid t) :=
  have hs := hs.modThread
  hs.noteCommit

theorem execCycleCommit_canonical {t : Fin 32} {cause : ℕ} {s : State} (hs : Canonical s) :
    CanonicalNext (execCycleCommit t cause s) :=
  .ite (.of_next hs) (.ite (.of_next hs.postVoid.commitLine) (have hs := Canonical.ite hs.beginVoid hs
  .of_next hs.commitVoid))

theorem execVoidLimitReached_canonical {t : Fin 32} {s : State} (hs : Canonical s) : CanonicalNext (execVoidLimitReached t s) :=
  .ite (.of_next hs.modThread) (.of_next hs)

theorem Canonical.parityError {s : State} {hit : ParityHit} {scrub : Bool} {g : Option (Fin 32)} (hs : Canonical s) :
    Canonical (s.parityError hit scrub g) := by
  unfold State.parityError
  dsimp only
  split
  · exact hs
  · exact hs.wrs.event.faultOnce
  · exact
      have hs := hs.wrs.event
      have hs := hs.faultOnce
      .ite hs.modChan hs

theorem Canonical.noteViols {s : State} {g : Fin 32} {l : List Viol} (hs : Canonical s) : Canonical (s.noteViols g l) :=
  hs.foldl fun _ _ hs => have hs := hs.incSat
  have hs := Canonical.ite hs hs.wrs
  hs.event.faultOnce

theorem Canonical.measureCycle {s : State} {g : Fin 32} {idx : ℕ} {bits : ℕ} {span : ℕ} (hs : Canonical s) :
    Canonical (s.measureCycle g idx bits span) := by
  unfold State.measureCycle
  dsimp only
  refine .ite ?_ ?_
  · exact hs.modGrove
  · split
    · exact hs.modGrove.modGrove.wr
    · exact .ite (hs.modGrove.modGrove.wr.foldl fun _ _ hs => hs.wr) hs.modGrove.modGrove.wr

theorem Canonical.lineCycle {s : State} {g lead : Fin 32} {l : Line} {period : ℕ} {cut : Bool} {levels : List ChanLevels} {hit : ParityHit}
    (hs : Canonical s) : Canonical (s.lineCycle g lead l period cut levels hit).1 := by
  unfold State.lineCycle
  dsimp only
  refine Canonical.measureCycle (Canonical.noteViols (Canonical.foldl_fst hs fun a x hs => ?_))
  split
  · exact hs
  · exact hs.modChan

theorem Canonical.soilPass {s : State} {d : Fin 16} (hs : Canonical s) : Canonical (s.soilPass d) :=
  hs.modDsc

theorem Canonical.dscVoid {s : State} {g : Fin 32} (hs : Canonical s) : Canonical (s.dscVoid g) :=
  hs.foldl fun _ _ hs => hs.soilPass

theorem Canonical.trgFull {s : State} {e : Fin 4} (hs : Canonical s) : Canonical (s.trgFull e) :=
  hs.trgOff.event

theorem Canonical.trgAnnounce {s : State} {e : Fin 4} {cause : ℕ} {point : ℕ} (hs : Canonical s) :
    Canonical (s.trgAnnounce e cause point) :=
  have hs := hs.wrP.wr
  have hs := hs.foldl fun _ _ hs => .ite hs.pulseOut hs
  have hs := hs.foldl fun _ _ hs => .ite hs.wr hs
  hs.raise

theorem Canonical.writeRecord {s : State} {e : Fin 4} {r : TrgRec} {complete : Bool} (hs : Canonical s) :
    Canonical (s.writeRecord e r complete) := by
  unfold State.writeRecord
  dsimp only
  split
  · exact hs
  · exact .ite hs hs.writePlace

theorem Canonical.trgFire {s : State} {e : Fin 4} {cause : ℕ} {point : ℕ} (hs : Canonical s) :
    Canonical (s.trgFire e cause point) := by
  unfold State.trgFire
  dsimp only
  refine .ite ?_ ?_
  · exact hs
  · refine .ite ?_ ?_
    · exact hs.incSat
    · refine .ite ?_ ?_
      · exact hs.trgFull
      · split
        · exact hs.modTrg.wr.writeRecord.trgAnnounce
        · exact hs.modTrg.wr

theorem Canonical.trgQualify {s : State} {e : Fin 4} {point : ℕ} (hs : Canonical s) : Canonical (s.trgQualify e point) := by
  unfold State.trgQualify
  split
  · exact hs.trgFire
  · exact hs.trgFire
  · exact .ite hs.modTrg hs
  · exact hs

theorem Canonical.trgChain {n : ℕ} {s : State} {e : Fin 4} {point : ℕ} (hs : Canonical s) : Canonical (State.trgChain n s e point) := by
  induction n generalizing s e with
  | zero => exact hs
  | succ n ih => exact hs.foldl fun _ _ hs => .ite (.ite (ih hs.trgQualify) hs.trgQualify) hs

theorem Canonical.qualEvent {s : State} {e : Fin 4} {point : ℕ} (hs : Canonical s) : Canonical (s.qualEvent e point) :=
  have hs := hs.trgQualify
  .ite hs.trgChain hs

theorem Canonical.measure {s : State} {d : Fin 16} {p : Fin 4} {n : ℕ} (hs : Canonical s) : Canonical (s.measure d p n) := by
  unfold State.measure
  dsimp only
  refine .ite ?_ ?_
  · exact hs.modDsc.wr
  · refine .ite ?_ ?_
    · exact hs.modDsc.wr
    · split
      · exact hs.modDsc.wr
      · exact hs.modDsc.wr

theorem Canonical.dscEvent {s : State} {d : Fin 16} {ev : ℕ} (hs : Canonical s) : Canonical (s.dscEvent d ev) :=
  hs.foldl fun _ _ hs => .ite hs.qualEvent hs

theorem Canonical.acceptPass {s : State} {d : Fin 16} {p : Fin 4} {n : ℕ} {late : Bool} (hs : Canonical s) :
    Canonical (s.acceptPass d p n late) := by
  unfold State.acceptPass
  dsimp only
  exact
    .ite (.measure (by
      split
      · exact hs.endPass.modDsc
      · exact hs.endPass)) (.dscEvent (.notePass (.ite (.incSat (.modDsc (.measure (by
      split
      · exact hs.endPass.modDsc
      · exact hs.endPass)))) (.modDsc (.measure (by
      split
      · exact hs.endPass.modDsc
      · exact hs.endPass))))))

theorem Canonical.dscPulse {s : State} {d : Fin 16} {marks : List Marker} (hs : Canonical s) : Canonical (s.dscPulse d marks) := by
  unfold State.dscPulse
  dsimp only
  refine .ite ?_ ?_
  · exact hs.modDsc
  · split
    · exact hs.modDsc.acceptPass
    · exact hs.modDsc

/-! ## Operations and commands: cycles, decisions, records and structure loads -/

theorem Canonical.lineEvents {s : State} {t : Fin 32} {l : Line} {groves : List (Fin 32)} {idx : ℕ} {start : ℕ} (hs : Canonical s) :
    Canonical (s.lineEvents t l groves idx start) :=
  have hs := hs.pulses.foldl fun _ _ hs => .ite hs.qualEvent hs
  .ite hs (hs.foldl fun _ _ hs => hs.dscPulse)

theorem Canonical.lineEventsOpt {s : State} {t : Fin 32} {o : Option Line} {groves : List (Fin 32)} {idx : ℕ} {start : ℕ}
    (hs : Canonical s) :
    Canonical (match o with | some l => s.lineEvents t l groves idx start | none => s) := by
  split
  · exact hs.lineEvents
  · exact hs

theorem execCycleStart_canonical {t : Fin 32} {levels : List ChanLevels} {hit : ParityHit} {s : State} (hs : Canonical s) :
    CanonicalNext (execCycleStart t levels hit s) := by
  unfold execCycleStart
  extract_lets k
  split
  · exact .of_next hs
  · refine .ite (.of_next hs) (.of_next (Canonical.lineEventsOpt (Canonical.modThread ?_)))
    refine Canonical.foldl_fst hs.parityError fun a g ha => Canonical.modGrove (Canonical.measureCycle ?_)
    split
    · exact ha.lineCycle
    · exact (Canonical.ite ha.denOff ha).dscVoid

theorem Canonical.feedEngines {s : State} {g : Fin 32} {c : Started} {l : List (ℕ × ChanRes)} {only : Bool} (hs : Canonical s) :
    Canonical (s.feedEngines g c l only) :=
  hs.foldl fun _ _ hs => .ite hs.modTrg hs

theorem Canonical.capWrite {s : State} {g : Fin 32} {off : ℕ} {l : List Byte} (hs : Canonical s) : Canonical (s.capWrite g off l) := by
  unfold State.capWrite
  split
  · exact .ite hs hs.writePlace
  · exact hs

theorem Canonical.flagLoss {s : State} {g : Fin 32} {first : Bool} (hs : Canonical s) : Canonical (s.flagLoss g first) :=
  .ite hs.capWrite hs

theorem Canonical.loseFail {s : State} {g : Fin 32} (hs : Canonical s) : Canonical (s.loseFail g) :=
  have hs := hs.modGrove.incSat
  hs.wr.event.flagLoss

theorem Canonical.addFail {s : State} {g : Fin 32} {l : List Byte} (hs : Canonical s) : Canonical (s.addFail g l) :=
  .ite hs.loseFail (.ite hs.capWrite.modGrove (.ite (have hs := hs.capWrite
  hs.modGrove.loseFail) hs.loseFail))

theorem Canonical.endVisit {s : State} {g : Fin 32} {ended : Bool} (hs : Canonical s) : Canonical (s.endVisit g ended) := by
  unfold State.endVisit
  dsimp only
  split
  · exact hs
  · exact
      have hs := hs.modGrove
      .ite hs hs.addFail

theorem Canonical.visitCycle {s : State} {g : Fin 32} {cyc : ℕ} {line : Option Line} {unref : Bool} {mask : ℕ} (hs : Canonical s) :
    Canonical (s.visitCycle g cyc line unref mask) := by
  unfold State.visitCycle
  dsimp only
  refine .ite ?_ ?_
  · exact hs
  · exact
      .modGrove (by
        split
        · exact .ite hs.endVisit.modGrove hs
        · exact hs)

theorem Canonical.tellPeers {s : State} {g : Fin 32} {failed : Bool} {judged : Bool} (hs : Canonical s) :
    Canonical (s.tellPeers g failed judged) :=
  .ite hs.update hs

theorem Canonical.fillTable {s : State} {g : Fin 32} {at_ : Loc} {l : List (ℕ × ChanRes)} (hs : Canonical s) :
    Canonical (s.fillTable g at_ l) :=
  .ite hs.loseFail (.ite (hs.foldl fun _ _ hs => hs.capWrite) hs)

theorem Canonical.firstFail {s : State} {g : Fin 32} {at_ : Loc} {l : List (ℕ × ChanRes)} (hs : Canonical s) :
    Canonical (s.firstFail g at_ l) := by
  unfold State.firstFail
  refine .ite ?_ ?_
  · exact hs
  · split
    · exact hs
    · exact hs.wrP.wrs

theorem Canonical.noteSat {s : State} {g : Fin 32} (hs : Canonical s) : Canonical (s.noteSat g) :=
  hs.wr.event

theorem Canonical.count48 {s : State} {g : Fin 32} {lo : Fld} {n : ℕ} (hs : Canonical s) : Canonical (s.count48 g lo n) :=
  have hs' := hs.wrP
  .ite hs'.noteSat hs'

theorem Canonical.countCycle {s : State} {g : Fin 32} {l : List (ℕ × ChanRes)} (hs : Canonical s) : Canonical (s.countCycle g l) :=
  have hs := hs.count48
  have hs := hs.count48
  have hs := hs.count48
  hs.foldl fun _ _ hs => have hs := hs.incSat
  .ite hs.noteSat hs

theorem Canonical.endBin {s : State} {g : Fin 32} {m : MapRun} (hs : Canonical s) : Canonical (s.endBin g m).1 :=
  .ite_fst hs (have hs := Canonical.ite hs hs.addFail
  hs)

theorem Canonical.mapCycle {s : State} {g : Fin 32} {cyc : ℕ} {mask : ℕ} (hs : Canonical s) : Canonical (s.mapCycle g cyc mask) := by
  unfold State.mapCycle
  dsimp only
  split
  · exact hs.modGrove
  · exact .ite hs.modGrove hs.endBin.modGrove

theorem Canonical.failRecord {s : State} {g : Fin 32} {at_ : Loc} {l : List (ℕ × ChanRes)} {mask : ℕ} (hs : Canonical s) :
    Canonical (s.failRecord g at_ l mask) := by
  unfold State.failRecord
  refine .ite ?_ ?_
  · exact hs
  · split
    · exact hs.addFail
    · exact hs.mapCycle
    · exact hs

theorem Canonical.loseVal {s : State} {g : Fin 32} (hs : Canonical s) : Canonical (s.loseVal g) :=
  have hs := hs.modGrove.incSat
  hs.wr.event.flagLoss

theorem Canonical.endGran {s : State} {g : Fin 32} (hs : Canonical s) : Canonical (s.endGran g) := by
  unfold State.endGran
  dsimp only
  split
  · exact hs
  · exact
      .ite hs.modGrove.loseVal (have hs := hs.modGrove.modGrove
      have hs := hs.foldl fun _ _ hs => hs.loseVal
      hs.capWrite)

theorem Canonical.valueCycle {s : State} {g : Fin 32} {cyc : ℕ} {unref : Bool} {l : List (ℕ × ChanRes)} (hs : Canonical s) :
    Canonical (s.valueCycle g cyc unref l) := by
  unfold State.valueCycle
  dsimp only
  refine .ite ?_ ?_
  · exact hs
  · exact
      .modGrove (by
        split
        · exact .ite hs.endGran hs
        · exact hs)

theorem Canonical.groveCycle {s : State} {t : Fin 32} {c : Started} {g : Fin 32} (hs : Canonical s) :
    Canonical (s.groveCycle t c g) := by
  unfold State.groveCycle
  dsimp only
  split
  · exact
      have hs := (Canonical.ite hs.modGrove.modGrove hs.modGrove).modGrove
      have hs := hs.wrP
      hs.visitCycle.feedEngines
  · exact
      have hs := (Canonical.ite hs.modGrove.modGrove hs.modGrove).modGrove.tellPeers
      .ite hs.modThread.visitCycle.feedEngines (have hs := hs.countCycle.firstFail.fillTable
      have hs := Canonical.ite hs.modGrove hs
      have hs := hs.visitCycle.failRecord
      hs.valueCycle.feedEngines)

theorem Canonical.snapCycle {s : State} {g : Fin 32} {cyc : ℕ} (hs : Canonical s) : Canonical (s.snapCycle g cyc) :=
  have hs := hs.foldl fun _ _ hs => hs.copyShadow.snapTell.snapDone
  hs.foldl fun _ _ hs => hs.snapGrove

theorem execCycleResult_canonical {t : Fin 32} {s : State} (hs : Canonical s) : CanonicalNext (execCycleResult t s) := by
  unfold execCycleResult
  dsimp only
  split
  · exact .of_next hs
  · exact
      have hs := hs.foldl fun _ _ hs => hs.groveCycle
      have hs := hs.modThread
      have hs := hs.foldl fun _ _ hs => hs.snapCycle
      .of_next hs.pushLines.checkEnd

theorem Canonical.hitWaiters {s : State} {t : Fin 32} (hs : Canonical s) : Canonical (s.hitWaiters t) := by
  unfold State.hitWaiters
  split
  · exact hs
  · exact hs.modBurst

theorem Canonical.cutEffect {s : State} {t : Fin 32} {abort : Bool} (hs : Canonical s) : Canonical (s.cutEffect t abort) := by
  unfold State.cutEffect
  dsimp only
  split
  · exact .ite hs.postVoid.hitWaiters.endMembers hs
  · exact hs

theorem execAbortEffect_canonical {t : Fin 32} {s : State} (hs : Canonical s) : CanonicalNext (execAbortEffect t s) :=
  .of_next hs.cutEffect

theorem execStopEffect_canonical {t : Fin 32} {s : State} (hs : Canonical s) : CanonicalNext (execStopEffect t s) :=
  .of_next hs.cutEffect

theorem Canonical.endMap {s : State} {g : Fin 32} (hs : Canonical s) : Canonical (s.endMap g) := by
  unfold State.endMap
  split
  · exact hs
  · exact hs.endBin.addFail.modGrove

theorem Canonical.queueBulk {s : State} {n : Fin 8} {cls : ℕ} {data : List Byte} (hs : Canonical s) :
    Canonical (s.queueBulk n cls data) :=
  hs.modLane

theorem Canonical.putPeer {s : State} {l : ℕ} {p : ℕ} {failcyc : ℕ} {fails : ℕ} {ff : ℕ} {ch : ℕ} {failed : Bool} {sat : Bool} {tag : ℕ}
    {epoch : ℕ} (hs : Canonical s) :
    Canonical (s.putPeer l p failcyc fails ff ch failed sat tag epoch) :=
  have hs := hs.wrP.wrP.wrP
  hs.wrs

theorem Canonical.sendPeers {s : State} {g : Fin 32} (hs : Canonical s) : Canonical (s.sendPeers g) := by
  unfold State.sendPeers
  dsimp only
  split
  · exact
      have hs := hs.foldl fun _ _ hs => hs.queueBulk
      hs.putPeer
  · exact hs

theorem execCaptureDrain_canonical {g : Fin 32} {s : State} (hs : Canonical s) : CanonicalNext (execCaptureDrain g s) :=
  .ite (.of_next hs) (have hs := hs.endVisit.endMap.endGran
  have hs := hs.capWrite
  have hs := hs.modGrove
  have hs := hs.wr.event
  .of_next hs.occurrence.sendPeers)

theorem Canonical.modStream {s : State} {t : Fin 32} {f : Stream → Stream} (hs : Canonical s) : Canonical (s.modStream t f) :=
  hs.update

theorem Canonical.strmDiscard {s : State} {t : Fin 32} (hs : Canonical s) : Canonical (s.strmDiscard t) :=
  .ite hs (have hs := hs.modStream
  have hs := hs.incWrap.noteStream
  have hs := hs.mirrorNow
  .ite hs hs.event)

theorem Canonical.reportBurst {s : State} {b : Burst} (hs : Canonical s) : Canonical (s.reportBurst b) :=
  have hs := hs.foldl fun _ _ hs => have hs := Canonical.ite hs.strmDiscard hs
  hs.modThread.wr
  have hs := hs.update
  hs.dropRetired.evaluate

theorem execOutcomeRecordWrite_canonical {tag : ℕ} {epoch : ℕ} {s : State} (hs : Canonical s) :
    CanonicalNext (execOutcomeRecordWrite tag epoch s) := by
  unfold execOutcomeRecordWrite
  dsimp only
  split
  · exact .of_next hs
  · exact
      .ite (.of_next hs) (have hs := hs.canopyPuts
      have hs := hs.foldl fun _ _ hs => hs.occurrence
      .of_next hs.complete.reportBurst)

theorem execStructureStaged_canonical {s : State} (hs : Canonical s) : CanonicalNext (execStructureStaged s) :=
  .ite (.of_next hs) (.of_next (hs.withCanopy (putCells_wf hs.canopy)).wr)

theorem Canonical.structFail {s : State} {f : Flaw} (hs : Canonical s) : Canonical (s.structFail f) := by
  unfold State.structFail
  dsimp only
  split
  · exact hs.noteFlaw.wr.update.unaskPark.complete
  · exact hs.noteFlaw.wr.update.unaskPark

theorem Canonical.dropCodeMoves {s : State} (hs : Canonical s) : Canonical s.dropCodeMoves :=
  hs.update.unaskPark

theorem execStructureValidated_canonical {s : State} (hs : Canonical s) : CanonicalNext (execStructureValidated s) := by
  unfold execStructureValidated
  dsimp only
  refine .ite ?_ ?_
  · exact .of_next hs
  · split
    · exact .of_next hs.structFail
    · exact
        have hs := hs.update.wr
        .of_next hs.abandonMoves.dropCodeMoves.evacCheck

theorem execDryRunPlacementDone_canonical {s : State} (hs : Canonical s) : CanonicalNext (execDryRunPlacementDone s) := by
  refine .ite (.of_next hs) (hs.onStore fun s hs => ?_)
  dsimp only
  split
  · exact .of_next hs.structFail
  · split
    · exact .of_next hs.wr.structFail
    · exact .of_next hs.wr.askPark

theorem Canonical.coppicesOff {s : State} {l : List ℕ} (hs : Canonical s) : Canonical (s.coppicesOff l) :=
  hs.foldl fun _ _ hs => hs.foldl fun _ _ hs => hs.modChan

theorem execQuiesceComplete_canonical {s : State} (hs : Canonical s) : CanonicalNext (execQuiesceComplete s) :=
  .ite (.of_next hs) (hs.onStore fun _ hs => .of_next hs.update.wr.coppicesOff)

theorem Canonical.parkTimeout {s : State} (hs : Canonical s) : Canonical s.parkTimeout :=
  .ite hs (have hs := hs.update
  have hs := hs.foldl fun _ _ hs => hs.codeBusy
  hs.unaskPark.evacCheck)

theorem execParkTimeout_canonical {s : State} (hs : Canonical s) : CanonicalNext (execParkTimeout s) :=
  have hs := hs.parkTimeout
  .ite (.of_next hs.codeBusy.structFail) (.of_next hs)

theorem Canonical.put32 {s : State} {b : Blk} {x2 : ℕ} {v : ℕ} (hs : Canonical s) : Canonical (s.put32 b x2 v) :=
  hs.setWord

theorem Canonical.showStructure {s : State} {p : Sections} (hs : Canonical s) : Canonical (s.showStructure p) :=
  have hs := hs.foldl fun _ _ hs => hs.put32
  have hs := (hs.foldl fun _ _ hs => hs.put32.put32).put32
  have hs := (hs.foldl fun _ _ hs => hs.put32.put32).wr
  have hs := hs.foldl fun _ _ hs => hs.put32
  have hs := hs.foldl fun _ _ hs => hs.put32.put32
  hs.foldl fun _ _ hs => hs.put32

theorem Canonical.dropForPlan {s : State} {x1 : RegionPlan} (hs : Canonical s) : Canonical (s.dropForPlan x1) :=
  have hs := hs.abandonMoves
  hs.update.unaskPark

theorem Canonical.completeRecord {s : State} {e : Fin 4} (hs : Canonical s) : Canonical (s.completeRecord e) := by
  unfold State.completeRecord
  dsimp only
  split
  · exact hs
  · exact
      have hs := hs.writeRecord
      have hs := hs.modTrg.setUnread.event
      .ite hs.trgFull (.ite hs.trgOff hs.wr)

theorem Canonical.trgDisarm {s : State} {e : Fin 4} (hs : Canonical s) : Canonical (s.trgDisarm e) :=
  have hs := Canonical.ite hs.cutRecord.completeRecord hs
  hs.trgOff

theorem Canonical.tmuDisarm {s : State} {u : Fin 32} (hs : Canonical s) : Canonical (s.tmuDisarm u) :=
  .ite hs.closeGate hs.tmuOff

theorem Canonical.disarmChanged {s : State} {old : Sections} {new : Sections} (hs : Canonical s) :
    Canonical (s.disarmChanged old new) :=
  have hs := hs.foldl fun _ _ hs => .ite hs.trgDisarm hs
  hs.foldl fun _ _ hs => .ite hs.tmuDisarm hs

theorem Canonical.applyStructure {s : State} {old : Sections} {new : Sections} (hs : Canonical s) :
    Canonical (s.applyStructure old new) :=
  have hs := hs.foldl fun _ _ hs => hs.wrs
  have hs := hs.foldl fun _ _ hs => .ite hs (have hs := hs.wrs
  have hs := hs.foldl fun _ _ hs => hs.wrs
  hs.modDsc)
  have hs := hs.foldl fun _ _ hs => .ite hs hs.wrs
  (hs.foldl fun _ _ hs => hs.wr).noteHeartbeat

theorem Canonical.setTierMem {s : State} {t : Tier} {m : Mem} (hs : Canonical s) (hm : Mem.wf m = true) : Canonical (s.setTierMem t m) :=
  .ite (hs.withSdram hm) (hs.withCanopy hm)

theorem Canonical.tierMem {s : State} {t : Tier} (hs : Canonical s) : Mem.wf (s.tierMem t) = true := by
  unfold State.tierMem
  split
  · exact hs.sdram
  · exact hs.canopy

theorem Canonical.rehomeSeg {s : State} {x : Seg} {pay : List (ℕ × Byte)} {ins : List (ℕ × Byte)} (hs : Canonical s) :
    Canonical (s.rehomeSeg x pay ins) := by
  unfold State.rehomeSeg
  extract_lets bytes out tier add s1 hold
  clear_value tier
  have h1 : Canonical s1 := by
    dsimp only [s1]
    split
    · exact hs.takePages
    · exact hs
  split
  · exact
      have h3 := h1.takePages.update
      have h3 := Canonical.ite (h3.setTierMem (copyCells_wf h3.tierMem)) h3
      have h3 := h3.withCanopy (putStream_wf h3.canopy)
      .ite h3.event h3
  · exact (Canonical.ite hs.zeroPages hs).update

theorem Canonical.rehome {s : State} {p : Place} {cells : List (ℕ × Byte)} (hs : Canonical s) : ∀ t ∈ s.rehome p cells, Canonical t.2 := by
  intro t ht
  obtain ⟨r, hr, rfl⟩ := Option.map_eq_some_iff.1 ht
  have hb := hs.placeBuffer r hr
  exact hb.setTierMem (copyCells_wf hb.tierMem)

theorem Canonical.rehomed {s : State} {p : Place} {cells : List (ℕ × Byte)} (hs : Canonical s) :
    Canonical (((s.rehome p cells).map (·.2)).getD s) :=
  hs.getD fun _ ht => have ⟨r, hr, hrt⟩ := Option.map_eq_some_iff.1 ht; hrt ▸ hs.rehome r hr

theorem Canonical.dropRing {s : State} {t : Fin 32} (hs : Canonical s) : Canonical (s.dropRing t) :=
  have hs := hs.elim fun _ => hs.freePlace
  hs.modStream.wrs.noteStream

theorem Canonical.rehomeBuffers {s : State} {lost : Place → Bool} {cells : Place → List (ℕ × Byte)} (hs : Canonical s) :
    Canonical (s.rehomeBuffers lost cells) := by
  unfold State.rehomeBuffers
  dsimp only
  refine ((((hs.foldl fun s g hs => ?_).foldl fun s e hs => ?_).foldl fun s u hs => ?_).foldl fun s t hs => ?_).foldl fun s t hs => ?_
  · refine hs.foldl fun s i hs => ?_
    split
    · refine .ite ?_ hs
      split
      · next h => exact .ite (hs.rehome _ h).modGrove.wrs (hs.rehome _ h).modGrove
      · exact hs.modGrove
    · exact hs
  · split
    · exact .ite hs.rehomed.update.modTrg.wrs hs
    · exact hs
  · split
    · exact .ite hs.rehomed.update.modTmu.wrs hs
    · exact hs
  · refine .ite (.wr (.update ?_)) hs
    split
    · exact hs.takePages.withCanopy (copyCells_wf hs.canopy)
    · exact hs
  · exact .ite hs.dropRing hs

theorem Canonical.applyPlan {s : State} {a : RegionPlan} (hs : Canonical s) : Canonical (s.applyPlan a) :=
  have hs := (hs.foldl fun _ _ hs => hs.clearStream).zeroPages
  have hc := Mem.wf_foldl (fun _ _ hm => copyCells_wf hm) (copyCells_wf hs.canopy)
  have hs := (hs.mems hc hs.sdram hs.flash hs.host).foldl fun _ _ hs => hs.rehomeSeg
  have hs := hs.rehomeBuffers.foldl fun _ _ hs => .ite hs.modCore hs
  hs.resumeCores

/-! ## Operations and commands: structure, segments, streams, symbols and timing -/

theorem Canonical.noteAgreed {s : State} (hs : Canonical s) : Canonical s.noteAgreed :=
  have hs := hs.foldl fun _ _ hs => hs.wr
  hs.wr

theorem Canonical.sendDescs {s : State} {n : Fin 8} (hs : Canonical s) : Canonical (s.sendDescs n) :=
  have hs := hs.modLane
  hs.update.foldl fun _ _ hs => hs.queueToken

theorem Canonical.exchange {s : State} {old : List ℕ} (hs : Canonical s) : Canonical (s.exchange old) :=
  have hs := hs.update
  (hs.foldl fun _ _ hs => hs.sendDescs).noteAgreed

theorem Canonical.completeOpt {s : State} {cmd : Option Hdr} {st : ℕ} (hs : Canonical s) :
    Canonical (match cmd with | some h => s.complete h st | none => s) := by
  split
  · exact hs.complete
  · exact hs

theorem execStructureSwap_canonical {s : State} (hs : Canonical s) : CanonicalNext (execStructureSwap s) := by
  refine .ite (.of_next hs) (hs.onStore fun s hs => ?_)
  dsimp only
  split
  · exact .of_next hs.structFail
  · exact .of_next
      (have hs := hs.disarmChanged.dropForPlan.showStructure.applyPlan.applyStructure.coppicesOff.update.wrs
      have hs := (hs.foldl fun _ _ hs => hs.wr).foldl fun _ _ hs => hs.wr
      hs.extendMr.incWrap.event.exchange.completeOpt)

theorem execStructureScrub_canonical {upset : Option ℕ} {s : State} (hs : Canonical s) : CanonicalNext (execStructureScrub upset s) :=
  .of_next hs.update.useStore

theorem Canonical.retire {s : State} (hs : Canonical s) : Canonical s.retire :=
  hs.incWrap

theorem Canonical.pwFault {s : State} {r : Pwf} (hs : Canonical s) : Canonical (s.pwFault r) :=
  have hs := hs.incWrap
  .ite hs.update.raise hs.incSat.raise

theorem Canonical.coreTrap {s : State} {c : Fin 8} {cause : ℕ} {tval : ℕ} (hs : Canonical s) : Canonical (s.coreTrap c cause tval) :=
  hs.modCore

theorem Canonical.regWrite {s : State} {r : Req} {addr : ℕ} {w : Word} {apply : State → State} (hs : Canonical s)
    (hact : ∀ s, Canonical s → Canonical (apply s)) : Canonical (s.regWrite r addr w apply) := by
  unfold State.regWrite
  split
  · exact .ite (hact _ hs).retire hs.pwFault
  · exact .ite hs.coreTrap (hact _ hs)
  · exact .ite (hact _ hs) hs

theorem Canonical.symWrite {s : State} {c : Fin 128} {ts : ℕ} {code : ℕ} {hi : Bool} {w : ℕ} (hs : Canonical s) :
    Canonical (s.symWrite c ts code hi w) :=
  .ite hs.incSat.raise (have hs := Canonical.ite hs.wr hs.wr
  hs.wr)

theorem execSymMapWrite_canonical {req : Req} {ch : Fin 128} {ts : Fin 32} {code : Fin 16} {hi : Bool} {w : Word} {s : State}
    (hs : Canonical s) :
    CanonicalNext (execSymMapWrite req ch ts code hi w s) :=
  .of_next (hs.regWrite fun _ hs => hs.symWrite)

theorem execSymScrub_canonical {hit : Option (Fin 128 × Fin 32 × Fin 16)} {s : State} (hs : Canonical s) :
    CanonicalNext (execSymScrub hit s) := by
  unfold execSymScrub
  split
  · exact .of_next hs.parityError
  · exact .of_next hs

theorem Canonical.holdLow {s : State} {r : Req} {lo : ℕ} {w : Word} (hs : Canonical s) : Canonical (s.holdLow r lo w) :=
  hs.update

theorem Canonical.tmgDrop {s : State} {bits : ℕ} (hs : Canonical s) : Canonical (s.tmgDrop bits) :=
  hs.incSat.raise

theorem Canonical.periodLo {s : State} {r : Req} {g : Fin 32} {ts : Fin 32} {w : Word} (hs : Canonical s) :
    Canonical (s.periodLo r g ts w) :=
  .ite hs.holdLow hs.tmgDrop

theorem execTmgPeriodLoWrite_canonical {req : Req} {g : Fin 32} {ts : Fin 32} {w : Word} {s : State} (hs : Canonical s) :
    CanonicalNext (execTmgPeriodLoWrite req g ts w s) :=
  .of_next (hs.regWrite fun _ hs => hs.periodLo)

theorem Canonical.takeHeld {s : State} {r : Req} {lo : ℕ} {inForce : ℕ} (hs : Canonical s) :
    Canonical (s.takeHeld r lo inForce).2 := by
  unfold State.takeHeld
  split
  · exact hs.update
  · exact hs

theorem Canonical.periodHi {s : State} {r : Req} {g : Fin 32} {ts : Fin 32} {w : Word} (hs : Canonical s) :
    Canonical (s.periodHi r g ts w) :=
  .ite hs.takeHeld.tmgDrop hs.takeHeld.wr.wr

theorem execTmgPeriodHiWrite_canonical {req : Req} {g : Fin 32} {ts : Fin 32} {w : Word} {s : State} (hs : Canonical s) :
    CanonicalNext (execTmgPeriodHiWrite req g ts w s) :=
  .of_next (hs.regWrite fun _ hs => hs.periodHi)

theorem Canonical.entryPar {s : State} {base : ℕ} (hs : Canonical s) : Canonical (s.entryPar base) :=
  hs.wr

theorem Canonical.tableWrite {s : State} {addr : ℕ} {w : ℕ} (hs : Canonical s) : Canonical (s.tableWrite addr w) :=
  .ite hs (.ite (.ite hs (.ite hs.wr.entryPar hs.tmgDrop)) (.ite (.ite (.ite hs.wr hs.tmgDrop) hs) (.ite (.ite (.ite hs.wr.wr hs.tmgDrop) hs) hs)))

theorem execTimingTableWrite_canonical {req : Req} {addr : ℕ} {w : Word} {s : State} (hs : Canonical s) :
    CanonicalNext (execTimingTableWrite req addr w s) :=
  .of_next (hs.regWrite fun _ hs => hs.tableWrite)

theorem Canonical.modDelay {s : State} {w : ℕ} (hs : Canonical s) : Canonical (s.modDelay w) :=
  .ite hs.wr hs.tmgDrop

theorem execTmgModDelayWrite_canonical {req : Req} {w : Word} {s : State} (hs : Canonical s) :
    CanonicalNext (execTmgModDelayWrite req w s) :=
  .of_next (hs.regWrite fun _ hs => hs.modDelay)

theorem execTmgScrub_canonical {hit : ParityHit} {s : State} (hs : Canonical s) : CanonicalNext (execTmgScrub hit s) :=
  .of_next hs.parityError

theorem Canonical.pecCmd {s : State} {b : Fin 16} {w : ℕ} (hs : Canonical s) : Canonical (s.pecCmd b w) :=
  .ite hs.wr (have hs := hs.wrs
  .ite hs (.ite hs.wr hs.update.wr))

theorem execPecGo_canonical {req : Req} {b : Fin 16} {w : Word} {s : State} (hs : Canonical s) : CanonicalNext (execPecGo req b w s) :=
  .of_next (hs.regWrite fun _ hs => hs.pecCmd)

theorem execPecTransactionDone_canonical {b : Fin 16} {rx : ℕ} {s : State} (hs : Canonical s) :
    CanonicalNext (execPecTransactionDone b rx s) :=
  .ite (have hs := hs.wrP
  have hs := hs.update
  .of_next hs.incWrap.wrs) (.of_next hs)

theorem Canonical.startEvent {s : State} {b : Burst} {slot : ℕ} (hs : Canonical s) : Canonical (s.startEvent b slot) :=
  .ite hs.modBurst hs.chooseSlot

theorem Canonical.epoch {s : State} {bits : ℕ} (hs : Canonical s) : Canonical (s.epoch bits) :=
  have hs := hs.update
  have hs := hs.incWrap.raise
  hs.foldl fun _ _ hs => .ite hs.startEvent hs

theorem execSyncEpochReceive_canonical {s : State} (hs : Canonical s) : CanonicalNext (execSyncEpochReceive s) :=
  .ite (.of_next hs.epoch) (.of_next hs)

theorem execSyncEpochDrive_canonical {s : State} (hs : Canonical s) : CanonicalNext (execSyncEpochDrive s) :=
  .ite (.of_next hs.update.epoch) (.of_next hs)

theorem execTrigInEdge_canonical {n : Fin 4} {rising : Bool} {sub : Fin 4} {s : State} (hs : Canonical s) :
    CanonicalNext (execTrigInEdge n rising sub s) :=
  have hs := hs.update
  .ite (.of_next (hs.foldl fun _ _ hs => .ite hs.qualEvent hs)) (.of_next hs)

theorem Canonical.placeRing {s : State} {t : Fin 32} {n : ℕ} (hs : Canonical s) : Canonical (s.placeRing t n) := by
  unfold State.placeRing
  dsimp only
  split
  · exact hs.event
  · exact
      have hs := hs.takePages
      have hs := hs.modStream
      hs.wrs.noteStream

theorem Canonical.strmCfg {s : State} {t : Fin 32} {w : ℕ} (hs : Canonical s) : Canonical (s.strmCfg t w) :=
  .ite hs.event (have hs := hs.dropRing
  have hs := hs.wrs
  .ite hs hs.placeRing)

theorem execHqStrmCfgWrite_canonical {req : Req} {t : Fin 32} {w : Word} {s : State} (hs : Canonical s) :
    CanonicalNext (execHqStrmCfgWrite req t w s) :=
  .of_next (hs.regWrite fun _ hs => hs.strmCfg)

theorem Canonical.strmPut {s : State} {t : Fin 32} {n : ℕ} (hs : Canonical s) : Canonical (s.strmPut t n) :=
  have hs := hs.modStream.noteStream
  .ite hs.event hs

theorem execHqStrmPut_canonical {req : Req} {t : Fin 32} {w : Word} {s : State} (hs : Canonical s) :
    CanonicalNext (execHqStrmPut req t w s) :=
  .of_next (hs.regWrite fun _ hs => hs.strmPut)

theorem Canonical.strmAnnounce {s : State} {t : Fin 32} {seg : ℕ} {gen : ℕ} (hs : Canonical s) :
    Canonical (s.strmAnnounce t seg gen) :=
  .ite hs.staleSeg (.ite hs.event hs.modStream.noteStream)

theorem execHqStrmAnnounce_canonical {req : Req} {t : Fin 32} {w : Word} {s : State} (hs : Canonical s) :
    CanonicalNext (execHqStrmAnnounce req t w s) :=
  .of_next (hs.regWrite fun _ hs => hs.strmAnnounce)

theorem execSegmentCopyDone_canonical {seg gen : ℕ} {s : State} (hs : Canonical s) : CanonicalNext (execSegmentCopyDone seg gen s) := by
  unfold execSegmentCopyDone
  split
  · exact .of_next (.ite hs hs.staleSeg)
  · exact .ite (.of_next hs)
      (have hs := hs.setTierMem (putCells_wf hs.tierMem)
      have hs := (hs.withCanopy (putStream_wf hs.canopy)).modLoad
      .ite (.of_next hs.modLoad) (.of_next hs.makeCurrent.evaluate))

theorem execMoveCopyDone_canonical {seg gen : ℕ} {s : State} (hs : Canonical s) : CanonicalNext (execMoveCopyDone seg gen s) := by
  unfold execMoveCopyDone
  split
  · exact .of_next hs.staleSeg
  · exact .ite (.of_next hs)
      (have hs := Canonical.ite (hs.setTierMem (copyCells_wf hs.tierMem)) hs
      have hs := Canonical.ite hs (hs.withCanopy (putStream_wf hs.canopy))
      .of_next hs.update)
  · exact .of_next hs

theorem execMoveSwitch_canonical {seg : ℕ} {gen : ℕ} {s : State} (hs : Canonical s) : CanonicalNext (execMoveSwitch seg gen s) := by
  unfold execMoveSwitch
  dsimp only
  split
  · exact
      .ite (.of_next hs) (have hs := hs.modSeg
      have hs := Canonical.ite hs.zeroPages hs
      have hs := Canonical.ite hs hs.clearStream
      have hs := hs.update
      have hs := hs.event
      have hs := Canonical.ite hs.event hs
      .of_next hs.evacCheck)
  · exact .of_next hs

theorem Canonical.parkCore {s : State} {c : Fin 8} (hs : Canonical s) : Canonical (s.parkCore c) :=
  .ite hs hs.wr.incWrap

theorem execCorePark_canonical {c : Fin 8} {s : State} (hs : Canonical s) : CanonicalNext (execCorePark c s) :=
  .of_next hs.parkCore

theorem execCodePageMove_canonical {s : State} (hs : Canonical s) : CanonicalNext (execCodePageMove s) := by
  unfold execCodePageMove
  dsimp only
  split
  · exact .of_next hs
  · exact
      .ite (.of_next hs) (have hs := (hs.withCanopy (copyCells_wf hs.canopy)).zeroPages
      have hs := hs.update
      have hs := hs.foldl fun _ _ hs => .ite hs.modCore hs
      .of_next hs.event.resumeCores.evacCheck)

theorem execForQueryWrite_canonical {req : Req} {w : Word} {s : State} (hs : Canonical s) :
    CanonicalNext (execForQueryWrite req w s) :=
  .of_next (hs.regWrite fun _ hs => hs.update)

theorem Canonical.sdramSplit {s : State} {gib : ℕ} (hs : Canonical s) : Canonical (s.sdramSplit gib) :=
  .ite hs.event hs.wr

theorem execForSdramSplitWrite_canonical {req : Req} {w : Word} {s : State} (hs : Canonical s) :
    CanonicalNext (execForSdramSplitWrite req w s) :=
  .of_next (hs.regWrite fun _ hs => hs.sdramSplit)

theorem Canonical.capDrop {s : State} (hs : Canonical s) : Canonical s.capDrop :=
  hs.incSat.event

theorem Canonical.chmask {s : State} {i : ℕ} {w : ℕ} (hs : Canonical s) : Canonical (s.chmask i w) :=
  have hs' := hs.wr
  .ite hs' hs'.capDrop

theorem execCapChmaskWrite_canonical {req : Req} {i : Fin 4} {w : Word} {s : State} (hs : Canonical s) :
    CanonicalNext (execCapChmaskWrite req i w s) :=
  .of_next (hs.regWrite fun _ hs => hs.chmask)

theorem Canonical.snapCmd {s : State} {w : ℕ} (hs : Canonical s) : Canonical (s.snapCmd w) :=
  have hs := hs.wrs
  .ite hs.snapRequest hs

theorem execCapSnapCmd_canonical {req : Req} {w : Word} {s : State} (hs : Canonical s) : CanonicalNext (execCapSnapCmd req w s) :=
  .of_next (hs.regWrite fun _ hs => hs.snapCmd)

theorem Canonical.copyFabric {s : State} {id : ℕ} (hs : Canonical s) : Canonical (s.copyFabric id) :=
  hs.update

theorem execSnapshotTimePoint_canonical {s : State} (hs : Canonical s) : CanonicalNext (execSnapshotTimePoint s) := by
  unfold execSnapshotTimePoint
  dsimp only
  split
  · exact .of_next hs
  · exact
      have hs := hs.copyFabric.foldl fun _ _ hs => hs.copyShadow.snapTell
      .of_next hs.snapSettle

theorem execTrgArm_canonical {e : Fin 4} {s : State} (hs : Canonical s) : CanonicalNext (execTrgArm e s) :=
  .of_next hs.trgArm

theorem execTrgDisarm_canonical {e : Fin 4} {s : State} (hs : Canonical s) : CanonicalNext (execTrgDisarm e s) :=
  .of_next hs.trgDisarm

theorem Canonical.trigger {s : State} {e : Fin 4} {cause : ℕ} {point : ℕ} (hs : Canonical s) : Canonical (s.trigger e cause point) :=
  have hs := hs.trgFire
  .ite hs.trgChain hs

theorem Canonical.trgForce {s : State} {e : Fin 4} (hs : Canonical s) : Canonical (s.trgForce e) := by
  unfold State.trgForce
  split
  · exact .ite hs hs.trigger
  · exact hs.trigger

/-! ## Operations and commands: trigger engines, units and calibration tables -/

theorem execTrgForce_canonical {e : Fin 4} {s : State} (hs : Canonical s) : CanonicalNext (execTrgForce e s) :=
  .of_next hs.trgForce

theorem Canonical.fineOf {s : State} {unit : Fin 36} {code : ℕ} (hs : Canonical s) : Canonical (s.fineOf unit code).2 :=
  .ite_snd hs.takeFree hs

theorem Canonical.matchFire {s : State} {e : Fin 4} {point : ℕ} (hs : Canonical s) : Canonical (s.matchFire e point) := by
  unfold State.matchFire
  dsimp only
  split
  · exact .ite hs.modTrg hs.trigger
  · exact hs.trigger

theorem Canonical.judge {s : State} {e : Fin 4} {cond : Bool} {level : Bool} {point : ℕ} (hs : Canonical s) :
    Canonical (s.judge e cond level point) :=
  have hs := hs.modTrg
  .ite hs.matchFire hs

theorem Canonical.takeSample {s : State} {e : Fin 4} {x : TrgSamp} (hs : Canonical s) : Canonical (s.takeSample e x) := by
  unfold State.takeSample
  dsimp only
  split
  · exact (Canonical.ite hs.incSat.event hs).modTrg
  · exact .ite (Canonical.ite hs.incSat.event hs).modTrg (.ite (Canonical.ite hs.incSat.event hs).modTrg.writeRecord (.ite hs.incSat.event hs))
  · exact .ite hs.incSat.event hs

theorem Canonical.rawTicks {s : State} {e : Fin 4} {kind : ℕ} {l : List (ℕ × ℕ)} {late : Bool} (hs : Canonical s) :
    Canonical (s.rawTicks e kind l late) :=
  have hs := hs.foldl fun _ _ hs => have hs := hs.fineOf.modTrg
  hs.judge
  hs.takeSample

theorem Canonical.fedSample {s : State} {e : Fin 4} {f : TrgFeed} {late : Bool} (hs : Canonical s) : Canonical (s.fedSample e f late) :=
  have hs := hs.modTrg
  .ite (.ite hs.cutRecord hs)
    (have hj := Canonical.ite hs.qualEvent hs
    have hj := Canonical.ite hj hj.judge
    have hs := Canonical.ite hj hs
    .ite hs hs.takeSample)

theorem execTrgSample_canonical {e : Fin 4} {ticks : List (ℕ × ℕ)} {late : Bool} {s : State} (hs : Canonical s) :
    CanonicalNext (execTrgSample e ticks late s) := by
  unfold execTrgSample
  dsimp only
  refine .ite ?_ ?_
  · exact .of_next hs
  · refine .ite ?_ ?_
    · exact .ite (.of_next hs.rawTicks) (.of_next hs)
    · split
      · exact .of_next hs.fedSample
      · exact .of_next hs

theorem execTrgRecordComplete_canonical {e : Fin 4} {s : State} (hs : Canonical s) : CanonicalNext (execTrgRecordComplete e s) :=
  .of_next (.ite hs.completeRecord hs)

theorem execTrgHoldoffExpiry_canonical {e : Fin 4} {s : State} (hs : Canonical s) : CanonicalNext (execTrgHoldoffExpiry e s) :=
  .of_next (.ite hs.trgWait hs)

theorem execTrgTimeoutExpiry_canonical {e : Fin 4} {s : State} (hs : Canonical s) : CanonicalNext (execTrgTimeoutExpiry e s) :=
  .of_next (.ite hs.trigger hs)

theorem execTrgRead_canonical {e : Fin 4} {n : ℕ} {s : State} (hs : Canonical s) : CanonicalNext (execTrgRead e n s) :=
  .of_next hs.setUnread

theorem Canonical.tmuSlave {s : State} {u : Fin 32} (hs : Canonical s) : Canonical (s.tmuSlave u) := by
  unfold State.tmuSlave
  split
  · exact hs.modTmu.wr
  · exact hs

theorem Canonical.tmuStart {s : State} {u : Fin 32} (hs : Canonical s) : Canonical (s.tmuStart u) :=
  have hs := hs.modTmu.wrs.tmuSlave
  have hs := Canonical.ite (hs.getD hs.placeTmu) hs
  .ite hs.openGate hs

theorem Canonical.tmuArm {s : State} {u : Fin 32} (hs : Canonical s) : Canonical (s.tmuArm u) :=
  .ite hs (.ite hs.event (.ite hs.modTmu.wr hs.tmuStart))

theorem execTmuArm_canonical {u : Fin 32} {s : State} (hs : Canonical s) : CanonicalNext (execTmuArm u s) :=
  .of_next hs.tmuArm

theorem execTmuDisarm_canonical {u : Fin 32} {s : State} (hs : Canonical s) : CanonicalNext (execTmuDisarm u s) :=
  .of_next hs.tmuDisarm

theorem execTmuClose_canonical {u : Fin 32} {s : State} (hs : Canonical s) : CanonicalNext (execTmuClose u s) :=
  .of_next hs.closeGate

theorem Canonical.rawStamp {s : State} {unit : Fin 32} {src : ℕ} {index : ℕ} {tick : ℤ} {code : ℕ} (hs : Canonical s) :
    Canonical (s.rawStamp unit src index tick code).2 :=
  hs.fineOf

theorem Canonical.stampOf {s : State} {unit : Fin 32} {src index : ℕ} {tick : ℤ} {code : ℕ} (hs : Canonical s) :
    Canonical (s.stampOf unit src index tick code).2 :=
  Canonical.rawStamp (src := src) (index := index) (tick := tick) hs

theorem Canonical.storeStamp {s : State} {u : Fin 32} {x : Stamp} {partner : Bool} {late : Bool} (hs : Canonical s) :
    Canonical (s.storeStamp u x partner late) := by
  unfold State.storeStamp
  dsimp only
  split
  · exact hs
  · refine .ite ?_ ?_
    · exact hs
    · split
      · exact .ite hs.modTmu.incSat.raise hs.modTmu.writeRing
      · exact hs.modTmu.incSat.raise

theorem Canonical.takeEdge {s : State} {u : Fin 32} {m : Fin 32} {value : ℕ} {rising : Bool} {late : Bool} (hs : Canonical s) :
    Canonical (s.takeEdge u m value rising late) := by
  unfold State.takeEdge
  dsimp only
  split
  · exact hs
  · exact
      .ite hs (have hs := Canonical.ite hs.modTmu hs.modTmu
      .ite (have hs := hs.incSat.event
      .ite hs.modTmu hs) (.ite hs (have hs := hs.modTmu
      hs.modTmu.storeStamp)))

theorem execTmuEdge_canonical {u : Fin 32} {tick : ℕ} {code : ℕ} {rising : Bool} {late : Bool} {s : State} (hs : Canonical s) :
    CanonicalNext (execTmuEdge u tick code rising late s) := by
  unfold execTmuEdge
  dsimp only
  exact .ite (.of_next hs) (.of_next hs.stampOf.takeEdge)

theorem execTmuGateOpen_canonical {u : Fin 32} {s : State} (hs : Canonical s) : CanonicalNext (execTmuGateOpen u s) :=
  .ite (.of_next hs.openGate) (.of_next hs)

theorem execTmuGateExpiry_canonical {u : Fin 32} {s : State} (hs : Canonical s) : CanonicalNext (execTmuGateExpiry u s) := by
  unfold execTmuGateExpiry
  dsimp only
  split
  · exact .of_next hs
  · exact .of_next hs.closeGate

theorem Canonical.gateFinal {s : State} {u : Fin 32} {g : Gate} (hs : Canonical s) : Canonical (s.gateFinal u g) := by
  unfold State.gateFinal
  dsimp only
  exact
    .event (.modTmu (by
      split
      · exact .ite hs.wrs.wrP.wrP.wrP.wrP.wrP hs.wrs.wrP.wrP.wrP.wrP.wrP.writeRing.modTmu
      · exact hs.wrs.wrP.wrP.wrP.wrP.wrP))

theorem execTmuResultsFinal_canonical {u : Fin 32} {s : State} (hs : Canonical s) : CanonicalNext (execTmuResultsFinal u s) := by
  unfold execTmuResultsFinal
  split
  · exact .of_next hs.gateFinal
  · exact .of_next hs

theorem execTmuResCountRead_canonical {req : Req} {u : Fin 32} {s : State} (hs : Canonical s) :
    CanonicalNext (execTmuResCountRead req u s) :=
  .of_next hs.update.answerWith

theorem execTmuRead_canonical {u : Fin 32} {n : ℕ} {s : State} (hs : Canonical s) : CanonicalNext (execTmuRead u n s) :=
  .of_next hs.modTmu

theorem execTmuBinDataRead_canonical {_req : Req} {s : State} (hs : Canonical s) : CanonicalNext (execTmuBinDataRead _req s) :=
  .of_next hs.answerWith.wr

theorem execCodeDensityCalibration_canonical {unit : ℕ} {s : State} (hs : Canonical s) :
    CanonicalNext (execCodeDensityCalibration unit s) :=
  .ite (.of_next hs.update.wr) (.of_next hs)

theorem Canonical.noteCalTemp {s : State} {unit : ℕ} (hs : Canonical s) : Canonical (s.noteCalTemp unit) :=
  hs.update.wr

theorem Canonical.setStale {s : State} {unit : ℕ} {v : Bool} (hs : Canonical s) : Canonical (s.setStale unit v) :=
  .ite hs.wr hs.wr

theorem Canonical.countRun {s : State} {stale : Bool} (hs : Canonical s) : Canonical (s.countRun stale) :=
  hs.incWrap.raise

theorem Canonical.noteGroup {s : State} {g : Fin 7} (hs : Canonical s) : Canonical (s.noteGroup g) :=
  hs.wrs

theorem Canonical.groupMeasured {s : State} {g : Fin 7} (hs : Canonical s) : Canonical (s.groupMeasured g) :=
  hs.noteGroup.wrP.wrs.incWrap

theorem Canonical.setUnit {s : State} {g : Fin 7} {u : ℕ} {st : ℕ} (hs : Canonical s) : Canonical (s.setUnit g u st) :=
  hs.update

theorem Canonical.tmuUnhold {s : State} {u : Fin 32} (hs : Canonical s) : Canonical (s.tmuUnhold u) :=
  .ite hs.modTmu.wr.tmuArm hs

theorem execCodeDensityDone_canonical {unit : ℕ} {hits : List ℕ} {s : State} (hs : Canonical s) :
    CanonicalNext (execCodeDensityDone unit hits s) := by
  unfold execCodeDensityDone
  split
  · exact .ite (.of_next
      (have hs := hs.update.wr
      have hs := Canonical.ite hs.update.setStale.noteCalTemp hs.setStale.event
      have hs := hs.setUnit.groupMeasured.countRun.event
      (Canonical.ite hs.tmuUnhold (.ite hs.modTrg.trgArm hs)).calNext)) (.of_next hs)
  · exact .of_next hs

theorem execDriftQualified_canonical {unit : ℕ} {s : State} (hs : Canonical s) : CanonicalNext (execDriftQualified unit s) :=
  .ite (.of_next hs.update) (.of_next hs)

theorem Canonical.dscOpen {s : State} {d : Fin 16} {cause : ℕ} (hs : Canonical s) : Canonical (s.dscOpen d cause) :=
  have hs := hs.endPass.dropClosing
  have hs := hs.modDsc
  hs.wrs

theorem Canonical.requestMode {s : State} {d : Fin 16} {mode : ℕ} {discAfter : Bool} (hs : Canonical s) :
    Canonical (s.requestMode d mode discAfter) :=
  have hs := hs.wrs
  .ite hs.event (.ite (have hs := Canonical.ite hs.wr.event hs
  hs.dscOpen) hs.modDsc)

theorem execDscModeRequest_canonical {d : Fin 16} {mode : ℕ} {discAfter : Bool} {s : State} (hs : Canonical s) :
    CanonicalNext (execDscModeRequest d mode discAfter s) :=
  .of_next hs.requestMode

theorem execDscCommit_canonical {d : Fin 16} {s : State} (hs : Canonical s) : CanonicalNext (execDscCommit d s) :=
  .of_next hs.modDsc

theorem Canonical.rcBind {s : State} {d : Fin 16} {p : Fin 4} {w : Word} (hs : Canonical s) : Canonical (s.rcBind d p w) :=
  have hs := (Canonical.ite hs.endPass hs).dropClosing
  have hs := hs.wrs
  .ite hs.modDsc.wrs hs.wr

theorem execDscRcBindWrite_canonical {d : Fin 16} {p : Fin 4} {w : Word} {s : State} (hs : Canonical s) :
    CanonicalNext (execDscRcBindWrite d p w s) :=
  .of_next hs.rcBind

theorem Canonical.reportOn {s : State} {d : Fin 16} {on : ℕ} (hs : Canonical s) : Canonical (s.reportOn d on) :=
  hs.modDsc.wr

theorem Canonical.modPgn {s : State} {d : Fin 16} {f : Pgn → Pgn} (hs : Canonical s) : Canonical (s.modPgn d f) :=
  hs.modDsc

theorem Canonical.latchDuty {s : State} {d : Fin 16} {no : ℕ} {u : Bfp} (hs : Canonical s) : Canonical (s.latchDuty d no u) :=
  have hs := Canonical.ite hs.reportOn hs
  have hs := hs.modDsc
  have hs := hs.modPgn
  .ite hs.reportOn hs

theorem Canonical.convert {s : State} {d : Fin 16} {v : ℕ} {ihg : ℕ} {ilg : ℕ} {ovld : Bool} (hs : Canonical s) :
    Canonical (s.convert d v ihg ilg ovld) :=
  have hs := hs.wrs
  .ite hs.incWrap.event hs

theorem Canonical.trgLoop {s : State} {d : Fin 16} {v : ℤ} {i : ℤ} {low : Bool} {drop : Bool} (hs : Canonical s) :
    Canonical (s.trgLoop d v i low drop) :=
  hs.foldl fun _ _ hs => by
    refine .ite ?_ ?_
    · exact hs
    · exact
        have hs := Canonical.ite hs.modTrg.qualEvent hs.modTrg
        .ite hs hs.modTrg

theorem Canonical.sampleFaults {s : State} {d : Fin 16} {parity : Bool} (hs : Canonical s) : Canonical (s.sampleFaults d parity) :=
  have hs := Canonical.ite (have hs := Canonical.ite hs hs.dscOpen
  hs.event.faultOnce) hs
  .ite hs.dscOpen hs

theorem Canonical.dualOn {s : State} {i : ℕ} {forced : Bool} {mism : Bool} (hs : Canonical s) : Canonical (s.dualOn i forced mism) :=
  have hs := hs.setBit.fault
  hs.update

theorem Canonical.dualRaise {s : State} {i : ℕ} (hs : Canonical s) : Canonical (s.dualRaise i) :=
  .ite hs hs.dualOn

theorem Canonical.dualOff {s : State} {i : ℕ} (hs : Canonical s) : Canonical (s.dualOff i) :=
  have hs := hs.setBit
  hs.update

theorem Canonical.overCurrent {s : State} {d : Fin 16} {i : ℤ} (hs : Canonical s) : Canonical (s.overCurrent d i) :=
  have hs := hs.modDsc
  .ite hs.dualRaise (.ite hs.dualOff hs)

theorem Canonical.commitCoefs {s : State} {d : Fin 16} (hs : Canonical s) : Canonical (s.commitCoefs d) :=
  hs.foldl fun _ _ hs => hs.wrs

theorem Canonical.enterMode {s : State} {d : Fin 16} {mode : ℕ} {v : ℤ} (hs : Canonical s) : Canonical (s.enterMode d mode v) :=
  have hs := hs.endPass
  have hs := Canonical.ite hs.modDsc hs
  have hs := Canonical.ite hs.wrs hs.modDsc
  hs.wr

theorem Canonical.moveVset {s : State} {d : Fin 16} (hs : Canonical s) : Canonical (s.moveVset d) :=
  .ite hs.modDsc (.ite hs.modDsc hs)

theorem Canonical.passIndex {s : State} {d : Fin 16} (hs : Canonical s) : Canonical (s.passIndex d).2 := by
  unfold State.passIndex
  split
  · exact .ite_snd hs hs.modDsc.notePass
  · exact hs

/-! ## Operations and commands: supply loops and pulses -/

theorem Canonical.traceEntry {s : State} {b : Fin 16} {word : ℕ} {lost : Bool} (hs : Canonical s) :
    Canonical (s.traceEntry b word lost) := by
  unfold State.traceEntry
  dsimp only
  split
  · exact hs
  · exact
      .ite hs.incSat (have hs := hs.writePlace
      have hs := hs.update.wr
      .ite hs.wr hs)

theorem Canonical.traceSample {s : State} {d : Fin 16} {x : TraceIn} {behind : ℕ} (hs : Canonical s) :
    Canonical (s.traceSample d x behind) :=
  hs.foldl fun _ _ hs => by
    refine .ite ?_ ?_
    · exact hs
    · exact
        have hs := hs.update
        have hs := Canonical.ite hs.wr hs
        .ite hs (have hs := hs.update
        .ite hs hs.traceEntry)

theorem Canonical.traceDrop {s : State} {d : Fin 16} {low : Bool} (hs : Canonical s) : Canonical (s.traceDrop d low) :=
  hs.traceSample

theorem Canonical.soilOf {s : State} {d : Fin 16} {x : DscSamp} (hs : Canonical s) : Canonical (s.soilOf d x) :=
  hs.modDsc

theorem Canonical.dropOldest {s : State} {d : Fin 16} (hs : Canonical s) : Canonical (s.dropOldest d) := by
  unfold State.dropOldest
  dsimp only
  split
  · exact
      .ite hs (have hs := hs.modDsc
      hs.soilOf.traceDrop)
  · exact hs

theorem Canonical.startSample {s : State} {d : Fin 16} {v : ℤ} {i : ℤ} {low : Bool} {drop : Bool} (hs : Canonical s) :
    Canonical (s.startSample d v i low drop) := by
  unfold State.startSample
  dsimp only
  exact
    .ite (.passIndex (.ite (.moveVset (.ite (by
      split
      · exact (Canonical.ite hs.commitCoefs.modDsc hs).enterMode
      · exact .ite hs.commitCoefs.modDsc hs) (.modDsc (by
      split
      · exact (Canonical.ite hs.commitCoefs.modDsc hs).enterMode
      · exact .ite hs.commitCoefs.modDsc hs)))) (.endPass (.moveVset (.ite (by
      split
      · exact (Canonical.ite hs.commitCoefs.modDsc hs).enterMode
      · exact .ite hs.commitCoefs.modDsc hs) (.modDsc (by
      split
      · exact (Canonical.ite hs.commitCoefs.modDsc hs).enterMode
      · exact .ite hs.commitCoefs.modDsc hs))))))) (.ite (.soilPass (.passIndex (.ite (.moveVset (.ite (by
      split
      · exact (Canonical.ite hs.commitCoefs.modDsc hs).enterMode
      · exact .ite hs.commitCoefs.modDsc hs) (.modDsc (by
      split
      · exact (Canonical.ite hs.commitCoefs.modDsc hs).enterMode
      · exact .ite hs.commitCoefs.modDsc hs)))) (.endPass (.moveVset (.ite (by
      split
      · exact (Canonical.ite hs.commitCoefs.modDsc hs).enterMode
      · exact .ite hs.commitCoefs.modDsc hs) (.modDsc (by
      split
      · exact (Canonical.ite hs.commitCoefs.modDsc hs).enterMode
      · exact .ite hs.commitCoefs.modDsc hs)))))))) (.modDsc (.dropOldest (.passIndex (.ite (.moveVset (.ite (by
      split
      · exact (Canonical.ite hs.commitCoefs.modDsc hs).enterMode
      · exact .ite hs.commitCoefs.modDsc hs) (.modDsc (by
      split
      · exact (Canonical.ite hs.commitCoefs.modDsc hs).enterMode
      · exact .ite hs.commitCoefs.modDsc hs)))) (.endPass (.moveVset (.ite (by
      split
      · exact (Canonical.ite hs.commitCoefs.modDsc hs).enterMode
      · exact .ite hs.commitCoefs.modDsc hs) (.modDsc (by
      split
      · exact (Canonical.ite hs.commitCoefs.modDsc hs).enterMode
      · exact .ite hs.commitCoefs.modDsc hs))))))))))

theorem Canonical.loopSample {s : State} {d : Fin 16} {v : ℕ} {ihg : ℕ} {ilg : ℕ} {ovld : Bool} {parity : Bool} {dropped : Bool}
    (hs : Canonical s) :
    Canonical (s.loopSample d v ihg ilg ovld parity dropped) := by
  unfold State.loopSample
  dsimp only
  exact
    .ite (.traceDrop (.modDsc (.ite (.ite (.sampleFaults (.trgLoop (.ite (.modPgn (by
      split
      · exact .ite hs hs.latchDuty
      · exact hs)) (.convert (.modPgn (by
      split
      · exact .ite hs hs.latchDuty
      · exact hs)))))) (.overCurrent (.sampleFaults (.trgLoop (.ite (.modPgn (by
      split
      · exact .ite hs hs.latchDuty
      · exact hs)) (.convert (.modPgn (by
      split
      · exact .ite hs hs.latchDuty
      · exact hs)))))))) (.startSample (.ite (.sampleFaults (.trgLoop (.ite (.modPgn (by
      split
      · exact .ite hs hs.latchDuty
      · exact hs)) (.convert (.modPgn (by
      split
      · exact .ite hs hs.latchDuty
      · exact hs)))))) (.overCurrent (.sampleFaults (.trgLoop (.ite (.modPgn (by
      split
      · exact .ite hs hs.latchDuty
      · exact hs)) (.convert (.modPgn (by
      split
      · exact .ite hs hs.latchDuty
      · exact hs)))))))))))) (.ite (.traceSample (.modDsc (.modDsc (.ite (.ite (.sampleFaults (.trgLoop (.ite (.modPgn (by
      split
      · exact .ite hs hs.latchDuty
      · exact hs)) (.convert (.modPgn (by
      split
      · exact .ite hs hs.latchDuty
      · exact hs)))))) (.overCurrent (.sampleFaults (.trgLoop (.ite (.modPgn (by
      split
      · exact .ite hs hs.latchDuty
      · exact hs)) (.convert (.modPgn (by
      split
      · exact .ite hs hs.latchDuty
      · exact hs)))))))) (.startSample (.ite (.sampleFaults (.trgLoop (.ite (.modPgn (by
      split
      · exact .ite hs hs.latchDuty
      · exact hs)) (.convert (.modPgn (by
      split
      · exact .ite hs hs.latchDuty
      · exact hs)))))) (.overCurrent (.sampleFaults (.trgLoop (.ite (.modPgn (by
      split
      · exact .ite hs hs.latchDuty
      · exact hs)) (.convert (.modPgn (by
      split
      · exact .ite hs hs.latchDuty
      · exact hs))))))))))))) (.modDsc (.ite (.ite (.sampleFaults (.trgLoop (.ite (.modPgn (by
      split
      · exact .ite hs hs.latchDuty
      · exact hs)) (.convert (.modPgn (by
      split
      · exact .ite hs hs.latchDuty
      · exact hs)))))) (.overCurrent (.sampleFaults (.trgLoop (.ite (.modPgn (by
      split
      · exact .ite hs hs.latchDuty
      · exact hs)) (.convert (.modPgn (by
      split
      · exact .ite hs hs.latchDuty
      · exact hs)))))))) (.startSample (.ite (.sampleFaults (.trgLoop (.ite (.modPgn (by
      split
      · exact .ite hs hs.latchDuty
      · exact hs)) (.convert (.modPgn (by
      split
      · exact .ite hs hs.latchDuty
      · exact hs)))))) (.overCurrent (.sampleFaults (.trgLoop (.ite (.modPgn (by
      split
      · exact .ite hs hs.latchDuty
      · exact hs)) (.convert (.modPgn (by
      split
      · exact .ite hs hs.latchDuty
      · exact hs))))))))))))

theorem execLoopSample_canonical {d : Fin 16} {v : ℕ} {ihg : ℕ} {ilg : ℕ} {ovld : Bool} {parityError : Bool} {dropped : Bool}
    {s : State} (hs : Canonical s) :
    CanonicalNext (execLoopSample d v ihg ilg ovld parityError dropped s) :=
  .of_next (.ite hs.loopSample hs)

theorem Canonical.tuneStart {s : State} {d : Fin 16} {x : DscSamp} {old : ℕ} (hs : Canonical s) : Canonical (s.tuneStart d x old) :=
  hs.modDsc

theorem Canonical.learn {s : State} {d : Fin 16} {x : DscSamp} {ev : Bfp} {gov : Bool} (hs : Canonical s) :
    Canonical (s.learn d x ev gov) := by
  unfold State.learn
  dsimp only
  split
  · exact hs
  · exact hs.modDsc

theorem Canonical.rampEnd {s : State} {d : Fin 16} {x : DscSamp} (hs : Canonical s) : Canonical (s.rampEnd d x).1 :=
  .ite_fst (.ite_fst hs (.ite_fst hs.dscOpen hs.wr)) hs

theorem Canonical.lawEnd {s : State} {d : Fin 16} {x : DscSamp} {l : Law} {r : Selected} {bits : ℕ} {late : Bool} {behind : ℕ}
    (hs : Canonical s) :
    Canonical (s.lawEnd d x l r bits late behind) :=
  have hs := hs.modDsc
  have hs := hs.wrs
  have hs := hs.learn
  have hs := Canonical.ite hs.incSat.soilOf.modDsc hs.modDsc
  have hs := hs.rampEnd.raise
  hs.traceSample

theorem Canonical.putCoef {s : State} {d : Fin 16} {c : ℕ} {x : Bfp} {active : Bool} (hs : Canonical s) :
    Canonical (s.putCoef d c x active) :=
  .ite hs.wrs hs.wrs

theorem Canonical.applyTune {s : State} {d : Fin 16} {cur : Bool} (hs : Canonical s) : Canonical (s.applyTune d cur) :=
  hs.foldl fun _ _ hs => hs.putCoef.putCoef

theorem Canonical.tuneGain {s : State} {t : AutoTune} {x2 : ℚ} (hs : Canonical s) : Canonical (s.tuneGain t x2).2 :=
  .ite_snd hs.takeFree hs

theorem Canonical.putBfp {s : State} {m : Fld} {e : Fld} {x : Bfp} (hs : Canonical s) : Canonical (s.putBfp m e x) :=
  hs.wrs

theorem Canonical.tuneDone {s : State} {d : Fin 16} {t : AutoTune} {cur : Bool} (hs : Canonical s) :
    Canonical (s.tuneDone d t cur).1 := by
  unfold State.tuneDone
  dsimp only
  exact
    have hs := hs.tuneGain.putBfp
    have hs := hs.wrs
    have hs := hs.foldl fun _ _ hs => hs.putBfp
    hs

theorem Canonical.tuneStep {s : State} {d : Fin 16} {t : AutoTune} {r : Relay} {x : DscSamp} {limited : Bool} (hs : Canonical s) :
    Canonical (s.tuneStep d t r x limited).1 :=
  have hs := Canonical.ite hs.incSat hs
  .ite_fst hs.tuneDone.modDsc (.ite_fst hs.wr.modDsc (.ite_fst hs.wr.modDsc hs.modDsc))

theorem Canonical.lawStep {s : State} {d : Fin 16} {x : DscSamp} {late : Bool} {behind : ℕ} (hs : Canonical s) :
    Canonical (s.lawStep d x late behind) := by
  unfold State.lawStep
  dsimp only
  split
  · exact
      .lawEnd (by
        split
        · exact .ite hs.tuneStart hs
        · exact hs)
  · exact
      .ite (.lawEnd (.ite (.applyTune (.ite (.wr (.wr (.modDsc (by
        split
        · exact .ite hs.tuneStart hs
        · exact hs)))) (.wr (.modDsc (by
        split
        · exact .ite hs.tuneStart hs
        · exact hs))))) (.ite (.wr (.wr (.modDsc (by
        split
        · exact .ite hs.tuneStart hs
        · exact hs)))) (.wr (.modDsc (by
        split
        · exact .ite hs.tuneStart hs
        · exact hs)))))) (.lawEnd (.tuneStep (by
        split
        · exact .ite hs.tuneStart hs
        · exact hs)))

theorem execLoopComputeDone_canonical {d : Fin 16} {behind : ℕ} {s : State} (hs : Canonical s) :
    CanonicalNext (execLoopComputeDone d behind s) := by
  unfold execLoopComputeDone
  dsimp only
  split
  · exact .of_next hs
  · exact
      have hs := hs.modDsc
      .of_next hs.lawStep

theorem Canonical.dscDeliver {s : State} {d : Fin 16} {m : Marker} (hs : Canonical s) : Canonical (s.dscDeliver d m) := by
  unfold State.dscDeliver
  dsimp only
  split
  · exact hs.modDsc
  · split
    · exact .ite hs.modDsc.acceptPass hs.modDsc
    · exact hs.modDsc

theorem execDscMarkerDelivery_canonical {t : Fin 32} {seg : ℕ} {gen : ℕ} {word : ℕ} {depth : ℕ} {s : State} (hs : Canonical s) :
    CanonicalNext (execDscMarkerDelivery t seg gen word depth s) :=
  .ite (.of_next hs.staleSeg) (.of_next (hs.foldl fun _ _ hs => hs.dscDeliver))

theorem execRcPassComplete_canonical {d : Fin 16} {p : Fin 4} {s : State} (hs : Canonical s) :
    CanonicalNext (execRcPassComplete d p s) := by
  unfold execRcPassComplete
  split
  · exact .of_next hs.modDsc.settlePass
  · split
    · exact .of_next (.ite hs.endPass hs)
    · exact .of_next hs

theorem execDscScrub_canonical {hit : Option (Fin 16)} {s : State} (hs : Canonical s) : CanonicalNext (execDscScrub hit s) := by
  unfold execDscScrub
  split
  · exact .of_next hs.sampleFaults
  · exact .of_next hs

theorem Canonical.traceCtrl {s : State} {b : Fin 16} {en : Bool} (hs : Canonical s) : Canonical (s.traceCtrl b en) := by
  unfold State.traceCtrl
  dsimp only
  refine .ite ?_ ?_
  · split
    · exact
        have hs := (hs.wr.update.elim fun _ => hs.wr.update.freePlace).update
        hs.wrs
    · exact (hs.wr.update.elim fun _ => hs.wr.update.freePlace).wr.event
  · exact hs.wr.wr

theorem execTrcCtrlWrite_canonical {req : Req} {b : Fin 16} {w : Word} {s : State} (hs : Canonical s) :
    CanonicalNext (execTrcCtrlWrite req b w s) :=
  .of_next (hs.regWrite fun _ hs => hs.traceCtrl)

theorem Canonical.endRamp {s : State} {d : Fin 16} {outcome : ℕ} {us : ℕ} (hs : Canonical s) : Canonical (s.endRamp d outcome us) :=
  .ite (have hs := hs.dscOpen
  hs.update) hs

theorem execDscFltLLow_canonical {d : Fin 16} {s : State} (hs : Canonical s) : CanonicalNext (execDscFltLLow d s) :=
  have hs := hs.wr
  .ite (have hs := hs.modPgn
  have hs := Canonical.ite hs.modPgn.reportOn hs
  have hs := hs.event.faultOnce
  .of_next hs.endRamp) (.of_next hs)

theorem Canonical.noteCut {s : State} {d : Fin 16} {pcc : Bool} {window : Bool} (hs : Canonical s) :
    Canonical (s.noteCut d pcc window) :=
  have hs := Canonical.ite hs.incWrap hs
  have hs := Canonical.ite hs.incWrap hs
  have hs := hs.raise
  hs.modPgn.soilPass

theorem Canonical.cutPulse {s : State} {d : Fin 16} {step : ℕ} {pcc : Bool} {window : Bool} (hs : Canonical s) :
    Canonical (s.cutPulse d step pcc window) :=
  .ite hs.modPgn.noteCut.reportOn hs

theorem Canonical.pccCut {s : State} {d : Fin 16} {step : ℕ} (hs : Canonical s) : Canonical (s.pccCut d step) :=
  have hs := hs.cutPulse
  .ite hs.dualRaise hs

theorem Canonical.blankEnd {s : State} {d : Fin 16} (hs : Canonical s) : Canonical (s.blankEnd d) :=
  .ite hs.modPgn.pccCut hs

theorem Canonical.periodOn {s : State} {d : Fin 16} (hs : Canonical s) : Canonical (s.periodOn d).2 :=
  .ite_snd hs (.ite_snd hs (.ite_snd hs.takeFree hs))

theorem Canonical.periodStart {s : State} {d : Fin 16} (hs : Canonical s) : Canonical (s.periodStart d) :=
  have hs := hs.blankEnd
  have hs := hs.wrs
  have hs := hs.modPgn
  have hs := Canonical.ite hs.modPgn hs
  have hs := hs.periodOn.modPgn.reportOn
  .ite hs (.ite hs.noteCut (.ite hs.modPgn (.ite hs.noteCut hs)))

theorem execSwitchingPeriodStart_canonical {d : Fin 16} {s : State} (hs : Canonical s) :
    CanonicalNext (execSwitchingPeriodStart d s) :=
  .of_next (.ite hs.periodStart hs)

theorem execPccTrip_canonical {d : Fin 16} {step : ℕ} {s : State} (hs : Canonical s) : CanonicalNext (execPccTrip d step s) :=
  have hs := hs.wr
  .of_next (.ite hs.modPgn hs.pccCut)

theorem execWindowHighTrip_canonical {d : Fin 16} {step : ℕ} {s : State} (hs : Canonical s) :
    CanonicalNext (execWindowHighTrip d step s) :=
  .of_next hs.wr.cutPulse

theorem execWindowLowTrip_canonical {d : Fin 16} {_step : ℕ} {s : State} (hs : Canonical s) :
    CanonicalNext (execWindowLowTrip d _step s) :=
  have hs := hs.wr
  .of_next (.ite hs.noteCut hs)

theorem execOvpTrip_canonical {d : Fin 16} {step : ℕ} {s : State} (hs : Canonical s) : CanonicalNext (execOvpTrip d step s) :=
  .of_next hs.wr.cutPulse

theorem execDscOverVoltage_canonical {d : Fin 16} {s : State} (hs : Canonical s) : CanonicalNext (execDscOverVoltage d s) :=
  .of_next (.ite hs.dualRaise hs)

theorem Canonical.cmpGo {s : State} {d : Fin 16} (hs : Canonical s) : Canonical (s.cmpGo d) :=
  .ite hs (.ite hs.wr hs.wrs.event)

theorem execCmpStGo_canonical {d : Fin 16} {s : State} (hs : Canonical s) : CanonicalNext (execCmpStGo d s) :=
  .of_next hs.cmpGo

theorem execCmpSelfCheckDone_canonical {d : Fin 16} {fails : ℕ} {s : State} (hs : Canonical s) :
    CanonicalNext (execCmpSelfCheckDone d fails s) :=
  .ite (have hs := hs.wrs.event
  .of_next (.ite hs hs.faultOnce)) (.of_next hs)

theorem execResidualWatchTick_canonical {seen : ℕ} {s : State} (hs : Canonical s) : CanonicalNext (execResidualWatchTick seen s) :=
  .ite (.of_next (hs.foldl fun _ _ hs => hs.wr).wr) (.of_next hs)

theorem Canonical.newCommit {s : State} {c : Fin 8} (hs : Canonical s) : Canonical (s.newCommit c) :=
  have hs := hs.commitTask.wr.wr
  hs.answerWith

theorem execSchNewCommit_canonical {c : Fin 8} {s : State} (hs : Canonical s) : CanonicalNext (execSchNewCommit c s) :=
  .of_next hs.newCommit

theorem Canonical.kick {s : State} {c : Fin 8} (hs : Canonical s) : Canonical (s.kick c) :=
  hs.modCore

theorem Canonical.takeLoad {s : State} {c : Fin 8} (hs : Canonical s) : Canonical (s.takeLoad c) :=
  have hs := hs.update.kick
  hs.modCore

theorem execSchTake_canonical {c : Fin 8} {s : State} (hs : Canonical s) : CanonicalNext (execSchTake c s) :=
  .of_next hs.takeLoad

theorem Canonical.taskParity {s : State} {t : Task} {scrub : Bool} (hs : Canonical s) : Canonical (s.taskParity t scrub) :=
  have hs := hs.update
  have hs := hs.wrs
  hs.raiseSch.faultOnce

theorem Canonical.latch {s : State} {r : Req} {x2 : ℕ} {w : Word} (hs : Canonical s) : Canonical (s.latch r x2 w) :=
  hs.update

theorem Canonical.bindTask {s : State} {c : Fin 8} {t : Task} (hs : Canonical s) : Canonical (s.bindTask c t) :=
  have hs := hs.update.kick
  have hs := hs.modCore
  have hs := hs.wr.wr
  have hs := hs.wrP
  have hs := hs.foldl fun _ _ hs => hs.wrP
  hs.latch.answerWith

theorem execTaskDispatch_canonical {c : Fin 8} {parityError : Bool} {s : State} (hs : Canonical s) :
    CanonicalNext (execTaskDispatch c parityError s) := by
  unfold execTaskDispatch
  split
  · exact .ite (.of_next hs) (.of_next (.ite hs.taskParity hs.bindTask))
  · exact .of_next hs

theorem Canonical.opResult {s : State} {c : Fin 8} {op : ℕ} {res : ℕ} (hs : Canonical s) : Canonical (s.opResult c op res) :=
  hs.wr.wr

theorem Canonical.portDone {s : State} {c : Fin 8} {w : ℕ} (hs : Canonical s) : Canonical (s.portDone c w) := by
  unfold State.portDone
  split
  · exact hs.staleOp.opResult
  · exact .ite hs.update.opResult hs.incSat.opResult

theorem execSchDone_canonical {c : Fin 8} {w : Word} {s : State} (hs : Canonical s) : CanonicalNext (execSchDone c w s) :=
  .of_next hs.portDone

theorem Canonical.portFill {s : State} {c : Fin 8} {w : ℕ} (hs : Canonical s) : Canonical (s.portFill c w) :=
  hs.fillTask.opResult

theorem execSchFill_canonical {c : Fin 8} {w : Word} {s : State} (hs : Canonical s) : CanonicalNext (execSchFill c w s) :=
  .of_next hs.portFill

theorem Canonical.portCancel {s : State} {c : Fin 8} {w : ℕ} (hs : Canonical s) : Canonical (s.portCancel c w) :=
  hs.cancelTask.opResult

theorem execSchCancel_canonical {c : Fin 8} {w : Word} {s : State} (hs : Canonical s) : CanonicalNext (execSchCancel c w s) :=
  .of_next hs.portCancel

/-! ## Operations and commands: register reads and writes, updates -/

theorem execSchKick_canonical {c : Fin 8} {s : State} (hs : Canonical s) : CanonicalNext (execSchKick c s) :=
  .of_next hs.kick

theorem execSchWdogWrite_canonical {c : Fin 8} {w : Word} {s : State} (hs : Canonical s) : CanonicalNext (execSchWdogWrite c w s) :=
  .of_next hs.wr.kick

theorem execWatchdogExpiry_canonical {c : Fin 8} {s : State} (hs : Canonical s) : CanonicalNext (execWatchdogExpiry c s) :=
  .ite (.of_next hs) (have hs := hs.modCore
  .of_next hs.nmi.raiseSch.faultOnce)

theorem execMachineTimerPending_canonical {c : Fin 8} {s : State} (hs : Canonical s) : CanonicalNext (execMachineTimerPending c s) :=
  .of_next hs.modCore

theorem execSchScrub_canonical {bad : Option ℕ} {s : State} (hs : Canonical s) : CanonicalNext (execSchScrub bad s) := by
  unfold execSchScrub
  split
  · exact .of_next hs
  · exact .of_next hs.taskParity

theorem Canonical.clearRc {s : State} {x1 : ℕ} (hs : Canonical s) : Canonical (s.clearRc x1) := by
  unfold State.clearRc
  split
  · exact hs
  · exact hs.foldl fun _ _ hs => hs.wr

theorem Canonical.readWord {s : State} {r : Req} {x2 : ℕ} (hs : Canonical s) : Canonical (s.readWord r x2).2 := by
  unfold State.readWord
  dsimp only
  refine .ite_snd ?_ ?_
  · exact hs
  · split
    · exact hs
    · exact hs
    · exact
        .ite_snd (have hs' := hs.latch
        .ite hs'.latch hs') (.ite_snd hs.update (.ite_snd hs.wr (.ite_snd hs.wr (.ite_snd hs.takeFree hs.clearRc))))

theorem Canonical.readWords {s : State} {r : Req} {x2 : ℕ} {words : ℕ} (hs : Canonical s) : Canonical (s.readWords r x2 words).2 :=
  .ite_snd hs.readWord hs.readWord.readWord

theorem Canonical.readBy {s : State} {r : Req} {x2 : ℕ} {words : ℕ} (hs : Canonical s) : Canonical (s.readBy r x2 words) := by
  unfold State.readBy
  dsimp only
  split
  · exact .ite hs.takeLoad (.ite hs.newCommit hs.readWords.answerWith)
  · exact hs.readWords.answerWith

theorem Canonical.writeEnable {s : State} {r : EvReg} {v : ℕ} (hs : Canonical s) : Canonical (s.writeEnable r v) :=
  hs.wr.raised

theorem Canonical.dropped {s : State} {a : ℕ} (hs : Canonical s) : ∀ t ∈ s.dropped a, Canonical t :=
  forall_ite (forall_ite (forall_some hs.wr) forall_none) <|
  forall_ite (forall_ite forall_none (forall_some hs.capDrop)) <|
  forall_ite (forall_ite forall_none (forall_some hs)) <|
  forall_ite (forall_ite forall_none (forall_some hs.event)) <|
  forall_ite (forall_ite forall_none (forall_some hs.event)) <|
  forall_ite (forall_ite forall_none (forall_some hs.event)) <|
  forall_ite (forall_ite (forall_some hs) forall_none) <|
  forall_ite (forall_ite (forall_some hs) forall_none) <|
  forall_ite (forall_ite forall_none (forall_some hs)) <|
  forall_ite (forall_ite forall_none (forall_some hs)) forall_none

theorem Canonical.timStep {s : State} {v : ℕ} (hs : Canonical s) : Canonical (s.timStep v) :=
  .ite hs.wr.event (.ite hs.wr.event hs.update.wr.event)

theorem Canonical.storePair {s : State} {lo : ℕ} {v : ℕ} (hs : Canonical s) : Canonical (s.storePair lo v) :=
  .ite hs.timStep (.ite hs.wrP (.ite hs.wrP (.ite hs.wrP.modCore (.ite hs.wrP.modTrg hs.wrP))))

theorem Canonical.noteClip {s : State} {clipped : Bool} (hs : Canonical s) : Canonical (s.noteClip clipped) :=
  .ite hs.incSat.event hs

theorem Canonical.bootConfirm {s : State} {w : ℕ} (hs : Canonical s) : Canonical (s.bootConfirm w) :=
  hs.foldl fun _ _ hs => .ite (have hs := hs.wr
  hs.update) hs

theorem Canonical.updEnd {s : State} {state : ℕ} {result : ℕ} {detail : ℕ} (hs : Canonical s) :
    Canonical (s.updEnd state result detail) :=
  have hs := hs.wrs
  hs.update.event

theorem Canonical.flashErase {s : State} {x1 : ℕ} {n : ℕ} (hs : Canonical s) : Canonical (s.flashErase x1 n) :=
  hs.withFlash (Mem.wf_clear _ _ _ hs.flash)

theorem Canonical.updStart {s : State} {op : ℕ} {kind : ℕ} {srcOk : Bool} {len : ℕ} {img : Option (List Byte)} (hs : Canonical s) :
    Canonical (s.updStart op kind srcOk len img) :=
  .ite hs.wr.event
    (have hs := hs.wr
    .ite hs.updEnd (.ite hs.updEnd (.ite (.ite hs.updEnd (.ite hs.updEnd (.ite hs.updEnd hs.wr.update.flashErase)))
      (.ite (.ite hs.wr.update hs.updEnd) (.ite hs.updEnd (.ite hs.updEnd hs.wr.update.update))))))

theorem Canonical.updGo {s : State} {op : ℕ} {kind : ℕ} {host : Option (List Byte)} (hs : Canonical s) :
    Canonical (s.updGo op kind host) :=
  have hs := hs.wrs
  hs.updStart

theorem Canonical.plainStore {s : State} {x1 : ℕ} {w : ℕ} (hs : Canonical s) : Canonical (s.plainStore x1 w) := by
  unfold State.plainStore
  dsimp only
  split
  · exact hs
  · exact
      hs.foldl fun _ _ hs => by
        split
        · exact hs.wr
        · exact .ite hs hs.wr
        · exact hs.wr
        · exact hs.wr
        · exact hs
        · exact hs
        · exact hs

theorem Canonical.storeGlb {s : State} {x1 : ℕ} {w : ℕ} (hs : Canonical s) : Canonical (s.storeGlb x1 w) :=
  .ite hs.bootConfirm (.ite (have hs := hs.wr
  .ite hs.takeFree.updGo hs.wrs) hs.plainStore)

theorem Canonical.storeTrgCtrl {s : State} {e : Fin 4} {x2 : ℕ} {w : ℕ} (hs : Canonical s) : Canonical (s.storeTrgCtrl e x2 w) :=
  have hs := hs.plainStore
  have hs := Canonical.ite hs.trgArm hs
  have hs := Canonical.ite hs.trgDisarm hs
  .ite hs.trgForce hs

theorem Canonical.storeTmuCtrl {s : State} {u : Fin 32} {x2 : ℕ} {w : ℕ} (hs : Canonical s) : Canonical (s.storeTmuCtrl u x2 w) :=
  have hs := Canonical.ite hs.plainStore (.ite hs.event hs)
  have hs := Canonical.ite hs.tmuArm hs
  have hs := Canonical.ite hs.tmuDisarm hs
  .ite hs.closeGate hs

theorem Canonical.storeDsc {s : State} {x1 : ℕ} {w : Word} (hs : Canonical s) : Canonical (s.storeDsc x1 w) :=
  .ite (.ite (have hs := hs.requestMode
  .ite hs.modDsc hs) (.ite hs.wr (.ite hs.rcBind hs.plainStore))) (.ite hs.traceCtrl hs.plainStore)

theorem Canonical.storeDt {s : State} {d : Fin 16} {x2 : ℕ} {w : ℕ} (hs : Canonical s) : Canonical (s.storeDt d x2 w) :=
  have hs := hs.plainStore
  hs.wr

theorem Canonical.storePort {s : State} {c : Fin 8} {x2 : ℕ} {w : ℕ} (hs : Canonical s) : Canonical (s.storePort c x2 w) := by
  unfold State.storePort
  dsimp only
  split
  · exact hs.portDone
  · exact hs.portFill
  · exact hs.portCancel
  · exact
      have hs := hs.plainStore
      .ite hs.modCore hs
  · exact hs.wr.kick
  · exact hs.kick
  · exact hs.plainStore

theorem Canonical.modQueue {s : State} {r : Fin 16} {f : QueuePair → QueuePair} (hs : Canonical s) : Canonical (s.modQueue r f) :=
  hs.update

theorem Canonical.sqCfg {s : State} {r : Fin 16} {w : ℕ} (hs : Canonical s) : Canonical (s.sqCfg r w) :=
  .ite (.ite hs hs.wr) (.ite hs.wr (have hs := hs.wr
  .ite hs.modQueue.wrs hs))

theorem Canonical.queueError {s : State} {r : Fin 16} {code : ℕ} (hs : Canonical s) : Canonical (s.queueError r code) :=
  have hs := hs.modQueue.wrs
  hs.event

theorem Canonical.sqTail {s : State} {r : Fin 16} {tail : ℕ} (hs : Canonical s) : Canonical (s.sqTail r tail) :=
  .ite hs (.ite hs.queueError hs.modQueue)

theorem Canonical.cqCfg {s : State} {r : Fin 16} {w : ℕ} (hs : Canonical s) : Canonical (s.cqCfg r w) :=
  .ite (.ite hs.wr (.ite hs.wr hs.wrs)) (have hs := hs.wrs
  .ite hs.modQueue.wrs hs)

theorem Canonical.cqHead {s : State} {r : Fin 16} {head : ℕ} (hs : Canonical s) : Canonical (s.cqHead r head) :=
  have hs := hs.modQueue
  .ite hs.modQueue hs

theorem Canonical.sendPending {s : State} (hs : Canonical s) : Canonical s.sendPending :=
  hs.foldl fun _ _ hs => .ite hs.update.signal hs

theorem Canonical.storeHq {s : State} {x1 : ℕ} {w : ℕ} (hs : Canonical s) : Canonical (s.storeHq x1 w) := by
  unfold State.storeHq
  dsimp only
  refine .ite ?_ ?_
  · exact hs.update
  · refine .ite ?_ ?_
    · exact .ite hs.update hs
    · refine .ite ?_ ?_
      · split
        · exact hs.sqCfg
        · exact hs.sqTail
        · exact hs.cqCfg
        · exact hs.cqHead
        · exact hs.plainStore
      · refine .ite ?_ ?_
        · exact hs.wr.sendPending
        · refine .ite ?_ ?_
          · split
            · exact hs.strmCfg
            · exact hs.strmAnnounce
            · exact hs.strmPut
            · exact hs.plainStore
          · exact hs.plainStore

theorem Canonical.setLanes {s : State} {n : Fin 8} {st : ℕ} (hs : Canonical s) : Canonical (s.setLanes n st) :=
  have hs := hs.foldl fun _ _ hs => hs.wr
  hs.wrs

theorem Canonical.train {s : State} {n : Fin 8} (hs : Canonical s) : Canonical (s.train n) :=
  have hs := hs.foldl fun _ _ hs => have hs := hs.update
  hs.modLane.queueToken.sendDescs.wrs
  have hs := hs.modLane
  hs.setLanes.noteAgreed

theorem Canonical.bringUp {s : State} {n : Fin 8} (hs : Canonical s) : Canonical (s.bringUp n) :=
  hs.modLane.train

theorem Canonical.startLanes {s : State} (hs : Canonical s) : Canonical s.startLanes :=
  .ite hs (hs.foldl fun _ _ hs => .ite hs.bringUp hs)

theorem Canonical.loseGrove {s : State} {g : Fin 32} (hs : Canonical s) : Canonical (s.loseGrove g) := by
  unfold State.loseGrove
  dsimp only
  split
  · exact hs
  · exact .ite hs.endBeforeStart (.ite hs.modThread.checkEnd hs)

theorem Canonical.tokenLoss {s : State} {n : Fin 8} {l : Fin 8} (hs : Canonical s) : Canonical (s.tokenLoss n l) :=
  .ite hs.loseGrove.incSat.event.faultOnce hs

theorem Canonical.holdover {s : State} {on : Bool} (hs : Canonical s) : Canonical (s.holdover on) :=
  .ite hs.wr.event (.ite hs.wr.event hs)

theorem Canonical.laneDownHold {s : State} {lane : Fin 8} (hs : Canonical s) : Canonical (s.laneDownHold lane) :=
  .ite hs.holdover hs

theorem Canonical.laneOff {s : State} {n : Fin 8} (hs : Canonical s) : Canonical (s.laneOff n) :=
  have hs := hs.foldl fun _ _ hs => hs.tokenLoss
  have hs := Canonical.ite (hs.foldl fun _ _ hs => hs.laneDownHold) hs
  have hs := hs.update
  hs.setLanes.noteAgreed

theorem Canonical.mflCfg {s : State} {w : ℕ} (hs : Canonical s) : Canonical (s.mflCfg w) :=
  have hs := Canonical.ite hs.wr hs
  have hs := Canonical.ite (.ite hs hs.wr) (have hs := hs.wrs
  hs.foldl fun _ _ hs => hs.wrs)
  have hs := hs.wr
  (hs.foldl fun _ _ hs => .ite hs.laneOff hs).startLanes

theorem Canonical.retrain {s : State} {n : Fin 8} (hs : Canonical s) : Canonical (s.retrain n) :=
  .ite (have hs := hs.foldl fun _ _ hs => hs.tokenLoss
  have hs := hs.foldl fun _ _ hs => hs.laneDownHold
  hs.train.incWrap.event) hs

theorem Canonical.msgSend {s : State} {n : Fin 8} (hs : Canonical s) : Canonical (s.msgSend n) :=
  .ite hs (.ite hs.event hs.queueBulk.wr)

theorem Canonical.noteMsgs {s : State} {m : Fin 8} (hs : Canonical s) : Canonical (s.noteMsgs m) :=
  have hs := hs.wr
  hs.foldl fun _ _ hs => hs.wr

theorem Canonical.msgPop {s : State} {n : Fin 8} (hs : Canonical s) : Canonical (s.msgPop n) :=
  .ite hs hs.modLane.noteMsgs

theorem Canonical.storeMfl {s : State} {x1 : ℕ} {w : ℕ} (hs : Canonical s) : Canonical (s.storeMfl x1 w) :=
  .ite hs.mflCfg (.ite (.ite (have hs := hs.plainStore
  .ite hs.retrain hs) (.ite (.ite hs.plainStore hs) (.ite (.ite hs.msgSend hs) (.ite (.ite hs.msgPop hs) hs.plainStore)))) hs.plainStore)

theorem Canonical.timCtrl {s : State} {w : ℕ} (hs : Canonical s) : Canonical (s.timCtrl w) :=
  hs.wrs.holdover

theorem Canonical.timRate {s : State} {w : ℕ} (hs : Canonical s) : Canonical (s.timRate w) :=
  have hs := hs.wr
  hs.update

theorem Canonical.noteTxts {s : State} (hs : Canonical s) : Canonical s.noteTxts := by
  unfold State.noteTxts
  split
  · exact hs.wrs.wrP
  · exact hs.wrs.wrP

theorem Canonical.txtsPop {s : State} (hs : Canonical s) : Canonical s.txtsPop :=
  hs.update.noteTxts

theorem Canonical.dmcInit {s : State} (hs : Canonical s) : Canonical s.dmcInit :=
  .ite hs (.ite hs.wrs.event.faultOnce hs.wr)

theorem Canonical.dmcRetrain {s : State} (hs : Canonical s) : Canonical s.dmcRetrain :=
  .ite hs.update.wrs hs.event

theorem Canonical.tryReturn {s : State} (hs : Canonical s) : Canonical s.tryReturn :=
  .ite hs.update.wr hs

theorem Canonical.clkCtrl {s : State} {w : ℕ} (hs : Canonical s) : Canonical (s.clkCtrl w) :=
  have hs := hs.wrs
  have hs := Canonical.ite hs.update hs
  hs.tryReturn

theorem Canonical.clkout {s : State} {w : ℕ} (hs : Canonical s) : Canonical (s.clkout w) :=
  have hs := hs.wrs
  have hs := hs.update
  .ite hs.event hs

theorem Canonical.dualMismatch {s : State} {i : ℕ} {forced : Bool} (hs : Canonical s) : Canonical (s.dualMismatch i forced) :=
  hs.setBit.dualOn

theorem Canonical.forceChange {s : State} {before : List ℕ} (hs : Canonical s) : Canonical (s.forceChange before) :=
  have hs := hs.foldl fun _ _ hs => .ite (.ite hs.dualMismatch hs.dualOn) hs.fault
  hs.foldl fun _ _ hs => hs.dualOff

/-! ## Operations and commands: host queues, windows and lanes -/

theorem Canonical.storeFlt {s : State} {x1 : ℕ} {w : ℕ} (hs : Canonical s) : Canonical (s.storeFlt x1 w) :=
  .ite hs.plainStore.forceChange (.ite (have hs := hs.plainStore
  (Canonical.ite hs.wrs hs).noteHeartbeat) hs.plainStore)

theorem Canonical.storeTmg {s : State} {r : Req} {x2 : ℕ} {w : Word} (hs : Canonical s) : Canonical (s.storeTmg r x2 w) :=
  .ite (.ite hs.periodLo (.ite hs.periodHi hs)) (.ite hs.modDelay (.ite hs.plainStore hs.tableWrite))

theorem Canonical.storeSym {s : State} {x1 : ℕ} {w : ℕ} (hs : Canonical s) : Canonical (s.storeSym x1 w) :=
  .ite hs.symWrite (.ite hs.pecCmd hs.plainStore)

theorem Canonical.storeOp {s : State} {r : Req} {x2 : ℕ} {w : Word} (hs : Canonical s) : Canonical (s.storeOp r x2 w) := by
  unfold State.storeOp
  dsimp only
  split
  · exact hs.storeGlb
  · exact .ite hs.update (.ite hs.sdramSplit (.ite (.ite hs.parkCore hs) hs.plainStore))
  · exact .ite hs.snapCmd (.ite hs.chmask hs.plainStore)
  · exact .ite hs.storeTrgCtrl (.ite hs.setUnread hs.plainStore)
  · exact .ite hs.storeTmuCtrl (.ite hs.modTmu hs.plainStore)
  · exact hs.storeDsc
  · exact .ite (.ite hs.cmpGo hs) (.ite hs.storeDt hs.plainStore)
  · split
    · exact .ite hs.storePort hs
    · exact hs.plainStore
  · exact hs.storeHq
  · exact hs.storeMfl
  · exact .ite hs.timCtrl (.ite hs.timRate (.ite (.ite hs.txtsPop hs) hs.plainStore))
  · exact
      .ite (have hs := hs.wr
      have hs := Canonical.ite hs.dmcInit hs
      .ite hs.dmcRetrain hs) hs.plainStore
  · exact .ite hs.clkCtrl (.ite hs.clkout hs.plainStore)
  · exact hs.storeFlt
  · exact hs.storeTmg
  · exact hs.storeSym
  · exact hs.plainStore
  · exact hs.plainStore
  · exact hs.plainStore
  · exact hs.plainStore
  · exact hs.plainStore
  · exact hs.plainStore

theorem Canonical.storeWord {s : State} {r : Req} {x2 : ℕ} {w : Word} (hs : Canonical s) : Canonical (s.storeWord r x2 w) := by
  unfold State.storeWord
  dsimp only
  refine .ite ?_ ?_
  · exact hs
  · split
    · exact hs.writeEnable
    · split
      · next _ h =>
          exact hs.dropped _ h
      · exact .ite hs (.ite hs.holdLow (.ite hs.takeHeld.storePair hs.storeOp.noteClip))

theorem Canonical.storeAll {s : State} {r : Req} {l : List (ℕ × Word)} (hs : Canonical s) : Canonical (s.storeAll r l) :=
  hs.foldl fun _ _ hs => hs.storeWord

theorem Canonical.writeWords {s : State} {r : Req} {x2 : ℕ} {l : List Word} (hs : Canonical s) : Canonical (s.writeWords r x2 l) := by
  unfold State.writeWords
  dsimp only
  refine .ite ?_ ?_
  · split
    · exact hs.storeAll.retire
    · exact hs.storeAll
  · split
    · exact hs.pwFault
    · exact hs.coreTrap
    · exact hs

theorem Canonical.coreAccess {s : State} {c : Fin 8} {kind : CoreAccess} {user : Bool} {addr : ℕ} {bytes : ℕ} {data : ℕ}
    (hs : Canonical s) :
    Canonical (s.coreAccess c kind user addr bytes data) := by
  unfold State.coreAccess
  dsimp only
  refine .ite ?_ ?_
  · refine .ite ?_ ?_
    · exact hs.coreTrap
    · split
      · exact hs.readBy
      · exact hs.writeWords
      · exact hs.coreTrap
      · exact hs.coreTrap
  · exact
      .ite (.ite (have hs := Canonical.ite hs.canopyPuts hs
      have hs := Canonical.ite hs.modCore hs
      .ite hs.answerWith hs) hs.coreTrap) (.ite (.ite hs.coreTrap (have hs := Canonical.ite hs.sdramPuts hs
      .ite hs.answerWith hs)) hs.coreTrap)

theorem execCoreMemoryAccess_canonical {c : Fin 8} {kind : CoreAccess} {user : Bool} {addr : ℕ} {bytes : ℕ} {data : ℕ} {s : State}
    (hs : Canonical s) :
    CanonicalNext (execCoreMemoryAccess c kind user addr bytes data s) :=
  .of_next hs.coreAccess

theorem execSqTailDoorbell_canonical {r : Fin 16} {tail : ℕ} {s : State} (hs : Canonical s) :
    CanonicalNext (execSqTailDoorbell r tail s) :=
  .of_next hs.sqTail.retire

theorem Canonical.accept {s : State} {r : Fin 16} {e : List Byte} (hs : Canonical s) : Canonical (s.accept r e) := by
  unfold State.accept
  dsimp only
  refine .ite ?_ ?_
  · exact hs.complete.event
  · split
    · exact hs.update
    · exact hs.update.update.complete

theorem execCommandFetch_canonical {r : Fin 16} {e : Entry} {s : State} (hs : Canonical s) :
    CanonicalNext (execCommandFetch r e s) := by
  unfold execCommandFetch
  dsimp only
  refine .ite ?_ ?_
  · exact .of_next hs
  · split
    · exact .of_next hs.event.queueError
    · exact
        .ite (.of_next hs) (have hs := hs.wr
        have hs := hs.update
        .of_next hs.accept)

theorem execHostReadResponse_canonical {h : Hdr} {ok : Bool} {s : State} (hs : Canonical s) :
    CanonicalNext (execHostReadResponse h ok s) := by
  unfold execHostReadResponse
  dsimp only
  refine .ite ?_ ?_
  · exact .of_next hs
  · split
    · exact .of_next hs
    · refine .ite ?_ ?_
      · exact .of_next hs
      · refine .ite ?_ ?_
        · refine .ite ?_ ?_
          · exact
              have hs := hs.event.update
              .of_next hs.wr.complete
          · split
            · exact
                .ite (.of_next hs.event) (have hs := hs.event.update
                .of_next hs.complete)
            · exact .of_next hs.event
        · exact .of_next hs.event.update.complete

theorem Canonical.settle {s : State} {c : Compl} (hs : Canonical s) : Canonical (s.settle c) :=
  hs.update

theorem Canonical.countEntry {s : State} {r : Fin 16} (hs : Canonical s) : Canonical (s.countEntry r) :=
  have hs := hs.modQueue
  .ite hs.signal hs

theorem execCompletionWrite_canonical {r : Fin 16} {ok : Bool} {s : State} (hs : Canonical s) :
    CanonicalNext (execCompletionWrite r ok s) := by
  unfold execCompletionWrite
  dsimp only
  split
  · exact .of_next hs
  · exact
      .ite (.of_next hs) (.ite (.of_next hs.settle.incSat.event) (.ite (.of_next hs) (.ite (.of_next hs.modQueue.queueError) (have hs := hs.hostPuts
      have hs := hs.wrs
      .of_next hs.settle.countEntry))))

theorem execCqHeadDoorbell_canonical {r : Fin 16} {head : ℕ} {s : State} (hs : Canonical s) :
    CanonicalNext (execCqHeadDoorbell r head s) :=
  .of_next hs.cqHead.retire

theorem execQueueCfgWrite_canonical {req : Req} {r : Fin 16} {cq : Bool} {w : Word} {s : State} (hs : Canonical s) :
    CanonicalNext (execQueueCfgWrite req r cq w s) :=
  .of_next (hs.regWrite fun _ hs => .ite hs.cqCfg hs.sqCfg)

theorem execCoalescingTimerExpiry_canonical {r : Fin 16} {s : State} (hs : Canonical s) :
    CanonicalNext (execCoalescingTimerExpiry r s) :=
  .ite (.of_next hs) (.of_next hs.signal)

theorem Canonical.resetQueueRegs {s : State} (hs : Canonical s) : Canonical s.resetQueueRegs := by
  refine .of_files (fun b => ?_) hs.canopy hs.sdram hs.flash hs.host
  cases b
  case hq => exact cellsWf_filter _ _ _ 0 (hs.files .hq)
  all_goals exact hs.files _

theorem Canonical.flr {s : State} (hs : Canonical s) : Canonical s.flr :=
  have hs := hs.resetQueueRegs
  have hs := hs.update
  hs.wrs

theorem execFunctionLevelReset_canonical {s : State} (hs : Canonical s) : CanonicalNext (execFunctionLevelReset s) :=
  .of_next hs.flr

theorem execPowerStateChange_canonical {d3hot : Bool} {s : State} (hs : Canonical s) : CanonicalNext (execPowerStateChange d3hot s) :=
  .of_next hs.update.sendPending

theorem execHqWseqRead_canonical {s : State} (hs : Canonical s) : CanonicalNext (execHqWseqRead s) :=
  .of_next hs.answerWith

theorem execHqPwfPop_canonical {s : State} (hs : Canonical s) : CanonicalNext (execHqPwfPop s) :=
  .of_next hs.update.retire

theorem Canonical.winFault {s : State} {reason : ℕ} {win : ℕ} {reqId : ℕ} {off : ℕ} {len : ℕ} {first : ℕ} {page : ℕ} (hs : Canonical s) :
    Canonical (s.winFault reason win reqId off len first page) :=
  hs.pwFault

theorem execCanopyWindowWrite_canonical {reqId : ℕ} {off : ℕ} {data : List Byte} {poisoned : Bool} {s : State} (hs : Canonical s) :
    CanonicalNext (execCanopyWindowWrite reqId off data poisoned s) := by
  unfold execCanopyWindowWrite
  dsimp only
  refine .ite ?_ ?_
  · exact .of_next hs.update.winFault
  · split
    · refine .of_next ?_
      split
      · exact (hs.withCanopy (Mem.wf_foldl (fun _ _ hm => Mem.wf_put _ _ _ hm) hs.canopy)).winFault.event
      · exact (hs.withCanopy (Mem.wf_foldl (fun _ _ hm => Mem.wf_put _ _ _ hm) hs.canopy)).winFault
    · exact .of_next (hs.withCanopy (Mem.wf_foldl (fun _ _ hm => Mem.wf_put _ _ _ hm) hs.canopy)).retire

theorem execCanopyWindowRead_canonical {off : ℕ} {len : ℕ} {s : State} (hs : Canonical s) :
    CanonicalNext (execCanopyWindowRead off len s) :=
  .of_next (Canonical.ite hs.incSat hs).answerWith

theorem execSdramWindowWrite_canonical {reqId : ℕ} {off : ℕ} {data : List Byte} {poisoned : Bool} {s : State} (hs : Canonical s) :
    CanonicalNext (execSdramWindowWrite reqId off data poisoned s) := by
  unfold execSdramWindowWrite
  dsimp only
  refine .ite ?_ ?_
  · exact .of_next hs.update.winFault
  · split
    · exact .of_next (hs.withSdram (Mem.wf_foldl (fun _ _ hm => Mem.wf_put _ _ _ hm) hs.sdram)).winFault
    · exact .of_next (hs.withSdram (Mem.wf_foldl (fun _ _ hm => Mem.wf_put _ _ _ hm) hs.sdram)).retire

theorem execSdramWindowRead_canonical {off : ℕ} {len : ℕ} {s : State} (hs : Canonical s) :
    CanonicalNext (execSdramWindowRead off len s) :=
  .of_next (Canonical.ite hs.incSat hs).answerWith

theorem Canonical.malformedWrite {s : State} {r : Req} {x2 : ℕ} {len : ℕ} (hs : Canonical s) :
    Canonical (s.malformedWrite r x2 len) := by
  unfold State.malformedWrite
  dsimp only
  split
  · exact hs.takeFree.pwFault
  · exact hs.coreTrap
  · exact hs

theorem execRegisterWrite_canonical {req : Req} {addr : ℕ} {words : List Word} {malformed : Bool} {s : State} (hs : Canonical s) :
    CanonicalNext (execRegisterWrite req addr words malformed s) :=
  .ite (.of_next hs.malformedWrite) (.of_next hs.writeWords)

theorem execPairLowRead_canonical {req : Req} {addr : ℕ} {s : State} (hs : Canonical s) : CanonicalNext (execPairLowRead req addr s) :=
  .ite (.of_next hs.readBy) (.of_next hs)

theorem execPairLowWrite_canonical {req : Req} {addr : ℕ} {w : Word} {s : State} (hs : Canonical s) :
    CanonicalNext (execPairLowWrite req addr w s) :=
  .ite (.of_next hs.writeWords) (.of_next hs)

theorem execFabLockWrite_canonical {req : Req} {w : Word} {s : State} (hs : Canonical s) : CanonicalNext (execFabLockWrite req w s) :=
  .of_next hs.writeWords

theorem Canonical.unqueue {s : State} {n : Fin 8} {t : ℕ} (hs : Canonical s) : Canonical (s.unqueue n t) :=
  hs.modLane

theorem Canonical.timeLeaves {s : State} {tok : ℕ} (hs : Canonical s) : Canonical (s.timeLeaves tok).2 :=
  .ite_snd hs hs.update

theorem Canonical.nextToken {s : State} {n : Fin 8} (hs : Canonical s) : Canonical (s.nextToken n).2 := by
  unfold State.nextToken
  dsimp only
  split
  · exact hs.unqueue
  · exact hs.update
  · exact hs.unqueue.timeLeaves
  · split
    · exact hs.modLane
    · exact hs

theorem Canonical.nextBulk {s : State} {m : Fin 8} (hs : Canonical s) : Canonical (s.nextBulk m).2 := by
  unfold State.nextBulk
  dsimp only
  split
  · exact hs.modLane
  · exact hs.modLane
  · exact
      .ite_snd hs (have hs := hs.modLane
      .ite hs.wr hs)
  · exact hs

theorem execFrameSend_canonical {lane : Fin 8} {s : State} (hs : Canonical s) : CanonicalNext (execFrameSend lane s) :=
  .ite (have hs := (Canonical.ite_snd hs.nextToken.nextBulk hs.nextToken).modLane
  have hs := Canonical.ite hs.modLane hs
  .of_next hs.modLane) (.of_next hs)

theorem Canonical.discardFrame {s : State} {n : Fin 8} (hs : Canonical s) : Canonical (s.discardFrame n) :=
  have hs := hs.modLane
  .ite hs.retrain hs

theorem Canonical.takeBulk {s : State} {m : Fin 8} {d : ℕ} {payload : List Byte} (hs : Canonical s) :
    Canonical (s.takeBulk m d payload) :=
  have hs := hs.modLane
  .ite hs.modLane (.ite hs (.ite hs.modLane (.ite hs hs.modLane)))

theorem Canonical.takeToken {s : State} {n : Fin 8} {slot : ℕ} {tok : ℕ} {at_ : ℕ} (hs : Canonical s) :
    Canonical (s.takeToken n slot tok at_) :=
  have hs := hs.modLane
  .ite hs (.ite hs.modLane (.ite hs (.ite hs.event.retrain hs.modLane)))

theorem execFrameReceive_canonical {lane : Fin 8} {slot : ℕ} {sub : Fin 4} {line : List Byte} {s : State} (hs : Canonical s) :
    CanonicalNext (execFrameReceive lane slot sub line s) :=
  .ite (.of_next hs) (have hs := hs.modLane
  .ite (have hs := hs.modLane.discardFrame
  .of_next (.ite hs.retrain hs)) (have hs := hs.modLane
  .ite (.of_next hs.incSat.discardFrame) (have hs := hs.modLane
  have hs := Canonical.ite hs.takeBulk hs
  .of_next hs.takeToken)))

theorem Canonical.deliverIn {s : State} {n : Fin 8} {ty : ℕ} {body : List Byte} (hs : Canonical s) :
    ∀ t ∈ s.deliverIn n ty body, Canonical t.2 := by
  unfold State.deliverIn
  dsimp only
  split
  · exact forall_ite (forall_some hs.modLane) forall_none
  · exact forall_none

theorem Canonical.deliver {s : State} {n : Fin 8} {ty : ℕ} {body : List Byte} (hs : Canonical s) :
    ∀ t ∈ s.deliver n ty body, Canonical t.2 := by
  intro t ht
  obtain ⟨x, hx, rfl⟩ := Option.map_eq_some_iff.1 ht
  exact hs.deliverIn x hx

theorem Canonical.peerLine {s : State} {g : Fin 32} {line : ℕ} {failed : Bool} {judged : Bool} (hs : Canonical s) :
    Canonical (s.peerLine g line failed judged) :=
  .ite hs.modThread (.ite hs (.ite hs.modGrove hs))

theorem Canonical.peerEnds {s : State} {g : Fin 32} {present : ℕ} {code : ℕ} (hs : Canonical s) :
    Canonical (s.peerEnds g present code) := by
  unfold State.peerEnds
  dsimp only
  split
  · exact hs
  · exact .ite hs (.ite hs.endBeforeStart hs.modThread.checkEnd)

theorem execTokenGrove_canonical {lane : Fin 8} {body : List Byte} {s : State} (hs : Canonical s) :
    CanonicalNext (execTokenGrove lane body s) := by
  unfold execTokenGrove
  dsimp only
  split
  · exact .of_next hs
  · next _ h =>
      split
      · exact .of_next (hs.deliver _ h)
      · split
        · exact .of_next (hs.deliver _ h)
        · exact
            .ite (.of_next (hs.deliver _ h).tokenLoss) (have hs := (hs.deliver _ h).foldl fun _ _ hs => hs.peerLine
            have hs := hs.update
            .of_next hs.peerEnds)

theorem execTokenArmed_canonical {lane : Fin 8} {body : List Byte} {s : State} (hs : Canonical s) :
    CanonicalNext (execTokenArmed lane body s) := by
  unfold execTokenArmed
  dsimp only
  split
  · exact .of_next hs
  · next _ h =>
      split
      · exact .of_next (hs.deliver _ h)
      · exact
          have hs := (hs.deliver _ h).update
          have hs := hs.modBurst
          .ite (.of_next (.ite hs.tryStartSlot hs.sendStart.mismatch)) (.of_next hs)

theorem execTokenStart_canonical {lane : Fin 8} {body : List Byte} {s : State} (hs : Canonical s) :
    CanonicalNext (execTokenStart lane body s) := by
  unfold execTokenStart
  dsimp only
  split
  · exact .of_next hs
  · next _ h =>
      split
      · exact .of_next (hs.deliver _ h)
      · exact .ite (.of_next (hs.deliver _ h).mismatch) (.ite (.of_next (hs.deliver _ h)) (.of_next (hs.deliver _ h).update.chooseSlot))

theorem execTokenSnapshot_canonical {lane : Fin 8} {body : List Byte} {s : State} (hs : Canonical s) :
    CanonicalNext (execTokenSnapshot lane body s) := by
  unfold execTokenSnapshot
  dsimp only
  split
  · exact .of_next hs
  · next _ h =>
      refine .ite ?_ ?_
      · exact
          .ite (.of_next (hs.deliver _ h)) (have hs := (hs.deliver _ h).snapRequest
          .of_next hs.update)
      · split
        · exact .of_next (hs.deliver _ h).snapRequest
        · exact .of_next (hs.deliver _ h)

theorem Canonical.measureLane {s : State} {n : Fin 8} {ticks : ℕ} (hs : Canonical s) : Canonical (s.measureLane n ticks) :=
  have hs := hs.modLane
  have hs := hs.modLane
  (hs.foldl fun _ _ hs => have hs := hs.wr
  have hs := Canonical.ite hs hs.wrs
  .ite hs.wr hs).noteAgreed

theorem execTokenEcho_canonical {lane : Fin 8} {body : List Byte} {s : State} (hs : Canonical s) :
    CanonicalNext (execTokenEcho lane body s) := by
  unfold execTokenEcho
  dsimp only
  split
  · exact .of_next hs
  · next _ h =>
      exact
        have hs := (hs.deliverIn _ h).measureLane
        .of_next (.ite hs hs.modLane)

theorem execTokenIdent_canonical {lane : Fin 8} {body : List Byte} {s : State} (hs : Canonical s) :
    CanonicalNext (execTokenIdent lane body s) := by
  unfold execTokenIdent
  dsimp only
  split
  · exact .of_next hs
  · next _ h =>
      exact
        have hs := (hs.deliver _ h).wrs
        have hs := hs.modLane
        .of_next (.ite hs hs.event)

theorem execTokenDesc_canonical {lane : Fin 8} {body : List Byte} {s : State} (hs : Canonical s) :
    CanonicalNext (execTokenDesc lane body s) := by
  unfold execTokenDesc
  dsimp only
  split
  · exact .of_next hs
  · next _ h =>
      exact
        have hs := (hs.deliver _ h).update
        have hs := Canonical.ite hs (hs.foldl fun _ _ hs => hs.queueToken)
        .of_next (.ite hs.noteAgreed.event hs.noteAgreed)

theorem Canonical.takeRx {s : State} {n : Fin 8} {cls : ℕ} {body : List Byte} (hs : Canonical s) :
    ∀ t ∈ s.takeRx n cls body, Canonical t := by
  unfold State.takeRx
  dsimp only
  split
  · exact forall_ite (forall_some hs.modLane) forall_none
  · exact forall_none

theorem execMsgReceive_canonical {lane : Fin 8} {body : List Byte} {s : State} (hs : Canonical s) :
    CanonicalNext (execMsgReceive lane body s) := by
  unfold execMsgReceive
  dsimp only
  split
  · exact .of_next hs
  · next _ h =>
      exact
        have hs := Canonical.ite (hs.takeRx _ h).modLane.noteMsgs (hs.takeRx _ h).incSat
        .of_next hs.event

theorem execPeerReceive_canonical {lane : Fin 8} {body : List Byte} {s : State} (hs : Canonical s) :
    CanonicalNext (execPeerReceive lane body s) := by
  unfold execPeerReceive
  dsimp only
  split
  · exact .of_next hs
  · next _ h =>
      split
      · exact .ite (.of_next (hs.takeRx _ h)) (.of_next (hs.takeRx _ h).putPeer.event)
      · exact .of_next (hs.takeRx _ h)

theorem execNakReceive_canonical {lane : Fin 8} {seq : ℕ} {s : State} (hs : Canonical s) :
    CanonicalNext (execNakReceive lane seq s) := by
  unfold execNakReceive
  dsimp only
  split
  · exact .of_next hs
  · exact
      have hs := hs.modLane
      .of_next (.ite hs.retrain hs.modLane)

/-! ## Operations and commands: time, frames, SDRAM and clocks -/

theorem execMflMsgSend_canonical {lane : Fin 8} {s : State} (hs : Canonical s) : CanonicalNext (execMflMsgSend lane s) :=
  .of_next hs.msgSend

theorem execMflMsgPop_canonical {lane : Fin 8} {s : State} (hs : Canonical s) : CanonicalNext (execMflMsgPop lane s) :=
  .of_next hs.msgPop

theorem execMflCfgWrite_canonical {req : Req} {w : Word} {s : State} (hs : Canonical s) : CanonicalNext (execMflCfgWrite req w s) :=
  .of_next (hs.regWrite fun _ hs => hs.mflCfg)

theorem Canonical.adapt {s : State} {n : Fin 8} {fom : ℕ} {ups : List ℤ} (hs : Canonical s) : Canonical (s.adapt n fom ups) :=
  have hs := hs.modLane
  hs.foldl fun _ _ hs => hs.wr

theorem execFomWindow_canonical {lane : Fin 8} {fom : ℕ} {ups : List ℤ} {s : State} (hs : Canonical s) :
    CanonicalNext (execFomWindow lane fom ups s) :=
  .ite (.of_next hs) (have hs := hs.wr.adapt
  have hs := Canonical.ite hs.event hs
  have hs := hs.modLane
  .of_next (.ite hs.retrain hs))

theorem execLinkRetrain_canonical {lane : Fin 8} {_cause : ℕ} {s : State} (hs : Canonical s) :
    CanonicalNext (execLinkRetrain lane _cause s) :=
  .of_next hs.retrain

theorem Canonical.lanesUp {s : State} {n : Fin 8} (hs : Canonical s) : Canonical (s.lanesUp n) :=
  hs.setLanes.modLane

theorem execLinkUp_canonical {lane : Fin 8} {s : State} (hs : Canonical s) : CanonicalNext (execLinkUp lane s) :=
  .ite (.of_next hs.lanesUp.event.noteAgreed) (.of_next hs)

theorem execLinkFailed_canonical {lane : Fin 8} {s : State} (hs : Canonical s) : CanonicalNext (execLinkFailed lane s) :=
  .ite (have hs := hs.setLanes.modLane
  .of_next hs.event.faultOnce.noteAgreed) (.of_next hs)

theorem execLinkBringupRetry_canonical {lane : Fin 8} {s : State} (hs : Canonical s) : CanonicalNext (execLinkBringupRetry lane s) :=
  .ite (.of_next hs.bringUp) (.of_next hs)

theorem execLinkIdleEntry_canonical {lane : Fin 8} {s : State} (hs : Canonical s) : CanonicalNext (execLinkIdleEntry lane s) :=
  .ite (.of_next hs.setLanes) (.of_next hs)

theorem execLinkIdleExit_canonical {lane : Fin 8} {s : State} (hs : Canonical s) : CanonicalNext (execLinkIdleExit lane s) :=
  .ite (.of_next hs.lanesUp.modLane) (.of_next hs)

theorem execTimRateWrite_canonical {req : Req} {w : Word} {s : State} (hs : Canonical s) : CanonicalNext (execTimRateWrite req w s) :=
  .of_next (hs.regWrite fun _ hs => hs.timRate)

theorem execRateApply_canonical {s : State} (hs : Canonical s) : CanonicalNext (execRateApply s) := by
  unfold execRateApply
  dsimp only
  split
  · exact .of_next hs
  · exact .ite (.of_next hs) (.of_next hs.update)

theorem execTimStepHiWrite_canonical {req : Req} {w : Word} {s : State} (hs : Canonical s) :
    CanonicalNext (execTimStepHiWrite req w s) :=
  .of_next (hs.regWrite fun _ hs => hs.takeHeld.timStep)

theorem execStepApply_canonical {s : State} (hs : Canonical s) : CanonicalNext (execStepApply s) := by
  unfold execStepApply
  dsimp only
  split
  · exact .of_next hs
  · exact
      .ite (.of_next hs) (have hs := hs.update
      .of_next hs.wrP.wrP)

theorem execTimCtrlWrite_canonical {req : Req} {w : Word} {s : State} (hs : Canonical s) : CanonicalNext (execTimCtrlWrite req w s) :=
  .of_next (hs.regWrite fun _ hs => hs.timCtrl)

theorem execTimeRequestSend_canonical {s : State} (hs : Canonical s) : CanonicalNext (execTimeRequestSend s) :=
  .ite (.of_next hs.update.modLane) (.of_next hs)

theorem execTimeRequestReceive_canonical {lane : Fin 8} {body : List Byte} {s : State} (hs : Canonical s) :
    CanonicalNext (execTimeRequestReceive lane body s) := by
  unfold execTimeRequestReceive
  dsimp only
  split
  · exact .of_next hs
  · next _ h =>
      exact .ite (.of_next hs) (.of_next (hs.deliverIn _ h).modLane)

theorem Canonical.takeExchange {s : State} {dly : ℤ} {ofs : ℤ} {tok : ℕ} (hs : Canonical s) : Canonical (s.takeExchange dly ofs tok) :=
  have hs := hs.update.incWrap
  .ite (have hs := hs.update
  have hs := hs.wrP
  hs.wrs.event) hs

theorem execTimeReplyReceive_canonical {lane : Fin 8} {body : List Byte} {s : State} (hs : Canonical s) :
    CanonicalNext (execTimeReplyReceive lane body s) := by
  unfold execTimeReplyReceive
  dsimp only
  split
  · exact .of_next hs
  · next _ h =>
      refine .ite ?_ ?_
      · exact .of_next hs
      · split
        · exact .of_next (hs.deliverIn _ h)
        · exact
            .ite (have hs := (hs.deliverIn _ h).takeExchange
            .of_next (.ite hs.holdover hs)) (.of_next (hs.deliverIn _ h))

theorem Canonical.putCanopy {s : State} {x1 : ℕ} {l : List Byte} (hs : Canonical s) : Canonical (s.putCanopy x1 l) :=
  hs.canopyPuts

theorem execEthFrameReceive_canonical {frame : List Byte} {ok : Bool} {frac : ℕ} {s : State} (hs : Canonical s) :
    CanonicalNext (execEthFrameReceive frame ok frac s) :=
  .ite (.of_next hs) (.ite (.of_next (have hs := hs.putCanopy
  hs.update)) (.of_next hs.incSat.event))

theorem execEthFrameTransmit_canonical {frac : ℕ} {s : State} (hs : Canonical s) : CanonicalNext (execEthFrameTransmit frac s) := by
  refine .ite (.of_next hs) (.ite (.of_next hs) ?_)
  dsimp only
  exact
    have hs := hs.putCanopy.update
    .ite (.of_next hs) (.ite (.of_next hs.update.noteTxts.event) (.of_next hs.incSat.event))

theorem execTimTxtsPop_canonical {s : State} (hs : Canonical s) : CanonicalNext (execTimTxtsPop s) :=
  .of_next hs.txtsPop

theorem execDmcInit_canonical {s : State} (hs : Canonical s) : CanonicalNext (execDmcInit s) :=
  .of_next hs.dmcInit

theorem Canonical.noteDmc {s : State} (hs : Canonical s) : Canonical s.noteDmc :=
  hs.wr.foldl fun _ _ hs => hs.wr

theorem Canonical.dmcDead {s : State} {cause : ℕ} {subs : ℕ} (hs : Canonical s) : Canonical (s.dmcDead cause subs) :=
  have hs := hs.update
  have hs := hs.wrs
  hs.notResident.noteDmc

theorem execDmcTrainingDone_canonical {step : ℕ} {subs : ℕ} {margins : List (ℕ × ℕ)} {s : State} (hs : Canonical s) :
    CanonicalNext (execDmcTrainingDone step subs margins s) :=
  .ite (.of_next hs)
    (have hs := Canonical.ite (hs.mems hs.canopy Mem.wf_nil hs.flash hs.host) hs
    .ite (.of_next (hs.foldl fun _ _ hs => hs.wrs).wrs.event) (.of_next hs.dmcDead.event.faultOnce))

theorem execDmcRetrain_canonical {s : State} (hs : Canonical s) : CanonicalNext (execDmcRetrain s) :=
  .of_next hs.dmcRetrain

theorem Canonical.modSub {s : State} {k : Fin 4} {f : DmcSub → DmcSub} (hs : Canonical s) : Canonical (s.modSub k f) :=
  hs.update

theorem Canonical.endReq {s : State} {r : DmcReq} (hs : Canonical s) : Canonical (s.endReq r) :=
  have hs := Canonical.ite hs.incSat.event hs
  have hs := hs.wr
  hs.wrP

theorem Canonical.applyWrites {s : State} (hs : Canonical s) : Canonical s.applyWrites :=
  hs.foldl fun _ _ hs => .ite (have hs := hs.modSub
  have hs := hs.mems hs.canopy (putBlock_wf hs.sdram) hs.flash hs.host
  hs.endReq) hs

theorem Canonical.acceptReqs {s : State} (hs : Canonical s) : Canonical s.acceptReqs :=
  hs.update.applyWrites.noteDmc

theorem execSdramRequest_canonical {port : Fin 6} {write : Bool} {addr : ℕ} {data : List Byte} {be : ℕ} {deadline : ℕ} {s : State}
    (hs : Canonical s) :
    CanonicalNext (execSdramRequest port write addr data be deadline s) :=
  .ite (.of_next (.ite hs hs.answerWith)) (.of_next hs.update.acceptReqs)

theorem Canonical.issue {s : State} {k : Fin 4} {kind : ℕ} {bank : ℕ} {row : ℕ} {order : ℕ} {col : ℕ} (hs : Canonical s) :
    Canonical (s.issue k kind bank row order col) :=
  hs.modSub

theorem Canonical.refreshNow {s : State} {k : Fin 4} (hs : Canonical s) : Canonical (s.refreshNow k) :=
  have hs := hs.issue
  hs.modSub

theorem Canonical.pageCount {s : State} {k : Fin 4} {bank : ℕ} {hit : Bool} (hs : Canonical s) : Canonical (s.pageCount k bank hit) :=
  hs.modSub

theorem Canonical.serve {s : State} {k : Fin 4} {r : DmcReq} (hs : Canonical s) : Canonical (s.serve k r) :=
  have hs := Canonical.ite hs.pageCount hs
  have hs := hs.update.modSub
  .ite (have hs := hs.issue.incWrap
  have hs := hs.update
  hs.modSub) (.ite hs.issue.modSub hs.issue.incWrap.modSub)

theorem execCommandSlot_canonical {sub : Fin 4} {s : State} (hs : Canonical s) : CanonicalNext (execCommandSlot sub s) := by
  unfold execCommandSlot
  dsimp only
  refine .ite ?_ ?_
  · exact .of_next hs
  · refine .ite ?_ ?_
    · exact .of_next (.ite hs.modSub.modSub hs.modSub)
    · refine .ite ?_ ?_
      · exact .of_next hs.modSub.refreshNow
      · split
        · exact .ite (.of_next hs.modSub.serve) (.ite (.of_next hs.modSub.refreshNow) (.ite (.of_next hs.modSub.issue.modSub) (.of_next hs.modSub.serve)))
        · exact .ite (.of_next hs.modSub.refreshNow) (.ite (.of_next hs.modSub.issue.modSub) (.of_next hs.modSub))

theorem execReadDataReturn_canonical {port : Fin 6} {s : State} (hs : Canonical s) : CanonicalNext (execReadDataReturn port s) := by
  unfold execReadDataReturn
  dsimp only
  split
  · exact .of_next hs
  · exact
      have hs := hs.update
      .of_next hs.endReq.acceptReqs.answerWith

theorem execAlertN_canonical {sub : Fin 4} {s : State} (hs : Canonical s) : CanonicalNext (execAlertN sub s) :=
  .ite (.of_next hs) (.ite (.of_next hs.dmcDead.event.faultOnce) (.of_next hs.modSub))

theorem execRefreshInterval_canonical {sub : Fin 4} {s : State} (hs : Canonical s) : CanonicalNext (execRefreshInterval sub s) :=
  .ite (.of_next hs) (have hs := Canonical.ite hs hs.incWrap
  .of_next hs.modSub)

theorem Canonical.subBit {s : State} {f : Fld} {k : Fin 4} {v : Bool} (hs : Canonical s) : Canonical (s.subBit f k v) :=
  hs.wr

theorem execMr4Read_canonical {sub : Fin 4} {fast : Bool} {hot : Bool} {s : State} (hs : Canonical s) :
    CanonicalNext (execMr4Read sub fast hot s) :=
  have hs := hs.subBit.subBit
  .of_next (.ite hs.event.faultOnce hs)

theorem execZqCalibration_canonical {sub : Fin 4} {s : State} (hs : Canonical s) : CanonicalNext (execZqCalibration sub s) :=
  .of_next hs.modSub

theorem execDqsOscillatorRead_canonical {sub : Fin 4} {s : State} (hs : Canonical s) : CanonicalNext (execDqsOscillatorRead sub s) :=
  .of_next hs.modSub

theorem execRowIdleClose_canonical {sub : Fin 4} {rank : ℕ} {bank : ℕ} {s : State} (hs : Canonical s) :
    CanonicalNext (execRowIdleClose sub rank bank s) :=
  .ite (.of_next hs) (.of_next hs.modSub)

theorem execPowerDownEntry_canonical {sub : Fin 4} {s : State} (hs : Canonical s) : CanonicalNext (execPowerDownEntry sub s) :=
  .ite (.of_next hs.modSub) (.of_next hs)

theorem Canonical.unrefNow {s : State} (hs : Canonical s) : Canonical s.unrefNow :=
  hs.foldl fun _ _ hs => hs.modThread

theorem Canonical.freeze {s : State} (hs : Canonical s) : Canonical s.freeze :=
  have hs := hs.update
  hs.wrP.wrs

theorem execRefclkMissingEdge_canonical {s : State} (hs : Canonical s) : CanonicalNext (execRefclkMissingEdge s) :=
  .ite (have hs := hs.update
  .of_next (.ite hs hs.freeze.unrefNow)) (.of_next hs)

theorem Canonical.unrefWindow {s : State} (hs : Canonical s) : Canonical s.unrefWindow := by
  refine hs.foldl fun s g hs => ?_
  dsimp only
  split
  · exact hs.modThread
  · exact .ite hs.modThread hs.modThread.modGrove

theorem Canonical.lose {s : State} {cause : ℕ} (hs : Canonical s) : Canonical (s.lose cause) :=
  have hs := hs.update
  have hs := hs.wrs
  have hs := Canonical.ite (hs.wr.foldl fun _ _ hs => .ite hs hs.laneOff) hs.noteAgreed
  hs.incSat.event.nmiAll.dualRaise

theorem execReferenceMonitorWindow_canonical {count : ℕ} {s : State} (hs : Canonical s) :
    CanonicalNext (execReferenceMonitorWindow count s) := by
  refine .of_next (Canonical.update (Canonical.foldl ?_ fun _ _ hs => hs.modGrove))
  split
  · exact hs.wrs.update.tryReturn
  · exact (Canonical.ite hs.wrs.update (Canonical.ite hs.wrs.update.unrefWindow hs.wrs.update).freeze.unrefNow).lose

theorem execOscillatorSwitchover_canonical {s : State} (hs : Canonical s) : CanonicalNext (execOscillatorSwitchover s) :=
  .ite (have hs := hs.update
  .of_next hs.wrs.event) (.of_next hs)

theorem execClkReturnWrite_canonical {req : Req} {w : Word} {s : State} (hs : Canonical s) :
    CanonicalNext (execClkReturnWrite req w s) :=
  .of_next (hs.regWrite fun _ hs => hs.clkCtrl)

theorem execFrequencyLock_canonical {s : State} (hs : Canonical s) : CanonicalNext (execFrequencyLock s) :=
  .of_next (.ite hs.update hs)

theorem execReturnComplete_canonical {s : State} (hs : Canonical s) : CanonicalNext (execReturnComplete s) :=
  .ite (have hs := hs.update
  have hs := hs.wrs
  .of_next hs.event.dualOff.noteAgreed.startLanes.sendPending) (.of_next hs)

theorem Canonical.oscMean {s : State} {count : ℕ} (hs : Canonical s) : Canonical (s.oscMean count) :=
  hs.update.wr

/-! ## Operations and commands: clocks, power and calibration -/

theorem execOscillatorMonitorWindow_canonical {count : ℕ} {s : State} (hs : Canonical s) :
    CanonicalNext (execOscillatorMonitorWindow count s) :=
  have hs := hs.wr
  .ite (have hs := hs.update
  .of_next (.ite hs.wr.event.faultOnce hs)) (have hs := hs.update
  have hs := Canonical.ite hs.wr hs
  .of_next (.ite hs.oscMean hs))

theorem execForceIntWrite_canonical {req : Req} {w : Word} {s : State} (hs : Canonical s) :
    CanonicalNext (execForceIntWrite req w s) :=
  .of_next (hs.regWrite fun _ hs => hs.clkCtrl)

theorem execClkoutCfgWrite_canonical {req : Req} {w : Word} {s : State} (hs : Canonical s) :
    CanonicalNext (execClkoutCfgWrite req w s) :=
  .of_next (hs.regWrite fun _ hs => hs.clkout)

theorem mainReset_files {r : Regs} {going : Prop} {_ : Decidable going} {kflt ksec kcmp : ℕ → Bool} (hr : FilesCanonical r) :
    FilesCanonical { State.reset.regs with
      pwr := r.pwr, flt := if going then r.flt else keepRegs kflt r.flt, sec := keepRegs ksec r.sec, cmp := keepRegs kcmp r.cmp } := by
  intro b
  cases b
  case pwr => exact hr .pwr
  case flt =>
    show cellsWf (resetWord .flt) 0 (if going then r.flt else keepRegs kflt r.flt) = true
    split
    · exact hr .flt
    · exact keepRegs_wf (hr .flt)
  case sec => exact cellsWf_filter _ _ _ 0 (hr .sec)
  case cmp => exact cellsWf_filter _ _ _ 0 (hr .cmp)
  all_goals exact cellsWf_nil

theorem Canonical.mainReset {s : State} {keepSb : Bool} (hs : Canonical s) : Canonical (s.mainReset keepSb) :=
  Canonical.wrs (Canonical.wrs (.of_files (mainReset_files hs.files) Mem.wf_nil Mem.wf_nil hs.flash hs.host))

theorem Canonical.houseOff {s : State} (hs : Canonical s) : Canonical s.houseOff :=
  have hs := hs.mainReset.wr
  hs.update

theorem Canonical.understoryLost {s : State} (hs : Canonical s) : Canonical s.understoryLost :=
  .ite hs (have hs := hs.update
  have hz := hs.wrs
  hz.wrP)

theorem vinLost_files {r : Regs} {keep : ℕ → Bool} (hr : FilesCanonical r) :
    FilesCanonical { r with flt := [], pwr := keepRegs keep r.pwr } := by
  intro b
  cases b
  case pwr => exact cellsWf_filter _ _ _ 0 (hr .pwr)
  case flt => exact cellsWf_nil
  all_goals exact hr _

theorem Canonical.vinLost {s : State} (hs : Canonical s) : Canonical s.vinLost :=
  have hs := hs.houseOff
  Canonical.understoryLost (.of_files (vinLost_files hs.files) hs.canopy hs.sdram hs.flash hs.host)

theorem Canonical.setBand {s : State} {k : ℕ} (hs : Canonical s) : Canonical (s.setBand k) :=
  .ite hs (have hs := hs.wrs.event
  hs.update.setCeil)

theorem execVinSample_canonical {mv : ℕ} {ma : ℕ} {s : State} (hs : Canonical s) : CanonicalNext (execVinSample mv ma s) :=
  have hs := hs.update
  have hs := hs.wrs
  .ite (.of_next (.ite hs.vinLost hs)) (.of_next (.ite hs.setBand hs))

theorem execVinCapRise_canonical {s : State} (hs : Canonical s) : CanonicalNext (execVinCapRise s) := by
  unfold execVinCapRise
  split
  · exact .of_next hs.setBand
  · exact .of_next hs

theorem execVinUndervoltage_canonical {s : State} (hs : Canonical s) : CanonicalNext (execVinUndervoltage s) :=
  .of_next (.ite hs.firebreak hs)

theorem execVinOvervoltage_canonical {s : State} (hs : Canonical s) : CanonicalNext (execVinOvervoltage s) :=
  .of_next (.ite hs.firebreak hs)

theorem execInputLimitExpiry_canonical {s : State} (hs : Canonical s) : CanonicalNext (execInputLimitExpiry s) :=
  have hs := hs.wr.incSat.event
  have hs := hs.faultOnce
  .of_next (hs.foldl fun _ _ hs => hs.cutBurst)

theorem execRailOutOfRange_canonical {r : Fin 7} {s : State} (hs : Canonical s) : CanonicalNext (execRailOutOfRange r s) :=
  have hs := hs.wr.incSat
  .of_next hs.event.faultOnce

theorem execRegulatorUpdateLost_canonical {r : Fin 7} {s : State} (hs : Canonical s) : CanonicalNext (execRegulatorUpdateLost r s) :=
  .of_next (.ite hs hs.update)

theorem Canonical.readSensor {s : State} {k : Fin 16} {x : ℤ} (hs : Canonical s) : Canonical (s.readSensor k x) :=
  have hs := hs.update
  have hs := hs.wrs
  .ite hs.event.faultOnce hs

theorem Canonical.timingDrift {s : State} {t : ℤ} (hs : Canonical s) : Canonical (s.timingDrift t) :=
  have hs' := hs.wr
  .ite hs'.raise hs'

theorem Canonical.wearEvents {s : State} {before : ℕ} (hs : Canonical s) : Canonical (s.wearEvents before) :=
  hs.raise

theorem Canonical.wear {s : State} {t : ℤ} (hs : Canonical s) : Canonical (s.wear t) :=
  have hs := Canonical.ite hs.wrP hs
  have hs := Canonical.ite hs.wrP hs
  have hs := Canonical.ite hs.wr hs
  have hs := Canonical.ite hs.incSat hs
  hs.update.wearEvents

theorem execTemperatureUpdate_canonical {readings : List ℤ} {s : State} (hs : Canonical s) :
    CanonicalNext (execTemperatureUpdate readings s) := by
  unfold execTemperatureUpdate
  have hs : Canonical ((allFin 16).foldl (fun s k => s.readSensor k (readings.getD k.1 0)) s) := hs.foldl fun _ _ hs => hs.readSensor
  generalize (allFin 16).foldl (fun s k => s.readSensor k (readings.getD k.1 0)) s = u at hs
  exact .of_next hs.wrs.update.wear.timingDrift

theorem Canonical.noteTherm {s : State} (hs : Canonical s) : Canonical s.noteTherm :=
  hs.wr

theorem Canonical.thermCap {s : State} (hs : Canonical s) : Canonical s.thermCap :=
  (have hs := hs.wr
  hs.update).setCeil

theorem Canonical.enterLimit {s : State} (hs : Canonical s) : Canonical s.enterLimit :=
  have hs := hs.foldl fun _ _ hs => hs.endBeforeStart
  (Canonical.ite hs hs.wr).nmiAll

theorem execThermalFlagSet_canonical {k : Fin 3} {s : State} (hs : Canonical s) : CanonicalNext (execThermalFlagSet k s) := by
  unfold execThermalFlagSet
  dsimp only
  refine .ite ?_ ?_
  · exact .of_next hs
  · refine .of_next ?_
    split
    · exact hs.update.noteTherm.event.thermCap
    · exact hs.update.noteTherm.event.thermCap.enterLimit
    · exact hs.update.noteTherm.event.thermCap.wr.incSat.dualRaise

theorem execThermalFlagClear_canonical {k : Fin 3} {s : State} (hs : Canonical s) : CanonicalNext (execThermalFlagClear k s) :=
  .ite (.of_next hs) (have hs := hs.update.noteTherm
  have hs := Canonical.ite hs.dualOff hs.event
  .of_next (.ite hs.wr.thermCap hs.thermCap))

theorem execLimitTimerExpiry_canonical {s : State} (hs : Canonical s) : CanonicalNext (execLimitTimerExpiry s) :=
  .ite (.of_next hs.wr.event.cutAll) (.of_next hs)

theorem execWearLedgerCopy_canonical {s : State} (hs : Canonical s) : CanonicalNext (execWearLedgerCopy s) :=
  .of_next hs.update

theorem execWearLedgerFlash_canonical {s : State} (hs : Canonical s) : CanonicalNext (execWearLedgerFlash s) :=
  .of_next hs.update

theorem Canonical.setLedger {s : State} {l : Ledger} (hs : Canonical s) : Canonical (s.setLedger l) :=
  hs.wrP.wrP.wrs

theorem execVinRise_canonical {s : State} (hs : Canonical s) : CanonicalNext (execVinRise s) :=
  .ite (.of_next hs) (.of_next hs.update.setLedger.wearEvents)

theorem execRailGood_canonical {r : Fin 7} {s : State} (hs : Canonical s) : CanonicalNext (execRailGood r s) :=
  .ite (.of_next hs) (have hs := hs.wr
  have hs := hs.update
  .ite (.of_next (have hs := hs.mainReset
  hs.update)) (.of_next hs))

theorem execPowerDown_canonical {s : State} (hs : Canonical s) : CanonicalNext (execPowerDown s) :=
  .ite (.of_next hs.update.houseOff) (.of_next hs)

theorem execResetL_canonical {level : Bool} {s : State} (hs : Canonical s) : CanonicalNext (execResetL level s) :=
  .ite (.of_next hs) (have hs := hs.mainReset
  .of_next hs.update.noteHeartbeat)

theorem execUnderstoryTick_canonical {s : State} (hs : Canonical s) : CanonicalNext (execUnderstoryTick s) :=
  .of_next (.ite hs.wrP hs)

theorem execPowerupCalibration_canonical {s : State} (hs : Canonical s) : CanonicalNext (execPowerupCalibration s) :=
  .ite (.of_next hs) (.of_next (hs.foldl fun _ _ hs => hs.cmpGo).calStart)

theorem Canonical.meanStamp {s : State} {r : CalRun} {src index : ℕ} {l : List (ℤ × ℕ)} (hs : Canonical s) :
    Canonical (s.meanStamp r src index l).2 :=
  hs.foldl_snd (b := []) fun _ x hs => hs.rawStamp (src := src) (index := index) (tick := x.1)

theorem Canonical.meanStamps {s : State} {r : CalRun} {src index : ℕ} {l : List (List (ℤ × ℕ))} (hs : Canonical s) :
    Canonical (s.meanStamps r src index l).2 :=
  hs.foldl_snd (b := []) fun _ _ hs => hs.meanStamp

theorem Canonical.resolve {s : State} {r : CalRun} {get : Fin 7 → ℕ → List ℤ} {x : CalResult} (hs : Canonical s) :
    Canonical (s.resolve r get x).2 := by
  unfold State.resolve
  split
  · exact hs
  · exact hs
  · exact hs.meanStamps
  · exact hs.meanStamps
  · exact hs

theorem Canonical.refPhase {s : State} {r : CalRun} {refclk : List (ℤ × ℕ)} (hs : Canonical s) : Canonical (s.refPhase r refclk).2 :=
  hs.meanStamp

theorem Canonical.putPar {s : State} {f : Fld} {par : Fld} {v : ℤ} (hs : Canonical s) : Canonical (s.putPar f par v) :=
  hs.wrs

theorem Canonical.putUnit {s : State} {g : Fin 7} {u : ℕ} {l : List ℤ} (hs : Canonical s) : Canonical (s.putUnit g u l) := by
  unfold State.putUnit
  dsimp only
  split
  · exact .dite (fun _ => hs.update) (fun _ => hs)
  · exact
      have hs := hs.foldl fun _ _ hs => hs.putPar
      have hs := hs.putPar.putPar
      have hs := hs.putPar.putPar
      hs.modChan
  · exact hs.putPar
  · exact hs.update

theorem Canonical.takeResult {s : State} {x : CalResult} {phase : ℤ} (hs : Canonical s) : Canonical (s.takeResult x phase) :=
  .ite (have hs := hs.putUnit.setUnit
  .ite hs.setStale.noteCalTemp hs) (have hs := hs.setUnit
  .ite hs.setStale.event hs)

theorem Canonical.takeOne {r : CalRun} {refclk : List (ℤ × ℕ)} {a : State × List (CalResult × Bool)} {x : CalResult}
    (ha : Canonical a.1) : Canonical (State.takeOne r refclk a x).1 :=
  Canonical.takeResult (Canonical.ite_snd ha.resolve.refPhase ha.resolve)

theorem Canonical.takeAll {s : State} {r : CalRun} {refclk : List (ℤ × ℕ)} {l : List CalResult} (hs : Canonical s) :
    Canonical (s.takeAll r refclk l).1 :=
  hs.foldl_fst (b := []) fun _ _ ha => ha.takeOne

theorem Canonical.calRelease {s : State} (hs : Canonical s) : Canonical s.calRelease :=
  have hs := hs.update
  have hs := hs.foldl fun _ _ hs => .ite hs.tmuUnhold hs
  have hs := hs.foldl fun _ _ hs => .ite hs.modTrg.trgArm hs
  hs.wrs

theorem Canonical.calComplete {s : State} {h : Option Hdr} {status : ℕ} {detail : ℕ} {result : ℕ} (hs : Canonical s) :
    Canonical (s.calComplete h status detail result) := by
  unfold State.calComplete
  split
  · exact hs.complete
  · exact hs

theorem Canonical.calEnd {s : State} {r : CalRun} {results : List CalResult} {refclk : List (ℤ × ℕ)} (hs : Canonical s) :
    Canonical (s.calEnd r results refclk) :=
  have hs := Canonical.ite (.ite hs.wr.event.faultOnce hs.wr) hs
  have hs := hs.takeAll
  have hs := hs.foldl fun _ _ hs => hs.setUnit
  have hs := Canonical.ite hs.refPhase.wrs.timingDrift hs
  have hs := hs.foldl fun _ _ hs => .ite hs.groupMeasured hs.noteGroup
  have hs := Canonical.ite hs hs.countRun
  have hs := Canonical.ite hs.event hs
  have hs := hs.calRelease
  have hs := Canonical.ite hs.wr hs
  .ite hs.calComplete.calNext (have hs := hs.calNext
  .ite (.ite hs.update hs.event.calComplete) hs.calComplete)

theorem execCalibrationRunEnd_canonical {results : List CalResult} {refclk : List (ℤ × ℕ)} {s : State} (hs : Canonical s) :
    CanonicalNext (execCalibrationRunEnd results refclk s) := by
  unfold execCalibrationRunEnd
  split
  · exact .of_next hs
  · exact .of_next hs.calEnd

theorem execFaultOccurrence_canonical {src : ℕ} {s : State} (hs : Canonical s) : CanonicalNext (execFaultOccurrence src s) :=
  .ite (.of_next hs.faultOnce) (.of_next hs)

theorem execDualSourceActive_canonical {src : ℕ} {active : Bool} {s : State} (hs : Canonical s) :
    CanonicalNext (execDualSourceActive src active s) :=
  .ite (.of_next hs) (.ite (.of_next (.ite hs hs.dualOn)) (have hs := hs.dualOff
  .of_next (.ite hs.wr hs)))

theorem execDualLineMismatch_canonical {src : ℕ} {s : State} (hs : Canonical s) : CanonicalNext (execDualLineMismatch src s) :=
  .ite (have hs := Canonical.ite hs.wr hs
  .of_next hs.dualMismatch) (.of_next hs)

theorem Canonical.collectorFail {s : State} (hs : Canonical s) : Canonical s.collectorFail :=
  hs.latchFault.firebreak

theorem execCollectorScrub_canonical {ok : Bool} {s : State} (hs : Canonical s) : CanonicalNext (execCollectorScrub ok s) :=
  .of_next (.ite hs hs.collectorFail)

theorem execCollectorLineTest_canonical {ok : Bool} {s : State} (hs : Canonical s) : CanonicalNext (execCollectorLineTest ok s) :=
  .ite (.of_next hs.update.noteHeartbeat) (.of_next hs.collectorFail)

theorem execFltForceWrite_canonical {req : Req} {i : Fin 8} {w : Word} {s : State} (hs : Canonical s) :
    CanonicalNext (execFltForceWrite req i w s) :=
  .of_next (hs.regWrite fun _ hs => hs.wr.forceChange)

theorem execFirebreakStart_canonical {cause : ℕ} {src : ℕ} {s : State} (hs : Canonical s) :
    CanonicalNext (execFirebreakStart cause src s) :=
  .of_next hs.firebreak

theorem execDscRampOpen_canonical {d : Fin 16} {reason : ℕ} {us : ℕ} {s : State} (hs : Canonical s) :
    CanonicalNext (execDscRampOpen d reason us s) :=
  .of_next (.ite hs.endRamp hs)

theorem Canonical.abortEvacs {s : State} (hs : Canonical s) : Canonical s.abortEvacs :=
  have hs := hs.abandonMoves
  have hs := hs.update
  hs.foldl fun _ _ hs => .ite hs.complete hs.complete

theorem Canonical.abortLoads {s : State} (hs : Canonical s) : Canonical s.abortLoads :=
  hs.foldl fun _ _ hs => by
    split
    · exact hs.update.complete
    · exact hs.update

theorem Canonical.structInterrupt {s : State} (hs : Canonical s) : Canonical s.structInterrupt :=
  .ite hs.structFail hs

/-! ## Operations and commands: calibration, sideband, boot and faults -/

theorem Canonical.interruptCommands {s : State} (hs : Canonical s) : Canonical s.interruptCommands :=
  have hs := hs.update
  have hs := hs.foldl fun _ _ hs => hs.complete
  have hs := hs.structInterrupt.abortLoads.abortEvacs
  have hs := hs.update
  hs.foldl fun _ _ hs => hs.complete

theorem execFaultRecordWrite_canonical {s : State} (hs : Canonical s) : CanonicalNext (execFaultRecordWrite s) :=
  .ite (.of_next hs) (have hs := hs.update
  have hs := hs.wr
  .of_next (.ite hs.interruptCommands hs))

theorem execClearingStateEntry_canonical {s : State} (hs : Canonical s) : CanonicalNext (execClearingStateEntry s) :=
  .ite (have hs := hs.wr
  have hs := hs.update
  .of_next hs.interruptCommands.noteHeartbeat) (.of_next hs)

theorem execHeartbeatToggle_canonical {s : State} (hs : Canonical s) : CanonicalNext (execHeartbeatToggle s) :=
  .of_next (.ite hs.update hs.noteHeartbeat)

theorem Canonical.tamperCommands {s : State} (hs : Canonical s) : Canonical s.tamperCommands :=
  have hs := hs.update
  hs.foldl fun _ _ hs => hs.complete

theorem execTamperEvent_canonical {kind : ℕ} {s : State} (hs : Canonical s) : CanonicalNext (execTamperEvent kind s) :=
  .ite (.of_next hs) (have hs := hs.wr.wr
  have hs := Canonical.ite hs.firebreak hs
  have hs := hs.event.zeroiseNow
  .of_next hs.wr.structInterrupt.tamperCommands)

theorem execNonceExpiry_canonical {sideband : Bool} {s : State} (hs : Canonical s) : CanonicalNext (execNonceExpiry sideband s) :=
  .of_next hs.update

theorem execLockoutExpiry_canonical {sideband : Bool} {s : State} (hs : Canonical s) : CanonicalNext (execLockoutExpiry sideband s) :=
  .of_next hs.wr

theorem execSidebandRead_canonical {off count : ℕ} {s : State} (hs : Canonical s) : CanonicalNext (execSidebandRead off count s) :=
  .ite (.of_next hs) (.of_next (Canonical.answerWith (hs.foldl_snd (b := []) fun _ _ hs => .ite_snd hs.readWord hs)))

theorem execSidebandReset_canonical {s : State} (hs : Canonical s) : CanonicalNext (execSidebandReset s) :=
  .ite (.of_next hs.answerWith) (.of_next hs.mainReset.noteHeartbeat.answerWith)

theorem Canonical.spdm {s : State} {run : State → State} (hs : Canonical s) (hrun : ∀ s, Canonical s → Canonical (run s)) :
    Canonical (s.spdm run) :=
  .ite (hrun _ hs) hs.answerWith

theorem execGetVersion_canonical {s : State} (hs : Canonical s) : CanonicalNext (execGetVersion s) :=
  .of_next (hs.spdm fun _ hs => hs.answerWith)

theorem execGetCapabilities_canonical {s : State} (hs : Canonical s) : CanonicalNext (execGetCapabilities s) :=
  .of_next (hs.spdm fun _ hs => hs.answerWith)

theorem execNegotiateAlgorithms_canonical {offer : List Byte} {s : State} (hs : Canonical s) :
    CanonicalNext (execNegotiateAlgorithms offer s) :=
  .of_next (hs.spdm fun _ hs => hs.answerWith)

theorem execGetDigests_canonical {s : State} (hs : Canonical s) : CanonicalNext (execGetDigests s) :=
  .of_next (hs.spdm fun _ hs => hs.answerWith)

theorem execGetCertificate_canonical {off : ℕ} {len : ℕ} {s : State} (hs : Canonical s) :
    CanonicalNext (execGetCertificate off len s) :=
  .of_next (hs.spdm fun _ hs => hs.answerWith)

theorem Canonical.spdmSigned {s : State} {body : List Byte} (hs : Canonical s) : Canonical (s.spdmSigned body) :=
  .ite hs.answerWith hs.identitySign.answerWith

theorem execChallenge_canonical {nonce : List Byte} {s : State} (hs : Canonical s) : CanonicalNext (execChallenge nonce s) :=
  .of_next (hs.spdm fun _ hs => hs.spdmSigned)

theorem execGetMeasurements_canonical {index : ℕ} {signed : Bool} {nonce : List Byte} {s : State} (hs : Canonical s) :
    CanonicalNext (execGetMeasurements index signed nonce s) :=
  .of_next (hs.spdm fun _ hs => .ite hs.answerWith (.ite hs.spdmSigned hs.answerWith))

theorem execTapInstruction_canonical {ir : ℕ} {s : State} (hs : Canonical s) : CanonicalNext (execTapInstruction ir s) :=
  .ite (.of_next hs.update) (.of_next hs.update.event)

theorem Canonical.bootFuses {s : State} (hs : Canonical s) : Canonical s.bootFuses :=
  have hs := Canonical.ite (have hs := hs.wrs
  hs.update) hs
  have hs := hs.foldl fun _ _ hs => hs.wr
  have hs := hs.extendMr
  .ite hs hs.extendMr

theorem Canonical.raiseArb {s : State} {k : ℕ} {svn : ℕ} (hs : Canonical s) : Canonical (s.raiseArb k svn) :=
  .ite hs (have hs := hs.wr
  hs.update)

theorem Canonical.showEnt {s : State} {k : ℕ} {e : BootEnt} (hs : Canonical s) : Canonical (s.showEnt k e) :=
  hs.wrs

theorem Canonical.bootKind {l : List Byte} {s : State} {k : ℕ} (hs : Canonical s) : Canonical (State.bootKind l s k) :=
  have hs := Canonical.ite hs.raiseArb hs
  have hs := hs.update.showEnt
  have hs := hs.wrs
  hs.raise

theorem Canonical.bootRecord {s : State} (hs : Canonical s) : Canonical s.bootRecord :=
  have hs := hs.wrs
  have hs := hs.foldl fun _ _ hs => hs.bootKind
  .ite hs (have hs := hs.wr
  hs.update)

theorem Canonical.bootStructure {s : State} (hs : Canonical s) : Canonical s.bootStructure := by
  unfold State.bootStructure
  dsimp only
  split
  · exact hs
  · exact hs.stage

theorem Canonical.bootBoard {s : State} (hs : Canonical s) : Canonical s.bootBoard := by
  unfold State.bootBoard
  dsimp only
  split
  · exact hs
  · exact
      have hs := hs.foldl fun _ _ hs => hs.storeWord
      hs.extendMr

theorem Canonical.bootCal {s : State} (hs : Canonical s) : Canonical s.bootCal := by
  unfold State.bootCal
  dsimp only
  split
  · exact hs.extendMr.event
  · exact
      have hs := hs.extendMr
      have hs := hs.update
      have hs := hs.foldl fun _ _ hs => .ite hs.putUnit.setUnit hs
      (hs.foldl fun _ _ hs => hs.noteGroup).wrs

theorem Canonical.bootFirmware {s : State} {slot : ℕ} (hs : Canonical s) : Canonical (s.bootFirmware slot) := by
  unfold State.bootFirmware
  dsimp only
  exact
    .wr (.foldl (.foldl (by
      split
      · exact
          have ht := hs.extendMr.extendMr.extendMr.takePages
          ht.mems (Mem.wf_puts _ _ _ ht.canopy) ht.sdram ht.flash ht.host
      · exact hs.extendMr.extendMr.extendMr) fun _ _ hs => hs.modCore) fun _ _ hs => hs.wr)

theorem execBootRomStart_canonical {fails : ℕ} {s : State} (hs : Canonical s) : CanonicalNext (execBootRomStart fails s) := by
  unfold execBootRomStart
  dsimp only
  refine .ite ?_ ?_
  · exact .of_next hs
  · refine .ite ?_ ?_
    · exact .of_next hs.wr.update.bootFuses.stFail
    · split
      · exact .of_next hs.wr.update.bootFuses.wrs.update.bootRecord.wr
      · exact .of_next hs.wr.update.bootFuses.wrs.update.bootRecord.bootFirmware.bootCal.bootBoard.bootStructure

theorem Canonical.flashPuts {s : State} {a : ℕ} {l : List Byte} (hs : Canonical s) : Canonical (s.flashPuts a l) :=
  hs.withFlash (Mem.wf_puts _ _ _ hs.flash)

theorem Canonical.timerCheck {s : State} (hs : Canonical s) : Canonical s.timerCheck :=
  .ite (have hs := hs.wr
  hs.update) hs

theorem execBootRecordWritten_canonical {torn : Bool} {s : State} (hs : Canonical s) :
    CanonicalNext (execBootRecordWritten torn s) := by
  unfold execBootRecordWritten
  dsimp only
  split
  · exact .of_next hs
  · exact
      have hs := hs.flashErase
      .ite (.of_next hs.flashPuts) (have hs := have hs := hs.flashPuts
      hs.update
      have hs := hs.wrs
      have hs := hs.showEnt
      .ite (have hs := hs.wr
      .of_next hs.event.raiseArb.timerCheck) (.of_next hs))

theorem execConfirmationTimerExpiry_canonical {s : State} (hs : Canonical s) : CanonicalNext (execConfirmationTimerExpiry s) :=
  .ite (have hs := hs.mainReset
  .of_next hs.update) (.of_next hs)

theorem Canonical.roleFault {s : State} {id : ℕ} {addr : ℕ} (hs : Canonical s) : Canonical (s.roleFault id addr) :=
  hs.pwFault

theorem execGlbBootConfirm_canonical {req : Req} {w : Word} {s : State} (hs : Canonical s) :
    CanonicalNext (execGlbBootConfirm req w s) := by
  unfold execGlbBootConfirm
  split
  · exact .of_next hs.roleFault
  · exact .ite (.of_next hs.bootConfirm) (.of_next hs.coreTrap)
  · exact .of_next hs

theorem Canonical.updWrite {s : State} {req : Req} {addr : ℕ} {run : State → State} (hs : Canonical s)
    (hrun : ∀ s, Canonical s → Canonical (run s)) : Canonical (s.updWrite req addr run) := by
  unfold State.updWrite
  split
  · exact .ite (hrun _ hs).retire hs.roleFault
  · exact hs.coreTrap
  · exact hs

theorem execDownload_canonical {req : Req} {kind : ℕ} {src : Src} {len : ℕ} {s : State} (hs : Canonical s) :
    CanonicalNext (execDownload req kind src len s) :=
  .of_next (hs.updWrite fun _ hs => hs.wrP.wr.updGo)

theorem execVerify_canonical {req : Req} {kind : ℕ} {s : State} (hs : Canonical s) : CanonicalNext (execVerify req kind s) :=
  .of_next (hs.updWrite fun _ hs => hs.updGo)

theorem execActivate_canonical {req : Req} {kind : ℕ} {s : State} (hs : Canonical s) : CanonicalNext (execActivate req kind s) :=
  .of_next (hs.updWrite fun _ hs => hs.updGo)

theorem execAbandon_canonical {req : Req} {kind : ℕ} {s : State} (hs : Canonical s) : CanonicalNext (execAbandon req kind s) :=
  .of_next (hs.updWrite fun _ hs => hs.updGo)

theorem execUpdateOperationEnd_canonical {flashOk : Bool} {s : State} (hs : Canonical s) :
    CanonicalNext (execUpdateOperationEnd flashOk s) := by
  unfold execUpdateOperationEnd
  dsimp only
  split
  · exact .of_next hs
  · split
    · exact .of_next hs.updEnd
    · exact .ite (.of_next hs.flashPuts.updEnd) (.of_next hs.updEnd)
  · exact .ite (.of_next hs.updEnd) (.of_next hs.updEnd)
  · exact
      .ite (.ite (.of_next hs) (.of_next hs.updEnd)) (have hs := hs.update
      .of_next hs.updEnd)

theorem execDscFltLHigh_canonical {d : Fin 16} {s : State} (hs : Canonical s) : CanonicalNext (execDscFltLHigh d s) :=
  .of_next hs.wr

theorem execComparatorLevelFalse_canonical {d : Fin 16} {which : Fin 4} {s : State} (hs : Canonical s) :
    CanonicalNext (execComparatorLevelFalse d which s) := by
  unfold execComparatorLevelFalse
  dsimp only
  exact
    have hs := hs.wr
    have hs := Canonical.ite hs.modPgn hs
    .of_next (.ite hs.dualOff hs)

theorem execQualifierTimeReached_canonical {e : Fin 4} {s : State} (hs : Canonical s) : CanonicalNext (execQualifierTimeReached e s) :=
  .ite (.of_next hs.modTrg.qualEvent) (.of_next hs)

theorem execVstbyLoss_canonical {s : State} (hs : Canonical s) : CanonicalNext (execVstbyLoss s) :=
  .of_next hs.update.understoryLost

theorem execVstbyReturn_canonical {s : State} (hs : Canonical s) : CanonicalNext (execVstbyReturn s) :=
  .of_next hs.update

theorem execAlertNHigh_canonical {sub : Fin 4} {s : State} (hs : Canonical s) : CanonicalNext (execAlertNHigh sub s) :=
  .ite (.of_next hs) (have hs := hs.update
  have hs := hs.modSub
  .of_next hs.incSat.event)

theorem execPciePerstL_canonical {level : Bool} {s : State} (hs : Canonical s) : CanonicalNext (execPciePerstL level s) :=
  .ite (.of_next hs.update) (have hs := hs.flr
  .of_next hs.update)

theorem execCalibrationRecordWritten_canonical {ok : Bool} {s : State} (hs : Canonical s) :
    CanonicalNext (execCalibrationRecordWritten ok s) := by
  unfold execCalibrationRecordWritten
  dsimp only
  split
  · exact .of_next hs
  · split
    · exact
        have hs := hs.update.flashErase.flashPuts
        have hs := hs.update
        .of_next hs.wr.event.calComplete.calNext
    · exact .of_next hs.update.event.calComplete.calNext

theorem exec_canonical {i : Instr} {s : State} (hs : Canonical s) : CanonicalNext (exec i s) := by
  unfold exec
  split
  · exact execBurst_canonical hs
  · exact execStop_canonical hs
  · exact execAbort_canonical hs
  · exact execNop_canonical hs
  · exact execStructLoad_canonical hs
  · exact execSegLoad_canonical hs
  · exact execSegUnload_canonical hs
  · exact execCodeLoad_canonical hs
  · exact execEvacuate_canonical hs
  · exact execScratchClaim_canonical hs
  · exact execScratchRelease_canonical hs
  · exact execCaptureRelease_canonical hs
  · exact execPlacementReport_canonical hs
  · exact execSnapshot_canonical hs
  · exact execCalibrate_canonical hs
  · exact execTaskCreate_canonical hs
  · exact execTaskFill_canonical hs
  · exact execTaskCancel_canonical hs
  · exact execAuthBegin_canonical hs
  · exact execAuthFinish_canonical hs
  · exact execLogout_canonical hs
  · exact execProvision_canonical hs
  · exact execKeyLoad_canonical hs
  · exact execKeyErase_canonical hs
  · exact execZeroise_canonical hs
  · exact execRelease_canonical hs
  · exact execQuote_canonical hs
  · exact execSelfTest_canonical hs
  · exact execDebugUnlock_canonical hs
  · exact execRandom_canonical hs
  · exact execBurstAdmission_canonical hs
  · exact execGrantRaise_canonical hs
  · exact execVfabRampDone_canonical hs
  · exact execVfabSettleExpiry_canonical hs
  · exact execPaceRingWindow_canonical hs
  · exact execFabHoldoffExpiry_canonical hs
  · exact execBurstArmed_canonical hs
  · exact execBurstStart_canonical hs
  · exact execGranuleFetch_canonical hs
  · exact execGranuleArrival_canonical hs
  · exact execRun_canonical hs
  · exact execRpt_canonical hs
  · exact execLoop_canonical hs
  · exact execLend_canonical hs
  · exact execMloop_canonical hs
  · exact execMend_canonical hs
  · exact execCall_canonical hs
  · exact execRet_canonical hs
  · exact execJseg_canonical hs
  · exact execJmp_canonical hs
  · exact execBrc_canonical hs
  · exact execClrf_canonical hs
  · exact execSig_canonical hs
  · exact execSigCheckDone_canonical hs
  · exact execHalt_canonical hs
  · exact execIllegalInstruction_canonical hs
  · exact execHostStreamAnnounceMatch_canonical hs
  · exact execDecisionResultsReady_canonical hs
  · exact execCycleCommit_canonical hs
  · exact execVoidLimitReached_canonical hs
  · exact execCycleStart_canonical hs
  · exact execCycleResult_canonical hs
  · exact execAbortEffect_canonical hs
  · exact execStopEffect_canonical hs
  · exact execCaptureDrain_canonical hs
  · exact execOutcomeRecordWrite_canonical hs
  · exact execStructureStaged_canonical hs
  · exact execStructureValidated_canonical hs
  · exact execDryRunPlacementDone_canonical hs
  · exact execQuiesceComplete_canonical hs
  · exact execParkTimeout_canonical hs
  · exact execStructureSwap_canonical hs
  · exact execStructureScrub_canonical hs
  · exact execSymMapWrite_canonical hs
  · exact execSymScrub_canonical hs
  · exact execTmgPeriodLoWrite_canonical hs
  · exact execTmgPeriodHiWrite_canonical hs
  · exact execTimingTableWrite_canonical hs
  · exact execTmgModDelayWrite_canonical hs
  · exact execTmgScrub_canonical hs
  · exact execPecGo_canonical hs
  · exact execPecTransactionDone_canonical hs
  · exact execSyncEpochReceive_canonical hs
  · exact execSyncEpochDrive_canonical hs
  · exact execTrigInEdge_canonical hs
  · exact execHqStrmCfgWrite_canonical hs
  · exact execHqStrmPut_canonical hs
  · exact execHqStrmAnnounce_canonical hs
  · exact execSegmentCopyDone_canonical hs
  · exact execMoveCopyDone_canonical hs
  · exact execMoveSwitch_canonical hs
  · exact execCorePark_canonical hs
  · exact execCodePageMove_canonical hs
  · exact execForQueryWrite_canonical hs
  · exact execForSdramSplitWrite_canonical hs
  · exact execCapChmaskWrite_canonical hs
  · exact execCapSnapCmd_canonical hs
  · exact execSnapshotTimePoint_canonical hs
  · exact execTrgArm_canonical hs
  · exact execTrgDisarm_canonical hs
  · exact execTrgForce_canonical hs
  · exact execTrgSample_canonical hs
  · exact execTrgRecordComplete_canonical hs
  · exact execTrgHoldoffExpiry_canonical hs
  · exact execTrgTimeoutExpiry_canonical hs
  · exact execTrgRead_canonical hs
  · exact execTmuArm_canonical hs
  · exact execTmuDisarm_canonical hs
  · exact execTmuClose_canonical hs
  · exact execTmuEdge_canonical hs
  · exact execTmuGateOpen_canonical hs
  · exact execTmuGateExpiry_canonical hs
  · exact execTmuResultsFinal_canonical hs
  · exact execTmuResCountRead_canonical hs
  · exact execTmuRead_canonical hs
  · exact execTmuBinDataRead_canonical hs
  · exact execCodeDensityCalibration_canonical hs
  · exact execCodeDensityDone_canonical hs
  · exact execDriftQualified_canonical hs
  · exact execDscModeRequest_canonical hs
  · exact execDscCommit_canonical hs
  · exact execDscRcBindWrite_canonical hs
  · exact execLoopSample_canonical hs
  · exact execLoopComputeDone_canonical hs
  · exact execDscMarkerDelivery_canonical hs
  · exact execRcPassComplete_canonical hs
  · exact execDscScrub_canonical hs
  · exact execTrcCtrlWrite_canonical hs
  · exact execDscFltLLow_canonical hs
  · exact execSwitchingPeriodStart_canonical hs
  · exact execPccTrip_canonical hs
  · exact execWindowHighTrip_canonical hs
  · exact execWindowLowTrip_canonical hs
  · exact execOvpTrip_canonical hs
  · exact execDscOverVoltage_canonical hs
  · exact execCmpStGo_canonical hs
  · exact execCmpSelfCheckDone_canonical hs
  · exact execResidualWatchTick_canonical hs
  · exact execSchNewCommit_canonical hs
  · exact execSchTake_canonical hs
  · exact execTaskDispatch_canonical hs
  · exact execSchDone_canonical hs
  · exact execSchFill_canonical hs
  · exact execSchCancel_canonical hs
  · exact execSchKick_canonical hs
  · exact execSchWdogWrite_canonical hs
  · exact execWatchdogExpiry_canonical hs
  · exact execMachineTimerPending_canonical hs
  · exact execSchScrub_canonical hs
  · exact execCoreMemoryAccess_canonical hs
  · exact execSqTailDoorbell_canonical hs
  · exact execCommandFetch_canonical hs
  · exact execHostReadResponse_canonical hs
  · exact execCompletionWrite_canonical hs
  · exact execCqHeadDoorbell_canonical hs
  · exact execQueueCfgWrite_canonical hs
  · exact execCoalescingTimerExpiry_canonical hs
  · exact execFunctionLevelReset_canonical hs
  · exact execPowerStateChange_canonical hs
  · exact execHqWseqRead_canonical hs
  · exact execHqPwfPop_canonical hs
  · exact execCanopyWindowWrite_canonical hs
  · exact execCanopyWindowRead_canonical hs
  · exact execSdramWindowWrite_canonical hs
  · exact execSdramWindowRead_canonical hs
  · exact execRegisterWrite_canonical hs
  · exact execPairLowRead_canonical hs
  · exact execPairLowWrite_canonical hs
  · exact execFabLockWrite_canonical hs
  · exact execFrameSend_canonical hs
  · exact execFrameReceive_canonical hs
  · exact execTokenGrove_canonical hs
  · exact execTokenArmed_canonical hs
  · exact execTokenStart_canonical hs
  · exact execTokenSnapshot_canonical hs
  · exact execTokenEcho_canonical hs
  · exact execTokenIdent_canonical hs
  · exact execTokenDesc_canonical hs
  · exact execMsgReceive_canonical hs
  · exact execPeerReceive_canonical hs
  · exact execNakReceive_canonical hs
  · exact execMflMsgSend_canonical hs
  · exact execMflMsgPop_canonical hs
  · exact execMflCfgWrite_canonical hs
  · exact execFomWindow_canonical hs
  · exact execLinkRetrain_canonical hs
  · exact execLinkUp_canonical hs
  · exact execLinkFailed_canonical hs
  · exact execLinkBringupRetry_canonical hs
  · exact execLinkIdleEntry_canonical hs
  · exact execLinkIdleExit_canonical hs
  · exact execTimRateWrite_canonical hs
  · exact execRateApply_canonical hs
  · exact execTimStepHiWrite_canonical hs
  · exact execStepApply_canonical hs
  · exact execTimCtrlWrite_canonical hs
  · exact execTimeRequestSend_canonical hs
  · exact execTimeRequestReceive_canonical hs
  · exact execTimeReplyReceive_canonical hs
  · exact execEthFrameReceive_canonical hs
  · exact execEthFrameTransmit_canonical hs
  · exact execTimTxtsPop_canonical hs
  · exact execDmcInit_canonical hs
  · exact execDmcTrainingDone_canonical hs
  · exact execDmcRetrain_canonical hs
  · exact execSdramRequest_canonical hs
  · exact execCommandSlot_canonical hs
  · exact execReadDataReturn_canonical hs
  · exact execAlertN_canonical hs
  · exact execRefreshInterval_canonical hs
  · exact execMr4Read_canonical hs
  · exact execZqCalibration_canonical hs
  · exact execDqsOscillatorRead_canonical hs
  · exact execRowIdleClose_canonical hs
  · exact execPowerDownEntry_canonical hs
  · exact execRefclkMissingEdge_canonical hs
  · exact execReferenceMonitorWindow_canonical hs
  · exact execOscillatorSwitchover_canonical hs
  · exact execClkReturnWrite_canonical hs
  · exact execFrequencyLock_canonical hs
  · exact execReturnComplete_canonical hs
  · exact execOscillatorMonitorWindow_canonical hs
  · exact execForceIntWrite_canonical hs
  · exact execClkoutCfgWrite_canonical hs
  · exact execVinSample_canonical hs
  · exact execVinCapRise_canonical hs
  · exact execVinUndervoltage_canonical hs
  · exact execVinOvervoltage_canonical hs
  · exact execInputLimitExpiry_canonical hs
  · exact execRailOutOfRange_canonical hs
  · exact execRegulatorUpdateLost_canonical hs
  · exact execTemperatureUpdate_canonical hs
  · exact execThermalFlagSet_canonical hs
  · exact execThermalFlagClear_canonical hs
  · exact execLimitTimerExpiry_canonical hs
  · exact execWearLedgerCopy_canonical hs
  · exact execWearLedgerFlash_canonical hs
  · exact execVinRise_canonical hs
  · exact execRailGood_canonical hs
  · exact execPowerDown_canonical hs
  · exact execResetL_canonical hs
  · exact execUnderstoryTick_canonical hs
  · exact execPowerupCalibration_canonical hs
  · exact execCalibrationRunEnd_canonical hs
  · exact execFaultOccurrence_canonical hs
  · exact execDualSourceActive_canonical hs
  · exact execDualLineMismatch_canonical hs
  · exact execCollectorScrub_canonical hs
  · exact execCollectorLineTest_canonical hs
  · exact execFltForceWrite_canonical hs
  · exact execFirebreakStart_canonical hs
  · exact execDscRampOpen_canonical hs
  · exact execFaultRecordWrite_canonical hs
  · exact execClearingStateEntry_canonical hs
  · exact execHeartbeatToggle_canonical hs
  · exact execTamperEvent_canonical hs
  · exact execNonceExpiry_canonical hs
  · exact execLockoutExpiry_canonical hs
  · exact execSidebandRead_canonical hs
  · exact execSidebandReset_canonical hs
  · exact execGetVersion_canonical hs
  · exact execGetCapabilities_canonical hs
  · exact execNegotiateAlgorithms_canonical hs
  · exact execGetDigests_canonical hs
  · exact execGetCertificate_canonical hs
  · exact execChallenge_canonical hs
  · exact execGetMeasurements_canonical hs
  · exact execTapInstruction_canonical hs
  · exact execBootRomStart_canonical hs
  · exact execBootRecordWritten_canonical hs
  · exact execConfirmationTimerExpiry_canonical hs
  · exact execGlbBootConfirm_canonical hs
  · exact execDownload_canonical hs
  · exact execVerify_canonical hs
  · exact execActivate_canonical hs
  · exact execAbandon_canonical hs
  · exact execUpdateOperationEnd_canonical hs
  · exact execDscFltLHigh_canonical hs
  · exact execComparatorLevelFalse_canonical hs
  · exact execQualifierTimeReached_canonical hs
  · exact execVstbyLoss_canonical hs
  · exact execVstbyReturn_canonical hs
  · exact execAlertNHigh_canonical hs
  · exact execPciePerstL_canonical hs
  · exact execCalibrationRecordWritten_canonical hs

theorem Canonical.blankEnds {s : State} (hs : Canonical s) : Canonical s.blankEnds :=
  hs.foldl fun _ _ hs => hs.blankEnd

theorem Canonical.sampleTrig {s : State} (hs : Canonical s) : Canonical s.sampleTrig :=
  have hs := hs.update
  hs.foldl fun _ _ hs => .ite (hs.foldl fun _ _ hs => .ite hs.startEvent hs) hs

theorem Canonical.clockTick {s : State} (hs : Canonical s) : Canonical s.clockTick :=
  .ite hs (have hs := hs.update.blankEnds
  .ite hs.sampleTrig.evacCheck hs)

theorem tick_canonical {s : State} (hs : Canonical s) : Canonical (tick s) :=
  hs.clockTick

theorem step_canonical {s : State} (hs : Canonical s) : CanonicalNext (step s) := by
  unfold step
  split
  · exact .of_next (tick_canonical hs)
  · exact exec_canonical hs.update

end Sys2Proof.Machine

open Sys2Proof Sys2Proof.Machine

/-- Settles O59: canonical form is kept by the clock tick and by every command. -/
theorem everyStepKeepsCanonicalForm : Obligations.EveryStepKeepsCanonicalForm :=
  fun _ t hs hst => ((step_canonical ⟨hs⟩).next t hst).wf

end

section
/-! The queue of commands and the state at reset (O56, O57, O58). -/

set_option Elab.async false

namespace Sys2Proof.Machine

/-- A state without VIN, in which no clock runs. -/
def unpowered : State := { State.reset with power := { State.reset.power with present := false } }

/-- Without VIN a step on an empty queue changes nothing: the clock does not count. -/
theorem step_unpowered : step unpowered = .next unpowered := rfl

theorem unpowered_blanked (d : Fin 16) : unpowered.dscs[d].pgn.blanked = false := by revert d; decide

end Sys2Proof.Machine

open Sys2Proof Sys2Proof.Machine

/-- Refutes O56: without VIN a step on an empty queue leaves the raw count at 0, which the second clause has at 1. -/
theorem not_stepRunsFront : ¬ Obligations.StepRunsFront := by
  unfold Obligations.StepRunsFront
  rintro ⟨_, htick, _⟩
  have h := htick unpowered rfl (by decide) unpowered_blanked
  rw [step_unpowered] at h
  have hraw : unpowered.tim.raw = (unpowered.tim.raw + 1) % 2 ^ 64 := congrArg (fun s : State => s.tim.raw) (Host.Outcome.next.inj h)
  exact absurd hraw (by decide)

/-- Settles O58: at reset no register file and no memory lists anything. -/
theorem canonicalAtReset : Obligations.CanonicalAtReset := by
  unfold Obligations.CanonicalAtReset
  decide

/-- Settles O57: the parts of the state at reset are read off it, register by register and unit by unit. -/
theorem resetState : Obligations.ResetState := by
  unfold Obligations.ResetState
  have hfiles (b : Blk) : State.reset.regs.get b = [] := by cases b <;> rfl
  have hthreads : ∀ t : Fin 32, State.reset.threads[t].members = 0 ∧ State.reset.rd (F.SEQ_STATUS_STATE t) = 0 := by decide
  have hchans : ∀ c : Fin 128, State.reset.chans[c].drv = false ∧ State.reset.chans[c].den = false := by decide
  exact ⟨rfl, rfl, rfl, rfl, hfiles, State.reset_word, fun a => ⟨rfl, rfl⟩, fun a => rfl, by decide, by decide, by decide, by decide,
    by decide, by decide, hthreads, by decide, hchans, by decide, by decide⟩
end

section
/-! Sequencer threads (R93 to R105): what RUN and RPT, loops, calls, jumps and decisions do, and the obligations O1 to O4. -/

set_option Elab.async false

namespace Sys2Proof.Machine

theorem upd_other_val {α : Type} {n : Nat} (v : Vector α n) {i j : Fin n} (f : α → α) (h : j ≠ i) : (upd v i f)[j.1] = v[j.1] :=
  upd_other v i j f h

/-! ## Frames along a run of operations -/

theorem RegsSame.andWr {out : List Nat} {s t : State} (h : RegsSame out s t) {f : Fld} (hf : f.addr ∈ out) {v : Nat} :
    RegsSame out s (t.wr f v) := h.trans (.wr _ _ _ hf)

theorem RegsSame.andWrs {out : List Nat} {s t : State} (h : RegsSame out s t) {l : List (Fld × Nat)} (hl : ∀ p ∈ l, p.1.addr ∈ out) :
    RegsSame out s (t.wrs l) := h.trans (.wrs _ _ hl)

theorem RegsSame.andEvent {out : List Nat} {s t : State} (h : RegsSame out s t) {r : EvReg} (hr : ∀ a ∈ evOut r, a ∈ out) {i : Nat} :
    RegsSame out s (t.event r i) := h.trans ((State.event_regs _ _ _).mono hr)

theorem RegsSame.andRegs {out : List Nat} {s t u : State} (h : RegsSame out s t) (hu : u.regs = t.regs) : RegsSame out s u :=
  h.trans (.of_regs _ hu)

/-- Registers and memories as in `t`, which is quiet apart from the addresses listed. -/
theorem Quiet.andSame {out : List Nat} {s t u : State} (h : Quiet out s t) (hr : u.regs = t.regs) (hc : u.canopy = t.canopy)
    (hd : u.sdram = t.sdram) (hf : u.flash = t.flash) (hh : u.host = t.host) : Quiet out s u :=
  ⟨h.1.andRegs hr, h.2.trans (.of_eq hc hd hf hh)⟩

theorem Quiet.andWr {out : List Nat} {s t : State} (h : Quiet out s t) {f : Fld} (hf : f.addr ∈ out) {v : Nat} : Quiet out s (t.wr f v) :=
  ⟨h.1.andWr hf, h.2.trans (.of_eq rfl rfl rfl rfl)⟩

theorem Quiet.andWrs {out : List Nat} {s t : State} (h : Quiet out s t) {l : List (Fld × Nat)} (hl : ∀ p ∈ l, p.1.addr ∈ out) :
    Quiet out s (t.wrs l) :=
  ⟨h.1.andWrs hl, h.2.trans (.of_eq (by simp) (by simp) (by simp) (by simp))⟩

theorem Quiet.andEvent {out : List Nat} {s t : State} (h : Quiet out s t) {r : EvReg} (hr : ∀ a ∈ evOut r, a ∈ out) {i : Nat} :
    Quiet out s (t.event r i) :=
  ⟨h.1.andEvent hr, h.2.trans (State.event_event _ _ _).bytes⟩

theorem Quiet.andModThread {out : List Nat} {s t : State} (h : Quiet out s t) {i : Fin 32} {f : Thread → Thread} :
    Quiet out s (t.modThread i f) := h.andSame rfl rfl rfl rfl rfl

theorem Quiet.andModGrove {out : List Nat} {s t : State} (h : Quiet out s t) {i : Fin 32} {f : Grove → Grove} :
    Quiet out s (t.modGrove i f) := h.andSame rfl rfl rfl rfl rfl

/-! ## RUN and RPT (R96) -/

theorem seqPc_notMem_fillOut (t : Fin 32) : (F.SEQ_PC_WORD t).addr ∉ fillOut := by
  simp only [fillOut, F.FAB_FILL_FILL, F.SEQ_PC_WORD, List.mem_map, List.mem_range, not_exists, not_and]
  omega

theorem State.fetchWords_threads (s : State) (t : Fin 32) (n : Nat) : (s.fetchWords t n).threads = s.threads := rfl

/-- What RUN and RPT do at a word without error: the position, the line number and the word counter move on. -/
theorem State.emit_ready {s : State} {t : Fin 32} {rpt : Bool} {ts : Nat} {csup : Bool} {mark n : Nat} {x : Seg}
    (hr : s.readyFor t (if rpt then .rpt ts csup mark n else .run ts csup mark n) x) (h0 : 0 < n) (hn : n < 2 ^ 32)
    (hl : s.threads[t].pos + (if rpt then 1 else n) ≤ x.lines) :
    ∀ u, u = s.emit t rpt ts csup mark n →
      u.threads[t].line = s.threads[t].line + n ∧ u.threads[t].pos = s.threads[t].pos + (if rpt then 1 else n) ∧
      u.threads[t].stack = s.threads[t].stack ∧ u.rd (F.SEQ_PC_WORD t) = (s.rd (F.SEQ_PC_WORD t) + 1) % 2 ^ 24 ∧
      (∀ v, v ≠ t → u.threads[v] = s.threads[v]) ∧ Quiet ((F.SEQ_PC_WORD t).addr :: fillOut) s u := by
  rintro u rfl
  unfold State.emit
  rw [State.decode_ready _ _ _ _ _ hr]
  have hbad : ¬ (n = 0 ∨ 2 ^ 32 ≤ n ∨ x.lines < s.threads[t].pos + (if rpt then 1 else n)) := by omega
  dsimp only
  rw [State.fetchWords_threads, if_neg hbad]
  generalize hv : State.advance _ t 1 = v
  obtain ⟨e, hthreads⟩ : ∃ e : Emit, v.threads = upd s.threads t fun k =>
      { k with todo := k.todo ++ [e], pos := k.pos + (if rpt then 1 else n), line := k.line + n, segsNext := false, resNext := false, marksNext := [] } :=
    ⟨_, by rw [← hv, State.advance, State.goWord, State.wr_threads, State.addAdvance_frame]; rfl⟩
  have hpc : v.rd (F.SEQ_PC_WORD t) = (s.rd (F.SEQ_PC_WORD t) + 1) % 2 ^ 24 := by
    rw [← hv, State.advance, State.goWord, State.rd_wr_same _ _ _ (by simp [F.SEQ_PC_WORD]), State.addAdvance_frame]; rfl
  have hq : Quiet ((F.SEQ_PC_WORD t).addr :: fillOut) s v := by
    rw [← hv, State.advance, State.goWord, State.addAdvance_frame]
    exact ⟨.andWr (.of_regs _ rfl) (List.mem_cons_self ..), .of_eq rfl rfl rfl rfl⟩
  obtain ⟨hframe, hline, hpos, hstack, hother, hregs⟩ := State.pushLines_frame t v
  refine ⟨?_, ?_, ?_, ?_, fun w hw => ?_, ?_⟩
  · rw [hline, hthreads, upd_same]
  · rw [hpos, hthreads, upd_same]
  · rw [hstack, hthreads, upd_same]
  · rw [hregs.rd _ (seqPc_notMem_fillOut t), hpc]
  · rw [hother w hw, hthreads, upd_other _ _ _ _ hw]
  · refine hq.trans ⟨hregs.mono fun _ h => List.mem_cons_of_mem _ h, ?_⟩
    rw [hframe]
    exact .of_eq rfl rfl rfl rfl

/-- Settles O1: a ready RUN and a ready RPT by what `emit` does, and a thread that does not decode by `decode_idle`. -/
theorem emissionAdvances : Obligations.EmissionAdvances := by
  unfold Obligations.EmissionAdvances
  refine ⟨fun t ts csup mark n s x hr h0 hn hl => ?_, fun t ts csup mark n s x hr h0 hn hl => ?_, fun t ts csup mark n s hs => ?_⟩
  · exact ⟨_, rfl, State.emit_ready (rpt := false) hr h0 hn hl _ rfl⟩
  · exact ⟨_, rfl, State.emit_ready (rpt := true) hr h0 hn hl _ rfl⟩
  · exact ⟨congrArg _ (State.decode_idle _ _ _ _ hs), congrArg _ (State.decode_idle _ _ _ _ hs)⟩
end Sys2Proof.Machine
end

section
set_option Elab.async false

namespace Sys2Proof.Machine

theorem seqPc_notMem_pass (t : Fin 32) (l : List Nat) :
    (F.SEQ_PC_WORD t).addr ∉ (F.SEQ_STATUS_DEPTH t).addr :: l.map fun i => (F.SEQ_PASS_PASSES t i).addr := by
  simp only [F.SEQ_PC_WORD, F.SEQ_STATUS_DEPTH, F.SEQ_PASS_PASSES, List.mem_cons, List.mem_map, not_or, not_exists, not_and]
  refine ⟨by omega, fun i _ => by omega⟩

/-- Replacing the control stack leaves the word counter. -/
theorem State.setStack_pc (s : State) (t : Fin 32) (l : List StackEnt) :
    (s.setStack t l).rd (F.SEQ_PC_WORD t) = s.rd (F.SEQ_PC_WORD t) := by
  refine RegsSame.rd (out := (F.SEQ_STATUS_DEPTH t).addr :: (List.range 16).map fun i => (F.SEQ_PASS_PASSES t i).addr) ?_ _
    (seqPc_notMem_pass t _)
  refine RegsSame.trans (t := (s.modThread t fun k => { k with stack := l }).wr (F.SEQ_STATUS_DEPTH t) l.length)
    ((RegsSame.of_regs _ rfl).trans (.wr _ _ _ (List.mem_cons_self ..))) (foldl_regsSame _ _ _ fun s i hi => .wr _ _ _ ?_)
  exact List.mem_cons_of_mem _ (List.mem_map.2 ⟨i, hi, rfl⟩)

@[simp] theorem State.setStack_threads (s : State) (t : Fin 32) (l : List StackEnt) :
    (s.setStack t l).threads = upd s.threads t fun k => { k with stack := l } := by rw [State.setStack_frame]

theorem State.setStack_quiet (s : State) (t : Fin 32) (l : List StackEnt) : Quiet (stackOut t) s (s.setStack t l) :=
  ⟨State.setStack_regs s t l, by rw [State.setStack_frame]; exact .of_eq rfl rfl rfl rfl⟩

theorem seqPc_mem_stackOut (t : Fin 32) : (F.SEQ_PC_WORD t).addr ∈ stackOut t := List.mem_cons_self ..

theorem State.rd_wr_seqPc (s : State) (t : Fin 32) (v : Nat) : (s.wr (F.SEQ_PC_WORD t) v).rd (F.SEQ_PC_WORD t) = v % 2 ^ 24 :=
  State.rd_wr_same s (F.SEQ_PC_WORD t) v (by simp [F.SEQ_PC_WORD])

theorem State.goWord_pc (s : State) (t : Fin 32) (w : Nat) : (s.goWord t w).rd (F.SEQ_PC_WORD t) = w % 2 ^ 24 := State.rd_wr_seqPc ..

@[simp] theorem State.advance_threads (s : State) (t : Fin 32) (n : Nat) : (s.advance t n).threads = s.threads := (rfl)

theorem State.advance_pc (s : State) (t : Fin 32) (n : Nat) :
    (s.advance t n).rd (F.SEQ_PC_WORD t) = (s.rd (F.SEQ_PC_WORD t) + n) % 2 ^ 24 := State.rd_wr_seqPc ..

theorem Quiet.andAdvance {out : List Nat} {s u : State} (h : Quiet out s u) {t : Fin 32} (ht : (F.SEQ_PC_WORD t).addr ∈ out) {n : Nat} :
    Quiet out s (u.advance t n) := h.andWr ht

/-- The place that a thread goes to: segment, generation and word. -/
theorem State.wrs_place (s : State) (t : Fin 32) (seg gen word : Nat) :
    let u := s.wrs [(F.SEQ_SEG_SEG t, seg), (F.SEQ_SEG_GEN t, gen), (F.SEQ_PC_WORD t, word)]
    u.rd (F.SEQ_SEG_SEG t) = seg % 2 ^ 16 ∧ u.rd (F.SEQ_SEG_GEN t) = gen % 2 ^ 8 ∧ u.rd (F.SEQ_PC_WORD t) = word % 2 ^ 24 := by
  have hseg (s : State) (v : Nat) : (s.wr (F.SEQ_PC_WORD t) v).rd (F.SEQ_SEG_SEG t) = s.rd (F.SEQ_SEG_SEG t) :=
    State.rd_wr_other _ _ _ _ (.inl (by simp only [F.SEQ_SEG_SEG, F.SEQ_PC_WORD]; omega))
  have hgen (s : State) (v : Nat) : (s.wr (F.SEQ_PC_WORD t) v).rd (F.SEQ_SEG_GEN t) = s.rd (F.SEQ_SEG_GEN t) :=
    State.rd_wr_other _ _ _ _ (.inl (by simp only [F.SEQ_SEG_GEN, F.SEQ_PC_WORD]; omega))
  have hbeside (s : State) (v : Nat) : (s.wr (F.SEQ_SEG_GEN t) v).rd (F.SEQ_SEG_SEG t) = s.rd (F.SEQ_SEG_SEG t) :=
    State.rd_wr_beside _ _ _ _ rfl rfl (by simp [F.SEQ_SEG_GEN]) (by simp [F.SEQ_SEG_GEN, F.SEQ_SEG_SEG])
  simp only [State.wrs, List.foldl_cons, List.foldl_nil]
  refine ⟨?_, ?_, State.rd_wr_seqPc ..⟩
  · rw [hseg, hbeside, State.rd_wr_same _ _ _ (by simp [F.SEQ_SEG_SEG])]; rfl
  · rw [hgen, State.rd_wr_same _ _ _ (by simp [F.SEQ_SEG_GEN])]; rfl

/-- The addresses of a thread's place. -/
def placeOut (t : Fin 32) : List Nat := [(F.SEQ_SEG_SEG t).addr, (F.SEQ_PC_WORD t).addr]

theorem RegsSame.wrs_place (s : State) (t : Fin 32) (seg gen word : Nat) :
    RegsSame (placeOut t) s (s.wrs [(F.SEQ_SEG_SEG t, seg), (F.SEQ_SEG_GEN t, gen), (F.SEQ_PC_WORD t, word)]) :=
  .wrs _ _ (by simp [placeOut, F.SEQ_SEG_SEG, F.SEQ_SEG_GEN])

theorem placeOut_sub (t : Fin 32) : ∀ a ∈ placeOut t, a ∈ (F.SEQ_SEG_SEG t).addr :: stackOut t := by
  simp [placeOut, stackOut]


theorem State.goTo_threads (s : State) (t : Fin 32) (seg gen word pos : Nat) : (s.goTo t seg gen word pos).threads =
    upd s.threads t fun k => { k with pos := pos, visit := k.visits, visits := k.visits + 1 } := by
  rw [State.goTo, State.wrs_threads]; rfl

theorem State.goTo_quiet (s : State) (t : Fin 32) (seg gen word pos : Nat) : Quiet (placeOut t) s (s.goTo t seg gen word pos) :=
  ⟨(RegsSame.of_regs _ rfl).trans (.wrs_place _ t seg gen word), .of_eq (by simp [State.goTo]) (by simp [State.goTo]) (by simp [State.goTo])
    (by simp [State.goTo])⟩

theorem State.goTo_place (s : State) (t : Fin 32) (seg gen word pos : Nat) :
    (s.goTo t seg gen word pos).rd (F.SEQ_SEG_SEG t) = seg % 2 ^ 16 ∧ (s.goTo t seg gen word pos).rd (F.SEQ_SEG_GEN t) = gen % 2 ^ 8 ∧
      (s.goTo t seg gen word pos).rd (F.SEQ_PC_WORD t) = word % 2 ^ 24 := State.wrs_place ..

theorem Quiet.of_goTo {s u : State} {t : Fin 32} {seg gen word pos : Nat} (h : Quiet (stackOut t) s u) :
    Quiet ((F.SEQ_SEG_SEG t).addr :: stackOut t) s (u.goTo t seg gen word pos) :=
  (h.mono fun _ h => List.mem_cons_of_mem _ h).trans ((u.goTo_quiet t seg gen word pos).mono (placeOut_sub t))

/-- A ready instruction acts on a state whose registers, threads and memories are those before it was fetched. -/
theorem State.decode_fetched {s : State} {t : Fin 32} {op : SeqOp} {x : Seg} (hr : s.readyFor t op x) :
    ∃ v : State, (∀ act, s.decode t op act = act v x) ∧ v.threads = s.threads ∧ (∀ f, v.rd f = s.rd f) ∧ v.forest = s.forest ∧ Quiet [] s v ∧
      v.regs = s.regs :=
  ⟨_, fun act => State.decode_ready _ _ _ _ act hr, rfl, fun _ => rfl, rfl, ⟨.of_regs _ rfl, .of_eq rfl rfl rfl rfl⟩, rfl⟩

theorem Quiet.from_nil {out : List Nat} {s v u : State} (h : Quiet [] s v) (k : Quiet out v u) : Quiet out s u :=
  (h.mono fun _ h => absurd h List.not_mem_nil).trans k

/-! ## Loops (R97, R103) -/

/-- The entry that LOOP and MLOOP push. -/
def loopEntry (s : State) (t : Fin 32) (kind : StackKind) (dscm : Bool) (count : Nat) (x : Seg) : StackEnt :=
  { kind := kind, word := s.rd (F.SEQ_PC_WORD t) + 1, pos := s.threads[t].pos, passes := 1, count := count, dscm := dscm, seg := x.id
    gen := x.gen, matched := 0 }

/-- What LOOP and MLOOP do at a word without error and below the stack's depth. -/
theorem State.openLoop_ready {s : State} {t : Fin 32} {kind : StackKind} {dscm : Bool} {count : Nat} {x : Seg}
    (hr : s.readyFor t (if kind = .mloop then .mloop dscm count else .loop dscm count) x) (h0 : 0 < count) (hn : count < 2 ^ 32)
    (hd : s.threads[t].stack.length < 16) : ∃ u, s.openLoop t kind dscm count = u ∧
      u.threads[t].stack = loopEntry s t kind dscm count x :: s.threads[t].stack ∧
      u.rd (F.SEQ_PC_WORD t) = (s.rd (F.SEQ_PC_WORD t) + 1) % 2 ^ 24 ∧ u.threads[t].pos = s.threads[t].pos ∧
      (dscm = false → u.threads[t].marksNext = s.threads[t].marksNext) ∧
      u.threads[t].passes = (if kind = .mloop then s.threads[t].passes ++ [⟨s.threads[t].stack.length + 1, s.threads[t].line, none, 0, 0, false⟩]
          else s.threads[t].passes) ∧ (∀ v, v ≠ t → u.threads[v] = s.threads[v]) ∧ Quiet (stackOut t) s u := by
  unfold State.openLoop
  obtain ⟨v, hact, hthreads, hrd, _, hq, _⟩ := State.decode_fetched hr
  refine ⟨_, hact _, ?_⟩
  dsimp only
  rw [hthreads, hrd, if_neg (by omega), if_neg (by omega)]
  refine ⟨?_, State.goWord_pc .., ?_, fun h => ?_, ?_, fun w hw => ?_, hq.from_nil ?_⟩
  · simp [State.goWord, hthreads, loopEntry]
  · simp [State.goWord, hthreads]
  · simp [State.goWord, hthreads, h]
  · simp [State.goWord, hthreads]
  · simp [State.goWord, hthreads, upd_other_val _ _ hw]
  · have hstack := v.setStack_quiet t (loopEntry s t kind dscm count x :: s.threads[t].stack)
    exact hstack.andModThread.andWr (seqPc_mem_stackOut t)

/-- What LEND does below an entry with passes left: the next pass begins where the entry says. -/
theorem lend_nextPass {t : Fin 32} {s : State} {x : Seg} {e : StackEnt} {rest : List StackEnt} (hr : s.readyFor t .lend x)
    (hstack : s.threads[t].stack = e :: rest) (hkind : e.kind = .loop) (hpass : e.passes < e.count) : Answers (.lend t) s fun u =>
      u.threads[t].stack = { e with passes := e.passes + 1 } :: rest ∧ u.threads[t].pos = e.pos ∧
      u.rd (F.SEQ_SEG_SEG t) = e.seg % 2 ^ 16 ∧ u.rd (F.SEQ_SEG_GEN t) = e.gen % 2 ^ 8 ∧
      u.rd (F.SEQ_PC_WORD t) = e.word % 2 ^ 24 ∧ (∀ v, v ≠ t → u.threads[v] = s.threads[v]) ∧
      Quiet ((F.SEQ_SEG_SEG t).addr :: stackOut t) s u := by
  obtain ⟨v, hact, hthreads, _, _, hq, _⟩ := State.decode_fetched hr
  refine ⟨v.nextPass t e rest, ?_, ?_⟩
  · show Host.Outcome.next (s.decode t .lend _) = _
    rw [hact, hthreads, hstack]
    simp only [hkind, hpass, ne_eq, not_true_eq_false, if_false, if_true]
  · unfold State.nextPass
    dsimp only
    obtain ⟨hseg, hgen, hpc⟩ := State.goTo_place ((v.setStack t ({ e with passes := e.passes + 1 } :: rest)).modThread t fun k =>
      { k with marksNext := if e.dscm then k.marksNext ++ [e.marker (rest.length + 1)] else k.marksNext }) t e.seg e.gen e.word e.pos
    refine ⟨?_, ?_, hseg, hgen, hpc, fun w hw => ?_, hq.from_nil (v.setStack_quiet t _).andModThread.of_goTo⟩
    · simp [State.goTo_threads]
    · simp [State.goTo_threads]
    · simp [State.goTo_threads, hthreads, upd_other_val _ _ hw]

/-- What LEND does below an entry whose last pass ends: the entry is popped and the thread goes on. -/
theorem lend_lastPass {t : Fin 32} {s : State} {x : Seg} {e : StackEnt} {rest : List StackEnt} (hr : s.readyFor t .lend x)
    (hstack : s.threads[t].stack = e :: rest) (hkind : e.kind = .loop) (hpass : e.count ≤ e.passes) : Answers (.lend t) s fun u =>
      u.threads[t].stack = rest ∧ u.threads[t].pos = s.threads[t].pos ∧
      u.rd (F.SEQ_PC_WORD t) = (s.rd (F.SEQ_PC_WORD t) + 1) % 2 ^ 24 ∧ (∀ v, v ≠ t → u.threads[v] = s.threads[v]) ∧
      Quiet (stackOut t) s u := by
  obtain ⟨v, hact, hthreads, hrd, _, hq, _⟩ := State.decode_fetched hr
  refine ⟨(v.setStack t rest).advance t 1, ?_, ?_⟩
  · show Host.Outcome.next (s.decode t .lend _) = _
    rw [hact, hthreads, hstack]
    simp only [hkind, ne_eq, not_true_eq_false, if_false, if_neg (Nat.not_lt.2 hpass)]
  · refine ⟨?_, ?_, ?_, fun w hw => ?_, hq.from_nil ((v.setStack_quiet t rest).andAdvance (seqPc_mem_stackOut t))⟩
    · simp
    · simp [hthreads]
    · rw [State.advance_pc, State.setStack_pc, hrd]
    · simp [hthreads, upd_other_val _ _ hw]

/-! ## Calls and segment jumps (R98, R99) -/

theorem State.target_ready {s : State} {t : Fin 32} {seg gen : Nat} {y : Seg} (act : State → Seg → State) (hy : s.curSeg seg = some y)
    (hgen : y.gen = gen) (htier : y.tier ≠ .none) : s.target t seg gen act = act s y := by
  unfold State.target
  simp only [hy, hgen, ne_eq, not_true_eq_false, if_false, if_neg htier]

/-- A thread that enters a segment: its place, its position, and whether it waits for the announcement of a host-tier segment. -/
theorem State.enter_threads (s : State) (t : Fin 32) (y : Seg) : ∃ w : AnnWait, (s.enter t y).threads = upd s.threads t fun k =>
    { k with pos := 0, segsNext := true, resNext := false, annWait := if y.tier = .host then some w else none
             visit := k.visits, visits := k.visits + 1 } :=
  ⟨_, by rw [State.enter, State.wrs_threads, State.addAdvance_frame]; rfl⟩

theorem State.enter_place (s : State) (t : Fin 32) (y : Seg) : (s.enter t y).rd (F.SEQ_SEG_SEG t) = y.id % 2 ^ 16 ∧
    (s.enter t y).rd (F.SEQ_SEG_GEN t) = y.gen % 2 ^ 8 ∧ (s.enter t y).rd (F.SEQ_PC_WORD t) = 0 := State.wrs_place ..

theorem Quiet.andAddAdvance {out : List Nat} {s u : State} (h : Quiet out s u) {t : Fin 32} {seg gen lines : Nat} :
    Quiet out s (u.addAdvance t seg gen lines) := by
  rw [State.addAdvance_frame]; exact h.andSame rfl rfl rfl rfl rfl

theorem Quiet.andUseSeg {out : List Nat} {s u : State} (h : Quiet out s u) {seg gen : Nat} : Quiet out s (u.useSeg seg gen) :=
  h.andSame rfl rfl rfl rfl rfl

theorem Quiet.andEnter {s u : State} {t : Fin 32} (h : Quiet (stackOut t) s u) {y : Seg} :
    Quiet ((F.SEQ_SEG_SEG t).addr :: stackOut t) s (u.enter t y) := by
  have hpre : Quiet ((F.SEQ_SEG_SEG t).addr :: stackOut t) s u := h.mono fun _ h => List.mem_cons_of_mem _ h
  unfold State.enter
  refine Quiet.andWrs (Quiet.andAddAdvance (Quiet.andUseSeg hpre.andModThread)) ?_
  simp [F.SEQ_SEG_GEN, F.SEQ_SEG_SEG, stackOut]

theorem annWait_isSome (y : Seg) (w : AnnWait) : (if y.tier = .host then some w else none).isSome = true ↔ y.tier = .host := by
  by_cases h : y.tier = .host <;> simp [h]

/-- The entry that CALL pushes: where the thread goes on after the return. -/
def callEntry (s : State) (t : Fin 32) (x : Seg) : StackEnt :=
  { kind := .call, word := s.rd (F.SEQ_PC_WORD t) + 1, pos := s.threads[t].pos, passes := 0, count := 0, dscm := false, seg := x.id
    gen := x.gen, matched := 0, visit := s.threads[t].visit }

/-- What CALL does below the stack's depth: it pushes the return place and enters the segment. -/
theorem call_ready {t : Fin 32} {seg gen : Nat} {s : State} {x y : Seg} (hr : s.readyFor t (.call seg gen) x) (hy : s.curSeg seg = some y)
    (hgen : y.gen = gen) (htier : y.tier ≠ .none) (hd : s.threads[t].stack.length < 16) : Answers (.call t seg gen) s fun u =>
      u.threads[t].stack = callEntry s t x :: s.threads[t].stack ∧
      u.threads[t].pos = 0 ∧ u.threads[t].segsNext = true ∧ u.rd (F.SEQ_SEG_SEG t) = y.id % 2 ^ 16 ∧
      u.rd (F.SEQ_SEG_GEN t) = y.gen % 2 ^ 8 ∧ u.rd (F.SEQ_PC_WORD t) = 0 ∧
      (u.threads[t].annWait.isSome ↔ y.tier = .host) ∧ (∀ v, v ≠ t → u.threads[v] = s.threads[v]) ∧
      Quiet ((F.SEQ_SEG_SEG t).addr :: stackOut t) s u := by
  obtain ⟨v, hact, hthreads, hrd, hforest, hq, _⟩ := State.decode_fetched hr
  have hy' : v.curSeg seg = some y := by rw [State.curSeg, hforest]; exact hy
  generalize hp : v.setStack t (callEntry s t x :: s.threads[t].stack) = p
  have hpthreads : p.threads = upd s.threads t fun k => { k with stack := callEntry s t x :: s.threads[t].stack } := by
    rw [← hp, State.setStack_threads, hthreads]
  have hpq : Quiet (stackOut t) s p := by rw [← hp]; exact hq.from_nil (v.setStack_quiet t _)
  obtain ⟨w, henter⟩ := State.enter_threads p t y
  obtain ⟨hseg, hgen', hpc⟩ := State.enter_place p t y
  refine ⟨p.enter t y, ?_, ?_, ?_, ?_, hseg, hgen', hpc, ?_, fun w hw => ?_, hpq.andEnter⟩
  · show Host.Outcome.next (s.decode t _ _) = _
    rw [hact, State.target_ready _ hy' hgen htier, hthreads, hrd, if_neg (Nat.not_le.2 hd), ← hp]
    rfl
  · simp [henter, hpthreads]
  · simp [henter]
  · simp [henter]
  · simp [henter]
  · simp [henter, hpthreads, upd_other_val _ _ hw]

/-- What JSEG does: it enters the segment and pushes nothing. -/
theorem jseg_ready {t : Fin 32} {seg gen : Nat} {s : State} {x y : Seg} (hr : s.readyFor t (.jseg seg gen) x) (hy : s.curSeg seg = some y)
    (hgen : y.gen = gen) (htier : y.tier ≠ .none) : Answers (.jseg t seg gen) s fun u =>
      u.threads[t].stack = s.threads[t].stack ∧
      u.threads[t].pos = 0 ∧ u.threads[t].segsNext = true ∧ u.rd (F.SEQ_SEG_SEG t) = y.id % 2 ^ 16 ∧
      u.rd (F.SEQ_SEG_GEN t) = y.gen % 2 ^ 8 ∧ u.rd (F.SEQ_PC_WORD t) = 0 ∧
      (u.threads[t].annWait.isSome ↔ y.tier = .host) ∧ (∀ v, v ≠ t → u.threads[v] = s.threads[v]) ∧
      Quiet ((F.SEQ_SEG_SEG t).addr :: stackOut t) s u := by
  obtain ⟨v, hact, hthreads, _, hforest, hq, _⟩ := State.decode_fetched hr
  have hy' : v.curSeg seg = some y := by rw [State.curSeg, hforest]; exact hy
  obtain ⟨w, henter⟩ := State.enter_threads v t y
  obtain ⟨hseg, hgen', hpc⟩ := State.enter_place v t y
  refine ⟨v.enter t y, ?_, ?_, ?_, ?_, hseg, hgen', hpc, ?_, fun w hw => ?_, hq.from_nil (Quiet.refl _ v).andEnter⟩
  · show Host.Outcome.next (s.decode t _ _) = _
    rw [hact, State.target_ready _ hy' hgen htier]
  · simp [henter, hthreads]
  · simp [henter]
  · simp [henter]
  · simp [henter, annWait_isSome]
  · simp [henter, hthreads, upd_other_val _ _ hw]

/-- What RET does below an entry of a call: it pops the entry and goes where it says. -/
theorem ret_ready {t : Fin 32} {s : State} {x : Seg} {e : StackEnt} {rest : List StackEnt} (hr : s.readyFor t .ret x)
    (hstack : s.threads[t].stack = e :: rest) (hkind : e.kind = .call) : Answers (.ret t) s fun u =>
      u.threads[t].stack = rest ∧ u.threads[t].pos = e.pos ∧ u.threads[t].segsNext = false ∧ u.threads[t].resNext = true ∧
      u.rd (F.SEQ_SEG_SEG t) = e.seg % 2 ^ 16 ∧ u.rd (F.SEQ_SEG_GEN t) = e.gen % 2 ^ 8 ∧
      u.rd (F.SEQ_PC_WORD t) = e.word % 2 ^ 24 ∧ (∀ v, v ≠ t → u.threads[v] = s.threads[v]) ∧
      Quiet ((F.SEQ_SEG_SEG t).addr :: stackOut t) s u := by
  obtain ⟨v, hact, hthreads, _, _, hq, _⟩ := State.decode_fetched hr
  generalize hp : (v.setStack t rest).modThread t (fun k => { k with segsNext := false, resNext := true }) = p
  have hpthreads : p.threads = upd (upd s.threads t fun k => { k with stack := rest }) t fun k => { k with segsNext := false, resNext := true } := by
    rw [← hp, State.modThread_threads, State.setStack_threads, hthreads]
  have hpq : Quiet (stackOut t) s p := by rw [← hp]; exact hq.from_nil (v.setStack_quiet t rest).andModThread
  obtain ⟨hseg, hgen, hpc⟩ := State.goTo_place p t e.seg e.gen e.word e.pos
  generalize hg : p.goTo t e.seg e.gen e.word e.pos = g at hseg hgen hpc
  have hgthreads : g.threads = upd p.threads t fun k => { k with pos := e.pos, visit := k.visits, visits := k.visits + 1 } := by
    rw [← hg, State.goTo_threads]
  have hgq : Quiet ((F.SEQ_SEG_SEG t).addr :: stackOut t) s g := by rw [← hg]; exact hpq.of_goTo
  have hexec : exec (.ret t) s = .next (if (v.segAt e.seg e.gen).any (fun x => x.tier == .host) then
      g.modThread t fun k => { k with visit := e.visit } else g) := by
    show Host.Outcome.next (s.decode t .ret _) = _
    rw [hact, hthreads, hstack]
    simp only [hkind, ne_eq, not_true_eq_false, if_false, hp, hg]
  cases hhost : (v.segAt e.seg e.gen).any fun x => x.tier == .host with
  | true =>
    rw [hhost, if_pos rfl] at hexec
    refine ⟨_, hexec, ?_, ?_, ?_, ?_, ?_, ?_, ?_, fun w hw => ?_, hgq.andModThread⟩
    case refine_5 => rw [State.modThread_rd, hseg]
    case refine_6 => rw [State.modThread_rd, hgen]
    case refine_7 => rw [State.modThread_rd, hpc]
    case refine_8 => simp only [State.modThread_threads, hgthreads, hpthreads, Fin.getElem_fin, upd_other_val _ _ hw]
    all_goals simp only [State.modThread_threads, hgthreads, hpthreads, Fin.getElem_fin, upd_same_val]
  | false =>
    rw [hhost, if_neg (by simp)] at hexec
    refine ⟨_, hexec, ?_, ?_, ?_, ?_, hseg, hgen, hpc, fun w hw => ?_, hgq⟩ <;>
      simp only [Fin.getElem_fin, upd_same_val, hgthreads, hpthreads]
    simp only [upd_other_val _ _ hw]

end Sys2Proof.Machine

open Sys2Proof Sys2Proof.Machine

/-- Settles O2, clause by clause: LOOP, MLOOP, LEND with a pass left and without, CALL, JSEG, RET. -/
theorem loopsAndCallsKeepStack : Obligations.LoopsAndCallsKeepStack := by
  unfold Obligations.LoopsAndCallsKeepStack
  refine ⟨fun t dscm count s x hr h0 hn hd => ?_, fun t dscm count s x hr h0 hn hd => ?_, fun t s x e rest => lend_nextPass,
    fun t s x e rest => lend_lastPass, fun t seg gen s x y => call_ready, fun t seg gen s x y => jseg_ready, fun t s x e rest => ret_ready⟩
  · obtain ⟨u, hu, hstack, hpc, hpos, hmarks, _, hother, hq⟩ := State.openLoop_ready (kind := .loop) hr h0 hn hd
    exact ⟨u, congrArg _ hu, hstack, hpc, hpos, hmarks, hother, hq⟩
  · obtain ⟨u, hu, hstack, hpc, hpos, _, hpasses, hother, hq⟩ := State.openLoop_ready (kind := .mloop) hr h0 hn hd
    exact ⟨u, congrArg _ hu, hstack, hpc, hpos, hpasses, hother, hq⟩
end

section
/-! What jumps, branches, CLRF and HALT do (R100, R101, R105), and the obligation O3. -/

set_option Elab.async false

namespace Sys2Proof.Machine

theorem State.rd_mod (s : State) (f : Fld) : s.rd f % 2 ^ f.width = s.rd f := Nat.mod_eq_of_lt (fieldOf_lt ..)

/-- A change of one element leaves what it keeps of that element for every element. -/
theorem upd_keeps {α β : Type} {n : Nat} (v : Vector α n) {i j : Fin n} {f : α → α} (p : α → β) (h : ∀ x, p (f x) = p x) :
    p (upd v i f)[j] = p v[j] := by
  by_cases hij : j = i
  · rw [hij, upd_same, h]
  · rw [upd_other _ _ _ _ hij]

/-! ## Conditions of a branch (R101) -/

/-- What a condition on a thread's groves reads. -/
theorem State.holds_congr {s v : State} {t : Fin 32} (hwin : v.threads[t].winFrom = s.threads[t].winFrom)
    (hsees : v.threads[t].sees = s.threads[t].sees) (hfail : ∀ g : Fin 32, v.groves[g].failLines = s.groves[g].failLines)
    (htime : ∀ g : Fin 32, v.groves[g].timedOut = s.groves[g].timedOut) (hrd : v.rd (F.SEQ_MATCHED_MASK t) = s.rd (F.SEQ_MATCHED_MASK t))
    (cond : Nat) : v.holds t cond = s.holds t cond := by
  funext g
  simp only [State.holds, hwin, hsees, hfail g, htime g, hrd]

/-- The members of a thread for which a condition holds. -/
def State.holdMask (s : State) (t : Fin 32) (cond : Nat) : Nat :=
  maskOf (((grovesIn s.threads[t].live).filter (s.holds t cond)).map (·.1))

/-- The branch with ALL (0) or ANY (1) is taken. -/
def branchTaken (comb hold live : Nat) : Prop := (comb = 0 ∧ hold = live) ∨ (comb = 1 ∧ hold ≠ 0)

/-- What a decided branch changes: the thread's place, and of its record the position and the visit alone. -/
def Branched (t : Fin 32) (s u : State) (comb hold tword tline : Nat) : Prop :=
  (branchTaken comb hold s.threads[t].live → u.threads[t].pos = tline ∧ u.rd (F.SEQ_PC_WORD t) = tword % 2 ^ 24) ∧
  (¬ branchTaken comb hold s.threads[t].live →
    u.threads[t].pos = s.threads[t].pos ∧ u.rd (F.SEQ_PC_WORD t) = (s.rd (F.SEQ_PC_WORD t) + 2) % 2 ^ 24) ∧
  u.rd (F.SEQ_SEG_SEG t) = s.rd (F.SEQ_SEG_SEG t) ∧ u.rd (F.SEQ_SEG_GEN t) = s.rd (F.SEQ_SEG_GEN t) ∧
  u.threads[t].stack = s.threads[t].stack ∧ u.threads[t].pend = s.threads[t].pend ∧ (∀ v, v ≠ t → u.threads[v] = s.threads[v]) ∧ Quiet (placeOut t) s u

theorem State.advance_seg (s : State) (t : Fin 32) (n : Nat) :
    (s.advance t n).rd (F.SEQ_SEG_SEG t) = s.rd (F.SEQ_SEG_SEG t) ∧ (s.advance t n).rd (F.SEQ_SEG_GEN t) = s.rd (F.SEQ_SEG_GEN t) :=
  ⟨State.rd_wr_other _ _ _ _ (.inl (by simp only [F.SEQ_SEG_SEG, F.SEQ_PC_WORD]; omega)),
    State.rd_wr_other _ _ _ _ (.inl (by simp only [F.SEQ_SEG_GEN, F.SEQ_PC_WORD]; omega))⟩

theorem seqPc_mem_placeOut (t : Fin 32) : (F.SEQ_PC_WORD t).addr ∈ placeOut t := List.mem_cons_of_mem _ (List.mem_cons_self ..)

theorem State.takeBrc_branched (s : State) (t : Fin 32) {cond comb : Nat} (tword tline : Nat) (hcomb : comb < 2) :
    Branched t s (s.takeBrc t cond comb tword tline) comb (s.holdMask t cond) tword tline := by
  unfold State.takeBrc
  dsimp only
  rw [if_neg (by omega)]
  split
  next htaken =>
    obtain ⟨hseg, hgen, hpc⟩ := s.goTo_place t (s.rd (F.SEQ_SEG_SEG t)) (s.rd (F.SEQ_SEG_GEN t)) tword tline
    refine ⟨fun _ => ⟨?_, hpc⟩, fun h => absurd htaken h, hseg.trans (s.rd_mod _), hgen.trans (s.rd_mod _), ?_, ?_, fun v hv => ?_, s.goTo_quiet ..⟩
    · simp [State.goTo_threads]
    · simp [State.goTo_threads]
    · simp [State.goTo_threads]
    · simp [State.goTo_threads, upd_other_val _ _ hv]
  next htaken =>
    have hquiet : Quiet (placeOut t) s s := Quiet.refl _ s
    exact ⟨fun h => absurd h htaken, fun _ => ⟨by rw [State.advance_threads], s.advance_pc t 2⟩, (s.advance_seg t 2).1, (s.advance_seg t 2).2,
      by rw [State.advance_threads], by rw [State.advance_threads], fun v _ => by rw [State.advance_threads], hquiet.andAdvance (seqPc_mem_placeOut t)⟩

theorem Seg.inside_of_lt {x : Seg} {word line : Nat} (hw : word < x.iwords) (hl : line < x.lines) : x.inside word line = true := by
  simp [Seg.inside, hw, hl]

theorem placeOut_swap (t : Fin 32) : ∀ a ∈ placeOut t, a ∈ [(F.SEQ_PC_WORD t).addr, (F.SEQ_SEG_SEG t).addr] := by
  simp [placeOut]

theorem jmp_ready {t : Fin 32} {tword tline : Nat} {s : State} {x : Seg} (hr : s.readyFor t (.jmp tword tline) x) (hword : tword < x.iwords)
    (hline : tline < x.lines) : Answers (.jmp t tword tline) s fun u => u.threads[t].pos = tline ∧ u.rd (F.SEQ_PC_WORD t) = tword % 2 ^ 24 ∧
      u.rd (F.SEQ_SEG_SEG t) = x.id % 2 ^ 16 ∧ u.rd (F.SEQ_SEG_GEN t) = x.gen % 2 ^ 8 ∧
      u.threads[t].stack = s.threads[t].stack ∧ (∀ v, v ≠ t → u.threads[v] = s.threads[v]) ∧
      Quiet [(F.SEQ_PC_WORD t).addr, (F.SEQ_SEG_SEG t).addr] s u := by
  obtain ⟨v, hact, hthreads, _, _, hq, _⟩ := State.decode_fetched hr
  obtain ⟨hseg, hgen, hpc⟩ := v.goTo_place t x.id x.gen tword tline
  refine ⟨v.goTo t x.id x.gen tword tline, ?_, ?_, hpc, hseg, hgen, ?_, fun w hw => ?_, ?_⟩
  · show Host.Outcome.next (s.decode t _ _) = _
    rw [hact, if_pos (Seg.inside_of_lt hword hline)]
  · simp [State.goTo_threads, hthreads]
  · simp [State.goTo_threads, hthreads]
  · simp [State.goTo_threads, hthreads, upd_other_val _ _ hw]
  · exact hq.from_nil ((v.goTo_quiet ..).mono (placeOut_swap t))

/-- The fetch of an instruction's words changes nothing that a condition reads. -/
theorem State.holds_fetchWords (s : State) (t : Fin 32) (n cond : Nat) : (s.fetchWords t n).holds t cond = s.holds t cond :=
  State.holds_congr (s := s) (v := s.fetchWords t n) (t := t) rfl rfl (fun _ => upd_keeps s.groves Grove.failLines fun _ => rfl) (fun _ => upd_keeps s.groves Grove.timedOut fun _ => rfl)
    rfl cond

theorem brc_decided {t : Fin 32} {cond comb tword tline : Nat} {s : State} {x : Seg} (hr : s.readyFor t (.brc cond comb tword tline) x)
    (hword : tword < x.iwords) (hline : tline < x.lines) (h2 : 2 ≤ cond) (h4 : cond < 4) (hcomb : comb < 2) :
    Answers (.brc t cond comb tword tline) s fun u => Branched t s u comb (s.holdMask t cond) tword tline := by
  generalize hv : s.fetchWords t (SeqOp.brc cond comb tword tline).words = v
  have hthreads : v.threads = s.threads := by rw [← hv, State.fetchWords_threads]
  have hrd (f : Fld) : v.rd f = s.rd f := by rw [← hv]; rfl
  have hq : Quiet [] s v := by rw [← hv]; exact (Quiet.refl _ s).andModGrove
  have hhold : v.holdMask t cond = s.holdMask t cond := by
    rw [State.holdMask, State.holdMask, hthreads, ← hv, State.holds_fetchWords]
  obtain ⟨htaken, hnot, hseg, hgen, hstack, hpend, hother, hquiet⟩ := v.takeBrc_branched t tword tline (cond := cond) hcomb
  rw [hthreads, hhold] at htaken hnot
  rw [hrd] at hnot hseg hgen
  rw [hthreads] at hstack hpend hother
  refine ⟨_, ?_, htaken, hnot, hseg, hgen, hstack, hpend, hother, hq.from_nil hquiet⟩
  show Host.Outcome.next (s.decode t _ _) = _
  rw [State.decode_ready _ _ _ _ _ hr, if_neg (by simp [Seg.inside_of_lt hword hline]; omega), if_pos h2, hv]

/-! ## Waiting for results (R101, R102) and HALT (R105) -/

theorem State.noteState_notRunning {s : State} {t : Fin 32} (h : s.threadAt t [.running] = false) : s.noteState t = s := by
  rw [State.noteState, if_neg (by simp [h])]

/-- A thread that waits for results it does not have notes the decision and does nothing more. -/
theorem State.await_waits {s : State} {t : Fin 32} (p : Pending) (hres : s.threads[t].resTo < s.threads[t].sees)
    (hrun : s.threadAt t [.running] = false) : s.await t p = s.modThread t fun k => { k with pend := some (k.line, p) } := by
  have hstill : (s.modThread t fun k => { k with pend := some (k.line, p) }).threadAt t [.running] = false := by
    rw [← hrun]
    simp only [State.threadAt, State.threadBurst, State.modThread_threads, upd_same, State.burstBy, State.modThread_bursts]
  rw [State.await, State.noteState_notRunning hstill, State.decide_]
  dsimp only
  rw [State.modThread_threads, upd_same]
  exact if_neg fun h => absurd h.1 (Nat.not_le.2 hres)

theorem brc_waits {t : Fin 32} {cond comb tword tline : Nat} {s : State} {x : Seg} (hr : s.readyFor t (.brc cond comb tword tline) x)
    (hword : tword < x.iwords) (hline : tline < x.lines) (hcond : cond < 2) (hcomb : comb < 3)
    (hres : s.threads[t].resTo < s.threads[t].sees) (hrun : s.threadAt t [.running] = false) :
    Answers (.brc t cond comb tword tline) s fun u => u.threads[t].pend = some (s.threads[t].line, .brc cond comb tword tline) ∧
      u.threads[t].pos = s.threads[t].pos ∧ u.regs = s.regs ∧ (∀ v, v ≠ t → u.threads[v] = s.threads[v]) ∧ Quiet [] s u := by
  generalize hv : s.fetchWords t (SeqOp.brc cond comb tword tline).words = v
  have hthreads : v.threads = s.threads := by rw [← hv, State.fetchWords_threads]
  have hq : Quiet [] s v := by rw [← hv]; exact (Quiet.refl _ s).andModGrove
  have hregs : v.regs = s.regs := by rw [← hv]; rfl
  have hstill : v.threadAt t [.running] = false := by rw [← hrun, ← hv]; rfl
  refine ⟨v.modThread t fun k => { k with pend := some (k.line, .brc cond comb tword tline) }, ?_, ?_, ?_, ?_, fun w hw => ?_, hq.andModThread⟩
  · show Host.Outcome.next (s.decode t _ _) = _
    rw [State.decode_ready _ _ _ _ _ hr, if_neg (by simp [Seg.inside_of_lt hword hline]; omega), if_neg (by omega), hv,
      State.await_waits _ (by rw [hthreads]; exact hres) hstill]
  · rw [State.modThread_threads, upd_same, hthreads]
  · rw [State.modThread_threads, upd_same, hthreads]
  · rw [State.modThread_regs, hregs]
  · rw [State.modThread_threads, upd_other _ _ _ _ hw, hthreads]

theorem clrf_ready {t : Fin 32} {s : State} {x : Seg} (hr : s.readyFor t .clrf x) : Answers (.clrf t) s fun u =>
      u.threads[t].winFrom = s.threads[t].line ∧ u.rd (F.SEQ_PC_WORD t) = (s.rd (F.SEQ_PC_WORD t) + 1) % 2 ^ 24 ∧
      (∀ v, v ≠ t → u.threads[v] = s.threads[v]) ∧ Quiet [(F.SEQ_PC_WORD t).addr] s u := by
  obtain ⟨v, hact, hthreads, hrd, _, hq, _⟩ := State.decode_fetched hr
  generalize hw : v.modThread t (fun k => { k with winFrom := k.line }) = w
  have hwthreads : w.threads = upd s.threads t fun k => { k with winFrom := k.line } := by rw [← hw, State.modThread_threads, hthreads]
  have hwrd : w.rd (F.SEQ_PC_WORD t) = s.rd (F.SEQ_PC_WORD t) := by rw [← hw, State.modThread_rd, hrd]
  have hwq : Quiet [(F.SEQ_PC_WORD t).addr] s w := by rw [← hw]; exact hq.from_nil (Quiet.refl _ v).andModThread
  refine ⟨w.advance t 1, ?_, ?_, ?_, fun j hj => ?_, hwq.andAdvance (List.mem_cons_self ..)⟩
  · show Host.Outcome.next (s.decode t _ _) = _
    rw [hact, hw]
  · rw [State.advance_threads, hwthreads, upd_same]
  · rw [State.advance_pc, hwrd]
  · rw [State.advance_threads, hwthreads, upd_other _ _ _ _ hj]

theorem halt_ready {t : Fin 32} {endDen : Bool} {s : State} {x : Seg} (hr : s.readyFor t (.halt endDen) x)
    (hrun : s.threadAt t [.running] = false) : Answers (.halt t endDen) s fun u =>
      u.threads[t].endAfter = some ⟨s.threads[t].line, .halt, endDen⟩ ∧
      u.regs = s.regs ∧ (∀ v, v ≠ t → u.threads[v] = s.threads[v]) ∧ Quiet [] s u := by
  generalize hv : s.fetchWords t (SeqOp.halt endDen).words = v
  have hthreads : v.threads = s.threads := by rw [← hv, State.fetchWords_threads]
  have hq : Quiet [] s v := by rw [← hv]; exact (Quiet.refl _ s).andModGrove
  have hregs : v.regs = s.regs := by rw [← hv]; rfl
  have hstill : (v.modThread t fun k => { k with endAfter := some ⟨k.line, .halt, endDen⟩ }).threadAt t [.running] = false := by
    rw [← hrun]
    simp only [State.threadAt, State.threadBurst, State.modThread_threads, upd_same, State.burstBy, State.modThread_bursts, hthreads, ← hv]
    rfl
  refine ⟨v.modThread t fun k => { k with endAfter := some ⟨k.line, .halt, endDen⟩ }, ?_, ?_, ?_, fun w hw => ?_, hq.andModThread⟩
  · show Host.Outcome.next (s.decode t _ _) = _
    rw [State.decode_ready _ _ _ _ _ hr, hv, State.endThread, State.checkEnd, if_pos hstill]
  · rw [State.modThread_threads, upd_same, hthreads]
  · rw [State.modThread_regs, hregs]
  · rw [State.modThread_threads, upd_other _ _ _ _ hw, hthreads]

end Sys2Proof.Machine

open Sys2Proof Sys2Proof.Machine

/-- Settles O3, clause by clause: JMP, BRC decided at once, BRC that waits, CLRF, HALT. -/
theorem jumpsAndHalt : Obligations.JumpsAndHalt := by
  unfold Obligations.JumpsAndHalt
  refine ⟨fun t tword tline s x => jmp_ready, fun t cond comb tword tline hold s x hr hword hline h2 h4 hcomb hhold => ?_,
    fun t cond comb tword tline s x => brc_waits, fun t s x => clrf_ready, fun t endDen s x => halt_ready⟩
  subst hhold
  obtain ⟨u, hu, htaken, hnot, hseg, hgen, hstack, _, hother, hquiet⟩ := brc_decided hr hword hline h2 h4 hcomb
  exact ⟨u, hu, htaken, hnot, hseg, hgen, hstack, hother, hquiet.mono (placeOut_swap t)⟩
end

section
/-! Decisions that wait for results: MEND, and what a thread does once its results are there (R102, R103), and the obligation O4. -/

set_option Elab.async false

namespace Sys2Proof.Machine

theorem EventOnly.threads {s t : State} (h : EventOnly s t) : t.threads = s.threads := by rw [h]

theorem State.threadAt_congr {s u : State} {t : Fin 32} (hbursts : u.bursts = s.bursts) (hbusy : u.threads[t].busy = s.threads[t].busy)
    (l : List Stage) : u.threadAt t l = s.threadAt t l := by
  rw [State.threadAt, State.threadAt, State.threadBurst, State.threadBurst, hbusy]
  simp only [State.burstBy, hbursts]

/-! ## After a decision -/

/-- After a decision the thread keeps its place and stack: only the granules fetched for the other branch and SEQ_STATUS change. -/
theorem State.afterDecision (w : State) (t : Fin 32) :
    (∃ keep : List Gran → List Gran, ((w.dropBranch t).noteState t).threads = upd w.threads t fun k => { k with grans := keep k.grans }) ∧
    Quiet [(F.SEQ_STATUS_STATE t).addr] w ((w.dropBranch t).noteState t) := by
  have hthreads : ((w.dropBranch t).noteState t).threads = (w.dropBranch t).threads := by
    unfold State.noteState; split
    · exact State.wr_threads ..
    · rfl
  have hdrop : Quiet [(F.SEQ_STATUS_STATE t).addr] w (w.dropBranch t) := (Quiet.refl _ w).andModThread
  refine ⟨?_, ?_⟩
  · rw [hthreads, State.dropBranch]
    generalize List.map _ _ = want
    exact ⟨fun l => l.filter fun g => !g.branch || want.contains g.key, State.modThread_threads ..⟩
  · unfold State.noteState; split
    · exact hdrop.andWr (List.mem_cons_self ..)
    · exact hdrop

/-- The decision a thread waits for is taken once its results are there. -/
theorem State.decide_ready {s : State} {t : Fin 32} {n : Nat} {p : Pending} (hpend : s.threads[t].pend = some (n, p))
    (hsees : s.threads[t].sees ≤ s.threads[t].resTo) (htold : s.peersTold t = true) {v w : State}
    (hv : s.modThread t (fun k => { k with pend := none }) = v)
    (hw : (match p with | .brc c m w l => v.takeBrc t c m w l | .mend m => v.takeMend t m) = w) :
    exec (.decisionResultsReady t) s = .next ((w.dropBranch t).noteState t) := by
  show Host.Outcome.next (s.decide_ t) = _
  rw [State.decide_, hpend]
  dsimp only
  rw [if_pos ⟨hsees, htold⟩, hv]
  exact congrArg (fun u => Host.Outcome.next ((State.dropBranch u t).noteState t)) hw

theorem brc_afterResults {t : Fin 32} {n cond comb tword tline : Nat} {s : State}
    (hpend : s.threads[t].pend = some (n, .brc cond comb tword tline)) (hsees : s.threads[t].sees ≤ s.threads[t].resTo)
    (htold : s.peersTold t = true) (hcomb : comb < 2) : ∃ w, exec (.decisionResultsReady t) s = .next ((w.dropBranch t).noteState t) ∧
      Branched t (s.modThread t fun k => { k with pend := none }) w comb (s.holdMask t cond) tword tline := by
  refine ⟨_, State.decide_ready hpend hsees htold rfl rfl, ?_⟩
  generalize hv : s.modThread t (fun k => { k with pend := none }) = v
  have hthread : v.threads[t] = { s.threads[t] with pend := none } := by rw [← hv, State.modThread_threads, upd_same]
  have hhold : v.holdMask t cond = s.holdMask t cond := by
    rw [State.holdMask, State.holdMask, hthread, State.holds_congr (s := s) (v := v) (t := t)]
    · rfl
    · rw [hthread]
    · rw [hthread]; rfl
    · intro g; rw [← hv]; rfl
    · intro g; rw [← hv]; rfl
    · rw [← hv]; rfl
  rw [← hhold]
  exact v.takeBrc_branched t tword tline hcomb

theorem seqStatus_notMem_place (t : Fin 32) : (F.SEQ_PC_WORD t).addr ∉ [(F.SEQ_STATUS_STATE t).addr] ∧
    (F.SEQ_SEG_SEG t).addr ∉ [(F.SEQ_STATUS_STATE t).addr] ∧ (F.SEQ_SEG_GEN t).addr ∉ [(F.SEQ_STATUS_STATE t).addr] := by
  simp only [F.SEQ_PC_WORD, F.SEQ_SEG_SEG, F.SEQ_SEG_GEN, F.SEQ_STATUS_STATE, List.mem_singleton]
  omega

/-- What is left of a thread after a decision, in the terms of the statements. -/
theorem State.afterDecision_keeps (w : State) (t : Fin 32) {u : State} (hu : (w.dropBranch t).noteState t = u) :
    u.threads[t].pos = w.threads[t].pos ∧ u.threads[t].stack = w.threads[t].stack ∧ u.threads[t].pend = w.threads[t].pend ∧
    (∀ v, v ≠ t → u.threads[v] = w.threads[v]) ∧ u.rd (F.SEQ_PC_WORD t) = w.rd (F.SEQ_PC_WORD t) ∧
    u.rd (F.SEQ_SEG_SEG t) = w.rd (F.SEQ_SEG_SEG t) ∧ u.rd (F.SEQ_SEG_GEN t) = w.rd (F.SEQ_SEG_GEN t) ∧
    Quiet [(F.SEQ_STATUS_STATE t).addr] w u := by
  subst hu
  obtain ⟨⟨keep, hthreads⟩, hquiet⟩ := w.afterDecision t
  obtain ⟨hpc, hseg, hgen⟩ := seqStatus_notMem_place t
  rw [hthreads, upd_same]
  exact ⟨rfl, rfl, rfl, fun v hv => upd_other _ _ _ _ hv, hquiet.1.rd _ hpc, hquiet.1.rd _ hseg, hquiet.1.rd _ hgen, hquiet⟩

/-! ## MEND (R103) -/

/-- MEND's close of a pass at a depth: its last line is the one before the thread's. -/
def closePass (depth line : Nat) (p : PassRec) : PassRec :=
  if p.depth = depth ∧ p.last = none then { p with last := some (line - 1), examined := decide (line ≤ p.first) } else p

theorem closePass_open {depth line : Nat} {p : PassRec} (hd : p.depth = depth) (hl : p.last = none) :
    (closePass depth line p).first = p.first ∧ (closePass depth line p).last = some (line - 1) := by
  rw [closePass, if_pos ⟨hd, hl⟩]
  exact ⟨rfl, rfl⟩

theorem mend_waits {t : Fin 32} {comb : Nat} {s : State} {x : Seg} {e : StackEnt} {rest : List StackEnt} (hr : s.readyFor t (.mend comb) x)
    (hcomb : comb < 2) (hstack : s.threads[t].stack = e :: rest) (hkind : e.kind = .mloop)
    (hres : s.threads[t].resTo < s.threads[t].sees) (hrun : s.threadAt t [.running] = false) :
    Answers (.mend t comb) s fun u => u.threads[t].pend = some (s.threads[t].line, .mend comb) ∧
      u.threads[t].stack = s.threads[t].stack ∧ u.regs = s.regs ∧
      (∀ p ∈ s.threads[t].passes, p.depth = rest.length + 1 → p.last = none →
        ∃ q ∈ u.threads[t].passes, q.first = p.first ∧ q.last = some (s.threads[t].line - 1)) ∧
      (∀ v, v ≠ t → u.threads[v] = s.threads[v]) ∧ Quiet [] s u := by
  generalize hv : s.fetchWords t (SeqOp.mend comb).words = v
  have hthreads : v.threads = s.threads := by rw [← hv, State.fetchWords_threads]
  generalize hw : v.modThread t (fun k => { k with passes := k.passes.map (closePass (rest.length + 1) k.line) }) = w
  have hwthreads : w.threads = upd s.threads t fun k => { k with passes := k.passes.map (closePass (rest.length + 1) k.line) } := by
    rw [← hw, State.modThread_threads, hthreads]
  have hwthread : w.threads[t] = { s.threads[t] with passes := s.threads[t].passes.map (closePass (rest.length + 1) s.threads[t].line) } := by
    rw [hwthreads, upd_same]
  have hq : Quiet [] s w := by rw [← hw, ← hv]; exact (Quiet.refl _ s).andModGrove.andModThread
  have hregs : w.regs = s.regs := by rw [← hw, State.modThread_regs, ← hv]; rfl
  have hstill : w.threadAt t [.running] = false := by
    rw [← hrun]
    exact State.threadAt_congr (by rw [← hw, State.modThread_bursts, ← hv]; rfl) (by rw [hwthread]) _
  have hexec : exec (.mend t comb) s = .next (w.modThread t fun k => { k with pend := some (k.line, .mend comb) }) := by
    show Host.Outcome.next (s.decode t _ _) = _
    rw [State.decode_ready _ _ _ _ _ hr, if_neg (by omega), hv, hthreads, hstack]
    dsimp only
    rw [if_neg (not_not.2 hkind)]
    refine congrArg _ (Eq.trans ?_ (State.await_waits (s := w) _ (by rw [hwthread]; exact hres) hstill))
    rw [← hw]
    rfl
  refine ⟨_, hexec, ?_, ?_, ?_, ?_, fun j hj => ?_, hq.andModThread⟩
  · rw [State.modThread_threads, upd_same, hwthread]
  · rw [State.modThread_threads, upd_same, hwthread]
  · rw [State.modThread_regs, hregs]
  · intro p hp hdepth hlast
    refine ⟨closePass (rest.length + 1) s.threads[t].line p, ?_, closePass_open hdepth hlast⟩
    rw [State.modThread_threads, upd_same, hwthread]
    exact List.mem_map_of_mem hp
  · rw [State.modThread_threads, upd_other _ _ _ _ hj, hwthreads, upd_other _ _ _ _ hj]

/-! ## The decision of a match loop (R103) -/

theorem Quiet.foldl_modGrove {out : List Nat} {s u : State} (h : Quiet out s u) (l : List (Fin 32)) (f : Fin 32 → Grove → Grove) :
    Quiet out s (l.foldl (fun s g => s.modGrove g (f g)) u) := by
  induction l generalizing u with
  | nil => exact h
  | cons g l ih => exact ih h.andModGrove

theorem State.foldl_modGrove_threads (s : State) (l : List (Fin 32)) (f : Fin 32 → Grove → Grove) :
    (l.foldl (fun s g => s.modGrove g (f g)) s).threads = s.threads := by
  induction l generalizing s with
  | nil => rfl
  | cons g l ih => exact ih _

theorem State.foldl_modGrove_rd (s : State) (l : List (Fin 32)) (f : Fin 32 → Grove → Grove) (x : Fld) :
    (l.foldl (fun s g => s.modGrove g (f g)) s).rd x = s.rd x := by
  induction l generalizing s with
  | nil => rfl
  | cons g l ih => exact ih _

/-- The registers that the end of a match loop can write. -/
def loopEndOut (t : Fin 32) : List Nat := (F.SEQ_MATCHED_MASK t).addr :: evOut (Ev.seq t) ++ stackOut t

theorem seqPc_notMem_matched (t : Fin 32) : (F.SEQ_PC_WORD t).addr ∉ evOut (Ev.seq t) := by
  simp only [evOut, Ev.seq, Ev.sch, F.SCH_UNCLAIMED_COUNT, F.SEQ_PC_WORD, List.mem_cons, List.not_mem_nil, not_or]
  exact ⟨by omega, by omega, by omega, not_false⟩

/-- The end of a match loop from the state whose stack is popped: matched flags, timed-out marks, the event, the next word. -/
theorem State.loopEnd (p : State) (t : Fin 32) (live matched : Nat) (flags : Nat) : ∃ u : State,
    (let s := p.wr (F.SEQ_MATCHED_MASK t) flags
     let s := (grovesIn live).foldl (fun s g => s.modGrove g fun x => { x with timedOut := !bitOf matched g.1 }) s
     let s := if without live matched = 0 then s else s.event (Ev.seq t) 5
     s.advance t 1) = u ∧ u.threads = p.threads ∧ u.rd (F.SEQ_PC_WORD t) = (p.rd (F.SEQ_PC_WORD t) + 1) % 2 ^ 24 ∧
      Quiet (loopEndOut t) p u := by
  refine ⟨_, rfl, ?_⟩
  dsimp only
  generalize hw : p.wr (F.SEQ_MATCHED_MASK t) flags = w
  have hwthreads : w.threads = p.threads := by rw [← hw, State.wr_threads]
  have hwpc : w.rd (F.SEQ_PC_WORD t) = p.rd (F.SEQ_PC_WORD t) := by
    rw [← hw]
    exact State.rd_wr_other _ _ _ _ (.inl (by simp only [F.SEQ_MATCHED_MASK, F.SEQ_PC_WORD]; omega))
  have hwq : Quiet (loopEndOut t) p w := by rw [← hw]; exact (Quiet.refl _ p).andWr (List.mem_cons_self ..)
  generalize hx : (grovesIn live).foldl (fun s g => s.modGrove g fun x => { x with timedOut := !bitOf matched g.1 }) w = x
  have hxthreads : x.threads = p.threads := by rw [← hx, State.foldl_modGrove_threads, hwthreads]
  have hxpc : x.rd (F.SEQ_PC_WORD t) = p.rd (F.SEQ_PC_WORD t) := by rw [← hx, State.foldl_modGrove_rd, hwpc]
  have hxq : Quiet (loopEndOut t) p x := by rw [← hx]; exact hwq.foldl_modGrove _ _
  generalize hy : (if without live matched = 0 then x else x.event (Ev.seq t) 5) = y
  have hevent : ∀ a ∈ evOut (Ev.seq t), a ∈ loopEndOut t := fun a ha => List.mem_append_left _ (List.mem_cons_of_mem _ ha)
  have hythreads : y.threads = p.threads := by
    rw [← hy]; split
    · exact hxthreads
    · rw [(x.event_event (Ev.seq t) 5).threads, hxthreads]
  have hypc : y.rd (F.SEQ_PC_WORD t) = p.rd (F.SEQ_PC_WORD t) := by
    rw [← hy]; split
    · exact hxpc
    · rw [(x.event_regs (Ev.seq t) 5).rd _ (seqPc_notMem_matched t), hxpc]
  have hyq : Quiet (loopEndOut t) p y := by
    rw [← hy]; split
    · exact hxq
    · exact hxq.andEvent hevent
  exact ⟨by rw [State.advance_threads, hythreads], by rw [State.advance_pc, hypc],
    hyq.andAdvance (List.mem_append_right _ (seqPc_mem_stackOut t))⟩

theorem State.takeMend_lastPass {s : State} {t : Fin 32} {comb : Nat} {e : StackEnt} {rest : List StackEnt}
    (hstack : s.threads[t].stack = e :: rest) (hpass : e.count ≤ e.passes) {u : State} (hu : s.takeMend t comb = u) :
    u.threads[t].stack = rest ∧ u.threads[t].pos = s.threads[t].pos ∧ u.threads[t].pend = s.threads[t].pend ∧
    u.rd (F.SEQ_PC_WORD t) = (s.rd (F.SEQ_PC_WORD t) + 1) % 2 ^ 24 ∧ (∀ v, v ≠ t → u.threads[v] = s.threads[v]) ∧ Quiet (loopEndOut t) s u := by
  subst hu
  unfold State.takeMend
  dsimp only
  rw [hstack]
  dsimp only
  rw [if_pos (by simp [hpass])]
  generalize hp : State.setStack _ t rest = p
  obtain ⟨passes, spans, hpthreads⟩ : ∃ passes spans, p.threads[t] = { s.threads[t] with passes := passes, spans := spans, stack := rest } :=
    ⟨_, _, by rw [← hp, State.setStack_threads, upd_same, State.modThread_threads, upd_same, State.modThread_threads, upd_same]⟩
  have hother : ∀ v, v ≠ t → p.threads[v] = s.threads[v] := fun v hv => by
    rw [← hp, State.setStack_threads, upd_other _ _ _ _ hv, State.modThread_threads, upd_other _ _ _ _ hv, State.modThread_threads,
      upd_other _ _ _ _ hv]
  have hpc : p.rd (F.SEQ_PC_WORD t) = s.rd (F.SEQ_PC_WORD t) := by
    rw [← hp, State.setStack_pc, State.modThread_rd, State.modThread_rd]
  have hq : Quiet (loopEndOut t) s p := by
    rw [← hp]
    exact (Quiet.refl _ s).andModThread.andModThread.trans ((State.setStack_quiet _ t rest).mono fun _ h => List.mem_append_right _ h)
  obtain ⟨u, hu, huthreads, hupc, huq⟩ := p.loopEnd t s.threads[t].live
    ((s.threads[t].passes.filter _).foldl (fun m p => m ||| s.threads[t].passMatch p) e.matched) _
  dsimp only at hu
  rw [hu, huthreads, hpthreads]
  refine ⟨rfl, rfl, rfl, by rw [hupc, hpc], hother, hq.trans huq⟩

theorem State.takeMend_nextPass {s : State} {t : Fin 32} {e : StackEnt} {rest : List StackEnt}
    (hstack : s.threads[t].stack = e :: rest) (hpass : e.passes < e.count) (hpasses : s.threads[t].passes = [])
    (hmatched : e.matched &&& s.threads[t].live ≠ s.threads[t].live) {u : State} (hu : s.takeMend t 0 = u) :
    u.threads[t].stack = { e with passes := e.passes + 1 } :: rest ∧ u.threads[t].pos = e.pos ∧ u.threads[t].pend = s.threads[t].pend ∧
    u.rd (F.SEQ_SEG_SEG t) = e.seg % 2 ^ 16 ∧ u.rd (F.SEQ_SEG_GEN t) = e.gen % 2 ^ 8 ∧
    u.rd (F.SEQ_PC_WORD t) = e.word % 2 ^ 24 ∧ (∀ v, v ≠ t → u.threads[v] = s.threads[v]) ∧
    Quiet ((F.SEQ_SEG_SEG t).addr :: stackOut t) s u := by
  subst hu
  unfold State.takeMend
  dsimp only
  rw [hstack]
  dsimp only
  rw [hpasses, if_neg (by simpa [hpass] using hmatched)]
  simp only [List.filter_nil, List.foldl_nil]
  generalize hp : s.modThread t _ = p
  obtain ⟨passes, hpthreads⟩ : ∃ passes, p.threads[t] = { s.threads[t] with passes := passes } :=
    ⟨_, by rw [← hp, State.modThread_threads, upd_same]⟩
  have hpother : ∀ v, v ≠ t → p.threads[v] = s.threads[v] := fun v hv => by rw [← hp, State.modThread_threads, upd_other _ _ _ _ hv]
  have hpq : Quiet (stackOut t) s p := by rw [← hp]; exact (Quiet.refl _ s).andModThread
  unfold State.nextPass
  dsimp only
  generalize hr : (p.setStack t ({ e with passes := e.passes + 1 } :: rest)).modThread t _ = r
  obtain ⟨marks, hrthreads⟩ : ∃ marks, r.threads[t] = { p.threads[t] with stack := { e with passes := e.passes + 1 } :: rest, marksNext := marks } :=
    ⟨_, by rw [← hr, State.modThread_threads, upd_same, State.setStack_threads, upd_same]⟩
  have hrother : ∀ v, v ≠ t → r.threads[v] = s.threads[v] := fun v hv => by
    rw [← hr, State.modThread_threads, upd_other _ _ _ _ hv, State.setStack_threads, upd_other _ _ _ _ hv, hpother v hv]
  have hrq : Quiet (stackOut t) s r := by rw [← hr]; exact (hpq.trans (p.setStack_quiet t _)).andModThread
  obtain ⟨hseg, hgen, hpc⟩ := r.goTo_place t e.seg e.gen e.word e.pos
  refine ⟨?_, ?_, ?_, (State.modThread_rd ..).trans hseg, (State.modThread_rd ..).trans hgen, (State.modThread_rd ..).trans hpc, fun v hv => ?_,
    hrq.of_goTo.andModThread⟩
  · rw [State.modThread_threads, upd_same, State.goTo_threads, upd_same, hrthreads]
  · rw [State.modThread_threads, upd_same, State.goTo_threads, upd_same]
  · rw [State.modThread_threads, upd_same, State.goTo_threads, upd_same, hrthreads, hpthreads]
  · rw [State.modThread_threads, upd_other _ _ _ _ hv, State.goTo_threads, upd_other _ _ _ _ hv, hrother v hv]

theorem State.clearPend {s v : State} {t : Fin 32} (hv : s.modThread t (fun k => { k with pend := none }) = v) :
    v.threads[t] = { s.threads[t] with pend := none } ∧ (∀ j, j ≠ t → v.threads[j] = s.threads[j]) ∧ (∀ f, v.rd f = s.rd f) ∧ Quiet [] s v := by
  subst hv
  exact ⟨by rw [State.modThread_threads, upd_same], fun j hj => by rw [State.modThread_threads, upd_other _ _ _ _ hj],
    fun f => State.modThread_rd .., (Quiet.refl _ s).andModThread⟩

theorem seqStatus_mem_stackOut (t : Fin 32) : ∀ a ∈ [(F.SEQ_STATUS_STATE t).addr], a ∈ stackOut t := by
  simp [stackOut, F.SEQ_STATUS_STATE, F.SEQ_STATUS_DEPTH]

end Sys2Proof.Machine

open Sys2Proof Sys2Proof.Machine

/-- Settles O4: MEND that waits, a branch decided, the last and the next pass of a match loop, and a decision not yet due. -/
theorem decisionsWaitForResults : Obligations.DecisionsWaitForResults := by
  unfold Obligations.DecisionsWaitForResults
  refine ⟨fun t comb s x e rest => mend_waits, ?_, ?_, ?_, fun t s h => ?_⟩
  · rintro t n cond comb tword tline hold s hpend hsees htold hcomb rfl
    obtain ⟨w, hexec, htaken, hnot, hseg, hgen, hstack, hnone, hother, hquiet⟩ := brc_afterResults (cond := cond) hpend hsees htold hcomb
    generalize hv : s.modThread t (fun k => { k with pend := none }) = v at *
    obtain ⟨hthread, hvother, hrd, hvq⟩ := State.clearPend hv
    rw [hthread] at htaken hnot hstack hnone
    rw [hrd] at hnot hseg hgen
    generalize hu : (w.dropBranch t).noteState t = u at hexec
    obtain ⟨hpos', hstack', hpend', hother', hpc', hseg', hgen', hquiet'⟩ := w.afterDecision_keeps t hu
    refine ⟨u, hexec, hpend'.trans hnone, ?_, ?_, hstack'.trans hstack, fun j hj => (hother' j hj).trans ((hother j hj).trans (hvother j hj)),
      hseg'.trans hseg, hgen'.trans hgen, ?_⟩
    · rw [hpos', hpc']; exact htaken
    · rw [hpos', hpc']; exact hnot
    · exact hvq.from_nil ((hquiet.mono (by simp [placeOut])).trans (hquiet'.mono (by simp)))
  · intro t n comb s e rest hpend hsees htold hstack hpass
    generalize hv : s.modThread t (fun k => { k with pend := none }) = v
    obtain ⟨hthread, hvother, hrd, hvq⟩ := State.clearPend hv
    obtain ⟨hstack, hpos, hnone, hpc, hother, hquiet⟩ :=
      State.takeMend_lastPass (s := v) (comb := comb) (by rw [hthread]; exact hstack) hpass rfl
    have hexec : exec (.decisionResultsReady t) s = .next (((v.takeMend t comb).dropBranch t).noteState t) :=
      State.decide_ready hpend hsees htold hv rfl
    generalize v.takeMend t comb = w at *
    generalize hu : (w.dropBranch t).noteState t = u at hexec
    obtain ⟨hpos', hstack', hpend', hother', hpc', _, _, hquiet'⟩ := w.afterDecision_keeps t hu
    rw [hthread] at hpos hnone
    refine ⟨u, hexec, hpend'.trans hnone, hstack'.trans hstack, hpos'.trans hpos, by rw [hpc', hpc, hrd],
      fun j hj => (hother' j hj).trans ((hother j hj).trans (hvother j hj)), ?_⟩
    exact hvq.from_nil (hquiet.trans (hquiet'.mono fun a ha => List.mem_append_right _ (seqStatus_mem_stackOut t a ha)))
  · intro t n s e rest hpend hsees htold hstack hpass hpasses hmatched
    generalize hv : s.modThread t (fun k => { k with pend := none }) = v
    obtain ⟨hthread, hvother, hrd, hvq⟩ := State.clearPend hv
    obtain ⟨hstack, hpos, hnone, hseg, hgen, hpc, hother, hquiet⟩ :=
      State.takeMend_nextPass (s := v) (by rw [hthread]; exact hstack) hpass (by rw [hthread]; exact hpasses) (by rw [hthread]; exact hmatched) rfl
    have hexec : exec (.decisionResultsReady t) s = .next (((v.takeMend t 0).dropBranch t).noteState t) :=
      State.decide_ready hpend hsees htold hv rfl
    generalize v.takeMend t 0 = w at *
    generalize hu : (w.dropBranch t).noteState t = u at hexec
    obtain ⟨hpos', hstack', hpend', hother', hpc', hseg', hgen', hquiet'⟩ := w.afterDecision_keeps t hu
    rw [hthread] at hnone
    exact ⟨u, hexec, hpend'.trans hnone, hstack'.trans hstack, hpos'.trans hpos, hseg'.trans hseg, hgen'.trans hgen, hpc'.trans hpc,
      fun j hj => (hother' j hj).trans ((hother j hj).trans (hvother j hj)),
      hvq.from_nil (hquiet.trans (hquiet'.mono fun a ha => List.mem_cons_of_mem _ (seqStatus_mem_stackOut t a ha)))⟩
  · show Host.Outcome.next (s.decide_ t) = _
    rw [State.decide_]
    rcases h with h | h
    · rw [h]
    · dsimp only
      cases s.threads[t].pend with
      | none => rfl
      | some p => exact congrArg _ (if_neg fun hc => absurd hc.1 (Nat.not_le.2 h))
end

section
/-! Fault sources (R421, R424): what latching an occurrence changes, and what an occurrence of class RECORD or NOTIFY does. -/

set_option Elab.async false

namespace Sys2Proof.Machine

/-- Nothing but registers, completions, the matching store and the fault collector differs. -/
def FaultOnly (s t : State) : Prop := t = { s with regs := t.regs, hq := t.hq, sched := t.sched, flt := t.flt }

theorem FaultOnly.trans {s t u : State} (h : FaultOnly s t) (k : FaultOnly t u) : FaultOnly s u := by
  unfold FaultOnly at *; rw [k, h]

theorem EventOnly.fault {s t : State} (h : EventOnly s t) : FaultOnly s t := by
  unfold FaultOnly; unfold EventOnly at h; rw [h]

theorem FaultOnly.threads {s t : State} (h : FaultOnly s t) : t.threads = s.threads := by rw [h]

theorem FaultOnly.bytes {s t : State} (h : FaultOnly s t) : BytesSame s t := by rw [h]; exact .of_eq rfl rfl rfl rfl

theorem RegsSame.andWrP {out : List Nat} {s t : State} (h : RegsSame out s t) {f : Fld} (hf : f.addr ∈ out) (hhi : f.addr + 4 ∈ out) {v : Nat} :
    RegsSame out s (t.wrP f v) := (h.andWr hf).andWr (f := f.hi) hhi

/-- The first part of a latch: FLT_STATUS takes the source where none is latched, or where this one is lower in the same 10 ns. -/
def State.noteFirst (s : State) (i : Nat) : State :=
  if s.noLatch then
    ({ s with flt := { s.flt with firstRaw := s.tim.raw } }.wrs [(F.FLT_STATUS_FIRST_SRC, i), (F.FLT_STATUS_FIRST_VALID, 1)]).wrP
      F.FLT_FIRST_TIME_LO_TIME s.now
  else if sameTenNs s.flt.firstRaw s.tim.raw ∧ i < s.rd F.FLT_STATUS_FIRST_SRC then s.wr F.FLT_STATUS_FIRST_SRC i
  else s

/-- The count and time of a source. -/
def SrcInfo.noted (k : SrcInfo) (now : Nat) (forced : Bool) : SrcInfo := { count := min (k.count + 1) 65535, time := now, forced := forced }

theorem State.latchFault_eq (s : State) {i : Nat} (hi : i < 96) (bits : Nat) (forced : Bool) : s.latchFault i bits forced =
    let u := ((s.noteFirst i).setBit F.FLT_LATCH_LATCH i true).raise Ev.flt bits
    { u with flt := { u.flt with info := upd u.flt.info ⟨i, hi⟩ fun k => k.noted s.now forced } } := by
  simp only [State.latchFault, dif_pos hi]; rfl

theorem FaultOnly.refl (s : State) : FaultOnly s s := rfl

theorem RegsOnly.fault {s t : State} (h : RegsOnly s t) : FaultOnly s t := h.event.fault

/-- FLT_STATUS and FLT_FIRST_TIME. -/
def firstOut : List Nat := [(F.FLT_STATUS_STATE).addr, (F.FLT_FIRST_TIME_LO_TIME).addr, (F.FLT_FIRST_TIME_LO_TIME).addr + 4]

/-- The writes of the first source latched, from the state that has noted its instant. -/
theorem State.writeFirst (v : State) (i now : Nat) :
    let u := (v.wrs [(F.FLT_STATUS_FIRST_SRC, i), (F.FLT_STATUS_FIRST_VALID, 1)]).wrP F.FLT_FIRST_TIME_LO_TIME now
    RegsOnly v u ∧ RegsSame firstOut v u ∧ u.rd F.FLT_STATUS_STATE = v.rd F.FLT_STATUS_STATE := by
  refine ⟨(RegsOnly.wrs ..).trans (RegsOnly.wrP ..), ((RegsSame.refl firstOut v).andWrs ?_).andWrP ?_ ?_, ?_⟩
  · simp [firstOut, F.FLT_STATUS_FIRST_SRC, F.FLT_STATUS_FIRST_VALID, F.FLT_STATUS_STATE]
  · simp [firstOut]
  · simp [firstOut]
  · rw [State.wrP, State.rd_wr_other _ _ _ _ (.inl (by decide)), State.rd_wr_other _ _ _ _ (.inl (by decide))]
    simp only [State.wrs, List.foldl_cons, List.foldl_nil]
    rw [State.rd_wr_beside _ F.FLT_STATUS_FIRST_VALID F.FLT_STATUS_STATE _ rfl rfl (by decide) (by decide),
      State.rd_wr_beside _ F.FLT_STATUS_FIRST_SRC F.FLT_STATUS_STATE _ rfl rfl (by decide) (by decide)]

theorem State.noteFirst_keeps (s : State) (i : Nat) :
    FaultOnly s (s.noteFirst i) ∧ RegsSame firstOut s (s.noteFirst i) ∧ (s.noteFirst i).rd F.FLT_STATUS_STATE = s.rd F.FLT_STATUS_STATE := by
  unfold State.noteFirst
  split
  · generalize hv : ({ s with flt := { s.flt with firstRaw := s.tim.raw } } : State) = v
    have hfault : FaultOnly s v := by rw [← hv]; rfl
    have hregs : v.regs = s.regs := by rw [← hv]
    obtain ⟨honly, hsame, hstate⟩ := v.writeFirst i s.now
    exact ⟨hfault.trans honly.fault, (RegsSame.of_regs _ hregs).trans hsame, hstate.trans (by rw [State.rd, State.rd, State.word, State.word, hregs])⟩
  · split
    · exact ⟨(RegsOnly.wr ..).fault, (RegsSame.refl firstOut s).andWr (by simp [firstOut, F.FLT_STATUS_FIRST_SRC, F.FLT_STATUS_STATE]),
        State.rd_wr_beside _ _ _ _ rfl rfl (by decide) (by decide)⟩
    · exact ⟨FaultOnly.refl s, RegsSame.refl _ s, rfl⟩

theorem State.setBit_bit (s : State) (f : Nat → Fld) (i : Nat) (hf : ∀ k, (f k).lsb = 0 ∧ (f k).width = 32) :
    bitOf ((s.setBit f i true).rd (f (i / 32))) (i % 32) = true := by
  obtain ⟨hlsb, hwidth⟩ := hf (i / 32)
  have hi : i % 32 < 32 := Nat.mod_lt _ (by decide)
  simp only [State.setBit, if_true]
  rw [State.rd_wr_same _ _ _ (by omega), hwidth]
  simp only [Nat.testBit_mod_two_pow, Nat.testBit_or, Nat.testBit_two_pow_self, Bool.or_true, Bool.and_true, hi, decide_true]

theorem fltLatch_notMem (k : Nat) : (F.FLT_LATCH_LATCH k).addr ∉ evOut Ev.flt ∧ (F.FLT_LATCH_LATCH k).addr ∉ firstOut := by
  simp only [evOut, Ev.flt, Ev.sch, firstOut, F.SCH_UNCLAIMED_COUNT, F.FLT_LATCH_LATCH, F.FLT_STATUS_STATE, F.FLT_FIRST_TIME_LO_TIME,
    List.mem_cons, List.not_mem_nil, not_or, not_false_eq_true, and_true]
  omega

/-- What a latch of a source changes and what it leaves. -/
theorem State.latchFault_keeps (s : State) {i : Nat} (hi : i < 96) (bits : Nat) (forced : Bool) {u : State} (hu : s.latchFault i bits forced = u) :
    FaultOnly s u ∧ RegsSame (faultOut i) s u ∧ u.latched i = true ∧ u.rd F.FLT_STATUS_STATE = s.rd F.FLT_STATUS_STATE ∧
    u.rd Ev.flt.bits = (s.rd Ev.flt.bits ||| bits) % 2 ^ 32 := by
  obtain ⟨hfirst, hregs, hstate⟩ := s.noteFirst_keeps i
  rw [State.latchFault_eq s hi] at hu
  dsimp only at hu
  generalize s.noteFirst i = v at *
  generalize hw : v.setBit F.FLT_LATCH_LATCH i true = w at *
  have hwonly : RegsOnly v w := by rw [← hw]; exact RegsOnly.wr ..
  have hwregs : RegsSame [(F.FLT_LATCH_LATCH (i / 32)).addr] v w := by rw [← hw]; exact RegsSame.wr _ _ _ (List.mem_singleton_self _)
  have hwbit : bitOf (w.rd (F.FLT_LATCH_LATCH (i / 32))) (i % 32) = true := by rw [← hw]; exact State.setBit_bit _ _ _ fun _ => ⟨rfl, rfl⟩
  generalize hx : w.raise Ev.flt bits = x at *
  have hxonly : EventOnly w x := by rw [← hx]; exact State.raise_event ..
  have hxregs : RegsSame (evOut Ev.flt) w x := by rw [← hx]; exact State.raise_regs _ _ _
  have hxbits : x.rd Ev.flt.bits = (w.rd Ev.flt.bits ||| bits) % 2 ^ 32 := by rw [← hx]; exact State.raise_bits _ _ _ (by decide)
  have huregs : u.regs = x.regs := by rw [← hu]
  have hrd (f : Fld) : u.rd f = x.rd f := by rw [State.rd, State.rd, State.word, State.word, huregs]
  obtain ⟨hlatch, _⟩ := fltLatch_notMem (i / 32)
  refine ⟨(hfirst.trans (hwonly.fault.trans hxonly.fault)).trans (by rw [← hu]; rfl), ?_, ?_, ?_, ?_⟩
  · exact (((hregs.mono (by simp [firstOut, faultOut])).trans (hwregs.mono (by simp [faultOut]))).trans
      (hxregs.mono fun _ h => List.mem_append_right _ h)).andRegs huregs
  · rw [State.latched, hrd, hxregs.rd _ hlatch]; exact hwbit
  · rw [hrd, hxregs.rd _ (by decide), hwregs.rd _ (by simp only [F.FLT_STATUS_STATE, F.FLT_LATCH_LATCH, List.mem_singleton]; omega), hstate]
  · rw [hrd, hxbits, hwregs.rd Ev.flt.bits (by simp only [Ev.flt, EvReg.bits, F.FLT_LATCH_LATCH, List.mem_singleton]; omega),
      hregs.rd _ (by decide)]

/-- An occurrence of class RECORD or NOTIFY only latches its source. -/
theorem State.fault_noted {s : State} {i : Nat} (hcls : s.classOf i < 2) (g : Option (Fin 32)) (forced mism : Bool) :
    s.fault i g forced mism = s.latchFault i (occurrenceBits (s.classOf i) (s.latched i) mism) forced := if_pos hcls

end Sys2Proof.Machine
end

section
/-! SIG and the checks it queues (R107), and the obligation O5. -/

set_option Elab.async false

namespace Sys2Proof.Machine

theorem sig_ready {t : Fin 32} {start count crc : Nat} {s : State} {x : Seg} (hr : s.readyFor t (.sig start count crc) x) (h0 : 0 < count)
    (htier : x.tier ≠ .host) (hend : start + count ≤ x.grans) : Answers (.sig t start count crc) s fun u =>
      u.threads[t].sigs = s.threads[t].sigs ++ [⟨x.id, x.gen, start, count, crc⟩] ∧
      u.rd (F.SEQ_PC_WORD t) = (s.rd (F.SEQ_PC_WORD t) + 2) % 2 ^ 24 ∧ (∀ v, v ≠ t → u.threads[v] = s.threads[v]) ∧
      Quiet [(F.SEQ_PC_WORD t).addr] s u := by
  obtain ⟨v, hact, hthreads, hrd, _, hq, _⟩ := State.decode_fetched hr
  generalize hw : v.modThread t (fun k => { k with sigs := k.sigs ++ [⟨x.id, x.gen, start, count, crc⟩] }) = w
  have hwthreads : w.threads = upd s.threads t fun k => { k with sigs := k.sigs ++ [⟨x.id, x.gen, start, count, crc⟩] } := by
    rw [← hw, State.modThread_threads, hthreads]
  have hwrd : w.rd (F.SEQ_PC_WORD t) = s.rd (F.SEQ_PC_WORD t) := by rw [← hw, State.modThread_rd, hrd]
  have hwq : Quiet [(F.SEQ_PC_WORD t).addr] s w := by rw [← hw]; exact hq.from_nil (Quiet.refl _ v).andModThread
  refine ⟨w.advance t 2, ?_, ?_, ?_, fun j hj => ?_, hwq.andAdvance (List.mem_cons_self ..)⟩
  · show Host.Outcome.next (s.decode t _ _) = _
    rw [hact, if_neg (by simp only [htier, false_or]; omega), hw]
  · rw [State.advance_threads, hwthreads, upd_same]
  · rw [State.advance_pc, hwrd]
  · rw [State.advance_threads, hwthreads, upd_other _ _ _ _ hj]

/-- The bytes a check reads: granules of its segment as stored. -/
def State.sigBytes (s : State) (x : Seg) (c : SigCheck) : List Byte := (List.range c.count).flatMap fun i => s.storedGran x (c.start + i)

/-- The state from which a check's outcome is noted: the check is gone, and the bytes it read count as traffic. -/
theorem State.sigCheck_taken {s : State} {t : Fin 32} {c : SigCheck} {rest : List SigCheck} {x : Seg} (hsigs : s.threads[t].sigs = c :: rest)
    (hseg : s.segAt c.seg c.gen = some x) : ∃ v : State, v.threads = upd s.threads t (fun k => { k with sigs := rest }) ∧ v.regs = s.regs ∧
      (∀ out, Quiet out s v) ∧ exec (.sigCheckDone t) s =
        (if crc32 (s.sigBytes x c) = c.crc then .next (v.incSat (F.SEQ_SIG_CNT_PASS t))
        else .next ((((v.incSat (F.SEQ_SIG_CNT_MISMATCH t)).wrs
          [(F.SEQ_SIG_LOC_SEG t, c.seg), (F.SEQ_SIG_LOC_GEN t, c.gen), (F.SEQ_SIG_START_START t, c.start)]).event (Ev.seq t) 3).faultOnce 14
            (some (v.lead t)))) := by
  generalize hw : s.modThread t (fun k => { k with sigs := rest }) = w
  have hwq (out : List Nat) : Quiet out s w := by rw [← hw]; exact (Quiet.refl _ s).andModThread
  have hwthreads : w.threads = upd s.threads t (fun k => { k with sigs := rest }) := by rw [← hw, State.modThread_threads]
  have hwregs : w.regs = s.regs := by rw [← hw]; rfl
  refine ⟨if w.threads[t].members = 0 then w
      else w.modGrove (w.lead t) fun g => { g with traffic := g.traffic + 8 * (s.sigBytes x c).length }, ?_, ?_, ?_, ?_⟩
  · split
    · exact hwthreads
    · exact (State.modGrove_threads ..).trans hwthreads
  · split
    · exact hwregs
    · exact (State.modGrove_regs ..).trans hwregs
  · intro out
    split
    · exact hwq out
    · exact (hwq out).andModGrove
  · show execSigCheckDone t s = _
    unfold execSigCheckDone
    rw [hsigs]
    dsimp only
    rw [show (s.modThread t fun k => { k with sigs := rest }).segAt c.seg c.gen = some x from hseg]
    dsimp only
    rw [hw, show s.sigBytes x c = w.sigBytes x c by rw [← hw]; rfl]
    rfl

theorem State.rd_of_regs {s u : State} (h : u.regs = s.regs) (f : Fld) : u.rd f = s.rd f := by
  rw [State.rd, State.rd, State.word, State.word, h]

theorem RegsSame.classOf {out : List Nat} {s u : State} (h : RegsSame out s u) {i : Nat} (hi : (F.FLT_CLASS_CLASS (i / 4)).addr ∉ out) :
    u.classOf i = s.classOf i := by
  rw [State.classOf, State.classOf, h.rd _ hi]

theorem sigCheck_passes {t : Fin 32} {s : State} {c : SigCheck} {rest : List SigCheck} {x : Seg} (hsigs : s.threads[t].sigs = c :: rest)
    (hseg : s.segAt c.seg c.gen = some x) (hcrc : crc32 (s.sigBytes x c) = c.crc) :
    Answers (.sigCheckDone t) s fun u => u.threads[t].sigs = rest ∧
      u.rd (F.SEQ_SIG_CNT_PASS t) = min (s.rd (F.SEQ_SIG_CNT_PASS t) + 1) 65535 ∧
      u.rd (F.SEQ_SIG_CNT_MISMATCH t) = s.rd (F.SEQ_SIG_CNT_MISMATCH t) ∧ (∀ v, v ≠ t → u.threads[v] = s.threads[v]) ∧
      Quiet [(F.SEQ_SIG_CNT_PASS t).addr] s u := by
  obtain ⟨v, hthreads, hregs, hquiet, hexec⟩ := State.sigCheck_taken hsigs hseg
  rw [if_pos hcrc] at hexec
  refine ⟨_, hexec, ?_, ?_, ?_, fun j hj => ?_, (hquiet _).andWr (List.mem_singleton_self _)⟩
  · rw [State.incSat_threads, hthreads, upd_same]
  · rw [State.rd_incSat _ _ (by simp [F.SEQ_SIG_CNT_PASS]), State.rd_of_regs hregs]; rfl
  · rw [State.incSat, State.rd_wr_beside _ _ _ _ (by rfl) (by rfl) (by simp [F.SEQ_SIG_CNT_PASS]) (by simp [F.SEQ_SIG_CNT_PASS, F.SEQ_SIG_CNT_MISMATCH]),
      State.rd_of_regs hregs]
  · rw [State.incSat_threads, hthreads, upd_other _ _ _ _ hj]

/-- The registers in which a mismatch is counted and located. -/
def sigOut (t : Fin 32) : List Nat := [(F.SEQ_SIG_CNT_PASS t).addr, (F.SEQ_SIG_LOC_SEG t).addr, (F.SEQ_SIG_START_START t).addr]

/-- The count and the place of a mismatch. -/
theorem State.noteMismatch (v : State) (t : Fin 32) (seg gen start : Nat) :
    let w := (v.incSat (F.SEQ_SIG_CNT_MISMATCH t)).wrs [(F.SEQ_SIG_LOC_SEG t, seg), (F.SEQ_SIG_LOC_GEN t, gen), (F.SEQ_SIG_START_START t, start)]
    w.rd (F.SEQ_SIG_CNT_MISMATCH t) = min (v.rd (F.SEQ_SIG_CNT_MISMATCH t) + 1) 65535 ∧
      w.rd (F.SEQ_SIG_CNT_PASS t) = v.rd (F.SEQ_SIG_CNT_PASS t) ∧ w.rd (F.SEQ_SIG_LOC_SEG t) = seg % 2 ^ 16 ∧
      w.rd (F.SEQ_SIG_LOC_GEN t) = gen % 2 ^ 8 ∧ w.rd (F.SEQ_SIG_START_START t) = start % 2 ^ 28 ∧ w.threads = v.threads ∧ Quiet (sigOut t) v w := by
  have hplace : RegsSame [(F.SEQ_SIG_LOC_SEG t).addr, (F.SEQ_SIG_START_START t).addr] (v.incSat (F.SEQ_SIG_CNT_MISMATCH t))
      ((v.incSat (F.SEQ_SIG_CNT_MISMATCH t)).wrs [(F.SEQ_SIG_LOC_SEG t, seg), (F.SEQ_SIG_LOC_GEN t, gen), (F.SEQ_SIG_START_START t, start)]) :=
    .wrs _ _ (by simp [F.SEQ_SIG_LOC_SEG, F.SEQ_SIG_LOC_GEN])
  have hcnt : (F.SEQ_SIG_CNT_PASS t).addr ∉ [(F.SEQ_SIG_LOC_SEG t).addr, (F.SEQ_SIG_START_START t).addr] := by
    simp [F.SEQ_SIG_CNT_PASS, F.SEQ_SIG_LOC_SEG, F.SEQ_SIG_START_START]
  refine ⟨?_, ?_, ?_, ?_, ?_, ?_, ?_⟩
  · rw [hplace.rd (F.SEQ_SIG_CNT_MISMATCH t) hcnt, State.rd_incSat _ _ (by simp [F.SEQ_SIG_CNT_MISMATCH])]; rfl
  · rw [hplace.rd _ hcnt, State.incSat, State.rd_wr_beside _ _ _ _ (by rfl) (by rfl) (by simp [F.SEQ_SIG_CNT_MISMATCH])
      (by simp [F.SEQ_SIG_CNT_MISMATCH, F.SEQ_SIG_CNT_PASS])]
  · simp only [State.wrs, List.foldl_cons, List.foldl_nil]
    rw [State.rd_wr_other _ _ _ _ (.inl (by simp [F.SEQ_SIG_LOC_SEG, F.SEQ_SIG_START_START])),
      State.rd_wr_beside _ _ _ _ (by rfl) (by rfl) (by simp [F.SEQ_SIG_LOC_GEN]) (by simp [F.SEQ_SIG_LOC_GEN, F.SEQ_SIG_LOC_SEG]),
      State.rd_wr_same _ _ _ (by simp [F.SEQ_SIG_LOC_SEG])]
    rfl
  · simp only [State.wrs, List.foldl_cons, List.foldl_nil]
    rw [State.rd_wr_other _ _ _ _ (.inl (by simp [F.SEQ_SIG_LOC_GEN, F.SEQ_SIG_START_START])),
      State.rd_wr_same _ _ _ (by simp [F.SEQ_SIG_LOC_GEN])]
    rfl
  · simp only [State.wrs, List.foldl_cons, List.foldl_nil]
    exact State.rd_wr_same _ _ _ (by simp [F.SEQ_SIG_START_START])
  · rw [State.wrs_threads, State.incSat_threads]
  · exact ((Quiet.refl _ v).andWr (by simp [sigOut, F.SEQ_SIG_CNT_PASS, F.SEQ_SIG_CNT_MISMATCH])).andWrs
      (by simp [sigOut, F.SEQ_SIG_LOC_SEG, F.SEQ_SIG_LOC_GEN, F.SEQ_SIG_CNT_PASS])

/-- A thread's fault of class RECORD or NOTIFY, reported by one of the thread's events. -/
theorem State.event_fault {w : State} {t : Fin 32} {bit i : Nat} {g : Option (Fin 32)} (hi : i < 96) (hcls : w.classOf i < 2) {u : State}
    (hu : (w.event (Ev.seq t) bit).faultOnce i g = u) :
    u.threads = w.threads ∧ u.latched i = true ∧ RegsSame (evOut (Ev.seq t) ++ faultOut i) w u ∧ BytesSame w u := by
  have hevent := w.event_event (Ev.seq t) bit
  have hregs := w.event_regs (Ev.seq t) bit
  generalize w.event (Ev.seq t) bit = x at *
  have ht := t.isLt
  have hxcls : x.classOf i < 2 := by
    rw [hregs.classOf (by simp only [evOut, Ev.seq, Ev.sch, F.SCH_UNCLAIMED_COUNT, F.FLT_CLASS_CLASS, List.mem_cons, List.not_mem_nil, or_false]; omega)]
    exact hcls
  rw [State.faultOnce, State.fault_noted hxcls] at hu
  obtain ⟨hfault, hfregs, hlatched, _, _⟩ := State.latchFault_keeps x hi _ _ hu
  exact ⟨hfault.threads.trans hevent.threads, hlatched,
    (hregs.mono fun _ h => List.mem_append_left _ h).trans (hfregs.mono fun _ h => List.mem_append_right _ h),
    hevent.bytes.trans hfault.bytes⟩

theorem sig_notMem_fault (t : Fin 32) : ∀ a ∈ sigOut t, a ∉ evOut (Ev.seq t) ++ faultOut 14 := by
  simp only [sigOut, evOut, faultOut, Ev.seq, Ev.sch, Ev.flt, F.SEQ_SIG_CNT_PASS, F.SEQ_SIG_LOC_SEG, F.SEQ_SIG_START_START,
    F.SCH_UNCLAIMED_COUNT, F.FLT_STATUS_STATE, F.FLT_FIRST_TIME_LO_TIME, F.FLT_LATCH_LATCH, List.mem_cons, List.mem_append, List.not_mem_nil, or_false]
  rintro a (rfl | rfl | rfl | h) <;> omega

theorem sigCheck_fails {t : Fin 32} {s : State} {c : SigCheck} {rest : List SigCheck} {x : Seg} (hsigs : s.threads[t].sigs = c :: rest)
    (hseg : s.segAt c.seg c.gen = some x) (hcrc : crc32 (s.sigBytes x c) ≠ c.crc) (hcls : s.classOf 14 < 2) :
    Answers (.sigCheckDone t) s fun u => u.threads[t].sigs = rest ∧
      u.rd (F.SEQ_SIG_CNT_MISMATCH t) = min (s.rd (F.SEQ_SIG_CNT_MISMATCH t) + 1) 65535 ∧
      u.rd (F.SEQ_SIG_CNT_PASS t) = s.rd (F.SEQ_SIG_CNT_PASS t) ∧ u.rd (F.SEQ_SIG_LOC_SEG t) = c.seg % 2 ^ 16 ∧
      u.rd (F.SEQ_SIG_LOC_GEN t) = c.gen % 2 ^ 8 ∧ u.rd (F.SEQ_SIG_START_START t) = c.start % 2 ^ 28 ∧ u.latched 14 = true ∧
      (∀ v, v ≠ t → u.threads[v] = s.threads[v]) ∧ Quiet (sigOut t ++ evOut (Ev.seq t) ++ faultOut 14) s u := by
  obtain ⟨v, hthreads, hregs, hquiet, hexec⟩ := State.sigCheck_taken hsigs hseg
  rw [if_neg hcrc] at hexec
  obtain ⟨hmis, hpass, hlseg, hlgen, hstart, hwthreads, hwquiet⟩ := v.noteMismatch t c.seg c.gen c.start
  generalize (v.incSat (F.SEQ_SIG_CNT_MISMATCH t)).wrs _ = w at *
  have ht := t.isLt
  have hwcls : w.classOf 14 < 2 := by
    rw [((hquiet _).trans hwquiet).1.classOf]
    · exact hcls
    · simp only [sigOut, F.FLT_CLASS_CLASS, F.SEQ_SIG_CNT_PASS, F.SEQ_SIG_LOC_SEG, F.SEQ_SIG_START_START, List.mem_cons, List.not_mem_nil, or_false]; omega
  generalize hu : (w.event (Ev.seq t) 3).faultOnce 14 _ = u at hexec
  obtain ⟨huthreads, hlatched, huregs, hubytes⟩ := State.event_fault (by decide) hwcls hu
  have hrd {f : Fld} (hf : f.addr ∈ sigOut t) : u.rd f = w.rd f := huregs.rd f (sig_notMem_fault t _ hf)
  refine ⟨u, hexec, ?_, ?_, ?_, ?_, ?_, ?_, hlatched, fun j hj => ?_, ?_⟩
  · rw [huthreads, hwthreads, hthreads, upd_same]
  · rw [hrd (by simp [sigOut, F.SEQ_SIG_CNT_MISMATCH, F.SEQ_SIG_CNT_PASS]), hmis, State.rd_of_regs hregs]
  · rw [hrd (by simp [sigOut]), hpass, State.rd_of_regs hregs]
  · rw [hrd (by simp [sigOut]), hlseg]
  · rw [hrd (by simp [sigOut, F.SEQ_SIG_LOC_SEG, F.SEQ_SIG_LOC_GEN]), hlgen]
  · rw [hrd (by simp [sigOut]), hstart]
  · rw [huthreads, hwthreads, hthreads, upd_other _ _ _ _ hj]
  · rw [List.append_assoc]
    exact (((hquiet (sigOut t)).trans hwquiet).mono fun _ h => List.mem_append_left _ h).trans
      ⟨huregs.mono fun _ h => List.mem_append_right _ h, hubytes⟩

end Sys2Proof.Machine

open Sys2Proof Sys2Proof.Machine

/-- Settles O5: SIG queues its check, and a check passes or fails by the CRC-32 of the granules as stored. -/
theorem signatures : Obligations.Signatures := by
  unfold Obligations.Signatures
  exact ⟨fun t start count crc s x => sig_ready, fun t s c rest x => sigCheck_passes, fun t s c rest x => sigCheck_fails⟩
end

section
/-! Words that fail their checks (R120), announcements of host streams (R130), and the obligation O6. -/

set_option Elab.async false

namespace Sys2Proof.Machine

/-! ## Fields apart -/

/-- Two fields that share no bit. -/
abbrev Fld.apart (f g : Fld) : Prop := g.addr ≠ f.addr ∨ g.blk ≠ f.blk ∨ g.lsb + g.width ≤ f.lsb ∨ f.lsb + f.width ≤ g.lsb

theorem State.rd_wr_apart (s : State) (f g : Fld) (v : Nat) (hf : f.lsb + f.width ≤ 32) (h : f.apart g) : (s.wr f v).rd g = s.rd g := by
  rcases h with h | h | h
  · exact State.rd_wr_other _ _ _ _ (.inl h)
  · exact State.rd_wr_other _ _ _ _ (.inr h)
  · by_cases hsame : g.blk = f.blk ∧ g.addr = f.addr
    · exact State.rd_wr_beside _ _ _ _ hsame.1 hsame.2 hf h.symm
    · exact State.rd_wr_other _ _ _ _ (by tauto)

theorem State.rd_wr_fit (s : State) (f : Fld) (v : Nat) (hf : f.lsb + f.width ≤ 32) (hv : v < 2 ^ f.width) : (s.wr f v).rd f = v := by
  rw [State.rd_wr_same _ _ _ hf, Nat.mod_eq_of_lt hv]

theorem Quiet.andWrP {out : List Nat} {s t : State} (h : Quiet out s t) {f : Fld} (hf : f.addr ∈ out) (hhi : f.addr + 4 ∈ out) {v : Nat} :
    Quiet out s (t.wrP f v) := (h.andWr hf).andWr (f := f.hi) hhi

/-! ## A thread that stops at a word (R120) -/

/-- The code of a word error is one of 1 to 3. -/
theorem State.placeError_lt {s : State} {t : Fin 32} {x : Seg} {c : Nat} (h : s.placeError t x = some c) : c < 16 := by
  unfold State.placeError at h
  dsimp only at h
  split at h
  · cases h; decide
  · split at h
    next hword =>
      unfold wordError at hword
      split at hword
      · split at hword <;> (cases hword; cases h; decide)
      · split at hword
        · cases hword; cases h; decide
        · split at hword <;> cases hword
          cases h; decide
    next =>
      split at h <;> cases h
      decide

/-- The registers of a thread's error. -/
def errOut (t : Fin 32) : List Nat := [(F.SEQ_ERR_CODE t).addr, (F.SEQ_ERR_LOC_WORD t).addr]

/-- SEQ_ERR and SEQ_ERR_LOC as an error writes them. -/
theorem State.writeErr (s : State) (t : Fin 32) (code seg gen word : Nat) :
    let u := s.wrs [(F.SEQ_ERR_CODE t, code), (F.SEQ_ERR_SEG t, seg), (F.SEQ_ERR_GEN t, gen), (F.SEQ_ERR_LOC_WORD t, word)]
    u.rd (F.SEQ_ERR_CODE t) = code % 16 ∧ u.rd (F.SEQ_ERR_SEG t) = seg % 2 ^ 16 ∧ u.rd (F.SEQ_ERR_GEN t) = gen % 2 ^ 8 ∧
      u.rd (F.SEQ_ERR_LOC_WORD t) = word % 2 ^ 24 ∧ Quiet (errOut t) s u ∧ u.threads = s.threads ∧ u.bursts = s.bursts := by
  refine ⟨?_, ?_, ?_, ?_, (Quiet.refl _ s).andWrs ?_, ?_, ?_⟩
  · simp only [State.wrs, List.foldl_cons, List.foldl_nil]
    rw [State.rd_wr_apart _ _ _ _ (by simp [F.SEQ_ERR_LOC_WORD]) (by simp [Fld.apart, F.SEQ_ERR_LOC_WORD, F.SEQ_ERR_CODE]),
      State.rd_wr_apart _ _ _ _ (by simp [F.SEQ_ERR_GEN]) (by simp [Fld.apart, F.SEQ_ERR_GEN, F.SEQ_ERR_CODE]),
      State.rd_wr_apart _ _ _ _ (by simp [F.SEQ_ERR_SEG]) (by simp [Fld.apart, F.SEQ_ERR_SEG, F.SEQ_ERR_CODE]),
      State.rd_wr_same _ _ _ (by simp [F.SEQ_ERR_CODE])]
    rfl
  · simp only [State.wrs, List.foldl_cons, List.foldl_nil]
    rw [State.rd_wr_apart _ _ _ _ (by simp [F.SEQ_ERR_LOC_WORD]) (by simp [Fld.apart, F.SEQ_ERR_LOC_WORD, F.SEQ_ERR_SEG]),
      State.rd_wr_apart _ _ _ _ (by simp [F.SEQ_ERR_GEN]) (by simp [Fld.apart, F.SEQ_ERR_GEN, F.SEQ_ERR_SEG]),
      State.rd_wr_same _ _ _ (by simp [F.SEQ_ERR_SEG])]
    rfl
  · simp only [State.wrs, List.foldl_cons, List.foldl_nil]
    rw [State.rd_wr_apart _ _ _ _ (by simp [F.SEQ_ERR_LOC_WORD]) (by simp [Fld.apart, F.SEQ_ERR_LOC_WORD, F.SEQ_ERR_GEN]),
      State.rd_wr_same _ _ _ (by simp [F.SEQ_ERR_GEN])]
    rfl
  · simp only [State.wrs, List.foldl_cons, List.foldl_nil]
    exact State.rd_wr_same _ _ _ (by simp [F.SEQ_ERR_LOC_WORD])
  · simp [errOut, F.SEQ_ERR_CODE, F.SEQ_ERR_SEG, F.SEQ_ERR_GEN]
  · exact State.wrs_threads ..
  · exact State.wrs_bursts ..

theorem errOut_notMem_fault (t : Fin 32) : ∀ a ∈ errOut t, a ∉ evOut (Ev.seq t) ++ faultOut 12 := by
  have ht := t.isLt
  simp only [errOut, evOut, faultOut, Ev.seq, Ev.sch, Ev.flt, F.SEQ_ERR_CODE, F.SEQ_ERR_LOC_WORD,
    F.SCH_UNCLAIMED_COUNT, F.FLT_STATUS_STATE, F.FLT_FIRST_TIME_LO_TIME, F.FLT_LATCH_LATCH, List.mem_cons, List.mem_append, List.not_mem_nil, or_false]
  rintro a (rfl | rfl) <;> omega

/-- The fault source of an error: parity, or an illegal instruction. -/
def errSource (code : Nat) : Nat := if code = 1 then 13 else 12

theorem errSource_lt (code : Nat) : errSource code < 96 ∧ errSource code / 32 = 0 := by unfold errSource; split <;> decide

theorem faultOut_errSource (code : Nat) : faultOut (errSource code) = faultOut 12 := by rw [faultOut, (errSource_lt code).2]; rfl

theorem upd_id {α : Type} {n : Nat} (v : Vector α n) (i : Fin n) : upd v i id = v := by
  ext j hj
  exact upd_keeps v (i := i) (j := ⟨j, hj⟩) id fun _ => rfl

theorem State.classOf_event (w : State) (t : Fin 32) (bit : Nat) (i : Nat) : (w.event (Ev.seq t) bit).classOf i = w.classOf i := by
  have ht := t.isLt
  refine (w.event_regs (Ev.seq t) bit).classOf ?_
  simp only [evOut, Ev.seq, Ev.sch, F.SCH_UNCLAIMED_COUNT, F.FLT_CLASS_CLASS, List.mem_cons, List.not_mem_nil, or_false]; omega

/-- The event that reports a thread's fault stays set. -/
theorem State.event_fault_bit {w : State} {t : Fin 32} {bit i : Nat} {g : Option (Fin 32)} (hbit : bit < 32) (hi : i < 96)
    (hcls : w.classOf i < 2) {u : State} (hu : (w.event (Ev.seq t) bit).faultOnce i g = u) : bitOf (u.rd (Ev.seq t).bits) bit = true := by
  have ht := t.isLt
  rw [State.faultOnce, State.fault_noted (by rw [State.classOf_event]; exact hcls)] at hu
  obtain ⟨_, hregs, _, _, _⟩ := State.latchFault_keeps _ hi _ _ hu
  rw [hregs.rd]
  · refine State.event_bit w (Ev.seq t) ?_ hbit
    simp only [Ev.seq, occOut, Ev.sch, F.SCH_UNCLAIMED_COUNT, List.mem_cons, List.not_mem_nil, or_false]; omega
  · simp only [Ev.seq, EvReg.bits, faultOut, evOut, Ev.flt, Ev.sch, F.SCH_UNCLAIMED_COUNT, F.FLT_STATUS_STATE, F.FLT_FIRST_TIME_LO_TIME,
      F.FLT_LATCH_LATCH, List.mem_cons, List.mem_append, List.not_mem_nil, or_false]
    omega

/-- What an error of class RECORD or NOTIFY does to a thread that has not begun to run: it ends after the lines decoded before. -/
theorem State.seqErrorAt_still {s : State} {t : Fin 32} {code seg gen word : Nat} (hrun : s.threadAt t [.running] = false)
    (hcls : s.classOf (errSource code) < 2) {u : State} (hu : s.seqErrorAt t code seg gen word = u) :
    u.rd (F.SEQ_ERR_CODE t) = code % 16 ∧ u.rd (F.SEQ_ERR_SEG t) = seg % 2 ^ 16 ∧ u.rd (F.SEQ_ERR_GEN t) = gen % 2 ^ 8 ∧
    u.rd (F.SEQ_ERR_LOC_WORD t) = word % 2 ^ 24 ∧ u.threads[t].endAfter = some ⟨s.threads[t].line, .seqError, false⟩ ∧
    u.threads[t].annWait = s.threads[t].annWait ∧ (∀ v, v ≠ t → u.threads[v] = s.threads[v]) ∧
    bitOf (u.rd (Ev.seq t).bits) 1 = true ∧ u.latched (errSource code) = true ∧
    Quiet (errOut t ++ evOut (Ev.seq t) ++ faultOut 12) s u := by
  have ht := t.isLt
  obtain ⟨hcode, hseg, hgen, hword, hquiet, hthreads, hbursts⟩ := s.writeErr t code seg gen word
  unfold State.seqErrorAt at hu
  dsimp only at hu
  generalize s.wrs _ = w at *
  generalize hv : w.modThread t (fun k => { k with endAfter := some ⟨k.line, .seqError, false⟩ }) = v
  have hvthreads : v.threads = upd s.threads t fun k => { k with endAfter := some ⟨k.line, .seqError, false⟩ } := by
    rw [← hv, State.modThread_threads, hthreads]
  have hvrd (f : Fld) : v.rd f = w.rd f := by rw [← hv, State.modThread_rd]
  have hvquiet : Quiet (errOut t) s v := by rw [← hv]; exact hquiet.andModThread
  have hstill : v.threadAt t [.running] = false := by
    rw [← hrun]
    exact State.threadAt_congr (by rw [← hv, State.modThread_bursts, hbursts]) (by rw [hvthreads, upd_same]) _
  have hend : w.endThread t .seqError false = v := by rw [State.endThread, hv, State.checkEnd, if_pos hstill]
  have hvcls : v.classOf (errSource code) < 2 := by
    rw [hvquiet.1.classOf]
    · exact hcls
    · simp only [errOut, F.FLT_CLASS_CLASS, F.SEQ_ERR_CODE, F.SEQ_ERR_LOC_WORD, List.mem_cons, List.not_mem_nil, or_false]; omega
  have hgoes : ¬ (v.threadAt t [.running] = false ∧ 2 ≤ v.classOf (errSource code)) := fun h => absurd h.2 (Nat.not_le.2 hvcls)
  rw [hend, show (if code = 1 then 13 else 12) = errSource code from rfl, if_neg hgoes] at hu
  generalize hx : (v.event (Ev.seq t) 1).faultOnce (errSource code) (some (w.lead t)) = x at hu
  obtain ⟨hxthreads, hlatched, hxregs, hxbytes⟩ := State.event_fault (errSource_lt code).1 hvcls hx
  have hbit := State.event_fault_bit (by decide) (errSource_lt code).1 hvcls hx
  rw [faultOut_errSource] at hxregs
  obtain ⟨f, huthreads, hendAfter, hann, huregs, hubytes⟩ : ∃ f : Thread → Thread, u.threads = upd x.threads t f ∧
      (∀ k, (f k).endAfter = k.endAfter) ∧ (∀ k, (f k).annWait = k.annWait) ∧ u.regs = x.regs ∧ BytesSame x u := by
    rw [← hu]
    split
    · exact ⟨id, (upd_id _ _).symm, fun _ => rfl, fun _ => rfl, rfl, BytesSame.refl _⟩
    · exact ⟨_, State.modThread_threads .., fun _ => rfl, fun _ => rfl, State.modThread_regs .., (Quiet.refl [] x).andModThread.2⟩
  have hrd {f : Fld} (hf : f.addr ∈ errOut t) : u.rd f = w.rd f := by
    rw [State.rd_of_regs huregs, hxregs.rd _ (errOut_notMem_fault t _ hf), hvrd]
  refine ⟨?_, ?_, ?_, ?_, ?_, ?_, fun j hj => ?_, ?_, ?_, ?_⟩
  · rw [hrd (by simp [errOut]), hcode]
  · rw [hrd (by simp [errOut, F.SEQ_ERR_SEG, F.SEQ_ERR_CODE]), hseg]
  · rw [hrd (by simp [errOut, F.SEQ_ERR_GEN, F.SEQ_ERR_CODE]), hgen]
  · rw [hrd (by simp [errOut]), hword]
  · rw [huthreads, upd_same, hendAfter, hxthreads, hvthreads, upd_same]
  · rw [huthreads, upd_same, hann, hxthreads, hvthreads, upd_same]
  · rw [huthreads, upd_other _ _ _ _ hj, hxthreads, hvthreads, upd_other _ _ _ _ hj]
  · rw [State.rd_of_regs huregs, hbit]
  · rw [State.latched, State.rd_of_regs huregs]; exact hlatched
  · rw [List.append_assoc]
    exact (hvquiet.mono fun _ h => List.mem_append_left _ h).trans
      ⟨(hxregs.andRegs huregs).mono fun _ h => List.mem_append_right _ h, hxbytes.trans hubytes⟩

theorem illegal_stops {t : Fin 32} {c : Nat} {s : State} {x : Seg} (hd : s.decodes t = true) (hseg : s.threadSeg t = some x)
    (hplace : s.placeError t x = some c) (hrun : s.threadAt t [.running] = false) (hcls : s.classOf (errSource c) < 2) :
    Answers (.illegalInstruction t) s fun u =>
      u.rd (F.SEQ_ERR_CODE t) = c ∧ u.rd (F.SEQ_ERR_SEG t) = s.rd (F.SEQ_SEG_SEG t) ∧ u.rd (F.SEQ_ERR_GEN t) = s.rd (F.SEQ_SEG_GEN t) ∧
      u.rd (F.SEQ_ERR_LOC_WORD t) = s.rd (F.SEQ_PC_WORD t) ∧ u.threads[t].endAfter = some ⟨s.threads[t].line, .seqError, false⟩ ∧
      bitOf (u.rd (Ev.seq t).bits) 1 = true ∧ u.latched (errSource c) = true ∧ (∀ v, v ≠ t → u.threads[v] = s.threads[v]) ∧
      Quiet (errOut t ++ evOut (Ev.seq t) ++ faultOut 12) s u := by
  refine ⟨s.seqError t c, ?_, ?_⟩
  · show Host.Outcome.next _ = _
    rw [if_pos hd, hseg, Option.bind_some, hplace]
  · obtain ⟨hcode, hseg, hgen, hword, hend, _, hother, hbit, hlatched, hquiet⟩ := State.seqErrorAt_still hrun hcls (rfl : _ = s.seqError t c)
    exact ⟨hcode.trans (Nat.mod_eq_of_lt (State.placeError_lt hplace)), hseg.trans (s.rd_mod _), hgen.trans (s.rd_mod _), hword.trans (s.rd_mod _),
      hend, hbit, hlatched, hother, hquiet⟩

/-! ## Announcements (R130) -/

/-- The registers that show a stream. -/
def strmOut (t : Fin 32) : List Nat :=
  [(F.HQ_STRM_STAT_ANN t).addr, (F.HQ_STRM_CONS_LO_K t).addr, (F.HQ_STRM_CONS_LO_K t).addr + 4]

theorem State.noteStream_keeps (s : State) (t : Fin 32) : (s.noteStream t).threads = s.threads ∧ (s.noteStream t).streams = s.streams ∧
    (s.noteStream t).rd (F.HQ_STRM_STAT_ANN t) = min 7 s.streams[t].anns.length ∧ Quiet (strmOut t) s (s.noteStream t) := by
  unfold State.noteStream
  dsimp only
  refine ⟨?_, ?_, ?_, ((Quiet.refl _ s).andWrs ?_).andWrP ?_ ?_⟩
  · rw [State.wrP_threads, State.wrs_threads]
  · rw [State.wrP_streams, State.wrs_streams]
  · simp only [State.wrP, State.wrs, List.foldl_cons, List.foldl_nil]
    rw [State.rd_wr_apart _ _ _ _ (by simp [F.HQ_STRM_CONS_LO_K, Fld.hi]) (by simp [Fld.apart, F.HQ_STRM_CONS_LO_K, Fld.hi, F.HQ_STRM_STAT_ANN]; omega),
      State.rd_wr_apart _ _ _ _ (by simp [F.HQ_STRM_CONS_LO_K]) (by simp [Fld.apart, F.HQ_STRM_CONS_LO_K, F.HQ_STRM_STAT_ANN]),
      State.rd_wr_fit _ _ _ (by simp [F.HQ_STRM_STAT_ANN]) (by simp [F.HQ_STRM_STAT_ANN])]
  · simp [strmOut, F.HQ_STRM_STAT_ANN, F.HQ_STRM_STAT_FILL, F.HQ_STRM_STAT_CREDIT]
  · simp [strmOut]
  · simp [strmOut]

theorem announce_matches {t : Fin 32} {s : State} {w : AnnWait} {rest : List (Nat × Nat)} (hwait : s.threads[t].annWait = some w)
    (hanns : s.streams[t].anns = (w.seg, w.gen) :: rest) : Answers (.hostStreamAnnounceMatch t) s fun u =>
      u.threads[t].annWait = none ∧ u.streams[t].anns = rest ∧ u.threads[t].visit = s.streams[t].next ∧
      u.streams[t].next = s.streams[t].next + ((s.segAt w.seg w.gen).map Seg.grans).getD 0 ∧ u.rd (F.HQ_STRM_STAT_ANN t) = min 7 rest.length ∧
      (∀ v, v ≠ t → u.threads[v] = s.threads[v]) ∧ Quiet (strmOut t) s u := by
  generalize hv : (s.modThread t fun k => { k with annWait := none }).modThread t (fun k => { k with visit := s.streams[t].next }) = v
  have hvthreads : v.threads = upd (upd s.threads t fun k => { k with annWait := none }) t fun k => { k with visit := s.streams[t].next } := by
    rw [← hv, State.modThread_threads, State.modThread_threads]
  have hvquiet : Quiet (strmOut t) s v := by rw [← hv]; exact (Quiet.refl _ s).andModThread.andModThread
  generalize hn : s.streams[t].next + ((s.segAt w.seg w.gen).map Seg.grans).getD 0 = n
  generalize hy : ({ v with streams := upd v.streams t fun k => { k with anns := rest, next := n } } : State) = y
  have hythreads : y.threads = v.threads := by rw [← hy]
  have hystreams : y.streams = upd s.streams t fun k => { k with anns := rest, next := n } := by rw [← hy, ← hv]; rfl
  have hyquiet : Quiet (strmOut t) s y := hvquiet.andSame (by rw [← hy]) (by rw [← hy]) (by rw [← hy]) (by rw [← hy]) (by rw [← hy])
  obtain ⟨huthreads, hustreams, hann, hquiet⟩ := y.noteStream_keeps t
  refine ⟨y.noteStream t, ?_, ?_, ?_, ?_, ?_, ?_, fun j hj => ?_, hyquiet.trans hquiet⟩
  · show execHostStreamAnnounceMatch t s = _
    unfold execHostStreamAnnounceMatch
    rw [hwait, hanns]
    dsimp only
    rw [if_pos rfl, ← hy, ← hv, ← hn]
    rfl
  · rw [huthreads, hythreads, hvthreads, upd_same, upd_same]
  · rw [hustreams, hystreams, upd_same]
  · rw [huthreads, hythreads, hvthreads, upd_same]
  · rw [hustreams, hystreams, upd_same]
  · rw [hann, hystreams, upd_same]
  · rw [huthreads, hythreads, hvthreads, upd_other _ _ _ _ hj, upd_other _ _ _ _ hj]

theorem announce_mismatch {t : Fin 32} {s : State} {w : AnnWait} {a : Nat × Nat} {rest : List (Nat × Nat)} (hwait : s.threads[t].annWait = some w)
    (hanns : s.streams[t].anns = a :: rest) (ha : a ≠ (w.seg, w.gen)) (hrun : s.threadAt t [.running] = false) (hcls : s.classOf 12 < 2) :
    Answers (.hostStreamAnnounceMatch t) s fun u =>
      u.rd (F.SEQ_ERR_CODE t) = 8 ∧ u.rd (F.SEQ_ERR_LOC_WORD t) = w.word % 2 ^ 24 ∧ u.threads[t].annWait = none ∧
      u.threads[t].endAfter = some ⟨s.threads[t].line, .seqError, false⟩ ∧ u.latched 12 = true ∧
      Quiet (errOut t ++ evOut (Ev.seq t) ++ faultOut 12) s u := by
  generalize hv : s.modThread t (fun k => { k with annWait := none }) = v
  have hvthreads : v.threads = upd s.threads t fun k => { k with annWait := none } := by rw [← hv, State.modThread_threads]
  have hvrun : v.threadAt t [.running] = false := by
    rw [← hrun]
    exact State.threadAt_congr (by rw [← hv, State.modThread_bursts]) (by rw [hvthreads, upd_same]) _
  have hvcls : v.classOf (errSource 8) < 2 := by rw [← hv]; exact hcls
  obtain ⟨hcode, _, _, hword, hend, hann, _, _, hlatched, hquiet⟩ :=
    State.seqErrorAt_still (seg := w.atSeg) (gen := w.atGen) (word := w.word) hvrun hvcls rfl
  refine ⟨v.seqErrorAt t 8 w.atSeg w.atGen w.word, ?_, hcode, hword, ?_, ?_, hlatched, ?_⟩
  · show execHostStreamAnnounceMatch t s = _
    unfold execHostStreamAnnounceMatch
    rw [hwait, hanns]
    dsimp only
    rw [if_neg ha, hv]
  · rw [hann, hvthreads, upd_same]
  · rw [hend, hvthreads, upd_same]
  · have hsv : Quiet (errOut t ++ evOut (Ev.seq t) ++ faultOut 12) s v := by rw [← hv]; exact (Quiet.refl _ s).andModThread
    exact hsv.trans hquiet

end Sys2Proof.Machine

open Sys2Proof Sys2Proof.Machine

/-- Settles O6: a word with an error, a thread without one, an announcement that matches and one that does not. -/
theorem instructionErrors : Obligations.InstructionErrors := by
  unfold Obligations.InstructionErrors
  refine ⟨fun t c s x => illegal_stops, fun t s h => ?_, fun t s w rest => announce_matches, fun t s w a rest => announce_mismatch⟩
  show Host.Outcome.next _ = _
  rcases h with h | h
  · rw [if_neg (by rw [h]; exact Bool.false_ne_true)]
  · rw [h, ite_self]
end

section
/-! How a thread fetches its granules (R123, R125, R129) and pushes lines (R72, R125), and the obligations O7 and O8. -/

set_option Elab.async false

namespace Sys2Proof.Machine

/-! ## Requests (R123, R129) -/

theorem fetch_refused {t : Fin 32} {seg gen gran : Nat} {s : State} (h : s.nextWant t = none ∨ ∃ w, s.nextWant t = some w ∧
      ((w.key.1, w.key.2.1, w.key.2.2.1) ≠ (seg, gen, gran) ∨
        ((s.segAt seg gen).any fun x => x.tier == .host) = true ∧ s.streams[t].put ≤ w.key.2.2.2 + gran)) :
    NoEffect (.granuleFetch t seg gen gran) s := by
  show execGranuleFetch t seg gen gran s = _
  unfold execGranuleFetch
  rcases h with h | ⟨w, hw, h⟩
  · rw [h]
  · rw [hw]
    cases hseg : s.segAt seg gen with
    | none => rfl
    | some x =>
      dsimp only
      split
      · rfl
      next hgo =>
        rcases h with h | ⟨htier, hput⟩
        · exact absurd (.inr (.inr (.inl h))) hgo
        · rw [if_pos (by simpa [hseg] using htier), if_pos hput]

/-- A request that is wanted goes to the tier of its segment. -/
theorem fetch_wanted {t : Fin 32} {seg gen gran visit : Nat} {s : State} {x : Seg} {w : Want} (hw : s.nextWant t = some w)
    (hkey : w.key = (seg, gen, gran, visit)) (hseg : s.segAt seg gen = some x) (hmembers : s.threads[t].members ≠ 0)
    (hstage : s.threadAt t [.granted, .armed, .running] = true) (hgran : gran < x.grans) : exec (.granuleFetch t seg gen gran) s =
      (if x.tier = .host then
        if s.streams[t].put ≤ visit + gran then .next s
        else .next ((s.consume t (visit + gran)).modThread t fun k =>
          { k with requests := k.requests ++ [⟨seg, gen, gran, s.ringGran t (visit + gran) x.granBytes, visit, true, w.branch⟩] })
      else if x.tier = .none then .next s
      else .next (s.modThread t fun k =>
        { k with requests := k.requests ++ [⟨seg, gen, gran, s.storedGran x gran, visit, false, w.branch⟩] })) := by
  show execGranuleFetch t seg gen gran s = _
  unfold execGranuleFetch
  rw [hw, hseg]
  dsimp only
  rw [hkey, if_neg]
  rintro (h | h | h | h)
  · exact hmembers h
  · exact Bool.false_ne_true (h.symm.trans hstage)
  · exact h rfl
  · exact absurd hgran (Nat.not_lt.2 h)

theorem fetch_local {t : Fin 32} {seg gen gran visit : Nat} {s : State} {x : Seg} {w : Want} (hw : s.nextWant t = some w)
    (hkey : w.key = (seg, gen, gran, visit)) (hseg : s.segAt seg gen = some x) (hmembers : s.threads[t].members ≠ 0)
    (hstage : s.threadAt t [.granted, .armed, .running] = true) (hgran : gran < x.grans) (htier : x.tier = .canopy ∨ x.tier = .sdram) :
    Answers (.granuleFetch t seg gen gran) s fun u =>
      u.threads[t].requests = s.threads[t].requests ++ [⟨seg, gen, gran, s.storedGran x gran, visit, false, w.branch⟩] ∧
      (∀ v, v ≠ t → u.threads[v] = s.threads[v]) ∧ Quiet [] s u := by
  have hexec := fetch_wanted hw hkey hseg hmembers hstage hgran
  rw [if_neg (by rcases htier with h | h <;> simp [h]), if_neg (by rcases htier with h | h <;> simp [h])] at hexec
  refine ⟨_, hexec, ?_, fun j hj => ?_, (Quiet.refl _ s).andModThread⟩
  · rw [State.modThread_threads, upd_same]
  · rw [State.modThread_threads, upd_other _ _ _ _ hj]

/-- The consumption of a ring where no copy of K is mirrored to the host. -/
theorem State.consume_keeps {s : State} {t : Fin 32} (n : Nat) (hmirror : s.on (F.HQ_STRM_CFG_MIRROR_EN t) = false) :
    (s.consume t n).threads = s.threads ∧ (s.consume t n).streams[t].cons = max s.streams[t].cons (s.callerHold t (n + 1)) ∧
    Quiet (strmOut t) s (s.consume t n) := by
  unfold State.consume
  dsimp only
  generalize hv : ({ s with streams := upd s.streams t fun k => { k with cons := max s.streams[t].cons (s.callerHold t (n + 1)) } } : State) = v
  have hvthreads : v.threads = s.threads := by rw [← hv]
  have hvcons : v.streams[t].cons = max s.streams[t].cons (s.callerHold t (n + 1)) := by
    rw [← hv]; exact congrArg Stream.cons (upd_same ..)
  have hvquiet : Quiet (strmOut t) s v := (Quiet.refl _ s).andSame (by rw [← hv]) (by rw [← hv]) (by rw [← hv]) (by rw [← hv]) (by rw [← hv])
  have hvmirror : v.on (F.HQ_STRM_CFG_MIRROR_EN t) = false := by rw [← hmirror, ← hv]; rfl
  have hstill : v.mirrorNow t = v := by rw [State.mirrorNow, if_neg (by simp [hvmirror])]
  rw [hstill, ite_self]
  obtain ⟨hthreads, hstreams, _, hquiet⟩ := v.noteStream_keeps t
  exact ⟨hthreads.trans hvthreads, by rw [hstreams, hvcons], hvquiet.trans hquiet⟩

theorem fetch_host {t : Fin 32} {seg gen gran visit : Nat} {s : State} {x : Seg} {w : Want} (hw : s.nextWant t = some w)
    (hkey : w.key = (seg, gen, gran, visit)) (hseg : s.segAt seg gen = some x) (hmembers : s.threads[t].members ≠ 0)
    (hstage : s.threadAt t [.granted, .armed, .running] = true) (hgran : gran < x.grans) (htier : x.tier = .host)
    (hput : visit + gran < s.streams[t].put) (hmirror : s.on (F.HQ_STRM_CFG_MIRROR_EN t) = false) :
    Answers (.granuleFetch t seg gen gran) s fun u =>
      u.threads[t].requests = s.threads[t].requests ++ [⟨seg, gen, gran, s.ringGran t (visit + gran) x.granBytes, visit, true, w.branch⟩] ∧
      u.streams[t].cons = max s.streams[t].cons (s.callerHold t (visit + gran + 1)) ∧ (∀ v, v ≠ t → u.threads[v] = s.threads[v]) ∧
      Quiet (strmOut t) s u := by
  have hexec := fetch_wanted hw hkey hseg hmembers hstage hgran
  rw [if_pos htier, if_neg (Nat.not_le.2 hput)] at hexec
  obtain ⟨hthreads, hcons, hquiet⟩ := State.consume_keeps (visit + gran) hmirror
  generalize s.consume t (visit + gran) = v at *
  refine ⟨_, hexec, ?_, ?_, fun j hj => ?_, hquiet.andModThread⟩
  · rw [State.modThread_threads, upd_same, hthreads]
  · rw [State.modThread_streams, hcons]
  · rw [State.modThread_threads, upd_other _ _ _ _ hj, hthreads]

/-! ## Pushing lines (R72, R125) -/

/-- One line goes into the FIFO: the rest of the emissions and granules is left. -/
def Thread.pushed (k : Thread) (todo : List Emit) (line : Line) (grans : List Gran) : Thread :=
  { k with todo := todo, fifo := k.fifo ++ [line], grans := grans }

/-- The emissions left after one line of the first. -/
def todoAfter (e : Emit) (rest : List Emit) : List Emit := if e.step.left = 0 then rest else e.step :: rest

theorem RegsOnly.threads {s t : State} (h : RegsOnly s t) : t.threads = s.threads := by rw [h]

/-- A push does nothing, or moves one line of the first emission into a FIFO that has room and goes on. -/
theorem State.push_succ (s : State) (t : Fin 32) (n : Nat) : s.push t (n + 1) = s ∨
    ∃ e rest line grans, s.threads[t].todo = e :: rest ∧ s.threads[t].fifo.length < 2048 ∧
      s.push t (n + 1) = (s.modThread t fun _ => s.threads[t].pushed (todoAfter e rest) line grans).push t n := by
  rw [State.push]
  dsimp only
  split
  · exact .inl rfl
  next e rest htodo =>
    split
    · exact .inl rfl
    next hroom =>
      split
      · exact .inl rfl
      · refine .inr ⟨e, rest, _, _, htodo, ?_, rfl⟩
        simp only [Thread.room, Bool.not_eq_false, Bool.and_eq_true, decide_eq_true_eq] at hroom
        exact hroom.1

/-- A push keeps what neither the emissions nor the FIFO nor the granules of a thread carry. -/
theorem State.push_keeps {β : Type} (p : Thread → β) (hp : ∀ k todo line grans, p (k.pushed todo line grans) = p k) (t : Fin 32) (n : Nat)
    (s : State) : p (s.push t n).threads[t] = p s.threads[t] := by
  induction n generalizing s with
  | zero => rfl
  | succ n ih =>
    rcases s.push_succ t n with h | ⟨e, rest, line, grans, _, _, h⟩
    · rw [h]
    · rw [h, ih, State.modThread_threads, upd_same, hp]

/-- The lines still to be pushed. -/
def linesLeft (todo : List Emit) : Nat := (todo.map (·.left)).sum

theorem linesLeft_todoAfter {e : Emit} {rest : List Emit} (he : 0 < e.left) : linesLeft (todoAfter e rest) + 1 = linesLeft (e :: rest) := by
  have hstep : e.step.left = e.left - 1 := rfl
  unfold todoAfter linesLeft
  split <;> simp only [List.map_cons, List.sum_cons] <;> omega

theorem State.push_conserves (t : Fin 32) (n : Nat) (s : State) (hleft : ∀ e ∈ s.threads[t].todo, 0 < e.left)
    (hdepth : s.threads[t].fifo.length ≤ 2048) :
    (s.push t n).threads[t].fifo.length + linesLeft (s.push t n).threads[t].todo =
      s.threads[t].fifo.length + linesLeft s.threads[t].todo ∧
    (s.push t n).threads[t].fifo.length ≤ 2048 ∧ (∀ e ∈ (s.push t n).threads[t].todo, 0 < e.left) := by
  induction n generalizing s with
  | zero => exact ⟨rfl, hdepth, hleft⟩
  | succ n ih =>
    rcases s.push_succ t n with h | ⟨e, rest, line, grans, htodo, hroom, h⟩
    · rw [h]; exact ⟨rfl, hdepth, hleft⟩
    · rw [h]
      rw [htodo] at hleft
      have hthread : (s.modThread t fun _ => s.threads[t].pushed (todoAfter e rest) line grans).threads[t] =
          s.threads[t].pushed (todoAfter e rest) line grans := by rw [State.modThread_threads, upd_same]
      have hlength : (s.threads[t].pushed (todoAfter e rest) line grans).fifo.length = s.threads[t].fifo.length + 1 := by
        rw [Thread.pushed, List.length_append, List.length_singleton]
      have hafter : ∀ x ∈ todoAfter e rest, 0 < x.left := by
        unfold todoAfter
        split
        · exact fun x hx => hleft x (List.mem_cons_of_mem _ hx)
        next hne =>
          rintro x (_ | ⟨_, hx⟩)
          · exact Nat.pos_of_ne_zero hne
          · exact hleft x (List.mem_cons_of_mem _ hx)
      obtain ⟨hsum, hlen, hpos⟩ := ih (s.modThread t fun _ => s.threads[t].pushed (todoAfter e rest) line grans)
        (by rw [hthread]; exact hafter) (by rw [hthread, hlength]; omega)
      refine ⟨hsum.trans ?_, hlen, hpos⟩
      have hcount := linesLeft_todoAfter (rest := rest) (hleft e (List.mem_cons_self ..))
      rw [hthread, hlength, htodo, ← hcount]
      simp only [Thread.pushed]
      omega

/-! ## Arrivals (R123) -/

/-- The bytes of a granule as it arrives: deciphered where its segment is still there. -/
def State.arrivedData (s : State) (g : Gran) : List Byte :=
  match s.segAt g.seg g.gen with
  | some x => s.decrypt x g.idx g.data
  | none => g.data

theorem arrival_ready {t : Fin 32} {s : State} {g : Gran} {rest : List Gran} (hreq : s.threads[t].requests = g :: rest) :
    Answers (.granuleArrival t) s fun u => u.threads[t].requests = rest ∧ u.threads[t].line = s.threads[t].line ∧
      (∀ v, v ≠ t → u.threads[v] = s.threads[v]) ∧ Quiet fillOut s u := by
  obtain ⟨grans, hexec⟩ : ∃ grans : List Gran → List Gran,
      let v := s.modThread t fun k => { k with requests := rest, grans := grans k.grans }
      exec (.granuleArrival t) s = .next (if v.threads[t].members = 0 then v else v.pushLines t) := by
    show ∃ grans : List Gran → List Gran, execGranuleArrival t s = _
    unfold execGranuleArrival
    rw [hreq]
    exact ⟨fun l => if s.threads[t].members != 0 && s.threads[t].keeps g then l ++ [{ g with data := s.arrivedData g }] else l, rfl⟩
  dsimp only at hexec
  generalize hv : s.modThread t _ = v at hexec
  have hvthreads : v.threads = upd s.threads t fun k => { k with requests := rest, grans := grans k.grans } := by
    rw [← hv, State.modThread_threads]
  have hvquiet : Quiet fillOut s v := by rw [← hv]; exact (Quiet.refl _ s).andModThread
  by_cases hmembers : v.threads[t].members = 0
  · rw [if_pos hmembers] at hexec
    refine ⟨v, hexec, ?_, ?_, fun j hj => ?_, hvquiet⟩
    · rw [hvthreads, upd_same]
    · rw [hvthreads, upd_same]
    · rw [hvthreads, upd_other _ _ _ _ hj]
  · rw [if_neg hmembers] at hexec
    obtain ⟨hframe, hline, _, _, hother, hregs⟩ := v.pushLines_frame t
    have hkept : (v.pushLines t).threads[t].requests = v.threads[t].requests := by
      rw [State.pushLines, (State.noteFill_frame t _).1.threads]
      exact State.push_keeps Thread.requests (fun _ _ _ _ => rfl) t 4096 v
    refine ⟨_, hexec, ?_, ?_, fun j hj => ?_, hvquiet.trans ⟨hregs, ?_⟩⟩
    · rw [hkept, hvthreads, upd_same]
    · rw [hline, hvthreads, upd_same]
    · rw [hother j hj, hvthreads, upd_other _ _ _ _ hj]
    · rw [hframe]; exact .of_eq rfl rfl rfl rfl

end Sys2Proof.Machine

open Sys2Proof Sys2Proof.Machine

/-- Settles O7: a granule of the Canopy or SDRAM, one of a host ring, one not wanted, and the oldest request's arrival. -/
theorem granuleFetching : Obligations.GranuleFetching := by
  unfold Obligations.GranuleFetching
  refine ⟨fun t seg gen gran visit s x w => fetch_local, fun t seg gen gran visit s x w => fetch_host, fun t seg gen gran s => fetch_refused,
    fun t s g rest => arrival_ready, fun t s h => ?_⟩
  show execGranuleArrival t s = _
  rw [execGranuleArrival, h]

/-- Settles O8, by induction on the number of lines pushed. -/
theorem pushingLosesNoLine : Obligations.PushingLosesNoLine := by
  unfold Obligations.PushingLosesNoLine
  exact fun t n s => State.push_conserves t n s
end

section
/-! BURST where a structure load was in progress at its acceptance (R63), which refutes O9. -/

set_option Elab.async false

namespace Sys2Proof.Machine

/-- Reset with one accepted BURST, at whose acceptance a structure load was in progress. -/
def burstAcceptedInLoad : State :=
  { State.reset with hq := { State.reset.hq with inFlight := [⟨⟨2, 7, 1, false⟩, 0x01, 4, false, false, true, false⟩] } }

end Sys2Proof.Machine

open Sys2Proof Sys2Proof.Machine

/-- Refutes O9: a burst accepted during a structure load that has ended since passes every check the first clause names, and still
completes with RELOADING by R63; no burst is declared. -/
theorem not_burstCommands : ¬ Obligations.BurstCommands := by
  unfold Obligations.BurstCommands
  rintro ⟨hdeclared, _⟩
  obtain ⟨u, hu, ⟨b, hb, _⟩, _⟩ := hdeclared ⟨2, 7, 1, false⟩ ⟨1, 100, 0, 0, 5, 1, 0⟩ burstAcceptedInLoad
    (by simp only [State.canBegin]; decide +kernel) (by decide +kernel) (by decide +kernel)
  have hnone : u.bursts = [] := by
    obtain rfl := Host.Outcome.next.inj (Eq.trans rfl hu)
    decide +kernel
  rw [hnone] at hb
  exact absurd hb (by simp)
end

section
/-! A leader's burst whose members were given another period set (R116, R162), which refutes O10. -/

set_option Elab.async false

namespace Sys2Proof.Machine

/-- A granted burst of grove 0, whose member at position 1 has sent an ARMED token with a CRC that is not the leader's. -/
def mismatchedBurst : Burst :=
  { hdr := ⟨2, 7, 1, false⟩, ops := ⟨1, 100, 0, 0, 5, 1, 0⟩, stage := .granted, order := 0, startSlot := none, startTime := none, endTime := 0
    reach := [(5, 1)], waiters := [], faultSeq := 0, faultSrc := 0xFF, firebreak := false, fatal := false, armedBy := [(1, 0), (1, 1)] }

/-- Reset with that burst, grove 0 led through link entry 0 by this module of two. -/
def mismatchedLeader : State :=
  { State.reset.wrs [(F.STR_LINK_MODULES 0, 2), (F.STR_LINK_GROVE 0, 0)] with bursts := [mismatchedBurst] }

/-- No burst of the answer's state is Armed. -/
def noneArmed : Host.Outcome State Fault Refusal → Bool
  | .next u => u.bursts.all fun b => b.stage != .armed
  | _ => false

/-- Two members that sent different CRCs cannot both have sent the leader's. -/
theorem State.crcsMatch_ne {s : State} {b : Burst} (hlink : (0 : Fin 8) ∈ s.linksOf b) (hlead : s.rd (F.STR_LINK_POSITION (0 : Fin 8)) = 0)
    (harmed : b.armedBy = [(1, 0), (1, 1)]) : s.crcsMatch b = false := by
  refine Bool.eq_false_iff.2 fun h => ?_
  have hall := List.all_eq_true.1 h 0 hlink
  rw [hlead, harmed] at hall
  simp only [bne_self_eq_false, Bool.false_or, List.all_cons, List.all_nil, Bool.and_true, Bool.and_eq_true] at hall
  obtain ⟨h0, h1⟩ := hall
  have e0 := h0
  have e1 := h1
  simp at e0 e1
  omega

/-- The leader's burst as it becomes Armed, and the state that holds it. -/
def armedBurst : Burst := { mismatchedBurst with stage := .armed, armedAt := 0 }
def armedLeader : State := { mismatchedLeader with bursts := [armedBurst] }

theorem armedLeader_ends : ((armedLeader.sendStart armedBurst 0 true).mismatch armedBurst).bursts.all (fun b => b.stage != .armed) = true := by
  decide +kernel

theorem mismatchedLeader_ends : noneArmed (exec (.burstArmed 7 1) mismatchedLeader) = true := by
  have hexec : exec (.burstArmed 7 1) mismatchedLeader = .next ((armedLeader.sendArmed armedBurst).tryStartSlot armedBurst) := by
    show execBurstArmed 7 1 mismatchedLeader = _
    unfold execBurstArmed
    rw [show mismatchedLeader.burstBy 7 1 = some mismatchedBurst by decide +kernel]
    dsimp only
    rw [if_pos (by decide +kernel)]
    rfl
  have hsend : armedLeader.sendArmed armedBurst = armedLeader := by
    rw [State.sendArmed, show armedLeader.linksOf armedBurst = [0] by decide +kernel, List.foldl_cons, List.foldl_nil, if_pos (by decide +kernel)]
  have hclock : armedLeader.clockSlot armedBurst = some 300 := by decide +kernel
  have hcrc : armedLeader.crcsMatch armedBurst = false := State.crcsMatch_ne (by decide +kernel) (by decide +kernel) rfl
  rw [hexec, hsend, State.tryStartSlot, hclock]
  show noneArmed (.next (armedLeader.chooseSlot armedBurst 300)) = true
  rw [State.chooseSlot, if_neg (by decide +kernel), if_pos]
  · exact armedLeader_ends
  · rw [hcrc]
    decide +kernel

end Sys2Proof.Machine

open Sys2Proof Sys2Proof.Machine

/-- Refutes O10: the leader's Granted burst has its start fill, but by R162 the mismatch of the period CRCs ends it before its start; no
burst is Armed after the command. -/
theorem not_burstLifecycle : ¬ Obligations.BurstLifecycle := by
  unfold Obligations.BurstLifecycle
  rintro ⟨_, _, _, harmed, _⟩
  obtain ⟨u, hu, ⟨b, hb, _, hstage, _⟩, _⟩ := harmed 7 1 mismatchedBurst mismatchedLeader
    (by decide +kernel) (by decide +kernel) (by decide +kernel) (by decide +kernel)
  have hnone := mismatchedLeader_ends
  rw [hu, noneArmed, List.all_eq_true] at hnone
  exact absurd hstage (by simpa using hnone b hb)
end

section
/-! The rate grant (R23, R24, R28, R29), and the obligation O11. -/

set_option Elab.async false

namespace Sys2Proof.Machine

/-- A point chosen is one of the eight. -/
theorem State.pointFor_lt {s : State} {demand n : Nat} (h : s.pointFor demand = some n) : n < 8 := List.mem_range.1 (List.mem_of_find?_eq_some h)

theorem State.rd_lt (s : State) (f : Fld) : s.rd f < 2 ^ f.width := fieldOf_lt ..

theorem State.voltOf_lt (s : State) (n : Nat) : s.voltOf n < 1024 := by
  unfold State.voltOf State.oppMv
  split
  · exact max_lt (s.rd_lt _) (s.rd_lt _)
  · exact s.rd_lt _

/-- FAB_STATUS and FAB_VFAB. -/
def grantOut : List Nat := [(F.FAB_STATUS_OPP).addr, (F.FAB_VFAB_SET_MV).addr]

theorem Quiet.andFab {out : List Nat} {s t : State} (h : Quiet out s t) {f : Fab} : Quiet out s { t with fab := f } :=
  h.andSame rfl rfl rfl rfl rfl

theorem State.rampTo_keeps (s : State) (n : Nat) (retried : Bool) (hn : n < 8) (hidle : s.rd F.FAB_STATUS_SEQ_STATE = 0) :
    let u := s.rampTo n retried
    u.rd F.FAB_STATUS_OPP_TARGET = n ∧ u.rd F.FAB_STATUS_OPP = s.rd F.FAB_STATUS_OPP ∧
      u.rd F.FAB_VFAB_SET_MV = s.voltOf n ∧ u.rd F.FAB_VFAB_VFAB_MV = s.rd F.FAB_VFAB_VFAB_MV ∧
      u.rd F.FAB_STATUS_SEQ_STATE = (if s.voltOf n = s.rd F.FAB_VFAB_SET_MV then 2 else 1) ∧ Quiet grantOut s u := by
  have hvolt := s.voltOf_lt n
  unfold State.rampTo
  dsimp only
  generalize hv : ({ s with fab := { s.fab with confirming := false, okWins := 0, confWins := 0, retried := retried } } : State) = v
  have hregs : v.regs = s.regs := by rw [← hv]
  have hquiet : Quiet grantOut s v := (Quiet.refl _ s).andSame hregs (by rw [← hv]) (by rw [← hv]) (by rw [← hv]) (by rw [← hv])
  simp only [hidle, ne_eq, OfNat.zero_ne_ofNat, zero_ne_one, not_false_eq_true, and_true]
  have hframe : ∀ p ∈ [(F.FAB_STATUS_OPP_TARGET, n), (F.FAB_VFAB_SET_MV, s.voltOf n),
      (F.FAB_STATUS_SEQ_STATE, if s.voltOf n = s.rd F.FAB_VFAB_SET_MV then 2 else 1)], p.1.addr ∈ grantOut := by
    simp [grantOut, F.FAB_STATUS_OPP, F.FAB_STATUS_OPP_TARGET, F.FAB_STATUS_SEQ_STATE]
  refine ⟨?_, ?_, ?_, ?_, ?_, hquiet.andWrs hframe⟩ <;> simp only [State.wrs, List.foldl_cons, List.foldl_nil]
  · simp (disch := decide) only [State.rd_wr_apart, State.rd_wr_same]
    exact Nat.mod_eq_of_lt hn
  · simp (disch := decide) only [State.rd_wr_apart, State.rd_wr_same, State.rd_of_regs hregs]
  · simp (disch := decide) only [State.rd_wr_apart, State.rd_wr_same]
    exact Nat.mod_eq_of_lt hvolt
  · simp (disch := decide) only [State.rd_wr_apart, State.rd_wr_same, State.rd_of_regs hregs]
  · simp (disch := decide) only [State.rd_wr_apart, State.rd_wr_same]
    split <;> rfl

/-- Of a run of steps of which each sets its own field and keeps the others, each field reads as its step set it. -/
theorem State.rd_foldl_step {ι : Type} {step : State → ι → State} {f : ι → Fld} {v : ι → Nat} (hset : ∀ s n, (step s n).rd (f n) = v n)
    (hkeep : ∀ s n k, k ≠ n → (step s n).rd (f k) = s.rd (f k)) {n : ι} (l : List ι) (s : State) (hn : n ∈ l) :
    (l.foldl step s).rd (f n) = v n := by
  have hrest (l : List ι) (s : State) (h : s.rd (f n) = v n) : (l.foldl step s).rd (f n) = v n := by
    induction l generalizing s with
    | nil => exact h
    | cons k l ih =>
      refine ih _ ?_
      by_cases hk : n = k
      · rw [hk, hset]
      · rw [hkeep _ _ _ hk, h]
  induction l generalizing s with
  | nil => exact absurd hn List.not_mem_nil
  | cons k l ih =>
    rcases List.mem_cons.1 hn with rfl | hn
    · exact hrest l (step s n) (hset s n)
    · exact ih _ hn

/-! ## Windows of the pace rings (R24) -/

/-- The counts of the pace rings. -/
def ringOut : List Nat := (List.range 8).map fun n => (F.FAB_RING_COUNT n).addr

/-- The counts of one ring: of this window, and the least of any. -/
def State.noteRing (counts : List Nat) (s : State) (n : Nat) : State :=
  (s.wr (F.FAB_RING_COUNT n) (counts.getD n 0)).wr (F.FAB_RING_MIN_COUNT n) (min (s.rd (F.FAB_RING_MIN_COUNT n)) (min (counts.getD n 0) 65535))

theorem State.noteRings_eq (s : State) (counts : List Nat) : s.noteRings counts = (List.range 8).foldl (State.noteRing counts) s := rfl

theorem State.noteRings_keeps (s : State) (counts : List Nat) : RegsOnly s (s.noteRings counts) ∧ Quiet ringOut s (s.noteRings counts) ∧
    ∀ n, n < 8 → (s.noteRings counts).rd (F.FAB_RING_COUNT n) = counts.getD n 0 % 2 ^ 16 := by
  rw [State.noteRings_eq]
  have honly : RegsOnly s ((List.range 8).foldl (State.noteRing counts) s) := foldl_regsOnly _ _ _ fun s n => (RegsOnly.wr ..).trans (RegsOnly.wr ..)
  refine ⟨honly, .of_event honly.event (foldl_regsSame _ _ _ fun s n hn => ?_), fun n hn =>
    State.rd_foldl_step (v := fun n => counts.getD n 0 % 2 ^ 16) (fun s n => ?_) (fun s n k hk => ?_) _ _ (List.mem_range.2 hn)⟩
  · have hmem : (F.FAB_RING_COUNT n).addr ∈ ringOut := List.mem_map_of_mem hn
    unfold State.noteRing
    exact ((RegsSame.refl ringOut s).andWr (f := F.FAB_RING_COUNT n) hmem).andWr (f := F.FAB_RING_MIN_COUNT n) hmem
  · rw [State.noteRing, State.rd_wr_apart _ _ _ _ (by simp [F.FAB_RING_MIN_COUNT]) (by simp [Fld.apart, F.FAB_RING_MIN_COUNT, F.FAB_RING_COUNT]),
      State.rd_wr_same _ _ _ (by simp [F.FAB_RING_COUNT])]
    rfl
  · rw [State.noteRing, State.rd_wr_other _ _ _ _ (.inl (by simp only [F.FAB_RING_COUNT, F.FAB_RING_MIN_COUNT]; omega)),
      State.rd_wr_other _ _ _ _ (.inl (by simp only [F.FAB_RING_COUNT]; omega))]

theorem ringOut_notMem {a : Nat} (h : a < 0x20060) : a ∉ ringOut := by
  simp only [ringOut, F.FAB_RING_COUNT, List.mem_map, List.mem_range, not_exists, not_and]
  omega

/-- A window leaves every field below the ring counts and every record of the controller as it was. -/
theorem State.noteRings_rd (s : State) (counts : List Nat) {f : Fld} (h : f.addr < 0x20060) : (s.noteRings counts).rd f = s.rd f :=
  (s.noteRings_keeps counts).2.1.rd _ (ringOut_notMem h)

theorem State.noteRings_fab (s : State) (counts : List Nat) : (s.noteRings counts).fab = s.fab := by rw [(s.noteRings_keeps counts).1]

theorem State.noteRings_meets (s : State) (counts : List Nat) (m : Nat) {n : Nat} (hn : n < 8) : (s.noteRings counts).meets m n = s.meets m n := by
  rw [State.meets, State.meets, State.oppMin, State.oppMin, s.noteRings_rd counts (by simp only [F.FAB_OPP_TPUT_MIN]; omega),
    s.noteRings_rd counts (by decide)]

theorem State.meets_of_regs {v w : State} (h : w.regs = v.regs) (m n : Nat) : w.meets m n = v.meets m n := by
  rw [State.meets, State.meets, State.oppMin, State.oppMin, State.rd_of_regs h, State.rd_of_regs h]

/-- The least count of a window. -/
def leastCount (counts : List Nat) : Nat := (counts.take 8).foldl min (counts.headD 0)

theorem window_ramping {counts : List Nat} {s : State} (hlen : counts.length = 8) (hstate : s.rd F.FAB_STATUS_SEQ_STATE = 1) :
    exec (.paceRingWindow counts) s = .next (s.noteRings counts) := by
  show execPaceRingWindow counts s = _
  unfold execPaceRingWindow
  dsimp only
  rw [if_neg (not_not.2 hlen), s.noteRings_rd counts (by decide), hstate, if_neg (by decide), if_neg (fun h => absurd h.1 (by decide))]

theorem window_confirming {counts : List Nat} {s : State} (hlen : counts.length = 8) (hstate : s.rd F.FAB_STATUS_SEQ_STATE = 2)
    (hconf : s.fab.confirming = true) (hwins : s.fab.confWins < 3) : Answers (.paceRingWindow counts) s fun u =>
      u.fab.confWins = s.fab.confWins + 1 ∧
      u.fab.okWins = s.fab.okWins + b2n (s.meets (leastCount counts) (s.rd F.FAB_STATUS_OPP_TARGET)) ∧ Quiet ringOut s u := by
  obtain ⟨_, hquiet, _⟩ := s.noteRings_keeps counts
  have hfab := s.noteRings_fab counts
  have htarget := s.noteRings_rd counts (f := F.FAB_STATUS_OPP_TARGET) (by decide)
  have hmeets := s.noteRings_meets counts (leastCount counts) (s.rd_lt F.FAB_STATUS_OPP_TARGET)
  have hidle := s.noteRings_rd counts (f := F.FAB_STATUS_SEQ_STATE) (by decide)
  have hexec : exec (.paceRingWindow counts) s = .next ((s.noteRings counts).confirmWindow (leastCount counts)) := by
    show execPaceRingWindow counts s = _
    unfold execPaceRingWindow
    dsimp only
    rw [if_neg (not_not.2 hlen), hidle, hstate, hfab, if_neg (by decide), if_pos ⟨rfl, hconf⟩]
    rfl
  generalize s.noteRings counts = v at *
  rw [State.confirmWindow] at hexec
  dsimp only at hexec
  rw [hfab, htarget, hmeets, if_pos (by omega)] at hexec
  exact ⟨_, hexec, rfl, rfl, hquiet.andSame rfl rfl rfl rfl rfl⟩

/-- A low window that is not the eighth changes nothing but the counts of windows. -/
theorem State.margin_early {v : State} {ring : Nat} (hret : v.fab.retPoint = none) (hlow : v.fab.lowWins < 7) :
    ∃ low, v.margin ring = { v with fab := { v.fab with lowWins := low } } := by
  unfold State.margin
  dsimp only
  have hcount (p : Prop) [Decidable p] : (if p then v.fab.lowWins + 1 else 0) < 8 := by split <;> omega
  rw [if_neg (Nat.not_le.2 (hcount _)), hret]
  exact ⟨_, rfl⟩

theorem window_trims {counts : List Nat} {s : State} (hlen : counts.length = 8) (hstate : s.rd F.FAB_STATUS_SEQ_STATE = 0)
    (havc : s.on F.FAB_CTRL_AVC_EN = true) (hret : s.fab.retPoint = none) (hlow : s.fab.lowWins < 7)
    (hmeets : s.meets (leastCount counts) s.refPoint = false)
    (hroom : s.rd F.FAB_VFAB_SET_MV + 5 ≤ min 900 (s.oppMv s.refPoint + 50)) : Answers (.paceRingWindow counts) s fun u =>
      u.rd F.FAB_VFAB_SET_MV = s.rd F.FAB_VFAB_SET_MV + 5 ∧ u.fab.highWins = 0 ∧ Quiet ((F.FAB_VFAB_SET_MV).addr :: ringOut) s u := by
  have hpoint : s.refPoint = s.rd F.FAB_STATUS_OPP := by rw [State.refPoint, hret]; rfl
  obtain ⟨_, hquiet, _⟩ := s.noteRings_keeps counts
  have hfab := s.noteRings_fab counts
  have hrd {f : Fld} := s.noteRings_rd counts (f := f)
  have hvmeets := s.noteRings_meets counts (leastCount counts) (s.rd_lt F.FAB_STATUS_OPP)
  obtain ⟨low, hmargin⟩ := State.margin_early (v := s.noteRings counts) (ring := leastCount counts) (by rw [hfab, hret]) (by rw [hfab]; exact hlow)
  have hexec : exec (.paceRingWindow counts) s = .next (((s.noteRings counts).margin (leastCount counts)).trim (leastCount counts)) := by
    show execPaceRingWindow counts s = _
    unfold execPaceRingWindow
    dsimp only
    rw [if_neg (not_not.2 hlen), hrd (by decide), hstate, if_pos rfl]
    rfl
  rw [hmargin] at hexec
  generalize hw : ({ s.noteRings counts with fab := { (s.noteRings counts).fab with lowWins := low } } : State) = w at hexec
  have hwregs : w.regs = (s.noteRings counts).regs := by rw [← hw]
  have hwrd {f : Fld} (h : f.addr < 0x20060) : w.rd f = s.rd f := (State.rd_of_regs hwregs f).trans (hrd h)
  have hwpoint : w.refPoint = s.rd F.FAB_STATUS_OPP := by
    rw [State.refPoint, hwrd (by decide), ← hw]
    dsimp only
    rw [hfab, hret]; rfl
  have hwmeets : w.meets (leastCount counts) w.refPoint = false := by
    rw [← hmeets, hpoint, ← hvmeets, hwpoint, State.meets_of_regs hwregs]
  have hwmv : w.oppMv w.refPoint = s.oppMv s.refPoint := by
    have hpt := s.rd_lt F.FAB_STATUS_OPP
    rw [State.oppMv, State.oppMv, hwpoint, hpoint, hwrd]
    simp only [F.FAB_OPP_VOLT_MV, F.FAB_STATUS_OPP] at hpt ⊢
    omega
  have hwquiet : Quiet ((F.FAB_VFAB_SET_MV).addr :: ringOut) s w :=
    (hquiet.mono fun _ h => List.mem_cons_of_mem _ h).andSame hwregs (by rw [← hw]) (by rw [← hw]) (by rw [← hw]) (by rw [← hw])
  rw [State.trim] at hexec
  dsimp only at hexec
  rw [if_pos (by rw [State.on, hwrd (by decide)]; exact havc), if_pos hwmeets, hwmv, hwrd (by decide),
    show max (s.rd F.FAB_VFAB_SET_MV) (min (s.rd F.FAB_VFAB_SET_MV + 5) (min 900 (s.oppMv s.refPoint + 50))) = s.rd F.FAB_VFAB_SET_MV + 5 by omega,
    State.stepVfab] at hexec
  refine ⟨_, hexec, ?_, ?_, ?_⟩
  · simp only [State.wrs, List.foldl_cons, List.foldl_nil]
    simp (disch := decide) only [State.rd_wr_apart, State.rd_wr_same]
    exact Nat.mod_eq_of_lt (show _ < 1024 by omega)
  · rw [State.wrs_fab]
  · exact hwquiet.andFab.andWrs (by simp [F.FAB_VFAB_SET_MV, F.FAB_VFAB_VFAB_MV])

/-! ## Ramps and the hold-off (R23, R28, R29) -/

theorem State.fabIdle_keeps (s : State) : s.fabIdle.rd F.FAB_STATUS_SEQ_STATE = 0 ∧ s.fabIdle.rd F.FAB_VFAB_VFAB_MV = s.rd F.FAB_VFAB_VFAB_MV ∧
    s.fabIdle.rd F.FAB_STATUS_OPP = s.rd F.FAB_STATUS_OPP ∧ ∀ out, (F.FAB_STATUS_OPP).addr ∈ out → Quiet out s s.fabIdle := by
  unfold State.fabIdle
  generalize hv : ({ s with fab := { s.fab with lowWins := 0, goodWins := 0, highWins := 0, okWins := 0, confWins := 0, confirming := false, retried := false } } : State) = v
  have hregs : v.regs = s.regs := by rw [← hv]
  simp (disch := decide) only [State.rd_wr_apart, State.rd_wr_same, State.rd_of_regs hregs]
  refine ⟨by decide, trivial, trivial, fun out hout => Quiet.andWr (f := F.FAB_STATUS_SEQ_STATE) ?_ hout⟩
  rw [← hv]
  exact (Quiet.refl out s).andFab

theorem rampDone_up {s : State} (hstate : s.rd F.FAB_STATUS_SEQ_STATE = 1) : Answers .vfabRampDone s fun u =>
      u.rd F.FAB_STATUS_SEQ_STATE = 2 ∧ u.rd F.FAB_VFAB_VFAB_MV = s.rd F.FAB_VFAB_SET_MV ∧ u.rd F.FAB_STATUS_OPP = s.rd F.FAB_STATUS_OPP ∧
      RegsOnly s u ∧ Quiet grantOut s u := by
  refine ⟨(s.wr F.FAB_VFAB_VFAB_MV (s.rd F.FAB_VFAB_SET_MV)).wr F.FAB_STATUS_SEQ_STATE 2, ?_, ?_, ?_, ?_, (RegsOnly.wr ..).trans (RegsOnly.wr ..), ?_⟩
  · show execVfabRampDone s = _
    rw [execVfabRampDone, hstate]
    rfl
  · simp (disch := decide) only [State.rd_wr_apart, State.rd_wr_same]; rfl
  · simp (disch := decide) only [State.rd_wr_apart, State.rd_wr_same]; exact s.rd_mod F.FAB_VFAB_SET_MV
  · simp (disch := decide) only [State.rd_wr_apart, State.rd_wr_same]
  · exact ((Quiet.refl grantOut s).andWr (f := F.FAB_VFAB_VFAB_MV) (by decide)).andWr (f := F.FAB_STATUS_SEQ_STATE) (by decide)

theorem rampDone_down {s : State} (hstate : s.rd F.FAB_STATUS_SEQ_STATE = 3) : Answers .vfabRampDone s fun u =>
      u.rd F.FAB_STATUS_SEQ_STATE = 0 ∧ u.rd F.FAB_VFAB_VFAB_MV = s.rd F.FAB_VFAB_SET_MV ∧
      u.rd F.FAB_STATUS_OPP = s.rd F.FAB_STATUS_OPP_TARGET ∧ bitOf (u.rd Ev.fab.bits) 1 = true ∧
      Quiet (grantOut ++ evOut Ev.fab) s u := by
  generalize hv : (s.wr F.FAB_VFAB_VFAB_MV (s.rd F.FAB_VFAB_SET_MV)).wr F.FAB_STATUS_OPP (s.rd F.FAB_STATUS_OPP_TARGET) = v
  have hexec : exec .vfabRampDone s = .next (v.fabIdle.event Ev.fab 1) := by
    show execVfabRampDone s = _
    rw [execVfabRampDone, hstate, ← hv]
    rfl
  have hmv : v.rd F.FAB_VFAB_VFAB_MV = s.rd F.FAB_VFAB_SET_MV := by
    rw [← hv]; simp (disch := decide) only [State.rd_wr_apart, State.rd_wr_same]; exact s.rd_mod F.FAB_VFAB_SET_MV
  have hopp : v.rd F.FAB_STATUS_OPP = s.rd F.FAB_STATUS_OPP_TARGET := by
    rw [← hv]; simp (disch := decide) only [State.rd_wr_same]; exact s.rd_mod F.FAB_STATUS_OPP_TARGET
  have hquiet : Quiet grantOut s v := by
    rw [← hv]; exact ((Quiet.refl grantOut s).andWr (f := F.FAB_VFAB_VFAB_MV) (by decide)).andWr (f := F.FAB_STATUS_OPP) (by decide)
  obtain ⟨hidle, hmv', hopp', hquiet'⟩ := v.fabIdle_keeps
  have hregs := v.fabIdle.event_regs Ev.fab 1
  refine ⟨_, hexec, ?_, ?_, ?_, State.event_bit _ _ (by decide) (by decide), ?_⟩
  · rw [hregs.rd _ (by decide), hidle]
  · rw [hregs.rd _ (by decide), hmv', hmv]
  · rw [hregs.rd _ (by decide), hopp', hopp]
  · exact ((hquiet.trans (hquiet' _ (by decide))).mono fun _ h => List.mem_append_left _ h).andEvent fun _ h => List.mem_append_right _ h

theorem holdoff_lowers {n : Nat} {s : State} (hpoint : s.pointFor s.reserved = some n) (hstate : s.rd F.FAB_STATUS_SEQ_STATE = 0)
    (hlow : n < s.rd F.FAB_STATUS_OPP) (hvolt : s.voltOf n ≠ s.rd F.FAB_VFAB_SET_MV) : Answers .fabHoldoffExpiry s fun u =>
      u.rd F.FAB_STATUS_SEQ_STATE = 3 ∧ u.rd F.FAB_STATUS_OPP_TARGET = n ∧ u.rd F.FAB_STATUS_OPP = s.rd F.FAB_STATUS_OPP ∧
      u.rd F.FAB_VFAB_SET_MV = s.voltOf n ∧ u.rd F.FAB_GRANT_GRANT ≤ s.rd F.FAB_GRANT_GRANT ∧ RegsOnly s u ∧
      Quiet [(F.FAB_STATUS_OPP).addr, (F.FAB_VFAB_SET_MV).addr, (F.FAB_GRANT_GRANT).addr] s u := by
  have hn := State.pointFor_lt hpoint
  have hlt := s.voltOf_lt n
  have hexec : exec .fabHoldoffExpiry s = .next ((s.wrs [(F.FAB_GRANT_GRANT,
      min (max s.reserved (min (s.oppGrant n) (s.rd F.FAB_GRANT_CEIL))) (s.rd F.FAB_GRANT_GRANT)), (F.FAB_STATUS_OPP_TARGET, n),
      (F.FAB_VFAB_SET_MV, s.voltOf n)]).wr F.FAB_STATUS_SEQ_STATE 3) := by
    show execFabHoldoffExpiry s = _
    unfold execFabHoldoffExpiry
    rw [hpoint]
    dsimp only
    rw [if_pos ⟨hstate, hlow⟩, if_neg hvolt]
  generalize max s.reserved (min (s.oppGrant n) (s.rd F.FAB_GRANT_CEIL)) = g at hexec
  refine ⟨_, hexec, ?_, ?_, ?_, ?_, ?_, (RegsOnly.wrs ..).trans (RegsOnly.wr ..), ?_⟩
  · simp (disch := decide) only [State.rd_wr_same]; rfl
  all_goals simp only [State.wrs, List.foldl_cons, List.foldl_nil]
  · simp (disch := decide) only [State.rd_wr_apart, State.rd_wr_same]; exact Nat.mod_eq_of_lt hn
  · simp (disch := decide) only [State.rd_wr_apart]
  · simp (disch := decide) only [State.rd_wr_apart, State.rd_wr_same]; exact Nat.mod_eq_of_lt hlt
  · simp (disch := decide) only [State.rd_wr_apart, State.rd_wr_same]
    exact (Nat.mod_le _ _).trans (min_le_right _ _)
  · exact ((((Quiet.refl _ s).andWr (f := F.FAB_GRANT_GRANT) (by decide)).andWr (f := F.FAB_STATUS_OPP_TARGET) (by decide)).andWr
      (f := F.FAB_VFAB_SET_MV) (by decide)).andWr (f := F.FAB_STATUS_SEQ_STATE) (by decide)

end Sys2Proof.Machine

open Sys2Proof Sys2Proof.Machine

/-- Settles O11, clause by clause: a raise, the ends of both ramps, settling, the three kinds of window, the hold-off. -/
theorem rateGrant : Obligations.RateGrant := by
  unfold Obligations.RateGrant
  refine ⟨fun b n s hraise hpoint hidle => ?_, fun s => rampDone_up, fun s => rampDone_down, fun s hstate hconf => ?_, fun counts s hlen hstate => ?_,
    fun counts s => window_confirming, fun counts s => window_trims, fun n s => holdoff_lowers⟩
  · refine ⟨s.rampTo n false, ?_, s.rampTo_keeps n false (State.pointFor_lt hpoint) hidle⟩
    show execGrantRaise s = _
    unfold execGrantRaise
    rw [hraise]
    dsimp only
    rw [hpoint]
    dsimp only
    rw [if_pos (.inl hidle)]
  · exact ⟨_, if_pos ⟨hstate, hconf⟩, rfl, rfl, rfl, rfl⟩
  · obtain ⟨honly, hquiet, hcount⟩ := s.noteRings_keeps counts
    exact ⟨_, window_ramping hlen hstate, hcount, honly, hquiet⟩
end

section
/-! The commit of cycles and void episodes (R35 to R39), and the obligation O12. -/

set_option Elab.async false

namespace Sys2Proof.Machine

/-- A pair of whole words reads as the low 64 bits of what was written to it. -/
theorem State.rdP_wrP_mod (s : State) {f : Fld} (v : Nat) (hlsb : f.lsb = 0) (hwidth : f.width = 32) : (s.wrP f v).rdP f = v % 2 ^ 64 := by
  have hlo : (s.wrP f v).rd f = v % 2 ^ 32 := by
    rw [State.wrP, State.rd_wr_other _ _ _ _ (.inl (by simp only [Fld.hi]; omega)), State.rd_wr_same _ _ _ (by omega), hwidth]
  have hhi : (s.wrP f v).rd f.hi = v / 2 ^ 32 % 2 ^ 32 := by
    rw [State.wrP, State.rd_wr_same _ f.hi _ (by simp only [Fld.hi]; omega)]
    simp only [Fld.hi, hwidth]
  rw [State.rdP, hlo, hhi]
  omega

theorem RegsSame.rdP {out : List Nat} {s t : State} (h : RegsSame out s t) (f : Fld) (hlo : f.addr ∉ out) (hhi : f.addr + 4 ∉ out) :
    t.rdP f = s.rdP f := by
  rw [State.rdP, State.rdP, h.rd f hlo, h.rd f.hi hhi]

/-- The counts of cycles and lines of a thread. -/
def countOut (t : Fin 32) : List Nat := [(F.SEQ_CYCLE_LO_COUNT t).addr, (F.SEQ_CYCLE_LO_COUNT t).addr + 4, (F.SEQ_LINE_LO_COUNT t).addr,
  (F.SEQ_LINE_LO_COUNT t).addr + 4]

theorem count_notMem_fillOut (t : Fin 32) : ∀ a ∈ countOut t, a ∉ fillOut := by
  simp only [countOut, fillOut, F.SEQ_CYCLE_LO_COUNT, F.SEQ_LINE_LO_COUNT, F.FAB_FILL_FILL, List.mem_cons, List.mem_map, List.mem_range, not_exists,
    not_and, List.not_mem_nil, or_false]
  rintro a (rfl | rfl | rfl | rfl) <;> omega

theorem fabFill_mem_fillOut {g : Nat} (hg : g < 32) : (F.FAB_FILL_FILL g).addr ∈ fillOut := List.mem_map_of_mem (List.mem_range.2 hg)

/-- The marks of the lowest fill that a commit notes. -/
theorem State.lowMarks_keeps {l : List Nat} (hl : ∀ g ∈ l, g < 32) (s : State) :
    let u := l.foldl (fun s g => s.wr (F.FAB_FILL_LOW_MARK g) (min (s.rd (F.FAB_FILL_LOW_MARK g)) (s.rd (F.FAB_FILL_FILL g)))) s
    RegsOnly s u ∧ RegsSame fillOut s u :=
  ⟨foldl_regsOnly _ _ _ fun _ _ => RegsOnly.wr ..,
    foldl_regsSame _ _ _ fun _ g hg => RegsSame.wr _ (F.FAB_FILL_LOW_MARK g) _ (fabFill_mem_fillOut (hl g hg))⟩

/-- The numbers of a list of groves, as the model's folds over them are elaborated. -/
theorem grove_lt {l : List (Fin 32)} : ∀ g ∈ (do let a ← l; pure a.1 : List Nat), g < 32 := by
  simp only [List.bind_eq_flatMap, List.pure_def, List.mem_flatMap, List.mem_singleton]
  rintro g ⟨a, _, rfl⟩
  exact a.isLt

/-- What the commit of a cycle shows of its thread. -/
theorem State.noteCommit_keeps (s : State) (t : Fin 32) : RegsOnly s (s.noteCommit t) ∧ Quiet (countOut t ++ fillOut) s (s.noteCommit t) ∧
    (s.noteCommit t).rdP (F.SEQ_CYCLE_LO_COUNT t) = (s.threads[t].cycles - 1) % 2 ^ 64 ∧
    (s.noteCommit t).rdP (F.SEQ_LINE_LO_COUNT t) = s.threads[t].lines % 2 ^ 64 := by
  unfold State.noteCommit
  dsimp only
  generalize hv : (s.wrP (F.SEQ_CYCLE_LO_COUNT t) (s.threads[t].cycles - 1)).wrP (F.SEQ_LINE_LO_COUNT t) s.threads[t].lines = v
  have hvonly : RegsOnly s v := by rw [← hv]; exact (RegsOnly.wrP ..).trans (RegsOnly.wrP ..)
  have hvregs : RegsSame (countOut t) s v := by
    rw [← hv]
    exact ((RegsSame.refl (countOut t) s).andWrP (by simp [countOut]) (by simp [countOut])).andWrP (by simp [countOut]) (by simp [countOut])
  have hcycle : v.rdP (F.SEQ_CYCLE_LO_COUNT t) = (s.threads[t].cycles - 1) % 2 ^ 64 := by
    rw [← hv, ((RegsSame.refl [(F.SEQ_LINE_LO_COUNT t).addr, (F.SEQ_LINE_LO_COUNT t).addr + 4] _).andWrP (by simp) (by simp)).rdP,
      State.rdP_wrP_mod _ _ rfl rfl] <;>
    simp only [F.SEQ_LINE_LO_COUNT, F.SEQ_CYCLE_LO_COUNT, List.mem_cons, List.not_mem_nil, or_false] <;> omega
  have hline : v.rdP (F.SEQ_LINE_LO_COUNT t) = s.threads[t].lines % 2 ^ 64 := by rw [← hv, State.rdP_wrP_mod _ _ rfl rfl]
  obtain ⟨hfonly, hfregs⟩ := State.noteFill_frame t v
  generalize v.noteFill t = w at *
  obtain ⟨hmonly, hmregs⟩ := State.lowMarks_keeps (grove_lt (l := grovesIn s.threads[t].members)) w
  have hregs := hfregs.trans hmregs
  have hout := count_notMem_fillOut t
  refine ⟨hvonly.trans (hfonly.trans hmonly), .of_event (hvonly.trans (hfonly.trans hmonly)).event ?_, ?_, ?_⟩
  · exact (hvregs.mono fun _ h => List.mem_append_left _ h).trans (hregs.mono fun _ h => List.mem_append_right _ h)
  · rw [hregs.rdP _ (hout _ (by simp [countOut])) (hout _ (by simp [countOut])), hcycle]
  · rw [hregs.rdP _ (hout _ (by simp [countOut])) (hout _ (by simp [countOut])), hline]

/-- A cycle that no stop, void limit or peer holds back is a line, or void. -/
theorem commit_line {t : Fin 32} {cause : Nat} {l : Line} {rest : List Line} {s : State} (hmembers : s.threads[t].members ≠ 0)
    (hrun : s.threadAt t [.running] = true) (hopen : s.threads[t].closed = false) (hroom : s.threads[t].pipe.length < s.commitDepth t)
    (hpeers : s.peersHold t = true) (hcause : cause ≠ 4) (hvoid : s.threads[t].voidEp = none) (hfifo : s.threads[t].fifo = l :: rest) :
    exec (.cycleCommit t cause) s = .next (s.commitLine t) := by
  have hgo : ¬ (s.threads[t].members = 0 ∨ (s.threadAt t [.running] || (s.threadAt t [.armed] && (s.threadBurst t).any fun b => b.startSlot.isSome)) = false ∨
      s.threads[t].closed = true ∨ s.commitDepth t ≤ s.threads[t].pipe.length) := by
    rw [hrun, hopen]
    simp only [Bool.true_or, Bool.true_eq_false, Bool.false_eq_true, false_or, not_or, Nat.not_le]
    exact ⟨hmembers, hroom⟩
  have hpost : s.postVoid t = s := by rw [State.postVoid, hvoid]
  show execCycleCommit t cause s = _
  unfold execCycleCommit
  dsimp only
  rw [if_neg hgo, if_pos hpeers, hvoid, hfifo, if_pos ⟨rfl, hcause, .inl rfl⟩, hpost]

theorem commit_void {t : Fin 32} {cause : Nat} {s : State} (hmembers : s.threads[t].members ≠ 0)
    (hrun : s.threadAt t [.running] = true) (hopen : s.threads[t].closed = false) (hroom : s.threads[t].pipe.length < s.commitDepth t)
    (hfifo : s.threads[t].fifo = []) : exec (.cycleCommit t cause) s =
      .next ((if s.threads[t].voidEp.isNone then s.beginVoid t (s.voidCause t 0) else s).commitVoid t) := by
  have hgo : ¬ (s.threads[t].members = 0 ∨ (s.threadAt t [.running] || (s.threadAt t [.armed] && (s.threadBurst t).any fun b => b.startSlot.isSome)) = false ∨
      s.threads[t].closed = true ∨ s.commitDepth t ≤ s.threads[t].pipe.length) := by
    rw [hrun, hopen]
    simp only [Bool.true_or, Bool.true_eq_false, Bool.false_eq_true, false_or, not_or, Nat.not_le]
    exact ⟨hmembers, hroom⟩
  show execCycleCommit t cause s = _
  unfold execCycleCommit
  dsimp only
  rw [if_neg hgo, hfifo, if_neg (fun h => absurd h.1 (by decide))]
  rfl

theorem commitLine_keeps {t : Fin 32} {l : Line} {rest : List Line} {s : State} (hfifo : s.threads[t].fifo = l :: rest) {u : State}
    (hu : s.commitLine t = u) :
    u.threads[t].cycles = s.threads[t].cycles + 1 ∧ u.threads[t].lines = s.threads[t].lines + 1 ∧
    u.threads[t].pipe = s.threads[t].pipe ++ [⟨s.threads[t].cycles, some l, l.ts, 0⟩] ∧ u.threads[t].lastTs = l.ts ∧
    u.rdP (F.SEQ_CYCLE_LO_COUNT t) = s.threads[t].cycles % 2 ^ 64 ∧ u.rdP (F.SEQ_LINE_LO_COUNT t) = (s.threads[t].lines + 1) % 2 ^ 64 ∧
    Quiet (countOut t ++ fillOut) s u := by
  subst hu
  rw [State.commitLine, hfifo]
  dsimp only
  generalize hv : s.modThread t _ = v
  have hthread : v.threads[t] = { s.threads[t] with
      fifo := rest, pipe := s.threads[t].pipe ++ [⟨s.threads[t].cycles, some l, l.ts, 0⟩],
      cycles := s.threads[t].cycles + 1, lines := s.threads[t].lines + 1, lastTs := l.ts } := by
    rw [← hv, State.modThread_threads, upd_same]
  have hvquiet : Quiet (countOut t ++ fillOut) s v := by rw [← hv]; exact (Quiet.refl _ s).andModThread
  obtain ⟨honly, hquiet, hcycle, hline⟩ := v.noteCommit_keeps t
  have hwthreads := honly.threads
  generalize v.noteCommit t = w at *
  obtain ⟨hframe, _, _, _, _, hregs⟩ := w.pushLines_frame t
  have hkept {β : Type} (p : Thread → β) (hp : ∀ k todo line grans, p (k.pushed todo line grans) = p k) :
      p (w.pushLines t).threads[t] = p v.threads[t] := by
    rw [State.pushLines, (State.noteFill_frame t _).1.threads, State.push_keeps p hp t 4096 w, hwthreads]
  have hout := count_notMem_fillOut t
  rw [hthread] at hcycle hline
  refine ⟨?_, ?_, ?_, ?_, ?_, ?_, ?_⟩
  · rw [hkept Thread.cycles fun _ _ _ _ => rfl, hthread]
  · rw [hkept Thread.lines fun _ _ _ _ => rfl, hthread]
  · rw [hkept Thread.pipe fun _ _ _ _ => rfl, hthread]
  · rw [hkept Thread.lastTs fun _ _ _ _ => rfl, hthread]
  · rw [hregs.rdP _ (hout _ (by simp [countOut])) (hout _ (by simp [countOut])), hcycle]; rfl
  · rw [hregs.rdP _ (hout _ (by simp [countOut])) (hout _ (by simp [countOut])), hline]
  · refine (hvquiet.trans hquiet).trans ⟨hregs.mono fun _ h => List.mem_append_right _ h, ?_⟩
    rw [hframe]; exact .of_eq rfl rfl rfl rfl

theorem commitVoid_keeps {t : Fin 32} {s u : State} (hu : s.commitVoid t = u) :
    u.threads[t].cycles = s.threads[t].cycles + 1 ∧ u.threads[t].lines = s.threads[t].lines ∧
    u.threads[t].pipe = s.threads[t].pipe ++ [⟨s.threads[t].cycles, none, s.threads[t].lastTs, 0⟩] ∧
    u.threads[t].voids = s.threads[t].voids + 1 ∧ u.threads[t].voidEp = s.threads[t].voidEp.map (fun e => { e with len := e.len + 1 }) ∧
    Quiet (countOut t ++ fillOut) s u := by
  subst hu
  rw [State.commitVoid]
  generalize hv : s.modThread t _ = v
  have hthread : v.threads[t] = { s.threads[t] with
      pipe := s.threads[t].pipe ++ [⟨s.threads[t].cycles, none, s.threads[t].lastTs, 0⟩], cycles := s.threads[t].cycles + 1,
      voids := s.threads[t].voids + 1, voidAt := s.threads[t].voidAt ++ [s.threads[t].lines],
      voidEp := s.threads[t].voidEp.map fun e => { e with len := e.len + 1 } } := by
    rw [← hv, State.modThread_threads, upd_same]
  have hvquiet : Quiet (countOut t ++ fillOut) s v := by rw [← hv]; exact (Quiet.refl _ s).andModThread
  obtain ⟨honly, hquiet, _, _⟩ := v.noteCommit_keeps t
  rw [honly.threads, hthread]
  exact ⟨rfl, rfl, rfl, rfl, rfl, hvquiet.trans hquiet⟩

/-- One grove's underrun registers at the first void cycle of an episode. -/
def State.noteUnderrun (cause : Nat) (s : State) (g : Fin 32) : State :=
  (s.wrs [(F.FAB_URUN_STAT_UNDERRUN g, 1), (F.FAB_URUN_STAT_CAUSE g, cause)]).incSat (F.FAB_URUN_STAT_EPISODES g)

theorem State.noteUnderrun_set (cause : Nat) (s : State) (g : Fin 32) : (s.noteUnderrun cause g).rd (F.FAB_URUN_STAT_UNDERRUN g) = 1 := by
  simp only [State.noteUnderrun, State.incSat, State.wrs, List.foldl_cons, List.foldl_nil]
  rw [State.rd_wr_apart _ _ _ _ (by simp [F.FAB_URUN_STAT_EPISODES]) (by simp [Fld.apart, F.FAB_URUN_STAT_EPISODES, F.FAB_URUN_STAT_UNDERRUN]),
    State.rd_wr_apart _ _ _ _ (by simp [F.FAB_URUN_STAT_CAUSE]) (by simp [Fld.apart, F.FAB_URUN_STAT_CAUSE, F.FAB_URUN_STAT_UNDERRUN]),
    State.rd_wr_same _ _ _ (by simp [F.FAB_URUN_STAT_UNDERRUN])]
  rfl

theorem State.noteUnderrun_regs (cause : Nat) (s : State) (g : Fin 32) :
    RegsSame [(F.FAB_URUN_STAT_UNDERRUN g).addr] s (s.noteUnderrun cause g) :=
  ((RegsSame.refl _ s).andWrs (by simp [F.FAB_URUN_STAT_UNDERRUN, F.FAB_URUN_STAT_CAUSE])).andWr (f := F.FAB_URUN_STAT_EPISODES g) (by
    simp [F.FAB_URUN_STAT_UNDERRUN, F.FAB_URUN_STAT_EPISODES])

theorem State.noteUnderrun_other (cause : Nat) (s : State) (g k : Fin 32) (h : k ≠ g) :
    (s.noteUnderrun cause g).rd (F.FAB_URUN_STAT_UNDERRUN k) = s.rd (F.FAB_URUN_STAT_UNDERRUN k) := by
  have hne : k.1 ≠ g.1 := fun e => h (Fin.ext e)
  exact (s.noteUnderrun_regs cause g).rd _ (by simp only [F.FAB_URUN_STAT_UNDERRUN, List.mem_singleton]; omega)

theorem State.noteUnderrun_only (cause : Nat) (s : State) (g : Fin 32) : RegsOnly s (s.noteUnderrun cause g) :=
  (RegsOnly.wrs ..).trans (RegsOnly.wr ..)

theorem underrun_notMem (g t : Fin 32) : (F.FAB_URUN_STAT_UNDERRUN g).addr ∉ countOut t ++ fillOut := by
  have hg := g.isLt
  simp only [countOut, fillOut, F.SEQ_CYCLE_LO_COUNT, F.SEQ_LINE_LO_COUNT, F.FAB_FILL_FILL, F.FAB_URUN_STAT_UNDERRUN, List.mem_append, List.mem_cons,
    List.mem_map, List.mem_range, not_exists, not_and, List.not_mem_nil, or_false, not_or]
  exact ⟨by omega, fun k _ => by omega⟩

/-- An optional counted event of the registers in `out` leaves the fields elsewhere and the threads. -/
theorem State.countedEvent_keeps (p : Prop) [Decidable p] (s : State) (f : Fld) (r : EvReg) (i : Nat) {g : Fld}
    (hf : g.addr ≠ f.addr) (hr : g.addr ∉ evOut r) :
    let u := if p then (s.incSat f).event r i else s
    u.threads = s.threads ∧ u.rd g = s.rd g := by
  dsimp only
  split
  · exact ⟨((s.incSat f).event_event r i).threads.trans (State.incSat_threads ..),
      (((s.incSat f).event_regs r i).rd g hr).trans (State.rd_wr_other _ _ _ _ (.inl hf))⟩
  · exact ⟨rfl, rfl⟩

/-- The first void cycle of an episode opens it and marks the groves. -/
theorem State.beginVoid_keeps (s : State) (t : Fin 32) (cause : Nat) {u : State} (hu : s.beginVoid t cause = u) :
    (∃ stop, u.threads[t] = { s.threads[t] with voidEp := some ⟨s.threads[t].cycles, 0, cause, stop, false⟩ }) ∧
    ∀ g ∈ grovesIn s.threads[t].members, u.rd (F.FAB_URUN_STAT_UNDERRUN g) = 1 := by
  have ht := t.isLt
  subst hu
  unfold State.beginVoid
  dsimp only
  generalize hv : (grovesIn s.threads[t].members).foldl _ s = v
  have hfold : (grovesIn s.threads[t].members).foldl (State.noteUnderrun cause) s = v := hv
  have hvthreads : v.threads = s.threads := by
    rw [← hfold]
    exact (foldl_regsOnly _ _ _ fun _ _ => State.noteUnderrun_only ..).threads
  have hset : ∀ g ∈ grovesIn s.threads[t].members, v.rd (F.FAB_URUN_STAT_UNDERRUN g) = 1 := fun g hg => by
    rw [← hfold]
    exact State.rd_foldl_step (f := fun g : Fin 32 => F.FAB_URUN_STAT_UNDERRUN g) (v := fun _ => 1) (State.noteUnderrun_set cause)
      (State.noteUnderrun_other cause) _ s hg
  generalize hw : v.modThread t _ = w
  have hwthread : ∃ stop, w.threads[t] = { s.threads[t] with voidEp := some ⟨s.threads[t].cycles, 0, cause, stop, false⟩ } :=
    ⟨_, by rw [← hw, State.modThread_threads, upd_same, hvthreads]⟩
  have hwrd (f : Fld) : w.rd f = v.rd f := by rw [← hw, State.modThread_rd]
  have hseq (g : Fin 32) : (F.FAB_URUN_STAT_UNDERRUN g).addr ∉ evOut (Ev.seq t) := by
    have hg := g.isLt
    simp only [evOut, Ev.seq, Ev.sch, F.SCH_UNCLAIMED_COUNT, F.FAB_URUN_STAT_UNDERRUN, List.mem_cons, List.not_mem_nil, or_false]; omega
  have hstrm (g : Fin 32) : (F.FAB_URUN_STAT_UNDERRUN g).addr ∉ evOut (Ev.strm t) := by
    have hg := g.isLt
    simp only [evOut, Ev.strm, Ev.sch, F.SCH_UNCLAIMED_COUNT, F.FAB_URUN_STAT_UNDERRUN, List.mem_cons, List.not_mem_nil, or_false]; omega
  have hlate (g : Fin 32) : (F.FAB_URUN_STAT_UNDERRUN g).addr ≠ (F.SEQ_LATE_CNT_COUNT t).addr := by
    have hg := g.isLt
    simp only [F.FAB_URUN_STAT_UNDERRUN, F.SEQ_LATE_CNT_COUNT]; omega
  have hstarve (g : Fin 32) : (F.FAB_URUN_STAT_UNDERRUN g).addr ≠ (F.HQ_STRM_STARVE_CNT_COUNT t).addr := by
    have hg := g.isLt
    simp only [F.FAB_URUN_STAT_UNDERRUN, F.HQ_STRM_STARVE_CNT_COUNT]; omega
  have hx (g : Fin 32) := State.countedEvent_keeps ((s.threads[t].pend.any fun p => p.1 == s.threads[t].lines) = true) w (F.SEQ_LATE_CNT_COUNT t)
    (Ev.seq t) 2 (hlate g) (hseq g)
  dsimp only at hx
  generalize (if (s.threads[t].pend.any fun p => p.1 == s.threads[t].lines) = true then
    (w.incSat (F.SEQ_LATE_CNT_COUNT t)).event (Ev.seq t) 2 else w) = x at *
  have hy (g : Fin 32) := State.countedEvent_keeps (cause = 3 ∧ x.starved t = true) x (F.HQ_STRM_STARVE_CNT_COUNT t)
    (Ev.strm t) 0 (hstarve g) (hstrm g)
  refine ⟨?_, fun g hg => ?_⟩
  · rw [(hy 0).1, (hx 0).1]; exact hwthread
  · rw [(hy g).2, (hx g).2, hwrd, hset g hg]

end Sys2Proof.Machine

open Sys2Proof Sys2Proof.Machine

/-- Settles O12: a cycle with a line, a void cycle within an episode, the first of one, and the end by the limit. -/
theorem commitsAndVoids : Obligations.CommitsAndVoids := by
  unfold Obligations.CommitsAndVoids
  refine ⟨fun t cause l rest s hmembers hrun hopen hroom hpeers hcause hvoid hfifo => ?_,
    fun t cause ep s hmembers hrun hopen hroom hvoid hfifo => ?_, fun t cause s hmembers hrun hopen hroom hvoid hfifo => ?_,
    fun t ep s hspent hvoid => ?_⟩
  · exact ⟨_, commit_line hmembers hrun hopen hroom hpeers hcause hvoid hfifo, commitLine_keeps hfifo rfl⟩
  · have hexec := commit_void (cause := cause) hmembers hrun hopen hroom hfifo
    rw [hvoid, if_neg (by simp)] at hexec
    obtain ⟨hcycles, hlines, hpipe, hvoids, hep, hquiet⟩ := commitVoid_keeps (s := s) (t := t) rfl
    rw [hvoid] at hep
    exact ⟨_, hexec, hcycles, hlines, hpipe, hvoids, hep, hquiet⟩
  · have hexec := commit_void (cause := cause) hmembers hrun hopen hroom hfifo
    rw [hvoid, if_pos (by decide)] at hexec
    obtain ⟨⟨stop, hthread⟩, hset⟩ := State.beginVoid_keeps s t (s.voidCause t 0) rfl
    generalize s.beginVoid t (s.voidCause t 0) = v at *
    obtain ⟨hcycles, hlines, _, hvoids, hep, hquiet⟩ := commitVoid_keeps (s := v) (t := t) rfl
    rw [hthread] at hcycles hlines hvoids hep
    refine ⟨_, hexec, hcycles, hlines, hvoids, ?_, fun g hg => ?_⟩
    · rw [hep]; rfl
    · rw [hquiet.rd _ (underrun_notMem g t), hset g hg]
  · have hexec : exec (.voidLimitReached t) s = .next (s.modThread t fun k => { k with voidEp := k.voidEp.map fun e =>
        { e with stopAt := some (e.stopAt.getD (((k.cycles - 1 - (s.threads[t].voids - s.groves[s.lead t].voidLimit)) / 64 + 1) * 64)) } }) :=
      if_pos ⟨hspent, by rw [hvoid]; rfl⟩
    refine ⟨_, hexec, ⟨(ep.stopAt.getD (((s.threads[t].cycles - 1 - (s.threads[t].voids - s.groves[s.lead t].voidLimit)) / 64 + 1) * 64)),
      ?_, fun hnone => ?_⟩, rfl, fun j hj => ?_⟩
    · rw [State.modThread_threads, upd_same, hvoid]; rfl
    · rw [hnone]; exact Nat.mul_mod_left _ _
    · rw [State.modThread_threads, upd_other _ _ _ _ hj]
end

section
/-! SEG_UNLOAD beside a load of the same generation (R150), which refutes O15. -/

set_option Elab.async false

namespace Sys2Proof.Machine

/-- A host-tier segment without words or lines, and the same generation being loaded once more. -/
def unloadedSeg : Seg :=
  { id := 5, gen := 1, tier := .host, pages := [], ipages := [], iwords := 0, lines := 0, granBytes := 32 }

/-- Reset with both entries and an accepted SEG_UNLOAD. -/
def loadedTwice : State :=
  { State.reset with
    hq := { State.reset.hq with inFlight := [⟨⟨2, 7, 1, false⟩, 0x12, 4, false, false, false, false⟩] }
    forest := { State.reset.forest with segs := [unloadedSeg, { unloadedSeg with loading := some ⟨3, 8, 1, false⟩ }] } }

/-- The answer's state still holds an entry of generation 1 of segment 5. -/
def keepsSeg : Host.Outcome State Fault Refusal → Bool
  | .next u => u.forest.segs.any fun y => y.id == 5 && y.gen == 1
  | _ => false

theorem loadedTwice_keeps : keepsSeg (exec (.segUnload ⟨2, 7, 1, false⟩ 5 1) loadedTwice) = true := by decide +kernel

end Sys2Proof.Machine

open Sys2Proof Sys2Proof.Machine

/-- Refutes O15: SEG_UNLOAD removes the current entry and keeps one of the same generation that is still being loaded. -/
theorem not_segmentLife : ¬ Obligations.SegmentLife := by
  unfold Obligations.SegmentLife
  rintro ⟨_, _, _, _, _, hunload, _⟩
  obtain ⟨u, hu, _, hgone⟩ := hunload ⟨2, 7, 1, false⟩ 5 1 unloadedSeg loadedTwice
    (by simp only [State.canBegin]; decide +kernel) (by decide +kernel) rfl (by decide +kernel)
  have hkept := loadedTwice_keeps
  rw [hu, keepsSeg, List.any_eq_true] at hkept
  obtain ⟨y, hy, hsame⟩ := hkept
  exact hgone y hy (by simpa using hsame)
end

section
/-! The move of a code page while a bank is evacuated (R147, R154), which refutes O16. -/

set_option Elab.async false

namespace Sys2Proof.Machine

/-- Reset with a code page's move under way and bank 2 being evacuated, in which a capture buffer of grove 0 that has drained lies. -/
def evacuating : State :=
  let s := State.reset.wr (F.STR_REGION_BANKS_BANK_MASK 3) 2
  { s.modGrove 0 fun k => { k with bufs := [⟨false, 130, 65536⟩] } with
    canopy := [(130 * 65536, 5)]
    forest := { s.forest with
      regions := [(130, 1, 3), (64, 1, 3)], codeMoves := [⟨0, 1, none⟩], evacs := [⟨2, ⟨2, 7, 1, false⟩, false, false⟩] } }

/-- The byte of the Canopy of the answer's state at the first address of page 64. -/
def firstOf64 : Host.Outcome State Fault Refusal → Byte
  | .next u => Mem.byte u.canopy (64 * canopyPage)
  | _ => 0

theorem evacuating_moves : firstOf64 (exec .codePageMove evacuating) = 5 := by decide +kernel

end Sys2Proof.Machine

open Sys2Proof Sys2Proof.Machine

/-- Refutes O16: once the code page has moved, the evacuation of bank 2 goes on and copies the capture buffer to page 64, which is neither
the code page's old place nor its new one. -/
theorem not_evacuationAndParking : ¬ Obligations.EvacuationAndParking := by
  unfold Obligations.EvacuationAndParking
  rintro ⟨_, _, _, _, hmove⟩
  obtain ⟨u, hu, _, _, _, hother, _⟩ := hmove ⟨0, 1, none⟩ [] evacuating (by decide +kernel) (by decide +kernel) (by decide +kernel) (by decide +kernel)
  have hbyte := evacuating_moves
  rw [hu, firstOf64, hother _ (by decide +kernel) (by decide +kernel)] at hbyte
  exact absurd hbyte (by decide +kernel)
end

section
/-! Host commands that begin (R313, R326), the services of the forester (R137, R152, R153, R157), and the obligation O17. -/

set_option Elab.async false

namespace Sys2Proof.Machine

/-! ## Host commands that begin -/

/-- Nothing but the host interface's queues differs, and of these no completion. -/
def BegunOnly (s v : State) : Prop := v = { s with hq := v.hq } ∧ v.hq.compls = s.hq.compls

theorem BegunOnly.regs {s v : State} (h : BegunOnly s v) : v.regs = s.regs := by rw [h.1]
theorem BegunOnly.forest {s v : State} (h : BegunOnly s v) : v.forest = s.forest := by rw [h.1]
theorem BegunOnly.quiet {s v : State} (h : BegunOnly s v) (out : List Nat) : Quiet out s v := by
  rw [h.1]; exact (Quiet.refl out s).andSame rfl rfl rfl rfl rfl

/-- The entry of an accepted command is marked as begun. -/
def State.markBegun (s : State) (f : InFlight) : State :=
  { s with hq := { s.hq with inFlight := s.hq.inFlight.map fun e => if e.order = f.order then { e with begun := true } else e } }

theorem State.take_eq (s : State) (f : InFlight) (run : State → State) : s.take_ f run =
    if s.clearing && cutOpc f.opc then (s.markBegun f).complete f.hdr (cutStatus f.opc) else run (s.markBegun f) := rfl

/-- A command that can begin is marked as begun and runs. -/
theorem State.begin_ready {s : State} {h : Hdr} {opc : Nat} (hb : s.canBegin h opc) : ∃ v, BegunOnly s v ∧ ∀ run, s.begin_ h opc run = run v := by
  obtain ⟨hwait, hclear⟩ := hb
  obtain ⟨f, hf⟩ := Option.isSome_iff_exists.1 hwait
  have hopc : f.opc = opc := by
    obtain ⟨hfind, _⟩ := Option.filter_eq_some_iff.1 hf
    have hsome := List.find?_some hfind
    simp only [Bool.and_eq_true, beq_iff_eq] at hsome
    exact hsome.1.2
  refine ⟨s.markBegun f, ⟨rfl, rfl⟩, fun run => ?_⟩
  rw [State.begin_, hf]
  dsimp only
  rw [State.take_eq, if_neg]
  rcases hclear with hc | hc
  · rw [hc, Bool.false_and]; decide
  · rw [hopc, hc, Bool.and_false]; decide

theorem State.complete_keeps (s : State) (h : Hdr) (status detail result : Nat) :
    (s.complete h status detail result).hq.compls = s.hq.compls ++ [⟨h, status, detail, result, false⟩] ∧
    s.complete h status detail result = { s with hq := (s.complete h status detail result).hq } := ⟨rfl, rfl⟩

theorem Completes.of_complete {s v : State} {h : Hdr} {status detail result : Nat} (hv : v.hq.compls = s.hq.compls) :
    Completes s (v.complete h status detail result) h status detail result := congrArg (· ++ [_]) hv

theorem Quiet.andComplete {out : List Nat} {s u : State} (h : Quiet out s u) {c : Hdr} {status detail result : Nat} {intake : Bool} :
    Quiet out s (u.complete c status detail result intake) := h.andSame rfl rfl rfl rfl rfl

/-! ## Pages given back (R137) -/

theorem Mem.byte_clear (m : Mem) (a n x : Nat) : Mem.byte (Mem.clear m a n) x = if a ≤ x ∧ x < a + n then 0 else Mem.byte m x := by
  unfold Mem.byte Mem.clear
  rw [cellGet_filter fun y => decide (y < a) || decide (a + n ≤ y)]
  by_cases h : a ≤ x ∧ x < a + n
  · rw [if_pos h, if_neg (by simp; omega)]; rfl
  · rw [if_neg h, if_pos (by simp; omega)]

/-- Clearing a run of pages zeroes their bytes and no other. -/
theorem Mem.byte_clearRun (unit : Nat) (m : Mem) (p n x : Nat) :
    Mem.byte (((List.range n).map (p + ·)).foldl (fun m p => Mem.clear m (p * unit) unit) m) x =
      if p * unit ≤ x ∧ x < (p + n) * unit then 0 else Mem.byte m x := by
  induction n with
  | zero => rw [Nat.add_zero, if_neg (by omega)]; rfl
  | succ n ih =>
    rw [List.range_succ, List.map_append, List.foldl_append, List.map_cons, List.map_nil, List.foldl_cons, List.foldl_nil, Mem.byte_clear, ih]
    simp only [Nat.add_mul, Nat.one_mul]
    generalize p * unit = a
    generalize n * unit = b
    by_cases hlast : a + b ≤ x ∧ x < a + b + unit
    · rw [if_pos hlast, if_pos (by omega)]
    · rw [if_neg hlast]
      by_cases hrun : a ≤ x ∧ x < a + b
      · rw [if_pos hrun, if_pos (by omega)]
      · rw [if_neg hrun, if_neg (by omega)]

/-! ## Scratch claims, capture buffers, the placement report (R137, R152, R153, R321) -/

theorem claim_granted {h : Hdr} {pages p : Nat} {s : State} (hb : s.canBegin h 0x15) (h0 : 0 < pages) (h64 : pages ≤ 64)
    (hrun : s.scratchRun pages = some p) : Answers (.scratchClaim h pages) s fun u =>
      Completes s u h stOk 0 s.forest.nextClaim ∧ u.forest.claims = s.forest.claims ++ [(s.forest.nextClaim, p, pages)] ∧
      u.forest.nextClaim = s.forest.nextClaim % 65535 + 1 ∧ u.regs = s.regs ∧ Quiet [] s u := by
  obtain ⟨v, hv, hbegin⟩ := State.begin_ready hb
  have hvrun : v.scratchRun pages = some p := by rw [← hrun, hv.1]; rfl
  refine ⟨_, congrArg Host.Outcome.next (hbegin _), ?_⟩
  rw [if_neg (by omega), hvrun]
  dsimp only
  have hclaims : (v.takePages 4 [(p, pages)]).forest.claims = v.forest.claims := rfl
  have hnext : (v.takePages 4 [(p, pages)]).forest.nextClaim = v.forest.nextClaim := rfl
  refine ⟨?_, ?_, ?_, ?_, ?_⟩
  · show v.hq.compls ++ [_] = _
    rw [hv.2, hv.forest]
  · show (v.takePages 4 [(p, pages)]).forest.claims ++ [_] = _
    rw [hclaims, hv.forest]
  · rw [← hv.forest]; rfl
  · exact hv.regs
  · exact (hv.quiet []).andSame rfl rfl rfl rfl rfl

theorem claim_released {h : Hdr} {claim : Nat} {c : Nat × Nat × Nat} {s : State} (hb : s.canBegin h 0x15)
    (hfind : (s.forest.claims.find? fun c => c.1 == claim) = some c) : Answers (.scratchRelease h claim) s fun u =>
      Completes s u h stOk 0 0 ∧ u.forest.claims = s.forest.claims.filter (fun o => o.1 != claim) ∧ u.regs = s.regs ∧
      (∀ a, Mem.byte u.canopy a = if c.2.1 * canopyPage ≤ a ∧ a < (c.2.1 + c.2.2) * canopyPage then 0 else Mem.byte s.canopy a) ∧
      u.sdram = s.sdram ∧ u.flash = s.flash ∧ u.host = s.host := by
  obtain ⟨v, hv, hbegin⟩ := State.begin_ready hb
  have hvfind : (v.forest.claims.find? fun c => c.1 == claim) = some c := by rw [hv.forest, hfind]
  refine ⟨_, congrArg Host.Outcome.next (hbegin _), ?_⟩
  rw [hvfind]
  dsimp only
  rw [hv.1]
  refine ⟨?_, rfl, rfl, fun a => Mem.byte_clearRun canopyPage s.canopy c.2.1 c.2.2 a, rfl, rfl, rfl⟩
  show v.hq.compls ++ [_] = _
  rw [hv.2]

theorem capture_released {h : Hdr} {g : Fin 32} {a b : Place} {rest : List Place} {s : State} (hb : s.canBegin h 0x16)
    (hbufs : s.groves[g].bufs = a :: b :: rest) : Answers (.captureRelease h g) s fun u =>
      Completes s u h stOk 0 0 ∧ u.groves[g].bufs = [a] ∧ u.regs = s.regs ∧ u.flash = s.flash ∧ u.host = s.host := by
  obtain ⟨v, hv, hbegin⟩ := State.begin_ready hb
  have hvbufs : v.groves[g].bufs = a :: b :: rest := by rw [hv.1]; exact hbufs
  refine ⟨_, congrArg Host.Outcome.next (hbegin _), ?_⟩
  rw [dif_pos g.isLt]
  simp only [Fin.eta]
  rw [hvbufs]
  dsimp only
  have hfree : (v.freePlace b).regs = v.regs ∧ (v.freePlace b).flash = v.flash ∧ (v.freePlace b).host = v.host ∧ (v.freePlace b).hq = v.hq := by
    unfold State.freePlace State.zeroPages
    split <;> exact ⟨rfl, rfl, rfl, rfl⟩
  obtain ⟨hregs, hflash, hhost, hhq⟩ := hfree
  refine ⟨?_, ?_, hregs.trans hv.regs, ?_, ?_⟩
  · show (v.freePlace b).hq.compls ++ [_] = _
    rw [hhq, hv.2]
  · exact congrArg Grove.bufs (upd_same (v.freePlace b).groves g fun k => { k with bufs := [a] })
  · exact hflash.trans (by rw [hv.1])
  · exact hhost.trans (by rw [hv.1])

/-- Bytes put are at most as many as were let through: the others keep what they held. -/
theorem Mem.byte_puts_take (m : Mem) {dest n a : Nat} (l : List Byte) (h : a < dest ∨ dest + n ≤ a) :
    Mem.byte (Mem.puts m dest (l.take n)) a = Mem.byte m a := by
  have hlen := List.length_take_le n l
  rw [Mem.byte_puts, dif_neg (by omega)]

theorem placement_reported {h : Hdr} {dest maxLen : Nat} {s : State} (hb : s.canBegin h 0x17) (hdest : dest % 64 = 0) (hlen : 64 ≤ maxLen) :
    Answers (.placementReport h dest maxLen) s fun u =>
      (∃ n st, Completes s u h st 0 n ∧ (st = stOk ∨ st = 0x0F) ∧ 64 + 32 * n ≤ maxLen) ∧
      (∀ a, a < dest ∨ dest + maxLen ≤ a → Mem.byte u.host a = Mem.byte s.host a) ∧
      u.forest = s.forest ∧ u.regs = s.regs ∧ u.canopy = s.canopy ∧ u.sdram = s.sdram ∧ u.flash = s.flash := by
  obtain ⟨v, hv, hbegin⟩ := State.begin_ready hb
  refine ⟨_, congrArg Host.Outcome.next (hbegin _), ?_⟩
  rw [if_neg (not_not.2 hdest)]
  dsimp only
  refine ⟨⟨_, _, Completes.of_complete hv.2, ?_, ?_⟩, fun a ha => ?_, hv.forest, hv.regs, ?_, ?_, ?_⟩
  · split
    · exact .inr rfl
    · exact .inl rfl
  · omega
  · exact (Mem.byte_puts_take _ _ ha).trans (by rw [hv.1])
  · rw [hv.1]; rfl
  · rw [hv.1]; rfl
  · rw [hv.1]; rfl

theorem query_selected {req : Req} {w : Word} {s : State} (hw : s.mayWrite req F.FOR_QUERY_SEG.addr w = true) :
    Answers (.forQueryWrite req w) s fun u =>
      u.forest.query = w.toNat % 65536 ∧ u = { s with forest := { s.forest with query := u.forest.query }, regs := u.regs } ∧
      Quiet [wseqOut] s u := by
  refine answers_regWrite rfl hw fun u honly hregs => ?_
  have hforest : u.forest = { s.forest with query := w.toNat % 65536 } := by rw [honly]
  refine ⟨by rw [hforest], ?_, ?_⟩
  · rw [hforest]; exact honly
  · exact Quiet.trans ((Quiet.refl [wseqOut] s).andSame rfl rfl rfl rfl rfl) ⟨hregs, honly.event.bytes⟩

theorem split_moved {req : Req} {w : Word} {s : State} (hw : s.mayWrite req F.FOR_SDRAM_SPLIT_GIB.addr w = true)
    (hfree : (s.usedSdram.any fun p => decide (fieldOf w.toNat 0 6 * 1024 ≤ p)) = false) : Answers (.forSdramSplitWrite req w) s fun u =>
      u.rd F.FOR_SDRAM_SPLIT_GIB = fieldOf w.toNat 0 6 ∧ RegsOnly s u ∧ Quiet [(F.FOR_SDRAM_SPLIT_GIB).addr, wseqOut] s u := by
  refine answers_regWrite (apply := fun s => s.sdramSplit (fieldOf w.toNat 0 6)) rfl hw fun u honly hregs => ?_
  have hsplit : s.sdramSplit (fieldOf w.toNat 0 6) = s.wr F.FOR_SDRAM_SPLIT_GIB (fieldOf w.toNat 0 6) := by
    rw [State.sdramSplit, if_neg (by rw [hfree]; decide)]
  rw [hsplit] at honly hregs
  have hall : RegsOnly s u := (RegsOnly.wr ..).trans honly
  refine ⟨?_, hall, .of_event hall.event ?_⟩
  · rw [hregs.rd _ (by decide)]
    exact State.rd_wr_fit _ _ _ (by decide) (fieldOf_lt _ 0 6)
  · exact (RegsSame.wr _ _ _ (by simp)).trans (hregs.mono (by simp))

theorem split_refused {req : Req} {w : Word} {s : State} (hw : s.mayWrite req F.FOR_SDRAM_SPLIT_GIB.addr w = true)
    (hused : (s.usedSdram.any fun p => decide (fieldOf w.toNat 0 6 * 1024 ≤ p)) = true) : Answers (.forSdramSplitWrite req w) s fun u =>
      u.rd F.FOR_SDRAM_SPLIT_GIB = s.rd F.FOR_SDRAM_SPLIT_GIB ∧ bitOf (u.rd Ev.frst.bits) 7 = true ∧ EventOnly s u ∧
      Quiet (wseqOut :: evOut Ev.frst) s u := by
  refine answers_regWrite (apply := fun s => s.sdramSplit (fieldOf w.toNat 0 6)) rfl hw fun u honly hregs => ?_
  have hsplit : s.sdramSplit (fieldOf w.toNat 0 6) = s.event Ev.frst 7 := by rw [State.sdramSplit, if_pos hused]
  rw [hsplit] at honly hregs
  have hall : EventOnly s u := (s.event_event Ev.frst 7).trans honly.event
  have hevent := s.event_regs Ev.frst 7
  refine ⟨?_, ?_, hall, .of_event hall ?_⟩
  · rw [hregs.rd _ (by decide), hevent.rd _ (by decide)]
  · rw [hregs.rd _ (by decide)]; exact State.event_bit _ _ (by decide) (by decide)
  · exact (hevent.mono fun _ h => List.mem_cons_of_mem _ h).trans (hregs.mono (by simp))

end Sys2Proof.Machine

open Sys2Proof Sys2Proof.Machine

/-- Settles O17: claims, releases, capture buffers, the placement report, the query, and a split moved or refused. -/
theorem foresterServices : Obligations.ForesterServices := by
  unfold Obligations.ForesterServices
  exact ⟨fun h pages p s => claim_granted, fun h claim c s => claim_released, fun h g a b rest s => capture_released,
    fun h dest maxLen s => placement_reported, fun req w s => query_selected, fun req w s => split_moved, fun req w s => split_refused⟩
end

section
/-! Host streams (R126 to R130, R150), and the obligation O18. -/

set_option Elab.async false

namespace Sys2Proof.Machine

theorem Quiet.andModStream {out : List Nat} {s t : State} (h : Quiet out s t) {i : Fin 32} {f : Stream → Stream} :
    Quiet out s (t.modStream i f) := h.andSame rfl rfl rfl rfl rfl

theorem strm_ev_notMem_occOut (t : Fin 32) : (Ev.strm t).ev ∉ occOut := by
  have ht := t.isLt
  simp only [Ev.strm, occOut, Ev.sch, F.SCH_UNCLAIMED_COUNT, List.mem_cons, List.not_mem_nil, or_false]; omega

/-- A permitted write counts as retired in HQ_WSEQ and changes nothing else beside what it does. -/
theorem Quiet.andWrite {out : List Nat} {s v u : State} (h : Quiet out s v) (honly : RegsOnly v u) (hregs : RegsSame [wseqOut] v u)
    (hout : wseqOut ∈ out) : Quiet out s u :=
  h.trans ⟨hregs.mono (by simpa using hout), honly.event.bytes⟩

/-! ## HQ_STRM_CFG (R126) -/

/-- The registers of a stream's ring. -/
def cfgOut (t : Fin 32) : List Nat := [(F.HQ_STRM_CFG_RING t).addr, (F.HQ_STRM_WIN_OFFSET t).addr]

theorem strmOut_cfg (t : Fin 32) : (F.HQ_STRM_CFG_RING t).addr ∉ strmOut t := by
  simp only [strmOut, F.HQ_STRM_CFG_RING, F.HQ_STRM_STAT_ANN, F.HQ_STRM_CONS_LO_K, List.mem_cons, List.not_mem_nil, or_false]; omega

/-- A stream without a ring is emptied. -/
theorem State.dropRing_keeps {s : State} {t : Fin 32} (hring : s.streams[t].ring = none) :
    (s.dropRing t).streams = upd s.streams t (fun _ => {}) ∧ (s.dropRing t).rd (F.HQ_STRM_CFG_RING t) = 0 ∧
    Quiet (cfgOut t ++ strmOut t) s (s.dropRing t) := by
  unfold State.dropRing
  rw [hring]
  dsimp only [Option.elim]
  generalize hv : s.modStream t (fun _ => {}) = v
  have hvstreams : v.streams = upd s.streams t (fun _ => {}) := by rw [← hv]; rfl
  have hvquiet : Quiet (cfgOut t ++ strmOut t) s v := by rw [← hv]; exact (Quiet.refl _ s).andModStream
  generalize hw : v.wrs [(F.HQ_STRM_CFG_RING t, 0), (F.HQ_STRM_WIN_OFFSET t, 0)] = w
  have hwstreams : w.streams = v.streams := by rw [← hw, State.wrs_streams]
  have hwring : w.rd (F.HQ_STRM_CFG_RING t) = 0 := by
    rw [← hw]
    simp only [State.wrs, List.foldl_cons, List.foldl_nil]
    rw [State.rd_wr_other _ _ _ _ (.inl (by simp [F.HQ_STRM_CFG_RING, F.HQ_STRM_WIN_OFFSET])), State.rd_wr_same _ _ _ (by simp [F.HQ_STRM_CFG_RING])]
    rfl
  have hwquiet : Quiet (cfgOut t ++ strmOut t) s w := by rw [← hw]; exact hvquiet.andWrs (by simp [cfgOut])
  obtain ⟨_, hstreams, _, hquiet⟩ := w.noteStream_keeps t
  exact ⟨by rw [hstreams, hwstreams, hvstreams], by rw [hquiet.rd _ (strmOut_cfg t), hwring],
    hwquiet.trans (hquiet.mono fun _ h => List.mem_append_right _ h)⟩

theorem cfg_frees {req : Req} {t : Fin 32} {w : Word} {s : State} (hw : s.mayWrite req (F.HQ_STRM_CFG_RING t).addr w = true)
    (hidle : s.threads[t].busy = none) (hring : s.streams[t].ring = none) (hzero : fieldOf w.toNat 0 13 = 0) :
    Answers (.hqStrmCfgWrite req t w) s fun u =>
      u.streams[t] = {} ∧ u.rd (F.HQ_STRM_CFG_RING t) = 0 ∧ u.rd (F.HQ_STRM_CFG_STRIDE t) = fieldOf w.toNat 16 4 ∧
      u.rd (F.HQ_STRM_CFG_MIRROR_EN t) = fieldOf w.toNat 24 1 ∧ (∀ v, v ≠ t → u.streams[v] = s.streams[v]) ∧
      Quiet (cfgOut t ++ strmOut t ++ [wseqOut]) s u := by
  refine answers_regWrite (apply := fun s => s.strmCfg t w.toNat) rfl hw fun u honly hregs => ?_
  obtain ⟨hstreams, hnone, hquiet⟩ := State.dropRing_keeps hring
  have hcfg : s.strmCfg t w.toNat = (s.dropRing t).wrs [(F.HQ_STRM_CFG_STRIDE t, fieldOf w.toNat 16 4), (F.HQ_STRM_CFG_MIRROR_EN t, fieldOf w.toNat 24 1)] := by
    rw [State.strmCfg, hidle, if_neg (by decide), if_pos hzero]
  rw [hcfg] at honly hregs
  generalize s.dropRing t = v at *
  have hwseq (f : Fld) (hf : f.addr = (F.HQ_STRM_CFG_RING t).addr) : f.addr ∉ [wseqOut] := by
    rw [hf]; simp only [wseqOut, F.HQ_WSEQ_COUNT, F.HQ_STRM_CFG_RING, List.mem_singleton]; omega
  have hustreams : u.streams = upd s.streams t (fun _ => {}) := by rw [honly, ← hstreams]; exact State.wrs_streams ..
  refine ⟨by rw [hustreams, upd_same], ?_, ?_, ?_, fun j hj => by rw [hustreams, upd_other _ _ _ _ hj], ?_⟩
  · rw [hregs.rd _ (hwseq _ rfl)]
    simp only [State.wrs, List.foldl_cons, List.foldl_nil]
    rw [State.rd_wr_apart _ _ _ _ (by simp [F.HQ_STRM_CFG_MIRROR_EN]) (by simp [Fld.apart, F.HQ_STRM_CFG_MIRROR_EN, F.HQ_STRM_CFG_RING]),
      State.rd_wr_apart _ _ _ _ (by simp [F.HQ_STRM_CFG_STRIDE]) (by simp [Fld.apart, F.HQ_STRM_CFG_STRIDE, F.HQ_STRM_CFG_RING]), hnone]
  · rw [hregs.rd (F.HQ_STRM_CFG_STRIDE t) (hwseq _ rfl)]
    simp only [State.wrs, List.foldl_cons, List.foldl_nil]
    rw [State.rd_wr_apart _ _ _ _ (by simp [F.HQ_STRM_CFG_MIRROR_EN]) (by simp [Fld.apart, F.HQ_STRM_CFG_MIRROR_EN, F.HQ_STRM_CFG_STRIDE])]
    exact State.rd_wr_fit _ _ _ (by simp [F.HQ_STRM_CFG_STRIDE]) (fieldOf_lt _ 16 4)
  · rw [hregs.rd (F.HQ_STRM_CFG_MIRROR_EN t) (hwseq _ rfl)]
    simp only [State.wrs, List.foldl_cons, List.foldl_nil]
    exact State.rd_wr_fit _ _ _ (by simp [F.HQ_STRM_CFG_MIRROR_EN]) (fieldOf_lt _ 24 1)
  · have hvquiet : Quiet (cfgOut t ++ strmOut t ++ [wseqOut]) s v := hquiet.mono fun _ h => List.mem_append_left _ h
    exact (hvquiet.andWrs (by simp [cfgOut, F.HQ_STRM_CFG_STRIDE, F.HQ_STRM_CFG_MIRROR_EN, F.HQ_STRM_CFG_RING])).andWrite honly hregs (by simp)

theorem cfg_busy {req : Req} {t : Fin 32} {w : Word} {s : State} (hw : s.mayWrite req (F.HQ_STRM_CFG_RING t).addr w = true)
    (hbusy : s.threads[t].busy.isSome = true) : Answers (.hqStrmCfgWrite req t w) s fun u =>
      u.streams = s.streams ∧ bitOf (u.rd (Ev.strm t).bits) 5 = true ∧ EventOnly s u ∧ Quiet (wseqOut :: evOut (Ev.strm t)) s u := by
  refine answers_regWrite (apply := fun s => s.strmCfg t w.toNat) rfl hw fun u honly hregs => ?_
  have hcfg : s.strmCfg t w.toNat = s.event (Ev.strm t) 5 := by rw [State.strmCfg, if_pos hbusy]
  rw [hcfg] at honly hregs
  have hall : EventOnly s u := (s.event_event (Ev.strm t) 5).trans honly.event
  refine ⟨by rw [hall], ?_, hall, ?_⟩
  · rw [hregs.rd]
    · exact State.event_bit _ _ (strm_ev_notMem_occOut t) (by decide)
    · simp only [Ev.strm, EvReg.bits, wseqOut, F.HQ_WSEQ_COUNT, List.mem_singleton]; omega
  · exact ((Quiet.refl _ s).andEvent fun _ h => List.mem_cons_of_mem _ h).andWrite honly hregs (List.mem_cons_self ..)

/-! ## Doorbells and announcements (R127, R130, R150) -/

theorem put_fills {req : Req} {t : Fin 32} {w : Word} {s : State} (hw : s.mayWrite req (F.HQ_STRM_PUT_COUNT t).addr w = true) :
    Answers (.hqStrmPut req t w) s fun u =>
      u.streams[t].put = s.streams[t].put +
        min (fieldOf w.toNat 0 13) (s.streams[t].cons + s.rd (F.HQ_STRM_CFG_RING t) - s.streams[t].put) ∧
      u.streams[t].cons = s.streams[t].cons ∧ u.streams[t].ring = s.streams[t].ring ∧ u.streams[t].anns = s.streams[t].anns ∧
      (∀ v, v ≠ t → u.streams[v] = s.streams[v]) ∧ Quiet (strmOut t ++ [wseqOut] ++ evOut (Ev.strm t)) s u := by
  refine answers_regWrite (apply := fun s => s.strmPut t (fieldOf w.toNat 0 13)) rfl hw fun u honly hregs => ?_
  rw [State.strmPut] at honly hregs
  generalize hn : s.streams[t].cons + s.rd (F.HQ_STRM_CFG_RING t) - s.streams[t].put = room at *
  generalize fieldOf w.toNat 0 13 = n at *
  generalize hv : s.modStream t (fun k => { k with put := k.put + min n room }) = v at *
  have hvstreams : v.streams = upd s.streams t fun k => { k with put := k.put + min n room } := by rw [← hv]; rfl
  have hvquiet : Quiet (strmOut t ++ [wseqOut] ++ evOut (Ev.strm t)) s v := by rw [← hv]; exact (Quiet.refl _ s).andModStream
  obtain ⟨_, hstreams, _, hquiet⟩ := v.noteStream_keeps t
  generalize v.noteStream t = x at *
  have hxquiet : Quiet (strmOut t ++ [wseqOut] ++ evOut (Ev.strm t)) s x :=
    hvquiet.trans (hquiet.mono fun _ h => List.mem_append_left _ (List.mem_append_left _ h))
  obtain ⟨y, hy, hystreams, hyquiet⟩ : ∃ y, (if room < n then x.event (Ev.strm t) 1 else x) = y ∧ y.streams = x.streams ∧
      Quiet (strmOut t ++ [wseqOut] ++ evOut (Ev.strm t)) s y := by
    refine ⟨_, rfl, ?_⟩
    split
    · exact ⟨by rw [x.event_event (Ev.strm t) 1], hxquiet.andEvent fun _ h => List.mem_append_right _ h⟩
    · exact ⟨rfl, hxquiet⟩
  rw [hy] at honly hregs
  have hustreams : u.streams = upd s.streams t fun k => { k with put := k.put + min n room } := by rw [honly, ← hvstreams, ← hstreams, ← hystreams]
  rw [hustreams, upd_same]
  exact ⟨rfl, rfl, rfl, rfl, fun j hj => upd_other _ _ _ _ hj, hyquiet.andWrite honly hregs (by simp)⟩

theorem announce_joins {req : Req} {t : Fin 32} {w : Word} {s : State} (hw : s.mayWrite req (F.HQ_STRM_ANNOUNCE_SEG t).addr w = true)
    (hlive : s.segLive t (fieldOf w.toNat 0 16) (fieldOf w.toNat 16 8) = true) (hroom : s.streams[t].anns.length < 8) :
    Answers (.hqStrmAnnounce req t w) s fun u =>
      u.streams[t].anns = s.streams[t].anns ++ [(fieldOf w.toNat 0 16, fieldOf w.toNat 16 8)] ∧
      u.streams[t].put = s.streams[t].put ∧ u.streams[t].cons = s.streams[t].cons ∧ (∀ v, v ≠ t → u.streams[v] = s.streams[v]) ∧
      Quiet (strmOut t ++ [wseqOut]) s u := by
  refine answers_regWrite (apply := fun s => s.strmAnnounce t (fieldOf w.toNat 0 16) (fieldOf w.toNat 16 8)) rfl hw fun u honly hregs => ?_
  rw [State.strmAnnounce, if_neg (by rw [hlive]; decide), if_neg (Nat.not_le.2 hroom)] at honly hregs
  generalize hv : s.modStream t (fun k => { k with anns := k.anns ++ [(fieldOf w.toNat 0 16, fieldOf w.toNat 16 8)] }) = v at *
  have hvstreams : v.streams = upd s.streams t fun k => { k with anns := k.anns ++ [(fieldOf w.toNat 0 16, fieldOf w.toNat 16 8)] } := by
    rw [← hv]; rfl
  have hvquiet : Quiet (strmOut t ++ [wseqOut]) s v := by rw [← hv]; exact (Quiet.refl _ s).andModStream
  obtain ⟨_, hstreams, _, hquiet⟩ := v.noteStream_keeps t
  generalize v.noteStream t = x at *
  have hustreams : u.streams = upd s.streams t fun k => { k with anns := k.anns ++ [(fieldOf w.toNat 0 16, fieldOf w.toNat 16 8)] } := by
    rw [honly, ← hvstreams, ← hstreams]
  rw [hustreams, upd_same]
  exact ⟨rfl, rfl, rfl, fun j hj => upd_other _ _ _ _ hj,
    (hvquiet.trans (hquiet.mono fun _ h => List.mem_append_left _ h)).andWrite honly hregs (by simp)⟩

theorem State.staleSeg_keeps (s : State) : EventOnly s s.staleSeg ∧ RegsSame ((F.FOR_STALE_CNT_COUNT).addr :: evOut Ev.frst) s s.staleSeg ∧
    s.staleSeg.rd F.FOR_STALE_CNT_COUNT = min (s.rd F.FOR_STALE_CNT_COUNT + 1) 65535 := by
  have hevent := (s.incSat F.FOR_STALE_CNT_COUNT).event_regs Ev.frst 3
  refine ⟨(RegsOnly.wr ..).event.trans ((s.incSat F.FOR_STALE_CNT_COUNT).event_event Ev.frst 3), ?_, ?_⟩
  · exact (RegsSame.incSat _ _ _ (List.mem_cons_self ..)).trans (hevent.mono fun _ h => List.mem_cons_of_mem _ h)
  · exact (hevent.rd _ (by decide)).trans (State.rd_incSat s _ (by decide))

theorem announce_stale {req : Req} {t : Fin 32} {w : Word} {s : State} (hw : s.mayWrite req (F.HQ_STRM_ANNOUNCE_SEG t).addr w = true)
    (hlive : s.segLive t (fieldOf w.toNat 0 16) (fieldOf w.toNat 16 8) = false) : Answers (.hqStrmAnnounce req t w) s fun u =>
      u.streams = s.streams ∧ u.rd F.FOR_STALE_CNT_COUNT = min (s.rd F.FOR_STALE_CNT_COUNT + 1) 65535 ∧ EventOnly s u ∧
      Quiet ([(F.FOR_STALE_CNT_COUNT).addr, wseqOut] ++ evOut Ev.frst) s u := by
  refine answers_regWrite (apply := fun s => s.strmAnnounce t (fieldOf w.toNat 0 16) (fieldOf w.toNat 16 8)) rfl hw fun u honly hregs => ?_
  rw [State.strmAnnounce, if_pos hlive] at honly hregs
  obtain ⟨honly', hregs', hcount⟩ := s.staleSeg_keeps
  have hall := honly'.trans honly.event
  refine ⟨by rw [hall], by rw [hregs.rd _ (by decide), hcount], hall, .of_event hall ?_⟩
  exact (hregs'.mono (by simp; tauto)).trans (hregs.mono (by simp))

end Sys2Proof.Machine

open Sys2Proof Sys2Proof.Machine

/-- Settles O18: a configuration that frees, one of a busy thread, a doorbell, and announcements of live and of stale segments. -/
theorem hostStreams : Obligations.HostStreams := by
  unfold Obligations.HostStreams
  exact ⟨fun req t w s => cfg_frees, fun req t w s => cfg_busy, fun req t w s => put_fills, fun req t w s => announce_joins,
    fun req t w s => announce_stale⟩
end

section
/-! A lower source that follows within the same 10 ns (R420), which refutes O48. -/

set_option Elab.async false

namespace Sys2Proof.Machine

/-- Reset with source 5 latched first at the raw count 0, the present one, and source 1 of class RECORD. -/
def sourceFiveFirst : State :=
  (State.reset.wrs [(F.FLT_LATCH_LATCH 0, 32), (F.FLT_STATUS_FIRST_SRC, 5), (F.FLT_STATUS_FIRST_VALID, 1), (F.FLT_CLASS_CLASS 0, 0)])

/-- The first source shown by the answer's state. -/
def firstShown : Host.Outcome State Fault Refusal → Nat
  | .next u => u.rd F.FLT_STATUS_FIRST_SRC
  | _ => 0

theorem lower_source_takes_first : firstShown (exec (.faultOccurrence (1 : Fin 96)) sourceFiveFirst) = 1 := by decide +kernel

end Sys2Proof.Machine

open Sys2Proof Sys2Proof.Machine

/-- Refutes O48: source 1 occurs within the 10 ns of source 5, which latched first, and takes its place as the first one shown. -/
theorem not_faultCollector : ¬ Obligations.FaultCollector := by
  unfold Obligations.FaultCollector
  rintro ⟨hrecord, _⟩
  obtain ⟨u, hu, _, _, _, _, _, _, hfirst, _⟩ := hrecord 1 sourceFiveFirst (by decide) (by decide) (by decide +kernel)
  have hshown := lower_source_takes_first
  rw [hu, firstShown, hfirst (by decide +kernel)] at hshown
  exact absurd hshown (by decide +kernel)
end

section
/-! Scrubbers and PE control buses (R79, R89, R180, R421), which settle O21. -/

set_option Elab.async false

namespace Sys2Proof.Machine

/-- An event whose fault is of class RECORD or NOTIFY sets its bit and latches its source, and leaves the rest of the state. -/
theorem State.event_faultOnce {w : State} {r : EvReg} {bit i : Nat} {g : Option (Fin 32)} (hi : i < 96) (hcls : w.classOf i < 2)
    (hclass : (F.FLT_CLASS_CLASS (i / 4)).addr ∉ evOut r) (hocc : r.ev ∉ occOut) (hbits : r.bits.addr ∉ faultOut i) (hbit : bit < 32)
    {u : State} (hu : (w.event r bit).faultOnce i g = u) :
    FaultOnly w u ∧ u.latched i = true ∧ bitOf (u.rd r.bits) bit = true ∧ RegsSame (evOut r ++ faultOut i) w u := by
  have hevent := w.event_event r bit
  have hregs := w.event_regs r bit
  have hset := State.event_bit w r hocc hbit
  generalize w.event r bit = x at *
  have hxcls : x.classOf i < 2 := by rw [hregs.classOf hclass]; exact hcls
  rw [State.faultOnce, State.fault_noted hxcls] at hu
  obtain ⟨hfault, hfregs, hlatched, _, _⟩ := State.latchFault_keeps x hi _ _ hu
  exact ⟨hevent.fault.trans hfault, hlatched, by rw [hfregs.rd _ hbits]; exact hset,
    (hregs.mono fun _ h => List.mem_append_left _ h).trans (hfregs.mono fun _ h => List.mem_append_right _ h)⟩

/-! ## The scrubbers -/

theorem Quiet.andModChan {out : List Nat} {s x : State} (h : Quiet out s x) {c : Fin 128} {f : Chan → Chan} : Quiet out s (x.modChan c f) :=
  h.andSame (by rw [State.modChan]) (by rw [State.modChan]) (by rw [State.modChan]) (by rw [State.modChan]) (by rw [State.modChan])

theorem FaultOnly.chans {s x : State} (h : FaultOnly s x) : x.chans = s.chans := by rw [h]

theorem FaultOnly.withChans {s x : State} (h : FaultOnly s x) :
    x = { s with regs := x.regs, hq := x.hq, sched := x.sched, flt := x.flt, chans := x.chans } := by
  rw [h.chans]; exact h

theorem FaultOnly.andModChan {s x : State} (h : FaultOnly s x) {c : Fin 128} {f : Chan → Chan} :
    x.modChan c f = { s with regs := (x.modChan c f).regs, hq := (x.modChan c f).hq, sched := (x.modChan c f).sched, flt := (x.modChan c f).flt
                             chans := (x.modChan c f).chans } := by
  rw [State.modChan]
  generalize upd x.chans c f = chans
  rw [h]

theorem symScrub_found (ch : Fin 128) (ts : Fin 32) (code : Fin 16) (s : State) (hcls : s.classOf 9 < 2) :
    Answers (.symScrub (some (ch, ts, code))) s fun u =>
      u.rd F.SYM_PAR_LOC_CH = ch ∧ u.rd F.SYM_PAR_LOC_TS = ts ∧ u.rd F.SYM_PAR_LOC_CODE = code ∧ u.rd F.SYM_PAR_LOC_SCRUB = 1 ∧
      bitOf (u.rd Ev.sym.bits) 2 = true ∧ u.latched 9 = true ∧
      u = { s with regs := u.regs, hq := u.hq, sched := u.sched, flt := u.flt } ∧
      Quiet ((F.SYM_PAR_LOC_CH).addr :: evOut Ev.sym ++ faultOut 9) s u := by
  refine ⟨_, rfl, ?_⟩
  rw [State.parityError]
  generalize hv : s.wrs [(F.SYM_PAR_LOC_CH, (ch : Nat)), (F.SYM_PAR_LOC_TS, ts), (F.SYM_PAR_LOC_CODE, code), (F.SYM_PAR_LOC_SCRUB, b2n true)] = v
  have honly : RegsOnly s v := by rw [← hv]; exact RegsOnly.wrs ..
  have hloc : v.rd F.SYM_PAR_LOC_CH = ch ∧ v.rd F.SYM_PAR_LOC_TS = ts ∧ v.rd F.SYM_PAR_LOC_CODE = code ∧ v.rd F.SYM_PAR_LOC_SCRUB = 1 := by
    rw [← hv]
    simp only [State.wrs, List.foldl_cons, List.foldl_nil]
    simp (disch := decide) only [State.rd_wr_apart, State.rd_wr_same]
    exact ⟨Nat.mod_eq_of_lt ch.isLt, Nat.mod_eq_of_lt ts.isLt, Nat.mod_eq_of_lt code.isLt, rfl⟩
  have hregs : RegsSame [(F.SYM_PAR_LOC_CH).addr] s v := by
    rw [← hv]; exact RegsSame.wrs _ _ (by simp [F.SYM_PAR_LOC_CH, F.SYM_PAR_LOC_TS, F.SYM_PAR_LOC_CODE, F.SYM_PAR_LOC_SCRUB])
  generalize hu : (v.event Ev.sym 2).faultOnce 9 (s.groveOfChan ch) = u
  obtain ⟨hfault, hlatched, hbit, huregs⟩ :=
    State.event_faultOnce (by decide) (by rw [hregs.classOf (by decide)]; exact hcls) (by decide) (by decide) (by decide) (by decide) hu
  have hall : FaultOnly s u := honly.fault.trans hfault
  obtain ⟨hch, hts, hcode, hscrub⟩ := hloc
  refine ⟨?_, ?_, ?_, ?_, hbit, hlatched, hall, ?_, hall.bytes⟩
  · rw [huregs.rd _ (by decide), hch]
  · rw [huregs.rd _ (by decide), hts]
  · rw [huregs.rd _ (by decide), hcode]
  · rw [huregs.rd _ (by decide), hscrub]
  · exact (hregs.mono (by simp)).trans (huregs.mono fun _ h => List.mem_cons_of_mem _ h)

theorem execTmgScrub_timing (s : State) (kind index ts : Nat) : exec (.tmgScrub (.timing kind index ts)) s = .next (
    if kind = 3 then
      (((s.wrs [(F.TMG_PAR_LOC_INDEX, index), (F.TMG_PAR_LOC_TS, ts), (F.TMG_PAR_LOC_KIND, kind), (F.TMG_PAR_LOC_SCRUB, b2n true)]).event
        Ev.tmg 2).faultOnce 10 (s.placeGrove (.timing kind index ts))).modChan (fin 128 index) fun c => { c with linOk := false }
    else ((s.wrs [(F.TMG_PAR_LOC_INDEX, index), (F.TMG_PAR_LOC_TS, ts), (F.TMG_PAR_LOC_KIND, kind), (F.TMG_PAR_LOC_SCRUB, b2n true)]).event
      Ev.tmg 2).faultOnce 10 (s.placeGrove (.timing kind index ts))) := rfl

theorem tmgScrub_found (kind index ts : Nat) (s : State) (hkind : kind < 4) (hindex : index < 128) (hts : ts < 64) (hcls : s.classOf 10 < 2) :
    Answers (.tmgScrub (.timing kind index ts)) s fun u =>
      u.rd F.TMG_PAR_LOC_INDEX = index ∧ u.rd F.TMG_PAR_LOC_TS = ts ∧ u.rd F.TMG_PAR_LOC_KIND = kind ∧ u.rd F.TMG_PAR_LOC_SCRUB = 1 ∧
      bitOf (u.rd Ev.tmg.bits) 2 = true ∧ u.latched 10 = true ∧
      (kind = 3 → u.chans[fin 128 index].linOk = false) ∧ (kind ≠ 3 → u.chans = s.chans) ∧
      u = { s with regs := u.regs, hq := u.hq, sched := u.sched, flt := u.flt, chans := u.chans } ∧
      Quiet ((F.TMG_PAR_LOC_INDEX).addr :: evOut Ev.tmg ++ faultOut 10) s u := by
  refine ⟨_, (execTmgScrub_timing s kind index ts : _), ?_⟩
  generalize s.placeGrove (.timing kind index ts) = g
  generalize hv : s.wrs [(F.TMG_PAR_LOC_INDEX, index), (F.TMG_PAR_LOC_TS, ts), (F.TMG_PAR_LOC_KIND, kind), (F.TMG_PAR_LOC_SCRUB, b2n true)] = v
  have honly : RegsOnly s v := by rw [← hv]; exact RegsOnly.wrs ..
  have hloc : v.rd F.TMG_PAR_LOC_INDEX = index ∧ v.rd F.TMG_PAR_LOC_TS = ts ∧ v.rd F.TMG_PAR_LOC_KIND = kind ∧ v.rd F.TMG_PAR_LOC_SCRUB = 1 := by
    rw [← hv]
    simp only [State.wrs, List.foldl_cons, List.foldl_nil]
    simp (disch := decide) only [State.rd_wr_apart, State.rd_wr_same]
    exact ⟨Nat.mod_eq_of_lt hindex, Nat.mod_eq_of_lt hts, Nat.mod_eq_of_lt hkind, rfl⟩
  have hregs : RegsSame [(F.TMG_PAR_LOC_INDEX).addr] s v := by
    rw [← hv]; exact RegsSame.wrs _ _ (by simp [F.TMG_PAR_LOC_INDEX, F.TMG_PAR_LOC_TS, F.TMG_PAR_LOC_KIND, F.TMG_PAR_LOC_SCRUB])
  generalize hx : (v.event Ev.tmg 2).faultOnce 10 g = x
  obtain ⟨hfault, hlatched, hbit, hxregs⟩ :=
    State.event_faultOnce (by decide) (by rw [hregs.classOf (by decide)]; exact hcls) (by decide) (by decide) (by decide) (by decide) hx
  have hall : FaultOnly s x := honly.fault.trans hfault
  have hquiet : Quiet ((F.TMG_PAR_LOC_INDEX).addr :: evOut Ev.tmg ++ faultOut 10) s x :=
    ⟨(hregs.mono (by simp)).trans (hxregs.mono fun _ h => List.mem_cons_of_mem _ h), hall.bytes⟩
  obtain ⟨hidx, hset, hknd, hscrub⟩ := hloc
  have hshown : x.rd F.TMG_PAR_LOC_INDEX = index ∧ x.rd F.TMG_PAR_LOC_TS = ts ∧ x.rd F.TMG_PAR_LOC_KIND = kind ∧ x.rd F.TMG_PAR_LOC_SCRUB = 1 := by
    rw [hxregs.rd _ (by decide), hxregs.rd _ (by decide), hxregs.rd _ (by decide), hxregs.rd _ (by decide)]
    exact ⟨hidx, hset, hknd, hscrub⟩
  obtain ⟨hi, ht, hk, hs⟩ := hshown
  by_cases h3 : kind = 3
  · rw [if_pos h3]
    have hsame (f : Fld) : (x.modChan (fin 128 index) fun c => { c with linOk := false }).rd f = x.rd f := State.rd_of_regs (State.modChan_regs ..) f
    have hout : (x.modChan (fin 128 index) fun c => { c with linOk := false }).chans[fin 128 index].linOk = false := by
      rw [State.modChan_chans, upd_same]
    refine ⟨(hsame _).trans hi, (hsame _).trans ht, (hsame _).trans hk, (hsame _).trans hs, ?_, ?_, fun _ => hout, fun h => absurd h3 h,
      hall.andModChan, hquiet.andModChan⟩
    · rw [hsame]; exact hbit
    · rw [State.latched, hsame]; exact hlatched
  · rw [if_neg h3]
    exact ⟨hi, ht, hk, hs, hbit, hlatched, fun h => absurd h h3, fun _ => hall.chans, hall.withChans, hquiet⟩

/-! ## PE control buses -/

/-- A change of one PE control bus. -/
def State.modPec (s : State) (b : Fin 16) (f : PecBus → PecBus) : State := { s with pec := upd s.pec b f }

theorem RegsOnly.andModPec {s v : State} (h : RegsOnly s v) {b : Fin 16} {f : PecBus → PecBus} :
    v.modPec b f = { s with regs := (v.modPec b f).regs, pec := (v.modPec b f).pec } := by
  rw [State.modPec]
  generalize upd v.pec b f = pec
  rw [h]

/-- A write of GO to an idle bus notes the command's fields and starts the transaction. -/
theorem State.pecCmd_go {s : State} {b : Fin 16} {w : Nat} (hidle : s.on (F.PEC_CMD_GO b) = false) (hgo : bitOf w 16 = true)
    (h0 : 0 < fieldOf w 0 7) (h64 : fieldOf w 0 7 ≤ 64) :
    s.pecCmd b w = ((s.wrs [(F.PEC_CMD_NBITS b, fieldOf w 0 7), (F.PEC_CMD_CS b, fieldOf w 8 2)]).modPec b
      fun _ => ⟨true, fieldOf w 0 7, (s.wrs [(F.PEC_CMD_NBITS b, fieldOf w 0 7), (F.PEC_CMD_CS b, fieldOf w 8 2)]).rdP (F.PEC_TX_LO_DATA b)⟩).wr
      (F.PEC_CMD_GO b) 1 := by
  rw [State.pecCmd, if_neg (by rw [hidle]; decide)]
  dsimp only
  rw [if_neg (by rw [hgo]; decide), if_neg (by omega)]
  rfl

/-- The end of a transaction shows the bits received, clears GO and counts the transfer. -/
theorem pecTransactionDone_eq {b : Fin 16} {rx : Nat} {s : State} (hrun : s.pec[b].running = true) :
    exec (.pecTransactionDone b rx) s = .next
      (((((s.wrP (F.PEC_RX_LO_DATA b) (rx % 2 ^ s.pec[b].nbits)).modPec b fun p => { p with running := false }).incWrap (F.PEC_STATUS_XFERS b)).wr
        (F.PEC_CMD_GO b) 0).wr (F.PEC_STATUS_DONE b) 1) := if_pos hrun

theorem pecGo_starts {req : Req} {b : Fin 16} {w : Word} {s : State} (hw : s.mayWrite req (F.PEC_CMD_GO b).addr w = true)
    (hidle : s.on (F.PEC_CMD_GO b) = false) (hgo : w.getLsbD 16 = true) (h0 : 0 < fieldOf w.toNat 0 7) (h64 : fieldOf w.toNat 0 7 ≤ 64) :
    Answers (.pecGo req b w) s fun u =>
      u.pec[b] = ⟨true, fieldOf w.toNat 0 7, s.rdP (F.PEC_TX_LO_DATA b)⟩ ∧ u.rd (F.PEC_CMD_GO b) = 1 ∧
      u.rd (F.PEC_CMD_NBITS b) = fieldOf w.toNat 0 7 ∧ u.rd (F.PEC_CMD_CS b) = fieldOf w.toNat 8 2 ∧
      (∀ k, k ≠ b → u.pec[k] = s.pec[k]) ∧ u = { s with regs := u.regs, pec := u.pec } ∧
      Quiet [(F.PEC_CMD_GO b).addr, wseqOut] s u := by
  refine answers_regWrite (apply := fun s => s.pecCmd b w.toNat) rfl hw fun u honly hregs => ?_
  have hb := b.isLt
  have hbit : bitOf w.toNat 16 = true := hgo
  rw [State.pecCmd_go hidle hbit h0 h64] at honly hregs
  generalize hv : s.wrs [(F.PEC_CMD_NBITS b, fieldOf w.toNat 0 7), (F.PEC_CMD_CS b, fieldOf w.toNat 8 2)] = v at *
  have hvonly : RegsOnly s v := by rw [← hv]; exact RegsOnly.wrs ..
  have hvregs : RegsSame [(F.PEC_CMD_GO b).addr, wseqOut] s v := by
    rw [← hv]; exact RegsSame.wrs _ _ (by simp [F.PEC_CMD_GO, F.PEC_CMD_NBITS, F.PEC_CMD_CS])
  have htx : v.rdP (F.PEC_TX_LO_DATA b) = s.rdP (F.PEC_TX_LO_DATA b) := by
    apply hvregs.rdP <;> simp only [F.PEC_TX_LO_DATA, F.PEC_CMD_GO, wseqOut, F.HQ_WSEQ_COUNT, List.mem_cons, List.not_mem_nil, or_false] <;> omega
  have hcmd : v.rd (F.PEC_CMD_NBITS b) = fieldOf w.toNat 0 7 ∧ v.rd (F.PEC_CMD_CS b) = fieldOf w.toNat 8 2 := by
    rw [← hv]
    simp only [State.wrs, List.foldl_cons, List.foldl_nil]
    rw [State.rd_wr_apart _ _ _ _ (by simp [F.PEC_CMD_CS]) (by simp [Fld.apart, F.PEC_CMD_CS, F.PEC_CMD_NBITS])]
    exact ⟨State.rd_wr_fit _ _ _ (by simp [F.PEC_CMD_NBITS]) (fieldOf_lt _ 0 7), State.rd_wr_fit _ _ _ (by simp [F.PEC_CMD_CS]) (fieldOf_lt _ 8 2)⟩
  generalize hx : v.modPec b (fun _ => ⟨true, fieldOf w.toNat 0 7, v.rdP (F.PEC_TX_LO_DATA b)⟩) = x at *
  have hxpec : x.pec = upd s.pec b fun _ => ⟨true, fieldOf w.toNat 0 7, s.rdP (F.PEC_TX_LO_DATA b)⟩ := by
    rw [← hx, htx, State.modPec, hvonly]
  have hxregs : x.regs = v.regs := by rw [← hx]; rfl
  have hxonly : x = { s with regs := x.regs, pec := x.pec } := by rw [← hx]; exact hvonly.andModPec
  have hall : u = { s with regs := u.regs, pec := u.pec } := by rw [honly, hxonly]; rfl
  have hupec : u.pec = x.pec := by rw [honly, State.wr_pec]
  have hrd (f : Fld) (hf : f.addr = (F.PEC_CMD_GO b).addr) : u.rd f = (x.wr (F.PEC_CMD_GO b) 1).rd f := by
    refine hregs.rd f ?_
    rw [hf]; simp only [F.PEC_CMD_GO, wseqOut, F.HQ_WSEQ_COUNT, List.mem_singleton]; omega
  refine ⟨by rw [hupec, hxpec, upd_same], ?_, ?_, ?_, fun k hk => by rw [hupec, hxpec, upd_other _ _ _ _ hk], hall, ?_, ?_⟩
  · rw [hrd _ rfl]; exact State.rd_wr_fit _ _ _ (by simp [F.PEC_CMD_GO]) (by simp [F.PEC_CMD_GO])
  · rw [hrd (F.PEC_CMD_NBITS b) rfl, State.rd_wr_apart _ _ _ _ (by simp [F.PEC_CMD_GO]) (by simp [Fld.apart, F.PEC_CMD_GO, F.PEC_CMD_NBITS]), State.rd_of_regs hxregs]
    exact hcmd.1
  · rw [hrd (F.PEC_CMD_CS b) rfl, State.rd_wr_apart _ _ _ _ (by simp [F.PEC_CMD_GO]) (by simp [Fld.apart, F.PEC_CMD_GO, F.PEC_CMD_CS]), State.rd_of_regs hxregs]
    exact hcmd.2
  · exact ((hvregs.andRegs hxregs).andWr (by simp)).trans (hregs.mono (by simp))
  · rw [hall]; exact .of_eq rfl rfl rfl rfl

theorem pecGo_overrun {req : Req} {b : Fin 16} {w : Word} {s : State} (hw : s.mayWrite req (F.PEC_CMD_GO b).addr w = true)
    (hbusy : s.on (F.PEC_CMD_GO b) = true) : Answers (.pecGo req b w) s fun u =>
      u.rd (F.PEC_STATUS_OVERRUN b) = 1 ∧ RegsOnly s u ∧ Quiet [(F.PEC_STATUS_OVERRUN b).addr, wseqOut] s u := by
  refine answers_regWrite (apply := fun s => s.pecCmd b w.toNat) rfl hw fun u honly hregs => ?_
  have hb := b.isLt
  rw [State.pecCmd, if_pos hbusy] at honly hregs
  have hall : RegsOnly s u := (RegsOnly.wr ..).trans honly
  refine ⟨?_, hall, ?_, ?_⟩
  · rw [hregs.rd _ (by simp only [F.PEC_STATUS_OVERRUN, wseqOut, F.HQ_WSEQ_COUNT, List.mem_singleton]; omega)]
    exact State.rd_wr_fit _ _ _ (by simp [F.PEC_STATUS_OVERRUN]) (by simp [F.PEC_STATUS_OVERRUN])
  · exact ((RegsSame.refl _ s).andWr (by simp)).trans (hregs.mono (by simp))
  · rw [hall]; exact .of_eq rfl rfl rfl rfl

theorem pecTransaction_ends {b : Fin 16} {rx : Nat} {s : State} (hrun : s.pec[b].running = true) :
    Answers (.pecTransactionDone b rx) s fun u =>
      u.rdP (F.PEC_RX_LO_DATA b) = rx % 2 ^ s.pec[b].nbits % 2 ^ 64 ∧ u.rd (F.PEC_CMD_GO b) = 0 ∧ u.rd (F.PEC_STATUS_DONE b) = 1 ∧
      u.rd (F.PEC_STATUS_XFERS b) = (s.rd (F.PEC_STATUS_XFERS b) + 1) % 2 ^ 16 ∧ u.pec[b].running = false ∧
      (∀ k, k ≠ b → u.pec[k] = s.pec[k]) ∧ u = { s with regs := u.regs, pec := u.pec } ∧
      Quiet [(F.PEC_CMD_GO b).addr, (F.PEC_STATUS_DONE b).addr, (F.PEC_RX_LO_DATA b).addr, (F.PEC_RX_LO_DATA b).addr + 4] s u := by
  have hb := b.isLt
  refine ⟨_, pecTransactionDone_eq hrun, ?_⟩
  generalize rx % 2 ^ s.pec[b].nbits = got
  have honly : RegsOnly s (s.wrP (F.PEC_RX_LO_DATA b) got) := (RegsOnly.wr ..).trans (RegsOnly.wr ..)
  generalize hx : s.wrP (F.PEC_RX_LO_DATA b) got = x at *
  generalize hv : x.modPec b (fun p => { p with running := false }) = v
  have hvregs : v.regs = x.regs := by rw [← hv]; rfl
  have hvpec : v.pec = upd s.pec b fun p => { p with running := false } := by rw [← hv, State.modPec, honly]
  have hvall : v = { s with regs := v.regs, pec := v.pec } := by rw [← hv]; exact honly.andModPec
  rw [State.incWrap]
  have hwr : RegsSame [(F.PEC_CMD_GO b).addr, (F.PEC_STATUS_DONE b).addr] v
      (((v.wr (F.PEC_STATUS_XFERS b) (v.rd (F.PEC_STATUS_XFERS b) + 1)).wr (F.PEC_CMD_GO b) 0).wr (F.PEC_STATUS_DONE b) 1) :=
    (((RegsSame.refl _ v).andWr (by simp [F.PEC_STATUS_XFERS, F.PEC_STATUS_DONE])).andWr (by simp)).andWr (by simp)
  have hxfers : v.rd (F.PEC_STATUS_XFERS b) = s.rd (F.PEC_STATUS_XFERS b) := by
    rw [State.rd_of_regs hvregs, ← hx, State.wrP, State.rd_wr_apart _ _ _ _ (by simp [Fld.hi, F.PEC_RX_LO_DATA])
      (by simp [Fld.apart, Fld.hi, F.PEC_RX_LO_DATA, F.PEC_STATUS_XFERS]; omega), State.rd_wr_apart _ _ _ _ (by simp [F.PEC_RX_LO_DATA])
      (by simp [Fld.apart, F.PEC_RX_LO_DATA, F.PEC_STATUS_XFERS])]
  generalize ht : ((v.wr (F.PEC_STATUS_XFERS b) (v.rd (F.PEC_STATUS_XFERS b) + 1)).wr (F.PEC_CMD_GO b) 0).wr (F.PEC_STATUS_DONE b) 1 = t at *
  have htonly : RegsOnly v t := by rw [← ht]; exact ((RegsOnly.wr ..).trans (RegsOnly.wr ..)).trans (RegsOnly.wr ..)
  refine ⟨?_, ?_, ?_, ?_, ?_, ?_, ?_, ?_, ?_⟩
  · rw [hwr.rdP, State.rdP, State.rd_of_regs hvregs, State.rd_of_regs hvregs, ← hx]
    · exact State.rdP_wrP_mod _ _ rfl rfl
    · simp only [F.PEC_RX_LO_DATA, F.PEC_CMD_GO, F.PEC_STATUS_DONE, List.mem_cons, List.not_mem_nil, or_false]; omega
    · simp only [F.PEC_RX_LO_DATA, F.PEC_CMD_GO, F.PEC_STATUS_DONE, List.mem_cons, List.not_mem_nil, or_false]; omega
  · rw [← ht, State.rd_wr_apart _ _ _ _ (by simp [F.PEC_STATUS_DONE]) (by simp [Fld.apart, F.PEC_STATUS_DONE, F.PEC_CMD_GO])]
    exact State.rd_wr_fit _ _ _ (by simp [F.PEC_CMD_GO]) (by simp [F.PEC_CMD_GO])
  · rw [← ht]; exact State.rd_wr_fit _ _ _ (by simp [F.PEC_STATUS_DONE]) (by simp [F.PEC_STATUS_DONE])
  · rw [← ht, State.rd_wr_apart _ _ _ _ (by simp [F.PEC_STATUS_DONE]) (by simp [Fld.apart, F.PEC_STATUS_DONE, F.PEC_STATUS_XFERS]),
      State.rd_wr_apart _ _ _ _ (by simp [F.PEC_CMD_GO]) (by simp [Fld.apart, F.PEC_CMD_GO, F.PEC_STATUS_XFERS]), hxfers]
    exact State.rd_wr_same _ _ _ (by simp [F.PEC_STATUS_XFERS])
  · rw [htonly, hvpec, upd_same]
  · intro k hk
    rw [htonly, hvpec, upd_other _ _ _ _ hk]
  · rw [htonly, hvall]
  · refine RegsSame.trans ?_ (hwr.mono (by simp))
    refine RegsSame.andRegs ?_ hvregs
    rw [← hx]
    exact (RegsSame.refl _ s).andWrP (by simp) (by simp)
  · rw [htonly, hvall]; exact .of_eq rfl rfl rfl rfl

end Sys2Proof.Machine

open Sys2Proof Sys2Proof.Machine

/-- Settles O21: by the kind of the scrubber's find, and by the state of the bus. -/
theorem scrubbersAndControlBuses : Obligations.ScrubbersAndControlBuses := by
  unfold Obligations.ScrubbersAndControlBuses
  exact ⟨symScrub_found, fun _ => ⟨rfl, rfl⟩, tmgScrub_found, fun _ _ _ _ hw hidle hgo h0 h64 => pecGo_starts hw hidle hgo h0 h64,
    fun _ _ _ _ hw hbusy => pecGo_overrun hw hbusy, fun _ _ _ hrun => pecTransaction_ends hrun⟩
end

section
/-! Epochs and TRIG_IN (R113, R114), which settle O22. -/

set_option Elab.async false

namespace Sys2Proof.Machine

theorem foldl_still {α β : Type} {f : β → α → β} {b : β} {l : List α} (h : ∀ a ∈ l, f b a = b) : l.foldl f b = b := by
  induction l with
  | nil => rfl
  | cons a l ih => rw [List.foldl_cons, h a (List.mem_cons_self ..), ih fun k hk => h k (List.mem_cons_of_mem _ hk)]

/-- A fold in which only `n` acts on the start, and nothing on what `n` makes of it. -/
theorem foldl_once {α β : Type} {f : β → α → β} {s t : β} {n : α} {l : List α} (hn : n ∈ l) (hact : f s n = t)
    (hother : ∀ k, k ≠ n → f s k = s) (hafter : ∀ k, f t k = t) : l.foldl f s = t := by
  obtain ⟨before, after, rfl, hnot⟩ := List.eq_append_cons_of_mem hn
  rw [List.foldl_append, foldl_still fun k hk => hother k fun he => hnot (he ▸ hk), List.foldl_cons, hact, foldl_still fun k _ => hafter k]

theorem foldl_eventOnly {α : Type} (f : State → α → State) (l : List α) (s : State) (h : ∀ s a, EventOnly s (f s a)) :
    EventOnly s (l.foldl f s) := by
  induction l generalizing s with
  | nil => rfl
  | cons a r ih => exact (h s a).trans (ih _)

/-! ## Epochs (R113) -/

/-- The slot that the counter restarts at is noted. -/
def State.restartSlots (s : State) : State := { s with sync := { s.sync with epochSlot := s.slotNext } }

/-- Where no burst is Armed an epoch notes its slot, counts and raises its bits. -/
theorem State.epoch_eq {s : State} (h : ∀ b ∈ s.bursts, b.stage ≠ .armed) (bits : Nat) :
    s.epoch bits = (s.restartSlots.incWrap F.SEQ_EPOCH_CNT_COUNT).raise Ev.seqG (1 + bits) := by
  have hbursts : ((s.restartSlots.incWrap F.SEQ_EPOCH_CNT_COUNT).raise Ev.seqG (1 + bits)).bursts = s.bursts := by
    rw [State.raise_event]; rfl
  refine foldl_still fun b hb => if_neg fun hc => h b ?_ hc.1
  rw [← hbursts]; exact hb

/-- What an epoch does where no burst is Armed: `bits` are the ones it raises beside EPOCH. -/
theorem State.epoch_keeps {s u : State} (h : ∀ b ∈ s.bursts, b.stage ≠ .armed) {bits : Nat} (hu : s.epoch bits = u) :
    u.rd F.SEQ_EPOCH_CNT_COUNT = (s.rd F.SEQ_EPOCH_CNT_COUNT + 1) % 2 ^ 32 ∧ u.rd Ev.seqG.bits = (s.rd Ev.seqG.bits ||| (1 + bits)) % 2 ^ 32 ∧
    EventOnly s.restartSlots u ∧ Quiet ((F.SEQ_EPOCH_CNT_COUNT).addr :: evOut Ev.seqG) s u := by
  rw [State.epoch_eq h] at hu
  have hcount : (s.restartSlots.incWrap F.SEQ_EPOCH_CNT_COUNT).rd F.SEQ_EPOCH_CNT_COUNT = (s.rd F.SEQ_EPOCH_CNT_COUNT + 1) % 2 ^ 32 :=
    State.rd_wr_same _ _ _ (by decide)
  have hbits : (s.restartSlots.incWrap F.SEQ_EPOCH_CNT_COUNT).rd Ev.seqG.bits = s.rd Ev.seqG.bits :=
    State.rd_wr_apart _ _ _ _ (by decide) (by decide)
  have honly : EventOnly s.restartSlots (s.restartSlots.incWrap F.SEQ_EPOCH_CNT_COUNT) := (RegsOnly.wr ..).event
  have hregs : RegsSame ((F.SEQ_EPOCH_CNT_COUNT).addr :: evOut Ev.seqG) s (s.restartSlots.incWrap F.SEQ_EPOCH_CNT_COUNT) :=
    RegsSame.andWr (RegsSame.andRegs (RegsSame.refl _ s) rfl) (List.mem_cons_self ..)
  generalize s.restartSlots.incWrap F.SEQ_EPOCH_CNT_COUNT = v at *
  have hevent := v.raise_event Ev.seqG (1 + bits)
  have hvregs := v.raise_regs Ev.seqG (1 + bits)
  have hset := v.raise_bits Ev.seqG (1 + bits) (by decide)
  rw [hu] at hevent hvregs hset
  have hall := honly.trans hevent
  refine ⟨by rw [hvregs.rd _ (by decide), hcount], by rw [hset, hbits], hall, ?_, ?_⟩
  · exact hregs.trans (hvregs.mono fun _ h => List.mem_cons_of_mem _ h)
  · rw [hall]; exact .of_eq rfl rfl rfl rfl

theorem bitOf_or_mod {a b i : Nat} (hb : bitOf b i = true) (hi : i < 32) : bitOf ((a ||| b) % 2 ^ 32) i = true := by
  simp only [bitOf] at hb ⊢
  rw [Nat.testBit_mod_two_pow, Nat.testBit_or, hb]
  simp [hi]

theorem syncEpoch_received {s : State} (hrole : s.syncRole = 1) (h : ∀ b ∈ s.bursts, b.stage ≠ .armed) : Answers .syncEpochReceive s fun u =>
      u.sync.epochSlot = s.slotNext ∧ u.rd F.SEQ_EPOCH_CNT_COUNT = (s.rd F.SEQ_EPOCH_CNT_COUNT + 1) % 2 ^ 32 ∧
      bitOf (u.rd Ev.seqG.bits) 0 = true ∧
      (s.rd F.SEQ_SYNC_CFG_PERIOD ≠ 0 → s.slotNext - s.sync.epochSlot ≠ s.rd F.SEQ_SYNC_CFG_PERIOD →
        bitOf (u.rd Ev.seqG.bits) 1 = true) ∧
      u = { s with regs := u.regs, hq := u.hq, sched := u.sched, sync := { s.sync with epochSlot := u.sync.epochSlot } } ∧
      Quiet ((F.SEQ_EPOCH_CNT_COUNT).addr :: evOut Ev.seqG) s u := by
  refine ⟨_, if_pos hrole, ?_⟩
  generalize hslip : (s.rd F.SEQ_SYNC_CFG_PERIOD != 0 && s.slotNext - s.sync.epochSlot != s.rd F.SEQ_SYNC_CFG_PERIOD) = slip
  generalize hu : s.epoch (2 * b2n slip) = u
  obtain ⟨hcount, hbits, honly, hquiet⟩ := State.epoch_keeps h hu
  have hsync : u.sync = { s.sync with epochSlot := s.slotNext } := by rw [honly]; rfl
  refine ⟨by rw [hsync], hcount, ?_, fun h0 hne => ?_, ?_, hquiet⟩
  · rw [hbits]; exact bitOf_or_mod (by cases slip <;> decide) (by decide)
  · have : slip = true := by rw [← hslip]; simp [h0, hne]
    rw [hbits, this]; exact bitOf_or_mod (by decide) (by decide)
  · rw [hsync]; exact honly

theorem syncEpoch_driven {s : State} (hrole : s.syncRole = 2) (h0 : 0 < s.rd F.SEQ_SYNC_CFG_PERIOD)
    (hdue : s.sync.epochSlot + s.rd F.SEQ_SYNC_CFG_PERIOD ≤ s.slotNext) (h : ∀ b ∈ s.bursts, b.stage ≠ .armed) :
    Answers .syncEpochDrive s fun u =>
      u.sync.epochSlot = s.slotNext ∧ u.sync.syncOut = some s.slotNext ∧
      u.rd F.SEQ_EPOCH_CNT_COUNT = (s.rd F.SEQ_EPOCH_CNT_COUNT + 1) % 2 ^ 32 ∧ bitOf (u.rd Ev.seqG.bits) 0 = true ∧
      u = { s with regs := u.regs, hq := u.hq, sched := u.sched
                   sync := { s.sync with epochSlot := u.sync.epochSlot, syncOut := u.sync.syncOut } } ∧
      Quiet ((F.SEQ_EPOCH_CNT_COUNT).addr :: evOut Ev.seqG) s u := by
  refine ⟨_, if_pos ⟨hrole, by omega, hdue⟩, ?_⟩
  generalize hv : ({ s with sync := { s.sync with syncOut := some s.slotNext } } : State) = v
  have hvsync : v.sync = { s.sync with syncOut := some s.slotNext } := by rw [← hv]
  have hvbursts : v.bursts = s.bursts := by rw [← hv]
  have hvslot : v.slotNext = s.slotNext := by rw [← hv]; rfl
  have hvregs : v.regs = s.regs := by rw [← hv]
  have hvquiet : Quiet ((F.SEQ_EPOCH_CNT_COUNT).addr :: evOut Ev.seqG) s v := by
    rw [← hv]; exact (Quiet.refl _ s).andSame rfl rfl rfl rfl rfl
  have hvonly : v = { s with sync := v.sync } := by rw [← hv]
  generalize hu : v.epoch = u
  obtain ⟨hcount, hbits, honly, hquiet⟩ := State.epoch_keeps (by rw [hvbursts]; exact h) hu
  have hsync : u.sync = { s.sync with epochSlot := s.slotNext, syncOut := some s.slotNext } := by
    rw [honly]; show { v.sync with epochSlot := v.slotNext } = _; rw [hvsync, hvslot]
  refine ⟨by rw [hsync], by rw [hsync], by rw [hcount, State.rd_of_regs hvregs], ?_, ?_, hvquiet.trans hquiet⟩
  · rw [hbits]; exact bitOf_or_mod (by decide) (by decide)
  · rw [hsync]
    rw [State.restartSlots, hvslot, hvsync] at honly
    rw [honly, hvonly]

/-! ## TRIG_IN (R114) -/

theorem trigInEdge_noted {n : Fin 4} {rising : Bool} {sub : Fin 4} {s : State} (h : ∀ e : Fin 4, s.qsrc e ≠ 1 ∨ s.rd (F.TRG_QUAL_QSEL e) ≠ n) :
    Answers (.trigInEdge n rising sub) s fun u =>
      u.sync.trigIn[n] = rising ∧ (∀ k, k ≠ n → u.sync.trigIn[k] = s.sync.trigIn[k]) ∧
      (∀ k, k ≠ n → u.sync.trigHist[k] = s.sync.trigHist[k]) ∧
      u = { s with sync := { s.sync with trigIn := u.sync.trigIn, trigHist := u.sync.trigHist } } := by
  obtain ⟨hist, hexec⟩ : ∃ hist : List (Int × Bool), exec (.trigInEdge n rising sub) s =
      .next { s with sync := { s.sync with trigIn := s.sync.trigIn.set n rising, trigHist := s.sync.trigHist.set n hist } } := by
    refine ⟨if rising = s.sync.trigIn[n] then s.sync.trigHist[n] else
      (((s.fuNow + 4096 * sub.1 : Nat) : Int), rising) :: keepSpan (s.fuNow + 4096 * sub.1 : Nat) (2 ^ 29) s.sync.trigHist[n], ?_⟩
    show execTrigInEdge n rising sub s = _
    rw [execTrigInEdge]
    dsimp only
    split
    · congr 1
      refine foldl_still fun e _ => if_neg fun hc => ?_
      exact (h e).elim (absurd hc.1) (absurd hc.2)
    · rfl
  refine ⟨_, hexec, ?_, fun k hk => ?_, fun k hk => ?_, rfl⟩
  · simp
  · simp only [Fin.getElem_fin]; exact Vector.getElem_set_ne _ _ (fun he => hk (Fin.ext he.symm))
  · simp only [Fin.getElem_fin]; exact Vector.getElem_set_ne _ _ (fun he => hk (Fin.ext he.symm))

/-- The clock's count, one tick on. -/
def State.ticked (s : State) : State := { s with tim := { s.tim with raw := (s.tim.raw + 1) % 2 ^ 64 } }

theorem State.blankEnds_none {s : State} (h : ∀ d : Fin 16, s.dscs[d].pgn.blanked = false) : s.blankEnds = s := by
  rw [State.blankEnds, List.filter_eq_nil_iff.mpr fun d _ => by rw [h d]; exact Bool.false_ne_true]
  rfl

theorem State.evacCheck_none {s : State} (h : s.forest.evacs = []) : s.evacCheck = s := by
  rw [State.evacCheck, h]
  simp only [List.foldl_nil]
  rw [h]
  rfl

/-- A step on an empty queue with VIN present, where no pulse is blanked: at a REFCLK edge TRIG_IN is sampled. -/
theorem step_idle {s : State} (hpending : s.pending = []) (hpower : s.power.present = true) (hblank : ∀ d : Fin 16, s.dscs[d].pgn.blanked = false) :
    step s = .next (if (s.tim.raw + 1) % 2 ^ 64 % 8 = 0 then s.ticked.sampleTrig.evacCheck else s.ticked) := by
  have hstep : step s = .next s.clockTick := by rw [step, hpending]; rfl
  have hclock : s.clockTick = if s.power.present = false then s else
      if s.ticked.blankEnds.tim.raw % 8 = 0 then s.ticked.blankEnds.sampleTrig.evacCheck else s.ticked.blankEnds := rfl
  have hraw : s.ticked.tim.raw = (s.tim.raw + 1) % 2 ^ 64 := rfl
  rw [hstep, hclock, if_neg (by rw [hpower]; decide), State.blankEnds_none (s := s.ticked) hblank, hraw]

/-- The inputs' values taken at a REFCLK edge. -/
def State.sampledNow (s : State) : State := { s with sync := { s.sync with sampled := s.sync.trigIn } }

/-- What a rising input `n` does to the bursts that wait for it. -/
def State.trigStarts (s : State) (n : Fin 4) : State :=
  s.bursts.foldl (fun s b =>
    if b.stage = .armed ∧ b.ops.mode = 2 ∧ b.ops.trig = n.1 ∧ b.startSlot = none ∧ b.met = false then s.startEvent b (s.slotNow + 4) else s) s

theorem State.sampleTrig_eq (s : State) : s.sampleTrig =
    (allFin 4).foldl (fun v n => if v.sync.trigIn[n] && !s.sync.sampled[n] then v.trigStarts n else v) s.sampledNow := rfl

/-- Where no input is sampled high after low, sampling only notes the inputs' values. -/
theorem State.sampleTrig_none {s : State} (h : ∀ n : Fin 4, s.sync.trigIn[n] = true → s.sync.sampled[n] = true) : s.sampleTrig = s.sampledNow := by
  rw [State.sampleTrig_eq]
  refine foldl_still fun n _ => if_neg ?_
  show ¬ (s.sync.trigIn[n] && !s.sync.sampled[n]) = true
  cases hin : s.sync.trigIn[n] with
  | false => exact Bool.false_ne_true
  | true => simp [h n hin]

/-- The slot at which a burst without a led grove starts is fixed, and its groves' occurrences are reported. -/
theorem State.startEvent_keeps {s u : State} {b : Burst} {slot : Nat} (hlead : s.leads b = false) (hb : s.bursts = [b])
    (hu : s.startEvent b slot = u) :
    u.bursts = [{ b with startSlot := some slot, startTime := some (s.timeAt (8 * slot)) }] ∧ RegsSame occOut s u ∧
    u = { s with regs := u.regs, hq := u.hq, sched := u.sched, bursts := u.bursts } := by
  obtain ⟨t, ht⟩ : ∃ t, t = s.timeAt (8 * slot) := ⟨_, rfl⟩
  obtain ⟨l, hl⟩ : ∃ l : List Nat, s.startEvent b slot = l.foldl (fun s g => s.occurrence 1 g t)
      (s.modBurst b.hdr.tag b.hdr.epoch fun b => { b with startSlot := some slot, startTime := some t }) := by
    rw [State.startEvent, State.chooseSlot, hlead, ht]
    exact ⟨_, rfl⟩
  rw [hl] at hu
  have hbursts : (s.modBurst b.hdr.tag b.hdr.epoch fun b => { b with startSlot := some slot, startTime := some t }).bursts =
      [{ b with startSlot := some slot, startTime := some t }] := by
    rw [State.modBurst, hb]; simp
  have honly : (s.modBurst b.hdr.tag b.hdr.epoch fun b => { b with startSlot := some slot, startTime := some t }) =
      { s with bursts := (s.modBurst b.hdr.tag b.hdr.epoch fun b => { b with startSlot := some slot, startTime := some t }).bursts } := rfl
  have hvregs : (s.modBurst b.hdr.tag b.hdr.epoch fun b => { b with startSlot := some slot, startTime := some t }).regs = s.regs := rfl
  generalize (s.modBurst b.hdr.tag b.hdr.epoch fun b => { b with startSlot := some slot, startTime := some t }) = v at *
  have hevent : EventOnly v u := by rw [← hu]; exact foldl_eventOnly _ _ _ fun _ _ => State.occurrence_event ..
  have hregs : RegsSame occOut v u := by rw [← hu]; exact foldl_regsSame _ _ _ fun s g _ => State.occurrence_regs s 1 g t
  have hubursts : u.bursts = v.bursts := by rw [hevent]
  refine ⟨by rw [hubursts, hbursts, ht], ((RegsSame.refl _ s).andRegs hvregs).trans hregs, ?_⟩
  rw [hubursts, hevent, honly]

theorem trigIn_starts {n : Fin 4} {b : Burst} {s : State} (hpending : s.pending = []) (hpower : s.power.present = true)
    (hedge : (s.tim.raw + 1) % 2 ^ 64 % 8 = 0) (hblank : ∀ d : Fin 16, s.dscs[d].pgn.blanked = false) (hevacs : s.forest.evacs = [])
    (hb : s.bursts = [b]) (hstage : b.stage = .armed) (hmode : b.ops.mode = 2) (htrig : b.ops.trig = n) (hslot : b.startSlot = none)
    (hmet : b.met = false) (hlead : s.leads b = false) (hlow : s.sync.sampled[n] = false) (hhigh : s.sync.trigIn[n] = true) :
    ∃ u, step s = .next u ∧
      u.bursts = [{ b with startSlot := some ((s.tim.raw + 1) % 2 ^ 64 / 8 + 4)
                           startTime := some (s.timeAt (8 * ((s.tim.raw + 1) % 2 ^ 64 / 8 + 4))) }] ∧
      u = { s with regs := u.regs, hq := u.hq, sched := u.sched, bursts := u.bursts, sync := { s.sync with sampled := s.sync.trigIn }
                   tim := { s.tim with raw := (s.tim.raw + 1) % 2 ^ 64 } } ∧ Quiet occOut s u := by
  rw [step_idle hpending hpower hblank, if_pos hedge]
  generalize hv : s.ticked.sampledNow = v
  have hvbursts : v.bursts = [b] := by rw [← hv, ← hb]; rfl
  have hvonly : v = { s with sync := { s.sync with sampled := s.sync.trigIn }, tim := { s.tim with raw := (s.tim.raw + 1) % 2 ^ 64 } } := by
    rw [← hv]; rfl
  have hvlead : v.leads b = false := by rw [← hv]; exact hlead
  have hvslot : v.slotNow = (s.tim.raw + 1) % 2 ^ 64 / 8 := by rw [← hv]; rfl
  have hvtime (k : Nat) : v.timeAt k = s.timeAt k := by rw [← hv]; rfl
  generalize hx : v.startEvent b (v.slotNow + 4) = x
  obtain ⟨hxbursts, hxregs, hxonly⟩ := State.startEvent_keeps hvlead hvbursts hx
  have hxsync : x.sync = v.sync := by rw [hxonly]
  have hstart : v.trigStarts n = x := by
    rw [State.trigStarts, hvbursts, List.foldl_cons, List.foldl_nil, if_pos ⟨hstage, hmode, htrig, hslot, hmet⟩, hx]
  have hother (k : Fin 4) (hk : k ≠ n) : v.trigStarts k = v := by
    rw [State.trigStarts, hvbursts, List.foldl_cons, List.foldl_nil, if_neg]
    rintro ⟨_, _, htk, _⟩
    exact hk (Fin.ext (htk.symm.trans htrig))
  have hafter (k : Fin 4) : x.trigStarts k = x := by
    rw [State.trigStarts, hxbursts, List.foldl_cons, List.foldl_nil, if_neg]
    rintro ⟨_, _, _, hnone, _⟩
    exact absurd hnone (by simp)
  have hvin : v.sync.trigIn[n] = true := by rw [← hv]; exact hhigh
  have hsample : s.ticked.sampleTrig = x := by
    rw [State.sampleTrig_eq, hv]
    refine foldl_once (List.mem_finRange n) ?_ (fun k hk => ?_) fun k => ?_
    · rw [hvin]
      show (if (true && !s.sync.sampled[n]) = true then v.trigStarts n else v) = x
      rw [hlow]; exact hstart
    · rw [hother k hk, ite_self]
    · rw [hafter k, ite_self]
  have hxevacs : x.forest.evacs = [] := by rw [hxonly, hvonly]; exact hevacs
  rw [hsample, State.evacCheck_none hxevacs]
  refine ⟨x, rfl, by rw [hxbursts, hvslot, hvtime], ?_, ?_, ?_⟩
  · rw [hxonly, hvonly]
  · exact ((RegsSame.refl _ s).andRegs (by rw [hvonly])).trans hxregs
  · rw [hxonly, hvonly]; exact .of_eq rfl rfl rfl rfl

theorem step_keeps_bursts {s : State} (hpending : s.pending = []) (hpower : s.power.present = true)
    (hblank : ∀ d : Fin 16, s.dscs[d].pgn.blanked = false) (hevacs : s.forest.evacs = [])
    (hstill : ∀ n : Fin 4, s.sync.trigIn[n] = true → s.sync.sampled[n] = true) : ∃ u, step s = .next u ∧ u.bursts = s.bursts := by
  rw [step_idle hpending hpower hblank]
  refine ⟨_, rfl, ?_⟩
  split
  · rw [State.sampleTrig_none (s := s.ticked) hstill, State.evacCheck_none (s := s.ticked.sampledNow) hevacs]; rfl
  · rfl

end Sys2Proof.Machine

open Sys2Proof Sys2Proof.Machine

/-- Settles O22: by the module's role in synchronisation, and by whether an input is sampled high after low. -/
theorem epochsAndTriggerInputs : Obligations.EpochsAndTriggerInputs := by
  unfold Obligations.EpochsAndTriggerInputs
  exact ⟨fun _ hrole h => syncEpoch_received hrole h, fun _ hrole h0 hdue h => syncEpoch_driven hrole h0 hdue h, fun _ h => if_neg h,
    fun _ h => if_neg fun hc => h hc.1, fun _ _ _ _ h => trigInEdge_noted h,
    fun _ _ _ hp hpw he hbl hev hb hs hm ht hn hmet hl hlow hhigh => trigIn_starts hp hpw he hbl hev hb hs hm ht hn hmet hl hlow hhigh,
    fun _ hp hpw hbl hev hstill => step_keeps_bursts hp hpw hbl hev hstill⟩
end

section
/-! An arm that places a pooled engine's record store anew and zeroes the pages of the old one (R215), which refutes O23. -/

set_option Elab.async false

namespace Sys2Proof.Machine

/-- Reset with engine 0, which no grove owns, and its record store of another size than its pages give on page 130, a byte in it. -/
def storeElsewhere : State :=
  let s := State.reset.wrs [(F.STR_TRG_MAP_MAP, 255), (F.STR_REGION_BANKS_BANK_MASK 3, 2)]
  { s with
    canopy := [(130 * 65536, 5)]
    acq := { s.acq with trg := s.acq.trg.set 0 { place := some ⟨false, 130, 2⟩ } }
    forest := { s.forest with regions := [(64, 1, 3)], stores := [(32, ⟨false, 130, 2⟩)] } }

/-- The byte of the Canopy of the answer's state at the first address of page 130. -/
def firstOf130 : Host.Outcome State Fault Refusal → Byte
  | .next u => Mem.byte u.canopy (130 * canopyPage)
  | _ => 0

theorem arm_zeroes_old_store : firstOf130 (exec (.trgArm 0) storeElsewhere) = 0 := by decide +kernel

end Sys2Proof.Machine

open Sys2Proof Sys2Proof.Machine

/-- Refutes O23: the arm moves the engine's record store to another place and zeroes the pages of the old one, whose byte was 5. -/
theorem not_triggerArming : ¬ Obligations.TriggerArming := by
  unfold Obligations.TriggerArming
  rintro ⟨harm, _⟩
  obtain ⟨u, hu, _, _, _, _, _, _, _, _, _, _, hquiet⟩ :=
    harm 0 storeElsewhere (by decide +kernel) (by decide +kernel) (by decide +kernel)
  have hbyte := arm_zeroes_old_store
  rw [hu, firstOf130, (hquiet.2 _).1] at hbyte
  exact absurd hbyte (by decide +kernel)
end

section
/-! A raw-level sample whose store in the SDRAM takes no write (R216), which refutes O24. -/

set_option Elab.async false

namespace Sys2Proof.Machine

/-- Reset with engine 0 waiting on raw levels, its record store in the SDRAM, of which none is usable. -/
def waitingOnSdram : State :=
  let s := State.reset.wr (F.TRG_STATUS_STATE 0) 1
  { s with acq := { s.acq with trg := s.acq.trg.set 0 { kind := 1, place := some ⟨true, 0, 65536⟩ } } }

/-- The samples counted as lost by engine 0 in the answer's state. -/
def lostCount : Host.Outcome State Fault Refusal → Nat
  | .next u => u.rd (F.TRG_LOST_COUNT 0)
  | _ => 0

theorem sample_is_lost : lostCount (exec (.trgSample 0 (List.replicate 8 (0, 0)) false) waitingOnSdram) = 1 := by decide +kernel

end Sys2Proof.Machine

open Sys2Proof Sys2Proof.Machine

/-- Refutes O24: the sample that the store cannot take is lost and counted, so that a register changes. -/
theorem not_triggersAndRecords : ¬ Obligations.TriggersAndRecords := by
  unfold Obligations.TriggersAndRecords
  rintro ⟨_, _, _, _, _, _, _, hraw, _⟩
  obtain ⟨u, hu, _, _, _, _, _, honly⟩ :=
    hraw 0 (List.replicate 8 (0, 0)) waitingOnSdram (by decide +kernel) (.inl (by decide +kernel)) (by decide +kernel) (by decide +kernel)
  have hregs : u.regs = waitingOnSdram.regs := by rw [honly]
  have hlost := sample_is_lost
  rw [hu, lostCount, State.rd_of_regs hregs] at hlost
  exact absurd hlost (by decide +kernel)
end

section
/-! Gates of the time measurement units (R221 to R229, R238), which settle O25. -/

set_option Elab.async false

namespace Sys2Proof.Machine

/-- Nothing but registers and the acquisition's own data differs. -/
def AcqOnly (s v : State) : Prop := v = { s with regs := v.regs, acq := v.acq }

theorem AcqOnly.refl (s : State) : AcqOnly s s := rfl

theorem AcqOnly.trans {s t u : State} (h : AcqOnly s t) (k : AcqOnly t u) : AcqOnly s u := by
  unfold AcqOnly at *; rw [k, h]

theorem RegsOnly.acq {s t : State} (h : RegsOnly s t) : AcqOnly s t := by
  unfold AcqOnly; unfold RegsOnly at h; rw [h]

theorem AcqOnly.modTmu (s : State) (u : Fin 32) (f : Tmu → Tmu) : AcqOnly s (s.modTmu u f) := rfl

theorem AcqOnly.bytes {s t : State} (h : AcqOnly s t) : BytesSame s t := by rw [h]; exact .of_eq rfl rfl rfl rfl

theorem State.modTmu_tmu (s : State) (u : Fin 32) (f : Tmu → Tmu) : (s.modTmu u f).acq.tmu = upd s.acq.tmu u f := rfl
theorem State.modTmu_rd (s : State) (u : Fin 32) (f : Tmu → Tmu) (g : Fld) : (s.modTmu u f).rd g = s.rd g := rfl
theorem State.modTmu_regs (s : State) (u : Fin 32) (f : Tmu → Tmu) : (s.modTmu u f).regs = s.regs := rfl

theorem RegsOnly.tmu {s t : State} (h : RegsOnly s t) : t.acq.tmu = s.acq.tmu := by rw [h]

/-- The registers of the units' states and gates. -/
def unitsOut : List Nat := (List.range 32).map fun k => (F.TMU_STATUS_STATE k).addr

theorem mem_unitsOut (u : Fin 32) : (F.TMU_STATUS_STATE u).addr ∈ unitsOut := List.mem_map_of_mem (List.mem_range.mpr u.isLt)

theorem State.wr_state_rd (s : State) (u k : Fin 32) (v : Nat) (hv : v < 8) :
    (s.wr (F.TMU_STATUS_STATE u) v).rd (F.TMU_STATUS_STATE k) = if k = u then v else s.rd (F.TMU_STATUS_STATE k) := by
  split
  next h => subst h; exact State.rd_wr_fit _ _ _ (by simp [F.TMU_STATUS_STATE]) (by simpa [F.TMU_STATUS_STATE] using hv)
  next h =>
    refine State.rd_wr_apart _ _ _ _ (by simp [F.TMU_STATUS_STATE]) ?_
    have := Fin.val_ne_of_ne h
    simp [Fld.apart, F.TMU_STATUS_STATE]; omega

theorem State.wr_state_gates (s : State) (u k : Fin 32) (v : Nat) :
    (s.wr (F.TMU_STATUS_STATE u) v).rd (F.TMU_STATUS_GATES k) = s.rd (F.TMU_STATUS_GATES k) :=
  State.rd_wr_apart _ _ _ _ (by simp [F.TMU_STATUS_STATE]) (by simp [Fld.apart, F.TMU_STATUS_STATE, F.TMU_STATUS_GATES])

/-! ## A unit that ends frees its slaves (R226, R238) -/

/-- Unit `p` is freed where it is slaved to `u`. -/
def State.freeSlave (u : Fin 32) (s : State) (p : Fin 32) : State :=
  if s.acq.tmu[p].master = some u.1 then (s.modTmu p fun k => { k with master := none }).wr (F.TMU_STATUS_STATE p) 0 else s

theorem State.freeSlave_pos {u p : Fin 32} {s : State} (h : s.acq.tmu[p].master = some u.1) : s.freeSlave u p =
    (s.modTmu p fun k => { k with master := none }).wr (F.TMU_STATUS_STATE p) 0 := if_pos h

theorem State.freeSlave_neg {u p : Fin 32} {s : State} (h : ¬ s.acq.tmu[p].master = some u.1) : s.freeSlave u p = s := if_neg h

theorem State.freeSlave_tmu (u : Fin 32) (s : State) (p k : Fin 32) : (s.freeSlave u p).acq.tmu[k] =
    if k = p ∧ s.acq.tmu[k].master = some u.1 then { s.acq.tmu[k] with master := none } else s.acq.tmu[k] := by
  by_cases h : s.acq.tmu[p].master = some u.1
  · rw [State.freeSlave_pos h]
    show (upd s.acq.tmu p fun k => { k with master := none })[k] = _
    by_cases hk : k = p
    · subst hk; rw [upd_same]; exact (if_pos ⟨rfl, h⟩).symm
    · rw [upd_other _ _ _ _ hk]; exact (if_neg fun hc => hk hc.1).symm
  · rw [State.freeSlave_neg h]
    refine (if_neg ?_).symm
    rintro ⟨rfl, hc⟩; exact h hc

theorem State.freeSlave_state (u : Fin 32) (s : State) (p k : Fin 32) : (s.freeSlave u p).tmuState k =
    if k = p ∧ s.acq.tmu[k].master = some u.1 then 0 else s.tmuState k := by
  by_cases h : s.acq.tmu[p].master = some u.1
  · rw [State.freeSlave_pos h, State.tmuState, State.wr_state_rd _ _ _ _ (by decide), State.modTmu_rd]
    by_cases hk : k = p
    · subst hk; rw [if_pos rfl]; exact (if_pos ⟨rfl, h⟩).symm
    · rw [if_neg hk]; exact (if_neg fun hc => hk hc.1).symm
  · rw [State.freeSlave_neg h]
    refine (if_neg ?_).symm
    rintro ⟨rfl, hc⟩; exact h hc

theorem State.freeSlave_rest (u : Fin 32) (s : State) (p : Fin 32) : AcqOnly s (s.freeSlave u p) ∧ RegsSame unitsOut s (s.freeSlave u p) ∧
    ∀ k : Fin 32, (s.freeSlave u p).rd (F.TMU_STATUS_GATES k) = s.rd (F.TMU_STATUS_GATES k) := by
  by_cases h : s.acq.tmu[p].master = some u.1
  · rw [State.freeSlave_pos h]
    exact ⟨(AcqOnly.modTmu ..).trans (RegsOnly.wr ..).acq, ((RegsSame.refl _ s).andRegs rfl).andWr (mem_unitsOut p), fun k => by
      rw [State.wr_state_gates, State.modTmu_rd]⟩
  · rw [State.freeSlave_neg h]
    exact ⟨AcqOnly.refl s, RegsSame.refl _ s, fun _ => rfl⟩

/-- What freeing the slaves of `u` among the units of a list does. -/
theorem State.freeSlaves_keeps (u : Fin 32) (l : List (Fin 32)) (s : State) {v : State} (hv : l.foldl (State.freeSlave u) s = v) :
    (∀ k, v.acq.tmu[k] = if k ∈ l ∧ s.acq.tmu[k].master = some u.1 then { s.acq.tmu[k] with master := none } else s.acq.tmu[k]) ∧
    (∀ k, v.tmuState k = if k ∈ l ∧ s.acq.tmu[k].master = some u.1 then 0 else s.tmuState k) ∧
    AcqOnly s v ∧ RegsSame unitsOut s v ∧ ∀ k : Fin 32, v.rd (F.TMU_STATUS_GATES k) = s.rd (F.TMU_STATUS_GATES k) := by
  induction l generalizing s with
  | nil => subst hv; exact ⟨fun k => by simp, fun k => by simp, AcqOnly.refl s, RegsSame.refl _ s, fun _ => rfl⟩
  | cons p l ih =>
    obtain ⟨honly, hregs, hgates⟩ := State.freeSlave_rest u s p
    obtain ⟨itmu, istate, ionly, iregs, igates⟩ := ih (s.freeSlave u p) hv
    have hmem (k : Fin 32) (hc : ¬ (k = p ∧ s.acq.tmu[k].master = some u.1)) :
        (k ∈ l ∧ s.acq.tmu[k].master = some u.1) ↔ k ∈ p :: l ∧ s.acq.tmu[k].master = some u.1 :=
      ⟨fun h => ⟨List.mem_cons_of_mem _ h.1, h.2⟩, fun h => ⟨(List.mem_cons.mp h.1).resolve_left fun hk => hc ⟨hk, h.2⟩, h.2⟩⟩
    refine ⟨fun k => ?_, fun k => ?_, honly.trans ionly, hregs.trans iregs, fun k => (igates k).trans (hgates k)⟩
    · rw [itmu k]
      by_cases hc : k = p ∧ s.acq.tmu[k].master = some u.1
      · have h1 : (s.freeSlave u p).acq.tmu[k] = { s.acq.tmu[k] with master := none } := by rw [State.freeSlave_tmu, if_pos hc]
        rw [h1, if_neg (by simp)]
        exact (if_pos ⟨List.mem_cons.mpr (.inl hc.1), hc.2⟩).symm
      · have h1 : (s.freeSlave u p).acq.tmu[k] = s.acq.tmu[k] := by rw [State.freeSlave_tmu, if_neg hc]
        rw [h1]
        exact ite_congr (propext (hmem k hc)) (fun _ => rfl) fun _ => rfl
    · rw [istate k]
      by_cases hc : k = p ∧ s.acq.tmu[k].master = some u.1
      · have h1 : (s.freeSlave u p).acq.tmu[k] = { s.acq.tmu[k] with master := none } := by rw [State.freeSlave_tmu, if_pos hc]
        rw [h1, if_neg (by simp), State.freeSlave_state, if_pos hc]
        exact (if_pos ⟨List.mem_cons.mpr (.inl hc.1), hc.2⟩).symm
      · have h1 : (s.freeSlave u p).acq.tmu[k] = s.acq.tmu[k] := by rw [State.freeSlave_tmu, if_neg hc]
        rw [h1, State.freeSlave_state, if_neg hc]
        exact ite_congr (propext (hmem k hc)) (fun _ => rfl) fun _ => rfl

/-- What a unit keeps that ends: its slaves are freed. -/
def Tmu.off (k : Tmu) : Tmu := { k with heldArm := false, due := false, gate := none }

theorem State.tmuOff_eq (s : State) (u : Fin 32) :
    s.tmuOff u = (allFin 32).foldl (State.freeSlave u) ((s.modTmu u Tmu.off).wr (F.TMU_STATUS_STATE u) 0) := rfl

theorem State.tmuOff_keeps {s v : State} {u : Fin 32} (hv : s.tmuOff u = v) :
    v.tmuState u = 0 ∧ v.acq.tmu[u].gate = none ∧ v.acq.tmu[u].heldArm = false ∧ v.acq.tmu[u].due = false ∧
    v.acq.tmu[u].closed = s.acq.tmu[u].closed ∧
    (∀ k, k ≠ u → s.acq.tmu[k].master = some u.1 → v.tmuState k = 0 ∧ v.acq.tmu[k].master = none) ∧
    (∀ k, k ≠ u → s.acq.tmu[k].master ≠ some u.1 → v.tmuState k = s.tmuState k ∧ v.acq.tmu[k] = s.acq.tmu[k]) ∧
    AcqOnly s v ∧ Quiet unitsOut s v ∧ ∀ k : Fin 32, v.rd (F.TMU_STATUS_GATES k) = s.rd (F.TMU_STATUS_GATES k) := by
  rw [State.tmuOff_eq] at hv
  have hw : ((s.modTmu u Tmu.off).wr (F.TMU_STATUS_STATE u) 0).acq.tmu = upd s.acq.tmu u Tmu.off := by rw [State.wr_acq, State.modTmu_tmu]
  have hstate (k : Fin 32) : ((s.modTmu u Tmu.off).wr (F.TMU_STATUS_STATE u) 0).tmuState k = if k = u then 0 else s.tmuState k := by
    rw [State.tmuState, State.wr_state_rd _ _ _ _ (by decide), State.modTmu_rd]
  have hgates (k : Fin 32) : ((s.modTmu u Tmu.off).wr (F.TMU_STATUS_STATE u) 0).rd (F.TMU_STATUS_GATES k) = s.rd (F.TMU_STATUS_GATES k) := by
    rw [State.wr_state_gates, State.modTmu_rd]
  have honly : AcqOnly s ((s.modTmu u Tmu.off).wr (F.TMU_STATUS_STATE u) 0) := (AcqOnly.modTmu ..).trans (RegsOnly.wr ..).acq
  have hregs : RegsSame unitsOut s ((s.modTmu u Tmu.off).wr (F.TMU_STATUS_STATE u) 0) := ((RegsSame.refl _ s).andRegs rfl).andWr (mem_unitsOut u)
  generalize (s.modTmu u Tmu.off).wr (F.TMU_STATUS_STATE u) 0 = w at *
  obtain ⟨itmu, istate, ionly, iregs, igates⟩ := State.freeSlaves_keeps u _ w hv
  have hself : w.acq.tmu[u] = s.acq.tmu[u].off := by rw [hw, upd_same]
  have hother (k : Fin 32) (hk : k ≠ u) : w.acq.tmu[k] = s.acq.tmu[k] := by rw [hw, upd_other _ _ _ _ hk]
  have hall := honly.trans ionly
  have hu := itmu u
  rw [hself] at hu
  refine ⟨?_, ?_, ?_, ?_, ?_, fun k hk hm => ?_, fun k hk hm => ?_, hall, ⟨hregs.trans iregs, hall.bytes⟩, fun k => (igates k).trans (hgates k)⟩
  · rw [istate u, hstate u, if_pos rfl, ite_self]
  · rw [hu]; split <;> rfl
  · rw [hu]; split <;> rfl
  · rw [hu]; split <;> rfl
  · rw [hu]; split <;> rfl
  · have hcond : k ∈ allFin 32 ∧ w.acq.tmu[k].master = some u.1 := ⟨List.mem_finRange k, by rw [hother k hk]; exact hm⟩
    rw [istate k, itmu k, if_pos hcond, if_pos hcond]
    exact ⟨rfl, rfl⟩
  · have hcond : ¬ (k ∈ allFin 32 ∧ w.acq.tmu[k].master = some u.1) := fun hc => hm (by rw [← hother k hk]; exact hc.2)
    rw [istate k, itmu k, if_neg hcond, if_neg hcond, hstate k, if_neg hk, hother k hk]
    exact ⟨rfl, rfl⟩

/-! ## A gate closes (R224, R225, R238) -/

/-- What closing a gate leaves in its unit. -/
def Tmu.close (g : Gate) (k : Tmu) : Tmu := { k with gate := none, closed := k.closed ++ [g] }

/-- The unit's gate is taken among the closed ones and counted. -/
def State.gateClosed (s : State) (u : Fin 32) (g : Gate) : State :=
  (s.modTmu u (Tmu.close g)).wr (F.TMU_STATUS_GATES u) (s.rd (F.TMU_STATUS_GATES u) + 1)

theorem State.closeGate_eq {s : State} {u : Fin 32} {g : Gate} {full cut limit : Bool} (hgate : s.acq.tmu[u].gate = some g) :
    s.closeGate u full cut limit =
      if cut || (s.gateClosed u { g with full := full, cut := cut }).on (F.TMU_CTRL_CONT u) == false ||
          (s.gateClosed u { g with full := full, cut := cut }).rd (F.TMU_GATE_GSRC u) == 3 then
        (s.gateClosed u { g with full := full, cut := cut }).tmuOff u
      else if (s.gateClosed u { g with full := full, cut := cut }).rd (F.TMU_GATE_GSRC u) ≤ 1 ∨ limit then
        (s.gateClosed u { g with full := full, cut := cut }).openGate u (s.gateClosed u { g with full := full, cut := cut }).fuNow
      else (s.gateClosed u { g with full := full, cut := cut }).wr (F.TMU_STATUS_STATE u) 1 := by
  rw [State.closeGate, hgate]
  rfl

theorem State.gateClosed_keeps (s : State) (u : Fin 32) (g : Gate) {w : State} (hw : s.gateClosed u g = w) :
    w.acq.tmu = upd s.acq.tmu u (Tmu.close g) ∧ w.rd (F.TMU_STATUS_GATES u) = (s.rd (F.TMU_STATUS_GATES u) + 1) % 2 ^ 16 ∧
    w.on (F.TMU_CTRL_CONT u) = s.on (F.TMU_CTRL_CONT u) ∧ AcqOnly s w ∧ RegsSame unitsOut s w := by
  rw [State.gateClosed] at hw
  have hregs : RegsSame unitsOut s (s.modTmu u (Tmu.close g)) := (RegsSame.refl _ s).andRegs rfl
  have honly := AcqOnly.modTmu s u (Tmu.close g)
  have htmu := State.modTmu_tmu s u (Tmu.close g)
  have hrd := State.modTmu_rd s u (Tmu.close g)
  generalize s.modTmu u (Tmu.close g) = x at *
  subst hw
  refine ⟨htmu, State.rd_wr_same _ _ _ (by simp [F.TMU_STATUS_GATES]), ?_, honly.trans (RegsOnly.wr ..).acq, hregs.andWr (f := F.TMU_STATUS_GATES u) (mem_unitsOut u)⟩
  rw [State.on, State.rd_wr_apart _ _ _ _ (by simp [F.TMU_STATUS_GATES]) (by simp [Fld.apart, F.TMU_STATUS_GATES, F.TMU_CTRL_CONT]), hrd]
  rfl

/-- A gate that closes and is the last one of its arming ends the unit. -/
theorem State.closeGate_last {s v : State} {u : Fin 32} {g : Gate} {full cut limit : Bool} (hgate : s.acq.tmu[u].gate = some g)
    (hlast : cut = true ∨ s.on (F.TMU_CTRL_CONT u) = false) (hv : s.closeGate u full cut limit = v) :
    v.tmuState u = 0 ∧ v.acq.tmu[u].gate = none ∧ v.acq.tmu[u].closed = s.acq.tmu[u].closed ++ [{ g with full := full, cut := cut }] ∧
    v.rd (F.TMU_STATUS_GATES u) = (s.rd (F.TMU_STATUS_GATES u) + 1) % 2 ^ 16 ∧ AcqOnly s v ∧ Quiet unitsOut s v := by
  rw [State.closeGate_eq hgate] at hv
  generalize ({ g with full := full, cut := cut } : Gate) = g' at *
  obtain ⟨htmu, hgates, hcont, honly, hregs⟩ := s.gateClosed_keeps u g' rfl
  generalize s.gateClosed u g' = w at *
  rw [if_pos (by rw [hcont]; rcases hlast with h | h <;> simp [h])] at hv
  obtain ⟨hstate, hnone, _, _, hclosed, _, _, hvonly, hquiet, hvgates⟩ := State.tmuOff_keeps hv
  refine ⟨hstate, hnone, ?_, ?_, honly.trans hvonly, hregs.trans hquiet.1, (honly.trans hvonly).bytes⟩
  · rw [hclosed, htmu, upd_same]; rfl
  · rw [hvgates, hgates]

theorem State.tmuDisarm_eq {s : State} {u : Fin 32} (hmaster : s.acq.tmu[u].master = none) :
    s.tmuDisarm u = if s.acq.tmu[u].gate.isSome then s.closeGate u false true else s.tmuOff u := by
  show (fun m : Fin 32 => if s.acq.tmu[m].gate.isSome then s.closeGate m false true else s.tmuOff m) ((s.acq.tmu[u].master.map (fin 32)).getD u) = _
  rw [hmaster]
  rfl

theorem tmuDisarm_idle {u : Fin 32} {s : State} (hmaster : s.acq.tmu[u].master = none) (hgate : s.acq.tmu[u].gate = none) :
    Answers (.tmuDisarm u) s fun v =>
      v.tmuState u = 0 ∧ v.acq.tmu[u].heldArm = false ∧ v.acq.tmu[u].due = false ∧ v.acq.tmu[u].closed = s.acq.tmu[u].closed ∧
      (∀ k, k ≠ u → s.acq.tmu[k].master = some u.1 → v.tmuState k = 0 ∧ v.acq.tmu[k].master = none) ∧
      (∀ k, k ≠ u → s.acq.tmu[k].master ≠ some u.1 → v.tmuState k = s.tmuState k ∧ v.acq.tmu[k] = s.acq.tmu[k]) ∧
      v = { s with regs := v.regs, acq := v.acq } ∧ Quiet ((List.range 32).map fun k => (F.TMU_STATUS_STATE k).addr) s v := by
  have hoff : s.tmuDisarm u = s.tmuOff u := by
    rw [State.tmuDisarm_eq hmaster, hgate]; rfl
  refine ⟨_, congrArg Host.Outcome.next hoff, ?_⟩
  obtain ⟨hstate, _, hheld, hdue, hclosed, hslaves, hothers, honly, hquiet, _⟩ := State.tmuOff_keeps (s := s) (u := u) rfl
  exact ⟨hstate, hheld, hdue, hclosed, hslaves, hothers, honly, hquiet⟩

theorem tmuDisarm_cuts {u : Fin 32} {g : Gate} {s : State} (hmaster : s.acq.tmu[u].master = none) (hgate : s.acq.tmu[u].gate = some g) :
    Answers (.tmuDisarm u) s fun v =>
      v.tmuState u = 0 ∧ v.acq.tmu[u].gate = none ∧ v.acq.tmu[u].closed = s.acq.tmu[u].closed ++ [{ g with full := false, cut := true }] ∧
      v.rd (F.TMU_STATUS_GATES u) = (s.rd (F.TMU_STATUS_GATES u) + 1) % 2 ^ 16 ∧ v = { s with regs := v.regs, acq := v.acq } ∧
      Quiet ((List.range 32).map fun k => (F.TMU_STATUS_STATE k).addr) s v := by
  have hcut : s.tmuDisarm u = s.closeGate u false true := by
    rw [State.tmuDisarm_eq hmaster, hgate]; rfl
  exact ⟨_, congrArg Host.Outcome.next hcut, State.closeGate_last hgate (.inl rfl) rfl⟩

theorem tmuGate_expires {u : Fin 32} {g : Gate} {s : State} (hgate : s.acq.tmu[u].gate = some g) (hcont : s.on (F.TMU_CTRL_CONT u) = false)
    (hsrc : s.rd (F.TMU_GATE_GSRC u) = 0) (hus : s.rd (F.TMU_GATE_US_US u) < 16000000) (hlen : g.stamps.length < 1048576) :
    Answers (.tmuGateExpiry u) s fun v =>
      v.tmuState u = 0 ∧ v.acq.tmu[u].gate = none ∧ v.acq.tmu[u].closed = s.acq.tmu[u].closed ++ [{ g with full := false, cut := false }] ∧
      v = { s with regs := v.regs, acq := v.acq } ∧ Quiet ((List.range 32).map fun k => (F.TMU_STATUS_STATE k).addr) s v := by
  have hexec : exec (.tmuGateExpiry u) s = .next (s.closeGate u false false (limit := false)) := by
    show execTmuGateExpiry u s = _
    rw [execTmuGateExpiry, hgate]
    simp only [hsrc, Nat.not_le.mpr hus, Nat.not_le.mpr hlen]
    rfl
  refine ⟨_, hexec, ?_⟩
  obtain ⟨hstate, hnone, hclosed, _, honly, hquiet⟩ := State.closeGate_last hgate (.inr hcont) rfl
  exact ⟨hstate, hnone, hclosed, honly, hquiet⟩

/-! ## A gate opens (R224, R226) -/

/-- The gate that unit `u` opens at an instant. -/
def State.gateAt (s : State) (u : Fin 32) (fu : Nat) : Gate :=
  { no := s.acq.tmu[u].gateNo, openS := fu, openTime := (s.sharedAt fu).1, stale := s.on (F.TMU_STATUS_STALE u), func := s.tmuFunc u
    window := 4096 * max 1 (s.rd (F.TMU_WINDOW_TICKS u)), prescale := max 1 (s.rd (F.TMU_PRESCALE_N u)) }

/-- What opening a gate leaves in its unit. -/
def Tmu.start (g : Gate) (k : Tmu) : Tmu := { k with gate := some g, gateNo := k.gateNo + 1, due := false }

/-- A unit that stores nothing and has no partner opens its gate. -/
theorem State.openGate_plain {s v : State} {u : Fin 32} {fu : Nat} (hstore : s.on (F.TMU_CTRL_STORE u) = false) (hpartner : s.partnerOf u = none)
    (hv : s.openGate u fu = v) :
    v.tmuState u = 2 ∧ v.acq.tmu = upd s.acq.tmu u (Tmu.start (s.gateAt u fu)) ∧ AcqOnly s v ∧ Quiet [(F.TMU_STATUS_STATE u).addr] s v := by
  have heq : s.openGate u fu = (s.wr (F.TMU_STATUS_STATE u) 2).modTmu u (Tmu.start (s.gateAt u fu)) := by
    rw [State.openGate, hpartner]
    refine if_neg ?_
    show ¬ (s.wr (F.TMU_STATUS_STATE u) 2).on (F.TMU_CTRL_STORE u) = true
    rw [State.on, State.rd_wr_apart _ _ _ _ (by simp [F.TMU_STATUS_STATE]) (by simp [Fld.apart, F.TMU_STATUS_STATE, F.TMU_CTRL_STORE])]
    exact fun h => absurd (hstore.symm.trans h) Bool.false_ne_true
  rw [heq] at hv
  have hw : RegsOnly s (s.wr (F.TMU_STATUS_STATE u) 2) := RegsOnly.wr ..
  have hstate : (s.wr (F.TMU_STATUS_STATE u) 2).tmuState u = 2 := by rw [State.tmuState, State.wr_state_rd _ _ _ _ (by decide), if_pos rfl]
  have hregs : RegsSame [(F.TMU_STATUS_STATE u).addr] s (s.wr (F.TMU_STATUS_STATE u) 2) := (RegsSame.refl _ s).andWr (List.mem_singleton.mpr rfl)
  generalize s.wr (F.TMU_STATUS_STATE u) 2 = w at *
  subst hv
  have hall := hw.acq.trans (AcqOnly.modTmu w u (Tmu.start (s.gateAt u fu)))
  exact ⟨hstate, by rw [State.modTmu_tmu, hw.tmu], hall, hregs.andRegs (State.modTmu_regs ..), hall.bytes⟩

theorem tmuGateOpen_burst {u : Fin 32} {s : State} (hstate : s.tmuState u = 1) (hsrc : s.rd (F.TMU_GATE_GSRC u) = 2)
    (hdue : s.acq.tmu[u].due = true) (hstore : s.on (F.TMU_CTRL_STORE u) = false) (hpartner : s.partnerOf u = none) :
    Answers (.tmuGateOpen u) s fun v =>
      v.tmuState u = 2 ∧ v.acq.tmu[u].gateNo = s.acq.tmu[u].gateNo + 1 ∧ v.acq.tmu[u].due = false ∧
      (∃ g, v.acq.tmu[u].gate = some g ∧ g.no = s.acq.tmu[u].gateNo ∧ g.openS = s.cycleZero (s.tmuGrove u) ∧ g.stamps = []) ∧
      (∀ k, k ≠ u → v.acq.tmu[k] = s.acq.tmu[k]) ∧ v = { s with regs := v.regs, acq := v.acq } ∧
      Quiet [(F.TMU_STATUS_STATE u).addr] s v := by
  have hexec : exec (.tmuGateOpen u) s = .next (s.openGate u (s.cycleZero (s.tmuGrove u))) := by
    show execTmuGateOpen u s = _
    rw [execTmuGateOpen, hsrc]
    refine (if_pos ⟨hstate, .inl ⟨rfl, hdue⟩⟩).trans ?_
    rfl
  refine ⟨_, hexec, ?_⟩
  obtain ⟨hopen, htmu, honly, hquiet⟩ := State.openGate_plain hstore hpartner (fu := s.cycleZero (s.tmuGrove u)) rfl
  generalize s.openGate u (s.cycleZero (s.tmuGrove u)) = v at *
  have hself : v.acq.tmu[u] = (s.acq.tmu[u]).start (s.gateAt u (s.cycleZero (s.tmuGrove u))) := by rw [htmu, upd_same]
  refine ⟨hopen, ?_, ?_, ⟨s.gateAt u (s.cycleZero (s.tmuGrove u)), ?_, rfl, rfl, rfl⟩, fun k hk => ?_, honly, hquiet⟩
  · rw [hself]; rfl
  · rw [hself]; rfl
  · rw [hself]; rfl
  · rw [htmu, upd_other _ _ _ _ hk]

/-! ## Arming (R221, R226, R235) -/

theorem RegsSame.unit {u : Fin 32} {s w : State} (h : RegsSame [(F.TMU_STATUS_STATE u).addr] s w) : w.partnerOf u = s.partnerOf u ∧
    w.on (F.TMU_CTRL_STORE u) = s.on (F.TMU_CTRL_STORE u) ∧ w.rd (F.TMU_GATE_GSRC u) = s.rd (F.TMU_GATE_GSRC u) ∧ w.tmuFunc u = s.tmuFunc u ∧
    w.rd (F.TMU_WINDOW_TICKS u) = s.rd (F.TMU_WINDOW_TICKS u) ∧ w.rd (F.TMU_PRESCALE_N u) = s.rd (F.TMU_PRESCALE_N u) := by
  have hrd (f : Fld) (hf : f.addr ≠ (F.TMU_STATUS_STATE u).addr) : w.rd f = s.rd f := h.rd f (by rwa [List.mem_singleton])
  have hfunc := hrd (F.TMU_CTRL_FUNC u) (by simp [F.TMU_CTRL_FUNC, F.TMU_STATUS_STATE])
  have hpartner := hrd (F.TMU_SRC_PARTNER u) (by simp [F.TMU_SRC_PARTNER, F.TMU_STATUS_STATE])
  have htmuFunc : w.tmuFunc u = s.tmuFunc u := by rw [State.tmuFunc, State.tmuFunc, hfunc]
  refine ⟨?_, ?_, hrd _ (by simp [F.TMU_GATE_GSRC, F.TMU_STATUS_STATE]), htmuFunc, hrd _ (by simp [F.TMU_WINDOW_TICKS, F.TMU_STATUS_STATE]),
    hrd _ (by simp [F.TMU_PRESCALE_N, F.TMU_STATUS_STATE])⟩
  · rw [State.partnerOf, State.partnerOf, htmuFunc, hpartner]
  · rw [State.on, State.on, hrd _ (by simp [F.TMU_CTRL_STORE, F.TMU_STATUS_STATE])]

/-- What arming leaves in a unit before a gate opens. -/
def Tmu.armed (k : Tmu) : Tmu := { k with gateNo := 0, lastS := none, due := false }

/-- A unit is armed, its gates numbered anew. -/
def State.unitArmed (s : State) (u : Fin 32) : State :=
  ((s.modTmu u Tmu.armed).wr (F.TMU_STATUS_STATE u) 1).wr (F.TMU_STATUS_GATES u) 0

theorem State.unitArmed_keeps (s : State) (u : Fin 32) {w : State} (hw : s.unitArmed u = w) :
    w.acq.tmu = upd s.acq.tmu u Tmu.armed ∧ w.tmuState u = 1 ∧ w.rd (F.TMU_STATUS_GATES u) = 0 ∧
    w.on (F.TMU_STATUS_STALE u) = s.on (F.TMU_STATUS_STALE u) ∧ AcqOnly s w ∧ RegsSame [(F.TMU_STATUS_STATE u).addr] s w := by
  rw [State.unitArmed] at hw
  have hregs : RegsSame [(F.TMU_STATUS_STATE u).addr] s (s.modTmu u Tmu.armed) := (RegsSame.refl _ s).andRegs rfl
  have honly := AcqOnly.modTmu s u Tmu.armed
  have htmu := State.modTmu_tmu s u Tmu.armed
  have hrd := State.modTmu_rd s u Tmu.armed
  generalize s.modTmu u Tmu.armed = x at *
  subst hw
  refine ⟨htmu, ?_, State.rd_wr_fit _ _ _ (by simp [F.TMU_STATUS_GATES]) (by simp [F.TMU_STATUS_GATES]), ?_,
    (honly.trans (RegsOnly.wr ..).acq).trans (RegsOnly.wr ..).acq,
    (hregs.andWr (List.mem_singleton.mpr rfl)).andWr (f := F.TMU_STATUS_GATES u) (List.mem_singleton.mpr rfl)⟩
  · rw [State.tmuState, State.rd_wr_apart _ _ _ _ (by simp [F.TMU_STATUS_GATES]) (by simp [Fld.apart, F.TMU_STATUS_GATES, F.TMU_STATUS_STATE]),
      State.wr_state_rd _ _ _ _ (by decide), if_pos rfl]
  · rw [State.on, State.rd_wr_apart _ _ _ _ (by simp [F.TMU_STATUS_GATES]) (by simp [Fld.apart, F.TMU_STATUS_GATES, F.TMU_STATUS_STALE]),
      State.rd_wr_apart _ _ _ _ (by simp [F.TMU_STATUS_STATE]) (by simp [Fld.apart, F.TMU_STATUS_STATE, F.TMU_STATUS_STALE]), hrd]
    rfl

/-- An admitted arm of a unit that stores nothing: the partner is slaved, and a TIME or COUNT gate opens. -/
theorem tmuArm_start {u : Fin 32} {s x : State} (hidle : s.tmuState u = 0) (hbad : s.tmuBad u = false) (hheld : s.tmuHeld u = false)
    (hx : (s.unitArmed u).tmuSlave u = x) (hstore : x.on (F.TMU_CTRL_STORE u) = false) :
    exec (.tmuArm u) s = .next (if x.rd (F.TMU_GATE_GSRC u) ≤ 1 then x.openGate u x.fuNow else x) := by
  have harm : s.tmuArm u = s.tmuStart u := by
    rw [State.tmuArm, if_neg (not_not_intro hidle), if_neg (by rw [hbad]; decide), if_neg (by rw [hheld]; decide)]
  have hstart : s.tmuStart u = (fun y : State => if y.rd (F.TMU_GATE_GSRC u) ≤ 1 then y.openGate u y.fuNow else y)
      (if ((s.unitArmed u).tmuSlave u).on (F.TMU_CTRL_STORE u) && (((s.unitArmed u).tmuSlave u).tmuOwner u).all fun g =>
          ((s.unitArmed u).tmuSlave u).groveIdle g then (((s.unitArmed u).tmuSlave u).placeTmu u).getD ((s.unitArmed u).tmuSlave u)
        else (s.unitArmed u).tmuSlave u) := rfl
  refine congrArg Host.Outcome.next ?_
  rw [harm, hstart, hx, hstore]
  rfl

theorem tmuArm_waits {u : Fin 32} {s : State} (hidle : s.tmuState u = 0) (hbad : s.tmuBad u = false) (hheld : s.tmuHeld u = false)
    (hstore : s.on (F.TMU_CTRL_STORE u) = false) (hpartner : s.partnerOf u = none) (hsrc : 2 ≤ s.rd (F.TMU_GATE_GSRC u)) :
    Answers (.tmuArm u) s fun v =>
      v.tmuState u = 1 ∧ v.rd (F.TMU_STATUS_GATES u) = 0 ∧
      v.acq.tmu[u] = { s.acq.tmu[u] with gateNo := 0, lastS := none, due := false } ∧ (∀ k, k ≠ u → v.acq.tmu[k] = s.acq.tmu[k]) ∧
      v = { s with regs := v.regs, acq := v.acq } ∧ Quiet [(F.TMU_STATUS_STATE u).addr] s v := by
  obtain ⟨htmu, hstate, hgates, _, honly, hregs⟩ := s.unitArmed_keeps u rfl
  have hexec := @tmuArm_start u s _ hidle hbad hheld rfl
  rw [State.tmuSlave, hregs.unit.1, hpartner] at hexec
  dsimp only at hexec
  generalize s.unitArmed u = w at *
  obtain ⟨_, hwstore, hwsrc, _⟩ := hregs.unit
  have hnot : ¬ w.rd (F.TMU_GATE_GSRC u) ≤ 1 := by omega
  refine ⟨w, by rw [hexec (by rw [hwstore, hstore]), if_neg hnot], hstate, hgates, by rw [htmu, upd_same]; rfl,
    fun k hk => by rw [htmu, upd_other _ _ _ _ hk], honly, hregs, honly.bytes⟩

theorem tmuArm_opens {u : Fin 32} {s : State} (hidle : s.tmuState u = 0) (hbad : s.tmuBad u = false) (hheld : s.tmuHeld u = false)
    (hstore : s.on (F.TMU_CTRL_STORE u) = false) (hpartner : s.partnerOf u = none) (hsrc : s.rd (F.TMU_GATE_GSRC u) ≤ 1) :
    Answers (.tmuArm u) s fun v =>
      v.tmuState u = 2 ∧ v.acq.tmu[u].gateNo = 1 ∧ v.acq.tmu[u].gate =
        some { no := 0, openS := s.fuNow, openTime := (s.sharedAt s.fuNow).1, stale := s.on (F.TMU_STATUS_STALE u), func := s.tmuFunc u
               window := 4096 * max 1 (s.rd (F.TMU_WINDOW_TICKS u)), prescale := max 1 (s.rd (F.TMU_PRESCALE_N u)) } ∧
      (∀ k, k ≠ u → v.acq.tmu[k] = s.acq.tmu[k]) ∧ v = { s with regs := v.regs, acq := v.acq } ∧
      Quiet [(F.TMU_STATUS_STATE u).addr] s v := by
  obtain ⟨htmu, _, _, hstale, honly, hregs⟩ := s.unitArmed_keeps u rfl
  have hexec := @tmuArm_start u s _ hidle hbad hheld rfl
  rw [State.tmuSlave, hregs.unit.1, hpartner] at hexec
  dsimp only at hexec
  generalize s.unitArmed u = w at *
  obtain ⟨hwpartner, hwstore, hwsrc, hfunc, hwindow, hprescale⟩ := hregs.unit
  have htime : w.fuNow = s.fuNow := by rw [honly]; rfl
  have hshared (n : Nat) : w.sharedAt n = s.sharedAt n := by rw [honly]; rfl
  have hself : w.acq.tmu[u] = (s.acq.tmu[u]).armed := by rw [htmu, upd_same]
  rw [htime, if_pos (hwsrc.le.trans hsrc)] at hexec
  obtain ⟨hopen, hvtmu, hvonly, hquiet⟩ := State.openGate_plain (hwstore.trans hstore) (hwpartner.trans hpartner) (fu := s.fuNow) rfl
  generalize hgate : w.gateAt u s.fuNow = g at *
  have hg : g = { no := 0, openS := s.fuNow, openTime := (s.sharedAt s.fuNow).1, stale := s.on (F.TMU_STATUS_STALE u), func := s.tmuFunc u
                  window := 4096 * max 1 (s.rd (F.TMU_WINDOW_TICKS u)), prescale := max 1 (s.rd (F.TMU_PRESCALE_N u)) } := by
    rw [← hgate, State.gateAt, hself, hshared, hstale, hfunc, hwindow, hprescale]; rfl
  refine ⟨_, hexec (hwstore.trans hstore), ?_⟩
  generalize w.openGate u s.fuNow = v at *
  have hvself : v.acq.tmu[u] = (s.acq.tmu[u]).armed.start g := by rw [hvtmu, upd_same, hself]
  refine ⟨hopen, by rw [hvself]; rfl, by rw [hvself, ← hg]; rfl, fun k hk => ?_, honly.trans hvonly, hregs.trans hquiet.1, (honly.trans hvonly).bytes⟩
  rw [hvtmu, upd_other _ _ _ _ hk, htmu, upd_other _ _ _ _ hk]

/-- What slaving leaves in a partner. -/
def Tmu.slaved (u : Fin 32) (k : Tmu) : Tmu := { k with master := some u.1, edges := 0, lastS := none }

theorem tmuArm_slaves {u p : Fin 32} {s : State} (hidle : s.tmuState u = 0) (hbad : s.tmuBad u = false) (hheld : s.tmuHeld u = false)
    (hstore : s.on (F.TMU_CTRL_STORE u) = false) (hpartner : s.partnerOf u = some p) (hsrc : 2 ≤ s.rd (F.TMU_GATE_GSRC u)) :
    Answers (.tmuArm u) s fun v =>
      v.tmuState u = 1 ∧ v.tmuState p = 3 ∧ v.acq.tmu[p].master = some u.1 ∧ v.acq.tmu[p].edges = 0 ∧
      Quiet [(F.TMU_STATUS_STATE u).addr, (F.TMU_STATUS_STATE p).addr] s v := by
  have hne : u ≠ p := by
    intro he
    have := hbad
    rw [State.tmuBad, hpartner, he] at this
    simp at this
  have hval := Fin.val_ne_of_ne hne
  obtain ⟨_, hstate, _, _, honly, hregs⟩ := s.unitArmed_keeps u rfl
  have hslave : (s.unitArmed u).tmuSlave u = ((s.unitArmed u).modTmu p (Tmu.slaved u)).wr (F.TMU_STATUS_STATE p) 3 := by
    rw [State.tmuSlave, hregs.unit.1, hpartner]; rfl
  have hexec := tmuArm_start hidle hbad hheld hslave
  generalize s.unitArmed u = w at *
  obtain ⟨_, hwstore, hwsrc, _⟩ := hregs.unit
  have hxtmu := State.modTmu_tmu w p (Tmu.slaved u)
  have hxonly := AcqOnly.modTmu w p (Tmu.slaved u)
  have hxrd := State.modTmu_rd w p (Tmu.slaved u)
  have hxregs := State.modTmu_regs w p (Tmu.slaved u)
  generalize w.modTmu p (Tmu.slaved u) = x at *
  have hapart (f : Fld) (hf : f.addr ≠ (F.TMU_STATUS_STATE p).addr) : (x.wr (F.TMU_STATUS_STATE p) 3).rd f = w.rd f := by
    rw [State.rd_wr_other _ _ _ _ (.inl hf), hxrd]
  have hgsrc := hapart (F.TMU_GATE_GSRC u) (by simp only [F.TMU_GATE_GSRC, F.TMU_STATUS_STATE]; omega)
  have hnot : ¬ (x.wr (F.TMU_STATUS_STATE p) 3).rd (F.TMU_GATE_GSRC u) ≤ 1 := by omega
  have hyonly : RegsOnly x (x.wr (F.TMU_STATUS_STATE p) 3) := RegsOnly.wr ..
  have hp : (x.wr (F.TMU_STATUS_STATE p) 3).acq.tmu[p] = (w.acq.tmu[p]).slaved u := by rw [State.wr_acq, hxtmu, upd_same]
  have hall := (honly.trans hxonly).trans hyonly.acq
  refine ⟨_, (hexec ?_).trans (congrArg Host.Outcome.next (if_neg hnot)), ?_, ?_, by rw [hp]; rfl, by rw [hp]; rfl, ?_, hall.bytes⟩
  · rw [State.on, hapart (F.TMU_CTRL_STORE u) (by simp only [F.TMU_CTRL_STORE, F.TMU_STATUS_STATE]; omega)]
    exact hwstore.trans hstore
  · rw [State.tmuState, State.wr_state_rd _ _ _ _ (by decide), if_neg hne, hxrd]; exact hstate
  · rw [State.tmuState, State.wr_state_rd _ _ _ _ (by decide), if_pos rfl]
  · exact ((hregs.mono (by simp)).andRegs hxregs).andWr (by simp)

theorem tmuArm_refused {u : Fin 32} {s : State} (hidle : s.tmuState u = 0) (hbad : s.tmuBad u = true) : Answers (.tmuArm u) s fun v =>
      v.tmuState u = 0 ∧ bitOf (v.rd (Ev.tmu u).bits) 3 = true ∧ EventOnly s v ∧ Quiet (evOut (Ev.tmu u)) s v := by
  have hu := u.isLt
  have harm : s.tmuArm u = s.event (Ev.tmu u) 3 := by rw [State.tmuArm, if_neg (not_not_intro hidle), if_pos hbad]
  have honly := s.event_event (Ev.tmu u) 3
  refine ⟨_, congrArg Host.Outcome.next harm, ?_, ?_, honly, Quiet.of_event honly (s.event_regs _ _)⟩
  · rw [State.tmuState, (s.event_regs (Ev.tmu u) 3).rd]
    · exact hidle
    · simp only [evOut, Ev.tmu, Ev.sch, F.SCH_UNCLAIMED_COUNT, F.TMU_STATUS_STATE, List.mem_cons, List.not_mem_nil, or_false]; omega
  · refine State.event_bit _ _ ?_ (by decide)
    simp only [Ev.tmu, occOut, Ev.sch, F.SCH_UNCLAIMED_COUNT, List.mem_cons, List.not_mem_nil, or_false]; omega

theorem tmuArm_held {u : Fin 32} {s : State} (hidle : s.tmuState u = 0) (hbad : s.tmuBad u = false) (hheld : s.tmuHeld u = true) :
    Answers (.tmuArm u) s fun v =>
      v.tmuState u = 4 ∧ v.acq.tmu[u] = { s.acq.tmu[u] with heldArm := true } ∧ (∀ k, k ≠ u → v.acq.tmu[k] = s.acq.tmu[k]) ∧
      v = { s with regs := v.regs, acq := v.acq } ∧ Quiet [(F.TMU_STATUS_STATE u).addr] s v := by
  have harm : s.tmuArm u = (s.modTmu u fun k => { k with heldArm := true }).wr (F.TMU_STATUS_STATE u) 4 := by
    rw [State.tmuArm, if_neg (not_not_intro hidle), if_neg (by rw [hbad]; decide), if_pos hheld]
  have hxtmu := State.modTmu_tmu s u fun k => { k with heldArm := true }
  have hxonly := AcqOnly.modTmu s u fun k => { k with heldArm := true }
  have hxregs := State.modTmu_regs s u fun k => { k with heldArm := true }
  generalize (s.modTmu u fun k => { k with heldArm := true }) = x at *
  have hall : AcqOnly s (x.wr (F.TMU_STATUS_STATE u) 4) := hxonly.trans (RegsOnly.wr ..).acq
  refine ⟨_, congrArg Host.Outcome.next harm, ?_, ?_, fun k hk => ?_, hall, ?_, hall.bytes⟩
  · rw [State.tmuState, State.wr_state_rd _ _ _ _ (by decide), if_pos rfl]
  · rw [State.wr_acq, hxtmu, upd_same]
  · rw [State.wr_acq, hxtmu, upd_other _ _ _ _ hk]
  · exact ((RegsSame.refl _ s).andRegs hxregs).andWr (by simp)

/-! ## Edges (R222, R225) -/

theorem State.stampOf_keeps {s : State} {u : Fin 32} (hhits : s.acq.hits[fin 36 u] ≠ []) (src index : Nat) (tick : Int) (code : Nat) :
    (s.stampOf u src index tick code).2 = s := by
  have hfine : s.fineOf (fin 36 u) code = (binFine s.acq.hits[fin 36 u] (code % 4096), s) := if_neg (by simpa using hhits)
  show (s.fineOf (fin 36 u) code).2 = s
  rw [hfine]

/-- A rising edge of an unblocked unit that takes rising edges and is no slave. -/
theorem tmuEdge_taken {u : Fin 32} {tick code : Nat} {late : Bool} {s : State} (hedge : s.rd (F.TMU_SRC_EDGE u) = 0)
    (hblocked : s.tmuBlocked u = false) (hmaster : s.acq.tmu[u].master = none) (hhits : s.acq.hits[fin 36 u] ≠ []) :
    exec (.tmuEdge u tick code true late) s = .next (s.takeEdge u u (s.edgeAt u tick code) true late) := by
  show execTmuEdge u tick code true late s = _
  rw [execTmuEdge, hedge, hblocked]
  have hm : (s.acq.tmu[u].master.map (fin 32)).getD u = u := by rw [hmaster]; rfl
  rw [hm]
  show Host.Outcome.next ((s.stampOf u (s.rd (F.TMU_SRC_SRC u)) (s.routeOf u) tick code).2.takeEdge u u (s.edgeAt u tick code) true late) = _
  rw [State.stampOf_keeps hhits]

/-- An edge counted in a unit's gate. -/
def Tmu.edge (g : Gate) (k : Tmu) : Tmu := { k with gate := some { g with edges := g.edges + 1 } }

/-- An edge within the dead time, counted as missed. -/
def Tmu.miss (k : Tmu) : Tmu := { k with gate := k.gate.map fun g => { g with missed := g.missed + 1 } }

/-- A stamp taken. -/
def Tmu.stamp (value : Nat) (x : Stamp) (k : Tmu) : Tmu :=
  { k with lastS := some value, gate := k.gate.map fun g => { g with stamps := g.stamps ++ [x] } }

theorem State.modTmu_modTmu (s : State) (u : Fin 32) (f g : Tmu → Tmu) : (s.modTmu u f).modTmu u g = s.modTmu u (g ∘ f) := by
  simp [State.modTmu, upd]

theorem State.takeEdge_own {s : State} {u : Fin 32} {g : Gate} {value : Nat} {rising late : Bool} (hgate : s.acq.tmu[u].gate = some g)
    (hlim : g.stamps.length < s.gateLimit u) : s.takeEdge u u value rising late =
      if inDead (s.modTmu u (Tmu.edge g)).acq.tmu[u].lastS value then
        (((s.modTmu u (Tmu.edge g)).incSat (F.TMU_MISSED_COUNT u)).event (Ev.tmu u) 2).modTmu u Tmu.miss
      else if g.edges % max 1 (s.rd (F.TMU_PRESCALE_N u)) ≠ 0 then s.modTmu u (Tmu.edge g)
      else ((s.modTmu u (Tmu.edge g)).modTmu u (Tmu.stamp value ⟨value, g.edges, !rising, s.unref⟩)).storeStamp u
          ⟨value, g.edges, !rising, s.unref⟩ false late := by
  rw [State.takeEdge, hgate]
  dsimp only
  rw [if_neg (by omega)]
  simp only [beq_self_eq_true, if_true, Bool.not_true]
  have hmerge := State.modTmu_modTmu (s.modTmu u (Tmu.edge g)) u (fun k => { k with lastS := some value }) fun k =>
    { k with gate := k.gate.map fun h => { h with stamps := h.stamps ++ [⟨value, g.edges, !rising, s.unref⟩] } }
  have hstamp : (s.modTmu u (Tmu.edge g)).modTmu u (Tmu.stamp value ⟨value, g.edges, !rising, s.unref⟩) = _ := hmerge.symm
  rw [hstamp]
  rfl

theorem State.storeStamp_off {s : State} {u : Fin 32} (h : s.on (F.TMU_CTRL_STORE u) = false) (x : Stamp) (partner late : Bool) :
    s.storeStamp u x partner late = s := by
  rw [State.storeStamp]
  dsimp only
  split
  · rfl
  · exact if_pos h

theorem tmuEdge_stamped {u : Fin 32} {tick code : Nat} {late : Bool} {g : Gate} {s : State} (hedge : s.rd (F.TMU_SRC_EDGE u) = 0)
    (hblocked : s.tmuBlocked u = false) (hmaster : s.acq.tmu[u].master = none) (hgate : s.acq.tmu[u].gate = some g)
    (hlim : g.stamps.length < s.gateLimit u) (hhits : s.acq.hits[fin 36 u] ≠ []) (hscale : g.edges % max 1 (s.rd (F.TMU_PRESCALE_N u)) = 0)
    (hstore : s.on (F.TMU_CTRL_STORE u) = false) (hdead : inDead s.acq.tmu[u].lastS (s.edgeAt u tick code) = false) :
    Answers (.tmuEdge u tick code true late) s fun v =>
      v.acq.tmu[u].lastS = some (s.edgeAt u tick code) ∧
      v.acq.tmu[u].gate = some { g with edges := g.edges + 1, stamps := g.stamps ++
        [⟨s.edgeAt u tick code, g.edges, false, s.unref⟩] } ∧
      (∀ k, k ≠ u → v.acq.tmu[k] = s.acq.tmu[k]) ∧ v = { s with acq := v.acq } := by
  generalize hvalue : s.edgeAt u tick code = value at *
  have hexec := tmuEdge_taken (tick := tick) (code := code) (late := late) hedge hblocked hmaster hhits
  have hlast : (s.modTmu u (Tmu.edge g)).acq.tmu[u].lastS = s.acq.tmu[u].lastS := by rw [State.modTmu_tmu, upd_same]; rfl
  rw [hvalue, State.takeEdge_own hgate hlim, hlast, if_neg (by rw [hdead]; decide), if_neg (not_not_intro hscale)] at hexec
  rw [State.storeStamp_off (s := (s.modTmu u (Tmu.edge g)).modTmu u (Tmu.stamp value ⟨value, g.edges, !true, s.unref⟩)) hstore] at hexec
  refine ⟨_, hexec, ?_, ?_, fun k hk => ?_, rfl⟩
  · rw [State.modTmu_tmu, upd_same, State.modTmu_tmu, upd_same]; rfl
  · rw [State.modTmu_tmu, upd_same, State.modTmu_tmu, upd_same]; rfl
  · rw [State.modTmu_tmu, upd_other _ _ _ _ hk, State.modTmu_tmu, upd_other _ _ _ _ hk]

theorem tmuEdge_skipped {u : Fin 32} {tick code : Nat} {late : Bool} {g : Gate} {s : State} (hedge : s.rd (F.TMU_SRC_EDGE u) = 0)
    (hblocked : s.tmuBlocked u = false) (hmaster : s.acq.tmu[u].master = none) (hgate : s.acq.tmu[u].gate = some g)
    (hlim : g.stamps.length < s.gateLimit u) (hhits : s.acq.hits[fin 36 u] ≠ []) (hscale : g.edges % max 1 (s.rd (F.TMU_PRESCALE_N u)) ≠ 0)
    (hdead : inDead s.acq.tmu[u].lastS (s.edgeAt u tick code) = false) :
    Answers (.tmuEdge u tick code true late) s fun v =>
      v.acq.tmu[u] = { s.acq.tmu[u] with gate := some { g with edges := g.edges + 1 } } ∧
      (∀ k, k ≠ u → v.acq.tmu[k] = s.acq.tmu[k]) ∧ v = { s with acq := v.acq } := by
  have hexec := tmuEdge_taken (tick := tick) (code := code) (late := late) hedge hblocked hmaster hhits
  have hlast : (s.modTmu u (Tmu.edge g)).acq.tmu[u].lastS = s.acq.tmu[u].lastS := by rw [State.modTmu_tmu, upd_same]; rfl
  rw [State.takeEdge_own hgate hlim, hlast, if_neg (by rw [hdead]; decide), if_pos hscale] at hexec
  refine ⟨_, hexec, ?_, fun k hk => ?_, rfl⟩
  · rw [State.modTmu_tmu, upd_same]; rfl
  · rw [State.modTmu_tmu, upd_other _ _ _ _ hk]

theorem tmuEdge_missed {u : Fin 32} {tick code : Nat} {late : Bool} {g : Gate} {s : State} (hedge : s.rd (F.TMU_SRC_EDGE u) = 0)
    (hblocked : s.tmuBlocked u = false) (hmaster : s.acq.tmu[u].master = none) (hgate : s.acq.tmu[u].gate = some g)
    (hlim : g.stamps.length < s.gateLimit u) (hhits : s.acq.hits[fin 36 u] ≠ [])
    (hdead : inDead s.acq.tmu[u].lastS (s.edgeAt u tick code) = true) :
    Answers (.tmuEdge u tick code true late) s fun v =>
      v.acq.tmu[u] = { s.acq.tmu[u] with gate := some { g with edges := g.edges + 1, missed := g.missed + 1 } } ∧
      v.rd (F.TMU_MISSED_COUNT u) = min (s.rd (F.TMU_MISSED_COUNT u) + 1) (2 ^ 32 - 1) ∧ bitOf (v.rd (Ev.tmu u).bits) 2 = true ∧
      (∀ k, k ≠ u → v.acq.tmu[k] = s.acq.tmu[k]) ∧ v = { s with regs := v.regs, hq := v.hq, sched := v.sched, acq := v.acq } ∧
      Quiet ((F.TMU_MISSED_COUNT u).addr :: evOut (Ev.tmu u)) s v := by
  have hu := u.isLt
  have hexec := tmuEdge_taken (tick := tick) (code := code) (late := late) hedge hblocked hmaster hhits
  have hlast : (s.modTmu u (Tmu.edge g)).acq.tmu[u].lastS = s.acq.tmu[u].lastS := by rw [State.modTmu_tmu, upd_same]; rfl
  rw [State.takeEdge_own hgate hlim, hlast, if_pos hdead] at hexec
  have hxtmu := State.modTmu_tmu s u (Tmu.edge g)
  have hxonly := AcqOnly.modTmu s u (Tmu.edge g)
  have hxrd := State.modTmu_rd s u (Tmu.edge g)
  have hxregs := State.modTmu_regs s u (Tmu.edge g)
  generalize s.modTmu u (Tmu.edge g) = x at *
  have hcount := x.rd_incSat (F.TMU_MISSED_COUNT u) (by simp [F.TMU_MISSED_COUNT])
  have hyonly : RegsOnly x (x.incSat (F.TMU_MISSED_COUNT u)) := RegsOnly.wr ..
  have hyregs : RegsSame [(F.TMU_MISSED_COUNT u).addr] x (x.incSat (F.TMU_MISSED_COUNT u)) := (RegsSame.refl _ x).andWr (List.mem_singleton.mpr rfl)
  generalize x.incSat (F.TMU_MISSED_COUNT u) = y at *
  have hzonly := y.event_event (Ev.tmu u) 2
  have hzregs := y.event_regs (Ev.tmu u) 2
  have hbit := State.event_bit y (Ev.tmu u) (i := 2)
    (by simp only [Ev.tmu, occOut, Ev.sch, F.SCH_UNCLAIMED_COUNT, List.mem_cons, List.not_mem_nil, or_false]; omega) (by decide)
  generalize y.event (Ev.tmu u) 2 = z at *
  have hztmu : z.acq.tmu = upd s.acq.tmu u (Tmu.edge g) := by rw [hzonly, hyonly, hxtmu]
  have hzrd : z.rd (F.TMU_MISSED_COUNT u) = min (s.rd (F.TMU_MISSED_COUNT u) + 1) (2 ^ 32 - 1) := by
    rw [hzregs.rd, hcount, hxrd]
    · rfl
    · simp only [evOut, Ev.tmu, Ev.sch, F.SCH_UNCLAIMED_COUNT, F.TMU_MISSED_COUNT, List.mem_cons, List.not_mem_nil, or_false]; omega
  have hzall : z = { s with regs := z.regs, hq := z.hq, sched := z.sched, acq := z.acq } := by rw [hzonly, hyonly, hxonly]
  have hzquiet : Quiet ((F.TMU_MISSED_COUNT u).addr :: evOut (Ev.tmu u)) s z := by
    refine ⟨?_, by rw [hzall]; exact .of_eq rfl rfl rfl rfl⟩
    exact (((RegsSame.refl _ s).andRegs hxregs).trans (hyregs.mono (by simp))).trans (hzregs.mono fun _ h => List.mem_cons_of_mem _ h)
  have hvtmu := State.modTmu_tmu z u Tmu.miss
  have hvonly := AcqOnly.modTmu z u Tmu.miss
  have hvrd := State.modTmu_rd z u Tmu.miss
  have hvregs := State.modTmu_regs z u Tmu.miss
  generalize z.modTmu u Tmu.miss = v at *
  have hall : v = { s with regs := v.regs, hq := v.hq, sched := v.sched, acq := v.acq } := by rw [hvonly, hzall]
  refine ⟨v, hexec, ?_, by rw [hvrd, hzrd], by rw [hvrd, hbit], fun k hk => ?_, hall, hzquiet.1.andRegs hvregs, ?_⟩
  · rw [hvtmu, upd_same, hztmu, upd_same]; rfl
  · rw [hvtmu, upd_other _ _ _ _ hk, hztmu, upd_other _ _ _ _ hk]
  · rw [hall]; exact .of_eq rfl rfl rfl rfl

end Sys2Proof.Machine

open Sys2Proof Sys2Proof.Machine

/-- Settles O25: by what an arm, the end of a gate and an edge find in the unit. -/
theorem unitGates : Obligations.UnitGates := by
  unfold Obligations.UnitGates
  refine ⟨fun _ _ hidle hbad hheld hstore hpartner hsrc => tmuArm_waits hidle hbad hheld hstore hpartner hsrc,
    fun _ _ hidle hbad hheld hstore hpartner hsrc => tmuArm_opens hidle hbad hheld hstore hpartner hsrc,
    fun _ _ _ hidle hbad hheld hstore hpartner hsrc => tmuArm_slaves hidle hbad hheld hstore hpartner hsrc,
    fun _ _ hidle hbad => tmuArm_refused hidle hbad, fun _ _ hidle hbad hheld => tmuArm_held hidle hbad hheld,
    fun _ _ hmaster hgate => tmuDisarm_idle hmaster hgate, fun _ _ _ hmaster hgate => tmuDisarm_cuts hmaster hgate,
    fun u g s hgate hcont => ⟨_, rfl, State.closeGate_last hgate (.inr hcont) rfl⟩, fun u s hgate => ⟨?_, ?_⟩,
    fun _ _ _ hgate hcont hsrc hus hlen => tmuGate_expires hgate hcont hsrc hus hlen,
    fun _ _ hstate hsrc hdue hstore hpartner => tmuGateOpen_burst hstate hsrc hdue hstore hpartner, fun u s h => if_neg fun hc => h hc.1,
    fun _ _ _ _ _ _ hedge hb hm hg hlim hh hsc hst hd => tmuEdge_stamped hedge hb hm hg hlim hh hsc hst hd,
    fun _ _ _ _ _ _ hedge hb hm hg hlim hh hsc hd => tmuEdge_skipped hedge hb hm hg hlim hh hsc hd,
    fun _ _ _ _ _ _ hedge hb hm hg hlim hh hd => tmuEdge_missed hedge hb hm hg hlim hh hd, fun u tick code late s hedge => ?_⟩
  · show Host.Outcome.next (s.closeGate u false false) = _
    rw [State.closeGate, hgate]
  · show execTmuGateExpiry u s = _
    rw [execTmuGateExpiry, hgate]
  · show execTmuEdge u tick code false late s = _
    rw [execTmuEdge, hedge]
    exact if_pos (by simp)
end

section
/-! Results of the measurement units and the tables of their interpolators (R225, R228, R229, R233 to R235), which settle O26. -/

set_option Elab.async false

namespace Sys2Proof.Machine

/-! ## Bits of masks -/

theorem and_mod_two_le (n m : Nat) : (n &&& m) % 2 ≤ n % 2 := by
  have := Nat.testBit_and n m 0
  simp only [Nat.testBit_zero] at this
  by_cases h : (n &&& m) % 2 = 1
  · rw [h]; simp [h] at this; omega
  · omega

/-- A mask without another has the bits that the other lacks. -/
theorem bitOf_without (n m k : Nat) : bitOf (without n m) k = (bitOf n k && !bitOf m k) := by
  simp only [bitOf, without]
  induction k generalizing n m with
  | zero =>
    have hle : n &&& m ≤ n := Nat.and_le_left
    have hmod := and_mod_two_le n m
    have hand := Nat.testBit_and n m 0
    simp only [Nat.testBit_zero] at hand ⊢
    rw [← Bool.decide_and, decide_eq_decide] at hand
    rw [← decide_not, ← Bool.decide_and, decide_eq_decide]
    omega
  | succ k ih =>
    have hle : n &&& m ≤ n := Nat.and_le_left
    have hmod := and_mod_two_le n m
    have hdiv : (n - (n &&& m)) / 2 = n / 2 - (n / 2 &&& m / 2) := by
      rw [← Nat.and_div_two]; omega
    rw [Nat.testBit_succ, Nat.testBit_succ, Nat.testBit_succ, hdiv, ih]

theorem bitOf_without_self (n k : Nat) : bitOf (without n (2 ^ k)) k = false := by
  rw [bitOf_without]; simp [bitOf, Nat.testBit_two_pow_self]

theorem bitOf_two_pow_other {k i : Nat} (h : i ≠ k) : bitOf (2 ^ k) i = false := by
  simp only [bitOf]; exact Nat.testBit_two_pow_of_ne (Ne.symm h)

theorem bitOf_without_other (n : Nat) {k i : Nat} (h : i ≠ k) : bitOf (without n (2 ^ k)) i = bitOf n i := by
  rw [bitOf_without, bitOf_two_pow_other h]; simp

theorem bitOf_or_self (n k : Nat) : bitOf (n ||| 2 ^ k) k = true := by
  simp [bitOf, Nat.testBit_two_pow_self]

theorem bitOf_or_other (n : Nat) {k i : Nat} (h : i ≠ k) : bitOf (n ||| 2 ^ k) i = bitOf n i := by
  have := bitOf_two_pow_other h
  simp only [bitOf, Nat.testBit_or] at this ⊢
  rw [this, Bool.or_false]

/-! ## Pairs of registers -/

theorem State.rd_wrP_apart (s : State) {f g : Fld} (v : Nat) (hlo : g.addr ≠ f.addr) (hhi : g.addr ≠ f.addr + 4) : (s.wrP f v).rd g = s.rd g := by
  rw [State.wrP, State.rd_wr_other _ _ _ _ (.inl hhi), State.rd_wr_other _ _ _ _ (.inl hlo)]

theorem State.rdP_wrP_apart (s : State) {f g : Fld} (v : Nat) (h : g.addr + 4 < f.addr ∨ f.addr + 4 < g.addr) : (s.wrP f v).rdP g = s.rdP g := by
  rw [State.rdP, State.rdP, State.rd_wrP_apart _ _ (by omega) (by omega), State.rd_wrP_apart _ _ (by simp only [Fld.hi]; omega) (by simp only [Fld.hi]; omega)]

theorem zx_lt (w : Nat) (i : Int) : zx w i < 2 ^ w := by
  have hpos : (0 : Int) < 2 ^ w := by positivity
  have h0 := Int.emod_nonneg i hpos.ne'
  have h1 := Int.emod_lt_of_pos i hpos
  rw [zx]
  zify
  rwa [Int.toNat_of_nonneg h0]

/-! ## Results (R225, R228) -/

/-- The result registers of a unit. -/
def resOut (u : Fin 32) : List Nat := (List.range 12).map fun i => (F.TMU_RES_COUNT_COUNT u).addr + 4 * i

theorem mem_resOut (u : Fin 32) {a : Nat} (i : Nat) (hi : i < 12) (h : a = 0x78044 + 0x80 * u + 4 * i) : a ∈ resOut u :=
  List.mem_map.mpr ⟨i, List.mem_range.mpr hi, h.symm⟩

/-- The register of the count of a gate's results and its flags. -/
def State.resFlags (s : State) (u : Fin 32) (g : Gate) : State :=
  s.wrs [(F.TMU_RES_COUNT_COUNT u, (gateResults g.window g).count), (F.TMU_RES_COUNT_FULL_GATE u, b2n g.full),
    (F.TMU_RES_COUNT_TRUNCATED u, b2n g.cut), (F.TMU_RES_COUNT_UNREF u, b2n ((g.stamps ++ g.partner).any (·.unref))),
    (F.TMU_RES_COUNT_STALE u, b2n g.stale), (F.TMU_RES_UNMATCHED_COUNT u, (gateResults g.window g).unmatched)]

/-- The result registers of a gate. -/
def State.resShown (s : State) (u : Fin 32) (g : Gate) : State :=
  (((((s.resFlags u g).wrP (F.TMU_RES_MEAN_LO_VALUE u) (zx 64 (gateResults g.window g).mean)).wrP
    (F.TMU_RES_SDEV_LO_VALUE u) (gateResults g.window g).sdev).wrP (F.TMU_RES_MIN_LO_VALUE u) (zx 64 (gateResults g.window g).min)).wrP
    (F.TMU_RES_MAX_LO_VALUE u) (zx 64 (gateResults g.window g).max)).wrP (F.TMU_RES_FREQ_LO_VALUE u) (gateResults g.window g).freq

theorem State.resFlags_rd (s : State) (u : Fin 32) (g : Gate) :
    (s.resFlags u g).rd (F.TMU_RES_COUNT_COUNT u) = (gateResults g.window g).count % 2 ^ 21 ∧
    (s.resFlags u g).rd (F.TMU_RES_COUNT_FULL_GATE u) = b2n g.full ∧ (s.resFlags u g).rd (F.TMU_RES_COUNT_TRUNCATED u) = b2n g.cut := by
  have hb (b : Bool) : b2n b % 2 ^ 1 = b2n b := by cases b <;> rfl
  have hstale (x : State) (v : Nat) {f : Fld} (hf : f.lsb + f.width ≤ 27) : (x.wr (F.TMU_RES_COUNT_STALE u) v).rd f = x.rd f :=
    State.rd_wr_apart _ _ _ _ (by simp [F.TMU_RES_COUNT_STALE]) (.inr (.inr (by simp [F.TMU_RES_COUNT_STALE]; omega)))
  have hunref (x : State) (v : Nat) {f : Fld} (hf : f.lsb + f.width ≤ 26) : (x.wr (F.TMU_RES_COUNT_UNREF u) v).rd f = x.rd f :=
    State.rd_wr_apart _ _ _ _ (by simp [F.TMU_RES_COUNT_UNREF]) (.inr (.inr (by simp [F.TMU_RES_COUNT_UNREF]; omega)))
  have hmatch (x : State) (v : Nat) {f : Fld} (hf : f.addr = 0x78044 + 0x80 * u) : (x.wr (F.TMU_RES_UNMATCHED_COUNT u) v).rd f = x.rd f :=
    State.rd_wr_other _ _ _ _ (.inl (by rw [hf]; simp [F.TMU_RES_UNMATCHED_COUNT]))
  simp only [State.resFlags, State.wrs, List.foldl_cons, List.foldl_nil]
  refine ⟨?_, ?_, ?_⟩
  · rw [hmatch _ _ rfl, hstale _ _ (by simp [F.TMU_RES_COUNT_COUNT]), hunref _ _ (by simp [F.TMU_RES_COUNT_COUNT]),
      State.rd_wr_apart _ _ _ _ (by simp [F.TMU_RES_COUNT_TRUNCATED]) (by simp [Fld.apart, F.TMU_RES_COUNT_TRUNCATED, F.TMU_RES_COUNT_COUNT]),
      State.rd_wr_apart _ _ _ _ (by simp [F.TMU_RES_COUNT_FULL_GATE]) (by simp [Fld.apart, F.TMU_RES_COUNT_FULL_GATE, F.TMU_RES_COUNT_COUNT])]
    exact State.rd_wr_same _ _ _ (by simp [F.TMU_RES_COUNT_COUNT])
  · rw [hmatch _ _ rfl, hstale _ _ (by simp [F.TMU_RES_COUNT_FULL_GATE]), hunref _ _ (by simp [F.TMU_RES_COUNT_FULL_GATE]),
      State.rd_wr_apart _ _ _ _ (by simp [F.TMU_RES_COUNT_TRUNCATED]) (by simp [Fld.apart, F.TMU_RES_COUNT_TRUNCATED, F.TMU_RES_COUNT_FULL_GATE]),
      State.rd_wr_same _ _ _ (by simp [F.TMU_RES_COUNT_FULL_GATE])]
    exact hb _
  · rw [hmatch _ _ rfl, hstale _ _ (by simp [F.TMU_RES_COUNT_TRUNCATED]), hunref _ _ (by simp [F.TMU_RES_COUNT_TRUNCATED]),
      State.rd_wr_same _ _ _ (by simp [F.TMU_RES_COUNT_TRUNCATED])]
    exact hb _

theorem State.resFlags_regs (s : State) (u : Fin 32) (g : Gate) : RegsSame (resOut u) s (s.resFlags u g) := by
  refine RegsSame.wrs _ _ ?_
  have h0 : (F.TMU_RES_COUNT_COUNT u).addr ∈ resOut u := mem_resOut u 0 (by decide) rfl
  have h11 : (F.TMU_RES_UNMATCHED_COUNT u).addr ∈ resOut u := mem_resOut u 11 (by decide) (by simp only [F.TMU_RES_UNMATCHED_COUNT]; omega)
  simp only [List.forall_mem_cons]
  exact ⟨h0, h0, h0, h0, h0, h11, fun _ h => absurd h List.not_mem_nil⟩

theorem State.resShown_keeps (s : State) (u : Fin 32) (g : Gate) {v : State} (hv : s.resShown u g = v) :
    v.rd (F.TMU_RES_COUNT_COUNT u) = (gateResults g.window g).count % 2 ^ 21 ∧
    v.rdP (F.TMU_RES_MEAN_LO_VALUE u) = zx 64 (gateResults g.window g).mean ∧
    v.rdP (F.TMU_RES_MIN_LO_VALUE u) = zx 64 (gateResults g.window g).min ∧
    v.rdP (F.TMU_RES_MAX_LO_VALUE u) = zx 64 (gateResults g.window g).max ∧
    v.rd (F.TMU_RES_COUNT_TRUNCATED u) = b2n g.cut ∧ v.rd (F.TMU_RES_COUNT_FULL_GATE u) = b2n g.full ∧
    RegsOnly s v ∧ RegsSame (resOut u) s v := by
  obtain ⟨hcount, hfull, hcut⟩ := s.resFlags_rd u g
  have hregs := s.resFlags_regs u g
  have honly : RegsOnly s (s.resFlags u g) := RegsOnly.wrs ..
  rw [State.resShown] at hv
  generalize s.resFlags u g = w at *
  have hflags (f : Fld) (hf : f.addr = (F.TMU_RES_COUNT_COUNT u).addr) : v.rd f = w.rd f := by
    rw [← hv]
    rw [State.rd_wrP_apart, State.rd_wrP_apart, State.rd_wrP_apart, State.rd_wrP_apart, State.rd_wrP_apart]
    all_goals
      rw [hf]
      simp [F.TMU_RES_COUNT_COUNT, F.TMU_RES_MEAN_LO_VALUE, F.TMU_RES_SDEV_LO_VALUE, F.TMU_RES_MIN_LO_VALUE, F.TMU_RES_MAX_LO_VALUE,
        F.TMU_RES_FREQ_LO_VALUE] <;> omega
  have hfit (i : Int) : zx 64 i % 2 ^ 64 = zx 64 i := Nat.mod_eq_of_lt (zx_lt 64 i)
  have hpair {f : Fld} {lo : Nat} (i : Nat) (hi : i + 1 < 12) (h : f.addr = 0x78044 + 0x80 * u + 4 * i) :
      f.addr ∈ resOut u ∧ f.addr + 4 ∈ resOut u := ⟨mem_resOut u i (by omega) h, mem_resOut u (i + 1) hi (by omega)⟩
  refine ⟨(hflags _ rfl).trans hcount, ?_, ?_, ?_, (hflags (F.TMU_RES_COUNT_TRUNCATED u) rfl).trans hcut, (hflags (F.TMU_RES_COUNT_FULL_GATE u) rfl).trans hfull, ?_, ?_⟩
  · rw [← hv, State.rdP_wrP_apart, State.rdP_wrP_apart, State.rdP_wrP_apart, State.rdP_wrP_apart, State.rdP_wrP_mod _ _ rfl rfl, hfit]
    all_goals simp [F.TMU_RES_MEAN_LO_VALUE, F.TMU_RES_SDEV_LO_VALUE, F.TMU_RES_MIN_LO_VALUE, F.TMU_RES_MAX_LO_VALUE, F.TMU_RES_FREQ_LO_VALUE] <;> omega
  · rw [← hv, State.rdP_wrP_apart, State.rdP_wrP_apart, State.rdP_wrP_mod _ _ rfl rfl, hfit]
    all_goals simp [F.TMU_RES_MIN_LO_VALUE, F.TMU_RES_MAX_LO_VALUE, F.TMU_RES_FREQ_LO_VALUE] <;> omega
  · rw [← hv, State.rdP_wrP_apart, State.rdP_wrP_mod _ _ rfl rfl, hfit]
    simp [F.TMU_RES_MAX_LO_VALUE, F.TMU_RES_FREQ_LO_VALUE]; omega
  · rw [← hv]
    exact ((((honly.trans (RegsOnly.wrP ..)).trans (RegsOnly.wrP ..)).trans (RegsOnly.wrP ..)).trans (RegsOnly.wrP ..)).trans (RegsOnly.wrP ..)
  · rw [← hv]
    have hmean := @hpair (F.TMU_RES_MEAN_LO_VALUE u) 0 1 (by decide) (by simp only [F.TMU_RES_MEAN_LO_VALUE]; omega)
    have hsdev := @hpair (F.TMU_RES_SDEV_LO_VALUE u) 0 3 (by decide) (by simp only [F.TMU_RES_SDEV_LO_VALUE]; omega)
    have hmin := @hpair (F.TMU_RES_MIN_LO_VALUE u) 0 5 (by decide) (by simp only [F.TMU_RES_MIN_LO_VALUE]; omega)
    have hmax := @hpair (F.TMU_RES_MAX_LO_VALUE u) 0 7 (by decide) (by simp only [F.TMU_RES_MAX_LO_VALUE]; omega)
    have hfreq := @hpair (F.TMU_RES_FREQ_LO_VALUE u) 0 9 (by decide) (by simp only [F.TMU_RES_FREQ_LO_VALUE]; omega)
    exact ((((hregs.andWrP hmean.1 hmean.2).andWrP hsdev.1 hsdev.2).andWrP hmin.1 hmin.2).andWrP hmax.1 hmax.2).andWrP hfreq.1 hfreq.2

/-- The oldest closed gate leaves the unit. -/
def Tmu.popGate (k : Tmu) : Tmu := { k with closed := k.closed.tail }

/-- A gate without a block, or whose block the frozen store does not get, only shows its results. -/
theorem State.gateFinal_eq {s : State} {u : Fin 32} {g : Gate} (h : g.block = none ∨ s.flt.frozen = true) :
    s.gateFinal u g = ((s.resShown u g).modTmu u Tmu.popGate).event (Ev.tmu u) 0 := by
  have hstore : (match g.block, (s.resShown u g).acq.tmu[u].place with
      | some (off, n), some p => if (s.resShown u g).flt.frozen then s.resShown u g
        else ((s.resShown u g).writeRing p off (blockHeader u g (gateResults g.window g))).modTmu u fun k => { k with blocks := k.blocks ++ [n] }
      | _, _ => s.resShown u g) = s.resShown u g := by
    have hfrozen : (s.resShown u g).flt = s.flt := by rw [(s.resShown_keeps u g rfl).2.2.2.2.2.2.1]
    split
    next hb hp =>
      rcases h with h | h
      · rw [h] at hb; exact absurd hb (by simp)
      · exact if_pos (by rw [hfrozen]; exact h)
    · rfl
  exact congrArg (fun x : State => (x.modTmu u Tmu.popGate).event (Ev.tmu u) 0) hstore

theorem State.gateFinal_keeps {s v : State} {u : Fin 32} {g : Gate} {rest : List Gate} (hclosed : s.acq.tmu[u].closed = g :: rest)
    (h : g.block = none ∨ s.flt.frozen = true) (hv : s.gateFinal u g = v) :
    v.rd (F.TMU_RES_COUNT_COUNT u) = (gateResults g.window g).count % 2 ^ 21 ∧
    v.rdP (F.TMU_RES_MEAN_LO_VALUE u) = zx 64 (gateResults g.window g).mean ∧
    v.rdP (F.TMU_RES_MIN_LO_VALUE u) = zx 64 (gateResults g.window g).min ∧
    v.rdP (F.TMU_RES_MAX_LO_VALUE u) = zx 64 (gateResults g.window g).max ∧
    v.rd (F.TMU_RES_COUNT_TRUNCATED u) = b2n g.cut ∧ v.rd (F.TMU_RES_COUNT_FULL_GATE u) = b2n g.full ∧
    v.acq.tmu[u] = { s.acq.tmu[u] with closed := rest } ∧ bitOf (v.rd (Ev.tmu u).bits) 0 = true ∧
    (∀ k, k ≠ u → v.acq.tmu[k] = s.acq.tmu[k]) ∧ v = { s with regs := v.regs, hq := v.hq, sched := v.sched, acq := v.acq } ∧
    Quiet (resOut u ++ evOut (Ev.tmu u)) s v := by
  have hu := u.isLt
  rw [State.gateFinal_eq h] at hv
  obtain ⟨hcount, hmean, hmin, hmax, hcut, hfull, honly, hregs⟩ := s.resShown_keeps u g rfl
  generalize s.resShown u g = w at *
  have hxtmu := State.modTmu_tmu w u Tmu.popGate
  have hxonly := AcqOnly.modTmu w u Tmu.popGate
  have hxrd := State.modTmu_rd w u Tmu.popGate
  have hxregs := State.modTmu_regs w u Tmu.popGate
  generalize w.modTmu u Tmu.popGate = x at *
  have hvonly := x.event_event (Ev.tmu u) 0
  have hvregs := x.event_regs (Ev.tmu u) 0
  have hbit := State.event_bit x (Ev.tmu u) (i := 0)
    (by simp only [Ev.tmu, occOut, Ev.sch, F.SCH_UNCLAIMED_COUNT, List.mem_cons, List.not_mem_nil, or_false]; omega) (by decide)
  rw [hv] at hvonly hvregs hbit
  have hvtmu : v.acq.tmu = upd s.acq.tmu u Tmu.popGate := by rw [hvonly, hxtmu, honly]
  have hnot {a : Nat} (i : Nat) (hi : i < 12) (ha : a = 0x78044 + 0x80 * u + 4 * i) : a ∉ evOut (Ev.tmu u) := by
    simp only [evOut, Ev.tmu, Ev.sch, F.SCH_UNCLAIMED_COUNT, List.mem_cons, List.not_mem_nil, or_false]; omega
  have hrd (f : Fld) (hf : f.addr = 0x78044 + 0x80 * u) : v.rd f = w.rd f := by
    rw [hvregs.rd f (hnot 0 (by decide) hf), hxrd]
  have hrdP {f : Fld} (i : Nat) (hi : i + 1 < 12) (hf : f.addr = 0x78044 + 0x80 * u + 4 * i) : v.rdP f = w.rdP f := by
    rw [hvregs.rdP f (hnot i (by omega) hf) (hnot (i + 1) hi (by omega)), State.rdP, State.rdP, hxrd, hxrd]
  have hall : v = { s with regs := v.regs, hq := v.hq, sched := v.sched, acq := v.acq } := by rw [hvonly, hxonly, honly]
  refine ⟨(hrd _ rfl).trans hcount, ?_, ?_, ?_, (hrd (F.TMU_RES_COUNT_TRUNCATED u) rfl).trans hcut, (hrd (F.TMU_RES_COUNT_FULL_GATE u) rfl).trans hfull, ?_, hbit, fun k hk => ?_, hall, ?_, ?_⟩
  · rw [hrdP 1 (by decide) (by simp only [F.TMU_RES_MEAN_LO_VALUE]; omega), hmean]
  · rw [hrdP 5 (by decide) (by simp only [F.TMU_RES_MIN_LO_VALUE]; omega), hmin]
  · rw [hrdP 7 (by decide) (by simp only [F.TMU_RES_MAX_LO_VALUE]; omega), hmax]
  · rw [hvtmu, upd_same, Tmu.popGate, hclosed]; rfl
  · rw [hvtmu, upd_other _ _ _ _ hk]
  · exact ((hregs.mono fun _ h => List.mem_append_left _ h).andRegs hxregs).trans (hvregs.mono fun _ h => List.mem_append_right _ h)
  · rw [hall]; exact .of_eq rfl rfl rfl rfl

theorem tmuResults_final {u : Fin 32} {g : Gate} {rest : List Gate} {s : State} (hclosed : s.acq.tmu[u].closed = g :: rest) :
    exec (.tmuResultsFinal u) s = .next (s.gateFinal u g) := by
  show execTmuResultsFinal u s = _
  rw [execTmuResultsFinal, hclosed]

/-! ## Reading (R228, R229) -/

theorem tmuBinData_answers (req : Req) (s : State) : Answers (.tmuBinDataRead req) s fun v =>
      v.hq.answer = [s.binWord] ∧ v.rd F.TMU_BIN_SEL_CODE = (s.rd F.TMU_BIN_SEL_CODE + 1) % 2 ^ 12 ∧
      v.rd F.TMU_BIN_SEL_UNIT = s.rd F.TMU_BIN_SEL_UNIT ∧ v = { s with regs := v.regs, hq := { s.hq with answer := v.hq.answer } } ∧
      Quiet [(F.TMU_BIN_SEL_CODE).addr] s v := by
  refine ⟨_, rfl, rfl, State.rd_wr_same _ _ _ (by decide), State.rd_wr_apart _ _ _ _ (by decide) (by decide), rfl, ?_⟩
  exact (Quiet.andSame (Quiet.refl _ s) rfl rfl rfl rfl rfl).andWr (List.mem_singleton.mpr rfl)

/-! ## Tables (R233 to R235) -/

theorem codeDensity_begins {unit : Nat} {s : State} (hunit : unit < 36) (hdue : bitOf s.acq.calDue unit = true) (hidle : s.unitIdle unit = true)
    (hrun : s.cal.run = none) : Answers (.codeDensityCalibration unit) s fun v =>
      bitOf v.acq.calRun unit = true ∧ bitOf v.acq.calDue unit = false ∧ v.rd F.TMU_GSTATUS_CAL_RUN = 1 ∧
      (∀ k, k ≠ unit → bitOf v.acq.calRun k = bitOf s.acq.calRun k ∧ bitOf v.acq.calDue k = bitOf s.acq.calDue k) ∧
      v = { s with regs := v.regs, acq := { s.acq with calRun := v.acq.calRun, calDue := v.acq.calDue } } ∧
      Quiet [(F.TMU_GSTATUS_CAL_RUN).addr] s v := by
  refine ⟨_, if_pos ⟨hunit, hdue, hidle, by rw [hrun]; rfl⟩, bitOf_or_self .., bitOf_without_self .., State.rd_wr_fit _ _ _ (by decide) (by decide),
    fun k hk => ⟨bitOf_or_other _ hk, bitOf_without_other _ hk⟩, rfl, ?_⟩
  exact (Quiet.andSame (Quiet.refl _ s) rfl rfl rfl rfl rfl).andWr (List.mem_singleton.mpr rfl)

theorem drift_makes_due {unit : Nat} {s : State} (hunit : unit < 36) (hauto : s.on F.TMU_GCTRL_AUTO_RECAL = true)
    (hdrift : 160 ≤ s.power.drift[fin 36 unit]) (htemp : 48 < (s.tdec - s.rdS (calTempOf unit)).natAbs) : Answers (.driftQualified unit) s fun v =>
      bitOf v.acq.calDue unit = true ∧ (∀ k, k ≠ unit → bitOf v.acq.calDue k = bitOf s.acq.calDue k) ∧
      v = { s with acq := { s.acq with calDue := v.acq.calDue } } := by
  have hdrifted : s.drifted unit = true := by rw [State.drifted, State.tempOff, decide_eq_true hdrift, decide_eq_true htemp]; rfl
  exact ⟨_, if_pos ⟨hunit, hauto, hdrifted⟩, bitOf_or_self .., fun k hk => bitOf_or_other _ hk, rfl⟩

/-- The registers that noting a measured table can change. -/
def measuredOut : List Nat :=
  [(F.CAL_GRP_STAT_STATE gTMU).addr, (F.CAL_GRP_TIME_LO_TIME gTMU).addr, (F.CAL_GRP_TIME_LO_TIME gTMU).addr + 4, (F.CAL_GRP_TEMP_TEMP gTMU).addr,
    (F.CAL_COUNT_COUNT).addr] ++ evOut Ev.cal ++ evOut Ev.tmuG

/-- A measured table is noted in its unit and group, counted and reported. -/
def State.tableNoted (s : State) (u st : Nat) (stale : Bool) : State :=
  (((s.setUnit gTMU u st).groupMeasured gTMU).countRun stale).event Ev.tmuG 0

theorem State.groupMeasured_keeps (s : State) : RegsOnly s (s.groupMeasured gTMU) ∧ RegsSame measuredOut s (s.groupMeasured gTMU) := by
  rw [State.groupMeasured]
  generalize s.calTime = p
  obtain ⟨t, base⟩ := p
  have hnote : RegsOnly s (s.noteGroup gTMU) := RegsOnly.wrs ..
  have hregs : RegsSame measuredOut s (s.noteGroup gTMU) := RegsSame.wrs _ _ (by
    simp only [List.forall_mem_cons]; exact ⟨by decide, by decide, fun _ h => absurd h List.not_mem_nil⟩)
  dsimp only
  generalize s.noteGroup gTMU = x at *
  have hpair : RegsSame measuredOut s (x.wrP (F.CAL_GRP_TIME_LO_TIME gTMU) t) := hregs.andWrP (by decide) (by decide)
  have hpairOnly : RegsOnly s (x.wrP (F.CAL_GRP_TIME_LO_TIME gTMU) t) := hnote.trans (RegsOnly.wrP ..)
  generalize x.wrP (F.CAL_GRP_TIME_LO_TIME gTMU) t = y at *
  have hlist : RegsSame measuredOut s (y.wrs [(F.CAL_GRP_STAT_BASE gTMU, base), (F.CAL_GRP_TEMP_TEMP gTMU, zx 16 s.tdec)]) :=
    hpair.andWrs (by simp only [List.forall_mem_cons]; exact ⟨by decide, by decide, fun _ h => absurd h List.not_mem_nil⟩)
  exact ⟨(hpairOnly.trans (RegsOnly.wrs ..)).trans (RegsOnly.wr ..), hlist.andWr (by decide)⟩

theorem State.tableNoted_keeps (s : State) (u st : Nat) (stale : Bool) {v : State} (hv : s.tableNoted u st stale = v) :
    v.acq = s.acq ∧ v.power = s.power ∧ v.cal.queue = s.cal.queue ∧ bitOf (v.rd Ev.tmuG.bits) 0 = true ∧
    v.rd Ev.tmuG.bits = (s.rd Ev.tmuG.bits ||| 1) % 2 ^ 32 ∧ Quiet measuredOut s v := by
  rw [State.tableNoted] at hv
  have hsub : ∀ a ∈ evOut Ev.tmuG, a ∈ measuredOut := fun _ h => List.mem_append_right _ h
  have hsubCal : ∀ a ∈ evOut Ev.cal, a ∈ measuredOut := fun _ h => List.mem_append_left _ (List.mem_append_right _ h)
  have hset : s.setUnit gTMU u st = { s with cal := (s.setUnit gTMU u st).cal } ∧ (s.setUnit gTMU u st).cal.queue = s.cal.queue ∧
      RegsSame measuredOut s (s.setUnit gTMU u st) := ⟨rfl, rfl, (RegsSame.refl _ s).andRegs rfl⟩
  have hsetBits : (s.setUnit gTMU u st).rd Ev.tmuG.bits = s.rd Ev.tmuG.bits := State.rd_of_regs rfl _
  generalize s.setUnit gTMU u st = w at *
  obtain ⟨hwonly, hwqueue, hwregs⟩ := hset
  obtain ⟨hgonly, hgregs⟩ := w.groupMeasured_keeps
  have hgbits : (w.groupMeasured gTMU).rd Ev.tmuG.bits = w.rd Ev.tmuG.bits := by
    rw [State.groupMeasured]
    generalize w.calTime = p
    obtain ⟨t, base⟩ := p
    simp only [State.incWrap, State.noteGroup, State.wrP, State.wrs, List.foldl_cons, List.foldl_nil]
    simp (disch := decide) only [State.rd_wr_apart]
  generalize w.groupMeasured gTMU = x at *
  have hconly : EventOnly x (x.countRun stale) := ((RegsOnly.wr ..).event).trans (State.raise_event ..)
  have hcregs : RegsSame measuredOut x (x.countRun stale) :=
    ((RegsSame.refl _ x).andWr (by decide)).trans ((State.raise_regs _ _ _).mono hsubCal)
  have hcbits : (x.countRun stale).rd Ev.tmuG.bits = x.rd Ev.tmuG.bits := by
    rw [State.countRun, (State.raise_regs _ _ _).rd _ (by decide), State.incWrap, State.rd_wr_apart _ _ _ _ (by decide) (by decide)]
  generalize x.countRun stale = y at *
  have hvonly := y.event_event Ev.tmuG 0
  have hvregs := y.event_regs Ev.tmuG 0
  have hvbits := State.event_bits y Ev.tmuG 0 (by decide)
  rw [hv] at hvonly hvregs hvbits
  have hall : v = { s with regs := v.regs, hq := v.hq, sched := v.sched, cal := w.cal } := by rw [hvonly, hconly, hgonly, hwonly]
  refine ⟨by rw [hall], by rw [hall], by rw [hall]; exact hwqueue, ?_, ?_, ?_, ?_⟩
  · rw [hvbits]; exact bitOf_or_mod (by decide) (by decide)
  · rw [hvbits, hcbits, hgbits, hsetBits]; rfl
  · exact ((hwregs.trans hgregs).trans hcregs).trans (hvregs.mono hsub)
  · rw [hall]; exact .of_eq rfl rfl rfl rfl

/-- The calibration of a table is over. -/
def State.tableEnds (s : State) (u : Nat) : State :=
  { s with acq := { s.acq with calRun := without s.acq.calRun (2 ^ u) } }.wr F.TMU_GSTATUS_CAL_RUN (b2n (without s.acq.calRun (2 ^ u) != 0))

/-- A table is replaced. -/
def State.putTable (s : State) (u : Fin 36) (hits : List Nat) : State := { s with acq := { s.acq with hits := upd s.acq.hits u fun _ => hits } }

theorem codeDensityDone_eq {u : Fin 32} {hits : List Nat} {s : State} (hrun : bitOf s.acq.calRun u = true) (hlen : hits.length = 4096)
    (hsum : hits.sum = 4194304) : exec (.codeDensityDone u hits) s = .next (((if plausible hits then
      ((((s.tableEnds u).putTable ⟨u, by omega⟩ hits).setStale u false).noteCalTemp u)
      else ((s.tableEnds u).setStale u true).event Ev.tmuG 1).tableNoted u (if plausible hits then 1 else 2) (!plausible hits)).tmuUnhold u).calNext := by
  show execCodeDensityDone u hits s = _
  rw [execCodeDensityDone, dif_pos (show u.1 < 36 by omega), if_pos ⟨hrun, hlen, hsum⟩]
  dsimp only
  rw [if_pos u.isLt]
  have hfin : fin 32 u.1 = u := Fin.ext (Nat.mod_eq_of_lt u.isLt)
  rw [hfin]
  rfl

theorem State.unhold_calNext {s : State} {u : Fin 32} (hheld : s.acq.tmu[u].heldArm = false) (hqueue : s.cal.queue = []) :
    (s.tmuUnhold u).calNext = s := by
  rw [State.tmuUnhold, if_neg (by rw [hheld]; exact fun h => absurd h.1 Bool.false_ne_true), State.calNext, hqueue]
  split <;> rfl

theorem State.tableEnds_keeps (s : State) (u : Nat) {v : State} (hv : s.tableEnds u = v) :
    v.acq = { s.acq with calRun := without s.acq.calRun (2 ^ u) } ∧ v.cal = s.cal ∧ v.power = s.power ∧
    Quiet [(F.TMU_GSTATUS_CAL_RUN).addr] s v := by
  subst hv
  exact ⟨rfl, rfl, rfl, (Quiet.andSame (Quiet.refl _ s) rfl rfl rfl rfl rfl).andWr (List.mem_singleton.mpr rfl)⟩

/-- A unit's address beyond the ones that noting a table writes. -/
theorem notMem_measuredOut {a : Nat} (h0 : 0x78000 ≤ a) (h1 : a < 0x7C000) : a ∉ measuredOut := by
  intro ha
  have hall : ∀ b ∈ measuredOut, b < 0x78000 ∨ 0x7C000 ≤ b := by decide
  have := hall a ha
  omega

theorem codeDensity_plausible {u : Fin 32} {hits : List Nat} {s : State} (hrun : bitOf s.acq.calRun u = true) (hlen : hits.length = 4096)
    (hsum : hits.sum = 4194304) (hok : plausible hits = true) (hheld : s.acq.tmu[u].heldArm = false) (hqueue : s.cal.queue = []) :
    Answers (.codeDensityDone u hits) s fun v =>
      v.acq.hits[fin 36 u] = hits ∧ bitOf v.acq.calRun u = false ∧ v.rd (F.TMU_STATUS_STALE u) = 0 ∧ v.power.drift[fin 36 u] = 0 ∧
      v.rd (F.TMU_CAL_TEMP_TEMP u) = zx 16 s.tdec ∧ bitOf (v.rd Ev.tmuG.bits) 0 = true ∧ v.acq.tmu = s.acq.tmu ∧
      v.acq.trg = s.acq.trg ∧ BytesSame s v := by
  have hu := u.isLt
  have hexec := codeDensityDone_eq hrun hlen hsum
  rw [hok] at hexec
  simp only [if_true, Bool.not_true] at hexec
  obtain ⟨hacq, hcal, hpower, hquiet⟩ := s.tableEnds_keeps u rfl
  generalize s.tableEnds u = a at *
  have hput : (a.putTable ⟨u, by omega⟩ hits).acq = { a.acq with hits := upd a.acq.hits ⟨u, by omega⟩ fun _ => hits } ∧
      (a.putTable ⟨u, by omega⟩ hits).cal = a.cal ∧ (a.putTable ⟨u, by omega⟩ hits).regs = a.regs ∧ BytesSame a (a.putTable ⟨u, by omega⟩ hits) :=
    ⟨rfl, rfl, rfl, .of_eq rfl rfl rfl rfl⟩
  generalize a.putTable ⟨u, by omega⟩ hits = b at *
  obtain ⟨hbacq, hbcal, hbregs, hbbytes⟩ := hput
  have hstale : b.setStale u false = b.wr (F.TMU_STATUS_STALE u) 0 := if_pos hu
  rw [hstale] at hexec
  have hwstale : (b.wr (F.TMU_STATUS_STALE u) 0).rd (F.TMU_STATUS_STALE u) = 0 :=
    State.rd_wr_fit _ _ _ (by simp [F.TMU_STATUS_STALE]) (by simp [F.TMU_STATUS_STALE])
  have hwtdec : (b.wr (F.TMU_STATUS_STALE u) 0).tdec = s.tdec := by
    rw [State.tdec, State.tdec, State.rdS, State.rdS, State.rd_wr_other _ _ _ _ (.inl (by simp only [F.PWR_TDEC_TEMP, F.TMU_STATUS_STALE]; omega)),
      State.rd_of_regs hbregs, hquiet.1.rd _ (by decide)]
  have hwonly : RegsOnly b (b.wr (F.TMU_STATUS_STALE u) 0) := RegsOnly.wr ..
  generalize b.wr (F.TMU_STATUS_STALE u) 0 = w at *
  have hnote : w.noteCalTemp u = { w with power := { w.power with drift := w.power.drift.set (fin 36 u) 0 } }.wr (F.TMU_CAL_TEMP_TEMP u) (zx 16 w.tdec) := by
    rw [State.noteCalTemp, calTempOf, if_pos hu]
  have hn : (w.noteCalTemp u).acq = w.acq ∧ (w.noteCalTemp u).cal = w.cal ∧ (w.noteCalTemp u).power.drift[fin 36 u] = 0 ∧
      (w.noteCalTemp u).rd (F.TMU_CAL_TEMP_TEMP u) = zx 16 w.tdec ∧ (w.noteCalTemp u).rd (F.TMU_STATUS_STALE u) = w.rd (F.TMU_STATUS_STALE u) ∧
      BytesSame w (w.noteCalTemp u) := by
    rw [hnote]
    refine ⟨rfl, rfl, ?_, State.rd_wr_fit _ _ _ (by simp [F.TMU_CAL_TEMP_TEMP]) (zx_lt 16 _), ?_, .of_eq rfl rfl rfl rfl⟩
    · show (w.power.drift.set (fin 36 u) 0)[fin 36 u] = 0
      simp
    · rw [State.rd_wr_other _ _ _ _ (.inl (by simp [F.TMU_CAL_TEMP_TEMP, F.TMU_STATUS_STALE]))]
      exact State.rd_of_regs rfl _
  generalize w.noteCalTemp u = n at *
  obtain ⟨hnacq, hncal, hndrift, hntemp, hnstale, hnbytes⟩ := hn
  obtain ⟨htacq, htpower, htqueue, htbit, _, htquiet⟩ := n.tableNoted_keeps u 1 false rfl
  generalize n.tableNoted u 1 false = v at *
  have hvacq : v.acq = { s.acq with calRun := without s.acq.calRun (2 ^ u.1), hits := upd s.acq.hits ⟨u, by omega⟩ fun _ => hits } := by
    rw [htacq, hnacq, hwonly]; show b.acq = _; rw [hbacq, hacq]
  have hvqueue : v.cal.queue = [] := by rw [htqueue, hncal, hwonly]; show b.cal.queue = []; rw [hbcal, hcal, hqueue]
  rw [State.unhold_calNext (by rw [hvacq]; exact hheld) hvqueue] at hexec
  have hfin : fin 36 u = ⟨u, by omega⟩ := Fin.ext (Nat.mod_eq_of_lt (by omega))
  refine ⟨v, hexec, ?_, ?_, ?_, ?_, ?_, htbit, by rw [hvacq], by rw [hvacq], ?_⟩
  · rw [hvacq]; show (upd s.acq.hits _ _)[fin 36 u] = hits; rw [← hfin]; exact upd_same ..
  · rw [hvacq]; exact bitOf_without_self ..
  · rw [htquiet.1.rd _ (notMem_measuredOut (by simp only [F.TMU_STATUS_STALE]; omega) (by simp only [F.TMU_STATUS_STALE]; omega)), hnstale, hwstale]
  · rw [htpower, hndrift]
  · rw [htquiet.1.rd _ (notMem_measuredOut (by simp only [F.TMU_CAL_TEMP_TEMP]; omega) (by simp only [F.TMU_CAL_TEMP_TEMP]; omega)), hntemp, hwtdec]
  · exact (((hquiet.2.trans hbbytes).trans hwonly.event.bytes).trans hnbytes).trans htquiet.2

theorem codeDensity_implausible {u : Fin 32} {hits : List Nat} {s : State} (hrun : bitOf s.acq.calRun u = true) (hlen : hits.length = 4096)
    (hsum : hits.sum = 4194304) (hok : plausible hits = false) (hheld : s.acq.tmu[u].heldArm = false) (hqueue : s.cal.queue = []) :
    Answers (.codeDensityDone u hits) s fun v =>
      v.acq.hits = s.acq.hits ∧ bitOf v.acq.calRun u = false ∧ v.rd (F.TMU_STATUS_STALE u) = 1 ∧ bitOf (v.rd Ev.tmuG.bits) 1 = true ∧
      v.acq.tmu = s.acq.tmu ∧ v.acq.trg = s.acq.trg ∧ BytesSame s v := by
  have hu := u.isLt
  have hexec := codeDensityDone_eq hrun hlen hsum
  rw [hok] at hexec
  simp only [Bool.false_eq_true, if_false, Bool.not_false] at hexec
  obtain ⟨hacq, hcal, _, hquiet⟩ := s.tableEnds_keeps u rfl
  generalize s.tableEnds u = a at *
  have hstale : a.setStale u true = a.wr (F.TMU_STATUS_STALE u) 1 := if_pos hu
  rw [hstale] at hexec
  have hwstale : (a.wr (F.TMU_STATUS_STALE u) 1).rd (F.TMU_STATUS_STALE u) = 1 :=
    State.rd_wr_fit _ _ _ (by simp [F.TMU_STATUS_STALE]) (by simp [F.TMU_STATUS_STALE])
  have hwonly : RegsOnly a (a.wr (F.TMU_STATUS_STALE u) 1) := RegsOnly.wr ..
  generalize a.wr (F.TMU_STATUS_STALE u) 1 = w at *
  have honly := w.event_event Ev.tmuG 1
  have hregs := w.event_regs Ev.tmuG 1
  have hbit := State.event_bit w Ev.tmuG (i := 1) (by decide) (by decide)
  generalize w.event Ev.tmuG 1 = n at *
  obtain ⟨htacq, _, htqueue, _, htbits, htquiet⟩ := n.tableNoted_keeps u 2 true rfl
  generalize n.tableNoted u 2 true = v at *
  have hvacq : v.acq = { s.acq with calRun := without s.acq.calRun (2 ^ u.1) } := by
    rw [htacq, honly, hwonly]; exact hacq
  have hvqueue : v.cal.queue = [] := by rw [htqueue, honly, hwonly]; show a.cal.queue = []; rw [hcal, hqueue]
  rw [State.unhold_calNext (by rw [hvacq]; exact hheld) hvqueue] at hexec
  refine ⟨v, hexec, by rw [hvacq], ?_, ?_, ?_, by rw [hvacq], by rw [hvacq], ?_⟩
  · rw [hvacq]; exact bitOf_without_self ..
  · rw [htquiet.1.rd _ (notMem_measuredOut (by simp only [F.TMU_STATUS_STALE]; omega) (by simp only [F.TMU_STATUS_STALE]; omega)), hregs.rd, hwstale]
    simp only [evOut, Ev.tmuG, Ev.sch, F.SCH_UNCLAIMED_COUNT, F.TMU_STATUS_STALE, List.mem_cons, List.not_mem_nil, or_false]; omega
  · rw [htbits, Nat.or_comm]; exact bitOf_or_mod hbit (by decide)
  · exact ((hquiet.2.trans hwonly.event.bytes).trans honly.bytes).trans htquiet.2

end Sys2Proof.Machine

open Sys2Proof Sys2Proof.Machine

/-- Settles O26: by what is read, acknowledged, calibrated or due. -/
theorem unitResultsAndTables : Obligations.UnitResultsAndTables := by
  unfold Obligations.UnitResultsAndTables
  refine ⟨fun u g rest s hclosed hblock => ⟨_, tmuResults_final hclosed, State.gateFinal_keeps hclosed (.inl hblock) rfl⟩,
    fun u g rest s hclosed hfrozen => ⟨_, tmuResults_final hclosed, ?_⟩,
    fun req u s => ⟨_, rfl, rfl, ⟨_, rfl, rfl, rfl, rfl⟩, rfl⟩,
    fun u n s => ⟨_, rfl, upd_same .., fun k hk => upd_other _ _ _ _ hk, rfl⟩, tmuBinData_answers,
    fun _ _ hunit hdue hidle hrun => codeDensity_begins hunit hdue hidle hrun,
    fun _ _ _ hrun hlen hsum hok hheld hqueue => codeDensity_plausible hrun hlen hsum hok hheld hqueue,
    fun _ _ _ hrun hlen hsum hok hheld hqueue => codeDensity_implausible hrun hlen hsum hok hheld hqueue,
    fun _ _ hunit hauto hdrift htemp => drift_makes_due hunit hauto hdrift htemp⟩
  obtain ⟨hcount, _, _, _, _, _, hself, hbit, _, hall, hquiet⟩ := State.gateFinal_keeps hclosed (.inr hfrozen) rfl
  exact ⟨hcount, hself, hbit, hall, hquiet⟩
end

section
/-! A binding that ends while a pass of its profile still closes (R258), which refutes O28. -/

set_option Elab.async false

namespace Sys2Proof.Machine

/-- A pass of slot 0 whose last errors have not come. -/
def closingPass : RcPass :=
  ⟨0, 0, 4, some 4, true, true, [], ⟨0, 0⟩, ⟨0, 0⟩, ⟨0, 0⟩, 0⟩

/-- Reset with that pass closing on channel 0. -/
def passCloses : State :=
  { State.reset with dscs := State.reset.dscs.set 0 { (State.reset.dscs[0] : Dsc) with closing := [closingPass] } }

/-- How many passes close on channel 0 in the answer's state. -/
def closingCount : Host.Outcome State Fault Refusal → Nat
  | .next u => u.dscs[0].closing.length
  | _ => 0

theorem unbind_drops_pass : closingCount (exec (.dscRcBindWrite 0 0 0) passCloses) = 0 := by decide +kernel

end Sys2Proof.Machine

open Sys2Proof Sys2Proof.Machine

/-- Refutes O28: the pass that still closes is dropped when its slot is unbound, so that more than registers changes. -/
theorem not_supplyControl : ¬ Obligations.SupplyControl := by
  unfold Obligations.SupplyControl
  rintro ⟨_, _, _, _, _, hunbind, _⟩
  obtain ⟨u, hu, _, _, honly, _⟩ := hunbind 0 0 0 passCloses (by decide) (by decide +kernel)
  have hcount := unbind_drops_pass
  have hdscs : u.dscs = passCloses.dscs := by rw [honly]
  rw [hu, closingCount, hdscs] at hcount
  exact absurd hcount (by decide +kernel)
end

section
/-! The stage's fault input during a pulse (R279), which refutes O29. -/

set_option Elab.async false

namespace Sys2Proof.Machine

/-- Reset with a pulse of 5 steps in progress on channel 0, whose stage may report faults, and a duty shown as applied. -/
def pulseInProgress : State :=
  { State.reset.wrs [(F.FLT_CLASS_CLASS 16, 0), (F.DSC_DUTY_APPLIED 0, 100)] with
    dscs := State.reset.dscs.set 0 { (State.reset.dscs[0] : Dsc) with
      stageFlt := true, pgn := { (State.reset.dscs[0] : Dsc).pgn with on := 5 } } }

/-- The applied duty that channel 0 shows in the answer's state. -/
def appliedDuty : Host.Outcome State Fault Refusal → Nat
  | .next u => u.rd (F.DSC_DUTY_APPLIED 0)
  | _ => 0

theorem fault_clears_applied : appliedDuty (exec (.dscFltLLow 0) pulseInProgress) = 0 := by decide +kernel

end Sys2Proof.Machine

open Sys2Proof Sys2Proof.Machine

/-- Refutes O29: the pulse that the fault input ends is shown as an applied duty of 0, in a register that the statement keeps. -/
theorem not_pulsesAndComparators : ¬ Obligations.PulsesAndComparators := by
  unfold Obligations.PulsesAndComparators
  rintro ⟨_, _, _, _, _, _, _, _, _, _, _, _, _, _, _, _, _, hfault, _⟩
  obtain ⟨u, hu, _, _, _, _, _, _, _, _, hquiet⟩ := hfault 0 pulseInProgress (by decide +kernel) (by decide +kernel) (by decide +kernel)
  have hduty := fault_clears_applied
  rw [hu, appliedDuty, hquiet.1.rd (F.DSC_DUTY_APPLIED 0) (by decide)] at hduty
  exact absurd hduty (by decide +kernel)
end

section
/-! A sample while four wait for their computation (R248), which refutes O30. -/

set_option Elab.async false

namespace Sys2Proof.Machine

/-- Sample `n` waiting for its computation. -/
def waitingSample (n : Nat) : DscSamp := ⟨n, 0, 0, false, 1, false, none, 0, [], none, none⟩

/-- Reset with channel 1 bound to grove 3 and regulating a voltage, four of its samples waiting. -/
def fourWait : State :=
  { State.reset.wrs [(F.STR_DSC_GROVE 1, 3), (F.DSC_STATUS_MODE 1, 1), (F.PGN_STATUS_N 1, 1)] with
    dscs := State.reset.dscs.set 1 { (State.reset.dscs[1] : Dsc) with
      n := 4, wait := [waitingSample 0, waitingSample 1, waitingSample 2, waitingSample 3] } }

/-- How many samples of channel 1 wait in the answer's state. -/
def waitCount : Host.Outcome State Fault Refusal → Nat
  | .next u => u.dscs[1].wait.length
  | _ => 0

theorem fourWait_waits : fourWait.dscs[1].wait.length = 4 := by decide +kernel

theorem sample_drops_oldest : waitCount (exec (.loopSample 1 8192 0 0 false false false) fourWait) = 4 := by decide +kernel

end Sys2Proof.Machine

open Sys2Proof Sys2Proof.Machine

/-- Refutes O30: with four samples waiting the oldest is dropped for the new one, so that no fifth one waits. -/
theorem not_loopSamples : ¬ Obligations.LoopSamples := by
  unfold Obligations.LoopSamples
  rintro ⟨_, hsample, _⟩
  obtain ⟨u, hu, ⟨x, hwait, _⟩, _⟩ := hsample 1 8192 0 0 false fourWait (by decide +kernel) (by decide +kernel) (by decide +kernel)
    (by decide +kernel) (by decide +kernel) (by decide +kernel) (by decide +kernel) (by decide +kernel) (by decide +kernel) (by decide +kernel)
    (by decide +kernel) (by decide +kernel) (by decide +kernel)
  have hcount := sample_drops_oldest
  have hlength : u.dscs[1].wait.length = 5 := by
    have h := congrArg List.length hwait
    rw [List.length_append, List.length_singleton] at h
    exact h.trans (congrArg (· + 1) fourWait_waits)
  rw [hu, waitCount, hlength] at hcount
  exact absurd hcount (by decide)
end

section
/-! A cancel that frees an entry for which an item of a private flow waits (R301), which refutes O31. -/

set_option Elab.async false

namespace Sys2Proof.Machine

/-- An item at entry 0 that waits for its operands. -/
def waitingTask : Task := ⟨0, 0, 5, 0, 0, 0, 0, [], [], .waiting, none, false⟩

/-- Reset with that item, every fresh entry used up, and an item of core 0's private flow that waits for a free entry. -/
def itemOwed : State :=
  { State.reset with sched := { State.reset.sched with
      tasks := [waitingTask]
      fresh := 4096
      owed := [{ waitingTask with flow := 1016, state := .ready }] } }

/-- Whether entry 0 is in use in the answer's state. -/
def entryUsed : Host.Outcome State Fault Refusal → Bool
  | .next u => (u.sched.taskAt 0).isSome
  | _ => false

theorem cancel_posts_owed : entryUsed (exec (.schCancel 0 0) itemOwed) = true := by decide +kernel

end Sys2Proof.Machine

open Sys2Proof Sys2Proof.Machine

/-- Refutes O31: the freed entry is taken at once by the item that waited for one, so that its index is in use again. -/
theorem not_taskLife : ¬ Obligations.TaskLife := by
  unfold Obligations.TaskLife
  rintro ⟨_, _, _, _, _, _, _, _, _, _, _, hcancel, _⟩
  obtain ⟨u, hu, hfree, _⟩ := hcancel 0 0 waitingTask itemOwed (by decide +kernel) (by decide +kernel)
  have hused := cancel_posts_owed
  have hnone : u.sched.taskAt 0 = none := hfree
  rw [hu, entryUsed, hnone] at hused
  exact absurd hused (by decide)
end

section
/-! The site cores (R282 to R284, R302), which settle O32. -/

set_option Elab.async false

namespace Sys2Proof.Machine

/-! ## Reports leave the cores (R292) -/

theorem State.raiseSch_sched (s : State) (bits : Nat) : (s.raiseSch bits).sched = s.sched := by
  rw [State.raiseSch]
  split
  · rfl
  · rw [State.signal_hq]; rfl

theorem State.occurrence_cores (s : State) (cls key value : Nat) : (s.occurrence cls key value).sched.cores = s.sched.cores := by
  rw [State.occurrence]
  dsimp only
  split
  · rfl
  · rw [State.raiseSch_sched]; rfl

theorem State.raised_cores (s : State) (r : EvReg) (bits : Nat) : (s.raised r bits).sched.cores = s.sched.cores := by
  rw [State.raised]
  split
  · rfl
  · split
    · rw [State.occurrence_cores, State.signal_hq]
    · rw [State.signal_hq]

theorem State.raise_cores (s : State) (r : EvReg) (bits : Nat) : (s.raise r bits).sched.cores = s.sched.cores := State.raised_cores ..

theorem State.noteFirst_sched (s : State) (i : Nat) : (s.noteFirst i).sched = s.sched := by
  rw [State.noteFirst]
  split
  · rw [State.wrP, State.wr_sched, State.wr_sched, State.wrs_sched]
  · split <;> simp

theorem State.latchFault_cores (s : State) {i : Nat} (hi : i < 96) (bits : Nat) (forced : Bool) :
    (s.latchFault i bits forced).sched.cores = s.sched.cores := by
  rw [State.latchFault_eq s hi]
  show (((s.noteFirst i).setBit F.FLT_LATCH_LATCH i true).raise Ev.flt bits).sched.cores = _
  rw [State.raise_cores]
  show (s.noteFirst i).sched.cores = _
  rw [State.noteFirst_sched]

/-! ## The watchdog and the timer (R283, R284) -/

theorem State.modCore_cores (s : State) (c : Fin 8) (f : Core → Core) : (s.modCore c f).sched.cores = upd s.sched.cores c f := rfl

theorem schWdog_restarts (c : Fin 8) (w : Word) (s : State) : Answers (.schWdogWrite c w) s fun u =>
      u.rd (F.SCH_WDOG_US c) = w.toNat % 2 ^ 24 ∧
      u.sched.cores[c] = { s.sched.cores[c] with wdogExpired := false, wdogFrom := s.tim.raw } ∧
      (∀ k, k ≠ c → u.sched.cores[k] = s.sched.cores[k]) ∧
      u = { s with regs := u.regs, sched := { s.sched with cores := u.sched.cores } } ∧ Quiet [(F.SCH_WDOG_US c).addr] s u := by
  have hexec : exec (.schWdogWrite c w) s = .next ((s.wr (F.SCH_WDOG_US c) w.toNat).kick c) := rfl
  have hus : (s.wr (F.SCH_WDOG_US c) w.toNat).rd (F.SCH_WDOG_US c) = w.toNat % 2 ^ 24 := State.rd_wr_same _ _ _ (by simp [F.SCH_WDOG_US])
  have honly : RegsOnly s (s.wr (F.SCH_WDOG_US c) w.toNat) := RegsOnly.wr ..
  have hregs : RegsSame [(F.SCH_WDOG_US c).addr] s (s.wr (F.SCH_WDOG_US c) w.toNat) := (RegsSame.refl _ s).andWr (List.mem_singleton.mpr rfl)
  generalize s.wr (F.SCH_WDOG_US c) w.toNat = x at *
  have hcores : (x.kick c).sched.cores = upd s.sched.cores c fun k => { k with wdogExpired := false, wdogFrom := s.tim.raw } := by
    rw [State.kick, State.modCore_cores, honly]
  have hall : x.kick c = { s with regs := (x.kick c).regs, sched := { s.sched with cores := (x.kick c).sched.cores } } := by
    rw [State.kick, State.modCore]
    generalize upd x.sched.cores c _ = cores
    rw [honly]
  refine ⟨_, hexec, hus, by rw [hcores, upd_same], fun k hk => by rw [hcores, upd_other _ _ _ _ hk], hall, hregs.andRegs rfl, ?_⟩
  rw [hall]; exact .of_eq rfl rfl rfl rfl

/-- A core that takes a non-maskable interrupt. -/
def Core.nmiTaken (pc : Nat) (k : Core) : Core :=
  { k with blocked := none, inNmi := true, mepc := k.pc, mcause := 2 ^ 63 + 24, mppMachine := k.machineMode, mpie := k.mie, mie := false
           machineMode := true, pc := pc }

/-- The first cause makes its core take a non-maskable interrupt. -/
theorem State.nmi_first {s : State} {c : Fin 8} {bit : Nat} (hnone : s.rd (F.SCH_NMI_CAUSE_CAUSE c) = 0) (hbit : bit < 5) {u : State}
    (hu : s.nmi c bit = u) :
    u.rd (F.SCH_NMI_CAUSE_CAUSE c) = 2 ^ bit ∧
    u.sched = { s.sched with cores := upd s.sched.cores c (Core.nmiTaken (canopyCoreBase + s.rd (F.SCH_NMI_VEC_OFFSET c) / 2 * 2)) } ∧
    u = { s with regs := u.regs, sched := u.sched } ∧ RegsSame [(F.SCH_NMI_CAUSE_CAUSE c).addr] s u := by
  have hcause : (s.wr (F.SCH_NMI_CAUSE_CAUSE c) (0 ||| 2 ^ bit)).rd (F.SCH_NMI_CAUSE_CAUSE c) = 2 ^ bit := by
    rw [State.rd_wr_same _ _ _ (by simp [F.SCH_NMI_CAUSE_CAUSE]), Nat.zero_or]
    exact Nat.mod_eq_of_lt (Nat.pow_lt_pow_right (by decide) (by simpa [F.SCH_NMI_CAUSE_CAUSE] using hbit))
  have hvec : (s.wr (F.SCH_NMI_CAUSE_CAUSE c) (0 ||| 2 ^ bit)).rd (F.SCH_NMI_VEC_OFFSET c) = s.rd (F.SCH_NMI_VEC_OFFSET c) :=
    State.rd_wr_other _ _ _ _ (.inl (by simp [F.SCH_NMI_CAUSE_CAUSE, F.SCH_NMI_VEC_OFFSET]))
  have honly : RegsOnly s (s.wr (F.SCH_NMI_CAUSE_CAUSE c) (0 ||| 2 ^ bit)) := RegsOnly.wr ..
  have hregs : RegsSame [(F.SCH_NMI_CAUSE_CAUSE c).addr] s (s.wr (F.SCH_NMI_CAUSE_CAUSE c) (0 ||| 2 ^ bit)) :=
    (RegsSame.refl _ s).andWr (List.mem_singleton.mpr rfl)
  rw [State.nmi, hnone] at hu
  rw [if_neg (not_not_intro rfl)] at hu
  generalize s.wr (F.SCH_NMI_CAUSE_CAUSE c) (0 ||| 2 ^ bit) = x at *
  rw [hvec] at hu
  have hsched : u.sched = { x.sched with cores := upd x.sched.cores c (Core.nmiTaken (canopyCoreBase + s.rd (F.SCH_NMI_VEC_OFFSET c) / 2 * 2)) } := by
    rw [← hu]; rfl
  have huregs : u.regs = x.regs := by rw [← hu]; rfl
  have huonly : u = { x with sched := u.sched } := by rw [← hu]; rfl
  refine ⟨by rw [State.rd_of_regs huregs, hcause], by rw [hsched, honly], by rw [huregs, huonly, honly], hregs.andRegs huregs⟩

theorem watchdog_expires {c : Fin 8} {s : State} (hdue : s.wdogDue c = true) (hnone : s.rd (F.SCH_NMI_CAUSE_CAUSE c) = 0)
    (hcls : s.classOf 17 < 2) : Answers (.watchdogExpiry c) s fun u =>
      u.rd (F.SCH_NMI_CAUSE_CAUSE c) = 16 ∧ u.latched 17 = true ∧ u.sched.cores[c].wdogExpired = true ∧
      u.sched.cores[c].inNmi = true ∧ u.sched.cores[c].machineMode = true ∧ u.sched.cores[c].mie = false ∧
      u.sched.cores[c].mepc = s.sched.cores[c].pc ∧ u.sched.cores[c].mppMachine = s.sched.cores[c].machineMode ∧
      u.sched.cores[c].mpie = s.sched.cores[c].mie ∧
      u.sched.cores[c].pc = canopyCoreBase + s.rd (F.SCH_NMI_VEC_OFFSET c) / 2 * 2 ∧
      (∀ k, k ≠ c → u.sched.cores[k] = s.sched.cores[k]) ∧
      u = { s with regs := u.regs, hq := u.hq, sched := u.sched, flt := u.flt } ∧
      Quiet ([(F.SCH_NMI_CAUSE_CAUSE c).addr, Ev.sch.ev] ++ faultOut 17) s u := by
  have hc := c.isLt
  have hexec : exec (.watchdogExpiry c) s = .next ((((s.modCore c fun k => { k with wdogExpired := true }).nmi c 4).raiseSch 16).faultOnce 17 none) := by
    show execWatchdogExpiry c s = _
    rw [execWatchdogExpiry, if_neg (by rw [hdue]; decide)]
  have hxregs : (s.modCore c fun k => { k with wdogExpired := true }).regs = s.regs := rfl
  have hxcores := State.modCore_cores s c fun k => { k with wdogExpired := true }
  have hxonly : (s.modCore c fun k => { k with wdogExpired := true }) =
      { s with sched := (s.modCore c fun k => { k with wdogExpired := true }).sched } := rfl
  generalize (s.modCore c fun k => { k with wdogExpired := true }) = x at *
  obtain ⟨hycause, hysched, hyonly, hyregs⟩ := State.nmi_first (s := x) (c := c) (bit := 4) ((State.rd_of_regs hxregs _).trans hnone) (by decide) rfl
  rw [State.rd_of_regs hxregs (F.SCH_NMI_VEC_OFFSET c)] at hysched
  generalize x.nmi c 4 = y at *
  have hzsched := y.raiseSch_sched 16
  have hzonly := y.raiseSch_event 16
  have hzregs := y.raiseSch_regs 16
  generalize y.raiseSch 16 = z at *
  have hzall : z = { s with regs := z.regs, hq := z.hq, sched := z.sched } := by rw [hzonly, hyonly, hxonly]
  have hzquiet : RegsSame [(F.SCH_NMI_CAUSE_CAUSE c).addr, Ev.sch.ev] s z :=
    (((RegsSame.refl _ s).andRegs hxregs).trans (hyregs.mono (by simp))).trans (hzregs.mono (by simp))
  have hzcls : z.classOf 17 < 2 := by
    rw [hzquiet.classOf (by simp only [F.FLT_CLASS_CLASS, F.SCH_NMI_CAUSE_CAUSE, Ev.sch, List.mem_cons, List.not_mem_nil, or_false]; omega)]
    exact hcls
  rw [State.faultOnce, State.fault_noted hzcls] at hexec
  obtain ⟨hfault, hfregs, hlatched, _, _⟩ := State.latchFault_keeps z (i := 17) (by decide) (occurrenceBits (z.classOf 17) (z.latched 17) false) false rfl
  have hfcores := State.latchFault_cores z (i := 17) (by decide) (occurrenceBits (z.classOf 17) (z.latched 17) false) false
  generalize z.latchFault 17 (occurrenceBits (z.classOf 17) (z.latched 17) false) false = u at *
  have hcores : u.sched.cores = upd (upd s.sched.cores c fun k => { k with wdogExpired := true }) c
      (Core.nmiTaken (canopyCoreBase + s.rd (F.SCH_NMI_VEC_OFFSET c) / 2 * 2)) := by rw [hfcores, hzsched, hysched, hxcores]
  have hself : u.sched.cores[c] = Core.nmiTaken (canopyCoreBase + s.rd (F.SCH_NMI_VEC_OFFSET c) / 2 * 2) { s.sched.cores[c] with wdogExpired := true } := by
    rw [hcores, upd_same, upd_same]
  have hall : u = { s with regs := u.regs, hq := u.hq, sched := u.sched, flt := u.flt } := by rw [hfault, hzall]
  have hcause : u.rd (F.SCH_NMI_CAUSE_CAUSE c) = 16 := by
    rw [hfregs.rd, hzregs.rd, hycause]
    · rfl
    · simp only [F.SCH_NMI_CAUSE_CAUSE, Ev.sch, List.mem_singleton]; omega
    · simp only [F.SCH_NMI_CAUSE_CAUSE, faultOut, evOut, Ev.flt, Ev.sch, F.SCH_UNCLAIMED_COUNT, F.FLT_STATUS_STATE, F.FLT_FIRST_TIME_LO_TIME,
        F.FLT_LATCH_LATCH, List.mem_cons, List.mem_append, List.not_mem_nil, or_false]
      omega
  refine ⟨u, hexec, hcause, hlatched, ?_, ?_, ?_, ?_, ?_, ?_, ?_, ?_, fun k hk => ?_, hall, ?_, ?_⟩
  any_goals rw [hself]; rfl
  · rw [hcores, upd_other _ _ _ _ hk, upd_other _ _ _ _ hk]
  · exact (hzquiet.mono fun _ h => List.mem_append_left _ h).trans (hfregs.mono fun _ h => List.mem_append_right _ h)
  · rw [hall]; exact .of_eq rfl rfl rfl rfl

/-! ## Accesses of a core (R282, R303) -/

/-- An access to the Canopy's window: within the rights it is done, and else it takes the access fault of its kind. -/
theorem State.coreAccess_canopy {c : Fin 8} {kind : CoreAccess} {user : Bool} {off bytes data : Nat} {s : State} (hend : off + bytes ≤ 0x8000000) :
    s.coreAccess c kind user (0x10000000 + off) bytes data =
      if (span off bytes).all fun a => s.corePage c kind user (a / canopyPage) then
        let old := ofBytesLE ((span off bytes).map s.coreByte)
        let s := if (accWrites kind) then { s with canopy := Mem.puts s.canopy off (bytesLE bytes data) } else s
        let s := if kind = CoreAccess.fetch then s.modCore c fun k => { k with icacheValid := true } else s
        if (accReads kind) then s.answerWith [old] else s
      else s.coreTrap c (accCause kind) (0x10000000 + off) := by
  rw [State.coreAccess]
  dsimp only
  rw [if_neg (by omega), if_pos ⟨by omega, by omega⟩, Nat.add_sub_cancel_left]

theorem coreStore_writes {c : Fin 8} {user : Bool} {off bytes data : Nat} {s : State} (hend : off + bytes ≤ 0x8000000)
    (hright : ((span off bytes).all fun a => s.corePage c .store user (a / canopyPage)) = true) :
    Answers (.coreMemoryAccess c .store user (0x10000000 + off) bytes data) s fun u =>
      (∀ i, i < bytes → Mem.byte u.canopy (off + i) = BitVec.ofNat 8 (data / 256 ^ i)) ∧
      (∀ a, a < off ∨ off + bytes ≤ a → Mem.byte u.canopy a = Mem.byte s.canopy a) ∧ u = { s with canopy := u.canopy } := by
  have hacc : s.coreAccess c .store user (0x10000000 + off) bytes data = { s with canopy := Mem.puts s.canopy off (bytesLE bytes data) } := by
    rw [State.coreAccess_canopy hend, if_pos hright]; rfl
  have hlen : (bytesLE bytes data).length = bytes := by simp [bytesLE]
  refine ⟨_, congrArg Host.Outcome.next hacc, fun i hi => ?_, fun a ha => ?_, rfl⟩
  · rw [Mem.byte_puts, dif_pos (by omega)]
    simp [bytesLE]
  · rw [Mem.byte_puts, dif_neg (by omega)]

theorem coreLoad_answers {c : Fin 8} {user : Bool} {off bytes data : Nat} {s : State} (hend : off + bytes ≤ 0x8000000)
    (hright : ((span off bytes).all fun a => s.corePage c .load user (a / canopyPage)) = true) :
    Answers (.coreMemoryAccess c .load user (0x10000000 + off) bytes data) s fun u =>
      u.hq.answer = [ofBytesLE ((span off bytes).map s.coreByte)] ∧ u = { s with hq := { s.hq with answer := u.hq.answer } } := by
  have hacc : s.coreAccess c .load user (0x10000000 + off) bytes data = s.answerWith [ofBytesLE ((span off bytes).map s.coreByte)] := by
    rw [State.coreAccess_canopy hend, if_pos hright]; rfl
  exact ⟨_, congrArg Host.Outcome.next hacc, rfl, rfl⟩

/-- What an access fault does to its core and leaves of the rest. -/
theorem State.coreTrap_keeps (s : State) (c : Fin 8) (cause tval : Nat) :
    (s.coreTrap c cause tval).sched.cores[c] = { s.sched.cores[c] with
        mepc := s.sched.cores[c].pc, mcause := cause, mtval := tval, mppMachine := s.sched.cores[c].machineMode
        mpie := s.sched.cores[c].mie, mie := false, machineMode := true, pc := s.sched.cores[c].mtvec } ∧
    (∀ k, k ≠ c → (s.coreTrap c cause tval).sched.cores[k] = s.sched.cores[k]) ∧
    s.coreTrap c cause tval = { s with sched := { s.sched with cores := (s.coreTrap c cause tval).sched.cores } } :=
  ⟨upd_same .., fun _ hk => upd_other _ _ _ _ hk, rfl⟩

theorem coreAccess_traps {c : Fin 8} {kind : CoreAccess} {user : Bool} {off bytes data : Nat} {s : State} (hend : off + bytes ≤ 0x8000000)
    (hright : ((span off bytes).all fun a => s.corePage c kind user (a / canopyPage)) = false) :
    exec (.coreMemoryAccess c kind user (0x10000000 + off) bytes data) s = .next (s.coreTrap c (accCause kind) (0x10000000 + off)) := by
  refine congrArg Host.Outcome.next ?_
  rw [State.coreAccess_canopy hend, if_neg (by rw [hright]; decide)]

theorem userAccess_traps {c : Fin 8} {kind : CoreAccess} {addr bytes data : Nat} {s : State} (haddr : addr < 0x1000000) :
    exec (.coreMemoryAccess c kind true addr bytes data) s = .next (s.coreTrap c (accCause kind) addr) := by
  refine congrArg Host.Outcome.next ?_
  rw [State.coreAccess]
  dsimp only
  rw [if_pos haddr, if_pos (.inl rfl)]

end Sys2Proof.Machine

open Sys2Proof Sys2Proof.Machine

/-- Settles O32: the watchdog by whether it is due, and an access by its window and the rights of its pages. -/
theorem siteCores : Obligations.SiteCores := by
  unfold Obligations.SiteCores
  refine ⟨fun c s => ⟨_, rfl, upd_same .., fun k hk => upd_other _ _ _ _ hk, rfl⟩, schWdog_restarts,
    fun _ _ hdue hnone hcls => watchdog_expires hdue hnone hcls, fun c s hdue => if_pos hdue,
    fun c s => ⟨_, rfl, upd_same .., fun k hk => upd_other _ _ _ _ hk, rfl⟩, fun _ _ _ _ _ _ hend hright => coreStore_writes hend hright,
    fun _ _ _ _ _ _ hend hright => coreLoad_answers hend hright,
    fun c kind _ off _ _ s hend hright => ⟨_, coreAccess_traps hend hright, s.coreTrap_keeps c (accCause kind) (0x10000000 + off)⟩,
    fun c kind addr _ _ s haddr => ⟨_, userAccess_traps haddr, ?_⟩⟩
  obtain ⟨hself, hother, hall⟩ := s.coreTrap_keeps c (accCause kind) addr
  exact ⟨by rw [hself], by rw [hself], by rw [hself], hother, hall⟩
end

section
/-! A leader's cancellation of a burst that is only Declared here (R116, R117), which refutes O41. -/

set_option Elab.async false

namespace Sys2Proof.Machine

/-- A burst of grove 0 that is still Declared. -/
def declaredBurst : Burst :=
  { hdr := ⟨2, 7, 1, false⟩, ops := ⟨1, 100, 4, 0, 5, 1, 0⟩, stage := .declared, order := 0, startSlot := none, startTime := none, endTime := 0
    reach := [], waiters := [], faultSeq := 0, faultSrc := 0xFF, firebreak := false, fatal := false, armedBy := [] }

/-- A START token of lane slot 0 that cancels. -/
def cancelToken : Nat := 3 + 2 ^ 40

/-- Reset with that burst, grove 0 linked through entry 0 over lane 0, on which the token has come. -/
def cancelled : State :=
  { State.reset.wrs [(F.STR_LINK_MODULES 0, 2), (F.STR_LINK_LANE_MASK 0, 1)] with
    bursts := [declaredBurst]
    links := { State.reset.links with lanes := State.reset.links.lanes.set 0 { (State.reset.links.lanes[0] : Lane) with inbox := [⟨0, cancelToken, 0⟩] } } }

/-- Whether grove 0 of the answer's state has ended. -/
def groveEnded : Host.Outcome State Fault Refusal → Bool
  | .next u => u.groves[(0 : Fin 32)].ended.isSome
  | _ => true

theorem cancelled_grove : groveEnded (exec (.tokenStart 0 (bytesLE 16 cancelToken)) cancelled) = false := by decide +kernel

end Sys2Proof.Machine

open Sys2Proof Sys2Proof.Machine

/-- Refutes O41: a Declared burst has not taken its groves, so the cancellation notes the end in the burst and leaves grove 0 as it was. -/
theorem not_linkTokens : ¬ Obligations.LinkTokens := by
  unfold Obligations.LinkTokens
  rintro ⟨_, _, _, _, _, hcancel, _⟩
  obtain ⟨u, hu, _, hended⟩ := hcancel 0 0 (bytesLE 16 cancelToken) ⟨0, cancelToken, 0⟩ declaredBurst cancelled
    (by unfold State.arrived; decide +kernel) (by decide +kernel) (by decide +kernel) (by decide +kernel)
  have hgrove := cancelled_grove
  rw [hu, groveEnded, hended 0 (by decide +kernel)] at hgrove
  exact absurd hgrove (by decide)
end

section
/-! A burst that notes an early end (R117, R433), at the expiry of the input-current limit, which refutes O45. -/

set_option Elab.async false

namespace Sys2Proof.Machine

/-- A running burst of grove 0 that notes an early end. -/
def earlyBurst : Burst := { declaredBurst with stage := .running, early := some (.stopped, []) }

/-- A state with that burst alone, which has thread 0. -/
def State.withEarly (s : State) : State :=
  { s with bursts := [earlyBurst], threads := s.threads.set 0 { (s.threads[0] : Thread) with busy := some (7, 1) } }

/-- The boundary of thread 0 in the answer's state. -/
def boundOf : Host.Outcome State Fault Refusal → Option (Nat × Bool)
  | .next u => u.threads[(0 : Fin 32)].bound
  | _ => none

theorem inputLimit_leavesEarly : boundOf (exec .inputLimitExpiry State.reset.withEarly) = none := by decide +kernel

/-- Thread 0 of that state, cut, would have a boundary. -/
theorem withEarly_cut (abort : Bool) : (State.reset.withEarly.threads[(0 : Fin 32)].cut abort).bound.isSome = true := by
  cases abort <;> decide +kernel

end Sys2Proof.Machine

open Sys2Proof Sys2Proof.Machine

/-- Refutes O45: for a burst that notes an early end all its groves have ended, so the limit's expiry gives its thread no boundary. -/
theorem not_inputSupply : ¬ Obligations.InputSupply := by
  unfold Obligations.InputSupply
  rintro ⟨_, _, _, _, _, _, _, _, hlimit, _⟩
  obtain ⟨u, hu, _, _, _, _, hcut, _⟩ := hlimit State.reset.withEarly (by decide +kernel) (by decide +kernel)
  have hbound := inputLimit_leavesEarly
  rw [hu, boundOf, hcut earlyBurst (by decide +kernel) (by decide +kernel) 0 (by decide +kernel)] at hbound
  exact absurd (withEarly_cut false) (by rw [hbound]; decide)
end

section
/-! A burst that notes an early end (R117, R433), at the expiry of the limit timer, which refutes O46. -/

set_option Elab.async false

namespace Sys2Proof.Machine

/-- Reset with the limit timer running and a running burst that notes an early end. -/
def limitEarly : State := (State.reset.wr F.PWR_STATUS_LIMIT_TIMER 1).withEarly

theorem limitTimer_leavesEarly : boundOf (exec .limitTimerExpiry limitEarly) = none := by decide +kernel

end Sys2Proof.Machine

open Sys2Proof Sys2Proof.Machine

/-- Refutes O46: for a burst that notes an early end all its groves have ended, so the timer's expiry gives its thread no boundary. -/
theorem not_thermalLimits : ¬ Obligations.ThermalLimits := by
  unfold Obligations.ThermalLimits
  rintro ⟨_, _, _, _, _, _, _, _, _, hlimit, _⟩
  obtain ⟨u, hu, _, _, hcut, _⟩ := hlimit limitEarly (by decide +kernel) (by decide +kernel)
  have hbound := limitTimer_leavesEarly
  rw [hu, boundOf, hcut earlyBurst (by decide +kernel) (by decide +kernel) 0 (by decide +kernel)] at hbound
  exact absurd (withEarly_cut false) (by rw [show State.reset.withEarly.threads[(0 : Fin 32)] = limitEarly.threads[(0 : Fin 32)] from rfl, hbound]; decide)
end

section
/-! ZEROISE while a burst notes an early end (R117, R451), which refutes O51. -/

set_option Elab.async false

namespace Sys2Proof.Machine

/-- Reset with the self-tests passed, a ZEROISE that waits to begin and a running burst that notes an early end. -/
def zeroiseEarly : State :=
  let s := (State.reset.wrs [(F.SEC_STATUS_ST_DONE, 1), (F.SEC_STATUS_APPROVED, 1)]).withEarly
  { s with hq := { s.hq with inFlight := [⟨⟨2, 9, 1, false⟩, 0x46, 4, false, false, false, false⟩] } }

theorem zeroise_leavesEarly : boundOf (exec (.zeroise ⟨2, 9, 1, false⟩) zeroiseEarly) = none := by decide +kernel

end Sys2Proof.Machine

open Sys2Proof Sys2Proof.Machine

/-- Refutes O51: for a burst that notes an early end all its groves have ended, so ZEROISE gives its thread no boundary. -/
theorem not_keysAndZeroisation : ¬ Obligations.KeysAndZeroisation := by
  unfold Obligations.KeysAndZeroisation
  rintro ⟨_, _, _, _, _, _, _, _, hzeroise, _⟩
  obtain ⟨u, hu, _, _, hcut⟩ := hzeroise ⟨2, 9, 1, false⟩ earlyBurst zeroiseEarly
    (by simp only [State.portReady, State.canBegin]; decide +kernel) (by decide +kernel) (by decide +kernel) (by decide +kernel) (by decide +kernel)
  have hbound := zeroise_leavesEarly
  rw [hu, boundOf, hcut 0 (by decide +kernel)] at hbound
  exact absurd (withEarly_cut true) (by rw [show State.reset.withEarly.threads[(0 : Fin 32)] = zeroiseEarly.threads[(0 : Fin 32)] from rfl, hbound]; decide)
end

section
/-! A self-test that fails with its fault in class SAFE_STATE while a ZEROISE waits for a burst to end (R425, R451, R463), which refutes O52 and O54. -/

set_option Elab.async false

namespace Sys2Proof.Machine

/-- A running burst of no grove, all of whose groves have ended. -/
def drainedBurst : Burst := { declaredBurst with ops := ⟨0, 100, 4, 0, 5, 1, 0⟩, stage := .running }

/-- A state with source 23 in class SAFE_STATE, that burst alone, and a ZEROISE that waits for its end. -/
def State.withZeroise (s : State) : State :=
  { s.wr (F.FLT_CLASS_CLASS 5) (4 * 2 ^ 24) with bursts := [drainedBurst], sec := { s.sec with zero := [(⟨2, 9, 1, false⟩, false)] } }

/-- SEC_STATUS.LIFECYCLE of the answer's state. -/
def lifecycleOf : Host.Outcome State Fault Refusal → Nat
  | .next u => u.rd F.SEC_STATUS_LIFECYCLE
  | _ => 4

/-- Reset with the self-tests passed and a SELF_TEST that waits to begin. -/
def selfTestWaits : State :=
  let s := (State.reset.wrs [(F.SEC_STATUS_ST_DONE, 1), (F.SEC_STATUS_APPROVED, 1)]).withZeroise
  { s with hq := { s.hq with inFlight := [⟨⟨3, 8, 1, false⟩, 0x49, 4, false, false, false, false⟩] } }

theorem selfTest_zeroises : lifecycleOf (exec (.selfTest ⟨3, 8, 1, false⟩ 1) selfTestWaits) = 1 := by decide +kernel

end Sys2Proof.Machine

open Sys2Proof Sys2Proof.Machine

/-- Refutes O52: the Firebreak that the failed test starts ends the burst, upon which the waiting ZEROISE takes LIFECYCLE from ERROR to 1. -/
theorem not_attestationServices : ¬ Obligations.AttestationServices := by
  unfold Obligations.AttestationServices
  rintro ⟨_, _, hfails, _⟩
  obtain ⟨u, hu, hlife, _⟩ := hfails ⟨3, 8, 1, false⟩ 1 selfTestWaits
    (by simp only [State.portReady, State.canBegin]; decide +kernel) (by decide +kernel)
  have hzeroised := selfTest_zeroises
  rw [hu, lifecycleOf, hlife] at hzeroised
  exact absurd hzeroised (by decide)
end

section
/-! The ROM's self-tests that fail with their fault in class SAFE_STATE while a ZEROISE waits (R425, R451, R459), which refutes O54. -/

set_option Elab.async false

namespace Sys2Proof.Machine

/-- Reset with the main die powered and its start to come, a burst and a ZEROISE that waits for its end. -/
def romWaits : State := { State.reset.withZeroise with power := { State.reset.power with house := true, cold := false } }

theorem romStart_zeroises : lifecycleOf (exec (.bootRomStart 1) romWaits) = 1 := by decide +kernel

end Sys2Proof.Machine

open Sys2Proof Sys2Proof.Machine

/-- Refutes O54: the Firebreak that the failed test starts ends the burst, upon which the waiting ZEROISE takes LIFECYCLE from ERROR to 1. -/
theorem not_measuredStart : ¬ Obligations.MeasuredStart := by
  unfold Obligations.MeasuredStart
  rintro ⟨hfails, _⟩
  obtain ⟨u, hu, hlife, _⟩ := hfails 1 romWaits (by decide +kernel) (by decide +kernel) (by decide +kernel) (by decide +kernel) (by decide +kernel)
    (by decide +kernel)
  have hzeroised := romStart_zeroises
  rw [hu, lifecycleOf, hlife] at hzeroised
  exact absurd hzeroised (by decide)
end

section
/-! A download into a slot that holds an image (R479), which refutes O55. -/

set_option Elab.async false

namespace Sys2Proof.Machine

/-- Reset with the security officer's role, a confirmed calibration record, and a byte programmed in its inactive slot. -/
def slotHoldsByte : State :=
  { State.reset.wrs [(F.SEC_STATUS_HOST_ROLE, 2), (F.GLB_BOOT_KIND_CONFIRMED 3, 1)] with flash := [(0x60000, 5)] }

/-- The byte programmed at the slot's first address in the answer's state, as the flash keeps it. -/
def slotByte : Host.Outcome State Fault Refusal → Byte
  | .next u => Mem.byte u.flash 0x60000
  | _ => 5

theorem download_erases : slotByte (exec (.download (.host 0) (3 : Fin 4) ⟨0, some [1]⟩ 1) slotHoldsByte) = 0 := by decide +kernel

end Sys2Proof.Machine

open Sys2Proof Sys2Proof.Machine

/-- Refutes O55: a download that starts erases the inactive slot, so the byte programmed there does not stay. -/
theorem not_updateService : ¬ Obligations.UpdateService := by
  unfold Obligations.UpdateService
  rintro ⟨hdownload, _⟩
  obtain ⟨u, hu, _, _, _, _, _, _, _, hquiet⟩ := hdownload 0 3 ⟨0, some [1]⟩ 1 slotHoldsByte (by decide +kernel) (by decide +kernel)
    (by decide +kernel) (by decide +kernel) (by decide +kernel) (by decide +kernel) (by decide +kernel) (by decide +kernel)
  have hbyte := download_erases
  rw [hu, slotByte, (hquiet 0x60000).2.2.1] at hbyte
  exact absurd hbyte (by decide +kernel)
end

section
/-! The host queues (R307, R311 to R317, R323, R328, R330), which settle O33. -/

set_option Elab.async false

namespace Sys2Proof.Machine

/-! ## What vectors and occurrences change of the host interface (R329) -/

/-- Of the host interface nothing differs but pending vectors, vectors sent and the queues' entries without a vector. -/
def Signalled (s t : State) : Prop :=
  t.hq = { s.hq with vecPending := t.hq.vecPending, sent := t.hq.sent, queues := t.hq.queues } ∧
    ∀ q : Fin 16, t.hq.queues[q] = { s.hq.queues[q] with unsignalled := t.hq.queues[q].unsignalled }

theorem Signalled.of_hq {s t : State} (h : t.hq = s.hq) : Signalled s t := ⟨by rw [h], fun q => by rw [h]⟩

theorem Signalled.trans {s t u : State} (h : Signalled s t) (k : Signalled t u) : Signalled s u :=
  ⟨by rw [k.1, h.1], fun q => by rw [k.2, h.2]⟩

theorem Signalled.signal (s : State) (v : Nat) : Signalled s (s.signal v) := by
  rw [State.signal]
  split
  · exact ⟨rfl, fun _ => rfl⟩
  · split
    · split
      · rename_i hv hq
        refine ⟨rfl, fun q => ?_⟩
        by_cases h : q = ⟨v, hq⟩
        · rw [h]; exact (upd_same ..).trans (by rw [show _ = _ from upd_same s.hq.queues ⟨v, hq⟩ fun k => { k with unsignalled := 0 }])
        · exact (upd_other _ _ _ _ h).trans (by rw [show _ = _ from upd_other s.hq.queues ⟨v, hq⟩ q (fun k => { k with unsignalled := 0 }) h])
      · exact ⟨rfl, fun _ => rfl⟩
    · exact .of_hq rfl

theorem Signalled.raiseSch (s : State) (bits : Nat) : Signalled s (s.raiseSch bits) := by
  rw [State.raiseSch]
  split
  · exact .of_hq rfl
  · exact (Signalled.of_hq (State.wr_hq ..)).trans (.signal ..)

theorem Signalled.occurrence (s : State) (cls key value : Nat) : Signalled s (s.occurrence cls key value) := by
  rw [State.occurrence]
  split
  · exact .of_hq rfl
  · exact (Signalled.of_hq rfl).trans (.raiseSch ..)

theorem Signalled.raised (s : State) (r : EvReg) (bits : Nat) : Signalled s (s.raised r bits) := by
  rw [State.raised]
  split
  · exact .of_hq rfl
  · split
    · exact (Signalled.signal ..).trans (.occurrence ..)
    · exact .signal ..

theorem Signalled.event (s : State) (r : EvReg) (bit : Nat) : Signalled s (s.event r bit) :=
  (Signalled.of_hq (State.wr_hq ..)).trans (.raised ..)

section
variable {s t : State} (h : Signalled s t)
include h

theorem Signalled.inFlight : t.hq.inFlight = s.hq.inFlight := by rw [h.1]

theorem Signalled.compls : t.hq.compls = s.hq.compls := by rw [h.1]

theorem Signalled.stopped (q : Fin 16) : t.hq.queues[q].stopped = s.hq.queues[q].stopped := by rw [h.2]

theorem Signalled.sqTail (q : Fin 16) : t.hq.queues[q].sqTail = s.hq.queues[q].sqTail := by rw [h.2]
end

/-! ## Doorbells (R312, R314) -/

theorem upd_upd {α : Type} {n : Nat} (v : Vector α n) (i : Fin n) (f g : α → α) : upd (upd v i f) i g = upd v i fun x => g (f x) := by
  refine Vector.ext fun k hk => ?_
  by_cases h : (⟨k, hk⟩ : Fin n) = i
  · subst h
    exact (upd_same (upd v ⟨k, hk⟩ f) ⟨k, hk⟩ g).trans ((congrArg g (upd_same v ⟨k, hk⟩ f)).trans (upd_same v ⟨k, hk⟩ fun x => g (f x)).symm)
  · exact (upd_other _ _ ⟨k, hk⟩ _ h).trans ((upd_other _ _ ⟨k, hk⟩ _ h).trans (upd_other _ _ ⟨k, hk⟩ _ h).symm)

theorem State.modQueue_modQueue (s : State) (q : Fin 16) (f g : QueuePair → QueuePair) :
    (s.modQueue q f).modQueue q g = s.modQueue q fun k => g (f k) := by
  simp only [State.modQueue, upd_upd]

theorem State.retire_wseq (s : State) : s.retire.rd F.HQ_WSEQ_COUNT = (s.rd F.HQ_WSEQ_COUNT + 1) % 2 ^ 32 := State.rd_wr_same _ _ _ (by decide)

/-- A doorbell that changes one queue. -/
theorem doorbell_moves {c : Instr} {s : State} {q : Fin 16} {f : QueuePair → QueuePair} (hexec : exec c s = .next (s.modQueue q f).retire) :
    Answers c s fun u =>
      u.hq.queues[q] = f s.hq.queues[q] ∧ u.rd F.HQ_WSEQ_COUNT = (s.rd F.HQ_WSEQ_COUNT + 1) % 2 ^ 32 ∧
      (∀ k, k ≠ q → u.hq.queues[k] = s.hq.queues[k]) ∧ u = { s with regs := u.regs, hq := { s.hq with queues := u.hq.queues } } ∧
      Quiet [wseqOut] s u :=
  ⟨_, hexec, upd_same .., State.retire_wseq _, fun _ hk => upd_other _ _ _ _ hk, rfl,
    ((RegsSame.of_regs _ rfl).trans (RegsSame.incWrap _ _ _ (by simp [wseqOut]))), .of_eq rfl rfl rfl rfl⟩

theorem sqTail_moves {q : Fin 16} {tail : Nat} {s : State} (hen : s.on (F.HQ_SQ_CFG_EN q) = true) (hstop : s.hq.queues[q].stopped = false)
    (hlt : tail % 4096 < s.sqSize q) :
    exec (.sqTailDoorbell q tail) s = .next (s.modQueue q fun k => { k with sqTail := tail % 4096 }).retire := by
  refine congrArg (fun x : State => Host.Outcome.next x.retire) ?_
  rw [State.sqTail, if_neg (by rw [hen, hstop]; decide), if_neg (by omega)]

theorem cqHead_moves {q : Fin 16} {head : Nat} {s : State} (hen : s.on (F.HQ_CQ_CFG_EN q) = true) (hlt : head % 4096 < s.cqSize q) :
    exec (.cqHeadDoorbell q head) s = .next (s.modQueue q fun k => { k with cqHead := head % 4096, hold := false }).retire := by
  refine congrArg (fun x : State => Host.Outcome.next x.retire) ?_
  rw [State.cqHead, if_pos ⟨hen, hlt⟩]
  exact State.modQueue_modQueue ..

/-- What a queue cannot do stops it. -/
theorem State.queueError_keeps (s : State) (q : Fin 16) {code : Nat} (hcode : code < 4) {u : State} (hu : s.queueError q code = u) :
    u.hq.queues[q].stopped = true ∧ u.hq.queues[q].sqTail = s.hq.queues[q].sqTail ∧ u.rd (F.HQ_Q_STAT_ERR q) = 1 ∧
    u.rd (F.HQ_Q_STAT_ERR_CODE q) = code ∧ bitOf (u.rd Ev.hq.bits) 4 = true ∧
    u.rd Ev.hq.bits = (s.rd Ev.hq.bits ||| 2 ^ 4) % 2 ^ 32 ∧ u.hq.inFlight = s.hq.inFlight ∧
    Quiet ((F.HQ_Q_STAT_ERR q).addr :: evOut Ev.hq) s u := by
  have hq := q.isLt
  obtain ⟨x, hx⟩ : ∃ x, ((s.modQueue q fun k => { k with stopped := true }).wr (F.HQ_Q_STAT_ERR q) 1).wr (F.HQ_Q_STAT_ERR_CODE q) code = x := ⟨_, rfl⟩
  have hxerr : x.rd (F.HQ_Q_STAT_ERR q) = 1 := by
    rw [← hx, State.rd_wr_apart _ _ _ _ (by simp [F.HQ_Q_STAT_ERR_CODE]) (by simp [Fld.apart, F.HQ_Q_STAT_ERR, F.HQ_Q_STAT_ERR_CODE]),
      State.rd_wr_fit _ _ _ (by simp [F.HQ_Q_STAT_ERR]) (by simp [F.HQ_Q_STAT_ERR])]
  have hxcode : x.rd (F.HQ_Q_STAT_ERR_CODE q) = code := by
    rw [← hx, State.rd_wr_fit _ _ _ (by simp [F.HQ_Q_STAT_ERR_CODE]) (by simpa [F.HQ_Q_STAT_ERR_CODE] using hcode)]
  have hxhq : x.hq = { s.hq with queues := upd s.hq.queues q fun k => { k with stopped := true } } := by
    rw [← hx, State.wr_hq, State.wr_hq, State.modQueue]
  have hxq : Quiet [(F.HQ_Q_STAT_ERR q).addr] s x := by
    rw [← hx]
    refine Quiet.andWr (Quiet.andWr ⟨.of_regs _ rfl, .of_eq rfl rfl rfl rfl⟩ ?_) ?_ <;> simp [F.HQ_Q_STAT_ERR, F.HQ_Q_STAT_ERR_CODE]
  rw [State.queueError, State.wrs, List.foldl_cons, List.foldl_cons, List.foldl_nil] at hu
  dsimp only at hu
  rw [hx] at hu
  have hsig := Signalled.event x Ev.hq 4
  have hregs := x.event_regs Ev.hq 4
  have hbits := x.event_bits Ev.hq 4 (by decide)
  have hquiet : Quiet ((F.HQ_Q_STAT_ERR q).addr :: evOut Ev.hq) s (x.event Ev.hq 4) :=
    (hxq.mono (by simp)).andEvent fun _ h => List.mem_cons_of_mem _ h
  have hbit := x.event_bit Ev.hq (i := 4) (by decide) (by decide)
  rw [hu] at hsig hregs hbits hquiet hbit
  have hout : (F.HQ_Q_STAT_ERR q).addr ∉ evOut Ev.hq := by
    simp only [F.HQ_Q_STAT_ERR, evOut, Ev.hq, Ev.sch, F.SCH_UNCLAIMED_COUNT, List.mem_cons, List.not_mem_nil, or_false]; omega
  refine ⟨?_, ?_, (hregs.rd _ hout).trans hxerr, (hregs.rd (F.HQ_Q_STAT_ERR_CODE q) hout).trans hxcode, hbit, ?_, ?_, hquiet⟩
  · rw [hsig.stopped, hxhq]; exact congrArg QueuePair.stopped (upd_same s.hq.queues q _)
  · rw [hsig.sqTail, hxhq]
    show (upd s.hq.queues q fun k => { k with stopped := true })[q].sqTail = _
    rw [upd_same]
  · rw [hbits, hxq.rd]
    simp only [F.HQ_Q_STAT_ERR, EvReg.bits, Ev.hq, List.mem_singleton]; omega
  · rw [hsig.inFlight, hxhq]

theorem sqTail_stops {q : Fin 16} {tail : Nat} {s : State} (hen : s.on (F.HQ_SQ_CFG_EN q) = true) (hstop : s.hq.queues[q].stopped = false)
    (hge : s.sqSize q ≤ tail % 4096) : Answers (.sqTailDoorbell q tail) s fun u =>
      u.hq.queues[q].stopped = true ∧ u.hq.queues[q].sqTail = s.hq.queues[q].sqTail ∧ u.rd (F.HQ_Q_STAT_ERR q) = 1 ∧
      u.rd (F.HQ_Q_STAT_ERR_CODE q) = 1 ∧ bitOf (u.rd Ev.hq.bits) 4 = true ∧
      Quiet ([wseqOut, (F.HQ_Q_STAT_ERR q).addr] ++ evOut Ev.hq) s u := by
  have hexec : exec (.sqTailDoorbell q tail) s = .next (s.queueError q 1).retire := by
    refine congrArg (fun x : State => Host.Outcome.next x.retire) ?_
    rw [State.sqTail, if_neg (by rw [hen, hstop]; decide), if_pos hge]
  obtain ⟨hstopped, htail, herr, hcode, hbit, _, _, hquiet⟩ := s.queueError_keeps q (code := 1) (by decide) rfl
  generalize s.queueError q 1 = x at *
  have hother : ∀ f : Fld, f.addr ≠ 0xC0004 → x.retire.rd f = x.rd f := fun f hf => State.rd_wr_other _ _ _ _ (.inl hf)
  refine ⟨_, hexec, hstopped, htail, ?_, ?_, ?_, ?_⟩
  · rw [hother _ (by simp only [F.HQ_Q_STAT_ERR]; omega), herr]
  · rw [hother _ (by simp only [F.HQ_Q_STAT_ERR_CODE]; omega), hcode]
  · rw [hother _ (by decide), hbit]
  · exact (hquiet.mono fun _ h => List.mem_cons_of_mem _ h).andWr (f := F.HQ_WSEQ_COUNT) (by simp [wseqOut])

/-! ## Fetching (R313 to R317) -/

/-- A command no longer accepted under a tag and epoch in flight. -/
abbrev State.tagFree (s : State) (l : List Byte) : Prop :=
  (s.hq.inFlight.any fun f => f.hdr.tag == leAt l 2 2 % 512 && f.hdr.epoch == fieldOf (leAt l 2 2) 9 6) = false

/-- The header that an entry names, and the command it puts in flight. -/
def entryHdr (q : Fin 16) (l : List Byte) : Hdr := ⟨q, leAt l 2 2 % 512, fieldOf (leAt l 2 2) 9 6, bitOf (leAt l 1 1) 0⟩
def State.entryFlight (s : State) (q : Fin 16) (l : List Byte) : InFlight :=
  ⟨entryHdr q l, leAt l 0 1, s.hq.nextOrder, false, s.rd F.CLK_STATUS_SRC != 0, s.reloading, !s.bursts.isEmpty || s.burstBefore s.hq.nextOrder⟩

/-- The queue's head and the round robin past an entry, and then the entry in flight. -/
def State.fetched (s : State) (q : Fin 16) : State :=
  let s := s.wr (F.HQ_SQ_HEAD_HEAD q) ((s.rd (F.HQ_SQ_HEAD_HEAD q) + 1) % max 1 (s.sqSize q))
  { s with hq := { s.hq with rrNext := (q.1 + 1) % 16 } }
def State.taken (s : State) (q : Fin 16) (l : List Byte) : State :=
  { s with hq := { s.hq with
    inFlight := s.hq.inFlight ++ [s.entryFlight q l], nextOrder := s.hq.nextOrder + 1
    tags := cellPut 64 (leAt l 2 2 % 512) (fieldOf (leAt l 2 2) 9 6) s.hq.tags } }

theorem State.accept_free {s : State} {q : Fin 16} {l : List Byte} (hfree : s.tagFree l) : s.accept q l =
    match (s.taken q l).entryRefusal l with
    | none => s.taken q l
    | some st =>
      let mark := fun g : InFlight => if g.order = s.hq.nextOrder then { g with begun := true } else g
      { s.taken q l with hq := { (s.taken q l).hq with inFlight := (s.taken q l).hq.inFlight.map mark } }.complete (entryHdr q l) st := by
  rw [State.accept]
  dsimp only
  rw [if_neg (by rw [hfree]; decide)]
  rfl

/-- An entry's refusal reads four fields. -/
theorem State.entryRefusal_of {s t : State} (l : List Byte) (hstage : t.rd F.GLB_BOOT_STAT_STAGE = s.rd F.GLB_BOOT_STAT_STAGE)
    (hrole : t.rd F.SEC_STATUS_HOST_ROLE = s.rd F.SEC_STATUS_HOST_ROLE) (hlife : t.rd F.SEC_STATUS_LIFECYCLE = s.rd F.SEC_STATUS_LIFECYCLE)
    (hstate : t.rd F.FLT_STATUS_STATE = s.rd F.FLT_STATUS_STATE) : t.entryRefusal l = s.entryRefusal l := by
  simp only [State.entryRefusal, State.cmdPermitted, State.clearing, hstage, hrole, hlife, hstate]
  rfl

section
variable {q : Fin 16} {l : List Byte} {s : State}

theorem State.fetched_rd (s : State) (q : Fin 16) {f : Fld} (hf : f.addr ≠ (F.HQ_SQ_HEAD_HEAD q).addr) : (s.fetched q).rd f = s.rd f :=
  State.rd_wr_other _ _ _ _ (.inl hf)

theorem State.fetched_flight (s : State) (q : Fin 16) (l : List Byte) : (s.fetched q).entryFlight q l = s.entryFlight q l := by
  have hsrc := s.fetched_rd q (f := F.CLK_STATUS_SRC) (by simp only [F.CLK_STATUS_SRC, F.HQ_SQ_HEAD_HEAD]; omega)
  have hstr := s.fetched_rd q (f := F.STR_STATUS_STATE) (by simp only [F.STR_STATUS_STATE, F.HQ_SQ_HEAD_HEAD]; omega)
  rw [State.entryFlight, State.entryFlight, State.reloading, State.reloading, hsrc, hstr]
  rfl

theorem State.fetched_refusal (s : State) (q : Fin 16) (l : List Byte) : ((s.fetched q).taken q l).entryRefusal l = s.entryRefusal l := by
  refine State.entryRefusal_of l ?_ ?_ ?_ ?_ <;> refine s.fetched_rd q ?_ <;>
    simp only [F.GLB_BOOT_STAT_STAGE, F.SEC_STATUS_HOST_ROLE, F.SEC_STATUS_LIFECYCLE, F.FLT_STATUS_STATE, F.HQ_SQ_HEAD_HEAD] <;> omega

theorem State.fetched_keeps (s : State) (q : Fin 16) :
    (s.fetched q).rd (F.HQ_SQ_HEAD_HEAD q) = (s.rd (F.HQ_SQ_HEAD_HEAD q) + 1) % max 1 (s.sqSize q) % 2 ^ 12 ∧
    (s.fetched q).hq = { s.hq with rrNext := (q.1 + 1) % 16 } ∧ s.fetched q = { s with regs := (s.fetched q).regs, hq := (s.fetched q).hq } ∧
    Quiet [(F.HQ_SQ_HEAD_HEAD q).addr] s (s.fetched q) :=
  ⟨State.rd_wr_same _ _ _ (by simp [F.HQ_SQ_HEAD_HEAD]), rfl, rfl, (RegsSame.wr s (F.HQ_SQ_HEAD_HEAD q) _ (by simp)).andRegs rfl, .of_eq rfl rfl rfl rfl⟩

theorem fetch_accepts (hturn : s.turn = some q) (hd3 : s.hq.d3 = false) (hep : s.epReset = false) (hroom : s.hq.inFlight.length < 512)
    (hopc : leAt l 0 1 < 0x40 ∨ s.on F.SEC_STATUS_ST_DONE = true) :
    exec (.commandFetch q (some l)) s = .next ((s.fetched q).accept q l) := by
  show execCommandFetch q (some l) s = _
  rw [execCommandFetch, if_neg (by rw [hturn, hd3, hep]; simp [hroom])]
  dsimp only
  rw [if_neg]
  · rfl
  · rintro ⟨hlo, _, hdone⟩
    rcases hopc with h | h
    · omega
    · rw [hdone] at h; exact absurd h (by decide)

theorem fetch_inFlight (hturn : s.turn = some q) (hd3 : s.hq.d3 = false) (hep : s.epReset = false) (hroom : s.hq.inFlight.length < 512)
    (hopc : leAt l 0 1 < 0x40 ∨ s.on F.SEC_STATUS_ST_DONE = true) (hok : s.entryRefusal l = none) (hfree : s.tagFree l) :
    Answers (.commandFetch q (some l)) s fun u =>
      u.hq.inFlight = s.hq.inFlight ++ [s.entryFlight q l] ∧
      u.hq.compls = s.hq.compls ∧ u.hq.nextOrder = s.hq.nextOrder + 1 ∧ u.hq.rrNext = (q.1 + 1) % 16 ∧
      u.rd (F.HQ_SQ_HEAD_HEAD q) = (s.rd (F.HQ_SQ_HEAD_HEAD q) + 1) % max 1 (s.sqSize q) % 2 ^ 12 ∧
      u = { s with regs := u.regs, hq := u.hq } ∧ Quiet [(F.HQ_SQ_HEAD_HEAD q).addr] s u := by
  have hrefusal := s.fetched_refusal q l
  have hflight := s.fetched_flight q l
  obtain ⟨hhead, hhq, honly, hquiet⟩ := s.fetched_keeps q
  have hexec := fetch_accepts hturn hd3 hep hroom hopc
  rw [State.accept_free (by rw [State.tagFree, hhq]; exact hfree), hrefusal, hok] at hexec
  refine ⟨_, hexec, ?_, ?_, ?_, ?_, hhead, ?_, hquiet.1.andRegs rfl, hquiet.2⟩
  · show (s.fetched q).hq.inFlight ++ [(s.fetched q).entryFlight q l] = _
    rw [hflight, hhq]
  · show (s.fetched q).hq.compls = _
    rw [hhq]
  · show (s.fetched q).hq.nextOrder + 1 = _
    rw [hhq]
  · show (s.fetched q).hq.rrNext = _
    rw [hhq]
  · exact honly ▸ rfl

theorem fetch_refuses {st : Nat} (hturn : s.turn = some q) (hd3 : s.hq.d3 = false) (hep : s.epReset = false) (hroom : s.hq.inFlight.length < 512)
    (hopc : leAt l 0 1 < 0x40 ∨ s.on F.SEC_STATUS_ST_DONE = true) (hst : s.entryRefusal l = some st) (hfree : s.tagFree l) :
    Answers (.commandFetch q (some l)) s fun u =>
      Completes s u (entryHdr q l) st 0 0 ∧ u = { s with regs := u.regs, hq := u.hq } ∧ Quiet [(F.HQ_SQ_HEAD_HEAD q).addr] s u := by
  have hrefusal := s.fetched_refusal q l
  obtain ⟨_, hhq, honly, hquiet⟩ := s.fetched_keeps q
  have hexec := fetch_accepts hturn hd3 hep hroom hopc
  rw [State.accept_free (by rw [State.tagFree, hhq]; exact hfree), hrefusal, hst] at hexec
  refine ⟨_, hexec, Completes.of_complete ?_, honly ▸ rfl, hquiet.1.andRegs rfl, hquiet.2⟩
  show (s.fetched q).hq.compls = _
  rw [hhq]

theorem fetch_stops (hturn : s.turn = some q) (hd3 : s.hq.d3 = false) (hep : s.epReset = false) (hroom : s.hq.inFlight.length < 512) :
    Answers (.commandFetch q none) s fun u =>
      u.hq.queues[q].stopped = true ∧ u.rd (F.HQ_Q_STAT_ERR_CODE q) = 2 ∧ bitOf (u.rd Ev.hq.bits) 5 = true ∧
      u.hq.inFlight = s.hq.inFlight ∧ Quiet ((F.HQ_Q_STAT_ERR q).addr :: evOut Ev.hq) s u := by
  have hexec : exec (.commandFetch q none) s = .next ((s.event Ev.hq 5).queueError q 2) := by
    show execCommandFetch q none s = _
    rw [execCommandFetch, if_neg (by rw [hturn, hd3, hep]; simp [hroom])]
  have hsig := Signalled.event s Ev.hq 5
  have hquiet : Quiet (evOut Ev.hq) s (s.event Ev.hq 5) := .of_event (State.event_event ..) (State.event_regs s Ev.hq 5)
  have hbit := s.event_bit Ev.hq (i := 5) (by decide) (by decide)
  generalize s.event Ev.hq 5 = x at *
  obtain ⟨hstopped, _, _, hcode, _, hbits, hflight, hq⟩ := x.queueError_keeps q (code := 2) (by decide) rfl
  refine ⟨_, hexec, hstopped, hcode, ?_, hflight.trans hsig.inFlight, (hquiet.mono fun _ h => List.mem_cons_of_mem _ h).trans hq⟩
  rw [hbits, Nat.or_comm]
  exact bitOf_or_mod hbit (by decide)
end


/-! ## A host that does not answer (R326) -/

/-- The command of an order begun. -/
def InFlight.begunAt (order : Nat) (g : InFlight) : InFlight := if g.order = order then { g with begun := true } else g

theorem readFails {h : Hdr} {f : InFlight} {s : State}
    (hfind : (s.hq.inFlight.find? fun f => sameHdr f.hdr h && [0x10, 0x11, 0x13, 0x41, 0x43, 0x44].contains f.opc) = some f)
    (hbegun : f.begun = false) (hnone : (s.hq.compls.any fun c => sameHdr c.hdr h && !c.intake) = false) :
    Answers (.hostReadResponse h false) s fun u =>
      Completes s u h stHostReadFailed 0 0 ∧ bitOf (u.rd Ev.hq.bits) 5 = true ∧ EventOnly s u ∧ Quiet (evOut Ev.hq) s u := by
  have hexec : exec (.hostReadResponse h false) s =
      .next ({ s.event Ev.hq 5 with hq := { (s.event Ev.hq 5).hq with
        inFlight := (s.event Ev.hq 5).hq.inFlight.map (InFlight.begunAt f.order) } }.complete h stHostReadFailed) := by
    show execHostReadResponse h false s = _
    rw [execHostReadResponse, if_neg (by decide), hfind]
    dsimp only
    rw [if_neg (by rw [hnone]; decide), if_neg (by rw [hbegun]; decide)]
    rfl
  have hcompls := (Signalled.event s Ev.hq 5).compls
  have honly := s.event_event Ev.hq 5
  have hregs := s.event_regs Ev.hq 5
  have hbit := s.event_bit Ev.hq (i := 5) (by decide) (by decide)
  generalize s.event Ev.hq 5 = x at *
  exact ⟨_, hexec, Completes.of_complete hcompls, hbit, honly.trans rfl, hregs.andRegs rfl, honly.bytes⟩

/-! ## Completions (R314 to R317, R328) -/

theorem stale_dropped {q : Fin 16} {c : Compl} {ok : Bool} {s : State} (hfind : (s.hq.compls.find? fun c => c.hdr.q == q) = some c)
    (hd3 : s.hq.d3 = false) (hep : s.epReset = false) (hen : s.on (F.HQ_CQ_CFG_EN q) = false) : Answers (.completionWrite q ok) s fun u =>
      u.hq.compls = s.hq.compls.erase c ∧ u.rd F.HQ_STALE_CNT_COUNT = min (s.rd F.HQ_STALE_CNT_COUNT + 1) 65535 ∧
      bitOf (u.rd Ev.hq.bits) 0 = true ∧ EventOnly s u ∧ Quiet ((F.HQ_STALE_CNT_COUNT).addr :: evOut Ev.hq) s u := by
  have hexec : exec (.completionWrite q ok) s = .next (((s.settle c).incSat F.HQ_STALE_CNT_COUNT).event Ev.hq 0) := by
    show execCompletionWrite q ok s = _
    rw [execCompletionWrite, hfind]
    dsimp only
    rw [if_neg (by rw [hd3, hep]; decide), if_pos (.inl hen)]
  obtain ⟨x, hx⟩ : ∃ x, (s.settle c).incSat F.HQ_STALE_CNT_COUNT = x := ⟨_, rfl⟩
  have hcount : x.rd F.HQ_STALE_CNT_COUNT = min (s.rd F.HQ_STALE_CNT_COUNT + 1) 65535 := by
    rw [← hx, State.rd_incSat]
    · rfl
    · decide
  have hxcompls : x.hq.compls = s.hq.compls.erase c := by rw [← hx]; rfl
  have hxonly : EventOnly s x := by rw [← hx]; rfl
  have hxregs : RegsSame [(F.HQ_STALE_CNT_COUNT).addr] s x := by
    rw [← hx]; exact (RegsSame.of_regs _ rfl).trans (RegsSame.incSat _ _ _ (by simp))
  rw [hx] at hexec
  have honly := hxonly.trans (x.event_event Ev.hq 0)
  refine ⟨_, hexec, (Signalled.event x Ev.hq 0).compls.trans hxcompls, ((x.event_regs Ev.hq 0).rd _ (by decide)).trans hcount,
    x.event_bit Ev.hq (by decide) (by decide), honly,
    (hxregs.mono fun _ h => List.mem_cons.2 (.inl (List.mem_singleton.1 h))).andEvent fun _ h => List.mem_cons_of_mem _ h, honly.bytes⟩

theorem cqFull_waits {q : Fin 16} {c : Compl} {ok : Bool} {s : State} (hfind : (s.hq.compls.find? fun c => c.hdr.q == q) = some c)
    (hen : s.on (F.HQ_CQ_CFG_EN q) = true) (hep : c.intake = true ∨ s.tagEpoch c.hdr.tag = some c.hdr.epoch) (hfull : s.cqFull q = true) :
    NoEffect (.completionWrite q ok) s := by
  show execCompletionWrite q ok s = _
  rw [execCompletionWrite, hfind]
  dsimp only
  split
  · rfl
  · rw [if_neg, if_pos (.inr hfull)]
    rw [hen]
    rcases hep with h | h <;> simp [h]

/-- Bytes read where a string was written last. -/
theorem takeBytes_skip {m : Mem} {a n : Nat} (h : ∀ c ∈ m, a < c.1) : takeBytes (n + 1) a m = unlistedByte :: takeBytes n (a + 1) m := by
  cases m with
  | nil => cases n <;> rfl
  | cons c r => rw [takeBytes, if_neg (by have := h c List.mem_cons_self; omega)]

theorem le_of_mem_listed {l : List Byte} : ∀ {a : Nat} {c : Nat × Byte}, c ∈ listed a l → a ≤ c.1 ∧ c.1 < a + l.length := by
  induction l with
  | nil => intro a c h; exact absurd h List.not_mem_nil
  | cons b r ih =>
    intro a c h
    rw [listed] at h
    have hstep : c ∈ listed (a + 1) r → a ≤ c.1 ∧ c.1 < a + (b :: r).length := fun h => by
      have := ih h
      rw [List.length_cons]; omega
    split at h
    · exact hstep h
    · rcases List.mem_cons.1 h with rfl | h
      · simp
      · exact hstep h

theorem takeBytes_listed {rest : Mem} {l : List Byte} : ∀ {a n : Nat}, n ≤ l.length → (∀ c ∈ rest, a + n ≤ c.1) →
    takeBytes n a (listed a l ++ rest) = l.take n := by
  induction l with
  | nil => intro a n hn _; obtain rfl : n = 0 := by simpa using hn
           simp [takeBytes]
  | cons b r ih =>
    intro a n hn hrest
    cases n with
    | zero => simp [takeBytes]
    | succ n =>
      have hr := ih (a := a + 1) (n := n) (by simpa using hn) fun c hc => by have := hrest c hc; omega
      rw [listed, List.take_succ_cons]
      split
      · rename_i hb
        rw [takeBytes_skip, hr, hb]
        intro c hc
        rcases List.mem_append.1 hc with h | h
        · have := le_of_mem_listed h; omega
        · have := hrest c h; omega
      · rw [List.cons_append, takeBytes, if_pos rfl, hr]

theorem filter_listed {l : List Byte} : ∀ {a k : Nat}, k ≤ l.length →
    (listed a l).filter (fun c => decide (a + k ≤ c.1)) = listed (a + k) (l.drop k) := by
  induction l with
  | nil => intro a k hk; obtain rfl : k = 0 := by simpa using hk
           rfl
  | cons b r ih =>
    intro a k hk
    cases k with
    | zero =>
      rw [Nat.add_zero, List.drop_zero]
      exact List.filter_eq_self.2 fun c hc => decide_eq_true (le_of_mem_listed hc).1
    | succ k =>
      have hr := ih (a := a + 1) (k := k) (by simpa using hk)
      rw [show a + 1 + k = a + (k + 1) by omega] at hr
      rw [listed, List.drop_succ_cons]
      split
      · exact hr
      · rw [List.filter_cons_of_neg (by simp), hr]

theorem Mem.bytes_puts (m : Mem) {a k n : Nat} {l : List Byte} (h : k + n ≤ l.length) :
    Mem.bytes (Mem.puts m a l) (a + k) n = (l.drop k).take n := by
  rw [Mem.bytes, Mem.puts, List.filter_append, List.filter_append, filter_listed (by omega)]
  have hbelow : (m.filter fun c => decide (c.1 < a)).filter (fun c => decide (a + k ≤ c.1)) = [] := by
    rw [List.filter_eq_nil_iff]
    intro c hc
    have := of_decide_eq_true (List.mem_filter.1 hc).2
    simp; omega
  rw [hbelow, List.nil_append]
  refine takeBytes_listed (by rw [List.length_drop]; omega) fun c hc => ?_
  have := of_decide_eq_true (List.mem_filter.1 (List.mem_filter.1 hc).1).2
  omega

theorem complEntry_length (c : Compl) (phase : Nat) : (complEntry c phase).length = 16 := by simp [complEntry, bytesLE]

/-- A completion's entry in host memory, with the tail behind it. -/
def State.entryPut (s : State) (q : Fin 16) (c : Compl) : State :=
  let next := (s.rd (F.HQ_CQ_TAIL_TAIL q) + 1) % max 1 (s.cqSize q)
  { s with host := Mem.puts s.host (s.rdP (F.HQ_CQ_BASE_LO_ADDR q) + 16 * s.rd (F.HQ_CQ_TAIL_TAIL q)) (complEntry c (s.rd (F.HQ_CQ_TAIL_PHASE q))) }.wrs
    [(F.HQ_CQ_TAIL_TAIL q, next), (F.HQ_CQ_TAIL_PHASE q, if next = 0 then 1 - s.rd (F.HQ_CQ_TAIL_PHASE q) else s.rd (F.HQ_CQ_TAIL_PHASE q))]

theorem State.entryPut_keeps (s : State) (q : Fin 16) (c : Compl) {u : State} (hu : s.entryPut q c = u) :
    u.rd (F.HQ_CQ_TAIL_TAIL q) = (s.rd (F.HQ_CQ_TAIL_TAIL q) + 1) % max 1 (s.cqSize q) % 2 ^ 12 ∧
    u.rd (F.HQ_CQ_TAIL_PHASE q) = (if (s.rd (F.HQ_CQ_TAIL_TAIL q) + 1) % max 1 (s.cqSize q) = 0 then 1 - s.rd (F.HQ_CQ_TAIL_PHASE q)
      else s.rd (F.HQ_CQ_TAIL_PHASE q)) ∧
    u = { s with regs := u.regs
                 host := Mem.puts s.host (s.rdP (F.HQ_CQ_BASE_LO_ADDR q) + 16 * s.rd (F.HQ_CQ_TAIL_TAIL q)) (complEntry c (s.rd (F.HQ_CQ_TAIL_PHASE q))) } ∧
    RegsSame [(F.HQ_CQ_TAIL_TAIL q).addr] s u := by
  have hphase : s.rd (F.HQ_CQ_TAIL_PHASE q) < 2 := s.rd_lt _
  rw [State.entryPut] at hu
  generalize (s.rd (F.HQ_CQ_TAIL_TAIL q) + 1) % max 1 (s.cqSize q) = next at *
  have hp : (if next = 0 then 1 - s.rd (F.HQ_CQ_TAIL_PHASE q) else s.rd (F.HQ_CQ_TAIL_PHASE q)) < 2 := by split <;> omega
  generalize (if next = 0 then 1 - s.rd (F.HQ_CQ_TAIL_PHASE q) else s.rd (F.HQ_CQ_TAIL_PHASE q)) = p at *
  generalize hv : ({ s with host := _ } : State) = v at hu
  have hvregs : v.regs = s.regs := by rw [← hv]
  have honly : RegsOnly v u := by rw [← hu]; exact RegsOnly.wrs ..
  rw [State.wrs, List.foldl_cons, List.foldl_cons, List.foldl_nil] at hu
  dsimp only at hu
  refine ⟨?_, ?_, by rw [honly, ← hv], ?_⟩
  · rw [← hu, State.rd_wr_apart _ _ _ _ (by simp [F.HQ_CQ_TAIL_PHASE]) (by simp [Fld.apart, F.HQ_CQ_TAIL_TAIL, F.HQ_CQ_TAIL_PHASE]),
      State.rd_wr_same _ _ _ (by simp [F.HQ_CQ_TAIL_TAIL])]
    rfl
  · rw [← hu, State.rd_wr_fit _ _ _ (by simp [F.HQ_CQ_TAIL_PHASE]) (by simpa [F.HQ_CQ_TAIL_PHASE] using hp)]
  · rw [← hu]
    refine RegsSame.andWr (RegsSame.andWr (.of_regs _ hvregs) ?_) ?_ <;> simp [F.HQ_CQ_TAIL_TAIL, F.HQ_CQ_TAIL_PHASE]

theorem State.countEntry_keeps (s : State) (q : Fin 16) : Signalled s (s.countEntry q) ∧ s.countEntry q = { s with hq := (s.countEntry q).hq } := by
  have hmod : Signalled s (s.modQueue q fun k => { k with unsignalled := s.hq.queues[q].unsignalled + 1 }) := by
    refine ⟨rfl, fun k => ?_⟩
    by_cases h : k = q
    · subst h; rw [State.modQueue_same]
    · rw [State.modQueue_other _ _ _ _ h]
  rw [State.countEntry]
  split
  · exact ⟨hmod.trans (.signal ..), by rw [State.signal_hq]; rfl⟩
  · exact ⟨hmod, rfl⟩

theorem completion_written {q : Fin 16} {c : Compl} {s : State} (hfind : (s.hq.compls.find? fun c => c.hdr.q == q) = some c)
    (hd3 : s.hq.d3 = false) (hep : s.epReset = false) (hen : s.on (F.HQ_CQ_CFG_EN q) = true)
    (hepoch : c.intake = true ∨ s.tagEpoch c.hdr.tag = some c.hdr.epoch) (hhold : s.hq.queues[q].hold = false) (hfull : s.cqFull q = false) :
    Answers (.completionWrite q true) s fun u =>
      Mem.bytes u.host (s.rdP (F.HQ_CQ_BASE_LO_ADDR q) + 16 * s.rd (F.HQ_CQ_TAIL_TAIL q)) 16 = complEntry c (s.rd (F.HQ_CQ_TAIL_PHASE q)) ∧
      (∀ a, a < s.rdP (F.HQ_CQ_BASE_LO_ADDR q) + 16 * s.rd (F.HQ_CQ_TAIL_TAIL q) ∨
        s.rdP (F.HQ_CQ_BASE_LO_ADDR q) + 16 * s.rd (F.HQ_CQ_TAIL_TAIL q) + 16 ≤ a → Mem.byte u.host a = Mem.byte s.host a) ∧
      u.rd (F.HQ_CQ_TAIL_TAIL q) = (s.rd (F.HQ_CQ_TAIL_TAIL q) + 1) % max 1 (s.cqSize q) % 2 ^ 12 ∧
      u.rd (F.HQ_CQ_TAIL_PHASE q) = (if (s.rd (F.HQ_CQ_TAIL_TAIL q) + 1) % max 1 (s.cqSize q) = 0 then 1 - s.rd (F.HQ_CQ_TAIL_PHASE q)
        else s.rd (F.HQ_CQ_TAIL_PHASE q)) ∧
      u.hq.compls = s.hq.compls.erase c ∧ u = { s with regs := u.regs, hq := u.hq, host := u.host } ∧
      RegsSame [(F.HQ_CQ_TAIL_TAIL q).addr] s u := by
  have hexec : exec (.completionWrite q true) s = .next (((s.entryPut q c).settle c).countEntry q) := by
    show execCompletionWrite q true s = _
    rw [execCompletionWrite, hfind]
    dsimp only
    rw [if_neg (by rw [hd3, hep]; decide), if_neg, if_neg (by rw [hhold, hfull]; decide), if_neg (by decide)]
    · rfl
    · rw [hen]
      rcases hepoch with h | h <;> simp [h]
  obtain ⟨htail, hphase, honly, hregs⟩ := s.entryPut_keeps q c rfl
  generalize s.entryPut q c = x at *
  have hyregs : (x.settle c).regs = x.regs := rfl
  have hyhost : (x.settle c).host = x.host := rfl
  have hycompls : (x.settle c).hq.compls = x.hq.compls.erase c := rfl
  have hyonly : x.settle c = { x with hq := (x.settle c).hq } := rfl
  generalize x.settle c = y at *
  obtain ⟨hsig, hquonly⟩ := y.countEntry_keeps q
  generalize y.countEntry q = u at *
  have hall : u = { s with regs := u.regs, hq := u.hq, host := u.host } := by rw [hquonly, hyonly, honly]
  have huregs : u.regs = x.regs := by rw [hquonly, hyregs]
  have huhost : u.host = x.host := by rw [hquonly, hyhost]
  have hlen := complEntry_length c (s.rd (F.HQ_CQ_TAIL_PHASE q))
  have hxhost : x.host = Mem.puts s.host (s.rdP (F.HQ_CQ_BASE_LO_ADDR q) + 16 * s.rd (F.HQ_CQ_TAIL_TAIL q))
      (complEntry c (s.rd (F.HQ_CQ_TAIL_PHASE q))) := by rw [honly]
  refine ⟨u, hexec, ?_, fun a ha => ?_, (State.rd_of_regs huregs _).trans htail, (State.rd_of_regs huregs _).trans hphase, ?_, hall,
    hregs.andRegs huregs⟩
  · have hbytes := Mem.bytes_puts s.host (a := s.rdP (F.HQ_CQ_BASE_LO_ADDR q) + 16 * s.rd (F.HQ_CQ_TAIL_TAIL q)) (k := 0) (n := 16)
      (l := complEntry c (s.rd (F.HQ_CQ_TAIL_PHASE q))) (by omega)
    rw [Nat.add_zero, List.drop_zero, List.take_of_length_le (by omega)] at hbytes
    rw [huhost, hxhost, hbytes]
  · rw [huhost, hxhost, Mem.byte_puts, dif_neg (by omega)]
  · rw [hsig.compls, hycompls, honly]

/-! ## Enabling a queue (R311, R312) -/

theorem State.wrs_modQueue_only (s : State) (l l' : List (Fld × Nat)) (q : Fin 16) (f : QueuePair → QueuePair) {x : State}
    (hx : ((s.wrs l).modQueue q f).wrs l' = x) : x = { s with regs := x.regs, hq := x.hq } := by
  have hfirst := RegsOnly.wrs s l
  generalize s.wrs l = y at *
  have hmod : y.modQueue q f = { y with hq := (y.modQueue q f).hq } := rfl
  generalize y.modQueue q f = z at *
  have hlast := RegsOnly.wrs z l'
  rw [hx] at hlast
  rw [hlast, hmod, hfirst]

theorem Quiet.andModQueue {l : List Nat} {s t : State} (h : Quiet l s t) (q : Fin 16) (f : QueuePair → QueuePair) : Quiet l s (t.modQueue q f) :=
  h.andSame rfl rfl rfl rfl rfl

theorem State.sqCfg_enables {s : State} {q : Fin 16} {w : Nat} (hw : bitOf w 16 = true) (hsq : s.on (F.HQ_SQ_CFG_EN q) = false)
    (hcq : s.on (F.HQ_CQ_CFG_EN q) = true) {x : State} (hx : s.sqCfg q w = x) :
    x.sqSize q = min 4096 (max 2 (fieldOf w 0 13)) ∧ x.rd (F.HQ_SQ_CFG_EN q) = 1 ∧ x.rd (F.HQ_SQ_HEAD_HEAD q) = 0 ∧
    x.hq = { s.hq with queues := upd s.hq.queues q fun k => { k with sqTail := 0, stopped := false, hold := false } } ∧
    x = { s with regs := x.regs, hq := x.hq } ∧ Quiet [(F.HQ_SQ_CFG_SIZE q).addr, (F.HQ_SQ_HEAD_HEAD q).addr, wseqOut] s x := by
  rw [State.sqCfg] at hx
  dsimp only at hx
  rw [if_neg (by rw [hsq]; decide), if_neg (by rw [hcq]; simp), if_pos hw] at hx
  have honly := State.wrs_modQueue_only s [(F.HQ_SQ_CFG_SIZE q, min 4096 (max 2 (fieldOf w 0 13)))] _ q _ hx
  simp only [State.wrs] at hx
  simp only [List.foldl_cons, List.foldl_nil] at hx
  have hsize : min 4096 (max 2 (fieldOf w 0 13)) < 2 ^ 13 := by omega
  generalize min 4096 (max 2 (fieldOf w 0 13)) = size at *
  have happart : Fld.apart (F.HQ_SQ_HEAD_HEAD q) (F.HQ_SQ_CFG_SIZE q) := by simp only [Fld.apart, F.HQ_SQ_HEAD_HEAD, F.HQ_SQ_CFG_SIZE]; omega
  have happart' : Fld.apart (F.HQ_SQ_HEAD_HEAD q) (F.HQ_SQ_CFG_EN q) := by simp only [Fld.apart, F.HQ_SQ_HEAD_HEAD, F.HQ_SQ_CFG_EN]; omega
  have hbeside : Fld.apart (F.HQ_SQ_CFG_EN q) (F.HQ_SQ_CFG_SIZE q) := by simp [Fld.apart, F.HQ_SQ_CFG_EN, F.HQ_SQ_CFG_SIZE]
  refine ⟨?_, ?_, ?_, ?_, ?_, ?_⟩
  · rw [← hx, State.sqSize, State.rd_wr_apart _ _ _ _ (by simp [F.HQ_SQ_HEAD_HEAD]) happart, State.rd_wr_apart _ _ _ _ (by simp [F.HQ_SQ_CFG_EN]) hbeside,
      State.modQueue_rd, State.rd_wr_fit _ _ _ (by simp [F.HQ_SQ_CFG_SIZE]) (by simpa [F.HQ_SQ_CFG_SIZE] using hsize)]
  · rw [← hx, State.rd_wr_apart _ _ _ _ (by simp [F.HQ_SQ_HEAD_HEAD]) happart', State.rd_wr_fit _ _ _ (by simp [F.HQ_SQ_CFG_EN]) (by simp [F.HQ_SQ_CFG_EN])]
  · rw [← hx, State.rd_wr_fit _ _ _ (by simp [F.HQ_SQ_HEAD_HEAD]) (by simp [F.HQ_SQ_HEAD_HEAD])]
  · rw [← hx, State.wr_hq, State.wr_hq, State.modQueue, State.wr_hq]
  · exact honly
  · rw [← hx]
    refine Quiet.andWr (Quiet.andWr (Quiet.andModQueue (Quiet.andWr (.refl _ s) (f := F.HQ_SQ_CFG_SIZE q) ?_) q _) ?_) ?_ <;>
      simp [F.HQ_SQ_CFG_SIZE, F.HQ_SQ_CFG_EN, F.HQ_SQ_HEAD_HEAD]

theorem State.cqCfg_enables {s : State} {q : Fin 16} {w : Nat} (hw : bitOf w 16 = true) (hcq : s.on (F.HQ_CQ_CFG_EN q) = false)
    {x : State} (hx : s.cqCfg q w = x) :
    x.cqSize q = min 4096 (max 2 (fieldOf w 0 13)) ∧ x.rd (F.HQ_CQ_CFG_EN q) = 1 ∧ x.rd (F.HQ_CQ_TAIL_TAIL q) = 0 ∧
    x.rd (F.HQ_CQ_TAIL_PHASE q) = 1 ∧ x.rd (F.HQ_CQ_CFG_COUNT q) = fieldOf w 24 8 ∧
    x.hq = { s.hq with queues := upd s.hq.queues q fun k => { k with cqHead := 0, unsignalled := 0 } } ∧
    x = { s with regs := x.regs, hq := x.hq } ∧ Quiet [(F.HQ_CQ_CFG_SIZE q).addr, (F.HQ_CQ_TAIL_TAIL q).addr, wseqOut] s x := by
  rw [State.cqCfg] at hx
  dsimp only at hx
  rw [if_neg (by rw [hcq]; decide), if_pos hw] at hx
  have honly := State.wrs_modQueue_only s _ _ q _ hx
  simp only [State.wrs] at hx
  simp only [List.foldl_cons, List.foldl_nil] at hx
  have hsize : min 4096 (max 2 (fieldOf w 0 13)) < 2 ^ 13 := by omega
  generalize min 4096 (max 2 (fieldOf w 0 13)) = size at *
  have hcount : fieldOf w 24 8 < 2 ^ 8 := fieldOf_lt ..
  generalize fieldOf w 24 8 = count at *
  have htail : ∀ f ∈ [F.HQ_CQ_CFG_SIZE q, F.HQ_CQ_CFG_EN q, F.HQ_CQ_CFG_COUNT q], Fld.apart (F.HQ_CQ_TAIL_TAIL q) f ∧ Fld.apart (F.HQ_CQ_TAIL_PHASE q) f := by
    simp only [List.mem_cons, List.not_mem_nil, or_false, forall_eq_or_imp, forall_eq, Fld.apart, F.HQ_CQ_CFG_SIZE, F.HQ_CQ_CFG_EN, F.HQ_CQ_CFG_COUNT,
      F.HQ_CQ_TAIL_TAIL, F.HQ_CQ_TAIL_PHASE]
    omega
  have hen : Fld.apart (F.HQ_CQ_CFG_EN q) (F.HQ_CQ_CFG_SIZE q) ∧ Fld.apart (F.HQ_CQ_CFG_EN q) (F.HQ_CQ_CFG_COUNT q) := by
    simp [Fld.apart, F.HQ_CQ_CFG_EN, F.HQ_CQ_CFG_SIZE, F.HQ_CQ_CFG_COUNT]
  have hcs : Fld.apart (F.HQ_CQ_CFG_COUNT q) (F.HQ_CQ_CFG_SIZE q) := by simp [Fld.apart, F.HQ_CQ_CFG_SIZE, F.HQ_CQ_CFG_COUNT]
  have hbeside : Fld.apart (F.HQ_CQ_TAIL_PHASE q) (F.HQ_CQ_TAIL_TAIL q) := by simp [Fld.apart, F.HQ_CQ_TAIL_TAIL, F.HQ_CQ_TAIL_PHASE]
  have hfit : (F.HQ_CQ_TAIL_PHASE q).lsb + (F.HQ_CQ_TAIL_PHASE q).width ≤ 32 ∧ (F.HQ_CQ_TAIL_TAIL q).lsb + (F.HQ_CQ_TAIL_TAIL q).width ≤ 32 ∧
      (F.HQ_CQ_CFG_EN q).lsb + (F.HQ_CQ_CFG_EN q).width ≤ 32 := by simp [F.HQ_CQ_TAIL_PHASE, F.HQ_CQ_TAIL_TAIL, F.HQ_CQ_CFG_EN]
  obtain ⟨hfp, hft, hfe⟩ := hfit
  refine ⟨?_, ?_, ?_, ?_, ?_, ?_, ?_, ?_⟩
  · rw [← hx, State.cqSize, State.rd_wr_apart _ _ _ _ hfp (htail _ (by simp)).2, State.rd_wr_apart _ _ _ _ hft (htail _ (by simp)).1,
      State.rd_wr_apart _ _ _ _ hfe hen.1, State.modQueue_rd, State.rd_wr_apart _ _ _ _ (by simp [F.HQ_CQ_CFG_COUNT]) hcs,
      State.rd_wr_fit _ _ _ (by simp [F.HQ_CQ_CFG_SIZE]) (by simpa [F.HQ_CQ_CFG_SIZE] using hsize)]
  · rw [← hx, State.rd_wr_apart _ _ _ _ hfp (htail _ (by simp)).2, State.rd_wr_apart _ _ _ _ hft (htail _ (by simp)).1,
      State.rd_wr_fit _ _ _ hfe (by simp [F.HQ_CQ_CFG_EN])]
  · rw [← hx, State.rd_wr_apart _ _ _ _ hfp hbeside, State.rd_wr_fit _ _ _ hft (by simp [F.HQ_CQ_TAIL_TAIL])]
  · rw [← hx, State.rd_wr_fit _ _ _ hfp (by simp [F.HQ_CQ_TAIL_PHASE])]
  · rw [← hx, State.rd_wr_apart _ _ _ _ hfp (htail _ (by simp)).2, State.rd_wr_apart _ _ _ _ hft (htail _ (by simp)).1,
      State.rd_wr_apart _ _ _ _ hfe hen.2, State.modQueue_rd,
      State.rd_wr_fit _ _ _ (by simp [F.HQ_CQ_CFG_COUNT]) (by simpa [F.HQ_CQ_CFG_COUNT] using hcount)]
  · rw [← hx, State.wr_hq, State.wr_hq, State.wr_hq, State.modQueue, State.wr_hq, State.wr_hq]
  · exact honly
  · rw [← hx]
    refine Quiet.andWr (Quiet.andWr (Quiet.andWr (Quiet.andModQueue (Quiet.andWr (Quiet.andWr (.refl _ s)
      (f := F.HQ_CQ_CFG_SIZE q) ?_) (f := F.HQ_CQ_CFG_COUNT q) ?_) q _) ?_) ?_) ?_ <;>
      simp [F.HQ_CQ_CFG_SIZE, F.HQ_CQ_CFG_EN, F.HQ_CQ_CFG_COUNT, F.HQ_CQ_TAIL_TAIL, F.HQ_CQ_TAIL_PHASE]

section
variable {req : Req} {q : Fin 16} {w : Word} {s : State}

theorem sqCfg_answers (hmay : s.mayWrite req (F.HQ_SQ_CFG_SIZE q).addr w = true) (hw : bitOf w.toNat 16 = true)
    (hsq : s.on (F.HQ_SQ_CFG_EN q) = false) (hcq : s.on (F.HQ_CQ_CFG_EN q) = true) : Answers (.queueCfgWrite req q false w) s fun u =>
      u.sqSize q = min 4096 (max 2 (fieldOf w.toNat 0 13)) ∧ u.rd (F.HQ_SQ_CFG_EN q) = 1 ∧ u.rd (F.HQ_SQ_HEAD_HEAD q) = 0 ∧
      u.hq.queues[q] = { s.hq.queues[q] with sqTail := 0, stopped := false, hold := false } ∧
      (∀ k, k ≠ q → u.hq.queues[k] = s.hq.queues[k]) ∧ u = { s with regs := u.regs, hq := { s.hq with queues := u.hq.queues } } ∧
      Quiet [(F.HQ_SQ_CFG_SIZE q).addr, (F.HQ_SQ_HEAD_HEAD q).addr, wseqOut] s u := by
  refine answers_regWrite (apply := fun s => s.sqCfg q w.toNat) rfl hmay fun u honly hregs => ?_
  obtain ⟨hsize, hen, hhead, hhq, hxonly, hquiet⟩ := State.sqCfg_enables hw hsq hcq rfl
  generalize s.sqCfg q w.toNat = x at *
  have huhq : u.hq = x.hq := by rw [honly]
  have hq : ∀ f : Fld, f.addr ≠ wseqOut → u.rd f = x.rd f := fun f hf => hregs.rd f (by simpa using hf)
  refine ⟨(hq (F.HQ_SQ_CFG_SIZE q) ?_).trans hsize, (hq _ ?_).trans hen, (hq _ ?_).trans hhead, ?_, fun k hk => ?_, ?_, ?_⟩
  · simp only [F.HQ_SQ_CFG_SIZE, wseqOut, F.HQ_WSEQ_COUNT]; omega
  · simp only [F.HQ_SQ_CFG_EN, wseqOut, F.HQ_WSEQ_COUNT]; omega
  · simp only [F.HQ_SQ_HEAD_HEAD, wseqOut, F.HQ_WSEQ_COUNT]; omega
  · rw [huhq, hhq]; exact upd_same s.hq.queues q _
  · rw [huhq, hhq]; exact upd_other s.hq.queues _ _ _ hk
  · rw [honly, hxonly, hhq]
  · exact hquiet.trans ⟨hregs.mono (by simp), honly.event.bytes⟩

theorem sqCfg_busy (hmay : s.mayWrite req (F.HQ_SQ_CFG_SIZE q).addr w = true) (hw : bitOf w.toNat 16 = true)
    (hsq : s.on (F.HQ_SQ_CFG_EN q) = false) (hcq : s.on (F.HQ_CQ_CFG_EN q) = false) : Answers (.queueCfgWrite req q false w) s fun u =>
      u.rd (F.HQ_Q_STAT_CFG_BUSY q) = 1 ∧ RegsOnly s u ∧ Quiet [(F.HQ_Q_STAT_CFG_BUSY q).addr, wseqOut] s u := by
  refine answers_regWrite (apply := fun s => s.sqCfg q w.toNat) rfl hmay fun u honly hregs => ?_
  have happly : s.sqCfg q w.toNat = s.wr (F.HQ_Q_STAT_CFG_BUSY q) 1 := by
    rw [State.sqCfg]
    dsimp only
    rw [if_neg (by rw [hsq]; decide), if_pos ⟨hw, hcq⟩]
  rw [happly] at honly hregs
  have hall : RegsOnly s u := (RegsOnly.wr ..).trans honly
  refine ⟨?_, hall, .of_event hall.event ((RegsSame.wr _ _ _ (by simp)).trans (hregs.mono (by simp)))⟩
  rw [hregs.rd _ (by simp only [F.HQ_Q_STAT_CFG_BUSY, wseqOut, F.HQ_WSEQ_COUNT, List.mem_singleton]; omega),
    State.rd_wr_fit _ _ _ (by simp [F.HQ_Q_STAT_CFG_BUSY]) (by simp [F.HQ_Q_STAT_CFG_BUSY])]

theorem cqCfg_answers (hmay : s.mayWrite req (F.HQ_CQ_CFG_SIZE q).addr w = true) (hw : bitOf w.toNat 16 = true)
    (hcq : s.on (F.HQ_CQ_CFG_EN q) = false) : Answers (.queueCfgWrite req q true w) s fun u =>
      u.cqSize q = min 4096 (max 2 (fieldOf w.toNat 0 13)) ∧ u.rd (F.HQ_CQ_CFG_EN q) = 1 ∧ u.rd (F.HQ_CQ_TAIL_TAIL q) = 0 ∧
      u.rd (F.HQ_CQ_TAIL_PHASE q) = 1 ∧ u.rd (F.HQ_CQ_CFG_COUNT q) = fieldOf w.toNat 24 8 ∧ u.hq.queues[q].cqHead = 0 ∧
      (∀ k, k ≠ q → u.hq.queues[k] = s.hq.queues[k]) ∧ u = { s with regs := u.regs, hq := { s.hq with queues := u.hq.queues } } ∧
      Quiet [(F.HQ_CQ_CFG_SIZE q).addr, (F.HQ_CQ_TAIL_TAIL q).addr, wseqOut] s u := by
  refine answers_regWrite (apply := fun s => s.cqCfg q w.toNat) rfl hmay fun u honly hregs => ?_
  obtain ⟨hsize, hen, htail, hphase, hcount, hhq, hxonly, hquiet⟩ := State.cqCfg_enables hw hcq rfl
  generalize s.cqCfg q w.toNat = x at *
  have huhq : u.hq = x.hq := by rw [honly]
  have hq : ∀ f : Fld, f.addr ≠ wseqOut → u.rd f = x.rd f := fun f hf => hregs.rd f (by simpa using hf)
  have hwseq : ∀ f ∈ [F.HQ_CQ_CFG_SIZE q, F.HQ_CQ_CFG_EN q, F.HQ_CQ_TAIL_TAIL q, F.HQ_CQ_TAIL_PHASE q, F.HQ_CQ_CFG_COUNT q], f.addr ≠ wseqOut := by
    simp only [List.mem_cons, List.not_mem_nil, or_false, forall_eq_or_imp, forall_eq, F.HQ_CQ_CFG_SIZE, F.HQ_CQ_CFG_EN, F.HQ_CQ_CFG_COUNT,
      F.HQ_CQ_TAIL_TAIL, F.HQ_CQ_TAIL_PHASE, wseqOut, F.HQ_WSEQ_COUNT]
    omega
  refine ⟨(hq _ (hwseq _ (by simp))).trans hsize, (hq _ (hwseq _ (by simp))).trans hen, (hq _ (hwseq _ (by simp))).trans htail,
    (hq _ (hwseq _ (by simp))).trans hphase, (hq _ (hwseq _ (by simp))).trans hcount, ?_, fun k hk => ?_, ?_, ?_⟩
  · rw [huhq, hhq]
    show (upd s.hq.queues q _)[q].cqHead = 0
    rw [upd_same]
  · rw [huhq, hhq]; exact upd_other s.hq.queues _ _ _ hk
  · rw [honly, hxonly, hhq]
  · exact hquiet.trans ⟨hregs.mono (by simp), honly.event.bytes⟩
end

/-! ## Vectors, resets and power states (R307, R330) -/

theorem coalescing_signals {q : Fin 16} {s : State} (htime : s.rd (F.HQ_CQ_TIME_US q) ≠ 0) (hwait : s.hq.queues[q].unsignalled ≠ 0)
    (hmask : s.on (msixCtrl q) = false) (hd3 : s.hq.d3 = false) (hep : s.epReset = false) : Answers (.coalescingTimerExpiry q) s fun u =>
      u.hq.queues[q] = { s.hq.queues[q] with unsignalled := 0 } ∧ u.hq.sent[fin 33 q] = s.hq.sent[fin 33 q] + 1 ∧
      (∀ k, k ≠ q → u.hq.queues[k] = s.hq.queues[k]) ∧ (∀ k, k ≠ fin 33 q → u.hq.sent[k] = s.hq.sent[k]) ∧
      u = { s with hq := { s.hq with queues := u.hq.queues, sent := u.hq.sent } } := by
  have hq := q.isLt
  have hfin : (⟨q.1, by omega⟩ : Fin 33) = fin 33 q := Fin.ext (Nat.mod_eq_of_lt (by omega)).symm
  have hexec : exec (.coalescingTimerExpiry q) s = .next { s with hq := { s.hq with
      sent := upd s.hq.sent (fin 33 q) (· + 1), queues := upd s.hq.queues q fun k => { k with unsignalled := 0 } } } := by
    show execCoalescingTimerExpiry q s = _
    rw [execCoalescingTimerExpiry, if_neg (not_or.2 ⟨htime, hwait⟩), State.signal, if_neg (by rw [hmask, hd3, hep]; decide),
      dif_pos (show q.1 < 33 by omega)]
    dsimp only
    rw [dif_pos hq, hfin]
  exact ⟨_, hexec, upd_same .., upd_same .., fun k hk => upd_other _ _ _ _ hk, fun k hk => upd_other _ _ _ _ hk, rfl⟩

theorem cellGet_filter_none {α : Type} {l : List (Nat × α)} {keep : Nat × α → Bool} {a : Nat} (h : ∀ v, keep (a, v) = false) :
    cellGet a (l.filter keep) = none := by
  induction l with
  | nil => rfl
  | cons c r ih =>
    rw [List.filter_cons]
    split
    · rename_i hc
      rw [cellGet, if_neg, ih]
      rintro rfl
      rw [h] at hc
      exact absurd hc (by decide)
    · exact ih

/-- A queue's enable bits after a function level reset. -/
theorem queueEn_reset : ∀ q : Fin 16, fieldOf (resetWord .hq (F.HQ_SQ_CFG_EN q).addr).toNat 16 1 = 0 ∧
    fieldOf (resetWord .hq (F.HQ_CQ_CFG_EN q).addr).toNat 16 1 = 0 := by decide +kernel

theorem State.resetQueueRegs_rd (s : State) {f : Fld} (hblk : f.blk = .hq) (hf : 0xC1000 ≤ f.addr ∧ f.addr < 0xC1400) :
    s.resetQueueRegs.rd f = fieldOf (resetWord .hq f.addr).toNat f.lsb f.width := by
  rw [State.rd, State.word, hblk]
  have hnone : cellGet f.addr (s.resetQueueRegs.regs.get .hq) = none := by
    refine cellGet_filter_none fun v => ?_
    simp [hf]
  rw [hnone, Option.getD_none]

theorem State.wrs_hqOnly {l : List (Fld × Nat)} (hl : ∀ p ∈ l, p.1.blk = .hq) (s : State) :
    s.wrs l = { s with regs := { s.regs with hq := (s.wrs l).regs.hq } } := by
  induction l generalizing s with
  | nil => rfl
  | cons p r ih =>
    have hfirst : s.wr p.1 p.2 = { s with regs := { s.regs with hq := (s.wr p.1 p.2).regs.hq } } := by
      rw [State.wr, State.setWord, hl p List.mem_cons_self]
      rfl
    have hrest := ih (fun x hx => hl x (List.mem_cons_of_mem _ hx)) (s.wr p.1 p.2)
    rw [State.wrs, List.foldl_cons]
    change (s.wr p.1 p.2).wrs r = { s with regs := { s.regs with hq := ((s.wr p.1 p.2).wrs r).regs.hq } }
    generalize s.wr p.1 p.2 = y at *
    generalize y.wrs r = z at *
    rw [hrest, hfirst]

theorem functionReset_answers (s : State) : Answers .functionLevelReset s fun u =>
      (∀ q : Fin 16, u.hq.queues[q] = {} ∧ u.rd (F.HQ_SQ_CFG_EN q) = 0 ∧ u.rd (F.HQ_CQ_CFG_EN q) = 0) ∧ u.hq.tags = [] ∧ u.hq.pwf = [] ∧
      u.rd F.HQ_WSEQ_COUNT = 0 ∧ u.rd F.HQ_PWF_CNT_COUNT = 0 ∧ u.hq.inFlight = s.hq.inFlight ∧ u.hq.compls = s.hq.compls ∧
      u = { s with regs := { s.regs with hq := u.regs.hq }, hq := { s.hq with queues := u.hq.queues, tags := [], pwf := [], vecPending := 0 } } := by
  have hexec : exec .functionLevelReset s = .next s.flr := rfl
  have hsq := fun q : Fin 16 => s.resetQueueRegs_rd (f := F.HQ_SQ_CFG_EN q) rfl (by simp only [F.HQ_SQ_CFG_EN]; omega)
  have hcq := fun q : Fin 16 => s.resetQueueRegs_rd (f := F.HQ_CQ_CFG_EN q) rfl (by simp only [F.HQ_CQ_CFG_EN]; omega)
  have honly : s.resetQueueRegs = { s with regs := { s.regs with hq := s.resetQueueRegs.regs.hq } } := rfl
  rw [State.flr] at hexec
  dsimp only at hexec
  generalize s.resetQueueRegs = x at *
  obtain ⟨y, hy⟩ : ∃ y : State, ({ x with hq := { x.hq with queues := Vector.replicate 16 {}, tags := [], pwf := [], vecPending := 0 } } : State) = y := ⟨_, rfl⟩
  have hyregs : y.regs = x.regs := by rw [← hy]
  have hyhq : y.hq = { x.hq with queues := Vector.replicate 16 {}, tags := [], pwf := [], vecPending := 0 } := by rw [← hy]
  have hyonly : y = { x with hq := y.hq } := by rw [← hy]
  rw [hy] at hexec
  have hzonly := y.wrs_hqOnly (l := [(F.HQ_SDRAM_PAGE_PAGE, 0), (F.HQ_WSEQ_COUNT, 0), (F.HQ_PWF_CNT_COUNT, 0), (F.HQ_PWF_CNT_LOST, 0)]) (by decide)
  have hzsame := RegsSame.wrs (out := [0xC0014, 0xC0004, 0xC0400]) y
    [(F.HQ_SDRAM_PAGE_PAGE, 0), (F.HQ_WSEQ_COUNT, 0), (F.HQ_PWF_CNT_COUNT, 0), (F.HQ_PWF_CNT_LOST, 0)] (by decide)
  have hwseq : (y.wrs [(F.HQ_SDRAM_PAGE_PAGE, 0), (F.HQ_WSEQ_COUNT, 0), (F.HQ_PWF_CNT_COUNT, 0), (F.HQ_PWF_CNT_LOST, 0)]).rd F.HQ_WSEQ_COUNT = 0 := by
    simp only [State.wrs, List.foldl_cons, List.foldl_nil]
    rw [State.rd_wr_apart _ _ _ _ (by decide) (by decide), State.rd_wr_apart _ _ _ _ (by decide) (by decide), State.rd_wr_fit _ _ _ (by decide) (by decide)]
  have hpwf : (y.wrs [(F.HQ_SDRAM_PAGE_PAGE, 0), (F.HQ_WSEQ_COUNT, 0), (F.HQ_PWF_CNT_COUNT, 0), (F.HQ_PWF_CNT_LOST, 0)]).rd F.HQ_PWF_CNT_COUNT = 0 := by
    simp only [State.wrs, List.foldl_cons, List.foldl_nil]
    rw [State.rd_wr_apart _ _ _ _ (by decide) (by decide), State.rd_wr_fit _ _ _ (by decide) (by decide)]
  generalize y.wrs [(F.HQ_SDRAM_PAGE_PAGE, 0), (F.HQ_WSEQ_COUNT, 0), (F.HQ_PWF_CNT_COUNT, 0), (F.HQ_PWF_CNT_LOST, 0)] = z at *
  have hzhq : z.hq = { s.hq with queues := Vector.replicate 16 {}, tags := [], pwf := [], vecPending := 0 } := by rw [hzonly, hyhq, honly]
  refine ⟨z, hexec, fun q => ⟨?_, ?_, ?_⟩, by rw [hzhq], by rw [hzhq], hwseq, hpwf, by rw [hzhq], by rw [hzhq], ?_⟩
  · rw [hzhq]
    show (Vector.replicate 16 ({} : QueuePair))[q.1] = {}
    rw [Vector.getElem_replicate]
  · rw [hzsame.rd _ (by simp only [F.HQ_SQ_CFG_EN, List.mem_cons, List.not_mem_nil, or_false]; omega), State.rd_of_regs hyregs, hsq]
    exact (queueEn_reset q).1
  · rw [hzsame.rd _ (by simp only [F.HQ_CQ_CFG_EN, List.mem_cons, List.not_mem_nil, or_false]; omega), State.rd_of_regs hyregs, hcq]
    exact (queueEn_reset q).2
  · rw [hzonly, hyonly, hyhq, honly]

/-- Nothing is sent in D3, and nothing where nothing waits. -/
theorem State.sendPending_idle {s : State} (h : s.hq.d3 = true ∨ s.hq.vecPending = 0) : s.sendPending = s := by
  refine foldl_still fun v _ => if_neg ?_
  rcases h with h | h <;> simp [h, bitOf]

end Sys2Proof.Machine

open Sys2Proof Sys2Proof.Machine

/-- Settles O33: each command by the branch that its hypotheses choose, and what signalling leaves of the host interface. -/
theorem hostQueues : Obligations.HostQueues := by
  unfold Obligations.HostQueues
  refine ⟨fun _ _ _ hen hstop hlt => doorbell_moves (sqTail_moves hen hstop hlt), fun _ _ _ hen hstop hge => sqTail_stops hen hstop hge,
    fun q head s hen hlt => ?_, fun _ _ _ hturn hd3 hep hroom hopc hok hfree => fetch_inFlight hturn hd3 hep hroom hopc hok hfree,
    fun _ _ _ _ hturn hd3 hep hroom hopc hst hfree => fetch_refuses hturn hd3 hep hroom hopc hst hfree,
    fun _ _ hturn hd3 hep hroom => fetch_stops hturn hd3 hep hroom, fun _ _ => rfl, fun _ _ _ hfind hbegun hnone => readFails hfind hbegun hnone,
    fun _ _ _ hfind hd3 hep hen hepoch hhold hfull => completion_written hfind hd3 hep hen hepoch hhold hfull,
    fun _ _ _ _ hfind hd3 hep hen => stale_dropped hfind hd3 hep hen, fun _ _ _ _ hfind hen hepoch hfull => cqFull_waits hfind hen hepoch hfull,
    fun _ _ _ _ hmay hw hsq hcq => sqCfg_answers hmay hw hsq hcq, fun _ _ _ _ hmay hw hsq hcq => sqCfg_busy hmay hw hsq hcq,
    fun _ _ _ _ hmay hw hcq => cqCfg_answers hmay hw hcq, fun _ _ htime hwait hmask hd3 hep => coalescing_signals htime hwait hmask hd3 hep,
    fun _ _ hnone => if_pos (.inr hnone), functionReset_answers, fun s => ?_, fun s hnone => ?_, fun s => ⟨_, rfl, rfl, rfl⟩, fun s => ?_⟩
  · obtain ⟨u, hexec, hself, _, hother, honly, hquiet⟩ := doorbell_moves (cqHead_moves (q := q) hen hlt)
    exact ⟨u, hexec, hself, hother, honly, hquiet⟩
  · exact ⟨_, congrArg Host.Outcome.next (State.sendPending_idle (.inl rfl)), rfl, rfl⟩
  · exact ⟨_, congrArg Host.Outcome.next (State.sendPending_idle (.inr hnone)), rfl, rfl⟩
  · exact ⟨_, rfl, rfl, rfl, (RegsSame.of_regs _ rfl).trans (RegsSame.incWrap _ _ _ (by simp [wseqOut])), .of_eq rfl rfl rfl rfl⟩
end

section
/-! O34 (the memory windows), R309 to R311, R325, R511, R512: a window write puts its bytes one after the other, and a byte without
right is one posted-write fault; a window read shows what its requester may see. -/

set_option Elab.async false

namespace Sys2Proof.Machine

/-! ## Posted-write faults (R327) -/

theorem State.raise_pwf (s : State) (r : EvReg) (bits : Nat) : (s.raise r bits).hq.pwf = s.hq.pwf := by
  have h : Signalled s (s.raise r bits) := (Signalled.of_hq (State.wr_hq ..)).trans (.raised ..)
  rw [h.1]

/-- What a posted-write fault records while its queue has room, and what it leaves. -/
theorem State.pwFault_keeps (s : State) (p : Pwf) (hroom : s.hq.pwf.length < 16) {u : State} (hu : s.pwFault p = u) :
    u.hq.pwf = s.hq.pwf ++ [{ p with stamp := s.now }] ∧ u.rd F.HQ_PWF_CNT_COUNT = (s.rd F.HQ_PWF_CNT_COUNT + 1) % 2 ^ 16 ∧
    bitOf (u.rd Ev.hq.bits) 1 = true ∧ EventOnly s u ∧ Quiet ((F.HQ_PWF_CNT_COUNT).addr :: evOut Ev.hq) s u := by
  have honly : EventOnly s u := hu ▸ s.pwFault_event p
  have hregs : RegsSame ((F.HQ_PWF_CNT_COUNT).addr :: evOut Ev.hq) s u := hu ▸ s.pwFault_regs p
  have hnow : (s.incWrap F.HQ_PWF_CNT_COUNT).now = s.now := rfl
  have hcount : (s.incWrap F.HQ_PWF_CNT_COUNT).rd F.HQ_PWF_CNT_COUNT = (s.rd F.HQ_PWF_CNT_COUNT + 1) % 2 ^ 16 :=
    State.rd_wr_same _ _ _ (by decide)
  have hhq : (s.incWrap F.HQ_PWF_CNT_COUNT).hq = s.hq := State.wr_hq ..
  rw [State.pwFault] at hu
  dsimp only at hu
  generalize s.incWrap F.HQ_PWF_CNT_COUNT = x at *
  rw [if_pos (by rw [hhq]; exact hroom)] at hu
  have hyregs : ({ x with hq := { x.hq with pwf := x.hq.pwf ++ [{ p with stamp := x.now }] } } : State).regs = x.regs := rfl
  have hypwf : ({ x with hq := { x.hq with pwf := x.hq.pwf ++ [{ p with stamp := x.now }] } } : State).hq.pwf =
      x.hq.pwf ++ [{ p with stamp := x.now }] := rfl
  generalize ({ x with hq := { x.hq with pwf := x.hq.pwf ++ [{ p with stamp := x.now }] } } : State) = y at *
  have hraise : RegsSame (evOut Ev.hq) y u := hu ▸ State.raise_regs y Ev.hq 2
  refine ⟨?_, ?_, ?_, honly, .of_event honly hregs⟩
  · rw [← hu, State.raise_pwf, hypwf, hhq, hnow]
  · rw [hraise.rd _ (by decide), State.rd_of_regs hyregs, hcount]
  · rw [← hu, State.raise_bits _ _ _ (by decide)]
    simp only [show (4294967296 : Nat) = 2 ^ 32 from rfl, Nat.testBit_mod_two_pow, Nat.testBit_or, show Nat.testBit 2 1 = true from rfl,
      Bool.or_true, Bool.and_true]
    rfl

/-- The same of the fault of a window access, whose record names the window, the reason and the first byte it refused. -/
theorem State.winFault_keeps (s : State) (reason win reqId off len first page : Nat) (hroom : s.hq.pwf.length < 16) {u : State}
    (hu : s.winFault reason win reqId off len first page = u) :
    (∃ p, u.hq.pwf = s.hq.pwf ++ [p] ∧ p.reason = reason ∧ p.win = win ∧ p.off = first ∧ p.reqId = reqId ∧ p.page = page) ∧
    u.rd F.HQ_PWF_CNT_COUNT = (s.rd F.HQ_PWF_CNT_COUNT + 1) % 2 ^ 16 ∧
    bitOf (u.rd Ev.hq.bits) 1 = true ∧ EventOnly s u ∧ Quiet ((F.HQ_PWF_CNT_COUNT).addr :: evOut Ev.hq) s u := by
  rw [State.winFault] at hu
  obtain ⟨hpwf, hrest⟩ := s.pwFault_keeps _ hroom hu
  exact ⟨⟨_, hpwf, rfl, rfl, rfl, rfl, rfl⟩, hrest⟩

/-! ## The bytes of a window write (R309, R511) -/

/-- The bytes of a window write with their places and what refuses each. -/
def judgedBytes (off : Nat) (data : List Byte) (reason : Nat → Option Nat) : List (Nat × Byte × Option Nat) :=
  data.zipIdx.map fun b => (off + b.2, b.1, reason (off + b.2))

theorem judgedBytes_good {off : Nat} {data : List Byte} {reason : Nat → Option Nat} (h : ∀ i, i < data.length → reason (off + i) = none) :
    ((judgedBytes off data reason).filter fun b => b.2.2.isNone) = judgedBytes off data reason ∧
    ((judgedBytes off data reason).find? fun b => b.2.2.isSome) = none := by
  have hall : ∀ b ∈ judgedBytes off data reason, b.2.2 = none := by
    intro b hb
    obtain ⟨d, hd, rfl⟩ := List.mem_map.mp hb
    exact h _ (List.mem_zipIdx' hd).1
  refine ⟨List.filter_eq_self.mpr fun b hb => by simp [hall b hb], List.find?_eq_none.mpr fun b hb => by simp [hall b hb]⟩

/-- Bytes put one after the other from a place on are read there, and every other byte is as it was. -/
theorem Mem.byte_putRun (base off : Nat) (reason : Nat → Option Nat) : ∀ (data : List Byte) (k : Nat) (m : Mem) (x : Nat),
    Mem.byte (((data.zipIdx k).map fun b => (off + b.2, b.1, reason (off + b.2))).foldl
      (fun (m : Mem) (b : Nat × Byte × Option Nat) => Mem.put m (base + b.1) b.2.1) m) x =
      if base + off + k ≤ x ∧ x < base + off + k + data.length then data.getD (x - (base + off + k)) 0 else Mem.byte m x
  | [], k, m, x => by
    rw [if_neg (by simp only [List.length_nil]; omega)]; rfl
  | b :: data, k, m, x => by
    rw [List.zipIdx_cons, List.map_cons, List.foldl_cons, Mem.byte_putRun base off reason data (k + 1), Mem.byte_put]
    simp only [List.length_cons]
    by_cases hx : x = base + (off + k)
    · rw [if_neg (by omega), if_pos hx, if_pos (by omega), show x - (base + off + k) = 0 by omega, List.getD_cons_zero]
    · by_cases hin : base + off + (k + 1) ≤ x ∧ x < base + off + (k + 1) + data.length
      · rw [if_pos hin, if_pos (by omega), show x - (base + off + k) = (x - (base + off + (k + 1))) + 1 by omega, List.getD_cons_succ]
      · rw [if_neg hin, if_neg hx, if_neg (by omega)]

theorem Mem.byte_putJudged (base off : Nat) (reason : Nat → Option Nat) (data : List Byte) (m : Mem) (x : Nat) :
    Mem.byte ((judgedBytes off data reason).foldl (fun (m : Mem) (b : Nat × Byte × Option Nat) => Mem.put m (base + b.1) b.2.1) m) x =
      if base + off ≤ x ∧ x < base + off + data.length then data.getD (x - (base + off)) 0 else Mem.byte m x :=
  Mem.byte_putRun base off reason data 0 m x

section
variable {id off r len : Nat} {data : List Byte} {b : Byte} {s : State}

theorem canopyWrite_stores (h : ∀ i, i < data.length → s.canopyWriteReason (off + i) = none) :
    Answers (.canopyWindowWrite id off data false) s fun u =>
      (∀ i, i < data.length → Mem.byte u.canopy (off + i) = data.getD i 0) ∧
      (∀ a, a < off ∨ off + data.length ≤ a → Mem.byte u.canopy a = Mem.byte s.canopy a) ∧
      u.rd F.HQ_WSEQ_COUNT = (s.rd F.HQ_WSEQ_COUNT + 1) % 2 ^ 32 ∧ u = { s with regs := u.regs, canopy := u.canopy } ∧
      RegsSame [wseqOut] s u := by
  obtain ⟨hgood, hnone⟩ := judgedBytes_good h
  have hexec : exec (.canopyWindowWrite id off data false) s = .next ({ s with
      canopy := (judgedBytes off data s.canopyWriteReason).foldl
        (fun (m : Mem) (b : Nat × Byte × Option Nat) => Mem.put m b.1 b.2.1) s.canopy } : State).retire := by
    show execCanopyWindowWrite id off data false s = _
    rw [execCanopyWindowWrite, if_neg (by decide)]
    have hjudged : (data.zipIdx.map fun b => (off + b.2, b.1, s.canopyWriteReason (off + b.2))) = judgedBytes off data s.canopyWriteReason := rfl
    dsimp only
    rw [hjudged, hnone, hgood]
  have hbyte := Mem.byte_putJudged 0 off s.canopyWriteReason data s.canopy
  simp only [Nat.zero_add] at hbyte
  generalize (judgedBytes off data s.canopyWriteReason).foldl (fun (m : Mem) (b : Nat × Byte × Option Nat) => Mem.put m b.1 b.2.1) s.canopy = m at *
  have hretire := RegsOnly.wr { s with canopy := m } F.HQ_WSEQ_COUNT
    (({ s with canopy := m } : State).rd F.HQ_WSEQ_COUNT + 1)
  have hcanopy : ({ s with canopy := m } : State).retire.canopy = m := by rw [State.retire, State.incWrap, hretire]
  refine ⟨_, hexec, fun i hi => ?_, fun a ha => ?_, State.retire_wseq _, ?_, ?_⟩
  · rw [hcanopy, hbyte, if_pos (by omega), Nat.add_sub_cancel_left]
  · rw [hcanopy, hbyte, if_neg (by omega)]
  · rw [State.retire, State.incWrap, hretire]
  · exact (RegsSame.of_regs _ rfl).trans (State.retire_regs _)

theorem canopyWrite_faults (hr : s.canopyWriteReason off = some r) (hr2 : r ≠ 2) :
    exec (.canopyWindowWrite id off [b] false) s = .next (s.winFault r 1 id off 1 off 0) := by
  show execCanopyWindowWrite id off [b] false s = _
  rw [execCanopyWindowWrite, if_neg (by decide)]
  simp only [List.zipIdx_cons, List.zipIdx_nil, List.map_cons, List.map_nil, Nat.add_zero, hr, List.filter_cons, List.filter_nil,
    List.find?_cons, Option.isSome_some, Option.isNone_some, List.length_cons, List.length_nil, Option.getD_some]
  refine congrArg Host.Outcome.next ?_
  split
  · exact absurd (Option.some.inj ‹some r = some 2›) hr2
  · rfl

theorem canopyRead_answers : Answers (.canopyWindowRead off len) s fun u =>
      u.hq.answer = (List.range len).map (fun i => if s.canopyReadable (off + i) then (Mem.byte s.canopy (off + i)).toNat else 0) ∧
      ((∀ i, i < len → s.canopyReadable (off + i) = true) → u.rd F.HQ_DENIED_RD_COUNT = s.rd F.HQ_DENIED_RD_COUNT) ∧
      ((∃ i, i < len ∧ s.canopyReadable (off + i) = false) →
        u.rd F.HQ_DENIED_RD_COUNT = min (s.rd F.HQ_DENIED_RD_COUNT + 1) 65535) ∧
      u = { s with regs := u.regs, hq := { s.hq with answer := u.hq.answer } } ∧ Quiet [(F.HQ_DENIED_RD_COUNT).addr] s u := by
  by_cases hany : ((List.range len).any fun i => !s.canopyReadable (off + i)) = true
  · refine ⟨_, rfl, ?_, fun hall => ?_, fun _ => ?_, ?_, ?_⟩ <;> rw [hany]
    · rfl
    · obtain ⟨i, hi, hden⟩ := List.any_eq_true.mp hany
      rw [hall i (List.mem_range.mp hi)] at hden
      exact absurd hden (by decide)
    · exact State.rd_incSat s F.HQ_DENIED_RD_COUNT (by decide)
    · rfl
    · exact ⟨(RegsSame.incSat s F.HQ_DENIED_RD_COUNT 1 (by simp)).andRegs rfl, .of_eq rfl rfl rfl rfl⟩
  · refine ⟨_, rfl, ?_, fun _ => ?_, fun ⟨i, hi, hden⟩ => ?_, ?_, ?_⟩ <;> rw [if_neg hany]
    · rfl
    · rfl
    · exact absurd (List.any_eq_true.mpr ⟨i, List.mem_range.mpr hi, by rw [hden]; rfl⟩) hany
    · rfl
    · exact ⟨.of_regs _ rfl, .of_eq rfl rfl rfl rfl⟩

theorem sdramWrite_stores (h : ∀ i, i < data.length → s.sdramWriteReason (s.rd F.HQ_SDRAM_PAGE_PAGE * 2 ^ 32 + off + i) = none) :
    Answers (.sdramWindowWrite id off data false) s fun u =>
      (∀ i, i < data.length → Mem.byte u.sdram (s.rd F.HQ_SDRAM_PAGE_PAGE * 2 ^ 32 + off + i) = data.getD i 0) ∧
      (∀ a, a < s.rd F.HQ_SDRAM_PAGE_PAGE * 2 ^ 32 + off ∨ s.rd F.HQ_SDRAM_PAGE_PAGE * 2 ^ 32 + off + data.length ≤ a →
        Mem.byte u.sdram a = Mem.byte s.sdram a) ∧ u = { s with regs := u.regs, sdram := u.sdram } ∧ RegsSame [wseqOut] s u := by
  generalize hbase : s.rd F.HQ_SDRAM_PAGE_PAGE * 2 ^ 32 = base at *
  have hreasons : (fun b : Byte × Nat => (off + b.2, b.1, s.sdramWriteReason (base + off + b.2))) =
      fun b => (off + b.2, b.1, (fun a => s.sdramWriteReason (base + a)) (off + b.2)) := by
    funext b; rw [Nat.add_assoc]
  obtain ⟨hgood, hnone⟩ := judgedBytes_good (off := off) (data := data) (reason := fun a => s.sdramWriteReason (base + a))
    fun i hi => by rw [← Nat.add_assoc]; exact h i hi
  have hexec : exec (.sdramWindowWrite id off data false) s = .next ({ s with
      sdram := (judgedBytes off data fun a => s.sdramWriteReason (base + a)).foldl
        (fun (m : Mem) (b : Nat × Byte × Option Nat) => Mem.put m (base + b.1) b.2.1) s.sdram } : State).retire := by
    show execSdramWindowWrite id off data false s = _
    rw [execSdramWindowWrite, if_neg (by decide)]
    dsimp only
    rw [hbase, hreasons, show (data.zipIdx.map _ : List (Nat × Byte × Option Nat)) = judgedBytes off data fun a => s.sdramWriteReason (base + a) from rfl,
      hnone, hgood]
  have hbyte := Mem.byte_putJudged base off (fun a => s.sdramWriteReason (base + a)) data s.sdram
  generalize (judgedBytes off data fun a => s.sdramWriteReason (base + a)).foldl
    (fun (m : Mem) (b : Nat × Byte × Option Nat) => Mem.put m (base + b.1) b.2.1) s.sdram = m at *
  have hretire := RegsOnly.wr { s with sdram := m } F.HQ_WSEQ_COUNT (({ s with sdram := m } : State).rd F.HQ_WSEQ_COUNT + 1)
  have hsdram : ({ s with sdram := m } : State).retire.sdram = m := by rw [State.retire, State.incWrap, hretire]
  refine ⟨_, hexec, fun i hi => ?_, fun a ha => ?_, ?_, (RegsSame.of_regs _ rfl).trans (State.retire_regs _)⟩
  · rw [hsdram, hbyte, if_pos (by omega), Nat.add_sub_cancel_left]
  · rw [hsdram, hbyte, if_neg (by omega)]
  · rw [State.retire, State.incWrap, hretire]

theorem sdramWrite_faults (hr : s.sdramWriteReason (s.rd F.HQ_SDRAM_PAGE_PAGE * 2 ^ 32 + off) = some r) :
    exec (.sdramWindowWrite id off [b] false) s = .next (s.winFault r 2 id off 1 off (s.rd F.HQ_SDRAM_PAGE_PAGE)) := by
  show execSdramWindowWrite id off [b] false s = _
  rw [execSdramWindowWrite, if_neg (by decide)]
  simp only [List.zipIdx_cons, List.zipIdx_nil, List.map_cons, List.map_nil, Nat.add_zero, hr, List.filter_cons, List.filter_nil,
    List.find?_cons, Option.isSome_some, Option.isNone_some, List.length_cons, List.length_nil, Option.getD_some]
  rfl
end

end Sys2Proof.Machine

open Sys2Proof Sys2Proof.Machine

/-- Settles O34: a write by the bytes it puts or the fault of the byte that has no right, a read by what its requester may see. -/
theorem memoryWindows : Obligations.MemoryWindows := by
  refine ⟨fun id off data s => canopyWrite_stores, fun id off r b s hr hr2 hroom => ?_, fun id off data s hroom => ?_,
    fun off len s => canopyRead_answers, fun id off data s => sdramWrite_stores, fun id off r b s hr hroom => ?_, fun off len s hrole => ?_,
    fun off len s hrole => ?_⟩
  · obtain ⟨⟨p, hpwf, hreason, hwin, hoff, hid, -⟩, hrest⟩ := s.winFault_keeps r 1 id off 1 off 0 hroom rfl
    exact ⟨_, canopyWrite_faults hr hr2, ⟨p, hpwf, hreason, hwin, hoff, hid⟩, hrest⟩
  · obtain ⟨⟨p, hpwf, hreason, hwin, hoff, -⟩, -, -, honly, hregs, hbytes⟩ :=
      State.winFault_keeps { s with hq := { s.hq with aer := s.hq.aer ||| 2 } } 5 1 id off data.length off 0 hroom rfl
    exact ⟨_, rfl, ⟨p, hpwf, hreason, hwin, hoff⟩, EventOnly.trans (t := { s with hq := { s.hq with aer := s.hq.aer ||| 2 } }) rfl honly, (RegsSame.of_regs (t := { s with hq := { s.hq with aer := s.hq.aer ||| 2 } }) _ rfl).trans hregs, hbytes⟩
  · obtain ⟨⟨p, hpwf, hreason, hwin, hoff, -, hpage⟩, -, -, hrest⟩ :=
      s.winFault_keeps r 2 id off 1 off (s.rd F.HQ_SDRAM_PAGE_PAGE) hroom rfl
    exact ⟨_, sdramWrite_faults hr, ⟨p, hpwf, hreason, hwin, hoff, hpage⟩, hrest⟩
  · refine ⟨_, rfl, ?_, ?_⟩ <;> rw [if_neg hrole]
    · refine List.map_congr_left fun i _ => ?_
      simp only [ne_eq, hrole, not_false_eq_true, true_and]
    · rfl
  · refine ⟨_, rfl, ?_, ?_, ?_, ?_⟩ <;> rw [if_pos hrole]
    · simp [State.answerWith, hrole, List.map_const']
    · exact State.rd_incSat s F.HQ_DENIED_RD_COUNT (by decide)
    · rfl
    · exact ⟨(RegsSame.incSat s F.HQ_DENIED_RD_COUNT 1 (by simp)).andRegs rfl, .of_eq rfl rfl rfl rfl⟩
end

section
/-! O36 (a refused register write), R325, R437, R446: every command that writes a register goes through one judgement of the
requester, so that what a refusal does is said once for all of them. -/

set_option Elab.async false

namespace Sys2Proof.Machine

/-- Every command that writes a register does so through the judgement of its requester. -/
theorem exec_of_writeOf {c : Instr} {r : Req} {a : Nat} {w : Word} (h : writeOf c = some (r, a, w)) (s : State) :
    ∃ apply, exec c s = .next (s.regWrite r a w apply) := by
  unfold writeOf at h
  split at h <;> cases h
  all_goals exact ⟨_, rfl⟩

section
variable {a : Nat} {w : Word} {s : State} {apply : State → State}

theorem State.regWrite_host_refused {id : Nat} (h : s.hostMayWrite a w = false) :
    s.regWrite (.host id) a w apply = s.pwFault ⟨6, 0, 15, 0, 1, a, id, 0, 0⟩ := by
  rw [State.regWrite]
  exact if_neg (by rw [h]; decide)

theorem State.regWrite_core_refused {k : Fin 8} (h : soOnly a w = true) : s.regWrite (.core k) a w apply = s.coreTrap k 7 a := by
  rw [State.regWrite]
  exact if_pos h

theorem State.regWrite_sideband_refused (hreset : a ≠ 0xF8400) (hconfirm : a ≠ 0xF8500) : s.regWrite .sideband a w apply = s := by
  rw [State.regWrite]
  exact if_neg (by simp [hreset, hconfirm])
end

end Sys2Proof.Machine

open Sys2Proof Sys2Proof.Machine

/-- Settles O36, by the requester whose write is refused. -/
theorem refusedWritesChangeNothing : Obligations.RefusedWritesChangeNothing := by
  refine ⟨fun c id a w s hc hmay hroom => ?_, fun c k a w s hc hso => ?_, fun c a w s hc hreset hconfirm => ?_⟩ <;>
    obtain ⟨apply, hexec⟩ := exec_of_writeOf hc s
  · rw [State.regWrite_host_refused hmay] at hexec
    exact ⟨_, hexec, s.pwFault_keeps _ hroom rfl⟩
  · rw [State.regWrite_core_refused hso] at hexec
    obtain ⟨hcore, hothers, honly⟩ := s.coreTrap_keeps k 7 a
    refine ⟨_, hexec, ?_, ?_, ?_, ?_, hothers, honly⟩ <;> rw [hcore]
  · rw [State.regWrite_sideband_refused hreset hconfirm] at hexec
    exact hexec
end

section
/-! O35 (accesses of the register window), R5, R7, R308, R325, R508, R510: what one word written does, by the way its address takes:
an enable register, the low word or the high word of a pair, or the access codes of its fields. -/

set_option Elab.async false

namespace Sys2Proof.Machine

/-! ## One word written by a requester that may (R308, R446) -/

theorem State.writeWords_one {s : State} {r : Req} {a : Nat} {w : Word} (hmay : s.mayStore r a w = true) {u : State}
    (hu : s.writeWords r a [w] = u) : RegsOnly (s.storeWord r a w) u ∧ RegsSame [wseqOut] (s.storeWord r a w) u := by
  have hwords : s.writeWords r a [w] = match r with
      | .host _ => (s.storeWord r a w).retire
      | _ => s.storeWord r a w := by
    unfold State.writeWords
    simp only [wordsAt, List.zipIdx_cons, List.zipIdx_nil, List.map_cons, List.map_nil, List.all_cons, List.all_nil, Nat.mul_zero,
      Nat.add_zero, hmay, Bool.and_true, if_true, State.storeAll, List.foldl_cons, List.foldl_nil]
    cases r <;> rfl
  rw [hwords] at hu
  cases r with
  | host id => exact hu ▸ ⟨RegsOnly.wr .., State.retire_regs _⟩
  | core c => exact hu ▸ ⟨.refl _, .refl _ _⟩
  | sideband => exact hu ▸ ⟨.refl _, .refl _ _⟩

theorem exec_registerWrite {r : Req} {a : Nat} {w : Word} {s : State} (halign : a % 4 = 0) (hend : a + 4 ≤ 2 ^ 24) :
    exec (.registerWrite r a [w] false) s = .next (s.writeWords r a [w]) := by
  show execRegisterWrite r a [w] false s = _
  rw [execRegisterWrite, if_neg]
  simp only [List.length_cons, List.length_nil, Bool.false_eq_true, false_or]
  omega

/-- A permitted write of one word ends in the word's own effect, but for HQ_WSEQ. -/
theorem answers_registerWrite {r : Req} {a : Nat} {w : Word} {s x : State} {P : State → Prop} (halign : a % 4 = 0) (hend : a + 4 ≤ 2 ^ 24)
    (hmay : s.mayStore r a w = true) (hx : s.storeWord r a w = x) (hP : ∀ u, RegsOnly x u → RegsSame [wseqOut] x u → P u) :
    Answers (.registerWrite r a [w] false) s P := by
  obtain ⟨honly, hregs⟩ := State.writeWords_one hmay rfl
  rw [hx] at honly hregs
  exact ⟨_, exec_registerWrite halign hend, hP _ honly hregs⟩

/-- A write of one word that the host may not make. -/
theorem State.writeWords_host_refused {s : State} {id a : Nat} {w : Word} (hmay : s.mayStore (.host id) a w = false) :
    s.writeWords (.host id) a [w] = s.pwFault ⟨6, 0, 15, 0, 1, a, id, 0, 0⟩ := by
  unfold State.writeWords
  simp only [wordsAt, List.zipIdx_cons, List.zipIdx_nil, List.map_cons, List.map_nil, List.all_cons, List.all_nil, Nat.mul_zero,
    Nat.add_zero, hmay, Bool.and_true, Bool.false_eq_true, if_false, List.length_cons, List.length_nil, Nat.zero_add, if_true]

/-- A write of one word that a core may not make. -/
theorem State.writeWords_core_refused {s : State} {c : Fin 8} {a : Nat} {w : Word} (hmay : s.mayStore (.core c) a w = false) :
    s.writeWords (.core c) a [w] = s.coreTrap c 7 a := by
  unfold State.writeWords
  simp only [wordsAt, List.zipIdx_cons, List.zipIdx_nil, List.map_cons, List.map_nil, List.all_cons, List.all_nil, Nat.mul_zero,
    Nat.add_zero, hmay, Bool.and_true, Bool.false_eq_true, if_false]

theorem EventOnly.takeFree {s u : State} (h : EventOnly s.takeFree.2 u) :
    u = { s with regs := u.regs, hq := u.hq, sched := u.sched, freeCtr := u.freeCtr } := by
  rw [h]; rfl

/-! ## The way a word takes (R5, R7, R475) -/

theorem State.served_of_stage {s : State} {a : Nat} (hstage : s.rd F.GLB_BOOT_STAT_STAGE ≠ 3) : s.served_ a = true := by
  simp [State.served_, hstage]

section
variable {s : State} {r : Req} {a : Nat} {w : Word} (hstage : s.rd F.GLB_BOOT_STAT_STAGE ≠ 3)
include hstage

theorem State.storeWord_enable {e : EvReg} (he : enabledBy a = some e) :
    s.storeWord r a w = s.writeEnable e (w.toNat &&& e.layout) := by
  rw [State.storeWord, State.served_of_stage hstage, he]
  rfl

theorem State.storeWord_low (he : enabledBy a = none) (hd : s.dropped a = none) (hp : portOf a = none) (hb : blkOf a ≠ .tmg)
    (hlow : pairWritable a = true) : s.storeWord r a w = s.holdLow r a w := by
  rw [State.storeWord, State.served_of_stage hstage, he]
  dsimp only
  rw [hd]
  dsimp only
  rw [if_neg (by decide), if_neg (by simp [hp]), if_pos ⟨hb, hlow⟩]

theorem State.storeWord_high (he : enabledBy a = none) (hd : s.dropped a = none) (hp : portOf a = none) (hb : blkOf a ≠ .tmg)
    (hlow : pairWritable a = false) (ha : 4 ≤ a) (hhigh : pairWritable (a - 4) = true) :
    s.storeWord r a w = (s.takeHeld r (a - 4) (s.word (blkOf a) (a - 4)).toNat).2.storePair (a - 4)
      ((s.takeHeld r (a - 4) (s.word (blkOf a) (a - 4)).toNat).1 + 2 ^ 32 * w.toNat) := by
  rw [State.storeWord, State.served_of_stage hstage, he]
  dsimp only
  rw [hd]
  dsimp only
  rw [if_neg (by decide), if_neg (by simp [hp]), if_neg (by simp [hlow]), if_pos ⟨hb, ha, hhigh⟩]

/-- A word of a register that no chapter gives more than its access codes. -/
theorem State.storeWord_plain (he : enabledBy a = none) (hd : s.dropped a = none) (hp : portOf a = none) (hlow : pairWritable a = false)
    (hhigh : pairWritable (a - 4) = false) (hclip : s.clipped a w.toNat = (w.toNat, false))
    (hop : ∀ v : Word, s.storeOp r a v = s.plainStore a v.toNat) : s.storeWord r a w = s.plainStore a w.toNat := by
  rw [State.storeWord, State.served_of_stage hstage, he]
  dsimp only
  rw [hd]
  dsimp only
  rw [if_neg (by decide), if_neg (by simp [hp]), if_neg (by simp [hlow]), if_neg (by simp [hhigh]), hclip, hop, State.noteClip, if_neg Bool.false_ne_true,
    BitVec.ofNat_toNat, BitVec.setWidth_eq]

end

/-! ## Locked fields (R510) -/

theorem State.syncCfg_stores (s : State) (n : Nat) : s.plainStore 0x50000 n = if s.on F.FAB_CTRL_LOCK then s else
    (s.wr F.SEQ_SYNC_CFG_ROLE (fieldOf n 0 2)).wr F.SEQ_SYNC_CFG_PERIOD (fieldOf n 8 24) := by
  rw [State.plainStore, show regDefAt (blkOf 0x50000) 0x50000 = some ⟨0x50000, [], [⟨0, 2, .rwl, 0⟩, ⟨8, 24, .rwl, 0⟩], false⟩ from rfl]
  simp only [List.foldl_cons, List.foldl_nil]
  by_cases hon : s.on F.FAB_CTRL_LOCK = true
  · simp only [hon, if_true]
  · simp only [hon, Bool.false_eq_true, if_false]
    exact if_neg (by rw [State.on, State.rd_wr_other _ _ _ _ (by simp [F.FAB_CTRL_LOCK])]; exact hon)

/-- FAB_CTRL: the enable of the voltage control is kept once locked; LOCK is set by a 1 and never cleared by a write. -/
theorem State.fabCtrl_stores (s : State) (n : Nat) : s.plainStore 0x20000 n =
    let x := if s.on F.FAB_CTRL_LOCK then s else s.wr F.FAB_CTRL_AVC_EN (fieldOf n 0 1)
    x.wr F.FAB_CTRL_LOCK (x.rd F.FAB_CTRL_LOCK ||| fieldOf n 8 1) := by
  rw [State.plainStore, show regDefAt (blkOf 0x20000) 0x20000 = some ⟨0x20000, [], [⟨0, 1, .rwl, 1⟩, ⟨8, 1, .w1s, 0⟩], false⟩ from rfl]
  rfl

/-! ## Event bits cleared by a 1 (R7) -/

/-- One bit of STR_EVENT. -/
def strBit (k : Nat) : Fld := ⟨.str, 0x10050, k, 1⟩

/-- A bit of STR_EVENT after a write, for that bit alone. -/
def State.clearStr (s : State) (k n : Nat) : State := s.wr (strBit k) (without (s.rd (strBit k)) (fieldOf n k 1))

theorem bitOf_strEvent (s : State) (k : Nat) (hk : k < 32) : bitOf (s.rd Ev.str.bits) k = decide (s.rd (strBit k) = 1) := by
  have hlt : (s.word .str 0x10050).toNat < 2 ^ 32 := BitVec.isLt _
  rw [State.rd, State.rd, show Ev.str.bits = ⟨.str, 0x10050, 0, 32⟩ from rfl, strBit]
  simp only [fieldOf, Nat.pow_zero, Nat.div_one, Nat.mod_eq_of_lt hlt, Nat.pow_one, bitOf, Nat.testBit_eq_decide_div_mod_eq]

theorem State.clearStr_same (s : State) {k : Nat} (hk : k < 32) (n : Nat) :
    (s.clearStr k n).rd (strBit k) = without (s.rd (strBit k)) (fieldOf n k 1) := by
  have hlt : s.rd (strBit k) < 2 ^ 1 := State.rd_lt ..
  rw [State.clearStr, State.rd_wr_fit _ _ _ (by simp only [strBit]; omega)]
  exact Nat.lt_of_le_of_lt (Nat.sub_le ..) hlt

theorem State.clearStr_other (s : State) {k i : Nat} (hk : k < 32) (hi : i ≠ k) (n : Nat) : (s.clearStr k n).rd (strBit i) = s.rd (strBit i) := by
  rw [State.clearStr, State.rd_wr_apart _ _ _ _ (by simp only [strBit]; omega) (by simp only [Fld.apart, strBit]; omega)]

theorem State.strEvent_stores (s : State) (n : Nat) :
    s.plainStore 0x10050 n = (((s.clearStr 0 n).clearStr 1 n).clearStr 2 n).clearStr 3 n := by
  rw [State.plainStore, show regDefAt (blkOf 0x10050) 0x10050 =
    some ⟨0x10050, [], [⟨0, 1, .w1c, 0⟩, ⟨1, 1, .w1c, 0⟩, ⟨2, 1, .w1c, 0⟩, ⟨3, 1, .w1c, 0⟩], false⟩ from rfl]
  rfl

theorem State.strEvent_cleared (s : State) (n : Nat) {k : Nat} (hk : k < 4) :
    bitOf ((s.plainStore 0x10050 n).rd Ev.str.bits) k = (bitOf (s.rd Ev.str.bits) k && !bitOf n k) := by
  have hbit : (s.plainStore 0x10050 n).rd (strBit k) = without (s.rd (strBit k)) (fieldOf n k 1) := by
    rw [State.strEvent_stores]
    interval_cases k
    · rw [State.clearStr_other _ (by decide) (by decide), State.clearStr_other _ (by decide) (by decide),
        State.clearStr_other _ (by decide) (by decide), State.clearStr_same _ (by decide)]
    · rw [State.clearStr_other _ (by decide) (by decide), State.clearStr_other _ (by decide) (by decide),
        State.clearStr_same _ (by decide), State.clearStr_other _ (by decide) (by decide)]
    · rw [State.clearStr_other _ (by decide) (by decide), State.clearStr_same _ (by decide), State.clearStr_other _ (by decide) (by decide),
        State.clearStr_other _ (by decide) (by decide)]
    · rw [State.clearStr_same _ (by decide), State.clearStr_other _ (by decide) (by decide), State.clearStr_other _ (by decide) (by decide),
        State.clearStr_other _ (by decide) (by decide)]
  have hn : fieldOf n k 1 = if bitOf n k then 1 else 0 := by
    simp only [fieldOf, bitOf, Nat.testBit_eq_decide_div_mod_eq, Nat.pow_one, decide_eq_true_eq]
    split <;> omega
  have hlt : s.rd (strBit k) < 2 := State.rd_lt s (strBit k)
  rw [bitOf_strEvent _ _ (by omega), bitOf_strEvent _ _ (by omega), hbit, hn]
  generalize s.rd (strBit k) = v at *
  generalize bitOf n k = b
  interval_cases v <;> cases b <;> decide

/-! ## The qualifier time, a pair (R5, R207) -/

/-- The high word of the qualifier time names a plain pair of the TRG block, and its low word the engine. -/
theorem qtime_places : ∀ e : Fin 4, enabledBy (F.TRG_QTIME_LO_T e).hi.addr = none ∧ enabledBy (F.TRG_QTIME_LO_T e).addr = none ∧
    pairWritable (F.TRG_QTIME_LO_T e).hi.addr = false ∧ pairWritable (F.TRG_QTIME_LO_T e).addr = true ∧
    wordFld (F.TRG_QTIME_LO_T e).addr = F.TRG_QTIME_LO_T e ∧ fin 4 (idx 0x70000 0x100 (F.TRG_QTIME_LO_T e).addr) = e := by
  decide +kernel

theorem qtime_ways (s : State) (e : Fin 4) : s.dropped (F.TRG_QTIME_LO_T e).hi.addr = none ∧ s.dropped (F.TRG_QTIME_LO_T e).addr = none ∧
    portOf (F.TRG_QTIME_LO_T e).hi.addr = none ∧ portOf (F.TRG_QTIME_LO_T e).addr = none ∧
    blkOf (F.TRG_QTIME_LO_T e).hi.addr = .trg ∧ blkOf (F.TRG_QTIME_LO_T e).addr = .trg := by
  fin_cases e <;> exact ⟨rfl, rfl, rfl, rfl, rfl, rfl⟩

theorem State.storePair_qtime (s : State) (e : Fin 4) (v : Nat) : s.storePair (F.TRG_QTIME_LO_T e).addr v =
    (s.wrP (F.TRG_QTIME_LO_T e) v).modTrg e fun k => { k with timed := s.reached v } := by
  obtain ⟨-, -, -, -, hword, hidx⟩ := qtime_places e
  have haddr : (F.TRG_QTIME_LO_T e).addr = 0x70034 + 0x100 * e := rfl
  have he := e.isLt
  rw [State.storePair, if_neg (by omega), if_neg (by omega), if_neg (by omega), if_neg (by omega), if_pos (by omega)]
  dsimp only
  rw [hword, hidx]

/-! ## The last time, a pair that is read (R5) -/

theorem last_places : ∀ e : Fin 4, pairLow (F.TRG_LAST_LO_TIME e).addr = true ∧
    blkOf (F.TRG_LAST_LO_TIME e).addr = .trg ∧ blkOf ((F.TRG_LAST_LO_TIME e).addr + 4) = .trg ∧ portOf (F.TRG_LAST_LO_TIME e).addr = none := by
  decide +kernel

theorem State.view_trg {s : State} {a : Nat} (h : blkOf a = .trg) : s.view a = (s.word .trg a).toNat := by
  rw [State.view, h]

theorem State.rd_whole (s : State) (b : Blk) (a : Nat) : s.rd ⟨b, a, 0, 32⟩ = (s.word b a).toNat := by
  have hlt : (s.word b a).toNat < 2 ^ 32 := BitVec.isLt _
  rw [State.rd, fieldOf, Nat.pow_zero, Nat.div_one, Nat.mod_eq_of_lt hlt]

theorem State.latch_latched (s : State) (r : Req) (a : Nat) (w : Word) : (s.latch r a w).latchedWord r a = some w.toNat := by
  simp [State.latchedWord, State.latch]

theorem pairLowRead_latches {r : Req} {e : Fin 4} {s : State} (hstage : s.rd F.GLB_BOOT_STAT_STAGE ≠ 3)
    (hfree : s.latchedWord r (F.TRG_LAST_LO_TIME e).addr = none) : Answers (.pairLowRead r (F.TRG_LAST_LO_TIME e).addr) s fun u =>
      u.hq.answer = [s.rd (F.TRG_LAST_LO_TIME e)] ∧ u.latchedWord r ((F.TRG_LAST_LO_TIME e).addr + 4) = some (s.rd (F.TRG_LAST_LO_TIME e).hi) ∧
      u = { s with latches := u.latches, hq := { s.hq with answer := u.hq.answer } } := by
  obtain ⟨hpair, hblk, hblkHi, hport⟩ := last_places e
  have haddr : (F.TRG_LAST_LO_TIME e).addr = 0x70060 + 0x100 * e := rfl
  have hlo : s.view (F.TRG_LAST_LO_TIME e).addr = s.rd (F.TRG_LAST_LO_TIME e) := by
    rw [State.view_trg hblk]; exact (State.rd_whole ..).symm
  have hhi : s.view ((F.TRG_LAST_LO_TIME e).addr + 4) = s.rd (F.TRG_LAST_LO_TIME e).hi := by
    rw [State.view_trg hblkHi]; exact (State.rd_whole ..).symm
  have hlt : s.rd (F.TRG_LAST_LO_TIME e).hi < 2 ^ 32 := State.rd_lt s (F.TRG_LAST_LO_TIME e).hi
  have he := e.isLt
  have hres : s.latchedResult r (F.TRG_LAST_LO_TIME e).addr = none := by rw [State.latchedResult, if_neg (by omega)]
  have hword : s.readWord r (F.TRG_LAST_LO_TIME e).addr = (s.rd (F.TRG_LAST_LO_TIME e),
      s.latch r ((F.TRG_LAST_LO_TIME e).addr + 4) (BitVec.ofNat 32 (s.rd (F.TRG_LAST_LO_TIME e).hi))) := by
    rw [State.readWord, if_neg (by simp [portReadable, hport, State.served_of_stage hstage]), hres, hfree]
    dsimp only
    rw [if_pos hpair, hlo, hhi, if_neg (by omega)]
  have hexec : exec (.pairLowRead r (F.TRG_LAST_LO_TIME e).addr) s = .next
      ((s.latch r ((F.TRG_LAST_LO_TIME e).addr + 4) (BitVec.ofNat 32 (s.rd (F.TRG_LAST_LO_TIME e).hi))).answerWith [s.rd (F.TRG_LAST_LO_TIME e)]) := by
    show execPairLowRead r _ s = _
    unfold execPairLowRead State.readBy
    rw [if_pos hpair, hport, State.readWords, hword]
    cases r <;> rfl
  refine ⟨_, hexec, rfl, ?_, rfl⟩
  exact (State.latch_latched s r _ _).trans (by rw [BitVec.toNat_ofNat, Nat.mod_eq_of_lt hlt])

/-! ## The writes of the statement -/

section
variable {r : Req} {w : Word} {s : State}

theorem State.storeWord_syncCfg (hstage : s.rd F.GLB_BOOT_STAT_STAGE ≠ 3) : s.storeWord r 0x50000 w = s.plainStore 0x50000 w.toNat :=
  State.storeWord_plain hstage (by decide +kernel) rfl rfl (by decide +kernel) (by decide +kernel) rfl fun _ => rfl

theorem syncCfg_open (hmay : s.mayStore r 0x50000 w = true) (hstage : s.rd F.GLB_BOOT_STAT_STAGE ≠ 3) (hlock : s.on F.FAB_CTRL_LOCK = false) :
    Answers (.registerWrite r 0x50000 [w] false) s fun u =>
      u.rd F.SEQ_SYNC_CFG_ROLE = fieldOf w.toNat 0 2 ∧ u.rd F.SEQ_SYNC_CFG_PERIOD = fieldOf w.toNat 8 24 ∧ RegsOnly s u ∧
      Quiet [0x50000, wseqOut] s u := by
  refine answers_registerWrite (by decide) (by decide) hmay (State.storeWord_syncCfg hstage) fun u honly hregs => ?_
  rw [State.syncCfg_stores, hlock, if_neg (by decide)] at honly hregs
  have hall : RegsOnly s u := (RegsOnly.wr ..).trans ((RegsOnly.wr ..).trans honly)
  refine ⟨?_, ?_, hall, .of_event hall.event ?_⟩
  · rw [hregs.rd _ (by decide), State.rd_wr_apart _ _ _ _ (by decide) (by simp [Fld.apart, F.SEQ_SYNC_CFG_ROLE, F.SEQ_SYNC_CFG_PERIOD]),
      State.rd_wr_fit _ F.SEQ_SYNC_CFG_ROLE _ (by decide) (fieldOf_lt _ _ 2)]
  · rw [hregs.rd _ (by decide), State.rd_wr_fit _ F.SEQ_SYNC_CFG_PERIOD _ (by decide) (fieldOf_lt _ _ 24)]
  · exact (((RegsSame.refl _ s).andWr (by decide)).andWr (by decide)).trans (hregs.mono (by simp))

theorem syncCfg_locked (hmay : s.mayStore r 0x50000 w = true) (hstage : s.rd F.GLB_BOOT_STAT_STAGE ≠ 3) (hlock : s.on F.FAB_CTRL_LOCK = true) :
    Answers (.registerWrite r 0x50000 [w] false) s fun u => RegsOnly s u ∧ Quiet [wseqOut] s u := by
  refine answers_registerWrite (by decide) (by decide) hmay (State.storeWord_syncCfg hstage) fun u honly hregs => ?_
  rw [State.syncCfg_stores, hlock, if_pos rfl] at honly hregs
  exact ⟨honly, .of_event honly.event hregs⟩

theorem strStatus_readOnly (hmay : s.mayStore r 0x10000 w = true) (hstage : s.rd F.GLB_BOOT_STAT_STAGE ≠ 3) :
    Answers (.registerWrite r 0x10000 [w] false) s fun u => RegsOnly s u ∧ Quiet [wseqOut] s u := by
  have hstore : s.storeWord r 0x10000 w = s :=
    State.storeWord_plain hstage (by decide +kernel) rfl rfl (by decide +kernel) (by decide +kernel) rfl fun _ => rfl
  exact answers_registerWrite (by decide) (by decide) hmay hstore fun u honly hregs => ⟨honly, .of_event honly.event hregs⟩

theorem strEvent_clears {k : Nat} (hmay : s.mayStore r 0x10050 w = true) (hstage : s.rd F.GLB_BOOT_STAT_STAGE ≠ 3)
    (hk : bitOf Ev.str.layout k = true) : Answers (.registerWrite r 0x10050 [w] false) s fun u =>
      bitOf (u.rd Ev.str.bits) k = (bitOf (s.rd Ev.str.bits) k && !bitOf w.toNat k) ∧ RegsOnly s u ∧ Quiet [0x10050, wseqOut] s u := by
  have hlayout : Ev.str.layout = 15 := by decide +kernel
  have hk4 : k < 4 := by
    by_contra hge
    rw [hlayout, bitOf, Nat.testBit_lt_two_pow (Nat.lt_of_lt_of_le (by decide : 15 < 2 ^ 4) (Nat.pow_le_pow_right (by decide) (by omega)))] at hk
    exact absurd hk (by decide)
  refine answers_registerWrite (by decide) (by decide) hmay (State.storeWord_plain hstage (by decide +kernel) rfl rfl (by decide +kernel)
    (by decide +kernel) rfl fun _ => rfl) fun u honly hregs => ?_
  have hbit := s.strEvent_cleared w.toNat hk4
  have hstored : RegsOnly s (s.plainStore 0x10050 w.toNat) ∧ RegsSame [0x10050] s (s.plainStore 0x10050 w.toNat) := by
    rw [State.strEvent_stores]
    exact ⟨.trans (.trans (.trans (.wr ..) (.wr ..)) (.wr ..)) (.wr ..),
      (((RegsSame.wr _ _ _ (by simp [strBit])).andWr (by simp [strBit])).andWr (by simp [strBit])).andWr (by simp [strBit])⟩
  generalize s.plainStore 0x10050 w.toNat = x at *
  obtain ⟨hxonly, hxregs⟩ := hstored
  exact ⟨by rw [hregs.rd _ (by decide), hbit], hxonly.trans honly,
    .of_event (hxonly.trans honly).event ((hxregs.mono (by simp)).trans (hregs.mono (by simp)))⟩

theorem strEnable_written (hmay : s.mayStore r 0x10054 w = true) (hstage : s.rd F.GLB_BOOT_STAT_STAGE ≠ 3) :
    Answers (.registerWrite r 0x10054 [w] false) s fun u =>
      u.rd Ev.str.enable = w.toNat &&& Ev.str.layout ∧ EventOnly s u ∧ Quiet ([0x10054, wseqOut] ++ occOut) s u := by
  refine answers_registerWrite (by decide) (by decide) hmay (State.storeWord_enable hstage (e := Ev.str) (by decide +kernel)) fun u honly hregs => ?_
  have hevent := s.writeEnable_event Ev.str (w.toNat &&& Ev.str.layout)
  have hout := s.writeEnable_regs Ev.str (w.toNat &&& Ev.str.layout)
  have hval : (s.writeEnable Ev.str (w.toNat &&& Ev.str.layout)).rd Ev.str.enable = w.toNat &&& Ev.str.layout := by
    rw [State.writeEnable, (State.raised_regs _ _ _).rd _ (by decide), State.rd_wr_fit _ _ _ (by decide)]
    exact Nat.lt_of_le_of_lt Nat.and_le_left w.isLt
  generalize s.writeEnable Ev.str (w.toNat &&& Ev.str.layout) = x at *
  refine ⟨by rw [hregs.rd _ (by decide), hval], hevent.trans honly.event, .of_event (hevent.trans honly.event) ?_⟩
  exact (hout.mono fun a ha => by simp only [List.mem_cons, List.mem_append] at ha ⊢; exact ha.elim (fun h => .inl (.inl h)) .inr).trans (hregs.mono (by simp))

theorem qtime_high {e : Fin 4} (hmay : s.mayStore r (F.TRG_QTIME_LO_T e).hi.addr w = true) (hstage : s.rd F.GLB_BOOT_STAT_STAGE ≠ 3) :
    Answers (.registerWrite r (F.TRG_QTIME_LO_T e).hi.addr [w] false) s fun u =>
      u.rdP (F.TRG_QTIME_LO_T e) = s.lowFor r (F.TRG_QTIME_LO_T e) + 2 ^ 32 * w.toNat ∧
      u.acq.trg[e] = { s.acq.trg[e] with timed := s.reached (u.rdP (F.TRG_QTIME_LO_T e)) } ∧ (∀ k, k ≠ e → u.acq.trg[k] = s.acq.trg[k]) ∧
      u = { s with regs := u.regs, held := u.held, acq := { s.acq with trg := u.acq.trg } } ∧
      Quiet [(F.TRG_QTIME_LO_T e).addr, (F.TRG_QTIME_LO_T e).hi.addr, wseqOut] s u := by
  obtain ⟨hen, -, hlow, hhigh, -, -⟩ := qtime_places e
  obtain ⟨hdrop, -, hport, -, hblk, hblkLo⟩ := qtime_ways s e
  have haddr : (F.TRG_QTIME_LO_T e).addr = 0x70034 + 0x100 * e := rfl
  have hhi : (F.TRG_QTIME_LO_T e).hi.addr = 0x70034 + 0x100 * e + 4 := rfl
  have hminus : (F.TRG_QTIME_LO_T e).hi.addr - 4 = (F.TRG_QTIME_LO_T e).addr := rfl
  have hforce : (s.word .trg (F.TRG_QTIME_LO_T e).addr).toNat = s.rd (F.TRG_QTIME_LO_T e) := (State.rd_whole ..).symm
  have he := e.isLt
  have hstore := State.storeWord_high (w := w) (r := r) hstage hen hdrop hport (by rw [hblk]; decide) hlow (by omega) (by rw [hminus]; exact hhigh)
  rw [hminus, hblk, hforce, show (s.takeHeld r (F.TRG_QTIME_LO_T e).addr (s.rd (F.TRG_QTIME_LO_T e))).1 = s.lowFor r (F.TRG_QTIME_LO_T e) from rfl,
    State.storePair_qtime] at hstore
  have hheld := s.takeHeld_state r (F.TRG_QTIME_LO_T e).addr (s.rd (F.TRG_QTIME_LO_T e))
  generalize (s.takeHeld r (F.TRG_QTIME_LO_T e).addr (s.rd (F.TRG_QTIME_LO_T e))).2 = x at *
  have hlt : s.lowFor r (F.TRG_QTIME_LO_T e) + 2 ^ 32 * w.toNat < 2 ^ 64 := by
    have := s.lowFor_lt r (F.TRG_QTIME_LO_T e) rfl
    have := w.isLt
    omega
  generalize s.lowFor r (F.TRG_QTIME_LO_T e) + 2 ^ 32 * w.toNat = v at *
  have hnow : x.reached v = s.reached v := by rw [hheld]; rfl
  rw [hnow] at hstore
  have hxregs : x.regs = s.regs := by rw [hheld]
  refine answers_registerWrite (by omega) (by omega) hmay hstore fun u honly hregs => ?_
  have hpair := State.rdP_wrP x (f := F.TRG_QTIME_LO_T e) (v := v) rfl rfl hlt
  have hpairOnly : RegsOnly x (x.wrP (F.TRG_QTIME_LO_T e) v) := .wrP ..
  have hpairRegs : RegsSame [(F.TRG_QTIME_LO_T e).addr, (F.TRG_QTIME_LO_T e).hi.addr, wseqOut] x (x.wrP (F.TRG_QTIME_LO_T e) v) :=
    (RegsSame.refl _ x).andWrP (by simp) (by simp [Fld.hi])
  generalize x.wrP (F.TRG_QTIME_LO_T e) v = y at *
  have hmod : (y.modTrg e fun k => { k with timed := s.reached v }).regs = y.regs := rfl
  have hmodOnly : y.modTrg e (fun k => { k with timed := s.reached v }) =
      { y with acq := { y.acq with trg := upd y.acq.trg e fun k => { k with timed := s.reached v } } } := rfl
  have hacq : y.acq = s.acq := by rw [hpairOnly, hheld]
  generalize (y.modTrg e fun k => { k with timed := s.reached v }) = z at *
  have hu : u.rdP (F.TRG_QTIME_LO_T e) = v := by
    rw [hregs.rdP _ (by simp only [haddr, wseqOut, F.HQ_WSEQ_COUNT, List.mem_singleton]; omega)
      (by simp only [haddr, wseqOut, F.HQ_WSEQ_COUNT, List.mem_singleton]; omega), ← hpair, State.rdP, State.rdP, State.rd_of_regs hmod, State.rd_of_regs hmod]
  have htrg : u.acq.trg = upd s.acq.trg e fun k => { k with timed := s.reached v } := by rw [honly, hmodOnly, hacq]
  have hall : u = { s with regs := u.regs, held := u.held, acq := { s.acq with trg := u.acq.trg } } := by
    rw [htrg, honly, hmodOnly, hpairOnly, hheld]
  refine ⟨hu, ?_, fun k hk => ?_, hall, ?_, ?_⟩
  · rw [htrg, hu]; exact upd_same ..
  · rw [htrg]; exact upd_other _ _ _ _ hk
  · exact ((RegsSame.of_regs _ hxregs).trans hpairRegs).trans ((RegsSame.of_regs _ hmod).trans (hregs.mono (by simp)))
  · rw [hall]; exact .of_eq rfl rfl rfl rfl

theorem qtime_low {e : Fin 4} (hmay : s.mayStore r (F.TRG_QTIME_LO_T e).addr w = true) (hstage : s.rd F.GLB_BOOT_STAT_STAGE ≠ 3) :
    Answers (.pairLowWrite r (F.TRG_QTIME_LO_T e).addr w) s fun u =>
      u.lowFor r (F.TRG_QTIME_LO_T e) = w.toNat ∧ u = { s with regs := u.regs, held := u.held } ∧ Quiet [wseqOut] s u := by
  obtain ⟨-, hen, -, hlow, -, -⟩ := qtime_places e
  obtain ⟨-, hdrop, -, hport, -, hblk⟩ := qtime_ways s e
  have hexec : exec (.pairLowWrite r (F.TRG_QTIME_LO_T e).addr w) s = .next (s.writeWords r (F.TRG_QTIME_LO_T e).addr [w]) := by
    show execPairLowWrite r _ w s = _
    rw [execPairLowWrite, if_pos hlow]
  obtain ⟨honly, hregs⟩ := State.writeWords_one hmay rfl
  rw [State.storeWord_low hstage hen hdrop hport (by rw [hblk]; decide) hlow] at honly hregs
  generalize s.writeWords r (F.TRG_QTIME_LO_T e).addr [w] = u at *
  have hheld : u.held = (s.holdLow r (F.TRG_QTIME_LO_T e).addr w).held := by rw [honly]
  exact ⟨u, hexec, State.takeHeld_of_held hheld _, by rw [honly]; rfl, (RegsSame.of_regs _ rfl).trans hregs, by rw [honly]; exact .of_eq rfl rfl rfl rfl⟩

theorem State.storeWord_fabCtrl (hstage : s.rd F.GLB_BOOT_STAT_STAGE ≠ 3) : s.storeWord r 0x20000 w = s.plainStore 0x20000 w.toNat :=
  State.storeWord_plain hstage (by decide +kernel) rfl rfl (by decide +kernel) (by decide +kernel) rfl fun _ => rfl

/-- A write of FAB_CTRL through the state its enable leaves: LOCK ends as the bits given it, and the enable as that state has it. -/
theorem fabLock_answers {x : State} (hmay : s.mayStore r (F.FAB_CTRL_LOCK).addr w = true) (hstage : s.rd F.GLB_BOOT_STAT_STAGE ≠ 3)
    (hx : (if s.on F.FAB_CTRL_LOCK then s else s.wr F.FAB_CTRL_AVC_EN (fieldOf w.toNat 0 1)) = x) (hxonly : RegsOnly s x)
    (hxregs : RegsSame [(F.FAB_CTRL_LOCK).addr, wseqOut] s x) (hlock : x.rd F.FAB_CTRL_LOCK ||| fieldOf w.toNat 8 1 = 1) :
    Answers (.fabLockWrite r w) s fun u => u.rd F.FAB_CTRL_LOCK = 1 ∧ u.rd F.FAB_CTRL_AVC_EN = x.rd F.FAB_CTRL_AVC_EN ∧ RegsOnly s u ∧
      Quiet [(F.FAB_CTRL_LOCK).addr, wseqOut] s u := by
  obtain ⟨honly, hregs⟩ := State.writeWords_one hmay rfl
  have hstore := State.storeWord_fabCtrl (r := r) (w := w) hstage
  rw [State.fabCtrl_stores, hx] at hstore
  dsimp only at hstore
  rw [hlock] at hstore
  rw [show s.storeWord r (F.FAB_CTRL_LOCK).addr w = _ from hstore] at honly hregs
  have hall : RegsOnly s (s.writeWords r (F.FAB_CTRL_LOCK).addr [w]) := hxonly.trans ((RegsOnly.wr ..).trans honly)
  refine ⟨_, rfl, ?_, ?_, hall, .of_event hall.event ?_⟩
  · rw [hregs.rd _ (by decide), State.rd_wr_fit _ _ _ (by decide) (by decide)]
  · rw [hregs.rd _ (by decide), State.rd_wr_apart _ _ _ _ (by decide) (by simp [Fld.apart, F.FAB_CTRL_AVC_EN, F.FAB_CTRL_LOCK])]
  · exact (hxregs.andWr (by simp)).trans (hregs.mono (by simp))
end

end Sys2Proof.Machine

open Sys2Proof Sys2Proof.Machine

/-- Settles O35, by the way the word written takes, or by the fault of the requester that may not write it. -/
theorem registerAccesses : Obligations.RegisterAccesses := by
  refine ⟨fun r w s => syncCfg_open, fun r w s => syncCfg_locked, fun r w s => strStatus_readOnly, fun r w k s => strEvent_clears,
    fun r w s => strEnable_written, fun r e w s => qtime_high, fun id addr w s halign hend hmay hroom => ?_, fun id addr words s hroom => ?_,
    fun c addr w s halign hend hmay => ?_, fun r w s hmay hstage hlock hbit => ?_, fun r w s hmay hstage hlock => ?_, fun r e w s => qtime_low,
    fun r e s => pairLowRead_latches⟩
  · obtain ⟨hpwf, -, hrest⟩ := s.pwFault_keeps ⟨6, 0, 15, 0, 1, addr, id, 0, 0⟩ hroom rfl
    exact ⟨_, (exec_registerWrite halign hend).trans (by rw [State.writeWords_host_refused hmay]), hpwf, hrest⟩
  · obtain ⟨hpwf, -, -, honly, hquiet⟩ := s.takeFree.2.pwFault_keeps ⟨4, 0, s.takeFree.1 % 16, s.takeFree.1 / 16 % 16, words.length % 1024,
      addr, id, 0, 0⟩ hroom rfl
    refine ⟨_, rfl, ⟨_, hpwf, rfl, rfl, rfl⟩, ?_, (RegsSame.of_regs _ rfl).trans hquiet.1, hquiet.2⟩
    exact honly.takeFree
  · obtain ⟨hcore, hothers, honly⟩ := s.coreTrap_keeps c 7 addr
    refine ⟨_, (exec_registerWrite halign hend).trans (by rw [State.writeWords_core_refused hmay]), ?_, ?_, ?_, hothers, honly⟩ <;> rw [hcore]
  · have hval : fieldOf w.toNat 8 1 = 1 := by
      rw [BitVec.getLsbD, Nat.testBit_eq_decide_div_mod_eq, decide_eq_true_eq] at hbit
      simpa only [fieldOf, Nat.pow_one] using hbit
    have hlt : (s.wr F.FAB_CTRL_AVC_EN (fieldOf w.toNat 0 1)).rd F.FAB_CTRL_LOCK < 2 := State.rd_lt _ F.FAB_CTRL_LOCK
    obtain ⟨u, hexec, hlocked, havc, hrest⟩ := fabLock_answers hmay hstage (by rw [hlock, if_neg (by decide)]) (.wr s F.FAB_CTRL_AVC_EN _)
      (RegsSame.wr _ _ _ (by decide)) (by rw [hval]; generalize State.rd _ F.FAB_CTRL_LOCK = v at hlt ⊢; interval_cases v <;> decide)
    exact ⟨u, hexec, hlocked, havc.trans (State.rd_wr_fit _ _ _ (by decide) (fieldOf_lt ..)), hrest⟩
  · have hone : s.rd F.FAB_CTRL_LOCK = 1 := by simpa [State.on] using hlock
    have hlt : fieldOf w.toNat 8 1 < 2 := fieldOf_lt _ _ 1
    exact fabLock_answers hmay hstage (by rw [hlock, if_pos rfl]) (.refl s) (.refl _ s)
      (by rw [hone]; generalize fieldOf w.toNat 8 1 = v at hlt ⊢; interval_cases v <;> decide)
end

section
/-! O38 (Ethernet frames), R357 to R360: a slot is the sixteen bytes of its head and the frame behind them; a frame received fills the
next owned slot, and one sent leaves only the owner bit of its slot changed. -/

set_option Elab.async false

namespace Sys2Proof.Machine

theorem bytesLE_length (k n : Nat) : (bytesLE k n).length = k := by simp [bytesLE]

/-! ## A frame received (R357, R358) -/

/-- The head of a filled receive slot: length, flags with the owner bit clear, and the timestamp. -/
def rxHead (len flags frac time : Nat) : List Byte :=
  bytesLE 2 len ++ bytesLE 1 flags ++ bytesLE 1 0 ++ bytesLE 2 frac ++ bytesLE 2 0 ++ bytesLE 8 time

theorem rxHead_length (len flags frac time : Nat) : (rxHead len flags frac time).length = 16 := by
  simp [rxHead, bytesLE_length]

theorem rxHead_flags (len flags frac time : Nat) (frame : List Byte) (h : 2 < (rxHead len flags frac time ++ frame).length) :
    (rxHead len flags frac time ++ frame)[2] = BitVec.ofNat 8 flags := by
  simp [rxHead, bytesLE, List.range_succ]

section
variable {frame : List Byte} {frac : Nat} {s : State} {a : Nat}
  (hrx : s.rd F.TIM_ETH_SLOTS_RX ≠ 0) (habsent : s.clk.absent = false) (hmin : 60 ≤ frame.length) (hmax : frame.length ≤ 2032)
  (ha : ringSlot (s.rd F.TIM_ETH_RXRING_OFFSET) (s.tim.rxNext % s.rd F.TIM_ETH_SLOTS_RX) = a)
include hrx habsent hmin hmax ha

theorem ethReceive_fills (hown : bitOf (Mem.byte s.canopy (a + 2)).toNat 0 = true) : Answers (.ethFrameReceive frame true frac) s fun u =>
      Mem.bytes u.canopy (a + 16) frame.length = frame ∧ bitOf (Mem.byte u.canopy (a + 2)).toNat 0 = false ∧
      (∀ x, x < a ∨ a + 16 + frame.length ≤ x → Mem.byte u.canopy x = Mem.byte s.canopy x) ∧
      u.tim = { s.tim with rxNext := (s.tim.rxNext + 1) % s.rd F.TIM_ETH_SLOTS_RX } ∧ u = { s with canopy := u.canopy, tim := u.tim } := by
  obtain ⟨flags, f, t, heven, hexec⟩ : ∃ flags f t, bitOf flags 0 = false ∧ exec (.ethFrameReceive frame true frac) s = .next
      { s.putCanopy a (rxHead frame.length flags f t ++ frame) with
        tim := { s.tim with rxNext := (s.tim.rxNext + 1) % s.rd F.TIM_ETH_SLOTS_RX } } := by
    refine ⟨2 * b2n (ptpOf frame).isSome + 8 * b2n ((ptpOf frame).isSome && s.on F.TIM_STATUS_UNREF),
      if (ptpOf frame).isSome then (s.stampOfFrac frac).2 else 0, if (ptpOf frame).isSome then (s.stampOfFrac frac).1 else 0, ?_, ?_⟩
    · cases (ptpOf frame).isSome <;> cases s.on F.TIM_STATUS_UNREF <;> decide
    · show execEthFrameReceive frame true frac s = _
      rw [execEthFrameReceive]
      dsimp only
      rw [if_neg (by simp only [hrx, habsent]; simp; omega), ha, if_pos hown]
      rfl
  have hlen := rxHead_length frame.length flags f t
  have hhead := rxHead_flags frame.length flags f t frame
  generalize rxHead frame.length flags f t = head at *
  have hall : (head ++ frame).length = 16 + frame.length := by rw [List.length_append, hlen]
  refine ⟨_, hexec, ?_, ?_, fun x hx => ?_, rfl, rfl⟩
  · refine (Mem.bytes_puts s.canopy (by omega)).trans ?_
    rw [List.drop_append_of_le_length (by omega), List.drop_of_length_le (by omega), List.nil_append, List.take_length]
  · have hbyte : Mem.byte (Mem.puts s.canopy a (head ++ frame)) (a + 2) = BitVec.ofNat 8 flags := by
      rw [Mem.byte_puts, dif_pos (by omega)]
      simp only [Nat.add_sub_cancel_left]
      exact hhead _
    show bitOf (Mem.byte (Mem.puts s.canopy a (head ++ frame)) (a + 2)).toNat 0 = false
    rw [hbyte, BitVec.toNat_ofNat, bitOf, Nat.testBit_mod_two_pow]
    simpa using heven
  · exact (Mem.byte_puts ..).trans (dif_neg (by omega))

theorem ethReceive_drops (hown : bitOf (Mem.byte s.canopy (a + 2)).toNat 0 = false) : Answers (.ethFrameReceive frame true frac) s fun u =>
      u.rd F.TIM_ETH_STAT_RX_DROP = min (s.rd F.TIM_ETH_STAT_RX_DROP + 1) 65535 ∧ bitOf (u.rd Ev.tim.bits) 6 = true ∧ EventOnly s u ∧
      Quiet ((F.TIM_ETH_STAT_RX_DROP).addr :: evOut Ev.tim) s u := by
  have hexec : exec (.ethFrameReceive frame true frac) s = .next ((s.incSat F.TIM_ETH_STAT_RX_DROP).event Ev.tim 6) := by
    show execEthFrameReceive frame true frac s = _
    rw [execEthFrameReceive]
    dsimp only
    rw [if_neg (by simp only [hrx, habsent]; simp; omega), ha, if_neg (by rw [hown]; decide)]
  have hcount := State.rd_incSat s F.TIM_ETH_STAT_RX_DROP (by decide)
  have hregs := RegsSame.incSat (out := (F.TIM_ETH_STAT_RX_DROP).addr :: evOut Ev.tim) s F.TIM_ETH_STAT_RX_DROP 1 (List.mem_cons_self ..)
  have honly : EventOnly s (s.incSat F.TIM_ETH_STAT_RX_DROP) := (RegsOnly.wr ..).event
  generalize s.incSat F.TIM_ETH_STAT_RX_DROP = x at *
  refine ⟨_, hexec, ?_, State.event_bit _ _ (by decide) (by decide), honly.trans (State.event_event ..),
    .of_event (honly.trans (State.event_event ..)) (hregs.andEvent fun _ h => List.mem_cons_of_mem _ h)⟩
  rw [(State.event_regs x Ev.tim 6).rd _ (by decide), hcount]
  rfl
end

/-! ## A frame sent (R357, R360) -/

theorem ethTransmit_sends {frac a : Nat} {s : State} (htx : s.rd F.TIM_ETH_SLOTS_TX ≠ 0) (habsent : s.clk.absent = false)
    (ha : ringSlot (s.rd F.TIM_ETH_TXRING_OFFSET) (s.tim.txNext % s.rd F.TIM_ETH_SLOTS_TX) = a)
    (hown : bitOf (Mem.byte s.canopy (a + 2)).toNat 0 = true) (hstamp : bitOf (Mem.byte s.canopy (a + 2)).toNat 1 = false)
    (hone : bitOf (Mem.byte s.canopy (a + 2)).toNat 2 = false) : Answers (.ethFrameTransmit frac) s fun u =>
      u.tim.ethSent = Mem.bytes s.canopy (a + 16) (ofBytesLE (Mem.bytes s.canopy a 2)) ++
          bytesLE 4 (crc32 (u.tim.ethSent.take (u.tim.ethSent.length - 4))) ∧
      bitOf (Mem.byte u.canopy (a + 2)).toNat 0 = false ∧ (∀ x, x ≠ a + 2 → Mem.byte u.canopy x = Mem.byte s.canopy x) ∧
      u.tim = { s.tim with txNext := (s.tim.txNext + 1) % s.rd F.TIM_ETH_SLOTS_TX, ethSent := u.tim.ethSent } ∧
      u = { s with canopy := u.canopy, tim := u.tim } := by
  have hexec : exec (.ethFrameTransmit frac) s = .next
      { s.putCanopy (a + 2) (bytesLE 1 (without (Mem.byte s.canopy (a + 2)).toNat 1)) with
        tim := { s.tim with
          txNext := (s.tim.txNext + 1) % s.rd F.TIM_ETH_SLOTS_TX
          ethSent := Mem.bytes s.canopy (a + 16) (ofBytesLE (Mem.bytes s.canopy a 2)) ++
            bytesLE 4 (crc32 (Mem.bytes s.canopy (a + 16) (ofBytesLE (Mem.bytes s.canopy a 2)))) } } := by
    show execEthFrameTransmit frac s = _
    rw [execEthFrameTransmit]
    dsimp only
    rw [if_neg (by simp [htx, habsent]), ha, if_neg (by rw [hown]; decide), if_pos hstamp]
    cases ptpOf (Mem.bytes s.canopy (a + 16) (ofBytesLE (Mem.bytes s.canopy a 2))) with
    | none => rfl
    | some p =>
      dsimp only
      rw [if_neg (by simp [hone])]
      rfl
  have hlen := bytesLE_length 1 (without (Mem.byte s.canopy (a + 2)).toNat 1)
  generalize hframe : Mem.bytes s.canopy (a + 16) (ofBytesLE (Mem.bytes s.canopy a 2)) = frame at *
  refine ⟨_, hexec, ?_, ?_, fun x hx => ?_, rfl, rfl⟩
  · show frame ++ bytesLE 4 (crc32 frame) =
      frame ++ bytesLE 4 (crc32 ((frame ++ bytesLE 4 (crc32 frame)).take ((frame ++ bytesLE 4 (crc32 frame)).length - 4)))
    rw [List.length_append, bytesLE_length, Nat.add_sub_cancel, List.take_left]
  · have hbyte : Mem.byte (Mem.puts s.canopy (a + 2) (bytesLE 1 (without (Mem.byte s.canopy (a + 2)).toNat 1))) (a + 2) =
        BitVec.ofNat 8 (without (Mem.byte s.canopy (a + 2)).toNat 1) := by
      rw [Mem.byte_puts, dif_pos (by omega)]
      simp [bytesLE]
    show bitOf (Mem.byte (Mem.puts s.canopy (a + 2) _) (a + 2)).toNat 0 = false
    rw [hbyte, BitVec.toNat_ofNat, bitOf, Nat.testBit_mod_two_pow, show Nat.testBit (without _ 1) 0 = _ from bitOf_without_self _ 0, Bool.and_false]
  · exact (Mem.byte_puts ..).trans (dif_neg (by omega))

/-- The timestamp registers over one timestamp, or over none. -/
def State.showTxts (s : State) (tag unref valid frac time : Nat) : State :=
  (s.wrs [(F.TIM_TXTS_INFO_TAG, tag), (F.TIM_TXTS_INFO_UNREF, unref), (F.TIM_TXTS_INFO_VALID, valid), (F.TIM_TXTS_FRAC_FRAC, frac)]).wrP
    F.TIM_TXTS_LO_TIME time

theorem State.showTxts_keeps (s : State) {tag unref valid frac time : Nat} (hv : valid < 2) {u : State}
    (hu : s.showTxts tag unref valid frac time = u) : RegsOnly s u ∧ u.rd F.TIM_TXTS_INFO_VALID = valid ∧
    RegsSame [(F.TIM_TXTS_INFO_VALID).addr, (F.TIM_TXTS_FRAC_FRAC).addr, (F.TIM_TXTS_LO_TIME).addr, (F.TIM_TXTS_LO_TIME).addr + 4] s u := by
  rw [← hu, State.showTxts]
  refine ⟨(RegsOnly.wrs ..).trans (.wrP ..), ?_, ((RegsSame.refl _ s).andWrs (by simp [F.TIM_TXTS_INFO_TAG, F.TIM_TXTS_INFO_UNREF, F.TIM_TXTS_INFO_VALID])).andWrP (by decide) (by decide)⟩
  simp only [State.wrs, List.foldl_cons, List.foldl_nil]
  rw [State.rd_wrP_apart _ _ (by decide) (by decide), State.rd_wr_other _ _ _ _ (by decide),
    State.rd_wr_fit _ _ _ (by decide) (by simpa [F.TIM_TXTS_INFO_VALID] using hv)]

theorem State.noteTxts_keeps (s : State) {u : State} (hu : s.noteTxts = u) : RegsOnly s u ∧
    u.rd F.TIM_TXTS_INFO_VALID = b2n (!s.tim.txts.isEmpty) ∧
    RegsSame [(F.TIM_TXTS_INFO_VALID).addr, (F.TIM_TXTS_FRAC_FRAC).addr, (F.TIM_TXTS_LO_TIME).addr, (F.TIM_TXTS_LO_TIME).addr + 4] s u := by
  rw [State.noteTxts] at hu
  cases htxts : s.tim.txts with
  | nil =>
    rw [htxts] at hu
    exact s.showTxts_keeps (tag := 0) (unref := 0) (valid := 0) (frac := 0) (time := 0) (by decide) hu
  | cons x l =>
    rw [htxts] at hu
    exact s.showTxts_keeps (tag := x.tag) (unref := b2n x.unref) (valid := 1) (frac := x.frac) (time := x.time) (by decide) hu

end Sys2Proof.Machine

open Sys2Proof Sys2Proof.Machine

/-- Settles O38, by the owner bit of the slot, and by what a timestamp leaves to be shown. -/
theorem ethernetFrames : Obligations.EthernetFrames := by
  refine ⟨fun frame frac s hrx habsent hmin hmax => ethReceive_fills hrx habsent hmin hmax rfl,
    fun frame frac s hrx habsent hmin hmax => ethReceive_drops hrx habsent hmin hmax rfl, fun frame frac s => ?_, fun frame ok frac s habsent => ?_,
    fun frac s htx habsent => ethTransmit_sends htx habsent rfl, fun frac s htx => ?_, fun s => ?_⟩
  · show execEthFrameReceive frame false frac s = _
    rw [execEthFrameReceive]
    exact if_pos (by simp)
  · refine ⟨(?_ : execEthFrameReceive frame ok frac s = _), (?_ : execEthFrameTransmit frac s = _)⟩
    · rw [execEthFrameReceive]; exact if_pos (.inr (.inl habsent))
    · rw [execEthFrameTransmit]; exact if_pos (.inr habsent)
  · show execEthFrameTransmit frac s = _
    rw [execEthFrameTransmit]; exact if_pos (.inl htx)
  · obtain ⟨honly, hvalid, hregs⟩ := State.noteTxts_keeps { s with tim := { s.tim with txts := s.tim.txts.drop 1 } } rfl
    have hexec : exec .timTxtsPop s = .next { s with tim := { s.tim with txts := s.tim.txts.drop 1 } }.noteTxts := rfl
    generalize State.noteTxts _ = u at *
    refine ⟨u, hexec, ?_, hvalid, ?_, (RegsSame.of_regs _ rfl).trans hregs, ?_⟩
    · rw [honly]
    · rw [honly]
    · rw [honly]; exact .of_eq rfl rfl rfl rfl
end

section
/-! O37 (shared time), R347 to R355: a rate and a step wait for their edge, and the tokens of the exchange are taken from the lane they
stand first in. -/

set_option Elab.async false

namespace Sys2Proof.Machine

/-- A field written and an event raised: what is read of both, and what is left of the rest. -/
theorem State.wr_event_keeps (s : State) {f : Fld} {v i : Nat} {r : EvReg} (hf : f.lsb + f.width ≤ 32) (hv : v < 2 ^ f.width)
    (hfr : f.addr ∉ evOut r) (hr : r.ev ∉ occOut) (hi : i < 32) {u : State} (hu : (s.wr f v).event r i = u) :
    u.rd f = v ∧ bitOf (u.rd r.bits) i = true ∧ EventOnly s u ∧ RegsSame (f.addr :: evOut r) s u ∧
    ∀ g : Fld, f.apart g → g.addr ∉ evOut r → u.rd g = s.rd g := by
  have hval := State.rd_wr_fit s f v hf hv
  have hother := fun g hg => State.rd_wr_apart s f g v hf hg
  have hwr := RegsOnly.wr s f v
  have hsame : RegsSame (f.addr :: evOut r) s (s.wr f v) := .wr _ _ _ (List.mem_cons_self ..)
  generalize s.wr f v = x at *
  have hev : RegsSame (evOut r) x u := hu ▸ State.event_regs x r i
  have hbit : bitOf (u.rd r.bits) i = true := hu ▸ State.event_bit x r hr hi
  have honly : EventOnly x u := hu ▸ State.event_event x r i
  exact ⟨(hev.rd _ hfr).trans hval, hbit, hwr.event.trans honly, hsame.trans (hev.mono fun _ h => List.mem_cons_of_mem _ h),
    fun g hg hgr => (hev.rd g hgr).trans (hother g hg)⟩

/-! ## Rates (R347, R348) -/

/-- A change of rate at an edge does not move the reading of that edge, and the new rate counts from there. -/
theorem Tim.nowFrac_reRateAt (t : Tim) (edge : Nat) (r ho : Int) (raw : Nat) :
    { t.reRateAt edge r ho with raw := raw }.nowFrac = { t with raw := edge }.nowFrac + (tickFrac + r + ho) * ((raw : Int) - edge) := by
  simp only [Tim.nowFrac, Tim.reRateAt]
  ring

theorem rateApply_applies {r : Int} {edge : Nat} {s : State} (hpend : s.tim.ratePend = some (r, edge)) (hdue : edge ≤ s.tim.raw) :
    Answers .rateApply s fun u =>
      u.tim.rate = r ∧ u.tim.ratePend = none ∧ u.tim.rateHo = s.tim.rateHo ∧
      { u.tim with raw := edge }.nowFrac = { s.tim with raw := edge }.nowFrac ∧
      u.tim.nowFrac = { s.tim with raw := edge }.nowFrac + (tickFrac + r + s.tim.rateHo) * (s.tim.raw - edge : Nat) ∧ u = { s with tim := u.tim } := by
  have hexec : exec .rateApply s = .next { s with tim := { s.tim.reRateAt edge r s.tim.rateHo with ratePend := none } } := by
    show execRateApply s = _
    rw [execRateApply, hpend]
    exact if_neg (by omega)
  refine ⟨_, hexec, rfl, rfl, rfl, ?_, ?_, rfl⟩
  · exact (s.tim.nowFrac_reRateAt edge r s.tim.rateHo edge).trans (by ring)
  · rw [Nat.cast_sub hdue]
    exact s.tim.nowFrac_reRateAt edge r s.tim.rateHo s.tim.raw

section
variable {req : Req} {w : Word} {s : State}

theorem timRate_waits (hmay : s.mayWrite req F.TIM_RATE_RATE.addr w = true) : Answers (.timRateWrite req w) s fun u =>
      u.rd F.TIM_RATE_RATE = w.toNat ∧ u.tim = { s.tim with ratePend := some (sx 32 w.toNat, s.tim.nextEdge) } ∧
      u = { s with regs := u.regs, tim := u.tim } ∧ Quiet [(F.TIM_RATE_RATE).addr, wseqOut] s u := by
  refine answers_regWrite (apply := fun s => s.timRate w.toNat) rfl hmay fun u honly hregs => ?_
  have hval : (s.wr F.TIM_RATE_RATE w.toNat).rd F.TIM_RATE_RATE = w.toNat := State.rd_wr_fit _ _ _ (by decide) w.isLt
  have hwr : RegsOnly s (s.wr F.TIM_RATE_RATE w.toNat) := .wr ..
  have hsame : RegsSame [(F.TIM_RATE_RATE).addr, wseqOut] s (s.wr F.TIM_RATE_RATE w.toNat) := .wr _ _ _ (by simp)
  have hx : (s.timRate w.toNat).regs = (s.wr F.TIM_RATE_RATE w.toNat).regs := rfl
  rw [State.timRate] at honly hregs hx
  generalize s.wr F.TIM_RATE_RATE w.toNat = x at *
  have hu : u = { s with regs := u.regs, tim := u.tim } := by rw [honly, hwr]
  refine ⟨?_, by rw [honly], hu, (hsame.andRegs rfl).trans (hregs.mono (by simp)), by rw [hu]; exact .of_eq rfl rfl rfl rfl⟩
  rw [hregs.rd _ (by decide), State.rd_of_regs hx, hval]

/-! ## The single step (R349, R350) -/

/-- The low word held for the step, and the state with it taken. -/
theorem timStep_answers {P : State → Prop} (hmay : s.mayWrite req F.TIM_STEP_LO_STEP.hi.addr w = true)
    (hP : ∀ h u, RegsOnly (({ s with held := h } : State).timStep ((s.takeHeld req F.TIM_STEP_LO_STEP.addr 0).1 + 2 ^ 32 * w.toNat)) u →
      RegsSame [wseqOut] (({ s with held := h } : State).timStep ((s.takeHeld req F.TIM_STEP_LO_STEP.addr 0).1 + 2 ^ 32 * w.toNat)) u → P u) :
    Answers (.timStepHiWrite req w) s P := by
  refine answers_regWrite (apply := fun s => (s.takeHeld req F.TIM_STEP_LO_STEP.addr 0).2.timStep
    ((s.takeHeld req F.TIM_STEP_LO_STEP.addr 0).1 + 2 ^ 32 * w.toNat)) rfl hmay fun u honly hregs => ?_
  rw [State.takeHeld_state] at honly hregs
  exact hP _ u honly hregs

theorem step_accepted (hmay : s.mayWrite req F.TIM_STEP_LO_STEP.hi.addr w = true) (hstepped : s.tim.stepped = false)
    (hstate : s.rd F.TIM_STATUS_STATE = 0) (hpoints : s.pointsPending = false) : Answers (.timStepHiWrite req w) s fun u =>
      u.tim.stepPend = some (sx 64 ((s.takeHeld req F.TIM_STEP_LO_STEP.addr 0).1 + 2 ^ 32 * w.toNat), s.tim.nextEdge) ∧ u.tim.stepped = true ∧
      u.tim.offset = s.tim.offset ∧ u.rd F.TIM_STATUS_STATE = 1 ∧ bitOf (u.rd Ev.tim.bits) 0 = true ∧
      u = { s with regs := u.regs, hq := u.hq, sched := u.sched, held := u.held, tim := u.tim } ∧
      Quiet ([(F.TIM_STATUS_STATE).addr, wseqOut] ++ evOut Ev.tim) s u := by
  refine timStep_answers hmay fun h u honly hregs => ?_
  generalize (s.takeHeld req F.TIM_STEP_LO_STEP.addr 0).1 + 2 ^ 32 * w.toNat = v at *
  have hstep : ({ s with held := h } : State).timStep v = (({ s with held := h, tim := { s.tim with
      stepped := true, stepPend := some (sx 64 v, s.tim.nextEdge) } } : State).wr F.TIM_STATUS_STATE 1).event Ev.tim 0 := by
    rw [State.timStep, if_neg, if_neg]
    · exact fun hp => absurd (hpoints.symm.trans hp) (by decide)
    · show ¬ (s.tim.stepped || s.rd F.TIM_STATUS_STATE != 0) = true
      rw [hstepped, hstate]; decide
  rw [hstep] at honly hregs
  have hyregs : ({ s with held := h, tim := { s.tim with stepped := true, stepPend := some (sx 64 v, s.tim.nextEdge) } } : State).regs = s.regs := rfl
  generalize hy : ({ s with held := h, tim := { s.tim with stepped := true, stepPend := some (sx 64 v, s.tim.nextEdge) } } : State) = y at *
  obtain ⟨hval, hbit, hxonly, hsame, -⟩ := y.wr_event_keeps (f := F.TIM_STATUS_STATE) (r := Ev.tim) (v := 1) (i := 0)
    (by decide) (by decide) (by decide) (by decide) (by decide) rfl
  generalize (y.wr F.TIM_STATUS_STATE 1).event Ev.tim 0 = x at *
  have htim : u.tim = { s.tim with stepped := true, stepPend := some (sx 64 v, s.tim.nextEdge) } := by rw [honly, hxonly, ← hy]
  have hu : u = { s with regs := u.regs, hq := u.hq, sched := u.sched, held := u.held, tim := u.tim } := by rw [honly, hxonly, ← hy]
  refine ⟨by rw [htim], by rw [htim], by rw [htim], ?_, ?_, hu, ?_, by rw [hu]; exact .of_eq rfl rfl rfl rfl⟩
  · rw [hregs.rd _ (by decide), hval]
  · rw [hregs.rd _ (by decide), hbit]
  · exact (((RegsSame.refl _ s).andRegs hyregs).trans (hsame.mono (by simp +contextual))).trans (hregs.mono (by simp))

theorem step_refused (hmay : s.mayWrite req F.TIM_STEP_LO_STEP.hi.addr w = true) (hused : s.tim.stepped = true ∨ s.rd F.TIM_STATUS_STATE ≠ 0) :
    Answers (.timStepHiWrite req w) s fun u =>
      u.tim = s.tim ∧ u.rd F.TIM_STATUS_REFUSE = 1 ∧ u.rd F.TIM_STATUS_STATE = s.rd F.TIM_STATUS_STATE ∧ bitOf (u.rd Ev.tim.bits) 1 = true ∧
      Quiet ([(F.TIM_STATUS_STATE).addr, wseqOut] ++ evOut Ev.tim) s u := by
  refine timStep_answers hmay fun h u honly hregs => ?_
  have hstep : ∀ v, ({ s with held := h } : State).timStep v = (({ s with held := h } : State).wr F.TIM_STATUS_REFUSE 1).event Ev.tim 1 := by
    intro v
    rw [State.timStep, if_pos]
    show (s.tim.stepped || s.rd F.TIM_STATUS_STATE != 0) = true
    rcases hused with hs | hs <;> simp [hs]
  rw [hstep] at honly hregs
  have hyregs : ({ s with held := h } : State).regs = s.regs := rfl
  generalize hy : ({ s with held := h } : State) = y at *
  obtain ⟨hval, hbit, hxonly, hsame, hother⟩ := y.wr_event_keeps (f := F.TIM_STATUS_REFUSE) (r := Ev.tim) (v := 1) (i := 1)
    (by decide) (by decide) (by decide) (by decide) (by decide) rfl
  have hstate := hother F.TIM_STATUS_STATE (by simp [Fld.apart, F.TIM_STATUS_STATE, F.TIM_STATUS_REFUSE]) (by decide)
  generalize (y.wr F.TIM_STATUS_REFUSE 1).event Ev.tim 1 = x at *
  have hu : u = { s with regs := u.regs, hq := u.hq, sched := u.sched, held := u.held } := by rw [honly, hxonly, ← hy]
  refine ⟨by rw [hu], ?_, ?_, ?_, ?_, by rw [hu]; exact .of_eq rfl rfl rfl rfl⟩
  · rw [hregs.rd _ (by decide), hval]
  · rw [hregs.rd _ (by decide), hstate, State.rd_of_regs hyregs]
  · rw [hregs.rd _ (by decide), hbit]
  · exact (((RegsSame.refl _ s).andRegs hyregs).trans (hsame.mono (by
      simp +contextual [F.TIM_STATUS_STATE, F.TIM_STATUS_REFUSE]))).trans (hregs.mono (by simp))

theorem stepApply_applies {v : Int} {edge : Nat} (hpend : s.tim.stepPend = some (v, edge)) (hdue : edge ≤ s.tim.raw) :
    Answers .stepApply s fun u =>
      u.tim = { s.tim with offset := v, stepPend := none, stepAt := edge, reqT1 := none } ∧
      u.rdP F.TIM_OFFSET_LO_OFFSET = zx 64 v ∧ u.rdP F.TIM_STEP_AT_LO_COUNT = edge % 2 ^ 64 ∧ u = { s with regs := u.regs, tim := u.tim } ∧
      Quiet [(F.TIM_OFFSET_LO_OFFSET).addr, (F.TIM_OFFSET_LO_OFFSET).addr + 4, (F.TIM_STEP_AT_LO_COUNT).addr,
        (F.TIM_STEP_AT_LO_COUNT).addr + 4] s u := by
  have hexec : exec .stepApply s = .next ((({ s with tim := { s.tim with offset := v, stepPend := none, stepAt := edge, reqT1 := none } } : State).wrP
      F.TIM_OFFSET_LO_OFFSET (zx 64 v)).wrP F.TIM_STEP_AT_LO_COUNT edge) := by
    show execStepApply s = _
    rw [execStepApply, hpend]
    exact if_neg (by omega)
  have hxregs : ({ s with tim := { s.tim with offset := v, stepPend := none, stepAt := edge, reqT1 := none } } : State).regs = s.regs := rfl
  generalize hx : ({ s with tim := { s.tim with offset := v, stepPend := none, stepAt := edge, reqT1 := none } } : State) = x at *
  have hoff : (x.wrP F.TIM_OFFSET_LO_OFFSET (zx 64 v)).rdP F.TIM_OFFSET_LO_OFFSET = zx 64 v :=
    (State.rdP_wrP_mod _ _ rfl rfl).trans (Nat.mod_eq_of_lt (zx_lt 64 v))
  have hyonly := RegsOnly.wrP x F.TIM_OFFSET_LO_OFFSET (zx 64 v)
  have hyregs : RegsSame [(F.TIM_OFFSET_LO_OFFSET).addr, (F.TIM_OFFSET_LO_OFFSET).addr + 4, (F.TIM_STEP_AT_LO_COUNT).addr,
      (F.TIM_STEP_AT_LO_COUNT).addr + 4] s (x.wrP F.TIM_OFFSET_LO_OFFSET (zx 64 v)) :=
    ((RegsSame.refl _ s).andRegs hxregs).andWrP (by simp) (by simp)
  generalize x.wrP F.TIM_OFFSET_LO_OFFSET (zx 64 v) = y at *
  have hoff' : (y.wrP F.TIM_STEP_AT_LO_COUNT edge).rdP F.TIM_OFFSET_LO_OFFSET = zx 64 v :=
    (State.rdP_wrP_apart _ _ (by decide)).trans hoff
  have hat : (y.wrP F.TIM_STEP_AT_LO_COUNT edge).rdP F.TIM_STEP_AT_LO_COUNT = edge % 2 ^ 64 := State.rdP_wrP_mod _ _ rfl rfl
  have hzonly := RegsOnly.wrP y F.TIM_STEP_AT_LO_COUNT edge
  have hzregs := hyregs.andWrP (f := F.TIM_STEP_AT_LO_COUNT) (v := edge) (by simp) (by simp)
  generalize y.wrP F.TIM_STEP_AT_LO_COUNT edge = z at *
  have hz : z = { s with regs := z.regs, tim := { s.tim with offset := v, stepPend := none, stepAt := edge, reqT1 := none } } := by
    rw [hzonly, hyonly, ← hx]
  exact ⟨z, hexec, by rw [hz], hoff', hat, by rw [hz], hzregs, by rw [hz]; exact .of_eq rfl rfl rfl rfl⟩

/-! ## Holdover (R353) -/

theorem timCtrl_holds (hmay : s.mayWrite req F.TIM_CTRL_HOLDOVER.addr w = true) (hhold : w.getLsbD 0 = true)
    (hstate : s.rd F.TIM_STATUS_STATE = 1) : Answers (.timCtrlWrite req w) s fun u =>
      u.rd F.TIM_STATUS_STATE = 2 ∧ u.rd F.TIM_CTRL_HOLDOVER = 1 ∧ u.rd F.TIM_CTRL_MFL_EN = fieldOf w.toNat 1 1 ∧
      u.rd F.TIM_CTRL_AUTO_HOLD = fieldOf w.toNat 2 1 ∧ bitOf (u.rd Ev.tim.bits) 4 = true ∧ EventOnly s u ∧
      Quiet ([(F.TIM_STATUS_STATE).addr, (F.TIM_CTRL_HOLDOVER).addr, wseqOut] ++ evOut Ev.tim) s u := by
  refine answers_regWrite (apply := fun s => s.timCtrl w.toNat) rfl hmay fun u honly hregs => ?_
  have hbit0 : w.toNat % 2 = 1 := by
    rw [BitVec.getLsbD, Nat.testBit_zero, decide_eq_true_eq] at hhold; exact hhold
  have hfields : (s.wrs [(F.TIM_CTRL_HOLDOVER, w.toNat), (F.TIM_CTRL_MFL_EN, w.toNat / 2), (F.TIM_CTRL_AUTO_HOLD, w.toNat / 4)]).rd F.TIM_CTRL_HOLDOVER = 1 ∧
      (s.wrs [(F.TIM_CTRL_HOLDOVER, w.toNat), (F.TIM_CTRL_MFL_EN, w.toNat / 2), (F.TIM_CTRL_AUTO_HOLD, w.toNat / 4)]).rd F.TIM_CTRL_MFL_EN = fieldOf w.toNat 1 1 ∧
      (s.wrs [(F.TIM_CTRL_HOLDOVER, w.toNat), (F.TIM_CTRL_MFL_EN, w.toNat / 2), (F.TIM_CTRL_AUTO_HOLD, w.toNat / 4)]).rd F.TIM_CTRL_AUTO_HOLD = fieldOf w.toNat 2 1 ∧
      (s.wrs [(F.TIM_CTRL_HOLDOVER, w.toNat), (F.TIM_CTRL_MFL_EN, w.toNat / 2), (F.TIM_CTRL_AUTO_HOLD, w.toNat / 4)]).rd F.TIM_STATUS_STATE = 1 := by
    simp only [State.wrs, List.foldl_cons, List.foldl_nil]
    refine ⟨?_, ?_, ?_, ?_⟩
    · rw [State.rd_wr_apart _ _ _ _ (by decide) (by simp [Fld.apart, F.TIM_CTRL_HOLDOVER, F.TIM_CTRL_AUTO_HOLD]),
        State.rd_wr_apart _ _ _ _ (by decide) (by simp [Fld.apart, F.TIM_CTRL_HOLDOVER, F.TIM_CTRL_MFL_EN]), State.rd_wr_same _ _ _ (by decide)]
      exact hbit0
    · rw [State.rd_wr_apart _ _ _ _ (by decide) (by simp [Fld.apart, F.TIM_CTRL_MFL_EN, F.TIM_CTRL_AUTO_HOLD]), State.rd_wr_same _ _ _ (by decide)]
      rfl
    · rw [State.rd_wr_same _ _ _ (by decide)]
      rfl
    · rw [State.rd_wr_other _ _ _ _ (by decide), State.rd_wr_other _ _ _ _ (by decide), State.rd_wr_other _ _ _ _ (by decide), hstate]
  have hwrs := RegsOnly.wrs s [(F.TIM_CTRL_HOLDOVER, w.toNat), (F.TIM_CTRL_MFL_EN, w.toNat / 2), (F.TIM_CTRL_AUTO_HOLD, w.toNat / 4)]
  have hsame : RegsSame ([(F.TIM_STATUS_STATE).addr, (F.TIM_CTRL_HOLDOVER).addr, wseqOut] ++ evOut Ev.tim) s
      (s.wrs [(F.TIM_CTRL_HOLDOVER, w.toNat), (F.TIM_CTRL_MFL_EN, w.toNat / 2), (F.TIM_CTRL_AUTO_HOLD, w.toNat / 4)]) :=
    (RegsSame.refl _ s).andWrs (by simp [F.TIM_CTRL_HOLDOVER, F.TIM_CTRL_MFL_EN, F.TIM_CTRL_AUTO_HOLD])
  rw [State.timCtrl] at honly hregs
  generalize s.wrs [(F.TIM_CTRL_HOLDOVER, w.toNat), (F.TIM_CTRL_MFL_EN, w.toNat / 2), (F.TIM_CTRL_AUTO_HOLD, w.toNat / 4)] = x at *
  obtain ⟨hho, hen, hauto, hxstate⟩ := hfields
  have hholdover : x.holdover (bitOf w.toNat 0) = (x.wr F.TIM_STATUS_STATE 2).event Ev.tim 4 := by
    rw [State.holdover]
    exact if_pos ⟨hhold, hxstate⟩
  rw [hholdover] at honly hregs
  obtain ⟨hval, hbit, hyonly, hysame, -⟩ := x.wr_event_keeps (f := F.TIM_STATUS_STATE) (r := Ev.tim) (v := 2) (i := 4)
    (by decide) (by decide) (by decide) (by decide) (by decide) rfl
  generalize (x.wr F.TIM_STATUS_STATE 2).event Ev.tim 4 = y at *
  have hall : EventOnly s u := hwrs.event.trans (hyonly.trans honly.event)
  refine ⟨?_, ?_, ?_, ?_, ?_, hall, .of_event hall ?_⟩
  · rw [hregs.rd _ (by decide), hval]
  · rw [hregs.rd _ (by decide), hysame.rd _ (by decide), hho]
  · rw [hregs.rd _ (by decide), hysame.rd _ (by decide), hen]
  · rw [hregs.rd _ (by decide), hysame.rd _ (by decide), hauto]
  · rw [hregs.rd _ (by decide), hbit]
  · exact (hsame.trans (hysame.mono (by simp +contextual))).trans (hregs.mono (by simp))

/-! ## The exchange over a lane (R354, R355) -/

theorem timeRequest_sent (hen : s.on F.TIM_CTRL_MFL_EN = true) (hup : s.laneUp (fin 8 (s.rd F.TIM_MFL_CFG_LANE)) = true)
    (hdue : ∀ last, s.tim.reqSlot = some last → last + max 1 (s.rd F.TIM_MFL_CFG_PERIOD) ≤ s.tim.raw / 8) : Answers .timeRequestSend s fun u =>
      u.tim = { s.tim with reqSeq := (s.tim.reqSeq + 1) % 256, reqT1 := none, reqSlot := some (s.tim.raw / 8) } ∧
      u.links.lanes[fin 8 (s.rd F.TIM_MFL_CFG_LANE)] = { s.links.lanes[fin 8 (s.rd F.TIM_MFL_CFG_LANE)] with
        out := s.links.lanes[fin 8 (s.rd F.TIM_MFL_CFG_LANE)].out ++ [s.timeToken false ((s.tim.reqSeq + 1) % 256) 0 0] } ∧
      (∀ k, k ≠ fin 8 (s.rd F.TIM_MFL_CFG_LANE) → u.links.lanes[k] = s.links.lanes[k]) ∧
      u = { s with tim := u.tim, links := { s.links with lanes := u.links.lanes } } := by
  have hall : (s.tim.reqSlot.all fun last => decide (last + max 1 (s.rd F.TIM_MFL_CFG_PERIOD) ≤ s.tim.raw / 8)) = true := by
    cases hslot : s.tim.reqSlot with
    | none => rfl
    | some last => exact decide_eq_true (hdue last hslot)
  have hexec : exec .timeRequestSend s = .next (State.modLane { s with tim := { s.tim with
      reqSeq := (s.tim.reqSeq + 1) % 256, reqT1 := none, reqSlot := some (s.tim.raw / 8) } } (fin 8 (s.rd F.TIM_MFL_CFG_LANE))
      fun k => { k with out := k.out ++ [s.timeToken false ((s.tim.reqSeq + 1) % 256) 0 0] }) := by
    show execTimeRequestSend s = _
    rw [execTimeRequestSend]
    exact if_pos ⟨hen, hup, hall⟩
  refine ⟨_, hexec, rfl, ?_, fun k hk => ?_, rfl⟩
  · exact upd_same s.links.lanes _ _
  · exact upd_other s.links.lanes _ _ _ hk
end

section
variable {lane : Fin 8} {body : List Byte} {x : InTok} {s : State}

/-- A token that has arrived is taken off its lane. -/
theorem State.deliverIn_arrived {ty : Nat} (h : s.arrived lane ty body x) :
    s.deliverIn lane ty body = some (x, s.modLane lane fun k => { k with inbox := k.inbox.erase x }) := by
  obtain ⟨hfind, htok, hdue⟩ := h
  rw [State.deliverIn, hfind]
  exact if_pos ⟨htok, hdue⟩

theorem State.deliverIn_none {ty : Nat} (h : ∀ x ∈ s.links.lanes[lane].inbox, x.tok % 16 ≠ ty) : s.deliverIn lane ty body = none := by
  have hfind : (s.links.lanes[lane].inbox.find? fun x => x.tok % 16 == ty) = none :=
    List.find?_eq_none.mpr fun x hx => by simpa using h x hx
  rw [State.deliverIn, hfind]

theorem timeRequest_received (h : s.arrived lane 5 body x) (hreq : bitOf x.tok 7 = false) : Answers (.timeRequestReceive lane body) s fun u =>
      u.links.lanes[lane] = { s.links.lanes[lane] with
        inbox := s.links.lanes[lane].inbox.erase x
        out := s.links.lanes[lane].out ++ [s.timeToken true (fieldOf x.tok 8 8) (s.shared48 x.at_) 0] } ∧
      LanesOnly [lane] s u := by
  have hexec : exec (.timeRequestReceive lane body) s = .next ((s.modLane lane fun k => { k with inbox := k.inbox.erase x }).modLane lane
      fun k => { k with out := k.out ++ [s.timeToken true (fieldOf x.tok 8 8) (s.shared48 x.at_) 0] }) := by
    show execTimeRequestReceive lane body s = _
    rw [execTimeRequestReceive, State.deliverIn_arrived h]
    exact if_neg (by rw [hreq]; decide)
  refine ⟨_, hexec, ?_, (LanesOnly.modLane ..).trans (LanesOnly.modLane ..)⟩
  refine (upd_same (upd s.links.lanes lane fun k => { k with inbox := k.inbox.erase x }) lane _).trans ?_
  rw [show _ = _ from upd_same s.links.lanes lane fun k => { k with inbox := k.inbox.erase x }]

theorem timeReply_dropped (h : s.arrived lane 5 body x) (hreply : bitOf x.tok 7 = true)
    (hold : s.tim.reqT1 = none ∨ fieldOf x.tok 8 8 ≠ s.tim.reqSeq) : Answers (.timeReplyReceive lane body) s fun u =>
      u.links.lanes[lane] = { s.links.lanes[lane] with inbox := s.links.lanes[lane].inbox.erase x } ∧ LanesOnly [lane] s u := by
  have hexec : exec (.timeReplyReceive lane body) s = .next (s.modLane lane fun k => { k with inbox := k.inbox.erase x }) := by
    show execTimeReplyReceive lane body s = _
    rw [execTimeReplyReceive, State.deliverIn_arrived h]
    dsimp only
    rw [if_neg (by rw [hreply]; decide)]
    cases ht1 : s.tim.reqT1 with
    | none => rfl
    | some t1 => exact if_neg fun hmatch => hold.elim (fun hn => by simp [ht1] at hn) fun hne => hne hmatch.1
  exact ⟨_, hexec, upd_same s.links.lanes _ _, .modLane ..⟩

end

/-- The result registers of an average that has completed, and its event (R355). -/
def State.showExchange (s : State) (ofs dly tok : Nat) : State :=
  ((s.wrP F.TIM_MFL_OFS_LO_OFFSET ofs).wrs [(F.TIM_MFL_DLY_DELAY, dly), (F.TIM_MFL_STAT_PEER_SYNCED, tok / 2 ^ 16),
    (F.TIM_MFL_STAT_PEER_HOLD, tok / 2 ^ 17), (F.TIM_MFL_STAT_PEER_DEPTH, tok / 2 ^ 18)]).event Ev.tim 3

/-- What an exchange changes of the registers. -/
def exchangeOut : List Nat := [(F.TIM_MFL_STAT_COUNT).addr, (F.TIM_MFL_DLY_DELAY).addr, (F.TIM_MFL_OFS_LO_OFFSET).addr,
  (F.TIM_MFL_OFS_LO_OFFSET).addr + 4] ++ evOut Ev.tim

theorem State.showExchange_keeps (s : State) {ofs dly tok : Nat} (hdly : dly < 2 ^ 32) {u : State} (hu : s.showExchange ofs dly tok = u) :
    u.rd F.TIM_MFL_DLY_DELAY = dly ∧ u.rd F.TIM_MFL_STAT_COUNT = s.rd F.TIM_MFL_STAT_COUNT ∧ bitOf (u.rd Ev.tim.bits) 3 = true ∧
    EventOnly s u ∧ RegsSame exchangeOut s u := by
  have hxcount : (s.wrP F.TIM_MFL_OFS_LO_OFFSET ofs).rd F.TIM_MFL_STAT_COUNT = s.rd F.TIM_MFL_STAT_COUNT :=
    State.rd_wrP_apart _ _ (by decide) (by decide)
  have hxonly := RegsOnly.wrP s F.TIM_MFL_OFS_LO_OFFSET ofs
  have hxregs : RegsSame exchangeOut s (s.wrP F.TIM_MFL_OFS_LO_OFFSET ofs) := (RegsSame.refl _ s).andWrP (by decide) (by decide)
  rw [State.showExchange] at hu
  generalize s.wrP F.TIM_MFL_OFS_LO_OFFSET ofs = x at *
  have hyonly := RegsOnly.wrs x [(F.TIM_MFL_DLY_DELAY, dly), (F.TIM_MFL_STAT_PEER_SYNCED, tok / 2 ^ 16), (F.TIM_MFL_STAT_PEER_HOLD, tok / 2 ^ 17),
    (F.TIM_MFL_STAT_PEER_DEPTH, tok / 2 ^ 18)]
  have hyregs := hxregs.andWrs (l := [(F.TIM_MFL_DLY_DELAY, dly), (F.TIM_MFL_STAT_PEER_SYNCED, tok / 2 ^ 16), (F.TIM_MFL_STAT_PEER_HOLD, tok / 2 ^ 17),
    (F.TIM_MFL_STAT_PEER_DEPTH, tok / 2 ^ 18)]) (by simp [exchangeOut, F.TIM_MFL_DLY_DELAY, F.TIM_MFL_STAT_PEER_SYNCED, F.TIM_MFL_STAT_PEER_HOLD,
      F.TIM_MFL_STAT_PEER_DEPTH, F.TIM_MFL_STAT_COUNT])
  have hread : (x.wrs [(F.TIM_MFL_DLY_DELAY, dly), (F.TIM_MFL_STAT_PEER_SYNCED, tok / 2 ^ 16), (F.TIM_MFL_STAT_PEER_HOLD, tok / 2 ^ 17),
        (F.TIM_MFL_STAT_PEER_DEPTH, tok / 2 ^ 18)]).rd F.TIM_MFL_DLY_DELAY = dly ∧
      (x.wrs [(F.TIM_MFL_DLY_DELAY, dly), (F.TIM_MFL_STAT_PEER_SYNCED, tok / 2 ^ 16), (F.TIM_MFL_STAT_PEER_HOLD, tok / 2 ^ 17),
        (F.TIM_MFL_STAT_PEER_DEPTH, tok / 2 ^ 18)]).rd F.TIM_MFL_STAT_COUNT = x.rd F.TIM_MFL_STAT_COUNT := by
    simp only [State.wrs, List.foldl_cons, List.foldl_nil]
    constructor
    · rw [State.rd_wr_other _ _ _ _ (by decide), State.rd_wr_other _ _ _ _ (by decide), State.rd_wr_other _ _ _ _ (by decide),
        State.rd_wr_fit _ _ _ (by decide) hdly]
    · rw [State.rd_wr_apart _ _ _ _ (by decide) (by simp [Fld.apart, F.TIM_MFL_STAT_COUNT, F.TIM_MFL_STAT_PEER_DEPTH]),
        State.rd_wr_apart _ _ _ _ (by decide) (by simp [Fld.apart, F.TIM_MFL_STAT_COUNT, F.TIM_MFL_STAT_PEER_HOLD]),
        State.rd_wr_apart _ _ _ _ (by decide) (by simp [Fld.apart, F.TIM_MFL_STAT_COUNT, F.TIM_MFL_STAT_PEER_SYNCED]),
        State.rd_wr_other _ _ _ _ (by decide)]
  generalize x.wrs [(F.TIM_MFL_DLY_DELAY, dly), (F.TIM_MFL_STAT_PEER_SYNCED, tok / 2 ^ 16), (F.TIM_MFL_STAT_PEER_HOLD, tok / 2 ^ 17),
    (F.TIM_MFL_STAT_PEER_DEPTH, tok / 2 ^ 18)] = y at *
  obtain ⟨hdelay, hcount⟩ := hread
  have hev : RegsSame (evOut Ev.tim) y u := hu ▸ State.event_regs y Ev.tim 3
  have hevOnly : EventOnly y u := hu ▸ State.event_event y Ev.tim 3
  exact ⟨(hev.rd _ (by decide)).trans hdelay, (hev.rd _ (by decide)).trans (hcount.trans hxcount),
    hu ▸ State.event_bit y _ (by decide) (by decide), (hxonly.trans hyonly).event.trans hevOnly,
    hyregs.trans (hev.mono fun _ h => List.mem_append_right _ h)⟩

/-- The state of the exchange once its result is in and the sums begin anew. -/
def State.summed (s : State) : State :=
  { State.incWrap { s with tim := { s.tim with reqT1 := none } } F.TIM_MFL_STAT_COUNT with
    tim := { s.tim with reqT1 := none, sumOfs := 0, sumDly := 0, results := 0 } }

/-- The first result of an average of one completes it (R355). -/
theorem State.takeExchange_first {s : State} {dly ofs : Int} {tok : Nat} (havg : s.rd F.TIM_MFL_CFG_AVG = 0) (hsum : s.tim.sumDly = 0)
    (hres : s.tim.results = 0) : s.takeExchange dly ofs tok = s.summed.showExchange (zx 64 ((s.tim.sumOfs + ofs) / 2)) (zx 32 dly) tok := by
  rw [State.takeExchange]
  dsimp only
  rw [havg, hsum, hres, if_pos (by decide), Int.zero_add, State.showExchange]
  congr 3
  simp

section
variable {lane : Fin 8} {body : List Byte} {x : InTok} {s : State}

theorem EventOnly.andLinksTim {s y u : State} {l : Links} {t : Tim} (honly : EventOnly y u) (hy : y = { s with regs := y.regs, links := l, tim := t }) :
    u = { s with regs := u.regs, hq := u.hq, sched := u.sched, links := l, tim := t } := by rw [honly, hy]

theorem timeReply_completes {t1 : Nat} (h : s.arrived lane 5 body x) (hreply : bitOf x.tok 7 = true) (ht1 : s.tim.reqT1 = some t1)
    (hseq : fieldOf x.tok 8 8 = s.tim.reqSeq) (hup : s.laneUp lane = true) (havg : s.rd F.TIM_MFL_CFG_AVG = 0) (hsum : s.tim.sumDly = 0)
    (hres : s.tim.results = 0) (hauto : s.on F.TIM_CTRL_AUTO_HOLD = false) : Answers (.timeReplyReceive lane body) s fun u =>
      u.rd F.TIM_MFL_DLY_DELAY = zx 32 (2048 * (sx 48 (zx 48 ((s.shared48 x.at_ : Int) - t1)) - fieldOf x.tok 72 24)) ∧
      u.tim.reqT1 = none ∧ u.tim.results = 0 ∧ u.rd F.TIM_MFL_STAT_COUNT = (s.rd F.TIM_MFL_STAT_COUNT + 1) % 2 ^ 16 ∧
      bitOf (u.rd Ev.tim.bits) 3 = true ∧ u.links.lanes[lane].inbox = s.links.lanes[lane].inbox.erase x ∧
      u = { s with regs := u.regs, hq := u.hq, sched := u.sched, tim := u.tim, links := { s.links with lanes := u.links.lanes } } ∧
      Quiet ([(F.TIM_MFL_STAT_COUNT).addr, (F.TIM_MFL_DLY_DELAY).addr, (F.TIM_MFL_OFS_LO_OFFSET).addr,
        (F.TIM_MFL_OFS_LO_OFFSET).addr + 4] ++ evOut Ev.tim) s u := by
  have hfound := State.deliverIn_arrived h
  have hlane : (s.modLane lane fun k => { k with inbox := k.inbox.erase x }).links.lanes[lane].inbox = s.links.lanes[lane].inbox.erase x :=
    congrArg Lane.inbox (upd_same s.links.lanes lane _)
  have hlanes : s.modLane lane (fun k => { k with inbox := k.inbox.erase x }) = { s with links := { s.links with
      lanes := (s.modLane lane fun k => { k with inbox := k.inbox.erase x }).links.lanes } } := rfl
  have hregs : (s.modLane lane fun k => { k with inbox := k.inbox.erase x }).regs = s.regs := rfl
  generalize (s.modLane lane fun k => { k with inbox := k.inbox.erase x }) = v at *
  have htim : v.tim = s.tim := by rw [hlanes]
  have hdly : (s.exchangeOf t1 (s.shared48 x.at_) x.tok).1 = 2048 * (sx 48 (zx 48 ((s.shared48 x.at_ : Int) - t1)) - fieldOf x.tok 72 24) := rfl
  have hexec : exec (.timeReplyReceive lane body) s = .next
      (let u := v.takeExchange (s.exchangeOf t1 (s.shared48 x.at_) x.tok).1 (s.exchangeOf t1 (s.shared48 x.at_) x.tok).2 x.tok
       if u.on F.TIM_CTRL_AUTO_HOLD ∧ u.rd F.TIM_MFL_CFG_LANE = lane.1 then u.holdover false else u) := by
    show execTimeReplyReceive lane body s = _
    rw [execTimeReplyReceive, hfound]
    dsimp only
    rw [if_neg (by rw [hreply]; decide), ht1]
    exact if_pos ⟨hseq, hup⟩
  rw [State.takeExchange_first ((State.rd_of_regs hregs _).trans havg) (htim ▸ hsum) (htim ▸ hres)] at hexec
  rw [hdly] at hexec
  generalize 2048 * (sx 48 (zx 48 ((s.shared48 x.at_ : Int) - t1)) - fieldOf x.tok 72 24) = dly at *
  have hcount : v.summed.rd F.TIM_MFL_STAT_COUNT = (v.rd F.TIM_MFL_STAT_COUNT + 1) % 2 ^ 16 := State.rd_wr_same { v with tim := { v.tim with reqT1 := none } } F.TIM_MFL_STAT_COUNT _ (by decide)
  have hsummed : v.summed = { v with regs := v.summed.regs, tim := { v.tim with reqT1 := none, sumOfs := 0, sumDly := 0, results := 0 } } := rfl
  have hsumRegs : RegsSame exchangeOut v v.summed :=
    (RegsSame.wr { v with tim := { v.tim with reqT1 := none } } F.TIM_MFL_STAT_COUNT _ (by decide)).andRegs rfl
  generalize v.summed = y at *
  obtain ⟨hdelay, hcnt, hbit, honly, hout⟩ := y.showExchange_keeps (tok := x.tok)
    (ofs := zx 64 ((v.tim.sumOfs + (s.exchangeOf t1 (s.shared48 x.at_) x.tok).2) / 2)) (zx_lt 32 dly) rfl
  generalize y.showExchange (zx 64 ((v.tim.sumOfs + (s.exchangeOf t1 (s.shared48 x.at_) x.tok).2) / 2)) (zx 32 dly) x.tok = u at *
  have hall := ((RegsSame.refl exchangeOut s).andRegs hregs).trans (hsumRegs.trans hout)
  have hoff : u.on F.TIM_CTRL_AUTO_HOLD = false := by
    rw [State.on, hall.rd _ (by decide)]; exact hauto
  dsimp only at hexec
  rw [if_neg (by rw [hoff]; simp)] at hexec
  have hy : y = { s with regs := y.regs, links := v.links, tim := { s.tim with reqT1 := none, sumOfs := 0, sumDly := 0, results := 0 } } := by
    rw [hsummed, htim, hlanes]
  have hlinks : v.links = { s.links with lanes := v.links.lanes } := by rw [hlanes]
  have hu : u = { s with regs := u.regs, hq := u.hq, sched := u.sched, links := v.links
                         tim := { s.tim with reqT1 := none, sumOfs := 0, sumDly := 0, results := 0 } } := by
    exact honly.andLinksTim hy
  have hutim : u.tim = { s.tim with reqT1 := none, sumOfs := 0, sumDly := 0, results := 0 } := congrArg State.tim hu
  obtain ⟨hreq, hresults⟩ := (show ∀ t : Tim, u.tim = { t with reqT1 := none, sumOfs := 0, sumDly := 0, results := 0 } →
    u.tim.reqT1 = none ∧ u.tim.results = 0 from fun t ht => by rw [ht]; exact ⟨rfl, rfl⟩) s.tim hutim
  refine ⟨u, hexec, hdelay, hreq, hresults, ?_, hbit, by rw [hu]; exact hlane, ?_, hall, by rw [hu]; exact .of_eq rfl rfl rfl rfl⟩
  · rw [hcnt, hcount, State.rd_of_regs hregs]
  · rw [congrArg State.links hu, hutim, ← hlinks]
    exact hu
end

end Sys2Proof.Machine

open Sys2Proof Sys2Proof.Machine

/-- Settles O37: the writes that wait, the edges that apply them, and the tokens of the exchange. -/
theorem sharedTime : Obligations.SharedTime := by
  refine ⟨fun req w s => timRate_waits, fun r edge s => rateApply_applies, fun r edge s hpend hwait => ?_, fun s hpend => ?_,
    fun req w s => step_accepted, fun req w s => step_refused, fun v edge s => stepApply_applies, fun v edge s hpend hwait => ?_, fun s hpend => ?_,
    fun req w s => timCtrl_holds, fun s => timeRequest_sent, fun s hoff => ?_, fun last s hslot hwait => ?_, fun lane body x s => timeRequest_received,
    fun lane body s hnone => ?_, fun lane body x s => timeReply_dropped, fun lane body x t1 s => timeReply_completes⟩
  · show execRateApply s = _
    rw [execRateApply, hpend]; exact if_pos hwait
  · show execRateApply s = _
    rw [execRateApply, hpend]
  · show execStepApply s = _
    rw [execStepApply, hpend]; exact if_pos hwait
  · show execStepApply s = _
    rw [execStepApply, hpend]
  · show execTimeRequestSend s = _
    rw [execTimeRequestSend]; exact if_neg (by rw [hoff]; simp)
  · show execTimeRequestSend s = _
    rw [execTimeRequestSend]
    exact if_neg fun hsend => by rw [hslot] at hsend; exact absurd (of_decide_eq_true hsend.2.2) (by omega)
  · refine ⟨(?_ : execTimeRequestReceive lane body s = _), (?_ : execTimeReplyReceive lane body s = _)⟩
    · rw [execTimeRequestReceive, State.deliverIn_none hnone]
    · rw [execTimeReplyReceive, State.deliverIn_none hnone]
end

section
/-! O39 (loss and return of REFCLK, CLKOUT), R382 to R391. -/

set_option Elab.async false

namespace Sys2Proof.Machine

/-! ## What is left when a fold goes through the lanes, the cores or the groves -/

/-- A relation that composes holds between the ends of a fold when it holds of each step. -/
theorem foldl_rel {α β : Type} {R : β → β → Prop} (hrefl : ∀ b, R b b) (htrans : ∀ {a b c}, R a b → R b c → R a c) {f : β → α → β}
    (hstep : ∀ b a, R b (f b a)) (l : List α) (b : β) : R b (l.foldl f b) := by
  induction l generalizing b with
  | nil => exact hrefl b
  | cons a l ih => exact htrans (hstep b a) (ih _)

/-- Registers of the blocks MFL and STR and the state of the lanes at most differ. -/
def LinkOnly (s t : State) : Prop :=
  t = { s with regs := t.regs, links := t.links } ∧ ∀ b a, b ≠ .mfl → b ≠ .str → t.word b a = s.word b a

theorem LinkOnly.refl (s : State) : LinkOnly s s := ⟨rfl, fun _ _ _ _ => rfl⟩

theorem LinkOnly.trans {s t u : State} (h : LinkOnly s t) (k : LinkOnly t u) : LinkOnly s u :=
  ⟨by rw [k.1, h.1], fun b a hm hs => (k.2 b a hm hs).trans (h.2 b a hm hs)⟩

theorem LinkOnly.foldl {α : Type} {f : State → α → State} (h : ∀ s a, LinkOnly s (f s a)) (l : List α) (s : State) : LinkOnly s (l.foldl f s) :=
  foldl_rel .refl .trans h l s

theorem LinkOnly.wr (s : State) {f : Fld} (hf : f.blk = .mfl ∨ f.blk = .str) (v : Nat) : LinkOnly s (s.wr f v) :=
  ⟨rfl, fun b a hm hs => State.word_wr s f v b a (.inr fun e => hf.elim (fun h => hm (e.trans h)) fun h => hs (e.trans h))⟩

theorem LinkOnly.wrs (s : State) {l : List (Fld × Nat)} (hl : ∀ p ∈ l, p.1.blk = .mfl ∨ p.1.blk = .str) : LinkOnly s (s.wrs l) := by
  induction l generalizing s with
  | nil => exact .refl s
  | cons p r ih => exact (LinkOnly.wr s (hl p List.mem_cons_self) p.2).trans (ih _ fun x hx => hl x (List.mem_cons_of_mem _ hx))

theorem LinkOnly.links (s : State) (l : Links) : LinkOnly s { s with links := l } := ⟨rfl, fun _ _ _ _ => rfl⟩

theorem LinkOnly.modLane (s : State) (n : Fin 8) (f : Lane → Lane) : LinkOnly s (s.modLane n f) := .links s _

theorem LinkOnly.queueToken (s : State) (n : Fin 8) (tok copies : Nat) : LinkOnly s (s.queueToken n tok copies) := .modLane ..

theorem LinkOnly.sendDescs (s : State) (n : Fin 8) : LinkOnly s (s.sendDescs n) :=
  (LinkOnly.modLane s n _).trans ((LinkOnly.links _ _).trans (.foldl (fun s _ => .queueToken s ..) ..))

theorem LinkOnly.setLanes (s : State) (n : Fin 8) (st : Nat) : LinkOnly s (s.setLanes n st) :=
  (LinkOnly.foldl (fun s _ => .wr s (.inl rfl) _) ..).trans (.wrs _ (by simp [F.MFL_STATUS_UP, F.MFL_STATUS_TRAINING]))

theorem LinkOnly.noteAgreed (s : State) : LinkOnly s s.noteAgreed :=
  (LinkOnly.foldl (fun s _ => .wr s (.inr rfl) _) ..).trans (.wr _ (.inr rfl) _)

theorem LinkOnly.train (s : State) (n : Fin 8) : LinkOnly s (s.train n) := by
  refine LinkOnly.trans (LinkOnly.foldl (fun x k => ?_) _ _) (LinkOnly.trans (LinkOnly.modLane ..) ((LinkOnly.setLanes ..).trans (LinkOnly.noteAgreed _)))
  exact (LinkOnly.links x _).trans ((LinkOnly.modLane ..).trans ((LinkOnly.queueToken ..).trans ((LinkOnly.sendDescs ..).trans
    (.wrs _ (by simp [F.MFL_LANE_STAT_TOO_FAR, F.MFL_LANE_STAT_PLESIO])))))

theorem LinkOnly.bringUp (s : State) (n : Fin 8) : LinkOnly s (s.bringUp n) := (LinkOnly.modLane ..).trans (.train ..)

theorem LinkOnly.startLanes (s : State) : LinkOnly s s.startLanes := by
  rw [State.startLanes]
  split
  · exact .refl s
  · refine .foldl (fun x n => ?_) _ _
    dsimp only
    split
    · exact .bringUp ..
    · exact .refl x

theorem LinkOnly.rd {s t : State} (h : LinkOnly s t) {f : Fld} (hm : f.blk ≠ .mfl) (hs : f.blk ≠ .str) : t.rd f = s.rd f :=
  State.rd_of_word f (h.2 _ _ hm hs)

/-! ## Every core interrupted (R302) -/

/-- The cause registers of the non-maskable interrupts. -/
def nmiOut : List Nat := (allFin 8).map fun c : Fin 8 => (F.SCH_NMI_CAUSE_CAUSE c).addr

theorem State.nmi_keeps (s : State) (c : Fin 8) {bit : Nat} (hbit : bit < 5) {u : State} (hu : s.nmi c bit = u) :
    u = { s with regs := u.regs, sched := u.sched } ∧ RegsSame nmiOut s u ∧ bitOf (u.rd (F.SCH_NMI_CAUSE_CAUSE c)) bit = true ∧
    ∀ k : Fin 8, bitOf (s.rd (F.SCH_NMI_CAUSE_CAUSE k)) bit = true → bitOf (u.rd (F.SCH_NMI_CAUSE_CAUSE k)) bit = true := by
  have hmem : (F.SCH_NMI_CAUSE_CAUSE c).addr ∈ nmiOut := List.mem_map_of_mem (List.mem_finRange c)
  have hset : bitOf ((s.wr (F.SCH_NMI_CAUSE_CAUSE c) (s.rd (F.SCH_NMI_CAUSE_CAUSE c) ||| 2 ^ bit)).rd (F.SCH_NMI_CAUSE_CAUSE c)) bit = true := by
    rw [State.rd_wr_same _ _ _ (by simp [F.SCH_NMI_CAUSE_CAUSE]), show (F.SCH_NMI_CAUSE_CAUSE c).width = 5 from rfl]
    simp only [Nat.testBit_mod_two_pow, Nat.testBit_or, Nat.testBit_two_pow_self, Bool.or_true, Bool.and_true, hbit, decide_true]
  have hkeep : ∀ k : Fin 8, k ≠ c → (s.wr (F.SCH_NMI_CAUSE_CAUSE c) (s.rd (F.SCH_NMI_CAUSE_CAUSE c) ||| 2 ^ bit)).rd (F.SCH_NMI_CAUSE_CAUSE k) =
      s.rd (F.SCH_NMI_CAUSE_CAUSE k) := fun k hk => by
    refine State.rd_wr_other _ _ _ _ (.inl ?_)
    have hne := fun e => hk (Fin.ext e)
    simp only [F.SCH_NMI_CAUSE_CAUSE]; omega
  have honly := RegsOnly.wr s (F.SCH_NMI_CAUSE_CAUSE c) (s.rd (F.SCH_NMI_CAUSE_CAUSE c) ||| 2 ^ bit)
  have hregs : RegsSame nmiOut s (s.wr (F.SCH_NMI_CAUSE_CAUSE c) (s.rd (F.SCH_NMI_CAUSE_CAUSE c) ||| 2 ^ bit)) := .wr _ _ _ hmem
  rw [State.nmi] at hu
  generalize s.wr (F.SCH_NMI_CAUSE_CAUSE c) (s.rd (F.SCH_NMI_CAUSE_CAUSE c) ||| 2 ^ bit) = x at *
  have hux : u = { x with sched := u.sched } ∧ u.regs = x.regs := by
    split at hu <;> rw [← hu] <;> exact ⟨rfl, rfl⟩
  obtain ⟨hsched, huregs⟩ := hux
  refine ⟨by rw [hsched, honly], hregs.andRegs huregs, by rw [State.rd_of_regs huregs, hset], fun k hk => ?_⟩
  rw [State.rd_of_regs huregs]
  by_cases hkc : k = c
  · rw [hkc, hset]
  · rw [hkeep k hkc, hk]

theorem State.nmiAll_keeps (s : State) {bit : Nat} (hbit : bit < 5) {u : State} (hu : s.nmiAll bit = u) :
    u = { s with regs := u.regs, sched := u.sched } ∧ RegsSame nmiOut s u ∧ ∀ k : Fin 8, bitOf (u.rd (F.SCH_NMI_CAUSE_CAUSE k)) bit = true := by
  have hfold : ∀ (l : List (Fin 8)) (s u : State), l.foldl (fun s c => s.nmi c bit) s = u →
      u = { s with regs := u.regs, sched := u.sched } ∧ RegsSame nmiOut s u ∧ (∀ k ∈ l, bitOf (u.rd (F.SCH_NMI_CAUSE_CAUSE k)) bit = true) ∧
      ∀ k : Fin 8, bitOf (s.rd (F.SCH_NMI_CAUSE_CAUSE k)) bit = true → bitOf (u.rd (F.SCH_NMI_CAUSE_CAUSE k)) bit = true := by
    intro l
    induction l with
    | nil => rintro s u rfl; exact ⟨rfl, .refl _ _, fun k hk => absurd hk List.not_mem_nil, fun k hk => hk⟩
    | cons c l ih =>
      intro s u hu
      rw [List.foldl_cons] at hu
      obtain ⟨honly, hregs, hset, hkeep⟩ := s.nmi_keeps c hbit rfl
      obtain ⟨honly', hregs', hset', hkeep'⟩ := ih _ _ hu
      generalize s.nmi c bit = x at *
      refine ⟨by rw [honly', honly], hregs.trans hregs', fun k hk => ?_, fun k hk => hkeep' k (hkeep k hk)⟩
      rcases List.mem_cons.mp hk with rfl | hk
      · exact hkeep' _ hset
      · exact hset' k hk
  obtain ⟨honly, hregs, hset, -⟩ := hfold _ s u hu
  exact ⟨honly, hregs, fun k => hset k (List.mem_finRange k)⟩

/-! ## A source that asserts and releases (R420, R421) -/

theorem State.dualOff_keeps (s : State) (i : Nat) {u : State} (hu : s.dualOff i = u) : u = { s with regs := u.regs, flt := u.flt } ∧
    u.flt.active.contains i = false ∧ RegsSame [(F.FLT_ACTIVE_ACTIVE (i / 32)).addr] s u := by
  have honly : RegsOnly s (s.setBit F.FLT_ACTIVE_ACTIVE i false) := .wr ..
  have hregs : RegsSame [(F.FLT_ACTIVE_ACTIVE (i / 32)).addr] s (s.setBit F.FLT_ACTIVE_ACTIVE i false) := .wr _ _ _ (by simp)
  rw [State.dualOff] at hu
  generalize s.setBit F.FLT_ACTIVE_ACTIVE i false = x at *
  have huonly : u = { x with flt := u.flt } := by rw [← hu]
  have hact : u.flt.active = s.flt.active.filter (· ≠ i) := by rw [← hu]
  exact ⟨by rw [huonly, honly], by rw [hact]; simp, hregs.andRegs (by rw [← hu])⟩

/-- What a dual source changes that begins to assert and whose class is RECORD or NOTIFY. -/
theorem State.dualOn_keeps (s : State) {i : Nat} (hi : i < 96) (hcls : s.classOf i < 2) {u : State} (hu : s.dualOn i false false = u) :
    FaultOnly s u ∧ u.latched i = true ∧ u.flt.active.contains i = true ∧ RegsSame ((F.FLT_ACTIVE_ACTIVE (i / 32)).addr :: faultOut i) s u := by
  have honly : RegsOnly s (s.setBit F.FLT_ACTIVE_ACTIVE i true) := .wr ..
  have hregs : RegsSame [(F.FLT_ACTIVE_ACTIVE (i / 32)).addr] s (s.setBit F.FLT_ACTIVE_ACTIVE i true) := .wr _ _ _ (by simp)
  rw [State.dualOn] at hu
  generalize s.setBit F.FLT_ACTIVE_ACTIVE i true = x at *
  have hxcls : x.classOf i < 2 := by
    rw [hregs.classOf (by simp only [F.FLT_CLASS_CLASS, F.FLT_ACTIVE_ACTIVE, List.mem_singleton]; omega)]; exact hcls
  rw [State.fault_noted hxcls] at hu
  obtain ⟨hfault, hfregs, hlatched, -, -⟩ := State.latchFault_keeps x hi (occurrenceBits (x.classOf i) (x.latched i) false) false rfl
  generalize x.latchFault i (occurrenceBits (x.classOf i) (x.latched i) false) false = y at *
  have huonly : u = { y with flt := u.flt } := by rw [← hu]
  have huregs : u.regs = y.regs := by rw [← hu]
  have hact : u.flt.active.contains i = true := by rw [← hu]; simp
  refine ⟨?_, ?_, hact, ((hregs.mono (by simp)).trans (hfregs.mono fun _ h => List.mem_cons_of_mem _ h)).andRegs huregs⟩
  · rw [huonly, hfault, honly]; rfl
  · rw [State.latched, State.rd_of_regs huregs]; exact hlatched

/-! ## The instant of a loss (R383, R384) -/

/-- Nothing but the threads and the groves differs. -/
def GrovesOnly (s t : State) : Prop := t = { s with threads := t.threads, groves := t.groves }

theorem GrovesOnly.refl (s : State) : GrovesOnly s s := rfl

theorem GrovesOnly.trans {s t u : State} (h : GrovesOnly s t) (k : GrovesOnly t u) : GrovesOnly s u := by
  unfold GrovesOnly at *; rw [k, h]

theorem GrovesOnly.foldl {α : Type} {f : State → α → State} (h : ∀ s a, GrovesOnly s (f s a)) (l : List α) (s : State) : GrovesOnly s (l.foldl f s) :=
  foldl_rel .refl .trans h l s

/-- Nothing but the threads differs. -/
def ThreadsOnly (s t : State) : Prop := t = { s with threads := t.threads }

theorem State.unrefNow_keeps (s : State) : ThreadsOnly s s.unrefNow := by
  refine foldl_rel (R := ThreadsOnly) (fun _ => rfl) (fun h k => ?_) (fun x t => ?_) _ s
  · unfold ThreadsOnly at *; rw [k, h]
  · rfl

theorem State.unrefWindow_keeps (s : State) : GrovesOnly s s.unrefWindow := by
  refine .foldl (fun x g => ?_) _ s
  dsimp only
  split
  · rfl
  · split <;> rfl

/-- The registers that the freeze of the master writes. -/
def freezeOut : List Nat :=
  [(F.CLK_LOSS_AT_LO_TIME).addr, (F.CLK_LOSS_AT_LO_TIME).addr + 4, (F.TMG_STATUS_UNREF).addr, (F.TMU_GSTATUS_CAL_RUN).addr]

theorem State.freeze_keeps (s : State) {u : State} (hu : s.freeze = u) :
    u.clk = { s.clk with frozen := true } ∧ u.rd F.TMG_STATUS_UNREF = 1 ∧ u.rdP F.CLK_LOSS_AT_LO_TIME = s.now ∧ u.acq.calRun = 0 ∧
    u = { s with regs := u.regs, clk := u.clk, cal := { s.cal with run := u.cal.run }, acq := { s.acq with calDue := u.acq.calDue, calRun := 0 } } ∧
    RegsSame freezeOut s u := by
  rw [State.freeze] at hu
  dsimp only at hu
  generalize hx : ({ s with
    clk := { s.clk with frozen := true }
    cal := { s.cal with run := s.cal.run.map fun r : CalRun => if fieldOf r.groups 4 3 = 0 then r else { r with lost := true } }
    acq := { s.acq with calDue := s.acq.calDue ||| s.acq.calRun, calRun := 0 } } : State) = x at *
  have hxregs : x.regs = s.regs := by rw [← hx]
  have hxnow : x.now = s.now := by rw [← hx]; rfl
  have hxonly : x = { s with clk := { s.clk with frozen := true }, cal := { s.cal with run := x.cal.run }
                             acq := { s.acq with calDue := x.acq.calDue, calRun := 0 } } := by rw [← hx]
  clear hx
  rw [hxnow] at hu
  have hat : (x.wrP F.CLK_LOSS_AT_LO_TIME s.now).rdP F.CLK_LOSS_AT_LO_TIME = s.now :=
    (State.rdP_wrP_mod _ _ rfl rfl).trans (Nat.mod_eq_of_lt (zx_lt 64 _))
  have hyonly := RegsOnly.wrP x F.CLK_LOSS_AT_LO_TIME s.now
  have hyregs : RegsSame freezeOut s (x.wrP F.CLK_LOSS_AT_LO_TIME s.now) := ((RegsSame.refl _ s).andRegs hxregs).andWrP (by decide) (by decide)
  generalize x.wrP F.CLK_LOSS_AT_LO_TIME s.now = y at *
  have hunref : (y.wrs [(F.TMG_STATUS_UNREF, 1), (F.TMU_GSTATUS_CAL_RUN, 0)]).rd F.TMG_STATUS_UNREF = 1 := by
    simp only [State.wrs, List.foldl_cons, List.foldl_nil]
    rw [State.rd_wr_other _ _ _ _ (by decide), State.rd_wr_fit _ _ _ (by decide) (by decide)]
  have hzonly := RegsOnly.wrs y [(F.TMG_STATUS_UNREF, 1), (F.TMU_GSTATUS_CAL_RUN, 0)]
  have hzsame : RegsSame [(F.TMG_STATUS_UNREF).addr, (F.TMU_GSTATUS_CAL_RUN).addr] y (y.wrs [(F.TMG_STATUS_UNREF, 1), (F.TMU_GSTATUS_CAL_RUN, 0)]) :=
    .wrs _ _ (by decide)
  generalize y.wrs [(F.TMG_STATUS_UNREF, 1), (F.TMU_GSTATUS_CAL_RUN, 0)] = z at *
  rw [← hu]
  refine ⟨by rw [hzonly, hyonly, hxonly], hunref, by rw [hzsame.rdP _ (by decide) (by decide), hat], by rw [hzonly, hyonly, hxonly], ?_,
    hyregs.trans (hzsame.mono (out' := freezeOut) (by decide))⟩
  rw [hzonly, hyonly, hxonly]

/-! ## Losing REFCLK (R382 to R385) -/

theorem refclkMissing_freezes {s : State} (hsrc : s.rd F.CLK_STATUS_SRC = 0) (hfrozen : s.clk.frozen = false) : Answers .refclkMissingEdge s fun u =>
      u.clk.fired = true ∧ u.clk.frozen = true ∧ u.rd F.TMG_STATUS_UNREF = 1 ∧ u.rd F.CLK_STATUS_SRC = 0 ∧
      u.rdP F.CLK_LOSS_AT_LO_TIME = s.now ∧ u.acq.calRun = 0 ∧
      u = { s with regs := u.regs, clk := u.clk, cal := { s.cal with run := u.cal.run }, threads := u.threads
                   acq := { s.acq with calDue := u.acq.calDue, calRun := 0 } } ∧
      Quiet [(F.CLK_LOSS_AT_LO_TIME).addr, (F.CLK_LOSS_AT_LO_TIME).addr + 4, (F.TMG_STATUS_UNREF).addr, (F.TMU_GSTATUS_CAL_RUN).addr] s u := by
  have hexec : exec .refclkMissingEdge s = .next ({ s with clk := { s.clk with fired := true } } : State).freeze.unrefNow := by
    show execRefclkMissingEdge s = _
    rw [execRefclkMissingEdge]
    dsimp only
    rw [if_pos (.inl hsrc), if_neg (by rw [hfrozen]; simp)]
  have hxregs : ({ s with clk := { s.clk with fired := true } } : State).regs = s.regs := rfl
  have hxnow : ({ s with clk := { s.clk with fired := true } } : State).now = s.now := rfl
  generalize hx : ({ s with clk := { s.clk with fired := true } } : State) = x at *
  obtain ⟨hclk, hunref, hat, hrun, hyonly, hyregs⟩ := x.freeze_keeps rfl
  generalize x.freeze = y at *
  have honly := y.unrefNow_keeps
  generalize y.unrefNow = u at *
  have huregs : u.regs = y.regs := by rw [honly]
  have huclk : u.clk = { s.clk with fired := true, frozen := true } := by rw [honly, hclk, ← hx]
  have hall : u = { s with regs := u.regs, clk := u.clk, cal := { s.cal with run := u.cal.run }, threads := u.threads
                           acq := { s.acq with calDue := u.acq.calDue, calRun := 0 } } := by rw [honly, hyonly, ← hx]
  have hsame : RegsSame freezeOut s u := ((RegsSame.refl _ s).andRegs hxregs).trans (hyregs.andRegs huregs)
  refine ⟨u, hexec, by rw [huclk], by rw [huclk], (State.rd_of_regs huregs _).trans hunref, (hsame.rd _ (by decide)).trans hsrc, ?_, by rw [hall], hall,
    hsame, by rw [hall]; exact .of_eq rfl rfl rfl rfl⟩
  rw [State.rdP, State.rd_of_regs huregs, State.rd_of_regs huregs, ← hxnow, ← hat, State.rdP]

/-- The windows of the master that a monitor window ends. -/
def State.markWindows (s : State) : State :=
  (allFin 32).foldl (fun s g =>
    let w := s.cycleNow g
    s.modGrove g fun k => { k with winCycle := w }) s

theorem State.markWindows_keeps (s : State) : ∃ gr, s.markWindows = { s with groves := gr } := by
  refine foldl_rel (R := fun s t : State => ∃ gr, t = { s with groves := gr }) (fun s => ⟨s.groves, rfl⟩) (fun h k => ?_) (fun x g => ⟨_, rfl⟩) _ s
  obtain ⟨g, rfl⟩ := h
  obtain ⟨g', rfl⟩ := k
  exact ⟨g', rfl⟩

/-- The state in which a monitor window has been counted. -/
def State.windowCounted (s : State) (count ok wins : Nat) : State :=
  { s.wrs [(F.CLK_REF_CNT_REF, count), (F.CLK_STATUS_REF_OK, ok)] with clk := { s.clk with refWins := wins } }

theorem State.windowCounted_keeps (s : State) {count ok wins : Nat} (hcount : count < 2 ^ 16) (hok : ok < 2) {x : State}
    (hx : s.windowCounted count ok wins = x) : x.rd F.CLK_REF_CNT_REF = count ∧ x.rd F.CLK_STATUS_REF_OK = ok ∧
    x.rd F.CLK_STATUS_SRC = s.rd F.CLK_STATUS_SRC ∧ x.rd F.CLK_STATUS_OSC_OK = s.rd F.CLK_STATUS_OSC_OK ∧
    x = { s with regs := x.regs, clk := { s.clk with refWins := wins } } ∧ RegsSame [(F.CLK_REF_CNT_REF).addr, (F.CLK_STATUS_REF_OK).addr] s x := by
  have hread : (s.wrs [(F.CLK_REF_CNT_REF, count), (F.CLK_STATUS_REF_OK, ok)]).rd F.CLK_REF_CNT_REF = count ∧
      (s.wrs [(F.CLK_REF_CNT_REF, count), (F.CLK_STATUS_REF_OK, ok)]).rd F.CLK_STATUS_REF_OK = ok ∧
      (s.wrs [(F.CLK_REF_CNT_REF, count), (F.CLK_STATUS_REF_OK, ok)]).rd F.CLK_STATUS_SRC = s.rd F.CLK_STATUS_SRC ∧
      (s.wrs [(F.CLK_REF_CNT_REF, count), (F.CLK_STATUS_REF_OK, ok)]).rd F.CLK_STATUS_OSC_OK = s.rd F.CLK_STATUS_OSC_OK := by
    simp only [State.wrs, List.foldl_cons, List.foldl_nil]
    refine ⟨?_, ?_, ?_, ?_⟩
    · rw [State.rd_wr_other _ _ _ _ (by decide), State.rd_wr_fit _ F.CLK_REF_CNT_REF _ (by decide) hcount]
    · rw [State.rd_wr_fit _ F.CLK_STATUS_REF_OK _ (by decide) hok]
    · rw [State.rd_wr_apart _ _ _ _ (by decide) (by simp [Fld.apart, F.CLK_STATUS_SRC, F.CLK_STATUS_REF_OK]), State.rd_wr_other _ _ _ _ (by decide)]
    · rw [State.rd_wr_apart _ _ _ _ (by decide) (by simp [Fld.apart, F.CLK_STATUS_OSC_OK, F.CLK_STATUS_REF_OK]), State.rd_wr_other _ _ _ _ (by decide)]
  have honly := RegsOnly.wrs s [(F.CLK_REF_CNT_REF, count), (F.CLK_STATUS_REF_OK, ok)]
  have hsame := RegsSame.wrs (out := [(F.CLK_REF_CNT_REF).addr, (F.CLK_STATUS_REF_OK).addr]) s
    [(F.CLK_REF_CNT_REF, count), (F.CLK_STATUS_REF_OK, ok)] (by simp)
  rw [State.windowCounted] at hx
  generalize s.wrs [(F.CLK_REF_CNT_REF, count), (F.CLK_STATUS_REF_OK, ok)] = y at *
  have hregs : x.regs = y.regs := by rw [← hx]
  obtain ⟨href, hrefok, hsrc, hosc⟩ := hread
  refine ⟨(State.rd_of_regs hregs _).trans href, (State.rd_of_regs hregs _).trans hrefok, (State.rd_of_regs hregs _).trans hsrc,
    (State.rd_of_regs hregs _).trans hosc, by rw [← hx, honly], hsame.andRegs hregs⟩

theorem State.tryReturn_idle {s : State} (h : s.rd F.CLK_STATUS_SRC = 0) : s.tryReturn = s := by
  rw [State.tryReturn]
  exact if_neg (by rw [h]; simp)

/-- The registers outside MFL and STR that a loss writes. -/
def lossOut : List Nat :=
  [(F.CLK_STATUS_SRC).addr, (F.CLK_LOSS_CNT_COUNT).addr, (F.FLT_ACTIVE_ACTIVE 0).addr] ++ evOut Ev.clk ++ nmiOut ++ faultOut 3

/-- What a loss of REFCLK does whose source is of class RECORD or NOTIFY, with an oscillator that is good (R384, R385). -/
theorem State.lose_keeps (s : State) {c : Nat} (hc : c < 4) (hosc : s.on F.CLK_STATUS_OSC_OK = true) (hidle : s.flt.active.contains 3 = false)
    (hcls : s.classOf 3 < 2) {u : State} (hu : s.lose c = u) :
    u.rd F.CLK_STATUS_SRC = 1 ∧ u.rd F.CLK_STATUS_CAUSE = c ∧ u.rd F.CLK_STATUS_REF_OK = s.rd F.CLK_STATUS_REF_OK ∧
    u.rd F.CLK_LOSS_CNT_COUNT = min (s.rd F.CLK_LOSS_CNT_COUNT + 1) 65535 ∧ bitOf (u.rd Ev.clk.bits) 0 = true ∧
    (∀ k : Fin 8, bitOf (u.rd (F.SCH_NMI_CAUSE_CAUSE k)) 0 = true) ∧ u.latched 3 = true ∧ u.flt.active.contains 3 = true ∧
    u.clk.refWins = 0 ∧ u.clk.frozen = s.clk.frozen ∧ BytesSame s u ∧
    ∀ f : Fld, f.blk ≠ .mfl → f.blk ≠ .str → f.addr ∉ lossOut → u.rd f = s.rd f := by
  have hv : ∀ clk, (({ s with clk := clk } : State).wrs [(F.CLK_STATUS_SRC, 1), (F.CLK_STATUS_CAUSE, c)]).rd F.CLK_STATUS_SRC = 1 ∧
      (({ s with clk := clk } : State).wrs [(F.CLK_STATUS_SRC, 1), (F.CLK_STATUS_CAUSE, c)]).rd F.CLK_STATUS_CAUSE = c ∧
      (({ s with clk := clk } : State).wrs [(F.CLK_STATUS_SRC, 1), (F.CLK_STATUS_CAUSE, c)]).rd F.CLK_STATUS_REF_OK = s.rd F.CLK_STATUS_REF_OK := by
    intro clk
    simp only [State.wrs, List.foldl_cons, List.foldl_nil]
    refine ⟨?_, ?_, ?_⟩
    · rw [State.rd_wr_apart _ _ _ _ (by decide) (by simp [Fld.apart, F.CLK_STATUS_SRC, F.CLK_STATUS_CAUSE]), State.rd_wr_fit _ _ _ (by decide) (by decide)]
    · rw [State.rd_wr_fit _ F.CLK_STATUS_CAUSE _ (by decide) (Nat.lt_trans hc (by decide))]
    · rw [State.rd_wr_apart _ _ _ _ (by decide) (by simp [Fld.apart, F.CLK_STATUS_REF_OK, F.CLK_STATUS_CAUSE]),
        State.rd_wr_apart _ _ _ _ (by decide) (by simp [Fld.apart, F.CLK_STATUS_REF_OK, F.CLK_STATUS_SRC])]
      rfl
  have hlose : s.lose c = (((((({ s with clk := { s.clk with refWins := 0, request := false, locked := false, absent := s.clk.absent || c == 4 } } : State).wrs
      [(F.CLK_STATUS_SRC, 1), (F.CLK_STATUS_CAUSE, c)]).noteAgreed.incSat F.CLK_LOSS_CNT_COUNT).event Ev.clk 0).nmiAll 0).dualRaise 3) := by
    have hon : ∀ clk, State.on { s with clk := clk } F.CLK_STATUS_OSC_OK = true := fun _ => hosc
    rw [State.lose]
    dsimp only
    rw [if_neg (by omega), hon, if_pos rfl]
  rw [hlose] at hu
  generalize hw : ({ s with clk := { s.clk with refWins := 0, request := false, locked := false, absent := s.clk.absent || c == 4 } } : State) = w at hu
  obtain ⟨hsrc, hcause, hok⟩ := hw ▸ hv _
  have hwregs : w.regs = s.regs := by rw [← hw]
  have hxonly := RegsOnly.wrs w [(F.CLK_STATUS_SRC, 1), (F.CLK_STATUS_CAUSE, c)]
  have hxsame := RegsSame.wrs (out := [(F.CLK_STATUS_SRC).addr]) w [(F.CLK_STATUS_SRC, 1), (F.CLK_STATUS_CAUSE, c)] (by simp [F.CLK_STATUS_SRC, F.CLK_STATUS_CAUSE])
  generalize w.wrs [(F.CLK_STATUS_SRC, 1), (F.CLK_STATUS_CAUSE, c)] = x at *
  have hlink := LinkOnly.noteAgreed x
  generalize x.noteAgreed = y at *
  have hcount := State.rd_incSat y F.CLK_LOSS_CNT_COUNT (by decide)
  have hzonly : RegsOnly y (y.incSat F.CLK_LOSS_CNT_COUNT) := .wr ..
  have hzsame := RegsSame.incSat (out := [(F.CLK_LOSS_CNT_COUNT).addr]) y F.CLK_LOSS_CNT_COUNT 1 (by simp)
  generalize y.incSat F.CLK_LOSS_CNT_COUNT = z at *
  have hbit := State.event_bit z Ev.clk (i := 0) (by decide) (by decide)
  have heonly := State.event_event z Ev.clk 0
  have hesame := State.event_regs z Ev.clk 0
  generalize z.event Ev.clk 0 = e at *
  obtain ⟨hnonly, hnsame, hnmi⟩ := e.nmiAll_keeps (bit := 0) (by decide) rfl
  generalize e.nmiAll 0 = n at *
  have hnflt : n.flt = s.flt := by rw [hnonly, heonly, hzonly, hlink.1, hxonly, ← hw]
  have hrest : ∀ f : Fld, f.blk ≠ .mfl → f.blk ≠ .str → f.addr ∉ lossOut → n.rd f = s.rd f := by
    intro f hm hs hf
    simp only [lossOut, List.mem_append, List.mem_cons, List.not_mem_nil, or_false, not_or] at hf
    obtain ⟨⟨⟨⟨h1, h2, -⟩, h3⟩, h4⟩, -⟩ := hf
    rw [hnsame.rd _ h4, hesame.rd _ h3, hzsame.rd _ (by simpa using h2), hlink.rd hm hs, hxsame.rd _ (by simpa using h1), State.rd_of_regs hwregs]
  have hclk : ∀ f : Fld, f.blk = .clk → f.addr ∉ nmiOut → f.addr ∉ evOut Ev.clk → n.rd f = z.rd f :=
    fun f _ h1 h2 => (hnsame.rd _ h1).trans (hesame.rd _ h2)
  rw [State.dualRaise, if_neg (by rw [hnflt, hidle]; decide)] at hu
  obtain ⟨hfault, hlatched, hactive, husame⟩ := n.dualOn_keeps (i := 3) (by decide)
    (by rw [State.classOf, hrest _ (by decide) (by decide) (by decide)]; exact hcls) hu
  have hu2 : ∀ f : Fld, f.addr ∉ (F.FLT_ACTIVE_ACTIVE (3 / 32)).addr :: faultOut 3 → u.rd f = n.rd f := fun f hf => husame.rd f hf
  have hall : u = { s with regs := u.regs, hq := u.hq, sched := u.sched, flt := u.flt, links := u.links, clk := u.clk } ∧ u.clk = w.clk := by
    rw [hfault, hnonly, heonly, hzonly, hlink.1, hxonly, ← hw]; exact ⟨rfl, rfl⟩
  obtain ⟨hstate, huclk⟩ := hall
  refine ⟨?_, ?_, ?_, ?_, ?_, fun k => ?_, hlatched, hactive, by rw [huclk, ← hw], by rw [huclk, ← hw], by rw [hstate]; exact .of_eq rfl rfl rfl rfl,
    fun f hm hs hf => ?_⟩
  · rw [hu2 _ (by decide), hclk _ rfl (by decide) (by decide), hzsame.rd _ (by decide), hlink.rd (by decide) (by decide), hsrc]
  · rw [hu2 _ (by decide), hclk _ rfl (by decide) (by decide), hzsame.rd _ (by decide), hlink.rd (by decide) (by decide), hcause]
  · rw [hu2 _ (by decide), hclk _ rfl (by decide) (by decide), hzsame.rd _ (by decide), hlink.rd (by decide) (by decide), hok]
  · rw [hu2 _ (by decide), hclk _ rfl (by decide) (by decide), hcount, hlink.rd (by decide) (by decide), hxsame.rd _ (by decide), State.rd_of_regs hwregs]
    rfl
  · rw [hu2 _ (by decide), hnsame.rd _ (by decide), hbit]
  · have hk := k.isLt
    rw [hu2 _ (by simp only [faultOut, evOut, Ev.flt, Ev.sch, F.FLT_ACTIVE_ACTIVE, F.SCH_NMI_CAUSE_CAUSE, F.FLT_STATUS_STATE, F.FLT_FIRST_TIME_LO_TIME,
      F.FLT_LATCH_LATCH, F.SCH_UNCLAIMED_COUNT, List.mem_cons, List.mem_append, List.not_mem_nil, or_false]; omega)]
    exact hnmi k
  · rw [hu2 _ fun hmem => hf ?_, hrest f hm hs hf]
    rcases List.mem_cons.mp hmem with h | h
    · rw [h]; simp [lossOut]
    · exact List.mem_append_right _ h

section
variable {count : Nat} {s : State}

theorem monitor_good (hmin : 995 ≤ count) (hmax : count ≤ 1005) (hsrc : s.rd F.CLK_STATUS_SRC = 0) (hfired : s.clk.fired = false)
    (hforce : s.on F.CLK_CTRL_FORCE_INT = false) : Answers (.referenceMonitorWindow count) s fun u =>
      u.rd F.CLK_REF_CNT_REF = count ∧ u.rd F.CLK_STATUS_REF_OK = 1 ∧ u.rd F.CLK_STATUS_SRC = 0 ∧ u.clk.refWins = s.clk.refWins + 1 ∧
      u.clk.seen = true ∧ u = { s with regs := u.regs, clk := u.clk, groves := u.groves } ∧
      Quiet [(F.CLK_REF_CNT_REF).addr, (F.CLK_STATUS_REF_OK).addr] s u := by
  have hgood : (decide (995 ≤ count) && decide (count ≤ 1005)) = true := by simp [hmin, hmax]
  have hcause : s.lossCause count true = none := by
    rw [State.lossCause]
    simp [hsrc, hfired, hforce, show count ≠ 0 by omega]
  obtain ⟨href, hok, hxsrc, -, hxonly, hxregs⟩ := s.windowCounted_keeps (count := count) (ok := 1) (wins := s.clk.refWins + 1) (by omega) (by decide) rfl
  have hexec : exec (.referenceMonitorWindow count) s = .next { (s.windowCounted count 1 (s.clk.refWins + 1)).tryReturn.markWindows with
      clk := { (s.windowCounted count 1 (s.clk.refWins + 1)).tryReturn.markWindows.clk with
        fired := false, seen := (s.windowCounted count 1 (s.clk.refWins + 1)).tryReturn.markWindows.clk.seen || true } } := by
    show execReferenceMonitorWindow count s = _
    rw [execReferenceMonitorWindow]
    dsimp only
    rw [hgood, hcause]
    rfl
  generalize s.windowCounted count 1 (s.clk.refWins + 1) = x at *
  rw [State.tryReturn_idle (hxsrc.trans hsrc)] at hexec
  obtain ⟨gr, hmark⟩ := x.markWindows_keeps
  rw [hmark] at hexec
  dsimp only at hexec
  have hxclk : x.clk = { s.clk with refWins := s.clk.refWins + 1 } := by rw [hxonly]
  rw [hxclk] at hexec
  refine ⟨_, hexec, href, hok, hxsrc.trans hsrc, rfl, Bool.or_true _, ?_, ?_, ?_⟩
  · rw [hxonly]
  · exact hxregs.andRegs rfl
  · rw [hxonly]; exact .of_eq rfl rfl rfl rfl

theorem monitor_loses (hmax : count < 995) (hsrc : s.rd F.CLK_STATUS_SRC = 0) (hfired : s.clk.fired = false) (hseen : s.clk.seen = true)
    (hosc : s.on F.CLK_STATUS_OSC_OK = true) (hidle : s.flt.active.contains 3 = false) (hcls : s.classOf 3 < 2) :
    Answers (.referenceMonitorWindow count) s fun u =>
      u.rd F.CLK_REF_CNT_REF = count ∧ u.rd F.CLK_STATUS_REF_OK = 0 ∧ u.rd F.CLK_STATUS_SRC = 1 ∧ u.rd F.CLK_STATUS_CAUSE = 2 ∧
      u.rd F.CLK_LOSS_CNT_COUNT = min (s.rd F.CLK_LOSS_CNT_COUNT + 1) 65535 ∧ u.rd F.TMG_STATUS_UNREF = 1 ∧
      bitOf (u.rd Ev.clk.bits) 0 = true ∧ (∀ c : Fin 8, bitOf (u.rd (F.SCH_NMI_CAUSE_CAUSE c)) 0 = true) ∧ u.latched 3 = true ∧
      u.flt.active.contains 3 = true ∧ u.clk.refWins = 0 ∧ u.clk.frozen = true ∧ BytesSame s u := by
  have hgood : (decide (995 ≤ count) && decide (count ≤ 1005)) = false := by simp; omega
  have hcause : s.lossCause count false = some 2 := by
    rw [State.lossCause]
    simp [hsrc, hfired, hseen]
  obtain ⟨href, hok, -, hxosc, hxonly, hxregs⟩ := s.windowCounted_keeps (count := count) (ok := 0) (wins := 0) (by omega) (by decide) rfl
  have hexec : exec (.referenceMonitorWindow count) s = .next { ((s.windowCounted count 0 0).unrefWindow.freeze.unrefNow.lose 2).markWindows with
      clk := { ((s.windowCounted count 0 0).unrefWindow.freeze.unrefNow.lose 2).markWindows.clk with
        fired := false, seen := ((s.windowCounted count 0 0).unrefWindow.freeze.unrefNow.lose 2).markWindows.clk.seen || false } } := by
    have hx : (s.windowCounted count 0 0).clk.fired = false := by rw [hxonly]; exact hfired
    show execReferenceMonitorWindow count s = _
    rw [execReferenceMonitorWindow]
    dsimp only
    rw [hgood, hcause]
    show Host.Outcome.next (let s := ((if (s.windowCounted count 0 0).clk.fired then s.windowCounted count 0 0
      else (s.windowCounted count 0 0).unrefWindow.freeze.unrefNow).lose 2).markWindows
      { s with clk := { s.clk with fired := false, seen := s.clk.seen || false } }) = _
    rw [if_neg (by rw [hx]; decide)]
  generalize s.windowCounted count 0 0 = x at *
  have hwin := x.unrefWindow_keeps
  generalize x.unrefWindow = y at *
  obtain ⟨hyclk, hunref, -, -, hzonly, hzregs⟩ := y.freeze_keeps rfl
  generalize y.freeze = z at *
  have hnow := z.unrefNow_keeps
  generalize z.unrefNow = w at *
  have hwregs : w.regs = z.regs := by rw [hnow]
  have hwclk : w.clk.frozen = true := by rw [hnow, hyclk]
  have hwflt : w.flt = s.flt := by rw [hnow, hzonly, hwin, hxonly]
  have hsame : RegsSame ([(F.CLK_REF_CNT_REF).addr, (F.CLK_STATUS_REF_OK).addr] ++ freezeOut) s w :=
    ((hxregs.mono (by simp)).andRegs (by rw [hwin])).trans ((hzregs.mono fun _ h => List.mem_append_right _ h).andRegs hwregs)
  have hrd : ∀ f : Fld, f.addr ∉ freezeOut → w.rd f = x.rd f := fun f hf => by
    rw [State.rd_of_regs hwregs, hzregs.rd _ hf, State.rd_of_regs (show y.regs = x.regs by rw [hwin])]
  have hbytes : BytesSame s w := by rw [hnow, hzonly, hwin, hxonly]; exact .of_eq rfl rfl rfl rfl
  obtain ⟨hvsrc, hvcause, hvok, hvcnt, hbit, hnmi, hlatched, hactive, hwins, hfrozen, hvbytes, hvrest⟩ := w.lose_keeps (c := 2) (by decide)
    (by rw [State.on, hrd _ (by decide), hxosc]; exact hosc) (by rw [hwflt]; exact hidle) (by rw [hsame.classOf (by decide)]; exact hcls) rfl
  generalize w.lose 2 = v at *
  obtain ⟨gr, hmark⟩ := v.markWindows_keeps
  rw [hmark] at hexec
  dsimp only at hexec
  refine ⟨_, hexec, ?_, ?_, hvsrc, hvcause, ?_, ?_, hbit, hnmi, hlatched, hactive, hwins, hfrozen.trans hwclk, hbytes.trans hvbytes⟩
  · exact (hvrest _ (by decide) (by decide) (by decide)).trans ((hrd _ (by decide)).trans href)
  · exact hvok.trans ((hrd _ (by decide)).trans hok)
  · exact hvcnt.trans (by rw [hsame.rd _ (by decide)])
  · exact (hvrest _ (by decide) (by decide) (by decide)).trans ((State.rd_of_regs hwregs _).trans hunref)

end

/-! ## Switching over and returning (R386 to R389) -/

theorem Tim.reRate_still (t : Tim) (r ho : Int) : (t.reRate r ho).nowFrac = t.nowFrac :=
  (t.nowFrac_reRateAt t.raw r ho t.raw).trans (by ring)

section
variable {s : State}

theorem switchover_compensates (hsrc : s.rd F.CLK_STATUS_SRC = 1) (href : s.on F.TIM_STATUS_UNREF = false) : Answers .oscillatorSwitchover s fun u =>
      u.rd F.TIM_STATUS_UNREF = 1 ∧ u.rd F.TIM_RATE_HO_RATE = zx 32 (-s.tim.oscErr) ∧ u.tim.rateHo = -s.tim.oscErr ∧
      u.tim.rate = s.tim.rate ∧ u.tim.nowFrac = s.tim.nowFrac ∧ bitOf (u.rd Ev.tim.bits) 2 = true ∧
      u = { s with regs := u.regs, hq := u.hq, sched := u.sched, tim := u.tim } ∧
      Quiet ([(F.TIM_STATUS_UNREF).addr, (F.TIM_RATE_HO_RATE).addr] ++ evOut Ev.tim) s u := by
  have hexec : exec .oscillatorSwitchover s = .next ((State.wrs { s with tim := s.tim.reRate s.tim.rate (-s.tim.oscErr) }
      [(F.TIM_RATE_HO_RATE, zx 32 (-s.tim.oscErr)), (F.TIM_STATUS_UNREF, 1)]).event Ev.tim 2) := by
    show execOscillatorSwitchover s = _
    rw [execOscillatorSwitchover]
    exact if_pos ⟨hsrc, href⟩
  have htim := s.tim.reRate_still s.tim.rate (-s.tim.oscErr)
  have hho : (s.tim.reRate s.tim.rate (-s.tim.oscErr)).rateHo = -s.tim.oscErr ∧ (s.tim.reRate s.tim.rate (-s.tim.oscErr)).rate = s.tim.rate := ⟨rfl, rfl⟩
  generalize s.tim.reRate s.tim.rate (-s.tim.oscErr) = t at *
  have hxregs : ({ s with tim := t } : State).regs = s.regs := rfl
  generalize hx : ({ s with tim := t } : State) = x at *
  have hread : (x.wrs [(F.TIM_RATE_HO_RATE, zx 32 (-s.tim.oscErr)), (F.TIM_STATUS_UNREF, 1)]).rd F.TIM_STATUS_UNREF = 1 ∧
      (x.wrs [(F.TIM_RATE_HO_RATE, zx 32 (-s.tim.oscErr)), (F.TIM_STATUS_UNREF, 1)]).rd F.TIM_RATE_HO_RATE = zx 32 (-s.tim.oscErr) := by
    simp only [State.wrs, List.foldl_cons, List.foldl_nil]
    constructor
    · rw [State.rd_wr_fit _ _ _ (by decide) (by decide)]
    · rw [State.rd_wr_other _ _ _ _ (by decide), State.rd_wr_fit _ F.TIM_RATE_HO_RATE _ (by decide) (zx_lt 32 _)]
  have hyonly := RegsOnly.wrs x [(F.TIM_RATE_HO_RATE, zx 32 (-s.tim.oscErr)), (F.TIM_STATUS_UNREF, 1)]
  have hysame := RegsSame.wrs (out := [(F.TIM_STATUS_UNREF).addr, (F.TIM_RATE_HO_RATE).addr] ++ evOut Ev.tim) x
    [(F.TIM_RATE_HO_RATE, zx 32 (-s.tim.oscErr)), (F.TIM_STATUS_UNREF, 1)] (by simp)
  generalize x.wrs [(F.TIM_RATE_HO_RATE, zx 32 (-s.tim.oscErr)), (F.TIM_STATUS_UNREF, 1)] = y at *
  have hbit := State.event_bit y Ev.tim (i := 2) (by decide) (by decide)
  have hzonly := State.event_event y Ev.tim 2
  have hzsame := State.event_regs y Ev.tim 2
  generalize y.event Ev.tim 2 = z at *
  have hztim : z.tim = t := by rw [hzonly, hyonly, ← hx]
  have hall : z = { s with regs := z.regs, hq := z.hq, sched := z.sched, tim := z.tim } := by rw [hzonly, hyonly, ← hx]
  refine ⟨z, hexec, (hzsame.rd _ (by decide)).trans hread.1, (hzsame.rd _ (by decide)).trans hread.2, by rw [hztim, hho.1], by rw [hztim, hho.2],
    by rw [hztim, htim], hbit, hall, ?_, by rw [hall]; exact .of_eq rfl rfl rfl rfl⟩
  exact (((RegsSame.refl _ s).andRegs hxregs).trans hysame).trans (hzsame.mono fun _ h => List.mem_append_right _ h)

/-- What a write of CLK_CTRL has read of it. -/
theorem State.clkCtrl_fields (s : State) (n : Nat) :
    (s.wrs [(F.CLK_CTRL_AUTO_RETURN, n), (F.CLK_CTRL_FORCE_INT, n / 4)]).rd F.CLK_CTRL_AUTO_RETURN = fieldOf n 0 1 ∧
    (s.wrs [(F.CLK_CTRL_AUTO_RETURN, n), (F.CLK_CTRL_FORCE_INT, n / 4)]).rd F.CLK_CTRL_FORCE_INT = fieldOf n 2 1 := by
  simp only [State.wrs, List.foldl_cons, List.foldl_nil]
  constructor
  · rw [State.rd_wr_apart _ _ _ _ (by decide) (by simp [Fld.apart, F.CLK_CTRL_AUTO_RETURN, F.CLK_CTRL_FORCE_INT]), State.rd_wr_same _ _ _ (by decide),
      fieldOf, Nat.pow_zero, Nat.div_one]
    rfl
  · rw [State.rd_wr_same _ _ _ (by decide)]
    rfl

theorem clkCtrl_keeps (n : Nat) : RegsOnly s (s.wrs [(F.CLK_CTRL_AUTO_RETURN, n), (F.CLK_CTRL_FORCE_INT, n / 4)]) ∧
    RegsSame [(F.CLK_CTRL_AUTO_RETURN).addr] s (s.wrs [(F.CLK_CTRL_AUTO_RETURN, n), (F.CLK_CTRL_FORCE_INT, n / 4)]) :=
  ⟨.wrs .., .wrs _ _ (by simp [F.CLK_CTRL_AUTO_RETURN, F.CLK_CTRL_FORCE_INT])⟩

theorem clkReturn_begins {req : Req} {w : Word} (hmay : s.mayWrite req F.CLK_CTRL_AUTO_RETURN.addr w = true) (hret : w.getLsbD 1 = true)
    (hforce : w.getLsbD 2 = false) (hsrc : s.rd F.CLK_STATUS_SRC = 1) (hwins : s.returnWin ≤ s.clk.refWins) : Answers (.clkReturnWrite req w) s fun u =>
      u.rd F.CLK_STATUS_SRC = 2 ∧ u.clk = { s.clk with request := false, locked := false } ∧ u = { s with regs := u.regs, clk := u.clk } ∧
      Quiet [(F.CLK_CTRL_AUTO_RETURN).addr, (F.CLK_STATUS_SRC).addr, wseqOut] s u := by
  refine answers_regWrite (apply := fun s => s.clkCtrl w.toNat) rfl hmay fun u honly hregs => ?_
  obtain ⟨-, hfi⟩ := s.clkCtrl_fields w.toNat
  obtain ⟨hxonly, hxsame⟩ := clkCtrl_keeps (s := s) w.toNat
  have hzero : fieldOf w.toNat 2 1 = 0 := by
    rw [BitVec.getLsbD, Nat.testBit_eq_decide_div_mod_eq, decide_eq_false_iff_not] at hforce
    simp only [fieldOf, Nat.pow_one]; omega
  rw [hzero] at hfi
  rw [State.clkCtrl] at honly hregs
  dsimp only at honly hregs
  generalize s.wrs [(F.CLK_CTRL_AUTO_RETURN, w.toNat), (F.CLK_CTRL_FORCE_INT, w.toNat / 4)] = x at *
  have hxsrc : x.rd F.CLK_STATUS_SRC = 1 := (hxsame.rd _ (by decide)).trans hsrc
  have hxwin : x.returnWin ≤ x.clk.refWins := by
    rw [State.returnWin, hxsame.rd _ (by decide), hxonly]; exact hwins
  have hret' : bitOf w.toNat 1 = true := hret
  rw [if_pos ⟨hret', by rw [hxsrc]; decide⟩] at honly hregs
  have htry : ({ x with clk := { x.clk with request := true } } : State).tryReturn =
      State.wr { x with clk := { x.clk with request := false, locked := false } } F.CLK_STATUS_SRC 2 := by
    rw [State.tryReturn]
    exact if_pos ⟨.inl hxsrc, hxwin, .inr rfl, by show (x.rd F.CLK_CTRL_FORCE_INT == 1) = false; rw [hfi]; rfl⟩
  rw [htry] at honly hregs
  have hyregs : ({ x with clk := { x.clk with request := false, locked := false } } : State).regs = x.regs := rfl
  generalize hy : ({ x with clk := { x.clk with request := false, locked := false } } : State) = y at *
  have hval := State.rd_wr_fit y F.CLK_STATUS_SRC 2 (by decide) (by decide)
  have hzonly := RegsOnly.wr y F.CLK_STATUS_SRC 2
  have hzsame : RegsSame [(F.CLK_STATUS_SRC).addr] y (y.wr F.CLK_STATUS_SRC 2) := .wr _ _ _ (by simp)
  generalize y.wr F.CLK_STATUS_SRC 2 = z at *
  have hclk : u.clk = { s.clk with request := false, locked := false } := by rw [honly, hzonly, ← hy, hxonly]
  have hall : u = { s with regs := u.regs, clk := u.clk } := by rw [honly, hzonly, ← hy, hxonly]
  refine ⟨(hregs.rd _ (by decide)).trans hval, hclk, hall, ?_, by rw [hall]; exact .of_eq rfl rfl rfl rfl⟩
  exact (((hxsame.mono (by simp)).andRegs hyregs).trans (hzsame.mono (by simp))).trans (hregs.mono (by simp))

theorem forceInt_written {req : Req} {w : Word} (hmay : s.mayWrite req F.CLK_CTRL_FORCE_INT.addr w = true) (hsrc : s.rd F.CLK_STATUS_SRC = 0) :
    Answers (.forceIntWrite req w) s fun u =>
      u.rd F.CLK_CTRL_FORCE_INT = fieldOf w.toNat 2 1 ∧ u.rd F.CLK_CTRL_AUTO_RETURN = fieldOf w.toNat 0 1 ∧ RegsOnly s u ∧
      Quiet [(F.CLK_CTRL_FORCE_INT).addr, wseqOut] s u := by
  refine answers_regWrite (apply := fun s => s.clkCtrl w.toNat) rfl hmay fun u honly hregs => ?_
  obtain ⟨hauto, hfi⟩ := s.clkCtrl_fields w.toNat
  obtain ⟨hxonly, hxsame⟩ := clkCtrl_keeps (s := s) w.toNat
  rw [State.clkCtrl] at honly hregs
  dsimp only at honly hregs
  generalize s.wrs [(F.CLK_CTRL_AUTO_RETURN, w.toNat), (F.CLK_CTRL_FORCE_INT, w.toNat / 4)] = x at *
  have hxsrc : x.rd F.CLK_STATUS_SRC = 0 := (hxsame.rd _ (by decide)).trans hsrc
  rw [if_neg (by rw [hxsrc]; simp), State.tryReturn_idle hxsrc] at honly hregs
  exact ⟨(hregs.rd _ (by decide)).trans hfi, (hregs.rd _ (by decide)).trans hauto, hxonly.trans honly,
    .of_event (hxonly.trans honly).event ((hxsame.mono (by simp [F.CLK_CTRL_AUTO_RETURN, F.CLK_CTRL_FORCE_INT])).trans (hregs.mono (by simp)))⟩

/-! ## The return (R389) -/

theorem State.signal_hqOnly (s : State) (v : Nat) : ∃ hq, s.signal v = { s with hq := hq } := by
  rw [State.signal]
  split
  · exact ⟨_, rfl⟩
  · split
    · split <;> exact ⟨_, rfl⟩
    · exact ⟨s.hq, rfl⟩

theorem State.sendPending_hqOnly (s : State) : ∃ hq, s.sendPending = { s with hq := hq } := by
  refine foldl_rel (R := fun s t : State => ∃ hq, t = { s with hq := hq }) (fun s => ⟨s.hq, rfl⟩) (fun h k => ?_) (fun x v => ?_) _ s
  · obtain ⟨a, rfl⟩ := h
    obtain ⟨b, rfl⟩ := k
    exact ⟨b, rfl⟩
  · dsimp only
    split
    · obtain ⟨hq, h⟩ := State.signal_hqOnly { x with hq := { x.hq with vecPending := without x.hq.vecPending (2 ^ v) } } v
      exact ⟨hq, h⟩
    · exact ⟨x.hq, rfl⟩

theorem return_completes (hsrc : s.rd F.CLK_STATUS_SRC = 2) (hlock : s.clk.locked = true) (hfired : s.clk.fired = false) :
    Answers .returnComplete s fun u =>
      u.rd F.CLK_STATUS_SRC = 0 ∧ u.rd F.TMG_STATUS_UNREF = 0 ∧ u.rd F.TIM_STATUS_UNREF = 0 ∧ u.rd F.TIM_RATE_HO_RATE = 0 ∧
      u.tim.nowFrac = s.tim.nowFrac ∧ u.tim.rateHo = 0 ∧ u.clk.frozen = false ∧ u.flt.active.contains 3 = false ∧
      bitOf (u.rd Ev.clk.bits) 1 = true ∧ BytesSame s u := by
  have hexec : exec .returnComplete s = .next (((((State.wrs { s with clk := { s.clk with frozen := false, locked := false, absent := false }
                                                                      tim := s.tim.reRate s.tim.rate 0 }
      [(F.CLK_STATUS_SRC, 0), (F.TMG_STATUS_UNREF, 0), (F.TIM_RATE_HO_RATE, 0), (F.TIM_STATUS_UNREF, 0)]).event Ev.clk 1).dualOff 3).noteAgreed.startLanes).sendPending) := by
    show execReturnComplete s = _
    rw [execReturnComplete]
    exact if_pos ⟨hsrc, hlock, hfired⟩
  have htim := s.tim.reRate_still s.tim.rate 0
  have hho : (s.tim.reRate s.tim.rate 0).rateHo = 0 := rfl
  generalize s.tim.reRate s.tim.rate 0 = t at *
  generalize hx : ({ s with clk := { s.clk with frozen := false, locked := false, absent := false }, tim := t } : State) = x at *
  have hread : (x.wrs [(F.CLK_STATUS_SRC, 0), (F.TMG_STATUS_UNREF, 0), (F.TIM_RATE_HO_RATE, 0), (F.TIM_STATUS_UNREF, 0)]).rd F.CLK_STATUS_SRC = 0 ∧
      (x.wrs [(F.CLK_STATUS_SRC, 0), (F.TMG_STATUS_UNREF, 0), (F.TIM_RATE_HO_RATE, 0), (F.TIM_STATUS_UNREF, 0)]).rd F.TMG_STATUS_UNREF = 0 ∧
      (x.wrs [(F.CLK_STATUS_SRC, 0), (F.TMG_STATUS_UNREF, 0), (F.TIM_RATE_HO_RATE, 0), (F.TIM_STATUS_UNREF, 0)]).rd F.TIM_STATUS_UNREF = 0 ∧
      (x.wrs [(F.CLK_STATUS_SRC, 0), (F.TMG_STATUS_UNREF, 0), (F.TIM_RATE_HO_RATE, 0), (F.TIM_STATUS_UNREF, 0)]).rd F.TIM_RATE_HO_RATE = 0 := by
    simp only [State.wrs, List.foldl_cons, List.foldl_nil]
    refine ⟨?_, ?_, ?_, ?_⟩
    · rw [State.rd_wr_other _ _ _ _ (by decide), State.rd_wr_other _ _ _ _ (by decide), State.rd_wr_other _ _ _ _ (by decide),
        State.rd_wr_fit _ _ _ (by decide) (by decide)]
    · rw [State.rd_wr_other _ _ _ _ (by decide), State.rd_wr_other _ _ _ _ (by decide), State.rd_wr_fit _ _ _ (by decide) (by decide)]
    · rw [State.rd_wr_fit _ _ _ (by decide) (by decide)]
    · rw [State.rd_wr_other _ _ _ _ (by decide), State.rd_wr_fit _ _ _ (by decide) (by decide)]
  have hyonly := RegsOnly.wrs x [(F.CLK_STATUS_SRC, 0), (F.TMG_STATUS_UNREF, 0), (F.TIM_RATE_HO_RATE, 0), (F.TIM_STATUS_UNREF, 0)]
  generalize x.wrs [(F.CLK_STATUS_SRC, 0), (F.TMG_STATUS_UNREF, 0), (F.TIM_RATE_HO_RATE, 0), (F.TIM_STATUS_UNREF, 0)] = y at *
  have hbit := State.event_bit y Ev.clk (i := 1) (by decide) (by decide)
  have hzonly := State.event_event y Ev.clk 1
  have hzsame := State.event_regs y Ev.clk 1
  generalize y.event Ev.clk 1 = z at *
  obtain ⟨hvonly, hact, hvsame⟩ := z.dualOff_keeps 3 rfl
  generalize z.dualOff 3 = v at *
  have hlink := (LinkOnly.noteAgreed v).trans (LinkOnly.startLanes _)
  generalize v.noteAgreed.startLanes = l at *
  obtain ⟨hq, hsend⟩ := l.sendPending_hqOnly
  rw [hsend] at hexec
  have hl : l.tim = t ∧ l.clk.frozen = false ∧ l.flt = v.flt ∧ BytesSame s l := by
    rw [hlink.1]
    refine ⟨?_, ?_, rfl, ?_⟩
    · rw [hvonly, hzonly, hyonly, ← hx]
    · rw [hvonly, hzonly, hyonly, ← hx]
    · rw [hvonly, hzonly, hyonly, ← hx]; exact .of_eq rfl rfl rfl rfl
  obtain ⟨hltim, hlclk, hlflt, hlbytes⟩ := hl
  have hrd : ∀ f : Fld, f.blk ≠ .mfl → f.blk ≠ .str → f.addr ∉ [(F.FLT_ACTIVE_ACTIVE (3 / 32)).addr] → l.rd f = z.rd f :=
    fun f hm hs hf => (hlink.rd hm hs).trans (hvsame.rd f hf)
  obtain ⟨hysrc, hyu, hyt, hyr⟩ := hread
  refine ⟨_, hexec, ?_, ?_, ?_, ?_, ?_, ?_, hlclk, ?_, ?_, hlbytes⟩
  · exact (hrd _ (by decide) (by decide) (by decide)).trans ((hzsame.rd _ (by decide)).trans hysrc)
  · exact (hrd _ (by decide) (by decide) (by decide)).trans ((hzsame.rd _ (by decide)).trans hyu)
  · exact (hrd _ (by decide) (by decide) (by decide)).trans ((hzsame.rd _ (by decide)).trans hyt)
  · exact (hrd _ (by decide) (by decide) (by decide)).trans ((hzsame.rd _ (by decide)).trans hyr)
  · show l.tim.nowFrac = _; rw [hltim, htim]
  · show l.tim.rateHo = 0; rw [hltim, hho]
  · show l.flt.active.contains 3 = false; rw [hlflt, hact]
  · exact (congrArg (bitOf · 1) (hrd _ (by decide) (by decide) (by decide))).trans hbit

/-! ## The oscillator monitor (R382) -/

theorem oscillator_bad {count : Nat} (hmin : 502 < count) (hmax : count < 65536) (hsrc : s.rd F.CLK_STATUS_SRC = 0) (hcls : s.classOf 4 < 2) :
    Answers (.oscillatorMonitorWindow count) s fun u =>
      u.rd F.CLK_REF_CNT_OSC = count ∧ u.rd F.CLK_STATUS_OSC_OK = 0 ∧ u.clk = { s.clk with oscWins := 0 } ∧
      bitOf (u.rd Ev.clk.bits) 2 = true ∧ u.latched 4 = true ∧
      u = { s with regs := u.regs, hq := u.hq, sched := u.sched, flt := u.flt, clk := u.clk } ∧
      Quiet ([(F.CLK_REF_CNT_OSC).addr, (F.CLK_STATUS_OSC_OK).addr] ++ evOut Ev.clk ++ faultOut 4) s u := by
  have hgood : (decide (498 ≤ count) && decide (count ≤ 502)) = false := by simp; omega
  have hexec : exec (.oscillatorMonitorWindow count) s = .next (if (s.wr F.CLK_REF_CNT_OSC count).rd F.CLK_STATUS_SRC = 0 then
      ((State.wr { s.wr F.CLK_REF_CNT_OSC count with clk := { s.clk with oscWins := 0 } } F.CLK_STATUS_OSC_OK 0).event Ev.clk 2).faultOnce 4 none
      else { s.wr F.CLK_REF_CNT_OSC count with clk := { s.clk with oscWins := 0 } }) := by
    show execOscillatorMonitorWindow count s = _
    rw [execOscillatorMonitorWindow]
    dsimp only
    rw [hgood, if_pos (by rfl)]
    rfl
  have hosc := State.rd_wr_fit s F.CLK_REF_CNT_OSC count (by decide) hmax
  have hxonly := RegsOnly.wr s F.CLK_REF_CNT_OSC count
  have hxsame : RegsSame [(F.CLK_REF_CNT_OSC).addr] s (s.wr F.CLK_REF_CNT_OSC count) := .wr _ _ _ (by simp)
  generalize s.wr F.CLK_REF_CNT_OSC count = x at *
  rw [if_pos ((hxsame.rd _ (by decide)).trans hsrc)] at hexec
  have hyregs : ({ x with clk := { s.clk with oscWins := 0 } } : State).regs = x.regs := rfl
  generalize hy : ({ x with clk := { s.clk with oscWins := 0 } } : State) = y at *
  have hok := State.rd_wr_fit y F.CLK_STATUS_OSC_OK 0 (by decide) (by decide)
  have hzonly := RegsOnly.wr y F.CLK_STATUS_OSC_OK 0
  have hzsame : RegsSame [(F.CLK_STATUS_OSC_OK).addr] y (y.wr F.CLK_STATUS_OSC_OK 0) := .wr _ _ _ (by simp)
  generalize y.wr F.CLK_STATUS_OSC_OK 0 = z at *
  have hsame : RegsSame ([(F.CLK_REF_CNT_OSC).addr, (F.CLK_STATUS_OSC_OK).addr] ++ evOut Ev.clk ++ faultOut 4) s z :=
    ((hxsame.mono (by simp)).andRegs hyregs).trans (hzsame.mono (by simp))
  obtain ⟨hfault, hlatched, hbit, husame⟩ := State.event_faultOnce (w := z) (r := Ev.clk) (bit := 2) (i := 4) (g := none) (by decide)
    (by rw [hzsame.classOf (by decide), State.classOf, State.rd_of_regs hyregs, hxsame.rd _ (by decide)]; exact hcls)
    (by decide) (by decide) (by decide) (by decide) rfl
  generalize (z.event Ev.clk 2).faultOnce 4 none = u at *
  have huclk : u.clk = { s.clk with oscWins := 0 } := by rw [hfault, hzonly, ← hy]
  have hall : u = { s with regs := u.regs, hq := u.hq, sched := u.sched, flt := u.flt, clk := u.clk } := by rw [hfault, hzonly, ← hy, hxonly]
  refine ⟨u, hexec, ?_, (husame.rd _ (by decide)).trans hok, huclk, hbit, hlatched, hall, ?_, by rw [hall]; exact .of_eq rfl rfl rfl rfl⟩
  · rw [husame.rd _ (by decide), hzsame.rd _ (by decide), State.rd_of_regs hyregs, hosc]
  · exact hsame.trans (husame.mono (by simp +contextual [or_imp]))

/-- The mean of the oscillator's latest windows is shown, and nothing else of the master changes. -/
theorem State.oscMean_keeps (s : State) (count : Nat) {u : State} (hu : s.oscMean count = u) : u.clk.oscWins = s.clk.oscWins ∧
    u = { s with regs := u.regs, clk := u.clk, tim := { s.tim with oscErr := u.tim.oscErr } } ∧ RegsSame [(F.CLK_OSC_ERR_ERR).addr] s u := by
  rw [← hu, State.oscMean]
  exact ⟨rfl, rfl, RegsSame.trans (RegsSame.of_regs _ rfl) (RegsSame.wr _ _ _ (by simp))⟩

theorem oscillator_good {count : Nat} (hmin : 498 ≤ count) (hmax : count ≤ 502) : Answers (.oscillatorMonitorWindow count) s fun u =>
      u.rd F.CLK_REF_CNT_OSC = count ∧ u.clk.oscWins = s.clk.oscWins + 1 ∧ (s.returnWin ≤ s.clk.oscWins + 1 → u.rd F.CLK_STATUS_OSC_OK = 1) ∧
      u = { s with regs := u.regs, clk := u.clk, tim := { s.tim with oscErr := u.tim.oscErr } } ∧
      Quiet [(F.CLK_REF_CNT_OSC).addr, (F.CLK_STATUS_OSC_OK).addr, (F.CLK_OSC_ERR_ERR).addr] s u := by
  have hgood : (decide (498 ≤ count) && decide (count ≤ 502)) = true := by simp; omega
  have hosc := State.rd_wr_fit s F.CLK_REF_CNT_OSC count (by decide) (Nat.lt_of_le_of_lt hmax (by decide))
  have hxonly := RegsOnly.wr s F.CLK_REF_CNT_OSC count
  have hxsame : RegsSame [(F.CLK_REF_CNT_OSC).addr, (F.CLK_STATUS_OSC_OK).addr, (F.CLK_OSC_ERR_ERR).addr] s (s.wr F.CLK_REF_CNT_OSC count) :=
    .wr _ _ _ (by simp)
  have hxwin : (s.wr F.CLK_REF_CNT_OSC count).returnWin = s.returnWin := by
    rw [State.returnWin, State.rd_wr_other _ _ _ _ (by decide)]; rfl
  obtain ⟨y, hexec, hyref, hyok, hyonly, hyclk, hysame⟩ : ∃ y : State, exec (.oscillatorMonitorWindow count) s =
      .next (if y.on F.CLK_STATUS_OSC_OK then y.oscMean count else y) ∧ y.rd F.CLK_REF_CNT_OSC = count ∧
      (s.returnWin ≤ s.clk.oscWins + 1 → y.rd F.CLK_STATUS_OSC_OK = 1) ∧ y = { s with regs := y.regs, clk := y.clk } ∧
      y.clk.oscWins = s.clk.oscWins + 1 ∧
      RegsSame [(F.CLK_REF_CNT_OSC).addr, (F.CLK_STATUS_OSC_OK).addr, (F.CLK_OSC_ERR_ERR).addr] s y := by
    have hrun : exec (.oscillatorMonitorWindow count) s = .next
        (let z : State := { s.wr F.CLK_REF_CNT_OSC count with clk := { s.clk with oscWins := s.clk.oscWins + 1 } }
         let y := if z.returnWin ≤ s.clk.oscWins + 1 then z.wr F.CLK_STATUS_OSC_OK 1 else z
         if y.on F.CLK_STATUS_OSC_OK then y.oscMean count else y) := by
      show execOscillatorMonitorWindow count s = _
      rw [execOscillatorMonitorWindow]
      dsimp only
      rw [hgood, if_neg (by decide)]
      rfl
    generalize s.wr F.CLK_REF_CNT_OSC count = x at *
    have hzregs : ({ x with clk := { s.clk with oscWins := s.clk.oscWins + 1 } } : State).regs = x.regs := rfl
    have hzwin : ({ x with clk := { s.clk with oscWins := s.clk.oscWins + 1 } } : State).returnWin = s.returnWin := hxwin
    generalize hz : ({ x with clk := { s.clk with oscWins := s.clk.oscWins + 1 } } : State) = z at *
    have hzsame := hxsame.andRegs hzregs
    have hzonly : z = { s with regs := z.regs, clk := { s.clk with oscWins := s.clk.oscWins + 1 } } := by rw [← hz, hxonly]
    dsimp only at hrun
    rw [hzwin] at hrun
    by_cases hdue : s.returnWin ≤ s.clk.oscWins + 1
    · rw [if_pos hdue] at hrun
      have hok := State.rd_wr_fit z F.CLK_STATUS_OSC_OK 1 (by decide) (by decide)
      have honly := RegsOnly.wr z F.CLK_STATUS_OSC_OK 1
      have hsame := hzsame.andWr (f := F.CLK_STATUS_OSC_OK) (v := 1) (by simp)
      have href : (z.wr F.CLK_STATUS_OSC_OK 1).rd F.CLK_REF_CNT_OSC = count := by
        rw [State.rd_wr_other _ _ _ _ (by decide), State.rd_of_regs hzregs, hosc]
      generalize z.wr F.CLK_STATUS_OSC_OK 1 = y at *
      exact ⟨y, hrun, href, fun _ => hok, by rw [honly, hzonly], by rw [honly, hzonly], hsame⟩
    · rw [if_neg hdue] at hrun
      exact ⟨z, hrun, (State.rd_of_regs hzregs _).trans hosc, fun h => absurd h hdue, by rw [hzonly], by rw [hzonly], hzsame⟩
  by_cases hon : y.on F.CLK_STATUS_OSC_OK = true
  · rw [if_pos hon] at hexec
    obtain ⟨hwins, honly, hsame⟩ := y.oscMean_keeps count rfl
    generalize y.oscMean count = u at *
    have hall : u = { s with regs := u.regs, clk := u.clk, tim := { s.tim with oscErr := u.tim.oscErr } } := by rw [honly, hyonly]
    exact ⟨u, hexec, (hsame.rd _ (by decide)).trans hyref, hwins.trans hyclk, fun h => (hsame.rd _ (by decide)).trans (hyok h), hall,
      hysame.trans (hsame.mono (by simp)), by rw [hall]; exact .of_eq rfl rfl rfl rfl⟩
  · rw [if_neg hon] at hexec
    exact ⟨y, hexec, hyref, hyclk, hyok, by rw [hyonly], hysame, by rw [hyonly]; exact .of_eq rfl rfl rfl rfl⟩
end

/-! ## CLKOUT (R391) -/

/-- The registers of CLKOUT after a write of its configuration. -/
def State.clkoutRegs (s : State) (n active fast : Nat) : State :=
  s.wrs [(F.CLKOUT_CFG_SRC, fieldOf n 0 4), (F.CLKOUT_CFG_SEL, n / 2 ^ 8), (F.CLKOUT_CFG_DIV, n / 2 ^ 16), (F.CLKOUT_STAT_ACTIVE, active),
    (F.CLKOUT_STAT_TOO_FAST, fast)]

theorem State.clkoutRegs_keeps (s : State) (n : Nat) {active fast : Nat} (ha : active < 2) (hf : fast < 2) {x : State}
    (hx : s.clkoutRegs n active fast = x) : x.rd F.CLKOUT_CFG_SRC = fieldOf n 0 4 ∧ x.rd F.CLKOUT_CFG_DIV = fieldOf n 16 16 ∧
    x.rd F.CLKOUT_STAT_ACTIVE = active ∧ x.rd F.CLKOUT_STAT_TOO_FAST = fast ∧ RegsOnly s x ∧
    RegsSame [(F.CLKOUT_CFG_SRC).addr, (F.CLKOUT_STAT_ACTIVE).addr, wseqOut] s x := by
  rw [← hx]
  refine ⟨?_, ?_, ?_, ?_, .wrs .., .wrs _ _ (by simp [F.CLKOUT_CFG_SRC, F.CLKOUT_CFG_SEL, F.CLKOUT_CFG_DIV, F.CLKOUT_STAT_ACTIVE, F.CLKOUT_STAT_TOO_FAST])⟩ <;>
    simp only [State.clkoutRegs, State.wrs, List.foldl_cons, List.foldl_nil]
  · rw [State.rd_wr_other _ _ _ _ (by decide), State.rd_wr_other _ _ _ _ (by decide),
      State.rd_wr_apart _ _ _ _ (by decide) (by simp [Fld.apart, F.CLKOUT_CFG_SRC, F.CLKOUT_CFG_DIV]),
      State.rd_wr_apart _ _ _ _ (by decide) (by simp [Fld.apart, F.CLKOUT_CFG_SRC, F.CLKOUT_CFG_SEL]),
      State.rd_wr_fit _ F.CLKOUT_CFG_SRC _ (by decide) (fieldOf_lt _ _ 4)]
  · rw [State.rd_wr_other _ _ _ _ (by decide), State.rd_wr_other _ _ _ _ (by decide), State.rd_wr_same _ _ _ (by decide)]
    rfl
  · rw [State.rd_wr_apart _ _ _ _ (by decide) (by simp [Fld.apart, F.CLKOUT_STAT_ACTIVE, F.CLKOUT_STAT_TOO_FAST]),
      State.rd_wr_fit _ F.CLKOUT_STAT_ACTIVE _ (by decide) ha]
  · rw [State.rd_wr_fit _ F.CLKOUT_STAT_TOO_FAST _ (by decide) hf]

section
variable {req : Req} {w : Word} {s : State} (hmay : s.mayWrite req F.CLKOUT_CFG_SRC.addr w = true)
include hmay

theorem clkout_driven (hslow : clkoutMax (fieldOf w.toNat 0 4) ≤ 200000000 * (fieldOf w.toNat 16 16 + 1)) (hsome : clkoutMax (fieldOf w.toNat 0 4) ≠ 0) :
    Answers (.clkoutCfgWrite req w) s fun u =>
      u.rd F.CLKOUT_CFG_SRC = fieldOf w.toNat 0 4 ∧ u.rd F.CLKOUT_CFG_DIV = fieldOf w.toNat 16 16 ∧ u.rd F.CLKOUT_STAT_ACTIVE = 1 ∧
      u.rd F.CLKOUT_STAT_TOO_FAST = 0 ∧
      u.clk = { s.clk with out := clkoutOf (fieldOf w.toNat 0 4) (fieldOf w.toNat 8 6) (fieldOf w.toNat 16 16 + 1) } ∧
      u = { s with regs := u.regs, clk := u.clk } ∧ Quiet [(F.CLKOUT_CFG_SRC).addr, (F.CLKOUT_STAT_ACTIVE).addr, wseqOut] s u := by
  refine answers_regWrite (apply := fun s => s.clkout w.toNat) rfl hmay fun u honly hregs => ?_
  have hfast : decide (200000000 * (fieldOf w.toNat 16 16 + 1) < clkoutMax (fieldOf w.toNat 0 4)) = false := decide_eq_false (by omega)
  have hout : s.clkout w.toNat = { s.clkoutRegs w.toNat 1 0 with
      clk := { s.clk with out := clkoutOf (fieldOf w.toNat 0 4) (fieldOf w.toNat 8 6) (fieldOf w.toNat 16 16 + 1) } } := by
    have hactive : b2n (!false && clkoutMax (fieldOf w.toNat 0 4) != 0) = 1 := by simp [hsome, b2n]
    rw [State.clkout]
    dsimp only
    rw [hfast, if_neg (by decide), hactive]
    rfl
  rw [hout] at honly hregs
  obtain ⟨hsrc, hdiv, hact, htoo, hxonly, hxsame⟩ := s.clkoutRegs_keeps w.toNat (active := 1) (fast := 0) (by decide) (by decide) rfl
  generalize s.clkoutRegs w.toNat 1 0 = x at *
  generalize hy : ({ x with clk := { s.clk with out := clkoutOf (fieldOf w.toNat 0 4) (fieldOf w.toNat 8 6) (fieldOf w.toNat 16 16 + 1) } } : State) = y at *
  have hyregs : y.regs = x.regs := by rw [← hy]
  have hrd : ∀ f : Fld, f.addr ≠ wseqOut → u.rd f = x.rd f := fun f hf => (hregs.rd f (by simpa using hf)).trans (State.rd_of_regs hyregs f)
  have hall : u = { s with regs := u.regs, clk := u.clk } := by rw [honly, ← hy, hxonly]
  refine ⟨(hrd _ (by decide)).trans hsrc, (hrd _ (by decide)).trans hdiv, (hrd _ (by decide)).trans hact, (hrd _ (by decide)).trans htoo,
    by rw [honly, ← hy], hall, (hxsame.andRegs hyregs).trans (hregs.mono (by simp)), by rw [hall]; exact .of_eq rfl rfl rfl rfl⟩

theorem clkout_held (hfast : 200000000 * (fieldOf w.toNat 16 16 + 1) < clkoutMax (fieldOf w.toNat 0 4)) :
    Answers (.clkoutCfgWrite req w) s fun u =>
      u.rd F.CLKOUT_STAT_ACTIVE = 0 ∧ u.rd F.CLKOUT_STAT_TOO_FAST = 1 ∧ bitOf (u.rd Ev.clk.bits) 3 = true ∧
      u = { s with regs := u.regs, hq := u.hq, sched := u.sched, clk := { s.clk with out := u.clk.out } } ∧
      Quiet ([(F.CLKOUT_CFG_SRC).addr, (F.CLKOUT_STAT_ACTIVE).addr, wseqOut] ++ evOut Ev.clk) s u := by
  refine answers_regWrite (apply := fun s => s.clkout w.toNat) rfl hmay fun u honly hregs => ?_
  have hout : s.clkout w.toNat = State.event { s.clkoutRegs w.toNat 0 1 with
      clk := { s.clk with out := clkoutOf (fieldOf w.toNat 0 4) (fieldOf w.toNat 8 6) (fieldOf w.toNat 16 16 + 1) } } Ev.clk 3 := by
    rw [State.clkout]
    dsimp only
    rw [decide_eq_true hfast, if_pos rfl]
    rfl
  rw [hout] at honly hregs
  obtain ⟨-, -, hact, htoo, hxonly, hxsame⟩ := s.clkoutRegs_keeps w.toNat (active := 0) (fast := 1) (by decide) (by decide) rfl
  generalize s.clkoutRegs w.toNat 0 1 = x at *
  generalize hy : ({ x with clk := { s.clk with out := clkoutOf (fieldOf w.toNat 0 4) (fieldOf w.toNat 8 6) (fieldOf w.toNat 16 16 + 1) } } : State) = y at *
  have hyregs : y.regs = x.regs := by rw [← hy]
  have hbit := State.event_bit y Ev.clk (i := 3) (by decide) (by decide)
  have hzonly := State.event_event y Ev.clk 3
  have hzsame := State.event_regs y Ev.clk 3
  generalize y.event Ev.clk 3 = z at *
  have hrd : ∀ f : Fld, f.addr ∉ evOut Ev.clk → f.addr ≠ wseqOut → u.rd f = x.rd f := fun f hf hw =>
    (hregs.rd f (by simpa using hw)).trans ((hzsame.rd f hf).trans (State.rd_of_regs hyregs f))
  have hall : u = { s with regs := u.regs, hq := u.hq, sched := u.sched, clk := { s.clk with out := u.clk.out } } := by
    rw [honly, hzonly, ← hy, hxonly]
  refine ⟨(hrd _ (by decide) (by decide)).trans hact, (hrd _ (by decide) (by decide)).trans htoo, (congrArg (bitOf · 3) (hregs.rd _ (by decide))).trans hbit,
    hall, ?_, by rw [hall]; exact .of_eq rfl rfl rfl rfl⟩
  exact (((hxsame.mono fun _ h => List.mem_append_left _ h).andRegs hyregs).trans (hzsame.mono fun _ h => List.mem_append_right _ h)).trans (hregs.mono (by simp))
end

end Sys2Proof.Machine

open Sys2Proof Sys2Proof.Machine

/-- Settles O39, by the source of the master and what each window, edge and write makes of it. -/
theorem clockLossAndReturn : Obligations.ClockLossAndReturn := by
  refine ⟨fun s => refclkMissing_freezes, fun s hsrc => ?_, fun count s => monitor_good, fun count s => monitor_loses, fun s => switchover_compensates,
    fun s hsrc => ?_, fun req w s => clkReturn_begins, fun s hsrc => ⟨{ s with clk := { s.clk with locked := true } }, ?_, rfl, rfl⟩, fun s hsrc => ?_, fun s => return_completes, fun s hsrc => ?_,
    fun count s => oscillator_bad, fun count s => oscillator_good, fun req w s => forceInt_written, fun req w s => clkout_driven,
    fun req w s => clkout_held⟩
  · show execRefclkMissingEdge s = _
    rw [execRefclkMissingEdge]; exact if_neg (by omega)
  · show execOscillatorSwitchover s = _
    rw [execOscillatorSwitchover]; exact if_neg fun h => hsrc h.1
  · show execFrequencyLock s = _
    rw [execFrequencyLock, if_pos hsrc]
  · show execFrequencyLock s = _
    rw [execFrequencyLock, if_neg hsrc]
  · show execReturnComplete s = _
    rw [execReturnComplete]; exact if_neg fun h => hsrc h.1
end

section
/-! O43 (requests to the SDRAM), R363 to R371: what acceptance, application, a command and the delivery make of one request. -/

set_option Elab.async false

namespace Sys2Proof.Machine

/-! ## The requests shown in flight (R366) -/

theorem State.wrs_cons (s : State) (p : Fld × Nat) (l : List (Fld × Nat)) : s.wrs (p :: l) = (s.wr p.1 p.2).wrs l := rfl

/-- A field that a list of writes gives a value, apart from all that follow it, holds that value. -/
theorem State.rd_wrs_mem {l : List (Fld × Nat)} (hl : l.Pairwise fun p q => p.1.apart q.1 ∧ q.1.apart p.1) (hfit : ∀ p ∈ l, p.1.lsb + p.1.width ≤ 32)
    (s : State) {f : Fld} {v : Nat} (h : (f, v) ∈ l) : (s.wrs l).rd f = v % 2 ^ f.width := by
  have hafter : ∀ (r : List (Fld × Nat)) (s : State), (∀ p ∈ r, p.1.apart f ∧ p.1.lsb + p.1.width ≤ 32) → (s.wrs r).rd f = s.rd f := by
    intro r
    induction r with
    | nil => intro s _; rfl
    | cons p r ih =>
      intro s hr
      obtain ⟨hp, hw⟩ := hr p List.mem_cons_self
      exact (ih (s.wr p.1 p.2) fun q hq => hr q (List.mem_cons_of_mem _ hq)).trans (State.rd_wr_apart _ _ _ _ hw hp)
  induction l generalizing s with
  | nil => exact absurd h List.not_mem_nil
  | cons p r ih =>
    obtain ⟨hp, hr⟩ := List.pairwise_cons.mp hl
    rcases List.mem_cons.mp h with rfl | hmem
    · refine (hafter r (s.wr f v) fun q hq => ⟨(hp q hq).2, hfit q (List.mem_cons_of_mem _ hq)⟩).trans ?_
      exact State.rd_wr_same _ _ _ (hfit _ List.mem_cons_self)
    · exact ih hr (fun q hq => hfit q (List.mem_cons_of_mem _ hq)) (s.wr p.1 p.2) hmem

/-- The fields that show the requests in flight, with what they show. -/
def inFlightFields (l : List DmcReq) : List (Fld × Nat) :=
  (F.DMC_STATUS_IN_FLIGHT, l.length) :: (List.range 6).map fun p => (F.DMC_PORT_STAT_IN_FLIGHT p, (l.filter fun r => r.port == p).length)

/-- The registers in which they lie. -/
def inFlightOut : List Nat := (F.DMC_STATUS_IN_FLIGHT).addr :: (List.range 6).map fun p => (F.DMC_PORT_STAT_IN_FLIGHT p).addr

theorem State.noteDmc_eq (s : State) : s.noteDmc = s.wrs (inFlightFields s.dmc.reqs) := by
  have hfold : ∀ (l : List Nat) (x : State), x.dmc = s.dmc → l.foldl (fun s p => s.wr (F.DMC_PORT_STAT_IN_FLIGHT p)
      (s.dmc.reqs.filter fun r => r.port == p).length) x = x.wrs (l.map fun p => (F.DMC_PORT_STAT_IN_FLIGHT p, (s.dmc.reqs.filter fun r => r.port == p).length)) := by
    intro l
    induction l with
    | nil => intro x _; rfl
    | cons p l ih =>
      intro x hx
      rw [List.foldl_cons, List.map_cons, ih _ ((State.wr_dmc ..).trans hx), hx]
      rfl
  rw [State.noteDmc, inFlightFields, State.wrs_cons]
  exact hfold (List.range 6) _ (State.wr_dmc ..)

theorem State.noteDmc_keeps (s : State) {u : State} (hu : s.noteDmc = u) : RegsOnly s u ∧ RegsSame inFlightOut s u ∧
    u.rd F.DMC_STATUS_IN_FLIGHT = s.dmc.reqs.length % 2 ^ 9 ∧
    ∀ p : Fin 6, u.rd (F.DMC_PORT_STAT_IN_FLIGHT p) = (s.dmc.reqs.filter fun r => r.port == p.1).length % 2 ^ 9 := by
  have hapart : (inFlightFields s.dmc.reqs).Pairwise fun p q => p.1.apart q.1 ∧ q.1.apart p.1 := by
    simp [inFlightFields, List.range_succ, Fld.apart, F.DMC_STATUS_IN_FLIGHT, F.DMC_PORT_STAT_IN_FLIGHT]
  have hfit : ∀ p ∈ inFlightFields s.dmc.reqs, p.1.lsb + p.1.width ≤ 32 := by
    simp [inFlightFields, List.range_succ, F.DMC_STATUS_IN_FLIGHT, F.DMC_PORT_STAT_IN_FLIGHT]
  rw [← hu, State.noteDmc_eq]
  refine ⟨.wrs .., .wrs _ _ fun p hp => ?_, State.rd_wrs_mem hapart hfit s List.mem_cons_self, fun p => ?_⟩
  · rcases List.mem_cons.mp hp with rfl | hp
    · exact List.mem_cons_self
    · obtain ⟨k, hk, rfl⟩ := List.mem_map.mp hp
      exact List.mem_cons_of_mem _ (List.mem_map.mpr ⟨k, hk, rfl⟩)
  · exact State.rd_wrs_mem hapart hfit s (List.mem_cons_of_mem _ (List.mem_map.mpr ⟨p.1, List.mem_range.mpr p.isLt, rfl⟩))

/-! ## Acceptance of the one request that waits (R366) -/

/-- A request that waits alone is accepted. -/
theorem State.acceptReqs_one {s : State} {r : DmcReq} (hreqs : s.dmc.reqs = []) (hwaits : s.dmc.waits = [r]) :
    s.acceptReqs = ({ s with dmc := { s.dmc with reqs := [r], waits := [] } } : State).applyWrites.noteDmc := by
  rw [State.acceptReqs]
  simp [hreqs, hwaits, State.fifoRoom]

theorem State.acceptReqs_none {s : State} (hreqs : s.dmc.reqs = []) (hwaits : s.dmc.waits = []) : s.acceptReqs = s.noteDmc := by
  have hs : ({ s with dmc := { s.dmc with reqs := [], waits := [] } } : State) = s :=
    calc ({ s with dmc := { s.dmc with reqs := [], waits := [] } } : State)
        = { s with dmc := { s.dmc with reqs := s.dmc.reqs, waits := s.dmc.waits } } := by rw [hreqs, hwaits]
      _ = s := rfl
  rw [State.acceptReqs]
  simp only [hreqs, hwaits, List.foldl_nil]
  rw [hs, State.applyWrites, hreqs, List.foldl_nil]

theorem State.applyWrites_read {s : State} {r : DmcReq} (hreqs : s.dmc.reqs = [r]) (hread : r.write = false) : s.applyWrites = s := by
  rw [State.applyWrites, hreqs, List.foldl_cons, List.foldl_nil]
  exact if_neg (by rw [hread]; simp)

/-- The request that a port presents. -/
def State.presented (s : State) (port : Fin 6) (write : Bool) (addr : Nat) (data : List Byte) (be deadline : Nat) : DmcReq :=
  { port := port, order := s.dmc.next, write := write, addr := addr / 64 * 64, data := data, be := be, arrived := s.now
    deadline := if port.1 = 0 then deadline else s.now + (4 * max 1 (s.rd (F.DMC_PORT_CFG_TARGET_NS port)) + 4) / 5 }

/-- A request within the capacity, with no other present, is in flight at once. -/
theorem sdramRequest_accepted {port : Fin 6} {write : Bool} {addr : Nat} {data : List Byte} {be deadline : Nat} {s : State}
    (hcap : addr / 64 * 64 + 64 ≤ s.sdramBytes) (hreqs : s.dmc.reqs = []) (hwaits : s.dmc.waits = []) :
    exec (.sdramRequest port write addr data be deadline) s = .next ({ s with dmc := { s.dmc with
      reqs := [s.presented port write addr data be deadline], waits := [], next := s.dmc.next + 1 } } : State).applyWrites.noteDmc := by
  show execSdramRequest port write addr data be deadline s = _
  rw [execSdramRequest]
  dsimp only
  rw [if_neg (by omega)]
  rw [hwaits, List.nil_append]
  exact congrArg Host.Outcome.next (State.acceptReqs_one (r := s.presented port write addr data be deadline)
    (s := { s with dmc := { s.dmc with waits := [s.presented port write addr data be deadline], next := s.dmc.next + 1 } }) hreqs rfl)

theorem sdramRead_joins {port : Fin 6} {addr : Nat} {data : List Byte} {be deadline : Nat} {s : State}
    (hcap : addr / 64 * 64 + 64 ≤ s.sdramBytes) (hreqs : s.dmc.reqs = []) (hwaits : s.dmc.waits = []) :
    Answers (.sdramRequest port false addr data be deadline) s fun u =>
      (∃ r ∈ u.dmc.reqs, u.dmc.reqs = [r] ∧ (port = 0 → r.deadline = deadline) ∧
        r = { port := port, order := s.dmc.next, write := false, addr := addr / 64 * 64, data := data, be := be, arrived := s.now
              deadline := r.deadline }) ∧
      u.dmc.waits = [] ∧ u.dmc.next = s.dmc.next + 1 ∧ u.dmc.subs = s.dmc.subs ∧ u.sdram = s.sdram ∧
      u.rd F.DMC_STATUS_IN_FLIGHT = 1 ∧ u.rd (F.DMC_PORT_STAT_IN_FLIGHT port) = 1 ∧ u = { s with regs := u.regs, dmc := u.dmc } ∧
      Quiet ((F.DMC_STATUS_IN_FLIGHT).addr :: (List.range 6).map fun p => (F.DMC_PORT_STAT_IN_FLIGHT p).addr) s u := by
  have hexec := sdramRequest_accepted (port := port) (write := false) (data := data) (be := be) (deadline := deadline) hcap hreqs hwaits
  have hport : (s.presented port false addr data be deadline).port = port.1 := rfl
  have hdl : port = 0 → (s.presented port false addr data be deadline).deadline = deadline := fun h => if_pos (by rw [h]; rfl)
  have hrest : s.presented port false addr data be deadline = { port := port, order := s.dmc.next, write := false, addr := addr / 64 * 64, data := data
                                                                be := be, arrived := s.now
                                                                deadline := (s.presented port false addr data be deadline).deadline } := rfl
  have hread : (s.presented port false addr data be deadline).write = false := rfl
  generalize s.presented port false addr data be deadline = r at *
  have hxregs : ({ s with dmc := { s.dmc with reqs := [r], waits := [], next := s.dmc.next + 1 } } : State).regs = s.regs := rfl
  have hxdmc : ({ s with dmc := { s.dmc with reqs := [r], waits := [], next := s.dmc.next + 1 } } : State).dmc =
      { s.dmc with reqs := [r], waits := [], next := s.dmc.next + 1 } := rfl
  generalize hx : ({ s with dmc := { s.dmc with reqs := [r], waits := [], next := s.dmc.next + 1 } } : State) = x at *
  rw [State.applyWrites_read (r := r) (by rw [hxdmc]) hread] at hexec
  obtain ⟨honly, hsame, hall, hports⟩ := x.noteDmc_keeps rfl
  generalize x.noteDmc = u at *
  have hdmc : u.dmc = { s.dmc with reqs := [r], waits := [], next := s.dmc.next + 1 } := by rw [honly, hxdmc]
  have hu : u = { s with regs := u.regs, dmc := u.dmc } := by rw [honly, ← hx]
  refine ⟨u, hexec, ⟨r, by rw [hdmc]; exact List.mem_singleton.mpr rfl, by rw [hdmc], hdl, hrest⟩, by rw [hdmc], by rw [hdmc], by rw [hdmc], by rw [hu],
    by rw [hall, hxdmc]; rfl, ?_, hu, ((RegsSame.refl _ s).andRegs hxregs).trans hsame, by rw [hu]; exact .of_eq rfl rfl rfl rfl⟩
  rw [hports, hxdmc, List.filter_cons_of_pos (by rw [hport]; exact beq_self_eq_true _)]
  rfl

/-! ## A write applied (R366) -/

theorem Mem.byte_putBlock_fold (a be x : Nat) : ∀ (data : List Byte) (k : Nat) (m : Mem),
    Mem.byte ((data.zipIdx k).foldl (fun (m : Mem) (b : Byte × Nat) => if bitOf be b.2 then Mem.put m (a + b.2) b.1 else m) m) x =
      if a + k ≤ x ∧ x < a + k + data.length ∧ bitOf be (x - a) then data.getD (x - (a + k)) 0 else Mem.byte m x
  | [], k, m => by rw [if_neg (by simp only [List.length_nil]; omega)]; rfl
  | b :: data, k, m => by
    rw [List.zipIdx_cons, List.foldl_cons, Mem.byte_putBlock_fold a be x data (k + 1)]
    simp only [List.length_cons]
    by_cases hx : x = a + k
    · subst hx
      rw [if_neg (by omega), Nat.add_sub_cancel_left, Nat.sub_self, List.getD_cons_zero]
      by_cases hb : bitOf be k = true
      · rw [if_pos hb, Mem.byte_put, if_pos rfl, if_pos ⟨by omega, by omega, hb⟩]
      · rw [if_neg hb, if_neg fun h => hb h.2.2]
    · have hbyte : Mem.byte (if bitOf be k then Mem.put m (a + k) b else m) x = Mem.byte m x := by
        split
        · rw [Mem.byte_put, if_neg hx]
        · rfl
      rw [hbyte]
      by_cases hin : a + (k + 1) ≤ x ∧ x < a + (k + 1) + data.length ∧ bitOf be (x - a) = true
      · obtain ⟨hlo, hhi, hb⟩ := hin
        rw [if_pos ⟨hlo, hhi, hb⟩, if_pos ⟨by omega, by omega, hb⟩, show x - (a + k) = (x - (a + (k + 1))) + 1 by omega, List.getD_cons_succ]
      · rw [if_neg hin, if_neg fun h => hin ⟨by omega, by omega, h.2.2⟩]

/-- The bytes of a block after a write: those it enables, and every other one as it was. -/
theorem Mem.byte_putBlock (m : Mem) {a be : Nat} {data : List Byte} (hlen : data.length = 64) (x : Nat) :
    Mem.byte (putBlock m a be data) x = if a ≤ x ∧ x < a + 64 ∧ bitOf be (x - a) then data.getD (x - a) 0 else Mem.byte m x := by
  rw [putBlock, List.take_of_length_le (by omega)]
  have h := Mem.byte_putBlock_fold a be x data 0 m
  rw [hlen, Nat.add_zero] at h
  exact h

/-- What the end of a request changes: its port's counters, and DMC_EVENT where it is late. -/
theorem State.endReq_keeps (s : State) (r : DmcReq) (hport : r.port < 6) {u : State} (hu : s.endReq r = u) : EventOnly s u ∧
    u.rdP (F.DMC_PORT_BYTES_LO_COUNT r.port) = (s.rdP (F.DMC_PORT_BYTES_LO_COUNT r.port) + 64) % 2 ^ 64 ∧
    RegsSame ([(F.DMC_PORT_STAT_LATE r.port).addr, (F.DMC_PORT_LAT_MAX_NS r.port).addr, (F.DMC_PORT_BYTES_LO_COUNT r.port).addr,
      (F.DMC_PORT_BYTES_LO_COUNT r.port).addr + 4] ++ evOut Ev.dmc) s u := by
  obtain ⟨x, hx, hxonly, hxsame⟩ : ∃ x : State, s.endReq r = ((x.wr (F.DMC_PORT_LAT_MAX_NS r.port) (max (x.rd (F.DMC_PORT_LAT_MAX_NS r.port))
      (min 65535 (zx 48 ((s.now : Int) - r.arrived) * 5 / 4)))).wrP (F.DMC_PORT_BYTES_LO_COUNT r.port)
      (((x.wr (F.DMC_PORT_LAT_MAX_NS r.port) (max (x.rd (F.DMC_PORT_LAT_MAX_NS r.port))
      (min 65535 (zx 48 ((s.now : Int) - r.arrived) * 5 / 4)))).rdP (F.DMC_PORT_BYTES_LO_COUNT r.port) + 64) % 2 ^ 64)) ∧ EventOnly s x ∧
      RegsSame ((F.DMC_PORT_STAT_LATE r.port).addr :: evOut Ev.dmc) s x := by
    by_cases hlate : zx 48 ((s.now : Int) - r.deadline) ≠ 0 ∧ reachedAt s.now r.deadline = true
    · refine ⟨(s.incSat (F.DMC_PORT_STAT_LATE r.port)).event Ev.dmc 5, ?_, (RegsOnly.wr ..).event.trans (State.event_event ..),
        (RegsSame.incSat _ _ _ List.mem_cons_self).andEvent fun _ h => List.mem_cons_of_mem _ h⟩
      rw [State.endReq]
      rw [if_pos hlate]
    · refine ⟨s, ?_, .refl s, .refl _ s⟩
      rw [State.endReq]
      rw [if_neg hlate]
  rw [hx] at hu
  have hbytes : x.rdP (F.DMC_PORT_BYTES_LO_COUNT r.port) = s.rdP (F.DMC_PORT_BYTES_LO_COUNT r.port) := by
    refine hxsame.rdP _ ?_ ?_ <;>
      simp only [evOut, Ev.dmc, Ev.sch, F.DMC_PORT_BYTES_LO_COUNT, F.DMC_PORT_STAT_LATE, F.SCH_UNCLAIMED_COUNT, List.mem_cons, List.not_mem_nil, or_false] <;>
      omega
  generalize max (x.rd (F.DMC_PORT_LAT_MAX_NS r.port)) (min 65535 (zx 48 ((s.now : Int) - r.arrived) * 5 / 4)) = m at *
  have hlat : (x.wr (F.DMC_PORT_LAT_MAX_NS r.port) m).rdP (F.DMC_PORT_BYTES_LO_COUNT r.port) = x.rdP (F.DMC_PORT_BYTES_LO_COUNT r.port) := by
    rw [State.rdP, State.rd_wr_other _ _ _ _ (.inl (by simp [F.DMC_PORT_BYTES_LO_COUNT, F.DMC_PORT_LAT_MAX_NS])),
      State.rd_wr_other _ _ _ _ (.inl (by simp only [Fld.hi, F.DMC_PORT_BYTES_LO_COUNT, F.DMC_PORT_LAT_MAX_NS]; omega)), State.rdP]
  have hyonly : RegsOnly x (x.wr (F.DMC_PORT_LAT_MAX_NS r.port) m) := .wr ..
  have hysame := (hxsame.mono (out' := [(F.DMC_PORT_STAT_LATE r.port).addr, (F.DMC_PORT_LAT_MAX_NS r.port).addr, (F.DMC_PORT_BYTES_LO_COUNT r.port).addr,
    (F.DMC_PORT_BYTES_LO_COUNT r.port).addr + 4] ++ evOut Ev.dmc) (by simp +contextual [or_imp])).andWr (f := F.DMC_PORT_LAT_MAX_NS r.port) (v := m) (by simp)
  generalize x.wr (F.DMC_PORT_LAT_MAX_NS r.port) m = y at *
  rw [hlat, hbytes] at hu
  refine ⟨hxonly.trans (hyonly.event.trans (hu ▸ (RegsOnly.wrP ..).event)), ?_, hu ▸ hysame.andWrP (by simp) (by simp)⟩
  rw [← hu, State.rdP_wrP_mod _ _ rfl rfl, Nat.mod_mod]


theorem State.applyWrites_write {s : State} {r : DmcReq} {k : Fin 4} (hreqs : s.dmc.reqs = [r]) (hwrite : r.write = true)
    (hk : fin 4 (s.sdramMap r.addr).1 = k) (hroom : s.dmc.subs[k].writes.length < 32) : s.applyWrites = ({ s with
      sdram := putBlock s.sdram r.addr r.be r.data
      dmc := { s.dmc with subs := upd s.dmc.subs k fun x => { x with writes := x.writes ++ [r] }, reqs := [] } } : State).endReq r := by
  subst hk
  rw [State.applyWrites, hreqs, List.foldl_cons, List.foldl_nil]
  dsimp only
  rw [if_pos (by rw [hwrite, decide_eq_true hroom]; rfl), State.modSub]
  dsimp only
  rw [hreqs, List.filter_cons_of_neg (by simp), List.filter_nil]

theorem sdramWrite_applied {addr : Nat} {data : List Byte} {be deadline : Nat} {s : State} {k : Fin 4} (hk : fin 4 (s.sdramMap (addr / 64 * 64)).1 = k)
    (hcap : addr / 64 * 64 + 64 ≤ s.sdramBytes)
    (hreqs : s.dmc.reqs = []) (hwaits : s.dmc.waits = []) (hlen : data.length = 64)
    (hroom : s.dmc.subs[k].writes.length < 32) :
    Answers (.sdramRequest 0 true addr data be deadline) s fun u =>
      (∀ i : Fin 64, Mem.byte u.sdram (addr / 64 * 64 + i) =
        if bitOf be i then data.getD i 0 else Mem.byte s.sdram (addr / 64 * 64 + i)) ∧
      (∀ a, (∀ i : Fin 64, a ≠ addr / 64 * 64 + i) → Mem.byte u.sdram a = Mem.byte s.sdram a) ∧
      u.canopy = s.canopy ∧ u.flash = s.flash ∧ u.host = s.host ∧ u.dmc.reqs = [] ∧
      (u.dmc.subs[k].writes.length =
        s.dmc.subs[k].writes.length + 1) ∧
      u.rdP (F.DMC_PORT_BYTES_LO_COUNT 0) = (s.rdP (F.DMC_PORT_BYTES_LO_COUNT 0) + 64) % 2 ^ 64 := by
  have hexec := sdramRequest_accepted (port := 0) (write := true) (data := data) (be := be) (deadline := deadline) hcap hreqs hwaits
  obtain ⟨hport, haddr, hdata, hbe, hwrite⟩ : (s.presented 0 true addr data be deadline).port = 0 ∧
      (s.presented 0 true addr data be deadline).addr = addr / 64 * 64 ∧ (s.presented 0 true addr data be deadline).data = data ∧
      (s.presented 0 true addr data be deadline).be = be ∧ (s.presented 0 true addr data be deadline).write = true := ⟨rfl, rfl, rfl, rfl, rfl⟩
  generalize s.presented 0 true addr data be deadline = r at *
  have hzonly : ∀ z : State, ({ s with dmc := { s.dmc with reqs := [r], waits := [], next := s.dmc.next + 1 } } : State) = z →
      z = { s with dmc := z.dmc } ∧ z.dmc.subs = s.dmc.subs ∧ z.dmc.reqs = [r] ∧ z.regs = s.regs ∧ z.sdramMap (addr / 64 * 64) = s.sdramMap (addr / 64 * 64) := by
    rintro z rfl
    exact ⟨rfl, rfl, rfl, rfl, rfl⟩
  generalize ({ s with dmc := { s.dmc with reqs := [r], waits := [], next := s.dmc.next + 1 } } : State) = z at *
  obtain ⟨hz, hzsubs, hzreqs, hzregs, hzmap⟩ := hzonly z rfl
  rw [State.applyWrites_write (r := r) hzreqs hwrite (by rw [haddr, hzmap, hk]) (by rw [hzsubs]; exact hroom), haddr, hdata, hbe] at hexec
  generalize hsubs : upd z.dmc.subs k (fun x => { x with writes := x.writes ++ [r] }) = subs at *
  have hxonly : ∀ x : State, ({ z with sdram := putBlock z.sdram (addr / 64 * 64) be data, dmc := { z.dmc with subs := subs, reqs := [] } } : State) = x →
      x = { s with sdram := putBlock s.sdram (addr / 64 * 64) be data, dmc := x.dmc } ∧ x.dmc.subs = subs ∧ x.dmc.reqs = [] ∧ x.regs = s.regs := by
    rintro x rfl
    rw [hz]
    exact ⟨rfl, rfl, rfl, rfl⟩
  generalize ({ z with sdram := putBlock z.sdram (addr / 64 * 64) be data, dmc := { z.dmc with subs := subs, reqs := [] } } : State) = x at *
  obtain ⟨hx, hxsubs, hxreqs, hxregs⟩ := hxonly x rfl
  obtain ⟨hyonly, hybytes, -⟩ := x.endReq_keeps r (by omega) rfl
  generalize x.endReq r = y at *
  obtain ⟨huonly, husame, -⟩ := y.noteDmc_keeps rfl
  generalize y.noteDmc = u at *
  have hbytes : u.rdP (F.DMC_PORT_BYTES_LO_COUNT 0) = (s.rdP (F.DMC_PORT_BYTES_LO_COUNT 0) + 64) % 2 ^ 64 := by
    rw [husame.rdP _ (by decide) (by decide)]
    rw [hport] at hybytes
    rw [hybytes, ((RegsSame.refl [] s).andRegs hxregs).rdP _ List.not_mem_nil List.not_mem_nil]
  have hsdram : u.sdram = putBlock s.sdram (addr / 64 * 64) be data := by rw [huonly, hyonly, hx]
  have hdmc : u.dmc = x.dmc := by rw [huonly, hyonly]
  refine ⟨u, hexec, fun i => ?_, fun b hb => ?_, by rw [huonly, hyonly, hx], by rw [huonly, hyonly, hx], by rw [huonly, hyonly, hx],
    by rw [hdmc, hxreqs], ?_, hbytes⟩
  · rw [hsdram, Mem.byte_putBlock _ hlen, Nat.add_sub_cancel_left]
    by_cases hb : bitOf be i = true
    · rw [if_pos ⟨by omega, by omega, hb⟩, if_pos hb]
    · rw [if_neg fun h => hb h.2.2, if_neg hb]
  · rw [hsdram, Mem.byte_putBlock _ hlen, if_neg]
    rintro ⟨hlo, hhi, -⟩
    exact hb ⟨b - addr / 64 * 64, by omega⟩ (by simp only; omega)
  · rw [hdmc, hxsubs, ← hsubs, hzsubs, upd_same, List.length_append]
    rfl

/-! ## A subchannel's slot with one read in flight (R365, R369) -/

/-- With one read in flight, and no refresh and no calibration due, the slot serves that read. -/
theorem commandSlot_serves {sub : Fin 4} {r : DmcReq} {s : State} (hready : s.rd F.DMC_STATUS_STATE = 2) (halert : s.dmc.subs[sub].alert = false)
    (hdown : s.dmc.subs[sub].down = false) (hdue : s.dmc.subs[sub].due = 0) (hcals : s.dmc.subs[sub].cals = 0)
    (hwrites : s.dmc.subs[sub].writes = []) (hreqs : s.dmc.reqs = [r]) (hread : r.write = false) (hissued : r.issued = none)
    (hmap : (s.sdramMap r.addr).1 = sub) :
    exec (.commandSlot sub) s = .next ((s.modSub sub fun x => { x with draining := false }).serve sub r) := by
  have hdrain : (!s.dmc.subs[sub].writes.isEmpty && (s.dmc.subs[sub].draining || decide (16 ≤ s.dmc.subs[sub].writes.length) ||
      !(s.dmc.reqs.any fun r => !r.write && r.issued.isNone && (s.sdramMap r.addr).1 == sub.1) ||
      s.dmc.subs[sub].writes.any fun r => decide (s.urgency r ≤ 1))) = false := by rw [hwrites]; rfl
  have hcand : (s.modSub sub fun x => { x with draining := false }).candidates sub = [r] := by
    have hdr : (s.modSub sub fun x => { x with draining := false }).dmc.subs[sub].draining = false := by rw [State.modSub]; exact congrArg _ (upd_same ..)
    have hrq : (s.modSub sub fun x => { x with draining := false }).dmc.reqs = [r] := hreqs
    have hmp : ((s.modSub sub fun x => { x with draining := false }).sdramMap r.addr).1 = sub := hmap
    generalize (s.modSub sub fun x => { x with draining := false }) = x at *
    rw [State.candidates, hdr, hrq, State.fifoRoom, if_pos (by simp [hread, hissued])]
    simp [hread, hissued, hmp]
  show execCommandSlot sub s = _
  rw [execCommandSlot]
  dsimp only
  rw [if_neg (by rw [hready, halert]; simp), hdrain, hcand, hdown, hdue, hcals]
  generalize (s.modSub sub fun x => { x with draining := false }) = x
  simp only [sortBy, List.foldl_cons, List.foldl_nil, insertBy, List.head?_cons]
  simp


/-- `s` with the request `r` of the subchannel `k` marked as found in its page table (R369). -/
def State.markFound (s : State) (k : Fin 4) (r : DmcReq) : State :=
  let mark := fun q : DmcReq => if q.order = r.order then { q with found := true } else q
  { s with dmc := { s.dmc with reqs := s.dmc.reqs.map mark } }.modSub k fun x => { x with writes := x.writes.map mark }

/-- What a step of the controller leaves of `s`: everything but the controller, and of the controller every other subchannel. -/
def SubOnly (k : Fin 4) (s u : State) : Prop := u = { s with dmc := u.dmc } ∧ ∀ j, j ≠ k → u.dmc.subs[j] = s.dmc.subs[j]

theorem SubOnly.refl (k : Fin 4) (s : State) : SubOnly k s s := ⟨rfl, fun _ _ => rfl⟩

theorem SubOnly.trans {k : Fin 4} {s x u : State} (h : SubOnly k s x) (h' : SubOnly k x u) : SubOnly k s u :=
  ⟨by rw [h'.1, h.1], fun j hj => (h'.2 j hj).trans (h.2 j hj)⟩

theorem SubOnly.modSub (k : Fin 4) (s : State) (f : DmcSub → DmcSub) : SubOnly k s (s.modSub k f) :=
  ⟨rfl, fun j hj => upd_other s.dmc.subs k j f hj⟩

theorem SubOnly.withReqs (k : Fin 4) (s : State) (l : List DmcReq) : SubOnly k s { s with dmc := { s.dmc with reqs := l } } :=
  ⟨rfl, fun _ _ => rfl⟩

theorem SubOnly.map {k : Fin 4} {s u : State} (h : SubOnly k s u) (a : Nat) : u.sdramMap a = s.sdramMap a := by rw [h.1]; rfl

theorem SubOnly.col {k : Fin 4} {s u : State} (h : SubOnly k s u) (a : Nat) : u.sdramCol a = s.sdramCol a := by rw [h.1]; rfl

theorem SubOnly.raw {k : Fin 4} {s u : State} (h : SubOnly k s u) : u.tim.raw = s.tim.raw := by rw [h.1]

theorem SubOnly.regs {k : Fin 4} {s u : State} (h : SubOnly k s u) : u.regs = s.regs := by rw [h.1]

theorem State.modSub_same (s : State) (k : Fin 4) (f : DmcSub → DmcSub) : (s.modSub k f).dmc.subs[k] = f s.dmc.subs[k] := upd_same ..

theorem State.modSub_reqs (s : State) (k : Fin 4) (f : DmcSub → DmcSub) : (s.modSub k f).dmc.reqs = s.dmc.reqs := rfl

theorem State.issue_keeps (s : State) (k : Fin 4) (kind bank row order col : Nat) {u : State} (hu : s.issue k kind bank row order col = u) :
    SubOnly k s u ∧ u.dmc.reqs = s.dmc.reqs ∧
    u.dmc.subs[k] = { s.dmc.subs[k] with retry := (⟨kind, bank, row, order, s.tim.raw, col⟩ :: s.dmc.subs[k].retry).take 64 } :=
  hu ▸ ⟨.modSub .., rfl, State.modSub_same ..⟩

theorem State.markFound_keeps {s : State} {k : Fin 4} {r : DmcReq} (hreqs : s.dmc.reqs = [r]) {u : State} (hu : s.markFound k r = u) :
    SubOnly k s u ∧ u.dmc.reqs = [{ r with found := true }] ∧ u.dmc.subs[k].rows = s.dmc.subs[k].rows ∧
    u.dmc.subs[k].retry = s.dmc.subs[k].retry := by
  refine hu ▸ ⟨(SubOnly.withReqs ..).trans (.modSub ..), ?_, by rw [State.markFound, State.modSub_same], by rw [State.markFound, State.modSub_same]⟩
  rw [State.markFound, State.modSub_reqs, hreqs, List.map_cons, List.map_nil, if_pos rfl]

theorem State.pageCount_keeps (s : State) (k : Fin 4) (bank : Nat) (hit : Bool) {u : State} (hu : s.pageCount k bank hit = u) :
    SubOnly k s u ∧ u.dmc.reqs = s.dmc.reqs ∧ u.dmc.subs[k].rows = s.dmc.subs[k].rows ∧ u.dmc.subs[k].retry = s.dmc.subs[k].retry :=
  hu ▸ ⟨.modSub .., rfl, by rw [State.pageCount, State.modSub_same], by rw [State.pageCount, State.modSub_same]⟩

theorem State.serve_closed {s : State} {k : Fin 4} {r : DmcReq} (hrow : s.dmc.subs[k].row (s.sdramMap r.addr).2.1 = none) : s.serve k r =
    (((s.markFound k r).issue k 0 (s.sdramMap r.addr).2.1 (s.sdramMap r.addr).2.2 r.order).incWrap (F.DMC_SC_ACTS_COUNT k)).modSub k fun x =>
      { x with rows := ((s.sdramMap r.addr).2.1, (s.sdramMap r.addr).2.2, streamPort r.port) :: x.rows } := by
  rw [State.serve]
  simp only [hrow, Option.isSome_none, Bool.false_eq_true, and_false, if_false, Option.any_none]
  rfl

/-- A read whose bank is closed: its row is opened (R365). -/
theorem State.serve_activates {s : State} {k : Fin 4} {r : DmcReq} (hreqs : s.dmc.reqs = [r])
    (hrow : s.dmc.subs[k].row (s.sdramMap r.addr).2.1 = none) {u : State} (hu : s.serve k r = u) :
    u.dmc.subs[k].rows = ((s.sdramMap r.addr).2.1, (s.sdramMap r.addr).2.2, streamPort r.port) :: s.dmc.subs[k].rows ∧
    u.dmc.reqs = [{ r with found := true }] ∧
    u.dmc.subs[k].retry = (⟨0, (s.sdramMap r.addr).2.1, (s.sdramMap r.addr).2.2, r.order, s.tim.raw, 0⟩ :: s.dmc.subs[k].retry).take 64 ∧
    ∃ x y : State, SubOnly k s x ∧ x.incWrap (F.DMC_SC_ACTS_COUNT k) = y ∧ SubOnly k y u := by
  rw [State.serve_closed hrow] at hu
  obtain ⟨hx, hxreqs, hxrows, hxretry⟩ := State.markFound_keeps hreqs (k := k) rfl
  generalize s.markFound k r = x at *
  obtain ⟨hy, hyreqs, hysub⟩ := x.issue_keeps k 0 (s.sdramMap r.addr).2.1 (s.sdramMap r.addr).2.2 r.order 0 rfl
  generalize x.issue k 0 (s.sdramMap r.addr).2.1 (s.sdramMap r.addr).2.2 r.order 0 = y at *
  have hzdmc : (y.incWrap (F.DMC_SC_ACTS_COUNT k)).dmc = y.dmc := State.incWrap_dmc ..
  have hz : ∃ x y : State, SubOnly k s x ∧ x.incWrap (F.DMC_SC_ACTS_COUNT k) = y ∧ SubOnly k y u := ⟨y, _, hx.trans hy, rfl, hu ▸ .modSub ..⟩
  generalize y.incWrap (F.DMC_SC_ACTS_COUNT k) = z at *
  refine ⟨?_, ?_, ?_, hz⟩
  · rw [← hu, State.modSub_same, hzdmc, hysub, hxrows]
  · rw [← hu, State.modSub_reqs, hzdmc, hyreqs, hxreqs]
  · rw [← hu, State.modSub_same, hzdmc, hysub, hxretry, hx.raw]

/-- The column access of the request `r` on the row open in its bank. -/
def State.access (s : State) (k : Fin 4) (r : DmcReq) (held keep : Bool) : State :=
  let done := fun q : DmcReq => if q.order = r.order then { q with issued := some s.tim.raw } else q
  let x := (s.issue k (if r.write then 2 else 1) (s.sdramMap r.addr).2.1 (s.sdramMap r.addr).2.2 r.order (s.sdramCol r.addr)).incWrap (F.DMC_SC_HITS_COUNT k)
  { x with dmc := { x.dmc with reqs := x.dmc.reqs.map done } }.modSub k fun x : DmcSub =>
    let rest := x.rows.filter fun y : Nat × Nat × Bool => y.1 != (s.sdramMap r.addr).2.1
    { x with
           rows := if keep then ((s.sdramMap r.addr).2.1, (s.sdramMap r.addr).2.2, held) :: rest else rest
           writes := x.writes.filter fun q => q.order != r.order }

/-- Whether the row stays open behind an access (R369). -/
def State.keepsRow (s : State) (k : Fin 4) (bank : Nat) (held : Bool) : Bool :=
  let ctr : Nat := (cellGet bank s.dmc.subs[k].ctr).getD 0
  held || (s.on F.DMC_PAGE_CFG_PRED_EN && decide (2 ≤ ctr))

theorem State.serve_open {s : State} {k : Fin 4} {r : DmcReq} {held : Bool}
    (hrow : s.dmc.subs[k].row (s.sdramMap r.addr).2.1 = some ((s.sdramMap r.addr).2.2, held)) :
    ∃ x keep, x = (if ¬ r.found = true then s.pageCount k (s.sdramMap r.addr).2.1 true else s) ∧ (streamPort r.port = true → keep = true) ∧
      s.serve k r = (x.markFound k r).access k r (streamPort r.port || held) keep := by
  rw [State.serve]
  simp only [hrow, Option.isSome_some, and_true, Option.any_some, beq_self_eq_true, if_true]
  by_cases hf : r.found = true
  · simp only [hf, Bool.not_true, Bool.false_eq_true, not_true, if_false]
    exact ⟨s, (s.markFound k r).keepsRow k (s.sdramMap r.addr).2.1 (streamPort r.port || held), rfl, fun h => by rw [h]; rfl, rfl⟩
  · simp only [hf, Bool.not_false, if_true]
    exact ⟨s.pageCount k (s.sdramMap r.addr).2.1 true, ((s.pageCount k (s.sdramMap r.addr).2.1 true).markFound k r).keepsRow k (s.sdramMap r.addr).2.1
      (streamPort r.port || held), rfl, fun h => by rw [h]; rfl, rfl⟩

/-- A read whose row is open: its column access issues, and the row stays for a stream port (R365). -/
theorem State.serve_accesses {s : State} {k : Fin 4} {r : DmcReq} {held : Bool} (hreqs : s.dmc.reqs = [r]) (hread : r.write = false)
    (hrow : s.dmc.subs[k].row (s.sdramMap r.addr).2.1 = some ((s.sdramMap r.addr).2.2, held)) {u : State} (hu : s.serve k r = u) :
    u.dmc.reqs = [{ r with found := true, issued := some s.tim.raw }] ∧
    u.dmc.subs[k].retry = (⟨1, (s.sdramMap r.addr).2.1, (s.sdramMap r.addr).2.2, r.order, s.tim.raw, s.sdramCol r.addr⟩ ::
      s.dmc.subs[k].retry).take 64 ∧
    (streamPort r.port = true → u.dmc.subs[k].row (s.sdramMap r.addr).2.1 = some ((s.sdramMap r.addr).2.2, true)) ∧
    ∃ x y : State, SubOnly k s x ∧ x.incWrap (F.DMC_SC_HITS_COUNT k) = y ∧ SubOnly k y u := by
  obtain ⟨w, keep, hw, hkeep, hserve⟩ := State.serve_open hrow
  rw [hserve] at hu
  obtain ⟨hwonly, hwreqs, hwretry⟩ : SubOnly k s w ∧ w.dmc.reqs = s.dmc.reqs ∧ w.dmc.subs[k].retry = s.dmc.subs[k].retry := by
    rw [hw]
    split
    · obtain ⟨honly, hr, -, hretry⟩ := s.pageCount_keeps k (s.sdramMap r.addr).2.1 true rfl
      exact ⟨honly, hr, hretry⟩
    · exact ⟨.refl .., rfl, rfl⟩
  clear hw hserve
  obtain ⟨hx, hxreqs, -, hxretry⟩ := State.markFound_keeps (k := k) (hwreqs.trans hreqs) rfl
  generalize w.markFound k r = x at *
  have hsx := hwonly.trans hx
  rw [State.access, hread, hsx.map, hsx.col] at hu
  dsimp only at hu
  rw [if_neg Bool.false_ne_true] at hu
  obtain ⟨hy, hyreqs, hysub⟩ := x.issue_keeps k 1 (s.sdramMap r.addr).2.1 (s.sdramMap r.addr).2.2 r.order (s.sdramCol r.addr) rfl
  generalize x.issue k 1 (s.sdramMap r.addr).2.1 (s.sdramMap r.addr).2.2 r.order (s.sdramCol r.addr) = y at *
  have hzdmc : (y.incWrap (F.DMC_SC_HITS_COUNT k)).dmc = y.dmc := State.incWrap_dmc ..
  have hz : ∃ x y : State, SubOnly k s x ∧ x.incWrap (F.DMC_SC_HITS_COUNT k) = y ∧ SubOnly k y u :=
    ⟨y, _, hsx.trans hy, rfl, hu ▸ (SubOnly.withReqs ..).trans (.modSub ..)⟩
  generalize y.incWrap (F.DMC_SC_HITS_COUNT k) = z at *
  refine ⟨?_, ?_, fun h => ?_, hz⟩
  · rw [← hu, State.modSub_reqs, hzdmc, hyreqs, hxreqs, List.map_cons, List.map_nil, if_pos rfl, hsx.raw]
  · rw [← hu, State.modSub_same]
    dsimp only
    rw [hzdmc, hysub, hxretry, hwretry, hsx.raw]
  · rw [← hu, State.modSub_same]
    dsimp only
    rw [if_pos (hkeep h), h, DmcSub.row, List.find?_cons_of_pos (by simp)]
    rfl

/-! ## A refresh at its limit (R370) -/

theorem commandSlot_refreshes {sub : Fin 4} {s : State} (hready : s.rd F.DMC_STATUS_STATE = 2) (halert : s.dmc.subs[sub].alert = false)
    (hdown : s.dmc.subs[sub].down = false) (hdue : 4 ≤ s.dmc.subs[sub].due) :
    ∃ drain, exec (.commandSlot sub) s = .next ((s.modSub sub fun x => { x with draining := drain }).refreshNow sub) := by
  show ∃ drain, execCommandSlot sub s = _
  rw [execCommandSlot]
  dsimp only
  rw [if_neg (by rw [hready, halert]; simp), hdown, if_neg Bool.false_ne_true, if_pos hdue]
  exact ⟨_, rfl⟩

theorem State.refreshNow_keeps {s : State} {k : Fin 4} (hburst : s.sdramBurst = false) {u : State} (hu : s.refreshNow k = u) : SubOnly k s u ∧
    u.dmc.reqs = s.dmc.reqs ∧ u.dmc.subs[k].due = s.dmc.subs[k].due - 1 ∧ u.dmc.subs[k].rows = [] ∧
    u.dmc.subs[k].retry = (⟨4, s.dmc.subs[k].refBank, 0, 0, s.tim.raw, 0⟩ :: s.dmc.subs[k].retry).take 64 := by
  rw [State.refreshNow, hburst] at hu
  obtain ⟨hy, hyreqs, hysub⟩ := s.issue_keeps k 4 s.dmc.subs[k].refBank 0 0 0 rfl
  generalize s.issue k 4 s.dmc.subs[k].refBank 0 0 0 = y at *
  rw [← hu]
  refine ⟨hy.trans (.modSub ..), hyreqs, ?_, ?_, ?_⟩
  · rw [State.modSub_same]
    dsimp only
    rw [hysub]
  · rw [State.modSub_same]
    rfl
  · rw [State.modSub_same]
    dsimp only
    rw [hysub]

theorem commandSlot_limit {sub : Fin 4} {s : State} (hready : s.rd F.DMC_STATUS_STATE = 2) (halert : s.dmc.subs[sub].alert = false)
    (hdown : s.dmc.subs[sub].down = false) (hdue : 4 ≤ s.dmc.subs[sub].due) (hburst : s.sdramBurst = false) : Answers (.commandSlot sub) s fun u =>
      u.dmc.subs[sub].due = s.dmc.subs[sub].due - 1 ∧ u.dmc.subs[sub].rows = [] ∧ u.dmc.reqs = s.dmc.reqs ∧
      u.dmc.subs[sub].retry = (⟨4, s.dmc.subs[sub].refBank, 0, 0, s.tim.raw, 0⟩ :: s.dmc.subs[sub].retry).take 64 ∧
      (∀ k, k ≠ sub → u.dmc.subs[k] = s.dmc.subs[k]) ∧ u = { s with dmc := u.dmc } := by
  obtain ⟨drain, hexec⟩ := commandSlot_refreshes hready halert hdown hdue
  have hx : SubOnly sub s (s.modSub sub fun x => { x with draining := drain }) := .modSub ..
  have hxburst : (s.modSub sub fun x => { x with draining := drain }).sdramBurst = false := hburst
  have hxreqs : (s.modSub sub fun x => { x with draining := drain }).dmc.reqs = s.dmc.reqs := rfl
  have hxsub := s.modSub_same sub fun x => { x with draining := drain }
  generalize (s.modSub sub fun x => { x with draining := drain }) = x at *
  obtain ⟨hu, hreqs, hdue, hrows, hretry⟩ := x.refreshNow_keeps hxburst rfl
  generalize x.refreshNow sub = u at *
  obtain ⟨honly, hothers⟩ := hx.trans hu
  exact ⟨u, hexec, by rw [hdue, hxsub], hrows, hreqs.trans hxreqs, by rw [hretry, hxsub, hx.raw], hothers, honly⟩

/-! ## The data of an issued read (R366, R368) -/

theorem readDataReturn_delivers {port : Fin 6} {r : DmcReq} {s : State} (hreqs : s.dmc.reqs = [r]) (hport : r.port = port) (hread : r.write = false)
    (hissued : r.issued.isSome = true) (halert : s.dmc.subs[fin 4 (s.sdramMap r.addr).1].alert = false) (hwaits : s.dmc.waits = []) :
    Answers (.readDataReturn port) s fun u =>
      u.hq.answer = (Mem.bytes s.sdram r.addr 64).map BitVec.toNat ∧ u.dmc.reqs = [] ∧ u.rd F.DMC_STATUS_IN_FLIGHT = 0 ∧
      u.rdP (F.DMC_PORT_BYTES_LO_COUNT port) = (s.rdP (F.DMC_PORT_BYTES_LO_COUNT port) + 64) % 2 ^ 64 ∧ u.dmc.subs = s.dmc.subs ∧
      Quiet ([(F.DMC_STATUS_IN_FLIGHT).addr, (F.DMC_PORT_LAT_MAX_NS port).addr, (F.DMC_PORT_BYTES_LO_COUNT port).addr,
        (F.DMC_PORT_BYTES_LO_COUNT port).addr + 4] ++ (List.range 6).map (fun p => (F.DMC_PORT_STAT_IN_FLIGHT p).addr) ++ evOut Ev.dmc) s u := by
  have hexec : exec (.readDataReturn port) s = .next ((({ s with dmc := { s.dmc with reqs := [] } } : State).endReq r).acceptReqs.answerWith
      ((Mem.bytes s.sdram r.addr 64).map BitVec.toNat)) := by
    show execReadDataReturn port s = _
    rw [execReadDataReturn, hreqs, List.find?_cons_of_pos (by rw [hport, hread, hissued, halert]; simp)]
    dsimp only
    rw [List.filter_cons_of_neg (by simp), List.filter_nil]
  have hxregs : ({ s with dmc := { s.dmc with reqs := [] } } : State).regs = s.regs := rfl
  have hxonly : ∀ x : State, ({ s with dmc := { s.dmc with reqs := [] } } : State) = x → x = { s with dmc := x.dmc } ∧ x.dmc.reqs = [] ∧
      x.dmc.waits = s.dmc.waits ∧ x.dmc.subs = s.dmc.subs := by
    rintro x rfl
    exact ⟨rfl, rfl, rfl, rfl⟩
  generalize ({ s with dmc := { s.dmc with reqs := [] } } : State) = x at *
  obtain ⟨hx, hxreqs, hxwaits, hxsubs⟩ := hxonly x rfl
  obtain ⟨hyonly, hybytes, hysame⟩ := x.endReq_keeps r (by omega) rfl
  generalize x.endReq r = y at *
  have hydmc : y.dmc = x.dmc := by rw [hyonly]
  rw [State.acceptReqs_none (by rw [hydmc, hxreqs]) (by rw [hydmc, hxwaits, hwaits])] at hexec
  obtain ⟨hzonly, hzsame, hzall, -⟩ := y.noteDmc_keeps rfl
  generalize y.noteDmc = z at *
  have hsame : RegsSame ([(F.DMC_STATUS_IN_FLIGHT).addr, (F.DMC_PORT_LAT_MAX_NS port).addr, (F.DMC_PORT_BYTES_LO_COUNT port).addr,
      (F.DMC_PORT_BYTES_LO_COUNT port).addr + 4] ++ (List.range 6).map (fun p => (F.DMC_PORT_STAT_IN_FLIGHT p).addr) ++ evOut Ev.dmc) s z := by
    rw [hport] at hysame
    refine (((RegsSame.refl _ s).andRegs hxregs).trans (hysame.mono ?_)).trans (hzsame.mono ?_)
    · have hlate : (F.DMC_PORT_STAT_LATE port).addr ∈ (List.range 6).map fun p => (F.DMC_PORT_STAT_IN_FLIGHT p).addr :=
        List.mem_map.mpr ⟨port.1, List.mem_range.mpr port.isLt, rfl⟩
      generalize (List.range 6).map (fun p => (F.DMC_PORT_STAT_IN_FLIGHT p).addr) = l at *
      simp +contextual [or_imp, hlate]
    · simp +contextual [or_imp, inFlightOut]
  have hbytes : z.rdP (F.DMC_PORT_BYTES_LO_COUNT port) = (s.rdP (F.DMC_PORT_BYTES_LO_COUNT port) + 64) % 2 ^ 64 := by
    rw [hport] at hybytes
    rw [hzsame.rdP _ (by fin_cases port <;> decide) (by fin_cases port <;> decide), hybytes, ((RegsSame.refl [] s).andRegs hxregs).rdP _ List.not_mem_nil List.not_mem_nil]
  have hzdmc : z.dmc = x.dmc := by rw [hzonly, hydmc]
  have hzbytes : BytesSame s z := by
    rw [hzonly, hyonly, hx]
    exact .of_eq rfl rfl rfl rfl
  refine ⟨_, hexec, rfl, by rw [State.answerWith_dmc, hzdmc, hxreqs], ?_, hbytes, ?_, hsame, hzbytes⟩
  · show z.rd _ = 0
    rw [hzall, hydmc, hxreqs]
    rfl
  · show z.dmc.subs = _
    rw [hzdmc, hxsubs]

/-- A counter that the controller counts up between two of its own changes. -/
theorem counted_keeps {k : Fin 4} {s x y u : State} {f : Fld} (hf : f.lsb + f.width ≤ 32) (hx : SubOnly k s x) (hinc : x.incWrap f = y)
    (hu : SubOnly k y u) : u.rd f = (s.rd f + 1) % 2 ^ f.width ∧ (∀ j, j ≠ k → u.dmc.subs[j] = s.dmc.subs[j]) ∧
    u = { s with regs := u.regs, dmc := u.dmc } ∧ Quiet [f.addr] s u := by
  have hy : RegsOnly x y := hinc ▸ RegsOnly.wr ..
  have hsame : RegsSame [f.addr] s u :=
    (((RegsSame.refl _ s).andRegs hx.regs).trans (hinc ▸ RegsSame.incWrap x f 1 List.mem_cons_self)).andRegs hu.regs
  have honly : u = { s with regs := u.regs, dmc := u.dmc } := by rw [hu.1, hy, hx.1]
  have hydmc : y.dmc = x.dmc := by rw [hy]
  refine ⟨?_, fun j hj => ?_, honly, hsame, by rw [honly]; exact .of_eq rfl rfl rfl rfl⟩
  · rw [((RegsSame.refl [] y).andRegs hu.regs).rd _ List.not_mem_nil, ← hinc, State.incWrap, State.rd_wr_same _ _ _ hf,
      ((RegsSame.refl [] s).andRegs hx.regs).rd _ List.not_mem_nil]
  · rw [hu.2 j hj, hydmc, hx.2 j hj]

end Sys2Proof.Machine

open Sys2Proof Sys2Proof.Machine

/-- Settles O43: a request is followed from its acceptance, a subchannel's slot through the page table to the command it issues, and an
issued read to its delivery. -/
theorem sdramRequests : Obligations.SdramRequests := by
  refine ⟨fun port addr data be deadline s hcap => ⟨⟨_, if_pos hcap, rfl⟩, if_pos hcap⟩, fun _ _ _ _ _ _ => sdramRead_joins,
    fun _ _ _ _ _ hcap hreqs hwaits hlen hroom => sdramWrite_applied rfl hcap hreqs hwaits hlen hroom, fun sub s hstate => if_pos (.inl hstate),
    fun sub s halert => if_pos (.inr halert), fun sub r s hready halert hdown hdue hcals hwrites hreqs hread hissued hmap hrow => ?_,
    fun sub r held s hready halert hdown hdue hcals hwrites hreqs hread hissued hmap hrow => ?_, fun _ _ => commandSlot_limit,
    fun _ _ _ => readDataReturn_delivers, fun port s hnone => ?_⟩
  · have hexec := commandSlot_serves hready halert hdown hdue hcals hwrites hreqs hread hissued hmap
    have hx : SubOnly sub s (s.modSub sub fun x => { x with draining := false }) := .modSub ..
    have hxreqs : (s.modSub sub fun x => { x with draining := false }).dmc.reqs = [r] := hreqs
    have hxsub := s.modSub_same sub fun x => { x with draining := false }
    generalize (s.modSub sub fun x => { x with draining := false }) = x at *
    obtain ⟨hrows, hureqs, hretry, y, z, hy, hinc, hz⟩ := State.serve_activates (s := x) (k := sub) (r := r) hxreqs (by rw [hxsub, hx.map]; exact hrow) rfl
    generalize x.serve sub r = u at *
    obtain ⟨hcount, hothers, honly, hquiet⟩ := counted_keeps (f := F.DMC_SC_ACTS_COUNT sub) (Nat.le_refl 32) (hx.trans hy) hinc hz
    rw [hxsub, hx.map] at hrows
    rw [hxsub, hx.map, hx.raw] at hretry
    exact ⟨u, hexec, hrows, hureqs, hretry, hcount, hothers, honly, hquiet⟩
  · have hexec := commandSlot_serves hready halert hdown hdue hcals hwrites hreqs hread hissued hmap
    have hx : SubOnly sub s (s.modSub sub fun x => { x with draining := false }) := .modSub ..
    have hxreqs : (s.modSub sub fun x => { x with draining := false }).dmc.reqs = [r] := hreqs
    have hxsub := s.modSub_same sub fun x => { x with draining := false }
    generalize (s.modSub sub fun x => { x with draining := false }) = x at *
    obtain ⟨hureqs, hretry, hopen, y, z, hy, hinc, hz⟩ := State.serve_accesses (s := x) (k := sub) (r := r) (held := held) hxreqs hread
      (by rw [hxsub, hx.map]; exact hrow) rfl
    generalize x.serve sub r = u at *
    obtain ⟨hcount, hothers, honly, hquiet⟩ := counted_keeps (f := F.DMC_SC_HITS_COUNT sub) (Nat.le_refl 32) (hx.trans hy) hinc hz
    rw [hx.map] at hopen
    rw [hx.raw] at hureqs
    rw [hxsub, hx.map, hx.col, hx.raw] at hretry
    exact ⟨u, hexec, hureqs, hretry, hcount, hopen, hothers, honly, hquiet⟩
  · show execReadDataReturn port s = _
    rw [execReadDataReturn, List.find?_eq_none.mpr fun r hr h => ?_]
    simp only [Bool.and_eq_true, beq_iff_eq] at h
    obtain ⟨⟨⟨hport, -⟩, hissued⟩, -⟩ := h
    rw [hnone r hr hport] at hissued
    exact absurd hissued (by simp)

end

section
/-! O50 (sessions), R442 to R446: the security service reached, and what it does with the nonce, the role and the failures of its port. -/

set_option Elab.async false

namespace Sys2Proof.Machine

/-- A port whose command can begin runs it, on a state that differs by the command's own place in its queue. -/
theorem State.onPort_ready {s : State} {p : Port} {opc : Nat} (hp : s.portReady p opc) :
    ∃ v, BegunOnly s v ∧ ∀ run, s.onPort p opc run = run v := by
  obtain ⟨hdone, hport⟩ := hp
  cases p with
  | host h =>
    obtain ⟨v, hv, hrun⟩ := State.begin_ready hport
    exact ⟨v, hv, fun run => by rw [State.onPort, if_pos hdone]; exact hrun run⟩
  | sideband => exact ⟨s, ⟨rfl, rfl⟩, fun run => by rw [State.onPort, if_pos hdone]⟩

theorem State.ifApproved_pos {s : State} (hs : s.on F.SEC_STATUS_APPROVED = true) (p : Port) (run : State → State) : s.ifApproved p run = run s := if_pos hs

theorem BegunOnly.rd {s v : State} (h : BegunOnly s v) (f : Fld) : v.rd f = s.rd f := State.rd_of_regs h.regs f

theorem BegunOnly.on {s v : State} (h : BegunOnly s v) (f : Fld) : v.on f = s.on f := by rw [State.on, h.rd, State.on]

theorem BegunOnly.sec {s v : State} (h : BegunOnly s v) : v.sec = s.sec := by rw [h.1]

/-- The answer to a port, on a state whose completions are those of `s`. -/
theorem Replies.of_completeP {s v : State} (hv : v.hq.compls = s.hq.compls) (p : Port) (status detail result : Nat) :
    Replies s (v.completeP p status detail result) p status detail result := by
  cases p with
  | host h => exact Completes.of_complete hv
  | sideband => rfl

theorem State.completeP_keeps (v : State) (p : Port) (status detail result : Nat) {u : State} (hu : v.completeP p status detail result = u) :
    u = { v with hq := u.hq } := by
  subst hu
  cases p <;> rfl

/-- A command that only answers. -/
theorem answersOnly {c : Instr} {s v : State} {p : Port} {status detail result : Nat} (hv : BegunOnly s v)
    (hexec : exec c s = .next (v.completeP p status detail result)) :
    Answers c s fun u => Replies s u p status detail result ∧ u = { s with hq := u.hq } := by
  have hreply := Replies.of_completeP hv.2 p status detail result
  have honly := v.completeP_keeps p status detail result rfl
  generalize v.completeP p status detail result = u at *
  exact ⟨u, hexec, hreply, by rw [honly, hv.1]⟩

/-! ## A nonce asked for (R443) -/

/-- A role that a session can ask for, with the number of its key. -/
def sessionRole (role keyIndex : Nat) : Prop := role = 1 ∧ keyIndex ≤ 7 ∨ role = 2 ∧ keyIndex = 0

theorem sessionRole_iff (role keyIndex : Nat) : (!(role == 1 && decide (keyIndex ≤ 7) || role == 2 && keyIndex == 0)) = true ↔ ¬ sessionRole role keyIndex := by
  rw [Bool.not_eq_true', ← Bool.not_eq_true]
  simp only [sessionRole, Bool.or_eq_true, Bool.and_eq_true, beq_iff_eq, decide_eq_true_eq]

theorem exec_authBegin {p : Port} {role keyIndex dest : Nat} {s : State} (hp : s.portReady p 0x40) : ∃ v, BegunOnly s v ∧
    exec (.authBegin p role keyIndex dest) s = .next (if !(role == 1 && decide (keyIndex ≤ 7) || role == 2 && keyIndex == 0) then v.completeP p stBadOperand
      else v.ifApproved p fun s =>
        if s.on (portLockout p) then s.completeP p 0x03 approved
        else if (s.roleKey role keyIndex).isNone then s.completeP p 0x04 approved
        else (((s.reseed.draw 48).2.setNonce p (some ⟨role, keyIndex, (s.reseed.draw 48).1, false⟩)).giveNonce p dest (s.reseed.draw 48).1)) := by
  obtain ⟨v, hv, hrun⟩ := State.onPort_ready hp
  exact ⟨v, hv, congrArg Host.Outcome.next (hrun _)⟩

/-- The state behind the bytes of a nonce: reseeded, and drawn from. -/
theorem State.reseedDraw_keeps (s : State) {l : List Byte} {x : State} (hx : s.reseed.draw 48 = (l, x)) :
    l = (List.range 48).map (fun i => Config.drbgByte (s.sec.drawn + i)) ∧ x = { s with regs := x.regs, sec := x.sec } ∧
    x.sec.hostNonce = s.sec.hostNonce ∧ x.sec.sbNonce = s.sec.sbNonce ∧ x.regs = (s.incWrap F.SEC_DRBG_RESEEDS).regs := by
  rw [State.draw] at hx
  rw [if_neg (show ¬ 2 ^ 20 ≤ s.reseed.sec.requests by show ¬ 2 ^ 20 ≤ 0; omega)] at hx
  obtain ⟨rfl, rfl⟩ := Prod.mk.inj hx
  exact ⟨rfl, rfl, rfl, rfl, rfl⟩

/-- A nonce is granted to a port that is open for a role with a key. -/
theorem exec_authBegin_granted {p : Port} {role keyIndex dest key : Nat} {s : State} (hp : s.portReady p 0x40) (hrole : sessionRole role keyIndex)
    (happ : s.on F.SEC_STATUS_APPROVED = true) (hlock : s.on (portLockout p) = false) (hkey : s.roleKey role keyIndex = some key) :
    ∃ v l x, BegunOnly s v ∧ v.reseed.draw 48 = (l, x) ∧
      exec (.authBegin p role keyIndex dest) s = .next ((x.setNonce p (some ⟨role, keyIndex, l, false⟩)).giveNonce p dest l) := by
  obtain ⟨v, hv, hexec⟩ := exec_authBegin (role := role) (keyIndex := keyIndex) (dest := dest) hp
  have hvkey : v.roleKey role keyIndex = some key := by rw [State.roleKey, hv.sec]; exact hkey
  rw [if_neg fun h => (sessionRole_iff ..).mp h hrole, State.ifApproved_pos ((hv.on _).trans happ), if_neg (by rw [hv.on, hlock]; simp), hvkey,
    if_neg (by simp)] at hexec
  exact ⟨v, _, _, hv, rfl, hexec⟩

theorem authBegin_host {h : Hdr} {role keyIndex dest key : Nat} {s : State} (hp : s.portReady (.host h) 0x40) (hrole : sessionRole role keyIndex)
    (happ : s.on F.SEC_STATUS_APPROVED = true) (hlock : s.on F.SEC_STATUS_LOCKOUT_HOST = false) (hkey : s.roleKey role keyIndex = some key) :
    Answers (.authBegin (.host h) role keyIndex dest) s fun u =>
      u.sec.hostNonce = some ⟨role, keyIndex, (List.range 48).map fun i => Config.drbgByte (s.sec.drawn + i), false⟩ ∧
      (∀ i : Fin 48, Mem.byte u.host (dest + i) = Config.drbgByte (s.sec.drawn + i)) ∧
      (∀ a, a < dest ∨ dest + 48 ≤ a → Mem.byte u.host a = Mem.byte s.host a) ∧ Completes s u h stOk approved 0 ∧
      u.rd F.SEC_DRBG_RESEEDS = (s.rd F.SEC_DRBG_RESEEDS + 1) % 2 ^ 32 ∧ u.sec.sbNonce = s.sec.sbNonce ∧
      u.rd F.SEC_STATUS_HOST_ROLE = s.rd F.SEC_STATUS_HOST_ROLE := by
  obtain ⟨v, l, x, hv, hdraw, hexec⟩ := exec_authBegin_granted (dest := dest) hp hrole happ hlock hkey
  obtain ⟨hl, hx, -, hsb, hregs⟩ := v.reseedDraw_keeps hdraw
  have hrd : ∀ f, x.rd f = (v.incWrap F.SEC_DRBG_RESEEDS).rd f := State.rd_of_regs hregs
  rw [hv.sec] at hl hsb
  have hlen : l.length = 48 := by rw [hl, List.length_map, List.length_range]
  have hhost : x.host = s.host := by rw [hx, hv.1]
  have hcompl : x.hq.compls = s.hq.compls := by rw [hx, hv.2]
  refine ⟨_, hexec, by rw [← hl]; rfl, fun i => ?_, fun a ha => ?_, congrArg (· ++ [_]) hcompl, ?_, hsb, ?_⟩
  · show Mem.byte (Mem.puts x.host dest l) _ = _
    rw [Mem.byte_puts, dif_pos (by omega)]
    simp only [hl, List.getElem_map, List.getElem_range]
    rw [Nat.add_sub_cancel_left]
  · show Mem.byte (Mem.puts x.host dest l) _ = _
    rw [Mem.byte_puts, dif_neg (by omega), hhost]
  · show x.rd _ = _
    rw [hrd, State.incWrap, State.rd_wr_same _ _ _ (by decide), hv.rd]
    rfl
  · show x.rd _ = _
    rw [hrd, State.incWrap, State.rd_wr_other _ _ _ _ (.inl (by decide)), hv.rd]

theorem authBegin_sideband {role keyIndex dest key : Nat} {s : State} (hp : s.portReady .sideband 0x40) (hrole : sessionRole role keyIndex)
    (happ : s.on F.SEC_STATUS_APPROVED = true) (hlock : s.on F.SEC_STATUS_LOCKOUT_SB = false) (hkey : s.roleKey role keyIndex = some key) :
    Answers (.authBegin .sideband role keyIndex dest) s fun u =>
      u.sec.sbNonce = some ⟨role, keyIndex, (List.range 48).map fun i => Config.drbgByte (s.sec.drawn + i), false⟩ ∧
      u.hq.answer = [stOk, 0, approved] ++ (List.range 48).map (fun i => (Config.drbgByte (s.sec.drawn + i)).toNat) ∧ u.host = s.host ∧
      u.sec.hostNonce = s.sec.hostNonce := by
  obtain ⟨v, l, x, hv, hdraw, hexec⟩ := exec_authBegin_granted (dest := dest) hp hrole happ hlock hkey
  obtain ⟨hl, hx, hhost, -, -⟩ := v.reseedDraw_keeps hdraw
  rw [hv.sec] at hl hhost
  have hmem : x.host = s.host := by rw [hx, hv.1]
  refine ⟨_, hexec, by rw [← hl]; rfl, ?_, hmem, hhost⟩
  show [stOk, 0, approved] ++ l.map (·.toNat) = _
  rw [hl, List.map_map]
  rfl

/-! ## A nonce answered (R444) -/

theorem State.nonceOf_of_sec {s u : State} (h : u.sec = s.sec) (p : Port) : u.nonceOf p = s.nonceOf p := by rw [State.nonceOf, h, State.nonceOf]

theorem exec_authFinish {p : Port} {sig : Src} {l : List Byte} {s : State} (hp : s.portReady p 0x41) (hok : s.sourceOk sig 96 = true)
    (hl : s.source sig 96 = some l) (happ : s.on F.SEC_STATUS_APPROVED = true) : ∃ v, BegunOnly s v ∧
    (s.nonceOf p = none → exec (.authFinish p sig) s = .next (v.completeP p 0x02 approved)) ∧
    ∀ n, s.nonceOf p = some n → exec (.authFinish p sig) s = .next (
      if !n.expired && (((v.setNonce p none).roleKey n.role n.index).any fun k => ecdsaVerify k (authMessage p n) l) then
        ((((v.setNonce p none).setFails p 0).wr (portRole p) n.role).event Ev.sec 0).completeP p stOk approved n.role
      else (v.setNonce p none).authFailed p) := by
  obtain ⟨v, hv, hrun⟩ := State.onPort_ready hp
  have hvok : v.sourceOk sig 96 = true := by rw [hv.1]; exact hok
  have hvl : v.source sig 96 = some l := by rw [hv.1]; exact hl
  have hnonce : v.nonceOf p = s.nonceOf p := State.nonceOf_of_sec hv.sec p
  refine ⟨v, hv, fun hn => ?_, fun n hn => ?_⟩
  all_goals
    show execAuthFinish p sig s = _
    rw [execAuthFinish, hrun, if_neg (by rw [hvok]; simp), State.ifApproved_pos ((hv.on _).trans happ), hvl, hnonce, hn]

theorem State.nonceOf_setNonce (s : State) (p : Port) (n : Option Nonce) : (s.setNonce p n).nonceOf p = n := by cases p <;> rfl

theorem State.failsOf_setFails (s : State) (p : Port) (n : Nat) : (s.setFails p n).failsOf p = n := by cases p <;> rfl

theorem State.failsOf_of_sec {s u : State} (h : u.sec = s.sec) (p : Port) : u.failsOf p = s.failsOf p := by rw [State.failsOf, h, State.failsOf]

theorem portFields_apart (p : Port) : (portRole p).lsb + (portRole p).width ≤ 32 ∧ (portLockout p).lsb + (portLockout p).width ≤ 32 ∧
    (portRole p).addr ∉ evOut Ev.sec ∧ (portLockout p).addr ∉ evOut Ev.sec ∧ (portLockout p).apart (portRole p) ∧ (portRole p).width = 2 ∧
    (portLockout p).width = 1 ∧ (portRole p).addr = 0xE8000 ∧ (portLockout p).addr = 0xE8000 := by
  have hnum : portNum p = 0 ∨ portNum p = 1 := by cases p <;> simp [portNum]
  rcases hnum with h | h <;> rw [portRole, portLockout, h] <;> decide


/-- The port's state once its nonce is spent and its failures number `k`. -/
def State.spent (s : State) (p : Port) (k : Nat) : State := (s.setNonce p none).setFails p k

theorem State.spent_keeps (s : State) (p : Port) (k : Nat) {x : State} (hx : s.spent p k = x) : x.nonceOf p = none ∧ x.failsOf p = k ∧
    x.regs = s.regs ∧ x.hq = s.hq := by
  subst hx
  cases p <;> exact ⟨rfl, rfl, rfl, rfl⟩

theorem Signalled.raise (s : State) (r : EvReg) (bits : Nat) : Signalled s (s.raise r bits) := (Signalled.of_hq (State.wr_hq ..)).trans (Signalled.raised ..)

/-- What a signature that verifies gives. -/
theorem State.signedIn_keeps {s x u : State} {p : Port} {role : Nat} (hcompls : x.hq.compls = s.hq.compls)
    (hu : ((x.wr (portRole p) role).event Ev.sec 0).completeP p stOk approved role = u) : u.sec = x.sec ∧ Replies s u p stOk approved role ∧
    u.rd (portRole p) = role % 4 ∧ bitOf (u.rd Ev.sec.bits) 0 = true := by
  obtain ⟨hrole, -, hroleEv, -, -, hwidth, -, -, -⟩ := portFields_apart p
  have hyonly : RegsOnly x (x.wr (portRole p) role) := .wr ..
  have hyrole := State.rd_wr_same x (portRole p) role hrole
  have hyhq : (x.wr (portRole p) role).hq.compls = s.hq.compls := hcompls
  rw [hwidth] at hyrole
  generalize x.wr (portRole p) role = y at *
  have hzonly := y.event_event Ev.sec 0
  have hzrole := (y.event_regs Ev.sec 0).rd (portRole p) hroleEv
  have hzbit := y.event_bit Ev.sec (i := 0) (by decide) (by decide)
  have hzhq := (Signalled.event y Ev.sec 0).compls
  generalize y.event Ev.sec 0 = z at *
  have hreply := Replies.of_completeP (hzhq.trans hyhq) p stOk approved role
  have honly := z.completeP_keeps p stOk approved role rfl
  rw [hu] at hreply honly
  have hregs : u.regs = z.regs := by rw [honly]
  exact ⟨by rw [honly, hzonly, hyonly], hreply, by rw [State.rd_of_regs hregs, hzrole, hyrole]; rfl, by rw [State.rd_of_regs hregs]; exact hzbit⟩

/-- The failure numbered `k` of a port counted, with the lockout from the eighth on. -/
def State.countFailure (x : State) (p : Port) (k : Nat) : State :=
  if 8 ≤ k then ((x.incSat F.SEC_AUTH_FAIL_COUNT).wr (portLockout p) 1).raise Ev.sec (2 ^ 1 + 2 ^ 9)
  else (x.incSat F.SEC_AUTH_FAIL_COUNT).event Ev.sec 1

theorem State.authFailed_eq (s : State) (p : Port) : s.authFailed p = ((s.setFails p (s.failsOf p + 1)).countFailure p (s.failsOf p + 1)).completeP p 0x01 approved := rfl

/-- What a failed signature leaves: the failure counted, and the port locked out from the eighth on. -/
theorem State.authFailed_keeps {s x u : State} {p : Port} {k : Nat} (hcompls : x.hq.compls = s.hq.compls) (hregs : x.regs = s.regs)
    (hu : (x.countFailure p k).completeP p 0x01 approved = u) :
    u.sec = x.sec ∧ Replies s u p 0x01 approved 0 ∧ u.rd (portRole p) = s.rd (portRole p) ∧
    u.rd F.SEC_AUTH_FAIL_COUNT = min (s.rd F.SEC_AUTH_FAIL_COUNT + 1) 65535 ∧ bitOf (u.rd Ev.sec.bits) 1 = true ∧
    (8 ≤ k → u.on (portLockout p) = true ∧ bitOf (u.rd Ev.sec.bits) 9 = true) := by
  obtain ⟨hrole, hlock, hroleEv, hlockEv, hapart, -, hwidth, hroleAt, hlockAt⟩ := portFields_apart p
  rw [State.countFailure] at hu
  have hyonly : RegsOnly x (x.incSat F.SEC_AUTH_FAIL_COUNT) := .wr ..
  have hycount := x.rd_incSat F.SEC_AUTH_FAIL_COUNT (by decide)
  have hyrole : (x.incSat F.SEC_AUTH_FAIL_COUNT).rd (portRole p) = x.rd (portRole p) := State.rd_wr_other _ _ _ _ (.inl (by rw [hroleAt]; decide))
  rw [State.rd_of_regs hregs] at hycount hyrole
  have hyhq : (x.incSat F.SEC_AUTH_FAIL_COUNT).hq.compls = s.hq.compls := hcompls
  generalize x.incSat F.SEC_AUTH_FAIL_COUNT = y at *
  have hz : ∀ z : State, (if 8 ≤ k then (y.wr (portLockout p) 1).raise Ev.sec (2 ^ 1 + 2 ^ 9) else y.event Ev.sec 1) = z → EventOnly y z ∧
      z.hq.compls = y.hq.compls ∧ z.rd (portRole p) = y.rd (portRole p) ∧ z.rd F.SEC_AUTH_FAIL_COUNT = y.rd F.SEC_AUTH_FAIL_COUNT ∧
      bitOf (z.rd Ev.sec.bits) 1 = true ∧ (8 ≤ k → z.on (portLockout p) = true ∧ bitOf (z.rd Ev.sec.bits) 9 = true) := by
    rintro z rfl
    by_cases hk : 8 ≤ k
    · rw [if_pos hk]
      have hw : RegsOnly y (y.wr (portLockout p) 1) := .wr ..
      have hwhq : (y.wr (portLockout p) 1).hq = y.hq := State.wr_hq ..
      have hwlock := State.rd_wr_same y (portLockout p) 1 hlock
      have hwrole := State.rd_wr_apart y _ _ 1 hlock hapart
      have hwcount : (y.wr (portLockout p) 1).rd F.SEC_AUTH_FAIL_COUNT = y.rd F.SEC_AUTH_FAIL_COUNT :=
        State.rd_wr_other _ _ _ _ (.inl (by rw [hlockAt]; decide))
      generalize y.wr (portLockout p) 1 = w at *
      have hbits := w.raise_bits Ev.sec (2 ^ 1 + 2 ^ 9) (by decide)
      have hsame := w.raise_regs Ev.sec (2 ^ 1 + 2 ^ 9)
      have hbit : ∀ i, i < 32 → (2 ^ 1 + 2 ^ 9).testBit i = true → bitOf ((w.raise Ev.sec (2 ^ 1 + 2 ^ 9)).rd Ev.sec.bits) i = true := by
        intro i hi hb
        rw [hbits]
        simp only [bitOf, Nat.testBit_mod_two_pow, Nat.testBit_or, hi, hb, decide_true, Bool.or_true, Bool.and_true]
      refine ⟨hw.event.trans (w.raise_event ..), by rw [(Signalled.raise w ..).compls, hwhq], (hsame.rd _ hroleEv).trans hwrole,
        (hsame.rd _ (by decide)).trans hwcount, hbit 1 (by decide) (by decide), fun _ => ⟨?_, hbit 9 (by decide) (by decide)⟩⟩
      rw [State.on, hsame.rd _ hlockEv, hwlock, hwidth]
      rfl
    · rw [if_neg hk]
      have hsame := y.event_regs Ev.sec 1
      exact ⟨y.event_event .., (Signalled.event y Ev.sec 1).compls, hsame.rd _ hroleEv, hsame.rd _ (by decide),
        y.event_bit Ev.sec (by decide) (by decide), fun h => absurd h hk⟩
  generalize (if 8 ≤ k then (y.wr (portLockout p) 1).raise Ev.sec (2 ^ 1 + 2 ^ 9) else y.event Ev.sec 1) = z at *
  obtain ⟨hzonly, hzhq, hzrole, hzcount, hzbit, hzlock⟩ := hz z rfl
  have hreply := Replies.of_completeP (hzhq.trans hyhq) p 0x01 approved 0
  have honly := z.completeP_keeps p 0x01 approved 0 rfl
  rw [hu] at hreply honly
  have huregs : ∀ f, u.rd f = z.rd f := State.rd_of_regs (by rw [honly])
  refine ⟨by rw [honly, hzonly, hyonly], hreply, by rw [huregs, hzrole, hyrole], ?_, by rw [huregs]; exact hzbit, fun h => ?_⟩
  · rw [huregs, hzcount, hycount]
    rfl
  · rw [State.on, huregs, huregs]
    exact hzlock h

theorem authFinish_answered {p : Port} {sig : Src} {l : List Byte} {n : Nonce} {s : State} (hp : s.portReady p 0x41) (hok : s.sourceOk sig 96 = true)
    (hl : s.source sig 96 = some l) (happ : s.on F.SEC_STATUS_APPROVED = true) (hn : s.nonceOf p = some n) : Answers (.authFinish p sig) s fun u =>
      u.nonceOf p = none ∧
      (if !n.expired && ((s.roleKey n.role n.index).any fun k => ecdsaVerify k (authMessage p n) l) then
        Replies s u p stOk approved n.role ∧ u.rd (portRole p) = n.role % 4 ∧ u.failsOf p = 0 ∧ bitOf (u.rd Ev.sec.bits) 0 = true
      else
        Replies s u p 0x01 approved 0 ∧ u.rd (portRole p) = s.rd (portRole p) ∧ u.failsOf p = s.failsOf p + 1 ∧
        u.rd F.SEC_AUTH_FAIL_COUNT = min (s.rd F.SEC_AUTH_FAIL_COUNT + 1) 65535 ∧ bitOf (u.rd Ev.sec.bits) 1 = true ∧
        (7 ≤ s.failsOf p → u.on (portLockout p) = true ∧ bitOf (u.rd Ev.sec.bits) 9 = true)) := by
  obtain ⟨v, hv, -, hsome⟩ := exec_authFinish hp hok hl happ
  have hexec := hsome n hn
  have hkey : (v.setNonce p none).roleKey n.role n.index = s.roleKey n.role n.index := by
    rw [State.roleKey, State.roleKey, ← hv.sec]
    cases p <;> rfl
  have hfails : (v.setNonce p none).failsOf p = s.failsOf p := by
    rw [← State.failsOf_of_sec hv.sec p]
    cases p <;> rfl
  rw [hkey] at hexec
  by_cases hgood : (!n.expired && ((s.roleKey n.role n.index).any fun k => ecdsaVerify k (authMessage p n) l)) = true
  · rw [if_pos hgood] at hexec
    obtain ⟨hnonce, hzero, -, hhq⟩ := v.spent_keeps p 0 rfl
    change exec (.authFinish p sig) s = .next ((((v.spent p 0).wr (portRole p) n.role).event Ev.sec 0).completeP p stOk approved n.role) at hexec
    obtain ⟨hsec, hreply, hrole, hbit⟩ := State.signedIn_keeps (s := s) (x := v.spent p 0) (p := p) (role := n.role) (by rw [hhq, hv.2]) rfl
    generalize ((((v.spent p 0).wr (portRole p) n.role).event Ev.sec 0).completeP p stOk approved n.role) = u at *
    refine ⟨u, hexec, (State.nonceOf_of_sec hsec p).trans hnonce, ?_⟩
    rw [if_pos hgood]
    exact ⟨hreply, hrole, (State.failsOf_of_sec hsec p).trans hzero, hbit⟩
  · rw [if_neg hgood, State.authFailed_eq, hfails] at hexec
    obtain ⟨hnonce, hcount, hregs, hhq⟩ := v.spent_keeps p (s.failsOf p + 1) rfl
    change exec (.authFinish p sig) s = .next (((v.spent p (s.failsOf p + 1)).countFailure p (s.failsOf p + 1)).completeP p 0x01 approved) at hexec
    obtain ⟨hsec, hreply, hrole, hfail, hbit, hlock⟩ := State.authFailed_keeps (s := s) (x := v.spent p (s.failsOf p + 1)) (p := p) (k := s.failsOf p + 1) (by rw [hhq, hv.2])
      (hregs.trans hv.regs) rfl
    generalize (((v.spent p (s.failsOf p + 1)).countFailure p (s.failsOf p + 1)).completeP p 0x01 approved) = u at *
    refine ⟨u, hexec, (State.nonceOf_of_sec hsec p).trans hnonce, ?_⟩
    rw [if_neg hgood]
    exact ⟨hreply, hrole, (State.failsOf_of_sec hsec p).trans hcount, hfail, hbit, fun h => hlock (by omega)⟩


/-! ## A session ended (R445, R446) -/

theorem exec_logout {p : Port} {s : State} (hp : s.portReady p 0x42) : ∃ v, BegunOnly s v ∧
    exec (.logout p) s = .next (v.ifApproved p fun s => (s.wr (portRole p) 0).completeP p stOk approved) := by
  obtain ⟨v, hv, hrun⟩ := State.onPort_ready hp
  exact ⟨v, hv, congrArg Host.Outcome.next (hrun _)⟩

theorem logout_ends {p : Port} {s : State} (hp : s.portReady p 0x42) (happ : s.on F.SEC_STATUS_APPROVED = true) : Answers (.logout p) s fun u =>
    Replies s u p stOk approved 0 ∧ u.rd (portRole p) = 0 ∧ u = { s with regs := u.regs, hq := u.hq } ∧ Quiet [(portRole p).addr] s u := by
  obtain ⟨v, hv, hexec⟩ := exec_logout hp
  rw [State.ifApproved_pos ((hv.on _).trans happ)] at hexec
  have hrole := State.rd_wr_same v (portRole p) 0 (portFields_apart p).1
  have hsame := ((RegsSame.refl [(portRole p).addr] s).andRegs hv.regs).andWr (f := portRole p) (v := 0) List.mem_cons_self
  have hxonly : RegsOnly v (v.wr (portRole p) 0) := .wr ..
  have hxhq : (v.wr (portRole p) 0).hq = v.hq := State.wr_hq ..
  generalize v.wr (portRole p) 0 = x at *
  have hreply := Replies.of_completeP (s := s) (by rw [hxhq, hv.2]) p stOk approved 0
  have honly := x.completeP_keeps p stOk approved 0 rfl
  generalize x.completeP p stOk approved 0 = u at *
  have huregs : u.regs = x.regs := by rw [honly]
  have hall : u = { s with regs := u.regs, hq := u.hq } := by rw [honly, hxonly, hv.1]
  refine ⟨u, hexec, hreply, ?_, hall, hsame.andRegs huregs, by rw [hall]; exact .of_eq rfl rfl rfl rfl⟩
  rw [State.rd_of_regs huregs, hrole, Nat.zero_mod]

theorem lockoutExpiry_ends (s : State) (f g : Fld) (hf : f.lsb + f.width ≤ 32) (hfg : f.apart g) {u : State} (hu : s.wr f 0 = u) :
    u.rd f = 0 ∧ u.rd g = s.rd g ∧ RegsOnly s u ∧ Quiet [f.addr] s u := by
  subst hu
  exact ⟨by rw [State.rd_wr_same _ _ _ hf, Nat.zero_mod], State.rd_wr_apart _ _ _ _ hf hfg, .wr .., .wr _ _ _ List.mem_cons_self, .of_eq rfl rfl rfl rfl⟩

end Sys2Proof.Machine

open Sys2Proof Sys2Proof.Machine

/-- Settles O50: each service runs on the state with its command begun, where its checks decide. -/
theorem sessions : Obligations.Sessions := by
  refine ⟨fun _ _ _ _ _ _ => authBegin_host, fun _ _ _ _ _ => authBegin_sideband, fun p role keyIndex dest s hp hrole => ?_,
    fun p role keyIndex dest s hp hrole happ hlock => ?_, fun p role keyIndex dest s hp hrole happ hlock hkey => ?_, fun _ _ _ _ _ => authFinish_answered,
    fun p sig l s hp hok hl happ hn => ?_, fun _ _ => logout_ends, fun p s hp happ => ?_, fun s => ⟨_, rfl, rfl⟩, fun s => ⟨_, rfl, rfl⟩,
    fun s => ⟨_, rfl, lockoutExpiry_ends s _ _ (by decide) (by decide) rfl⟩, fun s => ⟨_, rfl, lockoutExpiry_ends s _ _ (by decide) (by decide) rfl⟩⟩
  · obtain ⟨v, hv, hexec⟩ := exec_authBegin (role := role) (keyIndex := keyIndex) (dest := dest) hp
    rw [if_pos ((sessionRole_iff ..).mpr hrole)] at hexec
    exact answersOnly hv hexec
  · obtain ⟨v, hv, hexec⟩ := exec_authBegin (role := role) (keyIndex := keyIndex) (dest := dest) hp
    rw [if_neg fun h => (sessionRole_iff ..).mp h hrole, State.ifApproved_pos ((hv.on _).trans happ), if_pos ((hv.on _).trans hlock)] at hexec
    exact answersOnly hv hexec
  · obtain ⟨v, hv, hexec⟩ := exec_authBegin (role := role) (keyIndex := keyIndex) (dest := dest) hp
    have hvkey : v.roleKey role keyIndex = none := by rw [State.roleKey, hv.sec]; exact hkey
    rw [if_neg fun h => (sessionRole_iff ..).mp h hrole, State.ifApproved_pos ((hv.on _).trans happ), if_neg (by rw [hv.on, hlock]; simp), hvkey,
      if_pos Option.isNone_none] at hexec
    exact answersOnly hv hexec
  · obtain ⟨v, hv, hnone, -⟩ := exec_authFinish hp hok hl happ
    exact answersOnly hv (hnone hn)
  · obtain ⟨v, hv, hexec⟩ := exec_logout hp
    rw [State.ifApproved, if_neg (by rw [hv.on, happ]; simp), hv.rd] at hexec
    exact answersOnly hv hexec

end

section
/-! O47 (power sequencing), R280 and R403 to R405: what the module reset keeps, and the ledger, the rails and the Understory around it. -/

set_option Elab.async false

namespace Sys2Proof.Machine

/-! ## The module reset (R403) -/

theorem State.wrs_append (s : State) (l l' : List (Fld × Nat)) : s.wrs (l ++ l') = (s.wrs l).wrs l' := List.foldl_append

theorem State.word_wrs {l : List (Fld × Nat)} {b : Blk} {a : Nat} (h : ∀ p ∈ l, a ≠ p.1.addr ∨ b ≠ p.1.blk) (s : State) :
    (s.wrs l).word b a = s.word b a := by
  induction l generalizing s with
  | nil => rfl
  | cons p l ih =>
    rw [State.wrs_cons, ih (fun q hq => h q (List.mem_cons_of_mem _ hq)), State.word_wr _ _ _ _ _ (h p List.mem_cons_self)]

/-- The fields of the nominal rails. -/
def railFields : List Fld := [1, 2, 3, 4, 5].flatMap fun r => [F.PWR_RAIL_SET_MV r, F.PWR_RAIL_LIM_OV_PCT r, F.PWR_RAIL_LIM_UV_PCT r]

/-- The nominal rails of a reset, each with its reset value. -/
def nominalRails : List (Fld × Nat) := railFields.map fun f => (f, State.reset.rd f)

/-- The floor classes of a reset. -/
def floorClasses : List (Fld × Nat) := ((List.range 64).map F.FLT_CLASS_CLASS).map fun f => (f, State.reset.rd f)

/-- What the module reset keeps of `s`, before it writes the registers of the empty structure. -/
def State.resetBase (s : State) : State :=
  let going := s.rd F.FLT_STATUS_STATE = 2
  { State.reset with
    regs := { State.reset.regs with
      pwr := s.regs.pwr, flt := if going then s.regs.flt else keepRegs (fun a => decide (0xF8320 ≤ a) && decide (a < 0xF8340)) s.regs.flt
      sec := keepRegs secKept s.regs.sec, cmp := keepRegs (fun a => decide (0xA1000 ≤ a) && decide (a < 0xA1080)) s.regs.cmp }
    flash := s.flash, host := s.host, fab := { capTherm := s.fab.capTherm, capVin := s.fab.capVin }
    flt := if going then s.flt else { active := s.flt.active, records := s.flt.records, recSeq := s.flt.recSeq, resetLow := s.flt.resetLow }
    sec := s.sec.afterReset, power := s.power, boot := { timerReset := s.boot.timerReset }, freeCtr := s.freeCtr, pending := s.pending }

theorem State.mainReset_eq (s : State) (keepSb : Bool) : ∃ v w x y z : Nat, s.mainReset keepSb = ((s.resetBase.wrs nominalRails).wrs floorClasses).wrs
    [(F.SEC_STATUS_LIFECYCLE, v), (F.SEC_STATUS_TAMPERED, w), (F.SEC_STATUS_CONF_IMAGES, x), (F.SEC_STATUS_SB_ROLE, y), (F.FAB_GRANT_CEIL, z)] := by
  refine ⟨if s.sec.owner.isSome then 2 else 1, s.rd F.SEC_STATUS_TAMPERED, s.rd F.SEC_STATUS_CONF_IMAGES,
    if keepSb then s.rd F.SEC_STATUS_SB_ROLE else 0, min s.fab.capTherm s.fab.capVin, ?_⟩
  rw [State.mainReset, ← State.wrs_append s.resetBase, nominalRails, railFields, floorClasses, ← List.map_append]
  rfl

/-- The state behind a module reset: the main die afresh, and what the keeper domain, the Understory, flash and host memory hold. -/
structure ResetFrom (s u : State) : Prop where
  eq : u = { State.reset with
    regs := u.regs, flash := s.flash, host := s.host, fab := u.fab, flt := u.flt, sec := s.sec.afterReset, power := s.power
    boot := u.boot, freeCtr := s.freeCtr, pending := s.pending }
  records : u.flt.records = s.flt.records
  power : ∀ a, a ∉ railOut → u.word .pwr a = s.word .pwr a
  rails : ∀ r ∈ [1, 2, 3, 4, 5], u.rd (F.PWR_RAIL_SET_MV r) = State.reset.rd (F.PWR_RAIL_SET_MV r) ∧
    u.rd (F.PWR_RAIL_LIM_OV_PCT r) = State.reset.rd (F.PWR_RAIL_LIM_OV_PCT r) ∧
    u.rd (F.PWR_RAIL_LIM_UV_PCT r) = State.reset.rd (F.PWR_RAIL_LIM_UV_PCT r)

theorem State.resetBase_keeps (s : State) {n : State} (hn : s.resetBase = n) : n = { State.reset with
      regs := n.regs, flash := s.flash, host := s.host, fab := n.fab, flt := n.flt, sec := s.sec.afterReset, power := s.power
      boot := n.boot, freeCtr := s.freeCtr, pending := s.pending } ∧ n.flt.records = s.flt.records ∧ n.regs.pwr = s.regs.pwr := by
  subst hn
  refine ⟨rfl, ?_, rfl⟩
  rw [State.resetBase]
  dsimp only
  split <;> rfl

theorem railFields_apart : railFields.Pairwise (fun f g => f.apart g ∧ g.apart f) ∧
    ∀ f ∈ railFields, f.lsb + f.width ≤ 32 ∧ f.addr ∈ railOut ∧ f.blk = .pwr := by decide

theorem floorClasses_blk : ∀ p ∈ floorClasses, p.1.blk = .flt := by
  intro p hp
  simp only [floorClasses, List.map_map, List.mem_map] at hp
  obtain ⟨i, -, rfl⟩ := hp
  rfl

theorem State.mainReset_from (s : State) (keepSb : Bool) {u : State} (hu : s.mainReset keepSb = u) : ResetFrom s u := by
  obtain ⟨v, w, x, y, z, heq⟩ := s.mainReset_eq keepSb
  rw [hu] at heq
  obtain ⟨hn, hrec, hpwr⟩ := s.resetBase_keeps rfl
  generalize s.resetBase = n at *
  obtain ⟨hapart, hfields⟩ := railFields_apart
  have hmem : ∀ p ∈ nominalRails, p.1 ∈ railFields := fun p hp => by
    obtain ⟨f, hf, rfl⟩ := List.mem_map.mp hp
    exact hf
  have hrail : ∀ f ∈ railFields, (n.wrs nominalRails).rd f = State.reset.rd f := fun f hf => by
    rw [State.rd_wrs_mem (l := nominalRails) (List.pairwise_map.mpr hapart) (fun p hp => (hfields p.1 (hmem p hp)).1) n
      (show (f, State.reset.rd f) ∈ nominalRails from List.mem_map_of_mem hf),
      Nat.mod_eq_of_lt (State.rd_lt ..)]
  have hrword : ∀ a, a ∉ railOut → (n.wrs nominalRails).word .pwr a = s.word .pwr a := by
    intro a ha
    rw [State.word_wrs fun p hp => .inl fun h : a = p.1.addr => ha (h ▸ (hfields p.1 (hmem p hp)).2.1)]
    show ((cellGet a n.regs.pwr).getD (resetWord .pwr a) : Word) = _
    rw [hpwr]
    rfl
  have hronly : RegsOnly n (n.wrs nominalRails) := .wrs ..
  generalize n.wrs nominalRails = m at *
  have hcword : ∀ a, (m.wrs floorClasses).word .pwr a = m.word .pwr a := fun a =>
    State.word_wrs (fun p hp => .inr (by rw [floorClasses_blk p hp]; decide)) m
  have hconly : RegsOnly m (m.wrs floorClasses) := .wrs ..
  generalize m.wrs floorClasses = k at *
  have huword : ∀ a, u.word .pwr a = k.word .pwr a := fun a => by
    rw [heq]
    exact State.word_wrs (by simp [F.SEC_STATUS_LIFECYCLE, F.SEC_STATUS_TAMPERED, F.SEC_STATUS_CONF_IMAGES, F.SEC_STATUS_SB_ROLE, F.FAB_GRANT_CEIL]) k
  have huonly : RegsOnly k u := by rw [heq]; exact .wrs ..
  have honly : RegsOnly n u := (hronly.trans hconly).trans huonly
  have hval : ∀ f ∈ railFields, u.rd f = State.reset.rd f := fun f hf => by
    rw [← hrail f hf]
    exact State.rd_of_word f (by rw [(hfields f hf).2.2, huword, hcword])
  refine ⟨by rw [honly, hn], by rw [honly]; exact hrec, fun a ha => by rw [huword, hcword, hrword a ha], fun r hr => ?_⟩
  have hin : ∀ f ∈ [F.PWR_RAIL_SET_MV r, F.PWR_RAIL_LIM_OV_PCT r, F.PWR_RAIL_LIM_UV_PCT r], f ∈ railFields := fun f hf =>
    List.mem_flatMap.mpr ⟨r, hr, hf⟩
  exact ⟨hval _ (hin _ (by simp)), hval _ (hin _ (by simp)), hval _ (hin _ (by simp))⟩


/-- What the reset leaves of the main die: no work, no memory, and units as at reset. -/
theorem ResetFrom.afresh {s u : State} (h : ResetFrom s u) : u.bursts = [] ∧ u.canopy = [] ∧ u.sdram = [] ∧ u.threads = State.reset.threads ∧
    u.groves = State.reset.groves := by
  rw [h.eq]
  exact ⟨rfl, rfl, rfl, rfl, rfl⟩

theorem ResetFrom.kept {s u : State} (h : ResetFrom s u) : u.flash = s.flash ∧ u.host = s.host ∧ u.pending = s.pending ∧ u.sec.keys = s.sec.keys ∧
    u.power = s.power := by
  rw [h.eq]
  exact ⟨rfl, rfl, rfl, rfl, rfl⟩

theorem ResetFrom.rdPower {s u : State} (h : ResetFrom s u) {f : Fld} (hblk : f.blk = .pwr) (hout : f.addr ∉ railOut) : u.rd f = s.rd f :=
  State.rd_of_word f (by rw [hblk]; exact h.power _ hout)

/-! ## VIN and the rails (R403) -/

theorem State.wearEvents_none {s : State} (hhot : s.rdP F.PWR_WEAR_HOT_LO_US < 460800000000) {u : State} (hu : s.wearEvents 0 = u) : RegsOnly s u ∧
    RegsSame [Ev.pwr.ev] s u := by
  subst hu
  rw [State.wearEvents]
  dsimp only
  rw [decide_eq_false (by omega), decide_eq_false (by omega)]
  show RegsOnly s (s.raise Ev.pwr 0) ∧ RegsSame [Ev.pwr.ev] s (s.raise Ev.pwr 0)
  have hraise : s.raise Ev.pwr 0 = s.wr Ev.pwr.bits (s.rd Ev.pwr.bits ||| 0) := by
    rw [State.raise]
    rw [show without 0 (s.rd Ev.pwr.bits) &&& s.rd Ev.pwr.enable = 0 by simp [without], State.raised, if_pos rfl]
  rw [hraise]
  exact ⟨.wr .., .wr _ _ _ List.mem_cons_self⟩

theorem State.setLedger_keeps (s : State) (l : Ledger) {u : State} (hu : s.setLedger l = u) : RegsOnly s u ∧
    u.rdP F.PWR_WEAR_HOT_LO_US = l.hot % 2 ^ 64 ∧ u.rd F.PWR_WEAR_CRIT_COUNT = l.crit % 2 ^ 16 := by
  subst hu
  have hx := s.rdP_wrP_mod (f := F.PWR_WEAR_HOT_LO_US) l.hot rfl rfl
  have hxonly : RegsOnly s (s.wrP F.PWR_WEAR_HOT_LO_US l.hot) := .wrP ..
  rw [State.setLedger]
  generalize s.wrP F.PWR_WEAR_HOT_LO_US l.hot = x at *
  have hy : (x.wrP F.PWR_WEAR_LIM_LO_US l.lim).rdP F.PWR_WEAR_HOT_LO_US = l.hot % 2 ^ 64 := (State.rdP_wrP_apart _ _ (by decide)).trans hx
  have hyonly : RegsOnly x (x.wrP F.PWR_WEAR_LIM_LO_US l.lim) := .wrP ..
  generalize x.wrP F.PWR_WEAR_LIM_LO_US l.lim = y at *
  refine ⟨(hxonly.trans hyonly).trans (.wrs ..), ?_, State.rd_wrs_mem ?_ ?_ y List.mem_cons_self⟩
  · rw [(RegsSame.wrs y (out := [(F.PWR_WEAR_CRIT_COUNT).addr, (F.PWR_WEAR_POH_HOURS).addr, (F.PWR_WEAR_PEAK_TEMP).addr]) _ (by simp)).rdP _
      (by decide) (by decide), hy]
  · simp [Fld.apart, F.PWR_WEAR_CRIT_COUNT, F.PWR_WEAR_POH_HOURS, F.PWR_WEAR_PEAK_TEMP]
  · simp [F.PWR_WEAR_CRIT_COUNT, F.PWR_WEAR_POH_HOURS, F.PWR_WEAR_PEAK_TEMP]

theorem vinRise_starts {s : State} (hhouse : s.power.house = false) (hpresent : s.power.present = true) (hkept : s.power.kept.hot < 460800000000)
    (hstored : s.power.stored.hot < 460800000000) (hkc : s.power.kept.crit < 65536) (hsc : s.power.stored.crit < 65536) : Answers .vinRise s fun u =>
      u.power.house = true ∧ u.power.cold = true ∧
      u.rdP F.PWR_WEAR_HOT_LO_US = max s.power.kept.hot s.power.stored.hot ∧
      u.rd F.PWR_WEAR_CRIT_COUNT = max s.power.kept.crit s.power.stored.crit ∧ u = { s with regs := u.regs, power := u.power } ∧ BytesSame s u := by
  have hexec : exec .vinRise s = .next ((({ s with power := { s.power with house := true, cold := true } }).setLedger
      (s.power.kept.larger s.power.stored)).wearEvents 0) := by
    show execVinRise s = _
    rw [execVinRise, if_neg (by rw [hhouse, hpresent]; simp)]
  have hlhot : (s.power.kept.larger s.power.stored).hot = max s.power.kept.hot s.power.stored.hot := rfl
  have hlcrit : (s.power.kept.larger s.power.stored).crit = max s.power.kept.crit s.power.stored.crit := rfl
  generalize s.power.kept.larger s.power.stored = l at *
  have hxonly : ∀ x : State, ({ s with power := { s.power with house := true, cold := true } } : State) = x → x = { s with power := x.power } ∧
      x.power.house = true ∧ x.power.cold = true := by
    rintro x rfl
    exact ⟨rfl, rfl, rfl⟩
  generalize ({ s with power := { s.power with house := true, cold := true } } : State) = x at *
  obtain ⟨hx, hxhouse, hxcold⟩ := hxonly x rfl
  obtain ⟨hyonly, hyhot, hycrit⟩ := x.setLedger_keeps l rfl
  generalize x.setLedger l = y at *
  rw [hlhot, Nat.mod_eq_of_lt (by omega)] at hyhot
  rw [hlcrit, Nat.mod_eq_of_lt (by omega)] at hycrit
  obtain ⟨honly, hsame⟩ := y.wearEvents_none (by omega) rfl
  generalize y.wearEvents 0 = u at *
  have hpower : u.power = x.power := by rw [honly, hyonly]
  have hu : u = { s with regs := u.regs, power := u.power } := by rw [honly, hyonly, hx]
  exact ⟨u, hexec, by rw [hpower, hxhouse], by rw [hpower, hxcold], by rw [hsame.rdP _ (by decide) (by decide), hyhot],
    by rw [hsame.rd _ (by decide), hycrit], hu, by rw [hu]; exact .of_eq rfl rfl rfl rfl⟩

/-- What the good rail `r` shows. -/
theorem State.railShown_keeps (s : State) (r : Fin 7) {u : State}
    (hu : s.wr F.PWR_STATUS_RAIL_GOOD (s.rd F.PWR_STATUS_RAIL_GOOD ||| 2 ^ r.1) = u) : RegsOnly s u ∧ RegsSame [(F.PWR_STATUS_RAIL_GOOD).addr] s u ∧
    ∀ k : Nat, bitOf (u.rd F.PWR_STATUS_RAIL_GOOD) k = (bitOf (s.rd F.PWR_STATUS_RAIL_GOOD) k || decide (k = r.1)) := by
  subst hu
  refine ⟨.wr .., .wr _ _ _ List.mem_cons_self, fun k => ?_⟩
  have hlt : s.rd F.PWR_STATUS_RAIL_GOOD ||| 2 ^ r.1 < 2 ^ 7 :=
    Nat.or_lt_two_pow (State.rd_lt s F.PWR_STATUS_RAIL_GOOD) (Nat.pow_lt_pow_right (by decide) r.isLt)
  rw [State.rd_wr_same _ _ _ (by decide), show (F.PWR_STATUS_RAIL_GOOD).width = 7 from rfl, Nat.mod_eq_of_lt hlt, bitOf, bitOf, Nat.testBit_or, Nat.testBit_two_pow]
  simp only [eq_comm]

/-- A rail reported in its turn is shown good, and held no longer; the last one of a cold start takes the main die out of reset. -/
theorem exec_railGood {r : Fin 7} {s : State} (hhouse : s.power.house = true) (hbefore : r.1 = 6 ∨ ∀ k ∈ railOrder.takeWhile (fun k => k != r.1),
    bitOf (s.rd F.PWR_STATUS_RAIL_GOOD) k = true) : ∃ x : State, s.wr F.PWR_STATUS_RAIL_GOOD (s.rd F.PWR_STATUS_RAIL_GOOD ||| 2 ^ r.1) = x ∧
    exec (.railGood r) s = (if s.power.cold = true ∧ railOrder.all (bitOf (x.rd F.PWR_STATUS_RAIL_GOOD)) = true then
      .next { ({ x with power := { s.power with holding := without s.power.holding (2 ^ r.1) } } : State).mainReset with
        power := { s.power with holding := without s.power.holding (2 ^ r.1), cold := false } }
    else .next { x with power := { s.power with holding := without s.power.holding (2 ^ r.1) } }) := by
  refine ⟨_, rfl, ?_⟩
  show execRailGood r s = _
  rw [execRailGood]
  dsimp only
  rw [if_neg]
  · rfl
  · simp only [hhouse, Bool.not_true, Bool.false_or, Bool.and_eq_true, bne_iff_ne, ne_eq, Bool.not_eq_true', ← Bool.not_eq_true, List.all_eq_true]
    rintro ⟨hne, hall⟩
    exact hall (hbefore.resolve_left hne)

theorem railGood_shown {r : Fin 7} {s : State} (hhouse : s.power.house = true) (hcold : s.power.cold = false)
    (hbefore : ∀ k ∈ railOrder.takeWhile (fun k => k != r.1), bitOf (s.rd F.PWR_STATUS_RAIL_GOOD) k = true) : Answers (.railGood r) s fun u =>
      bitOf (u.rd F.PWR_STATUS_RAIL_GOOD) r = true ∧
      (∀ k : Fin 7, k ≠ r → bitOf (u.rd F.PWR_STATUS_RAIL_GOOD) k = bitOf (s.rd F.PWR_STATUS_RAIL_GOOD) k) ∧
      u = { s with regs := u.regs, power := u.power } ∧ Quiet [(F.PWR_STATUS_RAIL_GOOD).addr] s u := by
  obtain ⟨x, hx, hexec⟩ := exec_railGood hhouse (.inr hbefore)
  obtain ⟨honly, hsame, hgood⟩ := s.railShown_keeps r hx
  rw [if_neg (by rw [hcold]; simp)] at hexec
  refine ⟨_, hexec, ?_, fun k hk => ?_, by rw [honly], hsame, by rw [honly]; exact .of_eq rfl rfl rfl rfl⟩
  · refine (congrArg (bitOf · r) (State.rd_of_regs (s := x) (by rfl) F.PWR_STATUS_RAIL_GOOD)).trans ?_
    rw [hgood, decide_eq_true rfl, Bool.or_true]
  · refine (congrArg (bitOf · k) (State.rd_of_regs (s := x) (by rfl) F.PWR_STATUS_RAIL_GOOD)).trans ?_
    rw [hgood, decide_eq_false (fun h => hk (Fin.ext h)), Bool.or_false]

theorem railGood_last {s : State} (hhouse : s.power.house = true) (hcold : s.power.cold = true)
    (hbefore : ∀ k ∈ [0, 5, 4, 3, 2], bitOf (s.rd F.PWR_STATUS_RAIL_GOOD) k = true) : Answers (.railGood 1) s fun u =>
      u.power.cold = false ∧ bitOf (u.rd F.PWR_STATUS_RAIL_GOOD) 1 = true ∧ u.bursts = [] ∧ u.canopy = [] ∧ u.sdram = [] ∧
      u.threads = State.reset.threads ∧ u.groves = State.reset.groves ∧ u.flash = s.flash ∧ u.host = s.host ∧ u.pending = s.pending ∧
      u.flt.records = s.flt.records ∧ u.sec.keys = s.sec.keys := by
  obtain ⟨x, hx, hexec⟩ := exec_railGood (r := 1) hhouse (.inr hbefore)
  obtain ⟨honly, hsame, hgood⟩ := s.railShown_keeps 1 hx
  have hall : ∀ k ∈ railOrder, bitOf (x.rd F.PWR_STATUS_RAIL_GOOD) k = true := by
    intro k hk
    rw [hgood]
    rcases List.mem_append.mp (show k ∈ [0, 5, 4, 3, 2] ++ [1] from hk) with h | h
    · rw [hbefore k h, Bool.true_or]
    · rw [List.mem_singleton.mp h]
      simp
  rw [if_pos ⟨hcold, List.all_eq_true.mpr hall⟩] at hexec
  generalize without s.power.holding (2 ^ (1 : Fin 7).1) = held at *
  have hwonly : ∀ w : State, ({ x with power := { s.power with holding := held } } : State) = w → w.regs = x.regs ∧ w.flash = x.flash ∧
      w.host = x.host ∧ w.pending = x.pending ∧ w.flt = x.flt ∧ w.sec = x.sec := by
    rintro w rfl
    exact ⟨rfl, rfl, rfl, rfl, rfl, rfl⟩
  generalize ({ x with power := { s.power with holding := held } } : State) = w at *
  obtain ⟨hwregs, hwflash, hwhost, hwpending, hwflt, hwsec⟩ := hwonly w rfl
  have hfrom := w.mainReset_from false rfl
  generalize w.mainReset = y at *
  obtain ⟨hbursts, hcanopy, hsdram, hthreads, hgroves⟩ := hfrom.afresh
  obtain ⟨hflash, hhost, hpending, hkeys, -⟩ := hfrom.kept
  refine ⟨_, hexec, rfl, ?_, hbursts, hcanopy, hsdram, hthreads, hgroves, hflash.trans ?_, hhost.trans ?_, hpending.trans ?_, hfrom.records.trans ?_,
    hkeys.trans ?_⟩
  · refine (congrArg (bitOf · 1) (State.rd_of_regs (s := y) (by rfl) F.PWR_STATUS_RAIL_GOOD)).trans ?_
    rw [hfrom.rdPower rfl (by decide), State.rd_of_regs hwregs]
    exact hall 1 (by decide)
  · rw [hwflash, honly]
  · rw [hwhost, honly]
  · rw [hwpending, honly]
  · rw [hwflt, honly]
  · rw [hwsec, honly]

/-! ## Power down and the reset line (R403, R404) -/

theorem powerDown_stores {s : State} (hhouse : s.power.house = true) (hstate : s.rd F.FLT_STATUS_STATE = 3) (hcause : s.flt.cause = 2 ∨ s.flt.cause = 3) :
    Answers .powerDown s fun u => u.power.house = false ∧ u.power.cold = true ∧ u.power.stored = s.ledger ∧ u.power.kept = s.ledger ∧
      u.rd F.PWR_STATUS_RAIL_GOOD = 0 ∧ u.flash = s.flash ∧ u.flt.records = s.flt.records ∧ u.pending = s.pending := by
  have hexec : exec .powerDown s = .next (({ s with power := { s.power with stored := s.ledger, kept := s.ledger } } : State).houseOff) := by
    show execPowerDown s = _
    rw [execPowerDown]
    dsimp only
    rw [if_pos ⟨hhouse, .inl (by rw [hstate]; simpa using hcause)⟩]
  rw [State.houseOff] at hexec
  generalize s.ledger = l at *
  have hwonly : ∀ w : State, ({ s with power := { s.power with stored := l, kept := l } } : State) = w → w.flash = s.flash ∧ w.pending = s.pending ∧
      w.flt = s.flt ∧ w.power = { s.power with stored := l, kept := l } := by
    rintro w rfl
    exact ⟨rfl, rfl, rfl, rfl⟩
  generalize ({ s with power := { s.power with stored := l, kept := l } } : State) = w at *
  obtain ⟨hwflash, hwpending, hwflt, hwpower⟩ := hwonly w rfl
  have hfrom := w.mainReset_from false rfl
  generalize w.mainReset = y at *
  obtain ⟨hflash, -, hpending, -, hpower⟩ := hfrom.kept
  have hrec := hfrom.records
  have hzonly : RegsOnly y (y.wr F.PWR_STATUS_RAIL_GOOD 0) := .wr ..
  have hzgood := State.rd_wr_same y F.PWR_STATUS_RAIL_GOOD 0 (by decide)
  dsimp only at hexec
  generalize y.wr F.PWR_STATUS_RAIL_GOOD 0 = z at *
  have hzpower : z.power = { s.power with stored := l, kept := l } := by rw [hzonly]; exact hpower.trans hwpower
  rw [hzpower] at hexec
  refine ⟨_, hexec, rfl, rfl, rfl, rfl, (State.rd_of_regs (s := z) (by rfl) _).trans hzgood, ?_, ?_, ?_⟩
  · show z.flash = _
    rw [hzonly]; exact hflash.trans hwflash
  · show z.flt.records = _
    rw [hzonly]; exact hrec.trans (by rw [hwflt])
  · show z.pending = _
    rw [hzonly]; exact hpending.trans hwpending

/-- RESET_L moves: a module reset, with the new level and HEARTBEAT noted. -/
theorem resetL_resets {level : Bool} {s : State} (hlevel : level = s.flt.resetLow) : ∃ x u : State, ResetFrom s x ∧ exec (.resetL level) s = .next u ∧
    u = { x with regs := u.regs, flt := u.flt } ∧ u.flt.resetLow = !level ∧ u.flt.heartbeat = false ∧ RegsSame [(F.FLT_STATUS_HB).addr] x u ∧
    (level = false → u.rd F.FLT_STATUS_HB = 0) ∧ ∀ a, u.word .pwr a = x.word .pwr a := by
  have hexec : exec (.resetL level) s = .next (({ s.mainReset with flt := { s.mainReset.flt with resetLow := !level, heartbeat := false } } : State).noteHeartbeat) := by
    show execResetL level s = _
    rw [execResetL, if_neg (by rw [hlevel]; simp)]
  have hfrom := s.mainReset_from false rfl
  generalize s.mainReset = x at *
  have hyonly : ∀ y : State, ({ x with flt := { x.flt with resetLow := !level, heartbeat := false } } : State) = y → y = { x with flt := y.flt } ∧
      y.flt.resetLow = (!level) ∧ y.flt.heartbeat = false := by
    rintro y rfl
    exact ⟨rfl, rfl, rfl⟩
  generalize ({ x with flt := { x.flt with resetLow := !level, heartbeat := false } } : State) = y at *
  obtain ⟨hy, hylow, hyheart⟩ := hyonly y rfl
  have hyregs : y.regs = x.regs := by rw [hy]
  rw [State.noteHeartbeat] at hexec
  have hhealthy : level = false → y.healthy = false := by
    rintro rfl
    rw [State.healthy, hylow]
    simp
  dsimp only at hexec
  generalize y.healthy = ok at *
  have hzonly : RegsOnly y (y.wr F.FLT_STATUS_HB (b2n ok)) := .wr ..
  have hzsame : RegsSame [(F.FLT_STATUS_HB).addr] y (y.wr F.FLT_STATUS_HB (b2n ok)) := .wr _ _ _ List.mem_cons_self
  have hzhb := State.rd_wr_same y F.FLT_STATUS_HB (b2n ok) (by decide)
  have hzpwr : ∀ a, (y.wr F.FLT_STATUS_HB (b2n ok)).word .pwr a = y.word .pwr a := fun a => State.word_wr _ _ _ _ _ (.inr (by decide))
  generalize y.wr F.FLT_STATUS_HB (b2n ok) = z at *
  refine ⟨x, _, hfrom, hexec, by rw [hzonly, hy], hylow, by show (y.flt.heartbeat && ok) = false; rw [hyheart, Bool.false_and],
    (RegsSame.of_regs _ hyregs).trans hzsame, fun h => ?_, fun a => ?_⟩
  · refine (State.rd_of_regs (s := z) (by rfl) F.FLT_STATUS_HB).trans ?_
    rw [hzhb, hhealthy h]
    rfl
  · exact (hzpwr a).trans (by rw [State.word, hyregs, State.word])

/-! ## The Understory (R280, R405) -/

theorem understoryTick_counts {s : State} (h : s.power.present = true ∨ s.power.vstby = true) : Answers .understoryTick s fun u =>
      u.rdP F.PWR_US_TICK_LO_TICK = (s.rdP F.PWR_US_TICK_LO_TICK + 1) % 2 ^ 64 ∧ RegsOnly s u ∧
      Quiet [(F.PWR_US_TICK_LO_TICK).addr, (F.PWR_US_TICK_LO_TICK).addr + 4] s u := by
  have hexec : exec .understoryTick s = .next (s.wrP F.PWR_US_TICK_LO_TICK ((s.rdP F.PWR_US_TICK_LO_TICK + 1) % 2 ^ 64)) := by
    show execUnderstoryTick s = _
    rw [execUnderstoryTick, if_pos (by simpa using h)]
  refine ⟨_, hexec, ?_, .wrP .., (RegsSame.refl _ s).andWrP (by simp) (by simp), .of_eq rfl rfl rfl rfl⟩
  rw [State.rdP_wrP_mod _ _ rfl rfl, Nat.mod_mod]


/-- The registers that lose their content with the Understory, but for the tick counter. -/
def lostFields : List (Fld × Nat) :=
  [(F.CMP_RESID_CFG_EN, 0), (F.CMP_RESID_STAT_SEEN, 0), (F.SEC_STATUS_LIFECYCLE, 1), (F.SEC_STATUS_CONF_IMAGES, 0),
    (F.SEC_POLICY_PERMIT, 0), (F.SEC_SLOT_MAP_LOADED 0, 0), (F.SEC_SLOT_MAP_LOADED 1, 0), (F.SEC_STATUS_TAMPERED, 0),
    (⟨.sec, 0xE80A0, 0, 5⟩, 0), (F.SEC_TAMPER_TICK_TICK, 0), (F.SEC_ARB_COUNT 0, 0), (F.SEC_ARB_COUNT 1, 0), (F.SEC_ARB_COUNT 2, 0)] ++
    (List.range 16).map fun d => (F.CMP_RESID_TICK_TICK d, 0)

theorem lostFields_apart : ∀ p ∈ lostFields.drop 2, (F.CMP_RESID_STAT_SEEN).addr ≠ p.1.addr := by decide

theorem State.rd_lostFields (s : State) : (s.wrs lostFields).rd F.CMP_RESID_STAT_SEEN = 0 := by
  rw [show lostFields = (F.CMP_RESID_CFG_EN, 0) :: (F.CMP_RESID_STAT_SEEN, 0) :: lostFields.drop 2 from rfl, State.wrs_cons, State.wrs_cons,
    State.rd_of_word _ (State.word_wrs (fun p hp => .inl (lostFields_apart p hp)) _), State.rd_wr_same _ _ _ (by decide), Nat.zero_mod]

theorem State.understoryLost_eq {s : State} (hpresent : s.power.present = false) (hvstby : s.power.vstby = false) : ∃ x : State,
    s.understoryLost = (x.wrs lostFields).wrP F.PWR_US_TICK_LO_TICK 0 ∧
    x = { s with sec := x.sec, power := { s.power with kept := {}, lost := true }, flt := { s.flt with records := [], recSeq := 0 } } ∧
    x.sec.keys = State.reset.sec.keys := by
  rw [State.understoryLost, if_neg (by rw [hpresent, hvstby]; simp), lostFields]
  exact ⟨_, rfl, rfl, rfl⟩

theorem vstbyLoss_forgets {s : State} (hpresent : s.power.present = false) : Answers .vstbyLoss s fun u =>
      u.power.vstby = false ∧ u.power.lost = true ∧ u.power.kept = {} ∧ u.flt.records = [] ∧ u.sec.keys = State.reset.sec.keys ∧
      u.rdP F.PWR_US_TICK_LO_TICK = 0 ∧ u.rd F.CMP_RESID_STAT_SEEN = 0 ∧ BytesSame s u := by
  have hexec : exec .vstbyLoss s = .next ({ s with power := { s.power with vstby := false } } : State).understoryLost := rfl
  have hwonly : ∀ w : State, ({ s with power := { s.power with vstby := false } } : State) = w → w.power.present = false ∧ w.power.vstby = false ∧
      BytesSame s w := by
    rintro w rfl
    exact ⟨hpresent, rfl, .of_eq rfl rfl rfl rfl⟩
  generalize ({ s with power := { s.power with vstby := false } } : State) = w at *
  obtain ⟨hwpresent, hwvstby, hwbytes⟩ := hwonly w rfl
  obtain ⟨x, heq, hx, hkeys⟩ := State.understoryLost_eq hwpresent hwvstby
  rw [heq] at hexec
  have hxpower : x.power = { w.power with kept := {}, lost := true } := by rw [hx]
  have hxrec : x.flt.records = [] := by rw [hx]
  have hxbytes : BytesSame w x := by rw [hx]; exact .of_eq rfl rfl rfl rfl
  have hseen := x.rd_lostFields
  have hzonly : RegsOnly x (x.wrs lostFields) := .wrs ..
  generalize x.wrs lostFields = z at *
  have hseenAt : (z.wrP F.PWR_US_TICK_LO_TICK 0).rd F.CMP_RESID_STAT_SEEN = 0 := (State.rd_wrP_apart _ _ (by decide) (by decide)).trans hseen
  have htick := z.rdP_wrP_mod (f := F.PWR_US_TICK_LO_TICK) 0 rfl rfl
  have honly : RegsOnly x (z.wrP F.PWR_US_TICK_LO_TICK 0) := hzonly.trans (.wrP ..)
  generalize z.wrP F.PWR_US_TICK_LO_TICK 0 = u at *
  have hpower : u.power = { w.power with kept := {}, lost := true } := by rw [honly, hxpower]
  refine ⟨u, hexec, by rw [hpower, hwvstby], by rw [hpower], by rw [hpower], by rw [honly, hxrec], by rw [honly, hkeys], by rw [htick, Nat.zero_mod],
    hseenAt, ?_⟩
  exact hwbytes.trans (hxbytes.trans honly.event.bytes)

theorem bitOf_maskOf (l : List Nat) (k : Nat) : bitOf (maskOf l) k = decide (k ∈ l) := by
  have hfold : ∀ (l : List Nat) (m : Nat), bitOf (l.foldl (fun m i => m ||| 2 ^ i) m) k = (bitOf m k || decide (k ∈ l)) := by
    intro l
    induction l with
    | nil => intro m; simp
    | cons i l ih =>
      intro m
      rw [List.foldl_cons, ih, bitOf, bitOf, Nat.testBit_or, Nat.testBit_two_pow, Bool.or_assoc]
      congr 1
      simp only [List.mem_cons, eq_comm, Bool.decide_or]
  rw [maskOf, hfold]
  simp [bitOf]

/-- The ticks noted for the outputs of `l`. -/
theorem State.ticks_noted {l : List Nat} (hnodup : l.Nodup) (hl : ∀ d ∈ l, d < 16) (s : State) (now : Nat) {u : State}
    (hu : l.foldl (fun s d => s.wr (F.CMP_RESID_TICK_TICK d) now) s = u) : RegsOnly s u ∧
    RegsSame ((List.range 16).map fun d => (F.CMP_RESID_TICK_TICK d).addr) s u ∧
    ∀ d, u.rd (F.CMP_RESID_TICK_TICK d) = if d ∈ l then now % 2 ^ (F.CMP_RESID_TICK_TICK d).width else s.rd (F.CMP_RESID_TICK_TICK d) := by
  have hwrs : s.wrs (l.map fun d => (F.CMP_RESID_TICK_TICK d, now)) = u := by rw [State.wrs, List.foldl_map, hu]
  have hapart : (l.map fun d => (F.CMP_RESID_TICK_TICK d, now)).Pairwise fun p q => p.1.apart q.1 ∧ q.1.apart p.1 := by
    refine List.pairwise_map.mpr (hnodup.imp fun {d e} hne => ⟨.inl ?_, .inl ?_⟩) <;> simp only [F.CMP_RESID_TICK_TICK] <;> omega
  have hfit : ∀ p ∈ l.map fun d => (F.CMP_RESID_TICK_TICK d, now), p.1.lsb + p.1.width ≤ 32 := by
    simp [F.CMP_RESID_TICK_TICK]
  subst hwrs
  refine ⟨.wrs .., .wrs _ _ fun p hp => ?_, fun d => ?_⟩
  · obtain ⟨d, hd, rfl⟩ := List.mem_map.mp hp
    exact List.mem_map.mpr ⟨d, List.mem_range.mpr (hl d hd), rfl⟩
  · split
    · rename_i hd
      exact State.rd_wrs_mem hapart hfit s (List.mem_map_of_mem hd)
    · rename_i hd
      refine State.rd_of_word _ (State.word_wrs (fun p hp => ?_) s)
      obtain ⟨e, he, rfl⟩ := List.mem_map.mp hp
      refine .inl fun h => hd ?_
      simp only [F.CMP_RESID_TICK_TICK] at h
      rwa [show d = e by omega]

theorem residualWatch_notes {seen : Nat} {s : State} (hen : s.on F.CMP_RESID_CFG_EN = true) (hpresent : s.power.present = false)
    (hvstby : s.power.vstby = true) : Answers (.residualWatchTick seen) s fun u =>
      (∀ d : Fin 16, bitOf (u.rd F.CMP_RESID_STAT_SEEN) d = (bitOf (s.rd F.CMP_RESID_STAT_SEEN) d || bitOf seen d)) ∧
      (∀ d : Fin 16, u.rd (F.CMP_RESID_TICK_TICK d) = if bitOf seen d && !bitOf (s.rd F.CMP_RESID_STAT_SEEN) d
        then s.rdP F.PWR_US_TICK_LO_TICK % 2 ^ (F.CMP_RESID_TICK_TICK d).width else s.rd (F.CMP_RESID_TICK_TICK d)) ∧
      RegsOnly s u ∧ Quiet ((F.CMP_RESID_STAT_SEEN).addr :: (List.range 16).map fun d => (F.CMP_RESID_TICK_TICK d).addr) s u := by
  have hexec : exec (.residualWatchTick seen) s = .next ((((bitsOf seen 16).filter fun d => !bitOf (s.rd F.CMP_RESID_STAT_SEEN) d).foldl
      (fun x d => x.wr (F.CMP_RESID_TICK_TICK d) (s.rdP F.PWR_US_TICK_LO_TICK)) s).wr F.CMP_RESID_STAT_SEEN
      (s.rd F.CMP_RESID_STAT_SEEN ||| maskOf ((bitsOf seen 16).filter fun d => !bitOf (s.rd F.CMP_RESID_STAT_SEEN) d))) := by
    show execResidualWatchTick seen s = _
    rw [execResidualWatchTick, if_pos ⟨hen, hpresent, hvstby⟩]
  generalize s.rd F.CMP_RESID_STAT_SEEN = old at *
  have hmem : ∀ d, d ∈ ((bitsOf seen 16).filter fun d => !bitOf old d) ↔ d < 16 ∧ (bitOf seen d && !bitOf old d) = true := by
    intro d
    simp only [bitsOf, List.mem_filter, List.mem_range, Bool.and_eq_true, and_assoc]
  have hnodup : ((bitsOf seen 16).filter fun d => !bitOf old d).Nodup := (List.nodup_range.filter _).filter _
  generalize ((bitsOf seen 16).filter fun d => !bitOf old d) = l at *
  obtain ⟨honly, hsame, hticks⟩ := s.ticks_noted hnodup (fun d hd => ((hmem d).mp hd).1) (s.rdP F.PWR_US_TICK_LO_TICK) rfl
  generalize l.foldl (fun x d => x.wr (F.CMP_RESID_TICK_TICK d) (s.rdP F.PWR_US_TICK_LO_TICK)) s = x at *
  have hu : RegsOnly s (x.wr F.CMP_RESID_STAT_SEEN (old ||| maskOf l)) := honly.trans (.wr ..)
  refine ⟨_, hexec, fun d => ?_, fun d => ?_, hu, (hsame.mono fun _ h => List.mem_cons_of_mem _ h).andWr List.mem_cons_self, hu.event.bytes⟩
  · have hin := hmem d
    simp only [d.isLt, true_and] at hin
    rw [State.rd_wr_same _ _ _ (by decide), show (F.CMP_RESID_STAT_SEEN).width = 16 from rfl, bitOf, Nat.testBit_mod_two_pow, Nat.testBit_or,
      decide_eq_true d.isLt, Bool.true_and, ← bitOf, ← bitOf, bitOf_maskOf,
      Bool.eq_iff_iff.mpr (decide_eq_true_iff.trans hin)]
    cases bitOf old d <;> simp
  · have hin := hmem d
    simp only [d.isLt, true_and] at hin
    rw [State.rd_wr_other _ _ _ _ (.inl (by simp only [F.CMP_RESID_TICK_TICK, F.CMP_RESID_STAT_SEEN]; omega)), hticks]
    simp only [hin]

end Sys2Proof.Machine

open Sys2Proof Sys2Proof.Machine

/-- Settles O47: a module reset keeps the keeper domain, the Understory, flash and host memory, and each event of the supplies is that reset,
a field of the power registers, or nothing. -/
theorem powerSequencing : Obligations.PowerSequencing := by
  refine ⟨fun _ => vinRise_starts, fun s h => if_pos ?_, fun _ _ => railGood_shown, fun _ => railGood_last, fun s h => if_pos ?_,
    fun _ => powerDown_stores, fun s h => if_neg ?_, fun s hpresent hstate => if_neg ?_, fun s hlow => ?_, fun s hlow => ?_,
    fun level s h => if_pos h, fun _ => understoryTick_counts, fun s hpresent hvstby => ?_, fun s h => ⟨_, rfl, ?_⟩, fun _ => vstbyLoss_forgets,
    fun s => ⟨_, rfl, rfl⟩, fun _ _ => residualWatch_notes, fun seen s h => if_neg ?_⟩
  · rcases h with h | h <;> rw [h] <;> simp
  · rw [h]; rfl
  · rw [h]; simp
  · simp [hpresent, hstate]
  · obtain ⟨x, u, hfrom, hexec, honly, hulow, hheart, -, hhb, hpwr⟩ := resetL_resets (level := false) hlow.symm
    obtain ⟨hbursts, hcanopy, hsdram, hthreads, -⟩ := hfrom.afresh
    obtain ⟨hflash, hhost, hpending, -, -⟩ := hfrom.kept
    have hrd : ∀ f : Fld, f.blk = .pwr → u.rd f = x.rd f := fun f hf => State.rd_of_word f (by rw [hf, hpwr])
    refine ⟨u, hexec, hulow, hheart, hhb rfl, by rw [honly]; exact hbursts, by rw [honly]; exact hcanopy, by rw [honly]; exact hsdram,
      by rw [honly]; exact hthreads, by rw [honly]; exact hflash, by rw [honly]; exact hhost, fun a ha => (hpwr a).trans (hfrom.power a ha),
      by rw [honly]; exact hpending, fun r hr => ?_⟩
    rw [hrd _ rfl, hrd _ rfl, hrd _ rfl]
    exact hfrom.rails r hr
  · obtain ⟨x, u, hfrom, hexec, honly, hulow, hheart, -, -, hpwr⟩ := resetL_resets (level := true) hlow.symm
    exact ⟨u, hexec, hulow, hheart, by rw [honly]; exact hfrom.afresh.1, by rw [honly]; exact hfrom.kept.1,
      fun a ha => (hpwr a).trans (hfrom.power a ha)⟩
  · exact congrArg Host.Outcome.next (if_neg (by rw [hpresent, hvstby]; simp))
  · exact if_pos (by simp [h])
  · rcases h with h | h <;> simp [h]

end

section
/-! O27 (calibration runs), R406 to R418: how a run begins, waits or is refused, what its end puts in force, and the record. -/

set_option Elab.async false

namespace Sys2Proof.Machine

/-! ## A run begins (R409, R416) -/

/-- What a run shows while it is in progress, or at its end. -/
def runShown (running first timing tmu : Nat) : List (Fld × Nat) :=
  [(F.CAL_STATUS_RUNNING, running), (F.CAL_STATUS_GROUP, first), (F.TMG_STATUS_CAL_RUN, timing), (F.TMU_GSTATUS_CAL_RUN, tmu)]

theorem State.runShown_keeps (s : State) (running first timing tmu : Nat) {u : State} (hu : s.wrs (runShown running first timing tmu) = u) :
    RegsOnly s u ∧ RegsSame calOut s u ∧ u.rd F.CAL_STATUS_RUNNING = running % 2 ∧ u.rd F.TMG_STATUS_CAL_RUN = timing % 2 := by
  have hapart : (runShown running first timing tmu).Pairwise fun p q => p.1.apart q.1 ∧ q.1.apart p.1 := by
    simp [runShown, Fld.apart, F.CAL_STATUS_RUNNING, F.CAL_STATUS_GROUP, F.TMG_STATUS_CAL_RUN, F.TMU_GSTATUS_CAL_RUN]
  have hfit : ∀ p ∈ runShown running first timing tmu, p.1.lsb + p.1.width ≤ 32 := by
    simp [runShown, F.CAL_STATUS_RUNNING, F.CAL_STATUS_GROUP, F.TMG_STATUS_CAL_RUN, F.TMU_GSTATUS_CAL_RUN]
  have hmem : ∀ f v, (f, v) ∈ runShown running first timing tmu → u.rd f = v % 2 ^ f.width := fun f v h => hu ▸ State.rd_wrs_mem hapart hfit s h
  refine ⟨hu ▸ .wrs .., hu ▸ .wrs _ _ ?_, hmem F.CAL_STATUS_RUNNING running (by simp [runShown]), hmem F.TMG_STATUS_CAL_RUN timing (by simp [runShown])⟩
  simp [runShown, calOut, F.CAL_STATUS_RUNNING, F.CAL_STATUS_GROUP]

theorem bitOf_high {n : Nat} (hn : n < 0x10) {k : Nat} (hk : 4 ≤ k) : bitOf n k = false :=
  Nat.testBit_lt_two_pow (lt_of_lt_of_le hn (show 2 ^ 4 ≤ 2 ^ k from Nat.pow_le_pow_right (by decide) hk))

/-- A run of REF to THRESH alone takes no grove and no measurement unit. -/
theorem State.calStart_plain (s : State) {r : CalRun} (hgroups : r.groups < 0x10) : ∃ (run : CalRun) (first : Nat), run.cmd = r.cmd ∧
    run.groups = r.groups ∧ run.commit = r.commit ∧ run.groves = r.groves ∧
    s.calStart r = ({ s with
      cal := { s.cal with run := some run }, calHold := 0
      acq := { s.acq with calHeld := 0, calDue := s.acq.calDue } } : State).wrs (runShown 1 first 0 0) := by
  have htmu : bitOf r.groups (gTMU : Fin 7).1 = false := bitOf_high hgroups (by decide)
  have hdelay : bitOf r.groups (gDELAY : Fin 7).1 = false := bitOf_high hgroups (by decide)
  have hpe : bitOf r.groups (gPE : Fin 7).1 = false := bitOf_high hgroups (by decide)
  rw [State.calStart]
  simp only [CalRun.timing, CalRun.has, htmu, hdelay, hpe, Bool.or_self, Bool.false_eq_true, if_false, false_and, List.filter_nil, List.map_nil,
    List.isEmpty_nil, Bool.not_true, Nat.or_zero]
  refine ⟨_, _, ?_, ?_, ?_, ?_, rfl⟩ <;> rfl

theorem State.calNext_empty {s : State} (hqueue : s.cal.queue = []) : s.calNext = s := by
  rw [State.calNext, hqueue]
  split <;> rfl

/-- A run that waits alone begins. -/
theorem State.calNext_one {s : State} {r : CalRun} (hcalRun : s.acq.calRun = 0) (hrun : s.cal.run = none) (hcommit : s.cal.commit = none)
    (hqueue : s.cal.queue = [r]) (hgroups : r.groups < 0x10) {u : State} (hu : s.calNext = u) : (∃ run, u.cal.run = some run ∧ run.cmd = r.cmd ∧
      run.groups = r.groups ∧ run.commit = r.commit ∧ run.groves = r.groves) ∧ u.cal.queue = [] ∧ u.cal.units = s.cal.units ∧ u.calHold = 0 ∧
    u.rd F.CAL_STATUS_RUNNING = 1 ∧ RegsSame calOut s u ∧ u = { s with regs := u.regs, cal := u.cal, calHold := u.calHold, acq := u.acq } := by
  rw [State.calNext, hrun, hcommit, hcalRun, hqueue] at hu
  have hx : ∀ x : State, ({ s with cal := { s.cal with queue := [] } } : State) = x → x = { s with cal := { s.cal with queue := [] } } := fun x h => h.symm
  change State.calFrom s [r] = u at hu
  rw [State.calFrom] at hu
  dsimp only at hu
  obtain ⟨run, first, hcmd, hgr, hcm, hgv, hstart⟩ := ({ s with cal := { s.cal with queue := [] } } : State).calStart_plain hgroups
  rw [hstart] at hu
  have hwonly : ∀ w : State, ({ s with
      cal := { s.cal with queue := [], run := some run }, calHold := 0
      acq := { s.acq with calHeld := 0, calDue := s.acq.calDue } } : State) = w → w = { s with cal := w.cal, calHold := w.calHold, acq := w.acq } ∧
      w.cal.run = some run ∧ w.cal.queue = [] ∧ w.cal.units = s.cal.units ∧ w.calHold = 0 ∧ w.regs = s.regs := by
    rintro w rfl
    exact ⟨rfl, rfl, rfl, rfl, rfl, rfl⟩
  generalize ({ s with
      cal := { s.cal with queue := [], run := some run }, calHold := 0
      acq := { s.acq with calHeld := 0, calDue := s.acq.calDue } } : State) = w at *
  obtain ⟨hw, hwrun, hwqueue, hwunits, hwhold, hwregs⟩ := hwonly w rfl
  obtain ⟨honly, hsame, hrunning, -⟩ := w.runShown_keeps 1 first 0 0 rfl
  generalize w.wrs (runShown 1 first 0 0) = z at *
  have hzcal : z.cal = w.cal := by rw [honly]
  rw [if_pos (by rw [hzcal, hwrun]; rfl)] at hu
  subst hu
  refine ⟨⟨run, by rw [hzcal, hwrun], hcmd, hgr, hcm, hgv⟩, by rw [hzcal, hwqueue], by rw [hzcal, hwunits], by rw [honly, hwhold], hrunning,
    (RegsSame.of_regs _ hwregs).trans hsame, by rw [honly, hw]⟩

/-! ## The power-up run (R415) -/

/-- The registers in which a self-check of the stage `d` begins or is refused. -/
def checkOut (d : Fin 16) : List Nat := [(F.CMP_ST_CTRL_GO d).addr, (F.CMP_ST_RESULT_RESULT d).addr] ++ evOut (Ev.cmp d)

theorem State.cmpGo_keeps (s : State) (d : Fin 16) {u : State} (hu : s.cmpGo d = u) : EventOnly s u ∧ RegsSame (checkOut d) s u ∧
    (s.dscMode d = 0 → u.rd (F.CMP_ST_CTRL_GO d) = 1) ∧ (∀ e : Fin 16, s.rd (F.CMP_ST_CTRL_GO e) = 1 → u.rd (F.CMP_ST_CTRL_GO e) = 1) := by
  subst hu
  rw [State.cmpGo]
  split
  · rename_i hgo
    have hone : s.rd (F.CMP_ST_CTRL_GO d) = 1 := beq_iff_eq.mp hgo
    exact ⟨.refl s, .refl _ s, fun _ => hone, fun _ h => h⟩
  · have hother : ∀ e : Fin 16, e ≠ d → (F.CMP_ST_CTRL_GO e).addr ∉ checkOut d := by
      intro e he
      have hne : e.1 ≠ d.1 := fun h => he (Fin.ext h)
      simp only [checkOut, evOut, Ev.cmp, Ev.sch, F.CMP_ST_CTRL_GO, F.CMP_ST_RESULT_RESULT, F.SCH_UNCLAIMED_COUNT, List.mem_append, List.mem_cons,
        List.not_mem_nil, or_false]
      omega
    split
    · rename_i hmode
      have hgo : (s.wr (F.CMP_ST_CTRL_GO d) 1).rd (F.CMP_ST_CTRL_GO d) = 1 := State.rd_wr_same _ _ _ (show 0 + 1 ≤ 32 by decide)
      have hsame : RegsSame (checkOut d) s (s.wr (F.CMP_ST_CTRL_GO d) 1) := .wr _ _ _ (by simp [checkOut])
      refine ⟨(RegsOnly.wr ..).event, hsame, fun _ => hgo, fun e he => ?_⟩
      by_cases hed : e = d
      · rw [hed, hgo]
      · rw [hsame.rd _ (hother e hed), he]
    · rename_i hmode
      have hxonly : RegsOnly s (s.wrs [(F.CMP_ST_RESULT_RESULT d, 3), (F.CMP_ST_RESULT_ABORTED d, 0), (F.CMP_ST_RESULT_FAILS d, 0)]) := .wrs ..
      have hxsame : RegsSame (checkOut d) s (s.wrs [(F.CMP_ST_RESULT_RESULT d, 3), (F.CMP_ST_RESULT_ABORTED d, 0), (F.CMP_ST_RESULT_FAILS d, 0)]) :=
        .wrs _ _ (by simp [checkOut, F.CMP_ST_RESULT_RESULT, F.CMP_ST_RESULT_ABORTED, F.CMP_ST_RESULT_FAILS])
      have hxgo : ∀ e : Fin 16, (s.wrs [(F.CMP_ST_RESULT_RESULT d, 3), (F.CMP_ST_RESULT_ABORTED d, 0), (F.CMP_ST_RESULT_FAILS d, 0)]).rd (F.CMP_ST_CTRL_GO e) =
          s.rd (F.CMP_ST_CTRL_GO e) := fun e => State.rd_of_word _ (State.word_wrs (by
        simp only [List.forall_mem_cons, F.CMP_ST_CTRL_GO, F.CMP_ST_RESULT_RESULT, F.CMP_ST_RESULT_ABORTED, F.CMP_ST_RESULT_FAILS]
        exact ⟨.inl (by omega), .inl (by omega), .inl (by omega), fun _ h => absurd h List.not_mem_nil⟩) s)
      generalize s.wrs [(F.CMP_ST_RESULT_RESULT d, 3), (F.CMP_ST_RESULT_ABORTED d, 0), (F.CMP_ST_RESULT_FAILS d, 0)] = x at *
      have hgoEv : ∀ e : Fin 16, (F.CMP_ST_CTRL_GO e).addr ∉ evOut (Ev.cmp d) := by
        intro e
        simp only [evOut, Ev.cmp, Ev.sch, F.CMP_ST_CTRL_GO, F.SCH_UNCLAIMED_COUNT, List.mem_cons, List.not_mem_nil, or_false]
        omega
      exact ⟨hxonly.event.trans (State.event_event ..), hxsame.andEvent fun _ h => List.mem_append_right _ h, fun h => absurd h hmode, fun e he => by
        rw [(x.event_regs (Ev.cmp d) 3).rd _ (hgoEv e), hxgo, he]⟩

/-- No register below the comparators is written. -/
theorem notMem_checkOut {a : Nat} (ha : a < 0xA0000 ∨ 0x100000 ≤ a) (d : Fin 16) : a ∉ checkOut d := by
  simp only [checkOut, evOut, Ev.cmp, Ev.sch, F.CMP_ST_CTRL_GO, F.CMP_ST_RESULT_RESULT, F.SCH_UNCLAIMED_COUNT, List.mem_append, List.mem_cons,
    List.not_mem_nil, or_false]
  omega

theorem notMem_checkOuts {a : Nat} (ha : a < 0xA0000 ∨ 0x100000 ≤ a) : a ∉ (allFin 16).flatMap fun d => checkOut d := by
  rintro h
  obtain ⟨d, -, hd⟩ := List.mem_flatMap.mp h
  exact notMem_checkOut ha d hd

theorem cmpGo_fold (l : List (Fin 16)) (s : State) {u : State} (hu : l.foldl State.cmpGo s = u) : EventOnly s u ∧
    RegsSame ((allFin 16).flatMap fun d => checkOut d) s u ∧ (∀ d ∈ l, s.dscMode d = 0 → u.rd (F.CMP_ST_CTRL_GO d) = 1) ∧
    (∀ e : Fin 16, s.rd (F.CMP_ST_CTRL_GO e) = 1 → u.rd (F.CMP_ST_CTRL_GO e) = 1) := by
  induction l generalizing s with
  | nil => exact hu ▸ ⟨.refl s, .refl _ s, fun d hd => absurd hd List.not_mem_nil, fun _ h => h⟩
  | cons d l ih =>
    obtain ⟨hxonly, hxsame, hxgo, hxkeep⟩ := s.cmpGo_keeps d rfl
    rw [List.foldl_cons] at hu
    obtain ⟨honly, hsame, hgo, hkeep⟩ := ih (s.cmpGo d) hu
    have hmode : ∀ e : Fin 16, (s.cmpGo d).dscMode e = s.dscMode e := fun e => hxsame.rd _
      (notMem_checkOut (.inl (by simp only [F.DSC_STATUS_MODE]; omega)) d)
    refine ⟨hxonly.trans honly, (hxsame.mono fun a ha => List.mem_flatMap.mpr ⟨d, List.mem_finRange d, ha⟩).trans hsame, fun e he hm => ?_,
      fun e he => hkeep e (hxkeep e he)⟩
    rcases List.mem_cons.mp he with rfl | he
    · exact hkeep e (hxgo hm)
    · exact hgo e he ((hmode e).trans hm)

theorem modChan_fold (f : Chan → Chan) (hf : ∀ k, f (f k) = f k) (l : List (Fin 128)) (s : State) {u : State}
    (hu : l.foldl (fun s c => s.modChan c f) s = u) : u = { s with chans := u.chans } ∧ ∀ c, u.chans[c] = if c ∈ l then f s.chans[c] else s.chans[c] := by
  induction l generalizing s with
  | nil => exact hu ▸ ⟨rfl, fun c => (if_neg List.not_mem_nil).symm⟩
  | cons d l ih =>
    obtain ⟨honly, hchans⟩ := ih (s.modChan d f) hu
    refine ⟨honly.trans rfl, fun c => ?_⟩
    rw [hchans c]
    rcases eq_or_ne c d with rfl | hc
    · have hsame : (s.modChan c f).chans[c] = f s.chans[c] := upd_same ..
      rw [hsame, hf, if_pos List.mem_cons_self]
      split <;> rfl
    · have hother : (s.modChan d f).chans[c] = s.chans[c] := upd_other _ _ _ _ hc
      rw [hother]
      simp only [List.mem_cons, hc, false_or]

/-- A run of every group on the idle module takes every channel. -/
theorem State.calStart_powerup (s : State) {r : CalRun} (hcmd : r.cmd = none) (hgroups : r.groups = 0x3F) (hidle : ∀ k, s.groveIdle k = true)
    (hfree : (s.freeTmu (allFin 128)).isSome = true) : ∃ (run : CalRun) (first held due : Nat), run.cmd = r.cmd ∧ run.groups = r.groups ∧
    run.commit = r.commit ∧ run.chans = maskOf ((allFin 128).map (·.1)) ∧
    s.calStart r = ((allFin 128).foldl (fun s c => s.modChan c fun k => { k with den := false }) ({ s with
      cal := { s.cal with run := some run }, calHold := maskOf ((allFin 128).map (·.1))
      acq := { s.acq with calHeld := held, calDue := due } } : State)).wrs (runShown 1 first 1 1) := by
  have htmu : bitOf r.groups (gTMU : Fin 7).1 = true := by rw [hgroups]; rfl
  have hdelay : bitOf r.groups (gDELAY : Fin 7).1 = true := by rw [hgroups]; rfl
  have hnamed : s.runChans r = allFin 128 := List.filter_eq_self.mpr fun c _ => by rw [hcmd]; rfl
  have hbusy : ((allFin 128).filter fun c => (s.groveOfChan c).any fun g => !s.groveIdle g) = [] := List.filter_eq_nil_iff.mpr fun c _ => by
    cases s.groveOfChan c <;> simp [hidle]
  have hnone : (s.freeTmu (allFin 128)).isNone = false := by rw [← Option.not_isSome, hfree]; rfl
  rw [State.calStart]
  simp only [CalRun.timing, CalRun.has, htmu, hdelay, Bool.true_or, hnamed, if_true, hbusy, List.contains_nil, Bool.not_false, List.filter_true]
  rw [hnone]
  simp only [Bool.false_eq_true, and_false, if_false]
  generalize allFin 128 = l at *
  refine ⟨_, _, _, _, ?_, ?_, ?_, ?_, rfl⟩ <;> rfl

/-- The mask of all channels. -/
theorem maskOf_channels : maskOf ((allFin 128).map (·.1)) = 2 ^ 128 - 1 := by
  refine Nat.eq_of_testBit_eq fun k => ?_
  have hmem : k ∈ (allFin 128).map (·.1) ↔ k < 128 :=
    ⟨fun h => by obtain ⟨c, -, rfl⟩ := List.mem_map.mp h; exact c.isLt, fun h => List.mem_map.mpr ⟨⟨k, h⟩, List.mem_finRange _, rfl⟩⟩
  rw [Nat.testBit_two_pow_sub_one, ← bitOf, bitOf_maskOf]
  exact decide_eq_decide.mpr hmem

theorem State.freeTmu_isSome {s : State} {v : Fin 32} (hstate : s.tmuState v = 0) (howner : s.tmuOwner v = none) (hrun : bitOf s.acq.calRun v = false)
    (l : List (Fin 128)) : (s.freeTmu l).isSome = true := by
  have hmem : v ∈ ((allFin 32).filter fun u => s.tmuState u == 0 && !bitOf s.acq.calRun u.1).filter fun u => (s.tmuOwner u).isNone :=
    List.mem_filter.mpr ⟨List.mem_filter.mpr ⟨List.mem_finRange v, by rw [hstate, hrun]; rfl⟩, by rw [howner]; rfl⟩
  rw [State.freeTmu]
  generalize ((allFin 32).filter fun u => s.tmuState u == 0 && !bitOf s.acq.calRun u.1).filter (fun u => (s.tmuOwner u).isNone) = l' at *
  cases l' with
  | nil => exact absurd hmem List.not_mem_nil
  | cons a l' => rfl

theorem powerup_begins {s : State} (hstart : s.on F.CAL_STATUS_START_DONE = false) (hrun : s.cal.run = none) (hsrc : s.rd F.CLK_STATUS_SRC = 0)
    (hidle : ∀ k, s.groveIdle k = true) (hfree : ∃ v, s.tmuState v = 0 ∧ s.tmuOwner v = none ∧ bitOf s.acq.calRun v = false) :
    Answers .powerupCalibration s fun u =>
      (∃ r, u.cal.run = some r ∧ r.cmd = none ∧ r.groups = 0x3F ∧ r.commit = false ∧ r.chans = 2 ^ 128 - 1) ∧ u.calHold = 2 ^ 128 - 1 ∧
      (∀ c : Fin 128, u.chans[c] = { s.chans[c] with den := false }) ∧
      (∀ d : Fin 16, s.dscBound d = true → s.dscMode d = 0 → u.rd (F.CMP_ST_CTRL_GO d) = 1) ∧ u.rd F.CAL_STATUS_RUNNING = 1 ∧
      u.rd F.TMG_STATUS_CAL_RUN = 1 ∧ u.cal.queue = s.cal.queue ∧ u.cal.units = s.cal.units ∧
      u = { s with regs := u.regs, hq := u.hq, sched := u.sched, cal := u.cal, calHold := u.calHold, chans := u.chans
                   acq := { s.acq with calHeld := u.acq.calHeld, calDue := u.acq.calDue } } ∧
      Quiet (calOut ++ (allFin 16).flatMap fun d => [(F.CMP_ST_CTRL_GO d).addr, (F.CMP_ST_RESULT_RESULT d).addr] ++ evOut (Ev.cmp d)) s u := by
  have hexec : exec .powerupCalibration s = .next ((((allFin 16).filter s.dscBound).foldl State.cmpGo s).calStart
      { cmd := none, groups := 0x3F, commit := false, unbound := true, groves := 0, chans := 0, dscs := 0xFFFF, status := 0, detail := 0
        lost := false, cut := false }) := by
    show execPowerupCalibration s = _
    rw [execPowerupCalibration, if_neg (by rw [hstart, hrun]; simp), hsrc]
    rfl
  obtain ⟨hxonly, hxsame, hxgo, -⟩ := cmpGo_fold ((allFin 16).filter s.dscBound) s rfl
  have hxidle : ∀ k, (((allFin 16).filter s.dscBound).foldl State.cmpGo s).groveIdle k = true := fun k => by rw [hxonly]; exact hidle k
  have hgo : ∀ d : Fin 16, s.dscBound d = true → s.dscMode d = 0 → (((allFin 16).filter s.dscBound).foldl State.cmpGo s).rd (F.CMP_ST_CTRL_GO d) = 1 :=
    fun d hb hm => hxgo d (List.mem_filter.mpr ⟨List.mem_finRange d, hb⟩) hm
  generalize ((allFin 16).filter s.dscBound).foldl State.cmpGo s = x at *
  obtain ⟨v, hstate, howner, hcalRun⟩ := hfree
  have hxstate : x.tmuState v = 0 := (hxsame.rd _ (notMem_checkOuts (.inl (by simp only [F.TMU_STATUS_STATE]; omega)))).trans hstate
  have hxowner : x.tmuOwner v = none := by
    have hmap : x.rd (F.STR_TMU_MAP_MAP (v.1 / 4)) = s.rd (F.STR_TMU_MAP_MAP (v.1 / 4)) :=
      hxsame.rd _ (notMem_checkOuts (.inl (by simp only [F.STR_TMU_MAP_MAP]; omega)))
    rw [State.tmuOwner, hmap]
    exact howner
  have hxcalRun : bitOf x.acq.calRun v = false := by rw [hxonly]; exact hcalRun
  generalize hr : ({ cmd := none, groups := 0x3F, commit := false, unbound := true, groves := 0, chans := 0, dscs := 0xFFFF, status := 0, detail := 0
                     lost := false, cut := false } : CalRun) = r at *
  obtain ⟨hrcmd, hrgroups, hrcommit⟩ : r.cmd = none ∧ r.groups = 0x3F ∧ r.commit = false := by
    rw [← hr]
    exact ⟨rfl, rfl, rfl⟩
  obtain ⟨run, first, held, due, hcmd, hgr, hcm, hch, hcalStart⟩ := x.calStart_powerup hrcmd hrgroups hxidle (State.freeTmu_isSome hxstate hxowner hxcalRun _)
  rw [hcalStart] at hexec
  rw [maskOf_channels] at hexec hch
  have hwonly : ∀ w : State, ({ x with
      cal := { x.cal with run := some run }, calHold := 2 ^ 128 - 1
      acq := { x.acq with calHeld := held, calDue := due } } : State) = w → w.regs = x.regs ∧ w.chans = x.chans ∧ w.cal = { x.cal with run := some run } ∧
      w.calHold = 2 ^ 128 - 1 ∧
      w = { x with cal := w.cal, calHold := w.calHold, acq := { x.acq with calHeld := w.acq.calHeld, calDue := w.acq.calDue } } := by
    rintro w rfl
    exact ⟨rfl, rfl, rfl, rfl, rfl⟩
  generalize ({ x with
      cal := { x.cal with run := some run }, calHold := 2 ^ 128 - 1
      acq := { x.acq with calHeld := held, calDue := due } } : State) = w at *
  obtain ⟨hwregs, hwchans, hwcal, hwhold, hw⟩ := hwonly w rfl
  obtain ⟨hyonly, hychans⟩ := modChan_fold (fun k => { k with den := false }) (fun _ => rfl) (allFin 128) w rfl
  generalize (allFin 128).foldl (fun s c => s.modChan c fun k => { k with den := false }) w = y at *
  obtain ⟨huonly, husame, hrunning, htmg⟩ := y.runShown_keeps 1 first 1 1 rfl
  generalize y.wrs (runShown 1 first 1 1) = u at *
  have hyregs : y.regs = x.regs := by rw [hyonly, hwregs]
  have hucal : u.cal = { s.cal with run := some run } := by rw [huonly, hyonly, hwcal, hxonly]
  have huchans : u.chans = y.chans := by rw [huonly]
  have hall : u = { s with regs := u.regs, hq := u.hq, sched := u.sched, cal := u.cal, calHold := u.calHold, chans := u.chans
                           acq := { s.acq with calHeld := u.acq.calHeld, calDue := u.acq.calDue } } := by rw [huonly, hyonly, hw, hxonly]
  have huch : ∀ c : Fin 128, u.chans[c] = { s.chans[c] with den := false } := fun c => by
    rw [huchans, hychans, if_pos (List.mem_finRange c), hwchans, hxonly]
  have hugo : ∀ d : Fin 16, u.rd (F.CMP_ST_CTRL_GO d) = x.rd (F.CMP_ST_CTRL_GO d) := fun d => by
    rw [husame.rd, State.rd_of_regs hyregs]
    simp only [calOut, F.CAL_STATUS_RUNNING, F.TMG_STATUS_CAL_RUN, F.TMU_GSTATUS_CAL_RUN, F.CMP_ST_CTRL_GO, List.mem_cons, List.not_mem_nil, or_false]
    omega
  refine ⟨u, hexec, ⟨run, by rw [hucal], hcmd.trans hrcmd, hgr.trans hrgroups, hcm.trans hrcommit, hch⟩, by rw [huonly, hyonly, hwhold], huch,
    fun d hb hm => (hugo d).trans (hgo d hb hm), hrunning, htmg, by rw [hucal], by rw [hucal], hall, ?_, by rw [hall]; exact .of_eq rfl rfl rfl rfl⟩
  exact ((hxsame.mono fun _ h => List.mem_append_right _ h).trans (RegsSame.of_regs _ hyregs)).trans (husame.mono fun _ h => List.mem_append_left _ h)


/-! ## CALIBRATE (R416) -/

/-- What a command was accepted under does not depend on its having begun. -/
theorem State.atAcceptance_begin (s : State) (h : Hdr) (opc : Nat) (what : InFlight → Bool) (hwhat : ∀ e, what { e with begun := true } = what e) :
    (s.begin_ h opc id).atAcceptance h what = s.atAcceptance h what := by
  have hmark : ∀ f, (s.markBegun f).atAcceptance h what = s.atAcceptance h what := by
    intro f
    rw [State.atAcceptance, State.markBegun]
    dsimp only
    rw [List.any_map, State.atAcceptance]
    congr 1
    funext e
    rw [Function.comp_apply]
    split
    · rw [hwhat]
    · rfl
  rw [State.begin_]
  split
  · rfl
  · rename_i f _
    rw [State.take_eq]
    split
    · exact hmark f
    · exact hmark f

/-- CALIBRATE runs on a state in which the command has begun. -/
theorem exec_calibrate {h : Hdr} {groups flags groves dscs : Nat} {s : State} (hb : s.canBegin h 0x21) : ∃ v, BegunOnly s v ∧
    exec (.calibrate h groups flags groves dscs) s = .next (
      if groups = 0 ∨ 0x80 ≤ groups ∨ 4 ≤ flags then v.complete h stBadOperand
      else if s.atAcceptance h (·.noRef) ∧ fieldOf groups 4 3 ≠ 0 then v.complete h 0x03
      else if s.atAcceptance h (·.reload) then v.complete h 0x06
      else ({ v with cal := { v.cal with queue := v.cal.queue ++ [
        { cmd := some h, groups := groups, commit := bitOf flags 0, unbound := bitOf flags 1, groves := groves, chans := 0
          dscs := dscs % 2 ^ 16, status := 0, detail := 0, lost := false, cut := false }] } } : State).calNext) := by
  obtain ⟨v, hv, hrun⟩ := State.begin_ready hb
  have hid : s.begin_ h 0x21 id = v := hrun id
  have hnoRef := s.atAcceptance_begin h 0x21 (·.noRef) fun _ => rfl
  have hreload := s.atAcceptance_begin h 0x21 (·.reload) fun _ => rfl
  rw [hid] at hnoRef hreload
  refine ⟨v, hv, ?_⟩
  show execCalibrate h groups flags groves dscs s = _
  rw [execCalibrate, hrun, hnoRef, hreload]

theorem fieldOf_high {n : Nat} (hn : n < 0x10) : fieldOf n 4 3 = 0 := by
  rw [fieldOf]
  omega

theorem fieldOf_used {n : Nat} (hlo : 0x10 ≤ n) (hhi : n < 0x80) : fieldOf n 4 3 ≠ 0 := by
  rw [fieldOf]
  omega

theorem calibrate_begins {h : Hdr} {groups flags groves dscs : Nat} {s : State} (hb : s.canBegin h 0x21) (hpos : 0 < groups) (hgroups : groups < 0x10)
    (hflags : flags < 4) (hreload : s.atAcceptance h (·.reload) = false) (hrun : s.cal.run = none) (hcommit : s.cal.commit = none)
    (hcalRun : s.acq.calRun = 0) (hqueue : s.cal.queue = []) : Answers (.calibrate h groups flags groves dscs) s fun u =>
      (∃ r, u.cal.run = some r ∧ r.cmd = some h ∧ r.groups = groups ∧ r.commit = bitOf flags 0 ∧ r.groves = groves) ∧
      u.rd F.CAL_STATUS_RUNNING = 1 ∧ u.hq.compls = s.hq.compls ∧ u.cal.queue = [] ∧ u.cal.units = s.cal.units ∧
      u.calHold = 0 ∧ u.chans = s.chans ∧ Quiet calOut s u := by
  obtain ⟨v, hv, hexec⟩ := exec_calibrate (groups := groups) (flags := flags) (groves := groves) (dscs := dscs) hb
  have hvcal : v.cal = s.cal := by rw [hv.1]
  have hvacq : v.acq = s.acq := by rw [hv.1]
  rw [if_neg (by omega), if_neg fun h => h.2 (fieldOf_high hgroups), hreload, if_neg Bool.false_ne_true, hvcal, hqueue, List.nil_append] at hexec
  generalize hq : ({ cmd := some h, groups := groups, commit := bitOf flags 0, unbound := bitOf flags 1, groves := groves, chans := 0
                     dscs := dscs % 2 ^ 16, status := 0, detail := 0, lost := false, cut := false } : CalRun) = q at *
  obtain ⟨hqcmd, hqgroups, hqcommit, hqgroves⟩ : q.cmd = some h ∧ q.groups = groups ∧ q.commit = bitOf flags 0 ∧ q.groves = groves := by
    rw [← hq]
    exact ⟨rfl, rfl, rfl, rfl⟩
  have hwonly : ∀ w : State, ({ v with cal := { s.cal with queue := [q] } } : State) = w → w = { v with cal := w.cal } ∧
      w.cal = { s.cal with queue := [q] } := by
    rintro w rfl
    exact ⟨rfl, rfl⟩
  generalize ({ v with cal := { s.cal with queue := [q] } } : State) = w at *
  obtain ⟨hw, hwcal⟩ := hwonly w rfl
  obtain ⟨⟨run, hurun, hcmd, hgr, hcm, hgv⟩, huqueue, huunits, huhold, hurunning, husame, honly⟩ :=
    State.calNext_one (s := w) (r := q) (by rw [hw, hvacq, hcalRun]) (by rw [hwcal, hrun]) (by rw [hwcal, hcommit]) (by rw [hwcal])
      (by rw [hqgroups]; exact hgroups) rfl
  generalize w.calNext = u at *
  have hwregs : w.regs = s.regs := by rw [hw, hv.1]
  refine ⟨u, hexec, ⟨run, hurun, hcmd.trans hqcmd, hgr.trans hqgroups, hcm.trans hqcommit, hgv.trans hqgroves⟩, hurunning, ?_, huqueue, ?_, huhold, ?_,
    (RegsSame.of_regs _ hwregs).trans husame, ?_⟩
  · rw [honly, hw, hv.2]
  · rw [huunits, hwcal]
  · rw [honly, hw, hv.1]
  · rw [honly, hw, hv.1]
    exact .of_eq rfl rfl rfl rfl

theorem calibrate_waits {h : Hdr} {groups flags groves dscs : Nat} {s : State} (hb : s.canBegin h 0x21) (hpos : 0 < groups) (hgroups : groups < 0x10)
    (hflags : flags < 4) (hreload : s.atAcceptance h (·.reload) = false) (hrun : s.cal.run.isSome = true) :
    Answers (.calibrate h groups flags groves dscs) s fun u =>
      u.cal.run = s.cal.run ∧ (∃ r, u.cal.queue = s.cal.queue ++ [r] ∧ r.cmd = some h ∧ r.groups = groups) ∧
      u.hq.compls = s.hq.compls ∧ u = { s with hq := u.hq, cal := { s.cal with queue := u.cal.queue } } := by
  obtain ⟨v, hv, hexec⟩ := exec_calibrate (groups := groups) (flags := flags) (groves := groves) (dscs := dscs) hb
  have hvcal : v.cal = s.cal := by rw [hv.1]
  rw [if_neg (by omega), if_neg fun h => h.2 (fieldOf_high hgroups), hreload, if_neg Bool.false_ne_true, State.calNext,
    if_pos (by rw [hvcal, hrun]; rfl), hvcal] at hexec
  exact ⟨_, hexec, rfl, ⟨_, rfl, rfl, rfl⟩, hv.2, by rw [hv.1]⟩

/-- CALIBRATE refused. -/
theorem calibrate_refused {c : Instr} {h : Hdr} {status : Nat} {s v : State} (hv : BegunOnly s v) (hexec : exec c s = .next (v.complete h status)) :
    Answers c s fun u => Completes s u h status 0 0 ∧ u = { s with hq := u.hq } :=
  ⟨_, hexec, Completes.of_complete hv.2, by rw [hv.1]; rfl⟩


/-! ## A run ends (R413, R414, R417) -/

theorem State.calRelease_eq {s : State} (hheld : s.acq.calHeld = 0) : s.calRelease = ({ s with
      cal := { s.cal with run := none }, calHold := 0, acq := { s.acq with calHeld := 0 } } : State).wrs
    [(F.CAL_STATUS_RUNNING, 0), (F.TMG_STATUS_CAL_RUN, 0), (F.TMU_GSTATUS_CAL_RUN, 0)] := by
  have hbit : ∀ k, bitOf 0 k = false := Nat.zero_testBit
  rw [State.calRelease]
  simp only [hheld]
  rw [foldl_still fun u _ => ?_, foldl_still fun e _ => ?_]
  · exact if_neg (by rw [hbit]; exact Bool.false_ne_true)
  · exact if_neg (by rw [hbit, Bool.and_false]; exact Bool.false_ne_true)

/-- What the release of a run that held no unit leaves. -/
theorem State.calRelease_keeps {s : State} (hheld : s.acq.calHeld = 0) {u : State} (hu : s.calRelease = u) :
    u = { s with regs := u.regs, cal := u.cal, calHold := u.calHold, acq := u.acq } ∧ u.cal = { s.cal with run := none } ∧ u.calHold = 0 ∧
    RegsSame calOut s u ∧ u.rd F.CAL_STATUS_RUNNING = 0 ∧ u.rd F.TMG_STATUS_CAL_RUN = 0 := by
  rw [State.calRelease_eq hheld] at hu
  have hwonly : ∀ w : State, ({ s with cal := { s.cal with run := none }, calHold := 0, acq := { s.acq with calHeld := 0 } } : State) = w →
      w = { s with cal := w.cal, calHold := w.calHold, acq := w.acq } ∧ w.cal = { s.cal with run := none } ∧ w.calHold = 0 ∧ w.regs = s.regs := by
    rintro w rfl
    exact ⟨rfl, rfl, rfl, rfl⟩
  generalize ({ s with cal := { s.cal with run := none }, calHold := 0, acq := { s.acq with calHeld := 0 } } : State) = w at *
  obtain ⟨hw, hwcal, hwhold, hwregs⟩ := hwonly w rfl
  have honly : RegsOnly w u := hu ▸ .wrs ..
  have hapart : [(F.CAL_STATUS_RUNNING, 0), (F.TMG_STATUS_CAL_RUN, 0), (F.TMU_GSTATUS_CAL_RUN, 0)].Pairwise fun p q => p.1.apart q.1 ∧ q.1.apart p.1 := by
    simp [Fld.apart, F.CAL_STATUS_RUNNING, F.TMG_STATUS_CAL_RUN, F.TMU_GSTATUS_CAL_RUN]
  have hfit : ∀ p ∈ [(F.CAL_STATUS_RUNNING, 0), (F.TMG_STATUS_CAL_RUN, 0), (F.TMU_GSTATUS_CAL_RUN, 0)], p.1.lsb + p.1.width ≤ 32 := by
    simp [F.CAL_STATUS_RUNNING, F.TMG_STATUS_CAL_RUN, F.TMU_GSTATUS_CAL_RUN]
  have hrd : ∀ f, (f, 0) ∈ [(F.CAL_STATUS_RUNNING, 0), (F.TMG_STATUS_CAL_RUN, 0), (F.TMU_GSTATUS_CAL_RUN, 0)] → u.rd f = 0 := fun f hf => by
    rw [← hu, State.rd_wrs_mem hapart hfit w hf, Nat.zero_mod]
  have hsame : RegsSame calOut w u := hu ▸ .wrs _ _ (by simp [calOut])
  exact ⟨by rw [honly, hw], by rw [honly, hwcal], by rw [honly, hwhold], (RegsSame.of_regs _ hwregs).trans hsame, hrd _ (by simp), hrd _ (by simp)⟩

/-- Every group noted, those of `measured` as measured. -/
def State.groupsNoted (s : State) (measured : List Nat) : State :=
  (List.range 7).foldl (fun s g => if measured.contains g then s.groupMeasured (fin 7 g) else s.noteGroup (fin 7 g)) s

theorem lostUnits_none {s : State} {r : CalRun} (hunits : ∀ g k, s.lostUnit r false g k = false) :
    ([1, 2, 3].flatMap fun g => ((List.range 16).filter (s.lostUnit r false g)).map fun u => (g, u)) = [] := by
  refine List.flatMap_eq_nil_iff.mpr fun g _ => ?_
  rw [List.filter_eq_nil_iff.mpr fun k _ => by rw [hunits]; exact Bool.false_ne_true, List.map_nil]

/-- The end of a run without a result. -/
theorem State.calEnd_none {s : State} {h : Hdr} {r : CalRun} (refclk : List (Int × Nat)) (hcmd : r.cmd = some h) (hcut : r.cut = false)
    (hcommit : r.commit = false) (hlost : r.lost = false) (hunits : ∀ g k, s.lostUnit r false g k = false) : s.calEnd r [] refclk =
    ((s.groupsNoted []).calRelease.calNext).complete h r.status r.detail 0 := by
  have htaken : s.takeAll r refclk [] = (s, []) := rfl
  rw [State.calEnd]
  dsimp only
  simp only [List.any_nil, Bool.and_false, Bool.false_eq_true, if_false, List.filter_nil, lostUnits_none hunits, htaken, List.map_nil, List.append_nil,
    List.foldl_nil, List.isEmpty_nil, Bool.not_true, Bool.false_and, List.filter_false, List.contains_nil, hcut, hcmd, Option.isNone_some, hcommit, hlost,
    if_true, State.calComplete, ite_self]
  rw [show (if r.status = 0 then maskOf [] + 2 ^ 8 * maskOf ([] : List Nat).dedup + 2 ^ 16 * ([] : List (Nat × Nat)).length else 0) = 0 by split <;> rfl,
    State.groupsNoted]
  simp only [List.contains_nil, Bool.false_eq_true, if_false]

theorem State.takeAll_one (s : State) (r : CalRun) (refclk : List (Int × Nat)) {x : CalResult} (hgroup : x.group = 1) :
    s.takeAll r refclk [x] = (s.takeResult x 0, [(x, s.unitOk x 0)]) := by
  have hsorted : ((List.range 7).flatMap fun g => [x].filter fun x => x.group == g) = [x] := by simp [List.range_succ, hgroup]
  have hresolve : s.resolve r s.getUnit x = (x, s) := by
    rw [State.resolve]
    simp only [hgroup]
  rw [State.takeAll, hsorted, List.foldl_cons, List.foldl_nil, State.takeOne, hresolve]
  dsimp only
  rw [if_neg (by rw [hgroup]; decide)]
  rfl

/-- The end of a run with one result, of HOUSE. -/
theorem State.calEnd_house {s : State} {h : Hdr} {r : CalRun} {x : CalResult} (refclk : List (Int × Nat)) (hcmd : r.cmd = some h) (hcut : r.cut = false)
    (hcommit : r.commit = false) (hlost : r.lost = false) (hunits : ∀ g k, s.lostUnit r false g k = false) (hgroup : x.group = 1)
    (htakes : r.takes 1 x.unit = true) : s.calEnd r [x] refclk =
    ((((s.takeResult x 0).groupsNoted [1]).countRun (!s.unitOk x 0)).calRelease.calNext).complete h r.status r.detail
      (if r.status = 0 then (if s.unitOk x 0 then 2 else 2 + 2 ^ 8 * 2 + 2 ^ 16) else 0) := by
  have hcounts : s.counts r false x = true := by
    rw [State.counts, hgroup, htakes, hunits]
    rfl
  have hgroups : ∀ n : Nat, n ≠ 1 → (x.group == n) = false := fun n hn => by rw [hgroup]; exact beq_false_of_ne hn.symm
  have hmeasured : ((List.range 7).filter fun g => x.group == g) = [1] := by rw [hgroup]; rfl
  rw [State.calEnd]
  dsimp only
  simp only [List.any_cons, List.any_nil, Bool.or_false, hgroups 0 (by decide), Bool.false_and, Bool.and_false, Bool.false_eq_true, if_false,
    List.filter_cons, hcounts, if_true, List.filter_nil, lostUnits_none hunits, s.takeAll_one r refclk hgroup, hgroups 5 (by decide), hmeasured,
    List.append_nil, List.foldl_nil, List.isEmpty_nil, Bool.not_true, Bool.false_and, hcut, hcmd, Option.isNone_some, hcommit, hlost, State.calComplete]
  rw [if_neg (show ¬ [1].contains 4 = true by decide), if_neg (show ¬ [1].isEmpty = true by decide), State.groupsNoted]
  generalize s.unitOk x 0 = ok
  cases ok with
  | true => rfl
  | false =>
    simp only [Bool.not_false, if_true, Bool.false_eq_true, if_false, List.map_cons, List.map_nil, hgroup, List.isEmpty_cons]
    rfl


/-! ## What the end of a run leaves -/

/-- The registers in which the groups are noted. -/
def groupsOut : List Nat := (List.range 7).flatMap fun g =>
  [(F.CAL_GRP_STAT_STATE g).addr, (F.CAL_GRP_TIME_LO_TIME g).addr, (F.CAL_GRP_TIME_LO_TIME g).addr + 4, (F.CAL_GRP_TEMP_TEMP g).addr]

theorem State.noteGroup_keeps (s : State) (g : Fin 7) : RegsOnly s (s.noteGroup g) ∧ RegsSame [(F.CAL_GRP_STAT_STATE g).addr] s (s.noteGroup g) :=
  ⟨.wrs .., .wrs _ _ (by simp [F.CAL_GRP_STAT_STATE, F.CAL_GRP_STAT_STALE_UNITS])⟩

theorem State.groupNoted_keeps (s : State) (g : Fin 7) : RegsOnly s (s.groupMeasured g) ∧ RegsSame [(F.CAL_GRP_STAT_STATE g).addr,
    (F.CAL_GRP_TIME_LO_TIME g).addr, (F.CAL_GRP_TIME_LO_TIME g).addr + 4, (F.CAL_GRP_TEMP_TEMP g).addr] s (s.groupMeasured g) := by
  rw [State.groupMeasured]
  generalize s.calTime = p
  obtain ⟨t, base⟩ := p
  obtain ⟨hnote, hsame⟩ := s.noteGroup_keeps g
  generalize s.noteGroup g = x at *
  exact ⟨((hnote.trans (RegsOnly.wrP ..)).trans (RegsOnly.wrs ..)).trans (RegsOnly.wr ..),
    (((hsame.mono (by simp)).andWrP (by simp) (by simp)).andWrs (by simp [F.CAL_GRP_STAT_STATE, F.CAL_GRP_STAT_BASE])).andWr
      (by simp [F.CAL_GRP_STAT_STATE, F.CAL_GRP_STAT_RUNS])⟩

theorem State.groupsNoted_keeps (s : State) (measured : List Nat) : RegsOnly s (s.groupsNoted measured) ∧ RegsSame groupsOut s (s.groupsNoted measured) := by
  have hfold : ∀ (l : List Nat) (x : State), (∀ g ∈ l, g < 7) → RegsOnly x (l.foldl (fun s g =>
      if measured.contains g then s.groupMeasured (fin 7 g) else s.noteGroup (fin 7 g)) x) ∧ RegsSame groupsOut x (l.foldl (fun s g =>
      if measured.contains g then s.groupMeasured (fin 7 g) else s.noteGroup (fin 7 g)) x) := by
    intro l
    induction l with
    | nil => exact fun x _ => ⟨.refl x, .refl _ x⟩
    | cons g l ih =>
      intro x hl
      obtain ⟨hg, hl⟩ := List.forall_mem_cons.mp hl
      have hout : ∀ a ∈ [(F.CAL_GRP_STAT_STATE g).addr, (F.CAL_GRP_TIME_LO_TIME g).addr, (F.CAL_GRP_TIME_LO_TIME g).addr + 4,
          (F.CAL_GRP_TEMP_TEMP g).addr], a ∈ groupsOut := fun a ha => List.mem_flatMap.mpr ⟨g, List.mem_range.mpr hg, ha⟩
      have hfin : (fin 7 g).1 = g := Nat.mod_eq_of_lt hg
      have hstep : ∀ y : State, (if measured.contains g = true then x.groupMeasured (fin 7 g) else x.noteGroup (fin 7 g)) = y → RegsOnly x y ∧ RegsSame groupsOut x y := by
        rintro y rfl
        split
        · obtain ⟨honly, hsame⟩ := x.groupNoted_keeps (fin 7 g)
          rw [hfin] at hsame
          exact ⟨honly, hsame.mono hout⟩
        · obtain ⟨honly, hsame⟩ := x.noteGroup_keeps (fin 7 g)
          rw [hfin] at hsame
          exact ⟨honly, hsame.mono fun a ha => hout a (by simp_all)⟩
      obtain ⟨honly, hsame⟩ := hstep _ rfl
      obtain ⟨honly', hsame'⟩ := ih _ hl
      exact ⟨honly.trans honly', hsame.trans hsame'⟩
  exact hfold (List.range 7) s fun g hg => List.mem_range.mp hg

/-- Noting the groups of a run without a result changes their states alone. -/
theorem State.groupsNoted_none (s : State) : RegsSame ((List.range 7).map fun g => (F.CAL_GRP_STAT_STATE g).addr) s (s.groupsNoted []) := by
  have hfold : ∀ (l : List Nat) (x : State), (∀ g ∈ l, g < 7) → RegsSame ((List.range 7).map fun g => (F.CAL_GRP_STAT_STATE g).addr) x (l.foldl (fun s g =>
      if ([] : List Nat).contains g then s.groupMeasured (fin 7 g) else s.noteGroup (fin 7 g)) x) := by
    intro l
    induction l with
    | nil => exact fun x _ => .refl _ x
    | cons g l ih =>
      intro x hl
      obtain ⟨hg, hl⟩ := List.forall_mem_cons.mp hl
      have hfin : (fin 7 g).1 = g := Nat.mod_eq_of_lt hg
      have hsame := (x.noteGroup_keeps (fin 7 g)).2
      rw [hfin] at hsame
      refine (hsame.mono fun a ha => ?_).trans (ih _ hl)
      exact List.mem_map.mpr ⟨g, List.mem_range.mpr hg, (List.mem_singleton.mp ha).symm⟩
  exact hfold (List.range 7) s fun g hg => List.mem_range.mp hg

theorem runEnd_none {h : Hdr} {r : CalRun} {refclk : List (Int × Nat)} {s : State} (hrun : s.cal.run = some r) (hcmd : r.cmd = some h)
    (hcut : r.cut = false) (hcommit : r.commit = false) (hlost : r.lost = false) (hunits : ∀ g k, s.lostUnit r false g k = false)
    (hheld : s.acq.calHeld = 0) (hqueue : s.cal.queue = []) : Answers (.calibrationRunEnd [] refclk) s fun u =>
      Completes s u h r.status r.detail 0 ∧ u.cal.run = none ∧ u.calHold = 0 ∧ u.rd F.CAL_STATUS_RUNNING = 0 ∧
      u.rd F.TMG_STATUS_CAL_RUN = 0 ∧ u.cal.units = s.cal.units ∧ u.cal.vals = s.cal.vals ∧
      Quiet (calOut ++ (List.range 7).map fun g => (F.CAL_GRP_STAT_STATE g).addr) s u := by
  have hexec : exec (.calibrationRunEnd [] refclk) s = .next (s.calEnd r [] refclk) := by
    show execCalibrationRunEnd [] refclk s = _
    rw [execCalibrationRunEnd, hrun]
  rw [State.calEnd_none refclk hcmd hcut hcommit hlost hunits] at hexec
  have hxonly := (s.groupsNoted_keeps []).1
  have hxsame := s.groupsNoted_none
  generalize s.groupsNoted [] = x at *
  have hxcal : x.cal = s.cal := by rw [hxonly]
  obtain ⟨hy, hycal, hyhold, hysame, hrunning, htmg⟩ := x.calRelease_keeps (by rw [hxonly]; exact hheld) rfl
  generalize x.calRelease = y at *
  rw [State.calNext_empty (by rw [hycal, hxcal]; exact hqueue)] at hexec
  have hycompls : y.hq.compls = s.hq.compls := by rw [hy, hxonly]
  have hybytes : BytesSame s y := by rw [hy, hxonly]; exact .of_eq rfl rfl rfl rfl
  have hquiet : Quiet (calOut ++ (List.range 7).map fun g => (F.CAL_GRP_STAT_STATE g).addr) s y :=
    ⟨(hxsame.mono fun _ h => List.mem_append_right _ h).trans (hysame.mono fun _ h => List.mem_append_left _ h), hybytes⟩
  have hcompl := Completes.of_complete (h := h) (status := r.status) (detail := r.detail) (result := 0) hycompls
  have hall := hquiet.andComplete (c := h) (status := r.status) (detail := r.detail) (result := 0) (intake := false)
  have huonly := (y.complete_keeps h r.status r.detail 0).2
  generalize y.complete h r.status r.detail 0 = u at *
  have hurd : ∀ f, u.rd f = y.rd f := State.rd_of_regs (by rw [huonly])
  have hucal : u.cal = { s.cal with run := none } := by rw [huonly, hycal, hxcal]
  exact ⟨u, hexec, hcompl, by rw [hucal], by rw [huonly, hyhold], by rw [hurd, hrunning], by rw [hurd, htmg], by rw [hucal], by rw [hucal], hall⟩


/-- A value of HOUSE taken, or refused. -/
theorem State.takeHouse_keeps {s : State} {x : CalResult} (hgroup : x.group = 1) {u : State} (hu : s.takeResult x 0 = u) :
    u = { s with cal := u.cal } ∧ u.cal.run = s.cal.run ∧ u.cal.queue = s.cal.queue ∧
    u.cal.units[gHOUSE] = s.cal.units[gHOUSE].set x.unit (if s.unitOk x 0 then 1 else 2) ∧
    (s.unitOk x 0 = true → u.getUnit gHOUSE x.unit = x.vals) ∧ (s.unitOk x 0 = false → u.cal.vals = s.cal.vals) := by
  subst hu
  rw [State.takeResult]
  dsimp only
  rw [hgroup, show fin 7 1 = gHOUSE from rfl, if_neg (show ¬ (1 : Nat) = 4 by decide), if_neg (show ¬ (1 : Nat) = 4 by decide)]
  cases s.unitOk x 0 with
  | true =>
    refine ⟨rfl, rfl, rfl, upd_same .., fun _ => ?_, fun h => absurd h (by decide)⟩
    show ((((s.cal.vals.filter fun v : Nat × Nat × List Int => !(v.1 == 1 && v.2.1 == x.unit)) ++ [(1, x.unit, x.vals)]).find?
      fun v : Nat × Nat × List Int => v.1 == 1 && v.2.1 == x.unit).map fun v : Nat × Nat × List Int => v.2.2).getD [] = _
    have hrest : (s.cal.vals.filter fun v : Nat × Nat × List Int => !(v.1 == 1 && v.2.1 == x.unit)).find?
        (fun v : Nat × Nat × List Int => v.1 == 1 && v.2.1 == x.unit) = none :=
      List.find?_eq_none.mpr fun v hv => by
        have hnot := (List.mem_filter.mp hv).2
        rw [Bool.not_eq_true'] at hnot
        rw [hnot]
        exact Bool.false_ne_true
    rw [List.find?_append, hrest, Option.none_or, List.find?_cons_of_pos (by simp)]
    rfl
  | false => exact ⟨rfl, rfl, rfl, upd_same .., fun h => absurd h (by decide), fun _ => rfl⟩

theorem State.countRun_keeps (s : State) (stale : Bool) {u : State} (hu : s.countRun stale = u) : EventOnly s u ∧ u.hq.compls = s.hq.compls ∧
    u.rd F.CAL_COUNT_COUNT = (s.rd F.CAL_COUNT_COUNT + 1) % 2 ^ 32 ∧ bitOf (u.rd Ev.cal.bits) 0 = true ∧
    (stale = true → bitOf (u.rd Ev.cal.bits) 1 = true) := by
  subst hu
  rw [State.countRun]
  have hxonly : RegsOnly s (s.incWrap F.CAL_COUNT_COUNT) := .wr ..
  have hxcount : (s.incWrap F.CAL_COUNT_COUNT).rd F.CAL_COUNT_COUNT = (s.rd F.CAL_COUNT_COUNT + 1) % 2 ^ 32 := State.rd_wr_same _ _ _ (by decide)
  have hxhq : (s.incWrap F.CAL_COUNT_COUNT).hq = s.hq := State.incWrap_hq ..
  generalize s.incWrap F.CAL_COUNT_COUNT = x at *
  have hbits := x.raise_bits Ev.cal (1 + 2 * b2n stale) (by decide)
  have hbit : ∀ i, i < 32 → (1 + 2 * b2n stale).testBit i = true → bitOf ((x.raise Ev.cal (1 + 2 * b2n stale)).rd Ev.cal.bits) i = true := by
    intro i hi hb
    rw [hbits]
    simp only [bitOf, Nat.testBit_mod_two_pow, Nat.testBit_or, hi, hb, decide_true, Bool.or_true, Bool.and_true]
  refine ⟨hxonly.event.trans (x.raise_event ..), by rw [(Signalled.raise x ..).compls, hxhq], ((x.raise_regs Ev.cal (1 + 2 * b2n stale)).rd _ (by decide)).trans hxcount,
    hbit 0 (by decide) (by cases stale <;> decide), ?_⟩
  rintro rfl
  exact hbit 1 (by decide) (by decide)

/-- The end of a run with one result, of HOUSE: the unit's state and values, the group's note, and the count. -/
theorem runEnd_house {h : Hdr} {r : CalRun} {x : CalResult} {refclk : List (Int × Nat)} {s : State} (hrun : s.cal.run = some r) (hcmd : r.cmd = some h)
    (hcut : r.cut = false) (hcommit : r.commit = false) (hlost : r.lost = false) (hstatus : r.status = 0)
    (hunits : ∀ g k, s.lostUnit r false g k = false) (hheld : s.acq.calHeld = 0) (hqueue : s.cal.queue = []) (hgroup : x.group = 1)
    (htakes : r.takes 1 x.unit = true) : Answers (.calibrationRunEnd [x] refclk) s fun u =>
      Completes s u h stOk r.detail (if s.unitOk x 0 then 2 else 2 + 2 ^ 8 * 2 + 2 ^ 16) ∧ u.cal.run = none ∧
      u.cal.units[gHOUSE] = s.cal.units[gHOUSE].set x.unit (if s.unitOk x 0 then 1 else 2) ∧
      (s.unitOk x 0 = true → u.getUnit gHOUSE x.unit = x.vals ∧ bitOf (u.rd Ev.cal.bits) 0 = true ∧
        u.rd F.CAL_COUNT_COUNT = (s.rd F.CAL_COUNT_COUNT + 1) % 2 ^ 32) ∧
      (s.unitOk x 0 = false → u.cal.vals = s.cal.vals ∧ bitOf (u.rd Ev.cal.bits) 1 = true) ∧ BytesSame s u := by
  have hexec : exec (.calibrationRunEnd [x] refclk) s = .next (s.calEnd r [x] refclk) := by
    show execCalibrationRunEnd [x] refclk s = _
    rw [execCalibrationRunEnd, hrun]
  rw [State.calEnd_house refclk hcmd hcut hcommit hlost hunits hgroup htakes, hstatus, if_pos rfl] at hexec
  obtain ⟨hw, -, hwqueue, hwunits, hwvals, hwsame⟩ := State.takeHouse_keeps (s := s) hgroup rfl
  generalize s.takeResult x 0 = w at *
  have hwregs : w.regs = s.regs := by rw [hw]
  generalize s.unitOk x 0 = ok at *
  obtain ⟨hxonly, hxsame⟩ := w.groupsNoted_keeps [1]
  generalize w.groupsNoted [1] = y at *
  have hycount : y.rd F.CAL_COUNT_COUNT = s.rd F.CAL_COUNT_COUNT := by
    rw [hxsame.rd _ (by decide), State.rd_of_regs hwregs]
  obtain ⟨hzonly, hzcompls, hzcount, hzbit, hzstale⟩ := y.countRun_keeps (!ok) rfl
  generalize y.countRun (!ok) = z at *
  have hzcal : z.cal = w.cal := by rw [hzonly, hxonly]
  obtain ⟨ha, hacal, -, hasame, -, -⟩ := z.calRelease_keeps (by rw [hzonly, hxonly, hw]; exact hheld) rfl
  generalize z.calRelease = a at *
  rw [State.calNext_empty (by rw [hacal, hzcal, hwqueue]; exact hqueue)] at hexec
  have hcompls : a.hq.compls = s.hq.compls := by rw [ha, hzcompls, hxonly, hw]
  have habytes : BytesSame s a := by rw [ha, hzonly, hxonly, hw]; exact .of_eq rfl rfl rfl rfl
  have hcompl := Completes.of_complete (h := h) (status := 0) (detail := r.detail) (result := if ok = true then 2 else 2 + 2 ^ 8 * 2 + 2 ^ 16) hcompls
  have huonly := (a.complete_keeps h 0 r.detail (if ok = true then 2 else 2 + 2 ^ 8 * 2 + 2 ^ 16)).2
  generalize a.complete h 0 r.detail (if ok = true then 2 else 2 + 2 ^ 8 * 2 + 2 ^ 16) = u at *
  have hurd : ∀ f, u.rd f = a.rd f := State.rd_of_regs (by rw [huonly])
  have hucal : u.cal = { w.cal with run := none } := by rw [huonly, hacal, hzcal]
  have huget : u.getUnit gHOUSE x.unit = w.getUnit gHOUSE x.unit := by
    show ((u.cal.vals.find? _).map _).getD [] = _
    rw [hucal]
    rfl
  refine ⟨u, hexec, hcompl, by rw [hucal], by rw [hucal]; exact hwunits, fun hok => ⟨huget.trans (hwvals hok), ?_, ?_⟩,
    fun hok => ⟨by rw [hucal]; exact hwsame hok, ?_⟩, habytes.trans (by rw [huonly]; exact .of_eq rfl rfl rfl rfl)⟩
  · rw [hurd, hasame.rd _ (by decide)]
    exact hzbit
  · rw [hurd, hasame.rd _ (by decide), hzcount, hycount]
  · rw [hurd, hasame.rd _ (by decide)]
    exact hzstale (by rw [hok]; rfl)


/-! ## The record (R406, R418) -/

theorem State.recordBytes_commit (s : State) (key : Nat) : ({ s with cal := { s.cal with commit := none } } : State).recordBytes key = s.recordBytes key := rfl

/-- The written record's flash. -/
theorem flash_image {m : Mem} {a : Nat} {l : List Byte} : (Mem.bytes (Mem.puts m a (l.map (255 - ·))) a l.length).map (255 - ·) = l := by
  have hbytes := Mem.bytes_puts m (a := a) (k := 0) (n := l.length) (l := l.map (255 - ·)) (by rw [List.length_map]; omega)
  rw [Nat.add_zero, List.drop_zero, List.take_of_length_le (by rw [List.length_map])] at hbytes
  rw [hbytes, List.map_map]
  refine (List.map_congr_left fun b _ => ?_).trans (List.map_id _)
  show 255 - (255 - b) = b
  bv_omega

theorem exec_recordWritten {h : Hdr} {r : CalRun} {n key : Nat} {s : State} (hcommit : s.cal.commit = some (r, n)) (hcmd : r.cmd = some h)
    (hkey : s.sec.calKey = some key) : exec (.calibrationRecordWritten true) s = .next ((((({ s with
      cal := { s.cal with commit := none }
      flash := Mem.puts (Mem.clear s.flash s.calSlot (2 ^ 20)) s.calSlot ((s.calImage key).map (255 - ·))
      boot := { s.boot with changes := s.boot.changes ++ [(2, RecChange.activate)] } } : State).wr F.GLB_UPD_CMD_CAL_ADVANCE 0).event Ev.cal 2).complete h
        r.status r.detail (if r.status = 0 then n else 0)).calNext) := by
  show execCalibrationRecordWritten true s = _
  rw [execCalibrationRecordWritten, hcommit]
  dsimp only
  rw [hkey, hcmd]
  rfl

theorem recordWritten_activates {h : Hdr} {r : CalRun} {n key : Nat} {s : State} (hcommit : s.cal.commit = some (r, n)) (hcmd : r.cmd = some h)
    (hkey : s.sec.calKey = some key) (hqueue : s.cal.queue = []) : Answers (.calibrationRecordWritten true) s fun u =>
      Completes s u h r.status r.detail (if r.status = 0 then n else 0) ∧ u.cal.commit = none ∧
      u.boot.changes = s.boot.changes ++ [(2, .activate)] ∧ u.rd F.GLB_UPD_CMD_CAL_ADVANCE = 0 ∧ bitOf (u.rd Ev.cal.bits) 2 = true ∧
      u.flashBytes s.calSlot (s.calImage key).length = s.calImage key ∧
      (∀ a, a < s.calSlot ∨ s.calSlot + max (2 ^ 20) (s.calImage key).length ≤ a → Mem.byte u.flash a = Mem.byte s.flash a) ∧
      RegsSame ((F.GLB_UPD_CMD_CAL_ADVANCE).addr :: evOut Ev.cal) s u ∧ u.canopy = s.canopy ∧ u.sdram = s.sdram ∧ u.host = s.host := by
  have hexec := exec_recordWritten hcommit hcmd hkey
  generalize s.calImage key = l at *
  generalize s.calSlot = slot at *
  have hxonly : ∀ x : State, ({ s with
      cal := { s.cal with commit := none }, flash := Mem.puts (Mem.clear s.flash slot (2 ^ 20)) slot (l.map (255 - ·))
      boot := { s.boot with changes := s.boot.changes ++ [(2, RecChange.activate)] } } : State) = x → x = { s with cal := x.cal, flash := x.flash, boot := x.boot } ∧
      x.cal = { s.cal with commit := none } ∧ x.flash = Mem.puts (Mem.clear s.flash slot (2 ^ 20)) slot (l.map (255 - ·)) ∧
      x.boot.changes = s.boot.changes ++ [(2, RecChange.activate)] ∧ x.regs = s.regs := by
    rintro x rfl
    exact ⟨rfl, rfl, rfl, rfl, rfl⟩
  generalize ({ s with
      cal := { s.cal with commit := none }, flash := Mem.puts (Mem.clear s.flash slot (2 ^ 20)) slot (l.map (255 - ·))
      boot := { s.boot with changes := s.boot.changes ++ [(2, RecChange.activate)] } } : State) = x at *
  obtain ⟨hx, hxcal, hxflash, hxboot, hxregs⟩ := hxonly x rfl
  have hadvance := State.rd_wr_same x F.GLB_UPD_CMD_CAL_ADVANCE 0 (by decide)
  have hyonly : RegsOnly x (x.wr F.GLB_UPD_CMD_CAL_ADVANCE 0) := .wr ..
  have hysame := ((RegsSame.refl ((F.GLB_UPD_CMD_CAL_ADVANCE).addr :: evOut Ev.cal) s).andRegs hxregs).andWr (f := F.GLB_UPD_CMD_CAL_ADVANCE) (v := 0) List.mem_cons_self
  have hyhq : (x.wr F.GLB_UPD_CMD_CAL_ADVANCE 0).hq = x.hq := State.wr_hq ..
  generalize x.wr F.GLB_UPD_CMD_CAL_ADVANCE 0 = y at *
  have hzonly := y.event_event Ev.cal 2
  have hzsame := y.event_regs Ev.cal 2
  have hzbit := y.event_bit Ev.cal (i := 2) (by decide) (by decide)
  have hzcompls := (Signalled.event y Ev.cal 2).compls
  generalize y.event Ev.cal 2 = z at *
  have hcompls : z.hq.compls = s.hq.compls := by rw [hzcompls, hyhq, hx]
  have hcompl := Completes.of_complete (h := h) (status := r.status) (detail := r.detail) (result := if r.status = 0 then n else 0) hcompls
  have huonly := (z.complete_keeps h r.status r.detail (if r.status = 0 then n else 0)).2
  generalize z.complete h r.status r.detail (if r.status = 0 then n else 0) = u at *
  have hall : u = { s with regs := u.regs, hq := u.hq, sched := u.sched, cal := x.cal, flash := x.flash, boot := x.boot } := by
    rw [huonly, hzonly, hyonly, hx]
  have huregs : u.regs = z.regs := by rw [huonly]
  have hucal : u.cal = { s.cal with commit := none } := by rw [hall, hxcal]
  have huflash : u.flash = Mem.puts (Mem.clear s.flash slot (2 ^ 20)) slot (l.map (255 - ·)) := by rw [hall, hxflash]
  rw [State.calNext_empty (by rw [hucal]; exact hqueue)] at hexec
  refine ⟨u, hexec, hcompl, by rw [hucal], by rw [hall, hxboot], ?_, ?_, ?_, fun a ha => ?_, (hysame.trans (hzsame.mono fun _ h => List.mem_cons_of_mem _ h)).andRegs huregs,
    by rw [hall], by rw [hall], by rw [hall]⟩
  · rw [State.rd_of_regs huregs, hzsame.rd _ (by decide), hadvance, Nat.zero_mod]
  · rw [State.rd_of_regs huregs]
    exact hzbit
  · rw [State.flashBytes, huflash, flash_image]
  · rw [huflash, Mem.byte_puts, dif_neg (by rw [List.length_map]; omega), Mem.byte_clear, if_neg (by omega)]

theorem recordWritten_fails {h : Hdr} {r : CalRun} {n : Nat} {s : State} (hcommit : s.cal.commit = some (r, n)) (hcmd : r.cmd = some h)
    (hqueue : s.cal.queue = []) : Answers (.calibrationRecordWritten false) s fun u =>
      Completes s u h 7 0 0 ∧ u.cal.commit = none ∧ bitOf (u.rd Ev.cal.bits) 3 = true ∧
      u = { s with regs := u.regs, hq := u.hq, sched := u.sched, cal := { s.cal with commit := none } } ∧ Quiet (evOut Ev.cal) s u := by
  have hexec : exec (.calibrationRecordWritten false) s = .next (((({ s with cal := { s.cal with commit := none } } : State).event Ev.cal 3).complete h 7 0 0).calNext) := by
    show execCalibrationRecordWritten false s = _
    rw [execCalibrationRecordWritten, hcommit]
    dsimp only
    rw [hcmd]
    rfl
  have hxonly : ∀ x : State, ({ s with cal := { s.cal with commit := none } } : State) = x → x = { s with cal := x.cal } ∧
      x.cal = { s.cal with commit := none } ∧ x.regs = s.regs := by
    rintro x rfl
    exact ⟨rfl, rfl, rfl⟩
  generalize ({ s with cal := { s.cal with commit := none } } : State) = x at *
  obtain ⟨hx, hxcal, hxregs⟩ := hxonly x rfl
  have hzonly := x.event_event Ev.cal 3
  have hzsame := x.event_regs Ev.cal 3
  have hzbit := x.event_bit Ev.cal (i := 3) (by decide) (by decide)
  have hzcompls := (Signalled.event x Ev.cal 3).compls
  generalize x.event Ev.cal 3 = z at *
  have hcompls : z.hq.compls = s.hq.compls := by rw [hzcompls, hx]
  have hcompl := Completes.of_complete (h := h) (status := 7) (detail := 0) (result := 0) hcompls
  have huonly := (z.complete_keeps h 7 0 0).2
  generalize z.complete h 7 0 0 = u at *
  have huregs : u.regs = z.regs := by rw [huonly]
  have hall : u = { s with regs := u.regs, hq := u.hq, sched := u.sched, cal := x.cal } := by rw [huonly, hzonly, hx]
  have hucal : u.cal = { s.cal with commit := none } := by rw [hall, hxcal]
  rw [State.calNext_empty (by rw [hucal]; exact hqueue)] at hexec
  exact ⟨u, hexec, hcompl, by rw [hucal], by rw [State.rd_of_regs huregs]; exact hzbit, by rw [hxcal] at hall; exact hall,
    ((RegsSame.of_regs _ hxregs).trans hzsame).andRegs huregs, by rw [hall]; exact .of_eq rfl rfl rfl rfl⟩

end Sys2Proof.Machine

open Sys2Proof Sys2Proof.Machine

/-- Settles O27: a run is followed from its start, through its end with no result and with one of HOUSE, to the record that commits it. -/
theorem calibrationRuns : Obligations.CalibrationRuns := by
  refine ⟨fun _ => powerup_begins, fun s hstart => if_pos (.inl hstart), fun _ _ _ _ _ _ => calibrate_begins, fun _ _ _ _ _ _ => calibrate_waits,
    fun h groups flags groves dscs s hb hbad => ?_, fun h groups flags groves dscs s hb hlo hhi hflags hnoRef => ?_,
    fun h groups flags groves dscs s hb hpos hgroups hflags hreload => ?_, fun _ _ _ _ => runEnd_none,
    fun h r x refclk s hrun hcmd hcut hcommit hlost hstatus hunits hheld hqueue hgroup htakes hok => ?_,
    fun h r x refclk s hrun hcmd hcut hcommit hlost hstatus hunits hheld hqueue hgroup htakes hok => ?_, fun refclk results s hrun => ?_,
    fun _ _ _ _ _ hcommit hcmd hkey hqueue => recordWritten_activates hcommit hcmd hkey hqueue, fun _ _ _ _ => recordWritten_fails, fun ok s hcommit => ?_⟩
  · obtain ⟨v, hv, hexec⟩ := exec_calibrate (groups := groups) (flags := flags) (groves := groves) (dscs := dscs) hb
    rw [if_pos hbad] at hexec
    exact calibrate_refused hv hexec
  · obtain ⟨v, hv, hexec⟩ := exec_calibrate (groups := groups) (flags := flags) (groves := groves) (dscs := dscs) hb
    rw [if_neg (by omega), if_pos ⟨hnoRef, fieldOf_used hlo hhi⟩] at hexec
    exact calibrate_refused hv hexec
  · obtain ⟨v, hv, hexec⟩ := exec_calibrate (groups := groups) (flags := flags) (groves := groves) (dscs := dscs) hb
    rw [if_neg (by omega), if_neg fun h => h.2 (fieldOf_high hgroups), if_pos hreload] at hexec
    exact calibrate_refused hv hexec
  · obtain ⟨u, hexec, hcompl, hend, hunitsAt, hgood, -, hbytes⟩ :=
      runEnd_house (refclk := refclk) hrun hcmd hcut hcommit hlost hstatus hunits hheld hqueue hgroup htakes
    rw [hok, if_pos rfl] at hcompl hunitsAt
    obtain ⟨hvals, hbit, hcount⟩ := hgood hok
    exact ⟨u, hexec, hcompl, hend, hvals, hunitsAt, hbit, hcount, hbytes⟩
  · obtain ⟨u, hexec, hcompl, hend, hunitsAt, -, hbad, hbytes⟩ :=
      runEnd_house (refclk := refclk) hrun hcmd hcut hcommit hlost hstatus hunits hheld hqueue hgroup htakes
    rw [hok, if_neg Bool.false_ne_true] at hcompl hunitsAt
    obtain ⟨hvals, hbit⟩ := hbad hok
    exact ⟨u, hexec, hcompl, hend, hvals, hunitsAt, hbit, hbytes⟩
  · show execCalibrationRunEnd results refclk s = _
    rw [execCalibrationRunEnd, hrun]
  · show execCalibrationRecordWritten ok s = _
    rw [execCalibrationRecordWritten, hcommit]

end

section
/-! O14 (captures and snapshots), R181, R195 and R199 to R202: what a drain completes, a mask write keeps, and a snapshot request leaves. -/

set_option Elab.async false

namespace Sys2Proof.Machine

/-! ## The capture masks (R195) -/

theorem State.chmask_eq (s : State) (i w : Nat) : ∃ new, new = without w (s.busyChans i) ||| (s.rd (F.CAP_CHMASK_MASK i) &&& s.busyChans i) ∧
    s.chmask i w = (if new = w then s.wr (F.CAP_CHMASK_MASK i) new else (s.wr (F.CAP_CHMASK_MASK i) new).capDrop) := ⟨_, rfl, rfl⟩

theorem without_zero (w : Nat) : without w 0 = w := by simp [without]

theorem chmask_free {req : Req} {i : Fin 4} {w : Word} {s : State} (hw : s.mayWrite req (F.CAP_CHMASK_MASK i).addr w = true) (hfree : s.busyChans i = 0) :
    Answers (.capChmaskWrite req i w) s fun u =>
      u.rd (F.CAP_CHMASK_MASK i) = w.toNat ∧ RegsOnly s u ∧ Quiet [(F.CAP_CHMASK_MASK i).addr, wseqOut] s u := by
  refine answers_regWrite rfl hw fun u honly hsame => ?_
  obtain ⟨new, hnew, happly⟩ := s.chmask_eq i w.toNat
  rw [hfree, without_zero, Nat.and_zero, Nat.or_zero] at hnew
  rw [if_pos hnew, hnew] at happly
  rw [happly] at honly hsame
  have hmask := State.rd_wr_same s (F.CAP_CHMASK_MASK i) w.toNat (show 0 + 32 ≤ 32 by decide)
  have hall : RegsOnly s u := (RegsOnly.wr ..).trans honly
  refine ⟨?_, hall, ((RegsSame.refl _ s).andWr List.mem_cons_self).trans (hsame.mono fun _ h => List.mem_cons_of_mem _ h), hall.event.bytes⟩
  rw [hsame.rd _ (by simp only [wseqOut, F.CAP_CHMASK_MASK, F.HQ_WSEQ_COUNT, List.mem_cons, List.not_mem_nil, or_false]; omega), hmask]
  exact Nat.mod_eq_of_lt w.isLt

theorem chmask_keeps {req : Req} {i : Fin 4} {w : Word} {s : State} (hw : s.mayWrite req (F.CAP_CHMASK_MASK i).addr w = true) :
    Answers (.capChmaskWrite req i w) s fun u =>
      (∀ k, bitOf (s.busyChans i) k = true → bitOf (u.rd (F.CAP_CHMASK_MASK i)) k = bitOf (s.rd (F.CAP_CHMASK_MASK i)) k) ∧
      Quiet ([(F.CAP_CHMASK_MASK i).addr, wseqOut, (F.CAP_DROP_CNT_COUNT).addr] ++ evOut Ev.cap) s u := by
  refine answers_regWrite rfl hw fun u honly hsame => ?_
  obtain ⟨new, hnew, happly⟩ := s.chmask_eq i w.toNat
  rw [happly] at honly hsame
  have hmask := State.rd_wr_same s (F.CAP_CHMASK_MASK i) new (show 0 + 32 ≤ 32 by decide)
  have hxonly : RegsOnly s (s.wr (F.CAP_CHMASK_MASK i) new) := .wr ..
  have hxsame : RegsSame ([(F.CAP_CHMASK_MASK i).addr, wseqOut, (F.CAP_DROP_CNT_COUNT).addr] ++ evOut Ev.cap) s (s.wr (F.CAP_CHMASK_MASK i) new) :=
    .wr _ _ _ (by simp)
  generalize s.wr (F.CAP_CHMASK_MASK i) new = x at *
  have hbit : ∀ k, bitOf (s.busyChans i) k = true → bitOf (new % 2 ^ 32) k = bitOf (s.rd (F.CAP_CHMASK_MASK i)) k := by
    intro k hk
    have hlt : k < 32 := by
      rw [State.busyChans, bitOf_maskOf] at hk
      exact List.mem_range.mp (List.mem_filter.mp (of_decide_eq_true hk)).1
    have hparts : bitOf new k = (bitOf (without w.toNat (s.busyChans i)) k || (bitOf (s.rd (F.CAP_CHMASK_MASK i)) k && bitOf (s.busyChans i) k)) := by
      rw [hnew, bitOf, Nat.testBit_or, Nat.testBit_and]
    rw [bitOf_without, hk] at hparts
    rw [bitOf, Nat.testBit_mod_two_pow, decide_eq_true hlt, Bool.true_and, ← bitOf, hparts]
    simp
  have hout : ∀ y : State, (if new = w.toNat then x else x.capDrop) = y → EventOnly x y ∧ y.rd (F.CAP_CHMASK_MASK i) = x.rd (F.CAP_CHMASK_MASK i) ∧
      RegsSame ((F.CAP_DROP_CNT_COUNT).addr :: evOut Ev.cap) x y := by
    rintro y rfl
    have hnot : (F.CAP_CHMASK_MASK i).addr ∉ (F.CAP_DROP_CNT_COUNT).addr :: evOut Ev.cap := by
      simp only [evOut, Ev.cap, Ev.sch, F.CAP_CHMASK_MASK, F.CAP_DROP_CNT_COUNT, F.SCH_UNCLAIMED_COUNT, List.mem_cons, List.not_mem_nil, or_false]
      omega
    split
    · exact ⟨.refl x, rfl, .refl _ x⟩
    · have hdrop : RegsSame ((F.CAP_DROP_CNT_COUNT).addr :: evOut Ev.cap) x x.capDrop :=
        (RegsSame.incSat x _ _ List.mem_cons_self).andEvent fun _ h => List.mem_cons_of_mem _ h
      exact ⟨(RegsOnly.wr ..).event.trans (State.event_event ..), hdrop.rd _ hnot, hdrop⟩
  generalize (if new = w.toNat then x else x.capDrop) = y at *
  obtain ⟨hyonly, hymask, hysame⟩ := hout y rfl
  refine ⟨fun k hk => ?_, (hxsame.trans (hysame.mono fun a ha => ?_)).trans (hsame.mono fun a ha => ?_), ?_⟩
  · rw [hsame.rd _ (by simp only [wseqOut, F.CAP_CHMASK_MASK, F.HQ_WSEQ_COUNT, List.mem_cons, List.not_mem_nil, or_false]; omega), hymask, hmask]
    exact hbit k hk
  · rcases List.mem_cons.mp ha with rfl | ha
    · simp
    · exact List.mem_append_right _ ha
  · rw [List.mem_singleton.mp ha]
    simp
  · exact (hxonly.event.trans (hyonly.trans honly.event)).bytes

/-! ## Snapshot requests (R199) -/

theorem State.snapLate_regs {s x : State} (honly : RegsOnly s x) (time : Bool) {g : Fin 32}
    (hrd : x.rd (F.STR_GROVE_THREAD g) = s.rd (F.STR_GROVE_THREAD g)) (point : Nat) : x.snapLate time g point = s.snapLate time g point := by
  have hthread : x.threadOf g = s.threadOf g := by
    rw [State.threadOf, hrd, State.threadOf]
  have hcommitted : x.committed g = s.committed g := by
    have hthreads : ∀ t t' : Fin 32, t = t' → x.threads[t] = s.threads[t'] := by
      rintro t _ rfl
      rw [honly]
    have hbursts : x.bursts = s.bursts := by rw [honly]
    rw [State.committed, hthreads _ _ hthread, hbursts, State.committed]
  have hreached : x.reached point = s.reached point := by rw [honly]; rfl
  rw [State.snapLate, hcommitted, hreached, State.snapLate]

/-- What showing a snapshot leaves. -/
theorem snapShow_fold (l : List (Fin 32)) (id : Nat) (time : Bool) (st : Nat) (x : State) {y : State}
    (hy : l.foldl (fun s g => s.snapShow g id time st) x = y) : RegsOnly x y ∧ y.rd F.CAP_SNAP_STAT_LAST_ID = x.rd F.CAP_SNAP_STAT_LAST_ID := by
  have hshow : ∀ (x : State) (g : Fin 32), RegsOnly x (x.snapShow g id time st) ∧ (x.snapShow g id time st).rd F.CAP_SNAP_STAT_LAST_ID =
      x.rd F.CAP_SNAP_STAT_LAST_ID := by
    intro x g
    refine ⟨.wrs .., State.rd_of_word _ (State.word_wrs ?_ x)⟩
    simp only [List.forall_mem_cons, F.CAP_SH_ID_ID, F.CAP_SH_ID_STATE, F.CAP_SH_ID_KIND, F.CAP_SNAP_STAT_LAST_ID]
    exact ⟨.inl (by omega), .inl (by omega), .inl (by omega), fun _ h => absurd h List.not_mem_nil⟩
  exact hy ▸ foldl_rel (R := fun x y => RegsOnly x y ∧ y.rd F.CAP_SNAP_STAT_LAST_ID = x.rd F.CAP_SNAP_STAT_LAST_ID) (fun x => ⟨.refl x, rfl⟩)
    (fun h k => ⟨h.1.trans k.1, k.2.trans h.2⟩) hshow l x

/-- A request that is neither refused nor late is pending. -/
theorem State.snapRequest_eq {s : State} {time : Bool} {g : Fin 32} {id point : Nat} {cmd : Option Hdr} (hcode : s.snapRefusal time g id = 0)
    (hlate : s.snapLate time g point = false) (hended : time = true ∨ s.groves[g].ended = none) : ∃ y : State,
    (snapGroves time g).foldl (fun s g => s.snapShow g id time snapPending) (s.wr F.CAP_SNAP_STAT_LAST_ID id) = y ∧
    s.snapRequest time false g id point cmd none = ({ y with
      snaps := y.snaps ++ [{ time := time, linked := false, grove := g, id := id, point := point, cmd := cmd, wait := none }] } : State).wr
      F.CAP_SNAP_STAT_PENDING (y.snaps.length + 1) := by
  refine ⟨_, rfl, ?_⟩
  have hxonly : RegsOnly s (s.wr F.CAP_SNAP_STAT_LAST_ID id) := .wr ..
  have hxthread : (s.wr F.CAP_SNAP_STAT_LAST_ID id).rd (F.STR_GROVE_THREAD g) = s.rd (F.STR_GROVE_THREAD g) :=
    State.rd_of_word _ (State.word_wr _ _ _ _ _ (.inl (by simp only [F.STR_GROVE_THREAD, F.CAP_SNAP_STAT_LAST_ID]; omega)))
  have hxlate := State.snapLate_regs hxonly time hxthread point
  have hyonly := (snapShow_fold (snapGroves time g) id time snapPending (s.wr F.CAP_SNAP_STAT_LAST_ID id) rfl).1
  have hgroves : ((snapGroves time g).foldl (fun s g => s.snapShow g id time snapPending) (s.wr F.CAP_SNAP_STAT_LAST_ID id)).groves[g].ended =
      s.groves[g].ended := by rw [hyonly, hxonly]
  rw [State.snapRequest, hcode]
  simp only [ne_eq, not_true, false_and, if_false, Bool.false_eq_true]
  rw [if_neg (by rw [hxlate, hlate]; exact Bool.false_ne_true), if_neg]
  rintro ⟨htime, hsome, -⟩
  rcases hended with h | h
  · rw [h] at htime
    exact absurd htime (by decide)
  · have hnone : ((snapGroves time g).foldl (fun s g => s.snapShow g id time snapPending) (s.wr F.CAP_SNAP_STAT_LAST_ID id)).groves[g].ended.isSome = true := hsome
    rw [hgroves, h] at hnone
    exact absurd hnone (by decide)

theorem State.snapRequest_pending {s : State} {time : Bool} {g : Fin 32} {id point : Nat} {cmd : Option Hdr} (hcode : s.snapRefusal time g id = 0)
    (hlate : s.snapLate time g point = false) (hended : time = true ∨ s.groves[g].ended = none) {u : State}
    (hu : s.snapRequest time false g id point cmd none = u) : u = { s with regs := u.regs, snaps := u.snaps } ∧
    u.snaps = s.snaps ++ [{ time := time, linked := false, grove := g, id := id, point := point, cmd := cmd, wait := none }] ∧
    u.rd F.CAP_SNAP_STAT_LAST_ID = id % 2 ^ 16 := by
  obtain ⟨y, hy, heq⟩ := State.snapRequest_eq (cmd := cmd) hcode hlate hended
  rw [heq] at hu
  have hxid := State.rd_wr_same s F.CAP_SNAP_STAT_LAST_ID id (by decide)
  have hxonly : RegsOnly s (s.wr F.CAP_SNAP_STAT_LAST_ID id) := .wr ..
  generalize s.wr F.CAP_SNAP_STAT_LAST_ID id = x at *
  obtain ⟨hyonly, hyid⟩ := snapShow_fold (snapGroves time g) id time snapPending x hy
  have hysnaps : y.snaps = s.snaps := by rw [hyonly, hxonly]
  rw [hysnaps] at hu
  generalize ([{ time := time, linked := false, grove := g, id := id, point := point, cmd := cmd, wait := none }] : List Snap) = l at *
  have hzonly : ∀ z : State, ({ y with snaps := s.snaps ++ l } : State) = z → z = { y with snaps := z.snaps } ∧ z.snaps = s.snaps ++ l ∧ z.regs = y.regs := by
    rintro z rfl
    exact ⟨rfl, rfl, rfl⟩
  generalize ({ y with snaps := s.snaps ++ l } : State) = z at *
  obtain ⟨hz, hzsnaps, hzregs⟩ := hzonly z rfl
  have hwonly : RegsOnly z u := hu ▸ .wr ..
  have hwid : u.rd F.CAP_SNAP_STAT_LAST_ID = z.rd F.CAP_SNAP_STAT_LAST_ID := hu ▸ State.rd_wr_apart _ _ _ _ (by decide) (by decide)
  refine ⟨by rw [hwonly, hz, hyonly, hxonly], by rw [hwonly, hzsnaps], ?_⟩
  rw [hwid, State.rd_of_regs hzregs, hyid, hxid]
  rfl

theorem exec_snapshot {h : Hdr} {time linked : Bool} {grove id point : Nat} {s : State} (hb : s.canBegin h 0x20) (hgrove : grove < 32) (hid : id < 2 ^ 16) :
    ∃ v, BegunOnly s v ∧ v.snapRefusal time (fin 32 grove) id = s.snapRefusal time (fin 32 grove) id ∧
      v.snapLate time (fin 32 grove) point = s.snapLate time (fin 32 grove) point ∧
      exec (.snapshot h time linked grove id point) s = .next (v.snapRequest time linked (fin 32 grove) id point (some h) none) := by
  obtain ⟨v, hv, hrun⟩ := State.begin_ready hb
  refine ⟨v, hv, by rw [hv.1]; rfl, by rw [hv.1]; rfl, ?_⟩
  show execSnapshot h time linked grove id point s = _
  rw [execSnapshot, hrun, if_neg (by omega)]

theorem snapshot_pending {h : Hdr} {time linked : Bool} {grove id point : Nat} {s : State} (hb : s.canBegin h 0x20) (hgrove : grove < 32)
    (hid : id < 2 ^ 16) (hcode : s.snapRefusal time (fin 32 grove) id = 0) (hlinked : linked = false)
    (hlate : s.snapLate time (fin 32 grove) point = false) (hended : time = true ∨ s.groves[fin 32 grove].ended = none) :
    Answers (.snapshot h time linked grove id point) s fun u =>
      u.snaps = s.snaps ++ [{ time := time, linked := linked, grove := grove, id := id, point := point, cmd := some h, wait := none }] ∧
      u.hq.compls = s.hq.compls ∧ u.rd F.CAP_SNAP_STAT_LAST_ID = id := by
  subst hlinked
  obtain ⟨v, hv, hvcode, hvlate, hexec⟩ := exec_snapshot (time := time) (linked := false) (point := point) hb hgrove hid
  have hvended : time = true ∨ v.groves[fin 32 grove].ended = none := by rw [hv.1]; exact hended
  obtain ⟨honly, hsnaps, hlast⟩ := State.snapRequest_pending (cmd := some h) (hvcode.trans hcode) (hvlate.trans hlate) hvended rfl
  generalize v.snapRequest time false (fin 32 grove) id point (some h) none = u at *
  have hvsnaps : v.snaps = s.snaps := by rw [hv.1]
  have hfin : (fin 32 grove).1 = grove := Nat.mod_eq_of_lt hgrove
  rw [hvsnaps, hfin] at hsnaps
  rw [Nat.mod_eq_of_lt hid] at hlast
  exact ⟨u, hexec, hsnaps, by rw [honly, hv.2], hlast⟩

theorem snapshot_refused {h : Hdr} {time linked : Bool} {grove id point : Nat} {s : State} (hb : s.canBegin h 0x20) (hgrove : grove < 32)
    (hid : id < 2 ^ 16) (hcode : s.snapRefusal time (fin 32 grove) id ≠ 0) : Answers (.snapshot h time linked grove id point) s fun u =>
      Completes s u h (s.snapRefusal time (fin 32 grove) id) 0 0 ∧ u.snaps = s.snaps ∧
      Quiet ((F.CAP_SNAP_STAT_REFUSED).addr :: evOut Ev.cap) s u := by
  obtain ⟨v, hv, hvcode, -, hexec⟩ := exec_snapshot (time := time) (linked := linked) (point := point) hb hgrove hid
  have hrequest : v.snapRequest time linked (fin 32 grove) id point (some h) none =
      ((v.wr F.CAP_SNAP_STAT_REFUSED (s.snapRefusal time (fin 32 grove) id)).event Ev.cap 6).complete h (s.snapRefusal time (fin 32 grove) id) := by
    rw [State.snapRequest, hvcode]
    dsimp only
    rw [if_pos hcode, if_neg (by simp)]
  rw [hrequest] at hexec
  generalize s.snapRefusal time (fin 32 grove) id = code at *
  have hxonly : RegsOnly v (v.wr F.CAP_SNAP_STAT_REFUSED code) := .wr ..
  have hxsame : RegsSame ((F.CAP_SNAP_STAT_REFUSED).addr :: evOut Ev.cap) v (v.wr F.CAP_SNAP_STAT_REFUSED code) := .wr _ _ _ List.mem_cons_self
  have hxhq : (v.wr F.CAP_SNAP_STAT_REFUSED code).hq = v.hq := State.wr_hq ..
  generalize v.wr F.CAP_SNAP_STAT_REFUSED code = x at *
  have hyonly := x.event_event Ev.cap 6
  have hysame := x.event_regs Ev.cap 6
  have hycompls := (Signalled.event x Ev.cap 6).compls
  generalize x.event Ev.cap 6 = y at *
  have hcompl : Completes s (y.complete h code) h code 0 0 := Completes.of_complete (by rw [hycompls, hxhq, hv.2])
  have hquiet : Quiet ((F.CAP_SNAP_STAT_REFUSED).addr :: evOut Ev.cap) s y :=
    ⟨((RegsSame.of_regs _ hv.regs).trans hxsame).trans (hysame.mono fun _ h => List.mem_cons_of_mem _ h), by
      rw [hyonly, hxonly, hv.1]; exact .of_eq rfl rfl rfl rfl⟩
  have hall := hquiet.andComplete (c := h) (status := code) (detail := 0) (result := 0) (intake := false)
  have huonly := (y.complete_keeps h code 0 0).2
  generalize y.complete h code = u at *
  exact ⟨u, hexec, hcompl, by rw [huonly, hyonly, hxonly, hv.1], hall⟩


/-- What the command register shows of a request. -/
theorem State.snapCmd_request {s : State} {w : Nat} (hgo : bitOf w 0 = true) : ∃ x : State, RegsOnly s x ∧ (∀ g : Fin 32,
      x.rd (F.STR_GROVE_THREAD g) = s.rd (F.STR_GROVE_THREAD g) ∧ x.rd (F.STR_GROVE_BOUND g) = s.rd (F.STR_GROVE_BOUND g)) ∧
    s.snapCmd w = x.snapRequest (bitOf w 1) (bitOf w 2) (fin 32 (fieldOf w 8 5)) (fieldOf w 16 16) (s.rdP F.CAP_SNAP_POINT_LO_POINT) none none := by
  rw [State.snapCmd, if_pos hgo]
  have honly : RegsOnly s (s.wrs [(F.CAP_SNAP_CMD_KIND, fieldOf w 1 1), (F.CAP_SNAP_CMD_LINKED, fieldOf w 2 1), (F.CAP_SNAP_CMD_GROVE, fieldOf w 8 5),
    (F.CAP_SNAP_CMD_ID, fieldOf w 16 16)]) := .wrs ..
  have hsame : RegsSame [(F.CAP_SNAP_CMD_KIND).addr] s (s.wrs [(F.CAP_SNAP_CMD_KIND, fieldOf w 1 1), (F.CAP_SNAP_CMD_LINKED, fieldOf w 2 1),
    (F.CAP_SNAP_CMD_GROVE, fieldOf w 8 5), (F.CAP_SNAP_CMD_ID, fieldOf w 16 16)]) :=
    .wrs _ _ (by simp [F.CAP_SNAP_CMD_KIND, F.CAP_SNAP_CMD_LINKED, F.CAP_SNAP_CMD_GROVE, F.CAP_SNAP_CMD_ID])
  generalize s.wrs [(F.CAP_SNAP_CMD_KIND, fieldOf w 1 1), (F.CAP_SNAP_CMD_LINKED, fieldOf w 2 1), (F.CAP_SNAP_CMD_GROVE, fieldOf w 8 5),
    (F.CAP_SNAP_CMD_ID, fieldOf w 16 16)] = x at *
  refine ⟨x, honly, fun g => ⟨hsame.rd _ ?_, hsame.rd _ ?_⟩, by rw [hsame.rdP _ (by decide) (by decide)]⟩ <;>
    simp only [F.STR_GROVE_THREAD, F.STR_GROVE_BOUND, F.CAP_SNAP_CMD_KIND, List.mem_cons, List.not_mem_nil, or_false] <;> omega

/-- The same, for a grove `g` that the register names. -/
theorem snapCmd_pending {s : State} {w : Word} {g : Fin 32} (hg : fin 32 (fieldOf w.toNat 8 5) = g) (hgo : w.getLsbD 0 = true)
    (hcode : s.snapRefusal (w.getLsbD 1) g (fieldOf w.toNat 16 16) = 0) (hlinked : w.getLsbD 2 = false)
    (hlate : s.snapLate (w.getLsbD 1) g (s.rdP F.CAP_SNAP_POINT_LO_POINT) = false) (hended : w.getLsbD 1 = true ∨ s.groves[g].ended = none) {u : State}
    (hu : s.snapCmd w.toNat = u) :
    u.snaps = s.snaps ++ [{ time := w.getLsbD 1, linked := false, grove := g, id := fieldOf w.toNat 16 16, point := s.rdP F.CAP_SNAP_POINT_LO_POINT
                            cmd := none, wait := none }] ∧ u.rd F.CAP_SNAP_STAT_LAST_ID = fieldOf w.toNat 16 16 := by
  obtain ⟨x, hxonly, hxrd, hcmd⟩ := State.snapCmd_request (s := s) (w := w.toNat) hgo
  obtain ⟨hthread, hbound⟩ := hxrd g
  rw [hu, hg, show bitOf w.toNat 1 = w.getLsbD 1 from rfl, show bitOf w.toNat 2 = false from hlinked] at hcmd
  have hxcode : x.snapRefusal (w.getLsbD 1) g (fieldOf w.toNat 16 16) = 0 := by
    have hxb : x.bound g = s.bound g := by rw [State.bound, State.on, hbound, State.bound, State.on]
    have hxi : x.groveIdle g = s.groveIdle g := by rw [hxonly]; rfl
    have hxsnaps : x.snaps = s.snaps := by rw [hxonly]
    rw [← hcode, State.snapRefusal, hxb, hxi, hxsnaps, State.snapRefusal]
  have hxlate := State.snapLate_regs hxonly (w.getLsbD 1) hthread (s.rdP F.CAP_SNAP_POINT_LO_POINT)
  have hxended : w.getLsbD 1 = true ∨ x.groves[g].ended = none := by rw [hxonly]; exact hended
  obtain ⟨-, hsnaps, hlast⟩ := State.snapRequest_pending (cmd := none) hxcode (hxlate.trans hlate) hxended hcmd.symm
  rw [show x.snaps = s.snaps by rw [hxonly]] at hsnaps
  exact ⟨hsnaps, hlast.trans (Nat.mod_eq_of_lt (fieldOf_lt _ _ _))⟩

theorem capSnapCmd_pending {req : Req} {w : Word} {s : State} (hw : s.mayWrite req F.CAP_SNAP_CMD_KIND.addr w = true) (hgo : w.getLsbD 0 = true)
    (hcode : s.snapRefusal (w.getLsbD 1) (fin 32 (fieldOf w.toNat 8 5)) (fieldOf w.toNat 16 16) = 0) (hlinked : w.getLsbD 2 = false)
    (hlate : s.snapLate (w.getLsbD 1) (fin 32 (fieldOf w.toNat 8 5)) (s.rdP F.CAP_SNAP_POINT_LO_POINT) = false)
    (hended : w.getLsbD 1 = true ∨ s.groves[fin 32 (fieldOf w.toNat 8 5)].ended = none) : Answers (.capSnapCmd req w) s fun u =>
      u.snaps = s.snaps ++ [{ time := w.getLsbD 1, linked := false, grove := fieldOf w.toNat 8 5, id := fieldOf w.toNat 16 16
                              point := s.rdP F.CAP_SNAP_POINT_LO_POINT, cmd := none, wait := none }] ∧
      u.rd F.CAP_SNAP_STAT_LAST_ID = fieldOf w.toNat 16 16 := by
  refine answers_regWrite rfl hw fun u honly hsame => ?_
  obtain ⟨hsnaps, hlast⟩ := snapCmd_pending rfl hgo hcode hlinked hlate hended rfl
  rw [show (fin 32 (fieldOf w.toNat 8 5)).1 = fieldOf w.toNat 8 5 from Nat.mod_eq_of_lt (fieldOf_lt _ _ _)] at hsnaps
  exact ⟨by rw [honly, hsnaps], by rw [hsame.rd _ (by decide), hlast]⟩

/-! ## A time point reached (R201) -/

/-- What a snapshot's copies and reports leave: the requests and the completions. -/
def SnapSame (s u : State) : Prop := u.snaps = s.snaps ∧ u.hq.compls = s.hq.compls

theorem SnapSame.trans {s x u : State} (h : SnapSame s x) (k : SnapSame x u) : SnapSame s u := ⟨k.1.trans h.1, k.2.trans h.2⟩

theorem RegsOnly.snapSame {s u : State} (h : RegsOnly s u) : SnapSame s u := by rw [h]; exact ⟨rfl, rfl⟩

theorem State.copyShadow_only (s : State) (g : Fin 32) (id : Nat) (time : Bool) (st cycle : Nat) : RegsOnly s (s.copyShadow g id time st cycle) := by
  have hpairs : ∀ (l : List (Fld × Fld)) (x : State), RegsOnly x (l.foldl (fun s p => s.wrP p.1 (s.rdP p.2)) x) := fun l x =>
    foldl_rel RegsOnly.refl RegsOnly.trans (fun b a => .wrP ..) l x
  have hchans : ∀ (l : List (Fin 128)) (x : State), RegsOnly x (l.foldl (fun (s : State) (c : Fin 128) => s.wr (F.CAP_SH_CH_FAIL_COUNT (id % 2) c) (s.rd (F.CAP_CH_FAIL_COUNT c))) x) :=
    fun l x => foldl_rel RegsOnly.refl RegsOnly.trans (fun b a => .wr ..) l x
  rw [State.copyShadow]
  exact ((((hpairs _ s).trans (.wrP ..)).trans (.wrP ..)).trans (hchans _ _)).trans (.wrs ..)

theorem State.snapTell_same (s : State) (g id st : Nat) : SnapSame s (s.snapTell g id st) :=
  ⟨by rw [State.snapTell, State.occurrence_event s 5 g (id + 2 ^ 16 * st)], (Signalled.occurrence ..).compls⟩

theorem State.snapDone_completes {s : State} {p : Snap} {h : Hdr} (hcmd : p.cmd = some h) (st : Nat) {u : State} (hu : s.snapDone p st = u) :
    Completes s u h stOk 0 st ∧ u.snaps = s.snaps.filter fun q => q.id != p.id := by
  rw [State.snapDone, hcmd] at hu
  dsimp only at hu
  generalize (s.snaps.filter fun q => q.id != p.id) = rest at *
  have hxonly : ∀ x : State, ({ s with snaps := rest } : State) = x → x.snaps = rest ∧ x.hq = s.hq := by
    rintro x rfl
    exact ⟨rfl, rfl⟩
  generalize ({ s with snaps := rest } : State) = x at *
  obtain ⟨hxsnaps, hxhq⟩ := hxonly x rfl
  have hyonly : RegsOnly x (x.wr F.CAP_SNAP_STAT_PENDING rest.length) := .wr ..
  generalize x.wr F.CAP_SNAP_STAT_PENDING rest.length = y at *
  have hzonly := y.event_event Ev.cap 4
  have hzcompls := (Signalled.event y Ev.cap 4).compls
  generalize y.event Ev.cap 4 = z at *
  have huonly := (z.complete_keeps h stOk 0 st).2
  subst hu
  refine ⟨Completes.of_complete ?_, by rw [huonly, hzonly, hyonly, hxsnaps]⟩
  rw [hzcompls, hyonly, hxhq]

/-- No grove's results are owed at `point`. -/
theorem owed_none {s : State} {point : Nat} (h : ∀ g, s.owed g point = none) :
    ((allFin 32).filterMap fun g => (s.owed g point).map fun c => (g.1, c)) = [] :=
  List.filterMap_eq_nil_iff.mpr fun g _ => by rw [h g]; rfl

theorem snapshotTimePoint_completes {p : Snap} {h : Hdr} {s : State} (hdue : s.snapDue = some p) (howed : ∀ g, s.owed g p.point = none) (hcmd : p.cmd = some h) :
    Answers .snapshotTimePoint s fun u => Completes s u h stOk 0 snapValid ∧ u.snaps = s.snaps.filter (fun q => q.id != p.id) := by
  have hexec : exec .snapshotTimePoint s = execSnapshotTimePoint s := rfl
  rw [execSnapshotTimePoint, hdue] at hexec
  dsimp only at hexec
  rw [owed_none howed] at hexec
  have hfabric : SnapSame s (s.copyFabric p.id) := ⟨rfl, rfl⟩
  generalize s.copyFabric p.id = x at *
  have hone : ∀ (x : State) (g : Fin 32), SnapSame x ((x.copyShadow g p.id true snapValid (x.groves[g].lastAny.getD (2 ^ 64 - 1))).snapTell g p.id snapValid) :=
    fun x g => (x.copyShadow_only g p.id true snapValid _).snapSame.trans (State.snapTell_same ..)
  have hcopies := hfabric.trans (foldl_rel (R := SnapSame) (fun x => ⟨rfl, rfl⟩) SnapSame.trans hone ((allFin 32).filter fun g => (s.owed g p.point).isNone) x)
  generalize ((allFin 32).filter fun g => (s.owed g p.point).isNone).foldl (fun s g =>
    (s.copyShadow g p.id true snapValid (s.groves[g].lastAny.getD (2 ^ 64 - 1))).snapTell g p.id snapValid) x = y at *
  rw [State.snapSettle, if_pos rfl] at hexec
  obtain ⟨hcompl, hsnaps⟩ := State.snapDone_completes (s := y) (p := { p with wait := some [] }) hcmd snapValid rfl
  generalize y.snapDone { p with wait := some [] } snapValid = u at *
  exact ⟨u, hexec, hcompl.trans (congrArg (· ++ [_]) hcopies.2), by rw [hsnaps, hcopies.1]⟩

/-! ## A capture drained (R181) -/

/-- What grove `g` gathers for its capture: the visit, the map's run and the granule of values, all as they were. -/
def RunsKept (g : Fin 32) (s u : State) : Prop :=
  u.groves[g].visit = s.groves[g].visit ∧ u.groves[g].mapRun = s.groves[g].mapRun ∧ u.groves[g].valGran = s.groves[g].valGran

theorem RunsKept.refl {g : Fin 32} (s : State) : RunsKept g s s := ⟨rfl, rfl, rfl⟩

theorem RunsKept.trans {g : Fin 32} {s x u : State} (h : RunsKept g s x) (k : RunsKept g x u) : RunsKept g s u :=
  ⟨k.1.trans h.1, k.2.1.trans h.2.1, k.2.2.trans h.2.2⟩

theorem RunsKept.of_groves {g : Fin 32} {s u : State} (h : u.groves = s.groves) : RunsKept g s u := by
  rw [RunsKept, h]
  exact ⟨rfl, rfl, rfl⟩

theorem RunsKept.modGrove {g : Fin 32} (s : State) {f : Grove → Grove}
    (hf : ∀ k : Grove, (f k).visit = k.visit ∧ (f k).mapRun = k.mapRun ∧ (f k).valGran = k.valGran) : RunsKept g s (s.modGrove g f) := by
  rw [RunsKept, State.modGrove_same]
  exact hf _

theorem RunsKept.ite {g : Fin 32} {s a b : State} {c : Prop} [Decidable c] (ha : RunsKept g s a) (hb : RunsKept g s b) :
    RunsKept g s (if c then a else b) := by
  split
  · exact ha
  · exact hb

theorem EventOnly.groves {s u : State} (h : EventOnly s u) : u.groves = s.groves := by rw [h]

theorem RegsOnly.groves {s u : State} (h : RegsOnly s u) : u.groves = s.groves := by rw [h]

theorem State.capWrite_groves (s : State) (g : Fin 32) (off : Nat) (l : List Byte) : (s.capWrite g off l).groves = s.groves := by
  rw [State.capWrite]
  cases s.groves[g].bufs with
  | nil => rfl
  | cons p ps =>
    dsimp only
    rw [State.writePlace]
    split
    · rfl
    · split <;> rfl

/-- A loss counted in grove `g`, of a record or of a granule, with its register, its event and its flag. -/
theorem RunsKept.loss {g : Fin 32} (s : State) {f : Grove → Grove} (hf : ∀ k : Grove, (f k).visit = k.visit ∧ (f k).mapRun = k.mapRun ∧
    (f k).valGran = k.valGran) (a b : Fld) (first : Bool) :
    RunsKept g s (((((s.modGrove g f).incSat a).wr b 1).event Ev.cap 2).flagLoss g first) := by
  have hcount : RunsKept g (s.modGrove g f) ((((s.modGrove g f).incSat a).wr b 1).event Ev.cap 2) :=
    .of_groves (((RegsOnly.wr ..).trans (RegsOnly.wr ..)).event.trans (State.event_event ..)).groves
  refine ((RunsKept.modGrove s hf).trans hcount).trans (.of_groves ?_)
  rw [State.flagLoss]
  split
  · exact State.capWrite_groves ..
  · rfl

theorem RunsKept.loseFail {g : Fin 32} (s : State) : RunsKept g s (s.loseFail g) := by
  rw [State.loseFail]
  refine RunsKept.loss s ?_ _ _ _
  exact fun _ => ⟨rfl, rfl, rfl⟩

theorem RunsKept.loseVal {g : Fin 32} (s : State) : RunsKept g s (s.loseVal g) := by
  rw [State.loseVal]
  refine RunsKept.loss s ?_ _ _ _
  exact fun _ => ⟨rfl, rfl, rfl⟩

theorem RunsKept.capWrite {g : Fin 32} (s : State) (off : Nat) (l : List Byte) : RunsKept g s (s.capWrite g off l) := .of_groves (State.capWrite_groves ..)

theorem RunsKept.addFail {g : Fin 32} (s : State) (l : List Byte) : RunsKept g s (s.addFail g l) := by
  rw [State.addFail]
  dsimp only
  split
  · exact .loseFail s
  · split
    · refine RunsKept.trans (RunsKept.capWrite ..) (RunsKept.modGrove _ ?_)
      exact fun _ => ⟨rfl, rfl, rfl⟩
    · split
      · refine RunsKept.trans (RunsKept.trans (RunsKept.capWrite ..) (RunsKept.modGrove _ ?_)) (RunsKept.loseFail _)
        exact fun _ => ⟨rfl, rfl, rfl⟩
      · exact .loseFail s

/-- A visit ends: none is under way. -/
theorem State.endVisit_ended (s : State) (g : Fin 32) (ended : Bool) : (s.endVisit g ended).groves[g].visit = none := by
  rw [State.endVisit]
  cases hv : s.groves[g].visit with
  | none => exact hv
  | some v =>
    have hnone : (s.modGrove g fun k => { k with visit := none }).groves[g].visit = none := by rw [State.modGrove_same]
    dsimp only
    split
    · exact hnone
    · exact (RunsKept.addFail ..).1.trans hnone

/-- What the end of a map's run leaves: the visit, and no run. -/
theorem State.endMap_ended (s : State) (g : Fin 32) : (s.endMap g).groves[g].visit = s.groves[g].visit ∧ (s.endMap g).groves[g].mapRun = none := by
  rw [State.endMap]
  cases hm : s.groves[g].mapRun with
  | none => exact ⟨rfl, hm⟩
  | some m =>
    have hbin : RunsKept g s (s.endBin g m).1 := by
      rw [State.endBin]
      split
      · exact .refl s
      · dsimp only
        split
        · exact .refl s
        · exact .addFail ..
    dsimp only
    generalize s.endBin g m = r at *
    rw [State.modGrove_same]
    exact ⟨(RunsKept.addFail ..).1.trans hbin.1, rfl⟩

/-- What the end of a granule of values leaves: the visit and the map's run, and no granule. -/
theorem State.endGran_ended (s : State) (g : Fin 32) : (s.endGran g).groves[g].visit = s.groves[g].visit ∧
    (s.endGran g).groves[g].mapRun = s.groves[g].mapRun ∧ (s.endGran g).groves[g].valGran = none := by
  rw [State.endGran]
  cases hv : s.groves[g].valGran with
  | none => exact ⟨rfl, rfl, hv⟩
  | some v =>
    have hclear : (s.modGrove g fun k => { k with valGran := none }).groves[g].visit = s.groves[g].visit ∧
        (s.modGrove g fun k => { k with valGran := none }).groves[g].mapRun = s.groves[g].mapRun ∧
        (s.modGrove g fun k => { k with valGran := none }).groves[g].valGran = none := by
      rw [State.modGrove_same]
      exact ⟨rfl, rfl, rfl⟩
    have hkept : ∀ {u : State}, RunsKept g (s.modGrove g fun k => { k with valGran := none }) u → u.groves[g].visit = s.groves[g].visit ∧
        u.groves[g].mapRun = s.groves[g].mapRun ∧ u.groves[g].valGran = none := fun h =>
      ⟨h.1.trans hclear.1, h.2.1.trans hclear.2.1, h.2.2.trans hclear.2.2⟩
    dsimp only
    generalize (s.modGrove g fun k => { k with valGran := none }) = x at *
    refine hkept (.ite (.loseVal x) (RunsKept.trans ?_ (RunsKept.capWrite ..)))
    refine RunsKept.trans ?_ (foldl_rel (R := RunsKept g) RunsKept.refl RunsKept.trans (fun x _ => RunsKept.loseVal x) _ _)
    exact .modGrove x fun _ => ⟨rfl, rfl, rfl⟩

theorem State.putPeer_below (s : State) (l p failcyc fails ff ch : Nat) (failed sat : Bool) (tag epoch : Nat) :
    WordsBelow 0xD1000 s (s.putPeer l p failcyc fails ff ch failed sat tag epoch) := by
  rw [State.putPeer_eq]
  refine WordsBelow.trans (WordsBelow.trans (WordsBelow.trans (WordsBelow.wrP _ _ _ ?_) (WordsBelow.wrP _ _ _ ?_) le_rfl)
    (WordsBelow.wrP _ _ _ ?_) le_rfl) (WordsBelow.wrs _ _ fun x hx => le_trans ?_ (peerStat_above x hx)) le_rfl
  · simp only [F.MFL_PEER_FAILCYC_LO_COUNT]
    omega
  · simp only [F.MFL_PEER_FAILS_LO_COUNT]
    omega
  · simp only [F.MFL_PEER_FF_LO_CYCLE]
    omega
  · omega

/-- What the sending of a grove's counts leaves: the groves, and every register below those of the peers. -/
theorem State.sendPeers_keeps (s : State) (g : Fin 32) : (s.sendPeers g).groves = s.groves ∧ WordsBelow 0xD1000 s (s.sendPeers g) := by
  rw [State.sendPeers]
  split
  · next l tag ep hl hlink hburst =>
    have hqueued : ∀ (links : List (Fin 8)) (frame : List Byte) (x : State), (links.foldl (fun s n => s.queueBulk n 2 frame) x).groves = x.groves ∧
        (links.foldl (fun s n => s.queueBulk n 2 frame) x).regs = x.regs := fun links frame x =>
      foldl_rel (f := fun s n => s.queueBulk n 2 frame) (R := fun x y : State => y.groves = x.groves ∧ y.regs = x.regs) (fun _ => ⟨rfl, rfl⟩)
        (fun h k => ⟨k.1.trans h.1, k.2.trans h.2⟩) (fun _ _ => ⟨rfl, rfl⟩) links x
    obtain ⟨hgroves, hregs⟩ := hqueued (((s.lanesOf l).map s.linkLane).dedup) (s.peerFrame g l tag ep) s
    dsimp only
    generalize ((((s.lanesOf l).map s.linkLane).dedup).foldl (fun x n => x.queueBulk n 2 (s.peerFrame g l tag ep)) s) = x at *
    have honly := x.putPeer_regsOnly l (x.rd (F.STR_LINK_POSITION l)) (x.rdP (F.CAP_G_FAILCYC_LO_COUNT g)) (x.rdP (F.CAP_G_FAILS_LO_COUNT g))
      (x.rdP (F.CAP_FF_CYC_LO_CYCLE g)) (x.rd (F.CAP_FF_LOC_CH g)) (x.on (F.CAP_FF_LOC_VALID g)) (x.on (F.CAP_G_STAT_SAT g)) tag ep
    have hbelow : WordsBelow 0xD1000 s x := fun b a _ => by rw [State.word, hregs, State.word]
    exact ⟨honly.groves.trans hgroves, hbelow.trans (State.putPeer_below _ _ _ _ _ _ _ _ _ _ _) le_rfl⟩
  · exact ⟨rfl, fun _ _ _ => rfl⟩

theorem captureDrain_drained {g : Fin 32} {r : EndReason} {s : State} (hopen : s.groves[g].capOpen = true) (hended : s.groves[g].ended = some r)
    (hr : r ≠ .firebreak) (hfrozen : s.flt.frozen = false) : Answers (.captureDrain g) s fun u =>
      u.groves[g].drained = true ∧ u.groves[g].capOpen = false ∧ u.rd (F.CAP_G_STAT_DRAINED g) = 1 ∧
      u.groves[g].visit = none ∧ u.groves[g].mapRun = none ∧ u.groves[g].valGran = none := by
  have hexec : exec (.captureDrain g) s = execCaptureDrain g s := rfl
  rw [execCaptureDrain] at hexec
  dsimp only at hexec
  have hdrains : ¬(s.groves[g].capOpen = false ∨ s.groves[g].ended.isNone = true ∨ s.groves[g].ended = some .firebreak ∨ s.flt.frozen = true) := by
    rw [hopen, hended, hfrozen]
    simp [hr]
  rw [if_neg hdrains] at hexec
  have hvisit := s.endVisit_ended g true
  generalize s.endVisit g true = a at *
  obtain ⟨hmapvisit, hmap⟩ := a.endMap_ended g
  generalize a.endMap g = b at *
  obtain ⟨hgranvisit, hgranmap, hgran⟩ := b.endGran_ended g
  generalize b.endGran g = c at *
  obtain ⟨hbufvisit, hbufmap, hbufgran⟩ := RunsKept.capWrite (g := g) c 0 (c.capHeader g true (((c.burstOf g).bind (·.startTime)).getD 0))
  generalize c.capWrite g 0 (c.capHeader g true (((c.burstOf g).bind (·.startTime)).getD 0)) = d at *
  have hdone : ∀ x : State, (d.modGrove g fun k => { k with drained := true, capOpen := false }) = x → x.groves[g].drained = true ∧
      x.groves[g].capOpen = false ∧ RunsKept g d x := by
    rintro x rfl
    refine ⟨?_, ?_, .modGrove d fun _ => ⟨rfl, rfl, rfl⟩⟩ <;> rw [State.modGrove_same]
  generalize (d.modGrove g fun k => { k with drained := true, capOpen := false }) = x at *
  obtain ⟨hdrained, hclosed, hxruns⟩ := hdone x rfl
  have hyonly : RegsOnly x (x.wr (F.CAP_G_STAT_DRAINED g) 1) := .wr ..
  have hybit := State.rd_wr_same x (F.CAP_G_STAT_DRAINED g) 1 (show 3 + 1 ≤ 32 by decide)
  generalize x.wr (F.CAP_G_STAT_DRAINED g) 1 = y at *
  have hzonly := y.event_event Ev.cap 1
  have hzsame := y.event_regs Ev.cap 1
  generalize y.event Ev.cap 1 = z at *
  have hoonly := z.occurrence_event 3 g (z.groves[g].recs % 2 ^ 32 + 2 ^ 32 * min z.groves[g].lost 65535 + 2 ^ 48 * z.capFlags g true)
  have hosame := z.occurrence_regs 3 g (z.groves[g].recs % 2 ^ 32 + 2 ^ 32 * min z.groves[g].lost 65535 + 2 ^ 48 * z.capFlags g true)
  generalize z.occurrence 3 g (z.groves[g].recs % 2 ^ 32 + 2 ^ 32 * min z.groves[g].lost 65535 + 2 ^ 48 * z.capFlags g true) = o at *
  obtain ⟨hsent, hbelow⟩ := o.sendPeers_keeps g
  generalize o.sendPeers g = u at *
  have hgroves : u.groves = x.groves := by rw [hsent, hoonly.groves, hzonly.groves, hyonly.groves]
  have hruns := hxruns.trans (.of_groves hgroves)
  refine ⟨u, hexec, by rw [hgroves, hdrained], by rw [hgroves, hclosed], ?_, ?_, ?_, ?_⟩
  · have haddr : (F.CAP_G_STAT_DRAINED g).addr < 0xD1000 := by
      simp only [F.CAP_G_STAT_DRAINED]
      omega
    have hnotEv : (F.CAP_G_STAT_DRAINED g).addr ∉ evOut Ev.cap := by
      simp only [evOut, Ev.cap, Ev.sch, F.CAP_G_STAT_DRAINED, F.SCH_UNCLAIMED_COUNT, List.mem_cons, List.not_mem_nil, or_false]
      omega
    have hnotOcc : (F.CAP_G_STAT_DRAINED g).addr ∉ occOut := by
      simp only [occOut, Ev.sch, F.CAP_G_STAT_DRAINED, F.SCH_UNCLAIMED_COUNT, List.mem_cons, List.not_mem_nil, or_false]
      omega
    rw [State.rd_of_word (F.CAP_G_STAT_DRAINED g) (hbelow _ _ haddr), hosame.rd _ hnotOcc, hzsame.rd _ hnotEv, hybit]
    rfl
  · rw [hruns.1, hbufvisit, hgranvisit, hmapvisit, hvisit]
  · rw [hruns.2.1, hbufmap, hgranmap, hmap]
  · rw [hruns.2.2, hbufgran, hgran]

end Sys2Proof.Machine
open Sys2Proof Sys2Proof.Machine

/-- Settles O14: a drain ends what its grove gathers and shows it drained, a mask write goes through `State.chmask`, a request through
`State.snapRequest`, and a time point with nothing owed copies every grove and completes its request. -/
theorem captureAndSnapshots : Obligations.CaptureAndSnapshots :=
  ⟨fun _ _ _ hopen hended hr hfrozen => captureDrain_drained hopen hended hr hfrozen, fun _ _ _ _ hw hfree => chmask_free hw hfree,
    fun _ _ _ _ hw => chmask_keeps hw, fun _ _ _ _ _ _ _ hb hgrove hid hcode hlinked hlate hended => snapshot_pending hb hgrove hid hcode hlinked hlate hended,
    fun _ _ _ _ _ _ _ hb hgrove hid hcode => snapshot_refused hb hgrove hid hcode,
    fun _ _ _ hw hgo hcode hlinked hlate hended => capSnapCmd_pending hw hgo hcode hlinked hlate hended,
    fun _ _ _ hdue howed hcmd => snapshotTimePoint_completes hdue howed hcmd⟩
end

section
/-! What runs beside the threads (the trigger engines, the measurement units, the supplies, snapshots, and the events of them all): a frame that
the operations of these units keep, used for the line's cycle, for the end of a grove and for faults. -/

set_option Elab.async false

namespace Sys2Proof.Machine

/-! ## The frame -/

/-- The blocks of the capture store, the acquisition units and the supplies. -/
def asideBlk : Blk → Bool
  | .cap => true
  | .trg => true
  | .tmu => true
  | .dsc => true
  | .cmp => true
  | _ => false

/-- The state without what those units, their events and their completions can change. -/
def State.still (s : State) : State :=
  { s with regs := {}, canopy := [], sdram := [], snaps := [], sched := {}, hq := {}, acq := {}, dscs := Vector.replicate 16 {}, sync := {} }

/-- Nothing but those units, their memory, their events and their completions differs. -/
def Aside (s u : State) : Prop :=
  u.still = s.still ∧ ∀ b a, asideBlk b = false → a ∉ occOut → u.word b a = s.word b a

theorem Aside.refl (s : State) : Aside s s := ⟨rfl, fun _ _ _ _ => rfl⟩

theorem Aside.trans {s x u : State} (h : Aside s x) (k : Aside x u) : Aside s u :=
  ⟨k.1.trans h.1, fun b a hb ha => (k.2 b a hb ha).trans (h.2 b a hb ha)⟩

theorem Aside.threads {s u : State} (h : Aside s u) : u.threads = s.threads :=
  (congrArg State.threads h.1 : u.still.threads = s.still.threads)

theorem Aside.groves {s u : State} (h : Aside s u) : u.groves = s.groves :=
  (congrArg State.groves h.1 : u.still.groves = s.still.groves)

theorem Aside.chans {s u : State} (h : Aside s u) : u.chans = s.chans :=
  (congrArg State.chans h.1 : u.still.chans = s.still.chans)

theorem Aside.bursts {s u : State} (h : Aside s u) : u.bursts = s.bursts :=
  (congrArg State.bursts h.1 : u.still.bursts = s.still.bursts)

theorem Aside.rd {s u : State} (h : Aside s u) (f : Fld) (hf : asideBlk f.blk = false) (ha : f.addr ∉ occOut) : u.rd f = s.rd f :=
  State.rd_of_word f (h.2 _ _ hf ha)

section
variable {s₀ s : State}

theorem Aside.ite {p : Prop} {_ : Decidable p} {a b : State} (ha : Aside s₀ a) (hb : Aside s₀ b) : Aside s₀ (if p then a else b) := by
  split
  · exact ha
  · exact hb

theorem Aside.foldl {α : Type} {f : State → α → State} {l : List α} (hs : Aside s₀ s) (hf : ∀ s a, Aside s₀ s → Aside s₀ (f s a)) :
    Aside s₀ (l.foldl f s) := by
  induction l generalizing s with
  | nil => exact hs
  | cons a l ih => exact ih (hf s a hs)

theorem Aside.update (hs : Aside s₀ s) {canopy sdram snaps sched hq acq dscs sync : _} :
    Aside s₀ (State.mk s.regs s.latches s.held canopy sdram s.flash s.host s.bursts s.threads s.groves s.chans s.fab s.str s.pec sync s.streams
      s.forest snaps s.fabSets sched hq s.flt s.tim s.calHold acq s.tap dscs s.trcs s.sec s.links s.clk s.power s.cal s.dmc s.boot s.freeCtr
      s.pending) := ⟨hs.1, hs.2⟩

theorem Aside.wr (hs : Aside s₀ s) {f : Fld} {v : Nat} (hf : asideBlk f.blk = true := by rfl) : Aside s₀ (s.wr f v) := by
  refine ⟨hs.1, fun b a hb ha => (State.word_wr s f v b a (.inr ?_)).trans (hs.2 b a hb ha)⟩
  rintro rfl
  rw [hf] at hb
  exact absurd hb (by decide)

/-- A write of the registers that an occurrence changes. -/
theorem Aside.wrOcc (hs : Aside s₀ s) {f : Fld} {v : Nat} (hf : f.addr ∈ occOut) : Aside s₀ (s.wr f v) := by
  refine ⟨hs.1, fun b a hb ha => (State.word_wr s f v b a (.inl ?_)).trans (hs.2 b a hb ha)⟩
  rintro rfl
  exact ha hf

theorem Aside.wrP (hs : Aside s₀ s) {f : Fld} {v : Nat} (hf : asideBlk f.blk = true := by rfl) : Aside s₀ (s.wrP f v) := (hs.wr hf).wr hf

theorem Aside.wrs (hs : Aside s₀ s) {l : List (Fld × Nat)} (hl : (l.all fun x => asideBlk x.1.blk) = true := by rfl) : Aside s₀ (s.wrs l) := by
  rw [State.wrs]
  induction l generalizing s with
  | nil => exact hs
  | cons x l ih =>
    rw [List.all_cons, Bool.and_eq_true] at hl
    exact ih (hs.wr hl.1) hl.2

theorem Aside.incSat (hs : Aside s₀ s) {f : Fld} {k : Nat} (hf : asideBlk f.blk = true := by rfl) : Aside s₀ (s.incSat f k) := hs.wr hf

theorem Aside.eventOnly {u : State} (hs : Aside s₀ s) (honly : EventOnly s u) (hregs : u.regs = s.regs) : Aside s₀ u :=
  hs.trans ⟨by rw [honly]; rfl, fun b a _ _ => by rw [State.word, hregs, State.word]⟩

/-! ## Events and completions -/

theorem Aside.signal (hs : Aside s₀ s) {v : Nat} : Aside s₀ (s.signal v) := by
  rw [State.signal]
  split
  · exact hs.update
  · split
    · dsimp only
      split
      · exact hs.update
      · exact hs.update
    · exact hs

theorem Aside.raiseSch (hs : Aside s₀ s) {bits : Nat} : Aside s₀ (s.raiseSch bits) := by
  have hs' : Aside s₀ (s.wr Ev.sch.bits (s.rd Ev.sch.bits ||| bits)) := hs.wrOcc (by decide)
  exact .ite hs' hs'.signal

theorem Aside.occurrence (hs : Aside s₀ s) {cls key value : Nat} : Aside s₀ (s.occurrence cls key value) :=
  .ite hs.update (Aside.raiseSch (hs.wrOcc (by decide)))

theorem Aside.raised (hs : Aside s₀ s) {r : EvReg} {bits : Nat} : Aside s₀ (s.raised r bits) := by
  rw [State.raised]
  split
  · exact hs
  · split
    · exact hs.signal.occurrence
    · exact hs.signal

theorem Aside.raise (hs : Aside s₀ s) {r : EvReg} {bits : Nat} (hr : asideBlk r.blk = true := by rfl) : Aside s₀ (s.raise r bits) :=
  Aside.raised (hs.wr hr)

theorem Aside.event (hs : Aside s₀ s) {r : EvReg} {bit : Nat} (hr : asideBlk r.blk = true := by rfl) : Aside s₀ (s.event r bit) := hs.raise hr

theorem Aside.complete (hs : Aside s₀ s) {h : Hdr} {status detail result : Nat} {intake : Bool} :
    Aside s₀ (s.complete h status detail result intake) := hs.update

theorem Aside.writePlace (hs : Aside s₀ s) {p : Place} {off : Nat} {l : List Byte} : Aside s₀ (s.writePlace p off l) :=
  .ite hs.update hs.update

theorem Aside.writeRing (hs : Aside s₀ s) {p : Place} {off : Nat} {l : List Byte} : Aside s₀ (s.writeRing p off l) := hs.writePlace.writePlace

theorem Aside.capWrite (hs : Aside s₀ s) {g : Fin 32} {off : Nat} {l : List Byte} : Aside s₀ (s.capWrite g off l) := by
  rw [State.capWrite]
  split
  · exact .ite hs hs.writePlace
  · exact hs

/-! ## Supplies -/

theorem Aside.modDsc (hs : Aside s₀ s) {d : Fin 16} {f : Dsc → Dsc} : Aside s₀ (s.modDsc d f) := hs.update

theorem Aside.soilPass (hs : Aside s₀ s) {d : Fin 16} : Aside s₀ (s.soilPass d) := hs.modDsc

theorem Aside.dscVoid (hs : Aside s₀ s) {g : Fin 32} : Aside s₀ (s.dscVoid g) := hs.foldl fun _ _ hs => hs.soilPass

theorem Aside.settlePass (hs : Aside s₀ s) {d : Fin 16} {p : RcPass} : Aside s₀ (s.settlePass d p) := by
  unfold State.settlePass
  dsimp only
  split
  · exact hs
  · exact
      .ite hs.incSat (have hs := hs.incSat
      .ite hs (have hs := hs.modDsc
      have hs := Aside.ite hs.event hs
      .ite hs.wr hs))

theorem Aside.notePass (hs : Aside s₀ s) {d : Fin 16} : Aside s₀ (s.notePass d) := by
  rw [State.notePass]
  split
  · exact hs.wrs
  · exact hs.wrs

theorem Aside.endPass (hs : Aside s₀ s) {d : Fin 16} : Aside s₀ (s.endPass d) := by
  unfold State.endPass
  dsimp only
  split
  · exact hs
  · exact
      have hs := hs.modDsc
      have hs := Aside.ite (.ite hs.settlePass hs.modDsc) hs.incSat
      hs.notePass

theorem Aside.dscGroveEnd (hs : Aside s₀ s) {g : Fin 32} : Aside s₀ (s.dscGroveEnd g) := hs.foldl fun _ _ hs => hs.endPass.modDsc

theorem Aside.dropClosing (hs : Aside s₀ s) {d : Fin 16} {which : Option (Fin 4)} : Aside s₀ (s.dropClosing d which) :=
  have hs := hs.modDsc
  hs.wr

theorem Aside.fbSupply (hs : Aside s₀ s) : Aside s₀ s.fbSupply :=
  hs.foldl fun _ _ hs => have hs := Aside.ite hs.wrs.event hs
  hs.endPass.dropClosing.modDsc

theorem Aside.measure (hs : Aside s₀ s) {d : Fin 16} {p : Fin 4} {n : Nat} : Aside s₀ (s.measure d p n) := by
  unfold State.measure
  dsimp only
  refine .ite hs.modDsc.wr (.ite hs.modDsc.wr ?_)
  split
  · exact hs.modDsc.wr
  · exact hs.modDsc.wr

/-! ## Trigger engines -/

theorem Aside.modTrg (hs : Aside s₀ s) {e : Fin 4} {f : Trg → Trg} : Aside s₀ (s.modTrg e f) := hs.update

theorem Aside.trgOff (hs : Aside s₀ s) {e : Fin 4} : Aside s₀ (s.trgOff e) := hs.modTrg.wr

theorem Aside.trgFull (hs : Aside s₀ s) {e : Fin 4} : Aside s₀ (s.trgFull e) := hs.trgOff.event

theorem Aside.pulseOut (hs : Aside s₀ s) {n : Fin 8} {rise : Nat} : Aside s₀ (s.pulseOut n rise) := hs.update

theorem Aside.pulses (hs : Aside s₀ s) {rise : Nat} {sel : State → Fin 8 → Bool} : Aside s₀ (s.pulses rise sel) :=
  hs.foldl fun _ _ hs => .ite hs.pulseOut hs

theorem Aside.trgAnnounce (hs : Aside s₀ s) {e : Fin 4} {cause point : Nat} : Aside s₀ (s.trgAnnounce e cause point) :=
  have hs := hs.wrP.wr
  have hs := hs.foldl fun _ _ hs => .ite hs.pulseOut hs
  have hs := hs.foldl fun _ _ hs => .ite hs.wr hs
  hs.raise

theorem Aside.writeRecord (hs : Aside s₀ s) {e : Fin 4} {r : TrgRec} {complete : Bool} : Aside s₀ (s.writeRecord e r complete) := by
  unfold State.writeRecord
  dsimp only
  split
  · exact hs
  · exact .ite hs hs.writePlace

theorem Aside.trgFire (hs : Aside s₀ s) {e : Fin 4} {cause point : Nat} : Aside s₀ (s.trgFire e cause point) := by
  unfold State.trgFire
  dsimp only
  refine .ite hs (.ite hs.incSat (.ite hs.trgFull ?_))
  split
  · exact hs.modTrg.wr.writeRecord.trgAnnounce
  · exact hs.modTrg.wr

theorem Aside.trgQualify (hs : Aside s₀ s) {e : Fin 4} {point : Nat} : Aside s₀ (s.trgQualify e point) := by
  unfold State.trgQualify
  split
  · exact hs.trgFire
  · exact hs.trgFire
  · exact .ite hs.modTrg hs
  · exact hs

theorem Aside.trgChain {n : Nat} {s : State} (hs : Aside s₀ s) {e : Fin 4} {point : Nat} : Aside s₀ (State.trgChain n s e point) := by
  induction n generalizing s e with
  | zero => exact hs
  | succ n ih => exact hs.foldl fun _ _ hs => .ite (.ite (ih hs.trgQualify) hs.trgQualify) hs

theorem Aside.qualEvent (hs : Aside s₀ s) {e : Fin 4} {point : Nat} : Aside s₀ (s.qualEvent e point) :=
  have hs := hs.trgQualify
  .ite hs.trgChain hs

theorem Aside.dscEvent (hs : Aside s₀ s) {d : Fin 16} {ev : Nat} : Aside s₀ (s.dscEvent d ev) :=
  hs.foldl fun _ _ hs => .ite hs.qualEvent hs

theorem Aside.cutRecord (hs : Aside s₀ s) {e : Fin 4} : Aside s₀ (s.cutRecord e) := hs.modTrg

theorem Aside.feedEngines (hs : Aside s₀ s) {g : Fin 32} {c : Started} {l : List (Nat × ChanRes)} {only : Bool} : Aside s₀ (s.feedEngines g c l only) :=
  hs.foldl fun _ _ hs => .ite hs.modTrg hs

/-! ## Passes of a supply, which a line's markers begin -/

theorem Aside.acceptPass (hs : Aside s₀ s) {d : Fin 16} {p : Fin 4} {n : Nat} {late : Bool} : Aside s₀ (s.acceptPass d p n late) := by
  have hforget : ∀ {other : Option (Fin 4)} {x : State}, Aside s₀ x → Aside s₀ (other.elim x fun q =>
      x.modDsc d fun k => { k with slots := upd k.slots q fun y : RcSlot => { y with last := none } }) := by
    intro other x hx
    cases other with
    | none => exact hx
    | some q => exact hx.modDsc
  unfold State.acceptPass
  dsimp only
  have hends := hs.endPass (d := d)
  split
  · exact .ite (hforget (other := some _) hends).measure (have hs := (hforget (other := some _) hends).measure.modDsc
      (Aside.ite hs.incSat hs).notePass.dscEvent)
  · exact .ite hends.measure (have hs := hends.measure.modDsc
      (Aside.ite hs.incSat hs).notePass.dscEvent)

theorem Aside.dscPulse (hs : Aside s₀ s) {d : Fin 16} {marks : List Marker} : Aside s₀ (s.dscPulse d marks) := by
  unfold State.dscPulse
  dsimp only
  refine .ite hs.modDsc ?_
  split
  · exact hs.modDsc.acceptPass
  · exact hs.modDsc

theorem Aside.lineEvents (hs : Aside s₀ s) {t : Fin 32} {l : Line} {groves : List (Fin 32)} {idx start : Nat} :
    Aside s₀ (s.lineEvents t l groves idx start) :=
  have hs := hs.pulses.foldl fun _ _ hs => .ite hs.qualEvent hs
  .ite hs (hs.foldl fun _ _ hs => hs.dscPulse)

/-! ## Measurement units -/

theorem Aside.modTmu (hs : Aside s₀ s) {u : Fin 32} {f : Tmu → Tmu} : Aside s₀ (s.modTmu u f) := hs.update

theorem Aside.tmuOff (hs : Aside s₀ s) {u : Fin 32} : Aside s₀ (s.tmuOff u) :=
  have hs := hs.modTmu.wr
  hs.foldl fun _ _ hs => .ite hs.modTmu.wr hs

theorem Aside.openGate (hs : Aside s₀ s) {u : Fin 32} {fu : Nat} : Aside s₀ (s.openGate u fu) := by
  unfold State.openGate
  extract_lets k wrap g0 s' start s2
  have hs' : Aside s₀ s' := by
    dsimp only [s']
    split
    · exact hs.modTmu
    · exact hs
  have h2 : Aside s₀ s2 := hs'.wr
  split
  · split
    · exact h2.modTmu.writeRing
    · exact h2.modTmu.event
  · exact h2.modTmu

theorem Aside.closeGate (hs : Aside s₀ s) {u : Fin 32} {full cut limit : Bool} : Aside s₀ (s.closeGate u full cut limit) := by
  unfold State.closeGate
  dsimp only
  split
  · exact hs
  · exact
      have hs := hs.modTmu
      have hs := hs.wr
      .ite hs.tmuOff (.ite hs.openGate hs.wr)

theorem Aside.acqGroveEnd (hs : Aside s₀ s) {g : Fin 32} : Aside s₀ (s.acqGroveEnd g) :=
  have hs := hs.foldl fun _ _ hs => .ite (have hs := hs.modTmu
  hs.closeGate) hs
  hs.foldl fun _ _ hs => .ite hs (.ite hs.modTrg (.ite hs.cutRecord hs))

theorem Aside.acqFreeze (hs : Aside s₀ s) : Aside s₀ s.acqFreeze :=
  have hs := hs.foldl fun _ _ hs => .ite hs hs.trgOff
  hs.foldl fun _ _ hs => .ite hs hs.tmuOff

/-! ## Snapshots -/

theorem Aside.snapDone (hs : Aside s₀ s) {p : Snap} {st : Nat} : Aside s₀ (s.snapDone p st) := by
  unfold State.snapDone
  dsimp only
  split
  · exact hs.update.wr.event.complete
  · exact hs.update.wr.event

theorem Aside.snapTell (hs : Aside s₀ s) {g id st : Nat} : Aside s₀ (s.snapTell g id st) := hs.occurrence

theorem Aside.copies (hs : Aside s₀ s) {l : List (Fld × Fld)} (hl : (l.all fun p => asideBlk p.1.blk) = true := by rfl) :
    Aside s₀ (l.foldl (fun (s : State) (p : Fld × Fld) => s.wrP p.1 (s.rdP p.2)) s) := by
  induction l generalizing s with
  | nil => exact hs
  | cons p l ih =>
    rw [List.all_cons, Bool.and_eq_true] at hl
    exact ih (hs.wrP hl.1) hl.2

theorem Aside.copyShadow (hs : Aside s₀ s) {g : Fin 32} {id : Nat} {time : Bool} {st cycle : Nat} : Aside s₀ (s.copyShadow g id time st cycle) :=
  have hs := hs.copies.wrP.wrP
  have hs := hs.foldl fun _ _ hs => hs.wr
  hs.wrs

theorem Aside.snapSettle (hs : Aside s₀ s) {p : Snap} : Aside s₀ (s.snapSettle p) := .ite hs.snapDone hs.update

theorem Aside.snapGrove (hs : Aside s₀ s) {p : Snap} {g : Fin 32} {cycle : Nat} : Aside s₀ (s.snapGrove p g cycle) :=
  have hs := hs.copyShadow.snapTell
  hs.snapSettle

theorem Aside.snapEnd (hs : Aside s₀ s) {g : Fin 32} : Aside s₀ (s.snapEnd g) :=
  have hs := hs.foldl fun _ _ hs => hs.copyShadow.snapTell.snapDone
  hs.foldl fun _ _ hs => hs.snapGrove

theorem Aside.snapCycle (hs : Aside s₀ s) {g : Fin 32} {cyc : Nat} : Aside s₀ (s.snapCycle g cyc) :=
  have hs := hs.foldl fun _ _ hs => hs.copyShadow.snapTell.snapDone
  hs.foldl fun _ _ hs => hs.snapGrove

end

end Sys2Proof.Machine
end

section
/-! What a fault of any class reaches (R421 to R430), after its latch: a frame for the blocks and the state that it leaves alone. -/

set_option Elab.async false

namespace Sys2Proof.Machine

/-- The blocks that the actions of the fault classes write, besides the words of `alarmOut`. -/
def alarmBlk : Blk → Bool
  | .seq => true
  | .fab => true
  | .sec => true
  | .sym => true
  | .sch => true
  | b => asideBlk b

/-- FLT_STATUS, the fault collector's events, and what an occurrence writes. -/
def alarmOut : List Nat := [(F.FLT_STATUS_STATE).addr, Ev.flt.ev] ++ occOut

/-- The state without what the actions of the fault classes can change. -/
def State.calm (s : State) : State :=
  { s.still with bursts := [], threads := Vector.replicate 32 {}, groves := Vector.replicate 32 {}, chans := Vector.replicate 128 {}
                 pec := Vector.replicate 16 {}, forest := {}, flt := {}, sec := {}, cal := {} }

/-- Nothing but what the actions of the fault classes reach differs. -/
def Alarmed (s u : State) : Prop :=
  u.calm = s.calm ∧ ∀ b a, alarmBlk b = false → a ∉ alarmOut → u.word b a = s.word b a

theorem Alarmed.refl (s : State) : Alarmed s s := ⟨rfl, fun _ _ _ _ => rfl⟩

theorem Alarmed.trans {s x u : State} (h : Alarmed s x) (k : Alarmed x u) : Alarmed s u :=
  ⟨k.1.trans h.1, fun b a hb ha => (k.2 b a hb ha).trans (h.2 b a hb ha)⟩

theorem Aside.alarmed {s u : State} (h : Aside s u) : Alarmed s u := by
  have hcalm : ∀ v : State, v.still.calm = v.calm := fun _ => rfl
  refine ⟨by rw [← hcalm u, h.1, hcalm], fun b a hb ha => h.2 b a ?_ fun k => ha (List.mem_append_right _ k)⟩
  cases hb' : asideBlk b with
  | false => rfl
  | true =>
    have hall : alarmBlk b = true := by
      revert hb'
      cases b <;> decide
    exact absurd (hb.symm.trans hall) (by decide)

theorem Alarmed.rd {s u : State} (h : Alarmed s u) (f : Fld) (hf : alarmBlk f.blk = false) (ha : f.addr ∉ alarmOut) : u.rd f = s.rd f :=
  State.rd_of_word f (h.2 _ _ hf ha)

section
variable {s₀ s : State}

theorem Alarmed.ite {p : Prop} {_ : Decidable p} {a b : State} (ha : Alarmed s₀ a) (hb : Alarmed s₀ b) : Alarmed s₀ (if p then a else b) := by
  split
  · exact ha
  · exact hb

theorem Alarmed.foldl {α : Type} {f : State → α → State} {l : List α} (hs : Alarmed s₀ s) (hf : ∀ s a, Alarmed s₀ s → Alarmed s₀ (f s a)) :
    Alarmed s₀ (l.foldl f s) := by
  induction l generalizing s with
  | nil => exact hs
  | cons a l ih => exact ih (hf s a hs)

theorem Alarmed.update (hs : Alarmed s₀ s) {canopy sdram bursts threads groves chans pec sync forest snaps sched hq flt acq dscs sec cal : _} :
    Alarmed s₀ (State.mk s.regs s.latches s.held canopy sdram s.flash s.host bursts threads groves chans s.fab s.str pec sync s.streams
      forest snaps s.fabSets sched hq flt s.tim s.calHold acq s.tap dscs s.trcs sec s.links s.clk s.power cal s.dmc s.boot s.freeCtr
      s.pending) := ⟨hs.1, hs.2⟩

theorem Alarmed.wr (hs : Alarmed s₀ s) {f : Fld} {v : Nat} (hf : alarmBlk f.blk = true := by rfl) : Alarmed s₀ (s.wr f v) := by
  refine ⟨hs.1, fun b a hb ha => (State.word_wr s f v b a (.inr ?_)).trans (hs.2 b a hb ha)⟩
  rintro rfl
  rw [hf] at hb
  exact absurd hb (by decide)

/-- A write of the words of `alarmOut`. -/
theorem Alarmed.wrOut (hs : Alarmed s₀ s) {f : Fld} {v : Nat} (hf : f.addr ∈ alarmOut) : Alarmed s₀ (s.wr f v) := by
  refine ⟨hs.1, fun b a hb ha => (State.word_wr s f v b a (.inl ?_)).trans (hs.2 b a hb ha)⟩
  rintro rfl
  exact ha hf

theorem Alarmed.wrs (hs : Alarmed s₀ s) {l : List (Fld × Nat)} (hl : (l.all fun x => alarmBlk x.1.blk) = true := by rfl) : Alarmed s₀ (s.wrs l) := by
  rw [State.wrs]
  induction l generalizing s with
  | nil => exact hs
  | cons x l ih =>
    rw [List.all_cons, Bool.and_eq_true] at hl
    exact ih (hs.wr hl.1) hl.2

theorem Alarmed.aside {u : State} (hs : Alarmed s₀ s) (h : Aside s u) : Alarmed s₀ u := hs.trans h.alarmed

theorem Alarmed.complete (hs : Alarmed s₀ s) {h : Hdr} {status detail result : Nat} {intake : Bool} :
    Alarmed s₀ (s.complete h status detail result intake) := hs.update

theorem Alarmed.event (hs : Alarmed s₀ s) {r : EvReg} {bit : Nat} (hr : alarmBlk r.blk = true := by rfl) : Alarmed s₀ (s.event r bit) :=
  (hs.wr hr).aside (Aside.refl _).raised

theorem Alarmed.modBurst (hs : Alarmed s₀ s) {tag epoch : Nat} {f : Burst → Burst} : Alarmed s₀ (s.modBurst tag epoch f) := hs.update

theorem Alarmed.modThread (hs : Alarmed s₀ s) {t : Fin 32} {f : Thread → Thread} : Alarmed s₀ (s.modThread t f) := hs.update

theorem Alarmed.modGrove (hs : Alarmed s₀ s) {g : Fin 32} {f : Grove → Grove} : Alarmed s₀ (s.modGrove g f) := hs.update

theorem Alarmed.denOff (hs : Alarmed s₀ s) {g : Fin 32} : Alarmed s₀ (s.denOff g) := hs.foldl fun _ _ hs => hs.update

/-! ## The end of groves and bursts -/

theorem Alarmed.haltGrove (hs : Alarmed s₀ s) {g : Fin 32} {r : EndReason} {endDen : Bool} : Alarmed s₀ (s.haltGrove g r endDen) :=
  have hs := Alarmed.ite hs.denOff hs
  hs.modGrove.aside (Aside.refl _).snapEnd.acqGroveEnd.dscGroveEnd

theorem Alarmed.zeroPages (hs : Alarmed s₀ s) {sdram : Bool} {l : List Nat} : Alarmed s₀ (s.zeroPages sdram l) := .ite hs.update hs.update

theorem Alarmed.notResident (hs : Alarmed s₀ s) {p : Seg → Bool} : Alarmed s₀ (s.notResident p) :=
  have hs := hs.foldl fun _ _ hs => hs.zeroPages
  hs.update

theorem Alarmed.zeroiseNow (hs : Alarmed s₀ s) : Alarmed s₀ s.zeroiseNow :=
  have hs := hs.update
  have hs := hs.wrs
  hs.notResident.event

theorem Alarmed.extendMr (hs : Alarmed s₀ s) {r : Fin 8} {digest : List Byte} : Alarmed s₀ (s.extendMr r digest) :=
  have hs := hs.update
  hs.wr

theorem Alarmed.zeroiseBy (hs : Alarmed s₀ s) {h : Hdr} {debug : Bool} : Alarmed s₀ (s.zeroiseBy h debug) :=
  have hs := hs.zeroiseNow
  have hs := Alarmed.ite hs.extendMr.wrs.event hs
  hs.complete

theorem Alarmed.zeroCheck (hs : Alarmed s₀ s) : Alarmed s₀ s.zeroCheck := .ite (hs.update.foldl fun _ _ hs => hs.zeroiseBy) hs

theorem Alarmed.grantOne (hs : Alarmed s₀ s) : Alarmed s₀ s.grantOne := by
  rw [State.grantOne]
  split
  · exact .ite hs.modBurst hs
  · exact hs

theorem Alarmed.grantWaiting (hs : Alarmed s₀ s) : Alarmed s₀ s.grantWaiting :=
  have hs := hs.foldl fun _ _ hs => hs.grantOne
  have hs := Alarmed.ite hs.wr hs
  hs.wrs

theorem Alarmed.burstCheckEnded (hs : Alarmed s₀ s) {tag epoch : Nat} : Alarmed s₀ (s.burstCheckEnded tag epoch) := by
  unfold State.burstCheckEnded
  dsimp only
  split
  · exact hs
  · exact .ite hs (have hs := hs.modBurst
      (hs.foldl fun _ _ hs => hs.complete).grantWaiting.zeroCheck)

theorem Alarmed.endBeforeStart (hs : Alarmed s₀ s) {b : Burst} {r : EndReason} : Alarmed s₀ (s.endBeforeStart b r) :=
  have hs := Alarmed.ite hs.modBurst (hs.foldl fun _ _ hs => .ite hs hs.haltGrove)
  have hs := hs.foldl fun _ _ hs => hs.modThread.wrs.event
  hs.burstCheckEnded

theorem Alarmed.cutBurst (hs : Alarmed s₀ s) {b : Burst} {abort : Bool} {h : Option Hdr} : Alarmed s₀ (s.cutBurst b abort h) := by
  unfold State.cutBurst
  cases h with
  | none => exact .ite hs (.ite (hs.foldl fun _ _ hs => hs.modThread) hs.endBeforeStart)
  | some w => exact .ite hs.complete (.ite (hs.modBurst.foldl fun _ _ hs => hs.modThread) hs.modBurst.endBeforeStart)

theorem Alarmed.cutAll (hs : Alarmed s₀ s) {abort : Bool} : Alarmed s₀ (s.cutAll abort) := hs.foldl fun _ _ hs => hs.cutBurst

/-! ## The actions of the classes -/

theorem Alarmed.noteHeartbeat (hs : Alarmed s₀ s) : Alarmed s₀ s.noteHeartbeat :=
  have hs := hs.wrOut (f := F.FLT_STATUS_HB) (by decide)
  hs.update

theorem Alarmed.faultAbort (hs : Alarmed s₀ s) {g : Option (Fin 32)} : Alarmed s₀ (s.faultAbort g) := by
  unfold State.faultAbort
  split
  · exact hs.foldl fun _ _ hs => .ite hs hs.cutBurst
  · exact hs.cutAll

theorem Alarmed.cutCal (hs : Alarmed s₀ s) : Alarmed s₀ s.cutCal := hs.update

theorem Alarmed.nmi (hs : Alarmed s₀ s) {c : Fin 8} {bit : Nat} : Alarmed s₀ (s.nmi c bit) :=
  have hs := hs.wr
  .ite hs hs.update

theorem Alarmed.nmiAll (hs : Alarmed s₀ s) {bit : Nat} : Alarmed s₀ (s.nmiAll bit) := hs.foldl fun _ _ hs => hs.nmi

theorem Alarmed.laterCause (hs : Alarmed s₀ s) {cause src : Nat} {mism forced : Bool} : Alarmed s₀ (s.laterCause cause src mism forced) :=
  .ite hs.update hs

theorem Alarmed.fbGrove (hs : Alarmed s₀ s) {g : Fin 32} : Alarmed s₀ (s.fbGrove g) :=
  hs.modGrove.aside (Aside.refl _).snapEnd.dscGroveEnd

theorem Alarmed.fbBursts (hs : Alarmed s₀ s) {src : Nat} : Alarmed s₀ (s.fbBursts src) :=
  have hs := hs.foldl fun _ _ hs => hs.modGrove
  have hs := hs.update
  have hs := hs.foldl fun _ _ hs => .ite hs.fbGrove hs
  have hs := hs.foldl fun _ _ hs => .ite hs (have hs := Alarmed.ite hs hs.wrs.event
  hs.modThread)
  hs.foldl fun _ _ hs => hs.burstCheckEnded

theorem Alarmed.fbPec (hs : Alarmed s₀ s) : Alarmed s₀ s.fbPec := hs.foldl fun _ _ hs => .ite hs.update.wrs hs

theorem Alarmed.firebreak (hs : Alarmed s₀ s) {cause src : Nat} {mism forced : Bool} : Alarmed s₀ (s.firebreak cause src mism forced) :=
  .ite hs.laterCause (have hs := (hs.wrOut (f := F.FLT_STATUS_STATE) (by decide)).wrOut (f := Ev.flt.bits) (by decide)
  have hs := (hs.aside (Aside.refl _).raised).fbBursts
  have hs := hs.update.fbPec.nmiAll.aside (Aside.refl _).acqFreeze.fbSupply
  hs.update.cutCal.noteHeartbeat)

/-- What a fault of any class does after its latch. -/
theorem State.fault_alarmed (s : State) (i : Nat) (g : Option (Fin 32)) (forced mism : Bool) :
    Alarmed (s.latchFault i (occurrenceBits (s.classOf i) (s.latched i) mism) forced) (s.fault i g forced mism) :=
  have hs := Alarmed.refl _
  .ite hs (.ite hs.faultAbort (.ite (have hs := Alarmed.ite (hs.wrOut (by decide)) hs
  have hs := hs.update.cutCal
  hs.cutAll.nmiAll.noteHeartbeat) hs.firebreak.noteHeartbeat))

end

theorem FaultOnly.calm {s u : State} (h : FaultOnly s u) : u.calm = s.calm := by
  rw [h]
  rfl

/-- A fault of any class latches its source; of the blocks that no action of a class writes it changes only its own words. -/
theorem State.fault_reaches (s : State) {i : Nat} (hi : i < 96) (g : Option (Fin 32)) (forced mism : Bool) {u : State}
    (hu : s.fault i g forced mism = u) :
    u.calm = s.calm ∧ (∀ b a, alarmBlk b = false → a ∉ faultOut i → u.word b a = s.word b a) ∧ u.latched i = true := by
  obtain ⟨honly, hsame, hlatch, -⟩ := s.latchFault_keeps hi (occurrenceBits (s.classOf i) (s.latched i) mism) forced rfl
  have hafter := s.fault_alarmed i g forced mism
  rw [hu] at hafter
  generalize s.latchFault i (occurrenceBits (s.classOf i) (s.latched i) mism) forced = x at *
  refine ⟨hafter.1.trans honly.calm, fun b a hb ha => ?_, ?_⟩
  · rw [hafter.2 b a hb fun h => ha ?_, hsame b a ha]
    rcases List.mem_append.mp h with h | h
    · rcases List.mem_cons.mp h with rfl | h
      · simp [faultOut]
      · rw [List.mem_singleton.mp h]
        simp [faultOut, evOut]
    · exact List.mem_append_right _ (List.mem_cons_of_mem _ h)
  · have hrd := hafter.rd (F.FLT_LATCH_LATCH (i / 32)) rfl (by
      simp only [alarmOut, occOut, F.FLT_LATCH_LATCH, F.FLT_STATUS_STATE, F.SCH_UNCLAIMED_COUNT, Ev.flt, Ev.sch, List.mem_cons, List.mem_append,
        List.not_mem_nil, or_false]
      omega)
    rw [State.latched, hrd]
    exact hlatch

end Sys2Proof.Machine
end

section
/-! O44 (the SDRAM's upkeep), R362 and R370 to R378: what its initialisation, training, refreshes, calibrations, alerts and idle times leave. -/

set_option Elab.async false

namespace Sys2Proof.Machine

/-! ## Initialisation -/

theorem dmcInit_trains {s : State} (hstate : s.rd F.DMC_STATUS_STATE = 0) (hclk : s.clk.absent = false) (hrail : bitOf (s.rd F.PWR_STATUS_RAIL_GOOD) 1 = true)
    (hgood : s.badGeometry = false) : Answers .dmcInit s fun u =>
      u.rd F.DMC_STATUS_STATE = 1 ∧ RegsOnly s u ∧ Quiet [(F.DMC_STATUS_STATE).addr] s u := by
  have hexec : exec .dmcInit s = .next s.dmcInit := rfl
  rw [State.dmcInit, if_neg (by rw [hstate, hclk, hrail]; simp), if_neg (by rw [hgood]; exact Bool.false_ne_true)] at hexec
  have hrd := State.rd_wr_same s F.DMC_STATUS_STATE 1 (by decide)
  have honly : RegsOnly s (s.wr F.DMC_STATUS_STATE 1) := .wr ..
  have hsame : RegsSame [(F.DMC_STATUS_STATE).addr] s (s.wr F.DMC_STATUS_STATE 1) := .wr _ _ _ List.mem_cons_self
  generalize s.wr F.DMC_STATUS_STATE 1 = u at *
  exact ⟨u, hexec, hrd, honly, hsame, honly.event.bytes⟩

/-- The writes of an initialisation that fails. -/
def badGeometryFields : List (Fld × Nat) := [(F.DMC_STATUS_STATE, 3), (F.DMC_STATUS_CAUSE, 9), (F.DMC_STATUS_FAIL_SUBCH, 15)]

theorem badGeometryFields_apart : badGeometryFields.Pairwise fun p q => p.1.apart q.1 ∧ q.1.apart p.1 := by
  simp [badGeometryFields, Fld.apart, F.DMC_STATUS_STATE, F.DMC_STATUS_CAUSE, F.DMC_STATUS_FAIL_SUBCH]

theorem badGeometryFields_fit : ∀ p ∈ badGeometryFields, p.1.lsb + p.1.width ≤ 32 := by
  simp [badGeometryFields, F.DMC_STATUS_STATE, F.DMC_STATUS_CAUSE, F.DMC_STATUS_FAIL_SUBCH]

theorem dmcInit_fails {s : State} (hstate : s.rd F.DMC_STATUS_STATE = 0) (hclk : s.clk.absent = false) (hrail : bitOf (s.rd F.PWR_STATUS_RAIL_GOOD) 1 = true)
    (hbad : s.badGeometry = true) : Answers .dmcInit s fun u =>
      u.rd F.DMC_STATUS_STATE = 3 ∧ u.rd F.DMC_STATUS_CAUSE = 9 ∧ bitOf (u.rd Ev.dmc.bits) 1 = true ∧ u.latched 20 = true := by
  have hexec : exec .dmcInit s = .next s.dmcInit := rfl
  rw [State.dmcInit, if_neg (by rw [hstate, hclk, hrail]; simp), if_pos hbad] at hexec
  have hst : (s.wrs badGeometryFields).rd F.DMC_STATUS_STATE = 3 % 2 ^ 2 :=
    State.rd_wrs_mem badGeometryFields_apart badGeometryFields_fit s (by simp [badGeometryFields])
  have hcause : (s.wrs badGeometryFields).rd F.DMC_STATUS_CAUSE = 9 % 2 ^ 4 :=
    State.rd_wrs_mem badGeometryFields_apart badGeometryFields_fit s (by simp [badGeometryFields])
  rw [show ([(F.DMC_STATUS_STATE, 3), (F.DMC_STATUS_CAUSE, 9), (F.DMC_STATUS_FAIL_SUBCH, 15)] : List (Fld × Nat)) = badGeometryFields from rfl] at hexec
  generalize s.wrs badGeometryFields = x at *
  have hbit := x.event_bit Ev.dmc (i := 1) (by decide) (by decide)
  have hsame := x.event_regs Ev.dmc 1
  generalize x.event Ev.dmc 1 = y at *
  obtain ⟨-, hwords, hlatched⟩ := y.fault_reaches (i := 20) (by decide) none false false rfl
  rw [State.faultOnce] at hexec
  generalize y.fault 20 none false false = u at *
  have hkept : ∀ f : Fld, f.blk = .dmc → f.addr ∉ faultOut 20 → u.rd f = y.rd f := fun f hb ha => State.rd_of_word f (hwords _ _ (by rw [hb]; rfl) ha)
  refine ⟨u, hexec, ?_, ?_, ?_, hlatched⟩
  · rw [hkept _ rfl (by decide), hsame.rd _ (by decide), hst]
    rfl
  · rw [hkept _ rfl (by decide), hsame.rd _ (by decide), hcause]
    rfl
  · rw [hkept _ rfl (by decide), hbit]

theorem dmcInit_still {s : State} (h : s.rd F.DMC_STATUS_STATE ≠ 0 ∨ s.clk.absent = true ∨ bitOf (s.rd F.PWR_STATUS_RAIL_GOOD) 1 = false) :
    NoEffect .dmcInit s :=
  congrArg Host.Outcome.next (if_pos h)

/-! ## Training -/

theorem foldl_wrs {α : Type} (l : List α) (f : α → List (Fld × Nat)) (s : State) :
    l.foldl (fun (s : State) a => s.wrs (f a)) s = s.wrs (l.flatMap f) := by
  induction l generalizing s with
  | nil => rfl
  | cons a l ih => rw [List.foldl_cons, ih, List.flatMap_cons, State.wrs_append]

/-- The margins that a training that passes writes. -/
def marginFields (margins : List (Nat × Nat)) : List (Fld × Nat) :=
  (List.range 4).flatMap fun k => [(F.DMC_SC_TRAIN_RD_MARGIN k, (margins.getD k (0, 0)).1), (F.DMC_SC_TRAIN_WR_MARGIN k, (margins.getD k (0, 0)).2)]

/-- All that a training that passes writes. -/
def trainedFields (margins : List (Nat × Nat)) (mib : Nat) : List (Fld × Nat) :=
  marginFields margins ++ [(F.DMC_STATUS_STATE, 2), (F.DMC_STATUS_CAUSE, 0), (F.DMC_STATUS_FAIL_SUBCH, 0), (F.DMC_GEOM_USABLE_MIB, mib)]

theorem trainedFields_apart (margins : List (Nat × Nat)) (mib : Nat) :
    (trainedFields margins mib).Pairwise fun p q => p.1.apart q.1 ∧ q.1.apart p.1 := by
  simp [trainedFields, marginFields, List.range_succ, Fld.apart, F.DMC_STATUS_STATE, F.DMC_STATUS_CAUSE, F.DMC_STATUS_FAIL_SUBCH,
    F.DMC_GEOM_USABLE_MIB, F.DMC_SC_TRAIN_RD_MARGIN, F.DMC_SC_TRAIN_WR_MARGIN]

theorem trainedFields_fit (margins : List (Nat × Nat)) (mib : Nat) : ∀ p ∈ trainedFields margins mib, p.1.lsb + p.1.width ≤ 32 := by
  simp [trainedFields, marginFields, List.range_succ, F.DMC_STATUS_STATE, F.DMC_STATUS_CAUSE, F.DMC_STATUS_FAIL_SUBCH, F.DMC_GEOM_USABLE_MIB,
    F.DMC_SC_TRAIN_RD_MARGIN, F.DMC_SC_TRAIN_WR_MARGIN]

/-- The registers of a training that passes. -/
def trainedOut : List Nat :=
  [(F.DMC_STATUS_STATE).addr, (F.DMC_GEOM_USABLE_MIB).addr] ++ (List.range 4).map fun k => (F.DMC_SC_TRAIN_RD_MARGIN k).addr

theorem trainedFields_out (margins : List (Nat × Nat)) (mib : Nat) : ∀ p ∈ trainedFields margins mib, p.1.addr ∈ trainedOut := by
  simp [trainedFields, marginFields, trainedOut, List.range_succ, F.DMC_STATUS_STATE, F.DMC_STATUS_CAUSE, F.DMC_STATUS_FAIL_SUBCH,
    F.DMC_GEOM_USABLE_MIB, F.DMC_SC_TRAIN_RD_MARGIN, F.DMC_SC_TRAIN_WR_MARGIN]

theorem dmcTrainingDone_passes {subs : Nat} {margins : List (Nat × Nat)} {s : State} (hstate : s.rd F.DMC_STATUS_STATE = 1) (hnew : s.dmc.fromFailed = false) :
    Answers (.dmcTrainingDone 0 subs margins) s fun u =>
      u.rd F.DMC_STATUS_STATE = 2 ∧ u.rd F.DMC_STATUS_CAUSE = 0 ∧ u.rd F.DMC_GEOM_USABLE_MIB = (s.fittedMib - 1) % 2 ^ 16 ∧
      (∀ k : Fin 4, u.rd (F.DMC_SC_TRAIN_RD_MARGIN k) = (margins.getD k (0, 0)).1 % 256) ∧
      (∀ k : Fin 4, u.rd (F.DMC_SC_TRAIN_WR_MARGIN k) = (margins.getD k (0, 0)).2 % 256) ∧
      bitOf (u.rd Ev.dmc.bits) 0 = true ∧ EventOnly s u ∧ Quiet (trainedOut ++ evOut Ev.dmc) s u := by
  have hmib : (s.wrs (marginFields margins)).fittedMib = s.fittedMib := by
    have hgeom : RegsSame ((List.range 4).map fun k => (F.DMC_SC_TRAIN_RD_MARGIN k).addr) s (s.wrs (marginFields margins)) := .wrs _ _ (by
      simp [marginFields, List.range_succ, F.DMC_SC_TRAIN_RD_MARGIN, F.DMC_SC_TRAIN_WR_MARGIN])
    rw [State.fittedMib, hgeom.rd _ (by decide), hgeom.rd _ (by decide), State.fittedMib]
  have hexec : exec (.dmcTrainingDone 0 subs margins) s = .next ((s.wrs (trainedFields margins (s.fittedMib - 1))).event Ev.dmc 0) := by
    show execDmcTrainingDone 0 subs margins s = _
    rw [execDmcTrainingDone, if_neg (not_not.mpr hstate), hnew, if_neg Bool.false_ne_true]
    dsimp only
    rw [if_pos rfl, foldl_wrs (List.range 4) (fun k => [(F.DMC_SC_TRAIN_RD_MARGIN k, (margins.getD k (0, 0)).1),
      (F.DMC_SC_TRAIN_WR_MARGIN k, (margins.getD k (0, 0)).2)]), trainedFields, State.wrs_append, ← hmib]
    rfl
  have hrd : ∀ {f : Fld} {v : Nat}, (f, v) ∈ trainedFields margins (s.fittedMib - 1) →
      (s.wrs (trainedFields margins (s.fittedMib - 1))).rd f = v % 2 ^ f.width := fun h =>
    State.rd_wrs_mem (trainedFields_apart _ _) (trainedFields_fit _ _) s h
  have hxonly : RegsOnly s (s.wrs (trainedFields margins (s.fittedMib - 1))) := .wrs ..
  have hxsame : RegsSame trainedOut s (s.wrs (trainedFields margins (s.fittedMib - 1))) := .wrs _ _ (trainedFields_out _ _)
  generalize s.wrs (trainedFields margins (s.fittedMib - 1)) = x at *
  have hyonly := x.event_event Ev.dmc 0
  have hysame := x.event_regs Ev.dmc 0
  have hybit := x.event_bit Ev.dmc (i := 0) (by decide) (by decide)
  generalize x.event Ev.dmc 0 = u at *
  have hmargin : ∀ k : Fin 4, (F.DMC_SC_TRAIN_RD_MARGIN k).addr ∉ evOut Ev.dmc := by decide
  refine ⟨u, hexec, ?_, ?_, ?_, fun k => ?_, fun k => ?_, hybit, hxonly.event.trans hyonly, (hxsame.mono fun _ h => List.mem_append_left _ h).trans
    (hysame.mono fun _ h => List.mem_append_right _ h), (hxonly.event.trans hyonly).bytes⟩
  · rw [hysame.rd _ (by decide), hrd (v := 2) (by simp [trainedFields])]
    rfl
  · rw [hysame.rd _ (by decide), hrd (v := 0) (by simp [trainedFields])]
    rfl
  · rw [hysame.rd _ (by decide), hrd (v := s.fittedMib - 1) (by simp [trainedFields])]
    rfl
  · rw [hysame.rd _ (hmargin k), hrd (v := (margins.getD k (0, 0)).1) (by
      rw [trainedFields, marginFields]
      exact List.mem_append_left _ (List.mem_flatMap.mpr ⟨k, List.mem_range.mpr k.2, List.mem_cons_self⟩))]
    rfl
  · rw [hysame.rd (F.DMC_SC_TRAIN_WR_MARGIN k) (hmargin k), hrd (v := (margins.getD k (0, 0)).2) (by
      rw [trainedFields, marginFields]
      exact List.mem_append_left _ (List.mem_flatMap.mpr ⟨k, List.mem_range.mpr k.2, List.mem_cons_of_mem _ List.mem_cons_self⟩))]
    rfl

/-- What becomes of a segment that is no longer resident (R371). -/
theorem State.notResident_keeps (s : State) (p : Seg → Bool) {u : State} (hu : s.notResident p = u) :
    u.regs = s.regs ∧ u.dmc = s.dmc ∧ ∀ x ∈ u.forest.segs, x.tier ≠ .none → x.loading.isSome = true ∨ p x = false := by
  have hzero : ∀ (l : List Seg) (x : State), (l.foldl (fun s x => s.zeroPages (x.tier == .sdram) (runPages x.pages)) x).regs = x.regs ∧
      (l.foldl (fun s x => s.zeroPages (x.tier == .sdram) (runPages x.pages)) x).dmc = x.dmc := by
    refine fun l x => foldl_rel (R := fun x y : State => y.regs = x.regs ∧ y.dmc = x.dmc) (fun _ => ⟨rfl, rfl⟩)
      (fun h k => ⟨k.1.trans h.1, k.2.trans h.2⟩) (fun y a => ?_) l x
    rw [State.zeroPages]
    split <;> exact ⟨rfl, rfl⟩
  subst hu
  rw [State.notResident]
  obtain ⟨hregs, hdmc⟩ := hzero (s.forest.segs.filter fun x => p x && (x.tier == .canopy || x.tier == .sdram)) s
  refine ⟨hregs, hdmc, fun x hx htier => ?_⟩
  obtain ⟨y, -, rfl⟩ := List.mem_map.mp hx
  split at htier
  · exact absurd rfl htier
  · next hnot =>
    rw [if_neg hnot]
    rw [Bool.and_eq_true, not_and_or] at hnot
    rcases hnot with h | h
    · exact .inr (Bool.not_eq_true _ ▸ h)
    · left
      cases hl : y.loading with
      | none => exact absurd (by rw [hl]; rfl) h
      | some _ => rfl

/-- The writes of the SDRAM's failure. -/
def deadFields (cause subs : Nat) : List (Fld × Nat) :=
  [(F.DMC_STATUS_STATE, 3), (F.DMC_STATUS_CAUSE, cause), (F.DMC_STATUS_FAIL_SUBCH, subs), (F.DMC_GEOM_USABLE_MIB, 0)]

theorem deadFields_apart (cause subs : Nat) : (deadFields cause subs).Pairwise fun p q => p.1.apart q.1 ∧ q.1.apart p.1 := by
  simp [deadFields, Fld.apart, F.DMC_STATUS_STATE, F.DMC_STATUS_CAUSE, F.DMC_STATUS_FAIL_SUBCH, F.DMC_GEOM_USABLE_MIB]

theorem deadFields_fit (cause subs : Nat) : ∀ p ∈ deadFields cause subs, p.1.lsb + p.1.width ≤ 32 := by
  simp [deadFields, F.DMC_STATUS_STATE, F.DMC_STATUS_CAUSE, F.DMC_STATUS_FAIL_SUBCH, F.DMC_GEOM_USABLE_MIB]

/-- What is shown of a failed SDRAM. -/
def DmcDead (cause subs : Nat) (u : State) : Prop :=
  u.rd F.DMC_STATUS_STATE = 3 ∧ u.rd F.DMC_STATUS_CAUSE = cause ∧ u.rd F.DMC_STATUS_FAIL_SUBCH = subs ∧ u.rd F.DMC_GEOM_USABLE_MIB = 0 ∧
    u.dmc.reqs = [] ∧ u.dmc.waits = []

theorem DmcDead.of_same {cause subs : Nat} {s u : State} (h : DmcDead cause subs s) {out : List Nat} (hsame : RegsSame out s u) (hdmc : u.dmc = s.dmc)
    (hout : (F.DMC_STATUS_STATE).addr ∉ out ∧ (F.DMC_GEOM_USABLE_MIB).addr ∉ out) : DmcDead cause subs u := by
  obtain ⟨hstate, hcause, hsubs, hmib, hreqs, hwaits⟩ := h
  exact ⟨(hsame.rd F.DMC_STATUS_STATE hout.1).trans hstate, (hsame.rd F.DMC_STATUS_CAUSE hout.1).trans hcause,
    (hsame.rd F.DMC_STATUS_FAIL_SUBCH hout.1).trans hsubs, (hsame.rd F.DMC_GEOM_USABLE_MIB hout.2).trans hmib, hdmc ▸ hreqs, hdmc ▸ hwaits⟩

theorem State.rd_wrs_apart {l : List (Fld × Nat)} {f : Fld} (h : ∀ p ∈ l, p.1.apart f ∧ p.1.lsb + p.1.width ≤ 32) (s : State) :
    (s.wrs l).rd f = s.rd f := by
  induction l generalizing s with
  | nil => rfl
  | cons p l ih =>
    obtain ⟨hap, hfit⟩ := h p List.mem_cons_self
    rw [State.wrs_cons, ih (fun q hq => h q (List.mem_cons_of_mem _ hq)), State.rd_wr_apart _ _ _ _ hfit hap]

theorem State.rd_noteDmc (s : State) {u : State} (hu : s.noteDmc = u) (f : Fld)
    (hf : (F.DMC_STATUS_IN_FLIGHT).apart f ∧ ∀ p : Fin 6, (F.DMC_PORT_STAT_IN_FLIGHT p).apart f) : u.rd f = s.rd f := by
  rw [← hu, State.noteDmc_eq, State.rd_wrs_apart]
  intro p hp
  rcases List.mem_cons.mp hp with rfl | hp
  · exact ⟨hf.1, by simp [F.DMC_STATUS_IN_FLIGHT]⟩
  · obtain ⟨k, hk, rfl⟩ := List.mem_map.mp hp
    exact ⟨hf.2 ⟨k, List.mem_range.mp hk⟩, by simp [F.DMC_PORT_STAT_IN_FLIGHT]⟩

/-- The SDRAM's failure, from the state that has dropped its requests. -/
theorem State.dmcDead_eq (s : State) (cause subs : Nat) : ∃ x : State, (x.dmc.reqs = [] ∧ x.dmc.waits = [] ∧ x.regs = s.regs) ∧
    s.dmcDead cause subs = ((x.wrs (deadFields cause subs)).notResident fun x => x.tier == .sdram).noteDmc := by
  refine ⟨_, ⟨?_, ?_, ?_⟩, rfl⟩ <;> rfl

/-- What the SDRAM's failure leaves (R371). -/
theorem State.dmcDead_keeps (s : State) {cause subs : Nat} (hcause : cause < 16) (hsubs : subs < 16) {u : State} (hu : s.dmcDead cause subs = u) :
    DmcDead cause subs u ∧ (∀ x ∈ u.forest.segs, x.tier = .sdram → x.loading.isSome = true) ∧ ∀ i < 96, u.classOf i = s.classOf i := by
  obtain ⟨x, ⟨hreqs, hwaits, hxregs⟩, heq⟩ := s.dmcDead_eq cause subs
  rw [heq] at hu
  have hrd : ∀ {f : Fld} {v : Nat}, (f, v) ∈ deadFields cause subs → (x.wrs (deadFields cause subs)).rd f = v % 2 ^ f.width := fun h =>
    State.rd_wrs_mem (deadFields_apart _ _) (deadFields_fit _ _) x h
  have hyonly : RegsOnly x (x.wrs (deadFields cause subs)) := .wrs ..
  have hysame : RegsSame [(F.DMC_STATUS_STATE).addr, (F.DMC_GEOM_USABLE_MIB).addr] x (x.wrs (deadFields cause subs)) := .wrs _ _ (by
    simp [deadFields, F.DMC_STATUS_STATE, F.DMC_STATUS_CAUSE, F.DMC_STATUS_FAIL_SUBCH, F.DMC_GEOM_USABLE_MIB])
  generalize x.wrs (deadFields cause subs) = y at *
  obtain ⟨hzregs, hzdmc, hzsegs⟩ := y.notResident_keeps (fun x => x.tier == .sdram) rfl
  generalize (y.notResident fun x => x.tier == .sdram) = z at *
  obtain ⟨huonly, husame, -⟩ := z.noteDmc_keeps hu
  have hydead : DmcDead cause subs z := by
    have hzrd := State.rd_of_regs hzregs
    refine ⟨?_, ?_, ?_, ?_, by rw [hzdmc, hyonly, hreqs], by rw [hzdmc, hyonly, hwaits]⟩
    · rw [hzrd, hrd (v := 3) (by simp [deadFields])]
      rfl
    · rw [hzrd, hrd (v := cause) (by simp [deadFields])]
      exact Nat.mod_eq_of_lt hcause
    · rw [hzrd, hrd (v := subs) (by simp [deadFields])]
      exact Nat.mod_eq_of_lt hsubs
    · rw [hzrd, hrd (v := 0) (by simp [deadFields])]
      rfl
  have hudmc : u.dmc = z.dmc := by rw [huonly]
  have hsegs : u.forest.segs = z.forest.segs := by rw [huonly]
  refine ⟨?_, fun a ha htier => ?_, fun i hi => ?_⟩
  · obtain ⟨hstate, hcauseRd, hsubsRd, hmib, hzreqs, hzwaits⟩ := hydead
    exact ⟨(z.rd_noteDmc hu _ (by decide)).trans hstate, (z.rd_noteDmc hu _ (by decide)).trans hcauseRd, (z.rd_noteDmc hu _ (by decide)).trans hsubsRd,
      (z.rd_noteDmc hu _ (by decide)).trans hmib, hudmc ▸ hzreqs, hudmc ▸ hzwaits⟩
  · rw [hsegs] at ha
    rcases hzsegs a ha (by rw [htier]; decide) with h | h
    · exact h
    · rw [htier] at h
      exact absurd h (by decide)
  · have hcls : (F.FLT_CLASS_CLASS (i / 4)).addr ∉ inFlightOut ∧ (F.FLT_CLASS_CLASS (i / 4)).addr ∉ [(F.DMC_STATUS_STATE).addr, (F.DMC_GEOM_USABLE_MIB).addr] := by
      simp only [inFlightOut, List.range_succ, List.range_zero, F.FLT_CLASS_CLASS, F.DMC_STATUS_IN_FLIGHT, F.DMC_PORT_STAT_IN_FLIGHT, F.DMC_STATUS_STATE,
        F.DMC_GEOM_USABLE_MIB, List.nil_append, List.cons_append, List.map_cons, List.map_nil, List.mem_cons, List.not_mem_nil, or_false]
      omega
    have hzcls : z.classOf i = y.classOf i := by rw [State.classOf, State.rd_of_regs hzregs, State.classOf]
    have hxcls : x.classOf i = s.classOf i := by rw [State.classOf, State.rd_of_regs hxregs, State.classOf]
    rw [husame.classOf hcls.1, hzcls, hysame.classOf hcls.2, hxcls]

theorem dmcTrainingDone_fails {step subs : Nat} {margins : List (Nat × Nat)} {s : State} (hstate : s.rd F.DMC_STATUS_STATE = 1) (hstep : 0 < step)
    (hlast : step ≤ 8) (hsubs : subs < 16) (hcls : s.classOf 20 < 2) : Answers (.dmcTrainingDone step subs margins) s fun u =>
      u.rd F.DMC_STATUS_STATE = 3 ∧ u.rd F.DMC_STATUS_CAUSE = step ∧ u.rd F.DMC_STATUS_FAIL_SUBCH = subs ∧ u.rd F.DMC_GEOM_USABLE_MIB = 0 ∧
      u.dmc.reqs = [] ∧ u.dmc.waits = [] ∧ bitOf (u.rd Ev.dmc.bits) 1 = true ∧ u.latched 20 = true ∧
      (∀ x ∈ u.forest.segs, x.tier = .sdram → x.loading.isSome = true) := by
  obtain ⟨x, hxregs, hexec⟩ : ∃ x : State, x.regs = s.regs ∧ exec (.dmcTrainingDone step subs margins) s =
      .next (((x.dmcDead step subs).event Ev.dmc 1).faultOnce 20 none) := by
    refine ⟨if s.dmc.fromFailed then { s with sdram := [], dmc := { s.dmc with fromFailed := false } } else s, by split <;> rfl, ?_⟩
    show execDmcTrainingDone step subs margins s = _
    rw [execDmcTrainingDone, if_neg (not_not.mpr hstate)]
    dsimp only
    rw [if_neg (by omega : ¬step = 0), Nat.min_eq_left hlast]
  obtain ⟨hdead, hsegs, hxcls⟩ := x.dmcDead_keeps (by omega : step < 16) hsubs rfl
  have hycls : (x.dmcDead step subs).classOf 20 < 2 := by
    rw [hxcls 20 (by decide), State.classOf, State.rd_of_regs hxregs]
    exact hcls
  generalize x.dmcDead step subs = y at *
  obtain ⟨honly, hlatched, hbit, hsame⟩ := State.event_faultOnce (r := Ev.dmc) (bit := 1) (g := none) (by decide) hycls (by decide) (by decide) (by decide) (by decide) rfl
  generalize (y.event Ev.dmc 1).faultOnce 20 none = u at *
  obtain ⟨hst, hcause, hsub, hmib, hreqs, hwaits⟩ := hdead.of_same hsame (by rw [honly]) (by decide)
  exact ⟨u, hexec, hst, hcause, hsub, hmib, hreqs, hwaits, hbit, hlatched, by rw [honly]; exact hsegs⟩

theorem dmcTrainingDone_still {step subs : Nat} {margins : List (Nat × Nat)} {s : State} (hstate : s.rd F.DMC_STATUS_STATE ≠ 1) :
    NoEffect (.dmcTrainingDone step subs margins) s := if_pos hstate

/-! ## Retraining -/

theorem dmcRetrain_trains {s : State} (hstate : s.rd F.DMC_STATUS_STATE = 2) (hreqs : s.dmc.reqs = []) (hbursts : ∀ b ∈ s.bursts, s.sdramShare b = false) :
    Answers .dmcRetrain s fun u =>
      u.rd F.DMC_STATUS_STATE = 1 ∧ u.rd F.DMC_GEOM_USABLE_MIB = 0 ∧ u.dmc.fromFailed = false ∧ u.sdram = s.sdram ∧
      u = { s with regs := u.regs, dmc := u.dmc } ∧ Quiet [(F.DMC_STATUS_STATE).addr, (F.DMC_GEOM_USABLE_MIB).addr] s u := by
  have hidle : (s.bursts.any s.sdramShare || !s.dmc.reqs.isEmpty) = false := by
    rw [hreqs, List.any_eq_false.mpr fun b hb => by rw [hbursts b hb]; exact Bool.false_ne_true]
    rfl
  have hexec : exec .dmcRetrain s = .next s.dmcRetrain := rfl
  rw [State.dmcRetrain] at hexec
  dsimp only at hexec
  rw [hidle, hstate, if_pos (by decide)] at hexec
  have hxonly : ∀ x : State, ({ s with dmc := { s.dmc with fromFailed := 2 == 3, subs := Vector.replicate 4 {} } } : State) = x →
      x.dmc.fromFailed = false ∧ x.regs = s.regs ∧ x = { s with dmc := x.dmc } := by
    rintro x rfl
    exact ⟨rfl, rfl, rfl⟩
  generalize ({ s with dmc := { s.dmc with fromFailed := 2 == 3, subs := Vector.replicate 4 {} } } : State) = x at *
  obtain ⟨hfrom, hxregs, hx⟩ := hxonly x rfl
  have hapart : ([(F.DMC_STATUS_STATE, 1), (F.DMC_GEOM_USABLE_MIB, 0)] : List (Fld × Nat)).Pairwise fun p q => p.1.apart q.1 ∧ q.1.apart p.1 := by decide
  have hrd : ∀ {f : Fld} {v : Nat}, (f, v) ∈ [(F.DMC_STATUS_STATE, 1), (F.DMC_GEOM_USABLE_MIB, 0)] →
      (x.wrs [(F.DMC_STATUS_STATE, 1), (F.DMC_GEOM_USABLE_MIB, 0)]).rd f = v % 2 ^ f.width := fun h => State.rd_wrs_mem hapart (by decide) x h
  have honly : RegsOnly x (x.wrs [(F.DMC_STATUS_STATE, 1), (F.DMC_GEOM_USABLE_MIB, 0)]) := .wrs ..
  have hsame : RegsSame [(F.DMC_STATUS_STATE).addr, (F.DMC_GEOM_USABLE_MIB).addr] x (x.wrs [(F.DMC_STATUS_STATE, 1), (F.DMC_GEOM_USABLE_MIB, 0)]) :=
    .wrs _ _ (by simp)
  generalize x.wrs [(F.DMC_STATUS_STATE, 1), (F.DMC_GEOM_USABLE_MIB, 0)] = u at *
  have hu : u = { s with regs := u.regs, dmc := u.dmc } := by rw [honly, hx]
  exact ⟨u, hexec, hrd (v := 1) (by simp), hrd (v := 0) (by simp), by rw [honly, hfrom], by rw [hu], hu, (RegsSame.of_regs _ hxregs).trans hsame,
    by rw [hu]; exact .of_eq rfl rfl rfl rfl⟩

theorem dmcRetrain_refused {s : State} (hreqs : s.dmc.reqs ≠ []) : Answers .dmcRetrain s fun u =>
      bitOf (u.rd Ev.dmc.bits) 6 = true ∧ EventOnly s u ∧ Quiet (evOut Ev.dmc) s u := by
  have hexec : exec .dmcRetrain s = .next s.dmcRetrain := rfl
  rw [State.dmcRetrain] at hexec
  dsimp only at hexec
  have hbusy : (s.bursts.any s.sdramShare || !s.dmc.reqs.isEmpty) = true := by
    rw [Bool.or_eq_true]
    exact .inr (by cases h : s.dmc.reqs with
      | nil => exact absurd h hreqs
      | cons _ _ => rfl)
  rw [hbusy, if_neg (by simp)] at hexec
  have honly := s.event_event Ev.dmc 6
  exact ⟨_, hexec, s.event_bit Ev.dmc (by decide) (by decide), honly, s.event_regs Ev.dmc 6, honly.bytes⟩

/-! ## Refreshes, temperature and calibrations -/

theorem refreshInterval_due {sub : Fin 4} {s : State} (hstate : s.rd F.DMC_STATUS_STATE = 2) : Answers (.refreshInterval sub) s fun u =>
      u.dmc.subs[sub] = { s.dmc.subs[sub] with due := s.dmc.subs[sub].due + 1 } ∧
      u.rd (F.DMC_SC_REF_POSTPONED sub) =
        (if s.dmc.subs[sub].due = 0 then s.rd (F.DMC_SC_REF_POSTPONED sub) else (s.rd (F.DMC_SC_REF_POSTPONED sub) + 1) % 65536) ∧
      (∀ k, k ≠ sub → u.dmc.subs[k] = s.dmc.subs[k]) ∧ u = { s with regs := u.regs, dmc := { s.dmc with subs := u.dmc.subs } } ∧
      Quiet [(F.DMC_SC_REF_POSTPONED sub).addr] s u := by
  have hexec : exec (.refreshInterval sub) s = execRefreshInterval sub s := rfl
  rw [execRefreshInterval, if_neg (not_not.mpr hstate)] at hexec
  dsimp only at hexec
  have hx : ∀ x : State, (if s.dmc.subs[sub].due = 0 then s else s.incWrap (F.DMC_SC_REF_POSTPONED sub)) = x → RegsOnly s x ∧
      RegsSame [(F.DMC_SC_REF_POSTPONED sub).addr] s x ∧ x.rd (F.DMC_SC_REF_POSTPONED sub) =
        (if s.dmc.subs[sub].due = 0 then s.rd (F.DMC_SC_REF_POSTPONED sub) else (s.rd (F.DMC_SC_REF_POSTPONED sub) + 1) % 65536) := by
    rintro x rfl
    split
    · exact ⟨.refl s, .refl _ s, rfl⟩
    · refine ⟨.wr .., .wr _ _ _ List.mem_cons_self, ?_⟩
      exact State.rd_wr_same s (F.DMC_SC_REF_POSTPONED sub) _ (show 0 + 16 ≤ 32 by decide)
  generalize (if s.dmc.subs[sub].due = 0 then s else s.incWrap (F.DMC_SC_REF_POSTPONED sub)) = x at *
  obtain ⟨hxonly, hxsame, hxcount⟩ := hx x rfl
  have hxdmc : x.dmc = s.dmc := by rw [hxonly]
  obtain ⟨hsub, hothers⟩ := SubOnly.modSub sub x fun x => { x with due := x.due + 1 }
  have hthis := x.modSub_same sub fun x => { x with due := x.due + 1 }
  have hregs : (x.modSub sub fun x => { x with due := x.due + 1 }).regs = x.regs := rfl
  have hdmc : (x.modSub sub fun x => { x with due := x.due + 1 }).dmc = { x.dmc with subs := (x.modSub sub fun x => { x with due := x.due + 1 }).dmc.subs } := rfl
  generalize (x.modSub sub fun x => { x with due := x.due + 1 }) = u at *
  rw [hxdmc] at hthis hothers hdmc
  refine ⟨u, hexec, hthis, (State.rd_of_regs hregs _).trans hxcount, hothers, ?_, hxsame.andRegs hregs, ?_⟩
  · rw [hsub, hxonly, ← hdmc]
  · rw [hsub, hxonly]
    exact .of_eq rfl rfl rfl rfl

theorem refreshInterval_still {sub : Fin 4} {s : State} (hstate : s.rd F.DMC_STATUS_STATE ≠ 2) : NoEffect (.refreshInterval sub) s := if_pos hstate

/-- The bits of a field of one bit a subchannel after the write of one. -/
theorem State.subBit_bits (s : State) {f : Fld} (hw : f.width = 4) (hf : f.lsb + f.width ≤ 32) (k : Fin 4) (v : Bool) (j : Fin 4) :
    bitOf ((s.subBit f k v).rd f) j = if j = k then v else bitOf (s.rd f) j := by
  rw [State.subBit, State.rd_wr_same _ _ _ hf, hw, bitOf, Nat.testBit_mod_two_pow, decide_eq_true j.2, Bool.true_and, Nat.testBit_or, ← bitOf,
    bitOf_without]
  have hbit : (b2n v * 2 ^ k.1).testBit j = (decide (j = k) && v) := by
    cases v with
    | false => simp [b2n]
    | true => simp [b2n, Nat.testBit_two_pow, Fin.ext_iff, eq_comm]
  have hpow : bitOf (2 ^ k.1) j = decide (j = k) := by simp [bitOf, Nat.testBit_two_pow, Fin.ext_iff, eq_comm]
  rw [hbit, hpow]
  by_cases h : j = k <;> simp [h]

/-- What a reading of a subchannel's temperature shows (R373). -/
def TempShown (s u : State) (sub : Fin 4) (fast hot : Bool) : Prop :=
  bitOf (u.rd F.DMC_TEMP_REF_2X) sub = fast ∧ bitOf (u.rd F.DMC_TEMP_HOT) sub = hot ∧
    ∀ k : Fin 4, k ≠ sub → bitOf (u.rd F.DMC_TEMP_REF_2X) k = bitOf (s.rd F.DMC_TEMP_REF_2X) k ∧ bitOf (u.rd F.DMC_TEMP_HOT) k = bitOf (s.rd F.DMC_TEMP_HOT) k

theorem State.temp_shown (s : State) (sub : Fin 4) (fast hot : Bool) {u : State} (hu : (s.subBit F.DMC_TEMP_REF_2X sub fast).subBit F.DMC_TEMP_HOT sub hot = u) :
    TempShown s u sub fast hot ∧ RegsOnly s u ∧ RegsSame [(F.DMC_TEMP_HOT).addr] s u := by
  have hfast : ∀ j : Fin 4, bitOf (u.rd F.DMC_TEMP_REF_2X) j = if j = sub then fast else bitOf (s.rd F.DMC_TEMP_REF_2X) j := fun j => by
    rw [← hu, ← s.subBit_bits (by rfl) (by decide) sub fast j]
    exact congrArg (bitOf · j) (State.rd_wr_apart _ _ _ _ (by decide) (by decide))
  have hhot : ∀ j : Fin 4, bitOf (u.rd F.DMC_TEMP_HOT) j = if j = sub then hot else bitOf (s.rd F.DMC_TEMP_HOT) j := fun j => by
    have hbefore : (s.subBit F.DMC_TEMP_REF_2X sub fast).rd F.DMC_TEMP_HOT = s.rd F.DMC_TEMP_HOT := State.rd_wr_apart _ _ _ _ (by decide) (by decide)
    rw [← hu, State.subBit_bits _ (by rfl) (by decide) sub hot j, hbefore]
  refine ⟨⟨by rw [hfast, if_pos rfl], by rw [hhot, if_pos rfl], fun k hk => ⟨by rw [hfast, if_neg hk], by rw [hhot, if_neg hk]⟩⟩, ?_, ?_⟩
  · exact hu ▸ (RegsOnly.wr ..).trans (.wr ..)
  · exact hu ▸ (RegsSame.wr _ _ _ (by decide)).andWr (by decide)

theorem mr4Read_cool {sub : Fin 4} {fast : Bool} {s : State} : Answers (.mr4Read sub fast false) s fun u =>
      bitOf (u.rd F.DMC_TEMP_REF_2X) sub = fast ∧ bitOf (u.rd F.DMC_TEMP_HOT) sub = false ∧
      (∀ k : Fin 4, k ≠ sub → bitOf (u.rd F.DMC_TEMP_REF_2X) k = bitOf (s.rd F.DMC_TEMP_REF_2X) k ∧
        bitOf (u.rd F.DMC_TEMP_HOT) k = bitOf (s.rd F.DMC_TEMP_HOT) k) ∧ RegsOnly s u ∧ Quiet [(F.DMC_TEMP_HOT).addr] s u := by
  have hexec : exec (.mr4Read sub fast false) s = execMr4Read sub fast false s := rfl
  rw [execMr4Read] at hexec
  rw [Bool.or_false, if_neg Bool.false_ne_true] at hexec
  obtain ⟨⟨hfast, hhot, hothers⟩, honly, hsame⟩ := s.temp_shown sub fast false rfl
  generalize (s.subBit F.DMC_TEMP_REF_2X sub fast).subBit F.DMC_TEMP_HOT sub false = u at *
  exact ⟨u, hexec, hfast, hhot, hothers, honly, hsame, honly.event.bytes⟩

theorem mr4Read_hot {sub : Fin 4} {fast : Bool} {s : State} (hcls : s.classOf 22 < 2) : Answers (.mr4Read sub fast true) s fun u =>
      bitOf (u.rd F.DMC_TEMP_REF_2X) sub = true ∧ bitOf (u.rd F.DMC_TEMP_HOT) sub = true ∧ bitOf (u.rd Ev.dmc.bits) 4 = true ∧
      u.latched 22 = true ∧ Quiet ([(F.DMC_TEMP_HOT).addr] ++ evOut Ev.dmc ++ faultOut 22) s u := by
  have hexec : exec (.mr4Read sub fast true) s = execMr4Read sub fast true s := rfl
  rw [execMr4Read] at hexec
  rw [Bool.or_true, if_pos rfl] at hexec
  obtain ⟨⟨hfast, hhot, -⟩, hxonly, hxsame⟩ := s.temp_shown sub true true rfl
  generalize (s.subBit F.DMC_TEMP_REF_2X sub true).subBit F.DMC_TEMP_HOT sub true = x at *
  have hxcls : x.classOf 22 < 2 := by rw [hxsame.classOf (by decide)]; exact hcls
  obtain ⟨honly, hlatched, hbit, hsame⟩ := State.event_faultOnce (r := Ev.dmc) (bit := 4) (g := none) (by decide) hxcls (by decide) (by decide) (by decide)
    (by decide) rfl
  generalize (x.event Ev.dmc 4).faultOnce 22 none = u at *
  refine ⟨u, hexec, ?_, ?_, hbit, hlatched, ?_, (hxonly.fault.trans honly).bytes⟩
  · rw [hsame.rd _ (by decide), hfast]
  · rw [hsame.rd _ (by decide), hhot]
  · rw [List.append_assoc]
    exact (hxsame.mono fun _ h => List.mem_append_left _ h).trans (hsame.mono fun _ h => List.mem_append_right _ h)

/-- A change of one subchannel alone. -/
theorem subOnly_answer {sub : Fin 4} {f : DmcSub → DmcSub} {s u : State} (hu : s.modSub sub f = u) : u.dmc.subs[sub] = f s.dmc.subs[sub] ∧
    (∀ k, k ≠ sub → u.dmc.subs[k] = s.dmc.subs[k]) ∧ u = { s with dmc := { s.dmc with subs := u.dmc.subs } } := by
  subst hu
  exact ⟨s.modSub_same sub f, (SubOnly.modSub sub s f).2, rfl⟩

theorem zqCalibration_queued {sub : Fin 4} {s : State} : Answers (.zqCalibration sub) s fun u =>
      u.dmc.subs[sub] = { s.dmc.subs[sub] with cals := s.dmc.subs[sub].cals + 1 } ∧
      (∀ k, k ≠ sub → u.dmc.subs[k] = s.dmc.subs[k]) ∧ u = { s with dmc := { s.dmc with subs := u.dmc.subs } } := ⟨_, rfl, subOnly_answer rfl⟩

theorem dqsOscillatorRead_queued {sub : Fin 4} {s : State} : Answers (.dqsOscillatorRead sub) s fun u =>
      u.dmc.subs[sub] = { s.dmc.subs[sub] with cals := s.dmc.subs[sub].cals + 1 } ∧
      (∀ k, k ≠ sub → u.dmc.subs[k] = s.dmc.subs[k]) ∧ u = { s with dmc := { s.dmc with subs := u.dmc.subs } } := ⟨_, rfl, subOnly_answer rfl⟩

/-! ## Alerts (R376, R377) -/

theorem alertN_first {sub : Fin 4} {s : State} (hstate : s.rd F.DMC_STATUS_STATE = 2) (halert : s.dmc.subs[sub].alert = false)
    (hreplay : s.dmc.subs[sub].replay = none) : Answers (.alertN sub) s fun u =>
      u.dmc.subs[sub] = { s.dmc.subs[sub] with alert := true, failed := 0
                                               retry := s.dmc.subs[sub].retry.filter fun c => decide (s.tim.raw < c.at_ + alertWindow) } ∧
      (∀ k, k ≠ sub → u.dmc.subs[k] = s.dmc.subs[k]) ∧ u = { s with dmc := { s.dmc with subs := u.dmc.subs } } := by
  have hexec : exec (.alertN sub) s = execAlertN sub s := rfl
  rw [execAlertN] at hexec
  dsimp only at hexec
  rw [if_neg (by rw [hstate, halert]; simp), hreplay] at hexec
  exact ⟨_, hexec, subOnly_answer rfl⟩

theorem alertN_gives_up {sub : Fin 4} {r : Nat} {s : State} (hstate : s.rd F.DMC_STATUS_STATE = 2) (halert : s.dmc.subs[sub].alert = false)
    (hreplay : s.dmc.subs[sub].replay = some r) (hagain : s.tim.raw < r + alertWindow)
    (hmax : max 1 (s.rd F.DMC_REPLAY_CFG_REPLAY_MAX) ≤ s.dmc.subs[sub].failed + 1) (hcls : s.classOf 21 < 2) : Answers (.alertN sub) s fun u =>
      u.rd F.DMC_STATUS_STATE = 3 ∧ u.rd F.DMC_STATUS_CAUSE = 10 ∧ u.rd F.DMC_STATUS_FAIL_SUBCH = 2 ^ sub.1 ∧
      u.rd F.DMC_GEOM_USABLE_MIB = 0 ∧ u.dmc.reqs = [] ∧ u.dmc.waits = [] ∧ bitOf (u.rd Ev.dmc.bits) 3 = true ∧ u.latched 21 = true := by
  have hexec : exec (.alertN sub) s = execAlertN sub s := rfl
  rw [execAlertN] at hexec
  dsimp only at hexec
  have hin : (s.dmc.subs[sub].replay.any fun r => decide (s.tim.raw < r + alertWindow)) = true := by
    rw [hreplay]
    exact decide_eq_true hagain
  rw [if_neg (by rw [hstate, halert]; simp), hin, if_pos rfl, if_pos ⟨rfl, hmax⟩] at hexec
  have hsub : 2 ^ sub.1 < 16 := lt_of_lt_of_le (Nat.pow_lt_pow_right (by decide) sub.2) le_rfl
  obtain ⟨hdead, -, hxcls⟩ := s.dmcDead_keeps (by decide : 10 < 16) hsub rfl
  generalize s.dmcDead 10 (2 ^ sub.1) = x at *
  obtain ⟨honly, hlatched, hbit, hsame⟩ := State.event_faultOnce (r := Ev.dmc) (bit := 3) (i := 21) (g := none) (by decide)
    (by rw [hxcls 21 (by decide)]; exact hcls) (by decide) (by decide) (by decide) (by decide) rfl
  generalize (x.event Ev.dmc 3).faultOnce 21 none = u at *
  obtain ⟨hst, hcause, hsubs, hmib, hreqs, hwaits⟩ := hdead.of_same hsame (by rw [honly]) (by decide)
  exact ⟨u, hexec, hst, hcause, hsubs, hmib, hreqs, hwaits, hbit, hlatched⟩

theorem alertN_still {sub : Fin 4} {s : State} (h : s.rd F.DMC_STATUS_STATE ≠ 2 ∨ s.dmc.subs[sub].alert = true) : NoEffect (.alertN sub) s := if_pos h

/-- A row that the end of an alert holds open is one of a command kept. -/
theorem replay_rows (l : List DmcCmd) (rows : List (Nat × Nat × Bool)) :
    ∀ y ∈ l.foldl (fun (l : List (Nat × Nat × Bool)) c => if l.any fun y => y.1 == c.bank then l else (c.bank, c.row, false) :: l) rows,
      y ∈ rows ∨ ∃ c ∈ l, c.bank = y.1 ∧ c.row = y.2.1 := by
  induction l generalizing rows with
  | nil => exact fun y hy => .inl hy
  | cons c l ih =>
    intro y hy
    rcases ih _ y hy with h | ⟨d, hd, hkeep⟩
    · dsimp only at h
      split at h
      · exact .inl h
      · rcases List.mem_cons.mp h with rfl | h
        · exact .inr ⟨c, List.mem_cons_self, rfl, rfl⟩
        · exact .inl h
    · exact .inr ⟨d, List.mem_cons_of_mem _ hd, hkeep⟩

theorem alertNHigh_replays {sub : Fin 4} {s : State} (halert : s.dmc.subs[sub].alert = true) : Answers (.alertNHigh sub) s fun u =>
      u.dmc.subs[sub].alert = false ∧ u.dmc.subs[sub].replay = some s.tim.raw ∧
      u.dmc.subs[sub].retry = s.dmc.subs[sub].retry.map (fun c => { c with at_ := s.tim.raw }) ∧
      (∀ y ∈ u.dmc.subs[sub].rows, ∃ c ∈ s.dmc.subs[sub].retry, c.bank = y.1 ∧ c.row = y.2.1) ∧
      u.rd F.DMC_REPLAY_CNT_COUNT = min (s.rd F.DMC_REPLAY_CNT_COUNT + 1) 65535 ∧ bitOf (u.rd Ev.dmc.bits) 2 = true ∧
      (∀ k, k ≠ sub → u.dmc.subs[k] = s.dmc.subs[k]) ∧
      u = { s with regs := u.regs, hq := u.hq, sched := u.sched, dmc := u.dmc } ∧ Quiet ((F.DMC_REPLAY_CNT_COUNT).addr :: evOut Ev.dmc) s u := by
  have hexec : exec (.alertNHigh sub) s = execAlertNHigh sub s := rfl
  rw [execAlertNHigh] at hexec
  dsimp only at hexec
  rw [if_neg (by rw [halert]; decide)] at hexec
  have hrows : ∀ y ∈ (s.dmc.subs[sub].retry.filter fun c => decide (c.kind ≤ 2)).foldl
      (fun (l : List (Nat × Nat × Bool)) c => if l.any fun y => y.1 == c.bank then l else (c.bank, c.row, false) :: l) [],
      ∃ c ∈ s.dmc.subs[sub].retry, c.bank = y.1 ∧ c.row = y.2.1 := fun y hy => by
    rcases replay_rows _ _ y hy with h | ⟨c, hc, hkeep⟩
    · exact absurd h List.not_mem_nil
    · exact ⟨c, (List.mem_filter.mp hc).1, hkeep⟩
  generalize (s.dmc.subs[sub].retry.filter fun c => decide (c.kind ≤ 2)).foldl
    (fun (l : List (Nat × Nat × Bool)) c => if l.any fun y => y.1 == c.bank then l else (c.bank, c.row, false) :: l) [] = rows at *
  obtain ⟨x, hx, hexec⟩ : ∃ x : State, (x.dmc.subs[sub] = { s.dmc.subs[sub] with
        alert := false, rows := rows, replay := some s.tim.raw, retry := s.dmc.subs[sub].retry.map fun c => { c with at_ := s.tim.raw } } ∧
      (∀ k, k ≠ sub → x.dmc.subs[k] = s.dmc.subs[k]) ∧ x = { s with dmc := x.dmc } ∧ x.regs = s.regs) ∧
      exec (.alertNHigh sub) s = .next ((x.incSat F.DMC_REPLAY_CNT_COUNT).event Ev.dmc 2) := by
    refine ⟨_, ⟨?_, ?_, ?_, ?_⟩, hexec⟩
    · exact State.modSub_same ..
    · exact fun k hk => (SubOnly.modSub ..).2 k hk
    · rfl
    · rfl
  obtain ⟨hthis, hothers, hxonly, hxregs⟩ := hx
  have hcount : (x.incSat F.DMC_REPLAY_CNT_COUNT).rd F.DMC_REPLAY_CNT_COUNT = min (s.rd F.DMC_REPLAY_CNT_COUNT + 1) 65535 := by
    rw [State.incSat, State.rd_wr_same _ _ _ (by decide), State.rd_of_regs hxregs]
    exact Nat.mod_eq_of_lt (lt_of_le_of_lt (Nat.min_le_right _ _) (by decide))
  have hyonly : RegsOnly x (x.incSat F.DMC_REPLAY_CNT_COUNT) := .wr ..
  have hysame : RegsSame ((F.DMC_REPLAY_CNT_COUNT).addr :: evOut Ev.dmc) x (x.incSat F.DMC_REPLAY_CNT_COUNT) := .incSat _ _ _ List.mem_cons_self
  generalize x.incSat F.DMC_REPLAY_CNT_COUNT = y at *
  have honly := y.event_event Ev.dmc 2
  have hsame := y.event_regs Ev.dmc 2
  have hbit := y.event_bit Ev.dmc (i := 2) (by decide) (by decide)
  generalize y.event Ev.dmc 2 = u at *
  have hdmc : u.dmc = x.dmc := by rw [honly, hyonly]
  have hu : u = { s with regs := u.regs, hq := u.hq, sched := u.sched, dmc := u.dmc } := by rw [honly, hyonly, hxonly]
  refine ⟨u, hexec, by rw [hdmc, hthis], by rw [hdmc, hthis], by rw [hdmc, hthis], ?_, ?_, hbit, fun k hk => by rw [hdmc]; exact hothers k hk, hu, ?_,
    by rw [hu]; exact .of_eq rfl rfl rfl rfl⟩
  · rw [hdmc, hthis]
    exact hrows
  · rw [hsame.rd _ (by decide), hcount]
  · exact ((RegsSame.of_regs _ hxregs).trans hysame).trans (hsame.mono fun _ h => List.mem_cons_of_mem _ h)

theorem alertNHigh_still {sub : Fin 4} {s : State} (halert : s.dmc.subs[sub].alert = false) : NoEffect (.alertNHigh sub) s := if_pos halert

/-! ## Idle rows and power-down -/

theorem rowIdleClose_closes {sub : Fin 4} {rank bank : Nat} {s : State} (hidle : s.candidates sub = []) : Answers (.rowIdleClose sub rank bank) s fun u =>
      u.dmc.subs[sub] = { s.dmc.subs[sub] with rows := s.dmc.subs[sub].rows.filter fun y => y.1 != 16 * rank + bank || y.2.2 } ∧
      (∀ k, k ≠ sub → u.dmc.subs[k] = s.dmc.subs[k]) ∧ u = { s with dmc := { s.dmc with subs := u.dmc.subs } } := by
  have hexec : exec (.rowIdleClose sub rank bank) s = execRowIdleClose sub rank bank s := rfl
  rw [execRowIdleClose, hidle] at hexec
  exact ⟨_, hexec, subOnly_answer rfl⟩

theorem powerDownEntry_down {sub : Fin 4} {s : State} (hstate : s.rd F.DMC_STATUS_STATE = 2) (hen : s.on F.DMC_CTRL_PD_EN = true) (hreqs : s.dmc.reqs = [])
    (hwrites : s.dmc.subs[sub].writes = []) (hbursts : s.sdramBurst = false) : Answers (.powerDownEntry sub) s fun u =>
      u.dmc.subs[sub] = { s.dmc.subs[sub] with down := true } ∧ (∀ k, k ≠ sub → u.dmc.subs[k] = s.dmc.subs[k]) ∧
      u = { s with dmc := { s.dmc with subs := u.dmc.subs } } := by
  have hexec : exec (.powerDownEntry sub) s = execPowerDownEntry sub s := rfl
  rw [execPowerDownEntry, hreqs, hwrites, hbursts, hstate, hen] at hexec
  exact ⟨_, hexec, subOnly_answer rfl⟩

theorem powerDownEntry_still {sub : Fin 4} {s : State} (h : s.on F.DMC_CTRL_PD_EN = false ∨ s.sdramBurst = true) : NoEffect (.powerDownEntry sub) s := by
  have hexec : exec (.powerDownEntry sub) s = execPowerDownEntry sub s := rfl
  rw [execPowerDownEntry] at hexec
  rw [if_neg (by rcases h with h | h <;> rw [h] <;> simp)] at hexec
  exact hexec

end Sys2Proof.Machine
open Sys2Proof Sys2Proof.Machine

/-- Settles O44: a command of the controller changes its own registers, its subchannels or its requests, and what it raises, of whatever class,
leaves the controller's registers alone. -/
theorem sdramUpkeep : Obligations.SdramUpkeep :=
  ⟨fun _ hstate hclk hrail hgood => dmcInit_trains hstate hclk hrail hgood, fun _ hstate hclk hrail hbad => dmcInit_fails hstate hclk hrail hbad,
    fun _ h => dmcInit_still h, fun _ _ _ hstate hnew => dmcTrainingDone_passes hstate hnew,
    fun _ _ _ _ hstate hstep hlast hsubs hcls => dmcTrainingDone_fails hstate hstep hlast hsubs hcls, fun _ _ _ _ hstate => dmcTrainingDone_still hstate,
    fun _ hstate hreqs hbursts => dmcRetrain_trains hstate hreqs hbursts, fun _ hreqs => dmcRetrain_refused hreqs,
    fun _ _ hstate => refreshInterval_due hstate, fun _ _ hstate => refreshInterval_still hstate, fun _ _ _ => mr4Read_cool,
    fun _ _ _ hcls => mr4Read_hot hcls, fun _ _ => zqCalibration_queued, fun _ _ => dqsOscillatorRead_queued,
    fun _ _ hstate halert hreplay => alertN_first hstate halert hreplay,
    fun _ _ _ hstate halert hreplay hagain hmax hcls => alertN_gives_up hstate halert hreplay hagain hmax hcls, fun _ _ h => alertN_still h,
    fun _ _ halert => alertNHigh_replays halert, fun _ _ halert => alertNHigh_still halert, fun _ _ _ _ hidle => rowIdleClose_closes hidle,
    fun _ _ hstate hen hreqs hwrites hbursts => powerDownEntry_down hstate hen hreqs hwrites hbursts, fun _ _ h => powerDownEntry_still h⟩
end

section
/-! O42 (link states), R332, R341 and R344: what bring-up, retraining, failure, idling, waking and a write of MFL_CFG leave. -/

set_option Elab.async false

namespace Sys2Proof.Machine

/-! ## Links and their lanes -/

theorem RegsSame.bond {out : List Nat} {s u : State} (h : RegsSame out s u) (hout : F.MFL_CFG_BOND_A.addr ∉ out) (n : Fin 8) : u.bond n = s.bond n := by
  rw [State.bond, h.rd F.MFL_CFG_BOND_A hout, h.rd F.MFL_CFG_BOND_B hout, State.bond]

theorem State.linkLane_of_bond {s u : State} (h : ∀ n, u.bond n = s.bond n) (n : Fin 8) : u.linkLane n = s.linkLane n := by
  rw [State.linkLane, h n, State.linkLane]

theorem State.lanesIn_of_bond {s u : State} (h : ∀ n, u.bond n = s.bond n) (n : Fin 8) : u.lanesIn n = s.lanesIn n := by
  rw [State.lanesIn, State.lanesIn]
  exact List.filter_congr fun k _ => by rw [State.linkLane_of_bond h, State.linkLane_of_bond h]

theorem State.mem_lanesIn {s : State} {n k : Fin 8} : k ∈ s.lanesIn n ↔ s.linkLane k = s.linkLane n := by
  rw [State.lanesIn, List.mem_filter, beq_iff_eq]
  exact and_iff_right (List.mem_finRange k)

theorem State.self_mem_lanesIn (s : State) (n : Fin 8) : n ∈ s.lanesIn n := State.mem_lanesIn.mpr rfl

/-- The lane that names a link is of it. -/
theorem State.linkLane_mem (s : State) (n : Fin 8) : s.linkLane n ∈ s.lanesIn n := by
  rw [State.mem_lanesIn]
  have hbond : ∀ v : Nat, v < 4 → (if v = 3 then 0 else v) < 3 := by decide
  obtain ⟨a, ha⟩ : ∃ a : Fin 3, a.1 = if s.rd F.MFL_CFG_BOND_A = 3 then 0 else s.rd F.MFL_CFG_BOND_A := ⟨⟨_, hbond _ (State.rd_lt ..)⟩, rfl⟩
  obtain ⟨b, hb⟩ : ∃ b : Fin 3, b.1 = if s.rd F.MFL_CFG_BOND_B = 3 then 0 else s.rd F.MFL_CFG_BOND_B := ⟨⟨_, hbond _ (State.rd_lt ..)⟩, rfl⟩
  have hlane : ∀ k : Fin 8, s.linkLane k = fin 8 (k.1 / 2 ^ (if k.1 < 4 then a.1 else b.1) * 2 ^ (if k.1 < 4 then a.1 else b.1)) := by
    intro k
    rw [State.linkLane, State.bond]
    by_cases hk : k.1 < 4
    · rw [if_pos hk, if_pos hk, ha]
    · rw [if_neg hk, if_neg hk, hb]
  rw [hlane (s.linkLane n), hlane n]
  clear hlane ha hb
  revert a b n
  decide

/-- The state of every lane after a link's lanes have been given one. -/
theorem State.setLanes_keeps (s : State) (n : Fin 8) {st : Nat} (hst : st < 8) {u : State} (hu : s.setLanes n st = u) :
    (∀ k ∈ s.lanesIn n, u.laneState k = st) ∧ (∀ k, k ∉ s.lanesIn n → u.laneState k = s.laneState k) ∧ RegsOnly s u ∧ RegsSame laneOut s u := by
  have hone : ∀ (l : List (Fin 8)) (x : State), (∀ k, (l.foldl (fun (s : State) (k : Fin 8) => s.wr (F.MFL_LANE_STAT_STATE k) st) x).laneState k =
        if k ∈ l then st else x.laneState k) ∧
      RegsOnly x (l.foldl (fun (s : State) (k : Fin 8) => s.wr (F.MFL_LANE_STAT_STATE k) st) x) ∧
      RegsSame laneOut x (l.foldl (fun (s : State) (k : Fin 8) => s.wr (F.MFL_LANE_STAT_STATE k) st) x) := by
    intro l
    induction l with
    | nil => exact fun x => ⟨fun k => (if_neg List.not_mem_nil).symm, .refl x, .refl _ x⟩
    | cons j l ih =>
      intro x
      obtain ⟨hstate, honly, hsame⟩ := ih (x.wr (F.MFL_LANE_STAT_STATE j) st)
      refine ⟨fun k => ?_, (RegsOnly.wr ..).trans honly, (RegsSame.wr _ _ _ ?_).trans hsame⟩
      · rw [List.foldl_cons, hstate k]
        by_cases hkl : k ∈ l
        · rw [if_pos hkl, if_pos (List.mem_cons_of_mem _ hkl)]
        · rw [if_neg hkl]
          by_cases hkj : k = j
          · rw [hkj, if_pos List.mem_cons_self]
            exact (State.rd_wr_same x (F.MFL_LANE_STAT_STATE j) st (show 0 + 3 ≤ 32 by decide)).trans (Nat.mod_eq_of_lt hst)
          · rw [if_neg (by rw [List.mem_cons]; exact not_or.mpr ⟨hkj, hkl⟩)]
            exact State.rd_wr_other x (F.MFL_LANE_STAT_STATE j) (F.MFL_LANE_STAT_STATE k) st (.inl (by
              simp only [F.MFL_LANE_STAT_STATE]
              have := Fin.val_ne_of_ne hkj
              omega))
      · simp only [laneOut, List.mem_cons, List.mem_map, List.mem_range]
        exact .inr ⟨j.1, j.2, rfl⟩
  obtain ⟨hstate, honly, hsame⟩ := hone (s.lanesIn n) s
  rw [State.setLanes] at hu
  dsimp only at hu
  generalize (s.lanesIn n).foldl (fun (s : State) (k : Fin 8) => s.wr (F.MFL_LANE_STAT_STATE k) st) s = x at *
  have hushow : RegsSame [(F.MFL_STATUS_UP).addr] x u := hu ▸ .wrs _ _ (by simp [F.MFL_STATUS_UP, F.MFL_STATUS_TRAINING])
  have huonly : RegsOnly x u := hu ▸ .wrs ..
  have hshown : ∀ k, u.laneState k = x.laneState k := fun k => hushow.rd _ (by
    simp only [F.MFL_STATUS_UP, F.MFL_LANE_STAT_STATE, List.mem_singleton]
    omega)
  refine ⟨fun k hk => ?_, fun k hk => ?_, honly.trans huonly, hsame.trans (hushow.mono fun a ha => ?_)⟩
  · rw [hshown, hstate, if_pos hk]
  · rw [hshown, hstate, if_neg hk]
  · rw [List.mem_singleton.mp ha]
    exact List.mem_cons_self

theorem laneStat_notMem_agreed (k : Fin 8) : (F.MFL_LANE_STAT_STATE k).addr ∉ agreedOut := by
  revert k
  decide

theorem State.noteAgreed_keeps (s : State) {u : State} (hu : s.noteAgreed = u) :
    RegsOnly s u ∧ RegsSame agreedOut s u ∧ ∀ k, u.laneState k = s.laneState k := by
  rw [State.noteAgreed] at hu
  have hfold : ∀ (l : List (Fin 8)) (x : State), RegsOnly x (l.foldl (fun (s : State) (l : Fin 8) => s.wr (F.STR_LINK_AGREED l) (b2n (s.agrees l))) x) ∧
      RegsSame agreedOut x (l.foldl (fun (s : State) (l : Fin 8) => s.wr (F.STR_LINK_AGREED l) (b2n (s.agrees l))) x) := fun l x =>
    ⟨foldl_regsOnly _ _ _ fun s a => .wr .., foldl_regsSame _ _ _ fun s a _ => .wr _ _ _ (List.mem_cons_of_mem _ (List.mem_map.mpr ⟨a.1, List.mem_range.mpr a.2, rfl⟩))⟩
  obtain ⟨honly, hsame⟩ := hfold ((allFin 8).filter fun (l : Fin 8) => s.rd (F.STR_LINK_MODULES l) != 0) s
  have hall : RegsSame agreedOut s u := hu ▸ hsame.andWr List.mem_cons_self
  exact ⟨hu ▸ honly.trans (.wr ..), hall, fun k => hall.rd _ (laneStat_notMem_agreed k)⟩

/-! ## Training -/

/-- What a lane keeps of its bulk channel while it trains. -/
def Lane.seqs (k : Lane) : Nat × Nat × Nat × List Bulk := (k.rxSeq, k.txSeq, k.credit, k.replay)

/-- What the first part of a training leaves, of the lanes `l`. -/
structure Trained (l : List (Fin 8)) (x y : State) : Prop where
  only : y = { x with regs := y.regs, links := y.links }
  same : RegsSame laneOut x y
  states : ∀ k : Fin 8, y.laneState k = x.laneState k
  fresh : ∀ k ∈ l, y.links.lanes[k].inbox = [] ∧ y.links.lanes[k].bad = 0
  seqs : ∀ k : Fin 8, y.links.lanes[k].seqs = x.links.lanes[k].seqs
  others : ∀ k, k ∉ l → y.links.lanes[k] = x.links.lanes[k]

/-- Nothing but the tokens that wait on lane `k` differs, and what the links note beside their lanes. -/
structure OutOnly (k : Fin 8) (s u : State) : Prop where
  only : u = { s with links := u.links }
  others : ∀ j, j ≠ k → u.links.lanes[j] = s.links.lanes[j]
  lane : u.links.lanes[k] = { s.links.lanes[k] with out := u.links.lanes[k].out }

theorem OutOnly.refl {k : Fin 8} (s : State) : OutOnly k s s := ⟨rfl, fun _ _ => rfl, rfl⟩

theorem OutOnly.trans {k : Fin 8} {s x u : State} (h : OutOnly k s x) (h' : OutOnly k x u) : OutOnly k s u :=
  ⟨by rw [h'.only, h.only], fun j hj => (h'.others j hj).trans (h.others j hj), by rw [h'.lane, h.lane]⟩

theorem OutOnly.modOut {k : Fin 8} (s : State) (f : List Nat → List Nat) : OutOnly k s (s.modLane k fun x => { x with out := f x.out }) := by
  refine ⟨rfl, fun j hj => upd_other _ _ _ _ hj, ?_⟩
  rw [show (s.modLane k fun x => { x with out := f x.out }).links.lanes[k] = { s.links.lanes[k] with out := f s.links.lanes[k].out } from upd_same ..]

theorem OutOnly.queueToken {k : Fin 8} (s : State) (tok copies : Nat) : OutOnly k s (s.queueToken k tok copies) := by
  rw [State.queueToken]
  exact .modOut s fun l => l ++ List.replicate copies tok

theorem OutOnly.asked {k : Fin 8} (s : State) (l : List (Nat × Nat)) : OutOnly k s { s with links := { s.links with asked := l } } :=
  ⟨rfl, fun _ _ => rfl, rfl⟩

theorem OutOnly.sendDescs {k : Fin 8} (s : State) : OutOnly k s (s.sendDescs k) := by
  have hclear := OutOnly.modOut (k := k) s fun l => l.filter fun t => t % 16 != 8
  rw [State.sendDescs]
  dsimp only
  generalize (s.modLane k fun x => { x with out := x.out.filter fun t => t % 16 != 8 }) = x at *
  have hasked := OutOnly.asked (k := k) x ((x.links.asked.filter fun a => a.1 != k.1) ++
    ((x.entriesOf k).filter fun l => (x.descOn k l).isNone).map fun (l : Fin 8) => (k.1, x.rd (F.STR_LINK_ID_LINK_ID l)))
  exact hclear.trans (hasked.trans (foldl_rel OutOnly.refl OutOnly.trans (fun x a => .queueToken x ..) _ _))

/-- One lane's part of a training. -/
def State.trainLane (s : State) (k : Fin 8) : State :=
  let fresh := fun (x : Lane) =>
    { x with out := [], inbox := [], copies := [], bad := 0, noSync := 0, lowWins := 0, echo := [], seen := [], need := 0, echoDue := none
             farWidth := none }
  let s := { s with links := { s.links with descs := s.links.descs.filter fun d => d.1 != k.1 } }
  (((s.modLane k fresh).queueToken k (s.identToken k) 3).sendDescs k).wrs [(F.MFL_LANE_STAT_TOO_FAR k, 0), (F.MFL_LANE_STAT_PLESIO k, 0)]

theorem State.train_eq (s : State) (n : Fin 8) : ∃ y : State, (s.lanesIn n).foldl State.trainLane s = y ∧
    s.train n = ((y.modLane (y.linkLane n) fun k => { k with need := 1024, trainAt := y.master }).setLanes n 1).noteAgreed := ⟨_, rfl, rfl⟩

theorem State.trainLane_keeps (s : State) (k : Fin 8) : Trained [k] s (s.trainLane k) := by
  rw [State.trainLane]
  dsimp only
  have hfresh : ∀ x : State, (({ s with links := { s.links with descs := s.links.descs.filter fun d => d.1 != k.1 } } : State).modLane k fun (x : Lane) =>
      { x with out := [], inbox := [], copies := [], bad := 0, noSync := 0, lowWins := 0, echo := [], seen := [], need := 0, echoDue := none
               farWidth := none }) = x → x = { s with links := x.links } ∧ x.regs = s.regs ∧ (∀ j, j ≠ k → x.links.lanes[j] = s.links.lanes[j]) ∧
      x.links.lanes[k].inbox = [] ∧ x.links.lanes[k].bad = 0 ∧ x.links.lanes[k].seqs = s.links.lanes[k].seqs := by
    rintro x rfl
    refine ⟨rfl, rfl, fun j hj => upd_other _ _ _ _ hj, ?_, ?_, ?_⟩ <;> rw [State.modLane] <;> dsimp only <;> rw [upd_same] <;> rfl
  generalize (({ s with links := { s.links with descs := s.links.descs.filter fun d => d.1 != k.1 } } : State).modLane k fun (x : Lane) =>
      { x with out := [], inbox := [], copies := [], bad := 0, noSync := 0, lowWins := 0, echo := [], seen := [], need := 0, echoDue := none
               farWidth := none }) = x at *
  obtain ⟨hxonly, hxregs, hxothers, hinbox, hbad, hseqs⟩ := hfresh x rfl
  generalize ({ s with links := { s.links with descs := s.links.descs.filter fun d => d.1 != k.1 } } : State).identToken k = tok
  have hout := (OutOnly.queueToken (k := k) x tok 3).trans (.sendDescs _)
  generalize (x.queueToken k tok 3).sendDescs k = y at *
  have hyregs : y.regs = x.regs := by rw [hout.only]
  have honly : RegsOnly y (y.wrs [(F.MFL_LANE_STAT_TOO_FAR k, 0), (F.MFL_LANE_STAT_PLESIO k, 0)]) := .wrs ..
  have hsame : RegsSame [(F.MFL_LANE_STAT_STATE k).addr] y (y.wrs [(F.MFL_LANE_STAT_TOO_FAR k, 0), (F.MFL_LANE_STAT_PLESIO k, 0)]) :=
    .wrs _ _ (by simp [F.MFL_LANE_STAT_TOO_FAR, F.MFL_LANE_STAT_PLESIO, F.MFL_LANE_STAT_STATE])
  have hstates : ∀ j : Fin 8, (y.wrs [(F.MFL_LANE_STAT_TOO_FAR k, 0), (F.MFL_LANE_STAT_PLESIO k, 0)]).laneState j = y.laneState j := fun j =>
    State.rd_wrs_apart (by simp [Fld.apart, F.MFL_LANE_STAT_TOO_FAR, F.MFL_LANE_STAT_PLESIO, F.MFL_LANE_STAT_STATE]) y
  generalize y.wrs [(F.MFL_LANE_STAT_TOO_FAR k, 0), (F.MFL_LANE_STAT_PLESIO k, 0)] = u at *
  have hlinks : u.links = y.links := by rw [honly]
  have hlane := hout.lane
  generalize y.links.lanes[k].out = out at hlane
  have hxk : u.links.lanes[k] = { x.links.lanes[k] with out := out } := by rw [hlinks, hlane]
  have hother : ∀ j, j ≠ k → u.links.lanes[j] = s.links.lanes[j] := fun j hj => by rw [hlinks, hout.others j hj, hxothers j hj]
  refine ⟨by rw [honly, hout.only, hxonly], ?_, fun j => ?_, fun j hj => ?_, fun j => ?_, fun j hj => hother j fun h => hj (h ▸ List.mem_singleton.mpr rfl)⟩
  · refine (RegsSame.of_regs _ (hyregs.trans hxregs)).trans (hsame.mono fun a ha => ?_)
    rw [List.mem_singleton.mp ha]
    exact List.mem_cons_of_mem _ (List.mem_map.mpr ⟨k.1, List.mem_range.mpr k.2, rfl⟩)
  · exact (hstates j).trans (State.rd_of_regs (hyregs.trans hxregs) _)
  · rw [List.mem_singleton.mp hj, hxk]
    exact ⟨hinbox, hbad⟩
  · by_cases hj : j = k
    · rw [hj, hxk]
      exact hseqs
    · rw [hother j hj]

theorem Trained.fold (l : List (Fin 8)) (s : State) : Trained l s (l.foldl State.trainLane s) := by
  induction l generalizing s with
  | nil => exact ⟨rfl, .refl _ s, fun _ => rfl, fun _ h => absurd h List.not_mem_nil, fun _ => rfl, fun _ _ => rfl⟩
  | cons k l ih =>
    have hone := s.trainLane_keeps k
    have hrest := ih (s.trainLane k)
    rw [List.foldl_cons]
    generalize s.trainLane k = x at *
    generalize l.foldl State.trainLane x = u at *
    refine ⟨by rw [hrest.only, hone.only], hone.same.trans hrest.same, fun j => (hrest.states j).trans (hone.states j), fun j hj => ?_,
      fun j => (hrest.seqs j).trans (hone.seqs j), fun j hj => ?_⟩
    · by_cases hjl : j ∈ l
      · exact hrest.fresh j hjl
      · rw [hrest.others j hjl]
        rcases List.mem_cons.mp hj with rfl | h
        · exact hone.fresh j (List.mem_singleton.mpr rfl)
        · exact absurd h hjl
    · rw [List.mem_cons, not_or] at hj
      rw [hrest.others j hj.2, hone.others j fun h => hj.1 (List.mem_singleton.mp h)]

/-- What a training leaves (R344). -/
theorem State.train_keeps (s : State) (n : Fin 8) {u : State} (hu : s.train n = u) :
    (∀ k ∈ s.lanesIn n, u.laneState k = 1 ∧ u.links.lanes[k].inbox = [] ∧ u.links.lanes[k].bad = 0) ∧
    (∀ k, k ∉ s.lanesIn n → u.laneState k = s.laneState k) ∧ (∀ k : Fin 8, u.links.lanes[k].seqs = s.links.lanes[k].seqs) ∧
    (∀ k, k ∉ s.lanesIn n → u.links.lanes[k] = s.links.lanes[k]) ∧ u = { s with regs := u.regs, links := u.links } ∧
    RegsSame (laneOut ++ agreedOut) s u := by
  obtain ⟨y, hy, heq⟩ := s.train_eq n
  rw [heq] at hu
  have htrained := Trained.fold (s.lanesIn n) s
  rw [hy] at htrained
  have hbond : ∀ k, y.bond k = s.bond k := htrained.same.bond (by decide)
  have hnamed : y.linkLane n ∈ s.lanesIn n := by rw [State.linkLane_of_bond hbond]; exact s.linkLane_mem n
  obtain ⟨m, hm⟩ : ∃ m, y.linkLane n = m := ⟨_, rfl⟩
  rw [hm] at hu hnamed
  have hzlane : ∀ z : State, (y.modLane m fun k => { k with need := 1024, trainAt := y.master }) = z → z = { y with links := z.links } ∧
      z.regs = y.regs ∧ (∀ k : Fin 8, z.links.lanes[k].seqs = y.links.lanes[k].seqs ∧ z.links.lanes[k].inbox = y.links.lanes[k].inbox ∧
        z.links.lanes[k].bad = y.links.lanes[k].bad) ∧ ∀ k, k ≠ m → z.links.lanes[k] = y.links.lanes[k] := by
    rintro z rfl
    refine ⟨rfl, rfl, fun k => ?_, fun k hk => upd_other _ _ _ _ hk⟩
    by_cases hk : k = m
    · rw [hk, State.modLane]
      dsimp only
      rw [upd_same]
      exact ⟨rfl, rfl, rfl⟩
    · rw [show (y.modLane m fun k => { k with need := 1024, trainAt := y.master }).links.lanes[k] = y.links.lanes[k] from upd_other _ _ _ _ hk]
      exact ⟨rfl, rfl, rfl⟩
  generalize (y.modLane m fun k => { k with need := 1024, trainAt := y.master }) = z at *
  obtain ⟨hzonly, hzregs, hzviews, hzothers⟩ := hzlane z rfl
  have hzlanes : z.lanesIn n = s.lanesIn n := State.lanesIn_of_bond (fun k => by
    rw [← hbond k, State.bond, State.rd_of_regs hzregs, State.rd_of_regs hzregs, State.bond]) n
  obtain ⟨hup, hothers, hwonly, hwsame⟩ := z.setLanes_keeps n (show 1 < 8 by decide) rfl
  generalize z.setLanes n 1 = w at *
  obtain ⟨huonly, husame, hustates⟩ := w.noteAgreed_keeps hu
  have hulinks : u.links = z.links := by rw [huonly, hwonly]
  have hzstate : ∀ k : Fin 8, z.laneState k = s.laneState k := fun k => (State.rd_of_regs hzregs _).trans (htrained.states k)
  rw [hzlanes] at hup hothers
  refine ⟨fun k hk => ⟨(hustates k).trans (hup k hk), ?_, ?_⟩, fun k hk => (hustates k).trans ((hothers k hk).trans (hzstate k)), fun k => ?_,
    fun k hk => ?_, by rw [huonly, hwonly, hzonly, htrained.only], ?_⟩
  · rw [hulinks, (hzviews k).2.1, (htrained.fresh k hk).1]
  · rw [hulinks, (hzviews k).2.2, (htrained.fresh k hk).2]
  · rw [hulinks, (hzviews k).1, htrained.seqs k]
  · rw [hulinks, hzothers k fun h => hk (h ▸ hnamed), htrained.others k hk]
  · have hlanes := (htrained.same.andRegs hzregs).trans hwsame
    exact (hlanes.mono fun _ h => List.mem_append_left _ h).trans (husame.mono fun _ h => List.mem_append_right _ h)

/-! ## Retraining (R344) -/

theorem retrains_notMem_lanes : ∀ m : Fin 8, (F.MFL_RETRAINS_COUNT m).addr ∉ laneOut ++ agreedOut := by decide

theorem retrains_notMem_ev : ∀ m : Fin 8, (F.MFL_RETRAINS_COUNT m).addr ∉ evOut (Ev.mfl m) := by decide

theorem laneStat_notMem_ev : ∀ m k : Fin 8, (F.MFL_LANE_STAT_STATE k).addr ∉ evOut (Ev.mfl m) := by decide

theorem laneStat_notMem_retrains : ∀ m k : Fin 8, (F.MFL_LANE_STAT_STATE k).addr ∉ [(F.MFL_RETRAINS_COUNT m).addr] := by decide

theorem mfl_ev_notMem_occ : ∀ m : Fin 8, (Ev.mfl m).ev ∉ occOut := by decide

theorem linkRetrain_retrains {lane : Fin 8} {cause : Nat} {s : State} (hstate : s.laneState lane = 2 ∨ s.laneState lane = 3) (hentries : s.entriesOn lane = [])
    (hhold : s.on F.TIM_CTRL_AUTO_HOLD = false) : Answers (.linkRetrain lane cause) s fun u =>
      (∀ k ∈ s.lanesIn lane, u.laneState k = 1 ∧ u.links.lanes[k].inbox = [] ∧ u.links.lanes[k].bad = 0 ∧
        u.links.lanes[k].rxSeq = s.links.lanes[k].rxSeq ∧ u.links.lanes[k].credit = s.links.lanes[k].credit) ∧
      u.rd (F.MFL_RETRAINS_COUNT (s.linkLane lane)) = (s.rd (F.MFL_RETRAINS_COUNT (s.linkLane lane)) + 1) % 2 ^ 32 ∧
      bitOf (u.rd (Ev.mfl (s.linkLane lane)).bits) 3 = true ∧ (∀ k, k ∉ s.lanesIn lane → u.links.lanes[k] = s.links.lanes[k]) ∧
      u = { s with regs := u.regs, hq := u.hq, sched := u.sched, links := u.links } ∧
      Quiet (laneOut ++ agreedOut ++ [(F.MFL_RETRAINS_COUNT (s.linkLane lane)).addr] ++ evOut (Ev.mfl (s.linkLane lane))) s u := by
  have hexec : exec (.linkRetrain lane cause) s = .next (s.retrain lane) := rfl
  have hdown : (s.lanesIn lane).foldl State.laneDownHold s = s := foldl_still fun k _ => if_neg (by rw [hhold]; simp)
  rw [State.retrain, if_pos hstate, hentries] at hexec
  dsimp only [List.foldl_nil] at hexec
  rw [hdown] at hexec
  generalize s.linkLane lane = m at *
  obtain ⟨hin, -, hseqs, hothers, honly, hsame⟩ := s.train_keeps lane rfl
  generalize s.train lane = x at *
  have hcount : x.rd (F.MFL_RETRAINS_COUNT m) = s.rd (F.MFL_RETRAINS_COUNT m) := hsame.rd _ (retrains_notMem_lanes m)
  have hycount := State.rd_wr_same x (F.MFL_RETRAINS_COUNT m) (x.rd (F.MFL_RETRAINS_COUNT m) + 1) (show 0 + 32 ≤ 32 by decide)
  have hyonly : RegsOnly x (x.incWrap (F.MFL_RETRAINS_COUNT m)) := .wr ..
  have hysame : RegsSame [(F.MFL_RETRAINS_COUNT m).addr] x (x.incWrap (F.MFL_RETRAINS_COUNT m)) := .wr _ _ _ List.mem_cons_self
  rw [show x.wr (F.MFL_RETRAINS_COUNT m) (x.rd (F.MFL_RETRAINS_COUNT m) + 1) = x.incWrap (F.MFL_RETRAINS_COUNT m) from rfl] at hycount
  generalize x.incWrap (F.MFL_RETRAINS_COUNT m) = y at *
  have huonly := y.event_event (Ev.mfl m) 3
  have husame := y.event_regs (Ev.mfl m) 3
  have hbit := y.event_bit (Ev.mfl m) (i := 3) (mfl_ev_notMem_occ m) (by decide)
  generalize y.event (Ev.mfl m) 3 = u at *
  have hlinks : u.links = x.links := by rw [huonly, hyonly]
  have hu : u = { s with regs := u.regs, hq := u.hq, sched := u.sched, links := u.links } := by rw [huonly, hyonly, honly]
  have hstates : ∀ k : Fin 8, u.laneState k = x.laneState k := fun k => by
    rw [State.laneState, husame.rd _ (laneStat_notMem_ev m k), hysame.rd _ (laneStat_notMem_retrains m k), State.laneState]
  refine ⟨u, hexec, fun k hk => ?_, ?_, hbit, fun k hk => ?_, hu, ?_, by rw [hu]; exact .of_eq rfl rfl rfl rfl⟩
  · obtain ⟨hone, hinbox, hbad⟩ := hin k hk
    have hk := hseqs k
    simp only [Lane.seqs, Prod.mk.injEq] at hk
    exact ⟨(hstates k).trans hone, hlinks ▸ hinbox, hlinks ▸ hbad, hlinks ▸ hk.1, hlinks ▸ hk.2.2.1⟩
  · rw [husame.rd _ (retrains_notMem_ev m), hycount, hcount]
    rfl
  · rw [hlinks, hothers k hk]
  · refine ((hsame.mono fun _ h => ?_).trans (hysame.mono fun _ h => ?_)).trans (husame.mono fun _ h => List.mem_append_right _ h)
    · exact List.mem_append_left _ (List.mem_append_left _ h)
    · exact List.mem_append_left _ (List.mem_append_right _ h)

theorem linkRetrain_still {lane : Fin 8} {cause : Nat} {s : State} (h2 : s.laneState lane ≠ 2) (h3 : s.laneState lane ≠ 3) :
    NoEffect (.linkRetrain lane cause) s := congrArg Host.Outcome.next (if_neg (not_or.mpr ⟨h2, h3⟩))

/-! ## Bring-up -/

theorem mfl_bits_notMem_agreed (m : Fin 8) : (Ev.mfl m).bits.addr ∉ agreedOut := by
  revert m
  decide

/-- The lanes of a link that comes up: their state, and when the link was used last. -/
theorem State.lanesUp_keeps (s : State) (n : Fin 8) {u : State} (hu : s.lanesUp n = u) :
    (∀ k ∈ s.lanesIn n, u.laneState k = 2) ∧ (∀ k, k ∉ s.lanesIn n → u.laneState k = s.laneState k) ∧
    u.links.lanes[s.linkLane n] = { s.links.lanes[s.linkLane n] with usedAt := s.master } ∧
    (∀ k, k ≠ s.linkLane n → u.links.lanes[k] = s.links.lanes[k]) ∧
    u = { s with regs := u.regs, links := { s.links with lanes := u.links.lanes } } ∧ RegsSame laneOut s u := by
  obtain ⟨hup, hothers, honly, hsame⟩ := s.setLanes_keeps n (show 2 < 8 by decide) rfl
  rw [State.lanesUp] at hu
  generalize s.setLanes n 2 = x at *
  have hlinks : x.links = s.links := by rw [honly]
  have huregs : u.regs = x.regs := hu ▸ rfl
  have hulinks : u = { x with links := { x.links with lanes := u.links.lanes } } := hu ▸ rfl
  have hulane : u.links.lanes[s.linkLane n] = { x.links.lanes[s.linkLane n] with usedAt := s.master } := hu ▸ upd_same ..
  have huother : ∀ k, k ≠ s.linkLane n → u.links.lanes[k] = x.links.lanes[k] := fun k hk => hu ▸ upd_other _ _ _ _ hk
  rw [hlinks] at hulinks huother
  refine ⟨fun k hk => (State.rd_of_regs huregs _).trans (hup k hk), fun k hk => (State.rd_of_regs huregs _).trans (hothers k hk), ?_, huother, ?_,
    hsame.andRegs huregs⟩
  · rw [hulane, hlinks]
  · rw [hulinks, honly]

theorem linkUp_up {lane : Fin 8} {s : State} (hstate : s.laneState lane = 1)
    (hwidth : ∀ k ∈ s.lanesIn lane, s.links.lanes[k].farWidth = some (s.bond lane)) (hneed : s.links.lanes[s.linkLane lane].need = 0) :
    Answers (.linkUp lane) s fun u =>
      (∀ k ∈ s.lanesIn lane, u.laneState k = 2) ∧ (∀ k, k ∉ s.lanesIn lane → u.laneState k = s.laneState k) ∧
      bitOf (u.rd (Ev.mfl (s.linkLane lane)).bits) 0 = true ∧
      u.links.lanes[s.linkLane lane] = { s.links.lanes[s.linkLane lane] with usedAt := s.master } ∧
      (∀ k, k ≠ s.linkLane lane → u.links.lanes[k] = s.links.lanes[k]) ∧
      u = { s with regs := u.regs, hq := u.hq, sched := u.sched, links := { s.links with lanes := u.links.lanes } } ∧
      Quiet (laneOut ++ agreedOut ++ evOut (Ev.mfl (s.linkLane lane))) s u := by
  have hexec : exec (.linkUp lane) s = execLinkUp lane s := rfl
  have hall : ((s.lanesIn lane).all fun k => s.links.lanes[k].farWidth == some (s.bond lane)) = true :=
    List.all_eq_true.mpr fun k hk => beq_iff_eq.mpr (hwidth k hk)
  rw [execLinkUp] at hexec
  rw [if_pos ⟨hstate, hall, hneed⟩] at hexec
  obtain ⟨hup, hothers, hthis, hrest, hxonly, hxsame⟩ := s.lanesUp_keeps lane rfl
  generalize s.lanesUp lane = x at *
  have hyonly := x.event_event (Ev.mfl (s.linkLane lane)) 0
  have hysame := x.event_regs (Ev.mfl (s.linkLane lane)) 0
  have hybit := x.event_bit (Ev.mfl (s.linkLane lane)) (i := 0) (mfl_ev_notMem_occ _) (by decide)
  have hystates : ∀ k : Fin 8, (x.event (Ev.mfl (s.linkLane lane)) 0).laneState k = x.laneState k := fun k =>
    hysame.rd _ (laneStat_notMem_ev _ k)
  generalize x.event (Ev.mfl (s.linkLane lane)) 0 = y at *
  obtain ⟨huonly, husame, hustates⟩ := y.noteAgreed_keeps rfl
  generalize y.noteAgreed = u at *
  have hlinks : u.links = x.links := by rw [huonly, hyonly]
  have hu : u = { s with regs := u.regs, hq := u.hq, sched := u.sched, links := { s.links with lanes := u.links.lanes } } := by
    have hxlinks : x.links = { s.links with lanes := x.links.lanes } := by rw [hxonly]
    rw [huonly, hyonly, hxonly]
  refine ⟨u, hexec, fun k hk => ?_, fun k hk => ?_, ?_, ?_, fun k hk => ?_, hu, ?_, by rw [hu]; exact .of_eq rfl rfl rfl rfl⟩
  · rw [hustates, hystates, hup k hk]
  · rw [hustates, hystates, hothers k hk]
  · rw [husame.rd _ (mfl_bits_notMem_agreed _), hybit]
  · rw [hlinks, hthis]
  · rw [hlinks, hrest k hk]
  · refine ((hxsame.mono fun _ h => ?_).trans (hysame.mono fun _ h => List.mem_append_right _ h)).trans (husame.mono fun _ h => ?_)
    · exact List.mem_append_left _ (List.mem_append_left _ h)
    · exact List.mem_append_left _ (List.mem_append_right _ h)

theorem linkUp_waits_width {lane k : Fin 8} {s : State} (hk : k ∈ s.lanesIn lane) (hwidth : s.links.lanes[k].farWidth ≠ some (s.bond lane)) :
    NoEffect (.linkUp lane) s := by
  refine if_neg fun h => hwidth ?_
  exact beq_iff_eq.mp (List.all_eq_true.mp h.2.1 k hk)

theorem linkUp_waits_need {lane : Fin 8} {s : State} (hneed : s.links.lanes[s.linkLane lane].need ≠ 0) : NoEffect (.linkUp lane) s :=
  if_neg fun h => hneed h.2.2

/-! ## Failure -/

theorem mfl_fault_apart : ∀ m k : Fin 8, (F.FLT_CLASS_CLASS (19 / 4)).addr ∉ evOut (Ev.mfl m) ∧ (Ev.mfl m).bits.addr ∉ faultOut 19 ∧
    (F.MFL_LANE_STAT_STATE k).addr ∉ evOut (Ev.mfl m) ++ faultOut 19 := by decide

theorem linkFailed_fails {lane : Fin 8} {s : State} (hstate : s.laneState lane = 1) (hticks : 960000 ≤ s.trainTicks lane) (hcls : s.classOf 19 < 2) :
    Answers (.linkFailed lane) s fun u =>
      (∀ k ∈ s.lanesIn lane, u.laneState k = 4) ∧ (∀ k, k ∉ s.lanesIn lane → u.laneState k = s.laneState k) ∧
      bitOf (u.rd (Ev.mfl (s.linkLane lane)).bits) 1 = true ∧ u.latched 19 = true ∧
      u.links.lanes[s.linkLane lane].trainAt = s.master ∧
      u = { s with regs := u.regs, hq := u.hq, sched := u.sched, flt := u.flt, links := { s.links with lanes := u.links.lanes } } ∧
      Quiet (laneOut ++ agreedOut ++ evOut (Ev.mfl (s.linkLane lane)) ++ faultOut 19) s u := by
  have hexec : exec (.linkFailed lane) s = execLinkFailed lane s := rfl
  rw [execLinkFailed, if_pos ⟨hstate, hticks⟩] at hexec
  dsimp only at hexec
  obtain ⟨hup, hothers, hxonly, hxsame⟩ := s.setLanes_keeps lane (show 4 < 8 by decide) rfl
  generalize s.setLanes lane 4 = x at *
  have hy : ∀ y : State, (x.modLane (s.linkLane lane) fun k => { k with trainAt := s.master }) = y → y.regs = x.regs ∧
      y = { x with links := { x.links with lanes := y.links.lanes } } ∧ y.links.lanes[s.linkLane lane].trainAt = s.master := by
    rintro y rfl
    refine ⟨rfl, rfl, ?_⟩
    rw [State.modLane]
    dsimp only
    rw [upd_same]
  generalize (x.modLane (s.linkLane lane) fun k => { k with trainAt := s.master }) = y at *
  obtain ⟨hyregs, hyonly, htrain⟩ := hy y rfl
  have hysame := hxsame.andRegs hyregs
  rw [State.linkLane_of_bond (hysame.bond (by decide))] at hexec
  have hycls : y.classOf 19 < 2 := by rw [hysame.classOf (by decide)]; exact hcls
  obtain ⟨hcl, hbits, -⟩ := mfl_fault_apart (s.linkLane lane) 0
  obtain ⟨hzonly, hlatched, hbit, hzsame⟩ := State.event_faultOnce (r := Ev.mfl (s.linkLane lane)) (bit := 1) (i := 19) (g := none) (by decide) hycls hcl
    (mfl_ev_notMem_occ _) hbits (by decide) rfl
  generalize (y.event (Ev.mfl (s.linkLane lane)) 1).faultOnce 19 none = z at *
  obtain ⟨huonly, husame, hustates⟩ := z.noteAgreed_keeps rfl
  generalize z.noteAgreed = u at *
  have hstates : ∀ k : Fin 8, u.laneState k = x.laneState k := fun k => by
    rw [hustates, State.laneState, hzsame.rd _ (mfl_fault_apart _ k).2.2]
    exact State.rd_of_regs hyregs _
  have hlinks : u.links = y.links := by rw [huonly, hzonly]
  have hu : u = { s with regs := u.regs, hq := u.hq, sched := u.sched, flt := u.flt, links := { s.links with lanes := u.links.lanes } } := by
    have hxlinks : x.links = s.links := by rw [hxonly]
    rw [huonly, hzonly, hyonly, hxlinks, hxonly]
  refine ⟨u, hexec, fun k hk => (hstates k).trans (hup k hk), fun k hk => (hstates k).trans (hothers k hk), ?_, ?_, ?_, hu, ?_, by rw [hu]; exact .of_eq rfl rfl rfl rfl⟩
  · rw [husame.rd _ (mfl_bits_notMem_agreed _), hbit]
  · rw [State.latched, husame.rd _ (by decide)]
    exact hlatched
  · rw [hlinks, htrain]
  · refine ((hysame.mono fun _ h => ?_).trans (hzsame.mono fun _ h => ?_)).trans (husame.mono fun _ h => ?_)
    · exact List.mem_append_left _ (List.mem_append_left _ (List.mem_append_left _ h))
    · rw [List.append_assoc]
      exact List.mem_append_right _ h
    · exact List.mem_append_left _ (List.mem_append_left _ (List.mem_append_right _ h))

theorem linkFailed_still {lane : Fin 8} {s : State} (h : s.laneState lane ≠ 1 ∨ s.trainTicks lane < 960000) : NoEffect (.linkFailed lane) s := by
  refine if_neg fun k => ?_
  rcases h with h | h
  · exact h k.1
  · exact absurd k.2 (Nat.not_le.mpr h)

/-- What the bring-up of a link leaves. -/
theorem State.bringUp_keeps (s : State) (n : Fin 8) {u : State} (hu : s.bringUp n = u) :
    (∀ k ∈ s.lanesIn n, u.laneState k = 1) ∧ (∀ k, k ∉ s.lanesIn n → u.laneState k = s.laneState k) ∧
    u.links.lanes[s.linkLane n].seqs = (0, 0, 32 * s.linkWidth n, []) ∧ (∀ k, k ∉ s.lanesIn n → u.links.lanes[k] = s.links.lanes[k]) ∧
    u = { s with regs := u.regs, links := u.links } ∧ RegsSame (laneOut ++ agreedOut) s u := by
  rw [State.bringUp] at hu
  rw [State.fifoFrames] at hu
  generalize 32 * s.linkWidth n = room at *
  have hx : ∀ x : State, (s.modLane (s.linkLane n) fun k => { k with credit := room, freed := 0, txSeq := 0, rxSeq := 0, replay := [], resend := [], nak := none, gap := false, rxq := [] }) = x →
      x.regs = s.regs ∧ x = { s with links := x.links } ∧ x.links.lanes[s.linkLane n].seqs = (0, 0, room, []) ∧
      ∀ k, k ≠ s.linkLane n → x.links.lanes[k] = s.links.lanes[k] := by
    rintro x rfl
    refine ⟨rfl, rfl, ?_, fun k hk => upd_other _ _ _ _ hk⟩
    rw [State.modLane]
    dsimp only
    rw [upd_same]
    rfl
  generalize (s.modLane (s.linkLane n) fun k => { k with credit := room, freed := 0, txSeq := 0, rxSeq := 0, replay := [], resend := [], nak := none, gap := false, rxq := [] }) = x at *
  obtain ⟨hxregs, hxonly, hxseqs, hxothers⟩ := hx x rfl
  have hlanes : x.lanesIn n = s.lanesIn n := State.lanesIn_of_bond (((RegsSame.refl [] s).andRegs hxregs).bond List.not_mem_nil) n
  obtain ⟨hin, hout, hseqs, hothers, honly, hsame⟩ := x.train_keeps n hu
  rw [hlanes] at hin hout hothers
  refine ⟨fun k hk => (hin k hk).1, fun k hk => (hout k hk).trans (State.rd_of_regs hxregs _), (hseqs _).trans hxseqs, fun k hk => ?_, by rw [honly, hxonly],
    (RegsSame.of_regs _ hxregs).trans hsame⟩
  rw [hothers k hk, hxothers k fun h => hk (h ▸ s.linkLane_mem n)]

theorem linkBringupRetry_trains {lane : Fin 8} {s : State} (hstate : s.laneState lane = 4) (hticks : 32000000 ≤ s.trainTicks lane) :
    Answers (.linkBringupRetry lane) s fun u =>
      (∀ k ∈ s.lanesIn lane, u.laneState k = 1) ∧ u.links.lanes[s.linkLane lane].rxSeq = 0 ∧ u.links.lanes[s.linkLane lane].txSeq = 0 ∧
      u.links.lanes[s.linkLane lane].credit = 32 * s.linkWidth lane ∧ u.links.lanes[s.linkLane lane].replay = [] ∧
      (∀ k, k ∉ s.lanesIn lane → u.links.lanes[k] = s.links.lanes[k]) ∧ u = { s with regs := u.regs, links := u.links } ∧
      Quiet (laneOut ++ agreedOut) s u := by
  have hexec : exec (.linkBringupRetry lane) s = execLinkBringupRetry lane s := rfl
  rw [execLinkBringupRetry, if_pos ⟨hstate, hticks⟩] at hexec
  obtain ⟨hin, -, hseqs, hothers, honly, hsame⟩ := s.bringUp_keeps lane rfl
  generalize s.bringUp lane = u at *
  simp only [Lane.seqs, Prod.mk.injEq] at hseqs
  obtain ⟨hrx, htx, hcredit, hreplay⟩ := hseqs
  exact ⟨u, hexec, hin, hrx, htx, hcredit, hreplay, hothers, honly, hsame, by rw [honly]; exact .of_eq rfl rfl rfl rfl⟩

theorem linkBringupRetry_still {lane : Fin 8} {s : State} (h : s.laneState lane ≠ 4 ∨ s.trainTicks lane < 32000000) : NoEffect (.linkBringupRetry lane) s := by
  refine if_neg fun k => ?_
  rcases h with h | h
  · exact h k.1
  · exact absurd k.2 (Nat.not_le.mpr h)

/-! ## Idling and waking -/

theorem linkIdleEntry_idles {lane : Fin 8} {s : State} (hstate : s.laneState lane = 2) (hen : s.on F.MFL_CFG_IDLE_EN = true)
    (htxq : s.links.lanes[s.linkLane lane].txq = []) (hresend : s.links.lanes[s.linkLane lane].resend = []) (hbusy : s.linkBusy lane = false)
    (hdue : s.links.lanes[s.linkLane lane].usedAt + 3200 * max 1 (s.rd F.MFL_IDLE_US_US) ≤ s.master) : Answers (.linkIdleEntry lane) s fun u =>
      (∀ k ∈ s.lanesIn lane, u.laneState k = 3) ∧ (∀ k, k ∉ s.lanesIn lane → u.laneState k = s.laneState k) ∧ RegsOnly s u ∧
      Quiet laneOut s u := by
  have huse : s.inUse lane = false := by
    rw [State.inUse, htxq, hresend, hbusy]
    rfl
  have hexec : exec (.linkIdleEntry lane) s = execLinkIdleEntry lane s := rfl
  rw [execLinkIdleEntry, if_pos ⟨hstate, hen, huse, hdue⟩] at hexec
  obtain ⟨hin, hout, honly, hsame⟩ := s.setLanes_keeps lane (show 3 < 8 by decide) rfl
  exact ⟨_, hexec, hin, hout, honly, hsame, honly.event.bytes⟩

theorem linkIdleEntry_still {lane : Fin 8} {s : State} (h : s.on F.MFL_CFG_IDLE_EN = false ∨ s.linkBusy lane = true ∨
    s.master < s.links.lanes[s.linkLane lane].usedAt + 3200 * max 1 (s.rd F.MFL_IDLE_US_US)) : NoEffect (.linkIdleEntry lane) s := by
  refine if_neg ?_
  rintro ⟨-, hen, huse, hdue⟩
  rcases h with h | h | h
  · exact absurd (hen.symm.trans h) (by decide)
  · rw [State.inUse, h, Bool.or_true] at huse
    exact absurd huse (by decide)
  · exact absurd hdue (Nat.not_le.mpr h)

theorem linkIdleExit_wakes {lane : Fin 8} {s : State} (hstate : s.laneState lane = 3)
    (htraffic : s.links.lanes[s.linkLane lane].txq ≠ [] ∨ s.linkBusy lane = true) : Answers (.linkIdleExit lane) s fun u =>
      (∀ k ∈ s.lanesIn lane, u.laneState k = 2) ∧ u.links.lanes[s.linkLane lane].need = 1024 ∧
      u = { s with regs := u.regs, links := { s.links with lanes := u.links.lanes } } ∧ Quiet laneOut s u := by
  have hexec : exec (.linkIdleExit lane) s = execLinkIdleExit lane s := rfl
  rw [execLinkIdleExit] at hexec
  have hwakes : s.links.lanes[s.linkLane lane].txq.isEmpty = false ∨ s.linkBusy lane = true := by
    rcases htraffic with h | h
    · exact .inl (by simpa using h)
    · exact .inr h
  rw [if_pos ⟨hstate, hwakes.elim .inl fun h => .inr (.inl h)⟩] at hexec
  obtain ⟨hin, -, -, -, honly, hsame⟩ := s.lanesUp_keeps lane rfl
  generalize s.lanesUp lane = x at *
  have hu : ∀ u : State, (x.modLane (s.linkLane lane) fun k => { k with need := 1024 }) = u → u.regs = x.regs ∧
      u = { x with links := { x.links with lanes := u.links.lanes } } ∧ u.links.lanes[s.linkLane lane].need = 1024 := by
    rintro u rfl
    refine ⟨rfl, rfl, ?_⟩
    rw [State.modLane]
    dsimp only
    rw [upd_same]
  generalize (x.modLane (s.linkLane lane) fun k => { k with need := 1024 }) = u at *
  obtain ⟨hregs, huonly, hneed⟩ := hu u rfl
  have hall : u = { s with regs := u.regs, links := { s.links with lanes := u.links.lanes } } := by rw [huonly, honly]
  exact ⟨u, hexec, fun k hk => (State.rd_of_regs hregs _).trans (hin k hk), hneed, hall, hsame.andRegs hregs, by rw [hall]; exact .of_eq rfl rfl rfl rfl⟩

theorem linkIdleExit_still {lane : Fin 8} {s : State} (htxq : s.links.lanes[s.linkLane lane].txq = []) (hbusy : s.linkBusy lane = false)
    (hout : ∀ k ∈ s.lanesIn lane, ∀ t ∈ s.links.lanes[k].out, t % 16 ≠ 8) : NoEffect (.linkIdleExit lane) s := by
  refine if_neg ?_
  rintro ⟨-, h | h | h⟩
  · rw [htxq] at h
    exact absurd h (by decide)
  · exact absurd (h.symm.trans hbusy) (by decide)
  · obtain ⟨k, hk, h⟩ := List.any_eq_true.mp h
    obtain ⟨t, ht, h⟩ := List.any_eq_true.mp h
    exact hout k hk t ht (beq_iff_eq.mp h)

/-! ## Equalisation and figure of merit (R341) -/

theorem zipIdx_map_range {α : Type} (f : Nat → α) (n : Nat) : ((List.range n).map f).zipIdx = (List.range n).map fun i => (f i, i) := by
  refine List.ext_getElem (by simp) fun i h₁ h₂ => ?_
  simp

theorem foldl_wr_eq {α : Type} (l : List α) (f : α → Fld) (v : α → Nat) (s : State) :
    l.foldl (fun (s : State) a => s.wr (f a) (v a)) s = s.wrs (l.map fun a => (f a, v a)) := by
  rw [State.wrs, List.foldl_map]

/-- The step that one tap of a lane's equaliser takes. -/
def State.tapNext (s : State) (n : Fin 8) (fom : Nat) (ups : List Int) (i : Nat) : Int × Int × Nat :=
  tapStep (decide (fom < s.links.lanes[n].fomWas)) (s.rdS (F.MFL_DFE_TAP n i)) (s.links.lanes[n].tapWas.getD i (s.rdS (F.MFL_DFE_TAP n i)))
    (s.links.lanes[n].slow.getD i 0) (ups.getD i 0)

/-- The registers of a lane's taps. -/
def tapOut (n : Fin 8) : List Nat := (List.range 12).map fun k => (F.MFL_DFE_TAP n k).addr

theorem State.adapt_keeps (s : State) (n : Fin 8) (fom : Nat) (ups : List Int) {u : State} (hu : s.adapt n fom ups = u) :
    (∀ k : Fin 12, u.rd (F.MFL_DFE_TAP n k) = zx 8 (s.tapNext n fom ups k).2.1) ∧
    u.links.lanes[n] = { s.links.lanes[n] with fomWas := fom, tapWas := u.links.lanes[n].tapWas, slow := u.links.lanes[n].slow } ∧
    u = { s with regs := u.regs, links := { s.links with lanes := u.links.lanes } } ∧ RegsSame (tapOut n) s u := by
  have hadapt : s.adapt n fom ups = (s.modLane n fun k => { k with
      fomWas := fom, tapWas := ((List.range 12).map (s.tapNext n fom ups)).map (·.1), slow := ((List.range 12).map (s.tapNext n fom ups)).map (·.2.2) }).wrs
      ((List.range 12).map fun i => (F.MFL_DFE_TAP n i, zx 8 (s.tapNext n fom ups i).2.1)) := by
    have htaps : ((List.range 12).map (s.tapNext n fom ups)).zipIdx.map (fun x => (F.MFL_DFE_TAP n x.2, zx 8 x.1.2.1)) =
        (List.range 12).map fun i => (F.MFL_DFE_TAP n i, zx 8 (s.tapNext n fom ups i).2.1) := by
      rw [zipIdx_map_range, List.map_map]
      rfl
    rw [← htaps, ← foldl_wr_eq]
    rfl
  rw [hadapt] at hu
  generalize (((List.range 12).map (s.tapNext n fom ups)).map (·.1)) = was at hu
  generalize (((List.range 12).map (s.tapNext n fom ups)).map (·.2.2)) = slow at hu
  generalize s.tapNext n fom ups = tap at *
  have hx : ∀ x : State, (s.modLane n fun k => { k with fomWas := fom, tapWas := was, slow := slow }) = x → x.regs = s.regs ∧
      x = { s with links := { s.links with lanes := x.links.lanes } } ∧
      x.links.lanes[n] = { s.links.lanes[n] with fomWas := fom, tapWas := was, slow := slow } := by
    rintro x rfl
    exact ⟨rfl, rfl, upd_same ..⟩
  generalize (s.modLane n fun k => { k with fomWas := fom, tapWas := was, slow := slow }) = x at *
  obtain ⟨hxregs, hxonly, hxlane⟩ := hx x rfl
  have hapart : ((List.range 12).map fun i => (F.MFL_DFE_TAP n i, zx 8 (tap i).2.1)).Pairwise fun p q => p.1.apart q.1 ∧ q.1.apart p.1 := by
    rw [List.pairwise_map]
    refine List.pairwise_lt_range.imp fun {i j} hij => ⟨.inl ?_, .inl ?_⟩ <;> simp only [F.MFL_DFE_TAP] <;> omega
  have hfit : ∀ p ∈ (List.range 12).map fun i => (F.MFL_DFE_TAP n i, zx 8 (tap i).2.1), p.1.lsb + p.1.width ≤ 32 := by
    intro p hp
    obtain ⟨i, -, rfl⟩ := List.mem_map.mp hp
    simp [F.MFL_DFE_TAP]
  have huonly : RegsOnly x u := hu ▸ .wrs ..
  have hulanes : u.links = x.links := by rw [huonly]
  refine ⟨fun k => ?_, ?_, ?_, ?_⟩
  · rw [← hu, State.rd_wrs_mem hapart hfit x (List.mem_map.mpr ⟨k.1, List.mem_range.mpr k.2, rfl⟩)]
    exact Nat.mod_eq_of_lt (zx_lt _ _)
  · rw [hulanes, hxlane]
  · rw [huonly, hxonly]
  · refine (RegsSame.of_regs _ hxregs).trans (hu ▸ .wrs _ _ fun p hp => ?_)
    obtain ⟨i, hi, rfl⟩ := List.mem_map.mp hp
    exact List.mem_map.mpr ⟨i, hi, rfl⟩

/-- A retraining, whatever it loses: its lane trains, and the link's event is set. -/
theorem State.retrain_trains (s : State) (n : Fin 8) (hstate : s.laneState n = 2 ∨ s.laneState n = 3) {u : State} (hu : s.retrain n = u) :
    u.laneState n = 1 ∧ bitOf (u.rd (Ev.mfl (s.linkLane n)).bits) 3 = true := by
  rw [State.retrain, if_pos hstate] at hu
  dsimp only at hu
  generalize s.linkLane n = m at *
  generalize ((s.entriesOn n).foldl (fun s l => s.tokenLoss m l) s) = x at *
  generalize (x.lanesIn n).foldl State.laneDownHold x = y at *
  obtain ⟨hin, -⟩ := y.train_keeps n rfl
  have htrain := (hin n (y.self_mem_lanesIn n)).1
  generalize y.train n = z at *
  have hwsame : RegsSame [(F.MFL_RETRAINS_COUNT m).addr] z (z.incWrap (F.MFL_RETRAINS_COUNT m)) := .wr _ _ _ List.mem_cons_self
  generalize z.incWrap (F.MFL_RETRAINS_COUNT m) = w at *
  subst hu
  refine ⟨?_, w.event_bit (Ev.mfl m) (mfl_ev_notMem_occ m) (by decide)⟩
  rw [State.laneState, (w.event_regs (Ev.mfl m) 3).rd _ (laneStat_notMem_ev m n), hwsame.rd _ (laneStat_notMem_retrains m n)]
  exact htrain

theorem tap_apart : ∀ n k : Fin 8, (F.MFL_LANE_STAT_STATE k).addr ∉ tapOut n ∧ (Ev.mfl n).bits.addr ∉ tapOut n ∧ (F.MFL_CFG_BOND_A).addr ∉ tapOut n ∧
    (F.MFL_FOM_CFG_WARN).addr ∉ tapOut n ∧ (F.MFL_CFG_BOND_A).addr ∉ evOut (Ev.mfl n) ∧ (F.MFL_FOM_CFG_WARN).addr ∉ evOut (Ev.mfl n) := by decide

theorem fomStat_apart : ∀ n : Fin 8, (F.MFL_CFG_BOND_A).addr ≠ (F.MFL_LANE_STAT_FOM n).addr ∧ (F.MFL_FOM_CFG_WARN).addr ≠ (F.MFL_LANE_STAT_FOM n).addr ∧
    ∀ k : Fin 12, (F.MFL_DFE_TAP n k).addr ≠ (F.MFL_LANE_STAT_FOM n).addr := by decide

/-- What a window's figure of merit leaves before its event and its count of low windows. -/
theorem State.fom_shown (s : State) (lane : Fin 8) {fom : Nat} (hfom : fom < 256) (ups : List Int) {y : State}
    (hy : (s.wr (F.MFL_LANE_STAT_FOM lane) fom).adapt lane fom ups = y) :
    y.rd (F.MFL_LANE_STAT_FOM lane) = fom ∧ (∀ k : Fin 12, y.rd (F.MFL_DFE_TAP lane k) = zx 8 (s.tapNext lane fom ups k).2.1) ∧
    y.links.lanes[lane] = { s.links.lanes[lane] with fomWas := fom, tapWas := y.links.lanes[lane].tapWas, slow := y.links.lanes[lane].slow } ∧
    (∀ k : Fin 8, y.laneState k = s.laneState k) ∧ y = { s with regs := y.regs, links := { s.links with lanes := y.links.lanes } } ∧
    RegsSame ((F.MFL_LANE_STAT_FOM lane).addr :: tapOut lane) s y := by
  have hxonly : RegsOnly s (s.wr (F.MFL_LANE_STAT_FOM lane) fom) := .wr ..
  have hxsame : RegsSame [(F.MFL_LANE_STAT_FOM lane).addr] s (s.wr (F.MFL_LANE_STAT_FOM lane) fom) := .wr _ _ _ List.mem_cons_self
  have hxfom := State.rd_wr_same s (F.MFL_LANE_STAT_FOM lane) fom (show 16 + 8 ≤ 32 by decide)
  have hxstates : ∀ k : Fin 8, (s.wr (F.MFL_LANE_STAT_FOM lane) fom).laneState k = s.laneState k := fun k =>
    State.rd_wr_apart _ _ _ _ (show 16 + 8 ≤ 32 by decide) (by simp [Fld.apart, F.MFL_LANE_STAT_FOM, F.MFL_LANE_STAT_STATE])
  generalize s.wr (F.MFL_LANE_STAT_FOM lane) fom = x at *
  have hxlinks : x.links = s.links := by rw [hxonly]
  have htap : ∀ k : Fin 12, x.tapNext lane fom ups k = s.tapNext lane fom ups k := fun k => by
    have hrd : x.rdS (F.MFL_DFE_TAP lane k) = s.rdS (F.MFL_DFE_TAP lane k) := by
      rw [State.rdS, hxsame.rd _ (fun h => (fomStat_apart lane).2.2 k (List.mem_singleton.mp h)), State.rdS]
    rw [State.tapNext, hrd, hxlinks, State.tapNext]
  obtain ⟨htaps, hlane, hyonly, hysame⟩ := x.adapt_keeps lane fom ups hy
  refine ⟨?_, fun k => (htaps k).trans (by rw [htap k]), by rw [hlane, hxlinks], fun k => ?_, by rw [hyonly, hxlinks, hxonly], ?_⟩
  · rw [hysame.rd (F.MFL_LANE_STAT_FOM lane) (tap_apart lane lane).1, hxfom]
    exact Nat.mod_eq_of_lt hfom
  · rw [State.laneState, hysame.rd _ (tap_apart lane k).1]
    exact hxstates k
  · exact (hxsame.mono fun _ h => List.mem_cons.mpr (.inl (List.mem_singleton.mp h))).trans (hysame.mono fun _ h => List.mem_cons_of_mem _ h)

/-- What a window leaves when it is not low: the state `y` with the count of low windows begun anew. -/
theorem exec_fomWindow_high {lane : Fin 8} {fom : Nat} {ups : List Int} {s y : State} (hstate : s.laneState lane = 1 ∨ s.laneState lane = 2) (hfom : fom < 256)
    (hy : (s.wr (F.MFL_LANE_STAT_FOM lane) fom).adapt lane fom ups = y) (hwarn : y.rd F.MFL_FOM_CFG_WARN ≤ fom) :
    exec (.fomWindow lane fom ups) s = .next (y.modLane lane fun k => { k with lowWins := 0 }) := by
  show execFomWindow lane fom ups s = _
  rw [execFomWindow, if_neg (by omega)]
  dsimp only
  rw [Nat.min_eq_left (by omega : fom ≤ 255), hy, if_neg (Nat.not_lt.mpr hwarn), decide_eq_false (by omega)]
  simp only [Bool.false_eq_true, if_false]
  rw [if_neg]
  rw [show (y.modLane lane fun k => { k with lowWins := 0 }).links.lanes[lane] = { y.links.lanes[lane] with lowWins := 0 } from upd_same ..]
  exact (by decide : ¬4 ≤ 0)

/-- A window below WARN: the event, the count of low windows, and the retraining from four of them on. -/
theorem exec_fomWindow_low {lane : Fin 8} {fom : Nat} {ups : List Int} {s y z : State} (hstate : s.laneState lane = 1 ∨ s.laneState lane = 2) (hfom : fom < 256)
    (hy : (s.wr (F.MFL_LANE_STAT_FOM lane) fom).adapt lane fom ups = y) (hwarn : fom < y.rd F.MFL_FOM_CFG_WARN) (hz : y.event (Ev.mfl lane) 2 = z) :
    ∃ w : State, w.regs = z.regs ∧ w.links.lanes[lane].lowWins =
        (if fom < min (y.rd F.MFL_FOM_CFG_WARN) (z.rd F.MFL_FOM_CFG_RETRAIN) then z.links.lanes[lane].lowWins + 1 else 0) ∧
      exec (.fomWindow lane fom ups) s = .next (if 4 ≤ w.links.lanes[lane].lowWins then w.retrain lane else w) := by
  refine ⟨z.modLane lane fun k => { k with lowWins := if decide (fom < min (y.rd F.MFL_FOM_CFG_WARN) (z.rd F.MFL_FOM_CFG_RETRAIN)) = true then k.lowWins + 1 else 0 },
    rfl, ?_, ?_⟩
  · rw [State.modLane]
    dsimp only
    rw [upd_same]
    simp only [decide_eq_true_eq]
  · show execFomWindow lane fom ups s = _
    rw [execFomWindow, if_neg (by omega)]
    dsimp only
    rw [Nat.min_eq_left (by omega : fom ≤ 255), hy, if_pos hwarn, hz]

theorem fomCfg_apart : ∀ n : Fin 8, (F.MFL_FOM_CFG_WARN).addr ∉ (F.MFL_LANE_STAT_FOM n).addr :: tapOut n := by decide

theorem bond_apart : ∀ n : Fin 8, (F.MFL_CFG_BOND_A).addr ∉ (F.MFL_LANE_STAT_FOM n).addr :: tapOut n := by decide

theorem fomStat_notMem_ev : ∀ n : Fin 8, (F.MFL_LANE_STAT_FOM n).addr ∉ evOut (Ev.mfl n) := by decide

theorem fomWindow_good {lane : Fin 8} {fom : Nat} {ups : List Int} {s : State} (hstate : s.laneState lane = 1 ∨ s.laneState lane = 2)
    (hwarn : s.rd F.MFL_FOM_CFG_WARN ≤ fom) (hfom : fom < 256) : Answers (.fomWindow lane fom ups) s fun u =>
      u.rd (F.MFL_LANE_STAT_FOM lane) = fom ∧ (∀ k : Fin 12, u.rd (F.MFL_DFE_TAP lane k) = zx 8 (tapStep (decide (fom < s.links.lanes[lane].fomWas))
        (s.rdS (F.MFL_DFE_TAP lane k)) (s.links.lanes[lane].tapWas.getD k (s.rdS (F.MFL_DFE_TAP lane k))) (s.links.lanes[lane].slow.getD k 0)
        (ups.getD k 0)).2.1) ∧
      u.links.lanes[lane] = { s.links.lanes[lane] with
        lowWins := 0, fomWas := fom, tapWas := u.links.lanes[lane].tapWas, slow := u.links.lanes[lane].slow } ∧ u.laneState lane = s.laneState lane ∧
      u = { s with regs := u.regs, links := { s.links with lanes := u.links.lanes } } ∧
      Quiet ((F.MFL_LANE_STAT_FOM lane).addr :: (List.range 12).map fun k => (F.MFL_DFE_TAP lane k).addr) s u := by
  obtain ⟨hshown, htaps, hlane, hstates, hyonly, hysame⟩ := s.fom_shown lane hfom ups rfl
  obtain ⟨y, hy⟩ : ∃ y, (s.wr (F.MFL_LANE_STAT_FOM lane) fom).adapt lane fom ups = y := ⟨_, rfl⟩
  rw [hy] at hshown htaps hlane hstates hyonly hysame
  have hexec := exec_fomWindow_high hstate hfom hy (by rw [hysame.rd _ (fomCfg_apart lane)]; exact hwarn)
  have hu : ∀ u : State, (y.modLane lane fun k => { k with lowWins := 0 }) = u → u.regs = y.regs ∧ u = { y with links := { y.links with lanes := u.links.lanes } } ∧
      u.links.lanes[lane] = { y.links.lanes[lane] with lowWins := 0 } := by
    rintro u rfl
    exact ⟨rfl, rfl, upd_same ..⟩
  generalize (y.modLane lane fun k => { k with lowWins := 0 }) = u at *
  obtain ⟨hregs, huonly, hulane⟩ := hu u rfl
  have hrd := State.rd_of_regs hregs
  have hall : u = { s with regs := u.regs, links := { s.links with lanes := u.links.lanes } } := by
    have hylinks : y.links = { s.links with lanes := y.links.lanes } := by rw [hyonly]
    rw [huonly, hyonly]
  refine ⟨u, hexec, (hrd _).trans hshown, fun k => (hrd _).trans (htaps k), ?_, (hrd _).trans (hstates lane), hall, hysame.andRegs hregs, by
    rw [hall]; exact .of_eq rfl rfl rfl rfl⟩
  rw [hulane, hlane]

/-- What a window below WARN shows, before its count. -/
theorem State.fom_warned (s : State) (lane : Fin 8) {fom : Nat} (hfom : fom < 256) (ups : List Int) {y z : State}
    (hy : (s.wr (F.MFL_LANE_STAT_FOM lane) fom).adapt lane fom ups = y) (hz : y.event (Ev.mfl lane) 2 = z) :
    z.rd (F.MFL_LANE_STAT_FOM lane) = fom ∧ bitOf (z.rd (Ev.mfl lane).bits) 2 = true ∧ z.laneState lane = s.laneState lane ∧
    z.links.lanes[lane].lowWins = s.links.lanes[lane].lowWins ∧ z.rd F.MFL_FOM_CFG_RETRAIN = s.rd F.MFL_FOM_CFG_RETRAIN ∧ ∀ n, z.bond n = s.bond n := by
  obtain ⟨hshown, -, hlane, hstates, hyonly, hysame⟩ := s.fom_shown lane hfom ups hy
  have hzonly := hz ▸ y.event_event (Ev.mfl lane) 2
  have hzsame := hz ▸ y.event_regs (Ev.mfl lane) 2
  have hbit := hz ▸ y.event_bit (Ev.mfl lane) (i := 2) (mfl_ev_notMem_occ lane) (by decide)
  have hlinks : z.links = y.links := by rw [hzonly]
  refine ⟨?_, hbit, ?_, by rw [hlinks, hlane], ?_, fun n => (hzsame.bond (tap_apart lane lane).2.2.2.2.1 n).trans (hysame.bond (bond_apart lane) n)⟩
  · rw [hzsame.rd _ (fomStat_notMem_ev lane), hshown]
  · rw [State.laneState, hzsame.rd _ (laneStat_notMem_ev lane lane)]
    exact hstates lane
  · rw [hzsame.rd F.MFL_FOM_CFG_RETRAIN (tap_apart lane lane).2.2.2.2.2, hysame.rd F.MFL_FOM_CFG_RETRAIN (fomCfg_apart lane)]

theorem fomWindow_warns {lane : Fin 8} {fom : Nat} {ups : List Int} {s : State} (hstate : s.laneState lane = 1 ∨ s.laneState lane = 2)
    (hwarn : fom < s.rd F.MFL_FOM_CFG_WARN) (hlow : s.links.lanes[lane].lowWins < 3) : Answers (.fomWindow lane fom ups) s fun u =>
      u.rd (F.MFL_LANE_STAT_FOM lane) = fom ∧ bitOf (u.rd (Ev.mfl lane).bits) 2 = true ∧ u.laneState lane = s.laneState lane := by
  have hfom : fom < 256 := hwarn.trans (State.rd_lt s F.MFL_FOM_CFG_WARN)
  obtain ⟨y, hy⟩ : ∃ y, (s.wr (F.MFL_LANE_STAT_FOM lane) fom).adapt lane fom ups = y := ⟨_, rfl⟩
  obtain ⟨z, hz⟩ : ∃ z, y.event (Ev.mfl lane) 2 = z := ⟨_, rfl⟩
  obtain ⟨-, -, -, -, -, hysame⟩ := s.fom_shown lane hfom ups hy
  obtain ⟨hshown, hbit, hlane, hwins, -, -⟩ := s.fom_warned lane hfom ups hy hz
  obtain ⟨w, hregs, hw, hexec⟩ := exec_fomWindow_low hstate hfom hy (by rw [hysame.rd _ (fomCfg_apart lane)]; exact hwarn) hz
  have hfew : ¬4 ≤ w.links.lanes[lane].lowWins := by
    rw [hw, hwins]
    split <;> omega
  rw [if_neg hfew] at hexec
  have hrd := State.rd_of_regs hregs
  exact ⟨w, hexec, (hrd _).trans hshown, by rw [hrd]; exact hbit, (hrd _).trans hlane⟩

theorem fomWindow_retrains {lane : Fin 8} {fom : Nat} {ups : List Int} {s : State} (hstate : s.laneState lane = 2) (hwarn : fom < s.rd F.MFL_FOM_CFG_WARN)
    (hretrain : fom < s.rd F.MFL_FOM_CFG_RETRAIN) (hlow : 3 ≤ s.links.lanes[lane].lowWins) : Answers (.fomWindow lane fom ups) s fun u =>
      u.laneState lane = 1 ∧ bitOf (u.rd (Ev.mfl (s.linkLane lane)).bits) 3 = true := by
  have hfom : fom < 256 := hwarn.trans (State.rd_lt s F.MFL_FOM_CFG_WARN)
  obtain ⟨y, hy⟩ : ∃ y, (s.wr (F.MFL_LANE_STAT_FOM lane) fom).adapt lane fom ups = y := ⟨_, rfl⟩
  obtain ⟨z, hz⟩ : ∃ z, y.event (Ev.mfl lane) 2 = z := ⟨_, rfl⟩
  obtain ⟨-, -, -, -, -, hysame⟩ := s.fom_shown lane hfom ups hy
  have hywarn : fom < y.rd F.MFL_FOM_CFG_WARN := by rw [hysame.rd _ (fomCfg_apart lane)]; exact hwarn
  obtain ⟨-, -, hlane, hwins, hzretrain, hbond⟩ := s.fom_warned lane hfom ups hy hz
  obtain ⟨w, hregs, hw, hexec⟩ := exec_fomWindow_low (.inr hstate) hfom hy hywarn hz
  rw [if_pos (by rw [hzretrain]; exact lt_min hywarn hretrain), hwins] at hw
  rw [if_pos (by omega)] at hexec
  have hrd := State.rd_of_regs hregs
  have hwbond : ∀ n, w.bond n = s.bond n := fun n => by
    rw [← hbond n, State.bond, hrd, hrd, State.bond]
  obtain ⟨hone, hbit⟩ := w.retrain_trains lane (.inl ((hrd _).trans (hlane.trans hstate))) rfl
  rw [State.linkLane_of_bond hwbond] at hbit
  exact ⟨_, hexec, hone, hbit⟩

/-! ## A write of MFL_CFG (R332) -/

theorem State.lanesIn_unbonded {s : State} (ha : s.rd F.MFL_CFG_BOND_A = 0) (hb : s.rd F.MFL_CFG_BOND_B = 0) (n : Fin 8) :
    s.linkLane n = n ∧ ∀ k, k ∈ s.lanesIn n ↔ k = n := by
  have hlane : ∀ k : Fin 8, s.linkLane k = k := fun k => by
    rw [State.linkLane, State.bond, ha, hb]
    revert k
    decide
  exact ⟨hlane n, fun k => by rw [State.mem_lanesIn, hlane, hlane]⟩

/-- One link's part of a start of the lanes. -/
def State.startLink (s : State) (n : Fin 8) : State :=
  let on := (s.lanesIn n).all fun k => bitOf (s.rd F.MFL_CFG_LANE_EN) k.1
  if s.linkLane n = n ∧ on ∧ s.laneState n = 0 then s.bringUp n else s

theorem State.startLanes_eq {s : State} (hclk : s.clk.absent = false) : s.startLanes = (allFin 8).foldl State.startLink s :=
  if_neg (by rw [hclk]; exact Bool.false_ne_true)

theorem lanesAgreed_notMem : (F.MFL_CFG_LANE_EN).addr ∉ laneOut ++ agreedOut := by decide

/-- The lanes `l` of an idle, unbonded module, started as `w` enables them. -/
theorem State.startLinks_states {w : Nat} (l : List (Fin 8)) (hl : l.Nodup) (x : State) (ha : x.rd F.MFL_CFG_BOND_A = 0) (hb : x.rd F.MFL_CFG_BOND_B = 0)
    (hen : x.rd F.MFL_CFG_LANE_EN = w) (hidle : ∀ k ∈ l, x.laneState k = 0) :
    (∀ k : Fin 8, (l.foldl State.startLink x).laneState k = if k ∈ l ∧ bitOf w k = true then 1 else x.laneState k) ∧
    l.foldl State.startLink x = { x with regs := (l.foldl State.startLink x).regs, links := (l.foldl State.startLink x).links } ∧
    RegsSame (laneOut ++ agreedOut) x (l.foldl State.startLink x) := by
  induction l generalizing x with
  | nil => exact ⟨fun k => by rw [if_neg fun h => List.not_mem_nil h.1]; rfl, rfl, .refl _ x⟩
  | cons n l ih =>
    obtain ⟨hn, hl⟩ := List.nodup_cons.mp hl
    obtain ⟨hnamed, hin⟩ := State.lanesIn_unbonded ha hb n
    have hon : ((x.lanesIn n).all fun k => bitOf (x.rd F.MFL_CFG_LANE_EN) k.1) = bitOf w n := by
      rw [Bool.eq_iff_iff, List.all_eq_true, hen]
      exact ⟨fun h => h n ((hin n).mpr rfl), fun h k hk => by rw [(hin k).mp hk]; exact h⟩
    have hone : ∀ y : State, x.startLink n = y → (∀ k : Fin 8, y.laneState k = if k = n ∧ bitOf w n = true then 1 else x.laneState k) ∧
        y = { x with regs := y.regs, links := y.links } ∧ RegsSame (laneOut ++ agreedOut) x y := by
      rintro y rfl
      rw [State.startLink]
      rw [hon, hnamed, hidle n List.mem_cons_self]
      by_cases hbit : bitOf w n = true
      · rw [if_pos ⟨rfl, hbit, rfl⟩]
        obtain ⟨hup, hothers, -, -, honly, hsame⟩ := x.bringUp_keeps n rfl
        refine ⟨fun k => ?_, honly, hsame⟩
        by_cases hk : k = n
        · rw [if_pos ⟨hk, hbit⟩, hup k ((hin k).mpr hk)]
        · rw [if_neg fun h => hk h.1, hothers k fun h => hk ((hin k).mp h)]
      · rw [if_neg fun h => hbit h.2.1]
        exact ⟨fun k => by rw [if_neg fun h => hbit h.2], rfl, .refl _ x⟩
    rw [List.foldl_cons]
    generalize x.startLink n = y at *
    obtain ⟨hystates, hyonly, hysame⟩ := hone y rfl
    obtain ⟨hstates, honly, hsame⟩ := ih hl y (by rw [hysame.rd F.MFL_CFG_BOND_A lanesAgreed_notMem]; exact ha)
      (by rw [hysame.rd F.MFL_CFG_BOND_B lanesAgreed_notMem]; exact hb) (by rw [hysame.rd F.MFL_CFG_LANE_EN lanesAgreed_notMem]; exact hen)
      fun k hk => by
        rw [hystates, if_neg fun h : k = n ∧ bitOf w n = true => hn (h.1 ▸ hk)]
        exact hidle k (List.mem_cons_of_mem _ hk)
    refine ⟨fun k => ?_, by rw [honly, hyonly], hysame.trans hsame⟩
    rw [hstates, hystates]
    by_cases hk : k = n
    · subst hk
      simp [hn]
    · simp [hk]

/-- The links of the lanes, as MFL_LANE_STAT shows them. -/
def State.showLinks (s : State) : State :=
  (allFin 8).foldl (fun (s : State) (n : Fin 8) => s.wrs [(F.MFL_LANE_STAT_LINK n, (s.linkLane n).1), (F.MFL_LANE_STAT_WIDTH n, s.bond n)]) s

theorem State.showLinks_keeps (s : State) : RegsOnly s s.showLinks ∧ RegsSame laneOut s s.showLinks ∧ ∀ k : Fin 8, s.showLinks.laneState k = s.laneState k := by
  refine foldl_rel (R := fun x y : State => RegsOnly x y ∧ RegsSame laneOut x y ∧ ∀ k : Fin 8, y.laneState k = x.laneState k)
    (fun x => ⟨.refl x, .refl _ x, fun _ => rfl⟩) (fun h k => ⟨h.1.trans k.1, h.2.1.trans k.2.1, fun j => (k.2.2 j).trans (h.2.2 j)⟩)
    (fun x n => ⟨.wrs .., .wrs _ _ ?_, fun k => State.rd_wrs_apart ?_ x⟩) _ s
  · revert n
    simp only [List.forall_mem_cons]
    intro n
    have hn : (F.MFL_LANE_STAT_STATE n).addr ∈ laneOut := List.mem_cons_of_mem _ (List.mem_map.mpr ⟨n.1, List.mem_range.mpr n.2, rfl⟩)
    exact ⟨hn, hn, fun _ h => absurd h List.not_mem_nil⟩
  · simp [Fld.apart, F.MFL_LANE_STAT_LINK, F.MFL_LANE_STAT_WIDTH, F.MFL_LANE_STAT_STATE]

/-- The fields of MFL_CFG that a write gives an idle module. -/
def cfgFields (w : Nat) : List (Fld × Nat) := [(F.MFL_CFG_BOND_A, fieldOf w 8 2), (F.MFL_CFG_BOND_B, fieldOf w 10 2), (F.MFL_CFG_IDLE_EN, fieldOf w 12 1)]

/-- One link's part of the disabling of lanes. -/
def State.stopLink (w : Nat) (s : State) (n : Fin 8) : State :=
  let on := (s.lanesIn n).all fun k => bitOf w k.1
  if s.linkLane n = n ∧ !on ∧ s.laneState n ≠ 0 then s.laneOff n else s

theorem State.mflCfg_idle {s : State} {w : Nat} (hidle : ∀ k, s.laneState k = 0) (hw : bitOf w 13 = false) :
    s.mflCfg w = ((allFin 8).foldl (State.stopLink w) ((s.wrs (cfgFields w)).showLinks.wr F.MFL_CFG_LANE_EN w)).startLanes := by
  have hbusy : ((allFin 8).any fun n => s.laneState n == 1 || s.laneState n == 2) = false := by
    rw [List.any_eq_false]
    intro k _
    rw [hidle k]
    decide
  rw [State.mflCfg]
  dsimp only
  rw [hw, hbusy]
  rfl

theorem State.mflCfg_busy {s : State} {w : Nat} (hbusy : ∃ k, s.laneState k = 1 ∨ s.laneState k = 2) (hbond : fieldOf w 8 2 ≠ s.rd F.MFL_CFG_BOND_A) :
    ∃ x : State, (x = s ∨ x = s.wr F.MFL_CFG_CFG_BUSY 0) ∧
      s.mflCfg w = ((allFin 8).foldl (State.stopLink w) ((x.wr F.MFL_CFG_CFG_BUSY 1).wr F.MFL_CFG_LANE_EN w)).startLanes := by
  have hany : ((allFin 8).any fun n => s.laneState n == 1 || s.laneState n == 2) = true := by
    obtain ⟨k, hk⟩ := hbusy
    refine List.any_eq_true.mpr ⟨k, List.mem_finRange k, ?_⟩
    rcases hk with h | h <;> rw [h] <;> decide
  refine ⟨if bitOf w 13 then s.wr F.MFL_CFG_CFG_BUSY 0 else s, ?_, ?_⟩
  · split
    · exact .inr rfl
    · exact .inl rfl
  · rw [State.mflCfg]
    dsimp only
    rw [hany, if_pos rfl, if_neg (by simp [hbond])]
    rfl

theorem mflCfgWrite_starts {req : Req} {w : Word} {s : State} (hw : s.mayWrite req F.MFL_CFG_LANE_EN.addr w = true) (hclk : s.clk.absent = false)
    (hidle : ∀ k, s.laneState k = 0) (hlanes : w.toNat < 2 ^ 8) : Answers (.mflCfgWrite req w) s fun u =>
      u.rd F.MFL_CFG_LANE_EN = w.toNat ∧ u.rd F.MFL_CFG_BOND_A = 0 ∧ u.rd F.MFL_CFG_BOND_B = 0 ∧
      (∀ k : Fin 8, u.laneState k = if bitOf w.toNat k then 1 else 0) ∧
      Quiet (laneOut ++ agreedOut ++ [(F.MFL_CFG_LANE_EN).addr, wseqOut]) s u := by
  have hhigh : ∀ i n, 8 ≤ i → fieldOf w.toNat i n = 0 := fun i n hi => by
    rw [fieldOf, Nat.div_eq_of_lt (lt_of_lt_of_le hlanes (Nat.pow_le_pow_right (by decide) hi))]
    exact Nat.zero_mod _
  refine answers_regWrite rfl hw fun u honly hsame => ?_
  rw [State.mflCfg_idle hidle (Nat.testBit_lt_two_pow (lt_of_lt_of_le hlanes (by decide)))] at honly hsame
  generalize w.toNat = v at *
  have hxa : (s.wrs (cfgFields v)).rd F.MFL_CFG_BOND_A = 0 := by
    rw [State.rd_wrs_mem (by simp [cfgFields, Fld.apart, F.MFL_CFG_BOND_A, F.MFL_CFG_BOND_B, F.MFL_CFG_IDLE_EN])
      (by simp [cfgFields, F.MFL_CFG_BOND_A, F.MFL_CFG_BOND_B, F.MFL_CFG_IDLE_EN]) s (f := F.MFL_CFG_BOND_A) (v := fieldOf v 8 2) (by simp [cfgFields]), hhigh 8 2 le_rfl]
    rfl
  have hxb : (s.wrs (cfgFields v)).rd F.MFL_CFG_BOND_B = 0 := by
    rw [State.rd_wrs_mem (by simp [cfgFields, Fld.apart, F.MFL_CFG_BOND_A, F.MFL_CFG_BOND_B, F.MFL_CFG_IDLE_EN])
      (by simp [cfgFields, F.MFL_CFG_BOND_A, F.MFL_CFG_BOND_B, F.MFL_CFG_IDLE_EN]) s (f := F.MFL_CFG_BOND_B) (v := fieldOf v 10 2) (by simp [cfgFields]), hhigh 10 2 (by decide)]
    rfl
  have hxonly : RegsOnly s (s.wrs (cfgFields v)) := .wrs ..
  have hxsame : RegsSame [(F.MFL_CFG_LANE_EN).addr] s (s.wrs (cfgFields v)) := .wrs _ _ (by
    simp [cfgFields, F.MFL_CFG_LANE_EN, F.MFL_CFG_BOND_A, F.MFL_CFG_BOND_B, F.MFL_CFG_IDLE_EN])
  generalize s.wrs (cfgFields v) = x at *
  obtain ⟨hyonly, hysame, hystates⟩ := x.showLinks_keeps
  generalize x.showLinks = y at *
  have hzen := State.rd_wr_same y F.MFL_CFG_LANE_EN v (by decide)
  have hza : (y.wr F.MFL_CFG_LANE_EN v).rd F.MFL_CFG_BOND_A = y.rd F.MFL_CFG_BOND_A := State.rd_wr_apart _ _ _ _ (by decide) (by decide)
  have hzb : (y.wr F.MFL_CFG_LANE_EN v).rd F.MFL_CFG_BOND_B = y.rd F.MFL_CFG_BOND_B := State.rd_wr_apart _ _ _ _ (by decide) (by decide)
  have hzonly : RegsOnly y (y.wr F.MFL_CFG_LANE_EN v) := .wr ..
  have hzsame : RegsSame [(F.MFL_CFG_LANE_EN).addr] y (y.wr F.MFL_CFG_LANE_EN v) := .wr _ _ _ List.mem_cons_self
  generalize y.wr F.MFL_CFG_LANE_EN v = z at *
  have hcfg : ∀ k : Fin 8, (F.MFL_LANE_STAT_STATE k).addr ∉ [(F.MFL_CFG_LANE_EN).addr] := by decide
  have hzstates : ∀ k : Fin 8, z.laneState k = 0 := fun k => by
    rw [State.laneState, hzsame.rd _ (hcfg k), ← State.laneState, hystates, State.laneState, hxsame.rd _ (hcfg k)]
    exact hidle k
  have hstill : (allFin 8).foldl (State.stopLink v) z = z := foldl_still fun k _ => if_neg fun h => h.2.2 (hzstates k)
  have hzclk : z.clk.absent = false := by rw [hzonly, hyonly, hxonly]; exact hclk
  rw [hstill, State.startLanes_eq hzclk] at honly hsame
  have hlaneEn : v % 2 ^ (F.MFL_CFG_LANE_EN).width = v := Nat.mod_eq_of_lt hlanes
  obtain ⟨hstates, htonly, htsame⟩ := State.startLinks_states (w := v) (allFin 8) (List.nodup_finRange 8) z
    (by rw [hza, hysame.rd F.MFL_CFG_BOND_A (by decide)]; exact hxa) (by rw [hzb, hysame.rd F.MFL_CFG_BOND_B (by decide)]; exact hxb)
    (hzen.trans hlaneEn) fun k _ => hzstates k
  generalize (allFin 8).foldl State.startLink z = t at *
  refine ⟨?_, ?_, ?_, fun k => ?_, ?_, ?_⟩
  · rw [hsame.rd _ (by decide), htsame.rd _ lanesAgreed_notMem, hzen, hlaneEn]
  · rw [hsame.rd _ (by decide), htsame.rd F.MFL_CFG_BOND_A lanesAgreed_notMem, hza, hysame.rd F.MFL_CFG_BOND_A (by decide), hxa]
  · rw [hsame.rd _ (by decide), htsame.rd F.MFL_CFG_BOND_B lanesAgreed_notMem, hzb, hysame.rd F.MFL_CFG_BOND_B (by decide), hxb]
  · rw [State.laneState, hsame.rd _ (by revert k; decide), ← State.laneState, hstates, hzstates]
    simp only [List.mem_finRange, true_and]
  · have hset : ∀ a ∈ [(F.MFL_CFG_LANE_EN).addr], a ∈ laneOut ++ agreedOut ++ [(F.MFL_CFG_LANE_EN).addr, wseqOut] := fun a ha =>
      List.mem_append_right _ (List.mem_cons.mpr (.inl (List.mem_singleton.mp ha)))
    refine ((((hxsame.mono hset).trans (hysame.mono fun a ha => ?_)).trans (hzsame.mono hset)).trans (htsame.mono fun a ha => ?_)).trans
      (hsame.mono fun a ha => ?_)
    · exact List.mem_append_left _ (List.mem_append_left _ ha)
    · exact List.mem_append_left _ ha
    · rw [List.mem_singleton.mp ha]
      exact List.mem_append_right _ (List.mem_cons_of_mem _ List.mem_cons_self)
  · rw [honly, htonly, hzonly, hyonly, hxonly]
    exact .of_eq rfl rfl rfl rfl

/-! ## MFL_CFG while links are up -/

section
variable {s₀ s : State}

theorem Alarmed.raise (hs : Alarmed s₀ s) {r : EvReg} {bits : Nat} (hr : alarmBlk r.blk = true := by rfl) : Alarmed s₀ (s.raise r bits) :=
  (hs.wr hr).aside (Aside.refl _).raised

theorem Alarmed.postVoid (hs : Alarmed s₀ s) {t : Fin 32} : Alarmed s₀ (s.postVoid t) := by
  rw [State.postVoid]
  split
  · exact hs
  · exact (hs.foldl fun _ _ hs => hs.aside (Aside.refl _).occurrence).modThread

theorem Alarmed.endMembers (hs : Alarmed s₀ s) {t : Fin 32} {mask : Nat} {r : EndReason} {endDen : Bool} : Alarmed s₀ (s.endMembers t mask r endDen) := by
  unfold State.endMembers
  dsimp only
  refine .ite hs ?_
  have hs := (hs.foldl (l := grovesIn (s.threads[t].members &&& mask)) (f := fun s g => s.haltGrove g r endDen) fun _ _ hs => hs.haltGrove).modThread (t := t)
    (f := fun k => { k with members := without k.members (s.threads[t].members &&& mask) })
  generalize (((grovesIn (s.threads[t].members &&& mask)).foldl (fun s g => s.haltGrove g r endDen) s).modThread t fun k =>
    { k with members := without k.members (s.threads[t].members &&& mask) }) = x at *
  have hs : Alarmed s₀ (if r = .detached then x.wr (F.SEQ_DETACHED_MASK t) (x.rd (F.SEQ_DETACHED_MASK t) ||| s.threads[t].members &&& mask) else x) :=
    .ite hs.wr hs
  generalize (if r = .detached then x.wr (F.SEQ_DETACHED_MASK t) (x.rd (F.SEQ_DETACHED_MASK t) ||| s.threads[t].members &&& mask) else x) = y at *
  have hs : Alarmed s₀ (if decide (x.threads[t].members = 0) = true then y.wrs [(F.SEQ_STATUS_STATE t, 4), (F.SEQ_STATUS_END_REASON t, r.code)] else y) :=
    .ite hs.wrs hs
  split
  · exact hs.raise.burstCheckEnded
  · exact hs.raise

theorem Alarmed.checkEnd (hs : Alarmed s₀ s) {t : Fin 32} : Alarmed s₀ (s.checkEnd t) := by
  unfold State.checkEnd
  dsimp only
  refine .ite hs ?_
  have hs := (hs.foldl (l := s.threads[t].detaching.filter fun d => d.2 ≤ s.threads[t].resTo) (f := fun s d => s.endMembers t d.1 .detached)
    fun _ _ hs => hs.endMembers).modThread (t := t)
    (f := fun k => { k with detaching := k.detaching.filter fun d => !(s.threads[t].detaching.filter fun d => d.2 ≤ s.threads[t].resTo).contains d })
  generalize (((s.threads[t].detaching.filter fun d => d.2 ≤ s.threads[t].resTo).foldl (fun s d => s.endMembers t d.1 .detached) s).modThread t fun k =>
    { k with detaching := k.detaching.filter fun d => !(s.threads[t].detaching.filter fun d => d.2 ≤ s.threads[t].resTo).contains d }) = x at *
  refine .ite hs ?_
  have hv := hs.postVoid (t := t)
  split
  · exact .ite (hv.foldl fun _ _ hs => hs.modGrove).endMembers hs
  · exact hv.endMembers
  · exact .ite hv.endMembers hs
  · exact hs

theorem Alarmed.loseGrove (hs : Alarmed s₀ s) {g : Fin 32} : Alarmed s₀ (s.loseGrove g) := by
  rw [State.loseGrove]
  split
  · exact hs
  · exact .ite hs.endBeforeStart (.ite hs.modThread.checkEnd hs)

end

/-- The word of MFL_CFG is as it was. -/
def CfgKept (s u : State) : Prop := u.word .mfl (F.MFL_CFG_LANE_EN).addr = s.word .mfl (F.MFL_CFG_LANE_EN).addr

theorem CfgKept.refl (s : State) : CfgKept s s := rfl

theorem CfgKept.trans {s x u : State} (h : CfgKept s x) (k : CfgKept x u) : CfgKept s u := Eq.trans k h

theorem CfgKept.foldl {α : Type} {f : State → α → State} (h : ∀ s a, CfgKept s (f s a)) (l : List α) (s : State) : CfgKept s (l.foldl f s) :=
  foldl_rel .refl .trans h l s

theorem RegsSame.cfgKept {out : List Nat} {s u : State} (h : RegsSame out s u) (hout : (F.MFL_CFG_LANE_EN).addr ∉ out) : CfgKept s u := h _ _ hout

theorem Alarmed.cfgKept {s u : State} (h : Alarmed s u) : CfgKept s u := h.2 _ _ rfl (by decide)

theorem CfgKept.rd {s u : State} (h : CfgKept s u) : u.rd F.MFL_CFG_LANE_EN = s.rd F.MFL_CFG_LANE_EN ∧ u.rd F.MFL_CFG_BOND_A = s.rd F.MFL_CFG_BOND_A ∧
    u.rd F.MFL_CFG_BOND_B = s.rd F.MFL_CFG_BOND_B ∧ u.rd F.MFL_CFG_CFG_BUSY = s.rd F.MFL_CFG_CFG_BUSY := by
  refine ⟨?_, ?_, ?_, ?_⟩ <;> exact State.rd_of_word _ h

theorem cfg_notMem_ev : ∀ n : Fin 8, (F.MFL_CFG_LANE_EN).addr ∉ (F.MFL_TOKEN_LOST_COUNT n).addr :: evOut (Ev.mfl n) := by decide

theorem CfgKept.tokenLoss (s : State) (n l : Fin 8) : CfgKept s (s.tokenLoss n l) := by
  rw [State.tokenLoss]
  split
  · have hlost := ((Alarmed.refl s).loseGrove (g := fin 32 (s.rd (F.STR_LINK_GROVE l)))).cfgKept
    generalize s.loseGrove (fin 32 (s.rd (F.STR_LINK_GROVE l))) = x at *
    have hcount : RegsSame ((F.MFL_TOKEN_LOST_COUNT n).addr :: evOut (Ev.mfl n)) x ((x.incSat (F.MFL_TOKEN_LOST_COUNT n)).event (Ev.mfl n) 4) :=
      (RegsSame.incSat x _ _ List.mem_cons_self).andEvent fun _ h => List.mem_cons_of_mem _ h
    generalize (x.incSat (F.MFL_TOKEN_LOST_COUNT n)).event (Ev.mfl n) 4 = y at *
    obtain ⟨-, hwords, -⟩ := y.fault_reaches (i := 18) (by decide) (some (fin 32 (s.rd (F.STR_LINK_GROVE l)))) false false rfl
    exact (hlost.trans (hcount.cfgKept (cfg_notMem_ev n))).trans (hwords _ _ rfl (by decide))
  · exact .refl s

theorem CfgKept.holdover (s : State) (on : Bool) : CfgKept s (s.holdover on) := by
  have hone : ∀ v, RegsSame ((F.TIM_STATUS_STATE).addr :: evOut Ev.tim) s ((s.wr F.TIM_STATUS_STATE v).event Ev.tim 4) := fun v =>
    (RegsSame.wr _ _ _ List.mem_cons_self).andEvent fun _ h => List.mem_cons_of_mem _ h
  rw [State.holdover]
  split
  · exact (hone 2).cfgKept (by decide)
  · split
    · exact (hone 1).cfgKept (by decide)
    · exact .refl s

theorem CfgKept.laneDownHold (s : State) (lane : Fin 8) : CfgKept s (s.laneDownHold lane) := by
  rw [State.laneDownHold]
  split
  · exact .holdover ..
  · exact .refl s

theorem CfgKept.laneOff (s : State) (n : Fin 8) : CfgKept s (s.laneOff n) := by
  rw [State.laneOff]
  dsimp only
  have hlost := CfgKept.foldl (fun s l => CfgKept.tokenLoss s n l) (s.entriesOn n) s
  generalize (s.entriesOn n).foldl (fun s l => s.tokenLoss n l) s = x at *
  have hdown : ∀ y : State, (if x.laneState n = 2 then (x.lanesIn n).foldl State.laneDownHold x else x) = y → CfgKept x y := by
    rintro y rfl
    split
    · exact .foldl (fun s k => .laneDownHold s k) _ _
    · exact .refl x
  have hxy := hdown _ rfl
  generalize (if x.laneState n = 2 then (x.lanesIn n).foldl State.laneDownHold x else x) = y at *
  refine (hlost.trans hxy).trans ?_
  have hz : ∀ z : State, ({ y with links := { y.links with descs := y.links.descs.filter fun d => !(y.lanesIn n).any fun k => k.1 == d.1 } } : State) = z → z.regs = y.regs := by
    rintro z rfl
    rfl
  generalize ({ y with links := { y.links with descs := y.links.descs.filter fun d => !(y.lanesIn n).any fun k => k.1 == d.1 } } : State) = z at *
  obtain ⟨-, -, -, hsame⟩ := z.setLanes_keeps n (show 0 < 8 by decide) rfl
  generalize z.setLanes n 0 = w at *
  have hyz : CfgKept y z := by rw [CfgKept, State.word, hz z rfl, State.word]
  exact (hyz.trans (hsame.cfgKept (by decide))).trans ((w.noteAgreed_keeps rfl).2.1.cfgKept (by decide))

theorem CfgKept.stopLink (w : Nat) (s : State) (n : Fin 8) : CfgKept s (s.stopLink w n) := by
  rw [State.stopLink]
  split
  · exact .laneOff ..
  · exact .refl s

theorem CfgKept.startLanes (s : State) : CfgKept s s.startLanes := by
  by_cases hclk : s.clk.absent = true
  · rw [State.startLanes, if_pos hclk]
    exact .refl s
  · rw [State.startLanes_eq (Bool.not_eq_true _ ▸ hclk)]
    refine .foldl (fun x n => ?_) _ _
    rw [State.startLink]
    split
    · exact (x.bringUp_keeps n rfl).2.2.2.2.2.cfgKept lanesAgreed_notMem
    · exact .refl x

theorem mflCfgWrite_refused {req : Req} {w : Word} {s : State} (hw : s.mayWrite req F.MFL_CFG_LANE_EN.addr w = true)
    (hbusy : ∃ k, s.laneState k = 1 ∨ s.laneState k = 2) (hbond : fieldOf w.toNat 8 2 ≠ s.rd F.MFL_CFG_BOND_A) : Answers (.mflCfgWrite req w) s fun u =>
      u.rd F.MFL_CFG_BOND_A = s.rd F.MFL_CFG_BOND_A ∧ u.rd F.MFL_CFG_BOND_B = s.rd F.MFL_CFG_BOND_B ∧
      u.rd F.MFL_CFG_CFG_BUSY = 1 ∧ u.rd F.MFL_CFG_LANE_EN = w.toNat % 256 := by
  refine answers_regWrite rfl hw fun u honly hsame => ?_
  obtain ⟨x, hx, heq⟩ := State.mflCfg_busy hbusy hbond
  rw [heq] at hsame
  generalize w.toNat = v at *
  have hxa : x.rd F.MFL_CFG_BOND_A = s.rd F.MFL_CFG_BOND_A ∧ x.rd F.MFL_CFG_BOND_B = s.rd F.MFL_CFG_BOND_B := by
    rcases hx with rfl | rfl
    · exact ⟨rfl, rfl⟩
    · exact ⟨State.rd_wr_apart _ _ _ _ (by decide) (by decide), State.rd_wr_apart _ _ _ _ (by decide) (by decide)⟩
  have hybusy := State.rd_wr_same x F.MFL_CFG_CFG_BUSY 1 (by decide)
  have hya : (x.wr F.MFL_CFG_CFG_BUSY 1).rd F.MFL_CFG_BOND_A = x.rd F.MFL_CFG_BOND_A := State.rd_wr_apart _ _ _ _ (by decide) (by decide)
  have hyb : (x.wr F.MFL_CFG_CFG_BUSY 1).rd F.MFL_CFG_BOND_B = x.rd F.MFL_CFG_BOND_B := State.rd_wr_apart _ _ _ _ (by decide) (by decide)
  generalize x.wr F.MFL_CFG_CFG_BUSY 1 = y at *
  have hzen := State.rd_wr_same y F.MFL_CFG_LANE_EN v (by decide)
  have hza : (y.wr F.MFL_CFG_LANE_EN v).rd F.MFL_CFG_BOND_A = y.rd F.MFL_CFG_BOND_A := State.rd_wr_apart _ _ _ _ (by decide) (by decide)
  have hzb : (y.wr F.MFL_CFG_LANE_EN v).rd F.MFL_CFG_BOND_B = y.rd F.MFL_CFG_BOND_B := State.rd_wr_apart _ _ _ _ (by decide) (by decide)
  have hzbusy : (y.wr F.MFL_CFG_LANE_EN v).rd F.MFL_CFG_CFG_BUSY = y.rd F.MFL_CFG_CFG_BUSY := State.rd_wr_apart _ _ _ _ (by decide) (by decide)
  generalize y.wr F.MFL_CFG_LANE_EN v = z at *
  have hstop := CfgKept.foldl (fun s n => CfgKept.stopLink v s n) (allFin 8) z
  generalize (allFin 8).foldl (State.stopLink v) z = t at *
  obtain ⟨hen, ha, hb, hcfg⟩ := ((hstop.trans (.startLanes t)).trans (hsame.cfgKept (by decide))).rd
  exact ⟨by rw [ha, hza, hya, hxa.1], by rw [hb, hzb, hyb, hxa.2], by rw [hcfg, hzbusy, hybusy]; rfl, by rw [hen, hzen]; rfl⟩

end Sys2Proof.Machine
open Sys2Proof Sys2Proof.Machine

/-- Settles O42: each command of a link goes through `State.setLanes`, `State.train` or `State.bringUp`, whose effects on the lanes of the link and of
the others are stated once. -/
theorem linkStates : Obligations.LinkStates :=
  ⟨fun _ _ _ hstate hentries hhold => linkRetrain_retrains hstate hentries hhold, fun _ _ _ h2 h3 => linkRetrain_still h2 h3,
    fun _ _ hstate hwidth hneed => linkUp_up hstate hwidth hneed, fun _ _ _ hk hwidth => linkUp_waits_width hk hwidth, fun _ _ hneed => linkUp_waits_need hneed,
    fun _ _ hstate hticks hcls => linkFailed_fails hstate hticks hcls, fun _ _ h => linkFailed_still h,
    fun _ _ hstate hticks => linkBringupRetry_trains hstate hticks, fun _ _ h => linkBringupRetry_still h,
    fun _ _ hstate hen htxq hresend hbusy hdue => linkIdleEntry_idles hstate hen htxq hresend hbusy hdue, fun _ _ h => linkIdleEntry_still h,
    fun _ _ hstate htraffic => linkIdleExit_wakes hstate htraffic, fun _ _ htxq hbusy hout => linkIdleExit_still htxq hbusy hout,
    fun _ _ _ _ hstate hwarn hfom => fomWindow_good hstate hwarn hfom, fun _ _ _ _ hstate hwarn hlow => fomWindow_warns hstate hwarn hlow,
    fun _ _ _ _ hstate hwarn hretrain hlow => fomWindow_retrains hstate hwarn hretrain hlow,
    fun _ _ _ hw hclk hidle hlanes => mflCfgWrite_starts hw hclk hidle hlanes, fun _ _ _ hw hbusy hbond => mflCfgWrite_refused hw hbusy hbond⟩
end

section
/-! A Firebreak among bursts of one tag (R427, R432), which refutes O49. -/

set_option Elab.async false

namespace Sys2Proof.Machine

/-- A burst of no groves, of a tag and a stage. -/
def emptyBurst (tag : Nat) (stage : Stage) : Burst :=
  { hdr := ⟨2, tag, 1, false⟩, ops := ⟨0, 0, 0, 0, 5, 1, 0⟩, stage := stage, order := 0, startSlot := none, startTime := none, endTime := 0
    reach := [], waiters := [], faultSeq := 0, faultSrc := 0xFF, firebreak := false, fatal := false, armedBy := [] }

/-- Reset with a burst that has ended, an admitted one of the same tag and epoch, and one that runs. -/
def twoOfOneTag : State := { State.reset with bursts := [emptyBurst 1 .ended, emptyBurst 1 .admitted, emptyBurst 7 .running] }

/-- Every burst of the answer's state has ended or is marked. -/
def allMarked : Host.Outcome State Fault Refusal → Bool
  | .next u => u.bursts.all fun b => b.stage == .ended || b.firebreak
  | _ => true

/-- The burst that runs ends, which grants what waits by its name: the ended burst of that name is granted with it, unmarked. -/
theorem firebreak_leaves_one : allMarked (exec (.firebreakStart 0 0) twoOfOneTag) = false := by decide +kernel

end Sys2Proof.Machine

open Sys2Proof Sys2Proof.Machine

/-- Refutes O49: a burst that has ended is not marked, and the grant that the Firebreak's ends make reaches it by its tag and epoch. -/
theorem not_firebreakSequence : ¬ Obligations.FirebreakSequence := by
  unfold Obligations.FirebreakSequence
  rintro ⟨hstart, _⟩
  obtain ⟨u, hu, _, _, _, _, _, _, _, _, _, _, _, hbursts, _⟩ := hstart 0 0 twoOfOneTag (by decide +kernel)
  have hnot := firebreak_leaves_one
  rw [hu, allMarked, List.all_eq_true.mpr fun b hb => ?_] at hnot
  · exact absurd hnot (by decide)
  · rcases hbursts b hb with h | h
    · rw [h]
      rfl
    · rw [h]
      exact Bool.or_true _
end

section
/-! O13 (cycles at the pins), R16, R36, R117, R159 and R183: what a cycle that begins, a result and a cut's effect leave. -/

set_option Elab.async false

namespace Sys2Proof.Machine

/-! ## The start of a cycle, grove by grove -/

/-- Whether a thread's cycle is its last one so far, or a void one follows. -/
def Thread.lastBefore (k : Thread) : List Cycle → Bool
  | n :: _ => n.line.isNone
  | [] => k.closed

/-- The start of a grove's void cycle. -/
def State.startVoid (c : Cycle) (last : Bool) (s : State) (g : Fin 32) : State :=
  let old := s.groves[g].period
  let s := if s.hiz g then s.denOff g else s
  ((s.dscVoid g).measureCycle g c.idx 0 old).modGrove g fun x =>
    { x with start := x.start + old, period := old
             marks := if last then noteMark (x.origin + x.start + old) 0 false (noteMark (x.origin + x.start) 0 false x.marks)
               else noteMark (x.origin + x.start) 0 false x.marks }

/-- The start of a grove's cycle with a line, and what its channels see. -/
def State.startLine (lead : Fin 32) (c : Cycle) (l : Line) (last : Bool) (ends : Fin 32 → Bool) (levels : List ChanLevels)
    (a : State × List ChanRes) (g : Fin 32) : State × List ChanRes :=
  let period := a.1.periodOf lead l.ts
  let r := a.1.lineCycle g lead l period (ends g) levels .none
  ((r.1.measureCycle g c.idx 0 period).modGrove g fun x =>
    { x with start := x.start + period, period := period
             marks := if last then noteMark (x.origin + x.start + period) 0 false (noteMark (x.origin + x.start) l.mark l.segs x.marks)
               else noteMark (x.origin + x.start) l.mark l.segs x.marks }, a.2 ++ r.2)

/-- The thread whose cycle `c` has begun. -/
def Thread.begun (c : Cycle) (rest : List Cycle) (at_ : Nat) (res : List ChanRes) (unref : Bool) (ends : Nat) (k : Thread) : Thread :=
  { k with pipe := rest, started := k.started ++ [⟨{ c with start := at_ }, res, unref, ends⟩] }


/-! ### What the start of a grove's cycle leaves -/

/-- What the start of a grove's cycle leaves: the threads and the classes of sources 8 to 11. -/
def ThreadsKept (s u : State) : Prop := u.threads = s.threads ∧ u.rd (F.FLT_CLASS_CLASS 2) = s.rd (F.FLT_CLASS_CLASS 2)

theorem ThreadsKept.refl (s : State) : ThreadsKept s s := ⟨rfl, rfl⟩

theorem ThreadsKept.trans {s u v : State} (h : ThreadsKept s u) (k : ThreadsKept u v) : ThreadsKept s v :=
  ⟨k.1.trans h.1, k.2.trans h.2⟩

theorem ThreadsKept.classOf {s u : State} (h : ThreadsKept s u) : u.classOf 11 = s.classOf 11 :=
  congrArg (fun n => fieldOf n 24 3) h.2

/-- A change that leaves the threads and the registers leaves both. -/
theorem ThreadsKept.of_regs {s u : State} (ht : u.threads = s.threads) (hr : u.regs = s.regs) : ThreadsKept s u :=
  ⟨ht, State.rd_of_regs hr _⟩

theorem ThreadsKept.aside {s u : State} (h : Aside s u) : ThreadsKept s u := ⟨h.threads, h.rd _ rfl (by decide)⟩

theorem ThreadsKept.wr (s : State) (f : Fld) (v : Nat) (hf : f.blk ≠ .flt) : ThreadsKept s (s.wr f v) :=
  ⟨rfl, State.rd_of_word _ (State.word_wr _ _ _ _ _ (Or.inr (Ne.symm hf)))⟩

theorem State.denOff_threadsKept (s : State) (g : Fin 32) : ThreadsKept s (s.denOff g) :=
  foldl_rel ThreadsKept.refl (fun h k => h.trans k) (f := fun (s : State) c => s.modChan c fun k => { k with den := false })
    (fun _ _ => .of_regs rfl rfl) _ _

theorem State.measureCycle_threadsKept (s : State) (g : Fin 32) (idx bits span : Nat) : ThreadsKept s (s.measureCycle g idx bits span) := by
  have hover : ∀ (l : List (Fin 32)) (u : State), ThreadsKept u (l.foldl (fun (s : State) (k : Fin 32) => s.wr (F.FAB_DEMAND_MEAS_OVER k) 1) u) := fun l u =>
    foldl_rel ThreadsKept.refl (fun h k => h.trans k) (f := fun (s : State) (k : Fin 32) => s.wr (F.FAB_DEMAND_MEAS_OVER k) 1)
      (fun _ _ => ThreadsKept.wr _ _ _ nofun) l u
  unfold State.measureCycle
  dsimp only
  split
  · exact .of_regs rfl rfl
  · have hgran : ThreadsKept s ((s.modGrove g fun k => { k with traffic := k.traffic + bits, span := k.span + span }).modGrove g Grove.endGranule) :=
      .of_regs rfl rfl
    generalize State.modGrove (State.modGrove s g _) g Grove.endGranule = w at hgran ⊢
    have hpeak := hgran.trans (.wr w (F.FAB_DEMAND_MEAS_PEAK g) (min 2047 (max (w.rd (F.FAB_DEMAND_MEAS_PEAK g)) w.groves[g].demand)) (by nofun))
    generalize w.wr _ _ = v at hpeak ⊢
    refine hpeak.trans ?_
    split
    · exact .refl _
    · split
      · exact hover _ _
      · exact .refl _

/-- One order violation noted. -/
def State.noteViol (s : State) (g : Fin 32) (v : Viol) : State :=
  let s := s.incSat (if v.drive then F.TMG_CH_STAT_DROP_DRV v.ch else F.TMG_CH_STAT_DROP_CMP v.ch)
  let s := if s.on ⟨.tmg, Ev.tmg.ev, 3, 1⟩ then s
    else s.wrs [(F.TMG_ORDER_LOC_CH, v.ch), (F.TMG_ORDER_LOC_TS, v.ts), (F.TMG_ORDER_LOC_EVENT, v.event), (F.TMG_ORDER_LOC_RULE, v.rule)]
  (s.event Ev.tmg 3).faultOnce 11 (some g)

theorem State.noteViol_threadsKept {s : State} (hcls : s.classOf 11 < 2) (g : Fin 32) (v : Viol) : ThreadsKept s (s.noteViol g v) := by
  have hone : ThreadsKept s (s.incSat (if v.drive then F.TMG_CH_STAT_DROP_DRV v.ch else F.TMG_CH_STAT_DROP_CMP v.ch)) :=
    .wr _ _ _ (by split <;> nofun)
  have hplace : ∀ u : State, ThreadsKept u (if u.on ⟨.tmg, Ev.tmg.ev, 3, 1⟩ then u
      else u.wrs [(F.TMG_ORDER_LOC_CH, v.ch), (F.TMG_ORDER_LOC_TS, v.ts), (F.TMG_ORDER_LOC_EVENT, v.event), (F.TMG_ORDER_LOC_RULE, v.rule)]) := by
    intro u
    split
    · exact .refl u
    · exact (ThreadsKept.wr _ _ _ (by nofun)).trans ((ThreadsKept.wr _ _ _ (by nofun)).trans ((ThreadsKept.wr _ _ _ (by nofun)).trans
        (.wr _ _ _ (by nofun))))
  have hnoted := hone.trans (hplace _)
  obtain ⟨hfault, -, -, hregs⟩ := State.event_faultOnce (r := Ev.tmg) (bit := 3) (i := 11) (g := some g) (by decide)
    (hnoted.classOf ▸ hcls) (by decide) (by decide) (by decide) (by decide) rfl
  exact hnoted.trans ⟨hfault.threads, hregs.rd _ (by decide)⟩

theorem State.noteViols_threadsKept {s : State} (hcls : s.classOf 11 < 2) (g : Fin 32) (l : List Viol) : ThreadsKept s (s.noteViols g l) := by
  change ThreadsKept s (l.foldl (fun s v => s.noteViol g v) s)
  induction l generalizing s with
  | nil => exact .refl s
  | cons v l ih =>
    have hv := s.noteViol_threadsKept hcls g v
    exact hv.trans (ih (hv.classOf ▸ hcls))

/-- A fold of steps that each leave the threads of the state they carry. -/
theorem foldl_fst_threadsKept {α β : Type} {f : State × β → α → State × β} (hf : ∀ a x, ThreadsKept a.1 (f a x).1) (l : List α) (a : State × β) :
    ThreadsKept a.1 (l.foldl f a).1 :=
  foldl_rel (R := fun a b : State × β => ThreadsKept a.1 b.1) (fun _ => .refl _) (fun h k => h.trans k) hf l a

theorem State.lineCycle_threadsKept {s : State} (hcls : s.classOf 11 < 2) (g lead : Fin 32) (l : Line) (period : Nat) (cut : Bool)
    (levels : List ChanLevels) (hit : ParityHit) : ThreadsKept s (s.lineCycle g lead l period cut levels hit).1 := by
  unfold State.lineCycle
  dsimp only
  refine ThreadsKept.trans ?_ (State.measureCycle_threadsKept _ _ _ _ _)
  refine ThreadsKept.trans ?hchans (State.noteViols_threadsKept (ThreadsKept.classOf ?hchans ▸ hcls) _ _)
  refine foldl_fst_threadsKept ?_ _ _
  · intro a x
    split
    · exact .refl _
    · exact .of_regs rfl rfl

theorem State.startVoid_threadsKept (c : Cycle) (last : Bool) (s : State) (g : Fin 32) : ThreadsKept s (s.startVoid c last g) := by
  have hoff : ThreadsKept s (if s.hiz g then s.denOff g else s) := by
    split
    · exact s.denOff_threadsKept g
    · exact .refl s
  exact hoff.trans ((ThreadsKept.aside (Aside.refl _).dscVoid).trans ((State.measureCycle_threadsKept _ _ _ _ _).trans (.of_regs rfl rfl)))

theorem State.startLine_threadsKept {lead : Fin 32} {c : Cycle} {l : Line} {last : Bool} {ends : Fin 32 → Bool} {levels : List ChanLevels}
    {a : State × List ChanRes} (hcls : a.1.classOf 11 < 2) (g : Fin 32) : ThreadsKept a.1 (State.startLine lead c l last ends levels a g).1 :=
  (State.lineCycle_threadsKept hcls _ _ _ _ _ _ _).trans ((State.measureCycle_threadsKept _ _ _ _ _).trans (.of_regs rfl rfl))

/-! ### The command, grove by grove -/

/-- How many lines of a thread's pipe have begun before its oldest cycle. -/
def Thread.linesBegun (k : Thread) : Nat := k.lines - (k.pipe.filter fun c => c.line.isSome).length

/-- Whether a grove's cycle with a line is the last before a void cycle, the end, or the grove's detachment. -/
def Thread.endsFor (k : Thread) (rest : List Cycle) (g : Fin 32) : Bool :=
  k.lastBefore rest || k.detaching.any fun d => decide (d.2 = k.linesBegun + 1) && bitOf d.1 g.1

/-- The fold over the groves of a void cycle, whose channels see nothing. -/
theorem foldl_startVoid_fst (c : Cycle) (last : Bool) (l : List (Fin 32)) (a : State × List ChanRes) :
    (l.foldl (fun (a : State × List ChanRes) g => (a.1.startVoid c last g, a.2 ++ [])) a).1 = l.foldl (State.startVoid c last) a.1 := by
  induction l generalizing a with
  | nil => rfl
  | cons g l ih => exact ih _

theorem exec_cycleStart_void {t : Fin 32} {levels : List ChanLevels} {c : Cycle} {rest : List Cycle} {s : State} (hpipe : s.threads[t].pipe = c :: rest)
    (hrun : s.threadAt t [.running] = true) (hline : c.line = none) : ∃ (at_ ends : Nat) (res : List ChanRes) (unref : Bool),
      exec (.cycleStart t levels .none) s =
        .next (((grovesIn (s.threads[t].liveAt s.threads[t].linesBegun)).foldl (State.startVoid c (s.threads[t].lastBefore rest)) s).modThread t
          (Thread.begun c rest at_ res unref ends)) := by
  obtain ⟨_, line, _⟩ := c
  obtain rfl : line = none := hline
  have hbegun : s.threads[t].linesBegun = s.threads[t].lines - ((_ :: rest).filter fun c => c.line.isSome).length :=
    congrArg (fun p => s.threads[t].lines - (p.filter fun c : Cycle => c.line.isSome).length) hpipe
  refine ⟨?_, ?_, ?_, ?_, ?_⟩
  rotate_left 4
  · rw [← foldl_startVoid_fst _ _ _ (s, []), hbegun]
    change execCycleStart t levels .none s = _
    unfold execCycleStart
    dsimp only
    rw [hpipe]
    dsimp only
    rw [if_neg (by rw [hrun]; decide)]
    rfl

/-- The state and the channels' results after the start of a cycle with a line on its groves. -/
def State.startLines (s : State) (t : Fin 32) (levels : List ChanLevels) (c : Cycle) (l : Line) (rest : List Cycle) : State × List ChanRes :=
  (grovesIn (s.threads[t].liveAt s.threads[t].linesBegun)).foldl
    (State.startLine (s.lead t) c l (s.threads[t].lastBefore rest) (s.threads[t].endsFor rest) levels) (s, [])

theorem exec_cycleStart_line {t : Fin 32} {levels : List ChanLevels} {c : Cycle} {l : Line} {rest : List Cycle} {s : State} (hpipe : s.threads[t].pipe = c :: rest)
    (hrun : s.threadAt t [.running] = true) (hline : c.line = some l) : ∃ (at_ ends begins : Nat) (unref : Bool),
      exec (.cycleStart t levels .none) s =
        .next (((s.startLines t levels c l rest).1.modThread t (Thread.begun c rest at_ (s.startLines t levels c l rest).2 unref ends)).lineEvents t l
          (grovesIn (s.threads[t].liveAt s.threads[t].linesBegun)) c.idx begins) := by
  obtain ⟨_, line, _⟩ := c
  obtain rfl : line = some l := hline
  have hbegun : s.threads[t].linesBegun = s.threads[t].lines - ((_ :: rest).filter fun c => c.line.isSome).length :=
    congrArg (fun p => s.threads[t].lines - (p.filter fun c : Cycle => c.line.isSome).length) hpipe
  refine ⟨?_, ?_, ?_, ?_, ?_⟩
  rotate_left 4
  · unfold State.startLines Thread.endsFor
    rw [hbegun]
    change execCycleStart t levels .none s = _
    unfold execCycleStart
    dsimp only
    rw [hpipe]
    dsimp only
    rw [if_neg (by rw [hrun]; decide)]
    rfl

theorem State.startLines_threadsKept {s : State} (hcls : s.classOf 11 < 2) (t : Fin 32) (levels : List ChanLevels) (c : Cycle) (l : Line)
    (rest : List Cycle) : ThreadsKept s (s.startLines t levels c l rest).1 := by
  unfold State.startLines
  generalize grovesIn _ = groves
  generalize s.lead t = lead
  generalize s.threads[t] = k
  generalize ([] : List ChanRes) = res
  induction groves generalizing s res with
  | nil => exact .refl s
  | cons g groves ih =>
    have hg := State.startLine_threadsKept (lead := lead) (c := c) (l := l) (last := k.lastBefore rest) (ends := k.endsFor rest) (levels := levels)
      (a := (s, res)) hcls g
    exact hg.trans (ih (hg.classOf ▸ hcls) _)

/-- The thread after its oldest committed cycle has begun. -/
theorem Thread.begun_threads {s u v : State} {t : Fin 32} {c : Cycle} {rest : List Cycle} {at_ ends : Nat} {res : List ChanRes} {unref : Bool}
    (hu : ThreadsKept s u) (hv : v.threads = (u.modThread t (Thread.begun c rest at_ res unref ends)).threads) :
    v.threads[t].pipe = rest ∧ (∃ r un e at_, v.threads[t].started = s.threads[t].started ++ [⟨{ c with start := at_ }, r, un, e⟩]) ∧
      v.threads[t].cycles = s.threads[t].cycles ∧ ∀ w, w ≠ t → v.threads[w] = s.threads[w] := by
  have hsame : v.threads[t] = Thread.begun c rest at_ res unref ends s.threads[t] := by
    rw [hv, ← hu.1]
    exact upd_same _ _ _
  rw [hsame]
  refine ⟨rfl, ⟨_, _, _, _, rfl⟩, rfl, fun w hw => ?_⟩
  rw [hv, ← hu.1]
  exact upd_other _ _ _ _ hw

/-- The oldest committed cycle begins. -/
theorem cycleStart_begins (t : Fin 32) (levels : List ChanLevels) (c : Cycle) (rest : List Cycle) (s : State) (hpipe : s.threads[t].pipe = c :: rest)
    (hrun : s.threadAt t [.running] = true) (hcls : s.classOf 11 < 2) : Answers (.cycleStart t levels .none) s fun u =>
      u.threads[t].pipe = rest ∧ (∃ r un e at_, u.threads[t].started = s.threads[t].started ++ [⟨{ c with start := at_ }, r, un, e⟩]) ∧
      u.threads[t].cycles = s.threads[t].cycles ∧ ∀ v, v ≠ t → u.threads[v] = s.threads[v] := by
  rcases Option.eq_none_or_eq_some c.line with hline | ⟨l, hline⟩
  · obtain ⟨at_, ends, res, unref, hexec⟩ := exec_cycleStart_void (levels := levels) hpipe hrun hline
    exact ⟨_, hexec, Thread.begun_threads (foldl_rel ThreadsKept.refl (fun h k => h.trans k) (fun u g => u.startVoid_threadsKept _ _ g) _ _) rfl⟩
  · obtain ⟨at_, ends, begins, unref, hexec⟩ := exec_cycleStart_line (levels := levels) hpipe hrun hline
    exact ⟨_, hexec, Thread.begun_threads (s.startLines_threadsKept hcls t levels c l rest) (Aside.refl _).lineEvents.threads⟩

/-! ## The result of a cycle: its threads -/

theorem State.ite_threads {s a b : State} {p : Prop} [Decidable p] (ha : a.threads = s.threads) (hb : b.threads = s.threads) :
    (if p then a else b).threads = s.threads := by
  split
  · exact ha
  · exact hb

theorem foldl_threads {α : Type} {f : State → α → State} (hf : ∀ s a, (f s a).threads = s.threads) (l : List α) (s : State) :
    (l.foldl f s).threads = s.threads :=
  foldl_rel (R := fun s u : State => u.threads = s.threads) (fun _ => rfl) (fun h k => k.trans h) hf l s

theorem State.event_cap_threads (s : State) (n : Nat) : (s.event Ev.cap n).threads = s.threads := (Aside.refl s).event.threads

theorem State.capWrite_threads (s : State) (g : Fin 32) (off : Nat) (l : List Byte) : (s.capWrite g off l).threads = s.threads :=
  (Aside.refl s).capWrite.threads

theorem State.feedEngines_threads (s : State) (g : Fin 32) (c : Started) (l : List (Nat × ChanRes)) (only : Bool) :
    (s.feedEngines g c l only).threads = s.threads := (Aside.refl s).feedEngines.threads

theorem State.tellPeers_threads (s : State) (g : Fin 32) (failed judged : Bool) : (s.tellPeers g failed judged).threads = s.threads := by
  unfold State.tellPeers
  dsimp only
  split <;> rfl

theorem State.noteSat_threads (s : State) (g : Fin 32) : (s.noteSat g).threads = s.threads := State.event_cap_threads _ _

theorem State.count48_threads (s : State) (g : Fin 32) (f : Fld) (n : Nat) : (s.count48 g f n).threads = s.threads := by
  unfold State.count48
  dsimp only
  split
  · exact State.noteSat_threads _ _
  · rfl

theorem State.countCycle_threads (s : State) (g : Fin 32) (l : List (Nat × ChanRes)) : (s.countCycle g l).threads = s.threads := by
  unfold State.countCycle
  dsimp only
  have hfold := foldl_threads (f := fun (s : State) (ch : Nat) =>
      if (s.incSat (F.CAP_CH_FAIL_COUNT ch)).rd (F.CAP_CH_FAIL_COUNT ch) = 2 ^ 32 - 1 then (s.incSat (F.CAP_CH_FAIL_COUNT ch)).noteSat g
      else s.incSat (F.CAP_CH_FAIL_COUNT ch)) fun s ch => State.ite_threads (State.noteSat_threads _ _) rfl
  exact (hfold _ _).trans (((State.count48_threads _ _ _ _).trans (State.count48_threads _ _ _ _)).trans (State.count48_threads _ _ _ _))

theorem State.firstFail_threads (s : State) (g : Fin 32) (at_ : Loc) (l : List (Nat × ChanRes)) : (s.firstFail g at_ l).threads = s.threads := by
  unfold State.firstFail
  split
  · rfl
  · split
    · rfl
    · exact State.wrs_threads _ _

theorem State.flagLoss_threads (s : State) (g : Fin 32) (first : Bool) : (s.flagLoss g first).threads = s.threads := by
  unfold State.flagLoss
  split
  · exact State.capWrite_threads _ _ _ _
  · rfl

theorem State.loseFail_threads (s : State) (g : Fin 32) : (s.loseFail g).threads = s.threads :=
  (State.flagLoss_threads _ _ _).trans (State.event_cap_threads _ _)

theorem State.loseVal_threads (s : State) (g : Fin 32) : (s.loseVal g).threads = s.threads :=
  (State.flagLoss_threads _ _ _).trans (State.event_cap_threads _ _)

theorem State.addFail_threads (s : State) (g : Fin 32) (l : List Byte) : (s.addFail g l).threads = s.threads := by
  unfold State.addFail
  dsimp only
  split
  · exact State.loseFail_threads _ _
  · split
    · exact State.capWrite_threads _ _ _ _
    · split
      · exact (State.loseFail_threads _ _).trans (State.capWrite_threads _ _ _ _)
      · exact State.loseFail_threads _ _

theorem State.fillTable_threads (s : State) (g : Fin 32) (at_ : Loc) (l : List (Nat × ChanRes)) : (s.fillTable g at_ l).threads = s.threads := by
  unfold State.fillTable
  dsimp only
  split
  · exact State.loseFail_threads _ _
  · split
    · exact foldl_threads (fun _ _ => State.capWrite_threads _ _ _ _) _ _
    · rfl

theorem State.endVisit_threads (s : State) (g : Fin 32) (ended : Bool) : (s.endVisit g ended).threads = s.threads := by
  unfold State.endVisit
  split
  · rfl
  · dsimp only
    split
    · rfl
    · exact State.addFail_threads _ _ _

theorem State.visitCycle_threads (s : State) (g : Fin 32) (cyc : Nat) (line : Option Line) (unref : Bool) (mask : Nat) :
    (s.visitCycle g cyc line unref mask).threads = s.threads := by
  unfold State.visitCycle
  split
  · rfl
  · rcases line with _ | l
    · rfl
    · dsimp only
      rw [State.modGrove_threads]
      split
      · exact State.endVisit_threads _ _ _
      · rfl

theorem State.endBin_threads (s : State) (g : Fin 32) (m : MapRun) : (s.endBin g m).1.threads = s.threads := by
  unfold State.endBin
  split
  · rfl
  · dsimp only
    split
    · rfl
    · exact State.addFail_threads _ _ _

theorem State.mapCycle_threads (s : State) (g : Fin 32) (cyc mask : Nat) : (s.mapCycle g cyc mask).threads = s.threads := by
  unfold State.mapCycle
  dsimp only
  split
  · rfl
  · split
    · rfl
    · exact State.endBin_threads _ _ _

theorem State.failRecord_threads (s : State) (g : Fin 32) (at_ : Loc) (l : List (Nat × ChanRes)) (mask : Nat) :
    (s.failRecord g at_ l mask).threads = s.threads := by
  unfold State.failRecord
  split
  · rfl
  · split
    · exact State.addFail_threads _ _ _
    · exact State.mapCycle_threads _ _ _ _
    · rfl

theorem State.endGran_threads (s : State) (g : Fin 32) : (s.endGran g).threads = s.threads := by
  unfold State.endGran
  split
  · rfl
  · exact State.ite_threads (State.loseVal_threads _ _)
      ((State.capWrite_threads _ _ _ _).trans (foldl_threads (fun _ _ => State.loseVal_threads _ _) _ _))

theorem State.valueCycle_threads (s : State) (g : Fin 32) (cyc : Nat) (unref : Bool) (l : List (Nat × ChanRes)) :
    (s.valueCycle g cyc unref l).threads = s.threads := by
  unfold State.valueCycle
  split
  · rfl
  · dsimp only
    rw [State.modGrove_threads]
    split
    · split
      · exact State.endGran_threads _ _
      · rfl
    · rfl

/-- What the result of a cycle leaves of the threads: all but the passes of `t`. -/
def PassesOnly (t : Fin 32) (s u : State) : Prop :=
  (∃ p, u.threads[t] = { s.threads[t] with passes := p }) ∧ ∀ v, v ≠ t → u.threads[v] = s.threads[v]

theorem PassesOnly.of_threads {t : Fin 32} {s u : State} (h : u.threads = s.threads) : PassesOnly t s u := by
  refine ⟨⟨s.threads[t].passes, ?_⟩, fun v _ => ?_⟩ <;> rw [h]

theorem PassesOnly.trans {t : Fin 32} {s u v : State} (h : PassesOnly t s u) (k : PassesOnly t u v) : PassesOnly t s v := by
  obtain ⟨⟨p, hp⟩, hother⟩ := h
  obtain ⟨⟨q, hq⟩, hother'⟩ := k
  exact ⟨⟨q, by rw [hq, hp]⟩, fun w hw => (hother' w hw).trans (hother w hw)⟩

theorem PassesOnly.pass (t : Fin 32) (s : State) (g line : Nat) (judged failed : Bool) : PassesOnly t s (s.modThread t (passCycle g line judged failed)) :=
  ⟨⟨_, upd_same _ _ _⟩, fun v hv => upd_other _ _ _ _ hv⟩

theorem State.groveCycle_passesOnly (s : State) (t : Fin 32) (c : Started) (g : Fin 32) : PassesOnly t s (s.groveCycle t c g) := by
  unfold State.groveCycle
  dsimp only
  have hunref : ∀ u : State, (if c.unref then u.modGrove g fun k => { k with unrefFirst := extend c.cyc.idx k.unrefFirst, unrefLast := some c.cyc.idx }
      else u).threads = u.threads := fun u => State.ite_threads rfl rfl
  have hseen : (s.modGrove g fun k => { k with lastAny := some c.cyc.idx }).threads = s.threads := rfl
  generalize (s.modGrove g fun k => { k with lastAny := some c.cyc.idx }) = s₁ at hseen ⊢
  replace hunref := (hunref s₁).trans hseen
  generalize (if c.unref then State.modGrove s₁ g _ else s₁) = s₂ at hunref ⊢
  split
  · exact .of_threads ((State.feedEngines_threads _ _ _ _ _).trans ((State.visitCycle_threads _ _ _ _ _ _).trans hunref))
  · rename_i l
    generalize hs₃ : State.tellPeers _ g _ _ = s₃
    have htold : PassesOnly t s s₃ := .of_threads (by rw [← hs₃]; exact (State.tellPeers_threads _ _ _ _).trans hunref)
    refine htold.trans ?_
    split
    · exact (PassesOnly.pass t s₃ _ _ _ _).trans (.of_threads ((State.feedEngines_threads _ _ _ _ _).trans (State.visitCycle_threads _ _ _ _ _ _)))
    · refine .of_threads ?_
      refine (State.feedEngines_threads _ _ _ _ _).trans ((State.valueCycle_threads _ _ _ _ _).trans ((State.failRecord_threads _ _ _ _ _).trans
        ((State.visitCycle_threads _ _ _ _ _ _).trans ?_)))
      have hfill : ∀ at_ l, (((s₃.countCycle g l).firstFail g at_ l).fillTable g at_ l).threads = s₃.threads := fun at_ l =>
        (State.fillTable_threads _ _ _ _).trans ((State.firstFail_threads _ _ _ _).trans (State.countCycle_threads _ _ _))
      exact State.ite_threads (hfill _ _) (hfill _ _)

/-! ## The result of a cycle: what a push leaves of its thread -/

/-- What the pushing of lines leaves of the threads: of `t`, all but the queues of lines and granules. -/
def QueuesOnly (t : Fin 32) (s u : State) : Prop :=
  ∃ (todo : List Emit) (fifo : List Line) (grans : List Gran), u.threads[t] = { s.threads[t] with todo := todo, fifo := fifo, grans := grans }

theorem State.push_queuesOnly (t : Fin 32) (n : Nat) (s : State) : QueuesOnly t s (s.push t n) := by
  induction n generalizing s with
  | zero => exact ⟨_, _, _, rfl⟩
  | succ n ih =>
    unfold State.push
    dsimp only
    split
    · exact ⟨_, _, _, rfl⟩
    · split
      · exact ⟨_, _, _, rfl⟩
      · split
        · exact ⟨_, _, _, rfl⟩
        · obtain ⟨todo, fifo, grans, h⟩ := ih (State.modThread s t _)
          exact ⟨todo, fifo, grans, h.trans (by rw [State.modThread_threads, upd_same])⟩

theorem State.pushLines_queuesOnly (t : Fin 32) (s : State) : QueuesOnly t s (s.pushLines t) := by
  obtain ⟨todo, fifo, grans, h⟩ := s.push_queuesOnly t 4096
  have hfill : (s.pushLines t).threads = (s.push t 4096).threads := by
    unfold State.pushLines State.noteFill
    exact foldl_threads (f := fun (s : State) (g : Fin 32) => s.wr (F.FAB_FILL_FILL g) s.threads[t].fifo.length) (fun _ _ => rfl) _ _
  exact ⟨todo, fifo, grans, by rw [hfill, h]⟩

/-- With no member to detach and cycles left, the check of the end leaves the groves and the registers. -/
theorem State.checkEnd_running {s : State} {t : Fin 32} (hdet : s.threads[t].detaching = []) (hleft : s.threads[t].drained = false) :
    ∃ f, s.checkEnd t = s.modThread t f ∧ f s.threads[t] = s.threads[t] := by
  unfold State.checkEnd
  split
  · exact ⟨id, by rw [State.modThread, upd_id], rfl⟩
  · rw [hdet]
    dsimp only [List.filter_nil, List.foldl_nil]
    have hself : (fun k : Thread => { k with detaching := k.detaching.filter fun d => !List.contains [] d }) s.threads[t] = s.threads[t] := by
      dsimp only
      rw [hdet, List.filter_nil, ← hdet]
    refine ⟨_, if_pos ?_, hself⟩
    rw [State.modThread_threads, upd_same]
    exact hleft

/-! ## A step of each grove in turn -/

/-- A fold of steps that each change one grove's value, and no other's, changes the value of each grove of the list once. -/
theorem foldl_eachOnce {β : Type} {V : State → Fin 32 → β} {h : β → β} {f : State → Fin 32 → State} (hself : ∀ s g, V (f s g) g = h (V s g))
    (hother : ∀ s g k, k ≠ g → V (f s g) k = V s k) {l : List (Fin 32)} (hl : l.Nodup) (s : State) :
    (∀ g ∈ l, V (l.foldl f s) g = h (V s g)) ∧ ∀ g, g ∉ l → V (l.foldl f s) g = V s g := by
  induction l generalizing s with
  | nil => exact ⟨nofun, fun _ _ => rfl⟩
  | cons a l ih =>
    obtain ⟨ha, hl⟩ := List.nodup_cons.1 hl
    obtain ⟨hin, hout⟩ := ih hl (f s a)
    refine ⟨fun g hg => ?_, fun g hg => ?_⟩
    · rcases List.mem_cons.1 hg with rfl | hg
      · exact (hout g ha).trans (hself s g)
      · exact (hin g hg).trans (congrArg h (hother s a g fun e => ha (e ▸ hg)))
    · obtain ⟨hne, hg⟩ := not_or.1 (fun h => hg (List.mem_cons.2 h))
      exact (hout g hg).trans (hother s a g hne)

theorem grovesIn_nodup (m : Nat) : (grovesIn m).Nodup := (List.nodup_finRange 32).filter _

/-! ### The starts of a void cycle -/

theorem State.denOff_groves (s : State) (g : Fin 32) : (s.denOff g).groves = s.groves :=
  foldl_rel (R := fun s u : State => u.groves = s.groves) (f := fun (s : State) c => s.modChan c fun k => { k with den := false })
    (fun _ => rfl) (fun h k => k.trans h) (fun _ _ => rfl) _ _

/-- Where a grove's next cycle starts, and its period. -/
def State.cycleOf (s : State) (g : Fin 32) : Nat × Nat := (s.groves[g].start, s.groves[g].period)

theorem State.modGrove_cycleOf (s : State) (g k : Fin 32) {f : Grove → Grove} (hf : ∀ x, (f x).start = x.start ∧ (f x).period = x.period) :
    (s.modGrove g f).cycleOf k = s.cycleOf k :=
  Prod.ext (upd_keeps s.groves Grove.start fun x => (hf x).1) (upd_keeps s.groves Grove.period fun x => (hf x).2)

theorem State.cycleOf_of_groves {s u : State} (h : u.groves = s.groves) (g : Fin 32) : u.cycleOf g = s.cycleOf g := by
  unfold State.cycleOf
  rw [h]

theorem State.measureCycle_cycleOf (s : State) (g k : Fin 32) (idx bits span : Nat) : (s.measureCycle g idx bits span).cycleOf k = s.cycleOf k := by
  have hover : ∀ (l : List (Fin 32)) (u : State), (l.foldl (fun (s : State) (k : Fin 32) => s.wr (F.FAB_DEMAND_MEAS_OVER k) 1) u).groves = u.groves :=
    fun l u => foldl_rel (R := fun s u : State => u.groves = s.groves) (f := fun (s : State) (k : Fin 32) => s.wr (F.FAB_DEMAND_MEAS_OVER k) 1)
      (fun _ => rfl) (fun h k => k.trans h) (fun s k => State.wr_groves s (F.FAB_DEMAND_MEAS_OVER k) 1) l u
  have hcount : (s.modGrove g fun k => { k with traffic := k.traffic + bits, span := k.span + span }).cycleOf k = s.cycleOf k :=
    s.modGrove_cycleOf g k fun _ => ⟨rfl, rfl⟩
  have hgran : ∀ u : State, (u.modGrove g Grove.endGranule).cycleOf k = u.cycleOf k := fun u => u.modGrove_cycleOf g k fun _ => ⟨rfl, rfl⟩
  unfold State.measureCycle
  dsimp only
  split
  · exact hcount
  · replace hgran := (hgran _).trans hcount
    generalize State.modGrove (State.modGrove s g _) g Grove.endGranule = w at hgran ⊢
    rw [← hgran]
    have hpeak : (w.wr (F.FAB_DEMAND_MEAS_PEAK g) (min 2047 (max (w.rd (F.FAB_DEMAND_MEAS_PEAK g)) w.groves[g].demand))).groves = w.groves := rfl
    generalize w.wr _ _ = v at hpeak ⊢
    rw [← State.cycleOf_of_groves hpeak]
    split
    · rfl
    · split
      · exact State.cycleOf_of_groves (hover _ _) k
      · rfl

/-- What a grove's state held before its start of a void cycle was taken note of. -/
theorem State.startVoid_before (c : Cycle) (s : State) (g k : Fin 32) :
    (((if s.hiz g then s.denOff g else s).dscVoid g).measureCycle g c.idx 0 s.groves[g].period).cycleOf k = s.cycleOf k := by
  rw [State.measureCycle_cycleOf, State.cycleOf_of_groves (Aside.refl _).dscVoid.groves]
  split
  · exact State.cycleOf_of_groves (State.denOff_groves _ _) k
  · rfl

theorem State.startVoid_cycleOf_same (c : Cycle) (last : Bool) (s : State) (g : Fin 32) :
    (s.startVoid c last g).cycleOf g = ((s.cycleOf g).1 + (s.cycleOf g).2, (s.cycleOf g).2) := by
  have hbefore := s.startVoid_before c g g
  unfold State.startVoid
  dsimp only
  generalize State.measureCycle _ g c.idx 0 _ = u at hbefore ⊢
  unfold State.cycleOf
  rw [show (u.modGrove g _).groves = upd u.groves g _ from rfl, upd_same]
  exact Prod.ext (congrArg (· + s.groves[g].period) (congrArg Prod.fst hbefore)) rfl

theorem State.startVoid_cycleOf_other (c : Cycle) (last : Bool) (s : State) (g k : Fin 32) (hk : k ≠ g) :
    (s.startVoid c last g).cycleOf k = s.cycleOf k := by
  rw [← s.startVoid_before c g k]
  unfold State.startVoid
  dsimp only
  generalize State.measureCycle _ g c.idx 0 _ = u
  unfold State.cycleOf
  rw [show (u.modGrove g _).groves = upd u.groves g _ from rfl, upd_other _ _ _ _ hk]

theorem Thread.liveAt_of_none {k : Thread} (h : k.detaching = []) (n : Nat) : k.liveAt n = k.members := by
  rw [Thread.liveAt, h]
  rfl

/-- A void cycle lasts one period of each grove. -/
theorem cycleStart_void_periods (t : Fin 32) (levels : List ChanLevels) (c : Cycle) (rest : List Cycle) (s : State) (hpipe : s.threads[t].pipe = c :: rest)
    (hrun : s.threadAt t [.running] = true) (hline : c.line = none) (hdet : s.threads[t].detaching = []) : Answers (.cycleStart t levels .none) s fun u =>
      ∀ g ∈ grovesIn s.threads[t].members, u.groves[g].start = s.groves[g].start + s.groves[g].period ∧ u.groves[g].period = s.groves[g].period := by
  obtain ⟨at_, ends, res, unref, hexec⟩ := exec_cycleStart_void (levels := levels) hpipe hrun hline
  rw [Thread.liveAt_of_none hdet] at hexec
  refine ⟨_, hexec, fun g hg => ?_⟩
  obtain ⟨heach, -⟩ := foldl_eachOnce (V := State.cycleOf) (h := fun p => (p.1 + p.2, p.2)) (State.startVoid_cycleOf_same c (s.threads[t].lastBefore rest))
    (State.startVoid_cycleOf_other c _) (grovesIn_nodup s.threads[t].members) s
  exact ⟨congrArg Prod.fst (heach g hg), congrArg Prod.snd (heach g hg)⟩

/-! ## The result of a cycle -/

/-- The state after a cycle's results were combined, before its thread pushes lines and is checked for its end. -/
def State.combined (s : State) (t : Fin 32) (c : Started) (rest : List Started) : State :=
  (grovesIn (s.threads[t].liveAt s.threads[t].resTo)).foldl (fun s g => s.snapCycle g c.cyc.idx)
    (((grovesIn (s.threads[t].liveAt s.threads[t].resTo)).foldl (fun s g => s.groveCycle t c g) s).modThread t fun k =>
      { k with started := rest, resTo := k.resTo + b2n c.cyc.line.isSome })

theorem exec_cycleResult {t : Fin 32} {c : Started} {rest : List Started} {s : State} (hstarted : s.threads[t].started = c :: rest) :
    exec (.cycleResult t) s = .next (((s.combined t c rest).pushLines t).checkEnd t) := by
  change execCycleResult t s = _
  unfold execCycleResult
  dsimp only
  rw [hstarted]
  rfl

theorem State.combined_threads (s : State) (t : Fin 32) (c : Started) (rest : List Started) :
    (∃ p, (s.combined t c rest).threads[t] = { s.threads[t] with passes := p, started := rest, resTo := s.threads[t].resTo + b2n c.cyc.line.isSome }) ∧
      ∀ v, v ≠ t → (s.combined t c rest).threads[v] = s.threads[v] := by
  unfold State.combined
  generalize grovesIn (s.threads[t].liveAt s.threads[t].resTo) = l
  obtain ⟨⟨p, hp⟩, hother⟩ := foldl_rel (R := PassesOnly t) (fun _ => .of_threads rfl) (fun h k => h.trans k) (fun s g => s.groveCycle_passesOnly t c g) l s
  generalize l.foldl (fun s g => s.groveCycle t c g) s = u at hp hother ⊢
  have hsnap : ∀ w : State, (l.foldl (fun s g => s.snapCycle g c.cyc.idx) w).threads = w.threads :=
    fun w => foldl_threads (fun _ _ => (Aside.refl _).snapCycle.threads) l w
  refine ⟨⟨p, ?_⟩, fun v hv => ?_⟩
  · rw [hsnap, State.modThread_threads, upd_same, hp]
  · rw [hsnap, State.modThread_threads, upd_other _ _ _ _ hv, hother v hv]

/-- What the result of a cycle leaves, with no member to detach and cycles left: a state as after the push, whose thread `t` is none other. -/
theorem exec_cycleResult_running {t : Fin 32} {c : Started} {rest : List Started} {s : State} (hstarted : s.threads[t].started = c :: rest)
    (hdet : s.threads[t].detaching = []) (hleft : rest ≠ [] ∨ s.threads[t].pipe ≠ []) : ∃ f,
      exec (.cycleResult t) s = .next (((s.combined t c rest).pushLines t).modThread t f) ∧
      f ((s.combined t c rest).pushLines t).threads[t] = ((s.combined t c rest).pushLines t).threads[t] := by
  obtain ⟨⟨p, hp⟩, -⟩ := s.combined_threads t c rest
  obtain ⟨todo, fifo, grans, hq⟩ := (s.combined t c rest).pushLines_queuesOnly t
  obtain ⟨f, hend, hf⟩ := State.checkEnd_running (s := (s.combined t c rest).pushLines t) (t := t) (by rw [hq, hp]; exact hdet) (by
    rw [hq, hp]
    rcases hleft with h | h
    · exact Bool.and_eq_false_iff.2 (.inr (List.isEmpty_eq_false_iff.2 h))
    · exact Bool.and_eq_false_iff.2 (.inl (List.isEmpty_eq_false_iff.2 h)))
  exact ⟨f, by rw [exec_cycleResult hstarted, hend], hf⟩

/-- The oldest cycle's results are combined, and its thread goes on. -/
theorem cycleResult_combines (t : Fin 32) (c : Started) (rest : List Started) (s : State) (hstarted : s.threads[t].started = c :: rest)
    (hdet : s.threads[t].detaching = []) (hleft : rest ≠ [] ∨ s.threads[t].pipe ≠ []) : Answers (.cycleResult t) s fun u =>
      u.threads[t].started = rest ∧ u.threads[t].resTo = s.threads[t].resTo + b2n c.cyc.line.isSome ∧ ∀ v, v ≠ t → u.threads[v] = s.threads[v] := by
  obtain ⟨f, hexec, hf⟩ := exec_cycleResult_running hstarted hdet hleft
  obtain ⟨⟨p, hp⟩, hother⟩ := s.combined_threads t c rest
  obtain ⟨todo, fifo, grans, hq⟩ := (s.combined t c rest).pushLines_queuesOnly t
  obtain ⟨-, -, -, -, hpushed, -⟩ := State.pushLines_frame t (s.combined t c rest)
  refine ⟨_, hexec, ?_, ?_, fun v hv => ?_⟩
  · rw [State.modThread_threads, upd_same, hf, hq, hp]
  · rw [State.modThread_threads, upd_same, hf, hq, hp]
  · rw [State.modThread_threads, upd_other _ _ _ _ hv, hpushed v hv, hother v hv]

/-! ### The void cycles of a grove -/

/-- A grove's last void cycle, and its count of void cycles. -/
def State.voidsOf (s : State) (g : Fin 32) : Option Nat × Nat := (s.groves[g].voidLast, s.rdP (F.FAB_VOID_CNT_LO_COUNT g))

/-- A grove's state after a void cycle's result, before its visit and the trigger engines see it. -/
def State.countVoid (s : State) (cyc : Nat) (unref : Bool) (g : Fin 32) : State :=
  let s := s.modGrove g fun k => { k with lastAny := some cyc }
  let s := if unref then s.modGrove g fun k => { k with unrefFirst := extend cyc k.unrefFirst, unrefLast := some cyc } else s
  let s := s.modGrove g fun k => { k with voidFirst := extend cyc k.voidFirst, voidLast := some cyc }
  s.wrP (F.FAB_VOID_CNT_LO_COUNT g) (s.rdP (F.FAB_VOID_CNT_LO_COUNT g) + 1)

theorem State.groveCycle_void {c : Started} (hline : c.cyc.line = none) (s : State) (t g : Fin 32) :
    s.groveCycle t c g = ((s.countVoid c.cyc.idx c.unref g).visitCycle g c.cyc.idx none c.unref 0).feedEngines g c [] := by
  unfold State.groveCycle State.countVoid
  rw [hline]

theorem State.voidsOf_modGrove (s : State) (g k : Fin 32) {f : Grove → Grove} (hf : ∀ x, (f x).voidLast = x.voidLast) :
    (s.modGrove g f).voidsOf k = s.voidsOf k :=
  Prod.ext (upd_keeps s.groves Grove.voidLast hf) rfl

theorem State.visitCycle_void_voidsOf (s : State) (g k : Fin 32) (cyc : Nat) (unref : Bool) (mask : Nat) :
    (s.visitCycle g cyc none unref mask).voidsOf k = s.voidsOf k := by
  unfold State.visitCycle
  split
  · rfl
  · exact State.voidsOf_modGrove _ _ _ fun _ => rfl

theorem voidCount_notMem_occOut (k : Fin 32) : (F.FAB_VOID_CNT_LO_COUNT k).addr ∉ occOut ∧ (F.FAB_VOID_CNT_LO_COUNT k).addr + 4 ∉ occOut := by
  have hlow : ∀ a ∈ occOut, 0x30000 ≤ a := by decide
  refine ⟨fun hm => ?_, fun hm => ?_⟩ <;> (have h := hlow _ hm; simp only [F.FAB_VOID_CNT_LO_COUNT] at h; omega)

theorem Aside.voidsOf {s u : State} (h : Aside s u) (k : Fin 32) : u.voidsOf k = s.voidsOf k := by
  unfold State.voidsOf
  obtain ⟨hlo, hhi⟩ := voidCount_notMem_occOut k
  rw [h.groves, State.rdP, State.rdP, h.rd _ rfl hlo, h.rd _ rfl hhi]

/-- The grove's state before its count, which an uncertain cycle may mark as such. -/
theorem State.seen_voidsOf (s : State) (g k : Fin 32) (cyc : Nat) (unref : Bool) :
    (if unref then (s.modGrove g fun k => { k with lastAny := some cyc }).modGrove g fun k =>
      { k with unrefFirst := extend cyc k.unrefFirst, unrefLast := some cyc } else s.modGrove g fun k => { k with lastAny := some cyc }).voidsOf k =
      s.voidsOf k := by
  split
  · refine (State.voidsOf_modGrove _ g k ?_).trans (State.voidsOf_modGrove s g k ?_) <;> exact fun _ => rfl
  · exact State.voidsOf_modGrove _ _ _ fun _ => rfl

theorem State.countVoid_voidsOf_same (s : State) (cyc : Nat) (unref : Bool) (g : Fin 32) :
    (s.countVoid cyc unref g).voidsOf g = (some cyc, ((s.voidsOf g).2 + 1) % 2 ^ 64) := by
  have hseen := s.seen_voidsOf g g cyc unref
  unfold State.countVoid
  dsimp only
  generalize (if unref then State.modGrove (State.modGrove s g _) g _ else State.modGrove s g _) = u at hseen ⊢
  rw [← hseen]
  refine Prod.ext ?_ (State.rdP_wrP_mod _ _ rfl rfl)
  exact congrArg Grove.voidLast (upd_same u.groves g _)

theorem State.countVoid_voidsOf_other (s : State) (cyc : Nat) (unref : Bool) {g k : Fin 32} (hk : k ≠ g) :
    (s.countVoid cyc unref g).voidsOf k = s.voidsOf k := by
  have hseen := s.seen_voidsOf g k cyc unref
  unfold State.countVoid
  dsimp only
  generalize (if unref then State.modGrove (State.modGrove s g _) g _ else State.modGrove s g _) = u at hseen ⊢
  rw [← hseen]
  refine Prod.ext ?_ (State.rdP_wrP_apart _ _ ?_)
  · exact congrArg Grove.voidLast (upd_other u.groves g k _ hk)
  · have hne : k.1 ≠ g.1 := fun e => hk (Fin.ext e)
    simp only [F.FAB_VOID_CNT_LO_COUNT]
    omega

theorem State.groveCycle_voidsOf_same {c : Started} (hline : c.cyc.line = none) (t : Fin 32) (s : State) (g : Fin 32) :
    (s.groveCycle t c g).voidsOf g = (some c.cyc.idx, ((s.voidsOf g).2 + 1) % 2 ^ 64) := by
  rw [State.groveCycle_void hline, (Aside.refl _).feedEngines.voidsOf, State.visitCycle_void_voidsOf, State.countVoid_voidsOf_same]

theorem State.groveCycle_voidsOf_other {c : Started} (hline : c.cyc.line = none) (t : Fin 32) (s : State) (g k : Fin 32) (hk : k ≠ g) :
    (s.groveCycle t c g).voidsOf k = s.voidsOf k := by
  rw [State.groveCycle_void hline, (Aside.refl _).feedEngines.voidsOf, State.visitCycle_void_voidsOf, State.countVoid_voidsOf_other _ _ _ hk]

theorem voidCount_notMem_fillOut (k : Fin 32) : (F.FAB_VOID_CNT_LO_COUNT k).addr ∉ fillOut ∧ (F.FAB_VOID_CNT_LO_COUNT k).addr + 4 ∉ fillOut := by
  revert k
  decide

theorem State.pushLines_voidsOf (t : Fin 32) (s : State) (k : Fin 32) : (s.pushLines t).voidsOf k = s.voidsOf k := by
  obtain ⟨honly, -, -, -, -, hregs⟩ := State.pushLines_frame t s
  have hgroves : (s.pushLines t).groves = s.groves := by rw [honly]
  unfold State.voidsOf
  rw [hgroves, hregs.rdP _ (voidCount_notMem_fillOut k).1 (voidCount_notMem_fillOut k).2]

/-- A void cycle's result counts it for each member. -/
theorem cycleResult_void (t : Fin 32) (c : Started) (rest : List Started) (s : State) (hstarted : s.threads[t].started = c :: rest)
    (hdet : s.threads[t].detaching = []) (hleft : rest ≠ [] ∨ s.threads[t].pipe ≠ []) (hline : c.cyc.line = none) : Answers (.cycleResult t) s fun u =>
      ∀ g ∈ grovesIn s.threads[t].members, u.rdP (F.FAB_VOID_CNT_LO_COUNT g) = (s.rdP (F.FAB_VOID_CNT_LO_COUNT g) + 1) % 2 ^ 64 ∧
        u.groves[g].voidLast = some c.cyc.idx := by
  obtain ⟨f, hexec, -⟩ := exec_cycleResult_running hstarted hdet hleft
  refine ⟨_, hexec, fun g hg => ?_⟩
  have hcounted : (s.combined t c rest).voidsOf g = (some c.cyc.idx, ((s.voidsOf g).2 + 1) % 2 ^ 64) := by
    unfold State.combined
    rw [Thread.liveAt_of_none hdet, foldl_rel (R := fun s u : State => u.voidsOf g = s.voidsOf g) (fun _ => rfl) (fun h k => k.trans h)
      (fun _ _ => (Aside.refl _).snapCycle.voidsOf g)]
    exact (foldl_eachOnce (V := State.voidsOf) (h := fun p => (some c.cyc.idx, (p.2 + 1) % 2 ^ 64)) (State.groveCycle_voidsOf_same hline t)
      (State.groveCycle_voidsOf_other hline t) (grovesIn_nodup _) s).1 g hg
  have hend := (State.pushLines_voidsOf t (s.combined t c rest) g).trans hcounted
  exact ⟨congrArg Prod.snd hend, congrArg Prod.fst hend⟩

/-! ## The boundary of a stop or an abort -/

/-- What the end of a burst leaves of its threads: them, the groves, the security unit and the registers of the sequencers. -/
def SeqKept (s u : State) : Prop := u.threads = s.threads ∧ u.groves = s.groves ∧ u.sec = s.sec ∧ ∀ a, u.word .seq a = s.word .seq a

theorem SeqKept.refl (s : State) : SeqKept s s := ⟨rfl, rfl, rfl, fun _ => rfl⟩

theorem SeqKept.trans {s u v : State} (h : SeqKept s u) (k : SeqKept u v) : SeqKept s v := by
  obtain ⟨ht, hg, hs, hw⟩ := h
  obtain ⟨ht', hg', hs', hw'⟩ := k
  exact ⟨ht'.trans ht, hg'.trans hg, hs'.trans hs, fun a => (hw' a).trans (hw a)⟩

theorem SeqKept.rd {s u : State} (h : SeqKept s u) (f : Fld) (hf : f.blk = .seq) : u.rd f = s.rd f := by
  obtain ⟨-, -, -, hw⟩ := h
  exact State.rd_of_word f (hf ▸ hw f.addr)

theorem SeqKept.wr (s : State) (f : Fld) (v : Nat) (hf : f.blk ≠ .seq) : SeqKept s (s.wr f v) :=
  ⟨rfl, rfl, rfl, fun _ => State.word_wr _ _ _ _ _ (Or.inr (Ne.symm hf))⟩

theorem State.grantOne_seqKept (s : State) : SeqKept s s.grantOne := by
  unfold State.grantOne
  split
  · split
    · exact ⟨rfl, rfl, rfl, fun _ => rfl⟩
    · exact .refl s
  · exact .refl s

theorem State.grantWaiting_seqKept (s : State) : SeqKept s s.grantWaiting := by
  have hgrant := foldl_rel SeqKept.refl (fun h k => h.trans k) (f := fun (s : State) (_ : Nat) => s.grantOne) (fun s _ => s.grantOne_seqKept)
    (List.range s.waiting.length) s
  unfold State.grantWaiting
  dsimp only
  generalize (List.range s.waiting.length).foldl _ s = u at hgrant ⊢
  refine hgrant.trans (SeqKept.trans (u := if u.rd F.FAB_GRANT_CEIL < u.rd F.FAB_GRANT_GRANT then
    u.wr F.FAB_GRANT_GRANT (max u.reserved (u.rd F.FAB_GRANT_CEIL)) else u) ?_ ?_)
  · split
    · exact .wr _ _ _ nofun
    · exact .refl u
  · exact (SeqKept.wr _ _ _ (by nofun)).trans ((SeqKept.wr _ _ _ (by nofun)).trans (.wr _ _ _ (by nofun)))

/-- With no zeroisation waiting for the end of bursts, the check for one leaves all this. -/
theorem State.zeroCheck_seqKept {s : State} (hzero : s.sec.zero = []) : SeqKept s s.zeroCheck := by
  unfold State.zeroCheck
  split
  · dsimp only
    rw [hzero]
    refine ⟨rfl, rfl, ?_, fun _ => rfl⟩
    change { s.sec with zero := [] } = s.sec
    rw [← hzero]
  · exact .refl s

theorem State.burstCheckEnded_seqKept {s : State} (hzero : s.sec.zero = []) (tag epoch : Nat) : SeqKept s (s.burstCheckEnded tag epoch) := by
  unfold State.burstCheckEnded
  split
  · exact .refl s
  · rename_i b _
    dsimp only
    split
    · exact .refl s
    · have hwaiters : ∀ u : State, SeqKept u (b.waiters.foldl (fun s w => s.complete w.hdr (if w.hit then stOk else stAlreadyEnded)) u) := fun u =>
        foldl_rel SeqKept.refl (fun h k => h.trans k)
          (f := fun (s : State) (w : Waiter) => s.complete w.hdr (if w.hit then stOk else stAlreadyEnded)) (fun _ _ => ⟨rfl, rfl, rfl, fun _ => rfl⟩) _ u
      have hended : ∀ f, SeqKept s (s.modBurst tag epoch f) := fun _ => ⟨rfl, rfl, rfl, fun _ => rfl⟩
      generalize hu : State.grantWaiting _ = u
      have hgranted : SeqKept s u := hu ▸ ((hended _).trans (hwaiters _)).trans (State.grantWaiting_seqKept _)
      exact hgranted.trans (State.zeroCheck_seqKept ((congrArg Sec.zero hgranted.2.2.1).trans hzero))

/-! ### The end of members -/

/-- The end of a grove whose drivers are off where they have to be. -/
def State.haltQuiet (s : State) (g : Fin 32) (r : EndReason) : State :=
  let w := s.dscWords g
  let fetch := (s.threads[s.threadOf g].requests.head?).map fun q => (q.seg, q.gen, q.idx)
  (s.modGrove g fun k =>
    { k with ended := some r, halted := true, emittedTo := k.lastCycle, dscEnd := w, fetch := fetch, marks := noteMark (k.origin + k.start) 0 false k.marks
             traffic := 0, span := 0, windows := [], demand := 0 }).snapEnd g |>.acqGroveEnd g |>.dscGroveEnd g

theorem State.haltGrove_eq (s : State) (g : Fin 32) (r : EndReason) (endDen : Bool) :
    s.haltGrove g r endDen = (if endDen || (r != .halt && s.hiz g) then s.denOff g else s).haltQuiet g r := rfl

/-- What the end of a grove leaves: the threads, the security unit, and the ends of the other groves. -/
theorem State.haltGrove_ends (s : State) (g : Fin 32) (r : EndReason) (endDen : Bool) :
    (s.haltGrove g r endDen).threads = s.threads ∧ (s.haltGrove g r endDen).sec = s.sec ∧ (s.haltGrove g r endDen).groves[g].ended = some r ∧
      ∀ k, k ≠ g → (s.haltGrove g r endDen).groves[k].ended = s.groves[k].ended := by
  have hoff : ∃ u, (if endDen || (r != .halt && s.hiz g) then s.denOff g else s) = u ∧ u.threads = s.threads ∧ u.sec = s.sec ∧ u.groves = s.groves := by
    refine ⟨_, rfl, ?_⟩
    split
    · exact foldl_rel (R := fun s u : State => u.threads = s.threads ∧ u.sec = s.sec ∧ u.groves = s.groves) (fun _ => ⟨rfl, rfl, rfl⟩)
        (fun h k => ⟨k.1.trans h.1, k.2.1.trans h.2.1, k.2.2.trans h.2.2⟩)
        (f := fun (s : State) c => s.modChan c fun k => { k with den := false }) (fun _ _ => ⟨rfl, rfl, rfl⟩) _ _
    · exact ⟨rfl, rfl, rfl⟩
  obtain ⟨u, hu, ht, hs, hg⟩ := hoff
  rw [State.haltGrove_eq, hu]
  unfold State.haltQuiet
  have haside : ∀ w : State, Aside w (((w.snapEnd g).acqGroveEnd g).dscGroveEnd g) := fun w => (Aside.refl w).snapEnd.acqGroveEnd.dscGroveEnd
  refine ⟨(haside _).threads.trans ht, ?_, ?_, fun k hk => ?_⟩
  · exact (congrArg State.sec (haside _).1).trans hs
  · rw [(haside _).groves]
    exact congrArg Grove.ended (upd_same u.groves g _)
  · rw [(haside _).groves, ← hg]
    exact congrArg Grove.ended (upd_other u.groves g k _ hk)

/-- The ends of all groves of a list. -/
theorem State.foldl_haltGrove {l : List (Fin 32)} (hl : l.Nodup) (s : State) (r : EndReason) (endDen : Bool) {u : State}
    (hu : l.foldl (fun s g => s.haltGrove g r endDen) s = u) : u.threads = s.threads ∧ u.sec = s.sec ∧ ∀ g ∈ l, u.groves[g].ended = some r := by
  subst hu
  obtain ⟨ht, hs⟩ := foldl_rel (R := fun s u : State => u.threads = s.threads ∧ u.sec = s.sec) (fun _ => ⟨rfl, rfl⟩)
    (fun h k => ⟨k.1.trans h.1, k.2.trans h.2⟩) (f := fun s g => s.haltGrove g r endDen)
    (fun s g => ⟨(s.haltGrove_ends g r endDen).1, (s.haltGrove_ends g r endDen).2.1⟩) l s
  refine ⟨ht, hs, ?_⟩
  exact (foldl_eachOnce (V := fun s g => s.groves[g].ended) (h := fun _ => some r) (fun s g => (s.haltGrove_ends g r endDen).2.2.1)
    (fun s g => (s.haltGrove_ends g r endDen).2.2.2) hl s).1

/-- The check of a thread's burst, where it has one, whether it has ended. -/
def State.checkBusy (s : State) (t : Fin 32) : State :=
  match s.threads[t].busy with
  | some (tag, ep) => s.burstCheckEnded tag ep
  | none => s

theorem status_notMem_evOut : ∀ t : Fin 32, (F.SEQ_STATUS_STATE t).addr ∉ evOut (Ev.seq t) := by decide

/-- A thread's last event, and the check of its burst. -/
theorem State.endRaised {z : State} (hzero : z.sec.zero = []) (t : Fin 32) (bits : Nat) {u : State} (hu : (z.raise (Ev.seq t) bits).checkBusy t = u) :
    u.threads = z.threads ∧ u.groves = z.groves ∧ ∀ f : Fld, f.blk = .seq → f.addr = (F.SEQ_STATUS_STATE t).addr → u.rd f = z.rd f := by
  have honly := z.raise_event (Ev.seq t) bits
  have hregs := z.raise_regs (Ev.seq t) bits
  generalize z.raise (Ev.seq t) bits = w at honly hregs hu
  have hsec : w.sec.zero = [] := by rw [show w.sec = z.sec by rw [honly]]; exact hzero
  have hkept : SeqKept w u := by
    rw [← hu, State.checkBusy]
    split
    · exact State.burstCheckEnded_seqKept hsec _ _
    · exact .refl w
  exact ⟨hkept.1.trans honly.threads, hkept.2.1.trans honly.groves, fun f hblk haddr =>
    (hkept.rd f hblk).trans (hregs.rd f (haddr ▸ status_notMem_evOut t))⟩

/-- The end of all members of a thread's burst. -/
theorem State.endMembers_all {s : State} {t : Fin 32} (hmem : s.threads[t].members ≠ 0) (hzero : s.sec.zero = []) {r : EndReason} (hr : r ≠ .detached)
    {u : State} (hu : s.endMembers t s.threads[t].members r = u) :
    u.threads[t].members = 0 ∧ u.rd (F.SEQ_STATUS_STATE t) = 4 ∧ u.rd (F.SEQ_STATUS_END_REASON t) = r.code % 16 ∧
      ∀ g ∈ grovesIn s.threads[t].members, u.groves[g].ended = some r := by
  unfold State.endMembers at hu
  dsimp only at hu
  rw [Nat.and_self, if_neg hmem] at hu
  obtain ⟨ht, hs, hended⟩ := State.foldl_haltGrove (grovesIn_nodup s.threads[t].members) s r false rfl
  generalize (grovesIn s.threads[t].members).foldl (fun s g => s.haltGrove g r false) s = x at ht hs hended hu
  have hnone : (x.modThread t fun k => { k with members := without k.members s.threads[t].members }).threads[t].members = 0 := by
    rw [State.modThread_threads, upd_same, ht]
    simp [without]
  have hsame : (x.modThread t fun k => { k with members := without k.members s.threads[t].members }).groves = x.groves := rfl
  have hsec : (x.modThread t fun k => { k with members := without k.members s.threads[t].members }).sec.zero = [] := (congrArg Sec.zero hs).trans hzero
  generalize x.modThread t _ = y at hnone hsame hsec hu
  rw [if_neg hr, decide_eq_true hnone, if_pos rfl] at hu
  have hstate : (y.wrs [(F.SEQ_STATUS_STATE t, 4), (F.SEQ_STATUS_END_REASON t, r.code)]).rd (F.SEQ_STATUS_STATE t) = 4 :=
    (State.rd_wr_apart _ (F.SEQ_STATUS_END_REASON t) _ _ (by simp [F.SEQ_STATUS_END_REASON])
      (.inr (.inr (by simp [F.SEQ_STATUS_STATE, F.SEQ_STATUS_END_REASON])))).trans
      (State.rd_wr_same y (F.SEQ_STATUS_STATE t) 4 (by simp [F.SEQ_STATUS_STATE]))
  have hreason : (y.wrs [(F.SEQ_STATUS_STATE t, 4), (F.SEQ_STATUS_END_REASON t, r.code)]).rd (F.SEQ_STATUS_END_REASON t) = r.code % 16 :=
    State.rd_wr_same _ (F.SEQ_STATUS_END_REASON t) _ (by simp [F.SEQ_STATUS_END_REASON])
  generalize hz : y.wrs [(F.SEQ_STATUS_STATE t, 4), (F.SEQ_STATUS_END_REASON t, r.code)] = z at hstate hreason hu
  have hmem' : z.threads[t].members = 0 := by rw [← hz]; exact hnone
  have hended' : z.groves = x.groves := by rw [← hz]; exact hsame
  have hsec' : z.sec.zero = [] := by rw [← hz]; exact hsec
  obtain ⟨hthreads, hgroves, hrd⟩ := State.endRaised hsec' t _ hu
  refine ⟨by rw [hthreads]; exact hmem', (hrd (F.SEQ_STATUS_STATE t) rfl rfl).trans hstate, (hrd (F.SEQ_STATUS_END_REASON t) rfl rfl).trans hreason,
    fun g hg => ?_⟩
  rw [hgroves, hended']
  exact hended g hg

/-- What the report of a thread's void episode and of its reached boundary leave: the members and the security unit. -/
theorem State.reported_keeps (s : State) (t : Fin 32) {u : State} (hu : (s.postVoid t).hitWaiters t = u) :
    u.threads[t].members = s.threads[t].members ∧ u.sec = s.sec := by
  have hvoid : (s.postVoid t).threads[t].members = s.threads[t].members ∧ (s.postVoid t).sec = s.sec := by
    unfold State.postVoid
    split
    · exact ⟨rfl, rfl⟩
    · rename_i ep _
      have hocc := (Aside.refl s).foldl (l := grovesIn s.threads[t].members)
        (f := fun (s : State) (g : Fin 32) => s.occurrence 4 g (ep.first % 2 ^ 48 + min ep.len 65535 * 2 ^ 48)) fun _ _ hs => hs.occurrence
      generalize (grovesIn s.threads[t].members).foldl _ s = x at hocc ⊢
      refine ⟨?_, show x.still.sec = s.still.sec from congrArg State.sec hocc.1⟩
      rw [State.modThread_threads, upd_same, hocc.threads]
  have hhit : ((s.postVoid t).hitWaiters t).threads = (s.postVoid t).threads ∧ ((s.postVoid t).hitWaiters t).sec = (s.postVoid t).sec := by
    unfold State.hitWaiters
    split <;> exact ⟨rfl, rfl⟩
  rw [← hu]
  exact ⟨by rw [hhit.1, hvoid.1], hhit.2.trans hvoid.2⟩

/-- A thread whose last cycle has run by the boundary ends with its reason. -/
theorem State.cutEffect_ends {t : Fin 32} {b : Nat} {abort : Bool} {s : State} (hbound : s.threads[t].bound = some (b, abort))
    (hcycles : b ≤ s.threads[t].cycles) (hdrained : s.threads[t].drained = true) (hrun : s.threadAt t [.running] = true)
    (hmem : s.threads[t].members ≠ 0) (hzero : s.sec.zero = []) {u : State} (hu : s.cutEffect t abort = u) :
    u.threads[t].members = 0 ∧ u.rd (F.SEQ_STATUS_STATE t) = 4 ∧
      u.rd (F.SEQ_STATUS_END_REASON t) = (if abort then EndReason.aborted else .stopped).code % 16 ∧
      ∀ g ∈ grovesIn s.threads[t].members, u.groves[g].ended = some (if abort then .aborted else .stopped) := by
  unfold State.cutEffect at hu
  dsimp only at hu
  rw [hbound] at hu
  dsimp only at hu
  rw [if_pos ⟨rfl, hcycles, hdrained, hrun⟩] at hu
  obtain ⟨hsame, hsec⟩ := s.reported_keeps t rfl
  rw [← hsame] at hu hmem ⊢
  exact State.endMembers_all hmem ((congrArg Sec.zero hsec).trans hzero) (by split <;> nofun) hu

end Sys2Proof.Machine

open Sys2Proof Sys2Proof.Machine

/-- Settles O13: the groves of a cycle that begins one by one, the results of a cycle and its void count grove by grove, and the end of a
thread whose last cycle has run by its boundary. -/
theorem cyclesAtThePins : Obligations.CyclesAtThePins := by
  unfold Obligations.CyclesAtThePins
  refine ⟨cycleStart_begins, fun t levels c rest s hpipe hrun hline hdet => cycleStart_void_periods t levels c rest s hpipe hrun hline hdet,
    cycleResult_combines, ?_, ?_, ?_⟩
  · exact fun t c rest s hstarted hdet hleft hline _ => cycleResult_void t c rest s hstarted hdet hleft hline
  · intro t b s hbound hcycles hdrained hrun hmem hzero
    exact ⟨_, rfl, State.cutEffect_ends hbound hcycles hdrained hrun hmem hzero rfl⟩
  · intro t b s hbound hcycles hdrained hrun hmem hzero
    exact ⟨_, rfl, State.cutEffect_ends hbound hcycles hdrained hrun hmem hzero rfl⟩
end

section
/-! O53 (structure loads), R40, R41 and R60 to R68: a load's stages, its failures and its swap. -/

set_option Elab.async false

namespace Sys2Proof.Machine

/-! ## What leaves the structure unit -/

/-- What leaves the structure unit: its content, the code moves, and its registers below the map of the image in force. -/
def StrKept (s u : State) : Prop :=
  u.str = s.str ∧ u.forest.codeMoves = s.forest.codeMoves ∧ ∀ a, a < 0x10100 → u.word .str a = s.word .str a

theorem StrKept.refl (s : State) : StrKept s s := ⟨rfl, rfl, fun _ _ => rfl⟩

theorem StrKept.trans {s x u : State} (h : StrKept s x) (k : StrKept x u) : StrKept s u := by
  obtain ⟨hstr, hcode, hword⟩ := h
  obtain ⟨kstr, kcode, kword⟩ := k
  exact ⟨kstr.trans hstr, kcode.trans hcode, fun a ha => (kword a ha).trans (hword a ha)⟩

theorem StrKept.str {s u : State} (h : StrKept s u) : u.str = s.str := h.1

theorem StrKept.codeMoves {s u : State} (h : StrKept s u) : u.forest.codeMoves = s.forest.codeMoves := h.2.1

theorem StrKept.rd {s u : State} (h : StrKept s u) (f : Fld) (hblk : f.blk = .str := by rfl) (hf : f.addr < 0x10100 := by decide) : u.rd f = s.rd f :=
  State.rd_of_word f (hblk ▸ h.2.2 f.addr hf)

section
variable {s₀ s : State}

theorem StrKept.same {u : State} (hs : StrKept s₀ s) (hstr : u.str = s.str := by rfl) (hcode : u.forest.codeMoves = s.forest.codeMoves := by rfl)
    (hregs : u.regs = s.regs := by rfl) : StrKept s₀ u :=
  hs.trans ⟨hstr, hcode, fun _ _ => by rw [State.word, hregs, State.word]⟩

theorem StrKept.update (hs : StrKept s₀ s) {latches held canopy sdram flash host bursts threads groves chans fab pec sync streams forest snaps fabSets sched
    hq flt tim calHold acq tap dscs trcs sec links clk power cal dmc boot freeCtr pending : _} (hcode : forest.codeMoves = s.forest.codeMoves := by rfl) :
    StrKept s₀ (State.mk s.regs latches held canopy sdram flash host bursts threads groves chans fab s.str pec sync streams
      forest snaps fabSets sched hq flt tim calHold acq tap dscs trcs sec links clk power cal dmc boot freeCtr pending) :=
  hs.trans ⟨rfl, hcode, fun _ _ => rfl⟩

theorem StrKept.aside {u : State} (hs : StrKept s₀ s) (h : Aside s u) : StrKept s₀ u :=
  hs.trans ⟨(congrArg State.str h.1 : u.still.str = s.still.str), (congrArg (fun w : State => w.forest.codeMoves) h.1 :
    u.still.forest.codeMoves = s.still.forest.codeMoves), fun a ha => h.2 _ _ rfl fun hm => by
      have hocc : ∀ b ∈ occOut, 0x10100 ≤ b := by decide
      exact absurd (hocc a hm) (by omega)⟩

theorem StrKept.ite {p : Prop} {_ : Decidable p} {a b : State} (ha : StrKept s₀ a) (hb : StrKept s₀ b) : StrKept s₀ (if p then a else b) := by
  split
  · exact ha
  · exact hb

theorem StrKept.foldl {α : Type} {f : State → α → State} {l : List α} (hs : StrKept s₀ s) (hf : ∀ s a, StrKept s₀ s → StrKept s₀ (f s a)) :
    StrKept s₀ (l.foldl f s) := by
  induction l generalizing s with
  | nil => exact hs
  | cons a l ih => exact ih (hf s a hs)

/-- A write that is not into the structure unit's status registers. -/
theorem StrKept.setWord (hs : StrKept s₀ s) {b : Blk} {a : Nat} {w : Word} (h : b ≠ .str ∨ 0x10100 ≤ a) : StrKept s₀ (s.setWord b a w) := by
  refine hs.trans ⟨rfl, rfl, fun a' ha' => (State.word_setWord s b a w _ a').trans (if_neg fun ⟨hb, ha⟩ => ?_)⟩
  rcases h with h | h
  · exact h hb.symm
  · omega

theorem StrKept.wr (hs : StrKept s₀ s) {f : Fld} {v : Nat} (hf : f.blk ≠ .str ∨ 0x10100 ≤ f.addr := by exact .inl nofun) : StrKept s₀ (s.wr f v) := by
  refine hs.trans ⟨rfl, rfl, fun a ha => State.word_wr s f v _ a ?_⟩
  rcases hf with hf | hf
  · exact .inr (Ne.symm hf)
  · exact .inl (by omega)

theorem StrKept.wrP (hs : StrKept s₀ s) {f : Fld} {v : Nat} (hf : f.blk ≠ .str := by exact nofun) : StrKept s₀ (s.wrP f v) :=
  (hs.wr (.inl hf)).wr (.inl hf)

theorem StrKept.wrs (hs : StrKept s₀ s) {l : List (Fld × Nat)} (hl : (l.all fun x => x.1.blk != .str) = true := by rfl) : StrKept s₀ (s.wrs l) := by
  rw [State.wrs]
  induction l generalizing s with
  | nil => exact hs
  | cons x l ih =>
    rw [List.all_cons, Bool.and_eq_true] at hl
    exact ih (hs.wr (.inl (bne_iff_ne.1 hl.1))) hl.2

theorem StrKept.event (hs : StrKept s₀ s) {r : EvReg} {bit : Nat} (hr : ∀ a ∈ evOut r, 0x10100 ≤ a := by decide) : StrKept s₀ (s.event r bit) := by
  have honly := s.raise_event r (2 ^ bit)
  have hregs := s.raise_regs r (2 ^ bit)
  rw [← State.event] at honly hregs
  refine hs.trans ⟨by rw [honly], by rw [honly], fun a ha => hregs _ _ fun hm => absurd (hr a hm) (by omega)⟩

/-! ## Parking and moves -/

theorem StrKept.postPrivate (hs : StrKept s₀ s) {c : Fin 8} {resume : Bool} : StrKept s₀ (s.postPrivate c resume) := hs.same

theorem StrKept.resumeCores (hs : StrKept s₀ s) {mask : Nat} : StrKept s₀ (s.resumeCores mask) :=
  hs.foldl fun _ _ hs => .ite (.ite hs.wrs.postPrivate hs.wrs) hs

theorem StrKept.unaskPark (hs : StrKept s₀ s) {mask : Nat} : StrKept s₀ (s.unaskPark mask) :=
  hs.resumeCores.foldl fun _ _ hs => .ite hs.wr hs

theorem StrKept.askPark (hs : StrKept s₀ s) {mask : Nat} : StrKept s₀ (s.askPark mask) :=
  hs.foldl fun s _ hs => by
    have hkept := fun stay => hs.same (u := { s with forest := { s.forest with wasParked := stay } })
    exact .ite (hkept _).wr.postPrivate hs

theorem StrKept.zeroPages (hs : StrKept s₀ s) {sdram : Bool} {l : List Nat} : StrKept s₀ (s.zeroPages sdram l) := .ite hs.same hs.same

theorem StrKept.freePlace (hs : StrKept s₀ s) {p : Place} : StrKept s₀ (s.freePlace p) := hs.zeroPages

theorem Forest.foldl_take_codeMoves (f : Forest) (region : Nat) (l : List (Nat × Nat)) :
    (l.foldl (fun f r => f.take region r.1 r.2) f).codeMoves = f.codeMoves :=
  foldl_rel (R := fun f g : Forest => g.codeMoves = f.codeMoves) (f := fun f r => f.take region r.1 r.2) (fun _ => rfl) (fun h k => k.trans h)
    (fun _ _ => rfl) l f

theorem StrKept.takePages (hs : StrKept s₀ s) {region : Nat} {l : List (Nat × Nat)} : StrKept s₀ (s.takePages region l) :=
  hs.same rfl (Forest.foldl_take_codeMoves _ _ _)

theorem StrKept.addMove (hs : StrKept s₀ s) {m : Move} : StrKept s₀ (s.addMove m) := by
  have htaken : StrKept s₀ ((if m.tier = .canopy then s.takePages 2 m.pages else s).takePages 2 m.ipages) := StrKept.takePages (.ite hs.takePages hs)
  exact htaken.same

theorem StrKept.clearBanks (hs : StrKept s₀ s) {banks : List Nat} {bank : Option Nat} : StrKept s₀ (s.clearBanks banks bank) :=
  hs.foldl fun s x hs => by
    split
    · exact hs.addMove
    · exact hs

theorem StrKept.relocate (hs : StrKept s₀ s) {bank region : Nat} {p q : Place} {u : State} (hu : s.relocate bank region p = some (q, u)) : StrKept s₀ u := by
  unfold State.relocate at hu
  split at hu
  · exact nomatch hu
  · obtain ⟨n, -, hn⟩ := Option.map_eq_some_iff.1 hu
    obtain ⟨-, rfl⟩ := Prod.mk.inj hn
    exact (hs.takePages (region := region) (l := [(n, p.pages.length)])).same.freePlace

theorem StrKept.evacCapture (hs : StrKept s₀ s) {bank : Nat} {g : Fin 32} : StrKept s₀ (s.evacCapture bank g) :=
  hs.foldl fun s i hs => by
    split
    · exact hs
    · split
      · rename_i p x hx
        obtain ⟨b, -, hb⟩ := Option.bind_eq_some_iff.1 hx
        have hs := hs.relocate hb
        dsimp only
        exact .ite (hs.same (u := x.modGrove g _)).wr hs.same
      · exact hs

theorem StrKept.modTrg (hs : StrKept s₀ s) {e : Fin 4} {f : Trg → Trg} : StrKept s₀ (s.modTrg e f) := hs.same

theorem StrKept.modTmu (hs : StrKept s₀ s) {u : Fin 32} {f : Tmu → Tmu} : StrKept s₀ (s.modTmu u f) := hs.same

theorem StrKept.evacStores (hs : StrKept s₀ s) {bank : Nat} : StrKept s₀ (s.evacStores bank) := by
  refine StrKept.foldl (StrKept.foldl (StrKept.foldl hs fun s e hs => ?_) fun s u hs => ?_) fun s b hs => ?_
  · refine .ite hs ?_
    split
    · rename_i p x hx
      obtain ⟨q, -, hq⟩ := Option.bind_eq_some_iff.1 hx
      exact (StrKept.modTrg ((hs.relocate hq).same (u := { x with forest := _ }))).wr
    · exact hs
  · refine .ite hs ?_
    split
    · rename_i p x hx
      obtain ⟨q, -, hq⟩ := Option.bind_eq_some_iff.1 hx
      exact (StrKept.modTmu ((hs.relocate hq).same (u := { x with forest := _ }))).wr
    · exact hs
  · refine .ite hs ?_
    split
    · rename_i p x hx
      obtain ⟨q, -, hq⟩ := Option.bind_eq_some_iff.1 hx
      exact ((hs.relocate hq).same (u := { x with forest := _ })).wr
    · exact hs

theorem StrKept.evacStep (hs : StrKept s₀ s) {bank : Nat} : StrKept s₀ (s.evacStep bank) :=
  ((hs.clearBanks).foldl fun _ _ hs => hs.evacCapture).evacStores

theorem StrKept.evacCheck (hs : StrKept s₀ s) : StrKept s₀ s.evacCheck := by
  unfold State.evacCheck
  dsimp only
  have hstep := hs.foldl (l := s.forest.evacs) (f := fun s e => s.evacStep e.bank) fun _ _ hs => hs.evacStep
  generalize s.forest.evacs.foldl _ s = x at hstep ⊢
  refine hstep.foldl fun x e hs => ?_
  have hs := hs.same (u := { x with forest := { x.forest with evacs := x.forest.evacs.filter fun o => !sameHdr o.hdr e.hdr } })
  exact (hs.event (r := Ev.frst) (bit := 0)).same

/-- What a move that is given up leaves behind is cleared. -/
def State.undoMove (s : State) (m : Move) : State :=
  match s.segAt m.seg m.gen with
  | some x =>
    if m.copied then
      let keep := if x.tier = m.tier then runPages x.pages else []
      let s := s.zeroPages (m.tier == .sdram) ((runPages m.pages).filter fun q => !keep.contains q)
      if m.keepsStream x then s else { s with canopy := clearRange s.canopy m.ipages m.ioff (8 * x.iwords) }
    else s
  | none => s

theorem StrKept.undoMove (hs : StrKept s₀ s) {m : Move} : StrKept s₀ (s.undoMove m) := by
  unfold State.undoMove
  split
  · exact .ite (.ite hs.zeroPages hs.zeroPages.same) hs
  · exact hs

theorem StrKept.abandonMoves (hs : StrKept s₀ s) {p : Move → Bool} : StrKept s₀ (s.abandonMoves p) := by
  have hgone := hs.foldl (l := s.forest.moves.filter p) (f := State.undoMove) fun s m hs => hs.undoMove
  exact .ite hgone.same (hgone.same (u := { (s.forest.moves.filter p).foldl State.undoMove s with forest := _ })).event

/-! ## The swap's changes of other units -/

theorem StrKept.setUnread (hs : StrKept s₀ s) {e : Fin 4} {n : Nat} : StrKept s₀ (s.setUnread e n) :=
  StrKept.wr (hs.same (u := { s with acq := _ }))

theorem StrKept.completeRecord (hs : StrKept s₀ s) {e : Fin 4} : StrKept s₀ (s.completeRecord e) := by
  unfold State.completeRecord
  split
  · exact hs
  · rename_i r _
    dsimp only
    have hs := hs.aside (Aside.refl s).writeRecord (u := s.writeRecord e r true)
    generalize s.writeRecord e r true = x at hs ⊢
    have hs : ∀ f n, StrKept s₀ (((x.modTrg e f).setUnread e n).event (Ev.trg e) 1) := fun f n => hs.modTrg.setUnread.aside (Aside.refl _).event
    exact .ite ((hs _ _).aside (Aside.refl _).trgFull) (.ite ((hs _ _).aside (Aside.refl _).trgOff) (hs _ _).wr)

theorem StrKept.trgDisarm (hs : StrKept s₀ s) {e : Fin 4} : StrKept s₀ (s.trgDisarm e) := by
  have hcut : StrKept s₀ (if s.trgState e = 2 then (s.cutRecord e).completeRecord e else s) :=
    .ite (hs.aside (Aside.refl s).cutRecord).completeRecord hs
  exact hcut.aside (Aside.refl _).trgOff

theorem StrKept.tmuDisarm (hs : StrKept s₀ s) {u : Fin 32} : StrKept s₀ (s.tmuDisarm u) :=
  .ite (hs.aside (Aside.refl s).closeGate) (hs.aside (Aside.refl s).tmuOff)

theorem StrKept.disarmChanged (hs : StrKept s₀ s) {old new : Sections} : StrKept s₀ (s.disarmChanged old new) :=
  StrKept.foldl (hs.foldl fun _ _ hs => .ite hs.trgDisarm hs) fun _ _ hs => .ite hs.tmuDisarm hs

theorem StrKept.put32 (hs : StrKept s₀ s) {a v : Nat} (ha : 0x10100 ≤ a) : StrKept s₀ (s.put32 .str a v) := hs.setWord (.inr ha)

theorem StrKept.showStructure (hs : StrKept s₀ s) {p : Sections} : StrKept s₀ (s.showStructure p) := by
  refine .foldl (.foldl (.foldl (.wr (.foldl (.put32 (.foldl (.foldl hs fun s g hs => ?_) fun s i hs => ?_) (by decide)) fun s r hs => ?_)
    (.inr (by decide))) fun s d hs => ?_) fun s l hs => ?_) fun s k hs => ?_
  · exact hs.put32 (by omega)
  · exact (hs.put32 (by omega)).put32 (by omega)
  · exact (hs.put32 (by omega)).put32 (by omega)
  · exact hs.put32 (by omega)
  · exact (hs.put32 (by omega)).put32 (by omega)
  · exact hs.put32 (by omega)

theorem StrKept.placeBuffer (hs : StrKept s₀ s) {bytes : Nat} {p : Place} {u : State} (hu : s.placeBuffer bytes = some (p, u)) : StrKept s₀ u := by
  unfold State.placeBuffer at hu
  dsimp only at hu
  split at hu
  · obtain ⟨-, rfl⟩ := Prod.mk.inj (Option.some.inj hu)
    exact hs.same
  · obtain ⟨n, -, hn⟩ := Option.map_eq_some_iff.1 hu
    obtain ⟨-, rfl⟩ := Prod.mk.inj hn
    exact hs

theorem StrKept.setTierMem (hs : StrKept s₀ s) {t : Tier} {m : Mem} : StrKept s₀ (s.setTierMem t m) := .ite hs.same hs.same

theorem StrKept.rehome (hs : StrKept s₀ s) {p : Place} {cells : List (Nat × Byte)} {r : Place × State} (hu : s.rehome p cells = some r) :
    StrKept s₀ r.2 := by
  unfold State.rehome at hu
  obtain ⟨⟨q, x⟩, hx, hr⟩ := Option.map_eq_some_iff.1 hu
  subst hr
  exact (hs.placeBuffer hx).setTierMem

theorem StrKept.rehomeSeg (hs : StrKept s₀ s) {x : Seg} {pay ins : List (Nat × Byte)} : StrKept s₀ (s.rehomeSeg x pay ins) := by
  unfold State.rehomeSeg
  dsimp only
  split
  · refine .ite (StrKept.event (.update (.ite (.setTierMem (.update (.takePages ?_))) (.update (.takePages ?_))))) (.update (.ite
      (.setTierMem (.update (.takePages ?_))) (.update (.takePages ?_))))
    all_goals
      split
      · exact hs.takePages
      · exact hs
  · exact .update (.ite hs.zeroPages hs)

theorem StrKept.streamOps (hs : StrKept s₀ s) {t : Fin 32} : StrKept s₀ (s.dropRing t) := by
  have hring : StrKept s₀ ((s.streams[t].ring).elim s s.freePlace) := by
    rcases s.streams[t].ring with _ | p
    · exact hs
    · exact hs.freePlace
  unfold State.dropRing
  dsimp only
  generalize (s.streams[t].ring).elim s s.freePlace = x at hring ⊢
  exact (((hring.same (u := x.modStream t fun _ => {})).wrs).wrs).wrP

theorem StrKept.rehomeBuffers (hs : StrKept s₀ s) {lost : Place → Bool} {cells : Place → List (Nat × Byte)} :
    StrKept s₀ (s.rehomeBuffers lost cells) := by
  have hgot : ∀ (s : State) (p : Place), StrKept s₀ s → StrKept s₀ (((s.rehome p (cells p)).map (·.2)).getD s) := by
    intro s p hs
    rcases hr : s.rehome p (cells p) with _ | r
    · exact hs
    · exact hs.rehome hr
  refine .foldl (.foldl (.foldl (.foldl (.foldl hs fun s g hs => .foldl hs fun s i hs => ?_) fun s e hs => ?_) fun s u hs => ?_) fun s t hs => ?_)
    fun s t hs => ?_
  · split
    · refine .ite ?_ hs
      split
      · rename_i r hr
        exact .ite (StrKept.same (hs.rehome hr)).wrs (hs.rehome hr).same
      · exact hs.same
    · exact hs
  · split
    · exact .ite (StrKept.wrs (.modTrg (.update (hgot _ _ hs)))) hs
    · exact hs
  · split
    · exact .ite (StrKept.wrs (.modTmu (.update (hgot _ _ hs)))) hs
    · exact hs
  · refine .ite (StrKept.wr (.update (s := _) ?_)) hs
    split
    · exact .update hs.takePages
    · exact hs
  · exact .ite hs.streamOps hs

theorem StrKept.applyPlan (hs : StrKept s₀ s) {a : RegionPlan} : StrKept s₀ (s.applyPlan a) :=
  .resumeCores (.foldl (.rehomeBuffers (.foldl (.update (.zeroPages (.foldl hs fun _ _ hs => .update hs))) fun _ _ hs => hs.rehomeSeg))
    fun _ _ hs => .ite (.update hs) hs)

theorem StrKept.coppicesOff (hs : StrKept s₀ s) {l : List Nat} : StrKept s₀ (s.coppicesOff l) :=
  hs.foldl fun _ _ hs => hs.foldl fun _ _ hs => hs.same

theorem StrKept.noteHeartbeat (hs : StrKept s₀ s) : StrKept s₀ s.noteHeartbeat := .update (hs.wr (f := F.FLT_STATUS_HB))

theorem StrKept.applyStructure (hs : StrKept s₀ s) {old new : Sections} : StrKept s₀ (s.applyStructure old new) := by
  refine .noteHeartbeat (.foldl (.foldl (.foldl (.foldl hs fun s b hs => ?_) fun s d hs => ?_) fun s i hs => ?_) fun s i hs => ?_)
  · exact hs.wrs
  · refine .ite hs (.update (.foldl ?_ fun s p hs => ?_))
    · exact hs.wrs
    · exact hs.wrs
  · exact .ite hs hs.wrs
  · exact hs.wr

end

/-! ## The flaw that a load names, and its failure -/

/-- The registers that note a flaw. -/
def flawOut : List Nat := [(F.STR_STATUS_STATE).addr, (F.STR_ERR_DETAIL_SECTION).addr] ++ evOut Ev.str

/-- What noting a flaw shows, and what it leaves. -/
theorem State.noteFlaw_shows (s : State) (f : Flaw) : (s.noteFlaw f).1 = f.sect % 16 + 2 ^ 8 * (f.off % 2 ^ 20) ∧ EventOnly s (s.noteFlaw f).2 ∧
    RegsSame flawOut s (s.noteFlaw f).2 ∧ (s.noteFlaw f).2.rd F.STR_STATUS_LAST_ERR = f.code % 256 ∧
    (s.noteFlaw f).2.rd F.STR_ERR_DETAIL_SECTION = f.sect % 16 ∧ (s.noteFlaw f).2.rd F.STR_ERR_DETAIL_OFFSET = f.off % 2 ^ 20 ∧
    (s.noteFlaw f).2.rd F.STR_STATUS_STATE = s.rd F.STR_STATUS_STATE ∧ bitOf ((s.noteFlaw f).2.rd Ev.str.bits) 1 = true := by
  have hevent : (s.noteFlaw f).2 = (s.wrs [(F.STR_STATUS_LAST_ERR, f.code), (F.STR_ERR_DETAIL_SECTION, f.sect), (F.STR_ERR_DETAIL_OFFSET, f.off)]).event
    Ev.str 1 := rfl
  have hapart : [(F.STR_STATUS_LAST_ERR, f.code), (F.STR_ERR_DETAIL_SECTION, f.sect), (F.STR_ERR_DETAIL_OFFSET, f.off)].Pairwise
      fun p q => p.1.apart q.1 ∧ q.1.apart p.1 := by
    simp [Fld.apart, F.STR_STATUS_LAST_ERR, F.STR_ERR_DETAIL_SECTION, F.STR_ERR_DETAIL_OFFSET]
  have hwide : ∀ p ∈ [(F.STR_STATUS_LAST_ERR, f.code), (F.STR_ERR_DETAIL_SECTION, f.sect), (F.STR_ERR_DETAIL_OFFSET, f.off)],
      p.1.lsb + p.1.width ≤ 32 := by
    simp [F.STR_STATUS_LAST_ERR, F.STR_ERR_DETAIL_SECTION, F.STR_ERR_DETAIL_OFFSET]
  have hstate : (s.wrs [(F.STR_STATUS_LAST_ERR, f.code), (F.STR_ERR_DETAIL_SECTION, f.sect), (F.STR_ERR_DETAIL_OFFSET, f.off)]).rd F.STR_STATUS_STATE =
      s.rd F.STR_STATUS_STATE :=
    State.rd_wrs_apart (by simp [Fld.apart, F.STR_STATUS_STATE, F.STR_STATUS_LAST_ERR, F.STR_ERR_DETAIL_SECTION, F.STR_ERR_DETAIL_OFFSET]) s
  have hcode := State.rd_wrs_mem hapart hwide s (f := F.STR_STATUS_LAST_ERR) (v := f.code) (by simp)
  have hsect := State.rd_wrs_mem hapart hwide s (f := F.STR_ERR_DETAIL_SECTION) (v := f.sect) (by simp)
  have hoff := State.rd_wrs_mem hapart hwide s (f := F.STR_ERR_DETAIL_OFFSET) (v := f.off) (by simp)
  have honly := RegsOnly.wrs s [(F.STR_STATUS_LAST_ERR, f.code), (F.STR_ERR_DETAIL_SECTION, f.sect), (F.STR_ERR_DETAIL_OFFSET, f.off)]
  have hregs : RegsSame flawOut s (s.wrs [(F.STR_STATUS_LAST_ERR, f.code), (F.STR_ERR_DETAIL_SECTION, f.sect), (F.STR_ERR_DETAIL_OFFSET, f.off)]) :=
    .wrs _ _ (by simp [flawOut, F.STR_STATUS_STATE, F.STR_STATUS_LAST_ERR, F.STR_ERR_DETAIL_SECTION, F.STR_ERR_DETAIL_OFFSET])
  rw [hevent]
  generalize s.wrs _ = x at hstate hcode hsect hoff honly hregs ⊢
  have hshown := x.event_regs Ev.str 1
  exact ⟨rfl, honly.event.trans (x.event_event _ _), hregs.andEvent fun _ ha => List.mem_append_right _ ha, (hshown.rd _ (by decide)).trans hcode,
    (hshown.rd _ (by decide)).trans hsect, (hshown.rd _ (by decide)).trans hoff, (hshown.rd _ (by decide)).trans hstate,
    x.event_bit Ev.str (by decide) (by decide)⟩

theorem State.noteFlaw_compls (s : State) (f : Flaw) : (s.noteFlaw f).2.hq.compls = s.hq.compls := (Signalled.event ..).compls

/-- The registers of the cores' parking. -/
def parkOut : List Nat := (List.range 8).map fun c => (F.FOR_PARK_REQ c).addr

theorem parkReq_mem_parkOut (c : Fin 8) : (F.FOR_PARK_REQ c).addr ∈ parkOut := List.mem_map_of_mem (List.mem_range.2 c.2)

theorem State.resumeCores_regs (s : State) (mask : Nat) : RegsSame parkOut s (s.resumeCores mask) := by
  refine foldl_regsSame _ _ _ fun s c _ => ?_
  have hmem := parkReq_mem_parkOut c
  split
  · have hwrs : RegsSame parkOut s (s.wrs [(F.FOR_PARK_PARKED c, 0), (F.FOR_PARK_REQ c, 0)]) := .wrs _ _ (by simp only [List.forall_mem_cons]; exact ⟨hmem, hmem, nofun⟩)
    dsimp only
    split
    · exact hwrs
    · exact hwrs
  · exact .refl _ _

theorem State.unaskPark_regs (s : State) (mask : Nat) : RegsSame parkOut s (s.unaskPark mask) := by
  refine (s.resumeCores_regs _).trans (foldl_regsSame _ _ _ fun s c _ => ?_)
  split
  · exact .wr _ _ _ (parkReq_mem_parkOut c)
  · exact .refl _ _

/-- What the failure of a load shows, and what it leaves. -/
theorem State.structFail_shows (s : State) (f : Flaw) {u : State} (hu : s.structFail f = u) :
    u.rd F.STR_STATUS_STATE = s.restState ∧ u.rd F.STR_STATUS_LAST_ERR = f.code % 256 ∧
      u.str = { s.str with staged := [], stagedPlain := [], cmd := none } ∧ bitOf (u.rd Ev.str.bits) 1 = true ∧
      (∀ h, s.str.cmd = some h → ∃ c ∈ u.hq.compls, c.hdr = h ∧ c.status = f.code) ∧ u.rd F.FOR_CODE_BUSY_CNT_COUNT = s.rd F.FOR_CODE_BUSY_CNT_COUNT := by
  obtain ⟨-, honly, hregs, hcode, -, -, -, hbit⟩ := s.noteFlaw_shows f
  unfold State.structFail at hu
  dsimp only at hu
  generalize (s.noteFlaw f).2 = x at honly hregs hcode hbit hu
  have hrest : (x.wr F.STR_STATUS_STATE s.restState).rd F.STR_STATUS_STATE = s.restState := by
    rw [State.rd_wr_same _ _ _ (by decide)]
    exact Nat.mod_eq_of_lt (by unfold State.restState b2n; split <;> decide)
  replace hcode : (x.wr F.STR_STATUS_STATE s.restState).rd F.STR_STATUS_LAST_ERR = f.code % 256 :=
    (State.rd_wr_apart _ _ _ _ (by decide) (.inr (.inr (by decide)))).trans hcode
  replace hbit : bitOf ((x.wr F.STR_STATUS_STATE s.restState).rd Ev.str.bits) 1 = true := by
    rw [State.rd_wr_other _ _ _ _ (.inl (by decide))]
    exact hbit
  have hbusy : (x.wr F.STR_STATUS_STATE s.restState).rd F.FOR_CODE_BUSY_CNT_COUNT = s.rd F.FOR_CODE_BUSY_CNT_COUNT := by
    rw [State.rd_wr_other _ _ _ _ (.inl (by decide))]
    exact hregs.rd _ (by decide)
  have hstr : (x.wr F.STR_STATUS_STATE s.restState).str = s.str := by rw [State.wr_str, honly]
  generalize x.wr F.STR_STATUS_STATE s.restState = y at hrest hcode hbit hbusy hstr hu
  have hdrop : ∀ w : State, { y with str := { y.str with staged := [], stagedPlain := [], cmd := none } } = w →
      w.regs = y.regs ∧ w.str = { s.str with staged := [], stagedPlain := [], cmd := none } := by
    rintro w rfl
    exact ⟨rfl, by rw [← hstr]⟩
  generalize ({ y with str := { y.str with staged := [], stagedPlain := [], cmd := none } } : State) = w at hdrop hu
  obtain ⟨hwregs, hwstr⟩ := hdrop w rfl
  have hkept := (StrKept.refl w).unaskPark (mask := 0xFF)
  have hpark := w.unaskPark_regs 0xFF
  generalize w.unaskPark 0xFF = z at hkept hpark hu
  replace hrest : z.rd F.STR_STATUS_STATE = s.restState := by rw [hkept.rd F.STR_STATUS_STATE, State.rd_of_regs hwregs, hrest]
  replace hcode : z.rd F.STR_STATUS_LAST_ERR = f.code % 256 := by rw [hkept.rd F.STR_STATUS_LAST_ERR, State.rd_of_regs hwregs, hcode]
  replace hbit : bitOf (z.rd Ev.str.bits) 1 = true := by rw [hkept.rd Ev.str.bits, State.rd_of_regs hwregs, hbit]
  replace hbusy : z.rd F.FOR_CODE_BUSY_CNT_COUNT = s.rd F.FOR_CODE_BUSY_CNT_COUNT := by
    rw [hpark.rd F.FOR_CODE_BUSY_CNT_COUNT (by decide), State.rd_of_regs hwregs, hbusy]
  rcases hcmd : s.str.cmd with _ | h
  · rw [hcmd] at hu
    subst hu
    exact ⟨hrest, hcode, hkept.str.trans hwstr, hbit, nofun, hbusy⟩
  · rw [hcmd] at hu
    subst hu
    exact ⟨hrest, hcode, hkept.str.trans hwstr, hbit, fun _ he => ⟨_, List.mem_append_right _ List.mem_cons_self, Option.some.inj he, rfl⟩, hbusy⟩

/-! ## The command -/

/-- A structure load that can begin, on the state that marks it as begun. -/
theorem State.structLoad_begun {h : Hdr} (src : Src) (length : Nat) {s : State} (hb : s.canBegin h 0x10) (hsource : s.sourceOk src length = true) :
    ∃ q : Hq, q.compls = s.hq.compls ∧ exec (.structLoad h src length) s = .next (
      if s.reloading ∨ s.atAcceptance h (·.reload) then { s with hq := q }.complete h 0x1D
      else if s.bursts.isEmpty = false ∨ s.atAcceptance h (·.busy) then
        ({ s with hq := q }.noteFlaw ⟨0x1D, 0xF, 0⟩).2.complete h 0x1D ({ s with hq := q }.noteFlaw ⟨0x1D, 0xF, 0⟩).1
      else (s.source src length).elim ({ s with hq := q }.complete h stHostReadFailed) fun img => { s with hq := q }.stage img length 3 (some h)) := by
  obtain ⟨v, ⟨honly, hcompls⟩, hrun⟩ := State.begin_ready hb
  have hreload := s.atAcceptance_begin h 0x10 (·.reload) fun _ => rfl
  have hbusy := s.atAcceptance_begin h 0x10 (·.busy) fun _ => rfl
  rw [hrun id] at hreload hbusy
  change v.atAcceptance h _ = _ at hreload hbusy
  refine ⟨v.hq, hcompls, ?_⟩
  change execStructLoad h src length s = _
  rw [execStructLoad, hrun, hreload, hbusy]
  generalize v.hq = q at honly
  subst honly
  refine congrArg Host.Outcome.next ((if_neg ?_).trans ?_)
  · rw [show State.sourceOk { s with hq := q } src length = s.sourceOk src length from rfl, hsource]
    nofun
  · rw [show State.source { s with hq := q } src length = s.source src length from rfl]
    rcases s.source src length with _ | img <;> rfl

theorem State.atAcceptance_of_or {s : State} {h : Hdr} {p q : InFlight → Bool} (hor : (s.atAcceptance h fun f => p f || q f) = false) :
    s.atAcceptance h p = false ∧ s.atAcceptance h q = false := by
  simp only [State.atAcceptance, List.any_eq_false, Bool.and_eq_true, Bool.or_eq_true, not_and, not_or] at hor ⊢
  exact ⟨fun f hf hd => (hor f hf hd).1, fun f hf hd => (hor f hf hd).2⟩

theorem State.not_reloading {s : State} (h : s.rd F.STR_STATUS_STATE < 2) : s.reloading = false := decide_eq_false (by omega)

/-- A load whose image can be read is staged. -/
theorem structLoad_stages (h : Hdr) (src : Src) (length : Nat) (img : List Byte) (s : State) (hb : s.canBegin h 0x10)
    (hok : s.sourceOk src length = true) (hsource : s.source src length = some img) (hstate : s.rd F.STR_STATUS_STATE < 2) (hbursts : s.bursts = [])
    (hfree : (s.atAcceptance h fun f => f.reload || f.busy) = false) : Answers (.structLoad h src length) s fun u =>
      u.rd F.STR_STATUS_STATE = 2 ∧ u.str.staged = img.take (2 ^ 20) ∧ u.str.len = length ∧ u.str.src = 3 ∧ u.str.cmd = some h ∧
      u.str.image = s.str.image ∧ u.str.plain = s.str.plain ∧ u.hq.compls = s.hq.compls ∧
      u = { s with regs := u.regs, hq := u.hq, str := u.str } ∧ Quiet [(F.STR_STATUS_STATE).addr] s u := by
  obtain ⟨q, hq, hexec⟩ := State.structLoad_begun src length hb hok
  obtain ⟨hreload, hbusy⟩ := State.atAcceptance_of_or hfree
  rw [State.not_reloading hstate, hreload, hbusy, hsource, if_neg (by decide), if_neg (by rw [hbursts]; decide)] at hexec
  refine ⟨_, hexec, ?_⟩
  dsimp only [Option.elim]
  refine ⟨State.rd_wr_same _ F.STR_STATUS_STATE 2 (by decide), rfl, rfl, rfl, rfl, rfl, rfl, hq, ?_, ?_, ?_⟩
  · unfold State.stage
    rfl
  · exact RegsSame.wr _ F.STR_STATUS_STATE 2 List.mem_cons_self
  · exact BytesSame.of_eq rfl rfl rfl rfl

/-- A load while another one runs is turned away. -/
theorem structLoad_reloading (h : Hdr) (src : Src) (length : Nat) (s : State) (hb : s.canBegin h 0x10) (hok : s.sourceOk src length = true)
    (hreload : 2 ≤ s.rd F.STR_STATUS_STATE ∨ s.atAcceptance h (·.reload) = true) : Answers (.structLoad h src length) s fun u =>
      Completes s u h 0x1D 0 0 ∧ u = { s with hq := u.hq } := by
  obtain ⟨q, hq, hexec⟩ := State.structLoad_begun src length hb hok
  have hbusy : s.reloading = true ∨ s.atAcceptance h (·.reload) = true := hreload.imp_left fun h => decide_eq_true h
  rw [if_pos hbusy] at hexec
  exact ⟨_, hexec, Completes.of_complete hq, rfl⟩

/-- A load while a burst is in a stage before its end is turned away, and its flaw noted. -/
theorem structLoad_busy (h : Hdr) (src : Src) (length : Nat) (s : State) (hb : s.canBegin h 0x10) (hok : s.sourceOk src length = true)
    (hstate : s.rd F.STR_STATUS_STATE < 2) (hreload : s.atAcceptance h (·.reload) = false)
    (hbusy : s.bursts ≠ [] ∨ s.atAcceptance h (·.busy) = true) : Answers (.structLoad h src length) s fun u =>
      Completes s u h 0x1D 15 0 ∧ u.rd F.STR_STATUS_LAST_ERR = 0x1D ∧ u.rd F.STR_ERR_DETAIL_SECTION = 15 ∧ u.rd F.STR_ERR_DETAIL_OFFSET = 0 ∧
      u.rd F.STR_STATUS_STATE = s.rd F.STR_STATUS_STATE ∧ bitOf (u.rd Ev.str.bits) 1 = true ∧ u.str = s.str := by
  obtain ⟨q, hq, hexec⟩ := State.structLoad_begun src length hb hok
  rw [State.not_reloading hstate, hreload, if_neg (by decide), if_pos (hbusy.imp_left List.isEmpty_eq_false_iff.2)] at hexec
  have hbegun : ∀ v : State, { s with hq := q } = v → v.hq.compls = s.hq.compls ∧ v.regs = s.regs ∧ v.str = s.str := by
    rintro v rfl
    exact ⟨hq, rfl, rfl⟩
  generalize ({ s with hq := q } : State) = v at hbegun hexec
  obtain ⟨hcompls, hregs, hstr⟩ := hbegun v rfl
  obtain ⟨hword, honly, -, hcode, hsect, hoff, hst, hbit⟩ := v.noteFlaw_shows ⟨0x1D, 0xF, 0⟩
  have hkept := v.noteFlaw_compls ⟨0x1D, 0xF, 0⟩
  rw [hword] at hexec
  generalize (v.noteFlaw ⟨0x1D, 0xF, 0⟩).2 = x at honly hcode hsect hoff hst hbit hkept hexec
  refine ⟨_, hexec, ?_, hcode, hsect, hoff, hst.trans (State.rd_of_regs hregs _), hbit, ?_⟩
  · exact Completes.of_complete (hkept.trans hcompls)
  · rw [State.complete_str, honly, hstr]

/-! ## The stages -/

theorem State.useStore_of_good {s : State} (h : s.str.badWords = []) : s.useStore = s := by
  rw [State.useStore, h]
  rfl

/-- What the store gives, while no word of it is bad and no Firebreak clears. -/
theorem State.onStore_good {s : State} (hbad : s.str.badWords = []) (hflt : s.rd F.FLT_STATUS_STATE = 0) (run : State → Host.Outcome State Fault Refusal) :
    s.onStore run = run s := by
  rw [State.onStore, State.useStore_of_good hbad, if_neg]
  rw [State.clearing, hflt]
  decide

theorem State.not_clearing {s : State} (hflt : s.rd F.FLT_STATUS_STATE = 0) : s.clearing = false := by
  rw [State.clearing, hflt]
  rfl

/-- The bytes of one run of pages after cells were put there from its byte `k` on. -/
theorem Mem.byte_putCells (p n : Nat) : ∀ (l : List Byte) (k : Nat) (m : Mem) (x : Nat), k + l.length ≤ n * canopyPage →
    Mem.byte (putCells canopyPage m [(p, n)] ((l.zipIdx k).map fun b => (b.2, b.1))) x =
      if p * canopyPage + k ≤ x ∧ x < p * canopyPage + k + l.length then l.getD (x - (p * canopyPage + k)) 0 else Mem.byte m x
  | [], k, m, x, _ => by
    rw [if_neg (by simp)]
    rfl
  | b :: l, k, m, x, hfit => by
    rw [List.length_cons] at hfit
    have hhead : putCells canopyPage m [(p, n)] (((b :: l).zipIdx k).map fun b => (b.2, b.1)) =
        putCells canopyPage (Mem.put m (p * canopyPage + k) b) [(p, n)] ((l.zipIdx (k + 1)).map fun b => (b.2, b.1)) := by
      rw [List.zipIdx_cons, List.map_cons, putCells, List.foldl_cons, ← putCells, runAddr, if_pos (show k < n * canopyPage by omega)]
    rw [hhead, Mem.byte_putCells p n l (k + 1) _ x (by omega), Mem.byte_put]
    by_cases hx : x = p * canopyPage + k
    · rw [if_neg (by omega), if_pos hx, if_pos ⟨by omega, by rw [List.length_cons]; omega⟩, hx, Nat.sub_self]
      rfl
    · rw [if_neg hx]
      by_cases hin : p * canopyPage + k ≤ x ∧ x < p * canopyPage + k + (b :: l).length
      · have hin' := hin
        rw [List.length_cons] at hin'
        rw [if_pos hin, if_pos ⟨by omega, by omega⟩, show x - (p * canopyPage + k) = (x - (p * canopyPage + (k + 1))) + 1 by omega]
        rfl
      · have hin' := hin
        rw [List.length_cons] at hin'
        rw [if_neg hin, if_neg (by omega)]

/-- The staged bytes go to the control region. -/
theorem structureStaged_puts (p n : Nat) (s : State) (hstate : s.rd F.STR_STATUS_STATE = 2) (hflt : s.rd F.FLT_STATUS_STATE = 0)
    (hruns : s.regionRuns 1 = [(p, n)]) (hfit : s.str.staged.length ≤ n * canopyPage) : Answers .structureStaged s fun u =>
      u.rd F.STR_STATUS_STATE = 3 ∧ (∀ i, i < s.str.staged.length → Mem.byte u.canopy (p * canopyPage + i) = s.str.staged.getD i 0) ∧
      (∀ a, a < p * canopyPage ∨ p * canopyPage + s.str.staged.length ≤ a → Mem.byte u.canopy a = Mem.byte s.canopy a) ∧
      u = { s with regs := u.regs, canopy := u.canopy } ∧ RegsSame [(F.STR_STATUS_STATE).addr] s u := by
  have hexec : exec .structureStaged s = .next (({ s with
      canopy := putCells canopyPage s.canopy (s.regionRuns 1) (s.str.staged.zipIdx.map fun b => (b.2, b.1)) } : State).wr F.STR_STATUS_STATE 3) := by
    change execStructureStaged s = _
    rw [execStructureStaged, if_neg (by rw [State.not_clearing hflt, hstate]; decide)]
  have hbyte := fun x => Mem.byte_putCells p n s.str.staged 0 s.canopy x (by omega)
  rw [hruns] at hexec
  refine ⟨_, hexec, State.rd_wr_same _ F.STR_STATUS_STATE 3 (by decide), fun i hi => ?_, fun a ha => ?_, rfl,
    RegsSame.wr _ F.STR_STATUS_STATE 3 List.mem_cons_self⟩
  · exact (hbyte _).trans (by rw [if_pos (by omega), Nat.add_zero, Nat.add_sub_cancel_left])
  · exact (hbyte a).trans (if_neg (by omega))

/-- A flaw fails the load, and an image without one goes on to be planned. -/
theorem structureValidated_judges (s : State) (hstate : s.rd F.STR_STATUS_STATE = 3) (hflt : s.rd F.FLT_STATUS_STATE = 0) :
    (∀ f, s.checkImage s.str.staged s.str.len = .inl f → Answers .structureValidated s fun u =>
      u.rd F.STR_STATUS_STATE = s.restState ∧ u.rd F.STR_STATUS_LAST_ERR = f.code % 256 ∧ u.str.staged = [] ∧ u.str.cmd = none ∧
          u.str.image = s.str.image ∧ u.str.plain = s.str.plain ∧ bitOf (u.rd Ev.str.bits) 1 = true ∧
          (∀ h, s.str.cmd = some h → ∃ c ∈ u.hq.compls, c.hdr = h ∧ c.status = f.code)) ∧
    ∀ p, s.checkImage s.str.staged s.str.len = .inr p → Answers .structureValidated s fun u =>
      u.rd F.STR_STATUS_STATE = 4 ∧ u.str.stagedPlain = p ∧ u.str.staged = s.str.staged ∧ u.str.image = s.str.image ∧ u.forest.codeMoves = [] := by
  have hgo : ¬ (s.rd F.STR_STATUS_STATE ≠ 3 ∨ s.clearing = true) := by
    rw [State.not_clearing hflt, hstate]
    decide
  refine ⟨fun f hf => ?_, fun p hp => ?_⟩
  · have hexec : exec .structureValidated s = .next (s.structFail f) := by
      change execStructureValidated s = _
      rw [execStructureValidated, if_neg hgo, hf]
    obtain ⟨hst, hcode, hstr, hbit, hcmd, -⟩ := s.structFail_shows f rfl
    exact ⟨_, hexec, hst, hcode, by rw [hstr], by rw [hstr], by rw [hstr], by rw [hstr], hbit, hcmd⟩
  · have hplanned : ∀ w : State, ({ s with str := { s.str with stagedPlain := p } } : State).wr F.STR_STATUS_STATE 4 = w →
        w.rd F.STR_STATUS_STATE = 4 ∧ w.str = { s.str with stagedPlain := p } := by
      rintro w rfl
      exact ⟨State.rd_wr_same _ _ _ (by decide), rfl⟩
    have hexec : exec .structureValidated s =
        .next (((({ s with str := { s.str with stagedPlain := p } } : State).wr F.STR_STATUS_STATE 4).abandonMoves fun _ => true).dropCodeMoves).evacCheck := by
      change execStructureValidated s = _
      rw [execStructureValidated, if_neg hgo, hp]
    generalize ({ s with str := { s.str with stagedPlain := p } } : State).wr F.STR_STATUS_STATE 4 = w at hplanned hexec
    obtain ⟨hst, hstr⟩ := hplanned w rfl
    have hmoves := (StrKept.refl w).abandonMoves (p := fun _ => true)
    generalize w.abandonMoves (fun _ => true) = x at hmoves hexec
    have hdropped : ∀ y : State, ({ x with forest := { x.forest with codeMoves := [] } } : State) = y →
        y.str = x.str ∧ y.regs = x.regs ∧ y.forest.codeMoves = [] := by
      rintro y rfl
      exact ⟨rfl, rfl, rfl⟩
    unfold State.dropCodeMoves at hexec
    generalize ({ x with forest := { x.forest with codeMoves := [] } } : State) = y at hdropped hexec
    obtain ⟨hystr, hyregs, hycode⟩ := hdropped y rfl
    have hkept := (StrKept.refl y).unaskPark (mask := 0xFF) |>.evacCheck
    have hall := hkept.str.trans (hystr.trans (hmoves.str.trans hstr))
    refine ⟨_, hexec, ?_, by rw [hall], by rw [hall], by rw [hall], hkept.codeMoves.trans hycode⟩
    rw [hkept.rd F.STR_STATUS_STATE, State.rd_of_regs hyregs, hmoves.rd F.STR_STATUS_STATE, hst]

/-- One core asked to park, if the mask has it. -/
def State.askOne (mask : Nat) (s : State) (c : Fin 8) : State :=
  if bitOf mask c.1 && !s.on (F.FOR_PARK_REQ c) then
    let stay := if s.on (F.FOR_PARK_PARKED c) then s.forest.wasParked ||| 2 ^ c.1 else without s.forest.wasParked (2 ^ c.1)
    ({ s with forest := { s.forest with wasParked := stay } }.wr (F.FOR_PARK_REQ c) 1).postPrivate c false
  else s

theorem State.askOne_asked (s : State) {mask : Nat} {c : Fin 8} (hc : bitOf mask c.1 = true) : (s.askOne mask c).rd (F.FOR_PARK_REQ c) = 1 := by
  unfold State.askOne
  split
  · exact State.rd_wr_same _ (F.FOR_PARK_REQ c) 1 (by simp [F.FOR_PARK_REQ])
  · rename_i hon
    rw [hc, Bool.true_and, Bool.not_eq_true, Bool.not_eq_false', State.on, beq_iff_eq] at hon
    exact hon

theorem State.askOne_other (s : State) (mask : Nat) {c d : Fin 8} (hd : d ≠ c) :
    (s.askOne mask d).rd (F.FOR_PARK_REQ c) = s.rd (F.FOR_PARK_REQ c) := by
  unfold State.askOne
  split
  · refine State.rd_wr_other _ (F.FOR_PARK_REQ d) _ 1 (.inl ?_)
    have hne : c.1 ≠ d.1 := fun e => hd (Fin.ext e.symm)
    simp only [F.FOR_PARK_REQ]
    omega
  · rfl

/-- A request to park that stands stays while others are made, and each core of the mask has one at the end. -/
theorem State.askPark_asks (s : State) (mask : Nat) (c : Fin 8) (hc : bitOf mask c.1 = true) : (s.askPark mask).rd (F.FOR_PARK_REQ c) = 1 := by
  have hmono : ∀ (l : List (Fin 8)) (s : State), c ∈ l ∨ s.rd (F.FOR_PARK_REQ c) = 1 → (l.foldl (State.askOne mask) s).rd (F.FOR_PARK_REQ c) = 1 := by
    intro l
    induction l with
    | nil => exact fun s h => h.resolve_left nofun
    | cons d l ih =>
      refine fun s h => ih _ ?_
      by_cases hd : d = c
      · subst hd
        exact .inr (s.askOne_asked hc)
      · rcases h with h | h
        · exact .inl ((List.mem_cons.1 h).resolve_left (Ne.symm hd))
        · exact .inr ((s.askOne_other mask hd).trans h)
  exact hmono _ s (.inl (List.mem_finRange c))

theorem State.askPark_bytes (s : State) (mask : Nat) : BytesSame s (s.askPark mask) :=
  foldl_rel BytesSame.refl (fun h k => h.trans k) (f := State.askOne mask) (fun s c => by
    unfold State.askOne
    split
    · exact .of_eq rfl rfl rfl rfl
    · exact .refl s) _ s

/-- A load that can be placed while the supplies it changes are off asks the cores it moves to park. -/
theorem dryRun_asks (a : RegionPlan) (s : State) (hstate : s.rd F.STR_STATUS_STATE = 4) (hflt : s.rd F.FLT_STATUS_STATE = 0)
    (hplan : s.planFor s.str.stagedPlain = some a) (hdsc : ∀ d : Fin 16, s.rd (F.DSC_STATUS_MODE d) = 0) (hbad : s.str.badWords = []) :
    Answers .dryRunPlacementDone s fun u =>
      u.rd F.STR_STATUS_STATE = 5 ∧ u.str = s.str ∧ (∀ c : Fin 8, bitOf (s.parkMask a) c = true → u.rd (F.FOR_PARK_REQ c) = 1) ∧ BytesSame s u := by
  have hgo : ¬ (s.rd F.STR_STATUS_STATE ≠ 4 ∨ s.clearing = true) := by
    rw [State.not_clearing hflt, hstate]
    decide
  have hnone : (allFin 16).find? (fun (d : Fin 16) => !dscStays (s.wr F.STR_STATUS_STATE 5).inForce s.str.stagedPlain d && (s.wr F.STR_STATUS_STATE 5).rd (F.DSC_STATUS_MODE d) != 0) =
      none := by
    refine List.find?_eq_none.2 fun d _ => ?_
    have hmode : (s.wr F.STR_STATUS_STATE 5).rd (F.DSC_STATUS_MODE d) = 0 :=
      (State.rd_wr_other _ F.STR_STATUS_STATE (F.DSC_STATUS_MODE d) _ (.inr (by nofun))).trans (hdsc d)
    rw [hmode]
    simp
  have hexec : exec .dryRunPlacementDone s = .next ((s.wr F.STR_STATUS_STATE 5).askPark (s.parkMask a)) := by
    change execDryRunPlacementDone s = _
    rw [execDryRunPlacementDone, if_neg hgo, State.onStore_good hbad hflt]
    dsimp only
    rw [hplan]
    dsimp only
    rw [hnone]
    rfl
  have hkept := (StrKept.refl (s.wr F.STR_STATUS_STATE 5)).askPark (mask := s.parkMask a)
  refine ⟨_, hexec, ?_, hkept.str, fun c hc => State.askPark_asks _ _ c hc, ?_⟩
  · exact (hkept.rd F.STR_STATUS_STATE).trans (State.rd_wr_same _ _ _ (by decide))
  · exact BytesSame.trans (.of_eq rfl rfl rfl rfl) (State.askPark_bytes _ _)

theorem flawIn_code (all : List DirEnt) (type off code : Nat) : (flawIn all type off code).code = code := by
  unfold flawIn
  split <;> rfl

/-- A load that cannot be placed fails. -/
theorem dryRun_fails (s : State) (hstate : s.rd F.STR_STATUS_STATE = 4) (hflt : s.rd F.FLT_STATUS_STATE = 0)
    (hplan : s.planFor s.str.stagedPlain = none) (hbad : s.str.badWords = []) : Answers .dryRunPlacementDone s fun u =>
      u.rd F.STR_STATUS_STATE = s.restState ∧ u.rd F.STR_STATUS_LAST_ERR = 0x1C ∧ u.str.staged = [] ∧ u.str.image = s.str.image := by
  have hgo : ¬ (s.rd F.STR_STATUS_STATE ≠ 4 ∨ s.clearing = true) := by
    rw [State.not_clearing hflt, hstate]
    decide
  have hexec : exec .dryRunPlacementDone s = .next (s.structFail (flawIn (dirOf s.str.staged) 5 0 0x1C)) := by
    change execDryRunPlacementDone s = _
    rw [execDryRunPlacementDone, if_neg hgo, State.onStore_good hbad hflt]
    dsimp only
    rw [hplan]
  obtain ⟨hst, hcode, hstr, -, -, -⟩ := s.structFail_shows (flawIn (dirOf s.str.staged) 5 0 0x1C) rfl
  exact ⟨_, hexec, hst, by rw [hcode, flawIn_code], by rw [hstr], by rw [hstr]⟩

/-! ## The quiet Coppices -/

theorem State.coppicesOff_only (s : State) (l : List Nat) : ∃ chans, s.coppicesOff l = { s with chans := chans } :=
  foldl_rel (R := fun s u : State => ∃ chans, u = { s with chans := chans }) (fun s => ⟨s.chans, rfl⟩)
    (fun ⟨_, h⟩ ⟨c, k⟩ => ⟨c, by rw [k, h]⟩) (fun s k => foldl_rel (R := fun s u : State => ∃ chans, u = { s with chans := chans }) (fun s => ⟨s.chans, rfl⟩)
    (fun ⟨_, h⟩ ⟨c, k⟩ => ⟨c, by rw [k, h]⟩) (f := fun (s : State) c => s.modChan (fin 128 (4 * k + c)) fun x => { x with drv := false, den := false })
    (fun s c => ⟨_, rfl⟩) _ s) l s

/-- A channel that is neither driven nor enabled. -/
def State.chanOff (s : State) (c : Fin 128) : Prop := s.chans[c].den = false ∧ s.chans[c].drv = false

/-- A channel of a Coppice off. -/
def State.channelOff (k : Nat) (s : State) (c : Nat) : State := s.modChan (fin 128 (4 * k + c)) fun x => { x with drv := false, den := false }

theorem State.channelOff_off (k : Nat) (s : State) (c : Nat) : (s.channelOff k c).chanOff (fin 128 (4 * k + c)) := by
  unfold State.chanOff State.channelOff
  rw [show (s.modChan (fin 128 (4 * k + c)) fun x => { x with drv := false, den := false }).chans = upd s.chans (fin 128 (4 * k + c))
    fun x => { x with drv := false, den := false } from rfl, upd_same]
  exact ⟨rfl, rfl⟩

theorem State.channelOff_stays {s : State} {d : Fin 128} (h : s.chanOff d) (k c : Nat) : (s.channelOff k c).chanOff d := by
  by_cases hd : d = fin 128 (4 * k + c)
  · exact hd ▸ s.channelOff_off k c
  · unfold State.chanOff State.channelOff
    rw [show (s.modChan (fin 128 (4 * k + c)) fun x => { x with drv := false, den := false }).chans = upd s.chans (fin 128 (4 * k + c))
      fun x => { x with drv := false, den := false } from rfl, upd_other _ _ _ _ hd]
    exact h

theorem State.coppiceOff_stays {s : State} {d : Fin 128} (h : s.chanOff d) (k : Nat) (l : List Nat) : (l.foldl (State.channelOff k) s).chanOff d := by
  induction l generalizing s with
  | nil => exact h
  | cons c l ih => exact ih (State.channelOff_stays h k c)

theorem State.coppiceOff_off (k : Nat) {l : List Nat} {c : Nat} (hc : c ∈ l) (s : State) :
    (l.foldl (State.channelOff k) s).chanOff (fin 128 (4 * k + c)) := by
  induction l generalizing s with
  | nil => exact nomatch hc
  | cons d l ih =>
    rcases List.mem_cons.1 hc with rfl | hc
    · exact State.coppiceOff_stays (s.channelOff_off k c) k l
    · exact ih hc _

theorem State.coppicesOff_stays {s : State} {d : Fin 128} (h : s.chanOff d) (l : List Nat) : (s.coppicesOff l).chanOff d := by
  induction l generalizing s with
  | nil => exact h
  | cons k l ih => exact ih (State.coppiceOff_stays h k (List.range 4))

theorem State.coppicesOff_off {l : List Nat} {k : Nat} (hk : k ∈ l) (s : State) (c : Fin 4) : (s.coppicesOff l).chanOff (fin 128 (4 * k + c)) := by
  induction l generalizing s with
  | nil => exact nomatch hk
  | cons j l ih =>
    rcases List.mem_cons.1 hk with rfl | hk
    · exact State.coppicesOff_stays (State.coppiceOff_off k (List.mem_range.2 c.2) s) l
    · exact ih hk _

/-- With no calibration that runs and no core in a page that moves, the changed Coppices are off. -/
theorem quiesceComplete_swaps (s : State) (hstate : s.rd F.STR_STATUS_STATE = 5) (hflt : s.rd F.FLT_STATUS_STATE = 0) (hcal : s.cal.run = none)
    (hcode : s.codeRuns = false) (hbad : s.str.badWords = []) : Answers .quiesceComplete s fun u =>
      u.rd F.STR_STATUS_STATE = 6 ∧ u.str = { s.str with held := maskOf (changedCoppices s.inForce s.str.stagedPlain) } ∧
      (∀ k ∈ changedCoppices s.inForce s.str.stagedPlain, ∀ c : Fin 4, u.chans[fin 128 (4 * k + c)].den = false ∧
        u.chans[fin 128 (4 * k + c)].drv = false) ∧
      u = { s with regs := u.regs, chans := u.chans, str := u.str } ∧ Quiet [(F.STR_STATUS_STATE).addr] s u := by
  have hgo : ¬ (s.rd F.STR_STATUS_STATE ≠ 5 ∨ s.clearing = true ∨ s.cal.run.isSome = true ∨ s.codeRuns = true) := by
    rw [State.not_clearing hflt, hstate, hcal, hcode]
    decide
  generalize hl : changedCoppices s.inForce s.str.stagedPlain = l
  have hexec : exec .quiesceComplete s = .next ((({ s with str := { s.str with held := maskOf l } } : State).wr F.STR_STATUS_STATE 6).coppicesOff l) := by
    change execQuiesceComplete s = _
    rw [execQuiesceComplete, if_neg hgo, State.onStore_good hbad hflt, ← hl]
  obtain ⟨chans, hchans⟩ := State.coppicesOff_only (({ s with str := { s.str with held := maskOf l } } : State).wr F.STR_STATUS_STATE 6) l
  have hoff := fun k hk => State.coppicesOff_off (l := l) (k := k) hk (({ s with str := { s.str with held := maskOf l } } : State).wr F.STR_STATUS_STATE 6)
  rw [hchans] at hexec hoff
  exact ⟨_, hexec, State.rd_wr_same _ F.STR_STATUS_STATE 6 (by decide), rfl, hoff, rfl, RegsSame.wr _ F.STR_STATUS_STATE 6 List.mem_cons_self,
    BytesSame.of_eq rfl rfl rfl rfl⟩

/-- A core that still runs in a page that moves fails the load. -/
theorem parkTimeout_fails (s : State) (hstate : s.rd F.STR_STATUS_STATE = 5) (hflt : s.rd F.FLT_STATUS_STATE = 0) (hmoves : s.forest.codeMoves = [])
    (hcode : s.codeRuns = true) : Answers .parkTimeout s fun u =>
      u.rd F.STR_STATUS_STATE = s.restState ∧ u.rd F.STR_STATUS_LAST_ERR = 0x1F ∧ u.str.staged = [] ∧ u.str.image = s.str.image ∧
      u.rd F.FOR_CODE_BUSY_CNT_COUNT = min (s.rd F.FOR_CODE_BUSY_CNT_COUNT + 1) 65535 := by
  have hpark : s.parkTimeout = s := by
    rw [State.parkTimeout, hmoves]
    rfl
  have hexec : exec .parkTimeout s = .next (s.codeBusy.structFail (flawIn (dirOf s.str.staged) 5 0 0x1F)) := by
    change execParkTimeout s = _
    rw [execParkTimeout, hpark]
    exact if_pos ⟨hstate, State.not_clearing hflt, hcode⟩
  obtain ⟨hst, herr, hstr, -, -, hbusy⟩ := s.codeBusy.structFail_shows (flawIn (dirOf s.str.staged) 5 0 0x1F) rfl
  have honly := (s.incSat F.FOR_CODE_BUSY_CNT_COUNT).event_event Ev.frst 4
  have hregs := (s.incSat F.FOR_CODE_BUSY_CNT_COUNT).event_regs Ev.frst 4
  have hbusystr : s.codeBusy.str = s.str := by
    change ((s.incSat F.FOR_CODE_BUSY_CNT_COUNT).event Ev.frst 4).str = s.str
    rw [honly]
    rfl
  refine ⟨_, hexec, ?_, by rw [herr, flawIn_code], by rw [hstr], by rw [hstr, hbusystr], hbusy.trans ((hregs.rd _ (by decide)).trans ?_)⟩
  · rw [hst, State.restState, State.restState, hbusystr]
  · rw [State.incSat, State.rd_wr_same _ _ _ (by decide)]
    exact Nat.mod_eq_of_lt (Nat.lt_of_le_of_lt (Nat.min_le_right _ _) (by decide))

/-! ## The swap -/

/-- What the plan's dropped moves leave of the structure unit. -/
theorem State.dropForPlan_str (s : State) (a : RegionPlan) : (s.dropForPlan a).str = s.str ∧
    ∀ f : Fld, f.blk = .str → f.addr < 0x10100 → (s.dropForPlan a).rd f = s.rd f := by
  unfold State.dropForPlan
  dsimp only
  generalize hx : State.abandonMoves s _ = x
  have hkept : StrKept s x := hx ▸ (StrKept.refl s).abandonMoves
  generalize x.forest.codeMoves.filter _ = l
  generalize List.foldl _ 0 _ = m
  have hun := (StrKept.refl { x with forest := { x.forest with codeMoves := l } }).unaskPark (mask := m)
  exact ⟨hun.str.trans hkept.str, fun f hb hf => (hun.rd f hb hf).trans ((State.rd_of_regs rfl f).trans (hkept.rd f hb hf))⟩

/-- The state whose units have changed to the new structure, before the unit itself. -/
def State.reshaped (s : State) (a : RegionPlan) : State :=
  let old := s.inForce
  let new := s.str.stagedPlain
  (((((s.disarmChanged old new).dropForPlan a).showStructure new).applyPlan a).applyStructure old new).coppicesOff (changedCoppices old new)

theorem State.reshaped_str (s : State) (a : RegionPlan) : (s.reshaped a).str = s.str ∧ (s.reshaped a).rd F.STR_LOADS_COUNT = s.rd F.STR_LOADS_COUNT := by
  have hdis := (StrKept.refl s).disarmChanged (old := s.inForce) (new := s.str.stagedPlain)
  unfold State.reshaped
  dsimp only
  generalize s.disarmChanged s.inForce s.str.stagedPlain = x at hdis ⊢
  obtain ⟨hstr, hrd⟩ := x.dropForPlan_str a
  generalize x.dropForPlan a = y at hstr hrd ⊢
  have hkept := (StrKept.refl y).showStructure (p := s.str.stagedPlain) |>.applyPlan (a := a) |>.applyStructure (old := s.inForce)
    (new := s.str.stagedPlain) |>.coppicesOff (l := changedCoppices s.inForce s.str.stagedPlain)
  exact ⟨hkept.str.trans (hstr.trans hdis.str), (hkept.rd F.STR_LOADS_COUNT).trans ((hrd _ rfl (by decide)).trans (hdis.rd F.STR_LOADS_COUNT))⟩

/-- The state whose structure unit has the staged image in force. -/
def State.swapImage (s : State) (img : List Byte) (plain : Sections) : State :=
  { s with str := { s.str with image := img, plain := plain, staged := [], stagedPlain := [], cmd := none, held := 0, badWords := [] } }

/-- What the swap shows of the image: its status, version, name and digest. -/
def State.showSwap (s : State) (img : List Byte) : State :=
  let s := s.wrs [(F.STR_STATUS_STATE, 1), (F.STR_STATUS_SOURCE, s.str.src), (F.STR_STATUS_LAST_ERR, 0), (F.STR_ERR_DETAIL_SECTION, 0),
    (F.STR_ERR_DETAIL_OFFSET, 0), (F.STR_SVN_SVN, leAt img 0x14 4)]
  let s := (List.range 4).foldl (fun s i => s.wr (F.STR_BUILD_ID_ID i) (leAt img (0x20 + 4 * i) 4)) s
  (List.range 12).foldl (fun s i => s.wr (F.STR_DIGEST_DIGEST i) (leAt (shaBytes img) (4 * i) 4)) s

/-- The measurement of the image in force, its count and its event. -/
def State.measureSwap (s : State) (img : List Byte) : State := ((s.extendMr 4 (shaBytes img)).incWrap F.STR_LOADS_COUNT).event Ev.str 0

/-- The state after a swap, before its command completes. -/
def State.swappedBy (s : State) (a : RegionPlan) : State :=
  ((((s.reshaped a).swapImage s.str.staged s.str.stagedPlain).showSwap s.str.staged).measureSwap s.str.staged).exchange s.linkIds

theorem exec_structureSwap {a : RegionPlan} {s : State} (hstate : s.rd F.STR_STATUS_STATE = 6) (hflt : s.rd F.FLT_STATUS_STATE = 0)
    (hplan : s.planFor s.str.stagedPlain = some a) (hbad : s.str.badWords = []) :
    exec .structureSwap s = .next (s.str.cmd.elim (s.swappedBy a) fun h => (s.swappedBy a).complete h stOk) := by
  have hgo : ¬ (s.rd F.STR_STATUS_STATE ≠ 6 ∨ s.clearing = true) := by
    rw [State.not_clearing hflt, hstate]
    decide
  change execStructureSwap s = _
  rw [execStructureSwap, if_neg hgo, State.onStore_good hbad hflt]
  dsimp only
  rw [hplan]
  unfold State.swappedBy
  rcases s.str.cmd with _ | h <;> rfl

/-- The fields of the structure unit that a swap shows. -/
structure SwapShown (s : State) (img : List Byte) (src : Nat) : Prop where
  state : s.rd F.STR_STATUS_STATE = 1
  source : s.rd F.STR_STATUS_SOURCE = src % 4
  lastErr : s.rd F.STR_STATUS_LAST_ERR = 0
  svn : s.rd F.STR_SVN_SVN = leAt img 0x14 4
  digest : ∀ i : Fin 12, s.rd (F.STR_DIGEST_DIGEST i) = leAt (shaBytes img) (4 * i) 4

/-- A change that leaves the fields of the swap leaves what they show. -/
theorem SwapShown.kept {s u : State} {img : List Byte} {src : Nat} (h : SwapShown s img src)
    (hrd : ∀ f : Fld, f.blk = .str → f.addr < 0x10050 → f.addr ≠ 0x10008 → f.lsb + f.width ≤ 16 ∨ f.addr ≠ 0x10000 → u.rd f = s.rd f) :
    SwapShown u img src where
  state := (hrd _ rfl (by decide) (by decide) (by decide)).trans h.state
  source := (hrd _ rfl (by decide) (by decide) (by decide)).trans h.source
  lastErr := (hrd _ rfl (by decide) (by decide) (by decide)).trans h.lastErr
  svn := (hrd _ rfl (by decide) (by decide) (by decide)).trans h.svn
  digest i := (hrd _ rfl (by simp only [F.STR_DIGEST_DIGEST]; omega) (by simp only [F.STR_DIGEST_DIGEST]; omega)
    (.inr (by simp only [F.STR_DIGEST_DIGEST]; omega))).trans (h.digest i)

/-- The writes of a swap's status and version. -/
def swapWrites (img : List Byte) (src : Nat) : List (Fld × Nat) :=
  [(F.STR_STATUS_STATE, 1), (F.STR_STATUS_SOURCE, src), (F.STR_STATUS_LAST_ERR, 0), (F.STR_ERR_DETAIL_SECTION, 0), (F.STR_ERR_DETAIL_OFFSET, 0),
    (F.STR_SVN_SVN, leAt img 0x14 4)]

/-- A write of a swap's status or version is what the field reads. -/
theorem State.rd_swapWrites (s : State) (img : List Byte) (src : Nat) {f : Fld} {v : Nat} (hmem : (f, v) ∈ swapWrites img src) :
    (s.wrs (swapWrites img src)).rd f = v % 2 ^ f.width :=
  State.rd_wrs_mem (by simp [swapWrites, Fld.apart, F.STR_STATUS_STATE, F.STR_STATUS_SOURCE, F.STR_STATUS_LAST_ERR, F.STR_ERR_DETAIL_SECTION,
    F.STR_ERR_DETAIL_OFFSET, F.STR_SVN_SVN]) (by simp [swapWrites, F.STR_STATUS_STATE, F.STR_STATUS_SOURCE, F.STR_STATUS_LAST_ERR,
    F.STR_ERR_DETAIL_SECTION, F.STR_ERR_DETAIL_OFFSET, F.STR_SVN_SVN]) s hmem

theorem State.showSwap_eq (s : State) (img : List Byte) : s.showSwap img = ((s.wrs (swapWrites img s.str.src)).wrs
    ((List.range 4).map fun i => (F.STR_BUILD_ID_ID i, leAt img (0x20 + 4 * i) 4))).wrs
    ((List.range 12).map fun i => (F.STR_DIGEST_DIGEST i, leAt (shaBytes img) (4 * i) 4)) := by
  rw [← foldl_wr_eq, ← foldl_wr_eq]
  rfl

theorem State.showSwap_shown (s : State) (img : List Byte) : SwapShown (s.showSwap img) img s.str.src ∧
    (s.showSwap img).str = s.str ∧ (s.showSwap img).rd F.STR_LOADS_COUNT = s.rd F.STR_LOADS_COUNT := by
  have hname : ∀ (x : State) (f : Fld), f.addr < 0x10010 →
      (x.wrs ((List.range 4).map fun i => (F.STR_BUILD_ID_ID i, leAt img (0x20 + 4 * i) 4))).rd f = x.rd f := fun x f hf =>
    State.rd_of_word f (State.word_wrs (fun p hp => by
      obtain ⟨i, -, rfl⟩ := List.mem_map.1 hp
      exact .inl (by simp only [F.STR_BUILD_ID_ID]; omega)) x)
  have hdigest : ∀ (x : State) (f : Fld), f.addr < 0x10010 →
      (x.wrs ((List.range 12).map fun i => (F.STR_DIGEST_DIGEST i, leAt (shaBytes img) (4 * i) 4))).rd f = x.rd f := fun x f hf =>
    State.rd_of_word f (State.word_wrs (fun p hp => by
      obtain ⟨i, -, rfl⟩ := List.mem_map.1 hp
      exact .inl (by simp only [F.STR_DIGEST_DIGEST]; omega)) x)
  have hstatus : ∀ f : Fld, f.addr < 0x10010 → (s.showSwap img).rd f = (s.wrs (swapWrites img s.str.src)).rd f := fun f hf => by
    rw [State.showSwap_eq, hdigest _ f hf, hname _ f hf]
  have hdig : ∀ i : Fin 12, (s.showSwap img).rd (F.STR_DIGEST_DIGEST i) = leAt (shaBytes img) (4 * i) 4 := fun i => by
    rw [State.showSwap_eq, State.rd_wrs_mem (f := F.STR_DIGEST_DIGEST i) (v := leAt (shaBytes img) (4 * i) 4) ?_ ?_ _
      (List.mem_map.2 ⟨i.1, List.mem_range.2 i.2, rfl⟩)]
    · exact Nat.mod_eq_of_lt (leAt_lt _ _ 4)
    · refine List.pairwise_map.mpr (List.nodup_range.imp fun {d e} hne => ⟨.inl ?_, .inl ?_⟩) <;> simp only [F.STR_DIGEST_DIGEST] <;> omega
    · intro p hp
      obtain ⟨j, -, rfl⟩ := List.mem_map.1 hp
      exact Nat.le_refl 32
  refine ⟨⟨?_, ?_, ?_, ?_, hdig⟩, ?_, ?_⟩
  · exact (hstatus _ (by decide)).trans (s.rd_swapWrites img s.str.src (v := 1) (by simp [swapWrites]))
  · exact (hstatus _ (by decide)).trans (s.rd_swapWrites img s.str.src (by simp [swapWrites]))
  · exact (hstatus _ (by decide)).trans (s.rd_swapWrites img s.str.src (v := 0) (by simp [swapWrites]))
  · exact ((hstatus _ (by decide)).trans (s.rd_swapWrites img s.str.src (by simp [swapWrites]))).trans (Nat.mod_eq_of_lt (leAt_lt _ _ 4))
  · rw [State.showSwap_eq, State.wrs_str, State.wrs_str, State.wrs_str]
  · refine (hstatus _ (by decide)).trans (State.rd_of_word _ (State.word_wrs (fun p hp => ?_) s))
    simp only [swapWrites, List.mem_cons, List.not_mem_nil, or_false] at hp
    rcases hp with rfl | rfl | rfl | rfl | rfl | rfl <;> exact .inl (by simp [F.STR_LOADS_COUNT, F.STR_STATUS_STATE, F.STR_STATUS_SOURCE, F.STR_STATUS_LAST_ERR,
      F.STR_ERR_DETAIL_SECTION, F.STR_ERR_DETAIL_OFFSET, F.STR_SVN_SVN])

theorem State.measureSwap_shown {s : State} {img : List Byte} {src : Nat} (h : SwapShown s img src) : SwapShown (s.measureSwap img) img src ∧
    (s.measureSwap img).str = s.str ∧ (s.measureSwap img).rd F.STR_LOADS_COUNT = (s.rd F.STR_LOADS_COUNT + 1) % 2 ^ 32 ∧
    bitOf ((s.measureSwap img).rd Ev.str.bits) 0 = true := by
  have hext : ∀ f : Fld, f.blk = .str → (s.extendMr 4 (shaBytes img)).rd f = s.rd f := fun f hf =>
    (State.rd_wr_other _ (F.SEC_MR_CNT_COUNT 4) f _ (.inr (by rw [hf]; nofun))).trans (State.rd_of_regs rfl f)
  have hextstr : (s.extendMr 4 (shaBytes img)).str = s.str := rfl
  unfold State.measureSwap
  generalize s.extendMr 4 (shaBytes img) = x at hext hextstr ⊢
  have hcount : ∀ f : Fld, f.addr ≠ 0x10008 → (x.incWrap F.STR_LOADS_COUNT).rd f = x.rd f := fun f hf => State.rd_wr_other _ _ _ _ (.inl hf)
  have hloads : (x.incWrap F.STR_LOADS_COUNT).rd F.STR_LOADS_COUNT = (x.rd F.STR_LOADS_COUNT + 1) % 2 ^ 32 := State.rd_wr_same _ _ _ (by decide)
  have hcountstr : (x.incWrap F.STR_LOADS_COUNT).str = x.str := rfl
  generalize x.incWrap F.STR_LOADS_COUNT = y at hcount hloads hcountstr ⊢
  have hregs := y.event_regs Ev.str 0
  have hlow : ∀ f : Fld, f.addr < 0x10050 → (y.event Ev.str 0).rd f = y.rd f := fun f hf => hregs.rd f fun hm => by
    have hout : ∀ a ∈ evOut Ev.str, 0x10050 ≤ a := by decide
    exact absurd (hout _ hm) (by omega)
  refine ⟨h.kept fun f hblk hlt hne _ => ?_, ?_, ?_, y.event_bit Ev.str (by decide) (by decide)⟩
  · rw [hlow f hlt, hcount f hne, hext f hblk]
  · have honly := y.event_event Ev.str 0
    rw [honly]
    exact hcountstr.trans hextstr
  · rw [hlow _ (by decide), hloads, hext _ rfl]

theorem State.noteAgreed_rd (s : State) {f : Fld} (hlt : f.addr < 0x10100) (hapart : f.lsb + f.width ≤ 16 ∨ f.addr ≠ 0x10000) :
    s.noteAgreed.rd f = s.rd f ∧ s.noteAgreed.str = s.str := by
  unfold State.noteAgreed
  dsimp only
  generalize (allFin 8).filter _ = l
  have hagreed : ∀ x : State, (l.foldl (fun (s : State) (l : Fin 8) => s.wr (F.STR_LINK_AGREED l) (b2n (s.agrees l))) x).rd f = x.rd f ∧
      (l.foldl (fun (s : State) (l : Fin 8) => s.wr (F.STR_LINK_AGREED l) (b2n (s.agrees l))) x).str = x.str := fun x =>
    foldl_rel (R := fun x y : State => y.rd f = x.rd f ∧ y.str = x.str) (fun _ => ⟨rfl, rfl⟩) (fun h k => ⟨k.1.trans h.1, k.2.trans h.2⟩)
      (f := fun (s : State) (l : Fin 8) => s.wr (F.STR_LINK_AGREED l) (b2n (s.agrees l)))
      (fun s l => ⟨State.rd_wr_other _ (F.STR_LINK_AGREED l) _ _ (.inl (by simp only [F.STR_LINK_AGREED]; omega)), rfl⟩) l x
  obtain ⟨hrd, hstr⟩ := hagreed s
  refine ⟨Eq.trans (State.rd_wr_apart _ F.STR_STATUS_LINK_PENDING _ _ (by decide) ?_) hrd, hstr⟩
  rcases hapart with h | h
  · exact .inr (.inr (by simp only [F.STR_STATUS_LINK_PENDING]; omega))
  · exact .inl h

theorem State.sendDescs_still (s : State) (n : Fin 8) : (s.sendDescs n).str = s.str ∧ (s.sendDescs n).regs = s.regs := by
  unfold State.sendDescs
  exact foldl_rel (R := fun x y : State => y.str = x.str ∧ y.regs = x.regs) (fun _ => ⟨rfl, rfl⟩) (fun h k => ⟨k.1.trans h.1, k.2.trans h.2⟩)
    (f := fun (s : State) (l : Fin 8) => s.queueToken n (s.ownDesc l) 3) (fun _ _ => ⟨rfl, rfl⟩) _ _

theorem State.exchange_rd (s : State) (old : List Nat) : (s.exchange old).str = s.str ∧ ∀ f : Fld, f.addr < 0x10100 →
    f.lsb + f.width ≤ 16 ∨ f.addr ≠ 0x10000 → (s.exchange old).rd f = s.rd f := by
  have hdescs : ∀ w : State, ({ s with links := { s.links with descs := s.links.descs.filter fun d => !old.contains (descId d.2) } } : State) = w →
      w.str = s.str ∧ w.regs = s.regs := by
    rintro w rfl
    exact ⟨rfl, rfl⟩
  unfold State.exchange
  dsimp only
  generalize ({ s with links := { s.links with descs := s.links.descs.filter fun d => !old.contains (descId d.2) } } : State) = w at hdescs ⊢
  obtain ⟨hstr, hregs⟩ := hdescs w rfl
  generalize (allFin 8).filter _ = l
  have hsent := foldl_rel (R := fun x y : State => y.str = x.str ∧ y.regs = x.regs) (fun _ => ⟨rfl, rfl⟩) (fun h k => ⟨k.1.trans h.1, k.2.trans h.2⟩)
    (f := State.sendDescs) (fun s n => s.sendDescs_still n) l w
  generalize l.foldl State.sendDescs w = x at hsent ⊢
  refine ⟨(x.noteAgreed_rd (f := F.STR_LOADS_COUNT) (by decide) (.inr (by decide))).2.trans (hsent.1.trans hstr), fun f hlt hapart => ?_⟩
  rw [(x.noteAgreed_rd hlt hapart).1, State.rd_of_regs hsent.2, State.rd_of_regs hregs]

theorem State.exchange_shown {s : State} {img : List Byte} {src : Nat} (h : SwapShown s img src) (old : List Nat) : SwapShown (s.exchange old) img src ∧
    (s.exchange old).str = s.str ∧ (s.exchange old).rd F.STR_LOADS_COUNT = s.rd F.STR_LOADS_COUNT ∧
    (s.exchange old).rd Ev.str.bits = s.rd Ev.str.bits := by
  obtain ⟨hstr, hrd⟩ := s.exchange_rd old
  exact ⟨h.kept fun f _ hlt _ hapart => hrd f (by omega) hapart, hstr, hrd _ (by decide) (.inr (by decide)), hrd _ (by decide) (.inr (by decide))⟩

/-- A placed image is swapped in whole, shown, measured and counted. -/
theorem structureSwap_swaps (a : RegionPlan) (s : State) (hstate : s.rd F.STR_STATUS_STATE = 6) (hflt : s.rd F.FLT_STATUS_STATE = 0)
    (hplan : s.planFor s.str.stagedPlain = some a) (hbad : s.str.badWords = []) : Answers .structureSwap s fun u =>
      u.rd F.STR_STATUS_STATE = 1 ∧ u.rd F.STR_STATUS_SOURCE = s.str.src % 4 ∧ u.rd F.STR_STATUS_LAST_ERR = 0 ∧
      u.str.image = s.str.staged ∧ u.str.plain = s.str.stagedPlain ∧ u.str.staged = [] ∧ u.str.cmd = none ∧
      u.rd F.STR_SVN_SVN = leAt s.str.staged 0x14 4 ∧ u.rd F.STR_LOADS_COUNT = (s.rd F.STR_LOADS_COUNT + 1) % 2 ^ 32 ∧
      (∀ i : Fin 12, u.rd (F.STR_DIGEST_DIGEST i) = leAt (shaBytes s.str.staged) (4 * i) 4) ∧ bitOf (u.rd Ev.str.bits) 0 = true ∧
      (∀ h, s.str.cmd = some h → ⟨h, stOk, 0, 0, false⟩ ∈ u.hq.compls) := by
  have hexec := exec_structureSwap hstate hflt hplan hbad
  obtain ⟨hrstr, hrloads⟩ := s.reshaped_str a
  have hswap : ∀ w : State, (s.reshaped a).swapImage s.str.staged s.str.stagedPlain = w → w.regs = (s.reshaped a).regs ∧
      w.str.image = s.str.staged ∧ w.str.plain = s.str.stagedPlain ∧ w.str.staged = [] ∧ w.str.cmd = none ∧ w.str.src = s.str.src := by
    rintro w rfl
    exact ⟨rfl, rfl, rfl, rfl, rfl, by rw [← hrstr]; rfl⟩
  unfold State.swappedBy at hexec
  generalize (s.reshaped a).swapImage s.str.staged s.str.stagedPlain = w at hswap hexec
  obtain ⟨hregs, himage, hplain, hstaged, hcmd, hsrc⟩ := hswap w rfl
  obtain ⟨hshown, hstr, hloads⟩ := w.showSwap_shown s.str.staged
  generalize w.showSwap s.str.staged = x at hshown hstr hloads hexec
  obtain ⟨hshown, hxstr, hxloads, hbit⟩ := State.measureSwap_shown hshown
  generalize x.measureSwap s.str.staged = y at hshown hxstr hxloads hbit hexec
  obtain ⟨hshown, hystr, hyloads, hybits⟩ := State.exchange_shown hshown s.linkIds
  generalize y.exchange s.linkIds = z at hshown hystr hyloads hybits hexec
  have hzstr : z.str = w.str := hystr.trans (hxstr.trans hstr)
  have hzloads : z.rd F.STR_LOADS_COUNT = (s.rd F.STR_LOADS_COUNT + 1) % 2 ^ 32 := by
    rw [hyloads, hxloads, hloads, State.rd_of_regs hregs, hrloads]
  have hzbit : bitOf (z.rd Ev.str.bits) 0 = true := by rw [hybits, hbit]
  rw [hsrc] at hshown
  rw [← hzstr] at himage hplain hstaged hcmd
  rcases hc : s.str.cmd with _ | h
  · rw [hc] at hexec
    exact ⟨_, hexec, hshown.state, hshown.source, hshown.lastErr, himage, hplain, hstaged, hcmd, hshown.svn, hzloads, hshown.digest, hzbit, nofun⟩
  · rw [hc] at hexec
    exact ⟨_, hexec, hshown.state, hshown.source, hshown.lastErr, himage, hplain, hstaged, hcmd, hshown.svn, hzloads, hshown.digest, hzbit,
      fun _ he => Option.some.inj he ▸ List.mem_append_right _ List.mem_cons_self⟩

/-! ## Where a stage has no effect, and the store's parity -/

/-- The stages after a load's command that need its state and no Firebreak that clears. -/
theorem stages_wait {s : State} (h : ∀ n, 2 ≤ n → s.rd F.STR_STATUS_STATE ≠ n ∨ s.clearing = true) : NoEffect .structureStaged s ∧
    NoEffect .structureValidated s ∧ NoEffect .dryRunPlacementDone s ∧ NoEffect .quiesceComplete s ∧ NoEffect .structureSwap s := by
  refine ⟨if_pos (h 2 (by decide)), if_pos (h 3 (by decide)), if_pos (h 4 (by decide)), if_pos ?_, if_pos (h 6 (by decide))⟩
  rcases h 5 (by decide) with h | h
  · exact .inl h
  · exact .inr (.inl h)

theorem quiesceComplete_waits (s : State) (h : s.cal.run.isSome = true ∨ s.codeRuns = true) : NoEffect .quiesceComplete s :=
  if_pos (.inr (.inr h))

theorem parkTimeout_late (s : State) (hmoves : s.forest.codeMoves = []) (hstate : s.rd F.STR_STATUS_STATE ≠ 5) : NoEffect .parkTimeout s := by
  have hpark : s.parkTimeout = s := by
    rw [State.parkTimeout, hmoves]
    rfl
  change execParkTimeout s = _
  rw [execParkTimeout, hpark]
  exact if_neg fun h => hstate h.1

/-- A bad word of the store is kept, and raises source 1. -/
theorem structureScrub_faults (w : Nat) (s : State) : Answers (.structureScrub (some w)) s fun u =>
    u.str.badWords = w :: s.str.badWords.filter (fun v => v ≠ w) ∧ u.latched 1 = true := by
  have hbad : ∀ x : State, ({ s with str := { s.str with badWords := (some w).toList ++ s.str.badWords.filter fun v => some w != some v } } : State) = x →
      x.str.badWords = w :: s.str.badWords.filter fun v => v ≠ w := by
    rintro x rfl
    refine congrArg (w :: ·) (List.filter_congr fun v _ => ?_)
    by_cases h : v = w
    · subst h
      simp
    · simp [h, Ne.symm h]
  have hexec : exec (.structureScrub (some w)) s =
      .next (State.useStore { s with str := { s.str with badWords := (some w).toList ++ s.str.badWords.filter fun v => some w != some v } }) := rfl
  generalize ({ s with str := { s.str with badWords := (some w).toList ++ s.str.badWords.filter fun v => some w != some v } } : State) = x at hbad hexec
  have hx := hbad x rfl
  rw [State.useStore, hx, if_neg (by simp)] at hexec
  obtain ⟨hcalm, -, hlatched⟩ := x.fault_reaches (i := 1) (by decide) none false false rfl
  refine ⟨_, hexec, ?_, hlatched⟩
  have hstr : (x.fault 1 none false false).calm.str = x.calm.str := congrArg State.str hcalm
  exact (congrArg Struct.badWords hstr).trans hx

theorem structureScrub_good (s : State) (hbad : s.str.badWords = []) : NoEffect (.structureScrub none) s := by
  have hsame : ({ s with str := { s.str with badWords := (none : Option Nat).toList ++ s.str.badWords.filter fun v => none != some v } } : State) = s := by
    have hlist : (none : Option Nat).toList ++ s.str.badWords.filter (fun v => none != some v) = s.str.badWords := by
      rw [hbad]
      rfl
    rw [hlist]
  have hexec : exec (.structureScrub none) s =
      .next (State.useStore { s with str := { s.str with badWords := (none : Option Nat).toList ++ s.str.badWords.filter fun v => none != some v } }) := rfl
  rw [hsame, State.useStore_of_good hbad] at hexec
  exact hexec

end Sys2Proof.Machine

open Sys2Proof Sys2Proof.Machine

/-- Settles O53: each stage of a load on the state that enters it, its failure and its swap, with what the units it changes leave of the
structure unit. -/
theorem structureLoads : Obligations.StructureLoads := by
  unfold Obligations.StructureLoads
  refine ⟨structLoad_stages, structLoad_reloading, structLoad_busy, structureStaged_puts, ?_, dryRun_asks, dryRun_fails, quiesceComplete_swaps,
    quiesceComplete_waits, parkTimeout_late, parkTimeout_fails, structureSwap_swaps, ?_, ?_, structureScrub_good, structureScrub_faults⟩
  · intro s hstate hflt
    obtain ⟨hfail, hpass⟩ := structureValidated_judges s hstate hflt
    rcases h : s.checkImage s.str.staged s.str.len with f | p
    · exact hfail f h
    · exact hpass p h
  · intro s hflt
    exact stages_wait fun n _ => .inr (bne_iff_ne.2 hflt)
  · intro s hstate
    exact stages_wait fun n hn => .inl (by omega)
end
